-- ==== Sys2Proof/Word.lean ====
section
/-! DEFINITION. The word types of the machine and their plainest arithmetic (R1 to R5, R27). -/

namespace Sys2Proof

/-- A 64-bit register word. -/
abbrev Word := BitVec 64
/-- A byte of memory. -/
abbrev Byte := BitVec 8
/-- The number of a register in its class (R45). -/
abbrev Reg := BitVec 5
/-- An instruction word (R40). -/
abbrev IWord := BitVec 32
/-- A vector register's 256 bits (R230). -/
abbrev Vec := BitVec 256

end Sys2Proof
end

