-- ==== Sys2Proof/Syntax.lean ====
section
/-! DEFINITION. The instruction set: one constructor per row of the opcode table (R55, R56, and the
hardware, host and management steps that no word encodes). A constructor carries its operand fields as the
table names them, lowest bits first; `g` is the selector bit of a governable instruction (R50). -/

namespace Sys2Proof

/-- One instruction, or one hardware, host or management step (an event row). -/
inductive Instr where
  /-- PFX (R47): Prefix word that sets rounding, saturation, NaN policy, type override and scale for the one governed instruction that follows it, and executes as one pair with it. -/
  | pfx (p : BitVec 3) (s : Bool) (n : BitVec 2) (o : BitVec 4) (c : Bool) (r : BitVec 5)
  /-- ADD (R260): X(rd) := wrap(X(rs1) + X(rs2), 64). -/
  | add (d : BitVec 5) (a : BitVec 5) (b : BitVec 5)
  /-- SUB (R260): X(rd) := wrap(X(rs1) - X(rs2), 64). -/
  | sub (d : BitVec 5) (a : BitVec 5) (b : BitVec 5)
  /-- AND (R260): Bitwise AND of two registers. -/
  | and (d : BitVec 5) (a : BitVec 5) (b : BitVec 5)
  /-- OR (R260): Bitwise OR of two registers. -/
  | or (d : BitVec 5) (a : BitVec 5) (b : BitVec 5)
  /-- XOR (R260): Bitwise XOR of two registers. -/
  | xor (d : BitVec 5) (a : BitVec 5) (b : BitVec 5)
  /-- SLL (R260): Shift left logical by X(rs2)[5:0]. -/
  | sll (d : BitVec 5) (a : BitVec 5) (b : BitVec 5)
  /-- SRL (R260): Shift right logical by X(rs2)[5:0]. -/
  | srl (d : BitVec 5) (a : BitVec 5) (b : BitVec 5)
  /-- SRA (R260): Shift right arithmetic by X(rs2)[5:0]. -/
  | sra (d : BitVec 5) (a : BitVec 5) (b : BitVec 5)
  /-- SLT (R260): Set 1 if signed less than, else 0. -/
  | slt (d : BitVec 5) (a : BitVec 5) (b : BitVec 5)
  /-- SLTU (R260): Set 1 if unsigned less than, else 0. -/
  | sltu (d : BitVec 5) (a : BitVec 5) (b : BitVec 5)
  /-- MIN (R260): Signed minimum of two registers. -/
  | min (d : BitVec 5) (a : BitVec 5) (b : BitVec 5)
  /-- MAX (R260): Signed maximum of two registers. -/
  | max (d : BitVec 5) (a : BitVec 5) (b : BitVec 5)
  /-- MINU (R260): Unsigned minimum of two registers. -/
  | minu (d : BitVec 5) (a : BitVec 5) (b : BitVec 5)
  /-- MAXU (R260): Unsigned maximum of two registers. -/
  | maxu (d : BitVec 5) (a : BitVec 5) (b : BitVec 5)
  /-- ADDW (R260): 32-bit add, sign-extended. -/
  | addw (d : BitVec 5) (a : BitVec 5) (b : BitVec 5)
  /-- SUBW (R260): 32-bit subtract, sign-extended. -/
  | subw (d : BitVec 5) (a : BitVec 5) (b : BitVec 5)
  /-- ANDN (R260): X(rs1) AND NOT X(rs2). -/
  | andn (d : BitVec 5) (a : BitVec 5) (b : BitVec 5)
  /-- ORN (R260): X(rs1) OR NOT X(rs2). -/
  | orn (d : BitVec 5) (a : BitVec 5) (b : BitVec 5)
  /-- ROL (R260): Rotate left by X(rs2)[5:0]. -/
  | rol (d : BitVec 5) (a : BitVec 5) (b : BitVec 5)
  /-- ROR (R260): Rotate right by X(rs2)[5:0]. -/
  | ror (d : BitVec 5) (a : BitVec 5) (b : BitVec 5)
  /-- ADDI (R261): Add sign-extended 14-bit immediate. -/
  | addi (d : BitVec 5) (a : BitVec 5) (i : BitVec 14)
  /-- ANDI (R261): AND with sign-extended 14-bit immediate. -/
  | andi (d : BitVec 5) (a : BitVec 5) (i : BitVec 14)
  /-- ORI (R261): OR with sign-extended 14-bit immediate. -/
  | ori (d : BitVec 5) (a : BitVec 5) (i : BitVec 14)
  /-- XORI (R261): XOR with sign-extended 14-bit immediate. -/
  | xori (d : BitVec 5) (a : BitVec 5) (i : BitVec 14)
  /-- SLLI (R261): Shift left logical by an immediate amount. -/
  | slli (d : BitVec 5) (a : BitVec 5) (n : BitVec 6)
  /-- SRLI (R261): Shift right logical by an immediate amount. -/
  | srli (d : BitVec 5) (a : BitVec 5) (n : BitVec 6)
  /-- SRAI (R261): Shift right arithmetic by an immediate amount. -/
  | srai (d : BitVec 5) (a : BitVec 5) (n : BitVec 6)
  /-- RORI (R261): Rotate right by an immediate amount. -/
  | rori (d : BitVec 5) (a : BitVec 5) (n : BitVec 6)
  /-- SLTI (R261): Set 1 if signed less than the immediate. -/
  | slti (d : BitVec 5) (a : BitVec 5) (i : BitVec 14)
  /-- MUL (R262): Low 64 bits of the product. -/
  | mul (d : BitVec 5) (a : BitVec 5) (b : BitVec 5)
  /-- MULH (R262): High 64 bits of the signed product. -/
  | mulh (d : BitVec 5) (a : BitVec 5) (b : BitVec 5)
  /-- MULHU (R262): High 64 bits of the unsigned product. -/
  | mulhu (d : BitVec 5) (a : BitVec 5) (b : BitVec 5)
  /-- DIV (R263): Signed division truncated toward zero; it never traps. -/
  | div (d : BitVec 5) (a : BitVec 5) (b : BitVec 5)
  /-- DIVU (R263): Unsigned division; it never traps. -/
  | divu (d : BitVec 5) (a : BitVec 5) (b : BitVec 5)
  /-- REM (R263): Signed remainder. -/
  | rem (d : BitVec 5) (a : BitVec 5) (b : BitVec 5)
  /-- REMU (R263): Unsigned remainder. -/
  | remu (d : BitVec 5) (a : BitVec 5) (b : BitVec 5)
  /-- MULW (R262): 32-bit multiply, sign-extended. -/
  | mulw (d : BitVec 5) (a : BitVec 5) (b : BitVec 5)
  /-- BFX (R265): Extract an unsigned bit field. -/
  | bfx (d : BitVec 5) (a : BitVec 5) (p : BitVec 6) (w : BitVec 6)
  /-- BFXS (R265): Extract a sign-extended bit field. -/
  | bfxs (d : BitVec 5) (a : BitVec 5) (p : BitVec 6) (w : BitVec 6)
  /-- BFI (R265): Insert the low bits of X(rs1) into a field of X(rd). -/
  | bfi (d : BitVec 5) (a : BitVec 5) (p : BitVec 6) (w : BitVec 6)
  /-- CLZ (R265): Count leading zero bits. -/
  | clz (d : BitVec 5) (a : BitVec 5)
  /-- CTZ (R265): Count trailing zero bits. -/
  | ctz (d : BitVec 5) (a : BitVec 5)
  /-- POPC (R265): Count one bits. -/
  | popc (d : BitVec 5) (a : BitVec 5)
  /-- LDHI (R266): X(rd) := sext(imm19) x 2^14. -/
  | ldhi (d : BitVec 5) (i : BitVec 19)
  /-- ADDPC (R266): X(rd) := PC + 4 x sext(imm19). -/
  | addpc (d : BitVec 5) (i : BitVec 19)
  /-- LDI (R266): Long instruction loading a sign-extended 32-bit payload. -/
  | ldi (d : BitVec 5) (imm : BitVec 32)
  /-- LDIU (R266): Long instruction loading a zero-extended 32-bit payload. -/
  | ldiu (d : BitVec 5) (imm : BitVec 32)
  /-- ADDIL (R266): Long instruction adding a sign-extended 32-bit payload to X(rs1). -/
  | addil (d : BitVec 5) (a : BitVec 5) (imm : BitVec 32)
  /-- BEQ (R267): Branch if equal. -/
  | beq (a : BitVec 5) (b : BitVec 5) (o : BitVec 14)
  /-- BNE (R267): Branch if not equal. -/
  | bne (a : BitVec 5) (b : BitVec 5) (o : BitVec 14)
  /-- BLT (R267): Branch if signed less than. -/
  | blt (a : BitVec 5) (b : BitVec 5) (o : BitVec 14)
  /-- BGE (R267): Branch if signed greater or equal. -/
  | bge (a : BitVec 5) (b : BitVec 5) (o : BitVec 14)
  /-- BLTU (R267): Branch if unsigned less than. -/
  | bltu (a : BitVec 5) (b : BitVec 5) (o : BitVec 14)
  /-- BGEU (R267): Branch if unsigned greater or equal. -/
  | bgeu (a : BitVec 5) (b : BitVec 5) (o : BitVec 14)
  /-- JAL (R268): PC-relative jump that writes PC + 4 as the link. -/
  | jal (d : BitVec 5) (i : BitVec 19)
  /-- JALR (R268): Register-indirect jump with link; a misaligned target traps. -/
  | jalr (d : BitVec 5) (a : BitVec 5) (i : BitVec 14)
  /-- JL (R268): Long PC-relative jump that writes PC + 8 as the link. -/
  | jl (d : BitVec 5) (imm : BitVec 32)
  /-- LOOP (R271): Starts the context's hardware loop over the next len words, or skips the body when the count is 0. -/
  | loop (c : BitVec 5) (l : BitVec 14)
  /-- LB (R127): Load a sign-extended byte. -/
  | lb (d : BitVec 5) (a : BitVec 5) (o : BitVec 9) (t : BitVec 2)
  /-- LBU (R127): Load a zero-extended byte. -/
  | lbu (d : BitVec 5) (a : BitVec 5) (o : BitVec 9) (t : BitVec 2)
  /-- LH (R127): Load a sign-extended half-word. -/
  | lh (d : BitVec 5) (a : BitVec 5) (o : BitVec 9) (t : BitVec 2)
  /-- LHU (R127): Load a zero-extended half-word. -/
  | lhu (d : BitVec 5) (a : BitVec 5) (o : BitVec 9) (t : BitVec 2)
  /-- LW (R127): Load a sign-extended word. -/
  | lw (d : BitVec 5) (a : BitVec 5) (o : BitVec 9) (t : BitVec 2)
  /-- LWU (R127): Load a zero-extended word. -/
  | lwu (d : BitVec 5) (a : BitVec 5) (o : BitVec 9) (t : BitVec 2)
  /-- LD (R127): Load a double-word. -/
  | ld (d : BitVec 5) (a : BitVec 5) (o : BitVec 9) (t : BitVec 2)
  /-- SB (R127): Store a byte. -/
  | sb (v : BitVec 5) (a : BitVec 5) (o : BitVec 9) (t : BitVec 2)
  /-- SH (R127): Store a half-word. -/
  | sh (v : BitVec 5) (a : BitVec 5) (o : BitVec 9) (t : BitVec 2)
  /-- SW (R127): Store a word. -/
  | sw (v : BitVec 5) (a : BitVec 5) (o : BitVec 9) (t : BitVec 2)
  /-- SD (R127): Store a double-word. -/
  | sd (v : BitVec 5) (a : BitVec 5) (o : BitVec 9) (t : BitVec 2)
  /-- LDL (R127): Long load with a 32-bit byte offset. -/
  | ldl (d : BitVec 5) (a : BitVec 5) (f : BitVec 3) (t : BitVec 2) (imm : BitVec 32)
  /-- STL (R127): Long store with a 32-bit byte offset. -/
  | stl (v : BitVec 5) (a : BitVec 5) (f : BitVec 3) (t : BitVec 2) (imm : BitVec 32)
  /-- LDV (R200): Load 32 bytes, or 8 lanes through a format window, into a vector register. -/
  | ldv (d : BitVec 5) (a : BitVec 5) (o : BitVec 9) (t : BitVec 2)
  /-- LDVX (R200): Vector load at base plus index register. -/
  | ldvx (d : BitVec 5) (a : BitVec 5) (i : BitVec 5) (t : BitVec 2)
  /-- LDVB (R200): Load one element and broadcast it to every lane. -/
  | ldvb (d : BitVec 5) (a : BitVec 5) (o : BitVec 9) (t : BitVec 2)
  /-- STV (R201): Store a vector register, narrowed through a window if one is given. -/
  | stv (v : BitVec 5) (a : BitVec 5) (o : BitVec 9) (t : BitVec 2)
  /-- STVX (R201): Vector store at base plus index register. -/
  | stvx (v : BitVec 5) (a : BitVec 5) (i : BitVec 5) (t : BitVec 2)
  /-- AMOADD (R130): Atomic wrap-around add. -/
  | amoadd (d : BitVec 5) (a : BitVec 5) (b : BitVec 5) (w : Bool) (p : BitVec 2) (n : Bool)
  /-- AMOAND (R130): Atomic AND. -/
  | amoand (d : BitVec 5) (a : BitVec 5) (b : BitVec 5) (w : Bool) (p : BitVec 2) (n : Bool)
  /-- AMOOR (R130): Atomic OR. -/
  | amoor (d : BitVec 5) (a : BitVec 5) (b : BitVec 5) (w : Bool) (p : BitVec 2) (n : Bool)
  /-- AMOXOR (R130): Atomic XOR. -/
  | amoxor (d : BitVec 5) (a : BitVec 5) (b : BitVec 5) (w : Bool) (p : BitVec 2) (n : Bool)
  /-- AMOMIN (R130): Atomic signed minimum. -/
  | amomin (d : BitVec 5) (a : BitVec 5) (b : BitVec 5) (w : Bool) (p : BitVec 2) (n : Bool)
  /-- AMOMAX (R130): Atomic signed maximum. -/
  | amomax (d : BitVec 5) (a : BitVec 5) (b : BitVec 5) (w : Bool) (p : BitVec 2) (n : Bool)
  /-- AMOMINU (R130): Atomic unsigned minimum. -/
  | amominu (d : BitVec 5) (a : BitVec 5) (b : BitVec 5) (w : Bool) (p : BitVec 2) (n : Bool)
  /-- AMOMAXU (R130): Atomic unsigned maximum. -/
  | amomaxu (d : BitVec 5) (a : BitVec 5) (b : BitVec 5) (w : Bool) (p : BitVec 2) (n : Bool)
  /-- AMOSWAP (R130): Atomic swap. -/
  | amoswap (d : BitVec 5) (a : BitVec 5) (b : BitVec 5) (w : Bool) (p : BitVec 2) (n : Bool)
  /-- AMOCAS (R130): Atomic compare-and-swap against X(rd). -/
  | amocas (d : BitVec 5) (a : BitVec 5) (b : BitVec 5) (w : Bool) (p : BitVec 2)
  /-- AMOFADD (R131): Atomic FP32 add, governable for RND and NANP. -/
  | amofadd (g : Bool) (d : BitVec 5) (a : BitVec 5) (b : BitVec 5) (p : BitVec 2) (n : Bool)
  /-- AMOFMIN (R131): Atomic FP32 minimum. -/
  | amofmin (d : BitVec 5) (a : BitVec 5) (b : BitVec 5) (p : BitVec 2) (n : Bool)
  /-- AMOFMAX (R131): Atomic FP32 maximum. -/
  | amofmax (d : BitVec 5) (a : BitVec 5) (b : BitVec 5) (p : BitVec 2) (n : Bool)
  /-- NMADD (R70): Near-memory wrap-around add, applied in the base die. -/
  | nmadd (a : BitVec 5) (b : BitVec 5) (v : Bool)
  /-- NMFADD (R70): Near-memory FP32 add. -/
  | nmfadd (a : BitVec 5) (b : BitVec 5) (v : Bool)
  /-- NMMAX (R70): Near-memory signed maximum. -/
  | nmmax (a : BitVec 5) (b : BitVec 5) (v : Bool)
  /-- NMMIN (R70): Near-memory signed minimum. -/
  | nmmin (a : BitVec 5) (b : BitVec 5) (v : Bool)
  /-- NMOR (R70): Near-memory OR. -/
  | nmor (a : BitVec 5) (b : BitVec 5) (v : Bool)
  /-- LKACQ (R161): Acquires a line lock, queuing in the sluice with a timeout. -/
  | lkacq (d : BitVec 5) (a : BitVec 5) (t : BitVec 5) (s : BitVec 3)
  /-- LKTRY (R163): Acquires a line lock only if no queuing is needed. -/
  | lktry (d : BitVec 5) (a : BitVec 5) (s : BitVec 3)
  /-- LKREL (R164): Releases a held line lock after a release fence at the lock's scope. -/
  | lkrel (d : BitVec 5) (a : BitVec 5) (s : BitVec 3)
  /-- LKSTAT (R167): Reads a snapshot of a lock's state at its home. -/
  | lkstat (d : BitVec 5) (a : BitVec 5)
  /-- FENCE (R140): Waits until earlier accesses of the chosen classes are performed at the scope, then holds later accesses by kind. -/
  | fence (s : BitVec 3) (l : BitVec 5) (k : BitVec 2)
  /-- XPROBE (R113): Walks the page table for a VA without permission checks and writes the result. -/
  | xprobe (d : BitVec 5) (a : BitVec 5)
  /-- XINV (R114): Drops a page's translations, data lines and L1 copies within the scope and waits for transfers under them. -/
  | xinv (s : BitVec 5) (a : BitVec 5)
  /-- XINVAS (R115): XINV for every page of one or all address spaces. -/
  | xinvas (s : BitVec 5) (a : BitVec 5)
  /-- SYNCI (R144): Drops instruction-cache lines of a range within the scope and discards fetched-ahead words. -/
  | synci (s : BitVec 5) (a : BitVec 5) (n : BitVec 5)
  /-- SURVEY (R116): Gathers a granule's requester-quadrant counters from all dies, optionally clearing them. -/
  | survey (d : BitVec 5) (a : BitVec 5) (m : BitVec 5)
  /-- XMIG (R118): Migrates a page to a new frame with copy, freeze, switch and invalidation. -/
  | xmig (d : BitVec 5) (a : BitVec 5) (f : BitVec 5)
  /-- TRAP (R421): Raises TRAP_INSTR with TVAL = X(rs1). -/
  | trap (a : BitVec 5)
  /-- ERET (R424): Returns the system context from its own trap to TPC of slot 11. -/
  | eret
  /-- WFE (R422): System context waits for a parked slot and selects it, or times out. -/
  | wfe (d : BitVec 5) (t : BitVec 5)
  /-- HALT (R425): Stops slot 11 with a KIND 3 machine-check record. -/
  | halt
  /-- BRK (R421): Raises BREAKPOINT. -/
  | brk
  /-- RESUME (R423): Resumes or kills the selected parked slot. -/
  | resume (d : BitVec 5) (m : BitVec 5)
  /-- CSRRW (R274): Reads a CSR and writes a new value. -/
  | csrrw (d : BitVec 5) (a : BitVec 5) (c : BitVec 12)
  /-- CSRRS (R274): Reads a CSR and sets bits. -/
  | csrrs (d : BitVec 5) (a : BitVec 5) (c : BitVec 12)
  /-- CSRRC (R274): Reads a CSR and clears bits. -/
  | csrrc (d : BitVec 5) (a : BitVec 5) (c : BitVec 12)
  /-- VADD (R288): Element-wise add. -/
  | vadd (g : Bool) (d : BitVec 5) (a : BitVec 5) (b : BitVec 5) (t : BitVec 3)
  /-- VSUB (R288): Element-wise subtract. -/
  | vsub (g : Bool) (d : BitVec 5) (a : BitVec 5) (b : BitVec 5) (t : BitVec 3)
  /-- VMUL (R288): Element-wise multiply. -/
  | vmul (g : Bool) (d : BitVec 5) (a : BitVec 5) (b : BitVec 5) (t : BitVec 3)
  /-- VFMA (R288): Element-wise fused multiply-add into vd. -/
  | vfma (g : Bool) (d : BitVec 5) (a : BitVec 5) (b : BitVec 5) (t : BitVec 3)
  /-- VFMS (R288): Element-wise fused multiply-subtract from vd. -/
  | vfms (g : Bool) (d : BitVec 5) (a : BitVec 5) (b : BitVec 5) (t : BitVec 3)
  /-- VMIN (R288): Element-wise minimum. -/
  | vmin (g : Bool) (d : BitVec 5) (a : BitVec 5) (b : BitVec 5) (t : BitVec 3)
  /-- VMAX (R288): Element-wise maximum. -/
  | vmax (g : Bool) (d : BitVec 5) (a : BitVec 5) (b : BitVec 5) (t : BitVec 3)
  /-- VABS (R288): Element-wise absolute value. -/
  | vabs (g : Bool) (d : BitVec 5) (a : BitVec 5) (t : BitVec 3)
  /-- VNEG (R288): Element-wise negation. -/
  | vneg (g : Bool) (d : BitVec 5) (a : BitVec 5) (t : BitVec 3)
  /-- VAND (R288): Element-wise bitwise AND. -/
  | vand (g : Bool) (d : BitVec 5) (a : BitVec 5) (b : BitVec 5) (t : BitVec 3)
  /-- VOR (R288): Element-wise bitwise OR. -/
  | vor (g : Bool) (d : BitVec 5) (a : BitVec 5) (b : BitVec 5) (t : BitVec 3)
  /-- VXOR (R288): Element-wise bitwise XOR. -/
  | vxor (g : Bool) (d : BitVec 5) (a : BitVec 5) (b : BitVec 5) (t : BitVec 3)
  /-- VSLL (R288): Element-wise shift left. -/
  | vsll (g : Bool) (d : BitVec 5) (a : BitVec 5) (b : BitVec 5) (t : BitVec 3)
  /-- VSRL (R288): Element-wise logical shift right. -/
  | vsrl (g : Bool) (d : BitVec 5) (a : BitVec 5) (b : BitVec 5) (t : BitVec 3)
  /-- VSRA (R288): Element-wise arithmetic shift right. -/
  | vsra (g : Bool) (d : BitVec 5) (a : BitVec 5) (b : BitVec 5) (t : BitVec 3)
  /-- VDIV (R289): Element-wise FP divide. -/
  | vdiv (g : Bool) (d : BitVec 5) (a : BitVec 5) (b : BitVec 5) (t : BitVec 3)
  /-- VSQRT (R289): Element-wise FP square root. -/
  | vsqrt (g : Bool) (d : BitVec 5) (a : BitVec 5) (t : BitVec 3)
  /-- VRSQ (R289): Element-wise reciprocal square root. -/
  | vrsq (g : Bool) (d : BitVec 5) (a : BitVec 5) (t : BitVec 3)
  /-- VRCP (R289): Element-wise reciprocal. -/
  | vrcp (g : Bool) (d : BitVec 5) (a : BitVec 5) (t : BitVec 3)
  /-- VEXP2 (R289): Element-wise 2^a. -/
  | vexp2 (g : Bool) (d : BitVec 5) (a : BitVec 5) (t : BitVec 3)
  /-- VLOG2 (R289): Element-wise log2. -/
  | vlog2 (g : Bool) (d : BitVec 5) (a : BitVec 5) (t : BitVec 3)
  /-- VMULH (R288): Element-wise high half of the integer product. -/
  | vmulh (g : Bool) (d : BitVec 5) (a : BitVec 5) (b : BitVec 5) (t : BitVec 3)
  /-- VADDSAT (R288): Element-wise saturating integer add. -/
  | vaddsat (g : Bool) (d : BitVec 5) (a : BitVec 5) (b : BitVec 5) (t : BitVec 3)
  /-- VSUBSAT (R288): Element-wise saturating integer subtract. -/
  | vsubsat (g : Bool) (d : BitVec 5) (a : BitVec 5) (b : BitVec 5) (t : BitVec 3)
  /-- VMOV (R288): Copies a vector register bit for bit. -/
  | vmov (g : Bool) (d : BitVec 5) (a : BitVec 5) (t : BitVec 3)
  /-- VADDSC (R290): Adds a scalar to every element. -/
  | vaddsc (g : Bool) (d : BitVec 5) (a : BitVec 5) (b : BitVec 5) (t : BitVec 3)
  /-- VSUBSC (R290): Subtracts a scalar from every element. -/
  | vsubsc (g : Bool) (d : BitVec 5) (a : BitVec 5) (b : BitVec 5) (t : BitVec 3)
  /-- VMULSC (R290): Multiplies every element by a scalar. -/
  | vmulsc (g : Bool) (d : BitVec 5) (a : BitVec 5) (b : BitVec 5) (t : BitVec 3)
  /-- VFMASC (R290): vd + va x scalar with one rounding. -/
  | vfmasc (g : Bool) (d : BitVec 5) (a : BitVec 5) (b : BitVec 5) (t : BitVec 3)
  /-- VMINSC (R290): Element-wise minimum with a scalar. -/
  | vminsc (g : Bool) (d : BitVec 5) (a : BitVec 5) (b : BitVec 5) (t : BitVec 3)
  /-- VMAXSC (R290): Element-wise maximum with a scalar. -/
  | vmaxsc (g : Bool) (d : BitVec 5) (a : BitVec 5) (b : BitVec 5) (t : BitVec 3)
  /-- VSPLAT (R290): Copies a scalar into every element. -/
  | vsplat (g : Bool) (d : BitVec 5) (a : BitVec 5) (t : BitVec 3)
  /-- VINS (R290): Inserts a scalar into one element, keeping the others. -/
  | vins (g : Bool) (d : BitVec 5) (a : BitVec 5) (i : BitVec 5) (t : BitVec 3)
  /-- VEXT (R290): Extracts one element into a scalar register. -/
  | vext (g : Bool) (d : BitVec 5) (a : BitVec 5) (i : BitVec 5) (t : BitVec 3)
  /-- VSPLATI (R291): Long instruction copying an immediate pattern into every element. -/
  | vsplati (g : Bool) (d : BitVec 5) (t : BitVec 3) (imm : BitVec 32)
  /-- VCVT (R257): Converts elements between types, one part of the narrower side. -/
  | vcvt (g : Bool) (d : BitVec 5) (a : BitVec 5) (q : BitVec 5) (x : BitVec 4) (y : BitVec 4)
  /-- VREDSUM (R293): Ordered sum of all elements into element 0. -/
  | vredsum (g : Bool) (d : BitVec 5) (a : BitVec 5) (t : BitVec 3)
  /-- VREDMAX (R293): Ordered maximum of all elements into element 0. -/
  | vredmax (g : Bool) (d : BitVec 5) (a : BitVec 5) (t : BitVec 3)
  /-- VREDMIN (R293): Ordered minimum of all elements into element 0. -/
  | vredmin (g : Bool) (d : BitVec 5) (a : BitVec 5) (t : BitVec 3)
  /-- VPERM (R293): Permutes elements by an index vector. -/
  | vperm (g : Bool) (d : BitVec 5) (a : BitVec 5) (b : BitVec 5) (t : BitVec 3)
  /-- VROT (R293): Rotates elements by a scalar count. -/
  | vrot (g : Bool) (d : BitVec 5) (a : BitVec 5) (b : BitVec 5) (t : BitVec 3)
  /-- VSORT (R294): Stable sort of elements by shifted key. -/
  | vsort (g : Bool) (d : BitVec 5) (a : BitVec 5) (h : BitVec 5) (t : BitVec 3)
  /-- VDUPM (R295): Marks the first element of each run of equal keys in a predicate. -/
  | vdupm (g : Bool) (d : BitVec 5) (a : BitVec 5) (h : BitVec 5) (t : BitVec 3)
  /-- VCOMPR (R296): Packs masked elements to the front. -/
  | vcompr (g : Bool) (d : BitVec 5) (a : BitVec 5) (m : BitVec 5) (t : BitVec 3)
  /-- VEXPND (R296): Spreads consecutive elements to masked positions. -/
  | vexpnd (g : Bool) (d : BitVec 5) (a : BitVec 5) (m : BitVec 5) (t : BitVec 3)
  /-- VCMP (R298): Compares elements under a condition into a predicate register. -/
  | vcmp (g : Bool) (d : BitVec 5) (a : BitVec 5) (b : BitVec 5) (c : BitVec 6) (t : BitVec 3)
  /-- VSEL (R297): Selects elements of va where the predicate is set. -/
  | vsel (g : Bool) (d : BitVec 5) (a : BitVec 5) (m : BitVec 5) (t : BitVec 3)
  /-- PAND (R297): Predicate AND. -/
  | pand (g : Bool) (d : BitVec 5) (a : BitVec 5) (b : BitVec 5)
  /-- POR (R297): Predicate OR. -/
  | por (g : Bool) (d : BitVec 5) (a : BitVec 5) (b : BitVec 5)
  /-- PNOT (R297): Predicate NOT. -/
  | pnot (g : Bool) (d : BitVec 5) (a : BitVec 5)
  /-- PCNT (R297): Counts set predicate bits into a scalar register. -/
  | pcnt (g : Bool) (d : BitVec 5) (a : BitVec 5)
  /-- SBIND (R235): Binds a vector register as a stream port from a pattern descriptor. -/
  | sbind (p : BitVec 5) (a : BitVec 5)
  /-- SUNBIND (R240): Unbinds a stream port, draining or discarding its elements. -/
  | sunbind (p : BitVec 5)
  /-- SSTAT (R240): Reads a stream port's status. -/
  | sstat (d : BitVec 5) (p : BitVec 5)
  /-- GW (R204): Writes a geometry register. -/
  | gw (d : BitVec 5) (a : BitVec 5)
  /-- GR (R204): Reads a geometry register. -/
  | gr (d : BitVec 5) (a : BitVec 5)
  /-- GCLR (R204): Clears all geometry registers. -/
  | gclr
  /-- ECPY (R211): Issues a multi-dimensional copy to the copy engine. -/
  | ecpy (a : BitVec 5) (b : BitVec 5) (h : Bool)
  /-- EGTH (R213): Issues an indexed gather of table rows. -/
  | egth (a : BitVec 5) (b : BitVec 5) (h : Bool)
  /-- ESCT (R213): Issues an indexed scatter of packed rows into a table. -/
  | esct (a : BitVec 5) (b : BitVec 5) (h : Bool)
  /-- EXCH (R224): Issues this core's part of a polder-wide scheduled exchange. -/
  | exch (a : BitVec 5) (b : BitVec 5) (h : Bool)
  /-- EMMA (R316): Issues a matrix multiply-accumulate tile command to the array. -/
  | emma (g : Bool) (a : BitVec 5) (b : BitVec 5) (h : Bool) (t : Bool)
  /-- EMMZ (R321): Issues a command clearing one accumulator bank. -/
  | emmz (a : BitVec 5) (h : Bool)
  /-- EMMD (R324): Issues a drain of an accumulator bank into C-space. -/
  | emmd (g : Bool) (a : BitVec 5) (b : BitVec 5) (h : Bool)
  /-- ECOLL (R352): Issues this member's part of a collective derived from a layout pair. -/
  | ecoll (a : BitVec 5) (b : BitVec 5)
  /-- ETOPK (R79): Issues a top-k selection of logit rows to the base-die comparator. -/
  | etopk (a : BitVec 5) (b : BitVec 5) (h : Bool)
  /-- ECLONE (R355): Issues a copy of regions from a peer node under a clone plan. -/
  | eclone (a : BitVec 5)
  /-- ENMSC (R76): Issues a near-memory scatter-add of packed rows into a table. -/
  | enmsc (a : BitVec 5) (b : BitVec 5) (h : Bool)
  /-- EPTAB (R222): Issues a load of permutation schedule table entries. -/
  | eptab (a : BitVec 5) (b : BitVec 5) (h : Bool)
  /-- LEASE (R304): Requests the polder's matrix-array lease. -/
  | lease (d : BitVec 5) (a : BitVec 5)
  /-- UNLEASE (R307): Waits for the lease's commands and releases the lease. -/
  | unlease (d : BitVec 5)
  /-- LSTAT (R309): Reads the context's lease status. -/
  | lstat (d : BitVec 5)
  /-- BBINIT (R218): Initialises a byte barrier. -/
  | bbinit (a : BitVec 5)
  /-- BBEXP (R218): Adds an expected byte count to a barrier and arms it. -/
  | bbexp (a : BitVec 5) (n : BitVec 5)
  /-- BBWAIT (R219): Waits for a barrier phase, then acquires, or traps on FAULT. -/
  | bbwait (a : BitVec 5) (p : Bool)
  /-- BBTEST (R220): Reads a barrier's count and status without waiting. -/
  | bbtest (d : BitVec 5) (a : BitVec 5)
  /-- PHNEW (R379): Creates a phaser and registers the issuer. -/
  | phnew (d : BitVec 5) (m : BitVec 5)
  /-- PHREG (R379): Registers the issuer in a phaser's open phase. -/
  | phreg (d : BitVec 5) (h : BitVec 5) (m : BitVec 5)
  /-- PHDROP (R379): Removes the issuer from a phaser. -/
  | phdrop (d : BitVec 5) (h : BitVec 5)
  /-- PHSIG (R379): Signals the member's next phase. -/
  | phsig (d : BitVec 5) (h : BitVec 5)
  /-- PHWAIT (R379): Waits until the member's next phase has advanced. -/
  | phwait (d : BitVec 5) (h : BitVec 5)
  /-- PHSW (R379): Signals and then waits as one instruction. -/
  | phsw (d : BitVec 5) (h : BitVec 5)
  /-- PHQ (R379): Queries a phaser's phase and counts. -/
  | phq (d : BitVec 5) (h : BitVec 5)
  /-- START (R372): Starts a helper in the lowest free slot. -/
  | start (d : BitVec 5) (a : BitVec 5) (b : BitVec 5)
  /-- STARTP (R372): Starts a run-ahead helper. -/
  | startp (d : BitVec 5) (a : BitVec 5) (b : BitVec 5)
  /-- QUIT (R373): Ends the context after draining its work, freeing the slot and raising its generation. -/
  | quit
  /-- YIELD (R375): Treats the slot as stalled for one cycle. -/
  | yield
  /-- CTXID (R375): Writes the context's identity as a mailbox handle. -/
  | ctxid (d : BitVec 5)
  /-- WID (R375): Writes the item's work identifier. -/
  | wid (d : BitVec 5)
  /-- WIDF (R375): Writes one graticule field of the work identifier. -/
  | widf (d : BitVec 5) (n : BitVec 5)
  /-- JOINH (R375): Waits for a helper's life to end and returns its last-end status. -/
  | joinh (d : BitVec 5) (h : BitVec 5)
  /-- HSTAT (R375): Reads a helper slot's state without waiting. -/
  | hstat (d : BitVec 5) (h : BitVec 5)
  /-- SEND (R334): Sends an 8-byte entry to a mailbox with a credit. -/
  | send (d : BitVec 5) (h : BitVec 5) (v : BitVec 5)
  /-- SENDV (R334): Sends a 32-byte entry to a mailbox. -/
  | sendv (d : BitVec 5) (h : BitVec 5) (v : BitVec 5)
  /-- SENDB (R339): Long send along a bearing string. -/
  | sendb (d : BitVec 5) (a : BitVec 5) (b : BitVec 5) (imm : BitVec 32)
  /-- MPOP (R335): Waits for and pops an 8-byte mailbox entry. -/
  | mpop (d : BitVec 5) (m : BitVec 5)
  /-- MPOPV (R335): Waits for and pops a 32-byte half or whole entry into a vector. -/
  | mpopv (d : BitVec 5) (m : BitVec 5)
  /-- MPEEK (R335): Reads a mailbox's status. -/
  | mpeek (d : BitVec 5) (m : BitVec 5)
  /-- MBIND (R336): Binds a mailbox from a descriptor. -/
  | mbind (d : BitVec 5) (a : BitVec 5)
  /-- MFREE (R336): Unbinds a mailbox. -/
  | mfree (d : BitVec 5) (m : BitVec 5)
  /-- TSEND (R398): Sends a forward token row to a chosen replica of a named expert. -/
  | tsend (d : BitVec 5) (a : BitVec 5) (b : BitVec 5)
  /-- TBWD (R398): Sends a backward token row to a named replica. -/
  | tbwd (d : BitVec 5) (a : BitVec 5) (b : BitVec 5)
  /-- TRET (R403): Returns a result row to a token's origin and frees the slot. -/
  | tret (d : BitVec 5) (a : BitVec 5) (b : BitVec 5)
  /-- XQUERY (R404): Reads one word of the local legend copy. -/
  | xquery (d : BitVec 5) (a : BitVec 5) (b : BitVec 5)
  /-- XJOIN (R404): Owner collects every replica's gradient partial into join slots. -/
  | xjoin (d : BitVec 5) (a : BitVec 5)
  /-- XVER (R404): Owner bumps the weight version and refreshes every replica. -/
  | xver (d : BitVec 5) (a : BitVec 5)
  /-- XCREATE (R405): Creates a new replica of a named expert. -/
  | xcreate (d : BitVec 5) (a : BitVec 5)
  /-- XRETIRE (R405): Starts draining a replica. -/
  | xretire (d : BitVec 5) (a : BitVec 5) (b : BitVec 5)
  /-- SHAPE (R137): Creates a coherence object from a shape record. -/
  | shape (d : BitVec 5) (a : BitVec 5)
  /-- OBJREL (R138): Releases a coherence object. -/
  | objrel (d : BitVec 5) (h : BitVec 5)
  /-- OBJMODE (R138): Changes a coherence object's mode and owner. -/
  | objmode (d : BitVec 5) (h : BitVec 5) (m : BitVec 5)
  /-- FADD (R277): Scalar FP32 add. -/
  | fadd (g : Bool) (d : BitVec 5) (a : BitVec 5) (b : BitVec 5)
  /-- FSUB (R277): Scalar FP32 subtract. -/
  | fsub (g : Bool) (d : BitVec 5) (a : BitVec 5) (b : BitVec 5)
  /-- FMUL (R277): Scalar FP32 multiply. -/
  | fmul (g : Bool) (d : BitVec 5) (a : BitVec 5) (b : BitVec 5)
  /-- FMAC (R277): Scalar fused multiply-accumulate into X(rd). -/
  | fmac (g : Bool) (d : BitVec 5) (a : BitVec 5) (b : BitVec 5)
  /-- FDIV (R277): Scalar FP32 divide. -/
  | fdiv (g : Bool) (d : BitVec 5) (a : BitVec 5) (b : BitVec 5)
  /-- FSQRT (R277): Scalar FP32 square root. -/
  | fsqrt (g : Bool) (d : BitVec 5) (a : BitVec 5)
  /-- FMIN (R278): Scalar FP32 minimum. -/
  | fmin (g : Bool) (d : BitVec 5) (a : BitVec 5) (b : BitVec 5)
  /-- FMAX (R278): Scalar FP32 maximum. -/
  | fmax (g : Bool) (d : BitVec 5) (a : BitVec 5) (b : BitVec 5)
  /-- FCVTI (R278): Converts FP32 to I64. -/
  | fcvti (g : Bool) (d : BitVec 5) (a : BitVec 5)
  /-- FCVTF (R278): Converts I64 to FP32. -/
  | fcvtf (g : Bool) (d : BitVec 5) (a : BitVec 5)
  /-- FLT (R278): FP32 less-than compare. -/
  | flt (g : Bool) (d : BitVec 5) (a : BitVec 5) (b : BitVec 5)
  /-- FEQ (R278): FP32 equality compare. -/
  | feq (g : Bool) (d : BitVec 5) (a : BitVec 5) (b : BitVec 5)
  /-- SCAL (R258): Scales an FP32 value by a block scale and rounds once. -/
  | scal (g : Bool) (d : BitVec 5) (a : BitVec 5) (b : BitVec 5)
  /-- FCLASS (R279): Writes a one-hot class mask of an FP32 value. -/
  | fclass (g : Bool) (d : BitVec 5) (a : BitVec 5)
  /-- SLOT_SWITCH (R34): The current slot stalls and the core switches to the next ready slot in rotating order. -/
  | slotSwitch
  /-- ISSUE_QUANTUM (R361): After 256 instructions without a stall the slot is treated as stalled for one cycle. -/
  | issueQuantum
  /-- VECTOR_BIND (R282): The arbiter binds a ready queue head to a free lane group by deficit count. -/
  | vectorBind
  /-- VECTOR_RESULT_WRITE (R283): A bound vector instruction completes and writes its result in its reserved write slot. -/
  | vectorResultWrite
  /-- MEMORY_RETURN_WRITE (R242): A memory return is written into the register file in a free write cycle. -/
  | memoryReturnWrite
  /-- RETURN_STARVATION (R242): A return that has waited 16 cycles blocks fixed-latency issue for one cycle. -/
  | returnStarvation
  /-- STREAM_ELEMENT_FETCH (R236): A read port's fetched-ahead element arrives or records its fault. -/
  | streamElementFetch
  /-- STREAM_APPEND_PERFORMED (R237): A buffered append's store is performed, freeing a buffer entry. -/
  | streamAppendPerformed
  /-- COHERENT_REQUEST_AT_HOME (R121): A fill, ownership or uncached request reaches a line's home shard and is served under the directory state. -/
  | coherentRequestAtHome
  /-- DIRTY_WRITEBACK (R124): A write-back or recall merges a line's dirty bytes at the next level under its mask. -/
  | dirtyWriteback
  /-- SET_AD (R109): The walker's atomic OR of A or D reaches the leaf's home and is applied if GEN and FRAME still match. -/
  | setAd
  /-- WALK_MIGRATING_TIMEOUT (R106): A walk stalled on a pointer entry with M = 1 raises PAGE_MIGRATING after 2^16 cycles. -/
  | walkMigratingTimeout
  /-- MIGRATION_HOLD_TIMEOUT (R118): A request held at a frozen line for 2^16 cycles raises PAGE_MIGRATING at its instruction. -/
  | migrationHoldTimeout
  /-- NEAR_MEMORY_FORWARD (R65): A near-memory operation reaches its home, which recalls copies, enters NEAR-HELD and forwards it. -/
  | nearMemoryForward
  /-- NEAR_MEMORY_APPLY (R71): The base die applies a near-memory operation and acknowledges it, or reports an uncorrectable line. -/
  | nearMemoryApply
  /-- NEAR_MEMORY_ACK (R72): An acknowledgement reaches home and context, ending NEAR-HELD and lowering nm_pending or carrying an error. -/
  | nearMemoryAck
  /-- NEAR_MEMORY_RETURN (R67): An operation with an old generation returns to its slice and is translated again. -/
  | nearMemoryReturn
  /-- PATROL_SCRUB (R64): The daily scrub reads every line, correcting or recording lost lines. -/
  | patrolScrub
  /-- CONTENTION_DECAY (R132): A near atomic's line held 512 cycles lowers its contention counter. -/
  | contentionDecay
  /-- BISNPINV (R87): Back-invalidate snoop: write back dirty data, drop all copies, answer BIRspI. -/
  | bisnpinv
  /-- BISNPDATA (R87): Back-invalidate snoop: write back dirty data, keep clean shared copies. -/
  | bisnpdata
  /-- BISNPCUR (R87): Back-invalidate snoop: write back dirty data, keep copies clean, report the state. -/
  | bisnpcur
  /-- POOL_LINK_LOSS (R91): A pool port loses its link or reports a fatal error, and its regions go LOST. -/
  | poolLinkLoss
  /-- POOL_REQUEST_TIMEOUT (R91): A pool request waiting 2^21 cycles makes its port's regions LOST. -/
  | poolRequestTimeout
  /-- REGION_ENABLE (R86): A write of EN = 1 to a FREE region entry attaches it, or is rejected with CFGERR. -/
  | regionEnable
  /-- REGION_DISABLE (R86): A write of EN = 0 to an ATTACHED entry starts write-back and invalidation of the region. -/
  | regionDisable
  /-- REGION_DETACH_DONE (R86): The region's write completions have arrived and the entry goes FREE. -/
  | regionDetachDone
  /-- REATTACH (R96): Region command taking a LOST region to REATTACHING, or setting CFGERR. -/
  | reattach
  /-- RELEASE (R96): Region command dropping held lines and taking a LOST region to FREE. -/
  | release
  /-- CLEARLOG (R96): Region command clearing the first-failure record and DROPPED. -/
  | clearlog
  /-- DECODER_CHECK (R96): The port's check of the device's HDM decoder ends, taking REATTACHING to ATTACHED or LOST. -/
  | decoderCheck
  /-- LOCK_REQUEST_RESEND (R155): A returned lock request is resent every 256 cycles until accepted. -/
  | lockRequestResend
  /-- LOCK_REQUEST_ACCEPT (R161): The home accepts a lock request and grants, refuses or queues it. -/
  | lockRequestAccept
  /-- LOCK_TIMEOUT (R162): A waiter's timeout expires at the core or home and it returns TIMEOUT. -/
  | lockTimeout
  /-- LOCK_RELEASE (R165): A release reaches the home, which frees the lock or hands it to the queue head. -/
  | lockRelease
  /-- HOLD_LIMIT (R173): A holder's hold limit expires and the home breaks the lock. -/
  | holdLimit
  /-- DEADLOCK_PROBE (R175): After each 2^14 cycles of waiting the home sends a probe along holders. -/
  | deadlockProbe
  /-- SCRATCHPAD_PORT_ACCESS (R191): A local or remote scratchpad access is applied at the owning port in arrival order. -/
  | scratchpadPortAccess
  /-- SCOREBOARD_RELEASE (R196): A scratchpad access waiting on a scoreboard entry is performed when the entry is freed. -/
  | scoreboardRelease
  /-- TRACE_RING_CONTROL (R193): Write of a trace ring's control register setting EN or clearing WRAP. -/
  | traceRingControl
  /-- CLR (R193): Writing CLR clears every V bit and HEAD of the trace ring. -/
  | clr
  /-- ENGINE_COMMAND_START (R206): The copy engine starts the head of the high or low queue in a free run slot. -/
  | engineCommandStart
  /-- ENGINE_PIECE (R215): A landed piece, once performed, lowers the barrier COUNT as one port event. -/
  | enginePiece
  /-- ENGINE_COMMAND_STOP (R226): A command faults after issue, sets FAULT, frees its entries and fills a fault record. -/
  | engineCommandStop
  /-- EXCHANGE_FORM (R224): All eight cores have an EXCH at their heads, and the engine checks and forms the exchange. -/
  | exchangeForm
  /-- EXCHANGE_ROUND (R224): Once round r has landed, round r + 1 copies its fragments. -/
  | exchangeRound
  /-- EXCH_TIMEOUT (R224): An EXCH unmatched for 2^24 cycles stops with ENGINE_FAULT. -/
  | exchTimeout
  /-- RESUME_COMMAND (R227): CTL = RESUME restarts a stopped command from RESPT with its snapshot. -/
  | resumeCommand
  /-- CANCEL (R227): CTL = CANCEL discards a stopped command. -/
  | cancel
  /-- ARRAY_COMMAND_START (R310): At a command boundary the array starts the high or low queue head that may start. -/
  | arrayCommandStart
  /-- ARRAY_ROW_COMMIT (R318): A row commits its last K-group and lowers BAR. -/
  | arrayRowCommit
  /-- RAGGED_ROW_JOIN (R317): A change of the row counter admits further rows until the row-close point. -/
  | raggedRowJoin
  /-- ARRAY_COMMAND_COMPLETE (R300): An array command completes, fixing bank words and RROWS. -/
  | arrayCommandComplete
  /-- LEASE_ARBITRATION (R305): At a command boundary the array re-arbitrates the lease when the quantum ends or the holder is idle. -/
  | leaseArbitration
  /-- HAND_OVER_SAVE (R306): The array saves banks, header and queued commands into the save area. -/
  | handOverSave
  /-- HAND_OVER_RESTORE (R306): The array restores a lease from its save area, checking header and records. -/
  | handOverRestore
  /-- COLUMN_REMAP (R302): At a command boundary a retired column's slice and bank words move to a spare column. -/
  | columnRemap
  /-- CHUNK_DEPART (R348): At a chunk boundary the collective engine sends the ready chunk of highest priority. -/
  | chunkDepart
  /-- SWITCH_REDUCE (R349): The Xiane switch reduces a chunk in member order and multicasts it. -/
  | switchReduce
  /-- HOME_REDUCE (R349): A home shard applies a KIND 1 chunk's contributions in die order. -/
  | homeReduce
  /-- COLLECTIVE_LANDING (R352): Reduced bytes land in a member's destination shard and lower its barrier. -/
  | collectiveLanding
  /-- COMMUNICATOR_WRITE (R347): Write of a communicator's word 0, accepted or rejected with CFGERR. -/
  | communicatorWrite
  /-- COMMUNICATOR_DISABLE (R347): Clearing EN stops every pending collective of the communicator. -/
  | communicatorDisable
  /-- MESSAGE_ARRIVAL (R330): An entry reaches its polder and is written into the ring or sent to the spillway. -/
  | messageArrival
  /-- CREDIT_REQUEST (R337): A credit request reaches a mailbox, which grants or queues it. -/
  | creditRequest
  /-- CREDIT_GRANT (R337): Granted credits reach the sender's window. -/
  | creditGrant
  /-- CREDIT_RETURN (R337): Freed ring entries are returned in a batch when enough are freed or 256 cycles have passed. -/
  | creditReturn
  /-- SEND_TIMEOUT (R334): A send without a credit after 4,096 cycles returns FULL. -/
  | sendTimeout
  /-- HANDLER_START (R331): A mailbox with entries and no live handler starts its handler helper. -/
  | handlerStart
  /-- QUEUE_START (R362): CMD START takes an IDLE or STOPPED queue to RUN. -/
  | queueStart
  /-- DRAIN (R381): CMD DRAIN stops taking records and dispatching items. -/
  | drain
  /-- ABORT (R382): CMD ABORT terminates the queue's items and starts teardown. -/
  | abort
  /-- RESET (R362): CMD RESET clears HEAD, TAIL, NEXTWID and ERR. -/
  | reset
  /-- TAIL (R362): Write of a queue's TAIL, directly or by BAR1 doorbell, making records available. -/
  | tail
  /-- RECORD_TAKE (R363): A front-end reads a launch record and its LCB, rejecting or preparing it. -/
  | recordTake
  /-- SEMAPHORE_ROUND (R364): After its back-off the front-end reads all conditions once. -/
  | semaphoreRound
  /-- DISPATCH (R367): The scheduler gives a free core the waiting item of highest priority. -/
  | dispatch
  /-- LAUNCH_COMPLETE (R368): After every item, the front-end performs the stores, writes the LCB and stores the semaphore. -/
  | launchComplete
  /-- ABORT_TEARDOWN_DONE (R382): When terminated commands have ended, records are finished ABORTED and the queue stops. -/
  | abortTeardownDone
  /-- DRAIN_DONE (R381): Nothing of the queue remains resident or saved, and it goes STOPPED. -/
  | drainDone
  /-- PREEMPT (R369): The scheduler pre-empts a lower-priority item and the save engine saves its contexts. -/
  | preempt
  /-- CONTEXT_RESTORE (R370): A saved item is restored to its core from its save area. -/
  | contextRestore
  /-- RESTART (R432): CTL = RESTART clears the record and starts slot 11 at TVEC. -/
  | restart
  /-- CLEAR (R432): CTL = CLEAR clears the machine-check record. -/
  | clear
  /-- INSTALL (R392): Legend command installing the staged entry. -/
  | install
  /-- REMOVE (R392): Legend command removing an entry. -/
  | remove
  /-- READ (R392): Legend command copying an entry into staging. -/
  | read
  /-- LEGEND_UPDATE (R393): A multicast legend entry reaches a copy and is applied if its EPOCH is higher. -/
  | legendUpdate
  /-- EPOCH_ACK (R393): A package acknowledges an epoch once older tokens are accepted. -/
  | epochAck
  /-- LEGEND_WINDOW_END (R405): At a window boundary ARRIVE resets, partitions rebalance and a replica may start draining. -/
  | legendWindowEnd
  /-- RBAR_FLIP (R405): A creation or refresh copy lands; the replica serves the new version and held tokens are counted. -/
  | rbarFlip
  /-- REPLICA_FREE (R405): A draining replica with no backward tokens and a joined partial goes FREE with a tombstone. -/
  | replicaFree
  /-- TOMBSTONE_END (R405): Every domain package has acknowledged the epoch and the tombstone ends. -/
  | tombstoneEnd
  /-- TOKEN_ARRIVAL (R399): A token reaches its slot manager, which drops, forwards, holds or lands it and counts ACNT. -/
  | tokenArrival
  /-- TOKEN_ACCEPTANCE (R398): Acceptance returns to the sender and completes TSEND or TBWD. -/
  | tokenAcceptance
  /-- SLOT_CREDIT_REQUEST (R397): A slot manager grants a credit from a partition or the pool. -/
  | slotCreditRequest
  /-- TOKEN_CREDIT_TIMEOUT (R397): No credit within 4,096 cycles gives FULL. -/
  | tokenCreditTimeout
  /-- PAGE_CLOSE_TIMEOUT (R402): A PERM page open 2^WIN / 16 cycles closes and ACNT rises. -/
  | pageCloseTimeout
  /-- RESULT_ROW_LANDING (R403): A TRET result row lands at the origin and lowers its barrier. -/
  | resultRowLanding
  /-- JOIN_COPY (R404): A replica with backward count 0 copies its partial to its join slot. -/
  | joinCopy
  /-- ERROR_DETECTED (R437): A detected error starts the unit's targeted self-test. -/
  | errorDetected
  /-- SELF_TEST_DONE (R437): The test passes or retires the unit, and the outcome is logged. -/
  | selfTestDone
  /-- LINK_REPLAY_FAILURE (R436): After 16 failed replays of one flit the link goes down. -/
  | linkReplayFailure
  /-- HEARTBEAT (R439): The package sends its heartbeat every 10 ms. -/
  | heartbeat
  /-- HEARTBEAT_MISS (R439): Three missed heartbeats make a surviving package fence the peer. -/
  | heartbeatMiss
  /-- FENCE_NODE (R439): Management FENCE(node): links disabled, fence event applied, scrub run. -/
  | fenceNode
  /-- UNFENCE (R445): Management command lifting the fence of a node. -/
  | unfence
  /-- WATCHDOG (R427): Management command delivering WATCHDOG to named slots at their next boundary. -/
  | watchdog
  /-- FORCELOST (R91): Management command forcing a pool region to LOST. -/
  | forcelost
  /-- RELOAD (R445): Management command reloading firmware and restarting stopped cores. -/
  | reload
  /-- TELEMETRY (R445): Management command returning telemetry. -/
  | telemetry
  /-- THERMAL_THROTTLE (R445): Junction temperature above 105 C lowers the A-clock by 100 MHz steps. -/
  | thermalThrottle
  /-- RESET_RELEASE (R446): Reset is released with COOLOK and the controller verifies and runs its image. -/
  | resetRelease
  /-- BAR2_ACCESS (R442): A host access through BAR2 is performed at the line's home as .unc. -/
  | bar2Access
  /-- CONTROL_REGISTER_WRITE (R443): Write to a control register without a row of its own, merged and applied by its field rules. -/
  | controlRegisterWrite
  /-- WFE_TIMEOUT (R422): A WFE with a nonzero timeout that sees no parked slot for t cycles ends with SV = 0 and writes TSLOT to xd. -/
  | wfeTimeout
  /-- LINK_TRAINING (R82): An HBM, die-to-die, Xiane, pool or host link completes training and comes up, so that a pool port reads up with CXL.mem ready. -/
  | linkTraining
  /-- POOL_DEVICE_RESPONSE (R89): A CXL.mem response from the pool device, either read data or a MemWr write completion, reaches the home shard and ends the request that waited on it. -/
  | poolDeviceResponse
  /-- MARK_EVICTION (R401): A slot manager evicts a sender's duplicate mark after it has gone unused for 2^20 cycles. -/
  | markEviction
deriving DecidableEq, Repr, Inhabited

end Sys2Proof
end

