-- ==== Sys2Proof/WellFormed.lean ====
section
/-! DEFINITION. Which instructions are well formed: the ranges of the fields, on the word as encoded (R45, R49, R58, and the entries
of the members named). The pairings of a member with the type in force are judged by its meaning, since an override may change them.
An event has no fields. -/

namespace Sys2Proof

/-- A predicate register: 0 to 7 (R45). -/
def isPred (r : Reg) : Bool := decide (r.toNat < 8)
/-- A stream port: v24 to v31 (R234). -/
def isPort (r : Reg) : Bool := decide (24 ≤ r.toNat)

/-- The instruction has no word: a hardware, host or management step. -/
def isEvent : Instr → Bool
  | .pfx _ _ _ _ _ _ => false
  | .add _ _ _ => false
  | .sub _ _ _ => false
  | .and _ _ _ => false
  | .or _ _ _ => false
  | .xor _ _ _ => false
  | .sll _ _ _ => false
  | .srl _ _ _ => false
  | .sra _ _ _ => false
  | .slt _ _ _ => false
  | .sltu _ _ _ => false
  | .min _ _ _ => false
  | .max _ _ _ => false
  | .minu _ _ _ => false
  | .maxu _ _ _ => false
  | .addw _ _ _ => false
  | .subw _ _ _ => false
  | .andn _ _ _ => false
  | .orn _ _ _ => false
  | .rol _ _ _ => false
  | .ror _ _ _ => false
  | .addi _ _ _ => false
  | .andi _ _ _ => false
  | .ori _ _ _ => false
  | .xori _ _ _ => false
  | .slli _ _ _ => false
  | .srli _ _ _ => false
  | .srai _ _ _ => false
  | .rori _ _ _ => false
  | .slti _ _ _ => false
  | .mul _ _ _ => false
  | .mulh _ _ _ => false
  | .mulhu _ _ _ => false
  | .div _ _ _ => false
  | .divu _ _ _ => false
  | .rem _ _ _ => false
  | .remu _ _ _ => false
  | .mulw _ _ _ => false
  | .bfx _ _ _ _ => false
  | .bfxs _ _ _ _ => false
  | .bfi _ _ _ _ => false
  | .clz _ _ => false
  | .ctz _ _ => false
  | .popc _ _ => false
  | .ldhi _ _ => false
  | .addpc _ _ => false
  | .ldi _ _ => false
  | .ldiu _ _ => false
  | .addil _ _ _ => false
  | .beq _ _ _ => false
  | .bne _ _ _ => false
  | .blt _ _ _ => false
  | .bge _ _ _ => false
  | .bltu _ _ _ => false
  | .bgeu _ _ _ => false
  | .jal _ _ => false
  | .jalr _ _ _ => false
  | .jl _ _ => false
  | .loop _ _ => false
  | .lb _ _ _ _ => false
  | .lbu _ _ _ _ => false
  | .lh _ _ _ _ => false
  | .lhu _ _ _ _ => false
  | .lw _ _ _ _ => false
  | .lwu _ _ _ _ => false
  | .ld _ _ _ _ => false
  | .sb _ _ _ _ => false
  | .sh _ _ _ _ => false
  | .sw _ _ _ _ => false
  | .sd _ _ _ _ => false
  | .ldl _ _ _ _ _ => false
  | .stl _ _ _ _ _ => false
  | .ldv _ _ _ _ => false
  | .ldvx _ _ _ _ => false
  | .ldvb _ _ _ _ => false
  | .stv _ _ _ _ => false
  | .stvx _ _ _ _ => false
  | .amoadd _ _ _ _ _ _ => false
  | .amoand _ _ _ _ _ _ => false
  | .amoor _ _ _ _ _ _ => false
  | .amoxor _ _ _ _ _ _ => false
  | .amomin _ _ _ _ _ _ => false
  | .amomax _ _ _ _ _ _ => false
  | .amominu _ _ _ _ _ _ => false
  | .amomaxu _ _ _ _ _ _ => false
  | .amoswap _ _ _ _ _ _ => false
  | .amocas _ _ _ _ _ => false
  | .amofadd _ _ _ _ _ _ => false
  | .amofmin _ _ _ _ _ => false
  | .amofmax _ _ _ _ _ => false
  | .nmadd _ _ _ => false
  | .nmfadd _ _ _ => false
  | .nmmax _ _ _ => false
  | .nmmin _ _ _ => false
  | .nmor _ _ _ => false
  | .lkacq _ _ _ _ => false
  | .lktry _ _ _ => false
  | .lkrel _ _ _ => false
  | .lkstat _ _ => false
  | .fence _ _ _ => false
  | .xprobe _ _ => false
  | .xinv _ _ => false
  | .xinvas _ _ => false
  | .synci _ _ _ => false
  | .survey _ _ _ => false
  | .xmig _ _ _ => false
  | .trap _ => false
  | .eret => false
  | .wfe _ _ => false
  | .halt => false
  | .brk => false
  | .resume _ _ => false
  | .csrrw _ _ _ => false
  | .csrrs _ _ _ => false
  | .csrrc _ _ _ => false
  | .vadd _ _ _ _ _ => false
  | .vsub _ _ _ _ _ => false
  | .vmul _ _ _ _ _ => false
  | .vfma _ _ _ _ _ => false
  | .vfms _ _ _ _ _ => false
  | .vmin _ _ _ _ _ => false
  | .vmax _ _ _ _ _ => false
  | .vabs _ _ _ _ => false
  | .vneg _ _ _ _ => false
  | .vand _ _ _ _ _ => false
  | .vor _ _ _ _ _ => false
  | .vxor _ _ _ _ _ => false
  | .vsll _ _ _ _ _ => false
  | .vsrl _ _ _ _ _ => false
  | .vsra _ _ _ _ _ => false
  | .vdiv _ _ _ _ _ => false
  | .vsqrt _ _ _ _ => false
  | .vrsq _ _ _ _ => false
  | .vrcp _ _ _ _ => false
  | .vexp2 _ _ _ _ => false
  | .vlog2 _ _ _ _ => false
  | .vmulh _ _ _ _ _ => false
  | .vaddsat _ _ _ _ _ => false
  | .vsubsat _ _ _ _ _ => false
  | .vmov _ _ _ _ => false
  | .vaddsc _ _ _ _ _ => false
  | .vsubsc _ _ _ _ _ => false
  | .vmulsc _ _ _ _ _ => false
  | .vfmasc _ _ _ _ _ => false
  | .vminsc _ _ _ _ _ => false
  | .vmaxsc _ _ _ _ _ => false
  | .vsplat _ _ _ _ => false
  | .vins _ _ _ _ _ => false
  | .vext _ _ _ _ _ => false
  | .vsplati _ _ _ _ => false
  | .vcvt _ _ _ _ _ _ => false
  | .vredsum _ _ _ _ => false
  | .vredmax _ _ _ _ => false
  | .vredmin _ _ _ _ => false
  | .vperm _ _ _ _ _ => false
  | .vrot _ _ _ _ _ => false
  | .vsort _ _ _ _ _ => false
  | .vdupm _ _ _ _ _ => false
  | .vcompr _ _ _ _ _ => false
  | .vexpnd _ _ _ _ _ => false
  | .vcmp _ _ _ _ _ _ => false
  | .vsel _ _ _ _ _ => false
  | .pand _ _ _ _ => false
  | .por _ _ _ _ => false
  | .pnot _ _ _ => false
  | .pcnt _ _ _ => false
  | .sbind _ _ => false
  | .sunbind _ => false
  | .sstat _ _ => false
  | .gw _ _ => false
  | .gr _ _ => false
  | .gclr => false
  | .ecpy _ _ _ => false
  | .egth _ _ _ => false
  | .esct _ _ _ => false
  | .exch _ _ _ => false
  | .emma _ _ _ _ _ => false
  | .emmz _ _ => false
  | .emmd _ _ _ _ => false
  | .ecoll _ _ => false
  | .etopk _ _ _ => false
  | .eclone _ => false
  | .enmsc _ _ _ => false
  | .eptab _ _ _ => false
  | .lease _ _ => false
  | .unlease _ => false
  | .lstat _ => false
  | .bbinit _ => false
  | .bbexp _ _ => false
  | .bbwait _ _ => false
  | .bbtest _ _ => false
  | .phnew _ _ => false
  | .phreg _ _ _ => false
  | .phdrop _ _ => false
  | .phsig _ _ => false
  | .phwait _ _ => false
  | .phsw _ _ => false
  | .phq _ _ => false
  | .start _ _ _ => false
  | .startp _ _ _ => false
  | .quit => false
  | .yield => false
  | .ctxid _ => false
  | .wid _ => false
  | .widf _ _ => false
  | .joinh _ _ => false
  | .hstat _ _ => false
  | .send _ _ _ => false
  | .sendv _ _ _ => false
  | .sendb _ _ _ _ => false
  | .mpop _ _ => false
  | .mpopv _ _ => false
  | .mpeek _ _ => false
  | .mbind _ _ => false
  | .mfree _ _ => false
  | .tsend _ _ _ => false
  | .tbwd _ _ _ => false
  | .tret _ _ _ => false
  | .xquery _ _ _ => false
  | .xjoin _ _ => false
  | .xver _ _ => false
  | .xcreate _ _ => false
  | .xretire _ _ _ => false
  | .shape _ _ => false
  | .objrel _ _ => false
  | .objmode _ _ _ => false
  | .fadd _ _ _ _ => false
  | .fsub _ _ _ _ => false
  | .fmul _ _ _ _ => false
  | .fmac _ _ _ _ => false
  | .fdiv _ _ _ _ => false
  | .fsqrt _ _ _ => false
  | .fmin _ _ _ _ => false
  | .fmax _ _ _ _ => false
  | .fcvti _ _ _ => false
  | .fcvtf _ _ _ => false
  | .flt _ _ _ _ => false
  | .feq _ _ _ _ => false
  | .scal _ _ _ _ => false
  | .fclass _ _ _ => false
  | .slotSwitch => true
  | .issueQuantum => true
  | .vectorBind => true
  | .vectorResultWrite => true
  | .memoryReturnWrite => true
  | .returnStarvation => true
  | .streamElementFetch => true
  | .streamAppendPerformed => true
  | .coherentRequestAtHome => true
  | .dirtyWriteback => true
  | .setAd => true
  | .walkMigratingTimeout => true
  | .migrationHoldTimeout => true
  | .nearMemoryForward => true
  | .nearMemoryApply => true
  | .nearMemoryAck => true
  | .nearMemoryReturn => true
  | .patrolScrub => true
  | .contentionDecay => true
  | .bisnpinv => true
  | .bisnpdata => true
  | .bisnpcur => true
  | .poolLinkLoss => true
  | .poolRequestTimeout => true
  | .regionEnable => true
  | .regionDisable => true
  | .regionDetachDone => true
  | .reattach => true
  | .release => true
  | .clearlog => true
  | .decoderCheck => true
  | .lockRequestResend => true
  | .lockRequestAccept => true
  | .lockTimeout => true
  | .lockRelease => true
  | .holdLimit => true
  | .deadlockProbe => true
  | .scratchpadPortAccess => true
  | .scoreboardRelease => true
  | .traceRingControl => true
  | .clr => true
  | .engineCommandStart => true
  | .enginePiece => true
  | .engineCommandStop => true
  | .exchangeForm => true
  | .exchangeRound => true
  | .exchTimeout => true
  | .resumeCommand => true
  | .cancel => true
  | .arrayCommandStart => true
  | .arrayRowCommit => true
  | .raggedRowJoin => true
  | .arrayCommandComplete => true
  | .leaseArbitration => true
  | .handOverSave => true
  | .handOverRestore => true
  | .columnRemap => true
  | .chunkDepart => true
  | .switchReduce => true
  | .homeReduce => true
  | .collectiveLanding => true
  | .communicatorWrite => true
  | .communicatorDisable => true
  | .messageArrival => true
  | .creditRequest => true
  | .creditGrant => true
  | .creditReturn => true
  | .sendTimeout => true
  | .handlerStart => true
  | .queueStart => true
  | .drain => true
  | .abort => true
  | .reset => true
  | .tail => true
  | .recordTake => true
  | .semaphoreRound => true
  | .dispatch => true
  | .launchComplete => true
  | .abortTeardownDone => true
  | .drainDone => true
  | .preempt => true
  | .contextRestore => true
  | .restart => true
  | .clear => true
  | .install => true
  | .remove => true
  | .read => true
  | .legendUpdate => true
  | .epochAck => true
  | .legendWindowEnd => true
  | .rbarFlip => true
  | .replicaFree => true
  | .tombstoneEnd => true
  | .tokenArrival => true
  | .tokenAcceptance => true
  | .slotCreditRequest => true
  | .tokenCreditTimeout => true
  | .pageCloseTimeout => true
  | .resultRowLanding => true
  | .joinCopy => true
  | .errorDetected => true
  | .selfTestDone => true
  | .linkReplayFailure => true
  | .heartbeat => true
  | .heartbeatMiss => true
  | .fenceNode => true
  | .unfence => true
  | .watchdog => true
  | .forcelost => true
  | .reload => true
  | .telemetry => true
  | .thermalThrottle => true
  | .resetRelease => true
  | .bar2Access => true
  | .controlRegisterWrite => true
  | .wfeTimeout => true
  | .linkTraining => true
  | .poolDeviceResponse => true
  | .markEviction => true

/-- The field ranges hold. -/
def wellFormed : Instr → Bool
  | .pfx p _ n _ c r => p != 7 && n != 3 && (c == (r != 0))
  | .add _ _ _ => true
  | .sub _ _ _ => true
  | .and _ _ _ => true
  | .or _ _ _ => true
  | .xor _ _ _ => true
  | .sll _ _ _ => true
  | .srl _ _ _ => true
  | .sra _ _ _ => true
  | .slt _ _ _ => true
  | .sltu _ _ _ => true
  | .min _ _ _ => true
  | .max _ _ _ => true
  | .minu _ _ _ => true
  | .maxu _ _ _ => true
  | .addw _ _ _ => true
  | .subw _ _ _ => true
  | .andn _ _ _ => true
  | .orn _ _ _ => true
  | .rol _ _ _ => true
  | .ror _ _ _ => true
  | .addi _ _ _ => true
  | .andi _ _ _ => true
  | .ori _ _ _ => true
  | .xori _ _ _ => true
  | .slli _ _ _ => true
  | .srli _ _ _ => true
  | .srai _ _ _ => true
  | .rori _ _ _ => true
  | .slti _ _ _ => true
  | .mul _ _ _ => true
  | .mulh _ _ _ => true
  | .mulhu _ _ _ => true
  | .div _ _ _ => true
  | .divu _ _ _ => true
  | .rem _ _ _ => true
  | .remu _ _ _ => true
  | .mulw _ _ _ => true
  | .bfx _ _ p w => decide (p.toNat + w.toNat < 64)
  | .bfxs _ _ p w => decide (p.toNat + w.toNat < 64)
  | .bfi _ _ p w => decide (p.toNat + w.toNat < 64)
  | .clz _ _ => true
  | .ctz _ _ => true
  | .popc _ _ => true
  | .ldhi _ _ => true
  | .addpc _ _ => true
  | .ldi _ _ => true
  | .ldiu _ _ => true
  | .addil _ _ _ => true
  | .beq _ _ _ => true
  | .bne _ _ _ => true
  | .blt _ _ _ => true
  | .bge _ _ _ => true
  | .bltu _ _ _ => true
  | .bgeu _ _ _ => true
  | .jal _ _ => true
  | .jalr _ _ _ => true
  | .jl _ _ => true
  | .loop _ l => l != 0
  | .lb _ _ _ _ => true
  | .lbu _ _ _ _ => true
  | .lh _ _ _ _ => true
  | .lhu _ _ _ _ => true
  | .lw _ _ _ _ => true
  | .lwu _ _ _ _ => true
  | .ld _ _ _ _ => true
  | .sb _ _ _ _ => true
  | .sh _ _ _ _ => true
  | .sw _ _ _ _ => true
  | .sd _ _ _ _ => true
  | .ldl _ _ f _ _ => decide (f.toNat < 7)
  | .stl _ _ f _ _ => decide (f.toNat < 4)
  | .ldv _ _ _ _ => true
  | .ldvx _ _ _ _ => true
  | .ldvb _ _ _ _ => true
  | .stv _ _ _ _ => true
  | .stvx _ _ _ _ => true
  | .amoadd d _ _ _ p n => p != 3 && (!n || d == 0)
  | .amoand d _ _ _ p n => p != 3 && (!n || d == 0)
  | .amoor d _ _ _ p n => p != 3 && (!n || d == 0)
  | .amoxor d _ _ _ p n => p != 3 && (!n || d == 0)
  | .amomin d _ _ _ p n => p != 3 && (!n || d == 0)
  | .amomax d _ _ _ p n => p != 3 && (!n || d == 0)
  | .amominu d _ _ _ p n => p != 3 && (!n || d == 0)
  | .amomaxu d _ _ _ p n => p != 3 && (!n || d == 0)
  | .amoswap d _ _ _ p n => p != 3 && (!n || d == 0)
  | .amocas _ _ _ _ p => p != 3
  | .amofadd _ d _ _ p n => p != 3 && (!n || d == 0)
  | .amofmin d _ _ p n => p != 3 && (!n || d == 0)
  | .amofmax d _ _ p n => p != 3 && (!n || d == 0)
  | .nmadd _ _ _ => true
  | .nmfadd _ _ _ => true
  | .nmmax _ _ _ => true
  | .nmmin _ _ _ => true
  | .nmor _ _ _ => true
  | .lkacq _ _ _ s => s != 7
  | .lktry _ _ s => s != 7
  | .lkrel _ _ s => s != 7
  | .lkstat _ _ => true
  | .fence s l k => s != 7 && l != 0 && k != 3
  | .xprobe _ _ => true
  | .xinv s _ => s == 3 || s == 4 || s == 6
  | .xinvas s _ => s == 3 || s == 4 || s == 6
  | .synci s _ _ => decide (s.toNat ≤ 4) || s == 6
  | .survey _ _ m => decide (m.toNat < 2)
  | .xmig _ _ _ => true
  | .trap _ => true
  | .eret => true
  | .wfe _ _ => true
  | .halt => true
  | .brk => true
  | .resume _ _ => true
  | .csrrw _ _ _ => true
  | .csrrs _ _ _ => true
  | .csrrc _ _ _ => true
  | .vadd _ _ _ _ t => decide (t.toNat < 6)
  | .vsub _ _ _ _ t => decide (t.toNat < 6)
  | .vmul _ _ _ _ t => decide (t.toNat < 6)
  | .vfma _ _ _ _ t => decide (t.toNat < 6)
  | .vfms _ _ _ _ t => decide (t.toNat < 6)
  | .vmin _ _ _ _ t => decide (t.toNat < 6)
  | .vmax _ _ _ _ t => decide (t.toNat < 6)
  | .vabs _ _ _ t => decide (t.toNat < 6)
  | .vneg _ _ _ t => decide (t.toNat < 6)
  | .vand _ _ _ _ t => decide (t.toNat < 6)
  | .vor _ _ _ _ t => decide (t.toNat < 6)
  | .vxor _ _ _ _ t => decide (t.toNat < 6)
  | .vsll _ _ _ _ t => decide (t.toNat < 6)
  | .vsrl _ _ _ _ t => decide (t.toNat < 6)
  | .vsra _ _ _ _ t => decide (t.toNat < 6)
  | .vdiv _ _ _ _ t => decide (t.toNat < 6)
  | .vsqrt _ _ _ t => decide (t.toNat < 6)
  | .vrsq _ _ _ t => decide (t.toNat < 6)
  | .vrcp _ _ _ t => decide (t.toNat < 6)
  | .vexp2 _ _ _ t => decide (t.toNat < 6)
  | .vlog2 _ _ _ t => decide (t.toNat < 6)
  | .vmulh _ _ _ _ t => decide (t.toNat < 6)
  | .vaddsat _ _ _ _ t => decide (t.toNat < 6)
  | .vsubsat _ _ _ _ t => decide (t.toNat < 6)
  | .vmov _ _ _ t => decide (t.toNat < 6)
  | .vaddsc _ _ _ _ t => decide (t.toNat < 6)
  | .vsubsc _ _ _ _ t => decide (t.toNat < 6)
  | .vmulsc _ _ _ _ t => decide (t.toNat < 6)
  | .vfmasc _ _ _ _ t => decide (t.toNat < 6)
  | .vminsc _ _ _ _ t => decide (t.toNat < 6)
  | .vmaxsc _ _ _ _ t => decide (t.toNat < 6)
  | .vsplat _ _ _ t => decide (t.toNat < 6)
  | .vins _ _ _ _ t => decide (t.toNat < 6)
  | .vext _ _ _ _ t => decide (t.toNat < 6)
  | .vsplati _ _ t _ => decide (t.toNat < 6)
  | .vcvt _ _ _ _ _ _ => true
  | .vredsum _ _ _ t => decide (t.toNat < 6)
  | .vredmax _ _ _ t => decide (t.toNat < 6)
  | .vredmin _ _ _ t => decide (t.toNat < 6)
  | .vperm _ _ _ _ t => decide (t.toNat < 6)
  | .vrot _ _ _ _ t => decide (t.toNat < 6)
  | .vsort _ _ _ _ t => decide (t.toNat < 6)
  | .vdupm _ d _ _ t => decide (t.toNat < 6) && isPred d
  | .vcompr _ _ _ m t => decide (t.toNat < 6) && isPred m
  | .vexpnd _ _ _ m t => decide (t.toNat < 6) && isPred m
  | .vcmp _ d _ _ c t => decide (t.toNat < 6) && isPred d && decide (c.toNat ≤ 8)
  | .vsel _ _ _ m t => decide (t.toNat < 6) && isPred m
  | .pand _ d a b => isPred d && isPred a && isPred b
  | .por _ d a b => isPred d && isPred a && isPred b
  | .pnot _ d a => isPred d && isPred a
  | .pcnt _ _ a => isPred a
  | .sbind p _ => isPort p
  | .sunbind p => isPort p
  | .sstat _ p => isPort p
  | .gw _ _ => true
  | .gr _ _ => true
  | .gclr => true
  | .ecpy _ _ _ => true
  | .egth _ _ _ => true
  | .esct _ _ _ => true
  | .exch _ _ _ => true
  | .emma _ _ _ _ _ => true
  | .emmz _ _ => true
  | .emmd _ _ _ _ => true
  | .ecoll _ _ => true
  | .etopk _ _ _ => true
  | .eclone _ => true
  | .enmsc _ _ _ => true
  | .eptab _ _ _ => true
  | .lease _ _ => true
  | .unlease _ => true
  | .lstat _ => true
  | .bbinit _ => true
  | .bbexp _ _ => true
  | .bbwait _ _ => true
  | .bbtest _ _ => true
  | .phnew _ _ => true
  | .phreg _ _ _ => true
  | .phdrop _ _ => true
  | .phsig _ _ => true
  | .phwait _ _ => true
  | .phsw _ _ => true
  | .phq _ _ => true
  | .start _ _ _ => true
  | .startp _ _ _ => true
  | .quit => true
  | .yield => true
  | .ctxid _ => true
  | .wid _ => true
  | .widf _ n => decide (n.toNat ≤ 5)
  | .joinh _ _ => true
  | .hstat _ _ => true
  | .send _ _ _ => true
  | .sendv _ _ _ => true
  | .sendb _ _ _ imm => decide (imm.toNat % 16 ≤ 14 ∧ imm.toNat / 2 ^ (4 + 2 * (imm.toNat % 16)) = 0)
  | .mpop _ _ => true
  | .mpopv _ _ => true
  | .mpeek _ _ => true
  | .mbind _ _ => true
  | .mfree _ _ => true
  | .tsend _ _ _ => true
  | .tbwd _ _ _ => true
  | .tret _ _ _ => true
  | .xquery _ _ _ => true
  | .xjoin _ _ => true
  | .xver _ _ => true
  | .xcreate _ _ => true
  | .xretire _ _ _ => true
  | .shape _ _ => true
  | .objrel _ _ => true
  | .objmode _ _ _ => true
  | .fadd _ _ _ _ => true
  | .fsub _ _ _ _ => true
  | .fmul _ _ _ _ => true
  | .fmac _ _ _ _ => true
  | .fdiv _ _ _ _ => true
  | .fsqrt _ _ _ => true
  | .fmin _ _ _ _ => true
  | .fmax _ _ _ _ => true
  | .fcvti _ _ _ => true
  | .fcvtf _ _ _ => true
  | .flt _ _ _ _ => true
  | .feq _ _ _ _ => true
  | .scal _ _ _ _ => true
  | .fclass _ _ _ => true
  | .slotSwitch => true
  | .issueQuantum => true
  | .vectorBind => true
  | .vectorResultWrite => true
  | .memoryReturnWrite => true
  | .returnStarvation => true
  | .streamElementFetch => true
  | .streamAppendPerformed => true
  | .coherentRequestAtHome => true
  | .dirtyWriteback => true
  | .setAd => true
  | .walkMigratingTimeout => true
  | .migrationHoldTimeout => true
  | .nearMemoryForward => true
  | .nearMemoryApply => true
  | .nearMemoryAck => true
  | .nearMemoryReturn => true
  | .patrolScrub => true
  | .contentionDecay => true
  | .bisnpinv => true
  | .bisnpdata => true
  | .bisnpcur => true
  | .poolLinkLoss => true
  | .poolRequestTimeout => true
  | .regionEnable => true
  | .regionDisable => true
  | .regionDetachDone => true
  | .reattach => true
  | .release => true
  | .clearlog => true
  | .decoderCheck => true
  | .lockRequestResend => true
  | .lockRequestAccept => true
  | .lockTimeout => true
  | .lockRelease => true
  | .holdLimit => true
  | .deadlockProbe => true
  | .scratchpadPortAccess => true
  | .scoreboardRelease => true
  | .traceRingControl => true
  | .clr => true
  | .engineCommandStart => true
  | .enginePiece => true
  | .engineCommandStop => true
  | .exchangeForm => true
  | .exchangeRound => true
  | .exchTimeout => true
  | .resumeCommand => true
  | .cancel => true
  | .arrayCommandStart => true
  | .arrayRowCommit => true
  | .raggedRowJoin => true
  | .arrayCommandComplete => true
  | .leaseArbitration => true
  | .handOverSave => true
  | .handOverRestore => true
  | .columnRemap => true
  | .chunkDepart => true
  | .switchReduce => true
  | .homeReduce => true
  | .collectiveLanding => true
  | .communicatorWrite => true
  | .communicatorDisable => true
  | .messageArrival => true
  | .creditRequest => true
  | .creditGrant => true
  | .creditReturn => true
  | .sendTimeout => true
  | .handlerStart => true
  | .queueStart => true
  | .drain => true
  | .abort => true
  | .reset => true
  | .tail => true
  | .recordTake => true
  | .semaphoreRound => true
  | .dispatch => true
  | .launchComplete => true
  | .abortTeardownDone => true
  | .drainDone => true
  | .preempt => true
  | .contextRestore => true
  | .restart => true
  | .clear => true
  | .install => true
  | .remove => true
  | .read => true
  | .legendUpdate => true
  | .epochAck => true
  | .legendWindowEnd => true
  | .rbarFlip => true
  | .replicaFree => true
  | .tombstoneEnd => true
  | .tokenArrival => true
  | .tokenAcceptance => true
  | .slotCreditRequest => true
  | .tokenCreditTimeout => true
  | .pageCloseTimeout => true
  | .resultRowLanding => true
  | .joinCopy => true
  | .errorDetected => true
  | .selfTestDone => true
  | .linkReplayFailure => true
  | .heartbeat => true
  | .heartbeatMiss => true
  | .fenceNode => true
  | .unfence => true
  | .watchdog => true
  | .forcelost => true
  | .reload => true
  | .telemetry => true
  | .thermalThrottle => true
  | .resetRelease => true
  | .bar2Access => true
  | .controlRegisterWrite => true
  | .wfeTimeout => true
  | .linkTraining => true
  | .poolDeviceResponse => true
  | .markEviction => true

end Sys2Proof
end

