-- ==== Sys2Proof/Decode.lean ====
section
/-! DEFINITION. Decoding and encoding of instruction words (R40 to R45, R55, R56). A word is read as a number, bit 0 the least
significant. The decoder is total: a word that no row of the map gives is refused by name; field ranges are `wellFormed`'s. -/

namespace Sys2Proof

/-- Bits [lo + n - 1 : lo] of a word. -/
def fld (w lo n : Nat) : Nat := w / 2 ^ lo % 2 ^ n
/-- The same as a bit vector. -/
def bits (w lo n : Nat) : BitVec n := BitVec.ofNat n (fld w lo n)
/-- Bit `lo`. -/
def bit (w lo : Nat) : Bool := fld w lo 1 == 1

/-- Why bytes do not decode. -/
inductive DecodeError where
  /-- Fewer bytes than the instruction has. -/
  | truncated
  /-- A 32-bit word that the map of R55 does not give. -/
  | unlistedWord
  /-- A long first word that the map of R56 does not give. -/
  | unlistedLong
deriving DecidableEq, Repr

/-- Major 0x01 (R55): ADD SUB AND OR XOR SLL SRL SRA SLT SLTU MIN MAX MINU MAXU ADDW SUBW ANDN ORN ROL ROR. -/
def decodeMajor01 (w : Nat) : Option Instr :=
  if fld w 23 9 = 0 then
    some (.add (bits w 8 5) (bits w 13 5) (bits w 18 5))
  else if fld w 23 9 = 1 then
    some (.sub (bits w 8 5) (bits w 13 5) (bits w 18 5))
  else if fld w 23 9 = 2 then
    some (.and (bits w 8 5) (bits w 13 5) (bits w 18 5))
  else if fld w 23 9 = 3 then
    some (.or (bits w 8 5) (bits w 13 5) (bits w 18 5))
  else if fld w 23 9 = 4 then
    some (.xor (bits w 8 5) (bits w 13 5) (bits w 18 5))
  else if fld w 23 9 = 5 then
    some (.sll (bits w 8 5) (bits w 13 5) (bits w 18 5))
  else if fld w 23 9 = 6 then
    some (.srl (bits w 8 5) (bits w 13 5) (bits w 18 5))
  else if fld w 23 9 = 7 then
    some (.sra (bits w 8 5) (bits w 13 5) (bits w 18 5))
  else if fld w 23 9 = 8 then
    some (.slt (bits w 8 5) (bits w 13 5) (bits w 18 5))
  else if fld w 23 9 = 9 then
    some (.sltu (bits w 8 5) (bits w 13 5) (bits w 18 5))
  else if fld w 23 9 = 10 then
    some (.min (bits w 8 5) (bits w 13 5) (bits w 18 5))
  else if fld w 23 9 = 11 then
    some (.max (bits w 8 5) (bits w 13 5) (bits w 18 5))
  else if fld w 23 9 = 12 then
    some (.minu (bits w 8 5) (bits w 13 5) (bits w 18 5))
  else if fld w 23 9 = 13 then
    some (.maxu (bits w 8 5) (bits w 13 5) (bits w 18 5))
  else if fld w 23 9 = 14 then
    some (.addw (bits w 8 5) (bits w 13 5) (bits w 18 5))
  else if fld w 23 9 = 15 then
    some (.subw (bits w 8 5) (bits w 13 5) (bits w 18 5))
  else if fld w 23 9 = 16 then
    some (.andn (bits w 8 5) (bits w 13 5) (bits w 18 5))
  else if fld w 23 9 = 17 then
    some (.orn (bits w 8 5) (bits w 13 5) (bits w 18 5))
  else if fld w 23 9 = 18 then
    some (.rol (bits w 8 5) (bits w 13 5) (bits w 18 5))
  else if fld w 23 9 = 19 then
    some (.ror (bits w 8 5) (bits w 13 5) (bits w 18 5))
  else none

/-- Major 0x02 (R55): ADDI. -/
def decodeMajor02 (w : Nat) : Option Instr :=
  some (.addi (bits w 8 5) (bits w 13 5) (bits w 18 14))

/-- Major 0x03 (R55): ANDI. -/
def decodeMajor03 (w : Nat) : Option Instr :=
  some (.andi (bits w 8 5) (bits w 13 5) (bits w 18 14))

/-- Major 0x04 (R55): ORI. -/
def decodeMajor04 (w : Nat) : Option Instr :=
  some (.ori (bits w 8 5) (bits w 13 5) (bits w 18 14))

/-- Major 0x05 (R55): XORI. -/
def decodeMajor05 (w : Nat) : Option Instr :=
  some (.xori (bits w 8 5) (bits w 13 5) (bits w 18 14))

/-- Major 0x06 (R55): SLLI SRLI SRAI RORI. -/
def decodeMajor06 (w : Nat) : Option Instr :=
  if fld w 24 8 = 0 then
    some (.slli (bits w 8 5) (bits w 13 5) (bits w 18 6))
  else if fld w 24 8 = 1 then
    some (.srli (bits w 8 5) (bits w 13 5) (bits w 18 6))
  else if fld w 24 8 = 2 then
    some (.srai (bits w 8 5) (bits w 13 5) (bits w 18 6))
  else if fld w 24 8 = 3 then
    some (.rori (bits w 8 5) (bits w 13 5) (bits w 18 6))
  else none

/-- Major 0x07 (R55): SLTI. -/
def decodeMajor07 (w : Nat) : Option Instr :=
  some (.slti (bits w 8 5) (bits w 13 5) (bits w 18 14))

/-- Major 0x08 (R55): MUL MULH MULHU DIV DIVU REM REMU MULW. -/
def decodeMajor08 (w : Nat) : Option Instr :=
  if fld w 23 9 = 0 then
    some (.mul (bits w 8 5) (bits w 13 5) (bits w 18 5))
  else if fld w 23 9 = 1 then
    some (.mulh (bits w 8 5) (bits w 13 5) (bits w 18 5))
  else if fld w 23 9 = 2 then
    some (.mulhu (bits w 8 5) (bits w 13 5) (bits w 18 5))
  else if fld w 23 9 = 3 then
    some (.div (bits w 8 5) (bits w 13 5) (bits w 18 5))
  else if fld w 23 9 = 4 then
    some (.divu (bits w 8 5) (bits w 13 5) (bits w 18 5))
  else if fld w 23 9 = 5 then
    some (.rem (bits w 8 5) (bits w 13 5) (bits w 18 5))
  else if fld w 23 9 = 6 then
    some (.remu (bits w 8 5) (bits w 13 5) (bits w 18 5))
  else if fld w 23 9 = 7 then
    some (.mulw (bits w 8 5) (bits w 13 5) (bits w 18 5))
  else none

/-- Major 0x09 (R55): CLZ CTZ POPC BFX BFXS BFI. -/
def decodeMajor09 (w : Nat) : Option Instr :=
  if fld w 23 9 = 384 ∧ fld w 18 5 = 0 then
    some (.clz (bits w 8 5) (bits w 13 5))
  else if fld w 23 9 = 384 ∧ fld w 18 5 = 1 then
    some (.ctz (bits w 8 5) (bits w 13 5))
  else if fld w 23 9 = 384 ∧ fld w 18 5 = 2 then
    some (.popc (bits w 8 5) (bits w 13 5))
  else if fld w 30 2 = 0 then
    some (.bfx (bits w 8 5) (bits w 13 5) (bits w 18 6) (bits w 24 6))
  else if fld w 30 2 = 1 then
    some (.bfxs (bits w 8 5) (bits w 13 5) (bits w 18 6) (bits w 24 6))
  else if fld w 30 2 = 2 then
    some (.bfi (bits w 8 5) (bits w 13 5) (bits w 18 6) (bits w 24 6))
  else none

/-- Major 0x0A (R55): LDHI. -/
def decodeMajor0A (w : Nat) : Option Instr :=
  some (.ldhi (bits w 8 5) (bits w 13 19))

/-- Major 0x0B (R55): ADDPC. -/
def decodeMajor0B (w : Nat) : Option Instr :=
  some (.addpc (bits w 8 5) (bits w 13 19))

/-- Major 0x0C (R55): BEQ. -/
def decodeMajor0C (w : Nat) : Option Instr :=
  some (.beq (bits w 8 5) (bits w 13 5) (bits w 18 14))

/-- Major 0x0D (R55): BNE. -/
def decodeMajor0D (w : Nat) : Option Instr :=
  some (.bne (bits w 8 5) (bits w 13 5) (bits w 18 14))

/-- Major 0x0E (R55): BLT. -/
def decodeMajor0E (w : Nat) : Option Instr :=
  some (.blt (bits w 8 5) (bits w 13 5) (bits w 18 14))

/-- Major 0x0F (R55): BGE. -/
def decodeMajor0F (w : Nat) : Option Instr :=
  some (.bge (bits w 8 5) (bits w 13 5) (bits w 18 14))

/-- Major 0x10 (R55): BLTU. -/
def decodeMajor10 (w : Nat) : Option Instr :=
  some (.bltu (bits w 8 5) (bits w 13 5) (bits w 18 14))

/-- Major 0x11 (R55): BGEU. -/
def decodeMajor11 (w : Nat) : Option Instr :=
  some (.bgeu (bits w 8 5) (bits w 13 5) (bits w 18 14))

/-- Major 0x12 (R55): JAL. -/
def decodeMajor12 (w : Nat) : Option Instr :=
  some (.jal (bits w 8 5) (bits w 13 19))

/-- Major 0x13 (R55): JALR. -/
def decodeMajor13 (w : Nat) : Option Instr :=
  some (.jalr (bits w 8 5) (bits w 13 5) (bits w 18 14))

/-- Major 0x14 (R55): LOOP. -/
def decodeMajor14 (w : Nat) : Option Instr :=
  if fld w 8 5 = 0 then
    some (.loop (bits w 13 5) (bits w 18 14))
  else none

/-- Major 0x15 (R55): LB LBU LH LHU LW LWU LD. -/
def decodeMajor15 (w : Nat) : Option Instr :=
  if fld w 29 3 = 0 then
    some (.lb (bits w 8 5) (bits w 13 5) (bits w 18 9) (bits w 27 2))
  else if fld w 29 3 = 1 then
    some (.lbu (bits w 8 5) (bits w 13 5) (bits w 18 9) (bits w 27 2))
  else if fld w 29 3 = 2 then
    some (.lh (bits w 8 5) (bits w 13 5) (bits w 18 9) (bits w 27 2))
  else if fld w 29 3 = 3 then
    some (.lhu (bits w 8 5) (bits w 13 5) (bits w 18 9) (bits w 27 2))
  else if fld w 29 3 = 4 then
    some (.lw (bits w 8 5) (bits w 13 5) (bits w 18 9) (bits w 27 2))
  else if fld w 29 3 = 5 then
    some (.lwu (bits w 8 5) (bits w 13 5) (bits w 18 9) (bits w 27 2))
  else if fld w 29 3 = 6 then
    some (.ld (bits w 8 5) (bits w 13 5) (bits w 18 9) (bits w 27 2))
  else none

/-- Major 0x16 (R55): SB SH SW SD. -/
def decodeMajor16 (w : Nat) : Option Instr :=
  if fld w 29 3 = 0 then
    some (.sb (bits w 8 5) (bits w 13 5) (bits w 18 9) (bits w 27 2))
  else if fld w 29 3 = 1 then
    some (.sh (bits w 8 5) (bits w 13 5) (bits w 18 9) (bits w 27 2))
  else if fld w 29 3 = 2 then
    some (.sw (bits w 8 5) (bits w 13 5) (bits w 18 9) (bits w 27 2))
  else if fld w 29 3 = 3 then
    some (.sd (bits w 8 5) (bits w 13 5) (bits w 18 9) (bits w 27 2))
  else none

/-- Major 0x17 (R55): LDVX LDV LDVB. -/
def decodeMajor17 (w : Nat) : Option Instr :=
  if fld w 29 3 = 1 ∧ fld w 23 4 = 0 then
    some (.ldvx (bits w 8 5) (bits w 13 5) (bits w 18 5) (bits w 27 2))
  else if fld w 29 3 = 0 then
    some (.ldv (bits w 8 5) (bits w 13 5) (bits w 18 9) (bits w 27 2))
  else if fld w 29 3 = 2 then
    some (.ldvb (bits w 8 5) (bits w 13 5) (bits w 18 9) (bits w 27 2))
  else none

/-- Major 0x18 (R55): STVX STV. -/
def decodeMajor18 (w : Nat) : Option Instr :=
  if fld w 29 3 = 1 ∧ fld w 23 4 = 0 then
    some (.stvx (bits w 8 5) (bits w 13 5) (bits w 18 5) (bits w 27 2))
  else if fld w 29 3 = 0 then
    some (.stv (bits w 8 5) (bits w 13 5) (bits w 18 9) (bits w 27 2))
  else none

/-- Major 0x19 (R55): AMOCAS AMOFMIN AMOFMAX AMOADD AMOAND AMOOR AMOXOR AMOMIN AMOMAX AMOMINU AMOMAXU AMOSWAP AMOFADD. -/
def decodeMajor19 (w : Nat) : Option Instr :=
  if fld w 0 1 = 0 ∧ fld w 30 2 = 0 ∧ fld w 23 4 = 9 then
    some (.amocas (bits w 8 5) (bits w 13 5) (bits w 18 5) (bit w 27) (bits w 28 2))
  else if fld w 0 1 = 0 ∧ fld w 31 1 = 0 ∧ fld w 23 5 = 11 then
    some (.amofmin (bits w 8 5) (bits w 13 5) (bits w 18 5) (bits w 28 2) (bit w 30))
  else if fld w 0 1 = 0 ∧ fld w 31 1 = 0 ∧ fld w 23 5 = 12 then
    some (.amofmax (bits w 8 5) (bits w 13 5) (bits w 18 5) (bits w 28 2) (bit w 30))
  else if fld w 0 1 = 0 ∧ fld w 31 1 = 0 ∧ fld w 23 4 = 0 then
    some (.amoadd (bits w 8 5) (bits w 13 5) (bits w 18 5) (bit w 27) (bits w 28 2) (bit w 30))
  else if fld w 0 1 = 0 ∧ fld w 31 1 = 0 ∧ fld w 23 4 = 1 then
    some (.amoand (bits w 8 5) (bits w 13 5) (bits w 18 5) (bit w 27) (bits w 28 2) (bit w 30))
  else if fld w 0 1 = 0 ∧ fld w 31 1 = 0 ∧ fld w 23 4 = 2 then
    some (.amoor (bits w 8 5) (bits w 13 5) (bits w 18 5) (bit w 27) (bits w 28 2) (bit w 30))
  else if fld w 0 1 = 0 ∧ fld w 31 1 = 0 ∧ fld w 23 4 = 3 then
    some (.amoxor (bits w 8 5) (bits w 13 5) (bits w 18 5) (bit w 27) (bits w 28 2) (bit w 30))
  else if fld w 0 1 = 0 ∧ fld w 31 1 = 0 ∧ fld w 23 4 = 4 then
    some (.amomin (bits w 8 5) (bits w 13 5) (bits w 18 5) (bit w 27) (bits w 28 2) (bit w 30))
  else if fld w 0 1 = 0 ∧ fld w 31 1 = 0 ∧ fld w 23 4 = 5 then
    some (.amomax (bits w 8 5) (bits w 13 5) (bits w 18 5) (bit w 27) (bits w 28 2) (bit w 30))
  else if fld w 0 1 = 0 ∧ fld w 31 1 = 0 ∧ fld w 23 4 = 6 then
    some (.amominu (bits w 8 5) (bits w 13 5) (bits w 18 5) (bit w 27) (bits w 28 2) (bit w 30))
  else if fld w 0 1 = 0 ∧ fld w 31 1 = 0 ∧ fld w 23 4 = 7 then
    some (.amomaxu (bits w 8 5) (bits w 13 5) (bits w 18 5) (bit w 27) (bits w 28 2) (bit w 30))
  else if fld w 0 1 = 0 ∧ fld w 31 1 = 0 ∧ fld w 23 4 = 8 then
    some (.amoswap (bits w 8 5) (bits w 13 5) (bits w 18 5) (bit w 27) (bits w 28 2) (bit w 30))
  else if fld w 31 1 = 0 ∧ fld w 23 5 = 10 then
    some (.amofadd (bit w 0) (bits w 8 5) (bits w 13 5) (bits w 18 5) (bits w 28 2) (bit w 30))
  else none

/-- Major 0x1A (R55): NMADD NMFADD NMMAX NMMIN NMOR. -/
def decodeMajor1A (w : Nat) : Option Instr :=
  if fld w 27 5 = 0 ∧ fld w 23 3 = 0 ∧ fld w 8 5 = 0 then
    some (.nmadd (bits w 13 5) (bits w 18 5) (bit w 26))
  else if fld w 27 5 = 0 ∧ fld w 23 3 = 1 ∧ fld w 8 5 = 0 then
    some (.nmfadd (bits w 13 5) (bits w 18 5) (bit w 26))
  else if fld w 27 5 = 0 ∧ fld w 23 3 = 2 ∧ fld w 8 5 = 0 then
    some (.nmmax (bits w 13 5) (bits w 18 5) (bit w 26))
  else if fld w 27 5 = 0 ∧ fld w 23 3 = 3 ∧ fld w 8 5 = 0 then
    some (.nmmin (bits w 13 5) (bits w 18 5) (bit w 26))
  else if fld w 27 5 = 0 ∧ fld w 23 3 = 4 ∧ fld w 8 5 = 0 then
    some (.nmor (bits w 13 5) (bits w 18 5) (bit w 26))
  else none

/-- Major 0x1B (R55): LKSTAT LKTRY LKREL LKACQ. -/
def decodeMajor1B (w : Nat) : Option Instr :=
  if fld w 23 9 = 3 ∧ fld w 18 5 = 0 then
    some (.lkstat (bits w 8 5) (bits w 13 5))
  else if fld w 29 3 = 0 ∧ fld w 23 3 = 1 ∧ fld w 18 5 = 0 then
    some (.lktry (bits w 8 5) (bits w 13 5) (bits w 26 3))
  else if fld w 29 3 = 0 ∧ fld w 23 3 = 2 ∧ fld w 18 5 = 0 then
    some (.lkrel (bits w 8 5) (bits w 13 5) (bits w 26 3))
  else if fld w 29 3 = 0 ∧ fld w 23 3 = 0 then
    some (.lkacq (bits w 8 5) (bits w 13 5) (bits w 18 5) (bits w 26 3))
  else none

/-- Major 0x1C (R55): FENCE. -/
def decodeMajor1C (w : Nat) : Option Instr :=
  if fld w 28 4 = 0 ∧ fld w 13 5 = 0 ∧ fld w 8 5 = 0 then
    some (.fence (bits w 18 3) (bits w 21 5) (bits w 26 2))
  else none

/-- Major 0x1D (R55): XPROBE XINV XINVAS SYNCI SURVEY XMIG. -/
def decodeMajor1D (w : Nat) : Option Instr :=
  if fld w 23 9 = 0 ∧ fld w 18 5 = 0 then
    some (.xprobe (bits w 8 5) (bits w 13 5))
  else if fld w 23 9 = 1 ∧ fld w 18 5 = 0 then
    some (.xinv (bits w 8 5) (bits w 13 5))
  else if fld w 23 9 = 2 ∧ fld w 18 5 = 0 then
    some (.xinvas (bits w 8 5) (bits w 13 5))
  else if fld w 23 9 = 3 then
    some (.synci (bits w 8 5) (bits w 13 5) (bits w 18 5))
  else if fld w 23 9 = 4 then
    some (.survey (bits w 8 5) (bits w 13 5) (bits w 18 5))
  else if fld w 23 9 = 5 then
    some (.xmig (bits w 8 5) (bits w 13 5) (bits w 18 5))
  else none

/-- Major 0x1E (R55): ERET HALT BRK TRAP WFE RESUME. -/
def decodeMajor1E (w : Nat) : Option Instr :=
  if fld w 23 9 = 1 ∧ fld w 18 5 = 0 ∧ fld w 13 5 = 0 ∧ fld w 8 5 = 0 then
    some (.eret)
  else if fld w 23 9 = 3 ∧ fld w 18 5 = 0 ∧ fld w 13 5 = 0 ∧ fld w 8 5 = 0 then
    some (.halt)
  else if fld w 23 9 = 4 ∧ fld w 18 5 = 0 ∧ fld w 13 5 = 0 ∧ fld w 8 5 = 0 then
    some (.brk)
  else if fld w 23 9 = 0 ∧ fld w 18 5 = 0 ∧ fld w 8 5 = 0 then
    some (.trap (bits w 13 5))
  else if fld w 23 9 = 2 ∧ fld w 18 5 = 0 then
    some (.wfe (bits w 8 5) (bits w 13 5))
  else if fld w 23 9 = 5 ∧ fld w 18 5 = 0 then
    some (.resume (bits w 8 5) (bits w 13 5))
  else none

/-- Major 0x1F (R55): CSRRW CSRRS CSRRC. -/
def decodeMajor1F (w : Nat) : Option Instr :=
  if fld w 30 2 = 0 then
    some (.csrrw (bits w 8 5) (bits w 13 5) (bits w 18 12))
  else if fld w 30 2 = 1 then
    some (.csrrs (bits w 8 5) (bits w 13 5) (bits w 18 12))
  else if fld w 30 2 = 2 then
    some (.csrrc (bits w 8 5) (bits w 13 5) (bits w 18 12))
  else none

/-- Major 0x20 (R55): VABS VNEG VSQRT VRSQ VRCP VEXP2 VLOG2 VMOV VADD VSUB VMUL VFMA VFMS VMIN VMAX VAND VOR VXOR VSLL VSRL VSRA VDIV VMULH VADDSAT VSUBSAT. -/
def decodeMajor20 (w : Nat) : Option Instr :=
  if fld w 23 6 = 7 ∧ fld w 18 5 = 0 then
    some (.vabs (bit w 0) (bits w 8 5) (bits w 13 5) (bits w 29 3))
  else if fld w 23 6 = 8 ∧ fld w 18 5 = 0 then
    some (.vneg (bit w 0) (bits w 8 5) (bits w 13 5) (bits w 29 3))
  else if fld w 23 6 = 16 ∧ fld w 18 5 = 0 then
    some (.vsqrt (bit w 0) (bits w 8 5) (bits w 13 5) (bits w 29 3))
  else if fld w 23 6 = 17 ∧ fld w 18 5 = 0 then
    some (.vrsq (bit w 0) (bits w 8 5) (bits w 13 5) (bits w 29 3))
  else if fld w 23 6 = 18 ∧ fld w 18 5 = 0 then
    some (.vrcp (bit w 0) (bits w 8 5) (bits w 13 5) (bits w 29 3))
  else if fld w 23 6 = 19 ∧ fld w 18 5 = 0 then
    some (.vexp2 (bit w 0) (bits w 8 5) (bits w 13 5) (bits w 29 3))
  else if fld w 23 6 = 20 ∧ fld w 18 5 = 0 then
    some (.vlog2 (bit w 0) (bits w 8 5) (bits w 13 5) (bits w 29 3))
  else if fld w 23 6 = 24 ∧ fld w 18 5 = 0 then
    some (.vmov (bit w 0) (bits w 8 5) (bits w 13 5) (bits w 29 3))
  else if fld w 23 6 = 0 then
    some (.vadd (bit w 0) (bits w 8 5) (bits w 13 5) (bits w 18 5) (bits w 29 3))
  else if fld w 23 6 = 1 then
    some (.vsub (bit w 0) (bits w 8 5) (bits w 13 5) (bits w 18 5) (bits w 29 3))
  else if fld w 23 6 = 2 then
    some (.vmul (bit w 0) (bits w 8 5) (bits w 13 5) (bits w 18 5) (bits w 29 3))
  else if fld w 23 6 = 3 then
    some (.vfma (bit w 0) (bits w 8 5) (bits w 13 5) (bits w 18 5) (bits w 29 3))
  else if fld w 23 6 = 4 then
    some (.vfms (bit w 0) (bits w 8 5) (bits w 13 5) (bits w 18 5) (bits w 29 3))
  else if fld w 23 6 = 5 then
    some (.vmin (bit w 0) (bits w 8 5) (bits w 13 5) (bits w 18 5) (bits w 29 3))
  else if fld w 23 6 = 6 then
    some (.vmax (bit w 0) (bits w 8 5) (bits w 13 5) (bits w 18 5) (bits w 29 3))
  else if fld w 23 6 = 9 then
    some (.vand (bit w 0) (bits w 8 5) (bits w 13 5) (bits w 18 5) (bits w 29 3))
  else if fld w 23 6 = 10 then
    some (.vor (bit w 0) (bits w 8 5) (bits w 13 5) (bits w 18 5) (bits w 29 3))
  else if fld w 23 6 = 11 then
    some (.vxor (bit w 0) (bits w 8 5) (bits w 13 5) (bits w 18 5) (bits w 29 3))
  else if fld w 23 6 = 12 then
    some (.vsll (bit w 0) (bits w 8 5) (bits w 13 5) (bits w 18 5) (bits w 29 3))
  else if fld w 23 6 = 13 then
    some (.vsrl (bit w 0) (bits w 8 5) (bits w 13 5) (bits w 18 5) (bits w 29 3))
  else if fld w 23 6 = 14 then
    some (.vsra (bit w 0) (bits w 8 5) (bits w 13 5) (bits w 18 5) (bits w 29 3))
  else if fld w 23 6 = 15 then
    some (.vdiv (bit w 0) (bits w 8 5) (bits w 13 5) (bits w 18 5) (bits w 29 3))
  else if fld w 23 6 = 21 then
    some (.vmulh (bit w 0) (bits w 8 5) (bits w 13 5) (bits w 18 5) (bits w 29 3))
  else if fld w 23 6 = 22 then
    some (.vaddsat (bit w 0) (bits w 8 5) (bits w 13 5) (bits w 18 5) (bits w 29 3))
  else if fld w 23 6 = 23 then
    some (.vsubsat (bit w 0) (bits w 8 5) (bits w 13 5) (bits w 18 5) (bits w 29 3))
  else none

/-- Major 0x21 (R55): VSPLAT VADDSC VSUBSC VMULSC VFMASC VMINSC VMAXSC VINS VEXT. -/
def decodeMajor21 (w : Nat) : Option Instr :=
  if fld w 23 6 = 6 ∧ fld w 18 5 = 0 then
    some (.vsplat (bit w 0) (bits w 8 5) (bits w 13 5) (bits w 29 3))
  else if fld w 23 6 = 0 then
    some (.vaddsc (bit w 0) (bits w 8 5) (bits w 13 5) (bits w 18 5) (bits w 29 3))
  else if fld w 23 6 = 1 then
    some (.vsubsc (bit w 0) (bits w 8 5) (bits w 13 5) (bits w 18 5) (bits w 29 3))
  else if fld w 23 6 = 2 then
    some (.vmulsc (bit w 0) (bits w 8 5) (bits w 13 5) (bits w 18 5) (bits w 29 3))
  else if fld w 23 6 = 3 then
    some (.vfmasc (bit w 0) (bits w 8 5) (bits w 13 5) (bits w 18 5) (bits w 29 3))
  else if fld w 23 6 = 4 then
    some (.vminsc (bit w 0) (bits w 8 5) (bits w 13 5) (bits w 18 5) (bits w 29 3))
  else if fld w 23 6 = 5 then
    some (.vmaxsc (bit w 0) (bits w 8 5) (bits w 13 5) (bits w 18 5) (bits w 29 3))
  else if fld w 23 6 = 7 then
    some (.vins (bit w 0) (bits w 8 5) (bits w 13 5) (bits w 18 5) (bits w 29 3))
  else if fld w 23 6 = 8 then
    some (.vext (bit w 0) (bits w 8 5) (bits w 13 5) (bits w 18 5) (bits w 29 3))
  else none

/-- Major 0x22 (R55): VCVT. -/
def decodeMajor22 (w : Nat) : Option Instr :=
  if fld w 31 1 = 0 then
    some (.vcvt (bit w 0) (bits w 8 5) (bits w 13 5) (bits w 18 5) (bits w 23 4) (bits w 27 4))
  else none

/-- Major 0x23 (R55): VREDSUM VREDMAX VREDMIN VPERM VROT VSORT VDUPM VCOMPR VEXPND. -/
def decodeMajor23 (w : Nat) : Option Instr :=
  if fld w 23 6 = 0 ∧ fld w 18 5 = 0 then
    some (.vredsum (bit w 0) (bits w 8 5) (bits w 13 5) (bits w 29 3))
  else if fld w 23 6 = 1 ∧ fld w 18 5 = 0 then
    some (.vredmax (bit w 0) (bits w 8 5) (bits w 13 5) (bits w 29 3))
  else if fld w 23 6 = 2 ∧ fld w 18 5 = 0 then
    some (.vredmin (bit w 0) (bits w 8 5) (bits w 13 5) (bits w 29 3))
  else if fld w 23 6 = 3 then
    some (.vperm (bit w 0) (bits w 8 5) (bits w 13 5) (bits w 18 5) (bits w 29 3))
  else if fld w 23 6 = 4 then
    some (.vrot (bit w 0) (bits w 8 5) (bits w 13 5) (bits w 18 5) (bits w 29 3))
  else if fld w 23 6 = 5 then
    some (.vsort (bit w 0) (bits w 8 5) (bits w 13 5) (bits w 18 5) (bits w 29 3))
  else if fld w 23 6 = 6 then
    some (.vdupm (bit w 0) (bits w 8 5) (bits w 13 5) (bits w 18 5) (bits w 29 3))
  else if fld w 23 6 = 7 then
    some (.vcompr (bit w 0) (bits w 8 5) (bits w 13 5) (bits w 18 5) (bits w 29 3))
  else if fld w 23 6 = 8 then
    some (.vexpnd (bit w 0) (bits w 8 5) (bits w 13 5) (bits w 18 5) (bits w 29 3))
  else none

/-- Major 0x24 (R55): PNOT PCNT PAND POR VSEL VCMP. -/
def decodeMajor24 (w : Nat) : Option Instr :=
  if fld w 23 9 = 12 ∧ fld w 18 5 = 0 then
    some (.pnot (bit w 0) (bits w 8 5) (bits w 13 5))
  else if fld w 23 9 = 13 ∧ fld w 18 5 = 0 then
    some (.pcnt (bit w 0) (bits w 8 5) (bits w 13 5))
  else if fld w 23 9 = 10 then
    some (.pand (bit w 0) (bits w 8 5) (bits w 13 5) (bits w 18 5))
  else if fld w 23 9 = 11 then
    some (.por (bit w 0) (bits w 8 5) (bits w 13 5) (bits w 18 5))
  else if fld w 23 6 = 9 then
    some (.vsel (bit w 0) (bits w 8 5) (bits w 13 5) (bits w 18 5) (bits w 29 3))
  else some (.vcmp (bit w 0) (bits w 8 5) (bits w 13 5) (bits w 18 5) (bits w 23 6) (bits w 29 3))

/-- Major 0x25 (R55): SUNBIND SBIND SSTAT. -/
def decodeMajor25 (w : Nat) : Option Instr :=
  if fld w 23 9 = 1 ∧ fld w 18 5 = 0 ∧ fld w 13 5 = 0 then
    some (.sunbind (bits w 8 5))
  else if fld w 23 9 = 0 ∧ fld w 18 5 = 0 then
    some (.sbind (bits w 8 5) (bits w 13 5))
  else if fld w 23 9 = 2 ∧ fld w 18 5 = 0 then
    some (.sstat (bits w 8 5) (bits w 13 5))
  else none

/-- Major 0x26 (R55): GCLR GW GR. -/
def decodeMajor26 (w : Nat) : Option Instr :=
  if fld w 23 9 = 2 ∧ fld w 18 5 = 0 ∧ fld w 13 5 = 0 ∧ fld w 8 5 = 0 then
    some (.gclr)
  else if fld w 23 9 = 0 ∧ fld w 18 5 = 0 then
    some (.gw (bits w 8 5) (bits w 13 5))
  else if fld w 23 9 = 1 ∧ fld w 18 5 = 0 then
    some (.gr (bits w 8 5) (bits w 13 5))
  else none

/-- Major 0x27 (R55): ECLONE EMMZ ECOLL ECPY EGTH ESCT EXCH ETOPK ENMSC EPTAB EMMD EMMA. -/
def decodeMajor27 (w : Nat) : Option Instr :=
  if fld w 0 1 = 0 ∧ fld w 23 9 = 0 ∧ fld w 18 5 = 0 ∧ fld w 8 5 = 10 then
    some (.eclone (bits w 13 5))
  else if fld w 0 1 = 0 ∧ fld w 24 8 = 0 ∧ fld w 18 5 = 0 ∧ fld w 8 5 = 5 then
    some (.emmz (bits w 13 5) (bit w 23))
  else if fld w 0 1 = 0 ∧ fld w 23 9 = 0 ∧ fld w 8 5 = 8 then
    some (.ecoll (bits w 13 5) (bits w 18 5))
  else if fld w 0 1 = 0 ∧ fld w 24 8 = 0 ∧ fld w 8 5 = 0 then
    some (.ecpy (bits w 13 5) (bits w 18 5) (bit w 23))
  else if fld w 0 1 = 0 ∧ fld w 24 8 = 0 ∧ fld w 8 5 = 1 then
    some (.egth (bits w 13 5) (bits w 18 5) (bit w 23))
  else if fld w 0 1 = 0 ∧ fld w 24 8 = 0 ∧ fld w 8 5 = 2 then
    some (.esct (bits w 13 5) (bits w 18 5) (bit w 23))
  else if fld w 0 1 = 0 ∧ fld w 24 8 = 0 ∧ fld w 8 5 = 3 then
    some (.exch (bits w 13 5) (bits w 18 5) (bit w 23))
  else if fld w 0 1 = 0 ∧ fld w 24 8 = 0 ∧ fld w 8 5 = 9 then
    some (.etopk (bits w 13 5) (bits w 18 5) (bit w 23))
  else if fld w 0 1 = 0 ∧ fld w 24 8 = 0 ∧ fld w 8 5 = 11 then
    some (.enmsc (bits w 13 5) (bits w 18 5) (bit w 23))
  else if fld w 0 1 = 0 ∧ fld w 24 8 = 0 ∧ fld w 8 5 = 12 then
    some (.eptab (bits w 13 5) (bits w 18 5) (bit w 23))
  else if fld w 24 8 = 0 ∧ fld w 8 5 = 6 then
    some (.emmd (bit w 0) (bits w 13 5) (bits w 18 5) (bit w 23))
  else if fld w 25 7 = 0 ∧ fld w 8 5 = 4 then
    some (.emma (bit w 0) (bits w 13 5) (bits w 18 5) (bit w 23) (bit w 24))
  else none

/-- Major 0x28 (R55): UNLEASE LSTAT LEASE. -/
def decodeMajor28 (w : Nat) : Option Instr :=
  if fld w 23 9 = 1 ∧ fld w 18 5 = 0 ∧ fld w 13 5 = 0 then
    some (.unlease (bits w 8 5))
  else if fld w 23 9 = 2 ∧ fld w 18 5 = 0 ∧ fld w 13 5 = 0 then
    some (.lstat (bits w 8 5))
  else if fld w 23 9 = 0 ∧ fld w 18 5 = 0 then
    some (.lease (bits w 8 5) (bits w 13 5))
  else none

/-- Major 0x29 (R55): BBINIT BBWAIT BBEXP BBTEST. -/
def decodeMajor29 (w : Nat) : Option Instr :=
  if fld w 23 9 = 0 ∧ fld w 18 5 = 0 ∧ fld w 8 5 = 0 then
    some (.bbinit (bits w 13 5))
  else if fld w 23 9 = 2 ∧ fld w 19 4 = 0 ∧ fld w 8 5 = 0 then
    some (.bbwait (bits w 13 5) (bit w 18))
  else if fld w 23 9 = 1 ∧ fld w 8 5 = 0 then
    some (.bbexp (bits w 13 5) (bits w 18 5))
  else if fld w 23 9 = 3 ∧ fld w 18 5 = 0 then
    some (.bbtest (bits w 8 5) (bits w 13 5))
  else none

/-- Major 0x2A (R55): PHNEW PHDROP PHSIG PHWAIT PHSW PHQ PHREG. -/
def decodeMajor2A (w : Nat) : Option Instr :=
  if fld w 23 9 = 0 ∧ fld w 18 5 = 0 then
    some (.phnew (bits w 8 5) (bits w 13 5))
  else if fld w 23 9 = 2 ∧ fld w 18 5 = 0 then
    some (.phdrop (bits w 8 5) (bits w 13 5))
  else if fld w 23 9 = 3 ∧ fld w 18 5 = 0 then
    some (.phsig (bits w 8 5) (bits w 13 5))
  else if fld w 23 9 = 4 ∧ fld w 18 5 = 0 then
    some (.phwait (bits w 8 5) (bits w 13 5))
  else if fld w 23 9 = 5 ∧ fld w 18 5 = 0 then
    some (.phsw (bits w 8 5) (bits w 13 5))
  else if fld w 23 9 = 6 ∧ fld w 18 5 = 0 then
    some (.phq (bits w 8 5) (bits w 13 5))
  else if fld w 23 9 = 1 then
    some (.phreg (bits w 8 5) (bits w 13 5) (bits w 18 5))
  else none

/-- Major 0x2B (R55): QUIT YIELD CTXID WID WIDF JOINH HSTAT START STARTP. -/
def decodeMajor2B (w : Nat) : Option Instr :=
  if fld w 23 9 = 2 ∧ fld w 18 5 = 0 ∧ fld w 13 5 = 0 ∧ fld w 8 5 = 0 then
    some (.quit)
  else if fld w 23 9 = 3 ∧ fld w 18 5 = 0 ∧ fld w 13 5 = 0 ∧ fld w 8 5 = 0 then
    some (.yield)
  else if fld w 23 9 = 4 ∧ fld w 18 5 = 0 ∧ fld w 13 5 = 0 then
    some (.ctxid (bits w 8 5))
  else if fld w 23 9 = 5 ∧ fld w 18 5 = 0 ∧ fld w 13 5 = 0 then
    some (.wid (bits w 8 5))
  else if fld w 23 9 = 6 ∧ fld w 13 5 = 0 then
    some (.widf (bits w 8 5) (bits w 18 5))
  else if fld w 23 9 = 7 ∧ fld w 18 5 = 0 then
    some (.joinh (bits w 8 5) (bits w 13 5))
  else if fld w 23 9 = 8 ∧ fld w 18 5 = 0 then
    some (.hstat (bits w 8 5) (bits w 13 5))
  else if fld w 23 9 = 0 then
    some (.start (bits w 8 5) (bits w 13 5) (bits w 18 5))
  else if fld w 23 9 = 1 then
    some (.startp (bits w 8 5) (bits w 13 5) (bits w 18 5))
  else none

/-- Major 0x2C (R55): MPOP MPOPV MPEEK MBIND MFREE SEND SENDV. -/
def decodeMajor2C (w : Nat) : Option Instr :=
  if fld w 23 9 = 2 ∧ fld w 18 5 = 0 then
    some (.mpop (bits w 8 5) (bits w 13 5))
  else if fld w 23 9 = 3 ∧ fld w 18 5 = 0 then
    some (.mpopv (bits w 8 5) (bits w 13 5))
  else if fld w 23 9 = 4 ∧ fld w 18 5 = 0 then
    some (.mpeek (bits w 8 5) (bits w 13 5))
  else if fld w 23 9 = 5 ∧ fld w 18 5 = 0 then
    some (.mbind (bits w 8 5) (bits w 13 5))
  else if fld w 23 9 = 6 ∧ fld w 18 5 = 0 then
    some (.mfree (bits w 8 5) (bits w 13 5))
  else if fld w 23 9 = 0 then
    some (.send (bits w 8 5) (bits w 13 5) (bits w 18 5))
  else if fld w 23 9 = 1 then
    some (.sendv (bits w 8 5) (bits w 13 5) (bits w 18 5))
  else none

/-- Major 0x2D (R55): XJOIN XVER XCREATE TSEND TBWD TRET XQUERY XRETIRE. -/
def decodeMajor2D (w : Nat) : Option Instr :=
  if fld w 23 9 = 4 ∧ fld w 18 5 = 0 then
    some (.xjoin (bits w 8 5) (bits w 13 5))
  else if fld w 23 9 = 5 ∧ fld w 18 5 = 0 then
    some (.xver (bits w 8 5) (bits w 13 5))
  else if fld w 23 9 = 6 ∧ fld w 18 5 = 0 then
    some (.xcreate (bits w 8 5) (bits w 13 5))
  else if fld w 23 9 = 0 then
    some (.tsend (bits w 8 5) (bits w 13 5) (bits w 18 5))
  else if fld w 23 9 = 1 then
    some (.tbwd (bits w 8 5) (bits w 13 5) (bits w 18 5))
  else if fld w 23 9 = 2 then
    some (.tret (bits w 8 5) (bits w 13 5) (bits w 18 5))
  else if fld w 23 9 = 3 then
    some (.xquery (bits w 8 5) (bits w 13 5) (bits w 18 5))
  else if fld w 23 9 = 7 then
    some (.xretire (bits w 8 5) (bits w 13 5) (bits w 18 5))
  else none

/-- Major 0x2E (R55): SHAPE OBJREL OBJMODE. -/
def decodeMajor2E (w : Nat) : Option Instr :=
  if fld w 23 9 = 0 ∧ fld w 18 5 = 0 then
    some (.shape (bits w 8 5) (bits w 13 5))
  else if fld w 23 9 = 1 ∧ fld w 18 5 = 0 then
    some (.objrel (bits w 8 5) (bits w 13 5))
  else if fld w 23 9 = 2 then
    some (.objmode (bits w 8 5) (bits w 13 5) (bits w 18 5))
  else none

/-- Major 0x2F (R55): FSQRT FCVTI FCVTF FCLASS FADD FSUB FMUL FMAC FDIV FMIN FMAX FLT FEQ SCAL. -/
def decodeMajor2F (w : Nat) : Option Instr :=
  if fld w 23 9 = 5 ∧ fld w 18 5 = 0 then
    some (.fsqrt (bit w 0) (bits w 8 5) (bits w 13 5))
  else if fld w 23 9 = 8 ∧ fld w 18 5 = 0 then
    some (.fcvti (bit w 0) (bits w 8 5) (bits w 13 5))
  else if fld w 23 9 = 9 ∧ fld w 18 5 = 0 then
    some (.fcvtf (bit w 0) (bits w 8 5) (bits w 13 5))
  else if fld w 23 9 = 13 ∧ fld w 18 5 = 0 then
    some (.fclass (bit w 0) (bits w 8 5) (bits w 13 5))
  else if fld w 23 9 = 0 then
    some (.fadd (bit w 0) (bits w 8 5) (bits w 13 5) (bits w 18 5))
  else if fld w 23 9 = 1 then
    some (.fsub (bit w 0) (bits w 8 5) (bits w 13 5) (bits w 18 5))
  else if fld w 23 9 = 2 then
    some (.fmul (bit w 0) (bits w 8 5) (bits w 13 5) (bits w 18 5))
  else if fld w 23 9 = 3 then
    some (.fmac (bit w 0) (bits w 8 5) (bits w 13 5) (bits w 18 5))
  else if fld w 23 9 = 4 then
    some (.fdiv (bit w 0) (bits w 8 5) (bits w 13 5) (bits w 18 5))
  else if fld w 23 9 = 6 then
    some (.fmin (bit w 0) (bits w 8 5) (bits w 13 5) (bits w 18 5))
  else if fld w 23 9 = 7 then
    some (.fmax (bit w 0) (bits w 8 5) (bits w 13 5) (bits w 18 5))
  else if fld w 23 9 = 10 then
    some (.flt (bit w 0) (bits w 8 5) (bits w 13 5) (bits w 18 5))
  else if fld w 23 9 = 11 then
    some (.feq (bit w 0) (bits w 8 5) (bits w 13 5) (bits w 18 5))
  else if fld w 23 9 = 12 then
    some (.scal (bit w 0) (bits w 8 5) (bits w 13 5) (bits w 18 5))
  else none

/-- The word of a 32-bit instruction by its major opcode [7:2] (R55); a major the map does not list is none. -/
def decodeMajor (w : Nat) : Option Instr :=
  match fld w 2 6 with
  | 0x01 => decodeMajor01 w
  | 0x02 => decodeMajor02 w
  | 0x03 => decodeMajor03 w
  | 0x04 => decodeMajor04 w
  | 0x05 => decodeMajor05 w
  | 0x06 => decodeMajor06 w
  | 0x07 => decodeMajor07 w
  | 0x08 => decodeMajor08 w
  | 0x09 => decodeMajor09 w
  | 0x0A => decodeMajor0A w
  | 0x0B => decodeMajor0B w
  | 0x0C => decodeMajor0C w
  | 0x0D => decodeMajor0D w
  | 0x0E => decodeMajor0E w
  | 0x0F => decodeMajor0F w
  | 0x10 => decodeMajor10 w
  | 0x11 => decodeMajor11 w
  | 0x12 => decodeMajor12 w
  | 0x13 => decodeMajor13 w
  | 0x14 => decodeMajor14 w
  | 0x15 => decodeMajor15 w
  | 0x16 => decodeMajor16 w
  | 0x17 => decodeMajor17 w
  | 0x18 => decodeMajor18 w
  | 0x19 => decodeMajor19 w
  | 0x1A => decodeMajor1A w
  | 0x1B => decodeMajor1B w
  | 0x1C => decodeMajor1C w
  | 0x1D => decodeMajor1D w
  | 0x1E => decodeMajor1E w
  | 0x1F => decodeMajor1F w
  | 0x20 => decodeMajor20 w
  | 0x21 => decodeMajor21 w
  | 0x22 => decodeMajor22 w
  | 0x23 => decodeMajor23 w
  | 0x24 => decodeMajor24 w
  | 0x25 => decodeMajor25 w
  | 0x26 => decodeMajor26 w
  | 0x27 => decodeMajor27 w
  | 0x28 => decodeMajor28 w
  | 0x29 => decodeMajor29 w
  | 0x2A => decodeMajor2A w
  | 0x2B => decodeMajor2B w
  | 0x2C => decodeMajor2C w
  | 0x2D => decodeMajor2D w
  | 0x2E => decodeMajor2E w
  | 0x2F => decodeMajor2F w
  | _ => none

/-- The long instructions by major5 [7:3] (R56): first word `w`, payload `p`. Only VSPLATI may carry G = 1. -/
def decodeLong (w p : Nat) : Option Instr :=
  match fld w 3 5 with
  | 1 => if fld w 2 1 = 0 ∧ fld w 13 19 = 0 then
      some (.ldi (bits w 8 5) (BitVec.ofNat 32 p)) else none
  | 2 => if fld w 2 1 = 0 ∧ fld w 13 19 = 0 then
      some (.ldiu (bits w 8 5) (BitVec.ofNat 32 p)) else none
  | 5 => if fld w 2 1 = 0 ∧ fld w 18 14 = 0 then
      some (.addil (bits w 8 5) (bits w 13 5) (BitVec.ofNat 32 p)) else none
  | 3 => if fld w 2 1 = 0 ∧ fld w 13 19 = 0 then
      some (.jl (bits w 8 5) (BitVec.ofNat 32 p)) else none
  | 6 => if fld w 2 1 = 0 ∧ fld w 18 9 = 0 then
      some (.ldl (bits w 8 5) (bits w 13 5) (bits w 29 3) (bits w 27 2) (BitVec.ofNat 32 p)) else none
  | 7 => if fld w 2 1 = 0 ∧ fld w 18 9 = 0 then
      some (.stl (bits w 8 5) (bits w 13 5) (bits w 29 3) (bits w 27 2) (BitVec.ofNat 32 p)) else none
  | 8 => if fld w 13 16 = 0 then
      some (.vsplati (bit w 2) (bits w 8 5) (bits w 29 3) (BitVec.ofNat 32 p)) else none
  | 4 => if fld w 2 1 = 0 ∧ fld w 23 9 = 0 then
      some (.sendb (bits w 8 5) (bits w 13 5) (bits w 18 5) (BitVec.ofNat 32 p)) else none
  | _ => none
/-- PFX (R47): selector 0b10, bits [31:18] zero. -/
def decodePfx (w : Nat) : Option Instr :=
  if fld w 18 14 = 0 then some (.pfx (bits w 2 3) (bit w 5) (bits w 6 2) (bits w 8 4) (bit w 12) (bits w 13 5)) else none

/-- The instruction whose first word is `w` and whose payload, if it is long, is `p` (R40). -/
def decodeWord (w p : Nat) : Except DecodeError Instr :=
  match fld w 0 2 with
  | 3 => (decodeLong w p).elim (.error .unlistedLong) .ok
  | 2 => (decodePfx w).elim (.error .unlistedWord) .ok
  | _ => (decodeMajor w).elim (.error .unlistedWord) .ok

/-- A word from its bytes, the lowest address first (R5). -/
def wordOfBytes (a b c d : Byte) : Nat := a.toNat + 256 * b.toNat + 65536 * c.toNat + 16777216 * d.toNat

/-- The decoder: the instruction that the bytes begin with, and the rest of them. -/
def decode (l : List Byte) : Except DecodeError (Instr × List Byte) :=
  match l with
  | a :: b :: c :: d :: r =>
    let w := wordOfBytes a b c d
    if fld w 0 2 = 3 then
      match r with
      | e :: f :: g :: h :: r' => (decodeWord w (wordOfBytes e f g h)).map (fun i => (i, r'))
      | _ => .error .truncated
    else (decodeWord w 0).map (fun i => (i, r))
  | _ => .error .truncated

/-- `n` bytes of a number, the least significant first. -/
def bytesOf (w : Nat) : Nat → List Byte
  | 0 => []
  | n + 1 => BitVec.ofNat 8 w :: bytesOf (w / 256) n

/-- What the decoder reads from an instruction whose low `nbits` bits are `w` and whose further bits are zero. -/
def decodeTableWord (nbits w : Nat) : Option Instr :=
  match decode (bytesOf (w % 2 ^ nbits) 8) with
  | .ok (i, _) => some i
  | .error _ => none

/-! ## Encoding -/

/-- A field's value at its place. -/
def sh (v lo : Nat) : Nat := v * 2 ^ lo

/-- The first word of an encodable instruction, from the layouts of R43 and the map of R55 and R56; an event has no word. -/
def encodeFirst : Instr → Nat
  | .pfx p s n o c r => .add (.add (.add (.add (.add (.add 0x00000002 (sh p.toNat 2)) (sh s.toNat 5)) (sh n.toNat 6)) (sh o.toNat 8)) (sh c.toNat 12)) (sh r.toNat 13)
  | .add d a b => .add (.add (.add 0x00000004 (sh d.toNat 8)) (sh a.toNat 13)) (sh b.toNat 18)
  | .sub d a b => .add (.add (.add 0x00800004 (sh d.toNat 8)) (sh a.toNat 13)) (sh b.toNat 18)
  | .and d a b => .add (.add (.add 0x01000004 (sh d.toNat 8)) (sh a.toNat 13)) (sh b.toNat 18)
  | .or d a b => .add (.add (.add 0x01800004 (sh d.toNat 8)) (sh a.toNat 13)) (sh b.toNat 18)
  | .xor d a b => .add (.add (.add 0x02000004 (sh d.toNat 8)) (sh a.toNat 13)) (sh b.toNat 18)
  | .sll d a b => .add (.add (.add 0x02800004 (sh d.toNat 8)) (sh a.toNat 13)) (sh b.toNat 18)
  | .srl d a b => .add (.add (.add 0x03000004 (sh d.toNat 8)) (sh a.toNat 13)) (sh b.toNat 18)
  | .sra d a b => .add (.add (.add 0x03800004 (sh d.toNat 8)) (sh a.toNat 13)) (sh b.toNat 18)
  | .slt d a b => .add (.add (.add 0x04000004 (sh d.toNat 8)) (sh a.toNat 13)) (sh b.toNat 18)
  | .sltu d a b => .add (.add (.add 0x04800004 (sh d.toNat 8)) (sh a.toNat 13)) (sh b.toNat 18)
  | .min d a b => .add (.add (.add 0x05000004 (sh d.toNat 8)) (sh a.toNat 13)) (sh b.toNat 18)
  | .max d a b => .add (.add (.add 0x05800004 (sh d.toNat 8)) (sh a.toNat 13)) (sh b.toNat 18)
  | .minu d a b => .add (.add (.add 0x06000004 (sh d.toNat 8)) (sh a.toNat 13)) (sh b.toNat 18)
  | .maxu d a b => .add (.add (.add 0x06800004 (sh d.toNat 8)) (sh a.toNat 13)) (sh b.toNat 18)
  | .addw d a b => .add (.add (.add 0x07000004 (sh d.toNat 8)) (sh a.toNat 13)) (sh b.toNat 18)
  | .subw d a b => .add (.add (.add 0x07800004 (sh d.toNat 8)) (sh a.toNat 13)) (sh b.toNat 18)
  | .andn d a b => .add (.add (.add 0x08000004 (sh d.toNat 8)) (sh a.toNat 13)) (sh b.toNat 18)
  | .orn d a b => .add (.add (.add 0x08800004 (sh d.toNat 8)) (sh a.toNat 13)) (sh b.toNat 18)
  | .rol d a b => .add (.add (.add 0x09000004 (sh d.toNat 8)) (sh a.toNat 13)) (sh b.toNat 18)
  | .ror d a b => .add (.add (.add 0x09800004 (sh d.toNat 8)) (sh a.toNat 13)) (sh b.toNat 18)
  | .addi d a i => .add (.add (.add 0x00000008 (sh d.toNat 8)) (sh a.toNat 13)) (sh i.toNat 18)
  | .andi d a i => .add (.add (.add 0x0000000C (sh d.toNat 8)) (sh a.toNat 13)) (sh i.toNat 18)
  | .ori d a i => .add (.add (.add 0x00000010 (sh d.toNat 8)) (sh a.toNat 13)) (sh i.toNat 18)
  | .xori d a i => .add (.add (.add 0x00000014 (sh d.toNat 8)) (sh a.toNat 13)) (sh i.toNat 18)
  | .slli d a n => .add (.add (.add 0x00000018 (sh d.toNat 8)) (sh a.toNat 13)) (sh n.toNat 18)
  | .srli d a n => .add (.add (.add 0x01000018 (sh d.toNat 8)) (sh a.toNat 13)) (sh n.toNat 18)
  | .srai d a n => .add (.add (.add 0x02000018 (sh d.toNat 8)) (sh a.toNat 13)) (sh n.toNat 18)
  | .rori d a n => .add (.add (.add 0x03000018 (sh d.toNat 8)) (sh a.toNat 13)) (sh n.toNat 18)
  | .slti d a i => .add (.add (.add 0x0000001C (sh d.toNat 8)) (sh a.toNat 13)) (sh i.toNat 18)
  | .mul d a b => .add (.add (.add 0x00000020 (sh d.toNat 8)) (sh a.toNat 13)) (sh b.toNat 18)
  | .mulh d a b => .add (.add (.add 0x00800020 (sh d.toNat 8)) (sh a.toNat 13)) (sh b.toNat 18)
  | .mulhu d a b => .add (.add (.add 0x01000020 (sh d.toNat 8)) (sh a.toNat 13)) (sh b.toNat 18)
  | .div d a b => .add (.add (.add 0x01800020 (sh d.toNat 8)) (sh a.toNat 13)) (sh b.toNat 18)
  | .divu d a b => .add (.add (.add 0x02000020 (sh d.toNat 8)) (sh a.toNat 13)) (sh b.toNat 18)
  | .rem d a b => .add (.add (.add 0x02800020 (sh d.toNat 8)) (sh a.toNat 13)) (sh b.toNat 18)
  | .remu d a b => .add (.add (.add 0x03000020 (sh d.toNat 8)) (sh a.toNat 13)) (sh b.toNat 18)
  | .mulw d a b => .add (.add (.add 0x03800020 (sh d.toNat 8)) (sh a.toNat 13)) (sh b.toNat 18)
  | .bfx d a p w => .add (.add (.add (.add 0x00000024 (sh d.toNat 8)) (sh a.toNat 13)) (sh p.toNat 18)) (sh w.toNat 24)
  | .bfxs d a p w => .add (.add (.add (.add 0x40000024 (sh d.toNat 8)) (sh a.toNat 13)) (sh p.toNat 18)) (sh w.toNat 24)
  | .bfi d a p w => .add (.add (.add (.add 0x80000024 (sh d.toNat 8)) (sh a.toNat 13)) (sh p.toNat 18)) (sh w.toNat 24)
  | .clz d a => .add (.add 0xC0000024 (sh d.toNat 8)) (sh a.toNat 13)
  | .ctz d a => .add (.add 0xC0040024 (sh d.toNat 8)) (sh a.toNat 13)
  | .popc d a => .add (.add 0xC0080024 (sh d.toNat 8)) (sh a.toNat 13)
  | .ldhi d i => .add (.add 0x00000028 (sh d.toNat 8)) (sh i.toNat 13)
  | .addpc d i => .add (.add 0x0000002C (sh d.toNat 8)) (sh i.toNat 13)
  | .ldi d _ => .add 0x0000000B (sh d.toNat 8)
  | .ldiu d _ => .add 0x00000013 (sh d.toNat 8)
  | .addil d a _ => .add (.add 0x0000002B (sh d.toNat 8)) (sh a.toNat 13)
  | .beq a b o => .add (.add (.add 0x00000030 (sh a.toNat 8)) (sh b.toNat 13)) (sh o.toNat 18)
  | .bne a b o => .add (.add (.add 0x00000034 (sh a.toNat 8)) (sh b.toNat 13)) (sh o.toNat 18)
  | .blt a b o => .add (.add (.add 0x00000038 (sh a.toNat 8)) (sh b.toNat 13)) (sh o.toNat 18)
  | .bge a b o => .add (.add (.add 0x0000003C (sh a.toNat 8)) (sh b.toNat 13)) (sh o.toNat 18)
  | .bltu a b o => .add (.add (.add 0x00000040 (sh a.toNat 8)) (sh b.toNat 13)) (sh o.toNat 18)
  | .bgeu a b o => .add (.add (.add 0x00000044 (sh a.toNat 8)) (sh b.toNat 13)) (sh o.toNat 18)
  | .jal d i => .add (.add 0x00000048 (sh d.toNat 8)) (sh i.toNat 13)
  | .jalr d a i => .add (.add (.add 0x0000004C (sh d.toNat 8)) (sh a.toNat 13)) (sh i.toNat 18)
  | .jl d _ => .add 0x0000001B (sh d.toNat 8)
  | .loop c l => .add (.add 0x00000050 (sh c.toNat 13)) (sh l.toNat 18)
  | .lb d a o t => .add (.add (.add (.add 0x00000054 (sh d.toNat 8)) (sh a.toNat 13)) (sh o.toNat 18)) (sh t.toNat 27)
  | .lbu d a o t => .add (.add (.add (.add 0x20000054 (sh d.toNat 8)) (sh a.toNat 13)) (sh o.toNat 18)) (sh t.toNat 27)
  | .lh d a o t => .add (.add (.add (.add 0x40000054 (sh d.toNat 8)) (sh a.toNat 13)) (sh o.toNat 18)) (sh t.toNat 27)
  | .lhu d a o t => .add (.add (.add (.add 0x60000054 (sh d.toNat 8)) (sh a.toNat 13)) (sh o.toNat 18)) (sh t.toNat 27)
  | .lw d a o t => .add (.add (.add (.add 0x80000054 (sh d.toNat 8)) (sh a.toNat 13)) (sh o.toNat 18)) (sh t.toNat 27)
  | .lwu d a o t => .add (.add (.add (.add 0xA0000054 (sh d.toNat 8)) (sh a.toNat 13)) (sh o.toNat 18)) (sh t.toNat 27)
  | .ld d a o t => .add (.add (.add (.add 0xC0000054 (sh d.toNat 8)) (sh a.toNat 13)) (sh o.toNat 18)) (sh t.toNat 27)
  | .sb v a o t => .add (.add (.add (.add 0x00000058 (sh v.toNat 8)) (sh a.toNat 13)) (sh o.toNat 18)) (sh t.toNat 27)
  | .sh v a o t => .add (.add (.add (.add 0x20000058 (sh v.toNat 8)) (sh a.toNat 13)) (sh o.toNat 18)) (sh t.toNat 27)
  | .sw v a o t => .add (.add (.add (.add 0x40000058 (sh v.toNat 8)) (sh a.toNat 13)) (sh o.toNat 18)) (sh t.toNat 27)
  | .sd v a o t => .add (.add (.add (.add 0x60000058 (sh v.toNat 8)) (sh a.toNat 13)) (sh o.toNat 18)) (sh t.toNat 27)
  | .ldl d a f t _ => .add (.add (.add (.add 0x00000033 (sh d.toNat 8)) (sh a.toNat 13)) (sh f.toNat 29)) (sh t.toNat 27)
  | .stl v a f t _ => .add (.add (.add (.add 0x0000003B (sh v.toNat 8)) (sh a.toNat 13)) (sh f.toNat 29)) (sh t.toNat 27)
  | .ldv d a o t => .add (.add (.add (.add 0x0000005C (sh d.toNat 8)) (sh a.toNat 13)) (sh o.toNat 18)) (sh t.toNat 27)
  | .ldvx d a i t => .add (.add (.add (.add 0x2000005C (sh d.toNat 8)) (sh a.toNat 13)) (sh i.toNat 18)) (sh t.toNat 27)
  | .ldvb d a o t => .add (.add (.add (.add 0x4000005C (sh d.toNat 8)) (sh a.toNat 13)) (sh o.toNat 18)) (sh t.toNat 27)
  | .stv v a o t => .add (.add (.add (.add 0x00000060 (sh v.toNat 8)) (sh a.toNat 13)) (sh o.toNat 18)) (sh t.toNat 27)
  | .stvx v a i t => .add (.add (.add (.add 0x20000060 (sh v.toNat 8)) (sh a.toNat 13)) (sh i.toNat 18)) (sh t.toNat 27)
  | .amoadd d a b w p n => .add (.add (.add (.add (.add (.add 0x00000064 (sh d.toNat 8)) (sh a.toNat 13)) (sh b.toNat 18)) (sh w.toNat 27)) (sh p.toNat 28)) (sh n.toNat 30)
  | .amoand d a b w p n => .add (.add (.add (.add (.add (.add 0x00800064 (sh d.toNat 8)) (sh a.toNat 13)) (sh b.toNat 18)) (sh w.toNat 27)) (sh p.toNat 28)) (sh n.toNat 30)
  | .amoor d a b w p n => .add (.add (.add (.add (.add (.add 0x01000064 (sh d.toNat 8)) (sh a.toNat 13)) (sh b.toNat 18)) (sh w.toNat 27)) (sh p.toNat 28)) (sh n.toNat 30)
  | .amoxor d a b w p n => .add (.add (.add (.add (.add (.add 0x01800064 (sh d.toNat 8)) (sh a.toNat 13)) (sh b.toNat 18)) (sh w.toNat 27)) (sh p.toNat 28)) (sh n.toNat 30)
  | .amomin d a b w p n => .add (.add (.add (.add (.add (.add 0x02000064 (sh d.toNat 8)) (sh a.toNat 13)) (sh b.toNat 18)) (sh w.toNat 27)) (sh p.toNat 28)) (sh n.toNat 30)
  | .amomax d a b w p n => .add (.add (.add (.add (.add (.add 0x02800064 (sh d.toNat 8)) (sh a.toNat 13)) (sh b.toNat 18)) (sh w.toNat 27)) (sh p.toNat 28)) (sh n.toNat 30)
  | .amominu d a b w p n => .add (.add (.add (.add (.add (.add 0x03000064 (sh d.toNat 8)) (sh a.toNat 13)) (sh b.toNat 18)) (sh w.toNat 27)) (sh p.toNat 28)) (sh n.toNat 30)
  | .amomaxu d a b w p n => .add (.add (.add (.add (.add (.add 0x03800064 (sh d.toNat 8)) (sh a.toNat 13)) (sh b.toNat 18)) (sh w.toNat 27)) (sh p.toNat 28)) (sh n.toNat 30)
  | .amoswap d a b w p n => .add (.add (.add (.add (.add (.add 0x04000064 (sh d.toNat 8)) (sh a.toNat 13)) (sh b.toNat 18)) (sh w.toNat 27)) (sh p.toNat 28)) (sh n.toNat 30)
  | .amocas d a b w p => .add (.add (.add (.add (.add 0x04800064 (sh d.toNat 8)) (sh a.toNat 13)) (sh b.toNat 18)) (sh w.toNat 27)) (sh p.toNat 28)
  | .amofadd g d a b p n => .add (.add (.add (.add (.add (.add 0x05000064 (sh g.toNat 0)) (sh d.toNat 8)) (sh a.toNat 13)) (sh b.toNat 18)) (sh p.toNat 28)) (sh n.toNat 30)
  | .amofmin d a b p n => .add (.add (.add (.add (.add 0x05800064 (sh d.toNat 8)) (sh a.toNat 13)) (sh b.toNat 18)) (sh p.toNat 28)) (sh n.toNat 30)
  | .amofmax d a b p n => .add (.add (.add (.add (.add 0x06000064 (sh d.toNat 8)) (sh a.toNat 13)) (sh b.toNat 18)) (sh p.toNat 28)) (sh n.toNat 30)
  | .nmadd a b v => .add (.add (.add 0x00000068 (sh a.toNat 13)) (sh b.toNat 18)) (sh v.toNat 26)
  | .nmfadd a b v => .add (.add (.add 0x00800068 (sh a.toNat 13)) (sh b.toNat 18)) (sh v.toNat 26)
  | .nmmax a b v => .add (.add (.add 0x01000068 (sh a.toNat 13)) (sh b.toNat 18)) (sh v.toNat 26)
  | .nmmin a b v => .add (.add (.add 0x01800068 (sh a.toNat 13)) (sh b.toNat 18)) (sh v.toNat 26)
  | .nmor a b v => .add (.add (.add 0x02000068 (sh a.toNat 13)) (sh b.toNat 18)) (sh v.toNat 26)
  | .lkacq d a t s => .add (.add (.add (.add 0x0000006C (sh d.toNat 8)) (sh a.toNat 13)) (sh t.toNat 18)) (sh s.toNat 26)
  | .lktry d a s => .add (.add (.add 0x0080006C (sh d.toNat 8)) (sh a.toNat 13)) (sh s.toNat 26)
  | .lkrel d a s => .add (.add (.add 0x0100006C (sh d.toNat 8)) (sh a.toNat 13)) (sh s.toNat 26)
  | .lkstat d a => .add (.add 0x0180006C (sh d.toNat 8)) (sh a.toNat 13)
  | .fence s l k => .add (.add (.add 0x00000070 (sh s.toNat 18)) (sh l.toNat 21)) (sh k.toNat 26)
  | .xprobe d a => .add (.add 0x00000074 (sh d.toNat 8)) (sh a.toNat 13)
  | .xinv s a => .add (.add 0x00800074 (sh s.toNat 8)) (sh a.toNat 13)
  | .xinvas s a => .add (.add 0x01000074 (sh s.toNat 8)) (sh a.toNat 13)
  | .synci s a n => .add (.add (.add 0x01800074 (sh s.toNat 8)) (sh a.toNat 13)) (sh n.toNat 18)
  | .survey d a m => .add (.add (.add 0x02000074 (sh d.toNat 8)) (sh a.toNat 13)) (sh m.toNat 18)
  | .xmig d a f => .add (.add (.add 0x02800074 (sh d.toNat 8)) (sh a.toNat 13)) (sh f.toNat 18)
  | .trap a => .add 0x00000078 (sh a.toNat 13)
  | .eret => 0x00800078
  | .wfe d t => .add (.add 0x01000078 (sh d.toNat 8)) (sh t.toNat 13)
  | .halt => 0x01800078
  | .brk => 0x02000078
  | .resume d m => .add (.add 0x02800078 (sh d.toNat 8)) (sh m.toNat 13)
  | .csrrw d a c => .add (.add (.add 0x0000007C (sh d.toNat 8)) (sh a.toNat 13)) (sh c.toNat 18)
  | .csrrs d a c => .add (.add (.add 0x4000007C (sh d.toNat 8)) (sh a.toNat 13)) (sh c.toNat 18)
  | .csrrc d a c => .add (.add (.add 0x8000007C (sh d.toNat 8)) (sh a.toNat 13)) (sh c.toNat 18)
  | .vadd g d a b t => .add (.add (.add (.add (.add 0x00000080 (sh g.toNat 0)) (sh d.toNat 8)) (sh a.toNat 13)) (sh b.toNat 18)) (sh t.toNat 29)
  | .vsub g d a b t => .add (.add (.add (.add (.add 0x00800080 (sh g.toNat 0)) (sh d.toNat 8)) (sh a.toNat 13)) (sh b.toNat 18)) (sh t.toNat 29)
  | .vmul g d a b t => .add (.add (.add (.add (.add 0x01000080 (sh g.toNat 0)) (sh d.toNat 8)) (sh a.toNat 13)) (sh b.toNat 18)) (sh t.toNat 29)
  | .vfma g d a b t => .add (.add (.add (.add (.add 0x01800080 (sh g.toNat 0)) (sh d.toNat 8)) (sh a.toNat 13)) (sh b.toNat 18)) (sh t.toNat 29)
  | .vfms g d a b t => .add (.add (.add (.add (.add 0x02000080 (sh g.toNat 0)) (sh d.toNat 8)) (sh a.toNat 13)) (sh b.toNat 18)) (sh t.toNat 29)
  | .vmin g d a b t => .add (.add (.add (.add (.add 0x02800080 (sh g.toNat 0)) (sh d.toNat 8)) (sh a.toNat 13)) (sh b.toNat 18)) (sh t.toNat 29)
  | .vmax g d a b t => .add (.add (.add (.add (.add 0x03000080 (sh g.toNat 0)) (sh d.toNat 8)) (sh a.toNat 13)) (sh b.toNat 18)) (sh t.toNat 29)
  | .vabs g d a t => .add (.add (.add (.add 0x03800080 (sh g.toNat 0)) (sh d.toNat 8)) (sh a.toNat 13)) (sh t.toNat 29)
  | .vneg g d a t => .add (.add (.add (.add 0x04000080 (sh g.toNat 0)) (sh d.toNat 8)) (sh a.toNat 13)) (sh t.toNat 29)
  | .vand g d a b t => .add (.add (.add (.add (.add 0x04800080 (sh g.toNat 0)) (sh d.toNat 8)) (sh a.toNat 13)) (sh b.toNat 18)) (sh t.toNat 29)
  | .vor g d a b t => .add (.add (.add (.add (.add 0x05000080 (sh g.toNat 0)) (sh d.toNat 8)) (sh a.toNat 13)) (sh b.toNat 18)) (sh t.toNat 29)
  | .vxor g d a b t => .add (.add (.add (.add (.add 0x05800080 (sh g.toNat 0)) (sh d.toNat 8)) (sh a.toNat 13)) (sh b.toNat 18)) (sh t.toNat 29)
  | .vsll g d a b t => .add (.add (.add (.add (.add 0x06000080 (sh g.toNat 0)) (sh d.toNat 8)) (sh a.toNat 13)) (sh b.toNat 18)) (sh t.toNat 29)
  | .vsrl g d a b t => .add (.add (.add (.add (.add 0x06800080 (sh g.toNat 0)) (sh d.toNat 8)) (sh a.toNat 13)) (sh b.toNat 18)) (sh t.toNat 29)
  | .vsra g d a b t => .add (.add (.add (.add (.add 0x07000080 (sh g.toNat 0)) (sh d.toNat 8)) (sh a.toNat 13)) (sh b.toNat 18)) (sh t.toNat 29)
  | .vdiv g d a b t => .add (.add (.add (.add (.add 0x07800080 (sh g.toNat 0)) (sh d.toNat 8)) (sh a.toNat 13)) (sh b.toNat 18)) (sh t.toNat 29)
  | .vsqrt g d a t => .add (.add (.add (.add 0x08000080 (sh g.toNat 0)) (sh d.toNat 8)) (sh a.toNat 13)) (sh t.toNat 29)
  | .vrsq g d a t => .add (.add (.add (.add 0x08800080 (sh g.toNat 0)) (sh d.toNat 8)) (sh a.toNat 13)) (sh t.toNat 29)
  | .vrcp g d a t => .add (.add (.add (.add 0x09000080 (sh g.toNat 0)) (sh d.toNat 8)) (sh a.toNat 13)) (sh t.toNat 29)
  | .vexp2 g d a t => .add (.add (.add (.add 0x09800080 (sh g.toNat 0)) (sh d.toNat 8)) (sh a.toNat 13)) (sh t.toNat 29)
  | .vlog2 g d a t => .add (.add (.add (.add 0x0A000080 (sh g.toNat 0)) (sh d.toNat 8)) (sh a.toNat 13)) (sh t.toNat 29)
  | .vmulh g d a b t => .add (.add (.add (.add (.add 0x0A800080 (sh g.toNat 0)) (sh d.toNat 8)) (sh a.toNat 13)) (sh b.toNat 18)) (sh t.toNat 29)
  | .vaddsat g d a b t => .add (.add (.add (.add (.add 0x0B000080 (sh g.toNat 0)) (sh d.toNat 8)) (sh a.toNat 13)) (sh b.toNat 18)) (sh t.toNat 29)
  | .vsubsat g d a b t => .add (.add (.add (.add (.add 0x0B800080 (sh g.toNat 0)) (sh d.toNat 8)) (sh a.toNat 13)) (sh b.toNat 18)) (sh t.toNat 29)
  | .vmov g d a t => .add (.add (.add (.add 0x0C000080 (sh g.toNat 0)) (sh d.toNat 8)) (sh a.toNat 13)) (sh t.toNat 29)
  | .vaddsc g d a b t => .add (.add (.add (.add (.add 0x00000084 (sh g.toNat 0)) (sh d.toNat 8)) (sh a.toNat 13)) (sh b.toNat 18)) (sh t.toNat 29)
  | .vsubsc g d a b t => .add (.add (.add (.add (.add 0x00800084 (sh g.toNat 0)) (sh d.toNat 8)) (sh a.toNat 13)) (sh b.toNat 18)) (sh t.toNat 29)
  | .vmulsc g d a b t => .add (.add (.add (.add (.add 0x01000084 (sh g.toNat 0)) (sh d.toNat 8)) (sh a.toNat 13)) (sh b.toNat 18)) (sh t.toNat 29)
  | .vfmasc g d a b t => .add (.add (.add (.add (.add 0x01800084 (sh g.toNat 0)) (sh d.toNat 8)) (sh a.toNat 13)) (sh b.toNat 18)) (sh t.toNat 29)
  | .vminsc g d a b t => .add (.add (.add (.add (.add 0x02000084 (sh g.toNat 0)) (sh d.toNat 8)) (sh a.toNat 13)) (sh b.toNat 18)) (sh t.toNat 29)
  | .vmaxsc g d a b t => .add (.add (.add (.add (.add 0x02800084 (sh g.toNat 0)) (sh d.toNat 8)) (sh a.toNat 13)) (sh b.toNat 18)) (sh t.toNat 29)
  | .vsplat g d a t => .add (.add (.add (.add 0x03000084 (sh g.toNat 0)) (sh d.toNat 8)) (sh a.toNat 13)) (sh t.toNat 29)
  | .vins g d a i t => .add (.add (.add (.add (.add 0x03800084 (sh g.toNat 0)) (sh d.toNat 8)) (sh a.toNat 13)) (sh i.toNat 18)) (sh t.toNat 29)
  | .vext g d a i t => .add (.add (.add (.add (.add 0x04000084 (sh g.toNat 0)) (sh d.toNat 8)) (sh a.toNat 13)) (sh i.toNat 18)) (sh t.toNat 29)
  | .vsplati g d t _ => .add (.add (.add 0x00000043 (sh g.toNat 2)) (sh d.toNat 8)) (sh t.toNat 29)
  | .vcvt g d a q x y => .add (.add (.add (.add (.add (.add 0x00000088 (sh g.toNat 0)) (sh d.toNat 8)) (sh a.toNat 13)) (sh q.toNat 18)) (sh x.toNat 23)) (sh y.toNat 27)
  | .vredsum g d a t => .add (.add (.add (.add 0x0000008C (sh g.toNat 0)) (sh d.toNat 8)) (sh a.toNat 13)) (sh t.toNat 29)
  | .vredmax g d a t => .add (.add (.add (.add 0x0080008C (sh g.toNat 0)) (sh d.toNat 8)) (sh a.toNat 13)) (sh t.toNat 29)
  | .vredmin g d a t => .add (.add (.add (.add 0x0100008C (sh g.toNat 0)) (sh d.toNat 8)) (sh a.toNat 13)) (sh t.toNat 29)
  | .vperm g d a b t => .add (.add (.add (.add (.add 0x0180008C (sh g.toNat 0)) (sh d.toNat 8)) (sh a.toNat 13)) (sh b.toNat 18)) (sh t.toNat 29)
  | .vrot g d a b t => .add (.add (.add (.add (.add 0x0200008C (sh g.toNat 0)) (sh d.toNat 8)) (sh a.toNat 13)) (sh b.toNat 18)) (sh t.toNat 29)
  | .vsort g d a h t => .add (.add (.add (.add (.add 0x0280008C (sh g.toNat 0)) (sh d.toNat 8)) (sh a.toNat 13)) (sh h.toNat 18)) (sh t.toNat 29)
  | .vdupm g d a h t => .add (.add (.add (.add (.add 0x0300008C (sh g.toNat 0)) (sh d.toNat 8)) (sh a.toNat 13)) (sh h.toNat 18)) (sh t.toNat 29)
  | .vcompr g d a m t => .add (.add (.add (.add (.add 0x0380008C (sh g.toNat 0)) (sh d.toNat 8)) (sh a.toNat 13)) (sh m.toNat 18)) (sh t.toNat 29)
  | .vexpnd g d a m t => .add (.add (.add (.add (.add 0x0400008C (sh g.toNat 0)) (sh d.toNat 8)) (sh a.toNat 13)) (sh m.toNat 18)) (sh t.toNat 29)
  | .vcmp g d a b c t => .add (.add (.add (.add (.add (.add 0x00000090 (sh g.toNat 0)) (sh d.toNat 8)) (sh a.toNat 13)) (sh b.toNat 18)) (sh c.toNat 23)) (sh t.toNat 29)
  | .vsel g d a m t => .add (.add (.add (.add (.add 0x04800090 (sh g.toNat 0)) (sh d.toNat 8)) (sh a.toNat 13)) (sh m.toNat 18)) (sh t.toNat 29)
  | .pand g d a b => .add (.add (.add (.add 0x05000090 (sh g.toNat 0)) (sh d.toNat 8)) (sh a.toNat 13)) (sh b.toNat 18)
  | .por g d a b => .add (.add (.add (.add 0x05800090 (sh g.toNat 0)) (sh d.toNat 8)) (sh a.toNat 13)) (sh b.toNat 18)
  | .pnot g d a => .add (.add (.add 0x06000090 (sh g.toNat 0)) (sh d.toNat 8)) (sh a.toNat 13)
  | .pcnt g d a => .add (.add (.add 0x06800090 (sh g.toNat 0)) (sh d.toNat 8)) (sh a.toNat 13)
  | .sbind p a => .add (.add 0x00000094 (sh p.toNat 8)) (sh a.toNat 13)
  | .sunbind p => .add 0x00800094 (sh p.toNat 8)
  | .sstat d p => .add (.add 0x01000094 (sh d.toNat 8)) (sh p.toNat 13)
  | .gw d a => .add (.add 0x00000098 (sh d.toNat 8)) (sh a.toNat 13)
  | .gr d a => .add (.add 0x00800098 (sh d.toNat 8)) (sh a.toNat 13)
  | .gclr => 0x01000098
  | .ecpy a b h => .add (.add (.add 0x0000009C (sh a.toNat 13)) (sh b.toNat 18)) (sh h.toNat 23)
  | .egth a b h => .add (.add (.add 0x0000019C (sh a.toNat 13)) (sh b.toNat 18)) (sh h.toNat 23)
  | .esct a b h => .add (.add (.add 0x0000029C (sh a.toNat 13)) (sh b.toNat 18)) (sh h.toNat 23)
  | .exch a b h => .add (.add (.add 0x0000039C (sh a.toNat 13)) (sh b.toNat 18)) (sh h.toNat 23)
  | .emma g a b h t => .add (.add (.add (.add (.add 0x0000049C (sh g.toNat 0)) (sh a.toNat 13)) (sh b.toNat 18)) (sh h.toNat 23)) (sh t.toNat 24)
  | .emmz a h => .add (.add 0x0000059C (sh a.toNat 13)) (sh h.toNat 23)
  | .emmd g a b h => .add (.add (.add (.add 0x0000069C (sh g.toNat 0)) (sh a.toNat 13)) (sh b.toNat 18)) (sh h.toNat 23)
  | .ecoll a b => .add (.add 0x0000089C (sh a.toNat 13)) (sh b.toNat 18)
  | .etopk a b h => .add (.add (.add 0x0000099C (sh a.toNat 13)) (sh b.toNat 18)) (sh h.toNat 23)
  | .eclone a => .add 0x00000A9C (sh a.toNat 13)
  | .enmsc a b h => .add (.add (.add 0x00000B9C (sh a.toNat 13)) (sh b.toNat 18)) (sh h.toNat 23)
  | .eptab a b h => .add (.add (.add 0x00000C9C (sh a.toNat 13)) (sh b.toNat 18)) (sh h.toNat 23)
  | .lease d a => .add (.add 0x000000A0 (sh d.toNat 8)) (sh a.toNat 13)
  | .unlease d => .add 0x008000A0 (sh d.toNat 8)
  | .lstat d => .add 0x010000A0 (sh d.toNat 8)
  | .bbinit a => .add 0x000000A4 (sh a.toNat 13)
  | .bbexp a n => .add (.add 0x008000A4 (sh a.toNat 13)) (sh n.toNat 18)
  | .bbwait a p => .add (.add 0x010000A4 (sh a.toNat 13)) (sh p.toNat 18)
  | .bbtest d a => .add (.add 0x018000A4 (sh d.toNat 8)) (sh a.toNat 13)
  | .phnew d m => .add (.add 0x000000A8 (sh d.toNat 8)) (sh m.toNat 13)
  | .phreg d h m => .add (.add (.add 0x008000A8 (sh d.toNat 8)) (sh h.toNat 13)) (sh m.toNat 18)
  | .phdrop d h => .add (.add 0x010000A8 (sh d.toNat 8)) (sh h.toNat 13)
  | .phsig d h => .add (.add 0x018000A8 (sh d.toNat 8)) (sh h.toNat 13)
  | .phwait d h => .add (.add 0x020000A8 (sh d.toNat 8)) (sh h.toNat 13)
  | .phsw d h => .add (.add 0x028000A8 (sh d.toNat 8)) (sh h.toNat 13)
  | .phq d h => .add (.add 0x030000A8 (sh d.toNat 8)) (sh h.toNat 13)
  | .start d a b => .add (.add (.add 0x000000AC (sh d.toNat 8)) (sh a.toNat 13)) (sh b.toNat 18)
  | .startp d a b => .add (.add (.add 0x008000AC (sh d.toNat 8)) (sh a.toNat 13)) (sh b.toNat 18)
  | .quit => 0x010000AC
  | .yield => 0x018000AC
  | .ctxid d => .add 0x020000AC (sh d.toNat 8)
  | .wid d => .add 0x028000AC (sh d.toNat 8)
  | .widf d n => .add (.add 0x030000AC (sh d.toNat 8)) (sh n.toNat 18)
  | .joinh d h => .add (.add 0x038000AC (sh d.toNat 8)) (sh h.toNat 13)
  | .hstat d h => .add (.add 0x040000AC (sh d.toNat 8)) (sh h.toNat 13)
  | .send d h v => .add (.add (.add 0x000000B0 (sh d.toNat 8)) (sh h.toNat 13)) (sh v.toNat 18)
  | .sendv d h v => .add (.add (.add 0x008000B0 (sh d.toNat 8)) (sh h.toNat 13)) (sh v.toNat 18)
  | .sendb d a b _ => .add (.add (.add 0x00000023 (sh d.toNat 8)) (sh a.toNat 13)) (sh b.toNat 18)
  | .mpop d m => .add (.add 0x010000B0 (sh d.toNat 8)) (sh m.toNat 13)
  | .mpopv d m => .add (.add 0x018000B0 (sh d.toNat 8)) (sh m.toNat 13)
  | .mpeek d m => .add (.add 0x020000B0 (sh d.toNat 8)) (sh m.toNat 13)
  | .mbind d a => .add (.add 0x028000B0 (sh d.toNat 8)) (sh a.toNat 13)
  | .mfree d m => .add (.add 0x030000B0 (sh d.toNat 8)) (sh m.toNat 13)
  | .tsend d a b => .add (.add (.add 0x000000B4 (sh d.toNat 8)) (sh a.toNat 13)) (sh b.toNat 18)
  | .tbwd d a b => .add (.add (.add 0x008000B4 (sh d.toNat 8)) (sh a.toNat 13)) (sh b.toNat 18)
  | .tret d a b => .add (.add (.add 0x010000B4 (sh d.toNat 8)) (sh a.toNat 13)) (sh b.toNat 18)
  | .xquery d a b => .add (.add (.add 0x018000B4 (sh d.toNat 8)) (sh a.toNat 13)) (sh b.toNat 18)
  | .xjoin d a => .add (.add 0x020000B4 (sh d.toNat 8)) (sh a.toNat 13)
  | .xver d a => .add (.add 0x028000B4 (sh d.toNat 8)) (sh a.toNat 13)
  | .xcreate d a => .add (.add 0x030000B4 (sh d.toNat 8)) (sh a.toNat 13)
  | .xretire d a b => .add (.add (.add 0x038000B4 (sh d.toNat 8)) (sh a.toNat 13)) (sh b.toNat 18)
  | .shape d a => .add (.add 0x000000B8 (sh d.toNat 8)) (sh a.toNat 13)
  | .objrel d h => .add (.add 0x008000B8 (sh d.toNat 8)) (sh h.toNat 13)
  | .objmode d h m => .add (.add (.add 0x010000B8 (sh d.toNat 8)) (sh h.toNat 13)) (sh m.toNat 18)
  | .fadd g d a b => .add (.add (.add (.add 0x000000BC (sh g.toNat 0)) (sh d.toNat 8)) (sh a.toNat 13)) (sh b.toNat 18)
  | .fsub g d a b => .add (.add (.add (.add 0x008000BC (sh g.toNat 0)) (sh d.toNat 8)) (sh a.toNat 13)) (sh b.toNat 18)
  | .fmul g d a b => .add (.add (.add (.add 0x010000BC (sh g.toNat 0)) (sh d.toNat 8)) (sh a.toNat 13)) (sh b.toNat 18)
  | .fmac g d a b => .add (.add (.add (.add 0x018000BC (sh g.toNat 0)) (sh d.toNat 8)) (sh a.toNat 13)) (sh b.toNat 18)
  | .fdiv g d a b => .add (.add (.add (.add 0x020000BC (sh g.toNat 0)) (sh d.toNat 8)) (sh a.toNat 13)) (sh b.toNat 18)
  | .fsqrt g d a => .add (.add (.add 0x028000BC (sh g.toNat 0)) (sh d.toNat 8)) (sh a.toNat 13)
  | .fmin g d a b => .add (.add (.add (.add 0x030000BC (sh g.toNat 0)) (sh d.toNat 8)) (sh a.toNat 13)) (sh b.toNat 18)
  | .fmax g d a b => .add (.add (.add (.add 0x038000BC (sh g.toNat 0)) (sh d.toNat 8)) (sh a.toNat 13)) (sh b.toNat 18)
  | .fcvti g d a => .add (.add (.add 0x040000BC (sh g.toNat 0)) (sh d.toNat 8)) (sh a.toNat 13)
  | .fcvtf g d a => .add (.add (.add 0x048000BC (sh g.toNat 0)) (sh d.toNat 8)) (sh a.toNat 13)
  | .flt g d a b => .add (.add (.add (.add 0x050000BC (sh g.toNat 0)) (sh d.toNat 8)) (sh a.toNat 13)) (sh b.toNat 18)
  | .feq g d a b => .add (.add (.add (.add 0x058000BC (sh g.toNat 0)) (sh d.toNat 8)) (sh a.toNat 13)) (sh b.toNat 18)
  | .scal g d a b => .add (.add (.add (.add 0x060000BC (sh g.toNat 0)) (sh d.toNat 8)) (sh a.toNat 13)) (sh b.toNat 18)
  | .fclass g d a => .add (.add (.add 0x068000BC (sh g.toNat 0)) (sh d.toNat 8)) (sh a.toNat 13)
  | .slotSwitch => 0
  | .issueQuantum => 0
  | .vectorBind => 0
  | .vectorResultWrite => 0
  | .memoryReturnWrite => 0
  | .returnStarvation => 0
  | .streamElementFetch => 0
  | .streamAppendPerformed => 0
  | .coherentRequestAtHome => 0
  | .dirtyWriteback => 0
  | .setAd => 0
  | .walkMigratingTimeout => 0
  | .migrationHoldTimeout => 0
  | .nearMemoryForward => 0
  | .nearMemoryApply => 0
  | .nearMemoryAck => 0
  | .nearMemoryReturn => 0
  | .patrolScrub => 0
  | .contentionDecay => 0
  | .bisnpinv => 0
  | .bisnpdata => 0
  | .bisnpcur => 0
  | .poolLinkLoss => 0
  | .poolRequestTimeout => 0
  | .regionEnable => 0
  | .regionDisable => 0
  | .regionDetachDone => 0
  | .reattach => 0
  | .release => 0
  | .clearlog => 0
  | .decoderCheck => 0
  | .lockRequestResend => 0
  | .lockRequestAccept => 0
  | .lockTimeout => 0
  | .lockRelease => 0
  | .holdLimit => 0
  | .deadlockProbe => 0
  | .scratchpadPortAccess => 0
  | .scoreboardRelease => 0
  | .traceRingControl => 0
  | .clr => 0
  | .engineCommandStart => 0
  | .enginePiece => 0
  | .engineCommandStop => 0
  | .exchangeForm => 0
  | .exchangeRound => 0
  | .exchTimeout => 0
  | .resumeCommand => 0
  | .cancel => 0
  | .arrayCommandStart => 0
  | .arrayRowCommit => 0
  | .raggedRowJoin => 0
  | .arrayCommandComplete => 0
  | .leaseArbitration => 0
  | .handOverSave => 0
  | .handOverRestore => 0
  | .columnRemap => 0
  | .chunkDepart => 0
  | .switchReduce => 0
  | .homeReduce => 0
  | .collectiveLanding => 0
  | .communicatorWrite => 0
  | .communicatorDisable => 0
  | .messageArrival => 0
  | .creditRequest => 0
  | .creditGrant => 0
  | .creditReturn => 0
  | .sendTimeout => 0
  | .handlerStart => 0
  | .queueStart => 0
  | .drain => 0
  | .abort => 0
  | .reset => 0
  | .tail => 0
  | .recordTake => 0
  | .semaphoreRound => 0
  | .dispatch => 0
  | .launchComplete => 0
  | .abortTeardownDone => 0
  | .drainDone => 0
  | .preempt => 0
  | .contextRestore => 0
  | .restart => 0
  | .clear => 0
  | .install => 0
  | .remove => 0
  | .read => 0
  | .legendUpdate => 0
  | .epochAck => 0
  | .legendWindowEnd => 0
  | .rbarFlip => 0
  | .replicaFree => 0
  | .tombstoneEnd => 0
  | .tokenArrival => 0
  | .tokenAcceptance => 0
  | .slotCreditRequest => 0
  | .tokenCreditTimeout => 0
  | .pageCloseTimeout => 0
  | .resultRowLanding => 0
  | .joinCopy => 0
  | .errorDetected => 0
  | .selfTestDone => 0
  | .linkReplayFailure => 0
  | .heartbeat => 0
  | .heartbeatMiss => 0
  | .fenceNode => 0
  | .unfence => 0
  | .watchdog => 0
  | .forcelost => 0
  | .reload => 0
  | .telemetry => 0
  | .thermalThrottle => 0
  | .resetRelease => 0
  | .bar2Access => 0
  | .controlRegisterWrite => 0
  | .wfeTimeout => 0
  | .linkTraining => 0
  | .poolDeviceResponse => 0
  | .markEviction => 0

/-- The payload word of a long instruction (R41). -/
def encodePayload : Instr → Option (BitVec 32)
  | .ldi _ imm => some imm
  | .ldiu _ imm => some imm
  | .addil _ _ imm => some imm
  | .jl _ imm => some imm
  | .ldl _ _ _ _ imm => some imm
  | .stl _ _ _ _ imm => some imm
  | .vsplati _ _ _ imm => some imm
  | .sendb _ _ _ imm => some imm
  | _ => none

/-- The words of an instruction (R40, R41). -/
def encode (i : Instr) : List Nat :=
  match encodePayload i with
  | some p => [encodeFirst i, p.toNat]
  | none => [encodeFirst i]

/-- The bytes of an instruction. -/
def encodeBytes (i : Instr) : List Byte := (encode i).flatMap (fun w => bytesOf w 4)

end Sys2Proof
end

