-- ==== Sys2Proof/Config.lean ====
section
/-! DEFINITION. What an implementation fixes and the spec leaves open (R8, R451). -/

namespace Sys2Proof.Config

/-- How many A-clock cycles pass in a step beyond the first, by the step counter: the spec fixes no duration (R3, R451), so
nothing is known of it (log entry 6). -/
opaque freeCycles : Nat → Nat

/-- RESULT of the error-log entry of a fenced node, by the step counter: R438 gives the entry UNIT 7 and the dead node as its index, and
no result. -/
opaque freeLogResult : Nat → BitVec 3

/-- The words of the machine-check record of an uncorrectable table or queue, by the step counter: R436 gives its KIND, and no cause, PC or
value. -/
opaque freeCheck : Nat → BitVec 64

/-- Whether a fetch is served by a line of the instruction cache that differs from memory, by the step counter and the address: before
the sequence of R145 a fetched word is an old or a new one, and nothing says which. -/
opaque freeFetch : Nat → Nat → Bool

/-- The SHA-512 measurement of an image (R444): the spec names the hash and does not write it out. -/
opaque freeMeasure : BitVec 256 → BitVec 512

/-- The device's signature over the measurements, its identity and a nonce (R444): the key is the device's own. -/
opaque freeSignature : List (BitVec 512) → Nat → BitVec 512 → BitVec 4096

end Sys2Proof.Config
end

