-- ==== Sys2Proof/Machine/State.lean ====
section
/-! DEFINITION. The state of the machine: every piece of state the spec gives it, as plain data, and the state after
reset. INVENTORY.md lists each field with its rule. Units that exist many times (contexts, cores, polders, dies,
packages) are sparse tables: an entry that is not listed holds its reset value. -/

namespace Sys2Proof.Machine
open Sys2Proof

/-- Why a step of the machine stops. No meaning of this model ends so: each of the machine's own faults is a trap it
takes (R414 to R418), a fault record or a machine check, and the step then has a next state. -/
inductive Fault where
  /-- Raised by nobody; kept so that the type has a name for a stop. Safe: a stop proves no claim. -/
  | noSuchState
deriving DecidableEq, Repr

/-- Why an instruction is refused. -/
inductive Refusal where
  /-- Raised by the dispatch for an instruction that has no meaning yet. Safe: nothing is claimed about it. -/
  | notModelled (mnemonic : String)
deriving DecidableEq, Repr

/-- A sparse table: the entries that differ from the default, in no particular order. -/
abbrev Tab (κ α : Type) := List (κ × α)

/-- The trap causes of R418. -/
inductive Cause where
  | illegalInstr | orphanPfx | orphanGoverned | misaligned | pageNotPresent | pagePermission | pageMigrating
  | walkNodeFault | poolRegionLost | dataLost | rangeLockHit | scaleInvalid | lockScope | engineFault | privilege
  | trapInstr | breakpoint | streamFault | leaseViolation | mailboxFault | tokenFault | illegalAddress | watchdog
  | preempt
deriving DecidableEq, Repr, Inhabited

/-- The cause codes of R418. -/
def Cause.code : Cause → Nat
  | .illegalInstr => 0x01 | .orphanPfx => 0x02 | .orphanGoverned => 0x03 | .misaligned => 0x04
  | .pageNotPresent => 0x05 | .pagePermission => 0x06 | .pageMigrating => 0x07 | .walkNodeFault => 0x08
  | .poolRegionLost => 0x09 | .dataLost => 0x0A | .rangeLockHit => 0x0B | .scaleInvalid => 0x0C
  | .lockScope => 0x0D | .engineFault => 0x0E | .privilege => 0x0F | .trapInstr => 0x10 | .breakpoint => 0x11
  | .streamFault => 0x12 | .leaseViolation => 0x13 | .mailboxFault => 0x14 | .tokenFault => 0x15
  | .illegalAddress => 0x16 | .watchdog => 0x17 | .preempt => 0x18

/-- One context of the installation: package node, package-wide core index (R31), slot (R34). -/
structure CtxId where
  node : Nat
  core : Nat
  slot : Nat
deriving DecidableEq, Repr, Inhabited

/-- The slot states of R360. -/
inductive SlotState where
  | free | ready | stalled | parked | saved
deriving DecidableEq, Repr, Inhabited

/-- How a slot's last life ended (R373): `none` until a first life has ended (R375, HSTAT). -/
inductive LastEnd where
  | none | quit | terminated
deriving DecidableEq, Repr, Inhabited

/-- What a STALLED slot waits for (R360, R427). -/
inductive Wait where
  | yield | wfe | bbwait | phaser | mailbox | send | token | lock | join | lease | fence | quit
  | engineQueue | tileQueue | vectorQueue | stream | migration | resource | restore
deriving DecidableEq, Repr, Inhabited

/-- The fields of a pfx word (R47). -/
structure Pfx where
  rnd : BitVec 3
  sat : Bool
  nanp : BitVec 2
  ovr : BitVec 4
  scale : Bool
  sreg : Reg
deriving DecidableEq, Repr, Inhabited

/-- A stream port of v24-v31 (R233 to R241). `fetched` counts the elements fetched and not popped (AVAIL). -/
structure Port where
  bound : Bool
  base : Word
  stride : Word
  typ : BitVec 2
  write : Bool
  k : Nat
  remain : Nat
  fetched : List (Nat × Vec)
  buffered : List (Nat × Vec)
deriving DecidableEq, Repr, Inhabited

/-- A near-memory error waiting for a FENCE of class NM (R72): cause, VA, and the reporting node. -/
structure NmError where
  cause : Cause
  va : Word
  node : Nat
deriving DecidableEq, Repr, Inhabited

/-- The pending pair of an abandoned TSEND or TBWD (R401). -/
structure PendingPair where
  seq : BitVec 32
  replica : Nat
  token : Word
  arg : Word
deriving DecidableEq, Repr, Inhabited

/-- A TSEND or TBWD that waits for its credit or its acceptance (R398): 0 credit asked, 1 credit held, 2 sent, 3 accepted; its name,
replica, sequence number, the partition the credit came from (64: the pool), the slot manager it is addressed to, and the version
and epoch of the sender's legend copy at its choice. -/
structure TokWait where
  stage : Nat
  name : Nat
  r : Nat
  seq : BitVec 32
  part : Nat
  node : Nat
  polder : Nat
  ver : Nat
  epoch : Nat
deriving DecidableEq, Repr, Inhabited

/-- A lock request that has been sent (R155, R161): line, scope, time-out, and what its translation gave: VA, page CLASS and entry. -/
structure LockReq where
  line : Nat
  scope : Nat
  t : Nat
  va : Nat
  cls : Nat
  entry : Word
deriving DecidableEq, Repr, Inhabited

/-- One context. Beside the spec's own state: `wait` says what a STALLED slot waits for; `held` is the pair whose words
a stalled pair has already fetched, a prefix twice where it waits for the words after it, of which `gword` may be there (R52); `lockReply` the status the home has delivered to a waiting LKACQ (R161, R170);
`poolStores` the stores to class-01 lines that are not known to be performed at
their device, `poolLost` those of them that a loss has moved into a quarantine (R89, R95); `bb` the barrier and phase a stalled BBWAIT names and what it has seen (a scope, or 8 for a fault: R219); `sendFor` the handle a stalled SEND has asked a credit for (R337); `tok` the token
that a stalled TSEND or TBWD waits for; `granted` that the lease which a LEASE waits for has been granted (R304); `lockReq` a lock request
on its way or in a queue, and what it will fill (R155, R162); `arrived` the line at whose home its request is held, and when it came there
(R66, R118, R168); `surveyed` the requests that this instruction's attempts have been counted for, by VA, and which of them the attempt under way has
made again (R116); `expired` that the wait's time-out has passed (R106, R118, R162, R334, R397, R422). The register files, CSRs, trap record, loop, ports and the state of its slot (R230, R231, R360). -/
structure Ctx where
  x : Vector Word 32
  v : Vector Vec 32
  p : Vector Byte 8
  g : Vector Word 32
  pc : Word
  fpstat : BitVec 5
  rmode : BitVec 3
  srseed : BitVec 32
  asid : BitVec 16
  ptroot : Word
  wscale6 : Word
  wscale7 : Word
  instret : Word
  tcause : Word
  tpc : Word
  tval : Word
  tinfo : Word
  loopActive : Bool
  lstart : Word
  lend : Word
  lrem : Word
  ports : Vector Port 8
  st : SlotState
  wait : Option Wait
  ra : Bool
  gen : BitVec 12
  lastEnd : LastEnd
  nmPending : Nat
  nmErrors : List NmError
  holdBreaks : List Nat
  poolStores : List (Word × Nat)
  poolLost : List (Word × Nat)
  seq : BitVec 32
  pending : Option PendingPair
  held : Option (Instr × Instr)
  gword : Option (BitVec 32)
  lockReply : Option (Nat × Nat)
  expired : Bool
  lockReq : Option LockReq
  arrived : Option (Nat × Nat)
  surveyed : List (Nat × Bool)
  granted : Bool
  bb : Option (Nat × Bool × Option Nat)
  sendFor : Option Word
  tok : Option TokWait
deriving DecidableEq, Repr, Inhabited

/-- A machine-check record (R431). -/
structure MCheck where
  valid : Bool
  cause : Nat
  slot : Nat
  kind : Nat
  node : Nat
  pc : Word
  val : Word
deriving DecidableEq, Repr, Inhabited

/-- The state of an L1 line (R180): Shared, Owned, or an Untracked copy taken with .si. -/
inductive LineState where
  | shared | owned | untracked
deriving DecidableEq, Repr, Inhabited

/-- A line of an L1 data cache (R179 to R181): tag, way and used bit, the physical line it was filled from, state, dirty
mask (R124), the contention counter and the time at which the core obtained the line (R132), whether the leaf that it was filled through
lets user contexts and stores hit it (R101, R106, R125), and the bytes an untracked copy keeps (R151). -/
structure L1Line where
  asid : BitVec 16
  vline : Nat
  way : Nat
  used : Bool
  pline : Nat
  st : LineState
  dirty : BitVec 64
  cont : Nat
  got : Nat
  user : Bool
  stores : Bool
  data : BitVec 512
deriving DecidableEq, Repr, Inhabited

/-- A line of an L1 instruction cache (R144): tag, the physical line it was filled from (R92), and its sixteen words. -/
structure ILine where
  asid : BitVec 16
  vline : Nat
  pline : Nat
  data : BitVec 512
deriving DecidableEq, Repr, Inhabited

/-- An entry of the core's send window (R337): the mailbox handle, the credits held for it, and the binding that they are of; the list is in order of
use. -/
structure SendEntry where
  handle : Word
  credits : Nat
  bind : Nat
deriving DecidableEq, Repr, Inhabited

/-- The item resident on a core (R356, R357, R367): its launch, identifier, limits, phasers left of its reservation, and the
step of its dispatch. -/
structure Item where
  launch : Nat
  wid : Word
  helpers : Nat
  phasers : Nat
  phLeft : Nat
  order : Nat
deriving DecidableEq, Repr, Inhabited

/-- One entry of a core's vector queue (R280): the slot that issued it, its destination and source registers (vector registers by
number, predicates from 32 on, scalar registers from 64 on), and whether it has been bound to a lane group. -/
structure VqEntry where
  slot : Nat
  dest : Nat
  srcs : List Nat
  bound : Bool
deriving DecidableEq, Repr, Inhabited

/-- One core (R34, R231). `run` counts the instructions issued in a row (R361); `lastSel` is the slot WFE selected last
(R422); `stopped` says that slot 11 is stopped or not yet started (R425, R432, R446); `overflow` counts the events a valid
machine-check record turned away (R431); `contTab` is the contention table of evicted lines, the last used first (R132);
`badWays` the L1 ways that a self-test has retired (R437); `misses` the lines of prefetches whose fills have not returned (R182); `mcWritten` says that the
machine-check record has been written since reset: CORE reads 0 until then (R431). -/
structure CoreSt where
  slot : Nat
  run : Nat
  vshare : BitVec 4
  hold : BitVec 32
  quant : BitVec 7
  pend : BitVec 11
  osv : Bool
  oslot : BitVec 4
  sv : Bool
  sslot : BitVec 4
  lastSel : Nat
  tvec : Word
  stopped : Bool
  item : Option Item
  vq : List VqEntry
  deficit : Int
  sendWin : List SendEntry
  tokTab : Tab Word Nat
  mcheck : MCheck
  overflow : Nat
  l1 : List L1Line
  icache : List ILine
  contTab : Tab Nat Nat
  badWays : List Nat
  misses : List (BitVec 16 × Nat)
  mcWritten : Bool
deriving DecidableEq, Repr, Inhabited

/-- A leaf result of a translation cache (R101, R116): key, the entry read, its level, the address of the entry, and the survey
counters of the four quadrants of the die. -/
structure Leaf where
  asid : BitVec 16
  gran : Nat
  entry : Word
  level : Nat
  eaddr : Nat
  counts : Vector Nat 4
deriving DecidableEq, Repr, Inhabited

/-- A pointer entry of a walk cache (R101): the address space, the level it was read at (1 to 3), the VA bits that choose it, the entry and
its address. -/
structure PtrEnt where
  asid : BitVec 16
  level : Nat
  key : Nat
  entry : Word
  eaddr : Nat
deriving DecidableEq, Repr, Inhabited

/-- A data line of a slice's front half (R120): its key, the physical line that it holds, the cores of the die whose L1 holds it, whether one
of them holds it owned, the dirty mask (R124), and the leaf entry that it was filled through (R101). -/
structure SliceLine where
  asid : BitVec 16
  vline : Nat
  pline : Nat
  cores : BitVec 256
  owned : Bool
  dirty : BitVec 64
  entry : Word
deriving DecidableEq, Repr, Inhabited

/-- One L2 slice (R101): translation cache, walk cache and data lines, the last used first. -/
structure Slice where
  leaves : List Leaf
  ptrs : List PtrEnt
  lines : List SliceLine
deriving DecidableEq, Repr, Inhabited

/-- What a home shard's directory keeps of a line (R121, R122): the slices of its package that hold the line (die, slice), the remote
packages by node number or MANY mode, the slice whose holder may have dirty bytes (node, die, slice), the objects (node, die, handle) that
govern copies, and the slices that walkers have read it through (R107). -/
structure DirEnt where
  slices : List (Nat × Nat)
  remotes : List Nat
  many : Bool
  owner : Option (Nat × Nat × Nat)
  objs : List (Nat × Nat × Nat)
  walkers : List (Nat × Nat × Nat)
deriving DecidableEq, Repr, Inhabited

/-- A pin of a page (R102): the slice that translated it (node, die, slice), the engine command that has accesses to the page to make, and the
leaf result that it goes on using. -/
structure Pin where
  node : Nat
  die : Nat
  slice : Nat
  cmd : Nat
  leaf : Leaf
deriving DecidableEq, Repr, Inhabited

/-- A coherence object of a die (R133 to R138): first and last covered line (VA ÷ 64), mode and owner, and its vector of the cores whose
L1s may hold its lines: by core of the die for SHARED, by core of the owner's polder for POLDER-PRIVATE (R135). -/
structure CohObj where
  asid : BitVec 16
  lo : Nat
  hi : Nat
  mode : Nat
  owner : Nat
  cores : BitVec 256
deriving DecidableEq, Repr, Inhabited

/-- A waiter of a line lock (R161, R169, R170). `absent` and `requeued` are the marks of R170, `stamp` the CYCLE value at
acceptance (R176). -/
structure Waiter where
  id : CtxId
  gen : BitVec 12
  absent : Bool
  requeued : Bool
  stamp : Word
  timeout : Nat
deriving DecidableEq, Repr, Inhabited

/-- A line lock with an entry (R155, R156): holder, recorded scope, the acquirer that fixed the domain, queue, broken mark,
the hold limit read when it was taken (R173), and the former holder of a lock that is being handed on (R165, R177), with its generation where
the hand-on waits for the stores that its ended life has retired (R172). -/
structure Lock where
  holder : Option CtxId
  scope : Nat
  owner : CtxId
  waiters : List Waiter
  broken : Bool
  limit : Nat
  rel : Option (CtxId × Option (BitVec 12))
deriving DecidableEq, Repr, Inhabited

/-- How far a near-memory operation has come (R65 to R72). -/
inductive NmStage where
  | sent | forwarded | applied | returned
deriving DecidableEq, Repr, Inhabited

/-- A near-memory operation in flight (R71). `piece` names the engine command, row and piece of an ENMSC operation, and the table row that its
index chose (R76); `late` says that its new translation has met a moving pointer for longer than the time-out (R67, R106). -/
structure NmOp where
  id : CtxId
  cgen : BitVec 12
  va : Word
  pa : Nat
  asid : BitVec 16
  ptroot : Word
  mapGen : Nat
  op : Nat
  vec : Bool
  data : Vec
  stage : NmStage
  err : Option Cause
  piece : Option (Nat × Nat × Nat × Nat)
  late : Bool
deriving DecidableEq, Repr, Inhabited

/-- What an engine command's unit keeps between its attempts, as a context does: the line at whose home its request is held, and when it came
there (R66), and the requests it has been counted for (R116). -/
structure Try where
  arrived : Option (Nat × Nat)
  surveyed : List (Nat × Bool)
deriving DecidableEq, Repr, Inhabited

/-- A page migration between its steps (R118): `copied` says step 4 is done and the old lines are FROZEN, `switched` that step 6 is. -/
structure Mig where
  id : CtxId
  asid : BitVec 16
  va : Word
  eaddr : Nat
  entry : Word
  old : Nat
  new : Nat
  size : Nat
  copied : Bool
  switched : Bool
  scope : Nat
deriving DecidableEq, Repr, Inhabited

/-- A region-table state (R84). -/
inductive RegionState where
  | free | attached | lost | reattaching
deriving DecidableEq, Repr, Inhabited

/-- A line in quarantine (R94). -/
structure QLine where
  unc : Bool
  line : Nat
  mask : BitVec 64
  data : BitVec 512
deriving DecidableEq, Repr, Inhabited

/-- A region table entry (R84) with its quarantine (R94). `detaching`: a write of EN = 0 has begun (R86). -/
structure Region where
  en : Bool
  port : Nat
  st : RegionState
  base : Nat
  size : Nat
  link : Nat
  dropped : Nat
  ffv : Bool
  ffkind : Bool
  ffaddr : Nat
  cfgerr : Bool
  quar : List QLine
  detaching : Bool
deriving DecidableEq, Repr, Inhabited

/-- An entry of the range scoreboard or the range-lock table (R194, R198). `kind` and `space` as R198 codes them; `cmd` names
the engine command that claimed it. -/
structure RangeEnt where
  kind : Nat
  space : Nat
  asid : BitVec 16
  core : Nat
  lo : Nat
  hi : Nat
  cmd : Nat
deriving DecidableEq, Repr, Inhabited

/-- A remote store that has left its core and waits at the port of its target (R191): its context, local address, bytes and data; the address
space and VA of the translation that it came under, if any (R114); the number of the next engine command when it left (R229); and, of a
stream port's append, the register and k (R239). -/
structure PortWrite where
  id : CtxId
  cgen : BitVec 12
  la : Nat
  n : Nat
  v : Nat
  xl : Option (BitVec 16 × Nat)
  before : Nat
  append : Option (Nat × Nat)
deriving DecidableEq, Repr, Inhabited

/-- An entry of a trace ring (R192). -/
structure TraceEnt where
  v : Bool
  stamp : Word
  srcNode : Nat
  srcCore : Nat
  size : Nat
  laddr : Nat
deriving DecidableEq, Repr, Inhabited

/-- A polder's trace ring and its control register (R192, R193). -/
structure Ring where
  ents : Tab Nat TraceEnt
  en : Bool
  wrap : Bool
  head : Nat
deriving DecidableEq, Repr, Inhabited

/-- A member of a phaser (R379): mode, the next phase it will signal, the next it will wait for, the mark of a pending PHSW wait. -/
structure PhMember where
  id : CtxId
  mode : Nat
  s : Nat
  w : Nat
  mark : Bool
deriving DecidableEq, Repr, Inhabited

/-- A phaser of a polder's synchronisation engine (R376, R379): generation, whether it is in use, address space, the item whose
reservation it came from (core, launch, identifier), the open phase and the members. -/
structure Phaser where
  gen : Nat
  live : Bool
  asid : BitVec 16
  item : Nat × Nat × Word
  phase : Nat
  members : List PhMember
deriving DecidableEq, Repr, Inhabited

/-- An engine command with everything it snapshotted at issue (R205, R323): serial number, issuer, command code (R55), queue and
trigger bits, operands, geometry registers, address space; the mode fields of its pfx (R49), the SR draws and drain scales handed
over at issue (R323); then its progress: units done (`pos`, `sub`), units already counted (`counted`), the pieces of an ENMSC not
yet acknowledged (`open_`), the row whose index it has read and that index (`ix`, R76), whether it re-issues one ENMSC piece alone (R77), and
(`hw`) whether it is an instruction's command (0), a replica's weight copy (1) or a join copy (2), which the slot manager starts (R404, R405), or a clone plan
that has stopped (3). -/
structure Cmd where
  no : Nat
  id : CtxId
  cgen : BitVec 12
  cmd : Nat
  hi : Bool
  trig : Bool
  a : Word
  b : Word
  g : Vector Word 32
  asid : BitVec 16
  ptroot : Word
  user : Bool
  rnd : BitVec 3
  sat : Bool
  nanp : BitVec 2
  draws : List (BitVec 32)
  scales : List (BitVec 32)
  pos : Nat
  sub : Nat
  counted : Nat
  open_ : Nat
  ix : Option (Nat × Nat)
  single : Bool
  rows : Nat
  started : Bool
  hw : Nat
deriving DecidableEq, Repr, Inhabited

/-- An engine fault record (R225) with the stopped command it holds (R227); `array` says whose command it is. -/
structure FaultRec where
  cause : Nat
  fva : Word
  respt : Nat
  cmd : Cmd
  array : Bool
deriving DecidableEq, Repr, Inhabited

/-- A running exchange (R224): the eight commands by core, the round, the (round, core) pairs already landed and those counted. -/
structure Exch where
  cmds : List Cmd
  round : Nat
  landed : List (Nat × Nat)
  counted : List (Nat × Nat)
deriving DecidableEq, Repr, Inhabited

/-- A polder's copy engine (R205, R206, R221 to R226): the two queues, the run slots, each core's unmatched EXCH commands in issue
order, the sets of eight that have been formed and not started (R224), the running exchange, stopped commands that wait for a free record, the fault records, the schedule table. -/
structure Engine where
  hiQ : List Cmd
  loQ : List Cmd
  run : List Cmd
  exch : List Cmd
  sets : List (List Cmd)
  exRun : Option Exch
  stopped : List FaultRec
  recs : Tab Nat FaultRec
  sched : Tab Nat Word
deriving DecidableEq, Repr, Inhabited

/-- What the array keeps for a lease that is not the granted one (R306): its context, save area, queued commands, the header and
command records it wrote, by which a restore knows them again, and the marks of its lost banks. -/
structure Susp where
  id : CtxId
  sa : Nat
  hiQ : List Cmd
  loQ : List Cmd
  hstop : Bool
  lstop : Bool
  saved : Bool
  header : List Nat
  lost0 : Option Nat
  lost1 : Option Nat
deriving DecidableEq, Repr, Inhabited

/-- One accumulator bank (R300, R301, R309): its words by index 128 × r + c, its sticky flags, its mode (complex), RROWS, and the
save-area address of a lost word (R306). -/
structure Bank where
  words : Tab Nat (BitVec 32)
  flags : BitVec 5
  cplx : Bool
  rrows : Nat
  lostAt : Option Nat
deriving DecidableEq, Repr, Inhabited

/-- A polder's matrix array (R300 to R310): banks, granted lease with its save area and quantum counter, suspended leases, contexts
that wait for a grant, tile queues, running command (`ending`: its context was terminated, and the lease goes with it, R307), halts, the physical column of each moved logical column, and (`backup`) the bank as it was before
a ragged EMMA, which restarts from its beginning when it stops (R325), and the winner of an arbitration to whom a hand-over brings the array (R305). -/
structure ArraySt where
  bank0 : Bank
  bank1 : Bank
  holder : Option CtxId
  holderSa : Nat
  quantum : Nat
  lastCore : Nat
  susp : List Susp
  waiting : List (CtxId × Nat)
  hiQ : List Cmd
  loQ : List Cmd
  run : Option Cmd
  ending : Bool
  hstop : Bool
  lstop : Bool
  cols : Tab Nat Nat
  spares : Nat
  retiring : List Nat
  backup : Bank
  next : Option CtxId
deriving DecidableEq, Repr, Inhabited

/-- A mailbox (R327 to R337): owner and the generation it bound with, ring, entry size, N, handler PC, head, entries held, credits
granted and not yet filled, ring entries freed and not yet returned, the half-popped mark of a 64-byte entry (R335), queued credit
requests (node, core, demand), the live handler's slot and generation (R331), the
senders of the entries held (R343), the contexts whose pops have waited on this binding (R335), and the binding's number among those that the
polder has made. -/
structure Mbox where
  owner : CtxId
  gen : BitVec 12
  ring : Nat
  esize : Nat
  log2n : Nat
  hpc : Word
  head : Nat
  held : Nat
  granted : Nat
  freed : Nat
  half : Bool
  reqs : List (Nat × Nat × Nat)
  handler : Option (Nat × BitVec 12)
  srcs : List CtxId
  waits : List CtxId
  bind : Nat
deriving DecidableEq, Repr, Inhabited

/-- Something on its way between polders (R334, R337): a message entry (handle, sender, bytes, data, its bearing string if it has one, the binding that
its handle named when it left, the binding that its credit is of: 0 none), a credit request (handle, requesting core, demand), granted credits (handle,
core, count, binding). -/
inductive Flight where
  | entry (h : Word) (src : CtxId) (bytes : Nat) (data : Vec) (bearing : Option (BitVec 32)) (bind credit : Nat)
  | creditReq (h : Word) (node core demand : Nat)
  | grant (h : Word) (node core count bind : Nat)
deriving DecidableEq, Repr, Inhabited

/-- How far a launch has come (R363, R368, R381, R382): its conditions are polled, its items are dispatched, all are dispatched. -/
inductive LaunchStage where
  | polling | dispatching | dispatched
deriving DecidableEq, Repr, Inhabited

/-- A saved item (R369, R370): its item record, core, live slots, those that were parked, whether it held a lease, and the tag by which
its contexts stand in `State.ctxs` while they are away: slot s of it at slot s + 16 × (1 + tag). -/
structure SavedItem where
  item : Item
  core : Nat
  live : List Nat
  parked : List Nat
  lease : Bool
  tag : Nat
deriving DecidableEq, Repr, Inhabited

/-- A launch that a front-end has taken and not finished (R356, R363 to R368): its queue, the record's fields, the control block's, the
counts, the bindings of its die groups and polder groups (R358), its items resident (core, identifier) in order of dispatch. -/
structure Launch where
  queue : Nat
  asid : BitVec 16
  ptroot : Word
  entry : Word
  widths : List Nat
  prio : Nat
  place : Option Nat
  colev : Option Nat
  nsem : Nat
  helpers : Nat
  phasers : Nat
  ranges : List (Nat × Nat × Nat)
  semlist : Word
  lcb : Word
  args : List Word
  semaddr : Word
  doneval : Word
  abortval : Word
  savebase : Word
  stage : LaunchStage
  next : Nat
  ndone : Nat
  nabort : Nat
  killed : Option Word
  aborted : Bool
  dieOf : Tab Nat Nat
  polderOf : Tab Nat Nat
  resident : List (Nat × Word)
  saved : List SavedItem
deriving DecidableEq, Repr, Inhabited

/-- A communicator (R347): word 0 of its register, DONE, and how many ECOLLs each member of this package (by die for KIND 1, else 0) has
issued. -/
structure Comm where
  w0 : Word
  done : BitVec 32
  issued : Tab Nat Nat
deriving DecidableEq, Repr, Inhabited

/-- A member's part in a collective (R352): its rank, command, the two layout records, reduction and element codes that its digest covers,
chunk size, priority; how many chunks have left and the elements they carried, the bytes landed, the bytes counted on the
barrier, and 0 running, 1 done, 2 stopped, 3 given up. -/
structure CollMem where
  rank : Nat
  cmd : Cmd
  rec1 : Nat
  rec2 : Nat
  red : Nat
  ety : Nat
  chunk : Nat
  prio : Nat
  sent : Nat
  data : List Nat
  landed : Nat
  counted : Nat
  st : Nat
deriving DecidableEq, Repr, Inhabited

/-- The k-th collective of a communicator (R352): KIND, node (KIND 1) or GROUP (KIND 0), number, k, size, members so far, whether
its reduction is done. -/
structure Coll where
  kind : Nat
  home : Nat
  comm : Nat
  k : Nat
  size : Nat
  mems : List CollMem
  reduced : Bool
deriving DecidableEq, Repr, Inhabited

/-- A clone plan that a collective engine runs (R354, R355): its command, peer, STEPADDR, STEPVAL, regions (source, destination, bytes),
the region and byte reached, whether it has started. -/
structure Clone where
  cmd : Cmd
  peer : Nat
  stepAddr : Nat
  stepVal : Nat
  ents : List (Nat × Nat × Nat)
  i : Nat
  off : Nat
  started : Bool
deriving DecidableEq, Repr, Inhabited

/-- The states of a launch queue (R362). -/
inductive QState where
  | idle | run | draining | aborting | stopped
deriving DecidableEq, Repr, Inhabited

/-- A launch queue (R362): its registers, the launch that it polls or dispatches, and, while it aborts, the TAIL it was written at and the
contexts it has terminated (R382), and the count of records it has finished up to. -/
structure Queue where
  en : Bool
  st : QState
  cfgerr : Bool
  fedie : Nat
  fe : Nat
  log2n : Nat
  asid : BitVec 16
  base : Word
  ptroot : Word
  head : BitVec 32
  tail : BitVec 32
  err : Nat
  nextwid : Word
  cur : Option Nat
  abortTail : BitVec 32
  dying : List (CtxId × BitVec 12)
  abortPos : BitVec 32
deriving DecidableEq, Repr, Inhabited

/-- A token on its way to a slot manager, or held there (R398, R399): name, replica, sequence number, version, sender, origin row index,
source offset and barrier, backward or forward, row bytes, the node and polder it is addressed to, the partition its credit
came from (65: a forwarded token, which holds none), and the epoch of the sender's legend copy (R393). -/
structure Token where
  name : Nat
  r : Nat
  seq : BitVec 32
  ver : Nat
  sender : CtxId
  rowidx : Nat
  src : Nat
  bar : Nat
  bwd : Bool
  bytes : Nat
  data : Nat
  node : Nat
  polder : Nat
  part : Nat
  epoch : Nat
deriving DecidableEq, Repr, Inhabited

/-- A row in a slot (R399, R400, R402): what its return needs. -/
structure SlotRow where
  sender : CtxId
  src : Nat
  rowidx : Nat
  bar : Nat
  seq : BitVec 32
  bwd : Bool
  part : Nat
deriving DecidableEq, Repr, Inhabited

/-- A busy slot, or page in permutation mode (R402): its rows, the bytes of each, whether it is closed. -/
structure SlotSt where
  rows : List SlotRow
  bytes : Nat
  closed : Bool
deriving DecidableEq, Repr, Inhabited

/-- A replica at its slot manager (R397 to R406): index, version, backward count, free credits by partition and in the pool, partitions
that granted in this window and in the last whole one, busy slots, held tokens, the version and RBAR phase of a weight copy under
way, how many weight copies wait for entries of the range tables (R194), the epoch of its tombstone, whether a replica has come to serve beside that tombstone
(R405), how many XJOINs have asked for its partial, whether a partial on its way holds every backward row that has landed, and whether such a partial was
delivered. -/
structure Repl where
  idx : Nat
  ver : Nat
  bwd : Nat
  parts : Tab Nat Nat
  pool : Nat
  active : List Nat
  lastActive : List Nat
  slots : Tab Nat SlotSt
  heldToks : List Token
  pend : Option (Nat × Nat)
  unissued : Nat
  tomb : Option Nat
  reborn : Bool
  joinReq : Nat
  whole : Bool
  joined : Bool
deriving DecidableEq, Repr, Inhabited

/-- A result row on its way to its origin (R403): node, core, A-space offset, barrier, bytes, data, the (name, replica) its
arrival counts down, and the node and core of its TRET (R192). -/
structure ResultRow where
  node : Nat
  core : Nat
  src : Nat
  bar : Nat
  bytes : Nat
  data : Nat
  key : Word
  fromNode : Nat
  fromCore : Nat
deriving DecidableEq, Repr, Inhabited

/-- A legend update on its way to a package's copy (R393): the package, the name, the entry. -/
structure LegUp where
  node : Nat
  name : Nat
  ent : BitVec 1024
deriving DecidableEq, Repr, Inhabited


/-- One polder's units (R33, R192 to R198, R231), with the remote stores that wait at its port (R191), the vector arbiter's last choice and the memory returns that wait for a write slot (R282, R242); the slot
manager's replicas and duplicate marks (R397 to R406); its scratchpad bytes stand in the memory at their class-10 addresses (R190). -/
structure Polder where
  spillcnt : Word
  dupcnt : Word
  sb : List RangeEnt
  rl : List RangeEnt
  ring : Ring
  portQ : List PortWrite
  phasers : Tab Nat Phaser
  engine : Engine
  array : ArraySt
  mboxes : Tab Nat Mbox
  binds : Nat
  vlast : Nat
  returns : List (Nat × Nat)
  starved : Bool
  repls : Tab Nat Repl
  marks : Tab CtxId (BitVec 32)
deriving DecidableEq, Repr, Inhabited

/-- One die's units: its 48 slices (R101, R120), its coherence objects by handle (R134),
the communicator its collective engine chose last (R348), and its legend unit: entries, staging entry, command word, donors, and the
epoch that each package has acknowledged for a name (R390 to R393), and the communicators (64 stands for ECLONE's channels) on whose channels some hop
of the die's paths has no buffer free (R348). -/
structure DieSt where
  slices : Tab Nat Slice
  objs : Tab Nat CohObj
  lastComm : Nat
  legend : Tab Nat (BitVec 1024)
  staging : BitVec 1024
  legName : Nat
  legErr : Bool
  donors : Tab Nat Word
  acks : Tab (Nat × Nat) Nat
  chanFull : List Nat
deriving DecidableEq, Repr, Inhabited

/-- An attestation report (R444): the measurements of the loaded images, the device that signs, the requester's nonce, and the signature. -/
structure Report where
  measures : List (BitVec 512)
  device : Nat
  nonce : BitVec 512
  sig : BitVec 4096
deriving DecidableEq, Repr, Inhabited

/-- One package: the clock value at its reset (R232), its region table (R84), its pool ports (up, and the pool device attached,
R82), the dirty bytes of class-01 lines not yet sent to their device and those sent and not yet completed (R89, R92), the BAR2 window register (R442), the fenced nodes (R439), the
launches taken and not finished, whether its controller runs (R446), communicators, launch queues and the queue last dispatched from
(R367), the links that are up, units under test and retired units by (unit code of R438, index), withdrawn polders (R437), the error
log and its next entry (R438), the last response to a back-invalidate snoop (first line; 0 BIRspI, 1 BIRspS, 2 BIRspE: R87), the corrected errors of each unit (R63), missed heartbeats (R439) and the 100 MHz steps taken off the A-clock (R445);
the queue that each front-end served last (R362), the links that are down (R436), the step of R446 that is done, the BOOTSRC strap as read (R445), the
fuses (the SHA-512 digest of the root key, the anti-rollback counter), the measurements of the loaded images and the last attestation report (R444), and
the Xiane switches and pool devices that the package has fenced (R439), by their numbers of log entry 53: 4,096 + switch, 8,192 + port. -/
structure Pkg where
  cycle0 : Nat
  regions : Tab Nat Region
  poolUp : Vector Bool 4
  poolDev : Vector Nat 4
  poolDirty : Tab Nat (BitVec 64)
  poolSent : Tab Nat (BitVec 64)
  bar2 : Word
  fenced : List Nat
  launches : Tab Nat Launch
  nextLaunch : Nat
  live : Bool
  comms : Tab Nat Comm
  queues : Tab Nat Queue
  lastQueue : Nat
  trained : List (Nat × Nat)
  testing : List (Nat × Nat)
  retired : List (Nat × Nat)
  withdrawn : List Nat
  errLog : Tab Nat (Word × Word)
  errNext : Nat
  biRsp : Option (Nat × Nat)
  corrected : Tab (Nat × Nat) Nat
  missed : Tab Nat Nat
  throttle : Nat
  feLast : Tab Nat Nat
  down : List (Nat × Nat)
  boot : Nat
  bootsrc : Bool
  fuseRoot : BitVec 512
  fuseMin : BitVec 32
  images : List (BitVec 512)
  report : Option Report
  fencedSw : List Nat
deriving DecidableEq, Repr, Inhabited

/-- The operands of an event, one record for all: the package node, the package-wide core, the slot, the number of a unit or entry
(`n`, `m`), an address (`pa`), words, a vector and a flag. Each event's meaning says which it uses. -/
structure Ev where
  node : Nat := 0
  core : Nat := 0
  slot : Nat := 0
  n : Nat := 0
  m : Nat := 0
  pa : Nat := 0
  w : Word := 0
  w2 : Word := 0
  v : Vec := 0
  flag : Bool := false
deriving DecidableEq, Repr, Inhabited

/-- One turn of the installation: a step of some unit, the host or the management, or the choice of the core that issues next. -/
inductive Turn where
  | event (i : Instr) (e : Ev)
  | focus (node core : Nat)
deriving DecidableEq, Repr, Inhabited

/-- The machine. `dirs` holds the directory entries by physical line (R121), `proxies` the proxy entries by package and line (R122): the
slices (die, slice) of the package that hold the line. `pins` holds the pins of engine transfers (R102), `late` the commands whose walk has met a
moving pointer for longer than its time-out (R106), `tries` what the units of commands keep between their attempts (R66, R116). `fnode`, `fcore` name the core that issues next; `schedule` lists the turns to come, `work` the events that
earlier steps have started, `urgent` the unit commands that a control-register write has given and the next step carries out, `idle` says that the focused core's last attempt could not issue: these, with `stepNo` (the
counter of the free values), `ev` (the operands of the event that is being done) and `pfx` (the prefix fields in force inside a pair, none at every boundary), are the model's own. -/
structure State where
  fnode : Nat
  fcore : Nat
  schedule : List Turn
  work : List (Instr × Ev)
  ev : Ev
  idle : Bool
  stepNo : Nat
  clock : Nat
  pfx : Option Pfx
  ctxs : Tab CtxId Ctx
  cores : Tab (Nat × Nat) CoreSt
  polders : Tab (Nat × Nat) Polder
  dies : Tab (Nat × Nat) DieSt
  pkgs : Tab Nat Pkg
  group : List Nat
  domain : List Nat
  mem : List Host.Cell
  lost : Tab Nat (BitVec 64)
  lostWords : Tab Nat (BitVec 8)
  dirs : Tab Nat DirEnt
  proxies : Tab (Nat × Nat) (List (Nat × Nat))
  pins : List Pin
  late : List Nat
  tries : Tab Nat Try
  locks : Tab Nat Lock
  nmOps : List NmOp
  migs : List Mig
  nextCmd : Nat
  flights : List Flight
  urgent : List (Instr × Ev)
  colls : List Coll
  clones : List Clone
  tokens : List Token
  accepts : List (CtxId × BitVec 32 × Nat)
  results : List ResultRow
  legUps : List LegUp
deriving DecidableEq, Repr, Inhabited

/-- A context after reset (R230 to R232, R99, R188, R415). -/
def Ctx.reset : Ctx where
  x := Vector.replicate 32 0
  v := Vector.replicate 32 0
  p := Vector.replicate 8 0
  g := Vector.replicate 32 0
  pc := 0
  fpstat := 0
  rmode := 0
  srseed := 1
  asid := 0
  ptroot := 0
  wscale6 := 0
  wscale7 := 0
  instret := 0
  tcause := 0
  tpc := 0
  tval := 0
  tinfo := 0
  loopActive := false
  lstart := 0
  lend := 0
  lrem := 0
  ports := Vector.replicate 8 ⟨false, 0, 0, 0, false, 0, 0, [], []⟩
  st := .free
  wait := none
  ra := false
  gen := 0
  lastEnd := .none
  nmPending := 0
  nmErrors := []
  holdBreaks := []
  poolStores := []
  poolLost := []
  seq := 0
  pending := none
  held := none
  gword := none
  lockReply := none
  expired := false
  lockReq := none
  arrived := none
  surveyed := []
  granted := false
  bb := none
  sendFor := none
  tok := none

/-- The reset value of a slot's context: slot 11, the system context, is always live (R360). -/
def Ctx.resetOf (slot : Nat) : Ctx := if slot = 11 then { Ctx.reset with st := .ready } else Ctx.reset

/-- A machine-check record after reset (R431). -/
def MCheck.reset : MCheck := ⟨false, 0, 0, 0, 0, 0, 0⟩

/-- A core after reset (R231, R232, R416, R422): slot 11 is current and waits for its start by RESET_RELEASE (R446). -/
def CoreSt.reset : CoreSt where
  slot := 11
  run := 0
  vshare := 8
  hold := 0x01000000
  quant := 16
  pend := 0
  osv := false
  oslot := 0
  sv := false
  sslot := 0
  lastSel := 11
  tvec := 0
  stopped := true
  item := none
  vq := []
  deficit := 0
  sendWin := []
  tokTab := []
  mcheck := MCheck.reset
  overflow := 0
  l1 := []
  icache := []
  contTab := []
  badWays := []
  misses := []
  mcWritten := false

/-- A region table entry after reset (R84). -/
def Region.reset : Region := ⟨false, 0, .free, 0, 0, 0, 0, false, false, 0, false, [], false⟩

/-- An accumulator bank after reset. -/
def Bank.reset : Bank := ⟨[], 0, false, 0, none⟩

/-- A matrix array after reset (R302). -/
def ArraySt.reset : ArraySt := ⟨Bank.reset, Bank.reset, none, 0, 0, 7, [], [], [], [], none, false, false, false, [], 4, [], Bank.reset, none⟩

/-- A polder's units after reset. -/
def Polder.reset : Polder where
  spillcnt := 0
  dupcnt := 0
  sb := []
  rl := []
  ring := ⟨[], false, false, 0⟩
  portQ := []
  phasers := []
  engine := ⟨[], [], [], [], [], none, [], [], []⟩
  array := ArraySt.reset
  mboxes := []
  binds := 0
  vlast := 7
  returns := []
  starved := false
  repls := []
  marks := []

/-- A die's units after reset; the staging entry has the reset values of R390: WIN 20, NPART 1 and NSLOT 256 (bytes 24 to 27). -/
def DieSt.reset : DieSt where
  slices := []
  objs := []
  lastComm := 0
  legend := []
  staging := BitVec.ofNat 1024 ((20 * 2 ^ 27 + 2 ^ 20 + 256 * 2 ^ 7) * 2 ^ 192)
  legName := 0
  legErr := false
  donors := []
  acks := []
  chanFull := []

/-- A package after reset. -/
def Pkg.reset : Pkg where
  cycle0 := 0
  regions := []
  poolUp := Vector.replicate 4 false
  poolDev := Vector.replicate 4 0
  poolDirty := []
  poolSent := []
  bar2 := 0
  fenced := []
  launches := []
  nextLaunch := 0
  live := false
  comms := []
  queues := []
  lastQueue := 0
  trained := []
  testing := []
  retired := []
  withdrawn := []
  errLog := []
  errNext := 0
  biRsp := none
  corrected := []
  missed := []
  throttle := 0
  feLast := []
  down := []
  boot := 0
  bootsrc := false
  fuseRoot := 0
  fuseMin := 0
  images := []
  report := none
  fencedSw := []

/-- The machine right after reset: every register at the value the spec states for reset or the log names (NOTES.md), memory
with nothing listed, no program, slot 11 of core 0 of node 0 in focus and not yet started. -/
def State.reset : State where
  fnode := 0
  fcore := 0
  schedule := []
  work := []
  ev := {}
  idle := false
  stepNo := 0
  clock := 0
  pfx := none
  ctxs := []
  cores := []
  polders := []
  dies := []
  pkgs := []
  group := [0]
  domain := [0]
  mem := []
  lost := []
  lostWords := []
  dirs := []
  proxies := []
  pins := []
  late := []
  tries := []
  locks := []
  nmOps := []
  migs := []
  nextCmd := 0
  flights := []
  urgent := []
  colls := []
  clones := []
  tokens := []
  accepts := []
  results := []
  legUps := []

end Sys2Proof.Machine
end

