-- ==== Sys2Proof/Machine/Ops.lean ====
section
/-! DEFINITION. The named operations every meaning uses: sparse tables, bit fields, register access, raw memory, retiring an
instruction, stalling a slot, switching slots, taking a trap. -/

namespace Sys2Proof.Machine
open Sys2Proof

/-- The outcome of a step of this machine. -/
abbrev Out := Host.Outcome State Fault Refusal

/-! ## Sparse tables -/

/-- The entry of key `k`, if it is listed. -/
def tfind {κ α : Type} [DecidableEq κ] (t : Tab κ α) (k : κ) : Option α :=
  match t with
  | [] => none
  | (k', a) :: r => if k' = k then some a else tfind r k

/-- The value at key `k`: the listed one, or the default. -/
def tget {κ α : Type} [DecidableEq κ] (d : α) (t : Tab κ α) (k : κ) : α := (tfind t k).getD d

/-- The table with `a` at key `k`. -/
def tset {κ α : Type} [DecidableEq κ] (t : Tab κ α) (k : κ) (a : α) : Tab κ α :=
  match t with
  | [] => [(k, a)]
  | (k', a') :: r => if k' = k then (k, a) :: r else (k', a') :: tset r k a

/-- The table without an entry at key `k`. -/
def tdel {κ α : Type} [DecidableEq κ] (t : Tab κ α) (k : κ) : Tab κ α := t.filter (fun e => decide (e.1 ≠ k))

/-- The table with `f` applied to every listed entry. -/
def tmap {κ α : Type} (t : Tab κ α) (f : κ → α → α) : Tab κ α :=
  match t with
  | [] => []
  | (k, a) :: r => (k, f k a) :: tmap r f

/-! ## Bit fields (R4) -/

/-- Bits [lo + n - 1 : lo] of a number. -/
def fieldN (v lo n : Nat) : Nat := v / 2 ^ lo % 2 ^ n

/-- Bits [lo + n - 1 : lo] of a word, as a number. -/
def fieldW (w : Word) (lo n : Nat) : Nat := fieldN w.toNat lo n

/-- Sign extension of the low `n` bits of a number to 64 bits (R27). -/
def sextN (v n : Nat) : Word := BitVec.ofInt 64 (if fieldN v (n - 1) 1 = 1 then (v % 2 ^ n : Nat) - 2 ^ n else (v % 2 ^ n : Nat))

/-- The signed integer of the low `n` bits. -/
def signedN (v n : Nat) : Int := if fieldN v (n - 1) 1 = 1 then (v % 2 ^ n : Nat) - 2 ^ n else (v % 2 ^ n : Nat)

/-! ## Units -/

/-- A core of a package by its package-wide index (R31). -/
def State.core (s : State) (node k : Nat) : CoreSt := tget CoreSt.reset s.cores (node, k)
/-- Replaces a core's state. -/
def State.setCore (s : State) (node k : Nat) (c : CoreSt) : State := { s with cores := tset s.cores (node, k) c }
/-- The core in focus. -/
def State.cc (s : State) : CoreSt := s.core s.fnode s.fcore
/-- Replaces the core in focus. -/
def State.setCC (s : State) (c : CoreSt) : State := s.setCore s.fnode s.fcore c
/-- The context that issues: the current slot of the core in focus (R34). -/
def State.cur (s : State) : CtxId := ⟨s.fnode, s.fcore, s.cc.slot⟩
/-- A context of the installation. -/
def State.ctx (s : State) (id : CtxId) : Ctx := tget (Ctx.resetOf id.slot) s.ctxs id
/-- Replaces a context. -/
def State.setCtx (s : State) (id : CtxId) (c : Ctx) : State := { s with ctxs := tset s.ctxs id c }
/-- The issuing context. -/
def State.c (s : State) : Ctx := s.ctx s.cur
/-- Replaces the issuing context. -/
def State.setC (s : State) (c : Ctx) : State := s.setCtx s.cur c
/-- A polder of a package by its package-wide index (R31). -/
def State.polder (s : State) (node p : Nat) : Polder := tget Polder.reset s.polders (node, p)
/-- Replaces a polder. -/
def State.setPolder (s : State) (node p : Nat) (q : Polder) : State := { s with polders := tset s.polders (node, p) q }
/-- A die of a package. -/
def State.die (s : State) (node d : Nat) : DieSt := tget DieSt.reset s.dies (node, d)
/-- Replaces a die. -/
def State.setDie (s : State) (node d : Nat) (q : DieSt) : State := { s with dies := tset s.dies (node, d) q }
/-- A package. -/
def State.pkg (s : State) (node : Nat) : Pkg := tget Pkg.reset s.pkgs node
/-- Replaces a package. -/
def State.setPkg (s : State) (node : Nat) (q : Pkg) : State := { s with pkgs := tset s.pkgs node q }

/-- The package-wide polder index of a core (R31). -/
def CtxId.polder (id : CtxId) : Nat := id.core / 8
/-- The die of a core (R31). -/
def CtxId.die (id : CtxId) : Nat := id.core / 256
/-- The issuing core's polder. -/
def State.pol (s : State) : Polder := s.polder s.fnode (s.fcore / 8)
/-- Replaces the issuing core's polder. -/
def State.setPol (s : State) (q : Polder) : State := s.setPolder s.fnode (s.fcore / 8) q
/-- The CYCLE register of a package (R232). -/
def State.cycle (s : State) (node : Nat) : Word := BitVec.ofNat 64 (s.clock - (s.pkg node).cycle0)
/-- System privilege: slot 11 (R34, R232). -/
def State.sys (s : State) : Bool := s.cc.slot == 11
/-- A unit command that a control-register write gives: the next step carries it out (R443). -/
def State.now (s : State) (i : Instr) (e : Ev) : State := { s with urgent := s.urgent ++ [(i, e)] }
/-- Puts an event at the end of the work that waits (log entry 6). -/
def State.enq (s : State) (i : Instr) (e : Ev) : State := { s with work := s.work ++ [(i, e)] }

/-- The same for a command or an event that does not wait already. -/
def State.nowOnce (s : State) (i : Instr) (e : Ev) : State := if s.urgent.contains (i, e) then s else s.now i e
/-- The same for an event. -/
def State.enqOnce (s : State) (i : Instr) (e : Ev) : State := if s.work.contains (i, e) then s else s.enq i e

/-! ## Registers (R45, R230) -/

/-- X(r): x0 reads 0. -/
def Ctx.xr (c : Ctx) (r : Reg) : Word := if r = 0 then 0 else c.x[r.toNat]'r.isLt
/-- A write of X(r): writes to x0 are discarded. -/
def Ctx.setX (c : Ctx) (r : Reg) (v : Word) : Ctx := if r = 0 then c else { c with x := c.x.set r.toNat v r.isLt }
/-- The register value V(r), hidden under a bound port (R235). -/
def Ctx.vr (c : Ctx) (r : Reg) : Vec := c.v[r.toNat]'r.isLt
/-- A write of the register V(r). -/
def Ctx.setV (c : Ctx) (r : Reg) (v : Vec) : Ctx := { c with v := c.v.set r.toNat v r.isLt }
/-- G(r). -/
def Ctx.gr (c : Ctx) (r : Reg) : Word := c.g[r.toNat]'r.isLt
/-- A write of G(r). -/
def Ctx.setG (c : Ctx) (r : Reg) (v : Word) : Ctx := { c with g := c.g.set r.toNat v r.isLt }
/-- P(r); a field of 8 or more names no register (R45) and the decoder refuses it. -/
def Ctx.pr (c : Ctx) (r : Reg) : Byte := if h : r.toNat < 8 then c.p[r.toNat]'h else 0
/-- A write of P(r). -/
def Ctx.setP (c : Ctx) (r : Reg) (v : Byte) : Ctx := if h : r.toNat < 8 then { c with p := c.p.set r.toNat v h } else c

/-- X(r) of the issuing context. -/
def State.X (s : State) (r : Reg) : Word := s.c.xr r
/-- Writes X(r) of the issuing context. -/
def State.setX (s : State) (r : Reg) (v : Word) : State := s.setC (s.c.setX r v)
/-- Writes P(r) of the issuing context. -/
def State.setP (s : State) (r : Reg) (v : Byte) : State := s.setC (s.c.setP r v)
/-- ORs flags into FPSTAT (R27); a run-ahead helper's flags are discarded (R259). -/
def State.setFlags (s : State) (f : BitVec 5) : State :=
  if s.c.ra then s else s.setC { s.c with fpstat := s.c.fpstat ||| f }

/-! ## Raw memory: one list of cells, addresses rising, no cell with the value an unlisted address reads as -/

/-- What an address that is not listed reads as (log entry 2). -/
def memDefault : Byte := 0

/-- The byte at address `a`. -/
def memGet (m : List Host.Cell) (a : Nat) : Byte :=
  match m with
  | [] => memDefault
  | (k, b) :: r => if k = a then b else if a < k then memDefault else memGet r a

/-- The cells whose addresses `p` picks are kept. -/
def memKeep (m : List Host.Cell) (p : Nat → Bool) : List Host.Cell := m.filter (fun e => p e.1)

/-- The memory with `b` at address `a`, in canonical form. -/
def memSet (m : List Host.Cell) (a : Nat) (b : Byte) : List Host.Cell :=
  match m with
  | [] => if b = memDefault then [] else [(a, b)]
  | (k, c) :: r =>
    if k = a then (if b = memDefault then r else (a, b) :: r)
    else if a < k then (if b = memDefault then (k, c) :: r else (a, b) :: (k, c) :: r)
    else (k, c) :: memSet r a b

/-- Every address of `m` is at least `lo`, addresses rise, and no cell holds the default. -/
def memWfFrom (lo : Nat) (m : List Host.Cell) : Bool :=
  match m with
  | [] => true
  | (k, b) :: r => decide (lo ≤ k) && decide (b ≠ memDefault) && memWfFrom (k + 1) r

/-- The canonical form of a memory. -/
def Memory.wf (m : List Host.Cell) : Bool := memWfFrom 0 m

/-- `n` bytes from address `a`, little-endian (R5), as a number. -/
def memRead (m : List Host.Cell) (a n : Nat) : Nat :=
  match n with
  | 0 => 0
  | n + 1 => (memGet m a).toNat + 256 * memRead m (a + 1) n

/-- `n` bytes of `v` written at address `a`, little-endian. -/
def memWrite (m : List Host.Cell) (a n v : Nat) : List Host.Cell :=
  match n with
  | 0 => m
  | n + 1 => memWrite (memSet m a (BitVec.ofNat 8 v)) (a + 1) n (v / 256)

/-! ## Stops, retiring, stalling, traps -/

/-- A trap that an instruction raises: cause, TVAL, and the fields ACC and WLEV of TINFO (R415, R418); `ff` names the
region and address of an access that failed in a LOST region, for its first-failure record (R92); `fill` the VA whose translation a
permission fault has left in the slice's caches (R106); `va` the VA of the access where TVAL holds something else (R225, R431). -/
structure TrapInfo where
  cause : Cause
  tval : Word
  acc : BitVec 2 := 0
  wlev : BitVec 3 := 0
  ff : Option (Nat × Nat × Nat) := none
  fill : Option Nat := none
  va : Option Word := none
deriving DecidableEq, Repr, Inhabited

/-- The VA, or local address, of the access that failed. -/
def TrapInfo.place (t : TrapInfo) : Word := t.va.getD t.tval

/-- Why an instruction does not complete: it raises a trap, with no effect left (R414) or with the one effect that its entry lets
stay, or its slot stalls, with the state that the wait leaves behind. -/
inductive Stop where
  | trap (t : TrapInfo)
  | trapKeep (t : TrapInfo) (s : State)
  | wait (w : Wait) (s : State)

/-- The result of an instruction's body. -/
abbrev Res := Except Stop State

/-- Raises a trap with no access. -/
def raise {α : Type} (c : Cause) (v : Word) : Except Stop α := .error (.trap { cause := c, tval := v })
/-- Raises a trap of an access: `acc` as TINFO codes it (R415). -/
def raiseAcc {α : Type} (c : Cause) (v : Word) (acc : BitVec 2) : Except Stop α := .error (.trap { cause := c, tval := v, acc := acc })

/-- The bytes of an instruction's own words: 8 for a long instruction, else 4 (R40). -/
def isLong : Instr → Bool
  | .ldi .. | .ldiu .. | .addil .. | .jl .. | .ldl .. | .stl .. | .vsplati .. | .sendb .. => true
  | _ => false

/-- The bytes of the instruction, or of the pair when a pfx word is in force. -/
def instrBytes (s : State) (i : Instr) : Nat := (if s.pfx.isSome then 4 else 0) + (if isLong i then 8 else 4)

/-- The slots after `k` in rotating order (R34), ending with `k` itself. -/
def rotation (k : Nat) : List Nat := (List.range 12).map (fun j => (k + 1 + j) % 12)

/-- A slot that may issue or try again: READY or STALLED (its wait is tested by executing it again), and slot 11 only while
it is not stopped (R360, R425). -/
def State.runnable (s : State) (node k slot : Nat) : Bool :=
  let c := s.ctx ⟨node, k, slot⟩
  (c.st == .ready || (c.st == .stalled && c.wait != some .restore)) && (slot != 11 || !(s.core node k).stopped)

/-- The core goes to its next runnable slot in rotating order, or stays (R34). -/
def State.switchSlot (s : State) (node k : Nat) : State :=
  let q := s.core node k
  let n := ((rotation q.slot).find? (fun j => s.runnable node k j)).getD q.slot
  s.setCore node k { q with slot := n, run := 0 }

/-- The issuing slot stalls with reason `w` and the core switches (R34, R360). -/
def State.stall (s : State) (w : Wait) : State :=
  -- the next attempt makes the instruction's requests again (R116)
  let s := s.setC { s.c with st := .stalled, wait := some w, surveyed := s.c.surveyed.map (fun e => (e.1, false)) }
  { s.switchSlot s.fnode s.fcore with pfx := none, idle := true }

/-- The end of an instruction that does not transfer control (R232, R272): `pc` moves past its words, or to the loop start at the
end of an iteration; INSTRET and the count of R361 rise. -/
def Ctx.advance (c : Ctx) (bytes : Nat) (pair : Bool) : Ctx :=
  let next := c.pc + BitVec.ofNat 64 bytes
  if c.loopActive ∧ c.pc.toNat ≤ c.lend.toNat ∧ c.lend.toNat < c.pc.toNat + bytes then
    if 1 < c.lrem.toNat then { c with pc := c.lstart, lrem := c.lrem - 1 }
    else { c with pc := (if pair ∧ c.pc = c.lend then next else c.lend + 4), lrem := c.lrem - 1, loopActive := false }
  else { c with pc := next }

/-- A transfer of control to `t` (R272): a target outside the body makes the loop inactive. -/
def Ctx.jump (c : Ctx) (t : Word) : Ctx :=
  { c with pc := t, loopActive := c.loopActive && decide (c.lstart.toNat ≤ t.toNat ∧ t.toNat ≤ c.lend.toNat) }

/-- Nothing is left of an instruction's wait. -/
def Ctx.unwait (c : Ctx) : Ctx :=
  { c with wait := none, held := none, gword := none, lockReply := none, lockReq := none, arrived := none, surveyed := [], expired := false, bb := none,
           sendFor := none, tok := none }

/-- What every completed instruction leaves: the slot READY, no wait pending, the pair over, one more instruction counted. -/
def State.complete (s : State) (c : Ctx) (count : Bool) : State :=
  let c := { c.unwait with st := .ready, instret := if count then c.instret + 1 else c.instret }
  let s := s.setC c
  { s.setCC { s.cc with run := s.cc.run + 1 } with pfx := none, idle := false }

/-- Retires the sequential instruction `i`. -/
def State.retire (s : State) (i : Instr) : State :=
  s.complete (s.c.advance (instrBytes s i) s.pfx.isSome) true

/-- Retires an instruction that transfers control to `t`. -/
def State.retireTo (s : State) (t : Word) : State := s.complete (s.c.jump t) true

/-- TINFO from its fields (R415). -/
def tinfoOf (long async : Bool) (acc : BitVec 2) (wlev : BitVec 3) (pfx : Bool) : Word :=
  BitVec.ofNat 64 (pfx.toNat + 2 * wlev.toNat + 16 * acc.toNat + 64 * async.toNat + 128 * long.toNat)

/-- Writes a context's trap record (R415, R417): TPC is the boundary, a multiple of 4. -/
def Ctx.record (c : Ctx) (code : Nat) (pc tval tinfo : Word) : Ctx :=
  { c with tcause := BitVec.ofNat 64 code, tpc := BitVec.ofNat 64 (pc.toNat / 4 * 4), tval := tval, tinfo := tinfo }

/-- The words of a pair are held: its slot stands between them, and no asynchronous event reaches it (R52). -/
def Ctx.pairHeld (c : Ctx) : Bool := match c.held with | some (.pfx .., _) => true | _ => false

/-- Writes the machine-check record of a core (R431): kept when one of KIND 0 or 3 meets a valid record, and every event that
meets a valid record is counted. KIND 0 and 3 stop slot 11 (R432). -/
def State.machineCheck (s : State) (node k : Nat) (m : MCheck) : State :=
  let q := s.core node k
  let q := if q.mcheck.valid then { q with overflow := q.overflow + 1 } else { q with mcheck := m, mcWritten := true }
  let q := if m.kind = 0 ∨ m.kind = 3 then { q with stopped := true } else q
  s.setCore node k q

/-- Taking the trap `t` on slot `id` at its boundary (R417). A user slot is PARKED with its record written and its PEND bit
set; the system context goes to TVEC, or, with TVEC 0 or inside its own trap, makes a machine check. -/
def State.takeTrap (s : State) (id : CtxId) (t : TrapInfo) (long async pfx : Bool) : State :=
  let c := s.ctx id
  let q := s.core id.node id.core
  let info := tinfoOf long async t.acc t.wlev pfx
  -- a waiting LKACQ that WATCHDOG reaches, or whose fetch faults on its re-run, stays in its queue, and gets what the home sends it meanwhile (R161,
  -- R170, R427)
  let c0 := if async ∨ t.acc = 3 then { c.unwait with lockReply := c.lockReply, lockReq := c.lockReq } else c.unwait
  if id.slot ≤ 10 then
    let s := s.setCtx id { c0.record t.cause.code c.pc t.tval info with st := .parked }
    let s := s.setCore id.node id.core { q with pend := q.pend ||| BitVec.ofNat 11 (2 ^ id.slot) }
    if q.slot = id.slot then s.switchSlot id.node id.core else s
  else if q.tvec = 0 ∨ (q.sv = true ∧ q.sslot = 11) then
    let s := (s.setCtx id c0).machineCheck id.node id.core ⟨true, t.cause.code, 11, 0, 0, c.pc, t.tval⟩
    if q.slot = 11 then s.switchSlot id.node id.core else s
  else
    let s := s.setCtx id { c0.record t.cause.code c.pc t.tval info with pc := q.tvec, st := .ready }
    s.setCore id.node id.core { q with oslot := q.sslot, osv := q.sv, sslot := 11, sv := true, run := 0 }

end Sys2Proof.Machine
end

