-- ==== Sys2Proof/Machine/Places.lean ====
section
/-! DEFINITION. Where things are: global physical addresses (R59 to R62) with the channels behind them (R60, R61), and the tiles of a
die with the ports of its edge stops (R28 to R33). -/

namespace Sys2Proof.Machine
open Sys2Proof

/-! ## Global physical addresses (R59) -/

/-- NODE of a global physical address. -/
def paNode (pa : Nat) : Nat := fieldN pa 46 12
/-- CLASS of a global physical address. -/
def paClass (pa : Nat) : Nat := fieldN pa 44 2
/-- OFFSET of a global physical address. -/
def paOff (pa : Nat) : Nat := fieldN pa 0 44
/-- The line of an address. -/
def lineOf (a : Nat) : Nat := a / 64 * 64
/-- R62's limit. -/
def hbmLimit : Nat := 0xC000000000
/-- The address of local address `la` of a polder's scratchpad as a class-10 address (R190). -/
def spadAddr (node p la : Nat) : Nat := node * 2 ^ 46 + 2 * 2 ^ 44 + p * 2 ^ 32 + la
/-- The size of a scratchpad space (R183). -/
def spaceSize (sp : Nat) : Nat :=
  match sp with | 0 => 8 * 2 ^ 20 | 1 => 4 * 2 ^ 20 | 2 => 4 * 2 ^ 20 | 3 => 64 * 2 ^ 20 | _ => 0

/-! ## Stacks, channels and pseudo-channels (R60, R61) -/

/-- The stack of a class-00 address. -/
def hbmStack (pa : Nat) : Nat := fieldN pa 36 4
/-- The die of a class-00 line's home shard (R61, R120). -/
def hbmDie (pa : Nat) : Nat := hbmStack pa / 2
/-- The interleave granule: four lines of 64 bytes (R60). -/
def granuleBytes : Nat := 256
/-- `pcx` of R61: the pseudo-channel of the stack, 64 of them, granule by granule. -/
def hbmPcx (pa : Nat) : Nat := fieldN (pa / granuleBytes) 0 6 ^^^ fieldN pa 20 6
/-- The channel of the stack, 0 to 31. -/
def hbmChannel (pa : Nat) : Nat := hbmPcx pa / 2
/-- The pseudo-channel of the channel. -/
def hbmPseudo (pa : Nat) : Nat := hbmPcx pa % 2
/-- The package-wide index of a pseudo-channel, and of its near-memory atomic unit (R60): 64 to a stack. -/
def hbmUnit (pa : Nat) : Nat := hbmStack pa * 64 + hbmPcx pa

/-! ## The die mesh (R30) -/

/-- What a tile of a die holds: a polder, a slice tile, or an edge stop. -/
inductive Tile where
  | polder (n : Nat)
  | slices (j : Nat)
  | hbm | dieToDie | xiane | poolHost
deriving DecidableEq, Repr, Inhabited

/-- The map of R30, row by row. -/
def tileMap : List (List Tile) :=
  [[.xiane, .slices 0, .hbm, .polder 0, .polder 1, .hbm, .slices 1, .poolHost],
   [.polder 2, .slices 2, .polder 3, .polder 4, .slices 3, .polder 5, .slices 4, .polder 6],
   [.slices 5, .polder 7, .slices 6, .polder 8, .polder 9, .slices 7, .polder 10, .slices 8],
   [.dieToDie, .polder 11, .slices 9, .polder 12, .polder 13, .slices 10, .polder 14, .polder 15],
   [.polder 16, .polder 17, .slices 11, .polder 18, .polder 19, .slices 12, .polder 20, .dieToDie],
   [.slices 13, .polder 21, .slices 14, .polder 22, .polder 23, .slices 15, .polder 24, .slices 16],
   [.polder 25, .slices 17, .polder 26, .polder 27, .slices 18, .polder 28, .slices 19, .polder 29],
   [.slices 20, .slices 21, .hbm, .polder 30, .polder 31, .hbm, .slices 22, .slices 23]]

/-- The tile at a row and a column. -/
def tileAt (r c : Nat) : Option Tile := (tileMap.getD r [])[c]?

/-- Row and column of a polder's tile on its die. -/
def polderTile (p : Nat) : Nat × Nat :=
  ([0,0, 1,1,1,1,1, 2,2,2,2, 3,3,3,3,3, 4,4,4,4,4, 5,5,5,5, 6,6,6,6,6, 7,7].getD (p % 32) 0,
   [3,4, 0,2,3,5,7, 1,3,4,6, 1,3,4,6,7, 0,1,3,4,6, 1,3,4,6, 0,2,3,5,7, 3,4].getD (p % 32) 0)

/-- Row and column of the tile that holds slice `t`: tile S(t ÷ 2). -/
def sliceTile (t : Nat) : Nat × Nat :=
  ([0,0, 1,1,1, 2,2,2,2, 3,3, 4,4, 5,5,5,5, 6,6,6, 7,7,7,7].getD (t / 2) 0,
   [1,6, 1,4,6, 0,2,5,7, 2,5, 2,5, 0,2,5,7, 1,4,6, 0,1,6,7].getD (t / 2) 0)

/-- The other slice of a slice tile (R30): Sj holds slices 2j and 2j + 1. -/
def tileMate (t : Nat) : Nat := if t % 2 = 0 then t + 1 else t - 1

/-- The quadrant of a polder's tile on its die (R116). -/
def quadrant (polder : Nat) : Nat := 2 * ((polderTile polder).1 / 4) + (polderTile polder).2 / 4

/-- The dies in ring order (R29). -/
def dieRing : List Nat := [0, 1, 2, 5, 4, 3]
/-- The die `k` places on in the ring. -/
def ringStep (d k : Nat) : Nat := dieRing.getD ((dieRing.findIdx (fun x => x == d) + k) % 6) 0

/-- Unit code of the link that leaves a tile in a direction, and of a tile, as the model numbers them among the retired units of unit code 5
(R437, log entry 13): link = 1,024 + tile × 4 + bearing, tile = 8,192 + die × 64 + row × 8 + column. -/
def tileNo (d r c : Nat) : Nat := d * 64 + r * 8 + c
/-- The link of a tile. -/
def linkNo (tile b : Nat) : Nat := 1024 + tile * 4 + b
/-- The tile as a unit. -/
def tileUnit (tile : Nat) : Nat := 8192 + tile

/-- The tile that a bearing leads to from tile (r, c) of die d: north, east, south, west; the die-to-die stops lead on around the ring
(R29, R338). None off the mesh. -/
def stepTile (d r c b : Nat) : Option (Nat × Nat × Nat) :=
  match b with
  | 0 => if r = 0 then none else some (d, r - 1, c)
  | 1 => if r = 4 ∧ c = 7 then some (ringStep d 1, 3, 0) else if c = 7 then none else some (d, r, c + 1)
  | 2 => if r = 7 then none else some (d, r + 1, c)
  | _ => if r = 3 ∧ c = 0 then some (ringStep d 5, 4, 7) else if c = 0 then none else some (d, r, c - 1)

/-! ## The ports of the edge stops (R33) -/

/-- The stop that serves an HBM address: die, row and column. Channels 0-15 and 16-31 of the die's first stack are at row 0, those of its
second at row 7. -/
def hbmStop (pa : Nat) : Nat × Nat × Nat :=
  (hbmDie pa, if hbmStack pa % 2 = 0 then 0 else 7, if hbmChannel pa < 16 then 2 else 5)

/-- The die whose stop (0,0) serves a Xiane port. -/
def xianeDie (port : Nat) : Nat := if port < 12 then port / 3 else if port < 14 then 4 else 5
/-- The die whose stop (0,7) serves a pool port (R83). -/
def poolPortDie (port : Nat) : Nat := port + 1
/-- The die whose stop (0,7) serves the host link. -/
def hostDie : Nat := 0
/-- The die whose stop (0,7) serves the package controller and its management port. -/
def managementDie : Nat := 5

/-- How many links of a kind the package has (R29, R35): 0 HBM stacks, 1 die-to-die links, 2 Xiane ports, 3 pool ports, 4 the host link. -/
def linkCount (kind : Nat) : Nat :=
  match kind with | 0 => 12 | 1 => 6 | 2 => 16 | 3 => 4 | 4 => 1 | _ => 0

/-- The number of link `m` of a kind among the links as units (log entry 13): a pool port's is 512 plus the port. -/
def linkUnit (kind m : Nat) : Nat := (match kind with | 0 => 0 | 1 => 64 | 2 => 128 | 3 => 512 | _ => 576) + m

/-- A link of a package is down (R436), or a self-test has disabled it (R437). -/
def State.linkDown (s : State) (node kind m : Nat) : Bool :=
  (s.pkg node).down.contains (kind, m) || (s.pkg node).retired.contains (5, linkUnit kind m)

/-- The number under which a Xiane switch's heartbeats are counted and its fence is logged: packages have the numbers below 4,096 (log entry 53). -/
def switchNo (n : Nat) : Nat := 4096 + n
/-- The same of the pool device at a port. -/
def deviceNo (port : Nat) : Nat := 8192 + port

/-- A package has no way onto the fabric: every Xiane link of it is down, or leads to a switch that it has fenced (log entry 53). -/
def State.offFabric (s : State) (node : Nat) : Bool :=
  (List.range 16).all (fun m => s.linkDown node 2 m || (s.pkg node).fencedSw.contains (switchNo m))

/-- Two packages are cut off from each other: one of them has fenced the other, and accepts nothing from it (R439), or has no fabric route. -/
def State.cutOff (s : State) (a b : Nat) : Bool :=
  (s.pkg a).fenced.contains b || (s.pkg b).fenced.contains a || (a != b && (s.offFabric a || s.offFabric b))

end Sys2Proof.Machine
end

