-- ==== Sys2Proof/Machine/Slices.lean ====
section
/-! DEFINITION. The caches and their directory: L1 lines (R179 to R181), the two halves of a slice (R100, R101, R120), the home's entries and
the proxies of remote packages (R121, R122), and the operations by which copies come and go. The newest bytes of a line always stand in
memory (log entry 33): a cached line is a tag with a dirty mask (R124). -/

namespace Sys2Proof.Machine
open Sys2Proof

/-! ## Fields of a page-table entry (R104) -/

/-- V of an entry (R104). -/
def pteV (e : Word) : Bool := e.getLsbD 0
/-- R. -/
def pteR (e : Word) : Bool := e.getLsbD 1
/-- W. -/
def pteW (e : Word) : Bool := e.getLsbD 2
/-- X. -/
def pteX (e : Word) : Bool := e.getLsbD 3
/-- U. -/
def pteU (e : Word) : Bool := e.getLsbD 4
/-- A. -/
def pteA (e : Word) : Bool := e.getLsbD 5
/-- D. -/
def pteD (e : Word) : Bool := e.getLsbD 6
/-- M. -/
def pteM (e : Word) : Bool := e.getLsbD 7
/-- L. -/
def pteL (e : Word) : Bool := e.getLsbD 8
/-- CLASS. -/
def pteClass (e : Word) : Nat := fieldW e 9 2
/-- FRAME as a global physical address. -/
def pteFrame (e : Word) : Nat := fieldW e 16 42 * 65536
/-- GEN. -/
def pteGen (e : Word) : Nat := fieldW e 58 6

/-- A store may hit a line that was filled through the entry: W, D, and CLASS 0, for in CLASS 1 a .own store acts as .wt (R125). -/
def pteOwns (e : Word) : Bool := pteW e && pteD e && pteClass e == 0

/-! ## The slices of a die (R100, R101) -/

/-- The 64 KiB granule of a VA (R100). -/
def granOf (va : Nat) : Nat := fieldN va 16 40
/-- The slice index that a granule hashes to (R100). -/
def sliceHash (asid : BitVec 16) (gran : Nat) : Nat := (fieldN gran 0 16 ^^^ fieldN gran 16 16 ^^^ fieldN gran 32 8 ^^^ asid.toNat) % 48

/-- The slice that serves a hash bucket of a die: a retired slice's tile-mate serves its bucket too (R437). -/
def State.bucket (s : State) (node die h : Nat) : Nat := if (s.pkg node).retired.contains (4, die * 48 + h) then tileMate h else h

/-- A slice with nothing in it. -/
def Slice.empty : Slice := ⟨[], [], []⟩
/-- Slice `t` of a die. -/
def DieSt.slice (d : DieSt) (t : Nat) : Slice := tget Slice.empty d.slices t
/-- Replaces a slice. -/
def DieSt.setSlice (d : DieSt) (t : Nat) (x : Slice) : DieSt := { d with slices := tset d.slices t x }
/-- Slice `t` of a die of a package. -/
def State.slice (s : State) (node die t : Nat) : Slice := (s.die node die).slice t
/-- Replaces a slice. -/
def State.setSlice (s : State) (node die t : Nat) (x : Slice) : State := s.setDie node die ((s.die node die).setSlice t x)

/-- The slice of a die that serves a granule of an address space. -/
def State.sliceOf (s : State) (node die : Nat) (asid : BitVec 16) (gran : Nat) : Nat := s.bucket node die (sliceHash asid gran)
/-- The slice that serves a virtual line. -/
def State.lineSlice (s : State) (node die : Nat) (asid : BitVec 16) (vline : Nat) : Nat := s.sliceOf node die asid (vline / 1024)

/-- The leaf result that a die's slices hold for a granule. -/
def DieSt.leaf (d : DieSt) (asid : BitVec 16) (gran : Nat) : Option Leaf :=
  d.slices.findSome? (fun e => e.2.leaves.find? (fun l => l.asid == asid && l.gran == gran))

/-- Puts a leaf result in, in place of an older one of its granule; of more than 1,024 the one not used for longest goes (R101). -/
def Slice.putLeaf (x : Slice) (l : Leaf) : Slice :=
  { x with leaves := (l :: x.leaves.filter (fun l' => !(l'.asid == l.asid && l'.gran == l.gran))).take 1024 }
/-- The leaf result stands in slice `t`, and in no other slice of the die. -/
def DieSt.putLeaf (d : DieSt) (t : Nat) (l : Leaf) : DieSt :=
  let d := { d with slices := tmap d.slices (fun k x => if k = t then x else
    { x with leaves := x.leaves.filter (fun l' => !(l'.asid == l.asid && l'.gran == l.gran)) }) }
  d.setSlice t ((d.slice t).putLeaf l)

/-- Puts a pointer entry in; a slice keeps 64 (R101). -/
def Slice.putPtr (x : Slice) (e : PtrEnt) : Slice :=
  { x with ptrs := (e :: x.ptrs.filter (fun e' => !(e'.asid == e.asid && e'.level == e.level && e'.key == e.key))).take 64 }

/-- Is this the line of a key? -/
def SliceLine.at (x : SliceLine) (asid : BitVec 16) (vline : Nat) : Bool := x.asid == asid && x.vline == vline
/-- The data line of a key. -/
def Slice.line (x : Slice) (asid : BitVec 16) (vline : Nat) : Option SliceLine := x.lines.find? (fun l => l.at asid vline)
/-- The data line of a virtual line on a die. -/
def State.sliceLine (s : State) (node die : Nat) (asid : BitVec 16) (vline : Nat) : Option SliceLine :=
  (s.slice node die (s.lineSlice node die asid vline)).line asid vline
/-- Changes a data line that slice `t` holds. -/
def State.mapLine (s : State) (node die t : Nat) (asid : BitVec 16) (vline : Nat) (f : SliceLine → SliceLine) : State :=
  let x := s.slice node die t
  if x.lines.any (fun l => l.at asid vline) then
    s.setSlice node die t { x with lines := x.lines.map (fun l => if l.at asid vline then f l else l) }
  else s

/-! ## L1 lines (R179 to R181) -/

/-- Is this the line of a key? -/
def L1Line.at (l : L1Line) (asid : BitVec 16) (vline : Nat) : Bool := l.asid == asid && l.vline == vline
/-- The copy is registered (R123). -/
def L1Line.tracked (l : L1Line) : Bool := l.st != .untracked

/-- The L1 line that a core holds for a virtual line (R179). -/
def CoreSt.l1find (q : CoreSt) (asid : BitVec 16) (vline : Nat) : Option L1Line := q.l1.find? (fun l => l.at asid vline)

/-- The set of a virtual line (R179). -/
def l1set (vline : Nat) : Nat := fieldN vline 0 21 % 1536

/-- Marks way `w` of a set used; when that would leave all 16 used bits set, the others are cleared (R181). -/
def CoreSt.touch (q : CoreSt) (set way : Nat) : CoreSt :=
  let inSet := fun (l : L1Line) => l1set l.vline == set
  let others := (q.l1.filter (fun l => inSet l && l.way != way && l.used)).length
  { q with l1 := q.l1.map (fun l =>
      if inSet l then (if l.way == way then { l with used := true }
        else if others == 15 then { l with used := false } else l) else l) }

/-- The contention counter of a line: in the L1 or in the table of evicted lines; none predicts near (R132). -/
def CoreSt.contention (q : CoreSt) (pl : Nat) : Nat :=
  match q.l1.find? (fun l => l.pline == pl) with
  | some l => l.cont
  | none => tget 0 q.contTab pl

/-- The table's entry of a line is used: it becomes the most recent of its 256 (R132). -/
def CoreSt.useContention (q : CoreSt) (pl : Nat) : CoreSt :=
  match tfind q.contTab pl with
  | some n => { q with contTab := (pl, n) :: tdel q.contTab pl }
  | none => q

/-- The counter of a line that leaves the L1: one more when another requester has taken it within 512 cycles (R132). -/
def L1Line.lostCount (l : L1Line) (clock : Nat) (taken : Bool) : Nat :=
  if taken && decide (clock < l.got + 512) then min 3 (l.cont + 1) else l.cont

/-- The line leaves the L1, and its counter moves to the table (R132). -/
def CoreSt.lose (q : CoreSt) (clock : Nat) (taken : Bool) (l : L1Line) : CoreSt :=
  { q with l1 := q.l1.filter (fun l' => !l'.at l.asid l.vline),
           contTab := ((l.pline, l.lostCount clock taken) :: tdel q.contTab l.pline).take 256 }

/-- Every line that `p` picks leaves the L1, taken by no other requester: its counter moves to the table (R132). -/
def CoreSt.forget (q : CoreSt) (clock : Nat) (p : L1Line → Bool) : CoreSt :=
  (q.l1.filter p).foldl (fun q l => q.lose clock false l) q

/-- The way that a new line of a set takes: the first free one, else the lowest-numbered whose used bit is 0 (R181); a retired way is never
allocated (R437). Where a retired way leaves none whose used bit is 0, the lowest-numbered way in service goes (DESIGN CHOICE, log entry 49). -/
def CoreSt.wayFor (q : CoreSt) (set : Nat) : Nat :=
  let ways := q.l1.filter (fun l => l1set l.vline == set)
  let good := (List.range 16).filter (fun w => !q.badWays.contains w)
  (good.find? (fun w => !(ways.any (fun l => l.way == w)))).getD
    ((good.find? (fun w => ways.any (fun l => l.way == w && !l.used))).getD (good.headD 0))

/-- The line that a fill for a virtual line drives out, if any. -/
def CoreSt.victim (q : CoreSt) (asid : BitVec 16) (vline : Nat) : Option L1Line :=
  if (q.l1find asid vline).isSome then none
  else q.l1.find? (fun l => l1set l.vline == l1set vline && l.way == q.wayFor (l1set vline))

/-- A line stands in the L1 after a fill or a store: in its own way if it was there (R181), else in a new one, which is free. -/
def CoreSt.fill (q : CoreSt) (clock : Nat) (asid : BitVec 16) (vline pline : Nat) (st : LineState) (dirty : BitVec 64) (user stores : Bool)
    (data : BitVec 512) : CoreSt :=
  let cont := q.contention pline
  let q := q.useContention pline
  match q.l1find asid vline with
  | some old =>
    let l : L1Line := ⟨asid, vline, old.way, old.used, pline, st, dirty, cont, if old.pline = pline then old.got else clock, user, stores, data⟩
    ({ q with l1 := q.l1.map (fun l' => if l'.at asid vline then l else l') } : CoreSt).touch (l1set vline) old.way
  | none =>
    let way := q.wayFor (l1set vline)
    ({ q with l1 := q.l1 ++ [(⟨asid, vline, way, false, pline, st, dirty, cont, clock, user, stores, data⟩ : L1Line)] } : CoreSt).touch (l1set vline) way

/-! ## Coherence objects (R133 to R136) -/

/-- The core of a die may hold copies under the object (R135). -/
def CohObj.holder (o : CohObj) (core : Nat) : Bool :=
  match o.mode with
  | 0 => true
  | 1 => o.owner == core % 256
  | 2 => o.owner / 8 == core % 256 / 8
  | _ => false

/-- The cores of the die whose L1s the object says may hold its lines: its vector, or its owner (R135). -/
def CohObj.vector (o : CohObj) : BitVec 256 :=
  match o.mode with
  | 0 => o.cores
  | 1 => BitVec.ofNat 256 (2 ^ (o.owner % 256))
  | 2 => (o.cores &&& 0xFF) <<< (o.owner % 256 / 8 * 8)
  | _ => 0

/-- A core's bit in the object's vector: of 256 for SHARED, of 8 for POLDER-PRIVATE. -/
def CohObj.join (o : CohObj) (core : Nat) : CohObj :=
  match o.mode with
  | 0 => { o with cores := o.cores ||| BitVec.ofNat 256 (2 ^ (core % 256)) }
  | 2 => { o with cores := o.cores ||| BitVec.ofNat 256 (2 ^ (core % 8)) }
  | _ => o

/-- The object covers a virtual line of an address space. -/
def CohObj.covers (o : CohObj) (asid : BitVec 16) (vline : Nat) : Bool :=
  o.asid == asid && (decide (o.lo ≤ vline ∧ vline ≤ o.hi) || decide (o.lo ≤ vline + 2 ^ 50 ∧ vline + 2 ^ 50 ≤ o.hi))

/-- The object of a die that covers a virtual line, with its handle. -/
def State.objEnt (s : State) (node die : Nat) (asid : BitVec 16) (vline : Nat) : Option (Nat × CohObj) :=
  (s.die node die).objs.find? (fun e => e.2.covers asid vline)
/-- The object of a die that covers a virtual line. -/
def State.objOn (s : State) (node die : Nat) (asid : BitVec 16) (vline : Nat) : Option CohObj :=
  (s.objEnt node die asid vline).map (·.2)

/-- A core takes a copy of a line under the object that covers it. -/
def State.joinObj (s : State) (node k : Nat) (asid : BitVec 16) (vline : Nat) : State :=
  let d := s.die node (k / 256)
  s.setDie node (k / 256) { d with objs := tmap d.objs (fun _ o => if o.covers asid vline then o.join k else o) }

/-! ## The directory (R121, R122) -/

/-- A line that no one holds: state I. -/
def DirEnt.none : DirEnt := ⟨[], [], false, Option.none, [], []⟩
/-- The entry of a line. -/
def State.dir (s : State) (pl : Nat) : DirEnt := tget DirEnt.none s.dirs pl
/-- Writes the entry of a line; one that says nothing is not kept. -/
def State.setDir (s : State) (pl : Nat) (d : DirEnt) : State :=
  { s with dirs := if d = DirEnt.none then tdel s.dirs pl else tset s.dirs pl d }

/-- The states of R121 that the directory holds. -/
inductive DirState where
  | invalid | sharedBy | owned | object
deriving DecidableEq, Repr, Inhabited

/-- The state of an entry: OBJ where an object's die has taken the line, O with a holder, S with sharers, else I. -/
def DirEnt.state (d : DirEnt) : DirState :=
  if d.objs ≠ [] then .object else if d.owner.isSome then .owned
  else if d.slices ≠ [] ∨ d.remotes ≠ [] ∨ d.many then .sharedBy else .invalid

/-- The slices of another package that hold the line, by its proxy entry (R122). -/
def State.proxy (s : State) (node pl : Nat) : List (Nat × Nat) := tget [] s.proxies (node, pl)

/-- The remote packages to which an invalidation of the line goes: those of its pointers, or, in MANY mode, the fabric group (R122). -/
def State.remoteOf (s : State) (pl : Nat) (d : DirEnt) : List Nat := if d.many then s.group.filter (fun n => n != paNode pl) else d.remotes

/-- The slices that hold a line, as its home knows them: node, die and slice. -/
def State.holders (s : State) (pl : Nat) : List (Nat × Nat × Nat) :=
  let d := s.dir pl
  d.slices.map (fun x => (paNode pl, x.1, x.2)) ++
    (s.remoteOf pl d).flatMap (fun n => (s.proxy n pl).map (fun x => (n, x.1, x.2)))

/-- A remote package becomes a sharer: up to four are kept by number, the fifth switches the line to MANY (R122). -/
def DirEnt.addRemote (d : DirEnt) (node : Nat) : DirEnt :=
  if d.many || d.remotes.contains node then d
  else if d.remotes.length < 4 then { d with remotes := d.remotes ++ [node] }
  else { d with remotes := [], many := true }

/-- Puts an element into a list that has no repeats. -/
def addOnce {α : Type} [DecidableEq α] (l : List α) (a : α) : List α := if l.contains a then l else l ++ [a]

/-- A slice holds the line from now on: the home lists it, or its package, whose proxy entry lists it (R121, R122). -/
def State.listSlice (s : State) (pl node die t : Nat) : State :=
  let d := s.dir pl
  if node = paNode pl then s.setDir pl { d with slices := addOnce d.slices (die, t) }
  else
    let s := s.setDir pl (d.addRemote node)
    { s with proxies := tset s.proxies (node, pl) (addOnce (s.proxy node pl) (die, t)) }

/-- A remote package still has a copy of the line: its proxy entry lists a slice, or a walker of it has read the line (R107, R122). -/
def State.remoteKept (s : State) (pl n : Nat) : Bool := !(s.proxy n pl).isEmpty || (s.dir pl).walkers.any (fun w => w.1 == n)

/-- The packages that have no copy any more leave the pointers of the line. -/
def State.prunePointers (s : State) (pl : Nat) : State :=
  let d := s.dir pl
  s.setDir pl { d with remotes := d.remotes.filter (s.remoteKept pl) }

/-- An invalidation of the line has completed: with no remote copy left it is in pointer mode again (R122). -/
def State.pruneRemotes (s : State) (pl : Nat) : State :=
  let s := s.prunePointers pl
  let d := s.dir pl
  if d.many && (s.remoteOf pl d).all (fun n => !s.remoteKept pl n) then s.setDir pl { d with many := false } else s

/-- A slice holds the line no longer; a package whose proxy entry lists no slice is no sharer, unless as a walker. -/
def State.unlistSlice (s : State) (pl node die t : Nat) : State :=
  let d := s.dir pl
  let d := if d.owner = some (node, die, t) then { d with owner := none } else d
  if node = paNode pl then s.setDir pl { d with slices := d.slices.filter (fun x => x != (die, t)) }
  else
    let rest := (s.proxy node pl).filter (fun x => x != (die, t))
    (({ s with proxies := if rest = [] then tdel s.proxies (node, pl) else tset s.proxies (node, pl) rest } : State).setDir pl d).prunePointers pl

/-! ## Copies go -/

/-- The cores of a die whose L1 holds a tracked copy of a slice's line: those of its vector, and those of the object that covers it. -/
def State.copyCores (s : State) (node die : Nat) (x : SliceLine) : List Nat :=
  let v := x.cores ||| (match s.objOn node die x.asid x.vline with | some o => o.vector | none => 0)
  (s.cores.filter (fun e => e.1.1 == node && e.1.2 / 256 == die && v.getLsbD (e.1.2 % 256) &&
    e.2.l1.any (fun l => l.at x.asid x.vline && l.tracked && l.pline == x.pline))).map (fun e => e.1.2)

/-- A core's L1 gives up its copy of a virtual line: its dirty bytes merge at the slice (R124), whose vector forgets the core. `taken`:
another requester takes the line (R132). -/
def State.l1drop (s : State) (node k : Nat) (asid : BitVec 16) (vline : Nat) (taken : Bool) : State :=
  let q := s.core node k
  match q.l1find asid vline with
  | none => s
  | some l =>
    let s := s.setCore node k (q.lose s.clock taken l)
    if l.tracked then
      s.mapLine node (k / 256) (s.lineSlice node (k / 256) asid vline) asid vline (fun x =>
        if x.pline = l.pline then
          { x with cores := x.cores &&& ~~~(BitVec.ofNat 256 (2 ^ (k % 256))), owned := x.owned && l.st != .owned, dirty := x.dirty ||| l.dirty }
        else x)
    else s

/-- A slice gives up a data line: every L1 copy of it is recalled, and the home lists the slice no longer unless the slice holds the
physical line under another virtual address (R111). -/
def State.dropLine (s : State) (node die t : Nat) (x : SliceLine) (taken : Bool) : State :=
  let s := (s.copyCores node die x).foldl (fun s k => s.l1drop node k x.asid x.vline taken) s
  let y := s.slice node die t
  let y := { y with lines := y.lines.filter (fun l => !l.at x.asid x.vline) }
  let s := s.setSlice node die t y
  if y.lines.any (fun l => l.pline == x.pline) then s else s.unlistSlice x.pline node die t

/-- One core's copy of one virtual line, which a recall leaves. -/
structure Keep where
  node : Nat
  core : Nat
  asid : BitVec 16
  vline : Nat
deriving DecidableEq, Repr, Inhabited

/-- A core gives up its tracked copies of a physical line; `taken`: another requester takes the line (R132, R165). -/
def State.dropCore (s : State) (node k pl : Nat) (taken : Bool) : State :=
  ((s.core node k).l1.filter (fun l => l.pline == pl && l.tracked)).foldl (fun s l => s.l1drop node k l.asid l.vline taken) s

/-- A slice that holds a physical line gives up every copy but the one kept, if it is the slice's own. The requester's copies under other
virtual addresses go too, taken by no other (R132). -/
def State.recallAt (s : State) (pl : Nat) (h : Nat × Nat × Nat) (keep : Option Keep) : State :=
  let (node, die, t) := h
  ((s.slice node die t).lines.filter (fun x => x.pline == pl)).foldl (fun s x =>
    match keep with
    | some k =>
      if k.node = node ∧ k.core / 256 = die ∧ x.at k.asid k.vline then
        ((s.copyCores node die x).filter (fun j => j != k.core)).foldl (fun s j => s.l1drop node j x.asid x.vline true) s
      else (if k.node = node ∧ k.core / 256 = die then s.l1drop node k.core x.asid x.vline false else s).dropLine node die t x true
    | none => s.dropLine node die t x true) s

/-- The home recalls a line from everyone who holds it, but for one copy (R65, R121): dirty bytes merge (R124), and with no remote copy left
the line is in pointer mode again (R122). An object goes on governing the line (R121). -/
def State.recall (s : State) (pl : Nat) (keep : Option Keep) : State :=
  let s := ((s.holders pl).foldl (fun s h => s.recallAt pl h keep) s).pruneRemotes pl
  s.setDir pl { s.dir pl with owner := none }

/-- An object is released, or its mode changes: the lines that it governed are in per-line state again (R121, R138). -/
def State.dropObjLines (s : State) (node die h : Nat) : State :=
  { s with dirs := (tmap s.dirs (fun _ d => { d with objs := d.objs.filter (fun o => o != (node, die, h)) })).filter (fun e => e.2 != DirEnt.none) }

/-- The home merges the dirty bytes of the holder, whose copies stay, shared and clean (R121, R124). -/
def State.merge (s : State) (pl : Nat) : State :=
  let d := s.dir pl
  let s := (s.holders pl).foldl (fun s h =>
    let (node, die, t) := h
    ((s.slice node die t).lines.filter (fun x => x.pline == pl && (x.owned || x.dirty != 0 || (s.objOn node die x.asid x.vline).isSome))).foldl
      (fun s x =>
        let s := (s.copyCores node die x).foldl (fun s k =>
          let q := s.core node k
          s.setCore node k { q with l1 := q.l1.map (fun l =>
            if l.at x.asid x.vline && l.st == .owned then { l with st := .shared, dirty := 0 } else l) }) s
        s.mapLine node die t x.asid x.vline (fun x => { x with owned := false, dirty := 0 })) s) s
  if d.owner.isSome then s.setDir pl { s.dir pl with owner := none } else s

/-- Every copy of the physical lines that `p` picks goes at once, untracked ones too: in L1s, slices, proxies and directory. -/
def State.purge (s : State) (p : Nat → Bool) : State :=
  { s with cores := tmap s.cores (fun _ q => q.forget s.clock (fun l => p l.pline)),
           dies := tmap s.dies (fun _ d => { d with slices := tmap d.slices (fun _ x => { x with lines := x.lines.filter (fun l => !p l.pline) }) }),
           dirs := (tmap s.dirs (fun pl d => if p pl then { DirEnt.none with walkers := d.walkers, objs := d.objs } else d)).filter (fun e => e.2 != DirEnt.none),
           proxies := s.proxies.filter (fun e => !p e.1.2) }

/-- Every copy of a line is kept, clean (R87, R89). -/
def State.cleanCopies (s : State) (pl : Nat) : State :=
  { s with cores := tmap s.cores (fun _ q => { q with l1 := q.l1.map (fun l => if l.pline = pl then { l with dirty := 0 } else l) }),
           dies := tmap s.dies (fun _ d => { d with slices := tmap d.slices (fun _ x => { x with lines := x.lines.map (fun l =>
             if l.pline = pl then { l with dirty := 0 } else l) }) }) }

/-- The dirty bytes of the copies of `pl` (R124). -/
def State.dirtyMask (s : State) (pl : Nat) : BitVec 64 :=
  let m := s.cores.foldl (fun m e => e.2.l1.foldl (fun m l => if l.pline == pl then m ||| l.dirty else m) m) 0
  s.dies.foldl (fun m d => d.2.slices.foldl (fun m x => x.2.lines.foldl (fun m l => if l.pline == pl then m ||| l.dirty else m) m) m) m

/-! ## Copies come -/

/-- The most data lines that a slice of 2 MiB holds (R35). -/
def sliceLines : Nat := 32768

/-- A slice holds a virtual line, as its most recent one; when it is full the one not used for longest goes. -/
def State.sliceFill (s : State) (node die : Nat) (asid : BitVec 16) (vline pl : Nat) (e : Word) : State :=
  let t := s.lineSlice node die asid vline
  match (s.slice node die t).line asid vline with
  | some x =>
    if x.pline = pl then
      let y := s.slice node die t
      s.setSlice node die t { y with lines := { x with entry := e } :: y.lines.filter (fun l => !l.at asid vline) }
    else
      let s := s.dropLine node die t x false
      let y := s.slice node die t
      (s.setSlice node die t { y with lines := (⟨asid, vline, pl, 0, false, 0, e⟩ : SliceLine) :: y.lines }).listSlice pl node die t
  | none =>
    let y := s.slice node die t
    let s := match (if sliceLines ≤ y.lines.length then y.lines.getLast? else none) with
      | some x => s.dropLine node die t x false
      | none => s
    let y := s.slice node die t
    (s.setSlice node die t { y with lines := (⟨asid, vline, pl, 0, false, 0, e⟩ : SliceLine) :: y.lines }).listSlice pl node die t

/-- A line comes into a core's L1; the line it drives out goes to its slice. A tracked copy is registered: in the slice's vector, or in the
object that covers the line (R120, R135). -/
def State.l1fill (s : State) (node k : Nat) (asid : BitVec 16) (vline pl : Nat) (st : LineState) (dirty : BitVec 64) (e : Word)
    (data : BitVec 512) : State :=
  let s := match (s.core node k).victim asid vline with
    | some v => s.l1drop node k v.asid v.vline false
    | none => s
  let s := s.setCore node k ((s.core node k).fill s.clock asid vline pl st dirty (pteU e) (pteOwns e) data)
  if st = .untracked then s
  else
    let die := k / 256
    let s := s.sliceFill node die asid vline pl e
    let s := if st = .owned then s.setDir pl { s.dir pl with owner := some (node, die, s.lineSlice node die asid vline) } else s
    match s.objEnt node die asid vline with
    | some o => (s.joinObj node k asid vline).setDir pl { s.dir pl with objs := addOnce (s.dir pl).objs (node, die, o.1) }
    | none => s.mapLine node die (s.lineSlice node die asid vline) asid vline (fun x =>
        { x with cores := x.cores ||| BitVec.ofNat 256 (2 ^ (k % 256)), owned := x.owned || st == .owned })

/-- Some other core, another virtual line or another slice holds a copy of `pl`. -/
def State.heldElsewhere (s : State) (pl : Nat) (k : Keep) : Bool :=
  (s.holders pl).any (fun h =>
    (s.slice h.1 h.2.1 h.2.2).lines.any (fun x => x.pline == pl &&
      (!(h.1 == k.node && h.2.1 == k.core / 256 && x.at k.asid k.vline) || (s.copyCores h.1 h.2.1 x).any (fun j => j != k.core))))

/-- A core drops its untracked copies of a physical line but for one virtual line's (R151): it has observed a value at least as new. -/
def State.dropSynonyms (s : State) (node k : Nat) (pl : Nat) (keep : Option (BitVec 16 × Nat)) : State :=
  let q := s.core node k
  if q.l1.any (fun l => l.pline == pl && !l.tracked && keep != some (l.asid, l.vline)) then
    s.setCore node k (q.forget s.clock (fun l => l.pline == pl && !l.tracked && keep != some (l.asid, l.vline)))
  else s

/-! ## Walker sharers (R107) -/

/-- A slice has read a page-table line as a walker: the home records it. -/
def State.walkerReads (s : State) (line node die t : Nat) : State :=
  let d := s.dir line
  if d.walkers.contains (node, die, t) then s
  else
    let s := s.setDir line { d with walkers := d.walkers ++ [(node, die, t)] }
    if node = paNode line then s else s.setDir line ((s.dir line).addRemote node)

/-- A store to a line drops every leaf result and pointer entry filled from it, in every slice recorded as a walker sharer (R107). -/
def State.dropWalks (s : State) (line : Nat) : State :=
  let d := s.dir line
  if d.walkers = [] then s
  else
    let s := d.walkers.foldl (fun s w =>
      let x := s.slice w.1 w.2.1 w.2.2
      s.setSlice w.1 w.2.1 w.2.2 { x with leaves := x.leaves.filter (fun l => lineOf l.eaddr != line),
                                          ptrs := x.ptrs.filter (fun e => lineOf e.eaddr != line) }) s
    (s.setDir line { s.dir line with walkers := [] }).pruneRemotes line

end Sys2Proof.Machine
end

