-- ==== Sys2Proof/Machine/Phys.lean ====
section
/-! DEFINITION. What holds the bytes of a physical place: the pool window with its regions, dirty lines and quarantine (R83 to R96), lost
lines and words (R154, R185), range tables (R194 to R197), the trace ring (R192) and the scratchpads (R190). -/

namespace Sys2Proof.Machine
open Sys2Proof

/-! ## The pool window (R84 to R96) -/

/-- The region that a class-01 offset belongs to (R85); none from the moment its disabling begins (R86). -/
def State.regionAt (s : State) (node off : Nat) : Option (Nat × Region) :=
  (s.pkg node).regions.find? (fun e => e.2.en && !e.2.detaching &&
    decide (e.2.base * 2 ^ 28 ≤ off ∧ off < (e.2.base + e.2.size) * 2 ^ 28))

/-- The region that a class-01 line's write-backs go to: also one whose disabling has begun (R86). -/
def State.regionHome (s : State) (node off : Nat) : Option (Nat × Region) :=
  (s.pkg node).regions.find? (fun e => e.2.en && decide (e.2.base * 2 ^ 28 ≤ off ∧ off < (e.2.base + e.2.size) * 2 ^ 28))

/-- Region `n` of a package (R84). -/
def State.region (s : State) (node n : Nat) : Region := tget Region.reset (s.pkg node).regions n
/-- Replaces region `n`. -/
def State.setRegion (s : State) (node n : Nat) (r : Region) : State :=
  s.setPkg node { s.pkg node with regions := tset (s.pkg node).regions n r }

/-- The device byte behind offset `off` of region `r` (R85). -/
def State.devKey (s : State) (node : Nat) (r : Region) (off : Nat) : Nat :=
  2 ^ 58 + ((s.pkg node).poolDev.toList.getD r.port 0) * 2 ^ 64 + (r.link * 2 ^ 28 + (off - r.base * 2 ^ 28))

/-- Copies the masked bytes of a line from `src` to `dst`, byte `i` on. -/
def copyMasked (m : List Host.Cell) (src dst : Nat) (mask : BitVec 64) : Nat → List Host.Cell
  | 0 => m
  | i + 1 =>
    let m := if mask.getLsbD i then memSet m (dst + i) (memGet m (src + i)) else m
    copyMasked m src dst mask i

/-- Clears `n` bytes at `a`. -/
def memZero (m : List Host.Cell) (a : Nat) : Nat → List Host.Cell
  | 0 => m
  | n + 1 => memZero (memSet m (a + n) 0) a n

/-- The bytes of a class-01 line that its package holds and its device has not acknowledged: dirty, or sent and not completed (R89, R92). -/
def Pkg.poolMask (p : Pkg) (line : Nat) : BitVec 64 := tget (0 : BitVec 64) p.poolDirty line ||| tget (0 : BitVec 64) p.poolSent line

/-- Every store to a class-01 line that no newer dirty byte hides is performed at the device (R89): no fence of its context waits for it. One that
a loss has moved into a quarantine stays to be reported (R95). -/
def State.poolDone (s : State) (line : Nat) : State :=
  { s with ctxs := tmap s.ctxs (fun _ c =>
      { c with poolStores := c.poolStores.filter (fun (p : Word × Nat) => lineOf p.2 != line || c.poolLost.contains p) }) }

/-- A class-01 line's bytes are written back and the device has completed the write: the line is clean (R87, R89). -/
def State.poolClean (s : State) (node line : Nat) : State :=
  let mask := (s.pkg node).poolMask line
  if mask = 0 then s
  else match s.regionHome node (paOff line) with
    | none => s
    | some (_, r) =>
      let s := { s with mem := memZero (copyMasked s.mem line (s.devKey node r (paOff line)) mask 64) line 64 }
      (s.setPkg node { s.pkg node with poolDirty := tdel (s.pkg node).poolDirty line, poolSent := tdel (s.pkg node).poolSent line }).poolDone line

/-- The home sends a line's dirty bytes with MemWr and keeps the line cached, clean; the device's completion comes with POOL_DEVICE_RESPONSE
(R89). -/
def State.poolSend (s : State) (node line : Nat) : State :=
  let p := s.pkg node
  match tfind p.poolDirty line with
  | none => s
  | some mask =>
    ((s.cleanCopies line).setPkg node { p with poolDirty := tdel p.poolDirty line, poolSent := tset p.poolSent line (mask ||| tget 0 p.poolSent line) }).enq
      .poolDeviceResponse { node := node, pa := line, flag := true }

/-- The completion of a line's MemWr (R89): its bytes are at the device. -/
def State.poolComplete (s : State) (node line : Nat) : State :=
  let p := s.pkg node
  match tfind p.poolSent line, s.regionHome node (paOff line) with
  | some mask, some (_, r) =>
    let m := copyMasked s.mem line (s.devKey node r (paOff line)) mask 64
    let s := { s with mem := if (tfind p.poolDirty line).isSome then m else memZero m line 64 }
    s.setPkg node { p with poolSent := tdel p.poolSent line }
  | _, _ => s

/-! ## Lost lines and words -/

/-- Bits `lo .. lo + n - 1` of a 64-bit mask. -/
def byteMask (lo n : Nat) : BitVec 64 := BitVec.ofNat 64 ((2 ^ n - 1) * 2 ^ lo)

/-- A line with these bytes rewritten since its loss is LOST until all 64 are (R154). -/
def State.setLost (s : State) (pl : Nat) (m : BitVec 64) : State :=
  { s with lost := if m = BitVec.allOnes 64 then tdel s.lost pl else tset s.lost pl m }

/-- Records a physical line as lost (R64, R154); dirty bytes still in a cache count as rewritten when they merge. -/
def State.markLost (s : State) (pl : Nat) : State := s.setLost pl (s.dirtyMask pl)

/-- A write of bytes `a .. a + n - 1` inside one line counts toward leaving LOST (R154). -/
def State.lostWrite (s : State) (a n : Nat) : State :=
  match tfind s.lost (lineOf a) with
  | none => s
  | some m => s.setLost (lineOf a) (m ||| byteMask (a % 64) n)

/-- The lost 8-byte words that a scratchpad range touches (R185). -/
def State.lostWordIn (s : State) (a n : Nat) : Bool :=
  s.lostWords.any (fun e => decide (e.1 * 8 < a + n ∧ a < e.1 * 8 + 8))

/-- A scratchpad write replaces bytes of lost words; a word whose 8 bytes have all been replaced is no longer lost (R185). -/
def State.lostWordWrite (s : State) (a n : Nat) : State :=
  let put := fun (k : Nat) (m : BitVec 8) => m ||| (List.range 8).foldl (fun m i =>
    if a ≤ k * 8 + i ∧ k * 8 + i < a + n then m ||| BitVec.ofNat 8 (2 ^ i) else m) 0
  { s with lostWords := (tmap s.lostWords put).filter (fun e => e.2 != BitVec.allOnes 8) }

/-! ## Stores at the home (R107, R123, R154) -/

/-- A write of `n` bytes of HBM inside one line, performed at its home (R123, R154, R107). -/
def State.hbmWrite (s : State) (a n v : Nat) : State :=
  let s := s.dropWalks (lineOf a)
  (({ s with mem := memWrite s.mem a n v } : State).lostWrite a n)

/-! ## Pool accesses -/

/-- The device byte behind a class-01 line of a package, where an attached region holds it. -/
def State.devOf (s : State) (line : Nat) : Option Nat :=
  match s.regionHome (paNode line) (paOff line) with
  | some (_, r) => if r.st = .attached then some (s.devKey (paNode line) r (paOff line)) else none
  | none => none

/-- The class-01 lines under which the other packages that attach the device have the same bytes, with their packages (R87). -/
def State.poolAliases (s : State) (node line : Nat) : List (Nat × Nat) :=
  match s.regionAt node (paOff line) with
  | none => []
  | some (_, r) =>
    let key := s.devKey node r (paOff line)
    (s.group.filter (fun m => m != node)).flatMap (fun m =>
      ((s.pkg m).regions.filter (fun e => e.2.en && e.2.st == .attached && decide (s.devKey m e.2 (e.2.base * 2 ^ 28) ≤ key ∧
          key < s.devKey m e.2 (e.2.base * 2 ^ 28) + e.2.size * 2 ^ 28))).map (fun e =>
        (m, m * 2 ^ 46 + 2 ^ 44 + (e.2.base * 2 ^ 28 + (key - s.devKey m e.2 (e.2.base * 2 ^ 28))))))

/-- The device snoops the other packages that attach it before this package takes a line (R87): dirty bytes are written back,
and their copies are dropped when this package writes, what their walkers have read from the line too (R107). -/
def State.poolSnoop (s : State) (node line : Nat) (write : Bool) : State :=
  (s.poolAliases node line).foldl (fun s x =>
    let s := (s.merge x.2).poolClean x.1 x.2
    if write then (s.recall x.2 none).dropWalks x.2 else s) s

/-- A byte of a class-01 line as the package sees it: its own dirty byte, else one that another package holds, which the device snoops (R87), else
the device's. -/
def State.poolByte (s : State) (node : Nat) (r : Region) (pa : Nat) : Byte :=
  if ((s.pkg node).poolMask (lineOf pa)).getLsbD (pa % 64) then memGet s.mem pa
  else match (s.poolAliases node (lineOf pa)).find? (fun x => ((s.pkg x.1).poolMask x.2).getLsbD (pa % 64)) with
    | some x => memGet s.mem (x.2 + pa % 64)
    | none => memGet s.mem (s.devKey node r (paOff pa))

/-- `n` bytes of a class-01 line. -/
def State.poolRead (s : State) (node : Nat) (r : Region) (pa : Nat) : Nat → Nat
  | 0 => 0
  | n + 1 => (s.poolByte node r pa).toNat + 256 * s.poolRead node r (pa + 1) n

/-- A store to a class-01 line: its bytes are dirty until they are written back (R89); it counts toward leaving LOST (R154), and drops what
walkers have read from the line (R107). -/
def State.poolWrite (s : State) (node pa n v : Nat) : State :=
  let s := (s.dropWalks (lineOf pa)).lostWrite pa n
  let p := s.pkg node
  let m := tget (0 : BitVec 64) p.poolDirty (lineOf pa) ||| byteMask (pa % 64) n
  ({ s with mem := memWrite s.mem pa n v } : State).setPkg node { p with poolDirty := tset p.poolDirty (lineOf pa) m }

/-- The first access that fails after a region left ATTACHED (R92). -/
def Region.firstFail (r : Region) (store : Bool) (pa : Nat) : Region :=
  if r.ffv then r else { r with ffv := true, ffkind := store, ffaddr := pa }

/-- A failed access that names its region is the region's first failing access, unless an earlier one stands (R92). -/
def State.noteFail (s : State) (t : TrapInfo) : State :=
  match t.ff with
  | some (node, n, pa) => s.setRegion node n ((s.region node n).firstFail false pa)
  | none => s

/-- Bytes `i .. ` of a line's data with the masked bytes of `d` put in. -/
def mergeLine (old new : BitVec 512) (mask : BitVec 64) : BitVec 512 :=
  let full : Nat := (List.range 64).foldl (fun a i => if mask.getLsbD i then a + 255 * 256 ^ i else a) 0
  (old &&& ~~~(BitVec.ofNat 512 full)) ||| (new &&& BitVec.ofNat 512 full)

/-- A line enters the quarantine (R92): merged into one already held, else held while there are fewer than 64, else dropped and
counted. -/
def Region.quarantine (r : Region) (line : Nat) (mask : BitVec 64) (data : BitVec 512) (unc : Bool) : Region :=
  let data := mergeLine 0 data mask
  if r.quar.any (fun q => q.line == line) then
    { r with quar := r.quar.map (fun q => if q.line == line then
        { q with mask := q.mask ||| mask, data := mergeLine q.data data mask, unc := q.unc || unc } else q) }
  else if r.quar.length < 64 then { r with quar := r.quar ++ [(⟨unc, line, mask, data⟩ : QLine)] }
  else { r with dropped := min (r.dropped + 1) 0xFFFFFFFF }

/-- A store to a line of a LOST or REATTACHING region retires into the quarantine (R92, R93). -/
def State.poolQuarantine (s : State) (node n : Nat) (pa len v : Nat) : State :=
  let r := s.region node n
  let r := r.quarantine (lineOf pa) (byteMask (pa % 64) len) (BitVec.ofNat 512 (v * 256 ^ (pa % 64))) false
  s.setRegion node n (r.firstFail true pa)

/-- Insertion into an ascending list. -/
def insertAsc (a : Nat) : List Nat → List Nat
  | [] => [a]
  | b :: r => if a ≤ b then a :: b :: r else b :: insertAsc a r
/-- The list in ascending order. -/
def sortAsc (l : List Nat) : List Nat := l.foldr insertAsc []

/-- The lines of a package in the range of a region. -/
def Region.holds (r : Region) (node pa : Nat) : Bool :=
  decide (paClass pa = 1 ∧ paNode pa = node ∧ r.base * 2 ^ 28 ≤ paOff pa ∧ paOff pa < (r.base + r.size) * 2 ^ 28)

/-- Every copy of a region's lines goes, the instruction caches' too (R86, R92). -/
def State.purgeRegion (s : State) (node : Nat) (r : Region) : State :=
  let s := s.purge (r.holds node)
  { s with cores := tmap s.cores (fun _ q => { q with icache := q.icache.filter (fun l => !r.holds node l.pline) }) }

/-- Steps 3 and 4 of R92 for one line: what was sent and not completed, then what is dirty. Each is a failing store (R92). -/
def Region.loseLine (r : Region) (p : Pkg) (mem : List Host.Cell) (l : Nat) : Region :=
  let data := BitVec.ofNat 512 (memRead mem l 64)
  let r := match tfind p.poolSent l with
    | some m => (r.quarantine l m data true).firstFail true l
    | none => r
  match tfind p.poolDirty l with
  | some m => (r.quarantine l m data false).firstFail true l
  | none => r

/-- A region of a package leaves ATTACHED or REATTACHING for LOST (R91, R92): its lines in flight and its dirty lines enter the quarantine in
ascending order, every copy is invalidated, and each context of the package whose stores were among them has them to report (R95). The first line
that enters counts as a failing access, a store (log entry 45). A detach under way is off (DESIGN CHOICE, log entry 49). -/
def State.regionLost (s : State) (node n : Nat) : State :=
  let r := s.region node n
  if !(r.en && (r.st == .attached || r.st == .reattaching)) then s else
  let p := s.pkg node
  let lines := sortAsc (((p.poolDirty ++ p.poolSent.filter (fun e => (tfind p.poolDirty e.1).isNone)).filter (fun e => r.holds node e.1)).map (·.1))
  let r' := lines.foldl (fun r l => r.loseLine p s.mem l) { r with st := .lost, detaching := false }
  let s := { s with mem := lines.foldl (fun m l => memZero m l 64) s.mem }
  let s := s.setPkg node { s.pkg node with poolDirty := p.poolDirty.filter (fun e => !r.holds node e.1),
                                           poolSent := p.poolSent.filter (fun e => !r.holds node e.1) }
  let s := s.purgeRegion node r
  let s := { s with ctxs := tmap s.ctxs (fun k c =>
    if k.node = node then { c with poolLost := c.poolLost ++ c.poolStores.filter (fun (p : Word × Nat) => lines.contains (lineOf p.2)) }
    else c) }
  s.setRegion node n r'

/-! ## Range tables (R194 to R197) -/

/-- A VA range, in its space: the space as R198 codes it and its first offset. A global VA is space 0. -/
def vaSpace (va : Nat) : Nat × Nat :=
  if fieldN va 48 8 = 0xFE then (fieldN va 29 3 + 1, if fieldN va 29 3 = 3 then fieldN va 0 29 else fieldN va 0 25) else (0, va)

/-- `[lo, lo + n)` of a space overlaps the entry (R195). -/
def RangeEnt.hits (e : RangeEnt) (space : Nat) (asid : BitVec 16) (lo n : Nat) : Bool :=
  e.space == space && (space != 0 || e.asid == asid) && decide (e.lo < lo + n ∧ lo < e.hi)

/-- The polder that an aperture VA names: 0xFF is the issuing polder (N02, R98). -/
def aperturePolder (va own : Nat) : Nat := if fieldN va 40 8 = 0xFF then own else fieldN va 40 8

/-- `range_lock_hit` of R197: the issuing polder's table, and, for a store from another polder, the table of the polder whose
scratchpad it writes, for scratchpad sources only. -/
def State.rangeLockHit (s : State) (node own : Nat) (asid : BitVec 16) (va n : Nat) : Bool :=
  let (sp, lo) := vaSpace va
  let p := aperturePolder va own
  if sp ≠ 0 ∧ p ≠ own then (s.polder node p).rl.any (fun e => e.kind == 1 && e.space == sp && e.hits sp asid lo n)
  else (s.polder node own).rl.any (fun e => e.hits sp asid lo n)

/-- A scratchpad access meets a valid scoreboard entry of the owning polder (R196). -/
def State.scoreboardHit (s : State) (node p la n : Nat) : Bool :=
  let (sp, lo) := vaSpace (0xFE * 2 ^ 48 + la)
  (s.polder node p).sb.any (fun e => e.hits sp 0 lo n)

/-! ## The trace ring (R192, R193) -/

/-- The next piece of a write of `n` bytes at `la`: the largest power of two, up to 32, that the address is a multiple of and the write
holds. -/
def tracePiece (la n : Nat) : Nat := ([5, 4, 3, 2, 1].find? (fun k => decide (la % 2 ^ k = 0 ∧ 2 ^ k ≤ n))).getD 0

/-- An entry is written at HEAD. -/
def Ring.put (r : Ring) (e : TraceEnt) : Ring :=
  { r with ents := tset r.ents r.head e, wrap := r.wrap || (match tfind r.ents r.head with | some o => o.v | none => false),
           head := (r.head + 1) % 1024 }

/-- A write's entries in order of address, `fuel` of them at most: one for each piece of 32 bytes or less (log entry 41). -/
def Ring.record (r : Ring) (stamp : Word) (srcNode srcCore : Nat) (la n : Nat) : Nat → Ring
  | 0 => r
  | fuel + 1 =>
    if n = 0 then r
    else
      let k := tracePiece la n
      (r.put ⟨true, stamp, srcNode, srcCore, k, la⟩).record stamp srcNode srcCore (la + 2 ^ k) (n - 2 ^ k) fuel

/-- Records a write that reaches a polder's port from outside it. -/
def State.trace (s : State) (node p : Nat) (srcNode srcCore bytes la : Nat) : State :=
  let q := s.polder node p
  if !q.ring.en then s
  else s.setPolder node p { q with ring := q.ring.record (s.cycle node) srcNode srcCore la bytes bytes }

/-- A write of `n` bytes at `la` has been applied: the port delivers each value that word 1 of a barrier takes to the BBWAITs that wait on it
(R219): a recorded fault first, else the phase they name with the scope of the acquire. -/
def State.barNotify (s : State) (node p la n : Nat) : State :=
  if fieldN la 29 3 ≠ 2 then s else
  { s with ctxs := tmap s.ctxs (fun id c =>
      match c.bb with
      | some (b, ph, none) =>
        if id.node = node ∧ id.polder = p ∧ b < la + n ∧ la < b + 16 then
          let w := memRead s.mem (spadAddr node p (b + 4)) 4
          if fieldN w 1 1 = 1 then { c with bb := some (b, ph, some 8) }
          else if fieldN w 0 1 = ph.toNat then { c with bb := some (b, ph, some (max (fieldN w 4 3) 2)) }
          else c
        else c
      | _ => c) }

/-- The command reads a 32-bit counter with a byte in `[la, la + n)`: TCNT of a triggered EMMA, RCNT of a ragged one (R313). -/
def Cmd.counts (c : Cmd) (la n : Nat) : Bool :=
  let at' := fun (a : Nat) => decide (a < la + n ∧ la < a + 4)
  c.cmd == 4 && ((c.trig && at' (fieldW c.g[4] 0 32)) || (fieldW c.g[0] 19 1 == 1 && at' (fieldW c.g[3] 0 32)))

/-- A write of `n` bytes at `la` has been applied: the array reads its counters at the port as they change (R315, R317), before anything else
happens. -/
def State.counterNotify (s : State) (node p la n : Nat) : State :=
  if fieldN la 29 3 ≠ 2 then s
  else
    let a := (s.polder node p).array
    let e : Ev := { node := node, n := p }
    match a.run with
    | some c => if c.counts la n then s.nowOnce .raggedRowJoin e else s
    | none => if (a.hiQ.take 1 ++ a.loQ.take 1).any (fun c => c.counts la n) then s.nowOnce .arrayCommandStart e else s

/-- A write of `n` bytes at `la` of a polder has been applied: the waiters and the array see it. -/
def State.portSeen (s : State) (node p la n : Nat) : State := (s.barNotify node p la n).counterNotify node p la n

/-- A scratchpad write applied by the owning port (R191): the bytes, the lost words they replace, and the trace of a write from
outside the polder. `srcCore` is 0x7FF for an engine. -/
def State.spadWrite (s : State) (node p la n v : Nat) (srcNode srcPolder srcCore : Nat) : State :=
  let a := spadAddr node p la
  let s := ({ s with mem := memWrite s.mem a n v } : State).lostWordWrite a n
  let s := s.portSeen node p la n
  if srcNode = node ∧ srcPolder = p then s else s.trace node p srcNode srcCore n la

/-! ## The port (R191, R196) -/

/-- The port cannot apply an access yet: it meets a valid scoreboard entry (R196), or a store that waits there before it (R191). -/
def State.portBusy (s : State) (node p la n : Nat) : Bool :=
  s.scoreboardHit node p la n || (s.polder node p).portQ.any (fun w => decide (w.la < la + n ∧ la < w.la + w.n))

/-- An append of a stream port stands at a port before the append `w` of the same stream port, which follows it (R239). -/
def State.appendBefore (s : State) (w : PortWrite) : Bool :=
  match w.append with
  | none => false
  | some (r, k) => s.polders.any (fun e => e.2.portQ.any (fun x => x.id == w.id && x.cgen == w.cgen &&
      (match x.append with | some (r', k') => r' == r && decide (k' < k) | none => false)))

/-- An append of a context's stream port stands at a port (R237, R239, R240). -/
def State.appendWaits (s : State) (id : CtxId) (gen : BitVec 12) (r k : Nat) : Bool :=
  s.polders.any (fun e => e.2.portQ.any (fun x => x.id == id && x.cgen == gen && x.append == some (r, k)))

/-- The port applies the stores that wait, in the order of arrival, up to one that still meets the scoreboard (R191), or an append whose
stream port has an earlier one elsewhere (R239). -/
def State.portDrain (s : State) (node p : Nat) : List PortWrite → State
  | [] => s.setPolder node p { s.polder node p with portQ := [] }
  | w :: r =>
    if s.scoreboardHit node p w.la w.n || s.appendBefore w then
      (s.setPolder node p { s.polder node p with portQ := w :: r }).enq .scratchpadPortAccess { node := node, n := p, flag := true }
    else (s.spadWrite node p w.la w.n w.v w.id.node w.id.polder w.id.core).portDrain node p r

/-- A context's stores that wait at ports (R191). -/
def State.portStoresOf (s : State) (id : CtxId) (gen : BitVec 12) : Bool :=
  s.polders.any (fun e => e.2.portQ.any (fun w => w.id == id && w.cgen == gen))
/-- The same of the context's own life. -/
def State.portStores (s : State) (id : CtxId) : Bool := s.portStoresOf id (s.ctx id).gen

end Sys2Proof.Machine
end

