-- ==== Sys2Proof/Machine/Xlate.lean ====
section
/-! DEFINITION. Address translation (R98 to R110): classification of a VA, the page table, the walk, A and D, the leaf results
of the translation slices. -/

namespace Sys2Proof.Machine
open Sys2Proof

/-- Who asks for an access: the context, its address space (R99), its privilege, run-ahead (R108), or an engine (R118), and then the number
of its command (R102); the register and k of the stream port's append that makes the access (R239). -/
structure Req where
  id : CtxId
  asid : BitVec 16
  ptroot : Word
  user : Bool
  ra : Bool
  engine : Bool
  cmd : Option Nat := none
  append : Option (Nat × Nat) := none
deriving DecidableEq, Repr, Inhabited

/-- The issuing context as a requester. -/
def State.req (s : State) : Req :=
  { id := s.cur, asid := s.c.asid, ptroot := s.c.ptroot, user := s.cc.slot != 11, ra := s.c.ra, engine := false }

/-- What an access needs of a page (R106) and how TINFO codes it (R415). -/
structure Acc where
  r : Bool
  w : Bool
  x : Bool
  code : BitVec 2
deriving DecidableEq, Repr, Inhabited

/-- A read. -/
def accRead : Acc := ⟨true, false, false, 0⟩
/-- A write. -/
def accWrite : Acc := ⟨false, true, false, 1⟩
/-- An atomic or a lock: R and W. -/
def accAtomic : Acc := ⟨true, true, false, 2⟩
/-- A near-memory operation: W (R106). -/
def accNear : Acc := ⟨false, true, false, 2⟩
/-- LKREL and LKSTAT: R only (R160). -/
def accLockRead : Acc := ⟨true, false, false, 2⟩
/-- An instruction fetch. -/
def accFetch : Acc := ⟨false, false, true, 3⟩

/-- A polder aperture address (R98). -/
def isAperture (va : Nat) : Bool := fieldN va 48 8 == 0xFE
/-- The canonical form of R98. -/
def isCanonical (va : Nat) : Bool := fieldN va 56 8 == (if fieldN va 55 1 = 1 then 0xFF else 0)
/-! ## Page-table entries (R103 to R105) -/

/-- The index of a VA at a level (R103). -/
def ptIndex (va level : Nat) : Nat := fieldN va (56 - 10 * level) 10
/-- The size of a leaf page of a level (R103). -/
def pageSize (level : Nat) : Nat := 2 ^ (56 - 10 * level)
/-- A frame that no page-table node may have (R105): class 10 or 11, a node outside the fabric group, HBM beyond the limit, a
class-01 frame of another node or of no enabled region. -/
def State.badNode (s : State) (own frame : Nat) : Bool :=
  match paClass frame with
  | 0 => !(s.group.contains (paNode frame)) || decide (hbmLimit ≤ paOff frame)
  | 1 => paNode frame != own || (s.regionAt own (paOff frame)).isNone
  | _ => true

/-- A malformed entry (R105), of the level given, read for a requester of node `own`. -/
def State.malformed (s : State) (own : Nat) (e : Word) (level : Nat) : Bool :=
  if pteL e then
    level == 1 || fieldW e 11 5 != 0 || (pteW e && !pteR e) || pteClass e == 3 ||
      pteFrame e % pageSize level != 0 || (decide (2 ≤ paClass (pteFrame e)) && pteClass e != 2) ||
      (paClass (pteFrame e) == 0 && decide (hbmLimit ≤ paOff (pteFrame e)))
  else
    level == 4 || (e &&& ~~~(0x03FFFFFFFFFF0083 : Word)) != 0 || s.badNode own (pteFrame e)

/-! ## Lines that no one may read yet -/

/-- The line is NEAR-HELD: an operation on it is forwarded and not acknowledged (R65, R66). -/
def State.nmHolds (s : State) (pa : Nat) : Bool :=
  s.nmOps.any (fun o => lineOf o.pa == lineOf pa && (o.stage == .forwarded || o.stage == .applied))

/-- The line belongs to the old frame of a migration that has copied it: FROZEN (R118). -/
def State.frozen (s : State) (pa : Nat) : Bool := s.migs.any (fun m => m.copied && !m.switched && decide (m.old ≤ pa ∧ pa < m.old + m.size))

/-- A physical line is recorded LOST (R154). -/
def State.isLost (s : State) (pa : Nat) : Bool := (tfind s.lost (lineOf pa)).isSome

/-! ## The walk (R106, R107) -/

/-- How a walk ends. `failed` names the cause of a node read that failed, `held` that the home serves no read of the node's line yet. -/
inductive WalkEnd where
  | leaf | notPresent | malformed | moving | notResident | held
  | failed (c : Cause)
deriving DecidableEq, Repr, Inhabited

/-- A walk's end with the entry that ended it, its level and its address; the pointer entries on its way, and the lines it read. -/
structure Walk where
  why : WalkEnd
  entry : Word
  level : Nat
  eaddr : Nat
  ptrs : List PtrEnt := []
  lines : List Nat := []
deriving DecidableEq, Repr, Inhabited

/-- The failure of a read of a page-table node's line, if it fails: LOST lines and fenced homes (R154, R440), LOST regions (R93), a region that
is being disabled or is no more (R86). -/
def State.nodeFail (s : State) (own a : Nat) : Option Cause :=
  if paClass a = 1 then
    match s.regionAt own (paOff a) with
    | some (_, r) => if r.st ≠ .attached then some .poolRegionLost else if s.isLost a then some .dataLost else none
    | none => some .illegalAddress
  else if s.isLost a || s.cutOff own (paNode a) then some .dataLost else none

/-- An 8-byte entry at its home, dirty copies seen (R107), those of other packages that attach a pool device too (R87). -/
def State.readEntry (s : State) (own a : Nat) : Word :=
  if paClass a = 1 then
    match s.regionAt own (paOff a) with
    | some (_, r) => BitVec.ofNat 64 (s.poolRead own r a 8)
    | none => 0
  else BitVec.ofNat 64 (memRead s.mem a 8)

/-- The VA bits that choose an entry of a level. -/
def ptrKey (va level : Nat) : Nat := fieldN va (56 - 10 * level) (10 * level)

/-- The pointer entry that a slice's walk cache holds for a VA at a level (R101). -/
def Slice.ptr (x : Slice) (asid : BitVec 16) (va level : Nat) : Option PtrEnt :=
  x.ptrs.find? (fun e => e.asid == asid && e.level == level && e.key == ptrKey va level)

/-- The walk from a node, `fuel` levels deep. An entry that the slice's walk cache holds is not read again. -/
def State.walkFrom (s : State) (own : Nat) (x : Slice) (asid : BitVec 16) (va node level : Nat) : Nat → Walk
  | 0 => ⟨.malformed, 0, level, node, [], []⟩
  | fuel + 1 =>
    match x.ptr asid va level with
    | some e =>
      let w := s.walkFrom own x asid va (pteFrame e.entry) (level + 1) fuel
      { w with ptrs := e :: w.ptrs }
    | none =>
      let a := node + 8 * ptIndex va level
      if s.nmHolds a || s.frozen a then ⟨.held, 0, level, a, [], []⟩
      else match s.nodeFail own a with
        | some c => ⟨.failed c, 0, level, a, [], []⟩
        | none =>
          let e := s.readEntry own a
          let stop := fun (why : WalkEnd) => (⟨why, e, level, a, [], [lineOf a]⟩ : Walk)
          if !pteV e then stop .notPresent
          else if s.malformed own e level then stop .malformed
          else if pteL e then stop .leaf
          else if pteM e then stop .moving
          else if !pteR e then stop .notResident
          else
            let w := s.walkFrom own x asid va (pteFrame e) (level + 1) fuel
            { w with ptrs := ⟨asid, level, ptrKey va level, e, a⟩ :: w.ptrs, lines := lineOf a :: w.lines }

/-- The slice that translates a VA for a requester (R100). -/
def State.xslice (s : State) (q : Req) (va : Nat) : Nat := s.sliceOf q.id.node q.id.die q.asid (granOf va)

/-- The walk of a VA for a requester (R99, R105, R106). A malformed PTROOT ends it at level 1 with an entry of zeros, for none was read
(log entry 42). -/
def State.walk (s : State) (q : Req) (va : Nat) : Walk :=
  let node := fieldW q.ptroot 16 42 * 65536
  if s.badNode q.id.node node then ⟨.malformed, 0, 1, node, [], []⟩
  else s.walkFrom q.id.node (s.slice q.id.node q.id.die (s.xslice q va)) q.asid va node 1 4

/-- The leaf result that a page's pin keeps for an engine command (R102). -/
def State.pinned (s : State) (q : Req) (va : Nat) : Option Leaf :=
  match q.cmd with
  | none => none
  | some no => (s.pins.find? (fun p => p.cmd == no && p.node == q.id.node && p.die == q.id.die && p.leaf.asid == q.asid &&
      p.leaf.gran == granOf va)).map (·.leaf)

/-- The leaf for a VA: the one a pin keeps, the slice's leaf result, or what a walk finds (R106). -/
def State.lookup (s : State) (q : Req) (va : Nat) : Walk :=
  match (s.pinned q va).or ((s.slice q.id.node q.id.die (s.xslice q va)).leaves.find? (fun l => l.asid == q.asid && l.gran == granOf va)) with
  | some l => ⟨.leaf, l.entry, l.level, l.eaddr, [], []⟩
  | none => s.walk q va

/-- A walker has read a line of a page table: as for any read, a holder's dirty bytes are merged first, and the other packages that attach a
pool device are snooped (R87, R107, R121). -/
def State.walkerRead (s : State) (q : Req) (t line : Nat) : State :=
  let s := if paClass line = 1 then s.poolSnoop q.id.node line false else s
  (s.merge line).walkerReads line q.id.node q.id.die t

/-- The slice fills its caches from a walk (R101, R106), and the homes of the lines it read record it as a walker sharer (R107). -/
def State.fillWalk (s : State) (q : Req) (va : Nat) (w : Walk) : State :=
  let t := s.xslice q va
  let s := w.lines.foldl (fun s l => s.walkerRead q t l) s
  let x := w.ptrs.foldl (fun x e => x.putPtr e) (s.slice q.id.node q.id.die t)
  let s := if w.ptrs = [] then s else s.setSlice q.id.node q.id.die t x
  match w.why with
  | .leaf =>
    if (x.leaves.any (fun l => l.asid == q.asid && l.gran == granOf va)) || (s.pinned q va).isSome then s
    else s.setDie q.id.node q.id.die ((s.die q.id.node q.id.die).putLeaf t ⟨q.asid, granOf va, w.entry, w.level, w.eaddr, Vector.replicate 4 0⟩)
  | _ => s

/-! ## Leaf results (R101, R116) -/

/-- A request through the leaf counts for the requester's quadrant (R116). -/
def Leaf.count (l : Leaf) (q : Nat) : Leaf :=
  { l with counts := Vector.ofFn (fun (i : Fin 4) => if i.val = q then min (l.counts[i] + 1) 65535 else l.counts[i]) }

/-- What the requester's instruction, or the unit of its command, keeps between its attempts. A re-translation of a context's near-memory
operation keeps nothing. -/
def State.tryOf (s : State) (q : Req) : Try :=
  match q.cmd with
  | some no => tget ⟨none, []⟩ s.tries no
  | none => if q.engine then ⟨none, []⟩ else ⟨(s.ctx q.id).arrived, (s.ctx q.id).surveyed⟩

/-- Replaces what a requester keeps between its attempts. -/
def State.setTry (s : State) (q : Req) (t : Try) : State :=
  match q.cmd with
  | some no => { s with tries := tset s.tries no t }
  | none => if q.engine then s else s.setCtx q.id { s.ctx q.id with arrived := t.arrived, surveyed := t.surveyed }

/-- An attempt is over, and the next one makes its requests again. -/
def retrySurvey (l : List (Nat × Bool)) : List (Nat × Bool) := l.map (fun e => (e.1, false))

/-- A request is translated through the leaf that its slice holds: it counts once (R116), however often its instruction, or its command's
unit, tries it; two requests of one attempt for the same VA are two. -/
def State.countLeaf (s : State) (q : Req) (va : Nat) : State :=
  let t := s.xslice q va
  match (s.slice q.id.node q.id.die t).leaves.find? (fun l => l.asid == q.asid && l.gran == granOf va) with
  | none => s
  | some l =>
    let y := s.tryOf q
    let again := y.surveyed.contains (va, false)
    let s := s.setSlice q.id.node q.id.die t ((s.slice q.id.node q.id.die t).putLeaf (if again then l else l.count (quadrant q.id.polder)))
    s.setTry q { y with surveyed := (va, true) :: (if again then y.surveyed.erase (va, false) else y.surveyed) }

/-- A second translation of a VA belongs to the request that has just been translated: it is not counted again (R116). -/
def State.sameRequest (s : State) (q : Req) (va : Nat) : State :=
  let y := s.tryOf q
  if y.surveyed.contains (va, true) then s.setTry q { y with surveyed := (va, false) :: y.surveyed.erase (va, true) } else s

/-- The engine command has translated this page and pins it (R102) until its last access to it. -/
def State.pinPage (s : State) (q : Req) (va : Nat) (l : Leaf) : State :=
  match q.cmd with
  | none => s
  | some no => if (s.pinned q va).isSome then s else { s with pins := s.pins ++ [⟨q.id.node, q.id.die, s.xslice q va, no, l⟩] }

/-- A command has performed its last access: it pins nothing (R102), no wait of it is late, and it stands in no home's queue. -/
def State.unpin (s : State) (no : Nat) : State :=
  { s with pins := s.pins.filter (fun p => p.cmd != no), late := s.late.filter (fun n => n != no), tries := tdel s.tries no }

/-- The command pins no page any more that none of its accesses to come touches (R102, R208): `touches` tells of `n` bytes at a VA. -/
def State.pinsDone (s : State) (no : Nat) (touches : Nat → Nat → Bool) : State :=
  { s with pins := s.pins.filter (fun p => p.cmd != no || touches (p.leaf.gran * 65536) 65536) }

/-- The time-out of the requester's wait has passed: for a slot its own, for an engine command that of its walk (R106). -/
def State.timedOut (s : State) (q : Req) : Bool :=
  if q.engine then (match q.cmd with | some no => s.late.contains no | none => false) else (s.ctx q.id).expired

/-- A migration has set M in the leaf and not yet made the switch (R118). -/
def State.moving (s : State) (eaddr : Nat) : Bool := s.migs.any (fun m => m.eaddr == eaddr && !m.switched)

/-- The home applies the OR of A, or of A and D, if the entry still has V, L and the GEN and FRAME the walker read, and no migration of the
page is between its step 1 and its switch (R109, R119); `none` when it applies nothing. Leaf results of the entry see the new bits. -/
def State.setAd (s : State) (own eaddr : Nat) (e : Word) (d : Bool) : Option State :=
  let cur := s.readEntry own eaddr
  if (s.nodeFail own eaddr).isNone && pteV cur && pteL cur && !s.moving eaddr && pteGen cur == pteGen e && pteFrame cur == pteFrame e then
    let new := cur ||| (if d then 0x60 else 0x20)
    let seen := fun (l : Leaf) => if l.eaddr = eaddr then ({ l with entry := new } : Leaf) else l
    let s : State := { s with dies := tmap s.dies (fun _ q => { q with slices := tmap q.slices (fun _ x => { x with leaves := x.leaves.map seen }) }),
                              pins := s.pins.map (fun p => { p with leaf := seen p.leaf }) }
    let s := if paClass eaddr = 1 then s.poolSnoop own (lineOf eaddr) true else s
    let s : State := { s with mem := memWrite s.mem eaddr 8 new.toNat }
    let p := s.pkg own
    let mask := tget (0 : BitVec 64) p.poolDirty (lineOf eaddr) ||| byteMask (eaddr % 64) 8
    some (if paClass eaddr = 1 then s.setPkg own { p with poolDirty := tset p.poolDirty (lineOf eaddr) mask } else s)
  else none

/-- The leaf results and pins of an entry that an OR was refused at go: the slice walks again (R109). -/
def State.dropLeaf (s : State) (eaddr : Nat) : State :=
  { s with dies := tmap s.dies (fun _ d => { d with slices := tmap d.slices (fun _ x => { x with leaves := x.leaves.filter (fun l => l.eaddr != eaddr) }) }),
           pins := s.pins.filter (fun p => p.leaf.eaddr != eaddr) }

/-- What `translate` returns: the physical address, the entry's GEN and CLASS, its level, entry and address. -/
structure Xlated where
  pa : Nat
  gen : Nat
  cls : Nat
  level : Nat
  entry : Word
  eaddr : Nat
deriving DecidableEq, Repr, Inhabited

/-- A trap of a translation. -/
def xtrap {α : Type} (c : Cause) (tval : Nat) (a : Acc) (wlev : Nat) : Except Stop α :=
  .error (.trap { cause := c, tval := BitVec.ofNat 64 tval, acc := a.code, wlev := BitVec.ofNat 3 wlev })

/-- The failure of a page-table node that lies in a LOST region names the region for its first-failure record (R92): the node's address, and
the kind of the access that failed, the walk's read, also where a store asks for the walk (DESIGN CHOICE, log entry 49). -/
def State.nodeTrap {α : Type} (s : State) (own : Nat) (c : Cause) (va : Nat) (a : Acc) (w : Walk) : Except Stop α :=
  .error (.trap { cause := c, tval := BitVec.ofNat 64 va, acc := a.code, wlev := BitVec.ofNat 3 w.level,
                  ff := if c = .poolRegionLost then (s.regionAt own (paOff w.eaddr)).map (fun r => (own, r.1, w.eaddr)) else none })

/-- The leaf for an access, with the caches filled (R106). A walk that meets a pointer being moved waits, and raises PAGE_MIGRATING once its
time-out has passed. -/
def State.findLeaf (s : State) (q : Req) (va : Nat) (a : Acc) : Except Stop (State × Walk) :=
  let w := s.lookup q va
  match w.why with
  | .leaf => .ok (s.fillWalk q va w, w)
  | .notPresent => xtrap .pageNotPresent va a 0
  | .malformed => xtrap .pagePermission va a w.level
  | .moving => if s.timedOut q then xtrap .pageMigrating va a 0 else .error (.wait .migration s)
  | .held => .error (.wait .resource s)
  | .notResident => .error (.trap { cause := .walkNodeFault, tval := BitVec.ofNat 64 (va / 8 * 8 + (w.level + 1)), acc := a.code,
                                    wlev := BitVec.ofNat 3 (w.level + 1), va := some (BitVec.ofNat 64 va) })
  | .failed c => s.nodeTrap q.id.node c va a w

/-- The physical address of a VA under a leaf. -/
def Leaf.pa (l : Leaf) (va : Nat) : Nat := pteFrame l.entry + va % pageSize l.level

/-- A permission fault of a translation: the fill that came before it stays (R106). -/
def permTrap {α : Type} (va : Nat) (a : Acc) : Except Stop α :=
  .error (.trap { cause := .pagePermission, tval := BitVec.ofNat 64 va, acc := a.code, fill := some va })

/-- `translate` of R106 for a canonical VA outside the aperture. -/
def State.translate (s : State) (q : Req) (va : Nat) (a : Acc) : Except Stop (State × Xlated) := do
  let (s, w) ← s.findLeaf q va a
  let e := w.entry
  if q.user && !pteU e then permTrap va a
  else if (a.r && !pteR e) || (a.w && !pteW e) || (a.x && !pteX e) then permTrap va a
  else
    let l : Leaf := ⟨q.asid, granOf va, e, w.level, w.eaddr, Vector.replicate 4 0⟩
    let x : Xlated := ⟨l.pa va, pteGen e, pteClass e, w.level, e, w.eaddr⟩
    if q.ra && !pteA e && !a.x then
      -- a run-ahead helper's prefetch is discarded; the translation cache and the survey have it (R108)
      .error (.trapKeep { cause := .pagePermission, tval := BitVec.ofNat 64 va, acc := a.code } (s.countLeaf q va))
    else if (!pteA e || (a.w && !pteD e)) && !q.ra then
      if s.nmHolds w.eaddr || s.frozen w.eaddr then .error (.wait .resource s)
      else match s.setAd q.id.node w.eaddr e a.w with
        | some s => .ok ((s.countLeaf q va).pinPage q va l, x)
        | none => .error (.wait .resource (s.dropLeaf w.eaddr))
    else .ok ((s.countLeaf q va).pinPage q va l, x)

/-- A translation whose access failed by its permissions leaves its fill in the slice's caches (R106). -/
def State.keepFill (s : State) (q : Req) (va : Nat) : State :=
  let w := s.lookup q va
  if w.why = .leaf then s.fillWalk q va w else s

/-- A later part of an engine's access fails, and what the parts before it did stays: fills, counts, A and D (R106, R109, R116). -/
def State.keeping {α : Type} (s : State) (q : Req) (r : Except Stop α) : Except Stop α :=
  match r with
  | .error (.trap t) => .error (.trapKeep { t with fill := none } (match t.fill with | some va => s.keepFill q va | none => s))
  | r => r

/-- What an access of alignment `n` that is discarded leaves of its translation: the caches filled, the request counted if it was translated (R106,
R108). -/
def State.prefill (s : State) (q : Req) (va n : Nat) : State :=
  if isAperture va || !isCanonical va || va % n != 0 then s
  else match s.translate q va accRead with
    | .ok (s, _) => s
    | .error (.trapKeep _ s) => s
    | .error (.wait _ s) => s
    | .error (.trap _) => s.keepFill q va

end Sys2Proof.Machine
end

