-- ==== Sys2Proof/Machine/Region.lean ====
section
/-! DEFINITION. The region table (R84 to R86, R96): writes of an entry's words, commands, and the read map; the trace ring's
control register (R193) and the tables of R198. -/

namespace Sys2Proof.Machine
open Sys2Proof

/-- STATE as R84 codes it. -/
def RegionState.code : RegionState → Nat
  | .free => 0 | .attached => 1 | .lost => 2 | .reattaching => 3

/-- An entry's words as a read returns them (R84). -/
def Region.word (r : Region) (i : Nat) : Nat :=
  match i with
  | 0 => r.en.toNat * 2 ^ 63 + r.port * 2 ^ 58 + r.st.code * 2 ^ 56 + r.base * 2 ^ 28 + r.size
  | 1 => r.link * 2 ^ 28
  | 2 => r.dropped * 2 ^ 32 + r.quar.length * 2 ^ 16 + r.ffv.toNat * 8 + r.cfgerr.toNat * 4
  | 3 => r.ffkind.toNat * 2 ^ 63 + r.ffaddr
  | _ => 0

/-- The write or command is rejected (R84). -/
def State.regionErr (s : State) (node n : Nat) : State := s.setRegion node n { s.region node n with cfgerr := true }

/-- Two ranges of 256 MiB units overlap. -/
def unitsOverlap (b1 n1 b2 n2 : Nat) : Bool := decide (b1 < b2 + n2 ∧ b2 < b1 + n1)

/-- The zero fields of word 0 (R84). -/
def regionZero0 (v : Nat) : Bool := fieldN v 60 3 == 0 && fieldN v 44 12 == 0 && fieldN v 16 12 == 0

/-- A write of word 0 with EN = 1 to a FREE entry attaches it, or is rejected (R86). -/
def State.regionEnable (s : State) (node n v : Nat) : State :=
  let r := s.region node n
  let base := fieldN v 28 16
  let size := fieldN v 0 16
  let port := fieldN v 58 2
  if r.st = .free ∧ fieldN v 63 1 = 1 ∧ regionZero0 v ∧ size ≠ 0 ∧ base + size ≤ 65536 ∧
      !((s.pkg node).regions.any (fun e => e.1 != n && e.2.en && unitsOverlap base size e.2.base e.2.size)) ∧
      (s.pkg node).poolUp.toList.getD port false = true then
    s.setRegion node n { r with en := true, port := port, base := base, size := size, st := .attached, cfgerr := false }
  else s.regionErr node n

/-- A write of word 0 with EN = 0 to an ATTACHED entry: new accesses raise ILLEGAL_ADDRESS from now on; the write-back ends with
REGION_DETACH_DONE (R86). A second such write while the entry is still detaching is rejected (DESIGN CHOICE, log entry 49). -/
def State.regionDisable (s : State) (node n v : Nat) : State :=
  let r := s.region node n
  if r.st = .attached ∧ fieldN v 63 1 = 0 ∧ regionZero0 v ∧ !r.detaching then
    (s.setRegion node n { r with detaching := true, cfgerr := false }).enq .regionDetachDone { node := node, n := n }
  else s.regionErr node n

/-- A write of word 0 (R86). -/
def State.regionWrite0 (s : State) (node n v : Nat) : State :=
  let r := s.region node n
  if r.st = .free then
    if fieldN v 63 1 = 1 then s.regionEnable node n v
    else if regionZero0 v then
      s.setRegion node n { r with port := fieldN v 58 2, base := fieldN v 28 16, size := fieldN v 0 16, cfgerr := false }
    else s.regionErr node n
  else s.regionDisable node n v

/-- A write of word 1 (R84, R86): only while the entry is FREE. -/
def State.regionWrite1 (s : State) (node n v : Nat) : State :=
  let r := s.region node n
  if r.st = .free ∧ fieldN v 0 28 = 0 then s.setRegion node n { r with link := fieldN v 28 36, cfgerr := false }
  else s.regionErr node n

/-- CMD = REATTACH (R96). -/
def State.regionReattach (s : State) (node n : Nat) : State :=
  let r := s.region node n
  if r.st = .lost ∧ (s.pkg node).poolUp.toList.getD r.port false = true then
    s.setRegion node n { r with st := .reattaching, cfgerr := false }
  else s.regionErr node n

/-- The held lines are dropped and counted (R96). -/
def Region.dropHeld (r : Region) : Region :=
  { r with dropped := min (r.dropped + r.quar.length) 0xFFFFFFFF, quar := [] }

/-- CMD = RELEASE (R96). -/
def State.regionRelease (s : State) (node n : Nat) : State :=
  let r := s.region node n
  if r.st = .lost then s.setRegion node n { r.dropHeld with st := .free, en := false, cfgerr := false }
  else s.regionErr node n

/-- CMD = CLEARLOG (R96). -/
def State.regionClearlog (s : State) (node n : Nat) : State :=
  s.setRegion node n { s.region node n with ffv := false, ffaddr := 0, ffkind := false, dropped := 0, cfgerr := false }

/-- The port's check of the device's HDM decoder ends (R96). -/
def State.regionDecoder (s : State) (node n : Nat) (ok : Bool) : State :=
  let r := s.region node n
  if r.st = .reattaching then
    if ok then s.setRegion node n { r.dropHeld with st := .attached }
    else s.setRegion node n { r with st := .lost, cfgerr := true }
  else s

/-- The region's write completions have arrived (R86): its dirty lines are at the device, its copies gone, the entry FREE. -/
def State.regionDetached (s : State) (node n : Nat) : State :=
  let r := s.region node n
  if r.st = .attached ∧ r.detaching then
    let s := (((s.pkg node).poolDirty ++ (s.pkg node).poolSent).filter (fun e => r.holds node e.1)).foldl (fun s e => s.poolClean node e.1) s
    let s := s.purgeRegion node r
    s.setRegion node n { s.region node n with en := false, st := .free, detaching := false }
  else s

/-- A write of word 2: only CMD acts (R84). -/
def State.regionWrite2 (s : State) (node n v : Nat) : State :=
  match fieldN v 4 4 with
  | 0 => s.setRegion node n { s.region node n with cfgerr := false }
  | 1 => s.regionReattach node n
  | 2 => s.regionRelease node n
  | 3 => s.regionClearlog node n
  | _ => s.regionErr node n

/-- A word of quarantine entry `q` (R94): entries at or beyond QCOUNT read 0. -/
def Region.quarWord (r : Region) (q i : Nat) : Nat :=
  match r.quar[q]? with
  | none => 0
  | some e =>
    match i with
    | 0 => e.unc.toNat * 2 ^ 63 + e.line
    | 1 => e.mask.toNat
    | i => if 8 ≤ i then fieldN e.data.toNat (64 * (i - 8)) 64 else 0

/-! ## Trace ring and range tables -/

/-- CLR of a trace ring: every V and HEAD become 0 (R193). -/
def Ring.clear (r : Ring) : Ring := { r with ents := tmap r.ents (fun _ e => { e with v := false }), head := 0 }

/-- A write of a trace ring's control register (R193). -/
def State.ringWrite (s : State) (node p v : Nat) : State :=
  let q := s.polder node p
  let r := { q.ring with en := fieldN v 31 1 == 1, wrap := q.ring.wrap && fieldN v 30 1 == 1 }
  s.setPolder node p { q with ring := if fieldN v 29 1 = 1 then r.clear else r }

/-- A word of a trace-ring entry (R192). -/
def TraceEnt.word (e : TraceEnt) (i : Nat) : Nat :=
  match i with
  | 0 => e.stamp.toNat
  | _ => e.srcNode * 2 ^ 52 + e.srcCore * 2 ^ 41 + e.size * 2 ^ 38 + e.v.toNat * 2 ^ 32 + fieldN e.laddr 0 32

/-- A word at offset `o` of a polder's trace-ring window (R192, R193). -/
def Ring.word (r : Ring) (o : Nat) : Nat :=
  if o = 16384 then r.en.toNat * 2 ^ 31 + r.wrap.toNat * 2 ^ 30 + r.head
  else if o < 16384 then
    match tfind r.ents (o / 16) with
    | some e => e.word (o / 8 % 2)
    | none => 0
  else 0

/-- A word of a range-table entry (R198). -/
def RangeEnt.word (e : RangeEnt) (i : Nat) : Nat :=
  match i with
  | 0 => 2 ^ 63 + e.kind * 2 ^ 61 + e.space * 2 ^ 58 + e.asid.toNat * 2 ^ 42 + e.core * 2 ^ 39
  | 1 => e.lo
  | 2 => e.hi
  | _ => 0

/-- A word at offset `o` of a polder's range-table window (R198). -/
def Polder.rangeWord (q : Polder) (o : Nat) : Nat :=
  let k := o / 32
  match (if k < 64 then q.sb[k]? else if k < 128 then q.rl[k - 64]? else none) with
  | some e => e.word (o / 8 % 4)
  | none => 0

end Sys2Proof.Machine
end

