-- ==== Sys2Proof/Machine/Regs.lean ====
section
/-! DEFINITION. Control registers of the units (R443): communicators (R347), launch queues (R362), engine fault records (R225), the
legend units' command blocks (R392), the error log (R438). -/

namespace Sys2Proof.Machine
open Sys2Proof

/-! ## Communicators (R347) -/

/-- A communicator after reset: CHUNK = 10. -/
def Comm.reset : Comm := ⟨BitVec.ofNat 64 (10 * 2 ^ 56), 0, []⟩
/-- Communicator `c` of a package. -/
def State.comm (s : State) (node c : Nat) : Comm := tget Comm.reset (s.pkg node).comms c
/-- Replaces a communicator. -/
def State.setComm (s : State) (node c : Nat) (m : Comm) : State :=
  s.setPkg node { s.pkg node with comms := tset (s.pkg node).comms c m }
/-- EN. -/
def Comm.en (m : Comm) : Bool := fieldW m.w0 63 1 == 1
/-- PRIO. -/
def Comm.prio (m : Comm) : Nat := fieldW m.w0 60 3
/-- The chunk size in bytes. -/
def Comm.chunk (m : Comm) : Nat := 2 ^ (fieldW m.w0 56 4 + 6)
/-- KIND. -/
def Comm.kind (m : Comm) : Nat := fieldW m.w0 55 1
/-- DIE. -/
def Comm.die (m : Comm) : Nat := fieldW m.w0 52 3
/-- The number of members. -/
def Comm.size (m : Comm) : Nat := fieldW m.w0 40 12 + 1
/-- RANK. -/
def Comm.rank (m : Comm) : Nat := fieldW m.w0 28 12
/-- GROUP. -/
def Comm.group (m : Comm) : Nat := fieldW m.w0 16 12

/-- A write of word 0 (R347): rejected, with CFGERR, or taken; clearing EN stops the pending collectives. -/
def State.commWrite (s : State) (node c v : Nat) : State :=
  let m := s.comm node c
  let v := v - fieldN v 1 1 * 2
  let old := m.w0.toNat - fieldW m.w0 1 1 * 2
  let bad := fieldN v 2 14 != 0 || fieldN v 0 1 != 0 || decide (10 < fieldN v 56 4) || (fieldN v 55 1 == 1 && decide (5 < fieldN v 40 12)) ||
    (fieldN v 55 1 == 0 && decide (5 < fieldN v 52 3)) || (m.en && v % 2 ^ 63 != old % 2 ^ 63)
  if bad then s.setComm node c { m with w0 := BitVec.ofNat 64 (old + 2) }
  else
    let s := s.setComm node c { m with w0 := BitVec.ofNat 64 v }
    if m.en && fieldN v 63 1 == 0 then s.now .communicatorDisable { node := node, n := c } else s

/-- A word of a communicator's registers. -/
def Comm.word (m : Comm) (i : Nat) : Nat := match i with | 0 => m.w0.toNat | 1 => m.done.toNat | _ => 0

/-! ## Launch queues (R362) -/

/-- A launch queue after reset: LOG2N = 1. -/
def Queue.reset : Queue := ⟨false, .idle, false, 0, 0, 1, 0, 0, 0, 0, 0, 0, 0, none, 0, [], 0⟩
/-- Queue `q` of a package. -/
def State.queue (s : State) (node q : Nat) : Queue := tget Queue.reset (s.pkg node).queues q
/-- Replaces a queue. -/
def State.setQueue (s : State) (node q : Nat) (x : Queue) : State :=
  s.setPkg node { s.pkg node with queues := tset (s.pkg node).queues q x }

/-- STATE as R362 codes it. -/
def QState.code : QState → Nat
  | .idle => 0 | .run => 1 | .draining => 2 | .aborting => 3 | .stopped => 4
/-- The state is RUN, DRAINING or ABORTING. -/
def QState.busy : QState → Bool
  | .run => true | .draining => true | .aborting => true | _ => false

/-- A word of a queue's registers; CMD reads 0. -/
def Queue.word (x : Queue) (i : Nat) : Nat :=
  match i with
  | 0 => x.en.toNat * 2 ^ 63 + x.st.code * 2 ^ 60 + x.cfgerr.toNat * 2 ^ 55 + x.fedie * 2 ^ 52 + x.fe * 2 ^ 48 + x.log2n * 2 ^ 40 + x.asid.toNat
  | 1 => x.base.toNat
  | 2 => x.ptroot.toNat
  | 3 => x.head.toNat
  | 4 => x.tail.toNat
  | 5 => x.err * 2 ^ 56
  | 6 => x.nextwid.toNat
  | _ => 0

/-- The write or command is refused (R362). -/
def State.queueErr (s : State) (node q : Nat) : State := s.setQueue node q { s.queue node q with cfgerr := true }

/-- A write of TAIL (R362): records become available. -/
def State.queueTail (s : State) (node q v : Nat) : State :=
  let x := s.queue node q
  let t := BitVec.ofNat 32 v
  if 2 ^ x.log2n < (t - x.head).toNat then s.queueErr node q
  else (s.setQueue node q { x with tail := t, cfgerr := false }).enq .recordTake { node := node, n := q }

/-- The command that CMD gives, as the next step's event (R362). -/
def State.queueCmd (s : State) (node q c : Nat) : State :=
  let e : Ev := { node := node, n := q }
  match c with
  | 1 => s.now .queueStart e
  | 2 => s.now .drain e
  | 3 => s.now .abort e
  | 4 => s.now .reset e
  | _ => s.queueErr node q

/-- A write of word 0 (R362). A nonzero field named zero refuses it, whatever it carries. A write of CMD is else the command alone (log entry 18);
another write takes the configuration, and is refused while the queue is busy. -/
def State.queueWrite0 (s : State) (node q v : Nat) : State :=
  let x := s.queue node q
  let cmd := fieldN v 56 4
  if fieldN v 44 4 ≠ 0 ∨ fieldN v 16 24 ≠ 0 then s.queueErr node q
  else if cmd ≠ 0 then s.queueCmd node q cmd
  else if x.st.busy then s.queueErr node q
  else if fieldN v 40 4 = 0 ∨ 5 < fieldN v 52 3 then s.queueErr node q
  else
    s.setQueue node q { x with en := fieldN v 63 1 == 1, fedie := fieldN v 52 3, fe := fieldN v 48 4, log2n := fieldN v 40 4,
                               asid := BitVec.ofNat 16 v, cfgerr := false }

/-- A write of a queue's registers (R362). -/
def State.queueWrite (s : State) (node q i v : Nat) : State :=
  let x := s.queue node q
  match i with
  | 0 => s.queueWrite0 node q v
  | 1 => if x.st.busy || v % 128 != 0 then s.queueErr node q else s.setQueue node q { x with base := BitVec.ofNat 64 v, cfgerr := false }
  | 2 => if x.st.busy then s.queueErr node q else s.setQueue node q { x with ptroot := BitVec.ofNat 64 v &&& 0x03FFFFFFFFFF0000, cfgerr := false }
  | 4 => s.queueTail node q (v % 2 ^ 32)
  | _ => s

/-! ## Engine fault records (R225) -/

/-- The barrier that a stopped command lowers: g6 for the array commands, else g0's upper half. -/
def Cmd.recBar (c : Cmd) : Nat := if c.cmd = 4 ∨ c.cmd = 5 ∨ c.cmd = 6 then fieldW c.g[6] 0 32 else fieldW c.g[0] 32 32

/-- A word of record `k` of a polder. -/
def FaultRec.word (r : FaultRec) (i : Nat) : Nat :=
  match i with
  | 0 => 2 ^ 63 + r.cause * 2 ^ 56 + r.cmd.cmd * 2 ^ 51 + r.cmd.id.core % 8 * 2 ^ 48 + r.cmd.id.slot % 16 * 2 ^ 44 +
      (if 1 ≤ r.cmd.id.slot % 16 ∧ r.cmd.id.slot % 16 ≤ 10 then r.cmd.cgen.toNat else 0) * 2 ^ 32 + r.cmd.recBar
  | 1 => r.fva.toNat
  | 2 => r.respt
  | _ => 0

/-- The word at offset `o` of the records of a polder. -/
def Polder.recWord (q : Polder) (o : Nat) : Nat :=
  match tfind q.engine.recs (o / 64) with
  | some r => r.word (o / 8 % 8)
  | none => 0

/-- A write of CTL (R225): RESUME and CANCEL are carried out by the next step; other values, or a record with V = 0, do nothing. -/
def State.recWrite (s : State) (node p o v : Nat) : State :=
  if o / 8 % 8 ≠ 3 ∨ (tfind (s.polder node p).engine.recs (o / 64)).isNone then s
  else
    let e : Ev := { node := node, n := p, m := o / 64 }
    match fieldN v 0 4 with
    | 1 => s.now .resumeCommand e
    | 2 => s.now .cancel e
    | _ => s

/-! ## Legend command blocks (R392) -/

/-- The word at offset `o` of a die's block. -/
def DieSt.legWord (d : DieSt) (o : Nat) : Nat :=
  if o < 0x80 then fieldN d.staging.toNat (8 * o) 64
  else if o = 0x80 then d.legName * 2 ^ 40 + d.legErr.toNat * 16
  else if 0x100 ≤ o ∧ o < 0x300 then (tget (0 : Word) d.donors ((o - 0x100) / 8)).toNat
  else 0

/-- A write at offset `o` of a die's block. -/
def State.legWrite (s : State) (node d o v : Nat) : State :=
  let x := s.die node d
  if o < 0x80 then
    let old := x.staging.toNat
    s.setDie node d { x with staging := BitVec.ofNat 1024 (old - fieldN old (8 * o) 64 * 2 ^ (8 * o) + v % 2 ^ 64 * 2 ^ (8 * o)) }
  else if o = 0x80 then
    let name := fieldN v 40 24
    let s := s.setDie node d { x with legName := name }
    let e : Ev := { node := node, n := d, m := name }
    match fieldN v 0 4 with
    | 1 => s.now .install e
    | 2 => s.now .remove e
    | 3 => s.now .read e
    | _ => s.setDie node d { s.die node d with legErr := true }
  else if 0x100 ≤ o ∧ o < 0x300 then
    s.setDie node d { x with donors := tset x.donors ((o - 0x100) / 8) (BitVec.ofNat 64 (v / 2 ^ 22 * 2 ^ 22)) }
  else s

/-! ## The error log (R438) -/

/-- A word of entry `k`. -/
def Pkg.logWord (p : Pkg) (k i : Nat) : Nat :=
  match tfind p.errLog k with
  | some e => if i = 0 then e.1.toNat else e.2.toNat
  | none => 0

/-- An outcome is appended, over the oldest entry. An error of a table or queue has no UNIT code, and no entry (log entry 53). -/
def State.logError (s : State) (node unit result index : Nat) : State :=
  let p := s.pkg node
  let w := BitVec.ofNat 64 (2 ^ 63 + unit % 16 * 2 ^ 59 + result % 8 * 2 ^ 56 + index % 65536 * 2 ^ 40)
  if 7 < unit then s else s.setPkg node { p with errLog := tset p.errLog p.errNext (w, s.cycle node), errNext := (p.errNext + 1) % 4096 }

/-! ## The registers of these units by offset -/

/-- What a read returns, for an offset of one of these units. -/
def State.unitRead (s : State) (node off : Nat) : Nat :=
  if 0xB00000 ≤ off ∧ off < 0xB30000 then (s.polder node ((off - 0xB00000) / 1024)).recWord ((off - 0xB00000) % 1024)
  else if 0xC00000 ≤ off ∧ off < 0xC01000 then (s.comm node ((off - 0xC00000) / 64)).word (off / 8 % 8)
  else if 0xD00000 ≤ off ∧ off < 0xD01000 then (s.queue node ((off - 0xD00000) / 64)).word (off / 8 % 8)
  else if 0xE00000 ≤ off ∧ off < 0xE06000 then (s.die node ((off - 0xE00000) / 0x1000)).legWord ((off - 0xE00000) % 0x1000)
  else if 0x1000000 ≤ off ∧ off < 0x1010000 then (s.pkg node).logWord ((off - 0x1000000) / 16) (off / 8 % 2)
  else 0

/-- What a write does. -/
def State.unitWrite (s : State) (node off v : Nat) : State :=
  if 0xB00000 ≤ off ∧ off < 0xB30000 then s.recWrite node ((off - 0xB00000) / 1024) ((off - 0xB00000) % 1024) v
  else if 0xC00000 ≤ off ∧ off < 0xC01000 then
    (if off / 8 % 8 = 0 then s.commWrite node ((off - 0xC00000) / 64) v else s)
  else if 0xD00000 ≤ off ∧ off < 0xD01000 then s.queueWrite node ((off - 0xD00000) / 64) (off / 8 % 8) v
  else if 0xE00000 ≤ off ∧ off < 0xE06000 then s.legWrite node ((off - 0xE00000) / 0x1000) ((off - 0xE00000) % 0x1000) v
  else s

end Sys2Proof.Machine
end

