-- ==== Sys2Proof/Machine/Ctl.lean ====
section
/-! DEFINITION. The package control register space (R443): what a read of the 8-byte register at an offset returns and what a
write does. An offset that names no register reads 0 and ignores writes. -/

namespace Sys2Proof.Machine
open Sys2Proof

/-- Words of a machine-check record (R431); `core` is 0 for a record that has not been written since reset. -/
def MCheck.word (m : MCheck) (core i : Nat) : Nat :=
  match i with
  | 0 => m.valid.toNat * 2 ^ 63 + m.cause * 2 ^ 56 + core * 2 ^ 45 + m.slot * 2 ^ 41 + m.kind * 2 ^ 38 + m.node * 2 ^ 26
  | 1 => m.pc.toNat
  | 2 => m.val.toNat
  | _ => 0

/-- CTL = RESTART of a core's machine-check record (R432): ignored while V = 0 or, for KIND 0 and 3, with TVEC = 0. After a record of KIND 1 or 2 slot 11
runs, and starts afresh only at a boundary: never between the words of a pair (R52). -/
def State.mcRestart (s : State) (node k : Nat) : State :=
  let q := s.core node k
  if !q.mcheck.valid || ((q.mcheck.kind == 0 || q.mcheck.kind == 3) && q.tvec == 0) then s
  else if !q.stopped && (s.ctx ⟨node, k, 11⟩).pairHeld then s.enq .restart { node := node, core := k }
  else
  let s := s.setCore node k { q with mcheck := { q.mcheck with valid := false }, sv := false, osv := false, stopped := false }
  let id : CtxId := ⟨node, k, 11⟩
  s.setCtx id { s.ctx id with pc := q.tvec, st := .ready, wait := none, held := none, gword := none, expired := false }

/-- CTL = CLEAR of a core's machine-check record (R432). -/
def State.mcClear (s : State) (node k : Nat) : State :=
  let q := s.core node k
  if q.mcheck.valid then s.setCore node k { q with mcheck := { q.mcheck with valid := false } } else s

/-- The register at an 8-byte-aligned offset. -/
def State.ctlRead (s : State) (node off : Nat) : Nat :=
  if off = 0x100 then (s.pkg node).bar2.toNat
  else if 0x100000 ≤ off ∧ off < 0x102000 then (s.region node ((off - 0x100000) / 32)).word (off / 8 % 4)
  else if 0x200000 ≤ off ∧ off < 0x400000 then
    (s.region node ((off - 0x200000) / 8192)).quarWord (off / 128 % 64) (off / 8 % 16)
  else if 0x400000 ≤ off ∧ off < 0xA00000 then
    (s.polder node ((off - 0x400000) / 32768)).ring.word ((off - 0x400000) % 32768)
  else if 0xA00000 ≤ off ∧ off < 0xAC0000 then (s.polder node ((off - 0xA00000) / 4096)).rangeWord ((off - 0xA00000) % 4096)
  else if 0xF00000 ≤ off ∧ off < 0xF00000 + 64 * 1536 then
    let k := (off - 0xF00000) / 64
    (s.core node k).mcheck.word (if (s.core node k).mcWritten then k else 0) (off / 8 % 8)
  else s.unitRead node off

/-- A write of all 8 bytes of the register at an 8-byte-aligned offset. -/
def State.ctlWrite (s : State) (node off v : Nat) : State :=
  if off = 0x100 then s.setPkg node { s.pkg node with bar2 := BitVec.ofNat 64 v }
  else if 0x100000 ≤ off ∧ off < 0x102000 then
    let n := (off - 0x100000) / 32
    match off / 8 % 4 with
    | 0 => s.regionWrite0 node n v
    | 1 => s.regionWrite1 node n v
    | 2 => s.regionWrite2 node n v
    | _ => s
  else if 0x400000 ≤ off ∧ off < 0xA00000 then
    if (off - 0x400000) % 32768 = 16384 then s.ringWrite node ((off - 0x400000) / 32768) v else s
  else if 0xF00000 ≤ off ∧ off < 0xF00000 + 64 * 1536 then
    if off / 8 % 8 = 3 then
      match fieldN v 4 4 with
      | 1 => s.mcRestart node ((off - 0xF00000) / 64)
      | 2 => s.mcClear node ((off - 0xF00000) / 64)
      | _ => s
    else s
  else s.unitWrite node off v

/-- A read of `n` naturally aligned bytes of the control register space (R443). -/
def State.ctlReadN (s : State) (node off n : Nat) : Nat := fieldN (s.ctlRead node (off / 8 * 8)) (8 * (off % 8)) (8 * n)

/-- A write of `n` bytes of one register: merged into the value that a read returns (R443). -/
def State.ctlWriteN (s : State) (node off n v : Nat) : State :=
  let old := s.ctlRead node (off / 8 * 8)
  let sh := 8 * (off % 8)
  let merged := old - fieldN old sh (8 * n) * 2 ^ sh + v % 2 ^ (8 * n) * 2 ^ sh
  s.ctlWrite node (off / 8 * 8) merged

end Sys2Proof.Machine
end

