-- ==== Sys2Proof/Machine/Mem.lean ====
section
/-! DEFINITION. Loads, stores and atomics on memory, by request type (R121 to R132, R151, R154): the L1, the home, the pool, another
package's scratchpad, the control registers; scratchpad checks (R184); the read-port overlap test (R238). -/

namespace Sys2Proof.Machine
open Sys2Proof

/-- The number of a request type (R123). -/
abbrev reqOwn : Nat := 0
/-- .wt -/
abbrev reqWt : Nat := 1
/-- .si -/
abbrev reqSi : Nat := 2
/-- .unc -/
abbrev reqUnc : Nat := 3

/-! ## Scratchpad addresses (R183, R184) -/

/-- A scratchpad access: what kind of unit makes it. -/
inductive SpadUnit where
  | scalarLoad | scalarStore | vecLoad | vecStore | engineRead | engineWrite | arrayRead | collRead | collWrite
deriving DecidableEq, Repr, Inhabited

/-- The unit may perform the access in the space (R183). -/
def SpadUnit.may (u : SpadUnit) (sp : Nat) : Bool :=
  match u with
  | .scalarLoad => true
  | .scalarStore => sp != 3
  | .vecLoad => sp != 2
  | .vecStore => sp == 0 || sp == 1
  | .engineRead => sp != 3
  | .engineWrite => true
  | .arrayRead => sp == 0
  | .collRead => false
  | .collWrite => false

/-- The unit is a vector access, which may use windows (R184). -/
def SpadUnit.isVec : SpadUnit → Bool
  | .vecLoad => true | .vecStore => true | _ => false

/-- The window of a local address: W-space has none (R184). -/
def laWindow (la : Nat) : Nat := if fieldN la 29 3 = 3 then 0 else fieldN la 25 4

/-- The byte offset of a local address in its space (R184). -/
def laOff (la : Nat) : Nat := if fieldN la 29 3 = 3 then fieldN la 0 29 else fieldN la 0 25

/-- The local address without its window bits: the place of the bytes. -/
def laPlain (la : Nat) : Nat := fieldN la 29 3 * 2 ^ 29 + laOff la

/-- The virtual address of a local address of the issuing polder, named by polder index 0xFF (R98; log entry 8). -/
def localVa (la : Nat) : Nat := 0xFE * 2 ^ 48 + 0xFF * 2 ^ 40 + la

/-- The checks of R184 on a local address, for footprint `f` and alignment `al`, in their order. -/
def spadCheck (va la f al : Nat) (u : SpadUnit) : Except Stop Unit :=
  let sp := fieldN la 29 3
  let ill : Except Stop Unit := raiseAcc .illegalAddress (BitVec.ofNat 64 va) (if u = .scalarStore ∨ u = .vecStore ∨ u = .engineWrite ∨ u = .collWrite then 1 else 0)
  if 4 ≤ sp then ill
  else if (sp = 1 ∨ sp = 2) ∧ laWindow la ≠ 0 then ill
  else if 8 ≤ laWindow la then ill
  else if laWindow la ≠ 0 ∧ !u.isVec then ill
  else if spaceSize sp < laOff la + f then ill
  else if !u.may sp then ill
  else if laOff la % al ≠ 0 then raiseAcc .misaligned (BitVec.ofNat 64 va) (if u = .scalarStore ∨ u = .vecStore ∨ u = .engineWrite ∨ u = .collWrite then 1 else 0)
  else .ok ()

/-- The aperture part of R98: bits [39:32] zero and a polder of the package. -/
def apertureCheck (va : Nat) (acc : BitVec 2) : Except Stop Unit :=
  if fieldN va 32 8 ≠ 0 ∨ (192 ≤ fieldN va 40 8 ∧ fieldN va 40 8 ≠ 255) then raiseAcc .illegalAddress (BitVec.ofNat 64 va) acc
  else .ok ()

/-- The port reads `n` bytes at a local address: it waits for the scoreboard (R196) and for stores that wait there (R191), and a lost word
raises DATA_LOST (R185). -/
def State.portRead (s : State) (node p la n va : Nat) : Except Stop Nat :=
  if s.portBusy node p la n then .error (.wait .resource s)
  else if s.lostWordIn (spadAddr node p la) n then raiseAcc .dataLost (BitVec.ofNat 64 va) 0
  else .ok (memRead s.mem (spadAddr node p la) n)

/-- The port applies a write of `n` bytes (R191, R196). A store from another polder that must wait there has left its core: it retires, and
stands in the port's queue; so does an append whose stream port has an earlier one at a port (R239). `xl` is the address space and VA of the
translation that the store comes under, if any. -/
def State.portWrite (s : State) (q : Req) (node p la n v : Nat) (xl : Option (BitVec 16 × Nat) := none) : Except Stop State :=
  let w : PortWrite := ⟨q.id, (s.ctx q.id).gen, la, n, v, xl, s.nextCmd, q.append⟩
  if !s.portBusy node p la n && !s.appendBefore w then .ok (s.spadWrite node p la n v q.id.node q.id.polder q.id.core)
  else if q.engine || (node == q.id.node && p == q.id.polder) then .error (.wait .resource s)
  else
    let x := s.polder node p
    .ok ((s.setPolder node p { x with portQ := x.portQ ++ [w] }).enq .scratchpadPortAccess { node := node, n := p, flag := true })

/-! ## Lines that cannot be served yet -/

/-- An operation that a migration has sent back goes to the line by its translation as it stands now (R73). -/
def State.nmGoesTo (s : State) (o : NmOp) (pa : Nat) : Bool :=
  let w := s.lookup { id := o.id, asid := o.asid, ptroot := o.ptroot, user := o.id.slot % 16 != 11, ra := false, engine := true } o.va.toNat
  w.why == .leaf && lineOf (pteFrame w.entry + o.va.toNat % pageSize w.level) == lineOf pa

/-- A near-memory operation of the context on the line, or on the virtual line, has not been applied yet: the context's own later accesses
follow it (R71, R73), also one that has been sent back and goes to the line under another virtual address. -/
def State.nmOwn (s : State) (q : Req) (pa va : Nat) : Bool :=
  s.nmOps.any (fun o => o.id == q.id && o.piece.isNone && (o.stage == .sent || o.stage == .returned) &&
    (lineOf o.pa == lineOf pa || (o.asid == q.asid && fieldW o.va 6 50 == fieldN va 6 50) || (o.stage == .returned && s.nmGoesTo o pa)))

/-- A near-memory operation holds the line: forwarded and not acknowledged (R66), or the context's own (R71). -/
def State.nearHeld (s : State) (q : Req) (va pa : Nat) : Bool := s.nmHolds pa || s.nmOwn q pa va

/-- A place in the queue of the line's home that came before `mine`. -/
def cameBefore (line : Nat) (mine place : Option (Nat × Nat)) : Bool :=
  match place with
  | some (l, t) => l == line && (match mine with | some (l', t') => l' != l || decide (t < t') | none => true)
  | none => false

/-- Another request, of a context or of an engine's command, came to the home of this line before, and is held there still (R66, R118, R168). -/
def State.behindAt (s : State) (q : Req) (pa : Nat) : Bool :=
  let mine := (s.tryOf q).arrived
  s.ctxs.any (fun e => !(!q.engine && e.1 == q.id) && e.2.st == .stalled && cameBefore (lineOf pa) mine e.2.arrived) ||
    s.tries.any (fun e => q.cmd != some e.1 && cameBefore (lineOf pa) mine e.2.arrived)

/-- The request is held at the home of the line, and keeps the place at which it came (R66, R118). -/
def State.arriveAt (s : State) (q : Req) (pa : Nat) : State :=
  let y := s.tryOf q
  match y.arrived with
  | some (l, _) => if l = lineOf pa then s else s.setTry q { y with arrived := some (lineOf pa, s.stepNo) }
  | none => s.setTry q { y with arrived := some (lineOf pa, s.stepNo) }

/-- A context's own request, as one that waits at a home. -/
def ownReq (id : CtxId) : Req := { id := id, asid := 0, ptroot := 0, user := true, ra := false, engine := false }
/-- The same of a context's request. -/
def State.behind (s : State) (id : CtxId) (pa : Nat) : Bool := s.behindAt (ownReq id) pa
/-- The same of a context's request. -/
def State.arrive (s : State) (id : CtxId) (pa : Nat) : State := s.arriveAt (ownReq id) pa

/-! ## Outstanding misses (R182) -/

/-- The misses that a core has outstanding: its slots' requests that a home holds, and its prefetches whose fills have not returned. -/
def State.missCount (s : State) (node k : Nat) : Nat :=
  (s.ctxs.filter (fun e => e.1.node == node && e.1.core == k && e.2.st == .stalled && e.2.arrived.isSome)).length + (s.core node k).misses.length

/-- A core keeps at most 64 misses outstanding, and has no place for another of this slot's. -/
def State.missFull (s : State) (q : Req) : Bool :=
  !q.engine && decide (64 ≤ s.missCount q.id.node q.id.core) && (s.ctx q.id).arrived.isNone

/-- A slot that needs a 65th miss stalls until one returns. -/
def State.missSlot (s : State) (q : Req) : Except Stop Unit := if s.missFull q then .error (.wait .resource s) else .ok ()

/-- A store or an atomic that takes the line into the L1 misses, unless the L1 holds it. -/
def State.missNew (s : State) (q : Req) (vline : Nat) : Except Stop Unit :=
  if ((s.core q.id.node q.id.core).l1find q.asid vline).isSome then .ok () else s.missSlot q

/-- The home of a line serves requests in order of arrival (R66, R118): the request waits for NEAR-HELD to end or the switch; held at a
frozen line past its time-out it raises PAGE_MIGRATING. A core's request is held as one of its outstanding misses, of which a fetch is none
(R182). -/
def State.homeReady (s : State) (q : Req) (va pa : Nat) (acc : BitVec 2) : Except Stop Unit :=
  let held := if acc != 3 && s.missFull q then s else s.arriveAt q pa
  if s.frozen pa then
    (if (s.ctx q.id).expired && !q.engine then raiseAcc .pageMigrating (BitVec.ofNat 64 va) acc else .error (.wait .migration held))
  else if s.nmHolds pa then .error (.wait .resource held)
  else if s.nmOwn q pa va then .error (.wait .resource s)
  else if s.behindAt q pa then .error (.wait .resource held)
  else .ok ()

/-- An HBM address that exists and whose home answers (R59, R62, R440). Where the link to its stack is down, the access waits (DESIGN CHOICE, log entry
53: R436 gives no result). -/
def State.hbmCheck (s : State) (q : Req) (va pa : Nat) (acc : BitVec 2) : Except Stop Unit :=
  if !(s.group.contains (paNode pa)) || decide (hbmLimit ≤ paOff pa) then raiseAcc .illegalAddress (BitVec.ofNat 64 va) acc
  else if s.cutOff q.id.node (paNode pa) then raiseAcc .dataLost (BitVec.ofNat 64 va) acc
  else if s.linkDown (paNode pa) 0 (hbmStack pa) then .error (.wait .resource s)
  else s.homeReady q va pa acc

/-- The region of a class-01 address, for a read-like access (R83, R85, R93). -/
def State.poolCheck (s : State) (q : Req) (va pa : Nat) (acc : BitVec 2) : Except Stop (Nat × Region) :=
  if paNode pa ≠ q.id.node then raiseAcc .illegalAddress (BitVec.ofNat 64 va) acc
  else match s.regionAt q.id.node (paOff pa) with
    | none => raiseAcc .illegalAddress (BitVec.ofNat 64 va) acc
    | some (n, r) => .ok (n, r)

/-- POOL_REGION_LOST at an access, with the place of the first-failure record (R92, R93). -/
def poolLostTrap {α : Type} (va node n pa : Nat) (acc : BitVec 2) : Except Stop α :=
  .error (.trap { cause := .poolRegionLost, tval := BitVec.ofNat 64 va, acc := acc, ff := some (node, n, pa) })

/-- The bytes of a cacheable line as every agent sees them. -/
def State.lineRead (s : State) (node pa n : Nat) : Nat :=
  if paClass pa = 1 then
    match s.regionAt node (paOff pa) with
    | some (_, r) => s.poolRead node r pa n
    | none => 0
  else memRead s.mem pa n

/-- The polder and local address of a class-10 address, checked by R190; the window bits stay in the local address. -/
def remoteSpad (va pa : Nat) (acc : BitVec 2) : Except Stop (Nat × Nat) :=
  if fieldN pa 40 4 ≠ 0 ∨ 192 ≤ fieldN pa 32 8 then raiseAcc .illegalAddress (BitVec.ofNat 64 va) acc
  else .ok (fieldN pa 32 8, fieldN pa 0 32)

/-! ## Coherence objects (R133 to R136) -/

/-- The object of the requester's die that covers a virtual line. -/
def State.objAt (s : State) (q : Req) (vline : Nat) : Option CohObj := s.objOn q.id.node q.id.die q.asid vline

/-- The request type in force (R104, R125, R135): the object's mode, then the page's CLASS. -/
def effType (typ cls : Nat) (o : Option CohObj) (core : Nat) (store : Bool) : Nat :=
  let t := match o with
    | none => typ
    | some o =>
      if typ = reqOwn ∨ typ = reqWt then
        (if !o.holder core then reqUnc else if o.mode = 0 then (if store then reqWt else typ) else reqOwn)
      else typ
  if cls = 2 then reqUnc else if cls = 1 ∧ t = reqOwn then reqWt else t

/-! ## Copies in the L1s -/

/-- The requester's own copy of a virtual line. -/
def Req.keep (q : Req) (vline : Nat) : Keep := ⟨q.id.node, q.id.core, q.asid, vline⟩

/-- The core drops its untracked copy of a line (R125). -/
def State.dropUntracked (s : State) (q : Req) (vline : Nat) : State :=
  match (s.core q.id.node q.id.core).l1find q.asid vline with
  | some l => if l.st = .untracked then s.l1drop q.id.node q.id.core q.asid vline false else s
  | none => s

/-- A hit marks its way used (R181). -/
def State.l1touch (s : State) (q : Req) (l : L1Line) : State :=
  s.setCore q.id.node q.id.core ((s.core q.id.node q.id.core).touch (l1set l.vline) l.way)

/-- A load's miss fills the L1 (R123, R180) through the leaf `e`, once the home has merged the dirty bytes of a holder: untracked for .si, else
shared, or owned when no one else holds the line. -/
def State.fillLoad (s : State) (q : Req) (vline pl typ : Nat) (e : Word) : State :=
  let s := s.dropSynonyms q.id.node q.id.core pl none
  if typ = reqSi then
    let s := s.merge pl
    s.l1fill q.id.node q.id.core q.asid vline pl .untracked 0 e (BitVec.ofNat 512 (s.lineRead q.id.node pl 64))
  else
    let excl := !s.heldElsewhere pl (q.keep vline) && (match s.objAt q vline with | some o => o.mode != 0 | none => true)
    let s := s.merge pl
    s.l1fill q.id.node q.id.core q.asid vline pl (if excl then .owned else .shared) 0 e 0

/-- The object's mode makes the core's .own or .wt access one of another core's than its holders', for which the slice recalls the owner's
copies (R135). -/
def modeExcludes (typ : Nat) (o : Option CohObj) (core : Nat) : Bool :=
  match o with
  | some o => (typ == reqOwn || typ == reqWt) && !o.holder core && (o.mode == 1 || o.mode == 2)
  | none => false

/-- An uncached load has been served: the home has merged a holder's dirty bytes, and the core keeps no copy (R123). Where an object's mode has
made it uncached (`excluded`), the slice recalls the copies of the object's holders (R135). -/
def State.uncLoad (s : State) (q : Req) (vline pl : Nat) (excluded : Bool) : State :=
  let s := ((s.l1drop q.id.node q.id.core q.asid vline false).dropSynonyms q.id.node q.id.core pl none).merge pl
  if excluded then s.recallAt pl (q.id.node, q.id.die, s.lineSlice q.id.node q.id.die q.asid vline) none else s

/-- A run-ahead helper's prefetch does not wait for its line: its miss is outstanding until the home has been reached
(COHERENT_REQUEST_AT_HOME). -/
def State.missSent (s : State) (q : Req) (vline pl : Nat) : State :=
  if !q.ra then s
  else
    let c := s.core q.id.node q.id.core
    (s.setCore q.id.node q.id.core { c with misses := c.misses ++ [(q.asid, vline)] }).enq .coherentRequestAtHome
      { node := q.id.node, core := q.id.core, pa := pl, m := vline, w := q.asid.setWidth 64, flag := true }

/-! ## Loads -/

/-- The place of an access below the L1. A line that the slice holds keeps the translation that it was filled through until XINV or XMIG
(R101); the access is counted in its leaf all the same (R116). -/
def State.place (s : State) (q : Req) (va : Nat) (a : Acc) : Except Stop (State × Xlated) :=
  let vline := fieldN va 6 50
  match s.sliceLine q.id.node q.id.die q.asid vline with
  | some x =>
    let e := x.entry
    if q.engine || (q.user && !pteU e) || (a.r && !pteR e) || (a.w && !(pteW e && pteD e)) then s.translate q va a
    else .ok (s.countLeaf q va, ⟨x.pline + va % 64, pteGen e, pteClass e, 4, e, 0⟩)
  | none => s.translate q va a

/-- A load of a cacheable line below the L1, once its home can serve it (R123). -/
def State.loadLine (s : State) (q : Req) (va pa n typ : Nat) (e : Word) (excluded : Bool) : Except Stop (State × Nat) := do
  let vline := fieldN va 6 50
  s.missSlot q
  let v := s.lineRead q.id.node pa n
  .ok (if typ = reqUnc then s.uncLoad q vline (lineOf pa) excluded else (s.fillLoad q vline (lineOf pa) typ e).missSent q vline (lineOf pa), v)

/-- A load served below the L1: by the place of its physical address; `vec` says that a vector unit makes it (R183). -/
def State.loadBelow (s : State) (q : Req) (va n typ : Nat) (vec : Bool) : Except Stop (State × Nat) := do
  let (s, x) ← s.place q va accRead
  let vline := fieldN va 6 50
  let excluded := modeExcludes typ (s.objAt q vline) q.id.core
  let typ := effType typ x.cls (s.objAt q vline) q.id.core false
  match paClass x.pa with
  | 0 =>
    s.hbmCheck q va x.pa 0
    if s.isLost x.pa then raiseAcc .dataLost (BitVec.ofNat 64 va) 0 else s.loadLine q va x.pa n typ x.entry excluded
  | 1 =>
    let (i, r) ← s.poolCheck q va x.pa 0
    if r.st ≠ .attached then poolLostTrap va q.id.node i x.pa 0
    else if s.isLost x.pa then raiseAcc .dataLost (BitVec.ofNat 64 va) 0
    else
      s.homeReady q va x.pa 0
      (s.poolSnoop q.id.node (lineOf x.pa) false).loadLine q va x.pa n typ x.entry excluded
  | 2 =>
    if !(s.group.contains (paNode x.pa)) then raiseAcc .illegalAddress (BitVec.ofNat 64 va) 0
    else if s.cutOff q.id.node (paNode x.pa) then raiseAcc .dataLost (BitVec.ofNat 64 va) 0
    else
      let (p, la) ← remoteSpad va x.pa 0
      spadCheck va la n n (if vec then .vecLoad else .scalarLoad)
      let v ← s.portRead (paNode x.pa) p (laPlain la) n va
      .ok (s, v)
  | _ =>
    if q.user || fieldN (paOff x.pa) 43 1 = 1 || !(s.group.contains (paNode x.pa)) || 8 < n then
      raiseAcc .illegalAddress (BitVec.ofNat 64 va) 0
    else if s.cutOff q.id.node (paNode x.pa) then raiseAcc .dataLost (BitVec.ofNat 64 va) 0
    else .ok (s, s.ctlReadN (paNode x.pa) (fieldN (paOff x.pa) 0 43) n)

/-- The value that an L1 hit delivers: an untracked copy's own bytes, else the line's current bytes. -/
def State.hitValue (s : State) (q : Req) (l : L1Line) (va n : Nat) : Nat :=
  if l.st = .untracked then fieldN l.data.toNat (8 * (va % 64)) (8 * n) else s.lineRead q.id.node (l.pline + va % 64) n

/-- The request may use a line that the L1 holds: a user context only one filled through a leaf with U (R101, R106). -/
def L1Line.serves (l : L1Line) (q : Req) : Bool := l.user || !q.user

/-- A line of a region that is being disabled, or is no more: new accesses raise ILLEGAL_ADDRESS (R86). -/
def State.poolGone (s : State) (q : Req) (pl : Nat) : Bool := paClass pl == 1 && (s.regionAt q.id.node (paOff pl)).isNone

/-- `mem_read` of a translated, aligned address (R123, R127): an L1 hit needs no translation (R101); it waits for the context's own
near-memory operations on the line (R73). -/
def State.load (s : State) (q : Req) (va n typ : Nat) (vec : Bool := false) : Except Stop (State × Nat) :=
  let vline := fieldN va 6 50
  let s := if typ = reqSi then s else s.dropUntracked q vline
  if typ = reqUnc then s.loadBelow q va n typ vec else
  match (s.core q.id.node q.id.core).l1find q.asid vline with
  | none => s.loadBelow q va n typ vec
  | some l =>
    if !l.serves q then s.loadBelow q va n typ vec
    else if s.poolGone q l.pline then raiseAcc .illegalAddress (BitVec.ofNat 64 va) 0
    else if s.isLost l.pline then raiseAcc .dataLost (BitVec.ofNat 64 va) 0
    else if s.nmOwn q l.pline va then .error (.wait .resource s)
    else .ok ((s.l1touch q l).dropSynonyms q.id.node q.id.core l.pline (some (l.asid, l.vline)), s.hitValue q l va n)

/-! ## Stores -/

/-- The bytes of a store reach memory: at the HBM home, or as dirty bytes of a class-01 line. -/
def State.lineWrite (s : State) (q : Req) (va pa n v : Nat) : State :=
  if paClass pa = 1 then
    let s := (s.poolSnoop q.id.node (lineOf pa) true).poolWrite q.id.node pa n v
    if q.engine then s else
    let c := s.ctx q.id
    s.setCtx q.id { c with poolStores := c.poolStores ++ [(BitVec.ofNat 64 va, pa)] }
  else s.hbmWrite pa n v

/-- An untracked copy of the storing core sees its .si store (R123). -/
def State.updateUntracked (s : State) (q : Req) (va n v : Nat) : State :=
  let c := s.core q.id.node q.id.core
  let vline := fieldN va 6 50
  s.setCore q.id.node q.id.core { c with l1 := c.l1.map (fun l =>
    if l.at q.asid vline && l.st == .untracked then
      { l with data := mergeLine l.data (BitVec.ofNat 512 (v % 2 ^ (8 * n) * 256 ^ (va % 64))) (byteMask (va % 64) n) } else l) }

/-- The entry that an L1 line was filled through, as its slice's line has it; without one, what the L1 line knows of it. -/
def State.lineEntry (s : State) (q : Req) (vline : Nat) (l : L1Line) : Word :=
  match s.sliceLine q.id.node q.id.die q.asid vline with
  | some x => x.entry
  | none => BitVec.ofNat 64 (0x163 + 4 * l.stores.toNat + 16 * l.user.toNat)

/-- A .own store (R123): every other copy is recalled, the core's is owned and marks the bytes dirty, and the directory names the holder. -/
def State.storeOwn (s : State) (q : Req) (va pa n : Nat) (e : Word) : State :=
  let vline := fieldN va 6 50
  let pl := lineOf pa
  let s := s.recall pl (some (q.keep vline))
  let d := match (s.core q.id.node q.id.core).l1find q.asid vline with | some l => l.dirty | none => 0
  s.l1fill q.id.node q.id.core q.asid vline pl .owned (d ||| byteMask (pa % 64) n) e 0

/-- A store that writes through (R123, R124): the home merges any owned dirty copy first and recalls every copy but the core's own, which
stays, clean. -/
def State.storeThrough (s : State) (q : Req) (va pa : Nat) : State := (s.merge (lineOf pa)).recall (lineOf pa) (some (q.keep (fieldN va 6 50)))

/-- The core's copy that a store finds has been used (R181). -/
def State.touchHit (s : State) (q : Req) (vline : Nat) : State :=
  match (s.core q.id.node q.id.core).l1find q.asid vline with
  | some l => s.l1touch q l
  | none => s

/-- A store to a cacheable line whose home serves it, by request type (R123, R124); `e` is the leaf's entry. An uncached one takes its own core's
copies without another requester (R132). -/
def State.storeLine (s : State) (q : Req) (va pa n v typ : Nat) (e : Word) : State :=
  let vline := fieldN va 6 50
  let pl := lineOf pa
  let s := s.dropSynonyms q.id.node q.id.core pl (some (q.asid, vline))
  if typ = reqOwn then (s.storeOwn q va pa n e).lineWrite q va pa n v
  else if typ = reqUnc then ((s.dropCore q.id.node q.id.core pl false).recall pl none).lineWrite q va pa n v
  else
    let s := (s.storeThrough q va pa).touchHit q vline
    let s := if typ = reqSi then s.updateUntracked q va n v else s
    s.lineWrite q va pa n v

/-- A store served below the L1. -/
def State.storeBelow (s : State) (q : Req) (va n v typ : Nat) (vec : Bool) : Except Stop State := do
  let (s, x) ← s.place q va accWrite
  let vline := fieldN va 6 50
  let typ := effType typ x.cls (s.objAt q vline) q.id.core true
  match paClass x.pa with
  | 0 =>
    s.hbmCheck q va x.pa 1
    if typ = reqOwn then s.missNew q vline
    .ok (s.storeLine q va x.pa n v typ x.entry)
  | 1 =>
    let (i, r) ← s.poolCheck q va x.pa 1
    if r.st ≠ .attached then
      -- a store that retires into the quarantine is one more for a pool-scope fence to report (log entry 45)
      let s := s.poolQuarantine q.id.node i x.pa n v
      let c := s.ctx q.id
      let p := (BitVec.ofNat 64 va, x.pa)
      .ok (if q.engine then s else s.setCtx q.id { c with poolStores := c.poolStores ++ [p], poolLost := c.poolLost ++ [p] })
    else
      s.homeReady q va x.pa 1
      if typ = reqOwn then s.missNew q vline
      .ok (s.storeLine q va x.pa n v typ x.entry)
  | 2 =>
    if !(s.group.contains (paNode x.pa)) then raiseAcc .illegalAddress (BitVec.ofNat 64 va) 1
    else if s.cutOff q.id.node (paNode x.pa) then raiseAcc .dataLost (BitVec.ofNat 64 va) 1
    else
      let (p, la) ← remoteSpad va x.pa 1
      spadCheck va la n n (if vec then .vecStore else .scalarStore)
      if (s.polder (paNode x.pa) p).rl.any (fun e => e.kind == 1 && e.space == fieldN la 29 3 + 1 && e.hits (fieldN la 29 3 + 1) 0 (laOff la) n) then
        raiseAcc .rangeLockHit (BitVec.ofNat 64 va) 1
      else s.portWrite q (paNode x.pa) p (laPlain la) n v (some (q.asid, va))
  | _ =>
    if q.user || fieldN (paOff x.pa) 43 1 = 1 || !(s.group.contains (paNode x.pa)) || 8 < n then
      raiseAcc .illegalAddress (BitVec.ofNat 64 va) 1
    else if s.cutOff q.id.node (paNode x.pa) then raiseAcc .dataLost (BitVec.ofNat 64 va) 1
    else .ok (s.ctlWriteN (paNode x.pa) (fieldN (paOff x.pa) 0 43) n v)

/-- A .own store finds its line owned in the L1, through a leaf that lets it store, under no object: it needs no translation (R101, R125). -/
def State.storeHits (s : State) (q : Req) (va typ : Nat) : Bool :=
  match (s.core q.id.node q.id.core).l1find q.asid (fieldN va 6 50) with
  | some l => typ == reqOwn && l.st == .owned && l.stores && l.serves q && (s.objAt q (fieldN va 6 50)).isNone
  | none => false

/-- `mem_write` of a translated, aligned address (R123, R127): a store that finds its line owned, filled through a leaf that
lets it store, needs no translation (R101). -/
def State.store (s : State) (q : Req) (va n v typ : Nat) (vec : Bool := false) : Except Stop State :=
  let vline := fieldN va 6 50
  let s := if typ = reqSi then s else s.dropUntracked q vline
  match (s.core q.id.node q.id.core).l1find q.asid vline with
  | some l =>
    if s.storeHits q va typ then
      if s.poolGone q l.pline then raiseAcc .illegalAddress (BitVec.ofNat 64 va) 1
      else if s.nmOwn q l.pline va then .error (.wait .resource s)
      else .ok (s.storeLine q va (l.pline + va % 64) n v reqOwn (s.lineEntry q vline l))
    else s.storeBelow q va n v typ vec
  | none => s.storeBelow q va n v typ vec

/-! ## Atomics (R130, R132) -/

/-- The location of an atomic, translated for R and W (R130): it may not lie in class 10 or 11. -/
def State.atomicPlace (s : State) (q : Req) (va : Nat) : Except Stop (State × Xlated) := do
  let (s, x) ← s.translate q va accAtomic
  if 2 ≤ paClass x.pa then raiseAcc .illegalAddress (BitVec.ofNat 64 va) 2 else .ok (s, x)

/-- The location can be reached: its home answers and its line is not lost; a pool line is taken from the device's other heads. -/
def State.atomicReady (s : State) (q : Req) (va : Nat) (x : Xlated) : Except Stop State := do
  if paClass x.pa = 0 then
    s.hbmCheck q va x.pa 2
    if s.isLost x.pa then raiseAcc .dataLost (BitVec.ofNat 64 va) 2 else .ok s
  else
    let (i, r) ← s.poolCheck q va x.pa 2
    if r.st ≠ .attached then poolLostTrap va q.id.node i x.pa 2
    else if s.isLost x.pa then raiseAcc .dataLost (BitVec.ofNat 64 va) 2
    else
      s.homeReady q va x.pa 2
      .ok (s.poolSnoop q.id.node (lineOf x.pa) true)

/-- Where an atomic executes (R132): placement 0 predicted, 1 near, 2 far; uncached pages always far. -/
def State.atomicFar (s : State) (q : Req) (x : Xlated) (place : Nat) : Bool :=
  x.cls == 2 || place == 2 || (place == 0 && decide (2 ≤ (s.core q.id.node q.id.core).contention (lineOf x.pa)))

/-- The new value of an atomic's location is written where it executes: in the L1 after taking the line exclusively, or at the
home with every copy recalled (R132). A prediction uses the line's entry in the core's table. -/
def State.atomicWrite (s : State) (q : Req) (va n : Nat) (x : Xlated) (place v : Nat) : State :=
  let vline := fieldN va 6 50
  let typ := effType reqOwn x.cls (s.objAt q vline) q.id.core true
  let s := s.dropUntracked q vline
  let far := s.atomicFar q x place
  let s := if place = 0 then s.setCore q.id.node q.id.core ((s.core q.id.node q.id.core).useContention (lineOf x.pa)) else s
  s.storeLine q va x.pa n v (if far then reqUnc else typ) x.entry

/-! ## The read-port overlap test (R238) -/

/-- The least `k` with `a * k % m` in `[l, r]`, if there is one. -/
def firstHit (a m l r : Nat) : Nat → Option Nat
  | 0 => none
  | fuel + 1 =>
    if l = 0 then some 0
    else if a = 0 then none
    else if (l + a - 1) / a * a ≤ r then some ((l + a - 1) / a)
    else (firstHit (m % a) a ((a - r % a) % a) ((a - l % a) % a) fuel).map (fun y => (l + m * y + a - 1) / a)

/-- An element that the port has still to deliver starts, modulo `m`, in `[lo, hi]`. -/
def Port.meets (p : Port) (m lo hi : Nat) : Bool :=
  let b := (p.base + p.stride * BitVec.ofNat 64 p.k).toNat % m
  let l := (lo + m - b) % m
  let r := (hi + m - b) % m
  p.remain != 0 && (decide (r < l) ||
    (match firstHit (p.stride.toNat % m) m l r 128 with | some j => decide (j < p.remain) | none => false))

/-- The footprint of a vector access through a window (R186). -/
def windowFootprint (w : Nat) : Nat :=
  match w with | 0 => 32 | 1 => 16 | 2 => 16 | _ => 8

/-- An element of a read port that has not yet been popped overlaps `[va, va + n)` (R238). A scratchpad byte is met by elements of every window, and
by those that name the issuing polder by its number or as 0xFF. -/
def Port.overlaps (p : Port) (own va n : Nat) : Bool :=
  if isAperture va then
    let sp := fieldN va 29 3
    let off := laOff (fieldN va 0 32)
    let pol := aperturePolder va own
    (pol :: (if pol = own then [255] else [])).any (fun c => (List.range (if sp = 0 then 8 else 1)).any (fun w =>
      let start := 0xFE * 2 ^ 48 + c * 2 ^ 40 + sp * 2 ^ 29 + w * 2 ^ 25
      p.meets (2 ^ 56) (start + (off - (windowFootprint w - 1))) (start + off + n - 1)))
  else p.meets (2 ^ 64) (va - 31) (va + n - 1)

/-- `read_port_overlap` (R238): the lowest read port of the context with an element not yet popped that `[va, va + n)` overlaps. -/
def State.readPortOverlap (s : State) (q : Req) (va n : Nat) : Option Nat :=
  (List.range 8).find? (fun i =>
    match (s.ctx q.id).ports[i]? with
    | none => false
    | some p => p.bound && !p.write && p.overlaps q.id.polder va n)

/-- The store-class tests before a store takes effect: read-port overlap, then range lock (R127, R197, R238). -/
def State.storeTests (s : State) (q : Req) (va n : Nat) (acc : BitVec 2) : Except Stop Unit :=
  match s.readPortOverlap q va n with
  | some i => raise .streamFault (BitVec.ofNat 64 (24 + i))
  | none =>
    if s.rangeLockHit q.id.node q.id.polder q.asid va n then raiseAcc .rangeLockHit (BitVec.ofNat 64 va) acc else .ok ()

/-! ## Scalar accesses of any VA (R98, R127) -/

/-- A scalar load of `n` bytes. -/
def State.scalarLoad (s : State) (q : Req) (va n typ : Nat) : Except Stop (State × Nat) := do
  let tv := BitVec.ofNat 64 va
  if isAperture va then
    apertureCheck va 0
    spadCheck va (fieldN va 0 32) n n .scalarLoad
    let v ← s.portRead q.id.node (aperturePolder va q.id.polder) (laPlain (fieldN va 0 32)) n va
    .ok (s, v)
  else if !isCanonical va then raiseAcc .pagePermission tv 0
  else if va % n ≠ 0 then raiseAcc .misaligned tv 0
  else s.load q va n typ

/-- A scalar store of `n` bytes. -/
def State.scalarStore (s : State) (q : Req) (va n v typ : Nat) : Except Stop State := do
  let tv := BitVec.ofNat 64 va
  if isAperture va then
    apertureCheck va 1
    spadCheck va (fieldN va 0 32) n n .scalarStore
    s.storeTests q va n 1
    s.portWrite q q.id.node (aperturePolder va q.id.polder) (laPlain (fieldN va 0 32)) n v
  else if !isCanonical va then raiseAcc .pagePermission tv 1
  else if va % n ≠ 0 then raiseAcc .misaligned tv 1
  else
    s.storeTests q va n 1
    s.store q va n v typ

end Sys2Proof.Machine
end

