-- ==== Sys2Proof/Machine/LockHome.lean ====
section
/-! DEFINITION. Line locks at their home (R155 to R178): entries, scope and domain, acceptance, hand-off, release, break, time-out,
deadlock probe. A waiter's status reaches its LKACQ through `lockReply`. -/

namespace Sys2Proof.Machine
open Sys2Proof

/-- STATUS codes (R159). -/
abbrev lkOk : Nat := 0
/-- TIMEOUT -/
abbrev lkTimeout : Nat := 1
/-- RETRY -/
abbrev lkRetry : Nat := 2
/-- BROKEN -/
abbrev lkBroken : Nat := 3
/-- DEADLOCK -/
abbrev lkDeadlock : Nat := 4
/-- SCOPE -/
abbrev lkScope : Nat := 5
/-- LIMIT -/
abbrev lkLimit : Nat := 6
/-- NOTHELD -/
abbrev lkNotheld : Nat := 7
/-- The model's own reply code: the LKACQ raises DATA_LOST (R165). -/
abbrev lkLost : Nat := 16

/-- The time-out recorded with an LKTRY's request, which never waits in the queue (R163). -/
abbrev lkTryMark : Nat := 2 ^ 40

/-- A lock with no entry. -/
def Lock.none : Lock := ⟨Option.none, 0, ⟨0, 0, 0⟩, [], false, 0, Option.none⟩

/-- The lock of a line. -/
def State.lock (s : State) (line : Nat) : Lock := tget Lock.none s.locks line

/-- Writes a line's lock; an entry with no holder, waiter or broken mark is freed (R155). -/
def State.setLock (s : State) (line : Nat) (l : Lock) : State :=
  { s with locks := if l.holder.isNone ∧ l.waiters = [] ∧ l.broken = false then tdel s.locks line else tset s.locks line l }

/-- The home shard of a line: node, die and slice (R61, R120): class 00 on the die of the line's stack, class 01 on the die of the port of its
region. -/
def State.homeShard (s : State) (line : Nat) : Nat × Nat × Nat :=
  let node := paNode line
  let die := if paClass line = 1 then (match s.regionHome node (paOff line) with | some (_, r) => poolPortDie r.port | none => 0) else hbmDie line
  (node, die, s.bucket node die ((fieldN line 6 16 ^^^ fieldN line 22 16 ^^^ fieldN line 38 6) % 48))

/-- A context lies in the domain that `scope` includes around `owner` (R143, R156). -/
def inDomain (scope : Nat) (owner id : CtxId) : Bool :=
  match scope with
  | 0 => owner == id
  | 1 => owner.node == id.node && owner.core == id.core
  | 2 => owner.node == id.node && owner.polder == id.polder
  | 3 => owner.node == id.node && owner.die == id.die
  | 4 => owner.node == id.node
  | 5 => owner.node == id.node
  | _ => true

/-- The locks a context holds (R159). -/
def State.heldLocks (s : State) (id : CtxId) : List Nat := (s.locks.filter (fun e => e.2.holder == some id)).map (·.1)
/-- HELD of R159. -/
def State.held (s : State) (id : CtxId) : Nat := (s.heldLocks id).length

/-- The context waits in the line's queue. -/
def Lock.waits (l : Lock) (id : CtxId) : Bool := l.waiters.any (fun w => w.id == id)

/-- A status for a waiting LKACQ. -/
def State.lockReplyTo (s : State) (id : CtxId) (line status : Nat) : State :=
  s.setCtx id { s.ctx id with lockReply := some (line, status) }

/-- The lock is recorded as held by `id` (R156, R166, R173); a retake drops an unreported hold-limit break. -/
def State.giveLock (s : State) (line : Nat) (id : CtxId) (scope : Nat) (l : Lock) (fresh : Bool) : State :=
  let s := s.setLock line { l with holder := some id, broken := false, rel := none, limit := (s.core id.node id.core).hold.toNat,
                                   scope := if fresh then scope else l.scope, owner := if fresh then id else l.owner }
  s.setCtx id { s.ctx id with holdBreaks := (s.ctx id).holdBreaks.filter (· != line) }

/-- One hand-off offers the lock to each waiter once, from the head (R165, R170): the present waiter that takes it, the queue that
stays, the absent waiters removed with RETRY. -/
def offer : List Waiter → List Waiter → List CtxId → Option Waiter × List Waiter × List CtxId
  | [], tail, gone => (none, tail, gone)
  | w :: r, tail, gone =>
    if !w.absent then (some w, r ++ tail, gone)
    else if w.requeued then offer r tail (gone ++ [w.id])
    else offer r (tail ++ [{ w with requeued := true }]) gone

/-- A lock that has been given up goes on (R165, R172): to the next present waiter, whose line the former holder's core gives up, or it is free;
a line that is LOST, the holder's dirty bytes merged, goes to no one. A broken lock's mark stays then, for the next acquirer (DESIGN CHOICE, log entry
49). -/
def State.handOff (s : State) (line : Nat) : State :=
  let l := s.lock line
  let s := match tfind s.lost line with | some m => s.setLost line (m ||| s.dirtyMask line) | none => s
  if s.isLost line then
    let s := l.waiters.foldl (fun s w => s.lockReplyTo w.id line lkLost) s
    s.setLock line { l with holder := none, waiters := [], rel := none }
  else
    match offer l.waiters [] [] with
    | (some w, rest, gone) =>
      let s := match l.rel with | some (id, _) => s.dropCore id.node id.core line true | none => s
      let s := gone.foldl (fun s id => s.lockReplyTo id line lkRetry) s
      let s := s.giveLock line w.id l.scope { l with waiters := rest } false
      s.lockReplyTo w.id line (if l.broken then lkBroken else lkOk)
    | (none, rest, gone) =>
      let s := gone.foldl (fun s id => s.lockReplyTo id line lkRetry) s
      -- no present waiter: the lock is free and absent waiters keep their places (R170)
      s.setLock line { l with holder := none, waiters := rest, rel := none }

/-- The lock leaves its holder (R165, R172, R173): it is on its way to a waiter, or free. `gen` is the generation of a holder whose life has
ended. -/
def State.unhold (s : State) (id : CtxId) (line : Nat) (broken : Bool) (gen : Option (BitVec 12)) : State :=
  let l := s.lock line
  s.setLock line { l with holder := none, broken := broken, rel := some (id, gen) }

/-- The hand-on of a lock must wait: for NEAR-HELD to end (R177), or, where its holder's life has ended, for a store that it had retired
(R172). -/
def State.handLater (s : State) (line : Nat) (r : CtxId × Option (BitVec 12)) : Bool :=
  s.nmHolds line || (match r.2 with | some gen => s.portStoresOf r.1 gen | none => false)

/-- LOCK_RELEASE: a release, or a break, has reached the home, which hands the lock to a waiter or leaves it free. -/
def State.releaseArrived (s : State) (line : Nat) : State :=
  match (s.lock line).rel with
  | none => s
  | some r => if s.handLater line r then s.enq .lockRelease { pa := line } else s.handOff line

/-- A release by the holder (R165): it takes effect at the home as it retires, before any later request (R168). -/
def State.lockRelease (s : State) (id : CtxId) (line : Nat) : State :=
  if (s.lock line).holder ≠ some id then s else (s.unhold id line false none).releaseArrived line

/-- The home breaks a holder's lock (R172, R173): a waiter gets BROKEN, and without one the mark stays. The end of the holder's life (`gen`) waits
for the stores that it has retired; the hold limit waits for none. -/
def State.breakLock (s : State) (id : CtxId) (line : Nat) (gen : Option (BitVec 12)) : State := (s.unhold id line true gen).releaseArrived line

/-- Every pool store of the context is performed at its device (R89, R172). -/
def State.performPool (s : State) (id : CtxId) : State :=
  let s := (s.ctx id).poolStores.foldl (fun s p => s.poolClean (paNode p.2) (lineOf p.2)) s
  s.setCtx id { s.ctx id with poolStores := [], poolLost := [] }

/-- The context waits in no queue any more (R172, R177). -/
def State.leaveQueue (s : State) (id : CtxId) : State :=
  let locks := tmap s.locks (fun _ l => { l with waiters := l.waiters.filter (fun w => w.id != id) })
  { s with locks := locks.filter (fun e => !(e.2.holder.isNone && e.2.waiters.isEmpty && !e.2.broken)) }

/-- The home breaks every lock that a terminated context holds, its retired stores performed first, and removes it from every queue (R172,
R177). -/
def State.breakLocks (s : State) (id : CtxId) : State :=
  let mine := s.heldLocks id
  let s := if mine.any (fun l => decide (5 ≤ (s.lock l).scope)) then s.performPool id else s
  let gen := (s.ctx id).gen
  let s := mine.foldl (fun s l => s.breakLock id l (some gen)) s
  let s := s.leaveQueue id
  s.setCtx id { s.ctx id with lockReply := none, lockReq := none, holdBreaks := [] }

/-- The hold limit of a line's holder is reached (R173). -/
def State.holdLimit (s : State) (line : Nat) : State :=
  let l := s.lock line
  match l.holder with
  | none => s
  | some id =>
    if l.limit = 0 then s
    else (s.setCtx id { s.ctx id with holdBreaks := (s.ctx id).holdBreaks ++ [line] }).breakLock id line none

/-- The home has a free lock entry, if the line needs one (R155). -/
def State.entryRoom (s : State) (line : Nat) : Bool :=
  (tfind s.locks line).isSome || decide ((s.locks.filter (fun e => s.homeShard e.1 == s.homeShard line)).length < 256)
/-- The home has a free waiter entry (R155). -/
def State.waiterRoom (s : State) (line : Nat) : Bool :=
  decide (((s.locks.filter (fun e => s.homeShard e.1 == s.homeShard line)).foldl (fun n e => n + e.2.waiters.length) 0) < 2048)

/-- A page of the line is being migrated: requests wait until the switch (R118, step 2). -/
def State.migrating (s : State) (line : Nat) : Bool := s.migs.any (fun m => !m.switched && decide (m.old ≤ line ∧ line < m.old + m.size))

/-- The home takes no lock request on the line now: it holds them in order of arrival (R66, R118, R161), also while the lock is on its way from
one holder to the next. -/
def State.lockHeld (s : State) (id : CtxId) (line : Nat) : Bool :=
  s.migrating line || s.nmHolds line || (s.lock line).rel.isSome || s.behind id line

/-- The home accepts a request that LKACQ (`wait`) or LKTRY sent: it grants, refuses or queues it (R156, R161, R163), or returns it for want of
an entry (R155). The request's line is LOST: it is granted to no one. A request between packages of which one has fenced the other gets DATA_LOST
(R439, R440). -/
def State.lockAccept (s : State) (id : CtxId) (r : LockReq) (wait : Bool) : State :=
  let line := r.line
  if s.cutOff id.node (paNode line) then s.lockReplyTo id line lkLost
  else if s.lockHeld id line then s.arrive id line
  else
    let l := s.lock line
    let inUse := l.holder.isSome || !l.waiters.isEmpty
    if inUse && (l.scope != r.scope || !inDomain l.scope l.owner id) then s.lockReplyTo id line lkScope
    else if !s.entryRoom line then s
    else if l.holder.isNone && l.waiters.all (fun w => w.absent) then
      if s.isLost line then s.lockReplyTo id line lkLost
      else
        let st := if l.broken then lkBroken else lkOk
        (s.giveLock line id r.scope l (!inUse)).lockReplyTo id line st
    else if !wait then s.lockReplyTo id line lkTimeout
    else if !s.waiterRoom line then s
    else
      let w : Waiter := ⟨id, (s.ctx id).gen, false, false, s.cycle (paNode line), r.t⟩
      let s := s.setLock line { l with waiters := l.waiters ++ [w] }
      s.setCtx id { s.ctx id with arrived := none }

/-- The line a context waits for in some queue. -/
def State.waitsFor (s : State) (id : CtxId) : Option (Nat × Waiter) :=
  match s.locks.find? (fun e => e.2.waits id) with
  | none => none
  | some (line, l) => (l.waiters.find? (fun w => w.id == id)).map (fun w => (line, w))

/-- A lock request of the context has been sent, and the home has neither queued nor answered it. -/
def State.lockSent (s : State) (id : CtxId) : Option LockReq :=
  let c := s.ctx id
  if c.lockReply.isSome || (s.waitsFor id).isSome then none else c.lockReq

/-- A waiting LKACQ's time-out passes, before or after acceptance (R162). -/
def State.lockTimeout (s : State) (id : CtxId) : State :=
  match s.lockSent id with
  | some r => if r.t = 0 ∨ lkTryMark ≤ r.t then s else s.lockReplyTo id r.line lkTimeout
  | none =>
    match s.locks.find? (fun e => e.2.waiters.any (fun w => w.id == id && w.timeout != 0)) with
    | none => s
    | some (line, l) =>
      (s.setLock line { l with waiters := l.waiters.filter (fun w => w.id != id) }).lockReplyTo id line lkTimeout

/-- A pre-empted or watched waiter is absent (R170, R427). -/
def State.markAbsent (s : State) (id : CtxId) (absent : Bool) : State :=
  { s with locks := tmap s.locks (fun _ l => { l with waiters := l.waiters.map (fun w => if w.id = id then { w with absent := absent } else w) }) }

/-- A restored waiter is present again, and takes a free lock at once (R170), unless its line is LOST (R160). -/
def State.lockReturn (s : State) (id : CtxId) : State :=
  let s := s.markAbsent id false
  match s.locks.find? (fun e => e.2.holder.isNone && e.2.rel.isNone && e.2.waits id && e.2.waiters.all (fun w => w.absent || w.id == id)) with
  | none => s
  | some (line, l) =>
    let l := { l with waiters := l.waiters.filter (fun w => w.id != id) }
    if s.isLost line then (s.setLock line l).lockReplyTo id line lkLost
    else (s.giveLock line id l.scope l false).lockReplyTo id line (if l.broken then lkBroken else lkOk)

/-- The probe of R175 from a waiter: the lines and waiters on the way, if it comes back to `origin` within 8 locks. -/
def State.probe (s : State) (origin : CtxId) (id : CtxId) (path : List (Nat × Waiter)) : Nat → Option (List (Nat × Waiter))
  | 0 => none
  | fuel + 1 =>
    match s.waitsFor id with
    | none => none
    | some (line, w) =>
      match (s.lock line).holder with
      | none => none
      | some h => if h = origin then some (path ++ [(line, w)]) else s.probe origin h (path ++ [(line, w)]) fuel

/-- The younger of two waiters: larger stamp, then higher node, core, slot (R176). -/
def younger (a b : Nat × Waiter) : Nat × Waiter :=
  let key := fun (w : Waiter) => [w.stamp.toNat, w.id.node, w.id.core, w.id.slot % 16]
  if key a.2 < key b.2 then b else a

/-- A waiter's probe runs and, if the locks it passed form a cycle, the youngest acquire gets DEADLOCK (R175, R176). -/
def State.deadlockProbe (s : State) (id : CtxId) : State :=
  match s.probe id id [] 8 with
  | none => s
  | some [] => s
  | some (e :: r) =>
    let (line, w) := r.foldl younger e
    let l := s.lock line
    (s.setLock line { l with waiters := l.waiters.filter (fun x => x.id != w.id) }).lockReplyTo w.id line lkDeadlock

end Sys2Proof.Machine
end

