-- ==== Sys2Proof/Machine/PhaserUnit.lean ====
section
/-! DEFINITION. The phasers of a polder's synchronisation engine (R376 to R380): members, signals, the advance of a phase, dropping. -/

namespace Sys2Proof.Machine
open Sys2Proof

/-- A phaser after reset. -/
def Phaser.reset : Phaser := ⟨0, false, 0, (0, 0, 0), 0, []⟩

/-- A phaser of a polder. -/
def Polder.phaser (q : Polder) (i : Nat) : Phaser := tget Phaser.reset q.phasers i
/-- Replaces a phaser. -/
def State.setPhaser (s : State) (node p i : Nat) (f : Phaser) : State :=
  s.setPolder node p { s.polder node p with phasers := tset (s.polder node p).phasers i f }

/-- The handle of a phaser (R376). -/
def phHandle (p i gen : Nat) : Word := BitVec.ofNat 64 (p * 2 ^ 40 + i * 2 ^ 34 + gen % 4096 * 2 ^ 22)

/-- The member is a signalling one: signal-only or signal-and-wait (R379). -/
def PhMember.signals (m : PhMember) : Bool := m.mode == 0 || m.mode == 2

/-- At an event — a signal or the drop of a signalling member — after which every signalling member has s > P, the phaser advances
(R379). -/
def Phaser.settle (f : Phaser) : Phaser :=
  if f.members.all (fun m => !m.signals || decide (f.phase < m.s)) then { f with phase := f.phase + 1 } else f

/-- The member of a context. -/
def Phaser.member (f : Phaser) (id : CtxId) : Option PhMember := f.members.find? (fun m => m.id == id)

/-- Replaces a member. -/
def Phaser.setMember (f : Phaser) (m : PhMember) : Phaser :=
  { f with members := f.members.map (fun x => if x.id = m.id then m else x) }

/-- A signal of a member (R379): its s rises, and the phaser may advance. -/
def Phaser.signal (f : Phaser) (m : PhMember) (mark : Bool) : Phaser :=
  (f.setMember { m with s := m.s + 1, mark := mark }).settle

/-- A member leaves (R379): the last signaller of the open phase lets it advance once; the last member frees the phaser. -/
def Phaser.drop (f : Phaser) (m : PhMember) : Phaser :=
  let g := { f with members := f.members.filter (fun x => x.id != m.id) }
  let others := g.members.filter (fun x => x.signals)
  let g := if m.signals && decide (m.s ≤ f.phase) && others.all (fun x => decide (f.phase < x.s)) then { g with phase := g.phase + 1 } else g
  if g.members.isEmpty then { g with live := false, gen := (g.gen + 1) % 4096 } else g

/-- Drops a member of phaser `i` of a polder; a freed phaser goes back to its item's reservation (R379). -/
def State.phDrop (s : State) (node p i : Nat) (m : PhMember) : State :=
  let f := (s.polder node p).phaser i
  let g := f.drop m
  let s := s.setPhaser node p i g
  if g.live then s else
  let q := s.core node f.item.1
  -- a phaser that outlived its item makes room for a waiting item (R367)
  let room := s.enq .dispatch { node := node, core := f.item.1 }
  match q.item with
  | some it => if it.launch = f.item.2.1 ∧ it.wid = f.item.2.2 then
      s.setCore node f.item.1 { q with item := some { it with phLeft := it.phLeft + 1 } } else room
  | none => room

/-- A context that ends is dropped from every phaser of its die (R373, R379). -/
def State.phDropAll (s : State) (id : CtxId) : State :=
  (List.range 32).foldl (fun s j =>
    let p := id.die * 32 + j
    ((s.polder id.node p).phasers.filter (fun e => e.2.live)).foldl (fun s e =>
      match ((s.polder id.node p).phaser e.1).member id with
      | some m => s.phDrop id.node p e.1 m
      | none => s) s) s

/-- The registrations in use in a polder, of its 1,024 (R376). -/
def Polder.registrations (q : Polder) : Nat := q.phasers.foldl (fun n e => n + e.2.members.length) 0

end Sys2Proof.Machine
end

