-- ==== Sys2Proof/Machine/Units.lean ====
section
/-! DEFINITION. Unit operations that an ending context touches: byte barriers (R214, R215), mailboxes (R332), the lease (R307),
withdrawing EXCH commands (R228); then the end of a life (R373) and finishing an instruction. -/

namespace Sys2Proof.Machine
open Sys2Proof

/-! ## Byte barriers (R214, R215) -/

/-- The local address of a barrier stands in M-space and is 16-byte aligned (R217). -/
def barOk (la : Nat) : Bool := decide (la < 2 ^ 32) && fieldN la 29 3 == 2 && decide (fieldN la 0 29 + 16 ≤ 4 * 2 ^ 20) && la % 16 == 0

/-- COUNT of a barrier, signed. -/
def State.barCount (s : State) (node p la : Nat) : Int := signedN (memRead s.mem (spadAddr node p la) 4) 32
/-- Word 1 of a barrier (bytes 4-7). -/
def State.barWord (s : State) (node p la : Nat) : Nat := memRead s.mem (spadAddr node p (la + 4)) 4

/-- Writes COUNT and word 1 at the port. -/
def State.barSet (s : State) (node p la : Nat) (count : Int) (w : Nat) : State :=
  let a := spadAddr node p la
  let s := { s with mem := memWrite (memWrite s.mem a 4 (BitVec.ofInt 32 count).toNat) (a + 4) 4 w }
  (s.lostWordWrite a 8).portSeen node p la 8

/-- The word that holds a barrier's COUNT and word 1 is lost (R185). -/
def State.barLost (s : State) (node p la : Nat) : Bool := s.lostWordIn (spadAddr node p la) 8

/-- Sets FAULT of a barrier (R215, R226): word 1 alone is written. -/
def State.barFault (s : State) (node p la : Nat) : State :=
  let a := spadAddr node p (la + 4)
  let s := { s with mem := memWrite s.mem a 4 (s.barWord node p la ||| 2) }
  (s.lostWordWrite a 4).portSeen node p (la + 4) 4

/-- An update that adds `d` to COUNT: a BBEXP, or a piece that counts at scope `scope` (R215). A lost count cannot be read: FAULT (R185). -/
def State.barAdd (s : State) (node p la : Nat) (d : Int) (piece : Option Nat) : State :=
  let c := s.barCount node p la
  let w := s.barWord node p la
  if s.barLost node p la ∨ c + d < -2 ^ 31 ∨ 2 ^ 31 - 1 < c + d then s.barFault node p la
  else
    let w := match piece with
      | none => w ||| 4
      | some sc => w - fieldN w 4 3 * 16 + max (fieldN w 4 3) sc * 16
    let w := if fieldN w 2 1 = 1 ∧ c + d = 0 then (w ^^^ 1) - 4 else w
    s.barSet node p la (c + d) w

/-- A landed piece of `n` bytes lowers the barrier (R208, R215). -/
def State.barPiece (s : State) (node p la n scope : Nat) : State := s.barAdd node p la (-(n : Int)) (some scope)

/-! ## Engine fault records (R225, R226) -/

/-- A stopped command fills a free record, or waits, stopped, until one is free (R226). -/
def Engine.fileRec (e : Engine) (r : FaultRec) : Engine :=
  match (List.range 16).find? (fun k => (tfind e.recs k).isNone) with
  | some k => { e with recs := tset e.recs k r }
  | none => { e with stopped := e.stopped ++ [r] }

/-- A record becomes free: the oldest waiting stopped command takes it (R226). -/
def Engine.freeRec (e : Engine) (k : Nat) : Engine :=
  let e := { e with recs := tdel e.recs k }
  match e.stopped with
  | [] => e
  | r :: rest => { e with stopped := rest, recs := tset e.recs k r }

/-- Frees a command's scoreboard and range-lock entries (R194). -/
def Polder.freeRanges (q : Polder) (no : Nat) : Polder :=
  { q with sb := q.sb.filter (fun e => e.cmd != no), rl := q.rl.filter (fun e => e.cmd != no) }

/-- A command's table entries go, and its pins (R194, R102). -/
def State.freeCmd (s : State) (node p no : Nat) : State :=
  let s := s.unpin no
  s.setPolder node p ((s.polder node p).freeRanges no)

/-- The barrier address of a command: g6 for the array commands, else g0's upper half (R209, R212, R222, R223, R313). -/
def Cmd.bar (c : Cmd) : Nat := c.recBar

/-- A command stops with a fault (R226): FAULT on its barrier (a join copy's stands in the owner's polder, R404), its table entries
freed, a record filled. -/
def State.stopCmd (s : State) (node p : Nat) (c : Cmd) (cause : Cause) (fva : Word) (respt : Nat) (array : Bool) : State :=
  let s := if c.hw = 2 then s.barFault c.g[12].toNat c.g[13].toNat c.bar else s.barFault node p c.bar
  let s := s.freeCmd node p c.no
  let q := s.polder node p
  s.setPolder node p { q with engine := q.engine.fileRec ⟨cause.code, fva, respt, c, array⟩ }

/-! ## Mailboxes (R327 to R332) -/

/-- Unbinds a mailbox (R332): its entries are discarded, and each queued credit request is answered with one credit, as a request
for a handle that names no binding (R337). -/
def State.unbind (s : State) (node p m : Nat) : State :=
  match tfind (s.polder node p).mboxes m with
  | none => s
  | some b =>
    let h : Word := BitVec.ofNat 64 (b.owner.node * 2 ^ 52 + b.owner.die * 2 ^ 49 + b.owner.polder % 32 * 2 ^ 44 + b.owner.core % 8 * 2 ^ 41 +
      b.owner.slot % 16 * 2 ^ 37 + b.gen.toNat * 2 ^ 25 + m * 2 ^ 16)
    let s := { s with flights := s.flights ++ b.reqs.map (fun (r : Nat × Nat × Nat) => Flight.grant h r.1 r.2.1 1 0) }
    let s := b.reqs.foldl (fun s (r : Nat × Nat × Nat) => s.enq .creditGrant { node := r.1, core := r.2.1 }) s
    s.setPolder node p { s.polder node p with mboxes := tdel (s.polder node p).mboxes m }

/-- Unbinds every mailbox that a context owns (R332, R373). -/
def State.unbindAll (s : State) (id : CtxId) : State :=
  ((s.polder id.node id.polder).mboxes.filter (fun e => e.2.owner == id)).foldl (fun s e => s.unbind id.node id.polder e.1) s

/-! ## The lease (R303 to R307) -/

/-- The context holds a lease, granted or suspended. -/
def ArraySt.leased (a : ArraySt) (id : CtxId) : Bool := (a.holder == some id && !a.ending) || a.susp.any (fun x => x.id == id)

/-- The array is to arbitrate its lease at its next command boundary (R305): one such event waits at most. -/
def State.askLease (s : State) (node p : Nat) : State :=
  if s.work.any (fun w => w.1 == .leaseArbitration && w.2.node == node && w.2.n == p) then s
  else s.enq .leaseArbitration { node := node, n := p }

/-- Each not-started command of an ending lease is discarded and sets FAULT on its barrier (R307). -/
def State.discardCmds (s : State) (node p : Nat) (l : List Cmd) : State :=
  l.foldl (fun s c => (s.barFault node p c.bar).freeCmd node p c.no) s

/-- The stopped array commands of a lease of a context's life leave the fault records (R307). -/
def Engine.dropStopped (e : Engine) (id : CtxId) (gen : BitVec 12) : Engine :=
  let own := fun (r : FaultRec) => r.array && r.cmd.id == id && r.cmd.cgen == gen
  let mine := (e.recs.filter (fun x => own x.2)).map (·.1)
  let e := { e with stopped := e.stopped.filter (fun r => !own r) }
  mine.foldl (fun e k => e.freeRec k) e

/-- The granted lease is released: the banks' contents are discarded, and the array is granted anew (R305, R307). -/
def State.leaseGone (s : State) (node p : Nat) : State :=
  let q := s.polder node p
  let a := { q.array with holder := none, ending := false, hiQ := [], loQ := [], hstop := false, lstop := false, quantum := 0, next := none,
                          bank0 := Bank.reset, bank1 := Bank.reset }
  let s := s.setPolder node p { q with array := a }
  if a.waiting ≠ [] ∨ a.susp ≠ [] then s.askLease node p else s

/-- The lease of a context ends (R307): its queued commands are discarded. UNLEASE discards its stopped commands too; a termination
(`unlease` false) leaves their records, and a running command completes or stops before the lease is released. -/
def State.endLease (s : State) (id : CtxId) (unlease : Bool) : State :=
  let node := id.node
  let p := id.polder
  let a := (s.polder node p).array
  let mine := a.holder == some id && !a.ending
  let queued := if mine then a.hiQ ++ a.loQ else
    (a.susp.filter (fun x => x.id == id)).foldl (fun l x => l ++ x.hiQ ++ x.loQ) []
  let s := s.discardCmds node p queued
  let q := s.polder node p
  let a := { q.array with susp := q.array.susp.filter (fun x => x.id != id), waiting := q.array.waiting.filter (fun x => x.1 != id) }
  let e := if unlease then q.engine.dropStopped id (s.ctx id).gen else q.engine
  let s := s.setCtx id { s.ctx id with granted := false }
  if !mine then s.setPolder node p { q with engine := e, array := a }
  else if a.run.isSome then s.setPolder node p { q with engine := e, array := { a with hiQ := [], loQ := [], ending := true } }
  else (s.setPolder node p { q with engine := e, array := a }).leaseGone node p

/-! ## The end of a life -/

/-- The context's unmatched EXCH commands are withdrawn (R228); those of a set that has been formed run on. -/
def State.withdrawExch (s : State) (id : CtxId) : State :=
  let gone := (s.polder id.node id.polder).engine.exch.filter (fun c => c.id == id)
  let s := gone.foldl (fun s c => s.freeCmd id.node id.polder c.no) s
  let q := s.polder id.node id.polder
  s.setPolder id.node id.polder { q with engine := { q.engine with exch := q.engine.exch.filter (fun c => c.id != id) } }

/-- The commands that a context has issued and that have neither completed nor stopped (R228, R232). -/
def State.openCmdsOf (s : State) (id : CtxId) (gen : BitVec 12) : Bool :=
  let q := s.polder id.node id.polder
  let mine := fun (c : Cmd) => c.id == id && c.cgen == gen && c.hw == 0
  (q.engine.hiQ ++ q.engine.loQ ++ q.engine.run ++ q.engine.exch ++ q.engine.sets.flatten).any mine ||
    (match q.engine.exRun with | some e => e.cmds.any mine | none => false) ||
    (q.array.hiQ ++ q.array.loQ).any mine || (match q.array.run with | some c => mine c | none => false) ||
    q.array.susp.any (fun x => (x.hiQ ++ x.loQ).any mine) ||
    s.colls.any (fun x => x.mems.any (fun m => m.st == 0 && mine m.cmd)) || s.clones.any (fun x => mine x.cmd)

/-- The same of the context's own life. -/
def State.openCmds (s : State) (id : CtxId) : Bool := s.openCmdsOf id (s.ctx id).gen

/-- A credit goes back to a replica's partition, or to its pool (64) (R397); a forwarded token (65) holds none. -/
def Repl.credit (r : Repl) (part : Nat) : Repl :=
  if 64 < part then r else if part = 64 then { r with pool := r.pool + 1 } else { r with parts := tset r.parts part (tget 0 r.parts part + 1) }

/-- A credit goes back to the slot manager of a name. -/
def State.creditBack (s : State) (node p name part : Nat) : State :=
  let q := s.polder node p
  match tfind q.repls name with
  | none => s
  | some r => s.setPolder node p { q with repls := tset q.repls name (r.credit part) }

/-- An abandoned token wait gives an unused credit back; its pair stays pending in the slot (R401). -/
def State.dropTok (s : State) (id : CtxId) : State :=
  match (s.ctx id).tok with
  | some t =>
    let s := if t.stage = 1 then s.creditBack t.node t.polder t.name t.part else s
    s.setCtx id { s.ctx id with tok := none }
  | none => s

/-- Steps 4 and 5 of QUIT (R373): phaser registrations dropped, mailboxes unbound, locks broken, ports unbound (R241), the slot
FREE with its last-end status, and its generation raised. A pending token pair stays in the slot (R401). -/
def State.endLife (s : State) (id : CtxId) (how : LastEnd) : State :=
  let s := (((s.phDropAll id).unbindAll id).breakLocks id).dropTok id
  let c := s.ctx id
  s.setCtx id { c.unwait with
                       st := .free, lastEnd := how, gen := c.gen + 1, loopActive := false, ports := Ctx.reset.ports, granted := false, nmPending := 0, nmErrors := [], ra := false }

/-- A mailbox handler has ended: its mailbox may start another (R331). -/
def State.handlerEnded (s : State) (id : CtxId) (gen : BitVec 12) : State :=
  let q := s.polder id.node id.polder
  let hit := q.mboxes.filter (fun e => e.2.handler == some (id.slot, gen) && e.2.owner.core == id.core)
  let s := s.setPolder id.node id.polder { q with mboxes := tmap q.mboxes (fun _ b =>
    if b.handler == some (id.slot, gen) && b.owner.core == id.core then { b with handler := none } else b) }
  hit.foldl (fun s e => s.enq .handlerStart { node := id.node, n := id.polder, m := e.1 }) s

/-- A terminated context whose commands still run, or whose near-memory operations are on their way, is kept by its launch's queue, which waits for them (R368, R382). -/
def State.noteDying (s : State) (id : CtxId) (gen : BitVec 12) (launch : Nat) : State :=
  if !(s.openCmdsOf id gen) && !(s.nmOps.any (fun o => o.id == id && o.cgen == gen)) then s else
  match tfind (s.pkg id.node).launches launch with
  | none => s
  | some l =>
    let x := s.queue id.node l.queue
    s.setQueue id.node l.queue { x with dying := x.dying ++ [(id, gen)] }

/-- Every context of a core's item stands at an instruction boundary: none is inside a pair (R52). -/
def State.atBoundary (s : State) (node k : Nat) : Bool := (List.range 11).all (fun j => !(s.ctx ⟨node, k, j⟩).pairHeld)

/-- A live context of an item is terminated (R373, R382): its waits are abandoned, its lease ends, its commands run on. -/
def State.terminate (s : State) (id : CtxId) : State :=
  let c := s.ctx id
  if c.st = .free ∨ (c.st = .saved ∧ id.slot < 16) then s else
  let s := (s.endLease id false).withdrawExch id
  let s := (s.endLife id .terminated).handlerEnded id c.gen
  let q := s.core id.node id.core
  let s := match q.item with
    | some it => if id.slot ≤ 10 then s.noteDying id c.gen it.launch else s
    | none => s
  if 16 ≤ id.slot then s else s.setCore id.node id.core { q with pend := q.pend &&& ~~~(BitVec.ofNat 11 (2 ^ id.slot)) }

/-! ## Finishing an instruction -/

/-- A trap of the issuing instruction: the first-failure record of a LOST region (R92) is kept; a run-ahead helper ends instead of
trapping (R372). -/
def State.trapNow (s : State) (t : TrapInfo) (long pfx : Bool) : State :=
  let s := match t.fill with | some va => s.keepFill s.req va | none => s
  let s := { s.noteFail t with pfx := none, idle := false }
  let id := s.cur
  if s.c.ra then (s.terminate id).switchSlot id.node id.core
  else
    -- a waiter of a lock whose fetch faults on its re-run is parked, and absent (R161, R170)
    let s := if t.acc = 3 ∧ id.slot ≤ 10 then s.markAbsent id true else s
    s.takeTrap id t long false pfx

/-- A stalled instruction keeps the words it has fetched (R52); a pair keeps both its instructions, any other stands twice. -/
def State.holdWords (s : State) (i : Instr) : State :=
  match s.c.held with
  | some _ => s
  | none => s.setC { s.c with held := some (i, i) }

/-- What an instruction's result makes of the machine: it retires with `done`, traps with no effect left (R414), or stalls. -/
def finishWith (i : Instr) (s : State) (r : Except Stop α) (done : α → State) : Out :=
  match r with
  | .ok a => .next (done a)
  | .error (.trap t) => .next (s.trapNow t (isLong i) s.pfx.isSome)
  | .error (.trapKeep t s') => .next (s'.trapNow t (isLong i) s.pfx.isSome)
  | .error (.wait w s') => .next ((s'.holdWords i).stall w)

/-- Finishes an instruction that does not transfer control. -/
def finish (i : Instr) (s : State) (r : Res) : Out := finishWith i s r (fun s' => s'.retire i)

/-- Finishes an instruction that may transfer control: to the target, if there is one. -/
def finishJump (i : Instr) (s : State) (r : Except Stop (State × Option Word)) : Out :=
  finishWith i s r (fun x => match x.2 with | some t => x.1.retireTo t | none => x.1.retire i)

end Sys2Proof.Machine
end

