-- ==== Sys2Proof/Machine/Operands.lean ====
section
/-! DEFINITION. Operand forms: the immediates of the layouts (R43, R44), the addresses that loads, stores and branches form, the
widths of load and store forms (R126), scopes. -/

namespace Sys2Proof.Machine
open Sys2Proof

/-- imm14, sign-extended (R44). -/
def imm14 (i : BitVec 14) : Word := i.signExtend 64
/-- An imm19 as a byte offset from the instruction: 4 × sext (R44). -/
def imm19Off (i : BitVec 19) : Word := i.signExtend 64 * 4
/-- A branch's word offset as a byte offset (R44). -/
def imm14Off (i : BitVec 14) : Word := i.signExtend 64 * 4
/-- A payload, sign-extended. -/
def imm32 (i : BitVec 32) : Word := i.signExtend 64
/-- A 9-bit offset in units of `n` bytes (R126, R199). -/
def off9 (o : BitVec 9) (n : Nat) : Word := o.signExtend 64 * BitVec.ofNat 64 n

/-- The access width of a load form (R126): LB LBU LH LHU LW LWU LD. -/
def loadWidth (form : Nat) : Nat := match form with | 0 => 1 | 1 => 1 | 2 => 2 | 3 => 2 | 4 => 4 | 5 => 4 | _ => 8
/-- A load form sign-extends. -/
def loadSigned (form : Nat) : Bool := match form with | 0 => true | 2 => true | 4 => true | _ => false
/-- The access width of a store form: SB SH SW SD. -/
def storeWidth (form : Nat) : Nat := match form with | 0 => 1 | 1 => 2 | 2 => 4 | _ => 8

/-- The value a load form delivers (R127). -/
def loadValue (form v : Nat) : Word := if loadSigned form then sextN v (8 * loadWidth form) else BitVec.ofNat 64 v

/-- The word of an instruction as TVAL holds it (R57, R418). -/
def wordOf (w : Nat) : Word := BitVec.ofNat 64 w

end Sys2Proof.Machine
end

