-- ==== Sys2Proof/Machine/ScalarInt.lean ====
section
/-! DEFINITION. Scalar integer instructions, bit fields and constants (R259 to R266). -/

namespace Sys2Proof.Machine
open Sys2Proof

/-! ## Shared operations -/

/-- X(rd) := v, and the instruction retires. -/
def writeX (i : Instr) (d : Reg) (v : Word) (s : State) : Out := finish i s (.ok (s.setX d v))

/-- The word of a truth value. -/
def boolW (b : Bool) : Word := if b then 1 else 0
/-- The low 32 bits, sign-extended (the W forms). -/
def sextW (w : Word) : Word := (w.setWidth 32).signExtend 64
/-- The shift amount of R260: bits [5:0]. -/
def shamt (b : Word) : Nat := b.toNat % 64
/-- Bits [127:64] of a signed product. -/
def mulHighS (a b : Word) : Word := BitVec.ofInt 64 (a.toInt * b.toInt / 2 ^ 64)
/-- Bits [127:64] of an unsigned product. -/
def mulHighU (a b : Word) : Word := BitVec.ofNat 64 (a.toNat * b.toNat / 2 ^ 64)
/-- DIV with the edge cases of R263. -/
def divS (a b : Word) : Word := if b = 0 then BitVec.allOnes 64 else a.sdiv b
/-- DIVU with the edge case of R263. -/
def divU (a b : Word) : Word := if b = 0 then BitVec.allOnes 64 else a.udiv b
/-- REM: a − b × the DIV result (R262, R263). -/
def remS (a b : Word) : Word := if b = 0 then a else a - b * divS a b
/-- REMU (R262, R263). -/
def remU (a b : Word) : Word := if b = 0 then a else a - b * divU a b

/-- Counts the zero bits of `w` from bit `k - 1` down to its highest 1 bit. -/
def leadingZeros (w : Word) : Nat → Nat
  | 0 => 0
  | k + 1 => if w.getLsbD k then 0 else 1 + leadingZeros w k
/-- Counts the zero bits of `w` from bit `k` up, `n` bits left. -/
def trailingZeros (w : Word) (k : Nat) : Nat → Nat
  | 0 => 0
  | n + 1 => if w.getLsbD k then 0 else 1 + trailingZeros w (k + 1) n
/-- The number of 1 bits among the low `n` bits. -/
def popCount (w : Word) : Nat → Nat
  | 0 => 0
  | n + 1 => (w.getLsbD n).toNat + popCount w n

/-- A field group of R264 and R265: POS + WM1 + 1 > 64 is illegal. -/
def bitField (i : Instr) (word : Nat) (d : Reg) (w p : BitVec 6) (f : Nat → Nat → Word) (s : State) : Out :=
  finish i s (if 64 < p.toNat + w.toNat + 1 then raise .illegalInstr (wordOf word)
    else .ok (s.setX d (f p.toNat (w.toNat + 1))))

/-- The word of a bit-field instruction of major 0x09 (R264). -/
def bitFieldWord (sel : Nat) (d a : Reg) (p w : BitVec 6) : Nat :=
  sel * 2 ^ 30 + w.toNat * 2 ^ 24 + p.toNat * 2 ^ 18 + a.toNat * 2 ^ 13 + d.toNat * 2 ^ 8 + 0x24

/-- `x` with bits [p + w - 1 : p] replaced by the low `w` bits of `a` (R265). -/
def insertField (x a : Word) (p w : Nat) : Word :=
  let m : Word := BitVec.ofNat 64 (2 ^ w - 1)
  (x &&& ~~~(m <<< p)) ||| ((a &&& m) <<< p)

/-! ## Register-register operations (R260) -/

/-- ADD: wrap(a + b, 64) (R260). -/
def execAdd (d a b : Reg) (s : State) : Out := writeX (.add d a b) d (s.X a + s.X b) s

/-- SUB: wrap(a - b, 64) (R260). -/
def execSub (d a b : Reg) (s : State) : Out := writeX (.sub d a b) d (s.X a - s.X b) s

/-- AND (R260). -/
def execAnd (d a b : Reg) (s : State) : Out := writeX (.and d a b) d (s.X a &&& s.X b) s

/-- OR (R260). -/
def execOr (d a b : Reg) (s : State) : Out := writeX (.or d a b) d (s.X a ||| s.X b) s

/-- XOR (R260). -/
def execXor (d a b : Reg) (s : State) : Out := writeX (.xor d a b) d (s.X a ^^^ s.X b) s

/-- SLL (R260). -/
def execSll (d a b : Reg) (s : State) : Out := writeX (.sll d a b) d (s.X a <<< shamt (s.X b)) s

/-- SRL (R260). -/
def execSrl (d a b : Reg) (s : State) : Out := writeX (.srl d a b) d (s.X a >>> shamt (s.X b)) s

/-- SRA (R260). -/
def execSra (d a b : Reg) (s : State) : Out := writeX (.sra d a b) d ((s.X a).sshiftRight (shamt (s.X b))) s

/-- SLT (R260). -/
def execSlt (d a b : Reg) (s : State) : Out := writeX (.slt d a b) d (boolW ((s.X a).slt (s.X b))) s

/-- SLTU (R260). -/
def execSltu (d a b : Reg) (s : State) : Out := writeX (.sltu d a b) d (boolW ((s.X a).ult (s.X b))) s

/-- MIN (R260). -/
def execMin (d a b : Reg) (s : State) : Out := writeX (.min d a b) d (if (s.X b).slt (s.X a) then s.X b else s.X a) s

/-- MAX (R260). -/
def execMax (d a b : Reg) (s : State) : Out := writeX (.max d a b) d (if (s.X a).slt (s.X b) then s.X b else s.X a) s

/-- MINU (R260). -/
def execMinu (d a b : Reg) (s : State) : Out := writeX (.minu d a b) d (if (s.X b).ult (s.X a) then s.X b else s.X a) s

/-- MAXU (R260). -/
def execMaxu (d a b : Reg) (s : State) : Out := writeX (.maxu d a b) d (if (s.X a).ult (s.X b) then s.X b else s.X a) s

/-- ADDW: the low 32 bits of the sum, sign-extended (R260). -/
def execAddw (d a b : Reg) (s : State) : Out := writeX (.addw d a b) d (sextW (s.X a + s.X b)) s

/-- SUBW (R260). -/
def execSubw (d a b : Reg) (s : State) : Out := writeX (.subw d a b) d (sextW (s.X a - s.X b)) s

/-- ANDN (R260). -/
def execAndn (d a b : Reg) (s : State) : Out := writeX (.andn d a b) d (s.X a &&& ~~~(s.X b)) s

/-- ORN (R260). -/
def execOrn (d a b : Reg) (s : State) : Out := writeX (.orn d a b) d (s.X a ||| ~~~(s.X b)) s

/-- ROL (R260). -/
def execRol (d a b : Reg) (s : State) : Out := writeX (.rol d a b) d ((s.X a).rotateLeft (shamt (s.X b))) s

/-- ROR (R260). -/
def execRor (d a b : Reg) (s : State) : Out := writeX (.ror d a b) d ((s.X a).rotateRight (shamt (s.X b))) s

/-! ## Immediate operations (R261) -/

/-- ADDI (R261). -/
def execAddi (d a : Reg) (i : BitVec 14) (s : State) : Out := writeX (.addi d a i) d (s.X a + imm14 i) s

/-- ANDI (R261). -/
def execAndi (d a : Reg) (i : BitVec 14) (s : State) : Out := writeX (.andi d a i) d (s.X a &&& imm14 i) s

/-- ORI (R261). -/
def execOri (d a : Reg) (i : BitVec 14) (s : State) : Out := writeX (.ori d a i) d (s.X a ||| imm14 i) s

/-- XORI (R261). -/
def execXori (d a : Reg) (i : BitVec 14) (s : State) : Out := writeX (.xori d a i) d (s.X a ^^^ imm14 i) s

/-- SLTI (R261). -/
def execSlti (d a : Reg) (i : BitVec 14) (s : State) : Out := writeX (.slti d a i) d (boolW ((s.X a).slt (imm14 i))) s

/-- SLLI (R261). -/
def execSlli (d a : Reg) (n : BitVec 6) (s : State) : Out := writeX (.slli d a n) d (s.X a <<< n.toNat) s

/-- SRLI (R261). -/
def execSrli (d a : Reg) (n : BitVec 6) (s : State) : Out := writeX (.srli d a n) d (s.X a >>> n.toNat) s

/-- SRAI (R261). -/
def execSrai (d a : Reg) (n : BitVec 6) (s : State) : Out := writeX (.srai d a n) d ((s.X a).sshiftRight n.toNat) s

/-- RORI (R261). -/
def execRori (d a : Reg) (n : BitVec 6) (s : State) : Out := writeX (.rori d a n) d ((s.X a).rotateRight n.toNat) s

/-! ## Multiply and divide (R262, R263) -/

/-- MUL: the low 64 bits of the product (R262). -/
def execMul (d a b : Reg) (s : State) : Out := writeX (.mul d a b) d (s.X a * s.X b) s

/-- MULH (R262). -/
def execMulh (d a b : Reg) (s : State) : Out := writeX (.mulh d a b) d (mulHighS (s.X a) (s.X b)) s

/-- MULHU (R262). -/
def execMulhu (d a b : Reg) (s : State) : Out := writeX (.mulhu d a b) d (mulHighU (s.X a) (s.X b)) s

/-- DIV (R262, R263). -/
def execDiv (d a b : Reg) (s : State) : Out := writeX (.div d a b) d (divS (s.X a) (s.X b)) s

/-- DIVU (R262, R263). -/
def execDivu (d a b : Reg) (s : State) : Out := writeX (.divu d a b) d (divU (s.X a) (s.X b)) s

/-- REM (R262, R263). -/
def execRem (d a b : Reg) (s : State) : Out := writeX (.rem d a b) d (remS (s.X a) (s.X b)) s

/-- REMU (R262, R263). -/
def execRemu (d a b : Reg) (s : State) : Out := writeX (.remu d a b) d (remU (s.X a) (s.X b)) s

/-- MULW: the low 32 bits of the product, sign-extended (R262). -/
def execMulw (d a b : Reg) (s : State) : Out := writeX (.mulw d a b) d (sextW (s.X a * s.X b)) s

/-! ## Bit fields and counts (R264, R265) -/

/-- BFX (R265). -/
def execBfx (d a : Reg) (p w : BitVec 6) (s : State) : Out :=
  bitField (.bfx d a p w) (bitFieldWord 0 d a p w) d w p (fun lo n => BitVec.ofNat 64 (fieldW (s.X a) lo n)) s

/-- BFXS (R265). -/
def execBfxs (d a : Reg) (p w : BitVec 6) (s : State) : Out :=
  bitField (.bfxs d a p w) (bitFieldWord 1 d a p w) d w p (fun lo n => sextN (fieldW (s.X a) lo n) n) s

/-- BFI: every other bit of X(rd) is kept (R265). -/
def execBfi (d a : Reg) (p w : BitVec 6) (s : State) : Out :=
  bitField (.bfi d a p w) (bitFieldWord 2 d a p w) d w p (fun lo n => insertField (s.X d) (s.X a) lo n) s

/-- CLZ (R265). -/
def execClz (d a : Reg) (s : State) : Out := writeX (.clz d a) d (BitVec.ofNat 64 (leadingZeros (s.X a) 64)) s

/-- CTZ (R265). -/
def execCtz (d a : Reg) (s : State) : Out := writeX (.ctz d a) d (BitVec.ofNat 64 (trailingZeros (s.X a) 0 64)) s

/-- POPC (R265). -/
def execPopc (d a : Reg) (s : State) : Out := writeX (.popc d a) d (BitVec.ofNat 64 (popCount (s.X a) 64)) s

/-! ## Constants and PC-relative addresses (R266) -/

/-- LDHI: sext(imm19, 19) × 2^14 (R266). -/
def execLdhi (d : Reg) (i : BitVec 19) (s : State) : Out := writeX (.ldhi d i) d (i.signExtend 64 * 16384) s

/-- ADDPC: PC + 4 × sext(imm19, 19) (R266). -/
def execAddpc (d : Reg) (i : BitVec 19) (s : State) : Out := writeX (.addpc d i) d (s.c.pc + imm19Off i) s

/-- LDI: sext(payload, 32) (R266). -/
def execLdi (d : Reg) (imm : BitVec 32) (s : State) : Out := writeX (.ldi d imm) d (imm32 imm) s

/-- LDIU: zext(payload, 32) (R266). -/
def execLdiu (d : Reg) (imm : BitVec 32) (s : State) : Out := writeX (.ldiu d imm) d (imm.zeroExtend 64) s

/-- ADDIL: X(rs1) + sext(payload, 32) (R266). -/
def execAddil (d a : Reg) (imm : BitVec 32) (s : State) : Out := writeX (.addil d a imm) d (s.X a + imm32 imm) s

end Sys2Proof.Machine
end

