-- ==== Sys2Proof/Machine/Control.lean ====
section
/-! DEFINITION. Branches, jumps and the hardware loop (R267 to R272). -/

namespace Sys2Proof.Machine
open Sys2Proof

/-- A branch: taken to PC + 4 × sext(offset, 14) when the comparison holds, else on at PC + 4 (R267). -/
def branch (i : Instr) (o : BitVec 14) (c : Bool) (s : State) : Out :=
  finishJump i s (.ok (s, if c then some (s.c.pc + imm14Off o) else none))

/-- BEQ (R267). -/
def execBeq (a b : Reg) (o : BitVec 14) (s : State) : Out := branch (.beq a b o) o (s.X a == s.X b) s
/-- BNE (R267). -/
def execBne (a b : Reg) (o : BitVec 14) (s : State) : Out := branch (.bne a b o) o (s.X a != s.X b) s
/-- BLT (R267). -/
def execBlt (a b : Reg) (o : BitVec 14) (s : State) : Out := branch (.blt a b o) o ((s.X a).slt (s.X b)) s
/-- BGE (R267). -/
def execBge (a b : Reg) (o : BitVec 14) (s : State) : Out := branch (.bge a b o) o (!(s.X a).slt (s.X b)) s
/-- BLTU (R267). -/
def execBltu (a b : Reg) (o : BitVec 14) (s : State) : Out := branch (.bltu a b o) o ((s.X a).ult (s.X b)) s
/-- BGEU (R267). -/
def execBgeu (a b : Reg) (o : BitVec 14) (s : State) : Out := branch (.bgeu a b o) o (!(s.X a).ult (s.X b)) s

/-- A jump writes its link and transfers control (R268). -/
def jumpLink (i : Instr) (d : Reg) (link target : Word) (s : State) : Out :=
  finishJump i s (.ok (s.setX d link, some target))

/-- JAL (R268). -/
def execJal (d : Reg) (i : BitVec 19) (s : State) : Out := jumpLink (.jal d i) d (s.c.pc + 4) (s.c.pc + imm19Off i) s

/-- JALR: a target that is not a multiple of 4 raises MISALIGNED, and neither rd nor PC changes (R268). -/
def execJalr (d a : Reg) (i : BitVec 14) (s : State) : Out :=
  let t := s.X a + imm14 i
  finishJump (.jalr d a i) s
    (if t.toNat % 4 ≠ 0 then raise .misaligned t else .ok (s.setX d (s.c.pc + 4), some t))

/-- JL (R268). -/
def execJl (d : Reg) (imm : BitVec 32) (s : State) : Out := jumpLink (.jl d imm) d (s.c.pc + 8) (s.c.pc + imm32 imm * 4) s

/-- LOOP (R270, R271): with a loop active it is illegal; a trip count of 0 skips the body. -/
def execLoop (c : Reg) (l : BitVec 14) (s : State) : Out :=
  let n := s.X c
  let word := l.toNat * 2 ^ 18 + c.toNat * 2 ^ 13 + 0x50
  finishJump (.loop c l) s
    (if s.c.loopActive ∨ l = 0 then raise .illegalInstr (wordOf word)
     else if n = 0 then .ok (s, some (s.c.pc + 4 + 4 * l.zeroExtend 64))
     else .ok (s.setC { s.c with lstart := s.c.pc + 4, lend := s.c.pc + 4 * l.zeroExtend 64, lrem := n, loopActive := true },
       some (s.c.pc + 4)))

end Sys2Proof.Machine
end

