-- ==== Sys2Proof/Machine/Csr.lean ====
section
/-! DEFINITION. The control and status registers (R231, R232, R99, R188, R415, R416) and CSR access (R273 to R275). -/

namespace Sys2Proof.Machine
open Sys2Proof

/-- A CSR of R231. -/
inductive Csr where
  | ctxstat | fpstat | rmode | srseed | tcause | tpc | tval | tinfo | tslot | tvec | asid | ptroot | vshare | leaseq
  | wscale6 | wscale7 | cycle | instret | spillcnt | dupcnt | priv
deriving DecidableEq, Repr, Inhabited

/-- The CSR at an address (R231). -/
def csrAt (a : Nat) : Option Csr :=
  match a with
  | 0x000 => some .ctxstat | 0x001 => some .fpstat | 0x002 => some .rmode | 0x003 => some .srseed
  | 0x010 => some .tcause | 0x011 => some .tpc | 0x012 => some .tval | 0x013 => some .tinfo | 0x014 => some .tslot | 0x015 => some .tvec
  | 0x020 => some .asid | 0x021 => some .ptroot | 0x030 => some .vshare | 0x031 => some .leaseq
  | 0x040 => some .wscale6 | 0x041 => some .wscale7 | 0x050 => some .cycle | 0x051 => some .instret
  | 0x060 => some .spillcnt | 0x061 => some .dupcnt | 0x070 => some .priv
  | _ => none

/-- The columns User and System of R231. -/
inductive CsrRight where
  | hidden | read | readWrite
deriving DecidableEq, Repr, Inhabited

/-- A context's right to a CSR (R231). -/
def Csr.right (r : Csr) (sys : Bool) : CsrRight :=
  match r with
  | .ctxstat => .read | .fpstat => .readWrite | .rmode => .readWrite | .srseed => .readWrite
  | .tcause => if sys then .readWrite else .hidden | .tpc => if sys then .readWrite else .hidden
  | .tval => if sys then .readWrite else .hidden | .tinfo => if sys then .readWrite else .hidden
  | .tslot => if sys then .read else .hidden | .tvec => if sys then .readWrite else .hidden
  | .asid => if sys then .readWrite else .read | .ptroot => if sys then .readWrite else .read
  | .vshare => if sys then .readWrite else .read | .leaseq => if sys then .readWrite else .read
  | .wscale6 => .readWrite | .wscale7 => .readWrite | .cycle => .read
  | .instret => if sys then .readWrite else .read | .spillcnt => if sys then .readWrite else .read
  | .dupcnt => if sys then .readWrite else .read | .priv => .read

/-- The context whose trap record the system context reaches: the slot being served, or its own (R416). -/
def State.trecId (s : State) : CtxId :=
  let q := s.cc
  { s.cur with slot := if q.sv then q.sslot.toNat else 11 }

/-- TSLOT (R416). -/
def CoreSt.tslotW (q : CoreSt) : Word :=
  BitVec.ofNat 64 (q.pend.toNat * 2 ^ 16 + q.osv.toNat * 2 ^ 9 + q.oslot.toNat * 2 ^ 5 + q.sv.toNat * 2 ^ 4 + q.sslot.toNat)

/-- The value a read of a CSR returns (R232, R274). -/
def State.csrRead (s : State) (r : Csr) : Word :=
  match r with
  | .ctxstat => BitVec.ofNat 64 ((s.openCmds s.cur).toNat * 2 ^ 19 + (s.c.nmPending != 0).toNat * 2 ^ 18 + s.c.ra.toNat * 2 ^ 17 +
      s.c.gen.toNat * 16 + s.cc.slot)
  | .fpstat => s.c.fpstat.zeroExtend 64
  | .rmode => s.c.rmode.zeroExtend 64
  | .srseed => s.c.srseed.zeroExtend 64
  | .tcause => (s.ctx s.trecId).tcause
  | .tpc => (s.ctx s.trecId).tpc
  | .tval => (s.ctx s.trecId).tval
  | .tinfo => (s.ctx s.trecId).tinfo
  | .tslot => s.cc.tslotW
  | .tvec => s.cc.tvec
  | .asid => s.c.asid.zeroExtend 64
  | .ptroot => s.c.ptroot
  | .vshare => s.cc.vshare.zeroExtend 64
  | .leaseq => BitVec.ofNat 64 (s.cc.hold.toNat * 2 ^ 32 + s.cc.quant.toNat)
  | .wscale6 => s.c.wscale6
  | .wscale7 => s.c.wscale7
  | .cycle => s.cycle s.fnode
  | .instret => s.c.instret
  | .spillcnt => s.pol.spillcnt
  | .dupcnt => s.pol.dupcnt
  | .priv => boolW s.sys

/-- The word with bits [1:0] cleared. -/
def clear2 (w : Word) : Word := w &&& ~~~3#64

/-- A write of a CSR under its field rules (R232, R99, R188, R415, R416): hardware-only and zero fields are unchanged. -/
def State.csrWrite (s : State) (r : Csr) (w : Word) : State :=
  let c := s.c
  match r with
  | .ctxstat => s
  | .fpstat => s.setC { c with fpstat := w.setWidth 5 }
  | .rmode => if fieldW w 0 3 ≤ 5 then s.setC { c with rmode := w.setWidth 3 } else s
  | .srseed => s.setC { c with srseed := if w.setWidth 32 = 0#32 then 1 else w.setWidth 32 }
  | .tcause => s.setCtx s.trecId { s.ctx s.trecId with tcause := w &&& 0xFF }
  | .tpc => s.setCtx s.trecId { s.ctx s.trecId with tpc := clear2 w }
  | .tval => s.setCtx s.trecId { s.ctx s.trecId with tval := w }
  | .tinfo => s.setCtx s.trecId { s.ctx s.trecId with tinfo := w &&& 0xFF }
  | .tslot => s
  | .tvec => s.setCC { s.cc with tvec := clear2 w }
  | .asid => s.setC { c with asid := w.setWidth 16 }
  | .ptroot => s.setC { c with ptroot := w &&& 0x03FFFFFFFFFF0000 }
  | .vshare => s.setCC { s.cc with vshare := w.setWidth 4 }
  | .leaseq =>
    let n := fieldW w 0 7
    s.setCC { s.cc with hold := BitVec.ofNat 32 (fieldW w 32 32), quant := if n = 0 ∨ 64 < n then s.cc.quant else BitVec.ofNat 7 n }
  | .wscale6 => s.setC { c with wscale6 := clear2 w }
  | .wscale7 => s.setC { c with wscale7 := clear2 w }
  | .cycle => s
  | .instret => s.setC { c with instret := w }
  | .spillcnt => s.setPol { s.pol with spillcnt := w }
  | .dupcnt => s.setPol { s.pol with dupcnt := w }
  | .priv => s

/-- The checks of R274 in their order, then the access. `f` forms the new value; a run-ahead helper's write is dropped (R259). An
instruction that writes INSTRET is not itself counted (R275). -/
def csrAccess (i : Instr) (word : Nat) (writes : Bool) (f : Word → Word) (d : Reg) (c : BitVec 12) (s : State) : Out :=
  match csrAt c.toNat with
  | none => finish i s (raise .illegalInstr (wordOf word))
  | some r =>
    match r.right s.sys with
    | .hidden => finish i s (raise .privilege (wordOf word))
    | .read =>
      if writes then
        finish i s (raise (if (r = .asid ∨ r = .ptroot) ∧ !s.sys then .privilege else .illegalInstr) (wordOf word))
      else writeX i d (s.csrRead r) s
    | .readWrite =>
      let old := s.csrRead r
      let s' := if writes && !s.c.ra then s.csrWrite r (f old) else s
      if writes && r == .instret then
        .next ((s'.setX d old).complete ((s'.setX d old).c.advance (instrBytes s i) false) false)
      else finish i s (.ok (s'.setX d old))

/-- The word of a CSR access (R273). -/
def csrWord (op : Nat) (d a : Reg) (c : BitVec 12) : Nat := op * 2 ^ 30 + c.toNat * 2 ^ 18 + a.toNat * 2 ^ 13 + d.toNat * 2 ^ 8 + 0x7C

/-- CSRRW: new := X(rs1) (R274). -/
def execCsrrw (d a : Reg) (c : BitVec 12) (s : State) : Out :=
  csrAccess (.csrrw d a c) (csrWord 0 d a c) true (fun _ => s.X a) d c s
/-- CSRRS: new := old or X(rs1); it writes when rs1 is not x0 (R274). -/
def execCsrrs (d a : Reg) (c : BitVec 12) (s : State) : Out :=
  csrAccess (.csrrs d a c) (csrWord 1 d a c) (a != 0) (fun old => old ||| s.X a) d c s
/-- CSRRC: new := old and not X(rs1) (R274). -/
def execCsrrc (d a : Reg) (c : BitVec 12) (s : State) : Out :=
  csrAccess (.csrrc d a c) (csrWord 2 d a c) (a != 0) (fun old => old &&& ~~~(s.X a)) d c s

end Sys2Proof.Machine
end

