-- ==== Sys2Proof/Machine/ScalarMem.lean ====
section
/-! DEFINITION. Scalar loads and stores (R126 to R128). -/

namespace Sys2Proof.Machine
open Sys2Proof

/-- A load of a form at an address (R127). In a run-ahead helper it becomes a prefetch that writes no register, and its fault is
discarded (R108, R127); a prefetch that cannot be served at once is discarded too (R182). Its translation stays in the slice's caches and in
the survey. -/
def loadInstr (i : Instr) (form : Nat) (d : Reg) (va : Word) (typ : Nat) (s : State) : Out :=
  let r := s.scalarLoad s.req va.toNat (loadWidth form) typ
  if s.c.ra then
    finish i s (.ok (match r with | .ok (s', _) => s' | .error _ => s.prefill s.req va.toNat (loadWidth form)))
  else
    finish i s (r.map (fun x => x.1.setX d (loadValue form x.2)))

/-- A store of a form at an address (R127); a run-ahead helper's store is dropped. -/
def storeInstr (i : Instr) (form : Nat) (v : Reg) (va : Word) (typ : Nat) (s : State) : Out :=
  if s.c.ra then finish i s (.ok s)
  else finish i s (s.scalarStore s.req va.toNat (storeWidth form) ((s.X v).toNat % 2 ^ (8 * storeWidth form)) typ)

/-- LB (R127). -/
def execLb (d a : Reg) (o : BitVec 9) (t : BitVec 2) (s : State) : Out := loadInstr (.lb d a o t) 0 d (s.X a + off9 o 1) t.toNat s
/-- LBU (R127). -/
def execLbu (d a : Reg) (o : BitVec 9) (t : BitVec 2) (s : State) : Out := loadInstr (.lbu d a o t) 1 d (s.X a + off9 o 1) t.toNat s
/-- LH (R127). -/
def execLh (d a : Reg) (o : BitVec 9) (t : BitVec 2) (s : State) : Out := loadInstr (.lh d a o t) 2 d (s.X a + off9 o 2) t.toNat s
/-- LHU (R127). -/
def execLhu (d a : Reg) (o : BitVec 9) (t : BitVec 2) (s : State) : Out := loadInstr (.lhu d a o t) 3 d (s.X a + off9 o 2) t.toNat s
/-- LW (R127). -/
def execLw (d a : Reg) (o : BitVec 9) (t : BitVec 2) (s : State) : Out := loadInstr (.lw d a o t) 4 d (s.X a + off9 o 4) t.toNat s
/-- LWU (R127). -/
def execLwu (d a : Reg) (o : BitVec 9) (t : BitVec 2) (s : State) : Out := loadInstr (.lwu d a o t) 5 d (s.X a + off9 o 4) t.toNat s
/-- LD (R127). -/
def execLd (d a : Reg) (o : BitVec 9) (t : BitVec 2) (s : State) : Out := loadInstr (.ld d a o t) 6 d (s.X a + off9 o 8) t.toNat s
/-- LDL: form and type in fn, a byte offset in the payload (R126). -/
def execLdl (d a : Reg) (f : BitVec 3) (t : BitVec 2) (imm : BitVec 32) (s : State) : Out :=
  loadInstr (.ldl d a f t imm) f.toNat d (s.X a + imm32 imm) t.toNat s

/-- SB (R127). -/
def execSb (v a : Reg) (o : BitVec 9) (t : BitVec 2) (s : State) : Out := storeInstr (.sb v a o t) 0 v (s.X a + off9 o 1) t.toNat s
/-- SH (R127). -/
def execSh (v a : Reg) (o : BitVec 9) (t : BitVec 2) (s : State) : Out := storeInstr (.sh v a o t) 1 v (s.X a + off9 o 2) t.toNat s
/-- SW (R127). -/
def execSw (v a : Reg) (o : BitVec 9) (t : BitVec 2) (s : State) : Out := storeInstr (.sw v a o t) 2 v (s.X a + off9 o 4) t.toNat s
/-- SD (R127). -/
def execSd (v a : Reg) (o : BitVec 9) (t : BitVec 2) (s : State) : Out := storeInstr (.sd v a o t) 3 v (s.X a + off9 o 8) t.toNat s
/-- STL: form and type in fn, a byte offset in the payload (R126). -/
def execStl (v a : Reg) (f : BitVec 3) (t : BitVec 2) (imm : BitVec 32) (s : State) : Out :=
  storeInstr (.stl v a f t imm) f.toNat v (s.X a + imm32 imm) t.toNat s

end Sys2Proof.Machine
end

