-- ==== Sys2Proof/Machine/Sync.lean ====
section
/-! DEFINITION. Geometry registers (R204), byte-barrier instructions (R216 to R220), phaser instructions (R376 to R380). -/

namespace Sys2Proof.Machine
open Sys2Proof

/-! ## GW, GR, GCLR (R204) -/

/-- GW: G(rd) := X(rs1). -/
def execGw (d a : Reg) (s : State) : Out := finish (.gw d a) s (.ok (s.setC (s.c.setG d (s.X a))))
/-- GR: X(rd) := G(rs1). -/
def execGr (d a : Reg) (s : State) : Out := writeX (.gr d a) d (s.c.gr a) s
/-- GCLR: every G register := 0. -/
def execGclr (s : State) : Out := finish .gclr s (.ok (s.setC { s.c with g := Vector.replicate 32 0 }))

/-! ## Byte barriers -/

/-- The address checks of R217 on a barrier operand. -/
def barAddr (x : Word) : Except Stop Nat :=
  let la := fieldW x 0 32
  if fieldW x 32 32 ≠ 0 ∨ fieldN la 29 3 ≠ 2 ∨ 4 * 2 ^ 20 < fieldN la 0 29 + 16 then raise .illegalAddress x
  else if la % 16 ≠ 0 then raise .misaligned x
  else .ok la

/-- The issuing core's polder index. -/
def State.pIdx (s : State) : Nat := s.fcore / 8

/-- An acquire at polder scope or wider: every untracked copy in the core's L1 is dropped (R141, R151). -/
def State.acquire (s : State) : State :=
  s.setCC (s.cc.forget s.clock (fun l => l.st == .untracked))

/-- BBINIT: all 16 bytes written (R218). A run-ahead helper drops the barrier instructions (R217). -/
def execBbinit (a : Reg) (s : State) : Out :=
  finish (.bbinit a) s (if s.c.ra then .ok s else do
    let la ← barAddr (s.X a)
    .ok ((({ s with mem := memZero s.mem (spadAddr s.fnode s.pIdx la) 16 } : State).lostWordWrite (spadAddr s.fnode s.pIdx la) 16).portSeen
      s.fnode s.pIdx la 16))

/-- BBEXP: δ = +n, or FAULT for n ≥ 2^31 (R218). Operands as the table orders them: rs1, rs2. -/
def execBbexp (a n : Reg) (s : State) : Out :=
  finish (.bbexp a n) s (if s.c.ra then .ok s else do
    let la ← barAddr (s.X a)
    let v := (s.X n).toNat
    .ok (if 2 ^ 31 ≤ v then s.barFault s.fnode s.pIdx la else s.barAdd s.fnode s.pIdx la v none))

/-- BBWAIT: a lost word raises DATA_LOST (R185); it waits for the phase it names or a fault; it sees every value that word 1 takes while it waits (R219). -/
def execBbwait (a : Reg) (p : Bool) (s : State) : Out :=
  finish (.bbwait a p) s (if s.c.ra then .ok s else do
    let la ← barAddr (s.X a)
    let seen := match s.c.bb with
      | some (b, q, some r) => if b = la ∧ q = p then some r else none
      | _ => none
    let w := s.barWord s.fnode s.pIdx la
    if seen.isNone && s.barLost s.fnode s.pIdx la then raiseAcc .dataLost (s.X a) 0
    else match seen with
    | some 8 => raise .engineFault (s.X a)
    | some _ => .ok s.acquire
    | none =>
      if fieldN w 1 1 = 1 then raise .engineFault (s.X a)
      else if fieldN w 0 1 = p.toNat then .ok s.acquire
      else .error (.wait .bbwait (s.setC { s.c with bb := some (la, p, none) })))

/-- BBTEST: COUNT and bytes 4-7 [6:0] (R220). -/
def execBbtest (d a : Reg) (s : State) : Out :=
  finish (.bbtest d a) s (if s.c.ra then .ok s else do
    let la ← barAddr (s.X a)
    if s.barLost s.fnode s.pIdx la then raiseAcc .dataLost (s.X a) 0
    else .ok (s.setX d (BitVec.ofNat 64 (memRead s.mem (spadAddr s.fnode s.pIdx la) 4 * 2 ^ 32 + fieldN (s.barWord s.fnode s.pIdx la) 0 7))))

/-! ## Phasers -/

/-- A result of R377. -/
def phResult (phase status : Nat) : Word := BitVec.ofNat 64 (phase % 2 ^ 32 * 2 ^ 32 + status)

/-- The live phaser of the issuing context's ASID that a handle names: polder and index (R376, R377); none is STALE. -/
def State.phFind (s : State) (h : Word) : Option (Nat × Nat × Phaser) :=
  let p := fieldW h 40 8
  let i := fieldW h 34 6
  let f := (s.polder s.fnode p).phaser i
  if fieldW h 48 16 ≠ 0 ∨ fieldW h 0 22 ≠ 0 ∨ 192 ≤ p then none
  else if !f.live ∨ f.gen ≠ fieldW h 22 12 ∨ f.asid ≠ s.c.asid then none
  else some (p, i, f)

/-- The index of a free phaser of a polder. -/
def Polder.freePhaser (q : Polder) : Option Nat := (List.range 64).find? (fun i => !(q.phaser i).live)

/-- A phaser instruction: a run-ahead helper drops it and writes no register (R378). -/
def phaserInstr (i : Instr) (d : Reg) (s : State) (r : Except Stop (State × Word)) : Out :=
  finish i s (if s.c.ra then .ok s else r.map (fun x => x.1.setX d x.2))

/-- A member's instruction: STALE, NOTMEMBER, else `f` (R377, R379). -/
def memberInstr (i : Instr) (d h : Reg) (s : State) (f : Nat → Nat → Phaser → PhMember → Except Stop (State × Word)) : Out :=
  phaserInstr i d s (match s.phFind (s.X h) with
    | none => .ok (s, phResult 0 1)
    | some (p, k, ph) =>
      match ph.member s.cur with
      | none => .ok (s, phResult 0 2)
      | some m => f p k ph m)

/-- PHNEW (R379); the system context has no item, and so no reservation. Which free phaser it takes, and the order of the statuses, are the
model's (log entry 48). -/
def execPhnew (d m : Reg) (s : State) : Out :=
  let mode := (s.X m).toNat
  phaserInstr (.phnew d m) d s (
    if 2 < mode then .ok (s, phResult 0 3)
    else match (if s.cc.slot = 11 then none else s.cc.item), s.pol.freePhaser with
      | some it, some k =>
        if it.phLeft = 0 ∨ 1024 ≤ s.pol.registrations then .ok (s, phResult 0 4)
        else
          let f := s.pol.phaser k
          let s := s.setPhaser s.fnode s.pIdx k
            { f with live := true, asid := s.c.asid, item := (s.fcore, it.launch, it.wid), phase := 0, members := [⟨s.cur, mode, 0, 0, false⟩] }
          let s := s.setCC { s.cc with item := some { it with phLeft := it.phLeft - 1 } }
          .ok (s, phHandle s.pIdx k f.gen)
      | _, _ => .ok (s, phResult 0 4))

/-- PHREG (R379): table operands handle, mode. -/
def execPhreg (d h m : Reg) (s : State) : Out :=
  let mode := (s.X m).toNat
  phaserInstr (.phreg d h m) d s (match s.phFind (s.X h) with
    | none => .ok (s, phResult 0 1)
    | some (p, k, f) =>
      if p / 32 ≠ s.cur.die then .ok (s, phResult 0 5)
      else if 2 < mode then .ok (s, phResult 0 3)
      else if (f.member s.cur).isSome then .ok (s, phResult 0 6)
      else if 1024 ≤ (s.polder s.fnode p).registrations then .ok (s, phResult 0 4)
      else .ok (s.setPhaser s.fnode p k { f with members := f.members ++ [⟨s.cur, mode, f.phase, f.phase, false⟩] }, phResult f.phase 0))

/-- PHDROP (R379). -/
def execPhdrop (d h : Reg) (s : State) : Out :=
  memberInstr (.phdrop d h) d h s (fun p k f m => .ok (s.phDrop s.fnode p k m, phResult f.phase 0))

/-- PHSIG (R379): a release at die scope, which waits for the ports that have stores of the context to apply (R191, R380). -/
def execPhsig (d h : Reg) (s : State) : Out :=
  memberInstr (.phsig d h) d h s (fun p k f m =>
    if m.mode = 1 then .ok (s, phResult 0 3)
    else if f.phase < m.s ∨ s.portStores s.cur then .error (.wait .phaser s)
    else .ok (s.setPhaser s.fnode p k (f.signal m m.mark), phResult m.s 0))

/-- PHWAIT (R379): the return is an acquire at die scope (R380). -/
def execPhwait (d h : Reg) (s : State) : Out :=
  memberInstr (.phwait d h) d h s (fun p k f m =>
    if m.mode = 0 then .ok (s, phResult 0 3)
    else if f.phase ≤ m.w then .error (.wait .phaser s)
    else .ok ((s.setPhaser s.fnode p k (f.setMember { m with w := m.w + 1 })).acquire, phResult m.w 0))

/-- PHSW (R379): the signal first, once; the mark of a pending wait keeps a re-execution from signalling again. -/
def execPhsw (d h : Reg) (s : State) : Out :=
  memberInstr (.phsw d h) d h s (fun p k f m =>
    if m.mode ≠ 2 then .ok (s, phResult 0 3)
    else if !m.mark ∧ (f.phase < m.s ∨ s.portStores s.cur) then .error (.wait .phaser s)
    else
      let f := if m.mark then f else f.signal m true
      let m := (f.member s.cur).getD m
      let s := s.setPhaser s.fnode p k f
      if f.phase ≤ m.w then .error (.wait .phaser s)
      else .ok ((s.setPhaser s.fnode p k (f.setMember { m with w := m.w + 1, mark := false })).acquire, phResult m.w 0))

/-- PHQ (R379): members that signal, those that have signalled the open phase. -/
def execPhq (d h : Reg) (s : State) : Out :=
  phaserInstr (.phq d h) d s (match s.phFind (s.X h) with
    | none => .ok (s, phResult 0 1)
    | some (_, _, f) =>
      let sig := f.members.filter (fun m => m.signals)
      .ok (s, phResult f.phase 0 + BitVec.ofNat 64 (sig.length * 2 ^ 20 + (sig.filter (fun m => decide (f.phase < m.s))).length * 2 ^ 8)))

end Sys2Proof.Machine
end

