-- ==== Sys2Proof/Machine/Context.lean ====
section
/-! DEFINITION. Contexts and their lives (R360, R371 to R375): START, QUIT and the rest of major 0x2B, ending an item, and the trap
instructions (R420 to R425). -/

namespace Sys2Proof.Machine
open Sys2Proof

/-! ## Items -/

/-- The items of a launch: 2^W (R357). -/
def Launch.total (l : Launch) : Nat := 2 ^ l.widths.foldl (· + ·) 0

/-- Every item has completed, or been terminated (R368). -/
def Launch.finished (l : Launch) : Bool := decide (l.stage = .dispatched) && decide (l.ndone + l.nabort ≥ l.total)

/-- A launch of a package, or none. -/
def State.launch? (s : State) (node n : Nat) : Option Launch := tfind (s.pkg node).launches n
/-- Replaces a launch. -/
def State.setLaunch (s : State) (node n : Nat) (l : Launch) : State :=
  s.setPkg node { s.pkg node with launches := tset (s.pkg node).launches n l }

/-- The item of a core has ended (R365, R368, R423): by QUIT, or killed or terminated. -/
def State.itemEnd (s : State) (node k : Nat) (quit killed : Bool) : State :=
  let q := s.core node k
  match q.item with
  | none => s
  | some it =>
    let s := s.setCore node k { q with item := none }
    match s.launch? node it.launch with
    | none => s
    | some l =>
      let l := { l with resident := l.resident.filter (fun r => r.1 != k),
                        ndone := if quit then l.ndone + 1 else l.ndone,
                        nabort := if quit then l.nabort else l.nabort + 1,
                        killed := if killed && l.killed.isNone then some it.wid else l.killed }
      let s := s.setLaunch node it.launch l
      let s := if l.finished then s.enq .launchComplete { node := node, n := it.launch } else s
      s.enq .dispatch { node := node, core := k }

/-- Every context of a core's item is terminated (R382, step 2), and the item with it. -/
def State.terminateItem (s : State) (node k : Nat) (killed : Bool) : State :=
  let s := (List.range 11).foldl (fun s j => s.terminate ⟨node, k, j⟩) s
  let s := s.itemEnd node k false killed
  if (s.core node k).slot ≤ 10 then s.switchSlot node k else s

/-! ## START and STARTP (R372) -/

/-- The slot holds no context of a resident item: FREE, or its context is in a save area (R360). -/
def SlotState.vacant (t : SlotState) : Bool := t == .free || t == .saved

/-- The live helpers of a core: slots 1-10 that are not FREE. -/
def State.liveHelpers (s : State) (node k : Nat) : List Nat :=
  ((List.range 10).map (· + 1)).filter (fun j => !(s.ctx ⟨node, k, j⟩).st.vacant)

/-- The lowest FREE slot of 1-10. -/
def State.freeSlot (s : State) (node k : Nat) : Option Nat :=
  ((List.range 10).map (· + 1)).find? (fun j => (s.ctx ⟨node, k, j⟩).st.vacant)

/-- A new life in a slot (R230, R372): registers zero, CSRs at reset values but for those copied. -/
def Ctx.born (old : Ctx) (pc x1 x2 : Word) (asid : BitVec 16) (ptroot : Word) (rmode : BitVec 3) (w6 w7 : Word) (ra : Bool) : Ctx :=
  { Ctx.reset with x := (Ctx.reset.x.set 1 x1).set 2 x2, pc := pc, asid := asid, ptroot := ptroot, rmode := rmode, wscale6 := w6,
                   wscale7 := w7, st := .ready, ra := ra, gen := old.gen, lastEnd := old.lastEnd, seq := old.seq, pending := old.pending }

/-- A mailbox handle (R329). -/
def mkHandle (id : CtxId) (gen : BitVec 12) (m : Nat) : Word :=
  BitVec.ofNat 64 (id.node * 2 ^ 52 + id.die * 2 ^ 49 + id.polder % 32 * 2 ^ 44 + id.core % 8 * 2 ^ 41 + id.slot * 2 ^ 37 +
    gen.toNat * 2 ^ 25 + m * 2 ^ 16)

/-- A polder's mailbox. -/
def State.mbox (s : State) (node p m : Nat) : Option Mbox := tfind (s.polder node p).mboxes m
/-- Replaces a mailbox. -/
def State.setMbox (s : State) (node p m : Nat) (b : Mbox) : State :=
  s.setPolder node p { s.polder node p with mboxes := tset (s.polder node p).mboxes m b }

/-- A mailbox waits for its handler to start (R331): it has a handler and an entry, none of its handlers is live, and its owner is not in a save
area. -/
def Mbox.wants (b : Mbox) : Bool := b.hpc != 0 && b.held != 0 && b.handler.isNone && decide (b.owner.slot < 16)

/-- A waiting handler starts if a slot is free (R331): a helper of the owner's core, in the owner's address space, at HPC with x1 = the mailbox
number and x2 = the handle. -/
def State.handlerNow (s : State) (node p m : Nat) (b : Mbox) : State :=
  match (if b.wants then s.freeSlot node b.owner.core else none) with
  | none => s
  | some j =>
    let id : CtxId := ⟨node, b.owner.core, j⟩
    let o := s.ctx b.owner
    let old := s.ctx id
    let new := old.born b.hpc (BitVec.ofNat 64 m) (mkHandle b.owner b.gen m) o.asid o.ptroot 0 0 0 false
    (s.setCtx id new).setMbox node p m { b with handler := some (j, old.gen) }

/-- The waiting handlers of a core take its free slots, before a START of the core may (R383). -/
def State.handlersFirst (s : State) (node k : Nat) : State :=
  ((s.polder node (k / 8)).mboxes.filter (fun e => e.2.owner.core == k)).foldl (fun s e => s.handlerNow node (k / 8) e.1 e.2) s

/-- The word of an R-layout instruction from its match word and registers. -/
def rWord (m : Nat) (d a b : Reg) : Nat := m + b.toNat * 2 ^ 18 + a.toNat * 2 ^ 13 + d.toNat * 2 ^ 8

/-- START and STARTP (R372); a waiting handler has a free slot first (R331, R383). -/
def startHelper (i : Instr) (word : Nat) (d a b : Reg) (ra : Bool) (s : State) : Out :=
  finish i s (
    if s.cc.slot ≠ 0 then raise .illegalInstr (wordOf word)
    else if (s.X a).toNat % 4 ≠ 0 then raise .misaligned (s.X a)
    else
      let s := s.handlersFirst s.fnode s.fcore
      let lim := match s.cc.item with | some it => it.helpers | none => 0
      let live := (s.liveHelpers s.fnode s.fcore).length
      match (if lim ≤ live then none else s.freeSlot s.fnode s.fcore) with
      | none => .ok (s.setX d 0x8000000000000001)
      | some j =>
        let id : CtxId := { s.cur with slot := j }
        let old := s.ctx id
        let s := s.setCtx id (old.born (s.X a) (s.X b) 0 s.c.asid s.c.ptroot s.c.rmode s.c.wscale6 s.c.wscale7 ra)
        .ok (s.setX d (BitVec.ofNat 64 (old.gen.toNat * 16 + j))))

/-- START (R372). -/
def execStart (d a b : Reg) (s : State) : Out := startHelper (.start d a b) (rWord 0x000000AC d a b) d a b false s
/-- STARTP: the helper is a run-ahead helper (R372). -/
def execStartp (d a b : Reg) (s : State) : Out := startHelper (.startp d a b) (rWord 0x008000AC d a b) d a b true s

/-! ## QUIT (R373) -/

/-- The live run-ahead helpers of a core are terminated, each at its boundary. -/
def State.endRunAhead (s : State) (node k : Nat) : State :=
  ((s.liveHelpers node k).filter (fun j => let c := s.ctx ⟨node, k, j⟩; c.ra && !c.pairHeld)).foldl (fun s j => s.terminate ⟨node, k, j⟩) s

/-- QUIT in its order (R373). The slot ends with it, so nothing retires; the core goes on to its next slot. -/
def execQuit (s : State) : Out :=
  let id := s.cur
  if id.slot = 11 then finish .quit s (raise .illegalInstr (wordOf 0x010000AC))
  else if s.c.nmPending ≠ 0 ∨ s.openCmds id then finish .quit s (.error (.wait .quit s))
  else
    let s1 := if s.pol.array.leased id then s.endLease id true else s
    let s2 := if id.slot = 0 then s1.endRunAhead id.node id.core else s1
    if id.slot = 0 ∧ s2.liveHelpers id.node id.core ≠ [] then finish .quit s (.error (.wait .quit s2))
    else
      let s3 := (s2.endLife id .quit).handlerEnded id s.c.gen
      let s4 := if id.slot = 0 then s3.itemEnd id.node id.core true false else s3
      .next { s4.switchSlot id.node id.core with pfx := none, idle := false }

/-! ## The rest of major 0x2B (R375) -/

/-- A run-ahead helper that executes this instruction ends (R372). -/
def endIfRunAhead (i : Instr) (s : State) (r : Res) : Out :=
  finish i s (if s.c.ra then raise .illegalInstr 0 else r)

/-- YIELD: the slot is treated as stalled for one cycle (R375). -/
def execYield (s : State) : Out :=
  match finish .yield s (.ok s) with
  | .next s' => .next { s'.switchSlot s.fnode s.fcore with idle := false }
  | o => o

/-- CTXID (R375). -/
def execCtxid (d : Reg) (s : State) : Out := writeX (.ctxid d) d (mkHandle s.cur s.c.gen 0) s

/-- The identifier every context of the item reads; the system context reads 0 (R375). -/
def State.widOf (s : State) : Word :=
  if s.cc.slot = 11 then 0 else match s.cc.item with | some it => it.wid | none => 0

/-- WID (R375). -/
def execWid (d : Reg) (s : State) : Out := writeX (.wid d) d s.widOf s

/-- Field `n` of an identifier under widths `ws` (R357): a field at or beyond NF reads 0. -/
def widField (ws : List Nat) (wid : Word) (n : Nat) : Nat :=
  if n < ws.length then
    let total := ws.foldl (· + ·) 0
    let upto := (ws.take (n + 1)).foldl (· + ·) 0
    fieldW wid (total - upto) (ws.getD n 0)
  else 0

/-- WIDF: n is the rs2 field, 0-5 (R371, R375). -/
def execWidf (d n : Reg) (s : State) : Out :=
  let ws := match s.cc.item with
    | some it => (match s.launch? s.fnode it.launch with | some l => l.widths | none => [])
    | none => []
  finish (.widf d n) s (
    if 5 < n.toNat then raise .illegalInstr (wordOf (rWord 0x030000AC d 0 n))
    else .ok (s.setX d (BitVec.ofNat 64 (widField ws s.widOf n.toNat))))

/-- LastEnd as JOINH reports it (R375). -/
def LastEnd.status : LastEnd → Nat
  | .none => 2 | .quit => 0 | .terminated => 1

/-- JOINH (R375): waits for the life the handle names; an acquire at core scope. -/
def execJoinh (d h : Reg) (s : State) : Out :=
  let v := s.X h
  let slot := fieldW v 0 4
  let gen := fieldW v 4 12
  let c := s.ctx { s.cur with slot := slot }
  endIfRunAhead (.joinh d h) s (
    if fieldW v 16 48 ≠ 0 ∨ slot = 0 ∨ 10 < slot then .ok (s.setX d 2)
    else if gen = c.gen.toNat ∧ !c.st.vacant then .error (.wait .join s)
    else if (gen + 1) % 4096 = c.gen.toNat then .ok (s.setX d (BitVec.ofNat 64 c.lastEnd.status))
    else .ok (s.setX d 2))

/-- Slot states as R360 codes them (R375). -/
def SlotState.code : SlotState → Nat
  | .free => 0 | .ready => 1 | .stalled => 2 | .parked => 3 | .saved => 4

/-- HSTAT (R375): a stale handle, of neither the live life nor the last one, or a malformed one reads [61:60] = 3 and 0 elsewhere. -/
def execHstat (d h : Reg) (s : State) : Out :=
  let v := s.X h
  let slot := fieldW v 0 4
  let gen := fieldW v 4 12
  let c := s.ctx { s.cur with slot := slot }
  let live := gen == c.gen.toNat && !c.st.vacant
  let ok := fieldW v 16 48 == 0 && decide (1 ≤ slot ∧ slot ≤ 10) && (live || (gen + 1) % 4096 == c.gen.toNat)
  let le := match c.lastEnd with | .quit => 0 | .terminated => 1 | .none => 3
  writeX (.hstat d h) d (if ok then
    BitVec.ofNat 64 (live.toNat * 2 ^ 63 + c.ra.toNat * 2 ^ 62 + le * 2 ^ 60 + c.st.code * 2 ^ 57 + c.gen.toNat * 2 ^ 36)
    else BitVec.ofNat 64 (3 * 2 ^ 60)) s

/-! ## Trap instructions (R420 to R425) -/

/-- TRAP: TRAP_INSTR with TVAL = X(rs1) (R421). -/
def execTrap (a : Reg) (s : State) : Out := finish (.trap a) s (raise .trapInstr (s.X a))

/-- BRK: BREAKPOINT with TVAL = its own word (R421). -/
def execBrk (s : State) : Out := finish .brk s (raise .breakpoint (wordOf 0x02000078))

/-- A member that only the system context may execute: in a user context it raises PRIVILEGE (R420). -/
def sysOnly (i : Instr) (word : Nat) (s : State) (o : Out) : Out :=
  if s.sys then o else finish i s (raise .privilege (wordOf word))

/-- The first set bit of PEND in rotating order after the slot last selected (R422). -/
def CoreSt.nextPend (q : CoreSt) : Option Nat := (rotation q.lastSel).find? (fun j => decide (j ≤ 10) && q.pend.getLsbD j)

/-- WFE (R422). -/
def execWfe (d t : Reg) (s : State) : Out :=
  let word := 0x01000078 + t.toNat * 2 ^ 13 + d.toNat * 2 ^ 8
  sysOnly (.wfe d t) word s (
    let q := s.cc
    finish (.wfe d t) s (
      if q.sv ∧ q.sslot = 11 then raise .illegalInstr (wordOf word)
      else
        let back := q.sv && (s.ctx { s.cur with slot := q.sslot.toNat }).st == .parked
        let q := if back then { q with pend := q.pend ||| BitVec.ofNat 11 (2 ^ q.sslot.toNat) } else q
        match q.nextPend with
        | some j =>
          let q := { q with pend := q.pend &&& ~~~(BitVec.ofNat 11 (2 ^ j)), sslot := BitVec.ofNat 4 j, sv := true, lastSel := j }
          .ok ((s.setCC q).acquire.setX d q.tslotW)
        | none =>
          if s.c.expired ∧ s.X t ≠ 0 then
            let q := { q with sv := false }
            .ok ((s.setCC q).setX d q.tslotW)
          else .error (.wait .wfe (s.setCC q))))

/-- RESUME (R423): mode 0 resumes the selected slot at its TPC, mode 1 kills it, the item of a control context once its contexts stand at their
boundaries (R382). -/
def execResume (d m : Reg) (s : State) : Out :=
  let word := 0x02800078 + m.toNat * 2 ^ 13 + d.toNat * 2 ^ 8
  sysOnly (.resume d m) word s (
    let q := s.cc
    let id : CtxId := { s.cur with slot := q.sslot.toNat }
    let c := s.ctx id
    finish (.resume d m) s (
      if 2 ≤ (s.X m).toNat then raise .illegalInstr (wordOf word)
      else if !q.sv ∨ q.sslot = 11 ∨ c.st ≠ .parked then .ok (s.setX d 1)
      else
        let s := s.setCC { q with sv := false }
        if s.X m = 0 then
          let s := s.setCtx id { c.jump c.tpc with st := .ready }
          .ok ((s.lockReturn id).setX d 0)
        else if id.slot = 0 ∧ !s.atBoundary id.node id.core then .error (.wait .resource (s.setCC q))
        else if id.slot = 0 then .ok ((s.terminateItem id.node id.core true).setX d 0)
        else .ok ((s.terminate id).setX d 0)))

/-- ERET (R424): back to where the system context's own trap left it. -/
def execEret (s : State) : Out :=
  sysOnly .eret 0x00800078 s (
    let q := s.cc
    finishJump .eret s (
      if q.sv ∧ q.sslot = 11 then
        .ok ((s.setCC { q with sslot := q.oslot, sv := q.osv, osv := false }).lockReturn s.cur, some s.c.tpc)
      else raise .illegalInstr (wordOf 0x00800078)))

/-- HALT (R425): slot 11 stops with a machine-check record of KIND 3. -/
def execHalt (s : State) : Out :=
  sysOnly .halt 0x01800078 s (
    let s' := s.machineCheck s.fnode s.fcore ⟨true, 0, 11, 3, 0, s.c.pc, 0⟩
    .next { s'.switchSlot s.fnode s.fcore with pfx := none, idle := false })

end Sys2Proof.Machine
end

