-- ==== Sys2Proof/Machine/Flags.lean ====
section
/-! DEFINITION. Number formats, rounding and the sticky flags (R243 to R252, R256): exact values, `decode`, `round`, the operations
of R277 and R289 on exact values, conversions. -/

namespace Sys2Proof.Machine
open Sys2Proof

/-! ## Element types (R46, R243 to R246) -/

/-- The fifteen element types. -/
inductive ETy where
  | fp32 | bf16 | fp16 | e4m3 | e5m2 | dm8 | c32 | i8 | u8 | i16 | u16 | i32 | u32 | i64 | u64
deriving DecidableEq, Repr, Inhabited

/-- The 4-bit type code (R46); code 0 names none. -/
def ETy.ofCode (n : Nat) : Option ETy :=
  match n with
  | 1 => some .fp32 | 2 => some .bf16 | 3 => some .fp16 | 4 => some .e4m3 | 5 => some .e5m2 | 6 => some .dm8 | 7 => some .c32
  | 8 => some .i8 | 9 => some .u8 | 10 => some .i16 | 11 => some .u16 | 12 => some .i32 | 13 => some .u32 | 14 => some .i64
  | 15 => some .u64 | _ => none

/-- The 3-bit type field of the vector majors (R46, R285). -/
def ETy.ofT (n : Nat) : Option ETy :=
  match n with
  | 0 => some .i32 | 1 => some .fp32 | 2 => some .bf16 | 3 => some .fp16 | 4 => some .i16 | 5 => some .i8 | _ => none

/-- The size in bits (R255). -/
def ETy.width : ETy → Nat
  | .e4m3 => 8 | .e5m2 => 8 | .dm8 => 8 | .i8 => 8 | .u8 => 8 | .bf16 => 16 | .fp16 => 16 | .i16 => 16 | .u16 => 16
  | .fp32 => 32 | .i32 => 32 | .u32 => 32 | .c32 => 64 | .i64 => 64 | .u64 => 64

/-- The type is a floating-point type. -/
def ETy.isFloat : ETy → Bool
  | .fp32 => true | .bf16 => true | .fp16 => true | .e4m3 => true | .e5m2 => true | .dm8 => true | .c32 => true | _ => false

/-- The integer type is signed. -/
def ETy.isSigned : ETy → Bool
  | .i8 => true | .i16 => true | .i32 => true | .i64 => true | _ => false

/-- A binary floating-point layout (R244): fraction bits, bias, largest finite code, whether it has infinities. -/
structure BinFmt where
  frac : Nat
  bias : Nat
  maxCode : Nat
  hasInf : Bool
deriving DecidableEq, Repr, Inhabited

/-- The layout of a type; other types give FP32's. -/
def ETy.bin : ETy → BinFmt
  | .bf16 => ⟨7, 127, 0x7F7F, true⟩
  | .fp16 => ⟨10, 15, 0x7BFF, true⟩
  | .e4m3 => ⟨3, 7, 0x7E, false⟩
  | .e5m2 => ⟨2, 15, 0x7B, true⟩
  | _ => ⟨23, 127, 0x7F7FFFFF, true⟩

/-! ## Exact values -/

/-- An exact value: a NaN with its sign, whether it signals, and the payload bits below the quiet bit with their number; an infinity;
or ± num ÷ den, where `st` says that the magnitude lies above num ÷ den by less than any rung can tell (a root or a transcendental). -/
inductive FVal where
  | nan (sg sig : Bool) (pay bits : Nat)
  | inf (sg : Bool)
  | fin (sg : Bool) (num den : Nat) (st : Bool)
deriving DecidableEq, Repr, Inhabited

/-- The NaN that an invalid operation creates (R250). -/
def FVal.invalid : FVal := .nan false false 0 0

/-- The value is a NaN. -/
def FVal.isNan : FVal → Bool
  | .nan _ _ _ _ => true | _ => false
/-- The value is a signalling NaN. -/
def FVal.isSnan : FVal → Bool
  | .nan _ s _ _ => s | _ => false
/-- The value is an infinity. -/
def FVal.isInf : FVal → Bool
  | .inf _ => true | _ => false
/-- The value is a zero. -/
def FVal.isZero : FVal → Bool
  | .fin _ n _ _ => n == 0 | _ => false
/-- The sign. -/
def FVal.sign : FVal → Bool
  | .nan s _ _ _ => s | .inf s => s | .fin s _ _ _ => s

/-- n × 2^k as a numerator and a denominator. -/
def scale2 (n : Nat) (k : Int) : Nat × Nat := if 0 ≤ k then (n * 2 ^ k.toNat, 1) else (n, 2 ^ (-k).toNat)

/-- `decode` for a binary layout of width `w` (R244). -/
def BinFmt.decode (f : BinFmt) (w c : Nat) : FVal :=
  let sg := fieldN c (w - 1) 1 == 1
  let e := fieldN c f.frac (w - 1 - f.frac)
  let m := fieldN c 0 f.frac
  let top := 2 ^ (w - 1 - f.frac) - 1
  if f.hasInf ∧ e = top then
    if m = 0 then .inf sg else .nan sg (fieldN m (f.frac - 1) 1 == 0) (fieldN m 0 (f.frac - 1)) (f.frac - 1)
  else if !f.hasInf ∧ fieldN c 0 (w - 1) = 2 ^ (w - 1) - 1 then .nan sg false (2 ^ (f.frac - 1) - 1) (f.frac - 1)
  else
    let x := if e = 0 then scale2 m (1 - f.bias - f.frac) else scale2 (2 ^ f.frac + m) ((e : Int) - f.bias - f.frac)
    .fin sg x.1 x.2 false

/-- 10^d as a numerator and a denominator. -/
def pow10 (d : Int) : Nat × Nat := if 0 ≤ d then (10 ^ d.toNat, 1) else (1, 10 ^ (-d).toNat)

/-- The exact magnitude of a DM8 code 0x02-0x7F (R246): (1 + 9F ÷ 2^w) × 10^D. -/
def dm8Exact (c : Nat) : Nat × Nat :=
  let mk := fun (w : Nat) (d : Int) => let p := pow10 d; ((2 ^ w + 9 * fieldN c 0 w) * p.1, 2 ^ w * p.2)
  if 0x40 ≤ c then mk 6 0
  else if 0x20 ≤ c then mk 4 (if fieldN c 4 1 = 0 then -1 else 1)
  else if 0x10 ≤ c then mk 2 ([-3, -2, 2, 3].getD (fieldN c 2 2) 0)
  else if 0x08 ≤ c then mk 0 ([-7, -6, -5, -4, 4, 5, 6, 7].getD (fieldN c 0 3) 0)
  else if 0x04 ≤ c then mk 0 ([-9, -8, 8, 9].getD (fieldN c 0 2) 0)
  else mk 0 (if fieldN c 0 1 = 0 then -10 else 10)

/-! ## Rounding (R248 to R252) -/

/-- NV (R232). -/
abbrev fNV : BitVec 5 := 16
/-- DZ -/
abbrev fDZ : BitVec 5 := 8
/-- OF -/
abbrev fOF : BitVec 5 := 4
/-- UF -/
abbrev fUF : BitVec 5 := 2
/-- NX -/
abbrev fNX : BitVec 5 := 1

/-- What `round` receives: the mode as RMODE codes it (DYN resolved), SAT, NANP, the SR draw; `canon`: an invalid operation gives the canonical NaN
whatever NANP, as a scalar instruction's does (R277). -/
structure Rnd where
  mode : Nat
  sat : Bool
  nanp : Nat
  draw : Nat
  canon : Bool
deriving DecidableEq, Repr, Inhabited

/-- The defaults of R48. -/
def Rnd.default : Rnd := ⟨0, false, 0, 0, false⟩

/-- The mode chooses `hi`: the value lies num ÷ den of the way from lo to hi, plus a little when `st`. -/
def Rnd.up (r : Rnd) (neg loEven : Bool) (num den : Nat) (st : Bool) : Bool :=
  match r.mode with
  | 0 => decide (den < 2 * num) || (2 * num == den && (st || !loEven))
  | 1 => false
  | 2 => neg
  | 3 => !neg
  | 4 => decide (den ≤ 2 * num)
  | _ => decide (r.draw * den < 2 ^ 32 * num) || (st && r.draw * den == 2 ^ 32 * num)

/-- The direction toward zero for the sign. -/
def Rnd.towardZero (r : Rnd) (neg : Bool) : Bool := r.mode == 1 || (r.mode == 2 && !neg) || (r.mode == 3 && neg)

/-- The exponent of the leading bit of n ÷ d. -/
def floorLog2 (n d : Nat) : Int :=
  let k : Int := (Nat.log2 n : Int) - (Nat.log2 d : Int)
  let s := scale2 d k
  if n * s.2 < s.1 then k - 1 else k

/-- The NaN result for a NaN (R250) as a code of the type: canonical, or the input's sign and payload, or +0. -/
def ETy.nanCode (t : ETy) (r : Rnd) (sg : Bool) (pay bits : Nat) : Nat :=
  if r.nanp = 2 then 0
  else match t with
    | .dm8 => 0x80
    | .e4m3 => if r.nanp = 1 then sg.toNat * 128 + 0x7F else 0x7F
    | _ =>
      let f := t.bin
      let quiet := (2 ^ (t.width - f.frac) / 2 - 1) * 2 ^ f.frac + 2 ^ (f.frac - 1)
      if r.nanp = 1 then
        let k := f.frac - 1
        let p := if k ≤ bits then pay / 2 ^ (bits - k) else pay * 2 ^ (k - bits)
        sg.toNat * 2 ^ (t.width - 1) + quiet + p
      else quiet

/-- ± the largest finite value. -/
def ETy.maxFinite (t : ETy) (sg : Bool) : Nat :=
  match t with
  | .dm8 => if sg then 0x83 else 0x03
  | _ => sg.toNat * 2 ^ (t.width - 1) + t.bin.maxCode

/-- ± infinity, or what stands for it in E4M3 (R251). -/
def ETy.infCode (t : ETy) (r : Rnd) (sg : Bool) : Nat :=
  match t with
  | .dm8 => if sg then 0x81 else 0x01
  | .e4m3 => t.nanCode r sg 0 0
  | _ => sg.toNat * 2 ^ (t.width - 1) + (2 ^ (t.width - t.bin.frac) / 2 - 1) * 2 ^ t.bin.frac

/-- An overflow's result (R248, R251). -/
def ETy.overflow (t : ETy) (r : Rnd) (sg : Bool) : Nat × BitVec 5 :=
  (if r.towardZero sg || r.sat then t.maxFinite sg else t.infCode r sg, fOF ||| fNX)

/-- `round` of a nonzero finite value onto a binary ladder. -/
def ETy.roundBin (t : ETy) (r : Rnd) (sg : Bool) (num den : Nat) (st : Bool) : Nat × BitVec 5 :=
  let f := t.bin
  let qmin : Int := 1 - f.bias - f.frac
  let x := floorLog2 num den
  let q := max (x - f.frac) qmin
  let s := scale2 den q
  let n := num * s.2
  let lo := n / s.1
  let rem := n % s.1
  let exact := rem == 0 && !st
  let k := if exact then lo else if r.up sg (lo % 2 == 0) rem s.1 st then lo + 1 else lo
  let code := (q - qmin).toNat * 2 ^ f.frac + k
  if f.maxCode < code then t.overflow r sg
  else
    let tiny := decide (x < 1 - (f.bias : Int))
    (sg.toNat * 2 ^ (t.width - 1) + code, if exact then 0 else if tiny then fUF ||| fNX else fNX)

/-- The DM8 codes with a finite magnitude, by rising magnitude (R246). -/
def dm8Codes : List Nat :=
  [0, 2, 4, 5, 8, 9, 10, 11] ++ (List.range 8).map (· + 0x10) ++ (List.range 16).map (· + 0x20) ++ (List.range 64).map (· + 0x40) ++
    (List.range 16).map (· + 0x30) ++ (List.range 8).map (· + 0x18) ++ [12, 13, 14, 15, 6, 7, 3]

/-- The exact magnitude of a code of that list. -/
def dm8Mag (c : Nat) : Nat × Nat := if c = 0 then (0, 1) else dm8Exact c

/-- The rungs around a magnitude that is below 10^10: lo and hi. -/
def dm8Rungs (num den : Nat) : List Nat → Nat → Nat × Nat
  | [], lo => (lo, lo)
  | c :: l, lo =>
    let m := dm8Mag c
    if m.1 * den ≤ num * m.2 then dm8Rungs num den l c else (lo, c)

/-- `round` of a nonzero finite value onto DM8's ladder. -/
def roundDm8 (r : Rnd) (sg : Bool) (num den : Nat) (st : Bool) : Nat × BitVec 5 :=
  if 10 ^ 10 * den < num ∨ (st ∧ 10 ^ 10 * den = num) then ETy.overflow .dm8 r sg
  else
    let g := dm8Rungs num den dm8Codes 0
    let a := dm8Mag g.1
    let b := dm8Mag g.2
    let put := fun (c : Nat) => if c = 0 then 0 else sg.toNat * 128 + c
    let tiny := decide (num * 10 ^ 10 < den)
    if a.1 * den = num * a.2 ∧ !st then (put g.1, 0)
    else
      -- the fraction of the way from lo to hi: (v - lo) / (hi - lo)
      let n := (num * a.2 - a.1 * den) * b.2
      let d := (b.1 * a.2 - a.1 * b.2) * den
      let up := if 2 * n = d ∧ !st ∧ r.mode = 0 then g.2 % 2 == 0 && g.1 % 2 == 1 else r.up sg true n d st
      (put (if up then g.2 else g.1), if tiny then fUF ||| fNX else fNX)

/-- `round` into a floating-point type (R248, R250, R251): the code and the flags. -/
def ETy.round (t : ETy) (r : Rnd) (v : FVal) : Nat × BitVec 5 :=
  match v with
  | .nan sg sig pay bits => (t.nanCode r sg pay bits, if sig then fNV else 0)
  | .inf sg =>
    if r.sat then (t.maxFinite sg, fNX)
    else (t.infCode r sg, if t = .e4m3 then fNV else 0)
  | .fin sg num den st =>
    if num = 0 ∧ !st then (if t = .dm8 then 0 else sg.toNat * 2 ^ (t.width - 1), 0)
    else if t = .dm8 then roundDm8 r sg num den st
    else t.roundBin r sg num den st

/-- `decode_dm8` (R247): the FP32 code. -/
def decodeDm8 (c : Nat) : Nat :=
  let c := c % 256
  if c = 0x80 then 0x7FC00000
  else
    let sg := decide (128 ≤ c)
    let m := c % 128
    if m = 0 then 0
    else if m = 1 then sg.toNat * 2 ^ 31 + 0x7F800000
    else (ETy.round .fp32 Rnd.default (.fin sg (dm8Exact m).1 (dm8Exact m).2 false)).1

/-- An integer as an exact value. -/
def FVal.ofInt (i : Int) : FVal := .fin (decide (i < 0)) i.natAbs 1 false

/-- The integer that an integer code denotes (R245). -/
def ETy.toInt (t : ETy) (c : Nat) : Int := if t.isSigned then signedN c t.width else (c % 2 ^ t.width : Nat)

/-- `decode` (R27). -/
def ETy.decode (t : ETy) (c : Nat) : FVal :=
  match t with
  | .dm8 => (ETy.bin .fp32).decode 32 (decodeDm8 c)
  | .fp32 => t.bin.decode 32 (c % 2 ^ 32) | .c32 => t.bin.decode 32 (c % 2 ^ 32)
  | .bf16 => t.bin.decode 16 (c % 2 ^ 16) | .fp16 => t.bin.decode 16 (c % 2 ^ 16)
  | .e4m3 => t.bin.decode 8 (c % 2 ^ 8) | .e5m2 => t.bin.decode 8 (c % 2 ^ 8)
  | t => FVal.ofInt (t.toInt c)

/-! ## Integers (R245, R256) -/

/-- The smallest value of an integer type. -/
def ETy.minInt (t : ETy) : Int := if t.isSigned then -2 ^ (t.width - 1) else 0
/-- The largest value of an integer type. -/
def ETy.maxInt (t : ETy) : Int := if t.isSigned then 2 ^ (t.width - 1) - 1 else 2 ^ t.width - 1
/-- Clamped to the range of the type. -/
def ETy.clamp (t : ETy) (i : Int) : Int := max t.minInt (min t.maxInt i)
/-- The low bits of an integer. -/
def ETy.wrap (t : ETy) (i : Int) : Nat := (i % 2 ^ t.width).toNat
/-- Wrapped, or clamped under SAT (R286). -/
def ETy.narrow (t : ETy) (sat : Bool) (i : Int) : Nat := t.wrap (if sat then t.clamp i else i)

/-- float → integer (R256). -/
def ETy.roundInt (t : ETy) (r : Rnd) (v : FVal) : Nat × BitVec 5 :=
  match v with
  | .nan _ _ _ _ => (0, fNV)
  | .inf sg => (t.wrap (if sg then t.minInt else t.maxInt), fNV)
  | .fin sg num den st =>
    let lo := num / den
    let rem := num % den
    let exact := rem == 0 && !st
    let k := if exact then lo else if r.up sg (lo % 2 == 0) rem den st then lo + 1 else lo
    let i : Int := if sg then -(k : Int) else k
    if i < t.minInt ∨ t.maxInt < i then (t.wrap (t.clamp i), fNV)
    else (t.wrap i, if exact then 0 else fNX)

/-- The conversion of an element (R256); `scaled` is the exact value after the block scale. -/
def convertEl (src dst : ETy) (r : Rnd) (code : Nat) (scaled : FVal → FVal) : Nat × BitVec 5 :=
  if src.isFloat then
    if dst.isFloat then dst.round r (scaled (src.decode code)) else dst.roundInt r (src.decode code)
  else if dst.isFloat then dst.round { r with nanp := 0 } (FVal.ofInt (src.toInt code))
  else (dst.narrow (r.sat && decide (dst.width ≤ src.width)) (src.toInt code), 0)

/-! ## Operations on exact values (R277, R289): the exact result, and NV or DZ -/

/-- The sum of two finite values: an exact zero sum of opposite signs is +0, or −0 under RD. -/
def finAdd (rd : Bool) (s1 : Bool) (n1 d1 : Nat) (s2 : Bool) (n2 d2 : Nat) : FVal :=
  let a : Int := if s1 then -(n1 * d2 : Nat) else (n1 * d2 : Nat)
  let b : Int := if s2 then -(n2 * d1 : Nat) else (n2 * d1 : Nat)
  let t := a + b
  if t = 0 then .fin (if n1 = 0 ∧ n2 = 0 ∧ s1 = s2 then s1 else rd) 0 1 false
  else .fin (decide (t < 0)) t.natAbs (d1 * d2) false

/-- a + b; a NaN operand is the result, the first one of two. -/
def fvAdd (rd : Bool) (a b : FVal) : FVal × BitVec 5 :=
  match a, b with
  | .nan s g p q, _ => (.nan s g p q, 0)
  | _, .nan s g p q => (.nan s g p q, 0)
  | .inf s, .inf t => if s = t then (.inf s, 0) else (.invalid, fNV)
  | .inf s, .fin .. => (.inf s, 0)
  | .fin .., .inf t => (.inf t, 0)
  | .fin s n d _, .fin t m e _ => (finAdd rd s n d t m e, 0)

/-- −a: the sign flipped. -/
def FVal.neg : FVal → FVal
  | .nan s g p b => .nan s g p b
  | .inf s => .inf (!s)
  | .fin s n d t => .fin (!s) n d t

/-- a × b, exact; a NaN operand is the result, the first one of two. -/
def fvMul (a b : FVal) : FVal × BitVec 5 :=
  match a, b with
  | .inf s, .fin t m _ _ => if m = 0 then (.invalid, fNV) else (.inf (s != t), 0)
  | .fin s n _ _, .inf t => if n = 0 then (.invalid, fNV) else (.inf (s != t), 0)
  | .inf s, .inf t => (.inf (s != t), 0)
  | .fin s n d _, .fin t m e _ => (.fin (s != t) (n * m) (d * e) false, 0)
  | .nan s g p q, _ => (.nan s g p q, 0)
  | _, .nan s g p q => (.nan s g p q, 0)

/-- c + a × b, exact. -/
def fvFma (rd : Bool) (c a b : FVal) : FVal × BitVec 5 :=
  let p := fvMul a b
  if p.1.isNan then p else fvAdd rd p.1 c

/-- a ÷ b. -/
def fvDiv (a b : FVal) : FVal × BitVec 5 :=
  match a, b with
  | .inf _, .inf _ => (.invalid, fNV)
  | .inf s, .fin t _ _ _ => (.inf (s != t), 0)
  | .fin s _ _ _, .inf t => (.fin (s != t) 0 1 false, 0)
  | .fin s n d _, .fin t m e _ =>
    if m = 0 then (if n = 0 then (.invalid, fNV) else (.inf (s != t), fDZ))
    else (.fin (s != t) (n * e) (d * m) false, 0)
  | x, _ => (x, 0)

/-- The largest r with r² ≤ n, bits `k - 1` down. -/
def isqrt (n : Nat) : Nat → Nat → Nat
  | 0, r => r
  | k + 1, r => isqrt n k (if (r + 2 ^ k) * (r + 2 ^ k) ≤ n then r + 2 ^ k else r)

/-- √(n ÷ d) of a nonzero value, to 200 places below the binary point. -/
def rootOf (n d : Nat) : FVal :=
  let s := isqrt (n * 4 ^ 200 / d) 300 0
  .fin false s (2 ^ 200) (s * s * d != n * 4 ^ 200)

/-- √a (R277, R289). -/
def fvSqrt (a : FVal) : FVal × BitVec 5 :=
  match a with
  | .inf s => if s then (.invalid, fNV) else (.inf false, 0)
  | .fin s n d _ => if n = 0 then (a, 0) else if s then (.invalid, fNV) else (rootOf n d, 0)
  | x => (x, 0)

/-- 1 ÷ √a (R289). -/
def fvRsq (a : FVal) : FVal × BitVec 5 :=
  match a with
  | .inf s => if s then (.invalid, fNV) else (.fin false 0 1 false, 0)
  | .fin s n d _ => if n = 0 then (.inf s, fDZ) else if s then (.invalid, fNV) else (rootOf d n, 0)
  | x => (x, 0)

/-- 1 ÷ a (R289). -/
def fvRcp (a : FVal) : FVal × BitVec 5 :=
  match a with
  | .inf s => (.fin s 0 1 false, 0)
  | .fin s n d _ => if n = 0 then (.inf s, fDZ) else (.fin s d n false, 0)
  | x => (x, 0)

/-! ### 2^a, log2 a and e^a

Fixed point with 320 places, of which the last 20 are dropped: far beyond what tells one FP32 rung or SR threshold from the next. -/

/-- ⌊ln 2 × 2^320⌋. -/
def ln2Fix : Nat := 0xb17217f7d1cf79abc9e3b39803f2f6af40f343267298b62d8a0d175b8baafa2be7b876206debac98
/-- Places of the fixed-point form. -/
abbrev fixP : Nat := 320

/-- e^x for x in [0, 1), fixed point: term `k` of the series is `t`. -/
def expSeries (x : Nat) : Nat → Nat → Nat → Nat
  | 0, _, _ => 0
  | f + 1, k, t => t + expSeries x f (k + 1) (t * x / 2 ^ fixP / (k + 1))

/-- e^x, fixed point. -/
def expFix (x : Nat) : Nat := expSeries x 90 0 (2 ^ fixP)

/-- The value m × 2^k, m fixed point with 300 places after dropping 20, strictly above. -/
def fixVal (sg : Bool) (m : Nat) (k : Int) : FVal :=
  let s := scale2 (m / 2 ^ 20) (k - 300)
  .fin sg s.1 s.2 true

/-- 2^a (R289): a below −4096 or above 4096 is beyond every ladder. -/
def fvExp2 (a : FVal) : FVal × BitVec 5 :=
  match a with
  | .inf s => (if s then .fin false 0 1 false else .inf false, 0)
  | .fin s n d _ =>
    if 4096 * d < n then (let v := scale2 1 (if s then -4096 else 4096); .fin false v.1 v.2 true, 0)
    else
      let i : Int := if s then -(n : Int) else n
      let k := i / d
      let f := (i % d).toNat
      if f = 0 then (let v := scale2 1 k; .fin false v.1 v.2 false, 0)
      else (fixVal false (expFix (f * ln2Fix / d)) k, 0)
  | x => (x, 0)

/-- Terms z^(2j+1) ÷ (2j+1), fixed point. -/
def atanhSeries (z2 : Nat) : Nat → Nat → Nat → Nat
  | 0, _, _ => 0
  | f + 1, j, t => t / (2 * j + 1) + atanhSeries z2 f (j + 1) (t * z2 / 2 ^ fixP)

/-- log2 of m in [1, 2), m = n ÷ d, fixed point. -/
def log2Fix (n d : Nat) : Nat :=
  let z := (n - d) * 2 ^ fixP / (n + d)
  2 * atanhSeries (z * z / 2 ^ fixP) 110 0 z * 2 ^ fixP / ln2Fix

/-- log2 a (R289). -/
def fvLog2 (a : FVal) : FVal × BitVec 5 :=
  match a with
  | .inf s => if s then (.invalid, fNV) else (.inf false, 0)
  | .fin s n d _ =>
    if n = 0 then (.inf true, fDZ)
    else if s then (.invalid, fNV)
    else
      let k := floorLog2 n d
      let m := scale2 d k
      if n * m.2 = m.1 then (FVal.ofInt k, 0)
      else
        let t := log2Fix (n * m.2) m.1
        if 0 ≤ k then (fixVal false (k.toNat * 2 ^ fixP + t) 0, 0)
        else (fixVal true ((-k).toNat * 2 ^ fixP - t - 2 ^ 20) 0, 0)
  | x => (x, 0)

/-- e^a for a ≤ 0, exactly rounded by the caller (R80): beyond −400 it is below half of every FP32 rung. -/
def fvExpNeg (n d : Nat) : FVal :=
  if n = 0 then .fin false 1 1 false
  else if 400 * d < n then .fin false 1 (2 ^ 500) true
  else
    let x := n * 2 ^ fixP / d
    let k := x / ln2Fix
    let f := ln2Fix - x % ln2Fix
    if f = ln2Fix then fixVal false (2 ^ fixP) (-(k : Int))
    else fixVal false (expFix f) (-(k : Int) - 1)

/-! ## One element of a floating-point operation -/

/-- A NaN input gives R250's result, the first NaN supplying the payload; a signalling NaN anywhere, or `nv`, raises NV. -/
def nanResult (t : ETy) (r : Rnd) (vs : List FVal) (nv : Bool) : Option (Nat × BitVec 5) :=
  match vs.find? FVal.isNan with
  | some v => some ((t.round r v).1, if nv || vs.any FVal.isSnan then fNV else 0)
  | none => none

/-- The operation's exact result rounded (R277, R286): NV of an invalid operation and DZ join the rounding's flags; NX is not raised
with NV. -/
def opResult (t : ETy) (r : Rnd) (x : FVal × BitVec 5) : Nat × BitVec 5 :=
  let y := t.round (if r.canon then { r with nanp := 0 } else r) x.1
  (y.1, y.2 ||| x.2)

/-- One element of an operation on inputs `vs`. -/
def fpOp (t : ETy) (r : Rnd) (vs : List FVal) (x : FVal × BitVec 5) : Nat × BitVec 5 :=
  (nanResult t r vs false).getD (opResult t r x)

/-- 0 × ∞: the invalid product (R277). -/
def zeroTimesInf (a b : FVal) : Bool := (a.isZero && b.isInf) || (a.isInf && b.isZero)

/-- Addition. -/
def fpAdd (t : ETy) (r : Rnd) (a b : Nat) : Nat × BitVec 5 :=
  let x := t.decode a; let y := t.decode b
  fpOp t r [x, y] (fvAdd (r.mode == 2) x y)
/-- Subtraction. -/
def fpSub (t : ETy) (r : Rnd) (a b : Nat) : Nat × BitVec 5 :=
  let x := t.decode a; let y := t.decode b
  fpOp t r [x, y] (fvAdd (r.mode == 2) x y.neg)
/-- Multiplication. -/
def fpMul (t : ETy) (r : Rnd) (a b : Nat) : Nat × BitVec 5 :=
  let x := t.decode a; let y := t.decode b
  fpOp t r [x, y] (fvMul x y)
/-- c + a × b, or c − a × b, with one rounding: 0 × ∞ is invalid even when c is a quiet NaN (R277). -/
def fpFma (t : ETy) (r : Rnd) (minus : Bool) (c a b : Nat) : Nat × BitVec 5 :=
  let x := t.decode a; let y := t.decode b; let z := t.decode c
  (nanResult t r [x, y, z] (zeroTimesInf x y)).getD
    (opResult t r (fvFma (r.mode == 2) z (if minus then x.neg else x) y))
/-- Division. -/
def fpDiv (t : ETy) (r : Rnd) (a b : Nat) : Nat × BitVec 5 :=
  let x := t.decode a; let y := t.decode b
  fpOp t r [x, y] (fvDiv x y)
/-- A unary operation. -/
def fpUnary (f : FVal → FVal × BitVec 5) (t : ETy) (r : Rnd) (a : Nat) : Nat × BitVec 5 :=
  let x := t.decode a
  fpOp t r [x] (f x)

/-! ## Comparisons, minimum and maximum (R278, R298) -/

/-- x < y of two values that are not NaNs; −0 equals +0. -/
def fvLt (a b : FVal) : Bool :=
  match a, b with
  | .inf s, .inf t => s && !t
  | .inf s, _ => s
  | _, .inf t => !t
  | .fin s n d _, .fin t m e _ =>
    let x : Int := if s then -(n * e : Nat) else (n * e : Nat)
    let y : Int := if t then -(m * d : Nat) else (m * d : Nat)
    decide (x < y)
  | _, _ => false
/-- x = y. -/
def fvEq (a b : FVal) : Bool := !fvLt a b && !fvLt b a
/-- The order with −0 below +0. -/
def fvLtZ (a b : FVal) : Bool := fvLt a b || (a.isZero && b.isZero && a.sign && !b.sign)

/-- FMIN and FMAX (R278): one NaN gives the other operand, two NaNs by R250, a signalling NaN raises NV. -/
def fpMinMax (t : ETy) (r : Rnd) (isMax : Bool) (a b : Nat) : Nat × BitVec 5 :=
  let x := t.decode a; let y := t.decode b
  let f := if x.isSnan || y.isSnan then fNV else 0
  if x.isNan && y.isNan then ((t.round r x).1, f)
  else if x.isNan then (b, f)
  else if y.isNan then (a, f)
  else (if (if isMax then fvLtZ x y else fvLtZ y x) then b else a, f)

end Sys2Proof.Machine
end

