-- ==== Sys2Proof/Machine/ScalarFp.lean ====
section
/-! DEFINITION. Governed execution: the modes a prefix selects, SR draws (R48, R249); scalar floating point (R276 to R279) and SCAL
(R253, R258). -/

namespace Sys2Proof.Machine
open Sys2Proof

/-! ## Modes and draws -/

/-- A governable instruction: its governed form, executed without its prefix, raises ORPHAN_GOVERNED (R51). -/
def governed (i : Instr) (g : Bool) (s : State) (o : Out) : Out :=
  if g && s.pfx.isNone then finish i s (raise .orphanGoverned (wordOf (encodeFirst i))) else o

/-- ILLEGAL_INSTR of an instruction, TVAL its first word (R57, R58). -/
def illegal {α : Type} (i : Instr) : Except Stop α := raise .illegalInstr (wordOf (encodeFirst i))

/-- The rounding mode in force, DYN resolved from RMODE (R48). -/
def State.mode (s : State) : Nat :=
  match s.pfx with
  | none => 0
  | some p => if p.rnd = 6 then s.c.rmode.toNat else p.rnd.toNat

/-- What `round` receives under the prefix in force, with a draw (R48). -/
def State.rnd (s : State) (draw : Nat) : Rnd :=
  match s.pfx with
  | none => Rnd.default
  | some p => ⟨s.mode, p.sat, p.nanp.toNat, draw, false⟩

/-- One step of the SRSEED register (R249). -/
def lfsr (x : BitVec 32) : BitVec 32 := (x >>> 1) ^^^ (if x.getLsbD 0 then 0x80200003 else 0)

/-- The next `n` draws in order, and SRSEED after them; none unless the mode is SR. -/
def drawsOf (sr : Bool) (seed : BitVec 32) : Nat → List Nat × BitVec 32
  | 0 => ([], seed)
  | n + 1 =>
    if sr then
      let x := lfsr seed
      let r := drawsOf sr x n
      (x.toNat :: r.1, r.2)
    else
      let r := drawsOf sr seed n
      (0 :: r.1, r.2)

/-- The draws of an instruction that makes `n` under SR. -/
def State.draws (s : State) (n : Nat) : List Nat := (drawsOf (s.mode == 5) s.c.srseed n).1
/-- SRSEED after them. -/
def State.drawn (s : State) (n : Nat) : State := s.setC { s.c with srseed := (drawsOf (s.mode == 5) s.c.srseed n).2 }

/-! ## Scalar floating point (R276 to R279) -/

/-- The low 32 bits of X(r). -/
def State.F (s : State) (r : Reg) : Nat := fieldW (s.X r) 0 32

/-- A member that draws once under SR, rounds, and writes X(rd) and its flags (R277). -/
def fpInstr (i : Instr) (g : Bool) (d : Reg) (f : Rnd → Nat × BitVec 5) (s : State) : Out :=
  governed i g s (
    let x := f { s.rnd ((s.draws 1).getD 0 0) with canon := true }
    finish i s (.ok (((s.drawn 1).setX d (BitVec.ofNat 64 x.1)).setFlags x.2)))

/-- A member that does not round (R278). -/
def fpPlain (i : Instr) (g : Bool) (d : Reg) (x : Nat × BitVec 5) (s : State) : Out :=
  governed i g s (finish i s (.ok ((s.setX d (BitVec.ofNat 64 x.1)).setFlags x.2)))

/-- FADD (R277). -/
def execFadd (g : Bool) (d a b : Reg) (s : State) : Out := fpInstr (.fadd g d a b) g d (fun r => fpAdd .fp32 r (s.F a) (s.F b)) s
/-- FSUB (R277). -/
def execFsub (g : Bool) (d a b : Reg) (s : State) : Out := fpInstr (.fsub g d a b) g d (fun r => fpSub .fp32 r (s.F a) (s.F b)) s
/-- FMUL (R277). -/
def execFmul (g : Bool) (d a b : Reg) (s : State) : Out := fpInstr (.fmul g d a b) g d (fun r => fpMul .fp32 r (s.F a) (s.F b)) s
/-- FMAC: c + a × b with c = X(rd) (R276). -/
def execFmac (g : Bool) (d a b : Reg) (s : State) : Out :=
  fpInstr (.fmac g d a b) g d (fun r => fpFma .fp32 r false (s.F d) (s.F a) (s.F b)) s
/-- FDIV (R277). -/
def execFdiv (g : Bool) (d a b : Reg) (s : State) : Out := fpInstr (.fdiv g d a b) g d (fun r => fpDiv .fp32 r (s.F a) (s.F b)) s
/-- FSQRT (R277). -/
def execFsqrt (g : Bool) (d a : Reg) (s : State) : Out := fpInstr (.fsqrt g d a) g d (fun r => fpUnary fvSqrt .fp32 r (s.F a)) s
/-- FMIN (R278). -/
def execFmin (g : Bool) (d a b : Reg) (s : State) : Out := fpPlain (.fmin g d a b) g d (fpMinMax .fp32 (s.rnd 0) false (s.F a) (s.F b)) s
/-- FMAX (R278). -/
def execFmax (g : Bool) (d a b : Reg) (s : State) : Out := fpPlain (.fmax g d a b) g d (fpMinMax .fp32 (s.rnd 0) true (s.F a) (s.F b)) s
/-- FCVTI: FP32 to I64 (R256, R278). -/
def execFcvti (g : Bool) (d a : Reg) (s : State) : Out := fpInstr (.fcvti g d a) g d (fun r => convertEl .fp32 .i64 r (s.F a) id) s
/-- FCVTF: I64 to FP32 (R256, R278). -/
def execFcvtf (g : Bool) (d a : Reg) (s : State) : Out := fpInstr (.fcvtf g d a) g d (fun r => convertEl .i64 .fp32 r (s.X a).toNat id) s

/-- FLT: 0 with a NaN operand, and then NV (R278). -/
def fltResult (a b : Nat) : Nat × BitVec 5 :=
  let x := ETy.decode .fp32 a; let y := ETy.decode .fp32 b
  if x.isNan || y.isNan then (0, fNV) else ((fvLt x y).toNat, 0)
/-- FEQ: 0 with a NaN operand; NV only for a signalling one (R278). -/
def feqResult (a b : Nat) : Nat × BitVec 5 :=
  let x := ETy.decode .fp32 a; let y := ETy.decode .fp32 b
  if x.isNan || y.isNan then (0, if x.isSnan || y.isSnan then fNV else 0) else ((fvEq x y).toNat, 0)
/-- FLT (R278). -/
def execFlt (g : Bool) (d a b : Reg) (s : State) : Out := fpPlain (.flt g d a b) g d (fltResult (s.F a) (s.F b)) s
/-- FEQ (R278). -/
def execFeq (g : Bool) (d a b : Reg) (s : State) : Out := fpPlain (.feq g d a b) g d (feqResult (s.F a) (s.F b)) s

/-- The class bit of an FP32 code (R279). -/
def fclassBit (a : Nat) : Nat :=
  let neg := fieldN a 31 1 = 1
  let e := fieldN a 23 8
  let m := fieldN a 0 23
  if e = 255 then (if m = 0 then (if neg then 0 else 7) else if fieldN a 22 1 = 1 then 9 else 8)
  else if e = 0 then (if m = 0 then (if neg then 3 else 4) else (if neg then 2 else 5))
  else if neg then 1 else 6
/-- FCLASS (R279). -/
def execFclass (g : Bool) (d a : Reg) (s : State) : Out := fpPlain (.fclass g d a) g d (2 ^ fclassBit (s.F a), 0) s

/-! ## Block scales and SCAL (R253, R258) -/

/-- A valid block scale: positive and finite, subnormals included (R253). -/
def scaleOk (c : Nat) : Bool := decide (0 < c ∧ c < 0x7F800000)
/-- RNE(1 ÷ s) in FP32. -/
def scaleRcp (c : Nat) : Nat := (fpUnary fvRcp .fp32 Rnd.default c).1
/-- Valid where its reciprocal is used: RNE(1 ÷ s) is finite too. -/
def scaleRcpOk (c : Nat) : Bool := scaleOk c && decide (scaleRcp c < 0x7F800000)

/-- The word in SREG of the prefix in force, when SCALE = 1 (R48). -/
def State.pfxScale (s : State) : Option Nat :=
  match s.pfx with
  | some p => if p.scale then some (s.F p.sreg) else none
  | none => none

/-- SCAL (R258): s is checked before t; the product of three is exact before its rounding. -/
def execScal (g : Bool) (d a b : Reg) (s : State) : Out :=
  let i : Instr := .scal g d a b
  let sc := s.F b
  let t := s.pfxScale.getD 0x3F800000
  let one := fun (c : Nat) => ETy.decode .fp32 c
  if !scaleOk sc then governed i g s (finish i s (raise .scaleInvalid (BitVec.ofNat 64 sc)))
  else if !scaleOk t then governed i g s (finish i s (raise .scaleInvalid (BitVec.ofNat 64 t)))
  else fpInstr i g d (fun r =>
    let x := one (s.F a)
    fpOp .fp32 r [x] (fvMul (fvMul x (one sc)).1 (one t))) s

end Sys2Proof.Machine
end

