-- ==== Sys2Proof/Machine/LockInstr.lean ====
section
/-! DEFINITION. The line-lock instructions (R155 to R168) and FENCE (R110, R139 to R143, R74, R89, R90, R95). -/

namespace Sys2Proof.Machine
open Sys2Proof

/-! ## Addresses and results -/

/-- The address checks of R160: the state with the leaf's A and D set, the translation. -/
def State.lockPlace (s : State) (va : Nat) (a : Acc) : Except Stop (State × Xlated) := do
  let tv := BitVec.ofNat 64 va
  if isAperture va then raiseAcc .illegalAddress tv a.code
  else if !isCanonical va then raiseAcc .pagePermission tv a.code
  else
    let (s, x) ← s.translate s.req va a
    if paClass x.pa = 1 then raiseAcc .lockScope tv a.code
    else if paClass x.pa ≠ 0 ∨ hbmLimit ≤ paOff x.pa ∨ !(s.group.contains (paNode x.pa)) then raiseAcc .illegalAddress tv a.code
    else if s.cutOff s.fnode (paNode x.pa) then raiseAcc .dataLost tv a.code
    else .ok (s, x)

/-- A result of R159: STATUS, and HELD after the instruction. -/
def State.lockResult (s : State) (d : Reg) (status : Nat) : State :=
  s.setX d (BitVec.ofNat 64 (s.held s.cur % 16 * 16 + status))

/-- The copy that a new holder receives (R166): by the page's CLASS and the object that covers the line. -/
def State.lockFill (s : State) (r : LockReq) : State :=
  let q := s.req
  let vline := fieldN r.va 6 50
  let own := fun (s : State) =>
    let s := s.recall r.line (some (q.keep vline))
    let d := match (s.core q.id.node q.id.core).l1find q.asid vline with | some l => l.dirty | none => 0
    s.l1fill q.id.node q.id.core q.asid vline r.line .owned d r.entry 0
  if r.cls ≠ 0 then s
  else match s.objAt q vline with
    | none => own s
    | some o => if o.mode = 0 then s.fillLoad q vline r.line reqOwn r.entry else if o.holder q.id.core then own s else s

/-! ## LKACQ and LKTRY (R161 to R163, R166, R168) -/

/-- A status has arrived: the instruction completes with it. OK and BROKEN bring the line, which a NEAR-HELD or FROZEN line makes wait (R66), and
are an acquire at the lock's scope. -/
def State.lockDone (s : State) (d : Reg) (r : LockReq) (status : Nat) : Except Stop State :=
  if status = lkLost then raiseAcc .dataLost (BitVec.ofNat 64 r.va) 2
  else if status = lkOk ∨ status = lkBroken then
    if s.nmHolds r.line || s.frozen r.line then .error (.wait .lock s)
    else
      let s := s.lockFill r
      let s := if 2 ≤ (s.lock r.line).scope then s.acquire else s
      .ok (s.lockResult d status)
  else .ok (s.lockResult d status)

/-- A request that has been sent: it takes the status that has arrived, waits in the queue, or goes to the home (again, R155). -/
def State.lockGo (s : State) (d : Reg) (r : LockReq) (wait : Bool) : Except Stop State :=
  let id := s.cur
  match (s.ctx id).lockReply with
  | some (_, st) => s.lockDone d r st
  | none =>
    if (s.waitsFor id).isSome then .error (.wait .lock s)
    else
      let s := s.lockAccept id r wait
      match (s.ctx id).lockReply with
      | some (_, st) => s.lockDone d r st
      | none => .error (.wait .lock s)

/-- LKACQ and LKTRY: the checks of R160 and R161, then the request. -/
def State.lockNew (s : State) (d : Reg) (va scope t : Nat) (wait : Bool) : Except Stop State := do
  let id := s.cur
  let (s, x) ← s.lockPlace va accAtomic
  let line := lineOf x.pa
  if (s.lock line).holder = some id then .ok (s.lockResult d lkDeadlock)
  else if 4 ≤ s.held id then .ok (s.lockResult d lkLimit)
  else
    let r : LockReq := ⟨line, scope, t, va, x.cls, x.entry⟩
    (s.setCtx id { s.ctx id with lockReq := some r }).lockGo d r wait

/-- LKACQ and LKTRY. `wait` is LKACQ. A stalled acquire that is executed again takes no fault any more (R427): its request stands, unless the
context has come to another acquire. -/
def State.lockAcquire (s : State) (d : Reg) (va scope t : Nat) (wait : Bool) : Except Stop State :=
  let id := s.cur
  let t := if wait then t else lkTryMark
  match s.c.lockReq with
  | none => s.lockNew d va scope t wait
  | some r =>
    if r.va = va ∧ r.scope = scope then s.lockGo d r wait
    else ((s.leaveQueue id).setCtx id { s.c with lockReq := none, lockReply := none }).lockNew d va scope t wait

/-- LKACQ (R161, R162): t = min(X(rs2), 2^40 − 1). A run-ahead helper drops the lock instructions. -/
def execLkacq (d a t : Reg) (c : BitVec 3) (s : State) : Out :=
  finish (.lkacq d a t c) s (if s.c.ra then .ok s
    else s.lockAcquire d (s.X a).toNat c.toNat (min (s.X t).toNat (2 ^ 40 - 1)) true)

/-- LKTRY (R163). -/
def execLktry (d a : Reg) (c : BitVec 3) (s : State) : Out :=
  finish (.lktry d a c) s (if s.c.ra then .ok s else s.lockAcquire d (s.X a).toNat c.toNat 0 false)

/-! ## The release half of a fence -/

/-- The context's pool stores are performed at their devices (R89): dirty lines are sent, and the fence waits for the completions. It raises
POOL_REGION_LOST for the first store that a loss has moved into a quarantine (R95); once the handler resumes past it, the fence has been done. -/
def State.fencePool (s : State) : Except Stop State :=
  let c := s.c
  match c.poolStores.find? (fun p => c.poolLost.contains p) with
  | some p => .error (.trapKeep { cause := .poolRegionLost, tval := p.1, acc := 1 } (s.performPool s.cur))
  | none =>
    let lines := (c.poolStores.map (fun p => lineOf p.2)).filter (fun l => (s.pkg (paNode l)).poolMask l != 0)
    if lines = [] then .ok (s.setC { c with poolStores := [], poolLost := [] })
    else .error (.wait .fence (lines.foldl (fun s l => s.poolSend (paNode l) l) s))

/-- The effect of a release with class ST at a scope: it waits for the ports of other polders to apply the context's stores (R191); only pool
and sys wait for the pool (R89). -/
def State.fenceStores (s : State) (scope : Nat) : Except Stop State :=
  if s.portStores s.cur then .error (.wait .fence s) else if 5 ≤ scope then s.fencePool else .ok s

/-! ## LKREL and LKSTAT -/

/-- LKREL (R164, R165, R168). -/
def execLkrel (d a : Reg) (c : BitVec 3) (s : State) : Out :=
  finish (.lkrel d a c) s (if s.c.ra then .ok s else do
    let id := s.cur
    let (s, x) ← s.lockPlace (s.X a).toNat accLockRead
    let line := lineOf x.pa
    let broken := s.c.holdBreaks.contains line
    if (s.lock line).holder ≠ some id ∧ !broken then .ok (s.lockResult d lkNotheld)
    else if broken then
      .ok ((s.setC { s.c with holdBreaks := s.c.holdBreaks.filter (fun l => l != line) }).lockResult d lkBroken)
    else do
      let s ← s.fenceStores (s.lock line).scope
      .ok ((s.lockRelease id line).lockResult d lkOk))

/-- LKSTAT's word (R167). -/
def Lock.stat (l : Lock) (me : CtxId) : Nat :=
  let h := match l.holder with
    | some id => 2 ^ 63 + (decide (id = me)).toNat * 2 ^ 62 + id.node * 2 ^ 36 + id.core * 2 ^ 25 + id.slot % 16 * 2 ^ 21
    | _ => 0
  h + l.broken.toNat * 2 ^ 61 + l.waiters.length % 8192 * 2 ^ 48 + l.scope * 2 ^ 18

/-- LKSTAT (R167). -/
def execLkstat (d a : Reg) (s : State) : Out :=
  finish (.lkstat d a) s (if s.c.ra then .ok s else do
    let (s, x) ← s.lockPlace (s.X a).toNat accLockRead
    .ok (s.setX d (BitVec.ofNat 64 ((s.lock (lineOf x.pa)).stat s.cur))))

/-! ## FENCE -/

/-- The context has an ENMSC command that has not issued all its operations, running or stopped, or pieces of one that no base die has acknowledged
(R74). -/
def State.openEnmsc (s : State) (id : CtxId) : Bool :=
  let e := (s.polder id.node id.polder).engine
  (e.hiQ ++ e.loQ ++ e.run ++ ((e.recs.map (·.2) ++ e.stopped).map (·.cmd)).filter (fun c => !c.single && c.cgen == (s.ctx id).gen)).any
    (fun c => c.id == id && c.cmd == 11) || s.nmOps.any (fun o => o.id == id && o.piece.isSome)

/-- Class NM (R74, R72): waits for every near-memory operation, and raises the first error that one reported. -/
def State.fenceNm (s : State) : Except Stop State :=
  if s.c.nmPending ≠ 0 ∨ s.openEnmsc s.cur then .error (.wait .fence s)
  else match s.c.nmErrors with
    | [] => .ok s
    | e :: r => .error (.trapKeep { cause := e.cause, tval := e.va, acc := 2 } (s.setC { s.c with nmErrors := r }))

/-- FENCE (R140, R141): scope `c`, classes `l` (LD, ST, ENG, NM, XL from bit 0), kind `k` (0 full, 1 acq, 2 rel). Each access of this
model is performed when its instruction retires (log entry 7), but for stores to the pool and stores that wait at another polder's port; a store to
a page-table line drops what walkers have read from it as it is performed (R107), so the class XL has nothing left to wait for (R110). -/
def execFence (c : BitVec 3) (l : BitVec 5) (k : BitVec 2) (s : State) : Out :=
  finish (.fence c l k) s (if s.c.ra then .ok s else do
    let s ← if l.getLsbD 3 then s.fenceNm else .ok s
    let s ← if l.getLsbD 2 && s.openCmds s.cur then .error (.wait .fence s) else .ok s
    -- a fence that reports a lost store counts as complete: its acquire half has been done too (R95)
    let acq := fun (s : State) => if k ≠ 2 ∧ 2 ≤ c.toNat then s.acquire else s
    let s ← if l.getLsbD 1 && k != 1 then (match s.fenceStores c.toNat with
      | .error (.trapKeep t s) => .error (.trapKeep t (acq s))
      | r => r) else .ok s
    .ok (acq s))

end Sys2Proof.Machine
end

