-- ==== Sys2Proof/Machine/XlateInstr.lean ====
section
/-! DEFINITION. Major 0x1D: XPROBE, XINV, XINVAS, SYNCI, SURVEY and XMIG (R112 to R118, R144), and the coherence-object instructions
SHAPE, OBJREL and OBJMODE (R133 to R138). -/

namespace Sys2Proof.Machine
open Sys2Proof

/-! ## XPROBE (R113) -/

/-- WHY of a failed walk (R113). -/
def WalkEnd.code : WalkEnd → Nat
  | .notPresent => 0 | .notResident => 1 | .malformed => 2 | .moving => 3 | _ => 0

/-- The result word of a walk. -/
def Walk.probe (w : Walk) (va : Nat) : Word :=
  let ok := w.why == .leaf
  let frame := if ok then (pteFrame w.entry + va % pageSize w.level) / 65536 else fieldW w.entry 16 42
  BitVec.ofNat 64 (pteGen w.entry * 2 ^ 58 + frame * 65536 + w.why.code * 2 ^ 14 + w.level * 2 ^ 11 + fieldW w.entry 1 10 * 2 + ok.toNat)

/-- XPROBE (R113): as R106, through the slice's caches, which it fills; no permission check, no A or D, no wait for a pointer with M = 1; a node
read that fails traps as for a load; in a run-ahead helper it is discarded, as a load's fault is (R108, R112). The probe is no request that SURVEY counts (DESIGN
CHOICE, log entry 49). -/
def execXprobe (d a : Reg) (s : State) : Out :=
  let va := (s.X a).toNat
  finish (.xprobe d a) s (
    if isAperture va ∨ !isCanonical va then .ok (s.setX d 0)
    else
      let w := s.lookup s.req va
      let s' := s.fillWalk s.req va w
      match w.why with
      | .failed c => if s.c.ra then .ok s' else s.nodeTrap s.fnode c va accRead w
      | .held => .error (.wait .resource s)
      | _ => .ok (s'.setX d (w.probe va)))

/-! ## XINV and XINVAS (R114, R115) -/

/-- A die lies in the translation reach of a scope (R110). -/
def reaches (scope node die n d : Nat) : Bool :=
  if scope ≤ 3 then n == node && d == die else if scope = 6 then true else n == node

/-- The size of the largest page that may hold `va`: the region of the entry that ends the walk, and the page of every leaf result that covers
it. -/
def State.pageAround (s : State) (q : Req) (va : Nat) : Nat :=
  let size := fun (level : Nat) => pageSize (if level < 2 then 4 else level)
  let cover := fun (n : Nat) (l : Leaf) =>
    if l.asid = q.asid ∧ l.gran * 65536 / size l.level = fieldN va 0 56 / size l.level then max n (size l.level) else n
  s.dies.foldl (fun n e => e.2.slices.foldl (fun n x => x.2.leaves.foldl cover n) n) (size (s.walk q va).level)

/-- The data lines of the slices in the reach that `line` picks: each with its node, die and slice. -/
def State.linesIn (s : State) (reach : Nat → Nat → Bool) (line : BitVec 16 → Nat → Bool) : List (Nat × Nat × Nat × SliceLine) :=
  s.dies.flatMap (fun e => if reach e.1.1 e.1.2 then
    e.2.slices.flatMap (fun x => (x.2.lines.filter (fun l => line l.asid l.vline)).map (fun l => (e.1.1, e.1.2, x.1, l))) else [])

/-- Steps 1 to 3 of R114 within a reach: the leaf results and walk-cache entries that are picked go, and so do the data lines, written back,
with every L1 copy of them, untracked ones too. -/
def State.invalidate (s : State) (reach : Nat → Nat → Bool) (leaf : Leaf → Bool) (ptr : PtrEnt → Bool) (line : BitVec 16 → Nat → Bool) : State :=
  let s := (s.linesIn reach line).foldl (fun s h => s.dropLine h.1 h.2.1 h.2.2.1 h.2.2.2 false) s
  { s with dies := tmap s.dies (fun k d => if reach k.1 k.2 then
             { d with slices := tmap d.slices (fun _ x => { x with leaves := x.leaves.filter (fun l => !leaf l), ptrs := x.ptrs.filter (fun e => !ptr e) }) }
             else d),
           cores := tmap s.cores (fun k q => if reach k.1 (k.2 / 256) then q.forget s.clock (fun l => line l.asid l.vline) else q) }

/-- Step 4 of R114: a request forwarded under a dropped leaf is not performed, a near-memory operation or a store at another polder's port, or an engine
transfer holds a page pinned (R102). -/
def State.underOld (s : State) (reach : Nat → Nat → Bool) (pick : BitVec 16 → Nat → Bool) : Bool :=
  s.nmOps.any (fun o => reach o.id.node o.id.die && pick o.asid (fieldW o.va 0 56) && o.stage != .applied) ||
    s.polders.any (fun e => e.2.portQ.any (fun w => match w.xl with
      | some (a, va) => reach w.id.node w.id.die && pick a (fieldN va 0 56)
      | none => false)) ||
    s.pins.any (fun p => reach p.node p.die && pick p.leaf.asid (p.leaf.gran * 65536))

/-- XINV for the page of `va` (R114). -/
def State.xinvPage (s : State) (scope va : Nat) : Except Stop State :=
  let asid := s.c.asid
  let size := s.pageAround s.req va
  let reach := reaches scope s.fnode (s.fcore / 256)
  let hit := fun (a : BitVec 16) (v : Nat) => a == asid && v / size == fieldN va 0 56 / size
  let s := s.invalidate reach (fun l => hit l.asid (l.gran * 65536)) (fun e => e.asid == asid && e.key == ptrKey va e.level)
    (fun a v => hit a (v * 64))
  if s.underOld reach hit then .error (.wait .resource s) else .ok s

/-- The effect of FENCE with classes ST and XL, kind full (R114). -/
def State.fenceFull (s : State) (scope : Nat) : Except Stop State := (s.fenceStores scope).map (fun s => s.acquire)

/-- A system member of major 0x1D: a run-ahead helper drops it, another user context raises PRIVILEGE (R112). -/
def xSystem (i : Instr) (word : Nat) (s : State) (r : Res) : Out :=
  if s.c.ra then finish i s (.ok s) else sysOnly i word s (finish i s r)

/-- XINV (R114): `c` is the scope code in the rd field. -/
def execXinv (c a : Reg) (s : State) : Out :=
  xSystem (.xinv c a) (rWord 0x00800074 c a 0) s (do
    let s ← s.fenceFull c.toNat
    s.xinvPage c.toNat (s.X a).toNat)

/-- XINVAS (R115): XINV for every page of the address space, or of all. -/
def execXinvas (c a : Reg) (s : State) : Out :=
  xSystem (.xinvas c a) (rWord 0x01000074 c a 0) s (
    if fieldW (s.X a) 17 47 ≠ 0 then raise .illegalInstr (wordOf (rWord 0x01000074 c a 0))
    else do
      let s ← s.fenceFull c.toNat
      let hit := fun (asid : BitVec 16) => (s.X a).getLsbD 16 || asid == (s.X a).setWidth 16
      let reach := reaches c.toNat s.fnode (s.fcore / 256)
      let s := s.invalidate reach (fun l => hit l.asid) (fun e => hit e.asid) (fun a _ => hit a)
      if s.underOld reach (fun a _ => hit a) then .error (.wait .resource s) else .ok s)

/-! ## SYNCI (R144) -/

/-- A core lies within a scope around a core (R143). -/
def coreInScope (scope node k n j : Nat) : Bool :=
  match scope with
  | 0 => n == node && j == k
  | 1 => n == node && j == k
  | 2 => n == node && j / 8 == k / 8
  | 3 => n == node && j / 256 == k / 256
  | 6 => true
  | _ => n == node

/-- A cached instruction line overlaps [a, a + n): n = 0 hits nothing, n ≥ 2^24 everything (R144). -/
def ILine.overlaps (l : ILine) (a n : Nat) : Bool :=
  decide (2 ^ 24 ≤ n) || decide (l.vline * 64 < fieldN a 0 56 + n ∧ fieldN a 0 56 < l.vline * 64 + 64 ∧ n ≠ 0)

/-- SYNCI (R144): `c` is the scope code in the rd field. -/
def execSynci (c a n : Reg) (s : State) : Out :=
  let asid := s.c.asid
  let va := (s.X a).toNat
  let len := (s.X n).toNat
  finish (.synci c a n) s (if s.c.ra then .ok s else
    .ok { s with cores := tmap s.cores (fun k q =>
      if coreInScope c.toNat s.fnode s.fcore k.1 k.2 then
        { q with icache := q.icache.filter (fun (l : ILine) => !(l.asid == asid && l.overlaps va len)) }
      else q) })

/-! ## SURVEY (R116) -/

/-- The package's region of a die's quadrant: row and column in the 4 × 6 arrangement of quadrants (R116's example). -/
def regionRow (i : Nat) : Nat := i / 4 / 3 * 2 + i % 4 / 2
/-- The column of a region. -/
def regionCol (i : Nat) : Nat := i / 4 % 3 * 2 + i % 2

/-- The sum over the regions of their counts weighted by `f`. -/
def weighSum (f : Nat → Nat) (l : List Nat) (i : Nat) : Nat :=
  match l with
  | [] => 0
  | n :: r => n * f i + weighSum f r (i + 1)

/-- The lowest index of the largest entry. -/
def peakOf (l : List Nat) (i best bestVal : Nat) : Nat :=
  match l with
  | [] => best
  | n :: r => if bestVal < n then peakOf r (i + 1) i n else peakOf r (i + 1) best bestVal

/-- The word of SURVEY from the 24 counts. -/
def surveyWord (l : List Nat) : Word :=
  let n := weighSum (fun _ => 1) l 0
  if n = 0 then BitVec.ofNat 64 (31 * 64)
  else BitVec.ofNat 64 (n % 2 ^ 32 * 2 ^ 32 + 256 * weighSum regionCol l 0 / n * 2 ^ 21 + 256 * weighSum regionRow l 0 / n * 2 ^ 11 +
    peakOf l 0 0 0 * 64)

/-- The counters of a granule in the slices of a package's six dies (R116); a VA that no page can hold has none (log entry 42). -/
def State.surveyCounts (s : State) (node : Nat) (asid : BitVec 16) (va : Nat) : List Nat :=
  (List.range 6).flatMap (fun die =>
    if isAperture va || !isCanonical va then [0, 0, 0, 0]
    else match (s.die node die).leaf asid (granOf va) with
      | some l => l.counts.toList
      | none => [0, 0, 0, 0])

/-- The counters of a granule are cleared (R116). -/
def State.surveyClear (s : State) (node : Nat) (asid : BitVec 16) (va : Nat) : State :=
  if isAperture va || !isCanonical va then s
  else { s with dies := tmap s.dies (fun k q => if k.1 = node then
    { q with slices := tmap q.slices (fun _ x => { x with leaves := x.leaves.map (fun l =>
        if l.asid == asid && l.gran == granOf va then { l with counts := Vector.replicate 4 0 } else l) }) } else q) }

/-- SURVEY (R116): absent leaves count 0; mode 1 clears the counters read and is for the system context. A run-ahead helper executes mode 0; as a
user context it may not execute mode 1 (R112). -/
def execSurvey (d a m : Reg) (s : State) : Out :=
  let va := (s.X a).toNat
  let w := surveyWord (s.surveyCounts s.fnode s.c.asid va)
  if m = 1 then
    sysOnly (.survey d a m) (rWord 0x02000074 d a m) s (finish (.survey d a m) s (.ok ((s.surveyClear s.fnode s.c.asid va).setX d w)))
  else writeX (.survey d a m) d w s

/-! ## XMIG (R117, R118) -/

/-- Writes an 8-byte page-table entry at its home (R118, steps 1 and 5). -/
def State.writeEntry (s : State) (own a : Nat) (e : Word) : State :=
  let s := s.recall (lineOf a) none
  if paClass a = 1 then (s.poolSnoop own (lineOf a) true).poolWrite own a 8 e.toNat else s.hbmWrite a 8 e.toNat

/-- The new frame is refused (R117, BADFRAME). -/
def State.badFrame (s : State) (own : Nat) (x2 : Word) (old size : Nat) : Bool :=
  let new := fieldW x2 16 42 * 65536
  let scope := fieldW x2 0 3
  fieldW x2 3 13 != 0 || fieldW x2 58 6 != 0 || (scope != 3 && scope != 4 && scope != 6) || new % size != 0 ||
    decide (old < new + size ∧ new < old + size) ||
    (match paClass new with
     | 0 => !(s.group.contains (paNode new)) || decide (hbmLimit < paOff new + size)
     | 1 => paNode new != own || (match s.regionAt own (paOff new) with
        | some (_, r) => r.st != .attached || decide ((r.base + r.size) * 2 ^ 28 < paOff new + size)
        | none => true)
     | _ => true)

/-- A pool frame whose region is not ATTACHED any more (R117, POOLLOST). -/
def State.frameLost (s : State) (own frame : Nat) : Bool :=
  paClass frame == 1 && (match s.regionAt own (paOff frame) with | some (_, r) => r.st != .attached | none => true)

/-- The place of a frame's bytes once its dirty pool lines are at their device. -/
def State.placeOf (s : State) (own frame : Nat) : Nat :=
  if paClass frame = 1 then
    match s.regionAt own (paOff frame) with | some (_, r) => s.devKey own r (paOff frame) | none => frame
  else frame

/-- Copies `n` bytes. -/
def copyBytes (m : List Host.Cell) (src dst : Nat) : Nat → List Host.Cell
  | 0 => m
  | n + 1 => copyBytes (memSet m dst (memGet m src)) (src + 1) (dst + 1) n

/-- A pool frame's line as another package that attaches its device has it: the line's device byte lies in the frame (R87). -/
def State.aliasOf (s : State) (own frame size line : Nat) : Bool :=
  paClass frame == 1 && paClass line == 1 && paNode line != own &&
    (match s.devOf line with | some k => decide (s.placeOf own frame ≤ k ∧ k < s.placeOf own frame + size) | none => false)

/-- Steps 3 and 4 of R118: every copy of both frames recalled, the data moved, LOST lines lost again in the new frame. What other packages hold of
a pool device's lines is snooped: dirty bytes reach the device, and copies of the new frame go (R87). -/
def State.copyPage (s : State) (own : Nat) (m : Mig) : State :=
  let inOld := fun (a : Nat) => decide (m.old ≤ a ∧ a < m.old + m.size)
  let inNew := fun (a : Nat) => decide (m.new ≤ a ∧ a < m.new + m.size)
  let p := s.pkg own
  let dirty := ((p.poolDirty ++ p.poolSent).map (·.1)).filter (fun l => inOld l || inNew l)
  let s := dirty.foldl (fun s l => s.poolClean own l) s
  let theirs := ((s.pkgs.flatMap (fun e => (e.2.poolDirty ++ e.2.poolSent).map (·.1))).filter (fun l =>
    s.aliasOf own m.old m.size l || s.aliasOf own m.new m.size l))
  let s := theirs.foldl (fun s l => (s.merge l).poolClean (paNode l) l) s
  let gone := fun (l : Nat) => inNew l || s.aliasOf own m.new m.size l
  let s := s.purge (fun l => inOld l || gone l)
  let s := ((s.dirs.filter (fun e => gone e.1)).map (·.1)).foldl (fun s l => s.dropWalks l) s
  let lost := (s.lost.filter (fun (e : Nat × BitVec 64) => inOld e.1)).map (fun (e : Nat × BitVec 64) => (e.1 - m.old + m.new, (0 : BitVec 64)))
  let s := { s with lost := s.lost.filter (fun (e : Nat × BitVec 64) => !inNew e.1) ++ lost }
  { s with mem := copyBytes s.mem (s.placeOf own m.old) (s.placeOf own m.new) m.size }

/-- XMIG ends: its record goes. -/
def State.migEnd (s : State) (m : Mig) : State := { s with migs := s.migs.filter (fun x => x.id != m.id) }

/-- Step 5 has ended: the lock requests held at the page's old lines are translated again (R118, step 2), and so are those of absent waiters that
stand at a free lock there (log entry 43). -/
def State.migLocks (s : State) (m : Mig) : State :=
  let inOld := fun (a : Nat) => decide (m.old ≤ a ∧ a < m.old + m.size)
  let gone := s.locks.filter (fun e => inOld e.1 && e.2.holder.isNone && e.2.rel.isNone)
  let ids := gone.flatMap (fun e => e.2.waiters.map (·.id))
  let s := { s with locks := s.locks.filter (fun e => !(inOld e.1 && e.2.holder.isNone && e.2.rel.isNone)) }
  { s with ctxs := tmap s.ctxs (fun id c => match c.lockReq with
    | some r => if inOld r.line ∧ (c.lockReply.isNone ∨ ids.contains id) then { c with lockReq := none, arrived := none } else c
    | none => c) }

/-- The leaf after the switch (R118, step 5): FRAME new, GEN + 1, M clear. -/
def switched (e : Word) (new : Nat) : Word :=
  BitVec.ofNat 64 ((pteGen e + 1) % 64 * 2 ^ 58 + new / 65536 % 2 ^ 42 * 65536 + fieldW e 8 8 * 256 + fieldW e 0 7)

/-- A near-memory operation sent to the old frame and not yet forwarded is returned to its slice (R67, R118, step 6). -/
def State.returnOps (s : State) (m : Mig) : State :=
  let old := fun (o : NmOp) => o.stage == .sent && decide (m.old ≤ o.pa ∧ o.pa < m.old + m.size)
  let hit := s.nmOps.filter old
  let s := { s with nmOps := s.nmOps.map (fun o => if old o then { o with stage := .returned } else o) }
  hit.foldl (fun s o => s.enq .nearMemoryReturn { pa := o.pa, node := o.id.node, core := o.id.core, slot := o.id.slot }) s

/-- The first attempt: the walk, the checks behind statuses 1 to 4, and step 1, which sets M. -/
def State.migStart (s : State) (d a b : Reg) : Except Stop State :=
  let va := (s.X a).toNat
  let own := s.fnode
  let done := fun (n : Nat) => (.ok (s.setX d (BitVec.ofNat 64 n)) : Except Stop State)
  if isAperture va ∨ !isCanonical va then done 1 else
  let w := s.walk s.req va
  match w.why with
  | .moving => if s.c.expired then raise .pageMigrating (s.X a) else .error (.wait .migration s)
  | .held => .error (.wait .resource s)
  | .failed c => s.nodeTrap own c va accRead w
  | .leaf =>
    let size := pageSize w.level
    -- a page of 64 GiB gives SIZE, whatever the new frame is (DESIGN CHOICE, log entry 49)
    if w.level ≤ 2 then done 2
    else if s.badFrame own (s.X b) (pteFrame w.entry) size then done 3
    else if pteM w.entry then done 4
    else if s.nmHolds w.eaddr || s.frozen w.eaddr then .error (.wait .resource s)
    else
      let e := w.entry ||| 0x80
      let m : Mig := ⟨s.cur, s.c.asid, s.X a, w.eaddr, e, pteFrame w.entry, fieldW (s.X b) 16 42 * 65536, size, false, false, fieldW (s.X b) 0 3⟩
      let s := s.writeEntry own w.eaddr e
      .error (.wait .resource { s with migs := m :: s.migs.filter (fun x => x.id != s.cur) })
  | _ => done 1

/-- A later attempt: step 2's wait, steps 3 and 4, then the switch and XINV. -/
def State.migNext (s : State) (d : Reg) (m : Mig) : Except Stop State :=
  let own := s.fnode
  let done := fun (s : State) (n : Nat) => (.ok (((s.migEnd m).migLocks m).setX d (BitVec.ofNat 64 n)) : Except Stop State)
  let inOld := fun (a : Nat) => decide (m.old ≤ a ∧ a < m.old + m.size)
  let put := fun (s : State) (m : Mig) => { s with migs := s.migs.map (fun x => if x.id = m.id then m else x) }
  if m.switched then do
    -- step 7: the XINV, with the fence that it begins with
    let s ← s.fenceFull m.scope
    let s ← s.xinvPage m.scope m.va.toNat
    done s 0
  else if !m.copied then
    if s.locks.any (fun e => (e.2.holder.isSome || e.2.rel.isSome) && inOld e.1) then .error (.wait .resource s)
    else if s.nmOps.any (fun o => inOld o.pa && (o.stage == .forwarded || o.stage == .applied)) || s.nmHolds m.eaddr || s.frozen m.eaddr then
      .error (.wait .resource s)
    else if s.frameLost own m.old || s.frameLost own m.new then done (s.writeEntry own m.eaddr (m.entry &&& ~~~(0x80 : Word))) 6
    else .error (.wait .resource (put (s.copyPage own m) { m with copied := true }))
  else if s.nmHolds m.eaddr || s.frozen m.eaddr then .error (.wait .resource s)
  else if s.readEntry own m.eaddr ≠ m.entry ∨ (s.nodeFail own m.eaddr).isSome then done s 5
  else
    let s := s.writeEntry own m.eaddr (switched m.entry m.new)
    -- step 6: the homes return what is held for the old frame, and engine transfers translate the page again (R119)
    let s := ((put s { m with switched := true }).returnOps m).migLocks m
    .error (.wait .resource { s with pins := s.pins.filter (fun p => !inOld (pteFrame p.leaf.entry)) })

/-- XMIG (R117, R118): the issuing context stalls between the steps, and each attempt does the next one. -/
def execXmig (d a f : Reg) (s : State) : Out :=
  xSystem (.xmig d a f) (rWord 0x02800074 d a f) s (
    match s.migs.find? (fun m => m.id == s.cur && m.asid == s.c.asid && m.va == s.X a && m.new == fieldW (s.X f) 16 42 * 65536) with
    | some m => s.migNext d m
    | none => s.migStart d a f)

/-! ## Coherence objects (R133 to R138) -/

/-- The coverage of a shape record as first and last line, or none for a malformed record (R133, R134, R137); a coverage that leaves the canonical
addresses counts as malformed (log entry 42). The last line is counted on past VA 0. -/
def shapeCover (r : Nat) : Option (Nat × Nat) :=
  let base := fieldN r 0 64
  let es := 2 ^ fieldN r 64 8
  let rank := fieldN r 72 8
  let ext := fun (i : Nat) => fieldN r (128 + 32 * i) 32
  let str := fun (i : Nat) => signedN (fieldN r (256 + 64 * i) 64) 64
  let dims := List.range 4
  let mode := fieldN r 80 8
  let owner := fieldN r 96 16
  if fieldN r 64 8 > 3 ∨ rank = 0 ∨ 4 < rank ∨ 3 < mode ∨ fieldN r 88 8 ≠ 0 ∨ fieldN r 112 16 ≠ 0 ∨ isAperture base ∨ !isCanonical base ∨
      ((mode = 1 ∨ mode = 2) ∧ 255 < owner) ∨ dims.any (fun i => ext i == 0) ∨ dims.any (fun i => decide (rank ≤ i) && (ext i != 1 || str i != 0)) then none
  else
    let span := fun (i : Nat) => str i * ((ext i : Int) - 1)
    let lo := dims.foldl (fun (a : Int) i => a + min 0 (span i)) (signedN base 64)
    let hi := dims.foldl (fun (a : Int) i => a + max 0 (span i)) (signedN base 64) + es - 1
    let l := lo / 64
    let h := hi / 64
    if (h - l + 1) * 64 > 2 ^ 32 ∨ lo < -2 ^ 55 ∨ 2 ^ 55 ≤ hi then none
    else
      let f := (l % 2 ^ 50).toNat
      some (f, f + (h - l).toNat)

/-- Two ranges of virtual lines meet; VA 0 follows the highest line. -/
def coversMeet (lo hi lo' hi' : Nat) : Bool :=
  decide ((lo ≤ hi' ∧ lo' ≤ hi) ∨ (lo + 2 ^ 50 ≤ hi' ∧ lo' ≤ hi + 2 ^ 50) ∨ (lo ≤ hi' + 2 ^ 50 ∧ lo' + 2 ^ 50 ≤ hi))

/-- Every copy of the object's lines on its die is recalled (R137, R138): dirty bytes merge, tracked copies go. -/
def State.recallObj (s : State) (node die : Nat) (o : CohObj) : State :=
  let s := (s.linesIn (fun n d => n == node && d == die) o.covers).foldl (fun s h => s.dropLine h.1 h.2.1 h.2.2.1 h.2.2.2 true) s
  { s with cores := tmap s.cores (fun k q =>
      if k.1 = node ∧ k.2 / 256 = die then q.forget s.clock (fun l => l.tracked && o.covers l.asid l.vline) else q) }

/-- The lowest free handle of a die's table of 4,096 (R134). -/
def DieSt.freeObj (d : DieSt) : Option Nat := (List.range 4096).find? (fun k => (tfind d.objs k).isNone)

/-- The read of a shape record: 64 bytes, with .own type (R137); one that is not 64-byte aligned is MISALIGNED (log entry 42). -/
def State.readRecord (s : State) (va : Nat) : Except Stop (State × Nat) :=
  let tv := BitVec.ofNat 64 va
  if isAperture va then do
    apertureCheck va 0
    spadCheck va (fieldN va 0 32) 64 64 .scalarLoad
    let v ← s.portRead s.fnode (aperturePolder va s.pIdx) (laPlain (fieldN va 0 32)) 64 va
    .ok (s, v)
  else if !isCanonical va then raiseAcc .pagePermission tv 0
  else if va % 64 ≠ 0 then raiseAcc .misaligned tv 0
  else s.load s.req va 64 reqOwn

/-- SHAPE (R137). A coverage that meets a live object gives 2 also when the table is full (log entry 42). A run-ahead helper, whose stores and releases are dropped, drops it. -/
def execShape (d a : Reg) (s : State) : Out :=
  finish (.shape d a) s (if s.c.ra then .ok s else do
    let (s, r) ← s.readRecord (s.X a).toNat
    let die := s.fcore / 256
    let q := s.die s.fnode die
    match shapeCover r with
    | none => .ok (s.setX d 0x8000000000000003)
    | some (lo, hi) =>
      if q.objs.any (fun e => e.2.asid == s.c.asid && coversMeet e.2.lo e.2.hi lo hi) then .ok (s.setX d 0x8000000000000002)
      else match q.freeObj with
        | none => .ok (s.setX d 0x8000000000000001)
        | some k =>
          let o : CohObj := ⟨s.c.asid, lo, hi, fieldN r 80 8, fieldN r 96 16, 0⟩
          let s := s.recallObj s.fnode die o
          .ok ((s.setDie s.fnode die { s.die s.fnode die with objs := tset q.objs k o }).setX d (BitVec.ofNat 64 k)))

/-- The live object that a handle names in the context's ASID on its die. -/
def State.objOf (s : State) (h : Word) : Option CohObj :=
  if 4096 ≤ h.toNat then none
  else match tfind (s.die s.fnode (s.fcore / 256)).objs h.toNat with
    | some o => if o.asid = s.c.asid then some o else none
    | none => none

/-- OBJREL (R138). -/
def execObjrel (d h : Reg) (s : State) : Out :=
  finish (.objrel d h) s (if s.c.ra then .ok s else
    match s.objOf (s.X h) with
    | none => .ok (s.setX d 1)
    | some o =>
      let die := s.fcore / 256
      let n := (s.X h).toNat
      let s := (s.recallObj s.fnode die o).dropObjLines s.fnode die n
      .ok ((s.setDie s.fnode die { s.die s.fnode die with objs := tdel (s.die s.fnode die).objs n }).setX d 0))

/-- OBJMODE (R138): MODE in xm [1:0], OWNER in [15:8]. A handle that is not live gives 1 whatever xm holds (log entry 42). -/
def execObjmode (d h m : Reg) (s : State) : Out :=
  finish (.objmode d h m) s (if s.c.ra then .ok s else
    match s.objOf (s.X h) with
    | none => .ok (s.setX d 1)
    | some o =>
      let w := s.X m
      if fieldW w 2 6 ≠ 0 ∨ fieldW w 16 48 ≠ 0 then .ok (s.setX d 2)
      else
        let die := s.fcore / 256
        let n := (s.X h).toNat
        let s := (s.recallObj s.fnode die o).dropObjLines s.fnode die n
        let o := { o with mode := fieldW w 0 2, owner := fieldW w 8 8, cores := 0 }
        .ok ((s.setDie s.fnode die { s.die s.fnode die with objs := tset (s.die s.fnode die).objs n o }).setX d 0))

end Sys2Proof.Machine
end

