-- ==== Sys2Proof/Machine/Streams.lean ====
section
/-! DEFINITION. Vector accesses to memory (R186 to R189, R199 to R202), vector operands through stream ports (R233 to R241), the vector
queue (R280), the stream-port instructions, LDV and its forms, STV and its forms. -/

namespace Sys2Proof.Machine
open Sys2Proof

/-! ## Vectors as lists of elements (R243) -/

/-- The elements of `n` × `w` bits, from element 0. -/
def elems (v w : Nat) : Nat → List Nat
  | 0 => []
  | n + 1 => v % 2 ^ w :: elems (v / 2 ^ w) w n

/-- Elements put together, element 0 lowest. -/
def packEls (w : Nat) : List Nat → Nat
  | [] => 0
  | a :: r => a % 2 ^ w + 2 ^ w * packEls w r

/-- The elements of a vector register. -/
def vecEls (v : Vec) (w : Nat) : List Nat := elems v.toNat w (256 / w)
/-- A vector register from its elements. -/
def vecOf (w : Nat) (l : List Nat) : Vec := BitVec.ofNat 256 (packEls w l)

/-- The union of the flags of a list of results. -/
def flagsOf (l : List (Nat × BitVec 5)) : BitVec 5 := l.foldl (fun f x => f ||| x.2) 0

/-! ## Windows (R186 to R189) -/

/-- The element type of a window 1-7. -/
def windowType (w : Nat) : ETy :=
  match w with | 1 => .bf16 | 2 => .fp16 | 3 => .e4m3 | 4 => .e5m2 | 5 => .dm8 | 6 => .e4m3 | _ => .dm8
/-- The element size in bytes. -/
def windowEl (w : Nat) : Nat := if w = 0 then 4 else windowFootprint w / 8
/-- The scale-table base of a window 6 or 7. -/
def Ctx.wscale (c : Ctx) (w : Nat) : Word := if w = 6 then c.wscale6 else c.wscale7

/-- The block scale of a scaled window at an offset (R187): read with type .own, checked; 1.0 for the other windows. -/
def State.blockScale (s : State) (q : Req) (w off : Nat) (acc : BitVec 2) : Except Stop (State × Nat) :=
  if w < 6 then .ok (s, 0x3F800000)
  else do
    let va := ((s.ctx q.id).wscale w + BitVec.ofNat 64 (4 * (off / 32))).toNat
    let (s, v) ← s.scalarLoad q va 4 reqOwn
    -- a store uses the reciprocal too (R253)
    if (if acc = 1 then scaleRcpOk v else scaleOk v) then .ok (s, v) else raiseAcc .scaleInvalid (BitVec.ofNat 64 va) 0

/-- A lane loaded through a window: exact, or times the block scale and rounded (R186, R187). -/
def laneIn (w scale code : Nat) : Nat × BitVec 5 :=
  let t := windowType w
  let v := t.decode code
  if w < 6 then ((ETy.round .fp32 Rnd.default v).1, 0)
  else fpOp .fp32 Rnd.default [v] (fvMul v (ETy.decode .fp32 scale))

/-- A lane stored through a window: narrowed RNE, times RNE(1 ÷ s) for a scaled one (R187, R189). -/
def laneOut (w scale lane : Nat) : Nat × BitVec 5 :=
  let t := windowType w
  let v := ETy.decode .fp32 lane
  if w < 6 then t.round Rnd.default v
  else fpOp t Rnd.default [v] (fvMul v (ETy.decode .fp32 (scaleRcp scale)))

/-- The vector that the bytes read deliver, and the flags: raw through window 0, 8 lanes through the others; LDVB has one element. -/
def windowVec (w scale bytes : Nat) (bcast : Bool) : Vec × BitVec 5 :=
  if w = 0 then (if bcast then vecOf 32 (List.replicate 8 (bytes % 2 ^ 32)) else BitVec.ofNat 256 bytes, 0)
  else
    let e := 8 * windowEl w
    let l := (elems bytes e (if bcast then 1 else 8)).map (laneIn w scale)
    let l := if bcast then List.replicate 8 (l.getD 0 (0, 0)) else l
    (vecOf 32 (l.map (·.1)), flagsOf l)

/-- The bytes that a vector store writes through a window, and the flags. -/
def windowBytes (w scale : Nat) (v : Vec) : Nat × BitVec 5 :=
  if w = 0 then (v.toNat, 0)
  else
    let l := (vecEls v 32).map (laneOut w scale)
    (packEls (8 * windowEl w) (l.map (·.1)), flagsOf l)

/-! ## Vector loads and stores (R200, R201) -/

/-- The footprint of an access through a window. -/
def vecFoot (w : Nat) (bcast : Bool) : Nat := if bcast then windowEl w else windowFootprint w

/-- A vector load at a scratchpad port of some polder, local address `la`. -/
def State.vecLoadAt (s : State) (q : Req) (va node p la : Nat) (bcast : Bool) : Except Stop (State × Vec × BitVec 5) := do
  let w := laWindow la
  let f := vecFoot w bcast
  spadCheck va la f f .vecLoad
  let v ← s.portRead node p (laPlain la) f va
  let (s, sc) ← s.blockScale q w (laOff la) 0
  .ok (s, windowVec w sc v bcast)

/-- The class-10 frame behind a global VA whose local address carries a window (R190): node, polder, local address. -/
def State.windowFrame (s : State) (q : Req) (va : Nat) : Option Nat :=
  match s.findLeaf q va accRead with
  | .ok (_, w) =>
    let pa := pteFrame w.entry + va % pageSize w.level
    if paClass pa = 2 ∧ laWindow (fieldN pa 0 32) ≠ 0 then some pa else none
  | .error _ => none

/-- LDV, LDVX and LDVB at a VA (R200): the state, the value delivered, its flags. -/
def State.vecLoad (s : State) (q : Req) (va typ : Nat) (bcast : Bool) : Except Stop (State × Vec × BitVec 5) := do
  let n := if bcast then 4 else 32
  if isAperture va then
    apertureCheck va 0
    s.vecLoadAt q va q.id.node (aperturePolder va q.id.polder) (fieldN va 0 32) bcast
  else if !isCanonical va then raiseAcc .pagePermission (BitVec.ofNat 64 va) 0
  else if va % n ≠ 0 then raiseAcc .misaligned (BitVec.ofNat 64 va) 0
  else match s.windowFrame q va with
    | some _ =>
      let (s, x) ← s.translate q va accRead
      if !(s.group.contains (paNode x.pa)) then raiseAcc .illegalAddress (BitVec.ofNat 64 va) 0
      else if s.cutOff q.id.node (paNode x.pa) then raiseAcc .dataLost (BitVec.ofNat 64 va) 0
      else
        let (p, la) ← remoteSpad va x.pa 0
        s.vecLoadAt q va (paNode x.pa) p la bcast
    | none =>
      let (s, v) ← s.load q va n typ true
      .ok (s, windowVec 0 0 v bcast)

/-- A vector store at a scratchpad port. -/
def State.vecStoreAt (s : State) (q : Req) (va node p la : Nat) (v : Vec) (remoteLocks : Bool) : Except Stop (State × BitVec 5) := do
  let w := laWindow la
  let f := vecFoot w false
  spadCheck va la f f .vecStore
  s.storeTests q va f 1
  let (s, sc) ← s.blockScale q w (laOff la) 1
  if remoteLocks && (s.polder node p).rl.any (fun e => e.kind == 1 && e.hits (fieldN la 29 3 + 1) 0 (laOff la) f) then
    raiseAcc .rangeLockHit (BitVec.ofNat 64 va) 1
  else
    let (b, fl) := windowBytes w sc v
    let s ← s.portWrite q node p (laPlain la) f b (if remoteLocks then some (q.asid, va) else none)
    .ok (s, fl)

/-- STV and STVX at a VA (R201): the tests of a store follow its translation, or the L1 hit that makes one unnecessary (R202). -/
def State.vecStore (s : State) (q : Req) (va typ : Nat) (v : Vec) : Except Stop (State × BitVec 5) := do
  if isAperture va then
    apertureCheck va 1
    s.vecStoreAt q va q.id.node (aperturePolder va q.id.polder) (fieldN va 0 32) v false
  else if !isCanonical va then raiseAcc .pagePermission (BitVec.ofNat 64 va) 1
  else if va % 32 ≠ 0 then raiseAcc .misaligned (BitVec.ofNat 64 va) 1
  else match s.windowFrame q va with
    | some _ =>
      let (s, x) ← s.translate q va accWrite
      if !(s.group.contains (paNode x.pa)) then raiseAcc .illegalAddress (BitVec.ofNat 64 va) 1
      else if s.cutOff q.id.node (paNode x.pa) then raiseAcc .dataLost (BitVec.ofNat 64 va) 1
      else
        let (p, la) ← remoteSpad va x.pa 1
        s.vecStoreAt q va (paNode x.pa) p la v true
    | none =>
      let s ← if s.storeHits q va typ then .ok s else (s.place q va accWrite).map (fun x => x.1.sameRequest q va)
      s.storeTests q va 32 1
      let s ← s.store q va 32 v.toNat typ true
      .ok (s, 0)

/-! ## Stream ports (R233 to R241) -/

/-- An unbound port. -/
def Port.none : Port := ⟨false, 0, 0, 0, false, 0, 0, [], []⟩

/-- The bound port of a register, for a context that has ports: a run-ahead helper's v24-v31 are ordinary registers (R234). -/
def Ctx.portOf (c : Ctx) (r : Reg) : Option Port :=
  if h : 24 ≤ r.toNat then
    let p := c.ports[r.toNat - 24]'(by have := r.isLt; omega)
    if p.bound && !c.ra then some p else none
  else Option.none

/-- Replaces the port of a register. -/
def Ctx.setPort (c : Ctx) (r : Reg) (p : Port) : Ctx :=
  if h : 24 ≤ r.toNat then { c with ports := c.ports.set (r.toNat - 24) p (by have := r.isLt; omega) } else c

/-- VA_k (R233). -/
def Port.va (p : Port) (k : Nat) : Nat := (p.base + p.stride * BitVec.ofNat 64 k).toNat

/-- STREAM_FAULT at a port (R238). -/
def streamFault {α : Type} (r : Reg) : Except Stop α := raise .streamFault (BitVec.ofNat 64 r.toNat)

/-- A fault of an element's access is reported with the element's VA (R236); the low bits of WALK_NODE_FAULT's TVAL still give the level
(R106). -/
def Stop.atElement (e : Stop) (va : Nat) : Stop :=
  let tv := fun (t : TrapInfo) => if t.cause = .walkNodeFault then BitVec.ofNat 64 (va / 8 * 8 + t.tval.toNat % 8) else BitVec.ofNat 64 va
  match e with
  | .trap t => .trap { t with tval := tv t }
  | .trapKeep t s => .trapKeep { t with tval := tv t } s
  | .wait w s => .wait w s

/-- The value of V(r) as a source (R235, R236): the register, or the element that a pop delivers. -/
def State.readV (s : State) (r : Reg) : Except Stop (State × Vec) :=
  match s.c.portOf r with
  | none => .ok (s, s.c.vr r)
  | some p =>
    if p.write ∨ p.remain = 0 then streamFault r
    else
      let next := { p with k := p.k + 1, remain := p.remain - 1, fetched := p.fetched.filter (fun e => e.1 != p.k) }
      match p.fetched.find? (fun e => e.1 == p.k) with
      | some e => .ok (s.setC (s.c.setPort r next), e.2)
      | none =>
        match s.vecLoad s.req (p.va p.k) p.typ.toNat false with
        | .ok (s, v, f) => .ok ((s.setC (s.c.setPort r next)).setFlags f, v)
        | .error e => .error (e.atElement (p.va p.k))

/-- The values of several sources: one read port named twice pops once (R236). -/
def State.readVs (s : State) : List Reg → List (Reg × Vec) → Except Stop (State × List (Reg × Vec))
  | [], got => .ok (s, got)
  | r :: rest, got =>
    if got.any (fun e => e.1 == r) then s.readVs rest got
    else do
      let (s, v) ← s.readV r
      s.readVs rest (got ++ [(r, v)])

/-- The value found for a register. -/
def gotV (l : List (Reg × Vec)) (r : Reg) : Vec :=
  match l.find? (fun e => e.1 == r) with | some e => e.2 | none => 0

/-- A result written to V(r) (R237, R238): the register, or an append, checked and stored as STV stores it. An instruction that keeps
part of its destination may not name a write port. -/
def State.writeV (s : State) (r : Reg) (v : Vec) (keeps : Bool) : Except Stop State :=
  match s.c.portOf r with
  | none => .ok (s.setC (s.c.setV r v))
  | some p =>
    if !p.write ∨ keeps ∨ p.remain = 0 then streamFault r
    else if 4 ≤ p.buffered.length then .error (.wait .stream s)
    else do
      let (s, f) ← s.vecStore { s.req with append := some (r.toNat, p.k) } (p.va p.k) p.typ.toNat v
      let s := s.setC (s.c.setPort r { p with k := p.k + 1, remain := p.remain - 1, buffered := p.buffered ++ [(p.k, v)] })
      .ok ((s.setFlags f).enq .streamAppendPerformed { node := s.fnode, core := s.fcore, slot := s.cc.slot, n := r.toNat })

/-! ## The vector queue (R280) -/

/-- An instruction that goes to the vector queue stalls while 32 entries of it are not bound (R280). Its registers, ports, flags and
draws are then as they were; a request of its that a home holds keeps its place (R66), and counts once (R116). -/
def viaQueue {α : Type} (s : State) (r : Except Stop α) : Except Stop α :=
  if 32 ≤ (s.cc.vq.filter (fun e => !e.bound)).length then .error (.wait .vectorQueue s)
  else match r with
    | .error (.wait w s') => .error (.wait w (s'.setC { s.c with arrived := s'.c.arrived, surveyed := s'.c.surveyed }))
    | r => r

/-- The instruction enters the queue. Its effect on the registers is that of program order (R299) and is made at once; the entry goes
on to a lane group (R282, R283). -/
def State.vqPush (s : State) (dest : Nat) (srcs : List Nat) : State :=
  (s.setCC { s.cc with vq := s.cc.vq ++ [(⟨s.cc.slot, dest, srcs, false⟩ : VqEntry)] }).enq .vectorBind { node := s.fnode, n := s.pIdx }

/-! ## LDV, LDVX, LDVB, STV, STVX -/

/-- A vector load instruction: in a run-ahead helper a prefetch of a global line (R202). -/
def vecLoadInstr (i : Instr) (d : Reg) (va : Word) (typ : Nat) (bcast : Bool) (s : State) : Out :=
  finish i s (
    if s.c.ra then
      if isAperture va.toNat then .ok s
      else .ok (match s.vecLoad s.req va.toNat typ bcast with
        | .ok (s', _, _) => s' | .error _ => s.prefill s.req va.toNat (if bcast then 4 else 32))
    else viaQueue s (do
      let (s, v, f) ← s.vecLoad s.req va.toNat typ bcast
      if 64 ≤ s.pol.returns.length then .error (.wait .vectorQueue s)
      else do
        let s ← (s.setFlags f).writeV d v false
        let s := s.setPol { s.pol with returns := s.pol.returns ++ [(s.fcore, s.cc.slot)] }
        .ok ((s.enq .memoryReturnWrite { node := s.fnode, n := s.pIdx }).vqPush d.toNat [])))

/-- A vector store instruction: a bound port supplies its value by a pop; a run-ahead helper drops it. -/
def vecStoreInstr (i : Instr) (v : Reg) (va : Word) (typ : Nat) (s : State) : Out :=
  finish i s (if s.c.ra then .ok s else viaQueue s (do
    let (s, x) ← s.readV v
    let (s, f) ← s.vecStore s.req va.toNat typ x
    .ok ((s.setFlags f).vqPush 64 [v.toNat])))

/-- LDV (R200). -/
def execLdv (d a : Reg) (o : BitVec 9) (t : BitVec 2) (s : State) : Out :=
  vecLoadInstr (.ldv d a o t) d (s.X a + off9 o 32) t.toNat false s
/-- LDVX (R200). -/
def execLdvx (d a i : Reg) (t : BitVec 2) (s : State) : Out :=
  vecLoadInstr (.ldvx d a i t) d (s.X a + s.X i) t.toNat false s
/-- LDVB (R200). -/
def execLdvb (d a : Reg) (o : BitVec 9) (t : BitVec 2) (s : State) : Out :=
  vecLoadInstr (.ldvb d a o t) d (s.X a + off9 o 4) t.toNat true s
/-- STV (R201). -/
def execStv (v a : Reg) (o : BitVec 9) (t : BitVec 2) (s : State) : Out :=
  vecStoreInstr (.stv v a o t) v (s.X a + off9 o 32) t.toNat s
/-- STVX (R201). -/
def execStvx (v a i : Reg) (t : BitVec 2) (s : State) : Out :=
  vecStoreInstr (.stvx v a i t) v (s.X a + s.X i) t.toNat s

/-! ## SBIND, SUNBIND, SSTAT (R234, R235, R240) -/

/-- The element alignment of a base (R186, R235): a global base counts as window 0. A base with window 8 to 15, for which R186 has no footprint, needs 8
bytes (DESIGN CHOICE, log entry 49). -/
def portAlign (base : Nat) : Nat := if isAperture base then windowFootprint (laWindow (fieldN base 0 32)) else 32

/-- A descriptor's 32 bytes (R233), 8-byte aligned, read with type .own; the alignment test comes where R98 puts it. -/
def State.readDesc (s : State) (va : Nat) : Except Stop (State × List Nat) := do
  let (s, a) ← s.scalarLoad s.req va 8 reqOwn
  let (s, b) ← s.scalarLoad s.req (va + 8) 8 reqOwn
  let (s, c) ← s.scalarLoad s.req (va + 16) 8 reqOwn
  let (s, d) ← s.scalarLoad s.req (va + 24) 8 reqOwn
  .ok (s, [a, b, c, d])

/-- SBIND (R235). -/
def execSbind (p a : Reg) (s : State) : Out :=
  finish (.sbind p a) s (if s.c.ra then .ok s else do
    let (s, l) ← s.readDesc (s.X a).toNat
    let base := l.getD 0 0
    let stride := l.getD 1 0
    let w2 := l.getD 2 0
    let w3 := l.getD 3 0
    if (s.c.portOf p).isSome ∨ fieldN w2 32 32 ≠ 0 ∨ fieldN w2 0 32 = 0 ∨ fieldN w3 3 61 ≠ 0 ∨ base % portAlign base ≠ 0 ∨
        stride % portAlign base ≠ 0 then raise .streamFault (s.X a)
    else
      let port : Port := ⟨true, BitVec.ofNat 64 base, BitVec.ofNat 64 stride, BitVec.ofNat 2 (fieldN w3 1 2), fieldN w3 0 1 == 1, 0,
        fieldN w2 0 32, [], []⟩
      let s := s.setC (s.c.setPort p port)
      .ok (if port.write then s
        else s.enq .streamElementFetch { node := s.fnode, core := s.fcore, slot := s.cc.slot, n := p.toNat }))

/-- SUNBIND (R240): a write port waits until its buffered appends are performed. -/
def execSunbind (p : Reg) (s : State) : Out :=
  finish (.sunbind p) s (if s.c.ra then .ok s else
    match s.c.portOf p with
    | none => streamFault p
    | some q => if q.write ∧ q.buffered ≠ [] then .error (.wait .stream s) else .ok (s.setC (s.c.setPort p Port.none)))

/-- SSTAT (R240). -/
def execSstat (d p : Reg) (s : State) : Out :=
  finish (.sstat d p) s (if s.c.ra then .ok s else
    match s.c.portOf p with
    | none => streamFault p
    | some q =>
      let avail := if q.write then q.buffered.length else q.fetched.length
      .ok (s.setX d (BitVec.ofNat 64 (2 ^ 63 + q.write.toNat * 2 ^ 62 + avail * 2 ^ 59 + q.remain % 2 ^ 32))))

end Sys2Proof.Machine
end

