-- ==== Sys2Proof/Machine/Atomics.lean ====
section
/-! DEFINITION. Atomics (R129 to R132) and the near-memory instructions (R69 to R72). -/

namespace Sys2Proof.Machine
open Sys2Proof

/-! ## Atomics -/

/-- An atomic: `f` gives the new value from the old one, with flags. It reads and writes its location as one event (R130); `float`:
the result is zero-extended. A run-ahead helper drops it. `after` is the issuing context's state once it has issued. -/
def atomic (i : Instr) (n : Nat) (d a : Reg) (place : Nat) (nr float : Bool) (f : Nat → Nat × BitVec 5) (after : State → State) (s : State) : Out :=
  let va := (s.X a).toNat
  let tv := s.X a
  finish i s (if s.c.ra then .ok s else do
    if isAperture va then raiseAcc .illegalAddress tv 2
    else if !isCanonical va then raiseAcc .pagePermission tv 2
    else if va % n ≠ 0 then raiseAcc .misaligned tv 2
    else
      let q := s.req
      let (s, x) ← s.atomicPlace q va
      s.storeTests q va n 2
      let s ← s.atomicReady q va x
      if !s.atomicFar q x place then s.missNew q (fieldN va 6 50)
      let old := s.lineRead q.id.node x.pa n
      let r := f old
      let s := after (s.atomicWrite q va n x place (r.1 % 2 ^ (8 * n)))
      .ok (if nr then s else (s.setX d (if float then BitVec.ofNat 64 old else sextN old (8 * n))).setFlags r.2))

/-- The access size of an integer atomic. -/
def amoBytes (w : Bool) : Nat := if w then 8 else 4

/-- An integer atomic: `f` on the operands of `n` bytes. -/
def amoInt (i : Instr) (d a b : Reg) (w : Bool) (p : BitVec 2) (nr : Bool) (f : Nat → Nat → Nat → Nat) (s : State) : Out :=
  let n := amoBytes w
  atomic i n d a p.toNat nr false (fun old => (f (8 * n) old ((s.X b).toNat % 2 ^ (8 * n)), 0)) id s

/-- AMOADD: wrap. -/
def execAmoadd (d a b : Reg) (w : Bool) (p : BitVec 2) (n : Bool) (s : State) : Out :=
  amoInt (.amoadd d a b w p n) d a b w p n (fun k x y => (x + y) % 2 ^ k) s
/-- AMOAND. -/
def execAmoand (d a b : Reg) (w : Bool) (p : BitVec 2) (n : Bool) (s : State) : Out :=
  amoInt (.amoand d a b w p n) d a b w p n (fun _ x y => x &&& y) s
/-- AMOOR. -/
def execAmoor (d a b : Reg) (w : Bool) (p : BitVec 2) (n : Bool) (s : State) : Out :=
  amoInt (.amoor d a b w p n) d a b w p n (fun _ x y => x ||| y) s
/-- AMOXOR. -/
def execAmoxor (d a b : Reg) (w : Bool) (p : BitVec 2) (n : Bool) (s : State) : Out :=
  amoInt (.amoxor d a b w p n) d a b w p n (fun _ x y => x ^^^ y) s
/-- AMOMIN: signed. -/
def execAmomin (d a b : Reg) (w : Bool) (p : BitVec 2) (n : Bool) (s : State) : Out :=
  amoInt (.amomin d a b w p n) d a b w p n (fun k x y => if signedN y k < signedN x k then y else x) s
/-- AMOMAX: signed. -/
def execAmomax (d a b : Reg) (w : Bool) (p : BitVec 2) (n : Bool) (s : State) : Out :=
  amoInt (.amomax d a b w p n) d a b w p n (fun k x y => if signedN x k < signedN y k then y else x) s
/-- AMOMINU. -/
def execAmominu (d a b : Reg) (w : Bool) (p : BitVec 2) (n : Bool) (s : State) : Out :=
  amoInt (.amominu d a b w p n) d a b w p n (fun _ x y => min x y) s
/-- AMOMAXU. -/
def execAmomaxu (d a b : Reg) (w : Bool) (p : BitVec 2) (n : Bool) (s : State) : Out :=
  amoInt (.amomaxu d a b w p n) d a b w p n (fun _ x y => max x y) s
/-- AMOSWAP. -/
def execAmoswap (d a b : Reg) (w : Bool) (p : BitVec 2) (n : Bool) (s : State) : Out :=
  amoInt (.amoswap d a b w p n) d a b w p n (fun _ _ y => y) s
/-- AMOCAS: b if the location holds X(rd), which then receives the old value. -/
def execAmocas (d a b : Reg) (w : Bool) (p : BitVec 2) (s : State) : Out :=
  amoInt (.amocas d a b w p) d a b w p false (fun k x y => if x = (s.X d).toNat % 2 ^ k then y else x) s

/-- AMOFADD (R131): the mode and the draw are the issuing context's; flags come back unless NR. On overflow under RZ, or in the direction
toward zero, the value is that of round (R248), the largest finite one, though R131 speaks of an infinity (log entry 42). -/
def execAmofadd (g : Bool) (d a b : Reg) (p : BitVec 2) (n : Bool) (s : State) : Out :=
  governed (.amofadd g d a b p n) g s (
    atomic (.amofadd g d a b p n) 4 d a p.toNat n true
      (fun old => fpAdd .fp32 { s.rnd ((s.draws 1).getD 0 0) with sat := false } old (s.F b)) (fun s => s.drawn 1) s)

/-- AMOFMIN and AMOFMAX: two NaNs give 0x7FC0_0000, and no flag is raised (R131). -/
def amoMinMax (isMax : Bool) (x y : Nat) : Nat × BitVec 5 :=
  ((fpMinMax .fp32 Rnd.default isMax x y).1, 0)
/-- AMOFMIN. -/
def execAmofmin (d a b : Reg) (p : BitVec 2) (n : Bool) (s : State) : Out :=
  atomic (.amofmin d a b p n) 4 d a p.toNat n true (fun old => amoMinMax false old (s.F b)) id s
/-- AMOFMAX. -/
def execAmofmax (d a b : Reg) (p : BitVec 2) (n : Bool) (s : State) : Out :=
  atomic (.amofmax d a b p n) 4 d a p.toNat n true (fun old => amoMinMax true old (s.F b)) id s

/-! ## Near-memory operations -/

/-- The operand size of a near-memory operation (R70, R71). -/
def nmBytes (op : Nat) (vec : Bool) : Nat := if vec then 32 else if op = 1 then 4 else 8

/-- `fadd` of R70: RNE whatever the modes, no flags. -/
def nmFadd (a b : Nat) : Nat := (fpAdd .fp32 Rnd.default a b).1

/-- The operation on one operand of `k` bits (R70). -/
def nmOne (op k old x : Nat) : Nat :=
  match op with
  | 0 => (old + x) % 2 ^ k
  | 1 => nmFadd old x
  | 2 => if signedN old k < signedN x k then x else old
  | 3 => if signedN x k < signedN old k then x else old
  | _ => old ||| x

/-- `apply` of R71: the scalar form on one operand, the .v form on eight 4-byte lanes. -/
def nmApplyOp (op : Nat) (vec : Bool) (old x : Nat) : Nat :=
  if vec then packEls 32 ((elems old 32 8).zipWith (fun a b => nmOne op 32 a b) (elems x 32 8))
  else nmOne op (8 * nmBytes op vec) old (x % 2 ^ (8 * nmBytes op vec))

/-- The tests of a near-memory operation up to the slice's acceptance (R71): address, translation, place, overlap, range lock. -/
def State.nmPlace (s : State) (q : Req) (va n : Nat) : Except Stop (State × Xlated) := do
  let tv := BitVec.ofNat 64 va
  if isAperture va then raiseAcc .illegalAddress tv 2
  else if !isCanonical va then raiseAcc .pagePermission tv 2
  else if va % n ≠ 0 then raiseAcc .misaligned tv 2
  else
    let (s, x) ← s.translate q va accNear
    if paClass x.pa ≠ 0 ∨ hbmLimit ≤ paOff x.pa ∨ !(s.group.contains (paNode x.pa)) then raiseAcc .illegalAddress tv 2
    else if s.cutOff q.id.node (paNode x.pa) then raiseAcc .dataLost tv 2
    else .ok (s, x)

/-- The operation leaves for its home: the issuing core's copies of the line go first, and the data copy of the slice that accepts it (R71, steps 1
to 3). -/
def State.nmSend (s : State) (o : NmOp) : State :=
  let gone := (s.core o.id.node o.id.core).l1.filter (fun (l : L1Line) => l.pline == lineOf o.pa)
  let s := gone.foldl (fun s l => s.l1drop o.id.node o.id.core l.asid l.vline false) s
  let s := s.recallAt (lineOf o.pa) (o.id.node, o.id.die, s.lineSlice o.id.node o.id.die o.asid (fieldW o.va 6 50)) none
  let s := { s with nmOps := s.nmOps ++ [o] }
  s.enq .nearMemoryForward { pa := o.pa }

/-- A near-memory instruction (R71): it retires when the operation is accepted. A run-ahead helper drops it (R68). -/
def nearMem (i : Instr) (op : Nat) (a b : Reg) (vec : Bool) (s : State) : Out :=
  let va := (s.X a).toNat
  let n := nmBytes op vec
  finish i s (if s.c.ra then .ok s else do
    let q := s.req
    let (s, x) ← s.nmPlace q va n
    s.storeTests q va n 2
    let (s, v) ← if vec then s.readV b else .ok (s, (s.X b).zeroExtend 256)
    let s := s.setC { s.c with nmPending := s.c.nmPending + 1 }
    .ok (s.nmSend ⟨q.id, s.c.gen, s.X a, x.pa, q.asid, q.ptroot, x.gen, op, vec, v, .sent, none, none, false⟩))

/-- NMADD (R70). -/
def execNmadd (a b : Reg) (v : Bool) (s : State) : Out := nearMem (.nmadd a b v) 0 a b v s
/-- NMFADD. -/
def execNmfadd (a b : Reg) (v : Bool) (s : State) : Out := nearMem (.nmfadd a b v) 1 a b v s
/-- NMMAX. -/
def execNmmax (a b : Reg) (v : Bool) (s : State) : Out := nearMem (.nmmax a b v) 2 a b v s
/-- NMMIN. -/
def execNmmin (a b : Reg) (v : Bool) (s : State) : Out := nearMem (.nmmin a b v) 3 a b v s
/-- NMOR. -/
def execNmor (a b : Reg) (v : Bool) (s : State) : Out := nearMem (.nmor a b v) 4 a b v s

end Sys2Proof.Machine
end

