-- ==== Sys2Proof/Machine/Engine.lean ====
section
/-! DEFINITION. The copy engine (R203 to R213, R221 to R228) with ENMSC and ETOPK (R75 to R81): issue checks, queues, the units of work
of each command, exchanges, stops and replay. -/

namespace Sys2Proof.Machine
open Sys2Proof

/-! ## Issue (R205) -/

/-- ENGINE_FAULT at issue, with TVAL as R205 says. -/
def engineFault {α : Type} (n : Nat) : Except Stop α := raise .engineFault (BitVec.ofNat 64 n)
/-- A check at issue. -/
def engCheck (bad : Bool) (n : Nat) : Except Stop Unit := if bad then engineFault n else .ok ()

/-- The copy-engine commands of a core that are issued and not retired (R205). -/
def State.coreCmds (s : State) (node k : Nat) : Nat :=
  let e := (s.polder node (k / 8)).engine
  let mine := (e.hiQ ++ e.loQ ++ e.run ++ e.exch ++ e.sets.flatten ++ (match e.exRun with | some x => x.cmds | none => [])).filter (fun c => c.id.core == k && c.hw == 0)
  mine.length

/-- The command that an instruction issues, before its progress: operands, geometry registers, address space (R205, steps 1 and 4). -/
def State.mkCmd (s : State) (code : Nat) (hi trig : Bool) (a b : Word) : Cmd :=
  { no := s.nextCmd, id := s.cur, cgen := s.c.gen, cmd := code, hi := hi, trig := trig, a := a, b := b, g := s.c.g, asid := s.c.asid,
    ptroot := s.c.ptroot, user := s.cc.slot != 11, rnd := 0, sat := false, nanp := 0, draws := [], scales := [], pos := 0, sub := 0,
    counted := 0, open_ := 0, ix := none, single := false, rows := 0, started := false, hw := 0 }

/-- The command's requests (R205, step 4). -/
def Cmd.req (c : Cmd) : Req := { id := c.id, asid := c.asid, ptroot := c.ptroot, user := c.user, ra := false, engine := true, cmd := some c.no }

/-- A range to claim: scoreboard or range lock, space, first byte, one past the last (R194, R195). -/
structure Claim where
  sb : Bool
  dst : Bool
  space : Nat
  lo : Nat
  hi : Nat
deriving DecidableEq, Repr, Inhabited

/-- The entry that a claim makes (R198). -/
def Claim.entry (k : Claim) (c : Cmd) : RangeEnt :=
  ⟨if k.sb then 0 else if k.dst then 2 else 1, k.space, if k.space = 0 then c.asid else 0, c.id.core % 8, k.lo, k.hi, c.no⟩

/-- A claim of a source range (R194). -/
def srcClaim (space lo hi : Nat) : Claim := ⟨false, false, space, lo, hi⟩
/-- A claim of a destination range: the scoreboard for the polder's own spaces, the range-lock table for global memory. -/
def dstClaim (space lo hi : Nat) : Claim := ⟨space != 0, true, space, lo, hi⟩

/-- The polder's tables with the claims of a command, if there is room. -/
def Polder.claim (q : Polder) (c : Cmd) (l : List Claim) : Option Polder :=
  let sb := (l.filter (fun k => k.sb)).map (fun k => k.entry c)
  let rl := (l.filter (fun k => !k.sb)).map (fun k => k.entry c)
  if 64 < q.sb.length + sb.length ∨ 64 < q.rl.length + rl.length then none
  else some { q with sb := q.sb ++ sb, rl := q.rl ++ rl }

/-! ## Operands (R207, R209, R210) -/

/-- The barrier address of g0 or g6 passes R217's tests: the last check, since TVAL names it only when it alone fails (R205). -/
def barCheck (la : Nat) : Except Stop Unit := engCheck (!barOk la) 0x200

/-- A scratchpad address that no engine command may have (R183, R184): one with a window, in a space that does not exist, or in one that `u` may not
access. -/
def badAperture (x : Nat) (u : SpadUnit) : Bool :=
  isAperture x && (laWindow (fieldN x 0 32) != 0 || decide (4 ≤ fieldN x 29 3) || !u.may (fieldN x 29 3))

/-- The form of an operand under a space code (R207), which the engine reads or, as a destination, writes. -/
def operandOk (own code : Nat) (v : Word) (dst : Bool) : Bool :=
  let x := v.toNat
  if code = 0 then !(isAperture x && (fieldN x 40 8 == 255 || fieldN x 40 8 == own)) && !badAperture x (if dst then .engineWrite else .engineRead)
  else x / 2 ^ 29 == code - 1 && (code != 1 || fieldN x 25 4 == 0)

/-- The dimensions of an ECPY from the inside: extent, source stride, destination stride (R209). -/
def Cmd.dims (c : Cmd) : List (Nat × Int × Int) :=
  (List.range (fieldW c.g[0] 0 4 + 1)).map (fun k =>
    ((c.g.toList.getD (1 + k) 0).toNat, (c.g.toList.getD (11 + k) 0).toInt, (c.g.toList.getD (21 + k) 0).toInt))

/-- The bounding range of an operand (R210). -/
def bounds (b : Nat) (dims : List (Nat × Int)) (e : Nat) : Int × Int :=
  dims.foldl (fun r d => (r.1 + min 0 (((d.1 : Int) - 1) * d.2), r.2 + max 0 (((d.1 : Int) - 1) * d.2))) ((b : Int), (b : Int) + e)

/-- A bounding range as a claim's range: an offset in its space for codes 1 to 4; none if it lies outside the space (R210). -/
def inSpace (code : Nat) (r : Int × Int) : Option (Nat × Nat) :=
  if code = 0 then some (r.1.toNat, r.2.toNat)
  else
    let base : Int := ((code - 1) * 2 ^ 29 : Nat)
    if r.1 < base ∨ base + spaceSize (code - 1) < r.2 then none else some ((r.1 - base).toNat, (r.2 - base).toNat)

/-- Two ranges of one space overlap. -/
def rangesMeet (s1 : Nat) (r1 : Nat × Nat) (s2 : Nat) (r2 : Nat × Nat) : Bool := s1 == s2 && decide (r1.1 < r2.2 ∧ r2.1 < r1.2)

/-- The range of `n` bytes at a VA, in the space it lies in: an aperture VA of the issuing polder counts in its scratchpad space. -/
def vaRange (own va n : Nat) : Nat × Nat × Nat :=
  if isAperture va && aperturePolder va own == own then
    let (sp, lo) := vaSpace va
    (sp, lo, lo + n)
  else (0, va, va + n)

/-! ## Accesses of an engine (R208, R226) -/

/-- The local address of an operand of codes 1 to 4 as a scratchpad access. -/
def State.engPort (s : State) (c : Cmd) (la n : Nat) : Except Stop Nat :=
  if s.lostWordIn (spadAddr c.id.node c.id.polder la) n then raiseAcc .dataLost (BitVec.ofNat 64 la) 0
  else .ok (memRead s.mem (spadAddr c.id.node c.id.polder la) n)

/-- A store that the command's context retired before the command waits at the port and touches the bytes: the command's access follows it (R191,
R229). -/
def State.portEarlier (s : State) (q : Req) (node p la n : Nat) : Bool :=
  (s.polder node p).portQ.any (fun w => w.id == q.id && decide (w.la < la + n ∧ la < w.la + w.n) &&
    (match q.cmd with | some no => decide (w.before ≤ no) | none => true))

/-- A port of another polder, or of the issuing one by its aperture: checked as R184 for the unit. -/
def State.engAperture (s : State) (q : Req) (node p va la n : Nat) (u : SpadUnit) : Except Stop Nat := do
  spadCheck va la n 1 u
  if s.portEarlier q node p (laPlain la) n then .error (.wait .resource s)
  else if s.lostWordIn (spadAddr node p (laPlain la)) n then raiseAcc .dataLost (BitVec.ofNat 64 va) 0
  else .ok (memRead s.mem (spadAddr node p (laPlain la)) n)

/-- A write at such a port. -/
def State.engPortWrite (s : State) (q : Req) (node p va la n v : Nat) (u : SpadUnit) : Except Stop State := do
  spadCheck va la n 1 u
  if s.portEarlier q node p (laPlain la) n then .error (.wait .resource s)
  else .ok (s.spadWrite node p (laPlain la) n v q.id.node q.id.polder 0x7FF)

/-- The region of an engine's class-01 address: another package's address is ILLEGAL_ADDRESS (R83, R226), an offset that lies in no region
ENGINE_FAULT (R85). -/
def State.engPool (s : State) (q : Req) (va pa : Nat) (acc : BitVec 2) : Except Stop (Nat × Region) :=
  if paNode pa ≠ q.id.node then raiseAcc .illegalAddress (BitVec.ofNat 64 va) acc
  else match s.regionAt q.id.node (paOff pa) with
    | some r => .ok r
    | none => raiseAcc .engineFault (BitVec.ofNat 64 va) acc

/-- A read of a place that has been translated, at its home or port (R208). -/
def State.engReadAt (s : State) (q : Req) (va pa n : Nat) (u : SpadUnit) : Except Stop (State × Nat) := do
  let tv := BitVec.ofNat 64 va
  match paClass pa with
  | 0 =>
    s.hbmCheck q va pa 0
    if s.isLost pa then raiseAcc .dataLost tv 0 else .ok (s.merge (lineOf pa), memRead s.mem pa n)
  | 1 =>
    let (i, r) ← s.engPool q va pa 0
    if r.st ≠ .attached then poolLostTrap va q.id.node i pa 0
    else if s.isLost pa then raiseAcc .dataLost tv 0
    else
      s.homeReady q va pa 0
      let s := (s.poolSnoop q.id.node (lineOf pa) false).merge (lineOf pa)
      .ok (s, s.poolRead q.id.node r pa n)
  | 2 =>
    if !(s.group.contains (paNode pa)) then raiseAcc .illegalAddress tv 0
    else if s.cutOff q.id.node (paNode pa) then raiseAcc .dataLost tv 0
    else
      let (p, la) ← remoteSpad va pa 0
      let v ← s.engAperture q (paNode pa) p va la n u
      .ok (s, v)
  | _ => raiseAcc .illegalAddress tv 0

/-- A read of a global VA inside one line (R208), by unit `u`. -/
def State.engGlobal (s : State) (q : Req) (va n : Nat) (u : SpadUnit := .engineRead) : Except Stop (State × Nat) := do
  let tv := BitVec.ofNat 64 va
  if isAperture va then
    apertureCheck va 0
    let v ← s.engAperture q q.id.node (aperturePolder va q.id.polder) va (fieldN va 0 32) n u
    .ok (s, v)
  else if !isCanonical va then raiseAcc .pagePermission tv 0
  else
    let (s, x) ← s.keeping q (s.translate q va accRead)
    s.keeping q (s.engReadAt q va x.pa n u)

/-- A read of `n` bytes, line by line; `fuel` bounds the lines. -/
def State.engReadG (s : State) (q : Req) (va n : Nat) (u : SpadUnit := .engineRead) : Nat → Except Stop (State × Nat)
  | 0 => .ok (s, 0)
  | fuel + 1 => do
    let k := min n (64 - va % 64)
    let (s, v) ← s.engGlobal q va k u
    if n ≤ k then .ok (s, v)
    else
      let (s, w) ← s.keeping q (s.engReadG q (va + k) (n - k) u fuel)
      .ok (s, v + w * 256 ^ k)

/-- The unit that reads for a command, among those that R183 lists: the collective engine is not among them. -/
def Cmd.readUnit (c : Cmd) : SpadUnit := if c.cmd = 8 then .collRead else .engineRead
/-- The unit that writes for a command. -/
def Cmd.writeUnit (c : Cmd) : SpadUnit := if c.cmd = 8 then .collWrite else .engineWrite

/-- A read of an operand under its space code (R207). -/
def State.engRead (s : State) (c : Cmd) (code va n : Nat) : Except Stop (State × Nat) :=
  if code = 0 then s.engReadG c.req va n c.readUnit (n / 64 + 2)
  else (s.engPort c va n).map (fun v => (s, v))

/-- A write of a place that has been translated: as .wt, never allocating (R208). What goes to the pool is at its device before it counts (R89, R208; log entry
49). -/
def State.engWriteAt (s : State) (q : Req) (va pa n v : Nat) (u : SpadUnit) : Except Stop State := do
  let tv := BitVec.ofNat 64 va
  let pl := lineOf pa
  match paClass pa with
  | 0 =>
    s.hbmCheck q va pa 1
    .ok ((s.recall pl none).hbmWrite pa n v)
  | 1 =>
    let (i, r) ← s.engPool q va pa 1
    if r.st ≠ .attached then poolLostTrap va q.id.node i pa 1
    else
      s.homeReady q va pa 1
      .ok ((((s.recall pl none).poolSnoop q.id.node pl true).poolWrite q.id.node pa n v).poolClean q.id.node pl)
  | 2 =>
    if !(s.group.contains (paNode pa)) then raiseAcc .illegalAddress tv 1
    else if s.cutOff q.id.node (paNode pa) then raiseAcc .dataLost tv 1
    else
      let (p, la) ← remoteSpad va pa 1
      s.engPortWrite q (paNode pa) p va la n v u
  | _ => raiseAcc .illegalAddress tv 1

/-- A write to a global VA inside one line. A range-lock entry of another command stops it (R208). -/
def State.engStore (s : State) (c : Cmd) (va n v : Nat) : Except Stop State := do
  let q := c.req
  let tv := BitVec.ofNat 64 va
  let (sp, lo, _) := vaRange c.id.polder va n
  if (s.polder c.id.node c.id.polder).rl.any (fun e => e.cmd != c.no && e.hits sp c.asid lo n) then raiseAcc .rangeLockHit tv 1
  else if isAperture va then
    apertureCheck va 1
    s.engPortWrite q q.id.node (aperturePolder va q.id.polder) va (fieldN va 0 32) n v c.writeUnit
  else if !isCanonical va then raiseAcc .pagePermission tv 1
  else
    let (s, x) ← s.keeping q (s.translate q va accWrite)
    s.keeping q (s.engWriteAt q va x.pa n v c.writeUnit)

/-- A write of `n` bytes, line by line. -/
def State.engWriteG (s : State) (c : Cmd) (va n v : Nat) : Nat → Except Stop State
  | 0 => .ok s
  | fuel + 1 => do
    let k := min n (64 - va % 64)
    let s ← s.engStore c va k (v % 256 ^ k)
    if n ≤ k then .ok s else s.keeping c.req (s.engWriteG c (va + k) (n - k) (v / 256 ^ k) fuel)

/-- An A- or W-space write that overlaps a range that an earlier array command has locked waits (R315). -/
def State.arrayHolds (s : State) (c : Cmd) (code lo n : Nat) : Bool :=
  let q := s.polder c.id.node c.id.polder
  let a := q.array
  let nos := (a.hiQ ++ a.loQ ++ (match a.run with | some r => [r] | none => []) ++ a.susp.flatMap (fun (x : Susp) => x.hiQ ++ x.loQ)).map (fun (r : Cmd) => r.no)
  (code == 1 || code == 4) && q.rl.any (fun e => nos.contains e.cmd && decide (e.cmd < c.no) && e.hits code 0 lo n)

/-- A write of an operand under its space code. -/
def State.engWrite (s : State) (c : Cmd) (code va n v : Nat) : Except Stop State :=
  if code = 0 then s.engWriteG c va n v (n / 64 + 2)
  else if s.arrayHolds c code (fieldN va 0 29) n then .error (.wait .resource s)
  else .ok (s.spadWrite c.id.node c.id.polder va n v c.id.node c.id.polder 0x7FF)

/-! ## The claims of each command (R194) -/

/-- A claim, or none where its range lies outside its space. -/
def claimOf (dst : Bool) (code : Nat) (r : Option (Nat × Nat)) : List Claim :=
  match r with
  | some (lo, hi) => [if dst then dstClaim code lo hi else srcClaim code lo hi]
  | none => []

/-- ECPY's source and destination ranges. -/
def Cmd.ecpySrc (c : Cmd) : Option (Nat × Nat) :=
  inSpace (fieldW c.g[0] 8 4) (bounds c.a.toNat (c.dims.map (fun d => (d.1, d.2.1))) (2 ^ fieldW c.g[0] 4 4))
/-- ECPY's destination range. -/
def Cmd.ecpyDst (c : Cmd) : Option (Nat × Nat) :=
  inSpace (fieldW c.g[0] 12 4) (bounds c.b.toNat (c.dims.map (fun d => (d.1, d.2.2))) (2 ^ fieldW c.g[0] 4 4))

/-- The packed data of EGTH and ESCT. -/
def Cmd.packed (c : Cmd) : Option (Nat × Nat) :=
  inSpace (fieldW c.g[0] 29 3) ((c.b.toNat : Int), (c.b.toNat + 4 * fieldW c.g[0] 16 10 * fieldW c.g[0] 0 16 : Nat))
/-- The index list of EGTH and ESCT. -/
def Cmd.indexes (c : Cmd) : Option (Nat × Nat) :=
  inSpace (fieldW c.g[0] 26 3) ((c.a.toNat : Int), (c.a.toNat + 4 * fieldW c.g[0] 0 16 : Nat))

/-- A range at a VA as a source claim. -/
def Cmd.vaSrc (c : Cmd) (va n : Nat) : Claim := let (sp, lo, hi) := vaRange c.id.polder va n; srcClaim sp lo hi
/-- A range at a VA as a destination claim. -/
def Cmd.vaDst (c : Cmd) (va n : Nat) : Claim := let (sp, lo, hi) := vaRange c.id.polder va n; dstClaim sp lo hi

/-- The element bytes of ETOPK's logits. -/
def topkSize (c : Cmd) : Nat := if fieldW c.g[0] 16 4 = 1 then 4 else 2

/-- What a copy-engine command claims. Of a copy that a slot manager starts, the side in HBM has no virtual address, by which alone a global
range is recorded (R195); the other claims its W- or C-space range (log entry 23). -/
def Cmd.claims (c : Cmd) : List Claim :=
  if c.hw = 1 then [dstClaim 4 (fieldN c.b.toNat 0 29) (fieldN c.b.toNat 0 29 + 64 * c.rows)]
  else if c.hw ≠ 0 then [srcClaim 2 (fieldN c.a.toNat 0 29) (fieldN c.a.toNat 0 29 + 64 * c.rows)] else
  match c.cmd with
  | 0 => claimOf false (fieldW c.g[0] 8 4) c.ecpySrc ++ claimOf true (fieldW c.g[0] 12 4) c.ecpyDst
  | 1 => claimOf false (fieldW c.g[0] 26 3) c.indexes ++ claimOf true (fieldW c.g[0] 29 3) c.packed
  | 2 => claimOf false (fieldW c.g[0] 26 3) c.indexes ++ claimOf false (fieldW c.g[0] 29 3) c.packed
  | 3 =>
    let f := 8 * 32 * fieldW c.g[0] 0 12
    let at' := fun (x : Nat) => (fieldN x 29 3 + 1, fieldN x 0 29, fieldN x 0 29 + f)
    let x := at' c.a.toNat
    let y := at' c.b.toNat
    [srcClaim x.1 x.2.1 x.2.2, dstClaim y.1 y.2.1 y.2.2]
  | 9 =>
    let rows := fieldW c.g[0] 21 11
    [c.vaSrc c.a.toNat (rows * fieldW c.g[0] 0 12 * topkSize c), c.vaDst c.b.toNat (rows * 8 * fieldW c.g[0] 12 4)]
  | 11 =>
    let n := fieldW c.g[0] 0 16
    [c.vaSrc c.a.toNat (4 * n), c.vaSrc c.b.toNat (32 * fieldW c.g[0] 16 12 * n)]
  | 12 => [c.vaSrc c.a.toNat (8 * fieldW c.b 8 9)]
  | _ => []

/-- The command goes to the engine: its entries claimed, in the queue its suffix names, or among the unmatched EXCH commands; the
limits of R205 and R194 make it wait. A run-ahead helper drops every engine command. -/
def engIssue (i : Instr) (c : Cmd) (checks : Except Stop Unit) (s : State) : Out :=
  finish i s (if s.c.ra then .ok s else do
    checks
    if 16 ≤ s.coreCmds s.fnode s.fcore then .error (.wait .engineQueue s)
    else match s.pol.claim c c.claims with
      | none => .error (.wait .engineQueue s)
      | some q =>
        let e := q.engine
        let e := if c.cmd = 3 then { e with exch := e.exch ++ [c] }
          else if c.hi then { e with hiQ := e.hiQ ++ [c] } else { e with loQ := e.loQ ++ [c] }
        let s := { s.setPol { q with engine := e } with nextCmd := s.nextCmd + 1 }
        .ok (s.enq (if c.cmd = 3 then .exchangeForm else .engineCommandStart) { node := s.fnode, n := s.pIdx }))

/-! ## The issue checks and the instructions -/

/-- ECPY's checks (R209, R210). -/
def ecpyCheck (c : Cmd) : Except Stop Unit := do
  let g0 := c.g[0]
  let e : Nat := 2 ^ fieldW g0 4 4
  let own := c.id.polder
  engCheck (fieldW g0 19 13 != 0 || fieldW g0 16 3 == 7 || decide (4 < fieldW g0 12 4) || decide (3 < fieldW g0 8 4) || decide (3 < fieldW g0 4 4) ||
    decide (9 < fieldW g0 0 4)) 0
  match (List.range (fieldW g0 0 4 + 1)).find? (fun k => let x := (c.g.toList.getD (1 + k) 0).toNat; decide (x = 0 ∨ 2 ^ 32 ≤ x)) with
  | some k => engineFault (1 + k)
  | none => .ok ()
  let n : Nat := c.dims.foldl (fun (n : Nat) (d : Nat × Int × Int) => n * d.1) 1
  engCheck (decide (2 ^ 31 ≤ n * e) || c.a.toNat % e != 0 || c.b.toNat % e != 0 ||
    c.dims.any (fun d => d.2.1 % (e : Int) != 0 || d.2.2 % (e : Int) != 0)) 0
  engCheck (!operandOk own (fieldW g0 8 4) c.a false || !operandOk own (fieldW g0 12 4) c.b true) 0
  match c.ecpySrc, c.ecpyDst with
  | some x, some y => engCheck (rangesMeet (fieldW g0 8 4) x (fieldW g0 12 4) y) 0
  | _, _ => engineFault 0
  barCheck (fieldW g0 32 32)

/-- ECPY (R209 to R211). -/
def execEcpy (a b : Reg) (h : Bool) (s : State) : Out :=
  let c := s.mkCmd 0 h false (s.X a) (s.X b)
  engIssue (.ecpy a b h) c (ecpyCheck c) s

/-- The checks of EGTH and ESCT (R212). -/
def rowsCheck (c : Cmd) (a b : Reg) : Except Stop Unit := do
  let g0 := c.g[0]
  let own := c.id.polder
  let ds := fieldW g0 29 3
  let is := fieldW g0 26 3
  engCheck (decide ((if c.cmd = 1 then 4 else 3) < ds) || decide (3 < is) || fieldW g0 16 10 == 0 || fieldW g0 0 16 == 0) 0
  engCheck (fieldW c.g[1] 0 2 != 0 || !operandOk own 0 c.g[1] (c.cmd == 2)) 1
  engCheck (fieldW c.g[2] 0 2 != 0) 2
  engCheck (fieldW c.a 0 2 != 0) (0x100 + a.toNat)
  engCheck (fieldW c.b 0 2 != 0) (0x100 + b.toNat)
  engCheck (!operandOk own is c.a false || !operandOk own ds c.b (c.cmd == 1) || c.packed.isNone || c.indexes.isNone) 0
  barCheck (fieldW g0 32 32)

/-- EGTH (R212, R213). -/
def execEgth (a b : Reg) (h : Bool) (s : State) : Out :=
  let c := s.mkCmd 1 h false (s.X a) (s.X b)
  engIssue (.egth a b h) c (rowsCheck c a b) s
/-- ESCT (R212, R213). -/
def execEsct (a b : Reg) (h : Bool) (s : State) : Out :=
  let c := s.mkCmd 2 h false (s.X a) (s.X b)
  engIssue (.esct a b h) c (rowsCheck c a b) s

/-- EXCH's checks (R223). -/
def exchCheck (c : Cmd) (a b : Reg) : Except Stop Unit := do
  let g0 := c.g[0]
  let f := 8 * 32 * fieldW g0 0 12
  let ok := fun (x : Word) => fieldW x 32 32 == 0 && decide (fieldW x 29 3 ≤ 1) && (fieldW x 29 3 != 0 || fieldW x 25 4 == 0)
  let fits := fun (x : Word) => decide (fieldW x 0 29 + f ≤ spaceSize (fieldW x 29 3))
  engCheck (fieldW g0 27 5 != 0 || fieldW g0 12 12 != 0 || fieldW g0 0 12 == 0 || decide (2048 < fieldW g0 0 12)) 0
  engCheck (fieldW c.g[1] 8 56 != 0) 1
  engCheck (decide (256 < fieldW c.g[1] 0 8 + 8 * (fieldW g0 24 3 + 1))) 0
  engCheck (!ok c.a || fieldW c.a 0 5 != 0) (0x100 + a.toNat)
  engCheck (!ok c.b || fieldW c.b 0 5 != 0) (0x100 + b.toNat)
  engCheck (!fits c.a || !fits c.b || (fieldW c.a 29 3 == fieldW c.b 29 3 &&
    decide (fieldW c.a 0 29 < fieldW c.b 0 29 + f ∧ fieldW c.b 0 29 < fieldW c.a 0 29 + f))) 0
  barCheck (fieldW g0 32 32)

/-- EXCH (R223, R224): it waits for its partners in no run slot. -/
def execExch (a b : Reg) (h : Bool) (s : State) : Out :=
  let c := s.mkCmd 3 h false (s.X a) (s.X b)
  engIssue (.exch a b h) c (exchCheck c a b) s

/-- EPTAB's checks (R222). -/
def eptabCheck (c : Cmd) (a b : Reg) : Except Stop Unit := do
  engCheck (fieldW c.g[0] 0 32 != 0) 0
  engCheck (fieldW c.a 0 3 != 0 || !operandOk c.id.polder 0 c.a false) (0x100 + a.toNat)
  engCheck (fieldW c.b 17 47 != 0 || fieldW c.b 8 9 == 0 || decide (256 < fieldW c.b 8 9) || decide (256 < fieldW c.b 0 8 + fieldW c.b 8 9)) (0x100 + b.toNat)
  barCheck (fieldW c.g[0] 32 32)

/-- EPTAB (R222). -/
def execEptab (a b : Reg) (h : Bool) (s : State) : Out :=
  let c := s.mkCmd 12 h false (s.X a) (s.X b)
  engIssue (.eptab a b h) c (eptabCheck c a b) s

/-- ENMSC's checks (R75). The rule allows an aperture address in A-space and states no outcome for one in C- or M-space: it is read as the copy
engine reads it (log entry 42); a window, or a space that the engine does not read, faults at issue (R183, R184). -/
def enmscCheck (c : Cmd) (a b : Reg) : Except Stop Unit := do
  let g0 := c.g[0]
  engCheck (fieldW g0 31 1 != 0 || decide (4 < fieldW g0 28 3) || fieldW g0 16 12 == 0 || fieldW g0 0 16 == 0) 0
  engCheck (fieldW c.g[1] 0 5 != 0) 1
  let win := fun (x : Word) => badAperture x.toNat .engineRead
  engCheck (fieldW c.a 0 2 != 0 || win c.a) (0x100 + a.toNat)
  engCheck (fieldW c.b 0 5 != 0 || win c.b) (0x100 + b.toNat)
  barCheck (fieldW g0 32 32)

/-- ENMSC (R75 to R77). -/
def execEnmsc (a b : Reg) (h : Bool) (s : State) : Out :=
  let c := s.mkCmd 11 h false (s.X a) (s.X b)
  engIssue (.enmsc a b h) c (enmscCheck c a b) s

/-- ETOPK's checks (R78): K above LEN is a check of g0 too; a window faults at issue (R184). A misaligned xO, or one in C- or W-space, is ENGINE_FAULT at issue, though the rule
names no fault for it (log entry 42). -/
def etopkCheck (c : Cmd) (a b : Reg) : Except Stop Unit := do
  let g0 := c.g[0]
  let len := fieldW g0 0 12
  let k := fieldW g0 12 4
  let lt := fieldW g0 16 4
  engCheck (fieldW g0 21 11 == 0 || lt == 0 || decide (3 < lt) || k == 0 || decide (8 < k) || decide (len < k) || len == 0 || decide (1024 < len)) 0
  engCheck (badAperture c.a.toNat .engineRead) (0x100 + a.toNat)
  let x := c.b.toNat
  engCheck (x % 8 != 0 || (isAperture x && (laWindow (fieldN x 0 32) != 0 || (fieldN x 29 3 != 0 && fieldN x 29 3 != 2)))) (0x100 + b.toNat)
  barCheck (fieldW g0 32 32)

/-- ETOPK (R78 to R81). -/
def execEtopk (a b : Reg) (h : Bool) (s : State) : Out :=
  let c := s.mkCmd 9 h false (s.X a) (s.X b)
  engIssue (.etopk a b h) c (etopkCheck c a b) s

/-! ## Units of work -/

/-- The place of element L of an ECPY (R211). -/
def ecpyAt (dims : List (Nat × Int)) (b : Word) (l : Nat) : Word :=
  match dims with
  | [] => b
  | (e, st) :: r => ecpyAt r (b + BitVec.ofInt 64 (((l % e : Nat) : Int) * st)) (l / e)

/-- A unit's outcome: the state with the unit done and counted, and the command after it; `none` when it was the last. -/
abbrev UnitRes := Except Stop (State × Cmd × Bool)

/-- ECPY's next element: read, written, counted (R211). -/
def State.ecpyUnit (s : State) (c : Cmd) : UnitRes := do
  let g0 := c.g[0]
  let e := 2 ^ fieldW g0 4 4
  let n := c.dims.foldl (fun n d => n * d.1) 1
  let src := (ecpyAt (c.dims.map (fun d => (d.1, d.2.1))) c.a c.pos).toNat
  let dst := (ecpyAt (c.dims.map (fun d => (d.1, d.2.2))) c.b c.pos).toNat
  let (s, v) ← s.engRead c (fieldW g0 8 4) src e
  let s ← s.keeping c.req (s.engWrite c (fieldW g0 12 4) dst e v)
  let s := s.barPiece c.id.node c.id.polder c.bar e (if fieldW g0 12 4 = 0 then fieldW g0 16 3 else 2)
  .ok (s, { c with pos := c.pos + 1 }, decide (n ≤ c.pos + 1))

/-- The next row of EGTH or ESCT (R213). -/
def State.rowUnit (s : State) (c : Cmd) : UnitRes := do
  let g0 := c.g[0]
  let b := 4 * fieldW g0 16 10
  let ds := fieldW g0 29 3
  let (s, j) ← s.engRead c (fieldW g0 26 3) ((c.a + BitVec.ofNat 64 (4 * c.pos)).toNat) 4
  let row := (c.g[1] + BitVec.ofNat 64 j * c.g[2]).toNat
  let pk := (c.b + BitVec.ofNat 64 (b * c.pos)).toNat
  let (s, v) ← s.keeping c.req (if c.cmd = 1 then s.engRead c 0 row b else s.engRead c ds pk b)
  let s ← s.keeping c.req (if c.cmd = 1 then s.engWrite c ds pk b v else s.engWrite c 0 row b v)
  let s := s.barPiece c.id.node c.id.polder c.bar b (if c.cmd = 2 ∨ ds = 0 then 6 else 2)
  .ok (s, { c with pos := c.pos + 1 }, decide (fieldW g0 0 16 ≤ c.pos + 1))

/-- The reserved bits of a schedule entry (R221). -/
def schedBad (w : Nat) : Bool := fieldN w 35 28 != 0 || fieldN w 19 13 != 0 || fieldN w 3 13 != 0

/-- EPTAB (R222): every entry read before any is written; it waits while a running exchange reads an entry. Its piece counts at scope 2, and an entry
with a nonzero field named zero stops it with FVA its list's base X(rs1) (DESIGN CHOICE, log entry 49). -/
def State.eptabUnit (s : State) (c : Cmd) : UnitRes := do
  let first := fieldW c.b 0 8
  let n := fieldW c.b 8 9
  let q := s.polder c.id.node c.id.polder
  let busy := match q.engine.exRun with
    | some x => x.cmds.any (fun e => decide (first < fieldW e.g[1] 0 8 + 8 * (fieldW e.g[0] 24 3 + 1) ∧ fieldW e.g[1] 0 8 < first + n))
    | none => false
  if busy then .error (.wait .resource s)
  else
    let (s, v) ← s.engRead c 0 c.a.toNat (8 * n)
    let l := elems v 64 n
    if l.any schedBad then raise .engineFault c.a
    else
      let q := s.polder c.id.node c.id.polder
      let tab := ((List.range n).zip l).foldl (fun t e => tset t (first + e.1) (BitVec.ofNat 64 e.2)) q.engine.sched
      let s := s.setPolder c.id.node c.id.polder { q with engine := { q.engine with sched := tab } }
      .ok (s.barPiece c.id.node c.id.polder c.bar (8 * n) 2, { c with pos := 1 }, true)

/-- The next piece of an ENMSC (R76): its row's index is read once; issued as a near-memory operation; BAR falls when it is acknowledged. -/
def State.enmscUnit (s : State) (c : Cmd) : UnitRes := do
  let g0 := c.g[0]
  let row := fieldW g0 16 12
  let n := fieldW g0 0 16
  let q := c.req
  let i := c.pos / row
  let k := c.pos % row
  let (s, j) ← match c.ix with
    | some (i', j) => if i' = i then .ok (s, j) else s.engRead c 0 (c.a + BitVec.ofNat 64 (4 * i)).toNat 4
    | none => s.engRead c 0 (c.a + BitVec.ofNat 64 (4 * i)).toNat 4
  let (s, v) ← s.keeping q (s.engRead c 0 (c.b + BitVec.ofNat 64 (32 * row * i + 32 * k)).toNat 32)
  let va := c.g[1] + BitVec.ofNat 64 (32 * row * j + 32 * k)
  let (s, x) ← s.keeping q (s.nmPlace q va.toNat 32)
  if (s.polder c.id.node c.id.polder).rl.any (fun e => e.cmd != c.no && e.hits 0 c.asid va.toNat 32) then
    raiseAcc .rangeLockHit va 1
  else
    let s := s.nmSend ⟨c.id, c.cgen, va, x.pa, c.asid, c.ptroot, x.gen, fieldW g0 28 3, true, BitVec.ofNat 256 v, .sent, none, some (c.no, i, k, j), false⟩
    .ok (s, { c with pos := c.pos + 1, open_ := c.open_ + 1, ix := some (i, j) }, c.single || decide (n * row ≤ c.pos + 1))

/-- The order of ETOPK's entries (R79): by value descending, then by index; NaNs last. -/
def topkBefore (a b : Nat × FVal) : Bool :=
  if a.2.isNan then b.2.isNan && decide (a.1 < b.1)
  else if b.2.isNan then true
  else fvLt b.2 a.2 || (fvEq a.2 b.2 && decide (a.1 < b.1))

/-- Insertion in that order. -/
def topkInsert (a : Nat × FVal) : List (Nat × FVal) → List (Nat × FVal)
  | [] => [a]
  | b :: r => if topkBefore b a then b :: topkInsert a r else a :: b :: r

/-- An FP32 code by RNE, no flags. -/
def rne32 (v : FVal) : Nat := (ETy.round .fp32 Rnd.default v).1

/-- The weights of R80 for the selected values: a NaN takes 0, and is no value of the cases; where the others are all −inf each of them takes
RNE(1/K), K counting every entry. -/
def topkWeights (l : List FVal) : List Nat :=
  let plus := fun (v : FVal) => v == FVal.inf false
  let nums := l.filter (fun v => !v.isNan)
  let npos := (l.filter plus).length
  if npos ≠ 0 then l.map (fun v => if plus v then rne32 (.fin false 1 npos false) else 0)
  else if nums.all (fun v => v == FVal.inf true) then
    l.map (fun v => if v.isNan then 0 else rne32 (.fin false 1 l.length false))
  else
    let v0 := l.headD (.fin false 0 1 false)
    let e := l.map (fun v => match v, v0 with
      | .fin s n d _, .fin s0 n0 d0 _ =>
        match finAdd false s n d (!s0) n0 d0 with
        | .fin _ m k _ => rne32 (fvExpNeg m k)
        | _ => 0
      | _, _ => 0)
    let sum := e.foldl (fun a x => nmFadd a x) 0
    e.map (fun x => (fpDiv .fp32 Rnd.default x sum).1)

/-- A row of ETOPK: its output as a number of 8 × K bytes (R79, R80). -/
def topkRow (t : ETy) (k : Nat) (smax : Bool) (codes : List Nat) : Nat :=
  let vals := ((List.range codes.length).zip codes).map (fun (e : Nat × Nat) => (e.1, t.decode e.2))
  let sel := (vals.foldr topkInsert []).take k
  let ws := if smax then topkWeights (sel.map (·.2)) else sel.map (fun e => rne32 e.2)
  packEls 64 ((sel.zip ws).map (fun e => e.1.1 * 2 ^ 32 + e.2))

/-- The next row of an ETOPK (R78 to R81). Logits that do not lie in the package's own HBM stop the command at their row with ENGINE_FAULT and FVA
the row's VA: the rule does not say when the fault is raised (log entry 42). -/
def State.etopkUnit (s : State) (c : Cmd) : UnitRes := do
  let g0 := c.g[0]
  let len := fieldW g0 0 12
  let k := fieldW g0 12 4
  let sz := topkSize c
  let va := (c.a + BitVec.ofNat 64 (c.pos * len * sz)).toNat
  if isAperture va then raise .engineFault (BitVec.ofNat 64 va)
  else
    let foreign := fun (s : State) (a : Nat) => match s.findLeaf c.req a accRead with
      | .ok (_, w) => paClass (pteFrame w.entry) != 0 || paNode (pteFrame w.entry) != c.id.node
      | .error _ => false
    if foreign s va || foreign s (va + len * sz - 1) then raise .engineFault (BitVec.ofNat 64 va)
    else
      let (s, v) ← s.engRead c 0 va (len * sz)
      let t := (ETy.ofCode (fieldW g0 16 4)).getD .fp32
      let out := topkRow t k (fieldW g0 20 1 == 1) (elems v (8 * sz) len)
      let dst := (c.b + BitVec.ofNat 64 (8 * k * c.pos)).toNat
      let s ← s.keeping c.req (s.engWrite c 0 dst (8 * k) out)
      let own := isAperture dst && aperturePolder dst c.id.polder == c.id.polder
      let s := s.barPiece c.id.node c.id.polder c.bar (8 * k) (if own then 2 else 6)
      .ok (s, { c with pos := c.pos + 1 }, decide (fieldW g0 21 11 ≤ c.pos + 1))

/-- A line or word at a peer's home, read coherently; in a scratchpad at its port; a pool address only of the own package (R83). -/
def State.peerRead (s : State) (c : Cmd) (pa n : Nat) : Except Stop (State × Nat) :=
  if paClass pa = 3 then raise .engineFault (BitVec.ofNat 64 pa) else s.engReadAt c.req pa pa n .engineRead

/-- The next line of a replica's weight copy, from the owner's HBM into the polder's terp, or of a join copy, from the polder's C-space to
its join slot (R404, R405): `a` and `b` are the source's and destination's first bytes, `rows` the number of lines. -/
def State.replicaUnit (s : State) (c : Cmd) : UnitRes := do
  if c.rows ≤ c.pos then .ok (s, c, true)
  else
    let o := 64 * c.pos
    let next : Cmd := { c with pos := c.pos + 1 }
    if c.hw = 1 then
      let (s, v) ← s.peerRead c (c.a.toNat + o) 64
      let s ← s.engWrite c 4 (c.b.toNat + o) 64 v
      .ok (s.barPiece c.id.node c.id.polder c.bar 64 2, next, decide (c.rows ≤ c.pos + 1))
    else
      let v ← s.engPort c (c.a.toNat + o) 64
      let pa := c.b.toNat + o
      s.hbmCheck c.req pa pa 1
      let s := (s.recall pa none).hbmWrite pa 64 v
      .ok (s.barPiece c.g[12].toNat c.g[13].toNat c.bar 64 6, next, decide (c.rows ≤ c.pos + 1))

/-- The next unit of a running command. -/
def State.engUnit (s : State) (c : Cmd) : UnitRes :=
  if c.hw ≠ 0 then s.replicaUnit c else
  match c.cmd with
  | 0 => s.ecpyUnit c
  | 9 => s.etopkUnit c
  | 11 => s.enmscUnit c
  | 12 => s.eptabUnit c
  | _ => s.rowUnit c

/-! ## The footprint of a command (R102, R208) -/

/-- The number of a command's units. -/
def Cmd.units (c : Cmd) : Nat :=
  match c.cmd with
  | 0 => c.dims.foldl (fun n d => n * d.1) 1
  | 1 => fieldW c.g[0] 0 16
  | 2 => fieldW c.g[0] 0 16
  | 9 => fieldW c.g[0] 21 11
  | 11 => if c.single then c.pos + 1 else fieldW c.g[0] 0 16 * fieldW c.g[0] 16 12
  | 12 => 1
  | _ => 0

/-- The VA ranges that unit `i` of a command accesses. A row chosen by an index counts as the index list chooses it now. -/
def State.unitVas (s : State) (c : Cmd) (i : Nat) : List (Nat × Nat) :=
  let g0 := c.g[0]
  let vas := fun (code : Nat) (va : Word) (n : Nat) => if code = 0 then [(va.toNat, n)] else []
  let index := fun (code : Nat) (va : Word) (f : Nat → Word) (n : Nat) =>
    match s.engRead c code va.toNat 4 with | .ok (_, j) => [((f j).toNat, n)] | .error _ => []
  match c.cmd with
  | 0 =>
    let e := 2 ^ fieldW g0 4 4
    vas (fieldW g0 8 4) (ecpyAt (c.dims.map (fun d => (d.1, d.2.1))) c.a i) e ++
      vas (fieldW g0 12 4) (ecpyAt (c.dims.map (fun d => (d.1, d.2.2))) c.b i) e
  | 9 =>
    let n := fieldW g0 0 12 * topkSize c
    let k := 8 * fieldW g0 12 4
    [((c.a + BitVec.ofNat 64 (i * n)).toNat, n), ((c.b + BitVec.ofNat 64 (k * i)).toNat, k)]
  | 11 =>
    let row := fieldW g0 16 12
    let at' := c.a + BitVec.ofNat 64 (4 * (i / row))
    [(at'.toNat, 4), ((c.b + BitVec.ofNat 64 (32 * i)).toNat, 32)] ++
      index 0 at' (fun j => c.g[1] + BitVec.ofNat 64 (32 * row * j + 32 * (i % row))) 32
  | 12 => [(c.a.toNat, 8 * fieldW c.b 8 9)]
  | _ =>
    let b := 4 * fieldW g0 16 10
    let at' := c.a + BitVec.ofNat 64 (4 * i)
    vas (fieldW g0 26 3) at' 4 ++ vas (fieldW g0 29 3) (c.b + BitVec.ofNat 64 (b * i)) b ++
      index (fieldW g0 26 3) at' (fun j => c.g[1] + BitVec.ofNat 64 j * c.g[2]) b

/-- A unit that the command has still to do touches `n` bytes at a VA. -/
def State.touches (s : State) (c : Cmd) (va n : Nat) : Bool :=
  c.hw == 0 && (List.range (c.units - c.pos)).any (fun j => (s.unitVas c (c.pos + j)).any (fun e =>
    decide (fieldN e.1 0 56 < va + n ∧ va < fieldN e.1 0 56 + e.2)))

/-! ## Running, stopping, resuming (R206, R226, R227) -/

/-- Replaces a polder's engine. -/
def State.setEngine (s : State) (node p : Nat) (e : Engine) : State := s.setPolder node p { s.polder node p with engine := e }

/-- The first unmatched EXCH of each core, in core order. -/
def Engine.heads (e : Engine) : List Cmd :=
  (List.range 8).filterMap (fun k => e.exch.find? (fun c => c.id.core % 8 == k))

/-- FRAG bytes of an EXCH. -/
def Cmd.frag (c : Cmd) : Nat := 32 * fieldW c.g[0] 0 12
/-- Its number of rounds. -/
def Cmd.rounds (c : Cmd) : Nat := fieldW c.g[0] 24 3 + 1
/-- Its first schedule entry. -/
def Cmd.sched0 (c : Cmd) : Nat := fieldW c.g[1] 0 8

/-- An EPTAB that issued before the last EXCH of a set has entries in the set's range to write, be it queued, running or stopped (R222). -/
def Engine.tabPending (e : Engine) (l : List Cmd) : Bool :=
  let last := l.foldl (fun n c => max n c.no) 0
  (e.hiQ ++ e.loQ ++ e.run ++ (e.recs.map (·.2) ++ e.stopped).map (·.cmd)).any (fun c => c.cmd == 12 && decide (c.no < last) &&
    l.any (fun d => decide (fieldW c.b 0 8 < d.sched0 + 8 * d.rounds ∧ d.sched0 < fieldW c.b 0 8 + fieldW c.b 8 9)))

/-- The oldest set that has been formed may start: no exchange runs, and no EPTAB is in its way (R222, R224). -/
def Engine.nextSet (e : Engine) : Option (List Cmd) :=
  match e.sets with
  | l :: _ => if e.exRun.isNone && !e.tabPending l then some l else none
  | [] => none

/-- A set that may start has a `.hi` command among its eight: it starts before the heads of both queues; another one only before the low queue's. -/
def Engine.exchFirst (e : Engine) : Bool :=
  match e.nextSet with
  | some l => l.any (fun c => c.hi) || e.hiQ.isEmpty
  | none => false

/-- The head of the high queue, else of the low queue, starts in a free run slot, and the next one after it while there are both (R206). The eight
commands of an exchange take all eight slots: none starts while one runs, or while one whose turn it is waits for them (log entry 46). -/
def State.engStart (s : State) (node p : Nat) : State :=
  let e := (s.polder node p).engine
  if 8 ≤ e.run.length ∨ e.exRun.isSome ∨ e.exchFirst then s
  else
    let go := fun (e : Engine) (c : Cmd) =>
      let s := (s.setEngine node p { e with run := e.run ++ [{ c with started := true }] }).enq .enginePiece { node := node, n := p, m := c.no }
      if e.run.length < 7 ∧ (!e.hiQ.isEmpty || !e.loQ.isEmpty) = true then s.enqOnce .engineCommandStart { node := node, n := p } else s
    match e.hiQ, e.loQ with
    | c :: r, _ => go { e with hiQ := r } c
    | [], c :: r => go { e with loQ := r } c
    | [], [] => s

/-- A command leaves its run slot, and the next one may start. -/
def State.engLeave (s : State) (node p no : Nat) : State :=
  let e := (s.polder node p).engine
  (s.setEngine node p { e with run := e.run.filter (fun c => c.no != no) }).enq .engineCommandStart { node := node, n := p }

/-- A command that has done its last unit, and whose pieces are all acknowledged, completes: its table entries go (R194). The slot
manager learns of the end of its own copies (R404, R405). -/
def State.engComplete (s : State) (node p : Nat) (c : Cmd) : State :=
  let s := s.engLeave node p c.no
  let e : Ev := { node := node, n := p, m := c.g[14].toNat }
  let s := if c.hw = 1 then s.enq .rbarFlip e else if c.hw = 2 then s.enq .joinCopy { e with flag := true } else s
  s.freeCmd node p c.no

/-- The command in the run slots, with its progress replaced. -/
def State.engPut (s : State) (node p : Nat) (c : Cmd) : State :=
  let e := (s.polder node p).engine
  s.setEngine node p { e with run := e.run.map (fun x => if x.no = c.no then c else x) }

/-- The running command of a number. -/
def Engine.running (e : Engine) (no : Nat) : Option Cmd := e.run.find? (fun c => c.no == no)

/-- An ENMSC has issued its last piece. -/
def Cmd.allIssued (c : Cmd) : Bool :=
  if c.single then decide (c.sub = 1) else decide (fieldW c.g[0] 0 16 * fieldW c.g[0] 16 12 ≤ c.pos)

/-- A command's accesses went on: no wait of it is late (R106), and its next unit's attempts begin afresh (R66, R116). -/
def State.onTime (s : State) (no : Nat) : State := { s with late := s.late.filter (fun n => n != no), tries := tdel s.tries no }

/-- A command's unit waits: what its attempt has done at slices and homes stays, its place in a queue too (R66, R109), and the next attempt makes its
requests again (R116). -/
def State.unitWaits (s : State) (no : Nat) : State :=
  match tfind s.tries no with
  | some y => { s with tries := tset s.tries no { y with surveyed := retrySurvey y.surveyed } }
  | none => s

/-- Why an engine's unit faults, and what its attempt leaves at slices and homes. -/
def unitFault {α : Type} (s : State) (r : Except Stop α) : Option (TrapInfo × State) :=
  match r with
  | .error (.trap t) => some (t, s)
  | .error (.trapKeep t s) => some (t, s)
  | _ => none

/-- The state that a waiting attempt leaves. -/
def State.waited {α : Type} (s : State) (r : Except Stop α) (no : Nat) : State :=
  match r with
  | .error (.wait _ s') => s'.unitWaits no
  | _ => s

/-- ENGINE_PIECE: the next unit of the command is done and counted. A unit that cannot be done yet is tried again; one that faults
leaves the command to ENGINE_COMMAND_STOP. -/
def State.engPiece (s : State) (node p no : Nat) : State :=
  let ev : Ev := { node := node, n := p, m := no }
  match (s.polder node p).engine.running no with
  | none => s
  | some c =>
    if c.cmd = 11 ∧ c.allIssued then s
    else match s.engUnit c with
    | .error (.wait _ s') => (s'.unitWaits no).enq .enginePiece ev
    | .error _ => s.enq .engineCommandStop ev
    | .ok (s', c', last) =>
      let s' := (s'.onTime no).pinsDone no (s'.touches c')
      if last then
        if c'.cmd = 11 then s'.engPut node p { c' with sub := 1 }
        else s'.engComplete node p c'
      else (s'.engPut node p c').enq .enginePiece ev

/-- The resume point as R225 codes it. -/
def Cmd.respt (c : Cmd) : Nat :=
  if c.cmd = 11 then
    let row := fieldW c.g[0] 16 12
    c.pos / row * 2 ^ 32 + c.pos % row
  else c.pos

/-- ENGINE_COMMAND_STOP: the command's next unit faults, and it stops there (R226), once the pieces that it has issued before are acknowledged
(R77). An engine access is no store to a first-failure record (R84). -/
def State.engStop (s : State) (node p no : Nat) : State :=
  match (s.polder node p).engine.running no with
  | none => s
  | some c =>
    match unitFault s (s.engUnit c) with
    | some (t, s') =>
      if c.open_ ≠ 0 then s.enq .engineCommandStop { node := node, n := p, m := no }
      else ((s'.noteFail t).engLeave node p no).stopCmd node p c t.cause t.place c.respt false
    | none => s.enq .enginePiece { node := node, n := p, m := no }

/-- An acknowledged piece of an ENMSC (R76, R77): BAR falls by 32, or, with an error, FAULT is set and a record of its own filled, whose command
re-issues that piece alone under a number of its own. -/
def State.enmscAck (s : State) (o : NmOp) (no i k j : Nat) : State :=
  let node := o.id.node
  let p := o.id.polder
  match (s.polder node p).engine.running no with
  | none => s
  | some c =>
    let c := { c with open_ := c.open_ - 1 }
    let s := s.engPut node p c
    let s := match o.err with
      | none => s.barPiece node p c.bar 32 6
      | some e =>
        let s := { s.barFault node p c.bar with nextCmd := s.nextCmd + 1 }
        let q := s.polder node p
        let one := { c with no := s.nextCmd - 1, single := true, pos := i * fieldW c.g[0] 16 12 + k, sub := 0, open_ := 0, ix := some (i, j) }
        s.setEngine node p (q.engine.fileRec ⟨e.code, o.va, i * 2 ^ 32 + k, one, false⟩)
    if c.open_ = 0 ∧ c.allIssued then s.engComplete node p c else s

/-- A command among others in issue order. -/
def insertCmd (c : Cmd) : List Cmd → List Cmd
  | [] => [c]
  | d :: r => if c.no < d.no then c :: d :: r else d :: insertCmd c r

/-- A stopped copy-engine command restarts from its resume point with its snapshot (R227): it claims its entries afresh, waits, stopped, until
there is room, and keeps its place in the order of issue. -/
def State.engResume (s : State) (node p k : Nat) (r : FaultRec) : State :=
  let c := { r.cmd with started := false }
  match (s.polder node p).claim c c.claims with
  | none => s.enq .resumeCommand { node := node, n := p, m := k }
  | some q =>
    let e := q.engine.freeRec k
    let e := if c.cmd = 3 then { e with exch := insertCmd c e.exch }
      else if c.hi then { e with hiQ := insertCmd c e.hiQ } else { e with loQ := insertCmd c e.loQ }
    (s.setPolder node p { q with engine := e }).enq (if c.cmd = 3 then .exchangeForm else .engineCommandStart) { node := node, n := p }

/-! ## Exchanges (R224) -/

/-- The schedule entry of round `r`, core `k` (R221). -/
def Engine.entry (e : Engine) (c : Cmd) (r k : Nat) : Nat := (tget (0 : Word) e.sched (c.sched0 + 8 * r + k)).toNat

/-- Two panels of local addresses overlap. -/
def panelsMeet (x y : Word) (n : Nat) : Bool :=
  fieldW x 29 3 == fieldW y 29 3 && decide (fieldW x 0 29 < fieldW y 0 29 + n ∧ fieldW y 0 29 < fieldW x 0 29 + n)

/-- A list without repeats. -/
def noRepeats : List Nat → Bool
  | [] => true
  | a :: r => !r.contains a && noRepeats r

/-- The checks on a set of eight (R224). -/
def Engine.exchOk (e : Engine) (l : List Cmd) : Bool :=
  match l with
  | [] => false
  | c :: _ =>
    let valid := fun (r : Nat) => ((List.range 8).map (fun k => e.entry c r k)).filter (fun w => fieldN w 63 1 == 1)
    let rs := List.range c.rounds
    l.all (fun d => d.rounds == c.rounds && d.frag == c.frag && d.sched0 == c.sched0) &&
      l.all (fun d => l.all (fun f => !panelsMeet d.b f.a (8 * c.frag))) &&
      rs.all (fun r => noRepeats ((valid r).map (fun w => fieldN w 32 3))) &&
      noRepeats (rs.flatMap (fun r => (valid r).map (fun w => fieldN w 32 3 * 8 + fieldN w 16 3)))

/-- Every command of a list stops with a cause (R224, R226). Where no access has failed, FVA is 0 (DESIGN CHOICE, log entry 49). -/
def State.stopAll (s : State) (node p : Nat) (l : List Cmd) (cause : Cause) (fva : Word) : State :=
  l.foldl (fun s c => s.stopCmd node p c cause fva 0 false) s

/-- Every core has an unmatched EXCH at its head: the eight are matched, and stand among the sets that have been formed (R224). -/
def Engine.match8 (e : Engine) : Engine :=
  let l := e.heads
  if l.length ≠ 8 then e else { e with exch := e.exch.filter (fun c => !l.any (fun d => d.no == c.no)), sets := e.sets ++ [l] }

/-- EXCHANGE_FORM: the heads of all eight cores form a set; once the run slots are free and it is its turn, the oldest set is checked, and starts or
stops (R224, R206). A failed check has no access to name: FVA is 0 (DESIGN CHOICE, log entry 49). -/
def State.exchForm (s : State) (node p : Nat) : State :=
  let ev : Ev := { node := node, n := p }
  let e := (s.polder node p).engine.match8
  let s := s.setEngine node p e
  match e.sets with
  | [] => s
  | l :: rest =>
    if e.exRun.isSome then s
    else if !e.exchFirst || !e.run.isEmpty then s.enqOnce .exchangeForm ev
    else if e.exchOk l then (s.setEngine node p { e with sets := rest, exRun := some ⟨l, 0, [], []⟩ }).enq .exchangeRound ev
    else (((s.setEngine node p { e with sets := rest }).stopAll node p l .engineFault 0).enq .engineCommandStart ev).enq .exchangeForm ev

/-- An exchange has ended: the run slots are free, and the next set may form. -/
def State.exchOver (s : State) (node p : Nat) : State :=
  ((s.setEngine node p { (s.polder node p).engine with exRun := none }).enq .engineCommandStart { node := node, n := p }).enq .exchangeForm
    { node := node, n := p }

/-- One fragment: read, written, and counted on the target's barrier unless an earlier run of the exchange counted it. It waits for an array command that
issued before the target's EXCH and has locked the range (R315). -/
def State.exchFrag (s : State) (node p : Nat) (l : List Cmd) (c : Cmd) (r w : Nat) : Except Stop State := do
  match l.find? (fun d => d.id.core % 8 == fieldN w 32 3) with
  | none => .ok s
  | some t =>
    let v ← s.engPort c (c.a.toNat + fieldN w 0 3 * c.frag) c.frag
    let s ← s.engWrite t (fieldW t.b 29 3 + 1) (t.b.toNat + fieldN w 16 3 * c.frag) c.frag v
    .ok (if r < t.counted then s else s.barPiece node p t.bar c.frag 2)

/-- EXCHANGE_ROUND: every valid entry of the round lands; after the last round all eight commands complete. A fault stops all eight. -/
def State.exchRound (s : State) (node p : Nat) : State :=
  let e := (s.polder node p).engine
  match e.exRun with
  | none => s
  | some x =>
    let r := x.round
    let moves := x.cmds.filterMap (fun c =>
      let w := e.entry c r (c.id.core % 8)
      if fieldN w 63 1 = 1 then some (c, w) else none)
    match moves.foldlM (fun s (m : Cmd × Nat) => s.exchFrag node p x.cmds m.1 r m.2) s with
    | .error (.trap t) =>
      (s.exchOver node p).stopAll node p (x.cmds.map (fun c => { c with counted := max c.counted r })) t.cause t.place
    | .error _ => s.enq .exchangeRound { node := node, n := p }
    | .ok s =>
      let e := (s.polder node p).engine
      let rounds := match x.cmds with | c :: _ => c.rounds | [] => 0
      if rounds ≤ r + 1 then
        x.cmds.foldl (fun s c => s.freeCmd node p c.no) (s.exchOver node p)
      else (s.setEngine node p { e with exRun := some { x with round := r + 1 } }).enq .exchangeRound { node := node, n := p }

/-- EXCH_TIMEOUT: an EXCH unmatched for 2^24 cycles stops, and so does every EXCH waiting with it (R224). -/
def State.exchTimeout (s : State) (node p : Nat) : State :=
  let e := (s.polder node p).engine
  if e.heads.length = 8 then s
  else (s.setEngine node p { e with exch := [] }).stopAll node p e.exch .engineFault 0

end Sys2Proof.Machine
end

