-- ==== Sys2Proof/Machine/Array.lean ====
section
/-! DEFINITION. The matrix array (R300 to R326): leases and their arbitration, EMMA, EMMZ and EMMD at issue and while they run,
hand-over, stops and resumption. -/

namespace Sys2Proof.Machine
open Sys2Proof

/-- Replaces a polder's array. -/
def State.setArray (s : State) (node p : Nat) (a : ArraySt) : State := s.setPolder node p { s.polder node p with array := a }

/-! ## Fields of an array command (R313, R322) -/

/-- The element type coded at bit `lo` of g0 or g8. -/
def Cmd.typAt (c : Cmd) (g : Fin 32) (lo : Nat) : ETy := (ETy.ofCode (fieldW c.g[g] lo 4)).getD .fp32
/-- ATYPE. -/
def Cmd.aTy (c : Cmd) : ETy := c.typAt 0 8
/-- BTYPE. -/
def Cmd.bTy (c : Cmd) : ETy := c.typAt 0 12
/-- C32 mode. -/
def Cmd.cplx (c : Cmd) : Bool := c.aTy == .c32
/-- e_A. -/
def Cmd.eA (c : Cmd) : Nat := c.aTy.width / 8
/-- e_B: 4 in C32. -/
def Cmd.eB (c : Cmd) : Nat := if c.cplx then 4 else c.bTy.width / 8
/-- g, the elements of a K-group (R316). -/
def Cmd.grp (c : Cmd) : Nat := match c.aTy.width with | 8 => 4 | 16 => 2 | _ => 1
/-- K. -/
def Cmd.kLen (c : Cmd) : Nat := fieldW c.g[2] 0 20
/-- The K-groups. -/
def Cmd.groups (c : Cmd) : Nat := (c.kLen + c.grp - 1) / c.grp
/-- COLS. -/
def Cmd.cols (c : Cmd) : Nat := fieldW c.g[7] 0 8
/-- RAG. -/
def Cmd.rag (c : Cmd) : Bool := fieldW c.g[0] 19 1 == 1
/-- AGLB. -/
def Cmd.aglb (c : Cmd) : Bool := fieldW c.g[0] 18 1 == 1
/-- CAP. -/
def Cmd.cap (c : Cmd) : Nat := fieldW c.g[3] 32 8
/-- M, or CAP when ragged. -/
def Cmd.emRows (c : Cmd) : Nat := if c.rag then c.cap else fieldW c.g[0] 0 8 + 1
/-- The bank the command acts on. -/
def Cmd.bankNo (c : Cmd) : Nat :=
  match c.cmd with | 4 => fieldW c.g[0] 17 1 | 5 => fieldW c.a 0 1 | _ => fieldW c.g[8] 0 1
/-- The logical columns of the terp that an EMMA reads (R311). -/
def Cmd.terpCols (c : Cmd) : Nat := if c.cplx then 2 * c.cols else c.cols
/-- OTYPE. -/
def Cmd.oTy (c : Cmd) : ETy := c.typAt 8 4
/-- e_O. -/
def Cmd.eO (c : Cmd) : Nat := c.oTy.width / 8
/-- ADD. -/
def Cmd.add (c : Cmd) : Bool := fieldW c.g[8] 1 1 == 1
/-- The bytes a row lowers BAR by (R318, R324). -/
def Cmd.rowBytes (c : Cmd) : Nat := if c.cmd = 4 then c.cols * (if c.cplx then 16 else 4) else c.cols * c.eO

/-- The A range of `n` rows (R314, R315). -/
def Cmd.aRange (c : Cmd) (n : Nat) : Int × Int :=
  let d : Int := ((n : Int) - 1) * c.g[1].toInt
  ((c.a.toNat : Int) + min 0 d, (c.a.toNat : Int) + max 0 d + (c.kLen * c.eA : Nat))

/-- The B range in W-space: from column 0's first byte to the last column's last byte. -/
def Cmd.bRange (c : Cmd) : Nat × Nat := (c.b.toNat, (c.terpCols - 1) * 2 ^ 19 + c.b.toNat + c.kLen * c.eB)

/-- The claims of an array command (R194, R315): a ragged EMMA's A range is empty until rows join. -/
def Cmd.arrClaims (c : Cmd) : List Claim :=
  match c.cmd with
  | 4 =>
    let r := c.aRange c.emRows
    let lo := r.1.toNat
    [srcClaim 4 c.bRange.1 c.bRange.2, srcClaim (if c.aglb then 0 else 1) lo (if c.rag then lo else r.2.toNat)]
  | 6 => [dstClaim 2 (fieldW c.a 0 29) (fieldW c.a 0 29 + c.b.toNat * c.cols * c.eO)]
  | _ => []

/-! ## Issue checks (R313, R314, R321 to R323) -/

/-- The zero field of g6 (R313). -/
def bar6Zero (c : Cmd) : Except Stop Unit := engCheck (fieldW c.g[6] 32 32 != 0) 6
/-- The barrier address in g6 (R313). -/
def bar6Check (c : Cmd) : Except Stop Unit := barCheck (fieldW c.g[6] 0 32)

/-- A counter's address: 4-byte aligned, in M-space (R314). -/
def counterOk (w : Nat) : Bool := fieldN w 29 3 == 2 && w % 4 == 0 && decide (fieldN w 0 29 + 4 ≤ 4 * 2 ^ 20)

/-- The pairs of types (R314). -/
def emmaTypes (c : Cmd) : Bool :=
  let eight := fun (t : ETy) => t == .e4m3 || t == .e5m2 || t == .dm8
  let half := fun (t : ETy) => t == .bf16 || t == .fp16
  let ok := (ETy.ofCode (fieldW c.g[0] 8 4)).isSome && (ETy.ofCode (fieldW c.g[0] 12 4)).isSome
  ok && ((eight c.aTy && eight c.bTy) || (half c.aTy && half c.bTy) || (c.aTy == .fp32 && c.bTy == .fp32) ||
    (c.aTy == .c32 && c.bTy == .c32))

/-- EMMA's checks (R313, R314). -/
def emmaCheck (c : Cmd) (a b : Reg) : Except Stop Unit := do
  let g0 := c.g[0]
  let lim : Nat := if c.cplx then 64 else 128
  engCheck (fieldW g0 20 44 != 0 || !emmaTypes c || (c.rag && (c.aglb || fieldW g0 0 8 != 0)) || decide (lim < c.emRows ∧ !c.rag)) 0
  engCheck (c.cplx && (decide (64 < c.cols) || (c.rag && decide (64 < c.cap)))) 0
  engCheck (fieldW c.g[2] 20 44 != 0 || c.kLen == 0) 2
  engCheck (c.rag && (fieldW c.g[3] 40 24 != 0 || c.cap == 0 || decide (128 < c.cap) || !counterOk (fieldW c.g[3] 0 32))) 3
  engCheck (c.trig && (fieldW c.g[4] 32 32 != 0 || !counterOk (fieldW c.g[4] 0 32))) 4
  engCheck (c.trig && fieldW c.g[5] 32 32 != 0) 5
  bar6Zero c
  engCheck (fieldW c.g[7] 8 56 != 0 || c.cols == 0 || decide (128 < c.cols)) 7
  engCheck (fieldW c.b 19 45 != 0 || fieldW c.b 0 2 != 0) (0x100 + b.toNat)
  engCheck (decide (2 ^ 19 < c.b.toNat + c.kLen * c.eB) || c.a.toNat % c.eA != 0 || c.g[1].toNat % c.eA != 0) 0
  -- of the scratchpads the array reads A-space alone for its A input (R183)
  engCheck (!operandOk c.id.polder (if c.aglb then 0 else 1) c.a false || badAperture c.a.toNat .arrayRead) (0x100 + a.toNat)
  let r := c.aRange c.emRows
  engCheck (!c.aglb && decide (r.1 < 0 ∨ (spaceSize 0 : Int) < r.2)) 0
  bar6Check c

/-- EMMD's checks (R322, R323). -/
def emmdCheck (c : Cmd) (a b : Reg) : Except Stop Unit := do
  let g8 := c.g[8]
  let rows := c.b.toNat
  let scl := fieldW g8 32 32
  bar6Zero c
  engCheck (fieldW c.g[7] 8 56 != 0 || c.cols == 0 || decide (128 < c.cols)) 7
  engCheck (fieldW g8 8 24 != 0 || fieldW g8 2 2 != 0 || fieldW g8 4 4 == 0 || decide (7 < fieldW g8 4 4)) 8
  engCheck (c.oTy == .c32 && decide (64 < c.cols)) 7
  engCheck (c.oTy == .c32 && decide (64 < rows)) 8
  engCheck (rows == 0 || decide (128 < rows)) (0x100 + b.toNat)
  engCheck (!operandOk c.id.polder 2 c.a true || fieldW c.a 25 4 != 0) (0x100 + a.toNat)
  engCheck (c.a.toNat % c.eO != 0) 8
  engCheck (decide (spaceSize 1 < fieldW c.a 0 29 + rows * c.cols * c.eO)) 7
  engCheck (scl != 0 && (scl % 4 != 0 || decide (2 < fieldN scl 29 3) || fieldN scl 25 4 != 0)) 8
  engCheck (scl != 0 && decide (spaceSize (fieldN scl 29 3) < fieldN scl 0 29 + 4 * ((c.cols + 31) / 32))) 7
  bar6Check c

/-- The drain scales, read at issue by the scalar unit and checked with their reciprocals (R253, R323): a fault names a word by its VA. -/
def State.drainScales (s : State) (la : Nat) : Nat → Except Stop (List (BitVec 32))
  | 0 => .ok []
  | n + 1 => do
    let v ← s.portRead s.fnode s.pIdx la 4 (localVa la)
    if scaleRcpOk v then
      let r ← s.drainScales (la + 4) n
      .ok (BitVec.ofNat 32 v :: r)
    else raise .scaleInvalid (BitVec.ofNat 64 (localVa la))

/-! ## Whose turn the array is (R305) -/

/-- The priority of a context (R304): its launch's, or 7 for the system context. -/
def State.leasePrio (s : State) (id : CtxId) : Nat :=
  if id.slot = 11 then 7 else
  match (s.core id.node id.core).item with
  | some it => (match s.launch? id.node it.launch with | some l => l.prio | none => 0)
  | none => 0

/-- The holder has commands queued. -/
def ArraySt.live (a : ArraySt) : Bool := a.holder.isSome && !a.ending && (!a.hiQ.isEmpty || !a.loQ.isEmpty)

/-- A restored context whose lease is not yet back, while another context of its core holds one or waits for one (R304, R307). -/
def State.restoreHeld (s : State) (a : ArraySt) (x : Susp) : Bool :=
  let other := fun (id : CtxId) => id.node == x.id.node && id.core == x.id.core && id != x.id
  (s.ctx x.id).wait == some .restore &&
    ((match a.holder with | some h => other h | none => false) || a.susp.any (fun y => !y.saved && other y.id) || a.waiting.any (fun w => other w.1))

/-- The winner of an arbitration (R305): the highest priority, then the first core in rotating order after the holder's core. -/
def State.leaseWinner (s : State) (a : ArraySt) : Option CtxId :=
  let cands := a.waiting.map (·.1) ++ (a.susp.filter (fun (x : Susp) => !x.saved && !s.restoreHeld a x)).map (·.id) ++
    (match a.holder with | some h => if a.live then [h] else [] | none => [])
  let key := fun (id : CtxId) => s.leasePrio id * 8 + 7 - (id.core % 8 + 7 - a.lastCore) % 8
  cands.foldl (fun (w : Option CtxId) id => match w with
    | none => some id
    | some x => if key x < key id then some id else w) none

/-- A command of the holder is due to be issued (R305): its slot waits to issue one, or its grant has only now come. -/
def State.arrDue (s : State) (a : ArraySt) : Bool :=
  match a.holder with
  | some h => let w := (s.ctx h).wait; w == some .tileQueue || w == some .lease || w == some .restore
  | none => false

/-- The lease is up for re-arbitration at a command boundary: the counter is 0, or the holder has no command queued, running or due to
be issued; and some other context would have it. -/
def State.leaseDue (s : State) (a : ArraySt) : Bool :=
  a.run.isNone && (!(a.live || s.arrDue a) || a.quantum == 0) &&
    (match s.leaseWinner a with | some w => a.holder != some w || a.quantum == 0 | none => false)

/-- A context waits for the array: one that has asked for a lease, or one whose suspended lease holds it or its queued commands up. -/
def State.leaseWanted (s : State) (a : ArraySt) : Bool :=
  !a.waiting.isEmpty || a.susp.any (fun x => let w := (s.ctx x.id).wait
    w == some .tileQueue || w == some .restore || (!x.saved && (!x.hiQ.isEmpty || !x.loQ.isEmpty)))

/-- A lease has just been granted, or given to the LEASE that waited for it: if its holder issues nothing, the array arbitrates again (R305). -/
def State.askIdle (s : State) (node p : Nat) : State := if s.leaseWanted (s.polder node p).array then s.askLease node p else s

/-! ## EMMA, EMMZ, EMMD at issue (R205, R308, R310, R312) -/

/-- The command enters the tile queue its suffix names; while its lease is suspended, or without room in the queue or free table entries, the
slot stalls. -/
def arrIssue (i : Instr) (c : Cmd) (prep : Except Stop (State × Cmd)) (s : State) : Out :=
  finish i s (if s.c.ra then .ok s else
    let a := s.pol.array
    if !a.leased s.cur then raise .leaseViolation (wordOf (encodeFirst i))
    else do
      let (s', c') ← prep
      if a.holder ≠ some s.cur ∨ a.ending then
        -- a suspended lease takes part in the arbitration (R305, R306)
        .error (.wait .tileQueue (if s.leaseDue a then s.askLease s.fnode s.pIdx else s))
      else if 8 ≤ (if c.hi then a.hiQ else a.loQ).length then .error (.wait .tileQueue s)
      else match s.pol.claim c' c'.arrClaims with
        | none => .error (.wait .tileQueue s)
        | some q =>
          let a := if c.hi then { q.array with hiQ := q.array.hiQ ++ [c'] } else { q.array with loQ := q.array.loQ ++ [c'] }
          let s := { s'.setPol { q with array := a } with nextCmd := s'.nextCmd + 1 }
          .ok (s.enq .arrayCommandStart { node := s.fnode, n := s.pIdx }))

/-- The mode fields that the command takes from its prefix (R49, R312). -/
def State.cmdModes (s : State) (c : Cmd) : Cmd :=
  match s.pfx with
  | none => c
  | some p => { c with rnd := BitVec.ofNat 3 s.mode, sat := p.sat, nanp := p.nanp }

/-- EMMA (R312 to R314). -/
def execEmma (g : Bool) (a b : Reg) (h t : Bool) (s : State) : Out :=
  let i : Instr := .emma g a b h t
  let c := s.cmdModes (s.mkCmd 4 h t (s.X a) (s.X b))
  governed i g s (arrIssue i c ((emmaCheck c a b).map (fun _ => (s, c))) s)

/-- EMMZ (R321). -/
def execEmmz (a : Reg) (h : Bool) (s : State) : Out :=
  let i : Instr := .emmz a h
  let c := s.mkCmd 5 h false (s.X a) 0
  arrIssue i c (do
    bar6Zero c
    engCheck (fieldW c.a 1 63 != 0) (0x100 + a.toNat)
    bar6Check c
    .ok (s, c)) s

/-- EMMD (R322, R323): the scales are read and the draws made at issue. -/
def execEmmd (g : Bool) (a b : Reg) (h : Bool) (s : State) : Out :=
  let i : Instr := .emmd g a b h
  let c := s.cmdModes (s.mkCmd 6 h false (s.X a) (s.X b))
  governed i g s (arrIssue i c (do
    emmdCheck c a b
    let scl := fieldW c.g[8] 32 32
    let sc ← if scl = 0 then .ok [] else s.drainScales scl ((c.cols + 31) / 32)
    let n := c.b.toNat * c.cols * (if c.oTy = .c32 then 2 else 1)
    let d := if s.mode = 5 then (s.draws n).map (BitVec.ofNat 32) else []
    .ok (s.drawn n, { c with scales := sc, draws := d })) s)

/-! ## Banks (R301) -/

/-- A bank of the array. -/
def ArraySt.bank (a : ArraySt) (n : Nat) : Bank := if n = 0 then a.bank0 else a.bank1
/-- Replaces a bank. -/
def ArraySt.setBank (a : ArraySt) (n : Nat) (b : Bank) : ArraySt := if n = 0 then { a with bank0 := b } else { a with bank1 := b }
/-- acc[r][c]. -/
def Bank.word (b : Bank) (r c : Nat) : Nat := (tget (0 : BitVec 32) b.words (128 * r + c)).toNat
/-- acc[r][c] := w. -/
def Bank.put (b : Bank) (r c w : Nat) : Bank := { b with words := tset b.words (128 * r + c) (BitVec.ofNat 32 w) }
/-- Flags of a bank rise. -/
def Bank.raise (b : Bank) (f : BitVec 5) : Bank := { b with flags := b.flags ||| f }
/-- Every row reads +0 in the columns below `n`, and the flags are clear (R316). -/
def Bank.clear (b : Bank) (n : Nat) : Bank := { b with words := b.words.filter (fun e => decide (n ≤ e.1 % 128)), flags := 0 }

/-! ## Accumulation (R319, R320) -/

/-- The products of a K-group. -/
def groupProducts (as bs : List FVal) : List FVal := (as.zip bs).map (fun e => (fvMul e.1 e.2).1)

/-- The group's exact sum: an infinity if one product is infinite; an exact zero is −0 only when every product is −0. -/
def groupSum : List FVal → FVal
  | [] => .fin false 0 1 false
  | p :: r => r.foldl (fun a x => (fvAdd false a x).1) p

/-- The group's invalid cases: 0 × ∞, or infinities of both signs. -/
def groupInvalid (as bs : List FVal) : Bool :=
  let ps := groupProducts as bs
  (as.zip bs).any (fun e => zeroTimesInf e.1 e.2) || (ps.contains (.inf false) && ps.contains (.inf true))

/-- `accumulate` after `group` (R319): the accumulator's new word and the flags. A NaN accumulator supplies the payload first, then the
operands in ascending k, A before B. -/
def emmaCell (r : Rnd) (acc : Nat) (as bs : List FVal) : Nat × BitVec 5 :=
  let x := ETy.decode .fp32 acc
  let bad := groupInvalid as bs
  let vs := x :: (as.zip bs).flatMap (fun e => [e.1, e.2])
  (nanResult .fp32 r vs bad).getD
    (if bad then opResult .fp32 r (.invalid, fNV) else opResult .fp32 r (fvAdd false x (groupSum (groupProducts as bs))))

/-- One term of a complex cell's pair (S, E) (R320), and the flags of each of its roundings. Once S is infinite or a NaN, E is +0,
and S goes on as S + h, h = RNE(p). -/
def c32Term (r : Rnd) (se : Nat × Nat) (x y : FVal) (minus : Bool) : (Nat × Nat) × BitVec 5 :=
  let sv := ETy.decode .fp32 se.1
  let x' := if minus then x.neg else x
  let p := fvMul x' y
  let h := ETy.round .fp32 Rnd.default p.1
  let whole := fun (_ : Unit) =>
    let n := (nanResult .fp32 r [sv, x, y] (zeroTimesInf x y)).getD
      (let a := if zeroTimesInf x y then (FVal.invalid, fNV) else fvAdd false sv (ETy.decode .fp32 h.1)
       opResult .fp32 r (a.1, a.2 ||| h.2))
    ((n.1, 0), n.2)
  match sv, p.1, ETy.decode .fp32 h.1 with
  | .fin _ _ _ _, .fin _ _ _ _, hv@(.fin _ _ _ _) =>
    let l := ETy.round .fp32 Rnd.default (fvAdd false p.1 hv.neg).1
    let sum := (fvAdd false sv hv).1
    let s1 := ETy.round .fp32 Rnd.default sum
    match ETy.decode .fp32 s1.1 with
    | s1v@(.fin _ _ _ _) =>
      let t := (fvAdd false sum s1v.neg).1
      let lt := ETy.round .fp32 Rnd.default (fvAdd false (ETy.decode .fp32 l.1) t).1
      let e := ETy.round .fp32 Rnd.default (fvAdd false (ETy.decode .fp32 se.2) (ETy.decode .fp32 lt.1)).1
      ((s1.1, e.1), h.2 ||| l.2 ||| s1.2 ||| lt.2 ||| e.2)
    | _ =>
      let s2 := ETy.round .fp32 r sum
      ((s2.1, 0), h.2 ||| l.2 ||| s2.2)
  | _, _, _ => whole ()

/-- The four terms of one complex multiply-accumulate (R320): +ar·br and −ai·bi to the real pair, +ar·bi and +ai·br to the imaginary. -/
def c32Cell (r : Rnd) (re im : Nat × Nat) (ar ai br bi : FVal) : (Nat × Nat) × (Nat × Nat) × BitVec 5 :=
  let a := c32Term r re ar br false
  let b := c32Term r a.1 ai bi true
  let c := c32Term r im ar bi false
  let d := c32Term r c.1 ai br false
  (b.1, d.1, a.2 ||| b.2 ||| c.2 ||| d.2)

/-! ## Operands (R311, R316) -/

/-- The local address of terp byte `off` of logical column `j`. -/
def terpLa (j off : Nat) : Nat := 3 * 2 ^ 29 + j * 2 ^ 19 + off

/-- The elements of K-group `q`. -/
def Cmd.groupLen (c : Cmd) (q : Nat) : Nat := min c.grp (c.kLen - q * c.grp)

/-- Row `r` of K-group `q` of A, as codes. -/
def State.readA (s : State) (c : Cmd) (r q : Nat) : Except Stop (State × List Nat) := do
  let n := c.groupLen q
  let va := (c.a + BitVec.ofInt 64 ((r : Int) * c.g[1].toInt) + BitVec.ofNat 64 (q * c.grp * c.eA)).toNat
  let (s, v) ← if c.aglb then s.engReadG c.req va (n * c.eA) .arrayRead (n * c.eA / 64 + 2) else s.engRead c 1 va (n * c.eA)
  .ok (s, if c.cplx then elems v 32 (2 * n) else elems v (8 * c.eA) n)

/-- K-group `q` of B for `n` logical columns from column `j`, as codes. -/
def State.readB (s : State) (c : Cmd) (q j : Nat) : Nat → Except Stop (List (List Nat))
  | 0 => .ok []
  | n + 1 => do
    let k := c.groupLen q
    let v ← s.engPort c (terpLa j (c.b.toNat + q * c.grp * c.eB)) (k * c.eB)
    let r ← s.readB c q (j + 1) n
    .ok (elems v (8 * c.eB) k :: r)

/-- Rows `r .. r + n - 1` of K-group `q` of A. -/
def State.readRows (s : State) (c : Cmd) (q r : Nat) : Nat → Except Stop (State × List (Nat × List Nat))
  | 0 => .ok (s, [])
  | n + 1 => do
    let (s, a) ← s.readA c r q
    let (s, l) ← s.keeping c.req (s.readRows c q (r + 1) n)
    .ok (s, (r, a) :: l)

/-- What the accumulation of a command uses: RNE always (R319). -/
def Cmd.accRnd (c : Cmd) : Rnd := ⟨0, c.sat, c.nanp.toNat, 0, false⟩

/-- One row's cells take K-group data (R316, R320). -/
def Bank.accRow (b : Bank) (c : Cmd) (r : Nat) (a : List Nat) (bs : List (List Nat)) : Bank :=
  if c.cplx then
    let ar := ETy.decode .fp32 (a.getD 0 0)
    let ai := ETy.decode .fp32 (a.getD 1 0)
    (List.range c.cols).foldl (fun b j =>
      let br := ETy.decode .fp32 ((bs.getD (2 * j) []).getD 0 0)
      let bi := ETy.decode .fp32 ((bs.getD (2 * j + 1) []).getD 0 0)
      let x := c32Cell c.accRnd (b.word (2 * r) (2 * j), b.word (2 * r) (2 * j + 1)) (b.word (2 * r + 1) (2 * j), b.word (2 * r + 1) (2 * j + 1))
        ar ai br bi
      ((((b.put (2 * r) (2 * j) x.1.1).put (2 * r) (2 * j + 1) x.1.2).put (2 * r + 1) (2 * j) x.2.1.1).put (2 * r + 1) (2 * j + 1) x.2.1.2).raise x.2.2) b
  else
    let av := a.map c.aTy.decode
    ((List.range c.cols).zip bs).foldl (fun b (e : Nat × List Nat) =>
      let x := emmaCell c.accRnd (b.word r e.1) av (e.2.map c.bTy.decode)
      (b.put r e.1 x.1).raise x.2) b

/-- K-group `q` of rows `r .. r + n - 1` is committed: every operand is read before any word changes (R325). -/
def State.commitGroup (s : State) (c : Cmd) (q r n : Nat) : Except Stop State := do
  let bs ← s.readB c q 0 c.terpCols
  let (s, rows) ← s.readRows c q r n
  let a := (s.polder c.id.node c.id.polder).array
  let b := rows.foldl (fun b (e : Nat × List Nat) => b.accRow c e.1 e.2 bs) (a.bank c.bankNo)
  .ok (s.setArray c.id.node c.id.polder (a.setBank c.bankNo b))

/-- Every K-group of one row. -/
def State.commitRow (s : State) (c : Cmd) (r q : Nat) : Nat → Except Stop State
  | 0 => .ok s
  | n + 1 => do
    let s ← s.commitGroup c q r 1
    s.commitRow c r (q + 1) n

/-! ## Draining (R324) -/

/-- The exact value of a part of an output element, and the flags of the sum that it is in C32. -/
def Bank.part (b : Bank) (cplx : Bool) (r j p : Nat) : FVal × BitVec 5 :=
  if cplx then fvAdd false (ETy.decode .fp32 (b.word (2 * r + p) (2 * j))) (ETy.decode .fp32 (b.word (2 * r + p) (2 * j + 1)))
  else (ETy.decode .fp32 (b.word r j), 0)

/-- One part drained: scaled and added exactly, then rounded once; the bank's NaN comes before the destination's. An invalid sum, product or addition
raises NV. -/
def drainPart (t : ETy) (r : Rnd) (v : FVal × BitVec 5) (scale : Option Nat) (old : Option Nat) : Nat × BitVec 5 :=
  let x := match scale with | some c => fvMul v.1 (ETy.decode .fp32 c) | none => (v.1, 0)
  let y := match old with
    | none => fpOp t r [x.1] (x.1, 0)
    | some o =>
      let d := t.decode o
      fpOp t r [x.1, d] (fvAdd (r.mode == 2) x.1 d)
  (y.1, y.2 ||| x.2 ||| v.2)

/-- The parts of row `r` of an EMMD, in order, from the destination's old parts. -/
def drainRow (c : Cmd) (b : Bank) (r : Nat) (old : List Nat) : List (Nat × BitVec 5) :=
  let np := if c.oTy = .c32 then 2 else 1
  let t : ETy := if c.oTy = .c32 then .fp32 else c.oTy
  (List.range (c.cols * np)).map (fun k =>
    let j := k / np
    let d := (c.draws.getD (r * c.cols * np + k) 0).toNat
    let sc := if c.scales.isEmpty then none else (c.scales[j / 32]?).map BitVec.toNat
    drainPart t ⟨c.rnd.toNat, c.sat, c.nanp.toNat, d, false⟩ (b.part (c.oTy == .c32) r j (k % np)) sc (if c.add then old[k]? else none))

/-- Row `r` of an EMMD lands. -/
def State.drain (s : State) (c : Cmd) (r : Nat) : Except Stop State := do
  let n := c.cols * c.eO
  let la := c.a.toNat + r * n
  let w := if c.oTy = .c32 then 32 else c.oTy.width
  let old ← if c.add then s.engPort c la n else .ok 0
  let a := (s.polder c.id.node c.id.polder).array
  let b := a.bank c.bankNo
  let l := drainRow c b r (elems old w (8 * n / w))
  let s := s.setArray c.id.node c.id.polder (a.setBank c.bankNo (b.raise (flagsOf l)))
  .ok (s.spadWrite c.id.node c.id.polder la n (packEls w (l.map (·.1))) c.id.node c.id.polder 0x7FF)

/-! ## Starting (R305, R310, R315) -/

/-- A 32-bit counter at its M-space port. -/
def State.counter (s : State) (c : Cmd) (la : Nat) : Nat := memRead s.mem (spadAddr c.id.node c.id.polder la) 4

/-- The local address of a counter of the command that stands in a lost word, if one does: the array cannot read it (R185). -/
def State.counterLost (s : State) (c : Cmd) : Option Nat :=
  ((if c.trig then [fieldW c.g[4] 0 32] else []) ++ (if c.rag then [fieldW c.g[3] 0 32] else [])).find? (fun la =>
    c.cmd == 4 && s.lostWordIn (spadAddr c.id.node c.id.polder la) 4)

/-- The head of a tile queue may start (R315). -/
def State.mayStart (s : State) (c : Cmd) : Bool :=
  let q := s.polder c.id.node c.id.polder
  if c.cmd = 4 then
    let earlier := fun (space lo n : Nat) => q.sb.any (fun e => decide (e.cmd < c.no) && e.hits space 0 lo n)
    let r := c.aRange c.emRows
    !(earlier 4 c.bRange.1 (c.bRange.2 - c.bRange.1)) && (c.aglb || !(earlier 1 r.1.toNat (r.2 - r.1).toNat)) &&
      (!c.trig || decide (fieldW c.g[5] 0 32 ≤ s.counter c (fieldW c.g[4] 0 32))) &&
      (!c.rag || decide (1 ≤ s.counter c (fieldW c.g[3] 0 32)))
  else true

/-! ## Running (R316 to R318, R324) -/

/-- Replaces the running command. -/
def State.setRun (s : State) (node p : Nat) (c : Option Cmd) : State := s.setArray node p { (s.polder node p).array with run := c }

/-- The queue of a stopped array command halts (R325), in the lease that holds it. -/
def ArraySt.halt (a : ArraySt) (id : CtxId) (hi : Bool) : ArraySt :=
  if a.holder = some id then (if hi then { a with hstop := true } else { a with lstop := true })
  else { a with susp := a.susp.map (fun (x : Susp) =>
    if x.id = id then (if hi then { x with hstop := true } else { x with lstop := true }) else x) }

/-- The point a stopped array command resumes from (R225, R325): the K position of an EMMA, the row of an EMMD that adds; every other
starts again. -/
def Cmd.arrRespt (c : Cmd) : Nat :=
  if c.cmd = 4 then (if c.rag then 0 else c.pos * c.grp) else if c.add then c.sub else 0

/-- The stopped command as its record keeps it. -/
def Cmd.atStop (c : Cmd) : Cmd :=
  if c.cmd = 4 ∧ !c.rag then c
  else if c.cmd = 6 ∧ c.add then c
  else { c with pos := 0, sub := 0, rows := 0, started := false, counted := max c.counted c.sub }

/-- The running command stops (R325, R226): a ragged EMMA leaves its bank as it was before it. The lease of a terminated context goes then (R307). -/
def State.arrFault (s : State) (node p : Nat) (c : Cmd) (t : TrapInfo) : State :=
  let s := s.noteFail t
  let a := (s.polder node p).array
  let a := if c.rag && c.cmd == 4 then a.setBank c.bankNo a.backup else a
  let s := s.setArray node p (({ a with run := none } : ArraySt).halt c.id c.hi)
  let s := s.stopCmd node p c.atStop t.cause t.place c.arrRespt true
  if a.ending then s.leaseGone node p else
  (s.enq .arrayCommandStart { node := node, n := p }).askLease node p

/-- Row `sub` of the command is counted, unless an earlier run has counted it. -/
def State.countRow (s : State) (node p : Nat) (c : Cmd) : State :=
  if c.sub < c.counted then s else s.barPiece node p c.bar c.rowBytes 2

/-- The rows of a ragged EMMA that the counter admits (R317). -/
def State.joined (s : State) (c : Cmd) : Nat := max c.rows (min c.cap (s.counter c (fieldW c.g[3] 0 32)))

/-- RAGGED_ROW_JOIN: further rows join as the counter rises, until the row-close point, and the A range grows with them (R315, R317). -/
def State.raggedJoin (s : State) (node p : Nat) : State :=
  match (s.polder node p).array.run with
  | none => s
  | some c =>
    if c.cmd ≠ 4 ∨ !c.rag ∨ (0 < c.rows ∧ c.rows ≤ c.sub) then s
    else
      match s.counterLost c with
      | some la => s.arrFault node p c { cause := .dataLost, tval := BitVec.ofNat 64 la }
      | none =>
        let c := { c with rows := s.joined c }
        let q := s.polder node p
        let r := c.aRange c.rows
        let s := s.setPolder node p { q with rl := q.rl.map (fun (e : RangeEnt) =>
          if e.cmd == c.no && e.space == 1 then { e with lo := r.1.toNat, hi := if c.rows = 0 then r.1.toNat else r.2.toNat } else e) }
        s.setRun node p (some c)

/-- ARRAY_COMMAND_START: at a command boundary the high queue's head starts if it may, else the low queue's (R310). A head whose counter cannot be
read stops (R185), and the first rows of a ragged one join as it starts. -/
def State.arrStart (s : State) (node p : Nat) : State :=
  let a := (s.polder node p).array
  let again := fun (s : State) => s.enqOnce .arrayCommandStart { node := node, n := p }
  if a.run.isSome ∨ a.holder.isNone ∨ !a.live ∨ a.next.isSome then s
  else if s.leaseDue a then again (s.askLease node p)
  else
    let heads := (if a.hstop then [] else a.hiQ.take 1) ++ (if a.lstop then [] else a.loQ.take 1)
    let pop := fun (c : Cmd) => if c.hi then { a with hiQ := a.hiQ.drop 1 } else { a with loQ := a.loQ.drop 1 }
    match heads.find? (fun c => (s.counterLost c).isSome) with
    | some c => (s.setArray node p { pop c with backup := a.bank c.bankNo }).arrFault node p c { cause := .dataLost, tval := BitVec.ofNat 64 ((s.counterLost c).getD 0) }
    | none =>
      match heads.find? (fun c => s.mayStart c) with
      | none => again s
      | some c =>
        let a := pop c
        let b := a.bank c.bankNo
        let a := if c.rag && c.cmd == 4 then { a with backup := b } else a
        let a := if c.cmd = 4 ∧ !c.started then
            let b := if fieldW c.g[0] 16 1 = 0 then b.clear c.terpCols else b
            a.setBank c.bankNo { b with cplx := c.cplx }
          else a
        let s := s.setArray node p { a with run := some { c with started := true }, quantum := a.quantum - 1 }
        (s.raggedJoin node p).enq (if c.cmd = 5 then .arrayCommandComplete else .arrayRowCommit) { node := node, n := p }

/-- The next unit of the running command: a K-group of every row in lockstep, or the count of a row, or a ragged row's whole sum, or a
drained row. The flag says that it was the last. -/
def State.arrUnit (s : State) (node p : Nat) (c : Cmd) : Except Stop (State × Cmd × Bool) :=
  match ((s.polder node p).array.bank c.bankNo).lostAt with
  | some la => raiseAcc .dataLost (BitVec.ofNat 64 la) 0
  | none =>
    if c.cmd = 6 then do
      let s ← s.drain c c.sub
      .ok (s.countRow node p c, { c with sub := c.sub + 1 }, decide (c.b.toNat ≤ c.sub + 1))
    else if c.rag then
      if c.sub < c.rows then do
        let s ← s.commitRow c c.sub 0 c.groups
        .ok (s.countRow node p c, { c with sub := c.sub + 1 }, decide (c.rows ≤ c.sub + 1))
      else .ok (s, c, true)
    else if c.pos < c.groups then do
      let s ← s.commitGroup c c.pos 0 c.emRows
      .ok (s, { c with pos := c.pos + 1 }, false)
    else .ok (s.countRow node p c, { c with sub := c.sub + 1 }, decide (c.emRows ≤ c.sub + 1))

/-- A K-group that an EMMA with AGLB = 1 has still to read touches `n` bytes at a VA (R102). -/
def Cmd.touchesA (c : Cmd) (va n : Nat) : Bool :=
  c.cmd == 4 && c.aglb && decide (c.pos < c.groups) && (List.range c.emRows).any (fun r =>
    let done := c.pos * c.grp * c.eA
    let at' := fieldN (c.a + BitVec.ofInt 64 ((r : Int) * c.g[1].toInt) + BitVec.ofNat 64 done).toNat 0 56
    decide (at' < va + n ∧ va < at' + (c.kLen * c.eA - done)))

/-- ARRAY_ROW_COMMIT. A ragged EMMA closes when every row that has joined has committed (R317). -/
def State.arrRow (s : State) (node p : Nat) : State :=
  let ev : Ev := { node := node, n := p }
  match (s.polder node p).array.run with
  | none => s
  | some c =>
    if c.cmd = 5 then s else
    match s.arrUnit node p c with
    | .error (.trap t) => s.arrFault node p c t
    | .error (.trapKeep t s) => s.arrFault node p c t
    | .error (.wait _ s) => (s.unitWaits c.no).enq .arrayRowCommit ev
    | .ok (s, c, last) =>
      let s := (s.onTime c.no).pinsDone c.no c.touchesA
      (s.setRun node p (some c)).enq (if last then .arrayCommandComplete else .arrayRowCommit) ev

/-- The command has done its last unit. -/
def Cmd.allDone (c : Cmd) : Bool :=
  match c.cmd with
  | 4 => if c.rag then decide (1 ≤ c.rows ∧ c.rows ≤ c.sub) else decide (c.groups ≤ c.pos ∧ c.emRows ≤ c.sub)
  | 6 => decide (c.b.toNat ≤ c.sub)
  | _ => true

/-- ARRAY_COMMAND_COMPLETE (R300, R317, R318, R321). -/
def State.arrComplete (s : State) (node p : Nat) : State :=
  let a := (s.polder node p).array
  match a.run with
  | none => s
  | some c =>
    if !c.allDone then s else
    let s := if c.cmd = 5 then
        (s.setArray node p (a.setBank c.bankNo { a.bank c.bankNo with words := [], flags := 0, lostAt := none })).barPiece node p c.bar 65536 2
      else if c.cmd = 4 ∧ c.rag then
        let s := s.setArray node p (a.setBank c.bankNo { a.bank c.bankNo with rrows := c.rows })
        let left := c.cap - max c.rows c.counted
        if left = 0 then s else s.barPiece node p c.bar (left * c.rowBytes) 2
      else s
    let s := s.setRun node p none
    let s := s.freeCmd node p c.no
    if a.ending then s.leaseGone node p else
    let s := s.enq .arrayCommandStart { node := node, n := p }
    if s.leaseDue (s.polder node p).array then s.askLease node p else s

/-! ## Leases: arbitration and hand-over (R304 to R306) -/

/-- The header and record words of a save (R306), in the array's own format: a marked word, the bank flags, modes and rows, the queue
counts; then a marked number for each not-started command; zero elsewhere. -/
def ArraySt.saveWords (a : ArraySt) : List Nat :=
  let b0 := a.bank0; let b1 := a.bank1
  let head := [2 ^ 63 + a.quantum,
    b0.flags.toNat + b1.flags.toNat * 2 ^ 5 + b0.cplx.toNat * 2 ^ 10 + b1.cplx.toNat * 2 ^ 11 + b0.rrows * 2 ^ 16 + b1.rrows * 2 ^ 24,
    a.hiQ.length + a.loQ.length * 2 ^ 8, 0, 0, 0, 0, 0]
  let recs := (a.hiQ ++ a.loQ).map (fun c => 2 ^ 63 + c.no % 2 ^ 63)
  head ++ (List.range 16).flatMap (fun i => recs.getD i 0 :: List.replicate 7 0)

/-- Words of 8 bytes written at the port from local address `la` on. -/
def State.portWords (s : State) (node p la : Nat) : List Nat → State
  | [] => s
  | w :: r => (s.spadWrite node p la 8 w node p 0x7FF).portWords node p (la + 8) r

/-- A bank's words written at the port: zero but for the listed ones. -/
def State.saveBank (s : State) (node p la : Nat) (b : Bank) : State :=
  let a := spadAddr node p la
  let m := memZero s.mem a 65536
  let m := b.words.foldl (fun m e => memWrite m (a + 4 * e.1) 4 e.2.toNat) m
  ({ s with mem := m } : State).lostWordWrite a 65536

/-- A fresh lease is granted (R304): both banks read +0, the flags are clear, and the counter is loaded. -/
def State.leaseGrant (s : State) (node p : Nat) (id : CtxId) (sa : Nat) : State :=
  let a := (s.polder node p).array
  let s := s.setArray node p { a with holder := some id, holderSa := sa, bank0 := Bank.reset, bank1 := Bank.reset,
                                      waiting := a.waiting.filter (fun (w : CtxId × Nat) => w.1 != id), hstop := false, lstop := false,
                                      quantum := (s.core id.node id.core).quant.toNat, lastCore := id.core % 8, next := none }
  s.setCtx id { s.ctx id with granted := true }

/-- The winner of an arbitration gets the array, which no lease holds (R305): a waiting context a fresh lease, a suspended lease its restore. -/
def State.leaseTo (s : State) (node p : Nat) (id : CtxId) : State :=
  let a := (s.polder node p).array
  match a.waiting.find? (fun (w : CtxId × Nat) => w.1 == id) with
  | some (_, sa) => s.leaseGrant node p id sa
  | none => (s.setArray node p { a with next := some id }).enq .handOverRestore { node := node, n := p }

/-- HAND_OVER_SAVE: the holder's lease is suspended, or taken away by a pre-emption (R306, R307); the winner for whom it goes is granted, else the
array is granted anew (R305). -/
def State.handOverSave (s : State) (node p : Nat) (away : Bool) : State :=
  let a := (s.polder node p).array
  match a.holder with
  | none => if a.next.isSome then (s.setArray node p { a with next := none }).askLease node p else s
  | some id =>
    if a.run.isSome then s.setArray node p { a with next := none } else
    let w := a.saveWords
    let s := (s.saveBank node p a.holderSa a.bank0).saveBank node p (a.holderSa + 65536) a.bank1
    let s := s.portWords node p (a.holderSa + 131072) w
    let s := s.portWords node p (a.holderSa + 132160) (List.replicate 120 0)
    let x : Susp := ⟨id, a.holderSa, a.hiQ, a.loQ, a.hstop, a.lstop, away, w, a.bank0.lostAt, a.bank1.lostAt⟩
    (s.setArray node p { a with holder := none, holderSa := 0, hiQ := [], loQ := [], hstop := false, lstop := false, susp := a.susp ++ [x],
                                bank0 := Bank.reset, bank1 := Bank.reset, lastCore := id.core % 8, next := none }) |> fun s =>
      match a.next with
      | some w => s.leaseTo node p w
      | none => s.askLease node p

/-- The words of 8 bytes from local address `la` on. -/
def State.wordsAt (s : State) (node p la : Nat) : Nat → List Nat
  | 0 => []
  | n + 1 => memRead s.mem (spadAddr node p la) 8 :: s.wordsAt node p (la + 8) n

/-- A bank as the save area gives it: its words, and the first lost one. A bank that was marked lost before its save stays so (R306). -/
def State.loadBank (s : State) (node p la : Nat) (flags : BitVec 5) (cplx : Bool) (rrows : Nat) (was : Option Nat) : Bank :=
  let words := (List.range 16384).filterMap (fun i =>
    let v := memRead s.mem (spadAddr node p (la + 4 * i)) 4
    if v = 0 then none else some (i, BitVec.ofNat 32 v))
  let lost := (List.range 8192).find? (fun i => s.lostWordIn (spadAddr node p (la + 8 * i)) 8)
  ⟨words, flags, cplx, rrows, was.or (lost.map (fun i => la + 8 * i))⟩

/-- A not-started command of a bad record stops (R306, R325). -/
def State.stopSaved (s : State) (node p : Nat) (c : Cmd) (cause : Cause) (fva : Nat) : State :=
  s.stopCmd node p c cause (BitVec.ofNat 64 fva) 0 true

/-- What a record or header shows (R306): good, or the cause and address of its stop. -/
def State.recordFault (s : State) (node p la n : Nat) (want : List Nat) : Option (Cause × Nat) :=
  match (List.range n).find? (fun i => s.lostWordIn (spadAddr node p (la + 8 * i)) 8) with
  | some i => some (.dataLost, la + 8 * i)
  | none => if s.wordsAt node p la n = want then none else some (.engineFault, la)

/-- HAND_OVER_RESTORE: the winner's suspended lease is granted again (R304, R306). A winner that has ended meanwhile leaves the array to another
arbitration. -/
def State.handOverRestore (s : State) (node p : Nat) : State :=
  let a := { (s.polder node p).array with next := none }
  match (s.polder node p).array.next.or (s.leaseWinner a) with
  | none => s
  | some id =>
    match a.susp.find? (fun (x : Susp) => x.id == id && !x.saved) with
    | none => (s.setArray node p a).askLease node p
    | some x =>
      if a.holder.isSome then s else
      let h := x.sa + 131072
      let bad := s.recordFault node p h 8 (x.header.take 8)
      let w := if bad.isNone then x.header.getD 1 0 else 0
      let b0 := s.loadBank node p x.sa (BitVec.ofNat 5 (fieldN w 0 5)) (fieldN w 10 1 == 1) (fieldN w 16 8) x.lost0
      let b1 := s.loadBank node p (x.sa + 65536) (BitVec.ofNat 5 (fieldN w 5 5)) (fieldN w 11 1 == 1) (fieldN w 24 8) x.lost1
      let all := x.hiQ ++ x.loQ
      let found := ((List.range all.length).zip all).map (fun (e : Nat × Cmd) =>
        (e.2, match bad with
          | some f => some f
          | none => s.recordFault node p (h + 64 + 64 * e.1) 8 ((x.header.drop (8 + 8 * e.1)).take 8)))
      let good := (found.filter (fun (e : Cmd × Option (Cause × Nat)) => e.2.isNone)).map (·.1)
      let stops := found.filterMap (fun (e : Cmd × Option (Cause × Nat)) => e.2.map (fun f => (e.1, f)))
      let hs := x.hstop || bad.isSome || stops.any (fun (e : Cmd × Cause × Nat) => e.1.hi)
      let ls := x.lstop || bad.isSome || stops.any (fun (e : Cmd × Cause × Nat) => !e.1.hi)
      let s := s.setArray node p { a with holder := some id, holderSa := x.sa, hiQ := good.filter (fun c => c.hi), loQ := good.filter (fun c => !c.hi),
                                          hstop := hs, lstop := ls, bank0 := b0, bank1 := b1, susp := a.susp.filter (fun (y : Susp) => y.id != id),
                                          quantum := (s.core id.node id.core).quant.toNat, lastCore := id.core % 8 }
      let s := stops.foldl (fun (s : State) (e : Cmd × Cause × Nat) => s.stopSaved node p e.1 e.2.1 e.2.2) s
      -- a restored context that waits for its lease runs again (R307)
      let s := if (s.ctx id).wait = some .restore then s.setCtx id { s.ctx id with st := .ready, wait := none } else s
      (s.askIdle node p).enq .arrayCommandStart { node := node, n := p }

/-- LEASE_ARBITRATION (R305): a waiting winner is granted a fresh lease, a suspended one is restored; a holder that loses is saved
first, for that winner; one that wins has its counter reloaded. While a hand-over is under way there is none. -/
def State.arbitrate (s : State) (node p : Nat) : State :=
  let a := (s.polder node p).array
  let ev : Ev := { node := node, n := p }
  if a.next.isSome || !s.leaseDue a then s
  else match s.leaseWinner a with
    | none => s
    | some id =>
      if a.holder = some id then
        (s.setArray node p { a with quantum := (s.core id.node id.core).quant.toNat }).enq .arrayCommandStart ev
      else if a.holder.isSome then (s.setArray node p { a with next := some id }).enq .handOverSave ev
      else s.leaseTo node p id

/-! ## LEASE, UNLEASE, LSTAT (R303 to R309) -/

/-- LEASE (R304, R305): a free array that no one waits for is granted at once; else the slot waits until its grant. A wait that the grant has ended
gives OK, also when the instruction is executed again after a pre-emption. -/
def execLease (d a : Reg) (s : State) : Out :=
  finish (.lease d a) s (if s.c.ra then .ok s else
    let sa := s.X a
    let arr := s.pol.array
    let other := fun (id : CtxId) => id.core == s.fcore && id != s.cur
    if fieldW sa 32 32 ≠ 0 ∨ fieldW sa 29 3 ≠ 1 ∨ fieldW sa 25 4 ≠ 0 ∨ 4 * 2 ^ 20 < fieldW sa 0 25 + 133120 then raise .illegalAddress sa
    else if fieldW sa 0 10 ≠ 0 then raise .misaligned sa
    else if s.c.granted then .ok (((s.setC { s.c with granted := false }).setX d 0).askIdle s.fnode s.pIdx)
    else if arr.leased s.cur then .ok (s.setX d 2)
    else if arr.waiting.any (fun w => w.1 == s.cur) then .error (.wait .lease s)
    else if (match arr.holder with | some h => other h | none => false) || arr.susp.any (fun x => !x.saved && other x.id) || arr.waiting.any (fun w => other w.1) then
      .ok (s.setX d 1)
    else if arr.holder.isNone && arr.waiting.isEmpty && arr.susp.all (fun x => x.saved) && arr.run.isNone then
      let s := s.leaseGrant s.fnode s.pIdx s.cur sa.toNat
      .ok ((s.setC { s.c with granted := false }).setX d 0)
    else
      let s := s.setPol { s.pol with array := { arr with waiting := arr.waiting ++ [(s.cur, sa.toNat)] } }
      .error (.wait .lease (s.askLease s.fnode s.pIdx)))

/-- A command of the context is queued or running in the array. -/
def State.arrBusy (s : State) (id : CtxId) : Bool :=
  let a := (s.polder id.node id.polder).array
  let mine := fun (c : Cmd) => c.id == id
  (a.hiQ ++ a.loQ ++ a.susp.flatMap (fun (x : Susp) => x.hiQ ++ x.loQ)).any mine || (match a.run with | some c => mine c | none => false)

/-- UNLEASE (R307). -/
def execUnlease (d : Reg) (s : State) : Out :=
  finish (.unlease d) s (if s.c.ra then .ok s
    else if !s.pol.array.leased s.cur then .ok (s.setX d 1)
    else if s.arrBusy s.cur then .error (.wait .fence s)
    else .ok ((s.endLease s.cur true).setX d 0))

/-- The word LSTAT reads (R309). -/
def leaseWord (hld susp : Bool) (q hq lq : Nat) (b0 b1 : Bank) (hs ls : Bool) : Nat :=
  hld.toNat * 2 ^ 63 + susp.toNat * 2 ^ 62 + q * 2 ^ 55 + hq * 2 ^ 51 + lq * 2 ^ 47 + b1.flags.toNat * 2 ^ 42 + b0.flags.toNat * 2 ^ 37 +
    b1.rrows * 2 ^ 29 + b0.rrows * 2 ^ 21 + hs.toNat * 2 ^ 19 + ls.toNat * 2 ^ 18

/-- LSTAT (R309): a suspended lease reads the values its header holds. -/
def execLstat (d : Reg) (s : State) : Out :=
  let a := s.pol.array
  writeX (.lstat d) d (BitVec.ofNat 64 (
    if a.holder = some s.cur ∧ !a.ending then leaseWord true false a.quantum a.hiQ.length a.loQ.length a.bank0 a.bank1 a.hstop a.lstop
    else match a.susp.find? (fun (x : Susp) => x.id == s.cur) with
      | none => 0
      | some x =>
        let w := x.header.getD 1 0
        leaseWord false true (fieldN (x.header.getD 0 0) 0 7) x.hiQ.length x.loQ.length
          { Bank.reset with flags := BitVec.ofNat 5 (fieldN w 0 5), rrows := fieldN w 16 8 }
          { Bank.reset with flags := BitVec.ofNat 5 (fieldN w 5 5), rrows := fieldN w 24 8 } x.hstop x.lstop)) s

/-! ## RESUME and CANCEL of an array command (R325), column remap (R302) -/

/-- A lease's halts after one of its stopped commands has left the records: a queue stays halted while another stopped command of it
remains. -/
def State.unhalt (s : State) (node p : Nat) (id : CtxId) : State :=
  let q := s.polder node p
  let rest := (q.engine.recs.map (·.2) ++ q.engine.stopped).filter (fun (r : FaultRec) => r.array && r.cmd.id == id && r.cmd.cgen == (s.ctx id).gen)
  let hi := rest.any (fun r => r.cmd.hi)
  let lo := rest.any (fun r => !r.cmd.hi)
  let a := q.array
  let a := if a.holder = some id then { a with hstop := a.hstop && hi, lstop := a.lstop && lo }
    else { a with susp := a.susp.map (fun (x : Susp) => if x.id = id then { x with hstop := x.hstop && hi, lstop := x.lstop && lo } else x) }
  (s.setArray node p a).enq .arrayCommandStart { node := node, n := p }

/-- A stopped array command goes back to the head of its queue (R325), its table entries claimed afresh. Of a lease that has ended, it has no queue
to go to, and is discarded (log entry 23). -/
def State.arrResume (s : State) (node p k : Nat) (r : FaultRec) : State :=
  let c := r.cmd
  let q := s.polder node p
  if !q.array.leased c.id || (s.ctx c.id).gen != c.cgen then s.setPolder node p { q with engine := q.engine.freeRec k }
  else match q.claim c c.arrClaims with
  | none => s.enq .resumeCommand { node := node, n := p, m := k }
  | some q =>
    let a := q.array
    let a := if a.holder = some c.id then (if c.hi then { a with hiQ := c :: a.hiQ } else { a with loQ := c :: a.loQ })
      else { a with susp := a.susp.map (fun (x : Susp) =>
        if x.id = c.id then (if c.hi then { x with hiQ := c :: x.hiQ } else { x with loQ := c :: x.loQ }) else x) }
    (s.setPolder node p { q with engine := q.engine.freeRec k, array := a }).unhalt node p c.id

/-- RESUME_COMMAND: CTL = RESUME of record `k` (R227). -/
def State.resumeRec (s : State) (node p k : Nat) : State :=
  match tfind (s.polder node p).engine.recs k with
  | none => s
  | some r => if r.array then s.arrResume node p k r else s.engResume node p k r

/-- CANCEL: the command is discarded (R227). -/
def State.cancelRec (s : State) (node p k : Nat) : State :=
  match tfind (s.polder node p).engine.recs k with
  | none => s
  | some r =>
    let s := s.setEngine node p ((s.polder node p).engine.freeRec k)
    if r.array then s.unhalt node p r.cmd.id else s

/-- The spare columns of a polder in service that no logical column uses: physical columns 128 to 131 (R302, R437). -/
def State.spareCols (s : State) (node p : Nat) : List Nat :=
  let a := (s.polder node p).array
  ([128, 129, 130, 131]).filter (fun c => !a.cols.any (fun e => e.2 == c) && !(s.pkg node).retired.contains (3, 132 * p + c))

/-- COLUMN_REMAP: at a command boundary the oldest retired column moves to the lowest spare (R302). Its bytes, words and results follow the
logical column. -/
def State.columnRemap (s : State) (node p : Nat) : State :=
  let a := (s.polder node p).array
  match a.retiring with
  | [] => s
  | j :: r =>
    if a.run.isSome then s.enq .columnRemap { node := node, n := p }
    else match s.spareCols node p with
      | [] => s
      | c :: _ => s.setArray node p { a with cols := tset a.cols j c, spares := a.spares - 1, retiring := r }

end Sys2Proof.Machine
end

