-- ==== Sys2Proof/Machine/Messages.lean ====
section
/-! DEFINITION. Mailboxes, messages, bearing strings and the spillway (R327 to R343). -/

namespace Sys2Proof.Machine
open Sys2Proof

/-! ## Handles and mailboxes (R329, R330) -/

/-- MBOX of a handle. -/
def hMbox (h : Word) : Nat := fieldW h 16 9
/-- GEN of a handle. -/
def hGen (h : Word) : Nat := fieldW h 25 12
/-- SLOT of a handle. -/
def hSlot (h : Word) : Nat := fieldW h 37 4
/-- NODE of a handle. -/
def hNode (h : Word) : Nat := fieldW h 52 12
/-- The package-wide polder of a handle. -/
def hPolder (h : Word) : Nat := fieldW h 49 3 * 32 + fieldW h 44 5

/-- N entries. -/
def Mbox.size (b : Mbox) : Nat := 2 ^ b.log2n
/-- The binding is the one that a handle names (R330). -/
def Mbox.named (b : Mbox) (h : Word) : Bool := b.owner.slot % 16 == hSlot h && b.gen.toNat == hGen h
/-- Entries neither held nor promised (R337). -/
def Mbox.unreserved (b : Mbox) : Nat := b.size - b.held - b.granted
/-- The freed entries that make a batch (R337). -/
def Mbox.batch (b : Mbox) : Nat := min 16 (max 1 (b.size / 4))

/-- The slot manager starts a handler, now or when a slot is free (R331). -/
def State.wantHandler (s : State) (node p m : Nat) (b : Mbox) : State :=
  if b.wants then s.enq .handlerStart { node := node, n := p, m := m } else s

/-! ## Arrival and the spillway (R330, R341, R342) -/

/-- An entry is written at the tail of a ring, its bytes padded with zeros (R327, R330); with a credit of the binding it fills a promised place. -/
def State.ringPut (s : State) (node p m : Nat) (b : Mbox) (src : CtxId) (v : Nat) (credit : Bool) : State :=
  let la := b.ring + b.esize * ((b.head + b.held) % b.size)
  let s := s.spadWrite node p la b.esize v src.node src.polder src.core
  let b := { b with held := b.held + 1, granted := b.granted - credit.toNat, srcs := b.srcs ++ [src] }
  (s.setMbox node p m b).wantHandler node p m b

/-- The bytes of a spillway entry (R341). -/
def spillEntry (h : Word) (src : CtxId) (reason : Nat) (data : Vec) : Nat :=
  h.toNat + (src.node * 2 ^ 52 + src.core * 2 ^ 41 + src.slot * 2 ^ 37) * 2 ^ 64 + reason * 2 ^ 128 + data.toNat * 2 ^ 256

/-- A counter that stays at all ones (R232). -/
def countUp (w : Word) : Word := if w = BitVec.allOnes 64 then w else w + 1

/-- An entry goes to the spillway of its handle's polder: counted, and dropped if the spillway is unbound or full (R342). -/
def State.spill (s : State) (node p : Nat) (h : Word) (src : CtxId) (reason : Nat) (data : Vec) : State :=
  let q := s.polder node p
  let s := s.setPolder node p { q with spillcnt := countUp q.spillcnt }
  match s.mbox node p 511 with
  | none => s
  | some b => if b.size ≤ b.held then s else s.ringPut node p 511 b src (spillEntry h src reason data) false

/-- An entry reaches its polder (R330). It goes to the spillway too where the binding that it left for has ended (R332), or where its credit is of an
ended binding and the ring has no place that is free and unpromised (log entry 51). -/
def State.entryArrives (s : State) (node p : Nat) (h : Word) (src : CtxId) (bytes : Nat) (data : Vec) (mis : Bool) (bind credit : Nat) : State :=
  if mis then s.spill node p h src 2 data
  else match s.mbox node p (hMbox h) with
    | none => s.spill node p h src 1 data
    | some b =>
      if !b.named h ∨ (bind ≠ 0 ∧ bind ≠ b.bind) ∨ (credit ≠ b.bind ∧ b.unreserved = 0) then s.spill node p h src 0 data
      else if bytes = 32 ∧ b.esize < 32 then s.spill node p h src 3 data
      else s.ringPut node p (hMbox h) b src (data.toNat % 2 ^ (8 * bytes)) (credit == b.bind)

/-- A flight that heads for a polder. -/
def Flight.to (f : Flight) (node p : Nat) : Bool :=
  match f with
  | .entry h _ _ _ _ _ _ => hNode h == node && hPolder h == p
  | .creditReq h _ _ _ => hNode h == node && hPolder h == p
  | .grant _ n c _ _ => n == node && c / 8 == p

/-- The first flight of a list that satisfies `f`, and the list without it. -/
def takeFlight (f : Flight → Bool) : List Flight → Option (Flight × List Flight)
  | [] => none
  | x :: r => if f x then some (x, r) else (takeFlight f r).map (fun e => (e.1, x :: e.2))

/-- The oldest flight of a kind for a polder leaves the fabric. -/
def State.takeFlight (s : State) (f : Flight → Bool) : Option (Flight × State) :=
  (Sys2Proof.Machine.takeFlight f s.flights).map (fun e => (e.1, { s with flights := e.2 }))

/-! ## Bearing strings (R20, R29, R30, R339) -/

/-- The walk of `n` bearings; none where it misroutes: off the mesh, into a retired tile, or across a link that is retired or down: a die-to-die link has the
number of the die before it in the ring. -/
def State.walkBearings (s : State) (node : Nat) (w : Nat) (d r c : Nat) : Nat → Option (Nat × Nat × Nat)
  | 0 => some (d, r, c)
  | n + 1 =>
    let b := w % 4
    let gone := (s.pkg node).retired
    if gone.contains (5, linkNo (tileNo d r c) b) then none
    else match stepTile d r c b with
      | none => none
      | some (d', r', c') =>
        if gone.contains (5, tileUnit (tileNo d' r' c')) || (d' != d && s.linkDown node 1 (if b = 1 then d else d')) then none else s.walkBearings node (w / 4) d' r' c' n

/-- The bearing string of an entry of sender `id` misroutes (R339): its walk fails, or ends anywhere but at the tile of the handle's polder. -/
def State.misroutes (s : State) (id : CtxId) (h : Word) (w : BitVec 32) : Bool :=
  let t := polderTile id.polder
  let u := polderTile (hPolder h)
  s.walkBearings id.node (w.toNat / 16) id.die t.1 t.2 (w.toNat % 16) != some (fieldW h 49 3, u.1, u.2)

/-! ## Arrival (R330, R339) -/

/-- MESSAGE_ARRIVAL: the oldest entry on its way to a polder reaches it. Its bearing string is followed over the tiles and links as they are by then (R340). -/
def State.messageArrival (s : State) (node p : Nat) : State :=
  match s.takeFlight (fun f => match f with | .entry .. => f.to node p | _ => false) with
  | some (.entry h src n d w bind credit, s) =>
    s.entryArrives node p h src n d (match w with | some w => s.misroutes src h w | none => false) bind credit
  | _ => s

/-! ## Credits (R337) -/

/-- A batch of credits for a request: at most what is unreserved, 16, and the demand. -/
def Mbox.grantOf (b : Mbox) (demand : Nat) : Nat := min b.unreserved (min 16 demand)

/-- `n` entries are promised; those that no pop has freed since the last batch are taken first, so that no more of the freed ones wait to be returned than
are still unpromised. -/
def Mbox.promise (b : Mbox) (n : Nat) : Mbox := { b with granted := b.granted + n, freed := min b.freed (b.unreserved - n) }

/-- CREDIT_REQUEST: granted, queued, or, for a stale handle, answered with one credit. -/
def State.creditRequest (s : State) (node p : Nat) : State :=
  match s.takeFlight (fun f => match f with | .creditReq .. => f.to node p | _ => false) with
  | some (.creditReq h rn rc d, s) =>
    let go := fun (s : State) (n bind : Nat) =>
      ({ s with flights := s.flights ++ [Flight.grant h rn rc n bind] } : State).enq .creditGrant { node := rn, core := rc }
    match s.mbox node p (hMbox h) with
    | none => go s 1 0
    | some b =>
      if !b.named h then go s 1 0
      else
        let n := b.grantOf d
        if n = 0 then s.setMbox node p (hMbox h) { b with reqs := b.reqs ++ [(rn, rc, d)] }
        else go (s.setMbox node p (hMbox h) (b.promise n)) n b.bind
  | _ => s

/-- An evicted window entry gives its unused credits back to the binding that they are of. -/
def State.creditsUnused (s : State) (e : SendEntry) : State :=
  match s.mbox (hNode e.handle) (hPolder e.handle) (hMbox e.handle) with
  | none => s
  | some b => if b.bind = e.bind then
      (s.setMbox (hNode e.handle) (hPolder e.handle) (hMbox e.handle) { b with granted := b.granted - e.credits, freed := b.freed + e.credits }).enq
        .creditReturn { node := hNode e.handle, n := hPolder e.handle, m := hMbox e.handle, flag := true }
    else s

/-- Credits join an entry of the window. Those of a binding that has ended are no reservation any more, and give way to those of a later one. -/
def SendEntry.join (e : SendEntry) (n bind : Nat) : SendEntry :=
  if e.bind = bind then { e with credits := min 64 (e.credits + n) }
  else if e.credits = 0 ∨ e.bind < bind then { e with credits := min 64 n, bind := bind }
  else e

/-- CREDIT_GRANT: the credits join the core's window, which evicts its least recently used entry when it needs a new one. -/
def State.creditGrant (s : State) (node core : Nat) : State :=
  match s.takeFlight (fun f => match f with | .grant _ n c _ _ => n == node && c == core | _ => false) with
  | some (.grant h _ _ n bind, s) =>
    let q := s.core node core
    match q.sendWin.find? (fun e => e.handle == h) with
    | some e => s.setCore node core { q with sendWin := (q.sendWin.filter (fun x => x.handle != h)) ++ [e.join n bind] }
    | none =>
      let (out, win) := if 64 ≤ q.sendWin.length then (q.sendWin.head?, q.sendWin.drop 1) else (none, q.sendWin)
      let s := s.setCore node core { q with sendWin := win ++ [(⟨h, min 64 n, bind⟩ : SendEntry)] }
      match out with | some e => s.creditsUnused e | none => s
  | _ => s

/-- CREDIT_RETURN: a batch goes to the oldest queued request, once enough entries are free or, with `timed`, 256 cycles after the first. -/
def State.creditReturn (s : State) (node p m : Nat) (timed : Bool) : State :=
  match s.mbox node p m with
  | none => s
  | some b =>
    match b.reqs with
    | [] => s
    | (rn, rc, d) :: rest =>
      let n := b.grantOf d
      if n = 0 ∨ b.freed = 0 ∨ (!timed ∧ b.freed < b.batch) then s
      else
        let h := mkHandle { b.owner with slot := b.owner.slot % 16 } b.gen m
        let b := { b with reqs := rest, granted := b.granted + n, freed := b.freed - n }
        let s := ({ s.setMbox node p m b with flights := s.flights ++ [Flight.grant h rn rc n b.bind] } : State).enq .creditGrant { node := rn, core := rc }
        if rest = [] then s else s.enq .creditReturn { node := node, n := p, m := m, flag := timed }

/-! ## SEND, SENDV, SENDB (R334) -/

/-- Takes one credit for a handle from the core's window; the entry becomes the most recently used. With the binding that the credit is of. -/
def CoreSt.useCredit (q : CoreSt) (h : Word) : Option (CoreSt × Nat) :=
  match q.sendWin.find? (fun e => e.handle == h && e.credits != 0) with
  | none => none
  | some e => some ({ q with sendWin := q.sendWin.filter (fun x => x.handle != h) ++ [{ e with credits := e.credits - 1 }] }, e.bind)

/-- A credit request or its answer for this core and handle is under way. -/
def State.asked (s : State) (h : Word) : Bool :=
  s.flights.any (fun f => match f with
    | .creditReq h' n c _ => h' == h && n == s.fnode && c == s.fcore
    | .grant h' n c _ _ => h' == h && n == s.fnode && c == s.fcore
    | _ => false) ||
  (match s.mbox (hNode h) (hPolder h) (hMbox h) with
    | some b => b.named h && b.reqs.any (fun r => r.1 == s.fnode && r.2.1 == s.fcore)
    | none => false)

/-- The core's sends that wait for a handle, this one included. -/
def State.sendDemand (s : State) (h : Word) : Nat :=
  1 + ((List.range 12).filter (fun j => j != s.cc.slot && (s.ctx { s.cur with slot := j }).sendFor == some h)).length

/-- The handle checks of R334. -/
def handleCheck (h : Word) : Except Stop Unit :=
  if fieldW h 0 16 ≠ 0 ∨ 5 < fieldW h 49 3 ∨ 11 < hSlot h ∨ hMbox h = 511 then raise .mailboxFault h else .ok ()

/-- The node of a handle cannot be reached (R334). -/
def State.deadNode (s : State) (n : Nat) : Bool := s.cutOff s.fnode n || !(s.group.contains n)

/-- The number of the binding that a handle names; 0 where it names none. -/
def State.bindingOf (s : State) (h : Word) : Nat :=
  match s.mbox (hNode h) (hPolder h) (hMbox h) with
  | some b => if b.named h then b.bind else 0
  | none => 0

/-- The sending of an entry (R334): DEAD, a credit used, FULL after the time-out, or a wait for a credit, which each send that begins to wait asks for with
the number of sends then waiting (R337), and asks for again once nothing that it could get is under way. -/
def State.sendMsg (s : State) (d : Reg) (h : Word) (bytes : Nat) (data : Vec) (bearing : Option (BitVec 32)) : Res :=
  if s.deadNode (hNode h) then .ok (s.setX d 2)
  else match s.cc.useCredit h with
    | some (q, credit) =>
      let s := s.setCC q
      let s := { s with flights := s.flights ++ [Flight.entry h s.cur bytes data bearing (s.bindingOf h) credit] }
      .ok ((s.enq .messageArrival { node := hNode h, n := hPolder h }).setX d 0)
    | none =>
      if s.c.expired then .ok (s.setX d 1)
      else
        let asked := s.c.sendFor = some h ∧ s.asked h = true
        let s := s.setC { s.c with sendFor := some h }
        let s := if asked then s else
          ({ s with flights := s.flights ++ [Flight.creditReq h s.fnode s.fcore (s.sendDemand h)] } : State).enq .creditRequest
            { node := hNode h, n := hPolder h }
        .error (.wait .send s)

/-- SEND: 8 bytes. -/
def execSend (d h v : Reg) (s : State) : Out :=
  finish (.send d h v) s (if s.c.ra then .ok s else do
    handleCheck (s.X h)
    s.sendMsg d (s.X h) 8 ((s.X v).zeroExtend 256) none)

/-- The element that a waiting SENDV has read at issue stays fetched, and is not popped before the instruction retires (R236, R334). -/
def Ctx.sendKept (c : Ctx) (before : Ctx) (v : Reg) (x : Vec) : Ctx :=
  match before.portOf v with
  | some p => c.setPort v { p with fetched := if p.fetched.any (fun e => e.1 == p.k) then p.fetched else (p.k, x) :: p.fetched }
  | none => c

/-- SENDV: 32 bytes; a bound read port supplies them by a pop, which a wait leaves undone, but its element read: no fault of it arises in the wait
(R427). -/
def execSendv (d h v : Reg) (s : State) : Out :=
  finish (.sendv d h v) s (if s.c.ra then .ok s else do
    handleCheck (s.X h)
    let (s', x) ← s.readV v
    match s'.sendMsg d (s.X h) 32 x none with
    | .error (.wait w t) => .error (.wait w (t.setC (t.c.sendKept s.c v x)))
    | r => r)

/-- SENDB: 8 bytes along a bearing string, within the package. -/
def execSendb (d h v : Reg) (w : BitVec 32) (s : State) : Out :=
  finish (.sendb d h v w) s (if s.c.ra then .ok s else do
    handleCheck (s.X h)
    if hNode (s.X h) ≠ s.fnode then raise .mailboxFault (s.X h)
    else s.sendMsg d (s.X h) 8 ((s.X v).zeroExtend 256) (some w))

/-- SEND_TIMEOUT: 4,096 cycles without a credit (R334). -/
def State.sendTimeout (s : State) (id : CtxId) : State :=
  let c := s.ctx id
  if c.wait = some .send then s.setCtx id { c with expired := true } else s

/-! ## MPOP, MPOPV, MPEEK (R335) -/

/-- The mailbox that a receiving member names; it must be bound by a context of the issuing core. -/
def State.myMbox (s : State) (x : Word) : Except Stop (Nat × Mbox) :=
  if fieldW x 9 55 ≠ 0 then raise .mailboxFault x
  else match s.mbox s.fnode s.pIdx (fieldW x 0 9) with
    | some b => if b.owner.core = s.fcore then .ok (fieldW x 0 9, b) else raise .mailboxFault x
    | none => raise .mailboxFault x

/-- A pop that has waited goes on with the binding that it waited on; once MFREE has ended that one, it raises MAILBOX_FAULT, whatever has been bound
since (R335). -/
def State.popCheck (s : State) (x : Word) (b : Mbox) : Except Stop Unit :=
  if s.c.wait = some .mailbox ∧ !b.waits.contains s.cur then raise .mailboxFault x else .ok ()

/-- A pop of an empty mailbox waits on its binding. -/
def State.popWait {α : Type} (s : State) (n : Nat) (b : Mbox) : Except Stop α :=
  .error (.wait .mailbox (s.setMbox s.fnode s.pIdx n { b with waits := addOnce b.waits s.cur }))

/-- A destination that a pop would append to faults before the pop waits (R427). -/
def State.appendCheck (s : State) (d : Reg) : Except Stop Unit :=
  if s.c.wait = some .mailbox then .ok ()
  else match s.writeV d 0 false with
    | .error (.trap t) => .error (.trap t)
    | .error (.trapKeep t s') => .error (.trapKeep t s')
    | _ => .ok ()

/-- The head entry leaves the ring: its place is free, and may go to a queued credit request (R337). -/
def State.popped (s : State) (m : Nat) (b : Mbox) : State :=
  let b := { b with head := (b.head + 1) % b.size, held := b.held - 1, freed := b.freed + 1, half := false, srcs := b.srcs.drop 1 }
  let s := s.setMbox s.fnode s.pIdx m b
  if b.reqs = [] then s else s.enq .creditReturn { node := s.fnode, n := s.pIdx, m := m, flag := decide (b.freed < b.batch) }

/-- A pop acquires at the narrowest scope that includes the sender (R343): beyond the core it drops the untracked copies (R151). -/
def State.popAcquire (s : State) (b : Mbox) : State :=
  match b.srcs with
  | x :: _ => if x.node = s.fnode ∧ x.core = s.fcore then s else s.acquire
  | [] => s.acquire

/-- The bytes of a ring entry, of the issuing polder; a lost word raises DATA_LOST (R185). -/
def State.ringRead (s : State) (la n : Nat) : Except Stop Nat :=
  if s.lostWordIn (spadAddr s.fnode s.pIdx la) n then raiseAcc .dataLost (BitVec.ofNat 64 (localVa la)) 0
  else .ok (memRead s.mem (spadAddr s.fnode s.pIdx la) n)

/-- MPOP. -/
def execMpop (d m : Reg) (s : State) : Out :=
  finish (.mpop d m) s (if s.c.ra then .ok s else do
    let (n, b) ← s.myMbox (s.X m)
    s.popCheck (s.X m) b
    if b.esize ≠ 8 then raise .mailboxFault (s.X m)
    else if b.held = 0 then s.popWait n b
    else do
      let v ← s.ringRead (b.ring + 8 * b.head) 8
      .ok (((s.popped n b).popAcquire b).setX d (BitVec.ofNat 64 v)))

/-- MPOPV. -/
def execMpopv (d m : Reg) (s : State) : Out :=
  finish (.mpopv d m) s (if s.c.ra then .ok s else do
    let (n, b) ← s.myMbox (s.X m)
    s.popCheck (s.X m) b
    if b.esize < 32 then raise .mailboxFault (s.X m)
    else if b.held = 0 then do
      s.appendCheck d
      s.popWait n b
    else do
      let v ← s.ringRead (b.ring + b.esize * b.head + (if b.half then 32 else 0)) 32
      let s' ← s.writeV d (BitVec.ofNat 256 v) false
      let s' := if b.esize = 64 ∧ !b.half then s'.setMbox s.fnode s.pIdx n { b with half := true } else s'.popped n b
      .ok (s'.popAcquire b))

/-- MPEEK: never waits; an unbound mailbox reads 0. -/
def execMpeek (d m : Reg) (s : State) : Out :=
  finish (.mpeek d m) s (if s.c.ra then .ok s else
    let x := s.X m
    if fieldW x 9 55 ≠ 0 then raise .mailboxFault x
    else match s.mbox s.fnode s.pIdx (fieldW x 0 9) with
      | none => .ok (s.setX d 0)
      | some b =>
        if b.owner.core ≠ s.fcore then raise .mailboxFault x
        else .ok (s.setX d (BitVec.ofNat 64 (2 ^ 63 + b.handler.isSome.toNat * 2 ^ 13 + b.held % 2 ^ 13))))

/-! ## MBIND, MFREE (R328, R336) -/

/-- `n` bytes of a record that a core reads with type .own, as 8-byte words from an address of alignment `al`. -/
def State.readWords (s : State) (va : Nat) : Nat → Except Stop (State × List Nat)
  | 0 => .ok (s, [])
  | n + 1 => do
    let (s, v) ← s.scalarLoad s.req va 8 reqOwn
    let (s, l) ← s.readWords (va + 8) n
    .ok (s, v :: l)

/-- The alignment of a record, tested where R98 puts it. -/
def recordAlign (va n al : Nat) : Except Stop Unit := do
  let tv := BitVec.ofNat 64 va
  if isAperture va then
    apertureCheck va 0
    spadCheck va (fieldN va 0 32) n al .scalarLoad
  else if !isCanonical va then raiseAcc .pagePermission tv 0
  else if va % al ≠ 0 then raiseAcc .misaligned tv 0
  else .ok ()

/-- The descriptor is malformed (R328), but for its ring's place. -/
def descBad (user : Bool) (w0 w1 w2 w3 : Nat) : Bool :=
  fieldN w0 34 6 != 0 || fieldN w0 32 2 == 3 || fieldN w0 40 8 == 0 || decide (12 < fieldN w0 40 8) || decide (511 < fieldN w0 48 16) ||
    (user && fieldN w0 48 16 == 511) || fieldN w1 0 2 != 0 || w2 != 0 || w3 != 0

/-- The bytes of an entry. -/
def entryBytes (esz : Nat) : Nat := match esz with | 0 => 8 | 1 => 32 | _ => 64

/-- A ring at `la` of `n` bytes leaves M-space, is misaligned, or meets the ring of another bound mailbox of the polder. -/
def Polder.ringBad (q : Polder) (la n : Nat) : Bool :=
  fieldN la 29 3 != 2 || la % 64 != 0 || decide (4 * 2 ^ 20 < fieldN la 0 29 + n) ||
    q.mboxes.any (fun e => decide (la < e.2.ring + e.2.esize * e.2.size ∧ e.2.ring < la + n))

/-- MBIND. -/
def execMbind (d a : Reg) (s : State) : Out :=
  finish (.mbind d a) s (if s.c.ra then .ok s else do
    recordAlign (s.X a).toNat 32 32
    let (s, l) ← s.readWords (s.X a).toNat 4
    let w0 := l.getD 0 0
    let m := fieldN w0 48 9
    let e := entryBytes (fieldN w0 32 2)
    let k := fieldN w0 40 8
    let la := fieldN w0 0 32
    if descBad (!s.sys) w0 (l.getD 1 0) (l.getD 2 0) (l.getD 3 0) then .ok (s.setX d 2)
    else if (s.mbox s.fnode s.pIdx m).isSome then .ok (s.setX d 1)
    else if s.pol.ringBad la (e * 2 ^ k) then .ok (s.setX d 2)
    else
      let b : Mbox := ⟨s.cur, s.c.gen, la, e, k, BitVec.ofNat 64 (l.getD 1 0), 0, 0, 0, 0, false, [], none, [], [], s.pol.binds + 1⟩
      .ok (((s.setPol { s.pol with binds := s.pol.binds + 1 }).setMbox s.fnode s.pIdx m b).setX d (mkHandle s.cur s.c.gen m)))

/-- MFREE: by the owner, or by the system context. -/
def execMfree (d m : Reg) (s : State) : Out :=
  finish (.mfree d m) s (if s.c.ra then .ok s else
    let n := fieldW (s.X m) 0 9
    match s.mbox s.fnode s.pIdx n with
    | some b => if b.owner = s.cur ∨ s.sys then .ok ((s.unbind s.fnode s.pIdx n).setX d 0) else .ok (s.setX d 1)
    | none => .ok (s.setX d (if s.sys then 0 else 1)))

/-- HANDLER_START (R331): a waiting start that finds a slot begins; it is put off while no slot is free. -/
def State.handlerStart (s : State) (node p m : Nat) : State :=
  match s.mbox node p m with
  | none => s
  | some b =>
    if b.wants && (s.freeSlot node b.owner.core).isNone then s.enq .handlerStart { node := node, n := p, m := m } else s.handlerNow node p m b

end Sys2Proof.Machine
end

