-- ==== Sys2Proof/Machine/Collective.lean ====
section
/-! DEFINITION. Collectives (R344 to R353) and clone plans (R354, R355): layout records, the exchange that a pair derives, the chunks
that a die's collective engine sends, reductions in member order, landing; and the commands that a fault record may hold. -/

namespace Sys2Proof.Machine
open Sys2Proof

/-! ## Layout records (R344, R345) -/

/-- A record that is not malformed: element code, axis sizes, bit-axis mode, dimensions as (MAP, EXT), bits as (MB, POS). -/
structure Layout where
  ety : Nat
  axes : List Nat
  bitax : Bool
  dims : List (Nat × Nat)
  bits : List (Bool × Nat)
deriving DecidableEq, Repr, Inhabited

/-- The product of a list. -/
def prodOf (l : List Nat) : Nat := l.foldl (· * ·) 1

/-- A dimension's map is one of R344's, over an axis that the record has; a sharded extent divides evenly. -/
def dimOk (axes : List Nat) (d : Nat × Nat) : Bool :=
  d.2 != 0 && (d.1 == 4 || (decide (d.1 % 8 < axes.length) && (d.1 / 8 == 1 && decide (d.1 < 12) || decide (d.1 < 4) && d.2 % axes.getD d.1 1 == 0)))

/-- No axis shards two dimensions, or both shards one and sums another (R345). -/
def axisOk (dims : List (Nat × Nat)) (a : Nat) : Bool :=
  let sh := (dims.filter (fun d => d.1 == a)).length
  decide (sh ≤ 1) && (sh == 0 || !dims.any (fun d => d.1 == 8 + a))

/-- The positions of a list are exactly 0 to n - 1. -/
def exactly (l : List Nat) (n : Nat) : Bool := l.length == n && (List.range n).all (fun i => l.contains i)

/-- A 64-byte record as a layout for a communicator of `size` members; none where it is malformed. -/
def layoutOf (r size : Nat) : Option Layout :=
  let nax := fieldN r 8 8
  let nd := fieldN r 16 8
  let bitax := fieldN r 24 1 == 1
  let sizes := (List.range 4).map (fun i => fieldN r (64 + 16 * i) 16)
  let axes := sizes.take nax
  let dims := (List.range nd).map (fun i => (fieldN r (128 + 32 * i + 28) 4, fieldN r (128 + 32 * i) 28))
  let bits := (List.range nd).map (fun i => (fieldN r (128 + 8 * i + 7) 1 == 1, fieldN r (128 + 8 * i) 6))
  let head := fieldN r 4 4 == 0 && fieldN r 0 4 != 0 && decide (1 ≤ nax ∧ nax ≤ 4) && fieldN r 25 7 == 0 && fieldN r 32 32 == 0 &&
    sizes.all (fun a => a != 0) && (sizes.drop nax).all (fun a => a == 1) && prodOf axes == size
  if !head then none
  else if bitax then
    let k := Nat.log2 size
    let ok := decide (1 ≤ nd ∧ nd ≤ 48) && (List.range nd).all (fun i => fieldN r (128 + 8 * i + 6) 1 == 0) &&
      fieldN r (128 + 8 * nd) (384 - 8 * nd) == 0 && 2 ^ k == size && decide (k ≤ nd) &&
      exactly ((bits.filter (fun b => b.1)).map (fun b => b.2)) k && exactly ((bits.filter (fun b => !b.1)).map (fun b => b.2)) (nd - k)
    if ok then some ⟨fieldN r 0 4, axes, true, [], bits⟩ else none
  else
    let ok := decide (1 ≤ nd ∧ nd ≤ 8) && fieldN r (128 + 32 * nd) (256 - 32 * nd) == 0 && fieldN r 384 128 == 0 &&
      dims.all (dimOk axes) && (List.range nax).all (axisOk dims)
    if ok then some ⟨fieldN r 0 4, axes, false, dims, []⟩ else none

/-- A member's coordinates, axis 0 outermost. -/
def coordsOf : List Nat → Nat → List Nat
  | [], _ => []
  | a :: r, m => (m / prodOf r % a) :: coordsOf r m

/-- The member at given coordinates. -/
def memberAt (axes coords : List Nat) : Nat := (axes.zip coords).foldl (fun m e => m * e.1 + e.2) 0

/-- The local extent and first global index of each dimension for a member. -/
def Layout.shard (l : Layout) (m : Nat) : List (Nat × Nat) :=
  let c := coordsOf l.axes m
  l.dims.map (fun d => if d.1 < 4 then (d.2 / l.axes.getD d.1 1, c.getD d.1 0 * (d.2 / l.axes.getD d.1 1)) else (d.2, 0))

/-- The elements of a member's shard. -/
def Layout.count (l : Layout) (m : Nat) : Nat :=
  if l.bitax then 2 ^ (l.bits.filter (fun b => !b.1)).length else prodOf ((l.shard m).map (·.1))

/-- The global indices of local element `li` of a shard, dimension 0 innermost. -/
def globalOf : List (Nat × Nat) → Nat → List Nat
  | [], _ => []
  | (le, lo) :: r, li => (lo + li % le) :: globalOf r (li / le)

/-- The local index of an element in a shard, if the shard holds it. -/
def localOf : List (Nat × Nat) → List Nat → Option Nat
  | (le, lo) :: r, g :: gs => if lo ≤ g ∧ g < lo + le then (localOf r gs).map (fun x => (g - lo) + le * x) else none
  | _, _ => some 0

/-! ## The exchange of a pair (R346) -/

/-- An exchange: the axes that it runs over, whether it reduces, the two axes of a permutation. -/
structure Exchange where
  axes : List Nat
  red : Bool
  perm : Option (Nat × Nat)
deriving DecidableEq, Repr, Inhabited

/-- The exchange that a pair of records derives; none where R346's table has no row for it. -/
def deriveExchange (s d : Layout) : Option Exchange :=
  if s.ety ≠ d.ety ∨ s.axes ≠ d.axes ∨ s.bitax ≠ d.bitax ∨ s.bits.length ≠ d.bits.length ∨ s.dims.map (·.2) ≠ d.dims.map (·.2) then none
  else if s.bitax then some ⟨[], false, none⟩
  else
    match ((s.dims.map (·.1)).zip (d.dims.map (·.1))).filter (fun e => e.1 != e.2) with
    | [] => some ⟨[], false, none⟩
    | [(x, y)] =>
      if x = 4 ∧ y < 4 then some ⟨[], false, none⟩
      else if x < 4 ∧ y = 4 then some ⟨[x], false, none⟩
      else if 8 ≤ x ∧ (y = x - 8 ∨ y = 4) then some ⟨[x - 8], true, none⟩
      else if x < 4 ∧ y < 4 ∧ s.axes.getD x 1 = s.axes.getD y 1 then some ⟨[x, y], false, some (x, y)⟩
      else none
    | [(x, y), (u, v)] =>
      if x < 4 ∧ y = 4 ∧ u = 4 ∧ v = x then some ⟨[x], false, none⟩
      else if u < 4 ∧ v = 4 ∧ x = 4 ∧ y = u then some ⟨[u], false, none⟩
      else none
    | _ => none

/-- The two lists exchanged at two places. -/
def swapAt (l : List Nat) (a b : Nat) : List Nat := (l.set a (l.getD b 0)).set b (l.getD a 0)

/-- Where element `li` of a bit-axis destination shard comes from. -/
def bitSource (s d : Layout) (m li : Nat) : Nat × Nat :=
  let g := (d.bits.map (fun b => fieldN (if b.1 then m else li) b.2 1))
  let put := fun (mb : Bool) => (s.bits.zip g).foldl (fun n e => if e.1.1 = mb then n + e.2 * 2 ^ e.1.2 else n) 0
  (put true, put false)

/-- The contributions to element `li` of member `m`'s destination shard, in member order: the member and the local index there. -/
def sourcesOf (s d : Layout) (x : Exchange) (size m li : Nat) : List (Nat × Nat) :=
  if s.bitax then [bitSource s d m li]
  else match x.perm with
  | some (a, b) => [(memberAt s.axes (swapAt (coordsOf s.axes m) a b), li)]
  | none =>
    let g := globalOf (d.shard m) li
    let cm := coordsOf s.axes m
    let group := (List.range size).filter (fun k =>
      let ck := coordsOf s.axes k
      (List.range s.axes.length).all (fun a => x.axes.contains a || ck.getD a 0 == cm.getD a 0))
    let all := group.filterMap (fun k => (localOf (s.shard k) g).map (fun j => (k, j)))
    if x.red then all else all.take 1

/-- The members that a digest covers alike (R352). -/
def CollMem.digest (m : CollMem) : Nat × Nat × Nat × Nat := (m.rec1, m.rec2, m.red, m.ety)

/-! ## Reductions (R349) -/

/-- The sum of two floating-point elements (R349): where it overflows in E4M3, the NaN keeps the sum's sign. -/
def redSum (t : ETy) (x y : Nat) : Nat :=
  let a := fpAdd t Rnd.default x y
  if a.2 &&& fOF = 0 then a.1 else (fpAdd t { Rnd.default with nanp := 1 } x y).1

/-- r := op(r, c) for one element that is not complex. -/
def redPart (t : ETy) (red x y : Nat) : Nat :=
  match red with
  | 1 => if t.isFloat then redSum t x y else t.wrap (t.toInt x + t.toInt y)
  | 2 => if t.isFloat then (fpMinMax t Rnd.default true x y).1 else if t.toInt x < t.toInt y then y else x
  | 3 => if t.isFloat then (fpMinMax t Rnd.default false x y).1 else if t.toInt y < t.toInt x then y else x
  | _ => x ||| y

/-- r := op(r, c) for one element; complex ones part by part. -/
def redEl (t : ETy) (red x y : Nat) : Nat :=
  if t = .c32 then redPart .fp32 red (x % 2 ^ 32) (y % 2 ^ 32) + redPart .fp32 red (x / 2 ^ 32) (y / 2 ^ 32) * 2 ^ 32 else redPart t red x y

/-- The element that contributions reduce to, in member order. -/
def reduceAll (t : ETy) (red : Nat) : List Nat → Nat
  | [] => 0
  | x :: r => r.foldl (redEl t red) x

/-! ## ECOLL at issue (R350 to R352) -/

/-- The ranges that an ECOLL claims. -/
def collClaims (c : Cmd) (sb db : Nat) : List Claim := [c.vaSrc c.g[1].toNat sb, c.vaDst c.g[2].toNat db]

/-- The element size of a command's records. -/
def elBytes (ety : Nat) : Nat := ((ETy.ofCode ety).getD .fp32).width / 8

/-- What an ECOLL is once its checks have passed. -/
structure CollIssue where
  mem : CollMem
  size : Nat
  sb : Nat
  db : Nat
deriving DecidableEq, Repr, Inhabited

/-- An operand that ECOLL may not have: R183 lets the collective engine reach no scratchpad but for barriers, so that a scratchpad address, with a
window (R184) or without, is ENGINE_FAULT at issue. -/
def collAperture (x : Word) : Bool := isAperture x.toNat

/-- The checks of R351 on the two records, in order; the shards are compared in the spaces that R195 compares ranges in. -/
def State.collCheck (s : State) (c : Cmd) (a b : Reg) (r1 r2 : Nat) : Except Stop CollIssue := do
  let g0 := c.g[0]
  let n := fieldW g0 0 8
  let red := fieldW g0 8 4
  let m := s.comm c.id.node n
  let rank := if m.kind = 1 then c.id.die else m.rank
  engCheck (fieldW g0 16 16 != 0 || decide (64 ≤ n) || !m.en || (m.kind == 0 && m.die != c.id.die)) 0
  match layoutOf r1 m.size, layoutOf r2 m.size with
  | none, _ => engineFault (0x100 + a.toNat)
  | some _, none => engineFault (0x100 + b.toNat)
  | some x, some y =>
    match deriveExchange x y with
    | none => engineFault (0x100 + a.toNat)
    | some e =>
      let t := (ETy.ofCode x.ety).getD .fp32
      engCheck ((if e.red then red == 0 || decide (4 < red) || (red == 4 && t.isFloat) else red != 0) || fieldW g0 12 4 != x.ety ||
        decide (m.size ≤ rank)) 0
      let z := t.width / 8
      let sb := z * x.count rank
      let db := z * y.count rank
      engCheck (c.g[1].toNat % z != 0 || collAperture c.g[1]) 1
      engCheck (c.g[2].toNat % z != 0 || collAperture c.g[2]) 2
      let p := vaRange c.id.polder c.g[1].toNat sb
      let q := vaRange c.id.polder c.g[2].toNat db
      engCheck (rangesMeet p.1 p.2 q.1 q.2) 1
      barCheck (fieldW g0 32 32)
      .ok ⟨⟨rank, c, r1, r2, red, x.ety, m.chunk, m.prio, 0, [], 0, 0, 0⟩, m.size, sb, db⟩

/-- The collective that (kind, home, communicator, k) names. -/
def Coll.named (x : Coll) (kind home comm k : Nat) : Bool := x.kind == kind && x.home == home && x.comm == comm && x.k == k

/-- The member of a collective with a rank. -/
def Coll.member (x : Coll) (rank : Nat) : Option CollMem := x.mems.find? (fun m => m.rank == rank)

/-- Replaces a member. -/
def Coll.setMember (x : Coll) (m : CollMem) : Coll := { x with mems := x.mems.map (fun y => if y.rank = m.rank then m else y) }

/-- Replaces a collective in the list, or adds it. -/
def putColl (x : Coll) : List Coll → List Coll
  | [] => [x]
  | y :: r => if y.named x.kind x.home x.comm x.k then x :: r else y :: putColl x r

/-- Replaces a collective. -/
def State.putColl (s : State) (x : Coll) : State := { s with colls := Sys2Proof.Machine.putColl x s.colls }

/-- The engine of a die has a chunk to send. -/
def State.wakeEngine (s : State) (c : Cmd) : State := s.enq .chunkDepart { node := c.id.node, n := c.id.die }

/-- The member's own part in earlier collectives of the communicator. -/
def State.mine (s : State) (kind home comm : Nat) (c : Cmd) : List (Nat × CollMem) :=
  s.colls.filterMap (fun x => if x.kind = kind ∧ x.home = home ∧ x.comm = comm then
    ((x.mems.find? (fun m => m.cmd.id.node == c.id.node && (kind == 0 || m.cmd.id.die == c.id.die))).map (fun m => (x.k, m))) else none)

/-- The ECOLL joins its collective (R352). A stopped one has retired (R194), and does not count among the eight. -/
def State.collIssue (s : State) (i : CollIssue) : Res :=
  let c := i.mem.cmd
  let n := fieldW c.g[0] 0 8
  let m := s.comm c.id.node n
  let who := if m.kind = 1 then c.id.die else 0
  let k := tget 0 m.issued who
  let home := if m.kind = 1 then c.id.node else m.group
  let old := (s.colls.find? (fun x => x.named m.kind home n k)).getD ⟨m.kind, home, n, k, i.size, [], false⟩
  if (old.member i.mem.rank).isSome then engineFault 0
  else if 8 ≤ ((s.mine m.kind home n c).filter (fun e => e.2.st == 0)).length then .error (.wait .engineQueue s)
  else match (s.polder c.id.node c.id.polder).claim c (collClaims c i.sb i.db) with
    | none => .error (.wait .engineQueue s)
    | some q =>
      let s := { s.setPolder c.id.node c.id.polder q with nextCmd := s.nextCmd + 1 }
      let s := s.setComm c.id.node n { m with issued := tset m.issued who (k + 1) }
      .ok ((s.putColl { old with mems := old.mems ++ [i.mem] }).wakeEngine c)

/-- ECOLL (R350 to R352). -/
def execEcoll (a b : Reg) (s : State) : Out :=
  finish (.ecoll a b) s (if s.c.ra then .ok s else do
    let c := s.mkCmd 8 false false (s.X a) (s.X b)
    let (s, r1) ← s.readRecord c.a.toNat
    let (s, r2) ← s.readRecord c.b.toNat
    let i ← s.collCheck c a b r1 r2
    s.collIssue i)

/-! ## Stops (R347, R352, R226) -/

/-- A member stops: its ECOLL leaves the engine for the fault records. -/
def State.stopMember (s : State) (x : Coll) (m : CollMem) (cause : Cause) (fva : Word) : State :=
  if m.st ≠ 0 then s else
  let y := (s.colls.find? (fun y => y.named x.kind x.home x.comm x.k)).getD x
  (s.putColl (y.setMember { m with st := 2 })).stopCmd m.cmd.id.node m.cmd.id.polder m.cmd cause fva 0 false

/-- Every member of a collective stops with ENGINE_FAULT. -/
def State.stopColl (s : State) (x : Coll) : State := x.mems.foldl (fun s m => s.stopMember x m .engineFault 0) s

/-- A collective whose members are all done, or given up, is over. -/
def State.collOver (s : State) (x : Coll) : State :=
  if x.size ≤ x.mems.length ∧ x.mems.all (fun m => m.st == 1 || m.st == 3) then
    { s with colls := s.colls.filter (fun y => !y.named x.kind x.home x.comm x.k) } else s

/-- A member of the collective is fenced by another's package (R352). -/
def State.collFenced (s : State) (x : Coll) : Bool :=
  x.mems.any (fun m => m.st == 0 && (s.group.any (fun n => (s.pkg m.cmd.id.node).fenced.contains n &&
    (let c := s.comm n x.comm; x.kind == 0 && ((c.en && c.kind == 0 && c.group == x.home) || x.mems.any (fun o => o.cmd.id.node == n))))))

/-- COMMUNICATOR_DISABLE: the pending collectives in which the package takes part stop (R347). -/
def State.commDisable (s : State) (node c : Nat) : State :=
  (s.colls.filter (fun x => x.comm == c && x.mems.any (fun m => m.cmd.id.node == node && m.st == 0))).foldl (fun s x => s.stopColl x) s

/-! ## Chunks (R348) -/

/-- The source shard of a member, as (its layouts, bytes). -/
def CollMem.layouts (m : CollMem) (size : Nat) : Option (Layout × Layout × Exchange) :=
  match layoutOf m.rec1 size, layoutOf m.rec2 size with
  | some x, some y => (deriveExchange x y).map (fun e => (x, y, e))
  | _, _ => none

/-- The bytes of a member's source shard. -/
def CollMem.srcBytes (m : CollMem) (size : Nat) : Nat :=
  match layoutOf m.rec1 size with | some x => elBytes m.ety * x.count m.rank | none => 0
/-- The bytes of its destination shard. -/
def CollMem.dstBytes (m : CollMem) (size : Nat) : Nat :=
  match layoutOf m.rec2 size with | some y => elBytes m.ety * y.count m.rank | none => 0

/-- The member has a chunk that has not left. -/
def CollMem.ready (m : CollMem) (size : Nat) : Bool := m.st == 0 && decide (m.sent * m.chunk < m.srcBytes size)

/-- What an engine may send next: a member's chunk, or a line of a clone plan; with its priority and communicator (64: none). -/
inductive Ready where
  | chunk (x : Coll) (m : CollMem)
  | line (c : Clone)
deriving DecidableEq, Repr, Inhabited

/-- Priority and communicator of a candidate. -/
def Ready.rank : Ready → Nat × Nat
  | .chunk x m => (m.prio, x.comm)
  | .line _ => (0, 64)

/-- Every hop of a die's paths holds room on a candidate's channels: communicator `c` has channels 2c and 2c + 1, ECLONE the 64th pair (R348). -/
def State.chanOpen (s : State) (node d c : Nat) : Bool := !(s.die node d).chanFull.contains c

/-- The candidates of a die's engine: what is left to send, and holds a reservation at every hop. -/
def State.readyList (s : State) (node d : Nat) : List Ready :=
  (s.colls.flatMap (fun (x : Coll) => (x.mems.filter (fun (m : CollMem) => m.cmd.id.node == node && m.cmd.id.die == d && m.ready x.size)).map (fun m => Ready.chunk x m)) ++
    (s.clones.filter (fun (c : Clone) => c.cmd.hw == 0 && c.cmd.id.node == node && c.cmd.id.die == d)).map Ready.line).filter (fun r => s.chanOpen node d r.rank.2)

/-- The choice of R348: the highest priority, then the first communicator in rotating order after the last chosen. -/
def chooseReady (last : Nat) (l : List Ready) : Option Ready :=
  let key := fun (r : Ready) => r.rank.1 * 128 + 127 - (r.rank.2 + 130 - last - 1) % 65
  l.foldl (fun (b : Option Ready) r => match b with
    | none => some r
    | some x => if key x < key r then some r else b) none

/-- The event that reduces a collective (R349): at the switch, or at the home shards. -/
def Coll.reduceEv (x : Coll) : Instr := if x.kind = 1 then .homeReduce else .switchReduce
/-- Its operands. -/
def Coll.ev (x : Coll) : Ev := { n := x.comm, m := x.k, pa := x.home, flag := x.kind == 1 }

/-- The collective that an event names. -/
def State.collOf (s : State) (e : Ev) : Option Coll := s.colls.find? (fun x => x.named e.flag.toNat e.pa e.n e.m)

/-- Every chunk of the member's source has left. -/
def CollMem.sentAll (m : CollMem) (size : Nat) : Bool := decide (m.srcBytes size ≤ m.sent * m.chunk)

/-- The member's last byte has landed and its last chunk has left: its ranges are free, and its package counts the collective when its members are
done. -/
def State.memberDone (s : State) (x : Coll) (m : CollMem) : State :=
  let c := m.cmd
  let x := x.setMember { m with st := 1 }
  let s := s.putColl x
  let s := s.freeCmd c.id.node c.id.polder c.no
  let here := x.mems.filter (fun o => o.cmd.id.node == c.id.node)
  let s := if here.all (fun o => o.st == 1) then
      s.setComm c.id.node x.comm { s.comm c.id.node x.comm with done := (s.comm c.id.node x.comm).done + 1 } else s
  s.collOver x

/-- What is left of a member's shards, once `sent` chunks have left and `landed` bytes have landed, touches `n` bytes at a VA (R102, R208). -/
def collTouches (x : Coll) (m : CollMem) (sent landed va n : Nat) : Bool :=
  let src := fieldW m.cmd.g[1] 0 56
  let dst := fieldW m.cmd.g[2] 0 56
  decide (src + sent * m.chunk < va + n ∧ va < src + m.srcBytes x.size) || decide (dst + landed < va + n ∧ va < dst + m.dstBytes x.size)

/-- A member's next chunk leaves: its source elements are read and travel. -/
def State.sendChunk (s : State) (x : Coll) (m : CollMem) : State :=
  let c := m.cmd
  let n := min m.chunk (m.srcBytes x.size - m.sent * m.chunk)
  match s.engRead c 0 ((c.g[1] + BitVec.ofNat 64 (m.sent * m.chunk)).toNat) n with
  | .ok (s, v) =>
    let s := (s.onTime c.no).pinsDone c.no (collTouches x m (m.sent + 1) m.landed)
    let z := elBytes m.ety
    let m := { m with sent := m.sent + 1, data := m.data ++ elems v (8 * z) (n / z) }
    let x := x.setMember m
    if m.sentAll x.size && decide (m.dstBytes x.size ≤ m.landed) then (s.memberDone x m).wakeEngine c
    else ((s.putColl x).enq x.reduceEv x.ev).wakeEngine c
  | r => match unitFault s r with
    | some (t, s) => ((s.noteFail t).stopMember x m t.cause t.place).wakeEngine c
    | none => (s.waited r c.no).wakeEngine c

/-! ## Clone plans (R354, R355) -/

/-- A clone plan's version word: 0 where the plan has none. -/
def State.stepWord (s : State) (k : Clone) : Except Stop (State × Nat) := if k.stepAddr = 0 then .ok (s, 0) else s.peerRead k.cmd k.stepAddr 8

/-- One turn of a clone plan: its start, or one line; with its last line the second reading of the version word and STATUS, which precede
the barrier's last piece. The plan is over when nothing is returned. -/
def State.cloneTurn (s : State) (k : Clone) : Except Stop (State × Option Clone) :=
  let c := k.cmd
  if !k.started then do
    let s ← s.engWrite c 0 (c.a.toNat + 24) 4 0
    let (s, v) ← s.keeping c.req (s.stepWord k)
    let s ← s.keeping c.req (s.engWrite c 0 (c.a.toNat + 16) 8 v)
    .ok (s, some { k with started := true, stepVal := v })
  else match k.ents[k.i]? with
  | none => .ok (s, none)
  | some (src, dst, n) => do
    let (s, v) ← s.peerRead c (src + k.off) 64
    s.keeping c.req (s.hbmCheck c.req (dst + k.off) (dst + k.off) 1)
    let s := (s.recall (dst + k.off) none).hbmWrite (dst + k.off) 64 v
    let next := if k.off + 64 < n then { k with off := k.off + 64 } else { k with i := k.i + 1, off := 0 }
    let next := { next with cmd := { c with pos := c.pos + 1 } }
    if next.i < k.ents.length then .ok (s.barPiece c.id.node c.id.polder c.bar 64 6, some next)
    else
      let (s, w) ← s.keeping c.req (s.stepWord k)
      let s ← s.keeping c.req (s.engWrite c 0 (c.a.toNat + 24) 4 (if w = k.stepVal then 1 else 2))
      .ok (s.barPiece c.id.node c.id.polder c.bar 64 6, none)

/-- Replaces a clone plan, or removes it. -/
def State.putClone (s : State) (no : Nat) (k : Option Clone) : State :=
  { s with clones := s.clones.filterMap (fun x => if x.cmd.no = no then k else some x) }

/-- The peer is fenced, or not in the fabric group. -/
def State.deadPeer (s : State) (c : Cmd) (n : Nat) : Bool := s.cutOff c.id.node n || !(s.group.contains n)

/-- A turn of a clone plan at its engine: a lost peer, a turn, or a stop, after which it is kept for a RESUME. -/
def State.cloneStep (s : State) (k : Clone) : State :=
  let c := k.cmd
  let turn := if s.deadPeer c k.peer then
      (s.engWrite c 0 (c.a.toNat + 24) 4 3).map (fun s => (s.barFault c.id.node c.id.polder c.bar, none))
    else s.cloneTurn k
  match turn with
    | .ok (s, some k') => ((s.onTime c.no).putClone c.no (some k')).wakeEngine c
    | .ok (s, none) => ((s.putClone c.no none).unpin c.no).wakeEngine c
    | r => match unitFault s r with
      | some (t, s) =>
        (((s.noteFail t).putClone c.no (some { k with cmd := { c with hw := 3 } })).stopCmd c.id.node c.id.polder c t.cause t.place c.pos false).wakeEngine c
      | none => (s.waited r c.no).wakeEngine c

/-- A region entry's words as (SRC, DST, BYTES), if they are well formed. -/
def regionOf (node peer : Nat) (l : List Nat) : Option (Nat × Nat × Nat) :=
  let src := l.getD 0 0; let dst := l.getD 1 0; let n := l.getD 2 0
  let ok := fun (a own : Nat) => a % 64 == 0 && decide (a < 2 ^ 58) && paClass a == 0 && paNode a == own
  if ok src peer && ok dst node && n % 64 == 0 && decide (64 ≤ n ∧ n ≤ 2 ^ 36) && l.getD 3 0 == 0 then some (src, dst, n) else none

/-- The region entries of a plan. -/
def State.readRegions (s : State) (a : Reg) (peer va : Nat) : Nat → Except Stop (State × List (Nat × Nat × Nat))
  | 0 => .ok (s, [])
  | n + 1 => do
    let (s, l) ← s.readWords va 4
    match regionOf s.fnode peer l with
    | none => engineFault (0x100 + a.toNat)
    | some e =>
      let (s, r) ← s.readRegions a peer (va + 32) n
      .ok (s, e :: r)

/-- ECLONE (R354, R355). A range table records global ranges by virtual address (R195); a plan names physical ones, and claims none
(log entry 23). -/
def execEclone (a : Reg) (s : State) : Out :=
  finish (.eclone a) s (if s.c.ra then .ok s else
    if !s.sys then raise .privilege (wordOf (0x00000A9C + a.toNat * 2 ^ 13)) else do
    let c := s.mkCmd 10 false false (s.X a) 0
    let (s, l) ← s.readWords c.a.toNat 8
    let w0 := l.getD 0 0
    let peer := fieldN w0 0 12
    let n := fieldN w0 16 16
    engCheck (fieldW c.g[0] 0 32 != 0) 0
    engCheck (fieldN w0 12 4 != 0 || n == 0 || decide (1024 < n) || fieldN w0 32 32 != 0 || fieldN (l.getD 3 0) 32 32 != 0 ||
      (l.drop 4).any (fun w => w != 0) || decide (2 ^ 58 ≤ l.getD 1 0) || (l.getD 1 0 != 0 && paNode (l.getD 1 0) != peer)) (0x100 + a.toNat)
    let (s, es) ← s.readRegions a peer (c.a.toNat + 64) n
    barCheck (fieldW c.g[0] 32 32)
    let k : Clone := ⟨c, peer, l.getD 1 0, 0, es, 0, 0, false⟩
    .ok (({ s with clones := s.clones ++ [k], nextCmd := s.nextCmd + 1 } : State).wakeEngine c))

/-- The buffers of a communicator's channels fill, or drain, at some hop of a die's paths (R348). -/
def State.chanSet (s : State) (node d c : Nat) (full : Bool) : State :=
  let l := (s.die node d).chanFull.filter (fun x => x != c)
  (s.setDie node d { s.die node d with chanFull := if full then c :: l else l }).enq .chunkDepart { node := node, n := d }

/-- CHUNK_DEPART: the engine's choice of the moment leaves (R348). -/
def State.chunkDepart (s : State) (node d : Nat) : State :=
  match chooseReady (s.die node d).lastComm (s.readyList node d) with
  | none => s
  | some r =>
    let s := s.setDie node d { s.die node d with lastComm := r.rank.2 }
    match r with
    | .chunk x m => if s.collFenced x then s.stopColl x else s.sendChunk x m
    | .line c => s.cloneStep c

/-- SWITCH_REDUCE, HOME_REDUCE: with every member in, differing digests or a fenced member stop the collective; else its results may land. -/
def State.collReduce (s : State) (e : Ev) : State :=
  match s.collOf e with
  | none => s
  | some x =>
    if x.mems.length < x.size ∨ x.reduced then s
    else if s.collFenced x || x.mems.any (fun m => m.digest != (x.mems.headD default).digest) then s.stopColl x
    else x.mems.foldl (fun s m => s.enq .collectiveLanding { x.ev with core := m.rank }) (s.putColl { x with reduced := true })

/-! ## Landing (R352, R353) -/

/-- An element of a member's destination shard: every contribution to it has left (R349). -/
def Coll.element (x : Coll) (m : CollMem) (s d : Layout) (e : Exchange) (li : Nat) : Option Nat :=
  let l := (sourcesOf s d e x.size m.rank li).map (fun p => match x.member p.1 with | some o => o.data[p.2]? | none => none)
  if l.any (fun v => v.isNone) then none else some (reduceAll ((ETy.ofCode m.ety).getD .fp32) m.red (l.map (fun v => v.getD 0)))

/-- A member's earlier collective of the communicator has not ended (R353). -/
def State.earlierOpen (s : State) (x : Coll) (m : CollMem) : Bool :=
  (s.mine x.kind x.home x.comm m.cmd).any (fun e => decide (e.1 < x.k) && (e.2.st == 0 || e.2.st == 2))

/-- The next chunk of a member's destination shard lands, and is counted unless an earlier run counted it. -/
def State.landChunk (s : State) (x : Coll) (m : CollMem) (ls ld : Layout) (ex : Exchange) : State :=
  let c := m.cmd
  let z := elBytes m.ety
  let total := m.dstBytes x.size
  let n := min m.chunk (total - m.landed)
  let again := fun (s : State) => s.enq .collectiveLanding { x.ev with core := m.rank }
  let els := (List.range (n / z)).map (fun j => x.element m ls ld ex (m.landed / z + j))
  if els.any (fun v => v.isNone) then again s
  else match s.engWrite c 0 ((c.g[2] + BitVec.ofNat 64 m.landed).toNat) n (packEls (8 * z) (els.map (fun v => v.getD 0))) with
    | .ok s =>
      let s := (s.onTime c.no).pinsDone c.no (collTouches x m m.sent (m.landed + n))
      let fresh := m.landed + n - max m.landed (min m.counted (m.landed + n))
      let s := if fresh = 0 then s else s.barPiece c.id.node c.id.polder c.bar fresh (if x.kind = 1 then 4 else 6)
      let m := { m with landed := m.landed + n, counted := max m.counted (m.landed + n) }
      if m.landed < total then again (s.putColl (x.setMember m))
      else if m.sentAll x.size then s.memberDone x m else s.putColl (x.setMember m)
    | r => match unitFault s r with
      | some (t, s) => (s.noteFail t).stopMember x m t.cause t.place
      | none => again (s.waited r c.no)

/-- COLLECTIVE_LANDING: the next chunk of the member that the event names. -/
def State.collLanding (s : State) (e : Ev) : State :=
  match s.collOf e with
  | none => s
  | some x =>
    match x.member e.core with
    | none => s
    | some m =>
      if !x.reduced || m.st != 0 then s
      else if s.collFenced x then s.stopColl x
      else if s.earlierOpen x m then s.enq .collectiveLanding e
      else match m.layouts x.size with
        | some (ls, ld, ex) => s.landChunk x m ls ld ex
        | none => s

/-! ## RESUME and CANCEL (R227) -/

/-- A stopped ECOLL restarts from its first chunk (R352). -/
def State.collResume (s : State) (node p k : Nat) (r : FaultRec) : State :=
  match s.colls.find? (fun x => x.mems.any (fun m => m.cmd.no == r.cmd.no)) with
  | none => s
  | some x =>
    match x.mems.find? (fun m => m.cmd.no == r.cmd.no) with
    | none => s
    | some m =>
      match (s.polder node p).claim r.cmd (collClaims r.cmd (m.srcBytes x.size) (m.dstBytes x.size)) with
      | none => s.enq .resumeCommand { node := node, n := p, m := k }
      | some q =>
        let s := s.setPolder node p { q with engine := q.engine.freeRec k }
        let x := x.setMember { m with st := 0, sent := 0, data := [], landed := 0 }
        ((s.putColl x).enq .collectiveLanding { x.ev with core := m.rank }).wakeEngine r.cmd

/-- A stopped clone plan goes on from the line it stopped at. -/
def State.cloneResume (s : State) (node p k : Nat) (r : FaultRec) : State :=
  match s.clones.find? (fun c => c.cmd.no == r.cmd.no) with
  | none => s
  | some c =>
    let s := s.setEngine node p ((s.polder node p).engine.freeRec k)
    (s.putClone r.cmd.no (some { c with cmd := { c.cmd with hw := 0 } })).wakeEngine r.cmd

/-- RESUME_COMMAND for the command of any engine. -/
def State.resumeAny (s : State) (node p k : Nat) : State :=
  match tfind (s.polder node p).engine.recs k with
  | none => s
  | some r =>
    if r.cmd.cmd = 8 then s.collResume node p k r
    else if r.cmd.cmd = 10 then s.cloneResume node p k r
    else s.resumeRec node p k

/-- CANCEL for the command of any engine: the member has given its collective up, and sends and lands nothing more. -/
def State.cancelAny (s : State) (node p k : Nat) : State :=
  match tfind (s.polder node p).engine.recs k with
  | none => s
  | some r =>
    let s := s.cancelRec node p k
    let s := if r.cmd.cmd = 10 then s.putClone r.cmd.no none else s
    if r.cmd.cmd ≠ 8 then s else
    match s.colls.find? (fun x => x.mems.any (fun m => m.cmd.no == r.cmd.no)) with
    | none => s
    | some x =>
      let x := { x with mems := x.mems.map (fun m => if m.cmd.no = r.cmd.no then { m with st := 3 } else m) }
      (s.putColl x).collOver x

/-! ## Meanings of the events -/

/-- CHUNK_DEPART; with `flag` the event tells the engine instead that the buffers of channel pair `m` fill (`w` not 0) or drain (log entry 50). -/
def execChunkDepart (s : State) : Out :=
  .next (if s.ev.flag then s.chanSet s.ev.node s.ev.n s.ev.m (s.ev.w != 0) else s.chunkDepart s.ev.node s.ev.n)
/-- SWITCH_REDUCE. -/
def execSwitchReduce (s : State) : Out := .next (if s.ev.flag then s else s.collReduce s.ev)
/-- HOME_REDUCE. -/
def execHomeReduce (s : State) : Out := .next (if s.ev.flag then s.collReduce s.ev else s)
/-- COLLECTIVE_LANDING. -/
def execCollectiveLanding (s : State) : Out := .next (s.collLanding s.ev)
/-- COMMUNICATOR_WRITE: a write of communicator `n`'s word 0. -/
def execCommunicatorWrite (s : State) : Out := .next (s.commWrite s.ev.node s.ev.n s.ev.w.toNat)
/-- COMMUNICATOR_DISABLE. -/
def execCommunicatorDisable (s : State) : Out := .next (s.commDisable s.ev.node s.ev.n)

end Sys2Proof.Machine
end

