-- ==== Sys2Proof/Machine/Sched.lean ====
section
/-! DEFINITION. Launch queues, front-ends, the scheduler and the save engine (R356 to R370, R374, R381, R382, R430). -/

namespace Sys2Proof.Machine
open Sys2Proof

/-! ## Accesses of a front-end and of the save engine -/

/-- A front-end's requests: the queue's address space, at system privilege (log entry 20). -/
def feReq (node die : Nat) (asid : BitVec 16) (ptroot : Word) : Req := 
  { id := ⟨node, 256 * die, 11⟩, asid := asid, ptroot := ptroot, user := false, ra := false, engine := true, cmd := none }

/-- A read of `n` bytes. -/
def State.feRead (s : State) (q : Req) (va n : Nat) : Except Stop (State × Nat) := s.engReadG q va n .engineRead (n / 64 + 2)

/-- A write inside one line, of type .unc. -/
def State.feStore (s : State) (q : Req) (va n v : Nat) : Except Stop State := do
  if isAperture va then
    apertureCheck va 1
    spadCheck va (fieldN va 0 32) n 1 .engineWrite
    .ok (s.spadWrite q.id.node (aperturePolder va q.id.polder) (laPlain (fieldN va 0 32)) n v q.id.node q.id.polder 0x7FF)
  else if !isCanonical va then raiseAcc .pagePermission (BitVec.ofNat 64 va) 1
  else s.storeBelow q va n v reqUnc false

/-- A write of `n` bytes, line by line. -/
def State.feWrite (s : State) (q : Req) (va n v : Nat) : Nat → Except Stop State
  | 0 => .ok s
  | fuel + 1 => do
    let k := min n (64 - va % 64)
    let s ← s.feStore q va k (v % 256 ^ k)
    if n ≤ k then .ok s else s.feWrite q (va + k) (n - k) (v / 256 ^ k) fuel

/-- A write whose fault has no stated fate: it is dropped (log entry 21); a line that cannot be served yet makes the writer wait. -/
def State.fePut (s : State) (q : Req) (va n v : Nat) : Except Stop State :=
  match s.feWrite q va n v (n / 64 + 2) with
  | .error (.wait w t) => .error (.wait w t)
  | .error (.trap t) => .ok (s.noteFail t)
  | .error (.trapKeep t s) => .ok (s.noteFail t)
  | .ok s => .ok s

/-! ## Launch records (R356, R357, R359, R374) -/

/-- A byte of a record. -/
def recByte (r i : Nat) : Nat := fieldN r (8 * i) 8

/-- W. -/
def Launch.w (l : Launch) : Nat := l.widths.foldl (· + ·) 0
/-- W − S(j): how far the identifier is shifted to show fields 0 to j. -/
def Launch.shift (l : Launch) (j : Nat) : Nat := l.w - (l.widths.take (j + 1)).foldl (· + ·) 0
/-- The level whose fields a polder group shares (R358). -/
def Launch.polLevel (l : Launch) (j : Nat) : Nat := if j + 1 < l.widths.length then j + 1 else j

/-- A byte range of a space, if it is not empty. -/
def rangeOf (space lo n : Nat) : List (Nat × Nat × Nat) := if n = 0 then [] else [(space, lo, lo + n)]

/-- The launch of a record, with the fields of its control block (0 where there is none). -/
def launchOf (q : Nat) (x : Queue) (r lcb lcbVa : Nat) : Launch where
  queue := q
  asid := x.asid
  ptroot := x.ptroot &&& 0x03FFFFFFFFFF0000
  entry := BitVec.ofNat 64 r
  widths := (List.range (min 6 (fieldN (recByte r 14) 0 3))).map (fun i => recByte r (8 + i))
  prio := fieldN (recByte r 14) 4 3
  place := if recByte r 15 = 255 then none else some (recByte r 15)
  colev := if recByte r 16 = 255 then none else some (recByte r 16)
  nsem := fieldN (recByte r 17) 4 4
  helpers := fieldN (recByte r 17) 0 4
  phasers := recByte r 18
  ranges := rangeOf 0 (fieldN r 192 32) (fieldN r 224 32) ++ rangeOf 1 (fieldN r 256 32) (fieldN r 288 32) ++
    rangeOf 2 (fieldN r 320 32) (fieldN r 352 32) ++ rangeOf 3 (fieldN r 160 16) (fieldN r 176 16)
  semlist := BitVec.ofNat 64 (fieldN r 384 64)
  lcb := BitVec.ofNat 64 lcbVa
  args := (List.range 8).map (fun i => BitVec.ofNat 64 (fieldN r (512 + 64 * i) 64))
  semaddr := BitVec.ofNat 64 lcb
  doneval := BitVec.ofNat 64 (fieldN lcb 64 64)
  abortval := BitVec.ofNat 64 (fieldN lcb 128 64)
  savebase := BitVec.ofNat 64 (fieldN lcb 192 64)
  stage := .polling
  next := 0
  ndone := 0
  nabort := 0
  killed := none
  aborted := false
  dieOf := []
  polderOf := []
  resident := []
  saved := []

/-- A co-residence group can be resident at once (R359). -/
def Launch.fits (l : Launch) : Bool :=
  match l.colev with
  | none => true
  | some c =>
    let n := l.shift c
    decide (2 ^ n ≤ 1536) && (match l.place with
      | none => true
      | some j =>
        let a := l.shift j
        let b := l.shift (l.polLevel j)
        decide (2 ^ (n - a) ≤ 6 ∧ 2 ^ (min n a - b) ≤ 32 ∧ 2 ^ min n b ≤ 8))

/-- A rule of R356 is broken, or R359 cannot be satisfied (R374). -/
def recordBad (l : Launch) (r : Nat) : Bool :=
  let nf := fieldN (recByte r 14) 0 3
  let lv := fun (o : Nat) => recByte r o != 255 && decide (nf ≤ recByte r o)
  let out := fun (o size : Nat) => decide (size < fieldN r o 32 + fieldN r (o + 32) 32)
  fieldN r 0 2 != 0 || fieldN (recByte r 14) 7 1 != 0 || fieldN (recByte r 14) 3 1 != 0 || recByte r 19 != 0 || decide (6 < nf) ||
    (List.range 6).any (fun i => decide (63 < recByte r (8 + i)) || (decide (nf ≤ i) && recByte r (8 + i) != 0)) || decide (64 < l.w) ||
    lv 15 || lv 16 || decide (4 < l.nsem) || decide (10 < l.helpers) || decide (64 < l.phasers) ||
    decide (1024 < fieldN r 160 16 + fieldN r 176 16) || out 192 (spaceSize 0) || out 256 (spaceSize 1) || out 320 (spaceSize 2) ||
    (l.nsem != 0 && fieldN r 384 4 != 0) || fieldN r 448 6 != 0 || !l.fits

/-! ## Completion (R365, R366, R368) -/

/-- The requester of a launch's front-end. -/
def State.launchReq (s : State) (node : Nat) (l : Launch) : Req := feReq node (s.queue node l.queue).fedie l.asid l.ptroot

/-- The control block's final words, then the semaphore (R368). -/
def State.finishLaunch (s : State) (node : Nat) (l : Launch) (status : Nat) : Except Stop State :=
  if l.lcb = 0 then .ok s else do
    let q := s.launchReq node l
    let a := l.lcb.toNat
    let s ← s.fePut q (a + 40) 8 (l.ndone % 2 ^ 64)
    let s ← s.fePut q (a + 48) 8 (min l.nabort (2 ^ 64 - 1))
    let s ← s.fePut q (a + 56) 8 (match l.killed with | some w => w.toNat | none => 0)
    let s ← s.fePut q (a + 32) 8 status
    if l.semaddr = 0 ∨ l.semaddr.toNat % 8 ≠ 0 then .ok s
    else s.fePut q l.semaddr.toNat 8 (if status = 1 then l.doneval.toNat else l.abortval.toNat)

/-- A port still holds a store of a context of the package whose life has ended. -/
def State.deadStores (s : State) (node : Nat) : Bool :=
  s.polders.any (fun e => e.2.portQ.any (fun w => w.id.node == node && w.cgen != (s.ctx w.id).gen))

/-- Step 1 of R368: every store and landing of ended contexts is performed at sys scope. HBM has them already; the ports must have applied theirs,
and the package's dirty pool lines are written back to their devices. -/
def State.performAll (s : State) (node : Nat) : Option State :=
  let p := s.pkg node
  if s.deadStores node then none
  else some ((p.poolDirty.map (·.1) ++ p.poolSent.map (·.1)).foldl (fun s l => s.poolClean node l) s)

/-- Forgets a launch. -/
def State.dropLaunch (s : State) (node id : Nat) : State :=
  s.setPkg node { s.pkg node with launches := tdel (s.pkg node).launches id }

/-- A near-memory operation of a context's life has still to be applied (R71, R368). -/
def State.openNm (s : State) (id : CtxId) (gen : BitVec 12) : Bool := s.nmOps.any (fun o => o.id == id && o.cgen == gen)

/-- The commands of the queue's terminated contexts have completed or stopped, and their near-memory operations are applied. -/
def State.dyingDone (s : State) (node q : Nat) : Bool := !((s.queue node q).dying.any (fun d => s.openCmdsOf d.1 d.2 || s.openNm d.1 d.2))

/-- LAUNCH_COMPLETE. -/
def State.launchComplete (s : State) (node id : Nat) : State :=
  let again := s.enq .launchComplete { node := node, n := id }
  match s.launch? node id with
  | none => s
  | some l =>
    if !l.finished ∨ (s.queue node l.queue).st = .aborting then s
    else if !s.dyingDone node l.queue then again
    else match s.performAll node with
      | none => again
      | some s =>
        match s.finishLaunch node l (if l.nabort = 0 then 1 else 4) with
        | .error _ => again
        | .ok s => s.dropLaunch node id

/-! ## Front-ends (R363, R364, R374) -/

/-- Record `n` of a queue with its control block, wherever the record places it; where LCB is 0 there is none (R366). -/
def State.readLaunch (s : State) (node q n : Nat) : Except Stop (State × Nat × Launch) := do
  let x := s.queue node q
  let rq := feReq node x.fedie x.asid (x.ptroot &&& 0x03FFFFFFFFFF0000)
  let (s, r) ← s.feRead rq ((x.base + BitVec.ofNat 64 (128 * (n % 2 ^ x.log2n))).toNat) 128
  let lcb := fieldN r 448 64
  if lcb = 0 then .ok (s, r, launchOf q x r 0 0)
  else
    let (s, b) ← s.feRead rq lcb 64
    .ok (s, r, launchOf q x r b lcb)

/-- A record's launch is rejected: nothing of it runs, and HEAD moves on (R374). -/
def State.reject (s : State) (node : Nat) (l : Launch) : Except Stop State := do
  let s ← s.finishLaunch node { l with nabort := l.total } 3
  let x := s.queue node l.queue
  .ok ((s.setQueue node l.queue { x with head := x.head + 1, cur := none }).enq .recordTake { node := node, n := l.queue })

/-- A queue in RUN has a record to take (R363). -/
def Queue.waiting (x : Queue) : Bool := x.st == .run && x.cur.isNone && x.head != x.tail

/-- The number of the front-end that a queue names, among the package's 96. -/
def Queue.frontEnd (x : Queue) : Nat := 16 * x.fedie + x.fe

/-- The queue that the front-end of queue `q` serves next: among those that name it and wait, the first in rotation after the one it served last
(R362; before any, queue 0 comes first). -/
def State.feNext (s : State) (node q : Nat) : Nat :=
  let f := (s.queue node q).frontEnd
  let last := tget 63 (s.pkg node).feLast f
  (((List.range 64).map (fun i => (last + 1 + i) % 64)).find? (fun j => (s.queue node j).waiting && (s.queue node j).frontEnd == f)).getD q

/-- The front-end of a queue has served it. -/
def State.feServed (s : State) (node q : Nat) : State :=
  let p := s.pkg node
  s.setPkg node { p with feLast := tset p.feLast (s.queue node q).frontEnd q }

/-- A queue's record is taken (R363). -/
def State.takeRecord (s : State) (node q : Nat) : State :=
  let x := s.queue node q
  let again := s.enq .recordTake { node := node, n := q }
  if !x.waiting then s
  else match s.readLaunch node q x.head.toNat with
    | .error (.wait _ _) => again
    | .error (.trap t) => ((s.noteFail t).feServed node q).setQueue node q { x with st := .stopped, err := t.cause.code }
    | .error (.trapKeep t s) => ((s.noteFail t).feServed node q).setQueue node q { x with st := .stopped, err := t.cause.code }
    | .ok (s, r, l) =>
      let s := s.feServed node q
      if recordBad l r then (match s.reject node l with | .ok s => s | .error _ => again)
      else match (if l.lcb = 0 then .ok s else s.fePut (s.launchReq node l) (l.lcb.toNat + 32) 4 0) with
        | .error _ => again
        | .ok s =>
          let p := s.pkg node
          let s := s.setPkg node { p with launches := tset p.launches p.nextLaunch l, nextLaunch := p.nextLaunch + 1 }
          (s.setQueue node q { s.queue node q with cur := some p.nextLaunch }).enq .semaphoreRound { node := node, n := q }

/-- RECORD_TAKE: the front-end that queue `q` names takes the next record in rotation; where that is another queue's, `q` waits its turn (R362). -/
def State.recordTake (s : State) (node q : Nat) : State :=
  let j := s.feNext node q
  if j = q then s.takeRecord node q else (s.takeRecord node j).enq .recordTake { node := node, n := q }

/-- `word OP VALUE` (R364). -/
def semHolds (op w v : Nat) : Bool :=
  match op with
  | 0 => w == v | 1 => w != v | 2 => decide (v ≤ w) | 3 => decide (w < v) | 4 => decide (signedN v 64 ≤ signedN w 64)
  | _ => decide (signedN w 64 < signedN v 64)

/-- A round: whether every condition held; none where one is malformed. -/
def State.semRead (s : State) (q : Req) (va : Nat) : Nat → Except Stop (State × Option Bool)
  | 0 => .ok (s, some true)
  | n + 1 => do
    let (s, c) ← s.feRead q va 16
    if 5 < fieldN c 0 3 then .ok (s, none)
    else
      let (s, w) ← s.feRead q (fieldN c 3 61 * 8) 8
      let (s, r) ← s.semRead q (va + 16) n
      .ok (s, r.map (fun b => b && semHolds (fieldN c 0 3) w (fieldN c 64 64)))

/-- SEMAPHORE_ROUND. -/
def State.semRound (s : State) (node q : Nat) : State :=
  let x := s.queue node q
  let again := s.enq .semaphoreRound { node := node, n := q }
  match x.cur with
  | none => s
  | some id =>
    match s.launch? node id with
    | none => s
    | some l =>
      let out := fun (s : State) (err : Nat) =>
        match s.reject node l with
        | .ok s => (s.setQueue node q { s.queue node q with err := if err = 0 then (s.queue node q).err else err }).dropLaunch node id
        | .error _ => again
      if x.st ≠ .run ∨ l.stage ≠ .polling then s
      else match s.semRead (s.launchReq node l) l.semlist.toNat l.nsem with
        | .error (.wait _ _) => again
        | .error (.trap t) => out (s.noteFail t) t.cause.code
        | .error (.trapKeep t s) => out (s.noteFail t) t.cause.code
        | .ok (s, none) => out s 0
        | .ok (s, some false) => s.enq .semaphoreRound { node := node, n := q }
        | .ok (s, some true) =>
          let s := s.setLaunch node id { l with stage := .dispatching }
          (s.setQueue node q { s.queue node q with nextwid := 0 }).enq .dispatch { node := node }

/-! ## Placement (R24, R358, R367) -/

/-- The launch's items that are resident or saved: core and identifier. -/
def Launch.live (l : Launch) : List (Nat × Nat) :=
  l.resident.map (fun r => (r.1, r.2.toNat)) ++ l.saved.map (fun x => (x.core, x.item.wid.toNat))

/-- The bindings that still stand: a group is bound until its last item has completed (R358). -/
def Launch.bound (l : Launch) (t : Tab Nat Nat) (sh : Nat) : Tab Nat Nat :=
  t.filter (fun e => l.live.any (fun x => x.2 / 2 ^ sh == e.1) || decide (l.next < (e.1 + 1) * 2 ^ sh))

/-- The group of items that go together (R359). -/
def Launch.group (l : Launch) (wid : Nat) : Nat := match l.colev with | some c => wid / 2 ^ l.shift c | none => wid

/-- The phasers of a polder that are reserved or in use, with the items of the cores `gone` taken away: a live phaser of an item that is
not resident stays in use. -/
def State.phUsed (s : State) (node p : Nat) (gone : List Nat) : Nat :=
  let cores := ((List.range 8).map (fun j => p * 8 + j)).filter (fun k => !gone.contains k)
  let res := cores.foldl (fun n k => n + (match (s.core node k).item with | some it => it.phasers | none => 0)) 0
  let here := fun (f : Phaser) => cores.any (fun k => match (s.core node k).item with
    | some it => f.item == (k, it.launch, it.wid)
    | none => false)
  res + ((s.polder node p).phasers.filter (fun e => e.2.live && !here e.2)).length

/-- The live phasers of a saved item. -/
def State.phKept (s : State) (node : Nat) (x : SavedItem) : Nat :=
  ((s.polder node (x.core / 8)).phasers.filter (fun e => e.2.live && e.2.item == (x.core, x.item.launch, x.item.wid))).length

/-- Two launches' ranges meet. -/
def rangesClash (a b : List (Nat × Nat × Nat)) : Bool :=
  a.any (fun x => b.any (fun y => x.1 == y.1 && decide (x.2.1 < y.2.2 ∧ y.2.1 < x.2.2)))

/-- The launch's ranges in a polder are free, or its own already (R24). -/
def State.rangesFree (s : State) (node id p : Nat) (l : Launch) : Bool :=
  (s.pkg node).launches.all (fun e => e.1 == id || !(e.2.live.any (fun x => x.1 / 8 == p)) || !rangesClash l.ranges e.2.ranges)

/-- The core runs no item, and its polder is not withdrawn (R437). -/
def State.coreFree (s : State) (node k : Nat) (gone : List Nat) : Bool :=
  (gone.contains k || ((s.core node k).item.isNone && (s.ctx ⟨node, k, 0⟩).st.vacant)) && !((s.pkg node).withdrawn.contains (k / 8))

/-- A placement in the making: bindings, and cores taken with their items. -/
structure Placing where
  dies : Tab Nat Nat
  pols : Tab Nat Nat
  taken : List (Nat × Nat)
deriving DecidableEq, Repr, Inhabited

/-- A binding table allows place `v` for group `g`: bound there, or unbound with the place not bound to another group. -/
def bindOk (t : Tab Nat Nat) (g v : Nat) : Bool := match tfind t g with | some x => x == v | none => !t.any (fun e => e.2 == v)

/-- A polder group of another launch is bound to the polder: no other group takes it meanwhile (R358). -/
def State.polderBound (s : State) (node id p : Nat) : Bool :=
  (s.pkg node).launches.any (fun e => e.1 != id && (match e.2.place with
    | none => false
    | some j => (e.2.bound e.2.polderOf (e.2.shift (e.2.polLevel j))).any (fun b => b.2 == p)))

/-- A core that an item may take (R367). -/
def State.coreFits (s : State) (node id : Nat) (l : Launch) (gone : List Nat) (w : Nat) (pl : Placing) (k : Nat) : Bool :=
  let p := k / 8
  let new := (pl.taken.filter (fun x => x.1 / 8 == p)).length
  s.coreFree node k gone && !pl.taken.any (fun x => x.1 == k) && s.rangesFree node id p l &&
    decide (s.phUsed node p gone + (new + 1) * l.phasers ≤ 64) &&
    (match l.place with
      | none => true
      | some j => bindOk pl.dies (w / 2 ^ l.shift j) (k / 256) && bindOk pl.pols (w / 2 ^ l.shift (l.polLevel j)) p && !s.polderBound node id p)

/-- The placement with item `w` on core `k`. -/
def Placing.take (pl : Placing) (l : Launch) (w k : Nat) : Placing :=
  match l.place with
  | none => { pl with taken := pl.taken ++ [(k, w)] }
  | some j => ⟨tset pl.dies (w / 2 ^ l.shift j) (k / 256), tset pl.pols (w / 2 ^ l.shift (l.polLevel j)) (k / 8), pl.taken ++ [(k, w)]⟩

/-- Every item of a list is placed on one of the cores: each on the first that it may take. -/
def State.placeOn (s : State) (node id : Nat) (l : Launch) (gone cores : List Nat) : List Nat → Placing → Option Placing
  | [], pl => some pl
  | w :: r, pl =>
    match cores.find? (s.coreFits node id l gone w pl) with
    | none => none
    | some k => s.placeOn node id l gone cores r (pl.take l w k)

/-- The items of one die group go to a die: each polder group to the first polder of it that takes the whole group. -/
def State.placeDie (s : State) (node id : Nat) (l : Launch) (gone : List Nat) (hint : Nat) (die : Nat) (gs : List (List Nat)) (pl : Placing) :
    Option Placing :=
  let own := if hint / 256 = die then [hint / 8] else []
  gs.foldlM (fun pl g => (own ++ (List.range 32).map (fun j => die * 32 + j)).findSome? (fun p =>
    s.placeOn node id l gone ((if hint / 8 = p then [hint] else []) ++ (List.range 8).map (fun j => p * 8 + j)) g pl)) pl

/-- Every item of a list is placed, if that can be done (R358, R367): items without placement on any cores; else each die group on the first die that
takes the whole of it. The core `hint`, its polder and its die come first. Unbound die groups are alike, and so are unbound polder groups, so
that the first that fits will do. -/
def State.placeAll (s : State) (node id : Nat) (l : Launch) (gone : List Nat) (hint : Nat) (ws : List Nat) (pl : Placing) : Option Placing :=
  match l.place with
  | none => s.placeOn node id l gone (hint :: List.range 1536) ws pl
  | some j =>
    let same := fun (lv : Nat) (a b : Nat) => a / 2 ^ l.shift lv == b / 2 ^ l.shift lv
    (ws.splitBy (same j)).foldlM (fun pl g => (hint / 256 :: List.range 6).findSome? (fun d =>
      s.placeDie node id l gone hint d (g.splitBy (same (l.polLevel j))) pl)) pl

/-- The bindings that a launch's placement starts from. -/
def Launch.placing (l : Launch) : Placing :=
  match l.place with
  | none => ⟨[], [], []⟩
  | some j => ⟨l.bound l.dieOf (l.shift j), l.bound l.polderOf (l.shift (l.polLevel j)), []⟩

/-! ## Candidates and priority (R367) -/

/-- What waits for cores: the next group of a launch being dispatched, or a saved group. -/
inductive Cand where
  | fresh (id : Nat) (l : Launch) (wids : List Nat)
  | back (id : Nat) (l : Launch) (its : List SavedItem)
deriving DecidableEq, Repr, Inhabited

/-- The launch of a candidate. -/
def Cand.launch : Cand → Launch
  | .fresh _ l _ => l
  | .back _ l _ => l

/-- The order of R367 as one number: less is sooner. -/
def Cand.key (last : Nat) (c : Cand) : Nat :=
  let of := fun (id : Nat) (l : Launch) (b : Nat) => (((7 - l.prio) * 2 + b) * 64 + (l.queue + 63 - last) % 64) * 2 ^ 64 + id
  match c with
  | .fresh id l _ => of id l 1
  | .back id l _ => of id l 0

/-- Insertion by that order. -/
def insertCand (last : Nat) (c : Cand) : List Cand → List Cand
  | [] => [c]
  | d :: r => if c.key last ≤ d.key last then c :: d :: r else d :: insertCand last c r

/-- The saved groups of a launch. -/
def savedGroups (l : Launch) : List SavedItem → List (List SavedItem)
  | [] => []
  | x :: r =>
    let g := l.group x.item.wid.toNat
    let rest := savedGroups l r
    if r.any (fun y => l.group y.item.wid.toNat == g) then rest.map (fun t => if t.any (fun y => l.group y.item.wid.toNat == g) then x :: t else t)
    else [x] :: rest

/-- The next group of a launch that its queue is dispatching. -/
def Launch.nextGroup (l : Launch) : List Nat :=
  let n := match l.colev with | some c => 2 ^ l.shift c | none => 1
  (List.range n).map (fun i => l.next + i)

/-- Everything that waits in a package, in R367's order. -/
def State.cands (s : State) (node : Nat) : List Cand :=
  let p := s.pkg node
  let all := p.launches.flatMap (fun e =>
    let l := e.2
    let x := s.queue node l.queue
    (if l.stage = .dispatching ∧ x.st = .run ∧ x.cur = some e.1 ∧ l.next < l.total then [Cand.fresh e.1 l l.nextGroup] else []) ++
      (savedGroups l l.saved).map (fun g => Cand.back e.1 l g))
  all.foldr (insertCand p.lastQueue) []

/-- A saved group can come back: its cores are free, and its phasers (R369). -/
def State.backFits (s : State) (node : Nat) (gone : List Nat) (its : List SavedItem) : Bool :=
  its.all (fun x => s.coreFree node x.core gone &&
    (let mine := its.filter (fun y => y.core / 8 == x.core / 8)
     decide (s.phUsed node (x.core / 8) gone + mine.foldl (fun n y => n + (y.item.phasers - s.phKept node y)) 0 ≤ 64)))

/-- The candidate can have its cores, with those of `gone` free. -/
def State.candFits (s : State) (node hint : Nat) (gone : List Nat) (c : Cand) : Bool :=
  match c with
  | .fresh id l ws => (s.placeAll node id l gone hint ws l.placing).isSome
  | .back _ _ its => s.backFits node gone its

/-! ## Dispatch (R367, R23) -/

/-- The eight argument words in x1 to x8. -/
def argRegs (args : List Word) : Vector Word 32 :=
  Vector.ofFn (fun (i : Fin 32) => if 1 ≤ i.val ∧ i.val ≤ 8 then args.getD (i.val - 1) 0 else 0)

/-- An item starts on a core: slot 0 as R23 and R367 set it up. Its launch's conditions were read as acquires at sys scope (R364), so that the core's
untracked copies are dropped (R151). -/
def State.startItem (s : State) (node id : Nat) (l : Launch) (k w : Nat) : State :=
  let cid : CtxId := ⟨node, k, 0⟩
  let old := s.ctx cid
  let s := s.setCtx cid { Ctx.reset with x := argRegs l.args, pc := l.entry, asid := l.asid, ptroot := l.ptroot, st := .ready,
                                         gen := old.gen, lastEnd := old.lastEnd, seq := old.seq, pending := old.pending }
  let q := (s.core node k).forget s.clock (fun x => x.st == .untracked)
  s.setCore node k { q with item := some ⟨id, BitVec.ofNat 64 w, l.helpers, l.phasers, l.phasers, s.stepNo⟩ }

/-- A group becomes resident in one step; NEXTWID follows, and HEAD when the last item has been dispatched (R363). -/
def State.dispatchGroup (s : State) (node id : Nat) (l : Launch) (pl : Placing) : State :=
  let s := pl.taken.foldl (fun s e => s.startItem node id l e.1 e.2) s
  let next := l.next + pl.taken.length
  let all := decide (l.total ≤ next)
  let s := s.setLaunch node id { l with next := next, dieOf := pl.dies, polderOf := pl.pols,
                                        resident := l.resident ++ pl.taken.map (fun e => (e.1, BitVec.ofNat 64 e.2)),
                                        stage := if all then .dispatched else l.stage }
  let s := s.setPkg node { s.pkg node with lastQueue := l.queue }
  let x := s.queue node l.queue
  let x := { x with nextwid := BitVec.ofNat 64 next }
  let s := if all then (s.setQueue node l.queue { x with cur := none, head := x.head + 1 }).enq .recordTake { node := node, n := l.queue }
    else s.setQueue node l.queue x
  s.enq .dispatch { node := node }

/-- A group of resident items that a candidate may displace (R369): its priority, its latest dispatch, its cores. -/
structure Victim where
  prio : Nat
  order : Nat
  cores : List Nat
deriving DecidableEq, Repr, Inhabited

/-- The resident groups that may be pre-empted for priority `p`. -/
def State.victims (s : State) (node p : Nat) : List Victim :=
  (s.pkg node).launches.flatMap (fun e =>
    let l := e.2
    if p ≤ l.prio ∨ l.savebase = 0 then [] else
    l.resident.map (fun r =>
      let g := (l.resident.filter (fun t => l.group t.2.toNat == l.group r.2.toNat)).map (·.1)
      ⟨l.prio, g.foldl (fun n k => max n (match (s.core node k).item with | some it => it.order | none => 0)) 0, g⟩))

/-- The victim of R369: lowest priority, then most recently dispatched, among those whose removal frees what the candidate needs. -/
def State.victimFor (s : State) (node hint : Nat) (c : Cand) : Option Victim :=
  let l := (s.victims node c.launch.prio).filter (fun v => s.candFits node hint v.cores c)
  l.foldl (fun (b : Option Victim) v => match b with
    | none => some v
    | some x => if v.prio < x.prio ∨ (v.prio = x.prio ∧ x.order < v.order) then some v else b) none

/-- The candidates that no free core serves and that come before the first one that is served. -/
def State.blocked (s : State) (node hint : Nat) : List Cand := (s.cands node).takeWhile (fun c => !s.candFits node hint [] c)

/-- DISPATCH: the first candidate that can be served starts, or comes back; an earlier one asks for a pre-emption. A package in reset dispatches
nothing (R445). -/
def State.dispatch (s : State) (node hint : Nat) : State :=
  if !(s.pkg node).live then s else
  let fit := (s.cands node).find? (s.candFits node hint [])
  let want := (s.blocked node hint).any (fun c => (s.victimFor node hint c).isSome)
  let s := if want && !s.work.any (fun e => e.1 == .preempt && e.2.node == node) then s.enq .preempt { node := node, core := hint } else s
  match fit with
  | none => s
  | some (.fresh id l ws) =>
    (match s.placeAll node id l [] hint ws l.placing with
      | some pl => s.dispatchGroup node id l pl
      | none => s)
  | some (.back id _ its) => its.head?.elim s (fun x => s.enq .contextRestore { node := node, n := id, w := x.item.wid })

/-! ## Names of contexts that are away -/

/-- The slot number under which a context of tag `t` stands while it is away. -/
def awaySlot (t slot : Nat) : Nat := slot + 16 * (1 + t)

/-- Everything that names a context outside its own slot is renamed. -/
def State.rename (s : State) (f : CtxId → CtxId) : State :=
  let cmd := fun (c : Cmd) => { c with id := f c.id }
  let frec := fun (r : FaultRec) => { r with cmd := cmd r.cmd }
  let eng := fun (e : Engine) => { e with
    hiQ := e.hiQ.map cmd, loQ := e.loQ.map cmd, run := e.run.map cmd, exch := e.exch.map cmd, sets := e.sets.map (fun l => l.map cmd),
    exRun := e.exRun.map (fun x => { x with cmds := x.cmds.map cmd }), stopped := e.stopped.map frec, recs := tmap e.recs (fun _ r => frec r) }
  let arr := fun (a : ArraySt) => { a with
    holder := a.holder.map f, waiting := a.waiting.map (fun w => (f w.1, w.2)), hiQ := a.hiQ.map cmd,
    loQ := a.loQ.map cmd, run := a.run.map cmd,
    susp := a.susp.map (fun (x : Susp) => { x with id := f x.id, hiQ := x.hiQ.map cmd, loQ := x.loQ.map cmd }) }
  let mb := fun (b : Mbox) => { b with
    owner := f b.owner,
    handler := b.handler.map (fun h => ((f ⟨b.owner.node, b.owner.core, h.1⟩).slot, h.2)) }
  let ph := fun (p : Phaser) => { p with members := p.members.map (fun m => { m with id := f m.id }) }
  { s with
    locks := tmap s.locks (fun _ l => { l with holder := l.holder.map f, owner := f l.owner, rel := l.rel.map (fun r => (f r.1, r.2)), waiters := l.waiters.map (fun w => { w with id := f w.id }) }),
    nmOps := s.nmOps.map (fun o => { o with id := f o.id }),
    colls := s.colls.map (fun x => { x with mems := x.mems.map (fun m => { m with cmd := cmd m.cmd }) }),
    clones := s.clones.map (fun x => { x with cmd := cmd x.cmd }),
    polders := tmap s.polders (fun _ q => { q with engine := eng q.engine, array := arr q.array, mboxes := tmap q.mboxes (fun _ b => mb b),
                                                   phasers := tmap q.phasers (fun _ p => ph p) }) }

/-! ## Saving (R369, R370, R430) -/

/-- Words of 8 bytes as one number. -/
def words64 (l : List Nat) : Nat := packEls 64 l

/-- A PORTS entry. -/
def Port.record (p : Port) : Nat :=
  if p.bound then words64 [p.base.toNat, p.stride.toNat, p.k * 2 ^ 32 + p.remain % 2 ^ 32, 8 + p.typ.toNat * 2 + p.write.toNat] else 0

/-- A context record (R370), with TREC and PC as R430 says. -/
def Ctx.saveRecord (c : Ctx) : Nat :=
  let parked := c.st == .parked
  let pc := if parked then c.tpc else c.pc
  let trec := if parked then [c.tcause.toNat, c.tpc.toNat, c.tval.toNat, c.tinfo.toNat] else [0x18, c.pc.toNat, 0, 64]
  let head := [pc.toNat, c.fpstat.toNat, c.rmode.toNat, c.srseed.toNat, c.asid.toNat, c.ptroot.toNat, c.wscale6.toNat, c.wscale7.toNat, c.instret.toNat] ++
    trec ++ [c.lstart.toNat, c.lend.toNat, c.lrem.toNat, c.loopActive.toNat * 2 ^ 63 + c.ra.toNat * 2 ^ 62 + parked.toNat * 2 ^ 61, c.nmPending]
  words64 ((c.x.set 0 0).toList.map BitVec.toNat) + packEls 256 (c.v.toList.map BitVec.toNat) * 2 ^ (8 * 256) +
    packEls 8 (c.p.toList.map BitVec.toNat) * 2 ^ (8 * 1280) + words64 (c.g.toList.map BitVec.toNat) * 2 ^ (8 * 1288) +
    words64 head * 2 ^ (8 * 1544) + packEls 256 (c.ports.toList.map Port.record) * 2 ^ (8 * 1792)

/-- The item header (R370). -/
def State.saveHeader (s : State) (node k : Nat) (wid : Word) (live : List Nat) (lease : Bool) : Nat :=
  let mask := fun (f : Nat → Bool) => live.foldl (fun n j => if f j then n + 2 ^ j else n) 0
  wid.toNat + mask (fun _ => true) * 2 ^ 64 + mask (fun j => (s.ctx ⟨node, k, j⟩).ra) * 2 ^ 80 + lease.toNat * 2 ^ 96 +
    packEls 16 ((List.range 11).map (fun j => (s.ctx ⟨node, k, j⟩).gen.toNat)) * 2 ^ 128

/-- The slots of a core that hold a context of its item. -/
def State.liveSlots (s : State) (node k : Nat) : List Nat := (List.range 11).filter (fun j => !(s.ctx ⟨node, k, j⟩).st.vacant)

/-- The whole save area of a core's item: the records of its contexts, the header, zero elsewhere. -/
def State.saveArea (s : State) (node k : Nat) (wid : Word) (lease : Bool) : Nat :=
  let live := s.liveSlots node k
  live.foldl (fun n j => n + (s.ctx ⟨node, k, j⟩).saveRecord * 2 ^ (8 * 2048 * j)) 0 + s.saveHeader node k wid live lease * 2 ^ (8 * 22528)

/-- A context has come to the boundary where it can be saved: no pair under way, its vector queue entries and appends done, no command of
its lease running. -/
def State.saveReady (s : State) (id : CtxId) : Bool :=
  let c := s.ctx id
  let a := (s.polder id.node id.polder).array
  !c.pairHeld && !((s.core id.node id.core).vq.any (fun e => e.slot == id.slot)) && c.ports.toList.all (fun p => p.buffered.isEmpty) && !s.portStores id &&
    !(a.holder == some id && a.run.isSome)

/-- A wait is abandoned (R369, R427): a token's unused credit goes back, a lease is no longer asked for, a lock waiter is absent. A status
that a lock's home has delivered stays for the instruction's next run. -/
def State.abandonWait (s : State) (id : CtxId) : State :=
  let s := (s.dropTok id).markAbsent id true
  let q := s.polder id.node id.polder
  let s := s.setPolder id.node id.polder { q with array := { q.array with waiting := q.array.waiting.filter (fun w => w.1 != id) } }
  let c := s.ctx id
  let keep := c.lockReply.isSome || (s.waitsFor id).isSome
  s.setCtx id { c with wait := none, held := none, gword := none, expired := false, bb := none, sendFor := none, arrived := none, surveyed := [],
                       lockReq := if keep then c.lockReq else none }

/-- A context's lease is handed over for a save (R307): a granted one at this command boundary, a suspended one stays suspended. -/
def State.leaseAway (s : State) (id : CtxId) : State :=
  let a := (s.polder id.node id.polder).array
  if a.holder = some id then s.handOverSave id.node id.polder true
  else s.setArray id.node id.polder { a with susp := a.susp.map (fun (x : Susp) => if x.id = id then { x with saved := true } else x) }

/-- The lowest tag that no saved item of a core uses. -/
def State.freeTag (s : State) (node k : Nat) : Nat :=
  let used := (s.pkg node).launches.flatMap (fun e => (e.2.saved.filter (fun x => x.core == k)).map (fun x => x.tag))
  ((List.range (used.length + 1)).find? (fun t => !used.contains t)).getD 0

/-- What a slot is while its context is in a save area (R360): the sequence counter and a pending pair stay with the slot (R401). -/
def Ctx.vacated (c : Ctx) : Ctx := { Ctx.reset with st := .saved, gen := c.gen, lastEnd := c.lastEnd, seq := c.seq, pending := c.pending }

/-- The contexts of a core go away under a tag. -/
def State.moveAway (s : State) (node k t : Nat) : State :=
  let f := fun (id : CtxId) => if id.node = node ∧ id.core = k ∧ id.slot ≤ 10 then { id with slot := awaySlot t id.slot } else id
  (List.range 11).foldl (fun s j =>
    let id : CtxId := ⟨node, k, j⟩
    let c := s.ctx id
    if c.st.vacant then s.setCtx (f id) { c with st := .free } else (s.setCtx (f id) { c with st := .saved }).setCtx id c.vacated) (s.rename f)

/-- The item of a core is saved and its core free (R369, R370). -/
def State.saveItem (s : State) (node k : Nat) : Except Stop State := do
  let q := s.core node k
  match q.item with
  | none => .ok s
  | some it =>
    match s.launch? node it.launch with
    | none => .ok s
    | some l =>
      let live := s.liveSlots node k
      if !live.all (fun j => s.saveReady ⟨node, k, j⟩) then .error (.wait .resource s)
      else
        let lease := live.any (fun j => (s.polder node (k / 8)).array.leased ⟨node, k, j⟩)
        let parked := live.filter (fun j => (s.ctx ⟨node, k, j⟩).st == .parked)
        let s := live.foldl (fun s j => (s.leaseAway ⟨node, k, j⟩).abandonWait ⟨node, k, j⟩) s
        let s ← s.feWrite (s.launchReq node l) (l.savebase + BitVec.ofNat 64 (32768 * k)).toNat 32768 (s.saveArea node k it.wid lease) 514
        let t := s.freeTag node k
        let s := s.moveAway node k t
        let it := match (s.core node k).item with | some x => x | none => it
        let mask : BitVec 11 := BitVec.ofNat 11 (live.foldl (fun n j => n + 2 ^ j) 0)
        let q := s.core node k
        let s := s.setCore node k { q with item := none, pend := q.pend &&& ~~~mask, sv := q.sv && !live.contains q.sslot.toNat,
                                           osv := q.osv && !live.contains q.oslot.toNat }
        let s := s.setLaunch node it.launch { l with resident := l.resident.filter (fun r => r.1 != k), saved := l.saved ++ [⟨it, k, live, parked, lease, t⟩] }
        .ok (if (s.core node k).slot ≤ 10 then s.switchSlot node k else s)

/-- A failed access to a save area: a machine check of KIND 2, and the item is killed (R430, R431). -/
def State.saveFault (s : State) (node k : Nat) (base : Word) (t : TrapInfo) : State :=
  let off := (t.place - base).toNat
  ((s.noteFail t).machineCheck node k ⟨true, t.cause.code, if off < 22528 then off / 2048 else 0, 2, 0, 0, t.place⟩).terminateItem node k true

/-- The save area of a core's item. -/
def State.saveBase (s : State) (node k : Nat) : Word :=
  match (s.core node k).item with
  | none => 0
  | some it => match s.launch? node it.launch with
    | some l => l.savebase + BitVec.ofNat 64 (32768 * k)
    | none => 0

/-- A group is saved in one step; an item whose save fails is killed. -/
def State.saveGroup (s : State) (node : Nat) : List Nat → Except Stop State
  | [] => .ok s
  | k :: r =>
    match s.saveItem node k with
    | .ok s => s.saveGroup node r
    | .error (.trap t) => (s.saveFault node k (s.saveBase node k) t).saveGroup node r
    | .error (.trapKeep t s) => (s.saveFault node k (s.saveBase node k) t).saveGroup node r
    | .error (.wait w t) => .error (.wait w t)

/-- PREEMPT: the first waiting candidate that no free core serves displaces its victim, once that one can be saved (R369). -/
def State.preempt (s : State) (node hint : Nat) : State :=
  match (s.blocked node hint).findSome? (s.victimFor node hint) with
  | none => s
  | some v =>
    match s.saveGroup node v.cores with
    | .ok s => s.enq .dispatch { node := node, core := v.cores.headD hint }
    | .error _ => s.enq .preempt { node := node, core := hint }

/-! ## Restoring (R370, R430) -/

/-- A PORTS entry read back: a bound port is bound again without R235's checks. -/
def portOfRecord (r : Nat) : Port :=
  if fieldN r 195 1 = 1 then
    ⟨true, BitVec.ofNat 64 r, BitVec.ofNat 64 (fieldN r 64 64), BitVec.ofNat 2 (fieldN r 193 2), fieldN r 192 1 == 1, fieldN r 160 32, fieldN r 128 32, [], []⟩
  else ⟨false, 0, 0, 0, false, 0, 0, [], []⟩

/-- A context as its record now stands; what a record does not hold comes from the engine's own copy. -/
def Ctx.loadRecord (c : Ctx) (r : Nat) : Ctx :=
  let w := fun (i : Nat) => BitVec.ofNat 64 (fieldN r (8 * 1544 + 64 * i) 64)
  { c with
    x := Vector.ofFn (fun (i : Fin 32) => if i.val = 0 then 0 else BitVec.ofNat 64 (fieldN r (64 * i.val) 64)),
    v := Vector.ofFn (fun (i : Fin 32) => BitVec.ofNat 256 (fieldN r (8 * 256 + 256 * i.val) 256)),
    p := Vector.ofFn (fun (i : Fin 8) => BitVec.ofNat 8 (fieldN r (8 * 1280 + 8 * i.val) 8)),
    g := Vector.ofFn (fun (i : Fin 32) => BitVec.ofNat 64 (fieldN r (8 * 1288 + 64 * i.val) 64)),
    pc := clear2 (w 0), fpstat := (w 1).setWidth 5, rmode := if fieldW (w 2) 0 3 ≤ 5 then (w 2).setWidth 3 else c.rmode,
    srseed := if (w 3).setWidth 32 = 0#32 then 1 else (w 3).setWidth 32, asid := (w 4).setWidth 16, ptroot := w 5 &&& 0x03FFFFFFFFFF0000,
    wscale6 := clear2 (w 6), wscale7 := clear2 (w 7), instret := w 8, tcause := w 9 &&& 0xFF, tpc := clear2 (w 10), tval := w 11,
    tinfo := w 12 &&& 0xFF, lstart := w 13, lend := w 14, lrem := w 15,
    ports := Vector.ofFn (fun (i : Fin 8) => portOfRecord (fieldN r (8 * 1792 + 256 * i.val) 256)) }

/-- The state of a restored slot: READY at its PC, or PARKED as its trap record says; READY only after its lease is back. Resumption outside the
body of its loop makes the loop inactive (R272). -/
def restoredSt (c : Ctx) (lease : Bool) : Ctx :=
  if c.tcause ≠ 0x18 then { c with st := .parked, wait := none }
  else if lease then { c.jump c.pc with st := .stalled, wait := some .restore }
  else { c.jump c.pc with st := .ready, wait := none }

/-- The records of a saved item's live slots, read back. -/
def State.readRecords (s : State) (q : Req) (base : Word) : List Nat → Except Stop (State × List (Nat × Nat))
  | [] => .ok (s, [])
  | j :: r => do
    let (s, v) ← s.feRead q ((base + BitVec.ofNat 64 (2048 * j)).toNat) 2048
    let (s, l) ← s.readRecords q base r
    .ok (s, (j, v) :: l)

/-- The names of a saved item's contexts come back to their slots. -/
def State.moveBack (s : State) (node k t : Nat) (recs : List (Nat × Nat)) : State :=
  let away := fun (j : Nat) => (⟨node, k, awaySlot t j⟩ : CtxId)
  let f := fun (id : CtxId) => if id.node = node ∧ id.core = k ∧ id.slot / 16 = 1 + t then { id with slot := id.slot % 16 } else id
  let s := (List.range 11).foldl (fun s j =>
    let id : CtxId := ⟨node, k, j⟩
    let c := s.ctx (away j)
    let leased := (s.polder node (k / 8)).array.leased (away j)
    let c := match recs.find? (fun e => e.1 == j) with
      | some e => restoredSt (c.loadRecord e.2) leased
      | none => c
    let s := s.setCtx id { c with seq := (s.ctx id).seq, pending := (s.ctx id).pending }
    { s with ctxs := tdel s.ctxs (away j) }) s
  s.rename f

/-- A saved item comes back to its core and slots (R370, R430). -/
def State.restoreItem (s : State) (node id : Nat) (x : SavedItem) : Except Stop State := do
  match s.launch? node id with
  | none => .ok s
  | some l =>
    let k := x.core
    let (s, recs) ← s.readRecords (s.launchReq node l) (l.savebase + BitVec.ofNat 64 (32768 * k)) x.live
    let s := s.moveBack node k x.tag recs
    let parked := x.live.filter (fun j => (s.ctx ⟨node, k, j⟩).st == .parked)
    let mask : BitVec 11 := BitVec.ofNat 11 (parked.foldl (fun n j => n + 2 ^ j) 0)
    let q := s.core node k
    let s := s.setCore node k { q with item := some x.item, pend := q.pend ||| mask }
    let s := s.setLaunch node id { l with saved := l.saved.filter (fun y => y != x), resident := l.resident ++ [(k, x.item.wid)] }
    let a := (s.polder node (k / 8)).array
    let s := s.setArray node (k / 8) { a with susp := a.susp.map (fun (y : Susp) =>
      if y.id.core = k ∧ y.id.node = node then { y with saved := false } else y) }
    let s := x.live.foldl (fun s j => s.lockReturn ⟨node, k, j⟩) s
    let s := ((s.polder node (k / 8)).mboxes.filter (fun e => e.2.owner.core == k)).foldl (fun s e => s.wantHandler node (k / 8) e.1 e.2) s
    .ok (if x.lease then s.askLease node (k / 8) else s)

/-- A saved item ends without being restored (R382): its contexts are terminated under the names they have. -/
def State.endSaved (s : State) (node id : Nat) (x : SavedItem) (killed : Bool) : State :=
  let away := fun (j : Nat) => (⟨node, x.core, awaySlot x.tag j⟩ : CtxId)
  let s := x.live.foldl (fun s j =>
    let g := (s.ctx (away j)).gen
    (s.terminate (away j)).noteDying (away j) g id) s
  let s := x.live.foldl (fun s j =>
    let c := s.ctx ⟨node, x.core, j⟩
    if c.st = .saved then s.setCtx ⟨node, x.core, j⟩ { c with st := .free, gen := c.gen + 1, lastEnd := .terminated } else s) s
  let s := { s with ctxs := s.ctxs.filter (fun e => !(e.1.node == node && e.1.core == x.core && e.1.slot / 16 == 1 + x.tag)) }
  match s.launch? node id with
  | none => s
  | some l =>
    let l := { l with saved := l.saved.filter (fun y => y != x), nabort := l.nabort + 1,
                      killed := if killed && l.killed.isNone then some x.item.wid else l.killed }
    let s := s.setLaunch node id l
    let s := if l.finished then s.enq .launchComplete { node := node, n := id } else s
    s.enq .dispatch { node := node, core := x.core }

/-- A saved group comes back as a whole; a failed read of a save area ends its item as a failed write does (log entry 22). -/
def State.restoreGroup (s : State) (node id : Nat) (base : Word) : List SavedItem → Except Stop State
  | [] => .ok s
  | x :: r =>
    let fault := fun (s : State) (t : TrapInfo) =>
      let off := (t.place - (base + BitVec.ofNat 64 (32768 * x.core))).toNat
      let s := (s.noteFail t).machineCheck node x.core ⟨true, t.cause.code, if off < 22528 then off / 2048 else 0, 2, 0, 0, t.place⟩
      (s.endSaved node id x true).restoreGroup node id base r
    match s.restoreItem node id x with
    | .ok s => s.restoreGroup node id base r
    | .error (.trap t) => fault s t
    | .error (.trapKeep t s) => fault s t
    | .error (.wait w t) => .error (.wait w t)

/-- CONTEXT_RESTORE: the saved group of an item is restored if it is the first that its cores can serve (R367). -/
def State.contextRestore (s : State) (node id : Nat) (wid : Word) : State :=
  match (s.cands node).find? (s.candFits node 0 []) with
  | some (.back i l its) =>
    if i = id ∧ its.any (fun x => x.item.wid == wid) then
      match s.restoreGroup node id l.savebase its with
      | .ok s => s.enq .dispatch { node := node }
      | .error _ => s.enq .contextRestore { node := node, n := id, w := wid }
    else s
  | _ => s

/-! ## Queue commands (R362, R381, R382) -/

/-- QUEUE_START. -/
def State.queueStart (s : State) (node q : Nat) : State :=
  let x := s.queue node q
  if x.st ≠ .idle ∧ x.st ≠ .stopped then s.queueErr node q
  else
    let s := s.setQueue node q { x with st := .run, cfgerr := false }
    match x.cur with
    | none => s.enq .recordTake { node := node, n := q }
    | some id => match s.launch? node id with
      | some l => if l.stage = .polling then s.enq .semaphoreRound { node := node, n := q } else s.enq .dispatch { node := node }
      | none => s

/-- DRAIN (R381). -/
def State.drainQueue (s : State) (node q : Nat) : State :=
  let x := s.queue node q
  if x.st ≠ .run then s.queueErr node q
  else (s.setQueue node q { x with st := .draining, cfgerr := false }).enq .drainDone { node := node, n := q }

/-- The launches of a queue that are taken and not finished. -/
def State.launchesOf (s : State) (node q : Nat) : List (Nat × Launch) := (s.pkg node).launches.filter (fun e => e.2.queue == q)

/-- DRAIN_DONE (R381). -/
def State.drainDone (s : State) (node q : Nat) : State :=
  let x := s.queue node q
  if x.st ≠ .draining then s
  else if (s.launchesOf node q).any (fun e => !e.2.live.isEmpty) then s.enq .drainDone { node := node, n := q }
  else s.setQueue node q { x with st := .stopped }

/-- RESET (R362): an interrupted launch is forgotten with the records. -/
def State.resetQueue (s : State) (node q : Nat) : State :=
  let x := s.queue node q
  if x.st ≠ .idle ∧ x.st ≠ .stopped then s.queueErr node q
  else
    let s := match x.cur with | some id => s.dropLaunch node id | none => s
    s.setQueue node q { s.queue node q with st := .idle, head := 0, tail := 0, nextwid := 0, err := 0, cur := none, cfgerr := false }

/-- Step 2 of R382: the items of the queue whose contexts stand at their boundaries are terminated, and the saved ones. -/
def State.abortItems (s : State) (node q : Nat) : State :=
  (s.launchesOf node q).foldl (fun s e =>
    let s := (e.2.resident.filter (fun r => s.atBoundary node r.1)).foldl (fun s r => s.terminateItem node r.1 false) s
    e.2.saved.foldl (fun s y => s.endSaved node e.1 y false) s) s

/-- ABORT, steps 1 and 2 (R382). -/
def State.abortQueue (s : State) (node q : Nat) : State :=
  let x := s.queue node q
  if x.st ≠ .run ∧ x.st ≠ .draining ∧ x.st ≠ .stopped then s.queueErr node q
  else
    let s := s.setQueue node q { x with st := .aborting, cfgerr := false, abortTail := x.tail,
                                        abortPos := if x.cur.isSome then x.head + 1 else x.head }
    (s.abortItems node q).enq .abortTeardownDone { node := node, n := q }

/-- ABORT_TEARDOWN_DONE: what is left of step 2, then steps 3 to 5 (R382): one launch or record at a time, then the queue stops. -/
def State.abortStep (s : State) (node q : Nat) : State :=
  let s := if (s.queue node q).st = .aborting then s.abortItems node q else s
  let x := s.queue node q
  let again := fun (s : State) => s.enq .abortTeardownDone { node := node, n := q }
  if x.st ≠ .aborting then s
  else if !s.dyingDone node q || (s.launchesOf node q).any (fun e => !e.2.resident.isEmpty) then again s
  else match s.performAll node with
  | none => again s
  | some s => match s.launchesOf node q with
    | (id, l) :: _ =>
      (match s.finishLaunch node { l with nabort := l.nabort + (l.total - l.next) } 2 with
        | .ok s => again (s.dropLaunch node id)
        | .error _ => again s)
    | [] =>
      if x.abortPos ≠ x.abortTail then
        match s.readLaunch node q x.abortPos.toNat with
        | .error (.wait _ _) => again s
        | .error _ => again (s.setQueue node q { x with abortPos := x.abortPos + 1 })
        | .ok (s, _, l) =>
          (match s.finishLaunch node { l with nabort := l.total } 2 with
            | .ok s => again (s.setQueue node q { s.queue node q with abortPos := x.abortPos + 1 })
            | .error _ => again s)
      else s.setQueue node q { x with st := .stopped, head := x.abortTail, nextwid := 0, cur := none, dying := [] }

/-! ## Meanings of the events -/

/-- RECORD_TAKE. -/
def execRecordTake (s : State) : Out := .next (s.recordTake s.ev.node s.ev.n)
/-- SEMAPHORE_ROUND. -/
def execSemaphoreRound (s : State) : Out := .next (s.semRound s.ev.node s.ev.n)
/-- DISPATCH. -/
def execDispatch (s : State) : Out := .next (s.dispatch s.ev.node s.ev.core)
/-- LAUNCH_COMPLETE. -/
def execLaunchComplete (s : State) : Out := .next (s.launchComplete s.ev.node s.ev.n)
/-- QUEUE_START. -/
def execQueueStart (s : State) : Out := .next (s.queueStart s.ev.node s.ev.n)
/-- DRAIN. -/
def execDrain (s : State) : Out := .next (s.drainQueue s.ev.node s.ev.n)
/-- ABORT. -/
def execAbort (s : State) : Out := .next (s.abortQueue s.ev.node s.ev.n)
/-- RESET. -/
def execReset (s : State) : Out := .next (s.resetQueue s.ev.node s.ev.n)
/-- ABORT_TEARDOWN_DONE. -/
def execAbortTeardownDone (s : State) : Out := .next (s.abortStep s.ev.node s.ev.n)
/-- DRAIN_DONE. -/
def execDrainDone (s : State) : Out := .next (s.drainDone s.ev.node s.ev.n)
/-- PREEMPT. -/
def execPreempt (s : State) : Out := .next (s.preempt s.ev.node s.ev.core)
/-- CONTEXT_RESTORE. -/
def execContextRestore (s : State) : Out := .next (s.contextRestore s.ev.node s.ev.n s.ev.w)

end Sys2Proof.Machine
end

