-- ==== Sys2Proof/Machine/Tokens.lean ====
section
/-! DEFINITION. Named experts (R389 to R407): the legend units, tokens and their slot managers, results, versions, the join, and the life of
replicas. -/

namespace Sys2Proof.Machine
open Sys2Proof

/-! ## Entries (R390, R391) -/

/-- `n` bits of an entry from bit `lo` of the word at byte offset `o`. -/
def entF (e o lo n : Nat) : Nat := fieldN e (8 * o + lo) n
/-- The entry with that field replaced. -/
def entSet (e o lo n v : Nat) : Nat := e - entF e o lo n * 2 ^ (8 * o + lo) + v % 2 ^ n * 2 ^ (8 * o + lo)

/-- V. -/
def entV (e : Nat) : Bool := entF e 0 31 1 == 1
/-- PERM. -/
def entPerm (e : Nat) : Bool := entF e 0 30 1 == 1
/-- NAME. -/
def entName (e : Nat) : Nat := entF e 0 0 24
/-- EPOCH. -/
def entEpoch (e : Nat) : Nat := entF e 4 0 32
/-- VER. -/
def entVer (e : Nat) : Nat := entF e 8 20 12
/-- WLEN. -/
def entWlen (e : Nat) : Nat := entF e 8 9 11
/-- SLOTM1. -/
def entSlotm1 (e : Nat) : Nat := entF e 12 21 11
/-- Slot bytes. -/
def entSlotBytes (e : Nat) : Nat := 32 * (entSlotm1 e + 1)
/-- Result row bytes. -/
def entRetBytes (e : Nat) : Nat := 32 * (entF e 12 10 11 + 1)
/-- ARRIVE. -/
def entArrive (e : Nat) : Nat := entF e 16 0 32
/-- CREATE. -/
def entCreate (e : Nat) : Nat := entF e 20 0 16
/-- RETIRE. -/
def entRetire (e : Nat) : Nat := entF e 22 0 16
/-- WIN. -/
def entWin (e : Nat) : Nat := entF e 24 27 5
/-- NPART. -/
def entNpart (e : Nat) : Nat := entF e 24 20 7
/-- NSLOT. -/
def entNslot (e : Nat) : Nat := entF e 24 7 13
/-- SABASE. -/
def entSabase (e : Nat) : Nat := entF e 28 0 32
/-- TGBASE. -/
def entTgbase (e : Nat) : Nat := entF e 32 0 32
/-- ACNT. -/
def entAcnt (e : Nat) : Nat := entF e 36 0 32
/-- RBAR. -/
def entRbar (e : Nat) : Nat := entF e 40 0 32
/-- GOFF. -/
def entGoff (e : Nat) : Nat := entF e 44 0 32
/-- GLEN. -/
def entGlen (e : Nat) : Nat := entF e 48 0 32
/-- JBAR. -/
def entJbar (e : Nat) : Nat := entF e 52 0 32
/-- WPA. -/
def entWpa (e : Nat) : Nat := entF e 56 0 64
/-- NODE of replica `r`. -/
def repNode (e r : Nat) : Nat := entF e (64 + 4 * r) 20 12
/-- POLDER of replica `r`. -/
def repPolder (e r : Nat) : Nat := entF e (64 + 4 * r) 12 8
/-- TOFF of replica `r`. -/
def repToff (e r : Nat) : Nat := entF e (64 + 4 * r) 2 10
/-- STATE of replica `r`: 0 FREE, 1 CREATING, 2 SERVING, 3 DRAINING. -/
def repState (e r : Nat) : Nat := entF e (64 + 4 * r) 0 2
/-- The entry with STATE of replica `r` replaced. -/
def repSetState (e r st : Nat) : Nat := entSet e (64 + 4 * r) 0 2 st
/-- The entry with replica `r` replaced. -/
def repSet (e r node p toff st : Nat) : Nat := entSet e (64 + 4 * r) 0 32 (node * 2 ^ 20 + p * 2 ^ 12 + toff * 4 + st)
/-- The replica indices. -/
def repIdx : List Nat := List.range 16
/-- The replicas that serve. -/
def repServing (e : Nat) : List Nat := repIdx.filter (fun r => repState e r == 2)
/-- MASK: the replicas that are SERVING or DRAINING (R404). -/
def repMask (e : Nat) : List Nat := repIdx.filter (fun r => decide (2 ≤ repState e r))
/-- A list of replicas as a mask. -/
def maskOf (l : List Nat) : Nat := l.foldl (fun m r => m + 2 ^ r) 0

/-- An M-space offset as a local address. -/
def mLocal (o : Nat) : Nat := 2 * 2 ^ 29 + o

/-- The home die of a name (R389). -/
def homeDieOf (name : Nat) : Nat := Nat.xor (fieldN name 12 12) (fieldN name 0 12) % 6

/-- A package's entry, or copy, of a name. -/
def State.legend (s : State) (node name : Nat) : Option Nat := (tfind (s.die node (homeDieOf name)).legend name).map (fun e => e.toNat)

/-- Writes a package's entry. -/
def State.setLegend (s : State) (node name e : Nat) : State :=
  let d := homeDieOf name
  s.setDie node d { s.die node d with legend := tset (s.die node d).legend name (BitVec.ofNat 1024 e) }

/-- The owner's entry, as found from a package's copy. -/
def State.ownerEntry (s : State) (node name : Nat) : Option Nat :=
  match s.legend node name with
  | some e => s.legend (repNode e 0) name
  | none => none

/-- The owner's entry of a name, wherever in the domain it is: what a slot manager works by. -/
def State.nameEntry (s : State) (node name : Nat) : Option Nat :=
  match s.ownerEntry node name with
  | some e => some e
  | none => s.domain.findSome? (fun n => match s.legend n name with | some e => if repNode e 0 = n then some e else none | none => none)

/-! ## Slot managers (R397) -/

/-- A replica's manager as it starts: each partition holds NSLOT ÷ NPART credits, the pool the remainder. -/
def newRepl (e r : Nat) : Repl where
  idx := r
  ver := entVer e
  bwd := 0
  parts := (List.range (entNpart e)).map (fun p => (p, entNslot e / entNpart e))
  pool := entNslot e % entNpart e
  active := []
  lastActive := List.range (entNpart e)
  slots := []
  heldToks := []
  pend := none
  unissued := 0
  tomb := none
  reborn := false
  joinReq := 0
  whole := false
  joined := false

/-- The manager of a name at a polder. -/
def State.repl (s : State) (node p name : Nat) : Option Repl := tfind (s.polder node p).repls name
/-- Replaces it. -/
def State.setRepl (s : State) (node p name : Nat) (r : Repl) : State :=
  let q := s.polder node p
  s.setPolder node p { q with repls := tset q.repls name r }
/-- Removes it; the duplicate marks stay (R401). -/
def State.delRepl (s : State) (node p name : Nat) : State :=
  let q := s.polder node p
  s.setPolder node p { q with repls := tdel q.repls name }

/-- The managers of a package follow an entry: one for each of its replicas there that is not FREE. -/
def State.syncRepls (s : State) (node name e : Nat) : State :=
  repIdx.foldl (fun (s : State) r =>
    if repState e r = 0 ∨ repNode e r ≠ node then s
    else match s.repl node (repPolder e r) name with
      | some _ => s
      | none => s.setRepl node (repPolder e r) name (newRepl e r)) s

/-- A replica's manager is there when the owner's unit asks something of it, though its package may not have the entry's update yet (R404). -/
def State.needRepl (s : State) (name e r : Nat) : State :=
  match s.repl (repNode e r) (repPolder e r) name with
  | some _ => s
  | none => s.setRepl (repNode e r) (repPolder e r) name (newRepl e r)

/-- The managers of a name in a package, all dropped. -/
def State.dropRepls (s : State) (node name : Nat) : State :=
  (List.range 192).foldl (fun (s : State) p => if (s.repl node p name).isSome then s.delRepl node p name else s) s

/-- The cores of a package forget the outstanding counts of the replicas that an entry shows FREE (R396). -/
def State.forgetFree (s : State) (node name e : Nat) : State :=
  let gone := fun (k : Word) => decide (k.toNat / 16 = name) && repState e (k.toNat % 16) == 0
  { s with cores := tmap s.cores (fun k (q : CoreSt) => if k.1 = node then { q with tokTab := q.tokTab.filter (fun x => !gone x.1) } else q) }

/-! ## Entry changes and their multicast (R393) -/

/-- The whole entry goes to every other package of the domain. -/
def State.multicast (s : State) (own name e : Nat) : State :=
  (s.domain.filter (fun n => n != own)).foldl (fun (s : State) n =>
    ({ s with legUps := s.legUps ++ [⟨n, name, BitVec.ofNat 1024 e⟩] } : State).enq .legendUpdate { node := n, n := name }) s

/-- The owner's unit changes an entry in one event: EPOCH rises, and the entry is multicast. -/
def State.legChange (s : State) (own name e : Nat) : State :=
  let e := entSet e 4 0 32 (entEpoch e + 1)
  let s := ((s.setLegend own name e).forgetFree own name e).syncRepls own name e
  (s.multicast own name e).enq .epochAck { node := own, n := name, m := entEpoch e }

/-- LEGEND_UPDATE: the oldest update on its way to a package is applied if its EPOCH is higher, or the package holds no copy; an update
with V = 0 ends the copy. The package then acknowledges. It takes none from an owner that it has fenced (R439). -/
def State.legendUpdate (s : State) (node name : Nat) : State :=
  match s.legUps.find? (fun u => u.node == node && u.name == name) with
  | none => s
  | some u =>
    let rec take : List LegUp → List LegUp
      | [] => []
      | x :: r => if x = u then r else x :: take r
    let s := { s with legUps := take s.legUps }
    let e := u.ent.toNat
    let newer := match s.legend node name with | some old => decide (entEpoch old < entEpoch e) | none => true
    if (s.pkg node).fenced.contains (repNode e 0) then s else
    let s := if !newer then s
      else if entV e then ((s.setLegend node name e).forgetFree node name e).syncRepls node name e
      else
        let d := homeDieOf name
        (s.setDie node d { s.die node d with legend := tdel (s.die node d).legend name }).dropRepls node name
    if entV e then s.enq .epochAck { node := node, n := name, m := entEpoch e } else s

/-- A token that the package sent, or will send, under an epoch older than `m`, and that no manager has accepted. -/
def State.olderTokens (s : State) (node name m : Nat) : Bool :=
  let old := fun (t : Token) => t.name == name && t.sender.node == node && decide (t.epoch < m)
  s.tokens.any old || s.polders.any (fun q => match tfind q.2.repls name with | some r => r.heldToks.any old | none => false) ||
    s.ctxs.any (fun c => c.1.node == node && (match c.2.tok with
      | some t => t.name == name && decide (t.epoch < m) && decide (t.stage < 2)
      | none => false))

/-- EPOCH_ACK: a package acknowledges an epoch, once the tokens it sent under older ones have been accepted. An owner that has fenced the package
takes none from it (R439). -/
def State.epochAck (s : State) (node name m : Nat) : State :=
  match s.legend node name with
  | none => s
  | some e =>
    if s.olderTokens node name m then s.enq .epochAck { node := node, n := name, m := m }
    else
      let d := homeDieOf name
      let own := repNode e 0
      let x := s.die own d
      if (s.pkg own).fenced.contains node then s else
      s.setDie own d { x with acks := tset x.acks (name, node) (max m (tget 0 x.acks (name, node))) }

/-! ## Legend commands (R390, R392) -/

/-- A named-zero field of an entry is not zero, or a field lies outside its range or breaks its alignment (R390). -/
def entFieldBad (e : Nat) : Bool :=
  entF e 0 24 6 != 0 || entF e 8 0 9 != 0 || entF e 12 0 10 != 0 || entF e 24 0 7 != 0 ||
    decide (entWlen e < 1 ∨ 1024 < entWlen e) || decide (entWin e < 10 ∨ 30 < entWin e) ||
    decide (entNpart e < 1 ∨ 64 < entNpart e) || decide (entNslot e < 1 ∨ 4096 < entNslot e) ||
    entSabase e % 32 != 0 || entTgbase e % 16 != 0 || entAcnt e % 4 != 0 || entRbar e % 16 != 0 || entGoff e % 64 != 0 ||
    entJbar e % 16 != 0 || entGlen e % 64 != 0 || decide (4 * 2 ^ 20 < entGlen e) || entWpa e % 65536 != 0 ||
    decide (2 ^ 58 ≤ entWpa e) || paClass (entWpa e) != 0 || paNode (entWpa e) != repNode e 0

/-- A region leaves its space. -/
def entRegionBad (e : Nat) : Bool :=
  decide (spaceSize 0 < entSabase e + entNslot e * (if entPerm e then 4096 else entSlotBytes e)) ||
    decide (spaceSize 2 < entTgbase e + 16 * entNslot e) || decide (spaceSize 2 < entAcnt e + 4) ||
    decide (spaceSize 2 < entRbar e + 16) || decide (spaceSize 2 < entJbar e + 16) || decide (spaceSize 1 < entGoff e + entGlen e) ||
    decide (hbmLimit < paOff (entWpa e) + 65536 * entWlen e + 16 * entGlen e) ||
    repIdx.any (fun r => repState e r != 0 && (decide (1024 < repToff e r + entWlen e) || decide (192 ≤ repPolder e r)))

/-- INSTALL refuses the entry (R390). -/
def entRefused (e : Nat) : Bool :=
  entFieldBad e || entRegionBad e || decide (8 * 2 ^ 20 < entNslot e * entSlotBytes e) ||
    (entPerm e && decide (4096 < entSlotBytes e)) || repState e 0 != 2

/-- The outcome of a legend command: CFGERR. -/
def State.legErr (s : State) (node d : Nat) (err : Bool) : State := s.setDie node d { s.die node d with legErr := err }

/-- INSTALL: the staged entry starts with VER 0 and EPOCH 1, and goes to every package. -/
def State.legInstall (s : State) (node d name : Nat) : State :=
  let x := s.die node d
  let e := x.staging.toNat
  if homeDieOf name ≠ d ∨ repNode e 0 ≠ node ∨ entRefused e ∨ entName e ≠ name ∨ (tfind x.legend name).isSome ∨ 4096 ≤ x.legend.length then
    s.legErr node d true
  else
    let e := entSet (entSet (entSet e 0 31 1 1) 8 20 12 0) 16 0 32 0
    (s.legErr node d false).legChange node name (entSet e 4 0 32 0)

/-- REMOVE: the entry goes, and every copy of it. -/
def State.legRemove (s : State) (node d name : Nat) : State :=
  match (if homeDieOf name = d then s.legend node name else none) with
  | none => s.legErr node d true
  | some e =>
    if repNode e 0 ≠ node then s.legErr node d true
    else
      let x := s.die node d
      let s := s.setDie node d { x with legErr := false, legend := tdel x.legend name, acks := x.acks.filter (fun a => a.1.1 != name) }
      (s.dropRepls node name).multicast node name (entSet (entSet e 0 31 1 0) 4 0 32 (entEpoch e + 1))

/-- READ: the entry, or its copy, into staging. -/
def State.legRead (s : State) (node d name : Nat) : State :=
  match tfind (s.die node d).legend name with
  | none => s.legErr node d true
  | some e => s.setDie node d { s.die node d with staging := e, legErr := false }

/-! ## Sending a token (R395, R396, R398) -/

/-- Die crossings of the shorter way round the ring (R29). -/
def dieCrossings (a b : Nat) : Nat :=
  let i := dieRing.findIdx (fun x => x == a)
  let j := dieRing.findIdx (fun x => x == b)
  let k := (j + 6 - i) % 6
  min k (6 - k)

/-- Mesh hops between the tiles of two polders (R32). -/
def meshHops (a b : Nat) : Nat :=
  let x := polderTile a
  let y := polderTile b
  (x.1 - y.1) + (y.1 - x.1) + (x.2 - y.2) + (y.2 - x.2)

/-- The key of a name and a replica in a core's table. -/
def tokKey (name r : Nat) : Word := BitVec.ofNat 64 (name * 16 + r)

/-- The ranking keys of a replica (R396) as one number, for a sender. -/
def State.rankOf (s : State) (id : CtxId) (e r : Nat) : Nat :=
  let out := tget 0 (s.core id.node id.core).tokTab (tokKey (entName e) r)
  ((((out * 2 + (if repNode e r = id.node then 0 else 1)) * 8 + dieCrossings id.die (repPolder e r / 32)) * 64 +
    meshHops id.polder (repPolder e r)) * 16) + r

/-- The lowest number of a list. -/
def leastOf : List Nat → Option Nat
  | [] => none
  | a :: r => match leastOf r with | some b => some (min a b) | none => some a

/-- The choice of R396. -/
def State.chooseReplica (s : State) (id : CtxId) (e : Nat) : Option Nat :=
  (leastOf ((repServing e).map (fun r => s.rankOf id e r))).map (fun k => k % 16)

/-- A TSEND or TBWD adds 1 to its core's table, which keeps the 256 entries used last (R396). -/
def CoreSt.tokUp (q : CoreSt) (k : Word) : CoreSt :=
  let t := q.tokTab.filter (fun x => x.1 != k) ++ [(k, tget 0 q.tokTab k + 1)]
  { q with tokTab := t.drop (t.length - 256) }

/-- A result row that arrives for the core subtracts 1, never below 0; the entry stays (R396). -/
def CoreSt.tokDown (q : CoreSt) (k : Word) : CoreSt :=
  match tfind q.tokTab k with
  | some n => { q with tokTab := q.tokTab.filter (fun x => x.1 != k) ++ [(k, n - 1)] }
  | none => q

/-- STATUS codes (R395). -/
abbrev tkOk : Nat := 0
/-- FULL. -/
abbrev tkFull : Nat := 1
/-- NONAME. -/
abbrev tkNoname : Nat := 2
/-- NOREPLICA. -/
abbrev tkNoreplica : Nat := 3
/-- DEAD. -/
abbrev tkDead : Nat := 4
/-- STALE. -/
abbrev tkStale : Nat := 5
/-- NOTOWNER. -/
abbrev tkNotowner : Nat := 6
/-- NOROOM. -/
abbrev tkNoroom : Nat := 7

/-- The status word of TSEND, TBWD, TRET, XCREATE and XRETIRE (R395). -/
def tokWord (seq ver r st : Nat) : Word := BitVec.ofNat 64 (seq % 2 ^ 32 * 2 ^ 32 + ver % 4096 * 2 ^ 20 + r % 16 * 2 ^ 16 + st)
/-- The status word of XJOIN and XVER. -/
def joinWord (mask ver st : Nat) : Word := BitVec.ofNat 64 (mask % 65536 * 2 ^ 32 + ver % 4096 * 2 ^ 20 + st)

/-- The operand tests of TSEND and TBWD (R395); TBWD's REPLICA is zero in TSEND. -/
def tokOperands (t x : Word) (fwd : Bool) : Except Stop Unit :=
  let n := 32 * (fieldW t 35 11 + 1)
  if fieldW t 24 11 ≠ 0 ∨ (fwd ∧ fieldW t 46 4 ≠ 0) then raise .tokenFault t
  else if fieldW x 25 7 ≠ 0 ∨ fieldW x 0 5 ≠ 0 ∨ spaceSize 0 < fieldW x 0 25 + n ∨ !barOk (fieldW x 32 32) then raise .tokenFault x
  else .ok ()

/-- A token instruction ends with a status word; a pending pair is over (R401). -/
def State.tokEnd (s : State) (d : Reg) (w : Word) : State := (s.setC { s.c with pending := none, tok := none }).setX d w

/-- The pair (SEQ, replica) of a TSEND or TBWD: the pending one if its words are the same, else the next number with the replica
chosen (R401). -/
def Ctx.tokPair (c : Ctx) (t x : Word) (r : Nat) : BitVec 32 × Nat :=
  match c.pending with
  | some p => if p.token = t ∧ p.arg = x then (p.seq, p.replica) else (c.seq + 1, r)
  | none => (c.seq + 1, r)

/-- The first execution of a TSEND or TBWD: the checks of R398 in their order, the row's own last, since a wait takes its faults before it starts (R427);
then the credit is asked for. -/
def State.tokStart (s : State) (d : Reg) (t x : Word) (fwd : Bool) : Res :=
  let name := fieldW t 0 24
  match s.legend s.fnode name with
  | none => .ok (s.tokEnd d (tokWord 0 0 0 tkNoname))
  | some e =>
    if !entV e then .ok (s.tokEnd d (tokWord 0 0 0 tkNoname))
    else match (if fwd then s.chooseReplica s.cur e else some (fieldW t 46 4)) with
    | none => .ok (s.tokEnd d (tokWord 0 0 0 tkNoreplica))
    | some r =>
      if !fwd ∧ repState e r < 2 then .ok (s.tokEnd d (tokWord 0 0 0 tkStale))
      else if entSlotm1 e < fieldW t 35 11 then raise .tokenFault t
      else if s.deadNode (repNode e r) then .ok (s.tokEnd d (tokWord 0 0 0 tkDead))
      else if s.lostWordIn (spadAddr s.fnode s.pIdx (fieldW x 0 32)) (32 * (fieldW t 35 11 + 1)) then
        raiseAcc .dataLost (BitVec.ofNat 64 (localVa (fieldW x 0 32))) 0
      else
        let (seq, r) := s.c.tokPair t x r
        let fresh := match s.c.pending with | some p => p.seq != seq | none => true
        let c := { s.c with seq := if fresh then seq else s.c.seq, pending := some ⟨seq, r, t, x⟩,
                            tok := some ⟨0, name, r, seq, 0, repNode e r, repPolder e r, entVer e, entEpoch e⟩ }
        .error (.wait .token ((s.setC c).enq .slotCreditRequest { node := s.fnode, core := s.fcore, slot := s.cc.slot }))

/-- The header and the row leave, read from the issuing polder's A-space port (R398). -/
def State.tokSend (s : State) (t x : Word) (fwd : Bool) (w : TokWait) : Except Stop State := do
  let n := 32 * (fieldW t 35 11 + 1)
  let src := fieldW x 0 32
  -- a row lost since the credit was asked for stops the wait, and the credit goes back
  let v ← (s.portRead s.fnode s.pIdx src n (localVa src)).mapError (fun e => match e with
    | .trap t => .trapKeep t (s.dropTok s.cur)
    | e => e)
  let tk : Token := ⟨w.name, w.r, w.seq, w.ver, s.cur, fieldW t 50 14, src, fieldW x 32 32, !fwd, n, v, w.node, w.polder, w.part, w.epoch⟩
  let s := s.setC { s.c with tok := some { w with stage := 2 } }
  let s := s.setCC (s.cc.tokUp (tokKey w.name w.r))
  .ok (({ s with tokens := s.tokens ++ [tk] } : State).enq .tokenArrival { node := w.node, n := w.polder })

/-- TSEND and TBWD (R398). A run-ahead helper drops them. -/
def tokenSend (i : Instr) (d a b : Reg) (fwd : Bool) (s : State) : Out :=
  finish i s (if s.c.ra then .ok s else do
    let t := s.X a
    let x := s.X b
    tokOperands t x fwd
    match s.c.tok with
    | none => s.tokStart d t x fwd
    | some w =>
      let word := fun (st : Nat) => tokWord w.seq.toNat w.ver w.r st
      if s.deadNode w.node ∧ w.stage < 3 then .ok (s.tokEnd d (tokWord 0 0 0 tkDead))
      else match w.stage with
      | 0 => if s.c.expired then .ok (s.tokEnd d (word tkFull)) else .error (.wait .token s)
      | 1 => do
        let s ← s.tokSend t x fwd w
        .error (.wait .token s)
      | 2 => .error (.wait .token s)
      | _ => .ok (s.tokEnd d (word tkOk)))

/-- TSEND. -/
def execTsend (d a b : Reg) (s : State) : Out := tokenSend (.tsend d a b) d a b true s
/-- TBWD. -/
def execTbwd (d a b : Reg) (s : State) : Out := tokenSend (.tbwd d a b) d a b false s

/-! ## Credits (R397) -/

/-- Where a credit for partition `p` comes from: the partition itself, the pool (64), or the lowest partition that granted nothing in the
last whole window; with the manager after it. -/
def Repl.grant (r : Repl) (p : Nat) : Option (Nat × Repl) :=
  let from' := fun (k : Nat) => { r with parts := tset r.parts k (tget 0 r.parts k - 1), active := if r.active.contains k then r.active else k :: r.active }
  if tget 0 r.parts p ≠ 0 then some (p, from' p)
  else if r.pool ≠ 0 then some (64, { r with pool := r.pool - 1 })
  else match (List.range 64).find? (fun k => !r.lastActive.contains k && tget 0 r.parts k != 0) with
    | some k => some (k, from' k)
    | none => none

/-- The partition of a sender core. -/
def partOf (e node core : Nat) : Nat := (1536 * node + core) % entNpart e

/-- SLOT_CREDIT_REQUEST: the manager grants a credit to a waiting sender, or the request is tried again. -/
def State.slotCredit (s : State) (id : CtxId) : State :=
  let c := s.ctx id
  match c.tok with
  | none => s
  | some w =>
    if w.stage ≠ 0 ∨ c.expired then s
    else
      let again := s.enq .slotCreditRequest { node := id.node, core := id.core, slot := id.slot }
      match s.repl w.node w.polder w.name, s.legend w.node w.name with
      | some r, some e =>
        match r.grant (partOf e id.node id.core) with
        | some (k, r) => (s.setRepl w.node w.polder w.name r).setCtx id { c with tok := some { w with stage := 1, part := k } }
        | none => again
      | _, _ => again

/-- TOKEN_CREDIT_TIMEOUT: 4,096 cycles without a credit. -/
def State.tokTimeout (s : State) (id : CtxId) : State :=
  let c := s.ctx id
  match c.tok with
  | some w => if w.stage = 0 then s.setCtx id { c with expired := true } else s
  | none => s

/-! ## Creating replicas and copying weights (R404, R405) -/

/-- A copy that a slot manager has its polder's copy engine do: 1 weights into the terp, 2 a partial to its join slot. It claims its entries as
any command does (R194); none where they are not free. -/
def State.hwCopy (s : State) (node p hw a b rows bar bn bp name : Nat) : Option State :=
  let g := Vector.replicate 32 (0 : Word)
  let g := g.set 0 (BitVec.ofNat 64 (bar * 2 ^ 32))
  let g := g.set 12 (BitVec.ofNat 64 bn)
  let g := g.set 13 (BitVec.ofNat 64 bp)
  let g := g.set 14 (BitVec.ofNat 64 name)
  let c : Cmd := { no := s.nextCmd, id := ⟨node, 8 * p, 0⟩, cgen := 0, cmd := 0, hi := false, trig := false, a := BitVec.ofNat 64 a,
                   b := BitVec.ofNat 64 b, g := g, asid := 0, ptroot := 0, user := false, rnd := 0, sat := false, nanp := 0, draws := [],
                   scales := [], pos := 0, sub := 0, counted := 0, open_ := 0, ix := none, single := false, rows := rows, started := false, hw := hw }
  ((s.polder node p).claim c c.claims).map (fun q =>
    let s := s.setPolder node p { q with engine := { q.engine with loQ := q.engine.loQ ++ [c] } }
    ({ s with nextCmd := s.nextCmd + 1 } : State).enq .engineCommandStart { node := node, n := p })

/-- A weight copy that has been asked for is issued, or tried again once table entries are free. -/
def State.issueCopy (s : State) (node p name : Nat) : State :=
  match s.repl node p name, s.nameEntry node name with
  | some m, some e =>
    if m.unissued = 0 then s
    else match s.hwCopy node p 1 (entWpa e) (3 * 2 ^ 29 + 65536 * repToff e m.idx) (1024 * entWlen e) (mLocal (entRbar e)) node p name with
      | some s => s.setRepl node p name { m with unissued := m.unissued - 1 }
      | none => s.enqOnce .rbarFlip { node := node, n := p, m := name, flag := true }
  | _, _ => s

/-- A replica's weights are copied: its RBAR expects them, and the manager waits for the flip. -/
def State.weightCopy (s : State) (name e r : Nat) : State :=
  let node := repNode e r
  let p := repPolder e r
  let bar := mLocal (entRbar e)
  let ph := fieldN (s.barWord node p bar) 0 1
  let s := match s.repl node p name with
    | some m => s.setRepl node p name { m with unissued := m.unissued + 1,
                                               pend := some (entVer e, match m.pend with | some (_, ph0) => ph0 | none => ph) }
    | none => s
  (s.barAdd node p bar (65536 * entWlen e : Nat) none).issueCopy node p name

/-- The first donor of the owner's unit with room for a panel (R405). -/
def DieSt.donor (d : DieSt) (wlen : Nat) : Option (Nat × Word) :=
  (List.range 64).findSome? (fun i => match tfind d.donors i with
    | some w => if fieldW w 63 1 = 1 ∧ wlen ≤ fieldW w 22 11 then some (i, w) else none
    | none => none)

/-- A replica is created: the lowest FREE index on the first donor, CREATING, its weights on their way. Nothing without a donor or an
index. -/
def State.createReplica (s : State) (own name e : Nat) : Option (State × Nat) :=
  let d := homeDieOf name
  match repIdx.find? (fun r => repState e r == 0), (s.die own d).donor (entWlen e) with
  | some r, some (i, w) =>
    let toff := fieldW w 33 10
    let left := fieldW w 22 11 - entWlen e
    let w' := BitVec.ofNat 64 (fieldW w 43 21 * 2 ^ 43 + (toff + entWlen e) % 1024 * 2 ^ 33 + left * 2 ^ 22)
    let x := s.die own d
    let s := s.setDie own d { x with donors := tset x.donors i w' }
    let e := entSet (repSet e r (fieldW w 51 12) (fieldW w 43 8) toff 1) 16 0 32 0
    let s := s.legChange own name e
    let node := repNode e r
    let p := repPolder e r
    let s := match s.repl node p name with
      | some m => s.setRepl node p name { m with idx := r, pend := none }
      | none => s.setRepl node p name (newRepl e r)
    some (s.weightCopy name e r, r)
  | _, _ => none

/-- A terp region goes back as a donor: the lowest entry that is not valid. -/
def State.addDonor (s : State) (own name e r : Nat) : State :=
  let d := homeDieOf name
  let x := s.die own d
  let w := BitVec.ofNat 64 (2 ^ 63 + repNode e r * 2 ^ 51 + repPolder e r * 2 ^ 43 + repToff e r * 2 ^ 33 + entWlen e * 2 ^ 22)
  match (List.range 64).find? (fun i => fieldW (tget (0 : Word) x.donors i) 63 1 == 0) with
  | some i => s.setDie own d { x with donors := tset x.donors i w }
  | none => s

/-- The creation test (R405): at each arrival that the owner's entry counts, and at each change of a replica's STATE by which a creation may become
due. -/
def State.creationTest (s : State) (own name : Nat) : State :=
  match s.legend own name with
  | none => s
  | some e =>
    if entCreate e = 0 ∨ repIdx.any (fun r => repState e r == 1) ∨ entArrive e < entCreate e * (repServing e).length then s
    else match s.createReplica own name e with | some (s, _) => s | none => s

/-! ## Arrival at a slot manager (R399 to R402) -/

/-- A SEQ is newer than the sender's mark (R401). -/
def newerSeq (q : Polder) (t : Token) : Bool :=
  match tfind q.marks t.sender with
  | some m => decide (1 ≤ (t.seq - m).toNat ∧ (t.seq - m).toNat ≤ 2 ^ 31 - 1)
  | none => true

/-- A version is newer than another, modulo 4,096 (R399). -/
def newerVer (v own : Nat) : Bool := let d := (v + 4096 - own) % 4096; decide (1 ≤ d ∧ d ≤ 2047)

/-- Acceptance goes back to the sender (R399, step 6). -/
def State.accept (s : State) (t : Token) : State :=
  ({ s with accepts := s.accepts ++ [(t.sender, t.seq, t.node)] } : State).enq .tokenAcceptance { node := t.sender.node, core := t.sender.core, slot := t.sender.slot }

/-- TOKEN_ACCEPTANCE: it completes the TSEND or TBWD that waits for it; for any other it is dropped. -/
def State.tokenAcceptance (s : State) (id : CtxId) : State :=
  match s.accepts.find? (fun x => x.1 == id) with
  | none => s
  | some x =>
    let rec take : List (CtxId × BitVec 32 × Nat) → List (CtxId × BitVec 32 × Nat)
      | [] => []
      | y :: r => if y = x then r else y :: take r
    let s := { s with accepts := take s.accepts }
    let c := s.ctx id
    match c.tok with
    | some w => if w.stage = 2 ∧ w.seq = x.2.1 then s.setCtx id { c with tok := some { w with stage := 3 } } else s
    | none => s

/-- The sender's mark is the highest SEQ accepted (R401). -/
def State.setMark (s : State) (t : Token) : State :=
  let q := s.polder t.node t.polder
  if newerSeq q t then s.setPolder t.node t.polder { q with marks := tset q.marks t.sender t.seq } else s

/-- A token forwarded to REP0, with its SEQ kept and REPLICA := 0 (R405); its credit here goes back. -/
def State.forward (s : State) (t : Token) (e : Nat) : State :=
  let s := (s.setMark t).creditBack t.node t.polder t.name t.part
  let t' := { t with r := 0, node := repNode e 0, polder := repPolder e 0, part := 65 }
  ({ s with tokens := s.tokens ++ [t'] } : State).enq .tokenArrival { node := t'.node, n := t'.polder }

/-- A word of M-space of a polder rises by 1 as one port event. A lost word cannot be read, and stays as it is (R185; log entry 42). -/
def State.mInc (s : State) (node p o : Nat) : State :=
  let v := memRead s.mem (spadAddr node p (mLocal o)) 4
  if s.lostWordIn (spadAddr node p (mLocal o)) 4 then s else s.spadWrite node p (mLocal o) 4 ((v + 1) % 2 ^ 32) node p 0x7FF

/-- Word 0 of a return tag (R400). -/
def tagWord0 (t : Token) (idx ver : Nat) : Nat :=
  t.sender.node * 2 ^ 52 + t.sender.core * 2 ^ 41 + t.sender.slot % 16 * 2 ^ 37 + idx * 2 ^ 33 + ver * 2 ^ 21 + 2 ^ 20 + t.bwd.toNat * 2 ^ 19 +
    fieldN t.bar 0 29 / 16

/-- Word 1 of a return tag. -/
def tagWord1 (t : Token) : Nat := t.seq.toNat * 2 ^ 32 + t.src / 32 * 2 ^ 14 + t.rowidx

/-- The row that a slot holds. -/
def Token.row (t : Token) : SlotRow := ⟨t.sender, t.src, t.rowidx, t.bar, t.seq, t.bwd, t.part⟩

/-- The slots of a manager in the order of R399: the lowest free one at or after a start, cyclically. -/
def Repl.freeFrom (m : Repl) (start n : Nat) : Option Nat :=
  ((List.range n).map (fun k => (start + k) % n)).find? (fun k => (tfind m.slots k).isNone)

/-- A page closes: ACNT rises (R402). -/
def State.pageClose (s : State) (node p name e k : Nat) : State :=
  match s.repl node p name with
  | none => s
  | some m =>
    match tfind m.slots k with
    | none => s
    | some x =>
      if x.closed then s
      else (s.setRepl node p name { m with slots := tset m.slots k { x with closed := true } }).mInc node p (entAcnt e)

/-- Steps 4 and 5 in permutation mode (R402): the row joins the page open for its sender, or opens the lowest free slot and links it to the
sender's page before it; a full page closes. A page's rows have one length, as its one ASTR needs; a row of another length opens a page of
its own (log entry 19). While a tag of the sender's pages is lost, the slot manager cannot read it, and the token waits (R185; log entry 42). -/
def State.landPage (s : State) (t : Token) (e : Nat) (m : Repl) : Option State :=
  let cap := 4096 / t.bytes
  let mine := fun (x : Nat × SlotSt) => match x.2.rows with | r :: _ => r.sender == t.sender | [] => false
  let opened := m.slots.find? (fun x => !x.2.closed && mine x && x.2.bytes == t.bytes)
  let unread := opened.isNone && m.slots.any (fun y => mine y && s.lostWordIn (spadAddr t.node t.polder (mLocal (entTgbase e + 16 * y.1) + 8)) 8)
  match (match opened with | some x => some x.1 | none => if unread then none else m.freeFrom 0 (entNslot e)) with
  | none => none
  | some k =>
    let x := match opened with | some y => y.2 | none => ⟨[], t.bytes, false⟩
    let tag := fun (j : Nat) => mLocal (entTgbase e + 16 * j)
    let next := fun (s : State) (j : Nat) => fieldN (memRead s.mem (spadAddr t.node t.polder (tag j + 8)) 8) 20 12
    let s := match opened with
      | some _ => s
      | none => match m.slots.find? (fun y => mine y && next s y.1 == 4095) with
        | none => s
        | some y =>
          let w := memRead s.mem (spadAddr t.node t.polder (tag y.1 + 8)) 8
          s.spadWrite t.node t.polder (tag y.1 + 8) 8 (w - fieldN w 20 12 * 2 ^ 20 + k * 2 ^ 20) t.node t.polder 0x7FF
    let off := entSabase e + 4096 * k + t.bytes * x.rows.length
    let s := s.spadWrite t.node t.polder off t.bytes t.data t.node t.polder 0x7FF
    let s := if x.rows = [] then s.spadWrite t.node t.polder (tag k) 8 (tagWord0 t m.idx m.ver) t.node t.polder 0x7FF else s
    let held := x.rows.length + 1
    let s := s.spadWrite t.node t.polder (tag k + 8) 8 (t.seq.toNat * 2 ^ 32 + 4095 * 2 ^ 20 + held * 2 ^ 8) t.node t.polder 0x7FF
    let x := { x with rows := x.rows ++ [t.row] }
    let s := s.setRepl t.node t.polder t.name { m with slots := tset m.slots k x }
    some (if cap ≤ held then s.pageClose t.node t.polder t.name e k else s)

/-- Steps 4 and 5 of R399 with tags: the row, its tag, then ACNT. While the word of ACNT is lost, the slot manager cannot read it, and the token waits
(R185; log entry 42). -/
def State.landTag (s : State) (t : Token) (e : Nat) (m : Repl) : Option State :=
  let n := entNslot e
  let acnt := memRead s.mem (spadAddr t.node t.polder (mLocal (entAcnt e))) 4
  match (if s.lostWordIn (spadAddr t.node t.polder (mLocal (entAcnt e))) 4 then none else m.freeFrom (acnt % n) n) with
  | none => none
  | some k =>
    let s := s.spadWrite t.node t.polder (entSabase e + entSlotBytes e * k) t.bytes t.data t.node t.polder 0x7FF
    let s := s.spadWrite t.node t.polder (mLocal (entTgbase e + 16 * k)) 16 (tagWord0 t m.idx m.ver + tagWord1 t * 2 ^ 64) t.node t.polder 0x7FF
    let s := s.setRepl t.node t.polder t.name { m with slots := tset m.slots k ⟨[t.row], t.bytes, true⟩ }
    some (s.mInc t.node t.polder (entAcnt e))

/-- Steps 3 to 6 of R399 at a replica; none where the token must wait in place for a slot. -/
def State.landToken (s : State) (t : Token) (e : Nat) (m : Repl) : Option State :=
  if !t.bwd ∧ newerVer t.ver m.ver then some (s.setRepl t.node t.polder t.name { m with heldToks := m.heldToks ++ [t] })
  else match (if entPerm e then s.landPage t e m else s.landTag t e m) with
  | none => none
  | some s =>
    let s := if t.bwd then
        match s.repl t.node t.polder t.name with
        | some m => s.setRepl t.node t.polder t.name { m with bwd := m.bwd + 1, whole := false, joined := false }
        | none => s
      else
        let own := repNode e 0
        match s.legend own t.name with
        | some o => (s.setLegend own t.name (entSet o 16 0 32 (entArrive o + 1))).creationTest own t.name
        | none => s
    let s := if t.part = 65 then s else s.setMark t
    some (s.accept t)

/-- DUPCNT rises by 1 (R232, R399). -/
def State.countDup (s : State) (node p : Nat) : State :=
  let q := s.polder node p
  s.setPolder node p { q with dupcnt := countUp q.dupcnt }

/-- The manager holds a tombstone and no replica beside it. -/
def Repl.gone (m : Repl) : Bool := m.tomb.isSome && !m.reborn

/-- The token is for the replica that a tombstone stands for: no replica is beside it, or the token was sent under an epoch older than its own (R405). -/
def Repl.buried (m : Repl) (t : Token) : Bool :=
  match m.tomb with | some ep => !m.reborn || decide (t.epoch < ep) | none => false

/-- R399 for one token, which has left the list of those under way; none where it must wait. -/
def State.arriveToken (s : State) (t : Token) : Option State :=
  let q := s.polder t.node t.polder
  let dup := fun (s : State) => (s.countDup t.node t.polder).accept t
  if t.part ≠ 65 ∧ !newerSeq q t then some (dup (s.creditBack t.node t.polder t.name t.part))
  else match tfind q.repls t.name, s.legend t.node t.name with
  | some m, some e =>
    let draining : Bool := match s.ownerEntry t.node t.name with | some o => repState o m.idx == 3 | none => false
    if m.buried t ∨ (!t.bwd ∧ draining) then some (s.forward t e)
    else s.landToken t e m
  | _, _ => some (dup s)

/-- The held tokens of a replica are taken up again, in order (R399, step 3): each lands, or stays for its version or for a free slot. They have passed the
duplicate test; a second copy of one that has just landed is dropped, and its credit returned (R399, R401). -/
def State.releaseHeld (s : State) (node p name : Nat) : State :=
  match s.repl node p name, s.legend node name with
  | some m, some e =>
    let s := s.setRepl node p name { m with heldToks := [] }
    let hold := fun (s : State) (t : Token) => match s.repl node p name with
      | some m => s.setRepl node p name { m with heldToks := m.heldToks ++ [t] }
      | none => s
    (m.heldToks.foldl (fun (x : State × List (CtxId × BitVec 32)) t =>
      let s := x.1
      if x.2.contains (t.sender, t.seq) then (((s.creditBack node p name t.part).countDup node p).accept t, x.2)
      else match (s.repl node p name).bind (fun m => if newerVer t.ver m.ver then none else s.landToken t e m) with
        | some s => (s, (t.sender, t.seq) :: x.2)
        | none => (hold s t, x.2)) (s, [])).1
  | _, _ => s

/-- A replica's refresh has landed once its RBAR has flipped: its version becomes that of the copy, and its held tokens are counted (R404, R406). -/
def State.refreshed (s : State) (node p name : Nat) : State :=
  match s.repl node p name, s.nameEntry node name with
  | some m, some e =>
    match m.pend with
    | none => s
    | some (ver, ph) =>
      if fieldN (s.barWord node p (mLocal (entRbar e))) 0 1 = ph then s
      else (s.setRepl node p name { m with pend := none, ver := ver }).releaseHeld node p name
  | _, _ => s

/-- The first token to a polder that can proceed and that no earlier token of its sender precedes. -/
def State.tokenPick (s : State) (node p : Nat) : List Token → List CtxId → List Token → Option State
  | [], _, _ => none
  | t :: r, seen, before =>
    if t.node ≠ node ∨ t.polder ≠ p then s.tokenPick node p r seen (before ++ [t])
    else if seen.contains t.sender then s.tokenPick node p r seen (before ++ [t])
    else match ({ s with tokens := before ++ r } : State).arriveToken t with
      | some s => some s
      | none => s.tokenPick node p r (t.sender :: seen) (before ++ [t])

/-- TOKEN_ARRIVAL at a polder: held tokens that wait for a slot only, then the first of those under way. Tokens that find no slot are tried
again. -/
def State.tokenArrival (s : State) (node p : Nat) : State :=
  let s := (s.polder node p).repls.foldl (fun (s : State) r => s.releaseHeld node p r.1) s
  match s.tokenPick node p s.tokens [] [] with
  | some s => s
  | none => if s.tokens.any (fun t => t.node == node && t.polder == p) then s.enq .tokenArrival { node := node, n := p } else s

/-- PAGE_CLOSE_TIMEOUT: page `k` has been open for 2^WIN ÷ 16 cycles. -/
def State.pageTimeout (s : State) (node p name k : Nat) : State :=
  match s.legend node name with
  | some e => s.pageClose node p name e k
  | none => s

/-- MARK_EVICTION: a sender's mark has gone unused for 2^20 cycles. -/
def State.markEvict (s : State) (node p : Nat) (id : CtxId) : State :=
  let q := s.polder node p
  s.setPolder node p { q with marks := tdel q.marks id }

/-! ## Returning results (R403) -/

/-- The slot is free, and its credits go back. -/
def State.freeSlotRow (s : State) (node p name k : Nat) : State :=
  match s.repl node p name with
  | none => s
  | some m =>
    match tfind m.slots k with
    | none => s
    | some x =>
      let bwd := (x.rows.filter (fun r => r.bwd)).length
      let m := x.rows.foldl (fun (m : Repl) r => m.credit r.part) { m with slots := tdel m.slots k, bwd := m.bwd - bwd }
      let s := s.setRepl node p name m
      let s := s.enq .tokenArrival { node := node, n := p }
      if bwd ≠ 0 ∧ m.bwd = 0 then
        (s.enq .joinCopy { node := node, n := p, m := name }).enq .replicaFree { node := node, n := p, m := name }
      else s

/-- A result row leaves for its origin. -/
def State.sendResult (s : State) (r : ResultRow) : State :=
  ({ s with results := s.results ++ [r] } : State).enq .resultRowLanding { node := r.node, n := r.core / 8 }

/-- The rows of a slot or page with their result data, from the local address on. -/
def State.resultRows (s : State) (la n : Nat) : List ResultRow → Except Stop (List ResultRow)
  | [] => .ok []
  | r :: rest => do
    let v ← s.portRead s.fnode s.pIdx la n (localVa la)
    let l ← s.resultRows (la + n) n rest
    .ok ({ r with data := v } :: l)

/-- TRET (R403), whose status word names STATUS alone (R395). In permutation mode it returns every row of the page, in page order. -/
def State.tokenReturn (s : State) (d : Reg) (w x : Word) : Res :=
  let name := fieldW w 0 24
  let k := fieldW w 24 12
  let sp := fieldW x 29 3
  if fieldW w 36 28 ≠ 0 then raise .tokenFault w
  else if fieldW x 30 34 ≠ 0 ∨ fieldW x 25 4 ≠ 0 ∨ fieldW x 0 5 ≠ 0 then raise .tokenFault x
  else
    let stale := Except.ok (s.setX d (tokWord 0 0 0 tkStale))
    match s.repl s.fnode s.pIdx name, s.legend s.fnode name with
    | some m, some e =>
      let tag := mLocal (entTgbase e + 16 * k)
      let t0 := memRead s.mem (spadAddr s.fnode s.pIdx tag) 8
      let t1 := memRead s.mem (spadAddr s.fnode s.pIdx (tag + 8)) 8
      if m.gone ∨ entNslot e ≤ k then stale
      else if s.lostWordIn (spadAddr s.fnode s.pIdx tag) 16 then raiseAcc .dataLost (BitVec.ofNat 64 (localVa tag)) 0
      else if fieldN t0 20 1 = 0 then stale
      else
        let node := fieldN t0 52 12
        let word := fun (st : Nat) => tokWord 0 0 0 st
        let ended := fun (s : State) =>
          (s.spadWrite s.fnode s.pIdx tag 8 (t0 - 2 ^ 20) s.fnode s.pIdx 0x7FF).freeSlotRow s.fnode s.pIdx name k
        if s.deadNode node then .ok ((ended s).setX d (word tkDead))
        else do
          let n := entRetBytes e
          let base : ResultRow := ⟨node, fieldN t0 41 11, 32 * fieldN t1 14 18, mLocal (16 * fieldN t0 0 18), n, 0, tokKey name (fieldN t0 33 4),
            s.fnode, s.fcore⟩
          let rows := if entPerm e then
              match tfind m.slots k with
              | some y => y.rows.map (fun r => { base with src := r.src, bar := r.bar })
              | none => []
            else [base]
          if spaceSize sp < fieldW x 0 29 + n * rows.length then raise .illegalAddress x
          else
            let l ← s.resultRows x.toNat n rows
            .ok ((ended (l.foldl (fun (s : State) r => s.sendResult r) s)).setX d (word tkOk))
    | _, _ => stale

/-- TRET. -/
def execTret (d a b : Reg) (s : State) : Out :=
  finish (.tret d a b) s (if s.c.ra then .ok s else s.tokenReturn d (s.X a) (s.X b))

/-- RESULT_ROW_LANDING: the oldest result row to a polder lands, and lowers its barrier; one that leaves A-space is dropped with FAULT. -/
def State.resultLanding (s : State) (node p : Nat) : State :=
  match s.results.find? (fun r => r.node == node && r.core / 8 == p) with
  | none => s
  | some r =>
    let rec take : List ResultRow → List ResultRow
      | [] => []
      | y :: l => if y = r then l else y :: take l
    let s := { s with results := take s.results }
    let s := s.setCore node r.core ((s.core node r.core).tokDown r.key)
    if spaceSize 0 < r.src + r.bytes then s.barFault node p r.bar
    else (s.spadWrite node p r.src r.bytes r.data r.fromNode (r.fromCore / 8) r.fromCore).barPiece node p r.bar r.bytes 6

/-! ## The name members (R404, R405) -/

/-- XQUERY, which a run-ahead helper executes too. -/
def execXquery (d a b : Reg) (s : State) : Out :=
  finish (.xquery d a b) s
    (if fieldW (s.X a) 24 40 ≠ 0 then raise .tokenFault (s.X a)
     else if fieldW (s.X b) 4 60 ≠ 0 then raise .tokenFault (s.X b)
     else .ok (s.setX d (match s.legend s.fnode (fieldW (s.X a) 0 24) with
       | some e => BitVec.ofNat 64 (entF e (8 * fieldW (s.X b) 0 4) 0 64)
       | none => 0)))

/-- The entry for a member that is valid in REP0's polder only, or the status that it ends with. -/
def State.ownedEntry (s : State) (name : Nat) : Except Nat Nat :=
  match s.legend s.fnode name with
  | none => .error tkNoname
  | some e => if repNode e 0 = s.fnode ∧ repPolder e 0 = s.pIdx then .ok e else .error tkNotowner

/-- XJOIN: JBAR expects the partials, and each replica is asked for its own. -/
def execXjoin (d a : Reg) (s : State) : Out :=
  finish (.xjoin d a) s (if s.c.ra then .ok s else
    let name := fieldW (s.X a) 0 24
    match s.ownedEntry name with
    | .error st => .ok (s.setX d (joinWord 0 0 st))
    | .ok e =>
      let l := repMask e
      let t := s.barAdd s.fnode s.pIdx (mLocal (entJbar e)) (l.length * entGlen e : Nat) none
      let t := l.foldl (fun (t : State) r =>
        let t := t.needRepl name e r
        let t := match t.repl (repNode e r) (repPolder e r) name with
          | some m => t.setRepl (repNode e r) (repPolder e r) name { m with joinReq := m.joinReq + 1 }
          | none => t
        t.enq .joinCopy { node := repNode e r, n := repPolder e r, m := name }) t
      .ok (t.setX d (joinWord (maskOf l) (entVer e) tkOk)))

/-- XVER: a release of the earlier stores at sys scope, the new version, and the refresh of every replica. A refresh that has landed before, and whose flip
the manager has not taken up, counts first. -/
def execXver (d a : Reg) (s : State) : Out :=
  finish (.xver d a) s (if s.c.ra then .ok s else
    let name := fieldW (s.X a) 0 24
    match s.ownedEntry name with
    | .error st => .ok (s.setX d (joinWord 0 0 st))
    | .ok e => do
      let t ← s.fenceStores 6
      let ver := (entVer e + 1) % 4096
      let e' := entSet e 8 20 12 ver
      let t := t.legChange s.fnode name e'
      let l := repMask e
      let t := l.foldl (fun (t : State) r =>
        ((t.needRepl name e r).refreshed (repNode e r) (repPolder e r) name).weightCopy name e' r) t
      .ok (t.setX d (joinWord (maskOf l) ver tkOk)))

/-- XCREATE, in the system context only (R394). -/
def execXcreate (d a : Reg) (s : State) : Out :=
  let i : Instr := .xcreate d a
  finish i s (if s.c.ra then .ok s
    else if !s.sys then raise .privilege (wordOf (encodeFirst i))
    else
      let name := fieldW (s.X a) 0 24
      match s.ownerEntry s.fnode name with
      | none => .ok (s.setX d (tokWord 0 0 0 tkNoname))
      | some e => match s.createReplica (repNode e 0) name e with
        | none => .ok (s.setX d (tokWord 0 0 0 tkNoroom))
        | some (t, _) => .ok (t.setX d (tokWord 0 0 0 tkOk)))

/-- A serving replica starts to drain (R405): fewer replicas serve, and a creation may be due. -/
def State.drainReplica (s : State) (own name e r : Nat) : State :=
  let s := s.legChange own name (repSetState e r 3)
  let s := match s.repl (repNode e r) (repPolder e r) name with
    | some m => s.setRepl (repNode e r) (repPolder e r) name { m with joined := false, whole := false }
    | none => s
  s.creationTest own name

/-- XRETIRE, in the system context only. -/
def execXretire (d a b : Reg) (s : State) : Out :=
  let i : Instr := .xretire d a b
  finish i s (if s.c.ra then .ok s
    else if !s.sys then raise .privilege (wordOf (encodeFirst i))
    else
      let name := fieldW (s.X a) 0 24
      let r := (s.X b).toNat
      match s.ownerEntry s.fnode name with
      | none => .ok (s.setX d (tokWord 0 0 0 tkNoname))
      | some e =>
        if r = 0 ∨ 15 < r ∨ repState e r ≠ 2 then .ok (s.setX d (tokWord 0 0 0 tkStale))
        else .ok ((s.drainReplica (repNode e 0) name e r).setX d (tokWord 0 0 0 tkOk)))

/-! ## Replica life (R405) -/

/-- RBAR_FLIP: a weight copy has landed. A replica being created starts to serve, unless VER changed meanwhile; a replica's version
becomes that of the copy, and its held tokens are counted. A barrier whose words are lost is read again once they have been rewritten (R185). -/
def State.rbarFlip (s : State) (node p name : Nat) : State :=
  match s.repl node p name, s.nameEntry node name with
  | some m, some e =>
    match m.pend with
    | none => s
    | some (ver, ph) =>
      let own := repNode e 0
      if s.barLost node p (mLocal (entRbar e)) then s.enqOnce .rbarFlip { node := node, n := p, m := name }
      else if fieldN (s.barWord node p (mLocal (entRbar e))) 0 1 = ph then s
      else if repState e m.idx = 1 ∧ entVer e ≠ ver then (s.setRepl node p name { m with pend := none }).weightCopy name e m.idx
      else if repState e m.idx = 1 then
        let s := s.setRepl node p name { newRepl e m.idx with ver := ver, tomb := m.tomb, reborn := m.tomb.isSome }
        ((s.legChange own name (repSetState e m.idx 2)).releaseHeld node p name).creationTest own name
      else s.refreshed node p name
  | _, _ => s

/-- CTL = CANCEL of a replica's faulted weight copy (R405). -/
def State.cancelCopy (s : State) (node p name : Nat) : State :=
  match s.repl node p name, s.nameEntry node name with
  | some m, some e =>
    let own := repNode e 0
    let s := s.setRepl node p name { m with pend := none }
    if repState e m.idx = 1 then
      let s := (s.addDonor own name e m.idx).legChange own name (repSet e m.idx 0 0 0 0)
      (if m.tomb.isSome then s else s.delRepl node p name).creationTest own name
    else if repState e m.idx = 2 ∧ m.idx ≠ 0 then
      let s := s.drainReplica own name e m.idx
      let s := match s.repl node p name with | some m => s.setRepl node p name { m with heldToks := [] } | none => s
      m.heldToks.foldl (fun (s : State) t => s.forward t e) s
    else s
  | _, _ => s

/-- CANCEL of a record (R227): a weight copy's takes the replica's transition with it. -/
def State.cancelCmd (s : State) (node p k : Nat) : State :=
  match tfind (s.polder node p).engine.recs k with
  | none => s
  | some r =>
    let s := s.cancelAny node p k
    if r.cmd.hw = 1 then s.cancelCopy node p r.cmd.g[14].toNat else s

/-- JOIN_COPY: a replica with no backward tokens copies its partial to its join slot; with `done`, that copy has landed. -/
def State.joinCopy (s : State) (node p name : Nat) (done : Bool) : State :=
  match s.repl node p name, s.nameEntry node name with
  | some m, some e =>
    if done then
      if repState e m.idx = 3 then
        (s.setRepl node p name { m with joined := m.whole }).enq .replicaFree { node := node, n := p, m := name }
      else s
    else if m.joinReq = 0 ∨ m.bwd ≠ 0 then s
    else
      let dst := entWpa e + 65536 * entWlen e + m.idx * entGlen e
      match s.hwCopy node p 2 (2 ^ 29 + entGoff e) dst (entGlen e / 64) (mLocal (entJbar e)) (repNode e 0) (repPolder e 0) name with
      | none => s.enqOnce .joinCopy { node := node, n := p, m := name }
      | some s =>
        let s := s.setRepl node p name { m with joinReq := m.joinReq - 1, whole := true }
        if m.joinReq ≤ 1 then s else s.enq .joinCopy { node := node, n := p, m := name }
  | _, _ => s

/-- REPLICA_FREE: a draining replica with no backward tokens, whose partial an XJOIN has had, goes FREE and leaves a tombstone. -/
def State.replicaFree (s : State) (node p name : Nat) : State :=
  match s.repl node p name, s.nameEntry node name with
  | some m, some e =>
    if repState e m.idx ≠ 3 ∨ m.bwd ≠ 0 ∨ !m.joined ∨ m.gone then s
    else
      let own := repNode e 0
      let s := s.setRepl node p name { m with tomb := some (entEpoch e + 1), reborn := false }
      let s := (s.addDonor own name e m.idx).legChange own name (repSet e m.idx 0 0 0 0)
      (s.enq .tombstoneEnd { node := node, n := p, m := name }).creationTest own name
  | _, _ => s

/-- TOMBSTONE_END: every package of the domain has acknowledged the epoch. -/
def State.tombstoneEnd (s : State) (node p name : Nat) : State :=
  match s.repl node p name, s.legend node name with
  | some m, some e =>
    match m.tomb with
    | none => s
    | some t =>
      let acks := (s.die (repNode e 0) (homeDieOf name)).acks
      if s.domain.all (fun n => decide (t ≤ tget 0 acks (name, n))) then
        if m.pend.isSome || m.reborn then s.setRepl node p name { m with tomb := none, reborn := false } else s.delRepl node p name
      else s.enq .tombstoneEnd { node := node, n := p, m := name }
  | _, _ => s

/-- The managers of a name at the end of a window (R397): each idle partition's free credits go to the pool. -/
def Repl.windowEnd (m : Repl) : Repl :=
  let idle := m.parts.filter (fun x => !m.active.contains x.1)
  { m with parts := tmap m.parts (fun k n => if m.active.contains k then n else 0), pool := idle.foldl (fun n x => n + x.2) m.pool,
           lastActive := m.active, active := [] }

/-- LEGEND_WINDOW_END in a package, for a name: its managers rebalance; the owner's unit tests for a retirement and clears ARRIVE. -/
def State.windowEnd (s : State) (node name : Nat) : State :=
  let s := { s with polders := tmap s.polders (fun k (q : Polder) => if k.1 = node then
    match tfind q.repls name with
    | some m => { q with repls := tset q.repls name m.windowEnd }
    | none => q else q) }
  match s.legend node name with
  | none => s
  | some e =>
    if repNode e 0 ≠ node then s
    else
      let serving := repServing e
      let clear := entSet e 16 0 32 0
      match (serving.filter (fun r => r != 0)).getLast? with
      | some r =>
        if entRetire e ≠ 0 ∧ 2 ≤ serving.length ∧ entArrive e < entRetire e * serving.length then s.drainReplica node name clear r
        else s.setLegend node name clear
      | none => s.setLegend node name clear

/-! ## Meanings of the events -/

/-- The context that an event names. -/
def Ev.id (e : Ev) : CtxId := ⟨e.node, e.core, e.slot⟩

/-- INSTALL: name `m` at die `n`. -/
def execInstall (s : State) : Out := .next (s.legInstall s.ev.node s.ev.n s.ev.m)
/-- REMOVE. -/
def execRemove (s : State) : Out := .next (s.legRemove s.ev.node s.ev.n s.ev.m)
/-- READ. -/
def execRead (s : State) : Out := .next (s.legRead s.ev.node s.ev.n s.ev.m)
/-- LEGEND_UPDATE: name `n`. -/
def execLegendUpdate (s : State) : Out := .next (s.legendUpdate s.ev.node s.ev.n)
/-- EPOCH_ACK: name `n`, epoch `m`. -/
def execEpochAck (s : State) : Out := .next (s.epochAck s.ev.node s.ev.n s.ev.m)
/-- LEGEND_WINDOW_END: name `m`. -/
def execLegendWindowEnd (s : State) : Out := .next (s.windowEnd s.ev.node s.ev.m)
/-- RBAR_FLIP: polder `n`, name `m`; with `flag`, a weight copy is tried that no table entries were free for (R194). -/
def execRbarFlip (s : State) : Out := .next (if s.ev.flag then s.issueCopy s.ev.node s.ev.n s.ev.m else s.rbarFlip s.ev.node s.ev.n s.ev.m)
/-- REPLICA_FREE. -/
def execReplicaFree (s : State) : Out := .next (s.replicaFree s.ev.node s.ev.n s.ev.m)
/-- TOMBSTONE_END. -/
def execTombstoneEnd (s : State) : Out := .next (s.tombstoneEnd s.ev.node s.ev.n s.ev.m)
/-- TOKEN_ARRIVAL: polder `n`. -/
def execTokenArrival (s : State) : Out := .next (s.tokenArrival s.ev.node s.ev.n)
/-- TOKEN_ACCEPTANCE. -/
def execTokenAcceptance (s : State) : Out := .next (s.tokenAcceptance s.ev.id)
/-- SLOT_CREDIT_REQUEST. -/
def execSlotCreditRequest (s : State) : Out := .next (s.slotCredit s.ev.id)
/-- TOKEN_CREDIT_TIMEOUT. -/
def execTokenCreditTimeout (s : State) : Out := .next (s.tokTimeout s.ev.id)
/-- PAGE_CLOSE_TIMEOUT: page `pa` of name `m` at polder `n`. -/
def execPageCloseTimeout (s : State) : Out := .next (s.pageTimeout s.ev.node s.ev.n s.ev.m s.ev.pa)
/-- RESULT_ROW_LANDING: polder `n`. -/
def execResultRowLanding (s : State) : Out := .next (s.resultLanding s.ev.node s.ev.n)
/-- JOIN_COPY. -/
def execJoinCopy (s : State) : Out := .next (s.joinCopy s.ev.node s.ev.n s.ev.m s.ev.flag)
/-- MARK_EVICTION: the mark at polder `n` of node `m` for the sender that the event names. -/
def execMarkEviction (s : State) : Out := .next (s.markEvict s.ev.m s.ev.n s.ev.id)
/-- CANCEL: record `m` of polder `n`. -/
def execCancel (s : State) : Out := .next (s.cancelCmd s.ev.node s.ev.n s.ev.m)
/-- RESUME_COMMAND: record `m` of polder `n`. -/
def execResumeCommand (s : State) : Out := .next (s.resumeAny s.ev.node s.ev.n s.ev.m)

end Sys2Proof.Machine
end

