-- ==== Sys2Proof/Machine/Events.lean ====
section
/-! DEFINITION. The steps of units inside the installation that no instruction takes: issue and the vector unit, the homes and the base
dies, page migration's time-outs, pool regions, locks, scratchpad ports, engines, arrays and mailboxes. An event whose condition does not
hold changes nothing; one that cannot be done yet is tried again. -/

namespace Sys2Proof.Machine
open Sys2Proof

/-- A slot's wait is tried again: it is READY, and executes its instruction from the start. -/
def State.wakeSlot (s : State) (id : CtxId) (w : Wait) : State :=
  let c := s.ctx id
  if c.st = .stalled ∧ c.wait = some w then s.setCtx id { c with st := .ready, wait := none } else s

/-- The time-out of a wait has passed. -/
def State.expire (s : State) (id : CtxId) (w : Wait) : State :=
  let c := s.ctx id
  if c.st = .stalled ∧ c.wait = some w then s.setCtx id { c with expired := true } else s

/-! ## Issue (R34, R361) -/

/-- SLOT_SWITCH: the current slot of a core cannot issue, and the core goes to its next ready slot. -/
def State.slotSwitch (s : State) (node k : Nat) : State :=
  if (s.ctx ⟨node, k, (s.core node k).slot⟩).st = .ready ∧ s.runnable node k (s.core node k).slot then s else s.switchSlot node k

/-- SLOT_SWITCH. -/
def execSlotSwitch (s : State) : Out := .next (s.slotSwitch s.ev.node s.ev.core)

/-- ISSUE_QUANTUM: the slot has issued 256 instructions in a row. -/
def execIssueQuantum (s : State) : Out :=
  .next (if 256 ≤ (s.core s.ev.node s.ev.core).run then s.switchSlot s.ev.node s.ev.core else s)

/-! ## The vector unit (R281 to R283, R242) -/

/-- The head of a core's vector queue: its oldest entry that is not bound. -/
def CoreSt.vqHead (q : CoreSt) : Option VqEntry := q.vq.find? (fun e => !e.bound)

/-- The head is ready: no bound instruction of its context still has to write a register that it reads (R281). -/
def CoreSt.vqReady (q : CoreSt) : Bool :=
  match q.vqHead with
  | none => false
  | some e => !(q.vq.any (fun x => x.bound && x.slot == e.slot && e.srcs.contains x.dest))

/-- Binds the head. -/
def bindFirst : List VqEntry → List VqEntry
  | [] => []
  | e :: r => if e.bound then e :: bindFirst r else { e with bound := true } :: r

/-- Removes the first bound entry. -/
def dropBound : List VqEntry → List VqEntry
  | [] => []
  | e :: r => if e.bound then r else e :: dropBound r

/-- The core indices of a polder in rotating order after `k`, ending with `k`. -/
def coreRotation (k : Nat) : List Nat := (List.range 8).map (fun j => (k + 1 + j) % 8)

/-- Adds the weights until a ready core reaches 8 (R282). -/
def deficits (ready : List Nat) (w : Nat → Nat) (d : Nat → Int) : Nat → Nat → Int
  | 0 => d
  | n + 1 => if ready.any (fun k => decide (8 ≤ d k)) then d else
    deficits ready w (fun k => if ready.contains k then d k + w k else 0) n

/-- One lane group of a polder is bound, if a core has a ready head (R282). -/
def State.bindOne (s : State) (node p : Nat) : State :=
  let core := fun (k : Nat) => s.core node (8 * p + k)
  let ready := (List.range 8).filter (fun k => (core k).vqReady)
  if ready = [] then s
  else
    let last := (s.polder node p).vlast
    let w := fun (k : Nat) => (core k).vshare.toNat
    let allZero := ready.all (fun k => w k == 0)
    let d := if allZero then fun k => (core k).deficit else deficits ready w (fun k => (core k).deficit) 8
    match (coreRotation last).find? (fun k => ready.contains k && (allZero || decide (8 ≤ d k))) with
    | none => s
    | some c =>
      let s := (List.range 8).foldl (fun (s : State) k =>
        let q := s.core node (8 * p + k)
        if d k = q.deficit then s else s.setCore node (8 * p + k) { q with deficit := d k }) s
      let q := s.core node (8 * p + c)
      let s := s.setCore node (8 * p + c) { q with vq := bindFirst q.vq, deficit := if allZero then q.deficit else q.deficit - 8 }
      (s.setPolder node p { s.polder node p with vlast := c }).enq .vectorResultWrite { node := node, core := 8 * p + c }

/-- The lane groups of a polder that are not retired (R437). -/
def State.laneGroups (s : State) (node p : Nat) : Nat :=
  8 - ((List.range 8).filter (fun k => (s.pkg node).retired.contains (2, 8 * p + k))).length

/-- VECTOR_BIND: the arbiter binds ready heads to the lane groups. After a starved return the lane group issues nothing for a cycle. -/
def State.vectorBind (s : State) (node p : Nat) : State :=
  if (s.polder node p).starved then
    (s.setPolder node p { s.polder node p with starved := false }).enq .vectorBind { node := node, n := p }
  else (List.range (s.laneGroups node p)).foldl (fun (s : State) _ => s.bindOne node p) s

/-- VECTOR_BIND. -/
def execVectorBind (s : State) : Out := .next (s.vectorBind s.ev.node s.ev.n)

/-- VECTOR_RESULT_WRITE: the oldest bound instruction of a core completes; heads that waited for it may be ready. -/
def execVectorResultWrite (s : State) : Out :=
  let q := s.core s.ev.node s.ev.core
  .next (if q.vq.any (fun e => e.bound) then
      (s.setCore s.ev.node s.ev.core { q with vq := dropBound q.vq }).enq .vectorBind { node := s.ev.node, n := s.ev.core / 8 }
    else s)

/-- MEMORY_RETURN_WRITE: the oldest return of a polder is written. -/
def execMemoryReturnWrite (s : State) : Out :=
  let q := s.polder s.ev.node s.ev.n
  .next (s.setPolder s.ev.node s.ev.n { q with returns := q.returns.drop 1 })

/-- RETURN_STARVATION: a return has waited 16 cycles. -/
def execReturnStarvation (s : State) : Out :=
  let q := s.polder s.ev.node s.ev.n
  .next (if q.returns = [] then s else s.setPolder s.ev.node s.ev.n { q with starved := true })

/-- A context as a requester. -/
def State.reqOf (s : State) (id : CtxId) : Req :=
  let c := s.ctx id
  { id := id, asid := c.asid, ptroot := c.ptroot, user := id.slot != 11, ra := c.ra, engine := false }

/-- STREAM_ELEMENT_FETCH: a read port fetches its next element ahead, at most 4 before the pops. An element that faults, or whose
conversion raises flags, is left to its pop. -/
def State.streamFetch (s : State) (id : CtxId) (r : Reg) : State :=
  let c := s.ctx id
  match c.portOf r with
  | none => s
  | some p =>
    if p.write ∨ 4 ≤ p.fetched.length ∨ p.remain ≤ p.fetched.length then s
    else
      let k := p.k + p.fetched.length
      -- each element is a request of its own, and none of the instruction that the context tries (R116)
      match (s.setCtx id { c with surveyed := [] }).vecLoad (s.reqOf id) (p.va k) p.typ.toNat false with
      | .ok (s', v, f) =>
        if f ≠ 0 then s
        else (s'.setCtx id { (s'.ctx id).setPort r { p with fetched := p.fetched ++ [(k, v)] } with surveyed := c.surveyed }).enq .streamElementFetch
          { node := id.node, core := id.core, slot := id.slot, n := r.toNat }
      | .error _ => s

/-- STREAM_ELEMENT_FETCH. -/
def execStreamElementFetch (s : State) : Out := .next (s.streamFetch s.ev.id (BitVec.ofNat 5 s.ev.n))

/-- STREAM_APPEND_PERFORMED: the oldest buffered append of a write port is performed, once no port has still to apply it (R191, R237). -/
def execStreamAppendPerformed (s : State) : Out :=
  let c := s.ctx s.ev.id
  let r : Reg := BitVec.ofNat 5 s.ev.n
  .next (match c.portOf r with
    | some p =>
      if (p.buffered.take 1).any (fun e => s.appendWaits s.ev.id c.gen r.toNat e.1) then s.enq .streamAppendPerformed s.ev
      else s.setCtx s.ev.id (c.setPort r { p with buffered := p.buffered.drop 1 })
    | none => s)

/-! ## Homes and directories (R109, R121, R124, R132) -/

/-- The core's tracked copies of a physical line. -/
def CoreSt.tracks (q : CoreSt) (pl : Nat) : List L1Line := q.l1.filter (fun l => l.pline == pl && l.tracked)

/-- COHERENT_REQUEST_AT_HOME: a core's request for line `pa` reaches its home: 0 a fill or an uncached read, for which the home merges a
holder's dirty bytes; 1 ownership, after which no other core has a tracked copy; 2 an uncached write or a far atomic, after which none
has. With `flag` a prefetch of the core for its virtual line `m` of space `w` returns (R182). A line that is FROZEN or NEAR-HELD makes it wait. -/
def State.homeRequest (s : State) (e : Ev) : State :=
  let pl := lineOf e.pa
  let q := s.core e.node e.core
  if s.frozen pl || s.nmHolds pl then s.enq .coherentRequestAtHome e
  else if e.flag then
    s.setCore e.node e.core { q with misses := q.misses.erase (BitVec.ofNat 16 e.w.toNat, e.m) }
  else match e.n with
    | 0 => s.merge pl
    | 1 => s.recall pl ((q.tracks pl).head?.map (fun l => ⟨e.node, e.core, l.asid, l.vline⟩))
    | _ => s.recall pl none

/-- COHERENT_REQUEST_AT_HOME. -/
def execCoherentRequestAtHome (s : State) : Out := .next (s.homeRequest s.ev)

/-- A core's copy of a virtual line stays, shared and clean; its dirty bytes merge at the slice (R124). -/
def State.l1clean (s : State) (node k : Nat) (l : L1Line) : State :=
  let q := s.core node k
  let s := s.setCore node k { q with l1 := q.l1.map (fun x => if x.at l.asid l.vline then { x with st := .shared, dirty := 0 } else x) }
  s.mapLine node (k / 256) (s.lineSlice node (k / 256) l.asid l.vline) l.asid l.vline (fun x =>
    if x.pline = l.pline then { x with owned := x.owned && l.st != .owned, dirty := x.dirty ||| l.dirty } else x)

/-- A core's dirty bytes of a line merge at the next level; on a recall the copy goes too. -/
def State.writeBack (s : State) (node k pl : Nat) (gone : Bool) : State :=
  ((s.core node k).tracks pl).foldl (fun s l => if gone then s.l1drop node k l.asid l.vline true else s.l1clean node k l) s

/-- DIRTY_WRITEBACK: core and line; on a recall (`flag`) the copy goes too. -/
def execDirtyWriteback (s : State) : Out := .next (s.writeBack s.ev.node s.ev.core (lineOf s.ev.pa) s.ev.flag)

/-- SET_AD: the OR of A, or of A and D (`flag`), with the entry that the walker read, reaches the leaf's home at `pa`. A line that is NEAR-HELD or
FROZEN makes it wait (R66, R118). -/
def execSetAd (s : State) : Out :=
  .next (if s.nmHolds s.ev.pa || s.frozen s.ev.pa then s.enq .setAd s.ev else match s.setAd s.ev.node s.ev.pa s.ev.w s.ev.flag with | some s' => s' | none => s)

/-- The near-memory operations of a context that a migration has sent back have waited for a moving pointer too long (R67, R106). -/
def State.nmLate (s : State) (id : CtxId) : State :=
  { s with nmOps := s.nmOps.map (fun o => if o.id = id ∧ o.stage = .returned then { o with late := true } else o) }

/-- WALK_MIGRATING_TIMEOUT: 2^16 cycles of waiting for a pointer entry with M = 1, for a slot, or (`flag`) for engine command `m`, or (`n` = 1 too)
for the slot's near-memory operations that are translated again. -/
def execWalkMigratingTimeout (s : State) : Out :=
  .next (if s.ev.flag then (if s.ev.n = 1 then s.nmLate s.ev.id else { s with late := addOnce s.late s.ev.m }) else s.expire s.ev.id .migration)

/-- MIGRATION_HOLD_TIMEOUT: 2^16 cycles of waiting at a frozen line. -/
def execMigrationHoldTimeout (s : State) : Out := .next (s.expire s.ev.id .migration)

/-- CONTENTION_DECAY: a near atomic's line has stayed 512 cycles in a core's L1. -/
def execContentionDecay (s : State) : Out :=
  let q := s.core s.ev.node s.ev.core
  .next (s.setCore s.ev.node s.ev.core
    { q with l1 := q.l1.map (fun l => if l.pline = lineOf s.ev.pa then { l with cont := l.cont - 1 } else l) })

/-! ## Errors in the memory (R63, R64, R437) -/

/-- A unit starts its self-test (R437). -/
def State.startTest (s : State) (node code index : Nat) : State :=
  let p := s.pkg node
  s.setPkg node { p with testing := addOnce p.testing (code, index) }

/-- A corrected error of a unit is counted (R63). -/
def State.countCorrected (s : State) (node code index : Nat) : State :=
  let p := s.pkg node
  s.setPkg node { p with corrected := tset p.corrected (code, index) (tget 0 p.corrected (code, index) + 1) }

/-- A read of an HBM line meets errors in the symbols of `dies` DRAM dies (R63, R64): of one, corrected, written back and counted; of two, the
line is LOST; of three or more the part gives no guarantee, and `v` is passed on as the 32 bytes that hold `pa` (R63's miscorrected or
undetected data). What is detected starts the self-test of the pseudo-channel, which the address names (R61). -/
def State.symbolError (s : State) (pa dies : Nat) (v : Vec) : State :=
  let node := paNode pa
  let test := fun (s : State) => s.startTest node 6 (hbmUnit pa)
  match dies with
  | 0 => s
  | 1 => test (s.countCorrected node 6 (hbmUnit pa))
  | 2 => test ((s.markLost (lineOf pa)).logError node 6 3 (hbmUnit pa))
  | _ => { s with mem := memWrite s.mem (pa / 32 * 32) 32 v.toNat }

/-- PATROL_SCRUB: one line is read; errors stand in the symbols of `n` dies, or (`flag`) the line cannot be corrected. -/
def execPatrolScrub (s : State) : Out :=
  let e := s.ev
  .next (if paClass e.pa ≠ 0 then s else s.symbolError e.pa (if e.flag then 2 else e.n) e.v)

/-! ## Near-memory operations on their way (R65 to R72, R76) -/

/-- The first operation that `p` picks is replaced, or removed. -/
def nmUpdate (p : NmOp → Bool) (f : NmOp → Option NmOp) : List NmOp → List NmOp
  | [] => []
  | o :: r => if p o then (match f o with | some o' => o' :: r | none => r) else o :: nmUpdate p f r

/-- The operation is on a line, at a stage. -/
def NmOp.isAt (o : NmOp) (pl : Nat) (st : NmStage) : Bool := lineOf o.pa == pl && o.stage == st

/-- The first operation on a line at a stage. -/
def State.nmFirst (s : State) (pl : Nat) (st : NmStage) : Option NmOp := s.nmOps.find? (fun o => o.isAt pl st)

/-- An operation follows the operations of its context that a migration has sent back: those are translated and sent again first (R73, R76). -/
def State.nmBehind (s : State) (id : CtxId) : Bool := s.nmOps.any (fun o => o.id == id && o.stage == .returned)

/-- NEAR_MEMORY_FORWARD: the home recalls the tracked copies, the line is NEAR-HELD, and the operation goes to the base die. The issuing core keeps
no untracked copy either (R71, R73). -/
def State.nmForward (s : State) (pa : Nat) : State :=
  let pl := lineOf pa
  match s.nmFirst pl .sent with
  | none => s
  | some _ =>
    let may := fun (o : NmOp) => o.isAt pl .sent && !s.nmBehind o.id
    match s.nmOps.find? may with
    | none => s.enq .nearMemoryForward { pa := pa }
    | some o =>
      if s.frozen pl then s.enq .nearMemoryForward { pa := pa }
      else
        let s := (s.recall pl none).dropSynonyms o.id.node o.id.core pl none
        ({ s with nmOps := nmUpdate may (fun o => some { o with stage := .forwarded }) s.nmOps } : State).enq .nearMemoryApply { pa := o.pa }

/-- NEAR_MEMORY_FORWARD. -/
def execNearMemoryForward (s : State) : Out := .next (s.nmForward s.ev.pa)

/-- NEAR_MEMORY_APPLY: the operation is applied in the order of forwarding, unless the line cannot be read (`uncorrectable`, which is an error of the
memory like any other, or recorded LOST). -/
def State.nmApply (s : State) (pa : Nat) (uncorrectable : Bool) : State :=
  let pl := lineOf pa
  match s.nmFirst pl .forwarded with
  | none => s
  | some o =>
    let s := if uncorrectable then s.symbolError o.pa 2 0 else s
    let lost := s.isLost pl
    let n := nmBytes o.op o.vec
    let s := if lost then s else s.hbmWrite o.pa n (nmApplyOp o.op o.vec (memRead s.mem o.pa n) o.data.toNat)
    ({ s with nmOps := nmUpdate (fun o => o.isAt pl .forwarded) (fun o => some { o with stage := .applied, err := if lost then some .dataLost else none }) s.nmOps } : State).enq
      .nearMemoryAck { pa := o.pa }

/-- NEAR_MEMORY_APPLY. -/
def execNearMemoryApply (s : State) : Out := .next (s.nmApply s.ev.pa s.ev.flag)

/-- An acknowledgement reaches its context: nm_pending falls, an error waits for a FENCE of class NM; one whose context has ended makes a
machine check (R72, R431). -/
def State.nmAcked (s : State) (o : NmOp) : State :=
  let c := s.ctx o.id
  if c.gen = o.cgen ∧ c.st ≠ .free then
    s.setCtx o.id { c with nmPending := c.nmPending - 1,
                           nmErrors := match o.err with | some e => c.nmErrors ++ [⟨e, o.va, paNode o.pa⟩] | none => c.nmErrors }
  else match o.err with
    | some e => s.machineCheck o.id.node o.id.core ⟨true, e.code, o.id.slot % 16, 1, paNode o.pa, 0, o.va⟩
    | none => s

/-- NEAR_MEMORY_ACK. -/
def State.nmAck (s : State) (pa : Nat) : State :=
  let pl := lineOf pa
  match s.nmFirst pl .applied with
  | none => s
  | some o =>
    let s := { s with nmOps := nmUpdate (fun o => o.isAt pl .applied) (fun _ => none) s.nmOps }
    match o.piece with
    | some (no, i, k, j) => s.enmscAck o no i k j
    | none => s.nmAcked o

/-- NEAR_MEMORY_ACK. -/
def execNearMemoryAck (s : State) : Out := .next (s.nmAck s.ev.pa)

/-- NEAR_MEMORY_RETURN: an operation that the home has sent back is translated again and sent to the new frame's home; a translation that
fails is its error (R67); so is a wait for a moving pointer past its time-out (R106). -/
def State.nmReturn (s : State) (pa : Nat) (id : CtxId) : State :=
  let mine := fun (o : NmOp) => o.pa == pa && o.id == id && o.stage == .returned
  match s.nmOps.find? mine with
  | none => s
  | some o =>
    let ev : Ev := { pa := pa, node := id.node, core := id.core, slot := id.slot }
    let put := fun (s : State) (o' : NmOp) => ({ s with nmOps := nmUpdate mine (fun _ => some o') s.nmOps } : State)
    let q : Req := { id := o.id, asid := o.asid, ptroot := o.ptroot, user := o.id.slot % 16 != 11, ra := false, engine := true, cmd := o.piece.map (·.1) }
    match s.nmPlace q o.va.toNat (nmBytes o.op o.vec) with
    | .ok (s, x) => (put s { o with pa := x.pa, mapGen := x.gen, stage := .sent, late := false }).enq .nearMemoryForward { pa := x.pa }
    | .error (.trap t) => (put s { o with err := some t.cause, stage := .applied }).enq .nearMemoryAck { pa := o.pa }
    | .error (.trapKeep t s) => (put s { o with err := some t.cause, stage := .applied }).enq .nearMemoryAck { pa := o.pa }
    | .error (.wait w s) =>
      if w = .migration ∧ o.late then (put s { o with err := some .pageMigrating, stage := .applied }).enq .nearMemoryAck { pa := o.pa }
      else s.enq .nearMemoryReturn ev

/-- NEAR_MEMORY_RETURN. -/
def execNearMemoryReturn (s : State) : Out := .next (s.nmReturn s.ev.pa s.ev.id)

/-! ## The pool (R82 to R96) -/

/-- The state in which a package holds a line: 0 not at all, 1 shared, 2 exclusive. -/
def State.heldState (s : State) (pl : Nat) : Nat := if s.holders pl = [] then 0 else if (s.dir pl).owner.isSome then 2 else 1

/-- The back-invalidate snoops of R87. -/
inductive Snoop where
  | inv | data | cur
deriving DecidableEq, Repr, Inhabited

/-- A snoop of one line of a package: its dirty bytes go to the device first; then the response, 0 BIRspI, 1 BIRspS, 2 BIRspE. -/
def State.snoopLine (s : State) (node pl : Nat) (k : Snoop) : State × Nat :=
  let was := s.heldState pl
  match k with
  | .inv => (((s.recall pl none).poolClean node pl).dropWalks pl, 0)
  | .data => ((s.merge pl).poolClean node pl, min was 1)
  | .cur => ((s.cleanCopies pl).poolClean node pl, was)

/-- A snoop of `n` lines from `pl` on, a block form, line by line in ascending address; its one response is the strongest of the lines' (log
entry 47). -/
def State.snoopLines (s : State) (node pl : Nat) (k : Snoop) : Nat → State × Nat
  | 0 => (s, 0)
  | n + 1 =>
    let (s, a) := s.snoopLine node pl k
    let (s, b) := s.snoopLines node (pl + 64) k n
    (s, max a b)

/-- A snoop of a line or (`n` lines, at most 4) a block, and its response. -/
def State.biSnoop (s : State) (e : Ev) (k : Snoop) : State :=
  let r := s.snoopLines e.node (lineOf e.pa) k (max 1 (min e.n 4))
  r.1.setPkg e.node { r.1.pkg e.node with biRsp := some (lineOf e.pa, r.2) }

/-- BISNPINV. -/
def execBisnpinv (s : State) : Out := .next (s.biSnoop s.ev .inv)
/-- BISNPDATA. -/
def execBisnpdata (s : State) : Out := .next (s.biSnoop s.ev .data)
/-- BISNPCUR: the copies are kept, clean. -/
def execBisnpcur (s : State) : Out := .next (s.biSnoop s.ev .cur)

/-- Every enabled region of a port goes LOST (R91). -/
def State.portLost (s : State) (node port : Nat) : State :=
  ((s.pkg node).regions.filter (fun e => e.2.port == port)).foldl (fun (s : State) e => s.regionLost node e.1) s

/-- A pool port is up or down. -/
def State.setPoolUp (s : State) (node port : Nat) (up : Bool) : State :=
  let p := s.pkg node
  if h : port < 4 then s.setPkg node { p with poolUp := p.poolUp.set port up h } else s

/-- POOL_LINK_LOSS: port `n` loses its link, or (`flag`) its device signals a fatal error while the link stays up. -/
def execPoolLinkLoss (s : State) : Out :=
  .next ((if s.ev.flag then s else s.setPoolUp s.ev.node s.ev.n false).portLost s.ev.node s.ev.n)

/-- POOL_REQUEST_TIMEOUT: a request at port `n` has waited 2^21 cycles. -/
def execPoolRequestTimeout (s : State) : Out := .next (s.portLost s.ev.node s.ev.n)

/-- FORCELOST: management forces region `n` to LOST. -/
def execForcelost (s : State) : Out := .next (s.regionLost s.ev.node s.ev.n)

/-- REGION_ENABLE: the value written to word 0 of entry `n`. -/
def execRegionEnable (s : State) : Out := .next (s.regionEnable s.ev.node s.ev.n s.ev.w.toNat)
/-- REGION_DISABLE. -/
def execRegionDisable (s : State) : Out := .next (s.regionDisable s.ev.node s.ev.n s.ev.w.toNat)
/-- REGION_DETACH_DONE. -/
def execRegionDetachDone (s : State) : Out := .next (s.regionDetached s.ev.node s.ev.n)
/-- REATTACH. -/
def execReattach (s : State) : Out := .next (s.regionReattach s.ev.node s.ev.n)
/-- RELEASE. -/
def execRelease (s : State) : Out := .next (s.regionRelease s.ev.node s.ev.n)
/-- CLEARLOG. -/
def execClearlog (s : State) : Out := .next (s.regionClearlog s.ev.node s.ev.n)
/-- DECODER_CHECK: `flag` says that the decoder accepts the region. -/
def execDecoderCheck (s : State) : Out := .next (s.regionDecoder s.ev.node s.ev.n s.ev.flag)

/-- A line's MemWr has completed (R89): every store to it that no newer dirty byte hides is performed at the device. -/
def State.poolPerformed (s : State) (node pl : Nat) : State :=
  let s := s.poolComplete node pl
  if (s.pkg node).poolMask pl ≠ 0 then s else s.poolDone pl

/-- POOL_DEVICE_RESPONSE: read data, or (`flag`) the completion of a line's MemWr. -/
def execPoolDeviceResponse (s : State) : Out :=
  let node := s.ev.node
  let pl := lineOf s.ev.pa
  let up := match s.regionHome node (paOff pl) with | some (_, r) => r.st == .attached | none => false
  .next (if s.ev.flag && up then s.poolPerformed node pl else s)

/-! ## Locks (R155, R161 to R175) -/

/-- The request of a waiting LKACQ or LKTRY reaches the home. -/
def State.lockArrival (s : State) (id : CtxId) : State :=
  match s.lockSent id with
  | some r => s.lockAccept id r (decide (r.t < lkTryMark))
  | none => s

/-- LOCK_REQUEST_RESEND: a request that the home returned is sent again. -/
def execLockRequestResend (s : State) : Out :=
  .next (if (s.lockSent s.ev.id).isSome then s.enq .lockRequestAccept { node := s.ev.node, core := s.ev.core, slot := s.ev.slot } else s)
/-- LOCK_REQUEST_ACCEPT. -/
def execLockRequestAccept (s : State) : Out := .next (s.lockArrival s.ev.id)
/-- LOCK_TIMEOUT. -/
def execLockTimeout (s : State) : Out := .next (s.lockTimeout s.ev.id)
/-- LOCK_RELEASE: line `pa`. -/
def execLockRelease (s : State) : Out := .next (s.releaseArrived (lineOf s.ev.pa))
/-- HOLD_LIMIT: line `pa`. -/
def execHoldLimit (s : State) : Out := .next (s.holdLimit (lineOf s.ev.pa))
/-- DEADLOCK_PROBE. -/
def execDeadlockProbe (s : State) : Out := .next (s.deadlockProbe s.ev.id)

/-! ## Scratchpad ports (R191 to R196) -/

/-- SCRATCHPAD_PORT_ACCESS: the access that a slot waits for comes up at its port, and is tried; or (`flag`) the stores that wait at the port of
polder `n` do. -/
def execScratchpadPortAccess (s : State) : Out :=
  .next (if s.ev.flag then s.portDrain s.ev.node s.ev.n (s.polder s.ev.node s.ev.n).portQ else s.wakeSlot s.ev.id .resource)
/-- SCOREBOARD_RELEASE: the entry that an access waits for has been freed, and the access is tried. -/
def execScoreboardRelease (s : State) : Out := .next (s.wakeSlot s.ev.id .resource)
/-- TRACE_RING_CONTROL: a write of the control register of polder `n`'s ring. -/
def execTraceRingControl (s : State) : Out := .next (s.ringWrite s.ev.node s.ev.n s.ev.w.toNat)
/-- CLR: polder `n`'s ring is cleared. -/
def execClr (s : State) : Out :=
  let q := s.polder s.ev.node s.ev.n
  .next (s.setPolder s.ev.node s.ev.n { q with ring := q.ring.clear })

/-! ## Copy engines (R206, R215, R224, R226) -/

/-- ENGINE_COMMAND_START: polder `n`. -/
def execEngineCommandStart (s : State) : Out := .next (s.engStart s.ev.node s.ev.n)
/-- ENGINE_PIECE: command `m` of polder `n`. -/
def execEnginePiece (s : State) : Out := .next (s.engPiece s.ev.node s.ev.n s.ev.m)
/-- ENGINE_COMMAND_STOP: command `m` of polder `n`. -/
def execEngineCommandStop (s : State) : Out := .next (s.engStop s.ev.node s.ev.n s.ev.m)
/-- EXCHANGE_FORM. -/
def execExchangeForm (s : State) : Out := .next (s.exchForm s.ev.node s.ev.n)
/-- EXCHANGE_ROUND. -/
def execExchangeRound (s : State) : Out := .next (s.exchRound s.ev.node s.ev.n)
/-- EXCH_TIMEOUT. -/
def execExchTimeout (s : State) : Out := .next (s.exchTimeout s.ev.node s.ev.n)

/-! ## Matrix arrays (R300 to R318) -/

/-- ARRAY_COMMAND_START: polder `n`. -/
def execArrayCommandStart (s : State) : Out := .next (s.arrStart s.ev.node s.ev.n)
/-- ARRAY_ROW_COMMIT. -/
def execArrayRowCommit (s : State) : Out := .next (s.arrRow s.ev.node s.ev.n)
/-- RAGGED_ROW_JOIN. -/
def execRaggedRowJoin (s : State) : Out := .next (s.raggedJoin s.ev.node s.ev.n)
/-- ARRAY_COMMAND_COMPLETE. -/
def execArrayCommandComplete (s : State) : Out := .next (s.arrComplete s.ev.node s.ev.n)
/-- LEASE_ARBITRATION. -/
def execLeaseArbitration (s : State) : Out := .next (s.arbitrate s.ev.node s.ev.n)
/-- HAND_OVER_SAVE. -/
def execHandOverSave (s : State) : Out := .next (s.handOverSave s.ev.node s.ev.n false)
/-- HAND_OVER_RESTORE. -/
def execHandOverRestore (s : State) : Out := .next (s.handOverRestore s.ev.node s.ev.n)
/-- COLUMN_REMAP. -/
def execColumnRemap (s : State) : Out := .next (s.columnRemap s.ev.node s.ev.n)

/-! ## Mailboxes (R330 to R337) -/

/-- MESSAGE_ARRIVAL: polder `n`. -/
def execMessageArrival (s : State) : Out := .next (s.messageArrival s.ev.node s.ev.n)
/-- CREDIT_REQUEST: polder `n`. -/
def execCreditRequest (s : State) : Out := .next (s.creditRequest s.ev.node s.ev.n)
/-- CREDIT_GRANT: core. -/
def execCreditGrant (s : State) : Out := .next (s.creditGrant s.ev.node s.ev.core)
/-- CREDIT_RETURN: mailbox `m` of polder `n`; `flag` says that 256 cycles have passed. -/
def execCreditReturn (s : State) : Out := .next (s.creditReturn s.ev.node s.ev.n s.ev.m s.ev.flag)
/-- SEND_TIMEOUT. -/
def execSendTimeout (s : State) : Out := .next (s.sendTimeout s.ev.id)
/-- HANDLER_START: mailbox `m` of polder `n`. -/
def execHandlerStart (s : State) : Out := .next (s.handlerStart s.ev.node s.ev.n s.ev.m)

end Sys2Proof.Machine
end

