-- ==== Sys2Proof/Machine/Fetch.lean ====
section
/-! DEFINITION. Instruction fetch: classification and translation of the fetch address (R98, R106, R269), the instruction cache
(R144, R145), the words a stalled instruction keeps (R52). -/

namespace Sys2Proof.Machine
open Sys2Proof

/-- The line that holds `va` and the word at `va`, read below the instruction cache: from HBM or from the pool. Scratchpads and control
registers list no fetch among their accesses (R183, R443), so a fetch from them raises ILLEGAL_ADDRESS. Then the physical line, and whether
the page may be cached. -/
def State.fetchBelow (s : State) (q : Req) (va : Nat) : Except Stop (State × Nat × Nat × Nat × Bool) := do
  let (s, x) ← s.translate q va accFetch
  let line := lineOf x.pa
  match paClass x.pa with
  | 0 =>
    s.hbmCheck q va x.pa 3
    if s.isLost x.pa then raiseAcc .dataLost (BitVec.ofNat 64 va) 3
    else .ok (s.merge line, memRead s.mem line 64, memRead s.mem x.pa 4, line, x.cls != 2)
  | 1 =>
    let (i, r) ← s.poolCheck q va x.pa 3
    if r.st ≠ .attached then poolLostTrap va q.id.node i x.pa 3
    else if s.isLost x.pa then raiseAcc .dataLost (BitVec.ofNat 64 va) 3
    else
      s.homeReady q va x.pa 3
      let s := (s.poolSnoop q.id.node line false).merge line
      .ok (s, s.poolRead q.id.node r line 64, s.poolRead q.id.node r x.pa 4, line, x.cls != 2)
  | _ => raiseAcc .illegalAddress (BitVec.ofNat 64 va) 3

/-- The line of a core's instruction cache for an address. -/
def CoreSt.iline (q : CoreSt) (asid : BitVec 16) (vline : Nat) : Option ILine :=
  q.icache.find? (fun l => l.asid == asid && l.vline == vline)

/-- Puts a line into the instruction cache of 64 KiB (R34). The spec gives neither its organisation nor its replacement: the model holds any 1,024
lines and drops the one filled longest ago (DESIGN CHOICE, log entry 49). -/
def CoreSt.ifill (q : CoreSt) (asid : BitVec 16) (vline pline data : Nat) : CoreSt :=
  { q with icache := ((⟨asid, vline, pline, BitVec.ofNat 512 data⟩ : ILine) ::
      q.icache.filter (fun l => !(l.asid == asid && l.vline == vline))).take 1024 }

/-- `fetch` of R51: the word at `va` for the issuing context. A word that the cache holds and that differs from memory is the old or the
new one, which is open (R145). -/
def State.fetch (s : State) (va : Word) : Except Stop (State × Nat) :=
  let a := va.toNat
  let q := s.req
  let vline := fieldN a 6 50
  if isAperture a then raiseAcc .illegalAddress va 3
  else if !isCanonical a then raiseAcc .pagePermission va 3
  else match s.cc.iline q.asid vline with
    | none => match s.fetchBelow q a with
      | .error e => .error e
      | .ok (s, data, w, line, cached) => .ok (if cached then s.setCC (s.cc.ifill q.asid vline line data) else s, w)
    | some l =>
      if s.poolGone q l.pline then raiseAcc .illegalAddress va 3 else
      let old := fieldN l.data.toNat (8 * (a % 64)) 32
      match s.fetchBelow q a with
      | .error e => if Config.freeFetch s.stepNo a then .ok (s, old) else .error e
      | .ok (s', _, w, _, _) => if w = old then .ok (s, old) else if Config.freeFetch s.stepNo a then .ok (s, old) else .ok (s', w)

/-- A register field of the instruction's first word names an x register that a VEXT or a PCNT of the slot has still to write: its slot stalls
(R284). The fields of destinations count too, and so a reader is never missed. -/
def State.xHeld (s : State) (i : Instr) : Bool :=
  s.cc.vq.any (fun e => e.slot == s.cc.slot && decide (64 < e.dest) &&
    (let w := encodeFirst i
     [fieldN w 8 5, fieldN w 13 5, fieldN w 18 5, fieldN w 23 5].contains (e.dest - 64)))

/-- The selector of a word marks it as governed (R40). -/
def selGoverned (w : Nat) : Bool := fieldN w 0 2 == 1 || (fieldN w 0 2 == 3 && fieldN w 2 1 == 1)
/-- The word is the first of a long instruction. -/
def selLong (w : Nat) : Bool := fieldN w 0 2 == 3

/-- A stop of fetching or decoding (R51): the trap is taken at the boundary, `long` and `pfx` as TINFO has them; a fetch that waits stalls. -/
def decodeStop (s : State) (e : Stop) (long pfx : Bool) : State :=
  match e with
  | .trap t => s.trapNow t long pfx
  | .trapKeep t s' => s'.trapNow t long pfx
  | .wait w s' => s'.stall w

end Sys2Proof.Machine
end

