-- ==== Sys2Proof/Machine/Manage.lean ====
section
/-! DEFINITION. Dependability, the host link, the management port and bring-up (R431 to R446), and WFE's time-out (R422). -/

namespace Sys2Proof.Machine
open Sys2Proof

/-! ## Machine checks and control registers (R422, R432, R443) -/

/-- RESTART: the core's machine-check record. -/
def execRestart (s : State) : Out := .next (s.mcRestart s.ev.node s.ev.core)
/-- CLEAR. -/
def execClear (s : State) : Out := .next (s.mcClear s.ev.node s.ev.core)
/-- WFE_TIMEOUT: a core's system context has waited its cycles in WFE. -/
def execWfeTimeout (s : State) : Out := .next (s.expire ⟨s.ev.node, s.ev.core, 11⟩ .wfe)

/-- CONTROL_REGISTER_WRITE: `m` bytes at offset `n`, of `w` or, when they are more than 8, of `v`. An access that crosses an 8-byte boundary is split
there into one access per register, in ascending address: the first takes effect now, and the rest as the next step (R443). -/
def execControlRegisterWrite (s : State) : Out :=
  let e := s.ev
  let v := if e.m ≤ 8 then e.w.toNat else e.v.toNat
  let first := min (min e.m 32) (8 - e.n % 8)
  let rest := min e.m 32 - first
  let t := if first = 0 then s else s.ctlWriteN e.node e.n first (v % 256 ^ first)
  .next (if rest = 0 then t else
    t.now .controlRegisterWrite { e with n := e.n + first, m := rest, w := BitVec.ofNat 64 (v / 256 ^ first), v := BitVec.ofNat 256 (v / 256 ^ first) })

/-- The host's access waits behind those of its accesses that wait already: `slot` marks an access that waits, and `w2` the step at which it came. -/
def State.hostBehind (s : State) (e : Ev) (reads : Bool) : Bool :=
  s.work.any (fun x => x.1 == .bar2Access && x.2.node == e.node && (reads || x.2.flag) && (e.slot == 0 || decide (x.2.w2 < e.w2)))
/-- It is kept to be tried again, in its place among the host's accesses. -/
def State.hostHold (s : State) (i : Instr) (e : Ev) : State :=
  s.enq i (if e.slot = 0 then { e with slot := 1, w2 := BitVec.ofNat 64 s.stepNo } else e)

/-- BAR2_ACCESS: `m` bytes inside one line at window offset `pa`, as a .unc access at the line's home: a write of `v` (`flag`), or a read.
A line that is FROZEN or NEAR-HELD makes it wait, and the host's later accesses with it. -/
def State.bar2Access (s : State) (e : Ev) : State :=
  let a := e.node * 2 ^ 46 + fieldW (s.pkg e.node).bar2 36 8 * 2 ^ 36 + e.pa % 2 ^ 36
  let pl := lineOf a
  if hbmLimit ≤ paOff a ∨ paClass a ≠ 0 ∨ 64 < a % 64 + e.m then s
  else if s.hostBehind e true || s.frozen pl || s.nmHolds pl then s.hostHold .bar2Access e
  else if e.flag then (s.recall pl none).hbmWrite a e.m (e.v.toNat % 256 ^ e.m)
  else s.merge pl

/-- BAR2_ACCESS. -/
def execBar2Access (s : State) : Out := .next (s.bar2Access s.ev)

/-- TAIL: a write of a queue's TAIL through its doorbell (R362, R442): the host's earlier posted writes are performed first. A doorbell past the 64
queues is no register, and ignored. -/
def execTail (s : State) : Out :=
  let e := s.ev
  .next (if 64 ≤ e.n then s else if s.hostBehind e false then s.hostHold .tail e else s.queueTail e.node e.n (e.w.toNat % 2 ^ 32))

/-! ## Errors and self-tests (R436 to R438) -/

/-- The dirty bytes of the line in the L1 way or the slice that failed are not to be merged any more, and return their mask (R154: bytes that are
bad are never passed on, and have not been rewritten). -/
def State.spoil (s : State) (node code m pl : Nat) : State × BitVec 64 :=
  if code = 0 then
    let q := s.core node (m / 16)
    let bad := q.l1.filter (fun l => l.pline == pl && l.way == m % 16)
    (if bad = [] then s else s.setCore node (m / 16) { q with l1 := q.l1.map (fun l => if l.pline = pl ∧ l.way = m % 16 then { l with dirty := 0 } else l) },
      bad.foldl (fun d l => d ||| l.dirty) 0)
  else
    let x := s.slice node (m / 48) (m % 48)
    let bad := x.lines.filter (fun l => l.pline == pl)
    (if bad = [] then s else s.setSlice node (m / 48) (m % 48) { x with lines := x.lines.map (fun l => if l.pline = pl then { l with dirty := 0 } else l) },
      bad.foldl (fun d l => d ||| l.dirty) 0)

/-- A line whose copy in an L1 way or a slice cannot be corrected is LOST; of a class-01 line the bad bytes never go to the device. -/
def State.cacheLost (s : State) (node code m pl : Nat) : State :=
  let (s, bad) := s.spoil node code m pl
  let p := s.pkg node
  let left := tget (0 : BitVec 64) p.poolDirty pl &&& ~~~bad
  let s := if (tfind p.poolDirty pl).isNone ∨ bad = 0 then s
    else if left = 0 then
      let t := s.setPkg node { p with poolDirty := tdel p.poolDirty pl }
      (if (tfind p.poolSent pl).isSome then t else { t with mem := memZero t.mem pl 64 }).poolDone pl
    else s.setPkg node { p with poolDirty := tset p.poolDirty pl left }
  s.markLost pl

/-- What an uncorrectable error costs, by unit code (R436): a line that the L1 or a slice holds is LOST, a word of a scratchpad or a
terp is lost, and a table or queue (code 8) is a machine check of KIND 0 on its core. -/
def State.uncorrectable (s : State) (e : Ev) : State :=
  if e.n = 1 ∨ e.n = 3 then { s with lostWords := tset s.lostWords (e.pa / 8) 0 }
  else if e.n = 8 then
    let w := Config.freeCheck s.stepNo
    s.machineCheck e.node e.core ⟨true, fieldW w 0 7, 11, 0, 0, w, Config.freeCheck (s.stepNo + 1)⟩
  else if (e.n = 0 ∨ e.n = 4) ∧ paClass e.pa ≤ 1 then s.cacheLost e.node e.n e.m (lineOf e.pa)
  else s

/-- ERROR_DETECTED: unit `m` of code `n` starts its self-test; `flag` says that the error could not be corrected. In the memory (code 6) the
address names the pseudo-channel (R61), and `w` says in how many dies' symbols the errors stand (R63). The machine check of a table or queue waits
while slot 11 of its core, which it stops, is inside a pair (R52). -/
def execErrorDetected (s : State) : Out :=
  let e := s.ev
  .next (
    if e.n == 8 && e.flag && !(s.core e.node e.core).stopped && (s.ctx ⟨e.node, e.core, 11⟩).pairHeld then s.enq .errorDetected e
    else if e.n = 6 then (if paClass e.pa ≠ 0 then s else s.symbolError e.pa (if e.flag then 2 else max 1 e.w.toNat) e.v)
    else
      let s := s.startTest e.node e.n e.m
      if e.flag then (s.uncorrectable e).logError e.node e.n 3 e.m else s.countCorrected e.node e.n e.m)

/-- A unit is retired. -/
def State.retireUnit (s : State) (node code index : Nat) : State :=
  let p := s.pkg node
  s.setPkg node { p with retired := addOnce p.retired (code, index) }

/-- A polder is withdrawn from dispatch (R437). -/
def State.withdraw (s : State) (node p : Nat) : State :=
  let q := s.pkg node
  s.setPkg node { q with withdrawn := if q.withdrawn.contains p then q.withdrawn else q.withdrawn ++ [p] }

/-- An L1 way is retired: its lines are written back and leave it (R437). -/
def State.retireWay (s : State) (node k way : Nat) : State :=
  let s := ((s.core node k).l1.filter (fun l => l.way == way)).foldl (fun s l => s.l1drop node k l.asid l.vline false) s
  let q := s.core node k
  s.setCore node k { q with badWays := addOnce q.badWays way }

/-- A slice (die × 48 + slice) is retired: its lines are written back, and its tile-mate serves both hash buckets (R437). -/
def State.retireSlice (s : State) (node index : Nat) : State :=
  let die := index / 48
  let t := index % 48
  let s := (s.slice node die t).lines.foldl (fun s x => s.dropLine node die t x false) s
  (s.setSlice node die t Slice.empty).retireUnit node 4 index

/-- A scratchpad bank (polder × 64 + bank) fails: the first goes to the spare bank; a second, be it the spare
under the same number, withdraws the polder and terminates its items. -/
def State.retireBank (s : State) (node index : Nat) : State × Nat :=
  let p := index / 64
  let again := (s.pkg node).retired.any (fun u => u.1 == 1 && decide (u.2 / 64 = p))
  let s := s.retireUnit node 1 index
  if again then ((List.range 8).foldl (fun (s : State) k => s.terminateItem node (8 * p + k) false) (s.withdraw node p), 2) else (s, 1)

/-- An array column (polder × 132 + physical column) fails: its logical column moves to a spare; without one the polder is withdrawn.
A spare that fails in no column's place is one spare fewer. -/
def State.retireColumn (s : State) (node index : Nat) : State × Nat :=
  let p := index / 132
  let a := (s.polder node p).array
  if (s.pkg node).retired.contains (3, index) then (s, 1) else
  let s := s.retireUnit node 3 index
  match (List.range 128).find? (fun j => tget j a.cols j == index % 132) with
  | none => (if a.spares = 0 then s else s.setArray node p { a with spares := a.spares - 1 }, 1)
  | some j =>
    if a.spares ≤ a.retiring.length then (s.withdraw node p, 2)
    else ((s.setArray node p { a with retiring := a.retiring ++ [j] }).enq .columnRemap { node := node, n := p }, 1)

/-- A unit that has failed its test is retired (R437); with the RESULT of its log entry. `full`: no spare row is left. -/
def State.retireFailed (s : State) (node code index : Nat) (full : Bool) : State × Nat :=
  match code with
  | 0 => (s.retireWay node (index / 16) (index % 16), 1)
  | 1 => s.retireBank node index
  | 3 => s.retireColumn node index
  | 4 => (s.retireSlice node index, 1)
  | 5 =>
    let s := s.retireUnit node 5 index
    (match (List.range 4).find? (fun p => linkUnit 3 p == index) with
      | some p => (s.setPoolUp node p false).portLost node p
      | none => s, 1)
  | 6 => (s, if full then 2 else 1)
  | _ => (s.retireUnit node code index, 1)

/-- A second bank of a polder fails while a context there is inside a pair: its items are terminated at their boundaries (R382). -/
def State.bankWaits (s : State) (e : Ev) : Bool :=
  e.flag && e.n == 1 && (s.pkg e.node).retired.any (fun u => u.1 == 1 && decide (u.2 / 64 = e.m / 64)) &&
    (List.range 8).any (fun k => !s.atBoundary e.node (8 * (e.m / 64) + k))

/-- SELF_TEST_DONE: unit `m` of code `n` passes, or (`flag`) fails and is retired; the outcome is logged. -/
def execSelfTestDone (s : State) : Out :=
  let e := s.ev
  let p := s.pkg e.node
  if s.bankWaits e then .next (s.enq .selfTestDone e) else
  let s' := s.setPkg e.node { p with testing := p.testing.filter (fun u => u != (e.n, e.m)) }
  .next (if e.flag then
      let r := s'.retireFailed e.node e.n e.m (e.w != 0)
      r.1.logError e.node e.n r.2 e.m
    else s'.logError e.node e.n 0 e.m)

/-! ## Links (R82, R436, R446) -/

/-- LINK_TRAINING: link `m` of kind `n` (0 HBM, 1 die-to-die, 2 Xiane, 3 pool, 4 host), of as many as the package has (R35), comes up; a pool
port's device is `pa`. A link that cannot train (`flag` false) is down; one that is disabled (R437), or whose device is fenced (R439), stays so. -/
def execLinkTraining (s : State) : Out :=
  let e := s.ev
  let p := s.pkg e.node
  .next (if decide (linkCount e.n ≤ e.m) || p.retired.contains (5, linkUnit e.n e.m) || (e.n == 3 && p.fencedSw.contains (deviceNo e.m)) then s
    else if !e.flag then s.setPkg e.node { p with down := addOnce p.down (e.n, e.m), trained := p.trained.filter (fun x => x != (e.n, e.m)) }
    else
      let s' := s.setPkg e.node { p with trained := addOnce p.trained (e.n, e.m), down := p.down.filter (fun x => x != (e.n, e.m)) }
      if h : e.n = 3 ∧ e.m < 4 then
        let q := s'.pkg e.node
        s'.setPkg e.node { q with poolUp := q.poolUp.set e.m true h.2, poolDev := q.poolDev.set e.m e.pa h.2 }
      else s')

/-- LINK_REPLAY_FAILURE: link `m` of kind `n` goes down after 16 failed replays of one flit (R436), and is tested (R437). -/
def execLinkReplayFailure (s : State) : Out :=
  let e := s.ev
  let p := s.pkg e.node
  let s' := (s.setPkg e.node { p with down := addOnce p.down (e.n, e.m), trained := p.trained.filter (fun x => x != (e.n, e.m)) }).startTest
    e.node 5 (linkUnit e.n e.m)
  .next (if decide (linkCount e.n ≤ e.m) then s else if e.n = 3 then (s'.setPoolUp e.node e.m false).portLost e.node e.m else s')

/-! ## Dead neighbours (R439, R440) -/

/-- Something on its way between two packages. -/
def Flight.between (f : Flight) (a b : Nat) : Bool :=
  let two := fun (x y : Nat) => (x == a && y == b) || (x == b && y == a)
  match f with
  | .entry h src _ _ _ _ _ => two (hNode h) src.node
  | .creditReq h n _ _ => two (hNode h) n
  | .grant h n _ _ _ => two (hNode h) n

/-- The scrub of the directory of a package (R440): lines that the dead node owned are LOST, its pointers and proxy entries go, and with them its
copies. -/
def State.scrubLines (s : State) (node dead : Nat) : State :=
  let mine := fun (pl : Nat) => paClass pl == 0 && paNode pl == node
  let owned := (s.dirs.filter (fun e => mine e.1 && (match e.2.owner with | some o => o.1 == dead | none => false))).map (·.1)
  let clear := fun (d : DirEnt) => { d with
    remotes := d.remotes.filter (fun n => n != dead), owner := if d.owner.any (fun o => o.1 == dead) then none else d.owner,
    objs := d.objs.filter (fun o => o.1 != dead), walkers := d.walkers.filter (fun w => w.1 != dead) }
  let s := { s with
    cores := tmap s.cores (fun k q => if k.1 = dead then { q with l1 := q.l1.filter (fun l => !mine l.pline) } else q),
    dies := tmap s.dies (fun k d => if k.1 = dead then { d with slices := tmap d.slices (fun _ x => { x with lines := x.lines.filter (fun l => !mine l.pline) }) } else d),
    dirs := (tmap s.dirs (fun pl d => if mine pl then clear d else d)).filter (fun e => e.2 != DirEnt.none),
    proxies := s.proxies.filter (fun e => !(e.1.1 == dead && mine e.1.2)) }
  owned.foldl (fun s pl => { s with lost := tset s.lost pl 0 }) s

/-- The scrub of the locks (R440): a dead holder's lock is broken without waiting for stores, dead waiters are removed, and so are the package's own
waiters and requests at the dead node's homes, whose LKACQ raises DATA_LOST. -/
def State.scrubLocks (s : State) (node dead : Nat) : State :=
  let gone := fun (line : Nat) (w : Waiter) => (paNode line == node && w.id.node == dead) || (paNode line == dead && w.id.node == node)
  let sent := s.ctxs.filterMap (fun c => match s.lockSent c.1 with
    | some r => if c.1.node = node ∧ paNode r.line = dead then some (r.line, c.1) else none
    | none => none)
  let cut := sent ++ s.locks.flatMap (fun e => (e.2.waiters.filter (fun w => paNode e.1 == dead && w.id.node == node)).map (fun w => (e.1, w.id)))
  -- the stores of the dead node's ended lives are not waited for any more
  let locks := tmap s.locks (fun line l => { l with
    waiters := l.waiters.filter (fun w => !gone line w),
    rel := match l.rel with | some r => if paNode line = node ∧ r.1.node = dead then some (r.1, none) else some r | none => none })
  let s := { s with locks := locks.filter (fun e => !(e.2.holder.isNone && e.2.waiters.isEmpty && !e.2.broken)) }
  let s := cut.foldl (fun s x => s.lockReplyTo x.2 x.1 lkLost) s
  let held := s.locks.filterMap (fun e => match e.2.holder with | some h => if paNode e.1 = node ∧ h.node = dead then some (h, e.1) else none | none => none)
  held.foldl (fun s x => s.breakLock x.1 x.2 none) s

/-- Near-memory operations of the package to the dead node's homes end with DATA_LOST; the dead node's own are discarded. -/
def State.scrubNear (s : State) (node dead : Nat) : State :=
  let cut := fun (o : NmOp) => o.id.node == node && paNode o.pa == dead && o.stage != .applied
  let hit := s.nmOps.filter cut
  let ops := s.nmOps.filter (fun o => !(o.id.node == dead && paNode o.pa == node && o.stage == .sent))
  let s := { s with nmOps := ops.map (fun o => if cut o then { o with stage := .applied, err := some .dataLost } else o) }
  hit.foldl (fun (s : State) o => s.enq .nearMemoryAck { pa := o.pa }) s

/-- The legend units (R440): the owner's frees the dead node's replicas, and the copies of names that it owned read V = 0. -/
def State.scrubLegend (s : State) (node dead : Nat) : State :=
  let ents := (List.range 6).flatMap (fun d => (s.die node d).legend)
  ents.foldl (fun (s : State) x =>
    let e := x.2.toNat
    if repNode e 0 = dead then s.setLegend node x.1 (entSet e 0 31 1 0)
    else if repNode e 0 = node then
      let l := repIdx.filter (fun r => r != 0 && repState e r != 0 && repNode e r == dead)
      if l = [] then s else s.legChange node x.1 (l.foldl (fun e r => repSet e r 0 0 0 0) e)
    else s) s

/-- A package fences a peer (R439): it accepts nothing from it any more, and scrubs its directory; the fence is logged. -/
def State.fencePeer (s : State) (node dead : Nat) : State :=
  let p := s.pkg node
  if dead = node ∨ p.fenced.contains dead then s
  else
    let s := s.setPkg node { p with fenced := p.fenced ++ [dead] }
    let two := fun (a b : Nat) => (a == dead && b == node) || (a == node && b == dead)
    let s := { s with accepts := s.accepts.filter (fun a => !two a.1.node a.2.2), flights := s.flights.filter (fun f => !f.between node dead),
                      results := s.results.filter (fun r => !two r.node r.fromNode),
                      legUps := s.legUps.filter (fun u => !two u.node (repNode u.ent.toNat 0)),
                      polders := tmap s.polders (fun k q => { q with portQ := q.portQ.filter (fun w => !two k.1 w.id.node) }),
                      tokens := s.tokens.filter (fun (t : Token) => !((t.node == dead && t.sender.node == node) || (t.node == node && t.sender.node == dead))) }
    let s := (((s.scrubLines node dead).scrubLocks node dead).scrubNear node dead).scrubLegend node dead
    let s := (s.colls.filter (fun x => s.collFenced x)).foldl (fun (s : State) x => s.stopColl x) s
    s.logError node 7 (Config.freeLogResult s.stepNo).toNat dead

/-- A package fences a Xiane switch, or the pool device at a port (R439): it uses no link to it any more. -/
def State.fenceOther (s : State) (node k : Nat) : State :=
  let p := s.pkg node
  if p.fencedSw.contains k then s
  else
    let s := s.setPkg node { p with fencedSw := p.fencedSw ++ [k] }
    let s := match (List.range 4).find? (fun port => deviceNo port == k) with
      | some port => (s.setPoolUp node port false).portLost node port
      | none => s
    s.logError node 7 (Config.freeLogResult s.stepNo).toNat k

/-- FENCE_NODE: management fences node `n`. Fencing applies from the last step of bring-up on (R446). -/
def execFenceNode (s : State) : Out := .next (if (s.pkg s.ev.node).boot < 8 then s else s.fencePeer s.ev.node s.ev.n)

/-- UNFENCE: management lifts the fence of node `n`, or of the switch or device of that number (log entry 53). -/
def execUnfence (s : State) : Out :=
  let p := s.pkg s.ev.node
  .next (s.setPkg s.ev.node { p with fenced := p.fenced.filter (fun x => x != s.ev.n), fencedSw := p.fencedSw.filter (fun x => x != s.ev.n),
                                     missed := tdel p.missed s.ev.n })

/-- The heartbeat of agent `k` reaches a package, which has not fenced it: its misses are not in a row any more. -/
def State.beat (s : State) (node k : Nat) : State :=
  let p := s.pkg node
  if p.fenced.contains k || p.fencedSw.contains k then s else s.setPkg node { p with missed := tdel p.missed k }

/-- HEARTBEAT: of the package (`m` = 0), once it is up (R446), or of Xiane switch `n` (1), to every package of the group; or of the pool device at port
`n` of the package (2). -/
def execHeartbeat (s : State) : Out :=
  let e := s.ev
  .next (match e.m with
    | 0 => if (s.pkg e.node).boot < 8 then s else (s.group.filter (fun m => m != e.node)).foldl (fun (s : State) m => s.beat m e.node) s
    | 1 => s.group.foldl (fun (s : State) m => s.beat m (switchNo e.n)) s
    | _ => s.beat e.node (deviceNo e.n))

/-- HEARTBEAT_MISS: a peer's heartbeat has not come: package `n` (kind `m` = 0), a Xiane switch (1), or the pool device at port `n` (2). At the
third miss in a row the package fences it. Nothing is missed before the last step of bring-up (R446). -/
def State.heartbeatMiss (s : State) (e : Ev) : State :=
  if (s.pkg e.node).boot < 8 then s else
  let key := match e.m with | 0 => e.n | 1 => switchNo e.n | _ => deviceNo e.n
  let p := s.pkg e.node
  let n := tget 0 p.missed key + 1
  let s := s.setPkg e.node { p with missed := tset p.missed key n }
  if n < 3 then s
  else if e.m = 0 then (if s.group.contains e.n then s.fencePeer e.node e.n else s)
  else s.fenceOther e.node key

/-- HEARTBEAT_MISS. -/
def execHeartbeatMiss (s : State) : Out := .next (s.heartbeatMiss s.ev)

/-! ## Management commands (R427, R445) -/

/-- The waits that WATCHDOG abandons (R427), and WFE (R422); a yielding slot stands at a boundary. -/
def Wait.abandons : Wait → Bool
  | .bbwait | .phaser | .mailbox | .send | .token | .lock | .join | .lease | .wfe | .yield => true
  | _ => false

/-- LONG of a WATCHDOG record (R415): the word of the instruction that the slot waits in, or else the word at its PC, is long; a word that cannot
be fetched is not. -/
def State.longAt (s : State) (id : CtxId) : Bool :=
  let c := s.ctx id
  match c.held with
  | some (i, _) => isLong i
  | none =>
    let t := { s with fnode := id.node, fcore := id.core }
    match (t.setCC { t.cc with slot := id.slot }).fetch c.pc with
    | .ok (_, w) => selLong w
    | .error _ => false

/-- WATCHDOG reaches one slot: at its next boundary it takes the trap. A run-ahead helper ends instead; a slot that is not at a boundary
is named again later. -/
def State.watchdogSlot (s : State) (id : CtxId) (w : Word) : State :=
  let c := s.ctx id
  let later := s.enq .watchdog { node := id.node, core := id.core, n := 2 ^ id.slot, w := w }
  match c.st with
  | .free => s
  | .saved => s
  | .parked => later
  | .stalled =>
    if c.pairHeld || !(match c.wait with | some x => x.abandons | none => true) then later
    else if c.ra then s.terminate id
    else (s.abandonWait id).takeTrap id { cause := .watchdog, tval := w } (s.longAt id) true false
  | .ready =>
    if c.pairHeld || (id.slot == 11 && (s.core id.node id.core).stopped) then later
    else if c.ra then s.terminate id
    else (s.abandonWait id).takeTrap id { cause := .watchdog, tval := w } (s.longAt id) true false

/-- WATCHDOG: a core, a slot mask (`n`) and an argument. -/
def execWatchdog (s : State) : Out :=
  let e := s.ev
  .next ((List.range 12).foldl (fun (s : State) j => if e.n.testBit j then s.watchdogSlot ⟨e.node, e.core, j⟩ e.w else s) s)

/-- The controller runs an image (R444): its signature verifies (`sig`, by the root key whose digest is `key`), and its version is at least the
anti-rollback counter. -/
def Pkg.runs (p : Pkg) (sig : Bool) (key : BitVec 512) (ver : BitVec 32) : Bool := sig && key == p.fuseRoot && decide (p.fuseMin.toNat ≤ ver.toNat)

/-- The key digest and the version that an event names. -/
def Ev.keyDigest (e : Ev) : BitVec 512 := BitVec.ofNat 512 e.pa
/-- The version. -/
def Ev.version (e : Ev) : BitVec 32 := e.w2.setWidth 32

/-- RELOAD: an image (`v`) that verifies (`flag`, under the root key with digest `pa`, of version `w2`) is loaded and measured, and every core whose record is of KIND 0 or 3 starts again, at its TVEC or, with TVEC
0, at the one that the firmware writes. -/
def execReload (s : State) : Out :=
  let e := s.ev
  .next (if !(s.pkg e.node).runs e.flag e.keyDigest e.version then s
    else
      let s := s.setPkg e.node { s.pkg e.node with images := addOnce (s.pkg e.node).images (Config.freeMeasure e.v) }
      ((s.cores.filter (fun q => q.1.1 == e.node && q.2.mcheck.valid && (q.2.mcheck.kind == 0 || q.2.mcheck.kind == 3))).map (fun q => q.1.2)).foldl
      (fun (s : State) k =>
        let q := s.core e.node k
        let q := if q.tvec = 0 then { q with tvec := BitVec.ofNat 64 (e.w.toNat / 4 * 4) } else q
        let s := s.setCore e.node k { q with mcheck := { q.mcheck with valid := false }, sv := false, osv := false, stopped := false }
        let id : CtxId := ⟨e.node, k, 11⟩
        s.setCtx id { s.ctx id with pc := q.tvec, st := .ready, wait := none, held := none, gword := none, expired := false }) s)

/-- TELEMETRY: the controller reports, and nothing of the package changes; with `flag` it is asked for an attestation, which signs the measurements of
the loaded images, the device identity and the requester's nonce (`pa`) (R444). -/
def execTelemetry (s : State) : Out :=
  let e := s.ev
  let p := s.pkg e.node
  let nonce : BitVec 512 := BitVec.ofNat 512 e.pa
  .next (if e.flag then s.setPkg e.node { p with report := some ⟨p.images, e.node, nonce, Config.freeSignature p.images e.node nonce⟩ } else s)

/-- THERMAL_THROTTLE: the A-clock falls by one step of 100 MHz; cycle counts are unchanged. -/
def execThermalThrottle (s : State) : Out :=
  let p := s.pkg s.ev.node
  .next (s.setPkg s.ev.node { p with throttle := p.throttle + 1 })

/-! ## Bring-up (R446) -/

/-- Something that goes between a package and any other, or itself. -/
def Flight.of (f : Flight) (node : Nat) : Bool :=
  match f with
  | .entry h src _ _ _ _ _ => hNode h == node || src.node == node
  | .creditReq h n _ _ => hNode h == node || n == node
  | .grant h n _ _ _ => hNode h == node || n == node

/-- A package starts from reset (R441, R446): nothing of a package that had its number before stays, its lines' copies elsewhere and what is on its way
to or from it included; the fuses are those of the part. -/
def State.renew (s : State) (node : Nat) : State :=
  let mine := fun (a : Nat) => decide (a < 2 ^ 58) && paNode a == node
  let s := s.purge mine
  let others := fun (x : Instr × Ev) => x.2.node != node
  { s with
    pkgs := tset s.pkgs node { Pkg.reset with cycle0 := s.clock, fuseRoot := (s.pkg node).fuseRoot, fuseMin := (s.pkg node).fuseMin },
    cores := s.cores.filter (fun e => e.1.1 != node), ctxs := s.ctxs.filter (fun e => e.1.node != node),
    polders := s.polders.filter (fun e => e.1.1 != node), dies := s.dies.filter (fun e => e.1.1 != node),
    mem := memKeep s.mem (fun a => !mine a), lost := s.lost.filter (fun e => !mine e.1), lostWords := s.lostWords.filter (fun e => !mine (e.1 * 8)),
    dirs := s.dirs.filter (fun e => !mine e.1), proxies := s.proxies.filter (fun e => e.1.1 != node), pins := s.pins.filter (fun p => p.node != node),
    locks := s.locks.filter (fun e => !mine e.1), nmOps := s.nmOps.filter (fun o => o.id.node != node && paNode o.pa != node),
    migs := s.migs.filter (fun m => m.id.node != node), flights := s.flights.filter (fun f => !f.of node),
    colls := (s.colls.filter (fun x => !(x.kind == 1 && x.home == node))).map (fun x => { x with mems := x.mems.filter (fun m => m.cmd.id.node != node) }),
    clones := s.clones.filter (fun c => c.cmd.id.node != node), tokens := s.tokens.filter (fun t => t.node != node && t.sender.node != node),
    accepts := s.accepts.filter (fun a => a.1.node != node && a.2.2 != node), results := s.results.filter (fun r => r.node != node && r.fromNode != node),
    legUps := s.legUps.filter (fun u => u.node != node), work := s.work.filter others, urgent := s.urgent.filter others }

/-- A package may come out of reset under a node number: the number has none yet, or every other package of the group has fenced the one that had it,
and finished its scrub (R441). -/
def State.mayRenew (s : State) (node : Nat) : Bool := (s.pkg node).boot == 0 || s.group.all (fun m => m == node || (s.pkg m).fenced.contains node)

/-- A step of bring-up is done. -/
def State.stepDone (s : State) (node k : Nat) : State := s.setPkg node { s.pkg node with boot := max k (s.pkg node).boot }

/-- Every link of a package has trained, or stays down. -/
def Pkg.linksDone (p : Pkg) : Bool :=
  (List.range 5).all (fun kind => (List.range (linkCount kind)).all (fun m =>
    p.trained.contains (kind, m) || p.down.contains (kind, m) || p.retired.contains (5, linkUnit kind m)))

/-- TVEC of a core is written, and its slot 11, not yet started, starts there (R446, step 6). -/
def State.startCore (s : State) (node k : Nat) (tvec : Word) : State :=
  let q := s.core node k
  if !q.stopped ∨ q.mcheck.valid ∨ 1536 ≤ k then s
  else
    let s := s.setCore node k { q with tvec := tvec, stopped := false }
    let id : CtxId := ⟨node, k, 11⟩
    s.setCtx id { s.ctx id with pc := tvec, st := .ready, wait := none }

/-- RESET_RELEASE: step `n` of R446, each after the step before it. 1: with COOLOK asserted (`flag`) and an image (`v`) that the controller runs (bit 0 of
`m`: the signature verifies, by the root key with digest `pa`; its version is `w2`), out of reset, with BOOTSRC as bit 1 of `m` reads; 2: the package has
its number, and joins the fabric group (bit 0 of `m`) and the expert domain (bit 1); 3 and 4: no unit is under test, and every link has trained or is down;
5: the host has mapped the BARs; 6: TVEC (`w`) of core `core`; 7: the configuration is done; 8: heartbeats begin. -/
def State.resetRelease (s : State) (e : Ev) : State :=
  let p := s.pkg e.node
  if e.n ≠ 1 ∧ p.boot < e.n - 1 then s else
  match e.n with
  | 1 =>
    if !(e.flag && p.runs (e.m.testBit 0) e.keyDigest e.version && s.mayRenew e.node) then s
    else
      let s := s.renew e.node
      s.setPkg e.node { s.pkg e.node with live := true, boot := 1, bootsrc := e.m.testBit 1, images := [Config.freeMeasure e.v] }
  | 2 =>
    let s := if e.m.testBit 0 ∧ !s.group.contains e.node then { s with group := s.group ++ [e.node] } else s
    let s := if e.m.testBit 1 ∧ !s.domain.contains e.node then { s with domain := s.domain ++ [e.node] } else s
    s.stepDone e.node 2
  | 3 => if p.testing = [] then s.stepDone e.node 3 else s
  | 4 => if p.linksDone then s.stepDone e.node 4 else s
  | 6 => (s.startCore e.node e.core (BitVec.ofNat 64 (e.w.toNat / 4 * 4))).stepDone e.node 6
  | 5 | 7 | 8 => s.stepDone e.node e.n
  | _ => s

/-- RESET_RELEASE. -/
def execResetRelease (s : State) : Out := .next (s.resetRelease s.ev)

end Sys2Proof.Machine
end

