-- ==== Sys2Proof/Machine/Vector.lean ====
section
/-! DEFINITION. The vector instructions of majors 0x20 to 0x24, VSPLATI and VCVT (R254 to R257, R285 to R299). -/

namespace Sys2Proof.Machine
open Sys2Proof

/-! ## The type in force (R285) -/

/-- The override of the prefix in force, if it names a type. -/
def State.ovr (s : State) : Option ETy :=
  match s.pfx with
  | some p => ETy.ofCode p.ovr.toNat
  | none => none

/-- The types an override of majors 0x20, 0x21, 0x23 and of VSPLATI may name (R285). -/
def ovrVec : ETy → Bool
  | .fp32 => true | .bf16 => true | .fp16 => true | .i8 => true | .u8 => true | .i16 => true | .u16 => true | .i32 => true | .u32 => true
  | _ => false

/-- The type in force for the field `t`: the override's, else the field's. -/
def State.vty (s : State) (t : BitVec 3) : Option ETy :=
  match s.ovr with
  | some o => if ovrVec o then some o else none
  | none => ETy.ofT t.toNat

/-- A vector instruction under its type in force: a pairing that `ok` refuses is illegal. -/
def typed (i : Instr) (g : Bool) (t : BitVec 3) (ok : ETy → Bool) (s : State) (f : ETy → Res) : Out :=
  governed i g s (finish i s (
    match s.vty t with
    | none => illegal i
    | some y => if ok y then viaQueue s (f y) else illegal i))

/-- Every type. -/
def anyTy (_ : ETy) : Bool := true
/-- I32, U32 and FP32. -/
def ty32 (y : ETy) : Bool := y == .i32 || y == .u32 || y == .fp32

/-! ## Element-wise instructions (R288 to R290) -/

/-- A list of results into V(d), with the draws made and the flags raised, and into the queue. -/
def State.vecDone (s : State) (d : Reg) (w n : Nat) (srcs : List Nat) (l : List (Nat × BitVec 5)) (keeps : Bool) : Res := do
  let s ← ((s.drawn n).setFlags (flagsOf l)).writeV d (vecOf w (l.map (·.1))) keeps
  .ok (s.vqPush d.toNat srcs)

/-- Applies `f` to the draws and the elements at one place. -/
def map2 (f : Nat → Nat → Nat → Nat × BitVec 5) : List Nat → List Nat → List Nat → List (Nat × BitVec 5)
  | r :: rs, a :: as, b :: bs => f r a b :: map2 f rs as bs
  | _, _, _ => []
/-- The same with three operands. -/
def map3 (f : Nat → Nat → Nat → Nat → Nat × BitVec 5) : List Nat → List Nat → List Nat → List Nat → List (Nat × BitVec 5)
  | r :: rs, a :: as, b :: bs, c :: cs => f r a b c :: map3 f rs as bs cs
  | _, _, _, _ => []

/-- Draws are made on floating-point types only (R286). -/
def ndraws (y : ETy) (n : Nat) : Nat := if y.isFloat then n else 0

/-- The draws by element: none on an integer type. -/
def State.elDraws (s : State) (y : ETy) (n : Nat) : List Nat := if y.isFloat then s.draws n else List.replicate n 0

/-- A binary element-wise instruction; the first operand is V(a), the second V(b). -/
def vbin (i : Instr) (g : Bool) (d a b : Reg) (t : BitVec 3) (ok : ETy → Bool) (dr : Bool) (f : ETy → Rnd → Nat → Nat → Nat × BitVec 5)
    (s : State) : Out :=
  typed i g t ok s (fun y => do
    let n := 256 / y.width
    let rs := if dr then s.elDraws y n else List.replicate n 0
    let (s', l) ← s.readVs [a, b] []
    s'.vecDone d y.width (if dr then ndraws y n else 0) [a.toNat, b.toNat]
      (map2 (fun r x z => f y (s.rnd r) x z) rs (vecEls (gotV l a) y.width) (vecEls (gotV l b) y.width)) false)

/-- A binary instruction with a scalar second operand (R290). -/
def vscal (i : Instr) (g : Bool) (d a b : Reg) (t : BitVec 3) (dr : Bool) (f : ETy → Rnd → Nat → Nat → Nat × BitVec 5) (s : State) : Out :=
  typed i g t anyTy s (fun y => do
    let n := 256 / y.width
    let rs := if dr then s.elDraws y n else List.replicate n 0
    let (s', v) ← s.readV a
    s'.vecDone d y.width (if dr then ndraws y n else 0) [a.toNat]
      (map2 (fun r x z => f y (s.rnd r) x z) rs (vecEls v y.width) (List.replicate n ((s.X b).toNat % 2 ^ y.width))) false)

/-- A unary element-wise instruction. -/
def vun (i : Instr) (g : Bool) (d a : Reg) (t : BitVec 3) (ok : ETy → Bool) (dr : Bool) (f : ETy → Rnd → Nat → Nat × BitVec 5) (s : State) : Out :=
  typed i g t ok s (fun y => do
    let n := 256 / y.width
    let rs := if dr then s.elDraws y n else List.replicate n 0
    let (s', v) ← s.readV a
    s'.vecDone d y.width (if dr then ndraws y n else 0) [a.toNat]
      (map2 (fun r x _ => f y (s.rnd r) x) rs (vecEls v y.width) (List.replicate n 0)) false)

/-- A fused multiply-add: V(d) is an operand (R288). -/
def vfma (i : Instr) (g minus : Bool) (d a : Reg) (b : Reg ⊕ Reg) (t : BitVec 3) (s : State) : Out :=
  typed i g t anyTy s (fun y => do
    let n := 256 / y.width
    let regs := match b with | .inl r => [a, r, d] | .inr _ => [a, d]
    let (s', l) ← s.readVs regs []
    let bs := match b with
      | .inl r => vecEls (gotV l r) y.width
      | .inr x => List.replicate n ((s.X x).toNat % 2 ^ y.width)
    let one := fun (r p q c : Nat) =>
      if y.isFloat then fpFma y (s.rnd r) minus c p q
      else
        let prod := y.toInt p * y.toInt q
        (y.narrow (s.rnd 0).sat (if minus then y.toInt c - prod else y.toInt c + prod), 0)
    s'.vecDone d y.width (ndraws y n) (regs.map (·.toNat))
      (map3 one (s.elDraws y n) (vecEls (gotV l a) y.width) bs (vecEls (gotV l d) y.width)) true)

/-- An integer operation of an element-wise member. -/
def intOp (y : ETy) (r : Rnd) (f : Int → Int → Int) (a b : Nat) : Nat × BitVec 5 := (y.narrow r.sat (f (y.toInt a) (y.toInt b)), 0)

/-- a + b (R288). -/
def elAdd (y : ETy) (r : Rnd) (a b : Nat) : Nat × BitVec 5 := if y.isFloat then fpAdd y r a b else intOp y r (· + ·) a b
/-- a − b. -/
def elSub (y : ETy) (r : Rnd) (a b : Nat) : Nat × BitVec 5 := if y.isFloat then fpSub y r a b else intOp y r (· - ·) a b
/-- a × b. -/
def elMul (y : ETy) (r : Rnd) (a b : Nat) : Nat × BitVec 5 := if y.isFloat then fpMul y r a b else intOp y r (· * ·) a b
/-- The smaller. -/
def elMin (y : ETy) (r : Rnd) (a b : Nat) : Nat × BitVec 5 :=
  if y.isFloat then fpMinMax y r false a b else (if y.toInt b < y.toInt a then b else a, 0)
/-- The larger. -/
def elMax (y : ETy) (r : Rnd) (a b : Nat) : Nat × BitVec 5 :=
  if y.isFloat then fpMinMax y r true a b else (if y.toInt a < y.toInt b then b else a, 0)
/-- An integer element where nothing is compared or taken high: a U type reads it as unsigned only to saturate, else as its I type (R285). -/
def satInt (y : ETy) (sat : Bool) (a : Nat) : Int := if sat then y.toInt a else signedN a y.width
/-- |a|: FP clears the sign bit. -/
def elAbs (y : ETy) (r : Rnd) (a : Nat) : Nat × BitVec 5 :=
  if y.isFloat then (a % 2 ^ (y.width - 1), 0) else (y.narrow r.sat (satInt y r.sat a).natAbs, 0)
/-- −a: FP flips the sign bit. -/
def elNeg (y : ETy) (r : Rnd) (a : Nat) : Nat × BitVec 5 :=
  if y.isFloat then (a ^^^ 2 ^ (y.width - 1), 0) else (y.narrow r.sat (-(satInt y r.sat a)), 0)
/-- A shift right by sign fill. -/
def elSra (y : ETy) (_ : Rnd) (a b : Nat) : Nat × BitVec 5 := (y.wrap (signedN a y.width / 2 ^ (b % y.width)), 0)
/-- An integer type. -/
def intTy (y : ETy) : Bool := !y.isFloat
/-- A member that exists for FP types only. -/
def fpTy (y : ETy) : Bool := y.isFloat

/-- VADD (R288). -/
def execVadd (g : Bool) (d a b : Reg) (t : BitVec 3) (s : State) : Out := vbin (.vadd g d a b t) g d a b t anyTy true elAdd s
/-- VSUB. -/
def execVsub (g : Bool) (d a b : Reg) (t : BitVec 3) (s : State) : Out := vbin (.vsub g d a b t) g d a b t anyTy true elSub s
/-- VMUL. -/
def execVmul (g : Bool) (d a b : Reg) (t : BitVec 3) (s : State) : Out := vbin (.vmul g d a b t) g d a b t anyTy true elMul s
/-- VFMA: d + a × b, one rounding. -/
def execVfma (g : Bool) (d a b : Reg) (t : BitVec 3) (s : State) : Out := vfma (.vfma g d a b t) g false d a (.inl b) t s
/-- VFMS: d − a × b, one rounding. -/
def execVfms (g : Bool) (d a b : Reg) (t : BitVec 3) (s : State) : Out := vfma (.vfms g d a b t) g true d a (.inl b) t s
/-- VMIN. -/
def execVmin (g : Bool) (d a b : Reg) (t : BitVec 3) (s : State) : Out := vbin (.vmin g d a b t) g d a b t anyTy false elMin s
/-- VMAX. -/
def execVmax (g : Bool) (d a b : Reg) (t : BitVec 3) (s : State) : Out := vbin (.vmax g d a b t) g d a b t anyTy false elMax s
/-- VABS. -/
def execVabs (g : Bool) (d a : Reg) (t : BitVec 3) (s : State) : Out := vun (.vabs g d a t) g d a t anyTy false elAbs s
/-- VNEG. -/
def execVneg (g : Bool) (d a : Reg) (t : BitVec 3) (s : State) : Out := vun (.vneg g d a t) g d a t anyTy false elNeg s
/-- VAND. -/
def execVand (g : Bool) (d a b : Reg) (t : BitVec 3) (s : State) : Out :=
  vbin (.vand g d a b t) g d a b t anyTy false (fun _ _ x z => (x &&& z, 0)) s
/-- VOR. -/
def execVor (g : Bool) (d a b : Reg) (t : BitVec 3) (s : State) : Out :=
  vbin (.vor g d a b t) g d a b t anyTy false (fun _ _ x z => (x ||| z, 0)) s
/-- VXOR. -/
def execVxor (g : Bool) (d a b : Reg) (t : BitVec 3) (s : State) : Out :=
  vbin (.vxor g d a b t) g d a b t anyTy false (fun _ _ x z => (x ^^^ z, 0)) s
/-- VSLL. -/
def execVsll (g : Bool) (d a b : Reg) (t : BitVec 3) (s : State) : Out :=
  vbin (.vsll g d a b t) g d a b t intTy false (fun y _ x z => (x * 2 ^ (z % y.width) % 2 ^ y.width, 0)) s
/-- VSRL. -/
def execVsrl (g : Bool) (d a b : Reg) (t : BitVec 3) (s : State) : Out :=
  vbin (.vsrl g d a b t) g d a b t intTy false (fun y _ x z => (x / 2 ^ (z % y.width), 0)) s
/-- VSRA. -/
def execVsra (g : Bool) (d a b : Reg) (t : BitVec 3) (s : State) : Out := vbin (.vsra g d a b t) g d a b t intTy false elSra s
/-- VDIV (R289). -/
def execVdiv (g : Bool) (d a b : Reg) (t : BitVec 3) (s : State) : Out := vbin (.vdiv g d a b t) g d a b t fpTy true fpDiv s
/-- VSQRT. -/
def execVsqrt (g : Bool) (d a : Reg) (t : BitVec 3) (s : State) : Out := vun (.vsqrt g d a t) g d a t fpTy true (fpUnary fvSqrt) s
/-- VRSQ. -/
def execVrsq (g : Bool) (d a : Reg) (t : BitVec 3) (s : State) : Out := vun (.vrsq g d a t) g d a t fpTy true (fpUnary fvRsq) s
/-- VRCP. -/
def execVrcp (g : Bool) (d a : Reg) (t : BitVec 3) (s : State) : Out := vun (.vrcp g d a t) g d a t fpTy true (fpUnary fvRcp) s
/-- VEXP2. -/
def execVexp2 (g : Bool) (d a : Reg) (t : BitVec 3) (s : State) : Out := vun (.vexp2 g d a t) g d a t fpTy true (fpUnary fvExp2) s
/-- VLOG2. -/
def execVlog2 (g : Bool) (d a : Reg) (t : BitVec 3) (s : State) : Out := vun (.vlog2 g d a t) g d a t fpTy true (fpUnary fvLog2) s
/-- VMULH: bits [2w−1:w] of the product. -/
def execVmulh (g : Bool) (d a b : Reg) (t : BitVec 3) (s : State) : Out :=
  vbin (.vmulh g d a b t) g d a b t intTy false (fun y _ x z => (y.wrap (y.toInt x * y.toInt z / 2 ^ y.width), 0)) s
/-- VADDSAT: clamped. -/
def execVaddsat (g : Bool) (d a b : Reg) (t : BitVec 3) (s : State) : Out :=
  vbin (.vaddsat g d a b t) g d a b t intTy false (fun y _ x z => (y.narrow true (y.toInt x + y.toInt z), 0)) s
/-- VSUBSAT: clamped. -/
def execVsubsat (g : Bool) (d a b : Reg) (t : BitVec 3) (s : State) : Out :=
  vbin (.vsubsat g d a b t) g d a b t intTy false (fun y _ x z => (y.narrow true (y.toInt x - y.toInt z), 0)) s
/-- VMOV: every bit unchanged. -/
def execVmov (g : Bool) (d a : Reg) (t : BitVec 3) (s : State) : Out := vun (.vmov g d a t) g d a t anyTy false (fun _ _ x => (x, 0)) s

/-! ## Scalar operands (R290, R291) -/

/-- VADDSC (R290). -/
def execVaddsc (g : Bool) (d a b : Reg) (t : BitVec 3) (s : State) : Out := vscal (.vaddsc g d a b t) g d a b t true elAdd s
/-- VSUBSC. -/
def execVsubsc (g : Bool) (d a b : Reg) (t : BitVec 3) (s : State) : Out := vscal (.vsubsc g d a b t) g d a b t true elSub s
/-- VMULSC. -/
def execVmulsc (g : Bool) (d a b : Reg) (t : BitVec 3) (s : State) : Out := vscal (.vmulsc g d a b t) g d a b t true elMul s
/-- VFMASC: d + a × s, one rounding. -/
def execVfmasc (g : Bool) (d a b : Reg) (t : BitVec 3) (s : State) : Out := vfma (.vfmasc g d a b t) g false d a (.inr b) t s
/-- VMINSC. -/
def execVminsc (g : Bool) (d a b : Reg) (t : BitVec 3) (s : State) : Out := vscal (.vminsc g d a b t) g d a b t false elMin s
/-- VMAXSC. -/
def execVmaxsc (g : Bool) (d a b : Reg) (t : BitVec 3) (s : State) : Out := vscal (.vmaxsc g d a b t) g d a b t false elMax s

/-- Every element := the scalar's low bits (VSPLAT, VSPLATI). -/
def splat (i : Instr) (g : Bool) (d : Reg) (t : BitVec 3) (ok : ETy → Bool) (x : Nat) (s : State) : Out :=
  typed i g t ok s (fun y => s.vecDone d y.width 0 [] (List.replicate (256 / y.width) (x % 2 ^ y.width, 0)) false)

/-- VSPLAT (R290). -/
def execVsplat (g : Bool) (d a : Reg) (t : BitVec 3) (s : State) : Out := splat (.vsplat g d a t) g d t anyTy (s.X a).toNat s
/-- VSPLATI (R291): the payload's bits above the element are zero, or the instruction is illegal. -/
def execVsplati (g : Bool) (d : Reg) (t : BitVec 3) (imm : BitVec 32) (s : State) : Out :=
  splat (.vsplati g d t imm) g d t (fun y => decide (imm.toNat < 2 ^ y.width)) imm.toNat s

/-- VINS (R290): one element of V(rd), the others kept. -/
def execVins (g : Bool) (d a i : Reg) (t : BitVec 3) (s : State) : Out :=
  typed (.vins g d a i t) g t anyTy s (fun y => do
    let n := 256 / y.width
    let (s', old) ← s.readV d
    let l := (vecEls old y.width).set ((s.X i).toNat % n) ((s.X a).toNat % 2 ^ y.width)
    s'.vecDone d y.width 0 [d.toNat] (l.map (fun x => (x, 0))) true)

/-- VEXT (R290): an element into X(rd), sign-extended for the I types. -/
def execVext (g : Bool) (d a i : Reg) (t : BitVec 3) (s : State) : Out :=
  typed (.vext g d a i t) g t anyTy s (fun y => do
    let (s', v) ← s.readV a
    let x := (vecEls v y.width).getD ((s.X i).toNat % (256 / y.width)) 0
    .ok ((s'.setX d (if y.isSigned then sextN x y.width else BitVec.ofNat 64 x)).vqPush (64 + d.toNat) [a.toNat]))

/-! ## VCVT (R254 to R257) -/

/-- The parts of a pair of widths, or none for a pair that does not exist (R255). -/
def vcvtParts (a b : Nat) : Option Nat :=
  let hi := max a b
  let lo := min a b
  if hi = lo then some 1
  else if hi = 64 ∧ lo = 8 then none
  else some (hi / lo)

/-- VCVT's destination and source types and parts, or none where R255 makes it illegal; SCALE needs FP32 on one side and a narrower FP
type on the other. -/
def vcvtTypes (dst src q : Nat) (scale : Bool) : Option (ETy × ETy × Nat) := do
  let d ← ETy.ofCode dst
  let c ← ETy.ofCode src
  let p ← vcvtParts d.width c.width
  let narrow := fun (y : ETy) => y.isFloat && y != .fp32
  if d = .c32 ∨ c = .c32 ∨ p ≤ q then none
  else if scale && !((d == .fp32 && narrow c) || (c == .fp32 && narrow d)) then none
  else some (d, c, p)

/-- The list with `new` in place of its elements from `k` on. -/
def putAt (l new : List Nat) (k : Nat) : List Nat := l.take k ++ new ++ l.drop (k + new.length)

/-- VCVT (R257): x is the destination type, y the source type. -/
def execVcvt (g : Bool) (d a q : Reg) (x y : BitVec 4) (s : State) : Out :=
  let i : Instr := .vcvt g d a q x y
  let sc := s.pfxScale
  governed i g s (finish i s (
    match vcvtTypes x.toNat y.toNat q.toNat sc.isSome with
    | none => illegal i
    | some ((dt : ETy), (st : ETy), _) =>
      let bad := match sc with
        | none => false
        | some c => if dt = ETy.fp32 then !scaleOk c else !scaleRcpOk c
      if bad then raise .scaleInvalid (BitVec.ofNat 64 (sc.getD 0))
      else viaQueue s (do
        let n := 256 / max dt.width st.width
        let keeps := decide (dt.width < st.width)
        let (s', l) ← s.readVs (if keeps then [a, d] else [a]) []
        let src := vecEls (gotV l a) st.width
        let src := if st.width < dt.width then (src.drop (q.toNat * n)).take n else src.take n
        let f := match sc with
          | none => id
          | some c => fun (v : FVal) => (fvMul v (ETy.decode .fp32 (if dt = ETy.fp32 then c else scaleRcp c))).1
        let r := map2 (fun r e _ => convertEl st dt (s.rnd r) e f) (s.draws n) src (List.replicate n 0)
        let old := vecEls (gotV l d) dt.width
        let out := if keeps then putAt old (r.map (·.1)) (q.toNat * n) else r.map (·.1)
        let s'' ← ((s'.drawn n).setFlags (flagsOf r)).writeV d (vecOf dt.width out) keeps
        .ok (s''.vqPush d.toNat [a.toNat]))))

/-! ## Reductions, permutes, sorting, compaction (R292 to R296) -/

/-- r := a_0, then r := r + a_i, one draw for a step. -/
def foldEls (f : Nat → Nat → Nat → Nat × BitVec 5) (r : Nat) (fl : BitVec 5) : List Nat → List Nat → Nat × BitVec 5
  | d :: ds, a :: as => let x := f d r a; foldEls f x.1 (fl ||| x.2) ds as
  | _, _ => (r, fl)

/-- A reduction: element 0 of V(d) := the fold, the others 0 (R293). -/
def vred (i : Instr) (g : Bool) (d a : Reg) (t : BitVec 3) (dr : Bool) (f : ETy → Rnd → Nat → Nat → Nat × BitVec 5) (s : State) : Out :=
  typed i g t anyTy s (fun y => do
    let n := 256 / y.width
    let rs := if dr then s.elDraws y (n - 1) else List.replicate (n - 1) 0
    let (s', v) ← s.readV a
    let l := vecEls v y.width
    let x := foldEls (fun r p q => f y (s.rnd r) p q) (l.headD 0) 0 rs l.tail
    s'.vecDone d y.width (if dr then ndraws y (n - 1) else 0) [a.toNat] [x] false)

/-- VREDSUM (R293). -/
def execVredsum (g : Bool) (d a : Reg) (t : BitVec 3) (s : State) : Out := vred (.vredsum g d a t) g d a t true elAdd s
/-- VREDMAX. -/
def execVredmax (g : Bool) (d a : Reg) (t : BitVec 3) (s : State) : Out := vred (.vredmax g d a t) g d a t false elMax s
/-- VREDMIN. -/
def execVredmin (g : Bool) (d a : Reg) (t : BitVec 3) (s : State) : Out := vred (.vredmin g d a t) g d a t false elMin s

/-- Moves the elements of V(a), or of V(a) and V(b). -/
def vmove (i : Instr) (g : Bool) (d a : Reg) (bs : List Reg) (ms : List Nat) (t : BitVec 3) (ok : ETy → Bool) (f : ETy → List Nat → List (Reg × Vec) → List Nat)
    (s : State) : Out :=
  typed i g t ok s (fun y => do
    let (s', l) ← s.readVs (a :: bs) []
    s'.vecDone d y.width 0 (a.toNat :: bs.map (·.toNat) ++ ms) ((f y (vecEls (gotV l a) y.width) l).map (fun x => (x, 0))) false)

/-- VPERM (R293). -/
def execVperm (g : Bool) (d a b : Reg) (t : BitVec 3) (s : State) : Out :=
  vmove (.vperm g d a b t) g d a [b] [] t anyTy (fun y l vs => (vecEls (gotV vs b) y.width).map (fun j => l.getD (j % l.length) 0)) s
/-- VROT (R293): element (i + k) mod n := a_i. -/
def execVrot (g : Bool) (d a b : Reg) (t : BitVec 3) (s : State) : Out :=
  vmove (.vrot g d a b t) g d a [] [] t anyTy (fun _ l _ =>
    let k := (s.X b).toNat % l.length
    l.drop (l.length - k) ++ l.take (l.length - k)) s

/-- The key of an element, as an integer in the order of R294; NaNs have none. -/
def sortKey (y : ETy) (sh a : Nat) : Option Int :=
  if y.isFloat then
    if (y.decode a).isNan then none
    else
      let m := a % 2 ^ (y.width - 1)
      some (if fieldN a (y.width - 1) 1 = 1 then -(m : Int) - 1 else m)
  else some (y.toInt a / 2 ^ sh)

/-- The key of `a` is not above that of `b`: NaNs come last. -/
def keyLe (a b : Option Int) : Bool :=
  match a, b with
  | _, none => true
  | none, some _ => false
  | some x, some y => decide (x ≤ y)

/-- Inserts an element before the first one with a larger key, so that equal keys keep their order. -/
def insertKey (y : ETy) (sh a : Nat) : List Nat → List Nat
  | [] => [a]
  | b :: r => if keyLe (sortKey y sh a) (sortKey y sh b) then a :: b :: r else b :: insertKey y sh a r

/-- The stable sort by keys (R294). -/
def sortEls (y : ETy) (sh : Nat) (l : List Nat) : List Nat := l.foldr (insertKey y sh) []

/-- VSORT (R294): sh below the width, and 0 for FP types. -/
def execVsort (g : Bool) (d a h : Reg) (t : BitVec 3) (s : State) : Out :=
  vmove (.vsort g d a h t) g d a [] [] t (fun y => decide (h.toNat < y.width) && (!y.isFloat || h == 0)) (fun y l _ => sortEls y h.toNat l) s

/-- Two neighbours have equal keys (R295): FP32 elements by number, a NaN equal to nothing. -/
def sameKey (y : ETy) (sh a b : Nat) : Bool :=
  if y.isFloat then
    let x := y.decode a; let z := y.decode b
    !x.isNan && !z.isNan && fvEq x z
  else sortKey y sh a == sortKey y sh b

/-- A bit for the first element of each run, the element before being `p`. -/
def runMarks (y : ETy) (sh : Nat) (p : Option Nat) (w : Nat) : List Nat → Nat
  | [] => 0
  | a :: r => (match p with | none => w | some b => if sameKey y sh b a then 0 else w) + runMarks y sh (some a) (2 * w) r

/-- VDUPM (R295): marks the first element of each run of equal keys. -/
def execVdupm (g : Bool) (d a h : Reg) (t : BitVec 3) (s : State) : Out :=
  typed (.vdupm g d a h t) g t (fun y => ty32 y && (!y.isFloat || h == 0)) s (fun y => do
    let (s', v) ← s.readV a
    .ok ((s'.setP d (BitVec.ofNat 8 (runMarks y h.toNat none 1 (vecEls v y.width)))).vqPush (32 + d.toNat) [a.toNat]))

/-- The elements whose mask bit is 1, bit `k` on. -/
def keepMasked (m : Byte) (k : Nat) : List Nat → List Nat
  | [] => []
  | a :: r => if m.getLsbD k then a :: keepMasked m (k + 1) r else keepMasked m (k + 1) r

/-- VCOMPR (R296). -/
def execVcompr (g : Bool) (d a m : Reg) (t : BitVec 3) (s : State) : Out :=
  vmove (.vcompr g d a m t) g d a [] [32 + m.toNat] t ty32 (fun _ l _ =>
    let k := keepMasked (s.c.pr m) 0 l
    k ++ List.replicate (l.length - k.length) 0) s

/-- The next element of `l` where the mask bit is 1, else 0; `n` elements from bit `k`. -/
def spread (m : Byte) (k : Nat) (l : List Nat) : Nat → List Nat
  | 0 => []
  | n + 1 => if m.getLsbD k then l.headD 0 :: spread m (k + 1) l.tail n else 0 :: spread m (k + 1) l n

/-- VEXPND (R296). -/
def execVexpnd (g : Bool) (d a m : Reg) (t : BitVec 3) (s : State) : Out :=
  vmove (.vexpnd g d a m t) g d a [] [32 + m.toNat] t ty32 (fun _ l _ => spread (s.c.pr m) 0 l l.length) s

/-! ## Compares, selection, predicates (R297, R298) -/

/-- The conditions in the order of R297. -/
def cmpInt (c : Nat) (y : ETy) (a b : Nat) : Bool :=
  let x := y.toInt a; let z := y.toInt b
  match c with
  | 0 => x == z | 1 => x != z | 2 => decide (x < z) | 3 => decide (x ≤ z) | 4 => decide (z < x) | 5 => decide (z ≤ x)
  | 6 => decide (a < b) | 7 => decide (b ≤ a) | _ => false

/-- A comparison of two FP32 elements (R298): the bit, and NV. -/
def cmpFp (c nanp a b : Nat) : Bool × BitVec 5 :=
  let fix := fun (v : FVal) => if nanp = 2 ∧ v.isNan then FVal.fin false 0 1 false else v
  let x := fix (ETy.decode .fp32 a); let z := fix (ETy.decode .fp32 b)
  let nan := x.isNan || z.isNan
  let fl := if x.isSnan || z.isSnan || (nan && 2 ≤ c && c ≤ 5) then fNV else 0
  if nan then (c == 1 || c == 8, fl)
  else (match c with
    | 0 => fvEq x z | 1 => !fvEq x z | 2 => fvLt x z | 3 => !fvLt z x | 4 => fvLt z x | 5 => !fvLt x z | _ => false, 0)

/-- The pairings of VCMP that exist (R297). -/
def cmpOk (c : Nat) (y : ETy) : Bool := ty32 y && (if y.isFloat then c != 6 && c != 7 else c != 8)

/-- Results of a compare as predicate bits and flags. -/
def cmpBits (f : Nat → Nat → Bool × BitVec 5) (w : Nat) : List Nat → List Nat → Nat × BitVec 5
  | a :: as, b :: bs => let x := f a b; let r := cmpBits f (2 * w) as bs; (x.1.toNat * w + r.1, x.2 ||| r.2)
  | _, _ => (0, 0)

/-- VCMP (R297, R298): the type in force is I32, U32 or FP32. -/
def execVcmp (g : Bool) (d a b : Reg) (c : BitVec 6) (t : BitVec 3) (s : State) : Out :=
  typed (.vcmp g d a b c t) g t (cmpOk c.toNat) s (fun y => do
    let (s', l) ← s.readVs [a, b] []
    let f := fun (x z : Nat) => if y.isFloat then cmpFp c.toNat (s.rnd 0).nanp x z else (cmpInt c.toNat y x z, 0)
    let r := cmpBits f 1 (vecEls (gotV l a) 32) (vecEls (gotV l b) 32)
    .ok (((s'.setFlags r.2).setP d (BitVec.ofNat 8 r.1)).vqPush (32 + d.toNat) [a.toNat, b.toNat]))

/-- Elements by a mask: of `a` where the bit is 1, else of `d`. -/
def pick (m : Byte) (k : Nat) : List Nat → List Nat → List Nat
  | a :: as, d :: ds => (if m.getLsbD k then a else d) :: pick m (k + 1) as ds
  | _, _ => []

/-- VSEL (R297): the other elements are kept. -/
def execVsel (g : Bool) (d a m : Reg) (t : BitVec 3) (s : State) : Out :=
  typed (.vsel g d a m t) g t ty32 s (fun _ => do
    let (s', l) ← s.readVs [a, d] []
    s'.vecDone d 32 0 [a.toNat, d.toNat, 32 + m.toNat] ((pick (s.c.pr m) 0 (vecEls (gotV l a) 32) (vecEls (gotV l d) 32)).map (fun x => (x, 0))) true)

/-- A predicate operation (R297). -/
def predOp (i : Instr) (g : Bool) (d : Reg) (srcs : List Nat) (v : Byte) (s : State) : Out :=
  governed i g s (finish i s (viaQueue s (.ok ((s.setP d v).vqPush (32 + d.toNat) srcs))))

/-- PAND. -/
def execPand (g : Bool) (d a b : Reg) (s : State) : Out :=
  predOp (.pand g d a b) g d [32 + a.toNat, 32 + b.toNat] (s.c.pr a &&& s.c.pr b) s
/-- POR. -/
def execPor (g : Bool) (d a b : Reg) (s : State) : Out :=
  predOp (.por g d a b) g d [32 + a.toNat, 32 + b.toNat] (s.c.pr a ||| s.c.pr b) s
/-- PNOT. -/
def execPnot (g : Bool) (d a : Reg) (s : State) : Out := predOp (.pnot g d a) g d [32 + a.toNat] (~~~(s.c.pr a)) s
/-- PCNT: the number of 1 bits, into X(rd). -/
def execPcnt (g : Bool) (d a : Reg) (s : State) : Out :=
  governed (.pcnt g d a) g s (finish (.pcnt g d a) s (viaQueue s (.ok
    ((s.setX d (BitVec.ofNat 64 (popCount ((s.c.pr a).zeroExtend 64) 8))).vqPush (64 + d.toNat) [32 + a.toNat]))))

end Sys2Proof.Machine
end

