-- ==== Sys2Proof/Machine/Pfx.lean ====
section
/-! DEFINITION. PFX and the pair it forms (R47 to R54): what each governable instruction honours, the decoding of the governed word, the
execution of the pair. -/

namespace Sys2Proof.Machine
open Sys2Proof

/-- The prefix fields that an instruction honours away from their defaults (R49). -/
structure Honours where
  rnd : Bool
  sat : Bool
  nanp : Bool
  ovr : Bool
  scale : Bool
deriving DecidableEq, Repr, Inhabited

/-- The type in force under the override `o` is a floating-point type (R285). -/
def fpInForce (o : BitVec 4) (t : BitVec 3) : Bool :=
  match ETy.ofCode o.toNat with
  | some y => y.isFloat
  | none => match ETy.ofT t.toNat with
    | some y => y.isFloat
    | none => false

/-- What each governable instruction honours (R276, R288, R290 to R292, R297, R312); none for an instruction that is not governable (R50). -/
def honoursOf (i : Instr) (isFp : BitVec 3 → Bool) : Option Honours :=
  match i with
  | .vadd _ _ _ _ t => some ⟨isFp t, true, true, true, false⟩
  | .vsub _ _ _ _ t => some ⟨isFp t, true, true, true, false⟩
  | .vmul _ _ _ _ t => some ⟨isFp t, true, true, true, false⟩
  | .vfma _ _ _ _ t => some ⟨isFp t, true, true, true, false⟩
  | .vfms _ _ _ _ t => some ⟨isFp t, true, true, true, false⟩
  | .vaddsc _ _ _ _ t => some ⟨isFp t, true, true, true, false⟩
  | .vsubsc _ _ _ _ t => some ⟨isFp t, true, true, true, false⟩
  | .vmulsc _ _ _ _ t => some ⟨isFp t, true, true, true, false⟩
  | .vfmasc _ _ _ _ t => some ⟨isFp t, true, true, true, false⟩
  | .vredsum _ _ _ t => some ⟨isFp t, true, true, true, false⟩
  | .vmin .. | .vmax .. | .vminsc .. | .vmaxsc .. | .vredmax .. | .vredmin .. | .vcmp .. => some ⟨false, false, true, true, false⟩
  | .vabs _ _ _ t => some ⟨false, !isFp t, false, true, false⟩
  | .vneg _ _ _ t => some ⟨false, !isFp t, false, true, false⟩
  | .vand .. | .vor .. | .vxor .. | .vsll .. | .vsrl .. | .vsra .. | .vmulh .. | .vaddsat .. | .vsubsat .. | .vmov ..
    | .vsplat .. | .vins .. | .vext .. | .vperm .. | .vrot .. | .vsort .. | .vdupm .. | .vcompr .. | .vexpnd ..
    | .vsplati .. => some ⟨false, false, false, true, false⟩
  | .vdiv .. | .vsqrt .. | .vrsq .. | .vrcp .. | .vexp2 .. | .vlog2 .. => some ⟨true, true, true, true, false⟩
  | .vsel .. | .pand .. | .por .. | .pnot .. | .pcnt .. | .flt .. | .feq .. | .fclass .. => some ⟨false, false, false, false, false⟩
  | .vcvt .. | .scal .. => some ⟨true, true, true, false, true⟩
  | .fadd .. | .fsub .. | .fmul .. | .fmac .. | .fdiv .. | .fsqrt .. => some ⟨true, true, true, false, false⟩
  | .fmin .. | .fmax .. => some ⟨false, false, true, false, false⟩
  | .fcvti .. | .fcvtf .. => some ⟨true, false, false, false, false⟩
  | .amofadd .. => some ⟨true, false, true, false, false⟩
  | .emma .. => some ⟨false, true, true, false, false⟩
  | .emmd .. => some ⟨true, true, true, false, false⟩
  | _ => none

/-- `honours` of R51: every field away from its default is one the instruction honours. -/
def Pfx.honoured (p : Pfx) (h : Honours) : Bool :=
  (h.rnd || p.rnd == 0) && (h.sat || !p.sat) && (h.nanp || p.nanp == 0) && (h.ovr || p.ovr == 0) && (h.scale || !p.scale)

/-- The governed instruction of a pair is executed under the prefix in force. -/
def execGoverned (i : Instr) (s : State) : Out :=
  match i with
  | .vadd g d a b t => Sys2Proof.Machine.execVadd g d a b t s
  | .vsub g d a b t => Sys2Proof.Machine.execVsub g d a b t s
  | .vmul g d a b t => Sys2Proof.Machine.execVmul g d a b t s
  | .vfma g d a b t => Sys2Proof.Machine.execVfma g d a b t s
  | .vfms g d a b t => Sys2Proof.Machine.execVfms g d a b t s
  | .vaddsc g d a b t => Sys2Proof.Machine.execVaddsc g d a b t s
  | .vsubsc g d a b t => Sys2Proof.Machine.execVsubsc g d a b t s
  | .vmulsc g d a b t => Sys2Proof.Machine.execVmulsc g d a b t s
  | .vfmasc g d a b t => Sys2Proof.Machine.execVfmasc g d a b t s
  | .vredsum g d a t => Sys2Proof.Machine.execVredsum g d a t s
  | .vmin g d a b t => Sys2Proof.Machine.execVmin g d a b t s
  | .vmax g d a b t => Sys2Proof.Machine.execVmax g d a b t s
  | .vminsc g d a b t => Sys2Proof.Machine.execVminsc g d a b t s
  | .vmaxsc g d a b t => Sys2Proof.Machine.execVmaxsc g d a b t s
  | .vredmax g d a t => Sys2Proof.Machine.execVredmax g d a t s
  | .vredmin g d a t => Sys2Proof.Machine.execVredmin g d a t s
  | .vcmp g d a b c t => Sys2Proof.Machine.execVcmp g d a b c t s
  | .vabs g d a t => Sys2Proof.Machine.execVabs g d a t s
  | .vneg g d a t => Sys2Proof.Machine.execVneg g d a t s
  | .vand g d a b t => Sys2Proof.Machine.execVand g d a b t s
  | .vor g d a b t => Sys2Proof.Machine.execVor g d a b t s
  | .vxor g d a b t => Sys2Proof.Machine.execVxor g d a b t s
  | .vsll g d a b t => Sys2Proof.Machine.execVsll g d a b t s
  | .vsrl g d a b t => Sys2Proof.Machine.execVsrl g d a b t s
  | .vsra g d a b t => Sys2Proof.Machine.execVsra g d a b t s
  | .vmulh g d a b t => Sys2Proof.Machine.execVmulh g d a b t s
  | .vaddsat g d a b t => Sys2Proof.Machine.execVaddsat g d a b t s
  | .vsubsat g d a b t => Sys2Proof.Machine.execVsubsat g d a b t s
  | .vmov g d a t => Sys2Proof.Machine.execVmov g d a t s
  | .vsplat g d a t => Sys2Proof.Machine.execVsplat g d a t s
  | .vins g d a i t => Sys2Proof.Machine.execVins g d a i t s
  | .vext g d a i t => Sys2Proof.Machine.execVext g d a i t s
  | .vperm g d a b t => Sys2Proof.Machine.execVperm g d a b t s
  | .vrot g d a b t => Sys2Proof.Machine.execVrot g d a b t s
  | .vsort g d a h t => Sys2Proof.Machine.execVsort g d a h t s
  | .vdupm g d a h t => Sys2Proof.Machine.execVdupm g d a h t s
  | .vcompr g d a m t => Sys2Proof.Machine.execVcompr g d a m t s
  | .vexpnd g d a m t => Sys2Proof.Machine.execVexpnd g d a m t s
  | .vsplati g d t imm => Sys2Proof.Machine.execVsplati g d t imm s
  | .vdiv g d a b t => Sys2Proof.Machine.execVdiv g d a b t s
  | .vsqrt g d a t => Sys2Proof.Machine.execVsqrt g d a t s
  | .vrsq g d a t => Sys2Proof.Machine.execVrsq g d a t s
  | .vrcp g d a t => Sys2Proof.Machine.execVrcp g d a t s
  | .vexp2 g d a t => Sys2Proof.Machine.execVexp2 g d a t s
  | .vlog2 g d a t => Sys2Proof.Machine.execVlog2 g d a t s
  | .vsel g d a m t => Sys2Proof.Machine.execVsel g d a m t s
  | .pand g d a b => Sys2Proof.Machine.execPand g d a b s
  | .por g d a b => Sys2Proof.Machine.execPor g d a b s
  | .pnot g d a => Sys2Proof.Machine.execPnot g d a s
  | .pcnt g d a => Sys2Proof.Machine.execPcnt g d a s
  | .flt g d a b => Sys2Proof.Machine.execFlt g d a b s
  | .feq g d a b => Sys2Proof.Machine.execFeq g d a b s
  | .fclass g d a => Sys2Proof.Machine.execFclass g d a s
  | .vcvt g d a q x y => Sys2Proof.Machine.execVcvt g d a q x y s
  | .scal g d a b => Sys2Proof.Machine.execScal g d a b s
  | .fadd g d a b => Sys2Proof.Machine.execFadd g d a b s
  | .fsub g d a b => Sys2Proof.Machine.execFsub g d a b s
  | .fmul g d a b => Sys2Proof.Machine.execFmul g d a b s
  | .fmac g d a b => Sys2Proof.Machine.execFmac g d a b s
  | .fdiv g d a b => Sys2Proof.Machine.execFdiv g d a b s
  | .fsqrt g d a => Sys2Proof.Machine.execFsqrt g d a s
  | .fmin g d a b => Sys2Proof.Machine.execFmin g d a b s
  | .fmax g d a b => Sys2Proof.Machine.execFmax g d a b s
  | .fcvti g d a => Sys2Proof.Machine.execFcvti g d a s
  | .fcvtf g d a => Sys2Proof.Machine.execFcvtf g d a s
  | .amofadd g d a b p n => Sys2Proof.Machine.execAmofadd g d a b p n s
  | .emma g a b h t => Sys2Proof.Machine.execEmma g a b h t s
  | .emmd g a b h => Sys2Proof.Machine.execEmmd g a b h s
  | i => finish i s (raise .illegalInstr (wordOf (encodeFirst i)))

/-- The prefix word of a pair's fields (R47). -/
def pfxWord (p : Pfx) : Nat := encodeFirst (.pfx p.rnd p.sat p.nanp p.ovr p.scale p.sreg)

/-- The prefix as an instruction. -/
def Pfx.instr (p : Pfx) : Instr := .pfx p.rnd p.sat p.nanp p.ovr p.scale p.sreg

/-- The pair runs: its prefix is in force and its words are kept while it stalls (R52), be it for an x register that the vector unit has still to
write (R284). -/
def runPair (p : Pfx) (i : Instr) (s : State) : Out :=
  let s := s.setC { s.c with held := some (p.instr, i) }
  if s.xHeld i then .next (s.stall .vectorQueue) else execGoverned i { s with pfx := some p }

/-- The governed word `w` and its payload have been fetched: `governable`, `valid` and `honours` of R51, then the pair runs. -/
def pairDecoded (p : Pfx) (w pay : Nat) (s : State) : Out :=
  let bad : Out := .next (decodeStop s (.trap { cause := .illegalInstr, tval := wordOf w }) (selLong w) true)
  match decodeWord w pay with
  | .error _ => bad
  | .ok i =>
    match honoursOf i (fpInForce p.ovr) with
    | none => bad
    | some h => if wellFormed i && p.honoured h then runPair p i s else bad

/-- The prefix is the last word of the body of a loop that branches back after it (R54). -/
def Ctx.branchesBack (c : Ctx) : Bool := c.loopActive && c.pc == c.lend && decide (1 < c.lrem.toNat)

/-- A stop of fetching the words after a prefix: a fetch that waits leaves the pair with the words that it has got (R52). -/
def pairStop (p : Pfx) (s : State) (e : Stop) (long : Bool) (w : Option (BitVec 32)) : State :=
  match e with
  | .wait r t => (t.setC { t.c with held := some (p.instr, p.instr), gword := w }).stall r
  | e => decodeStop s e long true

/-- The governed word, held or fetched. -/
def State.governedWord (s : State) : Except Stop (State × Nat) :=
  match s.c.held, s.c.gword with
  | some _, some w => .ok (s, w.toNat)
  | _, _ => s.fetch (s.c.pc + 4)

/-- The words after a prefix are fetched and decoded (R51); at the end of an iteration that branches back no word follows it (R54). -/
def pairFetch (p : Pfx) (s : State) : Out :=
  match s.governedWord with
  | .error e => .next (pairStop p s e false none)
  | .ok (s, w) =>
    if !selGoverned w || s.c.branchesBack then .next (decodeStop s (.trap { cause := .orphanPfx, tval := wordOf w }) false false)
    else if selLong w then
      match s.fetch (s.c.pc + 8) with
      | .error e => .next (pairStop p s e true (some (BitVec.ofNat 32 w)))
      | .ok (s, pay) => pairDecoded p w pay s
    else pairDecoded p w 0 s

/-- PFX (R47 to R54): a reserved field is illegal at the prefix; a stalled pair goes on from the words it holds; else the words after it are
fetched and governed. -/
def execPfx (rnd : BitVec 3) (sat : Bool) (nanp : BitVec 2) (ovr : BitVec 4) (scale : Bool) (sreg : Reg) (s : State) : Out :=
  let p : Pfx := ⟨rnd, sat, nanp, ovr, scale, sreg⟩
  if !wellFormed (.pfx rnd sat nanp ovr scale sreg) then
    .next (decodeStop s (.trap { cause := .illegalInstr, tval := wordOf (pfxWord p) }) false false)
  else match s.c.held with
    | some (.pfx .., .pfx ..) => pairFetch p s
    | some (.pfx .., i) => runPair p i s
    | _ => pairFetch p s

end Sys2Proof.Machine
end

