-- ==== Sys2Proof/Machine/Dispatch.lean ====
section
/-! DEFINITION. The dispatch: one arm per instruction, each one direct call of that instruction's meaning. -/

namespace Sys2Proof.Machine
open Sys2Proof

/-- What executing the instruction `i` does to the machine. -/
def exec (i : Instr) (s : State) : Host.Outcome State Fault Refusal :=
  match i with
  | .pfx p sc n o c r => Sys2Proof.Machine.execPfx p sc n o c r s
  | .add d a b => Sys2Proof.Machine.execAdd d a b s
  | .sub d a b => Sys2Proof.Machine.execSub d a b s
  | .and d a b => Sys2Proof.Machine.execAnd d a b s
  | .or d a b => Sys2Proof.Machine.execOr d a b s
  | .xor d a b => Sys2Proof.Machine.execXor d a b s
  | .sll d a b => Sys2Proof.Machine.execSll d a b s
  | .srl d a b => Sys2Proof.Machine.execSrl d a b s
  | .sra d a b => Sys2Proof.Machine.execSra d a b s
  | .slt d a b => Sys2Proof.Machine.execSlt d a b s
  | .sltu d a b => Sys2Proof.Machine.execSltu d a b s
  | .min d a b => Sys2Proof.Machine.execMin d a b s
  | .max d a b => Sys2Proof.Machine.execMax d a b s
  | .minu d a b => Sys2Proof.Machine.execMinu d a b s
  | .maxu d a b => Sys2Proof.Machine.execMaxu d a b s
  | .addw d a b => Sys2Proof.Machine.execAddw d a b s
  | .subw d a b => Sys2Proof.Machine.execSubw d a b s
  | .andn d a b => Sys2Proof.Machine.execAndn d a b s
  | .orn d a b => Sys2Proof.Machine.execOrn d a b s
  | .rol d a b => Sys2Proof.Machine.execRol d a b s
  | .ror d a b => Sys2Proof.Machine.execRor d a b s
  | .addi d a k => Sys2Proof.Machine.execAddi d a k s
  | .andi d a k => Sys2Proof.Machine.execAndi d a k s
  | .ori d a k => Sys2Proof.Machine.execOri d a k s
  | .xori d a k => Sys2Proof.Machine.execXori d a k s
  | .slli d a n => Sys2Proof.Machine.execSlli d a n s
  | .srli d a n => Sys2Proof.Machine.execSrli d a n s
  | .srai d a n => Sys2Proof.Machine.execSrai d a n s
  | .rori d a n => Sys2Proof.Machine.execRori d a n s
  | .slti d a k => Sys2Proof.Machine.execSlti d a k s
  | .mul d a b => Sys2Proof.Machine.execMul d a b s
  | .mulh d a b => Sys2Proof.Machine.execMulh d a b s
  | .mulhu d a b => Sys2Proof.Machine.execMulhu d a b s
  | .div d a b => Sys2Proof.Machine.execDiv d a b s
  | .divu d a b => Sys2Proof.Machine.execDivu d a b s
  | .rem d a b => Sys2Proof.Machine.execRem d a b s
  | .remu d a b => Sys2Proof.Machine.execRemu d a b s
  | .mulw d a b => Sys2Proof.Machine.execMulw d a b s
  | .bfx d a p w => Sys2Proof.Machine.execBfx d a p w s
  | .bfxs d a p w => Sys2Proof.Machine.execBfxs d a p w s
  | .bfi d a p w => Sys2Proof.Machine.execBfi d a p w s
  | .clz d a => Sys2Proof.Machine.execClz d a s
  | .ctz d a => Sys2Proof.Machine.execCtz d a s
  | .popc d a => Sys2Proof.Machine.execPopc d a s
  | .ldhi d k => Sys2Proof.Machine.execLdhi d k s
  | .addpc d k => Sys2Proof.Machine.execAddpc d k s
  | .ldi d imm => Sys2Proof.Machine.execLdi d imm s
  | .ldiu d imm => Sys2Proof.Machine.execLdiu d imm s
  | .addil d a imm => Sys2Proof.Machine.execAddil d a imm s
  | .beq a b o => Sys2Proof.Machine.execBeq a b o s
  | .bne a b o => Sys2Proof.Machine.execBne a b o s
  | .blt a b o => Sys2Proof.Machine.execBlt a b o s
  | .bge a b o => Sys2Proof.Machine.execBge a b o s
  | .bltu a b o => Sys2Proof.Machine.execBltu a b o s
  | .bgeu a b o => Sys2Proof.Machine.execBgeu a b o s
  | .jal d k => Sys2Proof.Machine.execJal d k s
  | .jalr d a k => Sys2Proof.Machine.execJalr d a k s
  | .jl d imm => Sys2Proof.Machine.execJl d imm s
  | .loop c l => Sys2Proof.Machine.execLoop c l s
  | .lb d a o t => Sys2Proof.Machine.execLb d a o t s
  | .lbu d a o t => Sys2Proof.Machine.execLbu d a o t s
  | .lh d a o t => Sys2Proof.Machine.execLh d a o t s
  | .lhu d a o t => Sys2Proof.Machine.execLhu d a o t s
  | .lw d a o t => Sys2Proof.Machine.execLw d a o t s
  | .lwu d a o t => Sys2Proof.Machine.execLwu d a o t s
  | .ld d a o t => Sys2Proof.Machine.execLd d a o t s
  | .sb v a o t => Sys2Proof.Machine.execSb v a o t s
  | .sh v a o t => Sys2Proof.Machine.execSh v a o t s
  | .sw v a o t => Sys2Proof.Machine.execSw v a o t s
  | .sd v a o t => Sys2Proof.Machine.execSd v a o t s
  | .ldl d a f t imm => Sys2Proof.Machine.execLdl d a f t imm s
  | .stl v a f t imm => Sys2Proof.Machine.execStl v a f t imm s
  | .ldv d a o t => Sys2Proof.Machine.execLdv d a o t s
  | .ldvx d a k t => Sys2Proof.Machine.execLdvx d a k t s
  | .ldvb d a o t => Sys2Proof.Machine.execLdvb d a o t s
  | .stv v a o t => Sys2Proof.Machine.execStv v a o t s
  | .stvx v a k t => Sys2Proof.Machine.execStvx v a k t s
  | .amoadd d a b w p n => Sys2Proof.Machine.execAmoadd d a b w p n s
  | .amoand d a b w p n => Sys2Proof.Machine.execAmoand d a b w p n s
  | .amoor d a b w p n => Sys2Proof.Machine.execAmoor d a b w p n s
  | .amoxor d a b w p n => Sys2Proof.Machine.execAmoxor d a b w p n s
  | .amomin d a b w p n => Sys2Proof.Machine.execAmomin d a b w p n s
  | .amomax d a b w p n => Sys2Proof.Machine.execAmomax d a b w p n s
  | .amominu d a b w p n => Sys2Proof.Machine.execAmominu d a b w p n s
  | .amomaxu d a b w p n => Sys2Proof.Machine.execAmomaxu d a b w p n s
  | .amoswap d a b w p n => Sys2Proof.Machine.execAmoswap d a b w p n s
  | .amocas d a b w p => Sys2Proof.Machine.execAmocas d a b w p s
  | .amofadd g d a b p n => Sys2Proof.Machine.execAmofadd g d a b p n s
  | .amofmin d a b p n => Sys2Proof.Machine.execAmofmin d a b p n s
  | .amofmax d a b p n => Sys2Proof.Machine.execAmofmax d a b p n s
  | .nmadd a b v => Sys2Proof.Machine.execNmadd a b v s
  | .nmfadd a b v => Sys2Proof.Machine.execNmfadd a b v s
  | .nmmax a b v => Sys2Proof.Machine.execNmmax a b v s
  | .nmmin a b v => Sys2Proof.Machine.execNmmin a b v s
  | .nmor a b v => Sys2Proof.Machine.execNmor a b v s
  | .lkacq d a t sc => Sys2Proof.Machine.execLkacq d a t sc s
  | .lktry d a sc => Sys2Proof.Machine.execLktry d a sc s
  | .lkrel d a sc => Sys2Proof.Machine.execLkrel d a sc s
  | .lkstat d a => Sys2Proof.Machine.execLkstat d a s
  | .fence sc l k => Sys2Proof.Machine.execFence sc l k s
  | .xprobe d a => Sys2Proof.Machine.execXprobe d a s
  | .xinv sc a => Sys2Proof.Machine.execXinv sc a s
  | .xinvas sc a => Sys2Proof.Machine.execXinvas sc a s
  | .synci sc a n => Sys2Proof.Machine.execSynci sc a n s
  | .survey d a m => Sys2Proof.Machine.execSurvey d a m s
  | .xmig d a f => Sys2Proof.Machine.execXmig d a f s
  | .trap a => Sys2Proof.Machine.execTrap a s
  | .eret => Sys2Proof.Machine.execEret s
  | .wfe d t => Sys2Proof.Machine.execWfe d t s
  | .halt => Sys2Proof.Machine.execHalt s
  | .brk => Sys2Proof.Machine.execBrk s
  | .resume d m => Sys2Proof.Machine.execResume d m s
  | .csrrw d a c => Sys2Proof.Machine.execCsrrw d a c s
  | .csrrs d a c => Sys2Proof.Machine.execCsrrs d a c s
  | .csrrc d a c => Sys2Proof.Machine.execCsrrc d a c s
  | .vadd g d a b t => Sys2Proof.Machine.execVadd g d a b t s
  | .vsub g d a b t => Sys2Proof.Machine.execVsub g d a b t s
  | .vmul g d a b t => Sys2Proof.Machine.execVmul g d a b t s
  | .vfma g d a b t => Sys2Proof.Machine.execVfma g d a b t s
  | .vfms g d a b t => Sys2Proof.Machine.execVfms g d a b t s
  | .vmin g d a b t => Sys2Proof.Machine.execVmin g d a b t s
  | .vmax g d a b t => Sys2Proof.Machine.execVmax g d a b t s
  | .vabs g d a t => Sys2Proof.Machine.execVabs g d a t s
  | .vneg g d a t => Sys2Proof.Machine.execVneg g d a t s
  | .vand g d a b t => Sys2Proof.Machine.execVand g d a b t s
  | .vor g d a b t => Sys2Proof.Machine.execVor g d a b t s
  | .vxor g d a b t => Sys2Proof.Machine.execVxor g d a b t s
  | .vsll g d a b t => Sys2Proof.Machine.execVsll g d a b t s
  | .vsrl g d a b t => Sys2Proof.Machine.execVsrl g d a b t s
  | .vsra g d a b t => Sys2Proof.Machine.execVsra g d a b t s
  | .vdiv g d a b t => Sys2Proof.Machine.execVdiv g d a b t s
  | .vsqrt g d a t => Sys2Proof.Machine.execVsqrt g d a t s
  | .vrsq g d a t => Sys2Proof.Machine.execVrsq g d a t s
  | .vrcp g d a t => Sys2Proof.Machine.execVrcp g d a t s
  | .vexp2 g d a t => Sys2Proof.Machine.execVexp2 g d a t s
  | .vlog2 g d a t => Sys2Proof.Machine.execVlog2 g d a t s
  | .vmulh g d a b t => Sys2Proof.Machine.execVmulh g d a b t s
  | .vaddsat g d a b t => Sys2Proof.Machine.execVaddsat g d a b t s
  | .vsubsat g d a b t => Sys2Proof.Machine.execVsubsat g d a b t s
  | .vmov g d a t => Sys2Proof.Machine.execVmov g d a t s
  | .vaddsc g d a b t => Sys2Proof.Machine.execVaddsc g d a b t s
  | .vsubsc g d a b t => Sys2Proof.Machine.execVsubsc g d a b t s
  | .vmulsc g d a b t => Sys2Proof.Machine.execVmulsc g d a b t s
  | .vfmasc g d a b t => Sys2Proof.Machine.execVfmasc g d a b t s
  | .vminsc g d a b t => Sys2Proof.Machine.execVminsc g d a b t s
  | .vmaxsc g d a b t => Sys2Proof.Machine.execVmaxsc g d a b t s
  | .vsplat g d a t => Sys2Proof.Machine.execVsplat g d a t s
  | .vins g d a k t => Sys2Proof.Machine.execVins g d a k t s
  | .vext g d a k t => Sys2Proof.Machine.execVext g d a k t s
  | .vsplati g d t imm => Sys2Proof.Machine.execVsplati g d t imm s
  | .vcvt g d a q x y => Sys2Proof.Machine.execVcvt g d a q x y s
  | .vredsum g d a t => Sys2Proof.Machine.execVredsum g d a t s
  | .vredmax g d a t => Sys2Proof.Machine.execVredmax g d a t s
  | .vredmin g d a t => Sys2Proof.Machine.execVredmin g d a t s
  | .vperm g d a b t => Sys2Proof.Machine.execVperm g d a b t s
  | .vrot g d a b t => Sys2Proof.Machine.execVrot g d a b t s
  | .vsort g d a h t => Sys2Proof.Machine.execVsort g d a h t s
  | .vdupm g d a h t => Sys2Proof.Machine.execVdupm g d a h t s
  | .vcompr g d a m t => Sys2Proof.Machine.execVcompr g d a m t s
  | .vexpnd g d a m t => Sys2Proof.Machine.execVexpnd g d a m t s
  | .vcmp g d a b c t => Sys2Proof.Machine.execVcmp g d a b c t s
  | .vsel g d a m t => Sys2Proof.Machine.execVsel g d a m t s
  | .pand g d a b => Sys2Proof.Machine.execPand g d a b s
  | .por g d a b => Sys2Proof.Machine.execPor g d a b s
  | .pnot g d a => Sys2Proof.Machine.execPnot g d a s
  | .pcnt g d a => Sys2Proof.Machine.execPcnt g d a s
  | .sbind p a => Sys2Proof.Machine.execSbind p a s
  | .sunbind p => Sys2Proof.Machine.execSunbind p s
  | .sstat d p => Sys2Proof.Machine.execSstat d p s
  | .gw d a => Sys2Proof.Machine.execGw d a s
  | .gr d a => Sys2Proof.Machine.execGr d a s
  | .gclr => Sys2Proof.Machine.execGclr s
  | .ecpy a b h => Sys2Proof.Machine.execEcpy a b h s
  | .egth a b h => Sys2Proof.Machine.execEgth a b h s
  | .esct a b h => Sys2Proof.Machine.execEsct a b h s
  | .exch a b h => Sys2Proof.Machine.execExch a b h s
  | .emma g a b h t => Sys2Proof.Machine.execEmma g a b h t s
  | .emmz a h => Sys2Proof.Machine.execEmmz a h s
  | .emmd g a b h => Sys2Proof.Machine.execEmmd g a b h s
  | .ecoll a b => Sys2Proof.Machine.execEcoll a b s
  | .etopk a b h => Sys2Proof.Machine.execEtopk a b h s
  | .eclone a => Sys2Proof.Machine.execEclone a s
  | .enmsc a b h => Sys2Proof.Machine.execEnmsc a b h s
  | .eptab a b h => Sys2Proof.Machine.execEptab a b h s
  | .lease d a => Sys2Proof.Machine.execLease d a s
  | .unlease d => Sys2Proof.Machine.execUnlease d s
  | .lstat d => Sys2Proof.Machine.execLstat d s
  | .bbinit a => Sys2Proof.Machine.execBbinit a s
  | .bbexp a n => Sys2Proof.Machine.execBbexp a n s
  | .bbwait a p => Sys2Proof.Machine.execBbwait a p s
  | .bbtest d a => Sys2Proof.Machine.execBbtest d a s
  | .phnew d m => Sys2Proof.Machine.execPhnew d m s
  | .phreg d h m => Sys2Proof.Machine.execPhreg d h m s
  | .phdrop d h => Sys2Proof.Machine.execPhdrop d h s
  | .phsig d h => Sys2Proof.Machine.execPhsig d h s
  | .phwait d h => Sys2Proof.Machine.execPhwait d h s
  | .phsw d h => Sys2Proof.Machine.execPhsw d h s
  | .phq d h => Sys2Proof.Machine.execPhq d h s
  | .start d a b => Sys2Proof.Machine.execStart d a b s
  | .startp d a b => Sys2Proof.Machine.execStartp d a b s
  | .quit => Sys2Proof.Machine.execQuit s
  | .yield => Sys2Proof.Machine.execYield s
  | .ctxid d => Sys2Proof.Machine.execCtxid d s
  | .wid d => Sys2Proof.Machine.execWid d s
  | .widf d n => Sys2Proof.Machine.execWidf d n s
  | .joinh d h => Sys2Proof.Machine.execJoinh d h s
  | .hstat d h => Sys2Proof.Machine.execHstat d h s
  | .send d h v => Sys2Proof.Machine.execSend d h v s
  | .sendv d h v => Sys2Proof.Machine.execSendv d h v s
  | .sendb d a b imm => Sys2Proof.Machine.execSendb d a b imm s
  | .mpop d m => Sys2Proof.Machine.execMpop d m s
  | .mpopv d m => Sys2Proof.Machine.execMpopv d m s
  | .mpeek d m => Sys2Proof.Machine.execMpeek d m s
  | .mbind d a => Sys2Proof.Machine.execMbind d a s
  | .mfree d m => Sys2Proof.Machine.execMfree d m s
  | .tsend d a b => Sys2Proof.Machine.execTsend d a b s
  | .tbwd d a b => Sys2Proof.Machine.execTbwd d a b s
  | .tret d a b => Sys2Proof.Machine.execTret d a b s
  | .xquery d a b => Sys2Proof.Machine.execXquery d a b s
  | .xjoin d a => Sys2Proof.Machine.execXjoin d a s
  | .xver d a => Sys2Proof.Machine.execXver d a s
  | .xcreate d a => Sys2Proof.Machine.execXcreate d a s
  | .xretire d a b => Sys2Proof.Machine.execXretire d a b s
  | .shape d a => Sys2Proof.Machine.execShape d a s
  | .objrel d h => Sys2Proof.Machine.execObjrel d h s
  | .objmode d h m => Sys2Proof.Machine.execObjmode d h m s
  | .fadd g d a b => Sys2Proof.Machine.execFadd g d a b s
  | .fsub g d a b => Sys2Proof.Machine.execFsub g d a b s
  | .fmul g d a b => Sys2Proof.Machine.execFmul g d a b s
  | .fmac g d a b => Sys2Proof.Machine.execFmac g d a b s
  | .fdiv g d a b => Sys2Proof.Machine.execFdiv g d a b s
  | .fsqrt g d a => Sys2Proof.Machine.execFsqrt g d a s
  | .fmin g d a b => Sys2Proof.Machine.execFmin g d a b s
  | .fmax g d a b => Sys2Proof.Machine.execFmax g d a b s
  | .fcvti g d a => Sys2Proof.Machine.execFcvti g d a s
  | .fcvtf g d a => Sys2Proof.Machine.execFcvtf g d a s
  | .flt g d a b => Sys2Proof.Machine.execFlt g d a b s
  | .feq g d a b => Sys2Proof.Machine.execFeq g d a b s
  | .scal g d a b => Sys2Proof.Machine.execScal g d a b s
  | .fclass g d a => Sys2Proof.Machine.execFclass g d a s
  | .slotSwitch => Sys2Proof.Machine.execSlotSwitch s
  | .issueQuantum => Sys2Proof.Machine.execIssueQuantum s
  | .vectorBind => Sys2Proof.Machine.execVectorBind s
  | .vectorResultWrite => Sys2Proof.Machine.execVectorResultWrite s
  | .memoryReturnWrite => Sys2Proof.Machine.execMemoryReturnWrite s
  | .returnStarvation => Sys2Proof.Machine.execReturnStarvation s
  | .streamElementFetch => Sys2Proof.Machine.execStreamElementFetch s
  | .streamAppendPerformed => Sys2Proof.Machine.execStreamAppendPerformed s
  | .coherentRequestAtHome => Sys2Proof.Machine.execCoherentRequestAtHome s
  | .dirtyWriteback => Sys2Proof.Machine.execDirtyWriteback s
  | .setAd => Sys2Proof.Machine.execSetAd s
  | .walkMigratingTimeout => Sys2Proof.Machine.execWalkMigratingTimeout s
  | .migrationHoldTimeout => Sys2Proof.Machine.execMigrationHoldTimeout s
  | .nearMemoryForward => Sys2Proof.Machine.execNearMemoryForward s
  | .nearMemoryApply => Sys2Proof.Machine.execNearMemoryApply s
  | .nearMemoryAck => Sys2Proof.Machine.execNearMemoryAck s
  | .nearMemoryReturn => Sys2Proof.Machine.execNearMemoryReturn s
  | .patrolScrub => Sys2Proof.Machine.execPatrolScrub s
  | .contentionDecay => Sys2Proof.Machine.execContentionDecay s
  | .bisnpinv => Sys2Proof.Machine.execBisnpinv s
  | .bisnpdata => Sys2Proof.Machine.execBisnpdata s
  | .bisnpcur => Sys2Proof.Machine.execBisnpcur s
  | .poolLinkLoss => Sys2Proof.Machine.execPoolLinkLoss s
  | .poolRequestTimeout => Sys2Proof.Machine.execPoolRequestTimeout s
  | .regionEnable => Sys2Proof.Machine.execRegionEnable s
  | .regionDisable => Sys2Proof.Machine.execRegionDisable s
  | .regionDetachDone => Sys2Proof.Machine.execRegionDetachDone s
  | .reattach => Sys2Proof.Machine.execReattach s
  | .release => Sys2Proof.Machine.execRelease s
  | .clearlog => Sys2Proof.Machine.execClearlog s
  | .decoderCheck => Sys2Proof.Machine.execDecoderCheck s
  | .lockRequestResend => Sys2Proof.Machine.execLockRequestResend s
  | .lockRequestAccept => Sys2Proof.Machine.execLockRequestAccept s
  | .lockTimeout => Sys2Proof.Machine.execLockTimeout s
  | .lockRelease => Sys2Proof.Machine.execLockRelease s
  | .holdLimit => Sys2Proof.Machine.execHoldLimit s
  | .deadlockProbe => Sys2Proof.Machine.execDeadlockProbe s
  | .scratchpadPortAccess => Sys2Proof.Machine.execScratchpadPortAccess s
  | .scoreboardRelease => Sys2Proof.Machine.execScoreboardRelease s
  | .traceRingControl => Sys2Proof.Machine.execTraceRingControl s
  | .clr => Sys2Proof.Machine.execClr s
  | .engineCommandStart => Sys2Proof.Machine.execEngineCommandStart s
  | .enginePiece => Sys2Proof.Machine.execEnginePiece s
  | .engineCommandStop => Sys2Proof.Machine.execEngineCommandStop s
  | .exchangeForm => Sys2Proof.Machine.execExchangeForm s
  | .exchangeRound => Sys2Proof.Machine.execExchangeRound s
  | .exchTimeout => Sys2Proof.Machine.execExchTimeout s
  | .resumeCommand => Sys2Proof.Machine.execResumeCommand s
  | .cancel => Sys2Proof.Machine.execCancel s
  | .arrayCommandStart => Sys2Proof.Machine.execArrayCommandStart s
  | .arrayRowCommit => Sys2Proof.Machine.execArrayRowCommit s
  | .raggedRowJoin => Sys2Proof.Machine.execRaggedRowJoin s
  | .arrayCommandComplete => Sys2Proof.Machine.execArrayCommandComplete s
  | .leaseArbitration => Sys2Proof.Machine.execLeaseArbitration s
  | .handOverSave => Sys2Proof.Machine.execHandOverSave s
  | .handOverRestore => Sys2Proof.Machine.execHandOverRestore s
  | .columnRemap => Sys2Proof.Machine.execColumnRemap s
  | .chunkDepart => Sys2Proof.Machine.execChunkDepart s
  | .switchReduce => Sys2Proof.Machine.execSwitchReduce s
  | .homeReduce => Sys2Proof.Machine.execHomeReduce s
  | .collectiveLanding => Sys2Proof.Machine.execCollectiveLanding s
  | .communicatorWrite => Sys2Proof.Machine.execCommunicatorWrite s
  | .communicatorDisable => Sys2Proof.Machine.execCommunicatorDisable s
  | .messageArrival => Sys2Proof.Machine.execMessageArrival s
  | .creditRequest => Sys2Proof.Machine.execCreditRequest s
  | .creditGrant => Sys2Proof.Machine.execCreditGrant s
  | .creditReturn => Sys2Proof.Machine.execCreditReturn s
  | .sendTimeout => Sys2Proof.Machine.execSendTimeout s
  | .handlerStart => Sys2Proof.Machine.execHandlerStart s
  | .queueStart => Sys2Proof.Machine.execQueueStart s
  | .drain => Sys2Proof.Machine.execDrain s
  | .abort => Sys2Proof.Machine.execAbort s
  | .reset => Sys2Proof.Machine.execReset s
  | .tail => Sys2Proof.Machine.execTail s
  | .recordTake => Sys2Proof.Machine.execRecordTake s
  | .semaphoreRound => Sys2Proof.Machine.execSemaphoreRound s
  | .dispatch => Sys2Proof.Machine.execDispatch s
  | .launchComplete => Sys2Proof.Machine.execLaunchComplete s
  | .abortTeardownDone => Sys2Proof.Machine.execAbortTeardownDone s
  | .drainDone => Sys2Proof.Machine.execDrainDone s
  | .preempt => Sys2Proof.Machine.execPreempt s
  | .contextRestore => Sys2Proof.Machine.execContextRestore s
  | .restart => Sys2Proof.Machine.execRestart s
  | .clear => Sys2Proof.Machine.execClear s
  | .install => Sys2Proof.Machine.execInstall s
  | .remove => Sys2Proof.Machine.execRemove s
  | .read => Sys2Proof.Machine.execRead s
  | .legendUpdate => Sys2Proof.Machine.execLegendUpdate s
  | .epochAck => Sys2Proof.Machine.execEpochAck s
  | .legendWindowEnd => Sys2Proof.Machine.execLegendWindowEnd s
  | .rbarFlip => Sys2Proof.Machine.execRbarFlip s
  | .replicaFree => Sys2Proof.Machine.execReplicaFree s
  | .tombstoneEnd => Sys2Proof.Machine.execTombstoneEnd s
  | .tokenArrival => Sys2Proof.Machine.execTokenArrival s
  | .tokenAcceptance => Sys2Proof.Machine.execTokenAcceptance s
  | .slotCreditRequest => Sys2Proof.Machine.execSlotCreditRequest s
  | .tokenCreditTimeout => Sys2Proof.Machine.execTokenCreditTimeout s
  | .pageCloseTimeout => Sys2Proof.Machine.execPageCloseTimeout s
  | .resultRowLanding => Sys2Proof.Machine.execResultRowLanding s
  | .joinCopy => Sys2Proof.Machine.execJoinCopy s
  | .errorDetected => Sys2Proof.Machine.execErrorDetected s
  | .selfTestDone => Sys2Proof.Machine.execSelfTestDone s
  | .linkReplayFailure => Sys2Proof.Machine.execLinkReplayFailure s
  | .heartbeat => Sys2Proof.Machine.execHeartbeat s
  | .heartbeatMiss => Sys2Proof.Machine.execHeartbeatMiss s
  | .fenceNode => Sys2Proof.Machine.execFenceNode s
  | .unfence => Sys2Proof.Machine.execUnfence s
  | .watchdog => Sys2Proof.Machine.execWatchdog s
  | .forcelost => Sys2Proof.Machine.execForcelost s
  | .reload => Sys2Proof.Machine.execReload s
  | .telemetry => Sys2Proof.Machine.execTelemetry s
  | .thermalThrottle => Sys2Proof.Machine.execThermalThrottle s
  | .resetRelease => Sys2Proof.Machine.execResetRelease s
  | .bar2Access => Sys2Proof.Machine.execBar2Access s
  | .controlRegisterWrite => Sys2Proof.Machine.execControlRegisterWrite s
  | .wfeTimeout => Sys2Proof.Machine.execWfeTimeout s
  | .linkTraining => Sys2Proof.Machine.execLinkTraining s
  | .poolDeviceResponse => Sys2Proof.Machine.execPoolDeviceResponse s
  | .markEviction => Sys2Proof.Machine.execMarkEviction s

end Sys2Proof.Machine
end

