-- ==== Sys2Proof/Machine/Issue.lean ====
section
/-! DEFINITION. What the machine does next: the unit command that was just given, the next turn of the schedule, the oldest work while the
focused core cannot issue, else the next instruction of its current slot, fetched and decoded by R51. The passing of time (log entry 6). -/

namespace Sys2Proof.Machine
open Sys2Proof

/-- What a step does: it executes an instruction or an event, or it only goes on to a state. -/
inductive Plan where
  | run (i : Instr) (s : State)
  | go (s : State)

/-- ILLEGAL_INSTR of the word `w` reached at a boundary (R51, R57). -/
def illegalWord (w : Nat) (s : State) : Plan :=
  .go (decodeStop s (.trap { cause := .illegalInstr, tval := wordOf w }) (selLong w) false)

/-- The instruction executes, or its slot stalls for an x register that the vector unit has still to write (R284). -/
def runPlan (i : Instr) (s : State) : Plan := if s.xHeld i then .go ((s.holdWords i).stall .vectorQueue) else .run i s

/-- `valid` of R51, for a word that no selector marks as governed. -/
def decodedPlan (w pay : Nat) (s : State) : Plan :=
  match decodeWord w pay with
  | .error _ => illegalWord w s
  | .ok i => if wellFormed i then runPlan i s else illegalWord w s

/-- The word at the boundary has been fetched (R51). -/
def wordPlan (w : Nat) (s : State) : Plan :=
  if selGoverned w then .go (decodeStop s (.trap { cause := .orphanGoverned, tval := wordOf w }) (selLong w) false)
  else if selLong w then
    match s.fetch (s.c.pc + 4) with
    | .error e => .go (decodeStop s e true false)
    | .ok (s, pay) => decodedPlan w pay s
  else decodedPlan w 0 s

/-- The current slot's next instruction: the one that it holds while it stalls (R52), else the one at PC. -/
def slotPlan (s : State) : Plan :=
  match s.c.held with
  | some (i, _) => runPlan i s
  | none =>
    match s.fetch s.c.pc with
    | .error e => .go (decodeStop s e false false)
    | .ok (s, w) => wordPlan w s

/-- A slot of a core may issue: the package is out of reset (R445, R446). -/
def State.mayIssue (s : State) (node k j : Nat) : Bool := (s.pkg node).live && s.runnable node k j

/-- Some slot of a core may issue. -/
def State.anyRunnable (s : State) (node k : Nat) : Bool := (List.range 12).any (fun j => s.mayIssue node k j)

/-- The focus goes to the next core that has a slot to issue. -/
def State.nextFocus (s : State) : State :=
  let ks := s.cores.map (fun e => e.1)
  let here := fun (k : Nat × Nat) => k == (s.fnode, s.fcore)
  let after := (ks.dropWhile (fun k => !here k)).drop 1 ++ ks.takeWhile (fun k => !here k)
  match after.find? (fun k => s.anyRunnable k.1 k.2) with
  | some k => { s with fnode := k.1, fcore := k.2 }
  | none => s

/-- The focused core issues (R34, R361): after 256 instructions in a row the slot counts as stalled; a current slot that cannot issue makes
the core switch. -/
def issuePlan (s : State) : Plan :=
  let e : Ev := { node := s.fnode, core := s.fcore }
  if 256 ≤ s.cc.run then .run .issueQuantum { s with ev := e, idle := true }
  else if s.mayIssue s.fnode s.fcore s.cc.slot then slotPlan s
  else .run .slotSwitch { s with ev := e, idle := !s.anyRunnable s.fnode s.fcore }

/-- The focused core could not issue: the oldest work is done, and the focus moves on. -/
def idlePlan (s : State) : Plan :=
  let t := { s.nextFocus with idle := false }
  match s.work with
  | [] => issuePlan t
  | (i, e) :: r => .run i { t with work := r, ev := e }

/-- The machine's next step. -/
def State.plan (s : State) : Plan :=
  match s.urgent with
  | (i, e) :: r => .run i { s with urgent := r, ev := e }
  | [] =>
    match s.schedule with
    | .event i e :: r => if isEvent i then .run i { s with schedule := r, ev := e } else .go { s with schedule := r }
    | .focus node k :: r =>
      .go (if s.group.contains node ∧ k < 1536 then { s with fnode := node, fcore := k, idle := false, schedule := r } else { s with schedule := r })
    | [] => if s.idle then idlePlan s else issuePlan s

/-- A step takes at least one A-clock cycle (R3, R38, R451): how many is not known. -/
def State.tick (s : State) : State :=
  { s with clock := s.clock + 1 + Config.freeCycles s.stepNo, stepNo := s.stepNo + 1, ev := {} }

/-- The outcome at the step's end. -/
def tickOut (o : Out) : Out :=
  match o with
  | .next s => .next s.tick
  | .fault f => .fault f
  | .refused r => .refused r

/-! ## Placing an instruction to be fetched (the host's question; log entry 24) -/

/-- The virtual address of the placed instruction. -/
abbrev placeVa : Nat := 0x10000
/-- The leaf that maps it: V, R, W, X, U, A, D, L, class 0, the first frame of the package's HBM (R104). -/
def placeLeaf (asid : BitVec 16) (node : Nat) : Leaf :=
  ⟨asid, granOf placeVa, BitVec.ofNat 64 (node * 2 ^ 46 + 0x17F), 4, 0, Vector.replicate 4 0⟩

/-- The bytes of `w` stand where the current slot of the focused core fetches next, and the next step fetches them. -/
def State.placeWord (s : State) (nbits w : Nat) : State :=
  let node := s.fnode
  let c := s.c
  let q := s.cc
  let pa := node * 2 ^ 46
  let s := { s with urgent := [], schedule := [], idle := false, mem := memWrite s.mem pa 16 (w % 2 ^ nbits), lost := tdel s.lost pa,
                    group := if s.group.contains node then s.group else s.group ++ [node] }
  let t := s.sliceOf node s.cur.die c.asid (granOf placeVa)
  let s := s.setDie node s.cur.die ((s.die node s.cur.die).putLeaf t (placeLeaf c.asid node))
  let s := s.setPkg node { s.pkg node with live := true }
  let s := s.setCC { q with run := 0, stopped := false, icache := [], vq := [] }
  s.setC { c with pc := BitVec.ofNat 64 placeVa, st := .ready, wait := none, held := none, gword := none, expired := false }

end Sys2Proof.Machine
end

