-- ==== Sys2Proof/Machine/Step.lean ====
section
/-! DEFINITION. One step of the machine, and the state in which the next step fetches a given word. -/

namespace Sys2Proof.Machine
open Sys2Proof

/-- One step: what the machine's plan names is carried out, and time passes. -/
def step (s : State) : Host.Outcome State Fault Refusal :=
  match s.plan with
  | .run i t => tickOut (exec i t)
  | .go t => .next t.tick

/-- `s` with the instruction whose low `nbits` bits are `w` where `step` fetches next. -/
def State.withFetchWord (s : State) (nbits w : Nat) : State := s.placeWord nbits w

end Sys2Proof.Machine
end

