-- ==== Sys2Proof/Laws/Encoding.lean ====
section
/-! SUPPORT. The encoding of an instruction: the fields of a word in the layouts of R43, the decoder by major opcode, and for each
instruction that its word decodes to it (the family RoundTrip). -/

namespace Sys2Proof.Laws

/-- The payload that the decoder is given with an instruction's first word. -/
def payloadOf (i : Instr) : Nat := (encodePayload i).elim 0 (fun p => p.toNat)

/-- The fields of a word of the register layout (R43): low byte `c`, registers `d`, `a`, `b`, function `k`. -/
theorem fields_of_parts (w c d a b k : Nat) (h : w = c + d * 256 + a * 8192 + b * 262144 + k * 8388608)
    (hc : c < 256) (hd : d < 32) (ha : a < 32) (hb : b < 32) (hk : k < 512) :
    w < 2 ^ 32 ∧ fld w 0 2 = c % 4 ∧ fld w 0 1 = c % 2 ∧ fld w 2 6 = c / 4 ∧ fld w 8 5 = d ∧ fld w 13 5 = a ∧ fld w 18 5 = b ∧
      fld w 23 9 = k := by
  subst h
  unfold fld
  refine ⟨?_, ?_, ?_, ?_, ?_, ?_, ?_, ?_⟩ <;> omega

/-- The fields of a word of the immediate layout (R43): low byte `c`, registers `d`, `a`, immediate `i`. -/
theorem fields_of_imm (w c d a i : Nat) (h : w = c + d * 256 + a * 8192 + i * 262144)
    (hc : c < 256) (hd : d < 32) (ha : a < 32) (hi : i < 16384) :
    w < 2 ^ 32 ∧ fld w 0 2 = c % 4 ∧ fld w 0 1 = c % 2 ∧ fld w 2 6 = c / 4 ∧ fld w 8 5 = d ∧ fld w 13 5 = a ∧ fld w 18 14 = i := by
  subst h
  unfold fld
  refine ⟨?_, ?_, ?_, ?_, ?_, ?_, ?_⟩ <;> omega

/-- The bits of the immediate field. -/
theorem fld_immediate (w i x n : Nat) (h : fld w 18 14 = i) (hw : w < 2 ^ 32) : fld w (18 + x) n = fld i x n := by
  unfold fld at *
  rw [Nat.pow_add, ← Nat.div_div_eq_div_mul]
  congr 2
  omega

/-- The bits of the function field. -/
theorem fld_function (w k x n : Nat) (h : fld w 23 9 = k) (hw : w < 2 ^ 32) : fld w (23 + x) n = fld k x n := by
  unfold fld at *
  rw [Nat.pow_add, ← Nat.div_div_eq_div_mul]
  congr 2
  omega

/-- Reading back a field that was written from a bit vector. -/
theorem bits_eq {n : Nat} (w lo : Nat) (v : BitVec n) (h : fld w lo n = v.toNat) : bits w lo n = v := by
  unfold bits; rw [h]; simp only [BitVec.ofNat_toNat, BitVec.setWidth_eq]

/-- Reading back a bit. -/
theorem bit_eq (w lo : Nat) (v : Bool) (h : fld w lo 1 = v.toNat) : bit w lo = v := by
  unfold bit; rw [h]; cases v <;> rfl

/-- A word whose selector is 0 or 1 is decoded by its major opcode (R40, R55). -/
theorem decodeWord_major (w p : Nat) (h : fld w 0 2 = 0 ∨ fld w 0 2 = 1) :
    decodeWord w p = (decodeMajor w).elim (.error .unlistedWord) .ok := by
  unfold decodeWord; rcases h with h | h <;> rw [h] <;> rfl

/-- A word whose selector is 3 is decoded as a long instruction (R40, R56). -/
theorem decodeWord_long (w p : Nat) (h : fld w 0 2 = 3) : decodeWord w p = (decodeLong w p).elim (.error .unlistedLong) .ok := by
  unfold decodeWord; rw [h]; rfl

theorem major01 (w : Nat) (h : fld w 2 6 = 1) : decodeMajor w = decodeMajor01 w := by
  unfold decodeMajor; rw [h]; rfl

theorem major02 (w : Nat) (h : fld w 2 6 = 2) : decodeMajor w = decodeMajor02 w := by
  unfold decodeMajor; rw [h]; rfl

theorem major03 (w : Nat) (h : fld w 2 6 = 3) : decodeMajor w = decodeMajor03 w := by
  unfold decodeMajor; rw [h]; rfl

theorem major04 (w : Nat) (h : fld w 2 6 = 4) : decodeMajor w = decodeMajor04 w := by
  unfold decodeMajor; rw [h]; rfl

theorem major05 (w : Nat) (h : fld w 2 6 = 5) : decodeMajor w = decodeMajor05 w := by
  unfold decodeMajor; rw [h]; rfl

theorem major06 (w : Nat) (h : fld w 2 6 = 6) : decodeMajor w = decodeMajor06 w := by
  unfold decodeMajor; rw [h]; rfl

theorem major07 (w : Nat) (h : fld w 2 6 = 7) : decodeMajor w = decodeMajor07 w := by
  unfold decodeMajor; rw [h]; rfl

theorem major08 (w : Nat) (h : fld w 2 6 = 8) : decodeMajor w = decodeMajor08 w := by
  unfold decodeMajor; rw [h]; rfl

theorem major09 (w : Nat) (h : fld w 2 6 = 9) : decodeMajor w = decodeMajor09 w := by
  unfold decodeMajor; rw [h]; rfl

theorem major0A (w : Nat) (h : fld w 2 6 = 10) : decodeMajor w = decodeMajor0A w := by
  unfold decodeMajor; rw [h]; rfl

theorem major0B (w : Nat) (h : fld w 2 6 = 11) : decodeMajor w = decodeMajor0B w := by
  unfold decodeMajor; rw [h]; rfl

theorem major0C (w : Nat) (h : fld w 2 6 = 12) : decodeMajor w = decodeMajor0C w := by
  unfold decodeMajor; rw [h]; rfl

theorem major0D (w : Nat) (h : fld w 2 6 = 13) : decodeMajor w = decodeMajor0D w := by
  unfold decodeMajor; rw [h]; rfl

theorem major0E (w : Nat) (h : fld w 2 6 = 14) : decodeMajor w = decodeMajor0E w := by
  unfold decodeMajor; rw [h]; rfl

theorem major0F (w : Nat) (h : fld w 2 6 = 15) : decodeMajor w = decodeMajor0F w := by
  unfold decodeMajor; rw [h]; rfl

theorem major10 (w : Nat) (h : fld w 2 6 = 16) : decodeMajor w = decodeMajor10 w := by
  unfold decodeMajor; rw [h]; rfl

theorem major11 (w : Nat) (h : fld w 2 6 = 17) : decodeMajor w = decodeMajor11 w := by
  unfold decodeMajor; rw [h]; rfl

theorem major12 (w : Nat) (h : fld w 2 6 = 18) : decodeMajor w = decodeMajor12 w := by
  unfold decodeMajor; rw [h]; rfl

theorem major13 (w : Nat) (h : fld w 2 6 = 19) : decodeMajor w = decodeMajor13 w := by
  unfold decodeMajor; rw [h]; rfl

theorem major14 (w : Nat) (h : fld w 2 6 = 20) : decodeMajor w = decodeMajor14 w := by
  unfold decodeMajor; rw [h]; rfl

theorem major15 (w : Nat) (h : fld w 2 6 = 21) : decodeMajor w = decodeMajor15 w := by
  unfold decodeMajor; rw [h]; rfl

theorem major16 (w : Nat) (h : fld w 2 6 = 22) : decodeMajor w = decodeMajor16 w := by
  unfold decodeMajor; rw [h]; rfl

theorem major17 (w : Nat) (h : fld w 2 6 = 23) : decodeMajor w = decodeMajor17 w := by
  unfold decodeMajor; rw [h]; rfl

theorem major18 (w : Nat) (h : fld w 2 6 = 24) : decodeMajor w = decodeMajor18 w := by
  unfold decodeMajor; rw [h]; rfl

theorem major19 (w : Nat) (h : fld w 2 6 = 25) : decodeMajor w = decodeMajor19 w := by
  unfold decodeMajor; rw [h]; rfl

theorem major1A (w : Nat) (h : fld w 2 6 = 26) : decodeMajor w = decodeMajor1A w := by
  unfold decodeMajor; rw [h]; rfl

theorem major1B (w : Nat) (h : fld w 2 6 = 27) : decodeMajor w = decodeMajor1B w := by
  unfold decodeMajor; rw [h]; rfl

theorem major1C (w : Nat) (h : fld w 2 6 = 28) : decodeMajor w = decodeMajor1C w := by
  unfold decodeMajor; rw [h]; rfl

theorem major1D (w : Nat) (h : fld w 2 6 = 29) : decodeMajor w = decodeMajor1D w := by
  unfold decodeMajor; rw [h]; rfl

theorem major1E (w : Nat) (h : fld w 2 6 = 30) : decodeMajor w = decodeMajor1E w := by
  unfold decodeMajor; rw [h]; rfl

theorem major1F (w : Nat) (h : fld w 2 6 = 31) : decodeMajor w = decodeMajor1F w := by
  unfold decodeMajor; rw [h]; rfl

theorem major20 (w : Nat) (h : fld w 2 6 = 32) : decodeMajor w = decodeMajor20 w := by
  unfold decodeMajor; rw [h]; rfl

theorem major21 (w : Nat) (h : fld w 2 6 = 33) : decodeMajor w = decodeMajor21 w := by
  unfold decodeMajor; rw [h]; rfl

theorem major22 (w : Nat) (h : fld w 2 6 = 34) : decodeMajor w = decodeMajor22 w := by
  unfold decodeMajor; rw [h]; rfl

theorem major23 (w : Nat) (h : fld w 2 6 = 35) : decodeMajor w = decodeMajor23 w := by
  unfold decodeMajor; rw [h]; rfl

theorem major24 (w : Nat) (h : fld w 2 6 = 36) : decodeMajor w = decodeMajor24 w := by
  unfold decodeMajor; rw [h]; rfl

theorem major25 (w : Nat) (h : fld w 2 6 = 37) : decodeMajor w = decodeMajor25 w := by
  unfold decodeMajor; rw [h]; rfl

theorem major26 (w : Nat) (h : fld w 2 6 = 38) : decodeMajor w = decodeMajor26 w := by
  unfold decodeMajor; rw [h]; rfl

theorem major27 (w : Nat) (h : fld w 2 6 = 39) : decodeMajor w = decodeMajor27 w := by
  unfold decodeMajor; rw [h]; rfl

theorem major28 (w : Nat) (h : fld w 2 6 = 40) : decodeMajor w = decodeMajor28 w := by
  unfold decodeMajor; rw [h]; rfl

theorem major29 (w : Nat) (h : fld w 2 6 = 41) : decodeMajor w = decodeMajor29 w := by
  unfold decodeMajor; rw [h]; rfl

theorem major2A (w : Nat) (h : fld w 2 6 = 42) : decodeMajor w = decodeMajor2A w := by
  unfold decodeMajor; rw [h]; rfl

theorem major2B (w : Nat) (h : fld w 2 6 = 43) : decodeMajor w = decodeMajor2B w := by
  unfold decodeMajor; rw [h]; rfl

theorem major2C (w : Nat) (h : fld w 2 6 = 44) : decodeMajor w = decodeMajor2C w := by
  unfold decodeMajor; rw [h]; rfl

theorem major2D (w : Nat) (h : fld w 2 6 = 45) : decodeMajor w = decodeMajor2D w := by
  unfold decodeMajor; rw [h]; rfl

theorem major2E (w : Nat) (h : fld w 2 6 = 46) : decodeMajor w = decodeMajor2E w := by
  unfold decodeMajor; rw [h]; rfl

theorem major2F (w : Nat) (h : fld w 2 6 = 47) : decodeMajor w = decodeMajor2F w := by
  unfold decodeMajor; rw [h]; rfl

end Sys2Proof.Laws
end

