-- ==== Sys2Proof/Laws/PerInstr.lean ====
section
/-! SUPPORT. The family RoundTrip: each instruction that has a word decodes from that word. -/

namespace Sys2Proof.Laws.RoundTrip

/-- The words of a well-formed instruction decode to it, and its first word is one word, long exactly when it has a payload. -/
def Statement (i : Instr) : Prop :=
  isEvent i = false → wellFormed i = true →
    encodeFirst i < 2 ^ 32 ∧ (fld (encodeFirst i) 0 2 = 3 ↔ (encodePayload i).isSome = true) ∧
      decodeWord (encodeFirst i) (payloadOf i) = .ok i

theorem pfx (p : BitVec 3) (s : Bool) (n : BitVec 2) (o : BitVec 4) (c : Bool) (r : BitVec 5) : Statement (.pfx p s n o c r) := by
  intro _ _
  have he : encodeFirst (.pfx p s n o c r) = 2 + p.toNat * 4 + s.toNat * 32 + n.toNat * 64 + o.toNat * 256 + c.toNat * 4096 + r.toNat * 8192 := rfl
  have lp := p.isLt
  have ls := Bool.toNat_le s
  have ln := n.isLt
  have lo := o.isLt
  have lc := Bool.toNat_le c
  have lr := r.isLt
  have hp : payloadOf (.pfx p s n o c r) = 0 := rfl
  rw [he, hp]
  generalize hw : 2 + p.toNat * 4 + s.toNat * 32 + n.toNat * 64 + o.toNat * 256 + c.toNat * 4096 + r.toNat * 8192 = w
  have hlt : w < 2 ^ 32 := by omega
  have f0_2 : fld w 0 2 = 2 := by unfold fld; omega
  have f18_14 : fld w 18 14 = 0 := by unfold fld; omega
  have f2_3 : fld w 2 3 = p.toNat := by unfold fld; omega
  have f5_1 : fld w 5 1 = s.toNat := by unfold fld; omega
  have f6_2 : fld w 6 2 = n.toNat := by unfold fld; omega
  have f8_4 : fld w 8 4 = o.toNat := by unfold fld; omega
  have f12_1 : fld w 12 1 = c.toNat := by unfold fld; omega
  have f13_5 : fld w 13 5 = r.toNat := by unfold fld; omega
  refine ⟨hlt, ⟨fun e => absurd e (by omega), fun e => absurd (e : false = true) Bool.false_ne_true⟩, ?_⟩
  unfold decodeWord; rw [f0_2]; unfold decodePfx; rw [f18_14]
  rw [bits_eq w 2 p f2_3, bit_eq w 5 s f5_1, bits_eq w 6 n f6_2, bits_eq w 8 o f8_4, bit_eq w 12 c f12_1, bits_eq w 13 r f13_5]
  rfl

theorem add (d : BitVec 5) (a : BitVec 5) (b : BitVec 5) : Statement (.add d a b) := by
  intro _ _
  have he : encodeFirst (.add d a b) = 4 + d.toNat * 256 + a.toNat * 8192 + b.toNat * 262144 := rfl
  have ld := d.isLt
  have la := a.isLt
  have lb := b.isLt
  have hp : payloadOf (.add d a b) = 0 := rfl
  rw [he, hp]
  generalize hw : 4 + d.toNat * 256 + a.toNat * 8192 + b.toNat * 262144 = w
  obtain ⟨hlt, f0_2, f0_1, f2_6, f8_5, f13_5, f18_5, f23_9⟩ := fields_of_parts w (4) (d.toNat) (a.toNat) (b.toNat) (0) (by omega) (by omega) (by omega) (by omega) (by omega) (by omega)
  refine ⟨hlt, ⟨fun e => absurd e (by omega), fun e => absurd (e : false = true) Bool.false_ne_true⟩, ?_⟩
  rw [decodeWord_major w _ (by omega), major01 w f2_6]; unfold decodeMajor01
  rw [f23_9]
  show (Option.elim (some (Instr.add (bits w 8 5) (bits w 13 5) (bits w 18 5))) _ _ : Except DecodeError Instr) = _
  rw [bits_eq w 8 d f8_5, bits_eq w 13 a f13_5, bits_eq w 18 b f18_5]
  rfl

theorem sub (d : BitVec 5) (a : BitVec 5) (b : BitVec 5) : Statement (.sub d a b) := by
  intro _ _
  have he : encodeFirst (.sub d a b) = 8388612 + d.toNat * 256 + a.toNat * 8192 + b.toNat * 262144 := rfl
  have ld := d.isLt
  have la := a.isLt
  have lb := b.isLt
  have hp : payloadOf (.sub d a b) = 0 := rfl
  rw [he, hp]
  generalize hw : 8388612 + d.toNat * 256 + a.toNat * 8192 + b.toNat * 262144 = w
  obtain ⟨hlt, f0_2, f0_1, f2_6, f8_5, f13_5, f18_5, f23_9⟩ := fields_of_parts w (4) (d.toNat) (a.toNat) (b.toNat) (1) (by omega) (by omega) (by omega) (by omega) (by omega) (by omega)
  refine ⟨hlt, ⟨fun e => absurd e (by omega), fun e => absurd (e : false = true) Bool.false_ne_true⟩, ?_⟩
  rw [decodeWord_major w _ (by omega), major01 w f2_6]; unfold decodeMajor01
  rw [f23_9]
  show (Option.elim (some (Instr.sub (bits w 8 5) (bits w 13 5) (bits w 18 5))) _ _ : Except DecodeError Instr) = _
  rw [bits_eq w 8 d f8_5, bits_eq w 13 a f13_5, bits_eq w 18 b f18_5]
  rfl

theorem and (d : BitVec 5) (a : BitVec 5) (b : BitVec 5) : Statement (.and d a b) := by
  intro _ _
  have he : encodeFirst (.and d a b) = 16777220 + d.toNat * 256 + a.toNat * 8192 + b.toNat * 262144 := rfl
  have ld := d.isLt
  have la := a.isLt
  have lb := b.isLt
  have hp : payloadOf (.and d a b) = 0 := rfl
  rw [he, hp]
  generalize hw : 16777220 + d.toNat * 256 + a.toNat * 8192 + b.toNat * 262144 = w
  obtain ⟨hlt, f0_2, f0_1, f2_6, f8_5, f13_5, f18_5, f23_9⟩ := fields_of_parts w (4) (d.toNat) (a.toNat) (b.toNat) (2) (by omega) (by omega) (by omega) (by omega) (by omega) (by omega)
  refine ⟨hlt, ⟨fun e => absurd e (by omega), fun e => absurd (e : false = true) Bool.false_ne_true⟩, ?_⟩
  rw [decodeWord_major w _ (by omega), major01 w f2_6]; unfold decodeMajor01
  rw [f23_9]
  show (Option.elim (some (Instr.and (bits w 8 5) (bits w 13 5) (bits w 18 5))) _ _ : Except DecodeError Instr) = _
  rw [bits_eq w 8 d f8_5, bits_eq w 13 a f13_5, bits_eq w 18 b f18_5]
  rfl

theorem or (d : BitVec 5) (a : BitVec 5) (b : BitVec 5) : Statement (.or d a b) := by
  intro _ _
  have he : encodeFirst (.or d a b) = 25165828 + d.toNat * 256 + a.toNat * 8192 + b.toNat * 262144 := rfl
  have ld := d.isLt
  have la := a.isLt
  have lb := b.isLt
  have hp : payloadOf (.or d a b) = 0 := rfl
  rw [he, hp]
  generalize hw : 25165828 + d.toNat * 256 + a.toNat * 8192 + b.toNat * 262144 = w
  obtain ⟨hlt, f0_2, f0_1, f2_6, f8_5, f13_5, f18_5, f23_9⟩ := fields_of_parts w (4) (d.toNat) (a.toNat) (b.toNat) (3) (by omega) (by omega) (by omega) (by omega) (by omega) (by omega)
  refine ⟨hlt, ⟨fun e => absurd e (by omega), fun e => absurd (e : false = true) Bool.false_ne_true⟩, ?_⟩
  rw [decodeWord_major w _ (by omega), major01 w f2_6]; unfold decodeMajor01
  rw [f23_9]
  show (Option.elim (some (Instr.or (bits w 8 5) (bits w 13 5) (bits w 18 5))) _ _ : Except DecodeError Instr) = _
  rw [bits_eq w 8 d f8_5, bits_eq w 13 a f13_5, bits_eq w 18 b f18_5]
  rfl

theorem xor (d : BitVec 5) (a : BitVec 5) (b : BitVec 5) : Statement (.xor d a b) := by
  intro _ _
  have he : encodeFirst (.xor d a b) = 33554436 + d.toNat * 256 + a.toNat * 8192 + b.toNat * 262144 := rfl
  have ld := d.isLt
  have la := a.isLt
  have lb := b.isLt
  have hp : payloadOf (.xor d a b) = 0 := rfl
  rw [he, hp]
  generalize hw : 33554436 + d.toNat * 256 + a.toNat * 8192 + b.toNat * 262144 = w
  obtain ⟨hlt, f0_2, f0_1, f2_6, f8_5, f13_5, f18_5, f23_9⟩ := fields_of_parts w (4) (d.toNat) (a.toNat) (b.toNat) (4) (by omega) (by omega) (by omega) (by omega) (by omega) (by omega)
  refine ⟨hlt, ⟨fun e => absurd e (by omega), fun e => absurd (e : false = true) Bool.false_ne_true⟩, ?_⟩
  rw [decodeWord_major w _ (by omega), major01 w f2_6]; unfold decodeMajor01
  rw [f23_9]
  show (Option.elim (some (Instr.xor (bits w 8 5) (bits w 13 5) (bits w 18 5))) _ _ : Except DecodeError Instr) = _
  rw [bits_eq w 8 d f8_5, bits_eq w 13 a f13_5, bits_eq w 18 b f18_5]
  rfl

theorem sll (d : BitVec 5) (a : BitVec 5) (b : BitVec 5) : Statement (.sll d a b) := by
  intro _ _
  have he : encodeFirst (.sll d a b) = 41943044 + d.toNat * 256 + a.toNat * 8192 + b.toNat * 262144 := rfl
  have ld := d.isLt
  have la := a.isLt
  have lb := b.isLt
  have hp : payloadOf (.sll d a b) = 0 := rfl
  rw [he, hp]
  generalize hw : 41943044 + d.toNat * 256 + a.toNat * 8192 + b.toNat * 262144 = w
  obtain ⟨hlt, f0_2, f0_1, f2_6, f8_5, f13_5, f18_5, f23_9⟩ := fields_of_parts w (4) (d.toNat) (a.toNat) (b.toNat) (5) (by omega) (by omega) (by omega) (by omega) (by omega) (by omega)
  refine ⟨hlt, ⟨fun e => absurd e (by omega), fun e => absurd (e : false = true) Bool.false_ne_true⟩, ?_⟩
  rw [decodeWord_major w _ (by omega), major01 w f2_6]; unfold decodeMajor01
  rw [f23_9]
  show (Option.elim (some (Instr.sll (bits w 8 5) (bits w 13 5) (bits w 18 5))) _ _ : Except DecodeError Instr) = _
  rw [bits_eq w 8 d f8_5, bits_eq w 13 a f13_5, bits_eq w 18 b f18_5]
  rfl

theorem srl (d : BitVec 5) (a : BitVec 5) (b : BitVec 5) : Statement (.srl d a b) := by
  intro _ _
  have he : encodeFirst (.srl d a b) = 50331652 + d.toNat * 256 + a.toNat * 8192 + b.toNat * 262144 := rfl
  have ld := d.isLt
  have la := a.isLt
  have lb := b.isLt
  have hp : payloadOf (.srl d a b) = 0 := rfl
  rw [he, hp]
  generalize hw : 50331652 + d.toNat * 256 + a.toNat * 8192 + b.toNat * 262144 = w
  obtain ⟨hlt, f0_2, f0_1, f2_6, f8_5, f13_5, f18_5, f23_9⟩ := fields_of_parts w (4) (d.toNat) (a.toNat) (b.toNat) (6) (by omega) (by omega) (by omega) (by omega) (by omega) (by omega)
  refine ⟨hlt, ⟨fun e => absurd e (by omega), fun e => absurd (e : false = true) Bool.false_ne_true⟩, ?_⟩
  rw [decodeWord_major w _ (by omega), major01 w f2_6]; unfold decodeMajor01
  rw [f23_9]
  show (Option.elim (some (Instr.srl (bits w 8 5) (bits w 13 5) (bits w 18 5))) _ _ : Except DecodeError Instr) = _
  rw [bits_eq w 8 d f8_5, bits_eq w 13 a f13_5, bits_eq w 18 b f18_5]
  rfl

theorem sra (d : BitVec 5) (a : BitVec 5) (b : BitVec 5) : Statement (.sra d a b) := by
  intro _ _
  have he : encodeFirst (.sra d a b) = 58720260 + d.toNat * 256 + a.toNat * 8192 + b.toNat * 262144 := rfl
  have ld := d.isLt
  have la := a.isLt
  have lb := b.isLt
  have hp : payloadOf (.sra d a b) = 0 := rfl
  rw [he, hp]
  generalize hw : 58720260 + d.toNat * 256 + a.toNat * 8192 + b.toNat * 262144 = w
  obtain ⟨hlt, f0_2, f0_1, f2_6, f8_5, f13_5, f18_5, f23_9⟩ := fields_of_parts w (4) (d.toNat) (a.toNat) (b.toNat) (7) (by omega) (by omega) (by omega) (by omega) (by omega) (by omega)
  refine ⟨hlt, ⟨fun e => absurd e (by omega), fun e => absurd (e : false = true) Bool.false_ne_true⟩, ?_⟩
  rw [decodeWord_major w _ (by omega), major01 w f2_6]; unfold decodeMajor01
  rw [f23_9]
  show (Option.elim (some (Instr.sra (bits w 8 5) (bits w 13 5) (bits w 18 5))) _ _ : Except DecodeError Instr) = _
  rw [bits_eq w 8 d f8_5, bits_eq w 13 a f13_5, bits_eq w 18 b f18_5]
  rfl

theorem slt (d : BitVec 5) (a : BitVec 5) (b : BitVec 5) : Statement (.slt d a b) := by
  intro _ _
  have he : encodeFirst (.slt d a b) = 67108868 + d.toNat * 256 + a.toNat * 8192 + b.toNat * 262144 := rfl
  have ld := d.isLt
  have la := a.isLt
  have lb := b.isLt
  have hp : payloadOf (.slt d a b) = 0 := rfl
  rw [he, hp]
  generalize hw : 67108868 + d.toNat * 256 + a.toNat * 8192 + b.toNat * 262144 = w
  obtain ⟨hlt, f0_2, f0_1, f2_6, f8_5, f13_5, f18_5, f23_9⟩ := fields_of_parts w (4) (d.toNat) (a.toNat) (b.toNat) (8) (by omega) (by omega) (by omega) (by omega) (by omega) (by omega)
  refine ⟨hlt, ⟨fun e => absurd e (by omega), fun e => absurd (e : false = true) Bool.false_ne_true⟩, ?_⟩
  rw [decodeWord_major w _ (by omega), major01 w f2_6]; unfold decodeMajor01
  rw [f23_9]
  show (Option.elim (some (Instr.slt (bits w 8 5) (bits w 13 5) (bits w 18 5))) _ _ : Except DecodeError Instr) = _
  rw [bits_eq w 8 d f8_5, bits_eq w 13 a f13_5, bits_eq w 18 b f18_5]
  rfl

theorem sltu (d : BitVec 5) (a : BitVec 5) (b : BitVec 5) : Statement (.sltu d a b) := by
  intro _ _
  have he : encodeFirst (.sltu d a b) = 75497476 + d.toNat * 256 + a.toNat * 8192 + b.toNat * 262144 := rfl
  have ld := d.isLt
  have la := a.isLt
  have lb := b.isLt
  have hp : payloadOf (.sltu d a b) = 0 := rfl
  rw [he, hp]
  generalize hw : 75497476 + d.toNat * 256 + a.toNat * 8192 + b.toNat * 262144 = w
  obtain ⟨hlt, f0_2, f0_1, f2_6, f8_5, f13_5, f18_5, f23_9⟩ := fields_of_parts w (4) (d.toNat) (a.toNat) (b.toNat) (9) (by omega) (by omega) (by omega) (by omega) (by omega) (by omega)
  refine ⟨hlt, ⟨fun e => absurd e (by omega), fun e => absurd (e : false = true) Bool.false_ne_true⟩, ?_⟩
  rw [decodeWord_major w _ (by omega), major01 w f2_6]; unfold decodeMajor01
  rw [f23_9]
  show (Option.elim (some (Instr.sltu (bits w 8 5) (bits w 13 5) (bits w 18 5))) _ _ : Except DecodeError Instr) = _
  rw [bits_eq w 8 d f8_5, bits_eq w 13 a f13_5, bits_eq w 18 b f18_5]
  rfl

theorem min (d : BitVec 5) (a : BitVec 5) (b : BitVec 5) : Statement (.min d a b) := by
  intro _ _
  have he : encodeFirst (.min d a b) = 83886084 + d.toNat * 256 + a.toNat * 8192 + b.toNat * 262144 := rfl
  have ld := d.isLt
  have la := a.isLt
  have lb := b.isLt
  have hp : payloadOf (.min d a b) = 0 := rfl
  rw [he, hp]
  generalize hw : 83886084 + d.toNat * 256 + a.toNat * 8192 + b.toNat * 262144 = w
  obtain ⟨hlt, f0_2, f0_1, f2_6, f8_5, f13_5, f18_5, f23_9⟩ := fields_of_parts w (4) (d.toNat) (a.toNat) (b.toNat) (10) (by omega) (by omega) (by omega) (by omega) (by omega) (by omega)
  refine ⟨hlt, ⟨fun e => absurd e (by omega), fun e => absurd (e : false = true) Bool.false_ne_true⟩, ?_⟩
  rw [decodeWord_major w _ (by omega), major01 w f2_6]; unfold decodeMajor01
  rw [f23_9]
  show (Option.elim (some (Instr.min (bits w 8 5) (bits w 13 5) (bits w 18 5))) _ _ : Except DecodeError Instr) = _
  rw [bits_eq w 8 d f8_5, bits_eq w 13 a f13_5, bits_eq w 18 b f18_5]
  rfl

theorem max (d : BitVec 5) (a : BitVec 5) (b : BitVec 5) : Statement (.max d a b) := by
  intro _ _
  have he : encodeFirst (.max d a b) = 92274692 + d.toNat * 256 + a.toNat * 8192 + b.toNat * 262144 := rfl
  have ld := d.isLt
  have la := a.isLt
  have lb := b.isLt
  have hp : payloadOf (.max d a b) = 0 := rfl
  rw [he, hp]
  generalize hw : 92274692 + d.toNat * 256 + a.toNat * 8192 + b.toNat * 262144 = w
  obtain ⟨hlt, f0_2, f0_1, f2_6, f8_5, f13_5, f18_5, f23_9⟩ := fields_of_parts w (4) (d.toNat) (a.toNat) (b.toNat) (11) (by omega) (by omega) (by omega) (by omega) (by omega) (by omega)
  refine ⟨hlt, ⟨fun e => absurd e (by omega), fun e => absurd (e : false = true) Bool.false_ne_true⟩, ?_⟩
  rw [decodeWord_major w _ (by omega), major01 w f2_6]; unfold decodeMajor01
  rw [f23_9]
  show (Option.elim (some (Instr.max (bits w 8 5) (bits w 13 5) (bits w 18 5))) _ _ : Except DecodeError Instr) = _
  rw [bits_eq w 8 d f8_5, bits_eq w 13 a f13_5, bits_eq w 18 b f18_5]
  rfl

theorem minu (d : BitVec 5) (a : BitVec 5) (b : BitVec 5) : Statement (.minu d a b) := by
  intro _ _
  have he : encodeFirst (.minu d a b) = 100663300 + d.toNat * 256 + a.toNat * 8192 + b.toNat * 262144 := rfl
  have ld := d.isLt
  have la := a.isLt
  have lb := b.isLt
  have hp : payloadOf (.minu d a b) = 0 := rfl
  rw [he, hp]
  generalize hw : 100663300 + d.toNat * 256 + a.toNat * 8192 + b.toNat * 262144 = w
  obtain ⟨hlt, f0_2, f0_1, f2_6, f8_5, f13_5, f18_5, f23_9⟩ := fields_of_parts w (4) (d.toNat) (a.toNat) (b.toNat) (12) (by omega) (by omega) (by omega) (by omega) (by omega) (by omega)
  refine ⟨hlt, ⟨fun e => absurd e (by omega), fun e => absurd (e : false = true) Bool.false_ne_true⟩, ?_⟩
  rw [decodeWord_major w _ (by omega), major01 w f2_6]; unfold decodeMajor01
  rw [f23_9]
  show (Option.elim (some (Instr.minu (bits w 8 5) (bits w 13 5) (bits w 18 5))) _ _ : Except DecodeError Instr) = _
  rw [bits_eq w 8 d f8_5, bits_eq w 13 a f13_5, bits_eq w 18 b f18_5]
  rfl

theorem maxu (d : BitVec 5) (a : BitVec 5) (b : BitVec 5) : Statement (.maxu d a b) := by
  intro _ _
  have he : encodeFirst (.maxu d a b) = 109051908 + d.toNat * 256 + a.toNat * 8192 + b.toNat * 262144 := rfl
  have ld := d.isLt
  have la := a.isLt
  have lb := b.isLt
  have hp : payloadOf (.maxu d a b) = 0 := rfl
  rw [he, hp]
  generalize hw : 109051908 + d.toNat * 256 + a.toNat * 8192 + b.toNat * 262144 = w
  obtain ⟨hlt, f0_2, f0_1, f2_6, f8_5, f13_5, f18_5, f23_9⟩ := fields_of_parts w (4) (d.toNat) (a.toNat) (b.toNat) (13) (by omega) (by omega) (by omega) (by omega) (by omega) (by omega)
  refine ⟨hlt, ⟨fun e => absurd e (by omega), fun e => absurd (e : false = true) Bool.false_ne_true⟩, ?_⟩
  rw [decodeWord_major w _ (by omega), major01 w f2_6]; unfold decodeMajor01
  rw [f23_9]
  show (Option.elim (some (Instr.maxu (bits w 8 5) (bits w 13 5) (bits w 18 5))) _ _ : Except DecodeError Instr) = _
  rw [bits_eq w 8 d f8_5, bits_eq w 13 a f13_5, bits_eq w 18 b f18_5]
  rfl

theorem addw (d : BitVec 5) (a : BitVec 5) (b : BitVec 5) : Statement (.addw d a b) := by
  intro _ _
  have he : encodeFirst (.addw d a b) = 117440516 + d.toNat * 256 + a.toNat * 8192 + b.toNat * 262144 := rfl
  have ld := d.isLt
  have la := a.isLt
  have lb := b.isLt
  have hp : payloadOf (.addw d a b) = 0 := rfl
  rw [he, hp]
  generalize hw : 117440516 + d.toNat * 256 + a.toNat * 8192 + b.toNat * 262144 = w
  obtain ⟨hlt, f0_2, f0_1, f2_6, f8_5, f13_5, f18_5, f23_9⟩ := fields_of_parts w (4) (d.toNat) (a.toNat) (b.toNat) (14) (by omega) (by omega) (by omega) (by omega) (by omega) (by omega)
  refine ⟨hlt, ⟨fun e => absurd e (by omega), fun e => absurd (e : false = true) Bool.false_ne_true⟩, ?_⟩
  rw [decodeWord_major w _ (by omega), major01 w f2_6]; unfold decodeMajor01
  rw [f23_9]
  show (Option.elim (some (Instr.addw (bits w 8 5) (bits w 13 5) (bits w 18 5))) _ _ : Except DecodeError Instr) = _
  rw [bits_eq w 8 d f8_5, bits_eq w 13 a f13_5, bits_eq w 18 b f18_5]
  rfl

theorem subw (d : BitVec 5) (a : BitVec 5) (b : BitVec 5) : Statement (.subw d a b) := by
  intro _ _
  have he : encodeFirst (.subw d a b) = 125829124 + d.toNat * 256 + a.toNat * 8192 + b.toNat * 262144 := rfl
  have ld := d.isLt
  have la := a.isLt
  have lb := b.isLt
  have hp : payloadOf (.subw d a b) = 0 := rfl
  rw [he, hp]
  generalize hw : 125829124 + d.toNat * 256 + a.toNat * 8192 + b.toNat * 262144 = w
  obtain ⟨hlt, f0_2, f0_1, f2_6, f8_5, f13_5, f18_5, f23_9⟩ := fields_of_parts w (4) (d.toNat) (a.toNat) (b.toNat) (15) (by omega) (by omega) (by omega) (by omega) (by omega) (by omega)
  refine ⟨hlt, ⟨fun e => absurd e (by omega), fun e => absurd (e : false = true) Bool.false_ne_true⟩, ?_⟩
  rw [decodeWord_major w _ (by omega), major01 w f2_6]; unfold decodeMajor01
  rw [f23_9]
  show (Option.elim (some (Instr.subw (bits w 8 5) (bits w 13 5) (bits w 18 5))) _ _ : Except DecodeError Instr) = _
  rw [bits_eq w 8 d f8_5, bits_eq w 13 a f13_5, bits_eq w 18 b f18_5]
  rfl

theorem andn (d : BitVec 5) (a : BitVec 5) (b : BitVec 5) : Statement (.andn d a b) := by
  intro _ _
  have he : encodeFirst (.andn d a b) = 134217732 + d.toNat * 256 + a.toNat * 8192 + b.toNat * 262144 := rfl
  have ld := d.isLt
  have la := a.isLt
  have lb := b.isLt
  have hp : payloadOf (.andn d a b) = 0 := rfl
  rw [he, hp]
  generalize hw : 134217732 + d.toNat * 256 + a.toNat * 8192 + b.toNat * 262144 = w
  obtain ⟨hlt, f0_2, f0_1, f2_6, f8_5, f13_5, f18_5, f23_9⟩ := fields_of_parts w (4) (d.toNat) (a.toNat) (b.toNat) (16) (by omega) (by omega) (by omega) (by omega) (by omega) (by omega)
  refine ⟨hlt, ⟨fun e => absurd e (by omega), fun e => absurd (e : false = true) Bool.false_ne_true⟩, ?_⟩
  rw [decodeWord_major w _ (by omega), major01 w f2_6]; unfold decodeMajor01
  rw [f23_9]
  show (Option.elim (some (Instr.andn (bits w 8 5) (bits w 13 5) (bits w 18 5))) _ _ : Except DecodeError Instr) = _
  rw [bits_eq w 8 d f8_5, bits_eq w 13 a f13_5, bits_eq w 18 b f18_5]
  rfl

theorem orn (d : BitVec 5) (a : BitVec 5) (b : BitVec 5) : Statement (.orn d a b) := by
  intro _ _
  have he : encodeFirst (.orn d a b) = 142606340 + d.toNat * 256 + a.toNat * 8192 + b.toNat * 262144 := rfl
  have ld := d.isLt
  have la := a.isLt
  have lb := b.isLt
  have hp : payloadOf (.orn d a b) = 0 := rfl
  rw [he, hp]
  generalize hw : 142606340 + d.toNat * 256 + a.toNat * 8192 + b.toNat * 262144 = w
  obtain ⟨hlt, f0_2, f0_1, f2_6, f8_5, f13_5, f18_5, f23_9⟩ := fields_of_parts w (4) (d.toNat) (a.toNat) (b.toNat) (17) (by omega) (by omega) (by omega) (by omega) (by omega) (by omega)
  refine ⟨hlt, ⟨fun e => absurd e (by omega), fun e => absurd (e : false = true) Bool.false_ne_true⟩, ?_⟩
  rw [decodeWord_major w _ (by omega), major01 w f2_6]; unfold decodeMajor01
  rw [f23_9]
  show (Option.elim (some (Instr.orn (bits w 8 5) (bits w 13 5) (bits w 18 5))) _ _ : Except DecodeError Instr) = _
  rw [bits_eq w 8 d f8_5, bits_eq w 13 a f13_5, bits_eq w 18 b f18_5]
  rfl

theorem rol (d : BitVec 5) (a : BitVec 5) (b : BitVec 5) : Statement (.rol d a b) := by
  intro _ _
  have he : encodeFirst (.rol d a b) = 150994948 + d.toNat * 256 + a.toNat * 8192 + b.toNat * 262144 := rfl
  have ld := d.isLt
  have la := a.isLt
  have lb := b.isLt
  have hp : payloadOf (.rol d a b) = 0 := rfl
  rw [he, hp]
  generalize hw : 150994948 + d.toNat * 256 + a.toNat * 8192 + b.toNat * 262144 = w
  obtain ⟨hlt, f0_2, f0_1, f2_6, f8_5, f13_5, f18_5, f23_9⟩ := fields_of_parts w (4) (d.toNat) (a.toNat) (b.toNat) (18) (by omega) (by omega) (by omega) (by omega) (by omega) (by omega)
  refine ⟨hlt, ⟨fun e => absurd e (by omega), fun e => absurd (e : false = true) Bool.false_ne_true⟩, ?_⟩
  rw [decodeWord_major w _ (by omega), major01 w f2_6]; unfold decodeMajor01
  rw [f23_9]
  show (Option.elim (some (Instr.rol (bits w 8 5) (bits w 13 5) (bits w 18 5))) _ _ : Except DecodeError Instr) = _
  rw [bits_eq w 8 d f8_5, bits_eq w 13 a f13_5, bits_eq w 18 b f18_5]
  rfl

theorem ror (d : BitVec 5) (a : BitVec 5) (b : BitVec 5) : Statement (.ror d a b) := by
  intro _ _
  have he : encodeFirst (.ror d a b) = 159383556 + d.toNat * 256 + a.toNat * 8192 + b.toNat * 262144 := rfl
  have ld := d.isLt
  have la := a.isLt
  have lb := b.isLt
  have hp : payloadOf (.ror d a b) = 0 := rfl
  rw [he, hp]
  generalize hw : 159383556 + d.toNat * 256 + a.toNat * 8192 + b.toNat * 262144 = w
  obtain ⟨hlt, f0_2, f0_1, f2_6, f8_5, f13_5, f18_5, f23_9⟩ := fields_of_parts w (4) (d.toNat) (a.toNat) (b.toNat) (19) (by omega) (by omega) (by omega) (by omega) (by omega) (by omega)
  refine ⟨hlt, ⟨fun e => absurd e (by omega), fun e => absurd (e : false = true) Bool.false_ne_true⟩, ?_⟩
  rw [decodeWord_major w _ (by omega), major01 w f2_6]; unfold decodeMajor01
  rw [f23_9]
  show (Option.elim (some (Instr.ror (bits w 8 5) (bits w 13 5) (bits w 18 5))) _ _ : Except DecodeError Instr) = _
  rw [bits_eq w 8 d f8_5, bits_eq w 13 a f13_5, bits_eq w 18 b f18_5]
  rfl

theorem addi (d : BitVec 5) (a : BitVec 5) (i : BitVec 14) : Statement (.addi d a i) := by
  intro _ _
  have he : encodeFirst (.addi d a i) = 8 + d.toNat * 256 + a.toNat * 8192 + i.toNat * 262144 := rfl
  have ld := d.isLt
  have la := a.isLt
  have li := i.isLt
  have hp : payloadOf (.addi d a i) = 0 := rfl
  rw [he, hp]
  generalize hw : 8 + d.toNat * 256 + a.toNat * 8192 + i.toNat * 262144 = w
  obtain ⟨hlt, f0_2, f0_1, f2_6, f8_5, f13_5, f18_14⟩ := fields_of_imm w 8 (d.toNat) (a.toNat) (i.toNat) (by omega) (by decide) (by omega) (by omega) (by omega)
  refine ⟨hlt, ⟨fun e => absurd e (by omega), fun e => absurd (e : false = true) Bool.false_ne_true⟩, ?_⟩
  rw [decodeWord_major w _ (by omega), major02 w f2_6]; unfold decodeMajor02
  show (Option.elim (some (Instr.addi (bits w 8 5) (bits w 13 5) (bits w 18 14))) _ _ : Except DecodeError Instr) = _
  rw [bits_eq w 8 d f8_5, bits_eq w 13 a f13_5, bits_eq w 18 i f18_14]
  rfl

theorem andi (d : BitVec 5) (a : BitVec 5) (i : BitVec 14) : Statement (.andi d a i) := by
  intro _ _
  have he : encodeFirst (.andi d a i) = 12 + d.toNat * 256 + a.toNat * 8192 + i.toNat * 262144 := rfl
  have ld := d.isLt
  have la := a.isLt
  have li := i.isLt
  have hp : payloadOf (.andi d a i) = 0 := rfl
  rw [he, hp]
  generalize hw : 12 + d.toNat * 256 + a.toNat * 8192 + i.toNat * 262144 = w
  obtain ⟨hlt, f0_2, f0_1, f2_6, f8_5, f13_5, f18_14⟩ := fields_of_imm w 12 (d.toNat) (a.toNat) (i.toNat) (by omega) (by decide) (by omega) (by omega) (by omega)
  refine ⟨hlt, ⟨fun e => absurd e (by omega), fun e => absurd (e : false = true) Bool.false_ne_true⟩, ?_⟩
  rw [decodeWord_major w _ (by omega), major03 w f2_6]; unfold decodeMajor03
  show (Option.elim (some (Instr.andi (bits w 8 5) (bits w 13 5) (bits w 18 14))) _ _ : Except DecodeError Instr) = _
  rw [bits_eq w 8 d f8_5, bits_eq w 13 a f13_5, bits_eq w 18 i f18_14]
  rfl

theorem ori (d : BitVec 5) (a : BitVec 5) (i : BitVec 14) : Statement (.ori d a i) := by
  intro _ _
  have he : encodeFirst (.ori d a i) = 16 + d.toNat * 256 + a.toNat * 8192 + i.toNat * 262144 := rfl
  have ld := d.isLt
  have la := a.isLt
  have li := i.isLt
  have hp : payloadOf (.ori d a i) = 0 := rfl
  rw [he, hp]
  generalize hw : 16 + d.toNat * 256 + a.toNat * 8192 + i.toNat * 262144 = w
  obtain ⟨hlt, f0_2, f0_1, f2_6, f8_5, f13_5, f18_14⟩ := fields_of_imm w 16 (d.toNat) (a.toNat) (i.toNat) (by omega) (by decide) (by omega) (by omega) (by omega)
  refine ⟨hlt, ⟨fun e => absurd e (by omega), fun e => absurd (e : false = true) Bool.false_ne_true⟩, ?_⟩
  rw [decodeWord_major w _ (by omega), major04 w f2_6]; unfold decodeMajor04
  show (Option.elim (some (Instr.ori (bits w 8 5) (bits w 13 5) (bits w 18 14))) _ _ : Except DecodeError Instr) = _
  rw [bits_eq w 8 d f8_5, bits_eq w 13 a f13_5, bits_eq w 18 i f18_14]
  rfl

theorem xori (d : BitVec 5) (a : BitVec 5) (i : BitVec 14) : Statement (.xori d a i) := by
  intro _ _
  have he : encodeFirst (.xori d a i) = 20 + d.toNat * 256 + a.toNat * 8192 + i.toNat * 262144 := rfl
  have ld := d.isLt
  have la := a.isLt
  have li := i.isLt
  have hp : payloadOf (.xori d a i) = 0 := rfl
  rw [he, hp]
  generalize hw : 20 + d.toNat * 256 + a.toNat * 8192 + i.toNat * 262144 = w
  obtain ⟨hlt, f0_2, f0_1, f2_6, f8_5, f13_5, f18_14⟩ := fields_of_imm w 20 (d.toNat) (a.toNat) (i.toNat) (by omega) (by decide) (by omega) (by omega) (by omega)
  refine ⟨hlt, ⟨fun e => absurd e (by omega), fun e => absurd (e : false = true) Bool.false_ne_true⟩, ?_⟩
  rw [decodeWord_major w _ (by omega), major05 w f2_6]; unfold decodeMajor05
  show (Option.elim (some (Instr.xori (bits w 8 5) (bits w 13 5) (bits w 18 14))) _ _ : Except DecodeError Instr) = _
  rw [bits_eq w 8 d f8_5, bits_eq w 13 a f13_5, bits_eq w 18 i f18_14]
  rfl

theorem slli (d : BitVec 5) (a : BitVec 5) (n : BitVec 6) : Statement (.slli d a n) := by
  intro _ _
  have he : encodeFirst (.slli d a n) = 24 + d.toNat * 256 + a.toNat * 8192 + n.toNat * 262144 := rfl
  have ld := d.isLt
  have la := a.isLt
  have ln := n.isLt
  have hp : payloadOf (.slli d a n) = 0 := rfl
  rw [he, hp]
  generalize hw : 24 + d.toNat * 256 + a.toNat * 8192 + n.toNat * 262144 = w
  obtain ⟨hlt, f0_2, f0_1, f2_6, f8_5, f13_5, f18_14⟩ := fields_of_imm w 24 (d.toNat) (a.toNat) (n.toNat) (by omega) (by decide) (by omega) (by omega) (by omega)
  have f24_8 : fld w 24 8 = 0 := (fld_immediate w _ 6 8 f18_14 hlt).trans (by unfold fld; omega)
  have f18_6 : fld w 18 6 = n.toNat := (fld_immediate w _ 0 6 f18_14 hlt).trans (by unfold fld; omega)
  refine ⟨hlt, ⟨fun e => absurd e (by omega), fun e => absurd (e : false = true) Bool.false_ne_true⟩, ?_⟩
  rw [decodeWord_major w _ (by omega), major06 w f2_6]; unfold decodeMajor06
  rw [f24_8]
  show (Option.elim (some (Instr.slli (bits w 8 5) (bits w 13 5) (bits w 18 6))) _ _ : Except DecodeError Instr) = _
  rw [bits_eq w 8 d f8_5, bits_eq w 13 a f13_5, bits_eq w 18 n f18_6]
  rfl

theorem srli (d : BitVec 5) (a : BitVec 5) (n : BitVec 6) : Statement (.srli d a n) := by
  intro _ _
  have he : encodeFirst (.srli d a n) = 16777240 + d.toNat * 256 + a.toNat * 8192 + n.toNat * 262144 := rfl
  have ld := d.isLt
  have la := a.isLt
  have ln := n.isLt
  have hp : payloadOf (.srli d a n) = 0 := rfl
  rw [he, hp]
  generalize hw : 16777240 + d.toNat * 256 + a.toNat * 8192 + n.toNat * 262144 = w
  obtain ⟨hlt, f0_2, f0_1, f2_6, f8_5, f13_5, f18_14⟩ := fields_of_imm w 24 (d.toNat) (a.toNat) (64 + n.toNat) (by omega) (by decide) (by omega) (by omega) (by omega)
  have f24_8 : fld w 24 8 = 1 := (fld_immediate w _ 6 8 f18_14 hlt).trans (by unfold fld; omega)
  have f18_6 : fld w 18 6 = n.toNat := (fld_immediate w _ 0 6 f18_14 hlt).trans (by unfold fld; omega)
  refine ⟨hlt, ⟨fun e => absurd e (by omega), fun e => absurd (e : false = true) Bool.false_ne_true⟩, ?_⟩
  rw [decodeWord_major w _ (by omega), major06 w f2_6]; unfold decodeMajor06
  rw [f24_8]
  show (Option.elim (some (Instr.srli (bits w 8 5) (bits w 13 5) (bits w 18 6))) _ _ : Except DecodeError Instr) = _
  rw [bits_eq w 8 d f8_5, bits_eq w 13 a f13_5, bits_eq w 18 n f18_6]
  rfl

theorem srai (d : BitVec 5) (a : BitVec 5) (n : BitVec 6) : Statement (.srai d a n) := by
  intro _ _
  have he : encodeFirst (.srai d a n) = 33554456 + d.toNat * 256 + a.toNat * 8192 + n.toNat * 262144 := rfl
  have ld := d.isLt
  have la := a.isLt
  have ln := n.isLt
  have hp : payloadOf (.srai d a n) = 0 := rfl
  rw [he, hp]
  generalize hw : 33554456 + d.toNat * 256 + a.toNat * 8192 + n.toNat * 262144 = w
  obtain ⟨hlt, f0_2, f0_1, f2_6, f8_5, f13_5, f18_14⟩ := fields_of_imm w 24 (d.toNat) (a.toNat) (128 + n.toNat) (by omega) (by decide) (by omega) (by omega) (by omega)
  have f24_8 : fld w 24 8 = 2 := (fld_immediate w _ 6 8 f18_14 hlt).trans (by unfold fld; omega)
  have f18_6 : fld w 18 6 = n.toNat := (fld_immediate w _ 0 6 f18_14 hlt).trans (by unfold fld; omega)
  refine ⟨hlt, ⟨fun e => absurd e (by omega), fun e => absurd (e : false = true) Bool.false_ne_true⟩, ?_⟩
  rw [decodeWord_major w _ (by omega), major06 w f2_6]; unfold decodeMajor06
  rw [f24_8]
  show (Option.elim (some (Instr.srai (bits w 8 5) (bits w 13 5) (bits w 18 6))) _ _ : Except DecodeError Instr) = _
  rw [bits_eq w 8 d f8_5, bits_eq w 13 a f13_5, bits_eq w 18 n f18_6]
  rfl

theorem rori (d : BitVec 5) (a : BitVec 5) (n : BitVec 6) : Statement (.rori d a n) := by
  intro _ _
  have he : encodeFirst (.rori d a n) = 50331672 + d.toNat * 256 + a.toNat * 8192 + n.toNat * 262144 := rfl
  have ld := d.isLt
  have la := a.isLt
  have ln := n.isLt
  have hp : payloadOf (.rori d a n) = 0 := rfl
  rw [he, hp]
  generalize hw : 50331672 + d.toNat * 256 + a.toNat * 8192 + n.toNat * 262144 = w
  obtain ⟨hlt, f0_2, f0_1, f2_6, f8_5, f13_5, f18_14⟩ := fields_of_imm w 24 (d.toNat) (a.toNat) (192 + n.toNat) (by omega) (by decide) (by omega) (by omega) (by omega)
  have f24_8 : fld w 24 8 = 3 := (fld_immediate w _ 6 8 f18_14 hlt).trans (by unfold fld; omega)
  have f18_6 : fld w 18 6 = n.toNat := (fld_immediate w _ 0 6 f18_14 hlt).trans (by unfold fld; omega)
  refine ⟨hlt, ⟨fun e => absurd e (by omega), fun e => absurd (e : false = true) Bool.false_ne_true⟩, ?_⟩
  rw [decodeWord_major w _ (by omega), major06 w f2_6]; unfold decodeMajor06
  rw [f24_8]
  show (Option.elim (some (Instr.rori (bits w 8 5) (bits w 13 5) (bits w 18 6))) _ _ : Except DecodeError Instr) = _
  rw [bits_eq w 8 d f8_5, bits_eq w 13 a f13_5, bits_eq w 18 n f18_6]
  rfl

theorem slti (d : BitVec 5) (a : BitVec 5) (i : BitVec 14) : Statement (.slti d a i) := by
  intro _ _
  have he : encodeFirst (.slti d a i) = 28 + d.toNat * 256 + a.toNat * 8192 + i.toNat * 262144 := rfl
  have ld := d.isLt
  have la := a.isLt
  have li := i.isLt
  have hp : payloadOf (.slti d a i) = 0 := rfl
  rw [he, hp]
  generalize hw : 28 + d.toNat * 256 + a.toNat * 8192 + i.toNat * 262144 = w
  obtain ⟨hlt, f0_2, f0_1, f2_6, f8_5, f13_5, f18_14⟩ := fields_of_imm w 28 (d.toNat) (a.toNat) (i.toNat) (by omega) (by decide) (by omega) (by omega) (by omega)
  refine ⟨hlt, ⟨fun e => absurd e (by omega), fun e => absurd (e : false = true) Bool.false_ne_true⟩, ?_⟩
  rw [decodeWord_major w _ (by omega), major07 w f2_6]; unfold decodeMajor07
  show (Option.elim (some (Instr.slti (bits w 8 5) (bits w 13 5) (bits w 18 14))) _ _ : Except DecodeError Instr) = _
  rw [bits_eq w 8 d f8_5, bits_eq w 13 a f13_5, bits_eq w 18 i f18_14]
  rfl

theorem mul (d : BitVec 5) (a : BitVec 5) (b : BitVec 5) : Statement (.mul d a b) := by
  intro _ _
  have he : encodeFirst (.mul d a b) = 32 + d.toNat * 256 + a.toNat * 8192 + b.toNat * 262144 := rfl
  have ld := d.isLt
  have la := a.isLt
  have lb := b.isLt
  have hp : payloadOf (.mul d a b) = 0 := rfl
  rw [he, hp]
  generalize hw : 32 + d.toNat * 256 + a.toNat * 8192 + b.toNat * 262144 = w
  obtain ⟨hlt, f0_2, f0_1, f2_6, f8_5, f13_5, f18_5, f23_9⟩ := fields_of_parts w (32) (d.toNat) (a.toNat) (b.toNat) (0) (by omega) (by omega) (by omega) (by omega) (by omega) (by omega)
  refine ⟨hlt, ⟨fun e => absurd e (by omega), fun e => absurd (e : false = true) Bool.false_ne_true⟩, ?_⟩
  rw [decodeWord_major w _ (by omega), major08 w f2_6]; unfold decodeMajor08
  rw [f23_9]
  show (Option.elim (some (Instr.mul (bits w 8 5) (bits w 13 5) (bits w 18 5))) _ _ : Except DecodeError Instr) = _
  rw [bits_eq w 8 d f8_5, bits_eq w 13 a f13_5, bits_eq w 18 b f18_5]
  rfl

theorem mulh (d : BitVec 5) (a : BitVec 5) (b : BitVec 5) : Statement (.mulh d a b) := by
  intro _ _
  have he : encodeFirst (.mulh d a b) = 8388640 + d.toNat * 256 + a.toNat * 8192 + b.toNat * 262144 := rfl
  have ld := d.isLt
  have la := a.isLt
  have lb := b.isLt
  have hp : payloadOf (.mulh d a b) = 0 := rfl
  rw [he, hp]
  generalize hw : 8388640 + d.toNat * 256 + a.toNat * 8192 + b.toNat * 262144 = w
  obtain ⟨hlt, f0_2, f0_1, f2_6, f8_5, f13_5, f18_5, f23_9⟩ := fields_of_parts w (32) (d.toNat) (a.toNat) (b.toNat) (1) (by omega) (by omega) (by omega) (by omega) (by omega) (by omega)
  refine ⟨hlt, ⟨fun e => absurd e (by omega), fun e => absurd (e : false = true) Bool.false_ne_true⟩, ?_⟩
  rw [decodeWord_major w _ (by omega), major08 w f2_6]; unfold decodeMajor08
  rw [f23_9]
  show (Option.elim (some (Instr.mulh (bits w 8 5) (bits w 13 5) (bits w 18 5))) _ _ : Except DecodeError Instr) = _
  rw [bits_eq w 8 d f8_5, bits_eq w 13 a f13_5, bits_eq w 18 b f18_5]
  rfl

theorem mulhu (d : BitVec 5) (a : BitVec 5) (b : BitVec 5) : Statement (.mulhu d a b) := by
  intro _ _
  have he : encodeFirst (.mulhu d a b) = 16777248 + d.toNat * 256 + a.toNat * 8192 + b.toNat * 262144 := rfl
  have ld := d.isLt
  have la := a.isLt
  have lb := b.isLt
  have hp : payloadOf (.mulhu d a b) = 0 := rfl
  rw [he, hp]
  generalize hw : 16777248 + d.toNat * 256 + a.toNat * 8192 + b.toNat * 262144 = w
  obtain ⟨hlt, f0_2, f0_1, f2_6, f8_5, f13_5, f18_5, f23_9⟩ := fields_of_parts w (32) (d.toNat) (a.toNat) (b.toNat) (2) (by omega) (by omega) (by omega) (by omega) (by omega) (by omega)
  refine ⟨hlt, ⟨fun e => absurd e (by omega), fun e => absurd (e : false = true) Bool.false_ne_true⟩, ?_⟩
  rw [decodeWord_major w _ (by omega), major08 w f2_6]; unfold decodeMajor08
  rw [f23_9]
  show (Option.elim (some (Instr.mulhu (bits w 8 5) (bits w 13 5) (bits w 18 5))) _ _ : Except DecodeError Instr) = _
  rw [bits_eq w 8 d f8_5, bits_eq w 13 a f13_5, bits_eq w 18 b f18_5]
  rfl

theorem div (d : BitVec 5) (a : BitVec 5) (b : BitVec 5) : Statement (.div d a b) := by
  intro _ _
  have he : encodeFirst (.div d a b) = 25165856 + d.toNat * 256 + a.toNat * 8192 + b.toNat * 262144 := rfl
  have ld := d.isLt
  have la := a.isLt
  have lb := b.isLt
  have hp : payloadOf (.div d a b) = 0 := rfl
  rw [he, hp]
  generalize hw : 25165856 + d.toNat * 256 + a.toNat * 8192 + b.toNat * 262144 = w
  obtain ⟨hlt, f0_2, f0_1, f2_6, f8_5, f13_5, f18_5, f23_9⟩ := fields_of_parts w (32) (d.toNat) (a.toNat) (b.toNat) (3) (by omega) (by omega) (by omega) (by omega) (by omega) (by omega)
  refine ⟨hlt, ⟨fun e => absurd e (by omega), fun e => absurd (e : false = true) Bool.false_ne_true⟩, ?_⟩
  rw [decodeWord_major w _ (by omega), major08 w f2_6]; unfold decodeMajor08
  rw [f23_9]
  show (Option.elim (some (Instr.div (bits w 8 5) (bits w 13 5) (bits w 18 5))) _ _ : Except DecodeError Instr) = _
  rw [bits_eq w 8 d f8_5, bits_eq w 13 a f13_5, bits_eq w 18 b f18_5]
  rfl

theorem divu (d : BitVec 5) (a : BitVec 5) (b : BitVec 5) : Statement (.divu d a b) := by
  intro _ _
  have he : encodeFirst (.divu d a b) = 33554464 + d.toNat * 256 + a.toNat * 8192 + b.toNat * 262144 := rfl
  have ld := d.isLt
  have la := a.isLt
  have lb := b.isLt
  have hp : payloadOf (.divu d a b) = 0 := rfl
  rw [he, hp]
  generalize hw : 33554464 + d.toNat * 256 + a.toNat * 8192 + b.toNat * 262144 = w
  obtain ⟨hlt, f0_2, f0_1, f2_6, f8_5, f13_5, f18_5, f23_9⟩ := fields_of_parts w (32) (d.toNat) (a.toNat) (b.toNat) (4) (by omega) (by omega) (by omega) (by omega) (by omega) (by omega)
  refine ⟨hlt, ⟨fun e => absurd e (by omega), fun e => absurd (e : false = true) Bool.false_ne_true⟩, ?_⟩
  rw [decodeWord_major w _ (by omega), major08 w f2_6]; unfold decodeMajor08
  rw [f23_9]
  show (Option.elim (some (Instr.divu (bits w 8 5) (bits w 13 5) (bits w 18 5))) _ _ : Except DecodeError Instr) = _
  rw [bits_eq w 8 d f8_5, bits_eq w 13 a f13_5, bits_eq w 18 b f18_5]
  rfl

theorem rem (d : BitVec 5) (a : BitVec 5) (b : BitVec 5) : Statement (.rem d a b) := by
  intro _ _
  have he : encodeFirst (.rem d a b) = 41943072 + d.toNat * 256 + a.toNat * 8192 + b.toNat * 262144 := rfl
  have ld := d.isLt
  have la := a.isLt
  have lb := b.isLt
  have hp : payloadOf (.rem d a b) = 0 := rfl
  rw [he, hp]
  generalize hw : 41943072 + d.toNat * 256 + a.toNat * 8192 + b.toNat * 262144 = w
  obtain ⟨hlt, f0_2, f0_1, f2_6, f8_5, f13_5, f18_5, f23_9⟩ := fields_of_parts w (32) (d.toNat) (a.toNat) (b.toNat) (5) (by omega) (by omega) (by omega) (by omega) (by omega) (by omega)
  refine ⟨hlt, ⟨fun e => absurd e (by omega), fun e => absurd (e : false = true) Bool.false_ne_true⟩, ?_⟩
  rw [decodeWord_major w _ (by omega), major08 w f2_6]; unfold decodeMajor08
  rw [f23_9]
  show (Option.elim (some (Instr.rem (bits w 8 5) (bits w 13 5) (bits w 18 5))) _ _ : Except DecodeError Instr) = _
  rw [bits_eq w 8 d f8_5, bits_eq w 13 a f13_5, bits_eq w 18 b f18_5]
  rfl

theorem remu (d : BitVec 5) (a : BitVec 5) (b : BitVec 5) : Statement (.remu d a b) := by
  intro _ _
  have he : encodeFirst (.remu d a b) = 50331680 + d.toNat * 256 + a.toNat * 8192 + b.toNat * 262144 := rfl
  have ld := d.isLt
  have la := a.isLt
  have lb := b.isLt
  have hp : payloadOf (.remu d a b) = 0 := rfl
  rw [he, hp]
  generalize hw : 50331680 + d.toNat * 256 + a.toNat * 8192 + b.toNat * 262144 = w
  obtain ⟨hlt, f0_2, f0_1, f2_6, f8_5, f13_5, f18_5, f23_9⟩ := fields_of_parts w (32) (d.toNat) (a.toNat) (b.toNat) (6) (by omega) (by omega) (by omega) (by omega) (by omega) (by omega)
  refine ⟨hlt, ⟨fun e => absurd e (by omega), fun e => absurd (e : false = true) Bool.false_ne_true⟩, ?_⟩
  rw [decodeWord_major w _ (by omega), major08 w f2_6]; unfold decodeMajor08
  rw [f23_9]
  show (Option.elim (some (Instr.remu (bits w 8 5) (bits w 13 5) (bits w 18 5))) _ _ : Except DecodeError Instr) = _
  rw [bits_eq w 8 d f8_5, bits_eq w 13 a f13_5, bits_eq w 18 b f18_5]
  rfl

theorem mulw (d : BitVec 5) (a : BitVec 5) (b : BitVec 5) : Statement (.mulw d a b) := by
  intro _ _
  have he : encodeFirst (.mulw d a b) = 58720288 + d.toNat * 256 + a.toNat * 8192 + b.toNat * 262144 := rfl
  have ld := d.isLt
  have la := a.isLt
  have lb := b.isLt
  have hp : payloadOf (.mulw d a b) = 0 := rfl
  rw [he, hp]
  generalize hw : 58720288 + d.toNat * 256 + a.toNat * 8192 + b.toNat * 262144 = w
  obtain ⟨hlt, f0_2, f0_1, f2_6, f8_5, f13_5, f18_5, f23_9⟩ := fields_of_parts w (32) (d.toNat) (a.toNat) (b.toNat) (7) (by omega) (by omega) (by omega) (by omega) (by omega) (by omega)
  refine ⟨hlt, ⟨fun e => absurd e (by omega), fun e => absurd (e : false = true) Bool.false_ne_true⟩, ?_⟩
  rw [decodeWord_major w _ (by omega), major08 w f2_6]; unfold decodeMajor08
  rw [f23_9]
  show (Option.elim (some (Instr.mulw (bits w 8 5) (bits w 13 5) (bits w 18 5))) _ _ : Except DecodeError Instr) = _
  rw [bits_eq w 8 d f8_5, bits_eq w 13 a f13_5, bits_eq w 18 b f18_5]
  rfl

theorem bfx (d : BitVec 5) (a : BitVec 5) (p : BitVec 6) (wd : BitVec 6) : Statement (.bfx d a p wd) := by
  intro _ _
  have he : encodeFirst (.bfx d a p wd) = 36 + d.toNat * 256 + a.toNat * 8192 + p.toNat * 262144 + wd.toNat * 16777216 := rfl
  have ld := d.isLt
  have la := a.isLt
  have lp := p.isLt
  have lwd := wd.isLt
  have hp : payloadOf (.bfx d a p wd) = 0 := rfl
  rw [he, hp]
  generalize hw : 36 + d.toNat * 256 + a.toNat * 8192 + p.toNat * 262144 + wd.toNat * 16777216 = w
  obtain ⟨hlt, f0_2, f0_1, f2_6, f8_5, f13_5, f18_14⟩ := fields_of_imm w 36 (d.toNat) (a.toNat) (p.toNat + wd.toNat * 64) (by omega) (by decide) (by omega) (by omega) (by omega)
  have f23_9 : fld w 23 9 = (p.toNat / 32) + wd.toNat * 2 := (fld_immediate w _ 5 9 f18_14 hlt).trans (by unfold fld; omega)
  have f18_5 : fld w 18 5 = (p.toNat % 32) := (fld_immediate w _ 0 5 f18_14 hlt).trans (by unfold fld; omega)
  have f30_2 : fld w 30 2 = 0 := (fld_immediate w _ 12 2 f18_14 hlt).trans (by unfold fld; omega)
  have f18_6 : fld w 18 6 = p.toNat := (fld_immediate w _ 0 6 f18_14 hlt).trans (by unfold fld; omega)
  have f24_6 : fld w 24 6 = wd.toNat := (fld_immediate w _ 6 6 f18_14 hlt).trans (by unfold fld; omega)
  refine ⟨hlt, ⟨fun e => absurd e (by omega), fun e => absurd (e : false = true) Bool.false_ne_true⟩, ?_⟩
  rw [decodeWord_major w _ (by omega), major09 w f2_6]; unfold decodeMajor09
  rw [if_neg (by omega)]
  rw [if_neg (by omega)]
  rw [if_neg (by omega)]
  rw [if_pos (by omega)]
  rw [bits_eq w 8 d f8_5, bits_eq w 13 a f13_5, bits_eq w 18 p f18_6, bits_eq w 24 wd f24_6]
  rfl

theorem bfxs (d : BitVec 5) (a : BitVec 5) (p : BitVec 6) (wd : BitVec 6) : Statement (.bfxs d a p wd) := by
  intro _ _
  have he : encodeFirst (.bfxs d a p wd) = 1073741860 + d.toNat * 256 + a.toNat * 8192 + p.toNat * 262144 + wd.toNat * 16777216 := rfl
  have ld := d.isLt
  have la := a.isLt
  have lp := p.isLt
  have lwd := wd.isLt
  have hp : payloadOf (.bfxs d a p wd) = 0 := rfl
  rw [he, hp]
  generalize hw : 1073741860 + d.toNat * 256 + a.toNat * 8192 + p.toNat * 262144 + wd.toNat * 16777216 = w
  obtain ⟨hlt, f0_2, f0_1, f2_6, f8_5, f13_5, f18_14⟩ := fields_of_imm w 36 (d.toNat) (a.toNat) (4096 + p.toNat + wd.toNat * 64) (by omega) (by decide) (by omega) (by omega) (by omega)
  have f23_9 : fld w 23 9 = 128 + (p.toNat / 32) + wd.toNat * 2 := (fld_immediate w _ 5 9 f18_14 hlt).trans (by unfold fld; omega)
  have f18_5 : fld w 18 5 = (p.toNat % 32) := (fld_immediate w _ 0 5 f18_14 hlt).trans (by unfold fld; omega)
  have f30_2 : fld w 30 2 = 1 := (fld_immediate w _ 12 2 f18_14 hlt).trans (by unfold fld; omega)
  have f18_6 : fld w 18 6 = p.toNat := (fld_immediate w _ 0 6 f18_14 hlt).trans (by unfold fld; omega)
  have f24_6 : fld w 24 6 = wd.toNat := (fld_immediate w _ 6 6 f18_14 hlt).trans (by unfold fld; omega)
  refine ⟨hlt, ⟨fun e => absurd e (by omega), fun e => absurd (e : false = true) Bool.false_ne_true⟩, ?_⟩
  rw [decodeWord_major w _ (by omega), major09 w f2_6]; unfold decodeMajor09
  rw [if_neg (by omega)]
  rw [if_neg (by omega)]
  rw [if_neg (by omega)]
  rw [if_neg (by omega)]
  rw [if_pos (by omega)]
  rw [bits_eq w 8 d f8_5, bits_eq w 13 a f13_5, bits_eq w 18 p f18_6, bits_eq w 24 wd f24_6]
  rfl

theorem bfi (d : BitVec 5) (a : BitVec 5) (p : BitVec 6) (wd : BitVec 6) : Statement (.bfi d a p wd) := by
  intro _ _
  have he : encodeFirst (.bfi d a p wd) = 2147483684 + d.toNat * 256 + a.toNat * 8192 + p.toNat * 262144 + wd.toNat * 16777216 := rfl
  have ld := d.isLt
  have la := a.isLt
  have lp := p.isLt
  have lwd := wd.isLt
  have hp : payloadOf (.bfi d a p wd) = 0 := rfl
  rw [he, hp]
  generalize hw : 2147483684 + d.toNat * 256 + a.toNat * 8192 + p.toNat * 262144 + wd.toNat * 16777216 = w
  obtain ⟨hlt, f0_2, f0_1, f2_6, f8_5, f13_5, f18_14⟩ := fields_of_imm w 36 (d.toNat) (a.toNat) (8192 + p.toNat + wd.toNat * 64) (by omega) (by decide) (by omega) (by omega) (by omega)
  have f23_9 : fld w 23 9 = 256 + (p.toNat / 32) + wd.toNat * 2 := (fld_immediate w _ 5 9 f18_14 hlt).trans (by unfold fld; omega)
  have f18_5 : fld w 18 5 = (p.toNat % 32) := (fld_immediate w _ 0 5 f18_14 hlt).trans (by unfold fld; omega)
  have f30_2 : fld w 30 2 = 2 := (fld_immediate w _ 12 2 f18_14 hlt).trans (by unfold fld; omega)
  have f18_6 : fld w 18 6 = p.toNat := (fld_immediate w _ 0 6 f18_14 hlt).trans (by unfold fld; omega)
  have f24_6 : fld w 24 6 = wd.toNat := (fld_immediate w _ 6 6 f18_14 hlt).trans (by unfold fld; omega)
  refine ⟨hlt, ⟨fun e => absurd e (by omega), fun e => absurd (e : false = true) Bool.false_ne_true⟩, ?_⟩
  rw [decodeWord_major w _ (by omega), major09 w f2_6]; unfold decodeMajor09
  rw [if_neg (by omega)]
  rw [if_neg (by omega)]
  rw [if_neg (by omega)]
  rw [if_neg (by omega)]
  rw [if_neg (by omega)]
  rw [if_pos (by omega)]
  rw [bits_eq w 8 d f8_5, bits_eq w 13 a f13_5, bits_eq w 18 p f18_6, bits_eq w 24 wd f24_6]
  rfl

theorem clz (d : BitVec 5) (a : BitVec 5) : Statement (.clz d a) := by
  intro _ _
  have he : encodeFirst (.clz d a) = 3221225508 + d.toNat * 256 + a.toNat * 8192 := rfl
  have ld := d.isLt
  have la := a.isLt
  have hp : payloadOf (.clz d a) = 0 := rfl
  rw [he, hp]
  generalize hw : 3221225508 + d.toNat * 256 + a.toNat * 8192 = w
  obtain ⟨hlt, f0_2, f0_1, f2_6, f8_5, f13_5, f18_5, f23_9⟩ := fields_of_parts w (36) (d.toNat) (a.toNat) (0) (384) (by omega) (by omega) (by omega) (by omega) (by omega) (by omega)
  refine ⟨hlt, ⟨fun e => absurd e (by omega), fun e => absurd (e : false = true) Bool.false_ne_true⟩, ?_⟩
  rw [decodeWord_major w _ (by omega), major09 w f2_6]; unfold decodeMajor09
  rw [f23_9, f18_5]
  show (Option.elim (some (Instr.clz (bits w 8 5) (bits w 13 5))) _ _ : Except DecodeError Instr) = _
  rw [bits_eq w 8 d f8_5, bits_eq w 13 a f13_5]
  rfl

theorem ctz (d : BitVec 5) (a : BitVec 5) : Statement (.ctz d a) := by
  intro _ _
  have he : encodeFirst (.ctz d a) = 3221487652 + d.toNat * 256 + a.toNat * 8192 := rfl
  have ld := d.isLt
  have la := a.isLt
  have hp : payloadOf (.ctz d a) = 0 := rfl
  rw [he, hp]
  generalize hw : 3221487652 + d.toNat * 256 + a.toNat * 8192 = w
  obtain ⟨hlt, f0_2, f0_1, f2_6, f8_5, f13_5, f18_5, f23_9⟩ := fields_of_parts w (36) (d.toNat) (a.toNat) (1) (384) (by omega) (by omega) (by omega) (by omega) (by omega) (by omega)
  refine ⟨hlt, ⟨fun e => absurd e (by omega), fun e => absurd (e : false = true) Bool.false_ne_true⟩, ?_⟩
  rw [decodeWord_major w _ (by omega), major09 w f2_6]; unfold decodeMajor09
  rw [f23_9, f18_5]
  show (Option.elim (some (Instr.ctz (bits w 8 5) (bits w 13 5))) _ _ : Except DecodeError Instr) = _
  rw [bits_eq w 8 d f8_5, bits_eq w 13 a f13_5]
  rfl

theorem popc (d : BitVec 5) (a : BitVec 5) : Statement (.popc d a) := by
  intro _ _
  have he : encodeFirst (.popc d a) = 3221749796 + d.toNat * 256 + a.toNat * 8192 := rfl
  have ld := d.isLt
  have la := a.isLt
  have hp : payloadOf (.popc d a) = 0 := rfl
  rw [he, hp]
  generalize hw : 3221749796 + d.toNat * 256 + a.toNat * 8192 = w
  obtain ⟨hlt, f0_2, f0_1, f2_6, f8_5, f13_5, f18_5, f23_9⟩ := fields_of_parts w (36) (d.toNat) (a.toNat) (2) (384) (by omega) (by omega) (by omega) (by omega) (by omega) (by omega)
  refine ⟨hlt, ⟨fun e => absurd e (by omega), fun e => absurd (e : false = true) Bool.false_ne_true⟩, ?_⟩
  rw [decodeWord_major w _ (by omega), major09 w f2_6]; unfold decodeMajor09
  rw [f23_9, f18_5]
  show (Option.elim (some (Instr.popc (bits w 8 5) (bits w 13 5))) _ _ : Except DecodeError Instr) = _
  rw [bits_eq w 8 d f8_5, bits_eq w 13 a f13_5]
  rfl

theorem ldhi (d : BitVec 5) (i : BitVec 19) : Statement (.ldhi d i) := by
  intro _ _
  have he : encodeFirst (.ldhi d i) = 40 + d.toNat * 256 + i.toNat * 8192 := rfl
  have ld := d.isLt
  have li := i.isLt
  have hp : payloadOf (.ldhi d i) = 0 := rfl
  rw [he, hp]
  generalize hw : 40 + d.toNat * 256 + i.toNat * 8192 = w
  have hlt : w < 2 ^ 32 := by omega
  have f0_2 : fld w 0 2 = 0 := by unfold fld; omega
  have f2_6 : fld w 2 6 = 10 := by unfold fld; omega
  have f8_5 : fld w 8 5 = d.toNat := by unfold fld; omega
  have f13_19 : fld w 13 19 = i.toNat := by unfold fld; omega
  refine ⟨hlt, ⟨fun e => absurd e (by omega), fun e => absurd (e : false = true) Bool.false_ne_true⟩, ?_⟩
  rw [decodeWord_major w _ (by omega), major0A w f2_6]; unfold decodeMajor0A
  show (Option.elim (some (Instr.ldhi (bits w 8 5) (bits w 13 19))) _ _ : Except DecodeError Instr) = _
  rw [bits_eq w 8 d f8_5, bits_eq w 13 i f13_19]
  rfl

theorem addpc (d : BitVec 5) (i : BitVec 19) : Statement (.addpc d i) := by
  intro _ _
  have he : encodeFirst (.addpc d i) = 44 + d.toNat * 256 + i.toNat * 8192 := rfl
  have ld := d.isLt
  have li := i.isLt
  have hp : payloadOf (.addpc d i) = 0 := rfl
  rw [he, hp]
  generalize hw : 44 + d.toNat * 256 + i.toNat * 8192 = w
  have hlt : w < 2 ^ 32 := by omega
  have f0_2 : fld w 0 2 = 0 := by unfold fld; omega
  have f2_6 : fld w 2 6 = 11 := by unfold fld; omega
  have f8_5 : fld w 8 5 = d.toNat := by unfold fld; omega
  have f13_19 : fld w 13 19 = i.toNat := by unfold fld; omega
  refine ⟨hlt, ⟨fun e => absurd e (by omega), fun e => absurd (e : false = true) Bool.false_ne_true⟩, ?_⟩
  rw [decodeWord_major w _ (by omega), major0B w f2_6]; unfold decodeMajor0B
  show (Option.elim (some (Instr.addpc (bits w 8 5) (bits w 13 19))) _ _ : Except DecodeError Instr) = _
  rw [bits_eq w 8 d f8_5, bits_eq w 13 i f13_19]
  rfl

theorem ldi (d : BitVec 5) (imm : BitVec 32) : Statement (.ldi d imm) := by
  intro _ _
  have he : encodeFirst (.ldi d imm) = 11 + d.toNat * 256 := rfl
  have ld := d.isLt
  have hp : payloadOf (.ldi d imm) = imm.toNat := rfl
  rw [he, hp]
  generalize hw : 11 + d.toNat * 256 = w
  have hlt : w < 2 ^ 32 := by omega
  have f0_2 : fld w 0 2 = 3 := by unfold fld; omega
  have f3_5 : fld w 3 5 = 1 := by unfold fld; omega
  have f13_19 : fld w 13 19 = 0 := by unfold fld; omega
  have f2_1 : fld w 2 1 = 0 := by unfold fld; omega
  have f8_5 : fld w 8 5 = d.toNat := by unfold fld; omega
  refine ⟨hlt, ⟨fun _ => rfl, fun _ => f0_2⟩, ?_⟩
  rw [decodeWord_long w _ f0_2]; unfold decodeLong; rw [f3_5]
  simp only [f2_1, f13_19]
  show (Option.elim (some (Instr.ldi (bits w 8 5) (BitVec.ofNat 32 imm.toNat))) _ _ : Except DecodeError Instr) = _
  rw [bits_eq w 8 d f8_5, BitVec.ofNat_toNat, BitVec.setWidth_eq]
  rfl

theorem ldiu (d : BitVec 5) (imm : BitVec 32) : Statement (.ldiu d imm) := by
  intro _ _
  have he : encodeFirst (.ldiu d imm) = 19 + d.toNat * 256 := rfl
  have ld := d.isLt
  have hp : payloadOf (.ldiu d imm) = imm.toNat := rfl
  rw [he, hp]
  generalize hw : 19 + d.toNat * 256 = w
  have hlt : w < 2 ^ 32 := by omega
  have f0_2 : fld w 0 2 = 3 := by unfold fld; omega
  have f3_5 : fld w 3 5 = 2 := by unfold fld; omega
  have f13_19 : fld w 13 19 = 0 := by unfold fld; omega
  have f2_1 : fld w 2 1 = 0 := by unfold fld; omega
  have f8_5 : fld w 8 5 = d.toNat := by unfold fld; omega
  refine ⟨hlt, ⟨fun _ => rfl, fun _ => f0_2⟩, ?_⟩
  rw [decodeWord_long w _ f0_2]; unfold decodeLong; rw [f3_5]
  simp only [f2_1, f13_19]
  show (Option.elim (some (Instr.ldiu (bits w 8 5) (BitVec.ofNat 32 imm.toNat))) _ _ : Except DecodeError Instr) = _
  rw [bits_eq w 8 d f8_5, BitVec.ofNat_toNat, BitVec.setWidth_eq]
  rfl

theorem addil (d : BitVec 5) (a : BitVec 5) (imm : BitVec 32) : Statement (.addil d a imm) := by
  intro _ _
  have he : encodeFirst (.addil d a imm) = 43 + d.toNat * 256 + a.toNat * 8192 := rfl
  have ld := d.isLt
  have la := a.isLt
  have hp : payloadOf (.addil d a imm) = imm.toNat := rfl
  rw [he, hp]
  generalize hw : 43 + d.toNat * 256 + a.toNat * 8192 = w
  have hlt : w < 2 ^ 32 := by omega
  have f0_2 : fld w 0 2 = 3 := by unfold fld; omega
  have f3_5 : fld w 3 5 = 5 := by unfold fld; omega
  have f18_14 : fld w 18 14 = 0 := by unfold fld; omega
  have f2_1 : fld w 2 1 = 0 := by unfold fld; omega
  have f8_5 : fld w 8 5 = d.toNat := by unfold fld; omega
  have f13_5 : fld w 13 5 = a.toNat := by unfold fld; omega
  refine ⟨hlt, ⟨fun _ => rfl, fun _ => f0_2⟩, ?_⟩
  rw [decodeWord_long w _ f0_2]; unfold decodeLong; rw [f3_5]
  simp only [f2_1, f18_14]
  show (Option.elim (some (Instr.addil (bits w 8 5) (bits w 13 5) (BitVec.ofNat 32 imm.toNat))) _ _ : Except DecodeError Instr) = _
  rw [bits_eq w 8 d f8_5, bits_eq w 13 a f13_5, BitVec.ofNat_toNat, BitVec.setWidth_eq]
  rfl

theorem beq (a : BitVec 5) (b : BitVec 5) (o : BitVec 14) : Statement (.beq a b o) := by
  intro _ _
  have he : encodeFirst (.beq a b o) = 48 + a.toNat * 256 + b.toNat * 8192 + o.toNat * 262144 := rfl
  have la := a.isLt
  have lb := b.isLt
  have lo := o.isLt
  have hp : payloadOf (.beq a b o) = 0 := rfl
  rw [he, hp]
  generalize hw : 48 + a.toNat * 256 + b.toNat * 8192 + o.toNat * 262144 = w
  obtain ⟨hlt, f0_2, f0_1, f2_6, f8_5, f13_5, f18_14⟩ := fields_of_imm w 48 (a.toNat) (b.toNat) (o.toNat) (by omega) (by decide) (by omega) (by omega) (by omega)
  refine ⟨hlt, ⟨fun e => absurd e (by omega), fun e => absurd (e : false = true) Bool.false_ne_true⟩, ?_⟩
  rw [decodeWord_major w _ (by omega), major0C w f2_6]; unfold decodeMajor0C
  show (Option.elim (some (Instr.beq (bits w 8 5) (bits w 13 5) (bits w 18 14))) _ _ : Except DecodeError Instr) = _
  rw [bits_eq w 8 a f8_5, bits_eq w 13 b f13_5, bits_eq w 18 o f18_14]
  rfl

theorem bne (a : BitVec 5) (b : BitVec 5) (o : BitVec 14) : Statement (.bne a b o) := by
  intro _ _
  have he : encodeFirst (.bne a b o) = 52 + a.toNat * 256 + b.toNat * 8192 + o.toNat * 262144 := rfl
  have la := a.isLt
  have lb := b.isLt
  have lo := o.isLt
  have hp : payloadOf (.bne a b o) = 0 := rfl
  rw [he, hp]
  generalize hw : 52 + a.toNat * 256 + b.toNat * 8192 + o.toNat * 262144 = w
  obtain ⟨hlt, f0_2, f0_1, f2_6, f8_5, f13_5, f18_14⟩ := fields_of_imm w 52 (a.toNat) (b.toNat) (o.toNat) (by omega) (by decide) (by omega) (by omega) (by omega)
  refine ⟨hlt, ⟨fun e => absurd e (by omega), fun e => absurd (e : false = true) Bool.false_ne_true⟩, ?_⟩
  rw [decodeWord_major w _ (by omega), major0D w f2_6]; unfold decodeMajor0D
  show (Option.elim (some (Instr.bne (bits w 8 5) (bits w 13 5) (bits w 18 14))) _ _ : Except DecodeError Instr) = _
  rw [bits_eq w 8 a f8_5, bits_eq w 13 b f13_5, bits_eq w 18 o f18_14]
  rfl

theorem blt (a : BitVec 5) (b : BitVec 5) (o : BitVec 14) : Statement (.blt a b o) := by
  intro _ _
  have he : encodeFirst (.blt a b o) = 56 + a.toNat * 256 + b.toNat * 8192 + o.toNat * 262144 := rfl
  have la := a.isLt
  have lb := b.isLt
  have lo := o.isLt
  have hp : payloadOf (.blt a b o) = 0 := rfl
  rw [he, hp]
  generalize hw : 56 + a.toNat * 256 + b.toNat * 8192 + o.toNat * 262144 = w
  obtain ⟨hlt, f0_2, f0_1, f2_6, f8_5, f13_5, f18_14⟩ := fields_of_imm w 56 (a.toNat) (b.toNat) (o.toNat) (by omega) (by decide) (by omega) (by omega) (by omega)
  refine ⟨hlt, ⟨fun e => absurd e (by omega), fun e => absurd (e : false = true) Bool.false_ne_true⟩, ?_⟩
  rw [decodeWord_major w _ (by omega), major0E w f2_6]; unfold decodeMajor0E
  show (Option.elim (some (Instr.blt (bits w 8 5) (bits w 13 5) (bits w 18 14))) _ _ : Except DecodeError Instr) = _
  rw [bits_eq w 8 a f8_5, bits_eq w 13 b f13_5, bits_eq w 18 o f18_14]
  rfl

theorem bge (a : BitVec 5) (b : BitVec 5) (o : BitVec 14) : Statement (.bge a b o) := by
  intro _ _
  have he : encodeFirst (.bge a b o) = 60 + a.toNat * 256 + b.toNat * 8192 + o.toNat * 262144 := rfl
  have la := a.isLt
  have lb := b.isLt
  have lo := o.isLt
  have hp : payloadOf (.bge a b o) = 0 := rfl
  rw [he, hp]
  generalize hw : 60 + a.toNat * 256 + b.toNat * 8192 + o.toNat * 262144 = w
  obtain ⟨hlt, f0_2, f0_1, f2_6, f8_5, f13_5, f18_14⟩ := fields_of_imm w 60 (a.toNat) (b.toNat) (o.toNat) (by omega) (by decide) (by omega) (by omega) (by omega)
  refine ⟨hlt, ⟨fun e => absurd e (by omega), fun e => absurd (e : false = true) Bool.false_ne_true⟩, ?_⟩
  rw [decodeWord_major w _ (by omega), major0F w f2_6]; unfold decodeMajor0F
  show (Option.elim (some (Instr.bge (bits w 8 5) (bits w 13 5) (bits w 18 14))) _ _ : Except DecodeError Instr) = _
  rw [bits_eq w 8 a f8_5, bits_eq w 13 b f13_5, bits_eq w 18 o f18_14]
  rfl

theorem bltu (a : BitVec 5) (b : BitVec 5) (o : BitVec 14) : Statement (.bltu a b o) := by
  intro _ _
  have he : encodeFirst (.bltu a b o) = 64 + a.toNat * 256 + b.toNat * 8192 + o.toNat * 262144 := rfl
  have la := a.isLt
  have lb := b.isLt
  have lo := o.isLt
  have hp : payloadOf (.bltu a b o) = 0 := rfl
  rw [he, hp]
  generalize hw : 64 + a.toNat * 256 + b.toNat * 8192 + o.toNat * 262144 = w
  obtain ⟨hlt, f0_2, f0_1, f2_6, f8_5, f13_5, f18_14⟩ := fields_of_imm w 64 (a.toNat) (b.toNat) (o.toNat) (by omega) (by decide) (by omega) (by omega) (by omega)
  refine ⟨hlt, ⟨fun e => absurd e (by omega), fun e => absurd (e : false = true) Bool.false_ne_true⟩, ?_⟩
  rw [decodeWord_major w _ (by omega), major10 w f2_6]; unfold decodeMajor10
  show (Option.elim (some (Instr.bltu (bits w 8 5) (bits w 13 5) (bits w 18 14))) _ _ : Except DecodeError Instr) = _
  rw [bits_eq w 8 a f8_5, bits_eq w 13 b f13_5, bits_eq w 18 o f18_14]
  rfl

theorem bgeu (a : BitVec 5) (b : BitVec 5) (o : BitVec 14) : Statement (.bgeu a b o) := by
  intro _ _
  have he : encodeFirst (.bgeu a b o) = 68 + a.toNat * 256 + b.toNat * 8192 + o.toNat * 262144 := rfl
  have la := a.isLt
  have lb := b.isLt
  have lo := o.isLt
  have hp : payloadOf (.bgeu a b o) = 0 := rfl
  rw [he, hp]
  generalize hw : 68 + a.toNat * 256 + b.toNat * 8192 + o.toNat * 262144 = w
  obtain ⟨hlt, f0_2, f0_1, f2_6, f8_5, f13_5, f18_14⟩ := fields_of_imm w 68 (a.toNat) (b.toNat) (o.toNat) (by omega) (by decide) (by omega) (by omega) (by omega)
  refine ⟨hlt, ⟨fun e => absurd e (by omega), fun e => absurd (e : false = true) Bool.false_ne_true⟩, ?_⟩
  rw [decodeWord_major w _ (by omega), major11 w f2_6]; unfold decodeMajor11
  show (Option.elim (some (Instr.bgeu (bits w 8 5) (bits w 13 5) (bits w 18 14))) _ _ : Except DecodeError Instr) = _
  rw [bits_eq w 8 a f8_5, bits_eq w 13 b f13_5, bits_eq w 18 o f18_14]
  rfl

theorem jal (d : BitVec 5) (i : BitVec 19) : Statement (.jal d i) := by
  intro _ _
  have he : encodeFirst (.jal d i) = 72 + d.toNat * 256 + i.toNat * 8192 := rfl
  have ld := d.isLt
  have li := i.isLt
  have hp : payloadOf (.jal d i) = 0 := rfl
  rw [he, hp]
  generalize hw : 72 + d.toNat * 256 + i.toNat * 8192 = w
  have hlt : w < 2 ^ 32 := by omega
  have f0_2 : fld w 0 2 = 0 := by unfold fld; omega
  have f2_6 : fld w 2 6 = 18 := by unfold fld; omega
  have f8_5 : fld w 8 5 = d.toNat := by unfold fld; omega
  have f13_19 : fld w 13 19 = i.toNat := by unfold fld; omega
  refine ⟨hlt, ⟨fun e => absurd e (by omega), fun e => absurd (e : false = true) Bool.false_ne_true⟩, ?_⟩
  rw [decodeWord_major w _ (by omega), major12 w f2_6]; unfold decodeMajor12
  show (Option.elim (some (Instr.jal (bits w 8 5) (bits w 13 19))) _ _ : Except DecodeError Instr) = _
  rw [bits_eq w 8 d f8_5, bits_eq w 13 i f13_19]
  rfl

theorem jalr (d : BitVec 5) (a : BitVec 5) (i : BitVec 14) : Statement (.jalr d a i) := by
  intro _ _
  have he : encodeFirst (.jalr d a i) = 76 + d.toNat * 256 + a.toNat * 8192 + i.toNat * 262144 := rfl
  have ld := d.isLt
  have la := a.isLt
  have li := i.isLt
  have hp : payloadOf (.jalr d a i) = 0 := rfl
  rw [he, hp]
  generalize hw : 76 + d.toNat * 256 + a.toNat * 8192 + i.toNat * 262144 = w
  obtain ⟨hlt, f0_2, f0_1, f2_6, f8_5, f13_5, f18_14⟩ := fields_of_imm w 76 (d.toNat) (a.toNat) (i.toNat) (by omega) (by decide) (by omega) (by omega) (by omega)
  refine ⟨hlt, ⟨fun e => absurd e (by omega), fun e => absurd (e : false = true) Bool.false_ne_true⟩, ?_⟩
  rw [decodeWord_major w _ (by omega), major13 w f2_6]; unfold decodeMajor13
  show (Option.elim (some (Instr.jalr (bits w 8 5) (bits w 13 5) (bits w 18 14))) _ _ : Except DecodeError Instr) = _
  rw [bits_eq w 8 d f8_5, bits_eq w 13 a f13_5, bits_eq w 18 i f18_14]
  rfl

theorem jl (d : BitVec 5) (imm : BitVec 32) : Statement (.jl d imm) := by
  intro _ _
  have he : encodeFirst (.jl d imm) = 27 + d.toNat * 256 := rfl
  have ld := d.isLt
  have hp : payloadOf (.jl d imm) = imm.toNat := rfl
  rw [he, hp]
  generalize hw : 27 + d.toNat * 256 = w
  have hlt : w < 2 ^ 32 := by omega
  have f0_2 : fld w 0 2 = 3 := by unfold fld; omega
  have f3_5 : fld w 3 5 = 3 := by unfold fld; omega
  have f13_19 : fld w 13 19 = 0 := by unfold fld; omega
  have f2_1 : fld w 2 1 = 0 := by unfold fld; omega
  have f8_5 : fld w 8 5 = d.toNat := by unfold fld; omega
  refine ⟨hlt, ⟨fun _ => rfl, fun _ => f0_2⟩, ?_⟩
  rw [decodeWord_long w _ f0_2]; unfold decodeLong; rw [f3_5]
  simp only [f2_1, f13_19]
  show (Option.elim (some (Instr.jl (bits w 8 5) (BitVec.ofNat 32 imm.toNat))) _ _ : Except DecodeError Instr) = _
  rw [bits_eq w 8 d f8_5, BitVec.ofNat_toNat, BitVec.setWidth_eq]
  rfl

theorem loop (c : BitVec 5) (l : BitVec 14) : Statement (.loop c l) := by
  intro _ _
  have he : encodeFirst (.loop c l) = 80 + c.toNat * 8192 + l.toNat * 262144 := rfl
  have lc := c.isLt
  have ll := l.isLt
  have hp : payloadOf (.loop c l) = 0 := rfl
  rw [he, hp]
  generalize hw : 80 + c.toNat * 8192 + l.toNat * 262144 = w
  obtain ⟨hlt, f0_2, f0_1, f2_6, f8_5, f13_5, f18_14⟩ := fields_of_imm w 80 (0) (c.toNat) (l.toNat) (by omega) (by decide) (by omega) (by omega) (by omega)
  refine ⟨hlt, ⟨fun e => absurd e (by omega), fun e => absurd (e : false = true) Bool.false_ne_true⟩, ?_⟩
  rw [decodeWord_major w _ (by omega), major14 w f2_6]; unfold decodeMajor14
  rw [f8_5]
  show (Option.elim (some (Instr.loop (bits w 13 5) (bits w 18 14))) _ _ : Except DecodeError Instr) = _
  rw [bits_eq w 13 c f13_5, bits_eq w 18 l f18_14]
  rfl

theorem lb (d : BitVec 5) (a : BitVec 5) (o : BitVec 9) (t : BitVec 2) : Statement (.lb d a o t) := by
  intro _ _
  have he : encodeFirst (.lb d a o t) = 84 + d.toNat * 256 + a.toNat * 8192 + o.toNat * 262144 + t.toNat * 134217728 := rfl
  have ld := d.isLt
  have la := a.isLt
  have lo := o.isLt
  have lt := t.isLt
  have hp : payloadOf (.lb d a o t) = 0 := rfl
  rw [he, hp]
  generalize hw : 84 + d.toNat * 256 + a.toNat * 8192 + o.toNat * 262144 + t.toNat * 134217728 = w
  obtain ⟨hlt, f0_2, f0_1, f2_6, f8_5, f13_5, f18_14⟩ := fields_of_imm w 84 (d.toNat) (a.toNat) (o.toNat + t.toNat * 512) (by omega) (by decide) (by omega) (by omega) (by omega)
  have f29_3 : fld w 29 3 = 0 := (fld_immediate w _ 11 3 f18_14 hlt).trans (by unfold fld; omega)
  have f18_9 : fld w 18 9 = o.toNat := (fld_immediate w _ 0 9 f18_14 hlt).trans (by unfold fld; omega)
  have f27_2 : fld w 27 2 = t.toNat := (fld_immediate w _ 9 2 f18_14 hlt).trans (by unfold fld; omega)
  refine ⟨hlt, ⟨fun e => absurd e (by omega), fun e => absurd (e : false = true) Bool.false_ne_true⟩, ?_⟩
  rw [decodeWord_major w _ (by omega), major15 w f2_6]; unfold decodeMajor15
  rw [f29_3]
  show (Option.elim (some (Instr.lb (bits w 8 5) (bits w 13 5) (bits w 18 9) (bits w 27 2))) _ _ : Except DecodeError Instr) = _
  rw [bits_eq w 8 d f8_5, bits_eq w 13 a f13_5, bits_eq w 18 o f18_9, bits_eq w 27 t f27_2]
  rfl

theorem lbu (d : BitVec 5) (a : BitVec 5) (o : BitVec 9) (t : BitVec 2) : Statement (.lbu d a o t) := by
  intro _ _
  have he : encodeFirst (.lbu d a o t) = 536870996 + d.toNat * 256 + a.toNat * 8192 + o.toNat * 262144 + t.toNat * 134217728 := rfl
  have ld := d.isLt
  have la := a.isLt
  have lo := o.isLt
  have lt := t.isLt
  have hp : payloadOf (.lbu d a o t) = 0 := rfl
  rw [he, hp]
  generalize hw : 536870996 + d.toNat * 256 + a.toNat * 8192 + o.toNat * 262144 + t.toNat * 134217728 = w
  obtain ⟨hlt, f0_2, f0_1, f2_6, f8_5, f13_5, f18_14⟩ := fields_of_imm w 84 (d.toNat) (a.toNat) (2048 + o.toNat + t.toNat * 512) (by omega) (by decide) (by omega) (by omega) (by omega)
  have f29_3 : fld w 29 3 = 1 := (fld_immediate w _ 11 3 f18_14 hlt).trans (by unfold fld; omega)
  have f18_9 : fld w 18 9 = o.toNat := (fld_immediate w _ 0 9 f18_14 hlt).trans (by unfold fld; omega)
  have f27_2 : fld w 27 2 = t.toNat := (fld_immediate w _ 9 2 f18_14 hlt).trans (by unfold fld; omega)
  refine ⟨hlt, ⟨fun e => absurd e (by omega), fun e => absurd (e : false = true) Bool.false_ne_true⟩, ?_⟩
  rw [decodeWord_major w _ (by omega), major15 w f2_6]; unfold decodeMajor15
  rw [f29_3]
  show (Option.elim (some (Instr.lbu (bits w 8 5) (bits w 13 5) (bits w 18 9) (bits w 27 2))) _ _ : Except DecodeError Instr) = _
  rw [bits_eq w 8 d f8_5, bits_eq w 13 a f13_5, bits_eq w 18 o f18_9, bits_eq w 27 t f27_2]
  rfl

theorem lh (d : BitVec 5) (a : BitVec 5) (o : BitVec 9) (t : BitVec 2) : Statement (.lh d a o t) := by
  intro _ _
  have he : encodeFirst (.lh d a o t) = 1073741908 + d.toNat * 256 + a.toNat * 8192 + o.toNat * 262144 + t.toNat * 134217728 := rfl
  have ld := d.isLt
  have la := a.isLt
  have lo := o.isLt
  have lt := t.isLt
  have hp : payloadOf (.lh d a o t) = 0 := rfl
  rw [he, hp]
  generalize hw : 1073741908 + d.toNat * 256 + a.toNat * 8192 + o.toNat * 262144 + t.toNat * 134217728 = w
  obtain ⟨hlt, f0_2, f0_1, f2_6, f8_5, f13_5, f18_14⟩ := fields_of_imm w 84 (d.toNat) (a.toNat) (4096 + o.toNat + t.toNat * 512) (by omega) (by decide) (by omega) (by omega) (by omega)
  have f29_3 : fld w 29 3 = 2 := (fld_immediate w _ 11 3 f18_14 hlt).trans (by unfold fld; omega)
  have f18_9 : fld w 18 9 = o.toNat := (fld_immediate w _ 0 9 f18_14 hlt).trans (by unfold fld; omega)
  have f27_2 : fld w 27 2 = t.toNat := (fld_immediate w _ 9 2 f18_14 hlt).trans (by unfold fld; omega)
  refine ⟨hlt, ⟨fun e => absurd e (by omega), fun e => absurd (e : false = true) Bool.false_ne_true⟩, ?_⟩
  rw [decodeWord_major w _ (by omega), major15 w f2_6]; unfold decodeMajor15
  rw [f29_3]
  show (Option.elim (some (Instr.lh (bits w 8 5) (bits w 13 5) (bits w 18 9) (bits w 27 2))) _ _ : Except DecodeError Instr) = _
  rw [bits_eq w 8 d f8_5, bits_eq w 13 a f13_5, bits_eq w 18 o f18_9, bits_eq w 27 t f27_2]
  rfl

theorem lhu (d : BitVec 5) (a : BitVec 5) (o : BitVec 9) (t : BitVec 2) : Statement (.lhu d a o t) := by
  intro _ _
  have he : encodeFirst (.lhu d a o t) = 1610612820 + d.toNat * 256 + a.toNat * 8192 + o.toNat * 262144 + t.toNat * 134217728 := rfl
  have ld := d.isLt
  have la := a.isLt
  have lo := o.isLt
  have lt := t.isLt
  have hp : payloadOf (.lhu d a o t) = 0 := rfl
  rw [he, hp]
  generalize hw : 1610612820 + d.toNat * 256 + a.toNat * 8192 + o.toNat * 262144 + t.toNat * 134217728 = w
  obtain ⟨hlt, f0_2, f0_1, f2_6, f8_5, f13_5, f18_14⟩ := fields_of_imm w 84 (d.toNat) (a.toNat) (6144 + o.toNat + t.toNat * 512) (by omega) (by decide) (by omega) (by omega) (by omega)
  have f29_3 : fld w 29 3 = 3 := (fld_immediate w _ 11 3 f18_14 hlt).trans (by unfold fld; omega)
  have f18_9 : fld w 18 9 = o.toNat := (fld_immediate w _ 0 9 f18_14 hlt).trans (by unfold fld; omega)
  have f27_2 : fld w 27 2 = t.toNat := (fld_immediate w _ 9 2 f18_14 hlt).trans (by unfold fld; omega)
  refine ⟨hlt, ⟨fun e => absurd e (by omega), fun e => absurd (e : false = true) Bool.false_ne_true⟩, ?_⟩
  rw [decodeWord_major w _ (by omega), major15 w f2_6]; unfold decodeMajor15
  rw [f29_3]
  show (Option.elim (some (Instr.lhu (bits w 8 5) (bits w 13 5) (bits w 18 9) (bits w 27 2))) _ _ : Except DecodeError Instr) = _
  rw [bits_eq w 8 d f8_5, bits_eq w 13 a f13_5, bits_eq w 18 o f18_9, bits_eq w 27 t f27_2]
  rfl

theorem lw (d : BitVec 5) (a : BitVec 5) (o : BitVec 9) (t : BitVec 2) : Statement (.lw d a o t) := by
  intro _ _
  have he : encodeFirst (.lw d a o t) = 2147483732 + d.toNat * 256 + a.toNat * 8192 + o.toNat * 262144 + t.toNat * 134217728 := rfl
  have ld := d.isLt
  have la := a.isLt
  have lo := o.isLt
  have lt := t.isLt
  have hp : payloadOf (.lw d a o t) = 0 := rfl
  rw [he, hp]
  generalize hw : 2147483732 + d.toNat * 256 + a.toNat * 8192 + o.toNat * 262144 + t.toNat * 134217728 = w
  obtain ⟨hlt, f0_2, f0_1, f2_6, f8_5, f13_5, f18_14⟩ := fields_of_imm w 84 (d.toNat) (a.toNat) (8192 + o.toNat + t.toNat * 512) (by omega) (by decide) (by omega) (by omega) (by omega)
  have f29_3 : fld w 29 3 = 4 := (fld_immediate w _ 11 3 f18_14 hlt).trans (by unfold fld; omega)
  have f18_9 : fld w 18 9 = o.toNat := (fld_immediate w _ 0 9 f18_14 hlt).trans (by unfold fld; omega)
  have f27_2 : fld w 27 2 = t.toNat := (fld_immediate w _ 9 2 f18_14 hlt).trans (by unfold fld; omega)
  refine ⟨hlt, ⟨fun e => absurd e (by omega), fun e => absurd (e : false = true) Bool.false_ne_true⟩, ?_⟩
  rw [decodeWord_major w _ (by omega), major15 w f2_6]; unfold decodeMajor15
  rw [f29_3]
  show (Option.elim (some (Instr.lw (bits w 8 5) (bits w 13 5) (bits w 18 9) (bits w 27 2))) _ _ : Except DecodeError Instr) = _
  rw [bits_eq w 8 d f8_5, bits_eq w 13 a f13_5, bits_eq w 18 o f18_9, bits_eq w 27 t f27_2]
  rfl

theorem lwu (d : BitVec 5) (a : BitVec 5) (o : BitVec 9) (t : BitVec 2) : Statement (.lwu d a o t) := by
  intro _ _
  have he : encodeFirst (.lwu d a o t) = 2684354644 + d.toNat * 256 + a.toNat * 8192 + o.toNat * 262144 + t.toNat * 134217728 := rfl
  have ld := d.isLt
  have la := a.isLt
  have lo := o.isLt
  have lt := t.isLt
  have hp : payloadOf (.lwu d a o t) = 0 := rfl
  rw [he, hp]
  generalize hw : 2684354644 + d.toNat * 256 + a.toNat * 8192 + o.toNat * 262144 + t.toNat * 134217728 = w
  obtain ⟨hlt, f0_2, f0_1, f2_6, f8_5, f13_5, f18_14⟩ := fields_of_imm w 84 (d.toNat) (a.toNat) (10240 + o.toNat + t.toNat * 512) (by omega) (by decide) (by omega) (by omega) (by omega)
  have f29_3 : fld w 29 3 = 5 := (fld_immediate w _ 11 3 f18_14 hlt).trans (by unfold fld; omega)
  have f18_9 : fld w 18 9 = o.toNat := (fld_immediate w _ 0 9 f18_14 hlt).trans (by unfold fld; omega)
  have f27_2 : fld w 27 2 = t.toNat := (fld_immediate w _ 9 2 f18_14 hlt).trans (by unfold fld; omega)
  refine ⟨hlt, ⟨fun e => absurd e (by omega), fun e => absurd (e : false = true) Bool.false_ne_true⟩, ?_⟩
  rw [decodeWord_major w _ (by omega), major15 w f2_6]; unfold decodeMajor15
  rw [f29_3]
  show (Option.elim (some (Instr.lwu (bits w 8 5) (bits w 13 5) (bits w 18 9) (bits w 27 2))) _ _ : Except DecodeError Instr) = _
  rw [bits_eq w 8 d f8_5, bits_eq w 13 a f13_5, bits_eq w 18 o f18_9, bits_eq w 27 t f27_2]
  rfl

theorem ld (d : BitVec 5) (a : BitVec 5) (o : BitVec 9) (t : BitVec 2) : Statement (.ld d a o t) := by
  intro _ _
  have he : encodeFirst (.ld d a o t) = 3221225556 + d.toNat * 256 + a.toNat * 8192 + o.toNat * 262144 + t.toNat * 134217728 := rfl
  have ld := d.isLt
  have la := a.isLt
  have lo := o.isLt
  have lt := t.isLt
  have hp : payloadOf (.ld d a o t) = 0 := rfl
  rw [he, hp]
  generalize hw : 3221225556 + d.toNat * 256 + a.toNat * 8192 + o.toNat * 262144 + t.toNat * 134217728 = w
  obtain ⟨hlt, f0_2, f0_1, f2_6, f8_5, f13_5, f18_14⟩ := fields_of_imm w 84 (d.toNat) (a.toNat) (12288 + o.toNat + t.toNat * 512) (by omega) (by decide) (by omega) (by omega) (by omega)
  have f29_3 : fld w 29 3 = 6 := (fld_immediate w _ 11 3 f18_14 hlt).trans (by unfold fld; omega)
  have f18_9 : fld w 18 9 = o.toNat := (fld_immediate w _ 0 9 f18_14 hlt).trans (by unfold fld; omega)
  have f27_2 : fld w 27 2 = t.toNat := (fld_immediate w _ 9 2 f18_14 hlt).trans (by unfold fld; omega)
  refine ⟨hlt, ⟨fun e => absurd e (by omega), fun e => absurd (e : false = true) Bool.false_ne_true⟩, ?_⟩
  rw [decodeWord_major w _ (by omega), major15 w f2_6]; unfold decodeMajor15
  rw [f29_3]
  show (Option.elim (some (Instr.ld (bits w 8 5) (bits w 13 5) (bits w 18 9) (bits w 27 2))) _ _ : Except DecodeError Instr) = _
  rw [bits_eq w 8 d f8_5, bits_eq w 13 a f13_5, bits_eq w 18 o f18_9, bits_eq w 27 t f27_2]
  rfl

theorem sb (v : BitVec 5) (a : BitVec 5) (o : BitVec 9) (t : BitVec 2) : Statement (.sb v a o t) := by
  intro _ _
  have he : encodeFirst (.sb v a o t) = 88 + v.toNat * 256 + a.toNat * 8192 + o.toNat * 262144 + t.toNat * 134217728 := rfl
  have lv := v.isLt
  have la := a.isLt
  have lo := o.isLt
  have lt := t.isLt
  have hp : payloadOf (.sb v a o t) = 0 := rfl
  rw [he, hp]
  generalize hw : 88 + v.toNat * 256 + a.toNat * 8192 + o.toNat * 262144 + t.toNat * 134217728 = w
  obtain ⟨hlt, f0_2, f0_1, f2_6, f8_5, f13_5, f18_14⟩ := fields_of_imm w 88 (v.toNat) (a.toNat) (o.toNat + t.toNat * 512) (by omega) (by decide) (by omega) (by omega) (by omega)
  have f29_3 : fld w 29 3 = 0 := (fld_immediate w _ 11 3 f18_14 hlt).trans (by unfold fld; omega)
  have f18_9 : fld w 18 9 = o.toNat := (fld_immediate w _ 0 9 f18_14 hlt).trans (by unfold fld; omega)
  have f27_2 : fld w 27 2 = t.toNat := (fld_immediate w _ 9 2 f18_14 hlt).trans (by unfold fld; omega)
  refine ⟨hlt, ⟨fun e => absurd e (by omega), fun e => absurd (e : false = true) Bool.false_ne_true⟩, ?_⟩
  rw [decodeWord_major w _ (by omega), major16 w f2_6]; unfold decodeMajor16
  rw [f29_3]
  show (Option.elim (some (Instr.sb (bits w 8 5) (bits w 13 5) (bits w 18 9) (bits w 27 2))) _ _ : Except DecodeError Instr) = _
  rw [bits_eq w 8 v f8_5, bits_eq w 13 a f13_5, bits_eq w 18 o f18_9, bits_eq w 27 t f27_2]
  rfl

theorem sh (v : BitVec 5) (a : BitVec 5) (o : BitVec 9) (t : BitVec 2) : Statement (.sh v a o t) := by
  intro _ _
  have he : encodeFirst (.sh v a o t) = 536871000 + v.toNat * 256 + a.toNat * 8192 + o.toNat * 262144 + t.toNat * 134217728 := rfl
  have lv := v.isLt
  have la := a.isLt
  have lo := o.isLt
  have lt := t.isLt
  have hp : payloadOf (.sh v a o t) = 0 := rfl
  rw [he, hp]
  generalize hw : 536871000 + v.toNat * 256 + a.toNat * 8192 + o.toNat * 262144 + t.toNat * 134217728 = w
  obtain ⟨hlt, f0_2, f0_1, f2_6, f8_5, f13_5, f18_14⟩ := fields_of_imm w 88 (v.toNat) (a.toNat) (2048 + o.toNat + t.toNat * 512) (by omega) (by decide) (by omega) (by omega) (by omega)
  have f29_3 : fld w 29 3 = 1 := (fld_immediate w _ 11 3 f18_14 hlt).trans (by unfold fld; omega)
  have f18_9 : fld w 18 9 = o.toNat := (fld_immediate w _ 0 9 f18_14 hlt).trans (by unfold fld; omega)
  have f27_2 : fld w 27 2 = t.toNat := (fld_immediate w _ 9 2 f18_14 hlt).trans (by unfold fld; omega)
  refine ⟨hlt, ⟨fun e => absurd e (by omega), fun e => absurd (e : false = true) Bool.false_ne_true⟩, ?_⟩
  rw [decodeWord_major w _ (by omega), major16 w f2_6]; unfold decodeMajor16
  rw [f29_3]
  show (Option.elim (some (Instr.sh (bits w 8 5) (bits w 13 5) (bits w 18 9) (bits w 27 2))) _ _ : Except DecodeError Instr) = _
  rw [bits_eq w 8 v f8_5, bits_eq w 13 a f13_5, bits_eq w 18 o f18_9, bits_eq w 27 t f27_2]
  rfl

theorem sw (v : BitVec 5) (a : BitVec 5) (o : BitVec 9) (t : BitVec 2) : Statement (.sw v a o t) := by
  intro _ _
  have he : encodeFirst (.sw v a o t) = 1073741912 + v.toNat * 256 + a.toNat * 8192 + o.toNat * 262144 + t.toNat * 134217728 := rfl
  have lv := v.isLt
  have la := a.isLt
  have lo := o.isLt
  have lt := t.isLt
  have hp : payloadOf (.sw v a o t) = 0 := rfl
  rw [he, hp]
  generalize hw : 1073741912 + v.toNat * 256 + a.toNat * 8192 + o.toNat * 262144 + t.toNat * 134217728 = w
  obtain ⟨hlt, f0_2, f0_1, f2_6, f8_5, f13_5, f18_14⟩ := fields_of_imm w 88 (v.toNat) (a.toNat) (4096 + o.toNat + t.toNat * 512) (by omega) (by decide) (by omega) (by omega) (by omega)
  have f29_3 : fld w 29 3 = 2 := (fld_immediate w _ 11 3 f18_14 hlt).trans (by unfold fld; omega)
  have f18_9 : fld w 18 9 = o.toNat := (fld_immediate w _ 0 9 f18_14 hlt).trans (by unfold fld; omega)
  have f27_2 : fld w 27 2 = t.toNat := (fld_immediate w _ 9 2 f18_14 hlt).trans (by unfold fld; omega)
  refine ⟨hlt, ⟨fun e => absurd e (by omega), fun e => absurd (e : false = true) Bool.false_ne_true⟩, ?_⟩
  rw [decodeWord_major w _ (by omega), major16 w f2_6]; unfold decodeMajor16
  rw [f29_3]
  show (Option.elim (some (Instr.sw (bits w 8 5) (bits w 13 5) (bits w 18 9) (bits w 27 2))) _ _ : Except DecodeError Instr) = _
  rw [bits_eq w 8 v f8_5, bits_eq w 13 a f13_5, bits_eq w 18 o f18_9, bits_eq w 27 t f27_2]
  rfl

theorem sd (v : BitVec 5) (a : BitVec 5) (o : BitVec 9) (t : BitVec 2) : Statement (.sd v a o t) := by
  intro _ _
  have he : encodeFirst (.sd v a o t) = 1610612824 + v.toNat * 256 + a.toNat * 8192 + o.toNat * 262144 + t.toNat * 134217728 := rfl
  have lv := v.isLt
  have la := a.isLt
  have lo := o.isLt
  have lt := t.isLt
  have hp : payloadOf (.sd v a o t) = 0 := rfl
  rw [he, hp]
  generalize hw : 1610612824 + v.toNat * 256 + a.toNat * 8192 + o.toNat * 262144 + t.toNat * 134217728 = w
  obtain ⟨hlt, f0_2, f0_1, f2_6, f8_5, f13_5, f18_14⟩ := fields_of_imm w 88 (v.toNat) (a.toNat) (6144 + o.toNat + t.toNat * 512) (by omega) (by decide) (by omega) (by omega) (by omega)
  have f29_3 : fld w 29 3 = 3 := (fld_immediate w _ 11 3 f18_14 hlt).trans (by unfold fld; omega)
  have f18_9 : fld w 18 9 = o.toNat := (fld_immediate w _ 0 9 f18_14 hlt).trans (by unfold fld; omega)
  have f27_2 : fld w 27 2 = t.toNat := (fld_immediate w _ 9 2 f18_14 hlt).trans (by unfold fld; omega)
  refine ⟨hlt, ⟨fun e => absurd e (by omega), fun e => absurd (e : false = true) Bool.false_ne_true⟩, ?_⟩
  rw [decodeWord_major w _ (by omega), major16 w f2_6]; unfold decodeMajor16
  rw [f29_3]
  show (Option.elim (some (Instr.sd (bits w 8 5) (bits w 13 5) (bits w 18 9) (bits w 27 2))) _ _ : Except DecodeError Instr) = _
  rw [bits_eq w 8 v f8_5, bits_eq w 13 a f13_5, bits_eq w 18 o f18_9, bits_eq w 27 t f27_2]
  rfl

theorem ldl (d : BitVec 5) (a : BitVec 5) (f : BitVec 3) (t : BitVec 2) (imm : BitVec 32) : Statement (.ldl d a f t imm) := by
  intro _ _
  have he : encodeFirst (.ldl d a f t imm) = 51 + d.toNat * 256 + a.toNat * 8192 + f.toNat * 536870912 + t.toNat * 134217728 := rfl
  have ld := d.isLt
  have la := a.isLt
  have lf := f.isLt
  have lt := t.isLt
  have hp : payloadOf (.ldl d a f t imm) = imm.toNat := rfl
  rw [he, hp]
  generalize hw : 51 + d.toNat * 256 + a.toNat * 8192 + f.toNat * 536870912 + t.toNat * 134217728 = w
  have hlt : w < 2 ^ 32 := by omega
  have f0_2 : fld w 0 2 = 3 := by unfold fld; omega
  have f3_5 : fld w 3 5 = 6 := by unfold fld; omega
  have f18_9 : fld w 18 9 = 0 := by unfold fld; omega
  have f2_1 : fld w 2 1 = 0 := by unfold fld; omega
  have f8_5 : fld w 8 5 = d.toNat := by unfold fld; omega
  have f13_5 : fld w 13 5 = a.toNat := by unfold fld; omega
  have f29_3 : fld w 29 3 = f.toNat := by unfold fld; omega
  have f27_2 : fld w 27 2 = t.toNat := by unfold fld; omega
  refine ⟨hlt, ⟨fun _ => rfl, fun _ => f0_2⟩, ?_⟩
  rw [decodeWord_long w _ f0_2]; unfold decodeLong; rw [f3_5]
  simp only [f2_1, f18_9]
  show (Option.elim (some (Instr.ldl (bits w 8 5) (bits w 13 5) (bits w 29 3) (bits w 27 2) (BitVec.ofNat 32 imm.toNat))) _ _ : Except DecodeError Instr) = _
  rw [bits_eq w 8 d f8_5, bits_eq w 13 a f13_5, bits_eq w 29 f f29_3, bits_eq w 27 t f27_2, BitVec.ofNat_toNat, BitVec.setWidth_eq]
  rfl

theorem stl (v : BitVec 5) (a : BitVec 5) (f : BitVec 3) (t : BitVec 2) (imm : BitVec 32) : Statement (.stl v a f t imm) := by
  intro _ _
  have he : encodeFirst (.stl v a f t imm) = 59 + v.toNat * 256 + a.toNat * 8192 + f.toNat * 536870912 + t.toNat * 134217728 := rfl
  have lv := v.isLt
  have la := a.isLt
  have lf := f.isLt
  have lt := t.isLt
  have hp : payloadOf (.stl v a f t imm) = imm.toNat := rfl
  rw [he, hp]
  generalize hw : 59 + v.toNat * 256 + a.toNat * 8192 + f.toNat * 536870912 + t.toNat * 134217728 = w
  have hlt : w < 2 ^ 32 := by omega
  have f0_2 : fld w 0 2 = 3 := by unfold fld; omega
  have f3_5 : fld w 3 5 = 7 := by unfold fld; omega
  have f18_9 : fld w 18 9 = 0 := by unfold fld; omega
  have f2_1 : fld w 2 1 = 0 := by unfold fld; omega
  have f8_5 : fld w 8 5 = v.toNat := by unfold fld; omega
  have f13_5 : fld w 13 5 = a.toNat := by unfold fld; omega
  have f29_3 : fld w 29 3 = f.toNat := by unfold fld; omega
  have f27_2 : fld w 27 2 = t.toNat := by unfold fld; omega
  refine ⟨hlt, ⟨fun _ => rfl, fun _ => f0_2⟩, ?_⟩
  rw [decodeWord_long w _ f0_2]; unfold decodeLong; rw [f3_5]
  simp only [f2_1, f18_9]
  show (Option.elim (some (Instr.stl (bits w 8 5) (bits w 13 5) (bits w 29 3) (bits w 27 2) (BitVec.ofNat 32 imm.toNat))) _ _ : Except DecodeError Instr) = _
  rw [bits_eq w 8 v f8_5, bits_eq w 13 a f13_5, bits_eq w 29 f f29_3, bits_eq w 27 t f27_2, BitVec.ofNat_toNat, BitVec.setWidth_eq]
  rfl

theorem ldv (d : BitVec 5) (a : BitVec 5) (o : BitVec 9) (t : BitVec 2) : Statement (.ldv d a o t) := by
  intro _ _
  have he : encodeFirst (.ldv d a o t) = 92 + d.toNat * 256 + a.toNat * 8192 + o.toNat * 262144 + t.toNat * 134217728 := rfl
  have ld := d.isLt
  have la := a.isLt
  have lo := o.isLt
  have lt := t.isLt
  have hp : payloadOf (.ldv d a o t) = 0 := rfl
  rw [he, hp]
  generalize hw : 92 + d.toNat * 256 + a.toNat * 8192 + o.toNat * 262144 + t.toNat * 134217728 = w
  obtain ⟨hlt, f0_2, f0_1, f2_6, f8_5, f13_5, f18_14⟩ := fields_of_imm w 92 (d.toNat) (a.toNat) (o.toNat + t.toNat * 512) (by omega) (by decide) (by omega) (by omega) (by omega)
  have f29_3 : fld w 29 3 = 0 := (fld_immediate w _ 11 3 f18_14 hlt).trans (by unfold fld; omega)
  have f23_4 : fld w 23 4 = (o.toNat / 32) := (fld_immediate w _ 5 4 f18_14 hlt).trans (by unfold fld; omega)
  have f18_9 : fld w 18 9 = o.toNat := (fld_immediate w _ 0 9 f18_14 hlt).trans (by unfold fld; omega)
  have f27_2 : fld w 27 2 = t.toNat := (fld_immediate w _ 9 2 f18_14 hlt).trans (by unfold fld; omega)
  refine ⟨hlt, ⟨fun e => absurd e (by omega), fun e => absurd (e : false = true) Bool.false_ne_true⟩, ?_⟩
  rw [decodeWord_major w _ (by omega), major17 w f2_6]; unfold decodeMajor17
  rw [f29_3]
  show (Option.elim (some (Instr.ldv (bits w 8 5) (bits w 13 5) (bits w 18 9) (bits w 27 2))) _ _ : Except DecodeError Instr) = _
  rw [bits_eq w 8 d f8_5, bits_eq w 13 a f13_5, bits_eq w 18 o f18_9, bits_eq w 27 t f27_2]
  rfl

theorem ldvx (d : BitVec 5) (a : BitVec 5) (i : BitVec 5) (t : BitVec 2) : Statement (.ldvx d a i t) := by
  intro _ _
  have he : encodeFirst (.ldvx d a i t) = 536871004 + d.toNat * 256 + a.toNat * 8192 + i.toNat * 262144 + t.toNat * 134217728 := rfl
  have ld := d.isLt
  have la := a.isLt
  have li := i.isLt
  have lt := t.isLt
  have hp : payloadOf (.ldvx d a i t) = 0 := rfl
  rw [he, hp]
  generalize hw : 536871004 + d.toNat * 256 + a.toNat * 8192 + i.toNat * 262144 + t.toNat * 134217728 = w
  obtain ⟨hlt, f0_2, f0_1, f2_6, f8_5, f13_5, f18_5, f23_9⟩ := fields_of_parts w (92) (d.toNat) (a.toNat) (i.toNat) (64 + t.toNat * 16) (by omega) (by omega) (by omega) (by omega) (by omega) (by omega)
  have f29_3 : fld w 29 3 = 1 := (fld_function w _ 6 3 f23_9 hlt).trans (by unfold fld; omega)
  have f23_4 : fld w 23 4 = 0 := (fld_function w _ 0 4 f23_9 hlt).trans (by unfold fld; omega)
  have f27_2 : fld w 27 2 = t.toNat := (fld_function w _ 4 2 f23_9 hlt).trans (by unfold fld; omega)
  refine ⟨hlt, ⟨fun e => absurd e (by omega), fun e => absurd (e : false = true) Bool.false_ne_true⟩, ?_⟩
  rw [decodeWord_major w _ (by omega), major17 w f2_6]; unfold decodeMajor17
  rw [f29_3, f23_4]
  show (Option.elim (some (Instr.ldvx (bits w 8 5) (bits w 13 5) (bits w 18 5) (bits w 27 2))) _ _ : Except DecodeError Instr) = _
  rw [bits_eq w 8 d f8_5, bits_eq w 13 a f13_5, bits_eq w 18 i f18_5, bits_eq w 27 t f27_2]
  rfl

theorem ldvb (d : BitVec 5) (a : BitVec 5) (o : BitVec 9) (t : BitVec 2) : Statement (.ldvb d a o t) := by
  intro _ _
  have he : encodeFirst (.ldvb d a o t) = 1073741916 + d.toNat * 256 + a.toNat * 8192 + o.toNat * 262144 + t.toNat * 134217728 := rfl
  have ld := d.isLt
  have la := a.isLt
  have lo := o.isLt
  have lt := t.isLt
  have hp : payloadOf (.ldvb d a o t) = 0 := rfl
  rw [he, hp]
  generalize hw : 1073741916 + d.toNat * 256 + a.toNat * 8192 + o.toNat * 262144 + t.toNat * 134217728 = w
  obtain ⟨hlt, f0_2, f0_1, f2_6, f8_5, f13_5, f18_14⟩ := fields_of_imm w 92 (d.toNat) (a.toNat) (4096 + o.toNat + t.toNat * 512) (by omega) (by decide) (by omega) (by omega) (by omega)
  have f29_3 : fld w 29 3 = 2 := (fld_immediate w _ 11 3 f18_14 hlt).trans (by unfold fld; omega)
  have f23_4 : fld w 23 4 = (o.toNat / 32) := (fld_immediate w _ 5 4 f18_14 hlt).trans (by unfold fld; omega)
  have f18_9 : fld w 18 9 = o.toNat := (fld_immediate w _ 0 9 f18_14 hlt).trans (by unfold fld; omega)
  have f27_2 : fld w 27 2 = t.toNat := (fld_immediate w _ 9 2 f18_14 hlt).trans (by unfold fld; omega)
  refine ⟨hlt, ⟨fun e => absurd e (by omega), fun e => absurd (e : false = true) Bool.false_ne_true⟩, ?_⟩
  rw [decodeWord_major w _ (by omega), major17 w f2_6]; unfold decodeMajor17
  rw [f29_3]
  show (Option.elim (some (Instr.ldvb (bits w 8 5) (bits w 13 5) (bits w 18 9) (bits w 27 2))) _ _ : Except DecodeError Instr) = _
  rw [bits_eq w 8 d f8_5, bits_eq w 13 a f13_5, bits_eq w 18 o f18_9, bits_eq w 27 t f27_2]
  rfl

theorem stv (v : BitVec 5) (a : BitVec 5) (o : BitVec 9) (t : BitVec 2) : Statement (.stv v a o t) := by
  intro _ _
  have he : encodeFirst (.stv v a o t) = 96 + v.toNat * 256 + a.toNat * 8192 + o.toNat * 262144 + t.toNat * 134217728 := rfl
  have lv := v.isLt
  have la := a.isLt
  have lo := o.isLt
  have lt := t.isLt
  have hp : payloadOf (.stv v a o t) = 0 := rfl
  rw [he, hp]
  generalize hw : 96 + v.toNat * 256 + a.toNat * 8192 + o.toNat * 262144 + t.toNat * 134217728 = w
  obtain ⟨hlt, f0_2, f0_1, f2_6, f8_5, f13_5, f18_14⟩ := fields_of_imm w 96 (v.toNat) (a.toNat) (o.toNat + t.toNat * 512) (by omega) (by decide) (by omega) (by omega) (by omega)
  have f29_3 : fld w 29 3 = 0 := (fld_immediate w _ 11 3 f18_14 hlt).trans (by unfold fld; omega)
  have f23_4 : fld w 23 4 = (o.toNat / 32) := (fld_immediate w _ 5 4 f18_14 hlt).trans (by unfold fld; omega)
  have f18_9 : fld w 18 9 = o.toNat := (fld_immediate w _ 0 9 f18_14 hlt).trans (by unfold fld; omega)
  have f27_2 : fld w 27 2 = t.toNat := (fld_immediate w _ 9 2 f18_14 hlt).trans (by unfold fld; omega)
  refine ⟨hlt, ⟨fun e => absurd e (by omega), fun e => absurd (e : false = true) Bool.false_ne_true⟩, ?_⟩
  rw [decodeWord_major w _ (by omega), major18 w f2_6]; unfold decodeMajor18
  rw [f29_3]
  show (Option.elim (some (Instr.stv (bits w 8 5) (bits w 13 5) (bits w 18 9) (bits w 27 2))) _ _ : Except DecodeError Instr) = _
  rw [bits_eq w 8 v f8_5, bits_eq w 13 a f13_5, bits_eq w 18 o f18_9, bits_eq w 27 t f27_2]
  rfl

theorem stvx (v : BitVec 5) (a : BitVec 5) (i : BitVec 5) (t : BitVec 2) : Statement (.stvx v a i t) := by
  intro _ _
  have he : encodeFirst (.stvx v a i t) = 536871008 + v.toNat * 256 + a.toNat * 8192 + i.toNat * 262144 + t.toNat * 134217728 := rfl
  have lv := v.isLt
  have la := a.isLt
  have li := i.isLt
  have lt := t.isLt
  have hp : payloadOf (.stvx v a i t) = 0 := rfl
  rw [he, hp]
  generalize hw : 536871008 + v.toNat * 256 + a.toNat * 8192 + i.toNat * 262144 + t.toNat * 134217728 = w
  obtain ⟨hlt, f0_2, f0_1, f2_6, f8_5, f13_5, f18_5, f23_9⟩ := fields_of_parts w (96) (v.toNat) (a.toNat) (i.toNat) (64 + t.toNat * 16) (by omega) (by omega) (by omega) (by omega) (by omega) (by omega)
  have f29_3 : fld w 29 3 = 1 := (fld_function w _ 6 3 f23_9 hlt).trans (by unfold fld; omega)
  have f23_4 : fld w 23 4 = 0 := (fld_function w _ 0 4 f23_9 hlt).trans (by unfold fld; omega)
  have f27_2 : fld w 27 2 = t.toNat := (fld_function w _ 4 2 f23_9 hlt).trans (by unfold fld; omega)
  refine ⟨hlt, ⟨fun e => absurd e (by omega), fun e => absurd (e : false = true) Bool.false_ne_true⟩, ?_⟩
  rw [decodeWord_major w _ (by omega), major18 w f2_6]; unfold decodeMajor18
  rw [f29_3, f23_4]
  show (Option.elim (some (Instr.stvx (bits w 8 5) (bits w 13 5) (bits w 18 5) (bits w 27 2))) _ _ : Except DecodeError Instr) = _
  rw [bits_eq w 8 v f8_5, bits_eq w 13 a f13_5, bits_eq w 18 i f18_5, bits_eq w 27 t f27_2]
  rfl

theorem amoadd (d : BitVec 5) (a : BitVec 5) (b : BitVec 5) (wd : Bool) (p : BitVec 2) (n : Bool) : Statement (.amoadd d a b wd p n) := by
  intro _ _
  have he : encodeFirst (.amoadd d a b wd p n) = 100 + d.toNat * 256 + a.toNat * 8192 + b.toNat * 262144 + wd.toNat * 134217728 + p.toNat * 268435456 + n.toNat * 1073741824 := rfl
  have ld := d.isLt
  have la := a.isLt
  have lb := b.isLt
  have lwd := Bool.toNat_le wd
  have lp := p.isLt
  have ln := Bool.toNat_le n
  have hp : payloadOf (.amoadd d a b wd p n) = 0 := rfl
  rw [he, hp]
  generalize hw : 100 + d.toNat * 256 + a.toNat * 8192 + b.toNat * 262144 + wd.toNat * 134217728 + p.toNat * 268435456 + n.toNat * 1073741824 = w
  obtain ⟨hlt, f0_2, f0_1, f2_6, f8_5, f13_5, f18_5, f23_9⟩ := fields_of_parts w (100) (d.toNat) (a.toNat) (b.toNat) (wd.toNat * 16 + p.toNat * 32 + n.toNat * 128) (by omega) (by omega) (by omega) (by omega) (by omega) (by omega)
  have f30_2 : fld w 30 2 = n.toNat := (fld_function w _ 7 2 f23_9 hlt).trans (by unfold fld; omega)
  have f23_4 : fld w 23 4 = 0 := (fld_function w _ 0 4 f23_9 hlt).trans (by unfold fld; omega)
  have f31_1 : fld w 31 1 = 0 := (fld_function w _ 8 1 f23_9 hlt).trans (by unfold fld; omega)
  have f23_5 : fld w 23 5 = wd.toNat * 16 := (fld_function w _ 0 5 f23_9 hlt).trans (by unfold fld; omega)
  have f27_1 : fld w 27 1 = wd.toNat := (fld_function w _ 4 1 f23_9 hlt).trans (by unfold fld; omega)
  have f28_2 : fld w 28 2 = p.toNat := (fld_function w _ 5 2 f23_9 hlt).trans (by unfold fld; omega)
  have f30_1 : fld w 30 1 = n.toNat := (fld_function w _ 7 1 f23_9 hlt).trans (by unfold fld; omega)
  refine ⟨hlt, ⟨fun e => absurd e (by omega), fun e => absurd (e : false = true) Bool.false_ne_true⟩, ?_⟩
  rw [decodeWord_major w _ (by omega), major19 w f2_6]; unfold decodeMajor19
  rw [if_neg (by omega)]
  rw [if_neg (by omega)]
  rw [if_neg (by omega)]
  rw [if_pos (by omega)]
  rw [bits_eq w 8 d f8_5, bits_eq w 13 a f13_5, bits_eq w 18 b f18_5, bit_eq w 27 wd f27_1, bits_eq w 28 p f28_2, bit_eq w 30 n f30_1]
  rfl

theorem amoand (d : BitVec 5) (a : BitVec 5) (b : BitVec 5) (wd : Bool) (p : BitVec 2) (n : Bool) : Statement (.amoand d a b wd p n) := by
  intro _ _
  have he : encodeFirst (.amoand d a b wd p n) = 8388708 + d.toNat * 256 + a.toNat * 8192 + b.toNat * 262144 + wd.toNat * 134217728 + p.toNat * 268435456 + n.toNat * 1073741824 := rfl
  have ld := d.isLt
  have la := a.isLt
  have lb := b.isLt
  have lwd := Bool.toNat_le wd
  have lp := p.isLt
  have ln := Bool.toNat_le n
  have hp : payloadOf (.amoand d a b wd p n) = 0 := rfl
  rw [he, hp]
  generalize hw : 8388708 + d.toNat * 256 + a.toNat * 8192 + b.toNat * 262144 + wd.toNat * 134217728 + p.toNat * 268435456 + n.toNat * 1073741824 = w
  obtain ⟨hlt, f0_2, f0_1, f2_6, f8_5, f13_5, f18_5, f23_9⟩ := fields_of_parts w (100) (d.toNat) (a.toNat) (b.toNat) (1 + wd.toNat * 16 + p.toNat * 32 + n.toNat * 128) (by omega) (by omega) (by omega) (by omega) (by omega) (by omega)
  have f30_2 : fld w 30 2 = n.toNat := (fld_function w _ 7 2 f23_9 hlt).trans (by unfold fld; omega)
  have f23_4 : fld w 23 4 = 1 := (fld_function w _ 0 4 f23_9 hlt).trans (by unfold fld; omega)
  have f31_1 : fld w 31 1 = 0 := (fld_function w _ 8 1 f23_9 hlt).trans (by unfold fld; omega)
  have f23_5 : fld w 23 5 = 1 + wd.toNat * 16 := (fld_function w _ 0 5 f23_9 hlt).trans (by unfold fld; omega)
  have f27_1 : fld w 27 1 = wd.toNat := (fld_function w _ 4 1 f23_9 hlt).trans (by unfold fld; omega)
  have f28_2 : fld w 28 2 = p.toNat := (fld_function w _ 5 2 f23_9 hlt).trans (by unfold fld; omega)
  have f30_1 : fld w 30 1 = n.toNat := (fld_function w _ 7 1 f23_9 hlt).trans (by unfold fld; omega)
  refine ⟨hlt, ⟨fun e => absurd e (by omega), fun e => absurd (e : false = true) Bool.false_ne_true⟩, ?_⟩
  rw [decodeWord_major w _ (by omega), major19 w f2_6]; unfold decodeMajor19
  rw [if_neg (by omega)]
  rw [if_neg (by omega)]
  rw [if_neg (by omega)]
  rw [if_neg (by omega)]
  rw [if_pos (by omega)]
  rw [bits_eq w 8 d f8_5, bits_eq w 13 a f13_5, bits_eq w 18 b f18_5, bit_eq w 27 wd f27_1, bits_eq w 28 p f28_2, bit_eq w 30 n f30_1]
  rfl

theorem amoor (d : BitVec 5) (a : BitVec 5) (b : BitVec 5) (wd : Bool) (p : BitVec 2) (n : Bool) : Statement (.amoor d a b wd p n) := by
  intro _ _
  have he : encodeFirst (.amoor d a b wd p n) = 16777316 + d.toNat * 256 + a.toNat * 8192 + b.toNat * 262144 + wd.toNat * 134217728 + p.toNat * 268435456 + n.toNat * 1073741824 := rfl
  have ld := d.isLt
  have la := a.isLt
  have lb := b.isLt
  have lwd := Bool.toNat_le wd
  have lp := p.isLt
  have ln := Bool.toNat_le n
  have hp : payloadOf (.amoor d a b wd p n) = 0 := rfl
  rw [he, hp]
  generalize hw : 16777316 + d.toNat * 256 + a.toNat * 8192 + b.toNat * 262144 + wd.toNat * 134217728 + p.toNat * 268435456 + n.toNat * 1073741824 = w
  obtain ⟨hlt, f0_2, f0_1, f2_6, f8_5, f13_5, f18_5, f23_9⟩ := fields_of_parts w (100) (d.toNat) (a.toNat) (b.toNat) (2 + wd.toNat * 16 + p.toNat * 32 + n.toNat * 128) (by omega) (by omega) (by omega) (by omega) (by omega) (by omega)
  have f30_2 : fld w 30 2 = n.toNat := (fld_function w _ 7 2 f23_9 hlt).trans (by unfold fld; omega)
  have f23_4 : fld w 23 4 = 2 := (fld_function w _ 0 4 f23_9 hlt).trans (by unfold fld; omega)
  have f31_1 : fld w 31 1 = 0 := (fld_function w _ 8 1 f23_9 hlt).trans (by unfold fld; omega)
  have f23_5 : fld w 23 5 = 2 + wd.toNat * 16 := (fld_function w _ 0 5 f23_9 hlt).trans (by unfold fld; omega)
  have f27_1 : fld w 27 1 = wd.toNat := (fld_function w _ 4 1 f23_9 hlt).trans (by unfold fld; omega)
  have f28_2 : fld w 28 2 = p.toNat := (fld_function w _ 5 2 f23_9 hlt).trans (by unfold fld; omega)
  have f30_1 : fld w 30 1 = n.toNat := (fld_function w _ 7 1 f23_9 hlt).trans (by unfold fld; omega)
  refine ⟨hlt, ⟨fun e => absurd e (by omega), fun e => absurd (e : false = true) Bool.false_ne_true⟩, ?_⟩
  rw [decodeWord_major w _ (by omega), major19 w f2_6]; unfold decodeMajor19
  rw [if_neg (by omega)]
  rw [if_neg (by omega)]
  rw [if_neg (by omega)]
  rw [if_neg (by omega)]
  rw [if_neg (by omega)]
  rw [if_pos (by omega)]
  rw [bits_eq w 8 d f8_5, bits_eq w 13 a f13_5, bits_eq w 18 b f18_5, bit_eq w 27 wd f27_1, bits_eq w 28 p f28_2, bit_eq w 30 n f30_1]
  rfl

theorem amoxor (d : BitVec 5) (a : BitVec 5) (b : BitVec 5) (wd : Bool) (p : BitVec 2) (n : Bool) : Statement (.amoxor d a b wd p n) := by
  intro _ _
  have he : encodeFirst (.amoxor d a b wd p n) = 25165924 + d.toNat * 256 + a.toNat * 8192 + b.toNat * 262144 + wd.toNat * 134217728 + p.toNat * 268435456 + n.toNat * 1073741824 := rfl
  have ld := d.isLt
  have la := a.isLt
  have lb := b.isLt
  have lwd := Bool.toNat_le wd
  have lp := p.isLt
  have ln := Bool.toNat_le n
  have hp : payloadOf (.amoxor d a b wd p n) = 0 := rfl
  rw [he, hp]
  generalize hw : 25165924 + d.toNat * 256 + a.toNat * 8192 + b.toNat * 262144 + wd.toNat * 134217728 + p.toNat * 268435456 + n.toNat * 1073741824 = w
  obtain ⟨hlt, f0_2, f0_1, f2_6, f8_5, f13_5, f18_5, f23_9⟩ := fields_of_parts w (100) (d.toNat) (a.toNat) (b.toNat) (3 + wd.toNat * 16 + p.toNat * 32 + n.toNat * 128) (by omega) (by omega) (by omega) (by omega) (by omega) (by omega)
  have f30_2 : fld w 30 2 = n.toNat := (fld_function w _ 7 2 f23_9 hlt).trans (by unfold fld; omega)
  have f23_4 : fld w 23 4 = 3 := (fld_function w _ 0 4 f23_9 hlt).trans (by unfold fld; omega)
  have f31_1 : fld w 31 1 = 0 := (fld_function w _ 8 1 f23_9 hlt).trans (by unfold fld; omega)
  have f23_5 : fld w 23 5 = 3 + wd.toNat * 16 := (fld_function w _ 0 5 f23_9 hlt).trans (by unfold fld; omega)
  have f27_1 : fld w 27 1 = wd.toNat := (fld_function w _ 4 1 f23_9 hlt).trans (by unfold fld; omega)
  have f28_2 : fld w 28 2 = p.toNat := (fld_function w _ 5 2 f23_9 hlt).trans (by unfold fld; omega)
  have f30_1 : fld w 30 1 = n.toNat := (fld_function w _ 7 1 f23_9 hlt).trans (by unfold fld; omega)
  refine ⟨hlt, ⟨fun e => absurd e (by omega), fun e => absurd (e : false = true) Bool.false_ne_true⟩, ?_⟩
  rw [decodeWord_major w _ (by omega), major19 w f2_6]; unfold decodeMajor19
  rw [if_neg (by omega)]
  rw [if_neg (by omega)]
  rw [if_neg (by omega)]
  rw [if_neg (by omega)]
  rw [if_neg (by omega)]
  rw [if_neg (by omega)]
  rw [if_pos (by omega)]
  rw [bits_eq w 8 d f8_5, bits_eq w 13 a f13_5, bits_eq w 18 b f18_5, bit_eq w 27 wd f27_1, bits_eq w 28 p f28_2, bit_eq w 30 n f30_1]
  rfl

theorem amomin (d : BitVec 5) (a : BitVec 5) (b : BitVec 5) (wd : Bool) (p : BitVec 2) (n : Bool) : Statement (.amomin d a b wd p n) := by
  intro _ _
  have he : encodeFirst (.amomin d a b wd p n) = 33554532 + d.toNat * 256 + a.toNat * 8192 + b.toNat * 262144 + wd.toNat * 134217728 + p.toNat * 268435456 + n.toNat * 1073741824 := rfl
  have ld := d.isLt
  have la := a.isLt
  have lb := b.isLt
  have lwd := Bool.toNat_le wd
  have lp := p.isLt
  have ln := Bool.toNat_le n
  have hp : payloadOf (.amomin d a b wd p n) = 0 := rfl
  rw [he, hp]
  generalize hw : 33554532 + d.toNat * 256 + a.toNat * 8192 + b.toNat * 262144 + wd.toNat * 134217728 + p.toNat * 268435456 + n.toNat * 1073741824 = w
  obtain ⟨hlt, f0_2, f0_1, f2_6, f8_5, f13_5, f18_5, f23_9⟩ := fields_of_parts w (100) (d.toNat) (a.toNat) (b.toNat) (4 + wd.toNat * 16 + p.toNat * 32 + n.toNat * 128) (by omega) (by omega) (by omega) (by omega) (by omega) (by omega)
  have f30_2 : fld w 30 2 = n.toNat := (fld_function w _ 7 2 f23_9 hlt).trans (by unfold fld; omega)
  have f23_4 : fld w 23 4 = 4 := (fld_function w _ 0 4 f23_9 hlt).trans (by unfold fld; omega)
  have f31_1 : fld w 31 1 = 0 := (fld_function w _ 8 1 f23_9 hlt).trans (by unfold fld; omega)
  have f23_5 : fld w 23 5 = 4 + wd.toNat * 16 := (fld_function w _ 0 5 f23_9 hlt).trans (by unfold fld; omega)
  have f27_1 : fld w 27 1 = wd.toNat := (fld_function w _ 4 1 f23_9 hlt).trans (by unfold fld; omega)
  have f28_2 : fld w 28 2 = p.toNat := (fld_function w _ 5 2 f23_9 hlt).trans (by unfold fld; omega)
  have f30_1 : fld w 30 1 = n.toNat := (fld_function w _ 7 1 f23_9 hlt).trans (by unfold fld; omega)
  refine ⟨hlt, ⟨fun e => absurd e (by omega), fun e => absurd (e : false = true) Bool.false_ne_true⟩, ?_⟩
  rw [decodeWord_major w _ (by omega), major19 w f2_6]; unfold decodeMajor19
  rw [if_neg (by omega)]
  rw [if_neg (by omega)]
  rw [if_neg (by omega)]
  rw [if_neg (by omega)]
  rw [if_neg (by omega)]
  rw [if_neg (by omega)]
  rw [if_neg (by omega)]
  rw [if_pos (by omega)]
  rw [bits_eq w 8 d f8_5, bits_eq w 13 a f13_5, bits_eq w 18 b f18_5, bit_eq w 27 wd f27_1, bits_eq w 28 p f28_2, bit_eq w 30 n f30_1]
  rfl

theorem amomax (d : BitVec 5) (a : BitVec 5) (b : BitVec 5) (wd : Bool) (p : BitVec 2) (n : Bool) : Statement (.amomax d a b wd p n) := by
  intro _ _
  have he : encodeFirst (.amomax d a b wd p n) = 41943140 + d.toNat * 256 + a.toNat * 8192 + b.toNat * 262144 + wd.toNat * 134217728 + p.toNat * 268435456 + n.toNat * 1073741824 := rfl
  have ld := d.isLt
  have la := a.isLt
  have lb := b.isLt
  have lwd := Bool.toNat_le wd
  have lp := p.isLt
  have ln := Bool.toNat_le n
  have hp : payloadOf (.amomax d a b wd p n) = 0 := rfl
  rw [he, hp]
  generalize hw : 41943140 + d.toNat * 256 + a.toNat * 8192 + b.toNat * 262144 + wd.toNat * 134217728 + p.toNat * 268435456 + n.toNat * 1073741824 = w
  obtain ⟨hlt, f0_2, f0_1, f2_6, f8_5, f13_5, f18_5, f23_9⟩ := fields_of_parts w (100) (d.toNat) (a.toNat) (b.toNat) (5 + wd.toNat * 16 + p.toNat * 32 + n.toNat * 128) (by omega) (by omega) (by omega) (by omega) (by omega) (by omega)
  have f30_2 : fld w 30 2 = n.toNat := (fld_function w _ 7 2 f23_9 hlt).trans (by unfold fld; omega)
  have f23_4 : fld w 23 4 = 5 := (fld_function w _ 0 4 f23_9 hlt).trans (by unfold fld; omega)
  have f31_1 : fld w 31 1 = 0 := (fld_function w _ 8 1 f23_9 hlt).trans (by unfold fld; omega)
  have f23_5 : fld w 23 5 = 5 + wd.toNat * 16 := (fld_function w _ 0 5 f23_9 hlt).trans (by unfold fld; omega)
  have f27_1 : fld w 27 1 = wd.toNat := (fld_function w _ 4 1 f23_9 hlt).trans (by unfold fld; omega)
  have f28_2 : fld w 28 2 = p.toNat := (fld_function w _ 5 2 f23_9 hlt).trans (by unfold fld; omega)
  have f30_1 : fld w 30 1 = n.toNat := (fld_function w _ 7 1 f23_9 hlt).trans (by unfold fld; omega)
  refine ⟨hlt, ⟨fun e => absurd e (by omega), fun e => absurd (e : false = true) Bool.false_ne_true⟩, ?_⟩
  rw [decodeWord_major w _ (by omega), major19 w f2_6]; unfold decodeMajor19
  rw [if_neg (by omega)]
  rw [if_neg (by omega)]
  rw [if_neg (by omega)]
  rw [if_neg (by omega)]
  rw [if_neg (by omega)]
  rw [if_neg (by omega)]
  rw [if_neg (by omega)]
  rw [if_neg (by omega)]
  rw [if_pos (by omega)]
  rw [bits_eq w 8 d f8_5, bits_eq w 13 a f13_5, bits_eq w 18 b f18_5, bit_eq w 27 wd f27_1, bits_eq w 28 p f28_2, bit_eq w 30 n f30_1]
  rfl

theorem amominu (d : BitVec 5) (a : BitVec 5) (b : BitVec 5) (wd : Bool) (p : BitVec 2) (n : Bool) : Statement (.amominu d a b wd p n) := by
  intro _ _
  have he : encodeFirst (.amominu d a b wd p n) = 50331748 + d.toNat * 256 + a.toNat * 8192 + b.toNat * 262144 + wd.toNat * 134217728 + p.toNat * 268435456 + n.toNat * 1073741824 := rfl
  have ld := d.isLt
  have la := a.isLt
  have lb := b.isLt
  have lwd := Bool.toNat_le wd
  have lp := p.isLt
  have ln := Bool.toNat_le n
  have hp : payloadOf (.amominu d a b wd p n) = 0 := rfl
  rw [he, hp]
  generalize hw : 50331748 + d.toNat * 256 + a.toNat * 8192 + b.toNat * 262144 + wd.toNat * 134217728 + p.toNat * 268435456 + n.toNat * 1073741824 = w
  obtain ⟨hlt, f0_2, f0_1, f2_6, f8_5, f13_5, f18_5, f23_9⟩ := fields_of_parts w (100) (d.toNat) (a.toNat) (b.toNat) (6 + wd.toNat * 16 + p.toNat * 32 + n.toNat * 128) (by omega) (by omega) (by omega) (by omega) (by omega) (by omega)
  have f30_2 : fld w 30 2 = n.toNat := (fld_function w _ 7 2 f23_9 hlt).trans (by unfold fld; omega)
  have f23_4 : fld w 23 4 = 6 := (fld_function w _ 0 4 f23_9 hlt).trans (by unfold fld; omega)
  have f31_1 : fld w 31 1 = 0 := (fld_function w _ 8 1 f23_9 hlt).trans (by unfold fld; omega)
  have f23_5 : fld w 23 5 = 6 + wd.toNat * 16 := (fld_function w _ 0 5 f23_9 hlt).trans (by unfold fld; omega)
  have f27_1 : fld w 27 1 = wd.toNat := (fld_function w _ 4 1 f23_9 hlt).trans (by unfold fld; omega)
  have f28_2 : fld w 28 2 = p.toNat := (fld_function w _ 5 2 f23_9 hlt).trans (by unfold fld; omega)
  have f30_1 : fld w 30 1 = n.toNat := (fld_function w _ 7 1 f23_9 hlt).trans (by unfold fld; omega)
  refine ⟨hlt, ⟨fun e => absurd e (by omega), fun e => absurd (e : false = true) Bool.false_ne_true⟩, ?_⟩
  rw [decodeWord_major w _ (by omega), major19 w f2_6]; unfold decodeMajor19
  rw [if_neg (by omega)]
  rw [if_neg (by omega)]
  rw [if_neg (by omega)]
  rw [if_neg (by omega)]
  rw [if_neg (by omega)]
  rw [if_neg (by omega)]
  rw [if_neg (by omega)]
  rw [if_neg (by omega)]
  rw [if_neg (by omega)]
  rw [if_pos (by omega)]
  rw [bits_eq w 8 d f8_5, bits_eq w 13 a f13_5, bits_eq w 18 b f18_5, bit_eq w 27 wd f27_1, bits_eq w 28 p f28_2, bit_eq w 30 n f30_1]
  rfl

theorem amomaxu (d : BitVec 5) (a : BitVec 5) (b : BitVec 5) (wd : Bool) (p : BitVec 2) (n : Bool) : Statement (.amomaxu d a b wd p n) := by
  intro _ _
  have he : encodeFirst (.amomaxu d a b wd p n) = 58720356 + d.toNat * 256 + a.toNat * 8192 + b.toNat * 262144 + wd.toNat * 134217728 + p.toNat * 268435456 + n.toNat * 1073741824 := rfl
  have ld := d.isLt
  have la := a.isLt
  have lb := b.isLt
  have lwd := Bool.toNat_le wd
  have lp := p.isLt
  have ln := Bool.toNat_le n
  have hp : payloadOf (.amomaxu d a b wd p n) = 0 := rfl
  rw [he, hp]
  generalize hw : 58720356 + d.toNat * 256 + a.toNat * 8192 + b.toNat * 262144 + wd.toNat * 134217728 + p.toNat * 268435456 + n.toNat * 1073741824 = w
  obtain ⟨hlt, f0_2, f0_1, f2_6, f8_5, f13_5, f18_5, f23_9⟩ := fields_of_parts w (100) (d.toNat) (a.toNat) (b.toNat) (7 + wd.toNat * 16 + p.toNat * 32 + n.toNat * 128) (by omega) (by omega) (by omega) (by omega) (by omega) (by omega)
  have f30_2 : fld w 30 2 = n.toNat := (fld_function w _ 7 2 f23_9 hlt).trans (by unfold fld; omega)
  have f23_4 : fld w 23 4 = 7 := (fld_function w _ 0 4 f23_9 hlt).trans (by unfold fld; omega)
  have f31_1 : fld w 31 1 = 0 := (fld_function w _ 8 1 f23_9 hlt).trans (by unfold fld; omega)
  have f23_5 : fld w 23 5 = 7 + wd.toNat * 16 := (fld_function w _ 0 5 f23_9 hlt).trans (by unfold fld; omega)
  have f27_1 : fld w 27 1 = wd.toNat := (fld_function w _ 4 1 f23_9 hlt).trans (by unfold fld; omega)
  have f28_2 : fld w 28 2 = p.toNat := (fld_function w _ 5 2 f23_9 hlt).trans (by unfold fld; omega)
  have f30_1 : fld w 30 1 = n.toNat := (fld_function w _ 7 1 f23_9 hlt).trans (by unfold fld; omega)
  refine ⟨hlt, ⟨fun e => absurd e (by omega), fun e => absurd (e : false = true) Bool.false_ne_true⟩, ?_⟩
  rw [decodeWord_major w _ (by omega), major19 w f2_6]; unfold decodeMajor19
  rw [if_neg (by omega)]
  rw [if_neg (by omega)]
  rw [if_neg (by omega)]
  rw [if_neg (by omega)]
  rw [if_neg (by omega)]
  rw [if_neg (by omega)]
  rw [if_neg (by omega)]
  rw [if_neg (by omega)]
  rw [if_neg (by omega)]
  rw [if_neg (by omega)]
  rw [if_pos (by omega)]
  rw [bits_eq w 8 d f8_5, bits_eq w 13 a f13_5, bits_eq w 18 b f18_5, bit_eq w 27 wd f27_1, bits_eq w 28 p f28_2, bit_eq w 30 n f30_1]
  rfl

theorem amoswap (d : BitVec 5) (a : BitVec 5) (b : BitVec 5) (wd : Bool) (p : BitVec 2) (n : Bool) : Statement (.amoswap d a b wd p n) := by
  intro _ _
  have he : encodeFirst (.amoswap d a b wd p n) = 67108964 + d.toNat * 256 + a.toNat * 8192 + b.toNat * 262144 + wd.toNat * 134217728 + p.toNat * 268435456 + n.toNat * 1073741824 := rfl
  have ld := d.isLt
  have la := a.isLt
  have lb := b.isLt
  have lwd := Bool.toNat_le wd
  have lp := p.isLt
  have ln := Bool.toNat_le n
  have hp : payloadOf (.amoswap d a b wd p n) = 0 := rfl
  rw [he, hp]
  generalize hw : 67108964 + d.toNat * 256 + a.toNat * 8192 + b.toNat * 262144 + wd.toNat * 134217728 + p.toNat * 268435456 + n.toNat * 1073741824 = w
  obtain ⟨hlt, f0_2, f0_1, f2_6, f8_5, f13_5, f18_5, f23_9⟩ := fields_of_parts w (100) (d.toNat) (a.toNat) (b.toNat) (8 + wd.toNat * 16 + p.toNat * 32 + n.toNat * 128) (by omega) (by omega) (by omega) (by omega) (by omega) (by omega)
  have f30_2 : fld w 30 2 = n.toNat := (fld_function w _ 7 2 f23_9 hlt).trans (by unfold fld; omega)
  have f23_4 : fld w 23 4 = 8 := (fld_function w _ 0 4 f23_9 hlt).trans (by unfold fld; omega)
  have f31_1 : fld w 31 1 = 0 := (fld_function w _ 8 1 f23_9 hlt).trans (by unfold fld; omega)
  have f23_5 : fld w 23 5 = 8 + wd.toNat * 16 := (fld_function w _ 0 5 f23_9 hlt).trans (by unfold fld; omega)
  have f27_1 : fld w 27 1 = wd.toNat := (fld_function w _ 4 1 f23_9 hlt).trans (by unfold fld; omega)
  have f28_2 : fld w 28 2 = p.toNat := (fld_function w _ 5 2 f23_9 hlt).trans (by unfold fld; omega)
  have f30_1 : fld w 30 1 = n.toNat := (fld_function w _ 7 1 f23_9 hlt).trans (by unfold fld; omega)
  refine ⟨hlt, ⟨fun e => absurd e (by omega), fun e => absurd (e : false = true) Bool.false_ne_true⟩, ?_⟩
  rw [decodeWord_major w _ (by omega), major19 w f2_6]; unfold decodeMajor19
  rw [if_neg (by omega)]
  rw [if_neg (by omega)]
  rw [if_neg (by omega)]
  rw [if_neg (by omega)]
  rw [if_neg (by omega)]
  rw [if_neg (by omega)]
  rw [if_neg (by omega)]
  rw [if_neg (by omega)]
  rw [if_neg (by omega)]
  rw [if_neg (by omega)]
  rw [if_neg (by omega)]
  rw [if_pos (by omega)]
  rw [bits_eq w 8 d f8_5, bits_eq w 13 a f13_5, bits_eq w 18 b f18_5, bit_eq w 27 wd f27_1, bits_eq w 28 p f28_2, bit_eq w 30 n f30_1]
  rfl

theorem amocas (d : BitVec 5) (a : BitVec 5) (b : BitVec 5) (wd : Bool) (p : BitVec 2) : Statement (.amocas d a b wd p) := by
  intro _ _
  have he : encodeFirst (.amocas d a b wd p) = 75497572 + d.toNat * 256 + a.toNat * 8192 + b.toNat * 262144 + wd.toNat * 134217728 + p.toNat * 268435456 := rfl
  have ld := d.isLt
  have la := a.isLt
  have lb := b.isLt
  have lwd := Bool.toNat_le wd
  have lp := p.isLt
  have hp : payloadOf (.amocas d a b wd p) = 0 := rfl
  rw [he, hp]
  generalize hw : 75497572 + d.toNat * 256 + a.toNat * 8192 + b.toNat * 262144 + wd.toNat * 134217728 + p.toNat * 268435456 = w
  obtain ⟨hlt, f0_2, f0_1, f2_6, f8_5, f13_5, f18_5, f23_9⟩ := fields_of_parts w (100) (d.toNat) (a.toNat) (b.toNat) (9 + wd.toNat * 16 + p.toNat * 32) (by omega) (by omega) (by omega) (by omega) (by omega) (by omega)
  have f30_2 : fld w 30 2 = 0 := (fld_function w _ 7 2 f23_9 hlt).trans (by unfold fld; omega)
  have f23_4 : fld w 23 4 = 9 := (fld_function w _ 0 4 f23_9 hlt).trans (by unfold fld; omega)
  have f27_1 : fld w 27 1 = wd.toNat := (fld_function w _ 4 1 f23_9 hlt).trans (by unfold fld; omega)
  have f28_2 : fld w 28 2 = p.toNat := (fld_function w _ 5 2 f23_9 hlt).trans (by unfold fld; omega)
  refine ⟨hlt, ⟨fun e => absurd e (by omega), fun e => absurd (e : false = true) Bool.false_ne_true⟩, ?_⟩
  rw [decodeWord_major w _ (by omega), major19 w f2_6]; unfold decodeMajor19
  rw [f0_1, f30_2, f23_4]
  show (Option.elim (some (Instr.amocas (bits w 8 5) (bits w 13 5) (bits w 18 5) (bit w 27) (bits w 28 2))) _ _ : Except DecodeError Instr) = _
  rw [bits_eq w 8 d f8_5, bits_eq w 13 a f13_5, bits_eq w 18 b f18_5, bit_eq w 27 wd f27_1, bits_eq w 28 p f28_2]
  rfl

theorem amofadd (g : Bool) (d : BitVec 5) (a : BitVec 5) (b : BitVec 5) (p : BitVec 2) (n : Bool) : Statement (.amofadd g d a b p n) := by
  intro _ _
  have he : encodeFirst (.amofadd g d a b p n) = 83886180 + g.toNat * 1 + d.toNat * 256 + a.toNat * 8192 + b.toNat * 262144 + p.toNat * 268435456 + n.toNat * 1073741824 := rfl
  have lg := Bool.toNat_le g
  have ld := d.isLt
  have la := a.isLt
  have lb := b.isLt
  have lp := p.isLt
  have ln := Bool.toNat_le n
  have hp : payloadOf (.amofadd g d a b p n) = 0 := rfl
  rw [he, hp]
  generalize hw : 83886180 + g.toNat * 1 + d.toNat * 256 + a.toNat * 8192 + b.toNat * 262144 + p.toNat * 268435456 + n.toNat * 1073741824 = w
  obtain ⟨hlt, f0_2, f0_1, f2_6, f8_5, f13_5, f18_5, f23_9⟩ := fields_of_parts w (100 + g.toNat) (d.toNat) (a.toNat) (b.toNat) (10 + p.toNat * 32 + n.toNat * 128) (by omega) (by omega) (by omega) (by omega) (by omega) (by omega)
  have f2_6 : fld w 2 6 = 25 := by rw [f2_6]; omega
  have f0_1 : fld w 0 1 = g.toNat := by rw [f0_1]; omega
  have f0_2 : fld w 0 2 = g.toNat := by rw [f0_2]; omega
  have f30_2 : fld w 30 2 = n.toNat := (fld_function w _ 7 2 f23_9 hlt).trans (by unfold fld; omega)
  have f23_4 : fld w 23 4 = 10 := (fld_function w _ 0 4 f23_9 hlt).trans (by unfold fld; omega)
  have f31_1 : fld w 31 1 = 0 := (fld_function w _ 8 1 f23_9 hlt).trans (by unfold fld; omega)
  have f23_5 : fld w 23 5 = 10 := (fld_function w _ 0 5 f23_9 hlt).trans (by unfold fld; omega)
  have f28_2 : fld w 28 2 = p.toNat := (fld_function w _ 5 2 f23_9 hlt).trans (by unfold fld; omega)
  have f30_1 : fld w 30 1 = n.toNat := (fld_function w _ 7 1 f23_9 hlt).trans (by unfold fld; omega)
  refine ⟨hlt, ⟨fun e => absurd e (by omega), fun e => absurd (e : false = true) Bool.false_ne_true⟩, ?_⟩
  rw [decodeWord_major w _ (by omega), major19 w f2_6]; unfold decodeMajor19
  rw [if_neg (by omega)]
  rw [if_neg (by omega)]
  rw [if_neg (by omega)]
  rw [if_neg (by omega)]
  rw [if_neg (by omega)]
  rw [if_neg (by omega)]
  rw [if_neg (by omega)]
  rw [if_neg (by omega)]
  rw [if_neg (by omega)]
  rw [if_neg (by omega)]
  rw [if_neg (by omega)]
  rw [if_neg (by omega)]
  rw [if_pos (by omega)]
  rw [bit_eq w 0 g f0_1, bits_eq w 8 d f8_5, bits_eq w 13 a f13_5, bits_eq w 18 b f18_5, bits_eq w 28 p f28_2, bit_eq w 30 n f30_1]
  rfl

theorem amofmin (d : BitVec 5) (a : BitVec 5) (b : BitVec 5) (p : BitVec 2) (n : Bool) : Statement (.amofmin d a b p n) := by
  intro _ _
  have he : encodeFirst (.amofmin d a b p n) = 92274788 + d.toNat * 256 + a.toNat * 8192 + b.toNat * 262144 + p.toNat * 268435456 + n.toNat * 1073741824 := rfl
  have ld := d.isLt
  have la := a.isLt
  have lb := b.isLt
  have lp := p.isLt
  have ln := Bool.toNat_le n
  have hp : payloadOf (.amofmin d a b p n) = 0 := rfl
  rw [he, hp]
  generalize hw : 92274788 + d.toNat * 256 + a.toNat * 8192 + b.toNat * 262144 + p.toNat * 268435456 + n.toNat * 1073741824 = w
  obtain ⟨hlt, f0_2, f0_1, f2_6, f8_5, f13_5, f18_5, f23_9⟩ := fields_of_parts w (100) (d.toNat) (a.toNat) (b.toNat) (11 + p.toNat * 32 + n.toNat * 128) (by omega) (by omega) (by omega) (by omega) (by omega) (by omega)
  have f30_2 : fld w 30 2 = n.toNat := (fld_function w _ 7 2 f23_9 hlt).trans (by unfold fld; omega)
  have f23_4 : fld w 23 4 = 11 := (fld_function w _ 0 4 f23_9 hlt).trans (by unfold fld; omega)
  have f31_1 : fld w 31 1 = 0 := (fld_function w _ 8 1 f23_9 hlt).trans (by unfold fld; omega)
  have f23_5 : fld w 23 5 = 11 := (fld_function w _ 0 5 f23_9 hlt).trans (by unfold fld; omega)
  have f28_2 : fld w 28 2 = p.toNat := (fld_function w _ 5 2 f23_9 hlt).trans (by unfold fld; omega)
  have f30_1 : fld w 30 1 = n.toNat := (fld_function w _ 7 1 f23_9 hlt).trans (by unfold fld; omega)
  refine ⟨hlt, ⟨fun e => absurd e (by omega), fun e => absurd (e : false = true) Bool.false_ne_true⟩, ?_⟩
  rw [decodeWord_major w _ (by omega), major19 w f2_6]; unfold decodeMajor19
  rw [if_neg (by omega)]
  rw [if_pos (by omega)]
  rw [bits_eq w 8 d f8_5, bits_eq w 13 a f13_5, bits_eq w 18 b f18_5, bits_eq w 28 p f28_2, bit_eq w 30 n f30_1]
  rfl

theorem amofmax (d : BitVec 5) (a : BitVec 5) (b : BitVec 5) (p : BitVec 2) (n : Bool) : Statement (.amofmax d a b p n) := by
  intro _ _
  have he : encodeFirst (.amofmax d a b p n) = 100663396 + d.toNat * 256 + a.toNat * 8192 + b.toNat * 262144 + p.toNat * 268435456 + n.toNat * 1073741824 := rfl
  have ld := d.isLt
  have la := a.isLt
  have lb := b.isLt
  have lp := p.isLt
  have ln := Bool.toNat_le n
  have hp : payloadOf (.amofmax d a b p n) = 0 := rfl
  rw [he, hp]
  generalize hw : 100663396 + d.toNat * 256 + a.toNat * 8192 + b.toNat * 262144 + p.toNat * 268435456 + n.toNat * 1073741824 = w
  obtain ⟨hlt, f0_2, f0_1, f2_6, f8_5, f13_5, f18_5, f23_9⟩ := fields_of_parts w (100) (d.toNat) (a.toNat) (b.toNat) (12 + p.toNat * 32 + n.toNat * 128) (by omega) (by omega) (by omega) (by omega) (by omega) (by omega)
  have f30_2 : fld w 30 2 = n.toNat := (fld_function w _ 7 2 f23_9 hlt).trans (by unfold fld; omega)
  have f23_4 : fld w 23 4 = 12 := (fld_function w _ 0 4 f23_9 hlt).trans (by unfold fld; omega)
  have f31_1 : fld w 31 1 = 0 := (fld_function w _ 8 1 f23_9 hlt).trans (by unfold fld; omega)
  have f23_5 : fld w 23 5 = 12 := (fld_function w _ 0 5 f23_9 hlt).trans (by unfold fld; omega)
  have f28_2 : fld w 28 2 = p.toNat := (fld_function w _ 5 2 f23_9 hlt).trans (by unfold fld; omega)
  have f30_1 : fld w 30 1 = n.toNat := (fld_function w _ 7 1 f23_9 hlt).trans (by unfold fld; omega)
  refine ⟨hlt, ⟨fun e => absurd e (by omega), fun e => absurd (e : false = true) Bool.false_ne_true⟩, ?_⟩
  rw [decodeWord_major w _ (by omega), major19 w f2_6]; unfold decodeMajor19
  rw [if_neg (by omega)]
  rw [if_neg (by omega)]
  rw [if_pos (by omega)]
  rw [bits_eq w 8 d f8_5, bits_eq w 13 a f13_5, bits_eq w 18 b f18_5, bits_eq w 28 p f28_2, bit_eq w 30 n f30_1]
  rfl

theorem nmadd (a : BitVec 5) (b : BitVec 5) (v : Bool) : Statement (.nmadd a b v) := by
  intro _ _
  have he : encodeFirst (.nmadd a b v) = 104 + a.toNat * 8192 + b.toNat * 262144 + v.toNat * 67108864 := rfl
  have la := a.isLt
  have lb := b.isLt
  have lv := Bool.toNat_le v
  have hp : payloadOf (.nmadd a b v) = 0 := rfl
  rw [he, hp]
  generalize hw : 104 + a.toNat * 8192 + b.toNat * 262144 + v.toNat * 67108864 = w
  obtain ⟨hlt, f0_2, f0_1, f2_6, f8_5, f13_5, f18_5, f23_9⟩ := fields_of_parts w (104) (0) (a.toNat) (b.toNat) (v.toNat * 8) (by omega) (by omega) (by omega) (by omega) (by omega) (by omega)
  have f27_5 : fld w 27 5 = 0 := (fld_function w _ 4 5 f23_9 hlt).trans (by unfold fld; omega)
  have f23_3 : fld w 23 3 = 0 := (fld_function w _ 0 3 f23_9 hlt).trans (by unfold fld; omega)
  have f26_1 : fld w 26 1 = v.toNat := (fld_function w _ 3 1 f23_9 hlt).trans (by unfold fld; omega)
  refine ⟨hlt, ⟨fun e => absurd e (by omega), fun e => absurd (e : false = true) Bool.false_ne_true⟩, ?_⟩
  rw [decodeWord_major w _ (by omega), major1A w f2_6]; unfold decodeMajor1A
  rw [f27_5, f23_3, f8_5]
  show (Option.elim (some (Instr.nmadd (bits w 13 5) (bits w 18 5) (bit w 26))) _ _ : Except DecodeError Instr) = _
  rw [bits_eq w 13 a f13_5, bits_eq w 18 b f18_5, bit_eq w 26 v f26_1]
  rfl

theorem nmfadd (a : BitVec 5) (b : BitVec 5) (v : Bool) : Statement (.nmfadd a b v) := by
  intro _ _
  have he : encodeFirst (.nmfadd a b v) = 8388712 + a.toNat * 8192 + b.toNat * 262144 + v.toNat * 67108864 := rfl
  have la := a.isLt
  have lb := b.isLt
  have lv := Bool.toNat_le v
  have hp : payloadOf (.nmfadd a b v) = 0 := rfl
  rw [he, hp]
  generalize hw : 8388712 + a.toNat * 8192 + b.toNat * 262144 + v.toNat * 67108864 = w
  obtain ⟨hlt, f0_2, f0_1, f2_6, f8_5, f13_5, f18_5, f23_9⟩ := fields_of_parts w (104) (0) (a.toNat) (b.toNat) (1 + v.toNat * 8) (by omega) (by omega) (by omega) (by omega) (by omega) (by omega)
  have f27_5 : fld w 27 5 = 0 := (fld_function w _ 4 5 f23_9 hlt).trans (by unfold fld; omega)
  have f23_3 : fld w 23 3 = 1 := (fld_function w _ 0 3 f23_9 hlt).trans (by unfold fld; omega)
  have f26_1 : fld w 26 1 = v.toNat := (fld_function w _ 3 1 f23_9 hlt).trans (by unfold fld; omega)
  refine ⟨hlt, ⟨fun e => absurd e (by omega), fun e => absurd (e : false = true) Bool.false_ne_true⟩, ?_⟩
  rw [decodeWord_major w _ (by omega), major1A w f2_6]; unfold decodeMajor1A
  rw [f27_5, f23_3, f8_5]
  show (Option.elim (some (Instr.nmfadd (bits w 13 5) (bits w 18 5) (bit w 26))) _ _ : Except DecodeError Instr) = _
  rw [bits_eq w 13 a f13_5, bits_eq w 18 b f18_5, bit_eq w 26 v f26_1]
  rfl

theorem nmmax (a : BitVec 5) (b : BitVec 5) (v : Bool) : Statement (.nmmax a b v) := by
  intro _ _
  have he : encodeFirst (.nmmax a b v) = 16777320 + a.toNat * 8192 + b.toNat * 262144 + v.toNat * 67108864 := rfl
  have la := a.isLt
  have lb := b.isLt
  have lv := Bool.toNat_le v
  have hp : payloadOf (.nmmax a b v) = 0 := rfl
  rw [he, hp]
  generalize hw : 16777320 + a.toNat * 8192 + b.toNat * 262144 + v.toNat * 67108864 = w
  obtain ⟨hlt, f0_2, f0_1, f2_6, f8_5, f13_5, f18_5, f23_9⟩ := fields_of_parts w (104) (0) (a.toNat) (b.toNat) (2 + v.toNat * 8) (by omega) (by omega) (by omega) (by omega) (by omega) (by omega)
  have f27_5 : fld w 27 5 = 0 := (fld_function w _ 4 5 f23_9 hlt).trans (by unfold fld; omega)
  have f23_3 : fld w 23 3 = 2 := (fld_function w _ 0 3 f23_9 hlt).trans (by unfold fld; omega)
  have f26_1 : fld w 26 1 = v.toNat := (fld_function w _ 3 1 f23_9 hlt).trans (by unfold fld; omega)
  refine ⟨hlt, ⟨fun e => absurd e (by omega), fun e => absurd (e : false = true) Bool.false_ne_true⟩, ?_⟩
  rw [decodeWord_major w _ (by omega), major1A w f2_6]; unfold decodeMajor1A
  rw [f27_5, f23_3, f8_5]
  show (Option.elim (some (Instr.nmmax (bits w 13 5) (bits w 18 5) (bit w 26))) _ _ : Except DecodeError Instr) = _
  rw [bits_eq w 13 a f13_5, bits_eq w 18 b f18_5, bit_eq w 26 v f26_1]
  rfl

theorem nmmin (a : BitVec 5) (b : BitVec 5) (v : Bool) : Statement (.nmmin a b v) := by
  intro _ _
  have he : encodeFirst (.nmmin a b v) = 25165928 + a.toNat * 8192 + b.toNat * 262144 + v.toNat * 67108864 := rfl
  have la := a.isLt
  have lb := b.isLt
  have lv := Bool.toNat_le v
  have hp : payloadOf (.nmmin a b v) = 0 := rfl
  rw [he, hp]
  generalize hw : 25165928 + a.toNat * 8192 + b.toNat * 262144 + v.toNat * 67108864 = w
  obtain ⟨hlt, f0_2, f0_1, f2_6, f8_5, f13_5, f18_5, f23_9⟩ := fields_of_parts w (104) (0) (a.toNat) (b.toNat) (3 + v.toNat * 8) (by omega) (by omega) (by omega) (by omega) (by omega) (by omega)
  have f27_5 : fld w 27 5 = 0 := (fld_function w _ 4 5 f23_9 hlt).trans (by unfold fld; omega)
  have f23_3 : fld w 23 3 = 3 := (fld_function w _ 0 3 f23_9 hlt).trans (by unfold fld; omega)
  have f26_1 : fld w 26 1 = v.toNat := (fld_function w _ 3 1 f23_9 hlt).trans (by unfold fld; omega)
  refine ⟨hlt, ⟨fun e => absurd e (by omega), fun e => absurd (e : false = true) Bool.false_ne_true⟩, ?_⟩
  rw [decodeWord_major w _ (by omega), major1A w f2_6]; unfold decodeMajor1A
  rw [f27_5, f23_3, f8_5]
  show (Option.elim (some (Instr.nmmin (bits w 13 5) (bits w 18 5) (bit w 26))) _ _ : Except DecodeError Instr) = _
  rw [bits_eq w 13 a f13_5, bits_eq w 18 b f18_5, bit_eq w 26 v f26_1]
  rfl

theorem nmor (a : BitVec 5) (b : BitVec 5) (v : Bool) : Statement (.nmor a b v) := by
  intro _ _
  have he : encodeFirst (.nmor a b v) = 33554536 + a.toNat * 8192 + b.toNat * 262144 + v.toNat * 67108864 := rfl
  have la := a.isLt
  have lb := b.isLt
  have lv := Bool.toNat_le v
  have hp : payloadOf (.nmor a b v) = 0 := rfl
  rw [he, hp]
  generalize hw : 33554536 + a.toNat * 8192 + b.toNat * 262144 + v.toNat * 67108864 = w
  obtain ⟨hlt, f0_2, f0_1, f2_6, f8_5, f13_5, f18_5, f23_9⟩ := fields_of_parts w (104) (0) (a.toNat) (b.toNat) (4 + v.toNat * 8) (by omega) (by omega) (by omega) (by omega) (by omega) (by omega)
  have f27_5 : fld w 27 5 = 0 := (fld_function w _ 4 5 f23_9 hlt).trans (by unfold fld; omega)
  have f23_3 : fld w 23 3 = 4 := (fld_function w _ 0 3 f23_9 hlt).trans (by unfold fld; omega)
  have f26_1 : fld w 26 1 = v.toNat := (fld_function w _ 3 1 f23_9 hlt).trans (by unfold fld; omega)
  refine ⟨hlt, ⟨fun e => absurd e (by omega), fun e => absurd (e : false = true) Bool.false_ne_true⟩, ?_⟩
  rw [decodeWord_major w _ (by omega), major1A w f2_6]; unfold decodeMajor1A
  rw [f27_5, f23_3, f8_5]
  show (Option.elim (some (Instr.nmor (bits w 13 5) (bits w 18 5) (bit w 26))) _ _ : Except DecodeError Instr) = _
  rw [bits_eq w 13 a f13_5, bits_eq w 18 b f18_5, bit_eq w 26 v f26_1]
  rfl

theorem lkacq (d : BitVec 5) (a : BitVec 5) (t : BitVec 5) (s : BitVec 3) : Statement (.lkacq d a t s) := by
  intro _ _
  have he : encodeFirst (.lkacq d a t s) = 108 + d.toNat * 256 + a.toNat * 8192 + t.toNat * 262144 + s.toNat * 67108864 := rfl
  have ld := d.isLt
  have la := a.isLt
  have lt := t.isLt
  have ls := s.isLt
  have hp : payloadOf (.lkacq d a t s) = 0 := rfl
  rw [he, hp]
  generalize hw : 108 + d.toNat * 256 + a.toNat * 8192 + t.toNat * 262144 + s.toNat * 67108864 = w
  obtain ⟨hlt, f0_2, f0_1, f2_6, f8_5, f13_5, f18_5, f23_9⟩ := fields_of_parts w (108) (d.toNat) (a.toNat) (t.toNat) (s.toNat * 8) (by omega) (by omega) (by omega) (by omega) (by omega) (by omega)
  have f29_3 : fld w 29 3 = 0 := (fld_function w _ 6 3 f23_9 hlt).trans (by unfold fld; omega)
  have f23_3 : fld w 23 3 = 0 := (fld_function w _ 0 3 f23_9 hlt).trans (by unfold fld; omega)
  have f26_3 : fld w 26 3 = s.toNat := (fld_function w _ 3 3 f23_9 hlt).trans (by unfold fld; omega)
  refine ⟨hlt, ⟨fun e => absurd e (by omega), fun e => absurd (e : false = true) Bool.false_ne_true⟩, ?_⟩
  rw [decodeWord_major w _ (by omega), major1B w f2_6]; unfold decodeMajor1B
  rw [if_neg (by omega)]
  rw [if_neg (by omega)]
  rw [if_neg (by omega)]
  rw [if_pos (by omega)]
  rw [bits_eq w 8 d f8_5, bits_eq w 13 a f13_5, bits_eq w 18 t f18_5, bits_eq w 26 s f26_3]
  rfl

theorem lktry (d : BitVec 5) (a : BitVec 5) (s : BitVec 3) : Statement (.lktry d a s) := by
  intro _ _
  have he : encodeFirst (.lktry d a s) = 8388716 + d.toNat * 256 + a.toNat * 8192 + s.toNat * 67108864 := rfl
  have ld := d.isLt
  have la := a.isLt
  have ls := s.isLt
  have hp : payloadOf (.lktry d a s) = 0 := rfl
  rw [he, hp]
  generalize hw : 8388716 + d.toNat * 256 + a.toNat * 8192 + s.toNat * 67108864 = w
  obtain ⟨hlt, f0_2, f0_1, f2_6, f8_5, f13_5, f18_5, f23_9⟩ := fields_of_parts w (108) (d.toNat) (a.toNat) (0) (1 + s.toNat * 8) (by omega) (by omega) (by omega) (by omega) (by omega) (by omega)
  have f29_3 : fld w 29 3 = 0 := (fld_function w _ 6 3 f23_9 hlt).trans (by unfold fld; omega)
  have f23_3 : fld w 23 3 = 1 := (fld_function w _ 0 3 f23_9 hlt).trans (by unfold fld; omega)
  have f26_3 : fld w 26 3 = s.toNat := (fld_function w _ 3 3 f23_9 hlt).trans (by unfold fld; omega)
  refine ⟨hlt, ⟨fun e => absurd e (by omega), fun e => absurd (e : false = true) Bool.false_ne_true⟩, ?_⟩
  rw [decodeWord_major w _ (by omega), major1B w f2_6]; unfold decodeMajor1B
  rw [if_neg (by omega)]
  rw [if_pos (by omega)]
  rw [bits_eq w 8 d f8_5, bits_eq w 13 a f13_5, bits_eq w 26 s f26_3]
  rfl

theorem lkrel (d : BitVec 5) (a : BitVec 5) (s : BitVec 3) : Statement (.lkrel d a s) := by
  intro _ _
  have he : encodeFirst (.lkrel d a s) = 16777324 + d.toNat * 256 + a.toNat * 8192 + s.toNat * 67108864 := rfl
  have ld := d.isLt
  have la := a.isLt
  have ls := s.isLt
  have hp : payloadOf (.lkrel d a s) = 0 := rfl
  rw [he, hp]
  generalize hw : 16777324 + d.toNat * 256 + a.toNat * 8192 + s.toNat * 67108864 = w
  obtain ⟨hlt, f0_2, f0_1, f2_6, f8_5, f13_5, f18_5, f23_9⟩ := fields_of_parts w (108) (d.toNat) (a.toNat) (0) (2 + s.toNat * 8) (by omega) (by omega) (by omega) (by omega) (by omega) (by omega)
  have f29_3 : fld w 29 3 = 0 := (fld_function w _ 6 3 f23_9 hlt).trans (by unfold fld; omega)
  have f23_3 : fld w 23 3 = 2 := (fld_function w _ 0 3 f23_9 hlt).trans (by unfold fld; omega)
  have f26_3 : fld w 26 3 = s.toNat := (fld_function w _ 3 3 f23_9 hlt).trans (by unfold fld; omega)
  refine ⟨hlt, ⟨fun e => absurd e (by omega), fun e => absurd (e : false = true) Bool.false_ne_true⟩, ?_⟩
  rw [decodeWord_major w _ (by omega), major1B w f2_6]; unfold decodeMajor1B
  rw [if_neg (by omega)]
  rw [if_neg (by omega)]
  rw [if_pos (by omega)]
  rw [bits_eq w 8 d f8_5, bits_eq w 13 a f13_5, bits_eq w 26 s f26_3]
  rfl

theorem lkstat (d : BitVec 5) (a : BitVec 5) : Statement (.lkstat d a) := by
  intro _ _
  have he : encodeFirst (.lkstat d a) = 25165932 + d.toNat * 256 + a.toNat * 8192 := rfl
  have ld := d.isLt
  have la := a.isLt
  have hp : payloadOf (.lkstat d a) = 0 := rfl
  rw [he, hp]
  generalize hw : 25165932 + d.toNat * 256 + a.toNat * 8192 = w
  obtain ⟨hlt, f0_2, f0_1, f2_6, f8_5, f13_5, f18_5, f23_9⟩ := fields_of_parts w (108) (d.toNat) (a.toNat) (0) (3) (by omega) (by omega) (by omega) (by omega) (by omega) (by omega)
  refine ⟨hlt, ⟨fun e => absurd e (by omega), fun e => absurd (e : false = true) Bool.false_ne_true⟩, ?_⟩
  rw [decodeWord_major w _ (by omega), major1B w f2_6]; unfold decodeMajor1B
  rw [f23_9, f18_5]
  show (Option.elim (some (Instr.lkstat (bits w 8 5) (bits w 13 5))) _ _ : Except DecodeError Instr) = _
  rw [bits_eq w 8 d f8_5, bits_eq w 13 a f13_5]
  rfl

theorem fence (s : BitVec 3) (l : BitVec 5) (k : BitVec 2) : Statement (.fence s l k) := by
  intro _ _
  have he : encodeFirst (.fence s l k) = 112 + s.toNat * 262144 + l.toNat * 2097152 + k.toNat * 67108864 := rfl
  have ls := s.isLt
  have ll := l.isLt
  have lk := k.isLt
  have hp : payloadOf (.fence s l k) = 0 := rfl
  rw [he, hp]
  generalize hw : 112 + s.toNat * 262144 + l.toNat * 2097152 + k.toNat * 67108864 = w
  obtain ⟨hlt, f0_2, f0_1, f2_6, f8_5, f13_5, f18_14⟩ := fields_of_imm w 112 (0) (0) (s.toNat + l.toNat * 8 + k.toNat * 256) (by omega) (by decide) (by omega) (by omega) (by omega)
  have f28_4 : fld w 28 4 = 0 := (fld_immediate w _ 10 4 f18_14 hlt).trans (by unfold fld; omega)
  have f18_3 : fld w 18 3 = s.toNat := (fld_immediate w _ 0 3 f18_14 hlt).trans (by unfold fld; omega)
  have f21_5 : fld w 21 5 = l.toNat := (fld_immediate w _ 3 5 f18_14 hlt).trans (by unfold fld; omega)
  have f26_2 : fld w 26 2 = k.toNat := (fld_immediate w _ 8 2 f18_14 hlt).trans (by unfold fld; omega)
  refine ⟨hlt, ⟨fun e => absurd e (by omega), fun e => absurd (e : false = true) Bool.false_ne_true⟩, ?_⟩
  rw [decodeWord_major w _ (by omega), major1C w f2_6]; unfold decodeMajor1C
  rw [f28_4, f13_5, f8_5]
  show (Option.elim (some (Instr.fence (bits w 18 3) (bits w 21 5) (bits w 26 2))) _ _ : Except DecodeError Instr) = _
  rw [bits_eq w 18 s f18_3, bits_eq w 21 l f21_5, bits_eq w 26 k f26_2]
  rfl

theorem xprobe (d : BitVec 5) (a : BitVec 5) : Statement (.xprobe d a) := by
  intro _ _
  have he : encodeFirst (.xprobe d a) = 116 + d.toNat * 256 + a.toNat * 8192 := rfl
  have ld := d.isLt
  have la := a.isLt
  have hp : payloadOf (.xprobe d a) = 0 := rfl
  rw [he, hp]
  generalize hw : 116 + d.toNat * 256 + a.toNat * 8192 = w
  obtain ⟨hlt, f0_2, f0_1, f2_6, f8_5, f13_5, f18_5, f23_9⟩ := fields_of_parts w (116) (d.toNat) (a.toNat) (0) (0) (by omega) (by omega) (by omega) (by omega) (by omega) (by omega)
  refine ⟨hlt, ⟨fun e => absurd e (by omega), fun e => absurd (e : false = true) Bool.false_ne_true⟩, ?_⟩
  rw [decodeWord_major w _ (by omega), major1D w f2_6]; unfold decodeMajor1D
  rw [f23_9, f18_5]
  show (Option.elim (some (Instr.xprobe (bits w 8 5) (bits w 13 5))) _ _ : Except DecodeError Instr) = _
  rw [bits_eq w 8 d f8_5, bits_eq w 13 a f13_5]
  rfl

theorem xinv (s : BitVec 5) (a : BitVec 5) : Statement (.xinv s a) := by
  intro _ _
  have he : encodeFirst (.xinv s a) = 8388724 + s.toNat * 256 + a.toNat * 8192 := rfl
  have ls := s.isLt
  have la := a.isLt
  have hp : payloadOf (.xinv s a) = 0 := rfl
  rw [he, hp]
  generalize hw : 8388724 + s.toNat * 256 + a.toNat * 8192 = w
  obtain ⟨hlt, f0_2, f0_1, f2_6, f8_5, f13_5, f18_5, f23_9⟩ := fields_of_parts w (116) (s.toNat) (a.toNat) (0) (1) (by omega) (by omega) (by omega) (by omega) (by omega) (by omega)
  refine ⟨hlt, ⟨fun e => absurd e (by omega), fun e => absurd (e : false = true) Bool.false_ne_true⟩, ?_⟩
  rw [decodeWord_major w _ (by omega), major1D w f2_6]; unfold decodeMajor1D
  rw [f23_9, f18_5]
  show (Option.elim (some (Instr.xinv (bits w 8 5) (bits w 13 5))) _ _ : Except DecodeError Instr) = _
  rw [bits_eq w 8 s f8_5, bits_eq w 13 a f13_5]
  rfl

theorem xinvas (s : BitVec 5) (a : BitVec 5) : Statement (.xinvas s a) := by
  intro _ _
  have he : encodeFirst (.xinvas s a) = 16777332 + s.toNat * 256 + a.toNat * 8192 := rfl
  have ls := s.isLt
  have la := a.isLt
  have hp : payloadOf (.xinvas s a) = 0 := rfl
  rw [he, hp]
  generalize hw : 16777332 + s.toNat * 256 + a.toNat * 8192 = w
  obtain ⟨hlt, f0_2, f0_1, f2_6, f8_5, f13_5, f18_5, f23_9⟩ := fields_of_parts w (116) (s.toNat) (a.toNat) (0) (2) (by omega) (by omega) (by omega) (by omega) (by omega) (by omega)
  refine ⟨hlt, ⟨fun e => absurd e (by omega), fun e => absurd (e : false = true) Bool.false_ne_true⟩, ?_⟩
  rw [decodeWord_major w _ (by omega), major1D w f2_6]; unfold decodeMajor1D
  rw [f23_9, f18_5]
  show (Option.elim (some (Instr.xinvas (bits w 8 5) (bits w 13 5))) _ _ : Except DecodeError Instr) = _
  rw [bits_eq w 8 s f8_5, bits_eq w 13 a f13_5]
  rfl

theorem synci (s : BitVec 5) (a : BitVec 5) (n : BitVec 5) : Statement (.synci s a n) := by
  intro _ _
  have he : encodeFirst (.synci s a n) = 25165940 + s.toNat * 256 + a.toNat * 8192 + n.toNat * 262144 := rfl
  have ls := s.isLt
  have la := a.isLt
  have ln := n.isLt
  have hp : payloadOf (.synci s a n) = 0 := rfl
  rw [he, hp]
  generalize hw : 25165940 + s.toNat * 256 + a.toNat * 8192 + n.toNat * 262144 = w
  obtain ⟨hlt, f0_2, f0_1, f2_6, f8_5, f13_5, f18_5, f23_9⟩ := fields_of_parts w (116) (s.toNat) (a.toNat) (n.toNat) (3) (by omega) (by omega) (by omega) (by omega) (by omega) (by omega)
  refine ⟨hlt, ⟨fun e => absurd e (by omega), fun e => absurd (e : false = true) Bool.false_ne_true⟩, ?_⟩
  rw [decodeWord_major w _ (by omega), major1D w f2_6]; unfold decodeMajor1D
  rw [f23_9]
  show (Option.elim (some (Instr.synci (bits w 8 5) (bits w 13 5) (bits w 18 5))) _ _ : Except DecodeError Instr) = _
  rw [bits_eq w 8 s f8_5, bits_eq w 13 a f13_5, bits_eq w 18 n f18_5]
  rfl

theorem survey (d : BitVec 5) (a : BitVec 5) (m : BitVec 5) : Statement (.survey d a m) := by
  intro _ _
  have he : encodeFirst (.survey d a m) = 33554548 + d.toNat * 256 + a.toNat * 8192 + m.toNat * 262144 := rfl
  have ld := d.isLt
  have la := a.isLt
  have lm := m.isLt
  have hp : payloadOf (.survey d a m) = 0 := rfl
  rw [he, hp]
  generalize hw : 33554548 + d.toNat * 256 + a.toNat * 8192 + m.toNat * 262144 = w
  obtain ⟨hlt, f0_2, f0_1, f2_6, f8_5, f13_5, f18_5, f23_9⟩ := fields_of_parts w (116) (d.toNat) (a.toNat) (m.toNat) (4) (by omega) (by omega) (by omega) (by omega) (by omega) (by omega)
  refine ⟨hlt, ⟨fun e => absurd e (by omega), fun e => absurd (e : false = true) Bool.false_ne_true⟩, ?_⟩
  rw [decodeWord_major w _ (by omega), major1D w f2_6]; unfold decodeMajor1D
  rw [f23_9]
  show (Option.elim (some (Instr.survey (bits w 8 5) (bits w 13 5) (bits w 18 5))) _ _ : Except DecodeError Instr) = _
  rw [bits_eq w 8 d f8_5, bits_eq w 13 a f13_5, bits_eq w 18 m f18_5]
  rfl

theorem xmig (d : BitVec 5) (a : BitVec 5) (f : BitVec 5) : Statement (.xmig d a f) := by
  intro _ _
  have he : encodeFirst (.xmig d a f) = 41943156 + d.toNat * 256 + a.toNat * 8192 + f.toNat * 262144 := rfl
  have ld := d.isLt
  have la := a.isLt
  have lf := f.isLt
  have hp : payloadOf (.xmig d a f) = 0 := rfl
  rw [he, hp]
  generalize hw : 41943156 + d.toNat * 256 + a.toNat * 8192 + f.toNat * 262144 = w
  obtain ⟨hlt, f0_2, f0_1, f2_6, f8_5, f13_5, f18_5, f23_9⟩ := fields_of_parts w (116) (d.toNat) (a.toNat) (f.toNat) (5) (by omega) (by omega) (by omega) (by omega) (by omega) (by omega)
  refine ⟨hlt, ⟨fun e => absurd e (by omega), fun e => absurd (e : false = true) Bool.false_ne_true⟩, ?_⟩
  rw [decodeWord_major w _ (by omega), major1D w f2_6]; unfold decodeMajor1D
  rw [f23_9]
  show (Option.elim (some (Instr.xmig (bits w 8 5) (bits w 13 5) (bits w 18 5))) _ _ : Except DecodeError Instr) = _
  rw [bits_eq w 8 d f8_5, bits_eq w 13 a f13_5, bits_eq w 18 f f18_5]
  rfl

theorem trap (a : BitVec 5) : Statement (.trap a) := by
  intro _ _
  have he : encodeFirst (.trap a) = 120 + a.toNat * 8192 := rfl
  have la := a.isLt
  have hp : payloadOf (.trap a) = 0 := rfl
  rw [he, hp]
  generalize hw : 120 + a.toNat * 8192 = w
  obtain ⟨hlt, f0_2, f0_1, f2_6, f8_5, f13_5, f18_5, f23_9⟩ := fields_of_parts w (120) (0) (a.toNat) (0) (0) (by omega) (by omega) (by omega) (by omega) (by omega) (by omega)
  refine ⟨hlt, ⟨fun e => absurd e (by omega), fun e => absurd (e : false = true) Bool.false_ne_true⟩, ?_⟩
  rw [decodeWord_major w _ (by omega), major1E w f2_6]; unfold decodeMajor1E
  rw [f23_9, f18_5, f8_5]
  show (Option.elim (some (Instr.trap (bits w 13 5))) _ _ : Except DecodeError Instr) = _
  rw [bits_eq w 13 a f13_5]
  rfl

theorem eret : Statement .eret := by
  intro _ _
  have he : encodeFirst (.eret : Instr) = 8388728 := rfl
  have hp : payloadOf (.eret : Instr) = 0 := rfl
  rw [he, hp]
  generalize hw : 8388728 = w
  obtain ⟨hlt, f0_2, f0_1, f2_6, f8_5, f13_5, f18_5, f23_9⟩ := fields_of_parts w (120) (0) (0) (0) (1) (by omega) (by omega) (by omega) (by omega) (by omega) (by omega)
  refine ⟨hlt, ⟨fun e => absurd e (by omega), fun e => absurd (e : false = true) Bool.false_ne_true⟩, ?_⟩
  rw [decodeWord_major w _ (by omega), major1E w f2_6]; unfold decodeMajor1E
  rw [f23_9, f18_5, f13_5, f8_5]
  show (Option.elim (some (Instr.eret)) _ _ : Except DecodeError Instr) = _
  rfl

theorem wfe (d : BitVec 5) (t : BitVec 5) : Statement (.wfe d t) := by
  intro _ _
  have he : encodeFirst (.wfe d t) = 16777336 + d.toNat * 256 + t.toNat * 8192 := rfl
  have ld := d.isLt
  have lt := t.isLt
  have hp : payloadOf (.wfe d t) = 0 := rfl
  rw [he, hp]
  generalize hw : 16777336 + d.toNat * 256 + t.toNat * 8192 = w
  obtain ⟨hlt, f0_2, f0_1, f2_6, f8_5, f13_5, f18_5, f23_9⟩ := fields_of_parts w (120) (d.toNat) (t.toNat) (0) (2) (by omega) (by omega) (by omega) (by omega) (by omega) (by omega)
  refine ⟨hlt, ⟨fun e => absurd e (by omega), fun e => absurd (e : false = true) Bool.false_ne_true⟩, ?_⟩
  rw [decodeWord_major w _ (by omega), major1E w f2_6]; unfold decodeMajor1E
  rw [f23_9, f18_5]
  show (Option.elim (some (Instr.wfe (bits w 8 5) (bits w 13 5))) _ _ : Except DecodeError Instr) = _
  rw [bits_eq w 8 d f8_5, bits_eq w 13 t f13_5]
  rfl

theorem halt : Statement .halt := by
  intro _ _
  have he : encodeFirst (.halt : Instr) = 25165944 := rfl
  have hp : payloadOf (.halt : Instr) = 0 := rfl
  rw [he, hp]
  generalize hw : 25165944 = w
  obtain ⟨hlt, f0_2, f0_1, f2_6, f8_5, f13_5, f18_5, f23_9⟩ := fields_of_parts w (120) (0) (0) (0) (3) (by omega) (by omega) (by omega) (by omega) (by omega) (by omega)
  refine ⟨hlt, ⟨fun e => absurd e (by omega), fun e => absurd (e : false = true) Bool.false_ne_true⟩, ?_⟩
  rw [decodeWord_major w _ (by omega), major1E w f2_6]; unfold decodeMajor1E
  rw [f23_9, f18_5, f13_5, f8_5]
  show (Option.elim (some (Instr.halt)) _ _ : Except DecodeError Instr) = _
  rfl

theorem brk : Statement .brk := by
  intro _ _
  have he : encodeFirst (.brk : Instr) = 33554552 := rfl
  have hp : payloadOf (.brk : Instr) = 0 := rfl
  rw [he, hp]
  generalize hw : 33554552 = w
  obtain ⟨hlt, f0_2, f0_1, f2_6, f8_5, f13_5, f18_5, f23_9⟩ := fields_of_parts w (120) (0) (0) (0) (4) (by omega) (by omega) (by omega) (by omega) (by omega) (by omega)
  refine ⟨hlt, ⟨fun e => absurd e (by omega), fun e => absurd (e : false = true) Bool.false_ne_true⟩, ?_⟩
  rw [decodeWord_major w _ (by omega), major1E w f2_6]; unfold decodeMajor1E
  rw [f23_9, f18_5, f13_5, f8_5]
  show (Option.elim (some (Instr.brk)) _ _ : Except DecodeError Instr) = _
  rfl

theorem resume (d : BitVec 5) (m : BitVec 5) : Statement (.resume d m) := by
  intro _ _
  have he : encodeFirst (.resume d m) = 41943160 + d.toNat * 256 + m.toNat * 8192 := rfl
  have ld := d.isLt
  have lm := m.isLt
  have hp : payloadOf (.resume d m) = 0 := rfl
  rw [he, hp]
  generalize hw : 41943160 + d.toNat * 256 + m.toNat * 8192 = w
  obtain ⟨hlt, f0_2, f0_1, f2_6, f8_5, f13_5, f18_5, f23_9⟩ := fields_of_parts w (120) (d.toNat) (m.toNat) (0) (5) (by omega) (by omega) (by omega) (by omega) (by omega) (by omega)
  refine ⟨hlt, ⟨fun e => absurd e (by omega), fun e => absurd (e : false = true) Bool.false_ne_true⟩, ?_⟩
  rw [decodeWord_major w _ (by omega), major1E w f2_6]; unfold decodeMajor1E
  rw [f23_9, f18_5]
  show (Option.elim (some (Instr.resume (bits w 8 5) (bits w 13 5))) _ _ : Except DecodeError Instr) = _
  rw [bits_eq w 8 d f8_5, bits_eq w 13 m f13_5]
  rfl

theorem csrrw (d : BitVec 5) (a : BitVec 5) (c : BitVec 12) : Statement (.csrrw d a c) := by
  intro _ _
  have he : encodeFirst (.csrrw d a c) = 124 + d.toNat * 256 + a.toNat * 8192 + c.toNat * 262144 := rfl
  have ld := d.isLt
  have la := a.isLt
  have lc := c.isLt
  have hp : payloadOf (.csrrw d a c) = 0 := rfl
  rw [he, hp]
  generalize hw : 124 + d.toNat * 256 + a.toNat * 8192 + c.toNat * 262144 = w
  obtain ⟨hlt, f0_2, f0_1, f2_6, f8_5, f13_5, f18_14⟩ := fields_of_imm w 124 (d.toNat) (a.toNat) (c.toNat) (by omega) (by decide) (by omega) (by omega) (by omega)
  have f30_2 : fld w 30 2 = 0 := (fld_immediate w _ 12 2 f18_14 hlt).trans (by unfold fld; omega)
  have f18_12 : fld w 18 12 = c.toNat := (fld_immediate w _ 0 12 f18_14 hlt).trans (by unfold fld; omega)
  refine ⟨hlt, ⟨fun e => absurd e (by omega), fun e => absurd (e : false = true) Bool.false_ne_true⟩, ?_⟩
  rw [decodeWord_major w _ (by omega), major1F w f2_6]; unfold decodeMajor1F
  rw [f30_2]
  show (Option.elim (some (Instr.csrrw (bits w 8 5) (bits w 13 5) (bits w 18 12))) _ _ : Except DecodeError Instr) = _
  rw [bits_eq w 8 d f8_5, bits_eq w 13 a f13_5, bits_eq w 18 c f18_12]
  rfl

theorem csrrs (d : BitVec 5) (a : BitVec 5) (c : BitVec 12) : Statement (.csrrs d a c) := by
  intro _ _
  have he : encodeFirst (.csrrs d a c) = 1073741948 + d.toNat * 256 + a.toNat * 8192 + c.toNat * 262144 := rfl
  have ld := d.isLt
  have la := a.isLt
  have lc := c.isLt
  have hp : payloadOf (.csrrs d a c) = 0 := rfl
  rw [he, hp]
  generalize hw : 1073741948 + d.toNat * 256 + a.toNat * 8192 + c.toNat * 262144 = w
  obtain ⟨hlt, f0_2, f0_1, f2_6, f8_5, f13_5, f18_14⟩ := fields_of_imm w 124 (d.toNat) (a.toNat) (4096 + c.toNat) (by omega) (by decide) (by omega) (by omega) (by omega)
  have f30_2 : fld w 30 2 = 1 := (fld_immediate w _ 12 2 f18_14 hlt).trans (by unfold fld; omega)
  have f18_12 : fld w 18 12 = c.toNat := (fld_immediate w _ 0 12 f18_14 hlt).trans (by unfold fld; omega)
  refine ⟨hlt, ⟨fun e => absurd e (by omega), fun e => absurd (e : false = true) Bool.false_ne_true⟩, ?_⟩
  rw [decodeWord_major w _ (by omega), major1F w f2_6]; unfold decodeMajor1F
  rw [f30_2]
  show (Option.elim (some (Instr.csrrs (bits w 8 5) (bits w 13 5) (bits w 18 12))) _ _ : Except DecodeError Instr) = _
  rw [bits_eq w 8 d f8_5, bits_eq w 13 a f13_5, bits_eq w 18 c f18_12]
  rfl

theorem csrrc (d : BitVec 5) (a : BitVec 5) (c : BitVec 12) : Statement (.csrrc d a c) := by
  intro _ _
  have he : encodeFirst (.csrrc d a c) = 2147483772 + d.toNat * 256 + a.toNat * 8192 + c.toNat * 262144 := rfl
  have ld := d.isLt
  have la := a.isLt
  have lc := c.isLt
  have hp : payloadOf (.csrrc d a c) = 0 := rfl
  rw [he, hp]
  generalize hw : 2147483772 + d.toNat * 256 + a.toNat * 8192 + c.toNat * 262144 = w
  obtain ⟨hlt, f0_2, f0_1, f2_6, f8_5, f13_5, f18_14⟩ := fields_of_imm w 124 (d.toNat) (a.toNat) (8192 + c.toNat) (by omega) (by decide) (by omega) (by omega) (by omega)
  have f30_2 : fld w 30 2 = 2 := (fld_immediate w _ 12 2 f18_14 hlt).trans (by unfold fld; omega)
  have f18_12 : fld w 18 12 = c.toNat := (fld_immediate w _ 0 12 f18_14 hlt).trans (by unfold fld; omega)
  refine ⟨hlt, ⟨fun e => absurd e (by omega), fun e => absurd (e : false = true) Bool.false_ne_true⟩, ?_⟩
  rw [decodeWord_major w _ (by omega), major1F w f2_6]; unfold decodeMajor1F
  rw [f30_2]
  show (Option.elim (some (Instr.csrrc (bits w 8 5) (bits w 13 5) (bits w 18 12))) _ _ : Except DecodeError Instr) = _
  rw [bits_eq w 8 d f8_5, bits_eq w 13 a f13_5, bits_eq w 18 c f18_12]
  rfl

theorem vadd (g : Bool) (d : BitVec 5) (a : BitVec 5) (b : BitVec 5) (t : BitVec 3) : Statement (.vadd g d a b t) := by
  intro _ _
  have he : encodeFirst (.vadd g d a b t) = 128 + g.toNat * 1 + d.toNat * 256 + a.toNat * 8192 + b.toNat * 262144 + t.toNat * 536870912 := rfl
  have lg := Bool.toNat_le g
  have ld := d.isLt
  have la := a.isLt
  have lb := b.isLt
  have lt := t.isLt
  have hp : payloadOf (.vadd g d a b t) = 0 := rfl
  rw [he, hp]
  generalize hw : 128 + g.toNat * 1 + d.toNat * 256 + a.toNat * 8192 + b.toNat * 262144 + t.toNat * 536870912 = w
  obtain ⟨hlt, f0_2, f0_1, f2_6, f8_5, f13_5, f18_5, f23_9⟩ := fields_of_parts w (128 + g.toNat) (d.toNat) (a.toNat) (b.toNat) (t.toNat * 64) (by omega) (by omega) (by omega) (by omega) (by omega) (by omega)
  have f2_6 : fld w 2 6 = 32 := by rw [f2_6]; omega
  have f0_1 : fld w 0 1 = g.toNat := by rw [f0_1]; omega
  have f0_2 : fld w 0 2 = g.toNat := by rw [f0_2]; omega
  have f23_6 : fld w 23 6 = 0 := (fld_function w _ 0 6 f23_9 hlt).trans (by unfold fld; omega)
  have f29_3 : fld w 29 3 = t.toNat := (fld_function w _ 6 3 f23_9 hlt).trans (by unfold fld; omega)
  refine ⟨hlt, ⟨fun e => absurd e (by omega), fun e => absurd (e : false = true) Bool.false_ne_true⟩, ?_⟩
  rw [decodeWord_major w _ (by omega), major20 w f2_6]; unfold decodeMajor20
  rw [f23_6]
  show (Option.elim (some (Instr.vadd (bit w 0) (bits w 8 5) (bits w 13 5) (bits w 18 5) (bits w 29 3))) _ _ : Except DecodeError Instr) = _
  rw [bit_eq w 0 g f0_1, bits_eq w 8 d f8_5, bits_eq w 13 a f13_5, bits_eq w 18 b f18_5, bits_eq w 29 t f29_3]
  rfl

theorem vsub (g : Bool) (d : BitVec 5) (a : BitVec 5) (b : BitVec 5) (t : BitVec 3) : Statement (.vsub g d a b t) := by
  intro _ _
  have he : encodeFirst (.vsub g d a b t) = 8388736 + g.toNat * 1 + d.toNat * 256 + a.toNat * 8192 + b.toNat * 262144 + t.toNat * 536870912 := rfl
  have lg := Bool.toNat_le g
  have ld := d.isLt
  have la := a.isLt
  have lb := b.isLt
  have lt := t.isLt
  have hp : payloadOf (.vsub g d a b t) = 0 := rfl
  rw [he, hp]
  generalize hw : 8388736 + g.toNat * 1 + d.toNat * 256 + a.toNat * 8192 + b.toNat * 262144 + t.toNat * 536870912 = w
  obtain ⟨hlt, f0_2, f0_1, f2_6, f8_5, f13_5, f18_5, f23_9⟩ := fields_of_parts w (128 + g.toNat) (d.toNat) (a.toNat) (b.toNat) (1 + t.toNat * 64) (by omega) (by omega) (by omega) (by omega) (by omega) (by omega)
  have f2_6 : fld w 2 6 = 32 := by rw [f2_6]; omega
  have f0_1 : fld w 0 1 = g.toNat := by rw [f0_1]; omega
  have f0_2 : fld w 0 2 = g.toNat := by rw [f0_2]; omega
  have f23_6 : fld w 23 6 = 1 := (fld_function w _ 0 6 f23_9 hlt).trans (by unfold fld; omega)
  have f29_3 : fld w 29 3 = t.toNat := (fld_function w _ 6 3 f23_9 hlt).trans (by unfold fld; omega)
  refine ⟨hlt, ⟨fun e => absurd e (by omega), fun e => absurd (e : false = true) Bool.false_ne_true⟩, ?_⟩
  rw [decodeWord_major w _ (by omega), major20 w f2_6]; unfold decodeMajor20
  rw [f23_6]
  show (Option.elim (some (Instr.vsub (bit w 0) (bits w 8 5) (bits w 13 5) (bits w 18 5) (bits w 29 3))) _ _ : Except DecodeError Instr) = _
  rw [bit_eq w 0 g f0_1, bits_eq w 8 d f8_5, bits_eq w 13 a f13_5, bits_eq w 18 b f18_5, bits_eq w 29 t f29_3]
  rfl

theorem vmul (g : Bool) (d : BitVec 5) (a : BitVec 5) (b : BitVec 5) (t : BitVec 3) : Statement (.vmul g d a b t) := by
  intro _ _
  have he : encodeFirst (.vmul g d a b t) = 16777344 + g.toNat * 1 + d.toNat * 256 + a.toNat * 8192 + b.toNat * 262144 + t.toNat * 536870912 := rfl
  have lg := Bool.toNat_le g
  have ld := d.isLt
  have la := a.isLt
  have lb := b.isLt
  have lt := t.isLt
  have hp : payloadOf (.vmul g d a b t) = 0 := rfl
  rw [he, hp]
  generalize hw : 16777344 + g.toNat * 1 + d.toNat * 256 + a.toNat * 8192 + b.toNat * 262144 + t.toNat * 536870912 = w
  obtain ⟨hlt, f0_2, f0_1, f2_6, f8_5, f13_5, f18_5, f23_9⟩ := fields_of_parts w (128 + g.toNat) (d.toNat) (a.toNat) (b.toNat) (2 + t.toNat * 64) (by omega) (by omega) (by omega) (by omega) (by omega) (by omega)
  have f2_6 : fld w 2 6 = 32 := by rw [f2_6]; omega
  have f0_1 : fld w 0 1 = g.toNat := by rw [f0_1]; omega
  have f0_2 : fld w 0 2 = g.toNat := by rw [f0_2]; omega
  have f23_6 : fld w 23 6 = 2 := (fld_function w _ 0 6 f23_9 hlt).trans (by unfold fld; omega)
  have f29_3 : fld w 29 3 = t.toNat := (fld_function w _ 6 3 f23_9 hlt).trans (by unfold fld; omega)
  refine ⟨hlt, ⟨fun e => absurd e (by omega), fun e => absurd (e : false = true) Bool.false_ne_true⟩, ?_⟩
  rw [decodeWord_major w _ (by omega), major20 w f2_6]; unfold decodeMajor20
  rw [f23_6]
  show (Option.elim (some (Instr.vmul (bit w 0) (bits w 8 5) (bits w 13 5) (bits w 18 5) (bits w 29 3))) _ _ : Except DecodeError Instr) = _
  rw [bit_eq w 0 g f0_1, bits_eq w 8 d f8_5, bits_eq w 13 a f13_5, bits_eq w 18 b f18_5, bits_eq w 29 t f29_3]
  rfl

theorem vfma (g : Bool) (d : BitVec 5) (a : BitVec 5) (b : BitVec 5) (t : BitVec 3) : Statement (.vfma g d a b t) := by
  intro _ _
  have he : encodeFirst (.vfma g d a b t) = 25165952 + g.toNat * 1 + d.toNat * 256 + a.toNat * 8192 + b.toNat * 262144 + t.toNat * 536870912 := rfl
  have lg := Bool.toNat_le g
  have ld := d.isLt
  have la := a.isLt
  have lb := b.isLt
  have lt := t.isLt
  have hp : payloadOf (.vfma g d a b t) = 0 := rfl
  rw [he, hp]
  generalize hw : 25165952 + g.toNat * 1 + d.toNat * 256 + a.toNat * 8192 + b.toNat * 262144 + t.toNat * 536870912 = w
  obtain ⟨hlt, f0_2, f0_1, f2_6, f8_5, f13_5, f18_5, f23_9⟩ := fields_of_parts w (128 + g.toNat) (d.toNat) (a.toNat) (b.toNat) (3 + t.toNat * 64) (by omega) (by omega) (by omega) (by omega) (by omega) (by omega)
  have f2_6 : fld w 2 6 = 32 := by rw [f2_6]; omega
  have f0_1 : fld w 0 1 = g.toNat := by rw [f0_1]; omega
  have f0_2 : fld w 0 2 = g.toNat := by rw [f0_2]; omega
  have f23_6 : fld w 23 6 = 3 := (fld_function w _ 0 6 f23_9 hlt).trans (by unfold fld; omega)
  have f29_3 : fld w 29 3 = t.toNat := (fld_function w _ 6 3 f23_9 hlt).trans (by unfold fld; omega)
  refine ⟨hlt, ⟨fun e => absurd e (by omega), fun e => absurd (e : false = true) Bool.false_ne_true⟩, ?_⟩
  rw [decodeWord_major w _ (by omega), major20 w f2_6]; unfold decodeMajor20
  rw [f23_6]
  show (Option.elim (some (Instr.vfma (bit w 0) (bits w 8 5) (bits w 13 5) (bits w 18 5) (bits w 29 3))) _ _ : Except DecodeError Instr) = _
  rw [bit_eq w 0 g f0_1, bits_eq w 8 d f8_5, bits_eq w 13 a f13_5, bits_eq w 18 b f18_5, bits_eq w 29 t f29_3]
  rfl

theorem vfms (g : Bool) (d : BitVec 5) (a : BitVec 5) (b : BitVec 5) (t : BitVec 3) : Statement (.vfms g d a b t) := by
  intro _ _
  have he : encodeFirst (.vfms g d a b t) = 33554560 + g.toNat * 1 + d.toNat * 256 + a.toNat * 8192 + b.toNat * 262144 + t.toNat * 536870912 := rfl
  have lg := Bool.toNat_le g
  have ld := d.isLt
  have la := a.isLt
  have lb := b.isLt
  have lt := t.isLt
  have hp : payloadOf (.vfms g d a b t) = 0 := rfl
  rw [he, hp]
  generalize hw : 33554560 + g.toNat * 1 + d.toNat * 256 + a.toNat * 8192 + b.toNat * 262144 + t.toNat * 536870912 = w
  obtain ⟨hlt, f0_2, f0_1, f2_6, f8_5, f13_5, f18_5, f23_9⟩ := fields_of_parts w (128 + g.toNat) (d.toNat) (a.toNat) (b.toNat) (4 + t.toNat * 64) (by omega) (by omega) (by omega) (by omega) (by omega) (by omega)
  have f2_6 : fld w 2 6 = 32 := by rw [f2_6]; omega
  have f0_1 : fld w 0 1 = g.toNat := by rw [f0_1]; omega
  have f0_2 : fld w 0 2 = g.toNat := by rw [f0_2]; omega
  have f23_6 : fld w 23 6 = 4 := (fld_function w _ 0 6 f23_9 hlt).trans (by unfold fld; omega)
  have f29_3 : fld w 29 3 = t.toNat := (fld_function w _ 6 3 f23_9 hlt).trans (by unfold fld; omega)
  refine ⟨hlt, ⟨fun e => absurd e (by omega), fun e => absurd (e : false = true) Bool.false_ne_true⟩, ?_⟩
  rw [decodeWord_major w _ (by omega), major20 w f2_6]; unfold decodeMajor20
  rw [f23_6]
  show (Option.elim (some (Instr.vfms (bit w 0) (bits w 8 5) (bits w 13 5) (bits w 18 5) (bits w 29 3))) _ _ : Except DecodeError Instr) = _
  rw [bit_eq w 0 g f0_1, bits_eq w 8 d f8_5, bits_eq w 13 a f13_5, bits_eq w 18 b f18_5, bits_eq w 29 t f29_3]
  rfl

theorem vmin (g : Bool) (d : BitVec 5) (a : BitVec 5) (b : BitVec 5) (t : BitVec 3) : Statement (.vmin g d a b t) := by
  intro _ _
  have he : encodeFirst (.vmin g d a b t) = 41943168 + g.toNat * 1 + d.toNat * 256 + a.toNat * 8192 + b.toNat * 262144 + t.toNat * 536870912 := rfl
  have lg := Bool.toNat_le g
  have ld := d.isLt
  have la := a.isLt
  have lb := b.isLt
  have lt := t.isLt
  have hp : payloadOf (.vmin g d a b t) = 0 := rfl
  rw [he, hp]
  generalize hw : 41943168 + g.toNat * 1 + d.toNat * 256 + a.toNat * 8192 + b.toNat * 262144 + t.toNat * 536870912 = w
  obtain ⟨hlt, f0_2, f0_1, f2_6, f8_5, f13_5, f18_5, f23_9⟩ := fields_of_parts w (128 + g.toNat) (d.toNat) (a.toNat) (b.toNat) (5 + t.toNat * 64) (by omega) (by omega) (by omega) (by omega) (by omega) (by omega)
  have f2_6 : fld w 2 6 = 32 := by rw [f2_6]; omega
  have f0_1 : fld w 0 1 = g.toNat := by rw [f0_1]; omega
  have f0_2 : fld w 0 2 = g.toNat := by rw [f0_2]; omega
  have f23_6 : fld w 23 6 = 5 := (fld_function w _ 0 6 f23_9 hlt).trans (by unfold fld; omega)
  have f29_3 : fld w 29 3 = t.toNat := (fld_function w _ 6 3 f23_9 hlt).trans (by unfold fld; omega)
  refine ⟨hlt, ⟨fun e => absurd e (by omega), fun e => absurd (e : false = true) Bool.false_ne_true⟩, ?_⟩
  rw [decodeWord_major w _ (by omega), major20 w f2_6]; unfold decodeMajor20
  rw [f23_6]
  show (Option.elim (some (Instr.vmin (bit w 0) (bits w 8 5) (bits w 13 5) (bits w 18 5) (bits w 29 3))) _ _ : Except DecodeError Instr) = _
  rw [bit_eq w 0 g f0_1, bits_eq w 8 d f8_5, bits_eq w 13 a f13_5, bits_eq w 18 b f18_5, bits_eq w 29 t f29_3]
  rfl

theorem vmax (g : Bool) (d : BitVec 5) (a : BitVec 5) (b : BitVec 5) (t : BitVec 3) : Statement (.vmax g d a b t) := by
  intro _ _
  have he : encodeFirst (.vmax g d a b t) = 50331776 + g.toNat * 1 + d.toNat * 256 + a.toNat * 8192 + b.toNat * 262144 + t.toNat * 536870912 := rfl
  have lg := Bool.toNat_le g
  have ld := d.isLt
  have la := a.isLt
  have lb := b.isLt
  have lt := t.isLt
  have hp : payloadOf (.vmax g d a b t) = 0 := rfl
  rw [he, hp]
  generalize hw : 50331776 + g.toNat * 1 + d.toNat * 256 + a.toNat * 8192 + b.toNat * 262144 + t.toNat * 536870912 = w
  obtain ⟨hlt, f0_2, f0_1, f2_6, f8_5, f13_5, f18_5, f23_9⟩ := fields_of_parts w (128 + g.toNat) (d.toNat) (a.toNat) (b.toNat) (6 + t.toNat * 64) (by omega) (by omega) (by omega) (by omega) (by omega) (by omega)
  have f2_6 : fld w 2 6 = 32 := by rw [f2_6]; omega
  have f0_1 : fld w 0 1 = g.toNat := by rw [f0_1]; omega
  have f0_2 : fld w 0 2 = g.toNat := by rw [f0_2]; omega
  have f23_6 : fld w 23 6 = 6 := (fld_function w _ 0 6 f23_9 hlt).trans (by unfold fld; omega)
  have f29_3 : fld w 29 3 = t.toNat := (fld_function w _ 6 3 f23_9 hlt).trans (by unfold fld; omega)
  refine ⟨hlt, ⟨fun e => absurd e (by omega), fun e => absurd (e : false = true) Bool.false_ne_true⟩, ?_⟩
  rw [decodeWord_major w _ (by omega), major20 w f2_6]; unfold decodeMajor20
  rw [f23_6]
  show (Option.elim (some (Instr.vmax (bit w 0) (bits w 8 5) (bits w 13 5) (bits w 18 5) (bits w 29 3))) _ _ : Except DecodeError Instr) = _
  rw [bit_eq w 0 g f0_1, bits_eq w 8 d f8_5, bits_eq w 13 a f13_5, bits_eq w 18 b f18_5, bits_eq w 29 t f29_3]
  rfl

theorem vabs (g : Bool) (d : BitVec 5) (a : BitVec 5) (t : BitVec 3) : Statement (.vabs g d a t) := by
  intro _ _
  have he : encodeFirst (.vabs g d a t) = 58720384 + g.toNat * 1 + d.toNat * 256 + a.toNat * 8192 + t.toNat * 536870912 := rfl
  have lg := Bool.toNat_le g
  have ld := d.isLt
  have la := a.isLt
  have lt := t.isLt
  have hp : payloadOf (.vabs g d a t) = 0 := rfl
  rw [he, hp]
  generalize hw : 58720384 + g.toNat * 1 + d.toNat * 256 + a.toNat * 8192 + t.toNat * 536870912 = w
  obtain ⟨hlt, f0_2, f0_1, f2_6, f8_5, f13_5, f18_5, f23_9⟩ := fields_of_parts w (128 + g.toNat) (d.toNat) (a.toNat) (0) (7 + t.toNat * 64) (by omega) (by omega) (by omega) (by omega) (by omega) (by omega)
  have f2_6 : fld w 2 6 = 32 := by rw [f2_6]; omega
  have f0_1 : fld w 0 1 = g.toNat := by rw [f0_1]; omega
  have f0_2 : fld w 0 2 = g.toNat := by rw [f0_2]; omega
  have f23_6 : fld w 23 6 = 7 := (fld_function w _ 0 6 f23_9 hlt).trans (by unfold fld; omega)
  have f29_3 : fld w 29 3 = t.toNat := (fld_function w _ 6 3 f23_9 hlt).trans (by unfold fld; omega)
  refine ⟨hlt, ⟨fun e => absurd e (by omega), fun e => absurd (e : false = true) Bool.false_ne_true⟩, ?_⟩
  rw [decodeWord_major w _ (by omega), major20 w f2_6]; unfold decodeMajor20
  rw [f23_6, f18_5]
  show (Option.elim (some (Instr.vabs (bit w 0) (bits w 8 5) (bits w 13 5) (bits w 29 3))) _ _ : Except DecodeError Instr) = _
  rw [bit_eq w 0 g f0_1, bits_eq w 8 d f8_5, bits_eq w 13 a f13_5, bits_eq w 29 t f29_3]
  rfl

theorem vneg (g : Bool) (d : BitVec 5) (a : BitVec 5) (t : BitVec 3) : Statement (.vneg g d a t) := by
  intro _ _
  have he : encodeFirst (.vneg g d a t) = 67108992 + g.toNat * 1 + d.toNat * 256 + a.toNat * 8192 + t.toNat * 536870912 := rfl
  have lg := Bool.toNat_le g
  have ld := d.isLt
  have la := a.isLt
  have lt := t.isLt
  have hp : payloadOf (.vneg g d a t) = 0 := rfl
  rw [he, hp]
  generalize hw : 67108992 + g.toNat * 1 + d.toNat * 256 + a.toNat * 8192 + t.toNat * 536870912 = w
  obtain ⟨hlt, f0_2, f0_1, f2_6, f8_5, f13_5, f18_5, f23_9⟩ := fields_of_parts w (128 + g.toNat) (d.toNat) (a.toNat) (0) (8 + t.toNat * 64) (by omega) (by omega) (by omega) (by omega) (by omega) (by omega)
  have f2_6 : fld w 2 6 = 32 := by rw [f2_6]; omega
  have f0_1 : fld w 0 1 = g.toNat := by rw [f0_1]; omega
  have f0_2 : fld w 0 2 = g.toNat := by rw [f0_2]; omega
  have f23_6 : fld w 23 6 = 8 := (fld_function w _ 0 6 f23_9 hlt).trans (by unfold fld; omega)
  have f29_3 : fld w 29 3 = t.toNat := (fld_function w _ 6 3 f23_9 hlt).trans (by unfold fld; omega)
  refine ⟨hlt, ⟨fun e => absurd e (by omega), fun e => absurd (e : false = true) Bool.false_ne_true⟩, ?_⟩
  rw [decodeWord_major w _ (by omega), major20 w f2_6]; unfold decodeMajor20
  rw [f23_6, f18_5]
  show (Option.elim (some (Instr.vneg (bit w 0) (bits w 8 5) (bits w 13 5) (bits w 29 3))) _ _ : Except DecodeError Instr) = _
  rw [bit_eq w 0 g f0_1, bits_eq w 8 d f8_5, bits_eq w 13 a f13_5, bits_eq w 29 t f29_3]
  rfl

theorem vand (g : Bool) (d : BitVec 5) (a : BitVec 5) (b : BitVec 5) (t : BitVec 3) : Statement (.vand g d a b t) := by
  intro _ _
  have he : encodeFirst (.vand g d a b t) = 75497600 + g.toNat * 1 + d.toNat * 256 + a.toNat * 8192 + b.toNat * 262144 + t.toNat * 536870912 := rfl
  have lg := Bool.toNat_le g
  have ld := d.isLt
  have la := a.isLt
  have lb := b.isLt
  have lt := t.isLt
  have hp : payloadOf (.vand g d a b t) = 0 := rfl
  rw [he, hp]
  generalize hw : 75497600 + g.toNat * 1 + d.toNat * 256 + a.toNat * 8192 + b.toNat * 262144 + t.toNat * 536870912 = w
  obtain ⟨hlt, f0_2, f0_1, f2_6, f8_5, f13_5, f18_5, f23_9⟩ := fields_of_parts w (128 + g.toNat) (d.toNat) (a.toNat) (b.toNat) (9 + t.toNat * 64) (by omega) (by omega) (by omega) (by omega) (by omega) (by omega)
  have f2_6 : fld w 2 6 = 32 := by rw [f2_6]; omega
  have f0_1 : fld w 0 1 = g.toNat := by rw [f0_1]; omega
  have f0_2 : fld w 0 2 = g.toNat := by rw [f0_2]; omega
  have f23_6 : fld w 23 6 = 9 := (fld_function w _ 0 6 f23_9 hlt).trans (by unfold fld; omega)
  have f29_3 : fld w 29 3 = t.toNat := (fld_function w _ 6 3 f23_9 hlt).trans (by unfold fld; omega)
  refine ⟨hlt, ⟨fun e => absurd e (by omega), fun e => absurd (e : false = true) Bool.false_ne_true⟩, ?_⟩
  rw [decodeWord_major w _ (by omega), major20 w f2_6]; unfold decodeMajor20
  rw [f23_6]
  show (Option.elim (some (Instr.vand (bit w 0) (bits w 8 5) (bits w 13 5) (bits w 18 5) (bits w 29 3))) _ _ : Except DecodeError Instr) = _
  rw [bit_eq w 0 g f0_1, bits_eq w 8 d f8_5, bits_eq w 13 a f13_5, bits_eq w 18 b f18_5, bits_eq w 29 t f29_3]
  rfl

theorem vor (g : Bool) (d : BitVec 5) (a : BitVec 5) (b : BitVec 5) (t : BitVec 3) : Statement (.vor g d a b t) := by
  intro _ _
  have he : encodeFirst (.vor g d a b t) = 83886208 + g.toNat * 1 + d.toNat * 256 + a.toNat * 8192 + b.toNat * 262144 + t.toNat * 536870912 := rfl
  have lg := Bool.toNat_le g
  have ld := d.isLt
  have la := a.isLt
  have lb := b.isLt
  have lt := t.isLt
  have hp : payloadOf (.vor g d a b t) = 0 := rfl
  rw [he, hp]
  generalize hw : 83886208 + g.toNat * 1 + d.toNat * 256 + a.toNat * 8192 + b.toNat * 262144 + t.toNat * 536870912 = w
  obtain ⟨hlt, f0_2, f0_1, f2_6, f8_5, f13_5, f18_5, f23_9⟩ := fields_of_parts w (128 + g.toNat) (d.toNat) (a.toNat) (b.toNat) (10 + t.toNat * 64) (by omega) (by omega) (by omega) (by omega) (by omega) (by omega)
  have f2_6 : fld w 2 6 = 32 := by rw [f2_6]; omega
  have f0_1 : fld w 0 1 = g.toNat := by rw [f0_1]; omega
  have f0_2 : fld w 0 2 = g.toNat := by rw [f0_2]; omega
  have f23_6 : fld w 23 6 = 10 := (fld_function w _ 0 6 f23_9 hlt).trans (by unfold fld; omega)
  have f29_3 : fld w 29 3 = t.toNat := (fld_function w _ 6 3 f23_9 hlt).trans (by unfold fld; omega)
  refine ⟨hlt, ⟨fun e => absurd e (by omega), fun e => absurd (e : false = true) Bool.false_ne_true⟩, ?_⟩
  rw [decodeWord_major w _ (by omega), major20 w f2_6]; unfold decodeMajor20
  rw [f23_6]
  show (Option.elim (some (Instr.vor (bit w 0) (bits w 8 5) (bits w 13 5) (bits w 18 5) (bits w 29 3))) _ _ : Except DecodeError Instr) = _
  rw [bit_eq w 0 g f0_1, bits_eq w 8 d f8_5, bits_eq w 13 a f13_5, bits_eq w 18 b f18_5, bits_eq w 29 t f29_3]
  rfl

theorem vxor (g : Bool) (d : BitVec 5) (a : BitVec 5) (b : BitVec 5) (t : BitVec 3) : Statement (.vxor g d a b t) := by
  intro _ _
  have he : encodeFirst (.vxor g d a b t) = 92274816 + g.toNat * 1 + d.toNat * 256 + a.toNat * 8192 + b.toNat * 262144 + t.toNat * 536870912 := rfl
  have lg := Bool.toNat_le g
  have ld := d.isLt
  have la := a.isLt
  have lb := b.isLt
  have lt := t.isLt
  have hp : payloadOf (.vxor g d a b t) = 0 := rfl
  rw [he, hp]
  generalize hw : 92274816 + g.toNat * 1 + d.toNat * 256 + a.toNat * 8192 + b.toNat * 262144 + t.toNat * 536870912 = w
  obtain ⟨hlt, f0_2, f0_1, f2_6, f8_5, f13_5, f18_5, f23_9⟩ := fields_of_parts w (128 + g.toNat) (d.toNat) (a.toNat) (b.toNat) (11 + t.toNat * 64) (by omega) (by omega) (by omega) (by omega) (by omega) (by omega)
  have f2_6 : fld w 2 6 = 32 := by rw [f2_6]; omega
  have f0_1 : fld w 0 1 = g.toNat := by rw [f0_1]; omega
  have f0_2 : fld w 0 2 = g.toNat := by rw [f0_2]; omega
  have f23_6 : fld w 23 6 = 11 := (fld_function w _ 0 6 f23_9 hlt).trans (by unfold fld; omega)
  have f29_3 : fld w 29 3 = t.toNat := (fld_function w _ 6 3 f23_9 hlt).trans (by unfold fld; omega)
  refine ⟨hlt, ⟨fun e => absurd e (by omega), fun e => absurd (e : false = true) Bool.false_ne_true⟩, ?_⟩
  rw [decodeWord_major w _ (by omega), major20 w f2_6]; unfold decodeMajor20
  rw [f23_6]
  show (Option.elim (some (Instr.vxor (bit w 0) (bits w 8 5) (bits w 13 5) (bits w 18 5) (bits w 29 3))) _ _ : Except DecodeError Instr) = _
  rw [bit_eq w 0 g f0_1, bits_eq w 8 d f8_5, bits_eq w 13 a f13_5, bits_eq w 18 b f18_5, bits_eq w 29 t f29_3]
  rfl

theorem vsll (g : Bool) (d : BitVec 5) (a : BitVec 5) (b : BitVec 5) (t : BitVec 3) : Statement (.vsll g d a b t) := by
  intro _ _
  have he : encodeFirst (.vsll g d a b t) = 100663424 + g.toNat * 1 + d.toNat * 256 + a.toNat * 8192 + b.toNat * 262144 + t.toNat * 536870912 := rfl
  have lg := Bool.toNat_le g
  have ld := d.isLt
  have la := a.isLt
  have lb := b.isLt
  have lt := t.isLt
  have hp : payloadOf (.vsll g d a b t) = 0 := rfl
  rw [he, hp]
  generalize hw : 100663424 + g.toNat * 1 + d.toNat * 256 + a.toNat * 8192 + b.toNat * 262144 + t.toNat * 536870912 = w
  obtain ⟨hlt, f0_2, f0_1, f2_6, f8_5, f13_5, f18_5, f23_9⟩ := fields_of_parts w (128 + g.toNat) (d.toNat) (a.toNat) (b.toNat) (12 + t.toNat * 64) (by omega) (by omega) (by omega) (by omega) (by omega) (by omega)
  have f2_6 : fld w 2 6 = 32 := by rw [f2_6]; omega
  have f0_1 : fld w 0 1 = g.toNat := by rw [f0_1]; omega
  have f0_2 : fld w 0 2 = g.toNat := by rw [f0_2]; omega
  have f23_6 : fld w 23 6 = 12 := (fld_function w _ 0 6 f23_9 hlt).trans (by unfold fld; omega)
  have f29_3 : fld w 29 3 = t.toNat := (fld_function w _ 6 3 f23_9 hlt).trans (by unfold fld; omega)
  refine ⟨hlt, ⟨fun e => absurd e (by omega), fun e => absurd (e : false = true) Bool.false_ne_true⟩, ?_⟩
  rw [decodeWord_major w _ (by omega), major20 w f2_6]; unfold decodeMajor20
  rw [f23_6]
  show (Option.elim (some (Instr.vsll (bit w 0) (bits w 8 5) (bits w 13 5) (bits w 18 5) (bits w 29 3))) _ _ : Except DecodeError Instr) = _
  rw [bit_eq w 0 g f0_1, bits_eq w 8 d f8_5, bits_eq w 13 a f13_5, bits_eq w 18 b f18_5, bits_eq w 29 t f29_3]
  rfl

theorem vsrl (g : Bool) (d : BitVec 5) (a : BitVec 5) (b : BitVec 5) (t : BitVec 3) : Statement (.vsrl g d a b t) := by
  intro _ _
  have he : encodeFirst (.vsrl g d a b t) = 109052032 + g.toNat * 1 + d.toNat * 256 + a.toNat * 8192 + b.toNat * 262144 + t.toNat * 536870912 := rfl
  have lg := Bool.toNat_le g
  have ld := d.isLt
  have la := a.isLt
  have lb := b.isLt
  have lt := t.isLt
  have hp : payloadOf (.vsrl g d a b t) = 0 := rfl
  rw [he, hp]
  generalize hw : 109052032 + g.toNat * 1 + d.toNat * 256 + a.toNat * 8192 + b.toNat * 262144 + t.toNat * 536870912 = w
  obtain ⟨hlt, f0_2, f0_1, f2_6, f8_5, f13_5, f18_5, f23_9⟩ := fields_of_parts w (128 + g.toNat) (d.toNat) (a.toNat) (b.toNat) (13 + t.toNat * 64) (by omega) (by omega) (by omega) (by omega) (by omega) (by omega)
  have f2_6 : fld w 2 6 = 32 := by rw [f2_6]; omega
  have f0_1 : fld w 0 1 = g.toNat := by rw [f0_1]; omega
  have f0_2 : fld w 0 2 = g.toNat := by rw [f0_2]; omega
  have f23_6 : fld w 23 6 = 13 := (fld_function w _ 0 6 f23_9 hlt).trans (by unfold fld; omega)
  have f29_3 : fld w 29 3 = t.toNat := (fld_function w _ 6 3 f23_9 hlt).trans (by unfold fld; omega)
  refine ⟨hlt, ⟨fun e => absurd e (by omega), fun e => absurd (e : false = true) Bool.false_ne_true⟩, ?_⟩
  rw [decodeWord_major w _ (by omega), major20 w f2_6]; unfold decodeMajor20
  rw [f23_6]
  show (Option.elim (some (Instr.vsrl (bit w 0) (bits w 8 5) (bits w 13 5) (bits w 18 5) (bits w 29 3))) _ _ : Except DecodeError Instr) = _
  rw [bit_eq w 0 g f0_1, bits_eq w 8 d f8_5, bits_eq w 13 a f13_5, bits_eq w 18 b f18_5, bits_eq w 29 t f29_3]
  rfl

theorem vsra (g : Bool) (d : BitVec 5) (a : BitVec 5) (b : BitVec 5) (t : BitVec 3) : Statement (.vsra g d a b t) := by
  intro _ _
  have he : encodeFirst (.vsra g d a b t) = 117440640 + g.toNat * 1 + d.toNat * 256 + a.toNat * 8192 + b.toNat * 262144 + t.toNat * 536870912 := rfl
  have lg := Bool.toNat_le g
  have ld := d.isLt
  have la := a.isLt
  have lb := b.isLt
  have lt := t.isLt
  have hp : payloadOf (.vsra g d a b t) = 0 := rfl
  rw [he, hp]
  generalize hw : 117440640 + g.toNat * 1 + d.toNat * 256 + a.toNat * 8192 + b.toNat * 262144 + t.toNat * 536870912 = w
  obtain ⟨hlt, f0_2, f0_1, f2_6, f8_5, f13_5, f18_5, f23_9⟩ := fields_of_parts w (128 + g.toNat) (d.toNat) (a.toNat) (b.toNat) (14 + t.toNat * 64) (by omega) (by omega) (by omega) (by omega) (by omega) (by omega)
  have f2_6 : fld w 2 6 = 32 := by rw [f2_6]; omega
  have f0_1 : fld w 0 1 = g.toNat := by rw [f0_1]; omega
  have f0_2 : fld w 0 2 = g.toNat := by rw [f0_2]; omega
  have f23_6 : fld w 23 6 = 14 := (fld_function w _ 0 6 f23_9 hlt).trans (by unfold fld; omega)
  have f29_3 : fld w 29 3 = t.toNat := (fld_function w _ 6 3 f23_9 hlt).trans (by unfold fld; omega)
  refine ⟨hlt, ⟨fun e => absurd e (by omega), fun e => absurd (e : false = true) Bool.false_ne_true⟩, ?_⟩
  rw [decodeWord_major w _ (by omega), major20 w f2_6]; unfold decodeMajor20
  rw [f23_6]
  show (Option.elim (some (Instr.vsra (bit w 0) (bits w 8 5) (bits w 13 5) (bits w 18 5) (bits w 29 3))) _ _ : Except DecodeError Instr) = _
  rw [bit_eq w 0 g f0_1, bits_eq w 8 d f8_5, bits_eq w 13 a f13_5, bits_eq w 18 b f18_5, bits_eq w 29 t f29_3]
  rfl

theorem vdiv (g : Bool) (d : BitVec 5) (a : BitVec 5) (b : BitVec 5) (t : BitVec 3) : Statement (.vdiv g d a b t) := by
  intro _ _
  have he : encodeFirst (.vdiv g d a b t) = 125829248 + g.toNat * 1 + d.toNat * 256 + a.toNat * 8192 + b.toNat * 262144 + t.toNat * 536870912 := rfl
  have lg := Bool.toNat_le g
  have ld := d.isLt
  have la := a.isLt
  have lb := b.isLt
  have lt := t.isLt
  have hp : payloadOf (.vdiv g d a b t) = 0 := rfl
  rw [he, hp]
  generalize hw : 125829248 + g.toNat * 1 + d.toNat * 256 + a.toNat * 8192 + b.toNat * 262144 + t.toNat * 536870912 = w
  obtain ⟨hlt, f0_2, f0_1, f2_6, f8_5, f13_5, f18_5, f23_9⟩ := fields_of_parts w (128 + g.toNat) (d.toNat) (a.toNat) (b.toNat) (15 + t.toNat * 64) (by omega) (by omega) (by omega) (by omega) (by omega) (by omega)
  have f2_6 : fld w 2 6 = 32 := by rw [f2_6]; omega
  have f0_1 : fld w 0 1 = g.toNat := by rw [f0_1]; omega
  have f0_2 : fld w 0 2 = g.toNat := by rw [f0_2]; omega
  have f23_6 : fld w 23 6 = 15 := (fld_function w _ 0 6 f23_9 hlt).trans (by unfold fld; omega)
  have f29_3 : fld w 29 3 = t.toNat := (fld_function w _ 6 3 f23_9 hlt).trans (by unfold fld; omega)
  refine ⟨hlt, ⟨fun e => absurd e (by omega), fun e => absurd (e : false = true) Bool.false_ne_true⟩, ?_⟩
  rw [decodeWord_major w _ (by omega), major20 w f2_6]; unfold decodeMajor20
  rw [f23_6]
  show (Option.elim (some (Instr.vdiv (bit w 0) (bits w 8 5) (bits w 13 5) (bits w 18 5) (bits w 29 3))) _ _ : Except DecodeError Instr) = _
  rw [bit_eq w 0 g f0_1, bits_eq w 8 d f8_5, bits_eq w 13 a f13_5, bits_eq w 18 b f18_5, bits_eq w 29 t f29_3]
  rfl

theorem vsqrt (g : Bool) (d : BitVec 5) (a : BitVec 5) (t : BitVec 3) : Statement (.vsqrt g d a t) := by
  intro _ _
  have he : encodeFirst (.vsqrt g d a t) = 134217856 + g.toNat * 1 + d.toNat * 256 + a.toNat * 8192 + t.toNat * 536870912 := rfl
  have lg := Bool.toNat_le g
  have ld := d.isLt
  have la := a.isLt
  have lt := t.isLt
  have hp : payloadOf (.vsqrt g d a t) = 0 := rfl
  rw [he, hp]
  generalize hw : 134217856 + g.toNat * 1 + d.toNat * 256 + a.toNat * 8192 + t.toNat * 536870912 = w
  obtain ⟨hlt, f0_2, f0_1, f2_6, f8_5, f13_5, f18_5, f23_9⟩ := fields_of_parts w (128 + g.toNat) (d.toNat) (a.toNat) (0) (16 + t.toNat * 64) (by omega) (by omega) (by omega) (by omega) (by omega) (by omega)
  have f2_6 : fld w 2 6 = 32 := by rw [f2_6]; omega
  have f0_1 : fld w 0 1 = g.toNat := by rw [f0_1]; omega
  have f0_2 : fld w 0 2 = g.toNat := by rw [f0_2]; omega
  have f23_6 : fld w 23 6 = 16 := (fld_function w _ 0 6 f23_9 hlt).trans (by unfold fld; omega)
  have f29_3 : fld w 29 3 = t.toNat := (fld_function w _ 6 3 f23_9 hlt).trans (by unfold fld; omega)
  refine ⟨hlt, ⟨fun e => absurd e (by omega), fun e => absurd (e : false = true) Bool.false_ne_true⟩, ?_⟩
  rw [decodeWord_major w _ (by omega), major20 w f2_6]; unfold decodeMajor20
  rw [f23_6, f18_5]
  show (Option.elim (some (Instr.vsqrt (bit w 0) (bits w 8 5) (bits w 13 5) (bits w 29 3))) _ _ : Except DecodeError Instr) = _
  rw [bit_eq w 0 g f0_1, bits_eq w 8 d f8_5, bits_eq w 13 a f13_5, bits_eq w 29 t f29_3]
  rfl

theorem vrsq (g : Bool) (d : BitVec 5) (a : BitVec 5) (t : BitVec 3) : Statement (.vrsq g d a t) := by
  intro _ _
  have he : encodeFirst (.vrsq g d a t) = 142606464 + g.toNat * 1 + d.toNat * 256 + a.toNat * 8192 + t.toNat * 536870912 := rfl
  have lg := Bool.toNat_le g
  have ld := d.isLt
  have la := a.isLt
  have lt := t.isLt
  have hp : payloadOf (.vrsq g d a t) = 0 := rfl
  rw [he, hp]
  generalize hw : 142606464 + g.toNat * 1 + d.toNat * 256 + a.toNat * 8192 + t.toNat * 536870912 = w
  obtain ⟨hlt, f0_2, f0_1, f2_6, f8_5, f13_5, f18_5, f23_9⟩ := fields_of_parts w (128 + g.toNat) (d.toNat) (a.toNat) (0) (17 + t.toNat * 64) (by omega) (by omega) (by omega) (by omega) (by omega) (by omega)
  have f2_6 : fld w 2 6 = 32 := by rw [f2_6]; omega
  have f0_1 : fld w 0 1 = g.toNat := by rw [f0_1]; omega
  have f0_2 : fld w 0 2 = g.toNat := by rw [f0_2]; omega
  have f23_6 : fld w 23 6 = 17 := (fld_function w _ 0 6 f23_9 hlt).trans (by unfold fld; omega)
  have f29_3 : fld w 29 3 = t.toNat := (fld_function w _ 6 3 f23_9 hlt).trans (by unfold fld; omega)
  refine ⟨hlt, ⟨fun e => absurd e (by omega), fun e => absurd (e : false = true) Bool.false_ne_true⟩, ?_⟩
  rw [decodeWord_major w _ (by omega), major20 w f2_6]; unfold decodeMajor20
  rw [f23_6, f18_5]
  show (Option.elim (some (Instr.vrsq (bit w 0) (bits w 8 5) (bits w 13 5) (bits w 29 3))) _ _ : Except DecodeError Instr) = _
  rw [bit_eq w 0 g f0_1, bits_eq w 8 d f8_5, bits_eq w 13 a f13_5, bits_eq w 29 t f29_3]
  rfl

theorem vrcp (g : Bool) (d : BitVec 5) (a : BitVec 5) (t : BitVec 3) : Statement (.vrcp g d a t) := by
  intro _ _
  have he : encodeFirst (.vrcp g d a t) = 150995072 + g.toNat * 1 + d.toNat * 256 + a.toNat * 8192 + t.toNat * 536870912 := rfl
  have lg := Bool.toNat_le g
  have ld := d.isLt
  have la := a.isLt
  have lt := t.isLt
  have hp : payloadOf (.vrcp g d a t) = 0 := rfl
  rw [he, hp]
  generalize hw : 150995072 + g.toNat * 1 + d.toNat * 256 + a.toNat * 8192 + t.toNat * 536870912 = w
  obtain ⟨hlt, f0_2, f0_1, f2_6, f8_5, f13_5, f18_5, f23_9⟩ := fields_of_parts w (128 + g.toNat) (d.toNat) (a.toNat) (0) (18 + t.toNat * 64) (by omega) (by omega) (by omega) (by omega) (by omega) (by omega)
  have f2_6 : fld w 2 6 = 32 := by rw [f2_6]; omega
  have f0_1 : fld w 0 1 = g.toNat := by rw [f0_1]; omega
  have f0_2 : fld w 0 2 = g.toNat := by rw [f0_2]; omega
  have f23_6 : fld w 23 6 = 18 := (fld_function w _ 0 6 f23_9 hlt).trans (by unfold fld; omega)
  have f29_3 : fld w 29 3 = t.toNat := (fld_function w _ 6 3 f23_9 hlt).trans (by unfold fld; omega)
  refine ⟨hlt, ⟨fun e => absurd e (by omega), fun e => absurd (e : false = true) Bool.false_ne_true⟩, ?_⟩
  rw [decodeWord_major w _ (by omega), major20 w f2_6]; unfold decodeMajor20
  rw [f23_6, f18_5]
  show (Option.elim (some (Instr.vrcp (bit w 0) (bits w 8 5) (bits w 13 5) (bits w 29 3))) _ _ : Except DecodeError Instr) = _
  rw [bit_eq w 0 g f0_1, bits_eq w 8 d f8_5, bits_eq w 13 a f13_5, bits_eq w 29 t f29_3]
  rfl

theorem vexp2 (g : Bool) (d : BitVec 5) (a : BitVec 5) (t : BitVec 3) : Statement (.vexp2 g d a t) := by
  intro _ _
  have he : encodeFirst (.vexp2 g d a t) = 159383680 + g.toNat * 1 + d.toNat * 256 + a.toNat * 8192 + t.toNat * 536870912 := rfl
  have lg := Bool.toNat_le g
  have ld := d.isLt
  have la := a.isLt
  have lt := t.isLt
  have hp : payloadOf (.vexp2 g d a t) = 0 := rfl
  rw [he, hp]
  generalize hw : 159383680 + g.toNat * 1 + d.toNat * 256 + a.toNat * 8192 + t.toNat * 536870912 = w
  obtain ⟨hlt, f0_2, f0_1, f2_6, f8_5, f13_5, f18_5, f23_9⟩ := fields_of_parts w (128 + g.toNat) (d.toNat) (a.toNat) (0) (19 + t.toNat * 64) (by omega) (by omega) (by omega) (by omega) (by omega) (by omega)
  have f2_6 : fld w 2 6 = 32 := by rw [f2_6]; omega
  have f0_1 : fld w 0 1 = g.toNat := by rw [f0_1]; omega
  have f0_2 : fld w 0 2 = g.toNat := by rw [f0_2]; omega
  have f23_6 : fld w 23 6 = 19 := (fld_function w _ 0 6 f23_9 hlt).trans (by unfold fld; omega)
  have f29_3 : fld w 29 3 = t.toNat := (fld_function w _ 6 3 f23_9 hlt).trans (by unfold fld; omega)
  refine ⟨hlt, ⟨fun e => absurd e (by omega), fun e => absurd (e : false = true) Bool.false_ne_true⟩, ?_⟩
  rw [decodeWord_major w _ (by omega), major20 w f2_6]; unfold decodeMajor20
  rw [f23_6, f18_5]
  show (Option.elim (some (Instr.vexp2 (bit w 0) (bits w 8 5) (bits w 13 5) (bits w 29 3))) _ _ : Except DecodeError Instr) = _
  rw [bit_eq w 0 g f0_1, bits_eq w 8 d f8_5, bits_eq w 13 a f13_5, bits_eq w 29 t f29_3]
  rfl

theorem vlog2 (g : Bool) (d : BitVec 5) (a : BitVec 5) (t : BitVec 3) : Statement (.vlog2 g d a t) := by
  intro _ _
  have he : encodeFirst (.vlog2 g d a t) = 167772288 + g.toNat * 1 + d.toNat * 256 + a.toNat * 8192 + t.toNat * 536870912 := rfl
  have lg := Bool.toNat_le g
  have ld := d.isLt
  have la := a.isLt
  have lt := t.isLt
  have hp : payloadOf (.vlog2 g d a t) = 0 := rfl
  rw [he, hp]
  generalize hw : 167772288 + g.toNat * 1 + d.toNat * 256 + a.toNat * 8192 + t.toNat * 536870912 = w
  obtain ⟨hlt, f0_2, f0_1, f2_6, f8_5, f13_5, f18_5, f23_9⟩ := fields_of_parts w (128 + g.toNat) (d.toNat) (a.toNat) (0) (20 + t.toNat * 64) (by omega) (by omega) (by omega) (by omega) (by omega) (by omega)
  have f2_6 : fld w 2 6 = 32 := by rw [f2_6]; omega
  have f0_1 : fld w 0 1 = g.toNat := by rw [f0_1]; omega
  have f0_2 : fld w 0 2 = g.toNat := by rw [f0_2]; omega
  have f23_6 : fld w 23 6 = 20 := (fld_function w _ 0 6 f23_9 hlt).trans (by unfold fld; omega)
  have f29_3 : fld w 29 3 = t.toNat := (fld_function w _ 6 3 f23_9 hlt).trans (by unfold fld; omega)
  refine ⟨hlt, ⟨fun e => absurd e (by omega), fun e => absurd (e : false = true) Bool.false_ne_true⟩, ?_⟩
  rw [decodeWord_major w _ (by omega), major20 w f2_6]; unfold decodeMajor20
  rw [f23_6, f18_5]
  show (Option.elim (some (Instr.vlog2 (bit w 0) (bits w 8 5) (bits w 13 5) (bits w 29 3))) _ _ : Except DecodeError Instr) = _
  rw [bit_eq w 0 g f0_1, bits_eq w 8 d f8_5, bits_eq w 13 a f13_5, bits_eq w 29 t f29_3]
  rfl

theorem vmulh (g : Bool) (d : BitVec 5) (a : BitVec 5) (b : BitVec 5) (t : BitVec 3) : Statement (.vmulh g d a b t) := by
  intro _ _
  have he : encodeFirst (.vmulh g d a b t) = 176160896 + g.toNat * 1 + d.toNat * 256 + a.toNat * 8192 + b.toNat * 262144 + t.toNat * 536870912 := rfl
  have lg := Bool.toNat_le g
  have ld := d.isLt
  have la := a.isLt
  have lb := b.isLt
  have lt := t.isLt
  have hp : payloadOf (.vmulh g d a b t) = 0 := rfl
  rw [he, hp]
  generalize hw : 176160896 + g.toNat * 1 + d.toNat * 256 + a.toNat * 8192 + b.toNat * 262144 + t.toNat * 536870912 = w
  obtain ⟨hlt, f0_2, f0_1, f2_6, f8_5, f13_5, f18_5, f23_9⟩ := fields_of_parts w (128 + g.toNat) (d.toNat) (a.toNat) (b.toNat) (21 + t.toNat * 64) (by omega) (by omega) (by omega) (by omega) (by omega) (by omega)
  have f2_6 : fld w 2 6 = 32 := by rw [f2_6]; omega
  have f0_1 : fld w 0 1 = g.toNat := by rw [f0_1]; omega
  have f0_2 : fld w 0 2 = g.toNat := by rw [f0_2]; omega
  have f23_6 : fld w 23 6 = 21 := (fld_function w _ 0 6 f23_9 hlt).trans (by unfold fld; omega)
  have f29_3 : fld w 29 3 = t.toNat := (fld_function w _ 6 3 f23_9 hlt).trans (by unfold fld; omega)
  refine ⟨hlt, ⟨fun e => absurd e (by omega), fun e => absurd (e : false = true) Bool.false_ne_true⟩, ?_⟩
  rw [decodeWord_major w _ (by omega), major20 w f2_6]; unfold decodeMajor20
  rw [f23_6]
  show (Option.elim (some (Instr.vmulh (bit w 0) (bits w 8 5) (bits w 13 5) (bits w 18 5) (bits w 29 3))) _ _ : Except DecodeError Instr) = _
  rw [bit_eq w 0 g f0_1, bits_eq w 8 d f8_5, bits_eq w 13 a f13_5, bits_eq w 18 b f18_5, bits_eq w 29 t f29_3]
  rfl

theorem vaddsat (g : Bool) (d : BitVec 5) (a : BitVec 5) (b : BitVec 5) (t : BitVec 3) : Statement (.vaddsat g d a b t) := by
  intro _ _
  have he : encodeFirst (.vaddsat g d a b t) = 184549504 + g.toNat * 1 + d.toNat * 256 + a.toNat * 8192 + b.toNat * 262144 + t.toNat * 536870912 := rfl
  have lg := Bool.toNat_le g
  have ld := d.isLt
  have la := a.isLt
  have lb := b.isLt
  have lt := t.isLt
  have hp : payloadOf (.vaddsat g d a b t) = 0 := rfl
  rw [he, hp]
  generalize hw : 184549504 + g.toNat * 1 + d.toNat * 256 + a.toNat * 8192 + b.toNat * 262144 + t.toNat * 536870912 = w
  obtain ⟨hlt, f0_2, f0_1, f2_6, f8_5, f13_5, f18_5, f23_9⟩ := fields_of_parts w (128 + g.toNat) (d.toNat) (a.toNat) (b.toNat) (22 + t.toNat * 64) (by omega) (by omega) (by omega) (by omega) (by omega) (by omega)
  have f2_6 : fld w 2 6 = 32 := by rw [f2_6]; omega
  have f0_1 : fld w 0 1 = g.toNat := by rw [f0_1]; omega
  have f0_2 : fld w 0 2 = g.toNat := by rw [f0_2]; omega
  have f23_6 : fld w 23 6 = 22 := (fld_function w _ 0 6 f23_9 hlt).trans (by unfold fld; omega)
  have f29_3 : fld w 29 3 = t.toNat := (fld_function w _ 6 3 f23_9 hlt).trans (by unfold fld; omega)
  refine ⟨hlt, ⟨fun e => absurd e (by omega), fun e => absurd (e : false = true) Bool.false_ne_true⟩, ?_⟩
  rw [decodeWord_major w _ (by omega), major20 w f2_6]; unfold decodeMajor20
  rw [f23_6]
  show (Option.elim (some (Instr.vaddsat (bit w 0) (bits w 8 5) (bits w 13 5) (bits w 18 5) (bits w 29 3))) _ _ : Except DecodeError Instr) = _
  rw [bit_eq w 0 g f0_1, bits_eq w 8 d f8_5, bits_eq w 13 a f13_5, bits_eq w 18 b f18_5, bits_eq w 29 t f29_3]
  rfl

theorem vsubsat (g : Bool) (d : BitVec 5) (a : BitVec 5) (b : BitVec 5) (t : BitVec 3) : Statement (.vsubsat g d a b t) := by
  intro _ _
  have he : encodeFirst (.vsubsat g d a b t) = 192938112 + g.toNat * 1 + d.toNat * 256 + a.toNat * 8192 + b.toNat * 262144 + t.toNat * 536870912 := rfl
  have lg := Bool.toNat_le g
  have ld := d.isLt
  have la := a.isLt
  have lb := b.isLt
  have lt := t.isLt
  have hp : payloadOf (.vsubsat g d a b t) = 0 := rfl
  rw [he, hp]
  generalize hw : 192938112 + g.toNat * 1 + d.toNat * 256 + a.toNat * 8192 + b.toNat * 262144 + t.toNat * 536870912 = w
  obtain ⟨hlt, f0_2, f0_1, f2_6, f8_5, f13_5, f18_5, f23_9⟩ := fields_of_parts w (128 + g.toNat) (d.toNat) (a.toNat) (b.toNat) (23 + t.toNat * 64) (by omega) (by omega) (by omega) (by omega) (by omega) (by omega)
  have f2_6 : fld w 2 6 = 32 := by rw [f2_6]; omega
  have f0_1 : fld w 0 1 = g.toNat := by rw [f0_1]; omega
  have f0_2 : fld w 0 2 = g.toNat := by rw [f0_2]; omega
  have f23_6 : fld w 23 6 = 23 := (fld_function w _ 0 6 f23_9 hlt).trans (by unfold fld; omega)
  have f29_3 : fld w 29 3 = t.toNat := (fld_function w _ 6 3 f23_9 hlt).trans (by unfold fld; omega)
  refine ⟨hlt, ⟨fun e => absurd e (by omega), fun e => absurd (e : false = true) Bool.false_ne_true⟩, ?_⟩
  rw [decodeWord_major w _ (by omega), major20 w f2_6]; unfold decodeMajor20
  rw [f23_6]
  show (Option.elim (some (Instr.vsubsat (bit w 0) (bits w 8 5) (bits w 13 5) (bits w 18 5) (bits w 29 3))) _ _ : Except DecodeError Instr) = _
  rw [bit_eq w 0 g f0_1, bits_eq w 8 d f8_5, bits_eq w 13 a f13_5, bits_eq w 18 b f18_5, bits_eq w 29 t f29_3]
  rfl

theorem vmov (g : Bool) (d : BitVec 5) (a : BitVec 5) (t : BitVec 3) : Statement (.vmov g d a t) := by
  intro _ _
  have he : encodeFirst (.vmov g d a t) = 201326720 + g.toNat * 1 + d.toNat * 256 + a.toNat * 8192 + t.toNat * 536870912 := rfl
  have lg := Bool.toNat_le g
  have ld := d.isLt
  have la := a.isLt
  have lt := t.isLt
  have hp : payloadOf (.vmov g d a t) = 0 := rfl
  rw [he, hp]
  generalize hw : 201326720 + g.toNat * 1 + d.toNat * 256 + a.toNat * 8192 + t.toNat * 536870912 = w
  obtain ⟨hlt, f0_2, f0_1, f2_6, f8_5, f13_5, f18_5, f23_9⟩ := fields_of_parts w (128 + g.toNat) (d.toNat) (a.toNat) (0) (24 + t.toNat * 64) (by omega) (by omega) (by omega) (by omega) (by omega) (by omega)
  have f2_6 : fld w 2 6 = 32 := by rw [f2_6]; omega
  have f0_1 : fld w 0 1 = g.toNat := by rw [f0_1]; omega
  have f0_2 : fld w 0 2 = g.toNat := by rw [f0_2]; omega
  have f23_6 : fld w 23 6 = 24 := (fld_function w _ 0 6 f23_9 hlt).trans (by unfold fld; omega)
  have f29_3 : fld w 29 3 = t.toNat := (fld_function w _ 6 3 f23_9 hlt).trans (by unfold fld; omega)
  refine ⟨hlt, ⟨fun e => absurd e (by omega), fun e => absurd (e : false = true) Bool.false_ne_true⟩, ?_⟩
  rw [decodeWord_major w _ (by omega), major20 w f2_6]; unfold decodeMajor20
  rw [f23_6, f18_5]
  show (Option.elim (some (Instr.vmov (bit w 0) (bits w 8 5) (bits w 13 5) (bits w 29 3))) _ _ : Except DecodeError Instr) = _
  rw [bit_eq w 0 g f0_1, bits_eq w 8 d f8_5, bits_eq w 13 a f13_5, bits_eq w 29 t f29_3]
  rfl

theorem vaddsc (g : Bool) (d : BitVec 5) (a : BitVec 5) (b : BitVec 5) (t : BitVec 3) : Statement (.vaddsc g d a b t) := by
  intro _ _
  have he : encodeFirst (.vaddsc g d a b t) = 132 + g.toNat * 1 + d.toNat * 256 + a.toNat * 8192 + b.toNat * 262144 + t.toNat * 536870912 := rfl
  have lg := Bool.toNat_le g
  have ld := d.isLt
  have la := a.isLt
  have lb := b.isLt
  have lt := t.isLt
  have hp : payloadOf (.vaddsc g d a b t) = 0 := rfl
  rw [he, hp]
  generalize hw : 132 + g.toNat * 1 + d.toNat * 256 + a.toNat * 8192 + b.toNat * 262144 + t.toNat * 536870912 = w
  obtain ⟨hlt, f0_2, f0_1, f2_6, f8_5, f13_5, f18_5, f23_9⟩ := fields_of_parts w (132 + g.toNat) (d.toNat) (a.toNat) (b.toNat) (t.toNat * 64) (by omega) (by omega) (by omega) (by omega) (by omega) (by omega)
  have f2_6 : fld w 2 6 = 33 := by rw [f2_6]; omega
  have f0_1 : fld w 0 1 = g.toNat := by rw [f0_1]; omega
  have f0_2 : fld w 0 2 = g.toNat := by rw [f0_2]; omega
  have f23_6 : fld w 23 6 = 0 := (fld_function w _ 0 6 f23_9 hlt).trans (by unfold fld; omega)
  have f29_3 : fld w 29 3 = t.toNat := (fld_function w _ 6 3 f23_9 hlt).trans (by unfold fld; omega)
  refine ⟨hlt, ⟨fun e => absurd e (by omega), fun e => absurd (e : false = true) Bool.false_ne_true⟩, ?_⟩
  rw [decodeWord_major w _ (by omega), major21 w f2_6]; unfold decodeMajor21
  rw [f23_6]
  show (Option.elim (some (Instr.vaddsc (bit w 0) (bits w 8 5) (bits w 13 5) (bits w 18 5) (bits w 29 3))) _ _ : Except DecodeError Instr) = _
  rw [bit_eq w 0 g f0_1, bits_eq w 8 d f8_5, bits_eq w 13 a f13_5, bits_eq w 18 b f18_5, bits_eq w 29 t f29_3]
  rfl

theorem vsubsc (g : Bool) (d : BitVec 5) (a : BitVec 5) (b : BitVec 5) (t : BitVec 3) : Statement (.vsubsc g d a b t) := by
  intro _ _
  have he : encodeFirst (.vsubsc g d a b t) = 8388740 + g.toNat * 1 + d.toNat * 256 + a.toNat * 8192 + b.toNat * 262144 + t.toNat * 536870912 := rfl
  have lg := Bool.toNat_le g
  have ld := d.isLt
  have la := a.isLt
  have lb := b.isLt
  have lt := t.isLt
  have hp : payloadOf (.vsubsc g d a b t) = 0 := rfl
  rw [he, hp]
  generalize hw : 8388740 + g.toNat * 1 + d.toNat * 256 + a.toNat * 8192 + b.toNat * 262144 + t.toNat * 536870912 = w
  obtain ⟨hlt, f0_2, f0_1, f2_6, f8_5, f13_5, f18_5, f23_9⟩ := fields_of_parts w (132 + g.toNat) (d.toNat) (a.toNat) (b.toNat) (1 + t.toNat * 64) (by omega) (by omega) (by omega) (by omega) (by omega) (by omega)
  have f2_6 : fld w 2 6 = 33 := by rw [f2_6]; omega
  have f0_1 : fld w 0 1 = g.toNat := by rw [f0_1]; omega
  have f0_2 : fld w 0 2 = g.toNat := by rw [f0_2]; omega
  have f23_6 : fld w 23 6 = 1 := (fld_function w _ 0 6 f23_9 hlt).trans (by unfold fld; omega)
  have f29_3 : fld w 29 3 = t.toNat := (fld_function w _ 6 3 f23_9 hlt).trans (by unfold fld; omega)
  refine ⟨hlt, ⟨fun e => absurd e (by omega), fun e => absurd (e : false = true) Bool.false_ne_true⟩, ?_⟩
  rw [decodeWord_major w _ (by omega), major21 w f2_6]; unfold decodeMajor21
  rw [f23_6]
  show (Option.elim (some (Instr.vsubsc (bit w 0) (bits w 8 5) (bits w 13 5) (bits w 18 5) (bits w 29 3))) _ _ : Except DecodeError Instr) = _
  rw [bit_eq w 0 g f0_1, bits_eq w 8 d f8_5, bits_eq w 13 a f13_5, bits_eq w 18 b f18_5, bits_eq w 29 t f29_3]
  rfl

theorem vmulsc (g : Bool) (d : BitVec 5) (a : BitVec 5) (b : BitVec 5) (t : BitVec 3) : Statement (.vmulsc g d a b t) := by
  intro _ _
  have he : encodeFirst (.vmulsc g d a b t) = 16777348 + g.toNat * 1 + d.toNat * 256 + a.toNat * 8192 + b.toNat * 262144 + t.toNat * 536870912 := rfl
  have lg := Bool.toNat_le g
  have ld := d.isLt
  have la := a.isLt
  have lb := b.isLt
  have lt := t.isLt
  have hp : payloadOf (.vmulsc g d a b t) = 0 := rfl
  rw [he, hp]
  generalize hw : 16777348 + g.toNat * 1 + d.toNat * 256 + a.toNat * 8192 + b.toNat * 262144 + t.toNat * 536870912 = w
  obtain ⟨hlt, f0_2, f0_1, f2_6, f8_5, f13_5, f18_5, f23_9⟩ := fields_of_parts w (132 + g.toNat) (d.toNat) (a.toNat) (b.toNat) (2 + t.toNat * 64) (by omega) (by omega) (by omega) (by omega) (by omega) (by omega)
  have f2_6 : fld w 2 6 = 33 := by rw [f2_6]; omega
  have f0_1 : fld w 0 1 = g.toNat := by rw [f0_1]; omega
  have f0_2 : fld w 0 2 = g.toNat := by rw [f0_2]; omega
  have f23_6 : fld w 23 6 = 2 := (fld_function w _ 0 6 f23_9 hlt).trans (by unfold fld; omega)
  have f29_3 : fld w 29 3 = t.toNat := (fld_function w _ 6 3 f23_9 hlt).trans (by unfold fld; omega)
  refine ⟨hlt, ⟨fun e => absurd e (by omega), fun e => absurd (e : false = true) Bool.false_ne_true⟩, ?_⟩
  rw [decodeWord_major w _ (by omega), major21 w f2_6]; unfold decodeMajor21
  rw [f23_6]
  show (Option.elim (some (Instr.vmulsc (bit w 0) (bits w 8 5) (bits w 13 5) (bits w 18 5) (bits w 29 3))) _ _ : Except DecodeError Instr) = _
  rw [bit_eq w 0 g f0_1, bits_eq w 8 d f8_5, bits_eq w 13 a f13_5, bits_eq w 18 b f18_5, bits_eq w 29 t f29_3]
  rfl

theorem vfmasc (g : Bool) (d : BitVec 5) (a : BitVec 5) (b : BitVec 5) (t : BitVec 3) : Statement (.vfmasc g d a b t) := by
  intro _ _
  have he : encodeFirst (.vfmasc g d a b t) = 25165956 + g.toNat * 1 + d.toNat * 256 + a.toNat * 8192 + b.toNat * 262144 + t.toNat * 536870912 := rfl
  have lg := Bool.toNat_le g
  have ld := d.isLt
  have la := a.isLt
  have lb := b.isLt
  have lt := t.isLt
  have hp : payloadOf (.vfmasc g d a b t) = 0 := rfl
  rw [he, hp]
  generalize hw : 25165956 + g.toNat * 1 + d.toNat * 256 + a.toNat * 8192 + b.toNat * 262144 + t.toNat * 536870912 = w
  obtain ⟨hlt, f0_2, f0_1, f2_6, f8_5, f13_5, f18_5, f23_9⟩ := fields_of_parts w (132 + g.toNat) (d.toNat) (a.toNat) (b.toNat) (3 + t.toNat * 64) (by omega) (by omega) (by omega) (by omega) (by omega) (by omega)
  have f2_6 : fld w 2 6 = 33 := by rw [f2_6]; omega
  have f0_1 : fld w 0 1 = g.toNat := by rw [f0_1]; omega
  have f0_2 : fld w 0 2 = g.toNat := by rw [f0_2]; omega
  have f23_6 : fld w 23 6 = 3 := (fld_function w _ 0 6 f23_9 hlt).trans (by unfold fld; omega)
  have f29_3 : fld w 29 3 = t.toNat := (fld_function w _ 6 3 f23_9 hlt).trans (by unfold fld; omega)
  refine ⟨hlt, ⟨fun e => absurd e (by omega), fun e => absurd (e : false = true) Bool.false_ne_true⟩, ?_⟩
  rw [decodeWord_major w _ (by omega), major21 w f2_6]; unfold decodeMajor21
  rw [f23_6]
  show (Option.elim (some (Instr.vfmasc (bit w 0) (bits w 8 5) (bits w 13 5) (bits w 18 5) (bits w 29 3))) _ _ : Except DecodeError Instr) = _
  rw [bit_eq w 0 g f0_1, bits_eq w 8 d f8_5, bits_eq w 13 a f13_5, bits_eq w 18 b f18_5, bits_eq w 29 t f29_3]
  rfl

theorem vminsc (g : Bool) (d : BitVec 5) (a : BitVec 5) (b : BitVec 5) (t : BitVec 3) : Statement (.vminsc g d a b t) := by
  intro _ _
  have he : encodeFirst (.vminsc g d a b t) = 33554564 + g.toNat * 1 + d.toNat * 256 + a.toNat * 8192 + b.toNat * 262144 + t.toNat * 536870912 := rfl
  have lg := Bool.toNat_le g
  have ld := d.isLt
  have la := a.isLt
  have lb := b.isLt
  have lt := t.isLt
  have hp : payloadOf (.vminsc g d a b t) = 0 := rfl
  rw [he, hp]
  generalize hw : 33554564 + g.toNat * 1 + d.toNat * 256 + a.toNat * 8192 + b.toNat * 262144 + t.toNat * 536870912 = w
  obtain ⟨hlt, f0_2, f0_1, f2_6, f8_5, f13_5, f18_5, f23_9⟩ := fields_of_parts w (132 + g.toNat) (d.toNat) (a.toNat) (b.toNat) (4 + t.toNat * 64) (by omega) (by omega) (by omega) (by omega) (by omega) (by omega)
  have f2_6 : fld w 2 6 = 33 := by rw [f2_6]; omega
  have f0_1 : fld w 0 1 = g.toNat := by rw [f0_1]; omega
  have f0_2 : fld w 0 2 = g.toNat := by rw [f0_2]; omega
  have f23_6 : fld w 23 6 = 4 := (fld_function w _ 0 6 f23_9 hlt).trans (by unfold fld; omega)
  have f29_3 : fld w 29 3 = t.toNat := (fld_function w _ 6 3 f23_9 hlt).trans (by unfold fld; omega)
  refine ⟨hlt, ⟨fun e => absurd e (by omega), fun e => absurd (e : false = true) Bool.false_ne_true⟩, ?_⟩
  rw [decodeWord_major w _ (by omega), major21 w f2_6]; unfold decodeMajor21
  rw [f23_6]
  show (Option.elim (some (Instr.vminsc (bit w 0) (bits w 8 5) (bits w 13 5) (bits w 18 5) (bits w 29 3))) _ _ : Except DecodeError Instr) = _
  rw [bit_eq w 0 g f0_1, bits_eq w 8 d f8_5, bits_eq w 13 a f13_5, bits_eq w 18 b f18_5, bits_eq w 29 t f29_3]
  rfl

theorem vmaxsc (g : Bool) (d : BitVec 5) (a : BitVec 5) (b : BitVec 5) (t : BitVec 3) : Statement (.vmaxsc g d a b t) := by
  intro _ _
  have he : encodeFirst (.vmaxsc g d a b t) = 41943172 + g.toNat * 1 + d.toNat * 256 + a.toNat * 8192 + b.toNat * 262144 + t.toNat * 536870912 := rfl
  have lg := Bool.toNat_le g
  have ld := d.isLt
  have la := a.isLt
  have lb := b.isLt
  have lt := t.isLt
  have hp : payloadOf (.vmaxsc g d a b t) = 0 := rfl
  rw [he, hp]
  generalize hw : 41943172 + g.toNat * 1 + d.toNat * 256 + a.toNat * 8192 + b.toNat * 262144 + t.toNat * 536870912 = w
  obtain ⟨hlt, f0_2, f0_1, f2_6, f8_5, f13_5, f18_5, f23_9⟩ := fields_of_parts w (132 + g.toNat) (d.toNat) (a.toNat) (b.toNat) (5 + t.toNat * 64) (by omega) (by omega) (by omega) (by omega) (by omega) (by omega)
  have f2_6 : fld w 2 6 = 33 := by rw [f2_6]; omega
  have f0_1 : fld w 0 1 = g.toNat := by rw [f0_1]; omega
  have f0_2 : fld w 0 2 = g.toNat := by rw [f0_2]; omega
  have f23_6 : fld w 23 6 = 5 := (fld_function w _ 0 6 f23_9 hlt).trans (by unfold fld; omega)
  have f29_3 : fld w 29 3 = t.toNat := (fld_function w _ 6 3 f23_9 hlt).trans (by unfold fld; omega)
  refine ⟨hlt, ⟨fun e => absurd e (by omega), fun e => absurd (e : false = true) Bool.false_ne_true⟩, ?_⟩
  rw [decodeWord_major w _ (by omega), major21 w f2_6]; unfold decodeMajor21
  rw [f23_6]
  show (Option.elim (some (Instr.vmaxsc (bit w 0) (bits w 8 5) (bits w 13 5) (bits w 18 5) (bits w 29 3))) _ _ : Except DecodeError Instr) = _
  rw [bit_eq w 0 g f0_1, bits_eq w 8 d f8_5, bits_eq w 13 a f13_5, bits_eq w 18 b f18_5, bits_eq w 29 t f29_3]
  rfl

theorem vsplat (g : Bool) (d : BitVec 5) (a : BitVec 5) (t : BitVec 3) : Statement (.vsplat g d a t) := by
  intro _ _
  have he : encodeFirst (.vsplat g d a t) = 50331780 + g.toNat * 1 + d.toNat * 256 + a.toNat * 8192 + t.toNat * 536870912 := rfl
  have lg := Bool.toNat_le g
  have ld := d.isLt
  have la := a.isLt
  have lt := t.isLt
  have hp : payloadOf (.vsplat g d a t) = 0 := rfl
  rw [he, hp]
  generalize hw : 50331780 + g.toNat * 1 + d.toNat * 256 + a.toNat * 8192 + t.toNat * 536870912 = w
  obtain ⟨hlt, f0_2, f0_1, f2_6, f8_5, f13_5, f18_5, f23_9⟩ := fields_of_parts w (132 + g.toNat) (d.toNat) (a.toNat) (0) (6 + t.toNat * 64) (by omega) (by omega) (by omega) (by omega) (by omega) (by omega)
  have f2_6 : fld w 2 6 = 33 := by rw [f2_6]; omega
  have f0_1 : fld w 0 1 = g.toNat := by rw [f0_1]; omega
  have f0_2 : fld w 0 2 = g.toNat := by rw [f0_2]; omega
  have f23_6 : fld w 23 6 = 6 := (fld_function w _ 0 6 f23_9 hlt).trans (by unfold fld; omega)
  have f29_3 : fld w 29 3 = t.toNat := (fld_function w _ 6 3 f23_9 hlt).trans (by unfold fld; omega)
  refine ⟨hlt, ⟨fun e => absurd e (by omega), fun e => absurd (e : false = true) Bool.false_ne_true⟩, ?_⟩
  rw [decodeWord_major w _ (by omega), major21 w f2_6]; unfold decodeMajor21
  rw [f23_6, f18_5]
  show (Option.elim (some (Instr.vsplat (bit w 0) (bits w 8 5) (bits w 13 5) (bits w 29 3))) _ _ : Except DecodeError Instr) = _
  rw [bit_eq w 0 g f0_1, bits_eq w 8 d f8_5, bits_eq w 13 a f13_5, bits_eq w 29 t f29_3]
  rfl

theorem vins (g : Bool) (d : BitVec 5) (a : BitVec 5) (i : BitVec 5) (t : BitVec 3) : Statement (.vins g d a i t) := by
  intro _ _
  have he : encodeFirst (.vins g d a i t) = 58720388 + g.toNat * 1 + d.toNat * 256 + a.toNat * 8192 + i.toNat * 262144 + t.toNat * 536870912 := rfl
  have lg := Bool.toNat_le g
  have ld := d.isLt
  have la := a.isLt
  have li := i.isLt
  have lt := t.isLt
  have hp : payloadOf (.vins g d a i t) = 0 := rfl
  rw [he, hp]
  generalize hw : 58720388 + g.toNat * 1 + d.toNat * 256 + a.toNat * 8192 + i.toNat * 262144 + t.toNat * 536870912 = w
  obtain ⟨hlt, f0_2, f0_1, f2_6, f8_5, f13_5, f18_5, f23_9⟩ := fields_of_parts w (132 + g.toNat) (d.toNat) (a.toNat) (i.toNat) (7 + t.toNat * 64) (by omega) (by omega) (by omega) (by omega) (by omega) (by omega)
  have f2_6 : fld w 2 6 = 33 := by rw [f2_6]; omega
  have f0_1 : fld w 0 1 = g.toNat := by rw [f0_1]; omega
  have f0_2 : fld w 0 2 = g.toNat := by rw [f0_2]; omega
  have f23_6 : fld w 23 6 = 7 := (fld_function w _ 0 6 f23_9 hlt).trans (by unfold fld; omega)
  have f29_3 : fld w 29 3 = t.toNat := (fld_function w _ 6 3 f23_9 hlt).trans (by unfold fld; omega)
  refine ⟨hlt, ⟨fun e => absurd e (by omega), fun e => absurd (e : false = true) Bool.false_ne_true⟩, ?_⟩
  rw [decodeWord_major w _ (by omega), major21 w f2_6]; unfold decodeMajor21
  rw [f23_6]
  show (Option.elim (some (Instr.vins (bit w 0) (bits w 8 5) (bits w 13 5) (bits w 18 5) (bits w 29 3))) _ _ : Except DecodeError Instr) = _
  rw [bit_eq w 0 g f0_1, bits_eq w 8 d f8_5, bits_eq w 13 a f13_5, bits_eq w 18 i f18_5, bits_eq w 29 t f29_3]
  rfl

theorem vext (g : Bool) (d : BitVec 5) (a : BitVec 5) (i : BitVec 5) (t : BitVec 3) : Statement (.vext g d a i t) := by
  intro _ _
  have he : encodeFirst (.vext g d a i t) = 67108996 + g.toNat * 1 + d.toNat * 256 + a.toNat * 8192 + i.toNat * 262144 + t.toNat * 536870912 := rfl
  have lg := Bool.toNat_le g
  have ld := d.isLt
  have la := a.isLt
  have li := i.isLt
  have lt := t.isLt
  have hp : payloadOf (.vext g d a i t) = 0 := rfl
  rw [he, hp]
  generalize hw : 67108996 + g.toNat * 1 + d.toNat * 256 + a.toNat * 8192 + i.toNat * 262144 + t.toNat * 536870912 = w
  obtain ⟨hlt, f0_2, f0_1, f2_6, f8_5, f13_5, f18_5, f23_9⟩ := fields_of_parts w (132 + g.toNat) (d.toNat) (a.toNat) (i.toNat) (8 + t.toNat * 64) (by omega) (by omega) (by omega) (by omega) (by omega) (by omega)
  have f2_6 : fld w 2 6 = 33 := by rw [f2_6]; omega
  have f0_1 : fld w 0 1 = g.toNat := by rw [f0_1]; omega
  have f0_2 : fld w 0 2 = g.toNat := by rw [f0_2]; omega
  have f23_6 : fld w 23 6 = 8 := (fld_function w _ 0 6 f23_9 hlt).trans (by unfold fld; omega)
  have f29_3 : fld w 29 3 = t.toNat := (fld_function w _ 6 3 f23_9 hlt).trans (by unfold fld; omega)
  refine ⟨hlt, ⟨fun e => absurd e (by omega), fun e => absurd (e : false = true) Bool.false_ne_true⟩, ?_⟩
  rw [decodeWord_major w _ (by omega), major21 w f2_6]; unfold decodeMajor21
  rw [f23_6]
  show (Option.elim (some (Instr.vext (bit w 0) (bits w 8 5) (bits w 13 5) (bits w 18 5) (bits w 29 3))) _ _ : Except DecodeError Instr) = _
  rw [bit_eq w 0 g f0_1, bits_eq w 8 d f8_5, bits_eq w 13 a f13_5, bits_eq w 18 i f18_5, bits_eq w 29 t f29_3]
  rfl

theorem vsplati (g : Bool) (d : BitVec 5) (t : BitVec 3) (imm : BitVec 32) : Statement (.vsplati g d t imm) := by
  intro _ _
  have he : encodeFirst (.vsplati g d t imm) = 67 + g.toNat * 4 + d.toNat * 256 + t.toNat * 536870912 := rfl
  have lg := Bool.toNat_le g
  have ld := d.isLt
  have lt := t.isLt
  have hp : payloadOf (.vsplati g d t imm) = imm.toNat := rfl
  rw [he, hp]
  generalize hw : 67 + g.toNat * 4 + d.toNat * 256 + t.toNat * 536870912 = w
  have hlt : w < 2 ^ 32 := by omega
  have f0_2 : fld w 0 2 = 3 := by unfold fld; omega
  have f3_5 : fld w 3 5 = 8 := by unfold fld; omega
  have f13_16 : fld w 13 16 = 0 := by unfold fld; omega
  have f2_1 : fld w 2 1 = g.toNat := by unfold fld; omega
  have f8_5 : fld w 8 5 = d.toNat := by unfold fld; omega
  have f29_3 : fld w 29 3 = t.toNat := by unfold fld; omega
  refine ⟨hlt, ⟨fun _ => rfl, fun _ => f0_2⟩, ?_⟩
  rw [decodeWord_long w _ f0_2]; unfold decodeLong; rw [f3_5]
  simp only [f13_16]
  show (Option.elim (some (Instr.vsplati (bit w 2) (bits w 8 5) (bits w 29 3) (BitVec.ofNat 32 imm.toNat))) _ _ : Except DecodeError Instr) = _
  rw [bit_eq w 2 g f2_1, bits_eq w 8 d f8_5, bits_eq w 29 t f29_3, BitVec.ofNat_toNat, BitVec.setWidth_eq]
  rfl

theorem vcvt (g : Bool) (d : BitVec 5) (a : BitVec 5) (q : BitVec 5) (x : BitVec 4) (y : BitVec 4) : Statement (.vcvt g d a q x y) := by
  intro _ _
  have he : encodeFirst (.vcvt g d a q x y) = 136 + g.toNat * 1 + d.toNat * 256 + a.toNat * 8192 + q.toNat * 262144 + x.toNat * 8388608 + y.toNat * 134217728 := rfl
  have lg := Bool.toNat_le g
  have ld := d.isLt
  have la := a.isLt
  have lq := q.isLt
  have lx := x.isLt
  have ly := y.isLt
  have hp : payloadOf (.vcvt g d a q x y) = 0 := rfl
  rw [he, hp]
  generalize hw : 136 + g.toNat * 1 + d.toNat * 256 + a.toNat * 8192 + q.toNat * 262144 + x.toNat * 8388608 + y.toNat * 134217728 = w
  obtain ⟨hlt, f0_2, f0_1, f2_6, f8_5, f13_5, f18_5, f23_9⟩ := fields_of_parts w (136 + g.toNat) (d.toNat) (a.toNat) (q.toNat) (x.toNat * 1 + y.toNat * 16) (by omega) (by omega) (by omega) (by omega) (by omega) (by omega)
  have f2_6 : fld w 2 6 = 34 := by rw [f2_6]; omega
  have f0_1 : fld w 0 1 = g.toNat := by rw [f0_1]; omega
  have f0_2 : fld w 0 2 = g.toNat := by rw [f0_2]; omega
  have f31_1 : fld w 31 1 = 0 := (fld_function w _ 8 1 f23_9 hlt).trans (by unfold fld; omega)
  have f23_4 : fld w 23 4 = x.toNat := (fld_function w _ 0 4 f23_9 hlt).trans (by unfold fld; omega)
  have f27_4 : fld w 27 4 = y.toNat := (fld_function w _ 4 4 f23_9 hlt).trans (by unfold fld; omega)
  refine ⟨hlt, ⟨fun e => absurd e (by omega), fun e => absurd (e : false = true) Bool.false_ne_true⟩, ?_⟩
  rw [decodeWord_major w _ (by omega), major22 w f2_6]; unfold decodeMajor22
  rw [f31_1]
  show (Option.elim (some (Instr.vcvt (bit w 0) (bits w 8 5) (bits w 13 5) (bits w 18 5) (bits w 23 4) (bits w 27 4))) _ _ : Except DecodeError Instr) = _
  rw [bit_eq w 0 g f0_1, bits_eq w 8 d f8_5, bits_eq w 13 a f13_5, bits_eq w 18 q f18_5, bits_eq w 23 x f23_4, bits_eq w 27 y f27_4]
  rfl

theorem vredsum (g : Bool) (d : BitVec 5) (a : BitVec 5) (t : BitVec 3) : Statement (.vredsum g d a t) := by
  intro _ _
  have he : encodeFirst (.vredsum g d a t) = 140 + g.toNat * 1 + d.toNat * 256 + a.toNat * 8192 + t.toNat * 536870912 := rfl
  have lg := Bool.toNat_le g
  have ld := d.isLt
  have la := a.isLt
  have lt := t.isLt
  have hp : payloadOf (.vredsum g d a t) = 0 := rfl
  rw [he, hp]
  generalize hw : 140 + g.toNat * 1 + d.toNat * 256 + a.toNat * 8192 + t.toNat * 536870912 = w
  obtain ⟨hlt, f0_2, f0_1, f2_6, f8_5, f13_5, f18_5, f23_9⟩ := fields_of_parts w (140 + g.toNat) (d.toNat) (a.toNat) (0) (t.toNat * 64) (by omega) (by omega) (by omega) (by omega) (by omega) (by omega)
  have f2_6 : fld w 2 6 = 35 := by rw [f2_6]; omega
  have f0_1 : fld w 0 1 = g.toNat := by rw [f0_1]; omega
  have f0_2 : fld w 0 2 = g.toNat := by rw [f0_2]; omega
  have f23_6 : fld w 23 6 = 0 := (fld_function w _ 0 6 f23_9 hlt).trans (by unfold fld; omega)
  have f29_3 : fld w 29 3 = t.toNat := (fld_function w _ 6 3 f23_9 hlt).trans (by unfold fld; omega)
  refine ⟨hlt, ⟨fun e => absurd e (by omega), fun e => absurd (e : false = true) Bool.false_ne_true⟩, ?_⟩
  rw [decodeWord_major w _ (by omega), major23 w f2_6]; unfold decodeMajor23
  rw [f23_6, f18_5]
  show (Option.elim (some (Instr.vredsum (bit w 0) (bits w 8 5) (bits w 13 5) (bits w 29 3))) _ _ : Except DecodeError Instr) = _
  rw [bit_eq w 0 g f0_1, bits_eq w 8 d f8_5, bits_eq w 13 a f13_5, bits_eq w 29 t f29_3]
  rfl

theorem vredmax (g : Bool) (d : BitVec 5) (a : BitVec 5) (t : BitVec 3) : Statement (.vredmax g d a t) := by
  intro _ _
  have he : encodeFirst (.vredmax g d a t) = 8388748 + g.toNat * 1 + d.toNat * 256 + a.toNat * 8192 + t.toNat * 536870912 := rfl
  have lg := Bool.toNat_le g
  have ld := d.isLt
  have la := a.isLt
  have lt := t.isLt
  have hp : payloadOf (.vredmax g d a t) = 0 := rfl
  rw [he, hp]
  generalize hw : 8388748 + g.toNat * 1 + d.toNat * 256 + a.toNat * 8192 + t.toNat * 536870912 = w
  obtain ⟨hlt, f0_2, f0_1, f2_6, f8_5, f13_5, f18_5, f23_9⟩ := fields_of_parts w (140 + g.toNat) (d.toNat) (a.toNat) (0) (1 + t.toNat * 64) (by omega) (by omega) (by omega) (by omega) (by omega) (by omega)
  have f2_6 : fld w 2 6 = 35 := by rw [f2_6]; omega
  have f0_1 : fld w 0 1 = g.toNat := by rw [f0_1]; omega
  have f0_2 : fld w 0 2 = g.toNat := by rw [f0_2]; omega
  have f23_6 : fld w 23 6 = 1 := (fld_function w _ 0 6 f23_9 hlt).trans (by unfold fld; omega)
  have f29_3 : fld w 29 3 = t.toNat := (fld_function w _ 6 3 f23_9 hlt).trans (by unfold fld; omega)
  refine ⟨hlt, ⟨fun e => absurd e (by omega), fun e => absurd (e : false = true) Bool.false_ne_true⟩, ?_⟩
  rw [decodeWord_major w _ (by omega), major23 w f2_6]; unfold decodeMajor23
  rw [f23_6, f18_5]
  show (Option.elim (some (Instr.vredmax (bit w 0) (bits w 8 5) (bits w 13 5) (bits w 29 3))) _ _ : Except DecodeError Instr) = _
  rw [bit_eq w 0 g f0_1, bits_eq w 8 d f8_5, bits_eq w 13 a f13_5, bits_eq w 29 t f29_3]
  rfl

theorem vredmin (g : Bool) (d : BitVec 5) (a : BitVec 5) (t : BitVec 3) : Statement (.vredmin g d a t) := by
  intro _ _
  have he : encodeFirst (.vredmin g d a t) = 16777356 + g.toNat * 1 + d.toNat * 256 + a.toNat * 8192 + t.toNat * 536870912 := rfl
  have lg := Bool.toNat_le g
  have ld := d.isLt
  have la := a.isLt
  have lt := t.isLt
  have hp : payloadOf (.vredmin g d a t) = 0 := rfl
  rw [he, hp]
  generalize hw : 16777356 + g.toNat * 1 + d.toNat * 256 + a.toNat * 8192 + t.toNat * 536870912 = w
  obtain ⟨hlt, f0_2, f0_1, f2_6, f8_5, f13_5, f18_5, f23_9⟩ := fields_of_parts w (140 + g.toNat) (d.toNat) (a.toNat) (0) (2 + t.toNat * 64) (by omega) (by omega) (by omega) (by omega) (by omega) (by omega)
  have f2_6 : fld w 2 6 = 35 := by rw [f2_6]; omega
  have f0_1 : fld w 0 1 = g.toNat := by rw [f0_1]; omega
  have f0_2 : fld w 0 2 = g.toNat := by rw [f0_2]; omega
  have f23_6 : fld w 23 6 = 2 := (fld_function w _ 0 6 f23_9 hlt).trans (by unfold fld; omega)
  have f29_3 : fld w 29 3 = t.toNat := (fld_function w _ 6 3 f23_9 hlt).trans (by unfold fld; omega)
  refine ⟨hlt, ⟨fun e => absurd e (by omega), fun e => absurd (e : false = true) Bool.false_ne_true⟩, ?_⟩
  rw [decodeWord_major w _ (by omega), major23 w f2_6]; unfold decodeMajor23
  rw [f23_6, f18_5]
  show (Option.elim (some (Instr.vredmin (bit w 0) (bits w 8 5) (bits w 13 5) (bits w 29 3))) _ _ : Except DecodeError Instr) = _
  rw [bit_eq w 0 g f0_1, bits_eq w 8 d f8_5, bits_eq w 13 a f13_5, bits_eq w 29 t f29_3]
  rfl

theorem vperm (g : Bool) (d : BitVec 5) (a : BitVec 5) (b : BitVec 5) (t : BitVec 3) : Statement (.vperm g d a b t) := by
  intro _ _
  have he : encodeFirst (.vperm g d a b t) = 25165964 + g.toNat * 1 + d.toNat * 256 + a.toNat * 8192 + b.toNat * 262144 + t.toNat * 536870912 := rfl
  have lg := Bool.toNat_le g
  have ld := d.isLt
  have la := a.isLt
  have lb := b.isLt
  have lt := t.isLt
  have hp : payloadOf (.vperm g d a b t) = 0 := rfl
  rw [he, hp]
  generalize hw : 25165964 + g.toNat * 1 + d.toNat * 256 + a.toNat * 8192 + b.toNat * 262144 + t.toNat * 536870912 = w
  obtain ⟨hlt, f0_2, f0_1, f2_6, f8_5, f13_5, f18_5, f23_9⟩ := fields_of_parts w (140 + g.toNat) (d.toNat) (a.toNat) (b.toNat) (3 + t.toNat * 64) (by omega) (by omega) (by omega) (by omega) (by omega) (by omega)
  have f2_6 : fld w 2 6 = 35 := by rw [f2_6]; omega
  have f0_1 : fld w 0 1 = g.toNat := by rw [f0_1]; omega
  have f0_2 : fld w 0 2 = g.toNat := by rw [f0_2]; omega
  have f23_6 : fld w 23 6 = 3 := (fld_function w _ 0 6 f23_9 hlt).trans (by unfold fld; omega)
  have f29_3 : fld w 29 3 = t.toNat := (fld_function w _ 6 3 f23_9 hlt).trans (by unfold fld; omega)
  refine ⟨hlt, ⟨fun e => absurd e (by omega), fun e => absurd (e : false = true) Bool.false_ne_true⟩, ?_⟩
  rw [decodeWord_major w _ (by omega), major23 w f2_6]; unfold decodeMajor23
  rw [f23_6]
  show (Option.elim (some (Instr.vperm (bit w 0) (bits w 8 5) (bits w 13 5) (bits w 18 5) (bits w 29 3))) _ _ : Except DecodeError Instr) = _
  rw [bit_eq w 0 g f0_1, bits_eq w 8 d f8_5, bits_eq w 13 a f13_5, bits_eq w 18 b f18_5, bits_eq w 29 t f29_3]
  rfl

theorem vrot (g : Bool) (d : BitVec 5) (a : BitVec 5) (b : BitVec 5) (t : BitVec 3) : Statement (.vrot g d a b t) := by
  intro _ _
  have he : encodeFirst (.vrot g d a b t) = 33554572 + g.toNat * 1 + d.toNat * 256 + a.toNat * 8192 + b.toNat * 262144 + t.toNat * 536870912 := rfl
  have lg := Bool.toNat_le g
  have ld := d.isLt
  have la := a.isLt
  have lb := b.isLt
  have lt := t.isLt
  have hp : payloadOf (.vrot g d a b t) = 0 := rfl
  rw [he, hp]
  generalize hw : 33554572 + g.toNat * 1 + d.toNat * 256 + a.toNat * 8192 + b.toNat * 262144 + t.toNat * 536870912 = w
  obtain ⟨hlt, f0_2, f0_1, f2_6, f8_5, f13_5, f18_5, f23_9⟩ := fields_of_parts w (140 + g.toNat) (d.toNat) (a.toNat) (b.toNat) (4 + t.toNat * 64) (by omega) (by omega) (by omega) (by omega) (by omega) (by omega)
  have f2_6 : fld w 2 6 = 35 := by rw [f2_6]; omega
  have f0_1 : fld w 0 1 = g.toNat := by rw [f0_1]; omega
  have f0_2 : fld w 0 2 = g.toNat := by rw [f0_2]; omega
  have f23_6 : fld w 23 6 = 4 := (fld_function w _ 0 6 f23_9 hlt).trans (by unfold fld; omega)
  have f29_3 : fld w 29 3 = t.toNat := (fld_function w _ 6 3 f23_9 hlt).trans (by unfold fld; omega)
  refine ⟨hlt, ⟨fun e => absurd e (by omega), fun e => absurd (e : false = true) Bool.false_ne_true⟩, ?_⟩
  rw [decodeWord_major w _ (by omega), major23 w f2_6]; unfold decodeMajor23
  rw [f23_6]
  show (Option.elim (some (Instr.vrot (bit w 0) (bits w 8 5) (bits w 13 5) (bits w 18 5) (bits w 29 3))) _ _ : Except DecodeError Instr) = _
  rw [bit_eq w 0 g f0_1, bits_eq w 8 d f8_5, bits_eq w 13 a f13_5, bits_eq w 18 b f18_5, bits_eq w 29 t f29_3]
  rfl

theorem vsort (g : Bool) (d : BitVec 5) (a : BitVec 5) (h : BitVec 5) (t : BitVec 3) : Statement (.vsort g d a h t) := by
  intro _ _
  have he : encodeFirst (.vsort g d a h t) = 41943180 + g.toNat * 1 + d.toNat * 256 + a.toNat * 8192 + h.toNat * 262144 + t.toNat * 536870912 := rfl
  have lg := Bool.toNat_le g
  have ld := d.isLt
  have la := a.isLt
  have lh := h.isLt
  have lt := t.isLt
  have hp : payloadOf (.vsort g d a h t) = 0 := rfl
  rw [he, hp]
  generalize hw : 41943180 + g.toNat * 1 + d.toNat * 256 + a.toNat * 8192 + h.toNat * 262144 + t.toNat * 536870912 = w
  obtain ⟨hlt, f0_2, f0_1, f2_6, f8_5, f13_5, f18_5, f23_9⟩ := fields_of_parts w (140 + g.toNat) (d.toNat) (a.toNat) (h.toNat) (5 + t.toNat * 64) (by omega) (by omega) (by omega) (by omega) (by omega) (by omega)
  have f2_6 : fld w 2 6 = 35 := by rw [f2_6]; omega
  have f0_1 : fld w 0 1 = g.toNat := by rw [f0_1]; omega
  have f0_2 : fld w 0 2 = g.toNat := by rw [f0_2]; omega
  have f23_6 : fld w 23 6 = 5 := (fld_function w _ 0 6 f23_9 hlt).trans (by unfold fld; omega)
  have f29_3 : fld w 29 3 = t.toNat := (fld_function w _ 6 3 f23_9 hlt).trans (by unfold fld; omega)
  refine ⟨hlt, ⟨fun e => absurd e (by omega), fun e => absurd (e : false = true) Bool.false_ne_true⟩, ?_⟩
  rw [decodeWord_major w _ (by omega), major23 w f2_6]; unfold decodeMajor23
  rw [f23_6]
  show (Option.elim (some (Instr.vsort (bit w 0) (bits w 8 5) (bits w 13 5) (bits w 18 5) (bits w 29 3))) _ _ : Except DecodeError Instr) = _
  rw [bit_eq w 0 g f0_1, bits_eq w 8 d f8_5, bits_eq w 13 a f13_5, bits_eq w 18 h f18_5, bits_eq w 29 t f29_3]
  rfl

theorem vdupm (g : Bool) (d : BitVec 5) (a : BitVec 5) (h : BitVec 5) (t : BitVec 3) : Statement (.vdupm g d a h t) := by
  intro _ _
  have he : encodeFirst (.vdupm g d a h t) = 50331788 + g.toNat * 1 + d.toNat * 256 + a.toNat * 8192 + h.toNat * 262144 + t.toNat * 536870912 := rfl
  have lg := Bool.toNat_le g
  have ld := d.isLt
  have la := a.isLt
  have lh := h.isLt
  have lt := t.isLt
  have hp : payloadOf (.vdupm g d a h t) = 0 := rfl
  rw [he, hp]
  generalize hw : 50331788 + g.toNat * 1 + d.toNat * 256 + a.toNat * 8192 + h.toNat * 262144 + t.toNat * 536870912 = w
  obtain ⟨hlt, f0_2, f0_1, f2_6, f8_5, f13_5, f18_5, f23_9⟩ := fields_of_parts w (140 + g.toNat) (d.toNat) (a.toNat) (h.toNat) (6 + t.toNat * 64) (by omega) (by omega) (by omega) (by omega) (by omega) (by omega)
  have f2_6 : fld w 2 6 = 35 := by rw [f2_6]; omega
  have f0_1 : fld w 0 1 = g.toNat := by rw [f0_1]; omega
  have f0_2 : fld w 0 2 = g.toNat := by rw [f0_2]; omega
  have f23_6 : fld w 23 6 = 6 := (fld_function w _ 0 6 f23_9 hlt).trans (by unfold fld; omega)
  have f29_3 : fld w 29 3 = t.toNat := (fld_function w _ 6 3 f23_9 hlt).trans (by unfold fld; omega)
  refine ⟨hlt, ⟨fun e => absurd e (by omega), fun e => absurd (e : false = true) Bool.false_ne_true⟩, ?_⟩
  rw [decodeWord_major w _ (by omega), major23 w f2_6]; unfold decodeMajor23
  rw [f23_6]
  show (Option.elim (some (Instr.vdupm (bit w 0) (bits w 8 5) (bits w 13 5) (bits w 18 5) (bits w 29 3))) _ _ : Except DecodeError Instr) = _
  rw [bit_eq w 0 g f0_1, bits_eq w 8 d f8_5, bits_eq w 13 a f13_5, bits_eq w 18 h f18_5, bits_eq w 29 t f29_3]
  rfl

theorem vcompr (g : Bool) (d : BitVec 5) (a : BitVec 5) (m : BitVec 5) (t : BitVec 3) : Statement (.vcompr g d a m t) := by
  intro _ _
  have he : encodeFirst (.vcompr g d a m t) = 58720396 + g.toNat * 1 + d.toNat * 256 + a.toNat * 8192 + m.toNat * 262144 + t.toNat * 536870912 := rfl
  have lg := Bool.toNat_le g
  have ld := d.isLt
  have la := a.isLt
  have lm := m.isLt
  have lt := t.isLt
  have hp : payloadOf (.vcompr g d a m t) = 0 := rfl
  rw [he, hp]
  generalize hw : 58720396 + g.toNat * 1 + d.toNat * 256 + a.toNat * 8192 + m.toNat * 262144 + t.toNat * 536870912 = w
  obtain ⟨hlt, f0_2, f0_1, f2_6, f8_5, f13_5, f18_5, f23_9⟩ := fields_of_parts w (140 + g.toNat) (d.toNat) (a.toNat) (m.toNat) (7 + t.toNat * 64) (by omega) (by omega) (by omega) (by omega) (by omega) (by omega)
  have f2_6 : fld w 2 6 = 35 := by rw [f2_6]; omega
  have f0_1 : fld w 0 1 = g.toNat := by rw [f0_1]; omega
  have f0_2 : fld w 0 2 = g.toNat := by rw [f0_2]; omega
  have f23_6 : fld w 23 6 = 7 := (fld_function w _ 0 6 f23_9 hlt).trans (by unfold fld; omega)
  have f29_3 : fld w 29 3 = t.toNat := (fld_function w _ 6 3 f23_9 hlt).trans (by unfold fld; omega)
  refine ⟨hlt, ⟨fun e => absurd e (by omega), fun e => absurd (e : false = true) Bool.false_ne_true⟩, ?_⟩
  rw [decodeWord_major w _ (by omega), major23 w f2_6]; unfold decodeMajor23
  rw [f23_6]
  show (Option.elim (some (Instr.vcompr (bit w 0) (bits w 8 5) (bits w 13 5) (bits w 18 5) (bits w 29 3))) _ _ : Except DecodeError Instr) = _
  rw [bit_eq w 0 g f0_1, bits_eq w 8 d f8_5, bits_eq w 13 a f13_5, bits_eq w 18 m f18_5, bits_eq w 29 t f29_3]
  rfl

theorem vexpnd (g : Bool) (d : BitVec 5) (a : BitVec 5) (m : BitVec 5) (t : BitVec 3) : Statement (.vexpnd g d a m t) := by
  intro _ _
  have he : encodeFirst (.vexpnd g d a m t) = 67109004 + g.toNat * 1 + d.toNat * 256 + a.toNat * 8192 + m.toNat * 262144 + t.toNat * 536870912 := rfl
  have lg := Bool.toNat_le g
  have ld := d.isLt
  have la := a.isLt
  have lm := m.isLt
  have lt := t.isLt
  have hp : payloadOf (.vexpnd g d a m t) = 0 := rfl
  rw [he, hp]
  generalize hw : 67109004 + g.toNat * 1 + d.toNat * 256 + a.toNat * 8192 + m.toNat * 262144 + t.toNat * 536870912 = w
  obtain ⟨hlt, f0_2, f0_1, f2_6, f8_5, f13_5, f18_5, f23_9⟩ := fields_of_parts w (140 + g.toNat) (d.toNat) (a.toNat) (m.toNat) (8 + t.toNat * 64) (by omega) (by omega) (by omega) (by omega) (by omega) (by omega)
  have f2_6 : fld w 2 6 = 35 := by rw [f2_6]; omega
  have f0_1 : fld w 0 1 = g.toNat := by rw [f0_1]; omega
  have f0_2 : fld w 0 2 = g.toNat := by rw [f0_2]; omega
  have f23_6 : fld w 23 6 = 8 := (fld_function w _ 0 6 f23_9 hlt).trans (by unfold fld; omega)
  have f29_3 : fld w 29 3 = t.toNat := (fld_function w _ 6 3 f23_9 hlt).trans (by unfold fld; omega)
  refine ⟨hlt, ⟨fun e => absurd e (by omega), fun e => absurd (e : false = true) Bool.false_ne_true⟩, ?_⟩
  rw [decodeWord_major w _ (by omega), major23 w f2_6]; unfold decodeMajor23
  rw [f23_6]
  show (Option.elim (some (Instr.vexpnd (bit w 0) (bits w 8 5) (bits w 13 5) (bits w 18 5) (bits w 29 3))) _ _ : Except DecodeError Instr) = _
  rw [bit_eq w 0 g f0_1, bits_eq w 8 d f8_5, bits_eq w 13 a f13_5, bits_eq w 18 m f18_5, bits_eq w 29 t f29_3]
  rfl

theorem vcmp (g : Bool) (d : BitVec 5) (a : BitVec 5) (b : BitVec 5) (c : BitVec 6) (t : BitVec 3) : Statement (.vcmp g d a b c t) := by
  intro _ hwf
  have he : encodeFirst (.vcmp g d a b c t) = 144 + g.toNat * 1 + d.toNat * 256 + a.toNat * 8192 + b.toNat * 262144 + c.toNat * 8388608 + t.toNat * 536870912 := rfl
  have lg := Bool.toNat_le g
  have ld := d.isLt
  have la := a.isLt
  have lb := b.isLt
  have lc := c.isLt
  have lt := t.isLt
  simp only [wellFormed, Bool.and_eq_true, decide_eq_true_eq] at hwf
  have hp : payloadOf (.vcmp g d a b c t) = 0 := rfl
  rw [he, hp]
  generalize hw : 144 + g.toNat * 1 + d.toNat * 256 + a.toNat * 8192 + b.toNat * 262144 + c.toNat * 8388608 + t.toNat * 536870912 = w
  obtain ⟨hlt, f0_2, f0_1, f2_6, f8_5, f13_5, f18_5, f23_9⟩ := fields_of_parts w (144 + g.toNat) (d.toNat) (a.toNat) (b.toNat) (c.toNat * 1 + t.toNat * 64) (by omega) (by omega) (by omega) (by omega) (by omega) (by omega)
  have f2_6 : fld w 2 6 = 36 := by rw [f2_6]; omega
  have f0_1 : fld w 0 1 = g.toNat := by rw [f0_1]; omega
  have f0_2 : fld w 0 2 = g.toNat := by rw [f0_2]; omega
  have f23_6 : fld w 23 6 = c.toNat := (fld_function w _ 0 6 f23_9 hlt).trans (by unfold fld; omega)
  have f29_3 : fld w 29 3 = t.toNat := (fld_function w _ 6 3 f23_9 hlt).trans (by unfold fld; omega)
  refine ⟨hlt, ⟨fun e => absurd e (by omega), fun e => absurd (e : false = true) Bool.false_ne_true⟩, ?_⟩
  rw [decodeWord_major w _ (by omega), major24 w f2_6]; unfold decodeMajor24
  rw [if_neg (by omega)]
  rw [if_neg (by omega)]
  rw [if_neg (by omega)]
  rw [if_neg (by omega)]
  rw [if_neg (by omega)]
  rw [bit_eq w 0 g f0_1, bits_eq w 8 d f8_5, bits_eq w 13 a f13_5, bits_eq w 18 b f18_5, bits_eq w 23 c f23_6, bits_eq w 29 t f29_3]
  rfl

theorem vsel (g : Bool) (d : BitVec 5) (a : BitVec 5) (m : BitVec 5) (t : BitVec 3) : Statement (.vsel g d a m t) := by
  intro _ _
  have he : encodeFirst (.vsel g d a m t) = 75497616 + g.toNat * 1 + d.toNat * 256 + a.toNat * 8192 + m.toNat * 262144 + t.toNat * 536870912 := rfl
  have lg := Bool.toNat_le g
  have ld := d.isLt
  have la := a.isLt
  have lm := m.isLt
  have lt := t.isLt
  have hp : payloadOf (.vsel g d a m t) = 0 := rfl
  rw [he, hp]
  generalize hw : 75497616 + g.toNat * 1 + d.toNat * 256 + a.toNat * 8192 + m.toNat * 262144 + t.toNat * 536870912 = w
  obtain ⟨hlt, f0_2, f0_1, f2_6, f8_5, f13_5, f18_5, f23_9⟩ := fields_of_parts w (144 + g.toNat) (d.toNat) (a.toNat) (m.toNat) (9 + t.toNat * 64) (by omega) (by omega) (by omega) (by omega) (by omega) (by omega)
  have f2_6 : fld w 2 6 = 36 := by rw [f2_6]; omega
  have f0_1 : fld w 0 1 = g.toNat := by rw [f0_1]; omega
  have f0_2 : fld w 0 2 = g.toNat := by rw [f0_2]; omega
  have f23_6 : fld w 23 6 = 9 := (fld_function w _ 0 6 f23_9 hlt).trans (by unfold fld; omega)
  have f29_3 : fld w 29 3 = t.toNat := (fld_function w _ 6 3 f23_9 hlt).trans (by unfold fld; omega)
  refine ⟨hlt, ⟨fun e => absurd e (by omega), fun e => absurd (e : false = true) Bool.false_ne_true⟩, ?_⟩
  rw [decodeWord_major w _ (by omega), major24 w f2_6]; unfold decodeMajor24
  rw [if_neg (by omega)]
  rw [if_neg (by omega)]
  rw [if_neg (by omega)]
  rw [if_neg (by omega)]
  rw [if_pos (by omega)]
  rw [bit_eq w 0 g f0_1, bits_eq w 8 d f8_5, bits_eq w 13 a f13_5, bits_eq w 18 m f18_5, bits_eq w 29 t f29_3]
  rfl

theorem pand (g : Bool) (d : BitVec 5) (a : BitVec 5) (b : BitVec 5) : Statement (.pand g d a b) := by
  intro _ _
  have he : encodeFirst (.pand g d a b) = 83886224 + g.toNat * 1 + d.toNat * 256 + a.toNat * 8192 + b.toNat * 262144 := rfl
  have lg := Bool.toNat_le g
  have ld := d.isLt
  have la := a.isLt
  have lb := b.isLt
  have hp : payloadOf (.pand g d a b) = 0 := rfl
  rw [he, hp]
  generalize hw : 83886224 + g.toNat * 1 + d.toNat * 256 + a.toNat * 8192 + b.toNat * 262144 = w
  obtain ⟨hlt, f0_2, f0_1, f2_6, f8_5, f13_5, f18_5, f23_9⟩ := fields_of_parts w (144 + g.toNat) (d.toNat) (a.toNat) (b.toNat) (10) (by omega) (by omega) (by omega) (by omega) (by omega) (by omega)
  have f2_6 : fld w 2 6 = 36 := by rw [f2_6]; omega
  have f0_1 : fld w 0 1 = g.toNat := by rw [f0_1]; omega
  have f0_2 : fld w 0 2 = g.toNat := by rw [f0_2]; omega
  refine ⟨hlt, ⟨fun e => absurd e (by omega), fun e => absurd (e : false = true) Bool.false_ne_true⟩, ?_⟩
  rw [decodeWord_major w _ (by omega), major24 w f2_6]; unfold decodeMajor24
  rw [f23_9]
  show (Option.elim (some (Instr.pand (bit w 0) (bits w 8 5) (bits w 13 5) (bits w 18 5))) _ _ : Except DecodeError Instr) = _
  rw [bit_eq w 0 g f0_1, bits_eq w 8 d f8_5, bits_eq w 13 a f13_5, bits_eq w 18 b f18_5]
  rfl

theorem por (g : Bool) (d : BitVec 5) (a : BitVec 5) (b : BitVec 5) : Statement (.por g d a b) := by
  intro _ _
  have he : encodeFirst (.por g d a b) = 92274832 + g.toNat * 1 + d.toNat * 256 + a.toNat * 8192 + b.toNat * 262144 := rfl
  have lg := Bool.toNat_le g
  have ld := d.isLt
  have la := a.isLt
  have lb := b.isLt
  have hp : payloadOf (.por g d a b) = 0 := rfl
  rw [he, hp]
  generalize hw : 92274832 + g.toNat * 1 + d.toNat * 256 + a.toNat * 8192 + b.toNat * 262144 = w
  obtain ⟨hlt, f0_2, f0_1, f2_6, f8_5, f13_5, f18_5, f23_9⟩ := fields_of_parts w (144 + g.toNat) (d.toNat) (a.toNat) (b.toNat) (11) (by omega) (by omega) (by omega) (by omega) (by omega) (by omega)
  have f2_6 : fld w 2 6 = 36 := by rw [f2_6]; omega
  have f0_1 : fld w 0 1 = g.toNat := by rw [f0_1]; omega
  have f0_2 : fld w 0 2 = g.toNat := by rw [f0_2]; omega
  refine ⟨hlt, ⟨fun e => absurd e (by omega), fun e => absurd (e : false = true) Bool.false_ne_true⟩, ?_⟩
  rw [decodeWord_major w _ (by omega), major24 w f2_6]; unfold decodeMajor24
  rw [f23_9]
  show (Option.elim (some (Instr.por (bit w 0) (bits w 8 5) (bits w 13 5) (bits w 18 5))) _ _ : Except DecodeError Instr) = _
  rw [bit_eq w 0 g f0_1, bits_eq w 8 d f8_5, bits_eq w 13 a f13_5, bits_eq w 18 b f18_5]
  rfl

theorem pnot (g : Bool) (d : BitVec 5) (a : BitVec 5) : Statement (.pnot g d a) := by
  intro _ _
  have he : encodeFirst (.pnot g d a) = 100663440 + g.toNat * 1 + d.toNat * 256 + a.toNat * 8192 := rfl
  have lg := Bool.toNat_le g
  have ld := d.isLt
  have la := a.isLt
  have hp : payloadOf (.pnot g d a) = 0 := rfl
  rw [he, hp]
  generalize hw : 100663440 + g.toNat * 1 + d.toNat * 256 + a.toNat * 8192 = w
  obtain ⟨hlt, f0_2, f0_1, f2_6, f8_5, f13_5, f18_5, f23_9⟩ := fields_of_parts w (144 + g.toNat) (d.toNat) (a.toNat) (0) (12) (by omega) (by omega) (by omega) (by omega) (by omega) (by omega)
  have f2_6 : fld w 2 6 = 36 := by rw [f2_6]; omega
  have f0_1 : fld w 0 1 = g.toNat := by rw [f0_1]; omega
  have f0_2 : fld w 0 2 = g.toNat := by rw [f0_2]; omega
  refine ⟨hlt, ⟨fun e => absurd e (by omega), fun e => absurd (e : false = true) Bool.false_ne_true⟩, ?_⟩
  rw [decodeWord_major w _ (by omega), major24 w f2_6]; unfold decodeMajor24
  rw [f23_9, f18_5]
  show (Option.elim (some (Instr.pnot (bit w 0) (bits w 8 5) (bits w 13 5))) _ _ : Except DecodeError Instr) = _
  rw [bit_eq w 0 g f0_1, bits_eq w 8 d f8_5, bits_eq w 13 a f13_5]
  rfl

theorem pcnt (g : Bool) (d : BitVec 5) (a : BitVec 5) : Statement (.pcnt g d a) := by
  intro _ _
  have he : encodeFirst (.pcnt g d a) = 109052048 + g.toNat * 1 + d.toNat * 256 + a.toNat * 8192 := rfl
  have lg := Bool.toNat_le g
  have ld := d.isLt
  have la := a.isLt
  have hp : payloadOf (.pcnt g d a) = 0 := rfl
  rw [he, hp]
  generalize hw : 109052048 + g.toNat * 1 + d.toNat * 256 + a.toNat * 8192 = w
  obtain ⟨hlt, f0_2, f0_1, f2_6, f8_5, f13_5, f18_5, f23_9⟩ := fields_of_parts w (144 + g.toNat) (d.toNat) (a.toNat) (0) (13) (by omega) (by omega) (by omega) (by omega) (by omega) (by omega)
  have f2_6 : fld w 2 6 = 36 := by rw [f2_6]; omega
  have f0_1 : fld w 0 1 = g.toNat := by rw [f0_1]; omega
  have f0_2 : fld w 0 2 = g.toNat := by rw [f0_2]; omega
  refine ⟨hlt, ⟨fun e => absurd e (by omega), fun e => absurd (e : false = true) Bool.false_ne_true⟩, ?_⟩
  rw [decodeWord_major w _ (by omega), major24 w f2_6]; unfold decodeMajor24
  rw [f23_9, f18_5]
  show (Option.elim (some (Instr.pcnt (bit w 0) (bits w 8 5) (bits w 13 5))) _ _ : Except DecodeError Instr) = _
  rw [bit_eq w 0 g f0_1, bits_eq w 8 d f8_5, bits_eq w 13 a f13_5]
  rfl

theorem sbind (p : BitVec 5) (a : BitVec 5) : Statement (.sbind p a) := by
  intro _ _
  have he : encodeFirst (.sbind p a) = 148 + p.toNat * 256 + a.toNat * 8192 := rfl
  have lp := p.isLt
  have la := a.isLt
  have hp : payloadOf (.sbind p a) = 0 := rfl
  rw [he, hp]
  generalize hw : 148 + p.toNat * 256 + a.toNat * 8192 = w
  obtain ⟨hlt, f0_2, f0_1, f2_6, f8_5, f13_5, f18_5, f23_9⟩ := fields_of_parts w (148) (p.toNat) (a.toNat) (0) (0) (by omega) (by omega) (by omega) (by omega) (by omega) (by omega)
  refine ⟨hlt, ⟨fun e => absurd e (by omega), fun e => absurd (e : false = true) Bool.false_ne_true⟩, ?_⟩
  rw [decodeWord_major w _ (by omega), major25 w f2_6]; unfold decodeMajor25
  rw [f23_9, f18_5]
  show (Option.elim (some (Instr.sbind (bits w 8 5) (bits w 13 5))) _ _ : Except DecodeError Instr) = _
  rw [bits_eq w 8 p f8_5, bits_eq w 13 a f13_5]
  rfl

theorem sunbind (p : BitVec 5) : Statement (.sunbind p) := by
  intro _ _
  have he : encodeFirst (.sunbind p) = 8388756 + p.toNat * 256 := rfl
  have lp := p.isLt
  have hp : payloadOf (.sunbind p) = 0 := rfl
  rw [he, hp]
  generalize hw : 8388756 + p.toNat * 256 = w
  obtain ⟨hlt, f0_2, f0_1, f2_6, f8_5, f13_5, f18_5, f23_9⟩ := fields_of_parts w (148) (p.toNat) (0) (0) (1) (by omega) (by omega) (by omega) (by omega) (by omega) (by omega)
  refine ⟨hlt, ⟨fun e => absurd e (by omega), fun e => absurd (e : false = true) Bool.false_ne_true⟩, ?_⟩
  rw [decodeWord_major w _ (by omega), major25 w f2_6]; unfold decodeMajor25
  rw [f23_9, f18_5, f13_5]
  show (Option.elim (some (Instr.sunbind (bits w 8 5))) _ _ : Except DecodeError Instr) = _
  rw [bits_eq w 8 p f8_5]
  rfl

theorem sstat (d : BitVec 5) (p : BitVec 5) : Statement (.sstat d p) := by
  intro _ _
  have he : encodeFirst (.sstat d p) = 16777364 + d.toNat * 256 + p.toNat * 8192 := rfl
  have ld := d.isLt
  have lp := p.isLt
  have hp : payloadOf (.sstat d p) = 0 := rfl
  rw [he, hp]
  generalize hw : 16777364 + d.toNat * 256 + p.toNat * 8192 = w
  obtain ⟨hlt, f0_2, f0_1, f2_6, f8_5, f13_5, f18_5, f23_9⟩ := fields_of_parts w (148) (d.toNat) (p.toNat) (0) (2) (by omega) (by omega) (by omega) (by omega) (by omega) (by omega)
  refine ⟨hlt, ⟨fun e => absurd e (by omega), fun e => absurd (e : false = true) Bool.false_ne_true⟩, ?_⟩
  rw [decodeWord_major w _ (by omega), major25 w f2_6]; unfold decodeMajor25
  rw [f23_9, f18_5]
  show (Option.elim (some (Instr.sstat (bits w 8 5) (bits w 13 5))) _ _ : Except DecodeError Instr) = _
  rw [bits_eq w 8 d f8_5, bits_eq w 13 p f13_5]
  rfl

theorem gw (d : BitVec 5) (a : BitVec 5) : Statement (.gw d a) := by
  intro _ _
  have he : encodeFirst (.gw d a) = 152 + d.toNat * 256 + a.toNat * 8192 := rfl
  have ld := d.isLt
  have la := a.isLt
  have hp : payloadOf (.gw d a) = 0 := rfl
  rw [he, hp]
  generalize hw : 152 + d.toNat * 256 + a.toNat * 8192 = w
  obtain ⟨hlt, f0_2, f0_1, f2_6, f8_5, f13_5, f18_5, f23_9⟩ := fields_of_parts w (152) (d.toNat) (a.toNat) (0) (0) (by omega) (by omega) (by omega) (by omega) (by omega) (by omega)
  refine ⟨hlt, ⟨fun e => absurd e (by omega), fun e => absurd (e : false = true) Bool.false_ne_true⟩, ?_⟩
  rw [decodeWord_major w _ (by omega), major26 w f2_6]; unfold decodeMajor26
  rw [f23_9, f18_5]
  show (Option.elim (some (Instr.gw (bits w 8 5) (bits w 13 5))) _ _ : Except DecodeError Instr) = _
  rw [bits_eq w 8 d f8_5, bits_eq w 13 a f13_5]
  rfl

theorem gr (d : BitVec 5) (a : BitVec 5) : Statement (.gr d a) := by
  intro _ _
  have he : encodeFirst (.gr d a) = 8388760 + d.toNat * 256 + a.toNat * 8192 := rfl
  have ld := d.isLt
  have la := a.isLt
  have hp : payloadOf (.gr d a) = 0 := rfl
  rw [he, hp]
  generalize hw : 8388760 + d.toNat * 256 + a.toNat * 8192 = w
  obtain ⟨hlt, f0_2, f0_1, f2_6, f8_5, f13_5, f18_5, f23_9⟩ := fields_of_parts w (152) (d.toNat) (a.toNat) (0) (1) (by omega) (by omega) (by omega) (by omega) (by omega) (by omega)
  refine ⟨hlt, ⟨fun e => absurd e (by omega), fun e => absurd (e : false = true) Bool.false_ne_true⟩, ?_⟩
  rw [decodeWord_major w _ (by omega), major26 w f2_6]; unfold decodeMajor26
  rw [f23_9, f18_5]
  show (Option.elim (some (Instr.gr (bits w 8 5) (bits w 13 5))) _ _ : Except DecodeError Instr) = _
  rw [bits_eq w 8 d f8_5, bits_eq w 13 a f13_5]
  rfl

theorem gclr : Statement .gclr := by
  intro _ _
  have he : encodeFirst (.gclr : Instr) = 16777368 := rfl
  have hp : payloadOf (.gclr : Instr) = 0 := rfl
  rw [he, hp]
  generalize hw : 16777368 = w
  obtain ⟨hlt, f0_2, f0_1, f2_6, f8_5, f13_5, f18_5, f23_9⟩ := fields_of_parts w (152) (0) (0) (0) (2) (by omega) (by omega) (by omega) (by omega) (by omega) (by omega)
  refine ⟨hlt, ⟨fun e => absurd e (by omega), fun e => absurd (e : false = true) Bool.false_ne_true⟩, ?_⟩
  rw [decodeWord_major w _ (by omega), major26 w f2_6]; unfold decodeMajor26
  rw [f23_9, f18_5, f13_5, f8_5]
  show (Option.elim (some (Instr.gclr)) _ _ : Except DecodeError Instr) = _
  rfl

theorem ecpy (a : BitVec 5) (b : BitVec 5) (h : Bool) : Statement (.ecpy a b h) := by
  intro _ _
  have he : encodeFirst (.ecpy a b h) = 156 + a.toNat * 8192 + b.toNat * 262144 + h.toNat * 8388608 := rfl
  have la := a.isLt
  have lb := b.isLt
  have lh := Bool.toNat_le h
  have hp : payloadOf (.ecpy a b h) = 0 := rfl
  rw [he, hp]
  generalize hw : 156 + a.toNat * 8192 + b.toNat * 262144 + h.toNat * 8388608 = w
  obtain ⟨hlt, f0_2, f0_1, f2_6, f8_5, f13_5, f18_5, f23_9⟩ := fields_of_parts w (156) (0) (a.toNat) (b.toNat) (h.toNat * 1) (by omega) (by omega) (by omega) (by omega) (by omega) (by omega)
  have f24_8 : fld w 24 8 = 0 := (fld_function w _ 1 8 f23_9 hlt).trans (by unfold fld; omega)
  have f23_1 : fld w 23 1 = h.toNat := (fld_function w _ 0 1 f23_9 hlt).trans (by unfold fld; omega)
  refine ⟨hlt, ⟨fun e => absurd e (by omega), fun e => absurd (e : false = true) Bool.false_ne_true⟩, ?_⟩
  rw [decodeWord_major w _ (by omega), major27 w f2_6]; unfold decodeMajor27
  rw [if_neg (by omega)]
  rw [if_neg (by omega)]
  rw [if_neg (by omega)]
  rw [if_pos (by omega)]
  rw [bits_eq w 13 a f13_5, bits_eq w 18 b f18_5, bit_eq w 23 h f23_1]
  rfl

theorem egth (a : BitVec 5) (b : BitVec 5) (h : Bool) : Statement (.egth a b h) := by
  intro _ _
  have he : encodeFirst (.egth a b h) = 412 + a.toNat * 8192 + b.toNat * 262144 + h.toNat * 8388608 := rfl
  have la := a.isLt
  have lb := b.isLt
  have lh := Bool.toNat_le h
  have hp : payloadOf (.egth a b h) = 0 := rfl
  rw [he, hp]
  generalize hw : 412 + a.toNat * 8192 + b.toNat * 262144 + h.toNat * 8388608 = w
  obtain ⟨hlt, f0_2, f0_1, f2_6, f8_5, f13_5, f18_5, f23_9⟩ := fields_of_parts w (156) (1) (a.toNat) (b.toNat) (h.toNat * 1) (by omega) (by omega) (by omega) (by omega) (by omega) (by omega)
  have f24_8 : fld w 24 8 = 0 := (fld_function w _ 1 8 f23_9 hlt).trans (by unfold fld; omega)
  have f23_1 : fld w 23 1 = h.toNat := (fld_function w _ 0 1 f23_9 hlt).trans (by unfold fld; omega)
  refine ⟨hlt, ⟨fun e => absurd e (by omega), fun e => absurd (e : false = true) Bool.false_ne_true⟩, ?_⟩
  rw [decodeWord_major w _ (by omega), major27 w f2_6]; unfold decodeMajor27
  rw [if_neg (by omega)]
  rw [if_neg (by omega)]
  rw [if_neg (by omega)]
  rw [if_neg (by omega)]
  rw [if_pos (by omega)]
  rw [bits_eq w 13 a f13_5, bits_eq w 18 b f18_5, bit_eq w 23 h f23_1]
  rfl

theorem esct (a : BitVec 5) (b : BitVec 5) (h : Bool) : Statement (.esct a b h) := by
  intro _ _
  have he : encodeFirst (.esct a b h) = 668 + a.toNat * 8192 + b.toNat * 262144 + h.toNat * 8388608 := rfl
  have la := a.isLt
  have lb := b.isLt
  have lh := Bool.toNat_le h
  have hp : payloadOf (.esct a b h) = 0 := rfl
  rw [he, hp]
  generalize hw : 668 + a.toNat * 8192 + b.toNat * 262144 + h.toNat * 8388608 = w
  obtain ⟨hlt, f0_2, f0_1, f2_6, f8_5, f13_5, f18_5, f23_9⟩ := fields_of_parts w (156) (2) (a.toNat) (b.toNat) (h.toNat * 1) (by omega) (by omega) (by omega) (by omega) (by omega) (by omega)
  have f24_8 : fld w 24 8 = 0 := (fld_function w _ 1 8 f23_9 hlt).trans (by unfold fld; omega)
  have f23_1 : fld w 23 1 = h.toNat := (fld_function w _ 0 1 f23_9 hlt).trans (by unfold fld; omega)
  refine ⟨hlt, ⟨fun e => absurd e (by omega), fun e => absurd (e : false = true) Bool.false_ne_true⟩, ?_⟩
  rw [decodeWord_major w _ (by omega), major27 w f2_6]; unfold decodeMajor27
  rw [if_neg (by omega)]
  rw [if_neg (by omega)]
  rw [if_neg (by omega)]
  rw [if_neg (by omega)]
  rw [if_neg (by omega)]
  rw [if_pos (by omega)]
  rw [bits_eq w 13 a f13_5, bits_eq w 18 b f18_5, bit_eq w 23 h f23_1]
  rfl

theorem exch (a : BitVec 5) (b : BitVec 5) (h : Bool) : Statement (.exch a b h) := by
  intro _ _
  have he : encodeFirst (.exch a b h) = 924 + a.toNat * 8192 + b.toNat * 262144 + h.toNat * 8388608 := rfl
  have la := a.isLt
  have lb := b.isLt
  have lh := Bool.toNat_le h
  have hp : payloadOf (.exch a b h) = 0 := rfl
  rw [he, hp]
  generalize hw : 924 + a.toNat * 8192 + b.toNat * 262144 + h.toNat * 8388608 = w
  obtain ⟨hlt, f0_2, f0_1, f2_6, f8_5, f13_5, f18_5, f23_9⟩ := fields_of_parts w (156) (3) (a.toNat) (b.toNat) (h.toNat * 1) (by omega) (by omega) (by omega) (by omega) (by omega) (by omega)
  have f24_8 : fld w 24 8 = 0 := (fld_function w _ 1 8 f23_9 hlt).trans (by unfold fld; omega)
  have f23_1 : fld w 23 1 = h.toNat := (fld_function w _ 0 1 f23_9 hlt).trans (by unfold fld; omega)
  refine ⟨hlt, ⟨fun e => absurd e (by omega), fun e => absurd (e : false = true) Bool.false_ne_true⟩, ?_⟩
  rw [decodeWord_major w _ (by omega), major27 w f2_6]; unfold decodeMajor27
  rw [if_neg (by omega)]
  rw [if_neg (by omega)]
  rw [if_neg (by omega)]
  rw [if_neg (by omega)]
  rw [if_neg (by omega)]
  rw [if_neg (by omega)]
  rw [if_pos (by omega)]
  rw [bits_eq w 13 a f13_5, bits_eq w 18 b f18_5, bit_eq w 23 h f23_1]
  rfl

theorem emma (g : Bool) (a : BitVec 5) (b : BitVec 5) (h : Bool) (t : Bool) : Statement (.emma g a b h t) := by
  intro _ _
  have he : encodeFirst (.emma g a b h t) = 1180 + g.toNat * 1 + a.toNat * 8192 + b.toNat * 262144 + h.toNat * 8388608 + t.toNat * 16777216 := rfl
  have lg := Bool.toNat_le g
  have la := a.isLt
  have lb := b.isLt
  have lh := Bool.toNat_le h
  have lt := Bool.toNat_le t
  have hp : payloadOf (.emma g a b h t) = 0 := rfl
  rw [he, hp]
  generalize hw : 1180 + g.toNat * 1 + a.toNat * 8192 + b.toNat * 262144 + h.toNat * 8388608 + t.toNat * 16777216 = w
  obtain ⟨hlt, f0_2, f0_1, f2_6, f8_5, f13_5, f18_5, f23_9⟩ := fields_of_parts w (156 + g.toNat) (4) (a.toNat) (b.toNat) (h.toNat * 1 + t.toNat * 2) (by omega) (by omega) (by omega) (by omega) (by omega) (by omega)
  have f2_6 : fld w 2 6 = 39 := by rw [f2_6]; omega
  have f0_1 : fld w 0 1 = g.toNat := by rw [f0_1]; omega
  have f0_2 : fld w 0 2 = g.toNat := by rw [f0_2]; omega
  have f24_8 : fld w 24 8 = t.toNat := (fld_function w _ 1 8 f23_9 hlt).trans (by unfold fld; omega)
  have f25_7 : fld w 25 7 = 0 := (fld_function w _ 2 7 f23_9 hlt).trans (by unfold fld; omega)
  have f23_1 : fld w 23 1 = h.toNat := (fld_function w _ 0 1 f23_9 hlt).trans (by unfold fld; omega)
  have f24_1 : fld w 24 1 = t.toNat := (fld_function w _ 1 1 f23_9 hlt).trans (by unfold fld; omega)
  refine ⟨hlt, ⟨fun e => absurd e (by omega), fun e => absurd (e : false = true) Bool.false_ne_true⟩, ?_⟩
  rw [decodeWord_major w _ (by omega), major27 w f2_6]; unfold decodeMajor27
  rw [if_neg (by omega)]
  rw [if_neg (by omega)]
  rw [if_neg (by omega)]
  rw [if_neg (by omega)]
  rw [if_neg (by omega)]
  rw [if_neg (by omega)]
  rw [if_neg (by omega)]
  rw [if_neg (by omega)]
  rw [if_neg (by omega)]
  rw [if_neg (by omega)]
  rw [if_neg (by omega)]
  rw [if_pos (by omega)]
  rw [bit_eq w 0 g f0_1, bits_eq w 13 a f13_5, bits_eq w 18 b f18_5, bit_eq w 23 h f23_1, bit_eq w 24 t f24_1]
  rfl

theorem emmz (a : BitVec 5) (h : Bool) : Statement (.emmz a h) := by
  intro _ _
  have he : encodeFirst (.emmz a h) = 1436 + a.toNat * 8192 + h.toNat * 8388608 := rfl
  have la := a.isLt
  have lh := Bool.toNat_le h
  have hp : payloadOf (.emmz a h) = 0 := rfl
  rw [he, hp]
  generalize hw : 1436 + a.toNat * 8192 + h.toNat * 8388608 = w
  obtain ⟨hlt, f0_2, f0_1, f2_6, f8_5, f13_5, f18_5, f23_9⟩ := fields_of_parts w (156) (5) (a.toNat) (0) (h.toNat * 1) (by omega) (by omega) (by omega) (by omega) (by omega) (by omega)
  have f24_8 : fld w 24 8 = 0 := (fld_function w _ 1 8 f23_9 hlt).trans (by unfold fld; omega)
  have f23_1 : fld w 23 1 = h.toNat := (fld_function w _ 0 1 f23_9 hlt).trans (by unfold fld; omega)
  refine ⟨hlt, ⟨fun e => absurd e (by omega), fun e => absurd (e : false = true) Bool.false_ne_true⟩, ?_⟩
  rw [decodeWord_major w _ (by omega), major27 w f2_6]; unfold decodeMajor27
  rw [if_neg (by omega)]
  rw [if_pos (by omega)]
  rw [bits_eq w 13 a f13_5, bit_eq w 23 h f23_1]
  rfl

theorem emmd (g : Bool) (a : BitVec 5) (b : BitVec 5) (h : Bool) : Statement (.emmd g a b h) := by
  intro _ _
  have he : encodeFirst (.emmd g a b h) = 1692 + g.toNat * 1 + a.toNat * 8192 + b.toNat * 262144 + h.toNat * 8388608 := rfl
  have lg := Bool.toNat_le g
  have la := a.isLt
  have lb := b.isLt
  have lh := Bool.toNat_le h
  have hp : payloadOf (.emmd g a b h) = 0 := rfl
  rw [he, hp]
  generalize hw : 1692 + g.toNat * 1 + a.toNat * 8192 + b.toNat * 262144 + h.toNat * 8388608 = w
  obtain ⟨hlt, f0_2, f0_1, f2_6, f8_5, f13_5, f18_5, f23_9⟩ := fields_of_parts w (156 + g.toNat) (6) (a.toNat) (b.toNat) (h.toNat * 1) (by omega) (by omega) (by omega) (by omega) (by omega) (by omega)
  have f2_6 : fld w 2 6 = 39 := by rw [f2_6]; omega
  have f0_1 : fld w 0 1 = g.toNat := by rw [f0_1]; omega
  have f0_2 : fld w 0 2 = g.toNat := by rw [f0_2]; omega
  have f24_8 : fld w 24 8 = 0 := (fld_function w _ 1 8 f23_9 hlt).trans (by unfold fld; omega)
  have f23_1 : fld w 23 1 = h.toNat := (fld_function w _ 0 1 f23_9 hlt).trans (by unfold fld; omega)
  refine ⟨hlt, ⟨fun e => absurd e (by omega), fun e => absurd (e : false = true) Bool.false_ne_true⟩, ?_⟩
  rw [decodeWord_major w _ (by omega), major27 w f2_6]; unfold decodeMajor27
  rw [if_neg (by omega)]
  rw [if_neg (by omega)]
  rw [if_neg (by omega)]
  rw [if_neg (by omega)]
  rw [if_neg (by omega)]
  rw [if_neg (by omega)]
  rw [if_neg (by omega)]
  rw [if_neg (by omega)]
  rw [if_neg (by omega)]
  rw [if_neg (by omega)]
  rw [if_pos (by omega)]
  rw [bit_eq w 0 g f0_1, bits_eq w 13 a f13_5, bits_eq w 18 b f18_5, bit_eq w 23 h f23_1]
  rfl

theorem ecoll (a : BitVec 5) (b : BitVec 5) : Statement (.ecoll a b) := by
  intro _ _
  have he : encodeFirst (.ecoll a b) = 2204 + a.toNat * 8192 + b.toNat * 262144 := rfl
  have la := a.isLt
  have lb := b.isLt
  have hp : payloadOf (.ecoll a b) = 0 := rfl
  rw [he, hp]
  generalize hw : 2204 + a.toNat * 8192 + b.toNat * 262144 = w
  obtain ⟨hlt, f0_2, f0_1, f2_6, f8_5, f13_5, f18_5, f23_9⟩ := fields_of_parts w (156) (8) (a.toNat) (b.toNat) (0) (by omega) (by omega) (by omega) (by omega) (by omega) (by omega)
  have f24_8 : fld w 24 8 = 0 := (fld_function w _ 1 8 f23_9 hlt).trans (by unfold fld; omega)
  refine ⟨hlt, ⟨fun e => absurd e (by omega), fun e => absurd (e : false = true) Bool.false_ne_true⟩, ?_⟩
  rw [decodeWord_major w _ (by omega), major27 w f2_6]; unfold decodeMajor27
  rw [if_neg (by omega)]
  rw [if_neg (by omega)]
  rw [if_pos (by omega)]
  rw [bits_eq w 13 a f13_5, bits_eq w 18 b f18_5]
  rfl

theorem etopk (a : BitVec 5) (b : BitVec 5) (h : Bool) : Statement (.etopk a b h) := by
  intro _ _
  have he : encodeFirst (.etopk a b h) = 2460 + a.toNat * 8192 + b.toNat * 262144 + h.toNat * 8388608 := rfl
  have la := a.isLt
  have lb := b.isLt
  have lh := Bool.toNat_le h
  have hp : payloadOf (.etopk a b h) = 0 := rfl
  rw [he, hp]
  generalize hw : 2460 + a.toNat * 8192 + b.toNat * 262144 + h.toNat * 8388608 = w
  obtain ⟨hlt, f0_2, f0_1, f2_6, f8_5, f13_5, f18_5, f23_9⟩ := fields_of_parts w (156) (9) (a.toNat) (b.toNat) (h.toNat * 1) (by omega) (by omega) (by omega) (by omega) (by omega) (by omega)
  have f24_8 : fld w 24 8 = 0 := (fld_function w _ 1 8 f23_9 hlt).trans (by unfold fld; omega)
  have f23_1 : fld w 23 1 = h.toNat := (fld_function w _ 0 1 f23_9 hlt).trans (by unfold fld; omega)
  refine ⟨hlt, ⟨fun e => absurd e (by omega), fun e => absurd (e : false = true) Bool.false_ne_true⟩, ?_⟩
  rw [decodeWord_major w _ (by omega), major27 w f2_6]; unfold decodeMajor27
  rw [if_neg (by omega)]
  rw [if_neg (by omega)]
  rw [if_neg (by omega)]
  rw [if_neg (by omega)]
  rw [if_neg (by omega)]
  rw [if_neg (by omega)]
  rw [if_neg (by omega)]
  rw [if_pos (by omega)]
  rw [bits_eq w 13 a f13_5, bits_eq w 18 b f18_5, bit_eq w 23 h f23_1]
  rfl

theorem eclone (a : BitVec 5) : Statement (.eclone a) := by
  intro _ _
  have he : encodeFirst (.eclone a) = 2716 + a.toNat * 8192 := rfl
  have la := a.isLt
  have hp : payloadOf (.eclone a) = 0 := rfl
  rw [he, hp]
  generalize hw : 2716 + a.toNat * 8192 = w
  obtain ⟨hlt, f0_2, f0_1, f2_6, f8_5, f13_5, f18_5, f23_9⟩ := fields_of_parts w (156) (10) (a.toNat) (0) (0) (by omega) (by omega) (by omega) (by omega) (by omega) (by omega)
  refine ⟨hlt, ⟨fun e => absurd e (by omega), fun e => absurd (e : false = true) Bool.false_ne_true⟩, ?_⟩
  rw [decodeWord_major w _ (by omega), major27 w f2_6]; unfold decodeMajor27
  rw [f0_1, f23_9, f18_5, f8_5]
  show (Option.elim (some (Instr.eclone (bits w 13 5))) _ _ : Except DecodeError Instr) = _
  rw [bits_eq w 13 a f13_5]
  rfl

theorem enmsc (a : BitVec 5) (b : BitVec 5) (h : Bool) : Statement (.enmsc a b h) := by
  intro _ _
  have he : encodeFirst (.enmsc a b h) = 2972 + a.toNat * 8192 + b.toNat * 262144 + h.toNat * 8388608 := rfl
  have la := a.isLt
  have lb := b.isLt
  have lh := Bool.toNat_le h
  have hp : payloadOf (.enmsc a b h) = 0 := rfl
  rw [he, hp]
  generalize hw : 2972 + a.toNat * 8192 + b.toNat * 262144 + h.toNat * 8388608 = w
  obtain ⟨hlt, f0_2, f0_1, f2_6, f8_5, f13_5, f18_5, f23_9⟩ := fields_of_parts w (156) (11) (a.toNat) (b.toNat) (h.toNat * 1) (by omega) (by omega) (by omega) (by omega) (by omega) (by omega)
  have f24_8 : fld w 24 8 = 0 := (fld_function w _ 1 8 f23_9 hlt).trans (by unfold fld; omega)
  have f23_1 : fld w 23 1 = h.toNat := (fld_function w _ 0 1 f23_9 hlt).trans (by unfold fld; omega)
  refine ⟨hlt, ⟨fun e => absurd e (by omega), fun e => absurd (e : false = true) Bool.false_ne_true⟩, ?_⟩
  rw [decodeWord_major w _ (by omega), major27 w f2_6]; unfold decodeMajor27
  rw [if_neg (by omega)]
  rw [if_neg (by omega)]
  rw [if_neg (by omega)]
  rw [if_neg (by omega)]
  rw [if_neg (by omega)]
  rw [if_neg (by omega)]
  rw [if_neg (by omega)]
  rw [if_neg (by omega)]
  rw [if_pos (by omega)]
  rw [bits_eq w 13 a f13_5, bits_eq w 18 b f18_5, bit_eq w 23 h f23_1]
  rfl

theorem eptab (a : BitVec 5) (b : BitVec 5) (h : Bool) : Statement (.eptab a b h) := by
  intro _ _
  have he : encodeFirst (.eptab a b h) = 3228 + a.toNat * 8192 + b.toNat * 262144 + h.toNat * 8388608 := rfl
  have la := a.isLt
  have lb := b.isLt
  have lh := Bool.toNat_le h
  have hp : payloadOf (.eptab a b h) = 0 := rfl
  rw [he, hp]
  generalize hw : 3228 + a.toNat * 8192 + b.toNat * 262144 + h.toNat * 8388608 = w
  obtain ⟨hlt, f0_2, f0_1, f2_6, f8_5, f13_5, f18_5, f23_9⟩ := fields_of_parts w (156) (12) (a.toNat) (b.toNat) (h.toNat * 1) (by omega) (by omega) (by omega) (by omega) (by omega) (by omega)
  have f24_8 : fld w 24 8 = 0 := (fld_function w _ 1 8 f23_9 hlt).trans (by unfold fld; omega)
  have f23_1 : fld w 23 1 = h.toNat := (fld_function w _ 0 1 f23_9 hlt).trans (by unfold fld; omega)
  refine ⟨hlt, ⟨fun e => absurd e (by omega), fun e => absurd (e : false = true) Bool.false_ne_true⟩, ?_⟩
  rw [decodeWord_major w _ (by omega), major27 w f2_6]; unfold decodeMajor27
  rw [if_neg (by omega)]
  rw [if_neg (by omega)]
  rw [if_neg (by omega)]
  rw [if_neg (by omega)]
  rw [if_neg (by omega)]
  rw [if_neg (by omega)]
  rw [if_neg (by omega)]
  rw [if_neg (by omega)]
  rw [if_neg (by omega)]
  rw [if_pos (by omega)]
  rw [bits_eq w 13 a f13_5, bits_eq w 18 b f18_5, bit_eq w 23 h f23_1]
  rfl

theorem lease (d : BitVec 5) (a : BitVec 5) : Statement (.lease d a) := by
  intro _ _
  have he : encodeFirst (.lease d a) = 160 + d.toNat * 256 + a.toNat * 8192 := rfl
  have ld := d.isLt
  have la := a.isLt
  have hp : payloadOf (.lease d a) = 0 := rfl
  rw [he, hp]
  generalize hw : 160 + d.toNat * 256 + a.toNat * 8192 = w
  obtain ⟨hlt, f0_2, f0_1, f2_6, f8_5, f13_5, f18_5, f23_9⟩ := fields_of_parts w (160) (d.toNat) (a.toNat) (0) (0) (by omega) (by omega) (by omega) (by omega) (by omega) (by omega)
  refine ⟨hlt, ⟨fun e => absurd e (by omega), fun e => absurd (e : false = true) Bool.false_ne_true⟩, ?_⟩
  rw [decodeWord_major w _ (by omega), major28 w f2_6]; unfold decodeMajor28
  rw [f23_9, f18_5]
  show (Option.elim (some (Instr.lease (bits w 8 5) (bits w 13 5))) _ _ : Except DecodeError Instr) = _
  rw [bits_eq w 8 d f8_5, bits_eq w 13 a f13_5]
  rfl

theorem unlease (d : BitVec 5) : Statement (.unlease d) := by
  intro _ _
  have he : encodeFirst (.unlease d) = 8388768 + d.toNat * 256 := rfl
  have ld := d.isLt
  have hp : payloadOf (.unlease d) = 0 := rfl
  rw [he, hp]
  generalize hw : 8388768 + d.toNat * 256 = w
  obtain ⟨hlt, f0_2, f0_1, f2_6, f8_5, f13_5, f18_5, f23_9⟩ := fields_of_parts w (160) (d.toNat) (0) (0) (1) (by omega) (by omega) (by omega) (by omega) (by omega) (by omega)
  refine ⟨hlt, ⟨fun e => absurd e (by omega), fun e => absurd (e : false = true) Bool.false_ne_true⟩, ?_⟩
  rw [decodeWord_major w _ (by omega), major28 w f2_6]; unfold decodeMajor28
  rw [f23_9, f18_5, f13_5]
  show (Option.elim (some (Instr.unlease (bits w 8 5))) _ _ : Except DecodeError Instr) = _
  rw [bits_eq w 8 d f8_5]
  rfl

theorem lstat (d : BitVec 5) : Statement (.lstat d) := by
  intro _ _
  have he : encodeFirst (.lstat d) = 16777376 + d.toNat * 256 := rfl
  have ld := d.isLt
  have hp : payloadOf (.lstat d) = 0 := rfl
  rw [he, hp]
  generalize hw : 16777376 + d.toNat * 256 = w
  obtain ⟨hlt, f0_2, f0_1, f2_6, f8_5, f13_5, f18_5, f23_9⟩ := fields_of_parts w (160) (d.toNat) (0) (0) (2) (by omega) (by omega) (by omega) (by omega) (by omega) (by omega)
  refine ⟨hlt, ⟨fun e => absurd e (by omega), fun e => absurd (e : false = true) Bool.false_ne_true⟩, ?_⟩
  rw [decodeWord_major w _ (by omega), major28 w f2_6]; unfold decodeMajor28
  rw [f23_9, f18_5, f13_5]
  show (Option.elim (some (Instr.lstat (bits w 8 5))) _ _ : Except DecodeError Instr) = _
  rw [bits_eq w 8 d f8_5]
  rfl

theorem bbinit (a : BitVec 5) : Statement (.bbinit a) := by
  intro _ _
  have he : encodeFirst (.bbinit a) = 164 + a.toNat * 8192 := rfl
  have la := a.isLt
  have hp : payloadOf (.bbinit a) = 0 := rfl
  rw [he, hp]
  generalize hw : 164 + a.toNat * 8192 = w
  obtain ⟨hlt, f0_2, f0_1, f2_6, f8_5, f13_5, f18_5, f23_9⟩ := fields_of_parts w (164) (0) (a.toNat) (0) (0) (by omega) (by omega) (by omega) (by omega) (by omega) (by omega)
  refine ⟨hlt, ⟨fun e => absurd e (by omega), fun e => absurd (e : false = true) Bool.false_ne_true⟩, ?_⟩
  rw [decodeWord_major w _ (by omega), major29 w f2_6]; unfold decodeMajor29
  rw [f23_9, f18_5, f8_5]
  show (Option.elim (some (Instr.bbinit (bits w 13 5))) _ _ : Except DecodeError Instr) = _
  rw [bits_eq w 13 a f13_5]
  rfl

theorem bbexp (a : BitVec 5) (n : BitVec 5) : Statement (.bbexp a n) := by
  intro _ _
  have he : encodeFirst (.bbexp a n) = 8388772 + a.toNat * 8192 + n.toNat * 262144 := rfl
  have la := a.isLt
  have ln := n.isLt
  have hp : payloadOf (.bbexp a n) = 0 := rfl
  rw [he, hp]
  generalize hw : 8388772 + a.toNat * 8192 + n.toNat * 262144 = w
  obtain ⟨hlt, f0_2, f0_1, f2_6, f8_5, f13_5, f18_5, f23_9⟩ := fields_of_parts w (164) (0) (a.toNat) (n.toNat) (1) (by omega) (by omega) (by omega) (by omega) (by omega) (by omega)
  have f19_4 : fld w 19 4 = (n.toNat / 2) := by unfold fld; omega
  refine ⟨hlt, ⟨fun e => absurd e (by omega), fun e => absurd (e : false = true) Bool.false_ne_true⟩, ?_⟩
  rw [decodeWord_major w _ (by omega), major29 w f2_6]; unfold decodeMajor29
  rw [f23_9, f8_5]
  show (Option.elim (some (Instr.bbexp (bits w 13 5) (bits w 18 5))) _ _ : Except DecodeError Instr) = _
  rw [bits_eq w 13 a f13_5, bits_eq w 18 n f18_5]
  rfl

theorem bbwait (a : BitVec 5) (p : Bool) : Statement (.bbwait a p) := by
  intro _ _
  have he : encodeFirst (.bbwait a p) = 16777380 + a.toNat * 8192 + p.toNat * 262144 := rfl
  have la := a.isLt
  have lp := Bool.toNat_le p
  have hp : payloadOf (.bbwait a p) = 0 := rfl
  rw [he, hp]
  generalize hw : 16777380 + a.toNat * 8192 + p.toNat * 262144 = w
  obtain ⟨hlt, f0_2, f0_1, f2_6, f8_5, f13_5, f18_14⟩ := fields_of_imm w 164 (0) (a.toNat) (64 + p.toNat) (by omega) (by decide) (by omega) (by omega) (by omega)
  have f23_9 : fld w 23 9 = 2 := (fld_immediate w _ 5 9 f18_14 hlt).trans (by unfold fld; omega)
  have f18_5 : fld w 18 5 = p.toNat := (fld_immediate w _ 0 5 f18_14 hlt).trans (by unfold fld; omega)
  have f19_4 : fld w 19 4 = 0 := (fld_immediate w _ 1 4 f18_14 hlt).trans (by unfold fld; omega)
  have f18_1 : fld w 18 1 = p.toNat := (fld_immediate w _ 0 1 f18_14 hlt).trans (by unfold fld; omega)
  refine ⟨hlt, ⟨fun e => absurd e (by omega), fun e => absurd (e : false = true) Bool.false_ne_true⟩, ?_⟩
  rw [decodeWord_major w _ (by omega), major29 w f2_6]; unfold decodeMajor29
  rw [f23_9, f8_5, f19_4]
  show (Option.elim (some (Instr.bbwait (bits w 13 5) (bit w 18))) _ _ : Except DecodeError Instr) = _
  rw [bits_eq w 13 a f13_5, bit_eq w 18 p f18_1]
  rfl

theorem bbtest (d : BitVec 5) (a : BitVec 5) : Statement (.bbtest d a) := by
  intro _ _
  have he : encodeFirst (.bbtest d a) = 25165988 + d.toNat * 256 + a.toNat * 8192 := rfl
  have ld := d.isLt
  have la := a.isLt
  have hp : payloadOf (.bbtest d a) = 0 := rfl
  rw [he, hp]
  generalize hw : 25165988 + d.toNat * 256 + a.toNat * 8192 = w
  obtain ⟨hlt, f0_2, f0_1, f2_6, f8_5, f13_5, f18_5, f23_9⟩ := fields_of_parts w (164) (d.toNat) (a.toNat) (0) (3) (by omega) (by omega) (by omega) (by omega) (by omega) (by omega)
  have f19_4 : fld w 19 4 = 0 := by unfold fld; omega
  refine ⟨hlt, ⟨fun e => absurd e (by omega), fun e => absurd (e : false = true) Bool.false_ne_true⟩, ?_⟩
  rw [decodeWord_major w _ (by omega), major29 w f2_6]; unfold decodeMajor29
  rw [f23_9, f18_5, f19_4]
  show (Option.elim (some (Instr.bbtest (bits w 8 5) (bits w 13 5))) _ _ : Except DecodeError Instr) = _
  rw [bits_eq w 8 d f8_5, bits_eq w 13 a f13_5]
  rfl

theorem phnew (d : BitVec 5) (m : BitVec 5) : Statement (.phnew d m) := by
  intro _ _
  have he : encodeFirst (.phnew d m) = 168 + d.toNat * 256 + m.toNat * 8192 := rfl
  have ld := d.isLt
  have lm := m.isLt
  have hp : payloadOf (.phnew d m) = 0 := rfl
  rw [he, hp]
  generalize hw : 168 + d.toNat * 256 + m.toNat * 8192 = w
  obtain ⟨hlt, f0_2, f0_1, f2_6, f8_5, f13_5, f18_5, f23_9⟩ := fields_of_parts w (168) (d.toNat) (m.toNat) (0) (0) (by omega) (by omega) (by omega) (by omega) (by omega) (by omega)
  refine ⟨hlt, ⟨fun e => absurd e (by omega), fun e => absurd (e : false = true) Bool.false_ne_true⟩, ?_⟩
  rw [decodeWord_major w _ (by omega), major2A w f2_6]; unfold decodeMajor2A
  rw [f23_9, f18_5]
  show (Option.elim (some (Instr.phnew (bits w 8 5) (bits w 13 5))) _ _ : Except DecodeError Instr) = _
  rw [bits_eq w 8 d f8_5, bits_eq w 13 m f13_5]
  rfl

theorem phreg (d : BitVec 5) (h : BitVec 5) (m : BitVec 5) : Statement (.phreg d h m) := by
  intro _ _
  have he : encodeFirst (.phreg d h m) = 8388776 + d.toNat * 256 + h.toNat * 8192 + m.toNat * 262144 := rfl
  have ld := d.isLt
  have lh := h.isLt
  have lm := m.isLt
  have hp : payloadOf (.phreg d h m) = 0 := rfl
  rw [he, hp]
  generalize hw : 8388776 + d.toNat * 256 + h.toNat * 8192 + m.toNat * 262144 = w
  obtain ⟨hlt, f0_2, f0_1, f2_6, f8_5, f13_5, f18_5, f23_9⟩ := fields_of_parts w (168) (d.toNat) (h.toNat) (m.toNat) (1) (by omega) (by omega) (by omega) (by omega) (by omega) (by omega)
  refine ⟨hlt, ⟨fun e => absurd e (by omega), fun e => absurd (e : false = true) Bool.false_ne_true⟩, ?_⟩
  rw [decodeWord_major w _ (by omega), major2A w f2_6]; unfold decodeMajor2A
  rw [f23_9]
  show (Option.elim (some (Instr.phreg (bits w 8 5) (bits w 13 5) (bits w 18 5))) _ _ : Except DecodeError Instr) = _
  rw [bits_eq w 8 d f8_5, bits_eq w 13 h f13_5, bits_eq w 18 m f18_5]
  rfl

theorem phdrop (d : BitVec 5) (h : BitVec 5) : Statement (.phdrop d h) := by
  intro _ _
  have he : encodeFirst (.phdrop d h) = 16777384 + d.toNat * 256 + h.toNat * 8192 := rfl
  have ld := d.isLt
  have lh := h.isLt
  have hp : payloadOf (.phdrop d h) = 0 := rfl
  rw [he, hp]
  generalize hw : 16777384 + d.toNat * 256 + h.toNat * 8192 = w
  obtain ⟨hlt, f0_2, f0_1, f2_6, f8_5, f13_5, f18_5, f23_9⟩ := fields_of_parts w (168) (d.toNat) (h.toNat) (0) (2) (by omega) (by omega) (by omega) (by omega) (by omega) (by omega)
  refine ⟨hlt, ⟨fun e => absurd e (by omega), fun e => absurd (e : false = true) Bool.false_ne_true⟩, ?_⟩
  rw [decodeWord_major w _ (by omega), major2A w f2_6]; unfold decodeMajor2A
  rw [f23_9, f18_5]
  show (Option.elim (some (Instr.phdrop (bits w 8 5) (bits w 13 5))) _ _ : Except DecodeError Instr) = _
  rw [bits_eq w 8 d f8_5, bits_eq w 13 h f13_5]
  rfl

theorem phsig (d : BitVec 5) (h : BitVec 5) : Statement (.phsig d h) := by
  intro _ _
  have he : encodeFirst (.phsig d h) = 25165992 + d.toNat * 256 + h.toNat * 8192 := rfl
  have ld := d.isLt
  have lh := h.isLt
  have hp : payloadOf (.phsig d h) = 0 := rfl
  rw [he, hp]
  generalize hw : 25165992 + d.toNat * 256 + h.toNat * 8192 = w
  obtain ⟨hlt, f0_2, f0_1, f2_6, f8_5, f13_5, f18_5, f23_9⟩ := fields_of_parts w (168) (d.toNat) (h.toNat) (0) (3) (by omega) (by omega) (by omega) (by omega) (by omega) (by omega)
  refine ⟨hlt, ⟨fun e => absurd e (by omega), fun e => absurd (e : false = true) Bool.false_ne_true⟩, ?_⟩
  rw [decodeWord_major w _ (by omega), major2A w f2_6]; unfold decodeMajor2A
  rw [f23_9, f18_5]
  show (Option.elim (some (Instr.phsig (bits w 8 5) (bits w 13 5))) _ _ : Except DecodeError Instr) = _
  rw [bits_eq w 8 d f8_5, bits_eq w 13 h f13_5]
  rfl

theorem phwait (d : BitVec 5) (h : BitVec 5) : Statement (.phwait d h) := by
  intro _ _
  have he : encodeFirst (.phwait d h) = 33554600 + d.toNat * 256 + h.toNat * 8192 := rfl
  have ld := d.isLt
  have lh := h.isLt
  have hp : payloadOf (.phwait d h) = 0 := rfl
  rw [he, hp]
  generalize hw : 33554600 + d.toNat * 256 + h.toNat * 8192 = w
  obtain ⟨hlt, f0_2, f0_1, f2_6, f8_5, f13_5, f18_5, f23_9⟩ := fields_of_parts w (168) (d.toNat) (h.toNat) (0) (4) (by omega) (by omega) (by omega) (by omega) (by omega) (by omega)
  refine ⟨hlt, ⟨fun e => absurd e (by omega), fun e => absurd (e : false = true) Bool.false_ne_true⟩, ?_⟩
  rw [decodeWord_major w _ (by omega), major2A w f2_6]; unfold decodeMajor2A
  rw [f23_9, f18_5]
  show (Option.elim (some (Instr.phwait (bits w 8 5) (bits w 13 5))) _ _ : Except DecodeError Instr) = _
  rw [bits_eq w 8 d f8_5, bits_eq w 13 h f13_5]
  rfl

theorem phsw (d : BitVec 5) (h : BitVec 5) : Statement (.phsw d h) := by
  intro _ _
  have he : encodeFirst (.phsw d h) = 41943208 + d.toNat * 256 + h.toNat * 8192 := rfl
  have ld := d.isLt
  have lh := h.isLt
  have hp : payloadOf (.phsw d h) = 0 := rfl
  rw [he, hp]
  generalize hw : 41943208 + d.toNat * 256 + h.toNat * 8192 = w
  obtain ⟨hlt, f0_2, f0_1, f2_6, f8_5, f13_5, f18_5, f23_9⟩ := fields_of_parts w (168) (d.toNat) (h.toNat) (0) (5) (by omega) (by omega) (by omega) (by omega) (by omega) (by omega)
  refine ⟨hlt, ⟨fun e => absurd e (by omega), fun e => absurd (e : false = true) Bool.false_ne_true⟩, ?_⟩
  rw [decodeWord_major w _ (by omega), major2A w f2_6]; unfold decodeMajor2A
  rw [f23_9, f18_5]
  show (Option.elim (some (Instr.phsw (bits w 8 5) (bits w 13 5))) _ _ : Except DecodeError Instr) = _
  rw [bits_eq w 8 d f8_5, bits_eq w 13 h f13_5]
  rfl

theorem phq (d : BitVec 5) (h : BitVec 5) : Statement (.phq d h) := by
  intro _ _
  have he : encodeFirst (.phq d h) = 50331816 + d.toNat * 256 + h.toNat * 8192 := rfl
  have ld := d.isLt
  have lh := h.isLt
  have hp : payloadOf (.phq d h) = 0 := rfl
  rw [he, hp]
  generalize hw : 50331816 + d.toNat * 256 + h.toNat * 8192 = w
  obtain ⟨hlt, f0_2, f0_1, f2_6, f8_5, f13_5, f18_5, f23_9⟩ := fields_of_parts w (168) (d.toNat) (h.toNat) (0) (6) (by omega) (by omega) (by omega) (by omega) (by omega) (by omega)
  refine ⟨hlt, ⟨fun e => absurd e (by omega), fun e => absurd (e : false = true) Bool.false_ne_true⟩, ?_⟩
  rw [decodeWord_major w _ (by omega), major2A w f2_6]; unfold decodeMajor2A
  rw [f23_9, f18_5]
  show (Option.elim (some (Instr.phq (bits w 8 5) (bits w 13 5))) _ _ : Except DecodeError Instr) = _
  rw [bits_eq w 8 d f8_5, bits_eq w 13 h f13_5]
  rfl

theorem start (d : BitVec 5) (a : BitVec 5) (b : BitVec 5) : Statement (.start d a b) := by
  intro _ _
  have he : encodeFirst (.start d a b) = 172 + d.toNat * 256 + a.toNat * 8192 + b.toNat * 262144 := rfl
  have ld := d.isLt
  have la := a.isLt
  have lb := b.isLt
  have hp : payloadOf (.start d a b) = 0 := rfl
  rw [he, hp]
  generalize hw : 172 + d.toNat * 256 + a.toNat * 8192 + b.toNat * 262144 = w
  obtain ⟨hlt, f0_2, f0_1, f2_6, f8_5, f13_5, f18_5, f23_9⟩ := fields_of_parts w (172) (d.toNat) (a.toNat) (b.toNat) (0) (by omega) (by omega) (by omega) (by omega) (by omega) (by omega)
  refine ⟨hlt, ⟨fun e => absurd e (by omega), fun e => absurd (e : false = true) Bool.false_ne_true⟩, ?_⟩
  rw [decodeWord_major w _ (by omega), major2B w f2_6]; unfold decodeMajor2B
  rw [f23_9]
  show (Option.elim (some (Instr.start (bits w 8 5) (bits w 13 5) (bits w 18 5))) _ _ : Except DecodeError Instr) = _
  rw [bits_eq w 8 d f8_5, bits_eq w 13 a f13_5, bits_eq w 18 b f18_5]
  rfl

theorem startp (d : BitVec 5) (a : BitVec 5) (b : BitVec 5) : Statement (.startp d a b) := by
  intro _ _
  have he : encodeFirst (.startp d a b) = 8388780 + d.toNat * 256 + a.toNat * 8192 + b.toNat * 262144 := rfl
  have ld := d.isLt
  have la := a.isLt
  have lb := b.isLt
  have hp : payloadOf (.startp d a b) = 0 := rfl
  rw [he, hp]
  generalize hw : 8388780 + d.toNat * 256 + a.toNat * 8192 + b.toNat * 262144 = w
  obtain ⟨hlt, f0_2, f0_1, f2_6, f8_5, f13_5, f18_5, f23_9⟩ := fields_of_parts w (172) (d.toNat) (a.toNat) (b.toNat) (1) (by omega) (by omega) (by omega) (by omega) (by omega) (by omega)
  refine ⟨hlt, ⟨fun e => absurd e (by omega), fun e => absurd (e : false = true) Bool.false_ne_true⟩, ?_⟩
  rw [decodeWord_major w _ (by omega), major2B w f2_6]; unfold decodeMajor2B
  rw [f23_9]
  show (Option.elim (some (Instr.startp (bits w 8 5) (bits w 13 5) (bits w 18 5))) _ _ : Except DecodeError Instr) = _
  rw [bits_eq w 8 d f8_5, bits_eq w 13 a f13_5, bits_eq w 18 b f18_5]
  rfl

theorem quit : Statement .quit := by
  intro _ _
  have he : encodeFirst (.quit : Instr) = 16777388 := rfl
  have hp : payloadOf (.quit : Instr) = 0 := rfl
  rw [he, hp]
  generalize hw : 16777388 = w
  obtain ⟨hlt, f0_2, f0_1, f2_6, f8_5, f13_5, f18_5, f23_9⟩ := fields_of_parts w (172) (0) (0) (0) (2) (by omega) (by omega) (by omega) (by omega) (by omega) (by omega)
  refine ⟨hlt, ⟨fun e => absurd e (by omega), fun e => absurd (e : false = true) Bool.false_ne_true⟩, ?_⟩
  rw [decodeWord_major w _ (by omega), major2B w f2_6]; unfold decodeMajor2B
  rw [f23_9, f18_5, f13_5, f8_5]
  show (Option.elim (some (Instr.quit)) _ _ : Except DecodeError Instr) = _
  rfl

theorem yield : Statement .yield := by
  intro _ _
  have he : encodeFirst (.yield : Instr) = 25165996 := rfl
  have hp : payloadOf (.yield : Instr) = 0 := rfl
  rw [he, hp]
  generalize hw : 25165996 = w
  obtain ⟨hlt, f0_2, f0_1, f2_6, f8_5, f13_5, f18_5, f23_9⟩ := fields_of_parts w (172) (0) (0) (0) (3) (by omega) (by omega) (by omega) (by omega) (by omega) (by omega)
  refine ⟨hlt, ⟨fun e => absurd e (by omega), fun e => absurd (e : false = true) Bool.false_ne_true⟩, ?_⟩
  rw [decodeWord_major w _ (by omega), major2B w f2_6]; unfold decodeMajor2B
  rw [f23_9, f18_5, f13_5, f8_5]
  show (Option.elim (some (Instr.yield)) _ _ : Except DecodeError Instr) = _
  rfl

theorem ctxid (d : BitVec 5) : Statement (.ctxid d) := by
  intro _ _
  have he : encodeFirst (.ctxid d) = 33554604 + d.toNat * 256 := rfl
  have ld := d.isLt
  have hp : payloadOf (.ctxid d) = 0 := rfl
  rw [he, hp]
  generalize hw : 33554604 + d.toNat * 256 = w
  obtain ⟨hlt, f0_2, f0_1, f2_6, f8_5, f13_5, f18_5, f23_9⟩ := fields_of_parts w (172) (d.toNat) (0) (0) (4) (by omega) (by omega) (by omega) (by omega) (by omega) (by omega)
  refine ⟨hlt, ⟨fun e => absurd e (by omega), fun e => absurd (e : false = true) Bool.false_ne_true⟩, ?_⟩
  rw [decodeWord_major w _ (by omega), major2B w f2_6]; unfold decodeMajor2B
  rw [f23_9, f18_5, f13_5]
  show (Option.elim (some (Instr.ctxid (bits w 8 5))) _ _ : Except DecodeError Instr) = _
  rw [bits_eq w 8 d f8_5]
  rfl

theorem wid (d : BitVec 5) : Statement (.wid d) := by
  intro _ _
  have he : encodeFirst (.wid d) = 41943212 + d.toNat * 256 := rfl
  have ld := d.isLt
  have hp : payloadOf (.wid d) = 0 := rfl
  rw [he, hp]
  generalize hw : 41943212 + d.toNat * 256 = w
  obtain ⟨hlt, f0_2, f0_1, f2_6, f8_5, f13_5, f18_5, f23_9⟩ := fields_of_parts w (172) (d.toNat) (0) (0) (5) (by omega) (by omega) (by omega) (by omega) (by omega) (by omega)
  refine ⟨hlt, ⟨fun e => absurd e (by omega), fun e => absurd (e : false = true) Bool.false_ne_true⟩, ?_⟩
  rw [decodeWord_major w _ (by omega), major2B w f2_6]; unfold decodeMajor2B
  rw [f23_9, f18_5, f13_5]
  show (Option.elim (some (Instr.wid (bits w 8 5))) _ _ : Except DecodeError Instr) = _
  rw [bits_eq w 8 d f8_5]
  rfl

theorem widf (d : BitVec 5) (n : BitVec 5) : Statement (.widf d n) := by
  intro _ _
  have he : encodeFirst (.widf d n) = 50331820 + d.toNat * 256 + n.toNat * 262144 := rfl
  have ld := d.isLt
  have ln := n.isLt
  have hp : payloadOf (.widf d n) = 0 := rfl
  rw [he, hp]
  generalize hw : 50331820 + d.toNat * 256 + n.toNat * 262144 = w
  obtain ⟨hlt, f0_2, f0_1, f2_6, f8_5, f13_5, f18_5, f23_9⟩ := fields_of_parts w (172) (d.toNat) (0) (n.toNat) (6) (by omega) (by omega) (by omega) (by omega) (by omega) (by omega)
  refine ⟨hlt, ⟨fun e => absurd e (by omega), fun e => absurd (e : false = true) Bool.false_ne_true⟩, ?_⟩
  rw [decodeWord_major w _ (by omega), major2B w f2_6]; unfold decodeMajor2B
  rw [f23_9, f13_5]
  show (Option.elim (some (Instr.widf (bits w 8 5) (bits w 18 5))) _ _ : Except DecodeError Instr) = _
  rw [bits_eq w 8 d f8_5, bits_eq w 18 n f18_5]
  rfl

theorem joinh (d : BitVec 5) (h : BitVec 5) : Statement (.joinh d h) := by
  intro _ _
  have he : encodeFirst (.joinh d h) = 58720428 + d.toNat * 256 + h.toNat * 8192 := rfl
  have ld := d.isLt
  have lh := h.isLt
  have hp : payloadOf (.joinh d h) = 0 := rfl
  rw [he, hp]
  generalize hw : 58720428 + d.toNat * 256 + h.toNat * 8192 = w
  obtain ⟨hlt, f0_2, f0_1, f2_6, f8_5, f13_5, f18_5, f23_9⟩ := fields_of_parts w (172) (d.toNat) (h.toNat) (0) (7) (by omega) (by omega) (by omega) (by omega) (by omega) (by omega)
  refine ⟨hlt, ⟨fun e => absurd e (by omega), fun e => absurd (e : false = true) Bool.false_ne_true⟩, ?_⟩
  rw [decodeWord_major w _ (by omega), major2B w f2_6]; unfold decodeMajor2B
  rw [f23_9, f18_5]
  show (Option.elim (some (Instr.joinh (bits w 8 5) (bits w 13 5))) _ _ : Except DecodeError Instr) = _
  rw [bits_eq w 8 d f8_5, bits_eq w 13 h f13_5]
  rfl

theorem hstat (d : BitVec 5) (h : BitVec 5) : Statement (.hstat d h) := by
  intro _ _
  have he : encodeFirst (.hstat d h) = 67109036 + d.toNat * 256 + h.toNat * 8192 := rfl
  have ld := d.isLt
  have lh := h.isLt
  have hp : payloadOf (.hstat d h) = 0 := rfl
  rw [he, hp]
  generalize hw : 67109036 + d.toNat * 256 + h.toNat * 8192 = w
  obtain ⟨hlt, f0_2, f0_1, f2_6, f8_5, f13_5, f18_5, f23_9⟩ := fields_of_parts w (172) (d.toNat) (h.toNat) (0) (8) (by omega) (by omega) (by omega) (by omega) (by omega) (by omega)
  refine ⟨hlt, ⟨fun e => absurd e (by omega), fun e => absurd (e : false = true) Bool.false_ne_true⟩, ?_⟩
  rw [decodeWord_major w _ (by omega), major2B w f2_6]; unfold decodeMajor2B
  rw [f23_9, f18_5]
  show (Option.elim (some (Instr.hstat (bits w 8 5) (bits w 13 5))) _ _ : Except DecodeError Instr) = _
  rw [bits_eq w 8 d f8_5, bits_eq w 13 h f13_5]
  rfl

theorem send (d : BitVec 5) (h : BitVec 5) (v : BitVec 5) : Statement (.send d h v) := by
  intro _ _
  have he : encodeFirst (.send d h v) = 176 + d.toNat * 256 + h.toNat * 8192 + v.toNat * 262144 := rfl
  have ld := d.isLt
  have lh := h.isLt
  have lv := v.isLt
  have hp : payloadOf (.send d h v) = 0 := rfl
  rw [he, hp]
  generalize hw : 176 + d.toNat * 256 + h.toNat * 8192 + v.toNat * 262144 = w
  obtain ⟨hlt, f0_2, f0_1, f2_6, f8_5, f13_5, f18_5, f23_9⟩ := fields_of_parts w (176) (d.toNat) (h.toNat) (v.toNat) (0) (by omega) (by omega) (by omega) (by omega) (by omega) (by omega)
  refine ⟨hlt, ⟨fun e => absurd e (by omega), fun e => absurd (e : false = true) Bool.false_ne_true⟩, ?_⟩
  rw [decodeWord_major w _ (by omega), major2C w f2_6]; unfold decodeMajor2C
  rw [f23_9]
  show (Option.elim (some (Instr.send (bits w 8 5) (bits w 13 5) (bits w 18 5))) _ _ : Except DecodeError Instr) = _
  rw [bits_eq w 8 d f8_5, bits_eq w 13 h f13_5, bits_eq w 18 v f18_5]
  rfl

theorem sendv (d : BitVec 5) (h : BitVec 5) (v : BitVec 5) : Statement (.sendv d h v) := by
  intro _ _
  have he : encodeFirst (.sendv d h v) = 8388784 + d.toNat * 256 + h.toNat * 8192 + v.toNat * 262144 := rfl
  have ld := d.isLt
  have lh := h.isLt
  have lv := v.isLt
  have hp : payloadOf (.sendv d h v) = 0 := rfl
  rw [he, hp]
  generalize hw : 8388784 + d.toNat * 256 + h.toNat * 8192 + v.toNat * 262144 = w
  obtain ⟨hlt, f0_2, f0_1, f2_6, f8_5, f13_5, f18_5, f23_9⟩ := fields_of_parts w (176) (d.toNat) (h.toNat) (v.toNat) (1) (by omega) (by omega) (by omega) (by omega) (by omega) (by omega)
  refine ⟨hlt, ⟨fun e => absurd e (by omega), fun e => absurd (e : false = true) Bool.false_ne_true⟩, ?_⟩
  rw [decodeWord_major w _ (by omega), major2C w f2_6]; unfold decodeMajor2C
  rw [f23_9]
  show (Option.elim (some (Instr.sendv (bits w 8 5) (bits w 13 5) (bits w 18 5))) _ _ : Except DecodeError Instr) = _
  rw [bits_eq w 8 d f8_5, bits_eq w 13 h f13_5, bits_eq w 18 v f18_5]
  rfl

theorem sendb (d : BitVec 5) (a : BitVec 5) (b : BitVec 5) (imm : BitVec 32) : Statement (.sendb d a b imm) := by
  intro _ _
  have he : encodeFirst (.sendb d a b imm) = 35 + d.toNat * 256 + a.toNat * 8192 + b.toNat * 262144 := rfl
  have ld := d.isLt
  have la := a.isLt
  have lb := b.isLt
  have hp : payloadOf (.sendb d a b imm) = imm.toNat := rfl
  rw [he, hp]
  generalize hw : 35 + d.toNat * 256 + a.toNat * 8192 + b.toNat * 262144 = w
  have hlt : w < 2 ^ 32 := by omega
  have f0_2 : fld w 0 2 = 3 := by unfold fld; omega
  have f3_5 : fld w 3 5 = 4 := by unfold fld; omega
  have f23_9 : fld w 23 9 = 0 := by unfold fld; omega
  have f2_1 : fld w 2 1 = 0 := by unfold fld; omega
  have f8_5 : fld w 8 5 = d.toNat := by unfold fld; omega
  have f13_5 : fld w 13 5 = a.toNat := by unfold fld; omega
  have f18_5 : fld w 18 5 = b.toNat := by unfold fld; omega
  refine ⟨hlt, ⟨fun _ => rfl, fun _ => f0_2⟩, ?_⟩
  rw [decodeWord_long w _ f0_2]; unfold decodeLong; rw [f3_5]
  simp only [f2_1, f23_9]
  show (Option.elim (some (Instr.sendb (bits w 8 5) (bits w 13 5) (bits w 18 5) (BitVec.ofNat 32 imm.toNat))) _ _ : Except DecodeError Instr) = _
  rw [bits_eq w 8 d f8_5, bits_eq w 13 a f13_5, bits_eq w 18 b f18_5, BitVec.ofNat_toNat, BitVec.setWidth_eq]
  rfl

theorem mpop (d : BitVec 5) (m : BitVec 5) : Statement (.mpop d m) := by
  intro _ _
  have he : encodeFirst (.mpop d m) = 16777392 + d.toNat * 256 + m.toNat * 8192 := rfl
  have ld := d.isLt
  have lm := m.isLt
  have hp : payloadOf (.mpop d m) = 0 := rfl
  rw [he, hp]
  generalize hw : 16777392 + d.toNat * 256 + m.toNat * 8192 = w
  obtain ⟨hlt, f0_2, f0_1, f2_6, f8_5, f13_5, f18_5, f23_9⟩ := fields_of_parts w (176) (d.toNat) (m.toNat) (0) (2) (by omega) (by omega) (by omega) (by omega) (by omega) (by omega)
  refine ⟨hlt, ⟨fun e => absurd e (by omega), fun e => absurd (e : false = true) Bool.false_ne_true⟩, ?_⟩
  rw [decodeWord_major w _ (by omega), major2C w f2_6]; unfold decodeMajor2C
  rw [f23_9, f18_5]
  show (Option.elim (some (Instr.mpop (bits w 8 5) (bits w 13 5))) _ _ : Except DecodeError Instr) = _
  rw [bits_eq w 8 d f8_5, bits_eq w 13 m f13_5]
  rfl

theorem mpopv (d : BitVec 5) (m : BitVec 5) : Statement (.mpopv d m) := by
  intro _ _
  have he : encodeFirst (.mpopv d m) = 25166000 + d.toNat * 256 + m.toNat * 8192 := rfl
  have ld := d.isLt
  have lm := m.isLt
  have hp : payloadOf (.mpopv d m) = 0 := rfl
  rw [he, hp]
  generalize hw : 25166000 + d.toNat * 256 + m.toNat * 8192 = w
  obtain ⟨hlt, f0_2, f0_1, f2_6, f8_5, f13_5, f18_5, f23_9⟩ := fields_of_parts w (176) (d.toNat) (m.toNat) (0) (3) (by omega) (by omega) (by omega) (by omega) (by omega) (by omega)
  refine ⟨hlt, ⟨fun e => absurd e (by omega), fun e => absurd (e : false = true) Bool.false_ne_true⟩, ?_⟩
  rw [decodeWord_major w _ (by omega), major2C w f2_6]; unfold decodeMajor2C
  rw [f23_9, f18_5]
  show (Option.elim (some (Instr.mpopv (bits w 8 5) (bits w 13 5))) _ _ : Except DecodeError Instr) = _
  rw [bits_eq w 8 d f8_5, bits_eq w 13 m f13_5]
  rfl

theorem mpeek (d : BitVec 5) (m : BitVec 5) : Statement (.mpeek d m) := by
  intro _ _
  have he : encodeFirst (.mpeek d m) = 33554608 + d.toNat * 256 + m.toNat * 8192 := rfl
  have ld := d.isLt
  have lm := m.isLt
  have hp : payloadOf (.mpeek d m) = 0 := rfl
  rw [he, hp]
  generalize hw : 33554608 + d.toNat * 256 + m.toNat * 8192 = w
  obtain ⟨hlt, f0_2, f0_1, f2_6, f8_5, f13_5, f18_5, f23_9⟩ := fields_of_parts w (176) (d.toNat) (m.toNat) (0) (4) (by omega) (by omega) (by omega) (by omega) (by omega) (by omega)
  refine ⟨hlt, ⟨fun e => absurd e (by omega), fun e => absurd (e : false = true) Bool.false_ne_true⟩, ?_⟩
  rw [decodeWord_major w _ (by omega), major2C w f2_6]; unfold decodeMajor2C
  rw [f23_9, f18_5]
  show (Option.elim (some (Instr.mpeek (bits w 8 5) (bits w 13 5))) _ _ : Except DecodeError Instr) = _
  rw [bits_eq w 8 d f8_5, bits_eq w 13 m f13_5]
  rfl

theorem mbind (d : BitVec 5) (a : BitVec 5) : Statement (.mbind d a) := by
  intro _ _
  have he : encodeFirst (.mbind d a) = 41943216 + d.toNat * 256 + a.toNat * 8192 := rfl
  have ld := d.isLt
  have la := a.isLt
  have hp : payloadOf (.mbind d a) = 0 := rfl
  rw [he, hp]
  generalize hw : 41943216 + d.toNat * 256 + a.toNat * 8192 = w
  obtain ⟨hlt, f0_2, f0_1, f2_6, f8_5, f13_5, f18_5, f23_9⟩ := fields_of_parts w (176) (d.toNat) (a.toNat) (0) (5) (by omega) (by omega) (by omega) (by omega) (by omega) (by omega)
  refine ⟨hlt, ⟨fun e => absurd e (by omega), fun e => absurd (e : false = true) Bool.false_ne_true⟩, ?_⟩
  rw [decodeWord_major w _ (by omega), major2C w f2_6]; unfold decodeMajor2C
  rw [f23_9, f18_5]
  show (Option.elim (some (Instr.mbind (bits w 8 5) (bits w 13 5))) _ _ : Except DecodeError Instr) = _
  rw [bits_eq w 8 d f8_5, bits_eq w 13 a f13_5]
  rfl

theorem mfree (d : BitVec 5) (m : BitVec 5) : Statement (.mfree d m) := by
  intro _ _
  have he : encodeFirst (.mfree d m) = 50331824 + d.toNat * 256 + m.toNat * 8192 := rfl
  have ld := d.isLt
  have lm := m.isLt
  have hp : payloadOf (.mfree d m) = 0 := rfl
  rw [he, hp]
  generalize hw : 50331824 + d.toNat * 256 + m.toNat * 8192 = w
  obtain ⟨hlt, f0_2, f0_1, f2_6, f8_5, f13_5, f18_5, f23_9⟩ := fields_of_parts w (176) (d.toNat) (m.toNat) (0) (6) (by omega) (by omega) (by omega) (by omega) (by omega) (by omega)
  refine ⟨hlt, ⟨fun e => absurd e (by omega), fun e => absurd (e : false = true) Bool.false_ne_true⟩, ?_⟩
  rw [decodeWord_major w _ (by omega), major2C w f2_6]; unfold decodeMajor2C
  rw [f23_9, f18_5]
  show (Option.elim (some (Instr.mfree (bits w 8 5) (bits w 13 5))) _ _ : Except DecodeError Instr) = _
  rw [bits_eq w 8 d f8_5, bits_eq w 13 m f13_5]
  rfl

theorem tsend (d : BitVec 5) (a : BitVec 5) (b : BitVec 5) : Statement (.tsend d a b) := by
  intro _ _
  have he : encodeFirst (.tsend d a b) = 180 + d.toNat * 256 + a.toNat * 8192 + b.toNat * 262144 := rfl
  have ld := d.isLt
  have la := a.isLt
  have lb := b.isLt
  have hp : payloadOf (.tsend d a b) = 0 := rfl
  rw [he, hp]
  generalize hw : 180 + d.toNat * 256 + a.toNat * 8192 + b.toNat * 262144 = w
  obtain ⟨hlt, f0_2, f0_1, f2_6, f8_5, f13_5, f18_5, f23_9⟩ := fields_of_parts w (180) (d.toNat) (a.toNat) (b.toNat) (0) (by omega) (by omega) (by omega) (by omega) (by omega) (by omega)
  refine ⟨hlt, ⟨fun e => absurd e (by omega), fun e => absurd (e : false = true) Bool.false_ne_true⟩, ?_⟩
  rw [decodeWord_major w _ (by omega), major2D w f2_6]; unfold decodeMajor2D
  rw [f23_9]
  show (Option.elim (some (Instr.tsend (bits w 8 5) (bits w 13 5) (bits w 18 5))) _ _ : Except DecodeError Instr) = _
  rw [bits_eq w 8 d f8_5, bits_eq w 13 a f13_5, bits_eq w 18 b f18_5]
  rfl

theorem tbwd (d : BitVec 5) (a : BitVec 5) (b : BitVec 5) : Statement (.tbwd d a b) := by
  intro _ _
  have he : encodeFirst (.tbwd d a b) = 8388788 + d.toNat * 256 + a.toNat * 8192 + b.toNat * 262144 := rfl
  have ld := d.isLt
  have la := a.isLt
  have lb := b.isLt
  have hp : payloadOf (.tbwd d a b) = 0 := rfl
  rw [he, hp]
  generalize hw : 8388788 + d.toNat * 256 + a.toNat * 8192 + b.toNat * 262144 = w
  obtain ⟨hlt, f0_2, f0_1, f2_6, f8_5, f13_5, f18_5, f23_9⟩ := fields_of_parts w (180) (d.toNat) (a.toNat) (b.toNat) (1) (by omega) (by omega) (by omega) (by omega) (by omega) (by omega)
  refine ⟨hlt, ⟨fun e => absurd e (by omega), fun e => absurd (e : false = true) Bool.false_ne_true⟩, ?_⟩
  rw [decodeWord_major w _ (by omega), major2D w f2_6]; unfold decodeMajor2D
  rw [f23_9]
  show (Option.elim (some (Instr.tbwd (bits w 8 5) (bits w 13 5) (bits w 18 5))) _ _ : Except DecodeError Instr) = _
  rw [bits_eq w 8 d f8_5, bits_eq w 13 a f13_5, bits_eq w 18 b f18_5]
  rfl

theorem tret (d : BitVec 5) (a : BitVec 5) (b : BitVec 5) : Statement (.tret d a b) := by
  intro _ _
  have he : encodeFirst (.tret d a b) = 16777396 + d.toNat * 256 + a.toNat * 8192 + b.toNat * 262144 := rfl
  have ld := d.isLt
  have la := a.isLt
  have lb := b.isLt
  have hp : payloadOf (.tret d a b) = 0 := rfl
  rw [he, hp]
  generalize hw : 16777396 + d.toNat * 256 + a.toNat * 8192 + b.toNat * 262144 = w
  obtain ⟨hlt, f0_2, f0_1, f2_6, f8_5, f13_5, f18_5, f23_9⟩ := fields_of_parts w (180) (d.toNat) (a.toNat) (b.toNat) (2) (by omega) (by omega) (by omega) (by omega) (by omega) (by omega)
  refine ⟨hlt, ⟨fun e => absurd e (by omega), fun e => absurd (e : false = true) Bool.false_ne_true⟩, ?_⟩
  rw [decodeWord_major w _ (by omega), major2D w f2_6]; unfold decodeMajor2D
  rw [f23_9]
  show (Option.elim (some (Instr.tret (bits w 8 5) (bits w 13 5) (bits w 18 5))) _ _ : Except DecodeError Instr) = _
  rw [bits_eq w 8 d f8_5, bits_eq w 13 a f13_5, bits_eq w 18 b f18_5]
  rfl

theorem xquery (d : BitVec 5) (a : BitVec 5) (b : BitVec 5) : Statement (.xquery d a b) := by
  intro _ _
  have he : encodeFirst (.xquery d a b) = 25166004 + d.toNat * 256 + a.toNat * 8192 + b.toNat * 262144 := rfl
  have ld := d.isLt
  have la := a.isLt
  have lb := b.isLt
  have hp : payloadOf (.xquery d a b) = 0 := rfl
  rw [he, hp]
  generalize hw : 25166004 + d.toNat * 256 + a.toNat * 8192 + b.toNat * 262144 = w
  obtain ⟨hlt, f0_2, f0_1, f2_6, f8_5, f13_5, f18_5, f23_9⟩ := fields_of_parts w (180) (d.toNat) (a.toNat) (b.toNat) (3) (by omega) (by omega) (by omega) (by omega) (by omega) (by omega)
  refine ⟨hlt, ⟨fun e => absurd e (by omega), fun e => absurd (e : false = true) Bool.false_ne_true⟩, ?_⟩
  rw [decodeWord_major w _ (by omega), major2D w f2_6]; unfold decodeMajor2D
  rw [f23_9]
  show (Option.elim (some (Instr.xquery (bits w 8 5) (bits w 13 5) (bits w 18 5))) _ _ : Except DecodeError Instr) = _
  rw [bits_eq w 8 d f8_5, bits_eq w 13 a f13_5, bits_eq w 18 b f18_5]
  rfl

theorem xjoin (d : BitVec 5) (a : BitVec 5) : Statement (.xjoin d a) := by
  intro _ _
  have he : encodeFirst (.xjoin d a) = 33554612 + d.toNat * 256 + a.toNat * 8192 := rfl
  have ld := d.isLt
  have la := a.isLt
  have hp : payloadOf (.xjoin d a) = 0 := rfl
  rw [he, hp]
  generalize hw : 33554612 + d.toNat * 256 + a.toNat * 8192 = w
  obtain ⟨hlt, f0_2, f0_1, f2_6, f8_5, f13_5, f18_5, f23_9⟩ := fields_of_parts w (180) (d.toNat) (a.toNat) (0) (4) (by omega) (by omega) (by omega) (by omega) (by omega) (by omega)
  refine ⟨hlt, ⟨fun e => absurd e (by omega), fun e => absurd (e : false = true) Bool.false_ne_true⟩, ?_⟩
  rw [decodeWord_major w _ (by omega), major2D w f2_6]; unfold decodeMajor2D
  rw [f23_9, f18_5]
  show (Option.elim (some (Instr.xjoin (bits w 8 5) (bits w 13 5))) _ _ : Except DecodeError Instr) = _
  rw [bits_eq w 8 d f8_5, bits_eq w 13 a f13_5]
  rfl

theorem xver (d : BitVec 5) (a : BitVec 5) : Statement (.xver d a) := by
  intro _ _
  have he : encodeFirst (.xver d a) = 41943220 + d.toNat * 256 + a.toNat * 8192 := rfl
  have ld := d.isLt
  have la := a.isLt
  have hp : payloadOf (.xver d a) = 0 := rfl
  rw [he, hp]
  generalize hw : 41943220 + d.toNat * 256 + a.toNat * 8192 = w
  obtain ⟨hlt, f0_2, f0_1, f2_6, f8_5, f13_5, f18_5, f23_9⟩ := fields_of_parts w (180) (d.toNat) (a.toNat) (0) (5) (by omega) (by omega) (by omega) (by omega) (by omega) (by omega)
  refine ⟨hlt, ⟨fun e => absurd e (by omega), fun e => absurd (e : false = true) Bool.false_ne_true⟩, ?_⟩
  rw [decodeWord_major w _ (by omega), major2D w f2_6]; unfold decodeMajor2D
  rw [f23_9, f18_5]
  show (Option.elim (some (Instr.xver (bits w 8 5) (bits w 13 5))) _ _ : Except DecodeError Instr) = _
  rw [bits_eq w 8 d f8_5, bits_eq w 13 a f13_5]
  rfl

theorem xcreate (d : BitVec 5) (a : BitVec 5) : Statement (.xcreate d a) := by
  intro _ _
  have he : encodeFirst (.xcreate d a) = 50331828 + d.toNat * 256 + a.toNat * 8192 := rfl
  have ld := d.isLt
  have la := a.isLt
  have hp : payloadOf (.xcreate d a) = 0 := rfl
  rw [he, hp]
  generalize hw : 50331828 + d.toNat * 256 + a.toNat * 8192 = w
  obtain ⟨hlt, f0_2, f0_1, f2_6, f8_5, f13_5, f18_5, f23_9⟩ := fields_of_parts w (180) (d.toNat) (a.toNat) (0) (6) (by omega) (by omega) (by omega) (by omega) (by omega) (by omega)
  refine ⟨hlt, ⟨fun e => absurd e (by omega), fun e => absurd (e : false = true) Bool.false_ne_true⟩, ?_⟩
  rw [decodeWord_major w _ (by omega), major2D w f2_6]; unfold decodeMajor2D
  rw [f23_9, f18_5]
  show (Option.elim (some (Instr.xcreate (bits w 8 5) (bits w 13 5))) _ _ : Except DecodeError Instr) = _
  rw [bits_eq w 8 d f8_5, bits_eq w 13 a f13_5]
  rfl

theorem xretire (d : BitVec 5) (a : BitVec 5) (b : BitVec 5) : Statement (.xretire d a b) := by
  intro _ _
  have he : encodeFirst (.xretire d a b) = 58720436 + d.toNat * 256 + a.toNat * 8192 + b.toNat * 262144 := rfl
  have ld := d.isLt
  have la := a.isLt
  have lb := b.isLt
  have hp : payloadOf (.xretire d a b) = 0 := rfl
  rw [he, hp]
  generalize hw : 58720436 + d.toNat * 256 + a.toNat * 8192 + b.toNat * 262144 = w
  obtain ⟨hlt, f0_2, f0_1, f2_6, f8_5, f13_5, f18_5, f23_9⟩ := fields_of_parts w (180) (d.toNat) (a.toNat) (b.toNat) (7) (by omega) (by omega) (by omega) (by omega) (by omega) (by omega)
  refine ⟨hlt, ⟨fun e => absurd e (by omega), fun e => absurd (e : false = true) Bool.false_ne_true⟩, ?_⟩
  rw [decodeWord_major w _ (by omega), major2D w f2_6]; unfold decodeMajor2D
  rw [f23_9]
  show (Option.elim (some (Instr.xretire (bits w 8 5) (bits w 13 5) (bits w 18 5))) _ _ : Except DecodeError Instr) = _
  rw [bits_eq w 8 d f8_5, bits_eq w 13 a f13_5, bits_eq w 18 b f18_5]
  rfl

theorem shape (d : BitVec 5) (a : BitVec 5) : Statement (.shape d a) := by
  intro _ _
  have he : encodeFirst (.shape d a) = 184 + d.toNat * 256 + a.toNat * 8192 := rfl
  have ld := d.isLt
  have la := a.isLt
  have hp : payloadOf (.shape d a) = 0 := rfl
  rw [he, hp]
  generalize hw : 184 + d.toNat * 256 + a.toNat * 8192 = w
  obtain ⟨hlt, f0_2, f0_1, f2_6, f8_5, f13_5, f18_5, f23_9⟩ := fields_of_parts w (184) (d.toNat) (a.toNat) (0) (0) (by omega) (by omega) (by omega) (by omega) (by omega) (by omega)
  refine ⟨hlt, ⟨fun e => absurd e (by omega), fun e => absurd (e : false = true) Bool.false_ne_true⟩, ?_⟩
  rw [decodeWord_major w _ (by omega), major2E w f2_6]; unfold decodeMajor2E
  rw [f23_9, f18_5]
  show (Option.elim (some (Instr.shape (bits w 8 5) (bits w 13 5))) _ _ : Except DecodeError Instr) = _
  rw [bits_eq w 8 d f8_5, bits_eq w 13 a f13_5]
  rfl

theorem objrel (d : BitVec 5) (h : BitVec 5) : Statement (.objrel d h) := by
  intro _ _
  have he : encodeFirst (.objrel d h) = 8388792 + d.toNat * 256 + h.toNat * 8192 := rfl
  have ld := d.isLt
  have lh := h.isLt
  have hp : payloadOf (.objrel d h) = 0 := rfl
  rw [he, hp]
  generalize hw : 8388792 + d.toNat * 256 + h.toNat * 8192 = w
  obtain ⟨hlt, f0_2, f0_1, f2_6, f8_5, f13_5, f18_5, f23_9⟩ := fields_of_parts w (184) (d.toNat) (h.toNat) (0) (1) (by omega) (by omega) (by omega) (by omega) (by omega) (by omega)
  refine ⟨hlt, ⟨fun e => absurd e (by omega), fun e => absurd (e : false = true) Bool.false_ne_true⟩, ?_⟩
  rw [decodeWord_major w _ (by omega), major2E w f2_6]; unfold decodeMajor2E
  rw [f23_9, f18_5]
  show (Option.elim (some (Instr.objrel (bits w 8 5) (bits w 13 5))) _ _ : Except DecodeError Instr) = _
  rw [bits_eq w 8 d f8_5, bits_eq w 13 h f13_5]
  rfl

theorem objmode (d : BitVec 5) (h : BitVec 5) (m : BitVec 5) : Statement (.objmode d h m) := by
  intro _ _
  have he : encodeFirst (.objmode d h m) = 16777400 + d.toNat * 256 + h.toNat * 8192 + m.toNat * 262144 := rfl
  have ld := d.isLt
  have lh := h.isLt
  have lm := m.isLt
  have hp : payloadOf (.objmode d h m) = 0 := rfl
  rw [he, hp]
  generalize hw : 16777400 + d.toNat * 256 + h.toNat * 8192 + m.toNat * 262144 = w
  obtain ⟨hlt, f0_2, f0_1, f2_6, f8_5, f13_5, f18_5, f23_9⟩ := fields_of_parts w (184) (d.toNat) (h.toNat) (m.toNat) (2) (by omega) (by omega) (by omega) (by omega) (by omega) (by omega)
  refine ⟨hlt, ⟨fun e => absurd e (by omega), fun e => absurd (e : false = true) Bool.false_ne_true⟩, ?_⟩
  rw [decodeWord_major w _ (by omega), major2E w f2_6]; unfold decodeMajor2E
  rw [f23_9]
  show (Option.elim (some (Instr.objmode (bits w 8 5) (bits w 13 5) (bits w 18 5))) _ _ : Except DecodeError Instr) = _
  rw [bits_eq w 8 d f8_5, bits_eq w 13 h f13_5, bits_eq w 18 m f18_5]
  rfl

theorem fadd (g : Bool) (d : BitVec 5) (a : BitVec 5) (b : BitVec 5) : Statement (.fadd g d a b) := by
  intro _ _
  have he : encodeFirst (.fadd g d a b) = 188 + g.toNat * 1 + d.toNat * 256 + a.toNat * 8192 + b.toNat * 262144 := rfl
  have lg := Bool.toNat_le g
  have ld := d.isLt
  have la := a.isLt
  have lb := b.isLt
  have hp : payloadOf (.fadd g d a b) = 0 := rfl
  rw [he, hp]
  generalize hw : 188 + g.toNat * 1 + d.toNat * 256 + a.toNat * 8192 + b.toNat * 262144 = w
  obtain ⟨hlt, f0_2, f0_1, f2_6, f8_5, f13_5, f18_5, f23_9⟩ := fields_of_parts w (188 + g.toNat) (d.toNat) (a.toNat) (b.toNat) (0) (by omega) (by omega) (by omega) (by omega) (by omega) (by omega)
  have f2_6 : fld w 2 6 = 47 := by rw [f2_6]; omega
  have f0_1 : fld w 0 1 = g.toNat := by rw [f0_1]; omega
  have f0_2 : fld w 0 2 = g.toNat := by rw [f0_2]; omega
  refine ⟨hlt, ⟨fun e => absurd e (by omega), fun e => absurd (e : false = true) Bool.false_ne_true⟩, ?_⟩
  rw [decodeWord_major w _ (by omega), major2F w f2_6]; unfold decodeMajor2F
  rw [f23_9]
  show (Option.elim (some (Instr.fadd (bit w 0) (bits w 8 5) (bits w 13 5) (bits w 18 5))) _ _ : Except DecodeError Instr) = _
  rw [bit_eq w 0 g f0_1, bits_eq w 8 d f8_5, bits_eq w 13 a f13_5, bits_eq w 18 b f18_5]
  rfl

theorem fsub (g : Bool) (d : BitVec 5) (a : BitVec 5) (b : BitVec 5) : Statement (.fsub g d a b) := by
  intro _ _
  have he : encodeFirst (.fsub g d a b) = 8388796 + g.toNat * 1 + d.toNat * 256 + a.toNat * 8192 + b.toNat * 262144 := rfl
  have lg := Bool.toNat_le g
  have ld := d.isLt
  have la := a.isLt
  have lb := b.isLt
  have hp : payloadOf (.fsub g d a b) = 0 := rfl
  rw [he, hp]
  generalize hw : 8388796 + g.toNat * 1 + d.toNat * 256 + a.toNat * 8192 + b.toNat * 262144 = w
  obtain ⟨hlt, f0_2, f0_1, f2_6, f8_5, f13_5, f18_5, f23_9⟩ := fields_of_parts w (188 + g.toNat) (d.toNat) (a.toNat) (b.toNat) (1) (by omega) (by omega) (by omega) (by omega) (by omega) (by omega)
  have f2_6 : fld w 2 6 = 47 := by rw [f2_6]; omega
  have f0_1 : fld w 0 1 = g.toNat := by rw [f0_1]; omega
  have f0_2 : fld w 0 2 = g.toNat := by rw [f0_2]; omega
  refine ⟨hlt, ⟨fun e => absurd e (by omega), fun e => absurd (e : false = true) Bool.false_ne_true⟩, ?_⟩
  rw [decodeWord_major w _ (by omega), major2F w f2_6]; unfold decodeMajor2F
  rw [f23_9]
  show (Option.elim (some (Instr.fsub (bit w 0) (bits w 8 5) (bits w 13 5) (bits w 18 5))) _ _ : Except DecodeError Instr) = _
  rw [bit_eq w 0 g f0_1, bits_eq w 8 d f8_5, bits_eq w 13 a f13_5, bits_eq w 18 b f18_5]
  rfl

theorem fmul (g : Bool) (d : BitVec 5) (a : BitVec 5) (b : BitVec 5) : Statement (.fmul g d a b) := by
  intro _ _
  have he : encodeFirst (.fmul g d a b) = 16777404 + g.toNat * 1 + d.toNat * 256 + a.toNat * 8192 + b.toNat * 262144 := rfl
  have lg := Bool.toNat_le g
  have ld := d.isLt
  have la := a.isLt
  have lb := b.isLt
  have hp : payloadOf (.fmul g d a b) = 0 := rfl
  rw [he, hp]
  generalize hw : 16777404 + g.toNat * 1 + d.toNat * 256 + a.toNat * 8192 + b.toNat * 262144 = w
  obtain ⟨hlt, f0_2, f0_1, f2_6, f8_5, f13_5, f18_5, f23_9⟩ := fields_of_parts w (188 + g.toNat) (d.toNat) (a.toNat) (b.toNat) (2) (by omega) (by omega) (by omega) (by omega) (by omega) (by omega)
  have f2_6 : fld w 2 6 = 47 := by rw [f2_6]; omega
  have f0_1 : fld w 0 1 = g.toNat := by rw [f0_1]; omega
  have f0_2 : fld w 0 2 = g.toNat := by rw [f0_2]; omega
  refine ⟨hlt, ⟨fun e => absurd e (by omega), fun e => absurd (e : false = true) Bool.false_ne_true⟩, ?_⟩
  rw [decodeWord_major w _ (by omega), major2F w f2_6]; unfold decodeMajor2F
  rw [f23_9]
  show (Option.elim (some (Instr.fmul (bit w 0) (bits w 8 5) (bits w 13 5) (bits w 18 5))) _ _ : Except DecodeError Instr) = _
  rw [bit_eq w 0 g f0_1, bits_eq w 8 d f8_5, bits_eq w 13 a f13_5, bits_eq w 18 b f18_5]
  rfl

theorem fmac (g : Bool) (d : BitVec 5) (a : BitVec 5) (b : BitVec 5) : Statement (.fmac g d a b) := by
  intro _ _
  have he : encodeFirst (.fmac g d a b) = 25166012 + g.toNat * 1 + d.toNat * 256 + a.toNat * 8192 + b.toNat * 262144 := rfl
  have lg := Bool.toNat_le g
  have ld := d.isLt
  have la := a.isLt
  have lb := b.isLt
  have hp : payloadOf (.fmac g d a b) = 0 := rfl
  rw [he, hp]
  generalize hw : 25166012 + g.toNat * 1 + d.toNat * 256 + a.toNat * 8192 + b.toNat * 262144 = w
  obtain ⟨hlt, f0_2, f0_1, f2_6, f8_5, f13_5, f18_5, f23_9⟩ := fields_of_parts w (188 + g.toNat) (d.toNat) (a.toNat) (b.toNat) (3) (by omega) (by omega) (by omega) (by omega) (by omega) (by omega)
  have f2_6 : fld w 2 6 = 47 := by rw [f2_6]; omega
  have f0_1 : fld w 0 1 = g.toNat := by rw [f0_1]; omega
  have f0_2 : fld w 0 2 = g.toNat := by rw [f0_2]; omega
  refine ⟨hlt, ⟨fun e => absurd e (by omega), fun e => absurd (e : false = true) Bool.false_ne_true⟩, ?_⟩
  rw [decodeWord_major w _ (by omega), major2F w f2_6]; unfold decodeMajor2F
  rw [f23_9]
  show (Option.elim (some (Instr.fmac (bit w 0) (bits w 8 5) (bits w 13 5) (bits w 18 5))) _ _ : Except DecodeError Instr) = _
  rw [bit_eq w 0 g f0_1, bits_eq w 8 d f8_5, bits_eq w 13 a f13_5, bits_eq w 18 b f18_5]
  rfl

theorem fdiv (g : Bool) (d : BitVec 5) (a : BitVec 5) (b : BitVec 5) : Statement (.fdiv g d a b) := by
  intro _ _
  have he : encodeFirst (.fdiv g d a b) = 33554620 + g.toNat * 1 + d.toNat * 256 + a.toNat * 8192 + b.toNat * 262144 := rfl
  have lg := Bool.toNat_le g
  have ld := d.isLt
  have la := a.isLt
  have lb := b.isLt
  have hp : payloadOf (.fdiv g d a b) = 0 := rfl
  rw [he, hp]
  generalize hw : 33554620 + g.toNat * 1 + d.toNat * 256 + a.toNat * 8192 + b.toNat * 262144 = w
  obtain ⟨hlt, f0_2, f0_1, f2_6, f8_5, f13_5, f18_5, f23_9⟩ := fields_of_parts w (188 + g.toNat) (d.toNat) (a.toNat) (b.toNat) (4) (by omega) (by omega) (by omega) (by omega) (by omega) (by omega)
  have f2_6 : fld w 2 6 = 47 := by rw [f2_6]; omega
  have f0_1 : fld w 0 1 = g.toNat := by rw [f0_1]; omega
  have f0_2 : fld w 0 2 = g.toNat := by rw [f0_2]; omega
  refine ⟨hlt, ⟨fun e => absurd e (by omega), fun e => absurd (e : false = true) Bool.false_ne_true⟩, ?_⟩
  rw [decodeWord_major w _ (by omega), major2F w f2_6]; unfold decodeMajor2F
  rw [f23_9]
  show (Option.elim (some (Instr.fdiv (bit w 0) (bits w 8 5) (bits w 13 5) (bits w 18 5))) _ _ : Except DecodeError Instr) = _
  rw [bit_eq w 0 g f0_1, bits_eq w 8 d f8_5, bits_eq w 13 a f13_5, bits_eq w 18 b f18_5]
  rfl

theorem fsqrt (g : Bool) (d : BitVec 5) (a : BitVec 5) : Statement (.fsqrt g d a) := by
  intro _ _
  have he : encodeFirst (.fsqrt g d a) = 41943228 + g.toNat * 1 + d.toNat * 256 + a.toNat * 8192 := rfl
  have lg := Bool.toNat_le g
  have ld := d.isLt
  have la := a.isLt
  have hp : payloadOf (.fsqrt g d a) = 0 := rfl
  rw [he, hp]
  generalize hw : 41943228 + g.toNat * 1 + d.toNat * 256 + a.toNat * 8192 = w
  obtain ⟨hlt, f0_2, f0_1, f2_6, f8_5, f13_5, f18_5, f23_9⟩ := fields_of_parts w (188 + g.toNat) (d.toNat) (a.toNat) (0) (5) (by omega) (by omega) (by omega) (by omega) (by omega) (by omega)
  have f2_6 : fld w 2 6 = 47 := by rw [f2_6]; omega
  have f0_1 : fld w 0 1 = g.toNat := by rw [f0_1]; omega
  have f0_2 : fld w 0 2 = g.toNat := by rw [f0_2]; omega
  refine ⟨hlt, ⟨fun e => absurd e (by omega), fun e => absurd (e : false = true) Bool.false_ne_true⟩, ?_⟩
  rw [decodeWord_major w _ (by omega), major2F w f2_6]; unfold decodeMajor2F
  rw [f23_9, f18_5]
  show (Option.elim (some (Instr.fsqrt (bit w 0) (bits w 8 5) (bits w 13 5))) _ _ : Except DecodeError Instr) = _
  rw [bit_eq w 0 g f0_1, bits_eq w 8 d f8_5, bits_eq w 13 a f13_5]
  rfl

theorem fmin (g : Bool) (d : BitVec 5) (a : BitVec 5) (b : BitVec 5) : Statement (.fmin g d a b) := by
  intro _ _
  have he : encodeFirst (.fmin g d a b) = 50331836 + g.toNat * 1 + d.toNat * 256 + a.toNat * 8192 + b.toNat * 262144 := rfl
  have lg := Bool.toNat_le g
  have ld := d.isLt
  have la := a.isLt
  have lb := b.isLt
  have hp : payloadOf (.fmin g d a b) = 0 := rfl
  rw [he, hp]
  generalize hw : 50331836 + g.toNat * 1 + d.toNat * 256 + a.toNat * 8192 + b.toNat * 262144 = w
  obtain ⟨hlt, f0_2, f0_1, f2_6, f8_5, f13_5, f18_5, f23_9⟩ := fields_of_parts w (188 + g.toNat) (d.toNat) (a.toNat) (b.toNat) (6) (by omega) (by omega) (by omega) (by omega) (by omega) (by omega)
  have f2_6 : fld w 2 6 = 47 := by rw [f2_6]; omega
  have f0_1 : fld w 0 1 = g.toNat := by rw [f0_1]; omega
  have f0_2 : fld w 0 2 = g.toNat := by rw [f0_2]; omega
  refine ⟨hlt, ⟨fun e => absurd e (by omega), fun e => absurd (e : false = true) Bool.false_ne_true⟩, ?_⟩
  rw [decodeWord_major w _ (by omega), major2F w f2_6]; unfold decodeMajor2F
  rw [f23_9]
  show (Option.elim (some (Instr.fmin (bit w 0) (bits w 8 5) (bits w 13 5) (bits w 18 5))) _ _ : Except DecodeError Instr) = _
  rw [bit_eq w 0 g f0_1, bits_eq w 8 d f8_5, bits_eq w 13 a f13_5, bits_eq w 18 b f18_5]
  rfl

theorem fmax (g : Bool) (d : BitVec 5) (a : BitVec 5) (b : BitVec 5) : Statement (.fmax g d a b) := by
  intro _ _
  have he : encodeFirst (.fmax g d a b) = 58720444 + g.toNat * 1 + d.toNat * 256 + a.toNat * 8192 + b.toNat * 262144 := rfl
  have lg := Bool.toNat_le g
  have ld := d.isLt
  have la := a.isLt
  have lb := b.isLt
  have hp : payloadOf (.fmax g d a b) = 0 := rfl
  rw [he, hp]
  generalize hw : 58720444 + g.toNat * 1 + d.toNat * 256 + a.toNat * 8192 + b.toNat * 262144 = w
  obtain ⟨hlt, f0_2, f0_1, f2_6, f8_5, f13_5, f18_5, f23_9⟩ := fields_of_parts w (188 + g.toNat) (d.toNat) (a.toNat) (b.toNat) (7) (by omega) (by omega) (by omega) (by omega) (by omega) (by omega)
  have f2_6 : fld w 2 6 = 47 := by rw [f2_6]; omega
  have f0_1 : fld w 0 1 = g.toNat := by rw [f0_1]; omega
  have f0_2 : fld w 0 2 = g.toNat := by rw [f0_2]; omega
  refine ⟨hlt, ⟨fun e => absurd e (by omega), fun e => absurd (e : false = true) Bool.false_ne_true⟩, ?_⟩
  rw [decodeWord_major w _ (by omega), major2F w f2_6]; unfold decodeMajor2F
  rw [f23_9]
  show (Option.elim (some (Instr.fmax (bit w 0) (bits w 8 5) (bits w 13 5) (bits w 18 5))) _ _ : Except DecodeError Instr) = _
  rw [bit_eq w 0 g f0_1, bits_eq w 8 d f8_5, bits_eq w 13 a f13_5, bits_eq w 18 b f18_5]
  rfl

theorem fcvti (g : Bool) (d : BitVec 5) (a : BitVec 5) : Statement (.fcvti g d a) := by
  intro _ _
  have he : encodeFirst (.fcvti g d a) = 67109052 + g.toNat * 1 + d.toNat * 256 + a.toNat * 8192 := rfl
  have lg := Bool.toNat_le g
  have ld := d.isLt
  have la := a.isLt
  have hp : payloadOf (.fcvti g d a) = 0 := rfl
  rw [he, hp]
  generalize hw : 67109052 + g.toNat * 1 + d.toNat * 256 + a.toNat * 8192 = w
  obtain ⟨hlt, f0_2, f0_1, f2_6, f8_5, f13_5, f18_5, f23_9⟩ := fields_of_parts w (188 + g.toNat) (d.toNat) (a.toNat) (0) (8) (by omega) (by omega) (by omega) (by omega) (by omega) (by omega)
  have f2_6 : fld w 2 6 = 47 := by rw [f2_6]; omega
  have f0_1 : fld w 0 1 = g.toNat := by rw [f0_1]; omega
  have f0_2 : fld w 0 2 = g.toNat := by rw [f0_2]; omega
  refine ⟨hlt, ⟨fun e => absurd e (by omega), fun e => absurd (e : false = true) Bool.false_ne_true⟩, ?_⟩
  rw [decodeWord_major w _ (by omega), major2F w f2_6]; unfold decodeMajor2F
  rw [f23_9, f18_5]
  show (Option.elim (some (Instr.fcvti (bit w 0) (bits w 8 5) (bits w 13 5))) _ _ : Except DecodeError Instr) = _
  rw [bit_eq w 0 g f0_1, bits_eq w 8 d f8_5, bits_eq w 13 a f13_5]
  rfl

theorem fcvtf (g : Bool) (d : BitVec 5) (a : BitVec 5) : Statement (.fcvtf g d a) := by
  intro _ _
  have he : encodeFirst (.fcvtf g d a) = 75497660 + g.toNat * 1 + d.toNat * 256 + a.toNat * 8192 := rfl
  have lg := Bool.toNat_le g
  have ld := d.isLt
  have la := a.isLt
  have hp : payloadOf (.fcvtf g d a) = 0 := rfl
  rw [he, hp]
  generalize hw : 75497660 + g.toNat * 1 + d.toNat * 256 + a.toNat * 8192 = w
  obtain ⟨hlt, f0_2, f0_1, f2_6, f8_5, f13_5, f18_5, f23_9⟩ := fields_of_parts w (188 + g.toNat) (d.toNat) (a.toNat) (0) (9) (by omega) (by omega) (by omega) (by omega) (by omega) (by omega)
  have f2_6 : fld w 2 6 = 47 := by rw [f2_6]; omega
  have f0_1 : fld w 0 1 = g.toNat := by rw [f0_1]; omega
  have f0_2 : fld w 0 2 = g.toNat := by rw [f0_2]; omega
  refine ⟨hlt, ⟨fun e => absurd e (by omega), fun e => absurd (e : false = true) Bool.false_ne_true⟩, ?_⟩
  rw [decodeWord_major w _ (by omega), major2F w f2_6]; unfold decodeMajor2F
  rw [f23_9, f18_5]
  show (Option.elim (some (Instr.fcvtf (bit w 0) (bits w 8 5) (bits w 13 5))) _ _ : Except DecodeError Instr) = _
  rw [bit_eq w 0 g f0_1, bits_eq w 8 d f8_5, bits_eq w 13 a f13_5]
  rfl

theorem flt (g : Bool) (d : BitVec 5) (a : BitVec 5) (b : BitVec 5) : Statement (.flt g d a b) := by
  intro _ _
  have he : encodeFirst (.flt g d a b) = 83886268 + g.toNat * 1 + d.toNat * 256 + a.toNat * 8192 + b.toNat * 262144 := rfl
  have lg := Bool.toNat_le g
  have ld := d.isLt
  have la := a.isLt
  have lb := b.isLt
  have hp : payloadOf (.flt g d a b) = 0 := rfl
  rw [he, hp]
  generalize hw : 83886268 + g.toNat * 1 + d.toNat * 256 + a.toNat * 8192 + b.toNat * 262144 = w
  obtain ⟨hlt, f0_2, f0_1, f2_6, f8_5, f13_5, f18_5, f23_9⟩ := fields_of_parts w (188 + g.toNat) (d.toNat) (a.toNat) (b.toNat) (10) (by omega) (by omega) (by omega) (by omega) (by omega) (by omega)
  have f2_6 : fld w 2 6 = 47 := by rw [f2_6]; omega
  have f0_1 : fld w 0 1 = g.toNat := by rw [f0_1]; omega
  have f0_2 : fld w 0 2 = g.toNat := by rw [f0_2]; omega
  refine ⟨hlt, ⟨fun e => absurd e (by omega), fun e => absurd (e : false = true) Bool.false_ne_true⟩, ?_⟩
  rw [decodeWord_major w _ (by omega), major2F w f2_6]; unfold decodeMajor2F
  rw [f23_9]
  show (Option.elim (some (Instr.flt (bit w 0) (bits w 8 5) (bits w 13 5) (bits w 18 5))) _ _ : Except DecodeError Instr) = _
  rw [bit_eq w 0 g f0_1, bits_eq w 8 d f8_5, bits_eq w 13 a f13_5, bits_eq w 18 b f18_5]
  rfl

theorem feq (g : Bool) (d : BitVec 5) (a : BitVec 5) (b : BitVec 5) : Statement (.feq g d a b) := by
  intro _ _
  have he : encodeFirst (.feq g d a b) = 92274876 + g.toNat * 1 + d.toNat * 256 + a.toNat * 8192 + b.toNat * 262144 := rfl
  have lg := Bool.toNat_le g
  have ld := d.isLt
  have la := a.isLt
  have lb := b.isLt
  have hp : payloadOf (.feq g d a b) = 0 := rfl
  rw [he, hp]
  generalize hw : 92274876 + g.toNat * 1 + d.toNat * 256 + a.toNat * 8192 + b.toNat * 262144 = w
  obtain ⟨hlt, f0_2, f0_1, f2_6, f8_5, f13_5, f18_5, f23_9⟩ := fields_of_parts w (188 + g.toNat) (d.toNat) (a.toNat) (b.toNat) (11) (by omega) (by omega) (by omega) (by omega) (by omega) (by omega)
  have f2_6 : fld w 2 6 = 47 := by rw [f2_6]; omega
  have f0_1 : fld w 0 1 = g.toNat := by rw [f0_1]; omega
  have f0_2 : fld w 0 2 = g.toNat := by rw [f0_2]; omega
  refine ⟨hlt, ⟨fun e => absurd e (by omega), fun e => absurd (e : false = true) Bool.false_ne_true⟩, ?_⟩
  rw [decodeWord_major w _ (by omega), major2F w f2_6]; unfold decodeMajor2F
  rw [f23_9]
  show (Option.elim (some (Instr.feq (bit w 0) (bits w 8 5) (bits w 13 5) (bits w 18 5))) _ _ : Except DecodeError Instr) = _
  rw [bit_eq w 0 g f0_1, bits_eq w 8 d f8_5, bits_eq w 13 a f13_5, bits_eq w 18 b f18_5]
  rfl

theorem scal (g : Bool) (d : BitVec 5) (a : BitVec 5) (b : BitVec 5) : Statement (.scal g d a b) := by
  intro _ _
  have he : encodeFirst (.scal g d a b) = 100663484 + g.toNat * 1 + d.toNat * 256 + a.toNat * 8192 + b.toNat * 262144 := rfl
  have lg := Bool.toNat_le g
  have ld := d.isLt
  have la := a.isLt
  have lb := b.isLt
  have hp : payloadOf (.scal g d a b) = 0 := rfl
  rw [he, hp]
  generalize hw : 100663484 + g.toNat * 1 + d.toNat * 256 + a.toNat * 8192 + b.toNat * 262144 = w
  obtain ⟨hlt, f0_2, f0_1, f2_6, f8_5, f13_5, f18_5, f23_9⟩ := fields_of_parts w (188 + g.toNat) (d.toNat) (a.toNat) (b.toNat) (12) (by omega) (by omega) (by omega) (by omega) (by omega) (by omega)
  have f2_6 : fld w 2 6 = 47 := by rw [f2_6]; omega
  have f0_1 : fld w 0 1 = g.toNat := by rw [f0_1]; omega
  have f0_2 : fld w 0 2 = g.toNat := by rw [f0_2]; omega
  refine ⟨hlt, ⟨fun e => absurd e (by omega), fun e => absurd (e : false = true) Bool.false_ne_true⟩, ?_⟩
  rw [decodeWord_major w _ (by omega), major2F w f2_6]; unfold decodeMajor2F
  rw [f23_9]
  show (Option.elim (some (Instr.scal (bit w 0) (bits w 8 5) (bits w 13 5) (bits w 18 5))) _ _ : Except DecodeError Instr) = _
  rw [bit_eq w 0 g f0_1, bits_eq w 8 d f8_5, bits_eq w 13 a f13_5, bits_eq w 18 b f18_5]
  rfl

theorem fclass (g : Bool) (d : BitVec 5) (a : BitVec 5) : Statement (.fclass g d a) := by
  intro _ _
  have he : encodeFirst (.fclass g d a) = 109052092 + g.toNat * 1 + d.toNat * 256 + a.toNat * 8192 := rfl
  have lg := Bool.toNat_le g
  have ld := d.isLt
  have la := a.isLt
  have hp : payloadOf (.fclass g d a) = 0 := rfl
  rw [he, hp]
  generalize hw : 109052092 + g.toNat * 1 + d.toNat * 256 + a.toNat * 8192 = w
  obtain ⟨hlt, f0_2, f0_1, f2_6, f8_5, f13_5, f18_5, f23_9⟩ := fields_of_parts w (188 + g.toNat) (d.toNat) (a.toNat) (0) (13) (by omega) (by omega) (by omega) (by omega) (by omega) (by omega)
  have f2_6 : fld w 2 6 = 47 := by rw [f2_6]; omega
  have f0_1 : fld w 0 1 = g.toNat := by rw [f0_1]; omega
  have f0_2 : fld w 0 2 = g.toNat := by rw [f0_2]; omega
  refine ⟨hlt, ⟨fun e => absurd e (by omega), fun e => absurd (e : false = true) Bool.false_ne_true⟩, ?_⟩
  rw [decodeWord_major w _ (by omega), major2F w f2_6]; unfold decodeMajor2F
  rw [f23_9, f18_5]
  show (Option.elim (some (Instr.fclass (bit w 0) (bits w 8 5) (bits w 13 5))) _ _ : Except DecodeError Instr) = _
  rw [bit_eq w 0 g f0_1, bits_eq w 8 d f8_5, bits_eq w 13 a f13_5]
  rfl

theorem slotSwitch : Statement .slotSwitch := fun h => absurd h (by decide)

theorem issueQuantum : Statement .issueQuantum := fun h => absurd h (by decide)

theorem vectorBind : Statement .vectorBind := fun h => absurd h (by decide)

theorem vectorResultWrite : Statement .vectorResultWrite := fun h => absurd h (by decide)

theorem memoryReturnWrite : Statement .memoryReturnWrite := fun h => absurd h (by decide)

theorem returnStarvation : Statement .returnStarvation := fun h => absurd h (by decide)

theorem streamElementFetch : Statement .streamElementFetch := fun h => absurd h (by decide)

theorem streamAppendPerformed : Statement .streamAppendPerformed := fun h => absurd h (by decide)

theorem coherentRequestAtHome : Statement .coherentRequestAtHome := fun h => absurd h (by decide)

theorem dirtyWriteback : Statement .dirtyWriteback := fun h => absurd h (by decide)

theorem setAd : Statement .setAd := fun h => absurd h (by decide)

theorem walkMigratingTimeout : Statement .walkMigratingTimeout := fun h => absurd h (by decide)

theorem migrationHoldTimeout : Statement .migrationHoldTimeout := fun h => absurd h (by decide)

theorem nearMemoryForward : Statement .nearMemoryForward := fun h => absurd h (by decide)

theorem nearMemoryApply : Statement .nearMemoryApply := fun h => absurd h (by decide)

theorem nearMemoryAck : Statement .nearMemoryAck := fun h => absurd h (by decide)

theorem nearMemoryReturn : Statement .nearMemoryReturn := fun h => absurd h (by decide)

theorem patrolScrub : Statement .patrolScrub := fun h => absurd h (by decide)

theorem contentionDecay : Statement .contentionDecay := fun h => absurd h (by decide)

theorem bisnpinv : Statement .bisnpinv := fun h => absurd h (by decide)

theorem bisnpdata : Statement .bisnpdata := fun h => absurd h (by decide)

theorem bisnpcur : Statement .bisnpcur := fun h => absurd h (by decide)

theorem poolLinkLoss : Statement .poolLinkLoss := fun h => absurd h (by decide)

theorem poolRequestTimeout : Statement .poolRequestTimeout := fun h => absurd h (by decide)

theorem regionEnable : Statement .regionEnable := fun h => absurd h (by decide)

theorem regionDisable : Statement .regionDisable := fun h => absurd h (by decide)

theorem regionDetachDone : Statement .regionDetachDone := fun h => absurd h (by decide)

theorem reattach : Statement .reattach := fun h => absurd h (by decide)

theorem release : Statement .release := fun h => absurd h (by decide)

theorem clearlog : Statement .clearlog := fun h => absurd h (by decide)

theorem decoderCheck : Statement .decoderCheck := fun h => absurd h (by decide)

theorem lockRequestResend : Statement .lockRequestResend := fun h => absurd h (by decide)

theorem lockRequestAccept : Statement .lockRequestAccept := fun h => absurd h (by decide)

theorem lockTimeout : Statement .lockTimeout := fun h => absurd h (by decide)

theorem lockRelease : Statement .lockRelease := fun h => absurd h (by decide)

theorem holdLimit : Statement .holdLimit := fun h => absurd h (by decide)

theorem deadlockProbe : Statement .deadlockProbe := fun h => absurd h (by decide)

theorem scratchpadPortAccess : Statement .scratchpadPortAccess := fun h => absurd h (by decide)

theorem scoreboardRelease : Statement .scoreboardRelease := fun h => absurd h (by decide)

theorem traceRingControl : Statement .traceRingControl := fun h => absurd h (by decide)

theorem clr : Statement .clr := fun h => absurd h (by decide)

theorem engineCommandStart : Statement .engineCommandStart := fun h => absurd h (by decide)

theorem enginePiece : Statement .enginePiece := fun h => absurd h (by decide)

theorem engineCommandStop : Statement .engineCommandStop := fun h => absurd h (by decide)

theorem exchangeForm : Statement .exchangeForm := fun h => absurd h (by decide)

theorem exchangeRound : Statement .exchangeRound := fun h => absurd h (by decide)

theorem exchTimeout : Statement .exchTimeout := fun h => absurd h (by decide)

theorem resumeCommand : Statement .resumeCommand := fun h => absurd h (by decide)

theorem cancel : Statement .cancel := fun h => absurd h (by decide)

theorem arrayCommandStart : Statement .arrayCommandStart := fun h => absurd h (by decide)

theorem arrayRowCommit : Statement .arrayRowCommit := fun h => absurd h (by decide)

theorem raggedRowJoin : Statement .raggedRowJoin := fun h => absurd h (by decide)

theorem arrayCommandComplete : Statement .arrayCommandComplete := fun h => absurd h (by decide)

theorem leaseArbitration : Statement .leaseArbitration := fun h => absurd h (by decide)

theorem handOverSave : Statement .handOverSave := fun h => absurd h (by decide)

theorem handOverRestore : Statement .handOverRestore := fun h => absurd h (by decide)

theorem columnRemap : Statement .columnRemap := fun h => absurd h (by decide)

theorem chunkDepart : Statement .chunkDepart := fun h => absurd h (by decide)

theorem switchReduce : Statement .switchReduce := fun h => absurd h (by decide)

theorem homeReduce : Statement .homeReduce := fun h => absurd h (by decide)

theorem collectiveLanding : Statement .collectiveLanding := fun h => absurd h (by decide)

theorem communicatorWrite : Statement .communicatorWrite := fun h => absurd h (by decide)

theorem communicatorDisable : Statement .communicatorDisable := fun h => absurd h (by decide)

theorem messageArrival : Statement .messageArrival := fun h => absurd h (by decide)

theorem creditRequest : Statement .creditRequest := fun h => absurd h (by decide)

theorem creditGrant : Statement .creditGrant := fun h => absurd h (by decide)

theorem creditReturn : Statement .creditReturn := fun h => absurd h (by decide)

theorem sendTimeout : Statement .sendTimeout := fun h => absurd h (by decide)

theorem handlerStart : Statement .handlerStart := fun h => absurd h (by decide)

theorem queueStart : Statement .queueStart := fun h => absurd h (by decide)

theorem drain : Statement .drain := fun h => absurd h (by decide)

theorem abort : Statement .abort := fun h => absurd h (by decide)

theorem reset : Statement .reset := fun h => absurd h (by decide)

theorem tail : Statement .tail := fun h => absurd h (by decide)

theorem recordTake : Statement .recordTake := fun h => absurd h (by decide)

theorem semaphoreRound : Statement .semaphoreRound := fun h => absurd h (by decide)

theorem dispatch : Statement .dispatch := fun h => absurd h (by decide)

theorem launchComplete : Statement .launchComplete := fun h => absurd h (by decide)

theorem abortTeardownDone : Statement .abortTeardownDone := fun h => absurd h (by decide)

theorem drainDone : Statement .drainDone := fun h => absurd h (by decide)

theorem preempt : Statement .preempt := fun h => absurd h (by decide)

theorem contextRestore : Statement .contextRestore := fun h => absurd h (by decide)

theorem restart : Statement .restart := fun h => absurd h (by decide)

theorem clear : Statement .clear := fun h => absurd h (by decide)

theorem install : Statement .install := fun h => absurd h (by decide)

theorem remove : Statement .remove := fun h => absurd h (by decide)

theorem read : Statement .read := fun h => absurd h (by decide)

theorem legendUpdate : Statement .legendUpdate := fun h => absurd h (by decide)

theorem epochAck : Statement .epochAck := fun h => absurd h (by decide)

theorem legendWindowEnd : Statement .legendWindowEnd := fun h => absurd h (by decide)

theorem rbarFlip : Statement .rbarFlip := fun h => absurd h (by decide)

theorem replicaFree : Statement .replicaFree := fun h => absurd h (by decide)

theorem tombstoneEnd : Statement .tombstoneEnd := fun h => absurd h (by decide)

theorem tokenArrival : Statement .tokenArrival := fun h => absurd h (by decide)

theorem tokenAcceptance : Statement .tokenAcceptance := fun h => absurd h (by decide)

theorem slotCreditRequest : Statement .slotCreditRequest := fun h => absurd h (by decide)

theorem tokenCreditTimeout : Statement .tokenCreditTimeout := fun h => absurd h (by decide)

theorem pageCloseTimeout : Statement .pageCloseTimeout := fun h => absurd h (by decide)

theorem resultRowLanding : Statement .resultRowLanding := fun h => absurd h (by decide)

theorem joinCopy : Statement .joinCopy := fun h => absurd h (by decide)

theorem errorDetected : Statement .errorDetected := fun h => absurd h (by decide)

theorem selfTestDone : Statement .selfTestDone := fun h => absurd h (by decide)

theorem linkReplayFailure : Statement .linkReplayFailure := fun h => absurd h (by decide)

theorem heartbeat : Statement .heartbeat := fun h => absurd h (by decide)

theorem heartbeatMiss : Statement .heartbeatMiss := fun h => absurd h (by decide)

theorem fenceNode : Statement .fenceNode := fun h => absurd h (by decide)

theorem unfence : Statement .unfence := fun h => absurd h (by decide)

theorem watchdog : Statement .watchdog := fun h => absurd h (by decide)

theorem forcelost : Statement .forcelost := fun h => absurd h (by decide)

theorem reload : Statement .reload := fun h => absurd h (by decide)

theorem telemetry : Statement .telemetry := fun h => absurd h (by decide)

theorem thermalThrottle : Statement .thermalThrottle := fun h => absurd h (by decide)

theorem resetRelease : Statement .resetRelease := fun h => absurd h (by decide)

theorem bar2Access : Statement .bar2Access := fun h => absurd h (by decide)

theorem controlRegisterWrite : Statement .controlRegisterWrite := fun h => absurd h (by decide)

theorem wfeTimeout : Statement .wfeTimeout := fun h => absurd h (by decide)

theorem linkTraining : Statement .linkTraining := fun h => absurd h (by decide)

theorem poolDeviceResponse : Statement .poolDeviceResponse := fun h => absurd h (by decide)

theorem markEviction : Statement .markEviction := fun h => absurd h (by decide)

end Sys2Proof.Laws.RoundTrip
end

