-- ==== Sys2Proof/Safety.lean ====
section
/-! DEFINITION. The terms that the claims are stated in: a legal state, what an instruction leaves alone, what a result is. -/

namespace Sys2Proof.Safety
open Sys2Proof Sys2Proof.Machine

/-- The instruction has a next state that satisfies `P`. -/
def Completes (i : Instr) (s : State) (P : State → Prop) : Prop := ∃ t, exec i s = .next t ∧ P t

/-- Two contexts agree on every register but X, PC, INSTRET and the loop's: vector, predicate and geometry registers, control registers, the
trap record, the ports and what the slot has outstanding. -/
def SameButX (c c' : Ctx) : Prop :=
  c'.v = c.v ∧ c'.p = c.p ∧ c'.g = c.g ∧ c'.fpstat = c.fpstat ∧ c'.rmode = c.rmode ∧ c'.srseed = c.srseed ∧ c'.asid = c.asid ∧
  c'.ptroot = c.ptroot ∧ c'.wscale6 = c.wscale6 ∧ c'.wscale7 = c.wscale7 ∧ c'.tcause = c.tcause ∧ c'.tpc = c.tpc ∧ c'.tval = c.tval ∧
  c'.tinfo = c.tinfo ∧ c'.ports = c.ports ∧ c'.ra = c.ra ∧ c'.gen = c.gen ∧ c'.lastEnd = c.lastEnd ∧ c'.nmPending = c.nmPending ∧
  c'.nmErrors = c.nmErrors ∧ c'.holdBreaks = c.holdBreaks ∧ c'.poolStores = c.poolStores ∧ c'.poolLost = c.poolLost ∧ c'.seq = c.seq ∧
  c'.pending = c.pending ∧ c'.granted = c.granted

/-- Two states agree on the units of dies and packages, the group, and everything that is under way between them. -/
def SameUnits (s t : State) : Prop :=
  t.dies = s.dies ∧ t.pkgs = s.pkgs ∧ t.group = s.group ∧ t.domain = s.domain ∧ t.locks = s.locks ∧ t.nmOps = s.nmOps ∧ t.migs = s.migs ∧
  t.flights = s.flights ∧ t.colls = s.colls ∧ t.clones = s.clones ∧ t.tokens = s.tokens ∧ t.accepts = s.accepts ∧ t.results = s.results ∧
  t.legUps = s.legUps ∧ t.dirs = s.dirs ∧ t.proxies = s.proxies ∧ t.pins = s.pins ∧ t.late = s.late ∧ t.tries = s.tries

/-- Two states agree on every context but the issuing one and on every core, but for the count of instructions that the issuing core has
issued in a row. -/
def SameOthers (s t : State) : Prop :=
  t.cur = s.cur ∧ (∀ id, id ≠ s.cur → t.ctx id = s.ctx id) ∧ (∀ n k, (n, k) ≠ (s.fnode, s.fcore) → t.core n k = s.core n k) ∧
  t.cc = { s.cc with run := s.cc.run + 1 }

/-- Nothing but the issuing context changes. -/
def OnlyContext (s t : State) : Prop :=
  t.mem = s.mem ∧ t.lost = s.lost ∧ t.lostWords = s.lostWords ∧ t.polders = s.polders ∧ SameUnits s t ∧ SameOthers s t

/-- The frame of an instruction that writes X registers only: X, PC, INSTRET (one more) and the loop registers may change. -/
def OnlyX (s t : State) : Prop := OnlyContext s t ∧ SameButX s.c t.c ∧ t.c.instret = s.c.instret + 1

/-- X(d) holds `v`, unless it is x0, which reads 0; every other X register is as before. -/
def XIs (s t : State) (d : Reg) (v : Word) : Prop := ∀ r, t.X r = if r = 0 then 0 else if r = d then v else s.X r

/-- The result of an instruction whose one effect is X(d) := v. -/
def ResultX (d : Reg) (v : Word) (s t : State) : Prop := OnlyX s t ∧ XIs s t d v

/-- The context `c'` is `c` after its instruction has retired: its registers are as the instruction left them, one more instruction is
counted, and the slot is READY. PC and the loop registers are not spoken of. -/
def Retired (c c' : Ctx) : Prop := c'.x = c.x ∧ SameButX c c' ∧ c'.instret = c.instret + 1 ∧ c'.st = .ready

/-- The instruction's effect was to make `u` of the machine, and then it retired: nothing but the issuing context's PC, INSTRET, loop and
slot state, and the count of its core, differs from `u`. -/
def Leaves (u t : State) : Prop := OnlyContext u t ∧ Retired u.c t.c

/-- Element `i` of a vector of elements of `w` bits (R243). -/
def lane (w i : Nat) (v : Vec) : Nat := v.toNat / 2 ^ (w * i) % 2 ^ w

/-- What a vector or floating-point instruction leaves alone: memory, every unit, and of its context all but V, P, X, PC, INSTRET, the loop, and
FPSTAT, into which the flags `f` go, unless the context is a run-ahead helper (R259). -/
def VecFrame (f : BitVec 5) (s t : State) : Prop :=
  t.mem = s.mem ∧ t.lost = s.lost ∧ t.lostWords = s.lostWords ∧ t.polders = s.polders ∧ SameUnits s t ∧
  SameButX s.c { t.c with v := s.c.v, p := s.c.p, fpstat := s.c.fpstat } ∧
  t.c.fpstat = (if s.c.ra then s.c.fpstat else s.c.fpstat ||| f) ∧ t.c.instret = s.c.instret + 1

/-- V(d) holds `(f i).1` in each element of `w` bits, the other V registers, X and P are as before, and the flags of the elements are raised. -/
def ResultV (w : Nat) (d : Reg) (f : Nat → Nat × BitVec 5) (s t : State) : Prop :=
  (∀ i, i < 256 / w → lane w i (t.c.vr d) = (f i).1 % 2 ^ w) ∧ (∀ r, r ≠ d → t.c.vr r = s.c.vr r) ∧ t.c.x = s.c.x ∧ t.c.p = s.c.p ∧
  VecFrame ((List.range (256 / w)).foldl (fun g i => g ||| (f i).2) 0) s t

/-- Bit `i` of P(d) is `(f i).1`; the other P registers, X and V are as before, and the flags are raised. -/
def ResultP (d : Reg) (f : Nat → Bool × BitVec 5) (s t : State) : Prop :=
  (∀ i, i < 8 → (t.c.pr d).getLsbD i = (f i).1) ∧ (∀ r, r ≠ d → t.c.pr r = s.c.pr r) ∧ t.c.x = s.c.x ∧ t.c.v = s.c.v ∧
  VecFrame ((List.range 8).foldl (fun g i => g ||| (f i).2) 0) s t

/-- A vector instruction on the registers of `l` can issue: none of them is a bound port, and the core's vector queue has room (R235, R280). -/
def VecReady (s : State) (l : List Reg) : Prop :=
  (∀ r ∈ l, s.c.portOf r = none) ∧ (s.cc.vq.filter (fun e => !e.bound)).length < 32

/-- The slice that translates a VA for the issuing context holds this leaf result for it (R100, R101). -/
def SliceHolds (s : State) (va : Nat) (l : Leaf) : Prop :=
  (s.slice s.fnode s.cur.die (s.sliceOf s.fnode s.cur.die s.c.asid (granOf va))).leaves.find?
    (fun x => x.asid == s.c.asid && x.gran == granOf va) = some l

/-- The word is the handle of phaser `k` of polder `p` of the context's package, whose state is `f`: it is live, and of the context's
ASID (R376, R377). -/
def NamesPhaser (s : State) (h : Word) (p k : Nat) (f : Phaser) : Prop :=
  p < 192 ∧ k < 64 ∧ f.gen < 4096 ∧ h.toNat = p * 2 ^ 40 + k * 2 ^ 34 + f.gen * 2 ^ 22 ∧ f = (s.polder s.fnode p).phaser k ∧ f.live = true ∧
  f.asid = s.c.asid

/-- Nothing but copies of lines, and what slices, directory and proxies say of them, differs. -/
def CopiesOnly (s t : State) : Prop := t = { s with cores := t.cores, dies := t.dies, dirs := t.dirs, proxies := t.proxies }

/-- The home of a line has recalled its copies, but for those of core `but` (R65, R121): the line has no owner; with no core kept, no slice that
the home knew of has the line; and no L1 that the vector of such a slice, or its object, named has it. -/
def Recalled (s t : State) (pl : Nat) (but : Option (Nat × Nat)) : Prop :=
  (t.dir pl).owner = none ∧ ∀ h ∈ s.holders pl,
    (but = none → ∀ x ∈ (t.slice h.1 h.2.1 h.2.2).lines, x.pline ≠ pl) ∧
    ∀ x ∈ (s.slice h.1 h.2.1 h.2.2).lines, x.pline = pl → ∀ k ∈ s.copyCores h.1 h.2.1 x, but ≠ some (h.1, k) →
      ∀ l ∈ (t.core h.1 k).l1, l.at x.asid x.vline = false

/-- The home of a line has merged its holder's dirty bytes (R121, R124): the line has no owner; its slices' lines are clean and not owned, and no
L1 that the vector of an owned one named owns it. -/
def Merged (s t : State) (pl : Nat) : Prop :=
  (t.dir pl).owner = none ∧ ∀ h ∈ s.holders pl,
    (∀ x ∈ (t.slice h.1 h.2.1 h.2.2).lines, x.pline = pl → x.owned = false ∧ x.dirty = 0) ∧
    ∀ x ∈ (s.slice h.1 h.2.1 h.2.2).lines, x.pline = pl → x.owned = true → ∀ k ∈ s.copyCores h.1 h.2.1 x,
      ∀ l ∈ (t.core h.1 k).l1, l.at x.asid x.vline = true → l.st ≠ .owned

/-- The instruction raises the trap and leaves no other effect (R414). -/
def Traps (i : Instr) (s : State) (c : Cause) (tval : Word) (acc : BitVec 2) : Prop :=
  exec i s = .next (s.trapNow { cause := c, tval := tval, acc := acc } (isLong i) s.pfx.isSome)

/-- The slot stalls for the reason `w`, and is tried again. -/
def Waits (i : Instr) (s : State) (w : Wait) : Prop :=
  ∃ t, exec i s = .next t ∧ (t.ctx s.cur).st = .stalled ∧ (t.ctx s.cur).wait = some w ∧ (t.ctx s.cur).pc = s.c.pc ∧ t.mem = s.mem

end Sys2Proof.Safety
end

