-- ==== Sys2Proof/Certificates/Slice0/Obligations.lean ====
section
/-! DEFINITION. The statements about the machine. Each follows the rules its docstring names; what an instruction leaves unchanged is in
`Safety.Leaves` and `Safety.ResultX`. -/

open Sys2Proof Sys2Proof.Machine Sys2Proof.Safety

/-! ## Encoding and the step -/

/-- The bytes of every well-formed instruction, whatever follows them, decode to exactly it and the bytes that follow (R40 to R45, R55,
R56): no operand bit is dropped. -/
def Obligations.DecodeOfEncodeIsTheInstruction : Prop :=
  ∀ (i : Instr) (rest : List Byte), isEvent i = false → wellFormed i = true → decode (encodeBytes i ++ rest) = .ok (i, rest)

/-- A word that decodes, and that no selector marks as governed, is the word of the instruction it decodes to, payload included: no two
words share a meaning and no bit is ignored (R40, R41, R43, R55).
No bytes decode to a hardware, host or management step: a program cannot name one (R55, R56). -/
def Obligations.WordsHaveOneMeaningAndAreNoEvents : Prop :=
  (∀ (w p : Nat) (i : Instr), w < 2 ^ 32 → p < 2 ^ 32 → selGoverned w = false → decodeWord w p = .ok i →
    encodeFirst i = w ∧ (selLong w = true → encodePayload i = some (BitVec.ofNat 32 p)) ∧ (selLong w = false → encodePayload i = none)) ∧
  (∀ (l rest : List Byte) (i : Instr), decode l = .ok (i, rest) → isEvent i = false)

/-- Words the spec's encoding gives decode to their instructions: ADD x13,x1,x11; BEQ x5,x6,+8; LD x5,[x6+16]; STV v3,[x4+64];
AMOADD.D.FAR x5,[x6],x7; VADD.FP32 v26,v24,v25; ECPY x13,x7; START x15,x8,x14; PFX rz.sat; LDIU x9 with its payload; a word of major
0x3F is unlisted, and three bytes are no word. -/
def Obligations.SpecWordsDecode : Prop :=
  decodeWord 0x002C2D04 0 = .ok (.add 13 1 11) ∧ decodeWord 0x0008C530 0 = .ok (.beq 5 6 2) ∧ decodeWord 0xC008C554 0 = .ok (.ld 5 6 2 0) ∧
  decodeWord 0x00088360 0 = .ok (.stv 3 4 2 0) ∧ decodeWord 0x281CC564 0 = .ok (.amoadd 5 6 7 true 2 false) ∧
  decodeWord 0x20671A80 0 = .ok (.vadd false 26 24 25 1) ∧ decodeWord 0x001DA09C 0 = .ok (.ecpy 13 7 false) ∧
  decodeWord 0x00390FAC 0 = .ok (.start 15 8 14) ∧ decodeWord 0x00000026 0 = .ok (.pfx 1 true 0 0 false 0) ∧
  decode [0x13, 0x09, 0, 0, 0, 0x02, 0, 0x40] = .ok (.ldiu 9 0x40000200, []) ∧
  decodeWord 0x000000FC 0 = .error .unlistedWord ∧ decode [0, 0, 0] = .error .truncated

/-- A step runs the decoded instruction (R51): where no unit command, turn of the schedule or idle work stands before it, the package is out of reset (R446), the current slot may
issue and has issued fewer than 256 instructions in a row, and it holds no words, the word fetched at PC is decoded, and the step is `exec` of
it on the state that the fetch leaves, and the passing of time; a long instruction's payload is fetched at PC + 4 first. An instruction that names an
x register which a VEXT or a PCNT of its slot has still to write does not execute: its slot stalls with its word held (R284).
Whose turn a step is, and how much time it takes, is the model's choice (log entry 6). -/
def Obligations.StepRunsDecodedInstruction : Prop :=
  ∀ (s s1 : State) (w : Nat), s.urgent = [] → s.schedule = [] → s.idle = false → s.cc.run < 256 →
    (s.pkg s.fnode).live = true → s.runnable s.fnode s.fcore s.cc.slot = true → s.c.held = none → s.fetch s.c.pc = .ok (s1, w) → selGoverned w = false →
    (∀ i, selLong w = false → decodeWord w 0 = .ok i → wellFormed i = true →
      step s = if s1.xHeld i then .next ((s1.holdWords i).stall .vectorQueue).tick else tickOut (exec i s1)) ∧
    (∀ i s2 p, selLong w = true → s1.fetch (s1.c.pc + 4) = .ok (s2, p) → decodeWord w p = .ok i → wellFormed i = true →
      step s = if s2.xHeld i then .next ((s2.holdWords i).stall .vectorQueue).tick else tickOut (exec i s2))

/-- The word a fetch reads (R5, R106, R269): at a canonical PC outside the aperture whose page the translation slice holds, executable,
permitted to the context's mode, accessed and in HBM of the group, of a package not cut off, whose line is not lost and is not in the
instruction cache, it is the four bytes at the page's frame plus the offset, the least significant first; memory stays, and of the context only the
mark that its request has been counted (R116) is new.
A word that no row of the map gives, or whose fields are out of range, and a governed word that no prefix precedes, trap in the step that
fetches them: ILLEGAL_INSTR and ORPHAN_GOVERNED with the word as TVAL (R51, R57). Which checks a fetch makes is read by inference (log entry 9). -/
def Obligations.FetchAndUndecodableWords : Prop :=
  (∀ (s : State) (va : Word) (l : Leaf), isAperture va.toNat = false → isCanonical va.toNat = true → SliceHolds s va.toNat l →
    (s.cc.slot = 11 ∨ pteU l.entry = true) → pteX l.entry = true → pteA l.entry = true → paClass (l.pa va.toNat) = 0 →
    s.hbmCheck s.req va.toNat (l.pa va.toNat) 3 = .ok () → s.isLost (l.pa va.toNat) = false →
    s.cc.iline s.c.asid (fieldN va.toNat 6 50) = none →
    ∃ t, s.fetch va = .ok (t, memRead s.mem (l.pa va.toNat) 4) ∧ t.mem = s.mem ∧ t.c = { s.c with surveyed := t.c.surveyed } ∧
      t.polders = s.polders ∧ t.pkgs = s.pkgs) ∧
  (∀ (s s1 : State) (w : Nat), s.urgent = [] → s.schedule = [] → s.idle = false → s.cc.run < 256 →
    (s.pkg s.fnode).live = true → s.runnable s.fnode s.fcore s.cc.slot = true → s.c.held = none → s.fetch s.c.pc = .ok (s1, w) →
    (selGoverned w = true →
      step s = .next (s1.trapNow { cause := .orphanGoverned, tval := BitVec.ofNat 64 w } (selLong w) false).tick) ∧
    (selGoverned w = false → selLong w = false → (∀ i, decodeWord w 0 = .ok i → wellFormed i = false) →
      step s = .next (s1.trapNow { cause := .illegalInstr, tval := BitVec.ofNat 64 w } false false).tick))

/-- The machine never stops: each of its own faults is a trap, a record or a wait, and every step has a next state (R414 to R418; log entry 25). -/
def Obligations.EveryStepHasANextState : Prop := ∀ s, ∃ t, step s = .next t

/-! ## Scalar integer instructions (R259 to R272) -/

/-- R260: the register operations. Signed comparisons are of the two's-complement values, W forms keep 32 bits and extend the sign, shift and
rotate counts are X(rs2)[5:0]. Each completes with X(rd) as its one result.
R261: the immediate operations, imm14 sign-extended, shift counts of 6 bits. -/
def Obligations.ScalarOperationsWriteTheirResult : Prop :=
  (∀ (s : State) (d a b : Reg),
    Completes (.add d a b) s (ResultX d (BitVec.ofNat 64 ((s.X a).toNat + (s.X b).toNat)) s) ∧
    Completes (.sub d a b) s (ResultX d (BitVec.ofInt 64 ((s.X a).toInt - (s.X b).toInt)) s) ∧
    Completes (.and d a b) s (ResultX d (s.X a &&& s.X b) s) ∧
    Completes (.or d a b) s (ResultX d (s.X a ||| s.X b) s) ∧
    Completes (.xor d a b) s (ResultX d (s.X a ^^^ s.X b) s) ∧
    Completes (.andn d a b) s (ResultX d (s.X a &&& ~~~(s.X b)) s) ∧
    Completes (.orn d a b) s (ResultX d (s.X a ||| ~~~(s.X b)) s) ∧
    Completes (.sll d a b) s (ResultX d (s.X a <<< ((s.X b).toNat % 64)) s) ∧
    Completes (.srl d a b) s (ResultX d (BitVec.ofNat 64 ((s.X a).toNat / 2 ^ ((s.X b).toNat % 64))) s) ∧
    Completes (.sra d a b) s (ResultX d (BitVec.ofInt 64 ((s.X a).toInt / 2 ^ ((s.X b).toNat % 64))) s) ∧
    Completes (.slt d a b) s (ResultX d (if (s.X a).toInt < (s.X b).toInt then 1 else 0) s) ∧
    Completes (.sltu d a b) s (ResultX d (if (s.X a).toNat < (s.X b).toNat then 1 else 0) s) ∧
    Completes (.min d a b) s (ResultX d (BitVec.ofInt 64 (min (s.X a).toInt (s.X b).toInt)) s) ∧
    Completes (.max d a b) s (ResultX d (BitVec.ofInt 64 (max (s.X a).toInt (s.X b).toInt)) s) ∧
    Completes (.minu d a b) s (ResultX d (BitVec.ofNat 64 (min (s.X a).toNat (s.X b).toNat)) s) ∧
    Completes (.maxu d a b) s (ResultX d (BitVec.ofNat 64 (max (s.X a).toNat (s.X b).toNat)) s) ∧
    Completes (.addw d a b) s (ResultX d ((BitVec.ofNat 32 ((s.X a).toNat + (s.X b).toNat)).signExtend 64) s) ∧
    Completes (.subw d a b) s (ResultX d ((BitVec.ofInt 32 ((s.X a).toInt - (s.X b).toInt)).signExtend 64) s) ∧
    Completes (.rol d a b) s (ResultX d ((s.X a <<< ((s.X b).toNat % 64)) ||| (s.X a >>> (64 - (s.X b).toNat % 64))) s) ∧
    Completes (.ror d a b) s (ResultX d ((s.X a >>> ((s.X b).toNat % 64)) ||| (s.X a <<< (64 - (s.X b).toNat % 64))) s)) ∧
  (∀ (s : State) (d a : Reg) (i : BitVec 14) (n : BitVec 6),
    Completes (.addi d a i) s (ResultX d (BitVec.ofInt 64 ((s.X a).toInt + i.toInt)) s) ∧
    Completes (.andi d a i) s (ResultX d (s.X a &&& BitVec.ofInt 64 i.toInt) s) ∧
    Completes (.ori d a i) s (ResultX d (s.X a ||| BitVec.ofInt 64 i.toInt) s) ∧
    Completes (.xori d a i) s (ResultX d (s.X a ^^^ BitVec.ofInt 64 i.toInt) s) ∧
    Completes (.slti d a i) s (ResultX d (if (s.X a).toInt < i.toInt then 1 else 0) s) ∧
    Completes (.slli d a n) s (ResultX d (s.X a <<< n.toNat) s) ∧
    Completes (.srli d a n) s (ResultX d (BitVec.ofNat 64 ((s.X a).toNat / 2 ^ n.toNat)) s) ∧
    Completes (.srai d a n) s (ResultX d (BitVec.ofInt 64 ((s.X a).toInt / 2 ^ n.toNat)) s) ∧
    Completes (.rori d a n) s (ResultX d ((s.X a >>> n.toNat) ||| (s.X a <<< (64 - n.toNat))) s))

/-- R262 and R263: products, and quotients rounded toward zero with their edge cases: division by zero gives all ones and the dividend, and
−2^63 ÷ −1 gives −2^63 and 0. No division traps. -/
def Obligations.MultiplyAndDivideResults : Prop :=
  ∀ (s : State) (d a b : Reg),
    Completes (.mul d a b) s (ResultX d (BitVec.ofNat 64 ((s.X a).toNat * (s.X b).toNat)) s) ∧
    Completes (.mulh d a b) s (ResultX d (BitVec.ofInt 64 ((s.X a).toInt * (s.X b).toInt / 2 ^ 64)) s) ∧
    Completes (.mulhu d a b) s (ResultX d (BitVec.ofNat 64 ((s.X a).toNat * (s.X b).toNat / 2 ^ 64)) s) ∧
    Completes (.mulw d a b) s (ResultX d ((BitVec.ofNat 32 ((s.X a).toNat * (s.X b).toNat)).signExtend 64) s) ∧
    Completes (.div d a b) s (ResultX d (if s.X b = 0 then -1 else BitVec.ofInt 64 ((s.X a).toInt.tdiv (s.X b).toInt)) s) ∧
    Completes (.divu d a b) s (ResultX d (if s.X b = 0 then -1 else BitVec.ofNat 64 ((s.X a).toNat / (s.X b).toNat)) s) ∧
    Completes (.rem d a b) s (ResultX d (if s.X b = 0 then s.X a else BitVec.ofInt 64 ((s.X a).toInt.tmod (s.X b).toInt)) s) ∧
    Completes (.remu d a b) s (ResultX d (if s.X b = 0 then s.X a else BitVec.ofNat 64 ((s.X a).toNat % (s.X b).toNat)) s)

/-- R266: the constants, and the PC-relative address, PC being the instruction's own address.
R264 and R265: a field of WM1 + 1 bits at POS is extracted, extracted with its sign, or inserted with every other bit of X(rd) kept, when it
lies inside the register; one that does not raises ILLEGAL_INSTR with the word as TVAL.
R265: CLZ and CTZ count the zero bits above the highest and below the lowest 1 bit, 64 for 0; POPC counts the 1 bits. -/
def Obligations.ConstantsBitFieldsAndCounts : Prop :=
  (∀ (s : State) (d a : Reg) (i : BitVec 19) (m : BitVec 32),
    Completes (.ldhi d i) s (ResultX d (BitVec.ofInt 64 (i.toInt * 2 ^ 14)) s) ∧
    Completes (.addpc d i) s (ResultX d (BitVec.ofInt 64 (s.c.pc.toInt + 4 * i.toInt)) s) ∧
    Completes (.ldi d m) s (ResultX d (BitVec.ofInt 64 m.toInt) s) ∧
    Completes (.ldiu d m) s (ResultX d (BitVec.ofNat 64 m.toNat) s) ∧
    Completes (.addil d a m) s (ResultX d (BitVec.ofInt 64 ((s.X a).toInt + m.toInt)) s)) ∧
  ((∀ (s : State) (d a : Reg) (p w : BitVec 6),
    (p.toNat + w.toNat < 64 →
      Completes (.bfx d a p w) s (ResultX d (BitVec.ofNat 64 ((s.X a).toNat / 2 ^ p.toNat % 2 ^ (w.toNat + 1))) s) ∧
      Completes (.bfxs d a p w) s (ResultX d (BitVec.ofInt 64 (Int.bmod ((s.X a).toNat / 2 ^ p.toNat : Nat) (2 ^ (w.toNat + 1)))) s) ∧
      Completes (.bfi d a p w) s (fun t => OnlyX s t ∧ (∀ r, r ≠ d → t.X r = s.X r) ∧ (d ≠ 0 → ∀ k, k < 64 →
        (t.X d).getLsbD k = if p.toNat ≤ k ∧ k ≤ p.toNat + w.toNat then (s.X a).getLsbD (k - p.toNat) else (s.X d).getLsbD k))) ∧
    (64 ≤ p.toNat + w.toNat → ∀ i ∈ [Instr.bfx d a p w, Instr.bfxs d a p w, Instr.bfi d a p w],
      Traps i s .illegalInstr (BitVec.ofNat 64 (encodeFirst i)) 0)) ∧
  (∀ (s : State) (d a : Reg),
    (∃ n, n ≤ 64 ∧ (∀ k, k < n → (s.X a).getLsbD (63 - k) = false) ∧ (n < 64 → (s.X a).getLsbD (63 - n) = true) ∧
      Completes (.clz d a) s (ResultX d (BitVec.ofNat 64 n) s)) ∧
    (∃ n, n ≤ 64 ∧ (∀ k, k < n → (s.X a).getLsbD k = false) ∧ (n < 64 → (s.X a).getLsbD n = true) ∧
      Completes (.ctz d a) s (ResultX d (BitVec.ofNat 64 n) s)) ∧
    Completes (.popc d a) s (ResultX d (BitVec.ofNat 64 ((List.range 64).countP (fun k => (s.X a).getLsbD k))) s)))

/-! ## Control flow -/

/-- R267: a branch whose comparison holds goes to PC + 4 × sext(offset), else to the next word; no register changes.
R268: JAL and JL write the link, PC + 4 and PC + 8, and go to PC plus four times the offset; JALR goes to X(rs1) + sext(imm14), and when that is no
multiple of 4 it raises MISALIGNED with it as TVAL, rd and PC unchanged. -/
def Obligations.BranchesAndJumps : Prop :=
  (∀ (s : State) (a b : Reg) (o : BitVec 14) (i : Instr) (taken : Bool),
    s.pfx = none →
    ((i, taken) ∈ [(Instr.beq a b o, decide (s.X a = s.X b)), (Instr.bne a b o, decide (s.X a ≠ s.X b)),
      (Instr.blt a b o, decide ((s.X a).toInt < (s.X b).toInt)), (Instr.bge a b o, decide ((s.X b).toInt ≤ (s.X a).toInt)),
      (Instr.bltu a b o, decide ((s.X a).toNat < (s.X b).toNat)), (Instr.bgeu a b o, decide ((s.X b).toNat ≤ (s.X a).toNat))]) →
    Completes i s (fun t => Leaves s t ∧
      (taken = true → t.c.pc = BitVec.ofInt 64 (s.c.pc.toInt + 4 * o.toInt)) ∧
      (taken = false → s.c.loopActive = false → t.c.pc = s.c.pc + 4))) ∧
  (∀ (s : State) (d a : Reg) (j : BitVec 19) (i : BitVec 14) (m : BitVec 32),
    Completes (.jal d j) s (fun t => ResultX d (s.c.pc + 4) s t ∧ t.c.pc = BitVec.ofInt 64 (s.c.pc.toInt + 4 * j.toInt)) ∧
    Completes (.jl d m) s (fun t => ResultX d (s.c.pc + 8) s t ∧ t.c.pc = BitVec.ofInt 64 (s.c.pc.toInt + 4 * m.toInt)) ∧
    ((s.X a + BitVec.ofInt 64 i.toInt).toNat % 4 = 0 →
      Completes (.jalr d a i) s (fun t => ResultX d (s.c.pc + 4) s t ∧ t.c.pc = s.X a + BitVec.ofInt 64 i.toInt)) ∧
    ((s.X a + BitVec.ofInt 64 i.toInt).toNat % 4 ≠ 0 → Traps (.jalr d a i) s .misaligned (s.X a + BitVec.ofInt 64 i.toInt) 0))

/-- R270 to R272: LOOP with a count starts a loop of `len` words with LREM = the count, a count of 0 skips the body, and LOOP inside an active loop or
with a length of 0 raises ILLEGAL_INSTR.
R272: after a word inside no active loop PC is the next word; after the last word of an active loop's body it is the loop's start with LREM one less
while more than one iteration is left, and past the loop, which is then inactive, at the last. -/
def Obligations.LoopInstructionAndLoopEnd : Prop :=
  (∀ (s : State) (r : Reg) (l : BitVec 14), s.pfx = none →
    (s.c.loopActive = false → l ≠ 0 → s.X r ≠ 0 → Completes (.loop r l) s (fun t =>
      OnlyContext s t ∧ t.c.x = s.c.x ∧ SameButX s.c t.c ∧ t.c.loopActive = true ∧ t.c.lstart = s.c.pc + 4 ∧
      t.c.lend = s.c.pc + 4 * BitVec.ofNat 64 l.toNat ∧ t.c.lrem = s.X r ∧ t.c.pc = s.c.pc + 4)) ∧
    (s.c.loopActive = false → l ≠ 0 → s.X r = 0 → Completes (.loop r l) s (fun t =>
      Leaves s t ∧ t.c.loopActive = false ∧ t.c.pc = s.c.pc + 4 + 4 * BitVec.ofNat 64 l.toNat)) ∧
    (s.c.loopActive = true ∨ l = 0 → Traps (.loop r l) s .illegalInstr (BitVec.ofNat 64 (encodeFirst (.loop r l))) 0)) ∧
  (∀ (c : Ctx) (n : Nat),
    (c.loopActive = false → (c.advance n false).pc = c.pc + BitVec.ofNat 64 n ∧ (c.advance n false).loopActive = false) ∧
    (c.loopActive = true → (c.lend.toNat < c.pc.toNat ∨ c.pc.toNat + n ≤ c.lend.toNat) →
      (c.advance n false).pc = c.pc + BitVec.ofNat 64 n ∧ (c.advance n false).lrem = c.lrem ∧ (c.advance n false).loopActive = true) ∧
    (c.loopActive = true → c.pc.toNat ≤ c.lend.toNat → c.lend.toNat < c.pc.toNat + n → 1 < c.lrem.toNat →
      (c.advance n false).pc = c.lstart ∧ (c.advance n false).lrem = c.lrem - 1 ∧ (c.advance n false).loopActive = true) ∧
    (c.loopActive = true → c.pc.toNat ≤ c.lend.toNat → c.lend.toNat < c.pc.toNat + n → c.lrem.toNat ≤ 1 →
      (c.advance n false).pc = c.lend + 4 ∧ (c.advance n false).loopActive = false))

/-! ## Control and status registers -/

/-- R274: with the right to read and write, CSRRW writes X(rs1), CSRRS the old value or X(rs1), CSRRC the old value and not X(rs1), the last
two only when rs1 is not x0, by the field rules that `CsrFieldRulesAndInstret` states; X(rd) receives the old value. A run-ahead helper's write is
dropped (R259). An instruction that writes INSTRET leaves it as written.
R274: an unlisted CSR address is illegal, a register hidden from the context raises PRIVILEGE, a write of a read-only register is
illegal, but for ASID and PTROOT in a user context, which raise PRIVILEGE; TVAL is the word, and nothing else changes. -/
def Obligations.CsrAccessReadsWritesAndTraps : Prop :=
  (∀ (s : State) (d a : Reg) (c : BitVec 12) (r : Csr), csrAt c.toNat = some r →
    (r.right s.sys = .readWrite → ∀ e ∈ [(Instr.csrrw d a c, true, s.X a), (Instr.csrrs d a c, a != 0, s.csrRead r ||| s.X a),
        (Instr.csrrc d a c, a != 0, s.csrRead r &&& ~~~(s.X a))],
      let u := (if e.2.1 && !s.c.ra then s.csrWrite r e.2.2 else s).setX d (s.csrRead r)
      (r ≠ .instret ∨ e.2.1 = false → Completes e.1 s (Leaves u)) ∧
      (r = .instret → e.2.1 = true → s.c.ra = false → Completes e.1 s (fun t => OnlyContext u t ∧ t.c.x = u.c.x ∧ SameButX u.c t.c ∧
        t.c.instret = e.2.2))) ∧
    (r.right s.sys = .read →
      Completes (.csrrs d 0 c) s (ResultX d (s.csrRead r) s) ∧ Completes (.csrrc d 0 c) s (ResultX d (s.csrRead r) s))) ∧
  (∀ (s : State) (d a : Reg) (c : BitVec 12),
    (csrAt c.toNat = none → ∀ i ∈ [Instr.csrrw d a c, .csrrs d a c, .csrrc d a c],
      Traps i s .illegalInstr (BitVec.ofNat 64 (encodeFirst i)) 0) ∧
    (∀ r, csrAt c.toNat = some r → r.right s.sys = .hidden → ∀ i ∈ [Instr.csrrw d a c, .csrrs d a c, .csrrc d a c],
      Traps i s .privilege (BitVec.ofNat 64 (encodeFirst i)) 0) ∧
    (∀ r, csrAt c.toNat = some r → r.right s.sys = .read →
      ∀ e ∈ [(Instr.csrrw d a c, true), (Instr.csrrs d a c, a != 0), (Instr.csrrc d a c, a != 0)], e.2 = true →
      Traps e.1 s (if (r = .asid ∨ r = .ptroot) ∧ s.sys = false then .privilege else .illegalInstr) (BitVec.ofNat 64 (encodeFirst e.1)) 0))

/-- What a CSR reads after a write of `w` (R232, R99, R188, R415): FPSTAT five bits, RMODE kept when the value is no mode, SRSEED never 0, TVEC
and the scale registers a multiple of 4, ASID 16 bits, PTROOT bits [57:16], VSHARE four bits, QUANT kept when it is 0 or above 64.
R275: an instruction that writes INSTRET leaves it at the value written, the instruction itself not counted. -/
def Obligations.CsrFieldRulesAndInstret : Prop :=
  (∀ (s : State) (w : Word),
    (s.csrWrite .fpstat w).csrRead .fpstat = w &&& 0x1F ∧
    (s.csrWrite .rmode w).csrRead .rmode = (if w.toNat % 8 ≤ 5 then w &&& 7 else s.csrRead .rmode) ∧
    (s.csrWrite .srseed w).csrRead .srseed = (if w &&& 0xFFFFFFFF = 0 then 1 else w &&& 0xFFFFFFFF) ∧
    (s.csrWrite .tvec w).csrRead .tvec = w &&& ~~~3#64 ∧
    (s.csrWrite .tcause w).csrRead .tcause = w &&& 0xFF ∧
    (s.csrWrite .tpc w).csrRead .tpc = w &&& ~~~3#64 ∧
    (s.csrWrite .tval w).csrRead .tval = w ∧
    (s.csrWrite .tinfo w).csrRead .tinfo = w &&& 0xFF ∧
    (s.csrWrite .asid w).csrRead .asid = w &&& 0xFFFF ∧
    (s.csrWrite .ptroot w).csrRead .ptroot = w &&& 0x03FFFFFFFFFF0000 ∧
    (s.csrWrite .vshare w).csrRead .vshare = w &&& 0xF ∧
    (s.csrWrite .leaseq w).csrRead .leaseq =
      (w &&& 0xFFFFFFFF00000000) ||| (if w.toNat % 128 = 0 ∨ 64 < w.toNat % 128 then s.csrRead .leaseq &&& 0x7F else w &&& 0x7F) ∧
    (s.csrWrite .wscale6 w).csrRead .wscale6 = w &&& ~~~3#64 ∧ (s.csrWrite .wscale7 w).csrRead .wscale7 = w &&& ~~~3#64 ∧
    (s.csrWrite .instret w).csrRead .instret = w ∧ (s.csrWrite .spillcnt w).csrRead .spillcnt = w ∧
    (s.csrWrite .dupcnt w).csrRead .dupcnt = w) ∧
  (∀ (s : State) (d a : Reg), s.sys = true → s.c.ra = false →
    Completes (.csrrw d a 0x051) s (fun t => t.c.instret = s.X a ∧ XIs s t d s.c.instret ∧ t.mem = s.mem))

/-- The reset values that the spec states (R232, R416): FPSTAT, RMODE, TVEC and the trap record 0, SRSEED 1, VSHARE 8, HOLD 0x0100_0000,
QUANT 16; no run-ahead mark, no loop, every port unbound, slots 0 to 10 FREE; a legend unit's staging entry has WIN 20, NPART 1 and NSLOT 256 (R390). The
memory of the reset state has the canonical form that every step keeps. -/
def Obligations.ResetLeavesTheStatedValues : Prop :=
  Memory.wf State.reset.mem = true ∧ ∀ (n k j : Nat), let c := State.reset.ctx ⟨n, k, j⟩; let q := State.reset.core n k
    c.fpstat = 0 ∧ c.rmode = 0 ∧ c.srseed = 1 ∧ c.asid = 0 ∧ c.ptroot = 0 ∧ c.wscale6 = 0 ∧ c.wscale7 = 0 ∧ c.instret = 0 ∧ c.tcause = 0 ∧
    c.tpc = 0 ∧ c.tval = 0 ∧ c.tinfo = 0 ∧ c.ra = false ∧ c.gen = 0 ∧ c.loopActive = false ∧ (∀ i : Fin 8, c.ports[i].bound = false) ∧
    (j ≤ 10 → c.st = .free) ∧ q.vshare = 8 ∧ q.hold = 0x01000000 ∧ q.quant = 16 ∧ q.pend = 0 ∧ q.sv = false ∧ q.osv = false ∧ q.tvec = 0 ∧
    (let e := (State.reset.die n j).staging.toNat; entWin e = 20 ∧ entNpart e = 1 ∧ entNslot e = 256)

/-! ## Traps -/

/-- R415, R417: a trap of a user context that is no run-ahead helper writes TCAUSE, TPC (the boundary, a multiple of 4), TVAL and TINFO (PFX, WLEV, ACC, long), parks the
slot and sets its PEND bit; its registers, PC and memory stay, and another core's state does too.
R417: a trap of the system context, with TVEC not 0 and no trap of its own being served, writes its record, keeps SV and SLOT in OSV
and OSLOT, selects slot 11 and goes on at TVEC, still in system privilege; with TVEC 0 or inside its own trap it makes a machine-check record of KIND 0 and
stops (R431, R432). -/
def Obligations.TakingATrap : Prop :=
  (∀ (s : State) (c : Cause) (v : Word) (acc : BitVec 2) (wlev : BitVec 3) (long pfx : Bool), s.cc.slot ≤ 10 → s.c.ra = false →
    let t := s.trapNow { cause := c, tval := v, acc := acc, wlev := wlev } long pfx
    let r := t.ctx s.cur
    r.tcause = BitVec.ofNat 64 c.code ∧ r.tpc = BitVec.ofNat 64 (s.c.pc.toNat / 4 * 4) ∧ r.tval = v ∧
    r.tinfo = BitVec.ofNat 64 (pfx.toNat + 2 * wlev.toNat + 16 * acc.toNat + 128 * long.toNat) ∧ r.st = .parked ∧
    r.pc = s.c.pc ∧ r.x = s.c.x ∧ r.v = s.c.v ∧ r.p = s.c.p ∧ r.g = s.c.g ∧ r.instret = s.c.instret ∧ r.fpstat = s.c.fpstat ∧
    (t.core s.fnode s.fcore).pend = s.cc.pend ||| BitVec.ofNat 11 (2 ^ s.cc.slot) ∧ t.mem = s.mem ∧ t.pfx = none ∧
    (∀ id, id ≠ s.cur → t.ctx id = s.ctx id) ∧ (∀ n k, (n, k) ≠ (s.fnode, s.fcore) → t.core n k = s.core n k)) ∧
  (∀ (s : State) (c : Cause) (v : Word) (acc : BitVec 2) (long pfx : Bool), s.cc.slot = 11 → s.c.ra = false →
    let t := s.trapNow { cause := c, tval := v, acc := acc } long pfx
    (s.cc.tvec ≠ 0 → ¬(s.cc.sv = true ∧ s.cc.sslot = 11) →
      t.c.tcause = BitVec.ofNat 64 c.code ∧ t.c.tpc = BitVec.ofNat 64 (s.c.pc.toNat / 4 * 4) ∧ t.c.tval = v ∧ t.c.pc = s.cc.tvec ∧
      t.c.x = s.c.x ∧ t.cc.osv = s.cc.sv ∧ t.cc.oslot = s.cc.sslot ∧ t.cc.sv = true ∧ t.cc.sslot = 11 ∧ t.cc.slot = 11 ∧ t.mem = s.mem) ∧
    (s.cc.tvec = 0 ∨ (s.cc.sv = true ∧ s.cc.sslot = 11) →
      (t.core s.fnode s.fcore).stopped = true ∧ (t.ctx s.cur).x = s.c.x ∧ (t.ctx s.cur).pc = s.c.pc ∧ t.mem = s.mem ∧
      (s.cc.mcheck.valid = false → (t.core s.fnode s.fcore).mcheck = ⟨true, c.code, 11, 0, 0, s.c.pc, v⟩) ∧
      (s.cc.mcheck.valid = true → (t.core s.fnode s.fcore).mcheck = s.cc.mcheck ∧
        (t.core s.fnode s.fcore).overflow = s.cc.overflow + 1)))

/-- R421: TRAP raises TRAP_INSTR with TVAL X(rs1), BRK raises BREAKPOINT with TVAL its own word, in every mode.
R420: WFE, RESUME, ERET and HALT are for the system context: in a user context each raises PRIVILEGE with its word as TVAL.
R425: HALT stops slot 11 with a machine-check record of KIND 3 that holds its PC. -/
def Obligations.TrapBrkHaltAndPrivilege : Prop :=
  (∀ (s : State) (a : Reg), Traps (.trap a) s .trapInstr (s.X a) 0 ∧ Traps .brk s .breakpoint 0x02000078 0) ∧
  (∀ (s : State) (d m : Reg), s.sys = false → ∀ i ∈ [Instr.wfe d m, .resume d m, .eret, .halt],
    Traps i s .privilege (BitVec.ofNat 64 (encodeFirst i)) 0) ∧
  (∀ (s : State), s.sys = true → Completes .halt s (fun t => (t.core s.fnode s.fcore).stopped = true ∧ t.mem = s.mem ∧
    (s.cc.mcheck.valid = false → (t.core s.fnode s.fcore).mcheck = ⟨true, 0, 11, 3, 0, s.c.pc, 0⟩) ∧ (t.ctx s.cur).x = s.c.x))

/-- R424: ERET of the system context inside its own trap goes to its TPC and restores SLOT and SV from OSLOT and OSV; anywhere else it is
illegal.
R423: RESUME of a selected PARKED slot with mode 0 lets it go on at its TPC, READY, its registers as they are, clears SV and writes 0;
with no slot selected, or one that is not PARKED, X(rd) is 1 and nothing changes; a mode of 2 or more is illegal. -/
def Obligations.EretAndResumeReturn : Prop :=
  (∀ (s : State), s.sys = true →
    (s.cc.sv = true → s.cc.sslot = 11 → Completes .eret s (fun t =>
      t.c.pc = s.c.tpc ∧ t.cc.sslot = s.cc.oslot ∧ t.cc.sv = s.cc.osv ∧ t.cc.osv = false ∧ t.c.x = s.c.x ∧ t.mem = s.mem)) ∧
    (¬(s.cc.sv = true ∧ s.cc.sslot = 11) → Traps .eret s .illegalInstr 0x00800078 0)) ∧
  (∀ (s : State) (d m : Reg), s.sys = true →
    let id : CtxId := { s.cur with slot := s.cc.sslot.toNat }
    (s.X m = 0 → s.cc.sv = true → s.cc.sslot.toNat ≤ 10 → (s.ctx id).st = .parked →
      Completes (.resume d m) s (fun t => (t.ctx id).st = .ready ∧ (t.ctx id).pc = (s.ctx id).tpc ∧ (t.ctx id).x = (s.ctx id).x ∧
        t.cc.sv = false ∧ XIs s t d 0 ∧ t.mem = s.mem)) ∧
    ((s.X m).toNat < 2 → (s.cc.sv = false ∨ s.cc.sslot = 11 ∨ (s.ctx id).st ≠ .parked) → Completes (.resume d m) s (ResultX d 1 s)) ∧
    (2 ≤ (s.X m).toNat → Traps (.resume d m) s .illegalInstr (BitVec.ofNat 64 (encodeFirst (.resume d m))) 0))

/-- R422: WFE inside the system context's own trap is illegal. Else a selected slot that is still PARKED has its PEND bit set again; with a PEND
bit set WFE selects the first slot in rotating order after the last selected: its bit is cleared, SLOT and SV say it, X(rd) is TSLOT after the change; with
none, and a time-out passed of X(rs1) ≠ 0, SV is cleared and X(rd) is TSLOT; else it waits. -/
def Obligations.WfeSelectsThePendingSlot : Prop :=
  ∀ (s : State) (d a : Reg), s.sys = true →
    (s.cc.sv = true → s.cc.sslot = 11 → Traps (.wfe d a) s .illegalInstr (BitVec.ofNat 64 (encodeFirst (.wfe d a))) 0) ∧
    (¬(s.cc.sv = true ∧ s.cc.sslot = 11) →
      let pend := if s.cc.sv = true ∧ (s.ctx { s.cur with slot := s.cc.sslot.toNat }).st = .parked then
          s.cc.pend ||| BitVec.ofNat 11 (2 ^ s.cc.sslot.toNat) else s.cc.pend
      let at' := fun i => (s.cc.lastSel + 1 + i) % 12
      (∀ i, i < 12 → pend.getLsbD (at' i) = true → (∀ k, k < i → pend.getLsbD (at' k) = false) → Completes (.wfe d a) s (fun t =>
        t.cc.sslot = BitVec.ofNat 4 (at' i) ∧ t.cc.sv = true ∧ t.cc.lastSel = at' i ∧
        t.cc.pend = pend &&& ~~~(BitVec.ofNat 11 (2 ^ at' i)) ∧ XIs s t d t.cc.tslotW ∧ t.mem = s.mem)) ∧
      (pend = 0 → s.c.expired = true → s.X a ≠ 0 → Completes (.wfe d a) s (fun t =>
        t.cc.sv = false ∧ t.cc.pend = 0 ∧ XIs s t d t.cc.tslotW ∧ t.mem = s.mem)) ∧
      (pend = 0 → (s.c.expired = false ∨ s.X a = 0) → Waits (.wfe d a) s .wfe))

/-! ## Contexts -/

/-- R372: START and STARTP of the control context, with its item's limit not reached and slot j FREE, begin a life in slot j: PC X(rs1), x1 X(rs2), every
other register 0, address space, RMODE and window scales copied, the run-ahead mark for STARTP; X(rd) is the handle; here no mailbox of the core waits
for a handler to start, which would have a free slot first (R383). With no slot to give X(rd) is
0x8000_0000_0000_0001; a target that is no multiple of 4 is MISALIGNED; outside slot 0 both are illegal.
R373: QUIT of a helper with nothing outstanding frees its slot: last end QUIT, the generation one more, no loop, every port unbound;
of the control context without live helpers it ends the item too; with near-memory operations or engine commands outstanding it waits;
in the system context it is illegal. -/
def Obligations.LivesBeginAndEnd : Prop :=
  (∀ (s : State) (d a b : Reg) (it : Item) (j : Nat), ∀ e ∈ [(Instr.start d a b, false), (Instr.startp d a b, true)],
    ((∀ m ∈ s.pol.mboxes, m.2.owner.core = s.fcore → m.2.wants = false) →
      s.cc.slot = 0 → (s.X a).toNat % 4 = 0 → s.cc.item = some it → (s.liveHelpers s.fnode s.fcore).length < it.helpers →
      s.freeSlot s.fnode s.fcore = some j → Completes e.1 s (fun t =>
        let n := t.ctx { s.cur with slot := j }
        n.pc = s.X a ∧ (∀ r : Reg, n.xr r = if r = 1 then s.X b else 0) ∧ n.v = Vector.replicate 32 0 ∧ n.p = Vector.replicate 8 0 ∧
        n.g = Vector.replicate 32 0 ∧ n.asid = s.c.asid ∧ n.ptroot = s.c.ptroot ∧ n.rmode = s.c.rmode ∧ n.wscale6 = s.c.wscale6 ∧
        n.wscale7 = s.c.wscale7 ∧ n.fpstat = 0 ∧ n.instret = 0 ∧ n.loopActive = false ∧ n.st = .ready ∧ n.ra = e.2 ∧
        n.gen = (s.ctx { s.cur with slot := j }).gen ∧ XIs s t d (BitVec.ofNat 64 (n.gen.toNat * 16 + j)) ∧ t.mem = s.mem)) ∧
    ((∀ m ∈ s.pol.mboxes, m.2.owner.core = s.fcore → m.2.wants = false) →
      s.cc.slot = 0 → (s.X a).toNat % 4 = 0 → s.cc.item = some it → it.helpers ≤ (s.liveHelpers s.fnode s.fcore).length →
      Completes e.1 s (ResultX d 0x8000000000000001 s)) ∧
    (s.cc.slot = 0 → (s.X a).toNat % 4 ≠ 0 → Traps e.1 s .misaligned (s.X a) 0) ∧
    (s.cc.slot ≠ 0 → Traps e.1 s .illegalInstr (BitVec.ofNat 64 (encodeFirst e.1)) 0)) ∧
  (∀ (s : State),
    (s.cc.slot ≤ 10 → s.c.nmPending = 0 → s.openCmds s.cur = false → (s.cc.slot = 0 → s.liveHelpers s.fnode s.fcore = []) →
      Completes .quit s (fun t => (t.ctx s.cur).st = .free ∧ (t.ctx s.cur).lastEnd = .quit ∧ (t.ctx s.cur).gen = s.c.gen + 1 ∧
        (t.ctx s.cur).loopActive = false ∧ (∀ i : Fin 8, (t.ctx s.cur).ports[i].bound = false) ∧
        (s.cc.slot = 0 → (t.core s.fnode s.fcore).item = none))) ∧
    (s.cc.slot ≤ 10 → s.c.nmPending ≠ 0 ∨ s.openCmds s.cur = true → Waits .quit s .quit) ∧
    (s.cc.slot = 11 → Traps .quit s .illegalInstr 0x010000AC 0))

/-- R375: CTXID is the handle of the context's mailbox 0, HSTAT reads a helper's state, of the live life or the last one, and [61:60] = 3 alone of a stale handle, WID the item's identifier, WIDF its field, 0 at and beyond NF; YIELD retires
and leaves the slot READY.
R375: JOINH of a life that has ended gives how it ended (QUIT 0, TERMINATED 1), of a live one it waits, of a handle that names no slot 1 to
10, or an older life, it gives 2. -/
def Obligations.ContextQueriesAndJoinh : Prop :=
  (∀ (s : State) (d h n : Reg),
    Completes (.ctxid d) s (ResultX d (BitVec.ofNat 64 (s.fnode * 2 ^ 52 + s.fcore / 256 * 2 ^ 49 + s.fcore / 8 % 32 * 2 ^ 44 +
      s.fcore % 8 * 2 ^ 41 + s.cc.slot * 2 ^ 37 + s.c.gen.toNat * 2 ^ 25)) s) ∧
    Completes (.wid d) s (ResultX d (if s.cc.slot = 11 then 0 else s.cc.item.elim 0 (fun it => it.wid)) s) ∧
    (∀ it l, n.toNat ≤ 5 → s.cc.item = some it → s.launch? s.fnode it.launch = some l →
      Completes (.widf d n) s (ResultX d (BitVec.ofNat 64 (widField l.widths (if s.cc.slot = 11 then 0 else it.wid) n.toNat)) s)) ∧
    (∀ j g, 1 ≤ j → j ≤ 10 → g < 4096 → (s.X h).toNat = g * 16 + j →
      let c := s.ctx { s.cur with slot := j }
      let live := g = c.gen.toNat ∧ c.st ≠ .free ∧ c.st ≠ .saved
      (live ∨ (g + 1) % 4096 = c.gen.toNat → Completes (.hstat d h) s (ResultX d (BitVec.ofNat 64 ((if live then 2 ^ 63 else 0) + c.ra.toNat * 2 ^ 62 +
        (match c.lastEnd with | .quit => 0 | .terminated => 2 ^ 60 | .none => 3 * 2 ^ 60) + c.st.code * 2 ^ 57 + c.gen.toNat * 2 ^ 36)) s)) ∧
      (¬live → (g + 1) % 4096 ≠ c.gen.toNat → Completes (.hstat d h) s (ResultX d (BitVec.ofNat 64 (3 * 2 ^ 60)) s))) ∧
    Completes .yield s (fun t => (t.ctx s.cur).st = .ready ∧ (t.ctx s.cur).x = s.c.x ∧ (t.ctx s.cur).instret = s.c.instret + 1 ∧
      t.mem = s.mem ∧ t.idle = false)) ∧
  (∀ (s : State) (d h : Reg) (j g : Nat), s.c.ra = false → 1 ≤ j → j ≤ 10 → g < 4096 → (s.X h).toNat = g * 16 + j →
    let c := s.ctx { s.cur with slot := j }
    ((g + 1) % 4096 = c.gen.toNat → Completes (.joinh d h) s (ResultX d (BitVec.ofNat 64 c.lastEnd.status) s)) ∧
    (g = c.gen.toNat → c.st ≠ .free → c.st ≠ .saved → Waits (.joinh d h) s .join) ∧
    (g ≠ c.gen.toNat → (g + 1) % 4096 ≠ c.gen.toNat → Completes (.joinh d h) s (ResultX d 2 s)))

/-! ## Geometry registers, byte barriers, phasers -/

/-- R204: GW, GR and GCLR. -/
def Obligations.GeometryRegistersReadBack : Prop :=
  ∀ (s : State) (d a : Reg),
    Completes (.gw d a) s (fun t => Leaves (s.setC (s.c.setG d (s.X a))) t ∧ t.c.gr d = s.X a ∧ ∀ r, r ≠ d → t.c.gr r = s.c.gr r) ∧
    Completes (.gr d a) s (ResultX d (s.c.gr a) s) ∧
    Completes .gclr s (fun t => (∀ r, t.c.gr r = 0) ∧ Leaves (s.setC { s.c with g := Vector.replicate 32 0 }) t)

/-- R217: an operand with a nonzero upper half, off M-space or with a byte past its 4 MiB raises ILLEGAL_ADDRESS, one off a multiple of 16
MISALIGNED, each with the operand as TVAL; a run-ahead helper drops the four instructions and writes no register.
R218, R220: BBINIT clears the barrier's 16 bytes and no other; of a barrier whose word is not lost, BBEXP adds n below 2^31 to COUNT and arms the
barrier, or flips PHASE and disarms it when COUNT becomes 0, or sets FAULT and leaves COUNT when n is larger or the sum leaves 32 bits; BBTEST reads
COUNT and the low seven bits of word 1, FAULT set or not; of a lost word it raises DATA_LOST (R185).
R215: of a barrier whose word is not lost, the piece that brings an armed barrier's COUNT to 0 flips PHASE and disarms it; one that does not leaves both; SCOPE rises to the
piece's.
R219: BBWAIT of a barrier in the phase it names completes with its registers as they are; of one with FAULT set it raises
ENGINE_FAULT with the operand as TVAL; of any other it waits; of one whose word is lost it raises DATA_LOST (R185). -/
def Obligations.ByteBarriers : Prop :=
  (∀ (s : State) (d a n : Reg) (ph : Bool) (la : Nat), (s.X a).toNat = la →
    (s.c.ra = true → ∀ i ∈ [Instr.bbinit a, .bbexp a n, .bbwait a ph, .bbtest d a], Completes i s (Leaves s)) ∧
    (s.c.ra = false → (la / 2 ^ 29 ≠ 2 ∨ 4 * 2 ^ 20 < la % 2 ^ 29 + 16) → ∀ i ∈ [Instr.bbinit a, .bbexp a n, .bbwait a ph, .bbtest d a],
      Traps i s .illegalAddress (s.X a) 0) ∧
    (s.c.ra = false → la / 2 ^ 29 = 2 → la % 2 ^ 29 + 16 ≤ 4 * 2 ^ 20 → la % 16 ≠ 0 →
      ∀ i ∈ [Instr.bbinit a, .bbexp a n, .bbwait a ph, .bbtest d a], Traps i s .misaligned (s.X a) 0) ∧
    (s.c.ra = false → Memory.wf s.mem = true → la / 2 ^ 29 = 2 → la % 2 ^ 29 + 16 ≤ 4 * 2 ^ 20 → la % 16 = 0 →
    let A := spadAddr s.fnode (s.fcore / 8) la
    let count := signedN (memRead s.mem A 4) 32
    let w := memRead s.mem (A + 4) 4
    Completes (.bbinit a) s (fun t => t.c.x = s.c.x ∧ ∀ i, memGet t.mem i = if A ≤ i ∧ i < A + 16 then 0 else memGet s.mem i) ∧
    (s.barLost s.fnode (s.fcore / 8) la = false → Completes (.bbexp a n) s (fun t => t.c.x = s.c.x ∧ (∀ i, i < A ∨ A + 8 ≤ i → memGet t.mem i = memGet s.mem i) ∧
      ((s.X n).toNat < 2 ^ 31 → count + (s.X n).toNat ≤ 2 ^ 31 - 1 → count + (s.X n).toNat ≠ 0 →
        signedN (memRead t.mem A 4) 32 = count + (s.X n).toNat ∧ memRead t.mem (A + 4) 4 = w ||| 4) ∧
      ((s.X n).toNat < 2 ^ 31 → count + (s.X n).toNat = 0 → memRead t.mem A 4 = 0 ∧
        (let w' := memRead t.mem (A + 4) 4; w' % 2 = 1 - w % 2 ∧ w' / 2 % 2 = w / 2 % 2 ∧ w' / 4 % 2 = 0 ∧ w' / 8 = w / 8)) ∧
      (2 ^ 31 ≤ (s.X n).toNat ∨ 2 ^ 31 - 1 < count + (s.X n).toNat →
        signedN (memRead t.mem A 4) 32 = count ∧ memRead t.mem (A + 4) 4 = w ||| 2))) ∧
    (s.barLost s.fnode (s.fcore / 8) la = false →
      Completes (.bbtest d a) s (ResultX d (BitVec.ofNat 64 (memRead s.mem A 4 * 2 ^ 32 + w % 128)) s)) ∧
    (s.barLost s.fnode (s.fcore / 8) la = true → Traps (.bbtest d a) s .dataLost (s.X a) 0))) ∧
  (∀ (s : State) (node p la n sc : Nat), Memory.wf s.mem = true → sc < 8 → n < 2 ^ 31 →
    let A := spadAddr node p la
    let count := signedN (memRead s.mem A 4) 32
    let w := memRead s.mem (spadAddr node p (la + 4)) 4
    let t := s.barPiece node p la n sc;
    s.barLost node p la = false → (-(2 ^ 31) ≤ count - n) →
    signedN (memRead t.mem A 4) 32 = count - n ∧
    (let w' := memRead t.mem (A + 4) 4
     w' / 128 = w / 128 ∧ w' % 16 / 8 = w % 16 / 8 ∧ w' / 2 % 2 = w / 2 % 2 ∧ w' / 16 % 8 = max (w / 16 % 8) sc ∧
     (w / 4 % 2 = 1 → count = n → w' % 2 = 1 - w % 2 ∧ w' / 4 % 2 = 0) ∧
     (w / 4 % 2 = 0 ∨ count ≠ n → w' % 2 = w % 2 ∧ w' / 4 % 2 = w / 4 % 2))) ∧
  (∀ (s : State) (a : Reg) (ph : Bool) (la : Nat), s.c.ra = false → s.c.bb = none → (s.X a).toNat = la → la / 2 ^ 29 = 2 →
    la % 2 ^ 29 + 16 ≤ 4 * 2 ^ 20 → la % 16 = 0 →
    let w := memRead s.mem (spadAddr s.fnode (s.fcore / 8) (la + 4)) 4
    let lost := s.barLost s.fnode (s.fcore / 8) la
    (lost = false → w / 2 % 2 = 0 → w % 2 = ph.toNat →
      Completes (.bbwait a ph) s (fun t => t.c.x = s.c.x ∧ t.c.v = s.c.v ∧ t.mem = s.mem)) ∧
    (lost = false → w / 2 % 2 = 1 → Traps (.bbwait a ph) s .engineFault (s.X a) 0) ∧
    (lost = false → w / 2 % 2 = 0 → w % 2 ≠ ph.toNat → Waits (.bbwait a ph) s .bbwait) ∧
    (lost = true → Traps (.bbwait a ph) s .dataLost (s.X a) 0))

/-- R376 to R379: PHNEW of a mode 0 to 2 in a context of an item with a reservation left takes the lowest phaser of the polder that is not live, in
phase 0, of the context's ASID, with the context its one member, lowers the reservation and returns the handle; PHREG joins a live phaser of the context's
die at its open phase and returns it. Each of the other cases completes with its status alone: of PHNEW a mode above 2 WRONGMODE (3), no phaser, reservation or
registration left, or the system context, FULL (4); of PHREG a handle that names none STALE (1), another die FARDIE (5), WRONGMODE, a member
already ALREADY (6), FULL. A run-ahead helper drops both. Which phaser is taken is the model's choice, and so is the order of the statuses (log entry 48). -/
def Obligations.PhnewAndPhregRegister : Prop :=
  ∀ (s : State) (d h m : Reg),
    (s.c.ra = true → ∀ i ∈ [Instr.phnew d m, .phreg d h m], Completes i s (Leaves s)) ∧
    (s.c.ra = false →
      (2 < (s.X m).toNat → Completes (.phnew d m) s (ResultX d 3 s)) ∧
      ((s.X m).toNat ≤ 2 → (s.cc.slot = 11 ∨ s.cc.item = none ∨ (∃ it, s.cc.item = some it ∧ it.phLeft = 0) ∨
        1024 ≤ s.pol.registrations ∨ (∀ k, k < 64 → (s.pol.phaser k).live = true)) → Completes (.phnew d m) s (ResultX d 4 s)) ∧
      (∀ it k, (s.X m).toNat ≤ 2 → s.cc.slot ≠ 11 → s.cc.item = some it → it.phLeft ≠ 0 → s.pol.registrations < 1024 → k < 64 →
        (s.pol.phaser k).live = false → (∀ j, j < k → (s.pol.phaser j).live = true) →
        let f := s.pol.phaser k
        let g := { f with live := true, asid := s.c.asid, item := (s.fcore, it.launch, it.wid), phase := 0,
                          members := [⟨s.cur, (s.X m).toNat, 0, 0, false⟩] }
        Completes (.phnew d m) s (Leaves (((s.setPhaser s.fnode (s.fcore / 8) k g).setCC
          { s.cc with item := some { it with phLeft := it.phLeft - 1 } }).setX d
            (BitVec.ofNat 64 (s.fcore / 8 * 2 ^ 40 + k * 2 ^ 34 + f.gen % 4096 * 2 ^ 22))))) ∧
      ((∀ p k f, ¬NamesPhaser s (s.X h) p k f) → Completes (.phreg d h m) s (ResultX d 1 s)) ∧
      (∀ p k f, NamesPhaser s (s.X h) p k f →
        (p / 32 ≠ s.fcore / 256 → Completes (.phreg d h m) s (ResultX d 5 s)) ∧
        (p / 32 = s.fcore / 256 → 2 < (s.X m).toNat → Completes (.phreg d h m) s (ResultX d 3 s)) ∧
        (p / 32 = s.fcore / 256 → (s.X m).toNat ≤ 2 → f.member s.cur ≠ none → Completes (.phreg d h m) s (ResultX d 6 s)) ∧
        (p / 32 = s.fcore / 256 → (s.X m).toNat ≤ 2 → f.member s.cur = none → 1024 ≤ (s.polder s.fnode p).registrations →
          Completes (.phreg d h m) s (ResultX d 4 s)) ∧
        (p / 32 = s.fcore / 256 → (s.X m).toNat ≤ 2 → f.member s.cur = none → (s.polder s.fnode p).registrations < 1024 →
          Completes (.phreg d h m) s (Leaves ((s.setPhaser s.fnode p k
            { f with members := f.members ++ [⟨s.cur, (s.X m).toNat, f.phase, f.phase, false⟩] }).setX d
              (BitVec.ofNat 64 (f.phase % 2 ^ 32 * 2 ^ 32)))))))

/-- R379: a member's PHSIG raises its signal count, and the phaser advances when every signalling member has signalled; it waits while the phase that it would
signal is not open, or a port has a store of the context to apply (R380). PHWAIT of a phase that has passed raises the wait count, drops the core's
untracked copies and returns the phase; of the open phase it waits. PHSW signals once and then waits for its phase: with the mark of a pending wait it
does not signal again. PHDROP leaves: the last signaller of the open phase lets it advance, the last member frees the phaser with a new generation. PHQ
reads phase, signalling members, and those that have signalled. A handle that names no live phaser gives STALE (1), a context that is no member NOTMEMBER
(2), a mode without that right WRONGMODE (3), and nothing else happens; a run-ahead helper drops all five. -/
def Obligations.PhaserMembersSignalAndWait : Prop :=
  ∀ (s : State) (d h : Reg),
    (s.c.ra = true → ∀ i ∈ [Instr.phsig d h, .phwait d h, .phsw d h, .phdrop d h, .phq d h], Completes i s (Leaves s)) ∧
    (s.c.ra = false → (∀ p k f, ¬NamesPhaser s (s.X h) p k f) → ∀ i ∈ [Instr.phsig d h, .phwait d h, .phsw d h, .phdrop d h, .phq d h],
      Completes i s (ResultX d 1 s)) ∧
    (∀ p k f, s.c.ra = false → NamesPhaser s (s.X h) p k f →
      let signals := fun (x : PhMember) => decide (x.mode = 0 ∨ x.mode = 2)
      let at' := fun (n : Nat) => BitVec.ofNat 64 (n % 2 ^ 32 * 2 ^ 32)
      Completes (.phq d h) s (ResultX d (BitVec.ofNat 64 (f.phase % 2 ^ 32 * 2 ^ 32 + (f.members.filter signals).length * 2 ^ 20 +
        (f.members.filter (fun x => signals x && decide (f.phase < x.s))).length * 2 ^ 8)) s) ∧
      (f.member s.cur = none → ∀ i ∈ [Instr.phsig d h, .phwait d h, .phsw d h, .phdrop d h], Completes i s (ResultX d 2 s)) ∧
      (∀ m, f.member s.cur = some m →
        let put := fun (x : PhMember) => { f with members := f.members.map (fun y => if y.id = s.cur then x else y) }
        let settled := fun (g : Phaser) => if g.members.all (fun x => !signals x || decide (f.phase < x.s)) then { g with phase := f.phase + 1 } else g
        let ready := m.s ≤ f.phase ∧ s.portStores s.cur = false
        (m.mode = 1 → Completes (.phsig d h) s (ResultX d 3 s)) ∧
        (m.mode ≠ 1 → ready → Completes (.phsig d h) s (Leaves ((s.setPhaser s.fnode p k (settled (put { m with s := m.s + 1 }))).setX d (at' m.s)))) ∧
        (m.mode ≠ 1 → ¬ready → Waits (.phsig d h) s .phaser) ∧
        (m.mode = 0 → Completes (.phwait d h) s (ResultX d 3 s)) ∧
        (m.mode ≠ 0 → m.w < f.phase →
          Completes (.phwait d h) s (Leaves ((s.setPhaser s.fnode p k (put { m with w := m.w + 1 })).acquire.setX d (at' m.w)))) ∧
        (m.mode ≠ 0 → f.phase ≤ m.w → Waits (.phwait d h) s .phaser) ∧
        (m.mode ≠ 2 → Completes (.phsw d h) s (ResultX d 3 s)) ∧
        (m.mode = 2 → m.mark = false → ¬ready → Waits (.phsw d h) s .phaser) ∧
        (m.mode = 2 → m.mark = false → ready →
          let g := settled (put { m with s := m.s + 1, mark := true })
          (m.w < g.phase → Completes (.phsw d h) s (Leaves ((s.setPhaser s.fnode p k
            (g.setMember { m with s := m.s + 1, w := m.w + 1, mark := false })).acquire.setX d (at' m.w)))) ∧
          (g.phase ≤ m.w → Waits (.phsw d h) s .phaser ∧ Completes (.phsw d h) s (fun t => (t.polder s.fnode p).phaser k = g))) ∧
        (m.mode = 2 → m.mark = true → m.w < f.phase → Completes (.phsw d h) s (Leaves ((s.setPhaser s.fnode p k
          (put { m with w := m.w + 1, mark := false })).acquire.setX d (at' m.w)))) ∧
        (m.mode = 2 → m.mark = true → f.phase ≤ m.w → Waits (.phsw d h) s .phaser) ∧
        Completes (.phdrop d h) s (fun t => Leaves ((s.phDrop s.fnode p k m).setX d (at' f.phase)) t ∧
          (let g := (t.polder s.fnode p).phaser k
           g.members = f.members.filter (fun x => x.id != s.cur) ∧ g.live = !g.members.isEmpty ∧
           g.gen = (if g.members.isEmpty then (f.gen + 1) % 4096 else f.gen) ∧
           g.phase = if signals m && decide (m.s ≤ f.phase) && (g.members.all (fun x => !signals x || decide (f.phase < x.s))) then f.phase + 1
             else f.phase))))
/-! ## Memory instructions -/

/-- R126, R127: a load whose bytes are readable, aligned and at hand writes them, sign-extended by LB, LH and LW and the like forms of LDL,
zero-extended by the others; a store whose place can be written leaves the store's effect, of the low bytes of its register; the address is X(rs1) plus
the offset times the width, and LDL's and STL's plus the payload. An access that traps takes its trap, with no other effect. -/
def Obligations.ScalarLoadsAndStoresComplete : Prop :=
  ∀ (s : State) (d a : Reg) (o : BitVec 9) (t : BitVec 2) (f : BitVec 3) (m : BitVec 32), s.c.ra = false →
    (∀ e ∈ [(Instr.lb d a o t, 1, true, s.X a + BitVec.ofInt 64 o.toInt), (.lbu d a o t, 1, false, s.X a + BitVec.ofInt 64 o.toInt),
        (.lh d a o t, 2, true, s.X a + BitVec.ofInt 64 (o.toInt * 2)), (.lhu d a o t, 2, false, s.X a + BitVec.ofInt 64 (o.toInt * 2)),
        (.lw d a o t, 4, true, s.X a + BitVec.ofInt 64 (o.toInt * 4)), (.lwu d a o t, 4, false, s.X a + BitVec.ofInt 64 (o.toInt * 4)),
        (.ld d a o t, 8, false, s.X a + BitVec.ofInt 64 (o.toInt * 8)),
        (.ldl d a f t m, loadWidth f.toNat, decide (f.toNat = 0 ∨ f.toNat = 2 ∨ f.toNat = 4), s.X a + BitVec.ofInt 64 m.toInt)],
      (∀ u v, s.scalarLoad s.req e.2.2.2.toNat e.2.1 t.toNat = .ok (u, v) → Completes e.1 s (Leaves
        (u.setX d (if e.2.2.1 then BitVec.ofInt 64 (Int.bmod v (2 ^ (8 * e.2.1))) else BitVec.ofNat 64 v)))) ∧
      (∀ x, s.scalarLoad s.req e.2.2.2.toNat e.2.1 t.toNat = .error (.trap x) → exec e.1 s = .next (s.trapNow x (isLong e.1) s.pfx.isSome))) ∧
    (∀ e ∈ [(Instr.sb d a o t, 1, s.X a + BitVec.ofInt 64 o.toInt), (.sh d a o t, 2, s.X a + BitVec.ofInt 64 (o.toInt * 2)),
        (.sw d a o t, 4, s.X a + BitVec.ofInt 64 (o.toInt * 4)), (.sd d a o t, 8, s.X a + BitVec.ofInt 64 (o.toInt * 8)),
        (.stl d a f t m, storeWidth f.toNat, s.X a + BitVec.ofInt 64 m.toInt)],
      (∀ u, s.scalarStore s.req e.2.2.toNat e.2.1 ((s.X d).toNat % 2 ^ (8 * e.2.1)) t.toNat = .ok u → Completes e.1 s (Leaves u)) ∧
      (∀ x, s.scalarStore s.req e.2.2.toNat e.2.1 ((s.X d).toNat % 2 ^ (8 * e.2.1)) t.toNat = .error (.trap x) →
        exec e.1 s = .next (s.trapNow x (isLong e.1) s.pfx.isSome)))

/-- R98, R183, R184, R191: a scalar access of 1, 2, 4 or 8 bytes, aligned, through the issuing polder's aperture, inside a space that
the unit may access, with no scoreboard entry or lost word in the way, reads and writes exactly the bytes of that space, the least
significant first; W-space takes no scalar store. Through HBM, where the slice holds the page's leaf with its bits set, the core and the slice
hold no copy of the line, no coherence object covers it, a miss is free, and the home serves the line, it reads and writes exactly the bytes at
the frame plus the offset. -/
def Obligations.ScalarAccessesReachTheirBytes : Prop :=
  ∀ (s : State) (n v : Nat), Memory.wf s.mem = true → n = 1 ∨ n = 2 ∨ n = 4 ∨ n = 8 →
    (∀ sp off typ, sp ≤ 3 → off + n ≤ spaceSize sp → off % n = 0 →
      let la := sp * 2 ^ 29 + off; let va := 0xFEFF * 2 ^ 40 + la; let A := spadAddr s.fnode (s.fcore / 8) la
      s.portBusy s.fnode (s.fcore / 8) la n = false →
      (s.lostWordIn A n = false → s.scalarLoad s.req va n typ = .ok (s, memRead s.mem A n)) ∧
      (sp ≠ 3 → s.storeTests s.req va n 1 = .ok () → ∃ u, s.scalarStore s.req va n v typ = .ok u ∧ u.c.x = s.c.x ∧
        memRead u.mem A n = v % 256 ^ n ∧ ∀ i, i < A ∨ A + n ≤ i → memGet u.mem i = memGet s.mem i) ∧
      (sp = 3 → ∃ x, s.scalarStore s.req va n v typ = .error (.trap x) ∧ x.cause = .illegalAddress ∧ x.tval = BitVec.ofNat 64 va)) ∧
    (∀ va l, isAperture va = false → isCanonical va = true → va % n = 0 → SliceHolds s va l →
      (s.cc.slot = 11 ∨ pteU l.entry = true) → pteA l.entry = true → pteClass l.entry = 0 → paClass (l.pa va) = 0 →
      s.cc.l1 = [] → s.missCount s.fnode s.fcore < 64 → s.objAt s.req (fieldN va 6 50) = none → s.sliceLine s.fnode s.cur.die s.c.asid (fieldN va 6 50) = none →
      (pteR l.entry = true → s.hbmCheck s.req va (l.pa va) 0 = .ok () → s.isLost (l.pa va) = false →
        ∃ u, s.scalarLoad s.req va n reqOwn = .ok (u, memRead s.mem (l.pa va) n) ∧ u.mem = s.mem ∧ u.c = { s.c with surveyed := u.c.surveyed }) ∧
      (pteW l.entry = true → pteD l.entry = true → s.hbmCheck s.req va (l.pa va) 1 = .ok () → s.storeTests s.req va n 1 = .ok () →
        ∃ u, s.scalarStore s.req va n v reqOwn = .ok u ∧ u.c.x = s.c.x ∧ memRead u.mem (l.pa va) n = v % 256 ^ n ∧
          ∀ i, i < l.pa va ∨ l.pa va + n ≤ i → memGet u.mem i = memGet s.mem i))

/-- R129 to R132: an atomic reads its location, writes the new value its operation gives as one event, and gives the old value
sign-extended, AMOFADD, AMOFMIN and AMOFMAX zero-extended, unless NR; in HBM no byte but the location's changes, past what its translation wrote. -/
def Obligations.AtomicsReadModifyWrite : Prop :=
  ∀ (s s1 s2 : State) (d a b : Reg) (w nr : Bool) (p : BitVec 2) (x : Xlated), s.c.ra = false →
    let va := (s.X a).toNat; let n := if w then 8 else 4
    isAperture va = false → isCanonical va = true → va % n = 0 →
    s.atomicPlace s.req va = .ok (s1, x) → paClass x.pa = 0 → s1.storeTests s.req va n 2 = .ok () → s1.atomicReady s.req va x = .ok s2 →
    s2.missCount s.fnode s.fcore < 64 →
    let old := memRead s2.mem x.pa n; let y := (s.X b).toNat % 2 ^ (8 * n); let M := 2 ^ (8 * n)
    (∀ e ∈ [(Instr.amoadd d a b w p nr, nr, (old + y) % M), (.amoand d a b w p nr, nr, old &&& y), (.amoor d a b w p nr, nr, old ||| y),
        (.amoxor d a b w p nr, nr, old ^^^ y), (.amoswap d a b w p nr, nr, y), (.amominu d a b w p nr, nr, min old y),
        (.amomaxu d a b w p nr, nr, max old y),
        (.amomin d a b w p nr, nr, if (y : Int).bmod M < (old : Int).bmod M then y else old),
        (.amomax d a b w p nr, nr, if (old : Int).bmod M < (y : Int).bmod M then y else old),
        (.amocas d a b w p, false, if old = (s.X d).toNat % M then y else old)],
      Completes e.1 s (fun t => t.mem = memWrite s2.mem x.pa n e.2.2 ∧ t.c.fpstat = s.c.fpstat ∧ (e.2.1 = true → t.c.x = s.c.x) ∧
        (e.2.1 = false → XIs s t d (BitVec.ofInt 64 ((old : Int).bmod M))))) ∧
    (w = false → s.pfx = none →
      Completes (.amofadd false d a b p nr) s (fun t => t.mem = memWrite s2.mem x.pa 4 ((fpAdd .fp32 Rnd.default old (s.F b)).1 % 2 ^ 32) ∧
        (nr = true → t.c.x = s.c.x ∧ t.c.fpstat = s.c.fpstat) ∧
        (nr = false → XIs s t d (BitVec.ofNat 64 old) ∧ t.c.fpstat = s.c.fpstat ||| (fpAdd .fp32 Rnd.default old (s.F b)).2)) ∧
      Completes (.amofmin d a b p nr) s (fun t => t.mem = memWrite s2.mem x.pa 4 ((fpMinMax .fp32 Rnd.default false old (s.F b)).1 % 2 ^ 32) ∧
        t.c.fpstat = s.c.fpstat ∧ (nr = false → XIs s t d (BitVec.ofNat 64 old))) ∧
      Completes (.amofmax d a b p nr) s (fun t => t.mem = memWrite s2.mem x.pa 4 ((fpMinMax .fp32 Rnd.default true old (s.F b)).1 % 2 ^ 32) ∧
        t.c.fpstat = s.c.fpstat ∧ (nr = false → XIs s t d (BitVec.ofNat 64 old))))

/-- R69 to R71: a near-memory instruction whose place passes its tests is sent to its home with its operand, and retires at once: no register
and no byte of memory changes, one operation more is outstanding; applying the first operation forwarded on a line that is not LOST replaces exactly its operand's bytes by
the operation's result (R70). -/
def Obligations.NearMemoryOperationsAreSentAndApplied : Prop :=
  ∀ (s s1 : State) (a b : Reg) (vec : Bool) (x : Xlated), s.c.ra = false → (vec = true → s.c.portOf b = none) →
    (∀ e ∈ [(Instr.nmadd a b vec, 0), (.nmfadd a b vec, 1), (.nmmax a b vec, 2), (.nmmin a b vec, 3), (.nmor a b vec, 4)],
      s.nmPlace s.req (s.X a).toNat (nmBytes e.2 vec) = .ok (s1, x) → s1.storeTests s.req (s.X a).toNat (nmBytes e.2 vec) 2 = .ok () →
      Completes e.1 s (fun t => t.mem = s1.mem ∧ t.c.x = s.c.x ∧ t.c.v = s.c.v ∧ t.c.nmPending = s.c.nmPending + 1 ∧
        t.nmOps = s1.nmOps ++ [⟨s.cur, s.c.gen, s.X a, x.pa, s.c.asid, s.c.ptroot, x.gen, e.2, vec,
          if vec then s.c.vr b else (s.X b).zeroExtend 256, .sent, none, none, false⟩])) ∧
    (∀ u : State, ∀ o : NmOp, u.nmFirst (lineOf u.ev.pa) .forwarded = some o → u.isLost o.pa = false → u.ev.flag = false →
      Completes .nearMemoryApply u (fun t =>
        t.mem = memWrite u.mem o.pa (nmBytes o.op o.vec) (nmApplyOp o.op o.vec (memRead u.mem o.pa (nmBytes o.op o.vec)) o.data.toNat) ∧
        t.ctxs = u.ctxs))

/-- R200, R201, R235 to R237: a vector load writes V(rd) and a vector store the bytes of V(rs), each with the flags of its conversion, when no port is bound to the
register and the queue has room; X registers and the other V registers stay. -/
def Obligations.VectorLoadsAndStoresComplete : Prop :=
  ∀ (s u : State) (d a i : Reg) (o : BitVec 9) (t : BitVec 2), s.c.ra = false → s.c.portOf d = none →
    (s.cc.vq.filter (fun e => !e.bound)).length < 32 →
    (∀ e ∈ [(Instr.ldv d a o t, false, s.X a + BitVec.ofInt 64 (o.toInt * 32)), (.ldvx d a i t, false, s.X a + s.X i),
        (.ldvb d a o t, true, s.X a + BitVec.ofInt 64 (o.toInt * 4))], ∀ v f,
      s.vecLoad s.req e.2.2.toNat t.toNat e.2.1 = .ok (u, v, f) → u.pol.returns.length < 64 → u.c = { s.c with surveyed := u.c.surveyed } → u.cur = s.cur →
      Completes e.1 s (fun t => t.mem = u.mem ∧ t.c.x = s.c.x ∧ t.c.vr d = v ∧ (∀ r, r ≠ d → t.c.vr r = s.c.vr r) ∧
        t.c.fpstat = s.c.fpstat ||| f ∧ t.c.ports = s.c.ports)) ∧
    (∀ e ∈ [(Instr.stv d a o t, s.X a + BitVec.ofInt 64 (o.toInt * 32)), (.stvx d a i t, s.X a + s.X i)], ∀ f,
      s.vecStore s.req e.2.toNat t.toNat (s.c.vr d) = .ok (u, f) → u.c.ra = false → u.cc.vq = s.cc.vq →
      Completes e.1 s (fun t => t.mem = u.mem ∧ t.c.x = u.c.x ∧ t.c.v = u.c.v ∧ t.c.fpstat = u.c.fpstat ||| f))

/-- R233 to R240: SBIND of a well-formed descriptor binds the port at its first element, SUNBIND unbinds it when no append is buffered, SSTAT reads bound, direction, the
available elements and those remaining; of an unbound port the last two raise STREAM_FAULT with the register's number.
R236 to R238: a source that names a bound read port is its next element, and the port moves on by one: by VMOV into a register the register
receives it, and so does STV's store. A destination that names a bound write port appends: the element is stored where STV would store it and the
register value stays. A source that names a write port or an exhausted one, and a destination that names a read port, an exhausted one, or one
whose register the instruction reads or keeps part of (VFMA, VINS, a narrowing VCVT), raise STREAM_FAULT with the register's number, and nothing changes. -/
def Obligations.StreamPortsAndTheirOperands : Prop :=
  (∀ (s u : State) (d a : Reg) (r : Reg) (base stride w2 w3 : Nat), s.c.ra = false → 24 ≤ r.toNat →
    (s.readDesc (s.X a).toNat = .ok (u, [base, stride, w2, w3]) → u.c = { s.c with surveyed := u.c.surveyed } → u.cur = s.cur → s.c.portOf r = none → w2 / 2 ^ 32 = 0 → w2 ≠ 0 → w3 < 8 →
      base < 2 ^ 64 → stride < 2 ^ 64 → base % portAlign base = 0 → stride % portAlign base = 0 →
      Completes (.sbind r a) s (fun t => t.mem = u.mem ∧ t.c.x = s.c.x ∧ t.c.v = s.c.v ∧ t.c.portOf r =
        some ⟨true, BitVec.ofNat 64 base, BitVec.ofNat 64 stride, BitVec.ofNat 2 (w3 / 2), w3 % 2 == 1, 0, w2, [], []⟩)) ∧
    (∀ p, s.c.portOf r = some p →
      (p.write = false ∨ p.buffered = [] → Completes (.sunbind r) s (fun t => t.c.portOf r = none ∧ t.c.x = s.c.x ∧ t.c.v = s.c.v ∧ t.mem = s.mem)) ∧
      (p.write = true → p.buffered ≠ [] → Waits (.sunbind r) s .stream) ∧
      Completes (.sstat d r) s (ResultX d (BitVec.ofNat 64 (2 ^ 63 + p.write.toNat * 2 ^ 62 +
        (if p.write then p.buffered.length else p.fetched.length) * 2 ^ 59 + p.remain % 2 ^ 32)) s)) ∧
    (s.c.portOf r = none → Traps (.sunbind r) s .streamFault (BitVec.ofNat 64 r.toNat) 0 ∧ Traps (.sstat d r) s .streamFault (BitVec.ofNat 64 r.toNat) 0)) ∧
  (∀ (s u : State) (d a : Reg) (p : Port) (x : Vec) (f : BitVec 5), s.pfx = none → s.c.ra = false → (s.cc.vq.filter (fun e => !e.bound)).length < 32 →
    (s.c.portOf a = some p → s.c.portOf d = none → p.write = false → p.remain ≠ 0 → p.fetched = [] →
      s.vecLoad s.req (p.va p.k) p.typ.toNat false = .ok (u, x, f) → u.c = { s.c with surveyed := u.c.surveyed } → u.cur = s.cur →
      Completes (.vmov false d a 0) s (fun t => t.mem = u.mem ∧ t.c.vr d = x ∧ (∀ r, r ≠ d → t.c.vr r = s.c.vr r) ∧ t.c.x = s.c.x ∧
        t.c.fpstat = s.c.fpstat ||| f ∧ t.c.portOf a = some { p with k := p.k + 1, remain := p.remain - 1 }) ∧
      (let v := (u.setC (u.c.setPort a { p with k := p.k + 1, remain := p.remain - 1 })).setFlags f
       ∀ (b : Reg) (o : BitVec 9) (ty : BitVec 2) (w : State) (g : BitVec 5),
        v.vecStore v.req (s.X b + BitVec.ofInt 64 (o.toInt * 32)).toNat ty.toNat x = .ok (w, g) →
        w.c = { v.c with surveyed := w.c.surveyed, poolStores := w.c.poolStores, poolLost := w.c.poolLost } → w.cur = s.cur →
        Completes (.stv a b o ty) s (fun t => t.mem = w.mem ∧ t.c.v = s.c.v ∧ t.c.x = s.c.x ∧ t.c.fpstat = s.c.fpstat ||| f ||| g ∧
          t.c.portOf a = some { p with k := p.k + 1, remain := p.remain - 1 }))) ∧
    (s.c.portOf a = none → s.c.portOf d = some p → p.write = true → p.remain ≠ 0 → p.buffered.length < 4 →
      s.vecStore { s.req with append := some (d.toNat, p.k) } (p.va p.k) p.typ.toNat (s.c.vr a) = .ok (u, f) →
      u.c = { s.c with surveyed := u.c.surveyed, poolStores := u.c.poolStores, poolLost := u.c.poolLost } → u.cur = s.cur →
      Completes (.vmov false d a 0) s (fun t => t.mem = u.mem ∧ t.c.v = s.c.v ∧ t.c.x = s.c.x ∧ t.c.fpstat = s.c.fpstat ||| f ∧
        ∃ q, t.c.portOf d = some q ∧ q.k = p.k + 1 ∧ q.remain = p.remain - 1)) ∧
    (s.c.portOf a = some p → (p.write = true ∨ p.remain = 0) → Traps (.vmov false d a 0) s .streamFault (BitVec.ofNat 64 a.toNat) 0) ∧
    (s.c.portOf a = none → s.c.portOf d = some p → (p.write = false ∨ p.remain = 0) →
      Traps (.vmov false d a 0) s .streamFault (BitVec.ofNat 64 d.toNat) 0) ∧
    (s.c.portOf a = none → s.c.portOf d = some p → p.write = true →
      Traps (.vfma false d a a 0) s .streamFault (BitVec.ofNat 64 d.toNat) 0 ∧
      (∀ i : Reg, Traps (.vins false d a i 0) s .streamFault (BitVec.ofNat 64 d.toNat) 0) ∧
      (∀ (q : Reg) (cd cs : BitVec 4) (y w : ETy) (n : Nat), vcvtTypes cd.toNat cs.toNat q.toNat false = some (y, w, n) → y.width < w.width →
        Traps (.vcvt false d a q cd cs) s .streamFault (BitVec.ofNat 64 d.toNat) 0)))

/-- R155 to R168: of a free line, within the context's limit of four, LKACQ and LKTRY take the lock, the holder recorded with the scope asked for, and
give status OK and the count held; of a held one LKTRY gives TIMEOUT and LKACQ waits in its queue, and a scope that is not the lock's, or a domain that
leaves the context out, gives SCOPE; the holder's own acquire gives DEADLOCK, a fifth lock LIMIT. The home must take the request: the line is not
NEAR-HELD, not being migrated and not lost, no request came before, and the home's tables have an entry. LKREL by the holder releases the lock with OK, and the first waiter has it at once if it is present;
by another it gives NOTHELD, after a hold-limit break BROKEN; LKSTAT reads the holder. -/
def Obligations.LineLocksAreTakenAndReleased : Prop :=
  ∀ (s u : State) (d a m : Reg) (sc : BitVec 3) (x : Xlated), s.c.ra = false → u.c = { s.c with surveyed := u.c.surveyed } → u.cur = s.cur →
    (let line := lineOf x.pa; let hold := u.held s.cur; let l := u.lock line
     s.lockPlace (s.X a).toNat accAtomic = .ok (u, x) → s.c.lockReq = none → s.c.lockReply = none → u.waitsFor s.cur = none →
     (l.holder = some s.cur → ∀ i ∈ [Instr.lkacq d a m sc, .lktry d a sc],
       Completes i s (fun t => t.locks = u.locks ∧ t.mem = u.mem ∧ XIs s t d (BitVec.ofNat 64 (hold % 16 * 16 + 4)))) ∧
     (l.holder ≠ some s.cur → 4 ≤ hold → ∀ i ∈ [Instr.lkacq d a m sc, .lktry d a sc],
       Completes i s (fun t => t.locks = u.locks ∧ t.mem = u.mem ∧ XIs s t d (BitVec.ofNat 64 (hold % 16 * 16 + 6)))) ∧
     (u.lockHeld s.cur line = false → hold < 4 →
       (tfind u.locks line = none → u.entryRoom line = true → u.isLost line = false → ∀ i ∈ [Instr.lkacq d a m sc, .lktry d a sc], Completes i s (fun t =>
         (t.lock line).holder = some s.cur ∧ (t.lock line).scope = sc.toNat ∧ t.mem = u.mem ∧ XIs s t d (BitVec.ofNat 64 ((hold + 1) * 16)))) ∧
       (∀ h, l.holder = some h → h ≠ s.cur →
         (l.scope = sc.toNat → inDomain sc.toNat l.owner s.cur = true →
           Completes (.lktry d a sc) s (fun t => t.locks = u.locks ∧ XIs s t d (BitVec.ofNat 64 (hold % 16 * 16 + 1))) ∧
           (u.waiterRoom line = true → ∃ t, exec (.lkacq d a m sc) s = .next t ∧ (t.ctx s.cur).st = .stalled ∧ (t.ctx s.cur).wait = some .lock ∧
             (t.lock line).holder = some h ∧ (t.lock line).waiters.length = l.waiters.length + 1)) ∧
         (l.scope ≠ sc.toNat ∨ inDomain l.scope l.owner s.cur = false → ∀ i ∈ [Instr.lkacq d a m sc, .lktry d a sc],
           Completes i s (fun t => t.locks = u.locks ∧ XIs s t d (BitVec.ofNat 64 (hold % 16 * 16 + 5))))))) ∧
    (let line := lineOf x.pa; let hold := u.held s.cur; let l := u.lock line
     s.lockPlace (s.X a).toNat accLockRead = .ok (u, x) →
     (l.holder = some s.cur → line ∉ s.c.holdBreaks → l.scope ≤ 4 → u.portStores s.cur = false → (∀ w ∈ l.waiters, w.id ≠ s.cur) →
       Completes (.lkrel d a sc) s (fun t => (t.lock line).holder ≠ some s.cur ∧ (l.waiters = [] → (t.lock line).holder = none) ∧
         (u.nmHolds line = false → u.isLost line = false → ∀ w r, l.waiters = w :: r → w.absent = false → (t.lock line).holder = some w.id) ∧
         t.mem = u.mem ∧ XIs s t d (BitVec.ofNat 64 (t.held s.cur % 16 * 16)))) ∧
     (l.holder ≠ some s.cur → line ∉ s.c.holdBreaks → Completes (.lkrel d a sc) s (fun t =>
       XIs s t d (BitVec.ofNat 64 (hold % 16 * 16 + 7)) ∧ t.locks = u.locks)) ∧
     (line ∈ s.c.holdBreaks → Completes (.lkrel d a sc) s (fun t =>
       XIs s t d (BitVec.ofNat 64 (hold % 16 * 16 + 3)) ∧ line ∉ t.c.holdBreaks ∧ t.locks = u.locks)) ∧
     Completes (.lkstat d a) s (fun t => XIs s t d (BitVec.ofNat 64 (l.stat s.cur)) ∧ t.locks = u.locks))

/-- R139 to R143, R72, R89, R191: a FENCE whose classes have nothing outstanding completes, every register and byte unchanged; of class NM it
waits for near-memory operations, and raises the first error one of them reported, with its VA as TVAL, once; of class ENG it waits for commands; of
class ST, but for kind acq, it waits for stores that stand at another polder's port and, at pool or sys scope, for stores that have not reached their
device. -/
def Obligations.FenceWaitsForItsClasses : Prop :=
  ∀ (s : State) (c : BitVec 3) (l : BitVec 5) (k : BitVec 2), s.c.ra = false →
    ((l.getLsbD 3 = true → s.c.nmPending = 0 ∧ s.openEnmsc s.cur = false ∧ s.c.nmErrors = []) → (l.getLsbD 2 = true → s.openCmds s.cur = false) →
      (l.getLsbD 1 = true → k ≠ 1 → s.portStores s.cur = false ∧ (5 ≤ c.toNat → s.c.poolStores = [])) →
      Completes (.fence c l k) s (fun t => t.mem = s.mem ∧ t.c.x = s.c.x ∧ t.c.v = s.c.v ∧ t.c.g = s.c.g ∧ t.locks = s.locks)) ∧
    (l.getLsbD 3 = true → s.c.nmPending ≠ 0 → Waits (.fence c l k) s .fence) ∧
    (l.getLsbD 3 = true → s.c.nmPending = 0 → s.openEnmsc s.cur = false → ∀ e r, s.c.nmErrors = e :: r →
      exec (.fence c l k) s = .next ((s.setC { s.c with nmErrors := r }).trapNow { cause := e.cause, tval := e.va, acc := 2 } false s.pfx.isSome)) ∧
    (l.getLsbD 3 = false → l.getLsbD 2 = true → s.openCmds s.cur = true → Waits (.fence c l k) s .fence) ∧
    (l.getLsbD 3 = false → l.getLsbD 2 = false → l.getLsbD 1 = true → k ≠ 1 →
      (s.portStores s.cur = true → Waits (.fence c l k) s .fence) ∧
      (s.portStores s.cur = false → 5 ≤ c.toNat → s.c.poolLost = [] →
        (∃ p ∈ s.c.poolStores, (s.pkg (paNode (lineOf p.2))).poolMask (lineOf p.2) ≠ 0) → Waits (.fence c l k) s .fence))

/-- R112 to R117, R144: XPROBE reads how the translation of its address ends and changes nothing but what its slice's caches hold; SURVEY sums the
counters of the page's leaf results, and its mode 1 clears them; SYNCI drops the instruction lines of the range in its scope; XINV and XINVAS, with no
store, near-memory operation or engine transfer in their way, drop the leaf results of the page, or of the space, in their reach; XMIG of an address
that no leaf maps gives status 1. The system forms raise PRIVILEGE in a user context. -/
def Obligations.TranslationInstructions : Prop :=
  ∀ (s : State) (d a b : Reg), s.c.ra = false →
    (let va := (s.X a).toNat
     (isAperture va = false → isCanonical va = true → ∀ w, s.lookup s.req va = w →
       (w.why ≠ .held → (∀ c, w.why ≠ .failed c) → Completes (.xprobe d a) s (fun t => Leaves ((s.fillWalk s.req va w).setX d (w.probe va)) t ∧
         t.mem = s.mem ∧ XIs s t d (w.probe va))) ∧
       (∀ c, w.why = .failed c → c ≠ .poolRegionLost → exec (.xprobe d a) s = .next (s.trapNow
         { cause := c, tval := s.X a, acc := 0, wlev := BitVec.ofNat 3 w.level } false s.pfx.isSome))) ∧
     (isAperture va = true ∨ isCanonical va = false → Completes (.xprobe d a) s (ResultX d 0 s)) ∧
     (isAperture va = false → isCanonical va = true → ∃ w, Completes (.survey d a 0) s (ResultX d w s) ∧
       (let l := fun (die : Nat) => match (s.die s.fnode die).leaf s.c.asid (granOf va) with | some x => x.counts.toList.foldl (· + ·) 0 | none => 0
        fieldW w 32 32 = (l 0 + l 1 + l 2 + l 3 + l 4 + l 5) % 2 ^ 32 ∧ (l 0 + l 1 + l 2 + l 3 + l 4 + l 5 = 0 → w = 31 * 64))) ∧
     (s.sys = true → isAperture va = false → isCanonical va = true → Completes (.survey d a 1) s (fun t => t.mem = s.mem ∧
       ∀ die l, (t.die s.fnode die).leaf s.c.asid (granOf va) = some l → l.counts = Vector.replicate 4 0)) ∧
     (∀ c : BitVec 3, c.toNat ≤ 4 ∨ c.toNat = 6 → Completes (.synci (c.zeroExtend 5) a b) s (fun t => t.mem = s.mem ∧ t.c.x = s.c.x ∧
       t.cc.icache = s.cc.icache.filter (fun l => !(l.asid == s.c.asid && l.overlaps va (s.X b).toNat)))) ∧
     (s.sys = true → s.portStores s.cur = false → s.c.poolStores = [] → s.nmOps = [] → s.pins = [] →
       (∀ e ∈ s.polders, ∀ w ∈ e.2.portQ, w.xl = none) → ∀ c : Reg, c = 3 ∨ c = 4 ∨ c = 6 →
       Completes (.xinv c a) s (fun t => t.mem = s.mem ∧ t.c.x = s.c.x ∧ (t.die s.fnode (s.fcore / 256)).leaf s.c.asid (granOf va) = none) ∧
       (va < 2 ^ 17 → Completes (.xinvas c a) s (fun t => t.mem = s.mem ∧ t.c.x = s.c.x ∧
         ∀ g, (t.die s.fnode (s.fcore / 256)).leaf ((s.X a).setWidth 16) g = none))) ∧
     (s.sys = true → s.migs = [] → isAperture va = false → isCanonical va = true → (s.walk s.req va).why = .notPresent →
       Completes (.xmig d a b) s (ResultX d 1 s)) ∧
     (s.sys = false → ∀ i ∈ [Instr.xinv d a, .xinvas d a, .survey d a 1, .xmig d a b],
       Traps i s .privilege (BitVec.ofNat 64 (encodeFirst i)) 0))

/-- R134, R137, R138: SHAPE of a well-formed record that covers lines no other object of the address space covers makes an object with the lowest free
handle, which X(rd) receives; a malformed record gives status 3, a coverage that meets another object's 2, a full table 1, each with bit 63. OBJMODE
of a live handle, with a legal word, changes its mode and owner, and OBJREL frees it, each with status 0 in X(rd) and no
byte of memory changed; a handle that names no live object of the context's address space gives status 1, a word that is not legal 2. The order of the
statuses is the model's (log entry 42). -/
def Obligations.CoherenceObjectsAreMadeAndReleased : Prop :=
  ∀ (s : State) (d a m : Reg), s.c.ra = false →
    (let die := s.fcore / 256
     let h := (s.X a).toNat
     (∀ u rec, s.readRecord (s.X a).toNat = .ok (u, rec) → u.cur = s.cur → u.c = { s.c with surveyed := u.c.surveyed } →
       (shapeCover rec = none → Completes (.shape d a) s (fun t => t.mem = u.mem ∧ t.dies = u.dies ∧ XIs s t d 0x8000000000000003)) ∧
       (∀ lo hi, shapeCover rec = some (lo, hi) →
         ((∃ e ∈ (u.die s.fnode die).objs, e.2.asid = s.c.asid ∧ coversMeet e.2.lo e.2.hi lo hi = true) →
           Completes (.shape d a) s (fun t => t.mem = u.mem ∧ t.dies = u.dies ∧ XIs s t d 0x8000000000000002)) ∧
         ((∀ e ∈ (u.die s.fnode die).objs, e.2.asid = s.c.asid → coversMeet e.2.lo e.2.hi lo hi = false) →
           ((u.die s.fnode die).freeObj = none →
             Completes (.shape d a) s (fun t => t.mem = u.mem ∧ t.dies = u.dies ∧ XIs s t d 0x8000000000000001)) ∧
           (∀ k, (u.die s.fnode die).freeObj = some k → Completes (.shape d a) s (fun t => t.mem = u.mem ∧ XIs s t d (BitVec.ofNat 64 k) ∧
             tfind (t.die s.fnode die).objs k = some ⟨s.c.asid, lo, hi, fieldN rec 80 8, fieldN rec 96 16, 0⟩))))) ∧
     (∀ o, h < 4096 → tfind (s.die s.fnode die).objs h = some o → o.asid = s.c.asid →
       Completes (.objrel d a) s (fun t => t.mem = s.mem ∧ XIs s t d 0 ∧ tfind (t.die s.fnode die).objs h = none) ∧
       ((s.X m).toNat / 2 ^ 16 = 0 → (s.X m).toNat % 256 < 4 → Completes (.objmode d a m) s (fun t => t.mem = s.mem ∧ XIs s t d 0 ∧
         tfind (t.die s.fnode die).objs h = some { o with mode := (s.X m).toNat % 4, owner := (s.X m).toNat / 256, cores := 0 })) ∧
       ((s.X m).toNat / 2 ^ 16 ≠ 0 ∨ 4 ≤ (s.X m).toNat % 256 → Completes (.objmode d a m) s (ResultX d 2 s))) ∧
     ((∀ o, h < 4096 → tfind (s.die s.fnode die).objs h = some o → o.asid ≠ s.c.asid) →
       Completes (.objrel d a) s (ResultX d 1 s) ∧ Completes (.objmode d a m) s (ResultX d 1 s)))
/-! ## Floating point and vectors -/

/-- R248, R244: a value that a code of FP32, BF16, FP16, E4M3 or E5M2 denotes exactly rounds to that code, in every mode, with no flag. R249: SRSEED
never becomes 0. -/
def Obligations.ExactValuesRoundToTheirCode : Prop :=
  (∀ (y : ETy) (c : Nat) (r : Rnd) (sg : Bool) (n k : Nat), y ∈ [ETy.fp32, ETy.bf16, ETy.fp16, ETy.e4m3, ETy.e5m2] → c < 2 ^ y.width →
    y.decode c = .fin sg n k false → y.round r (y.decode c) = (c, 0)) ∧
  (∀ x : BitVec 32, x ≠ 0 → lfsr x ≠ 0)

/-- R276 to R279, R258: the scalar floating-point instructions without a prefix, on the low 32 bits of their operands: RNE, one rounding, the canonical NaN;
the FP32 result is zero-extended, the flags are ORed into FPSTAT. SCAL multiplies by its scale, and a scale that is not positive and finite
raises SCALE_INVALID with it as TVAL. -/
def Obligations.ScalarFloatingPointResults : Prop :=
  ∀ (s : State) (d a b : Reg), s.pfx = none →
    (let x := s.F a; let z := s.F b; let R := Rnd.default
     ∀ e ∈ [(Instr.fadd false d a b, fpAdd .fp32 R x z), (.fsub false d a b, fpSub .fp32 R x z), (.fmul false d a b, fpMul .fp32 R x z),
        (.fmac false d a b, fpFma .fp32 R false (s.F d) x z), (.fdiv false d a b, fpDiv .fp32 R x z), (.fsqrt false d a, fpUnary fvSqrt .fp32 R x),
        (.fmin false d a b, fpMinMax .fp32 R false x z), (.fmax false d a b, fpMinMax .fp32 R true x z),
        (.fcvti false d a, ETy.roundInt .i64 R (ETy.decode .fp32 x)),
        (.fcvtf false d a, ETy.round .fp32 R (FVal.ofInt (s.X a).toInt)),
        (.flt false d a b, if (ETy.decode .fp32 x).isNan ∨ (ETy.decode .fp32 z).isNan then (0, fNV)
          else ((fvLt (ETy.decode .fp32 x) (ETy.decode .fp32 z)).toNat, 0)),
        (.feq false d a b, if (ETy.decode .fp32 x).isNan ∨ (ETy.decode .fp32 z).isNan then
          (0, if (ETy.decode .fp32 x).isSnan ∨ (ETy.decode .fp32 z).isSnan then fNV else 0)
          else ((fvEq (ETy.decode .fp32 x) (ETy.decode .fp32 z)).toNat, 0)),
        (.fclass false d a, (2 ^ fclassBit x, 0))],
       Completes e.1 s (fun t => XIs s t d (BitVec.ofNat 64 e.2.1) ∧ VecFrame e.2.2 s t ∧ t.c.v = s.c.v ∧ t.c.p = s.c.p)) ∧
    (0 < s.F b → s.F b < 0x7F800000 → Completes (.scal false d a b) s (fun t =>
      let x := ETy.decode .fp32 (s.F a)
      let r := fpOp .fp32 Rnd.default [x] (fvMul (fvMul x (ETy.decode .fp32 (s.F b))).1 (ETy.decode .fp32 0x3F800000))
      XIs s t d (BitVec.ofNat 64 r.1) ∧ VecFrame r.2 s t ∧ t.c.v = s.c.v ∧ t.c.p = s.c.p)) ∧
    (s.F b = 0 ∨ 0x7F800000 ≤ s.F b → Traps (.scal false d a b) s .scaleInvalid (BitVec.ofNat 64 (s.F b)) 0)

/-- R285 to R291: without a prefix, on the type that T names, each element-wise instruction computes each element of V(rd) from the elements at the same
place: integers wrap, the SAT members clamp, shifts count modulo the width, floating point rounds once by RNE with the flags of every
element; a scalar operand is the low bits of X(rs2); VSPLAT and VSPLATI put one value into every element. -/
def Obligations.VectorArithmeticByLane : Prop :=
  ∀ (s : State) (d a b : Reg) (t : BitVec 3) (y : ETy), s.pfx = none → ETy.ofT t.toNat = some y →
    let x := fun i => lane y.width i (s.c.vr a); let z := fun i => lane y.width i (s.c.vr b); let c := fun i => lane y.width i (s.c.vr d)
    let q := (s.X b).toNat % 2 ^ y.width; let R := Rnd.default; let I := y.toInt
    let int := fun (v : Int) => (y.wrap v, (0 : BitVec 5))
    let fma := fun (m : Bool) (p r k : Nat) => if y.isFloat then fpFma y R m k p r else int (if m then I k - I p * I r else I k + I p * I r)
    (∀ e ∈ [(Instr.vadd false d a b t, [d, a, b], fun i => if y.isFloat then fpAdd y R (x i) (z i) else int (I (x i) + I (z i))),
        (.vsub false d a b t, [d, a, b], fun i => if y.isFloat then fpSub y R (x i) (z i) else int (I (x i) - I (z i))),
        (.vmul false d a b t, [d, a, b], fun i => if y.isFloat then fpMul y R (x i) (z i) else int (I (x i) * I (z i))),
        (.vfma false d a b t, [d, a, b], fun i => fma false (x i) (z i) (c i)), (.vfms false d a b t, [d, a, b], fun i => fma true (x i) (z i) (c i)),
        (.vmin false d a b t, [d, a, b], fun i => if y.isFloat then fpMinMax y R false (x i) (z i) else int (min (I (x i)) (I (z i)))),
        (.vmax false d a b t, [d, a, b], fun i => if y.isFloat then fpMinMax y R true (x i) (z i) else int (max (I (x i)) (I (z i)))),
        (.vabs false d a t, [d, a], fun i => if y.isFloat then (x i % 2 ^ (y.width - 1), 0) else int (I (x i)).natAbs),
        (.vneg false d a t, [d, a], fun i => if y.isFloat then (x i ^^^ 2 ^ (y.width - 1), 0) else int (-(I (x i)))),
        (.vand false d a b t, [d, a, b], fun i => (x i &&& z i, 0)), (.vor false d a b t, [d, a, b], fun i => (x i ||| z i, 0)), (.vxor false d a b t, [d, a, b], fun i => (x i ^^^ z i, 0)),
        (.vmov false d a t, [d, a], fun i => (x i, 0)),
        (.vaddsc false d a b t, [d, a], fun i => if y.isFloat then fpAdd y R (x i) q else int (I (x i) + I q)),
        (.vsubsc false d a b t, [d, a], fun i => if y.isFloat then fpSub y R (x i) q else int (I (x i) - I q)),
        (.vmulsc false d a b t, [d, a], fun i => if y.isFloat then fpMul y R (x i) q else int (I (x i) * I q)),
        (.vfmasc false d a b t, [d, a], fun i => fma false (x i) q (c i)),
        (.vminsc false d a b t, [d, a], fun i => if y.isFloat then fpMinMax y R false (x i) q else int (min (I (x i)) (I q))),
        (.vmaxsc false d a b t, [d, a], fun i => if y.isFloat then fpMinMax y R true (x i) q else int (max (I (x i)) (I q))),
        (.vsplat false d b t, [d], fun _ => (q, 0))], VecReady s e.2.1 → Completes e.1 s (ResultV y.width d e.2.2 s)) ∧
    (y.isFloat = false → ∀ e ∈ [(Instr.vsll false d a b t, [d, a, b], fun i => (x i * 2 ^ (z i % y.width), (0 : BitVec 5))),
        (.vsrl false d a b t, [d, a, b], fun i => (x i / 2 ^ (z i % y.width), 0)), (.vsra false d a b t, [d, a, b], fun i => int (I (x i) / 2 ^ (z i % y.width))),
        (.vmulh false d a b t, [d, a, b], fun i => int (I (x i) * I (z i) / 2 ^ y.width)),
        (.vaddsat false d a b t, [d, a, b], fun i => int (max y.minInt (min y.maxInt (I (x i) + I (z i))))),
        (.vsubsat false d a b t, [d, a, b], fun i => int (max y.minInt (min y.maxInt (I (x i) - I (z i)))))], VecReady s e.2.1 → Completes e.1 s (ResultV y.width d e.2.2 s)) ∧
    (y.isFloat = true → ∀ e ∈ [(Instr.vdiv false d a b t, [d, a, b], fun i => fpDiv y R (x i) (z i)), (.vsqrt false d a t, [d, a], fun i => fpUnary fvSqrt y R (x i)),
        (.vrsq false d a t, [d, a], fun i => fpUnary fvRsq y R (x i)), (.vrcp false d a t, [d, a], fun i => fpUnary fvRcp y R (x i)),
        (.vexp2 false d a t, [d, a], fun i => fpUnary fvExp2 y R (x i)), (.vlog2 false d a t, [d, a], fun i => fpUnary fvLog2 y R (x i))],
      VecReady s e.2.1 → Completes e.1 s (ResultV y.width d e.2.2 s)) ∧
    (∀ m : BitVec 32, m.toNat < 2 ^ y.width → VecReady s [d] → Completes (.vsplati false d t m) s (ResultV y.width d (fun _ => (m.toNat, 0)) s))

/-- R292 to R296: reductions fold the elements in ascending order into element 0 and clear the others; VPERM, VROT and VINS move elements; VEXT reads one,
sign-extended for an integer type; VSORT orders by key, equal keys in their order; VDUPM marks the first of each run of equal keys;
VCOMPR packs the elements that the mask marks, VEXPND spreads them. -/
def Obligations.VectorMovesReducesAndSorts : Prop :=
  ∀ (s : State) (d a b : Reg) (t : BitVec 3) (y : ETy), s.pfx = none → ETy.ofT t.toNat = some y →
    let n := 256 / y.width; let x := fun i => lane y.width i (s.c.vr a); let z := fun i => lane y.width i (s.c.vr b)
    let zero := (0 : BitVec 5); let R := Rnd.default
    let fold := fun (f : Nat → Nat → Nat × BitVec 5) (i : Nat) => if i = 0 then
      (List.range (n - 1)).foldl (fun (r : Nat × BitVec 5) j => ((f r.1 (x (j + 1))).1, r.2 ||| (f r.1 (x (j + 1))).2)) (x 0, zero) else (0, 0)
    (∀ e ∈ [(Instr.vredsum false d a t, [d, a], fold (fun p q => if y.isFloat then fpAdd y R p q else (y.wrap (y.toInt p + y.toInt q), 0))),
        (.vredmax false d a t, [d, a], fold (fun p q => if y.isFloat then fpMinMax y R true p q else (y.wrap (max (y.toInt p) (y.toInt q)), 0))),
        (.vredmin false d a t, [d, a], fold (fun p q => if y.isFloat then fpMinMax y R false p q else (y.wrap (min (y.toInt p) (y.toInt q)), 0))),
        (.vperm false d a b t, [d, a, b], fun i => (x (z i % n), zero)), (.vrot false d a b t, [d, a], fun i => (x ((i + n - (s.X b).toNat % n) % n), zero)),
        (.vins false d a b t, [d], fun i => (if i = (s.X b).toNat % n then (s.X a).toNat else lane y.width i (s.c.vr d), zero))],
      VecReady s e.2.1 → Completes e.1 s (ResultV y.width d e.2.2 s)) ∧
    (VecReady s [a] → Completes (.vext false d a b t) s (fun u =>
      XIs s u d (let v := x ((s.X b).toNat % n); if y.isFloat then BitVec.ofNat 64 v else BitVec.ofInt 64 (y.toInt v)) ∧ VecFrame 0 s u ∧ u.c.v = s.c.v ∧ u.c.p = s.c.p)) ∧
    (VecReady s [d, a] → b.toNat < y.width → (y.isFloat = true → b = 0) → Completes (.vsort false d a b t) s (fun u =>
      let o := (List.range n).map x; let l := (List.range n).map (fun i => lane y.width i (u.c.vr d)); let key := sortKey y b.toNat
      l.Pairwise (fun p q => keyLe (key p) (key q) = true) ∧ (∀ k, l.filter (fun p => key p == k) = o.filter (fun p => key p == k)) ∧
      (∀ r, r ≠ d → u.c.vr r = s.c.vr r) ∧ u.c.x = s.c.x ∧ u.c.p = s.c.p ∧ VecFrame 0 s u)) ∧
    (VecReady s [a] → y.width = 32 → d.toNat < 8 → b.toNat < 32 → (y.isFloat = true → b = 0) →
      Completes (.vdupm false d a b t) s (ResultP d (fun i => (decide (i = 0 ∨ ¬(if y.isFloat then
          (ETy.decode .fp32 (x (i - 1))).isNan = false ∧ (ETy.decode .fp32 (x i)).isNan = false ∧ fvEq (ETy.decode .fp32 (x (i - 1))) (ETy.decode .fp32 (x i)) = true
        else y.toInt (x (i - 1)) / 2 ^ b.toNat = y.toInt (x i) / 2 ^ b.toNat)), 0)) s)) ∧
    (VecReady s [d, a] → y.width = 32 → ∀ m : Reg, m.toNat < 8 →
      let on := (List.range 8).filter (fun i => (s.c.pr m).getLsbD i)
      Completes (.vcompr false d a m t) s (ResultV 32 d (fun i => (if h : i < on.length then x on[i] else 0, 0)) s) ∧
      Completes (.vexpnd false d a m t) s (ResultV 32 d (fun i => (if (s.c.pr m).getLsbD i then x (on.filter (fun j => decide (j < i))).length else 0, 0)) s))

/-- R297, R298: VCMP sets each bit of P(rd) by its condition on the elements; a NaN makes every floating-point condition false but NE and UNO, and raises
NV for an ordered condition or when it signals. VSEL takes the elements that the mask marks and keeps the others; PAND, POR, PNOT and PCNT act on
predicate registers. R254 to R257: VCVT converts the elements that its part names, and keeps the rest of a wider-than-needed destination. -/
def Obligations.VectorComparesAndConversions : Prop :=
  ∀ (s : State) (d a b m : Reg), s.pfx = none →
    let x := fun i => lane 32 i (s.c.vr a); let z := fun i => lane 32 i (s.c.vr b)
    (VecReady s [] → d.toNat < 8 → a.toNat < 8 → b.toNat < 8 →
      Completes (.pand false d a b) s (ResultP d (fun i => ((s.c.pr a).getLsbD i && (s.c.pr b).getLsbD i, 0)) s) ∧
      Completes (.por false d a b) s (ResultP d (fun i => ((s.c.pr a).getLsbD i || (s.c.pr b).getLsbD i, 0)) s) ∧
      Completes (.pnot false d a) s (ResultP d (fun i => (!(s.c.pr a).getLsbD i, 0)) s) ∧
      Completes (.pcnt false m a) s (fun u =>
        XIs s u m (BitVec.ofNat 64 ((List.range 8).countP (fun i => (s.c.pr a).getLsbD i))) ∧ VecFrame 0 s u ∧ u.c.v = s.c.v ∧ u.c.p = s.c.p)) ∧
    (VecReady s [a, b] → d.toNat < 8 → ∀ e ∈ [((0 : BitVec 6), fun i => decide (x i = z i)), (1, fun i => decide (x i ≠ z i)),
        (2, fun i => decide (ETy.toInt .i32 (x i) < ETy.toInt .i32 (z i))), (3, fun i => decide (ETy.toInt .i32 (x i) ≤ ETy.toInt .i32 (z i))),
        (4, fun i => decide (ETy.toInt .i32 (z i) < ETy.toInt .i32 (x i))), (5, fun i => decide (ETy.toInt .i32 (z i) ≤ ETy.toInt .i32 (x i))),
        (6, fun i => decide (x i < z i)), (7, fun i => decide (z i ≤ x i))],
      Completes (.vcmp false d a b e.1 0) s (ResultP d (fun i => (e.2 i, 0)) s)) ∧
    (VecReady s [a, b] → d.toNat < 8 → let X := fun i => ETy.decode .fp32 (x i); let Z := fun i => ETy.decode .fp32 (z i)
      ∀ e ∈ [((0 : BitVec 6), fun i => fvEq (X i) (Z i)), (1, fun i => !fvEq (X i) (Z i)), (2, fun i => fvLt (X i) (Z i)), (3, fun i => !fvLt (Z i) (X i)),
        (4, fun i => fvLt (Z i) (X i)), (5, fun i => !fvLt (X i) (Z i)), (8, fun _ => false)],
      Completes (.vcmp false d a b e.1 1) s (ResultP d (fun i =>
        (if (X i).isNan || (Z i).isNan then decide (e.1 = 1 ∨ e.1 = 8) else e.2 i,
         if (X i).isSnan || (Z i).isSnan || (((X i).isNan || (Z i).isNan) && decide (2 ≤ e.1.toNat ∧ e.1.toNat ≤ 5)) then fNV else 0)) s)) ∧
    (VecReady s [d, a] → m.toNat < 8 → ∀ t : BitVec 3, t = 0 ∨ t = 1 → Completes (.vsel false d a m t) s
      (ResultV 32 d (fun i => (if (s.c.pr m).getLsbD i then x i else lane 32 i (s.c.vr d), 0)) s)) ∧
    (∀ (q : Reg) (cd cs : BitVec 4) (y w : ETy) (p : Nat), VecReady s [d, a] → vcvtTypes cd.toNat cs.toNat q.toNat false = some (y, w, p) →
      let n := 256 / max y.width w.width
      let r := fun (i : Nat) => convertEl w y Rnd.default (lane w.width i (s.c.vr a)) id
      Completes (.vcvt false d a q cd cs) s (ResultV y.width d (fun i =>
        if y.width < w.width then (if q.toNat * n ≤ i ∧ i < q.toNat * n + n then r (i - q.toNat * n) else (lane y.width i (s.c.vr d), 0))
        else r (i + (if w.width < y.width then q.toNat * n else 0))) s))

/-- R47 to R54, R249: a prefix governs the word after it: when the governed instruction honours every field that is away from its default, the pair runs as
one instruction of both words, with the prefix's rounding mode, SAT and NANP in force, DYN taken from RMODE, one draw of SRSEED for
a scalar operation under SR, and PC past both words; it stalls while an x register that it names is still to be written by the vector unit (R284). A
governed instruction that does not honour a field raises ILLEGAL_INSTR with the governed word as TVAL, and a
prefix that no governed word follows ORPHAN_PREFIX. -/
def Obligations.PrefixGovernsItsPair : Prop :=
  ∀ (s s1 : State) (w : Nat) (rnd : BitVec 3) (sat : Bool) (nanp : BitVec 2) (ovr : BitVec 4) (sc : Bool) (sr : Reg), s.c.held = none →
    let P : Pfx := ⟨rnd, sat, nanp, ovr, sc, sr⟩
    let i0 : Instr := .pfx rnd sat nanp ovr sc sr
    wellFormed i0 = true → s.fetch (s.c.pc + 4) = .ok (s1, w) →
    (selGoverned w = false → exec i0 s = .next (s1.trapNow { cause := .orphanPfx, tval := BitVec.ofNat 64 w } false false)) ∧
    (selGoverned w = true → selLong w = false → s1.c.branchesBack = false → ∀ i h, decodeWord w 0 = .ok i → wellFormed i = true →
      honoursOf i (fpInForce ovr) = some h →
      (P.honoured h = false → exec i0 s = .next (s1.trapNow { cause := .illegalInstr, tval := BitVec.ofNat 64 w } false true)) ∧
      (P.honoured h = true → let v := s1.setC { s1.c with held := some (i0, i) }
        exec i0 s = if v.xHeld i then .next (v.stall .vectorQueue) else execGoverned i { v with pfx := some P }) ∧
      (ovr = 0 → sc = false → s1.xHeld i = false → ∀ (d a b : Reg) (x z c : Nat), x = s1.F a → z = s1.F b → c = s1.F d →
        ∀ e ∈ [(Instr.fadd true d a b, fun r => fpAdd .fp32 r x z), (.fsub true d a b, fun r => fpSub .fp32 r x z),
          (.fmul true d a b, fun r => fpMul .fp32 r x z), (.fmac true d a b, fun r => fpFma .fp32 r false c x z),
          (.fdiv true d a b, fun r => fpDiv .fp32 r x z), (.fsqrt true d a, fun r => fpUnary fvSqrt .fp32 r x)], i = e.1 →
        let mode := if rnd = 6 then s1.c.rmode.toNat else rnd.toNat
        let y := e.2 ⟨mode, sat, nanp.toNat, if mode = 5 then (lfsr s1.c.srseed).toNat else 0, true⟩
        Completes i0 s (fun t => XIs s1 t d (BitVec.ofNat 64 y.1) ∧ t.mem = s1.mem ∧ t.c.v = s1.c.v ∧
          t.c.fpstat = (if s1.c.ra then s1.c.fpstat else s1.c.fpstat ||| y.2) ∧ t.c.srseed = (if mode = 5 then lfsr s1.c.srseed else s1.c.srseed) ∧
          t.c.instret = s1.c.instret + 1 ∧ t.pfx = none ∧ t.c.held = none ∧ (s1.c.loopActive = false → t.c.pc = s1.c.pc + 8))))


/-! ## Engines and arrays -/

/-- R205, R194, R75, R78, R209, R212, R222, R223: a copy-engine command whose issue checks pass, with fewer than 16 of its core's commands open and room for its
entries in the scoreboard and the range-lock table, is snapshotted with all geometry registers and enters the queue that its suffix names, an EXCH the
unmatched ones; its entries are claimed, nothing else changes. Without that room it waits; a failed check raises ENGINE_FAULT, and nothing is issued; a run-ahead
helper drops it (R259). A reserved bit of g0 that is set, and a zero count in it, give TVAL 0. -/
def Obligations.EngineCommandsAreIssued : Prop :=
  ∀ (s : State) (a b : Reg) (h : Bool),
    (∀ e ∈ [(Instr.ecpy a b h, 0, ecpyCheck), (.egth a b h, 1, fun c => rowsCheck c a b), (.esct a b h, 2, fun c => rowsCheck c a b),
        (.exch a b h, 3, fun c => exchCheck c a b), (.etopk a b h, 9, fun c => etopkCheck c a b), (.enmsc a b h, 11, fun c => enmscCheck c a b),
        (.eptab a b h, 12, fun c => eptabCheck c a b)],
      let c := s.mkCmd e.2.1 h false (s.X a) (s.X b)
      (s.c.ra = true → Completes e.1 s (Leaves s)) ∧
      (s.c.ra = false → (∀ x, e.2.2 c = .error (.trap x) → exec e.1 s = .next (s.trapNow x false s.pfx.isSome)) ∧
        (e.2.2 c = .ok () → (16 ≤ s.coreCmds s.fnode s.fcore ∨ s.pol.claim c c.claims = none → Waits e.1 s .engineQueue) ∧
          (∀ q, s.coreCmds s.fnode s.fcore < 16 → s.pol.claim c c.claims = some q → Completes e.1 s (fun t => t.nextCmd = s.nextCmd + 1 ∧
            Leaves (s.setPol { q with engine :=
              if e.2.1 = 3 then { q.engine with exch := q.engine.exch ++ [c] }
              else if h then { q.engine with hiQ := q.engine.hiQ ++ [c] } else { q.engine with loQ := q.engine.loQ ++ [c] } }) t))))) ∧
    (s.c.ra = false → ∀ e ∈ [(Instr.ecpy a b h, fieldW s.c.g[0] 19 13 ≠ 0 ∨ 9 < fieldW s.c.g[0] 0 4), (.egth a b h, fieldW s.c.g[0] 16 10 = 0 ∨ fieldW s.c.g[0] 0 16 = 0),
        (.esct a b h, fieldW s.c.g[0] 16 10 = 0 ∨ fieldW s.c.g[0] 0 16 = 0), (.exch a b h, fieldW s.c.g[0] 27 5 ≠ 0 ∨ fieldW s.c.g[0] 0 12 = 0),
        (.eptab a b h, fieldW s.c.g[0] 0 32 ≠ 0), (.enmsc a b h, fieldW s.c.g[0] 31 1 ≠ 0 ∨ fieldW s.c.g[0] 0 16 = 0),
        (.etopk a b h, fieldW s.c.g[0] 21 11 = 0 ∨ fieldW s.c.g[0] 0 12 = 0)], e.2 → Traps e.1 s .engineFault 0 0)

/-- R304 to R309: LEASE of a legal save area takes a free array that no one waits for at once, with both banks zero, and gives 0; it gives 2 when the context has a lease
already, 1 when another context of the core has one or waits for one, and else waits, its core's quantum to come; the wait ends with 0 once the grant has come, whatever the slot has
been through meanwhile (log entry 15). A save area off C-space raises ILLEGAL_ADDRESS, one off a multiple of 1,024 MISALIGNED. UNLEASE ends a lease with nothing queued with 0, gives 1
without a lease, and waits while a command is queued or runs. LSTAT of a context without a lease reads 0, and of a granted one HELD, the counter, the queues' counts, the flags, rows and halts.
R308, R310, R312 to R314, R321 to R323, R49: an array command of a context that holds the granted lease, whose checks pass, with room in the tile queue that its suffix
names and for its entries, enters that queue with the geometry registers and the prefix's mode fields as they are; an EMMD takes its drain scales, read at issue from the
list that SCL names, and its draws with it. Without a lease it raises LEASE_VIOLATION with its word as TVAL; with its lease suspended, its queue full, or no free table entries, it waits. -/
def Obligations.LeasesAndArrayCommands : Prop :=
  (∀ (s : State) (d a : Reg), s.c.ra = false →
    let arr := s.pol.array; let sa := s.X a
    let legal := fieldW sa 32 32 = 0 ∧ fieldW sa 29 3 = 1 ∧ fieldW sa 25 4 = 0 ∧ fieldW sa 0 25 + 133120 ≤ 4 * 2 ^ 20 ∧ fieldW sa 0 10 = 0
    let other := fun (id : CtxId) => id.core = s.fcore ∧ id ≠ s.cur
    let mate := (∃ id, arr.holder = some id ∧ other id) ∨ (∃ x ∈ arr.susp, x.saved = false ∧ other x.id) ∨ (∃ w ∈ arr.waiting, other w.1)
    let free := arr.holder = none ∧ arr.waiting = [] ∧ (∀ x ∈ arr.susp, x.saved = true) ∧ arr.run = none
    (legal → (s.c.granted = true → Completes (.lease d a) s (fun t => XIs s t d 0 ∧ t.c.granted = false ∧ t.polders = s.polders ∧ t.mem = s.mem)) ∧
      (s.c.granted = false → arr.leased s.cur = true → Completes (.lease d a) s (ResultX d 2 s)) ∧
      (s.c.granted = false → arr.leased s.cur = false → (∀ w ∈ arr.waiting, w.1 ≠ s.cur) →
        (mate → Completes (.lease d a) s (ResultX d 1 s)) ∧
        (¬mate → free → Completes (.lease d a) s (fun t => XIs s t d 0 ∧ t.mem = s.mem ∧ t.pol.array =
          { arr with holder := some s.cur, holderSa := sa.toNat, bank0 := Bank.reset, bank1 := Bank.reset, hstop := false, lstop := false,
                     quantum := s.cc.quant.toNat, lastCore := s.fcore % 8, next := none })) ∧
        (¬mate → ¬free → Waits (.lease d a) s .lease ∧ ∀ t, exec (.lease d a) s = .next t → t.pol.array.waiting = arr.waiting ++ [(s.cur, sa.toNat)]))) ∧
    (fieldW sa 29 3 ≠ 1 → Traps (.lease d a) s .illegalAddress sa 0) ∧
    (fieldW sa 32 32 = 0 → fieldW sa 29 3 = 1 → fieldW sa 25 4 = 0 → fieldW sa 0 25 + 133120 ≤ 4 * 2 ^ 20 → fieldW sa 0 10 ≠ 0 → Traps (.lease d a) s .misaligned sa 0) ∧
    (arr.leased s.cur = false → Completes (.unlease d) s (ResultX d 1 s) ∧ Completes (.lstat d) s (ResultX d 0 s)) ∧
    (arr.leased s.cur = true → (s.arrBusy s.cur = true → Waits (.unlease d) s .fence) ∧
      (s.arrBusy s.cur = false → Completes (.unlease d) s (fun t => XIs s t d 0 ∧ t.pol.array.leased s.cur = false ∧
        (arr.hiQ = [] → arr.loQ = [] → (∀ x ∈ arr.susp, x.hiQ = [] ∧ x.loQ = []) → t.mem = s.mem)))) ∧
    (arr.holder = some s.cur → arr.ending = false → Completes (.lstat d) s (ResultX d (BitVec.ofNat 64 (2 ^ 63 + arr.quantum * 2 ^ 55 + arr.hiQ.length * 2 ^ 51 +
      arr.loQ.length * 2 ^ 47 + arr.bank1.flags.toNat * 2 ^ 42 + arr.bank0.flags.toNat * 2 ^ 37 + arr.bank1.rrows * 2 ^ 29 + arr.bank0.rrows * 2 ^ 21 +
      arr.hstop.toNat * 2 ^ 19 + arr.lstop.toNat * 2 ^ 18)) s))) ∧
  (∀ (s : State) (a b : Reg) (h t g : Bool) (sc : List (BitVec 32)), s.c.ra = false → (g = true → s.pfx.isSome = true) →
    let c4 := s.cmdModes (s.mkCmd 4 h t (s.X a) (s.X b)); let c5 := s.mkCmd 5 h false (s.X a) 0; let c6 := s.cmdModes (s.mkCmd 6 h false (s.X a) (s.X b))
    let scl := fieldW s.c.g[8] 32 32
    let n := c6.b.toNat * c6.cols * (if c6.oTy = .c32 then 2 else 1)
    let d6 := if s.mode = 5 then (s.draws n).map (BitVec.ofNat 32) else []
    (∀ i ∈ [Instr.emma g a b h t, .emmz a h, .emmd g a b h], s.pol.array.leased s.cur = false → Traps i s .leaseViolation (wordOf (encodeFirst i)) 0) ∧
    (∀ e ∈ [(Instr.emma g a b h t, emmaCheck c4 a b = .ok (), s, c4),
        (.emmz a h, fieldW s.c.g[6] 32 32 = 0 ∧ fieldW (s.X a) 1 63 = 0 ∧ barOk (fieldW s.c.g[6] 0 32) = true, s, c5),
        (.emmd g a b h, emmdCheck c6 a b = .ok () ∧ (if scl = 0 then .ok [] else s.drainScales scl ((c6.cols + 31) / 32)) = .ok sc, s.drawn n,
          { c6 with scales := sc, draws := d6 })], e.2.1 → s.pol.array.leased s.cur = true →
      (s.pol.array.holder ≠ some s.cur ∨ 8 ≤ (if h then s.pol.array.hiQ else s.pol.array.loQ).length → Waits e.1 s .tileQueue) ∧
      (s.pol.array.holder = some s.cur → s.pol.claim e.2.2.2 e.2.2.2.arrClaims = none → Waits e.1 s .tileQueue) ∧
      (∀ q, s.pol.array.holder = some s.cur → s.pol.array.ending = false → (if h then s.pol.array.hiQ else s.pol.array.loQ).length < 8 → s.pol.claim e.2.2.2 e.2.2.2.arrClaims = some q →
        Completes e.1 s (fun u => u.nextCmd = s.nextCmd + 1 ∧ Leaves (e.2.2.1.setPol { q with array :=
          if h then { q.array with hiQ := q.array.hiQ ++ [e.2.2.2] } else { q.array with loQ := q.array.loQ ++ [e.2.2.2] } }) u))))

/-- R350 to R352, R354: an ECOLL whose two records are read and whose checks pass opens the next collective of its communicator as its first member, its ranges claimed and
the member's count of ECOLLs one more; a communicator that is not enabled, and a malformed source record, raise ENGINE_FAULT. ECLONE, of the system
context, with its plan well formed, starts a clone plan with the plan's regions; in user mode it raises PRIVILEGE. -/
def Obligations.CollectivesAndClonePlansStart : Prop :=
  ∀ (s s1 s2 : State) (a b : Reg), s.c.ra = false →
    (∀ r1 r2, s.readRecord (s.X a).toNat = .ok (s1, r1) → s1.readRecord (s.X b).toNat = .ok (s2, r2) → s2.cur = s.cur → s2.pfx = s.pfx →
      let c := s.mkCmd 8 false false (s.X a) (s.X b); let n := fieldW s.c.g[0] 0 8; let m := s2.comm s.fnode n
      let who := if m.kind = 1 then s.cur.die else 0; let k := tget 0 m.issued who; let home := if m.kind = 1 then s.fnode else m.group
      (∀ i q, s2.collCheck c a b r1 r2 = .ok i → s2.colls.find? (fun x => x.named m.kind home n k) = none →
        ((s2.mine m.kind home n c).filter (fun e => e.2.st == 0)).length < 8 → (s2.polder s.fnode (s.fcore / 8)).claim c (collClaims c i.sb i.db) = some q →
        Completes (.ecoll a b) s (fun t => t.nextCmd = s2.nextCmd + 1 ∧ t.mem = s2.mem ∧ t.c.x = s2.c.x ∧ t.polder s.fnode (s.fcore / 8) = q ∧
          tget 0 (t.comm s.fnode n).issued who = k + 1 ∧ t.colls = s2.colls ++ [⟨m.kind, home, n, k, i.size, [i.mem], false⟩])) ∧
      (m.en = false → exec (.ecoll a b) s = .next (s.trapNow { cause := .engineFault, tval := 0 } false s.pfx.isSome)) ∧
      (m.en = true → m.kind = 0 → m.die = s.cur.die → n < 64 → fieldW s.c.g[0] 16 16 = 0 → layoutOf r1 m.size = none →
        Traps (.ecoll a b) s .engineFault (BitVec.ofNat 64 (0x100 + a.toNat)) 0)) ∧
    (s.sys = true → ∀ w0 w1 w2 w3 l es, s.readWords (s.X a).toNat 8 = .ok (s1, w0 :: w1 :: w2 :: w3 :: l) → l.length = 4 → (∀ w ∈ l, w = 0) → fieldN w0 12 4 = 0 →
      1 ≤ fieldN w0 16 16 → fieldN w0 16 16 ≤ 1024 → fieldN w0 32 32 = 0 → fieldN w3 32 32 = 0 → w1 < 2 ^ 58 → w1 = 0 ∨ paNode w1 = fieldN w0 0 12 → fieldW s.c.g[0] 0 32 = 0 → barOk (fieldW s.c.g[0] 32 32) = true →
      s1.readRegions a (fieldN w0 0 12) ((s.X a).toNat + 64) (fieldN w0 16 16) = .ok (s2, es) →
      Completes (.eclone a) s (fun t => t.mem = s2.mem ∧ t.c.x = s2.c.x ∧ t.nextCmd = s2.nextCmd + 1 ∧
        t.clones = s2.clones ++ [⟨s.mkCmd 10 false false (s.X a) 0, fieldN w0 0 12, w1, 0, es, 0, 0, false⟩])) ∧
    (s.sys = false → Traps (.eclone a) s .privilege (BitVec.ofNat 64 (0x00000A9C + a.toNat * 2 ^ 13)) 0)

/-! ## Messages and named experts -/

/-- R330, R334, R337, R339: a send with a credit for its handle uses one and puts the entry of 8 bytes, or 32 for SENDV, on its way to the handle's mailbox, with status 0; a handle
with a nonzero reserved field, a slot above 11, a die above 5 or mailbox 511 raises MAILBOX_FAULT with the handle as TVAL; a fenced node gives 2; without a credit the slot
waits, and gives 1 once its time-out has passed. SENDB's entry carries its bearings, which are followed as it travels; a SENDB to another package raises MAILBOX_FAULT. -/
def Obligations.MessagesAreSent : Prop :=
  ∀ (s : State) (d h v : Reg) (w : BitVec 32), s.c.ra = false → s.c.portOf v = none →
    let H := s.X h
    (∀ e ∈ [(Instr.send d h v, 8, (s.X v).zeroExtend 256, none, true), (.sendv d h v, 32, s.c.vr v, none, true),
        (.sendb d h v w, 8, (s.X v).zeroExtend 256, some w, hNode H == s.fnode)],
      (fieldW H 0 16 ≠ 0 ∨ 5 < fieldW H 49 3 ∨ 11 < hSlot H ∨ hMbox H = 511 → Traps e.1 s .mailboxFault H 0) ∧
      (fieldW H 0 16 = 0 → fieldW H 49 3 ≤ 5 → hSlot H ≤ 11 → hMbox H ≠ 511 → e.2.2.2.2 = true →
        (s.deadNode (hNode H) = true → Completes e.1 s (ResultX d 2 s)) ∧
        (s.deadNode (hNode H) = false →
          (∀ q b, s.cc.useCredit H = some (q, b) → Completes e.1 s (Leaves
            (({ s.setCC q with flights := s.flights ++ [Flight.entry H s.cur e.2.1 e.2.2.1 e.2.2.2.1 (s.bindingOf H) b] } : State).setX d 0))) ∧
          (s.cc.useCredit H = none → (s.c.expired = true → Completes e.1 s (ResultX d 1 s)) ∧ (s.c.expired = false → Waits e.1 s .send))))) ∧
    (fieldW H 0 16 = 0 → fieldW H 49 3 ≤ 5 → hSlot H ≤ 11 → hMbox H ≠ 511 → hNode H ≠ s.fnode → Traps (.sendb d h v w) s .mailboxFault H 0) ∧
    (∀ q k n b c l, s.cc.sendWin = ⟨k, n + 1, b⟩ :: l → k = H → s.cc.useCredit H = some (q, c) → c = b ∧ q.sendWin.getLast? = some ⟨H, n, b⟩)

/-- R330, R335, R336: MPOP of a mailbox of its core with 8-byte entries gives the head entry, and MPOPV of one with 32-byte entries puts it into V(rd); the head moves on by one
entry, one less is held, one more is free; MPOPV of a 64-byte entry gives its two halves in turn; a lost word of the entry raises DATA_LOST. An empty mailbox makes them wait, on
its binding: one whose wait finds its binding gone raises MAILBOX_FAULT. MPEEK gives bound, handler and
the count, 0 of an unbound mailbox. A mailbox of another core, or one not bound, an entry size that does not fit, and a nonzero upper field raise MAILBOX_FAULT with X(rs1). That
MPEEK of an unbound mailbox never faults, and what a waiting pop is bound to, are the model's reading (log entry 16).
R328, R332, R336: MBIND of a well-formed descriptor of a free mailbox whose ring is aligned, inside M-space and clear of the polder's other rings binds it to the context and
generation, empty, and gives its handle; mailbox 511, the spillway, is the system context's to bind; a bound mailbox gives 1, a malformed descriptor, or another ring, 2. MFREE by the owner, or by the system context, unbinds with 0; another context's gives 1. -/
def Obligations.MailboxesBindAndReceive : Prop :=
  (∀ (s : State) (d m : Reg), s.c.ra = false → s.c.portOf d = none →
    let x := s.X m; let n := fieldW x 0 9
    (fieldW x 9 55 ≠ 0 → ∀ i ∈ [Instr.mpop d m, .mpopv d m, .mpeek d m], Traps i s .mailboxFault x 0) ∧
    (fieldW x 9 55 = 0 → s.mbox s.fnode s.pIdx n = none → Completes (.mpeek d m) s (ResultX d 0 s) ∧
      ∀ i ∈ [Instr.mpop d m, .mpopv d m], Traps i s .mailboxFault x 0) ∧
    (∀ b, fieldW x 9 55 = 0 → s.mbox s.fnode s.pIdx n = some b → b.owner.core ≠ s.fcore →
      ∀ i ∈ [Instr.mpop d m, .mpopv d m, .mpeek d m], Traps i s .mailboxFault x 0) ∧
    (∀ b, fieldW x 9 55 = 0 → s.mbox s.fnode s.pIdx n = some b → b.owner.core = s.fcore →
      let A := fun (k : Nat) => spadAddr s.fnode s.pIdx (b.ring + b.esize * b.head + k); let off := if b.half then 32 else 0
      let lost := fun (k : Nat) => localVa (b.ring + b.esize * b.head + k); let gone := s.c.wait = some .mailbox ∧ s.cur ∉ b.waits
      let b1 : Mbox := { b with head := (b.head + 1) % b.size, held := b.held - 1, freed := b.freed + 1, half := false, srcs := b.srcs.drop 1 }
      Completes (.mpeek d m) s (ResultX d (BitVec.ofNat 64 (2 ^ 63 + b.handler.isSome.toNat * 2 ^ 13 + b.held % 2 ^ 13)) s) ∧
      (b.esize ≠ 8 → Traps (.mpop d m) s .mailboxFault x 0) ∧ (b.esize < 32 → Traps (.mpopv d m) s .mailboxFault x 0) ∧
      (gone → ∀ i ∈ [Instr.mpop d m, .mpopv d m], Traps i s .mailboxFault x 0) ∧
      (b.esize = 8 → b.held = 0 → ¬gone → Waits (.mpop d m) s .mailbox) ∧ (32 ≤ b.esize → b.held = 0 → ¬gone → Waits (.mpopv d m) s .mailbox) ∧
      (b.held ≠ 0 → ¬gone →
        (b.esize = 8 → s.lostWordIn (A 0) 8 = true → Traps (.mpop d m) s .dataLost (BitVec.ofNat 64 (lost 0)) 0) ∧
        (32 ≤ b.esize → s.lostWordIn (A off) 32 = true → Traps (.mpopv d m) s .dataLost (BitVec.ofNat 64 (lost off)) 0) ∧
        (b.esize = 8 → s.lostWordIn (A 0) 8 = false → Completes (.mpop d m) s (fun t => t.mem = s.mem ∧ t.c.v = s.c.v ∧
          t.mbox s.fnode s.pIdx n = some b1 ∧ XIs s t d (BitVec.ofNat 64 (memRead s.mem (A 0) 8)))) ∧
        (b.esize = 32 ∨ b.esize = 64 → s.lostWordIn (A off) 32 = false → Completes (.mpopv d m) s (fun t => t.mem = s.mem ∧ t.c.x = s.c.x ∧
          (∀ r, r ≠ d → t.c.vr r = s.c.vr r) ∧ t.mbox s.fnode s.pIdx n = some (if b.esize = 64 ∧ b.half = false then { b with half := true } else b1) ∧
          t.c.vr d = BitVec.ofNat 256 (memRead s.mem (A off) 32)))))) ∧
  (∀ (s u : State) (d a : Reg) (w0 w1 w2 w3 : Nat), s.c.ra = false →
    (recordAlign (s.X a).toNat 32 32 = .ok () → s.readWords (s.X a).toNat 4 = .ok (u, [w0, w1, w2, w3]) → u.c = { s.c with surveyed := u.c.surveyed } → u.cur = s.cur →
      let m := fieldN w0 48 9; let e := entryBytes (fieldN w0 32 2); let k := fieldN w0 40 8; let la := fieldN w0 0 32
      (fieldN w0 32 2 = 3 ∨ fieldN w0 34 6 ≠ 0 ∨ k = 0 ∨ 12 < k ∨ 511 < fieldN w0 48 16 ∨ (s.sys = false ∧ fieldN w0 48 16 = 511) ∨ fieldN w1 0 2 ≠ 0 ∨ w2 ≠ 0 ∨ w3 ≠ 0 → Completes (.mbind d a) s (fun t =>
        XIs s t d 2 ∧ t.polders = u.polders ∧ t.mem = u.mem)) ∧
      (fieldN w0 34 6 = 0 → fieldN w0 32 2 ≠ 3 → 1 ≤ k → k ≤ 12 → fieldN w0 48 16 < 511 ∨ (s.sys = true ∧ fieldN w0 48 16 = 511) → fieldN w1 0 2 = 0 → w2 = 0 → w3 = 0 →
        ((u.mbox s.fnode s.pIdx m).isSome = true → Completes (.mbind d a) s (fun t => XIs s t d 1 ∧ t.polders = u.polders ∧ t.mem = u.mem)) ∧
        (u.mbox s.fnode s.pIdx m = none → fieldN la 29 3 ≠ 2 ∨ la % 64 ≠ 0 ∨ 4 * 2 ^ 20 < fieldN la 0 29 + e * 2 ^ k ∨
            (∃ x ∈ u.pol.mboxes, la < x.2.ring + x.2.esize * x.2.size ∧ x.2.ring < la + e * 2 ^ k) →
          Completes (.mbind d a) s (fun t => XIs s t d 2 ∧ t.polders = u.polders ∧ t.mem = u.mem)) ∧
        (u.mbox s.fnode s.pIdx m = none → fieldN la 29 3 = 2 → la % 64 = 0 → fieldN la 0 29 + e * 2 ^ k ≤ 4 * 2 ^ 20 →
          (∀ x ∈ u.pol.mboxes, la + e * 2 ^ k ≤ x.2.ring ∨ x.2.ring + x.2.esize * x.2.size ≤ la) →
          Completes (.mbind d a) s (fun t => t.mem = u.mem ∧ XIs s t d (BitVec.ofNat 64 (s.fnode * 2 ^ 52 + s.fcore / 256 * 2 ^ 49 + s.fcore / 8 % 32 * 2 ^ 44 +
              s.fcore % 8 * 2 ^ 41 + s.cc.slot * 2 ^ 37 + s.c.gen.toNat * 2 ^ 25 + m * 2 ^ 16)) ∧
            t.mbox s.fnode s.pIdx m = some ⟨s.cur, s.c.gen, la, e, k, BitVec.ofNat 64 w1, 0, 0, 0, 0, false, [], none, [], [],
              u.pol.binds + 1⟩)))) ∧
    (let n := fieldW (s.X a) 0 9
     ∀ b, s.mbox s.fnode s.pIdx n = some b →
      (b.owner = s.cur ∨ s.sys = true → Completes (.mfree d a) s (fun t => XIs s t d 0 ∧ t.mem = s.mem ∧ t.mbox s.fnode s.pIdx n = none)) ∧
      (b.owner ≠ s.cur → s.sys = false → Completes (.mfree d a) s (ResultX d 1 s))))

/-- R395, R396, R398, R401: a TSEND or TBWD whose token the slot manager has accepted completes: status OK with its SEQ, version and replica, and its pair is no
longer pending. Before that, with well-formed operands: a name that the package's legend does not hold gives NONAME, a TSEND without a serving replica NOREPLICA, a TBWD of
a replica that is free or being created STALE, a row longer than the entry's slots raises TOKEN_FAULT, a replica's node that is fenced gives DEAD, and a row that is lost, which is read
last, DATA_LOST; else the slot asks for a credit with its next SEQ, and waits. Without a credit it gives FULL once its time-out has passed; with its credit
granted it sends the row of its A-space address as one token, and waits for acceptance. A node fenced meanwhile gives DEAD. Status words name only the fields
that their rule names (log entry 19). -/
def Obligations.TokensAreSentAndAccepted : Prop :=
  ∀ (s : State) (d a b : Reg), s.c.ra = false →
    let T := s.X a; let A := s.X b; let n := 32 * (fieldW T 35 11 + 1); let src := fieldW A 0 32; let N := fieldW T 0 24
    let lost := s.lostWordIn (spadAddr s.fnode s.pIdx src) n
    let ends := fun (i : Instr) (w : Word) => Completes i s (fun t =>
      Leaves ((s.setC { s.c with pending := none, tok := none }).setX d w) t ∧ t.c.tok = none)
    ∀ e ∈ [(Instr.tsend d a b, true), (.tbwd d a b, false)],
      (fieldW T 24 11 ≠ 0 → Traps e.1 s .tokenFault T 0) ∧
      (tokOperands T A e.2 = .ok () →
        (∀ w, s.c.tok = some w → w.stage = 3 → ends e.1 (BitVec.ofNat 64 (w.seq.toNat * 2 ^ 32 + w.ver % 4096 * 2 ^ 20 + w.r % 16 * 2 ^ 16))) ∧
        (s.c.tok = none →
          (s.legend s.fnode N = none → ends e.1 2) ∧ (∀ E, s.legend s.fnode N = some E → entV E = false → ends e.1 2) ∧
          (∀ E, s.legend s.fnode N = some E → entV E = true →
            (e.2 = true → s.chooseReplica s.cur E = none → ends e.1 3) ∧
            (e.2 = false → repState E (fieldW T 46 4) < 2 → ends e.1 5) ∧
            (∀ r, (if e.2 then s.chooseReplica s.cur E = some r else r = fieldW T 46 4 ∧ 2 ≤ repState E r) →
              (entSlotm1 E < fieldW T 35 11 → Traps e.1 s .tokenFault T 0) ∧
              (fieldW T 35 11 ≤ entSlotm1 E →
                (s.deadNode (repNode E r) = true → ends e.1 4) ∧
                (s.deadNode (repNode E r) = false → (lost = true → Traps e.1 s .dataLost (BitVec.ofNat 64 (localVa src)) 0) ∧
                  (lost = false → s.c.pending = none → Completes e.1 s (fun t => (t.ctx s.cur).st = .stalled ∧ (t.ctx s.cur).wait = some .token ∧
                    (t.ctx s.cur).seq = s.c.seq + 1 ∧ (t.ctx s.cur).pending = some ⟨s.c.seq + 1, r, T, A⟩ ∧ t.mem = s.mem ∧ t.tokens = s.tokens ∧
                    (t.ctx s.cur).tok = some ⟨0, N, r, s.c.seq + 1, 0, repNode E r, repPolder E r, entVer E, entEpoch E⟩))))))) ∧
        (∀ w, s.c.tok = some w → w.stage < 3 →
          (s.deadNode w.node = true → ends e.1 4) ∧
          (s.deadNode w.node = false →
            (w.stage = 0 → (s.c.expired = false → Waits e.1 s .token) ∧ (s.c.expired = true → ends e.1 (tokWord w.seq.toNat w.ver w.r 1))) ∧
            (∀ v, w.stage = 1 → s.portRead s.fnode s.pIdx src n (localVa src) = .ok v → Completes e.1 s (fun t =>
              (t.ctx s.cur).st = .stalled ∧ (t.ctx s.cur).wait = some .token ∧ t.mem = s.mem ∧ (t.ctx s.cur).tok = some { w with stage := 2 } ∧
              t.tokens = s.tokens ++ [⟨w.name, w.r, w.seq, w.ver, s.cur, fieldW T 50 14, src, fieldW A 32 32, !e.2, n, v, w.node, w.polder, w.part, w.epoch⟩])) ∧
            (w.stage = 2 → Waits e.1 s .token))))

/-- R390, R394, R403 to R405: XQUERY gives the 8-byte word of the legend entry that it names, 0 of a name not held. XJOIN and XVER give NONAME of a name not held and NOTOWNER outside REP0's polder; in it XJOIN
raises JBAR's expectation by GLEN for each replica that serves or drains and gives their mask, and XVER raises VER by one. XCREATE and XRETIRE, of the system context, give NONAME of a name not held, NOROOM without
a free replica or donor, STALE of a replica that does not serve, and else start a creation or a drain, with OK; in user mode they raise PRIVILEGE. TRET of a slot without a tag gives STALE; of a
tagged one it sends the result row to the token's origin and gives OK. -/
def Obligations.NameInstructionsAndTokenReturn : Prop :=
  ∀ (s : State) (d a b : Reg), s.c.ra = false →
    let N := fieldW (s.X a) 0 24
    (fieldW (s.X a) 24 40 = 0 → fieldW (s.X b) 4 60 = 0 → Completes (.xquery d a b) s (ResultX d (match s.legend s.fnode N with
      | some e => BitVec.ofNat 64 (e / 2 ^ (64 * (s.X b).toNat) % 2 ^ 64)
      | none => 0) s)) ∧
    (s.legend s.fnode N = none → ∀ i ∈ [Instr.xjoin d a, .xver d a], Completes i s (ResultX d 2 s)) ∧
    (∀ e, s.legend s.fnode N = some e →
      (repNode e 0 ≠ s.fnode ∨ repPolder e 0 ≠ s.pIdx → ∀ i ∈ [Instr.xjoin d a, .xver d a], Completes i s (ResultX d 6 s)) ∧
      (repNode e 0 = s.fnode → repPolder e 0 = s.pIdx →
        Completes (.xjoin d a) s (fun t => t.mem = (s.barAdd s.fnode s.pIdx (mLocal (entJbar e)) ((repMask e).length * entGlen e : Nat) none).mem ∧
          XIs s t d (joinWord (maskOf (repMask e)) (entVer e) 0)) ∧
        (s.portStores s.cur = false → s.c.poolStores = [] → Completes (.xver d a) s (fun t =>
          XIs s t d (joinWord (maskOf (repMask e)) ((entVer e + 1) % 4096) 0) ∧ (t.legend s.fnode N).map entVer = some ((entVer e + 1) % 4096))))) ∧
    (s.sys = true → (s.ownerEntry s.fnode N = none → ∀ i ∈ [Instr.xcreate d a, .xretire d a b], Completes i s (ResultX d 2 s)) ∧
      (∀ e, s.ownerEntry s.fnode N = some e →
        (s.createReplica (repNode e 0) N e = none → Completes (.xcreate d a) s (ResultX d 7 s)) ∧
        (∀ u r, s.createReplica (repNode e 0) N e = some (u, r) → Completes (.xcreate d a) s (fun t =>
          XIs s t d 0 ∧ t.dies = u.dies ∧ t.polders = u.polders ∧ t.mem = u.mem)) ∧
        (let r := (s.X b).toNat
         (r = 0 ∨ 15 < r ∨ repState e r ≠ 2 → Completes (.xretire d a b) s (ResultX d 5 s)) ∧
         (1 ≤ r → r ≤ 15 → repState e r = 2 → Completes (.xretire d a b) s (fun t => XIs s t d 0 ∧
           (entCreate e = 0 → t.mem = s.mem) ∧ (t.legend (repNode e 0) N).map (fun x => repState x r) = some 3))))) ∧
    (s.sys = false → ∀ i ∈ [Instr.xcreate d a, .xretire d a b], Traps i s .privilege (wordOf (encodeFirst i)) 0) ∧
    (∀ m e v, Memory.wf s.mem = true → fieldW (s.X a) 36 28 = 0 → fieldW (s.X b) 30 34 = 0 → fieldW (s.X b) 25 4 = 0 → fieldW (s.X b) 0 5 = 0 → s.repl s.fnode s.pIdx N = some m → s.legend s.fnode N = some e →
      m.tomb = none → entPerm e = false →
      let k := fieldW (s.X a) 24 12; let tag := mLocal (entTgbase e + 16 * k)
      let t0 := memRead s.mem (spadAddr s.fnode s.pIdx tag) 8; let t1 := memRead s.mem (spadAddr s.fnode s.pIdx (tag + 8)) 8
      let lost := s.lostWordIn (spadAddr s.fnode s.pIdx tag) 16
      (entNslot e ≤ k ∨ (lost = false ∧ fieldN t0 20 1 = 0) → Completes (.tret d a b) s (ResultX d 5 s)) ∧
      (k < entNslot e → lost = true → Traps (.tret d a b) s .dataLost (BitVec.ofNat 64 (localVa tag)) 0) ∧
      (k < entNslot e → lost = false → fieldN t0 20 1 = 1 → s.deadNode (fieldN t0 52 12) = false → fieldW (s.X b) 0 29 + entRetBytes e ≤ spaceSize (fieldW (s.X b) 29 3) →
        s.portRead s.fnode s.pIdx (s.X b).toNat (entRetBytes e) (localVa (s.X b).toNat) = .ok v →
        Completes (.tret d a b) s (fun t => XIs s t d 0 ∧
          t.results = s.results ++ [⟨fieldN t0 52 12, fieldN t0 41 11, 32 * fieldN t1 14 18, mLocal (16 * fieldN t0 0 18), entRetBytes e, v, tokKey N (fieldN t0 33 4), s.fnode, s.fcore⟩] ∧
          memRead t.mem (spadAddr s.fnode s.pIdx tag) 8 = t0 - 2 ^ 20)))

/-- R117, R118: XMIG of a leaf of 64 KB or more whose new frame is legal sets M in the entry and waits; once no lock is held and no near-memory operation is open in the old frame it copies the page's bytes to the new
frame, and waits; then the entry names the new frame, with GEN one more and M clear; after the invalidation of the page it ends with status 0 and its record is gone. A page with M set by another gives 4. The stages across attempts are the model's (log entry 29). -/
def Obligations.MigrationCopiesSwitchesAndEnds : Prop :=
  ∀ (s u : State) (d a b : Reg) (m : Mig), s.c.ra = false → s.sys = true → Memory.wf s.mem = true →
    m.id = s.cur → m.asid = s.c.asid → m.va = s.X a → m.new = fieldW (s.X b) 16 42 * 65536 →
    (let w := s.walk s.req (s.X a).toNat
     s.migs = [] → isAperture (s.X a).toNat = false → isCanonical (s.X a).toNat = true → w.why = .leaf → 3 ≤ w.level →
     s.badFrame s.fnode (s.X b) (pteFrame w.entry) (pageSize w.level) = false →
     (pteM w.entry = true → Completes (.xmig d a b) s (ResultX d 4 s)) ∧
     (pteM w.entry = false → paClass w.eaddr = 0 → s.nmHolds w.eaddr = false → ∃ t, exec (.xmig d a b) s = .next t ∧ (t.ctx s.cur).st = .stalled ∧
       memRead t.mem w.eaddr 8 = (w.entry ||| 0x80).toNat ∧ (∀ i, i < w.eaddr ∨ w.eaddr + 8 ≤ i → memGet t.mem i = memGet s.mem i) ∧ t.migs.length = 1)) ∧
    (s.migs = [m] →
      (m.copied = false → m.switched = false → s.locks = [] → s.nmOps = [] → paClass m.old = 0 → paClass m.new = 0 → (s.pkg s.fnode).poolDirty = [] → (s.pkg s.fnode).poolSent = [] →
        m.new + m.size ≤ m.old ∨ m.old + m.size ≤ m.new → ∃ t, exec (.xmig d a b) s = .next t ∧ (t.ctx s.cur).st = .stalled ∧ t.migs = [{ m with copied := true }] ∧
          (∀ i, i < m.size → memGet t.mem (m.new + i) = memGet s.mem (m.old + i)) ∧ (∀ i, i < m.new ∨ m.new + m.size ≤ i → memGet t.mem i = memGet s.mem i)) ∧
      (m.copied = true → m.switched = false → paClass m.eaddr = 0 → s.readEntry s.fnode m.eaddr = m.entry → s.nodeFail s.fnode m.eaddr = none →
        s.nmHolds m.eaddr = false → s.frozen m.eaddr = false →
        ∃ t, exec (.xmig d a b) s = .next t ∧ (t.ctx s.cur).st = .stalled ∧ t.migs = [{ m with switched := true }] ∧
          memRead t.mem m.eaddr 8 = (switched m.entry m.new).toNat ∧ ∀ i, i < m.eaddr ∨ m.eaddr + 8 ≤ i → memGet t.mem i = memGet s.mem i) ∧
      (∀ v, m.switched = true → s.fenceFull m.scope = .ok v → v.xinvPage m.scope m.va.toNat = .ok u → u.cur = s.cur → u.c.x = s.c.x → Completes (.xmig d a b) s (fun t =>
        XIs s t d 0 ∧ t.mem = u.mem ∧ ∀ x ∈ t.migs, x.id ≠ s.cur))) ∧
    (∀ (e : Word) (k : Nat), k < 2 ^ 42 → pteFrame (switched e (65536 * k)) = 65536 * k ∧ pteM (switched e (65536 * k)) = false ∧
      pteGen (switched e (65536 * k)) = (pteGen e + 1) % 64 ∧ pteV (switched e (65536 * k)) = pteV e ∧ pteD (switched e (65536 * k)) = pteD e ∧
      pteClass (switched e (65536 * k)) = pteClass e)

/-! ## Steps of units that no instruction takes. The operands of an event stand in `State.ev`. -/

/-- R34, R361, R281 to R283, R242, R236, R239, R191 to R193, R106, R118, R334, R422, R132: the steps of the issue of a core, of the vector unit, of stream ports, of a scratchpad's port and trace
ring, and the time-outs of waits: what each makes of the unit that it names. -/
def Obligations.EventsOfCoresVectorsAndStreams : Prop :=
  ∀ s : State, let e := s.ev; let q := s.core e.node e.core; let pol := s.polder e.node e.n; let id := e.id; let r : Reg := BitVec.ofNat 5 e.n
    (∀ j, (rotation q.slot).find? (fun j => s.runnable e.node e.core j) = some j →
      ((s.ctx ⟨e.node, e.core, q.slot⟩).st ≠ .ready → Completes .slotSwitch s (fun t => (t.core e.node e.core).slot = j ∧ (t.core e.node e.core).run = 0 ∧
        t.ctxs = s.ctxs ∧ t.mem = s.mem)) ∧
      (256 ≤ q.run → Completes .issueQuantum s (fun t => (t.core e.node e.core).slot = j ∧ (t.core e.node e.core).run = 0 ∧ t.ctxs = s.ctxs ∧ t.mem = s.mem))) ∧
    (q.run < 256 → Completes .issueQuantum s (fun t => t = s)) ∧
    (pol.starved = true → Completes .vectorBind s (fun t => (t.polder e.node e.n).starved = false ∧ t.cores = s.cores ∧ t.ctxs = s.ctxs)) ∧
    (∀ k x, pol.starved = false → (s.pkg e.node).retired = [] → k < 8 → x.bound = false → (s.core e.node (8 * e.n + k)).vq = [x] →
      (s.core e.node (8 * e.n + k)).deficit = 0 → (s.core e.node (8 * e.n + k)).vshare ≠ 0 → (∀ j, j < 8 → j ≠ k → (s.core e.node (8 * e.n + j)).vq = []) →
      Completes .vectorBind s (fun t => (t.core e.node (8 * e.n + k)).vq = [{ x with bound := true }] ∧ t.ctxs = s.ctxs ∧ t.mem = s.mem)) ∧
    (∀ x l, q.vq = x :: l → x.bound = true → Completes .vectorResultWrite s (fun t => (t.core e.node e.core).vq = l ∧ t.ctxs = s.ctxs ∧ t.mem = s.mem)) ∧
    Completes .memoryReturnWrite s (fun t => (t.polder e.node e.n).returns = pol.returns.drop 1 ∧ t.ctxs = s.ctxs ∧ t.mem = s.mem) ∧
    (pol.returns ≠ [] → Completes .returnStarvation s (fun t => (t.polder e.node e.n).starved = true ∧ t.ctxs = s.ctxs ∧ t.mem = s.mem)) ∧
    (∀ p u v, (s.ctx id).portOf r = some p → p.write = false → p.fetched.length < 4 → p.fetched.length < p.remain →
      (s.setCtx id { s.ctx id with surveyed := [] }).vecLoad (s.reqOf id) (p.va (p.k + p.fetched.length)) p.typ.toNat false = .ok (u, v, 0) →
        u.ctx id = { s.ctx id with surveyed := (u.ctx id).surveyed } → Completes .streamElementFetch s (fun t =>
        t.mem = u.mem ∧ (t.ctx id).v = (s.ctx id).v ∧ (t.ctx id).portOf r = some { p with fetched := p.fetched ++ [(p.k + p.fetched.length, v)] })) ∧
    (∀ p, (s.ctx id).portOf r = some p → let waits := (p.buffered.take 1).any (fun x => s.appendWaits id (s.ctx id).gen r.toNat x.1)
      (waits = false → Completes .streamAppendPerformed s (fun t => t.mem = s.mem ∧ (t.ctx id).portOf r = some { p with buffered := p.buffered.drop 1 })) ∧
      (waits = true → Completes .streamAppendPerformed s (fun t => t = s.enq .streamAppendPerformed e))) ∧
    (∀ x ∈ (if e.flag then [] else [(Instr.walkMigratingTimeout, id, Wait.migration)]) ++ [(Instr.migrationHoldTimeout, id, Wait.migration), (.sendTimeout, id, .send), (.wfeTimeout, ⟨e.node, e.core, 11⟩, .wfe)],
      (s.ctx x.2.1).st = .stalled → (s.ctx x.2.1).wait = some x.2.2 → Completes x.1 s (fun t => t.ctx x.2.1 = { s.ctx x.2.1 with expired := true } ∧
        (∀ i, i ≠ x.2.1 → t.ctx i = s.ctx i) ∧ t.cores = s.cores ∧ t.mem = s.mem)) ∧
    (e.flag = true → (e.n ≠ 1 → Completes .walkMigratingTimeout s (fun t => e.m ∈ t.late ∧ t.ctxs = s.ctxs ∧ t.mem = s.mem)) ∧
      (e.n = 1 → Completes .walkMigratingTimeout s (fun t => (∀ o ∈ t.nmOps, o.id = id → o.stage = .returned → o.late = true) ∧ t.ctxs = s.ctxs ∧ t.mem = s.mem))) ∧
    (e.flag = true → ∀ w : PortWrite, pol.portQ = [w] →
      (s.scoreboardHit e.node e.n w.la w.n = false → s.appendBefore w = false → Completes .scratchpadPortAccess s (fun t => t.mem = memWrite s.mem (spadAddr e.node e.n w.la) w.n w.v ∧
        (t.polder e.node e.n).portQ = [])) ∧
      (s.scoreboardHit e.node e.n w.la w.n = true ∨ s.appendBefore w = true → Completes .scratchpadPortAccess s (fun t => t.mem = s.mem ∧ (t.polder e.node e.n).portQ = [w]))) ∧
    (∀ i ∈ (if e.flag then [] else [Instr.scratchpadPortAccess]) ++ [Instr.scoreboardRelease], (s.ctx id).st = .stalled → (s.ctx id).wait = some .resource →
      Completes i s (fun t => t.ctx id = { s.ctx id with st := .ready, wait := none } ∧ t.mem = s.mem)) ∧
    Completes .contentionDecay s (fun t => (t.core e.node e.core).l1 = q.l1.map (fun l => if l.pline = lineOf e.pa then { l with cont := l.cont - 1 } else l) ∧ t.mem = s.mem) ∧
    Completes .traceRingControl s (fun t => let g := (t.polder e.node e.n).ring; t.mem = s.mem ∧ g.en = (fieldW e.w 31 1 == 1) ∧ (fieldW e.w 29 1 = 1 → (∀ x ∈ g.ents, x.2.v = false) ∧ g.head = 0) ∧
      (fieldW e.w 29 1 = 0 → g.ents = pol.ring.ents ∧ g.head = pol.ring.head)) ∧
    Completes .clr s (fun t => let g := (t.polder e.node e.n).ring; (∀ x ∈ g.ents, x.2.v = false) ∧ g.ents.map (fun x => (x.1, { x.2 with v := false })) =
      pol.ring.ents.map (fun x => (x.1, { x.2 with v := false })) ∧ g.head = 0 ∧ t.mem = s.mem)

/-- R63, R64, R67, R71, R72, R87, R109, R121, R122, R124, R154, R182, R442: the steps of the homes and the base dies: requests and returned prefetches, write-backs, the setting of A and D, the scrub with errors in the
symbols of no, one, two or more dies, near-memory operations on their way, the device's snoops with their responses, and an access of the host's window. -/
def Obligations.EventsOfHomesAndBaseDies : Prop :=
  ∀ s : State, Memory.wf s.mem = true → let e := s.ev; let pl := lineOf e.pa; let q := s.core e.node e.core
    (s.frozen pl = true ∨ s.nmHolds pl = true → Completes .coherentRequestAtHome s (fun t => t = s.enq .coherentRequestAtHome e)) ∧
    (s.frozen pl = false → s.nmHolds pl = false →
      (e.flag = true → Completes .coherentRequestAtHome s (fun t => (t.core e.node e.core).misses = q.misses.erase (BitVec.ofNat 16 e.w.toNat, e.m) ∧ t.ctxs = s.ctxs ∧ t.mem = s.mem)) ∧
      (e.flag = false → e.n = 0 → Completes .coherentRequestAtHome s (fun t => t.mem = s.mem ∧ Merged s t pl)) ∧
      (e.flag = false → e.n = 1 → Completes .coherentRequestAtHome s (fun t => t.mem = s.mem ∧
        Recalled s t pl (if q.tracks pl = [] then none else some (e.node, e.core)) ∧ ∀ l, (q.tracks pl).head? = some l → l ∈ (t.core e.node e.core).l1)) ∧
      (e.flag = false → 2 ≤ e.n → Completes .coherentRequestAtHome s (fun t => t.mem = s.mem ∧ Recalled s t pl none))) ∧
    (e.flag = false → Completes .dirtyWriteback s (fun t => t.mem = s.mem ∧ ∀ l ∈ (t.core e.node e.core).l1, l.pline = pl → l.st ≠ .owned)) ∧
    (e.flag = true → Completes .dirtyWriteback s (fun t => t.mem = s.mem ∧ ∀ l ∈ (t.core e.node e.core).l1, l.pline = pl → l.st = .untracked)) ∧
    (s.nmHolds e.pa = true ∨ s.frozen e.pa = true → Completes .setAd s (fun t => t = s.enq .setAd e)) ∧
    (paClass e.pa = 0 → s.nmHolds e.pa = false → s.frozen e.pa = false → let cur := s.readEntry e.node e.pa
      (s.nodeFail e.node e.pa = none → s.moving e.pa = false → pteV cur = true → pteL cur = true → pteGen cur = pteGen e.w → pteFrame cur = pteFrame e.w → Completes .setAd s (fun t =>
        memRead t.mem e.pa 8 = (cur ||| (if e.flag then 0x60 else 0x20)).toNat ∧ ∀ i, i < e.pa ∨ e.pa + 8 ≤ i → memGet t.mem i = memGet s.mem i)) ∧
      (s.nodeFail e.node e.pa ≠ none ∨ s.moving e.pa = true ∨ pteV cur = false ∨ pteL cur = false ∨ pteGen cur ≠ pteGen e.w ∨ pteFrame cur ≠ pteFrame e.w → Completes .setAd s (fun t => t = s))) ∧
    (paClass e.pa ≠ 0 → Completes .patrolScrub s (fun t => t = s)) ∧
    (paClass e.pa = 0 → let n := if e.flag then 2 else e.n; let home := fun (t : State) => t.pkg (paNode e.pa)
      (n = 0 → Completes .patrolScrub s (fun t => t = s)) ∧
      (n = 1 → Completes .patrolScrub s (fun t => tget 0 (home t).corrected (6, hbmUnit e.pa) = tget 0 (home s).corrected (6, hbmUnit e.pa) + 1 ∧
        (6, hbmUnit e.pa) ∈ (home t).testing ∧ t.mem = s.mem ∧ t.lost = s.lost)) ∧
      (n = 2 → Completes .patrolScrub s (fun t => (t.isLost e.pa = true ↔ s.dirtyMask pl ≠ BitVec.allOnes 64) ∧ (6, hbmUnit e.pa) ∈ (home t).testing ∧ t.mem = s.mem ∧
        (home t).errNext = ((home s).errNext + 1) % 4096)) ∧
      (3 ≤ n → let a := e.pa / 32 * 32; Completes .patrolScrub s (fun t => memRead t.mem a 32 = e.v.toNat ∧ t.lost = s.lost ∧ ∀ i, i < a ∨ a + 32 ≤ i → memGet t.mem i = memGet s.mem i))) ∧
    (∀ o : NmOp, s.nmOps = [o] → lineOf o.pa = pl →
      (o.stage = .sent → s.frozen pl = false → Completes .nearMemoryForward s (fun t => t.nmOps = [{ o with stage := .forwarded }] ∧ Recalled s t pl none ∧ t.mem = s.mem)) ∧
      (o.stage = .applied → o.piece = none → (s.ctx o.id).gen = o.cgen → (s.ctx o.id).st ≠ .free → Completes .nearMemoryAck s (fun t => t.nmOps = [] ∧ t.mem = s.mem ∧
        t.ctx o.id = { s.ctx o.id with nmPending := (s.ctx o.id).nmPending - 1, nmErrors :=
           match o.err with | some c => (s.ctx o.id).nmErrors ++ [⟨c, o.va, paNode o.pa⟩] | none => (s.ctx o.id).nmErrors })) ∧
      (∀ u x, o.stage = .returned → o.pa = e.pa → o.id = e.id → u.nmOps = s.nmOps →
        s.nmPlace { id := o.id, asid := o.asid, ptroot := o.ptroot, user := o.id.slot % 16 != 11, ra := false, engine := true, cmd := o.piece.map (·.1) } o.va.toNat (nmBytes o.op o.vec) = .ok (u, x) →
        Completes .nearMemoryReturn s (fun t => t.mem = u.mem ∧ t.nmOps = [{ o with pa := x.pa, mapGen := x.gen, stage := .sent, late := false }]))) ∧
    (e.n ≤ 1 → let rsp := fun (t : State) => (t.pkg e.node).biRsp; let written := fun (t : State) => (s.regionHome e.node (paOff pl)).isSome = true → (t.pkg e.node).poolMask pl = 0
      Completes .bisnpinv s (fun t => Recalled s t pl none ∧ rsp t = some (pl, 0) ∧ written t) ∧
      Completes .bisnpdata s (fun t => Merged s t pl ∧ rsp t = some (pl, min (s.heldState pl) 1) ∧ written t) ∧
      Completes .bisnpcur s (fun t => (∀ n k l, l ∈ (t.core n k).l1 → l.pline = pl → l.dirty = 0) ∧ (∀ n d k l, l ∈ (t.slice n d k).lines → l.pline = pl → l.dirty = 0) ∧
        t.dirs = s.dirs ∧ rsp t = some (pl, s.heldState pl) ∧ written t)) ∧
    (let a := e.node * 2 ^ 46 + fieldW (s.pkg e.node).bar2 36 8 * 2 ^ 36 + e.pa % 2 ^ 36
     paOff a < hbmLimit → paClass a = 0 → a % 64 + e.m ≤ 64 → s.hostBehind e true = false → s.frozen (lineOf a) = false → s.nmOps = [] →
      (e.flag = true → Completes .bar2Access s (fun t => memRead t.mem a e.m = e.v.toNat % 256 ^ e.m ∧ ∀ i, i < a ∨ a + e.m ≤ i → memGet t.mem i = memGet s.mem i)) ∧
      (e.flag = false → Completes .bar2Access s (fun t => t.mem = s.mem)))

/-- R84 to R96: the pool's steps: an entry is enabled, disabled, detached, reattached, released, its log cleared, its decoder checked; a port's loss, a request's time-out and FORCELOST take regions to LOST, and a device's completion
performs a line's stores. -/
def Obligations.EventsOfThePool : Prop :=
  ∀ s : State, let e := s.ev; let r := s.region e.node e.n; let v := e.w.toNat; let pl := lineOf e.pa
    let after := fun (t : State) => t.region e.node e.n
    (r.st = .free → fieldN v 63 1 = 1 → fieldN v 60 3 = 0 → fieldN v 44 12 = 0 → fieldN v 16 12 = 0 → fieldN v 0 16 ≠ 0 → fieldN v 28 16 + fieldN v 0 16 ≤ 65536 →
      (∀ x ∈ (s.pkg e.node).regions, x.1 ≠ e.n → x.2.en = true → fieldN v 28 16 + fieldN v 0 16 ≤ x.2.base ∨ x.2.base + x.2.size ≤ fieldN v 28 16) →
      (s.pkg e.node).poolUp.toList.getD (fieldN v 58 2) false = true → Completes .regionEnable s (fun t => (after t).st = .attached ∧ (after t).en = true ∧ (after t).cfgerr = false ∧
        (after t).base = fieldN v 28 16 ∧ (after t).size = fieldN v 0 16 ∧ (after t).port = fieldN v 58 2)) ∧
    (r.st ≠ .free → Completes .regionEnable s (fun t => after t = { r with cfgerr := true })) ∧
    (r.st = .attached → fieldN v 63 1 = 0 → r.detaching = false → (regionZero0 v = true → Completes .regionDisable s (fun t => after t = { r with detaching := true, cfgerr := false })) ∧
      (regionZero0 v = false → Completes .regionDisable s (fun t => after t = { r with cfgerr := true }))) ∧
    (r.st = .attached → r.detaching = true → Completes .regionDetachDone s (fun t => (after t).en = false ∧ (after t).st = .free)) ∧
    (r.st = .lost → (s.pkg e.node).poolUp.toList.getD r.port false = true → Completes .reattach s (fun t => after t = { r with st := .reattaching, cfgerr := false })) ∧
    (r.st ≠ .lost → Completes .reattach s (fun t => after t = { r with cfgerr := true }) ∧ Completes .release s (fun t => after t = { r with cfgerr := true })) ∧
    (r.st = .lost → Completes .release s (fun t => (after t).st = .free ∧ (after t).en = false ∧ (after t).quar = [] ∧ (after t).dropped = min (r.dropped + r.quar.length) 0xFFFFFFFF)) ∧
    Completes .clearlog s (fun t => after t = { r with ffv := false, ffaddr := 0, ffkind := false, dropped := 0, cfgerr := false }) ∧
    (r.st = .reattaching → (e.flag = true → Completes .decoderCheck s (fun t => (after t).st = .attached ∧ (after t).quar = [] ∧ (after t).dropped = min (r.dropped + r.quar.length) 0xFFFFFFFF)) ∧
      (e.flag = false → Completes .decoderCheck s (fun t => after t = { r with st := .lost, cfgerr := true }))) ∧
    (∀ i ∈ [Instr.poolLinkLoss, .poolRequestTimeout], Completes i s (fun t => ∀ k, (s.region e.node k).en = true → (s.region e.node k).port = e.n →
      (s.region e.node k).st = .attached → (t.region e.node k).st = .lost)) ∧
    (e.n < 4 → e.flag = false → Completes .poolLinkLoss s (fun t => (t.pkg e.node).poolUp.toList.getD e.n true = false)) ∧
    (r.en = true → r.st = .attached → Completes .forcelost s (fun t => (after t).st = .lost)) ∧
    (∀ k x, e.flag = true → s.regionHome e.node (paOff pl) = some (k, x) → x.st = .attached →
      (tfind (s.pkg e.node).poolDirty pl = none → Completes .poolDeviceResponse s (fun t => (t.pkg e.node).poolMask pl = 0 ∧
        (∀ id, id.node = e.node → ∀ p ∈ (t.ctx id).poolStores, lineOf p.2 ≠ pl) ∧
        (Memory.wf s.mem = true → pl < 2 ^ 58 → ∀ m, tfind (s.pkg e.node).poolSent pl = some m → ∀ i, i < 64 → m.getLsbD i = true →
          memGet t.mem (s.devKey e.node x (paOff pl) + i) = memGet s.mem (pl + i)))) ∧
      (∀ m, tfind (s.pkg e.node).poolDirty pl = some m → m ≠ 0 → Completes .poolDeviceResponse s (fun t => t.ctxs = s.ctxs ∧ (t.pkg e.node).poolDirty = (s.pkg e.node).poolDirty)))

/-- R155, R161 to R165, R170 to R176: the steps of a lock's home: a request is accepted and granted, queued or refused; a time-out ends a wait; a release hands the lock to the first waiter that is present; the hold limit breaks it; a probe
that comes back gives the youngest waiter of the cycle DEADLOCK. -/
def Obligations.EventsOfLockHomes : Prop :=
  ∀ s : State, let e := s.ev; let id := e.id; let pl := lineOf e.pa
    (∀ r : LockReq, s.lockSent id = some r → let line := r.line; let L := s.lock line; let reply := fun (t : State) => (t.ctx id).lockReply
      Completes .lockRequestResend s (fun t => t.work = s.work ++ [(.lockRequestAccept, { node := e.node, core := e.core, slot := e.slot })] ∧ t.locks = s.locks ∧ t.ctxs = s.ctxs) ∧
      let cut := s.cutOff id.node (paNode line)
      (cut = true → Completes .lockRequestAccept s (fun t => t.locks = s.locks ∧ reply t = some (line, lkLost) ∧ t.mem = s.mem)) ∧
      (cut = false → s.lockHeld id line = true → Completes .lockRequestAccept s (fun t => t.locks = s.locks ∧ reply t = (s.ctx id).lockReply ∧ t.mem = s.mem)) ∧
      (cut = false → s.lockHeld id line = false →
        (tfind s.locks line = none →
          (s.entryRoom line = true → s.isLost line = false → Completes .lockRequestAccept s (fun t => (t.lock line).holder = some id ∧ (t.lock line).scope = r.scope ∧
            reply t = some (line, 0) ∧ t.mem = s.mem)) ∧
          (s.entryRoom line = true → s.isLost line = true → Completes .lockRequestAccept s (fun t => t.locks = s.locks ∧ reply t = some (line, lkLost))) ∧
          (s.entryRoom line = false → Completes .lockRequestAccept s (fun t => t = s))) ∧
        (∀ h, L.holder = some h →
          (L.scope ≠ r.scope ∨ inDomain L.scope L.owner id = false → Completes .lockRequestAccept s (fun t => t.locks = s.locks ∧ reply t = some (line, 5))) ∧
          (L.scope = r.scope → inDomain L.scope L.owner id = true →
            (r.t < lkTryMark → s.waiterRoom line = true → Completes .lockRequestAccept s (fun t => (t.lock line).holder = some h ∧ (t.ctx id).arrived = none ∧
              ∃ w, (t.lock line).waiters = L.waiters ++ [w] ∧ w.id = id ∧ w.absent = false ∧ w.timeout = r.t)) ∧
            (r.t < lkTryMark → s.waiterRoom line = false → Completes .lockRequestAccept s (fun t => t = s)) ∧
            (lkTryMark ≤ r.t → Completes .lockRequestAccept s (fun t => t.locks = s.locks ∧ reply t = some (line, 1)))))) ∧
      (r.t ≠ 0 → r.t < lkTryMark → Completes .lockTimeout s (fun t => reply t = some (line, 1) ∧ t.locks = s.locks))) ∧
    (∀ line l w, s.locks = [(line, l)] → l.waiters = [w] → w.id = id → w.timeout ≠ 0 → Completes .lockTimeout s (fun t =>
      (t.ctx id).lockReply = some (line, 1) ∧ (t.lock line).waiters = [] ∧ t.mem = s.mem)) ∧
    (∀ f, (s.lock pl).rel = some f → s.handLater pl f = false →
      (∀ w l, (s.lock pl).waiters = w :: l → w.absent = false → s.isLost pl = false → Completes .lockRelease s (fun t =>
        (t.lock pl).holder = some w.id ∧ (t.lock pl).waiters = l ∧ (t.lock pl).rel = none ∧ t.mem = s.mem ∧ (t.ctx w.id).lockReply = some (pl, if (s.lock pl).broken then 3 else 0) ∧
        ∀ x ∈ (t.core f.1.node f.1.core).l1, x.pline = pl → x.st = .untracked)) ∧
      (∀ m, tfind s.lost pl = some m → m ||| s.dirtyMask pl ≠ BitVec.allOnes 64 → Completes .lockRelease s (fun t =>
        (t.lock pl).holder = none ∧ (t.lock pl).waiters = [] ∧ t.mem = s.mem ∧ ∀ w ∈ (s.lock pl).waiters, (t.ctx w.id).lockReply = some (pl, lkLost)))) ∧
    (∀ h, (s.lock pl).holder = some h → (s.lock pl).limit ≠ 0 →
      ((s.lock pl).waiters = [] → s.nmHolds pl = false → Completes .holdLimit s (fun t =>
        (t.lock pl).holder = none ∧ (t.lock pl).broken = true ∧ (t.lock pl).rel = none ∧ pl ∈ (t.ctx h).holdBreaks ∧ t.mem = s.mem)) ∧
      (∀ w l, (s.lock pl).waiters = w :: l → w.absent = false → s.isLost pl = false → s.nmHolds pl = false → Completes .holdLimit s (fun t =>
        (t.lock pl).holder = some w.id ∧ (t.lock pl).waiters = l ∧ (t.ctx w.id).lockReply = some (pl, 3) ∧ t.mem = s.mem))) ∧
    (∀ l1 l2 L1 L2 w1 w2, s.locks = [(l1, L1), (l2, L2)] → l1 ≠ l2 → L1.holder = some w2.id → L2.holder = some w1.id → L1.waiters = [w1] → L2.waiters = [w2] →
      w1.id = id → w2.id ≠ id → w1.stamp.toNat < w2.stamp.toNat → Completes .deadlockProbe s (fun t =>
        (t.ctx w2.id).lockReply = some (l2, 4) ∧ (t.lock l2).waiters = [] ∧ t.lock l1 = L1 ∧ t.mem = s.mem))

/-- R206, R211, R215, R222, R224, R226, R227: the steps of a copy engine: the head of the high queue, else of the low one, starts in a free run slot; a running command does its next unit; one that faults stops into a record; the
exchanges of eight cores form, go through their rounds, and time out; a record's command goes back to the head of its queue, or is discarded. -/
def Obligations.EventsOfCopyEngines : Prop :=
  ∀ s : State, let e := s.ev; let q := s.polder e.node e.n; let g := q.engine; let after := fun (t : State) => (t.polder e.node e.n).engine
    (8 ≤ g.run.length ∨ g.exRun.isSome = true ∨ g.exchFirst = true → Completes .engineCommandStart s (fun t => t = s)) ∧
    (∀ c l, g.run.length < 8 → g.exRun = none → g.exchFirst = false → (g.hiQ = c :: l → Completes .engineCommandStart s (fun t => after t = { g with hiQ := l, run := g.run ++ [{ c with started := true }] } ∧ t.mem = s.mem)) ∧
      (g.hiQ = [] → g.loQ = c :: l → Completes .engineCommandStart s (fun t => after t = { g with loQ := l, run := g.run ++ [{ c with started := true }] } ∧ t.mem = s.mem))) ∧
    (∀ c, g.run = [c] → c.no = e.m → c.hw = 0 → c.cmd ≠ 11 →
      (∀ u c', s.engUnit c = .ok (u, c', false) → c'.no = c.no → (u.polder e.node e.n).engine.run = [c] → Completes .enginePiece s (fun t => t.mem = u.mem ∧ (after t).run = [c'] ∧ c.no ∉ t.late)) ∧
      (∀ u c', s.engUnit c = .ok (u, c', true) → c'.no = c.no → c'.cmd = c.cmd → c'.hw = 0 → (u.polder e.node e.n).engine.run = [c] → Completes .enginePiece s (fun t => t.mem = u.mem ∧ (after t).run = [] ∧
        ∀ x ∈ (t.polder e.node e.n).sb ++ (t.polder e.node e.n).rl, x.cmd ≠ c.no)) ∧
      (∀ x v, unitFault s (s.engUnit c) = some (x, v) →
        (c.open_ ≠ 0 → Completes .engineCommandStop s (fun t => t.polders = s.polders ∧ t.mem = s.mem)) ∧
        (c.open_ = 0 → x.ff = none → g.recs = [] → (v.polder e.node e.n).engine = g → Completes .engineCommandStop s (fun t => (after t).run = [] ∧
          tfind (after t).recs 0 = some ⟨x.cause.code, x.place, c.respt, c, false⟩ ∧ t.mem = (v.barFault e.node e.n c.bar).mem))) ∧
      (c.cmd = 0 → c.id.node = e.node → c.id.polder = e.n → fieldW c.g[0] 8 4 = 1 → fieldW c.g[0] 12 4 = 1 →
        let E := 2 ^ fieldW c.g[0] 4 4; let total := c.dims.foldl (fun n d => n * d.1) 1
        let src := (ecpyAt (c.dims.map (fun d => (d.1, d.2.1))) c.a c.pos).toNat; let dst := (ecpyAt (c.dims.map (fun d => (d.1, d.2.2))) c.b c.pos).toNat
        s.lostWordIn (spadAddr e.node e.n src) E = false → s.arrayHolds c 1 (fieldN dst 0 29) E = false →
        s.engUnit c = .ok ((s.spadWrite e.node e.n dst E (memRead s.mem (spadAddr e.node e.n src) E) e.node e.n 0x7FF).barPiece e.node e.n c.bar E 2,
          { c with pos := c.pos + 1 }, decide (total ≤ c.pos + 1)))) ∧
    (let m := g.match8
     (g.heads.length ≠ 8 → m = g ∧ Completes .exchTimeout s (fun t => (after t).exch = [])) ∧
     (g.heads.length = 8 → m.sets = g.sets ++ [g.heads] ∧ (∀ c ∈ m.exch, c ∉ g.heads) ∧ Completes .exchTimeout s (fun t => t = s)) ∧
     (m.sets = [] ∨ m.exRun.isSome = true ∨ m.exchFirst = false ∨ m.run ≠ [] → Completes .exchangeForm s (fun t => after t = m ∧ t.mem = s.mem)) ∧
     (∀ l rest, m.sets = l :: rest → m.exRun = none → m.exchFirst = true → m.run = [] →
      (m.exchOk l = true → Completes .exchangeForm s (fun t => after t = { m with sets := rest, exRun := some ⟨l, 0, [], []⟩ } ∧ t.mem = s.mem)) ∧
      (m.exchOk l = false → Completes .exchangeForm s (fun t => (after t).exRun = none ∧ (after t).sets = rest)))) ∧
    (∀ x c l, g.exRun = some x → x.cmds = c :: l → (∀ d ∈ x.cmds, fieldN (g.entry d x.round (d.id.core % 8)) 63 1 = 0) →
      (x.round + 1 < c.rounds → Completes .exchangeRound s (fun t => (after t).exRun = some { x with round := x.round + 1 } ∧ t.mem = s.mem)) ∧
      (c.rounds ≤ x.round + 1 → Completes .exchangeRound s (fun t => (after t).exRun = none ∧ t.mem = s.mem))) ∧
    (∀ k u, tfind g.recs e.m = some k → k.array = false → k.cmd.cmd ≠ 3 → k.cmd.cmd ≠ 8 → k.cmd.cmd ≠ 10 → g.stopped = [] →
      (let c : Cmd := { k.cmd with started := false }
       q.claim c c.claims = some u → Completes .resumeCommand s (fun t => tfind (after t).recs e.m = none ∧ t.mem = s.mem ∧
         (if c.hi then (after t).hiQ = insertCmd c g.hiQ ∧ (after t).loQ = g.loQ else (after t).loQ = insertCmd c g.loQ ∧ (after t).hiQ = g.hiQ))) ∧
      (k.cmd.hw ≠ 1 → Completes .cancel s (fun t => tfind (after t).recs e.m = none ∧ (after t).hiQ = g.hiQ ∧ (after t).loQ = g.loQ ∧ t.mem = s.mem)))

/-- R300 to R307, R310, R315 to R321: the steps of a matrix array: a queue's head starts at a command boundary, a running command does its next unit, rows join a ragged EMMA, EMMZ ends with its bank zero, leases are granted, saved
and restored, and a failed column moves to a spare. A K-group of one FP32 element, with no NaN, is the fused multiply-add with the accumulator, rounded once to nearest (R319). -/
def Obligations.EventsOfMatrixArrays : Prop :=
  ∀ s : State, let e := s.ev; let q := s.polder e.node e.n; let a := q.array; let after := fun (t : State) => (t.polder e.node e.n).array
    (∀ id c l, a.run = none → a.holder = some id → a.ending = false → a.next = none → s.leaseDue a = false → (∀ d ∈ a.hiQ ++ a.loQ, s.counterLost d = none) →
      let went : Cmd := if c.cmd = 4 ∧ c.rag = true ∧ ¬(0 < c.rows ∧ c.rows ≤ c.sub) then { c with started := true, rows := s.joined c } else { c with started := true }
      (a.hiQ = c :: l → a.hstop = false → s.mayStart c = true → c.hi = true → c.id.node = e.node → c.id.polder = e.n → Completes .arrayCommandStart s (fun t =>
        (after t).run = some went ∧ (after t).hiQ = l ∧ (after t).loQ = a.loQ ∧ (after t).quantum = a.quantum - 1 ∧ t.mem = s.mem)) ∧
      (a.hiQ = [] → a.loQ = c :: l → a.lstop = false → s.mayStart c = true → c.hi = false → c.id.node = e.node → c.id.polder = e.n → Completes .arrayCommandStart s (fun t =>
        (after t).run = some went ∧ (after t).loQ = l ∧ (after t).quantum = a.quantum - 1 ∧ t.mem = s.mem))) ∧
    (∀ c u c' last, a.run = some c → c.cmd ≠ 5 → c.rag = false ∨ c.cmd = 6 → s.arrUnit e.node e.n c = .ok (u, c', last) →
      Completes .arrayRowCommit s (fun t => (after t).run = some c' ∧ t.mem = u.mem)) ∧
    (∀ c, a.run = some c → c.cmd = 4 → c.rag = true → ¬(0 < c.rows ∧ c.rows ≤ c.sub) → s.counterLost c = none → Completes .raggedRowJoin s (fun t => t.mem = s.mem ∧
      (after t).run = some { c with rows := max c.rows (min c.cap (memRead s.mem (spadAddr c.id.node c.id.polder (fieldW c.g[3] 0 32)) 4)) })) ∧
    (∀ c, a.run = some c → c.cmd = 4 → c.rag = true → 0 < c.rows → c.rows ≤ c.sub → Completes .raggedRowJoin s (fun t => t = s)) ∧
    (∀ c, a.run = some c → c.cmd = 5 → a.ending = false → Completes .arrayCommandComplete s (fun t => (after t).run = none ∧ ((after t).bank (fieldW c.a 0 1)).lostAt = none ∧ ((after t).bank (fieldW c.a 0 1)).flags = 0 ∧
      (∀ i j, ((after t).bank (fieldW c.a 0 1)).word i j = 0) ∧ ∀ x ∈ (t.polder e.node e.n).sb ++ (t.polder e.node e.n).rl, x.cmd ≠ c.no)) ∧
    (∀ id sa, a.run = none → a.holder = none → a.next = none → a.susp = [] → a.waiting = [(id, sa)] → Completes .leaseArbitration s (fun t => (after t).holder = some id ∧ (after t).holderSa = sa ∧
      (after t).waiting = [] ∧ (after t).hstop = false ∧ (after t).lstop = false ∧ (t.ctx id).granted = true ∧ (after t).bank0 = Bank.reset ∧ (after t).bank1 = Bank.reset ∧ (after t).quantum = (s.core id.node id.core).quant.toNat ∧ t.mem = s.mem)) ∧
    (∀ id w sa, a.run = none → a.holder = some id → a.next = some w → a.waiting = [(w, sa)] → Completes .handOverSave s (fun t => (after t).holder = some w ∧ (after t).holderSa = sa ∧
      (after t).waiting = [] ∧ (after t).next = none ∧ (t.ctx w).granted = true)) ∧
    (∀ id, a.run = none → a.holder = some id → a.next = none → Completes .handOverSave s (fun t => (after t).holder = none ∧ (after t).hiQ = [] ∧ (after t).loQ = [] ∧ (after t).leased id = true ∧
      (after t).bank0 = Bank.reset ∧ (after t).bank1 = Bank.reset ∧
      ∃ x, (after t).susp = a.susp ++ [x] ∧ x.id = id ∧ x.sa = a.holderSa ∧ x.hiQ = a.hiQ ∧ x.loQ = a.loQ ∧ x.hstop = a.hstop ∧ x.lstop = a.lstop ∧ x.lost0 = a.bank0.lostAt ∧
        x.lost1 = a.bank1.lostAt)) ∧
    (∀ x, a.holder = none → a.next = none → a.susp = [x] → x.saved = false → a.waiting = [] → s.restoreHeld a x = false → Completes .handOverRestore s (fun t => (after t).holder = some x.id ∧ (after t).holderSa = x.sa ∧ (after t).susp = [])) ∧
    (∀ j l c r, a.retiring = j :: l → a.run = none → s.spareCols e.node e.n = c :: r → Completes .columnRemap s (fun t => tget j (after t).cols j = c ∧ (after t).spares = a.spares - 1 ∧ (after t).retiring = l)) ∧
    (∀ (r : Rnd) (c x y : Nat), r.mode = 0 → c < 2 ^ 32 → x < 2 ^ 32 → y < 2 ^ 32 → (ETy.decode .fp32 c).isNan = false → (ETy.decode .fp32 x).isNan = false → (ETy.decode .fp32 y).isNan = false →
      emmaCell r c [ETy.decode .fp32 x] [ETy.decode .fp32 y] = fpFma .fp32 r false c x y)

/-- R330, R331, R337, R341, R342: the steps of mailboxes: an entry that reaches its mailbox is written at the tail of the ring, one for a mailbox that is not bound goes to the spillway and is counted; credits are requested,
granted, queued and returned; a handler starts at its PC with the mailbox number and the handle. -/
def Obligations.EventsOfMailboxes : Prop :=
  ∀ s : State, Memory.wf s.mem = true → let e := s.ev
    (∀ h src n d w k c, s.flights = [.entry h src n d w k c] → hNode h = e.node → hPolder h = e.n → (match w with | some w => s.misroutes src h w | none => false) = false →
      (∀ b, s.mbox e.node e.n (hMbox h) = some b → b.named h = true → (k = 0 ∨ k = b.bind) → (c = b.bind ∨ b.unreserved ≠ 0) → n ≤ b.esize →
        Completes .messageArrival s (fun t => t.flights = [] ∧
          memRead t.mem (spadAddr e.node e.n (b.ring + b.esize * ((b.head + b.held) % b.size))) b.esize = d.toNat % 2 ^ (8 * n) ∧
          t.mbox e.node e.n (hMbox h) = some { b with held := b.held + 1, granted := b.granted - (if c = b.bind then 1 else 0), srcs := b.srcs ++ [src] })) ∧
      (s.mbox e.node e.n 511 = none → (∀ b, s.mbox e.node e.n (hMbox h) = some b → b.named h = false ∨ (k ≠ 0 ∧ k ≠ b.bind) ∨ (c ≠ b.bind ∧ b.unreserved = 0)) →
        Completes .messageArrival s (fun t => t.flights = [] ∧ t.mem = s.mem ∧ (t.polder e.node e.n).spillcnt = countUp (s.polder e.node e.n).spillcnt))) ∧
    (∀ h n c k b, s.flights = [.creditReq h n c k] → hNode h = e.node → hPolder h = e.n → s.mbox e.node e.n (hMbox h) = some b → b.named h = true →
      let g := min (b.size - b.held - b.granted) (min 16 k)
      (g ≠ 0 → Completes .creditRequest s (fun t => t.flights = [.grant h n c g b.bind] ∧ t.mbox e.node e.n (hMbox h) = some { b with granted := b.granted + g, freed := min b.freed (b.unreserved - g) } ∧
        t.mem = s.mem)) ∧
      (g = 0 → Completes .creditRequest s (fun t => t.flights = [] ∧ t.mbox e.node e.n (hMbox h) = some { b with reqs := b.reqs ++ [(n, c, k)] } ∧ t.mem = s.mem))) ∧
    (∀ h n k, s.flights = [.grant h e.node e.core n k] →
      ((∀ x ∈ (s.core e.node e.core).sendWin, x.handle ≠ h) → (s.core e.node e.core).sendWin.length < 64 →
        Completes .creditGrant s (fun t => t.flights = [] ∧ (t.core e.node e.core).sendWin = (s.core e.node e.core).sendWin ++ [⟨h, min 64 n, k⟩] ∧ t.mem = s.mem)) ∧
      (∀ x, (s.core e.node e.core).sendWin = [x] → x.handle = h → x.bind = k → Completes .creditGrant s (fun t => t.flights = [] ∧
        (t.core e.node e.core).sendWin = [{ x with credits := min 64 (x.credits + n) }] ∧ t.mem = s.mem))) ∧
    (∀ b n c k, e.m < 512 → s.mbox e.node e.n e.m = some b → b.reqs = [(n, c, k)] → b.freed ≠ 0 → (e.flag = true ∨ min 16 (max 1 (b.size / 4)) ≤ b.freed) →
      let g := min (b.size - b.held - b.granted) (min 16 k)
      g ≠ 0 → Completes .creditReturn s (fun t => t.mbox e.node e.n e.m = some { b with reqs := [], granted := b.granted + g, freed := b.freed - g } ∧ t.mem = s.mem ∧
        ∃ h, t.flights = s.flights ++ [.grant h n c g b.bind] ∧ hMbox h = e.m ∧ hGen h = b.gen.toNat)) ∧
    (∀ b j, s.mbox e.node e.n e.m = some b → b.hpc ≠ 0 → b.held ≠ 0 → b.handler = none → b.owner.slot < 16 → b.owner.node = e.node → s.freeSlot e.node b.owner.core = some j →
      let id : CtxId := ⟨e.node, b.owner.core, j⟩
      Completes .handlerStart s (fun t => (t.ctx id).st = .ready ∧ (t.ctx id).pc = b.hpc ∧ (t.ctx id).xr 1 = BitVec.ofNat 64 e.m ∧ (t.ctx id).xr 2 = mkHandle b.owner b.gen e.m ∧
        (t.ctx id).asid = (s.ctx b.owner).asid ∧ (t.ctx id).ptroot = (s.ctx b.owner).ptroot ∧ t.mem = s.mem ∧
        t.mbox e.node e.n e.m = some { b with handler := some (j, (s.ctx id).gen) }))

/-- R347 to R349, R352, R353: the steps of a collective's engines: a chunk leaves with its source elements, the switch or the homes reduce once every member is in, the next chunk of a member's destination shard lands with the
elements that its contributions reduce to, and is counted once; word 0 of a communicator is written, or rejected with CFGERR, and disabling one stops its pending collectives. -/
def Obligations.EventsOfCollectives : Prop :=
  ∀ s : State, let e := s.ev; let v := e.w.toNat - fieldW e.w 1 1 * 2; let m := s.comm e.node e.n
    (m.en = false → (fieldN v 2 14 = 0 → fieldN v 0 1 = 0 → fieldN v 56 4 ≤ 10 → (fieldN v 55 1 = 1 → fieldN v 40 12 ≤ 5) → (fieldN v 55 1 = 0 → fieldN v 52 3 ≤ 5) →
        Completes .communicatorWrite s (fun t => (t.comm e.node e.n).w0 = BitVec.ofNat 64 v ∧ t.mem = s.mem)) ∧
      (10 < fieldN v 56 4 → Completes .communicatorWrite s (fun t => fieldW (t.comm e.node e.n).w0 1 1 = 1 ∧ fieldW (t.comm e.node e.n).w0 2 62 = fieldW m.w0 2 62 ∧ t.mem = s.mem))) ∧
    (∀ x c, s.colls = [x] → x.comm = e.n → x.mems = [c] → c.cmd.id.node = e.node → c.st = 0 → Completes .communicatorDisable s (fun t => t.colls = [{ x with mems := [{ c with st := 2 }] }])) ∧
    (e.flag = true → Completes .chunkDepart s (fun t => (e.m ∈ (t.die e.node e.n).chanFull ↔ e.w ≠ 0) ∧ (∀ c, c ≠ e.m → (c ∈ (t.die e.node e.n).chanFull ↔ c ∈ (s.die e.node e.n).chanFull)) ∧
      t.colls = s.colls ∧ t.mem = s.mem)) ∧
    (∀ x c, e.flag = false → s.colls = [x] → x.mems = [c] → s.clones = [] → x.comm ∈ (s.die e.node e.n).chanFull → Completes .chunkDepart s (fun t => t = s)) ∧
    (∀ x c u d, e.flag = false → x.comm ∉ (s.die e.node e.n).chanFull → s.colls = [x] → x.mems = [c] → s.clones = [] → c.cmd.id.node = e.node → c.cmd.id.die = e.n → c.ready x.size = true → c.landed < c.dstBytes x.size → s.collFenced x = false →
      let n := min c.chunk (c.srcBytes x.size - c.sent * c.chunk)
      (s.setDie e.node e.n { s.die e.node e.n with lastComm := x.comm }).engRead c.cmd 0 ((c.cmd.g[1] + BitVec.ofNat 64 (c.sent * c.chunk)).toNat) n = .ok (u, d) → u.colls = s.colls →
      Completes .chunkDepart s (fun t => t.mem = u.mem ∧ t.colls = [{ x with mems := [{ c with sent := c.sent + 1, data := c.data ++ elems d (8 * elBytes c.ety) (n / elBytes c.ety) }] }])) ∧
    (∀ x c l, s.colls = [x] → x.named e.flag.toNat e.pa e.n e.m = true → x.mems = c :: l → x.mems.length = x.size → x.reduced = false → s.collFenced x = false →
      (∀ d ∈ l, d.digest = c.digest) → ∀ i ∈ [if e.flag then Instr.homeReduce else Instr.switchReduce], Completes i s (fun t => t.colls = [{ x with reduced := true }] ∧ t.mem = s.mem)) ∧
    (∀ x c u ls ld ex f, s.colls = [x] → x.named e.flag.toNat e.pa e.n e.m = true → x.mems = [c] → c.rank = e.core → x.reduced = true → c.st = 0 → s.collFenced x = false →
      c.layouts x.size = some (ls, ld, ex) →
      let z := elBytes c.ety; let n := min c.chunk (c.dstBytes x.size - c.landed)
      (∀ j, j < n / z → x.element c ls ld ex (c.landed / z + j) = some (f j)) → c.landed + n < c.dstBytes x.size → u.colls = s.colls →
      s.engWrite c.cmd 0 ((c.cmd.g[2] + BitVec.ofNat 64 c.landed).toNat) n (packEls (8 * z) ((List.range (n / z)).map f)) = .ok u → c.counted ≤ c.landed → n ≠ 0 →
      Completes .collectiveLanding s (fun t => t.colls = [{ x with mems := [{ c with landed := c.landed + n, counted := c.landed + n }] }] ∧
        t.mem = (u.barPiece c.cmd.id.node c.cmd.id.polder c.cmd.bar n (if x.kind = 1 then 4 else 6)).mem))

/-- R362 to R365, R367 to R370, R374, R381, R382: the steps of launch queues and of the scheduler: the commands of a queue from each of its states, TAIL, the taking of a record, a round of its conditions, dispatch, completion, the end of a drain
and of an abort, pre-emption and restoration. -/
def Obligations.EventsOfQueuesAndScheduling : Prop :=
  ∀ s : State, let e := s.ev; let x := s.queue e.node e.n; let after := fun (t : State) => t.queue e.node e.n
    let idleOrStopped := x.st = .idle ∨ x.st = .stopped; let clean := (s.pkg e.node).poolDirty = [] ∧ (s.pkg e.node).poolSent = []
    (idleOrStopped → Completes .queueStart s (fun t => (after t).st = .run ∧ (after t).cfgerr = false ∧ t.mem = s.mem) ∧
      Completes .reset s (fun t => (after t).st = .idle ∧ (after t).head = 0 ∧ (after t).tail = 0 ∧ (after t).nextwid = 0 ∧ (after t).err = 0 ∧ t.mem = s.mem)) ∧
    (¬ idleOrStopped → ∀ i ∈ [Instr.queueStart, .reset], Completes i s (fun t => after t = { x with cfgerr := true } ∧ t.mem = s.mem)) ∧
    (x.st = .run → Completes .drain s (fun t => (after t).st = .draining ∧ t.mem = s.mem)) ∧
    (x.st ≠ .run → Completes .drain s (fun t => after t = { x with cfgerr := true })) ∧
    (x.st = .draining → s.launchesOf e.node e.n = [] → Completes .drainDone s (fun t => after t = { x with st := .stopped } ∧ t.mem = s.mem)) ∧
    (x.st = .run ∨ x.st = .draining ∨ x.st = .stopped → s.launchesOf e.node e.n = [] → Completes .abort s (fun t => (after t).st = .aborting ∧ (after t).abortTail = x.tail ∧ t.mem = s.mem)) ∧
    (x.st = .aborting → x.dying = [] → s.launchesOf e.node e.n = [] →
      (s.deadStores e.node = true → Completes .abortTeardownDone s (fun t => after t = x ∧ t.mem = s.mem)) ∧
      (s.deadStores e.node = false → x.abortPos = x.abortTail → Completes .abortTeardownDone s (fun t => (after t).st = .stopped ∧ (after t).head = x.abortTail ∧
        (after t).nextwid = 0 ∧ (clean → t.mem = s.mem)))) ∧
    (64 ≤ e.n → Completes .tail s (fun t => t = s)) ∧
    (e.n < 64 → s.hostBehind e false = false → let v : BitVec 32 := BitVec.ofNat 32 e.w.toNat
     ((v - x.head).toNat ≤ 2 ^ x.log2n → Completes .tail s (fun t => after t = { x with tail := v, cfgerr := false } ∧ t.mem = s.mem)) ∧
     (2 ^ x.log2n < (v - x.head).toNat → Completes .tail s (fun t => after t = { x with cfgerr := true } ∧ t.mem = s.mem))) ∧
    (s.feNext e.node e.n = e.n → x.head = x.tail → Completes .recordTake s (fun t => t = s)) ∧
    (∀ u r l, s.feNext e.node e.n = e.n → x.st = .run → x.cur = none → x.head ≠ x.tail → s.readLaunch e.node e.n x.head.toNat = .ok (u, r, l) → l.lcb = 0 → l.queue = e.n →
      (recordBad l r = false → Completes .recordTake s (fun t => (after t).cur = some (u.pkg e.node).nextLaunch ∧ tfind (t.pkg e.node).launches (u.pkg e.node).nextLaunch = some l ∧ t.mem = u.mem)) ∧
      (recordBad l r = true → Completes .recordTake s (fun t => (after t).head = (u.queue e.node e.n).head + 1 ∧ (after t).cur = none ∧ t.mem = u.mem))) ∧
    (∀ id l u b, x.cur = some id → s.launch? e.node id = some l → x.st = .run → l.stage = .polling → s.semRead (s.launchReq e.node l) l.semlist.toNat l.nsem = .ok (u, some b) →
      (b = true → Completes .semaphoreRound s (fun t => t.launch? e.node id = some { l with stage := .dispatching } ∧ (after t).nextwid = 0 ∧ t.mem = u.mem)) ∧
      (b = false → Completes .semaphoreRound s (fun t => t.launch? e.node id = u.launch? e.node id ∧ t.mem = u.mem))) ∧
    (s.cands e.node = [] → Completes .dispatch s (fun t => t = s) ∧ Completes .preempt s (fun t => t = s)) ∧
    ((s.pkg e.node).live = false → Completes .dispatch s (fun t => t = s)) ∧
    (∀ id l ws pl k w, (s.pkg e.node).live = true → s.cands e.node = [.fresh id l ws] → s.placeAll e.node id l [] e.core ws l.placing = some pl → pl.taken = [(k, w)] → Completes .dispatch s (fun t =>
      let c := t.ctx ⟨e.node, k, 0⟩
      c.pc = l.entry ∧ c.st = .ready ∧ c.asid = l.asid ∧ c.ptroot = l.ptroot ∧ (∀ j, 1 ≤ j → j ≤ 8 → c.xr (BitVec.ofNat 5 j) = l.args.getD (j - 1) 0) ∧ t.mem = s.mem ∧
        (t.core e.node k).item.map (fun i => (i.launch, i.wid)) = some (id, BitVec.ofNat 64 w))) ∧
    (∀ l, s.launch? e.node e.n = some l → l.finished = true → (s.queue e.node l.queue).st ≠ .aborting → (s.queue e.node l.queue).dying = [] → l.lcb = 0 →
      (s.deadStores e.node = false → Completes .launchComplete s (fun t => t.launch? e.node e.n = none ∧ (clean → t.mem = s.mem))) ∧
      (s.deadStores e.node = true → Completes .launchComplete s (fun t => t.launch? e.node e.n = some l ∧ t.mem = s.mem))) ∧
    (∀ v k u it l, (s.blocked e.node e.core).findSome? (s.victimFor e.node e.core) = some v → v.cores = [k] → (s.core e.node k).item = some it → s.launch? e.node it.launch = some l →
      s.saveItem e.node k = .ok u → Completes .preempt s (fun t => t.mem = u.mem ∧ t.ctxs = u.ctxs ∧ (t.core e.node k).item = none)) ∧
    (∀ id l y u, (s.cands e.node).find? (s.candFits e.node 0 []) = some (.back id l [y]) → id = e.n → y.item.wid = e.w → s.launch? e.node id = some l → s.restoreItem e.node id y = .ok u →
      Completes .contextRestore s (fun t => t.mem = u.mem ∧ t.ctxs = u.ctxs ∧ (t.core e.node y.core).item = some y.item))

/-- R390 to R393, R396 to R406: the steps of the legend units and the slot managers: INSTALL, REMOVE and READ, updates and their acknowledgement, the end of a window; a token lands in a free slot with its tag, is accepted, or is
counted as a duplicate; credits; result rows; joins; and the states of a replica's life. -/
def Obligations.EventsOfLegendsAndTokens : Prop :=
  ∀ s : State, Memory.wf s.mem = true → let e := s.ev; let D := s.die e.node e.n; let R := s.repl e.node e.n e.m; let id := e.id
    (let x := D.staging.toNat
     (homeDieOf e.m = e.n → repNode x 0 = e.node → entRefused x = false → entName x = e.m → tfind D.legend e.m = none → D.legend.length < 4096 → Completes .install s (fun t =>
       (t.die e.node e.n).legErr = false ∧ ∃ y, t.legend e.node e.m = some y ∧ entV y = true ∧ entVer y = 0 ∧ entEpoch y = 1 ∧ entArrive y = 0 ∧ entName y = e.m)) ∧
     (homeDieOf e.m ≠ e.n ∨ repNode x 0 ≠ e.node ∨ entRefused x = true ∨ entName x ≠ e.m ∨ tfind D.legend e.m ≠ none → Completes .install s (fun t =>
       (t.die e.node e.n).legErr = true ∧ (t.die e.node e.n).legend = D.legend))) ∧
    (∀ y, homeDieOf e.m = e.n → s.legend e.node e.m = some y → repNode y 0 = e.node → Completes .remove s (fun t => t.legend e.node e.m = none ∧ (t.die e.node e.n).legErr = false)) ∧
    (∀ y, tfind D.legend e.m = some y → Completes .read s (fun t => (t.die e.node e.n).staging = y ∧ (t.die e.node e.n).legErr = false ∧ t.mem = s.mem)) ∧
    (tfind D.legend e.m = none → Completes .read s (fun t => (t.die e.node e.n).legErr = true ∧ (t.die e.node e.n).staging = D.staging)) ∧
    (∀ x, s.legUps = [⟨e.node, e.n, x⟩] → (∀ y, s.legend e.node e.n = some y → entEpoch y < entEpoch x.toNat) →
      (repNode x.toNat 0 ∉ (s.pkg e.node).fenced → Completes .legendUpdate s (fun t => t.legUps = [] ∧ t.legend e.node e.n = if entV x.toNat then some x.toNat else none)) ∧
      (repNode x.toNat 0 ∈ (s.pkg e.node).fenced → Completes .legendUpdate s (fun t => t.legUps = [] ∧ t.dies = s.dies ∧ t.mem = s.mem))) ∧
    (∀ y, s.legend e.node e.n = some y → s.olderTokens e.node e.n e.m = false →
      (e.node ∉ (s.pkg (repNode y 0)).fenced → Completes .epochAck s (fun t => e.m ≤ tget 0 (t.die (repNode y 0) (homeDieOf e.n)).acks (e.n, e.node) ∧ t.mem = s.mem)) ∧
      (e.node ∈ (s.pkg (repNode y 0)).fenced → Completes .epochAck s (fun t => t = s))) ∧
    (∀ y, s.legend e.node e.m = some y → repNode y 0 = e.node → entRetire y = 0 → Completes .legendWindowEnd s (fun t => (t.legend e.node e.m).map entArrive = some 0 ∧ t.mem = s.mem)) ∧
    (∀ r y, e.flag = false → R = some r → s.nameEntry e.node e.m = some y →
      (∀ v ph, r.pend = some (v, ph) → s.barLost e.node e.n (mLocal (entRbar y)) = false → fieldN (s.barWord e.node e.n (mLocal (entRbar y))) 0 1 ≠ ph → r.idx < 16 → repState y r.idx = 1 → entVer y = v →
        Completes .rbarFlip s (fun t => (t.legend (repNode y 0) e.m).map (fun z => repState z r.idx) = some 2)) ∧
      (repState y r.idx = 3 → r.idx < 16 → r.bwd = 0 → r.joined = true → r.tomb = none → entCreate y = 0 → Completes .replicaFree s (fun t =>
        (t.legend (repNode y 0) e.m).map (fun z => repState z r.idx) = some 0 ∧ (t.repl e.node e.n e.m).map (fun z => z.tomb) = some (some (entEpoch y + 1)))) ∧
      (r.joined = false ∨ r.bwd ≠ 0 → Completes .replicaFree s (fun t => t = s)) ∧
      (r.joinReq ≠ 0 → r.bwd = 0 →
        let copy := s.hwCopy e.node e.n 2 (2 ^ 29 + entGoff y) (entWpa y + 65536 * entWlen y + r.idx * entGlen y) (entGlen y / 64) (mLocal (entJbar y)) (repNode y 0) (repPolder y 0) e.m
        (copy.isSome = true → Completes .joinCopy s (fun t => t.nextCmd = s.nextCmd + 1 ∧ (t.repl e.node e.n e.m).map (fun z => z.joinReq) = some (r.joinReq - 1))) ∧
        (copy = none → Completes .joinCopy s (fun t => t.polders = s.polders ∧ t.mem = s.mem)))) ∧
    (∀ r y, e.flag = true → R = some r → s.nameEntry e.node e.m = some y → repState y r.idx = 3 → Completes .joinCopy s (fun t =>
      (t.repl e.node e.n e.m).map (fun z => z.joined) = some r.whole ∧ t.mem = s.mem)) ∧
    (∀ r y n, R = some r → s.legend e.node e.m = some y → r.tomb = some n → (∀ p ∈ s.domain, n ≤ tget 0 (s.die (repNode y 0) (homeDieOf e.m)).acks (e.m, p)) →
      (r.pend = none → r.reborn = false → Completes .tombstoneEnd s (fun t => t.repl e.node e.n e.m = none ∧ t.mem = s.mem)) ∧
      (r.pend ≠ none ∨ r.reborn = true → Completes .tombstoneEnd s (fun t => t.repl e.node e.n e.m = some { r with tomb := none, reborn := false } ∧ t.mem = s.mem))) ∧
    (∀ k : Token, s.tokens = [k] → k.node = e.node → k.polder = e.n → (∀ x ∈ (s.polder e.node e.n).repls, x.2.heldToks = []) →
      (s.repl e.node e.n k.name = none → Completes .tokenArrival s (fun t => t.tokens = [] ∧ t.accepts = s.accepts ++ [(k.sender, k.seq, k.node)] ∧
        (t.polder e.node e.n).dupcnt = countUp (s.polder e.node e.n).dupcnt ∧ t.mem = s.mem)) ∧
      (∀ r y n, k.bwd = true → k.part ≠ 65 → newerSeq (s.polder e.node e.n) k = true → s.repl e.node e.n k.name = some r → s.legend e.node k.name = some y → r.tomb = none → entPerm y = false →
        s.lostWordIn (spadAddr e.node e.n (mLocal (entAcnt y))) 4 = false →
        r.freeFrom (memRead s.mem (spadAddr e.node e.n (mLocal (entAcnt y))) 4 % entNslot y) (entNslot y) = some n → entSabase y + entSlotBytes y * n + k.bytes ≤ spaceSize 0 →
        Completes .tokenArrival s (fun t => t.tokens = [] ∧ t.accepts = s.accepts ++ [(k.sender, k.seq, k.node)] ∧ tfind (t.polder e.node e.n).marks k.sender = some k.seq ∧
          memRead t.mem (spadAddr e.node e.n (entSabase y + entSlotBytes y * n)) k.bytes = k.data % 256 ^ k.bytes ∧ (t.repl e.node e.n k.name).map (fun z => z.bwd) = some (r.bwd + 1)))) ∧
    (∀ w, (s.ctx id).tok = some w →
      (∀ n l, s.accepts = (id, w.seq, n) :: l → w.stage = 2 → Completes .tokenAcceptance s (fun t => t.accepts = l ∧ t.ctx id = { s.ctx id with tok := some { w with stage := 3 } } ∧ t.mem = s.mem)) ∧
      (∀ r r' y k, w.stage = 0 → (s.ctx id).expired = false → s.repl w.node w.polder w.name = some r → s.legend w.node w.name = some y → r.grant (partOf y id.node id.core) = some (k, r') →
        Completes .slotCreditRequest s (fun t => t.repl w.node w.polder w.name = some r' ∧ t.ctx id = { s.ctx id with tok := some { w with stage := 1, part := k } } ∧ t.mem = s.mem)) ∧
      (w.stage = 0 → Completes .tokenCreditTimeout s (fun t => t.ctx id = { s.ctx id with expired := true } ∧ t.mem = s.mem))) ∧
    (∀ r y k, R = some r → s.legend e.node e.m = some y → tfind r.slots e.pa = some k → k.closed = false →
      let a := spadAddr e.node e.n (mLocal (entAcnt y))
      s.lostWordIn a 4 = false → Completes .pageCloseTimeout s (fun t =>
      memRead t.mem a 4 = (memRead s.mem a 4 + 1) % 2 ^ 32 ∧ (t.repl e.node e.n e.m).map (fun z => (tfind z.slots e.pa).map (fun b => b.closed)) = some (some true))) ∧
    (∀ r, s.results = [r] → r.node = e.node → r.core / 8 = e.n →
      (r.src + r.bytes ≤ spaceSize 0 → Completes .resultRowLanding s (fun t => t.results = [] ∧
        t.mem = ((s.spadWrite e.node e.n r.src r.bytes r.data r.fromNode (r.fromCore / 8) r.fromCore).barPiece e.node e.n r.bar r.bytes 6).mem)) ∧
      (spaceSize 0 < r.src + r.bytes → Completes .resultRowLanding s (fun t => t.results = [] ∧ t.mem = (s.barFault e.node e.n r.bar).mem))) ∧
    Completes .markEviction s (fun t => tfind (t.polder e.m e.n).marks id = none ∧ t.mem = s.mem)

/-- R427, R432, R436 to R440, R442 to R446: the steps of management and bring-up: a machine check's RESTART and CLEAR, a control-register write, errors and self-tests, links, heartbeats and fencing, WATCHDOG, RELOAD, telemetry, throttling and
RESET_RELEASE. -/
def Obligations.EventsOfManagement : Prop :=
  ∀ s : State, let e := s.ev; let q := s.core e.node e.core; let p := s.pkg e.node; let sys : CtxId := ⟨e.node, e.core, 11⟩
    (q.mcheck.valid = true → Completes .clear s (fun t => t.core e.node e.core = { q with mcheck := { q.mcheck with valid := false } } ∧ t.ctxs = s.ctxs ∧ t.mem = s.mem) ∧
      (q.stopped = false → (s.ctx sys).pairHeld = true → q.tvec ≠ 0 → Completes .restart s (fun t => t = s.enq .restart { node := e.node, core := e.core })) ∧
      (q.tvec ≠ 0 → (q.stopped = true ∨ (s.ctx sys).pairHeld = false) → Completes .restart s (fun t => t.core e.node e.core = { q with mcheck := { q.mcheck with valid := false }, sv := false, osv := false, stopped := false } ∧
        (t.ctx sys).pc = q.tvec ∧ (t.ctx sys).st = .ready ∧ (t.ctx sys).x = (s.ctx sys).x ∧ t.mem = s.mem))) ∧
    (q.mcheck.valid = false → ∀ i ∈ [Instr.restart, .clear], Completes i s (fun t => t = s)) ∧
    (e.n = 0x100 → e.m = 8 → Completes .controlRegisterWrite s (fun t => (t.pkg e.node).bar2 = e.w ∧ t.mem = s.mem)) ∧
    (e.m = 0 → Completes .controlRegisterWrite s (fun t => t = s)) ∧
    (let v := if e.m ≤ 8 then e.w.toNat else e.v.toNat; let k := 8 - e.n % 8
     (0 < e.m → e.m ≤ k → Completes .controlRegisterWrite s (fun t => t = s.ctlWriteN e.node e.n e.m (v % 256 ^ e.m))) ∧
     (k < e.m → e.m ≤ 32 → Completes .controlRegisterWrite s (fun t => t = (s.ctlWriteN e.node e.n k (v % 256 ^ k)).now .controlRegisterWrite
       { e with n := e.n + k, m := e.m - k, w := BitVec.ofNat 64 (v / 256 ^ k), v := BitVec.ofNat 256 (v / 256 ^ k) }))) ∧
    (∀ c ∈ [0, 4], e.n = c → e.flag = true → paClass e.pa = 0 → tfind p.poolDirty (lineOf e.pa) = none → Completes .errorDetected s (fun t =>
      (t.isLost e.pa = true ↔ ((s.spoil e.node c e.m (lineOf e.pa)).1).dirtyMask (lineOf e.pa) ≠ BitVec.allOnes 64) ∧ (c, e.m) ∈ (t.pkg e.node).testing ∧ t.mem = s.mem ∧
      (t.pkg e.node).errNext = (p.errNext + 1) % 4096 ∧ (tfind (t.pkg e.node).errLog p.errNext).map (fun x => x.2) = some (s.cycle e.node))) ∧
    (e.n = 8 → e.flag = true → q.stopped = false → (s.ctx sys).pairHeld = true → Completes .errorDetected s (fun t => t = s.enq .errorDetected e)) ∧
    (e.n ≠ 6 → e.flag = false → Completes .errorDetected s (fun t => tget 0 (t.pkg e.node).corrected (e.n, e.m) = tget 0 p.corrected (e.n, e.m) + 1 ∧
      (e.n, e.m) ∈ (t.pkg e.node).testing ∧ t.mem = s.mem ∧ t.lost = s.lost)) ∧
    (e.n = 6 → e.flag = false → paClass e.pa = 0 → e.w.toNat ≤ 1 → Completes .errorDetected s (fun t => (6, hbmUnit e.pa) ∈ (t.pkg (paNode e.pa)).testing ∧ t.mem = s.mem ∧ t.lost = s.lost)) ∧
    (e.n = 4 → e.flag = true → Completes .selfTestDone s (fun t => (4, e.m) ∈ (t.pkg e.node).retired ∧ t.slice e.node (e.m / 48) (e.m % 48) = Slice.empty ∧ t.mem = s.mem)) ∧
    (e.flag = false → Completes .selfTestDone s (fun t => (e.n, e.m) ∉ (t.pkg e.node).testing ∧ (t.pkg e.node).retired = p.retired ∧ (t.pkg e.node).errNext = (p.errNext + 1) % 4096)) ∧
    (e.n = 2 → e.flag = true → Completes .selfTestDone s (fun t => (2, e.m) ∈ (t.pkg e.node).retired ∧ (t.pkg e.node).errNext = (p.errNext + 1) % 4096)) ∧
    (e.n = 1 → e.flag = true → (∀ x ∈ p.retired, x.1 = 1 → x.2 / 64 ≠ e.m / 64) → Completes .selfTestDone s (fun t => (1, e.m) ∈ (t.pkg e.node).retired ∧ (t.pkg e.node).withdrawn = p.withdrawn)) ∧
    (e.n = 3 → e.flag = true → (3, e.m) ∉ p.retired → let a := (s.polder e.node (e.m / 132)).array
      (∀ j, (List.range 128).find? (fun j => tget j a.cols j == e.m % 132) = some j → a.retiring.length < a.spares → Completes .selfTestDone s (fun t =>
        (t.polder e.node (e.m / 132)).array.retiring = a.retiring ++ [j] ∧ (t.pkg e.node).withdrawn = p.withdrawn ∧ (3, e.m) ∈ (t.pkg e.node).retired)) ∧
      (∀ j, (List.range 128).find? (fun j => tget j a.cols j == e.m % 132) = some j → a.spares ≤ a.retiring.length → Completes .selfTestDone s (fun t => e.m / 132 ∈ (t.pkg e.node).withdrawn))) ∧
    (let off := linkCount e.n ≤ e.m ∨ (5, linkUnit e.n e.m) ∈ p.retired ∨ (e.n = 3 ∧ deviceNo e.m ∈ p.fencedSw)
     (off → Completes .linkTraining s (fun t => t = s)) ∧
     (¬ off → e.flag = false → Completes .linkTraining s (fun t => (e.n, e.m) ∈ (t.pkg e.node).down ∧ (e.n, e.m) ∉ (t.pkg e.node).trained ∧ t.mem = s.mem)) ∧
     (¬ off → e.flag = true → Completes .linkTraining s (fun t => (e.n, e.m) ∈ (t.pkg e.node).trained ∧ (e.n, e.m) ∉ (t.pkg e.node).down ∧
      (e.n = 3 → e.m < 4 → (t.pkg e.node).poolUp.toList.getD e.m false = true ∧ (t.pkg e.node).poolDev.toList.getD e.m 0 = e.pa)))) ∧
    (linkCount e.n ≤ e.m → Completes .linkReplayFailure s (fun t => t = s)) ∧
    (e.m < linkCount e.n → Completes .linkReplayFailure s (fun t => (e.n, e.m) ∉ (t.pkg e.node).trained ∧ (e.n, e.m) ∈ (t.pkg e.node).down ∧ (5, linkUnit e.n e.m) ∈ (t.pkg e.node).testing ∧
      (e.n = 3 → e.m < 4 → (t.pkg e.node).poolUp.toList.getD e.m true = false))) ∧
    (p.boot < 8 → Completes .fenceNode s (fun t => t = s) ∧ Completes .heartbeatMiss s (fun t => t = s) ∧ (e.m = 0 → Completes .heartbeat s (fun t => t = s))) ∧
    (8 ≤ p.boot → e.n ≠ e.node → Completes .fenceNode s (fun t => e.n ∈ (t.pkg e.node).fenced)) ∧
    Completes .unfence s (fun t => e.n ∉ (t.pkg e.node).fenced ∧ e.n ∉ (t.pkg e.node).fencedSw ∧ t.mem = s.mem) ∧
    (∀ k m, (e.m = 0 ∧ 8 ≤ p.boot ∧ k = e.node ∧ m ∈ s.group ∧ m ≠ e.node) ∨ (e.m = 1 ∧ k = switchNo e.n ∧ m ∈ s.group) ∨ (2 ≤ e.m ∧ k = deviceNo e.n ∧ m = e.node) →
      k ∉ (s.pkg m).fenced → k ∉ (s.pkg m).fencedSw → Completes .heartbeat s (fun t => t.mem = s.mem ∧ tfind (t.pkg m).missed k = none)) ∧
    (8 ≤ p.boot → e.m ≠ 0 → let k := if e.m = 1 then switchNo e.n else deviceNo e.n
      (tget 0 p.missed k < 2 → Completes .heartbeatMiss s (fun t => tget 0 (t.pkg e.node).missed k = tget 0 p.missed k + 1 ∧ t.mem = s.mem)) ∧
      (2 ≤ tget 0 p.missed k → Completes .heartbeatMiss s (fun t => k ∈ (t.pkg e.node).fencedSw))) ∧
    (8 ≤ p.boot → e.m = 0 → (tget 0 p.missed e.n < 2 → Completes .heartbeatMiss s (fun t => tget 0 (t.pkg e.node).missed e.n = tget 0 p.missed e.n + 1 ∧ t.mem = s.mem)) ∧
      (2 ≤ tget 0 p.missed e.n → e.n ∈ s.group → e.n ≠ e.node → Completes .heartbeatMiss s (fun t => e.n ∈ (t.pkg e.node).fenced))) ∧
    (∀ j, j ≤ 10 → e.n = 2 ^ j → let id : CtxId := ⟨e.node, e.core, j⟩
      (s.ctx id).st = .ready → (s.ctx id).pairHeld = false → (s.ctx id).ra = false → Completes .watchdog s (fun t => (t.ctx id).st = .parked ∧ (t.ctx id).tcause = 0x17 ∧ (t.ctx id).tval = e.w ∧
        (t.ctx id).tpc = BitVec.ofNat 64 ((s.ctx id).pc.toNat / 4 * 4) ∧ (t.core e.node e.core).pend = q.pend ||| BitVec.ofNat 11 (2 ^ j))) ∧
    (p.runs e.flag e.keyDigest e.version = true → Completes .reload s (fun t => t.mem = s.mem ∧ Config.freeMeasure e.v ∈ (t.pkg e.node).images ∧ ∀ k, (s.core e.node k).mcheck.valid = true →
      (s.core e.node k).mcheck.kind = 0 ∨ (s.core e.node k).mcheck.kind = 3 → (s.core e.node k).tvec ≠ 0 → (t.core e.node k).mcheck.valid = false ∧ (t.core e.node k).stopped = false ∧
        (t.ctx ⟨e.node, k, 11⟩).pc = (s.core e.node k).tvec ∧ (t.ctx ⟨e.node, k, 11⟩).st = .ready)) ∧
    (p.runs e.flag e.keyDigest e.version = false → Completes .reload s (fun t => t = s)) ∧
    (e.flag = false → Completes .telemetry s (fun t => t = s)) ∧
    (e.flag = true → let nonce : BitVec 512 := BitVec.ofNat 512 e.pa
      Completes .telemetry s (fun t => (t.pkg e.node).report = some ⟨p.images, e.node, nonce, Config.freeSignature p.images e.node nonce⟩ ∧ t.ctxs = s.ctxs ∧ t.mem = s.mem)) ∧
    Completes .thermalThrottle s (fun t => (t.pkg e.node).throttle = p.throttle + 1 ∧ t.ctxs = s.ctxs ∧ t.mem = s.mem) ∧
    (let runs := e.flag && p.runs (e.m.testBit 0) e.keyDigest e.version && s.mayRenew e.node
     (e.n = 1 → runs = true → Completes .resetRelease s (fun t => let p' := t.pkg e.node
       p'.live = true ∧ p'.boot = 1 ∧ p'.bootsrc = e.m.testBit 1 ∧ p'.fuseRoot = p.fuseRoot ∧ p'.fuseMin = p.fuseMin ∧ p'.images = [Config.freeMeasure e.v] ∧ p'.fenced = [] ∧
       (∀ k, t.core e.node k = CoreSt.reset) ∧ ∀ id, id.node = e.node → t.ctx id = Ctx.resetOf id.slot)) ∧
     (e.n = 1 → runs = false → Completes .resetRelease s (fun t => t = s))) ∧
    (e.n ≠ 1 → p.boot < e.n - 1 → Completes .resetRelease s (fun t => t = s)) ∧
    (e.n ≠ 1 → e.n - 1 ≤ p.boot →
      (e.n = 2 → Completes .resetRelease s (fun t => 2 ≤ (t.pkg e.node).boot ∧ (e.m.testBit 0 = true → e.node ∈ t.group) ∧ (e.m.testBit 1 = true → e.node ∈ t.domain) ∧ t.mem = s.mem)) ∧
      ((e.n = 3 ∧ p.testing = []) ∨ (e.n = 4 ∧ p.linksDone = true) ∨ e.n = 5 ∨ e.n = 7 ∨ e.n = 8 → Completes .resetRelease s (fun t => e.n ≤ (t.pkg e.node).boot ∧ t.ctxs = s.ctxs ∧ t.mem = s.mem)) ∧
      ((e.n = 3 ∧ p.testing ≠ []) ∨ (e.n = 4 ∧ p.linksDone = false) → Completes .resetRelease s (fun t => t = s)) ∧
      (e.n = 6 → q.stopped = true → q.mcheck.valid = false → e.core < 1536 → Completes .resetRelease s (fun t => 6 ≤ (t.pkg e.node).boot ∧ (t.core e.node e.core).stopped = false ∧
        (t.core e.node e.core).tvec = BitVec.ofNat 64 (e.w.toNat / 4 * 4) ∧ (t.ctx sys).pc = BitVec.ofNat 64 (e.w.toNat / 4 * 4) ∧ (t.ctx sys).st = .ready ∧ t.mem = s.mem)))

/-- R5 and the canonical form of memory: whatever a step does, addresses rise and no listed cell holds what an unlisted one reads as, so that equal memories are equal data. The form is the model's own (log entry 2). -/
def Obligations.EveryStepKeepsTheMemoryCanonical : Prop :=
  ∀ s t : State, Memory.wf s.mem = true → step s = .next t → Memory.wf t.mem = true
end

