-- ==== Sys2Proof/Laws/State.lean ====
section
/-! SUPPORT. What each update of the state leaves unchanged, one lemma per field and update, and what reading after an update gives. -/

namespace Sys2Proof.Machine
open Sys2Proof

/-! ## Sparse tables -/

/-- Reading the entry just written. -/
@[simp] theorem tfind_tset_same {κ α : Type} [DecidableEq κ] (t : Tab κ α) (k : κ) (a : α) : tfind (tset t k a) k = some a := by
  induction t with
  | nil => simp [tset, tfind]
  | cons e r ih => obtain ⟨k', a'⟩ := e; by_cases h : k' = k <;> simp [tset, tfind, h, ih]

/-- Reading another entry. -/
@[simp] theorem tfind_tset_other {κ α : Type} [DecidableEq κ] (t : Tab κ α) (k j : κ) (a : α) (h : j ≠ k) :
    tfind (tset t k a) j = tfind t j := by
  induction t with
  | nil => simp [tset, tfind, Ne.symm h]
  | cons e r ih =>
    obtain ⟨k', a'⟩ := e
    by_cases h' : k' = k
    · subst h'; simp [tset, tfind, Ne.symm h]
    · simp only [tset, h', if_false, tfind]; split <;> simp_all

/-- Reading the value just written. -/
@[simp] theorem tget_tset_same {κ α : Type} [DecidableEq κ] (d : α) (t : Tab κ α) (k : κ) (a : α) : tget d (tset t k a) k = a := by
  simp [tget]

/-- Reading another value. -/
@[simp] theorem tget_tset_other {κ α : Type} [DecidableEq κ] (d : α) (t : Tab κ α) (k j : κ) (a : α) (h : j ≠ k) :
    tget d (tset t k a) j = tget d t j := by
  simp [tget, h]

/-- The last of two writes of one entry stands. -/
@[simp] theorem tset_tset {κ α : Type} [DecidableEq κ] (t : Tab κ α) (k : κ) (a b : α) : tset (tset t k a) k b = tset t k b := by
  induction t with
  | nil => simp [tset]
  | cons e r ih => obtain ⟨k', a'⟩ := e; by_cases h : k' = k <;> simp [tset, h, ih]

/-- A deleted entry is not found. -/
@[simp] theorem tfind_tdel_same {κ α : Type} [DecidableEq κ] (t : Tab κ α) (k : κ) : tfind (tdel t k) k = none := by
  induction t with
  | nil => rfl
  | cons e r ih => obtain ⟨k', a'⟩ := e; by_cases h : k' = k <;> simp_all [tdel, tfind]

/-- Another entry stays. -/
@[simp] theorem tfind_tdel_other {κ α : Type} [DecidableEq κ] (t : Tab κ α) (k j : κ) (h : j ≠ k) : tfind (tdel t k) j = tfind t j := by
  induction t with
  | nil => rfl
  | cons e r ih =>
    obtain ⟨k', a'⟩ := e
    by_cases h' : k' = k
    · subst h'; simp_all [tdel, tfind, Ne.symm h]
    · simp only [tdel, tfind] at ih ⊢; by_cases h'' : k' = j <;> simp_all [tfind]

/-- Reading a deleted entry gives the default. -/
@[simp] theorem tget_tdel_same {κ α : Type} [DecidableEq κ] (d : α) (t : Tab κ α) (k : κ) : tget d (tdel t k) k = d := by simp [tget]

/-- Reading another one gives what it was. -/
@[simp] theorem tget_tdel_other {κ α : Type} [DecidableEq κ] (d : α) (t : Tab κ α) (k j : κ) (h : j ≠ k) : tget d (tdel t k) j = tget d t j := by
  simp [tget, h]

/-! ## setCtx -/

@[simp] theorem setCtx_fnode (s : State) (id : CtxId) (c : Ctx) : (s.setCtx id c).fnode = s.fnode := rfl
@[simp] theorem setCtx_fcore (s : State) (id : CtxId) (c : Ctx) : (s.setCtx id c).fcore = s.fcore := rfl
@[simp] theorem setCtx_schedule (s : State) (id : CtxId) (c : Ctx) : (s.setCtx id c).schedule = s.schedule := rfl
@[simp] theorem setCtx_work (s : State) (id : CtxId) (c : Ctx) : (s.setCtx id c).work = s.work := rfl
@[simp] theorem setCtx_ev (s : State) (id : CtxId) (c : Ctx) : (s.setCtx id c).ev = s.ev := rfl
@[simp] theorem setCtx_idle (s : State) (id : CtxId) (c : Ctx) : (s.setCtx id c).idle = s.idle := rfl
@[simp] theorem setCtx_stepNo (s : State) (id : CtxId) (c : Ctx) : (s.setCtx id c).stepNo = s.stepNo := rfl
@[simp] theorem setCtx_clock (s : State) (id : CtxId) (c : Ctx) : (s.setCtx id c).clock = s.clock := rfl
@[simp] theorem setCtx_pfx (s : State) (id : CtxId) (c : Ctx) : (s.setCtx id c).pfx = s.pfx := rfl
@[simp] theorem setCtx_cores (s : State) (id : CtxId) (c : Ctx) : (s.setCtx id c).cores = s.cores := rfl
@[simp] theorem setCtx_polders (s : State) (id : CtxId) (c : Ctx) : (s.setCtx id c).polders = s.polders := rfl
@[simp] theorem setCtx_dies (s : State) (id : CtxId) (c : Ctx) : (s.setCtx id c).dies = s.dies := rfl
@[simp] theorem setCtx_pkgs (s : State) (id : CtxId) (c : Ctx) : (s.setCtx id c).pkgs = s.pkgs := rfl
@[simp] theorem setCtx_group (s : State) (id : CtxId) (c : Ctx) : (s.setCtx id c).group = s.group := rfl
@[simp] theorem setCtx_domain (s : State) (id : CtxId) (c : Ctx) : (s.setCtx id c).domain = s.domain := rfl
@[simp] theorem setCtx_mem (s : State) (id : CtxId) (c : Ctx) : (s.setCtx id c).mem = s.mem := rfl
@[simp] theorem setCtx_lost (s : State) (id : CtxId) (c : Ctx) : (s.setCtx id c).lost = s.lost := rfl
@[simp] theorem setCtx_lostWords (s : State) (id : CtxId) (c : Ctx) : (s.setCtx id c).lostWords = s.lostWords := rfl
@[simp] theorem setCtx_dirs (s : State) (id : CtxId) (c : Ctx) : (s.setCtx id c).dirs = s.dirs := rfl
@[simp] theorem setCtx_proxies (s : State) (id : CtxId) (c : Ctx) : (s.setCtx id c).proxies = s.proxies := rfl
@[simp] theorem setCtx_pins (s : State) (id : CtxId) (c : Ctx) : (s.setCtx id c).pins = s.pins := rfl
@[simp] theorem setCtx_late (s : State) (id : CtxId) (c : Ctx) : (s.setCtx id c).late = s.late := rfl
@[simp] theorem setCtx_tries (s : State) (id : CtxId) (c : Ctx) : (s.setCtx id c).tries = s.tries := rfl
@[simp] theorem setCtx_locks (s : State) (id : CtxId) (c : Ctx) : (s.setCtx id c).locks = s.locks := rfl
@[simp] theorem setCtx_nmOps (s : State) (id : CtxId) (c : Ctx) : (s.setCtx id c).nmOps = s.nmOps := rfl
@[simp] theorem setCtx_migs (s : State) (id : CtxId) (c : Ctx) : (s.setCtx id c).migs = s.migs := rfl
@[simp] theorem setCtx_nextCmd (s : State) (id : CtxId) (c : Ctx) : (s.setCtx id c).nextCmd = s.nextCmd := rfl
@[simp] theorem setCtx_flights (s : State) (id : CtxId) (c : Ctx) : (s.setCtx id c).flights = s.flights := rfl
@[simp] theorem setCtx_urgent (s : State) (id : CtxId) (c : Ctx) : (s.setCtx id c).urgent = s.urgent := rfl
@[simp] theorem setCtx_colls (s : State) (id : CtxId) (c : Ctx) : (s.setCtx id c).colls = s.colls := rfl
@[simp] theorem setCtx_clones (s : State) (id : CtxId) (c : Ctx) : (s.setCtx id c).clones = s.clones := rfl
@[simp] theorem setCtx_tokens (s : State) (id : CtxId) (c : Ctx) : (s.setCtx id c).tokens = s.tokens := rfl
@[simp] theorem setCtx_accepts (s : State) (id : CtxId) (c : Ctx) : (s.setCtx id c).accepts = s.accepts := rfl
@[simp] theorem setCtx_results (s : State) (id : CtxId) (c : Ctx) : (s.setCtx id c).results = s.results := rfl
@[simp] theorem setCtx_legUps (s : State) (id : CtxId) (c : Ctx) : (s.setCtx id c).legUps = s.legUps := rfl

/-! ## setCore -/

@[simp] theorem setCore_fnode (s : State) (node k : Nat) (c : CoreSt) : (s.setCore node k c).fnode = s.fnode := rfl
@[simp] theorem setCore_fcore (s : State) (node k : Nat) (c : CoreSt) : (s.setCore node k c).fcore = s.fcore := rfl
@[simp] theorem setCore_schedule (s : State) (node k : Nat) (c : CoreSt) : (s.setCore node k c).schedule = s.schedule := rfl
@[simp] theorem setCore_work (s : State) (node k : Nat) (c : CoreSt) : (s.setCore node k c).work = s.work := rfl
@[simp] theorem setCore_ev (s : State) (node k : Nat) (c : CoreSt) : (s.setCore node k c).ev = s.ev := rfl
@[simp] theorem setCore_idle (s : State) (node k : Nat) (c : CoreSt) : (s.setCore node k c).idle = s.idle := rfl
@[simp] theorem setCore_stepNo (s : State) (node k : Nat) (c : CoreSt) : (s.setCore node k c).stepNo = s.stepNo := rfl
@[simp] theorem setCore_clock (s : State) (node k : Nat) (c : CoreSt) : (s.setCore node k c).clock = s.clock := rfl
@[simp] theorem setCore_pfx (s : State) (node k : Nat) (c : CoreSt) : (s.setCore node k c).pfx = s.pfx := rfl
@[simp] theorem setCore_ctxs (s : State) (node k : Nat) (c : CoreSt) : (s.setCore node k c).ctxs = s.ctxs := rfl
@[simp] theorem setCore_polders (s : State) (node k : Nat) (c : CoreSt) : (s.setCore node k c).polders = s.polders := rfl
@[simp] theorem setCore_dies (s : State) (node k : Nat) (c : CoreSt) : (s.setCore node k c).dies = s.dies := rfl
@[simp] theorem setCore_pkgs (s : State) (node k : Nat) (c : CoreSt) : (s.setCore node k c).pkgs = s.pkgs := rfl
@[simp] theorem setCore_group (s : State) (node k : Nat) (c : CoreSt) : (s.setCore node k c).group = s.group := rfl
@[simp] theorem setCore_domain (s : State) (node k : Nat) (c : CoreSt) : (s.setCore node k c).domain = s.domain := rfl
@[simp] theorem setCore_mem (s : State) (node k : Nat) (c : CoreSt) : (s.setCore node k c).mem = s.mem := rfl
@[simp] theorem setCore_lost (s : State) (node k : Nat) (c : CoreSt) : (s.setCore node k c).lost = s.lost := rfl
@[simp] theorem setCore_lostWords (s : State) (node k : Nat) (c : CoreSt) : (s.setCore node k c).lostWords = s.lostWords := rfl
@[simp] theorem setCore_dirs (s : State) (node k : Nat) (c : CoreSt) : (s.setCore node k c).dirs = s.dirs := rfl
@[simp] theorem setCore_proxies (s : State) (node k : Nat) (c : CoreSt) : (s.setCore node k c).proxies = s.proxies := rfl
@[simp] theorem setCore_pins (s : State) (node k : Nat) (c : CoreSt) : (s.setCore node k c).pins = s.pins := rfl
@[simp] theorem setCore_late (s : State) (node k : Nat) (c : CoreSt) : (s.setCore node k c).late = s.late := rfl
@[simp] theorem setCore_tries (s : State) (node k : Nat) (c : CoreSt) : (s.setCore node k c).tries = s.tries := rfl
@[simp] theorem setCore_locks (s : State) (node k : Nat) (c : CoreSt) : (s.setCore node k c).locks = s.locks := rfl
@[simp] theorem setCore_nmOps (s : State) (node k : Nat) (c : CoreSt) : (s.setCore node k c).nmOps = s.nmOps := rfl
@[simp] theorem setCore_migs (s : State) (node k : Nat) (c : CoreSt) : (s.setCore node k c).migs = s.migs := rfl
@[simp] theorem setCore_nextCmd (s : State) (node k : Nat) (c : CoreSt) : (s.setCore node k c).nextCmd = s.nextCmd := rfl
@[simp] theorem setCore_flights (s : State) (node k : Nat) (c : CoreSt) : (s.setCore node k c).flights = s.flights := rfl
@[simp] theorem setCore_urgent (s : State) (node k : Nat) (c : CoreSt) : (s.setCore node k c).urgent = s.urgent := rfl
@[simp] theorem setCore_colls (s : State) (node k : Nat) (c : CoreSt) : (s.setCore node k c).colls = s.colls := rfl
@[simp] theorem setCore_clones (s : State) (node k : Nat) (c : CoreSt) : (s.setCore node k c).clones = s.clones := rfl
@[simp] theorem setCore_tokens (s : State) (node k : Nat) (c : CoreSt) : (s.setCore node k c).tokens = s.tokens := rfl
@[simp] theorem setCore_accepts (s : State) (node k : Nat) (c : CoreSt) : (s.setCore node k c).accepts = s.accepts := rfl
@[simp] theorem setCore_results (s : State) (node k : Nat) (c : CoreSt) : (s.setCore node k c).results = s.results := rfl
@[simp] theorem setCore_legUps (s : State) (node k : Nat) (c : CoreSt) : (s.setCore node k c).legUps = s.legUps := rfl

/-! ## setPolder -/

@[simp] theorem setPolder_fnode (s : State) (node p : Nat) (c : Polder) : (s.setPolder node p c).fnode = s.fnode := rfl
@[simp] theorem setPolder_fcore (s : State) (node p : Nat) (c : Polder) : (s.setPolder node p c).fcore = s.fcore := rfl
@[simp] theorem setPolder_schedule (s : State) (node p : Nat) (c : Polder) : (s.setPolder node p c).schedule = s.schedule := rfl
@[simp] theorem setPolder_work (s : State) (node p : Nat) (c : Polder) : (s.setPolder node p c).work = s.work := rfl
@[simp] theorem setPolder_ev (s : State) (node p : Nat) (c : Polder) : (s.setPolder node p c).ev = s.ev := rfl
@[simp] theorem setPolder_idle (s : State) (node p : Nat) (c : Polder) : (s.setPolder node p c).idle = s.idle := rfl
@[simp] theorem setPolder_stepNo (s : State) (node p : Nat) (c : Polder) : (s.setPolder node p c).stepNo = s.stepNo := rfl
@[simp] theorem setPolder_clock (s : State) (node p : Nat) (c : Polder) : (s.setPolder node p c).clock = s.clock := rfl
@[simp] theorem setPolder_pfx (s : State) (node p : Nat) (c : Polder) : (s.setPolder node p c).pfx = s.pfx := rfl
@[simp] theorem setPolder_ctxs (s : State) (node p : Nat) (c : Polder) : (s.setPolder node p c).ctxs = s.ctxs := rfl
@[simp] theorem setPolder_cores (s : State) (node p : Nat) (c : Polder) : (s.setPolder node p c).cores = s.cores := rfl
@[simp] theorem setPolder_dies (s : State) (node p : Nat) (c : Polder) : (s.setPolder node p c).dies = s.dies := rfl
@[simp] theorem setPolder_pkgs (s : State) (node p : Nat) (c : Polder) : (s.setPolder node p c).pkgs = s.pkgs := rfl
@[simp] theorem setPolder_group (s : State) (node p : Nat) (c : Polder) : (s.setPolder node p c).group = s.group := rfl
@[simp] theorem setPolder_domain (s : State) (node p : Nat) (c : Polder) : (s.setPolder node p c).domain = s.domain := rfl
@[simp] theorem setPolder_mem (s : State) (node p : Nat) (c : Polder) : (s.setPolder node p c).mem = s.mem := rfl
@[simp] theorem setPolder_lost (s : State) (node p : Nat) (c : Polder) : (s.setPolder node p c).lost = s.lost := rfl
@[simp] theorem setPolder_lostWords (s : State) (node p : Nat) (c : Polder) : (s.setPolder node p c).lostWords = s.lostWords := rfl
@[simp] theorem setPolder_dirs (s : State) (node p : Nat) (c : Polder) : (s.setPolder node p c).dirs = s.dirs := rfl
@[simp] theorem setPolder_proxies (s : State) (node p : Nat) (c : Polder) : (s.setPolder node p c).proxies = s.proxies := rfl
@[simp] theorem setPolder_pins (s : State) (node p : Nat) (c : Polder) : (s.setPolder node p c).pins = s.pins := rfl
@[simp] theorem setPolder_late (s : State) (node p : Nat) (c : Polder) : (s.setPolder node p c).late = s.late := rfl
@[simp] theorem setPolder_tries (s : State) (node p : Nat) (c : Polder) : (s.setPolder node p c).tries = s.tries := rfl
@[simp] theorem setPolder_locks (s : State) (node p : Nat) (c : Polder) : (s.setPolder node p c).locks = s.locks := rfl
@[simp] theorem setPolder_nmOps (s : State) (node p : Nat) (c : Polder) : (s.setPolder node p c).nmOps = s.nmOps := rfl
@[simp] theorem setPolder_migs (s : State) (node p : Nat) (c : Polder) : (s.setPolder node p c).migs = s.migs := rfl
@[simp] theorem setPolder_nextCmd (s : State) (node p : Nat) (c : Polder) : (s.setPolder node p c).nextCmd = s.nextCmd := rfl
@[simp] theorem setPolder_flights (s : State) (node p : Nat) (c : Polder) : (s.setPolder node p c).flights = s.flights := rfl
@[simp] theorem setPolder_urgent (s : State) (node p : Nat) (c : Polder) : (s.setPolder node p c).urgent = s.urgent := rfl
@[simp] theorem setPolder_colls (s : State) (node p : Nat) (c : Polder) : (s.setPolder node p c).colls = s.colls := rfl
@[simp] theorem setPolder_clones (s : State) (node p : Nat) (c : Polder) : (s.setPolder node p c).clones = s.clones := rfl
@[simp] theorem setPolder_tokens (s : State) (node p : Nat) (c : Polder) : (s.setPolder node p c).tokens = s.tokens := rfl
@[simp] theorem setPolder_accepts (s : State) (node p : Nat) (c : Polder) : (s.setPolder node p c).accepts = s.accepts := rfl
@[simp] theorem setPolder_results (s : State) (node p : Nat) (c : Polder) : (s.setPolder node p c).results = s.results := rfl
@[simp] theorem setPolder_legUps (s : State) (node p : Nat) (c : Polder) : (s.setPolder node p c).legUps = s.legUps := rfl

/-! ## setDie -/

@[simp] theorem setDie_fnode (s : State) (node d : Nat) (c : DieSt) : (s.setDie node d c).fnode = s.fnode := rfl
@[simp] theorem setDie_fcore (s : State) (node d : Nat) (c : DieSt) : (s.setDie node d c).fcore = s.fcore := rfl
@[simp] theorem setDie_schedule (s : State) (node d : Nat) (c : DieSt) : (s.setDie node d c).schedule = s.schedule := rfl
@[simp] theorem setDie_work (s : State) (node d : Nat) (c : DieSt) : (s.setDie node d c).work = s.work := rfl
@[simp] theorem setDie_ev (s : State) (node d : Nat) (c : DieSt) : (s.setDie node d c).ev = s.ev := rfl
@[simp] theorem setDie_idle (s : State) (node d : Nat) (c : DieSt) : (s.setDie node d c).idle = s.idle := rfl
@[simp] theorem setDie_stepNo (s : State) (node d : Nat) (c : DieSt) : (s.setDie node d c).stepNo = s.stepNo := rfl
@[simp] theorem setDie_clock (s : State) (node d : Nat) (c : DieSt) : (s.setDie node d c).clock = s.clock := rfl
@[simp] theorem setDie_pfx (s : State) (node d : Nat) (c : DieSt) : (s.setDie node d c).pfx = s.pfx := rfl
@[simp] theorem setDie_ctxs (s : State) (node d : Nat) (c : DieSt) : (s.setDie node d c).ctxs = s.ctxs := rfl
@[simp] theorem setDie_cores (s : State) (node d : Nat) (c : DieSt) : (s.setDie node d c).cores = s.cores := rfl
@[simp] theorem setDie_polders (s : State) (node d : Nat) (c : DieSt) : (s.setDie node d c).polders = s.polders := rfl
@[simp] theorem setDie_pkgs (s : State) (node d : Nat) (c : DieSt) : (s.setDie node d c).pkgs = s.pkgs := rfl
@[simp] theorem setDie_group (s : State) (node d : Nat) (c : DieSt) : (s.setDie node d c).group = s.group := rfl
@[simp] theorem setDie_domain (s : State) (node d : Nat) (c : DieSt) : (s.setDie node d c).domain = s.domain := rfl
@[simp] theorem setDie_mem (s : State) (node d : Nat) (c : DieSt) : (s.setDie node d c).mem = s.mem := rfl
@[simp] theorem setDie_lost (s : State) (node d : Nat) (c : DieSt) : (s.setDie node d c).lost = s.lost := rfl
@[simp] theorem setDie_lostWords (s : State) (node d : Nat) (c : DieSt) : (s.setDie node d c).lostWords = s.lostWords := rfl
@[simp] theorem setDie_dirs (s : State) (node d : Nat) (c : DieSt) : (s.setDie node d c).dirs = s.dirs := rfl
@[simp] theorem setDie_proxies (s : State) (node d : Nat) (c : DieSt) : (s.setDie node d c).proxies = s.proxies := rfl
@[simp] theorem setDie_pins (s : State) (node d : Nat) (c : DieSt) : (s.setDie node d c).pins = s.pins := rfl
@[simp] theorem setDie_late (s : State) (node d : Nat) (c : DieSt) : (s.setDie node d c).late = s.late := rfl
@[simp] theorem setDie_tries (s : State) (node d : Nat) (c : DieSt) : (s.setDie node d c).tries = s.tries := rfl
@[simp] theorem setDie_locks (s : State) (node d : Nat) (c : DieSt) : (s.setDie node d c).locks = s.locks := rfl
@[simp] theorem setDie_nmOps (s : State) (node d : Nat) (c : DieSt) : (s.setDie node d c).nmOps = s.nmOps := rfl
@[simp] theorem setDie_migs (s : State) (node d : Nat) (c : DieSt) : (s.setDie node d c).migs = s.migs := rfl
@[simp] theorem setDie_nextCmd (s : State) (node d : Nat) (c : DieSt) : (s.setDie node d c).nextCmd = s.nextCmd := rfl
@[simp] theorem setDie_flights (s : State) (node d : Nat) (c : DieSt) : (s.setDie node d c).flights = s.flights := rfl
@[simp] theorem setDie_urgent (s : State) (node d : Nat) (c : DieSt) : (s.setDie node d c).urgent = s.urgent := rfl
@[simp] theorem setDie_colls (s : State) (node d : Nat) (c : DieSt) : (s.setDie node d c).colls = s.colls := rfl
@[simp] theorem setDie_clones (s : State) (node d : Nat) (c : DieSt) : (s.setDie node d c).clones = s.clones := rfl
@[simp] theorem setDie_tokens (s : State) (node d : Nat) (c : DieSt) : (s.setDie node d c).tokens = s.tokens := rfl
@[simp] theorem setDie_accepts (s : State) (node d : Nat) (c : DieSt) : (s.setDie node d c).accepts = s.accepts := rfl
@[simp] theorem setDie_results (s : State) (node d : Nat) (c : DieSt) : (s.setDie node d c).results = s.results := rfl
@[simp] theorem setDie_legUps (s : State) (node d : Nat) (c : DieSt) : (s.setDie node d c).legUps = s.legUps := rfl

/-! ## setPkg -/

@[simp] theorem setPkg_fnode (s : State) (node : Nat) (c : Pkg) : (s.setPkg node c).fnode = s.fnode := rfl
@[simp] theorem setPkg_fcore (s : State) (node : Nat) (c : Pkg) : (s.setPkg node c).fcore = s.fcore := rfl
@[simp] theorem setPkg_schedule (s : State) (node : Nat) (c : Pkg) : (s.setPkg node c).schedule = s.schedule := rfl
@[simp] theorem setPkg_work (s : State) (node : Nat) (c : Pkg) : (s.setPkg node c).work = s.work := rfl
@[simp] theorem setPkg_ev (s : State) (node : Nat) (c : Pkg) : (s.setPkg node c).ev = s.ev := rfl
@[simp] theorem setPkg_idle (s : State) (node : Nat) (c : Pkg) : (s.setPkg node c).idle = s.idle := rfl
@[simp] theorem setPkg_stepNo (s : State) (node : Nat) (c : Pkg) : (s.setPkg node c).stepNo = s.stepNo := rfl
@[simp] theorem setPkg_clock (s : State) (node : Nat) (c : Pkg) : (s.setPkg node c).clock = s.clock := rfl
@[simp] theorem setPkg_pfx (s : State) (node : Nat) (c : Pkg) : (s.setPkg node c).pfx = s.pfx := rfl
@[simp] theorem setPkg_ctxs (s : State) (node : Nat) (c : Pkg) : (s.setPkg node c).ctxs = s.ctxs := rfl
@[simp] theorem setPkg_cores (s : State) (node : Nat) (c : Pkg) : (s.setPkg node c).cores = s.cores := rfl
@[simp] theorem setPkg_polders (s : State) (node : Nat) (c : Pkg) : (s.setPkg node c).polders = s.polders := rfl
@[simp] theorem setPkg_dies (s : State) (node : Nat) (c : Pkg) : (s.setPkg node c).dies = s.dies := rfl
@[simp] theorem setPkg_group (s : State) (node : Nat) (c : Pkg) : (s.setPkg node c).group = s.group := rfl
@[simp] theorem setPkg_domain (s : State) (node : Nat) (c : Pkg) : (s.setPkg node c).domain = s.domain := rfl
@[simp] theorem setPkg_mem (s : State) (node : Nat) (c : Pkg) : (s.setPkg node c).mem = s.mem := rfl
@[simp] theorem setPkg_lost (s : State) (node : Nat) (c : Pkg) : (s.setPkg node c).lost = s.lost := rfl
@[simp] theorem setPkg_lostWords (s : State) (node : Nat) (c : Pkg) : (s.setPkg node c).lostWords = s.lostWords := rfl
@[simp] theorem setPkg_dirs (s : State) (node : Nat) (c : Pkg) : (s.setPkg node c).dirs = s.dirs := rfl
@[simp] theorem setPkg_proxies (s : State) (node : Nat) (c : Pkg) : (s.setPkg node c).proxies = s.proxies := rfl
@[simp] theorem setPkg_pins (s : State) (node : Nat) (c : Pkg) : (s.setPkg node c).pins = s.pins := rfl
@[simp] theorem setPkg_late (s : State) (node : Nat) (c : Pkg) : (s.setPkg node c).late = s.late := rfl
@[simp] theorem setPkg_tries (s : State) (node : Nat) (c : Pkg) : (s.setPkg node c).tries = s.tries := rfl
@[simp] theorem setPkg_locks (s : State) (node : Nat) (c : Pkg) : (s.setPkg node c).locks = s.locks := rfl
@[simp] theorem setPkg_nmOps (s : State) (node : Nat) (c : Pkg) : (s.setPkg node c).nmOps = s.nmOps := rfl
@[simp] theorem setPkg_migs (s : State) (node : Nat) (c : Pkg) : (s.setPkg node c).migs = s.migs := rfl
@[simp] theorem setPkg_nextCmd (s : State) (node : Nat) (c : Pkg) : (s.setPkg node c).nextCmd = s.nextCmd := rfl
@[simp] theorem setPkg_flights (s : State) (node : Nat) (c : Pkg) : (s.setPkg node c).flights = s.flights := rfl
@[simp] theorem setPkg_urgent (s : State) (node : Nat) (c : Pkg) : (s.setPkg node c).urgent = s.urgent := rfl
@[simp] theorem setPkg_colls (s : State) (node : Nat) (c : Pkg) : (s.setPkg node c).colls = s.colls := rfl
@[simp] theorem setPkg_clones (s : State) (node : Nat) (c : Pkg) : (s.setPkg node c).clones = s.clones := rfl
@[simp] theorem setPkg_tokens (s : State) (node : Nat) (c : Pkg) : (s.setPkg node c).tokens = s.tokens := rfl
@[simp] theorem setPkg_accepts (s : State) (node : Nat) (c : Pkg) : (s.setPkg node c).accepts = s.accepts := rfl
@[simp] theorem setPkg_results (s : State) (node : Nat) (c : Pkg) : (s.setPkg node c).results = s.results := rfl
@[simp] theorem setPkg_legUps (s : State) (node : Nat) (c : Pkg) : (s.setPkg node c).legUps = s.legUps := rfl

/-! ## Reading units after an update -/

@[simp] theorem setCtx_core (s : State) (id : CtxId) (c : Ctx) (n j : Nat) : (s.setCtx id c).core n j = s.core n j := rfl
@[simp] theorem setCtx_polder (s : State) (id : CtxId) (c : Ctx) (n j : Nat) : (s.setCtx id c).polder n j = s.polder n j := rfl
@[simp] theorem setCtx_die (s : State) (id : CtxId) (c : Ctx) (n j : Nat) : (s.setCtx id c).die n j = s.die n j := rfl
@[simp] theorem setCtx_pkg (s : State) (id : CtxId) (c : Ctx) (n : Nat) : (s.setCtx id c).pkg n = s.pkg n := rfl
@[simp] theorem setCore_ctx (s : State) (node k : Nat) (c : CoreSt) (i : CtxId) : (s.setCore node k c).ctx i = s.ctx i := rfl
@[simp] theorem setCore_polder (s : State) (node k : Nat) (c : CoreSt) (n j : Nat) : (s.setCore node k c).polder n j = s.polder n j := rfl
@[simp] theorem setCore_die (s : State) (node k : Nat) (c : CoreSt) (n j : Nat) : (s.setCore node k c).die n j = s.die n j := rfl
@[simp] theorem setCore_pkg (s : State) (node k : Nat) (c : CoreSt) (n : Nat) : (s.setCore node k c).pkg n = s.pkg n := rfl
@[simp] theorem setPolder_ctx (s : State) (node p : Nat) (c : Polder) (i : CtxId) : (s.setPolder node p c).ctx i = s.ctx i := rfl
@[simp] theorem setPolder_core (s : State) (node p : Nat) (c : Polder) (n j : Nat) : (s.setPolder node p c).core n j = s.core n j := rfl
@[simp] theorem setPolder_die (s : State) (node p : Nat) (c : Polder) (n j : Nat) : (s.setPolder node p c).die n j = s.die n j := rfl
@[simp] theorem setPolder_pkg (s : State) (node p : Nat) (c : Polder) (n : Nat) : (s.setPolder node p c).pkg n = s.pkg n := rfl
@[simp] theorem setDie_ctx (s : State) (node d : Nat) (c : DieSt) (i : CtxId) : (s.setDie node d c).ctx i = s.ctx i := rfl
@[simp] theorem setDie_core (s : State) (node d : Nat) (c : DieSt) (n j : Nat) : (s.setDie node d c).core n j = s.core n j := rfl
@[simp] theorem setDie_polder (s : State) (node d : Nat) (c : DieSt) (n j : Nat) : (s.setDie node d c).polder n j = s.polder n j := rfl
@[simp] theorem setDie_pkg (s : State) (node d : Nat) (c : DieSt) (n : Nat) : (s.setDie node d c).pkg n = s.pkg n := rfl
@[simp] theorem setPkg_ctx (s : State) (node : Nat) (c : Pkg) (i : CtxId) : (s.setPkg node c).ctx i = s.ctx i := rfl
@[simp] theorem setPkg_core (s : State) (node : Nat) (c : Pkg) (n j : Nat) : (s.setPkg node c).core n j = s.core n j := rfl
@[simp] theorem setPkg_polder (s : State) (node : Nat) (c : Pkg) (n j : Nat) : (s.setPkg node c).polder n j = s.polder n j := rfl
@[simp] theorem setPkg_die (s : State) (node : Nat) (c : Pkg) (n j : Nat) : (s.setPkg node c).die n j = s.die n j := rfl

@[simp] theorem setCtx_ctx_same (s : State) (id : CtxId) (c : Ctx) : (s.setCtx id c).ctx id = c := by simp [State.ctx, State.setCtx]
@[simp] theorem setCtx_ctx_other (s : State) (id i : CtxId) (c : Ctx) (h : i ≠ id) : (s.setCtx id c).ctx i = s.ctx i := by
  simp [State.ctx, State.setCtx, h]
@[simp] theorem setCore_core_same (s : State) (n k : Nat) (c : CoreSt) : (s.setCore n k c).core n k = c := by simp [State.core, State.setCore]
@[simp] theorem setCore_core_other (s : State) (n k n' k' : Nat) (c : CoreSt) (h : (n', k') ≠ (n, k)) :
    (s.setCore n k c).core n' k' = s.core n' k' := by simp [State.core, State.setCore, h]
@[simp] theorem setPolder_polder_same (s : State) (n k : Nat) (c : Polder) : (s.setPolder n k c).polder n k = c := by
  simp [State.polder, State.setPolder]
@[simp] theorem setPolder_polder_other (s : State) (n k n' k' : Nat) (c : Polder) (h : (n', k') ≠ (n, k)) :
    (s.setPolder n k c).polder n' k' = s.polder n' k' := by simp [State.polder, State.setPolder, h]
@[simp] theorem setDie_die_same (s : State) (n k : Nat) (c : DieSt) : (s.setDie n k c).die n k = c := by simp [State.die, State.setDie]
@[simp] theorem setDie_die_other (s : State) (n k n' k' : Nat) (c : DieSt) (h : (n', k') ≠ (n, k)) :
    (s.setDie n k c).die n' k' = s.die n' k' := by simp [State.die, State.setDie, h]
@[simp] theorem setPkg_pkg_same (s : State) (n : Nat) (c : Pkg) : (s.setPkg n c).pkg n = c := by simp [State.pkg, State.setPkg]
@[simp] theorem setPkg_pkg_other (s : State) (n m : Nat) (c : Pkg) (h : m ≠ n) : (s.setPkg n c).pkg m = s.pkg m := by
  simp [State.pkg, State.setPkg, h]

/-! ## The issuing context and core -/

@[simp] theorem setCtx_cc (s : State) (id : CtxId) (c : Ctx) : (s.setCtx id c).cc = s.cc := rfl
@[simp] theorem setCtx_cur (s : State) (id : CtxId) (c : Ctx) : (s.setCtx id c).cur = s.cur := rfl
@[simp] theorem setC_cur (s : State) (c : Ctx) : (s.setC c).cur = s.cur := rfl
@[simp] theorem setC_cc (s : State) (c : Ctx) : (s.setC c).cc = s.cc := rfl
@[simp] theorem setC_c (s : State) (c : Ctx) : (s.setC c).c = c := setCtx_ctx_same s s.cur c
@[simp] theorem setC_ctx_other (s : State) (c : Ctx) (i : CtxId) (h : i ≠ s.cur) : (s.setC c).ctx i = s.ctx i :=
  setCtx_ctx_other s s.cur i c h
@[simp] theorem setC_mem (s : State) (c : Ctx) : (s.setC c).mem = s.mem := rfl
@[simp] theorem setC_pfx (s : State) (c : Ctx) : (s.setC c).pfx = s.pfx := rfl
@[simp] theorem setC_polder (s : State) (c : Ctx) (n p : Nat) : (s.setC c).polder n p = s.polder n p := rfl
@[simp] theorem setC_core (s : State) (c : Ctx) (n k : Nat) : (s.setC c).core n k = s.core n k := rfl
@[simp] theorem setCC_cc (s : State) (q : CoreSt) : (s.setCC q).cc = q := setCore_core_same s s.fnode s.fcore q
@[simp] theorem setCC_mem (s : State) (q : CoreSt) : (s.setCC q).mem = s.mem := rfl
@[simp] theorem setCC_ctx (s : State) (q : CoreSt) (i : CtxId) : (s.setCC q).ctx i = s.ctx i := rfl
@[simp] theorem setX_mem (s : State) (r : Reg) (v : Word) : (s.setX r v).mem = s.mem := rfl
@[simp] theorem setX_cc (s : State) (r : Reg) (v : Word) : (s.setX r v).cc = s.cc := rfl
@[simp] theorem setX_cur (s : State) (r : Reg) (v : Word) : (s.setX r v).cur = s.cur := rfl
@[simp] theorem setX_pfx (s : State) (r : Reg) (v : Word) : (s.setX r v).pfx = s.pfx := rfl
@[simp] theorem setX_c (s : State) (r : Reg) (v : Word) : (s.setX r v).c = s.c.setX r v := setC_c s _

/-! ## Registers of a context -/

/-- x0 reads 0 (R230). -/
@[simp] theorem xr_zero (c : Ctx) : c.xr 0 = 0 := rfl
/-- A write of x0 is discarded (R230). -/
@[simp] theorem setX_zero (c : Ctx) (v : Word) : c.setX 0 v = c := rfl
/-- The register just written, other than x0. -/
@[simp] theorem xr_setX_same (c : Ctx) (r : Reg) (v : Word) (h : r ≠ 0) : (c.setX r v).xr r = v := by
  simp only [Ctx.xr, Ctx.setX, if_neg h, Vector.getElem_set_self]
/-- Another register. -/
@[simp] theorem xr_setX_other (c : Ctx) (r q : Reg) (v : Word) (h : q ≠ r) : (c.setX r v).xr q = c.xr q := by
  unfold Ctx.setX Ctx.xr
  split
  · rfl
  · split
    · rfl
    · have : r.toNat ≠ q.toNat := fun e => h (BitVec.eq_of_toNat_eq e.symm)
      simp [this]

@[simp] theorem ctx_setX_v (c : Ctx) (r : Reg) (v : Word) : (c.setX r v).v = c.v := by unfold Ctx.setX; split <;> rfl
@[simp] theorem ctx_setX_p (c : Ctx) (r : Reg) (v : Word) : (c.setX r v).p = c.p := by unfold Ctx.setX; split <;> rfl
@[simp] theorem ctx_setX_g (c : Ctx) (r : Reg) (v : Word) : (c.setX r v).g = c.g := by unfold Ctx.setX; split <;> rfl
@[simp] theorem ctx_setX_pc (c : Ctx) (r : Reg) (v : Word) : (c.setX r v).pc = c.pc := by unfold Ctx.setX; split <;> rfl
@[simp] theorem ctx_setX_fpstat (c : Ctx) (r : Reg) (v : Word) : (c.setX r v).fpstat = c.fpstat := by unfold Ctx.setX; split <;> rfl
@[simp] theorem ctx_setX_rmode (c : Ctx) (r : Reg) (v : Word) : (c.setX r v).rmode = c.rmode := by unfold Ctx.setX; split <;> rfl
@[simp] theorem ctx_setX_srseed (c : Ctx) (r : Reg) (v : Word) : (c.setX r v).srseed = c.srseed := by unfold Ctx.setX; split <;> rfl
@[simp] theorem ctx_setX_asid (c : Ctx) (r : Reg) (v : Word) : (c.setX r v).asid = c.asid := by unfold Ctx.setX; split <;> rfl
@[simp] theorem ctx_setX_ptroot (c : Ctx) (r : Reg) (v : Word) : (c.setX r v).ptroot = c.ptroot := by unfold Ctx.setX; split <;> rfl
@[simp] theorem ctx_setX_wscale6 (c : Ctx) (r : Reg) (v : Word) : (c.setX r v).wscale6 = c.wscale6 := by unfold Ctx.setX; split <;> rfl
@[simp] theorem ctx_setX_wscale7 (c : Ctx) (r : Reg) (v : Word) : (c.setX r v).wscale7 = c.wscale7 := by unfold Ctx.setX; split <;> rfl
@[simp] theorem ctx_setX_instret (c : Ctx) (r : Reg) (v : Word) : (c.setX r v).instret = c.instret := by unfold Ctx.setX; split <;> rfl
@[simp] theorem ctx_setX_tcause (c : Ctx) (r : Reg) (v : Word) : (c.setX r v).tcause = c.tcause := by unfold Ctx.setX; split <;> rfl
@[simp] theorem ctx_setX_tpc (c : Ctx) (r : Reg) (v : Word) : (c.setX r v).tpc = c.tpc := by unfold Ctx.setX; split <;> rfl
@[simp] theorem ctx_setX_tval (c : Ctx) (r : Reg) (v : Word) : (c.setX r v).tval = c.tval := by unfold Ctx.setX; split <;> rfl
@[simp] theorem ctx_setX_tinfo (c : Ctx) (r : Reg) (v : Word) : (c.setX r v).tinfo = c.tinfo := by unfold Ctx.setX; split <;> rfl
@[simp] theorem ctx_setX_loopActive (c : Ctx) (r : Reg) (v : Word) : (c.setX r v).loopActive = c.loopActive := by unfold Ctx.setX; split <;> rfl
@[simp] theorem ctx_setX_lstart (c : Ctx) (r : Reg) (v : Word) : (c.setX r v).lstart = c.lstart := by unfold Ctx.setX; split <;> rfl
@[simp] theorem ctx_setX_lend (c : Ctx) (r : Reg) (v : Word) : (c.setX r v).lend = c.lend := by unfold Ctx.setX; split <;> rfl
@[simp] theorem ctx_setX_lrem (c : Ctx) (r : Reg) (v : Word) : (c.setX r v).lrem = c.lrem := by unfold Ctx.setX; split <;> rfl
@[simp] theorem ctx_setX_ports (c : Ctx) (r : Reg) (v : Word) : (c.setX r v).ports = c.ports := by unfold Ctx.setX; split <;> rfl
@[simp] theorem ctx_setX_st (c : Ctx) (r : Reg) (v : Word) : (c.setX r v).st = c.st := by unfold Ctx.setX; split <;> rfl
@[simp] theorem ctx_setX_wait (c : Ctx) (r : Reg) (v : Word) : (c.setX r v).wait = c.wait := by unfold Ctx.setX; split <;> rfl
@[simp] theorem ctx_setX_ra (c : Ctx) (r : Reg) (v : Word) : (c.setX r v).ra = c.ra := by unfold Ctx.setX; split <;> rfl
@[simp] theorem ctx_setX_gen (c : Ctx) (r : Reg) (v : Word) : (c.setX r v).gen = c.gen := by unfold Ctx.setX; split <;> rfl
@[simp] theorem ctx_setX_lastEnd (c : Ctx) (r : Reg) (v : Word) : (c.setX r v).lastEnd = c.lastEnd := by unfold Ctx.setX; split <;> rfl
@[simp] theorem ctx_setX_nmPending (c : Ctx) (r : Reg) (v : Word) : (c.setX r v).nmPending = c.nmPending := by unfold Ctx.setX; split <;> rfl
@[simp] theorem ctx_setX_nmErrors (c : Ctx) (r : Reg) (v : Word) : (c.setX r v).nmErrors = c.nmErrors := by unfold Ctx.setX; split <;> rfl
@[simp] theorem ctx_setX_holdBreaks (c : Ctx) (r : Reg) (v : Word) : (c.setX r v).holdBreaks = c.holdBreaks := by unfold Ctx.setX; split <;> rfl
@[simp] theorem ctx_setX_poolStores (c : Ctx) (r : Reg) (v : Word) : (c.setX r v).poolStores = c.poolStores := by unfold Ctx.setX; split <;> rfl
@[simp] theorem ctx_setX_poolLost (c : Ctx) (r : Reg) (v : Word) : (c.setX r v).poolLost = c.poolLost := by unfold Ctx.setX; split <;> rfl
@[simp] theorem ctx_setX_seq (c : Ctx) (r : Reg) (v : Word) : (c.setX r v).seq = c.seq := by unfold Ctx.setX; split <;> rfl
@[simp] theorem ctx_setX_pending (c : Ctx) (r : Reg) (v : Word) : (c.setX r v).pending = c.pending := by unfold Ctx.setX; split <;> rfl
@[simp] theorem ctx_setX_held (c : Ctx) (r : Reg) (v : Word) : (c.setX r v).held = c.held := by unfold Ctx.setX; split <;> rfl
@[simp] theorem ctx_setX_gword (c : Ctx) (r : Reg) (v : Word) : (c.setX r v).gword = c.gword := by unfold Ctx.setX; split <;> rfl
@[simp] theorem ctx_setX_lockReply (c : Ctx) (r : Reg) (v : Word) : (c.setX r v).lockReply = c.lockReply := by unfold Ctx.setX; split <;> rfl
@[simp] theorem ctx_setX_expired (c : Ctx) (r : Reg) (v : Word) : (c.setX r v).expired = c.expired := by unfold Ctx.setX; split <;> rfl
@[simp] theorem ctx_setX_lockReq (c : Ctx) (r : Reg) (v : Word) : (c.setX r v).lockReq = c.lockReq := by unfold Ctx.setX; split <;> rfl
@[simp] theorem ctx_setX_arrived (c : Ctx) (r : Reg) (v : Word) : (c.setX r v).arrived = c.arrived := by unfold Ctx.setX; split <;> rfl
@[simp] theorem ctx_setX_surveyed (c : Ctx) (r : Reg) (v : Word) : (c.setX r v).surveyed = c.surveyed := by unfold Ctx.setX; split <;> rfl
@[simp] theorem ctx_setX_granted (c : Ctx) (r : Reg) (v : Word) : (c.setX r v).granted = c.granted := by unfold Ctx.setX; split <;> rfl
@[simp] theorem ctx_setX_bb (c : Ctx) (r : Reg) (v : Word) : (c.setX r v).bb = c.bb := by unfold Ctx.setX; split <;> rfl
@[simp] theorem ctx_setX_sendFor (c : Ctx) (r : Reg) (v : Word) : (c.setX r v).sendFor = c.sendFor := by unfold Ctx.setX; split <;> rfl
@[simp] theorem ctx_setX_tok (c : Ctx) (r : Reg) (v : Word) : (c.setX r v).tok = c.tok := by unfold Ctx.setX; split <;> rfl
@[simp] theorem ctx_setV_x (c : Ctx) (r : Reg) (w : Vec) : (c.setV r w).x = c.x := rfl
@[simp] theorem ctx_setV_p (c : Ctx) (r : Reg) (w : Vec) : (c.setV r w).p = c.p := rfl
@[simp] theorem ctx_setV_g (c : Ctx) (r : Reg) (w : Vec) : (c.setV r w).g = c.g := rfl
@[simp] theorem ctx_setV_pc (c : Ctx) (r : Reg) (w : Vec) : (c.setV r w).pc = c.pc := rfl
@[simp] theorem ctx_setV_fpstat (c : Ctx) (r : Reg) (w : Vec) : (c.setV r w).fpstat = c.fpstat := rfl
@[simp] theorem ctx_setV_rmode (c : Ctx) (r : Reg) (w : Vec) : (c.setV r w).rmode = c.rmode := rfl
@[simp] theorem ctx_setV_srseed (c : Ctx) (r : Reg) (w : Vec) : (c.setV r w).srseed = c.srseed := rfl
@[simp] theorem ctx_setV_asid (c : Ctx) (r : Reg) (w : Vec) : (c.setV r w).asid = c.asid := rfl
@[simp] theorem ctx_setV_ptroot (c : Ctx) (r : Reg) (w : Vec) : (c.setV r w).ptroot = c.ptroot := rfl
@[simp] theorem ctx_setV_wscale6 (c : Ctx) (r : Reg) (w : Vec) : (c.setV r w).wscale6 = c.wscale6 := rfl
@[simp] theorem ctx_setV_wscale7 (c : Ctx) (r : Reg) (w : Vec) : (c.setV r w).wscale7 = c.wscale7 := rfl
@[simp] theorem ctx_setV_instret (c : Ctx) (r : Reg) (w : Vec) : (c.setV r w).instret = c.instret := rfl
@[simp] theorem ctx_setV_tcause (c : Ctx) (r : Reg) (w : Vec) : (c.setV r w).tcause = c.tcause := rfl
@[simp] theorem ctx_setV_tpc (c : Ctx) (r : Reg) (w : Vec) : (c.setV r w).tpc = c.tpc := rfl
@[simp] theorem ctx_setV_tval (c : Ctx) (r : Reg) (w : Vec) : (c.setV r w).tval = c.tval := rfl
@[simp] theorem ctx_setV_tinfo (c : Ctx) (r : Reg) (w : Vec) : (c.setV r w).tinfo = c.tinfo := rfl
@[simp] theorem ctx_setV_loopActive (c : Ctx) (r : Reg) (w : Vec) : (c.setV r w).loopActive = c.loopActive := rfl
@[simp] theorem ctx_setV_lstart (c : Ctx) (r : Reg) (w : Vec) : (c.setV r w).lstart = c.lstart := rfl
@[simp] theorem ctx_setV_lend (c : Ctx) (r : Reg) (w : Vec) : (c.setV r w).lend = c.lend := rfl
@[simp] theorem ctx_setV_lrem (c : Ctx) (r : Reg) (w : Vec) : (c.setV r w).lrem = c.lrem := rfl
@[simp] theorem ctx_setV_ports (c : Ctx) (r : Reg) (w : Vec) : (c.setV r w).ports = c.ports := rfl
@[simp] theorem ctx_setV_st (c : Ctx) (r : Reg) (w : Vec) : (c.setV r w).st = c.st := rfl
@[simp] theorem ctx_setV_wait (c : Ctx) (r : Reg) (w : Vec) : (c.setV r w).wait = c.wait := rfl
@[simp] theorem ctx_setV_ra (c : Ctx) (r : Reg) (w : Vec) : (c.setV r w).ra = c.ra := rfl
@[simp] theorem ctx_setV_gen (c : Ctx) (r : Reg) (w : Vec) : (c.setV r w).gen = c.gen := rfl
@[simp] theorem ctx_setV_lastEnd (c : Ctx) (r : Reg) (w : Vec) : (c.setV r w).lastEnd = c.lastEnd := rfl
@[simp] theorem ctx_setV_nmPending (c : Ctx) (r : Reg) (w : Vec) : (c.setV r w).nmPending = c.nmPending := rfl
@[simp] theorem ctx_setV_nmErrors (c : Ctx) (r : Reg) (w : Vec) : (c.setV r w).nmErrors = c.nmErrors := rfl
@[simp] theorem ctx_setV_holdBreaks (c : Ctx) (r : Reg) (w : Vec) : (c.setV r w).holdBreaks = c.holdBreaks := rfl
@[simp] theorem ctx_setV_poolStores (c : Ctx) (r : Reg) (w : Vec) : (c.setV r w).poolStores = c.poolStores := rfl
@[simp] theorem ctx_setV_poolLost (c : Ctx) (r : Reg) (w : Vec) : (c.setV r w).poolLost = c.poolLost := rfl
@[simp] theorem ctx_setV_seq (c : Ctx) (r : Reg) (w : Vec) : (c.setV r w).seq = c.seq := rfl
@[simp] theorem ctx_setV_pending (c : Ctx) (r : Reg) (w : Vec) : (c.setV r w).pending = c.pending := rfl
@[simp] theorem ctx_setV_held (c : Ctx) (r : Reg) (w : Vec) : (c.setV r w).held = c.held := rfl
@[simp] theorem ctx_setV_gword (c : Ctx) (r : Reg) (w : Vec) : (c.setV r w).gword = c.gword := rfl
@[simp] theorem ctx_setV_lockReply (c : Ctx) (r : Reg) (w : Vec) : (c.setV r w).lockReply = c.lockReply := rfl
@[simp] theorem ctx_setV_expired (c : Ctx) (r : Reg) (w : Vec) : (c.setV r w).expired = c.expired := rfl
@[simp] theorem ctx_setV_lockReq (c : Ctx) (r : Reg) (w : Vec) : (c.setV r w).lockReq = c.lockReq := rfl
@[simp] theorem ctx_setV_arrived (c : Ctx) (r : Reg) (w : Vec) : (c.setV r w).arrived = c.arrived := rfl
@[simp] theorem ctx_setV_surveyed (c : Ctx) (r : Reg) (w : Vec) : (c.setV r w).surveyed = c.surveyed := rfl
@[simp] theorem ctx_setV_granted (c : Ctx) (r : Reg) (w : Vec) : (c.setV r w).granted = c.granted := rfl
@[simp] theorem ctx_setV_bb (c : Ctx) (r : Reg) (w : Vec) : (c.setV r w).bb = c.bb := rfl
@[simp] theorem ctx_setV_sendFor (c : Ctx) (r : Reg) (w : Vec) : (c.setV r w).sendFor = c.sendFor := rfl
@[simp] theorem ctx_setV_tok (c : Ctx) (r : Reg) (w : Vec) : (c.setV r w).tok = c.tok := rfl
@[simp] theorem ctx_setG_x (c : Ctx) (r : Reg) (w : Word) : (c.setG r w).x = c.x := rfl
@[simp] theorem ctx_setG_v (c : Ctx) (r : Reg) (w : Word) : (c.setG r w).v = c.v := rfl
@[simp] theorem ctx_setG_p (c : Ctx) (r : Reg) (w : Word) : (c.setG r w).p = c.p := rfl
@[simp] theorem ctx_setG_pc (c : Ctx) (r : Reg) (w : Word) : (c.setG r w).pc = c.pc := rfl
@[simp] theorem ctx_setG_fpstat (c : Ctx) (r : Reg) (w : Word) : (c.setG r w).fpstat = c.fpstat := rfl
@[simp] theorem ctx_setG_rmode (c : Ctx) (r : Reg) (w : Word) : (c.setG r w).rmode = c.rmode := rfl
@[simp] theorem ctx_setG_srseed (c : Ctx) (r : Reg) (w : Word) : (c.setG r w).srseed = c.srseed := rfl
@[simp] theorem ctx_setG_asid (c : Ctx) (r : Reg) (w : Word) : (c.setG r w).asid = c.asid := rfl
@[simp] theorem ctx_setG_ptroot (c : Ctx) (r : Reg) (w : Word) : (c.setG r w).ptroot = c.ptroot := rfl
@[simp] theorem ctx_setG_wscale6 (c : Ctx) (r : Reg) (w : Word) : (c.setG r w).wscale6 = c.wscale6 := rfl
@[simp] theorem ctx_setG_wscale7 (c : Ctx) (r : Reg) (w : Word) : (c.setG r w).wscale7 = c.wscale7 := rfl
@[simp] theorem ctx_setG_instret (c : Ctx) (r : Reg) (w : Word) : (c.setG r w).instret = c.instret := rfl
@[simp] theorem ctx_setG_tcause (c : Ctx) (r : Reg) (w : Word) : (c.setG r w).tcause = c.tcause := rfl
@[simp] theorem ctx_setG_tpc (c : Ctx) (r : Reg) (w : Word) : (c.setG r w).tpc = c.tpc := rfl
@[simp] theorem ctx_setG_tval (c : Ctx) (r : Reg) (w : Word) : (c.setG r w).tval = c.tval := rfl
@[simp] theorem ctx_setG_tinfo (c : Ctx) (r : Reg) (w : Word) : (c.setG r w).tinfo = c.tinfo := rfl
@[simp] theorem ctx_setG_loopActive (c : Ctx) (r : Reg) (w : Word) : (c.setG r w).loopActive = c.loopActive := rfl
@[simp] theorem ctx_setG_lstart (c : Ctx) (r : Reg) (w : Word) : (c.setG r w).lstart = c.lstart := rfl
@[simp] theorem ctx_setG_lend (c : Ctx) (r : Reg) (w : Word) : (c.setG r w).lend = c.lend := rfl
@[simp] theorem ctx_setG_lrem (c : Ctx) (r : Reg) (w : Word) : (c.setG r w).lrem = c.lrem := rfl
@[simp] theorem ctx_setG_ports (c : Ctx) (r : Reg) (w : Word) : (c.setG r w).ports = c.ports := rfl
@[simp] theorem ctx_setG_st (c : Ctx) (r : Reg) (w : Word) : (c.setG r w).st = c.st := rfl
@[simp] theorem ctx_setG_wait (c : Ctx) (r : Reg) (w : Word) : (c.setG r w).wait = c.wait := rfl
@[simp] theorem ctx_setG_ra (c : Ctx) (r : Reg) (w : Word) : (c.setG r w).ra = c.ra := rfl
@[simp] theorem ctx_setG_gen (c : Ctx) (r : Reg) (w : Word) : (c.setG r w).gen = c.gen := rfl
@[simp] theorem ctx_setG_lastEnd (c : Ctx) (r : Reg) (w : Word) : (c.setG r w).lastEnd = c.lastEnd := rfl
@[simp] theorem ctx_setG_nmPending (c : Ctx) (r : Reg) (w : Word) : (c.setG r w).nmPending = c.nmPending := rfl
@[simp] theorem ctx_setG_nmErrors (c : Ctx) (r : Reg) (w : Word) : (c.setG r w).nmErrors = c.nmErrors := rfl
@[simp] theorem ctx_setG_holdBreaks (c : Ctx) (r : Reg) (w : Word) : (c.setG r w).holdBreaks = c.holdBreaks := rfl
@[simp] theorem ctx_setG_poolStores (c : Ctx) (r : Reg) (w : Word) : (c.setG r w).poolStores = c.poolStores := rfl
@[simp] theorem ctx_setG_poolLost (c : Ctx) (r : Reg) (w : Word) : (c.setG r w).poolLost = c.poolLost := rfl
@[simp] theorem ctx_setG_seq (c : Ctx) (r : Reg) (w : Word) : (c.setG r w).seq = c.seq := rfl
@[simp] theorem ctx_setG_pending (c : Ctx) (r : Reg) (w : Word) : (c.setG r w).pending = c.pending := rfl
@[simp] theorem ctx_setG_held (c : Ctx) (r : Reg) (w : Word) : (c.setG r w).held = c.held := rfl
@[simp] theorem ctx_setG_gword (c : Ctx) (r : Reg) (w : Word) : (c.setG r w).gword = c.gword := rfl
@[simp] theorem ctx_setG_lockReply (c : Ctx) (r : Reg) (w : Word) : (c.setG r w).lockReply = c.lockReply := rfl
@[simp] theorem ctx_setG_expired (c : Ctx) (r : Reg) (w : Word) : (c.setG r w).expired = c.expired := rfl
@[simp] theorem ctx_setG_lockReq (c : Ctx) (r : Reg) (w : Word) : (c.setG r w).lockReq = c.lockReq := rfl
@[simp] theorem ctx_setG_arrived (c : Ctx) (r : Reg) (w : Word) : (c.setG r w).arrived = c.arrived := rfl
@[simp] theorem ctx_setG_surveyed (c : Ctx) (r : Reg) (w : Word) : (c.setG r w).surveyed = c.surveyed := rfl
@[simp] theorem ctx_setG_granted (c : Ctx) (r : Reg) (w : Word) : (c.setG r w).granted = c.granted := rfl
@[simp] theorem ctx_setG_bb (c : Ctx) (r : Reg) (w : Word) : (c.setG r w).bb = c.bb := rfl
@[simp] theorem ctx_setG_sendFor (c : Ctx) (r : Reg) (w : Word) : (c.setG r w).sendFor = c.sendFor := rfl
@[simp] theorem ctx_setG_tok (c : Ctx) (r : Reg) (w : Word) : (c.setG r w).tok = c.tok := rfl
@[simp] theorem ctx_setP_x (c : Ctx) (r : Reg) (w : Byte) : (c.setP r w).x = c.x := by unfold Ctx.setP; split <;> rfl
@[simp] theorem ctx_setP_v (c : Ctx) (r : Reg) (w : Byte) : (c.setP r w).v = c.v := by unfold Ctx.setP; split <;> rfl
@[simp] theorem ctx_setP_g (c : Ctx) (r : Reg) (w : Byte) : (c.setP r w).g = c.g := by unfold Ctx.setP; split <;> rfl
@[simp] theorem ctx_setP_pc (c : Ctx) (r : Reg) (w : Byte) : (c.setP r w).pc = c.pc := by unfold Ctx.setP; split <;> rfl
@[simp] theorem ctx_setP_fpstat (c : Ctx) (r : Reg) (w : Byte) : (c.setP r w).fpstat = c.fpstat := by unfold Ctx.setP; split <;> rfl
@[simp] theorem ctx_setP_rmode (c : Ctx) (r : Reg) (w : Byte) : (c.setP r w).rmode = c.rmode := by unfold Ctx.setP; split <;> rfl
@[simp] theorem ctx_setP_srseed (c : Ctx) (r : Reg) (w : Byte) : (c.setP r w).srseed = c.srseed := by unfold Ctx.setP; split <;> rfl
@[simp] theorem ctx_setP_asid (c : Ctx) (r : Reg) (w : Byte) : (c.setP r w).asid = c.asid := by unfold Ctx.setP; split <;> rfl
@[simp] theorem ctx_setP_ptroot (c : Ctx) (r : Reg) (w : Byte) : (c.setP r w).ptroot = c.ptroot := by unfold Ctx.setP; split <;> rfl
@[simp] theorem ctx_setP_wscale6 (c : Ctx) (r : Reg) (w : Byte) : (c.setP r w).wscale6 = c.wscale6 := by unfold Ctx.setP; split <;> rfl
@[simp] theorem ctx_setP_wscale7 (c : Ctx) (r : Reg) (w : Byte) : (c.setP r w).wscale7 = c.wscale7 := by unfold Ctx.setP; split <;> rfl
@[simp] theorem ctx_setP_instret (c : Ctx) (r : Reg) (w : Byte) : (c.setP r w).instret = c.instret := by unfold Ctx.setP; split <;> rfl
@[simp] theorem ctx_setP_tcause (c : Ctx) (r : Reg) (w : Byte) : (c.setP r w).tcause = c.tcause := by unfold Ctx.setP; split <;> rfl
@[simp] theorem ctx_setP_tpc (c : Ctx) (r : Reg) (w : Byte) : (c.setP r w).tpc = c.tpc := by unfold Ctx.setP; split <;> rfl
@[simp] theorem ctx_setP_tval (c : Ctx) (r : Reg) (w : Byte) : (c.setP r w).tval = c.tval := by unfold Ctx.setP; split <;> rfl
@[simp] theorem ctx_setP_tinfo (c : Ctx) (r : Reg) (w : Byte) : (c.setP r w).tinfo = c.tinfo := by unfold Ctx.setP; split <;> rfl
@[simp] theorem ctx_setP_loopActive (c : Ctx) (r : Reg) (w : Byte) : (c.setP r w).loopActive = c.loopActive := by unfold Ctx.setP; split <;> rfl
@[simp] theorem ctx_setP_lstart (c : Ctx) (r : Reg) (w : Byte) : (c.setP r w).lstart = c.lstart := by unfold Ctx.setP; split <;> rfl
@[simp] theorem ctx_setP_lend (c : Ctx) (r : Reg) (w : Byte) : (c.setP r w).lend = c.lend := by unfold Ctx.setP; split <;> rfl
@[simp] theorem ctx_setP_lrem (c : Ctx) (r : Reg) (w : Byte) : (c.setP r w).lrem = c.lrem := by unfold Ctx.setP; split <;> rfl
@[simp] theorem ctx_setP_ports (c : Ctx) (r : Reg) (w : Byte) : (c.setP r w).ports = c.ports := by unfold Ctx.setP; split <;> rfl
@[simp] theorem ctx_setP_st (c : Ctx) (r : Reg) (w : Byte) : (c.setP r w).st = c.st := by unfold Ctx.setP; split <;> rfl
@[simp] theorem ctx_setP_wait (c : Ctx) (r : Reg) (w : Byte) : (c.setP r w).wait = c.wait := by unfold Ctx.setP; split <;> rfl
@[simp] theorem ctx_setP_ra (c : Ctx) (r : Reg) (w : Byte) : (c.setP r w).ra = c.ra := by unfold Ctx.setP; split <;> rfl
@[simp] theorem ctx_setP_gen (c : Ctx) (r : Reg) (w : Byte) : (c.setP r w).gen = c.gen := by unfold Ctx.setP; split <;> rfl
@[simp] theorem ctx_setP_lastEnd (c : Ctx) (r : Reg) (w : Byte) : (c.setP r w).lastEnd = c.lastEnd := by unfold Ctx.setP; split <;> rfl
@[simp] theorem ctx_setP_nmPending (c : Ctx) (r : Reg) (w : Byte) : (c.setP r w).nmPending = c.nmPending := by unfold Ctx.setP; split <;> rfl
@[simp] theorem ctx_setP_nmErrors (c : Ctx) (r : Reg) (w : Byte) : (c.setP r w).nmErrors = c.nmErrors := by unfold Ctx.setP; split <;> rfl
@[simp] theorem ctx_setP_holdBreaks (c : Ctx) (r : Reg) (w : Byte) : (c.setP r w).holdBreaks = c.holdBreaks := by unfold Ctx.setP; split <;> rfl
@[simp] theorem ctx_setP_poolStores (c : Ctx) (r : Reg) (w : Byte) : (c.setP r w).poolStores = c.poolStores := by unfold Ctx.setP; split <;> rfl
@[simp] theorem ctx_setP_poolLost (c : Ctx) (r : Reg) (w : Byte) : (c.setP r w).poolLost = c.poolLost := by unfold Ctx.setP; split <;> rfl
@[simp] theorem ctx_setP_seq (c : Ctx) (r : Reg) (w : Byte) : (c.setP r w).seq = c.seq := by unfold Ctx.setP; split <;> rfl
@[simp] theorem ctx_setP_pending (c : Ctx) (r : Reg) (w : Byte) : (c.setP r w).pending = c.pending := by unfold Ctx.setP; split <;> rfl
@[simp] theorem ctx_setP_held (c : Ctx) (r : Reg) (w : Byte) : (c.setP r w).held = c.held := by unfold Ctx.setP; split <;> rfl
@[simp] theorem ctx_setP_gword (c : Ctx) (r : Reg) (w : Byte) : (c.setP r w).gword = c.gword := by unfold Ctx.setP; split <;> rfl
@[simp] theorem ctx_setP_lockReply (c : Ctx) (r : Reg) (w : Byte) : (c.setP r w).lockReply = c.lockReply := by unfold Ctx.setP; split <;> rfl
@[simp] theorem ctx_setP_expired (c : Ctx) (r : Reg) (w : Byte) : (c.setP r w).expired = c.expired := by unfold Ctx.setP; split <;> rfl
@[simp] theorem ctx_setP_lockReq (c : Ctx) (r : Reg) (w : Byte) : (c.setP r w).lockReq = c.lockReq := by unfold Ctx.setP; split <;> rfl
@[simp] theorem ctx_setP_arrived (c : Ctx) (r : Reg) (w : Byte) : (c.setP r w).arrived = c.arrived := by unfold Ctx.setP; split <;> rfl
@[simp] theorem ctx_setP_surveyed (c : Ctx) (r : Reg) (w : Byte) : (c.setP r w).surveyed = c.surveyed := by unfold Ctx.setP; split <;> rfl
@[simp] theorem ctx_setP_granted (c : Ctx) (r : Reg) (w : Byte) : (c.setP r w).granted = c.granted := by unfold Ctx.setP; split <;> rfl
@[simp] theorem ctx_setP_bb (c : Ctx) (r : Reg) (w : Byte) : (c.setP r w).bb = c.bb := by unfold Ctx.setP; split <;> rfl
@[simp] theorem ctx_setP_sendFor (c : Ctx) (r : Reg) (w : Byte) : (c.setP r w).sendFor = c.sendFor := by unfold Ctx.setP; split <;> rfl
@[simp] theorem ctx_setP_tok (c : Ctx) (r : Reg) (w : Byte) : (c.setP r w).tok = c.tok := by unfold Ctx.setP; split <;> rfl

@[simp] theorem vr_setV_same (c : Ctx) (r : Reg) (w : Vec) : (c.setV r w).vr r = w := by simp [Ctx.vr, Ctx.setV]
@[simp] theorem gr_setG_same (c : Ctx) (r : Reg) (w : Word) : (c.setG r w).gr r = w := by simp [Ctx.gr, Ctx.setG]
@[simp] theorem vr_setV_other (c : Ctx) (r q : Reg) (w : Vec) (h : q ≠ r) : (c.setV r w).vr q = c.vr q := by
  have : r.toNat ≠ q.toNat := fun e => h (BitVec.eq_of_toNat_eq e.symm)
  simp [Ctx.vr, Ctx.setV, this]
@[simp] theorem gr_setG_other (c : Ctx) (r q : Reg) (w : Word) (h : q ≠ r) : (c.setG r w).gr q = c.gr q := by
  have : r.toNat ≠ q.toNat := fun e => h (BitVec.eq_of_toNat_eq e.symm)
  simp [Ctx.gr, Ctx.setG, this]

end Sys2Proof.Machine
end

