-- ==== Sys2Proof/Laws/Copies.lean ====
section
/-! SUPPORT. What the operations by which copies of a line come and go can change (R65, R111, R121 to R124): of the state only the caches, their
directory and its proxies. Memory, contexts, polders and packages stay. -/

namespace Sys2Proof.Safety
open Sys2Proof Sys2Proof.Machine

/-- Nothing differs. -/
theorem CopiesOnly.refl (s : State) : CopiesOnly s s := rfl

/-- One change after another. -/
theorem CopiesOnly.trans {s t u : State} (h : CopiesOnly s t) (k : CopiesOnly t u) : CopiesOnly s u := by
  cases s; cases t; cases u
  simp only [CopiesOnly, State.mk.injEq] at *
  simp_all

/-- Memory stays. -/
theorem CopiesOnly.mem {s t : State} (h : CopiesOnly s t) : t.mem = s.mem := by rw [h]
/-- Contexts stay. -/
theorem CopiesOnly.ctxs {s t : State} (h : CopiesOnly s t) : t.ctxs = s.ctxs := by rw [h]
/-- Polders stay. -/
theorem CopiesOnly.polders {s t : State} (h : CopiesOnly s t) : t.polders = s.polders := by rw [h]
/-- Packages stay. -/
theorem CopiesOnly.pkgs {s t : State} (h : CopiesOnly s t) : t.pkgs = s.pkgs := by rw [h]
/-- The records of lost lines stay. -/
theorem CopiesOnly.lost {s t : State} (h : CopiesOnly s t) : t.lost = s.lost := by rw [h]
/-- Locks stay. -/
theorem CopiesOnly.locks {s t : State} (h : CopiesOnly s t) : t.locks = s.locks := by rw [h]

/-- A fold of such changes is one. -/
theorem copiesOnly_foldl {α : Type} (f : State → α → State) (hf : ∀ s a, CopiesOnly s (f s a)) (l : List α) (s : State) :
    CopiesOnly s (l.foldl f s) := by
  induction l generalizing s with
  | nil => rfl
  | cons a r ih => exact (hf s a).trans (ih _)

/-- A core's own state is among the copies. -/
theorem copiesOnly_setCore (s : State) (n k : Nat) (q : CoreSt) : CopiesOnly s (s.setCore n k q) := rfl
/-- A die's, too. -/
theorem copiesOnly_setDie (s : State) (n d : Nat) (q : DieSt) : CopiesOnly s (s.setDie n d q) := rfl
/-- A slice is replaced. -/
theorem copiesOnly_setSlice (s : State) (n d t : Nat) (x : Slice) : CopiesOnly s (s.setSlice n d t x) := rfl
/-- A directory entry is replaced. -/
theorem copiesOnly_setDir (s : State) (pl : Nat) (d : DirEnt) : CopiesOnly s (s.setDir pl d) := rfl

/-- A data line is changed. -/
theorem copiesOnly_mapLine (s : State) (n d t : Nat) (a : BitVec 16) (v : Nat) (f : SliceLine → SliceLine) :
    CopiesOnly s (s.mapLine n d t a v f) := by
  unfold State.mapLine; dsimp only; split <;> rfl

/-- Pointers of packages without a copy go. -/
theorem copiesOnly_prunePointers (s : State) (pl : Nat) : CopiesOnly s (s.prunePointers pl) := copiesOnly_setDir ..

/-- So they do when an invalidation completes. -/
theorem copiesOnly_pruneRemotes (s : State) (pl : Nat) : CopiesOnly s (s.pruneRemotes pl) := by
  unfold State.pruneRemotes; dsimp only
  split
  · exact (copiesOnly_prunePointers ..).trans (copiesOnly_setDir ..)
  · exact copiesOnly_prunePointers ..

/-- A slice is listed no longer. -/
theorem copiesOnly_unlistSlice (s : State) (pl n d t : Nat) : CopiesOnly s (s.unlistSlice pl n d t) := by
  unfold State.unlistSlice; dsimp only; split <;> rfl

/-- A slice is listed. -/
theorem copiesOnly_listSlice (s : State) (pl n d t : Nat) : CopiesOnly s (s.listSlice pl n d t) := by
  unfold State.listSlice; dsimp only; split <;> rfl

/-- An L1 gives a copy up. -/
theorem copiesOnly_l1drop (s : State) (n k : Nat) (a : BitVec 16) (v : Nat) (b : Bool) : CopiesOnly s (s.l1drop n k a v b) := by
  unfold State.l1drop; dsimp only
  split
  · rfl
  · split
    · exact (copiesOnly_setCore ..).trans (copiesOnly_mapLine ..)
    · rfl

/-- A slice gives a line up. -/
theorem copiesOnly_dropLine (s : State) (n d t : Nat) (x : SliceLine) (b : Bool) : CopiesOnly s (s.dropLine n d t x b) := by
  have h := copiesOnly_foldl (fun s k => State.l1drop s n k x.asid x.vline b) (fun s k => copiesOnly_l1drop ..) (s.copyCores n d x) s
  unfold State.dropLine; dsimp only
  split
  · exact h.trans (copiesOnly_setSlice ..)
  · exact (h.trans (copiesOnly_setSlice ..)).trans (copiesOnly_unlistSlice ..)

/-- A slice gives up what a recall asks for. -/
theorem copiesOnly_recallAt (s : State) (pl : Nat) (h : Nat × Nat × Nat) (keep : Option Keep) : CopiesOnly s (s.recallAt pl h keep) := by
  obtain ⟨n, d, t⟩ := h
  refine copiesOnly_foldl _ (fun s x => ?_) _ s
  split
  · split
    · exact copiesOnly_foldl _ (fun s j => copiesOnly_l1drop ..) _ s
    · refine CopiesOnly.trans ?_ (copiesOnly_dropLine ..)
      split
      · exact copiesOnly_l1drop ..
      · rfl
  · exact copiesOnly_dropLine ..

/-- A recall touches nothing but copies. -/
theorem copiesOnly_recall (s : State) (pl : Nat) (keep : Option Keep) : CopiesOnly s (s.recall pl keep) :=
  ((copiesOnly_foldl (fun s h => State.recallAt s pl h keep) (fun _ _ => copiesOnly_recallAt ..) (s.holders pl) s).trans
    (copiesOnly_pruneRemotes ..)).trans (copiesOnly_setDir ..)

/-- A merge touches nothing but copies. -/
theorem copiesOnly_merge (s : State) (pl : Nat) : CopiesOnly s (s.merge pl) := by
  unfold State.merge; dsimp only
  split <;> first
    | refine CopiesOnly.trans (copiesOnly_foldl _ (fun s h => ?_) _ s) (copiesOnly_setDir ..)
    | refine copiesOnly_foldl _ (fun s h => ?_) _ s
  all_goals
    refine copiesOnly_foldl _ (fun s x => ?_) _ s
    exact (copiesOnly_foldl _ (fun s k => copiesOnly_setCore ..) _ s).trans (copiesOnly_mapLine ..)

/-- A line comes into a slice. -/
theorem copiesOnly_sliceFill (s : State) (n d : Nat) (a : BitVec 16) (v pl : Nat) (e : Word) : CopiesOnly s (s.sliceFill n d a v pl e) := by
  unfold State.sliceFill; dsimp only
  split
  · split
    · rfl
    · exact ((copiesOnly_dropLine ..).trans (copiesOnly_setSlice ..)).trans (copiesOnly_listSlice ..)
  · refine CopiesOnly.trans (CopiesOnly.trans ?_ (copiesOnly_setSlice ..)) (copiesOnly_listSlice ..)
    split
    · exact copiesOnly_dropLine ..
    · rfl

/-- A line comes into an L1. -/
theorem copiesOnly_l1fill (s : State) (n k : Nat) (a : BitVec 16) (v pl : Nat) (st : LineState) (m : BitVec 64) (e : Word) (w : BitVec 512) :
    CopiesOnly s (s.l1fill n k a v pl st m e w) := by
  have h0 : ∀ s : State, CopiesOnly s (match (s.core n k).victim a v with | some x => s.l1drop n k x.asid x.vline false | none => s) := by
    intro s; split
    · exact copiesOnly_l1drop ..
    · rfl
  have h1 : ∀ u : State, ∀ o : DirEnt, CopiesOnly u (if st = .owned then u.setDir pl o else u) := by
    intro u o; split <;> rfl
  have h2 : ∀ u : State, ∀ f : SliceLine → SliceLine, CopiesOnly u (match u.objEnt n (k / 256) a v with
      | some o => (u.joinObj n k a v).setDir pl { u.dir pl with objs := addOnce (u.dir pl).objs (n, k / 256, o.1) }
      | none => u.mapLine n (k / 256) (u.lineSlice n (k / 256) a v) a v f) := by
    intro u f; split
    · rfl
    · exact copiesOnly_mapLine ..
  unfold State.l1fill; dsimp only
  split
  · exact (h0 s).trans (copiesOnly_setCore ..)
  · exact (h0 s).trans ((copiesOnly_setCore _ n k _).trans ((copiesOnly_sliceFill ..).trans ((h1 _ _).trans (h2 _ _))))

/-- A core drops older copies. -/
theorem copiesOnly_dropSynonyms (s : State) (n k pl : Nat) (x : Option (BitVec 16 × Nat)) : CopiesOnly s (s.dropSynonyms n k pl x) := by
  unfold State.dropSynonyms; dsimp only; split <;> rfl

/-- A store drops what walkers have read from its line. -/
theorem copiesOnly_dropWalks (s : State) (line : Nat) : CopiesOnly s (s.dropWalks line) := by
  unfold State.dropWalks; dsimp only
  split
  · rfl
  · exact ((copiesOnly_foldl _ (fun s w => copiesOnly_setSlice ..) _ s).trans (copiesOnly_setDir ..)).trans (copiesOnly_pruneRemotes ..)

/-- A phaser written twice. -/
@[simp] theorem setPhaser_setPhaser (s : State) (n p i : Nat) (f g : Phaser) : (s.setPhaser n p i f).setPhaser n p i g = s.setPhaser n p i g := by
  simp [State.setPhaser, State.setPolder, State.polder]

end Sys2Proof.Safety
end

