-- ==== Sys2Proof/Laws/Finish.lean ====
section
/-! SUPPORT. What retiring, stalling and trapping leave, and what an instruction that writes one X register does. -/

namespace Sys2Proof.Machine
open Sys2Proof Sys2Proof.Safety

/-! ## The end of an instruction -/

@[simp] theorem advance_x (c : Ctx) (n : Nat) (b : Bool) : (c.advance n b).x = c.x := by
  unfold Ctx.advance; dsimp only; split <;> [(split <;> rfl); rfl]
@[simp] theorem advance_v (c : Ctx) (n : Nat) (b : Bool) : (c.advance n b).v = c.v := by
  unfold Ctx.advance; dsimp only; split <;> [(split <;> rfl); rfl]
@[simp] theorem advance_p (c : Ctx) (n : Nat) (b : Bool) : (c.advance n b).p = c.p := by
  unfold Ctx.advance; dsimp only; split <;> [(split <;> rfl); rfl]
@[simp] theorem advance_g (c : Ctx) (n : Nat) (b : Bool) : (c.advance n b).g = c.g := by
  unfold Ctx.advance; dsimp only; split <;> [(split <;> rfl); rfl]
@[simp] theorem advance_fpstat (c : Ctx) (n : Nat) (b : Bool) : (c.advance n b).fpstat = c.fpstat := by
  unfold Ctx.advance; dsimp only; split <;> [(split <;> rfl); rfl]
@[simp] theorem advance_rmode (c : Ctx) (n : Nat) (b : Bool) : (c.advance n b).rmode = c.rmode := by
  unfold Ctx.advance; dsimp only; split <;> [(split <;> rfl); rfl]
@[simp] theorem advance_srseed (c : Ctx) (n : Nat) (b : Bool) : (c.advance n b).srseed = c.srseed := by
  unfold Ctx.advance; dsimp only; split <;> [(split <;> rfl); rfl]
@[simp] theorem advance_asid (c : Ctx) (n : Nat) (b : Bool) : (c.advance n b).asid = c.asid := by
  unfold Ctx.advance; dsimp only; split <;> [(split <;> rfl); rfl]
@[simp] theorem advance_ptroot (c : Ctx) (n : Nat) (b : Bool) : (c.advance n b).ptroot = c.ptroot := by
  unfold Ctx.advance; dsimp only; split <;> [(split <;> rfl); rfl]
@[simp] theorem advance_wscale6 (c : Ctx) (n : Nat) (b : Bool) : (c.advance n b).wscale6 = c.wscale6 := by
  unfold Ctx.advance; dsimp only; split <;> [(split <;> rfl); rfl]
@[simp] theorem advance_wscale7 (c : Ctx) (n : Nat) (b : Bool) : (c.advance n b).wscale7 = c.wscale7 := by
  unfold Ctx.advance; dsimp only; split <;> [(split <;> rfl); rfl]
@[simp] theorem advance_instret (c : Ctx) (n : Nat) (b : Bool) : (c.advance n b).instret = c.instret := by
  unfold Ctx.advance; dsimp only; split <;> [(split <;> rfl); rfl]
@[simp] theorem advance_tcause (c : Ctx) (n : Nat) (b : Bool) : (c.advance n b).tcause = c.tcause := by
  unfold Ctx.advance; dsimp only; split <;> [(split <;> rfl); rfl]
@[simp] theorem advance_tpc (c : Ctx) (n : Nat) (b : Bool) : (c.advance n b).tpc = c.tpc := by
  unfold Ctx.advance; dsimp only; split <;> [(split <;> rfl); rfl]
@[simp] theorem advance_tval (c : Ctx) (n : Nat) (b : Bool) : (c.advance n b).tval = c.tval := by
  unfold Ctx.advance; dsimp only; split <;> [(split <;> rfl); rfl]
@[simp] theorem advance_tinfo (c : Ctx) (n : Nat) (b : Bool) : (c.advance n b).tinfo = c.tinfo := by
  unfold Ctx.advance; dsimp only; split <;> [(split <;> rfl); rfl]
@[simp] theorem advance_lstart (c : Ctx) (n : Nat) (b : Bool) : (c.advance n b).lstart = c.lstart := by
  unfold Ctx.advance; dsimp only; split <;> [(split <;> rfl); rfl]
@[simp] theorem advance_lend (c : Ctx) (n : Nat) (b : Bool) : (c.advance n b).lend = c.lend := by
  unfold Ctx.advance; dsimp only; split <;> [(split <;> rfl); rfl]
@[simp] theorem advance_ports (c : Ctx) (n : Nat) (b : Bool) : (c.advance n b).ports = c.ports := by
  unfold Ctx.advance; dsimp only; split <;> [(split <;> rfl); rfl]
@[simp] theorem advance_st (c : Ctx) (n : Nat) (b : Bool) : (c.advance n b).st = c.st := by
  unfold Ctx.advance; dsimp only; split <;> [(split <;> rfl); rfl]
@[simp] theorem advance_wait (c : Ctx) (n : Nat) (b : Bool) : (c.advance n b).wait = c.wait := by
  unfold Ctx.advance; dsimp only; split <;> [(split <;> rfl); rfl]
@[simp] theorem advance_ra (c : Ctx) (n : Nat) (b : Bool) : (c.advance n b).ra = c.ra := by
  unfold Ctx.advance; dsimp only; split <;> [(split <;> rfl); rfl]
@[simp] theorem advance_gen (c : Ctx) (n : Nat) (b : Bool) : (c.advance n b).gen = c.gen := by
  unfold Ctx.advance; dsimp only; split <;> [(split <;> rfl); rfl]
@[simp] theorem advance_lastEnd (c : Ctx) (n : Nat) (b : Bool) : (c.advance n b).lastEnd = c.lastEnd := by
  unfold Ctx.advance; dsimp only; split <;> [(split <;> rfl); rfl]
@[simp] theorem advance_nmPending (c : Ctx) (n : Nat) (b : Bool) : (c.advance n b).nmPending = c.nmPending := by
  unfold Ctx.advance; dsimp only; split <;> [(split <;> rfl); rfl]
@[simp] theorem advance_nmErrors (c : Ctx) (n : Nat) (b : Bool) : (c.advance n b).nmErrors = c.nmErrors := by
  unfold Ctx.advance; dsimp only; split <;> [(split <;> rfl); rfl]
@[simp] theorem advance_holdBreaks (c : Ctx) (n : Nat) (b : Bool) : (c.advance n b).holdBreaks = c.holdBreaks := by
  unfold Ctx.advance; dsimp only; split <;> [(split <;> rfl); rfl]
@[simp] theorem advance_poolStores (c : Ctx) (n : Nat) (b : Bool) : (c.advance n b).poolStores = c.poolStores := by
  unfold Ctx.advance; dsimp only; split <;> [(split <;> rfl); rfl]
@[simp] theorem advance_poolLost (c : Ctx) (n : Nat) (b : Bool) : (c.advance n b).poolLost = c.poolLost := by
  unfold Ctx.advance; dsimp only; split <;> [(split <;> rfl); rfl]
@[simp] theorem advance_seq (c : Ctx) (n : Nat) (b : Bool) : (c.advance n b).seq = c.seq := by
  unfold Ctx.advance; dsimp only; split <;> [(split <;> rfl); rfl]
@[simp] theorem advance_pending (c : Ctx) (n : Nat) (b : Bool) : (c.advance n b).pending = c.pending := by
  unfold Ctx.advance; dsimp only; split <;> [(split <;> rfl); rfl]
@[simp] theorem advance_held (c : Ctx) (n : Nat) (b : Bool) : (c.advance n b).held = c.held := by
  unfold Ctx.advance; dsimp only; split <;> [(split <;> rfl); rfl]
@[simp] theorem advance_gword (c : Ctx) (n : Nat) (b : Bool) : (c.advance n b).gword = c.gword := by
  unfold Ctx.advance; dsimp only; split <;> [(split <;> rfl); rfl]
@[simp] theorem advance_lockReply (c : Ctx) (n : Nat) (b : Bool) : (c.advance n b).lockReply = c.lockReply := by
  unfold Ctx.advance; dsimp only; split <;> [(split <;> rfl); rfl]
@[simp] theorem advance_expired (c : Ctx) (n : Nat) (b : Bool) : (c.advance n b).expired = c.expired := by
  unfold Ctx.advance; dsimp only; split <;> [(split <;> rfl); rfl]
@[simp] theorem advance_lockReq (c : Ctx) (n : Nat) (b : Bool) : (c.advance n b).lockReq = c.lockReq := by
  unfold Ctx.advance; dsimp only; split <;> [(split <;> rfl); rfl]
@[simp] theorem advance_arrived (c : Ctx) (n : Nat) (b : Bool) : (c.advance n b).arrived = c.arrived := by
  unfold Ctx.advance; dsimp only; split <;> [(split <;> rfl); rfl]
@[simp] theorem advance_surveyed (c : Ctx) (n : Nat) (b : Bool) : (c.advance n b).surveyed = c.surveyed := by
  unfold Ctx.advance; dsimp only; split <;> [(split <;> rfl); rfl]
@[simp] theorem advance_granted (c : Ctx) (n : Nat) (b : Bool) : (c.advance n b).granted = c.granted := by
  unfold Ctx.advance; dsimp only; split <;> [(split <;> rfl); rfl]
@[simp] theorem advance_bb (c : Ctx) (n : Nat) (b : Bool) : (c.advance n b).bb = c.bb := by
  unfold Ctx.advance; dsimp only; split <;> [(split <;> rfl); rfl]
@[simp] theorem advance_sendFor (c : Ctx) (n : Nat) (b : Bool) : (c.advance n b).sendFor = c.sendFor := by
  unfold Ctx.advance; dsimp only; split <;> [(split <;> rfl); rfl]
@[simp] theorem advance_tok (c : Ctx) (n : Nat) (b : Bool) : (c.advance n b).tok = c.tok := by
  unfold Ctx.advance; dsimp only; split <;> [(split <;> rfl); rfl]
@[simp] theorem unwait_x (c : Ctx) : c.unwait.x = c.x := rfl
@[simp] theorem unwait_v (c : Ctx) : c.unwait.v = c.v := rfl
@[simp] theorem unwait_p (c : Ctx) : c.unwait.p = c.p := rfl
@[simp] theorem unwait_g (c : Ctx) : c.unwait.g = c.g := rfl
@[simp] theorem unwait_fpstat (c : Ctx) : c.unwait.fpstat = c.fpstat := rfl
@[simp] theorem unwait_rmode (c : Ctx) : c.unwait.rmode = c.rmode := rfl
@[simp] theorem unwait_srseed (c : Ctx) : c.unwait.srseed = c.srseed := rfl
@[simp] theorem unwait_asid (c : Ctx) : c.unwait.asid = c.asid := rfl
@[simp] theorem unwait_ptroot (c : Ctx) : c.unwait.ptroot = c.ptroot := rfl
@[simp] theorem unwait_wscale6 (c : Ctx) : c.unwait.wscale6 = c.wscale6 := rfl
@[simp] theorem unwait_wscale7 (c : Ctx) : c.unwait.wscale7 = c.wscale7 := rfl
@[simp] theorem unwait_instret (c : Ctx) : c.unwait.instret = c.instret := rfl
@[simp] theorem unwait_tcause (c : Ctx) : c.unwait.tcause = c.tcause := rfl
@[simp] theorem unwait_tpc (c : Ctx) : c.unwait.tpc = c.tpc := rfl
@[simp] theorem unwait_tval (c : Ctx) : c.unwait.tval = c.tval := rfl
@[simp] theorem unwait_tinfo (c : Ctx) : c.unwait.tinfo = c.tinfo := rfl
@[simp] theorem unwait_lstart (c : Ctx) : c.unwait.lstart = c.lstart := rfl
@[simp] theorem unwait_lend (c : Ctx) : c.unwait.lend = c.lend := rfl
@[simp] theorem unwait_ports (c : Ctx) : c.unwait.ports = c.ports := rfl
@[simp] theorem unwait_st (c : Ctx) : c.unwait.st = c.st := rfl
@[simp] theorem unwait_ra (c : Ctx) : c.unwait.ra = c.ra := rfl
@[simp] theorem unwait_gen (c : Ctx) : c.unwait.gen = c.gen := rfl
@[simp] theorem unwait_lastEnd (c : Ctx) : c.unwait.lastEnd = c.lastEnd := rfl
@[simp] theorem unwait_nmPending (c : Ctx) : c.unwait.nmPending = c.nmPending := rfl
@[simp] theorem unwait_nmErrors (c : Ctx) : c.unwait.nmErrors = c.nmErrors := rfl
@[simp] theorem unwait_holdBreaks (c : Ctx) : c.unwait.holdBreaks = c.holdBreaks := rfl
@[simp] theorem unwait_poolStores (c : Ctx) : c.unwait.poolStores = c.poolStores := rfl
@[simp] theorem unwait_poolLost (c : Ctx) : c.unwait.poolLost = c.poolLost := rfl
@[simp] theorem unwait_seq (c : Ctx) : c.unwait.seq = c.seq := rfl
@[simp] theorem unwait_pending (c : Ctx) : c.unwait.pending = c.pending := rfl
@[simp] theorem unwait_granted (c : Ctx) : c.unwait.granted = c.granted := rfl
@[simp] theorem unwait_lrem (c : Ctx) : c.unwait.lrem = c.lrem := rfl
@[simp] theorem unwait_pc (c : Ctx) : c.unwait.pc = c.pc := rfl
@[simp] theorem unwait_loopActive (c : Ctx) : c.unwait.loopActive = c.loopActive := rfl
@[simp] theorem jump_x (c : Ctx) (w : Word) : (c.jump w).x = c.x := rfl
@[simp] theorem jump_v (c : Ctx) (w : Word) : (c.jump w).v = c.v := rfl
@[simp] theorem jump_p (c : Ctx) (w : Word) : (c.jump w).p = c.p := rfl
@[simp] theorem jump_g (c : Ctx) (w : Word) : (c.jump w).g = c.g := rfl
@[simp] theorem jump_fpstat (c : Ctx) (w : Word) : (c.jump w).fpstat = c.fpstat := rfl
@[simp] theorem jump_rmode (c : Ctx) (w : Word) : (c.jump w).rmode = c.rmode := rfl
@[simp] theorem jump_srseed (c : Ctx) (w : Word) : (c.jump w).srseed = c.srseed := rfl
@[simp] theorem jump_asid (c : Ctx) (w : Word) : (c.jump w).asid = c.asid := rfl
@[simp] theorem jump_ptroot (c : Ctx) (w : Word) : (c.jump w).ptroot = c.ptroot := rfl
@[simp] theorem jump_wscale6 (c : Ctx) (w : Word) : (c.jump w).wscale6 = c.wscale6 := rfl
@[simp] theorem jump_wscale7 (c : Ctx) (w : Word) : (c.jump w).wscale7 = c.wscale7 := rfl
@[simp] theorem jump_instret (c : Ctx) (w : Word) : (c.jump w).instret = c.instret := rfl
@[simp] theorem jump_tcause (c : Ctx) (w : Word) : (c.jump w).tcause = c.tcause := rfl
@[simp] theorem jump_tpc (c : Ctx) (w : Word) : (c.jump w).tpc = c.tpc := rfl
@[simp] theorem jump_tval (c : Ctx) (w : Word) : (c.jump w).tval = c.tval := rfl
@[simp] theorem jump_tinfo (c : Ctx) (w : Word) : (c.jump w).tinfo = c.tinfo := rfl
@[simp] theorem jump_lstart (c : Ctx) (w : Word) : (c.jump w).lstart = c.lstart := rfl
@[simp] theorem jump_lend (c : Ctx) (w : Word) : (c.jump w).lend = c.lend := rfl
@[simp] theorem jump_ports (c : Ctx) (w : Word) : (c.jump w).ports = c.ports := rfl
@[simp] theorem jump_st (c : Ctx) (w : Word) : (c.jump w).st = c.st := rfl
@[simp] theorem jump_wait (c : Ctx) (w : Word) : (c.jump w).wait = c.wait := rfl
@[simp] theorem jump_ra (c : Ctx) (w : Word) : (c.jump w).ra = c.ra := rfl
@[simp] theorem jump_gen (c : Ctx) (w : Word) : (c.jump w).gen = c.gen := rfl
@[simp] theorem jump_lastEnd (c : Ctx) (w : Word) : (c.jump w).lastEnd = c.lastEnd := rfl
@[simp] theorem jump_nmPending (c : Ctx) (w : Word) : (c.jump w).nmPending = c.nmPending := rfl
@[simp] theorem jump_nmErrors (c : Ctx) (w : Word) : (c.jump w).nmErrors = c.nmErrors := rfl
@[simp] theorem jump_holdBreaks (c : Ctx) (w : Word) : (c.jump w).holdBreaks = c.holdBreaks := rfl
@[simp] theorem jump_poolStores (c : Ctx) (w : Word) : (c.jump w).poolStores = c.poolStores := rfl
@[simp] theorem jump_poolLost (c : Ctx) (w : Word) : (c.jump w).poolLost = c.poolLost := rfl
@[simp] theorem jump_seq (c : Ctx) (w : Word) : (c.jump w).seq = c.seq := rfl
@[simp] theorem jump_pending (c : Ctx) (w : Word) : (c.jump w).pending = c.pending := rfl
@[simp] theorem jump_held (c : Ctx) (w : Word) : (c.jump w).held = c.held := rfl
@[simp] theorem jump_gword (c : Ctx) (w : Word) : (c.jump w).gword = c.gword := rfl
@[simp] theorem jump_lockReply (c : Ctx) (w : Word) : (c.jump w).lockReply = c.lockReply := rfl
@[simp] theorem jump_expired (c : Ctx) (w : Word) : (c.jump w).expired = c.expired := rfl
@[simp] theorem jump_lockReq (c : Ctx) (w : Word) : (c.jump w).lockReq = c.lockReq := rfl
@[simp] theorem jump_arrived (c : Ctx) (w : Word) : (c.jump w).arrived = c.arrived := rfl
@[simp] theorem jump_surveyed (c : Ctx) (w : Word) : (c.jump w).surveyed = c.surveyed := rfl
@[simp] theorem jump_granted (c : Ctx) (w : Word) : (c.jump w).granted = c.granted := rfl
@[simp] theorem jump_bb (c : Ctx) (w : Word) : (c.jump w).bb = c.bb := rfl
@[simp] theorem jump_sendFor (c : Ctx) (w : Word) : (c.jump w).sendFor = c.sendFor := rfl
@[simp] theorem jump_tok (c : Ctx) (w : Word) : (c.jump w).tok = c.tok := rfl
@[simp] theorem jump_lrem (c : Ctx) (w : Word) : (c.jump w).lrem = c.lrem := rfl

/-- The context that a completed instruction leaves. -/
theorem complete_c (s : State) (c : Ctx) (b : Bool) : (s.complete c b).c =
    { c.unwait with st := .ready, instret := if b then c.instret + 1 else c.instret } := by
  unfold State.complete State.c State.cur
  simp [State.cc, State.setCC, State.setC, State.cur, State.ctx, State.setCtx, State.core, State.setCore]

@[simp] theorem complete_fnode (s : State) (c : Ctx) (b : Bool) : (s.complete c b).fnode = s.fnode := rfl
@[simp] theorem complete_fcore (s : State) (c : Ctx) (b : Bool) : (s.complete c b).fcore = s.fcore := rfl
@[simp] theorem complete_schedule (s : State) (c : Ctx) (b : Bool) : (s.complete c b).schedule = s.schedule := rfl
@[simp] theorem complete_work (s : State) (c : Ctx) (b : Bool) : (s.complete c b).work = s.work := rfl
@[simp] theorem complete_ev (s : State) (c : Ctx) (b : Bool) : (s.complete c b).ev = s.ev := rfl
@[simp] theorem complete_stepNo (s : State) (c : Ctx) (b : Bool) : (s.complete c b).stepNo = s.stepNo := rfl
@[simp] theorem complete_clock (s : State) (c : Ctx) (b : Bool) : (s.complete c b).clock = s.clock := rfl
@[simp] theorem complete_polders (s : State) (c : Ctx) (b : Bool) : (s.complete c b).polders = s.polders := rfl
@[simp] theorem complete_dies (s : State) (c : Ctx) (b : Bool) : (s.complete c b).dies = s.dies := rfl
@[simp] theorem complete_pkgs (s : State) (c : Ctx) (b : Bool) : (s.complete c b).pkgs = s.pkgs := rfl
@[simp] theorem complete_group (s : State) (c : Ctx) (b : Bool) : (s.complete c b).group = s.group := rfl
@[simp] theorem complete_domain (s : State) (c : Ctx) (b : Bool) : (s.complete c b).domain = s.domain := rfl
@[simp] theorem complete_mem (s : State) (c : Ctx) (b : Bool) : (s.complete c b).mem = s.mem := rfl
@[simp] theorem complete_lost (s : State) (c : Ctx) (b : Bool) : (s.complete c b).lost = s.lost := rfl
@[simp] theorem complete_lostWords (s : State) (c : Ctx) (b : Bool) : (s.complete c b).lostWords = s.lostWords := rfl
@[simp] theorem complete_dirs (s : State) (c : Ctx) (b : Bool) : (s.complete c b).dirs = s.dirs := rfl
@[simp] theorem complete_proxies (s : State) (c : Ctx) (b : Bool) : (s.complete c b).proxies = s.proxies := rfl
@[simp] theorem complete_pins (s : State) (c : Ctx) (b : Bool) : (s.complete c b).pins = s.pins := rfl
@[simp] theorem complete_late (s : State) (c : Ctx) (b : Bool) : (s.complete c b).late = s.late := rfl
@[simp] theorem complete_tries (s : State) (c : Ctx) (b : Bool) : (s.complete c b).tries = s.tries := rfl
@[simp] theorem complete_locks (s : State) (c : Ctx) (b : Bool) : (s.complete c b).locks = s.locks := rfl
@[simp] theorem complete_nmOps (s : State) (c : Ctx) (b : Bool) : (s.complete c b).nmOps = s.nmOps := rfl
@[simp] theorem complete_migs (s : State) (c : Ctx) (b : Bool) : (s.complete c b).migs = s.migs := rfl
@[simp] theorem complete_nextCmd (s : State) (c : Ctx) (b : Bool) : (s.complete c b).nextCmd = s.nextCmd := rfl
@[simp] theorem complete_flights (s : State) (c : Ctx) (b : Bool) : (s.complete c b).flights = s.flights := rfl
@[simp] theorem complete_urgent (s : State) (c : Ctx) (b : Bool) : (s.complete c b).urgent = s.urgent := rfl
@[simp] theorem complete_colls (s : State) (c : Ctx) (b : Bool) : (s.complete c b).colls = s.colls := rfl
@[simp] theorem complete_clones (s : State) (c : Ctx) (b : Bool) : (s.complete c b).clones = s.clones := rfl
@[simp] theorem complete_tokens (s : State) (c : Ctx) (b : Bool) : (s.complete c b).tokens = s.tokens := rfl
@[simp] theorem complete_accepts (s : State) (c : Ctx) (b : Bool) : (s.complete c b).accepts = s.accepts := rfl
@[simp] theorem complete_results (s : State) (c : Ctx) (b : Bool) : (s.complete c b).results = s.results := rfl
@[simp] theorem complete_legUps (s : State) (c : Ctx) (b : Bool) : (s.complete c b).legUps = s.legUps := rfl
@[simp] theorem complete_pfx (s : State) (c : Ctx) (b : Bool) : (s.complete c b).pfx = none := rfl
@[simp] theorem complete_idle (s : State) (c : Ctx) (b : Bool) : (s.complete c b).idle = false := rfl
@[simp] theorem complete_cc (s : State) (c : Ctx) (b : Bool) : (s.complete c b).cc = { s.cc with run := s.cc.run + 1 } := by
  unfold State.complete
  simp [State.cc, State.setCC, State.core, State.setCore, State.setC, State.setCtx]
@[simp] theorem complete_cur (s : State) (c : Ctx) (b : Bool) : (s.complete c b).cur = s.cur := by
  unfold State.cur; simp
theorem complete_ctx_other (s : State) (c : Ctx) (b : Bool) (i : CtxId) (h : i ≠ s.cur) : (s.complete c b).ctx i = s.ctx i := by
  unfold State.complete State.setCC State.setC
  simp only [State.ctx, State.setCore, State.setCtx]
  exact tget_tset_other _ _ _ _ _ h
theorem complete_core_other (s : State) (c : Ctx) (b : Bool) (n k : Nat) (h : (n, k) ≠ (s.fnode, s.fcore)) :
    (s.complete c b).core n k = s.core n k := by
  unfold State.complete State.setCC State.setC
  simp only [State.core, State.setCore, State.setCtx]
  exact tget_tset_other _ _ _ _ _ h

/-! ## Results -/

/-- Completing changes only the issuing context, and counts the instruction. -/
theorem onlyContext_complete (s : State) (c : Ctx) (b : Bool) : OnlyContext s (s.complete c b) :=
  ⟨rfl, rfl, rfl, rfl, ⟨rfl, rfl, rfl, rfl, rfl, rfl, rfl, rfl, rfl, rfl, rfl, rfl, rfl, rfl, rfl, rfl, rfl, rfl, rfl⟩,
    ⟨complete_cur s c b, fun i h => complete_ctx_other s c b i h, fun n k h => complete_core_other s c b n k h, complete_cc s c b⟩⟩

/-- Writing the issuing context changes nothing else, and retiring after it neither. -/
theorem onlyContext_setC (s : State) (d c : Ctx) (b : Bool) : OnlyContext s ((s.setC d).complete c b) := by
  refine ⟨rfl, rfl, rfl, rfl, ⟨rfl, rfl, rfl, rfl, rfl, rfl, rfl, rfl, rfl, rfl, rfl, rfl, rfl, rfl, rfl, rfl, rfl, rfl, rfl⟩, ?_, ?_, ?_, ?_⟩
  · rw [complete_cur]; rfl
  · intro i h; rw [complete_ctx_other _ _ _ _ (by simpa using h), setC_ctx_other _ _ _ h]
  · intro n k h; exact complete_core_other (s.setC d) c b n k h
  · rw [complete_cc]; rfl

/-- X(r) of a context with X(d) written. -/
theorem xr_setX (c : Ctx) (d r : Reg) (v : Word) : (c.setX d v).xr r = if r = 0 then 0 else if r = d then v else c.xr r := by
  by_cases h0 : r = 0
  · rw [if_pos h0, h0]; rfl
  · rw [if_neg h0]
    by_cases h : r = d
    · rw [if_pos h, ← h]; exact xr_setX_same c r v h0
    · rw [if_neg h]; exact xr_setX_other c d r v h

/-- Writing one X register and then completing with a context that keeps the registers. -/
theorem resultX_complete (s : State) (d : Reg) (v : Word) (c : Ctx) (hx : c.x = (s.c.setX d v).x) (hs : SameButX s.c c)
    (hi : c.instret = s.c.instret) : ResultX d v s ((s.setX d v).complete c true) := by
  refine ⟨⟨onlyContext_setC s _ _ _, ?_, ?_⟩, ?_⟩
  · rw [complete_c]; exact hs
  · rw [complete_c]; simp [hi]
  · intro r
    unfold State.X
    rw [complete_c]
    show (if r = 0 then 0 else c.x[r.toNat]'r.isLt) = _
    rw [← xr_setX]
    simp only [hx]; rfl

/-- An X register written apart from it leaves the rest of a context. -/
theorem sameButX_setX (c : Ctx) (d : Reg) (v : Word) : SameButX c (c.setX d v) := by simp [SameButX]

/-- What `writeX` does, once for all: the instruction completes, its one effect X(d) := v. -/
theorem writeX_result (i : Instr) (d : Reg) (v : Word) (s : State) : ∃ t, writeX i d v s = .next t ∧ ResultX d v s t := by
  refine ⟨_, rfl, ?_⟩
  have e : (s.setX d v).retire i = (s.setX d v).complete ((s.c.setX d v).advance (instrBytes s i) s.pfx.isSome) true := by
    unfold State.retire; rw [setX_c]; rfl
  show ResultX d v s ((s.setX d v).retire i)
  rw [e]
  refine resultX_complete s d v _ (by simp) ?_ (by simp)
  simp [SameButX]

/-- Completing leaves what the instruction made of the machine. -/
theorem leaves_complete (u : State) (c : Ctx) (hx : c.x = u.c.x) (hs : SameButX u.c c) (hi : c.instret = u.c.instret) :
    Leaves u (u.complete c true) := by
  refine ⟨onlyContext_complete u c true, ?_, ?_, ?_, ?_⟩ <;> rw [complete_c]
  · exact hx
  · exact hs
  · simp [hi]

/-- The contexts that `advance` and `jump` make keep every register. -/
theorem sameButX_advance (c : Ctx) (n : Nat) (b : Bool) : SameButX c (c.advance n b) := by simp [SameButX]
theorem sameButX_jump (c : Ctx) (w : Word) : SameButX c (c.jump w) := by simp [SameButX]

/-- What retiring leaves. -/
theorem leaves_retire (u : State) (i : Instr) : Leaves u (u.retire i) :=
  leaves_complete u _ (by simp) (sameButX_advance _ _ _) (by simp)
theorem leaves_retireTo (u : State) (w : Word) : Leaves u (u.retireTo w) :=
  leaves_complete u _ (by simp) (sameButX_jump _ _) (by simp)

/-- An instruction whose body succeeds completes, and leaves what the body made. -/
theorem finish_leaves (i : Instr) (s u : State) : ∃ t, finish i s (.ok u) = .next t ∧ Leaves u t := ⟨_, rfl, leaves_retire u i⟩

/-! ## Every meaning has a next state -/

/-- Whatever an instruction's body answers, there is a next state: it retires, traps or stalls. -/
theorem finishWith_next {α : Type} (i : Instr) (s : State) (r : Except Stop α) (done : α → State) : ∃ t, finishWith i s r done = .next t := by
  unfold finishWith; split <;> exact ⟨_, rfl⟩
theorem finish_next (i : Instr) (s : State) (r : Res) : ∃ t, finish i s r = .next t := finishWith_next i s r _
theorem finishJump_next (i : Instr) (s : State) (r : Except Stop (State × Option Word)) : ∃ t, finishJump i s r = .next t :=
  finishWith_next i s r _

end Sys2Proof.Machine
end

