-- ==== Sys2Proof/Laws/Memory.lean ====
section
/-! SUPPORT. Memory: each operation keeps the canonical form, and what reading gives after writing. -/

namespace Sys2Proof.Machine
open Sys2Proof

/-- A form with a lower bound also has every smaller one. -/
theorem memWfFrom_mono (m : List Host.Cell) (lo lo' : Nat) (h : memWfFrom lo m = true) (hl : lo' ≤ lo) : memWfFrom lo' m = true := by
  cases m with
  | nil => rfl
  | cons e r =>
    obtain ⟨k, b⟩ := e
    simp only [memWfFrom, Bool.and_eq_true, decide_eq_true_eq] at h ⊢
    exact ⟨⟨by omega, h.1.2⟩, h.2⟩

/-- Below its lowest cell a memory reads as the default. -/
theorem memGet_below (m : List Host.Cell) (lo a : Nat) (h : memWfFrom lo m = true) (ha : a < lo) : memGet m a = memDefault := by
  cases m with
  | nil => rfl
  | cons e r =>
    obtain ⟨k, b⟩ := e
    simp only [memWfFrom, Bool.and_eq_true, decide_eq_true_eq] at h
    have : k ≠ a := by omega
    simp only [memGet, this, if_false]
    rw [if_pos (by omega)]

/-- A write keeps the form above a bound that its address respects. -/
theorem memWfFrom_memSet (m : List Host.Cell) (lo a : Nat) (b : Byte) (h : memWfFrom lo m = true) (ha : lo ≤ a) :
    memWfFrom lo (memSet m a b) = true := by
  induction m generalizing lo with
  | nil =>
    unfold memSet
    split
    · rfl
    · rename_i hb; simp [memWfFrom, ha, hb]
  | cons e r ih =>
    obtain ⟨k, c⟩ := e
    simp only [memWfFrom, Bool.and_eq_true, decide_eq_true_eq] at h
    obtain ⟨⟨hk, hc⟩, hr⟩ := h
    unfold memSet
    split
    · rename_i e; subst e
      split
      · exact memWfFrom_mono r (k + 1) lo hr (by omega)
      · rename_i hb; simp [memWfFrom, hk, hb, hr]
    · split
      · split
        · simp [memWfFrom, hk, hc, hr]
        · rename_i hlt hb
          simp only [memWfFrom, Bool.and_eq_true, decide_eq_true_eq]
          exact ⟨⟨ha, hb⟩, ⟨by omega, hc⟩, hr⟩
      · rename_i hne hnl
        simp only [memWfFrom, Bool.and_eq_true, decide_eq_true_eq]
        exact ⟨⟨hk, hc⟩, ih (k + 1) hr (by omega)⟩

/-- A write keeps the canonical form. -/
theorem wf_memSet (m : List Host.Cell) (a : Nat) (b : Byte) (h : Memory.wf m = true) : Memory.wf (memSet m a b) = true :=
  memWfFrom_memSet m 0 a b h (Nat.zero_le a)

/-- Reading the byte just written. -/
theorem memGet_memSet_same (m : List Host.Cell) (lo a : Nat) (b : Byte) (h : memWfFrom lo m = true) : memGet (memSet m a b) a = b := by
  induction m generalizing lo with
  | nil =>
    unfold memSet
    split
    · rename_i hb; rw [hb]; rfl
    · simp [memGet]
  | cons e r ih =>
    obtain ⟨k, c⟩ := e
    simp only [memWfFrom, Bool.and_eq_true, decide_eq_true_eq] at h
    obtain ⟨⟨hk, hc⟩, hr⟩ := h
    unfold memSet
    split
    · rename_i e; subst e
      split
      · rename_i hb; rw [hb]; exact memGet_below r (k + 1) k hr (by omega)
      · simp [memGet]
    · rename_i hne
      split
      · rename_i hlt
        split
        · rename_i hb; rw [hb]; simp [memGet, hne, hlt]
        · simp [memGet]
      · rename_i hnl; simp only [memGet, hne, hnl, if_false]; exact ih (k + 1) hr

/-- Reading another byte. -/
theorem memGet_memSet_other (m : List Host.Cell) (lo a i : Nat) (b : Byte) (h : memWfFrom lo m = true) (hi : i ≠ a) :
    memGet (memSet m a b) i = memGet m i := by
  induction m generalizing lo with
  | nil =>
    unfold memSet
    split
    · rfl
    · simp [memGet, Ne.symm hi]
  | cons e r ih =>
    obtain ⟨k, c⟩ := e
    simp only [memWfFrom, Bool.and_eq_true, decide_eq_true_eq] at h
    obtain ⟨⟨hk, hc⟩, hr⟩ := h
    unfold memSet
    split
    · rename_i e; subst e
      split
      · simp only [memGet, Ne.symm hi, if_false]
        split
        · rename_i hlt; exact memGet_below r (k + 1) i hr (by omega)
        · rfl
      · simp [memGet, Ne.symm hi]
    · rename_i hne
      split
      · rename_i hlt
        split
        · rfl
        · simp only [memGet, Ne.symm hi, if_false]
          split
          · rename_i hia
            have : k ≠ i := by omega
            rw [if_neg this, if_pos (by omega)]
          · rfl
      · simp only [memGet]
        split
        · rfl
        · split
          · rfl
          · exact ih (k + 1) hr

/-- Keeping some cells keeps the form. -/
theorem memWfFrom_memKeep (m : List Host.Cell) (p : Nat → Bool) (lo : Nat) (h : memWfFrom lo m = true) : memWfFrom lo (memKeep m p) = true := by
  induction m generalizing lo with
  | nil => rfl
  | cons e r ih =>
    obtain ⟨k, b⟩ := e
    simp only [memWfFrom, Bool.and_eq_true, decide_eq_true_eq] at h
    have hr := ih (k + 1) h.2
    unfold memKeep at hr ⊢
    simp only [List.filter_cons]
    split
    · simp [memWfFrom, h.1.1, h.1.2, hr]
    · exact memWfFrom_mono _ (k + 1) lo hr (by omega)

/-- Keeping some cells keeps the canonical form. -/
theorem wf_memKeep (m : List Host.Cell) (p : Nat → Bool) (h : Memory.wf m = true) : Memory.wf (memKeep m p) = true := memWfFrom_memKeep m p 0 h

/-- A write of `n` bytes keeps the canonical form. -/
theorem wf_memWrite (m : List Host.Cell) (a n v : Nat) (h : Memory.wf m = true) : Memory.wf (memWrite m a n v) = true := by
  induction n generalizing m a v with
  | zero => exact h
  | succ n ih => exact ih _ _ _ (wf_memSet m a _ h)

/-- A byte outside the written ones is unchanged. -/
theorem memGet_memWrite_other (m : List Host.Cell) (a n v i : Nat) (h : Memory.wf m = true) (hi : i < a ∨ a + n ≤ i) :
    memGet (memWrite m a n v) i = memGet m i := by
  induction n generalizing m a v with
  | zero => rfl
  | succ n ih =>
    unfold memWrite
    rw [ih _ _ _ (wf_memSet m a _ h) (by omega)]
    exact memGet_memSet_other m 0 a i _ h (by omega)

/-- Reading `n` bytes outside the written ones. -/
theorem memRead_memWrite_other (m : List Host.Cell) (a n v b k : Nat) (h : Memory.wf m = true) (hb : b + k ≤ a ∨ a + n ≤ b) :
    memRead (memWrite m a n v) b k = memRead m b k := by
  induction k generalizing b with
  | zero => rfl
  | succ k ih =>
    unfold memRead
    rw [memGet_memWrite_other m a n v b h (by omega), ih (b + 1) (by omega)]

/-- Reading back what was written: the low `n` bytes of the value, little-endian (R5). -/
theorem memRead_memWrite_same (m : List Host.Cell) (a n v : Nat) (h : Memory.wf m = true) :
    memRead (memWrite m a n v) a n = v % 256 ^ n := by
  induction n generalizing m a v with
  | zero => simp [memRead, Nat.mod_one]
  | succ n ih =>
    unfold memRead memWrite
    rw [ih _ _ _ (wf_memSet m a _ h), memGet_memWrite_other _ (a + 1) n _ a (wf_memSet m a _ h) (by omega),
      memGet_memSet_same m 0 a _ h, BitVec.toNat_ofNat, show 256 ^ (n + 1) = 256 * 256 ^ n from Nat.pow_succ', Nat.mod_mul]

/-- Clearing keeps the canonical form. -/
theorem wf_memZero (m : List Host.Cell) (a n : Nat) (h : Memory.wf m = true) : Memory.wf (memZero m a n) = true := by
  induction n generalizing m with
  | zero => exact h
  | succ n ih => exact ih _ (wf_memSet m _ _ h)

/-- A byte outside the cleared ones is unchanged. -/
theorem memGet_memZero_other (m : List Host.Cell) (a n i : Nat) (h : Memory.wf m = true) (hi : i < a ∨ a + n ≤ i) :
    memGet (memZero m a n) i = memGet m i := by
  induction n generalizing m with
  | zero => rfl
  | succ n ih =>
    unfold memZero
    rw [ih _ (wf_memSet m _ _ h) (by omega), memGet_memSet_other m 0 (a + n) i 0 h (by omega)]

/-- A masked copy keeps the canonical form. -/
theorem wf_copyMasked (m : List Host.Cell) (x y : Nat) (k : BitVec 64) (n : Nat) (h : Memory.wf m = true) :
    Memory.wf (copyMasked m x y k n) = true := by
  induction n generalizing m with
  | zero => exact h
  | succ n ih =>
    unfold copyMasked
    apply ih
    split
    · exact wf_memSet m _ _ h
    · exact h

/-- A copied page keeps the canonical form. -/
theorem wf_copyBytes (m : List Host.Cell) (x y n : Nat) (h : Memory.wf m = true) : Memory.wf (copyBytes m x y n) = true := by
  induction n generalizing m x y with
  | zero => exact h
  | succ n ih => exact ih _ _ _ (wf_memSet m y _ h)

/-- Reset memory has the canonical form. -/
theorem wf_reset : Memory.wf State.reset.mem = true := rfl

end Sys2Proof.Machine
end

