-- ==== Sys2Proof/Tests/Slice0.lean ====
section
/-! SUPPORT. Tests of the model: the field checks refuse an ill-formed term each, words written out from the spec's encodings decode to
their instructions, single steps give what the spec's examples and rules say, and every statement that has hypotheses has states and
operands that meet them. Expected values are the spec's own or were worked out by hand from its rules. -/

namespace Sys2Proof.Tests
set_option Elab.async false
open Sys2Proof Sys2Proof.Machine Sys2Proof.Safety

/-! ## The field checks -/

/-- R49: RND 7 and NANP 3 are reserved, and C stands with a scale register only. -/
theorem test_wf_pfx : wellFormed (.pfx 7 false 0 0 false 0) = false ∧ wellFormed (.pfx 0 false 3 0 false 0) = false ∧
    wellFormed (.pfx 0 false 0 0 true 0) = false ∧ wellFormed (.pfx 0 false 0 0 false 5) = false ∧
    wellFormed (.pfx 1 true 0 0 false 0) = true := by decide +kernel

/-- R264: a field that leaves the register. -/
theorem test_wf_bitfields : wellFormed (.bfx 1 2 33 31) = false ∧ wellFormed (.bfxs 1 2 63 1) = false ∧
    wellFormed (.bfi 1 2 0 63) = true ∧ wellFormed (.bfi 1 2 1 63) = false := by decide +kernel

/-- R270, R126, R127: a loop of no words, a width of LDL or STL that no row lists. -/
theorem test_wf_loop_long : wellFormed (.loop 7 0) = false ∧ wellFormed (.ldl 1 2 7 0 0) = false ∧
    wellFormed (.stl 1 2 4 0 0) = false ∧ wellFormed (.ldl 1 2 6 0 0) = true := by decide +kernel

/-- R129: placement 3, and NR with a destination; AMOCAS has no NR form. -/
theorem test_wf_atomics : wellFormed (.amoadd 0 1 2 true 3 false) = false ∧ wellFormed (.amoand 5 1 2 true 0 true) = false ∧
    wellFormed (.amoor 5 1 2 true 3 false) = false ∧ wellFormed (.amoxor 5 1 2 true 0 true) = false ∧ wellFormed (.amomin 5 1 2 true 0 true) = false ∧
    wellFormed (.amomax 5 1 2 true 0 true) = false ∧ wellFormed (.amominu 5 1 2 true 0 true) = false ∧ wellFormed (.amomaxu 5 1 2 true 0 true) = false ∧
    wellFormed (.amoswap 5 1 2 true 0 true) = false ∧ wellFormed (.amocas 5 1 2 true 3) = false ∧ wellFormed (.amofadd false 5 1 2 0 true) = false ∧
    wellFormed (.amofmin 5 1 2 3 false) = false ∧ wellFormed (.amofmax 5 1 2 0 true) = false ∧ wellFormed (.amoadd 0 1 2 true 0 true) = true := by decide +kernel

/-- Scope codes that no row lists: locks, fences, SYNCI, XINV, XINVAS; a fence of no class, or of kind 3; a SURVEY mode of 2. -/
theorem test_wf_scopes : wellFormed (.lkacq 1 2 3 7) = false ∧ wellFormed (.lktry 1 2 7) = false ∧ wellFormed (.lkrel 1 2 7) = false ∧
    wellFormed (.fence 7 1 0) = false ∧ wellFormed (.fence 2 0 0) = false ∧ wellFormed (.fence 2 1 3) = false ∧ wellFormed (.synci 5 1 2) = false ∧
    wellFormed (.xinv 2 1) = false ∧ wellFormed (.xinvas 5 1) = false ∧ wellFormed (.survey 1 2 2) = false := by decide +kernel

/-- R243: type codes 6 and 7, over the vector members. -/
theorem test_wf_vector_types : ∀ i ∈ [Instr.vadd false 1 2 3 6, .vsub false 1 2 3 7, .vmul false 1 2 3 6, .vfma false 1 2 3 6, .vfms false 1 2 3 6, .vmin false 1 2 3 6,
    .vmax false 1 2 3 6, .vabs false 1 2 6, .vneg false 1 2 6, .vand false 1 2 3 6, .vor false 1 2 3 6, .vxor false 1 2 3 6, .vsll false 1 2 3 6, .vsrl false 1 2 3 6,
    .vsra false 1 2 3 6, .vdiv false 1 2 3 6, .vsqrt false 1 2 6, .vrsq false 1 2 6, .vrcp false 1 2 6, .vexp2 false 1 2 6, .vlog2 false 1 2 6, .vmulh false 1 2 3 6,
    .vaddsat false 1 2 3 6, .vsubsat false 1 2 3 6, .vmov false 1 2 6, .vaddsc false 1 2 3 6, .vsubsc false 1 2 3 6, .vmulsc false 1 2 3 6, .vfmasc false 1 2 3 6,
    .vminsc false 1 2 3 6, .vmaxsc false 1 2 3 6, .vsplat false 1 2 6, .vins false 1 2 3 6, .vext false 1 2 3 6, .vsplati false 1 6 0, .vredsum false 1 2 6,
    .vredmax false 1 2 6, .vredmin false 1 2 6, .vperm false 1 2 3 6, .vrot false 1 2 3 6, .vsort false 1 2 3 6, .vdupm false 1 2 3 6, .vcompr false 1 2 3 6,
    .vexpnd false 1 2 3 6, .vcmp false 1 2 3 0 6, .vsel false 1 2 3 6], wellFormed i = false := by decide +kernel

/-- R45, R297: predicate fields of 8 and more, condition codes above 8. -/
theorem test_wf_predicates : ∀ i ∈ [Instr.vdupm false 8 2 3 0, .vcompr false 1 2 8 0, .vexpnd false 1 2 9 0, .vcmp false 8 2 3 0 0, .vcmp false 1 2 3 9 0,
    .vsel false 1 2 31 0, .pand false 8 1 2, .por false 1 8 2, .pnot false 1 8, .pcnt false 9 8], wellFormed i = false := by decide +kernel

/-- R234, R375, R339: ports below 24, a field number above 5, a bearing string of 15 moves or with bits beyond its count. -/
theorem test_wf_ports_fields : wellFormed (.sbind 23 1) = false ∧ wellFormed (.sunbind 0) = false ∧ wellFormed (.sstat 1 23) = false ∧
    wellFormed (.widf 1 6) = false ∧ wellFormed (.sendb 1 2 3 15) = false ∧ wellFormed (.sendb 1 2 3 0x40) = false ∧
    wellFormed (.sendb 1 2 3 0x31) = true := by decide +kernel

/-! ## Words of the spec -/

/-- Scalar integer, constants, branches, jumps, loops, CSRs. -/
theorem test_words_scalar : decodeWord 0x002C2D04 0 = .ok (.add 13 1 11) ∧ decodeWord 0xFFFCC508 0 = .ok (.addi 5 6 (BitVec.ofInt 14 (-1))) ∧
    decodeWord 0x020CC518 0 = .ok (.srai 5 6 3) ∧ decodeWord 0x00194B18 0 = .ok (.slli 11 10 6) ∧ decodeWord 0x07854524 0 = .ok (.bfx 5 10 33 7) ∧
    decodeWord 0x00000913 0x40000200 = .ok (.ldiu 9 0x40000200) ∧ decodeWord 0x0008C530 0 = .ok (.beq 5 6 2) ∧ decodeWord 0x00008148 0 = .ok (.jal 1 4) ∧
    decodeWord 0x0008E050 0 = .ok (.loop 7 2) ∧ decodeWord 0x0004C57C 0 = .ok (.csrrw 5 6 1) := by decide +kernel

/-- Loads and stores, atomics, near memory, locks, fences. -/
theorem test_words_memory : decodeWord 0xC008C554 0 = .ok (.ld 5 6 2 0) ∧ decodeWord 0x4FFCC758 0 = .ok (.sw 7 6 (BitVec.ofInt 9 (-1)) 1) ∧
    decodeWord 0xC000C533 0x00010000 = .ok (.ldl 5 6 6 0 0x00010000) ∧ decodeWord 0x281CC564 0 = .ok (.amoadd 5 6 7 true 2 false) ∧
    decodeWord 0x049CC564 0 = .ok (.amocas 5 6 7 false 0) ∧ decodeWord 0x451CC065 0 = .ok (.amofadd true 0 6 7 0 true) ∧
    decodeWord 0x0098A068 0 = .ok (.nmfadd 5 6 false) ∧ decodeWord 0x0488A068 0 = .ok (.nmfadd 5 2 true) ∧ decodeWord 0x101CC56C 0 = .ok (.lkacq 5 6 7 4) ∧
    decodeWord 0x00480070 0 = .ok (.fence 2 2 0) ∧ decodeWord 0x04300070 0 = .ok (.fence 4 1 1) ∧ decodeWord 0x08540070 0 = .ok (.fence 5 2 2) := by
  decide +kernel

/-- Translation, contexts, phasers, barriers, geometry, ports, leases, coherence objects. -/
theorem test_words_system : decodeWord 0x0000C574 0 = .ok (.xprobe 5 6) ∧ decodeWord 0x0204C574 0 = .ok (.survey 5 6 1) ∧ decodeWord 0x029CC574 0 = .ok (.xmig 5 6 7) ∧
    decodeWord 0x019CC474 0 = .ok (.synci 4 6 7) ∧ decodeWord 0x0000C5B8 0 = .ok (.shape 5 6) ∧ decodeWord 0x00390FAC 0 = .ok (.start 15 8 14) ∧
    decodeWord 0x00B90FAC 0 = .ok (.startp 15 8 14) ∧ decodeWord 0x010000AC 0 = .ok .quit ∧ decodeWord 0x018000AC 0 = .ok .yield ∧
    decodeWord 0x02800AAC 0 = .ok (.wid 10) ∧ decodeWord 0x030405AC 0 = .ok (.widf 5 1) ∧ decodeWord 0x0381F0AC 0 = .ok (.joinh 16 15) ∧
    decodeWord 0x0401E5AC 0 = .ok (.hstat 5 15) ∧ decodeWord 0x009CC5A8 0 = .ok (.phreg 5 6 7) ∧ decodeWord 0x010520A4 0 = .ok (.bbwait 9 true) ∧
    decodeWord 0x0000A098 0 = .ok (.gw 0 5) ∧ decodeWord 0x00007894 0 = .ok (.sbind 24 3) ∧ decodeWord 0x00801894 0 = .ok (.sunbind 24) ∧
    decodeWord 0x01030594 0 = .ok (.sstat 5 24) ∧ decodeWord 0x0000C5A0 0 = .ok (.lease 5 6) ∧ decodeWord 0x008005A0 0 = .ok (.unlease 5) ∧
    decodeWord 0x010005A0 0 = .ok (.lstat 5) := by decide +kernel

/-- Engines, arrays, collectives, messages, named experts. -/
theorem test_words_units : decodeWord 0x001DA09C 0 = .ok (.ecpy 13 7 false) ∧ decodeWord 0x002D449C 0 = .ok (.emma false 10 11 false false) ∧
    decodeWord 0x01AD449C 0 = .ok (.emma false 10 11 true true) ∧ decodeWord 0x0001459C 0 = .ok (.emmz 10 false) ∧ decodeWord 0x0035869C 0 = .ok (.emmd false 12 13 false) ∧
    decodeWord 0x0035869D 0 = .ok (.emmd true 12 13 false) ∧ decodeWord 0x002D489C 0 = .ok (.ecoll 10 11) ∧ decodeWord 0x00014A9C 0 = .ok (.eclone 10) ∧
    decodeWord 0x001CC5B0 0 = .ok (.send 5 6 7) ∧ decodeWord 0x0280C5B0 0 = .ok (.mbind 5 6) ∧ decodeWord 0x001CC523 0x00000854 = .ok (.sendb 5 6 7 0x854) ∧
    decodeWord 0x001CC5B4 0 = .ok (.tsend 5 6 7) ∧ decodeWord 0x0200C5B4 0 = .ok (.xjoin 5 6) ∧ decodeWord 0x0280C5B4 0 = .ok (.xver 5 6) ∧
    decodeWord 0x0300C5B4 0 = .ok (.xcreate 5 6) ∧ decodeWord 0x039CC5B4 0 = .ok (.xretire 5 6 7) := by decide +kernel

/-- Scalar floating point, vectors, conversions, prefix and a governed word. -/
theorem test_words_float_vector : decodeWord 0x001CC5BC 0 = .ok (.fadd false 5 6 7) ∧ decodeWord 0x019CC5BC 0 = .ok (.fmac false 5 6 7) ∧
    decodeWord 0x0280C5BC 0 = .ok (.fsqrt false 5 6) ∧ decodeWord 0x0400C5BC 0 = .ok (.fcvti false 5 6) ∧ decodeWord 0x061CC5BC 0 = .ok (.scal false 5 6 7) ∧
    decodeWord 0x20671A80 0 = .ok (.vadd false 26 24 25 1) ∧ decodeWord 0x218C4180 0 = .ok (.vfma false 1 2 3 1) ∧ decodeWord 0xAB0C4180 0 = .ok (.vaddsat false 1 2 3 5) ∧
    decodeWord 0x21248484 0 = .ok (.vmulsc false 4 4 9 1) ∧ decodeWord 0x2001098C 0 = .ok (.vredsum false 9 8 1) ∧ decodeWord 0x028C228C 0 = .ok (.vsort false 2 1 3 0) ∧
    decodeWord 0x030C418C 0 = .ok (.vdupm false 1 2 3 0) ∧ decodeWord 0x0384448C 0 = .ok (.vcompr false 4 2 1 0) ∧
    decodeWord 0x20000443 0x3F800000 = .ok (.vsplati false 4 1 0x3F800000) ∧ decodeWord 0x00088360 0 = .ok (.stv 3 4 2 0) ∧
    decodeWord 0x00000026 0 = .ok (.pfx 1 true 0 0 false 0) ∧ (decodeWord 0x0A030389 0).toOption.map isEvent = some false := by decide +kernel

/-! ## Single steps -/

/-- Slot `j` of core 0 of node 0 in focus, with context `c`; every other unit as after reset. -/
def onSlot (j : Nat) (c : Ctx) : State :=
  { State.reset with cores := [((0, 0), { CoreSt.reset with slot := j })], ctxs := [(⟨0, 0, j⟩, { c with st := .ready })] }
/-- A context with the X registers listed. -/
def regs (l : List (Nat × Word)) : Ctx := l.foldl (fun c e => c.setX (BitVec.ofNat 5 e.1) e.2) Ctx.reset
/-- The system context with the X registers listed. -/
def sysX (l : List (Nat × Word)) : State := onSlot 11 (regs l)
/-- The context of slot 1 with the X registers listed. -/
def userX (l : List (Nat × Word)) : State := onSlot 1 (regs l)
/-- The next state. -/
def nextOf (o : Out) : State := match o with | .next t => t | _ => State.reset
/-- The next state of an instruction in the system context. -/
def after (i : Instr) (l : List (Nat × Word)) : State := nextOf (exec i (sysX l))
/-- A vector of the eight words listed, element 0 first. -/
def vecOf (l : List Nat) : Vec := BitVec.ofNat 256 (packEls 32 l)

/-- R260: a sum wraps, x0 discards, the slot retires. -/
theorem test_add : (after (.add 3 1 2) [(1, BitVec.allOnes 64), (2, 2)]).X 3 = 1 ∧ (after (.add 0 1 2) [(1, 5), (2, 2)]).X 0 = 0 ∧
    (after (.add 3 1 2) []).c.instret = 1 ∧ (after (.add 3 1 2) []).c.pc = 4 := by decide +kernel
/-- R260: W forms extend the sign of 32 bits; SRA keeps the sign; a rotation by 0. -/
theorem test_addw_sra_rol : (after (.addw 3 1 2) [(1, 0x7FFFFFFF), (2, 1)]).X 3 = 0xFFFFFFFF80000000 ∧
    (after (.sra 3 1 2) [(1, 0x8000000000000000), (2, 65)]).X 3 = 0xC000000000000000 ∧
    (after (.rol 3 1 2) [(1, 0x8000000000000001), (2, 64)]).X 3 = 0x8000000000000001 := by decide +kernel
/-- R261: SLTI compares signed values; ANDI extends its immediate. -/
theorem test_slti_andi : (after (.slti 3 1 (BitVec.ofInt 14 (-1))) [(1, BitVec.ofInt 64 (-2))]).X 3 = 1 ∧
    (after (.andi 3 1 (BitVec.ofInt 14 (-16))) [(1, 0xFFFFFFFFFFFFFFFF)]).X 3 = 0xFFFFFFFFFFFFFFF0 := by decide +kernel
/-- R262, R263: the high half of a signed product; the edge cases of division. -/
theorem test_mul_div : (after (.mulh 3 1 2) [(1, BitVec.ofInt 64 (-1)), (2, 2)]).X 3 = BitVec.allOnes 64 ∧
    (after (.div 3 1 2) [(1, 0x8000000000000000), (2, BitVec.ofInt 64 (-1))]).X 3 = 0x8000000000000000 ∧
    (after (.div 3 1 2) [(1, BitVec.ofInt 64 (-7)), (2, 2)]).X 3 = BitVec.ofInt 64 (-3) ∧
    (after (.rem 3 1 2) [(1, BitVec.ofInt 64 (-7)), (2, 2)]).X 3 = BitVec.ofInt 64 (-1) ∧
    (after (.divu 3 1 2) [(1, 9)]).X 3 = BitVec.allOnes 64 ∧ (after (.remu 3 1 2) [(1, 9)]).X 3 = 9 := by decide +kernel
/-- R264, R265: the field of the spec's example; an insertion keeps the rest; counts of 0. -/
theorem test_bitfields : (after (.bfx 5 10 33 7) [(10, 0x0000017E00000000)]).X 5 = 0xBF ∧
    (after (.bfi 5 6 4 3) [(5, 0xFFF), (6, 0x12)]).X 5 = 0xF2F ∧ (after (.bfxs 5 6 4 3) [(6, 0x80)]).X 5 = BitVec.ofInt 64 (-8) ∧
    (after (.clz 5 0) []).X 5 = 64 ∧ (after (.ctz 5 6) [(6, 0x50)]).X 5 = 4 ∧ (after (.popc 5 6) [(6, 0xF1)]).X 5 = 5 := by decide +kernel
/-- R267, R268: a branch back, the links of JAL and JL, a target of JALR that is no multiple of 4. -/
theorem test_control : (nextOf (exec (.bne 1 0 (BitVec.ofInt 14 (-2))) (onSlot 11 { regs [(1, 1)] with pc := 0x100 }))).c.pc = 0xF8 ∧
    (nextOf (exec (.jal 1 4) (onSlot 11 { regs [] with pc := 0x100 }))).c.pc = 0x110 ∧
    (nextOf (exec (.jl 1 4) (onSlot 11 { regs [] with pc := 0x100 }))).X 1 = 0x108 ∧
    (nextOf (exec (.jalr 1 2 2) (userX [(2, 0x100)]))).c.tcause = 0x04 ∧ (nextOf (exec (.jalr 1 2 2) (userX [(2, 0x100)]))).c.tval = 0x102 := by
  decide +kernel
/-- R270 to R272, the loop traced in chapter 13: its first and last iterations. -/
theorem test_loop : let s := nextOf (exec (.loop 7 2) (onSlot 11 { regs [(7, 3)] with pc := 0x10108 }))
    let body : Ctx := { regs [(5, 10)] with pc := 0x10110, loopActive := true, lstart := 0x1010C, lend := 0x10110, lrem := 2 }
    let t := nextOf (exec (.slli 6 5 1) (onSlot 11 body))
    let u := nextOf (exec (.slli 6 5 1) (onSlot 11 { body with lrem := 1 }))
    s.c.lstart = 0x1010C ∧ s.c.lend = 0x10110 ∧ s.c.lrem = 3 ∧ s.c.pc = 0x1010C ∧ t.X 6 = 20 ∧ t.c.pc = 0x1010C ∧ t.c.lrem = 1 ∧
    u.c.pc = 0x10114 ∧ u.c.loopActive = false := by decide +kernel
/-- R274, R275: a CSR's old value and its field rule; a write of INSTRET is what it then reads. -/
theorem test_csr : (after (.csrrw 5 6 0x001) [(6, 0xFF)]).c.fpstat = 0x1F ∧ (after (.csrrs 5 6 0x051) [(6, 7)]).c.instret = 7 ∧
    (after (.csrrw 5 6 0x051) [(6, 9)]).X 5 = 0 ∧ (nextOf (exec (.csrrw 5 6 0x777) (userX []))).c.tcause = 1 := by decide +kernel
/-- R415, R417, R421: TRAP in slot 1 parks it with its record, sets PEND bit 1 and leaves PC. -/
theorem test_trap : let t := nextOf (exec (.trap 5) (onSlot 1 { regs [(5, 0x77)] with pc := 0x104 }))
    (t.ctx ⟨0, 0, 1⟩).st = .parked ∧ (t.ctx ⟨0, 0, 1⟩).tcause = 0x10 ∧ (t.ctx ⟨0, 0, 1⟩).tval = 0x77 ∧ (t.ctx ⟨0, 0, 1⟩).tpc = 0x104 ∧
    (t.core 0 0).pend = 2 ∧ (nextOf (exec .brk (userX []))).c.tval = 0x02000078 := by decide +kernel
/-- R422: the WFE of the spec's pre-emption example gives SV, SLOT 3 and the PEND bit of slot 0 that stays. -/
theorem test_wfe : let s := sysX []
    (nextOf (exec (.wfe 5 0) (s.setCC { s.cc with pend := 0x9, lastSel := 0 }))).X 5 = 0x0000000000010013 := by decide +kernel
/-- R424: ERET goes to TPC and takes SLOT and SV back; outside a trap it is illegal. -/
theorem test_eret : let s := onSlot 11 { regs [] with tpc := 0x200 }
    let t := nextOf (exec .eret (s.setCC { s.cc with sv := true, sslot := 11, osv := true, oslot := 4 }))
    t.c.pc = 0x200 ∧ t.cc.sv = true ∧ t.cc.sslot = 4 ∧ (nextOf (exec .eret s)).c.pc = 0 ∧ (nextOf (exec .eret s)).cc.mcheck.valid = true := by
  decide +kernel
/-- R372, R373: START gives slot 1 the entry and the argument; QUIT frees it and its generation rises. -/
theorem test_start_quit : let s := onSlot 0 (regs [(1, 0x400), (2, 9)])
    let t := nextOf (exec (.start 5 1 2) (s.setCC { s.cc with item := some ⟨0, 0, 10, 0, 0, 0⟩ }))
    t.X 5 = 1 ∧ (t.ctx ⟨0, 0, 1⟩).pc = 0x400 ∧ (t.ctx ⟨0, 0, 1⟩).xr 1 = 9 ∧ (t.ctx ⟨0, 0, 1⟩).st = .ready ∧
    ((nextOf (exec .quit (userX []))).ctx ⟨0, 0, 1⟩).st = .free ∧ ((nextOf (exec .quit (userX []))).ctx ⟨0, 0, 1⟩).gen = 1 := by decide +kernel
/-- R215, the worked case: a piece of 32 bytes, BBEXP of 48, a piece of 16 bytes. -/
theorem test_barrier : let s := (sysX []).barPiece 0 0 0x40000000 32 2
    let t := nextOf (exec (.bbexp 9 5) ((s.setX 9 0x40000000).setX 5 48))
    let u := t.barPiece 0 0 0x40000000 16 2
    (nextOf (exec (.bbtest 6 9) (s.setX 9 0x40000000))).X 6 = 0xFFFFFFE000000020 ∧ (nextOf (exec (.bbtest 6 9) t)).X 6 = 0x0000001000000024 ∧
    (nextOf (exec (.bbtest 6 9) u)).X 6 = 0x0000000000000021 := by decide +kernel
/-- R183, R191: a store into A-space, and the loads of its bytes, the lowest address least significant; W-space takes no store. -/
theorem test_scratchpad : let s := nextOf (exec (.sd 2 1 0 0) (sysX [(1, 0xFEFF00000000100), (2, 0x8877665544332211)] |>.setX 1 0x00FEFF0000000100))
    (nextOf (exec (.lb 3 1 7 0) s)).X 3 = 0xFFFFFFFFFFFFFF88 ∧ (nextOf (exec (.lhu 3 1 1 0) s)).X 3 = 0x4433 ∧ (nextOf (exec (.ld 3 1 0 0) s)).X 3 = 0x8877665544332211 ∧
    (nextOf (exec (.sw 2 1 0 0) (onSlot 1 (regs [(1, 0x00FEFF0060000000)])))).c.tcause = 0x16 := by decide +kernel
/-- R204: geometry registers. -/
theorem test_geometry : (nextOf (exec (.gr 3 7) (nextOf (exec (.gw 7 1) (sysX [(1, 42)]))))).X 3 = 42 ∧
    (nextOf (exec .gclr (nextOf (exec (.gw 7 1) (sysX [(1, 42)]))))).c.gr 7 = 0 := by decide +kernel
/-- R379: a phaser of one member: its signal closes phase 0. -/
theorem test_phaser : let s := onSlot 0 (regs [(1, 2)])
    let s := nextOf (exec (.phnew 5 1) (s.setCC { s.cc with item := some ⟨0, 0, 10, 1, 1, 0⟩ }))
    let t := nextOf (exec (.phsig 6 5) s)
    (s.pol.phaser 0).members.length = 1 ∧ (s.pol.phaser 0).phase = 0 ∧ (t.pol.phaser 0).phase = 1 ∧ (nextOf (exec (.phwait 7 5) t)).X 7 = 0 := by decide +kernel
/-- R51, the image of chapter 03: the prefix at 0x10010 that no governed word follows. -/
theorem test_orphan_pfx : let s := (onSlot 1 (regs [])).withFetchWord 64 0x0008836000000026
    let t := nextOf (step s)
    t.c.tcause = 0 ∧ (t.ctx ⟨0, 0, 1⟩).st = .parked ∧ (t.ctx ⟨0, 0, 1⟩).tcause = 0x02 ∧ (t.ctx ⟨0, 0, 1⟩).tpc = 0x10000 ∧ (t.ctx ⟨0, 0, 1⟩).tval = 0x00088360 ∧
    (t.ctx ⟨0, 0, 1⟩).tinfo = 0 := by decide +kernel
/-- The host's question: right after reset, a placed word is the first instruction. -/
theorem test_first_instruction : (nextOf (step (State.reset.withFetchWord 64 0x4000020000000913))).X 9 = 0x40000200 := by decide +kernel

/-! ## Numbers -/

/-- The worked conversions of chapter 12, to DM8. -/
theorem test_conversions_dm8 : convertEl .fp32 .dm8 Rnd.default 0x41400000 id = (0x30, fNX) ∧ convertEl .fp32 .dm8 Rnd.default 0x40000000 id = (0x47, fNX) ∧
    convertEl .fp32 .dm8 Rnd.default 0x411EE000 id = (0x30, fNX) ∧ convertEl .fp32 .dm8 Rnd.default 0x80000000 id = (0x00, 0) ∧
    convertEl .fp32 .dm8 Rnd.default 0x4FA3E9AB id = (0x07, fNX) := by decide +kernel
/-- The worked conversions of chapter 12, to the 8-bit formats and integers. -/
theorem test_conversions : convertEl .fp32 .e5m2 Rnd.default 0x4788B800 id = (0x7C, fOF ||| fNX) ∧ convertEl .fp32 .e5m2 ⟨0, true, 0, 0, false⟩ 0x4788B800 id = (0x7B, fOF ||| fNX) ∧
    convertEl .fp32 .e5m2 ⟨0, true, 0, 0, false⟩ 0x7F800000 id = (0x7B, fNX) ∧ convertEl .fp32 .e5m2 ⟨0, true, 0, 0, false⟩ 0x7FC00000 id = (0x7E, 0) ∧
    convertEl .fp32 .e4m3 Rnd.default 0x447A0000 id = (0x7F, fOF ||| fNX) ∧ convertEl .fp32 .e4m3 ⟨1, false, 0, 0, false⟩ 0x447A0000 id = (0x7E, fOF ||| fNX) ∧
    convertEl .fp32 .e4m3 Rnd.default 0xFF800000 id = (0x7F, fNV) ∧ convertEl .fp32 .e4m3 ⟨0, false, 1, 0, false⟩ 0xFF800000 id = (0xFF, fNV) ∧
    convertEl .fp32 .i8 Rnd.default 0xC06CCCCD id = (0xFC, fNX) ∧ convertEl .fp32 .i8 ⟨1, false, 0, 0, false⟩ 0xC06CCCCD id = (0xFD, fNX) ∧
    convertEl .i32 .i8 Rnd.default 300 id = (0x2C, 0) ∧ convertEl .i32 .i8 ⟨0, true, 0, 0, false⟩ 300 id = (0x7F, 0) := by decide +kernel
/-- R249: the draws from seed 1, and the stochastic narrowing of 1.1. -/
theorem test_draws : lfsr 1 = 0x80200003 ∧ lfsr 0x80200003 = 0xC0300002 ∧ lfsr 0xC0300002 = 0x60180001 ∧
    convertEl .fp32 .bf16 ⟨5, false, 0, 0x80200003, false⟩ 0x3F8CCCCD id = (0x3F8D, fNX) := by decide +kernel
/-- R278: 1.0 ÷ −0 under `.rz.sat`, and without a prefix. -/
theorem test_fdiv : fpDiv .fp32 ⟨1, true, 0, 0, false⟩ 0x3F800000 0x80000000 = (0xFF7FFFFF, fDZ ||| fNX) ∧
    fpDiv .fp32 Rnd.default 0x3F800000 0x80000000 = (0xFF800000, fDZ) := by decide +kernel
/-- R319: the BF16 cell of the spec's table, group by group. -/
theorem test_emma_groups : let d := fun (x : Nat) => ETy.decode .bf16 x
    emmaCell Rnd.default 0 [d 0x3F80, d 0x3380] [d 0x3F80, d 0x3F80] = (0x3F800000, fNX) ∧
    emmaCell Rnd.default 0x3F800000 [d 0x3380, d 0x3380] [d 0x3F80, d 0x3F80] = (0x3F800001, 0) ∧
    emmaCell Rnd.default 0x3F800001 [d 0x3380, d 0x3380] [d 0x3F80, d 0x3F80] = (0x3F800002, 0) := by decide +kernel
/-- R296: the sequence of eight row indices. -/
theorem test_sort_runs_compress : let s := (sysX []).setC ((regs []).setV 1 (vecOf [24, 9, 26, 51, 12, 29, 6, 55]))
    let s1 := nextOf (exec (.vsort false 2 1 3 0) s)
    let s2 := nextOf (exec (.vdupm false 1 2 3 0) s1)
    s1.c.vr 2 = vecOf [6, 9, 12, 24, 26, 29, 51, 55] ∧ s2.c.pr 1 = 0x4B ∧
    (nextOf (exec (.vcompr false 4 2 1 0) s2)).c.vr 4 = vecOf [6, 9, 24, 51, 0, 0, 0, 0] ∧
    (nextOf (exec (.pcnt false 5 1) s2)).X 5 = 4 := by decide +kernel
/-- R286: eight FP32 sums, of which one is inexact. -/
theorem test_vadd : let s := (sysX []).setC (((regs []).setV 1 (vecOf [0x3F800000, 0x40000000])).setV 2 (vecOf [0x3F800000, 0x33000000]))
    let t := nextOf (exec (.vadd false 3 1 2 1) s)
    t.c.vr 3 = vecOf [0x40000000, 0x40000000] ∧ t.c.fpstat = fNX := by decide +kernel

/-! ## Witnesses: states and operands that meet the hypotheses of each statement -/

/-- The outcome is a value that satisfies `p`. -/
def okAnd {α : Type} (x : Except Stop α) (p : α → Bool) : Bool := match x with | .ok a => p a | .error _ => false
/-- The outcome is the trap `c`. -/
def isTrap {α : Type} (x : Except Stop α) (c : Cause) : Bool := match x with | .error (.trap t) => t.cause == c | _ => false
/-- The state with a leaf that maps VA 0x10000 to the first frame of HBM, with every right. -/
def mapped (s : State) : State := s.setDie 0 0 ((s.die 0 0).putLeaf (s.sliceOf 0 0 s.c.asid (granOf 0x10000)) (placeLeaf s.c.asid 0))
/-- The leaf result that the slice of the issuing context's die holds for a VA. -/
def heldLeaf (s : State) (va : Nat) : Option Leaf :=
  (s.slice s.fnode s.cur.die (s.sliceOf s.fnode s.cur.die s.c.asid (granOf va))).leaves.find? (fun x => x.asid == s.c.asid && x.gran == granOf va)
theorem sliceHolds_iff (s : State) (va : Nat) (l : Leaf) : SliceHolds s va l ↔ heldLeaf s va = some l := Iff.rfl
/-- The state with a four-level table at 0x100000 whose leaf `e` maps VA 0x10000; PTROOT names it. -/
def tabled (e : Nat) (s : State) : State :=
  let m := memWrite (memWrite (memWrite (memWrite [] 0x100000 8 0x110003) 0x110000 8 0x120003) 0x120000 8 0x130003) 0x130008 8 e
  ({ s with mem := m } : State).setC { s.c with ptroot := 0x100000 }
/-- The context of slot 0 with an item of one launch, ten helpers and one phaser left. -/
def itemX (l : List (Nat × Word)) : State :=
  let s := onSlot 0 (regs l)
  s.setCC { s.cc with item := some ⟨0, 5, 10, 1, 1, 0⟩ }
/-- The address of A-space offset 0x100 in the issuing polder's aperture. -/
abbrev vaA : Word := 0x00FEFF0000000100
/-- The address of a barrier in M-space. -/
abbrev laM : Word := 0x40000000

/-- DecodeOfEncodeIsTheInstruction. -/
theorem witness_roundtrip : isEvent (.sendb 1 2 3 0x31) = false ∧ wellFormed (.sendb 1 2 3 0x31) = true := by decide +kernel
/-- WordsHaveOneMeaningAndAreNoEvents: a short and a long word, and bytes that decode. -/
theorem witness_words : selGoverned 0x002C2D04 = false ∧ decodeWord 0x002C2D04 0 = .ok (.add 13 1 11) ∧ selLong 0x002C2D04 = false ∧
    selGoverned 0x00000913 = false ∧ selLong 0x00000913 = true ∧ decodeWord 0x00000913 0xFFFFFFFF = .ok (.ldiu 9 0xFFFFFFFF) ∧
    decode [0x04, 0x2D, 0x2C, 0] = .ok (.add 13 1 11, []) := by decide +kernel
/-- StepRunsDecodedInstruction and FetchAndUndecodableWords: a short word, a long one with its payload, an unlisted one, a governed one; the fetch goes
through a leaf with the needed bits. -/
theorem witness_step : let s := fun (w : Nat) => (userX []).withFetchWord 64 w
    (∀ w ∈ [0x002C2D04, 0x4000020000000913, 0x000000FC, 0x0035869D], (s w).urgent = [] ∧ (s w).schedule = [] ∧ (s w).idle = false ∧ (s w).cc.run < 256 ∧
      (s w).runnable (s w).fnode (s w).fcore (s w).cc.slot = true ∧ (s w).c.held = none ∧
      okAnd ((s w).fetch (s w).c.pc) (fun e => e.2 == w % 2 ^ 32) = true) ∧
    okAnd ((s 0x4000020000000913).fetch (s 0x4000020000000913).c.pc) (fun e => okAnd (e.1.fetch (e.1.c.pc + 4)) (fun f => f.2 == 0x40000200)) = true ∧
    decodeWord 0x002C2D04 0 = .ok (.add 13 1 11) ∧ wellFormed (.add 13 1 11) = true ∧ decodeWord 0x00000913 0x40000200 = .ok (.ldiu 9 0x40000200) ∧
    decodeWord 0x000000FC 0 = .error .unlistedWord ∧ selGoverned 0x0035869D = true ∧
    (let u := s 0x002C2D04; let l := placeLeaf 0 0
     isAperture 0x10000 = false ∧ isCanonical 0x10000 = true ∧ heldLeaf u 0x10000 = some l ∧ pteU l.entry = true ∧ pteX l.entry = true ∧
     pteA l.entry = true ∧ paClass (l.pa 0x10000) = 0 ∧ okAnd (u.hbmCheck u.req 0x10000 (l.pa 0x10000) 3) (fun _ => true) = true ∧ u.isLost (l.pa 0x10000) = false ∧
     u.cc.iline u.c.asid (fieldN 0x10000 6 50) = none) := by decide +kernel
/-- ConstantsBitFieldsAndCounts: the last bit of the register, and one past it. -/
theorem witness_bitfields : (0 : BitVec 6).toNat + (63 : BitVec 6).toNat < 64 ∧ 64 ≤ (1 : BitVec 6).toNat + (63 : BitVec 6).toNat := by decide +kernel
/-- BranchesAndJumps: both outcomes, and targets of JALR that are and are not a multiple of 4. -/
theorem witness_branches : (sysX []).pfx = none ∧ (sysX []).c.loopActive = false ∧
    (Instr.beq 1 2 4, true) ∈ [(Instr.beq 1 2 4, decide ((sysX []).X 1 = (sysX []).X 2))] ∧ (Instr.bne 1 2 4, false) ∈ [(Instr.bne 1 2 4, decide ((sysX []).X 1 ≠ (sysX []).X 2))] ∧
    ((sysX [(1, 4)]).X 1 + BitVec.ofInt 64 (4 : BitVec 14).toInt).toNat % 4 = 0 ∧ ((sysX [(1, 4)]).X 1 + BitVec.ofInt 64 (3 : BitVec 14).toInt).toNat % 4 ≠ 0 := by
  decide +kernel
/-- LoopInstructionAndLoopEnd: a count, a count of 0, an active loop; inside and outside a body, its last word with two iterations left and with one. -/
theorem witness_loop : (sysX []).pfx = none ∧ (sysX []).c.loopActive = false ∧ (1 : BitVec 14) ≠ 0 ∧ (sysX [(7, 1)]).X 7 ≠ 0 ∧ (sysX []).X 7 = 0 ∧
    (let c : Ctx := { regs [] with loopActive := true, lstart := 4, lend := 8, lrem := 2, pc := 8 }
     (onSlot 11 c).c.loopActive = true ∧ (c.pc.toNat ≤ c.lend.toNat ∧ c.lend.toNat < c.pc.toNat + 4 ∧ 1 < c.lrem.toNat) ∧ ({ c with lrem := 1 } : Ctx).lrem.toNat ≤ 1 ∧
     ({ c with pc := 4 } : Ctx).pc.toNat + 4 ≤ c.lend.toNat ∧ c.lend.toNat < ({ c with pc := 9 } : Ctx).pc.toNat) := by decide +kernel
/-- CsrAccessReadsWritesAndTraps: a register a user may write, one it may read, one hidden from it, an unlisted one. -/
theorem witness_csr : let u := userX []
    csrAt 0x001 = some .fpstat ∧ Csr.right .fpstat u.sys = .readWrite ∧ Csr.fpstat ≠ .instret ∧ u.c.ra = false ∧ csrAt 0x777 = none ∧ (1 : Reg) ≠ 0 ∧
    (∃ r, csrAt 0x010 = some r ∧ r.right u.sys = .hidden) ∧ (∃ r, csrAt 0x020 = some r ∧ r.right u.sys = .read) ∧ (sysX []).sys = true ∧ (sysX []).c.ra = false ∧
    csrAt 0x051 = some .instret ∧ Csr.right .instret true = .readWrite ∧ Csr.right .priv true = .read := by
  decide +kernel
/-- TakingATrap: a user slot; the system context with TVEC, without it, and inside its own trap. -/
theorem witness_trap : let s := sysX []
    (userX []).cc.slot ≤ 10 ∧ (userX []).c.ra = false ∧ s.cc.slot = 11 ∧ s.c.ra = false ∧ s.cc.tvec = 0 ∧ s.cc.mcheck.valid = false ∧
    (let t := s.setCC { s.cc with tvec := 0x400 }; t.cc.tvec ≠ 0 ∧ ¬(t.cc.sv = true ∧ t.cc.sslot = 11)) ∧
    (let t := s.setCC { s.cc with tvec := 0x400, sv := true, sslot := 11, mcheck := ⟨true, 1, 11, 0, 0, 0, 0⟩ }; t.cc.sv = true ∧ t.cc.sslot = 11 ∧ t.cc.mcheck.valid = true) := by
  decide +kernel
/-- TrapBrkHaltAndPrivilege, EretAndResumeReturn, WfeSelectsThePendingSlot: user and system contexts; a served trap; a selected slot that is PARKED; a
PEND bit, and none with and without a time-out. -/
theorem witness_trap_service : let s := sysX [(6, 1)]
    (userX []).sys = false ∧ s.sys = true ∧ s.cc.mcheck.valid = false ∧ s.locks = [] ∧
    (let t := s.setCC { s.cc with sv := true, sslot := 11 }; t.cc.sv = true ∧ t.cc.sslot = 11) ∧ ¬(s.cc.sv = true ∧ s.cc.sslot = 11) ∧
    (let t := (s.setCC { s.cc with sv := true, sslot := 10 }).setCtx ⟨0, 0, 10⟩ { regs [] with st := .parked }
     t.X 7 = 0 ∧ t.cc.sv = true ∧ t.cc.sslot.toNat ≤ 10 ∧ (t.ctx ⟨0, 0, t.cc.sslot.toNat⟩).st = .parked) ∧
    ((s.X 6).toNat < 2 ∧ s.cc.sv = false) ∧ 2 ≤ ((sysX [(6, 2)]).X 6).toNat ∧
    (let q := (s.setCC { s.cc with pend := 9, lastSel := 0 }).cc; q.pend.getLsbD ((q.lastSel + 1 + 2) % 12) = true ∧ ∀ k, k < 2 → q.pend.getLsbD ((q.lastSel + 1 + k) % 12) = false) ∧
    s.cc.pend = 0 ∧ s.cc.sv = false ∧ (s.setC { s.c with expired := true }).c.expired = true ∧
    s.X 6 ≠ 0 ∧ s.c.expired = false := by decide +kernel
/-- LivesBeginAndEnd: a free slot within the limit, the limit reached, a target that is no multiple of 4, another slot; nothing outstanding, something
outstanding, the system context. -/
theorem witness_lives : let s := itemX [(1, 0x400), (2, 0x402)]
    s.cc.slot = 0 ∧ (s.X 1).toNat % 4 = 0 ∧ s.cc.item = some ⟨0, 5, 10, 1, 1, 0⟩ ∧ (s.liveHelpers s.fnode s.fcore).length < 10 ∧ s.pol.mboxes = [] ∧ s.freeSlot s.fnode s.fcore = some 1 ∧
    (s.X 2).toNat % 4 ≠ 0 ∧ (let t := s.setCC { s.cc with item := some ⟨0, 5, 0, 1, 1, 0⟩ }; 0 ≤ (t.liveHelpers t.fnode t.fcore).length) ∧
    (userX []).cc.slot ≠ 0 ∧ (userX []).cc.slot ≤ 10 ∧ (userX []).c.nmPending = 0 ∧ (userX []).openCmds (userX []).cur = false ∧ s.liveHelpers s.fnode s.fcore = [] ∧
    ((userX []).setC { (userX []).c with nmPending := 1 }).c.nmPending ≠ 0 ∧ (sysX []).cc.slot = 11 := by decide +kernel
/-- ContextQueriesAndJoinh: an item whose launch is known, handles of a live life, an ended one, an older one, at generations 0 and 4095. -/
theorem witness_context_queries : let s := itemX [(1, 0x11), (2, 5), (3, 0xFFF1), (4, 0x21)]
    let l : Launch := ⟨0, 0, 0, 0, [3, 2], 0, none, none, 0, 10, 1, [], 0, 0, [], 0, 0, 0, 0, .dispatched, 0, 0, 0, none, false, [], [], [], []⟩
    let t := s.setPkg 0 { s.pkg 0 with launches := [(0, l)] }
    let c1 := fun (g : BitVec 12) (st : SlotState) => t.setCtx ⟨0, 0, 1⟩ { regs [] with gen := g, st := st }
    (s.X 2).toNat ≤ 5 ∧ t.cc.item = some ⟨0, 5, 10, 1, 1, 0⟩ ∧ t.launch? t.fnode 0 = some l ∧ s.c.ra = false ∧
    ((s.X 1).toNat = 1 * 16 + 1 ∧ 1 = ((c1 1 .ready).ctx ⟨0, 0, 1⟩).gen.toNat ∧ ((c1 1 .ready).ctx ⟨0, 0, 1⟩).st ≠ .free ∧ ((c1 1 .ready).ctx ⟨0, 0, 1⟩).st ≠ .saved) ∧
    ((s.X 3).toNat = 4095 * 16 + 1 ∧ (4095 + 1) % 4096 = ((c1 0 .free).ctx ⟨0, 0, 1⟩).gen.toNat) ∧
    ((s.X 4).toNat = 2 * 16 + 1 ∧ 2 ≠ ((c1 0 .free).ctx ⟨0, 0, 1⟩).gen.toNat ∧ (2 + 1) % 4096 ≠ ((c1 0 .free).ctx ⟨0, 0, 1⟩).gen.toNat) := by decide +kernel
/-- ByteBarriers: a barrier in M-space, counts that fit and do not, armed at 0, a phase that is and is not the one named, a fault. -/
theorem witness_barriers : let s := sysX [(9, laM), (5, 48), (6, 0x80000000)]
    let w := fun (v : Nat) => memRead ({ s with mem := memWrite [] (spadAddr 0 0 0x40000004) 4 v } : State).mem (spadAddr 0 0 (0x40000000 + 4)) 4
    s.c.ra = false ∧ Memory.wf s.mem = true ∧ (s.X 9).toNat = 0x40000000 ∧ 0x40000000 / 2 ^ 29 = 2 ∧ 0x40000000 % 2 ^ 29 + 16 ≤ 4 * 2 ^ 20 ∧ 0x40000000 % 16 = 0 ∧
    s.c.bb = none ∧ s.barLost s.fnode (s.fcore / 8) 0x40000000 = false ∧
    ({ s with lostWords := [(spadAddr 0 0 0x40000000 / 8, 0)] } : State).barLost s.fnode (s.fcore / 8) 0x40000000 = true ∧ (let count := signedN (memRead s.mem (spadAddr 0 0 0x40000000) 4) 32
      (s.X 5).toNat < 2 ^ 31 ∧ count + (s.X 5).toNat ≤ 2 ^ 31 - 1 ∧ count + (s.X 5).toNat ≠ 0 ∧ 2 ^ 31 ≤ (s.X 6).toNat ∧ -(2 ^ 31) ≤ count - (48 : Nat) ∧
      count ≠ (48 : Nat) ∧ count = (0 : Nat)) ∧
    w 4 / 4 % 2 = 1 ∧ w 0 / 4 % 2 = 0 ∧ (w 1 / 2 % 2 = 0 ∧ w 1 % 2 = true.toNat) ∧ w 2 / 2 % 2 = 1 ∧ (w 0 / 2 % 2 = 0 ∧ w 0 % 2 ≠ true.toNat) ∧
    (s.setC { s.c with ra := true }).c.ra = true ∧ 0x60000000 / 2 ^ 29 ≠ 2 ∧ 4 * 2 ^ 20 < 0x403FFFF8 % 2 ^ 29 + 16 ∧ 0x40000008 / 2 ^ 29 = 2 ∧ 0x40000008 % 16 ≠ 0 ∧
    (let c := signedN (memRead (memWrite [] (spadAddr 0 0 0x40000000) 4 0xFFFFFFD0) (spadAddr 0 0 0x40000000) 4) 32; c + (s.X 5).toNat = 0) := by decide +kernel
/-- The state with phaser 0 of polder 0 live at phase 3 in item 5 of launch 0, with these members. -/
def phased (l : List PhMember) (s : State) : State := s.setPhaser 0 0 0 ⟨0, true, 0, (0, 0, 5), 3, l⟩
/-- A member: the context of slot 0. -/
def phMem (mode sg w : Nat) (mk : Bool) : PhMember := ⟨⟨0, 0, 0⟩, mode, sg, w, mk⟩
/-- PhnewAndPhregRegister: a helper in run-ahead; modes 2 and 3, a reservation left and none, no item, the system context, 1,024 registrations, no phaser
left, the lowest free one. -/
theorem witness_phnew : let s := itemX [(1, 2), (2, 3)]
    let full := s.setPol { s.pol with phasers := (List.range 64).map (fun k => (k, ⟨0, true, 0, (0, 0, 0), 0, []⟩)) }
    s.c.ra = false ∧ (s.setC { s.c with ra := true }).c.ra = true ∧ 2 < (s.X 2).toNat ∧ (s.X 1).toNat ≤ 2 ∧ (sysX [(1, 2)]).cc.slot = 11 ∧ (userX []).cc.item = none ∧
    (let t := s.setCC { s.cc with item := some ⟨0, 5, 10, 1, 0, 0⟩ }; ∃ it, t.cc.item = some it ∧ it.phLeft = 0) ∧
    1024 ≤ ((phased (List.replicate 1024 (phMem 2 0 0 false)) s).pol.registrations) ∧ (∀ k, k < 64 → (full.pol.phaser k).live = true) ∧
    (s.cc.slot ≠ 11 ∧ s.cc.item = some ⟨0, 5, 10, 1, 1, 0⟩ ∧ (⟨0, 5, 10, 1, 1, 0⟩ : Item).phLeft ≠ 0 ∧ s.pol.registrations < 1024 ∧ (s.pol.phaser 0).live = false) ∧
    (let t := phased [] s; (t.pol.phaser 1).live = false ∧ ∀ j, j < 1 → (t.pol.phaser j).live = true) := by
  refine ⟨by decide +kernel, by decide +kernel, by decide +kernel, by decide +kernel, by decide +kernel, by decide +kernel, ⟨⟨0, 5, 10, 1, 0, 0⟩, by decide +kernel⟩,
    by decide +kernel, by decide +kernel, by decide +kernel, by decide +kernel⟩
/-- The same, and PhaserMembersSignalAndWait: a handle that names no phaser. -/
theorem witness_no_phaser : ∀ p k f, ¬NamesPhaser (itemX []) ((itemX []).X 5) p k f := by
  rintro p k f ⟨-, -, -, -, rfl, h, -⟩
  exact Bool.noConfusion h
/-- The same: a handle that names one, of the context's die and of another; a member and none; 1,024 registrations. -/
theorem witness_names_phaser : let h := phHandle 0 0 0
    (∀ l ∈ [[], [phMem 2 3 3 false], List.replicate 1024 (phMem 2 0 0 false)],
      NamesPhaser (phased l (itemX [(5, h)])) ((phased l (itemX [(5, h)])).X 5) 0 0 ⟨0, true, 0, (0, 0, 5), 3, l⟩) ∧
    (let t := (itemX [(5, phHandle 32 1 0)]).setPhaser 0 32 1 ⟨0, true, 0, (0, 0, 5), 3, []⟩
     NamesPhaser t (t.X 5) 32 1 ⟨0, true, 0, (0, 0, 5), 3, []⟩ ∧ 32 / 32 ≠ t.fcore / 256) ∧ 0 / 32 = (itemX []).fcore / 256 ∧
    (⟨0, true, 0, (0, 0, 5), 3, [phMem 2 3 3 false]⟩ : Phaser).member (itemX []).cur ≠ none ∧ (⟨0, true, 0, (0, 0, 5), 3, []⟩ : Phaser).member (itemX []).cur = none ∧
    1024 ≤ ((phased (List.replicate 1024 (phMem 2 0 0 false)) (itemX [])).polder 0 0).registrations := by
  unfold NamesPhaser; decide +kernel
/-- PhaserMembersSignalAndWait: members of each mode; the phase to signal open and not, a port's store still to apply; a phase that has passed and the open
one, with the mark of a pending wait and without; the last signaller, whose own signal closes its phase, and one of two. -/
theorem witness_phaser_member : let s := itemX [(5, phHandle 0 0 0)]
    let f := fun (l : List PhMember) => (⟨0, true, 0, (0, 0, 5), 3, l⟩ : Phaser)
    (∀ x ∈ [phMem 0 3 3 false, phMem 1 3 2 false, phMem 1 3 3 false, phMem 2 3 3 false, phMem 2 4 2 false, phMem 2 4 2 true, phMem 2 4 3 true], (f [x]).member s.cur = some x) ∧
    (phMem 2 3 3 false).s ≤ (f []).phase ∧ s.portStores s.cur = false ∧ ¬(phMem 2 4 2 false).s ≤ (f []).phase ∧
    (let t := s.setPol { s.pol with portQ := [⟨s.cur, 0, 0x100, 4, 0, none, 0, none⟩] }; t.portStores t.cur = true) ∧
    (phMem 2 4 2 false).w < (f []).phase ∧ (f []).phase ≤ (phMem 2 4 3 true).w ∧
    (∀ x ∈ [phMem 2 4 3 true], [x].all (fun x => !decide (x.mode = 0 ∨ x.mode = 2) || decide ((f []).phase < x.s)) = true ∧ x.w < (f []).phase + 1) ∧
    ([phMem 2 4 3 true, ⟨⟨0, 0, 1⟩, 0, 3, 3, false⟩].all (fun x => !decide (x.mode = 0 ∨ x.mode = 2) || decide ((f []).phase < x.s)) = false) := by
  decide +kernel
/-- ScalarLoadsAndStoresComplete and ScalarAccessesReachTheirBytes: an access that completes and one that traps, at the last place of A-space, in W-space and in HBM. -/
theorem witness_scalar_accesses : let s := mapped (sysX []); let va := 0x00FEFF00007FFFF8; let l := placeLeaf 0 0; let h := 0x1FFF8
    s.c.ra = false ∧ okAnd (s.scalarLoad s.req va 8 0) (fun e => e.2 == 0) = true ∧ isTrap (s.scalarLoad s.req (va - 1) 8 0) .misaligned = true ∧
    okAnd (s.scalarStore s.req va 8 5 0) (fun _ => true) = true ∧ isTrap (s.scalarStore s.req 0x00FEFF0060000000 8 5 0) .illegalAddress = true ∧
    Memory.wf s.mem = true ∧ 0x7FFFF8 + 8 ≤ spaceSize 0 ∧ 0x7FFFF8 % 8 = 0 ∧ s.portBusy s.fnode (s.fcore / 8) 0x7FFFF8 8 = false ∧
    s.lostWordIn (spadAddr s.fnode (s.fcore / 8) 0x7FFFF8) 8 = false ∧ okAnd (s.storeTests s.req va 8 1) (fun _ => true) = true ∧
    isAperture h = false ∧ isCanonical h = true ∧ h % 8 = 0 ∧ heldLeaf s h = some l ∧ s.sliceLine s.fnode s.cur.die s.c.asid (fieldN h 6 50) = none ∧ s.missCount s.fnode s.fcore < 64 ∧ s.cc.slot = 11 ∧ pteA l.entry = true ∧
    pteClass l.entry = 0 ∧ paClass (l.pa h) = 0 ∧ s.cc.l1 = [] ∧ s.objAt s.req (fieldN h 6 50) = none ∧ pteR l.entry = true ∧ pteW l.entry = true ∧ pteD l.entry = true ∧
    okAnd (s.hbmCheck s.req h (l.pa h) 0) (fun _ => true) = true ∧ okAnd (s.hbmCheck s.req h (l.pa h) 1) (fun _ => true) = true ∧ s.isLost (l.pa h) = false ∧
    okAnd (s.storeTests s.req h 8 1) (fun _ => true) = true := by decide +kernel
/-- AtomicsReadModifyWrite: an atomic on a mapped word of 4 and of 8 bytes, without a prefix. -/
theorem witness_atomics : let s := mapped (sysX [(1, 0x10040), (2, 7)])
    s.c.ra = false ∧ s.pfx = none ∧ isAperture 0x10040 = false ∧ isCanonical 0x10040 = true ∧ 0x10040 % 8 = 0 ∧
    okAnd (s.atomicPlace s.req 0x10040) (fun e => decide (paClass e.2.pa = 0) && okAnd (e.1.storeTests s.req 0x10040 8 2) (fun _ => true) &&
      okAnd (e.1.atomicReady s.req 0x10040 e.2) (fun u => decide (u.missCount s.fnode s.fcore < 64))) = true := by decide +kernel
/-- NearMemoryOperationsAreSentAndApplied: scalar and vector operands, and one operation that its home is about to apply. -/
theorem witness_near_memory : let s := mapped (sysX [(1, 0x10040), (2, 7)])
    let o : NmOp := ⟨s.cur, 0, 0x10040, 0x40, 0, 0, 0, 0, false, 7, .forwarded, none, none, false⟩
    let u : State := { s with nmOps := [o], ev := { pa := 0x40 } }
    s.c.ra = false ∧ s.c.portOf 2 = none ∧ (∀ n ∈ [4, 8, 32], okAnd (s.nmPlace s.req 0x10040 n) (fun e => okAnd (e.1.storeTests s.req 0x10040 n 2) (fun _ => true)) = true) ∧
    nmBytes 0 true = 32 ∧ u.nmFirst (lineOf u.ev.pa) .forwarded = some o ∧ u.isLost o.pa = false ∧ u.ev.flag = false := by decide +kernel
/-- VectorLoadsAndStoresComplete: an element in A-space. -/
theorem witness_vector_accesses : let s := sysX [(1, vaA)]
    s.c.ra = false ∧ s.c.portOf 3 = none ∧ (s.cc.vq.filter (fun e => !e.bound)).length < 32 ∧
    okAnd (s.vecLoad s.req vaA.toNat 0 false) (fun e => decide (e.1.pol.returns.length < 64 ∧ e.1.c = { s.c with surveyed := e.1.c.surveyed } ∧ e.1.cur = s.cur)) = true ∧
    okAnd (s.vecStore s.req vaA.toNat 0 (s.c.vr 3)) (fun e => decide (e.1.c.ra = false ∧ e.1.cc.vq = s.cc.vq)) = true := by decide +kernel
/-- A bound port. -/
def portX (p : Port) : State := (sysX [(1, vaA)]).setC { regs [(1, vaA)] with ports := (Vector.replicate 8 ⟨false, 0, 0, 0, false, 0, 0, [], []⟩).set 0 p }
/-- StreamPortsAndTheirOperands: a descriptor of a read port of one element, ports bound for reading and for writing, with and without
elements and buffered appends, a store of a popped element, a conversion that keeps part of its destination. -/
theorem witness_ports : let s := sysX [(1, vaA)]
    let d := { s with mem := memWrite (memWrite (memWrite [] (spadAddr 0 0 0x100) 8 0x00FEFF0000000200) (spadAddr 0 0 0x108) 8 32) (spadAddr 0 0 0x110) 8 1 }
    let r : Port := ⟨true, 0x00FEFF0000000200, 32, 0, false, 0, 1, [], []⟩; let w : Port := { r with write := true }
    s.c.ra = false ∧ s.pfx = none ∧ 24 ≤ (24 : Reg).toNat ∧ s.c.portOf 24 = none ∧ (s.cc.vq.filter (fun e => !e.bound)).length < 32 ∧
    okAnd (d.readDesc (d.X 1).toNat) (fun e => decide (e.2 = [0x00FEFF0000000200, 32, 1, 0] ∧ e.1.c = d.c ∧ e.1.cur = d.cur)) = true ∧
    1 / 2 ^ 32 = 0 ∧ 0x00FEFF0000000200 % portAlign 0x00FEFF0000000200 = 0 ∧ 32 % portAlign 0x00FEFF0000000200 = 0 ∧
    (portX r).c.portOf 24 = some r ∧ r.write = false ∧ (portX w).c.portOf 24 = some w ∧ w.write = true ∧ w.buffered = [] ∧ w.remain ≠ 0 ∧
    ({ w with buffered := [(0, 0)] } : Port).buffered ≠ [] ∧ ({ r with remain := 0 } : Port).remain = 0 ∧ (portX r).c.portOf 3 = none ∧
    okAnd ((portX r).vecLoad (portX r).req (r.va r.k) r.typ.toNat false) (fun e => decide (e.1.c = (portX r).c ∧ e.1.cur = (portX r).cur)) = true ∧
    okAnd ((portX w).vecStore { (portX w).req with append := some (24, w.k) } (w.va w.k) w.typ.toNat ((portX w).c.vr 3)) (fun e => decide (e.1.c = (portX w).c ∧ e.1.cur = (portX w).cur)) = true ∧
    w.buffered.length < 4 ∧ r.fetched = [] ∧ r.remain ≠ 0 ∧
    okAnd ((portX r).vecLoad (portX r).req (r.va r.k) r.typ.toNat false) (fun e =>
      let v := (e.1.setC (e.1.c.setPort 24 { r with k := r.k + 1, remain := r.remain - 1 })).setFlags e.2.2
      okAnd (v.vecStore v.req (((portX r).X 1) + BitVec.ofInt 64 ((1 : BitVec 9).toInt * 32)).toNat 0 e.2.1) (fun g => decide (g.1.c = v.c ∧ g.1.cur = (portX r).cur))) = true ∧
    vcvtTypes 1 2 0 false = some (.fp32, .bf16, 2) := by
  decide +kernel
/-- LineLocksAreTakenAndReleased: a free line; a line that another context holds in its scope and domain, at another scope, or in another die's; a line that
the context holds; four locks held; a hold-limit break. -/
theorem witness_locks : let s := mapped (sysX [(1, 0x10040)])
    let hold := fun (id : CtxId) (sc : Nat) => ({ s with locks := [(0x40, ⟨some id, sc, id, [], false, 0, none⟩)] } : State)
    let four := ({ s with locks := [0x80, 0xC0, 0x100, 0x140].map (fun l => (l, ⟨some s.cur, 4, s.cur, [], false, 0, none⟩)) } : State)
    let broken := s.setC { s.c with holdBreaks := [0x40] }
    (∀ t ∈ [s, hold ⟨0, 0, 3⟩ 4, hold ⟨0, 0, 3⟩ 3, hold ⟨0, 300, 3⟩ 2, hold s.cur 4, four], t.c.ra = false ∧ t.c.lockReq = none ∧ t.c.lockReply = none ∧
      okAnd (t.lockPlace (t.X 1).toNat accAtomic) (fun e => decide (lineOf e.2.pa = 0x40 ∧ e.1.c = { t.c with surveyed := e.1.c.surveyed } ∧ e.1.cur = t.cur ∧
        e.1.locks = t.locks ∧ e.1.waitsFor t.cur = none ∧ e.1.lockHeld t.cur 0x40 = false ∧ e.1.entryRoom 0x40 = true ∧ e.1.waiterRoom 0x40 = true ∧
        e.1.isLost 0x40 = false)) = true) ∧
    (∀ t ∈ [s, hold s.cur 4, broken], okAnd (t.lockPlace (t.X 1).toNat accLockRead) (fun e => decide (lineOf e.2.pa = 0x40 ∧ e.1.locks = t.locks ∧
      e.1.c = { t.c with surveyed := e.1.c.surveyed } ∧ e.1.cur = t.cur ∧ e.1.portStores t.cur = false)) = true) ∧
    (let q : Waiter := ⟨⟨0, 0, 3⟩, 0, false, false, 1, 0⟩; let t : State := { s with locks := [(0x40, ⟨some s.cur, 4, s.cur, [q], false, 0, none⟩)] }
     okAnd (t.lockPlace (t.X 1).toNat accLockRead) (fun e => decide ((e.1.lock 0x40).holder = some s.cur ∧ (e.1.lock 0x40).waiters = [q] ∧ e.1.nmHolds 0x40 = false ∧ e.1.isLost 0x40 = false ∧
       e.1.portStores t.cur = false)) = true ∧ q.id ≠ s.cur ∧ q.absent = false) ∧ (∀ w ∈ ((hold s.cur 4).lock 0x40).waiters, w.id ≠ s.cur) ∧ ((hold s.cur 4).lock 0x40).waiters = [] ∧
    s.held s.cur < 4 ∧ 4 ≤ four.held s.cur ∧ (four.lock 0x40).holder ≠ some s.cur ∧ tfind s.locks 0x40 = none ∧ ((hold ⟨0, 0, 3⟩ 4).lock 0x40).holder = some ⟨0, 0, 3⟩ ∧
    (⟨0, 0, 3⟩ : CtxId) ≠ s.cur ∧ ((hold ⟨0, 0, 3⟩ 4).lock 0x40).scope = (4 : BitVec 3).toNat ∧ inDomain 4 ((hold ⟨0, 0, 3⟩ 4).lock 0x40).owner s.cur = true ∧
    ((hold ⟨0, 0, 3⟩ 3).lock 0x40).scope ≠ (4 : BitVec 3).toNat ∧ inDomain 2 ((hold ⟨0, 300, 3⟩ 2).lock 0x40).owner s.cur = false ∧
    ((hold s.cur 4).lock 0x40).holder = some s.cur ∧ ((hold s.cur 4).lock 0x40).scope ≤ 4 ∧ 0x40 ∉ s.c.holdBreaks ∧ 0x40 ∈ broken.c.holdBreaks := by decide +kernel
/-- FenceWaitsForItsClasses: each class with nothing outstanding and with something: an operation, an error, a command, a port's store, a pool store. -/
theorem witness_fence : let s := sysX []
    let c : Cmd := s.mkCmd 0 false false 0 0
    let q := s.setPol { s.pol with engine := { s.pol.engine with loQ := [c] } }
    let w := s.setPol { s.pol with portQ := [⟨s.cur, 0, 0x100, 4, 0, none, 0, none⟩] }
    let pl := (s.setC { s.c with poolStores := [(0x10040, 2 ^ 44 + 0x40)] }).setPkg 0 { s.pkg 0 with poolDirty := [(2 ^ 44 + 0x40, 1)] }
    s.c.ra = false ∧ (31 : BitVec 5).getLsbD 3 = true ∧ (4 : BitVec 5).getLsbD 3 = false ∧ (4 : BitVec 5).getLsbD 2 = true ∧ s.c.nmPending = 0 ∧ s.openEnmsc s.cur = false ∧
    s.c.nmErrors = [] ∧ s.openCmds s.cur = false ∧ s.portStores s.cur = false ∧ s.c.poolStores = [] ∧ (s.setC { s.c with nmPending := 1 }).c.nmPending ≠ 0 ∧
    (s.setC { s.c with nmErrors := [⟨.dataLost, 0x40, 0⟩] }).c.nmErrors = [⟨.dataLost, 0x40, 0⟩] ∧ q.openCmds q.cur = true ∧ w.portStores w.cur = true ∧
    (pl.portStores pl.cur = false ∧ 5 ≤ (5 : BitVec 3).toNat ∧ pl.c.poolLost = [] ∧
      ∃ p ∈ pl.c.poolStores, (pl.pkg (paNode (lineOf p.2))).poolMask (lineOf p.2) ≠ 0) := by decide +kernel
/-- TranslationInstructions: an address that a table maps, one that no leaf maps, one whose walk fails, an aperture address, both modes, a leaf result held. -/
theorem witness_translation : let s := tabled 0x20017F (sysX [(1, 0x10040), (2, 0x20000), (3, vaA)])
    let bad := { s with lost := [(0x100000, 0)] }
    s.c.ra = false ∧ isAperture (s.X 1).toNat = false ∧ isCanonical (s.X 1).toNat = true ∧ (s.lookup s.req (s.X 1).toNat).why = .leaf ∧
    (bad.lookup bad.req 0x10040).why = .failed .dataLost ∧
    isAperture (s.X 3).toNat = true ∧ s.sys = true ∧ s.portStores s.cur = false ∧ s.c.poolStores = [] ∧ s.nmOps = [] ∧ s.pins = [] ∧ s.migs = [] ∧ (∀ e ∈ s.polders, ∀ w ∈ e.2.portQ, w.xl = none) ∧ Cause.dataLost ≠ .poolRegionLost ∧ (s.X 1).toNat < 2 ^ 17 ∧
    isAperture (s.X 2).toNat = false ∧ isCanonical (s.X 2).toNat = true ∧ (s.walk s.req (s.X 2).toNat).why = .notPresent ∧ (userX []).sys = false ∧
    (4 : BitVec 3).toNat ≤ 4 ∧ ((mapped s).die 0 0).leaf s.c.asid (granOf 0x10040) = some (placeLeaf 0 0) := by decide +kernel
/-- CoherenceObjectsAreMadeAndReleased: records of one line, of a malformed mode, of a coverage that meets an object's; a full table, the lowest free handle; a
live object of the space, handles that name none, an object of another space, words that are legal and not. -/
theorem witness_objects : let s := sysX [(1, vaA), (2, 5), (3, 0x0302), (4, 0x10000), (5, 4)]
    let o : CohObj := ⟨0, 0x40, 0x41, 0, 0, 0⟩
    let t := s.setDie 0 0 { s.die 0 0 with objs := [(5, o), (6, { o with asid := 1 })] }
    let put := fun (u : State) (v : Nat) => { u with mem := memWrite (memWrite [] (spadAddr 0 0 0x100) 8 0x1000) (spadAddr 0 0 0x108) 24 v }
    let r := fun (u : State) => put u 0x000000010000000100000001000000010000000000000100
    let read := fun (u : State) (p : State × Nat → Bool) => okAnd (u.readRecord (u.X 1).toNat) (fun e => decide (e.1.cur = u.cur ∧
      e.1.c = { u.c with surveyed := e.1.c.surveyed }) && p e) = true
    s.c.ra = false ∧ read (r s) (fun e => decide ((e.1.die 0 0).freeObj = some 0 ∧ (e.1.die 0 0).objs = [] ∧ shapeCover e.2 = some (0x40, 0x40))) ∧
    read (put s 0) (fun e => (shapeCover e.2).isNone) ∧
    read (r t) (fun e => (e.1.die 0 0).objs.any (fun x => x.2.asid == t.c.asid && coversMeet x.2.lo x.2.hi 0x40 0x40)) ∧
    (s.X 2).toNat < 4096 ∧ tfind (t.die t.fnode 0).objs (t.X 2).toNat = some o ∧ o.asid = t.c.asid ∧ (s.X 3).toNat / 2 ^ 16 = 0 ∧ (s.X 3).toNat % 256 < 4 ∧
    (s.X 4).toNat / 2 ^ 16 ≠ 0 ∧ 4 ≤ (s.X 5).toNat % 256 ∧ tfind (s.die s.fnode 0).objs (s.X 2).toNat = none ∧
    tfind (t.die t.fnode 0).objs 6 = some { o with asid := 1 } ∧ ({ o with asid := 1 } : CohObj).asid ≠ t.c.asid := by decide +kernel
theorem tfind_map_ne_none {α : Type} (f : Nat → α) (l : List Nat) : ∀ k ∈ l, tfind (l.map (fun k => (k, f k))) k ≠ none := by
  induction l with
  | nil => simp
  | cons a r ih => intro k hk; by_cases h : a = k <;> simp [tfind, h]; exact ih k ((List.mem_cons.1 hk).resolve_left (Ne.symm h))
/-- The same: no free handle. -/
theorem witness_objects_full (o : CohObj) : ({ State.reset.die 0 0 with objs := (List.range 4096).map (fun k => (k, o)) } : DieSt).freeObj = none := by
  have h := tfind_map_ne_none (fun _ => o) (List.range 4096)
  simp only [List.mem_range] at h
  simpa [DieSt.freeObj] using h
/-- ExactValuesRoundToTheirCode. -/
theorem witness_exact : ETy.decode .fp32 0x3F800001 = .fin false 8388609 8388608 false ∧ 0x3F800001 < 2 ^ ETy.width .fp32 ∧ (1 : BitVec 32) ≠ 0 := by decide +kernel
/-- ScalarFloatingPointResults: a positive finite scale, the largest, 0 and infinity. -/
theorem witness_scal : let s := sysX [(1, 0x00000001), (2, 0x7F7FFFFF), (3, 0x7F800000)]
    s.pfx = none ∧ 0 < s.F 1 ∧ s.F 1 < 0x7F800000 ∧ 0 < s.F 2 ∧ s.F 2 < 0x7F800000 ∧ s.F 0 = 0 ∧ 0x7F800000 ≤ s.F 3 := by decide +kernel
/-- VectorArithmeticByLane, VectorMovesReducesAndSorts, VectorComparesAndConversions: each type code, registers without ports, an idle queue; a key shift, a
predicate register and a conversion at the ends of their ranges. -/
theorem witness_vectors : let s := sysX []
    s.pfx = none ∧ (∀ r ∈ [(0 : Reg), 23, 24, 31], s.c.portOf r = none) ∧ (s.cc.vq.filter (fun e => !e.bound)).length < 32 ∧
    (∀ t ∈ [0, 1, 2, 3, 4, 5], (ETy.ofT t).isSome = true) ∧ ETy.ofT 0 = some .i32 ∧ ETy.width .i32 = 32 ∧ ETy.isFloat .i32 = false ∧ ETy.isFloat .fp32 = true ∧
    (31 : Reg).toNat < ETy.width .i32 ∧ (7 : Reg).toNat < 8 ∧ (0xFFFFFFFF : BitVec 32).toNat < 2 ^ ETy.width .i32 ∧ vcvtTypes 2 1 1 false = some (.bf16, .fp32, 2) := by
  decide +kernel

/-- The state with the geometry registers listed. -/
def withG (l : List (Nat × Word)) (s : State) : State := s.setC (l.foldl (fun c e => c.setG (BitVec.ofNat 5 e.1) e.2) s.c)
/-- The checks pass and the entries find room. -/
def canIssue (s : State) (c : Cmd) (x : Except Stop Unit) : Bool :=
  okAnd x (fun _ => decide (s.coreCmds s.fnode s.fcore < 16)) && (s.pol.claim c c.claims).isSome

/-- EngineCommandsAreIssued: commands that pass their checks, one that does not, a full set of sixteen, a run-ahead helper. -/
theorem witness_engine_commands : let s := sysX [(1, 0x1000), (2, 0x2000), (3, 0x0100)]
    let c := fun (g : List (Nat × Word)) (n : Nat) (a b : Word) => (withG g s).mkCmd n false false a b
    let cp := c [(0, 0x4000000000001121), (1, 4), (2, 0), (11, 4), (21, 4)] 0 0x1000 0x2000
    s.c.ra = false ∧ (s.setC { s.c with ra := true }).c.ra = true ∧
    (let e := c [(0, 0x4000000000001120), (1, 4), (11, 4), (21, 4)] 0 0x1000 0x2000; canIssue s e (ecpyCheck e) = true) ∧
    (let e := c [(0, 0x4000000024010001), (1, 0x10000), (2, 4)] 1 0x1000 0x2000; canIssue s e (rowsCheck e 1 2) = true) ∧
    (let e := c [(0, 0x4000000024010001), (1, 0x10000), (2, 4)] 2 0x1000 0x2000; canIssue s e (rowsCheck e 1 2) = true) ∧
    (let e := c [(0, 0x4000000000000001)] 3 0x1000 0x2000; canIssue s e (exchCheck e 1 2) = true) ∧
    (let e := c [(0, 0x4000000000000000)] 12 0x10000 0x0100; canIssue s e (eptabCheck e 1 2) = true) ∧
    (let e := c [(0, 0x4000000000010001)] 11 0x00FEFF0000001000 0x00FEFF0000002000; canIssue s e (enmscCheck e 1 2) = true) ∧
    (let e := c [(0, 0x4000000000211006)] 9 0x00FEFF0000001000 0x00FEFF0000002000; canIssue s e (etopkCheck e 1 2) = true) ∧
    isTrap (ecpyCheck cp) .engineFault = true ∧
    (let t := s.setPol { s.pol with engine := { s.pol.engine with loQ := List.replicate 16 (s.mkCmd 0 false false 0 0) } }; 16 ≤ t.coreCmds t.fnode t.fcore) ∧
    fieldW (0x00080000 : Word) 19 13 ≠ 0 ∧ fieldW (0x00010000 : Word) 16 10 ≠ 0 ∧ fieldW (0x00010000 : Word) 0 16 = 0 := by decide +kernel
/-- LeasesAndArrayCommands: a legal save area, one off M-space and one misaligned; a granted lease, a waiting one, another core's, none; commands that pass
their checks and find room, a full queue, full tables, a suspended lease of the core. -/
theorem witness_array : let s := withG [(0, 0x1100), (2, 1), (6, 0x40000000), (7, 1), (8, 0x10)] (sysX [(1, 0x20000400), (2, 0x400), (3, 0x20000401), (5, 1)])
    let a := s.pol.array
    let h := s.setPol { s.pol with array := { a with holder := some s.cur } }
    let put := fun (x : ArraySt) => s.setPol { s.pol with array := x }
    let legal := fun (sa : Word) => fieldW sa 32 32 = 0 ∧ fieldW sa 29 3 = 1 ∧ fieldW sa 25 4 = 0 ∧ fieldW sa 0 25 + 133120 ≤ 4 * 2 ^ 20 ∧ fieldW sa 0 10 = 0
    let c4 := s.cmdModes (s.mkCmd 4 false false 0 0); let c5 := s.mkCmd 5 false false 0 0; let c6 := s.cmdModes (s.mkCmd 6 false false 0x20000000 1)
    s.c.ra = false ∧ legal (s.X 1) ∧ fieldW (s.X 2) 29 3 ≠ 1 ∧ (fieldW (s.X 3) 29 3 = 1 ∧ fieldW (s.X 3) 0 10 ≠ 0) ∧
    (s.setC { s.c with granted := true }).c.granted = true ∧ h.c.granted = false ∧ a.susp = [] ∧ a.run = none ∧
    (let o := put { a with holder := some ⟨0, 0, 3⟩ }; o.pol.array.leased o.cur = false ∧ ∃ id, o.pol.array.holder = some id ∧ id.core = o.fcore ∧ id ≠ o.cur) ∧
    (let o := put { a with holder := some ⟨0, 1, 3⟩ }; o.pol.array.leased o.cur = false ∧ o.pol.array.waiting = [] ∧ o.pol.array.susp = [] ∧
      o.pol.array.holder = some ⟨0, 1, 3⟩ ∧ (⟨0, 1, 3⟩ : CtxId).core ≠ o.fcore) ∧ h.pol.array.ending = false ∧ h.pol.array.leased h.cur = true ∧
    a.leased s.cur = false ∧ a.waiting = [] ∧ a.holder = none ∧ a.susp = [] ∧ h.arrBusy h.cur = false ∧ a.hiQ = [] ∧ a.loQ = [] ∧
    (let b := h.setPol { h.pol with array := { h.pol.array with loQ := List.replicate 8 c5 } }; b.arrBusy b.cur = true ∧ 8 ≤ b.pol.array.loQ.length) ∧
    okAnd (emmaCheck c4 0 0) (fun _ => (h.pol.claim c4 c4.arrClaims).isSome) = true ∧
    (fieldW s.c.g[6] 32 32 = 0 ∧ fieldW (s.X 0) 1 63 = 0 ∧ barOk (fieldW s.c.g[6] 0 32) = true ∧ (h.pol.claim c5 c5.arrClaims).isSome = true) ∧
    (let z := withG [(8, 0x4000010000000010)] { s with mem := memWrite [] (spadAddr 0 0 0x40000100) 4 0x3F800000 }; fieldW z.c.g[8] 32 32 ≠ 0 ∧
      okAnd (z.drainScales (fieldW z.c.g[8] 32 32) (((z.cmdModes (z.mkCmd 6 false false 0x20000000 1)).cols + 31) / 32)) (fun l => decide (l.length = 1)) = true) ∧
    okAnd (emmdCheck c6 4 5) (fun _ => (h.pol.claim c6 c6.arrClaims).isSome) = true ∧ fieldW s.c.g[8] 32 32 = 0 ∧ h.pol.array.loQ.length < 8 ∧
    (h.pol.claim c4 c4.arrClaims).isSome = true ∧
    (let f := List.replicate 64 (⟨0, 0, 0, 0, 0, 0, 0⟩ : RangeEnt); let b := h.setPol { h.pol with sb := f, rl := f }
     b.pol.array.holder = some b.cur ∧ (b.pol.claim c4 c4.arrClaims).isNone = true) ∧
    (let x : Susp := ⟨⟨0, 0, 1⟩, 0x20000400, [], [], false, false, false, [], none, none⟩; x.saved = false ∧ x.id.core = s.fcore) := by decide +kernel
/-- A layout record of 16 FP32 elements for one member, and a communicator of die 0 alone. -/
abbrev rec1 : Nat := 0x10101 + 0x0001000100010001 * 2 ^ 64 + 0x40000010 * 2 ^ 128
/-- A package whose communicator 0 has this word 0. -/
def withComm (w : Word) (s : State) : State := s.setComm 0 0 { s.comm 0 0 with w0 := w }
/-- CollectivesAndClonePlansStart: two records that are read, a communicator that is enabled, one of KIND 0, one that is not, a malformed record; a clone plan of
one region. -/
theorem witness_collectives : let s0 := withG [(0, 0x4000000000001000), (1, 0x10040), (2, 0x10080)] (sysX [(1, vaA)])
    let s := withComm 0x8080000000000000 { s0 with mem := memWrite [] (spadAddr 0 0 0x100) 64 rec1 }
    let z := withComm 0x8000000000000000 s0
    let e := { s0 with mem := memWrite (memWrite (memWrite [] (spadAddr 0 0 0x100) 8 0x10001) (spadAddr 0 0 0x140) 8 (2 ^ 46)) (spadAddr 0 0 0x150) 8 64 }
    let c := s.mkCmd 8 false false (s.X 1) (s.X 1)
    s.c.ra = false ∧ okAnd (s.readRecord (s.X 1).toNat) (fun e1 => okAnd (e1.1.readRecord (s.X 1).toNat) (fun e2 => decide (e2.1.cur = s.cur ∧ e2.1.pfx = s.pfx) &&
      okAnd (e2.1.collCheck c 1 1 e1.2 e2.2) (fun i => ((e2.1.polder s.fnode (s.fcore / 8)).claim c (collClaims c i.sb i.db)).isSome) &&
      decide ((e2.1.comm s.fnode 0).kind = 1 ∧ e2.1.colls = [] ∧ ((e2.1.mine 1 s.fnode 0 c).filter (fun e => e.2.st == 0 || e.2.st == 2)).length < 8))) = true ∧
    (s0.comm 0 0).en = false ∧ ((z.comm 0 0).en = true ∧ (z.comm 0 0).kind = 0 ∧ (z.comm 0 0).die = z.cur.die ∧ fieldW s.c.g[0] 16 16 = 0 ∧ layoutOf 0 (z.comm 0 0).size = none) ∧
    s.sys = true ∧ (userX []).sys = false ∧ okAnd (e.readWords (e.X 1).toNat 8) (fun w => decide (w.2 = [0x10001, 0, 0, 0, 0, 0, 0, 0]) &&
      okAnd (w.1.readRegions 1 1 ((e.X 1).toNat + 64) 1) (fun r => decide (r.2 = [(2 ^ 46, 0, 64)]))) = true ∧
    fieldN 0x10001 0 12 = 1 ∧ fieldN 0x10001 12 4 = 0 ∧ fieldN 0x10001 16 16 = 1 ∧ fieldN 0x10001 32 32 = 0 ∧
    fieldW (0x4000000000000000 : Word) 0 32 = 0 ∧ barOk (fieldW s.c.g[0] 32 32) = true := by decide +kernel

/-- A mailbox of the system context of core 0, of 2^k entries of `e` bytes at M-space offset 0x1000. -/
def box (e k held : Nat) : Mbox := ⟨⟨0, 0, 11⟩, 0, 0x40001000, e, k, 0, 0, held, 0, 0, false, [], none, [], [], 1⟩
/-- Polder 0 with mailbox 5. -/
def withBox (b : Mbox) (s : State) : State := s.setMbox 0 0 5 b
/-- The handle of mailbox 5 of that context. -/
abbrev hBox : Word := 0x0000016000050000
/-- MessagesAreSent: a legal handle, one with each illegal field, a fenced node, another node; a credit, its last one, none. -/
theorem witness_messages : let s := sysX [(1, hBox)]
    let c := fun (n : Nat) => s.setCC { s.cc with sendWin := [⟨hBox, n, 1⟩] }
    let f := s.setPkg 0 { s.pkg 0 with fenced := [0] }
    s.c.ra = false ∧ s.c.portOf 3 = none ∧ fieldW hBox 0 16 = 0 ∧ fieldW hBox 49 3 ≤ 5 ∧ hSlot hBox ≤ 11 ∧ hMbox hBox ≠ 511 ∧ (hNode hBox == s.fnode) = true ∧
    fieldW (1 : Word) 0 16 ≠ 0 ∧ 5 < fieldW (0x000C000000000000 : Word) 49 3 ∧ 11 < hSlot 0x0000018000000000 ∧ hMbox 0x0000000001FF0000 = 511 ∧
    s.deadNode (hNode hBox) = false ∧ f.deadNode (hNode hBox) = true ∧ ((c 1).cc.useCredit hBox).isSome = true ∧ (c 0).cc.useCredit hBox = none ∧
    (s.setC { s.c with expired := true }).c.expired = true ∧ s.c.expired = false ∧ hNode 0x0010000000000000 ≠ s.fnode ∧ (c 1).cc.sendWin = [⟨hBox, 0 + 1, 1⟩] := by decide +kernel
/-- MailboxesBindAndReceive: unbound, bound with 8, 32 and 64 bytes, empty, full, a lost word, a wait whose binding is there and one whose is gone, another core's; a descriptor that
is well formed, one that is not, mailbox 511, a ring off M-space and one on another's; owner and stranger. -/
theorem witness_mailboxes : let s := sysX [(1, 5), (2, 0x205), (3, vaA)]
    let d := fun (w : Nat) => { s with mem := memWrite [] (spadAddr 0 0 0x100) 8 w }
    let w0 := 0x0005010040000000
    s.c.ra = false ∧ s.c.portOf 4 = none ∧ fieldW (s.X 2) 9 55 ≠ 0 ∧ fieldW (s.X 1) 9 55 = 0 ∧ s.mbox s.fnode s.pIdx 5 = none ∧
    (∀ b ∈ [box 8 0 0, box 8 0 1, box 32 1 0, box 32 1 2, box 64 12 0, box 64 12 4096], (withBox b s).mbox s.fnode s.pIdx (fieldW (s.X 1) 0 9) = some b ∧ b.owner.core = s.fcore ∧
      b.owner = s.cur) ∧ (box 8 0 0).esize = 8 ∧ (box 8 0 0).held = 0 ∧ (box 8 0 1).held ≠ 0 ∧ (box 8 0 0).esize < 32 ∧ (box 64 12 0).esize ≠ 8 ∧
    (let g := (withBox (box 8 0 1) s).setC { s.c with wait := some .mailbox }; g.c.wait = some .mailbox ∧ g.cur ∉ (box 8 0 0).waits ∧ g.cur ∉ (box 8 0 1).waits) ∧
    (let y : Mbox := { box 8 0 1 with owner := ⟨0, 1, 0⟩ }; (withBox y s).mbox s.fnode s.pIdx 5 = some y ∧ y.owner.core ≠ s.fcore) ∧ s.c.wait ≠ some .mailbox ∧
    (let A := spadAddr 0 0 0x40001000; s.lostWordIn A 8 = false ∧ s.lostWordIn A 32 = false ∧
      ({ s with lostWords := [(A / 8, 0)] } : State).lostWordIn A 8 = true ∧ ({ s with lostWords := [(A / 8, 0)] } : State).lostWordIn A 32 = true) ∧
    (s.sys = true ∧ fieldN 0x01FF010040000000 48 16 = 511 ∧ okAnd ((d 0x01FF010040000000).readWords (s.X 3).toNat 4) (fun e => decide (e.2 = [0x01FF010040000000, 0, 0, 0])) = true) ∧
    fieldN 0x20000000 29 3 ≠ 2 ∧ (∃ x ∈ (withBox (box 8 0 0) s).pol.mboxes, 0x40001000 < x.2.ring + x.2.esize * x.2.size ∧ x.2.ring < 0x40001000 + 8 * 2 ^ 1) ∧
    okAnd (recordAlign (s.X 3).toNat 32 32) (fun _ => true) = true ∧
    okAnd ((d w0).readWords (s.X 3).toNat 4) (fun e => decide (e.2 = [w0, 0, 0, 0] ∧ e.1.c = { s.c with surveyed := e.1.c.surveyed } ∧ e.1.cur = s.cur ∧ e.1.mbox s.fnode s.pIdx 5 = none ∧ e.1.pol.mboxes = [])) = true ∧
    okAnd ((d 0).readWords (s.X 3).toNat 4) (fun e => decide (e.2 = [0, 0, 0, 0])) = true ∧ fieldN 0 40 8 = 0 ∧ fieldN w0 34 6 = 0 ∧ fieldN w0 32 2 ≠ 3 ∧ 1 ≤ fieldN w0 40 8 ∧
    fieldN w0 40 8 ≤ 12 ∧ fieldN w0 48 16 < 511 ∧ fieldN (fieldN w0 0 32) 29 3 = 2 ∧ fieldN w0 0 32 % 64 = 0 ∧ fieldN (fieldN w0 0 32) 0 29 + 8 * 2 ^ 1 ≤ 4 * 2 ^ 20 ∧
    okAnd ((withBox (box 8 0 0) (d w0)).readWords (s.X 3).toNat 4) (fun e => (e.1.mbox s.fnode s.pIdx 5).isSome) = true ∧
    (box 8 0 0).owner ≠ (userX []).cur ∧ (userX []).sys = false := by decide +kernel
/-- A legend entry of name 0: one slot, one partition, REP0 in polder 0 of node 0, SERVING, EPOCH 1. -/
abbrev ent0 : Nat := 2 ^ 31 + 2 ^ 32 + 2 ^ 73 + (10 * 2 ^ 27 + 2 ^ 20 + 2 ^ 7) * 2 ^ 192 + 2 * 2 ^ 512
/-- The entry in the legend of node 0, and its manager. -/
def named (e : Nat) (s : State) : State := (s.setLegend 0 0 e).setRepl 0 0 0 (newRepl e 0)
/-- TokensAreSentAndAccepted: operands that pass and that do not; a name not held, one that is being removed, one with no replica that serves, a row too long; a replica whose node
is fenced; a row that is lost; a token in each stage, its time-out passed, its node fenced. -/
theorem witness_tokens : let s := named ent0 (sysX [(1, 0), (2, 0x4000000000000100), (3, 0x1000000), (4, 0x800000000)])
    let w := fun (n : Nat) => s.setC { s.c with tok := some ⟨n, 0, 0, 1, 0, 0, 0, 0, 1⟩ }
    let dead := s.setPkg 0 { s.pkg 0 with fenced := [0] }
    s.c.ra = false ∧ fieldW (s.X 3) 24 11 ≠ 0 ∧ (∀ f ∈ [true, false], okAnd (tokOperands (s.X 1) (s.X 2) f) (fun _ => true) = true ∧ okAnd (tokOperands (s.X 4) (s.X 2) f) (fun _ => true) = true) ∧
    s.c.tok = none ∧ (sysX []).legend 0 (fieldW (s.X 1) 0 24) = none ∧ ((named (ent0 - 2 ^ 31) s).legend 0 0).map entV = some false ∧ s.legend s.fnode (fieldW (s.X 1) 0 24) = some ent0 ∧
    entV ent0 = true ∧ entV (ent0 - 2 * 2 ^ 512) = true ∧ s.chooseReplica s.cur (ent0 - 2 * 2 ^ 512) = none ∧ repState (ent0 - 2 * 2 ^ 512) (fieldW (s.X 1) 46 4) < 2 ∧
    s.chooseReplica s.cur ent0 = some 0 ∧ (0 = fieldW (s.X 1) 46 4 ∧ 2 ≤ repState ent0 0) ∧ entSlotm1 ent0 < fieldW (s.X 4) 35 11 ∧ fieldW (s.X 1) 35 11 ≤ entSlotm1 ent0 ∧
    s.deadNode (repNode ent0 0) = false ∧ dead.deadNode (repNode ent0 0) = true ∧ s.c.pending = none ∧
    s.lostWordIn (spadAddr s.fnode s.pIdx (fieldW (s.X 2) 0 32)) 32 = false ∧
    ({ s with lostWords := [(spadAddr 0 0 0x100 / 8, 0)] } : State).lostWordIn (spadAddr 0 0 (fieldW (s.X 2) 0 32)) 32 = true ∧
    (∀ n ∈ [0, 1, 2, 3], (w n).c.tok.map (fun t => (t.stage, t.node)) = some (n, 0)) ∧ (w 0).deadNode 0 = false ∧
    (w 0).c.expired = false ∧ ((w 0).setC { (w 0).c with expired := true }).c.expired = true ∧
    okAnd ((w 1).portRead 0 0 (fieldW (s.X 2) 0 32) 32 (localVa (fieldW (s.X 2) 0 32))) (fun _ => true) = true := by
  decide +kernel
/-- NameInstructionsAndTokenReturn: a name held and one that is not, in REP0's polder and outside it, with and without a donor, a replica that serves; a slot with and without
its tag. -/
theorem witness_names : let s := named ent0 (sysX [(1, 0), (2, 0x100), (3, 15), (4, 1), (6, 16)])
    let o := named (ent0 + 2 ^ 12 * 2 ^ 512) (sysX [])
    let d := s.setDie 0 0 { s.die 0 0 with donors := [(0, 0x8000000000400000)] }
    let r := named (ent0 + 2 * 2 ^ 544) (sysX [])
    let t := { s with mem := memWrite [] (spadAddr 0 0 (mLocal 0)) 8 0x100000 }
    s.c.ra = false ∧ Memory.wf s.mem = true ∧ fieldW (s.X 1) 24 40 = 0 ∧ fieldW (s.X 3) 4 60 = 0 ∧ (sysX []).legend 0 0 = none ∧ s.legend 0 0 = some ent0 ∧
    (repNode ent0 0 = s.fnode ∧ repPolder ent0 0 = s.pIdx) ∧ (o.legend 0 0).map (fun e => repPolder e 0) = some 1 ∧ s.c.poolStores = [] ∧ s.portStores s.cur = false ∧
    s.sys = true ∧ (userX []).sys = false ∧ s.ownerEntry s.fnode 0 = some ent0 ∧ (sysX []).ownerEntry 0 0 = none ∧ s.createReplica 0 0 ent0 = none ∧
    (d.createReplica 0 0 ent0).isSome = true ∧ repState ent0 1 ≠ 2 ∧ 15 < (s.X 6).toNat ∧ (r.ownerEntry 0 0).map (fun e => repState e 1) = some 2 ∧ (1 ≤ (s.X 4).toNat ∧ (s.X 4).toNat ≤ 15) ∧
    fieldW (s.X 1) 36 28 = 0 ∧ fieldW (s.X 2) 30 34 = 0 ∧ fieldW (s.X 2) 25 4 = 0 ∧ fieldW (s.X 2) 0 5 = 0 ∧ s.repl s.fnode s.pIdx 0 = some (newRepl ent0 0) ∧ (newRepl ent0 0).tomb = none ∧
    entPerm ent0 = false ∧ (let t0 := fun (u : State) => memRead u.mem (spadAddr 0 0 (mLocal (entTgbase ent0))) 8
      (let A := spadAddr 0 0 (mLocal (entTgbase ent0)); s.lostWordIn A 16 = false ∧ ({ s with lostWords := [(A / 8, 0)] } : State).lostWordIn A 16 = true) ∧ fieldN (t0 s) 20 1 = 0 ∧ 0 < entNslot ent0 ∧ fieldN (t0 t) 20 1 = 1 ∧ t.deadNode (fieldN (t0 t) 52 12) = false) ∧
    fieldW (s.X 2) 0 29 + entRetBytes ent0 ≤ spaceSize (fieldW (s.X 2) 29 3) ∧ okAnd (t.portRead 0 0 (s.X 2).toNat (entRetBytes ent0) (localVa (s.X 2).toNat)) (fun _ => true) = true := by decide +kernel
/-- MigrationCopiesSwitchesAndEnds: a leaf with M clear and one with M set, a legal new frame, and the record of a migration before, between and after its
steps. -/
theorem witness_migration : let s := tabled 0x20017F (sysX [(1, 0x10040), (2, 0x300004)])
    let w := s.walk s.req (s.X 1).toNat
    let m : Mig := ⟨s.cur, 0, 0x10040, 0x130008, 0x2001FF, 0x200000, 0x300000, 65536, false, false, 4⟩
    let at' := fun (m : Mig) => ({ tabled 0x2001FF (sysX [(1, 0x10040), (2, 0x300004)]) with migs := [m] } : State)
    s.c.ra = false ∧ s.sys = true ∧ Memory.wf s.mem = true ∧ m.id = s.cur ∧ m.asid = s.c.asid ∧ m.va = s.X 1 ∧ m.new = fieldW (s.X 2) 16 42 * 65536 ∧ s.migs = [] ∧
    isAperture (s.X 1).toNat = false ∧ isCanonical (s.X 1).toNat = true ∧ w.why = .leaf ∧ 3 ≤ w.level ∧ s.badFrame s.fnode (s.X 2) (pteFrame w.entry) (pageSize w.level) = false ∧
    pteM w.entry = false ∧ paClass w.eaddr = 0 ∧ s.nmHolds w.eaddr = false ∧ (let t := tabled 0x2001FF s; pteM (t.walk t.req (t.X 1).toNat).entry = true) ∧
    (m.copied = false ∧ m.switched = false ∧ s.locks = [] ∧ s.nmOps = [] ∧ paClass m.old = 0 ∧ paClass m.new = 0 ∧ (s.pkg s.fnode).poolDirty = [] ∧ (s.pkg s.fnode).poolSent = [] ∧ m.old + m.size ≤ m.new) ∧
    (let t := at' { m with copied := true }; paClass m.eaddr = 0 ∧ t.readEntry t.fnode m.eaddr = m.entry ∧ t.nodeFail t.fnode m.eaddr = none ∧ t.nmHolds m.eaddr = false ∧ t.frozen m.eaddr = false) ∧
    (let t := at' { m with copied := true, switched := true }; okAnd (t.fenceFull m.scope) (fun v => okAnd (v.xinvPage m.scope m.va.toNat) (fun u => decide (u.cur = t.cur ∧ u.c.x = t.c.x))) = true) := by decide +kernel

/-- EventsOfCoresVectorsAndStreams: slots to switch to, a full run of 256, a starved polder, one queue entry to bind, a bound one, returns, a port to fetch and to append for,
waiting slots. -/
theorem witness_ev_cores : let s : State := { sysX [] with cores := [((0, 0), { CoreSt.reset with slot := 0, run := 256, stopped := false })] }
    let x : VqEntry := ⟨0, 3, [1, 2], false⟩
    let q := fun (b : Bool) => s.setCore 0 0 { s.core 0 0 with vq := [{ x with bound := b }] }
    let r : Port := ⟨true, 0x00FEFF0000000200, 32, 0, false, 0, 1, [], []⟩
    let st := fun (w : Wait) => s.setCtx ⟨0, 0, 1⟩ { regs [] with st := .stalled, wait := some w }
    (rotation (s.core 0 0).slot).find? (fun j => s.runnable 0 0 j) = some 11 ∧ (s.ctx ⟨0, 0, 0⟩).st ≠ .ready ∧ 256 ≤ (s.core 0 0).run ∧ (sysX []).cc.run < 256 ∧
    (s.setPolder 0 0 { s.polder 0 0 with starved := true }).pol.starved = true ∧ s.pol.starved = false ∧ (s.pkg 0).retired = [] ∧ x.bound = false ∧
    ((q false).core 0 (8 * 0 + 0)).vq = [x] ∧ ((q false).core 0 0).deficit = 0 ∧ ((q false).core 0 0).vshare ≠ 0 ∧ (∀ j ∈ List.range 8, j ≠ 0 → ((q false).core 0 j).vq = []) ∧
    ((q true).core 0 0).vq = [{ x with bound := true }] ∧ (s.setPolder 0 0 { s.polder 0 0 with returns := [(0, 1)] }).pol.returns ≠ [] ∧
    (let t := portX r; (t.ctx ⟨0, 0, 11⟩).portOf 24 = some r ∧ r.write = false ∧ r.fetched.length < 4 ∧ r.fetched.length < r.remain ∧
      okAnd ((t.setCtx ⟨0, 0, 11⟩ { t.ctx ⟨0, 0, 11⟩ with surveyed := [] }).vecLoad (t.reqOf ⟨0, 0, 11⟩) (r.va 0) 0 false) (fun e => decide (e.2.2 = 0 ∧
        e.1.ctx ⟨0, 0, 11⟩ = { t.ctx ⟨0, 0, 11⟩ with surveyed := (e.1.ctx ⟨0, 0, 11⟩).surveyed })) = true) ∧
    (∀ w ∈ [Wait.migration, .send, .wfe, .resource], ((st w).ctx ⟨0, 0, 1⟩).st = .stalled ∧ ((st w).ctx ⟨0, 0, 1⟩).wait = some w) ∧
    (let p : Port := { r with write := true, k := 1, buffered := [(0, 0)] }; let t := portX p
     let w : PortWrite := ⟨⟨0, 0, 11⟩, (t.ctx ⟨0, 0, 11⟩).gen, 0x100, 4, 7, none, 0, some (24, 0)⟩; let u := t.setPolder 0 0 { t.polder 0 0 with portQ := [w] }
     let v := u.setPolder 0 1 { u.polder 0 1 with portQ := [{ w with append := some (24, 1) }] }
     (t.ctx ⟨0, 0, 11⟩).portOf 24 = some p ∧ (p.buffered.take 1).any (fun x => t.appendWaits ⟨0, 0, 11⟩ (t.ctx ⟨0, 0, 11⟩).gen 24 x.1) = false ∧
     (p.buffered.take 1).any (fun x => u.appendWaits ⟨0, 0, 11⟩ (u.ctx ⟨0, 0, 11⟩).gen 24 x.1) = true ∧ u.appendBefore w = false ∧ v.appendBefore { w with append := some (24, 1) } = true) ∧
    (let w : PortWrite := ⟨⟨0, 0, 1⟩, 0, 0x100, 4, 7, none, 0, none⟩; let t := s.setPolder 0 0 { s.polder 0 0 with portQ := [w] }
     let u := s.setPolder 0 0 { s.polder 0 0 with portQ := [w], sb := [⟨0, 1, 0, 0, 0, 0x1000, 9⟩] }
     (t.polder 0 0).portQ = [w] ∧ t.scoreboardHit 0 0 w.la w.n = false ∧ t.appendBefore w = false ∧ (u.polder 0 0).portQ = [w] ∧ u.scoreboardHit 0 0 w.la w.n = true) := by decide +kernel
/-- EventsOfHomesAndBaseDies: lines in class 00 that are and are not frozen or NEAR-HELD, a returned prefetch, requests of each kind, entries that match and that do
not, counts of symbols with errors, an operation in each stage, a snoop of one line, an access of the window. -/
theorem witness_ev_homes : let s := mapped (sysX [])
    let o := fun (st : NmStage) => (⟨s.cur, 0, 0x10040, 0x40, 0, 0, 0, 0, false, 7, st, none, none, false⟩ : NmOp)
    let u := fun (st : NmStage) => ({ s with nmOps := [o st] } : State)
    let t := tabled 0x20017F s; let cur := t.readEntry 0 0x130008
    Memory.wf s.mem = true ∧ s.frozen 0x40 = false ∧ s.nmHolds 0x40 = false ∧ (u .forwarded).nmHolds 0x40 = true ∧ s.nmOps = [] ∧
    (∀ e ∈ [({ flag := true } : Ev), { n := 0 }, { n := 1 }, { n := 2 }, { n := 3 }], (({ s with ev := e } : State).ev = e ∧ paClass e.pa = 0)) ∧
    paClass 0x130008 = 0 ∧ t.nodeFail 0 0x130008 = none ∧ t.moving 0x130008 = false ∧ pteV cur = true ∧ pteL cur = true ∧ pteGen cur = pteGen 0x20017F ∧
    pteFrame cur = pteFrame 0x20017F ∧ pteGen cur ≠ pteGen 0x0400000000000000 ∧ pteV (s.readEntry 0 0x130008) = false ∧ t.nmHolds 0x130008 = false ∧ t.frozen 0x130008 = false ∧ paClass (2 ^ 44) ≠ 0 ∧
    (u .sent).nmOps = [o .sent] ∧ lineOf (o .sent).pa = 0x40 ∧ (u .sent).frozen 0x40 = false ∧ (u .applied).nmOps = [o .applied] ∧ (o .applied).piece = none ∧
    (s.ctx (o .applied).id).gen = (o .applied).cgen ∧ (s.ctx s.cur).st ≠ .free ∧ (u .returned).nmOps = [o .returned] ∧
    okAnd ((u .returned).nmPlace { id := s.cur, asid := 0, ptroot := 0, user := s.cur.slot % 16 != 11, ra := false, engine := true, cmd := none } 0x10040 (nmBytes 0 false))
      (fun e => decide (e.1.nmOps = (u .returned).nmOps)) = true ∧ ({ pa := 0x40, slot := 11 } : Ev).id = (o .returned).id ∧ (o .returned).pa = 0x40 ∧
    (let a := 0 * 2 ^ 46 + fieldW (s.pkg 0).bar2 36 8 * 2 ^ 36 + 0x78 % 2 ^ 36; paOff a < hbmLimit ∧ paClass a = 0 ∧ a % 64 + 8 ≤ 64 ∧ s.frozen (lineOf a) = false ∧ s.hostBehind { pa := 0x78 } true = false) := by
  decide +kernel
/-- EventsOfThePool: a FREE entry with a port that is up and words that are legal; entries in each state; stores of an attached region. -/
theorem witness_ev_pool : let s := (sysX []).setPkg 0 { (sysX []).pkg 0 with poolUp := Vector.replicate 4 true }
    let v := 0x8000000000000001; let r := fun (st : RegionState) => ({ Region.reset with en := true, st := st, size := 1 } : Region)
    (s.region 0 0).st = .free ∧ fieldN v 63 1 = 1 ∧ fieldN v 60 3 = 0 ∧ fieldN v 44 12 = 0 ∧ fieldN v 16 12 = 0 ∧ fieldN v 0 16 ≠ 0 ∧ fieldN v 28 16 + fieldN v 0 16 ≤ 65536 ∧
    (s.pkg 0).regions = [] ∧ (s.pkg 0).poolUp.toList.getD (fieldN v 58 2) false = true ∧ fieldN 1 63 1 = 0 ∧ regionZero0 1 = true ∧ regionZero0 0x10000 = false ∧
    (∀ st ∈ [RegionState.attached, .lost, .reattaching], ((s.setRegion 0 0 (r st)).region 0 0).st = st ∧ ((s.setRegion 0 0 (r st)).region 0 0).en = true ∧
      ((s.setRegion 0 0 (r st)).pkg 0).poolUp.toList.getD (r st).port false = true) ∧ (r .attached).detaching = false ∧ ({ r .attached with detaching := true } : Region).detaching = true ∧
    (r .attached).en = true ∧
    (let p := fun (d m : BitVec 64) => (s.setRegion 0 0 (r .attached)).setPkg 0 { (s.setRegion 0 0 (r .attached)).pkg 0 with
        poolDirty := if d = 0 then [] else [(2 ^ 44 + 64, d)], poolSent := [(2 ^ 44 + 64, m)] }
     (p 0 1).regionHome 0 (paOff (2 ^ 44 + 64)) = some (0, r .attached) ∧ tfind ((p 0 1).pkg 0).poolDirty (2 ^ 44 + 64) = none ∧
     tfind ((p 0 1).pkg 0).poolSent (2 ^ 44 + 64) = some 1 ∧ (1 : BitVec 64).getLsbD 0 = true ∧ Memory.wf (p 0 1).mem = true ∧ 2 ^ 44 + 64 < 2 ^ 58 ∧
     tfind ((p 2 1).pkg 0).poolDirty (2 ^ 44 + 64) = some 2 ∧ (2 : BitVec 64) ≠ 0) := by decide +kernel
/-- EventsOfLockHomes: a sent request for a free line, a held one and a lost one, with and without room, that waits and that tries, with and without a time-out; a line
NEAR-HELD; a waiter; a release with a waiter, and of a lost line; a lock with a limit; two locks that wait for each other. -/
theorem witness_ev_locks : let s := sysX []; let a : CtxId := ⟨0, 0, 1⟩; let b : CtxId := ⟨0, 0, 2⟩
    let w := fun (id : CtxId) (k : Word) (n : Nat) => (⟨id, 0, false, false, k, n⟩ : Waiter)
    let l := fun (h : Option CtxId) (ws : List Waiter) (n : Nat) => (⟨h, 4, b, ws, false, n, none⟩ : Lock)
    let r := fun (t : Nat) => (⟨0x40, 4, t, 0x10040, 0, 0⟩ : LockReq)
    let q := fun (t : Nat) (ls : Tab Nat Lock) => ({ s with locks := ls } : State).setCtx a { regs [] with lockReq := some (r t) }
    let full := (List.range 256).map (fun i => ((48 * i + 49) * 64, l (some b) [] 0))
    (∀ ls ∈ [[], [(0x40, l (some b) [] 0)], [(0x40, { l (some b) [] 0 with scope := 3 })], [(0x40, { l (some b) [] 0 with owner := ⟨1, 0, 0⟩ })], full],
      (q 0 ls).lockSent a = some (r 0) ∧ (q 0 ls).lockHeld a 0x40 = false ∧ (q 0 ls).cutOff a.node (paNode 0x40) = false) ∧
    (let t := (q 0 []).setCtx ⟨1, 0, 0⟩ { regs [] with lockReq := some (r 0) }; let t := t.setPkg 0 { t.pkg 0 with fenced := [1] }; t.lockSent ⟨1, 0, 0⟩ = some (r 0) ∧ t.cutOff 1 (paNode 0x40) = true) ∧ (q 5 []).lockSent a = some (r 5) ∧ (r 5).t ≠ 0 ∧ (r 5).t < lkTryMark ∧ lkTryMark ≤ (r lkTryMark).t ∧
    (q lkTryMark [(0x40, l (some b) [] 0)]).lockSent a = some (r lkTryMark) ∧
    (let t : State := { q 0 [] with nmOps := [⟨a, 0, 0x10040, 0x40, 0, 0, 0, 0, false, 7, .forwarded, none, none, false⟩] }; t.lockHeld a 0x40 = true ∧ t.lockSent a = some (r 0)) ∧
    tfind (q 0 []).locks 0x40 = none ∧ (q 0 []).entryRoom 0x40 = true ∧ (q 0 []).isLost 0x40 = false ∧ ({ q 0 [] with lost := [(0x40, 0)] } : State).isLost 0x40 = true ∧
    (tfind (q 0 full).locks 0x40 = none ∧ (q 0 full).entryRoom 0x40 = false) ∧
    (let t := q 0 [(0x40, l (some b) [] 0)]; (t.lock 0x40).holder = some b ∧ (t.lock 0x40).scope = (r 0).scope ∧ inDomain 4 (t.lock 0x40).owner a = true ∧ t.waiterRoom 0x40 = true) ∧
    (q 0 [(0x40, l (some b) (List.replicate 2048 (w b 1 0)) 0)]).waiterRoom 0x40 = false ∧ inDomain 4 ⟨1, 0, 0⟩ a = false ∧
    (w a 0 5).timeout ≠ 0 ∧ (l (some b) [w a 0 5] 0).waiters = [w a 0 5] ∧
    (let t : State := { s with locks := [(0x40, { l none [w a 0 0] 0 with rel := some (b, none) })] }
     (t.lock 0x40).rel = some (b, none) ∧ t.handLater 0x40 (b, none) = false ∧ (t.lock 0x40).waiters = [w a 0 0] ∧ (w a 0 0).absent = false ∧ t.isLost 0x40 = false ∧
     tfind ({ t with lost := [(0x40, 1)] } : State).lost 0x40 = some 1 ∧ (1 : BitVec 64) ||| ({ t with lost := [(0x40, 1)] } : State).dirtyMask 0x40 ≠ BitVec.allOnes 64) ∧
    (let t := fun (ws : List Waiter) => ({ s with locks := [(0x40, l (some b) ws 7)] } : State); ((t []).lock 0x40).holder = some b ∧ ((t []).lock 0x40).limit ≠ 0 ∧
      ((t []).lock 0x40).waiters = [] ∧ ((t [w a 0 0]).lock 0x40).waiters = [w a 0 0] ∧ (t [w a 0 0]).nmHolds 0x40 = false ∧ (t []).nmHolds 0x40 = false) ∧
    (let t : State := { s with locks := [(0x40, l (some b) [w a 1 0] 0), (0x80, l (some a) [w b 2 0] 0)] }
     t.locks.map (fun e => e.2.holder) = [some b, some a] ∧ (0x40 : Nat) ≠ 0x80 ∧ (w a 1 0).stamp.toNat < (w b 2 0).stamp.toNat) := by decide +kernel
/-- A copy command of one FP32 element from A-space offset 0x1000 to 0x2000. -/
def copyCmd : Cmd := (withG [(0, 0x4000000000001120), (1, 1), (11, 4), (21, 4)] (sysX [])).mkCmd 0 false false 0x1000 0x2000
/-- EventsOfCopyEngines: queued commands, a running one that completes and one that faults, eight exchanges and fewer, a running exchange, a record. -/
theorem witness_ev_engines : let s := sysX []; let g := (s.polder 0 0).engine; let c := copyCmd
    let e := fun (g : Engine) => s.setPolder 0 0 { s.polder 0 0 with engine := g }
    let x := fun (k : Nat) => ({ (withG [(0, 0x4000000000000001)] s).mkCmd 3 false false 0x1000 0x2000 with id := ⟨0, k, 11⟩, no := k } : Cmd)
    let ex : Engine := { g with exch := (List.range 8).map x }
    let bad : Cmd := { c with g := c.g.set 0 0x4000000000001020, a := 0x10000 }
    g.run.length < 8 ∧ g.exRun = none ∧ g.exchFirst = false ∧ (8 ≤ (List.replicate 8 c).length ∧ ({ ex with exRun := some ⟨ex.heads, 0, [], []⟩ } : Engine).exRun.isSome = true ∧ ({ g with sets := [ex.heads] } : Engine).exchFirst = true) ∧ g.hiQ = [] ∧ (e { g with loQ := [c] }).pol.engine.loQ = [c] ∧ (e { g with hiQ := [c] }).pol.engine.hiQ = [c] ∧
    (let t := e { g with run := [c] }; c.hw = 0 ∧ c.cmd ≠ 11 ∧ okAnd (t.engUnit c) (fun r => decide (r.2.2 = true ∧ r.2.1.no = c.no ∧ r.2.1.cmd = c.cmd ∧ r.2.1.hw = 0 ∧
        (r.1.polder 0 0).engine.run = [c])) = true ∧ c.id.node = 0 ∧ c.id.polder = 0 ∧ fieldW c.g[0] 8 4 = 1 ∧ fieldW c.g[0] 12 4 = 1 ∧
      t.lostWordIn (spadAddr 0 0 0x1000) 4 = false ∧ t.arrayHolds c 1 0x2000 4 = false ∧ (match unitFault t (t.engUnit bad) with | some (x, v) => x.cause == .pageNotPresent && x.ff.isNone && decide ((v.polder 0 0).engine = (t.polder 0 0).engine) | none => false) = true ∧ bad.open_ = 0 ∧ ({ bad with open_ := 1 } : Cmd).open_ ≠ 0 ∧
      okAnd (t.engUnit { c with g := c.g.set 1 2 }) (fun r => r.2.2 == false) = true) ∧ g.recs = [] ∧ g.heads.length ≠ 8 ∧
    (ex.heads.length = 8 ∧ ex.match8.sets = [ex.heads] ∧ ex.match8.exRun = none ∧ ex.match8.exchFirst = true ∧ ex.match8.run = [] ∧ ex.match8.exchOk ex.heads = true ∧ g.match8.sets = [] ∧
      ({ ex with run := [c] } : Engine).match8.run ≠ [] ∧ ({ ex with hiQ := [c] } : Engine).match8.exchFirst = false ∧ ({ ex with exRun := some ⟨ex.heads, 0, [], []⟩ } : Engine).match8.exRun.isSome = true) ∧
    (let y : Engine := { ex with exch := ex.exch.map (fun c => if c.no = 3 then { c with g := c.g.set 0 0x4000000000000002 } else c) };
      y.match8.sets = [y.heads] ∧ y.match8.exRun = none ∧ y.match8.exchFirst = true ∧ y.match8.run = [] ∧ y.match8.exchOk y.heads = false) ∧
    (let y : Exch := ⟨ex.heads, 0, [], []⟩; y.cmds.head? = some (x 0) ∧ (∀ d ∈ y.cmds, fieldN (ex.entry d 0 (d.id.core % 8)) 63 1 = 0) ∧ (x 0).rounds ≤ y.round + 1 ∧
      y.round + 1 < ({ x 0 with g := (x 0).g.set 0 0x4000000001000001 } : Cmd).rounds) ∧
    (let k : FaultRec := ⟨5, 0, 0, c, false⟩; tfind (e { g with recs := [(0, k)] }).pol.engine.recs 0 = some k ∧ k.array = false ∧ k.cmd.cmd ≠ 3 ∧ k.cmd.cmd ≠ 8 ∧ k.cmd.cmd ≠ 10 ∧ (s.pol.claim c c.claims).isSome = true ∧ k.cmd.hw ≠ 1 ∧
      g.stopped = []) := by decide +kernel
/-- EventsOfMatrixArrays: a granted lease with queued commands and none running, a running command of each kind, one waiting lease, one suspended, a column to move. -/
theorem witness_ev_arrays : let s := withG [(0, 0x1100), (2, 1), (6, 0x40000000), (7, 1), (8, 0x10)] (sysX []); let a := (s.polder 0 0).array
    let e := fun (a : ArraySt) => s.setPolder 0 0 { s.polder 0 0 with array := a }
    let c4 := s.mkCmd 4 true false 0 0; let c5 := s.mkCmd 5 false false 0 0
    let h : ArraySt := { a with holder := some s.cur, quantum := 16 }
    let r4 : Cmd := { c4 with g := c4.g.set 0 0x81100 }
    a.run = none ∧ h.holder = some s.cur ∧ h.ending = false ∧ h.next = none ∧ a.next = none ∧ ({ h with next := some ⟨0, 1, 3⟩, waiting := [(⟨0, 1, 3⟩, 0x20000400)] } : ArraySt).next = some ⟨0, 1, 3⟩ ∧ (∀ d ∈ [c4, c5, r4], s.counterLost d = none) ∧ c4.id.node = 0 ∧ c4.id.polder = 0 ∧ (e h).leaseDue h = false ∧ h.hstop = false ∧ h.lstop = false ∧ (e { h with hiQ := [c4] }).mayStart c4 = true ∧ c4.hi = true ∧
    (e { h with loQ := [c5] }).mayStart c5 = true ∧ c5.hi = false ∧ c4.rag = false ∧ okAnd ((e { h with run := some c4 }).arrUnit 0 0 c4) (fun _ => true) = true ∧ c4.cmd ≠ 5 ∧ c5.cmd = 5 ∧
    (r4.rag = true ∧ r4.cmd = 4 ∧ ¬(0 < r4.rows ∧ r4.rows ≤ r4.sub) ∧ (0 < 2 ∧ ({ r4 with rows := 2, sub := 2 } : Cmd).rows ≤ ({ r4 with rows := 2, sub := 2 } : Cmd).sub)) ∧ a.holder = none ∧ a.susp = [] ∧ ({ a with waiting := [(s.cur, 0x20000400)] } : ArraySt).waiting = [(s.cur, 0x20000400)] ∧
    (⟨s.cur, 0x20000400, [], [], false, false, false, [], none, none⟩ : Susp).saved = false ∧ s.restoreHeld a ⟨s.cur, 0x20000400, [], [], false, false, false, [], none, none⟩ = false ∧ a.waiting = [] ∧ s.spareCols 0 0 = [128, 129, 130, 131] ∧ ({ a with retiring := [7] } : ArraySt).retiring = [7] ∧
    (Rnd.default.mode = 0 ∧ (ETy.decode .fp32 0x3F800000).isNan = false) := by decide +kernel
/-- EventsOfMailboxes: an entry for a bound mailbox and for one that is not, requests with room and without, a grant, a batch of freed entries, a handler to start. -/
theorem witness_ev_mailboxes : let s := sysX []; let b := box 8 2 0
    let f := fun (x : Flight) (b : Mbox) => withBox b { s with flights := [x] }
    Memory.wf s.mem = true ∧ (f (.entry hBox s.cur 8 7 none 1 1) b).flights = [.entry hBox s.cur 8 7 none 1 1] ∧ hNode hBox = 0 ∧ hPolder hBox = 0 ∧ hMbox hBox = 5 ∧
    s.misroutes s.cur hBox 0 = false ∧ (1 = 0 ∨ 1 = b.bind) ∧ (2 ≠ b.bind ∧ b.unreserved ≠ 0 ∧ (box 8 2 4).unreserved = 0) ∧ ((2 : Nat) ≠ 0 ∧ 2 ≠ b.bind) ∧ b.named (hBox + 0x2000000) = false ∧
    (withBox b s).mbox 0 0 5 = some b ∧ b.named hBox = true ∧ 8 ≤ b.esize ∧ s.mbox 0 0 5 = none ∧ s.mbox 0 0 511 = none ∧
    min (b.size - b.held - b.granted) (min 16 3) ≠ 0 ∧ min ((box 8 2 4).size - (box 8 2 4).held - (box 8 2 4).granted) (min 16 3) = 0 ∧ (⟨hBox, 3, 1⟩ : SendEntry).bind = 1 ∧ (s.core 0 0).sendWin = [] ∧
    (let y : Mbox := { b with reqs := [(0, 1, 3)], freed := 1 }; y.freed ≠ 0 ∧ min 16 (max 1 (y.size / 4)) ≤ y.freed ∧ min (y.size - y.held - y.granted) (min 16 3) ≠ 0) ∧
    (let y : Mbox := { b with hpc := 0x400, held := 1, owner := ⟨0, 0, 0⟩ }; y.hpc ≠ 0 ∧ y.held ≠ 0 ∧ y.handler = none ∧ y.owner.slot < 16 ∧ y.owner.node = 0 ∧ s.freeSlot 0 0 = some 1) := by
  decide +kernel
/-- A member of a collective of one, its record `rec1` for both shards. -/
def member : CollMem := ⟨0, (withG [(0, 0x4000000000001000), (1, 0x10040), (2, 0x10080)] (sysX [])).mkCmd 8 false false 0 0, rec1, rec1, 0, 1, 32, 0, 0, [], 0, 0, 0⟩
/-- EventsOfCollectives: words that are accepted and rejected, a member with a chunk to send, one whose data is in and may land. -/
theorem witness_ev_collectives : let s := withComm 0x8080000000000000 (mapped (sysX []))
    let x : Coll := ⟨1, 0, 0, 0, 1, [member], false⟩
    let y : Coll := { x with mems := [{ member with data := List.replicate 16 7, sent := 2 }], reduced := true }
    let t : State := { s with colls := [x] }; let u : State := { s with colls := [y] }
    ((sysX []).comm 0 0).en = false ∧ fieldN 0x8080000000000000 2 14 = 0 ∧ fieldN 0x8080000000000000 56 4 ≤ 10 ∧ fieldN 0x8080000000000000 40 12 ≤ 5 ∧ 10 < fieldN 0x8B80000000000000 56 4 ∧
    x.comm = 0 ∧ member.cmd.id.node = 0 ∧ member.cmd.id.die = 0 ∧ member.st = 0 ∧ t.clones = [] ∧ member.ready 1 = true ∧ member.landed < member.dstBytes 1 ∧ t.collFenced x = false ∧
    x.comm ∉ (t.die 0 0).chanFull ∧ x.comm ∈ ((t.setDie 0 0 { t.die 0 0 with chanFull := [0] }).die 0 0).chanFull ∧
    okAnd (t.engRead member.cmd 0 (member.cmd.g[1].toNat) 32) (fun r => decide (r.1.colls = t.colls)) = true ∧ x.named 1 0 0 0 = true ∧ x.mems.length = x.size ∧ x.reduced = false ∧
    (y.mems.head?.map (fun m => (m.rank, m.landed, m.counted, m.dstBytes 1))) = some (0, 0, 0, 64) ∧ y.reduced = true ∧ u.collFenced y = false ∧ (member.layouts 1).isSome = true ∧
    (member.layouts 1).any (fun l => (List.range 8).all (fun j => y.element (y.mems.headD member) l.1 l.2.1 l.2.2 j == some 7)) = true ∧ 0 + min 32 64 < 64 ∧
    okAnd (u.engWrite member.cmd 0 (member.cmd.g[2].toNat) 32 (packEls 32 (List.replicate 8 7))) (fun r => decide (r.colls = u.colls)) = true := by decide +kernel
/-- A launch of queue 0 of two items at entry 0x400. -/
def launch2 (st : LaunchStage) : Launch := ⟨0, 0, 0, 0x400, [1], 3, none, none, 1, 10, 0, [], 0x10100, 0, [1, 2, 3, 4, 5, 6, 7, 8], 0, 0, 0, 0x11000, st, 0, 0, 0, none, false, [], [], [], []⟩
/-- Node 0 with queue 0 in state `st`, its launch, and the leaf that maps VA 0x10000. -/
def queued (st : QState) (cur : Option Nat) (tail : BitVec 32) (ls : Tab Nat Launch) : State :=
  let s := mapped (sysX [])
  s.setPkg 0 { s.pkg 0 with live := true, queues := [(0, { Queue.reset with en := true, st := st, base := 0x10000, tail := tail, cur := cur })], launches := ls }
/-- EventsOfQueuesAndScheduling: queues in each state, with and without launches, a record that is taken and one that is malformed, a round that holds and one that does not, an item
that can be placed, a finished launch, a victim, and a saved item that comes back. -/
theorem witness_ev_scheduling : let d := launch2 .dispatching; let p := launch2 .polling
    let q := fun (st : QState) => queued st none 0 []
    (∀ st ∈ [QState.idle, .run, .draining, .aborting, .stopped], ((q st).queue 0 0).st = st ∧ (q st).launchesOf 0 0 = [] ∧ ((q st).queue 0 0).dying = [] ∧
      (q st).feNext 0 0 = 0 ∧ ((q st).queue 0 0).abortPos = ((q st).queue 0 0).abortTail ∧ ((q st).queue 0 0).head = ((q st).queue 0 0).tail) ∧
    (q .run).hostBehind { n := 0 } false = false ∧ ((q .run).pkg 0).live = true ∧ (State.reset.pkg 0).live = false ∧ ((2 : BitVec 32) - 0).toNat ≤ 2 ^ 1 ∧ 2 ^ 1 < ((3 : BitVec 32) - 0).toNat ∧
    (let t := queued .run none 1 []; let r := { t with mem := memWrite [] 15 2 0xFFFF }
     t.feNext 0 0 = 0 ∧ (t.queue 0 0).cur = none ∧ (t.queue 0 0).head ≠ (t.queue 0 0).tail ∧ okAnd (r.readLaunch 0 0 0) (fun e => decide (e.2.2.lcb = 0 ∧ e.2.2.queue = 0 ∧ recordBad e.2.2 e.2.1 = false)) = true ∧
     okAnd (t.readLaunch 0 0 0) (fun e => decide (e.2.2.lcb = 0 ∧ e.2.2.queue = 0 ∧ recordBad e.2.2 e.2.1 = true)) = true) ∧
    (let t := queued .run (some 0) 1 [(0, p)]; let y := fun (op : Nat) => { t with mem := memWrite [] 0x100 8 (0x10100 + op) }
     (t.queue 0 0).cur = some 0 ∧ t.launch? 0 0 = some p ∧ p.stage = .polling ∧ okAnd ((y 1).semRead (t.launchReq 0 p) p.semlist.toNat p.nsem) (fun e => e.2 == some true) = true ∧
     okAnd ((y 0).semRead (t.launchReq 0 p) p.semlist.toNat p.nsem) (fun e => e.2 == some false) = true) ∧
    (q .run).cands 0 = [] ∧ (let t := queued .run (some 0) 1 [(0, d)]; t.cands 0 = [.fresh 0 d [0]] ∧ (t.placeAll 0 0 d [] 5 [0] d.placing).map (fun pl => pl.taken) = some [(5, 0)]) ∧
    (let l : Launch := { launch2 .dispatched with ndone := 2 }; (queued .run none 0 [(0, l)]).launch? 0 0 = some l ∧ l.finished = true ∧ l.lcb = 0 ∧
      ((queued .run none 0 [(0, l)]).queue 0 0).st ≠ .aborting ∧ ((queued .run none 0 [(0, l)]).queue 0 0).dying = []) ∧ (q .run).deadStores 0 = false ∧
    ((q .run).setPolder 0 0 { (q .run).polder 0 0 with portQ := [⟨⟨0, 0, 1⟩, 5, 0x100, 4, 0, none, 0, none⟩] }).deadStores 0 = true ∧
    ((q .run).pkg 0).poolDirty = [] ∧ ((q .run).pkg 0).poolSent = [] := by decide +kernel
/-- EventsOfQueuesAndScheduling: pre-emption and restoration. -/
theorem witness_ev_preempt : let hi : Launch := { launch2 .dispatched with prio := 5, saved := [⟨⟨0, 1, 10, 0, 0, 0⟩, 0, [0], [], false, 7⟩] }
    let lo : Launch := { launch2 .dispatched with prio := 1, resident := [(0, 0)] }
    let it : Item := ⟨1, 0, 10, 0, 0, 0⟩
    let s := queued .run none 0 [(0, hi), (1, lo)]
    let s := s.setCore 0 0 { s.core 0 0 with item := some it }
    let s := s.setCtx ⟨0, 0, 0⟩ { regs [] with st := .ready }
    ((s.blocked 0 0).findSome? (s.victimFor 0 0)).map (fun v => v.cores) = some [0] ∧ (s.core 0 0).item = some it ∧ s.launch? 0 1 = some lo ∧
    okAnd (s.saveItem 0 0) (fun t => (t.core 0 0).item.isNone && (match (t.pkg 0).launches with
      | [_, (1, l)] => l.saved.length == 1 &&
          (let t := t.setPkg 0 { t.pkg 0 with launches := [(1, l)] }
           match l.saved with
           | [y] => decide ((t.cands 0).find? (t.candFits 0 0 []) = some (.back 1 l [y])) && okAnd (t.restoreItem 0 1 y) (fun u => (u.core 0 0).item == some it)
           | _ => false)
      | _ => false)) = true := by decide +kernel
/-- EventsOfLegendsAndTokens: an entry that INSTALL accepts and one it refuses, entries held, updates, a replica in each state of its life, tokens, credits, result rows. -/
theorem witness_ev_legends : let e := ent0 - 2 ^ 31; let s := sysX []; let h := named ent0 s
    let st := fun (x : Nat) => s.setDie 0 0 { s.die 0 0 with staging := BitVec.ofNat 1024 x }
    let k : Token := ⟨0, 0, 1, 0, ⟨0, 8, 0⟩, 0, 0, 0x40000000, true, 32, 7, 0, 0, 0, 1⟩
    let w : TokWait := ⟨0, 0, 0, 1, 0, 0, 0, 0, 1⟩
    let m := fun (f : Repl → Repl) (x : Nat) => (s.setLegend 0 0 x).setRepl 0 0 0 (f (newRepl x 0))
    Memory.wf s.mem = true ∧ homeDieOf 0 = 0 ∧ repNode ((st e).die 0 0).staging.toNat 0 = 0 ∧ entRefused e = false ∧ entName e = 0 ∧ tfind (s.die 0 0).legend 0 = none ∧
    (s.die 0 0).legend.length < 4096 ∧ entRefused (e - 2 ^ 73) = true ∧ h.legend 0 0 = some ent0 ∧ tfind (h.die 0 0).legend 0 = some (BitVec.ofNat 1024 ent0) ∧
    s.legend 0 0 = none ∧ h.olderTokens 0 0 1 = false ∧ entRetire ent0 = 0 ∧ h.repl 0 0 0 = some (newRepl ent0 0) ∧ h.nameEntry 0 0 = some ent0 ∧
    ({ s with tokens := [k] } : State).tokens = [k] ∧ s.repl 0 0 0 = none ∧ k.bwd = true ∧ k.part ≠ 65 ∧ newerSeq (h.polder 0 0) k = true ∧ entPerm ent0 = false ∧
    (newRepl ent0 0).freeFrom (memRead h.mem (spadAddr 0 0 (mLocal (entAcnt ent0))) 4 % entNslot ent0) (entNslot ent0) = some 0 ∧
    entSabase ent0 + entSlotBytes ent0 * 0 + k.bytes ≤ spaceSize 0 ∧ ((h.setC { h.c with tok := some w }).ctx ⟨0, 0, 11⟩).tok = some w ∧ w.stage = 0 ∧ (h.ctx ⟨0, 0, 11⟩).expired = false ∧
    ((newRepl ent0 0).grant (partOf ent0 0 0)).isSome = true ∧
    (let t := m (fun r => { r with slots := [(0, ⟨[], 0, false⟩)] }) ent0; (t.repl 0 0 0).map (fun r => (tfind r.slots 0).map (fun b => b.closed)) = some (some false)) ∧
    (0x100 + 32 ≤ spaceSize 0 ∧ spaceSize 0 < 2 ^ 23 + 32 ∧ 5 / 8 = 0) := by
  decide +kernel
/-- EventsOfLegendsAndTokens: a replica in each state of its life. -/
theorem witness_ev_replicas : let s := sysX []
    let m := fun (f : Repl → Repl) (x : Nat) => (s.setLegend 0 0 x).setRepl 0 0 0 (f (newRepl x 0))
    let ent := fun (r st : Nat) => ent0 + st * 2 ^ (512 + 32 * r) - (if r = 0 then 2 * 2 ^ 512 else 0)
    (let t := m (fun r => { r with idx := 1, pend := some (0, 1) }) (ent 1 1); (t.repl 0 0 0).map (fun r => (r.idx, r.pend)) = some (1, some (0, 1)) ∧
      repState (ent 1 1) 1 = 1 ∧ entVer (ent 1 1) = 0 ∧ fieldN (t.barWord 0 0 (mLocal (entRbar (ent 1 1)))) 0 1 ≠ 1 ∧ t.barLost 0 0 (mLocal (entRbar (ent 1 1))) = false ∧ t.nameEntry 0 0 = some (ent 1 1)) ∧
    (let t := m (fun r => { r with idx := 1, joined := true }) (ent 1 3); (t.nameEntry 0 0).map (fun y => (repState y 1, entCreate y)) = some (3, 0) ∧ (t.repl 0 0 0).map (fun r => (r.bwd, r.joined, r.tomb)) = some (0, true, none)) ∧
    (let t := m (fun r => { r with joinReq := 1 }) ent0; (t.repl 0 0 0).map (fun r => (r.joinReq, r.bwd)) = some (1, 0)) ∧
    (let t := m (fun r => { r with tomb := some 0 }) ent0; (t.repl 0 0 0).map (fun r => (r.tomb, r.pend)) = some (some 0, none) ∧ ∀ p ∈ t.domain, 0 ≤ tget 0 (t.die 0 0).acks (0, p)) := by
  decide +kernel
/-- EventsOfLegendsAndTokens: the copy of a join finds room and does not; the arrival counter's word; a token for the polder, and none held. -/
theorem witness_ev_joins : let h := named ent0 (sysX [])
    let t := (h.setLegend 0 0 ent0).setRepl 0 0 0 { newRepl ent0 0 with joinReq := 1 }
    let k : Token := ⟨0, 0, 1, 0, ⟨0, 8, 0⟩, 0, 0, 0x40000000, true, 32, 7, 0, 0, 0, 1⟩
    let full := List.replicate 64 (⟨0, 1, 0, 0, 0, 1, 9⟩ : RangeEnt)
    let copy := fun (u : State) => u.hwCopy 0 0 2 (2 ^ 29 + entGoff ent0) (entWpa ent0 + 65536 * entWlen ent0) (entGlen ent0 / 64) (mLocal (entJbar ent0)) 0 0 0
    (t.repl 0 0 0).map (fun r => (r.joinReq, r.bwd)) = some (1, 0) ∧ (copy t).isSome = true ∧
    (copy (t.setPolder 0 0 { t.polder 0 0 with sb := full, rl := full })).isNone = true ∧ h.lostWordIn (spadAddr 0 0 (mLocal (entAcnt ent0))) 4 = false ∧
    (∀ x ∈ (h.polder 0 0).repls, x.2.heldToks = []) ∧ (newRepl ent0 0).reborn = false ∧ (newRepl ent0 0).joined = false ∧ ({ newRepl ent0 0 with tomb := some 0, reborn := true } : Repl).reborn = true ∧ repNode ent0 0 ∉ (h.pkg 0).fenced ∧
    (let f := h.setPkg 0 { h.pkg 0 with fenced := [0] }; f.legend 0 0 = some ent0 ∧ repNode ent0 0 ∈ (f.pkg 0).fenced ∧ f.olderTokens 0 0 1 = false) ∧ k.node = 0 ∧ k.polder = 0 := by decide +kernel
/-- EventsOfManagement: a machine-check record and none, with and without TVEC, and slot 11 inside a pair; offsets; error codes; columns; links;
a miss before the third and the third; a slot that runs. -/
theorem witness_ev_management : let s := sysX []
    let mc := s.setCC { s.cc with mcheck := ⟨true, 1, 11, 0, 0, 0, 0⟩, tvec := 0x400 }
    let ms := fun (n : Nat) => { s with group := [0, 1] }.setPkg 0 { s.pkg 0 with missed := [(1, n)], boot := 8 }
    (mc.core 0 0).mcheck.valid = true ∧ (mc.core 0 0).tvec ≠ 0 ∧ (mc.core 0 0).mcheck.kind = 0 ∧ (s.core 0 0).mcheck.valid = false ∧ paClass 0x40 = 0 ∧
    (mc.core 0 0).stopped = true ∧ (let y := (mc.setCC { mc.cc with stopped := false }).setCtx ⟨0, 0, 11⟩ { regs [] with held := some (.pfx 1 true 0 0 false 0, .add 0 0 0) };
      (y.core 0 0).stopped = false ∧ (y.ctx ⟨0, 0, 11⟩).pairHeld = true ∧ (y.core 0 0).tvec ≠ 0) ∧
    (0 < 4 ∧ 4 ≤ 8 - 0x102 % 8 ∧ 8 - 0x104 % 8 < 8 ∧ 8 - 0x102 % 8 < 32) ∧ tfind (s.pkg 0).poolDirty 0x40 = none ∧ (s.pkg 0).retired = [] ∧
    ((List.range 128).find? (fun j => tget j (s.polder 0 0).array.cols j == 7 % 132) = some 7 ∧ (s.polder 0 0).array.retiring.length < (s.polder 0 0).array.spares ∧
      ({ (s.polder 0 0).array with spares := 0 } : ArraySt).spares ≤ ({ (s.polder 0 0).array with spares := 0 } : ArraySt).retiring.length) ∧
    (linkCount 0 ≤ 12 ∧ 11 < linkCount 0 ∧ 3 < linkCount 3 ∧ (5, linkUnit 3 3) ∉ (s.pkg 0).retired ∧ deviceNo 3 ∉ (s.pkg 0).fencedSw) ∧ ((userX []).ctx ⟨0, 0, 1⟩).pairHeld = false ∧ (1 : Word).toNat ≤ 1 ∧
    tget 0 ((ms 1).pkg 0).missed 1 < 2 ∧ 2 ≤ tget 0 ((ms 2).pkg 0).missed 1 ∧ 1 ∈ (ms 2).group ∧ (1 : Nat) ≠ 0 ∧ ((userX []).ctx ⟨0, 0, 1⟩).st = .ready ∧
    ((userX []).ctx ⟨0, 0, 1⟩).ra = false ∧ (s.core 0 0).stopped = true ∧ (3 : Nat).testBit 0 = true ∧ (3 : Nat).testBit 1 = true := by decide +kernel
/-- EventsOfManagement: heartbeats, images that run and that do not, and the steps of bring-up. -/
theorem witness_ev_bringup : let s := sysX []
    let ms := fun (n : Nat) => { s with group := [0, 1] }.setPkg 0 { s.pkg 0 with missed := [(1, n)], boot := 8 }
    (s.pkg 0).boot < 8 ∧ 8 ≤ ((ms 1).pkg 0).boot ∧ (∀ k ∈ [1, switchNo 1, deviceNo 1], k ∉ ((ms 1).pkg 0).fenced ∧ k ∉ ((ms 1).pkg 0).fencedSw ∧
      tget 0 (((ms 1).setPkg 0 { (ms 1).pkg 0 with missed := [(k, 2)] }).pkg 0).missed k = 2 ∧ tget 0 (((ms 1).setPkg 0 { (ms 1).pkg 0 with missed := [(k, 1)] }).pkg 0).missed k < 2) ∧
    (s.pkg 0).runs true 0 0 = true ∧ (s.pkg 0).runs true 1 0 = false ∧ (s.pkg 0).runs false 0 0 = false ∧ s.mayRenew 0 = true ∧ (s.pkg 0).boot < 3 - 1 ∧
    (let b := s.setPkg 0 { s.pkg 0 with boot := 7, down := (List.range 5).flatMap (fun k => (List.range (linkCount k)).map (fun m => (k, m))) };
      2 - 1 ≤ (b.pkg 0).boot ∧ 8 - 1 ≤ (b.pkg 0).boot ∧ (b.pkg 0).testing = [] ∧ (b.pkg 0).linksDone = true ∧ (s.pkg 0).linksDone = false ∧
      ({ b.pkg 0 with testing := [(4, 0)] } : Pkg).testing ≠ []) := by decide +kernel
/-- PrefixGovernsItsPair: a word that is not governed, a governed word whose instruction honours the prefix's fields, and one that does not. -/
theorem witness_pfx : let s := fun (w : Nat) => (userX []).withFetchWord 64 (w * 2 ^ 32 + 0x26)
    let P : Pfx := ⟨1, true, 0, 0, false, 0⟩
    (s 0).c.held = none ∧ wellFormed (.pfx 1 true 0 0 false 0) = true ∧
    (∀ w ∈ [0x00088360, 0x0A030389, 0x001CC5BD, 0x2001098D], okAnd ((s w).fetch ((s w).c.pc + 4)) (fun e => e.2 == w && !e.1.c.branchesBack) = true) ∧
    selGoverned 0x00088360 = false ∧ selGoverned 0x001CC5BD = true ∧ selLong 0x001CC5BD = false ∧ decodeWord 0x001CC5BD 0 = .ok (.fadd true 5 6 7) ∧ wellFormed (.fadd true 5 6 7) = true ∧
    (honoursOf (.fadd true 5 6 7) (fpInForce 0)).map P.honoured = some true ∧ decodeWord 0x2080648D 0 = .ok (.vredmax true 4 3 1) ∧
    (honoursOf (.vredmax true 4 3 1) (fpInForce 0)).map P.honoured = some false := by decide +kernel
/-- EveryStepKeepsTheMemoryCanonical: memory with a byte in it, and a step. -/
theorem witness_memory : Memory.wf [(0x40, 7)] = true ∧ (∃ t, step State.reset = .next t) := ⟨by decide +kernel, _, rfl⟩

/-! ## Memory and units -/

/-- R129: an atomic gives the old value and writes the new one; NR gives none. -/
theorem test_amoadd : let s := mapped (sysX [(1, 0x10040), (2, 0xFFFFFFFE)])
    let s : State := { s with mem := memWrite [] 0x40 4 0x80000001 }
    let t := nextOf (exec (.amoadd 3 1 2 false 0 false) s)
    t.X 3 = 0xFFFFFFFF80000001 ∧ memRead t.mem 0x40 8 = 0x7FFFFFFF ∧ (nextOf (exec (.amoadd 0 1 2 false 0 true) s)).c.x = s.c.x := by decide +kernel
/-- R64, R126, R127: a store to HBM and a load back through a leaf; a misaligned load traps with its address. -/
theorem test_hbm : let s := mapped (sysX [(1, 0x10040), (2, 0x1122334455667788)])
    let t := nextOf (exec (.sw 2 1 0 0) s)
    memRead t.mem 0x40 8 = 0x55667788 ∧ (nextOf (exec (.lwu 3 1 0 0) t)).X 3 = 0x55667788 ∧
    (nextOf (exec (.ld 3 1 0 0) (mapped (userX [(1, 0x10041)])))).c.tval = 0x10041 := by decide +kernel
/-- R161, R166, R170: a lock is taken, taken again by its holder (DEADLOCK), released, released again (NOTHELD). -/
theorem test_lock : let s := mapped (sysX [(1, 0x10040)])
    let t := nextOf (exec (.lkacq 3 1 0 4) s)
    let u := nextOf (exec (.lkrel 4 1 4) t)
    t.X 3 = 0x10 ∧ (nextOf (exec (.lktry 4 1 4) t)).X 4 = 0x14 ∧ u.X 4 = 0 ∧ (nextOf (exec (.lkrel 5 1 4) u)).X 5 = 7 := by decide +kernel
/-- R116, the SURVEY example: 300 requests of quadrant 1 and 100 of quadrant 2 on die 1. -/
theorem test_survey : let s := sysX [(1, 0x10040)]
    let l : Leaf := { placeLeaf 0 0 with counts := (Vector.replicate 4 0 |>.set 1 300 |>.set 2 100) }
    (nextOf (exec (.survey 5 1 0) (s.setDie 0 1 ((s.die 0 1).putLeaf (s.sliceOf 0 1 0 (granOf 0x10040)) l)))).X 5 = 0x0000019058020140 := by decide +kernel
/-- R81, the row of six logits: K = 3 without SMAX, K = 2 with it. -/
theorem test_topk : let s := withG [(0, 0x4000000000213006)] (mapped (sysX [])); let t := withG [(0, 0x4000000000312006)] (mapped (sysX []))
    let m := memWrite [] 0x40 24 (packEls 32 [0x3F800000, 0x40400000, 0x3F000000, 0x40400000, 0xFF800000, 0x7FC00000])
    let c := fun (s : State) => s.mkCmd 9 false false 0x10040 0x00FEFF0000002000
    okAnd (({ s with mem := m } : State).engUnit (c s)) (fun r => memRead r.1.mem (spadAddr 0 0 0x2000) 24 == packEls 64 [0x0000000140400000, 0x0000000340400000, 0x000000003F800000]) = true ∧
    okAnd (({ t with mem := m } : State).engUnit (c t)) (fun r => memRead r.1.mem (spadAddr 0 0 0x2000) 16 == packEls 64 [0x000000013F000000, 0x000000033F000000]) = true := by
  decide +kernel
/-- R69, R70: NMFADD.V adds lane by lane at its home and leaves the registers. -/
theorem test_near_memory : let s := mapped (sysX [(1, 0x10040)])
    let s := s.setC (s.c.setV 2 (vecOf [0x3F800000, 0x40000000]))
    let t := nextOf (exec (.nmfadd 1 2 true) s)
    let u := nextOf (exec .nearMemoryApply { nextOf (exec .nearMemoryForward { t with ev := { pa := 0x40 } }) with ev := { pa := 0x40 } })
    t.c.nmPending = 1 ∧ memRead t.mem 0x40 8 = 0 ∧ memRead u.mem 0x40 8 = 0x400000003F800000 := by decide +kernel
/-- R334, R330, R336: an entry sent to the sender's own mailbox arrives and is received. -/
theorem test_message : let s := withBox (box 8 1 0) (sysX [(1, hBox), (2, 0xABCD), (3, 5)])
    let s := s.setCC { s.cc with sendWin := [⟨hBox, 1, 1⟩] }
    let t := nextOf (exec (.send 4 1 2) s)
    let u := nextOf (exec .messageArrival { t with ev := { node := 0, n := 0, m := 5 } })
    t.flights.length = 1 ∧ (nextOf (exec (.mpop 5 3) u)).X 5 = 0xABCD := by decide +kernel

end Sys2Proof.Tests
end

section
/-! Byte barriers (R214 to R220): what reading a barrier gives after each of the updates of R215, which registers and bytes the updates leave
unchanged, and what the four barrier instructions make of them. -/

namespace Sys2Proof.Barriers
open Sys2Proof Sys2Proof.Machine Sys2Proof.Safety

/-! ## Numbers and memory -/

/-- The signed reading of the low bits of a number is the integer of a bit vector. -/
theorem signedN_eq_toInt (v n : Nat) (hn : 0 < n) : signedN v n = (BitVec.ofNat n v).toInt := by
  have hmsb : (BitVec.ofNat n v).msb = decide (fieldN v (n - 1) 1 = 1) := by
    rw [BitVec.msb_eq_getLsbD_last, BitVec.getLsbD_ofNat, Nat.testBit_eq_decide_div_mod_eq]
    simp [fieldN, hn]
  rw [BitVec.toInt_eq_msb_cond, hmsb]
  simp [signedN]

/-- COUNT is a signed 32-bit integer (R214). -/
theorem signedN_bounds (v : Nat) : -2 ^ 31 ≤ signedN v 32 ∧ signedN v 32 ≤ 2 ^ 31 - 1 := by
  rw [signedN_eq_toInt v 32 (by decide)]
  exact ⟨BitVec.le_toInt _, by have := BitVec.toInt_lt (x := BitVec.ofNat 32 v); omega⟩

/-- The 32 bits of a count that fits read back as the count. -/
theorem signedN_ofInt (c : Int) (hlo : -2 ^ 31 ≤ c) (hhi : c ≤ 2 ^ 31 - 1) : signedN (BitVec.ofInt 32 c).toNat 32 = c := by
  rw [signedN_eq_toInt _ 32 (by decide), BitVec.ofNat_toNat, BitVec.setWidth_eq]
  exact BitVec.toInt_ofInt_eq_self (by decide) hlo (by omega)

/-- `n` bytes make a number below 256^n. -/
theorem memRead_lt (m : List Host.Cell) (a n : Nat) : memRead m a n < 256 ^ n := by
  induction n generalizing a with
  | zero => simp [memRead]
  | succ n ih =>
    have hb := (memGet m a).isLt
    have hr := ih (a + 1)
    unfold memRead
    omega

/-- A cleared byte reads 0. -/
theorem memGet_memZero_in (m : List Host.Cell) (a n i : Nat) (h : Memory.wf m = true) (hlo : a ≤ i) (hhi : i < a + n) :
    memGet (memZero m a n) i = 0 := by
  induction n generalizing m with
  | zero => omega
  | succ n ih =>
    have hwf := wf_memSet m (a + n) 0 h
    unfold memZero
    by_cases hin : i < a + n
    · exact ih _ hwf hin
    · obtain rfl : i = a + n := by omega
      rw [memGet_memZero_other _ _ _ _ hwf (by omega), memGet_memSet_same m 0 _ _ h]

/-! ## Word 1 of a barrier (R214): the bits that each update writes -/

/-- ARMED set (R215): bit 2 is 1, every other bit stays. -/
theorem or_four (w : Nat) : (w ||| 4) / 8 = w / 8 ∧ (w ||| 4) % 8 = w % 4 + 4 := by
  have hlow : ∀ k < 8, k ||| 4 = k % 4 + 4 := by decide
  have hk := hlow (w % 8) (Nat.mod_lt _ (by decide))
  have hdiv : (w ||| 4) / 8 = w / 8 ||| 0 := Nat.or_div_two_pow (n := 3)
  have hmod : (w ||| 4) % 8 = w % 8 ||| 4 := Nat.or_mod_two_pow (n := 3)
  rw [Nat.or_zero] at hdiv
  omega

/-- PHASE flipped (R215): bit 0 changes, every other bit stays. -/
theorem xor_one (w : Nat) : (w ^^^ 1) / 2 = w / 2 ∧ (w ^^^ 1) % 2 = 1 - w % 2 := by
  have hlow : ∀ k < 2, k ^^^ 1 = 1 - k := by decide
  have hk := hlow (w % 2) (Nat.mod_lt _ (by decide))
  have hdiv : (w ^^^ 1) / 2 = w / 2 ^^^ 0 := Nat.xor_div_two_pow (n := 1)
  have hmod : (w ^^^ 1) % 2 = w % 2 ^^^ 1 := Nat.xor_mod_two_pow (n := 1)
  rw [Nat.xor_zero] at hdiv
  omega

/-- A completed phase (R215): PHASE flips, ARMED falls to 0, FAULT and the bits above ARMED stay. -/
theorem flip_fields (w : Nat) (h : w / 4 % 2 = 1) :
    ((w ^^^ 1) - 4) % 2 = 1 - w % 2 ∧ ((w ^^^ 1) - 4) / 2 % 2 = w / 2 % 2 ∧ ((w ^^^ 1) - 4) / 4 % 2 = 0 ∧ ((w ^^^ 1) - 4) / 8 = w / 8 := by
  obtain ⟨hdiv, hmod⟩ := xor_one w
  omega

/-- Word 1 with the scope of a piece counted in (R215). -/
def withScope (w sc : Nat) : Nat := w - fieldN w 4 3 * 16 + max (fieldN w 4 3) sc * 16

/-- SCOPE rises to the piece's; PHASE, FAULT, ARMED and the bits that the hardware never writes stay. -/
theorem withScope_fields (w sc : Nat) (hsc : sc < 8) :
    withScope w sc % 16 = w % 16 ∧ withScope w sc / 16 % 8 = max (w / 16 % 8) sc ∧ withScope w sc / 128 = w / 128 := by
  unfold withScope fieldN
  omega

/-- Word 1 after an update has brought COUNT to `c`: the phase of an armed barrier completes at 0 (R215). -/
def settled (w : Nat) (c : Int) : Nat := if w / 4 % 2 = 1 ∧ c = 0 then (w ^^^ 1) - 4 else w

/-- The update stays inside the 32 bits of word 1. -/
theorem settled_lt (w : Nat) (c : Int) (h : w < 2 ^ 32) : settled w c < 2 ^ 32 := by
  have hx := Nat.xor_lt_two_pow h (show 1 < 2 ^ 32 by decide)
  unfold settled
  split <;> omega

/-! ## What the port's observers leave unchanged (R191, R219) -/

/-- An entry of a table with a function applied to every entry. -/
theorem tfind_tmap {κ α : Type} [DecidableEq κ] (t : Tab κ α) (f : κ → α → α) (k : κ) : tfind (tmap t f) k = (tfind t k).map (f k) := by
  induction t with
  | nil => rfl
  | cons e r ih =>
    obtain ⟨k', a⟩ := e
    simp only [tmap, tfind]
    split
    · next h => subst h; rfl
    · exact ih

/-- The port's message to waiting BBWAITs reaches no X register. -/
theorem barNotify_x (s : State) (node p la n : Nat) (id : CtxId) : ((s.barNotify node p la n).ctx id).x = (s.ctx id).x := by
  unfold State.barNotify
  split
  · rfl
  · simp only [State.ctx, tget, tfind_tmap]
    cases tfind s.ctxs id with
    | none => rfl
    | some c =>
      simp only [Option.map_some, Option.getD_some]
      split
      · split_ifs <;> rfl
      · rfl

/-- It changes contexts only. -/
theorem barNotify_eq (s : State) (node p la n : Nat) : s.barNotify node p la n = { s with ctxs := (s.barNotify node p la n).ctxs } := by
  unfold State.barNotify
  split <;> rfl

/-- A command that waits already is not put again; else the list of urgent commands alone grows. -/
theorem nowOnce_eq (s : State) (i : Instr) (e : Ev) : s.nowOnce i e = { s with urgent := (s.nowOnce i e).urgent } := by
  unfold State.nowOnce
  split <;> rfl

/-- What the array is told is an urgent command, and nothing else. -/
theorem counterNotify_eq (s : State) (node p la n : Nat) : s.counterNotify node p la n = { s with urgent := (s.counterNotify node p la n).urgent } := by
  unfold State.counterNotify
  dsimp only
  split
  · rfl
  · split
    · split
      · exact nowOnce_eq ..
      · rfl
    · split
      · exact nowOnce_eq ..
      · rfl

/-- What a port's observers make of a write that has been applied: contexts and urgent commands alone change. -/
theorem portSeen_eq (s : State) (node p la n : Nat) :
    s.portSeen node p la n = { s with ctxs := (s.barNotify node p la n).ctxs, urgent := (s.portSeen node p la n).urgent } := by
  unfold State.portSeen
  rw [counterNotify_eq, barNotify_eq]

@[simp] theorem portSeen_mem (s : State) (node p la n : Nat) : (s.portSeen node p la n).mem = s.mem := by rw [portSeen_eq]

@[simp] theorem portSeen_x (s : State) (node p la n : Nat) : (s.portSeen node p la n).c.x = s.c.x := by
  rw [portSeen_eq]
  exact barNotify_x s node p la n s.cur

@[simp] theorem lostWordWrite_mem (s : State) (a n : Nat) : (s.lostWordWrite a n).mem = s.mem := rfl
@[simp] theorem lostWordWrite_x (s : State) (a n : Nat) : (s.lostWordWrite a n).c.x = s.c.x := rfl

/-- Writing memory changes no context. -/
theorem withMem_c (s : State) (m : List Host.Cell) : ({ s with mem := m } : State).c = s.c := rfl

/-! ## The updates of a barrier (R215) -/

/-- Word 1 of a barrier stands four bytes after COUNT. -/
theorem spadAddr_word1 (node p la : Nat) : spadAddr node p (la + 4) = spadAddr node p la + 4 :=
  (Nat.add_assoc _ la 4).symm

theorem barWord_eq (s : State) (node p la : Nat) : s.barWord node p la = memRead s.mem (spadAddr node p la + 4) 4 := by
  unfold State.barWord
  rw [spadAddr_word1]

theorem barWord_lt (s : State) (node p la : Nat) : s.barWord node p la < 2 ^ 32 := memRead_lt s.mem _ 4

theorem barCount_bounds (s : State) (node p la : Nat) : -2 ^ 31 ≤ s.barCount node p la ∧ s.barCount node p la ≤ 2 ^ 31 - 1 :=
  signedN_bounds _

@[simp] theorem barSet_x (s : State) (node p la w : Nat) (c : Int) : (s.barSet node p la c w).c.x = s.c.x := by simp [State.barSet, withMem_c]

@[simp] theorem barFault_x (s : State) (node p la : Nat) : (s.barFault node p la).c.x = s.c.x := by simp [State.barFault, withMem_c]

theorem barSet_mem (s : State) (node p la w : Nat) (c : Int) : (s.barSet node p la c w).mem =
    memWrite (memWrite s.mem (spadAddr node p la) 4 (BitVec.ofInt 32 c).toNat) (spadAddr node p la + 4) 4 w := by simp [State.barSet]

theorem barFault_mem (s : State) (node p la : Nat) : (s.barFault node p la).mem =
    memWrite s.mem (spadAddr node p la + 4) 4 (s.barWord node p la ||| 2) := by simp [State.barFault, spadAddr_word1]

/-- COUNT and word 1 as written. -/
theorem barSet_reads (s : State) (node p la w : Nat) (c : Int) (hwf : Memory.wf s.mem = true) (hw : w < 2 ^ 32) :
    memRead (s.barSet node p la c w).mem (spadAddr node p la) 4 = (BitVec.ofInt 32 c).toNat ∧
    memRead (s.barSet node p la c w).mem (spadAddr node p la + 4) 4 = w := by
  have hc := (BitVec.ofInt 32 c).isLt
  have hwf' := wf_memWrite s.mem (spadAddr node p la) 4 (BitVec.ofInt 32 c).toNat hwf
  rw [barSet_mem]
  refine ⟨?_, ?_⟩
  · rw [memRead_memWrite_other _ _ _ _ _ _ hwf' (by omega), memRead_memWrite_same _ _ _ _ hwf]
    exact Nat.mod_eq_of_lt hc
  · rw [memRead_memWrite_same _ _ _ _ hwf']
    exact Nat.mod_eq_of_lt hw

/-- FAULT is set in word 1, and COUNT stays. -/
theorem barFault_reads (s : State) (node p la : Nat) (hwf : Memory.wf s.mem = true) :
    memRead (s.barFault node p la).mem (spadAddr node p la) 4 = memRead s.mem (spadAddr node p la) 4 ∧
    memRead (s.barFault node p la).mem (spadAddr node p la + 4) 4 = s.barWord node p la ||| 2 := by
  rw [barFault_mem]
  refine ⟨memRead_memWrite_other _ _ _ _ _ _ hwf (by omega), ?_⟩
  rw [memRead_memWrite_same _ _ _ _ hwf]
  exact Nat.mod_eq_of_lt (Nat.or_lt_two_pow (barWord_lt s node p la) (by decide))

/-- Bytes outside COUNT and word 1 stay. -/
theorem barSet_frame (s : State) (node p la w : Nat) (c : Int) (i : Nat) (hwf : Memory.wf s.mem = true)
    (hi : i < spadAddr node p la ∨ spadAddr node p la + 8 ≤ i) : memGet (s.barSet node p la c w).mem i = memGet s.mem i := by
  rw [barSet_mem, memGet_memWrite_other _ _ _ _ _ (wf_memWrite _ _ _ _ hwf) (by omega), memGet_memWrite_other _ _ _ _ _ hwf (by omega)]

theorem barFault_frame (s : State) (node p la i : Nat) (hwf : Memory.wf s.mem = true)
    (hi : i < spadAddr node p la ∨ spadAddr node p la + 8 ≤ i) : memGet (s.barFault node p la).mem i = memGet s.mem i := by
  rw [barFault_mem, memGet_memWrite_other _ _ _ _ _ hwf (by omega)]

/-- A sum that leaves 32 bits sets FAULT. -/
theorem barAdd_overflow (s : State) (node p la : Nat) (d : Int) (piece : Option Nat) (h : 2 ^ 31 - 1 < s.barCount node p la + d) :
    s.barAdd node p la d piece = s.barFault node p la := if_pos (.inr (.inr h))

/-- A BBEXP whose sum fits arms the barrier, and completes the phase of a COUNT of 0. -/
theorem barAdd_bbexp (s : State) (node p la : Nat) (d : Int) (hl : s.barLost node p la = false) (hlo : -2 ^ 31 ≤ s.barCount node p la + d)
    (hhi : s.barCount node p la + d ≤ 2 ^ 31 - 1) : s.barAdd node p la d none =
      s.barSet node p la (s.barCount node p la + d) (settled (s.barWord node p la ||| 4) (s.barCount node p la + d)) := by
  have h : ¬(s.barLost node p la = true ∨ s.barCount node p la + d < -2 ^ 31 ∨ 2 ^ 31 - 1 < s.barCount node p la + d) := by
    simp only [hl, Bool.false_eq_true, false_or]
    omega
  unfold State.barAdd
  dsimp only
  rw [if_neg h]
  rfl

/-- A piece whose difference fits raises SCOPE, and completes the phase of an armed barrier's COUNT of 0. -/
theorem barPiece_fits (s : State) (node p la n sc : Nat) (hl : s.barLost node p la = false) (hlo : -2 ^ 31 ≤ s.barCount node p la - n) :
    s.barPiece node p la n sc =
      s.barSet node p la (s.barCount node p la - n) (settled (withScope (s.barWord node p la) sc) (s.barCount node p la - n)) := by
  obtain ⟨-, hhi⟩ := barCount_bounds s node p la
  have h : ¬(s.barLost node p la = true ∨ s.barCount node p la + -(n : Int) < -2 ^ 31 ∨ 2 ^ 31 - 1 < s.barCount node p la + -(n : Int)) := by
    simp only [hl, Bool.false_eq_true, false_or]
    omega
  unfold State.barPiece State.barAdd
  dsimp only
  rw [if_neg h]
  rfl

/-! ## The operand (R217) -/

/-- An operand with a nonzero upper half, off M-space, or with a byte past its 4 MiB. -/
theorem barAddr_illegal (x : Word) (h : x.toNat / 2 ^ 29 ≠ 2 ∨ 4 * 2 ^ 20 < x.toNat % 2 ^ 29 + 16) : barAddr x = raise .illegalAddress x := by
  refine if_pos ?_
  have hx := x.isLt
  unfold fieldW fieldN
  omega

/-- An operand in M-space passes the checks of the space. -/
theorem barAddr_inSpace (x : Word) (hsp : x.toNat / 2 ^ 29 = 2) (hoff : x.toNat % 2 ^ 29 + 16 ≤ 4 * 2 ^ 20) :
    barAddr x = if x.toNat % 16 ≠ 0 then raise .misaligned x else .ok x.toNat := by
  have hla : fieldW x 0 32 = x.toNat := by
    unfold fieldW fieldN
    omega
  have h : ¬(fieldW x 32 32 ≠ 0 ∨ fieldN x.toNat 29 3 ≠ 2 ∨ 4 * 2 ^ 20 < fieldN x.toNat 0 29 + 16) := by
    unfold fieldW fieldN
    omega
  unfold barAddr
  dsimp only
  rw [hla, if_neg h]

/-- The part of a barrier instruction that all four share: a run-ahead helper drops it, and the operand is checked before any effect. -/
theorem exec_barrier (s : State) (d a n : Reg) (ph : Bool) (i : Instr) (hi : i ∈ [Instr.bbinit a, .bbexp a n, .bbwait a ph, .bbtest d a]) :
    ∃ body : Nat → Res, exec i s = finish i s (if s.c.ra then .ok s else barAddr (s.X a) >>= body) := by
  simp only [List.mem_cons, List.not_mem_nil, or_false] at hi
  obtain rfl | rfl | rfl | rfl := hi <;> exact ⟨_, rfl⟩

/-- An operand that its checks refuse: the trap, and no other effect. -/
theorem traps_of_barAddr (s : State) (d a n : Reg) (ph : Bool) (c : Cause) (hra : s.c.ra = false) (hb : barAddr (s.X a) = raise c (s.X a)) :
    ∀ i ∈ [Instr.bbinit a, .bbexp a n, .bbwait a ph, .bbtest d a], Traps i s c (s.X a) 0 := by
  intro i hi
  obtain ⟨body, hbody⟩ := exec_barrier s d a n ph i hi
  unfold Traps
  rw [hbody, hra, hb]
  rfl

/-- A run-ahead helper drops the four instructions. -/
theorem completes_of_ra (s : State) (d a n : Reg) (ph : Bool) (hra : s.c.ra = true) :
    ∀ i ∈ [Instr.bbinit a, .bbexp a n, .bbwait a ph, .bbtest d a], Completes i s (Leaves s) := by
  intro i hi
  obtain ⟨body, hbody⟩ := exec_barrier s d a n ph i hi
  unfold Completes
  rw [hbody, hra]
  exact finish_leaves i s s

/-! ## The four instructions, at an operand that passes -/

/-- An instruction that has made `u` of the machine completes with the memory and the X and V registers of `u`. -/
theorem completes_of_finish (i : Instr) (s u : State) (P : State → Prop) (he : exec i s = finish i s (.ok u))
    (hP : ∀ t : State, t.mem = u.mem → t.c.x = u.c.x → t.c.v = u.c.v → P t) : Completes i s P := by
  obtain ⟨t, ht, ⟨hmem, -⟩, hx, ⟨hv, -⟩, -⟩ := finish_leaves i s u
  exact ⟨t, he.trans ht, hP t hmem hx hv⟩

/-- BBINIT writes its 16 bytes at the port. -/
theorem exec_bbinit (s : State) (a : Reg) (la : Nat) (hra : s.c.ra = false) (hb : barAddr (s.X a) = .ok la) :
    exec (.bbinit a) s = finish (.bbinit a) s (.ok ((({ s with mem := memZero s.mem (spadAddr s.fnode s.pIdx la) 16 } : State).lostWordWrite
      (spadAddr s.fnode s.pIdx la) 16).portSeen s.fnode s.pIdx la 16)) := by
  show execBbinit a s = _
  unfold execBbinit
  rw [hra, hb]
  rfl

/-- BBEXP sets FAULT for an operand of 2^31 or more, and else adds it. -/
theorem exec_bbexp (s : State) (a n : Reg) (la : Nat) (hra : s.c.ra = false) (hb : barAddr (s.X a) = .ok la) :
    exec (.bbexp a n) s = finish (.bbexp a n) s (.ok (if 2 ^ 31 ≤ (s.X n).toNat then s.barFault s.fnode s.pIdx la
      else s.barAdd s.fnode s.pIdx la (s.X n).toNat none)) := by
  show execBbexp a n s = _
  unfold execBbexp
  rw [hra, hb]
  rfl

/-- BBTEST reads COUNT and word 1, unless their word is lost. -/
theorem exec_bbtest (s : State) (d a : Reg) (la : Nat) (hra : s.c.ra = false) (hb : barAddr (s.X a) = .ok la) :
    exec (.bbtest d a) s = finish (.bbtest d a) s (if s.barLost s.fnode s.pIdx la then raiseAcc .dataLost (s.X a) 0
      else .ok (s.setX d (BitVec.ofNat 64 (memRead s.mem (spadAddr s.fnode s.pIdx la) 4 * 2 ^ 32 + fieldN (s.barWord s.fnode s.pIdx la) 0 7)))) := by
  show execBbtest d a s = _
  unfold execBbtest
  rw [hra, hb]
  rfl

/-- BBWAIT to which the port has delivered no value of word 1 looks at its present value (R219). -/
theorem exec_bbwait (s : State) (a : Reg) (ph : Bool) (la : Nat) (hra : s.c.ra = false) (hbb : s.c.bb = none) (hb : barAddr (s.X a) = .ok la) :
    exec (.bbwait a ph) s = finish (.bbwait a ph) s (if s.barLost s.fnode s.pIdx la then raiseAcc .dataLost (s.X a) 0
      else if s.barWord s.fnode s.pIdx la / 2 % 2 = 1 then raise .engineFault (s.X a)
      else if s.barWord s.fnode s.pIdx la % 2 = ph.toNat then .ok s.acquire
      else .error (.wait .bbwait (s.setC { s.c with bb := some (la, ph, none) }))) := by
  show execBbwait a ph s = _
  unfold execBbwait
  rw [hra, hb, hbb]
  simp only [fieldN, Nat.pow_one, Nat.pow_zero, Nat.div_one]
  rfl

/-- R218: BBINIT clears the 16 bytes of the barrier, and no other byte. -/
theorem bbinit_clears (s : State) (a : Reg) (la : Nat) (hra : s.c.ra = false) (hb : barAddr (s.X a) = .ok la) (hwf : Memory.wf s.mem = true) :
    let A := spadAddr s.fnode s.pIdx la
    Completes (.bbinit a) s (fun t => t.c.x = s.c.x ∧ ∀ i, memGet t.mem i = if A ≤ i ∧ i < A + 16 then 0 else memGet s.mem i) := by
  intro A
  refine completes_of_finish _ s _ _ (exec_bbinit s a la hra hb) fun t hmem hx _ => ⟨?_, fun i => ?_⟩
  · rw [hx, portSeen_x, lostWordWrite_x, withMem_c]
  · have hmem' : t.mem = memZero s.mem A 16 := by rw [hmem, portSeen_mem, lostWordWrite_mem]
    rw [hmem']
    split
    · next h =>
      obtain ⟨hlo, hhi⟩ := h
      exact memGet_memZero_in _ _ _ _ hwf hlo hhi
    · next h => exact memGet_memZero_other _ _ _ _ hwf (by omega)

/-- Dropping lines from an L1 leaves the slot that its core issues from. -/
theorem forget_slot (q : CoreSt) (clock : Nat) (p : L1Line → Bool) : (q.forget clock p).slot = q.slot := by
  unfold CoreSt.forget
  induction q.l1.filter p generalizing q with
  | nil => rfl
  | cons l ls ih => exact ih (q.lose clock false l)

/-- An acquire drops copies from the L1 of its core, and leaves the issuing context. -/
theorem acquire_c (s : State) : s.acquire.c = s.c := by
  have hcur : s.acquire.cur = s.cur := by
    unfold State.cur State.acquire
    rw [setCC_cc, forget_slot]
    rfl
  unfold State.c
  rw [hcur]
  rfl

/-- What a stall makes of the issuing context. -/
theorem stall_ctx (u : State) (w : Wait) :
    ((u.stall w).ctx u.cur).st = .stalled ∧ ((u.stall w).ctx u.cur).wait = some w ∧ ((u.stall w).ctx u.cur).pc = u.c.pc := by
  have h : (u.stall w).ctx u.cur =
      { u.c with st := .stalled, wait := some w, surveyed := u.c.surveyed.map (fun e => (e.1, false)) } := setC_c u _
  rw [h]
  exact ⟨rfl, rfl, rfl⟩

/-- Holding the words of an instruction keeps PC. -/
theorem holdWords_pc (s : State) (i : Instr) : (s.holdWords i).c.pc = s.c.pc := by
  unfold State.holdWords
  split
  · rfl
  · rw [setC_c]

theorem holdWords_cur (s : State) (i : Instr) : (s.holdWords i).cur = s.cur := by
  unfold State.holdWords
  split <;> rfl

theorem holdWords_mem (s : State) (i : Instr) : (s.holdWords i).mem = s.mem := by
  unfold State.holdWords
  split <;> rfl

/-- A stalled instruction: its slot waits with its PC as it was, and memory stays. -/
theorem waits_of_finish (i : Instr) (s u : State) (w : Wait) (he : exec i s = finish i s (.error (.wait w u))) (hcur : u.cur = s.cur)
    (hpc : u.c.pc = s.c.pc) (hmem : u.mem = s.mem) : Waits i s w := by
  obtain ⟨hst, hw, hpc'⟩ := stall_ctx (u.holdWords i) w
  rw [holdWords_cur, hcur] at hst hw hpc'
  exact ⟨_, he, hst, hw, hpc'.trans ((holdWords_pc u i).trans hpc), (holdWords_mem u i).trans hmem⟩

/-! ## The clauses of the statement -/

/-- R218: BBEXP, by the three cases of its sum. -/
theorem bbexp_updates (s : State) (a n : Reg) (la : Nat) (hra : s.c.ra = false) (hb : barAddr (s.X a) = .ok la) (hwf : Memory.wf s.mem = true)
    (hl : s.barLost s.fnode s.pIdx la = false) :
    let A := spadAddr s.fnode s.pIdx la
    let count := s.barCount s.fnode s.pIdx la
    let w := s.barWord s.fnode s.pIdx la
    Completes (.bbexp a n) s (fun t => t.c.x = s.c.x ∧ (∀ i, i < A ∨ A + 8 ≤ i → memGet t.mem i = memGet s.mem i) ∧
      ((s.X n).toNat < 2 ^ 31 → count + (s.X n).toNat ≤ 2 ^ 31 - 1 → count + (s.X n).toNat ≠ 0 →
        signedN (memRead t.mem A 4) 32 = count + (s.X n).toNat ∧ memRead t.mem (A + 4) 4 = w ||| 4) ∧
      ((s.X n).toNat < 2 ^ 31 → count + (s.X n).toNat = 0 → memRead t.mem A 4 = 0 ∧
        (let w' := memRead t.mem (A + 4) 4; w' % 2 = 1 - w % 2 ∧ w' / 2 % 2 = w / 2 % 2 ∧ w' / 4 % 2 = 0 ∧ w' / 8 = w / 8)) ∧
      (2 ^ 31 ≤ (s.X n).toNat ∨ 2 ^ 31 - 1 < count + (s.X n).toNat →
        signedN (memRead t.mem A 4) 32 = count ∧ memRead t.mem (A + 4) 4 = w ||| 2)) := by
  intro A count w
  obtain ⟨hlo, -⟩ : -2 ^ 31 ≤ count ∧ _ := barCount_bounds s s.fnode s.pIdx la
  by_cases hfault : 2 ^ 31 ≤ (s.X n).toNat ∨ 2 ^ 31 - 1 < count + (s.X n).toNat
  · have he : exec (.bbexp a n) s = finish (.bbexp a n) s (.ok (s.barFault s.fnode s.pIdx la)) := by
      rw [exec_bbexp s a n la hra hb]
      split
      · rfl
      · rw [barAdd_overflow _ _ _ _ _ _ (by omega)]
    refine completes_of_finish _ s _ _ he fun t hmem hx _ => ?_
    rw [hmem]
    obtain ⟨hcount, hword⟩ := barFault_reads s s.fnode s.pIdx la hwf
    exact ⟨hx.trans (barFault_x ..), fun i hi => barFault_frame _ _ _ _ _ hwf hi, by omega, by omega, fun _ => ⟨by rw [hcount]; rfl, hword⟩⟩
  · have he : exec (.bbexp a n) s = finish (.bbexp a n) s (.ok (s.barSet s.fnode s.pIdx la (count + (s.X n).toNat)
        (settled (w ||| 4) (count + (s.X n).toNat)))) := by
      rw [exec_bbexp s a n la hra hb, if_neg (by omega), barAdd_bbexp _ _ _ _ _ hl (by omega) (by omega)]
    refine completes_of_finish _ s _ _ he fun t hmem hx _ => ?_
    obtain ⟨hhigh, hlow⟩ := or_four w
    have hw4 : w ||| 4 < 2 ^ 32 := Nat.or_lt_two_pow (barWord_lt ..) (by decide)
    obtain ⟨hcount, hword⟩ := barSet_reads s s.fnode s.pIdx la _ (count + (s.X n).toNat) hwf (settled_lt _ (count + (s.X n).toNat) hw4)
    rw [hmem, hcount, hword]
    refine ⟨hx.trans (barSet_x ..), fun i hi => barSet_frame _ _ _ _ _ _ _ hwf hi, fun _ hhi hne => ⟨?_, ?_⟩, fun _ h0 => ?_, by omega⟩
    · exact signedN_ofInt _ (by omega) hhi
    · exact if_neg fun h => hne h.2
    · have hsettled : settled (w ||| 4) (count + (s.X n).toNat) = ((w ||| 4) ^^^ 1) - 4 := if_pos ⟨by omega, h0⟩
      obtain ⟨hphase, hfault, harmed, hrest⟩ := flip_fields (w ||| 4) (by omega)
      rw [hsettled, h0]
      exact ⟨rfl, by omega, by omega, harmed, by omega⟩

/-- R220, R185: BBTEST of a barrier that can be read, and of one that cannot. -/
theorem bbtest_reads (s : State) (d a : Reg) (la : Nat) (hra : s.c.ra = false) (hb : barAddr (s.X a) = .ok la) :
    (s.barLost s.fnode s.pIdx la = false → Completes (.bbtest d a) s (ResultX d
      (BitVec.ofNat 64 (memRead s.mem (spadAddr s.fnode s.pIdx la) 4 * 2 ^ 32 + s.barWord s.fnode s.pIdx la % 128)) s)) ∧
    (s.barLost s.fnode s.pIdx la = true → Traps (.bbtest d a) s .dataLost (s.X a) 0) := by
  have he := exec_bbtest s d a la hra hb
  refine ⟨fun hl => ?_, fun hl => ?_⟩ <;> rw [hl] at he
  · have hfld : fieldN (s.barWord s.fnode s.pIdx la) 0 7 = s.barWord s.fnode s.pIdx la % 128 := by unfold fieldN; omega
    rw [hfld] at he
    obtain ⟨t, ht, hres⟩ := writeX_result (.bbtest d a) d
      (BitVec.ofNat 64 (memRead s.mem (spadAddr s.fnode s.pIdx la) 4 * 2 ^ 32 + s.barWord s.fnode s.pIdx la % 128)) s
    exact ⟨t, he.trans ht, hres⟩
  · exact he

/-- R215: a piece lowers COUNT, raises SCOPE, and completes the phase of an armed barrier whose COUNT it brings to 0. -/
theorem barPiece_updates (s : State) (node p la n sc : Nat) (hwf : Memory.wf s.mem = true) (hsc : sc < 8)
    (hl : s.barLost node p la = false) (hlo : -2 ^ 31 ≤ s.barCount node p la - n) :
    let A := spadAddr node p la
    let count := s.barCount node p la
    let w := s.barWord node p la
    let t := s.barPiece node p la n sc
    signedN (memRead t.mem A 4) 32 = count - n ∧
    (let w' := memRead t.mem (A + 4) 4
     w' / 128 = w / 128 ∧ w' % 16 / 8 = w % 16 / 8 ∧ w' / 2 % 2 = w / 2 % 2 ∧ w' / 16 % 8 = max (w / 16 % 8) sc ∧
     (w / 4 % 2 = 1 → count = n → w' % 2 = 1 - w % 2 ∧ w' / 4 % 2 = 0) ∧
     (w / 4 % 2 = 0 ∨ count ≠ n → w' % 2 = w % 2 ∧ w' / 4 % 2 = w / 4 % 2)) := by
  intro A count w t
  obtain ⟨-, hhi⟩ : _ ∧ count ≤ 2 ^ 31 - 1 := barCount_bounds s node p la
  obtain ⟨hlow, hscope, hhigh⟩ := withScope_fields w sc hsc
  have hscoped : withScope w sc < 2 ^ 32 := by
    have := barWord_lt s node p la
    omega
  have ht : t = s.barSet node p la (count - n) (settled (withScope w sc) (count - n)) := barPiece_fits s node p la n sc hl hlo
  obtain ⟨hcount, hword⟩ := barSet_reads s node p la _ (count - n) hwf (settled_lt _ (count - n) hscoped)
  rw [ht, hcount, hword]
  refine ⟨signedN_ofInt _ hlo (by omega), ?_⟩
  by_cases hflip : withScope w sc / 4 % 2 = 1 ∧ count - n = 0
  · obtain ⟨hphase, hfault, harmed, hrest⟩ := flip_fields (withScope w sc) hflip.1
    rw [show settled _ _ = _ from if_pos hflip]
    exact ⟨by omega, by omega, by omega, by omega, fun _ _ => ⟨by omega, harmed⟩, fun h => by omega⟩
  · rw [show settled _ _ = _ from if_neg hflip]
    dsimp only
    omega

/-- R219, R185: BBWAIT, by what word 1 holds on entry. -/
theorem bbwait_cases (s : State) (a : Reg) (ph : Bool) (la : Nat) (hra : s.c.ra = false) (hbb : s.c.bb = none)
    (hb : barAddr (s.X a) = .ok la) :
    let w := s.barWord s.fnode s.pIdx la
    let lost := s.barLost s.fnode s.pIdx la
    (lost = false → w / 2 % 2 = 0 → w % 2 = ph.toNat → Completes (.bbwait a ph) s (fun t => t.c.x = s.c.x ∧ t.c.v = s.c.v ∧ t.mem = s.mem)) ∧
    (lost = false → w / 2 % 2 = 1 → Traps (.bbwait a ph) s .engineFault (s.X a) 0) ∧
    (lost = false → w / 2 % 2 = 0 → w % 2 ≠ ph.toNat → Waits (.bbwait a ph) s .bbwait) ∧
    (lost = true → Traps (.bbwait a ph) s .dataLost (s.X a) 0) := by
  intro w lost
  have he := exec_bbwait s a ph la hra hbb hb
  refine ⟨fun hl hf hp => ?_, fun hl hf => ?_, fun hl hf hp => ?_, fun hl => ?_⟩
  · rw [if_neg (by simpa using hl), if_neg (by omega), if_pos hp] at he
    exact completes_of_finish _ s _ _ he fun t hmem hx hv => ⟨by rw [hx, acquire_c], by rw [hv, acquire_c], hmem⟩
  · rw [if_neg (by simpa using hl), if_pos hf] at he
    exact he
  · rw [if_neg (by simpa using hl), if_neg (by omega), if_neg hp] at he
    exact waits_of_finish _ s _ _ he rfl (by rw [setC_c]) rfl
  · rw [if_pos hl] at he
    exact he

/-- Settles O22: each clause is a case of the operand's checks (R217), of an update of R215, or of what BBTEST and BBWAIT read. Two details are
the model's own: ACC 0 in the traps of a barrier address (log entry 8), and the bare operand as TVAL of DATA_LOST. -/
theorem byteBarriers : Obligations.ByteBarriers := by
  unfold Obligations.ByteBarriers
  refine ⟨?_, ?_, ?_⟩
  · rintro s d a n ph la rfl
    refine ⟨completes_of_ra s d a n ph, fun hra h => traps_of_barAddr s d a n ph _ hra (barAddr_illegal _ h), ?_, ?_⟩
    · intro hra hsp hoff hal
      exact traps_of_barAddr s d a n ph _ hra ((barAddr_inSpace _ hsp hoff).trans (if_pos hal))
    · intro hra hwf hsp hoff hal
      have hb : barAddr (s.X a) = .ok (s.X a).toNat := (barAddr_inSpace _ hsp hoff).trans (if_neg (not_not.mpr hal))
      have hexp := bbexp_updates s a n _ hra hb hwf
      have htest := bbtest_reads s d a _ hra hb
      rw [barWord_eq] at hexp htest
      exact ⟨bbinit_clears s a _ hra hb hwf, hexp, htest⟩
  · intro s node p la n sc hwf hsc _ A count w t hl hlo
    exact barPiece_updates s node p la n sc hwf hsc hl hlo
  · rintro s a ph la hra hbb rfl hsp hoff hal
    exact bbwait_cases s a ph _ hra hbb ((barAddr_inSpace _ hsp hoff).trans (if_neg (not_not.mpr hal)))

end Sys2Proof.Barriers
end

section
/-! LOOP (R270 to R272): what the context is after a LOOP with a count, and the one case in which its loop does not start. -/

namespace Sys2Proof.Loops
open Sys2Proof Sys2Proof.Machine Sys2Proof.Safety

/-- The context in which LOOP has set up a body of `l` words, before control goes to the first of them (R271). -/
def setUp (c : Ctx) (l : BitVec 14) (n : Word) : Ctx :=
  { c with lstart := c.pc + 4, lend := c.pc + 4 * l.zeroExtend 64, lrem := n, loopActive := true }

/-- LOOP with a count ends as a transfer of control to the first word of the body. -/
theorem exec_loop_count (s : State) (r : Reg) (l : BitVec 14) (hfree : s.c.loopActive = false) (hl : l ≠ 0) (hn : s.X r ≠ 0) :
    exec (.loop r l) s = .next ((s.setC (setUp s.c l (s.X r))).retireTo (s.c.pc + 4)) := by
  have hlegal : ¬(s.c.loopActive = true ∨ l = 0) := not_or.mpr ⟨by simp [hfree], hl⟩
  show execLoop r l s = _
  unfold execLoop
  dsimp only
  rw [if_neg hlegal, if_neg hn]
  rfl

/-- After a transfer of control the loop is active when it was and the target lies inside its body (R272). -/
theorem retireTo_loopActive (u : State) (w : Word) :
    (u.retireTo w).c.loopActive = (u.c.loopActive && decide (u.c.lstart.toNat ≤ w.toNat ∧ w.toNat ≤ u.c.lend.toNat)) := by
  unfold State.retireTo
  rw [complete_c]
  rfl

/-- After LOOP with a count the loop is active exactly when the address of the body's last word does not lie below that of its first: a body that
runs over the top of the address space is no interval [LSTART, LEND], and the transfer to its first word makes the loop inactive. -/
theorem loop_active_iff (s : State) (r : Reg) (l : BitVec 14) (hfree : s.c.loopActive = false) (hl : l ≠ 0) (hn : s.X r ≠ 0) :
    Completes (.loop r l) s (fun t => t.c.loopActive = true) ↔ (s.c.pc + 4).toNat ≤ (s.c.pc + 4 * l.zeroExtend 64).toNat := by
  have hactive : ((s.setC (setUp s.c l (s.X r))).retireTo (s.c.pc + 4)).c.loopActive =
      decide ((s.c.pc + 4).toNat ≤ (s.c.pc + 4 * l.zeroExtend 64).toNat) := by
    rw [retireTo_loopActive, setC_c]
    simp [setUp]
  unfold Completes
  rw [exec_loop_count s r l hfree hl hn]
  simp only [Host.Outcome.next.injEq, exists_eq_left', hactive, decide_eq_true_eq]

/-- The last but one word of the address space, which is canonical (R98), with a trip count of 1 in X(1). -/
def atTop : State := State.reset.setC ({ State.reset.c with pc := 0xFFFFFFFFFFFFFFF8 }.setX 1 1)

/-- The state meets every hypothesis of the statement's first clause, for `loop x1` with a body of two words: the last word of the address space and word 0. -/
theorem atTop_legal : isCanonical atTop.c.pc.toNat = true ∧ isAperture atTop.c.pc.toNat = false ∧ atTop.pfx = none ∧
    atTop.c.loopActive = false ∧ atTop.X 1 ≠ 0 ∧ ¬(atTop.c.pc + 4).toNat ≤ (atTop.c.pc + 4 * (2 : BitVec 14).zeroExtend 64).toNat := by
  decide +kernel

/-- Refutes O11: a LOOP at 0xFFFF_FFFF_FFFF_FFF8 with two words and a count of 1 leaves no active loop, because its body wraps and LEND is 0; R271 has
the loop active there too. -/
theorem not_loopInstructionAndLoopEnd : ¬ Obligations.LoopInstructionAndLoopEnd := by
  unfold Obligations.LoopInstructionAndLoopEnd
  rintro ⟨hloop, -⟩
  obtain ⟨-, -, hpfx, hfree, hcount, hwraps⟩ := atTop_legal
  obtain ⟨hstarts, -⟩ := hloop atTop 1 2 hpfx
  obtain ⟨t, ht, -, -, -, hactive, -⟩ := hstarts hfree (by decide) hcount
  exact hwraps ((loop_active_iff atTop 1 2 hfree (by decide) hcount).mp ⟨t, ht, hactive⟩)

end Sys2Proof.Loops
end

section
/-! CSR access (R273 to R275): the three instructions as one access, and that access by the context's right to the register. -/

namespace Sys2Proof.CsrAccess
open Sys2Proof Sys2Proof.Machine Sys2Proof.Safety

/-! ## The shared access, by its cases -/

/-- A CSR address that R231 does not list. -/
theorem csrAccess_unlisted (i : Instr) (n : Nat) (w : Bool) (f : Word → Word) (d : Reg) (c : BitVec 12) (s : State) (hc : csrAt c.toNat = none) :
    csrAccess i n w f d c s = finish i s (raise .illegalInstr (wordOf n)) := by
  unfold csrAccess
  rw [hc]

section
variable (i : Instr) (n : Nat) (w : Bool) (f : Word → Word) (d : Reg) (c : BitVec 12) (s : State) (r : Csr) (hc : csrAt c.toNat = some r)
include hc

/-- A register hidden from the context. -/
theorem csrAccess_hidden (hr : r.right s.sys = .hidden) : csrAccess i n w f d c s = finish i s (raise .privilege (wordOf n)) := by
  simp only [csrAccess, hc, hr]

/-- A read of a register that the context may read only. -/
theorem csrAccess_read (hr : r.right s.sys = .read) (hw : w = false) : csrAccess i n w f d c s = writeX i d (s.csrRead r) s := by
  simp only [csrAccess, hc, hr, hw, Bool.false_eq_true, if_false]

/-- A write of such a register. -/
theorem csrAccess_readOnly (hr : r.right s.sys = .read) (hw : w = true) : csrAccess i n w f d c s =
    finish i s (raise (if (r = .asid ∨ r = .ptroot) ∧ s.sys = false then .privilege else .illegalInstr) (wordOf n)) := by
  simp only [csrAccess, hc, hr, hw, if_true, Bool.not_eq_true']

/-- An access with the right to read and write that is no write of INSTRET. -/
theorem csrAccess_write (hr : r.right s.sys = .readWrite) (hi : r ≠ .instret ∨ w = false) : csrAccess i n w f d c s =
    finish i s (.ok ((if w && !s.c.ra then s.csrWrite r (f (s.csrRead r)) else s).setX d (s.csrRead r))) := by
  have hcount : ¬((w && r == .instret) = true) := by
    rcases hi with hi | hi <;> simp [hi]
  simp only [csrAccess, hc, hr]
  exact if_neg hcount

end

/-- A write of INSTRET completes without the count of the instruction itself (R275). -/
theorem csrAccess_writeInstret (i : Instr) (n : Nat) (f : Word → Word) (d : Reg) (c : BitVec 12) (s : State) (hc : csrAt c.toNat = some .instret)
    (hr : Csr.right .instret s.sys = .readWrite) (hra : s.c.ra = false) :
    let u := (s.csrWrite .instret (f (s.csrRead .instret))).setX d (s.csrRead .instret)
    csrAccess i n true f d c s = .next (u.complete (u.c.advance (instrBytes s i) false) false) := by
  simp only [csrAccess, hc, hr, hra]
  rfl

/-! ## The three instructions as one access -/

/-- CSRRW, CSRRS and CSRRC: the instruction, whether it writes, and the value it writes from the old one and X(rs1) (R274). -/
def csrForms (d a : Reg) (c : BitVec 12) : List (Instr × Bool × (Word → Word → Word)) :=
  [(.csrrw d a c, true, fun _ x => x), (.csrrs d a c, a != 0, fun old x => old ||| x), (.csrrc d a c, a != 0, fun old x => old &&& ~~~x)]

/-- The word that a trap of an access holds is the instruction's own (R273). -/
theorem csrWord_eq_encodeFirst (d a : Reg) (c : BitVec 12) : csrWord 0 d a c = encodeFirst (.csrrw d a c) ∧
    csrWord 1 d a c = encodeFirst (.csrrs d a c) ∧ csrWord 2 d a c = encodeFirst (.csrrc d a c) := by
  have hrw : encodeFirst (.csrrw d a c) = 0x7C + d.toNat * 2 ^ 8 + a.toNat * 2 ^ 13 + c.toNat * 2 ^ 18 := rfl
  have hrs : encodeFirst (.csrrs d a c) = 0x4000007C + d.toNat * 2 ^ 8 + a.toNat * 2 ^ 13 + c.toNat * 2 ^ 18 := rfl
  have hrc : encodeFirst (.csrrc d a c) = 0x8000007C + d.toNat * 2 ^ 8 + a.toNat * 2 ^ 13 + c.toNat * 2 ^ 18 := rfl
  unfold csrWord
  omega

/-- Each of the three is the access with its own word. -/
theorem exec_csrForms (s : State) (d a : Reg) (c : BitVec 12) :
    ∀ e ∈ csrForms d a c, exec e.1 s = csrAccess e.1 (encodeFirst e.1) e.2.1 (fun old => e.2.2 old (s.X a)) d c s := by
  obtain ⟨hrw, hrs, hrc⟩ := csrWord_eq_encodeFirst d a c
  simp only [csrForms, List.forall_mem_cons, List.not_mem_nil, false_imp_iff, implies_true, and_true]
  rw [← hrw, ← hrs, ← hrc]
  refine ⟨?_, ?_, ?_⟩
  · show execCsrrw d a c s = _
    rfl
  · show execCsrrs d a c s = _
    rfl
  · show execCsrrc d a c s = _
    rfl

section
variable {s : State} {d a : Reg} {c : BitVec 12} {e : Instr × Bool × (Word → Word → Word)} (he : e ∈ csrForms d a c)
include he

/-- An unlisted address is illegal. -/
theorem traps_unlisted (hc : csrAt c.toNat = none) : Traps e.1 s .illegalInstr (BitVec.ofNat 64 (encodeFirst e.1)) 0 :=
  (exec_csrForms s d a c e he).trans (csrAccess_unlisted _ _ _ _ _ _ _ hc)

variable {r : Csr} (hc : csrAt c.toNat = some r)
include hc

/-- A hidden register raises PRIVILEGE. -/
theorem traps_hidden (hr : r.right s.sys = .hidden) : Traps e.1 s .privilege (BitVec.ofNat 64 (encodeFirst e.1)) 0 :=
  (exec_csrForms s d a c e he).trans (csrAccess_hidden _ _ _ _ _ _ _ _ hc hr)

/-- A write of a read-only register traps, with the cause that R274 gives it. -/
theorem traps_readOnly (hr : r.right s.sys = .read) (hw : e.2.1 = true) :
    Traps e.1 s (if (r = .asid ∨ r = .ptroot) ∧ s.sys = false then .privilege else .illegalInstr) (BitVec.ofNat 64 (encodeFirst e.1)) 0 :=
  (exec_csrForms s d a c e he).trans (csrAccess_readOnly _ _ _ _ _ _ _ _ hc hr hw)

/-- A read of a read-only register has X(rd) as its one effect. -/
theorem completes_read (hr : r.right s.sys = .read) (hw : e.2.1 = false) : Completes e.1 s (ResultX d (s.csrRead r) s) := by
  obtain ⟨t, ht, hres⟩ := writeX_result e.1 d (s.csrRead r) s
  exact ⟨t, (exec_csrForms s d a c e he).trans ((csrAccess_read _ _ _ _ _ _ _ _ hc hr hw).trans ht), hres⟩

/-- An access that is no write of INSTRET writes the CSR, unless it does not write or a run-ahead helper makes it, and X(rd), and retires. -/
theorem completes_write (hr : r.right s.sys = .readWrite) (hi : r ≠ .instret ∨ e.2.1 = false) : Completes e.1 s
    (Leaves ((if e.2.1 && !s.c.ra then s.csrWrite r (e.2.2 (s.csrRead r) (s.X a)) else s).setX d (s.csrRead r))) := by
  obtain ⟨t, ht, hleaves⟩ := finish_leaves e.1 s
    ((if e.2.1 && !s.c.ra then s.csrWrite r (e.2.2 (s.csrRead r) (s.X a)) else s).setX d (s.csrRead r))
  exact ⟨t, (exec_csrForms s d a c e he).trans ((csrAccess_write _ _ _ _ _ _ _ _ hc hr hi).trans ht), hleaves⟩

end

/-- Completing without the count leaves what the instruction made of the machine, INSTRET included. -/
theorem uncounted_complete (u : State) (c : Ctx) (hx : c.x = u.c.x) (hs : SameButX u.c c) (hi : c.instret = u.c.instret) :
    OnlyContext u (u.complete c false) ∧ (u.complete c false).c.x = u.c.x ∧ SameButX u.c (u.complete c false).c ∧
      (u.complete c false).c.instret = u.c.instret := by
  refine ⟨onlyContext_complete u c false, ?_, ?_, ?_⟩ <;> rw [complete_c]
  · exact hx
  · exact hs
  · exact hi

/-- INSTRET holds what was written when X(rd) has been written too. -/
theorem instret_csrWrite_setX (s : State) (w v : Word) (d : Reg) : ((s.csrWrite .instret w).setX d v).c.instret = w := by
  rw [setX_c, ctx_setX_instret]
  show (s.setC { s.c with instret := w }).c.instret = w
  rw [setC_c]

/-- A write of INSTRET leaves it as written, and the rest as the two writes made it (R275). -/
theorem completes_writeInstret {s : State} {d a : Reg} {c : BitVec 12} {e : Instr × Bool × (Word → Word → Word)} (he : e ∈ csrForms d a c)
    (hc : csrAt c.toNat = some .instret) (hr : Csr.right .instret s.sys = .readWrite) (hw : e.2.1 = true) (hra : s.c.ra = false) :
    let w := e.2.2 (s.csrRead .instret) (s.X a)
    let u := (s.csrWrite .instret w).setX d (s.csrRead .instret)
    Completes e.1 s (fun t => OnlyContext u t ∧ t.c.x = u.c.x ∧ SameButX u.c t.c ∧ t.c.instret = w) := by
  intro w u
  have hexec := exec_csrForms s d a c e he
  rw [hw] at hexec
  obtain ⟨honly, hx, hsame, hinstret⟩ := uncounted_complete u (u.c.advance (instrBytes s e.1) false) (advance_x ..) (sameButX_advance ..)
    (advance_instret ..)
  exact ⟨_, hexec.trans (csrAccess_writeInstret e.1 _ _ d c s hc hr hra), honly, hx, hsame, hinstret.trans (instret_csrWrite_setX s w _ d)⟩

/-- Settles O12: each clause is a case of the shared access, for each of the three instructions. -/
theorem csrAccessReadsWritesAndTraps : Obligations.CsrAccessReadsWritesAndTraps := by
  unfold Obligations.CsrAccessReadsWritesAndTraps
  refine ⟨fun s d a c r hc => ⟨fun hr => ?_, fun hr => ?_⟩, fun s d a c => ⟨fun hc => ?_, fun r hc hr => ?_, fun r hc hr => ?_⟩⟩
  · show ∀ e ∈ (csrForms d a c).map (fun e => (e.1, e.2.1, e.2.2 (s.csrRead r) (s.X a))), _
    rw [List.forall_mem_map]
    refine fun e he => ⟨completes_write he hc hr, ?_⟩
    rintro rfl hw hra
    have hwrites : (e.2.1 && !s.c.ra) = true := by rw [hw, hra]; rfl
    dsimp only
    rw [if_pos hwrites]
    exact completes_writeInstret he hc hr hw hra
  · have hreads : ∀ e ∈ csrForms d 0 c, e.2.1 = false → Completes e.1 s (ResultX d (s.csrRead r) s) := fun e he => completes_read he hc hr
    simp only [csrForms, List.forall_mem_cons] at hreads
    obtain ⟨-, hrs, hrc, -⟩ := hreads
    exact ⟨hrs rfl, hrc rfl⟩
  · show ∀ i ∈ (csrForms d a c).map (fun e => e.1), _
    rw [List.forall_mem_map]
    exact fun e he => traps_unlisted he hc
  · show ∀ i ∈ (csrForms d a c).map (fun e => e.1), _
    rw [List.forall_mem_map]
    exact fun e he => traps_hidden he hc hr
  · show ∀ e ∈ (csrForms d a c).map (fun e => (e.1, e.2.1)), _
    rw [List.forall_mem_map]
    exact fun e he => traps_readOnly he hc hr

end Sys2Proof.CsrAccess
end

section
/-! The trap group (R420 to R425): who may execute its members, what each of them answers by its cases, and what a slot that
goes on gets back with its locks. -/

namespace Sys2Proof.TrapGroup
open Sys2Proof Sys2Proof.Machine Sys2Proof.Safety

/-! ## Privilege (R420) -/

/-- The system context executes a member of the group. -/
theorem sysOnly_of_sys {s : State} (i : Instr) (word : Nat) (o : Out) (h : s.sys = true) : sysOnly i word s o = o := if_pos h

/-- In a user context it raises PRIVILEGE. -/
theorem sysOnly_of_user {s : State} (i : Instr) (word : Nat) (o : Out) (h : s.sys = false) :
    sysOnly i word s o = finish i s (raise .privilege (wordOf word)) :=
  if_neg (by simp [h])

/-- The words that WFE and RESUME give their traps are their own. -/
theorem trapWord_eq_encodeFirst (d m : Reg) :
    0x01000078 + m.toNat * 2 ^ 13 + d.toNat * 2 ^ 8 = encodeFirst (.wfe d m) ∧
    0x02800078 + m.toNat * 2 ^ 13 + d.toNat * 2 ^ 8 = encodeFirst (.resume d m) :=
  ⟨Nat.add_right_comm _ _ _, Nat.add_right_comm _ _ _⟩

/-- WFE, RESUME, ERET and HALT are for the system context alone, each with its own word. -/
theorem exec_sysOnly (s : State) (d m : Reg) :
    ∀ i ∈ [Instr.wfe d m, .resume d m, .eret, .halt], ∃ o, exec i s = sysOnly i (encodeFirst i) s o := by
  obtain ⟨hwfe, hresume⟩ := trapWord_eq_encodeFirst d m
  simp only [List.forall_mem_cons, List.not_mem_nil, false_imp_iff, implies_true, and_true]
  rw [← hwfe, ← hresume]
  refine ⟨?_, ?_, ?_, ?_⟩
  · show ∃ o, execWfe d m s = _
    exact ⟨_, rfl⟩
  · show ∃ o, execResume d m s = _
    exact ⟨_, rfl⟩
  · show ∃ o, execEret s = _
    exact ⟨_, rfl⟩
  · show ∃ o, execHalt s = _
    exact ⟨_, rfl⟩

/-- In a user context each of them raises PRIVILEGE with its word. -/
theorem traps_privilege (s : State) (d m : Reg) (hsys : s.sys = false) :
    ∀ i ∈ [Instr.wfe d m, .resume d m, .eret, .halt], Traps i s .privilege (BitVec.ofNat 64 (encodeFirst i)) 0 := by
  intro i hi
  obtain ⟨o, ho⟩ := exec_sysOnly s d m i hi
  exact ho.trans (sysOnly_of_user i _ o hsys)

/-! ## TRAP and BRK (R421) -/

theorem traps_trap (s : State) (a : Reg) : Traps (.trap a) s .trapInstr (s.X a) 0 := by
  show execTrap a s = _
  rfl

theorem traps_brk (s : State) : Traps .brk s .breakpoint 0x02000078 0 := by
  show execBrk s = _
  rfl

/-! ## HALT (R425) -/

/-- The core switches by its slot and its count alone. -/
theorem switchSlot_core (s : State) (n k : Nat) : ∃ j, (s.switchSlot n k).core n k = { s.core n k with slot := j, run := 0 } :=
  ⟨_, setCore_core_same ..⟩

/-- A machine check of KIND 3 stops slot 11. -/
theorem machineCheck_stopped (s : State) (n k : Nat) (m : MCheck) (hkind : m.kind = 3) :
    ((s.machineCheck n k m).core n k).stopped = true := by
  simp [State.machineCheck, hkind]

/-- Its record is written when none stands. -/
theorem machineCheck_record (s : State) (n k : Nat) (m : MCheck) (hvalid : (s.core n k).mcheck.valid = false) :
    ((s.machineCheck n k m).core n k).mcheck = m := by
  simp only [State.machineCheck, hvalid, Bool.false_eq_true, if_false, setCore_core_same]
  split <;> rfl

/-- HALT in the system context writes its machine check, and the core goes on to its next slot. -/
theorem exec_halt (s : State) (hsys : s.sys = true) : exec .halt s =
    .next { (s.machineCheck s.fnode s.fcore ⟨true, 0, 11, 3, 0, s.c.pc, 0⟩).switchSlot s.fnode s.fcore with pfx := none, idle := false } := by
  show execHalt s = _
  exact sysOnly_of_sys _ _ _ hsys

/-- HALT stops slot 11 and leaves its record, registers and memory. -/
theorem halt_stops (s : State) (hsys : s.sys = true) : Completes .halt s (fun t => (t.core s.fnode s.fcore).stopped = true ∧ t.mem = s.mem ∧
    (s.cc.mcheck.valid = false → (t.core s.fnode s.fcore).mcheck = ⟨true, 0, 11, 3, 0, s.c.pc, 0⟩) ∧ (t.ctx s.cur).x = s.c.x) := by
  obtain ⟨j, hcore⟩ := switchSlot_core (s.machineCheck s.fnode s.fcore ⟨true, 0, 11, 3, 0, s.c.pc, 0⟩) s.fnode s.fcore
  refine ⟨_, exec_halt s hsys, ?_, rfl, fun hvalid => ?_, rfl⟩
  · exact (congrArg CoreSt.stopped hcore).trans (machineCheck_stopped _ _ _ _ rfl)
  · exact (congrArg CoreSt.mcheck hcore).trans (machineCheck_record _ _ _ _ hvalid)

/-- Settles O16: TRAP and BRK are their traps, the four system members share the privilege test, and HALT makes its machine check. -/
theorem trapBrkHaltAndPrivilege : Obligations.TrapBrkHaltAndPrivilege := by
  unfold Obligations.TrapBrkHaltAndPrivilege
  exact ⟨fun s a => ⟨traps_trap s a, traps_brk s⟩, traps_privilege, halt_stops⟩

/-! ## A waiter of a lock comes back (R170) -/

/-- Of the machine only the locks, and of the context `id` only its lock reply and its unreported breaks, differ. -/
structure LockReturned (id : CtxId) (s t : State) : Prop where
  rest : t = { s with locks := t.locks, ctxs := t.ctxs }
  other : ∀ i, i ≠ id → t.ctx i = s.ctx i
  own : ∃ r h, t.ctx id = { s.ctx id with lockReply := r, holdBreaks := h }

/-- A change of the locks. -/
theorem lockReturned_of_locks (id : CtxId) {s t : State} (h : t = { s with locks := t.locks }) : LockReturned id s t := by
  have hctxs : t.ctxs = s.ctxs := by rw [h]
  have hctx : ∀ i, t.ctx i = s.ctx i := fun i => by unfold State.ctx; rw [hctxs]
  exact ⟨by rw [hctxs]; exact h, fun i _ => hctx i, ⟨_, _, hctx id⟩⟩

/-- A change of the context. -/
theorem lockReturned_setCtx (id : CtxId) (s : State) {c : Ctx} (h : ∃ r h, c = { s.ctx id with lockReply := r, holdBreaks := h }) :
    LockReturned id s (s.setCtx id c) :=
  ⟨rfl, fun i hi => setCtx_ctx_other s id i c hi, by rwa [setCtx_ctx_same]⟩

/-- One change after another. -/
theorem LockReturned.trans {id : CtxId} {s t u : State} (h : LockReturned id s t) (k : LockReturned id t u) : LockReturned id s u := by
  obtain ⟨r, b, ht⟩ := h.own
  obtain ⟨r', b', hu⟩ := k.own
  refine ⟨?_, fun i hi => (k.other i hi).trans (h.other i hi), ⟨r', b', ?_⟩⟩
  · exact k.rest.trans (congrArg (fun v : State => { v with locks := u.locks, ctxs := u.ctxs }) h.rest)
  · rw [hu, ht]

/-- The home's answer to the context. -/
theorem lockReturned_lockReplyTo (id : CtxId) (s : State) (line status : Nat) : LockReturned id s (s.lockReplyTo id line status) :=
  lockReturned_setCtx id s ⟨_, _, rfl⟩

/-- The lock is the context's. -/
theorem lockReturned_giveLock (id : CtxId) (s : State) (line scope : Nat) (l : Lock) (fresh : Bool) :
    LockReturned id s (s.giveLock line id scope l fresh) :=
  (lockReturned_of_locks id rfl).trans (lockReturned_setCtx id _ ⟨_, _, rfl⟩)

/-- A context that comes back takes a free lock at once or not at all: nothing else differs. -/
theorem lockReturned_lockReturn (id : CtxId) (s : State) : LockReturned id s (s.lockReturn id) := by
  have hpresent : LockReturned id s (s.markAbsent id false) := lockReturned_of_locks id rfl
  unfold State.lockReturn
  dsimp only
  split
  · exact hpresent
  · split
    · exact (hpresent.trans (lockReturned_of_locks id rfl)).trans (lockReturned_lockReplyTo ..)
    · exact (hpresent.trans (lockReturned_giveLock ..)).trans (lockReturned_lockReplyTo ..)

section
variable {id : CtxId} {s t : State} (h : LockReturned id s t)
include h

/-- Memory stays. -/
theorem LockReturned.mem : t.mem = s.mem := by rw [h.rest]
/-- The issuing core stays. -/
theorem LockReturned.cc : t.cc = s.cc := by rw [h.rest]; rfl
/-- So does the place of the issuing context. -/
theorem LockReturned.cur : t.cur = s.cur := by rw [h.rest]; rfl
/-- X, PC and the slot state of every context stay. -/
theorem LockReturned.kept (i : CtxId) : (t.ctx i).x = (s.ctx i).x ∧ (t.ctx i).pc = (s.ctx i).pc ∧ (t.ctx i).st = (s.ctx i).st := by
  by_cases hi : i = id
  · obtain ⟨r, b, hown⟩ := h.own
    rw [hi, hown]
    exact ⟨rfl, rfl, rfl⟩
  · rw [h.other i hi]
    exact ⟨rfl, rfl, rfl⟩

end

/-! ## The selection (R416): SLOT and SV are no part of where the system context stands -/

section
variable (s : State) {q : CoreSt} (h : q.slot = s.cc.slot)
include h

/-- A core's state written with the same slot leaves the place of the issuing context. -/
theorem setCC_cur : (s.setCC q).cur = s.cur := by
  unfold State.cur
  rw [setCC_cc, h]
  rfl

/-- It leaves the registers X too. -/
theorem setCC_X (r : Reg) : (s.setCC q).X r = s.X r := by
  unfold State.X State.c
  rw [setCC_cur s h, setCC_ctx]

end

/-! ## ERET (R424) -/

/-- The machine with the selection that was in force before the system context's own trap, its lock wait taken up again. -/
def unnested (s : State) : State :=
  (s.setCC { s.cc with sslot := s.cc.oslot, sv := s.cc.osv, osv := false }).lockReturn s.cur

/-- ERET inside the system context's own trap transfers control to its TPC. -/
theorem exec_eret_served (s : State) (hsys : s.sys = true) (hsv : s.cc.sv = true) (hslot : s.cc.sslot = 11) :
    exec .eret s = .next ((unnested s).retireTo s.c.tpc) := by
  show execEret s = _
  exact (sysOnly_of_sys _ _ _ hsys).trans (congrArg (finishJump .eret s) (if_pos ⟨hsv, hslot⟩))

/-- Anywhere else it is illegal. -/
theorem traps_eret (s : State) (hsys : s.sys = true) (h : ¬(s.cc.sv = true ∧ s.cc.sslot = 11)) : Traps .eret s .illegalInstr 0x00800078 0 := by
  show execEret s = _
  exact (sysOnly_of_sys _ _ _ hsys).trans (congrArg (finishJump .eret s) (if_neg h))

/-- After a transfer of control PC is the target. -/
theorem retireTo_pc (u : State) (w : Word) : (u.retireTo w).c.pc = w := by
  unfold State.retireTo
  rw [complete_c]
  rfl

/-- The issuing core has the selection of before and no kept one. -/
theorem unnested_cc (s : State) : (unnested s).cc = { s.cc with sslot := s.cc.oslot, sv := s.cc.osv, osv := false } :=
  (lockReturned_lockReturn ..).cc.trans (setCC_cc ..)

/-- The system context's registers X are as they were. -/
theorem unnested_x (s : State) : (unnested s).c.x = s.c.x := by
  have hlocks : LockReturned s.cur _ (unnested s) := lockReturned_lockReturn ..
  have hcur : (unnested s).cur = s.cur := hlocks.cur.trans (setCC_cur s rfl)
  obtain ⟨hx, -, -⟩ := hlocks.kept s.cur
  unfold State.c
  rw [hcur]
  exact hx

/-- ERET goes back to where the trap was taken, with the selection of then. -/
theorem eret_returns (s : State) (hsys : s.sys = true) (hsv : s.cc.sv = true) (hslot : s.cc.sslot = 11) : Completes .eret s (fun t =>
    t.c.pc = s.c.tpc ∧ t.cc.sslot = s.cc.oslot ∧ t.cc.sv = s.cc.osv ∧ t.cc.osv = false ∧ t.c.x = s.c.x ∧ t.mem = s.mem) := by
  obtain ⟨⟨hmem, -, -, -, -, -, -, -, hrun⟩, hxt, -⟩ := leaves_retireTo (unnested s) s.c.tpc
  rw [unnested_cc] at hrun
  refine ⟨_, exec_eret_served s hsys hsv hslot, retireTo_pc .., ?_, ?_, ?_, hxt.trans (unnested_x s),
    hmem.trans (lockReturned_lockReturn ..).mem⟩ <;> rw [hrun]

/-! ## RESUME (R423) -/

/-- The slot that SLOT selects. -/
def selected (s : State) : CtxId := { s.cur with slot := s.cc.sslot.toNat }

/-- The machine in which the selected slot goes on at its TPC, its lock wait taken up again, and nothing is selected. -/
def resumed (s : State) : State :=
  ((s.setCC { s.cc with sv := false }).setCtx (selected s)
    { (s.ctx (selected s)).jump (s.ctx (selected s)).tpc with st := .ready }).lockReturn (selected s)

/-- From the machine with nothing selected and the slot at its TPC only the slot's locks are to be given back. -/
theorem resumed_lockReturned (s : State) : LockReturned (selected s) ((s.setCC { s.cc with sv := false }).setCtx (selected s)
    { (s.ctx (selected s)).jump (s.ctx (selected s)).tpc with st := .ready }) (resumed s) := lockReturned_lockReturn ..

/-- The issuing core selects nothing. -/
theorem resumed_cc (s : State) : (resumed s).cc = { s.cc with sv := false } := (resumed_lockReturned s).cc.trans (setCC_cc ..)

/-- The system context still issues. -/
theorem resumed_cur (s : State) : (resumed s).cur = s.cur := (resumed_lockReturned s).cur.trans (setCC_cur s rfl)

/-- Its own state is as it was when the selected slot is another. -/
theorem resumed_c (s : State) (hother : selected s ≠ s.cur) : (resumed s).c = s.c := by
  unfold State.c
  rw [resumed_cur, (resumed_lockReturned s).other _ hother.symm, setCtx_ctx_other _ _ _ _ hother.symm, setCC_ctx]

/-- The selected slot is READY at its TPC with its registers. -/
theorem resumed_selected (s : State) : ((resumed s).ctx (selected s)).st = .ready ∧
    ((resumed s).ctx (selected s)).pc = (s.ctx (selected s)).tpc ∧ ((resumed s).ctx (selected s)).x = (s.ctx (selected s)).x := by
  have hkept := (resumed_lockReturned s).kept (selected s)
  rw [setCtx_ctx_same] at hkept
  obtain ⟨hx, hpc, hst⟩ := hkept
  exact ⟨hst, hpc, hx⟩

/-- A selected user slot is not the system context that selects it. -/
theorem selected_ne_cur (s : State) (hsys : s.sys = true) (hslot : s.cc.sslot.toNat ≤ 10) : selected s ≠ s.cur := by
  intro h
  have hcur : s.cc.slot = 11 := by simpa [State.sys] using hsys
  have hsel : s.cc.sslot.toNat = s.cc.slot := congrArg CtxId.slot h
  omega

section
variable (s : State) (d m : Reg) (hsys : s.sys = true)
include hsys

/-- A mode of 2 or more is illegal. -/
theorem traps_resume (hm : 2 ≤ (s.X m).toNat) :
    Traps (.resume d m) s .illegalInstr (BitVec.ofNat 64 (encodeFirst (.resume d m))) 0 := by
  obtain ⟨-, hword⟩ := trapWord_eq_encodeFirst d m
  show execResume d m s = _
  rw [← hword]
  exact (sysOnly_of_sys _ _ _ hsys).trans (congrArg (finish (.resume d m) s) (if_pos hm))

/-- With no slot selected, or one that is not PARKED, RESUME has X(rd) as its one effect. -/
theorem exec_resume_notParked (hm : (s.X m).toNat < 2) (h : s.cc.sv = false ∨ s.cc.sslot = 11 ∨ (s.ctx (selected s)).st ≠ .parked) :
    exec (.resume d m) s = writeX (.resume d m) d 1 s := by
  have hnot : (!s.cc.sv) = true ∨ s.cc.sslot = 11 ∨ (s.ctx (selected s)).st ≠ .parked := by rwa [Bool.not_eq_true']
  show execResume d m s = _
  exact (sysOnly_of_sys _ _ _ hsys).trans (congrArg (finish (.resume d m) s) ((if_neg (Nat.not_le.mpr hm)).trans (if_pos hnot)))

variable (hm : s.X m = 0) (hsv : s.cc.sv = true) (hslot : s.cc.sslot.toNat ≤ 10) (hst : (s.ctx (selected s)).st = .parked)
include hm hsv hslot hst

/-- Mode 0 makes a selected PARKED slot go on. -/
theorem exec_resume_parked : exec (.resume d m) s = finish (.resume d m) s (.ok ((resumed s).setX d 0)) := by
  have hmode : ¬2 ≤ (s.X m).toNat := by simp [hm]
  have huser : s.cc.sslot ≠ 11 := fun h => absurd hslot (by rw [h]; decide)
  have hparked : ¬((!s.cc.sv) = true ∨ s.cc.sslot = 11 ∨ (s.ctx (selected s)).st ≠ .parked) :=
    not_or.mpr ⟨by simp [hsv], not_or.mpr ⟨huser, not_not.mpr hst⟩⟩
  have hgo : (s.setCC { s.cc with sv := false }).X m = 0 := (setCC_X s (q := { s.cc with sv := false }) rfl m).trans hm
  show execResume d m s = _
  exact (sysOnly_of_sys _ _ _ hsys).trans (congrArg (finish (.resume d m) s) ((if_neg hmode).trans ((if_neg hparked).trans (if_pos hgo))))

/-- The resumed slot is READY at its TPC with its registers, and of the system context only X(rd) is written. -/
theorem resume_returns : Completes (.resume d m) s (fun t => (t.ctx (selected s)).st = .ready ∧
    (t.ctx (selected s)).pc = (s.ctx (selected s)).tpc ∧ (t.ctx (selected s)).x = (s.ctx (selected s)).x ∧
    t.cc.sv = false ∧ XIs s t d 0 ∧ t.mem = s.mem) := by
  have hother := selected_ne_cur s hsys hslot
  obtain ⟨hready, hpc, hx⟩ := resumed_selected s
  obtain ⟨t, ht, ⟨hmem, -, -, -, -, -, hctx, -, hrun⟩, hxt, -⟩ := finish_leaves (.resume d m) s ((resumed s).setX d 0)
  have hsel : t.ctx (selected s) = (resumed s).ctx (selected s) :=
    (hctx _ (by rwa [setX_cur, resumed_cur])).trans (setC_ctx_other _ _ _ (by rwa [resumed_cur]))
  have hwritten : XIs s t d 0 := by
    intro r
    rw [setX_c, resumed_c s hother] at hxt
    have hxr : t.X r = (s.c.setX d 0).xr r := by simp only [State.X, Ctx.xr, hxt]
    exact hxr.trans (xr_setX ..)
  rw [setX_cc, resumed_cc] at hrun
  refine ⟨t, (exec_resume_parked s d m hsys hm hsv hslot hst).trans ht, ?_, ?_, ?_, ?_, hwritten, hmem.trans (resumed_lockReturned s).mem⟩
  · rw [hsel, hready]
  · rw [hsel, hpc]
  · rw [hsel, hx]
  · rw [hrun]

end

/-- Settles O17: ERET and RESUME by the cases of the selection and the mode. -/
theorem eretAndResumeReturn : Obligations.EretAndResumeReturn := by
  unfold Obligations.EretAndResumeReturn
  refine ⟨fun s hsys => ⟨eret_returns s hsys, traps_eret s hsys⟩,
    fun s d m hsys => ⟨resume_returns s d m hsys, fun hm h => ?_, traps_resume s d m hsys⟩⟩
  obtain ⟨t, ht, hres⟩ := writeX_result (.resume d m) d 1 s
  exact ⟨t, (exec_resume_notParked s d m hsys hm h).trans ht, hres⟩

end Sys2Proof.TrapGroup
end

section
/-! Encoding (R40 to R45, R55, R56): the words of an instruction as bytes and back, for every instruction at once, and the instruction that a
word decodes to as the only one with that word. -/

namespace Sys2Proof.Encoding
set_option Elab.async false
open Sys2Proof Sys2Proof.Machine Sys2Proof.Laws

/-! ## Decoding what was encoded -/

/-- The round trip of every instruction: of those that have a word it is proved one by one, the others are events. -/
theorem statement (i : Instr) : RoundTrip.Statement i := by
  cases i
  case pfx => apply RoundTrip.pfx
  case add => apply RoundTrip.add
  case sub => apply RoundTrip.sub
  case and => apply RoundTrip.and
  case or => apply RoundTrip.or
  case xor => apply RoundTrip.xor
  case sll => apply RoundTrip.sll
  case srl => apply RoundTrip.srl
  case sra => apply RoundTrip.sra
  case slt => apply RoundTrip.slt
  case sltu => apply RoundTrip.sltu
  case min => apply RoundTrip.min
  case max => apply RoundTrip.max
  case minu => apply RoundTrip.minu
  case maxu => apply RoundTrip.maxu
  case addw => apply RoundTrip.addw
  case subw => apply RoundTrip.subw
  case andn => apply RoundTrip.andn
  case orn => apply RoundTrip.orn
  case rol => apply RoundTrip.rol
  case ror => apply RoundTrip.ror
  case addi => apply RoundTrip.addi
  case andi => apply RoundTrip.andi
  case ori => apply RoundTrip.ori
  case xori => apply RoundTrip.xori
  case slli => apply RoundTrip.slli
  case srli => apply RoundTrip.srli
  case srai => apply RoundTrip.srai
  case rori => apply RoundTrip.rori
  case slti => apply RoundTrip.slti
  case mul => apply RoundTrip.mul
  case mulh => apply RoundTrip.mulh
  case mulhu => apply RoundTrip.mulhu
  case div => apply RoundTrip.div
  case divu => apply RoundTrip.divu
  case rem => apply RoundTrip.rem
  case remu => apply RoundTrip.remu
  case mulw => apply RoundTrip.mulw
  case bfx => apply RoundTrip.bfx
  case bfxs => apply RoundTrip.bfxs
  case bfi => apply RoundTrip.bfi
  case clz => apply RoundTrip.clz
  case ctz => apply RoundTrip.ctz
  case popc => apply RoundTrip.popc
  case ldhi => apply RoundTrip.ldhi
  case addpc => apply RoundTrip.addpc
  case ldi => apply RoundTrip.ldi
  case ldiu => apply RoundTrip.ldiu
  case addil => apply RoundTrip.addil
  case beq => apply RoundTrip.beq
  case bne => apply RoundTrip.bne
  case blt => apply RoundTrip.blt
  case bge => apply RoundTrip.bge
  case bltu => apply RoundTrip.bltu
  case bgeu => apply RoundTrip.bgeu
  case jal => apply RoundTrip.jal
  case jalr => apply RoundTrip.jalr
  case jl => apply RoundTrip.jl
  case loop => apply RoundTrip.loop
  case lb => apply RoundTrip.lb
  case lbu => apply RoundTrip.lbu
  case lh => apply RoundTrip.lh
  case lhu => apply RoundTrip.lhu
  case lw => apply RoundTrip.lw
  case lwu => apply RoundTrip.lwu
  case ld => apply RoundTrip.ld
  case sb => apply RoundTrip.sb
  case sh => apply RoundTrip.sh
  case sw => apply RoundTrip.sw
  case sd => apply RoundTrip.sd
  case ldl => apply RoundTrip.ldl
  case stl => apply RoundTrip.stl
  case ldv => apply RoundTrip.ldv
  case ldvx => apply RoundTrip.ldvx
  case ldvb => apply RoundTrip.ldvb
  case stv => apply RoundTrip.stv
  case stvx => apply RoundTrip.stvx
  case amoadd => apply RoundTrip.amoadd
  case amoand => apply RoundTrip.amoand
  case amoor => apply RoundTrip.amoor
  case amoxor => apply RoundTrip.amoxor
  case amomin => apply RoundTrip.amomin
  case amomax => apply RoundTrip.amomax
  case amominu => apply RoundTrip.amominu
  case amomaxu => apply RoundTrip.amomaxu
  case amoswap => apply RoundTrip.amoswap
  case amocas => apply RoundTrip.amocas
  case amofadd => apply RoundTrip.amofadd
  case amofmin => apply RoundTrip.amofmin
  case amofmax => apply RoundTrip.amofmax
  case nmadd => apply RoundTrip.nmadd
  case nmfadd => apply RoundTrip.nmfadd
  case nmmax => apply RoundTrip.nmmax
  case nmmin => apply RoundTrip.nmmin
  case nmor => apply RoundTrip.nmor
  case lkacq => apply RoundTrip.lkacq
  case lktry => apply RoundTrip.lktry
  case lkrel => apply RoundTrip.lkrel
  case lkstat => apply RoundTrip.lkstat
  case fence => apply RoundTrip.fence
  case xprobe => apply RoundTrip.xprobe
  case xinv => apply RoundTrip.xinv
  case xinvas => apply RoundTrip.xinvas
  case synci => apply RoundTrip.synci
  case survey => apply RoundTrip.survey
  case xmig => apply RoundTrip.xmig
  case trap => apply RoundTrip.trap
  case eret => apply RoundTrip.eret
  case wfe => apply RoundTrip.wfe
  case halt => apply RoundTrip.halt
  case brk => apply RoundTrip.brk
  case resume => apply RoundTrip.resume
  case csrrw => apply RoundTrip.csrrw
  case csrrs => apply RoundTrip.csrrs
  case csrrc => apply RoundTrip.csrrc
  case vadd => apply RoundTrip.vadd
  case vsub => apply RoundTrip.vsub
  case vmul => apply RoundTrip.vmul
  case vfma => apply RoundTrip.vfma
  case vfms => apply RoundTrip.vfms
  case vmin => apply RoundTrip.vmin
  case vmax => apply RoundTrip.vmax
  case vabs => apply RoundTrip.vabs
  case vneg => apply RoundTrip.vneg
  case vand => apply RoundTrip.vand
  case vor => apply RoundTrip.vor
  case vxor => apply RoundTrip.vxor
  case vsll => apply RoundTrip.vsll
  case vsrl => apply RoundTrip.vsrl
  case vsra => apply RoundTrip.vsra
  case vdiv => apply RoundTrip.vdiv
  case vsqrt => apply RoundTrip.vsqrt
  case vrsq => apply RoundTrip.vrsq
  case vrcp => apply RoundTrip.vrcp
  case vexp2 => apply RoundTrip.vexp2
  case vlog2 => apply RoundTrip.vlog2
  case vmulh => apply RoundTrip.vmulh
  case vaddsat => apply RoundTrip.vaddsat
  case vsubsat => apply RoundTrip.vsubsat
  case vmov => apply RoundTrip.vmov
  case vaddsc => apply RoundTrip.vaddsc
  case vsubsc => apply RoundTrip.vsubsc
  case vmulsc => apply RoundTrip.vmulsc
  case vfmasc => apply RoundTrip.vfmasc
  case vminsc => apply RoundTrip.vminsc
  case vmaxsc => apply RoundTrip.vmaxsc
  case vsplat => apply RoundTrip.vsplat
  case vins => apply RoundTrip.vins
  case vext => apply RoundTrip.vext
  case vsplati => apply RoundTrip.vsplati
  case vcvt => apply RoundTrip.vcvt
  case vredsum => apply RoundTrip.vredsum
  case vredmax => apply RoundTrip.vredmax
  case vredmin => apply RoundTrip.vredmin
  case vperm => apply RoundTrip.vperm
  case vrot => apply RoundTrip.vrot
  case vsort => apply RoundTrip.vsort
  case vdupm => apply RoundTrip.vdupm
  case vcompr => apply RoundTrip.vcompr
  case vexpnd => apply RoundTrip.vexpnd
  case vcmp => apply RoundTrip.vcmp
  case vsel => apply RoundTrip.vsel
  case pand => apply RoundTrip.pand
  case por => apply RoundTrip.por
  case pnot => apply RoundTrip.pnot
  case pcnt => apply RoundTrip.pcnt
  case sbind => apply RoundTrip.sbind
  case sunbind => apply RoundTrip.sunbind
  case sstat => apply RoundTrip.sstat
  case gw => apply RoundTrip.gw
  case gr => apply RoundTrip.gr
  case gclr => apply RoundTrip.gclr
  case ecpy => apply RoundTrip.ecpy
  case egth => apply RoundTrip.egth
  case esct => apply RoundTrip.esct
  case exch => apply RoundTrip.exch
  case emma => apply RoundTrip.emma
  case emmz => apply RoundTrip.emmz
  case emmd => apply RoundTrip.emmd
  case ecoll => apply RoundTrip.ecoll
  case etopk => apply RoundTrip.etopk
  case eclone => apply RoundTrip.eclone
  case enmsc => apply RoundTrip.enmsc
  case eptab => apply RoundTrip.eptab
  case lease => apply RoundTrip.lease
  case unlease => apply RoundTrip.unlease
  case lstat => apply RoundTrip.lstat
  case bbinit => apply RoundTrip.bbinit
  case bbexp => apply RoundTrip.bbexp
  case bbwait => apply RoundTrip.bbwait
  case bbtest => apply RoundTrip.bbtest
  case phnew => apply RoundTrip.phnew
  case phreg => apply RoundTrip.phreg
  case phdrop => apply RoundTrip.phdrop
  case phsig => apply RoundTrip.phsig
  case phwait => apply RoundTrip.phwait
  case phsw => apply RoundTrip.phsw
  case phq => apply RoundTrip.phq
  case start => apply RoundTrip.start
  case startp => apply RoundTrip.startp
  case quit => apply RoundTrip.quit
  case yield => apply RoundTrip.yield
  case ctxid => apply RoundTrip.ctxid
  case wid => apply RoundTrip.wid
  case widf => apply RoundTrip.widf
  case joinh => apply RoundTrip.joinh
  case hstat => apply RoundTrip.hstat
  case send => apply RoundTrip.send
  case sendv => apply RoundTrip.sendv
  case sendb => apply RoundTrip.sendb
  case mpop => apply RoundTrip.mpop
  case mpopv => apply RoundTrip.mpopv
  case mpeek => apply RoundTrip.mpeek
  case mbind => apply RoundTrip.mbind
  case mfree => apply RoundTrip.mfree
  case tsend => apply RoundTrip.tsend
  case tbwd => apply RoundTrip.tbwd
  case tret => apply RoundTrip.tret
  case xquery => apply RoundTrip.xquery
  case xjoin => apply RoundTrip.xjoin
  case xver => apply RoundTrip.xver
  case xcreate => apply RoundTrip.xcreate
  case xretire => apply RoundTrip.xretire
  case shape => apply RoundTrip.shape
  case objrel => apply RoundTrip.objrel
  case objmode => apply RoundTrip.objmode
  case fadd => apply RoundTrip.fadd
  case fsub => apply RoundTrip.fsub
  case fmul => apply RoundTrip.fmul
  case fmac => apply RoundTrip.fmac
  case fdiv => apply RoundTrip.fdiv
  case fsqrt => apply RoundTrip.fsqrt
  case fmin => apply RoundTrip.fmin
  case fmax => apply RoundTrip.fmax
  case fcvti => apply RoundTrip.fcvti
  case fcvtf => apply RoundTrip.fcvtf
  case flt => apply RoundTrip.flt
  case feq => apply RoundTrip.feq
  case scal => apply RoundTrip.scal
  case fclass => apply RoundTrip.fclass
  all_goals exact fun h => Bool.noConfusion (h : true = false)

/-- The four bytes of a word make it again (R5). -/
theorem wordOfBytes_bytes (w : Nat) (h : w < 2 ^ 32) :
    wordOfBytes (BitVec.ofNat 8 w) (BitVec.ofNat 8 (w / 256)) (BitVec.ofNat 8 (w / 256 / 256)) (BitVec.ofNat 8 (w / 256 / 256 / 256)) = w := by
  unfold wordOfBytes
  simp only [BitVec.toNat_ofNat]
  omega

/-- Settles O1: the bytes are the words' bytes, and a word decodes to its instruction, long exactly when it has a payload. -/
theorem decodeOfEncodeIsTheInstruction : Obligations.DecodeOfEncodeIsTheInstruction := by
  unfold Obligations.DecodeOfEncodeIsTheInstruction
  intro i rest hword hwf
  obtain ⟨hlt, hlong, hdec⟩ := statement i hword hwf
  unfold payloadOf at hdec
  unfold encodeBytes encode
  cases hp : encodePayload i with
  | none =>
    rw [hp] at hdec hlong
    have hshort : ¬fld (encodeFirst i) 0 2 = 3 := fun h => absurd (hlong.mp h) Bool.false_ne_true
    simp only [List.flatMap_cons, List.flatMap_nil, List.append_nil, bytesOf, List.cons_append, List.nil_append, decode,
      wordOfBytes_bytes _ hlt, hshort, if_false]
    rw [show decodeWord (encodeFirst i) 0 = .ok i from hdec]
    rfl
  | some p =>
    rw [hp] at hdec hlong
    have hsel : fld (encodeFirst i) 0 2 = 3 := hlong.mpr rfl
    simp only [List.flatMap_cons, List.flatMap_nil, List.append_nil, bytesOf, List.cons_append, List.nil_append, decode,
      wordOfBytes_bytes _ hlt, wordOfBytes_bytes _ p.isLt, hsel, if_true]
    rw [show decodeWord (encodeFirst i) p.toNat = .ok i from hdec]
    rfl

/-! ## Encoding what was decoded -/

/-- A word of bits read back as a number. -/
theorem toNat_bits (w lo n : Nat) : (bits w lo n).toNat = fld w lo n := by
  unfold bits fld; simp

/-- A bit read back as a number. -/
theorem toNat_bit (w lo : Nat) : (bit w lo).toNat = fld w lo 1 := by
  have h : fld w lo 1 < 2 := Nat.mod_lt _ (by decide)
  unfold bit
  obtain h0 | h1 : fld w lo 1 = 0 ∨ fld w lo 1 = 1 := by omega
  · rw [h0]; rfl
  · rw [h1]; rfl

/-- The number that consecutive fields of the widths `ns` make, from bit `lo` on. -/
def joined (w lo : Nat) : List Nat → Nat
  | [] => 0
  | n :: ns => fld w lo n * 2 ^ lo + joined w (lo + n) ns

/-- Consecutive fields make the bits that they cover. -/
theorem joined_eq (w lo : Nat) (ns : List Nat) : joined w lo ns = w / 2 ^ lo % 2 ^ ns.sum * 2 ^ lo := by
  induction ns generalizing lo with
  | nil => simp [joined, Nat.mod_one]
  | cons n ns ih =>
    rw [joined, ih, fld, List.sum_cons, Nat.pow_add 2 n, Nat.mod_mul, Nat.add_mul, Nat.div_div_eq_div_mul, ← Nat.pow_add]
    congr 1
    rw [Nat.pow_add]
    ring

/-- The instruction is no event, it has no payload, and the word is its word, if it is one of 32 bits with selector 0 and major opcode `m`. -/
def IsWordOf (m w : Nat) (i : Instr) : Prop :=
  isEvent i = false ∧ encodePayload i = none ∧ (w < 2 ^ 32 → fld w 0 2 = 0 → fld w 2 6 = m → encodeFirst i = w)

/-- A word is what its fields make. -/
theorem joined_word {w : Nat} {ns : List Nat} (hlt : w < 2 ^ 32) (hsum : ns.sum = 32) : joined w 0 ns = w := by
  rw [joined_eq, hsum, Nat.pow_zero, Nat.div_one, Nat.mul_one, Nat.mod_eq_of_lt hlt]

/-- An instruction whose word is made of the word's own fields. -/
theorem isWordOf_of_fields {m w : Nat} {i : Instr} (ns : List Nat) (hev : isEvent i = false) (hp : encodePayload i = none)
    (hsum : ns.sum = 32) (he : fld w 0 2 = 0 → fld w 1 1 = 0 → fld w 2 6 = m → encodeFirst i = joined w 0 ns) : IsWordOf m w i := by
  refine ⟨hev, hp, fun hlt hsel hmaj => ?_⟩
  have hodd : fld w 1 1 = 0 := by unfold fld at *; omega
  exact (he hsel hodd hmaj).trans (joined_word hlt hsum)

/-- Whatever the decoder answers, the word is that instruction's. -/
def Reads (m w : Nat) (o : Option Instr) : Prop := ∀ i, o = some i → IsWordOf m w i

theorem reads_none {m w : Nat} : Reads m w none := fun _ h => nomatch h

theorem reads_some {m w : Nat} {i : Instr} (h : IsWordOf m w i) : Reads m w (some i) := fun _ hi => Option.some.inj hi ▸ h

/-- One row of a decoder's table, and the rows after it. -/
theorem reads_ite {m w : Nat} {c : Prop} [Decidable c] {i : Instr} {o : Option Instr} (ho : Reads m w o) (h : c → IsWordOf m w i) :
    Reads m w (if c then some i else o) := by
  split
  · exact reads_some (h ‹c›)
  · exact ho

theorem reads01 (w : Nat) : Reads 0x01 w (decodeMajor01 w) := by
  unfold decodeMajor01
  iterate 20 refine reads_ite ?_ fun hc => isWordOf_of_fields [2, 6, 5, 5, 5, 9] rfl rfl rfl fun hs hg hm => ?_
  · exact reads_none
  all_goals
    dsimp only [encodeFirst, joined]
    simp only [sh, toNat_bits, Nat.add_eq, Nat.reduceAdd]
    omega

theorem reads02 (w : Nat) : Reads 0x02 w (decodeMajor02 w) := by
  unfold decodeMajor02
  refine reads_some (isWordOf_of_fields [2, 6, 5, 5, 14] rfl rfl rfl fun hs hg hm => ?_)
  all_goals
    dsimp only [encodeFirst, joined]
    simp only [sh, toNat_bits, Nat.add_eq, Nat.reduceAdd]
    omega

theorem reads03 (w : Nat) : Reads 0x03 w (decodeMajor03 w) := by
  unfold decodeMajor03
  refine reads_some (isWordOf_of_fields [2, 6, 5, 5, 14] rfl rfl rfl fun hs hg hm => ?_)
  all_goals
    dsimp only [encodeFirst, joined]
    simp only [sh, toNat_bits, Nat.add_eq, Nat.reduceAdd]
    omega

theorem reads04 (w : Nat) : Reads 0x04 w (decodeMajor04 w) := by
  unfold decodeMajor04
  refine reads_some (isWordOf_of_fields [2, 6, 5, 5, 14] rfl rfl rfl fun hs hg hm => ?_)
  all_goals
    dsimp only [encodeFirst, joined]
    simp only [sh, toNat_bits, Nat.add_eq, Nat.reduceAdd]
    omega

theorem reads05 (w : Nat) : Reads 0x05 w (decodeMajor05 w) := by
  unfold decodeMajor05
  refine reads_some (isWordOf_of_fields [2, 6, 5, 5, 14] rfl rfl rfl fun hs hg hm => ?_)
  all_goals
    dsimp only [encodeFirst, joined]
    simp only [sh, toNat_bits, Nat.add_eq, Nat.reduceAdd]
    omega

theorem reads06 (w : Nat) : Reads 0x06 w (decodeMajor06 w) := by
  unfold decodeMajor06
  iterate 4 refine reads_ite ?_ fun hc => isWordOf_of_fields [2, 6, 5, 5, 6, 8] rfl rfl rfl fun hs hg hm => ?_
  · exact reads_none
  all_goals
    dsimp only [encodeFirst, joined]
    simp only [sh, toNat_bits, Nat.add_eq, Nat.reduceAdd]
    omega

theorem reads07 (w : Nat) : Reads 0x07 w (decodeMajor07 w) := by
  unfold decodeMajor07
  refine reads_some (isWordOf_of_fields [2, 6, 5, 5, 14] rfl rfl rfl fun hs hg hm => ?_)
  all_goals
    dsimp only [encodeFirst, joined]
    simp only [sh, toNat_bits, Nat.add_eq, Nat.reduceAdd]
    omega

theorem reads08 (w : Nat) : Reads 0x08 w (decodeMajor08 w) := by
  unfold decodeMajor08
  iterate 8 refine reads_ite ?_ fun hc => isWordOf_of_fields [2, 6, 5, 5, 5, 9] rfl rfl rfl fun hs hg hm => ?_
  · exact reads_none
  all_goals
    dsimp only [encodeFirst, joined]
    simp only [sh, toNat_bits, Nat.add_eq, Nat.reduceAdd]
    omega

theorem reads09 (w : Nat) : Reads 0x09 w (decodeMajor09 w) := by
  unfold decodeMajor09
  iterate 3 refine reads_ite ?_ fun hc => isWordOf_of_fields [2, 6, 5, 5, 5, 9] rfl rfl rfl fun hs hg hm => ?_
  iterate 3 refine reads_ite ?_ fun hc => isWordOf_of_fields [2, 6, 5, 5, 6, 6, 2] rfl rfl rfl fun hs hg hm => ?_
  · exact reads_none
  all_goals
    dsimp only [encodeFirst, joined]
    simp only [sh, toNat_bits, Nat.add_eq, Nat.reduceAdd]
    omega

theorem reads0A (w : Nat) : Reads 0x0A w (decodeMajor0A w) := by
  unfold decodeMajor0A
  refine reads_some (isWordOf_of_fields [2, 6, 5, 19] rfl rfl rfl fun hs hg hm => ?_)
  all_goals
    dsimp only [encodeFirst, joined]
    simp only [sh, toNat_bits, Nat.add_eq, Nat.reduceAdd]
    omega

theorem reads0B (w : Nat) : Reads 0x0B w (decodeMajor0B w) := by
  unfold decodeMajor0B
  refine reads_some (isWordOf_of_fields [2, 6, 5, 19] rfl rfl rfl fun hs hg hm => ?_)
  all_goals
    dsimp only [encodeFirst, joined]
    simp only [sh, toNat_bits, Nat.add_eq, Nat.reduceAdd]
    omega

theorem reads0C (w : Nat) : Reads 0x0C w (decodeMajor0C w) := by
  unfold decodeMajor0C
  refine reads_some (isWordOf_of_fields [2, 6, 5, 5, 14] rfl rfl rfl fun hs hg hm => ?_)
  all_goals
    dsimp only [encodeFirst, joined]
    simp only [sh, toNat_bits, Nat.add_eq, Nat.reduceAdd]
    omega

theorem reads0D (w : Nat) : Reads 0x0D w (decodeMajor0D w) := by
  unfold decodeMajor0D
  refine reads_some (isWordOf_of_fields [2, 6, 5, 5, 14] rfl rfl rfl fun hs hg hm => ?_)
  all_goals
    dsimp only [encodeFirst, joined]
    simp only [sh, toNat_bits, Nat.add_eq, Nat.reduceAdd]
    omega

theorem reads0E (w : Nat) : Reads 0x0E w (decodeMajor0E w) := by
  unfold decodeMajor0E
  refine reads_some (isWordOf_of_fields [2, 6, 5, 5, 14] rfl rfl rfl fun hs hg hm => ?_)
  all_goals
    dsimp only [encodeFirst, joined]
    simp only [sh, toNat_bits, Nat.add_eq, Nat.reduceAdd]
    omega

theorem reads0F (w : Nat) : Reads 0x0F w (decodeMajor0F w) := by
  unfold decodeMajor0F
  refine reads_some (isWordOf_of_fields [2, 6, 5, 5, 14] rfl rfl rfl fun hs hg hm => ?_)
  all_goals
    dsimp only [encodeFirst, joined]
    simp only [sh, toNat_bits, Nat.add_eq, Nat.reduceAdd]
    omega

theorem reads10 (w : Nat) : Reads 0x10 w (decodeMajor10 w) := by
  unfold decodeMajor10
  refine reads_some (isWordOf_of_fields [2, 6, 5, 5, 14] rfl rfl rfl fun hs hg hm => ?_)
  all_goals
    dsimp only [encodeFirst, joined]
    simp only [sh, toNat_bits, Nat.add_eq, Nat.reduceAdd]
    omega

theorem reads11 (w : Nat) : Reads 0x11 w (decodeMajor11 w) := by
  unfold decodeMajor11
  refine reads_some (isWordOf_of_fields [2, 6, 5, 5, 14] rfl rfl rfl fun hs hg hm => ?_)
  all_goals
    dsimp only [encodeFirst, joined]
    simp only [sh, toNat_bits, Nat.add_eq, Nat.reduceAdd]
    omega

theorem reads12 (w : Nat) : Reads 0x12 w (decodeMajor12 w) := by
  unfold decodeMajor12
  refine reads_some (isWordOf_of_fields [2, 6, 5, 19] rfl rfl rfl fun hs hg hm => ?_)
  all_goals
    dsimp only [encodeFirst, joined]
    simp only [sh, toNat_bits, Nat.add_eq, Nat.reduceAdd]
    omega

theorem reads13 (w : Nat) : Reads 0x13 w (decodeMajor13 w) := by
  unfold decodeMajor13
  refine reads_some (isWordOf_of_fields [2, 6, 5, 5, 14] rfl rfl rfl fun hs hg hm => ?_)
  all_goals
    dsimp only [encodeFirst, joined]
    simp only [sh, toNat_bits, Nat.add_eq, Nat.reduceAdd]
    omega

theorem reads14 (w : Nat) : Reads 0x14 w (decodeMajor14 w) := by
  unfold decodeMajor14
  refine reads_ite ?_ fun hc => isWordOf_of_fields [2, 6, 5, 5, 14] rfl rfl rfl fun hs hg hm => ?_
  · exact reads_none
  all_goals
    dsimp only [encodeFirst, joined]
    simp only [sh, toNat_bits, Nat.add_eq, Nat.reduceAdd]
    omega

theorem reads15 (w : Nat) : Reads 0x15 w (decodeMajor15 w) := by
  unfold decodeMajor15
  iterate 7 refine reads_ite ?_ fun hc => isWordOf_of_fields [2, 6, 5, 5, 9, 2, 3] rfl rfl rfl fun hs hg hm => ?_
  · exact reads_none
  all_goals
    dsimp only [encodeFirst, joined]
    simp only [sh, toNat_bits, Nat.add_eq, Nat.reduceAdd]
    omega

theorem reads16 (w : Nat) : Reads 0x16 w (decodeMajor16 w) := by
  unfold decodeMajor16
  iterate 4 refine reads_ite ?_ fun hc => isWordOf_of_fields [2, 6, 5, 5, 9, 2, 3] rfl rfl rfl fun hs hg hm => ?_
  · exact reads_none
  all_goals
    dsimp only [encodeFirst, joined]
    simp only [sh, toNat_bits, Nat.add_eq, Nat.reduceAdd]
    omega

theorem reads17 (w : Nat) : Reads 0x17 w (decodeMajor17 w) := by
  unfold decodeMajor17
  refine reads_ite ?_ fun hc => isWordOf_of_fields [2, 6, 5, 5, 5, 4, 2, 3] rfl rfl rfl fun hs hg hm => ?_
  iterate 2 refine reads_ite ?_ fun hc => isWordOf_of_fields [2, 6, 5, 5, 9, 2, 3] rfl rfl rfl fun hs hg hm => ?_
  · exact reads_none
  all_goals
    dsimp only [encodeFirst, joined]
    simp only [sh, toNat_bits, Nat.add_eq, Nat.reduceAdd]
    omega

theorem reads18 (w : Nat) : Reads 0x18 w (decodeMajor18 w) := by
  unfold decodeMajor18
  refine reads_ite ?_ fun hc => isWordOf_of_fields [2, 6, 5, 5, 5, 4, 2, 3] rfl rfl rfl fun hs hg hm => ?_
  refine reads_ite ?_ fun hc => isWordOf_of_fields [2, 6, 5, 5, 9, 2, 3] rfl rfl rfl fun hs hg hm => ?_
  · exact reads_none
  all_goals
    dsimp only [encodeFirst, joined]
    simp only [sh, toNat_bits, Nat.add_eq, Nat.reduceAdd]
    omega

theorem reads19 (w : Nat) : Reads 0x19 w (decodeMajor19 w) := by
  unfold decodeMajor19
  refine reads_ite ?_ fun hc => isWordOf_of_fields [2, 6, 5, 5, 5, 4, 1, 2, 2] rfl rfl rfl fun hs hg hm => ?_
  iterate 2 refine reads_ite ?_ fun hc => isWordOf_of_fields [2, 6, 5, 5, 5, 5, 2, 1, 1] rfl rfl rfl fun hs hg hm => ?_
  iterate 9 refine reads_ite ?_ fun hc => isWordOf_of_fields [2, 6, 5, 5, 5, 4, 1, 2, 1, 1] rfl rfl rfl fun hs hg hm => ?_
  refine reads_ite ?_ fun hc => isWordOf_of_fields [1, 1, 6, 5, 5, 5, 5, 2, 1, 1] rfl rfl rfl fun hs hg hm => ?_
  · exact reads_none
  all_goals
    dsimp only [encodeFirst, joined]
    simp only [sh, toNat_bits, toNat_bit, Nat.add_eq, Nat.reduceAdd]
    omega

theorem reads1A (w : Nat) : Reads 0x1A w (decodeMajor1A w) := by
  unfold decodeMajor1A
  iterate 5 refine reads_ite ?_ fun hc => isWordOf_of_fields [2, 6, 5, 5, 5, 3, 1, 5] rfl rfl rfl fun hs hg hm => ?_
  · exact reads_none
  all_goals
    dsimp only [encodeFirst, joined]
    simp only [sh, toNat_bits, toNat_bit, Nat.add_eq, Nat.reduceAdd]
    omega

theorem reads1B (w : Nat) : Reads 0x1B w (decodeMajor1B w) := by
  unfold decodeMajor1B
  refine reads_ite ?_ fun hc => isWordOf_of_fields [2, 6, 5, 5, 5, 9] rfl rfl rfl fun hs hg hm => ?_
  iterate 3 refine reads_ite ?_ fun hc => isWordOf_of_fields [2, 6, 5, 5, 5, 3, 3, 3] rfl rfl rfl fun hs hg hm => ?_
  · exact reads_none
  all_goals
    dsimp only [encodeFirst, joined]
    simp only [sh, toNat_bits, Nat.add_eq, Nat.reduceAdd]
    omega

theorem reads1C (w : Nat) : Reads 0x1C w (decodeMajor1C w) := by
  unfold decodeMajor1C
  refine reads_ite ?_ fun hc => isWordOf_of_fields [2, 6, 5, 5, 3, 5, 2, 4] rfl rfl rfl fun hs hg hm => ?_
  · exact reads_none
  all_goals
    dsimp only [encodeFirst, joined]
    simp only [sh, toNat_bits, Nat.add_eq, Nat.reduceAdd]
    omega

theorem reads1D (w : Nat) : Reads 0x1D w (decodeMajor1D w) := by
  unfold decodeMajor1D
  iterate 6 refine reads_ite ?_ fun hc => isWordOf_of_fields [2, 6, 5, 5, 5, 9] rfl rfl rfl fun hs hg hm => ?_
  · exact reads_none
  all_goals
    dsimp only [encodeFirst, joined]
    simp only [sh, toNat_bits, Nat.add_eq, Nat.reduceAdd]
    omega

theorem reads1E (w : Nat) : Reads 0x1E w (decodeMajor1E w) := by
  unfold decodeMajor1E
  iterate 6 refine reads_ite ?_ fun hc => isWordOf_of_fields [2, 6, 5, 5, 5, 9] rfl rfl rfl fun hs hg hm => ?_
  · exact reads_none
  all_goals
    dsimp only [encodeFirst, joined]
    simp only [sh, toNat_bits, Nat.add_eq, Nat.reduceAdd]
    omega

theorem reads1F (w : Nat) : Reads 0x1F w (decodeMajor1F w) := by
  unfold decodeMajor1F
  iterate 3 refine reads_ite ?_ fun hc => isWordOf_of_fields [2, 6, 5, 5, 12, 2] rfl rfl rfl fun hs hg hm => ?_
  · exact reads_none
  all_goals
    dsimp only [encodeFirst, joined]
    simp only [sh, toNat_bits, Nat.add_eq, Nat.reduceAdd]
    omega

theorem reads20 (w : Nat) : Reads 0x20 w (decodeMajor20 w) := by
  unfold decodeMajor20
  iterate 25 refine reads_ite ?_ fun hc => isWordOf_of_fields [1, 1, 6, 5, 5, 5, 6, 3] rfl rfl rfl fun hs hg hm => ?_
  · exact reads_none
  all_goals
    dsimp only [encodeFirst, joined]
    simp only [sh, toNat_bits, toNat_bit, Nat.add_eq, Nat.reduceAdd]
    omega

theorem reads21 (w : Nat) : Reads 0x21 w (decodeMajor21 w) := by
  unfold decodeMajor21
  iterate 9 refine reads_ite ?_ fun hc => isWordOf_of_fields [1, 1, 6, 5, 5, 5, 6, 3] rfl rfl rfl fun hs hg hm => ?_
  · exact reads_none
  all_goals
    dsimp only [encodeFirst, joined]
    simp only [sh, toNat_bits, toNat_bit, Nat.add_eq, Nat.reduceAdd]
    omega

theorem reads22 (w : Nat) : Reads 0x22 w (decodeMajor22 w) := by
  unfold decodeMajor22
  refine reads_ite ?_ fun hc => isWordOf_of_fields [1, 1, 6, 5, 5, 5, 4, 4, 1] rfl rfl rfl fun hs hg hm => ?_
  · exact reads_none
  all_goals
    dsimp only [encodeFirst, joined]
    simp only [sh, toNat_bits, toNat_bit, Nat.add_eq, Nat.reduceAdd]
    omega

theorem reads23 (w : Nat) : Reads 0x23 w (decodeMajor23 w) := by
  unfold decodeMajor23
  iterate 9 refine reads_ite ?_ fun hc => isWordOf_of_fields [1, 1, 6, 5, 5, 5, 6, 3] rfl rfl rfl fun hs hg hm => ?_
  · exact reads_none
  all_goals
    dsimp only [encodeFirst, joined]
    simp only [sh, toNat_bits, toNat_bit, Nat.add_eq, Nat.reduceAdd]
    omega

theorem reads24 (w : Nat) : Reads 0x24 w (decodeMajor24 w) := by
  unfold decodeMajor24
  iterate 4 refine reads_ite ?_ fun hc => isWordOf_of_fields [1, 1, 6, 5, 5, 5, 9] rfl rfl rfl fun hs hg hm => ?_
  refine reads_ite ?_ fun hc => isWordOf_of_fields [1, 1, 6, 5, 5, 5, 6, 3] rfl rfl rfl fun hs hg hm => ?_
  refine reads_some (isWordOf_of_fields [1, 1, 6, 5, 5, 5, 6, 3] rfl rfl rfl fun hs hg hm => ?_)
  all_goals
    dsimp only [encodeFirst, joined]
    simp only [sh, toNat_bits, toNat_bit, Nat.add_eq, Nat.reduceAdd]
    omega

theorem reads25 (w : Nat) : Reads 0x25 w (decodeMajor25 w) := by
  unfold decodeMajor25
  iterate 3 refine reads_ite ?_ fun hc => isWordOf_of_fields [2, 6, 5, 5, 5, 9] rfl rfl rfl fun hs hg hm => ?_
  · exact reads_none
  all_goals
    dsimp only [encodeFirst, joined]
    simp only [sh, toNat_bits, Nat.add_eq, Nat.reduceAdd]
    omega

theorem reads26 (w : Nat) : Reads 0x26 w (decodeMajor26 w) := by
  unfold decodeMajor26
  iterate 3 refine reads_ite ?_ fun hc => isWordOf_of_fields [2, 6, 5, 5, 5, 9] rfl rfl rfl fun hs hg hm => ?_
  · exact reads_none
  all_goals
    dsimp only [encodeFirst, joined]
    simp only [sh, toNat_bits, Nat.add_eq, Nat.reduceAdd]
    omega

theorem reads27 (w : Nat) : Reads 0x27 w (decodeMajor27 w) := by
  unfold decodeMajor27
  refine reads_ite ?_ fun hc => isWordOf_of_fields [2, 6, 5, 5, 5, 9] rfl rfl rfl fun hs hg hm => ?_
  refine reads_ite ?_ fun hc => isWordOf_of_fields [2, 6, 5, 5, 5, 1, 8] rfl rfl rfl fun hs hg hm => ?_
  refine reads_ite ?_ fun hc => isWordOf_of_fields [2, 6, 5, 5, 5, 9] rfl rfl rfl fun hs hg hm => ?_
  iterate 7 refine reads_ite ?_ fun hc => isWordOf_of_fields [2, 6, 5, 5, 5, 1, 8] rfl rfl rfl fun hs hg hm => ?_
  refine reads_ite ?_ fun hc => isWordOf_of_fields [1, 1, 6, 5, 5, 5, 1, 8] rfl rfl rfl fun hs hg hm => ?_
  refine reads_ite ?_ fun hc => isWordOf_of_fields [1, 1, 6, 5, 5, 5, 1, 1, 7] rfl rfl rfl fun hs hg hm => ?_
  · exact reads_none
  all_goals
    dsimp only [encodeFirst, joined]
    simp only [sh, toNat_bits, toNat_bit, Nat.add_eq, Nat.reduceAdd]
    omega

theorem reads28 (w : Nat) : Reads 0x28 w (decodeMajor28 w) := by
  unfold decodeMajor28
  iterate 3 refine reads_ite ?_ fun hc => isWordOf_of_fields [2, 6, 5, 5, 5, 9] rfl rfl rfl fun hs hg hm => ?_
  · exact reads_none
  all_goals
    dsimp only [encodeFirst, joined]
    simp only [sh, toNat_bits, Nat.add_eq, Nat.reduceAdd]
    omega

theorem reads29 (w : Nat) : Reads 0x29 w (decodeMajor29 w) := by
  unfold decodeMajor29
  refine reads_ite ?_ fun hc => isWordOf_of_fields [2, 6, 5, 5, 5, 9] rfl rfl rfl fun hs hg hm => ?_
  refine reads_ite ?_ fun hc => isWordOf_of_fields [2, 6, 5, 5, 1, 4, 9] rfl rfl rfl fun hs hg hm => ?_
  iterate 2 refine reads_ite ?_ fun hc => isWordOf_of_fields [2, 6, 5, 5, 5, 9] rfl rfl rfl fun hs hg hm => ?_
  · exact reads_none
  all_goals
    dsimp only [encodeFirst, joined]
    simp only [sh, toNat_bits, toNat_bit, Nat.add_eq, Nat.reduceAdd]
    omega

theorem reads2A (w : Nat) : Reads 0x2A w (decodeMajor2A w) := by
  unfold decodeMajor2A
  iterate 7 refine reads_ite ?_ fun hc => isWordOf_of_fields [2, 6, 5, 5, 5, 9] rfl rfl rfl fun hs hg hm => ?_
  · exact reads_none
  all_goals
    dsimp only [encodeFirst, joined]
    simp only [sh, toNat_bits, Nat.add_eq, Nat.reduceAdd]
    omega

theorem reads2B (w : Nat) : Reads 0x2B w (decodeMajor2B w) := by
  unfold decodeMajor2B
  iterate 9 refine reads_ite ?_ fun hc => isWordOf_of_fields [2, 6, 5, 5, 5, 9] rfl rfl rfl fun hs hg hm => ?_
  · exact reads_none
  all_goals
    dsimp only [encodeFirst, joined]
    simp only [sh, toNat_bits, Nat.add_eq, Nat.reduceAdd]
    omega

theorem reads2C (w : Nat) : Reads 0x2C w (decodeMajor2C w) := by
  unfold decodeMajor2C
  iterate 7 refine reads_ite ?_ fun hc => isWordOf_of_fields [2, 6, 5, 5, 5, 9] rfl rfl rfl fun hs hg hm => ?_
  · exact reads_none
  all_goals
    dsimp only [encodeFirst, joined]
    simp only [sh, toNat_bits, Nat.add_eq, Nat.reduceAdd]
    omega

theorem reads2D (w : Nat) : Reads 0x2D w (decodeMajor2D w) := by
  unfold decodeMajor2D
  iterate 8 refine reads_ite ?_ fun hc => isWordOf_of_fields [2, 6, 5, 5, 5, 9] rfl rfl rfl fun hs hg hm => ?_
  · exact reads_none
  all_goals
    dsimp only [encodeFirst, joined]
    simp only [sh, toNat_bits, Nat.add_eq, Nat.reduceAdd]
    omega

theorem reads2E (w : Nat) : Reads 0x2E w (decodeMajor2E w) := by
  unfold decodeMajor2E
  iterate 3 refine reads_ite ?_ fun hc => isWordOf_of_fields [2, 6, 5, 5, 5, 9] rfl rfl rfl fun hs hg hm => ?_
  · exact reads_none
  all_goals
    dsimp only [encodeFirst, joined]
    simp only [sh, toNat_bits, Nat.add_eq, Nat.reduceAdd]
    omega

theorem reads2F (w : Nat) : Reads 0x2F w (decodeMajor2F w) := by
  unfold decodeMajor2F
  iterate 14 refine reads_ite ?_ fun hc => isWordOf_of_fields [1, 1, 6, 5, 5, 5, 9] rfl rfl rfl fun hs hg hm => ?_
  · exact reads_none
  all_goals
    dsimp only [encodeFirst, joined]
    simp only [sh, toNat_bits, toNat_bit, Nat.add_eq, Nat.reduceAdd]
    omega

/-- The decoder of the 32-bit words, by major opcode (R55). -/
theorem reads_decodeMajor (w : Nat) : Reads (fld w 2 6) w (decodeMajor w) := by
  unfold decodeMajor
  generalize hm : fld w 2 6 = m
  split
  · exact reads01 w
  · exact reads02 w
  · exact reads03 w
  · exact reads04 w
  · exact reads05 w
  · exact reads06 w
  · exact reads07 w
  · exact reads08 w
  · exact reads09 w
  · exact reads0A w
  · exact reads0B w
  · exact reads0C w
  · exact reads0D w
  · exact reads0E w
  · exact reads0F w
  · exact reads10 w
  · exact reads11 w
  · exact reads12 w
  · exact reads13 w
  · exact reads14 w
  · exact reads15 w
  · exact reads16 w
  · exact reads17 w
  · exact reads18 w
  · exact reads19 w
  · exact reads1A w
  · exact reads1B w
  · exact reads1C w
  · exact reads1D w
  · exact reads1E w
  · exact reads1F w
  · exact reads20 w
  · exact reads21 w
  · exact reads22 w
  · exact reads23 w
  · exact reads24 w
  · exact reads25 w
  · exact reads26 w
  · exact reads27 w
  · exact reads28 w
  · exact reads29 w
  · exact reads2A w
  · exact reads2B w
  · exact reads2C w
  · exact reads2D w
  · exact reads2E w
  · exact reads2F w
  · exact reads_none

/-- A prefix word is the word of its instruction (R47). -/
theorem isWord_decodePfx {w : Nat} {i : Instr} (h : decodePfx w = some i) :
    isEvent i = false ∧ encodePayload i = none ∧ (w < 2 ^ 32 → fld w 0 2 = 2 → encodeFirst i = w) := by
  unfold decodePfx at h
  obtain ⟨hz, hi⟩ := (Option.ite_none_right_eq_some).mp h
  obtain rfl := Option.some.inj hi
  refine ⟨rfl, rfl, fun hlt hsel => .trans ?_ (joined_word (ns := [2, 3, 1, 2, 4, 1, 5, 14]) hlt rfl)⟩
  dsimp only [encodeFirst, joined]
  simp only [sh, toNat_bits, toNat_bit, Nat.add_eq, Nat.reduceAdd]
  omega

/-- The word is the first of a long instruction with the payload `p`. -/
def IsLongOf (w p : Nat) (i : Instr) : Prop :=
  isEvent i = false ∧ encodePayload i = some (BitVec.ofNat 32 p) ∧ (w < 2 ^ 32 → fld w 0 2 = 3 → fld w 2 1 = 0 → encodeFirst i = w)

/-- One row of the table of long instructions. -/
theorem isLongOf_of_fields {w p : Nat} {c : Prop} [Decidable c] {i j : Instr} (h : (if c then some j else none) = some i) (ns : List Nat)
    (hev : isEvent j = false) (hp : encodePayload j = some (BitVec.ofNat 32 p)) (hsum : ns.sum = 32)
    (he : c → fld w 0 2 = 3 → fld w 2 1 = 0 → encodeFirst j = joined w 0 ns) : IsLongOf w p i := by
  obtain ⟨hc, hi⟩ := (Option.ite_none_right_eq_some).mp h
  obtain rfl := Option.some.inj hi
  exact ⟨hev, hp, fun hlt hsel hg => (he hc hsel hg).trans (joined_word hlt hsum)⟩

/-- The first word of a long instruction is its instruction's, which has the payload that was read (R41, R56). -/
theorem isLongOf_decodeLong {w p : Nat} {i : Instr} (h : decodeLong w p = some i) : IsLongOf w p i := by
  unfold decodeLong at h
  split at h
  case h_9 => exact nomatch h
  case' h_1 => refine isLongOf_of_fields h [2, 1, 5, 5, 19] rfl rfl rfl fun hz hs hg => ?_
  case' h_2 => refine isLongOf_of_fields h [2, 1, 5, 5, 19] rfl rfl rfl fun hz hs hg => ?_
  case' h_3 => refine isLongOf_of_fields h [2, 1, 5, 5, 5, 14] rfl rfl rfl fun hz hs hg => ?_
  case' h_4 => refine isLongOf_of_fields h [2, 1, 5, 5, 19] rfl rfl rfl fun hz hs hg => ?_
  case' h_5 => refine isLongOf_of_fields h [2, 1, 5, 5, 5, 9, 2, 3] rfl rfl rfl fun hz hs hg => ?_
  case' h_6 => refine isLongOf_of_fields h [2, 1, 5, 5, 5, 9, 2, 3] rfl rfl rfl fun hz hs hg => ?_
  case' h_7 => refine isLongOf_of_fields h [2, 1, 5, 5, 16, 3] rfl rfl rfl fun hz hs hg => ?_
  case' h_8 => refine isLongOf_of_fields h [2, 1, 5, 5, 5, 5, 9] rfl rfl rfl fun hz hs hg => ?_
  all_goals
    dsimp only [encodeFirst, joined]
    simp only [sh, toNat_bits, toNat_bit, Nat.add_eq, Nat.reduceAdd]
    omega

/-- What a word that decodes is, by its selector (R40). -/
theorem decodeWord_cases {w p : Nat} {i : Instr} (h : decodeWord w p = .ok i) :
    (fld w 0 2 = 3 ∧ decodeLong w p = some i) ∨ (fld w 0 2 = 2 ∧ decodePfx w = some i) ∨
      (fld w 0 2 ≠ 3 ∧ fld w 0 2 ≠ 2 ∧ decodeMajor w = some i) := by
  have hok : ∀ (o : Option Instr) (e : DecodeError), o.elim (.error e) .ok = (.ok i : Except DecodeError Instr) → o = some i := by
    intro o e ho
    cases o with
    | none => exact nomatch ho
    | some j => exact congrArg some (Except.ok.inj ho)
  unfold decodeWord at h
  split at h
  · exact .inl ⟨‹_›, hok _ _ h⟩
  · exact .inr (.inl ⟨‹_›, hok _ _ h⟩)
  · exact .inr (.inr ⟨‹_›, ‹_›, hok _ _ h⟩)

/-- What the decoder answers to a word is no event. -/
theorem isEvent_of_decodeWord {w p : Nat} {i : Instr} (h : decodeWord w p = .ok i) : isEvent i = false := by
  obtain ⟨-, h⟩ | ⟨-, h⟩ | ⟨-, -, h⟩ := decodeWord_cases h
  · exact (isLongOf_decodeLong h).1
  · exact (isWord_decodePfx h).1
  · exact (reads_decodeMajor w i h).1

/-- What the decoder answers to bytes is what it answers to a word. -/
theorem decode_word {l rest : List Byte} {i : Instr} (h : decode l = .ok (i, rest)) : ∃ w p, decodeWord w p = .ok i := by
  have hmap : ∀ (r : Except DecodeError Instr) (x : List Byte), r.map (fun j => (j, x)) = .ok (i, rest) → r = .ok i := by
    intro r x hr
    cases r with
    | error e => exact nomatch hr
    | ok j => exact congrArg Except.ok (congrArg Prod.fst (Except.ok.inj hr))
  unfold decode at h
  split at h
  · dsimp only at h
    split at h
    · split at h
      · exact ⟨_, _, hmap _ _ h⟩
      · exact nomatch h
    · exact ⟨_, _, hmap _ _ h⟩
  · exact nomatch h

/-- Settles O2: what each table of the decoder answers is an instruction whose word, and payload, were read. -/
theorem wordsHaveOneMeaningAndAreNoEvents : Obligations.WordsHaveOneMeaningAndAreNoEvents := by
  unfold Obligations.WordsHaveOneMeaningAndAreNoEvents
  refine ⟨fun w p i hw _ hgov h => ?_, fun l rest i h => ?_⟩
  · have hsel : selGoverned w = (fld w 0 2 == 1 || (fld w 0 2 == 3 && fld w 2 1 == 1)) := rfl
    have hlong : selLong w = (fld w 0 2 == 3) := rfl
    rw [hsel, Bool.or_eq_false_iff, beq_eq_false_iff_ne] at hgov
    obtain ⟨hodd, hgov⟩ := hgov
    obtain ⟨h3, h⟩ | ⟨h2, h⟩ | ⟨h3, h2, h⟩ := decodeWord_cases h
    · obtain ⟨-, hp, he⟩ := isLongOf_decodeLong h
      rw [h3] at hgov hlong
      have hbit : fld w 2 1 < 2 := Nat.mod_lt _ (by decide)
      have hg : fld w 2 1 ≠ 1 := by simpa using hgov
      exact ⟨he hw h3 (by omega), fun _ => hp, fun hshort => Bool.noConfusion (hlong.symm.trans hshort)⟩
    · obtain ⟨-, hp, he⟩ := isWord_decodePfx h
      rw [h2] at hlong
      exact ⟨he hw h2, fun hl => Bool.noConfusion (hlong.symm.trans hl), fun _ => hp⟩
    · obtain ⟨-, hp, he⟩ := reads_decodeMajor w i h
      have hlt : fld w 0 2 < 4 := Nat.mod_lt _ (by decide)
      refine ⟨he hw (by omega) rfl, fun hl => absurd (hlong.symm.trans hl) (by simpa using h3), fun _ => hp⟩
  · obtain ⟨w, p, hword⟩ := decode_word h
    exact isEvent_of_decodeWord hword

end Sys2Proof.Encoding
end

section
/-! Memory under the operations of the units: each leaves every byte as it is. -/

namespace Sys2Proof.Canon
set_option Elab.async false
open Sys2Proof Sys2Proof.Machine

/-- A fold of an operation that leaves memory alone leaves memory alone. -/
theorem mem_foldl {α : Type} (f : State → α → State) (hf : ∀ s a, (f s a).mem = s.mem) (l : List α) (s : State) :
    (l.foldl f s).mem = s.mem := by
  induction l generalizing s with
  | nil => rfl
  | cons a l ih => exact (ih _).trans (hf s a)

@[simp] theorem mem_nextFocus (s : State) : (s.nextFocus).mem = s.mem := by
  unfold State.nextFocus
  dsimp only
  repeat' split
  all_goals simp

@[simp] theorem mem_switchSlot (s : State) (node k : Nat) : (s.switchSlot node k).mem = s.mem := by
  simp only [State.switchSlot, setCore_mem]

@[simp] theorem mem_stall (s : State) (w : Wait) : (s.stall w).mem = s.mem := by
  simp only [State.stall, setC_mem, mem_switchSlot]

@[simp] theorem mem_poolDone (s : State) (line : Nat) : (s.poolDone line).mem = s.mem := by
  unfold State.poolDone; rfl

@[simp] theorem mem_setSlice (s : State) (node die t : Nat) (x4 : Slice) : (s.setSlice node die t x4).mem = s.mem := by
  simp only [State.setSlice, setDie_mem]

@[simp] theorem mem_mapLine (s : State) (node die t : Nat) (asid : BitVec 16) (vline : Nat) (f : SliceLine → SliceLine) : (s.mapLine node die t asid vline f).mem = s.mem := by
  simp [State.mapLine, mem_setSlice, apply_ite State.mem]

@[simp] theorem mem_setDir (s : State) (pl : Nat) (d : DirEnt) : (s.setDir pl d).mem = s.mem := by
  unfold State.setDir; rfl

@[simp] theorem mem_merge (s : State) (pl : Nat) : (s.merge pl).mem = s.mem := (Safety.copiesOnly_merge s pl).mem

@[simp] theorem mem_prunePointers (s : State) (pl : Nat) : (s.prunePointers pl).mem = s.mem := by
  simp only [State.prunePointers, mem_setDir]

@[simp] theorem mem_pruneRemotes (s : State) (pl : Nat) : (s.pruneRemotes pl).mem = s.mem := by
  simp [State.pruneRemotes, mem_prunePointers, mem_setDir, apply_ite State.mem]

@[simp] theorem mem_dropWalks (s : State) (line : Nat) : (s.dropWalks line).mem = s.mem := by
  simp [State.dropWalks, mem_setSlice, mem_pruneRemotes, mem_setDir, mem_foldl, apply_ite State.mem]

@[simp] theorem mem_l1drop (s : State) (node k : Nat) (asid : BitVec 16) (vline : Nat) (taken : Bool) : (s.l1drop node k asid vline taken).mem = s.mem := by
  unfold State.l1drop
  dsimp only
  repeat' split
  all_goals simp [setCore_mem, mem_mapLine]

@[simp] theorem mem_unlistSlice (s : State) (pl node die t : Nat) : (s.unlistSlice pl node die t).mem = s.mem := by
  simp [State.unlistSlice, mem_setDir, mem_prunePointers, apply_ite State.mem]

@[simp] theorem mem_dropLine (s : State) (node die t : Nat) (x4 : SliceLine) (taken : Bool) : (s.dropLine node die t x4 taken).mem = s.mem := by
  simp [State.dropLine, mem_l1drop, mem_setSlice, mem_unlistSlice, mem_foldl, apply_ite State.mem]

@[simp] theorem mem_recallAt (s : State) (pl : Nat) (h : Nat × Nat × Nat) (keep : Option Keep) : (s.recallAt pl h keep).mem = s.mem := (Safety.copiesOnly_recallAt s pl h keep).mem

@[simp] theorem mem_recall (s : State) (pl : Nat) (keep : Option Keep) : (s.recall pl keep).mem = s.mem := by
  simp [State.recall, mem_pruneRemotes, mem_recallAt, mem_setDir, mem_foldl]

@[simp] theorem mem_walkerReads (s : State) (line node die t : Nat) : (s.walkerReads line node die t).mem = s.mem := by
  simp [State.walkerReads, mem_setDir, apply_ite State.mem]

@[simp] theorem mem_setTry (s : State) (q : Req) (t : Try) : (s.setTry q t).mem = s.mem := by
  unfold State.setTry
  split <;> simp [setCtx_mem, apply_ite State.mem]

@[simp] theorem mem_countLeaf (s : State) (q : Req) (va : Nat) : (s.countLeaf q va).mem = s.mem := by
  unfold State.countLeaf
  dsimp only
  repeat' split
  all_goals simp [mem_setSlice, mem_setTry]

@[simp] theorem mem_pinPage (s : State) (q : Req) (va : Nat) (l : Leaf) : (s.pinPage q va l).mem = s.mem := by
  unfold State.pinPage
  split <;> simp [apply_ite State.mem]

@[simp] theorem mem_dropLeaf (s : State) (eaddr : Nat) : (s.dropLeaf eaddr).mem = s.mem := by
  unfold State.dropLeaf; rfl

@[simp] theorem mem_arriveAt (s : State) (q : Req) (pa : Nat) : (s.arriveAt q pa).mem = s.mem := by
  unfold State.arriveAt
  dsimp only
  repeat' split
  all_goals simp [mem_setTry]

@[simp] theorem mem_setRegion (s : State) (node n : Nat) (r : Region) : (s.setRegion node n r).mem = s.mem := by
  simp only [State.setRegion, setPkg_mem]

@[simp] theorem mem_noteFail (s : State) (t : TrapInfo) : (s.noteFail t).mem = s.mem := by
  unfold State.noteFail
  split <;> simp [mem_setRegion]

@[simp] theorem mem_unpin (s : State) (no : Nat) : (s.unpin no).mem = s.mem := by
  unfold State.unpin; rfl

@[simp] theorem mem_freeCmd (s : State) (node p no : Nat) : (s.freeCmd node p no).mem = s.mem := by
  simp only [State.freeCmd, mem_unpin, setPolder_mem]

@[simp] theorem mem_withdrawExch (s : State) (id : CtxId) : (s.withdrawExch id).mem = s.mem := by
  simp [State.withdrawExch, mem_freeCmd, setPolder_mem, mem_foldl]

@[simp] theorem mem_now (s : State) (i : Instr) (e : Ev) : (s.now i e).mem = s.mem := by
  unfold State.now; rfl

@[simp] theorem mem_nowOnce (s : State) (i : Instr) (e : Ev) : (s.nowOnce i e).mem = s.mem := by
  simp [State.nowOnce, mem_now, apply_ite State.mem]

@[simp] theorem mem_counterNotify (s : State) (node p la n : Nat) : (s.counterNotify node p la n).mem = s.mem := by
  unfold State.counterNotify
  dsimp only
  repeat' split
  all_goals simp [mem_nowOnce]

@[simp] theorem mem_barNotify (s : State) (node p la n : Nat) : (s.barNotify node p la n).mem = s.mem := by
  simp [State.barNotify, apply_ite State.mem]

@[simp] theorem mem_enq (s : State) (i : Instr) (e : Ev) : (s.enq i e).mem = s.mem := by
  unfold State.enq; rfl

@[simp] theorem mem_askLease (s : State) (node p : Nat) : (s.askLease node p).mem = s.mem := by
  simp [State.askLease, mem_enq, apply_ite State.mem]

@[simp] theorem mem_leaseGone (s : State) (node p : Nat) : (s.leaseGone node p).mem = s.mem := by
  simp [State.leaseGone, setPolder_mem, mem_askLease, apply_ite State.mem]

@[simp] theorem mem_handlerEnded (s : State) (id : CtxId) (gen : BitVec 12) : (s.handlerEnded id gen).mem = s.mem := by
  simp [State.handlerEnded, setPolder_mem, mem_enq, mem_foldl]

@[simp] theorem mem_creditBack (s : State) (node p name part : Nat) : (s.creditBack node p name part).mem = s.mem := by
  unfold State.creditBack
  dsimp only
  repeat' split
  all_goals simp [setPolder_mem]

@[simp] theorem mem_dropTok (s : State) (id : CtxId) : (s.dropTok id).mem = s.mem := by
  unfold State.dropTok
  split <;> simp [mem_creditBack, setCtx_mem, apply_ite State.mem]

@[simp] theorem mem_setLost (s : State) (pl : Nat) (m : BitVec 64) : (s.setLost pl m).mem = s.mem := by
  unfold State.setLost; rfl

@[simp] theorem mem_lockReplyTo (s : State) (id : CtxId) (line status : Nat) : (s.lockReplyTo id line status).mem = s.mem := by
  simp only [State.lockReplyTo, setCtx_mem]

@[simp] theorem mem_setLock (s : State) (line : Nat) (l : Lock) : (s.setLock line l).mem = s.mem := by
  unfold State.setLock; rfl

@[simp] theorem mem_dropCore (s : State) (node k pl : Nat) (taken : Bool) : (s.dropCore node k pl taken).mem = s.mem := by
  simp [State.dropCore, mem_l1drop, mem_foldl]

@[simp] theorem mem_giveLock (s : State) (line : Nat) (id : CtxId) (scope : Nat) (l : Lock) (fresh : Bool) : (s.giveLock line id scope l fresh).mem = s.mem := by
  simp only [State.giveLock, mem_setLock, setCtx_mem]

@[simp] theorem mem_handOff (s : State) (line : Nat) : (s.handOff line).mem = s.mem := by
  unfold State.handOff
  dsimp only
  repeat' split
  all_goals simp [mem_setLost, mem_lockReplyTo, mem_setLock, mem_dropCore, mem_giveLock, mem_foldl]

@[simp] theorem mem_releaseArrived (s : State) (line : Nat) : (s.releaseArrived line).mem = s.mem := by
  unfold State.releaseArrived
  split <;> simp [mem_enq, mem_handOff, apply_ite State.mem]

@[simp] theorem mem_unhold (s : State) (id : CtxId) (line : Nat) (broken : Bool) (gen : Option (BitVec 12)) : (s.unhold id line broken gen).mem = s.mem := by
  simp only [State.unhold, mem_setLock]

@[simp] theorem mem_breakLock (s : State) (id : CtxId) (line : Nat) (gen : Option (BitVec 12)) : (s.breakLock id line gen).mem = s.mem := by
  simp only [State.breakLock, mem_releaseArrived, mem_unhold]

@[simp] theorem mem_leaveQueue (s : State) (id : CtxId) : (s.leaveQueue id).mem = s.mem := by
  unfold State.leaveQueue; rfl

@[simp] theorem mem_unbind (s : State) (node p m : Nat) : (s.unbind node p m).mem = s.mem := by
  unfold State.unbind
  split <;> simp [mem_enq, setPolder_mem, mem_foldl]

@[simp] theorem mem_unbindAll (s : State) (id : CtxId) : (s.unbindAll id).mem = s.mem := by
  simp [State.unbindAll, mem_unbind, mem_foldl]

@[simp] theorem mem_setPhaser (s : State) (node p i : Nat) (f : Phaser) : (s.setPhaser node p i f).mem = s.mem := by
  simp only [State.setPhaser, setPolder_mem]

@[simp] theorem mem_phDrop (s : State) (node p i : Nat) (m : PhMember) : (s.phDrop node p i m).mem = s.mem := by
  unfold State.phDrop
  dsimp only
  repeat' split
  all_goals simp [mem_setPhaser, mem_enq, setCore_mem]

@[simp] theorem mem_phDropAll (s : State) (id : CtxId) : (s.phDropAll id).mem = s.mem := by
  refine mem_foldl _ (fun t j => mem_foldl _ (fun u e => ?_) _ t) _ s
  split
  · exact mem_phDrop ..
  · rfl

@[simp] theorem mem_setQueue (s : State) (node q : Nat) (x3 : Queue) : (s.setQueue node q x3).mem = s.mem := by
  simp only [State.setQueue, setPkg_mem]

@[simp] theorem mem_noteDying (s : State) (id : CtxId) (gen : BitVec 12) (launch : Nat) : (s.noteDying id gen launch).mem = s.mem := by
  unfold State.noteDying
  repeat' split
  all_goals simp [mem_setQueue]

@[simp] theorem mem_markAbsent (s : State) (id : CtxId) (absent : Bool) : (s.markAbsent id absent).mem = s.mem := by
  unfold State.markAbsent; rfl

@[simp] theorem mem_machineCheck (s : State) (node k : Nat) (m : MCheck) : (s.machineCheck node k m).mem = s.mem := by
  simp only [State.machineCheck, setCore_mem]

@[simp] theorem mem_takeTrap (s : State) (id : CtxId) (t : TrapInfo) (long async pfx : Bool) : (s.takeTrap id t long async pfx).mem = s.mem := by
  simp [State.takeTrap, setCtx_mem, setCore_mem, mem_switchSlot, mem_machineCheck, apply_ite State.mem]

@[simp] theorem mem_tick (s : State) : (s.tick).mem = s.mem := by
  unfold State.tick; rfl

@[simp] theorem mem_retire (s : State) (i : Instr) : (s.retire i).mem = s.mem := by
  simp only [State.retire, complete_mem]

@[simp] theorem mem_dropUntracked (s : State) (q : Req) (vline : Nat) : (s.dropUntracked q vline).mem = s.mem := by
  unfold State.dropUntracked
  split <;> simp [mem_l1drop, apply_ite State.mem]

@[simp] theorem mem_dropSynonyms (s : State) (node k pl : Nat) (keep : Option (BitVec 16 × Nat)) : (s.dropSynonyms node k pl keep).mem = s.mem := by
  simp [State.dropSynonyms, setCore_mem, apply_ite State.mem]

@[simp] theorem mem_uncLoad (s : State) (q : Req) (vline pl : Nat) (excluded : Bool) : (s.uncLoad q vline pl excluded).mem = s.mem := by
  simp [State.uncLoad, mem_merge, mem_dropSynonyms, mem_l1drop, mem_recallAt, apply_ite State.mem]

@[simp] theorem mem_missSent (s : State) (q : Req) (vline pl : Nat) : (s.missSent q vline pl).mem = s.mem := by
  simp [State.missSent, mem_enq, setCore_mem, apply_ite State.mem]

@[simp] theorem mem_listSlice (s : State) (pl node die t : Nat) : (s.listSlice pl node die t).mem = s.mem := by
  simp [State.listSlice, mem_setDir, apply_ite State.mem]

@[simp] theorem mem_sliceFill (s : State) (node die : Nat) (asid : BitVec 16) (vline pl : Nat) (e : Word) : (s.sliceFill node die asid vline pl e).mem = s.mem := by
  unfold State.sliceFill
  dsimp only
  repeat' split
  all_goals simp [mem_setSlice, mem_dropLine, mem_listSlice]

@[simp] theorem mem_joinObj (s : State) (node k : Nat) (asid : BitVec 16) (vline : Nat) : (s.joinObj node k asid vline).mem = s.mem := by
  simp only [State.joinObj, setDie_mem]

@[simp] theorem mem_l1fill (s : State) (node k : Nat) (asid : BitVec 16) (vline pl : Nat) (st : LineState) (dirty : BitVec 64) (e : Word) (data : BitVec 512) : (s.l1fill node k asid vline pl st dirty e data).mem = s.mem := by
  unfold State.l1fill
  dsimp only
  repeat' split
  all_goals simp [mem_l1drop, setCore_mem, mem_sliceFill, mem_setDir, mem_joinObj, mem_mapLine]

@[simp] theorem mem_fillLoad (s : State) (q : Req) (vline pl typ : Nat) (e : Word) : (s.fillLoad q vline pl typ e).mem = s.mem := by
  simp [State.fillLoad, mem_dropSynonyms, mem_merge, mem_l1fill, apply_ite State.mem]

@[simp] theorem mem_l1touch (s : State) (q : Req) (l : L1Line) : (s.l1touch q l).mem = s.mem := by
  simp only [State.l1touch, setCore_mem]

@[simp] theorem mem_setFlags (s : State) (f : BitVec 5) : (s.setFlags f).mem = s.mem := by
  simp [State.setFlags, setC_mem, apply_ite State.mem]

@[simp] theorem mem_trace (s : State) (node p srcNode srcCore bytes la : Nat) : (s.trace node p srcNode srcCore bytes la).mem = s.mem := by
  simp [State.trace, setPolder_mem, apply_ite State.mem]

@[simp] theorem mem_lostWrite (s : State) (a n : Nat) : (s.lostWrite a n).mem = s.mem := by
  unfold State.lostWrite
  split <;> simp [mem_setLost]

@[simp] theorem mem_storeOwn (s : State) (q : Req) (va pa n : Nat) (e : Word) : (s.storeOwn q va pa n e).mem = s.mem := by
  simp only [State.storeOwn, mem_recall, mem_l1fill]

@[simp] theorem mem_touchHit (s : State) (q : Req) (vline : Nat) : (s.touchHit q vline).mem = s.mem := by
  unfold State.touchHit
  split <;> simp [mem_l1touch]

@[simp] theorem mem_storeThrough (s : State) (q : Req) (va pa : Nat) : (s.storeThrough q va pa).mem = s.mem := by
  simp only [State.storeThrough, mem_recall, mem_merge]

@[simp] theorem mem_updateUntracked (s : State) (q : Req) (va n v : Nat) : (s.updateUntracked q va n v).mem = s.mem := by
  simp only [State.updateUntracked, setCore_mem]

@[simp] theorem mem_poolQuarantine (s : State) (node n pa len v : Nat) : (s.poolQuarantine node n pa len v).mem = s.mem := by
  simp only [State.poolQuarantine, mem_setRegion]

@[simp] theorem mem_regionErr (s : State) (node n : Nat) : (s.regionErr node n).mem = s.mem := by
  simp only [State.regionErr, mem_setRegion]

@[simp] theorem mem_regionEnable (s : State) (node n v : Nat) : (s.regionEnable node n v).mem = s.mem := by
  simp [State.regionEnable, mem_setRegion, mem_regionErr, apply_ite State.mem]

@[simp] theorem mem_regionDisable (s : State) (node n v : Nat) : (s.regionDisable node n v).mem = s.mem := by
  simp [State.regionDisable, mem_enq, mem_setRegion, mem_regionErr, apply_ite State.mem]

@[simp] theorem mem_regionWrite0 (s : State) (node n v : Nat) : (s.regionWrite0 node n v).mem = s.mem := by
  simp [State.regionWrite0, mem_regionEnable, mem_setRegion, mem_regionErr, mem_regionDisable, apply_ite State.mem]

@[simp] theorem mem_regionWrite1 (s : State) (node n v : Nat) : (s.regionWrite1 node n v).mem = s.mem := by
  simp [State.regionWrite1, mem_setRegion, mem_regionErr, apply_ite State.mem]

@[simp] theorem mem_regionReattach (s : State) (node n : Nat) : (s.regionReattach node n).mem = s.mem := by
  simp [State.regionReattach, mem_setRegion, mem_regionErr, apply_ite State.mem]

@[simp] theorem mem_regionRelease (s : State) (node n : Nat) : (s.regionRelease node n).mem = s.mem := by
  simp [State.regionRelease, mem_setRegion, mem_regionErr, apply_ite State.mem]

@[simp] theorem mem_regionClearlog (s : State) (node n : Nat) : (s.regionClearlog node n).mem = s.mem := by
  simp only [State.regionClearlog, mem_setRegion]

@[simp] theorem mem_regionWrite2 (s : State) (node n v : Nat) : (s.regionWrite2 node n v).mem = s.mem := by
  unfold State.regionWrite2
  split <;> simp [mem_setRegion, mem_regionReattach, mem_regionRelease, mem_regionClearlog, mem_regionErr]

@[simp] theorem mem_ringWrite (s : State) (node p v : Nat) : (s.ringWrite node p v).mem = s.mem := by
  simp only [State.ringWrite, setPolder_mem]

@[simp] theorem mem_mcRestart (s : State) (node k : Nat) : (s.mcRestart node k).mem = s.mem := by
  simp [State.mcRestart, mem_enq, setCore_mem, setCtx_mem, apply_ite State.mem]

@[simp] theorem mem_mcClear (s : State) (node k : Nat) : (s.mcClear node k).mem = s.mem := by
  simp [State.mcClear, setCore_mem, apply_ite State.mem]

@[simp] theorem mem_recWrite (s : State) (node p o v : Nat) : (s.recWrite node p o v).mem = s.mem := by
  unfold State.recWrite
  repeat' split
  all_goals simp [mem_now]

@[simp] theorem mem_setComm (s : State) (node c : Nat) (m : Comm) : (s.setComm node c m).mem = s.mem := by
  simp only [State.setComm, setPkg_mem]

@[simp] theorem mem_commWrite (s : State) (node c v : Nat) : (s.commWrite node c v).mem = s.mem := by
  simp [State.commWrite, mem_setComm, mem_now, apply_ite State.mem]

@[simp] theorem mem_queueErr (s : State) (node q : Nat) : (s.queueErr node q).mem = s.mem := by
  simp only [State.queueErr, mem_setQueue]

@[simp] theorem mem_queueCmd (s : State) (node q c : Nat) : (s.queueCmd node q c).mem = s.mem := by
  unfold State.queueCmd
  split <;> simp [mem_now, mem_queueErr]

@[simp] theorem mem_queueWrite0 (s : State) (node q v : Nat) : (s.queueWrite0 node q v).mem = s.mem := by
  simp [State.queueWrite0, mem_queueErr, mem_queueCmd, mem_setQueue, apply_ite State.mem]

@[simp] theorem mem_queueTail (s : State) (node q v : Nat) : (s.queueTail node q v).mem = s.mem := by
  simp [State.queueTail, mem_queueErr, mem_enq, mem_setQueue, apply_ite State.mem]

@[simp] theorem mem_queueWrite (s : State) (node q i v : Nat) : (s.queueWrite node q i v).mem = s.mem := by
  unfold State.queueWrite
  split <;> simp [mem_queueWrite0, mem_queueErr, mem_setQueue, mem_queueTail, apply_ite State.mem]

@[simp] theorem mem_legWrite (s : State) (node d o v : Nat) : (s.legWrite node d o v).mem = s.mem := by
  unfold State.legWrite
  repeat' split
  all_goals simp [setDie_mem, mem_now]

@[simp] theorem mem_unitWrite (s : State) (node off v : Nat) : (s.unitWrite node off v).mem = s.mem := by
  simp [State.unitWrite, mem_recWrite, mem_commWrite, mem_queueWrite, mem_legWrite, apply_ite State.mem]

@[simp] theorem mem_ctlWrite (s : State) (node off v : Nat) : (s.ctlWrite node off v).mem = s.mem := by
  unfold State.ctlWrite
  repeat' split
  all_goals simp [setPkg_mem, mem_regionWrite0, mem_regionWrite1, mem_regionWrite2, mem_ringWrite, mem_mcRestart, mem_mcClear, mem_unitWrite]

@[simp] theorem mem_ctlWriteN (s : State) (node off n v : Nat) : (s.ctlWriteN node off n v).mem = s.mem := by
  simp only [State.ctlWriteN, mem_ctlWrite]

@[simp] theorem mem_sameRequest (s : State) (q : Req) (va : Nat) : (s.sameRequest q va).mem = s.mem := by
  simp [State.sameRequest, mem_setTry, apply_ite State.mem]

@[simp] theorem mem_drawn (s : State) (n : Nat) : (s.drawn n).mem = s.mem := by
  simp only [State.drawn, setC_mem]

@[simp] theorem mem_vqPush (s : State) (dest : Nat) (srcs : List Nat) : (s.vqPush dest srcs).mem = s.mem := by
  simp only [State.vqPush, mem_enq, setCC_mem]

@[simp] theorem mem_setP (s : State) (r : Reg) (v : Byte) : (s.setP r v).mem = s.mem := by
  simp only [State.setP, setC_mem]

@[simp] theorem mem_setPol (s : State) (q : Polder) : (s.setPol q).mem = s.mem := by
  simp only [State.setPol, setPolder_mem]

@[simp] theorem mem_retireTo (s : State) (t : Word) : (s.retireTo t).mem = s.mem := by
  simp only [State.retireTo, complete_mem]

@[simp] theorem mem_nmSend (s : State) (o : NmOp) : (s.nmSend o).mem = s.mem := by
  simp [State.nmSend, mem_l1drop, mem_recallAt, mem_enq, mem_foldl]

@[simp] theorem mem_lockResult (s : State) (d : Reg) (status : Nat) : (s.lockResult d status).mem = s.mem := by
  simp only [State.lockResult, setX_mem]

@[simp] theorem mem_lockFill (s : State) (r : LockReq) : (s.lockFill r).mem = s.mem := by
  unfold State.lockFill
  dsimp only
  repeat' split
  all_goals simp [mem_recall, mem_l1fill, mem_fillLoad]

@[simp] theorem mem_acquire (s : State) : (s.acquire).mem = s.mem := by
  simp only [State.acquire, setCC_mem]

@[simp] theorem mem_arrive (s : State) (id : CtxId) (pa : Nat) : (s.arrive id pa).mem = s.mem := by
  simp only [State.arrive, mem_arriveAt]

@[simp] theorem mem_lockAccept (s : State) (id : CtxId) (r : LockReq) (wait : Bool) : (s.lockAccept id r wait).mem = s.mem := by
  simp [State.lockAccept, mem_lockReplyTo, mem_arrive, mem_giveLock, mem_setLock, setCtx_mem, apply_ite State.mem]

@[simp] theorem mem_cleanCopies (s : State) (pl : Nat) : (s.cleanCopies pl).mem = s.mem := by
  unfold State.cleanCopies; rfl

@[simp] theorem mem_poolSend (s : State) (node line : Nat) : (s.poolSend node line).mem = s.mem := by
  unfold State.poolSend
  dsimp only
  repeat' split
  all_goals simp [mem_enq, setPkg_mem, mem_cleanCopies]

@[simp] theorem mem_lockRelease (s : State) (id : CtxId) (line : Nat) : (s.lockRelease id line).mem = s.mem := by
  simp [State.lockRelease, mem_releaseArrived, mem_unhold, apply_ite State.mem]

@[simp] theorem mem_invalidate (s : State) (reach : Nat → Nat → Bool) (leaf : Leaf → Bool) (ptr : PtrEnt → Bool) (line : BitVec 16 → Nat → Bool) : (s.invalidate reach leaf ptr line).mem = s.mem := by
  simp [State.invalidate, mem_dropLine, mem_foldl]

@[simp] theorem mem_surveyClear (s : State) (node : Nat) (asid : BitVec 16) (va : Nat) : (s.surveyClear node asid va).mem = s.mem := by
  simp [State.surveyClear, apply_ite State.mem]

@[simp] theorem mem_migLocks (s : State) (m : Mig) : (s.migLocks m).mem = s.mem := by
  unfold State.migLocks; rfl

@[simp] theorem mem_migEnd (s : State) (m : Mig) : (s.migEnd m).mem = s.mem := by
  unfold State.migEnd; rfl

@[simp] theorem mem_purge (s : State) (p : Nat → Bool) : (s.purge p).mem = s.mem := by
  unfold State.purge; rfl

@[simp] theorem mem_returnOps (s : State) (m : Mig) : (s.returnOps m).mem = s.mem := by
  simp [State.returnOps, mem_enq, mem_foldl]

@[simp] theorem mem_lockReturn (s : State) (id : CtxId) : (s.lockReturn id).mem = s.mem := by
  unfold State.lockReturn
  dsimp only
  repeat' split
  all_goals simp [mem_markAbsent, mem_lockReplyTo, mem_setLock, mem_giveLock]

@[simp] theorem mem_setLaunch (s : State) (node n : Nat) (l : Launch) : (s.setLaunch node n l).mem = s.mem := by
  simp only [State.setLaunch, setPkg_mem]

@[simp] theorem mem_itemEnd (s : State) (node k : Nat) (quit killed : Bool) : (s.itemEnd node k quit killed).mem = s.mem := by
  unfold State.itemEnd
  dsimp only
  repeat' split
  all_goals simp [setCore_mem, mem_setLaunch, mem_enq]

@[simp] theorem mem_csrWrite (s : State) (r : Csr) (w : Word) : (s.csrWrite r w).mem = s.mem := by
  unfold State.csrWrite
  split <;> simp [setC_mem, setCtx_mem, setCC_mem, mem_setPol, apply_ite State.mem]

@[simp] theorem mem_wakeEngine (s : State) (c : Cmd) : (s.wakeEngine c).mem = s.mem := by
  simp only [State.wakeEngine, mem_enq]

@[simp] theorem mem_putColl (s : State) (x1 : Coll) : (s.putColl x1).mem = s.mem := by
  unfold State.putColl; rfl

@[simp] theorem mem_askIdle (s : State) (node p : Nat) : (s.askIdle node p).mem = s.mem := by
  simp [State.askIdle, mem_askLease, apply_ite State.mem]

@[simp] theorem mem_setArray (s : State) (node p : Nat) (a : ArraySt) : (s.setArray node p a).mem = s.mem := by
  simp only [State.setArray, setPolder_mem]

@[simp] theorem mem_leaseGrant (s : State) (node p : Nat) (id : CtxId) (sa : Nat) : (s.leaseGrant node p id sa).mem = s.mem := by
  simp only [State.leaseGrant, mem_setArray, setCtx_mem]

@[simp] theorem mem_setMbox (s : State) (node p m : Nat) (b : Mbox) : (s.setMbox node p m b).mem = s.mem := by
  simp only [State.setMbox, setPolder_mem]

@[simp] theorem mem_handlerNow (s : State) (node p m : Nat) (b : Mbox) : (s.handlerNow node p m b).mem = s.mem := by
  unfold State.handlerNow
  split <;> simp [mem_setMbox, setCtx_mem]

@[simp] theorem mem_handlersFirst (s : State) (node k : Nat) : (s.handlersFirst node k).mem = s.mem := by
  simp [State.handlersFirst, mem_handlerNow, mem_foldl]

@[simp] theorem mem_popAcquire (s : State) (b : Mbox) : (s.popAcquire b).mem = s.mem := by
  unfold State.popAcquire
  split <;> simp [mem_acquire, apply_ite State.mem]

@[simp] theorem mem_popped (s : State) (m : Nat) (b : Mbox) : (s.popped m b).mem = s.mem := by
  simp [State.popped, mem_setMbox, mem_enq, apply_ite State.mem]

@[simp] theorem mem_tokEnd (s : State) (d : Reg) (w : Word) : (s.tokEnd d w).mem = s.mem := by
  simp only [State.tokEnd, setX_mem, setC_mem]

@[simp] theorem mem_setRepl (s : State) (node p name : Nat) (r : Repl) : (s.setRepl node p name r).mem = s.mem := by
  simp only [State.setRepl, setPolder_mem]

@[simp] theorem mem_freeSlotRow (s : State) (node p name k : Nat) : (s.freeSlotRow node p name k).mem = s.mem := by
  unfold State.freeSlotRow
  repeat' split
  all_goals simp [mem_setRepl, mem_enq, apply_ite State.mem]

@[simp] theorem mem_sendResult (s : State) (r : ResultRow) : (s.sendResult r).mem = s.mem := by
  simp only [State.sendResult, mem_enq]

@[simp] theorem mem_needRepl (s : State) (name e r : Nat) : (s.needRepl name e r).mem = s.mem := by
  unfold State.needRepl
  split <;> simp [mem_setRepl]

@[simp] theorem mem_syncRepls (s : State) (node name e : Nat) : (s.syncRepls node name e).mem = s.mem := by
  refine mem_foldl _ (fun t r => ?_) _ s
  split
  · rfl
  · split <;> simp [mem_setRepl]

@[simp] theorem mem_forgetFree (s : State) (node name e : Nat) : (s.forgetFree node name e).mem = s.mem := by
  unfold State.forgetFree; rfl

@[simp] theorem mem_setLegend (s : State) (node name e : Nat) : (s.setLegend node name e).mem = s.mem := by
  simp only [State.setLegend, setDie_mem]

@[simp] theorem mem_multicast (s : State) (own name e : Nat) : (s.multicast own name e).mem = s.mem := by
  simp [State.multicast, mem_enq, mem_foldl]

@[simp] theorem mem_legChange (s : State) (own name e : Nat) : (s.legChange own name e).mem = s.mem := by
  simp only [State.legChange, mem_syncRepls, mem_forgetFree, mem_setLegend, mem_enq, mem_multicast]

@[simp] theorem mem_enqOnce (s : State) (i : Instr) (e : Ev) : (s.enqOnce i e).mem = s.mem := by
  simp [State.enqOnce, mem_enq, apply_ite State.mem]

@[simp] theorem mem_accept (s : State) (t : Token) : (s.accept t).mem = s.mem := by
  simp only [State.accept, mem_enq]

@[simp] theorem mem_countDup (s : State) (node p : Nat) : (s.countDup node p).mem = s.mem := by
  simp only [State.countDup, setPolder_mem]

@[simp] theorem mem_setMark (s : State) (t : Token) : (s.setMark t).mem = s.mem := by
  simp [State.setMark, setPolder_mem, apply_ite State.mem]

@[simp] theorem mem_recallObj (s : State) (node die : Nat) (o : CohObj) : (s.recallObj node die o).mem = s.mem := by
  simp [State.recallObj, mem_dropLine, mem_foldl]

@[simp] theorem mem_dropObjLines (s : State) (node die h : Nat) : (s.dropObjLines node die h).mem = s.mem := by
  unfold State.dropObjLines; rfl

@[simp] theorem mem_slotSwitch (s : State) (node k : Nat) : (s.slotSwitch node k).mem = s.mem := by
  simp [State.slotSwitch, mem_switchSlot, apply_ite State.mem]

@[simp] theorem mem_bindOne (s : State) (node p : Nat) : (s.bindOne node p).mem = s.mem := by
  unfold State.bindOne
  dsimp only
  repeat' split
  all_goals simp [setCore_mem, mem_enq, setPolder_mem, mem_foldl, apply_ite State.mem]

@[simp] theorem mem_vectorBind (s : State) (node p : Nat) : (s.vectorBind node p).mem = s.mem := by
  simp [State.vectorBind, mem_enq, setPolder_mem, mem_bindOne, mem_foldl, apply_ite State.mem]

@[simp] theorem mem_homeRequest (s : State) (e : Ev) : (s.homeRequest e).mem = s.mem := by
  unfold State.homeRequest
  repeat' split
  all_goals simp [mem_enq, setCore_mem, mem_merge, mem_recall, apply_ite State.mem]

@[simp] theorem mem_l1clean (s : State) (node k : Nat) (l : L1Line) : (s.l1clean node k l).mem = s.mem := by
  simp only [State.l1clean, setCore_mem, mem_mapLine]

@[simp] theorem mem_writeBack (s : State) (node k pl : Nat) (gone : Bool) : (s.writeBack node k pl gone).mem = s.mem := by
  simp [State.writeBack, mem_l1drop, mem_l1clean, mem_foldl, apply_ite State.mem]

@[simp] theorem mem_nmLate (s : State) (id : CtxId) : (s.nmLate id).mem = s.mem := by
  unfold State.nmLate; rfl

@[simp] theorem mem_expire (s : State) (id : CtxId) (w : Wait) : (s.expire id w).mem = s.mem := by
  simp [State.expire, setCtx_mem, apply_ite State.mem]

@[simp] theorem mem_nmForward (s : State) (pa : Nat) : (s.nmForward pa).mem = s.mem := by
  unfold State.nmForward
  dsimp only
  repeat' split
  all_goals simp [mem_enq, mem_dropSynonyms, mem_recall]

@[simp] theorem mem_startTest (s : State) (node code index : Nat) : (s.startTest node code index).mem = s.mem := by
  simp only [State.startTest, setPkg_mem]

@[simp] theorem mem_countCorrected (s : State) (node code index : Nat) : (s.countCorrected node code index).mem = s.mem := by
  simp only [State.countCorrected, setPkg_mem]

@[simp] theorem mem_logError (s : State) (node unit result index : Nat) : (s.logError node unit result index).mem = s.mem := by
  simp [State.logError, setPkg_mem, apply_ite State.mem]

@[simp] theorem mem_markLost (s : State) (pl : Nat) : (s.markLost pl).mem = s.mem := by
  simp only [State.markLost, mem_setLost]

@[simp] theorem mem_setEngine (s : State) (node p : Nat) (e : Engine) : (s.setEngine node p e).mem = s.mem := by
  simp only [State.setEngine, setPolder_mem]

@[simp] theorem mem_engPut (s : State) (node p : Nat) (c : Cmd) : (s.engPut node p c).mem = s.mem := by
  simp only [State.engPut, mem_setEngine]

@[simp] theorem mem_engLeave (s : State) (node p no : Nat) : (s.engLeave node p no).mem = s.mem := by
  simp only [State.engLeave, mem_enq, mem_setEngine]

@[simp] theorem mem_engComplete (s : State) (node p : Nat) (c : Cmd) : (s.engComplete node p c).mem = s.mem := by
  simp [State.engComplete, mem_engLeave, mem_enq, mem_freeCmd, apply_ite State.mem]

@[simp] theorem mem_nmAcked (s : State) (o : NmOp) : (s.nmAcked o).mem = s.mem := by
  unfold State.nmAcked
  split <;> simp [setCtx_mem, mem_machineCheck, apply_ite State.mem]

@[simp] theorem mem_purgeRegion (s : State) (node : Nat) (r : Region) : (s.purgeRegion node r).mem = s.mem := by
  simp only [State.purgeRegion, mem_purge]

@[simp] theorem mem_setPoolUp (s : State) (node port : Nat) (up : Bool) : (s.setPoolUp node port up).mem = s.mem := by
  unfold State.setPoolUp
  split <;> simp [setPkg_mem]

@[simp] theorem mem_regionDecoder (s : State) (node n : Nat) (ok : Bool) : (s.regionDecoder node n ok).mem = s.mem := by
  simp [State.regionDecoder, mem_setRegion, apply_ite State.mem]

@[simp] theorem mem_lockArrival (s : State) (id : CtxId) : (s.lockArrival id).mem = s.mem := by
  unfold State.lockArrival
  split <;> simp [mem_lockAccept]

@[simp] theorem mem_lockTimeout (s : State) (id : CtxId) : (s.lockTimeout id).mem = s.mem := by
  unfold State.lockTimeout
  repeat' split
  all_goals simp [mem_lockReplyTo, mem_setLock]

@[simp] theorem mem_holdLimit (s : State) (line : Nat) : (s.holdLimit line).mem = s.mem := by
  unfold State.holdLimit
  dsimp only
  repeat' split
  all_goals simp [mem_breakLock, setCtx_mem]

@[simp] theorem mem_deadlockProbe (s : State) (id : CtxId) : (s.deadlockProbe id).mem = s.mem := by
  unfold State.deadlockProbe
  split <;> simp [mem_lockReplyTo, mem_setLock]

@[simp] theorem mem_wakeSlot (s : State) (id : CtxId) (w : Wait) : (s.wakeSlot id w).mem = s.mem := by
  simp [State.wakeSlot, setCtx_mem, apply_ite State.mem]

@[simp] theorem mem_engStart (s : State) (node p : Nat) : (s.engStart node p).mem = s.mem := by
  unfold State.engStart
  dsimp only
  repeat' split
  all_goals simp [mem_enq, mem_setEngine, mem_enqOnce]

@[simp] theorem mem_unitWaits (s : State) (no : Nat) : (s.unitWaits no).mem = s.mem := by
  unfold State.unitWaits
  split <;> simp

@[simp] theorem mem_pinsDone (s : State) (no : Nat) (touches : Nat → Nat → Bool) : (s.pinsDone no touches).mem = s.mem := by
  unfold State.pinsDone; rfl

@[simp] theorem mem_onTime (s : State) (no : Nat) : (s.onTime no).mem = s.mem := by
  unfold State.onTime; rfl

@[simp] theorem mem_exchOver (s : State) (node p : Nat) : (s.exchOver node p).mem = s.mem := by
  simp only [State.exchOver, mem_enq, mem_setEngine]

@[simp] theorem mem_collResume (s : State) (node p k : Nat) (r : FaultRec) : (s.collResume node p k r).mem = s.mem := by
  unfold State.collResume
  repeat' split
  all_goals simp [mem_enq, setPolder_mem, mem_wakeEngine, mem_putColl]

@[simp] theorem mem_putClone (s : State) (no : Nat) (k : Option Clone) : (s.putClone no k).mem = s.mem := by
  unfold State.putClone; rfl

@[simp] theorem mem_cloneResume (s : State) (node p k : Nat) (r : FaultRec) : (s.cloneResume node p k r).mem = s.mem := by
  unfold State.cloneResume
  split <;> simp [mem_setEngine, mem_wakeEngine, mem_putClone]

@[simp] theorem mem_unhalt (s : State) (node p : Nat) (id : CtxId) : (s.unhalt node p id).mem = s.mem := by
  simp only [State.unhalt, mem_enq, mem_setArray]

@[simp] theorem mem_arrResume (s : State) (node p k : Nat) (r : FaultRec) : (s.arrResume node p k r).mem = s.mem := by
  unfold State.arrResume
  dsimp only
  repeat' split
  all_goals simp [setPolder_mem, mem_enq, mem_unhalt]

@[simp] theorem mem_engResume (s : State) (node p k : Nat) (r : FaultRec) : (s.engResume node p k r).mem = s.mem := by
  unfold State.engResume
  dsimp only
  repeat' split
  all_goals simp [mem_enq, setPolder_mem]

@[simp] theorem mem_resumeRec (s : State) (node p k : Nat) : (s.resumeRec node p k).mem = s.mem := by
  unfold State.resumeRec
  split <;> simp [mem_arrResume, mem_engResume, apply_ite State.mem]

@[simp] theorem mem_resumeAny (s : State) (node p k : Nat) : (s.resumeAny node p k).mem = s.mem := by
  unfold State.resumeAny
  split <;> simp [mem_collResume, mem_cloneResume, mem_resumeRec, apply_ite State.mem]

@[simp] theorem mem_cancelRec (s : State) (node p k : Nat) : (s.cancelRec node p k).mem = s.mem := by
  unfold State.cancelRec
  split <;> simp [mem_setEngine, mem_unhalt, apply_ite State.mem]

@[simp] theorem mem_collOver (s : State) (x1 : Coll) : (s.collOver x1).mem = s.mem := by
  simp [State.collOver, apply_ite State.mem]

@[simp] theorem mem_cancelAny (s : State) (node p k : Nat) : (s.cancelAny node p k).mem = s.mem := by
  unfold State.cancelAny
  dsimp only
  repeat' split
  all_goals simp [mem_cancelRec, mem_putClone, mem_collOver, mem_putColl]

@[simp] theorem mem_addDonor (s : State) (own name e r : Nat) : (s.addDonor own name e r).mem = s.mem := by
  unfold State.addDonor
  dsimp only
  repeat' split
  all_goals simp [setDie_mem]

@[simp] theorem mem_delRepl (s : State) (node p name : Nat) : (s.delRepl node p name).mem = s.mem := by
  simp only [State.delRepl, setPolder_mem]

@[simp] theorem mem_forward (s : State) (t : Token) (e : Nat) : (s.forward t e).mem = s.mem := by
  simp only [State.forward, mem_creditBack, mem_setMark, mem_enq]

@[simp] theorem mem_setRun (s : State) (node p : Nat) (c : Option Cmd) : (s.setRun node p c).mem = s.mem := by
  simp only [State.setRun, mem_setArray]

@[simp] theorem mem_leaseTo (s : State) (node p : Nat) (id : CtxId) : (s.leaseTo node p id).mem = s.mem := by
  unfold State.leaseTo
  dsimp only
  repeat' split
  all_goals simp [mem_leaseGrant, mem_enq, mem_setArray]

@[simp] theorem mem_arbitrate (s : State) (node p : Nat) : (s.arbitrate node p).mem = s.mem := by
  unfold State.arbitrate
  dsimp only
  repeat' split
  all_goals simp [mem_enq, mem_setArray, mem_leaseTo]

@[simp] theorem mem_columnRemap (s : State) (node p : Nat) : (s.columnRemap node p).mem = s.mem := by
  unfold State.columnRemap
  dsimp only
  repeat' split
  all_goals simp [mem_enq, mem_setArray]

@[simp] theorem mem_chanSet (s : State) (node d c : Nat) (full : Bool) : (s.chanSet node d c full).mem = s.mem := by
  simp only [State.chanSet, mem_enq, setDie_mem]

@[simp] theorem mem_memberDone (s : State) (x1 : Coll) (m : CollMem) : (s.memberDone x1 m).mem = s.mem := by
  simp [State.memberDone, mem_putColl, mem_freeCmd, mem_setComm, mem_collOver, apply_ite State.mem]

@[simp] theorem mem_wantHandler (s : State) (node p m : Nat) (b : Mbox) : (s.wantHandler node p m b).mem = s.mem := by
  simp [State.wantHandler, mem_enq, apply_ite State.mem]

@[simp] theorem mem_creditsUnused (s : State) (e : SendEntry) : (s.creditsUnused e).mem = s.mem := by
  unfold State.creditsUnused
  split <;> simp [mem_enq, mem_setMbox, apply_ite State.mem]

@[simp] theorem mem_creditReturn (s : State) (node p m : Nat) (timed : Bool) : (s.creditReturn node p m timed).mem = s.mem := by
  unfold State.creditReturn
  repeat' split
  all_goals simp [mem_enq, mem_setMbox, apply_ite State.mem]

@[simp] theorem mem_sendTimeout (s : State) (id : CtxId) : (s.sendTimeout id).mem = s.mem := by
  simp [State.sendTimeout, setCtx_mem, apply_ite State.mem]

@[simp] theorem mem_handlerStart (s : State) (node p m : Nat) : (s.handlerStart node p m).mem = s.mem := by
  unfold State.handlerStart
  split <;> simp [mem_enq, mem_handlerNow, apply_ite State.mem]

@[simp] theorem mem_queueStart (s : State) (node q : Nat) : (s.queueStart node q).mem = s.mem := by
  unfold State.queueStart
  dsimp only
  repeat' split
  all_goals simp [mem_queueErr, mem_setQueue, mem_enq]

@[simp] theorem mem_drainQueue (s : State) (node q : Nat) : (s.drainQueue node q).mem = s.mem := by
  simp [State.drainQueue, mem_queueErr, mem_enq, mem_setQueue, apply_ite State.mem]

@[simp] theorem mem_dropLaunch (s : State) (node id : Nat) : (s.dropLaunch node id).mem = s.mem := by
  simp only [State.dropLaunch, setPkg_mem]

@[simp] theorem mem_resetQueue (s : State) (node q : Nat) : (s.resetQueue node q).mem = s.mem := by
  unfold State.resetQueue
  dsimp only
  repeat' split
  all_goals simp [mem_queueErr, mem_dropLaunch, mem_setQueue]

@[simp] theorem mem_hostHold (s : State) (i : Instr) (e : Ev) : (s.hostHold i e).mem = s.mem := by
  simp only [State.hostHold, mem_enq]

@[simp] theorem mem_feServed (s : State) (node q : Nat) : (s.feServed node q).mem = s.mem := by
  simp only [State.feServed, setPkg_mem]

@[simp] theorem mem_startItem (s : State) (node id : Nat) (l : Launch) (k w : Nat) : (s.startItem node id l k w).mem = s.mem := by
  simp only [State.startItem, setCtx_mem, setCore_mem]

@[simp] theorem mem_dispatchGroup (s : State) (node id : Nat) (l : Launch) (pl : Placing) : (s.dispatchGroup node id l pl).mem = s.mem := by
  simp [State.dispatchGroup, mem_startItem, mem_setLaunch, setPkg_mem, mem_enq, mem_setQueue, mem_foldl, apply_ite State.mem]

@[simp] theorem mem_drainDone (s : State) (node q : Nat) : (s.drainDone node q).mem = s.mem := by
  simp [State.drainDone, mem_enq, mem_setQueue, apply_ite State.mem]

@[simp] theorem mem_abandonWait (s : State) (id : CtxId) : (s.abandonWait id).mem = s.mem := by
  simp only [State.abandonWait, mem_markAbsent, mem_dropTok, setPolder_mem, setCtx_mem]

@[simp] theorem mem_rename (s : State) (f : CtxId → CtxId) : (s.rename f).mem = s.mem := by
  unfold State.rename; rfl

@[simp] theorem mem_moveAway (s : State) (node k t : Nat) : (s.moveAway node k t).mem = s.mem := by
  simp [State.moveAway, setCtx_mem, mem_rename, mem_foldl, apply_ite State.mem]

@[simp] theorem mem_moveBack (s : State) (node k t : Nat) (recs : List (Nat × Nat)) : (s.moveBack node k t recs).mem = s.mem := by
  simp [State.moveBack, setCtx_mem, mem_rename, mem_foldl]

@[simp] theorem mem_legErr (s : State) (node d : Nat) (err : Bool) : (s.legErr node d err).mem = s.mem := by
  simp only [State.legErr, setDie_mem]

@[simp] theorem mem_legInstall (s : State) (node d name : Nat) : (s.legInstall node d name).mem = s.mem := by
  simp [State.legInstall, mem_legErr, mem_legChange, apply_ite State.mem]

@[simp] theorem mem_dropRepls (s : State) (node name : Nat) : (s.dropRepls node name).mem = s.mem := by
  simp [State.dropRepls, mem_delRepl, mem_foldl, apply_ite State.mem]

@[simp] theorem mem_legRemove (s : State) (node d name : Nat) : (s.legRemove node d name).mem = s.mem := by
  unfold State.legRemove
  split <;> simp [mem_legErr, setDie_mem, mem_multicast, mem_dropRepls, apply_ite State.mem]

@[simp] theorem mem_legRead (s : State) (node d name : Nat) : (s.legRead node d name).mem = s.mem := by
  unfold State.legRead
  split <;> simp [mem_legErr, setDie_mem]

@[simp] theorem mem_legendUpdate (s : State) (node name : Nat) : (s.legendUpdate node name).mem = s.mem := by
  unfold State.legendUpdate
  split <;> simp [mem_syncRepls, mem_forgetFree, mem_setLegend, mem_dropRepls, setDie_mem, mem_enq, apply_ite State.mem]

@[simp] theorem mem_epochAck (s : State) (node name m : Nat) : (s.epochAck node name m).mem = s.mem := by
  unfold State.epochAck
  split <;> simp [mem_enq, setDie_mem, apply_ite State.mem]

@[simp] theorem mem_tombstoneEnd (s : State) (node p name : Nat) : (s.tombstoneEnd node p name).mem = s.mem := by
  unfold State.tombstoneEnd
  repeat' split
  all_goals simp [mem_setRepl, mem_delRepl, mem_enq, apply_ite State.mem]

@[simp] theorem mem_tokenAcceptance (s : State) (id : CtxId) : (s.tokenAcceptance id).mem = s.mem := by
  unfold State.tokenAcceptance
  dsimp only
  repeat' split
  all_goals simp [setCtx_mem]

@[simp] theorem mem_slotCredit (s : State) (id : CtxId) : (s.slotCredit id).mem = s.mem := by
  unfold State.slotCredit
  dsimp only
  repeat' split
  all_goals simp [mem_enq, setCtx_mem, mem_setRepl]

@[simp] theorem mem_tokTimeout (s : State) (id : CtxId) : (s.tokTimeout id).mem = s.mem := by
  unfold State.tokTimeout
  dsimp only
  repeat' split
  all_goals simp [setCtx_mem]

@[simp] theorem mem_retireWay (s : State) (node k way : Nat) : (s.retireWay node k way).mem = s.mem := by
  simp [State.retireWay, mem_l1drop, setCore_mem, mem_foldl]

@[simp] theorem mem_retireUnit (s : State) (node code index : Nat) : (s.retireUnit node code index).mem = s.mem := by
  simp only [State.retireUnit, setPkg_mem]

@[simp] theorem mem_withdraw (s : State) (node p : Nat) : (s.withdraw node p).mem = s.mem := by
  simp only [State.withdraw, setPkg_mem]

@[simp] theorem mem_retireSlice (s : State) (node index : Nat) : (s.retireSlice node index).mem = s.mem := by
  simp [State.retireSlice, mem_dropLine, mem_retireUnit, mem_setSlice, mem_foldl]

@[simp] theorem mem_beat (s : State) (node k : Nat) : (s.beat node k).mem = s.mem := by
  simp [State.beat, setPkg_mem, apply_ite State.mem]

@[simp] theorem mem_scrubLegend (s : State) (node dead : Nat) : (s.scrubLegend node dead).mem = s.mem := by
  simp [State.scrubLegend, mem_setLegend, mem_legChange, mem_foldl, apply_ite State.mem]

@[simp] theorem mem_scrubNear (s : State) (node dead : Nat) : (s.scrubNear node dead).mem = s.mem := by
  simp [State.scrubNear, mem_enq, mem_foldl]

@[simp] theorem mem_scrubLocks (s : State) (node dead : Nat) : (s.scrubLocks node dead).mem = s.mem := by
  simp [State.scrubLocks, mem_lockReplyTo, mem_breakLock, mem_foldl]

@[simp] theorem mem_scrubLines (s : State) (node dead : Nat) : (s.scrubLines node dead).mem = s.mem := by
  simp [State.scrubLines, mem_foldl]

@[simp] theorem mem_stepDone (s : State) (node k : Nat) : (s.stepDone node k).mem = s.mem := by
  simp only [State.stepDone, setPkg_mem]

@[simp] theorem mem_startCore (s : State) (node k : Nat) (tvec : Word) : (s.startCore node k tvec).mem = s.mem := by
  simp [State.startCore, setCore_mem, setCtx_mem, apply_ite State.mem]

@[simp] theorem mem_markEvict (s : State) (node p : Nat) (id : CtxId) : (s.markEvict node p id).mem = s.mem := by
  simp only [State.markEvict, setPolder_mem]

end Sys2Proof.Canon
end

section
/-! Every operation keeps the canonical form of memory: one lemma per operation that may write a byte, named after what it
answers (`wf_` a state, `good_` a result or a stop, `some_` an optional state, `out_` an outcome). -/

namespace Sys2Proof.Canon
set_option Elab.async false
open Sys2Proof Sys2Proof.Machine

/-- Memory is in the canonical form (log 2). -/
def Wf (s : State) : Prop := Memory.wf s.mem = true

/-- What an instruction that stops leaves behind has canonical memory; a trap alone leaves nothing. -/
def StopWf : Stop → Prop
  | .trap _ => True
  | .trapKeep _ s => Wf s
  | .wait _ s => Wf s

/-- A result whose value satisfies `P`, or a stop that keeps memory canonical. -/
def Good {α : Type} (P : α → Prop) : Except Stop α → Prop
  | .ok a => P a
  | .error e => StopWf e

/-- A result, when there is one, satisfies `P`. -/
def SomeOf {α : Type} (P : α → Prop) : Option α → Prop
  | some a => P a
  | none => True

/-- The state that a plan goes on from has canonical memory. -/
def PlanWf : Plan → Prop
  | .run _ s => Wf s
  | .go s => Wf s

/-- The next state of an outcome has canonical memory. -/
def OutWf : Out → Prop
  | .next t => Wf t
  | _ => True

theorem wf_foldl {α : Type} (f : State → α → State) (hf : ∀ s a, Wf s → Wf (f s a)) (l : List α) (s : State) (h : Wf s) :
    Wf (l.foldl f s) := by
  induction l generalizing s with
  | nil => exact h
  | cons a l ih => exact ih _ (hf s a h)

theorem wf_of_mem {s t : State} (h : Wf s) (e : t.mem = s.mem) : Wf t := (congrArg (Memory.wf · = true) e).mpr h

theorem wf_ite {c : Prop} [Decidable c] {s t : State} (hs : Wf s) (ht : Wf t) : Wf (if c then s else t) := by
  split
  · exact hs
  · exact ht

theorem some_map {α β : Type} {Q : β → Prop} (o : Option α) (f : α → β) (hf : ∀ a, Q (f a)) : SomeOf Q (o.map f) := by
  cases o with
  | none => trivial
  | some a => exact hf a

theorem good_bind {α β : Type} {P : α → Prop} {Q : β → Prop} {r : Except Stop α} {f : α → Except Stop β} (h : Good P r)
    (hf : ∀ a, P a → Good Q (f a)) : Good Q (r >>= f) := by
  cases r with
  | ok a => exact hf a h
  | error e => exact h

theorem good_weaken {α : Type} {P Q : α → Prop} {r : Except Stop α} (h : Good P r) (hpq : ∀ a, P a → Q a) : Good Q r := by
  cases r with
  | ok a => exact hpq a h
  | error e => exact h

theorem good_map {α β : Type} {P : α → Prop} {Q : β → Prop} {r : Except Stop α} {f : α → β} (h : Good P r)
    (hf : ∀ a, P a → Q (f a)) : Good Q (r.map f) := by
  cases r with
  | ok a => exact hf a h
  | error e => exact h

theorem good_ite {α : Type} {P : α → Prop} {c : Prop} [Decidable c] {r t : Except Stop α} (h : Good P r) (h' : Good P t) :
    Good P (if c then r else t) := by
  split
  · exact h
  · exact h'

theorem good_raise {α : Type} {P : α → Prop} (c : Cause) (v : Word) : Good P (raise c v : Except Stop α) := trivial

theorem good_raiseAcc {α : Type} {P : α → Prop} (c : Cause) (v : Word) (acc : BitVec 2) : Good P (raiseAcc c v acc : Except Stop α) := trivial

theorem good_illegal {α : Type} {P : α → Prop} (i : Instr) : Good P (illegal i : Except Stop α) := trivial

theorem stopWf_atElement (e : Stop) (va : Nat) (h : StopWf e) : StopWf (e.atElement va) := by
  cases e <;> exact h

theorem wf_poolClean (s : State) (node line : Nat) (hwf : Wf s) : Wf (s.poolClean node line) := by
  grind [State.poolClean, mem_poolDone, setPkg_mem, !wf_memZero, !wf_copyMasked, Good, StopWf, Wf, SomeOf, PlanWf, OutWf]

theorem wf_poolSnoop (s : State) (node line : Nat) (write : Bool) (hwf : Wf s) : Wf (s.poolSnoop node line write) := by
  grind [State.poolSnoop, !wf_poolClean, mem_merge, mem_dropWalks, mem_recall, Good, StopWf, Wf, SomeOf, PlanWf, OutWf, !wf_foldl, !mem_foldl]

theorem wf_walkerRead (s : State) (q : Req) (t line : Nat) (hwf : Wf s) : Wf (s.walkerRead q t line) := by
  grind [State.walkerRead, !wf_poolSnoop, mem_walkerReads, mem_merge, Good, StopWf, Wf, SomeOf, PlanWf, OutWf]

theorem wf_fillWalk (s : State) (q : Req) (va : Nat) (w : Walk) (hwf : Wf s) : Wf (s.fillWalk q va w) := by
  grind [State.fillWalk, !wf_walkerRead, mem_setSlice, setDie_mem, Good, StopWf, Wf, SomeOf, PlanWf, OutWf, !wf_foldl, !mem_foldl]

theorem good_findLeaf (s : State) (q : Req) (va : Nat) (a : Acc) (hwf : Wf s) : Good (fun a => Wf a.1) (s.findLeaf q va a) := by
  grind [State.findLeaf, !wf_fillWalk, xtrap, State.nodeTrap, Good, StopWf, Wf, SomeOf, PlanWf, OutWf]

theorem some_setAd (s : State) (own eaddr : Nat) (e : Word) (d : Bool) (hwf : Wf s) : SomeOf Wf (s.setAd own eaddr e d) := by
  grind [State.setAd, !wf_poolSnoop, setPkg_mem, !wf_memWrite, Good, StopWf, Wf, SomeOf, PlanWf, OutWf]

theorem good_translate (s : State) (q : Req) (va : Nat) (a : Acc) (hwf : Wf s) : Good (fun a => Wf a.1) (s.translate q va a) := by
  simp only [State.translate, bind, Except.bind]
  grind [!good_findLeaf, permTrap, mem_countLeaf, !some_setAd, mem_pinPage, mem_dropLeaf, Good, StopWf, Wf, SomeOf, PlanWf, OutWf, pure, Except.pure]

theorem good_homeReady (s : State) (q : Req) (va pa : Nat) (acc : BitVec 2) (hwf : Wf s) : Good (fun _ => True) (s.homeReady q va pa acc) := by
  grind [State.homeReady, mem_arriveAt, raiseAcc, Good, StopWf, Wf, SomeOf, PlanWf, OutWf]

theorem good_hbmCheck (s : State) (q : Req) (va pa : Nat) (acc : BitVec 2) (hwf : Wf s) : Good (fun _ => True) (s.hbmCheck q va pa acc) := by
  grind [State.hbmCheck, raiseAcc, !good_homeReady, Good, StopWf, Wf, SomeOf, PlanWf, OutWf]

theorem good_poolCheck (s : State) (q : Req) (va pa : Nat) (acc : BitVec 2) (hwf : Wf s) : Good (fun _ => True) (s.poolCheck q va pa acc) := by
  grind [State.poolCheck, raiseAcc, Good, StopWf, Wf, SomeOf, PlanWf, OutWf]

theorem good_fetchBelow (s : State) (q : Req) (va : Nat) (hwf : Wf s) : Good (fun a => Wf a.1) (s.fetchBelow q va) := by
  unfold State.fetchBelow
  refine good_bind (good_translate s q va accFetch hwf) fun ⟨t, x⟩ ht => ?_
  dsimp only at ht ⊢
  split
  · refine good_bind (good_hbmCheck t q va x.pa 3 ht) fun _ _ => good_ite trivial ?_
    exact (congrArg (Memory.wf · = true) (mem_merge ..)).mpr ht
  · refine good_bind (good_poolCheck t q va x.pa 3 ht) fun ⟨i, r⟩ _ => good_ite trivial (good_ite trivial ?_)
    refine good_bind (good_homeReady t q va x.pa 3 ht) fun _ _ => ?_
    exact (congrArg (Memory.wf · = true) (mem_merge ..)).mpr (wf_poolSnoop _ _ _ _ ht)
  · trivial

theorem good_fetch (s : State) (va : Word) (hwf : Wf s) : Good (fun a => Wf a.1) (s.fetch va) := by
  grind [State.fetch, raiseAcc, !good_fetchBelow, setCC_mem, Good, StopWf, Wf, SomeOf, PlanWf, OutWf]

theorem wf_keepFill (s : State) (q : Req) (va : Nat) (hwf : Wf s) : Wf (s.keepFill q va) := by
  grind [State.keepFill, !wf_fillWalk, Good, StopWf, Wf, SomeOf, PlanWf, OutWf]

theorem wf_barFault (s : State) (node p la : Nat) (hwf : Wf s) : Wf (s.barFault node p la) := by
  grind [State.barFault, Barriers.portSeen_mem, Barriers.lostWordWrite_mem, !wf_memWrite, Good, StopWf, Wf, SomeOf, PlanWf, OutWf]

theorem wf_discardCmds (s : State) (node p : Nat) (l : List Cmd) (hwf : Wf s) : Wf (s.discardCmds node p l) := by
  grind [State.discardCmds, mem_freeCmd, !wf_barFault, Good, StopWf, Wf, SomeOf, PlanWf, OutWf, !wf_foldl, !mem_foldl]

theorem wf_endLease (s : State) (id : CtxId) (unlease : Bool) (hwf : Wf s) : Wf (s.endLease id unlease) := by
  grind [State.endLease, !wf_discardCmds, setCtx_mem, setPolder_mem, mem_leaseGone, Good, StopWf, Wf, SomeOf, PlanWf, OutWf]

theorem wf_performPool (s : State) (id : CtxId) (hwf : Wf s) : Wf (s.performPool id) := by
  grind [State.performPool, !wf_poolClean, setCtx_mem, Good, StopWf, Wf, SomeOf, PlanWf, OutWf, !wf_foldl, !mem_foldl]

theorem wf_breakLocks (s : State) (id : CtxId) (hwf : Wf s) : Wf (s.breakLocks id) := by
  grind [State.breakLocks, !wf_performPool, mem_breakLock, mem_leaveQueue, setCtx_mem, Good, StopWf, Wf, SomeOf, PlanWf, OutWf, !wf_foldl, !mem_foldl]

theorem wf_endLife (s : State) (id : CtxId) (how : LastEnd) (hwf : Wf s) : Wf (s.endLife id how) := by
  grind [State.endLife, mem_dropTok, !wf_breakLocks, mem_unbindAll, mem_phDropAll, setCtx_mem, Good, StopWf, Wf, SomeOf, PlanWf, OutWf]

theorem wf_terminate (s : State) (id : CtxId) (hwf : Wf s) : Wf (s.terminate id) := by
  grind [State.terminate, mem_withdrawExch, !wf_endLease, mem_handlerEnded, !wf_endLife, mem_noteDying, setCore_mem, Good, StopWf, Wf, SomeOf, PlanWf, OutWf]

theorem wf_trapNow (s : State) (t : TrapInfo) (long pfx : Bool) (hwf : Wf s) : Wf (s.trapNow t long pfx) := by
  grind [State.trapNow, !wf_keepFill, mem_noteFail, mem_switchSlot, !wf_terminate, mem_markAbsent, mem_takeTrap, Good, StopWf, Wf, SomeOf, PlanWf, OutWf]

theorem out_finishWith {α : Type} {P : α → Prop} (i : Instr) (s : State) (r : Except Stop α) (done : α → State) (hwf : Wf s)
    (hr : Good P r) (hd : ∀ a, P a → Wf (done a)) : OutWf (finishWith i s r done) := by
  cases r with
  | ok a => exact hd a hr
  | error e =>
    cases e with
    | trap t => exact wf_trapNow s t _ _ hwf
    | trapKeep t s' => exact wf_trapNow s' t _ _ hr
    | wait w s' => exact (congrArg (Memory.wf · = true) ((mem_stall ..).trans (Barriers.holdWords_mem ..))).mpr hr

theorem out_finish (i : Instr) (s : State) (r : Res) (hwf : Wf s) (hr : Good Wf r) : OutWf (finish i s r) :=
  out_finishWith i s r _ hwf hr fun _ h => h

theorem out_finishJump (i : Instr) (s : State) (r : Except Stop (State × Option Word)) (hwf : Wf s) (hr : Good (fun a => Wf a.1) r) :
    OutWf (finishJump i s r) := by
  refine out_finishWith i s r _ hwf hr fun a h => ?_
  split <;> exact h

theorem out_phaserInstr (i : Instr) (d : Reg) (s : State) (r : Except Stop (State × Word)) (hwf : Wf s) (hr : Good (fun a => Wf a.1) r) :
    OutWf (phaserInstr i d s r) :=
  out_finish i s _ hwf (good_ite hwf (good_map hr fun _ h => h))

theorem out_memberInstr (i : Instr) (d h : Reg) (s : State) (f : Nat → Nat → Phaser → PhMember → Except Stop (State × Word)) (hwf : Wf s)
    (hf : ∀ p k ph m, Good (fun a => Wf a.1) (f p k ph m)) : OutWf (memberInstr i d h s f) := by
  refine out_phaserInstr i d s _ hwf ?_
  split
  · exact hwf
  · split
    · exact hwf
    · exact hf ..

theorem good_keeping {α : Type} {P : α → Prop} (s : State) (q : Req) (r : Except Stop α) (hwf : Wf s) (hr : Good P r) : Good P (s.keeping q r) := by
  cases r with
  | ok a => exact hr
  | error e =>
    cases e with
    | trapKeep t u => exact hr
    | wait w u => exact hr
    | trap t =>
      show Wf (match t.fill with | some va => s.keepFill q va | none => s)
      split
      · exact wf_keepFill s q _ hwf
      · exact hwf

theorem good_viaQueue {α : Type} {P : α → Prop} (s : State) (r : Except Stop α) (hwf : Wf s) (hr : Good P r) : Good P (viaQueue s r) := by
  unfold viaQueue
  refine good_ite hwf ?_
  cases r with
  | ok a => exact hr
  | error e =>
    cases e with
    | trap t => trivial
    | trapKeep t u => exact hr
    | wait w u => exact wf_of_mem (s := u) hr (setC_mem ..)

theorem some_unitFault {α : Type} {P : α → Prop} (s : State) (r : Except Stop α) (hwf : Wf s) (hr : Good P r) : SomeOf (fun a => Wf a.2) (unitFault s r) := by
  cases r with
  | ok a => trivial
  | error e =>
    cases e with
    | trap t => exact hwf
    | trapKeep t u => exact hr
    | wait w u => trivial

theorem wf_waited {α : Type} {P : α → Prop} (s : State) (r : Except Stop α) (no : Nat) (hwf : Wf s) (hr : Good P r) : Wf (s.waited r no) := by
  cases r with
  | ok a => exact hwf
  | error e =>
    cases e with
    | trap t => exact hwf
    | trapKeep t u => exact hwf
    | wait w u => exact wf_of_mem (s := u) hr (mem_unitWaits ..)

theorem good_popWait {α : Type} {P : α → Prop} (s : State) (n : Nat) (b : Mbox) (hwf : Wf s) : Good P (s.popWait n b : Except Stop α) := by
  grind [State.popWait, Good, StopWf, Wf, mem_setMbox]

theorem out_tickOut (o : Out) (h : OutWf o) : OutWf (tickOut o) := by
  cases o <;> exact h

theorem wf_decodeStop (s : State) (e : Stop) (long pfx : Bool) (hwf : Wf s) (he : StopWf e) : Wf (decodeStop s e long pfx) := by
  cases e with
  | trap t => exact wf_trapNow s t long pfx hwf
  | trapKeep t s' => exact wf_trapNow s' t long pfx he
  | wait w s' => exact (congrArg (Memory.wf · = true) (mem_stall s' w)).mpr he

theorem good_governedWord (s : State) (hwf : Wf s) : Good (fun a => Wf a.1) (s.governedWord) := by
  grind [State.governedWord, !good_fetch, Good, StopWf, Wf, SomeOf, PlanWf, OutWf]

theorem wf_pairStop (p : Pfx) (s : State) (e : Stop) (long : Bool) (w : Option (BitVec 32)) (hwf : Wf s) (he : StopWf e) :
    Wf (pairStop p s e long w) := by
  cases e with
  | trap t => exact wf_decodeStop s _ long true hwf he
  | trapKeep t s' => exact wf_decodeStop s _ long true hwf he
  | wait r t => exact (congrArg (Memory.wf · = true) (mem_stall _ r)).mpr he

theorem out_governed (i : Instr) (g : Bool) (s : State) (o : Out) (hwf : Wf s) (ho : OutWf o) : OutWf (governed i g s o) := by
  unfold governed
  split
  · exact out_finish i s _ hwf trivial
  · exact ho

theorem out_typed (i : Instr) (g : Bool) (t : BitVec 3) (ok : ETy → Bool) (s : State) (f : ETy → Res) (hwf : Wf s)
    (hf : ∀ y, Good Wf (f y)) : OutWf (typed i g t ok s f) := by
  refine out_governed i g s _ hwf (out_finish i s _ hwf ?_)
  split
  · trivial
  · exact good_ite (good_viaQueue s _ hwf (hf _)) trivial

theorem good_apertureCheck (va : Nat) (acc : BitVec 2) : Good (fun _ => True) (apertureCheck va acc) := by
  grind [apertureCheck, raiseAcc, Good, StopWf, Wf, SomeOf, PlanWf, OutWf]

theorem good_spadCheck (va la f al : Nat) (u : SpadUnit) : Good (fun _ => True) (spadCheck va la f al u) := by
  grind [spadCheck, raiseAcc, Good, StopWf, Wf, SomeOf, PlanWf, OutWf]

theorem good_portRead (s : State) (node p la n va : Nat) (hwf : Wf s) : Good (fun _ => True) (s.portRead node p la n va) := by
  grind [State.portRead, raiseAcc, Good, StopWf, Wf, SomeOf, PlanWf, OutWf]

theorem good_place (s : State) (q : Req) (va : Nat) (a : Acc) (hwf : Wf s) : Good (fun a => Wf a.1) (s.place q va a) := by
  grind [State.place, !good_translate, mem_countLeaf, Good, StopWf, Wf, SomeOf, PlanWf, OutWf]

theorem good_missSlot (s : State) (q : Req) (hwf : Wf s) : Good (fun _ => True) (s.missSlot q) := by
  grind [State.missSlot, Good, StopWf, Wf, SomeOf, PlanWf, OutWf]

theorem good_loadLine (s : State) (q : Req) (va pa n typ : Nat) (e : Word) (excluded : Bool) (hwf : Wf s) : Good (fun a => Wf a.1) (s.loadLine q va pa n typ e excluded) := by
  simp only [State.loadLine, bind, Except.bind]
  grind [!good_missSlot, mem_uncLoad, mem_missSent, mem_fillLoad, Good, StopWf, Wf, SomeOf, PlanWf, OutWf, pure, Except.pure]

theorem good_remoteSpad (va pa : Nat) (acc : BitVec 2) : Good (fun _ => True) (remoteSpad va pa acc) := by
  grind [remoteSpad, raiseAcc, Good, StopWf, Wf, SomeOf, PlanWf, OutWf]

theorem good_loadBelow (s : State) (q : Req) (va n typ : Nat) (vec : Bool) (hwf : Wf s) : Good (fun a => Wf a.1) (s.loadBelow q va n typ vec) := by
  unfold State.loadBelow
  refine good_bind (good_place s q va accRead hwf) fun ⟨t, x⟩ ht => ?_
  dsimp only at ht ⊢
  split
  · exact good_bind (good_hbmCheck t q va x.pa 0 ht) fun _ _ => good_ite trivial (good_loadLine _ _ _ _ _ _ _ _ ht)
  · refine good_bind (good_poolCheck t q va x.pa 0 ht) fun ⟨i, r⟩ _ => good_ite trivial (good_ite trivial ?_)
    exact good_bind (good_homeReady t q va x.pa 0 ht) fun _ _ => good_loadLine _ _ _ _ _ _ _ _ (wf_poolSnoop _ _ _ _ ht)
  · refine good_ite trivial (good_ite trivial (good_bind (good_remoteSpad ..) fun ⟨p, la⟩ _ => ?_))
    exact good_bind (good_spadCheck ..) fun _ _ => good_bind (good_portRead _ _ _ _ _ _ ht) fun _ _ => ht
  · exact good_ite trivial (good_ite trivial ht)

theorem good_load (s : State) (q : Req) (va n typ : Nat) (vec : Bool) (hwf : Wf s) : Good (fun a => Wf a.1) (s.load q va n typ vec) := by
  grind [State.load, mem_dropUntracked, !good_loadBelow, raiseAcc, mem_dropSynonyms, mem_l1touch, Good, StopWf, Wf, SomeOf, PlanWf, OutWf]

theorem good_scalarLoad (s : State) (q : Req) (va n typ : Nat) (hwf : Wf s) : Good (fun a => Wf a.1) (s.scalarLoad q va n typ) := by
  unfold State.scalarLoad
  dsimp only
  refine good_ite (good_bind (good_apertureCheck ..) fun _ _ => good_bind (good_spadCheck ..) fun _ _ =>
    good_bind (good_portRead _ _ _ _ _ _ hwf) fun _ _ => hwf) ?_
  exact good_ite trivial (good_ite trivial (good_load _ _ _ _ _ _ hwf))

theorem good_blockScale (s : State) (q : Req) (w off : Nat) (acc : BitVec 2) (hwf : Wf s) : Good (fun a => Wf a.1) (s.blockScale q w off acc) := by
  simp only [State.blockScale, bind, Except.bind]
  grind [!good_scalarLoad, raiseAcc, Good, StopWf, Wf, SomeOf, PlanWf, OutWf, pure, Except.pure]

theorem good_vecLoadAt (s : State) (q : Req) (va node p la : Nat) (bcast : Bool) (hwf : Wf s) : Good (fun a => Wf a.1) (s.vecLoadAt q va node p la bcast) := by
  unfold State.vecLoadAt
  refine good_bind (good_spadCheck ..) fun _ _ => good_bind (good_portRead _ _ _ _ _ _ hwf) fun v _ => ?_
  exact good_bind (good_blockScale _ _ _ _ _ hwf) fun _ h => h

theorem good_vecLoad (s : State) (q : Req) (va typ : Nat) (bcast : Bool) (hwf : Wf s) : Good (fun a => Wf a.1) (s.vecLoad q va typ bcast) := by
  simp only [State.vecLoad, bind, Except.bind]
  grind [!good_apertureCheck, !good_vecLoadAt, raiseAcc, !good_translate, !good_remoteSpad, !good_load, Good, StopWf, Wf, SomeOf, PlanWf, OutWf, pure, Except.pure]

theorem good_readV (s : State) (r : Reg) (hwf : Wf s) : Good (fun a => Wf a.1) (s.readV r) := by
  unfold State.readV
  split
  · exact hwf
  · next p hp =>
    refine good_ite trivial ?_
    dsimp only
    split
    · exact hwf
    · have hload := good_vecLoad s s.req (p.va p.k) p.typ.toNat false hwf
      split
      · next h => rw [h] at hload; exact wf_of_mem hload (mem_setFlags ..)
      · next h => rw [h] at hload; exact stopWf_atElement _ _ hload

theorem good_readVs (s : State) (x1 : List Reg) (x2 : List (Reg × Vec)) (hwf : Wf s) : Good (fun a => Wf a.1) (s.readVs x1 x2) := by
  fun_induction State.readVs s x1 x2 with
  | case1 => exact hwf
  | case2 _ _ _ _ _ ih => exact ih hwf
  | case3 s r rest got _ ih => exact good_bind (good_readV s r hwf) fun ⟨t, v⟩ ht => ih t v ht

theorem good_storeTests (s : State) (q : Req) (va n : Nat) (acc : BitVec 2) (hwf : Wf s) : Good (fun _ => True) (s.storeTests q va n acc) := by
  grind [State.storeTests, raise, raiseAcc, Good, StopWf, Wf, SomeOf, PlanWf, OutWf]

theorem wf_spadWrite (s : State) (node p la n v srcNode srcPolder srcCore : Nat) (hwf : Wf s) : Wf (s.spadWrite node p la n v srcNode srcPolder srcCore) := by
  grind [State.spadWrite, Barriers.lostWordWrite_mem, Barriers.portSeen_mem, mem_trace, !wf_memWrite, Good, StopWf, Wf, SomeOf, PlanWf, OutWf]

theorem good_portWrite (s : State) (q : Req) (node p la n v : Nat) (xl : (Option (BitVec 16 × Nat))) (hwf : Wf s) : Good Wf (s.portWrite q node p la n v xl) := by
  grind [State.portWrite, !wf_spadWrite, mem_enq, setPolder_mem, Good, StopWf, Wf, SomeOf, PlanWf, OutWf]

theorem good_vecStoreAt (s : State) (q : Req) (va node p la : Nat) (v : Vec) (remoteLocks : Bool) (hwf : Wf s) : Good (fun a => Wf a.1) (s.vecStoreAt q va node p la v remoteLocks) := by
  unfold State.vecStoreAt
  refine good_bind (good_spadCheck ..) fun _ _ => good_bind (good_storeTests _ _ _ _ _ hwf) fun _ _ => ?_
  refine good_bind (good_blockScale _ _ _ _ _ hwf) fun ⟨t, sc⟩ ht => good_ite trivial ?_
  exact good_bind (good_portWrite _ _ _ _ _ _ _ _ ht) fun _ h => h

theorem wf_poolWrite (s : State) (node pa n v : Nat) (hwf : Wf s) : Wf (s.poolWrite node pa n v) := by
  grind [State.poolWrite, mem_lostWrite, mem_dropWalks, setPkg_mem, !wf_memWrite, Good, StopWf, Wf, SomeOf, PlanWf, OutWf]

theorem wf_hbmWrite (s : State) (a n v : Nat) (hwf : Wf s) : Wf (s.hbmWrite a n v) := by
  grind [State.hbmWrite, mem_dropWalks, mem_lostWrite, !wf_memWrite, Good, StopWf, Wf, SomeOf, PlanWf, OutWf]

theorem wf_lineWrite (s : State) (q : Req) (va pa n v : Nat) (hwf : Wf s) : Wf (s.lineWrite q va pa n v) := by
  grind [State.lineWrite, !wf_poolWrite, !wf_poolSnoop, setCtx_mem, !wf_hbmWrite, Good, StopWf, Wf, SomeOf, PlanWf, OutWf]

theorem wf_storeLine (s : State) (q : Req) (va pa n v typ : Nat) (e : Word) (hwf : Wf s) : Wf (s.storeLine q va pa n v typ e) := by
  grind [State.storeLine, mem_dropSynonyms, !wf_lineWrite, mem_storeOwn, mem_recall, mem_dropCore, mem_touchHit, mem_storeThrough, mem_updateUntracked, Good, StopWf, Wf, SomeOf, PlanWf, OutWf]

theorem good_missNew (s : State) (q : Req) (vline : Nat) (hwf : Wf s) : Good (fun _ => True) (s.missNew q vline) := by
  grind [State.missNew, !good_missSlot, Good, StopWf, Wf, SomeOf, PlanWf, OutWf]

theorem good_storeBelow (s : State) (q : Req) (va n v typ : Nat) (vec : Bool) (hwf : Wf s) : Good Wf (s.storeBelow q va n v typ vec) := by
  unfold State.storeBelow
  refine good_bind (good_place s q va accWrite hwf) fun ⟨t, x⟩ ht => ?_
  dsimp only at ht ⊢
  have hstore : ∀ (y : Nat), Good Wf (if y = reqOwn then do t.missNew q (fieldN va 6 50); .ok (t.storeLine q va x.pa n v y x.entry)
      else .ok (t.storeLine q va x.pa n v y x.entry)) := fun y =>
    good_ite (good_bind (good_missNew _ _ _ ht) fun _ _ => wf_storeLine _ _ _ _ _ _ _ _ ht) (wf_storeLine _ _ _ _ _ _ _ _ ht)
  split
  · exact good_bind (good_hbmCheck t q va x.pa 1 ht) fun _ _ => hstore _
  · refine good_bind (good_poolCheck t q va x.pa 1 ht) fun ⟨i, r⟩ _ => good_ite ?_ ?_
    · have hlost : Wf (t.poolQuarantine q.id.node i x.pa n v) := wf_of_mem ht (mem_poolQuarantine ..)
      dsimp only
      split
      · exact hlost
      · exact wf_of_mem hlost (setCtx_mem ..)
    · exact good_bind (good_homeReady t q va x.pa 1 ht) fun _ _ => hstore _
  · refine good_ite trivial (good_ite trivial (good_bind (good_remoteSpad ..) fun ⟨p, la⟩ _ => ?_))
    exact good_bind (good_spadCheck ..) fun _ _ => good_ite trivial (good_portWrite _ _ _ _ _ _ _ _ ht)
  · exact good_ite trivial (good_ite trivial (wf_of_mem ht (mem_ctlWriteN ..)))

theorem good_store (s : State) (q : Req) (va n v typ : Nat) (vec : Bool) (hwf : Wf s) : Good Wf (s.store q va n v typ vec) := by
  grind [State.store, mem_dropUntracked, raiseAcc, !wf_storeLine, !good_storeBelow, Good, StopWf, Wf, SomeOf, PlanWf, OutWf]

theorem good_vecStore (s : State) (q : Req) (va typ : Nat) (v : Vec) (hwf : Wf s) : Good (fun a => Wf a.1) (s.vecStore q va typ v) := by
  unfold State.vecStore
  refine good_ite (good_bind (good_apertureCheck ..) fun _ _ => good_vecStoreAt _ _ _ _ _ _ _ _ hwf) (good_ite trivial (good_ite trivial ?_))
  split
  · refine good_bind (good_translate s q va accWrite hwf) fun ⟨t, x⟩ ht => good_ite trivial (good_ite trivial ?_)
    exact good_bind (good_remoteSpad ..) fun ⟨p, la⟩ _ => good_vecStoreAt _ _ _ _ _ _ _ _ ht
  · have hrest : ∀ t, Wf t → Good (fun a => Wf a.1) (do t.storeTests q va 32 1; let u ← t.store q va 32 v.toNat typ true; .ok (u, (0 : BitVec 5))) :=
      fun t ht => good_bind (good_storeTests _ _ _ _ _ ht) fun _ _ => good_bind (good_store _ _ _ _ _ _ _ ht) fun _ h => h
    refine good_ite (hrest s hwf) (good_bind (P := Wf) (good_map (good_place s q va accWrite hwf) fun _ h => ?_) hrest)
    exact wf_of_mem h (mem_sameRequest ..)

theorem good_writeV (s : State) (r : Reg) (v : Vec) (keeps : Bool) (hwf : Wf s) : Good Wf (s.writeV r v keeps) := by
  unfold State.writeV
  split
  · exact hwf
  · refine good_ite trivial (good_ite hwf ?_)
    refine good_bind (good_vecStore _ _ _ _ _ hwf) fun ⟨t, f⟩ ht => ?_
    exact (congrArg (Memory.wf · = true) ((mem_enq ..).trans (mem_setFlags ..))).mpr ht

theorem good_vecDone (s : State) (d : Reg) (w n : Nat) (srcs : List Nat) (l : List (Nat × BitVec 5)) (keeps : Bool) (hwf : Wf s) : Good Wf (s.vecDone d w n srcs l keeps) := by
  simp only [State.vecDone, bind, Except.bind]
  grind [!good_writeV, mem_setFlags, mem_drawn, mem_vqPush, Good, StopWf, Wf, SomeOf, PlanWf, OutWf, pure, Except.pure]

theorem out_vbin (i : Instr) (g : Bool) (d a b : Reg) (t : BitVec 3) (ok : ETy → Bool) (dr : Bool) (f : ETy → Rnd → Nat → Nat → Nat × BitVec 5) (s : State) (hwf : Wf s) : OutWf (vbin i g d a b t ok dr f s) := out_typed _ _ _ _ _ _ hwf fun _ => good_bind (good_readVs _ _ _ hwf) fun _ ht => good_vecDone _ _ _ _ _ _ _ ht

theorem out_vfma (i : Instr) (g minus : Bool) (d a : Reg) (b : Reg ⊕ Reg) (t : BitVec 3) (s : State) (hwf : Wf s) : OutWf (vfma i g minus d a b t s) := out_typed _ _ _ _ _ _ hwf fun _ => good_bind (good_readVs _ _ _ hwf) fun _ ht => good_vecDone _ _ _ _ _ _ _ ht

theorem out_vscal (i : Instr) (g : Bool) (d a b : Reg) (t : BitVec 3) (dr : Bool) (f : ETy → Rnd → Nat → Nat → Nat × BitVec 5) (s : State) (hwf : Wf s) : OutWf (vscal i g d a b t dr f s) := out_typed _ _ _ _ _ _ hwf fun _ => good_bind (good_readV _ _ hwf) fun _ ht => good_vecDone _ _ _ _ _ _ _ ht

theorem out_vred (i : Instr) (g : Bool) (d a : Reg) (t : BitVec 3) (dr : Bool) (f : ETy → Rnd → Nat → Nat → Nat × BitVec 5) (s : State) (hwf : Wf s) : OutWf (vred i g d a t dr f s) := out_typed _ _ _ _ _ _ hwf fun _ => good_bind (good_readV _ _ hwf) fun _ ht => good_vecDone _ _ _ _ _ _ _ ht

theorem out_vun (i : Instr) (g : Bool) (d a : Reg) (t : BitVec 3) (ok : ETy → Bool) (dr : Bool) (f : ETy → Rnd → Nat → Nat × BitVec 5) (s : State) (hwf : Wf s) : OutWf (vun i g d a t ok dr f s) := out_typed _ _ _ _ _ _ hwf fun _ => good_bind (good_readV _ _ hwf) fun _ ht => good_vecDone _ _ _ _ _ _ _ ht

theorem out_splat (i : Instr) (g : Bool) (d : Reg) (t : BitVec 3) (ok : ETy → Bool) (x5 : Nat) (s : State) (hwf : Wf s) : OutWf (splat i g d t ok x5 s) := by
  grind [splat, !out_typed, !good_vecDone, Good, StopWf, Wf, SomeOf, PlanWf, OutWf]

theorem out_vmove (i : Instr) (g : Bool) (d a : Reg) (bs : List Reg) (ms : List Nat) (t : BitVec 3) (ok : ETy → Bool) (f : ETy → List Nat → List (Reg × Vec) → List Nat) (s : State) (hwf : Wf s) : OutWf (vmove i g d a bs ms t ok f s) := out_typed _ _ _ _ _ _ hwf fun _ => good_bind (good_readVs _ _ _ hwf) fun _ ht => good_vecDone _ _ _ _ _ _ _ ht

theorem out_predOp (i : Instr) (g : Bool) (d : Reg) (srcs : List Nat) (v : Byte) (s : State) (hwf : Wf s) : OutWf (predOp i g d srcs v s) := by
  grind [predOp, !out_governed, !out_finish, !good_viaQueue, mem_vqPush, mem_setP, Good, StopWf, Wf, SomeOf, PlanWf, OutWf]

theorem out_fpPlain (i : Instr) (g : Bool) (d : Reg) (x3 : Nat × BitVec 5) (s : State) (hwf : Wf s) : OutWf (fpPlain i g d x3 s) := by
  grind [fpPlain, !out_governed, !out_finish, mem_setFlags, setX_mem, Good, StopWf, Wf, SomeOf, PlanWf, OutWf]

theorem out_fpInstr (i : Instr) (g : Bool) (d : Reg) (f : Rnd → Nat × BitVec 5) (s : State) (hwf : Wf s) : OutWf (fpInstr i g d f s) := by
  grind [fpInstr, !out_governed, !out_finish, mem_setFlags, setX_mem, mem_drawn, Good, StopWf, Wf, SomeOf, PlanWf, OutWf]

theorem good_atomicPlace (s : State) (q : Req) (va : Nat) (hwf : Wf s) : Good (fun a => Wf a.1) (s.atomicPlace q va) := by
  simp only [State.atomicPlace, bind, Except.bind]
  grind [!good_translate, raiseAcc, Good, StopWf, Wf, SomeOf, PlanWf, OutWf, pure, Except.pure]

theorem good_atomicReady (s : State) (q : Req) (va : Nat) (x3 : Xlated) (hwf : Wf s) : Good Wf (s.atomicReady q va x3) := by
  simp only [State.atomicReady, bind, Except.bind]
  grind [!good_hbmCheck, raiseAcc, !good_poolCheck, poolLostTrap, !good_homeReady, !wf_poolSnoop, Good, StopWf, Wf, SomeOf, PlanWf, OutWf, pure, Except.pure]

theorem wf_atomicWrite (s : State) (q : Req) (va n : Nat) (x4 : Xlated) (place v : Nat) (hwf : Wf s) : Wf (s.atomicWrite q va n x4 place v) := by
  grind [State.atomicWrite, mem_dropUntracked, setCore_mem, !wf_storeLine, Good, StopWf, Wf, SomeOf, PlanWf, OutWf]

theorem out_atomic (i : Instr) (n : Nat) (d a : Reg) (place : Nat) (nr float : Bool) (f : Nat → Nat × BitVec 5) (after : State → State) (s : State)
    (hwf : Wf s) (ha : ∀ t, Wf t → Wf (after t)) : OutWf (atomic i n d a place nr float f after s) := by
  refine out_finish i s _ hwf (good_ite hwf (good_ite trivial (good_ite trivial (good_ite trivial ?_))))
  refine good_bind (good_atomicPlace _ _ _ hwf) fun ⟨t, x⟩ ht => good_bind (good_storeTests _ _ _ _ _ ht) fun _ _ => ?_
  refine good_bind (good_atomicReady _ _ _ _ ht) fun u hu => ?_
  have hdone := ha _ (wf_atomicWrite u s.req (s.X a).toNat n x place ((f (u.lineRead s.req.id.node x.pa n)).1 % 2 ^ (8 * n)) hu)
  have hend : Good Wf (.ok (if nr = true then after (u.atomicWrite s.req (s.X a).toNat n x place ((f (u.lineRead s.req.id.node x.pa n)).1 % 2 ^ (8 * n)))
      else ((after (u.atomicWrite s.req (s.X a).toNat n x place ((f (u.lineRead s.req.id.node x.pa n)).1 % 2 ^ (8 * n)))).setX d
        (if float = true then BitVec.ofNat 64 (u.lineRead s.req.id.node x.pa n) else sextN (u.lineRead s.req.id.node x.pa n) (8 * n))).setFlags
          (f (u.lineRead s.req.id.node x.pa n)).2)) :=
    wf_ite hdone (wf_of_mem hdone ((mem_setFlags ..).trans (setX_mem ..)))
  exact good_ite (good_bind (good_missNew _ _ _ hu) fun _ _ => hend) hend

theorem out_arrIssue (i : Instr) (c : Cmd) (prep : Except Stop (State × Cmd)) (s : State) (hwf : Wf s) (hp : Good (fun a => Wf a.1) prep) :
    OutWf (arrIssue i c prep s) := by
  refine out_finish i s _ hwf (good_ite hwf (good_ite trivial (good_bind hp fun ⟨t, c'⟩ ht => good_ite ?_ (good_ite hwf ?_))))
  · exact wf_ite (wf_of_mem hwf (mem_askLease ..)) hwf
  · split
    · exact hwf
    · next q _ => exact wf_of_mem (s := t) ht (mem_enq ..)

theorem good_engCheck (bad : Bool) (n : Nat) : Good (fun _ => True) (engCheck bad n) := by
  unfold engCheck
  exact good_ite trivial trivial

theorem good_bar6Zero (c : Cmd) : Good (fun _ => True) (bar6Zero c) := by
  grind [bar6Zero, !good_engCheck, Good, StopWf, Wf, SomeOf, PlanWf, OutWf]

theorem good_barCheck (la : Nat) : Good (fun _ => True) (barCheck la) := by
  grind [barCheck, !good_engCheck, Good, StopWf, Wf, SomeOf, PlanWf, OutWf]

theorem good_bar6Check (c : Cmd) : Good (fun _ => True) (bar6Check c) := by
  grind [bar6Check, !good_barCheck, Good, StopWf, Wf, SomeOf, PlanWf, OutWf]

theorem good_emmaCheck (c : Cmd) (a b : Reg) : Good (fun _ => True) (emmaCheck c a b) := by
  unfold emmaCheck
  iterate 6 refine good_bind (good_engCheck ..) fun _ _ => ?_
  refine good_bind (good_bar6Zero ..) fun _ _ => ?_
  iterate 5 refine good_bind (good_engCheck ..) fun _ _ => ?_
  exact good_bar6Check ..

theorem good_emmdCheck (c : Cmd) (a b : Reg) : Good (fun _ => True) (emmdCheck c a b) := by
  unfold emmdCheck
  refine good_bind (good_bar6Zero ..) fun _ _ => ?_
  iterate 10 refine good_bind (good_engCheck ..) fun _ _ => ?_
  exact good_bar6Check ..

theorem good_drainScales (s : State) (la x2 : Nat) (hwf : Wf s) : Good (fun _ => True) (s.drainScales la x2) := by
  induction x2 generalizing la with
  | zero => trivial
  | succ n ih =>
    unfold State.drainScales
    exact good_bind (good_portRead _ _ _ _ _ _ hwf) fun _ _ => good_ite (good_bind (ih _) fun _ _ => trivial) trivial

theorem out_writeX (i : Instr) (d : Reg) (v : Word) (s : State) (hwf : Wf s) : OutWf (writeX i d v s) := by
  grind [writeX, !out_finish, setX_mem, Good, StopWf, Wf, SomeOf, PlanWf, OutWf]

theorem out_bitField (i : Instr) (word : Nat) (d : Reg) (w p : BitVec 6) (f : Nat → Nat → Word) (s : State) (hwf : Wf s) : OutWf (bitField i word d w p f s) := by
  grind [bitField, !out_finish, raise, setX_mem, Good, StopWf, Wf, SomeOf, PlanWf, OutWf]

theorem out_branch (i : Instr) (o : BitVec 14) (c : Bool) (s : State) (hwf : Wf s) : OutWf (branch i o c s) := by
  grind [branch, !out_finishJump, Good, StopWf, Wf, SomeOf, PlanWf, OutWf]

theorem out_jumpLink (i : Instr) (d : Reg) (link target : Word) (s : State) (hwf : Wf s) : OutWf (jumpLink i d link target s) := by
  grind [jumpLink, !out_finishJump, setX_mem, Good, StopWf, Wf, SomeOf, PlanWf, OutWf]

theorem wf_prefill (s : State) (q : Req) (va n : Nat) (hwf : Wf s) : Wf (s.prefill q va n) := by
  grind [State.prefill, !good_translate, !wf_keepFill, Good, StopWf, Wf, SomeOf, PlanWf, OutWf]

theorem out_loadInstr (i : Instr) (form : Nat) (d : Reg) (va : Word) (typ : Nat) (s : State) (hwf : Wf s) : OutWf (loadInstr i form d va typ s) := by
  unfold loadInstr
  have hload := good_scalarLoad s s.req va.toNat (loadWidth form) typ hwf
  dsimp only
  split
  · exact out_finish i s _ hwf (by grind [Good, !wf_prefill])
  · exact out_finish i s _ hwf (good_map hload fun _ h => h)

theorem good_scalarStore (s : State) (q : Req) (va n v typ : Nat) (hwf : Wf s) : Good Wf (s.scalarStore q va n v typ) := by
  simp only [State.scalarStore, bind, Except.bind]
  grind [!good_apertureCheck, !good_spadCheck, !good_storeTests, !good_portWrite, raiseAcc, !good_store, Good, StopWf, Wf, SomeOf, PlanWf, OutWf, pure, Except.pure]

theorem out_storeInstr (i : Instr) (form : Nat) (v : Reg) (va : Word) (typ : Nat) (s : State) (hwf : Wf s) : OutWf (storeInstr i form v va typ s) := by
  grind [storeInstr, !out_finish, !good_scalarStore, Good, StopWf, Wf, SomeOf, PlanWf, OutWf]

theorem out_vecLoadInstr (i : Instr) (d : Reg) (va : Word) (typ : Nat) (bcast : Bool) (s : State) (hwf : Wf s) : OutWf (vecLoadInstr i d va typ bcast s) := by
  simp only [vecLoadInstr, bind, Except.bind]
  grind [!out_finish, !good_vecLoad, !wf_prefill, !good_viaQueue, !good_writeV, mem_setFlags, mem_setPol, mem_vqPush, mem_enq, Good, StopWf, Wf, SomeOf, PlanWf, OutWf, pure, Except.pure]

theorem out_vecStoreInstr (i : Instr) (v : Reg) (va : Word) (typ : Nat) (s : State) (hwf : Wf s) : OutWf (vecStoreInstr i v va typ s) := by
  simp only [vecStoreInstr, bind, Except.bind]
  grind [!out_finish, !good_viaQueue, !good_readV, !good_vecStore, mem_vqPush, mem_setFlags, Good, StopWf, Wf, SomeOf, PlanWf, OutWf, pure, Except.pure]

theorem out_amoInt (i : Instr) (d a b : Reg) (w : Bool) (p : BitVec 2) (nr : Bool) (f : Nat → Nat → Nat → Nat) (s : State) (hwf : Wf s) :
    OutWf (amoInt i d a b w p nr f s) := by
  unfold amoInt
  exact out_atomic _ _ _ _ _ _ _ _ _ _ hwf fun _ h => h

theorem good_nmPlace (s : State) (q : Req) (va n : Nat) (hwf : Wf s) : Good (fun a => Wf a.1) (s.nmPlace q va n) := by
  simp only [State.nmPlace, bind, Except.bind]
  grind [raiseAcc, !good_translate, Good, StopWf, Wf, SomeOf, PlanWf, OutWf, pure, Except.pure]

theorem out_nearMem (i : Instr) (op : Nat) (a b : Reg) (vec : Bool) (s : State) (hwf : Wf s) : OutWf (nearMem i op a b vec s) := by
  simp only [nearMem, bind, Except.bind]
  grind [!out_finish, !good_nmPlace, !good_storeTests, setC_mem, mem_nmSend, !good_readV, Good, StopWf, Wf, SomeOf, PlanWf, OutWf, pure, Except.pure]

theorem good_lockPlace (s : State) (va : Nat) (a : Acc) (hwf : Wf s) : Good (fun a => Wf a.1) (s.lockPlace va a) := by
  simp only [State.lockPlace, bind, Except.bind]
  grind [raiseAcc, !good_translate, Good, StopWf, Wf, SomeOf, PlanWf, OutWf, pure, Except.pure]

theorem good_lockDone (s : State) (d : Reg) (r : LockReq) (status : Nat) (hwf : Wf s) : Good Wf (s.lockDone d r status) := by
  grind [State.lockDone, raiseAcc, mem_lockFill, mem_acquire, mem_lockResult, Good, StopWf, Wf, SomeOf, PlanWf, OutWf]

theorem good_lockGo (s : State) (d : Reg) (r : LockReq) (wait : Bool) (hwf : Wf s) : Good Wf (s.lockGo d r wait) := by
  grind [State.lockGo, !good_lockDone, mem_lockAccept, Good, StopWf, Wf, SomeOf, PlanWf, OutWf]

theorem good_lockNew (s : State) (d : Reg) (va scope t : Nat) (wait : Bool) (hwf : Wf s) : Good Wf (s.lockNew d va scope t wait) := by
  simp only [State.lockNew, bind, Except.bind]
  grind [!good_lockPlace, mem_lockResult, !good_lockGo, setCtx_mem, Good, StopWf, Wf, SomeOf, PlanWf, OutWf, pure, Except.pure]

theorem good_lockAcquire (s : State) (d : Reg) (va scope t : Nat) (wait : Bool) (hwf : Wf s) : Good Wf (s.lockAcquire d va scope t wait) := by
  grind [State.lockAcquire, !good_lockNew, !good_lockGo, setCtx_mem, mem_leaveQueue, Good, StopWf, Wf, SomeOf, PlanWf, OutWf]

theorem good_fencePool (s : State) (hwf : Wf s) : Good Wf (s.fencePool) := by
  grind [State.fencePool, !wf_performPool, setC_mem, mem_poolSend, Good, StopWf, Wf, SomeOf, PlanWf, OutWf, !wf_foldl, !mem_foldl]

theorem good_fenceStores (s : State) (scope : Nat) (hwf : Wf s) : Good Wf (s.fenceStores scope) := by
  grind [State.fenceStores, !good_fencePool, Good, StopWf, Wf, SomeOf, PlanWf, OutWf]

theorem good_fenceNm (s : State) (hwf : Wf s) : Good Wf (s.fenceNm) := by
  grind [State.fenceNm, setC_mem, Good, StopWf, Wf, SomeOf, PlanWf, OutWf]

theorem out_sysOnly (i : Instr) (word : Nat) (s : State) (o : Out) (hwf : Wf s) (ho : OutWf o) : OutWf (sysOnly i word s o) := by
  unfold sysOnly
  split
  · exact ho
  · exact out_finish i s _ hwf trivial

theorem out_xSystem (i : Instr) (word : Nat) (s : State) (r : Res) (hwf : Wf s) (hr : Good Wf r) : OutWf (xSystem i word s r) := by
  unfold xSystem
  split
  · exact out_finish i s _ hwf hwf
  · exact out_sysOnly i word s _ hwf (out_finish i s _ hwf hr)

theorem good_fenceFull (s : State) (scope : Nat) (hwf : Wf s) : Good Wf (s.fenceFull scope) := good_map (good_fenceStores s scope hwf) fun _ h => (congrArg (Memory.wf · = true) (mem_acquire _)).mpr h

theorem good_xinvPage (s : State) (scope va : Nat) (hwf : Wf s) : Good Wf (s.xinvPage scope va) := by
  grind [State.xinvPage, mem_invalidate, Good, StopWf, Wf, SomeOf, PlanWf, OutWf]

theorem wf_writeEntry (s : State) (own a : Nat) (e : Word) (hwf : Wf s) : Wf (s.writeEntry own a e) := by
  grind [State.writeEntry, mem_recall, !wf_poolWrite, !wf_poolSnoop, !wf_hbmWrite, Good, StopWf, Wf, SomeOf, PlanWf, OutWf]

theorem wf_copyPage (s : State) (own : Nat) (m : Mig) (hwf : Wf s) : Wf (s.copyPage own m) := by
  grind [State.copyPage, !wf_poolClean, mem_merge, mem_purge, mem_dropWalks, !wf_copyBytes, Good, StopWf, Wf, SomeOf, PlanWf, OutWf, !wf_foldl, !mem_foldl]

theorem good_migNext (s : State) (d : Reg) (m : Mig) (hwf : Wf s) : Good Wf (s.migNext d m) := by
  simp only [State.migNext, bind, Except.bind]
  grind [setX_mem, mem_migLocks, mem_migEnd, !good_fenceFull, !good_xinvPage, !wf_writeEntry, !wf_copyPage, mem_returnOps, Good, StopWf, Wf, SomeOf, PlanWf, OutWf, pure, Except.pure]

theorem good_migStart (s : State) (d a b : Reg) (hwf : Wf s) : Good Wf (s.migStart d a b) := by
  grind [State.migStart, setX_mem, raise, State.nodeTrap, !wf_writeEntry, Good, StopWf, Wf, SomeOf, PlanWf, OutWf]

theorem wf_terminateItem (s : State) (node k : Nat) (killed : Bool) (hwf : Wf s) : Wf (s.terminateItem node k killed) := by
  grind [State.terminateItem, !wf_terminate, mem_itemEnd, mem_switchSlot, Good, StopWf, Wf, SomeOf, PlanWf, OutWf, !wf_foldl, !mem_foldl]

theorem out_csrAccess (i : Instr) (word : Nat) (writes : Bool) (f : Word → Word) (d : Reg) (c : BitVec 12) (s : State) (hwf : Wf s) : OutWf (csrAccess i word writes f d c s) := by
  grind [csrAccess, !out_finish, raise, !out_writeX, mem_csrWrite, complete_mem, setX_mem, Good, StopWf, Wf, SomeOf, PlanWf, OutWf]

theorem good_readDesc (s : State) (va : Nat) (hwf : Wf s) : Good (fun a => Wf a.1) (s.readDesc va) := by
  unfold State.readDesc
  refine good_bind (good_scalarLoad _ _ _ _ _ hwf) fun ⟨t, a⟩ ht => good_bind (good_scalarLoad _ _ _ _ _ ht) fun ⟨u, b⟩ hu => ?_
  exact good_bind (good_scalarLoad _ _ _ _ _ hu) fun ⟨v, c⟩ hv => good_bind (good_scalarLoad _ _ _ _ _ hv) fun _ h => h

theorem out_engIssue (i : Instr) (c : Cmd) (checks : Except Stop Unit) (s : State) (hwf : Wf s) (hc : Good (fun _ => True) checks) :
    OutWf (engIssue i c checks s) := by
  refine out_finish i s _ hwf (good_ite hwf (good_bind hc fun _ _ => ?_))
  grind [Good, StopWf, Wf, State.setPol, setPolder_mem, mem_enq]

theorem good_ecpyCheck (c : Cmd) : Good (fun _ => True) (ecpyCheck c) := by
  unfold ecpyCheck
  refine good_bind (good_engCheck ..) fun _ _ => ?_
  dsimp only
  split
  · trivial
  · refine good_bind (P := fun _ => True) trivial fun _ _ => good_bind (good_engCheck ..) fun _ _ => good_bind (good_engCheck ..) fun _ _ => ?_
    split
    · exact good_bind (good_engCheck ..) fun _ _ => good_barCheck ..
    · trivial

theorem good_rowsCheck (c : Cmd) (a b : Reg) : Good (fun _ => True) (rowsCheck c a b) := by
  simp only [rowsCheck, bind, Except.bind]
  grind [!good_engCheck, !good_barCheck, Good, StopWf, Wf, SomeOf, PlanWf, OutWf, pure, Except.pure]

theorem good_exchCheck (c : Cmd) (a b : Reg) : Good (fun _ => True) (exchCheck c a b) := by
  simp only [exchCheck, bind, Except.bind]
  grind [!good_engCheck, !good_barCheck, Good, StopWf, Wf, SomeOf, PlanWf, OutWf, pure, Except.pure]

theorem good_readRecord (s : State) (va : Nat) (hwf : Wf s) : Good (fun a => Wf a.1) (s.readRecord va) := by
  unfold State.readRecord
  refine good_ite (good_bind (good_apertureCheck ..) fun _ _ => good_bind (good_spadCheck ..) fun _ _ =>
    good_bind (good_portRead _ _ _ _ _ _ hwf) fun _ _ => hwf) ?_
  exact good_ite trivial (good_ite trivial (good_load _ _ _ _ _ _ hwf))

theorem good_collCheck (s : State) (c : Cmd) (a b : Reg) (r1 r2 : Nat) (hwf : Wf s) : Good (fun _ => True) (s.collCheck c a b r1 r2) := by
  unfold State.collCheck
  dsimp only
  refine good_bind (good_engCheck ..) fun _ _ => ?_
  split
  · trivial
  · trivial
  · split
    · trivial
    · iterate 4 refine good_bind (good_engCheck ..) fun _ _ => ?_
      exact good_bind (good_barCheck ..) fun _ _ => trivial

theorem good_collIssue (s : State) (i : CollIssue) (hwf : Wf s) : Good Wf (s.collIssue i) := by
  unfold State.collIssue
  dsimp only
  refine good_ite trivial (good_ite hwf ?_)
  split
  · exact hwf
  · exact (congrArg (Memory.wf · = true) ((mem_wakeEngine ..).trans ((mem_putColl ..).trans (mem_setComm ..)))).mpr hwf

theorem good_etopkCheck (c : Cmd) (a b : Reg) : Good (fun _ => True) (etopkCheck c a b) := by
  simp only [etopkCheck, bind, Except.bind]
  grind [!good_engCheck, !good_barCheck, Good, StopWf, Wf, SomeOf, PlanWf, OutWf, pure, Except.pure]

theorem good_readWords (s : State) (va x2 : Nat) (hwf : Wf s) : Good (fun a => Wf a.1) (s.readWords va x2) := by
  induction x2 generalizing s va with
  | zero => exact hwf
  | succ n ih =>
    unfold State.readWords
    exact good_bind (good_scalarLoad _ _ _ _ _ hwf) fun ⟨t, v⟩ ht => good_bind (ih t _ ht) fun _ h => h

theorem good_readRegions (s : State) (a : Reg) (peer va x4 : Nat) (hwf : Wf s) : Good (fun a => Wf a.1) (s.readRegions a peer va x4) := by
  induction x4 generalizing s va with
  | zero => exact hwf
  | succ n ih =>
    unfold State.readRegions
    refine good_bind (good_readWords _ _ _ hwf) fun ⟨t, l⟩ ht => ?_
    dsimp only at ht ⊢
    split
    · trivial
    · exact good_bind (ih t _ ht) fun _ h => h

theorem good_enmscCheck (c : Cmd) (a b : Reg) : Good (fun _ => True) (enmscCheck c a b) := by
  simp only [enmscCheck, bind, Except.bind]
  grind [!good_engCheck, !good_barCheck, Good, StopWf, Wf, SomeOf, PlanWf, OutWf, pure, Except.pure]

theorem good_eptabCheck (c : Cmd) (a b : Reg) : Good (fun _ => True) (eptabCheck c a b) := by
  simp only [eptabCheck, bind, Except.bind]
  grind [!good_engCheck, !good_barCheck, Good, StopWf, Wf, SomeOf, PlanWf, OutWf, pure, Except.pure]

theorem good_barAddr (x0 : Word) : Good (fun _ => True) (barAddr x0) := by
  grind [barAddr, raise, Good, StopWf, Wf, SomeOf, PlanWf, OutWf]

theorem wf_barSet (s : State) (node p la : Nat) (count : Int) (w : Nat) (hwf : Wf s) : Wf (s.barSet node p la count w) := by
  grind [State.barSet, Barriers.portSeen_mem, Barriers.lostWordWrite_mem, !wf_memWrite, Good, StopWf, Wf, SomeOf, PlanWf, OutWf]

theorem wf_barAdd (s : State) (node p la : Nat) (d : Int) (piece : Option Nat) (hwf : Wf s) : Wf (s.barAdd node p la d piece) := by
  simp only [State.barAdd]
  grind [!wf_barFault, !wf_barSet, Good, StopWf, Wf, SomeOf, PlanWf, OutWf, pure, Except.pure]

theorem out_startHelper (i : Instr) (word : Nat) (d a b : Reg) (ra : Bool) (s : State) (hwf : Wf s) : OutWf (startHelper i word d a b ra s) := by
  grind [startHelper, !out_finish, raise, mem_handlersFirst, setX_mem, setCtx_mem, Good, StopWf, Wf, SomeOf, PlanWf, OutWf]

theorem wf_endRunAhead (s : State) (node k : Nat) (hwf : Wf s) : Wf (s.endRunAhead node k) := by
  grind [State.endRunAhead, !wf_terminate, Good, StopWf, Wf, SomeOf, PlanWf, OutWf, !wf_foldl, !mem_foldl]

theorem out_endIfRunAhead (i : Instr) (s : State) (r : Res) (hwf : Wf s) (hr : Good Wf r) : OutWf (endIfRunAhead i s r) :=
  out_finish i s _ hwf (good_ite trivial hr)

theorem good_handleCheck (h : Word) : Good (fun _ => True) (handleCheck h) := by
  grind [handleCheck, raise, Good, StopWf, Wf, SomeOf, PlanWf, OutWf]

theorem good_sendMsg (s : State) (d : Reg) (h : Word) (bytes : Nat) (data : Vec) (bearing : Option (BitVec 32)) (hwf : Wf s) : Good Wf (s.sendMsg d h bytes data bearing) := by
  grind [State.sendMsg, setX_mem, setCC_mem, mem_enq, setC_mem, Good, StopWf, Wf, SomeOf, PlanWf, OutWf]

theorem good_myMbox (s : State) (x1 : Word) (hwf : Wf s) : Good (fun _ => True) (s.myMbox x1) := by
  grind [State.myMbox, raise, Good, StopWf, Wf, SomeOf, PlanWf, OutWf]

theorem good_popCheck (s : State) (x1 : Word) (b : Mbox) (hwf : Wf s) : Good (fun _ => True) (s.popCheck x1 b) := by
  grind [State.popCheck, raise, Good, StopWf, Wf, SomeOf, PlanWf, OutWf]

theorem good_ringRead (s : State) (la n : Nat) (hwf : Wf s) : Good (fun _ => True) (s.ringRead la n) := by
  grind [State.ringRead, raiseAcc, Good, StopWf, Wf, SomeOf, PlanWf, OutWf]

theorem good_appendCheck (s : State) (d : Reg) (hwf : Wf s) : Good (fun _ => True) (s.appendCheck d) := by
  grind [State.appendCheck, !good_writeV, Good, StopWf, Wf, SomeOf, PlanWf, OutWf]

theorem good_recordAlign (va n al : Nat) : Good (fun _ => True) (recordAlign va n al) := by
  simp only [recordAlign, bind, Except.bind]
  grind [!good_apertureCheck, !good_spadCheck, raiseAcc, Good, StopWf, Wf, SomeOf, PlanWf, OutWf, pure, Except.pure]

theorem good_tokOperands (t x1 : Word) (fwd : Bool) : Good (fun _ => True) (tokOperands t x1 fwd) := by
  grind [tokOperands, raise, Good, StopWf, Wf, SomeOf, PlanWf, OutWf]

theorem good_tokStart (s : State) (d : Reg) (t x3 : Word) (fwd : Bool) (hwf : Wf s) : Good Wf (s.tokStart d t x3 fwd) := by
  grind [State.tokStart, mem_tokEnd, raise, raiseAcc, mem_enq, setC_mem, Good, StopWf, Wf, SomeOf, PlanWf, OutWf]

theorem good_tokSend (s : State) (t x2 : Word) (fwd : Bool) (w : TokWait) (hwf : Wf s) : Good Wf (s.tokSend t x2 fwd w) := by
  unfold State.tokSend
  have hread := good_portRead s s.fnode s.pIdx (fieldW x2 0 32) (32 * (fieldW t 35 11 + 1)) (localVa (fieldW x2 0 32)) hwf
  refine good_bind (P := fun _ => True) ?_ fun v _ => ?_
  · cases h : s.portRead s.fnode s.pIdx (fieldW x2 0 32) (32 * (fieldW t 35 11 + 1)) (localVa (fieldW x2 0 32)) with
    | ok v => trivial
    | error e =>
      rw [h] at hread
      cases e with
      | trap t => exact (congrArg (Memory.wf · = true) (mem_dropTok ..)).mpr hwf
      | trapKeep t u => exact hread
      | wait w u => exact hread
  · exact (congrArg (Memory.wf · = true) (mem_enq ..)).mpr hwf

theorem out_tokenSend (i : Instr) (d a b : Reg) (fwd : Bool) (s : State) (hwf : Wf s) : OutWf (tokenSend i d a b fwd s) := by
  unfold tokenSend
  refine out_finish i s _ hwf (good_ite hwf (good_bind (good_tokOperands ..) fun _ _ => ?_))
  dsimp only
  split
  · exact good_tokStart _ _ _ _ _ hwf
  · refine good_ite (wf_of_mem hwf (mem_tokEnd ..)) ?_
    split
    · exact good_ite (wf_of_mem hwf (mem_tokEnd ..)) hwf
    · exact good_bind (good_tokSend _ _ _ _ _ hwf) fun t ht => ht
    · exact hwf
    · exact wf_of_mem hwf (mem_tokEnd ..)

theorem good_resultRows (s : State) (la n : Nat) (x3 : List ResultRow) (hwf : Wf s) : Good (fun _ => True) (s.resultRows la n x3) := by
  induction x3 generalizing la with
  | nil => trivial
  | cons r rest ih =>
    unfold State.resultRows
    exact good_bind (good_portRead _ _ _ _ _ _ hwf) fun _ _ => good_bind (ih _) fun _ _ => trivial

theorem good_tokenReturn (s : State) (d : Reg) (w x3 : Word) (hwf : Wf s) : Good Wf (s.tokenReturn d w x3) := by
  have hend : ∀ (t : State) (node p la v rn rp by_ name k : Nat), Wf t → Wf ((t.spadWrite node p la 8 v rn rp by_).freeSlotRow node p name k) :=
    fun t node p la v rn rp by_ name k ht => wf_of_mem (wf_spadWrite _ _ _ _ _ _ _ _ _ ht) (mem_freeSlotRow ..)
  unfold State.tokenReturn
  have hstale : Wf (s.setX d (tokWord 0 0 0 tkStale)) := hwf
  dsimp only
  refine good_ite trivial (good_ite trivial ?_)
  split
  · refine good_ite hstale (good_ite trivial (good_ite hstale (good_ite (wf_of_mem (hend s _ _ _ _ _ _ _ _ _ hwf) (setX_mem ..)) (good_ite trivial ?_))))
    refine good_bind (good_resultRows _ _ _ _ hwf) fun l _ => wf_of_mem (hend _ _ _ _ _ _ _ _ _ _ ?_) (setX_mem ..)
    exact wf_of_mem hwf (mem_foldl _ (fun _ _ => mem_sendResult ..) l s)
  · exact hstale

theorem some_hwCopy (s : State) (node p hw a b rows bar bn bp name : Nat) (hwf : Wf s) : SomeOf Wf (s.hwCopy node p hw a b rows bar bn bp name) := some_map _ _ fun _ => by simpa [Wf] using hwf

theorem wf_issueCopy (s : State) (node p name : Nat) (hwf : Wf s) : Wf (s.issueCopy node p name) := by
  grind [State.issueCopy, !some_hwCopy, mem_setRepl, mem_enqOnce, Good, StopWf, Wf, SomeOf, PlanWf, OutWf]

theorem wf_weightCopy (s : State) (name e r : Nat) (hwf : Wf s) : Wf (s.weightCopy name e r) := by
  grind [State.weightCopy, mem_setRepl, !wf_issueCopy, !wf_barAdd, Good, StopWf, Wf, SomeOf, PlanWf, OutWf]

theorem wf_mInc (s : State) (node p o : Nat) (hwf : Wf s) : Wf (s.mInc node p o) := by
  grind [State.mInc, !wf_spadWrite, Good, StopWf, Wf, SomeOf, PlanWf, OutWf]

theorem wf_pageClose (s : State) (node p name e k : Nat) (hwf : Wf s) : Wf (s.pageClose node p name e k) := by
  grind [State.pageClose, !wf_mInc, mem_setRepl, Good, StopWf, Wf, SomeOf, PlanWf, OutWf]

theorem some_landPage (s : State) (t : Token) (e : Nat) (m : Repl) (hwf : Wf s) : SomeOf Wf (s.landPage t e m) := by
  grind [State.landPage, !wf_spadWrite, mem_setRepl, !wf_pageClose, Good, StopWf, Wf, SomeOf, PlanWf, OutWf]

theorem some_landTag (s : State) (t : Token) (e : Nat) (m : Repl) (hwf : Wf s) : SomeOf Wf (s.landTag t e m) := by
  grind [State.landTag, !wf_spadWrite, mem_setRepl, !wf_mInc, Good, StopWf, Wf, SomeOf, PlanWf, OutWf]

theorem some_createReplica (s : State) (own name e : Nat) (hwf : Wf s) : SomeOf (fun a => Wf a.1) (s.createReplica own name e) := by
  grind [State.createReplica, setDie_mem, mem_legChange, mem_setRepl, !wf_weightCopy, Good, StopWf, Wf, SomeOf, PlanWf, OutWf]

theorem wf_creationTest (s : State) (own name : Nat) (hwf : Wf s) : Wf (s.creationTest own name) := by
  grind [State.creationTest, !some_createReplica, Good, StopWf, Wf, SomeOf, PlanWf, OutWf]

theorem some_landToken (s : State) (t : Token) (e : Nat) (m : Repl) (hwf : Wf s) : SomeOf Wf (s.landToken t e m) := by
  grind [State.landToken, mem_setRepl, !some_landPage, !some_landTag, !wf_creationTest, mem_setLegend, mem_setMark, mem_accept, Good, StopWf, Wf, SomeOf, PlanWf, OutWf]

theorem wf_releaseHeld (s : State) (node p name : Nat) (hwf : Wf s) : Wf (s.releaseHeld node p name) := by
  unfold State.releaseHeld
  split
  · next m e _ _ =>
    dsimp only
    have hstep : ∀ (l : List Token) (x : State × List (CtxId × BitVec 32)), Wf x.1 → Wf (l.foldl (fun (x : State × List (CtxId × BitVec 32)) t =>
        if x.2.contains (t.sender, t.seq) = true then (((x.1.creditBack node p name t.part).countDup node p).accept t, x.2)
        else match (x.1.repl node p name).bind (fun m => if newerVer t.ver m.ver = true then none else x.1.landToken t e m) with
          | some s => (s, (t.sender, t.seq) :: x.2)
          | none => (match x.1.repl node p name with
            | some m => x.1.setRepl node p name { m with heldToks := m.heldToks ++ [t] }
            | none => x.1, x.2)) x).1 := by
      intro l
      induction l with
      | nil => exact fun _ h => h
      | cons t l ih =>
        intro x hx
        refine ih _ ?_
        dsimp only
        split
        · exact wf_of_mem hx ((mem_accept ..).trans ((mem_countDup ..).trans (mem_creditBack ..)))
        · split
          · next u h =>
            obtain ⟨m', -, hland⟩ := Option.bind_eq_some_iff.mp h
            have := some_landToken x.1 t e m' hx
            grind [SomeOf]
          · dsimp only
            split
            · exact wf_of_mem hx (mem_setRepl ..)
            · exact hx
    exact hstep _ _ (wf_of_mem hwf (mem_setRepl ..))
  · exact hwf

theorem wf_refreshed (s : State) (node p name : Nat) (hwf : Wf s) : Wf (s.refreshed node p name) := by
  grind [State.refreshed, !wf_releaseHeld, mem_setRepl, Good, StopWf, Wf, SomeOf, PlanWf, OutWf]

theorem wf_drainReplica (s : State) (own name e r : Nat) (hwf : Wf s) : Wf (s.drainReplica own name e r) := by
  grind [State.drainReplica, mem_legChange, mem_setRepl, !wf_creationTest, Good, StopWf, Wf, SomeOf, PlanWf, OutWf]

theorem wf_streamFetch (s : State) (id : CtxId) (r : Reg) (hwf : Wf s) : Wf (s.streamFetch id r) := by
  grind [State.streamFetch, !good_vecLoad, setCtx_mem, mem_enq, Good, StopWf, Wf, SomeOf, PlanWf, OutWf]

theorem wf_symbolError (s : State) (pa dies : Nat) (v : Vec) (hwf : Wf s) : Wf (s.symbolError pa dies v) := by
  simp only [State.symbolError]
  grind [mem_startTest, mem_countCorrected, mem_logError, mem_markLost, !wf_memWrite, Good, StopWf, Wf, SomeOf, PlanWf, OutWf, pure, Except.pure]

theorem wf_nmApply (s : State) (pa : Nat) (uncorrectable : Bool) (hwf : Wf s) : Wf (s.nmApply pa uncorrectable) := by
  grind [State.nmApply, !wf_symbolError, !wf_hbmWrite, mem_enq, Good, StopWf, Wf, SomeOf, PlanWf, OutWf]

theorem wf_barPiece (s : State) (node p la n scope : Nat) (hwf : Wf s) : Wf (s.barPiece node p la n scope) := by
  grind [State.barPiece, !wf_barAdd, Good, StopWf, Wf, SomeOf, PlanWf, OutWf]

theorem wf_enmscAck (s : State) (o : NmOp) (no i k j : Nat) (hwf : Wf s) : Wf (s.enmscAck o no i k j) := by
  grind [State.enmscAck, mem_engPut, !wf_barPiece, !wf_barFault, mem_setEngine, mem_engComplete, Good, StopWf, Wf, SomeOf, PlanWf, OutWf]

theorem wf_nmAck (s : State) (pa : Nat) (hwf : Wf s) : Wf (s.nmAck pa) := by
  grind [State.nmAck, !wf_enmscAck, mem_nmAcked, Good, StopWf, Wf, SomeOf, PlanWf, OutWf]

theorem wf_nmReturn (s : State) (pa : Nat) (id : CtxId) (hwf : Wf s) : Wf (s.nmReturn pa id) := by
  grind [State.nmReturn, !good_nmPlace, mem_enq, Good, StopWf, Wf, SomeOf, PlanWf, OutWf]

theorem wf_snoopLine (s : State) (node pl : Nat) (k : Snoop) (hwf : Wf s) : Wf (s.snoopLine node pl k).1 := by
  simp only [State.snoopLine]
  grind [mem_dropWalks, !wf_poolClean, mem_recall, mem_merge, mem_cleanCopies, Good, StopWf, Wf, SomeOf, PlanWf, OutWf, pure, Except.pure]

theorem wf_snoopLines (s : State) (node pl : Nat) (k : Snoop) (x4 : Nat) (hwf : Wf s) : Wf (s.snoopLines node pl k x4).1 := by
  induction x4 generalizing s pl with
  | zero => exact hwf
  | succ n ih => exact ih _ _ (wf_snoopLine s node pl k hwf)

theorem wf_biSnoop (s : State) (e : Ev) (k : Snoop) (hwf : Wf s) : Wf (s.biSnoop e k) := by
  grind [State.biSnoop, !wf_snoopLines, setPkg_mem, Good, StopWf, Wf, SomeOf, PlanWf, OutWf]

theorem wf_regionLost (s : State) (node n : Nat) (hwf : Wf s) : Wf (s.regionLost node n) := by
  have hzero : ∀ (l : List Nat) (m : List Host.Cell), Memory.wf m = true → Memory.wf (l.foldl (fun m a => memZero m a 64) m) = true := by
    intro l
    induction l with
    | nil => exact fun _ h => h
    | cons a l ih =>
      intro m h
      rw [List.foldl_cons]
      exact ih _ (wf_memZero m a 64 h)
  unfold State.regionLost
  dsimp only
  generalize sortAsc _ = lines
  have hlines : Memory.wf (lines.foldl (fun m a => memZero m a 64) s.mem) = true := hzero lines s.mem hwf
  split
  · exact hwf
  · simp only [Wf, mem_setRegion, mem_purgeRegion, setPkg_mem]
    exact hlines

theorem wf_portLost (s : State) (node port : Nat) (hwf : Wf s) : Wf (s.portLost node port) := by
  grind [State.portLost, !wf_regionLost, Good, StopWf, Wf, SomeOf, PlanWf, OutWf, !wf_foldl, !mem_foldl]

theorem wf_regionDetached (s : State) (node n : Nat) (hwf : Wf s) : Wf (s.regionDetached node n) := by
  grind [State.regionDetached, !wf_poolClean, mem_purgeRegion, mem_setRegion, Good, StopWf, Wf, SomeOf, PlanWf, OutWf, !wf_foldl, !mem_foldl]

theorem wf_portDrain (s : State) (node p : Nat) (x3 : List PortWrite) (hwf : Wf s) : Wf (s.portDrain node p x3) := by
  induction x3 generalizing s with
  | nil => exact wf_of_mem hwf (setPolder_mem ..)
  | cons w r ih =>
    unfold State.portDrain
    split
    · exact wf_of_mem hwf (mem_enq ..)
    · exact ih _ (wf_spadWrite _ _ _ _ _ _ _ _ _ hwf)

theorem good_engPool (s : State) (q : Req) (va pa : Nat) (acc : BitVec 2) (hwf : Wf s) : Good (fun _ => True) (s.engPool q va pa acc) := by
  grind [State.engPool, raiseAcc, Good, StopWf, Wf, SomeOf, PlanWf, OutWf]

theorem good_engAperture (s : State) (q : Req) (node p va la n : Nat) (u : SpadUnit) (hwf : Wf s) : Good (fun _ => True) (s.engAperture q node p va la n u) := by
  simp only [State.engAperture, bind, Except.bind]
  grind [!good_spadCheck, raiseAcc, Good, StopWf, Wf, SomeOf, PlanWf, OutWf, pure, Except.pure]

theorem good_engReadAt (s : State) (q : Req) (va pa n : Nat) (u : SpadUnit) (hwf : Wf s) : Good (fun a => Wf a.1) (s.engReadAt q va pa n u) := by
  simp only [State.engReadAt, bind, Except.bind]
  grind [!good_hbmCheck, raiseAcc, mem_merge, !good_engPool, poolLostTrap, !good_homeReady, !wf_poolSnoop, !good_remoteSpad, !good_engAperture, Good, StopWf, Wf, SomeOf, PlanWf, OutWf, pure, Except.pure]

theorem good_peerRead (s : State) (c : Cmd) (pa n : Nat) (hwf : Wf s) : Good (fun a => Wf a.1) (s.peerRead c pa n) := by
  grind [State.peerRead, raise, !good_engReadAt, Good, StopWf, Wf, SomeOf, PlanWf, OutWf]

theorem good_engPortWrite (s : State) (q : Req) (node p va la n v : Nat) (u : SpadUnit) (hwf : Wf s) : Good Wf (s.engPortWrite q node p va la n v u) := by
  simp only [State.engPortWrite, bind, Except.bind]
  grind [!good_spadCheck, !wf_spadWrite, Good, StopWf, Wf, SomeOf, PlanWf, OutWf, pure, Except.pure]

theorem good_engWriteAt (s : State) (q : Req) (va pa n v : Nat) (u : SpadUnit) (hwf : Wf s) : Good Wf (s.engWriteAt q va pa n v u) := by
  simp only [State.engWriteAt, bind, Except.bind]
  grind [!good_hbmCheck, !wf_hbmWrite, mem_recall, !good_engPool, poolLostTrap, !good_homeReady, !wf_poolClean, !wf_poolWrite, !wf_poolSnoop, raiseAcc, !good_remoteSpad, !good_engPortWrite, Good, StopWf, Wf, SomeOf, PlanWf, OutWf, pure, Except.pure]

theorem good_engStore (s : State) (c : Cmd) (va n v : Nat) (hwf : Wf s) : Good Wf (s.engStore c va n v) := by
  unfold State.engStore
  dsimp only
  refine good_ite trivial (good_ite (good_bind (good_apertureCheck ..) fun _ _ => good_engPortWrite _ _ _ _ _ _ _ _ _ hwf) (good_ite trivial ?_))
  refine good_bind (good_keeping s _ _ hwf (good_translate s c.req va accWrite hwf)) fun ⟨t, x⟩ ht => ?_
  exact good_keeping t _ _ ht (good_engWriteAt _ _ _ _ _ _ _ ht)

theorem good_engWriteG (s : State) (c : Cmd) (va n v x5 : Nat) (hwf : Wf s) : Good Wf (s.engWriteG c va n v x5) := by
  induction x5 generalizing s va n v with
  | zero => exact hwf
  | succ fuel ih =>
    unfold State.engWriteG
    exact good_bind (good_engStore _ _ _ _ _ hwf) fun t ht => good_ite ht (good_keeping t _ _ ht (ih t _ _ _ ht))

theorem good_engWrite (s : State) (c : Cmd) (code va n v : Nat) (hwf : Wf s) : Good Wf (s.engWrite c code va n v) := by
  grind [State.engWrite, !good_engWriteG, !wf_spadWrite, Good, StopWf, Wf, SomeOf, PlanWf, OutWf]

theorem good_engPort (s : State) (c : Cmd) (la n : Nat) (hwf : Wf s) : Good (fun _ => True) (s.engPort c la n) := by
  grind [State.engPort, raiseAcc, Good, StopWf, Wf, SomeOf, PlanWf, OutWf]

theorem good_replicaUnit (s : State) (c : Cmd) (hwf : Wf s) : Good (fun a => Wf a.1) (s.replicaUnit c) := by
  simp only [State.replicaUnit, bind, Except.bind]
  grind [!good_peerRead, !good_engWrite, !wf_barPiece, !good_engPort, !good_hbmCheck, !wf_hbmWrite, mem_recall, Good, StopWf, Wf, SomeOf, PlanWf, OutWf, pure, Except.pure]

theorem good_engGlobal (s : State) (q : Req) (va n : Nat) (u : SpadUnit) (hwf : Wf s) : Good (fun a => Wf a.1) (s.engGlobal q va n u) := by
  unfold State.engGlobal
  dsimp only
  refine good_ite (good_bind (good_apertureCheck ..) fun _ _ => good_bind (good_engAperture _ _ _ _ _ _ _ _ hwf) fun _ _ => hwf) (good_ite trivial ?_)
  refine good_bind (good_keeping s _ _ hwf (good_translate s q va accRead hwf)) fun ⟨t, x⟩ ht => ?_
  exact good_keeping t _ _ ht (good_engReadAt _ _ _ _ _ _ ht)

theorem good_engReadG (s : State) (q : Req) (va n : Nat) (u : SpadUnit) (x5 : Nat) (hwf : Wf s) : Good (fun a => Wf a.1) (s.engReadG q va n u x5) := by
  induction x5 generalizing s va n with
  | zero => exact hwf
  | succ fuel ih =>
    unfold State.engReadG
    refine good_bind (good_engGlobal _ _ _ _ _ hwf) fun ⟨t, v⟩ ht => good_ite ht ?_
    exact good_bind (good_keeping t _ _ ht (ih t _ _ ht)) fun _ h => h

theorem good_engRead (s : State) (c : Cmd) (code va n : Nat) (hwf : Wf s) : Good (fun a => Wf a.1) (s.engRead c code va n) := good_ite (good_engReadG _ _ _ _ _ _ hwf) (good_map (good_engPort _ _ _ _ hwf) fun _ _ => hwf)

theorem good_ecpyUnit (s : State) (c : Cmd) (hwf : Wf s) : Good (fun a => Wf a.1) (s.ecpyUnit c) := by
  unfold State.ecpyUnit
  refine good_bind (good_engRead _ _ _ _ _ hwf) fun ⟨t, v⟩ ht => ?_
  exact good_bind (good_keeping t _ _ ht (good_engWrite _ _ _ _ _ _ ht)) fun u hu => wf_barPiece _ _ _ _ _ _ hu

theorem good_etopkUnit (s : State) (c : Cmd) (hwf : Wf s) : Good (fun a => Wf a.1) (s.etopkUnit c) := by
  unfold State.etopkUnit
  dsimp only
  refine good_ite trivial (good_ite trivial (good_bind (good_engRead _ _ _ _ _ hwf) fun ⟨t, v⟩ ht => ?_))
  exact good_bind (good_keeping t _ _ ht (good_engWrite _ _ _ _ _ _ ht)) fun u hu => wf_barPiece _ _ _ _ _ _ hu

theorem good_enmscUnit (s : State) (c : Cmd) (hwf : Wf s) : Good (fun a => Wf a.1) (s.enmscUnit c) := by
  unfold State.enmscUnit
  dsimp only
  have hread := good_engRead s c 0 (c.a + BitVec.ofNat 64 (4 * (c.pos / fieldW c.g[0] 16 12))).toNat 4 hwf
  have hrest : ∀ (y : State × Nat), Wf y.1 → Good (fun a => Wf a.1) (do
      let (u, v) ← y.1.keeping c.req (y.1.engRead c 0 (c.b + BitVec.ofNat 64 (32 * fieldW c.g[0] 16 12 * (c.pos / fieldW c.g[0] 16 12) +
        32 * (c.pos % fieldW c.g[0] 16 12))).toNat 32)
      let va := c.g[1] + BitVec.ofNat 64 (32 * fieldW c.g[0] 16 12 * y.2 + 32 * (c.pos % fieldW c.g[0] 16 12))
      let (x, p) ← u.keeping c.req (u.nmPlace c.req va.toNat 32)
      if (x.polder c.id.node c.id.polder).rl.any (fun e => e.cmd != c.no && e.hits 0 c.asid va.toNat 32) then raiseAcc .rangeLockHit va 1
      else .ok (x.nmSend ⟨c.id, c.cgen, va, p.pa, c.asid, c.ptroot, p.gen, fieldW c.g[0] 28 3, true, BitVec.ofNat 256 v, .sent, none,
          some (c.no, c.pos / fieldW c.g[0] 16 12, c.pos % fieldW c.g[0] 16 12, y.2), false⟩,
        { c with pos := c.pos + 1, open_ := c.open_ + 1, ix := some (c.pos / fieldW c.g[0] 16 12, y.2) },
        c.single || decide (fieldW c.g[0] 0 16 * fieldW c.g[0] 16 12 ≤ c.pos + 1)) : UnitRes) := by
    intro ⟨t, j⟩ ht
    refine good_bind (good_keeping t _ _ ht (good_engRead _ _ _ _ _ ht)) fun ⟨u, v⟩ hu => ?_
    refine good_bind (good_keeping u _ _ hu (good_nmPlace _ _ _ _ hu)) fun ⟨x, y⟩ hx => good_ite trivial ?_
    exact wf_of_mem (s := x) hx (mem_nmSend ..)
  split
  · exact good_ite (good_bind (P := fun (y : State × Nat) => Wf y.1) hwf hrest) (good_bind hread hrest)
  · exact good_bind hread hrest

theorem good_eptabUnit (s : State) (c : Cmd) (hwf : Wf s) : Good (fun a => Wf a.1) (s.eptabUnit c) := by
  simp only [State.eptabUnit, bind, Except.bind]
  grind [!good_engRead, raise, setPolder_mem, !wf_barPiece, Good, StopWf, Wf, SomeOf, PlanWf, OutWf, pure, Except.pure]

theorem good_rowUnit (s : State) (c : Cmd) (hwf : Wf s) : Good (fun a => Wf a.1) (s.rowUnit c) := by
  unfold State.rowUnit
  refine good_bind (good_engRead _ _ _ _ _ hwf) fun ⟨t, j⟩ ht => ?_
  refine good_bind (good_keeping t _ _ ht (good_ite (good_engRead _ _ _ _ _ ht) (good_engRead _ _ _ _ _ ht))) fun ⟨u, v⟩ hu => ?_
  refine good_bind (good_keeping u _ _ hu (good_ite (good_engWrite _ _ _ _ _ _ hu) (good_engWrite _ _ _ _ _ _ hu))) fun x hx => ?_
  exact wf_barPiece _ _ _ _ _ _ hx

theorem good_engUnit (s : State) (c : Cmd) (hwf : Wf s) : Good (fun a => Wf a.1) (s.engUnit c) := by
  grind [State.engUnit, !good_replicaUnit, !good_ecpyUnit, !good_etopkUnit, !good_enmscUnit, !good_eptabUnit, !good_rowUnit, Good, StopWf, Wf, SomeOf, PlanWf, OutWf]

theorem wf_engPiece (s : State) (node p no : Nat) (hwf : Wf s) : Wf (s.engPiece node p no) := by
  unfold State.engPiece
  dsimp only
  split
  · exact hwf
  · next c _ =>
    have hunit := good_engUnit s c hwf
    split
    · exact hwf
    · split
      · next h => rw [h] at hunit; exact wf_of_mem hunit ((mem_enq ..).trans (mem_unitWaits ..))
      · exact wf_of_mem hwf (mem_enq ..)
      · next t c' last h =>
        rw [h] at hunit
        have hdone : Wf ((t.onTime no).pinsDone no (t.touches c')) := wf_of_mem (s := t) hunit ((mem_pinsDone ..).trans (mem_onTime ..))
        split
        · split
          · exact wf_of_mem hdone (mem_engPut ..)
          · exact wf_of_mem hdone (mem_engComplete ..)
        · exact wf_of_mem hdone ((mem_enq ..).trans (mem_engPut ..))

theorem wf_stopCmd (s : State) (node p : Nat) (c : Cmd) (cause : Cause) (fva : Word) (respt : Nat) (array : Bool) (hwf : Wf s) : Wf (s.stopCmd node p c cause fva respt array) := by
  grind [State.stopCmd, !wf_barFault, mem_freeCmd, setPolder_mem, Good, StopWf, Wf, SomeOf, PlanWf, OutWf]

theorem wf_engStop (s : State) (node p no : Nat) (hwf : Wf s) : Wf (s.engStop node p no) := by
  unfold State.engStop
  split
  · exact hwf
  · next c _ =>
    have hfault := some_unitFault s _ hwf (good_engUnit s c hwf)
    split
    · next t s' h =>
      rw [h] at hfault
      split
      · exact wf_of_mem hwf (mem_enq ..)
      · exact wf_stopCmd _ _ _ _ _ _ _ _ (wf_of_mem (s := s') hfault ((mem_engLeave ..).trans (mem_noteFail ..)))
    · exact wf_of_mem hwf (mem_enq ..)

theorem wf_stopAll (s : State) (node p : Nat) (l : List Cmd) (cause : Cause) (fva : Word) (hwf : Wf s) : Wf (s.stopAll node p l cause fva) := by
  grind [State.stopAll, !wf_stopCmd, Good, StopWf, Wf, SomeOf, PlanWf, OutWf, !wf_foldl, !mem_foldl]

theorem wf_exchForm (s : State) (node p : Nat) (hwf : Wf s) : Wf (s.exchForm node p) := by
  grind [State.exchForm, mem_setEngine, mem_enqOnce, mem_enq, !wf_stopAll, Good, StopWf, Wf, SomeOf, PlanWf, OutWf]

theorem good_exchFrag (s : State) (node p : Nat) (l : List Cmd) (c : Cmd) (r w : Nat) (hwf : Wf s) : Good Wf (s.exchFrag node p l c r w) := by
  simp only [State.exchFrag, bind, Except.bind]
  grind [!good_engPort, !good_engWrite, !wf_barPiece, Good, StopWf, Wf, SomeOf, PlanWf, OutWf, pure, Except.pure]

theorem wf_exchRound (s : State) (node p : Nat) (hwf : Wf s) : Wf (s.exchRound node p) := by
  unfold State.exchRound
  dsimp only
  split
  · exact hwf
  · next x hx =>
    have hmoves : ∀ (l : List (Cmd × Nat)) (t : State), Wf t → Good Wf (l.foldlM (fun s (m : Cmd × Nat) => s.exchFrag node p x.cmds m.1 x.round m.2) t) := by
      intro l
      induction l with
      | nil => exact fun _ h => h
      | cons m l ih => exact fun t h => good_bind (good_exchFrag _ _ _ _ _ _ _ h) ih
    have hm := hmoves (x.cmds.filterMap (fun c =>
      let w := (s.polder node p).engine.entry c x.round (c.id.core % 8)
      if fieldN w 63 1 = 1 then some (c, w) else none)) s hwf
    split
    · exact wf_stopAll _ _ _ _ _ _ (wf_of_mem hwf (mem_exchOver ..))
    · exact wf_of_mem hwf (mem_enq ..)
    · next t h =>
      rw [h] at hm
      exact wf_ite (wf_of_mem hm ((mem_foldl _ (fun _ _ => mem_freeCmd ..) _ _).trans (mem_exchOver ..)))
        (wf_of_mem hm ((mem_enq ..).trans (mem_setEngine ..)))

theorem wf_exchTimeout (s : State) (node p : Nat) (hwf : Wf s) : Wf (s.exchTimeout node p) := by
  grind [State.exchTimeout, !wf_stopAll, mem_setEngine, Good, StopWf, Wf, SomeOf, PlanWf, OutWf]

theorem wf_cancelCopy (s : State) (node p name : Nat) (hwf : Wf s) : Wf (s.cancelCopy node p name) := by
  grind [State.cancelCopy, mem_setRepl, mem_legChange, mem_addDonor, !wf_creationTest, mem_delRepl, !wf_drainReplica, mem_forward, Good, StopWf, Wf, SomeOf, PlanWf, OutWf, !wf_foldl, !mem_foldl]

theorem wf_cancelCmd (s : State) (node p k : Nat) (hwf : Wf s) : Wf (s.cancelCmd node p k) := by
  grind [State.cancelCmd, mem_cancelAny, !wf_cancelCopy, Good, StopWf, Wf, SomeOf, PlanWf, OutWf]

theorem wf_arrFault (s : State) (node p : Nat) (c : Cmd) (t : TrapInfo) (hwf : Wf s) : Wf (s.arrFault node p c t) := by
  grind [State.arrFault, mem_noteFail, mem_setArray, !wf_stopCmd, mem_leaseGone, mem_askLease, mem_enq, Good, StopWf, Wf, SomeOf, PlanWf, OutWf]

theorem wf_raggedJoin (s : State) (node p : Nat) (hwf : Wf s) : Wf (s.raggedJoin node p) := by
  grind [State.raggedJoin, !wf_arrFault, setPolder_mem, mem_setRun, Good, StopWf, Wf, SomeOf, PlanWf, OutWf]

theorem wf_arrStart (s : State) (node p : Nat) (hwf : Wf s) : Wf (s.arrStart node p) := by
  grind [State.arrStart, mem_enqOnce, mem_askLease, !wf_arrFault, mem_setArray, mem_enq, !wf_raggedJoin, Good, StopWf, Wf, SomeOf, PlanWf, OutWf]

theorem good_drain (s : State) (c : Cmd) (r : Nat) (hwf : Wf s) : Good Wf (s.drain c r) := by
  simp only [State.drain, bind, Except.bind]
  grind [mem_setArray, !wf_spadWrite, !good_engPort, Good, StopWf, Wf, SomeOf, PlanWf, OutWf, pure, Except.pure]

theorem wf_countRow (s : State) (node p : Nat) (c : Cmd) (hwf : Wf s) : Wf (s.countRow node p c) := by
  grind [State.countRow, !wf_barPiece, Good, StopWf, Wf, SomeOf, PlanWf, OutWf]

theorem good_readB (s : State) (c : Cmd) (q j x4 : Nat) (hwf : Wf s) : Good (fun _ => True) (s.readB c q j x4) := by
  induction x4 generalizing j with
  | zero => trivial
  | succ n ih =>
    unfold State.readB
    exact good_bind (good_engPort _ _ _ _ hwf) fun _ _ => good_bind (ih _) fun _ _ => trivial

theorem good_readA (s : State) (c : Cmd) (r q : Nat) (hwf : Wf s) : Good (fun a => Wf a.1) (s.readA c r q) := by
  simp only [State.readA, bind, Except.bind]
  grind [!good_engReadG, !good_engRead, Good, StopWf, Wf, SomeOf, PlanWf, OutWf, pure, Except.pure]

theorem good_readRows (s : State) (c : Cmd) (q r x4 : Nat) (hwf : Wf s) : Good (fun a => Wf a.1) (s.readRows c q r x4) := by
  induction x4 generalizing s r with
  | zero => exact hwf
  | succ n ih =>
    unfold State.readRows
    exact good_bind (good_readA _ _ _ _ hwf) fun ⟨t, a⟩ ht => good_bind (good_keeping t _ _ ht (ih t _ ht)) fun _ h => h

theorem good_commitGroup (s : State) (c : Cmd) (q r n : Nat) (hwf : Wf s) : Good Wf (s.commitGroup c q r n) := by
  simp only [State.commitGroup, bind, Except.bind]
  grind [!good_readB, !good_readRows, mem_setArray, Good, StopWf, Wf, SomeOf, PlanWf, OutWf, pure, Except.pure]

theorem good_commitRow (s : State) (c : Cmd) (r q x4 : Nat) (hwf : Wf s) : Good Wf (s.commitRow c r q x4) := by
  induction x4 generalizing s q with
  | zero => exact hwf
  | succ n ih =>
    unfold State.commitRow
    exact good_bind (good_commitGroup _ _ _ _ _ hwf) fun t ht => ih t _ ht

theorem good_arrUnit (s : State) (node p : Nat) (c : Cmd) (hwf : Wf s) : Good (fun a => Wf a.1) (s.arrUnit node p c) := by
  simp only [State.arrUnit, bind, Except.bind]
  grind [raiseAcc, !good_drain, !wf_countRow, !good_commitRow, !good_commitGroup, Good, StopWf, Wf, SomeOf, PlanWf, OutWf, pure, Except.pure]

theorem wf_arrRow (s : State) (node p : Nat) (hwf : Wf s) : Wf (s.arrRow node p) := by
  grind [State.arrRow, !good_arrUnit, !wf_arrFault, mem_enq, mem_unitWaits, mem_pinsDone, mem_onTime, mem_setRun, Good, StopWf, Wf, SomeOf, PlanWf, OutWf]

theorem wf_arrComplete (s : State) (node p : Nat) (hwf : Wf s) : Wf (s.arrComplete node p) := by
  grind [State.arrComplete, !wf_barPiece, mem_setArray, mem_setRun, mem_freeCmd, mem_leaseGone, mem_enq, mem_askLease, Good, StopWf, Wf, SomeOf, PlanWf, OutWf]

theorem wf_saveBank (s : State) (node p la : Nat) (b : Bank) (hwf : Wf s) : Wf (s.saveBank node p la b) := by
  have hwords : ∀ (l : List (Nat × BitVec 32)) (a : Nat) (m : List Host.Cell), Memory.wf m = true →
      Memory.wf (l.foldl (fun m e => memWrite m (a + 4 * e.1) 4 e.2.toNat) m) = true := by
    intro l a
    induction l with
    | nil => exact fun _ h => h
    | cons e l ih => exact fun m h => ih _ (wf_memWrite m _ 4 _ h)
  exact wf_of_mem (s := { s with mem := _ }) (hwords b.words _ _ (wf_memZero _ _ _ hwf)) (Barriers.lostWordWrite_mem ..)

theorem wf_portWords (s : State) (node p la : Nat) (x4 : List Nat) (hwf : Wf s) : Wf (s.portWords node p la x4) := by
  induction x4 generalizing s la with
  | nil => exact hwf
  | cons w r ih => exact ih _ _ (wf_spadWrite _ _ _ _ _ _ _ _ _ hwf)

theorem wf_handOverSave (s : State) (node p : Nat) (away : Bool) (hwf : Wf s) : Wf (s.handOverSave node p away) := by
  grind [State.handOverSave, mem_askLease, mem_setArray, !wf_saveBank, !wf_portWords, mem_leaseTo, Good, StopWf, Wf, SomeOf, PlanWf, OutWf]

theorem wf_stopSaved (s : State) (node p : Nat) (c : Cmd) (cause : Cause) (fva : Nat) (hwf : Wf s) : Wf (s.stopSaved node p c cause fva) := by
  grind [State.stopSaved, !wf_stopCmd, Good, StopWf, Wf, SomeOf, PlanWf, OutWf]

theorem wf_handOverRestore (s : State) (node p : Nat) (hwf : Wf s) : Wf (s.handOverRestore node p) := by
  grind [State.handOverRestore, mem_askLease, mem_setArray, !wf_stopSaved, setCtx_mem, mem_enq, mem_askIdle, Good, StopWf, Wf, SomeOf, PlanWf, OutWf, !wf_foldl, !mem_foldl]

theorem wf_stopMember (s : State) (x1 : Coll) (m : CollMem) (cause : Cause) (fva : Word) (hwf : Wf s) : Wf (s.stopMember x1 m cause fva) := by
  grind [State.stopMember, !wf_stopCmd, mem_putColl, Good, StopWf, Wf, SomeOf, PlanWf, OutWf]

theorem wf_stopColl (s : State) (x1 : Coll) (hwf : Wf s) : Wf (s.stopColl x1) := by
  grind [State.stopColl, !wf_stopMember, Good, StopWf, Wf, SomeOf, PlanWf, OutWf, !wf_foldl, !mem_foldl]

theorem wf_sendChunk (s : State) (x1 : Coll) (m : CollMem) (hwf : Wf s) : Wf (s.sendChunk x1 m) := by
  grind [State.sendChunk, !good_engRead, mem_pinsDone, mem_onTime, mem_wakeEngine, mem_memberDone, mem_enq, mem_putColl, !some_unitFault, !wf_stopMember, mem_noteFail, !wf_waited, Good, StopWf, Wf, SomeOf, PlanWf, OutWf]

theorem good_stepWord (s : State) (k : Clone) (hwf : Wf s) : Good (fun a => Wf a.1) (s.stepWord k) := by
  grind [State.stepWord, !good_peerRead, Good, StopWf, Wf, SomeOf, PlanWf, OutWf]

theorem good_cloneTurn (s : State) (k : Clone) (hwf : Wf s) : Good (fun a => Wf a.1) (s.cloneTurn k) := by
  unfold State.cloneTurn
  dsimp only
  refine good_ite ?_ ?_
  · refine good_bind (good_engWrite _ _ _ _ _ _ hwf) fun t ht => ?_
    refine good_bind (good_keeping t _ _ ht (good_stepWord _ _ ht)) fun ⟨u, v⟩ hu => ?_
    exact good_bind (good_keeping u _ _ hu (good_engWrite _ _ _ _ _ _ hu)) fun _ h => h
  · split
    · exact hwf
    · next src dst n _ =>
      refine good_bind (good_peerRead _ _ _ _ hwf) fun ⟨t, v⟩ ht => ?_
      refine good_bind (good_keeping t _ _ ht (good_hbmCheck _ _ _ _ _ ht)) fun _ _ => ?_
      have hw := wf_hbmWrite (t.recall (dst + k.off) none) (dst + k.off) 64 v (wf_of_mem ht (mem_recall ..))
      dsimp only
      generalize (t.recall (dst + k.off) none).hbmWrite (dst + k.off) 64 v = u at hw ⊢
      refine good_ite (wf_barPiece _ _ _ _ _ _ hw) ?_
      refine good_bind (good_keeping _ _ _ hw (good_stepWord _ _ hw)) fun ⟨x, w⟩ hx => ?_
      exact good_bind (good_keeping x _ _ hx (good_engWrite _ _ _ _ _ _ hx)) fun y hy => wf_barPiece _ _ _ _ _ _ hy

theorem wf_cloneStep (s : State) (k : Clone) (hwf : Wf s) : Wf (s.cloneStep k) := by
  unfold State.cloneStep
  dsimp only
  have hturn : Good (fun (a : State × Option Clone) => Wf a.1) (if s.deadPeer k.cmd k.peer = true then
      (s.engWrite k.cmd 0 (k.cmd.a.toNat + 24) 4 3).map (fun s => (s.barFault k.cmd.id.node k.cmd.id.polder k.cmd.bar, none))
    else s.cloneTurn k) :=
    good_ite (good_map (good_engWrite _ _ _ _ _ _ hwf) fun _ h => wf_barFault _ _ _ _ h) (good_cloneTurn _ _ hwf)
  generalize (if s.deadPeer k.cmd k.peer = true then _ else s.cloneTurn k) = turn at hturn ⊢
  have hfault := some_unitFault s turn hwf hturn
  split
  · exact wf_of_mem (s := _) hturn ((mem_wakeEngine ..).trans ((mem_putClone ..).trans (mem_onTime ..)))
  · exact wf_of_mem (s := _) hturn ((mem_wakeEngine ..).trans ((mem_unpin ..).trans (mem_putClone ..)))
  · split
    · next t u h =>
      rw [h] at hfault
      exact wf_of_mem (wf_stopCmd _ _ _ _ _ _ _ _ (wf_of_mem (s := u) hfault ((mem_putClone ..).trans (mem_noteFail ..)))) (mem_wakeEngine ..)
    · exact wf_of_mem (wf_waited s turn _ hwf hturn) (mem_wakeEngine ..)

theorem wf_chunkDepart (s : State) (node d : Nat) (hwf : Wf s) : Wf (s.chunkDepart node d) := by
  grind [State.chunkDepart, setDie_mem, !wf_stopColl, !wf_sendChunk, !wf_cloneStep, Good, StopWf, Wf, SomeOf, PlanWf, OutWf]

theorem wf_collReduce (s : State) (e : Ev) (hwf : Wf s) : Wf (s.collReduce e) := by
  grind [State.collReduce, !wf_stopColl, mem_enq, mem_putColl, Good, StopWf, Wf, SomeOf, PlanWf, OutWf, !wf_foldl, !mem_foldl]

theorem wf_landChunk (s : State) (x1 : Coll) (m : CollMem) (ls ld : Layout) (ex : Exchange) (hwf : Wf s) : Wf (s.landChunk x1 m ls ld ex) := by
  simp only [State.landChunk]
  grind [mem_enq, !good_engWrite, mem_pinsDone, mem_onTime, !wf_barPiece, mem_putColl, mem_memberDone, !some_unitFault, !wf_stopMember, mem_noteFail, !wf_waited, Good, StopWf, Wf, SomeOf, PlanWf, OutWf, pure, Except.pure]

theorem wf_collLanding (s : State) (e : Ev) (hwf : Wf s) : Wf (s.collLanding e) := by
  grind [State.collLanding, !wf_stopColl, mem_enq, !wf_landChunk, Good, StopWf, Wf, SomeOf, PlanWf, OutWf]

theorem wf_commDisable (s : State) (node c : Nat) (hwf : Wf s) : Wf (s.commDisable node c) := by
  grind [State.commDisable, !wf_stopColl, Good, StopWf, Wf, SomeOf, PlanWf, OutWf, !wf_foldl, !mem_foldl]

theorem some_takeFlight (s : State) (f : Flight → Bool) (hwf : Wf s) : SomeOf (fun a => Wf a.2) (s.takeFlight f) := by
  unfold State.takeFlight
  cases Machine.takeFlight f s.flights with
  | none => trivial
  | some e => exact hwf

theorem wf_ringPut (s : State) (node p m : Nat) (b : Mbox) (src : CtxId) (v : Nat) (credit : Bool) (hwf : Wf s) : Wf (s.ringPut node p m b src v credit) := by
  grind [State.ringPut, !wf_spadWrite, mem_wantHandler, mem_setMbox, Good, StopWf, Wf, SomeOf, PlanWf, OutWf]

theorem wf_spill (s : State) (node p : Nat) (h : Word) (src : CtxId) (reason : Nat) (data : Vec) (hwf : Wf s) : Wf (s.spill node p h src reason data) := by
  grind [State.spill, setPolder_mem, !wf_ringPut, Good, StopWf, Wf, SomeOf, PlanWf, OutWf]

theorem wf_entryArrives (s : State) (node p : Nat) (h : Word) (src : CtxId) (bytes : Nat) (data : Vec) (mis : Bool) (bind credit : Nat) (hwf : Wf s) : Wf (s.entryArrives node p h src bytes data mis bind credit) := by
  grind [State.entryArrives, !wf_spill, !wf_ringPut, Good, StopWf, Wf, SomeOf, PlanWf, OutWf]

theorem wf_messageArrival (s : State) (node p : Nat) (hwf : Wf s) : Wf (s.messageArrival node p) := by
  grind [State.messageArrival, !some_takeFlight, !wf_entryArrives, Good, StopWf, Wf, SomeOf, PlanWf, OutWf]

theorem wf_creditRequest (s : State) (node p : Nat) (hwf : Wf s) : Wf (s.creditRequest node p) := by
  grind [State.creditRequest, !some_takeFlight, mem_enq, mem_setMbox, Good, StopWf, Wf, SomeOf, PlanWf, OutWf]

theorem wf_creditGrant (s : State) (node core : Nat) (hwf : Wf s) : Wf (s.creditGrant node core) := by
  grind [State.creditGrant, !some_takeFlight, setCore_mem, mem_creditsUnused, Good, StopWf, Wf, SomeOf, PlanWf, OutWf]

theorem wf_endSaved (s : State) (node id : Nat) (x3 : SavedItem) (killed : Bool) (hwf : Wf s) : Wf (s.endSaved node id x3 killed) := by
  grind [State.endSaved, mem_noteDying, !wf_terminate, setCtx_mem, mem_setLaunch, mem_enq, Good, StopWf, Wf, SomeOf, PlanWf, OutWf, !wf_foldl, !mem_foldl]

theorem wf_abortItems (s : State) (node q : Nat) (hwf : Wf s) : Wf (s.abortItems node q) := by
  grind [State.abortItems, !wf_terminateItem, !wf_endSaved, Good, StopWf, Wf, SomeOf, PlanWf, OutWf, !wf_foldl, !mem_foldl]

theorem wf_abortQueue (s : State) (node q : Nat) (hwf : Wf s) : Wf (s.abortQueue node q) := by
  grind [State.abortQueue, mem_queueErr, mem_setQueue, mem_enq, !wf_abortItems, Good, StopWf, Wf, SomeOf, PlanWf, OutWf]

theorem good_feRead (s : State) (q : Req) (va n : Nat) (hwf : Wf s) : Good (fun a => Wf a.1) (s.feRead q va n) := by
  grind [State.feRead, !good_engReadG, Good, StopWf, Wf, SomeOf, PlanWf, OutWf]

theorem good_readLaunch (s : State) (node q n : Nat) (hwf : Wf s) : Good (fun a => Wf a.1) (s.readLaunch node q n) := by
  simp only [State.readLaunch, bind, Except.bind]
  grind [!good_feRead, Good, StopWf, Wf, SomeOf, PlanWf, OutWf, pure, Except.pure]

theorem good_feStore (s : State) (q : Req) (va n v : Nat) (hwf : Wf s) : Good Wf (s.feStore q va n v) := by
  simp only [State.feStore, bind, Except.bind]
  grind [!good_apertureCheck, !good_spadCheck, !wf_spadWrite, raiseAcc, !good_storeBelow, Good, StopWf, Wf, SomeOf, PlanWf, OutWf, pure, Except.pure]

theorem good_feWrite (s : State) (q : Req) (va n v x5 : Nat) (hwf : Wf s) : Good Wf (s.feWrite q va n v x5) := by
  induction x5 generalizing s va n v with
  | zero => exact hwf
  | succ fuel ih =>
    unfold State.feWrite
    exact good_bind (good_feStore _ _ _ _ _ hwf) fun t ht => good_ite ht (ih t _ _ _ ht)

theorem good_fePut (s : State) (q : Req) (va n v : Nat) (hwf : Wf s) : Good Wf (s.fePut q va n v) := by
  grind [State.fePut, !good_feWrite, mem_noteFail, Good, StopWf, Wf, SomeOf, PlanWf, OutWf]

theorem good_finishLaunch (s : State) (node : Nat) (l : Launch) (status : Nat) (hwf : Wf s) : Good Wf (s.finishLaunch node l status) := by
  unfold State.finishLaunch
  refine good_ite hwf ?_
  refine good_bind (good_fePut _ _ _ _ _ hwf) fun t ht => good_bind (good_fePut _ _ _ _ _ ht) fun u hu => ?_
  refine good_bind (good_fePut _ _ _ _ _ hu) fun v hv => good_bind (good_fePut _ _ _ _ _ hv) fun w hw => ?_
  exact good_ite hw (good_fePut _ _ _ _ _ hw)

theorem good_reject (s : State) (node : Nat) (l : Launch) (hwf : Wf s) : Good Wf (s.reject node l) := by
  simp only [State.reject, bind, Except.bind]
  grind [!good_finishLaunch, mem_enq, mem_setQueue, Good, StopWf, Wf, SomeOf, PlanWf, OutWf, pure, Except.pure]

theorem wf_takeRecord (s : State) (node q : Nat) (hwf : Wf s) : Wf (s.takeRecord node q) := by
  grind [State.takeRecord, mem_enq, !good_readLaunch, mem_setQueue, mem_feServed, mem_noteFail, !good_reject, !good_fePut, setPkg_mem, Good, StopWf, Wf, SomeOf, PlanWf, OutWf]

theorem wf_recordTake (s : State) (node q : Nat) (hwf : Wf s) : Wf (s.recordTake node q) := by
  grind [State.recordTake, !wf_takeRecord, mem_enq, Good, StopWf, Wf, SomeOf, PlanWf, OutWf]

theorem good_semRead (s : State) (q : Req) (va x3 : Nat) (hwf : Wf s) : Good (fun a => Wf a.1) (s.semRead q va x3) := by
  induction x3 generalizing s va with
  | zero => exact hwf
  | succ n ih =>
    unfold State.semRead
    refine good_bind (good_feRead _ _ _ _ hwf) fun ⟨t, c⟩ ht => good_ite ht ?_
    exact good_bind (good_feRead _ _ _ _ ht) fun ⟨u, w⟩ hu => good_bind (ih u _ hu) fun _ h => h

theorem wf_semRound (s : State) (node q : Nat) (hwf : Wf s) : Wf (s.semRound node q) := by
  unfold State.semRound
  dsimp only
  have hagain : Wf (s.enq .semaphoreRound { node := node, n := q }) := wf_of_mem hwf (mem_enq ..)
  split
  · exact hwf
  · next id _ =>
    split
    · exact hwf
    · next l _ =>
      have hout : ∀ (t : State) (err : Nat), Wf t → Wf (match t.reject node l with
          | .ok t => (t.setQueue node q { t.queue node q with err := if err = 0 then (t.queue node q).err else err }).dropLaunch node id
          | .error _ => s.enq .semaphoreRound { node := node, n := q }) := by
        intro t err ht
        have hrej := good_reject t node l ht
        split
        · next h => rw [h] at hrej; exact wf_of_mem (s := _) hrej ((mem_dropLaunch ..).trans (mem_setQueue ..))
        · exact hagain
      have hsem := good_semRead s (s.launchReq node l) l.semlist.toNat l.nsem hwf
      refine wf_ite hwf ?_
      split
      · exact hagain
      · exact hout _ _ (wf_of_mem hwf (mem_noteFail ..))
      · next h => rw [h] at hsem; exact hout _ _ (wf_of_mem (s := _) hsem (mem_noteFail ..))
      · next h => rw [h] at hsem; exact hout _ _ hsem
      · next h => rw [h] at hsem; exact wf_of_mem (s := _) hsem (mem_enq ..)
      · next h => rw [h] at hsem; exact wf_of_mem (s := _) hsem ((mem_enq ..).trans ((mem_setQueue ..).trans (mem_setLaunch ..)))

theorem wf_dispatch (s : State) (node hint : Nat) (hwf : Wf s) : Wf (s.dispatch node hint) := by
  unfold State.dispatch
  dsimp only
  have hs : ∀ (c : Bool), Wf (if c = true then s.enq .preempt { node := node, core := hint } else s) :=
    fun c => wf_ite (wf_of_mem hwf (mem_enq ..)) hwf
  refine wf_ite hwf ?_
  split
  · exact hs _
  · split
    · exact wf_of_mem (hs _) (mem_dispatchGroup ..)
    · exact hs _
  · next its _ =>
    cases its.head? with
    | none => exact hs _
    | some x => exact wf_of_mem (hs _) (mem_enq ..)

theorem some_performAll (s : State) (node : Nat) (hwf : Wf s) : SomeOf Wf (s.performAll node) := by
  grind [State.performAll, !wf_poolClean, Good, StopWf, Wf, SomeOf, PlanWf, OutWf, !wf_foldl, !mem_foldl]

theorem wf_launchComplete (s : State) (node id : Nat) (hwf : Wf s) : Wf (s.launchComplete node id) := by
  grind [State.launchComplete, mem_enq, !some_performAll, !good_finishLaunch, mem_dropLaunch, Good, StopWf, Wf, SomeOf, PlanWf, OutWf]

theorem wf_abortStep (s : State) (node q : Nat) (hwf : Wf s) : Wf (s.abortStep node q) := by
  simp only [State.abortStep]
  grind [!wf_abortItems, mem_enq, !some_performAll, !good_finishLaunch, mem_dropLaunch, !good_readLaunch, mem_setQueue, Good, StopWf, Wf, SomeOf, PlanWf, OutWf, pure, Except.pure]

theorem wf_leaseAway (s : State) (id : CtxId) (hwf : Wf s) : Wf (s.leaseAway id) := by
  grind [State.leaseAway, !wf_handOverSave, mem_setArray, Good, StopWf, Wf, SomeOf, PlanWf, OutWf]

theorem good_saveItem (s : State) (node k : Nat) (hwf : Wf s) : Good Wf (s.saveItem node k) := by
  unfold State.saveItem
  dsimp only
  split
  · exact hwf
  · split
    · exact hwf
    · refine good_ite hwf ?_
      have haway : ∀ (l : List Nat) (t : State), Wf t → Wf (l.foldl (fun s j => (s.leaseAway ⟨node, k, j⟩).abandonWait ⟨node, k, j⟩) t) :=
        fun l t ht => wf_foldl _ (fun _ _ h => wf_of_mem (wf_leaseAway _ _ h) (mem_abandonWait ..)) l t ht
      refine good_bind (good_feWrite _ _ _ _ _ _ (haway _ _ hwf)) fun t ht => ?_
      have hmoved := wf_of_mem ht (mem_moveAway t node k (t.freeTag node k))
      exact wf_ite (wf_of_mem hmoved ((mem_switchSlot ..).trans ((mem_setLaunch ..).trans (setCore_mem ..))))
        (wf_of_mem hmoved ((mem_setLaunch ..).trans (setCore_mem ..)))

theorem wf_saveFault (s : State) (node k : Nat) (base : Word) (t : TrapInfo) (hwf : Wf s) : Wf (s.saveFault node k base t) := by
  grind [State.saveFault, !wf_terminateItem, mem_machineCheck, mem_noteFail, Good, StopWf, Wf, SomeOf, PlanWf, OutWf]

theorem good_saveGroup (s : State) (node : Nat) (x2 : List Nat) (hwf : Wf s) : Good Wf (s.saveGroup node x2) := by
  induction x2 generalizing s with
  | nil => exact hwf
  | cons k r ih =>
    have hitem := good_saveItem s node k hwf
    unfold State.saveGroup
    split
    · next h => rw [h] at hitem; exact ih _ hitem
    · exact ih _ (wf_saveFault _ _ _ _ _ hwf)
    · next h => rw [h] at hitem; exact ih _ (wf_saveFault _ _ _ _ _ hitem)
    · next h => rw [h] at hitem; exact hitem

theorem wf_preempt (s : State) (node hint : Nat) (hwf : Wf s) : Wf (s.preempt node hint) := by
  grind [State.preempt, !good_saveGroup, mem_enq, Good, StopWf, Wf, SomeOf, PlanWf, OutWf]

theorem good_readRecords (s : State) (q : Req) (base : Word) (x3 : List Nat) (hwf : Wf s) : Good (fun a => Wf a.1) (s.readRecords q base x3) := by
  induction x3 generalizing s with
  | nil => exact hwf
  | cons j r ih =>
    unfold State.readRecords
    exact good_bind (good_feRead _ _ _ _ hwf) fun ⟨t, v⟩ ht => good_bind (ih t ht) fun _ h => h

theorem good_restoreItem (s : State) (node id : Nat) (x3 : SavedItem) (hwf : Wf s) : Good Wf (s.restoreItem node id x3) := by
  unfold State.restoreItem
  split
  · exact hwf
  · refine good_bind (good_readRecords _ _ _ _ hwf) fun ⟨t, recs⟩ ht => ?_
    have hlocks : ∀ (l : List Nat) (u : State), Wf u → Wf (l.foldl (fun s j => s.lockReturn ⟨node, x3.core, j⟩) u) :=
      fun l u hu => wf_of_mem hu (mem_foldl _ (fun _ _ => mem_lockReturn ..) l u)
    have hboxes : ∀ (l : List (Nat × Mbox)) (u : State), Wf u → Wf (l.foldl (fun s e => s.wantHandler node (x3.core / 8) e.1 e.2) u) :=
      fun l u hu => wf_of_mem hu (mem_foldl _ (fun _ _ => mem_wantHandler ..) l u)
    have hback := wf_of_mem (s := t) ht (mem_moveBack t node x3.core x3.tag recs)
    refine wf_ite (wf_of_mem ?_ (mem_askLease ..)) ?_ <;>
      exact hboxes _ _ (hlocks x3.live _ (wf_of_mem hback ((mem_setArray ..).trans ((mem_setLaunch ..).trans (setCore_mem ..)))))

theorem good_restoreGroup (s : State) (node id : Nat) (base : Word) (x4 : List SavedItem) (hwf : Wf s) : Good Wf (s.restoreGroup node id base x4) := by
  induction x4 generalizing s with
  | nil => exact hwf
  | cons y r ih =>
    have hitem := good_restoreItem s node id y hwf
    have hfault : ∀ (t : State) (m : MCheck) (e : TrapInfo), Wf t → Wf (((t.noteFail e).machineCheck node y.core m).endSaved node id y true) :=
      fun t m e ht => wf_endSaved _ _ _ _ _ (wf_of_mem ht ((mem_machineCheck ..).trans (mem_noteFail ..)))
    unfold State.restoreGroup
    dsimp only
    split
    · next h => rw [h] at hitem; exact ih _ hitem
    · exact ih _ (hfault _ _ _ hwf)
    · next h => rw [h] at hitem; exact ih _ (hfault _ _ _ hitem)
    · next h => rw [h] at hitem; exact hitem

theorem wf_contextRestore (s : State) (node id : Nat) (wid : Word) (hwf : Wf s) : Wf (s.contextRestore node id wid) := by
  grind [State.contextRestore, !good_restoreGroup, mem_enq, Good, StopWf, Wf, SomeOf, PlanWf, OutWf]

theorem wf_windowEnd (s : State) (node name : Nat) (hwf : Wf s) : Wf (s.windowEnd node name) := by
  grind [State.windowEnd, !wf_drainReplica, mem_setLegend, Good, StopWf, Wf, SomeOf, PlanWf, OutWf]

theorem wf_rbarFlip (s : State) (node p name : Nat) (hwf : Wf s) : Wf (s.rbarFlip node p name) := by
  grind [State.rbarFlip, mem_enqOnce, !wf_weightCopy, mem_setRepl, !wf_creationTest, !wf_releaseHeld, mem_legChange, !wf_refreshed, Good, StopWf, Wf, SomeOf, PlanWf, OutWf]

theorem wf_replicaFree (s : State) (node p name : Nat) (hwf : Wf s) : Wf (s.replicaFree node p name) := by
  grind [State.replicaFree, mem_setRepl, mem_legChange, mem_addDonor, !wf_creationTest, mem_enq, Good, StopWf, Wf, SomeOf, PlanWf, OutWf]

theorem some_arriveToken (s : State) (t : Token) (hwf : Wf s) : SomeOf Wf (s.arriveToken t) := by
  grind [State.arriveToken, mem_accept, mem_countDup, mem_creditBack, mem_forward, !some_landToken, Good, StopWf, Wf, SomeOf, PlanWf, OutWf]

theorem some_tokenPick (s : State) (node p : Nat) (x3 : List Token) (x4 : List CtxId) (x5 : List Token) (hwf : Wf s) : SomeOf Wf (s.tokenPick node p x3 x4 x5) := by
  fun_induction State.tokenPick s node p x3 x4 x5 with
  | case1 => trivial
  | case2 _ _ _ _ _ ih => exact ih
  | case3 _ _ _ _ _ _ ih => exact ih
  | case4 t r seen before _ _ u h =>
    have := some_arriveToken { s with tokens := before ++ r } t hwf
    rw [h] at this
    exact this
  | case5 _ _ _ _ _ _ _ ih => exact ih

theorem wf_tokenArrival (s : State) (node p : Nat) (hwf : Wf s) : Wf (s.tokenArrival node p) := by
  grind [State.tokenArrival, !wf_releaseHeld, !some_tokenPick, mem_enq, Good, StopWf, Wf, SomeOf, PlanWf, OutWf, !wf_foldl, !mem_foldl]

theorem wf_pageTimeout (s : State) (node p name k : Nat) (hwf : Wf s) : Wf (s.pageTimeout node p name k) := by
  grind [State.pageTimeout, !wf_pageClose, Good, StopWf, Wf, SomeOf, PlanWf, OutWf]

theorem wf_resultLanding (s : State) (node p : Nat) (hwf : Wf s) : Wf (s.resultLanding node p) := by
  grind [State.resultLanding, setCore_mem, !wf_barFault, !wf_barPiece, !wf_spadWrite, Good, StopWf, Wf, SomeOf, PlanWf, OutWf]

theorem wf_joinCopy (s : State) (node p name : Nat) (done : Bool) (hwf : Wf s) : Wf (s.joinCopy node p name done) := by
  grind [State.joinCopy, mem_enq, mem_setRepl, !some_hwCopy, mem_enqOnce, Good, StopWf, Wf, SomeOf, PlanWf, OutWf]

theorem wf_spoil (s : State) (node code m pl : Nat) (hwf : Wf s) : Wf (s.spoil node code m pl).1 := by
  grind [State.spoil, setCore_mem, mem_setSlice, Good, StopWf, Wf, SomeOf, PlanWf, OutWf]

theorem wf_cacheLost (s : State) (node code m pl : Nat) (hwf : Wf s) : Wf (s.cacheLost node code m pl) := by
  grind [State.cacheLost, !wf_spoil, setPkg_mem, mem_poolDone, mem_markLost, !wf_memZero, Good, StopWf, Wf, SomeOf, PlanWf, OutWf]

theorem wf_uncorrectable (s : State) (e : Ev) (hwf : Wf s) : Wf (s.uncorrectable e) := by
  grind [State.uncorrectable, mem_machineCheck, !wf_cacheLost, Good, StopWf, Wf, SomeOf, PlanWf, OutWf]

theorem wf_retireBank (s : State) (node index : Nat) (hwf : Wf s) : Wf (s.retireBank node index).1 := by
  grind [State.retireBank, mem_retireUnit, !wf_terminateItem, mem_withdraw, Good, StopWf, Wf, SomeOf, PlanWf, OutWf, !wf_foldl, !mem_foldl]

theorem wf_retireColumn (s : State) (node index : Nat) (hwf : Wf s) : Wf (s.retireColumn node index).1 := by
  grind [State.retireColumn, mem_retireUnit, mem_setArray, mem_withdraw, mem_enq, Good, StopWf, Wf, SomeOf, PlanWf, OutWf]

theorem wf_retireFailed (s : State) (node code index : Nat) (full : Bool) (hwf : Wf s) : Wf (s.retireFailed node code index full).1 := by
  simp only [State.retireFailed]
  grind [mem_retireWay, !wf_retireBank, !wf_retireColumn, mem_retireSlice, mem_retireUnit, !wf_portLost, mem_setPoolUp, Good, StopWf, Wf, SomeOf, PlanWf, OutWf, pure, Except.pure]

theorem wf_fencePeer (s : State) (node dead : Nat) (hwf : Wf s) : Wf (s.fencePeer node dead) := by
  grind [State.fencePeer, setPkg_mem, mem_scrubLegend, mem_scrubNear, mem_scrubLocks, mem_scrubLines, !wf_stopColl, mem_logError, Good, StopWf, Wf, SomeOf, PlanWf, OutWf, !wf_foldl, !mem_foldl]

theorem wf_fenceOther (s : State) (node k : Nat) (hwf : Wf s) : Wf (s.fenceOther node k) := by
  grind [State.fenceOther, setPkg_mem, !wf_portLost, mem_setPoolUp, mem_logError, Good, StopWf, Wf, SomeOf, PlanWf, OutWf]

theorem wf_heartbeatMiss (s : State) (e : Ev) (hwf : Wf s) : Wf (s.heartbeatMiss e) := by
  grind [State.heartbeatMiss, setPkg_mem, !wf_fencePeer, !wf_fenceOther, Good, StopWf, Wf, SomeOf, PlanWf, OutWf]

theorem wf_watchdogSlot (s : State) (id : CtxId) (w : Word) (hwf : Wf s) : Wf (s.watchdogSlot id w) := by
  grind [State.watchdogSlot, mem_enq, !wf_terminate, mem_takeTrap, mem_abandonWait, Good, StopWf, Wf, SomeOf, PlanWf, OutWf]

theorem wf_renew (s : State) (node : Nat) (hwf : Wf s) : Wf (s.renew node) := by
  grind [State.renew, mem_purge, !wf_memKeep, Good, StopWf, Wf, SomeOf, PlanWf, OutWf]

theorem wf_resetRelease (s : State) (e : Ev) (hwf : Wf s) : Wf (s.resetRelease e) := by
  grind [State.resetRelease, !wf_renew, setPkg_mem, mem_stepDone, mem_startCore, Good, StopWf, Wf, SomeOf, PlanWf, OutWf]

theorem wf_bar2Access (s : State) (e : Ev) (hwf : Wf s) : Wf (s.bar2Access e) := by
  grind [State.bar2Access, mem_hostHold, !wf_hbmWrite, mem_recall, mem_merge, Good, StopWf, Wf, SomeOf, PlanWf, OutWf]

theorem wf_poolComplete (s : State) (node line : Nat) (hwf : Wf s) : Wf (s.poolComplete node line) := by
  grind [State.poolComplete, setPkg_mem, !wf_copyMasked, !wf_memZero, Good, StopWf, Wf, SomeOf, PlanWf, OutWf]

theorem wf_poolPerformed (s : State) (node pl : Nat) (hwf : Wf s) : Wf (s.poolPerformed node pl) := by
  grind [State.poolPerformed, !wf_poolComplete, mem_poolDone, Good, StopWf, Wf, SomeOf, PlanWf, OutWf]

end Sys2Proof.Canon
end

section
/-! Every instruction and every step keeps the canonical form of memory. -/

namespace Sys2Proof.Canon
set_option Elab.async false
open Sys2Proof Sys2Proof.Machine

theorem plan_runPlan (i : Instr) (s : State) (hwf : Wf s) : PlanWf (runPlan i s) := by
  grind [runPlan, mem_stall, Barriers.holdWords_mem, Good, StopWf, Wf, SomeOf, PlanWf, OutWf]

theorem plan_illegalWord (w : Nat) (s : State) (hwf : Wf s) : PlanWf (illegalWord w s) := by
  grind [illegalWord, !wf_decodeStop, Good, StopWf, Wf, SomeOf, PlanWf, OutWf]

theorem plan_decodedPlan (w pay : Nat) (s : State) (hwf : Wf s) : PlanWf (decodedPlan w pay s) := by
  grind [decodedPlan, !plan_illegalWord, !plan_runPlan, Good, StopWf, Wf, SomeOf, PlanWf, OutWf]

theorem plan_wordPlan (w : Nat) (s : State) (hwf : Wf s) : PlanWf (wordPlan w s) := by
  grind [wordPlan, !wf_decodeStop, !good_fetch, !plan_decodedPlan, Good, StopWf, Wf, SomeOf, PlanWf, OutWf]

theorem plan_slotPlan (s : State) (hwf : Wf s) : PlanWf (slotPlan s) := by
  grind [slotPlan, !plan_runPlan, !good_fetch, !wf_decodeStop, !plan_wordPlan, Good, StopWf, Wf, SomeOf, PlanWf, OutWf]

theorem plan_issuePlan (s : State) (hwf : Wf s) : PlanWf (issuePlan s) := by
  grind [issuePlan, !plan_slotPlan, Good, StopWf, Wf, SomeOf, PlanWf, OutWf]

theorem plan_idlePlan (s : State) (hwf : Wf s) : PlanWf (idlePlan s) := by
  grind [idlePlan, mem_nextFocus, !plan_issuePlan, Good, StopWf, Wf, SomeOf, PlanWf, OutWf]

theorem plan_plan (s : State) (hwf : Wf s) : PlanWf (s.plan) := by
  grind [State.plan, !plan_idlePlan, !plan_issuePlan, Good, StopWf, Wf, SomeOf, PlanWf, OutWf]

theorem out_execVadd (g : Bool) (d a b : Reg) (t : BitVec 3) (s : State) (hwf : Wf s) : OutWf (execVadd g d a b t s) := out_vbin _ _ _ _ _ _ _ _ _ _ hwf

theorem out_execVsub (g : Bool) (d a b : Reg) (t : BitVec 3) (s : State) (hwf : Wf s) : OutWf (execVsub g d a b t s) := out_vbin _ _ _ _ _ _ _ _ _ _ hwf

theorem out_execVmul (g : Bool) (d a b : Reg) (t : BitVec 3) (s : State) (hwf : Wf s) : OutWf (execVmul g d a b t s) := out_vbin _ _ _ _ _ _ _ _ _ _ hwf

theorem out_execVfma (g : Bool) (d a b : Reg) (t : BitVec 3) (s : State) (hwf : Wf s) : OutWf (execVfma g d a b t s) := out_vfma _ _ _ _ _ _ _ _ hwf

theorem out_execVfms (g : Bool) (d a b : Reg) (t : BitVec 3) (s : State) (hwf : Wf s) : OutWf (execVfms g d a b t s) := out_vfma _ _ _ _ _ _ _ _ hwf

theorem out_execVaddsc (g : Bool) (d a b : Reg) (t : BitVec 3) (s : State) (hwf : Wf s) : OutWf (execVaddsc g d a b t s) := out_vscal _ _ _ _ _ _ _ _ _ hwf

theorem out_execVsubsc (g : Bool) (d a b : Reg) (t : BitVec 3) (s : State) (hwf : Wf s) : OutWf (execVsubsc g d a b t s) := out_vscal _ _ _ _ _ _ _ _ _ hwf

theorem out_execVmulsc (g : Bool) (d a b : Reg) (t : BitVec 3) (s : State) (hwf : Wf s) : OutWf (execVmulsc g d a b t s) := out_vscal _ _ _ _ _ _ _ _ _ hwf

theorem out_execVfmasc (g : Bool) (d a b : Reg) (t : BitVec 3) (s : State) (hwf : Wf s) : OutWf (execVfmasc g d a b t s) := out_vfma _ _ _ _ _ _ _ _ hwf

theorem out_execVredsum (g : Bool) (d a : Reg) (t : BitVec 3) (s : State) (hwf : Wf s) : OutWf (execVredsum g d a t s) := out_vred _ _ _ _ _ _ _ _ hwf

theorem out_execVmin (g : Bool) (d a b : Reg) (t : BitVec 3) (s : State) (hwf : Wf s) : OutWf (execVmin g d a b t s) := out_vbin _ _ _ _ _ _ _ _ _ _ hwf

theorem out_execVmax (g : Bool) (d a b : Reg) (t : BitVec 3) (s : State) (hwf : Wf s) : OutWf (execVmax g d a b t s) := out_vbin _ _ _ _ _ _ _ _ _ _ hwf

theorem out_execVminsc (g : Bool) (d a b : Reg) (t : BitVec 3) (s : State) (hwf : Wf s) : OutWf (execVminsc g d a b t s) := out_vscal _ _ _ _ _ _ _ _ _ hwf

theorem out_execVmaxsc (g : Bool) (d a b : Reg) (t : BitVec 3) (s : State) (hwf : Wf s) : OutWf (execVmaxsc g d a b t s) := out_vscal _ _ _ _ _ _ _ _ _ hwf

theorem out_execVredmax (g : Bool) (d a : Reg) (t : BitVec 3) (s : State) (hwf : Wf s) : OutWf (execVredmax g d a t s) := out_vred _ _ _ _ _ _ _ _ hwf

theorem out_execVredmin (g : Bool) (d a : Reg) (t : BitVec 3) (s : State) (hwf : Wf s) : OutWf (execVredmin g d a t s) := out_vred _ _ _ _ _ _ _ _ hwf

theorem out_execVcmp (g : Bool) (d a b : Reg) (c : BitVec 6) (t : BitVec 3) (s : State) (hwf : Wf s) : OutWf (execVcmp g d a b c t s) := by
  simp only [execVcmp, bind, Except.bind]
  grind [!out_typed, !good_readVs, mem_vqPush, mem_setP, mem_setFlags, Good, StopWf, Wf, SomeOf, PlanWf, OutWf, pure, Except.pure]

theorem out_execVabs (g : Bool) (d a : Reg) (t : BitVec 3) (s : State) (hwf : Wf s) : OutWf (execVabs g d a t s) := out_vun _ _ _ _ _ _ _ _ _ hwf

theorem out_execVneg (g : Bool) (d a : Reg) (t : BitVec 3) (s : State) (hwf : Wf s) : OutWf (execVneg g d a t s) := out_vun _ _ _ _ _ _ _ _ _ hwf

theorem out_execVand (g : Bool) (d a b : Reg) (t : BitVec 3) (s : State) (hwf : Wf s) : OutWf (execVand g d a b t s) := out_vbin _ _ _ _ _ _ _ _ _ _ hwf

theorem out_execVor (g : Bool) (d a b : Reg) (t : BitVec 3) (s : State) (hwf : Wf s) : OutWf (execVor g d a b t s) := out_vbin _ _ _ _ _ _ _ _ _ _ hwf

theorem out_execVxor (g : Bool) (d a b : Reg) (t : BitVec 3) (s : State) (hwf : Wf s) : OutWf (execVxor g d a b t s) := out_vbin _ _ _ _ _ _ _ _ _ _ hwf

theorem out_execVsll (g : Bool) (d a b : Reg) (t : BitVec 3) (s : State) (hwf : Wf s) : OutWf (execVsll g d a b t s) := out_vbin _ _ _ _ _ _ _ _ _ _ hwf

theorem out_execVsrl (g : Bool) (d a b : Reg) (t : BitVec 3) (s : State) (hwf : Wf s) : OutWf (execVsrl g d a b t s) := out_vbin _ _ _ _ _ _ _ _ _ _ hwf

theorem out_execVsra (g : Bool) (d a b : Reg) (t : BitVec 3) (s : State) (hwf : Wf s) : OutWf (execVsra g d a b t s) := out_vbin _ _ _ _ _ _ _ _ _ _ hwf

theorem out_execVmulh (g : Bool) (d a b : Reg) (t : BitVec 3) (s : State) (hwf : Wf s) : OutWf (execVmulh g d a b t s) := out_vbin _ _ _ _ _ _ _ _ _ _ hwf

theorem out_execVaddsat (g : Bool) (d a b : Reg) (t : BitVec 3) (s : State) (hwf : Wf s) : OutWf (execVaddsat g d a b t s) := out_vbin _ _ _ _ _ _ _ _ _ _ hwf

theorem out_execVsubsat (g : Bool) (d a b : Reg) (t : BitVec 3) (s : State) (hwf : Wf s) : OutWf (execVsubsat g d a b t s) := out_vbin _ _ _ _ _ _ _ _ _ _ hwf

theorem out_execVmov (g : Bool) (d a : Reg) (t : BitVec 3) (s : State) (hwf : Wf s) : OutWf (execVmov g d a t s) := out_vun _ _ _ _ _ _ _ _ _ hwf

theorem out_execVsplat (g : Bool) (d a : Reg) (t : BitVec 3) (s : State) (hwf : Wf s) : OutWf (execVsplat g d a t s) := out_splat _ _ _ _ _ _ _ hwf

theorem out_execVins (g : Bool) (d a i : Reg) (t : BitVec 3) (s : State) (hwf : Wf s) : OutWf (execVins g d a i t s) := by
  simp only [execVins, bind, Except.bind]
  grind [!out_typed, !good_readV, !good_vecDone, Good, StopWf, Wf, SomeOf, PlanWf, OutWf, pure, Except.pure]

theorem out_execVext (g : Bool) (d a i : Reg) (t : BitVec 3) (s : State) (hwf : Wf s) : OutWf (execVext g d a i t s) := by
  simp only [execVext, bind, Except.bind]
  grind [!out_typed, !good_readV, mem_vqPush, setX_mem, Good, StopWf, Wf, SomeOf, PlanWf, OutWf, pure, Except.pure]

theorem out_execVperm (g : Bool) (d a b : Reg) (t : BitVec 3) (s : State) (hwf : Wf s) : OutWf (execVperm g d a b t s) := out_vmove _ _ _ _ _ _ _ _ _ _ hwf

theorem out_execVrot (g : Bool) (d a b : Reg) (t : BitVec 3) (s : State) (hwf : Wf s) : OutWf (execVrot g d a b t s) := out_vmove _ _ _ _ _ _ _ _ _ _ hwf

theorem out_execVsort (g : Bool) (d a h : Reg) (t : BitVec 3) (s : State) (hwf : Wf s) : OutWf (execVsort g d a h t s) := out_vmove _ _ _ _ _ _ _ _ _ _ hwf

theorem out_execVdupm (g : Bool) (d a h : Reg) (t : BitVec 3) (s : State) (hwf : Wf s) : OutWf (execVdupm g d a h t s) := by
  simp only [execVdupm, bind, Except.bind]
  grind [!out_typed, !good_readV, mem_vqPush, mem_setP, Good, StopWf, Wf, SomeOf, PlanWf, OutWf, pure, Except.pure]

theorem out_execVcompr (g : Bool) (d a m : Reg) (t : BitVec 3) (s : State) (hwf : Wf s) : OutWf (execVcompr g d a m t s) := out_vmove _ _ _ _ _ _ _ _ _ _ hwf

theorem out_execVexpnd (g : Bool) (d a m : Reg) (t : BitVec 3) (s : State) (hwf : Wf s) : OutWf (execVexpnd g d a m t s) := out_vmove _ _ _ _ _ _ _ _ _ _ hwf

theorem out_execVsplati (g : Bool) (d : Reg) (t : BitVec 3) (imm : BitVec 32) (s : State) (hwf : Wf s) : OutWf (execVsplati g d t imm s) := out_splat _ _ _ _ _ _ _ hwf

theorem out_execVdiv (g : Bool) (d a b : Reg) (t : BitVec 3) (s : State) (hwf : Wf s) : OutWf (execVdiv g d a b t s) := out_vbin _ _ _ _ _ _ _ _ _ _ hwf

theorem out_execVsqrt (g : Bool) (d a : Reg) (t : BitVec 3) (s : State) (hwf : Wf s) : OutWf (execVsqrt g d a t s) := out_vun _ _ _ _ _ _ _ _ _ hwf

theorem out_execVrsq (g : Bool) (d a : Reg) (t : BitVec 3) (s : State) (hwf : Wf s) : OutWf (execVrsq g d a t s) := out_vun _ _ _ _ _ _ _ _ _ hwf

theorem out_execVrcp (g : Bool) (d a : Reg) (t : BitVec 3) (s : State) (hwf : Wf s) : OutWf (execVrcp g d a t s) := out_vun _ _ _ _ _ _ _ _ _ hwf

theorem out_execVexp2 (g : Bool) (d a : Reg) (t : BitVec 3) (s : State) (hwf : Wf s) : OutWf (execVexp2 g d a t s) := out_vun _ _ _ _ _ _ _ _ _ hwf

theorem out_execVlog2 (g : Bool) (d a : Reg) (t : BitVec 3) (s : State) (hwf : Wf s) : OutWf (execVlog2 g d a t s) := out_vun _ _ _ _ _ _ _ _ _ hwf

theorem out_execVsel (g : Bool) (d a m : Reg) (t : BitVec 3) (s : State) (hwf : Wf s) : OutWf (execVsel g d a m t s) := by
  simp only [execVsel, bind, Except.bind]
  grind [!out_typed, !good_readVs, !good_vecDone, Good, StopWf, Wf, SomeOf, PlanWf, OutWf, pure, Except.pure]

theorem out_execPand (g : Bool) (d a b : Reg) (s : State) (hwf : Wf s) : OutWf (execPand g d a b s) := out_predOp _ _ _ _ _ _ hwf

theorem out_execPor (g : Bool) (d a b : Reg) (s : State) (hwf : Wf s) : OutWf (execPor g d a b s) := out_predOp _ _ _ _ _ _ hwf

theorem out_execPnot (g : Bool) (d a : Reg) (s : State) (hwf : Wf s) : OutWf (execPnot g d a s) := out_predOp _ _ _ _ _ _ hwf

theorem out_execPcnt (g : Bool) (d a : Reg) (s : State) (hwf : Wf s) : OutWf (execPcnt g d a s) := by
  grind [execPcnt, !out_governed, !out_finish, !good_viaQueue, mem_vqPush, setX_mem, Good, StopWf, Wf, SomeOf, PlanWf, OutWf]

theorem out_execFlt (g : Bool) (d a b : Reg) (s : State) (hwf : Wf s) : OutWf (execFlt g d a b s) := out_fpPlain _ _ _ _ _ hwf

theorem out_execFeq (g : Bool) (d a b : Reg) (s : State) (hwf : Wf s) : OutWf (execFeq g d a b s) := out_fpPlain _ _ _ _ _ hwf

theorem out_execFclass (g : Bool) (d a : Reg) (s : State) (hwf : Wf s) : OutWf (execFclass g d a s) := out_fpPlain _ _ _ _ _ hwf

theorem out_execVcvt (g : Bool) (d a q : Reg) (x4 y : BitVec 4) (s : State) (hwf : Wf s) : OutWf (execVcvt g d a q x4 y s) := by
  simp only [execVcvt, bind, Except.bind]
  grind [!out_governed, !out_finish, illegal, raise, !good_viaQueue, !good_readVs, !good_writeV, mem_setFlags, mem_drawn, mem_vqPush, Good, StopWf, Wf, SomeOf, PlanWf, OutWf, pure, Except.pure]

theorem out_execScal (g : Bool) (d a b : Reg) (s : State) (hwf : Wf s) : OutWf (execScal g d a b s) := by
  grind [execScal, !out_governed, !out_finish, raise, !out_fpInstr, Good, StopWf, Wf, SomeOf, PlanWf, OutWf]

theorem out_execFadd (g : Bool) (d a b : Reg) (s : State) (hwf : Wf s) : OutWf (execFadd g d a b s) := out_fpInstr _ _ _ _ _ hwf

theorem out_execFsub (g : Bool) (d a b : Reg) (s : State) (hwf : Wf s) : OutWf (execFsub g d a b s) := out_fpInstr _ _ _ _ _ hwf

theorem out_execFmul (g : Bool) (d a b : Reg) (s : State) (hwf : Wf s) : OutWf (execFmul g d a b s) := out_fpInstr _ _ _ _ _ hwf

theorem out_execFmac (g : Bool) (d a b : Reg) (s : State) (hwf : Wf s) : OutWf (execFmac g d a b s) := out_fpInstr _ _ _ _ _ hwf

theorem out_execFdiv (g : Bool) (d a b : Reg) (s : State) (hwf : Wf s) : OutWf (execFdiv g d a b s) := out_fpInstr _ _ _ _ _ hwf

theorem out_execFsqrt (g : Bool) (d a : Reg) (s : State) (hwf : Wf s) : OutWf (execFsqrt g d a s) := out_fpInstr _ _ _ _ _ hwf

theorem out_execFmin (g : Bool) (d a b : Reg) (s : State) (hwf : Wf s) : OutWf (execFmin g d a b s) := out_fpPlain _ _ _ _ _ hwf

theorem out_execFmax (g : Bool) (d a b : Reg) (s : State) (hwf : Wf s) : OutWf (execFmax g d a b s) := out_fpPlain _ _ _ _ _ hwf

theorem out_execFcvti (g : Bool) (d a : Reg) (s : State) (hwf : Wf s) : OutWf (execFcvti g d a s) := out_fpInstr _ _ _ _ _ hwf

theorem out_execFcvtf (g : Bool) (d a : Reg) (s : State) (hwf : Wf s) : OutWf (execFcvtf g d a s) := out_fpInstr _ _ _ _ _ hwf

theorem out_execAmofadd (g : Bool) (d a b : Reg) (p : BitVec 2) (n : Bool) (s : State) (hwf : Wf s) : OutWf (execAmofadd g d a b p n s) := by
  grind [execAmofadd, !out_governed, !out_atomic, mem_drawn, Good, StopWf, Wf, SomeOf, PlanWf, OutWf]

theorem out_execEmma (g : Bool) (a b : Reg) (h t : Bool) (s : State) (hwf : Wf s) : OutWf (execEmma g a b h t s) := out_governed _ _ _ _ hwf (out_arrIssue _ _ _ _ hwf (good_map (good_emmaCheck ..) fun _ _ => hwf))

theorem out_execEmmd (g : Bool) (a b : Reg) (h : Bool) (s : State) (hwf : Wf s) : OutWf (execEmmd g a b h s) := by
  simp only [execEmmd, bind, Except.bind]
  grind [!out_governed, !out_arrIssue, !good_emmdCheck, mem_drawn, !good_drainScales, Good, StopWf, Wf, SomeOf, PlanWf, OutWf, pure, Except.pure]

theorem out_execGoverned (i : Instr) (s : State) (hwf : Wf s) : OutWf (execGoverned i s) := by
  cases i with
  | vadd => exact out_execVadd _ _ _ _ _ _ hwf
  | vsub => exact out_execVsub _ _ _ _ _ _ hwf
  | vmul => exact out_execVmul _ _ _ _ _ _ hwf
  | vfma => exact out_execVfma _ _ _ _ _ _ hwf
  | vfms => exact out_execVfms _ _ _ _ _ _ hwf
  | vaddsc => exact out_execVaddsc _ _ _ _ _ _ hwf
  | vsubsc => exact out_execVsubsc _ _ _ _ _ _ hwf
  | vmulsc => exact out_execVmulsc _ _ _ _ _ _ hwf
  | vfmasc => exact out_execVfmasc _ _ _ _ _ _ hwf
  | vredsum => exact out_execVredsum _ _ _ _ _ hwf
  | vmin => exact out_execVmin _ _ _ _ _ _ hwf
  | vmax => exact out_execVmax _ _ _ _ _ _ hwf
  | vminsc => exact out_execVminsc _ _ _ _ _ _ hwf
  | vmaxsc => exact out_execVmaxsc _ _ _ _ _ _ hwf
  | vredmax => exact out_execVredmax _ _ _ _ _ hwf
  | vredmin => exact out_execVredmin _ _ _ _ _ hwf
  | vcmp => exact out_execVcmp _ _ _ _ _ _ _ hwf
  | vabs => exact out_execVabs _ _ _ _ _ hwf
  | vneg => exact out_execVneg _ _ _ _ _ hwf
  | vand => exact out_execVand _ _ _ _ _ _ hwf
  | vor => exact out_execVor _ _ _ _ _ _ hwf
  | vxor => exact out_execVxor _ _ _ _ _ _ hwf
  | vsll => exact out_execVsll _ _ _ _ _ _ hwf
  | vsrl => exact out_execVsrl _ _ _ _ _ _ hwf
  | vsra => exact out_execVsra _ _ _ _ _ _ hwf
  | vmulh => exact out_execVmulh _ _ _ _ _ _ hwf
  | vaddsat => exact out_execVaddsat _ _ _ _ _ _ hwf
  | vsubsat => exact out_execVsubsat _ _ _ _ _ _ hwf
  | vmov => exact out_execVmov _ _ _ _ _ hwf
  | vsplat => exact out_execVsplat _ _ _ _ _ hwf
  | vins => exact out_execVins _ _ _ _ _ _ hwf
  | vext => exact out_execVext _ _ _ _ _ _ hwf
  | vperm => exact out_execVperm _ _ _ _ _ _ hwf
  | vrot => exact out_execVrot _ _ _ _ _ _ hwf
  | vsort => exact out_execVsort _ _ _ _ _ _ hwf
  | vdupm => exact out_execVdupm _ _ _ _ _ _ hwf
  | vcompr => exact out_execVcompr _ _ _ _ _ _ hwf
  | vexpnd => exact out_execVexpnd _ _ _ _ _ _ hwf
  | vsplati => exact out_execVsplati _ _ _ _ _ hwf
  | vdiv => exact out_execVdiv _ _ _ _ _ _ hwf
  | vsqrt => exact out_execVsqrt _ _ _ _ _ hwf
  | vrsq => exact out_execVrsq _ _ _ _ _ hwf
  | vrcp => exact out_execVrcp _ _ _ _ _ hwf
  | vexp2 => exact out_execVexp2 _ _ _ _ _ hwf
  | vlog2 => exact out_execVlog2 _ _ _ _ _ hwf
  | vsel => exact out_execVsel _ _ _ _ _ _ hwf
  | pand => exact out_execPand _ _ _ _ _ hwf
  | por => exact out_execPor _ _ _ _ _ hwf
  | pnot => exact out_execPnot _ _ _ _ hwf
  | pcnt => exact out_execPcnt _ _ _ _ hwf
  | flt => exact out_execFlt _ _ _ _ _ hwf
  | feq => exact out_execFeq _ _ _ _ _ hwf
  | fclass => exact out_execFclass _ _ _ _ hwf
  | vcvt => exact out_execVcvt _ _ _ _ _ _ _ hwf
  | scal => exact out_execScal _ _ _ _ _ hwf
  | fadd => exact out_execFadd _ _ _ _ _ hwf
  | fsub => exact out_execFsub _ _ _ _ _ hwf
  | fmul => exact out_execFmul _ _ _ _ _ hwf
  | fmac => exact out_execFmac _ _ _ _ _ hwf
  | fdiv => exact out_execFdiv _ _ _ _ _ hwf
  | fsqrt => exact out_execFsqrt _ _ _ _ hwf
  | fmin => exact out_execFmin _ _ _ _ _ hwf
  | fmax => exact out_execFmax _ _ _ _ _ hwf
  | fcvti => exact out_execFcvti _ _ _ _ hwf
  | fcvtf => exact out_execFcvtf _ _ _ _ hwf
  | amofadd => exact out_execAmofadd _ _ _ _ _ _ _ hwf
  | emma => exact out_execEmma _ _ _ _ _ _ hwf
  | emmd => exact out_execEmmd _ _ _ _ _ hwf
  | _ => exact out_finish _ _ _ hwf trivial

theorem out_runPair (p : Pfx) (i : Instr) (s : State) (hwf : Wf s) : OutWf (runPair p i s) := by
  unfold runPair
  dsimp only
  split
  · exact wf_of_mem hwf (mem_stall ..)
  · exact out_execGoverned _ _ hwf

theorem out_pairDecoded (p : Pfx) (w pay : Nat) (s : State) (hwf : Wf s) : OutWf (pairDecoded p w pay s) := by
  grind [pairDecoded, !wf_decodeStop, !out_runPair, Good, StopWf, Wf, SomeOf, PlanWf, OutWf]

theorem out_pairFetch (p : Pfx) (s : State) (hwf : Wf s) : OutWf (pairFetch p s) := by
  grind [pairFetch, !good_governedWord, !wf_pairStop, !wf_decodeStop, !good_fetch, !out_pairDecoded, Good, StopWf, Wf, SomeOf, PlanWf, OutWf]

theorem out_execPfx (rnd : BitVec 3) (sat : Bool) (nanp : BitVec 2) (ovr : BitVec 4) (scale : Bool) (sreg : Reg) (s : State) (hwf : Wf s) : OutWf (execPfx rnd sat nanp ovr scale sreg s) := by
  unfold execPfx
  dsimp only
  split
  · exact wf_decodeStop _ _ _ _ hwf trivial
  · split
    · exact out_pairFetch _ _ hwf
    · exact out_runPair _ _ _ hwf
    · exact out_pairFetch _ _ hwf

theorem out_execAdd (d a b : Reg) (s : State) (hwf : Wf s) : OutWf (execAdd d a b s) := out_writeX _ _ _ _ hwf

theorem out_execSub (d a b : Reg) (s : State) (hwf : Wf s) : OutWf (execSub d a b s) := out_writeX _ _ _ _ hwf

theorem out_execAnd (d a b : Reg) (s : State) (hwf : Wf s) : OutWf (execAnd d a b s) := out_writeX _ _ _ _ hwf

theorem out_execOr (d a b : Reg) (s : State) (hwf : Wf s) : OutWf (execOr d a b s) := out_writeX _ _ _ _ hwf

theorem out_execXor (d a b : Reg) (s : State) (hwf : Wf s) : OutWf (execXor d a b s) := out_writeX _ _ _ _ hwf

theorem out_execSll (d a b : Reg) (s : State) (hwf : Wf s) : OutWf (execSll d a b s) := out_writeX _ _ _ _ hwf

theorem out_execSrl (d a b : Reg) (s : State) (hwf : Wf s) : OutWf (execSrl d a b s) := out_writeX _ _ _ _ hwf

theorem out_execSra (d a b : Reg) (s : State) (hwf : Wf s) : OutWf (execSra d a b s) := out_writeX _ _ _ _ hwf

theorem out_execSlt (d a b : Reg) (s : State) (hwf : Wf s) : OutWf (execSlt d a b s) := out_writeX _ _ _ _ hwf

theorem out_execSltu (d a b : Reg) (s : State) (hwf : Wf s) : OutWf (execSltu d a b s) := out_writeX _ _ _ _ hwf

theorem out_execMin (d a b : Reg) (s : State) (hwf : Wf s) : OutWf (execMin d a b s) := out_writeX _ _ _ _ hwf

theorem out_execMax (d a b : Reg) (s : State) (hwf : Wf s) : OutWf (execMax d a b s) := out_writeX _ _ _ _ hwf

theorem out_execMinu (d a b : Reg) (s : State) (hwf : Wf s) : OutWf (execMinu d a b s) := out_writeX _ _ _ _ hwf

theorem out_execMaxu (d a b : Reg) (s : State) (hwf : Wf s) : OutWf (execMaxu d a b s) := out_writeX _ _ _ _ hwf

theorem out_execAddw (d a b : Reg) (s : State) (hwf : Wf s) : OutWf (execAddw d a b s) := out_writeX _ _ _ _ hwf

theorem out_execSubw (d a b : Reg) (s : State) (hwf : Wf s) : OutWf (execSubw d a b s) := out_writeX _ _ _ _ hwf

theorem out_execAndn (d a b : Reg) (s : State) (hwf : Wf s) : OutWf (execAndn d a b s) := out_writeX _ _ _ _ hwf

theorem out_execOrn (d a b : Reg) (s : State) (hwf : Wf s) : OutWf (execOrn d a b s) := out_writeX _ _ _ _ hwf

theorem out_execRol (d a b : Reg) (s : State) (hwf : Wf s) : OutWf (execRol d a b s) := out_writeX _ _ _ _ hwf

theorem out_execRor (d a b : Reg) (s : State) (hwf : Wf s) : OutWf (execRor d a b s) := out_writeX _ _ _ _ hwf

theorem out_execAddi (d a : Reg) (i : BitVec 14) (s : State) (hwf : Wf s) : OutWf (execAddi d a i s) := out_writeX _ _ _ _ hwf

theorem out_execAndi (d a : Reg) (i : BitVec 14) (s : State) (hwf : Wf s) : OutWf (execAndi d a i s) := out_writeX _ _ _ _ hwf

theorem out_execOri (d a : Reg) (i : BitVec 14) (s : State) (hwf : Wf s) : OutWf (execOri d a i s) := out_writeX _ _ _ _ hwf

theorem out_execXori (d a : Reg) (i : BitVec 14) (s : State) (hwf : Wf s) : OutWf (execXori d a i s) := out_writeX _ _ _ _ hwf

theorem out_execSlli (d a : Reg) (n : BitVec 6) (s : State) (hwf : Wf s) : OutWf (execSlli d a n s) := out_writeX _ _ _ _ hwf

theorem out_execSrli (d a : Reg) (n : BitVec 6) (s : State) (hwf : Wf s) : OutWf (execSrli d a n s) := out_writeX _ _ _ _ hwf

theorem out_execSrai (d a : Reg) (n : BitVec 6) (s : State) (hwf : Wf s) : OutWf (execSrai d a n s) := out_writeX _ _ _ _ hwf

theorem out_execRori (d a : Reg) (n : BitVec 6) (s : State) (hwf : Wf s) : OutWf (execRori d a n s) := out_writeX _ _ _ _ hwf

theorem out_execSlti (d a : Reg) (i : BitVec 14) (s : State) (hwf : Wf s) : OutWf (execSlti d a i s) := out_writeX _ _ _ _ hwf

theorem out_execMul (d a b : Reg) (s : State) (hwf : Wf s) : OutWf (execMul d a b s) := out_writeX _ _ _ _ hwf

theorem out_execMulh (d a b : Reg) (s : State) (hwf : Wf s) : OutWf (execMulh d a b s) := out_writeX _ _ _ _ hwf

theorem out_execMulhu (d a b : Reg) (s : State) (hwf : Wf s) : OutWf (execMulhu d a b s) := out_writeX _ _ _ _ hwf

theorem out_execDiv (d a b : Reg) (s : State) (hwf : Wf s) : OutWf (execDiv d a b s) := out_writeX _ _ _ _ hwf

theorem out_execDivu (d a b : Reg) (s : State) (hwf : Wf s) : OutWf (execDivu d a b s) := out_writeX _ _ _ _ hwf

theorem out_execRem (d a b : Reg) (s : State) (hwf : Wf s) : OutWf (execRem d a b s) := out_writeX _ _ _ _ hwf

theorem out_execRemu (d a b : Reg) (s : State) (hwf : Wf s) : OutWf (execRemu d a b s) := out_writeX _ _ _ _ hwf

theorem out_execMulw (d a b : Reg) (s : State) (hwf : Wf s) : OutWf (execMulw d a b s) := out_writeX _ _ _ _ hwf

theorem out_execBfx (d a : Reg) (p w : BitVec 6) (s : State) (hwf : Wf s) : OutWf (execBfx d a p w s) := out_bitField _ _ _ _ _ _ _ hwf

theorem out_execBfxs (d a : Reg) (p w : BitVec 6) (s : State) (hwf : Wf s) : OutWf (execBfxs d a p w s) := out_bitField _ _ _ _ _ _ _ hwf

theorem out_execBfi (d a : Reg) (p w : BitVec 6) (s : State) (hwf : Wf s) : OutWf (execBfi d a p w s) := out_bitField _ _ _ _ _ _ _ hwf

theorem out_execClz (d a : Reg) (s : State) (hwf : Wf s) : OutWf (execClz d a s) := out_writeX _ _ _ _ hwf

theorem out_execCtz (d a : Reg) (s : State) (hwf : Wf s) : OutWf (execCtz d a s) := out_writeX _ _ _ _ hwf

theorem out_execPopc (d a : Reg) (s : State) (hwf : Wf s) : OutWf (execPopc d a s) := out_writeX _ _ _ _ hwf

theorem out_execLdhi (d : Reg) (i : BitVec 19) (s : State) (hwf : Wf s) : OutWf (execLdhi d i s) := out_writeX _ _ _ _ hwf

theorem out_execAddpc (d : Reg) (i : BitVec 19) (s : State) (hwf : Wf s) : OutWf (execAddpc d i s) := out_writeX _ _ _ _ hwf

theorem out_execLdi (d : Reg) (imm : BitVec 32) (s : State) (hwf : Wf s) : OutWf (execLdi d imm s) := out_writeX _ _ _ _ hwf

theorem out_execLdiu (d : Reg) (imm : BitVec 32) (s : State) (hwf : Wf s) : OutWf (execLdiu d imm s) := out_writeX _ _ _ _ hwf

theorem out_execAddil (d a : Reg) (imm : BitVec 32) (s : State) (hwf : Wf s) : OutWf (execAddil d a imm s) := out_writeX _ _ _ _ hwf

theorem out_execBeq (a b : Reg) (o : BitVec 14) (s : State) (hwf : Wf s) : OutWf (execBeq a b o s) := out_branch _ _ _ _ hwf

theorem out_execBne (a b : Reg) (o : BitVec 14) (s : State) (hwf : Wf s) : OutWf (execBne a b o s) := out_branch _ _ _ _ hwf

theorem out_execBlt (a b : Reg) (o : BitVec 14) (s : State) (hwf : Wf s) : OutWf (execBlt a b o s) := out_branch _ _ _ _ hwf

theorem out_execBge (a b : Reg) (o : BitVec 14) (s : State) (hwf : Wf s) : OutWf (execBge a b o s) := out_branch _ _ _ _ hwf

theorem out_execBltu (a b : Reg) (o : BitVec 14) (s : State) (hwf : Wf s) : OutWf (execBltu a b o s) := out_branch _ _ _ _ hwf

theorem out_execBgeu (a b : Reg) (o : BitVec 14) (s : State) (hwf : Wf s) : OutWf (execBgeu a b o s) := out_branch _ _ _ _ hwf

theorem out_execJal (d : Reg) (i : BitVec 19) (s : State) (hwf : Wf s) : OutWf (execJal d i s) := out_jumpLink _ _ _ _ _ hwf

theorem out_execJalr (d a : Reg) (i : BitVec 14) (s : State) (hwf : Wf s) : OutWf (execJalr d a i s) := by
  grind [execJalr, !out_finishJump, raise, setX_mem, Good, StopWf, Wf, SomeOf, PlanWf, OutWf]

theorem out_execJl (d : Reg) (imm : BitVec 32) (s : State) (hwf : Wf s) : OutWf (execJl d imm s) := out_jumpLink _ _ _ _ _ hwf

theorem out_execLoop (c : Reg) (l : BitVec 14) (s : State) (hwf : Wf s) : OutWf (execLoop c l s) := by
  grind [execLoop, !out_finishJump, raise, setC_mem, Good, StopWf, Wf, SomeOf, PlanWf, OutWf]

theorem out_execLb (d a : Reg) (o : BitVec 9) (t : BitVec 2) (s : State) (hwf : Wf s) : OutWf (execLb d a o t s) := out_loadInstr _ _ _ _ _ _ hwf

theorem out_execLbu (d a : Reg) (o : BitVec 9) (t : BitVec 2) (s : State) (hwf : Wf s) : OutWf (execLbu d a o t s) := out_loadInstr _ _ _ _ _ _ hwf

theorem out_execLh (d a : Reg) (o : BitVec 9) (t : BitVec 2) (s : State) (hwf : Wf s) : OutWf (execLh d a o t s) := out_loadInstr _ _ _ _ _ _ hwf

theorem out_execLhu (d a : Reg) (o : BitVec 9) (t : BitVec 2) (s : State) (hwf : Wf s) : OutWf (execLhu d a o t s) := out_loadInstr _ _ _ _ _ _ hwf

theorem out_execLw (d a : Reg) (o : BitVec 9) (t : BitVec 2) (s : State) (hwf : Wf s) : OutWf (execLw d a o t s) := out_loadInstr _ _ _ _ _ _ hwf

theorem out_execLwu (d a : Reg) (o : BitVec 9) (t : BitVec 2) (s : State) (hwf : Wf s) : OutWf (execLwu d a o t s) := out_loadInstr _ _ _ _ _ _ hwf

theorem out_execLd (d a : Reg) (o : BitVec 9) (t : BitVec 2) (s : State) (hwf : Wf s) : OutWf (execLd d a o t s) := out_loadInstr _ _ _ _ _ _ hwf

theorem out_execSb (v a : Reg) (o : BitVec 9) (t : BitVec 2) (s : State) (hwf : Wf s) : OutWf (execSb v a o t s) := out_storeInstr _ _ _ _ _ _ hwf

theorem out_execSh (v a : Reg) (o : BitVec 9) (t : BitVec 2) (s : State) (hwf : Wf s) : OutWf (execSh v a o t s) := out_storeInstr _ _ _ _ _ _ hwf

theorem out_execSw (v a : Reg) (o : BitVec 9) (t : BitVec 2) (s : State) (hwf : Wf s) : OutWf (execSw v a o t s) := out_storeInstr _ _ _ _ _ _ hwf

theorem out_execSd (v a : Reg) (o : BitVec 9) (t : BitVec 2) (s : State) (hwf : Wf s) : OutWf (execSd v a o t s) := out_storeInstr _ _ _ _ _ _ hwf

theorem out_execLdl (d a : Reg) (f : BitVec 3) (t : BitVec 2) (imm : BitVec 32) (s : State) (hwf : Wf s) : OutWf (execLdl d a f t imm s) := out_loadInstr _ _ _ _ _ _ hwf

theorem out_execStl (v a : Reg) (f : BitVec 3) (t : BitVec 2) (imm : BitVec 32) (s : State) (hwf : Wf s) : OutWf (execStl v a f t imm s) := out_storeInstr _ _ _ _ _ _ hwf

theorem out_execLdv (d a : Reg) (o : BitVec 9) (t : BitVec 2) (s : State) (hwf : Wf s) : OutWf (execLdv d a o t s) := out_vecLoadInstr _ _ _ _ _ _ hwf

theorem out_execLdvx (d a i : Reg) (t : BitVec 2) (s : State) (hwf : Wf s) : OutWf (execLdvx d a i t s) := out_vecLoadInstr _ _ _ _ _ _ hwf

theorem out_execLdvb (d a : Reg) (o : BitVec 9) (t : BitVec 2) (s : State) (hwf : Wf s) : OutWf (execLdvb d a o t s) := out_vecLoadInstr _ _ _ _ _ _ hwf

theorem out_execStv (v a : Reg) (o : BitVec 9) (t : BitVec 2) (s : State) (hwf : Wf s) : OutWf (execStv v a o t s) := out_vecStoreInstr _ _ _ _ _ hwf

theorem out_execStvx (v a i : Reg) (t : BitVec 2) (s : State) (hwf : Wf s) : OutWf (execStvx v a i t s) := out_vecStoreInstr _ _ _ _ _ hwf

theorem out_execAmoadd (d a b : Reg) (w : Bool) (p : BitVec 2) (n : Bool) (s : State) (hwf : Wf s) : OutWf (execAmoadd d a b w p n s) := out_amoInt _ _ _ _ _ _ _ _ _ hwf

theorem out_execAmoand (d a b : Reg) (w : Bool) (p : BitVec 2) (n : Bool) (s : State) (hwf : Wf s) : OutWf (execAmoand d a b w p n s) := out_amoInt _ _ _ _ _ _ _ _ _ hwf

theorem out_execAmoor (d a b : Reg) (w : Bool) (p : BitVec 2) (n : Bool) (s : State) (hwf : Wf s) : OutWf (execAmoor d a b w p n s) := out_amoInt _ _ _ _ _ _ _ _ _ hwf

theorem out_execAmoxor (d a b : Reg) (w : Bool) (p : BitVec 2) (n : Bool) (s : State) (hwf : Wf s) : OutWf (execAmoxor d a b w p n s) := out_amoInt _ _ _ _ _ _ _ _ _ hwf

theorem out_execAmomin (d a b : Reg) (w : Bool) (p : BitVec 2) (n : Bool) (s : State) (hwf : Wf s) : OutWf (execAmomin d a b w p n s) := out_amoInt _ _ _ _ _ _ _ _ _ hwf

theorem out_execAmomax (d a b : Reg) (w : Bool) (p : BitVec 2) (n : Bool) (s : State) (hwf : Wf s) : OutWf (execAmomax d a b w p n s) := out_amoInt _ _ _ _ _ _ _ _ _ hwf

theorem out_execAmominu (d a b : Reg) (w : Bool) (p : BitVec 2) (n : Bool) (s : State) (hwf : Wf s) : OutWf (execAmominu d a b w p n s) := out_amoInt _ _ _ _ _ _ _ _ _ hwf

theorem out_execAmomaxu (d a b : Reg) (w : Bool) (p : BitVec 2) (n : Bool) (s : State) (hwf : Wf s) : OutWf (execAmomaxu d a b w p n s) := out_amoInt _ _ _ _ _ _ _ _ _ hwf

theorem out_execAmoswap (d a b : Reg) (w : Bool) (p : BitVec 2) (n : Bool) (s : State) (hwf : Wf s) : OutWf (execAmoswap d a b w p n s) := out_amoInt _ _ _ _ _ _ _ _ _ hwf

theorem out_execAmocas (d a b : Reg) (w : Bool) (p : BitVec 2) (s : State) (hwf : Wf s) : OutWf (execAmocas d a b w p s) := out_amoInt _ _ _ _ _ _ _ _ _ hwf

theorem out_execAmofmin (d a b : Reg) (p : BitVec 2) (n : Bool) (s : State) (hwf : Wf s) : OutWf (execAmofmin d a b p n s) := by
  grind [execAmofmin, !out_atomic, Good, StopWf, Wf, SomeOf, PlanWf, OutWf]

theorem out_execAmofmax (d a b : Reg) (p : BitVec 2) (n : Bool) (s : State) (hwf : Wf s) : OutWf (execAmofmax d a b p n s) := by
  grind [execAmofmax, !out_atomic, Good, StopWf, Wf, SomeOf, PlanWf, OutWf]

theorem out_execNmadd (a b : Reg) (v : Bool) (s : State) (hwf : Wf s) : OutWf (execNmadd a b v s) := out_nearMem _ _ _ _ _ _ hwf

theorem out_execNmfadd (a b : Reg) (v : Bool) (s : State) (hwf : Wf s) : OutWf (execNmfadd a b v s) := out_nearMem _ _ _ _ _ _ hwf

theorem out_execNmmax (a b : Reg) (v : Bool) (s : State) (hwf : Wf s) : OutWf (execNmmax a b v s) := out_nearMem _ _ _ _ _ _ hwf

theorem out_execNmmin (a b : Reg) (v : Bool) (s : State) (hwf : Wf s) : OutWf (execNmmin a b v s) := out_nearMem _ _ _ _ _ _ hwf

theorem out_execNmor (a b : Reg) (v : Bool) (s : State) (hwf : Wf s) : OutWf (execNmor a b v s) := out_nearMem _ _ _ _ _ _ hwf

theorem out_execLkacq (d a t : Reg) (c : BitVec 3) (s : State) (hwf : Wf s) : OutWf (execLkacq d a t c s) := out_finish _ _ _ hwf (good_ite hwf (good_lockAcquire _ _ _ _ _ _ hwf))

theorem out_execLktry (d a : Reg) (c : BitVec 3) (s : State) (hwf : Wf s) : OutWf (execLktry d a c s) := out_finish _ _ _ hwf (good_ite hwf (good_lockAcquire _ _ _ _ _ _ hwf))

theorem out_execLkrel (d a : Reg) (c : BitVec 3) (s : State) (hwf : Wf s) : OutWf (execLkrel d a c s) := by
  simp only [execLkrel, bind, Except.bind]
  grind [!out_finish, !good_lockPlace, mem_lockResult, setC_mem, !good_fenceStores, mem_lockRelease, Good, StopWf, Wf, SomeOf, PlanWf, OutWf, pure, Except.pure]

theorem out_execLkstat (d a : Reg) (s : State) (hwf : Wf s) : OutWf (execLkstat d a s) := by
  simp only [execLkstat, bind, Except.bind]
  grind [!out_finish, !good_lockPlace, setX_mem, Good, StopWf, Wf, SomeOf, PlanWf, OutWf, pure, Except.pure]

theorem out_execFence (c : BitVec 3) (l : BitVec 5) (k : BitVec 2) (s : State) (hwf : Wf s) : OutWf (execFence c l k s) := by
  simp only [execFence, bind, Except.bind]
  grind [!out_finish, mem_acquire, !good_fenceStores, !good_fenceNm, Good, StopWf, Wf, SomeOf, PlanWf, OutWf, pure, Except.pure]

theorem out_execXprobe (d a : Reg) (s : State) (hwf : Wf s) : OutWf (execXprobe d a s) := out_finish _ _ _ hwf (by grind [!out_finish, setX_mem, !wf_fillWalk, State.nodeTrap, Good, StopWf, Wf, SomeOf, PlanWf, OutWf])

theorem out_execXinv (c a : Reg) (s : State) (hwf : Wf s) : OutWf (execXinv c a s) := by
  simp only [execXinv, bind, Except.bind]
  grind [!out_xSystem, !good_fenceFull, !good_xinvPage, Good, StopWf, Wf, SomeOf, PlanWf, OutWf, pure, Except.pure]

theorem out_execXinvas (c a : Reg) (s : State) (hwf : Wf s) : OutWf (execXinvas c a s) := by
  simp only [execXinvas, bind, Except.bind]
  grind [!out_xSystem, raise, !good_fenceFull, mem_invalidate, Good, StopWf, Wf, SomeOf, PlanWf, OutWf, pure, Except.pure]

theorem out_execSynci (c a n : Reg) (s : State) (hwf : Wf s) : OutWf (execSynci c a n s) := out_finish _ _ _ hwf (by grind [!out_finish, Good, StopWf, Wf, SomeOf, PlanWf, OutWf])

theorem out_execSurvey (d a m : Reg) (s : State) (hwf : Wf s) : OutWf (execSurvey d a m s) := by
  grind [execSurvey, !out_sysOnly, !out_finish, setX_mem, mem_surveyClear, !out_writeX, Good, StopWf, Wf, SomeOf, PlanWf, OutWf]

theorem out_execXmig (d a f : Reg) (s : State) (hwf : Wf s) : OutWf (execXmig d a f s) := by
  grind [execXmig, !out_xSystem, !good_migNext, !good_migStart, Good, StopWf, Wf, SomeOf, PlanWf, OutWf]

theorem out_execTrap (a : Reg) (s : State) (hwf : Wf s) : OutWf (execTrap a s) := out_finish _ _ _ hwf (by grind [!out_finish, raise, Good, StopWf, Wf, SomeOf, PlanWf, OutWf])

theorem out_execEret (s : State) (hwf : Wf s) : OutWf (execEret s) := by
  grind [execEret, !out_sysOnly, !out_finishJump, mem_lockReturn, setCC_mem, raise, Good, StopWf, Wf, SomeOf, PlanWf, OutWf]

theorem out_execWfe (d t : Reg) (s : State) (hwf : Wf s) : OutWf (execWfe d t s) := by
  grind [execWfe, !out_sysOnly, !out_finish, raise, setX_mem, mem_acquire, setCC_mem, Good, StopWf, Wf, SomeOf, PlanWf, OutWf]

theorem out_execHalt (s : State) (hwf : Wf s) : OutWf (execHalt s) := by
  grind [execHalt, !out_sysOnly, mem_machineCheck, mem_switchSlot, Good, StopWf, Wf, SomeOf, PlanWf, OutWf]

theorem out_execBrk (s : State) (hwf : Wf s) : OutWf (execBrk s) := out_finish _ _ _ hwf (by grind [!out_finish, raise, Good, StopWf, Wf, SomeOf, PlanWf, OutWf])

theorem out_execResume (d m : Reg) (s : State) (hwf : Wf s) : OutWf (execResume d m s) := by
  grind [execResume, !out_sysOnly, !out_finish, raise, setX_mem, setCC_mem, setCtx_mem, mem_lockReturn, !wf_terminateItem, !wf_terminate, Good, StopWf, Wf, SomeOf, PlanWf, OutWf]

theorem out_execCsrrw (d a : Reg) (c : BitVec 12) (s : State) (hwf : Wf s) : OutWf (execCsrrw d a c s) := out_csrAccess _ _ _ _ _ _ _ hwf

theorem out_execCsrrs (d a : Reg) (c : BitVec 12) (s : State) (hwf : Wf s) : OutWf (execCsrrs d a c s) := out_csrAccess _ _ _ _ _ _ _ hwf

theorem out_execCsrrc (d a : Reg) (c : BitVec 12) (s : State) (hwf : Wf s) : OutWf (execCsrrc d a c s) := out_csrAccess _ _ _ _ _ _ _ hwf

theorem out_execSbind (p a : Reg) (s : State) (hwf : Wf s) : OutWf (execSbind p a s) := by
  simp only [execSbind, bind, Except.bind]
  grind [!out_finish, !good_readDesc, raise, setC_mem, mem_enq, Good, StopWf, Wf, SomeOf, PlanWf, OutWf, pure, Except.pure]

theorem out_execSunbind (p : Reg) (s : State) (hwf : Wf s) : OutWf (execSunbind p s) := by
  refine out_finish _ _ _ hwf (good_ite hwf ?_)
  split
  · trivial
  · exact good_ite hwf (wf_of_mem hwf (setC_mem ..))

theorem out_execSstat (d p : Reg) (s : State) (hwf : Wf s) : OutWf (execSstat d p s) := by
  refine out_finish _ _ _ hwf (good_ite hwf ?_)
  split
  · trivial
  · exact wf_of_mem hwf (setX_mem ..)

theorem out_execGw (d a : Reg) (s : State) (hwf : Wf s) : OutWf (execGw d a s) := out_finish _ _ _ hwf hwf

theorem out_execGr (d a : Reg) (s : State) (hwf : Wf s) : OutWf (execGr d a s) := out_writeX _ _ _ _ hwf

theorem out_execGclr (s : State) (hwf : Wf s) : OutWf (execGclr s) := out_finish _ _ _ hwf hwf

theorem out_execEcpy (a b : Reg) (h : Bool) (s : State) (hwf : Wf s) : OutWf (execEcpy a b h s) := by
  grind [execEcpy, !out_engIssue, !good_ecpyCheck, Good, StopWf, Wf, SomeOf, PlanWf, OutWf]

theorem out_execEgth (a b : Reg) (h : Bool) (s : State) (hwf : Wf s) : OutWf (execEgth a b h s) := by
  grind [execEgth, !out_engIssue, !good_rowsCheck, Good, StopWf, Wf, SomeOf, PlanWf, OutWf]

theorem out_execEsct (a b : Reg) (h : Bool) (s : State) (hwf : Wf s) : OutWf (execEsct a b h s) := by
  grind [execEsct, !out_engIssue, !good_rowsCheck, Good, StopWf, Wf, SomeOf, PlanWf, OutWf]

theorem out_execExch (a b : Reg) (h : Bool) (s : State) (hwf : Wf s) : OutWf (execExch a b h s) := by
  grind [execExch, !out_engIssue, !good_exchCheck, Good, StopWf, Wf, SomeOf, PlanWf, OutWf]

theorem out_execEmmz (a : Reg) (h : Bool) (s : State) (hwf : Wf s) : OutWf (execEmmz a h s) := by
  simp only [execEmmz, bind, Except.bind]
  grind [!out_arrIssue, !good_bar6Zero, !good_engCheck, !good_bar6Check, Good, StopWf, Wf, SomeOf, PlanWf, OutWf, pure, Except.pure]

theorem out_execEcoll (a b : Reg) (s : State) (hwf : Wf s) : OutWf (execEcoll a b s) := by
  simp only [execEcoll, bind, Except.bind]
  grind [!out_finish, !good_readRecord, !good_collCheck, !good_collIssue, Good, StopWf, Wf, SomeOf, PlanWf, OutWf, pure, Except.pure]

theorem out_execEtopk (a b : Reg) (h : Bool) (s : State) (hwf : Wf s) : OutWf (execEtopk a b h s) := by
  grind [execEtopk, !out_engIssue, !good_etopkCheck, Good, StopWf, Wf, SomeOf, PlanWf, OutWf]

theorem out_execEclone (a : Reg) (s : State) (hwf : Wf s) : OutWf (execEclone a s) := by
  refine out_finish _ _ _ hwf (good_ite hwf (good_ite trivial ?_))
  refine good_bind (good_readWords _ _ _ hwf) fun ⟨t, l⟩ ht => ?_
  refine good_bind (good_engCheck ..) fun _ _ => good_bind (good_engCheck ..) fun _ _ => ?_
  refine good_bind (good_readRegions _ _ _ _ _ ht) fun ⟨u, es⟩ hu => good_bind (good_barCheck ..) fun _ _ => ?_
  exact wf_of_mem (s := u) hu (mem_wakeEngine ..)

theorem out_execEnmsc (a b : Reg) (h : Bool) (s : State) (hwf : Wf s) : OutWf (execEnmsc a b h s) := by
  grind [execEnmsc, !out_engIssue, !good_enmscCheck, Good, StopWf, Wf, SomeOf, PlanWf, OutWf]

theorem out_execEptab (a b : Reg) (h : Bool) (s : State) (hwf : Wf s) : OutWf (execEptab a b h s) := by
  grind [execEptab, !out_engIssue, !good_eptabCheck, Good, StopWf, Wf, SomeOf, PlanWf, OutWf]

theorem out_execLease (d a : Reg) (s : State) (hwf : Wf s) : OutWf (execLease d a s) := out_finish _ _ _ hwf (by grind [!out_finish, raise, mem_askIdle, setX_mem, setC_mem, mem_leaseGrant, mem_setPol, mem_askLease, Good, StopWf, Wf, SomeOf, PlanWf, OutWf])

theorem out_execUnlease (d : Reg) (s : State) (hwf : Wf s) : OutWf (execUnlease d s) := out_finish _ _ _ hwf (by grind [!out_finish, setX_mem, !wf_endLease, Good, StopWf, Wf, SomeOf, PlanWf, OutWf])

theorem out_execLstat (d : Reg) (s : State) (hwf : Wf s) : OutWf (execLstat d s) := by
  grind [execLstat, !out_writeX, Good, StopWf, Wf, SomeOf, PlanWf, OutWf]

theorem out_execBbinit (a : Reg) (s : State) (hwf : Wf s) : OutWf (execBbinit a s) := by
  simp only [execBbinit, bind, Except.bind]
  grind [!out_finish, !good_barAddr, Barriers.portSeen_mem, Barriers.lostWordWrite_mem, !wf_memZero, Good, StopWf, Wf, SomeOf, PlanWf, OutWf, pure, Except.pure]

theorem out_execBbexp (a n : Reg) (s : State) (hwf : Wf s) : OutWf (execBbexp a n s) := by
  simp only [execBbexp, bind, Except.bind]
  grind [!out_finish, !good_barAddr, !wf_barFault, !wf_barAdd, Good, StopWf, Wf, SomeOf, PlanWf, OutWf, pure, Except.pure]

theorem out_execBbwait (a : Reg) (p : Bool) (s : State) (hwf : Wf s) : OutWf (execBbwait a p s) := by
  simp only [execBbwait, bind, Except.bind]
  grind [!out_finish, !good_barAddr, raiseAcc, raise, mem_acquire, setC_mem, Good, StopWf, Wf, SomeOf, PlanWf, OutWf, pure, Except.pure]

theorem out_execBbtest (d a : Reg) (s : State) (hwf : Wf s) : OutWf (execBbtest d a s) := by
  simp only [execBbtest, bind, Except.bind]
  grind [!out_finish, !good_barAddr, raiseAcc, setX_mem, Good, StopWf, Wf, SomeOf, PlanWf, OutWf, pure, Except.pure]

theorem out_execPhnew (d m : Reg) (s : State) (hwf : Wf s) : OutWf (execPhnew d m s) := by
  grind [execPhnew, !out_phaserInstr, mem_setPhaser, setCC_mem, Good, StopWf, Wf, SomeOf, PlanWf, OutWf]

theorem out_execPhreg (d h m : Reg) (s : State) (hwf : Wf s) : OutWf (execPhreg d h m s) := by
  grind [execPhreg, !out_phaserInstr, mem_setPhaser, Good, StopWf, Wf, SomeOf, PlanWf, OutWf]

theorem out_execPhdrop (d h : Reg) (s : State) (hwf : Wf s) : OutWf (execPhdrop d h s) := by
  grind [execPhdrop, !out_memberInstr, mem_phDrop, Good, StopWf, Wf, SomeOf, PlanWf, OutWf]

theorem out_execPhsig (d h : Reg) (s : State) (hwf : Wf s) : OutWf (execPhsig d h s) := by
  grind [execPhsig, !out_memberInstr, mem_setPhaser, Good, StopWf, Wf, SomeOf, PlanWf, OutWf]

theorem out_execPhwait (d h : Reg) (s : State) (hwf : Wf s) : OutWf (execPhwait d h s) := by
  grind [execPhwait, !out_memberInstr, mem_acquire, mem_setPhaser, Good, StopWf, Wf, SomeOf, PlanWf, OutWf]

theorem out_execPhsw (d h : Reg) (s : State) (hwf : Wf s) : OutWf (execPhsw d h s) := by
  grind [execPhsw, !out_memberInstr, mem_setPhaser, mem_acquire, Good, StopWf, Wf, SomeOf, PlanWf, OutWf]

theorem out_execPhq (d h : Reg) (s : State) (hwf : Wf s) : OutWf (execPhq d h s) := by
  grind [execPhq, !out_phaserInstr, Good, StopWf, Wf, SomeOf, PlanWf, OutWf]

theorem out_execStart (d a b : Reg) (s : State) (hwf : Wf s) : OutWf (execStart d a b s) := out_startHelper _ _ _ _ _ _ _ hwf

theorem out_execStartp (d a b : Reg) (s : State) (hwf : Wf s) : OutWf (execStartp d a b s) := out_startHelper _ _ _ _ _ _ _ hwf

theorem out_execQuit (s : State) (hwf : Wf s) : OutWf (execQuit s) := by
  grind [execQuit, !out_finish, raise, !wf_endLease, !wf_endRunAhead, mem_handlerEnded, !wf_endLife, mem_itemEnd, mem_switchSlot, Good, StopWf, Wf, SomeOf, PlanWf, OutWf]

theorem out_execYield (s : State) (hwf : Wf s) : OutWf (execYield s) := by
  grind [execYield, !out_finish, mem_switchSlot, Good, StopWf, Wf, SomeOf, PlanWf, OutWf]

theorem out_execCtxid (d : Reg) (s : State) (hwf : Wf s) : OutWf (execCtxid d s) := out_writeX _ _ _ _ hwf

theorem out_execWid (d : Reg) (s : State) (hwf : Wf s) : OutWf (execWid d s) := out_writeX _ _ _ _ hwf

theorem out_execWidf (d n : Reg) (s : State) (hwf : Wf s) : OutWf (execWidf d n s) := out_finish _ _ _ hwf (by grind [!out_finish, raise, setX_mem, Good, StopWf, Wf, SomeOf, PlanWf, OutWf])

theorem out_execJoinh (d h : Reg) (s : State) (hwf : Wf s) : OutWf (execJoinh d h s) := by
  grind [execJoinh, !out_endIfRunAhead, setX_mem, Good, StopWf, Wf, SomeOf, PlanWf, OutWf]

theorem out_execHstat (d h : Reg) (s : State) (hwf : Wf s) : OutWf (execHstat d h s) := by
  grind [execHstat, !out_writeX, Good, StopWf, Wf, SomeOf, PlanWf, OutWf]

theorem out_execSend (d h v : Reg) (s : State) (hwf : Wf s) : OutWf (execSend d h v s) := by
  simp only [execSend, bind, Except.bind]
  grind [!out_finish, !good_handleCheck, !good_sendMsg, Good, StopWf, Wf, SomeOf, PlanWf, OutWf, pure, Except.pure]

theorem out_execSendv (d h v : Reg) (s : State) (hwf : Wf s) : OutWf (execSendv d h v s) := by
  refine out_finish _ _ _ hwf (good_ite hwf (good_bind (good_handleCheck ..) fun _ _ => ?_))
  refine good_bind (good_readV _ _ hwf) fun ⟨t, x⟩ ht => ?_
  have hsend := good_sendMsg t d (s.X h) 32 x none ht
  dsimp only
  split
  · next h => rw [h] at hsend; exact hsend
  · exact hsend

theorem out_execSendb (d h v : Reg) (w : BitVec 32) (s : State) (hwf : Wf s) : OutWf (execSendb d h v w s) := by
  simp only [execSendb, bind, Except.bind]
  grind [!out_finish, !good_handleCheck, raise, !good_sendMsg, Good, StopWf, Wf, SomeOf, PlanWf, OutWf, pure, Except.pure]

theorem out_execMpop (d m : Reg) (s : State) (hwf : Wf s) : OutWf (execMpop d m s) := by
  simp only [execMpop, bind, Except.bind]
  grind [!out_finish, !good_myMbox, !good_popCheck, raise, !good_popWait, !good_ringRead, setX_mem, mem_popAcquire, mem_popped, Good, StopWf, Wf, SomeOf, PlanWf, OutWf, pure, Except.pure]

theorem out_execMpopv (d m : Reg) (s : State) (hwf : Wf s) : OutWf (execMpopv d m s) := by
  refine out_finish _ _ _ hwf (good_ite hwf (good_bind (good_myMbox _ _ hwf) fun ⟨n, b⟩ _ => ?_))
  refine good_bind (good_popCheck _ _ _ hwf) fun _ _ => good_ite trivial (good_ite ?_ ?_)
  · exact good_bind (good_appendCheck _ _ hwf) fun _ _ => good_popWait _ _ _ hwf
  · refine good_bind (good_ringRead _ _ _ hwf) fun v _ => good_bind (good_writeV _ _ _ _ hwf) fun t ht => ?_
    exact wf_of_mem (wf_ite (wf_of_mem ht (mem_setMbox ..)) (wf_of_mem ht (mem_popped ..))) (mem_popAcquire ..)

theorem out_execMpeek (d m : Reg) (s : State) (hwf : Wf s) : OutWf (execMpeek d m s) := out_finish _ _ _ hwf (by grind [!out_finish, raise, setX_mem, Good, StopWf, Wf, SomeOf, PlanWf, OutWf])

theorem out_execMbind (d a : Reg) (s : State) (hwf : Wf s) : OutWf (execMbind d a s) := by
  simp only [execMbind, bind, Except.bind]
  grind [!out_finish, !good_recordAlign, !good_readWords, setX_mem, mem_setMbox, mem_setPol, Good, StopWf, Wf, SomeOf, PlanWf, OutWf, pure, Except.pure]

theorem out_execMfree (d m : Reg) (s : State) (hwf : Wf s) : OutWf (execMfree d m s) := out_finish _ _ _ hwf (by grind [!out_finish, setX_mem, mem_unbind, Good, StopWf, Wf, SomeOf, PlanWf, OutWf])

theorem out_execTsend (d a b : Reg) (s : State) (hwf : Wf s) : OutWf (execTsend d a b s) := out_tokenSend _ _ _ _ _ _ hwf

theorem out_execTbwd (d a b : Reg) (s : State) (hwf : Wf s) : OutWf (execTbwd d a b s) := out_tokenSend _ _ _ _ _ _ hwf

theorem out_execTret (d a b : Reg) (s : State) (hwf : Wf s) : OutWf (execTret d a b s) := out_finish _ _ _ hwf (good_ite hwf (good_tokenReturn _ _ _ _ hwf))

theorem out_execXquery (d a b : Reg) (s : State) (hwf : Wf s) : OutWf (execXquery d a b s) := out_finish _ _ _ hwf (by grind [!out_finish, raise, setX_mem, Good, StopWf, Wf, SomeOf, PlanWf, OutWf])

theorem out_execXjoin (d a : Reg) (s : State) (hwf : Wf s) : OutWf (execXjoin d a s) := by
  refine out_finish _ _ _ hwf (good_ite hwf ?_)
  dsimp only
  split
  · exact wf_of_mem hwf (setX_mem ..)
  · refine wf_of_mem (wf_foldl _ (fun t r ht => wf_of_mem ?_ (mem_enq ..)) _ _ (wf_barAdd _ _ _ _ _ _ hwf)) (setX_mem ..)
    split
    · exact wf_of_mem ht ((mem_setRepl ..).trans (mem_needRepl ..))
    · exact wf_of_mem ht (mem_needRepl ..)

theorem out_execXver (d a : Reg) (s : State) (hwf : Wf s) : OutWf (execXver d a s) := by
  refine out_finish _ _ _ hwf (good_ite hwf ?_)
  dsimp only
  split
  · exact wf_of_mem hwf (setX_mem ..)
  · refine good_bind (good_fenceStores s 6 hwf) fun t ht => wf_of_mem ?_ (setX_mem ..)
    refine wf_foldl _ (fun t r ht => wf_weightCopy _ _ _ _ (wf_refreshed _ _ _ _ ?_)) _ _ (wf_of_mem ht (mem_legChange ..))
    exact wf_of_mem ht (mem_needRepl ..)

theorem out_execXcreate (d a : Reg) (s : State) (hwf : Wf s) : OutWf (execXcreate d a s) := out_finish _ _ _ hwf (by grind [!out_finish, raise, setX_mem, !some_createReplica, Good, StopWf, Wf, SomeOf, PlanWf, OutWf])

theorem out_execXretire (d a b : Reg) (s : State) (hwf : Wf s) : OutWf (execXretire d a b s) := out_finish _ _ _ hwf (by grind [!out_finish, raise, setX_mem, !wf_drainReplica, Good, StopWf, Wf, SomeOf, PlanWf, OutWf])

theorem out_execShape (d a : Reg) (s : State) (hwf : Wf s) : OutWf (execShape d a s) := by
  simp only [execShape, bind, Except.bind]
  grind [!out_finish, !good_readRecord, setX_mem, mem_recallObj, setDie_mem, Good, StopWf, Wf, SomeOf, PlanWf, OutWf, pure, Except.pure]

theorem out_execObjrel (d h : Reg) (s : State) (hwf : Wf s) : OutWf (execObjrel d h s) := out_finish _ _ _ hwf (by grind [!out_finish, setX_mem, mem_dropObjLines, mem_recallObj, setDie_mem, Good, StopWf, Wf, SomeOf, PlanWf, OutWf])

theorem out_execObjmode (d h m : Reg) (s : State) (hwf : Wf s) : OutWf (execObjmode d h m s) := out_finish _ _ _ hwf (by grind [!out_finish, setX_mem, mem_dropObjLines, mem_recallObj, setDie_mem, Good, StopWf, Wf, SomeOf, PlanWf, OutWf])

theorem out_execSlotSwitch (s : State) (hwf : Wf s) : OutWf (execSlotSwitch s) := wf_of_mem hwf (mem_slotSwitch ..)

theorem out_execIssueQuantum (s : State) (hwf : Wf s) : OutWf (execIssueQuantum s) := by
  grind [execIssueQuantum, mem_switchSlot, Good, StopWf, Wf, SomeOf, PlanWf, OutWf]

theorem out_execVectorBind (s : State) (hwf : Wf s) : OutWf (execVectorBind s) := wf_of_mem hwf (mem_vectorBind ..)

theorem out_execVectorResultWrite (s : State) (hwf : Wf s) : OutWf (execVectorResultWrite s) := by
  grind [execVectorResultWrite, mem_enq, setCore_mem, Good, StopWf, Wf, SomeOf, PlanWf, OutWf]

theorem out_execMemoryReturnWrite (s : State) (hwf : Wf s) : OutWf (execMemoryReturnWrite s) := by
  grind [execMemoryReturnWrite, setPolder_mem, Good, StopWf, Wf, SomeOf, PlanWf, OutWf]

theorem out_execReturnStarvation (s : State) (hwf : Wf s) : OutWf (execReturnStarvation s) := by
  grind [execReturnStarvation, setPolder_mem, Good, StopWf, Wf, SomeOf, PlanWf, OutWf]

theorem out_execStreamElementFetch (s : State) (hwf : Wf s) : OutWf (execStreamElementFetch s) := wf_streamFetch _ _ _ hwf

theorem out_execStreamAppendPerformed (s : State) (hwf : Wf s) : OutWf (execStreamAppendPerformed s) := by
  grind [execStreamAppendPerformed, mem_enq, setCtx_mem, Good, StopWf, Wf, SomeOf, PlanWf, OutWf]

theorem out_execCoherentRequestAtHome (s : State) (hwf : Wf s) : OutWf (execCoherentRequestAtHome s) := wf_of_mem hwf (mem_homeRequest ..)

theorem out_execDirtyWriteback (s : State) (hwf : Wf s) : OutWf (execDirtyWriteback s) := wf_of_mem hwf (mem_writeBack ..)

theorem out_execSetAd (s : State) (hwf : Wf s) : OutWf (execSetAd s) := by
  grind [execSetAd, mem_enq, !some_setAd, Good, StopWf, Wf, SomeOf, PlanWf, OutWf]

theorem out_execWalkMigratingTimeout (s : State) (hwf : Wf s) : OutWf (execWalkMigratingTimeout s) := by
  grind [execWalkMigratingTimeout, mem_nmLate, mem_expire, Good, StopWf, Wf, SomeOf, PlanWf, OutWf]

theorem out_execMigrationHoldTimeout (s : State) (hwf : Wf s) : OutWf (execMigrationHoldTimeout s) := wf_of_mem hwf (mem_expire ..)

theorem out_execNearMemoryForward (s : State) (hwf : Wf s) : OutWf (execNearMemoryForward s) := wf_of_mem hwf (mem_nmForward ..)

theorem out_execNearMemoryApply (s : State) (hwf : Wf s) : OutWf (execNearMemoryApply s) := wf_nmApply _ _ _ hwf

theorem out_execNearMemoryAck (s : State) (hwf : Wf s) : OutWf (execNearMemoryAck s) := wf_nmAck _ _ hwf

theorem out_execNearMemoryReturn (s : State) (hwf : Wf s) : OutWf (execNearMemoryReturn s) := wf_nmReturn _ _ _ hwf

theorem out_execPatrolScrub (s : State) (hwf : Wf s) : OutWf (execPatrolScrub s) := by
  grind [execPatrolScrub, !wf_symbolError, Good, StopWf, Wf, SomeOf, PlanWf, OutWf]

theorem out_execContentionDecay (s : State) (hwf : Wf s) : OutWf (execContentionDecay s) := by
  grind [execContentionDecay, setCore_mem, Good, StopWf, Wf, SomeOf, PlanWf, OutWf]

theorem out_execBisnpinv (s : State) (hwf : Wf s) : OutWf (execBisnpinv s) := wf_biSnoop _ _ _ hwf

theorem out_execBisnpdata (s : State) (hwf : Wf s) : OutWf (execBisnpdata s) := wf_biSnoop _ _ _ hwf

theorem out_execBisnpcur (s : State) (hwf : Wf s) : OutWf (execBisnpcur s) := wf_biSnoop _ _ _ hwf

theorem out_execPoolLinkLoss (s : State) (hwf : Wf s) : OutWf (execPoolLinkLoss s) := by
  grind [execPoolLinkLoss, !wf_portLost, mem_setPoolUp, Good, StopWf, Wf, SomeOf, PlanWf, OutWf]

theorem out_execPoolRequestTimeout (s : State) (hwf : Wf s) : OutWf (execPoolRequestTimeout s) := wf_portLost _ _ _ hwf

theorem out_execRegionEnable (s : State) (hwf : Wf s) : OutWf (execRegionEnable s) := wf_of_mem hwf (mem_regionEnable ..)

theorem out_execRegionDisable (s : State) (hwf : Wf s) : OutWf (execRegionDisable s) := wf_of_mem hwf (mem_regionDisable ..)

theorem out_execRegionDetachDone (s : State) (hwf : Wf s) : OutWf (execRegionDetachDone s) := wf_regionDetached _ _ _ hwf

theorem out_execReattach (s : State) (hwf : Wf s) : OutWf (execReattach s) := wf_of_mem hwf (mem_regionReattach ..)

theorem out_execRelease (s : State) (hwf : Wf s) : OutWf (execRelease s) := wf_of_mem hwf (mem_regionRelease ..)

theorem out_execClearlog (s : State) (hwf : Wf s) : OutWf (execClearlog s) := wf_of_mem hwf (mem_regionClearlog ..)

theorem out_execDecoderCheck (s : State) (hwf : Wf s) : OutWf (execDecoderCheck s) := wf_of_mem hwf (mem_regionDecoder ..)

theorem out_execLockRequestResend (s : State) (hwf : Wf s) : OutWf (execLockRequestResend s) := by
  grind [execLockRequestResend, mem_enq, Good, StopWf, Wf, SomeOf, PlanWf, OutWf]

theorem out_execLockRequestAccept (s : State) (hwf : Wf s) : OutWf (execLockRequestAccept s) := wf_of_mem hwf (mem_lockArrival ..)

theorem out_execLockTimeout (s : State) (hwf : Wf s) : OutWf (execLockTimeout s) := wf_of_mem hwf (mem_lockTimeout ..)

theorem out_execLockRelease (s : State) (hwf : Wf s) : OutWf (execLockRelease s) := wf_of_mem hwf (mem_releaseArrived ..)

theorem out_execHoldLimit (s : State) (hwf : Wf s) : OutWf (execHoldLimit s) := wf_of_mem hwf (mem_holdLimit ..)

theorem out_execDeadlockProbe (s : State) (hwf : Wf s) : OutWf (execDeadlockProbe s) := wf_of_mem hwf (mem_deadlockProbe ..)

theorem out_execScratchpadPortAccess (s : State) (hwf : Wf s) : OutWf (execScratchpadPortAccess s) := by
  grind [execScratchpadPortAccess, !wf_portDrain, mem_wakeSlot, Good, StopWf, Wf, SomeOf, PlanWf, OutWf]

theorem out_execScoreboardRelease (s : State) (hwf : Wf s) : OutWf (execScoreboardRelease s) := wf_of_mem hwf (mem_wakeSlot ..)

theorem out_execTraceRingControl (s : State) (hwf : Wf s) : OutWf (execTraceRingControl s) := wf_of_mem hwf (mem_ringWrite ..)

theorem out_execClr (s : State) (hwf : Wf s) : OutWf (execClr s) := by
  grind [execClr, setPolder_mem, Good, StopWf, Wf, SomeOf, PlanWf, OutWf]

theorem out_execEngineCommandStart (s : State) (hwf : Wf s) : OutWf (execEngineCommandStart s) := wf_of_mem hwf (mem_engStart ..)

theorem out_execEnginePiece (s : State) (hwf : Wf s) : OutWf (execEnginePiece s) := wf_engPiece _ _ _ _ hwf

theorem out_execEngineCommandStop (s : State) (hwf : Wf s) : OutWf (execEngineCommandStop s) := wf_engStop _ _ _ _ hwf

theorem out_execExchangeForm (s : State) (hwf : Wf s) : OutWf (execExchangeForm s) := wf_exchForm _ _ _ hwf

theorem out_execExchangeRound (s : State) (hwf : Wf s) : OutWf (execExchangeRound s) := wf_exchRound _ _ _ hwf

theorem out_execExchTimeout (s : State) (hwf : Wf s) : OutWf (execExchTimeout s) := wf_exchTimeout _ _ _ hwf

theorem out_execResumeCommand (s : State) (hwf : Wf s) : OutWf (execResumeCommand s) := wf_of_mem hwf (mem_resumeAny ..)

theorem out_execCancel (s : State) (hwf : Wf s) : OutWf (execCancel s) := wf_cancelCmd _ _ _ _ hwf

theorem out_execArrayCommandStart (s : State) (hwf : Wf s) : OutWf (execArrayCommandStart s) := wf_arrStart _ _ _ hwf

theorem out_execArrayRowCommit (s : State) (hwf : Wf s) : OutWf (execArrayRowCommit s) := wf_arrRow _ _ _ hwf

theorem out_execRaggedRowJoin (s : State) (hwf : Wf s) : OutWf (execRaggedRowJoin s) := wf_raggedJoin _ _ _ hwf

theorem out_execArrayCommandComplete (s : State) (hwf : Wf s) : OutWf (execArrayCommandComplete s) := wf_arrComplete _ _ _ hwf

theorem out_execLeaseArbitration (s : State) (hwf : Wf s) : OutWf (execLeaseArbitration s) := wf_of_mem hwf (mem_arbitrate ..)

theorem out_execHandOverSave (s : State) (hwf : Wf s) : OutWf (execHandOverSave s) := wf_handOverSave _ _ _ _ hwf

theorem out_execHandOverRestore (s : State) (hwf : Wf s) : OutWf (execHandOverRestore s) := wf_handOverRestore _ _ _ hwf

theorem out_execColumnRemap (s : State) (hwf : Wf s) : OutWf (execColumnRemap s) := wf_of_mem hwf (mem_columnRemap ..)

theorem out_execChunkDepart (s : State) (hwf : Wf s) : OutWf (execChunkDepart s) := by
  grind [execChunkDepart, mem_chanSet, !wf_chunkDepart, Good, StopWf, Wf, SomeOf, PlanWf, OutWf]

theorem out_execSwitchReduce (s : State) (hwf : Wf s) : OutWf (execSwitchReduce s) := by
  grind [execSwitchReduce, !wf_collReduce, Good, StopWf, Wf, SomeOf, PlanWf, OutWf]

theorem out_execHomeReduce (s : State) (hwf : Wf s) : OutWf (execHomeReduce s) := by
  grind [execHomeReduce, !wf_collReduce, Good, StopWf, Wf, SomeOf, PlanWf, OutWf]

theorem out_execCollectiveLanding (s : State) (hwf : Wf s) : OutWf (execCollectiveLanding s) := wf_collLanding _ _ hwf

theorem out_execCommunicatorWrite (s : State) (hwf : Wf s) : OutWf (execCommunicatorWrite s) := wf_of_mem hwf (mem_commWrite ..)

theorem out_execCommunicatorDisable (s : State) (hwf : Wf s) : OutWf (execCommunicatorDisable s) := wf_commDisable _ _ _ hwf

theorem out_execMessageArrival (s : State) (hwf : Wf s) : OutWf (execMessageArrival s) := wf_messageArrival _ _ _ hwf

theorem out_execCreditRequest (s : State) (hwf : Wf s) : OutWf (execCreditRequest s) := wf_creditRequest _ _ _ hwf

theorem out_execCreditGrant (s : State) (hwf : Wf s) : OutWf (execCreditGrant s) := wf_creditGrant _ _ _ hwf

theorem out_execCreditReturn (s : State) (hwf : Wf s) : OutWf (execCreditReturn s) := wf_of_mem hwf (mem_creditReturn ..)

theorem out_execSendTimeout (s : State) (hwf : Wf s) : OutWf (execSendTimeout s) := wf_of_mem hwf (mem_sendTimeout ..)

theorem out_execHandlerStart (s : State) (hwf : Wf s) : OutWf (execHandlerStart s) := wf_of_mem hwf (mem_handlerStart ..)

theorem out_execQueueStart (s : State) (hwf : Wf s) : OutWf (execQueueStart s) := wf_of_mem hwf (mem_queueStart ..)

theorem out_execDrain (s : State) (hwf : Wf s) : OutWf (execDrain s) := wf_of_mem hwf (mem_drainQueue ..)

theorem out_execAbort (s : State) (hwf : Wf s) : OutWf (execAbort s) := wf_abortQueue _ _ _ hwf

theorem out_execReset (s : State) (hwf : Wf s) : OutWf (execReset s) := wf_of_mem hwf (mem_resetQueue ..)

theorem out_execTail (s : State) (hwf : Wf s) : OutWf (execTail s) := by
  grind [execTail, mem_hostHold, mem_queueTail, Good, StopWf, Wf, SomeOf, PlanWf, OutWf]

theorem out_execRecordTake (s : State) (hwf : Wf s) : OutWf (execRecordTake s) := wf_recordTake _ _ _ hwf

theorem out_execSemaphoreRound (s : State) (hwf : Wf s) : OutWf (execSemaphoreRound s) := wf_semRound _ _ _ hwf

theorem out_execDispatch (s : State) (hwf : Wf s) : OutWf (execDispatch s) := wf_dispatch _ _ _ hwf

theorem out_execLaunchComplete (s : State) (hwf : Wf s) : OutWf (execLaunchComplete s) := wf_launchComplete _ _ _ hwf

theorem out_execAbortTeardownDone (s : State) (hwf : Wf s) : OutWf (execAbortTeardownDone s) := wf_abortStep _ _ _ hwf

theorem out_execDrainDone (s : State) (hwf : Wf s) : OutWf (execDrainDone s) := wf_of_mem hwf (mem_drainDone ..)

theorem out_execPreempt (s : State) (hwf : Wf s) : OutWf (execPreempt s) := wf_preempt _ _ _ hwf

theorem out_execContextRestore (s : State) (hwf : Wf s) : OutWf (execContextRestore s) := wf_contextRestore _ _ _ _ hwf

theorem out_execRestart (s : State) (hwf : Wf s) : OutWf (execRestart s) := wf_of_mem hwf (mem_mcRestart ..)

theorem out_execClear (s : State) (hwf : Wf s) : OutWf (execClear s) := wf_of_mem hwf (mem_mcClear ..)

theorem out_execInstall (s : State) (hwf : Wf s) : OutWf (execInstall s) := wf_of_mem hwf (mem_legInstall ..)

theorem out_execRemove (s : State) (hwf : Wf s) : OutWf (execRemove s) := wf_of_mem hwf (mem_legRemove ..)

theorem out_execRead (s : State) (hwf : Wf s) : OutWf (execRead s) := wf_of_mem hwf (mem_legRead ..)

theorem out_execLegendUpdate (s : State) (hwf : Wf s) : OutWf (execLegendUpdate s) := wf_of_mem hwf (mem_legendUpdate ..)

theorem out_execEpochAck (s : State) (hwf : Wf s) : OutWf (execEpochAck s) := wf_of_mem hwf (mem_epochAck ..)

theorem out_execLegendWindowEnd (s : State) (hwf : Wf s) : OutWf (execLegendWindowEnd s) := wf_windowEnd _ _ _ hwf

theorem out_execRbarFlip (s : State) (hwf : Wf s) : OutWf (execRbarFlip s) := by
  grind [execRbarFlip, !wf_issueCopy, !wf_rbarFlip, Good, StopWf, Wf, SomeOf, PlanWf, OutWf]

theorem out_execReplicaFree (s : State) (hwf : Wf s) : OutWf (execReplicaFree s) := wf_replicaFree _ _ _ _ hwf

theorem out_execTombstoneEnd (s : State) (hwf : Wf s) : OutWf (execTombstoneEnd s) := wf_of_mem hwf (mem_tombstoneEnd ..)

theorem out_execTokenArrival (s : State) (hwf : Wf s) : OutWf (execTokenArrival s) := wf_tokenArrival _ _ _ hwf

theorem out_execTokenAcceptance (s : State) (hwf : Wf s) : OutWf (execTokenAcceptance s) := wf_of_mem hwf (mem_tokenAcceptance ..)

theorem out_execSlotCreditRequest (s : State) (hwf : Wf s) : OutWf (execSlotCreditRequest s) := wf_of_mem hwf (mem_slotCredit ..)

theorem out_execTokenCreditTimeout (s : State) (hwf : Wf s) : OutWf (execTokenCreditTimeout s) := wf_of_mem hwf (mem_tokTimeout ..)

theorem out_execPageCloseTimeout (s : State) (hwf : Wf s) : OutWf (execPageCloseTimeout s) := wf_pageTimeout _ _ _ _ _ hwf

theorem out_execResultRowLanding (s : State) (hwf : Wf s) : OutWf (execResultRowLanding s) := wf_resultLanding _ _ _ hwf

theorem out_execJoinCopy (s : State) (hwf : Wf s) : OutWf (execJoinCopy s) := wf_joinCopy _ _ _ _ _ hwf

theorem out_execErrorDetected (s : State) (hwf : Wf s) : OutWf (execErrorDetected s) := by
  grind [execErrorDetected, mem_enq, !wf_symbolError, mem_startTest, mem_logError, !wf_uncorrectable, mem_countCorrected, Good, StopWf, Wf, SomeOf, PlanWf, OutWf]

theorem out_execSelfTestDone (s : State) (hwf : Wf s) : OutWf (execSelfTestDone s) := by
  grind [execSelfTestDone, mem_enq, setPkg_mem, !wf_retireFailed, mem_logError, Good, StopWf, Wf, SomeOf, PlanWf, OutWf]

theorem out_execLinkReplayFailure (s : State) (hwf : Wf s) : OutWf (execLinkReplayFailure s) := by
  grind [execLinkReplayFailure, mem_startTest, setPkg_mem, !wf_portLost, mem_setPoolUp, Good, StopWf, Wf, SomeOf, PlanWf, OutWf]

theorem out_execHeartbeat (s : State) (hwf : Wf s) : OutWf (execHeartbeat s) := by
  have hbeats : ∀ (l : List Nat) (f g : Nat → Nat), Wf (l.foldl (fun (s : State) m => s.beat (f m) (g m)) s) :=
    fun l f g => wf_of_mem hwf (mem_foldl _ (fun _ _ => mem_beat ..) l s)
  unfold execHeartbeat
  dsimp only
  split
  · exact wf_ite hwf (hbeats _ id fun _ => s.ev.node)
  · exact hbeats _ id fun _ => switchNo s.ev.n
  · exact wf_of_mem hwf (mem_beat ..)

theorem out_execHeartbeatMiss (s : State) (hwf : Wf s) : OutWf (execHeartbeatMiss s) := wf_heartbeatMiss _ _ hwf

theorem out_execFenceNode (s : State) (hwf : Wf s) : OutWf (execFenceNode s) := by
  grind [execFenceNode, !wf_fencePeer, Good, StopWf, Wf, SomeOf, PlanWf, OutWf]

theorem out_execUnfence (s : State) (hwf : Wf s) : OutWf (execUnfence s) := by
  grind [execUnfence, setPkg_mem, Good, StopWf, Wf, SomeOf, PlanWf, OutWf]

theorem out_execWatchdog (s : State) (hwf : Wf s) : OutWf (execWatchdog s) := wf_foldl _ (fun _ _ h => wf_ite (wf_watchdogSlot _ _ _ h) h) _ _ hwf

theorem out_execForcelost (s : State) (hwf : Wf s) : OutWf (execForcelost s) := wf_regionLost _ _ _ hwf

theorem out_execReload (s : State) (hwf : Wf s) : OutWf (execReload s) := wf_ite hwf (wf_foldl _ (fun _ _ h => wf_of_mem h ((setCtx_mem ..).trans (setCore_mem ..))) _ _ (wf_of_mem hwf (setPkg_mem ..)))

theorem out_execTelemetry (s : State) (hwf : Wf s) : OutWf (execTelemetry s) := by
  grind [execTelemetry, setPkg_mem, Good, StopWf, Wf, SomeOf, PlanWf, OutWf]

theorem out_execThermalThrottle (s : State) (hwf : Wf s) : OutWf (execThermalThrottle s) := by
  grind [execThermalThrottle, setPkg_mem, Good, StopWf, Wf, SomeOf, PlanWf, OutWf]

theorem out_execResetRelease (s : State) (hwf : Wf s) : OutWf (execResetRelease s) := wf_resetRelease _ _ hwf

theorem out_execBar2Access (s : State) (hwf : Wf s) : OutWf (execBar2Access s) := wf_bar2Access _ _ hwf

theorem out_execControlRegisterWrite (s : State) (hwf : Wf s) : OutWf (execControlRegisterWrite s) := by
  grind [execControlRegisterWrite, mem_ctlWriteN, mem_now, Good, StopWf, Wf, SomeOf, PlanWf, OutWf]

theorem out_execWfeTimeout (s : State) (hwf : Wf s) : OutWf (execWfeTimeout s) := wf_of_mem hwf (mem_expire ..)

theorem out_execLinkTraining (s : State) (hwf : Wf s) : OutWf (execLinkTraining s) := by
  grind [execLinkTraining, setPkg_mem, Good, StopWf, Wf, SomeOf, PlanWf, OutWf]

theorem out_execPoolDeviceResponse (s : State) (hwf : Wf s) : OutWf (execPoolDeviceResponse s) := by
  grind [execPoolDeviceResponse, !wf_poolPerformed, Good, StopWf, Wf, SomeOf, PlanWf, OutWf]

theorem out_execMarkEviction (s : State) (hwf : Wf s) : OutWf (execMarkEviction s) := wf_of_mem hwf (mem_markEvict ..)

theorem out_exec (i : Instr) (s : State) (hwf : Wf s) : OutWf (exec i s) := by
  cases i with
  | pfx => exact out_execPfx _ _ _ _ _ _ _ hwf
  | add => exact out_execAdd _ _ _ _ hwf
  | sub => exact out_execSub _ _ _ _ hwf
  | and => exact out_execAnd _ _ _ _ hwf
  | or => exact out_execOr _ _ _ _ hwf
  | xor => exact out_execXor _ _ _ _ hwf
  | sll => exact out_execSll _ _ _ _ hwf
  | srl => exact out_execSrl _ _ _ _ hwf
  | sra => exact out_execSra _ _ _ _ hwf
  | slt => exact out_execSlt _ _ _ _ hwf
  | sltu => exact out_execSltu _ _ _ _ hwf
  | min => exact out_execMin _ _ _ _ hwf
  | max => exact out_execMax _ _ _ _ hwf
  | minu => exact out_execMinu _ _ _ _ hwf
  | maxu => exact out_execMaxu _ _ _ _ hwf
  | addw => exact out_execAddw _ _ _ _ hwf
  | subw => exact out_execSubw _ _ _ _ hwf
  | andn => exact out_execAndn _ _ _ _ hwf
  | orn => exact out_execOrn _ _ _ _ hwf
  | rol => exact out_execRol _ _ _ _ hwf
  | ror => exact out_execRor _ _ _ _ hwf
  | addi => exact out_execAddi _ _ _ _ hwf
  | andi => exact out_execAndi _ _ _ _ hwf
  | ori => exact out_execOri _ _ _ _ hwf
  | xori => exact out_execXori _ _ _ _ hwf
  | slli => exact out_execSlli _ _ _ _ hwf
  | srli => exact out_execSrli _ _ _ _ hwf
  | srai => exact out_execSrai _ _ _ _ hwf
  | rori => exact out_execRori _ _ _ _ hwf
  | slti => exact out_execSlti _ _ _ _ hwf
  | mul => exact out_execMul _ _ _ _ hwf
  | mulh => exact out_execMulh _ _ _ _ hwf
  | mulhu => exact out_execMulhu _ _ _ _ hwf
  | div => exact out_execDiv _ _ _ _ hwf
  | divu => exact out_execDivu _ _ _ _ hwf
  | rem => exact out_execRem _ _ _ _ hwf
  | remu => exact out_execRemu _ _ _ _ hwf
  | mulw => exact out_execMulw _ _ _ _ hwf
  | bfx => exact out_execBfx _ _ _ _ _ hwf
  | bfxs => exact out_execBfxs _ _ _ _ _ hwf
  | bfi => exact out_execBfi _ _ _ _ _ hwf
  | clz => exact out_execClz _ _ _ hwf
  | ctz => exact out_execCtz _ _ _ hwf
  | popc => exact out_execPopc _ _ _ hwf
  | ldhi => exact out_execLdhi _ _ _ hwf
  | addpc => exact out_execAddpc _ _ _ hwf
  | ldi => exact out_execLdi _ _ _ hwf
  | ldiu => exact out_execLdiu _ _ _ hwf
  | addil => exact out_execAddil _ _ _ _ hwf
  | beq => exact out_execBeq _ _ _ _ hwf
  | bne => exact out_execBne _ _ _ _ hwf
  | blt => exact out_execBlt _ _ _ _ hwf
  | bge => exact out_execBge _ _ _ _ hwf
  | bltu => exact out_execBltu _ _ _ _ hwf
  | bgeu => exact out_execBgeu _ _ _ _ hwf
  | jal => exact out_execJal _ _ _ hwf
  | jalr => exact out_execJalr _ _ _ _ hwf
  | jl => exact out_execJl _ _ _ hwf
  | loop => exact out_execLoop _ _ _ hwf
  | lb => exact out_execLb _ _ _ _ _ hwf
  | lbu => exact out_execLbu _ _ _ _ _ hwf
  | lh => exact out_execLh _ _ _ _ _ hwf
  | lhu => exact out_execLhu _ _ _ _ _ hwf
  | lw => exact out_execLw _ _ _ _ _ hwf
  | lwu => exact out_execLwu _ _ _ _ _ hwf
  | ld => exact out_execLd _ _ _ _ _ hwf
  | sb => exact out_execSb _ _ _ _ _ hwf
  | sh => exact out_execSh _ _ _ _ _ hwf
  | sw => exact out_execSw _ _ _ _ _ hwf
  | sd => exact out_execSd _ _ _ _ _ hwf
  | ldl => exact out_execLdl _ _ _ _ _ _ hwf
  | stl => exact out_execStl _ _ _ _ _ _ hwf
  | ldv => exact out_execLdv _ _ _ _ _ hwf
  | ldvx => exact out_execLdvx _ _ _ _ _ hwf
  | ldvb => exact out_execLdvb _ _ _ _ _ hwf
  | stv => exact out_execStv _ _ _ _ _ hwf
  | stvx => exact out_execStvx _ _ _ _ _ hwf
  | amoadd => exact out_execAmoadd _ _ _ _ _ _ _ hwf
  | amoand => exact out_execAmoand _ _ _ _ _ _ _ hwf
  | amoor => exact out_execAmoor _ _ _ _ _ _ _ hwf
  | amoxor => exact out_execAmoxor _ _ _ _ _ _ _ hwf
  | amomin => exact out_execAmomin _ _ _ _ _ _ _ hwf
  | amomax => exact out_execAmomax _ _ _ _ _ _ _ hwf
  | amominu => exact out_execAmominu _ _ _ _ _ _ _ hwf
  | amomaxu => exact out_execAmomaxu _ _ _ _ _ _ _ hwf
  | amoswap => exact out_execAmoswap _ _ _ _ _ _ _ hwf
  | amocas => exact out_execAmocas _ _ _ _ _ _ hwf
  | amofadd => exact out_execAmofadd _ _ _ _ _ _ _ hwf
  | amofmin => exact out_execAmofmin _ _ _ _ _ _ hwf
  | amofmax => exact out_execAmofmax _ _ _ _ _ _ hwf
  | nmadd => exact out_execNmadd _ _ _ _ hwf
  | nmfadd => exact out_execNmfadd _ _ _ _ hwf
  | nmmax => exact out_execNmmax _ _ _ _ hwf
  | nmmin => exact out_execNmmin _ _ _ _ hwf
  | nmor => exact out_execNmor _ _ _ _ hwf
  | lkacq => exact out_execLkacq _ _ _ _ _ hwf
  | lktry => exact out_execLktry _ _ _ _ hwf
  | lkrel => exact out_execLkrel _ _ _ _ hwf
  | lkstat => exact out_execLkstat _ _ _ hwf
  | fence => exact out_execFence _ _ _ _ hwf
  | xprobe => exact out_execXprobe _ _ _ hwf
  | xinv => exact out_execXinv _ _ _ hwf
  | xinvas => exact out_execXinvas _ _ _ hwf
  | synci => exact out_execSynci _ _ _ _ hwf
  | survey => exact out_execSurvey _ _ _ _ hwf
  | xmig => exact out_execXmig _ _ _ _ hwf
  | trap => exact out_execTrap _ _ hwf
  | eret => exact out_execEret _ hwf
  | wfe => exact out_execWfe _ _ _ hwf
  | halt => exact out_execHalt _ hwf
  | brk => exact out_execBrk _ hwf
  | resume => exact out_execResume _ _ _ hwf
  | csrrw => exact out_execCsrrw _ _ _ _ hwf
  | csrrs => exact out_execCsrrs _ _ _ _ hwf
  | csrrc => exact out_execCsrrc _ _ _ _ hwf
  | vadd => exact out_execVadd _ _ _ _ _ _ hwf
  | vsub => exact out_execVsub _ _ _ _ _ _ hwf
  | vmul => exact out_execVmul _ _ _ _ _ _ hwf
  | vfma => exact out_execVfma _ _ _ _ _ _ hwf
  | vfms => exact out_execVfms _ _ _ _ _ _ hwf
  | vmin => exact out_execVmin _ _ _ _ _ _ hwf
  | vmax => exact out_execVmax _ _ _ _ _ _ hwf
  | vabs => exact out_execVabs _ _ _ _ _ hwf
  | vneg => exact out_execVneg _ _ _ _ _ hwf
  | vand => exact out_execVand _ _ _ _ _ _ hwf
  | vor => exact out_execVor _ _ _ _ _ _ hwf
  | vxor => exact out_execVxor _ _ _ _ _ _ hwf
  | vsll => exact out_execVsll _ _ _ _ _ _ hwf
  | vsrl => exact out_execVsrl _ _ _ _ _ _ hwf
  | vsra => exact out_execVsra _ _ _ _ _ _ hwf
  | vdiv => exact out_execVdiv _ _ _ _ _ _ hwf
  | vsqrt => exact out_execVsqrt _ _ _ _ _ hwf
  | vrsq => exact out_execVrsq _ _ _ _ _ hwf
  | vrcp => exact out_execVrcp _ _ _ _ _ hwf
  | vexp2 => exact out_execVexp2 _ _ _ _ _ hwf
  | vlog2 => exact out_execVlog2 _ _ _ _ _ hwf
  | vmulh => exact out_execVmulh _ _ _ _ _ _ hwf
  | vaddsat => exact out_execVaddsat _ _ _ _ _ _ hwf
  | vsubsat => exact out_execVsubsat _ _ _ _ _ _ hwf
  | vmov => exact out_execVmov _ _ _ _ _ hwf
  | vaddsc => exact out_execVaddsc _ _ _ _ _ _ hwf
  | vsubsc => exact out_execVsubsc _ _ _ _ _ _ hwf
  | vmulsc => exact out_execVmulsc _ _ _ _ _ _ hwf
  | vfmasc => exact out_execVfmasc _ _ _ _ _ _ hwf
  | vminsc => exact out_execVminsc _ _ _ _ _ _ hwf
  | vmaxsc => exact out_execVmaxsc _ _ _ _ _ _ hwf
  | vsplat => exact out_execVsplat _ _ _ _ _ hwf
  | vins => exact out_execVins _ _ _ _ _ _ hwf
  | vext => exact out_execVext _ _ _ _ _ _ hwf
  | vsplati => exact out_execVsplati _ _ _ _ _ hwf
  | vcvt => exact out_execVcvt _ _ _ _ _ _ _ hwf
  | vredsum => exact out_execVredsum _ _ _ _ _ hwf
  | vredmax => exact out_execVredmax _ _ _ _ _ hwf
  | vredmin => exact out_execVredmin _ _ _ _ _ hwf
  | vperm => exact out_execVperm _ _ _ _ _ _ hwf
  | vrot => exact out_execVrot _ _ _ _ _ _ hwf
  | vsort => exact out_execVsort _ _ _ _ _ _ hwf
  | vdupm => exact out_execVdupm _ _ _ _ _ _ hwf
  | vcompr => exact out_execVcompr _ _ _ _ _ _ hwf
  | vexpnd => exact out_execVexpnd _ _ _ _ _ _ hwf
  | vcmp => exact out_execVcmp _ _ _ _ _ _ _ hwf
  | vsel => exact out_execVsel _ _ _ _ _ _ hwf
  | pand => exact out_execPand _ _ _ _ _ hwf
  | por => exact out_execPor _ _ _ _ _ hwf
  | pnot => exact out_execPnot _ _ _ _ hwf
  | pcnt => exact out_execPcnt _ _ _ _ hwf
  | sbind => exact out_execSbind _ _ _ hwf
  | sunbind => exact out_execSunbind _ _ hwf
  | sstat => exact out_execSstat _ _ _ hwf
  | gw => exact out_execGw _ _ _ hwf
  | gr => exact out_execGr _ _ _ hwf
  | gclr => exact out_execGclr _ hwf
  | ecpy => exact out_execEcpy _ _ _ _ hwf
  | egth => exact out_execEgth _ _ _ _ hwf
  | esct => exact out_execEsct _ _ _ _ hwf
  | exch => exact out_execExch _ _ _ _ hwf
  | emma => exact out_execEmma _ _ _ _ _ _ hwf
  | emmz => exact out_execEmmz _ _ _ hwf
  | emmd => exact out_execEmmd _ _ _ _ _ hwf
  | ecoll => exact out_execEcoll _ _ _ hwf
  | etopk => exact out_execEtopk _ _ _ _ hwf
  | eclone => exact out_execEclone _ _ hwf
  | enmsc => exact out_execEnmsc _ _ _ _ hwf
  | eptab => exact out_execEptab _ _ _ _ hwf
  | lease => exact out_execLease _ _ _ hwf
  | unlease => exact out_execUnlease _ _ hwf
  | lstat => exact out_execLstat _ _ hwf
  | bbinit => exact out_execBbinit _ _ hwf
  | bbexp => exact out_execBbexp _ _ _ hwf
  | bbwait => exact out_execBbwait _ _ _ hwf
  | bbtest => exact out_execBbtest _ _ _ hwf
  | phnew => exact out_execPhnew _ _ _ hwf
  | phreg => exact out_execPhreg _ _ _ _ hwf
  | phdrop => exact out_execPhdrop _ _ _ hwf
  | phsig => exact out_execPhsig _ _ _ hwf
  | phwait => exact out_execPhwait _ _ _ hwf
  | phsw => exact out_execPhsw _ _ _ hwf
  | phq => exact out_execPhq _ _ _ hwf
  | start => exact out_execStart _ _ _ _ hwf
  | startp => exact out_execStartp _ _ _ _ hwf
  | quit => exact out_execQuit _ hwf
  | yield => exact out_execYield _ hwf
  | ctxid => exact out_execCtxid _ _ hwf
  | wid => exact out_execWid _ _ hwf
  | widf => exact out_execWidf _ _ _ hwf
  | joinh => exact out_execJoinh _ _ _ hwf
  | hstat => exact out_execHstat _ _ _ hwf
  | send => exact out_execSend _ _ _ _ hwf
  | sendv => exact out_execSendv _ _ _ _ hwf
  | sendb => exact out_execSendb _ _ _ _ _ hwf
  | mpop => exact out_execMpop _ _ _ hwf
  | mpopv => exact out_execMpopv _ _ _ hwf
  | mpeek => exact out_execMpeek _ _ _ hwf
  | mbind => exact out_execMbind _ _ _ hwf
  | mfree => exact out_execMfree _ _ _ hwf
  | tsend => exact out_execTsend _ _ _ _ hwf
  | tbwd => exact out_execTbwd _ _ _ _ hwf
  | tret => exact out_execTret _ _ _ _ hwf
  | xquery => exact out_execXquery _ _ _ _ hwf
  | xjoin => exact out_execXjoin _ _ _ hwf
  | xver => exact out_execXver _ _ _ hwf
  | xcreate => exact out_execXcreate _ _ _ hwf
  | xretire => exact out_execXretire _ _ _ _ hwf
  | shape => exact out_execShape _ _ _ hwf
  | objrel => exact out_execObjrel _ _ _ hwf
  | objmode => exact out_execObjmode _ _ _ _ hwf
  | fadd => exact out_execFadd _ _ _ _ _ hwf
  | fsub => exact out_execFsub _ _ _ _ _ hwf
  | fmul => exact out_execFmul _ _ _ _ _ hwf
  | fmac => exact out_execFmac _ _ _ _ _ hwf
  | fdiv => exact out_execFdiv _ _ _ _ _ hwf
  | fsqrt => exact out_execFsqrt _ _ _ _ hwf
  | fmin => exact out_execFmin _ _ _ _ _ hwf
  | fmax => exact out_execFmax _ _ _ _ _ hwf
  | fcvti => exact out_execFcvti _ _ _ _ hwf
  | fcvtf => exact out_execFcvtf _ _ _ _ hwf
  | flt => exact out_execFlt _ _ _ _ _ hwf
  | feq => exact out_execFeq _ _ _ _ _ hwf
  | scal => exact out_execScal _ _ _ _ _ hwf
  | fclass => exact out_execFclass _ _ _ _ hwf
  | slotSwitch => exact out_execSlotSwitch _ hwf
  | issueQuantum => exact out_execIssueQuantum _ hwf
  | vectorBind => exact out_execVectorBind _ hwf
  | vectorResultWrite => exact out_execVectorResultWrite _ hwf
  | memoryReturnWrite => exact out_execMemoryReturnWrite _ hwf
  | returnStarvation => exact out_execReturnStarvation _ hwf
  | streamElementFetch => exact out_execStreamElementFetch _ hwf
  | streamAppendPerformed => exact out_execStreamAppendPerformed _ hwf
  | coherentRequestAtHome => exact out_execCoherentRequestAtHome _ hwf
  | dirtyWriteback => exact out_execDirtyWriteback _ hwf
  | setAd => exact out_execSetAd _ hwf
  | walkMigratingTimeout => exact out_execWalkMigratingTimeout _ hwf
  | migrationHoldTimeout => exact out_execMigrationHoldTimeout _ hwf
  | nearMemoryForward => exact out_execNearMemoryForward _ hwf
  | nearMemoryApply => exact out_execNearMemoryApply _ hwf
  | nearMemoryAck => exact out_execNearMemoryAck _ hwf
  | nearMemoryReturn => exact out_execNearMemoryReturn _ hwf
  | patrolScrub => exact out_execPatrolScrub _ hwf
  | contentionDecay => exact out_execContentionDecay _ hwf
  | bisnpinv => exact out_execBisnpinv _ hwf
  | bisnpdata => exact out_execBisnpdata _ hwf
  | bisnpcur => exact out_execBisnpcur _ hwf
  | poolLinkLoss => exact out_execPoolLinkLoss _ hwf
  | poolRequestTimeout => exact out_execPoolRequestTimeout _ hwf
  | regionEnable => exact out_execRegionEnable _ hwf
  | regionDisable => exact out_execRegionDisable _ hwf
  | regionDetachDone => exact out_execRegionDetachDone _ hwf
  | reattach => exact out_execReattach _ hwf
  | release => exact out_execRelease _ hwf
  | clearlog => exact out_execClearlog _ hwf
  | decoderCheck => exact out_execDecoderCheck _ hwf
  | lockRequestResend => exact out_execLockRequestResend _ hwf
  | lockRequestAccept => exact out_execLockRequestAccept _ hwf
  | lockTimeout => exact out_execLockTimeout _ hwf
  | lockRelease => exact out_execLockRelease _ hwf
  | holdLimit => exact out_execHoldLimit _ hwf
  | deadlockProbe => exact out_execDeadlockProbe _ hwf
  | scratchpadPortAccess => exact out_execScratchpadPortAccess _ hwf
  | scoreboardRelease => exact out_execScoreboardRelease _ hwf
  | traceRingControl => exact out_execTraceRingControl _ hwf
  | clr => exact out_execClr _ hwf
  | engineCommandStart => exact out_execEngineCommandStart _ hwf
  | enginePiece => exact out_execEnginePiece _ hwf
  | engineCommandStop => exact out_execEngineCommandStop _ hwf
  | exchangeForm => exact out_execExchangeForm _ hwf
  | exchangeRound => exact out_execExchangeRound _ hwf
  | exchTimeout => exact out_execExchTimeout _ hwf
  | resumeCommand => exact out_execResumeCommand _ hwf
  | cancel => exact out_execCancel _ hwf
  | arrayCommandStart => exact out_execArrayCommandStart _ hwf
  | arrayRowCommit => exact out_execArrayRowCommit _ hwf
  | raggedRowJoin => exact out_execRaggedRowJoin _ hwf
  | arrayCommandComplete => exact out_execArrayCommandComplete _ hwf
  | leaseArbitration => exact out_execLeaseArbitration _ hwf
  | handOverSave => exact out_execHandOverSave _ hwf
  | handOverRestore => exact out_execHandOverRestore _ hwf
  | columnRemap => exact out_execColumnRemap _ hwf
  | chunkDepart => exact out_execChunkDepart _ hwf
  | switchReduce => exact out_execSwitchReduce _ hwf
  | homeReduce => exact out_execHomeReduce _ hwf
  | collectiveLanding => exact out_execCollectiveLanding _ hwf
  | communicatorWrite => exact out_execCommunicatorWrite _ hwf
  | communicatorDisable => exact out_execCommunicatorDisable _ hwf
  | messageArrival => exact out_execMessageArrival _ hwf
  | creditRequest => exact out_execCreditRequest _ hwf
  | creditGrant => exact out_execCreditGrant _ hwf
  | creditReturn => exact out_execCreditReturn _ hwf
  | sendTimeout => exact out_execSendTimeout _ hwf
  | handlerStart => exact out_execHandlerStart _ hwf
  | queueStart => exact out_execQueueStart _ hwf
  | drain => exact out_execDrain _ hwf
  | abort => exact out_execAbort _ hwf
  | reset => exact out_execReset _ hwf
  | tail => exact out_execTail _ hwf
  | recordTake => exact out_execRecordTake _ hwf
  | semaphoreRound => exact out_execSemaphoreRound _ hwf
  | dispatch => exact out_execDispatch _ hwf
  | launchComplete => exact out_execLaunchComplete _ hwf
  | abortTeardownDone => exact out_execAbortTeardownDone _ hwf
  | drainDone => exact out_execDrainDone _ hwf
  | preempt => exact out_execPreempt _ hwf
  | contextRestore => exact out_execContextRestore _ hwf
  | restart => exact out_execRestart _ hwf
  | clear => exact out_execClear _ hwf
  | install => exact out_execInstall _ hwf
  | remove => exact out_execRemove _ hwf
  | read => exact out_execRead _ hwf
  | legendUpdate => exact out_execLegendUpdate _ hwf
  | epochAck => exact out_execEpochAck _ hwf
  | legendWindowEnd => exact out_execLegendWindowEnd _ hwf
  | rbarFlip => exact out_execRbarFlip _ hwf
  | replicaFree => exact out_execReplicaFree _ hwf
  | tombstoneEnd => exact out_execTombstoneEnd _ hwf
  | tokenArrival => exact out_execTokenArrival _ hwf
  | tokenAcceptance => exact out_execTokenAcceptance _ hwf
  | slotCreditRequest => exact out_execSlotCreditRequest _ hwf
  | tokenCreditTimeout => exact out_execTokenCreditTimeout _ hwf
  | pageCloseTimeout => exact out_execPageCloseTimeout _ hwf
  | resultRowLanding => exact out_execResultRowLanding _ hwf
  | joinCopy => exact out_execJoinCopy _ hwf
  | errorDetected => exact out_execErrorDetected _ hwf
  | selfTestDone => exact out_execSelfTestDone _ hwf
  | linkReplayFailure => exact out_execLinkReplayFailure _ hwf
  | heartbeat => exact out_execHeartbeat _ hwf
  | heartbeatMiss => exact out_execHeartbeatMiss _ hwf
  | fenceNode => exact out_execFenceNode _ hwf
  | unfence => exact out_execUnfence _ hwf
  | watchdog => exact out_execWatchdog _ hwf
  | forcelost => exact out_execForcelost _ hwf
  | reload => exact out_execReload _ hwf
  | telemetry => exact out_execTelemetry _ hwf
  | thermalThrottle => exact out_execThermalThrottle _ hwf
  | resetRelease => exact out_execResetRelease _ hwf
  | bar2Access => exact out_execBar2Access _ hwf
  | controlRegisterWrite => exact out_execControlRegisterWrite _ hwf
  | wfeTimeout => exact out_execWfeTimeout _ hwf
  | linkTraining => exact out_execLinkTraining _ hwf
  | poolDeviceResponse => exact out_execPoolDeviceResponse _ hwf
  | markEviction => exact out_execMarkEviction _ hwf

theorem out_step (s : State) (hwf : Wf s) : OutWf (step s) := by
  have hplan := plan_plan s hwf
  unfold step
  split
  · next h =>
    rw [h] at hplan
    exact out_tickOut _ (out_exec _ _ hplan)
  · next h =>
    rw [h] at hplan
    exact wf_of_mem (s := _) hplan (mem_tick ..)

/-- Settles O60: each operation writes memory through the model's own byte functions, which keep the form. -/
theorem everyStepKeepsTheMemoryCanonical : Obligations.EveryStepKeepsTheMemoryCanonical := by
  intro s t hwf h
  have hnext := out_step s hwf
  rw [h] at hnext
  exact hnext

end Sys2Proof.Canon
end

section
/-! Every instruction and every step has a next state: what ends an instruction, a trap, a wait or a completion, is a state. -/

namespace Sys2Proof.Next
set_option Elab.async false
open Sys2Proof Sys2Proof.Machine

/-- The outcome is a next state. -/
def HasNext (o : Out) : Prop := ∃ t, o = .next t

theorem hasNext_next (t : State) : HasNext (.next t) := ⟨t, rfl⟩

theorem hasNext_ite {c : Prop} [Decidable c] {o p : Out} (ho : HasNext o) (hp : HasNext p) : HasNext (if c then o else p) := by
  split
  · exact ho
  · exact hp

theorem hasNext_finish (i : Instr) (s : State) (r : Res) : HasNext (finish i s r) := finish_next i s r

theorem hasNext_finishJump (i : Instr) (s : State) (r : Except Stop (State × Option Word)) : HasNext (finishJump i s r) :=
  finishJump_next i s r

theorem hasNext_governed (i : Instr) (g : Bool) (s : State) {o : Out} (ho : HasNext o) : HasNext (governed i g s o) :=
  hasNext_ite (hasNext_finish ..) ho

theorem hasNext_governed_finish (i j : Instr) (g : Bool) (s : State) (r : Res) : HasNext (governed i g s (finish j s r)) :=
  hasNext_governed _ _ _ (hasNext_finish ..)

theorem hasNext_sysOnly (i : Instr) (word : Nat) (s : State) {o : Out} (ho : HasNext o) : HasNext (sysOnly i word s o) :=
  hasNext_ite ho (hasNext_finish ..)

theorem hasNext_xSystem (i : Instr) (word : Nat) (s : State) (r : Res) : HasNext (xSystem i word s r) :=
  hasNext_ite (hasNext_finish ..) (hasNext_sysOnly _ _ _ (hasNext_finish ..))

theorem hasNext_loadInstr (i : Instr) (form : Nat) (d : Reg) (va : Word) (typ : Nat) (s : State) : HasNext (loadInstr i form d va typ s) :=
  hasNext_ite (hasNext_finish ..) (hasNext_finish ..)

theorem hasNext_storeInstr (i : Instr) (form : Nat) (v : Reg) (va : Word) (typ : Nat) (s : State) : HasNext (storeInstr i form v va typ s) :=
  hasNext_ite (hasNext_finish ..) (hasNext_finish ..)

theorem hasNext_csrAccess (i : Instr) (word : Nat) (writes : Bool) (f : Word → Word) (d : Reg) (c : BitVec 12) (s : State) :
    HasNext (csrAccess i word writes f d c s) := by
  unfold csrAccess
  split
  · exact hasNext_finish ..
  · split
    · exact hasNext_finish ..
    · exact hasNext_ite (hasNext_finish ..) (hasNext_finish ..)
    · exact hasNext_ite (hasNext_next _) (hasNext_finish ..)

theorem hasNext_quit (s : State) : HasNext (execQuit s) :=
  hasNext_ite (hasNext_finish ..) (hasNext_ite (hasNext_finish ..) (hasNext_ite (hasNext_finish ..) (hasNext_next _)))

theorem hasNext_yield (s : State) : HasNext (execYield s) := by
  unfold execYield
  split
  · exact hasNext_next _
  · exact hasNext_finish ..

theorem hasNext_selfTestDone (s : State) : HasNext (execSelfTestDone s) := hasNext_ite (hasNext_next _) (hasNext_next _)

theorem hasNext_scal (g : Bool) (d a b : Reg) (s : State) : HasNext (execScal g d a b s) := by
  unfold execScal
  exact hasNext_ite (hasNext_governed_finish ..) (hasNext_ite (hasNext_governed_finish ..) (hasNext_governed_finish ..))

theorem hasNext_execGoverned (i : Instr) (s : State) : HasNext (execGoverned i s) := by
  cases i with
  | vadd | vsub | vmul | vfma | vfms | vaddsc | vsubsc | vmulsc | vfmasc | vredsum | vmin | vmax | vminsc | vmaxsc |
    vredmax | vredmin | vcmp | vabs | vneg | vand | vor | vxor | vsll | vsrl | vsra | vmulh | vaddsat | vsubsat | vmov
    | vsplat | vins | vext | vperm | vrot | vsort | vdupm | vcompr | vexpnd | vsplati | vdiv | vsqrt | vrsq | vrcp |
    vexp2 | vlog2 | vsel | pand | por | pnot | pcnt | flt | feq | fclass | vcvt | fadd | fsub | fmul | fmac | fdiv |
    fsqrt | fmin | fmax | fcvti | fcvtf | amofadd | emma | emmd =>
      dsimp only [execGoverned]
      exact hasNext_governed_finish _ _ _ _ _
  | scal =>
      dsimp only [execGoverned]
      exact hasNext_scal _ _ _ _ _
  | _ => exact hasNext_finish _ _ _

theorem hasNext_runPair (p : Pfx) (i : Instr) (s : State) : HasNext (runPair p i s) :=
  hasNext_ite (hasNext_next _) (hasNext_execGoverned _ _)

theorem hasNext_pairDecoded (p : Pfx) (w pay : Nat) (s : State) : HasNext (pairDecoded p w pay s) := by
  unfold pairDecoded
  dsimp only
  split
  · exact hasNext_next _
  · split
    · exact hasNext_next _
    · exact hasNext_ite (hasNext_runPair ..) (hasNext_next _)

theorem hasNext_pairFetch (p : Pfx) (s : State) : HasNext (pairFetch p s) := by
  unfold pairFetch
  split
  · exact hasNext_next _
  · refine hasNext_ite (hasNext_next _) (hasNext_ite ?_ (hasNext_pairDecoded ..))
    split
    · exact hasNext_next _
    · exact hasNext_pairDecoded ..

theorem hasNext_pfx (rnd : BitVec 3) (sat : Bool) (nanp : BitVec 2) (ovr : BitVec 4) (scale : Bool) (sreg : Reg) (s : State) :
    HasNext (execPfx rnd sat nanp ovr scale sreg s) := by
  refine hasNext_ite (hasNext_next _) ?_
  split
  · exact hasNext_pairFetch ..
  · exact hasNext_runPair ..
  · exact hasNext_pairFetch ..

theorem hasNext_exec (i : Instr) (s : State) : HasNext (exec i s) := by
  cases i with
  | pfx =>
      dsimp only [exec]
      exact hasNext_pfx _ _ _ _ _ _ _
  | add | sub | and | or | xor | sll | srl | sra | slt | sltu | min | max | minu | maxu | addw | subw | andn | orn |
    rol | ror | addi | andi | ori | xori | slli | srli | srai | rori | slti | mul | mulh | mulhu | div | divu | rem |
    remu | mulw | clz | ctz | popc | ldhi | addpc | ldi | ldiu | addil | beq | bne | blt | bge | bltu | bgeu | jal |
    jl | gr | lstat | ctxid | wid | hstat | slotSwitch | issueQuantum | vectorBind | vectorResultWrite |
    memoryReturnWrite | returnStarvation | streamElementFetch | streamAppendPerformed | coherentRequestAtHome |
    dirtyWriteback | setAd | walkMigratingTimeout | migrationHoldTimeout | nearMemoryForward | nearMemoryApply |
    nearMemoryAck | nearMemoryReturn | patrolScrub | contentionDecay | bisnpinv | bisnpdata | bisnpcur | poolLinkLoss
    | poolRequestTimeout | regionEnable | regionDisable | regionDetachDone | reattach | release | clearlog |
    decoderCheck | lockRequestResend | lockRequestAccept | lockTimeout | lockRelease | holdLimit | deadlockProbe |
    scratchpadPortAccess | scoreboardRelease | traceRingControl | clr | engineCommandStart | enginePiece |
    engineCommandStop | exchangeForm | exchangeRound | exchTimeout | resumeCommand | cancel | arrayCommandStart |
    arrayRowCommit | raggedRowJoin | arrayCommandComplete | leaseArbitration | handOverSave | handOverRestore |
    columnRemap | chunkDepart | switchReduce | homeReduce | collectiveLanding | communicatorWrite |
    communicatorDisable | messageArrival | creditRequest | creditGrant | creditReturn | sendTimeout | handlerStart |
    queueStart | drain | abort | reset | tail | recordTake | semaphoreRound | dispatch | launchComplete |
    abortTeardownDone | drainDone | preempt | contextRestore | restart | clear | install | remove | read |
    legendUpdate | epochAck | legendWindowEnd | rbarFlip | replicaFree | tombstoneEnd | tokenArrival | tokenAcceptance
    | slotCreditRequest | tokenCreditTimeout | pageCloseTimeout | resultRowLanding | joinCopy | errorDetected |
    linkReplayFailure | heartbeat | heartbeatMiss | fenceNode | unfence | watchdog | forcelost | reload | telemetry |
    thermalThrottle | resetRelease | bar2Access | controlRegisterWrite | wfeTimeout | linkTraining |
    poolDeviceResponse | markEviction =>
      dsimp only [exec]
      exact hasNext_next _
  | bfx | bfxs | bfi | ldv | ldvx | ldvb | stv | stvx | amoadd | amoand | amoor | amoxor | amomin | amomax | amominu |
    amomaxu | amoswap | amocas | amofmin | amofmax | nmadd | nmfadd | nmmax | nmmin | nmor | lkacq | lktry | lkrel |
    lkstat | fence | xprobe | synci | trap | brk | sbind | sunbind | sstat | gw | gclr | ecpy | egth | esct | exch |
    emmz | ecoll | etopk | eclone | enmsc | eptab | lease | unlease | bbinit | bbexp | bbwait | bbtest | phnew | phreg
    | phdrop | phsig | phwait | phsw | phq | start | startp | widf | joinh | send | sendv | sendb | mpop | mpopv |
    mpeek | mbind | mfree | tsend | tbwd | tret | xquery | xjoin | xver | xcreate | xretire | shape | objrel | objmode
    =>
      dsimp only [exec]
      exact hasNext_finish _ _ _
  | jalr | loop =>
      dsimp only [exec]
      exact hasNext_finishJump _ _ _
  | lb | lbu | lh | lhu | lw | lwu | ld | ldl =>
      dsimp only [exec]
      exact hasNext_loadInstr _ _ _ _ _ _
  | sb | sh | sw | sd | stl =>
      dsimp only [exec]
      exact hasNext_storeInstr _ _ _ _ _ _
  | amofadd | vadd | vsub | vmul | vfma | vfms | vmin | vmax | vabs | vneg | vand | vor | vxor | vsll | vsrl | vsra |
    vdiv | vsqrt | vrsq | vrcp | vexp2 | vlog2 | vmulh | vaddsat | vsubsat | vmov | vaddsc | vsubsc | vmulsc | vfmasc
    | vminsc | vmaxsc | vsplat | vins | vext | vsplati | vcvt | vredsum | vredmax | vredmin | vperm | vrot | vsort |
    vdupm | vcompr | vexpnd | vcmp | vsel | pand | por | pnot | pcnt | emma | emmd | fadd | fsub | fmul | fmac | fdiv
    | fsqrt | fmin | fmax | fcvti | fcvtf | flt | feq | fclass =>
      dsimp only [exec]
      exact hasNext_governed_finish _ _ _ _ _
  | xinv | xinvas | xmig =>
      dsimp only [exec]
      exact hasNext_xSystem _ _ _ _
  | survey =>
      dsimp only [exec]
      exact hasNext_ite (hasNext_sysOnly _ _ _ (hasNext_finish _ _ _)) (hasNext_finish _ _ _)
  | eret =>
      dsimp only [exec]
      exact hasNext_sysOnly _ _ _ (hasNext_finishJump _ _ _)
  | wfe | resume =>
      dsimp only [exec]
      exact hasNext_sysOnly _ _ _ (hasNext_finish _ _ _)
  | halt =>
      dsimp only [exec]
      exact hasNext_sysOnly _ _ _ (hasNext_next _)
  | csrrw | csrrs | csrrc =>
      dsimp only [exec]
      exact hasNext_csrAccess _ _ _ _ _ _ _
  | quit =>
      dsimp only [exec]
      exact hasNext_quit _
  | yield =>
      dsimp only [exec]
      exact hasNext_yield _
  | scal =>
      dsimp only [exec]
      exact hasNext_scal _ _ _ _ _
  | selfTestDone =>
      dsimp only [exec]
      exact hasNext_selfTestDone _

theorem hasNext_tickOut {o : Out} (ho : HasNext o) : HasNext (tickOut o) := by
  obtain ⟨t, rfl⟩ := ho
  exact hasNext_next _

/-- Settles O6: a step runs an instruction, which has a next state, or goes on by itself. -/
theorem everyStepHasANextState : Obligations.EveryStepHasANextState := by
  intro s
  unfold step
  split
  · exact hasNext_tickOut (hasNext_exec _ _)
  · exact hasNext_next _

end Sys2Proof.Next
end

section
/-! The scalar integer operations compute the stated arithmetic, and complete with it as their one result. -/

namespace Sys2Proof.Scalar
set_option Elab.async false
open Sys2Proof Sys2Proof.Machine Sys2Proof.Safety

/-! ## The values -/

theorem word_add (a b : Word) : a + b = BitVec.ofNat 64 (a.toNat + b.toNat) := by simp [BitVec.ofNat_add]
theorem word_sub (a b : Word) : a - b = BitVec.ofInt 64 (a.toInt - b.toInt) := by
  apply BitVec.eq_of_toInt_eq
  rw [BitVec.toInt_sub, BitVec.toInt_ofInt]
theorem word_add_int (a : Word) (i : Int) : a + BitVec.ofInt 64 i = BitVec.ofInt 64 (a.toInt + i) := by
  rw [BitVec.ofInt_add, BitVec.ofInt_toInt]
theorem imm14_ofInt (i : BitVec 14) : imm14 i = BitVec.ofInt 64 i.toInt := rfl
theorem imm14_toInt (i : BitVec 14) : (imm14 i).toInt = i.toInt := BitVec.toInt_signExtend_of_le (by decide)
theorem shiftRight_ofNat (a : Word) (n : Nat) : a >>> n = BitVec.ofNat 64 (a.toNat / 2 ^ n) := by
  apply BitVec.eq_of_toNat_eq
  rw [BitVec.toNat_ushiftRight, Nat.shiftRight_eq_div_pow, BitVec.toNat_ofNat,
    Nat.mod_eq_of_lt (Nat.lt_of_le_of_lt (Nat.div_le_self ..) a.isLt)]
theorem sshiftRight_ofInt (a : Word) (n : Nat) : a.sshiftRight n = BitVec.ofInt 64 (a.toInt / 2 ^ n) := by
  rw [← BitVec.ofInt_toInt (x := a.sshiftRight n), BitVec.toInt_sshiftRight, Int.shiftRight_eq_div_pow]
  norm_cast
theorem boolW_slt (a b : Word) : boolW (a.slt b) = if a.toInt < b.toInt then 1 else 0 := by
  simp [boolW, BitVec.slt]
theorem boolW_ult (a b : Word) : boolW (a.ult b) = if a.toNat < b.toNat then 1 else 0 := by
  simp [boolW, BitVec.ult]
theorem signed_min (a b : Word) : (if b.slt a then b else a) = BitVec.ofInt 64 (min a.toInt b.toInt) := by
  simp only [BitVec.slt, decide_eq_true_eq]
  split
  · rw [min_eq_right (by omega), BitVec.ofInt_toInt]
  · rw [min_eq_left (by omega), BitVec.ofInt_toInt]
theorem signed_max (a b : Word) : (if a.slt b then b else a) = BitVec.ofInt 64 (max a.toInt b.toInt) := by
  simp only [BitVec.slt, decide_eq_true_eq]
  split
  · rw [max_eq_right (by omega), BitVec.ofInt_toInt]
  · rw [max_eq_left (by omega), BitVec.ofInt_toInt]
theorem unsigned_min (a b : Word) : (if b.ult a then b else a) = BitVec.ofNat 64 (min a.toNat b.toNat) := by
  simp only [BitVec.ult, decide_eq_true_eq]
  split
  · rw [min_eq_right (by omega), BitVec.ofNat_toNat, BitVec.setWidth_eq]
  · rw [min_eq_left (by omega), BitVec.ofNat_toNat, BitVec.setWidth_eq]
theorem unsigned_max (a b : Word) : (if a.ult b then b else a) = BitVec.ofNat 64 (max a.toNat b.toNat) := by
  simp only [BitVec.ult, decide_eq_true_eq]
  split
  · rw [max_eq_right (by omega), BitVec.ofNat_toNat, BitVec.setWidth_eq]
  · rw [max_eq_left (by omega), BitVec.ofNat_toNat, BitVec.setWidth_eq]
theorem sextW_add (a b : Word) : sextW (a + b) = (BitVec.ofNat 32 (a.toNat + b.toNat)).signExtend 64 := by
  rw [word_add, sextW, BitVec.setWidth_ofNat_of_le (by decide)]
theorem setWidth_ofInt_word (k : Int) : (BitVec.ofInt 64 k).setWidth 32 = BitVec.ofInt 32 k := by
  apply BitVec.eq_of_toNat_eq
  rw [BitVec.toNat_setWidth, BitVec.toNat_ofInt, BitVec.toNat_ofInt]
  omega
theorem sextW_sub (a b : Word) : sextW (a - b) = (BitVec.ofInt 32 (a.toInt - b.toInt)).signExtend 64 := by
  rw [word_sub, sextW, setWidth_ofInt_word]
theorem word_mul (a b : Word) : a * b = BitVec.ofNat 64 (a.toNat * b.toNat) := by simp [BitVec.ofNat_mul]
theorem sextW_mul (a b : Word) : sextW (a * b) = (BitVec.ofNat 32 (a.toNat * b.toNat)).signExtend 64 := by
  rw [word_mul, sextW, BitVec.setWidth_ofNat_of_le (by decide)]
theorem sdiv_ofInt (a b : Word) : a.sdiv b = BitVec.ofInt 64 (a.toInt.tdiv b.toInt) := by
  apply BitVec.eq_of_toInt_eq
  rw [BitVec.toInt_sdiv, BitVec.toInt_ofInt]
theorem srem_ofInt (a b : Word) : a - b * a.sdiv b = BitVec.ofInt 64 (a.toInt.tmod b.toInt) := by
  rw [sdiv_ofInt, Int.tmod_def, Int.sub_eq_add_neg, ← word_add_int, BitVec.ofInt_neg, BitVec.ofInt_mul, BitVec.ofInt_toInt,
    BitVec.sub_eq_add_neg]
theorem udiv_ofNat (a b : Word) : a.udiv b = BitVec.ofNat 64 (a.toNat / b.toNat) := by
  apply BitVec.eq_of_toNat_eq
  rw [BitVec.udiv_eq, BitVec.toNat_udiv, BitVec.toNat_ofNat, Nat.mod_eq_of_lt (Nat.lt_of_le_of_lt (Nat.div_le_self ..) a.isLt)]
theorem umod_ofNat (a b : Word) : a - b * a.udiv b = BitVec.ofNat 64 (a.toNat % b.toNat) := by
  have hdiv : b * a.udiv b + BitVec.ofNat 64 (a.toNat % b.toNat) = a := by
    rw [udiv_ofNat]
    calc b * BitVec.ofNat 64 (a.toNat / b.toNat) + BitVec.ofNat 64 (a.toNat % b.toNat)
        = BitVec.ofNat 64 (b.toNat * (a.toNat / b.toNat) + a.toNat % b.toNat) := by simp [BitVec.ofNat_add, BitVec.ofNat_mul]
      _ = a := by rw [Nat.div_add_mod, BitVec.ofNat_toNat, BitVec.setWidth_eq]
  exact BitVec.sub_eq_iff_eq_add.mpr (by rw [BitVec.add_comm, hdiv])

/-- An instruction that writes one X register completes with that one result. -/
theorem completes_writeX {i : Instr} {d : Reg} {v w : Word} {s : State} (h : exec i s = writeX i d v s) (e : v = w) :
    Completes i s (ResultX d w s) := by
  subst e
  unfold Completes
  rw [h]
  exact writeX_result i d v s

/-! ## Bit fields (R264, R265) -/

/-- The words that the bit-field instructions give their traps are their own. -/
theorem bitFieldWord_eq_encodeFirst (d a : Reg) (p w : BitVec 6) :
    bitFieldWord 0 d a p w = encodeFirst (.bfx d a p w) ∧ bitFieldWord 1 d a p w = encodeFirst (.bfxs d a p w) ∧
    bitFieldWord 2 d a p w = encodeFirst (.bfi d a p w) := by
  have hx : encodeFirst (.bfx d a p w) = 36 + d.toNat * 256 + a.toNat * 8192 + p.toNat * 262144 + w.toNat * 16777216 := rfl
  have hs : encodeFirst (.bfxs d a p w) = 1073741860 + d.toNat * 256 + a.toNat * 8192 + p.toNat * 262144 + w.toNat * 16777216 := rfl
  have hi : encodeFirst (.bfi d a p w) = 2147483684 + d.toNat * 256 + a.toNat * 8192 + p.toNat * 262144 + w.toNat * 16777216 := rfl
  rw [hx, hs, hi]
  unfold bitFieldWord
  omega

theorem exec_bfx (s : State) (d a : Reg) (p w : BitVec 6) : exec (.bfx d a p w) s =
    bitField (.bfx d a p w) (bitFieldWord 0 d a p w) d w p (fun lo n => BitVec.ofNat 64 (fieldW (s.X a) lo n)) s := rfl
theorem exec_bfxs (s : State) (d a : Reg) (p w : BitVec 6) : exec (.bfxs d a p w) s =
    bitField (.bfxs d a p w) (bitFieldWord 1 d a p w) d w p (fun lo n => sextN (fieldW (s.X a) lo n) n) s := rfl
theorem exec_bfi (s : State) (d a : Reg) (p w : BitVec 6) : exec (.bfi d a p w) s =
    bitField (.bfi d a p w) (bitFieldWord 2 d a p w) d w p (fun lo n => insertField (s.X d) (s.X a) lo n) s := rfl

/-- Inside the register a bit-field instruction writes its one result. -/
theorem bitField_of_inside (i : Instr) (word : Nat) (d : Reg) {w p : BitVec 6} (f : Nat → Nat → Word) (s : State)
    (h : p.toNat + w.toNat < 64) : bitField i word d w p f s = writeX i d (f p.toNat (w.toNat + 1)) s := by
  unfold bitField
  rw [if_neg (by omega)]
  rfl

/-- A field that leaves the register is illegal. -/
theorem bitField_of_outside (i : Instr) (word : Nat) (d : Reg) {w p : BitVec 6} (f : Nat → Nat → Word) (s : State)
    (h : 64 ≤ p.toNat + w.toNat) : bitField i word d w p f s = finish i s (raise .illegalInstr (wordOf word)) := by
  unfold bitField
  rw [if_pos (by omega)]

/-- The sign-extended field is the balanced remainder. -/
theorem sextN_eq_bmod (v n : Nat) : sextN (v % 2 ^ (n + 1)) (n + 1) = BitVec.ofInt 64 (Int.bmod v (2 ^ (n + 1))) := by
  have hpow : 2 ^ (n + 1) = 2 * 2 ^ n := by rw [Nat.pow_succ, Nat.mul_comm]
  have hlt : v % (2 * 2 ^ n) < 2 * 2 ^ n := Nat.mod_lt _ (by positivity)
  have htop : v % (2 * 2 ^ n) / 2 ^ n % 2 = 1 ↔ 2 ^ n ≤ v % (2 * 2 ^ n) := by
    rw [Nat.mod_eq_of_lt (Nat.div_lt_of_lt_mul (by rwa [Nat.mul_comm (2 ^ n)])), Nat.div_eq_iff (by positivity)]
    omega
  simp only [sextN, fieldN, Nat.add_sub_cancel, Nat.mod_mod, hpow, pow_one, htop, Int.bmod]
  congr 1
  have hcast : ((v : Int) % ((2 * 2 ^ n : Nat) : Int)) = ((v % (2 * 2 ^ n) : Nat) : Int) := (Int.natCast_emod ..).symm
  rw [hcast]
  generalize v % (2 * 2 ^ n) = r at *
  have hint : (2 : Int) ^ (n + 1) = ((2 * 2 ^ n : Nat) : Int) := by rw [← hpow]; norm_cast
  rw [hint]
  split <;> split <;> omega

/-- Bit `k` after an insertion: a bit of `a` inside the field, and outside it the bit that was there. -/
theorem getLsbD_insertField (x a : Word) (p w k : Nat) (hpw : p + w < 64) (hk : k < 64) :
    (insertField x a p (w + 1)).getLsbD k = if p ≤ k ∧ k ≤ p + w then a.getLsbD (k - p) else x.getLsbD k := by
  have hmask : ∀ j, (BitVec.ofNat 64 (2 ^ (w + 1) - 1)).getLsbD j = decide (j < w + 1) := by
    intro j
    rw [BitVec.getLsbD_ofNat, Nat.testBit_two_pow_sub_one]
    by_cases hj : j < w + 1
    · simp [hj]; omega
    · simp [hj]
  simp only [insertField, BitVec.getLsbD_or, BitVec.getLsbD_and, BitVec.getLsbD_not, BitVec.getLsbD_shiftLeft, hmask]
  by_cases hlo : p ≤ k
  · by_cases hhi : k ≤ p + w
    · simp [hlo, hhi, hk, show ¬ k < p by omega, show k ≤ w + p by omega]
    · simp [hlo, hhi, hk, show ¬ k < p by omega, show ¬ k ≤ w + p by omega]
  · simp [hlo, hk, show k < p by omega]

/-! ## Counts (R265) -/

/-- `leadingZeros` counts the zero bits from bit `k - 1` down to the first 1 bit. -/
theorem leadingZeros_spec (w : Word) (k : Nat) :
    leadingZeros w k ≤ k ∧ (∀ j, j < leadingZeros w k → w.getLsbD (k - 1 - j) = false) ∧
    (leadingZeros w k < k → w.getLsbD (k - 1 - leadingZeros w k) = true) := by
  induction k with
  | zero => simp [leadingZeros]
  | succ k ih =>
    obtain ⟨hle, hzero, hone⟩ := ih
    unfold leadingZeros
    split
    next h => simp [h]
    next h =>
      refine ⟨by omega, fun j hj => ?_, fun hlt => ?_⟩
      · cases j with
        | zero => simpa using h
        | succ j =>
          have := hzero j (by omega)
          rwa [show k + 1 - 1 - (j + 1) = k - 1 - j by omega]
      · have := hone (by omega)
        rwa [show k + 1 - 1 - (1 + leadingZeros w k) = k - 1 - leadingZeros w k by omega]

/-- `trailingZeros` counts the zero bits from bit `k` up to the first 1 bit, `n` bits left. -/
theorem trailingZeros_spec (w : Word) (k n : Nat) :
    trailingZeros w k n ≤ n ∧ (∀ j, j < trailingZeros w k n → w.getLsbD (k + j) = false) ∧
    (trailingZeros w k n < n → w.getLsbD (k + trailingZeros w k n) = true) := by
  induction n generalizing k with
  | zero => simp [trailingZeros]
  | succ n ih =>
    obtain ⟨hle, hzero, hone⟩ := ih (k + 1)
    unfold trailingZeros
    split
    next h => simp [h]
    next h =>
      refine ⟨by omega, fun j hj => ?_, fun hlt => ?_⟩
      · cases j with
        | zero => simpa using h
        | succ j =>
          have := hzero j (by omega)
          rwa [show k + (j + 1) = k + 1 + j by omega]
      · have := hone (by omega)
        rwa [show k + (1 + trailingZeros w (k + 1) n) = k + 1 + trailingZeros w (k + 1) n by omega]

/-- `popCount` counts the 1 bits. -/
theorem popCount_eq_countP (w : Word) (n : Nat) : popCount w n = (List.range n).countP (fun k => w.getLsbD k) := by
  induction n with
  | zero => rfl
  | succ n ih =>
    rw [popCount, ih, List.range_succ, List.countP_append, List.countP_singleton, Nat.add_comm]
    cases w.getLsbD n <;> rfl

/-- Settles O7: each operation is one write of X(rd), whose value is the stated arithmetic. -/
theorem scalarOperationsWriteTheirResult : Obligations.ScalarOperationsWriteTheirResult := by
  refine ⟨fun s d a b => ⟨?_, ?_, ?_, ?_, ?_, ?_, ?_, ?_, ?_, ?_, ?_, ?_, ?_, ?_, ?_, ?_, ?_, ?_, ?_, ?_⟩,
    fun s d a i n => ⟨?_, ?_, ?_, ?_, ?_, ?_, ?_, ?_, ?_⟩⟩
  · exact completes_writeX rfl (word_add _ _)
  · exact completes_writeX rfl (word_sub _ _)
  · exact completes_writeX rfl rfl
  · exact completes_writeX rfl rfl
  · exact completes_writeX rfl rfl
  · exact completes_writeX rfl rfl
  · exact completes_writeX rfl rfl
  · exact completes_writeX rfl rfl
  · exact completes_writeX rfl (shiftRight_ofNat _ _)
  · exact completes_writeX rfl (sshiftRight_ofInt _ _)
  · exact completes_writeX rfl (boolW_slt _ _)
  · exact completes_writeX rfl (boolW_ult _ _)
  · exact completes_writeX rfl (signed_min _ _)
  · exact completes_writeX rfl (signed_max _ _)
  · exact completes_writeX rfl (unsigned_min _ _)
  · exact completes_writeX rfl (unsigned_max _ _)
  · exact completes_writeX rfl (sextW_add _ _)
  · exact completes_writeX rfl (sextW_sub _ _)
  · exact completes_writeX rfl (by simp [BitVec.rotateLeft_def, shamt])
  · exact completes_writeX rfl (by simp [BitVec.rotateRight_def, shamt])
  · exact completes_writeX rfl (word_add_int _ _)
  · exact completes_writeX rfl rfl
  · exact completes_writeX rfl rfl
  · exact completes_writeX rfl rfl
  · exact completes_writeX rfl ((boolW_slt _ _).trans (by rw [imm14_toInt]))
  · exact completes_writeX rfl rfl
  · exact completes_writeX rfl (shiftRight_ofNat _ _)
  · exact completes_writeX rfl (sshiftRight_ofInt _ _)
  · exact completes_writeX rfl (by simp [BitVec.rotateRight_def, Nat.mod_eq_of_lt n.isLt])

/-- Settles O8: products, quotients and remainders of the two's-complement or natural values. -/
theorem multiplyAndDivideResults : Obligations.MultiplyAndDivideResults := by
  intro s d a b
  refine ⟨completes_writeX rfl (word_mul _ _), completes_writeX rfl rfl, completes_writeX rfl rfl,
    completes_writeX rfl (sextW_mul _ _), completes_writeX rfl ?_, completes_writeX rfl ?_, completes_writeX rfl ?_, completes_writeX rfl ?_⟩
  · rw [← sdiv_ofInt]; rfl
  · rw [← udiv_ofNat]; rfl
  · unfold remS divS
    split
    · rfl
    · exact srem_ofInt _ _
  · unfold remU divU
    split
    · rfl
    · exact umod_ofNat _ _

/-- Settles O9. -/
theorem constantsBitFieldsAndCounts : Obligations.ConstantsBitFieldsAndCounts := by
  refine ⟨fun s d a i m => ⟨?_, ?_, ?_, ?_, ?_⟩, fun s d a p w => ⟨fun h => ⟨?_, ?_, ?_⟩, fun h => ?_⟩, fun s d a => ⟨?_, ?_, ?_⟩⟩
  · refine completes_writeX rfl ?_
    rw [BitVec.ofInt_mul]; rfl
  · refine completes_writeX rfl ?_
    rw [← word_add_int, Int.mul_comm, BitVec.ofInt_mul]; rfl
  · exact completes_writeX rfl rfl
  · exact completes_writeX rfl (BitVec.ofNat_toNat ..).symm
  · exact completes_writeX rfl (word_add_int _ _)
  · exact completes_writeX ((exec_bfx s d a p w).trans (bitField_of_inside _ _ _ _ _ h)) rfl
  · exact completes_writeX ((exec_bfxs s d a p w).trans (bitField_of_inside _ _ _ _ _ h)) (sextN_eq_bmod _ _)
  · obtain ⟨t, ht, honly, hx⟩ := completes_writeX ((exec_bfi s d a p w).trans (bitField_of_inside _ _ _ _ _ h)) rfl
    refine ⟨t, ht, honly, fun r hr => ?_, fun hd k hk => ?_⟩
    · rw [hx r, if_neg hr]
      split
      next h0 => subst h0; rfl
      next => rfl
    · rw [hx d, if_neg hd, if_pos rfl, getLsbD_insertField _ _ _ _ _ h hk]
  · obtain ⟨hx, hs, hi⟩ := bitFieldWord_eq_encodeFirst d a p w
    simp only [List.forall_mem_cons, List.not_mem_nil, false_imp_iff, implies_true, and_true, ← hx, ← hs, ← hi]
    exact ⟨(exec_bfx s d a p w).trans (bitField_of_outside _ _ _ _ _ h), (exec_bfxs s d a p w).trans (bitField_of_outside _ _ _ _ _ h),
      (exec_bfi s d a p w).trans (bitField_of_outside _ _ _ _ _ h)⟩
  · obtain ⟨hle, hzero, hone⟩ := leadingZeros_spec (s.X a) 64
    exact ⟨_, hle, hzero, hone, completes_writeX rfl rfl⟩
  · obtain ⟨hle, hzero, hone⟩ := trailingZeros_spec (s.X a) 0 64
    exact ⟨_, hle, fun k hk => Nat.zero_add k ▸ hzero k hk, fun h => by simpa using hone h, completes_writeX rfl rfl⟩
  · exact completes_writeX rfl (congrArg _ (popCount_eq_countP _ _))

end Sys2Proof.Scalar
end

section
/-! What the end of an instruction leaves: each register and unit is as the instruction made it. -/

namespace Sys2Proof.Ends
set_option Elab.async false
open Sys2Proof Sys2Proof.Machine Sys2Proof.Safety

/-! ## Retiring -/

theorem retire_c (u : State) (i : Instr) : (u.retire i).c = { (u.c.advance (instrBytes u i) u.pfx.isSome).unwait with
    st := .ready, instret := (u.c.advance (instrBytes u i) u.pfx.isSome).instret + 1 } := complete_c ..
theorem retireTo_c (u : State) (w : Word) : (u.retireTo w).c = { (u.c.jump w).unwait with st := .ready, instret := u.c.instret + 1 } := complete_c ..
@[simp] theorem retire_x (u : State) (i : Instr) : (u.retire i).c.x = u.c.x := by rw [retire_c]; simp [Ctx.unwait]
@[simp] theorem retire_v (u : State) (i : Instr) : (u.retire i).c.v = u.c.v := by rw [retire_c]; simp [Ctx.unwait]
@[simp] theorem retire_p (u : State) (i : Instr) : (u.retire i).c.p = u.c.p := by rw [retire_c]; simp [Ctx.unwait]
@[simp] theorem retire_g (u : State) (i : Instr) : (u.retire i).c.g = u.c.g := by rw [retire_c]; simp [Ctx.unwait]
@[simp] theorem retire_fpstat (u : State) (i : Instr) : (u.retire i).c.fpstat = u.c.fpstat := by rw [retire_c]; simp [Ctx.unwait]
@[simp] theorem retire_rmode (u : State) (i : Instr) : (u.retire i).c.rmode = u.c.rmode := by rw [retire_c]; simp [Ctx.unwait]
@[simp] theorem retire_srseed (u : State) (i : Instr) : (u.retire i).c.srseed = u.c.srseed := by rw [retire_c]; simp [Ctx.unwait]
@[simp] theorem retire_asid (u : State) (i : Instr) : (u.retire i).c.asid = u.c.asid := by rw [retire_c]; simp [Ctx.unwait]
@[simp] theorem retire_ptroot (u : State) (i : Instr) : (u.retire i).c.ptroot = u.c.ptroot := by rw [retire_c]; simp [Ctx.unwait]
@[simp] theorem retire_wscale6 (u : State) (i : Instr) : (u.retire i).c.wscale6 = u.c.wscale6 := by rw [retire_c]; simp [Ctx.unwait]
@[simp] theorem retire_wscale7 (u : State) (i : Instr) : (u.retire i).c.wscale7 = u.c.wscale7 := by rw [retire_c]; simp [Ctx.unwait]
@[simp] theorem retire_tcause (u : State) (i : Instr) : (u.retire i).c.tcause = u.c.tcause := by rw [retire_c]; simp [Ctx.unwait]
@[simp] theorem retire_tpc (u : State) (i : Instr) : (u.retire i).c.tpc = u.c.tpc := by rw [retire_c]; simp [Ctx.unwait]
@[simp] theorem retire_tval (u : State) (i : Instr) : (u.retire i).c.tval = u.c.tval := by rw [retire_c]; simp [Ctx.unwait]
@[simp] theorem retire_tinfo (u : State) (i : Instr) : (u.retire i).c.tinfo = u.c.tinfo := by rw [retire_c]; simp [Ctx.unwait]
@[simp] theorem retire_ports (u : State) (i : Instr) : (u.retire i).c.ports = u.c.ports := by rw [retire_c]; simp [Ctx.unwait]
@[simp] theorem retire_ra (u : State) (i : Instr) : (u.retire i).c.ra = u.c.ra := by rw [retire_c]; simp [Ctx.unwait]
@[simp] theorem retire_gen (u : State) (i : Instr) : (u.retire i).c.gen = u.c.gen := by rw [retire_c]; simp [Ctx.unwait]
@[simp] theorem retire_lastEnd (u : State) (i : Instr) : (u.retire i).c.lastEnd = u.c.lastEnd := by rw [retire_c]; simp [Ctx.unwait]
@[simp] theorem retire_nmPending (u : State) (i : Instr) : (u.retire i).c.nmPending = u.c.nmPending := by rw [retire_c]; simp [Ctx.unwait]
@[simp] theorem retire_nmErrors (u : State) (i : Instr) : (u.retire i).c.nmErrors = u.c.nmErrors := by rw [retire_c]; simp [Ctx.unwait]
@[simp] theorem retire_holdBreaks (u : State) (i : Instr) : (u.retire i).c.holdBreaks = u.c.holdBreaks := by rw [retire_c]; simp [Ctx.unwait]
@[simp] theorem retire_poolStores (u : State) (i : Instr) : (u.retire i).c.poolStores = u.c.poolStores := by rw [retire_c]; simp [Ctx.unwait]
@[simp] theorem retire_poolLost (u : State) (i : Instr) : (u.retire i).c.poolLost = u.c.poolLost := by rw [retire_c]; simp [Ctx.unwait]
@[simp] theorem retire_seq (u : State) (i : Instr) : (u.retire i).c.seq = u.c.seq := by rw [retire_c]; simp [Ctx.unwait]
@[simp] theorem retire_pending (u : State) (i : Instr) : (u.retire i).c.pending = u.c.pending := by rw [retire_c]; simp [Ctx.unwait]
@[simp] theorem retire_granted (u : State) (i : Instr) : (u.retire i).c.granted = u.c.granted := by rw [retire_c]; simp [Ctx.unwait]
@[simp] theorem retire_instret (u : State) (i : Instr) : (u.retire i).c.instret = u.c.instret + 1 := by rw [retire_c]; simp
@[simp] theorem retire_st (u : State) (i : Instr) : (u.retire i).c.st = .ready := by rw [retire_c]
@[simp] theorem retire_unheld (u : State) (i : Instr) : (u.retire i).c.held = none := by rw [retire_c]; rfl
@[simp] theorem retire_fnode (u : State) (i : Instr) : (u.retire i).fnode = u.fnode := rfl
@[simp] theorem retire_fcore (u : State) (i : Instr) : (u.retire i).fcore = u.fcore := rfl
@[simp] theorem retire_schedule (u : State) (i : Instr) : (u.retire i).schedule = u.schedule := rfl
@[simp] theorem retire_work (u : State) (i : Instr) : (u.retire i).work = u.work := rfl
@[simp] theorem retire_ev (u : State) (i : Instr) : (u.retire i).ev = u.ev := rfl
@[simp] theorem retire_stepNo (u : State) (i : Instr) : (u.retire i).stepNo = u.stepNo := rfl
@[simp] theorem retire_clock (u : State) (i : Instr) : (u.retire i).clock = u.clock := rfl
@[simp] theorem retire_polders (u : State) (i : Instr) : (u.retire i).polders = u.polders := rfl
@[simp] theorem retire_dies (u : State) (i : Instr) : (u.retire i).dies = u.dies := rfl
@[simp] theorem retire_pkgs (u : State) (i : Instr) : (u.retire i).pkgs = u.pkgs := rfl
@[simp] theorem retire_group (u : State) (i : Instr) : (u.retire i).group = u.group := rfl
@[simp] theorem retire_domain (u : State) (i : Instr) : (u.retire i).domain = u.domain := rfl
@[simp] theorem retire_lost (u : State) (i : Instr) : (u.retire i).lost = u.lost := rfl
@[simp] theorem retire_lostWords (u : State) (i : Instr) : (u.retire i).lostWords = u.lostWords := rfl
@[simp] theorem retire_dirs (u : State) (i : Instr) : (u.retire i).dirs = u.dirs := rfl
@[simp] theorem retire_proxies (u : State) (i : Instr) : (u.retire i).proxies = u.proxies := rfl
@[simp] theorem retire_pins (u : State) (i : Instr) : (u.retire i).pins = u.pins := rfl
@[simp] theorem retire_late (u : State) (i : Instr) : (u.retire i).late = u.late := rfl
@[simp] theorem retire_tries (u : State) (i : Instr) : (u.retire i).tries = u.tries := rfl
@[simp] theorem retire_locks (u : State) (i : Instr) : (u.retire i).locks = u.locks := rfl
@[simp] theorem retire_nmOps (u : State) (i : Instr) : (u.retire i).nmOps = u.nmOps := rfl
@[simp] theorem retire_migs (u : State) (i : Instr) : (u.retire i).migs = u.migs := rfl
@[simp] theorem retire_nextCmd (u : State) (i : Instr) : (u.retire i).nextCmd = u.nextCmd := rfl
@[simp] theorem retire_flights (u : State) (i : Instr) : (u.retire i).flights = u.flights := rfl
@[simp] theorem retire_urgent (u : State) (i : Instr) : (u.retire i).urgent = u.urgent := rfl
@[simp] theorem retire_colls (u : State) (i : Instr) : (u.retire i).colls = u.colls := rfl
@[simp] theorem retire_clones (u : State) (i : Instr) : (u.retire i).clones = u.clones := rfl
@[simp] theorem retire_tokens (u : State) (i : Instr) : (u.retire i).tokens = u.tokens := rfl
@[simp] theorem retire_accepts (u : State) (i : Instr) : (u.retire i).accepts = u.accepts := rfl
@[simp] theorem retire_results (u : State) (i : Instr) : (u.retire i).results = u.results := rfl
@[simp] theorem retire_legUps (u : State) (i : Instr) : (u.retire i).legUps = u.legUps := rfl
@[simp] theorem retire_cc (u : State) (i : Instr) : (u.retire i).cc = { u.cc with run := u.cc.run + 1 } := complete_cc ..
@[simp] theorem retire_cur (u : State) (i : Instr) : (u.retire i).cur = u.cur := complete_cur ..
@[simp] theorem retire_X (u : State) (i : Instr) (r : Reg) : (u.retire i).X r = u.X r := by unfold State.X Ctx.xr; rw [retire_x]
@[simp] theorem retire_vr (u : State) (i : Instr) (r : Reg) : (u.retire i).c.vr r = u.c.vr r := by unfold Ctx.vr; rw [retire_v]
@[simp] theorem retire_gr (u : State) (i : Instr) (r : Reg) : (u.retire i).c.gr r = u.c.gr r := by unfold Ctx.gr; rw [retire_g]
@[simp] theorem retire_pr (u : State) (i : Instr) (r : Reg) : (u.retire i).c.pr r = u.c.pr r := by unfold Ctx.pr; rw [retire_p]
@[simp] theorem retire_portOf (u : State) (i : Instr) (r : Reg) : (u.retire i).c.portOf r = u.c.portOf r := by
  unfold Ctx.portOf
  rw [retire_ports, retire_ra]
theorem retire_ctx_other (u : State) (i : Instr) (id : CtxId) (h : id ≠ u.cur) : (u.retire i).ctx id = u.ctx id := complete_ctx_other _ _ _ _ h
theorem retire_core_other (u : State) (i : Instr) (n k : Nat) (h : (n, k) ≠ (u.fnode, u.fcore)) : (u.retire i).core n k = u.core n k :=
  complete_core_other _ _ _ _ _ h

/-! ## Ends of `finish` -/

theorem completes_finish {i : Instr} {s u : State} {P : State → Prop} (h : exec i s = finish i s (.ok u)) (hp : P (u.retire i)) :
    Completes i s P := ⟨_, h, hp⟩

theorem traps_finish {i : Instr} {s : State} {c : Cause} {v : Word} (h : exec i s = finish i s (raise c v)) : Traps i s c v 0 := h

/-- A completed instruction whose one result is X(d). -/
theorem completes_setX {i : Instr} {s : State} {d : Reg} {v : Word} (h : exec i s = finish i s (.ok (s.setX d v))) :
    Completes i s (ResultX d v s) := by
  unfold Completes
  rw [h]
  exact writeX_result i d v s

/-- What X(d) holds when the instruction wrote it last. -/
theorem xIs_retire_setX (u : State) (i : Instr) (d : Reg) (v : Word) : XIs u ((u.setX d v).retire i) d v := by
  intro r
  rw [retire_X]
  unfold State.X
  rw [setX_c, xr_setX]

theorem xIs_congr {s t : State} {d : Reg} {v : Word} {u : State} (hx : u.c.x = s.c.x) (h : XIs u t d v) : XIs s t d v := by
  intro r
  rw [h r]
  unfold State.X Ctx.xr
  rw [hx]

end Sys2Proof.Ends
end

section
/-! Issue: what a step does when the current slot issues. -/

namespace Sys2Proof.Issue
set_option Elab.async false
open Sys2Proof Sys2Proof.Machine Sys2Proof.Safety

/-- Settles O3: the decoder evaluates each of the words. -/
theorem specWordsDecode : Obligations.SpecWordsDecode := by
  refine ⟨?_, ?_, ?_, ?_, ?_, ?_, ?_, ?_, ?_, ?_, ?_, ?_⟩ <;> rfl

/-! ## The word that a step runs -/

section
variable {s s1 : State} {w : Nat} (hurgent : s.urgent = []) (hsched : s.schedule = []) (hidle : s.idle = false) (hrun : s.cc.run < 256)
  (hlive : (s.pkg s.fnode).live = true) (hrunnable : s.runnable s.fnode s.fcore s.cc.slot = true) (hheld : s.c.held = none)
  (hfetch : s.fetch s.c.pc = .ok (s1, w))
include hurgent hsched hidle hrun hlive hrunnable hheld hfetch

/-- With nothing before it, the word fetched at PC is the step's plan. -/
theorem plan_eq_wordPlan : s.plan = wordPlan w s1 := by
  have hmay : s.mayIssue s.fnode s.fcore s.cc.slot = true := by simp [State.mayIssue, hlive, hrunnable]
  simp [State.plan, hurgent, hsched, hidle, issuePlan, slotPlan, hheld, hfetch, hmay, Nat.not_le.mpr hrun]

end

/-- A plan to run an instruction, or to stall on its x registers (R284). -/
theorem step_runPlan {s t : State} {i : Instr} (h : s.plan = runPlan i t) :
    step s = if t.xHeld i then .next ((t.holdWords i).stall .vectorQueue).tick else tickOut (exec i t) := by
  unfold step
  rw [h]
  unfold runPlan
  cases t.xHeld i <;> rfl

theorem decodedPlan_of_decodes {w p : Nat} {s : State} {i : Instr} (hdec : decodeWord w p = .ok i) (hwf : wellFormed i = true) :
    decodedPlan w p s = runPlan i s := by simp [decodedPlan, hdec, hwf]

/-- Settles O4: the plan is to run what the word, with its payload when it is long, decodes to. -/
theorem stepRunsDecodedInstruction : Obligations.StepRunsDecodedInstruction := by
  intro s s1 w hurgent hsched hidle hrun hlive hrunnable hheld hfetch hgov
  have hplan := plan_eq_wordPlan hurgent hsched hidle hrun hlive hrunnable hheld hfetch
  refine ⟨fun i hshort hdec hwf => step_runPlan ?_, fun i s2 p hlong hpay hdec hwf => step_runPlan ?_⟩
  · rw [hplan, ← decodedPlan_of_decodes hdec hwf]
    simp [wordPlan, hgov, hshort]
  · rw [hplan, ← decodedPlan_of_decodes hdec hwf]
    simp only [wordPlan, hgov, hlong, Bool.false_eq_true, if_false, if_true]
    rw [hpay]

end Sys2Proof.Issue
end

section
/-! A slice that holds more leaves than a slice keeps: an access that is counted there loses another page's leaf, and with it the answer of its
home's check. -/

namespace Sys2Proof.Crowded
set_option Elab.async false
open Sys2Proof Sys2Proof.Machine Sys2Proof.Safety

/-- The leaf of the accessed page: gran 1 at frame 0x310000, readable, executable, for users, accessed. -/
def used : Leaf := ⟨0, 1, 0x31013B, 4, 0, Vector.replicate 4 0⟩

/-- Leaves of another page, which fill the slice. -/
def spare : Leaf := ⟨0, 2, 0, 4, 0, Vector.replicate 4 0⟩

/-- The slice's oldest leaf: the page of the near-memory operation, gran 49, which the same slice translates, at frame 0x400000. -/
def oldest : Leaf := ⟨0, 49, 0x40013B, 4, 0, Vector.replicate 4 0⟩

/-- An own near-memory operation that has come back to be sent again: its leaf leads to another line than the access, but the page table
that its PTROOT names leads to the same one. -/
def returned : NmOp := ⟨⟨0, 0, State.reset.cc.slot⟩, 0, 0x310000, 0x400000, 0, 0x10000, 0, 0, false, 0, .returned, none, none, false⟩

/-- A slice that holds 1,025 leaves: counting a request for one of them keeps 1,024, and drops the oldest (R101, R116). -/
def crowded : State :=
  { State.reset with
    dies := [((0, 0), { DieSt.reset with slices := [(1, ⟨used :: (List.replicate 1023 spare ++ [oldest]), [], []⟩)] })]
    nmOps := [returned]
    mem := memWrite (memWrite [] 0x10000 8 0x20003) 0x20000 8 0x103 }

theorem crowded_wf : Memory.wf crowded.mem = true := wf_memWrite _ _ _ _ (wf_memWrite _ _ _ _ rfl)

theorem crowded_holds : SliceHolds crowded 0x10000 used := by
  unfold SliceHolds
  rfl

/-- Before the request is counted its home would serve it. -/
theorem crowded_served (acc : BitVec 2) : crowded.hbmCheck crowded.req 0x10000 (used.pa 0x10000) acc = .ok () := by
  have hown : crowded.nmOwn crowded.req (used.pa 0x10000) 0x10000 = false := by decide +kernel
  unfold State.hbmCheck State.homeReady
  rw [hown]
  rfl

/-- After it has been counted, the operation's leaf is gone, a walk leads it to the same line, and the request waits for it. -/
theorem crowded_load : (crowded.scalarLoad crowded.req 0x10000 8 reqOwn).toBool = false := by decide +kernel
theorem crowded_fetch : (crowded.fetch 0x10000).toBool = false := by decide +kernel

/-- Refutes O26: the statement asks the home's check of the state before the access, and in a slice that holds more leaves than the model
keeps, counting the access drops the leaf of an own near-memory operation, on which the check then waits. -/
theorem not_scalarAccessesReachTheirBytes : ¬ Obligations.ScalarAccessesReachTheirBytes := by
  intro h
  obtain ⟨-, hhbm⟩ := h crowded 8 0 crowded_wf (by decide)
  obtain ⟨hload, -⟩ := hhbm 0x10000 used (by decide) (by decide) (by decide) crowded_holds (.inl rfl) (by decide) (by decide) (by decide)
    rfl (by decide) rfl rfl
  obtain ⟨u, hu, -⟩ := hload (by decide) (crowded_served 0) rfl
  have := crowded_load
  rw [hu] at this
  cases this

/-- Refutes O5, its first part: a fetch through the same slice waits for the same reason. -/
theorem not_fetchAndUndecodableWords : ¬ Obligations.FetchAndUndecodableWords := by
  intro h
  obtain ⟨hfetch, -⟩ := h
  obtain ⟨t, ht, -⟩ := hfetch crowded 0x10000 used (by decide) (by decide) crowded_holds (.inl rfl) (by decide) (by decide) (by decide)
    (crowded_served 3) rfl rfl
  have := crowded_fetch
  rw [ht] at this
  cases this

end Sys2Proof.Crowded
end

section
/-! Branches and jumps (R267, R268). -/

namespace Sys2Proof.Branches
set_option Elab.async false
open Sys2Proof Sys2Proof.Machine Sys2Proof.Safety Sys2Proof.Ends Sys2Proof.Scalar

/-- A byte offset of whole words, sign-extended and added to PC. -/
theorem pc_offset {n : Nat} (pc : Word) (o : BitVec n) : pc + o.signExtend 64 * 4 = BitVec.ofInt 64 (pc.toInt + 4 * o.toInt) := by
  rw [← word_add_int, Int.mul_comm, BitVec.ofInt_mul]
  rfl

/-- Outside a loop an instruction of one word goes on at the next. -/
theorem retire_pc_next (s : State) (i : Instr) (hpfx : s.pfx = none) (hlong : isLong i = false) (hloop : s.c.loopActive = false) :
    (s.retire i).c.pc = s.c.pc + 4 := by
  rw [retire_c]
  simp only [Ctx.unwait, Ctx.advance, instrBytes, hpfx, hlong, hloop]
  rfl

/-- A branch changes no register, goes to its target when it is taken, and else to the next word. -/
theorem completes_branch {i : Instr} {o : BitVec 14} {b c : Bool} {s : State} (h : exec i s = branch i o b s) (hlong : isLong i = false)
    (hpfx : s.pfx = none) (hbc : b = c) : Completes i s (fun t => Leaves s t ∧ (c = true → t.c.pc = BitVec.ofInt 64 (s.c.pc.toInt + 4 * o.toInt)) ∧
      (c = false → s.c.loopActive = false → t.c.pc = s.c.pc + 4)) := by
  subst hbc
  cases b with
  | true =>
    refine ⟨_, h, leaves_retireTo .., fun _ => ?_, fun hc => by simp at hc⟩
    exact (TrapGroup.retireTo_pc ..).trans (pc_offset _ _)
  | false =>
    refine ⟨_, h, leaves_retire .., fun hc => by simp at hc, fun _ hloop => ?_⟩
    exact retire_pc_next s i hpfx hlong hloop

/-- A jump with a link writes it and goes to its target. -/
theorem completes_jump {i : Instr} {d : Reg} {v w w' : Word} {s : State} (h : exec i s = finishJump i s (.ok (s.setX d v, some w))) (hw : w = w') :
    Completes i s (fun t => ResultX d v s t ∧ t.c.pc = w') := by
  subst hw
  refine ⟨_, h, ?_, TrapGroup.retireTo_pc ..⟩
  refine resultX_complete s d v ((s.setX d v).c.jump w) ?_ ?_ ?_
  · simp
  · rw [setX_c]
    simp [SameButX]
  · simp

/-- JALR goes to a multiple of 4, or raises MISALIGNED. -/
theorem exec_jalr (s : State) (d a : Reg) (i : BitVec 14) : exec (.jalr d a i) s = finishJump (.jalr d a i) s
    (if (s.X a + BitVec.ofInt 64 i.toInt).toNat % 4 ≠ 0 then raise .misaligned (s.X a + BitVec.ofInt 64 i.toInt)
     else .ok (s.setX d (s.c.pc + 4), some (s.X a + BitVec.ofInt 64 i.toInt))) := rfl

/-- Settles O10: each branch by its comparison, each jump by its target. -/
theorem branchesAndJumps : Obligations.BranchesAndJumps := by
  refine ⟨fun s a b o i taken hpfx hmem => ?_, fun s d a j i m => ⟨?_, ?_, fun h => ?_, fun h => ?_⟩⟩
  · simp only [List.mem_cons, Prod.mk.injEq, List.not_mem_nil, or_false] at hmem
    rcases hmem with ⟨rfl, rfl⟩ | ⟨rfl, rfl⟩ | ⟨rfl, rfl⟩ | ⟨rfl, rfl⟩ | ⟨rfl, rfl⟩ | ⟨rfl, rfl⟩
    · exact completes_branch rfl rfl hpfx rfl
    · exact completes_branch rfl rfl hpfx (by simp [bne, beq_eq_decide])
    · exact completes_branch rfl rfl hpfx rfl
    · exact completes_branch rfl rfl hpfx (by simp [BitVec.slt, ← decide_not])
    · exact completes_branch rfl rfl hpfx rfl
    · exact completes_branch rfl rfl hpfx (by simp [BitVec.ult, ← decide_not])
  · exact completes_jump rfl (pc_offset _ _)
  · exact completes_jump rfl (pc_offset _ _)
  · exact completes_jump ((exec_jalr s d a i).trans (by rw [if_neg (not_not.mpr h)])) rfl
  · exact (exec_jalr s d a i).trans (by rw [if_pos h]; rfl)

end Sys2Proof.Branches
end

section
/-! What the CSRs keep of a written value (R232), INSTRET (R275), and what they hold after reset. -/

namespace Sys2Proof.CsrFields
set_option Elab.async false
open Sys2Proof Sys2Proof.Machine Sys2Proof.Safety Sys2Proof.Ends Sys2Proof.CsrAccess

theorem trecId_setCtx (s : State) (id : CtxId) (c : Ctx) : (s.setCtx id c).trecId = s.trecId := rfl

/-- The low bits of a word are its remainder. -/
theorem and_mask_eq_ofNat (w : Word) (k : Nat) (hk : k ≤ 64) : w &&& BitVec.ofNat 64 (2 ^ k - 1) = BitVec.ofNat 64 (w.toNat % 2 ^ k) := by
  have hpow : 2 ^ k ≤ 2 ^ 64 := Nat.pow_le_pow_right (by decide) hk
  have hpos : 0 < 2 ^ k := by positivity
  apply BitVec.eq_of_toNat_eq
  rw [BitVec.toNat_and, BitVec.toNat_ofNat, BitVec.toNat_ofNat, Nat.mod_eq_of_lt (by omega : 2 ^ k - 1 < 2 ^ 64),
    Nat.and_two_pow_sub_one_eq_mod, Nat.mod_eq_of_lt (Nat.lt_of_lt_of_le (Nat.mod_lt _ hpos) hpow)]

/-- A field of the low `k` bits, read back as a word. -/
theorem zeroExtend_setWidth (w : Word) (k : Nat) (hk : k ≤ 64) : (w.setWidth k).zeroExtend 64 = w &&& BitVec.ofNat 64 (2 ^ k - 1) := by
  rw [and_mask_eq_ofNat w k hk]
  apply BitVec.eq_of_toNat_eq
  simp

/-- A word with `q` below bit 32 and bits [63:32] of `w`. -/
theorem ofNat_high_low (w : Word) (q : Nat) (hq : q < 2 ^ 32) :
    BitVec.ofNat 64 (fieldW w 32 32 * 2 ^ 32 + q) = (w &&& 0xFFFFFFFF00000000) ||| BitVec.ofNat 64 q := by
  have hmask : ∀ i : Fin 64, (0xFFFFFFFF00000000 : Word).getLsbD i = decide (32 ≤ i.val) := by decide
  have hfield : fieldW w 32 32 = w.toNat / 2 ^ 32 :=
    Nat.mod_eq_of_lt (Nat.div_lt_of_lt_mul (by have := w.isLt; omega))
  apply BitVec.eq_of_getLsbD_eq
  intro i hi
  rw [BitVec.getLsbD_or, BitVec.getLsbD_and, hmask ⟨i, hi⟩, BitVec.getLsbD_ofNat, BitVec.getLsbD_ofNat, hfield, Nat.mul_comm,
    Nat.testBit_two_pow_mul_add _ hq, Nat.testBit_div_two_pow]
  by_cases hlow : i < 32
  · simp [hlow, hi, Nat.not_le.mpr hlow]
  · have hqi : q.testBit i = false := Nat.testBit_lt_two_pow (Nat.lt_of_lt_of_le hq (Nat.pow_le_pow_right (by decide) (by omega)))
    simp [hlow, hi, Nat.not_lt.mp hlow, hqi, BitVec.getLsbD, show i - 32 + 32 = i by omega]

/-- LEASEQ keeps HOLD, and QUANT when it is 1 to 64. -/
theorem csrRead_leaseq_csrWrite (s : State) (w : Word) : (s.csrWrite .leaseq w).csrRead .leaseq =
    (w &&& 0xFFFFFFFF00000000) ||| (if w.toNat % 128 = 0 ∨ 64 < w.toNat % 128 then s.csrRead .leaseq &&& 0x7F else w &&& 0x7F) := by
  have hold : (BitVec.ofNat 32 (fieldW w 32 32)).toNat = fieldW w 32 32 := by
    rw [BitVec.toNat_ofNat]
    exact Nat.mod_mod _ _
  have hquant : fieldW w 0 7 = w.toNat % 128 := by simp [fieldW, fieldN]
  have hkept : s.csrRead .leaseq &&& 0x7F = BitVec.ofNat 64 s.cc.quant.toNat := by
    refine (and_mask_eq_ofNat _ 7 (by decide)).trans (congrArg _ ?_)
    have := s.cc.quant.isLt
    simp only [State.csrRead, BitVec.toNat_ofNat]
    omega
  have hnew : w &&& 0x7F = BitVec.ofNat 64 (w.toNat % 128) := and_mask_eq_ofNat w 7 (by decide)
  rw [hkept, hnew]
  simp only [State.csrWrite, State.csrRead, setCC_cc, hold, hquant]
  split
  · exact ofNat_high_low w _ (by have := s.cc.quant.isLt; omega)
  · rw [BitVec.toNat_ofNat]
    exact (congrArg _ (by omega)).trans (ofNat_high_low w _ (by omega))

/-- The issuing context's fields read back as they were written. -/
theorem csrRead_csrWrite_own (s : State) (w : Word) :
    (s.csrWrite .fpstat w).csrRead .fpstat = w &&& 0x1F ∧
    (s.csrWrite .rmode w).csrRead .rmode = (if w.toNat % 8 ≤ 5 then w &&& 7 else s.csrRead .rmode) ∧
    (s.csrWrite .srseed w).csrRead .srseed = (if w &&& 0xFFFFFFFF = 0 then 1 else w &&& 0xFFFFFFFF) ∧
    (s.csrWrite .asid w).csrRead .asid = w &&& 0xFFFF := by
  have hmode : fieldW w 0 3 = w.toNat % 8 := by simp [fieldW, fieldN]
  have h5 : (w.setWidth 5).zeroExtend 64 = w &&& 0x1F := zeroExtend_setWidth w 5 (by decide)
  have h3 : (w.setWidth 3).zeroExtend 64 = w &&& 7 := zeroExtend_setWidth w 3 (by decide)
  have h16 : (w.setWidth 16).zeroExtend 64 = w &&& 0xFFFF := zeroExtend_setWidth w 16 (by decide)
  have h32 : (w.setWidth 32).zeroExtend 64 = w &&& 0xFFFFFFFF := zeroExtend_setWidth w 32 (by decide)
  refine ⟨?_, ?_, ?_, ?_⟩
  · rw [← h5]
    simp [State.csrWrite, State.csrRead]
  · rw [← h3]
    simp only [State.csrWrite, hmode]
    split <;> simp [State.csrRead]
  · have hzero : w.setWidth 32 = 0#32 ↔ (w.setWidth 32).zeroExtend 64 = 0 := by
      constructor <;> intro h
      · rw [h]; rfl
      · have hnat := congrArg BitVec.toNat h
        exact BitVec.eq_of_toNat_eq (by simp at hnat ⊢; omega)
    rw [← h32]
    simp only [State.csrWrite, State.csrRead, setC_c, hzero]
    split <;> rfl
  · rw [← h16]
    simp [State.csrWrite, State.csrRead]

/-- Settles O13: field by field. -/
theorem csrFieldRulesAndInstret : Obligations.CsrFieldRulesAndInstret := by
  refine ⟨fun s w => ?_, fun s d a hsys hra => ?_⟩
  · obtain ⟨hfpstat, hrmode, hsrseed, hasid⟩ := csrRead_csrWrite_own s w
    refine ⟨hfpstat, hrmode, hsrseed, ?_, ?_, ?_, ?_, ?_, hasid, ?_, ?_, csrRead_leaseq_csrWrite s w, ?_, ?_, ?_, ?_, ?_⟩
    · simp [State.csrWrite, State.csrRead, clear2]
    · simp [State.csrWrite, State.csrRead, trecId_setCtx]
    · simp [State.csrWrite, State.csrRead, trecId_setCtx, clear2]
    · simp [State.csrWrite, State.csrRead, trecId_setCtx]
    · simp [State.csrWrite, State.csrRead, trecId_setCtx]
    · simp [State.csrWrite, State.csrRead]
    · have h4 : (w.setWidth 4).zeroExtend 64 = w &&& 0xF := zeroExtend_setWidth w 4 (by decide)
      rw [← h4]
      simp [State.csrWrite, State.csrRead]
    · simp [State.csrWrite, State.csrRead, clear2]
    · simp [State.csrWrite, State.csrRead, clear2]
    · simp [State.csrWrite, State.csrRead]
    · exact congrArg Polder.spillcnt (setPolder_polder_same ..)
    · exact congrArg Polder.dupcnt (setPolder_polder_same ..)
  · have hform : (Instr.csrrw d a 0x051, true, fun _ x => x) ∈ csrForms d a 0x051 := by simp [csrForms]
    obtain ⟨t, ht, honly, hx, -, hinstret⟩ := completes_writeInstret hform rfl (by simp [Csr.right, hsys]) rfl hra
    obtain ⟨hmem, -⟩ := honly
    refine ⟨t, ht, hinstret, fun r => ?_, hmem⟩
    show t.c.xr r = _
    have hxr : t.c.xr r = (((s.csrWrite .instret (s.X a)).setX d (s.csrRead .instret)).c).xr r := by
      unfold Ctx.xr
      rw [hx]
    rw [hxr, setX_c, xr_setX, show (s.csrWrite .instret (s.X a)).c.xr r = s.X r by simp [State.csrWrite, State.X, Ctx.xr]]
    rfl

/-- Settles O14: no table of the reset state lists an entry, so each reads as its reset value. -/
theorem resetLeavesTheStatedValues : Obligations.ResetLeavesTheStatedValues := by
  refine ⟨wf_reset, fun n k j => ?_⟩
  obtain ⟨st, hctx, hfree⟩ : ∃ st, State.reset.ctx ⟨n, k, j⟩ = { Ctx.reset with st := st } ∧ (j ≤ 10 → st = .free) := by
    show ∃ st, Ctx.resetOf j = _ ∧ _
    unfold Ctx.resetOf
    split
    · exact ⟨_, rfl, fun _ => by omega⟩
    · exact ⟨_, rfl, fun _ => rfl⟩
  have hports : ∀ i : Fin 8, Ctx.reset.ports[i].bound = false := by decide
  have hstaging : entWin DieSt.reset.staging.toNat = 20 ∧ entNpart DieSt.reset.staging.toNat = 1 ∧ entNslot DieSt.reset.staging.toNat = 256 := by
    decide +kernel
  rw [hctx]
  exact ⟨rfl, rfl, rfl, rfl, rfl, rfl, rfl, rfl, rfl, rfl, rfl, rfl, rfl, rfl, rfl, hports, hfree, rfl, rfl, rfl, rfl, rfl, rfl, rfl, hstaging⟩

end Sys2Proof.CsrFields
end

section
/-! Geometry registers, and what a context asks of itself and of the helpers of its core. -/

namespace Sys2Proof.Contexts
set_option Elab.async false
open Sys2Proof Sys2Proof.Machine Sys2Proof.Safety Sys2Proof.Ends

/-! ## Geometry registers -/

theorem gr_of_cleared (c : Ctx) (r : Reg) : ({ c with g := Vector.replicate 32 0 } : Ctx).gr r = 0 := by simp [Ctx.gr]

/-- Settles O21: each geometry instruction leaves what it made of the registers. -/
theorem geometryRegistersReadBack : Obligations.GeometryRegistersReadBack := by
  unfold Obligations.GeometryRegistersReadBack
  intro s d a
  refine ⟨completes_finish rfl ⟨leaves_retire _ _, ?_, fun r hr => ?_⟩, writeX_result _ d _ s,
    completes_finish rfl ⟨fun r => ?_, leaves_retire _ _⟩⟩
  · rw [retire_gr, setC_c, gr_setG_same]
  · rw [retire_gr, setC_c, gr_setG_other _ _ _ _ hr]
  · rw [retire_gr, setC_c, gr_of_cleared]

/-! ## Handles of helpers -/

section
variable {v : Word} {g j : Nat} (hv : v.toNat = g * 16 + j) (hj : j ≤ 10) (hg : g < 4096)
include hv hj

theorem handle_slot : fieldW v 0 4 = j := by
  simp only [fieldW, fieldN, hv]
  omega

include hg

theorem handle_gen : fieldW v 4 12 = g := by
  simp only [fieldW, fieldN, hv]
  omega

theorem handle_upper : fieldW v 16 48 = 0 := by
  simp only [fieldW, fieldN, hv]
  omega

end

theorem not_vacant_iff (t : SlotState) : t.vacant = false ↔ t ≠ .free ∧ t ≠ .saved := by cases t <;> decide

section
variable (s : State) (d h : Reg) {g j : Nat} (hv : (s.X h).toNat = g * 16 + j) (h1 : 1 ≤ j) (hj : j ≤ 10) (hg : g < 4096)
include hv h1 hj hg

/-- HSTAT of a handle that names a slot, by the life it names. -/
theorem execHstat_of_handle : execHstat d h s =
    let c := s.ctx { s.cur with slot := j }
    let live := g == c.gen.toNat && !c.st.vacant
    writeX (.hstat d h) d (if (live || (g + 1) % 4096 == c.gen.toNat) = true then
      BitVec.ofNat 64 (live.toNat * 2 ^ 63 + c.ra.toNat * 2 ^ 62 +
        (match c.lastEnd with | .quit => 0 | .terminated => 1 | .none => 3) * 2 ^ 60 + c.st.code * 2 ^ 57 + c.gen.toNat * 2 ^ 36)
      else BitVec.ofNat 64 (3 * 2 ^ 60)) s := by
  unfold execHstat
  simp only [handle_slot hv hj, handle_gen hv hj hg, handle_upper hv hj hg, beq_self_eq_true, h1, hj, and_self, decide_true, Bool.true_and] <;> rfl

theorem hstat_live (hlive : g = (s.ctx { s.cur with slot := j }).gen.toNat ∧ (s.ctx { s.cur with slot := j }).st ≠ .free ∧
    (s.ctx { s.cur with slot := j }).st ≠ .saved) : Completes (.hstat d h) s (ResultX d (BitVec.ofNat 64 (2 ^ 63 +
      (s.ctx { s.cur with slot := j }).ra.toNat * 2 ^ 62 +
      (match (s.ctx { s.cur with slot := j }).lastEnd with | .quit => 0 | .terminated => 2 ^ 60 | .none => 3 * 2 ^ 60) +
      (s.ctx { s.cur with slot := j }).st.code * 2 ^ 57 + (s.ctx { s.cur with slot := j }).gen.toNat * 2 ^ 36)) s) := by
  obtain ⟨hgen, hst⟩ := hlive
  refine Scalar.completes_writeX (execHstat_of_handle s d h hv h1 hj hg) ?_
  have hvac := (not_vacant_iff _).mpr hst
  simp only [hvac, ← hgen, beq_self_eq_true, Bool.not_false, Bool.and_self, Bool.true_or, if_true, Bool.toNat_true]
  cases (s.ctx { s.cur with slot := j }).lastEnd <;> rfl

theorem hstat_ended (hlive : ¬(g = (s.ctx { s.cur with slot := j }).gen.toNat ∧ (s.ctx { s.cur with slot := j }).st ≠ .free ∧
    (s.ctx { s.cur with slot := j }).st ≠ .saved)) (hnext : (g + 1) % 4096 = (s.ctx { s.cur with slot := j }).gen.toNat) :
    Completes (.hstat d h) s (ResultX d (BitVec.ofNat 64 (0 + (s.ctx { s.cur with slot := j }).ra.toNat * 2 ^ 62 +
      (match (s.ctx { s.cur with slot := j }).lastEnd with | .quit => 0 | .terminated => 2 ^ 60 | .none => 3 * 2 ^ 60) +
      (s.ctx { s.cur with slot := j }).st.code * 2 ^ 57 + (s.ctx { s.cur with slot := j }).gen.toNat * 2 ^ 36)) s) := by
  refine Scalar.completes_writeX (execHstat_of_handle s d h hv h1 hj hg) ?_
  have hl : (g == (s.ctx { s.cur with slot := j }).gen.toNat && !(s.ctx { s.cur with slot := j }).st.vacant) = false := by
    rw [Bool.eq_false_iff, ne_eq, Bool.and_eq_true, beq_iff_eq, Bool.not_eq_true', not_vacant_iff]
    exact hlive
  simp only [hl, hnext, beq_self_eq_true, Bool.or_true, if_true, Bool.toNat_false]
  cases (s.ctx { s.cur with slot := j }).lastEnd <;> rfl

theorem hstat_stale (hlive : ¬(g = (s.ctx { s.cur with slot := j }).gen.toNat ∧ (s.ctx { s.cur with slot := j }).st ≠ .free ∧
    (s.ctx { s.cur with slot := j }).st ≠ .saved)) (hnext : (g + 1) % 4096 ≠ (s.ctx { s.cur with slot := j }).gen.toNat) :
    Completes (.hstat d h) s (ResultX d (BitVec.ofNat 64 (3 * 2 ^ 60)) s) := by
  refine Scalar.completes_writeX (execHstat_of_handle s d h hv h1 hj hg) ?_
  have hl : (g == (s.ctx { s.cur with slot := j }).gen.toNat && !(s.ctx { s.cur with slot := j }).st.vacant) = false := by
    rw [Bool.eq_false_iff, ne_eq, Bool.and_eq_true, beq_iff_eq, Bool.not_eq_true', not_vacant_iff]
    exact hlive
  have hn : ((g + 1) % 4096 == (s.ctx { s.cur with slot := j }).gen.toNat) = false := by simpa using hnext
  simp only [hl, hn, Bool.or_self, Bool.false_eq_true, if_false]

/-- JOINH of a handle that names a slot, by the life it names. -/
theorem execJoinh_of_handle (hra : s.c.ra = false) : execJoinh d h s = finish (.joinh d h) s (
    let c := s.ctx { s.cur with slot := j }
    if g = c.gen.toNat ∧ !c.st.vacant then .error (.wait .join s)
    else if (g + 1) % 4096 = c.gen.toNat then .ok (s.setX d (BitVec.ofNat 64 c.lastEnd.status))
    else .ok (s.setX d 2)) := by
  unfold execJoinh endIfRunAhead
  simp only [handle_slot hv hj, handle_gen hv hj hg, handle_upper hv hj hg, hra, Bool.false_eq_true, if_false]
  rw [if_neg (by omega)]

theorem joinh_ended (hra : s.c.ra = false) (hnext : (g + 1) % 4096 = (s.ctx { s.cur with slot := j }).gen.toNat) :
    Completes (.joinh d h) s (ResultX d (BitVec.ofNat 64 (s.ctx { s.cur with slot := j }).lastEnd.status) s) := by
  refine completes_setX ((execJoinh_of_handle s d h hv h1 hj hg hra).trans (congrArg _ ?_))
  rw [if_neg (by omega), if_pos hnext]

theorem joinh_live (hra : s.c.ra = false) (hgen : g = (s.ctx { s.cur with slot := j }).gen.toNat)
    (hst : (s.ctx { s.cur with slot := j }).st ≠ .free ∧ (s.ctx { s.cur with slot := j }).st ≠ .saved) : Waits (.joinh d h) s .join := by
  refine Barriers.waits_of_finish _ s s _ ((execJoinh_of_handle s d h hv h1 hj hg hra).trans (congrArg _ ?_)) rfl rfl rfl
  exact if_pos ⟨hgen, by rw [(not_vacant_iff _).mpr hst]; rfl⟩

theorem joinh_older (hra : s.c.ra = false) (hgen : g ≠ (s.ctx { s.cur with slot := j }).gen.toNat)
    (hnext : (g + 1) % 4096 ≠ (s.ctx { s.cur with slot := j }).gen.toNat) : Completes (.joinh d h) s (ResultX d 2 s) := by
  refine completes_setX ((execJoinh_of_handle s d h hv h1 hj hg hra).trans (congrArg _ ?_))
  rw [if_neg (fun e => hgen e.1), if_neg hnext]

end

/-! ## The other queries -/

theorem mailboxZero_handle (s : State) : mkHandle s.cur s.c.gen 0 = BitVec.ofNat 64 (s.fnode * 2 ^ 52 + s.fcore / 256 * 2 ^ 49 +
    s.fcore / 8 % 32 * 2 ^ 44 + s.fcore % 8 * 2 ^ 41 + s.cc.slot * 2 ^ 37 + s.c.gen.toNat * 2 ^ 25) := by
  unfold mkHandle
  rw [Nat.zero_mul, Nat.add_zero]
  rfl

theorem widOf_eq (s : State) : s.widOf = if s.cc.slot = 11 then 0 else s.cc.item.elim 0 (fun it => it.wid) := by
  unfold State.widOf
  cases s.cc.item <;> rfl

theorem widf_of_item (s : State) (d n : Reg) (it : Item) (l : Launch) (hn : n.toNat ≤ 5) (hi : s.cc.item = some it)
    (hl : s.launch? s.fnode it.launch = some l) :
    Completes (.widf d n) s (ResultX d (BitVec.ofNat 64 (widField l.widths (if s.cc.slot = 11 then 0 else it.wid) n.toNat)) s) := by
  refine completes_setX (show execWidf d n s = _ from ?_)
  unfold execWidf State.widOf
  simp only [hi, hl]
  rw [if_neg (by omega)]

theorem yield_retires (s : State) : Completes .yield s (fun t => (t.ctx s.cur).st = .ready ∧ (t.ctx s.cur).x = s.c.x ∧
    (t.ctx s.cur).instret = s.c.instret + 1 ∧ t.mem = s.mem ∧ t.idle = false) := by
  refine ⟨_, rfl, ?_⟩
  have hc : (s.retire .yield).ctx s.cur = (s.retire .yield).c := by unfold State.c; rw [retire_cur]
  change ((s.retire .yield).ctx s.cur).st = _ ∧ ((s.retire .yield).ctx s.cur).x = _ ∧ ((s.retire .yield).ctx s.cur).instret = _ ∧
    (s.retire .yield).mem = s.mem ∧ false = false
  rw [hc]
  exact ⟨retire_st .., retire_x .., retire_instret .., complete_mem s _ _, rfl⟩

/-- Settles O20, by the life that the handle names. -/
theorem contextQueriesAndJoinh : Obligations.ContextQueriesAndJoinh := by
  unfold Obligations.ContextQueriesAndJoinh
  refine ⟨fun s d h n => ⟨?_, ?_, ?_, ?_, yield_retires s⟩, ?_⟩
  · exact Scalar.completes_writeX (show execCtxid d s = _ from rfl) (mailboxZero_handle s)
  · exact Scalar.completes_writeX (show execWid d s = _ from rfl) (widOf_eq s)
  · exact fun it l => widf_of_item s d n it l
  · intro j g h1 hj hg hv c live
    refine ⟨fun hor => ?_, hstat_stale s d h hv h1 hj hg⟩
    by_cases hlive : live
    · rw [if_pos hlive]
      exact hstat_live s d h hv h1 hj hg hlive
    · rw [if_neg hlive]
      exact hstat_ended s d h hv h1 hj hg hlive (hor.resolve_left hlive)
  · intro s d h j g hra h1 hj hg hv c
    exact ⟨joinh_ended s d h hv h1 hj hg hra, fun hgen hf hs => joinh_live s d h hv h1 hj hg hra hgen ⟨hf, hs⟩,
      joinh_older s d h hv h1 hj hg hra⟩

end Sys2Proof.Contexts
end

section
/-! Taking a trap, and WFE. -/

namespace Sys2Proof.TrapTaking
set_option Elab.async false
open Sys2Proof Sys2Proof.Machine Sys2Proof.Safety Sys2Proof.Ends

/-! ## What a switch and a machine check leave -/

theorem switchSlot_core_other (s : State) (n k n' k' : Nat) (h : (n', k') ≠ (n, k)) : (s.switchSlot n k).core n' k' = s.core n' k' :=
  setCore_core_other _ _ _ _ _ _ h

/-- The registers of a parked or stopped slot are those it had: what its instruction waited for is forgotten, but a lock's answer. -/
def SameRegisters (c c' : Ctx) : Prop :=
  c'.pc = c.pc ∧ c'.x = c.x ∧ c'.v = c.v ∧ c'.p = c.p ∧ c'.g = c.g ∧ c'.instret = c.instret ∧ c'.fpstat = c.fpstat

/-- What a slot that traps keeps of its wait. -/
def trappedCtx (c : Ctx) (acc : BitVec 2) : Ctx :=
  if acc = 3 then { c.unwait with lockReply := c.lockReply, lockReq := c.lockReq } else c.unwait

theorem trapped_sameRegisters (c : Ctx) (acc : BitVec 2) : SameRegisters c (trappedCtx c acc) := by
  unfold trappedCtx
  split <;> exact ⟨rfl, rfl, rfl, rfl, rfl, rfl, rfl⟩

/-! ## Traps of a user context and of the system context -/

/-- The waiter of a lock whose fetch faults is absent from its queue. -/
def absentWaiter (s : State) (acc : BitVec 2) : State :=
  let s := { s with pfx := none, idle := false }
  if acc = 3 ∧ s.cur.slot ≤ 10 then s.markAbsent s.cur true else s

theorem trapNow_eq (s : State) (t : TrapInfo) (long pfx : Bool) (hra : s.c.ra = false) (hfill : t.fill = none) (hff : t.ff = none) :
    s.trapNow t long pfx = (absentWaiter s t.acc).takeTrap s.cur t long false pfx := by
  have hc : ({ s.noteFail t with pfx := none, idle := false } : State).c = s.c := by
    unfold State.noteFail
    rw [hff]
    rfl
  unfold State.trapNow
  simp only [hfill]
  rw [hc, hra, if_neg Bool.false_ne_true]
  unfold State.noteFail
  rw [hff]
  rfl

section
variable (s : State) (acc : BitVec 2)

theorem absentWaiter_ctx (id : CtxId) : (absentWaiter s acc).ctx id = s.ctx id := by
  unfold absentWaiter
  simp only
  split <;> rfl

theorem absentWaiter_core (n k : Nat) : (absentWaiter s acc).core n k = s.core n k := by
  unfold absentWaiter
  simp only
  split <;> rfl

theorem absentWaiter_mem : (absentWaiter s acc).mem = s.mem := by
  unfold absentWaiter
  simp only
  split <;> rfl

theorem absentWaiter_pfx : (absentWaiter s acc).pfx = none := by
  unfold absentWaiter
  simp only
  split <;> rfl

theorem absentWaiter_cur : (absentWaiter s acc).cur = s.cur := by
  unfold absentWaiter
  simp only
  split <;> rfl

end

theorem takeTrap_user (s : State) (id : CtxId) (t : TrapInfo) (long pfx : Bool) (hslot : id.slot ≤ 10)
    (hq : (s.core id.node id.core).slot = id.slot) : s.takeTrap id t long false pfx =
    (((s.setCtx id { (trappedCtx (s.ctx id) t.acc).record t.cause.code (s.ctx id).pc t.tval (tinfoOf long false t.acc t.wlev pfx) with st := .parked }).setCore
      id.node id.core { s.core id.node id.core with pend := (s.core id.node id.core).pend ||| BitVec.ofNat 11 (2 ^ id.slot) }).switchSlot
      id.node id.core) := by
  unfold State.takeTrap trappedCtx
  simp only [Bool.false_eq_true, false_or]
  rw [if_pos hslot, if_pos hq]

theorem takeTrap_handler (s : State) (id : CtxId) (t : TrapInfo) (long pfx : Bool) (hslot : ¬id.slot ≤ 10)
    (ht : ¬((s.core id.node id.core).tvec = 0 ∨ ((s.core id.node id.core).sv = true ∧ (s.core id.node id.core).sslot = 11))) :
    s.takeTrap id t long false pfx =
    ((s.setCtx id { (trappedCtx (s.ctx id) t.acc).record t.cause.code (s.ctx id).pc t.tval (tinfoOf long false t.acc t.wlev pfx) with
        pc := (s.core id.node id.core).tvec, st := .ready }).setCore id.node id.core
      { s.core id.node id.core with oslot := (s.core id.node id.core).sslot, osv := (s.core id.node id.core).sv, sslot := 11, sv := true, run := 0 }) := by
  unfold State.takeTrap trappedCtx
  simp only [Bool.false_eq_true, false_or]
  rw [if_neg hslot, if_neg ht]

theorem takeTrap_stops (s : State) (id : CtxId) (t : TrapInfo) (long pfx : Bool) (hslot : ¬id.slot ≤ 10)
    (hq : (s.core id.node id.core).slot = 11)
    (ht : (s.core id.node id.core).tvec = 0 ∨ ((s.core id.node id.core).sv = true ∧ (s.core id.node id.core).sslot = 11)) :
    s.takeTrap id t long false pfx = ((s.setCtx id (trappedCtx (s.ctx id) t.acc)).machineCheck id.node id.core
      ⟨true, t.cause.code, 11, 0, 0, (s.ctx id).pc, t.tval⟩).switchSlot id.node id.core := by
  unfold State.takeTrap trappedCtx
  simp only [Bool.false_eq_true, false_or]
  rw [if_neg hslot, if_pos ht, if_pos hq]

theorem tinfo_sync (long pfx : Bool) (acc : BitVec 2) (wlev : BitVec 3) : tinfoOf long false acc wlev pfx =
    BitVec.ofNat 64 (pfx.toNat + 2 * wlev.toNat + 16 * acc.toNat + 128 * long.toNat) := rfl

section
variable (s : State) (c : Cause) (v : Word) (acc : BitVec 2) (wlev : BitVec 3) (long pfx : Bool)

/-- A user slot is parked with its record written. -/
theorem trapNow_user (hslot : s.cc.slot ≤ 10) (hra : s.c.ra = false) :
    s.trapNow { cause := c, tval := v, acc := acc, wlev := wlev } long pfx =
    ((((absentWaiter s acc).setCtx s.cur { (trappedCtx s.c acc).record c.code s.c.pc v (tinfoOf long false acc wlev pfx) with
        st := .parked }).setCore s.fnode s.fcore { s.cc with pend := s.cc.pend ||| BitVec.ofNat 11 (2 ^ s.cc.slot) }).switchSlot s.fnode s.fcore) := by
  rw [trapNow_eq s _ long pfx hra rfl rfl, takeTrap_user _ _ _ _ _ hslot (by rw [absentWaiter_core]; rfl), absentWaiter_core, absentWaiter_ctx]
  rfl

theorem trapNow_handler (hslot : s.cc.slot = 11) (hra : s.c.ra = false) (htv : s.cc.tvec ≠ 0) (hown : ¬(s.cc.sv = true ∧ s.cc.sslot = 11)) :
    s.trapNow { cause := c, tval := v, acc := acc, wlev := wlev } long pfx =
    (((absentWaiter s acc).setCtx s.cur { (trappedCtx s.c acc).record c.code s.c.pc v (tinfoOf long false acc wlev pfx) with
        pc := s.cc.tvec, st := .ready }).setCore s.fnode s.fcore
      { s.cc with oslot := s.cc.sslot, osv := s.cc.sv, sslot := 11, sv := true, run := 0 }) := by
  have h11 : ¬s.cur.slot ≤ 10 := by
    change ¬s.cc.slot ≤ 10
    omega
  rw [trapNow_eq s _ long pfx hra rfl rfl, takeTrap_handler _ _ _ _ _ h11 (by rw [absentWaiter_core]; exact not_or.mpr ⟨htv, hown⟩),
    absentWaiter_core, absentWaiter_ctx]
  rfl

theorem trapNow_stops (hslot : s.cc.slot = 11) (hra : s.c.ra = false) (hown : s.cc.tvec = 0 ∨ (s.cc.sv = true ∧ s.cc.sslot = 11)) :
    s.trapNow { cause := c, tval := v, acc := acc, wlev := wlev } long pfx =
    (((absentWaiter s acc).setCtx s.cur (trappedCtx s.c acc)).machineCheck s.fnode s.fcore
      ⟨true, c.code, 11, 0, 0, s.c.pc, v⟩).switchSlot s.fnode s.fcore := by
  have h11 : ¬s.cur.slot ≤ 10 := by
    change ¬s.cc.slot ≤ 10
    omega
  rw [trapNow_eq s _ long pfx hra rfl rfl, takeTrap_stops _ _ _ _ _ h11 (by rw [absentWaiter_core]; exact hslot) (by rw [absentWaiter_core]; exact hown),
    absentWaiter_ctx]
  rfl

end

/-! ## The statement -/

theorem setCore_switch_ctx (u : State) (n k : Nat) (q : CoreSt) (id : CtxId) : ((u.setCore n k q).switchSlot n k).ctx id = u.ctx id := rfl

theorem user_trap_effect (s : State) (c : Cause) (v : Word) (acc : BitVec 2) (wlev : BitVec 3) (long pfx : Bool) (hslot : s.cc.slot ≤ 10)
    (hra : s.c.ra = false) :
    let t := s.trapNow { cause := c, tval := v, acc := acc, wlev := wlev } long pfx
    t.ctx s.cur = { (trappedCtx s.c acc).record c.code s.c.pc v (tinfoOf long false acc wlev pfx) with st := .parked } ∧
    (t.core s.fnode s.fcore).pend = s.cc.pend ||| BitVec.ofNat 11 (2 ^ s.cc.slot) ∧ t.mem = s.mem ∧ t.pfx = none ∧
    (∀ id, id ≠ s.cur → t.ctx id = s.ctx id) ∧ (∀ n k, (n, k) ≠ (s.fnode, s.fcore) → t.core n k = s.core n k) := by
  intro t
  have ht : t = _ := trapNow_user s c v acc wlev long pfx hslot hra
  rw [ht]
  obtain ⟨j, hj⟩ := TrapGroup.switchSlot_core (((absentWaiter s acc).setCtx s.cur { (trappedCtx s.c acc).record c.code s.c.pc v
    (tinfoOf long false acc wlev pfx) with st := .parked }).setCore s.fnode s.fcore
      { s.cc with pend := s.cc.pend ||| BitVec.ofNat 11 (2 ^ s.cc.slot) }) s.fnode s.fcore
  refine ⟨?_, ?_, absentWaiter_mem s acc, absentWaiter_pfx s acc, fun id hid => ?_, fun n k hnk => ?_⟩
  · rw [setCore_switch_ctx, setCtx_ctx_same]
  · rw [hj, setCore_core_same]
  · rw [setCore_switch_ctx, setCtx_ctx_other _ _ _ _ hid, absentWaiter_ctx]
  · rw [switchSlot_core_other _ _ _ _ _ hnk, setCore_core_other _ _ _ _ _ _ hnk, setCtx_core, absentWaiter_core]

theorem handler_trap_effect (s : State) (c : Cause) (v : Word) (acc : BitVec 2) (long pfx : Bool) (hslot : s.cc.slot = 11)
    (hra : s.c.ra = false) (htv : s.cc.tvec ≠ 0) (hown : ¬(s.cc.sv = true ∧ s.cc.sslot = 11)) :
    let t := s.trapNow { cause := c, tval := v, acc := acc } long pfx
    t.c = { (trappedCtx s.c acc).record c.code s.c.pc v (tinfoOf long false acc 0 pfx) with pc := s.cc.tvec, st := .ready } ∧
    t.cc = { s.cc with oslot := s.cc.sslot, osv := s.cc.sv, sslot := 11, sv := true, run := 0 } ∧ t.mem = s.mem := by
  intro t
  have ht : t = _ := trapNow_handler s c v acc 0 long pfx hslot hra htv hown
  have hcc : t.cc = { s.cc with oslot := s.cc.sslot, osv := s.cc.sv, sslot := 11, sv := true, run := 0 } := by
    have hf : t.fnode = s.fnode ∧ t.fcore = s.fcore := by
      rw [ht]
      unfold absentWaiter
      simp only
      split <;> exact ⟨rfl, rfl⟩
    unfold State.cc
    rw [hf.1, hf.2, ht, setCore_core_same]
    rfl
  have hcur : t.cur = s.cur := by
    have hf : t.fnode = s.fnode ∧ t.fcore = s.fcore := by
      rw [ht]
      unfold absentWaiter
      simp only
      split <;> exact ⟨rfl, rfl⟩
    unfold State.cur
    rw [hcc, hf.1, hf.2]
  refine ⟨?_, hcc, by rw [ht]; exact absentWaiter_mem s acc⟩
  unfold State.c
  rw [hcur, ht, setCore_ctx, setCtx_ctx_same]
  rfl

theorem stop_effect (s : State) (c : Cause) (v : Word) (acc : BitVec 2) (long pfx : Bool) (hslot : s.cc.slot = 11)
    (hra : s.c.ra = false) (hown : s.cc.tvec = 0 ∨ (s.cc.sv = true ∧ s.cc.sslot = 11)) :
    let t := s.trapNow { cause := c, tval := v, acc := acc } long pfx
    t.ctx s.cur = trappedCtx s.c acc ∧ t.mem = s.mem ∧ (t.core s.fnode s.fcore).stopped = true ∧
      (s.cc.mcheck.valid = false → (t.core s.fnode s.fcore).mcheck = ⟨true, c.code, 11, 0, 0, s.c.pc, v⟩) ∧
      (s.cc.mcheck.valid = true → (t.core s.fnode s.fcore).mcheck = s.cc.mcheck ∧
        (t.core s.fnode s.fcore).overflow = s.cc.overflow + 1) := by
  intro t
  have ht : t = _ := trapNow_stops s c v acc 0 long pfx hslot hra hown
  rw [ht]
  obtain ⟨j, hj⟩ := TrapGroup.switchSlot_core (((absentWaiter s acc).setCtx s.cur (trappedCtx s.c acc)).machineCheck s.fnode s.fcore
      ⟨true, c.code, 11, 0, 0, s.c.pc, v⟩) s.fnode s.fcore
  refine ⟨?_, absentWaiter_mem s acc, ?_⟩
  · change ((absentWaiter s acc).setCtx s.cur (trappedCtx s.c acc)).ctx s.cur = _
    rw [setCtx_ctx_same]
  · rw [hj]
    unfold State.machineCheck
    simp only [setCtx_core, absentWaiter_core, true_or, if_true, setCore_core_same]
    refine ⟨trivial, fun hv => ?_, fun hv => ?_⟩
    · rw [if_neg (by rw [show s.core s.fnode s.fcore = s.cc from rfl, hv]; exact Bool.false_ne_true)]
    · rw [if_pos (show (s.core s.fnode s.fcore).mcheck.valid = true from hv)]
      exact ⟨rfl, rfl⟩

/-- Settles O15, by the context that traps and, in the system context, by TVEC and its own trap. -/
theorem takingATrap : Obligations.TakingATrap := by
  unfold Obligations.TakingATrap
  refine ⟨fun s c v acc wlev long pfx hslot hra => ?_, fun s c v acc long pfx hslot hra => ⟨fun htv hown => ?_, fun hown => ?_⟩⟩
  · obtain ⟨hctx, hpend, hmem, hpfx, hids, hcores⟩ := user_trap_effect s c v acc wlev long pfx hslot hra
    obtain ⟨hpc, hx, hv, hp, hg, hins, hfp⟩ := trapped_sameRegisters s.c acc
    refine ⟨?_, ?_, ?_, ?_, ?_, ?_, ?_, ?_, ?_, ?_, ?_, ?_, hpend, hmem, hpfx, hids, hcores⟩ <;> rw [hctx]
    · rfl
    · rfl
    · rfl
    · exact tinfo_sync ..
    · exact hpc
    · exact hx
    · exact hv
    · exact hp
    · exact hg
    · exact hins
    · exact hfp
  · obtain ⟨hc, hcc, hmem⟩ := handler_trap_effect s c v acc long pfx hslot hra htv hown
    obtain ⟨hpc, hx, -⟩ := trapped_sameRegisters s.c acc
    rw [hc, hcc]
    exact ⟨rfl, rfl, rfl, rfl, hx, rfl, rfl, rfl, rfl, hslot, hmem⟩
  · obtain ⟨hctx, hmem, hstop, hfree, hvalid⟩ := stop_effect s c v acc long pfx hslot hra hown
    obtain ⟨hpc, hx, -⟩ := trapped_sameRegisters s.c acc
    rw [hctx]
    exact ⟨hstop, hx, hpc, hmem, hfree, hvalid⟩

/-! ## WFE -/

/-- The core of WFE: the PEND bit of a selected slot that is parked still is set again (R422). -/
def repended (q : CoreSt) (back : Bool) : CoreSt :=
  if back then { q with pend := q.pend ||| BitVec.ofNat 11 (2 ^ q.sslot.toNat) } else q

theorem getLsbD_eleven (v : BitVec 11) : v.getLsbD 11 = false := BitVec.getLsbD_of_ge v 11 (Nat.le_refl 11)

/-- The first pending slot in rotating order is the one selected. -/
theorem nextPend_first (q : CoreSt) (i : Nat) (hi : i < 12) (hset : q.pend.getLsbD ((q.lastSel + 1 + i) % 12) = true)
    (hbefore : ∀ k, k < i → q.pend.getLsbD ((q.lastSel + 1 + k) % 12) = false) : q.nextPend = some ((q.lastSel + 1 + i) % 12) := by
  unfold CoreSt.nextPend Machine.rotation
  rw [List.find?_eq_some_iff_getElem]
  have hle : (q.lastSel + 1 + i) % 12 ≤ 10 := by
    by_contra hgt
    rw [show (q.lastSel + 1 + i) % 12 = 11 by omega, getLsbD_eleven] at hset
    exact Bool.false_ne_true hset
  refine ⟨by simp [hle, hset], i, by simpa using hi, by simp, fun k hk => ?_⟩
  simp [hbefore k hk]

theorem nextPend_none (q : CoreSt) (h : q.pend = 0) : q.nextPend = none := by
  unfold CoreSt.nextPend
  rw [List.find?_eq_none]
  intro j _
  simp [h]

section
variable (s : State) (d a : Reg)

/-- Whether WFE sets the PEND bit of the selected slot again. -/
def stillParked (s : State) : Bool := s.cc.sv && (s.ctx { s.cur with slot := s.cc.sslot.toNat }).st == .parked

theorem repended_pend : (repended s.cc (stillParked s)).pend =
    if s.cc.sv = true ∧ (s.ctx { s.cur with slot := s.cc.sslot.toNat }).st = .parked then
      s.cc.pend ||| BitVec.ofNat 11 (2 ^ s.cc.sslot.toNat) else s.cc.pend := by
  unfold repended stillParked
  simp only [Bool.and_eq_true, beq_iff_eq]
  split <;> rfl

theorem repended_lastSel : (repended s.cc (stillParked s)).lastSel = s.cc.lastSel := by
  unfold repended
  split <;> rfl

theorem repended_slot : (repended s.cc (stillParked s)).slot = s.cc.slot := by
  unfold repended
  split <;> rfl

theorem exec_wfe (hsys : s.sys = true) (hown : ¬(s.cc.sv = true ∧ s.cc.sslot = 11)) : exec (.wfe d a) s = finish (.wfe d a) s (
    match (repended s.cc (stillParked s)).nextPend with
    | some j =>
      let q := { repended s.cc (stillParked s) with
        pend := (repended s.cc (stillParked s)).pend &&& ~~~(BitVec.ofNat 11 (2 ^ j)), sslot := BitVec.ofNat 4 j, sv := true, lastSel := j }
      .ok ((s.setCC q).acquire.setX d q.tslotW)
    | none =>
      if s.c.expired ∧ s.X a ≠ 0 then
        let q := { repended s.cc (stillParked s) with sv := false }
        .ok ((s.setCC q).setX d q.tslotW)
      else .error (.wait .wfe (s.setCC (repended s.cc (stillParked s))))) := by
  change execWfe d a s = _
  unfold execWfe
  rw [TrapGroup.sysOnly_of_sys _ _ _ hsys]
  simp only
  rw [if_neg hown]
  rfl

/-- What WFE selects from is no concern of an acquire. -/
theorem forget_selection (q : CoreSt) (clock : Nat) (p : L1Line → Bool) : (q.forget clock p).pend = q.pend ∧ (q.forget clock p).sslot = q.sslot ∧
    (q.forget clock p).sv = q.sv ∧ (q.forget clock p).lastSel = q.lastSel ∧ (q.forget clock p).tslotW = q.tslotW := by
  unfold CoreSt.forget
  induction q.l1.filter p generalizing q with
  | nil => exact ⟨rfl, rfl, rfl, rfl, rfl⟩
  | cons l ls ih => exact ih (q.lose clock false l)

theorem acquire_setCC_cc (u : State) (q : CoreSt) : (u.setCC q).acquire.cc = q.forget u.clock (fun l => l.st == .untracked) := by
  unfold State.acquire
  rw [setCC_cc, setCC_cc]
  rfl

theorem acquire_mem (u : State) : u.acquire.mem = u.mem := rfl

theorem setCC_c (u : State) (q : CoreSt) (hq : q.slot = u.cc.slot) : (u.setCC q).c = u.c := by
  have hcur : (u.setCC q).cur = u.cur := by
    unfold State.cur
    rw [setCC_cc, hq]
    rfl
  unfold State.c
  rw [hcur]
  rfl

theorem retire_tslotW (u : State) (i : Instr) : (u.retire i).cc.tslotW = u.cc.tslotW := by
  rw [retire_cc]
  rfl

/-- A pending slot is selected. -/
theorem wfe_selects (hsys : s.sys = true) (hown : ¬(s.cc.sv = true ∧ s.cc.sslot = 11)) (j : Nat)
    (hj : (repended s.cc (stillParked s)).nextPend = some j) : Completes (.wfe d a) s (fun t =>
      t.cc.sslot = BitVec.ofNat 4 j ∧ t.cc.sv = true ∧ t.cc.lastSel = j ∧
      t.cc.pend = (repended s.cc (stillParked s)).pend &&& ~~~(BitVec.ofNat 11 (2 ^ j)) ∧ XIs s t d t.cc.tslotW ∧ t.mem = s.mem) := by
  have he := exec_wfe s d a hsys hown
  rw [hj] at he
  refine completes_finish he ?_
  generalize hq : ({ repended s.cc (stillParked s) with
      pend := (repended s.cc (stillParked s)).pend &&& ~~~(BitVec.ofNat 11 (2 ^ j)), sslot := BitVec.ofNat 4 j, sv := true, lastSel := j } : CoreSt) = q
  have hslot : q.slot = s.cc.slot := by rw [← hq]; exact repended_slot s
  obtain ⟨hpend, hsslot, hsv, hlast, htslot⟩ := forget_selection q s.clock (fun l => l.st == .untracked)
  have hcc : ((s.setCC q).acquire.setX d q.tslotW).cc = q.forget s.clock (fun l => l.st == .untracked) := by
    rw [setX_cc, acquire_setCC_cc]
  rw [retire_tslotW, retire_cc, hcc, htslot]
  have hx : (s.setCC q).acquire.c.x = s.c.x := by rw [Barriers.acquire_c, setCC_c _ _ hslot]
  have hmem : (((s.setCC q).acquire.setX d q.tslotW).retire (.wfe d a)).mem = s.mem := (complete_mem _ _ _).trans (acquire_mem _)
  refine ⟨?_, ?_, ?_, ?_, ?_, hmem⟩
  · exact hsslot.trans (by rw [← hq])
  · exact hsv.trans (by rw [← hq])
  · exact hlast.trans (by rw [← hq])
  · exact hpend.trans (by rw [← hq])
  · exact xIs_congr hx (xIs_retire_setX _ _ _ _)

theorem repended_none (hp : (repended s.cc (stillParked s)).pend = 0) : (repended s.cc (stillParked s)).nextPend = none := nextPend_none _ hp

/-- The time-out has passed with no slot pending. -/
theorem wfe_timeOut (hsys : s.sys = true) (hown : ¬(s.cc.sv = true ∧ s.cc.sslot = 11)) (hp : (repended s.cc (stillParked s)).pend = 0)
    (hexp : s.c.expired = true) (ha : s.X a ≠ 0) : Completes (.wfe d a) s (fun t =>
      t.cc.sv = false ∧ t.cc.pend = 0 ∧ XIs s t d t.cc.tslotW ∧ t.mem = s.mem) := by
  have he := exec_wfe s d a hsys hown
  simp only [repended_none s hp] at he
  rw [if_pos ⟨hexp, ha⟩] at he
  refine completes_finish he ?_
  rw [retire_tslotW, retire_cc, setX_cc, setCC_cc]
  refine ⟨rfl, hp, xIs_congr ?_ (xIs_retire_setX _ _ _ _), rfl⟩
  rw [setCC_c]
  exact repended_slot s

theorem wfe_waits (hsys : s.sys = true) (hown : ¬(s.cc.sv = true ∧ s.cc.sslot = 11)) (hp : (repended s.cc (stillParked s)).pend = 0)
    (hexp : s.c.expired = false ∨ s.X a = 0) : Waits (.wfe d a) s .wfe := by
  have he := exec_wfe s d a hsys hown
  simp only [repended_none s hp] at he
  rw [if_neg (by rintro ⟨h1, h2⟩; rcases hexp with h | h <;> simp_all)] at he
  refine Barriers.waits_of_finish _ s _ _ he ?_ ?_ rfl
  · unfold State.cur
    rw [setCC_cc, repended_slot]
    rfl
  · rw [setCC_c _ _ (repended_slot s)]

end

/-- Settles O18, by whether a slot is pending and the time-out has passed. -/
theorem wfeSelectsThePendingSlot : Obligations.WfeSelectsThePendingSlot := by
  unfold Obligations.WfeSelectsThePendingSlot
  intro s d a hsys
  refine ⟨fun hsv hslot => ?_, fun hown => ?_⟩
  · refine traps_finish ?_
    change execWfe d a s = _
    unfold execWfe
    rw [TrapGroup.sysOnly_of_sys _ _ _ hsys]
    rw [(TrapGroup.trapWord_eq_encodeFirst d a).1]
    exact congrArg (finish (.wfe d a) s) (if_pos ⟨hsv, hslot⟩)
  · rw [← repended_pend, ← repended_lastSel]
    refine ⟨fun i hi hset hbefore => ?_, wfe_timeOut s d a hsys hown, wfe_waits s d a hsys hown⟩
    exact wfe_selects s d a hsys hown _ (nextPend_first _ i hi hset hbefore)

end Sys2Proof.TrapTaking
end

section
/-! What the floating-point and vector units leave: the registers they write, the flags they raise, and the frame. -/

namespace Sys2Proof.Units
set_option Elab.async false
open Sys2Proof Sys2Proof.Machine Sys2Proof.Safety Sys2Proof.Ends

/-! ## The frame -/

/-- Between the two states only X, V, P and FPSTAT of the issuing context, its core's vector queue and the work to come differ; the flags `f`
are raised. -/
structure Touches (f : BitVec 5) (s t : State) : Prop where
  units : t = { s with ctxs := t.ctxs, cores := t.cores, work := t.work }
  ctx : t.c = { s.c with x := t.c.x, v := t.c.v, p := t.c.p, fpstat := if s.c.ra then s.c.fpstat else s.c.fpstat ||| f }

theorem touches_refl (s : State) : Touches 0 s s where
  units := rfl
  ctx := by
    have h : s.c.fpstat ||| (0 : BitVec 5) = s.c.fpstat := by simp
    rw [h, ite_self]

theorem setFlags_c (s : State) (g : BitVec 5) : (s.setFlags g).c = { s.c with fpstat := if s.c.ra then s.c.fpstat else s.c.fpstat ||| g } := by
  unfold State.setFlags
  split
  · rfl
  · exact setC_c _ _

theorem setFlags_units (s : State) (g : BitVec 5) : s.setFlags g = { s with ctxs := (s.setFlags g).ctxs } := by
  unfold State.setFlags
  split <;> rfl

theorem vqPush_c (s : State) (d : Nat) (l : List Nat) : (s.vqPush d l).c = s.c := by
  have hcur : (s.vqPush d l).cur = s.cur := by
    change (s.setCC _).cur = _
    unfold State.cur
    rw [setCC_cc]
    rfl
  unfold State.c
  rw [hcur]
  rfl

section
variable {f : BitVec 5} {s t : State} (h : Touches f s t)
include h

theorem Touches.ra : t.c.ra = s.c.ra := by rw [h.ctx]

theorem Touches.setFlags (g : BitVec 5) : Touches (f ||| g) s (t.setFlags g) where
  units := by
    rw [setFlags_units, h.units]
  ctx := by
    rw [setFlags_c, h.ra, h.ctx]
    cases s.c.ra
    · simp [BitVec.or_assoc]
    · rfl

theorem Touches.setX (r : Reg) (v : Word) : Touches f s (t.setX r v) where
  units := by
    rw [h.units]
    rfl
  ctx := by
    rw [setX_c]
    unfold Ctx.setX
    split
    · exact h.ctx
    · rw [h.ctx]

theorem Touches.setV (r : Reg) (v : Vec) : Touches f s (t.setC (t.c.setV r v)) where
  units := by
    rw [h.units]
    rfl
  ctx := by
    rw [setC_c, h.ctx]
    rfl

theorem Touches.setP (r : Reg) (v : Byte) : Touches f s (t.setP r v) where
  units := by
    rw [h.units]
    rfl
  ctx := by
    rw [show (t.setP r v).c = t.c.setP r v from setC_c _ _]
    unfold Ctx.setP
    split
    · rw [h.ctx]
    · rw [h.ctx]

theorem Touches.vqPush (d : Nat) (l : List Nat) : Touches f s (t.vqPush d l) where
  units := by
    rw [h.units]
    rfl
  ctx := by rw [vqPush_c, ← h.ctx]

/-- What such an instruction leaves once it has retired. -/
theorem Touches.frame (i : Instr) : VecFrame f s (t.retire i) := by
  have hu : ∀ {α : Type} (g : State → α), (∀ a b c, g { s with ctxs := a, cores := b, work := c } = g s) → g t = g s := fun g hg => by
    rw [h.units, hg]
  refine ⟨hu State.mem fun _ _ _ => rfl, hu State.lost fun _ _ _ => rfl, hu State.lostWords fun _ _ _ => rfl, hu State.polders fun _ _ _ => rfl,
    ?_, ?_, ?_, ?_⟩
  · exact ⟨hu State.dies fun _ _ _ => rfl, hu State.pkgs fun _ _ _ => rfl, hu State.group fun _ _ _ => rfl, hu State.domain fun _ _ _ => rfl,
      hu State.locks fun _ _ _ => rfl, hu State.nmOps fun _ _ _ => rfl, hu State.migs fun _ _ _ => rfl, hu State.flights fun _ _ _ => rfl,
      hu State.colls fun _ _ _ => rfl, hu State.clones fun _ _ _ => rfl, hu State.tokens fun _ _ _ => rfl, hu State.accepts fun _ _ _ => rfl,
      hu State.results fun _ _ _ => rfl, hu State.legUps fun _ _ _ => rfl, hu State.dirs fun _ _ _ => rfl, hu State.proxies fun _ _ _ => rfl,
      hu State.pins fun _ _ _ => rfl, hu State.late fun _ _ _ => rfl, hu State.tries fun _ _ _ => rfl⟩
  · refine ⟨rfl, rfl, ?_, rfl, ?_, ?_, ?_, ?_, ?_, ?_, ?_, ?_, ?_, ?_, ?_, ?_, ?_, ?_, ?_, ?_, ?_, ?_, ?_, ?_, ?_, ?_⟩ <;>
      simp only [retire_g, retire_rmode, retire_srseed, retire_asid, retire_ptroot, retire_wscale6, retire_wscale7, retire_tcause, retire_tpc, retire_tval,
        retire_tinfo, retire_ports, retire_ra, retire_gen, retire_lastEnd, retire_nmPending, retire_nmErrors, retire_holdBreaks, retire_poolStores,
        retire_poolLost, retire_seq, retire_pending, retire_granted] <;> rw [h.ctx]
  · rw [retire_fpstat, h.ctx]
  · rw [retire_instret, h.ctx]

end

/-! ## Without a prefix -/

theorem mode_default {s : State} (h : s.pfx = none) : s.mode = 0 := by
  unfold State.mode
  rw [h]

theorem rnd_default {s : State} (h : s.pfx = none) (r : Nat) : s.rnd r = Rnd.default := by
  unfold State.rnd
  rw [h]

theorem ovr_default {s : State} (h : s.pfx = none) : s.ovr = none := by
  unfold State.ovr
  rw [h]

theorem pfxScale_default {s : State} (h : s.pfx = none) : s.pfxScale = none := by
  unfold State.pfxScale
  rw [h]

theorem vty_default {s : State} (h : s.pfx = none) (t : BitVec 3) : s.vty t = ETy.ofT t.toNat := by
  unfold State.vty
  rw [ovr_default h]

theorem drawsOf_off (seed : BitVec 32) (n : Nat) : drawsOf false seed n = (List.replicate n 0, seed) := by
  induction n with
  | zero => rfl
  | succ n ih => simp [drawsOf, ih, List.replicate_succ]

theorem draws_default {s : State} (h : s.pfx = none) (n : Nat) : s.draws n = List.replicate n 0 := by
  unfold State.draws
  rw [mode_default h]
  exact congrArg Prod.fst (drawsOf_off _ n)

theorem drawn_c {s : State} (h : s.pfx = none) (n : Nat) : (s.drawn n).c = s.c := by
  unfold State.drawn
  rw [setC_c, mode_default h]
  change ({ s.c with srseed := (drawsOf false s.c.srseed n).2 } : Ctx) = s.c
  rw [drawsOf_off]

theorem touches_drawn {s : State} (h : s.pfx = none) (n : Nat) : Touches 0 s (s.drawn n) where
  units := rfl
  ctx := by
    rw [drawn_c h]
    exact (touches_refl s).ctx

theorem governed_plain (i : Instr) (s : State) (o : Out) : governed i false s o = o := rfl

end Sys2Proof.Units
end

section
/-! Scalar floating point: one value into X(rd), its flags into FPSTAT. -/

namespace Sys2Proof.ScalarFp
set_option Elab.async false
open Sys2Proof Sys2Proof.Machine Sys2Proof.Safety Sys2Proof.Ends Sys2Proof.Units

/-- The result of a scalar floating-point instruction: X(rd) and the flags. -/
def FpResult (d : Reg) (e : Nat × BitVec 5) (s t : State) : Prop :=
  XIs s t d (BitVec.ofNat 64 e.1) ∧ VecFrame e.2 s t ∧ t.c.v = s.c.v ∧ t.c.p = s.c.p

/-- X(d) written and flags raised, from a state whose registers are the instruction's. -/
theorem fpResult_retire (i : Instr) (d : Reg) (e : Nat × BitVec 5) {s u : State} (hu : Touches 0 s u) (hc : u.c = s.c) :
    FpResult d e s (((u.setX d (BitVec.ofNat 64 e.1)).setFlags e.2).retire i) := by
  have hflags : (0 : BitVec 5) ||| e.2 = e.2 := by simp
  have hx : ((u.setX d (BitVec.ofNat 64 e.1)).setFlags e.2).c.x = (u.setX d (BitVec.ofNat 64 e.1)).c.x := by rw [setFlags_c]
  refine ⟨fun r => ?_, ?_, ?_, ?_⟩
  · rw [retire_X]
    unfold State.X Ctx.xr
    rw [hx]
    change (u.setX d (BitVec.ofNat 64 e.1)).c.xr r = _
    rw [setX_c, xr_setX, hc]
    rfl
  · have h := ((hu.setX d (BitVec.ofNat 64 e.1)).setFlags e.2).frame i
    rwa [hflags] at h
  · rw [retire_v, setFlags_c, setX_c, hc]
    unfold Ctx.setX
    split <;> rfl
  · rw [retire_p, setFlags_c, setX_c, hc]
    unfold Ctx.setX
    split <;> rfl

/-- A member that does not round. -/
theorem completes_fpPlain {i : Instr} {s : State} {d : Reg} {e : Nat × BitVec 5} (h : exec i s = fpPlain i false d e s) : Completes i s (FpResult d e s) :=
  completes_finish h (fpResult_retire i d e (touches_refl s) rfl)

section
variable {i : Instr} {s : State} {d : Reg} (hp : s.pfx = none)
include hp

/-- A rounding member. -/
theorem completes_fpInstr {f : Rnd → Nat × BitVec 5} {e : Nat × BitVec 5} (h : exec i s = fpInstr i false d f s)
    (he : f { Rnd.default with canon := true } = e) : Completes i s (FpResult d e s) := by
  refine completes_finish (u := ((s.drawn 1).setX d (BitVec.ofNat 64 e.1)).setFlags e.2) ?_
    (fpResult_retire i d e (touches_drawn hp 1) (drawn_c hp 1))
  rw [h]
  unfold fpInstr
  rw [governed_plain, rnd_default hp, he]

end

/-! ## The canonical NaN is the default NaN -/

/-- Rounding does not ask whether an instruction is scalar. -/
theorem round_canon (y : ETy) (v : FVal) : y.round { Rnd.default with canon := true } v = y.round Rnd.default v := rfl

theorem nanResult_canon (y : ETy) (l : List FVal) (nv : Bool) :
    nanResult y { Rnd.default with canon := true } l nv = nanResult y Rnd.default l nv := rfl

theorem opResult_canon (y : ETy) (x : FVal × BitVec 5) : opResult y { Rnd.default with canon := true } x = opResult y Rnd.default x := rfl

theorem fpOp_canon (y : ETy) (l : List FVal) (x : FVal × BitVec 5) : fpOp y { Rnd.default with canon := true } l x = fpOp y Rnd.default l x := rfl

theorem roundInt_canon (y : ETy) (v : FVal) : y.roundInt { Rnd.default with canon := true } v = y.roundInt Rnd.default v := rfl

/-! ## The two conversions and SCAL -/

theorem fcvti_value (c : Nat) : convertEl .fp32 .i64 { Rnd.default with canon := true } c id = ETy.roundInt .i64 Rnd.default (ETy.decode .fp32 c) := rfl

theorem i64_toInt (w : Word) : ETy.toInt .i64 w.toNat = w.toInt := by
  change signedN w.toNat 64 = _
  rw [Barriers.signedN_eq_toInt _ 64 (by decide), BitVec.ofNat_toNat, BitVec.setWidth_eq]

theorem fcvtf_value (w : Word) : convertEl .i64 .fp32 { Rnd.default with canon := true } w.toNat id = ETy.round .fp32 Rnd.default (FVal.ofInt w.toInt) := by
  rw [← i64_toInt]
  exact (if_neg Bool.false_ne_true).trans (if_pos rfl)

theorem flt_value (a b : Nat) : fltResult a b = if (ETy.decode .fp32 a).isNan ∨ (ETy.decode .fp32 b).isNan then (0, fNV)
    else ((fvLt (ETy.decode .fp32 a) (ETy.decode .fp32 b)).toNat, 0) := by
  unfold fltResult
  simp only [Bool.or_eq_true]

theorem feq_value (a b : Nat) : feqResult a b = if (ETy.decode .fp32 a).isNan ∨ (ETy.decode .fp32 b).isNan then
    (0, if (ETy.decode .fp32 a).isSnan ∨ (ETy.decode .fp32 b).isSnan then fNV else 0)
    else ((fvEq (ETy.decode .fp32 a) (ETy.decode .fp32 b)).toNat, 0) := by
  unfold feqResult
  simp only [Bool.or_eq_true]

theorem scaleOk_eq (c : Nat) : scaleOk c = decide (0 < c ∧ c < 0x7F800000) := rfl

theorem scal_traps (s : State) (d a b : Reg) (h : s.F b = 0 ∨ 0x7F800000 ≤ s.F b) : Traps (.scal false d a b) s .scaleInvalid (BitVec.ofNat 64 (s.F b)) 0 := by
  have hb : scaleOk (s.F b) = false := by rw [scaleOk_eq]; exact decide_eq_false (by omega)
  refine traps_finish ?_
  change execScal false d a b s = _
  unfold execScal
  simp only [hb, Bool.not_false, if_true]
  rfl

section
variable {s : State} (hp : s.pfx = none) (d a b : Reg)
include hp

theorem scal_value (hpos : 0 < s.F b) (hfin : s.F b < 0x7F800000) : Completes (.scal false d a b) s (FpResult d
    (fpOp .fp32 Rnd.default [ETy.decode .fp32 (s.F a)]
      (fvMul (fvMul (ETy.decode .fp32 (s.F a)) (ETy.decode .fp32 (s.F b))).1 (ETy.decode .fp32 0x3F800000))) s) := by
  have hb : scaleOk (s.F b) = true := by rw [scaleOk_eq]; exact decide_eq_true ⟨hpos, hfin⟩
  have hone : scaleOk 0x3F800000 = true := by decide
  refine completes_fpInstr hp (f := fun r => fpOp .fp32 r [ETy.decode .fp32 (s.F a)]
    (fvMul (fvMul (ETy.decode .fp32 (s.F a)) (ETy.decode .fp32 (s.F b))).1 (ETy.decode .fp32 0x3F800000))) ?_ (fpOp_canon ..)
  change execScal false d a b s = _
  unfold execScal
  rw [pfxScale_default hp]
  simp only [hb, Option.getD_none, hone, Bool.not_true, Bool.false_eq_true, if_false]

/-- The members, each with its value. -/
theorem scalarFp_members : ∀ e ∈ [(Instr.fadd false d a b, fpAdd .fp32 Rnd.default (s.F a) (s.F b)), (.fsub false d a b, fpSub .fp32 Rnd.default (s.F a) (s.F b)), (.fmul false d a b, fpMul .fp32 Rnd.default (s.F a) (s.F b)),
        (.fmac false d a b, fpFma .fp32 Rnd.default false (s.F d) (s.F a) (s.F b)), (.fdiv false d a b, fpDiv .fp32 Rnd.default (s.F a) (s.F b)), (.fsqrt false d a, fpUnary fvSqrt .fp32 Rnd.default (s.F a)),
        (.fmin false d a b, fpMinMax .fp32 Rnd.default false (s.F a) (s.F b)), (.fmax false d a b, fpMinMax .fp32 Rnd.default true (s.F a) (s.F b)),
        (.fcvti false d a, ETy.roundInt .i64 Rnd.default (ETy.decode .fp32 (s.F a))),
        (.fcvtf false d a, ETy.round .fp32 Rnd.default (FVal.ofInt (s.X a).toInt)),
        (.flt false d a b, if (ETy.decode .fp32 (s.F a)).isNan ∨ (ETy.decode .fp32 (s.F b)).isNan then (0, fNV)
          else ((fvLt (ETy.decode .fp32 (s.F a)) (ETy.decode .fp32 (s.F b))).toNat, 0)),
        (.feq false d a b, if (ETy.decode .fp32 (s.F a)).isNan ∨ (ETy.decode .fp32 (s.F b)).isNan then
          (0, if (ETy.decode .fp32 (s.F a)).isSnan ∨ (ETy.decode .fp32 (s.F b)).isSnan then fNV else 0)
          else ((fvEq (ETy.decode .fp32 (s.F a)) (ETy.decode .fp32 (s.F b))).toNat, 0)),
        (.fclass false d a, (2 ^ fclassBit (s.F a), 0))], Completes e.1 s (FpResult d e.2 s) := by
  simp only [List.forall_mem_cons, List.not_mem_nil, false_imp_iff, implies_true, and_true]
  refine ⟨?_, ?_, ?_, ?_, ?_, ?_, ?_, ?_, ?_, ?_, ?_, ?_, ?_⟩
  · exact completes_fpInstr hp (show execFadd false d a b s = _ from rfl) (fpOp_canon ..)
  · exact completes_fpInstr hp (show execFsub false d a b s = _ from rfl) (fpOp_canon ..)
  · exact completes_fpInstr hp (show execFmul false d a b s = _ from rfl) (fpOp_canon ..)
  · exact completes_fpInstr hp (show execFmac false d a b s = _ from rfl) rfl
  · exact completes_fpInstr hp (show execFdiv false d a b s = _ from rfl) (fpOp_canon ..)
  · exact completes_fpInstr hp (show execFsqrt false d a s = _ from rfl) (fpOp_canon ..)
  · refine completes_fpPlain ?_
    rw [← rnd_default hp 0]
    rfl
  · refine completes_fpPlain ?_
    rw [← rnd_default hp 0]
    rfl
  · exact completes_fpInstr hp (show execFcvti false d a s = _ from rfl) (fcvti_value _)
  · exact completes_fpInstr hp (show execFcvtf false d a s = _ from rfl) (fcvtf_value _)
  · refine completes_fpPlain ?_
    rw [← flt_value]
    rfl
  · refine completes_fpPlain ?_
    rw [← feq_value]
    rfl
  · exact completes_fpPlain rfl

end

/-- Settles O36, by the members and SCAL's check of its scale. -/
theorem scalarFloatingPointResults : Obligations.ScalarFloatingPointResults := by
  unfold Obligations.ScalarFloatingPointResults
  exact fun s d a b hp => ⟨scalarFp_members hp d a b, scal_value hp d a b, scal_traps s d a b⟩

end Sys2Proof.ScalarFp
end

section
/-! Vector registers as lists of elements, and what an instruction of the vector unit leaves when no port and no prefix is in force. -/

namespace Sys2Proof.Lanes
set_option Elab.async false
open Sys2Proof Sys2Proof.Machine Sys2Proof.Safety Sys2Proof.Ends Sys2Proof.Units

/-! ## Elements -/

theorem elems_eq_map (v w n : Nat) : elems v w n = (List.range n).map (fun i => v / 2 ^ (w * i) % 2 ^ w) := by
  induction n generalizing v with
  | zero => rfl
  | succ n ih =>
    rw [elems, ih, List.range_succ_eq_map, List.map_cons, List.map_map]
    congr 1
    · simp
    · refine List.map_congr_left fun i _ => ?_
      simp only [Function.comp]
      rw [Nat.div_div_eq_div_mul, ← Nat.pow_add, Nat.mul_succ, Nat.add_comm w]

theorem vecEls_eq_map (v : Vec) (w : Nat) : vecEls v w = (List.range (256 / w)).map (fun i => lane w i v) := elems_eq_map _ _ _

theorem packEls_lane (w : Nat) (l : List Nat) (i : Nat) : packEls w l / 2 ^ (w * i) % 2 ^ w = l.getD i 0 % 2 ^ w := by
  induction l generalizing i with
  | nil => simp [packEls]
  | cons a l ih =>
    have hpos : 0 < 2 ^ w := Nat.two_pow_pos w
    cases i with
    | zero => simp [packEls, Nat.add_mul_mod_self_left]
    | succ i =>
      rw [packEls, Nat.mul_succ, Nat.add_comm (w * i), Nat.pow_add, ← Nat.div_div_eq_div_mul, Nat.add_mul_div_left _ _ hpos,
        Nat.div_eq_of_lt (Nat.mod_lt _ hpos), Nat.zero_add, ih, List.getD_cons_succ]

/-- An element of a register is that of a number above it. -/
theorem lane_ofNat (w i p : Nat) (h : w * i + w ≤ 256) : lane w i (BitVec.ofNat 256 p) = p / 2 ^ (w * i) % 2 ^ w := by
  unfold lane
  rw [BitVec.toNat_ofNat, show 256 = w * i + (256 - w * i) by omega, Nat.pow_add, Nat.mod_mul_right_div_self,
    Nat.mod_mod_of_dvd _ (Nat.pow_dvd_pow 2 (by omega))]

theorem lane_vecOf (w : Nat) (l : List Nat) (i : Nat) (hi : i < 256 / w) : lane w i (vecOf w l) = l.getD i 0 % 2 ^ w := by
  have h : w * i + w ≤ 256 := by
    have : w * (i + 1) ≤ w * (256 / w) := Nat.mul_le_mul_left w hi
    have := Nat.mul_div_le 256 w
    rw [Nat.mul_succ] at *
    omega
  unfold vecOf
  rw [lane_ofNat w i _ h, packEls_lane]

theorem lane_lt (w i : Nat) (v : Vec) : lane w i v < 2 ^ w := Nat.mod_lt _ (Nat.two_pow_pos w)

theorem map2_map {ι : Type} (f : Nat → Nat → Nat → Nat × BitVec 5) (r a b : ι → Nat) (l : List ι) :
    map2 f (l.map r) (l.map a) (l.map b) = l.map (fun i => f (r i) (a i) (b i)) := by
  induction l with
  | nil => rfl
  | cons i l ih => exact congrArg _ ih

theorem map3_map {ι : Type} (f : Nat → Nat → Nat → Nat → Nat × BitVec 5) (r a b c : ι → Nat) (l : List ι) :
    map3 f (l.map r) (l.map a) (l.map b) (l.map c) = l.map (fun i => f (r i) (a i) (b i) (c i)) := by
  induction l with
  | nil => rfl
  | cons i l ih => exact congrArg _ ih

theorem replicate_eq_map {α : Type} (n : Nat) (a : α) : List.replicate n a = (List.range n).map (fun _ => a) := by simp

/-! ## Operands that no port stands behind -/

theorem readV_plain {s : State} {r : Reg} (h : s.c.portOf r = none) : s.readV r = .ok (s, s.c.vr r) := by
  unfold State.readV
  rw [h]

/-- The pairs name registers with their values. -/
def Reads (s : State) (l : List (Reg × Vec)) : Prop := ∀ e ∈ l, e.2 = s.c.vr e.1

theorem gotV_of_reads {s : State} {l : List (Reg × Vec)} (hl : Reads s l) {r : Reg} (hr : ∃ e ∈ l, e.1 = r) : gotV l r = s.c.vr r := by
  unfold gotV
  cases hf : l.find? (fun e => e.1 == r) with
  | none =>
    obtain ⟨e, he, her⟩ := hr
    exact absurd her (by simpa using (List.find?_eq_none.mp hf) e he)
  | some e =>
    have her : e.1 = r := by simpa using List.find?_some hf
    rw [← her]
    exact hl e (List.mem_of_find?_eq_some hf)

theorem readVs_go {s : State} (rs : List Reg) (got : List (Reg × Vec)) (hp : ∀ r ∈ rs, s.c.portOf r = none) (hg : Reads s got) :
    ∃ l, s.readVs rs got = .ok (s, l) ∧ Reads s l ∧ (∀ e ∈ got, e ∈ l) ∧ ∀ r ∈ rs, ∃ e ∈ l, e.1 = r := by
  induction rs generalizing got with
  | nil => exact ⟨got, rfl, hg, fun _ he => he, by simp⟩
  | cons r rs ih =>
    have hrs : ∀ q ∈ rs, s.c.portOf q = none := fun q hq => hp q (List.mem_cons_of_mem _ hq)
    unfold State.readVs
    split
    next hany =>
      obtain ⟨l, hl, hread, hsub, hcov⟩ := ih got hrs hg
      refine ⟨l, hl, hread, hsub, fun q hq => ?_⟩
      rcases List.mem_cons.mp hq with rfl | hq
      · obtain ⟨e, he, her⟩ := List.any_eq_true.mp hany
        exact ⟨e, hsub e he, by simpa using her⟩
      · exact hcov q hq
    next =>
      have hg' : Reads s (got ++ [(r, s.c.vr r)]) := by
        intro e he
        rcases List.mem_append.mp he with he | he
        · exact hg e he
        · rw [List.mem_singleton.mp he]
      obtain ⟨l, hl, hread, hsub, hcov⟩ := ih _ hrs hg'
      refine ⟨l, ?_, hread, fun e he => hsub e (List.mem_append_left _ he), fun q hq => ?_⟩
      · rw [readV_plain (hp r List.mem_cons_self)]
        exact hl
      · rcases List.mem_cons.mp hq with rfl | hq
        · exact ⟨(q, s.c.vr q), hsub _ (List.mem_append_right _ (List.mem_singleton.mpr rfl)), rfl⟩
        · exact hcov q hq

/-- The operands are the registers' values. -/
theorem readVs_plain {s : State} (rs : List Reg) (hp : ∀ r ∈ rs, s.c.portOf r = none) :
    ∃ l, s.readVs rs [] = .ok (s, l) ∧ ∀ r ∈ rs, gotV l r = s.c.vr r := by
  obtain ⟨l, hl, hread, -, hcov⟩ := readVs_go rs [] hp (by simp [Reads])
  exact ⟨l, hl, fun r hr => gotV_of_reads hread (hcov r hr)⟩

/-! ## Results -/

/-- Two results agree in the bits of an element of `w` bits and in their flags. -/
def SameEl (w : Nat) (p q : Nat × BitVec 5) : Prop := p.1 % 2 ^ w = q.1 % 2 ^ w ∧ p.2 = q.2

/-- A list of results in V(d), its flags raised, the instruction in the queue. -/
def vecState (s : State) (d : Reg) (w n : Nat) (srcs : List Nat) (l : List (Nat × BitVec 5)) : State :=
  let u := (s.drawn n).setFlags (flagsOf l)
  (u.setC (u.c.setV d (vecOf w (l.map (·.1))))).vqPush d.toNat srcs

theorem portOf_congr {c c' : Ctx} (hp : c'.ports = c.ports) (hr : c'.ra = c.ra) (r : Reg) : c'.portOf r = c.portOf r := by
  unfold Ctx.portOf
  rw [hp, hr]

section
variable {s : State} (hp : s.pfx = none)
include hp

theorem vecDone_plain {d : Reg} (hd : s.c.portOf d = none) (w n : Nat) (srcs : List Nat) (l : List (Nat × BitVec 5)) (keeps : Bool) :
    s.vecDone d w n srcs l keeps = .ok (vecState s d w n srcs l) := by
  have hport : ((s.drawn n).setFlags (flagsOf l)).c.portOf d = none := by
    rw [setFlags_c, drawn_c hp]
    exact (portOf_congr rfl rfl d).trans hd
  unfold State.vecDone State.writeV
  rw [hport]
  rfl

theorem vecState_touches (d : Reg) (w n : Nat) (srcs : List Nat) (l : List (Nat × BitVec 5)) :
    Touches (flagsOf l) s (vecState s d w n srcs l) := by
  have hflags : (0 : BitVec 5) ||| flagsOf l = flagsOf l := by simp
  have h := (((touches_drawn hp n).setFlags (flagsOf l)).setV d (vecOf w (l.map (·.1)))).vqPush d.toNat srcs
  rwa [hflags] at h

theorem vecState_c (d : Reg) (w n : Nat) (srcs : List Nat) (l : List (Nat × BitVec 5)) : (vecState s d w n srcs l).c =
    ({ s.c with fpstat := if s.c.ra then s.c.fpstat else s.c.fpstat ||| flagsOf l } : Ctx).setV d (vecOf w (l.map (·.1))) := by
  unfold vecState
  simp only
  rw [vqPush_c, setC_c, setFlags_c, drawn_c hp]

/-- The results by element are V(d)'s. -/
theorem resultV_retire (i : Instr) (d : Reg) (w n : Nat) (srcs : List Nat) (f g : Nat → Nat × BitVec 5)
    (hfg : ∀ k, k < 256 / w → SameEl w (f k) (g k)) :
    ResultV w d g s ((vecState s d w n srcs ((List.range (256 / w)).map f)).retire i) := by
  have hflags : flagsOf ((List.range (256 / w)).map f) = (List.range (256 / w)).foldl (fun r k => r ||| (g k).2) 0 := by
    unfold flagsOf
    rw [List.foldl_map]
    refine List.foldl_ext _ _ _ fun r k hk => ?_
    rw [(hfg k (List.mem_range.mp hk)).2]
  refine ⟨fun k hk => ?_, fun r hr => ?_, ?_, ?_, ?_⟩
  · rw [retire_vr, vecState_c hp, vr_setV_same, lane_vecOf _ _ _ hk, List.map_map]
    rw [List.getD_eq_getElem _ _ (by simpa using hk)]
    simpa using (hfg k hk).1
  · rw [retire_vr, vecState_c hp, vr_setV_other _ _ _ _ hr]
    rfl
  · rw [retire_x, vecState_c hp]
    rfl
  · rw [retire_p, vecState_c hp]
    rfl
  · rw [← hflags]
    exact (vecState_touches hp d w n srcs _).frame i

/-! ## Completed vector instructions -/

omit hp in
theorem viaQueue_ok {α : Type} {l : List Reg} (hv : VecReady s l) (u : α) : viaQueue s (.ok u) = .ok u := by
  unfold viaQueue
  rw [if_neg (Nat.not_le.mpr hv.2)]

/-- A typed instruction whose type and queue allow it. -/
theorem typed_ok {i : Instr} {t : BitVec 3} {ok : ETy → Bool} {f : ETy → Res} {y : ETy} {l : List Reg} {u : State}
    (hty : ETy.ofT t.toNat = some y) (hok : ok y = true) (hv : VecReady s l) (hf : f y = .ok u) :
    typed i false t ok s f = finish i s (.ok u) := by
  unfold typed
  rw [governed_plain, vty_default hp, hty]
  simp only [hok, if_true]
  rw [hf, viaQueue_ok hv]

theorem completes_typed {i : Instr} {d : Reg} {t : BitVec 3} {ok : ETy → Bool} {F : ETy → Res} {y : ETy} {l : List Reg} {n : Nat} {srcs : List Nat}
    {f g : Nat → Nat × BitVec 5} (h : exec i s = typed i false t ok s F) (hty : ETy.ofT t.toNat = some y) (hok : ok y = true) (hv : VecReady s l)
    (hf : F y = .ok (vecState s d y.width n srcs ((List.range (256 / y.width)).map f)))
    (hfg : ∀ k, k < 256 / y.width → SameEl y.width (f k) (g k)) : Completes i s (ResultV y.width d g s) :=
  completes_finish (h.trans (typed_ok hp hty hok hv hf)) (resultV_retire hp i d y.width n srcs f g hfg)

theorem elDraws_default (y : ETy) (n : Nat) : s.elDraws y n = List.replicate n 0 := by
  unfold State.elDraws
  split
  · exact draws_default hp n
  · rfl

/-- The draws of a member are 0 without a prefix. -/
theorem draws_off (dr : Bool) (y : ETy) (n : Nat) : (if dr then s.elDraws y n else List.replicate n 0) = (List.range n).map (fun _ => 0) := by
  rw [elDraws_default hp, ite_self, replicate_eq_map]

end

end Sys2Proof.Lanes
end

section
/-! Element-wise vector instructions: each element of V(rd) by itself. -/

namespace Sys2Proof.VecArith
set_option Elab.async false
open Sys2Proof Sys2Proof.Machine Sys2Proof.Safety Sys2Proof.Ends Sys2Proof.Units Sys2Proof.Lanes

theorem sameEl_refl (w : Nat) (p : Nat × BitVec 5) : SameEl w p p := ⟨rfl, rfl⟩

theorem sameEl_of_eq {w : Nat} {p q : Nat × BitVec 5} (h : p = q) : SameEl w p q := h ▸ sameEl_refl w p

theorem ok_bind {ε α β : Type} (x : α) (f : α → Except ε β) : (Except.ok x >>= f) = f x := rfl

/-! ## The shapes -/

section
variable {s : State} (hp : s.pfx = none) {i : Instr} {d a b : Reg} {t : BitVec 3} {ok : ETy → Bool} {dr : Bool} {y : ETy}
  (hty : ETy.ofT t.toNat = some y)
include hp hty

/-- A binary member. -/
theorem completes_vbin {f : ETy → Rnd → Nat → Nat → Nat × BitVec 5} {g : Nat → Nat × BitVec 5} (h : exec i s = vbin i false d a b t ok dr f s)
    (hok : ok y = true) (hfg : ∀ k, SameEl y.width (f y Rnd.default (lane y.width k (s.c.vr a)) (lane y.width k (s.c.vr b))) (g k))
    (hv : VecReady s [d, a, b]) : Completes i s (ResultV y.width d g s) := by
  obtain ⟨l, hl, hgot⟩ := readVs_plain (s := s) [a, b] (fun r hr => hv.1 r (List.mem_cons_of_mem _ hr))
  refine completes_typed hp h hty hok hv (n := if dr then ndraws y (256 / y.width) else 0) (srcs := [a.toNat, b.toNat])
    (f := fun k => f y Rnd.default (lane y.width k (s.c.vr a)) (lane y.width k (s.c.vr b))) ?_ (fun k _ => hfg k)
  simp only
  rw [hl, ok_bind, draws_off hp, hgot a (by simp), hgot b (by simp), vecEls_eq_map, vecEls_eq_map]
  simp only [rnd_default hp]
  rw [map2_map]
  exact vecDone_plain hp (hv.1 d (by simp)) ..

/-- A member with a scalar second operand. -/
theorem completes_vscal {f : ETy → Rnd → Nat → Nat → Nat × BitVec 5} {g : Nat → Nat × BitVec 5} (h : exec i s = vscal i false d a b t dr f s)
    (hfg : ∀ k, SameEl y.width (f y Rnd.default (lane y.width k (s.c.vr a)) ((s.X b).toNat % 2 ^ y.width)) (g k))
    (hv : VecReady s [d, a]) : Completes i s (ResultV y.width d g s) := by
  refine completes_typed hp h hty rfl hv (n := if dr then ndraws y (256 / y.width) else 0) (srcs := [a.toNat])
    (f := fun k => f y Rnd.default (lane y.width k (s.c.vr a)) ((s.X b).toNat % 2 ^ y.width)) ?_ (fun k _ => hfg k)
  simp only
  rw [readV_plain (hv.1 a (by simp)), ok_bind, draws_off hp, vecEls_eq_map, replicate_eq_map]
  simp only [rnd_default hp]
  rw [map2_map]
  exact vecDone_plain hp (hv.1 d (by simp)) ..

/-- A unary member. -/
theorem completes_vun {f : ETy → Rnd → Nat → Nat × BitVec 5} {g : Nat → Nat × BitVec 5} (h : exec i s = vun i false d a t ok dr f s)
    (hok : ok y = true) (hfg : ∀ k, SameEl y.width (f y Rnd.default (lane y.width k (s.c.vr a))) (g k))
    (hv : VecReady s [d, a]) : Completes i s (ResultV y.width d g s) := by
  refine completes_typed hp h hty hok hv (n := if dr then ndraws y (256 / y.width) else 0) (srcs := [a.toNat])
    (f := fun k => f y Rnd.default (lane y.width k (s.c.vr a))) ?_ (fun k _ => hfg k)
  simp only
  rw [readV_plain (hv.1 a (by simp)), ok_bind, draws_off hp, vecEls_eq_map, replicate_eq_map]
  simp only [rnd_default hp]
  rw [map2_map (fun _ x _ => f y Rnd.default x)]
  exact vecDone_plain hp (hv.1 d (by simp)) ..

/-- One value in every element. -/
theorem completes_splat {x : Nat} (h : exec i s = splat i false d t ok x s) (hok : ok y = true) (hv : VecReady s [d]) :
    Completes i s (ResultV y.width d (fun _ => (x % 2 ^ y.width, 0)) s) := by
  refine completes_typed hp h hty hok hv (n := 0) (srcs := []) (f := fun _ => (x % 2 ^ y.width, 0)) ?_ (fun k _ => sameEl_refl _ _)
  rw [replicate_eq_map]
  exact vecDone_plain hp (hv.1 d (by simp)) ..

/-- One element of a fused multiply-add. -/
def elFma (y : ETy) (minus : Bool) (p q c : Nat) : Nat × BitVec 5 :=
  if y.isFloat then fpFma y Rnd.default minus c p q
  else (y.wrap (if minus then y.toInt c - y.toInt p * y.toInt q else y.toInt c + y.toInt p * y.toInt q), 0)

theorem completes_vfma {minus : Bool} {g : Nat → Nat × BitVec 5} (h : exec i s = vfma i false minus d a (.inl b) t s)
    (hfg : ∀ k, elFma y minus (lane y.width k (s.c.vr a)) (lane y.width k (s.c.vr b)) (lane y.width k (s.c.vr d)) = g k)
    (hv : VecReady s [d, a, b]) : Completes i s (ResultV y.width d g s) := by
  obtain ⟨l, hl, hgot⟩ := readVs_plain (s := s) [a, b, d] (fun r hr => hv.1 r (by simp at hr ⊢; tauto))
  refine completes_typed hp h hty rfl hv (n := ndraws y (256 / y.width)) (srcs := [a, b, d].map (·.toNat))
    (f := fun k => elFma y minus (lane y.width k (s.c.vr a)) (lane y.width k (s.c.vr b)) (lane y.width k (s.c.vr d)))
    ?_ (fun k _ => sameEl_of_eq (hfg k))
  simp only
  rw [hl, ok_bind, elDraws_default hp, replicate_eq_map, hgot a (by simp), hgot b (by simp), hgot d (by simp), vecEls_eq_map, vecEls_eq_map, vecEls_eq_map]
  simp only [rnd_default hp]
  rw [map3_map]
  exact vecDone_plain hp (hv.1 d (by simp)) ..

theorem completes_vfmaScalar {minus : Bool} {g : Nat → Nat × BitVec 5} (h : exec i s = vfma i false minus d a (.inr b) t s)
    (hfg : ∀ k, elFma y minus (lane y.width k (s.c.vr a)) ((s.X b).toNat % 2 ^ y.width) (lane y.width k (s.c.vr d)) = g k)
    (hv : VecReady s [d, a]) : Completes i s (ResultV y.width d g s) := by
  obtain ⟨l, hl, hgot⟩ := readVs_plain (s := s) [a, d] (fun r hr => hv.1 r (by simp at hr ⊢; tauto))
  refine completes_typed hp h hty rfl hv (n := ndraws y (256 / y.width)) (srcs := [a, d].map (·.toNat))
    (f := fun k => elFma y minus (lane y.width k (s.c.vr a)) ((s.X b).toNat % 2 ^ y.width) (lane y.width k (s.c.vr d)))
    ?_ (fun k _ => sameEl_of_eq (hfg k))
  simp only
  rw [hl, ok_bind, elDraws_default hp, hgot a (by simp), hgot d (by simp), vecEls_eq_map, vecEls_eq_map, replicate_eq_map, replicate_eq_map]
  simp only [rnd_default hp]
  rw [map3_map]
  exact vecDone_plain hp (hv.1 d (by simp)) ..

end

/-! ## Values of an element -/

theorem signedN_emod (v n : Nat) : signedN v n % 2 ^ n = (v % 2 ^ n : Nat) := by
  have h : ((v % 2 ^ n : Nat) : Int) % 2 ^ n = (v % 2 ^ n : Nat) := by exact_mod_cast Nat.mod_mod v (2 ^ n)
  unfold signedN
  split
  · rw [Int.sub_emod_right, h]
  · exact h

/-- An integer element is the low bits of its value. -/
theorem wrap_toInt (y : ETy) (c : Nat) : y.wrap (y.toInt c) = c % 2 ^ y.width := by
  unfold ETy.wrap ETy.toInt
  split
  · rw [signedN_emod, Int.toNat_natCast]
  · have h : ((c % 2 ^ y.width : Nat) : Int) % 2 ^ y.width = (c % 2 ^ y.width : Nat) := by exact_mod_cast Nat.mod_mod c (2 ^ y.width)
    rw [h, Int.toNat_natCast]

theorem wrap_toInt_lane (y : ETy) (k : Nat) (v : Vec) : y.wrap (y.toInt (lane y.width k v)) = lane y.width k v := by
  rw [wrap_toInt, Nat.mod_eq_of_lt (lane_lt ..)]

/-- Every integer type of the field T is signed. -/
theorem ofT_signed {n : Nat} {y : ETy} (h : ETy.ofT n = some y) (hf : y.isFloat = false) : y.isSigned = true := by
  unfold ETy.ofT at h
  split at h <;> cases h <;> simp_all [ETy.isFloat, ETy.isSigned]

theorem toInt_of_signed {y : ETy} (h : y.isSigned = true) (c : Nat) : y.toInt c = signedN c y.width := if_pos h

theorem elMin_same (y : ETy) (p q : Nat) : SameEl y.width (elMin y Rnd.default p q)
    (if y.isFloat then fpMinMax y Rnd.default false p q else (y.wrap (min (y.toInt p) (y.toInt q)), 0)) := by
  unfold elMin
  split
  · exact sameEl_refl _ _
  · refine ⟨?_, rfl⟩
    by_cases h : y.toInt q < y.toInt p
    · simp only [if_pos h]
      rw [min_eq_right (le_of_lt h), wrap_toInt, Nat.mod_mod]
    · simp only [if_neg h]
      rw [min_eq_left (not_lt.mp h), wrap_toInt, Nat.mod_mod]

theorem elMax_same (y : ETy) (p q : Nat) : SameEl y.width (elMax y Rnd.default p q)
    (if y.isFloat then fpMinMax y Rnd.default true p q else (y.wrap (max (y.toInt p) (y.toInt q)), 0)) := by
  unfold elMax
  split
  · exact sameEl_refl _ _
  · refine ⟨?_, rfl⟩
    by_cases h : y.toInt p < y.toInt q
    · simp only [if_pos h]
      rw [max_eq_right (le_of_lt h), wrap_toInt, Nat.mod_mod]
    · simp only [if_neg h]
      rw [max_eq_left (not_lt.mp h), wrap_toInt, Nat.mod_mod]

section
variable {n : Nat} {y : ETy} (hty : ETy.ofT n = some y)
include hty

theorem elAbs_eq (p : Nat) : elAbs y Rnd.default p =
    if y.isFloat then (p % 2 ^ (y.width - 1), 0) else (y.wrap (y.toInt p).natAbs, 0) := by
  unfold elAbs
  split
  · rfl
  next hf =>
    rw [toInt_of_signed (ofT_signed hty (by simpa using hf))]
    rfl

theorem elNeg_eq (p : Nat) : elNeg y Rnd.default p =
    if y.isFloat then (p ^^^ 2 ^ (y.width - 1), 0) else (y.wrap (-(y.toInt p)), 0) := by
  unfold elNeg
  split
  · rfl
  next hf =>
    rw [toInt_of_signed (ofT_signed hty (by simpa using hf))]
    rfl

theorem elSra_eq (hf : y.isFloat = false) (p q : Nat) : elSra y Rnd.default p q = (y.wrap (y.toInt p / 2 ^ (q % y.width)), 0) := by
  rw [toInt_of_signed (ofT_signed hty hf)]
  rfl

end

theorem sll_same (w p q : Nat) : SameEl w (p * 2 ^ q % 2 ^ w, 0) (p * 2 ^ q, 0) := ⟨Nat.mod_mod _ _, rfl⟩

/-! ## The statement, group by group -/

section
variable {s : State} (hp : s.pfx = none) (d a b : Reg) {t : BitVec 3} {y : ETy} (hty : ETy.ofT t.toNat = some y)
include hp hty

theorem vfma_members : let x := fun k => lane y.width k (s.c.vr a)
    let q := (s.X b).toNat % 2 ^ y.width
    let fma := fun (m : Bool) (p r k : Nat) => if y.isFloat then fpFma y Rnd.default m k p r else
      (y.wrap (if m then y.toInt k - y.toInt p * y.toInt r else y.toInt k + y.toInt p * y.toInt r), (0 : BitVec 5))
    (VecReady s [d, a, b] → Completes (.vfma false d a b t) s
      (ResultV y.width d (fun i => fma false (x i) (lane y.width i (s.c.vr b)) (lane y.width i (s.c.vr d))) s)) ∧
    (VecReady s [d, a, b] → Completes (.vfms false d a b t) s
      (ResultV y.width d (fun i => fma true (x i) (lane y.width i (s.c.vr b)) (lane y.width i (s.c.vr d))) s)) ∧
    (VecReady s [d, a] → Completes (.vfmasc false d a b t) s
      (ResultV y.width d (fun i => fma false (x i) q (lane y.width i (s.c.vr d))) s)) :=
  ⟨completes_vfma hp hty (show execVfma false d a b t s = _ from rfl) fun _ => rfl,
    completes_vfma hp hty (show execVfms false d a b t s = _ from rfl) fun _ => rfl,
    completes_vfmaScalar hp hty (show execVfmasc false d a b t s = _ from rfl) fun _ => rfl⟩

end

/-- Settles O37, by the shape of the instruction and the value of an element. -/
theorem vectorArithmeticByLane : Obligations.VectorArithmeticByLane := by
  unfold Obligations.VectorArithmeticByLane
  intro s d a b t y hp hty
  obtain ⟨hfma, hfms, hfmasc⟩ := vfma_members hp d a b hty
  refine ⟨?_, fun hf => ?_, fun hf => ?_, fun m hm hv => ?_⟩
  · simp only [List.forall_mem_cons, List.not_mem_nil, false_imp_iff, implies_true, and_true]
    refine ⟨?_, ?_, ?_, hfma, hfms, ?_, ?_, ?_, ?_, ?_, ?_, ?_, ?_, ?_, ?_, ?_, hfmasc, ?_, ?_, ?_⟩
    · exact completes_vbin hp hty (show execVadd false d a b t s = _ from rfl) rfl fun _ => sameEl_refl _ _
    · exact completes_vbin hp hty (show execVsub false d a b t s = _ from rfl) rfl fun _ => sameEl_refl _ _
    · exact completes_vbin hp hty (show execVmul false d a b t s = _ from rfl) rfl fun _ => sameEl_refl _ _
    · exact completes_vbin hp hty (show execVmin false d a b t s = _ from rfl) rfl fun _ => elMin_same _ _ _
    · exact completes_vbin hp hty (show execVmax false d a b t s = _ from rfl) rfl fun _ => elMax_same _ _ _
    · exact completes_vun hp hty (show execVabs false d a t s = _ from rfl) rfl fun _ => sameEl_of_eq (elAbs_eq hty _)
    · exact completes_vun hp hty (show execVneg false d a t s = _ from rfl) rfl fun _ => sameEl_of_eq (elNeg_eq hty _)
    · exact completes_vbin hp hty (show execVand false d a b t s = _ from rfl) rfl fun _ => sameEl_refl _ _
    · exact completes_vbin hp hty (show execVor false d a b t s = _ from rfl) rfl fun _ => sameEl_refl _ _
    · exact completes_vbin hp hty (show execVxor false d a b t s = _ from rfl) rfl fun _ => sameEl_refl _ _
    · exact completes_vun hp hty (show execVmov false d a t s = _ from rfl) rfl fun _ => sameEl_refl _ _
    · exact completes_vscal hp hty (show execVaddsc false d a b t s = _ from rfl) fun _ => sameEl_refl _ _
    · exact completes_vscal hp hty (show execVsubsc false d a b t s = _ from rfl) fun _ => sameEl_refl _ _
    · exact completes_vscal hp hty (show execVmulsc false d a b t s = _ from rfl) fun _ => sameEl_refl _ _
    · exact completes_vscal hp hty (show execVminsc false d a b t s = _ from rfl) fun _ => elMin_same _ _ _
    · exact completes_vscal hp hty (show execVmaxsc false d a b t s = _ from rfl) fun _ => elMax_same _ _ _
    · exact completes_splat hp hty (show execVsplat false d b t s = _ from rfl) rfl
  · have hint : intTy y = true := by rw [intTy, hf]; rfl
    simp only [List.forall_mem_cons, List.not_mem_nil, false_imp_iff, implies_true, and_true]
    refine ⟨?_, ?_, ?_, ?_, ?_, ?_⟩
    · exact completes_vbin hp hty (show execVsll false d a b t s = _ from rfl) hint fun _ => sll_same _ _ _
    · exact completes_vbin hp hty (show execVsrl false d a b t s = _ from rfl) hint fun _ => sameEl_refl _ _
    · exact completes_vbin hp hty (show execVsra false d a b t s = _ from rfl) hint fun _ => sameEl_of_eq (elSra_eq hty hf _ _)
    · exact completes_vbin hp hty (show execVmulh false d a b t s = _ from rfl) hint fun _ => sameEl_refl _ _
    · exact completes_vbin hp hty (show execVaddsat false d a b t s = _ from rfl) hint fun _ => sameEl_refl _ _
    · exact completes_vbin hp hty (show execVsubsat false d a b t s = _ from rfl) hint fun _ => sameEl_refl _ _
  · simp only [List.forall_mem_cons, List.not_mem_nil, false_imp_iff, implies_true, and_true]
    refine ⟨?_, ?_, ?_, ?_, ?_, ?_⟩
    · exact completes_vbin hp hty (show execVdiv false d a b t s = _ from rfl) hf fun _ => sameEl_refl _ _
    · exact completes_vun hp hty (show execVsqrt false d a t s = _ from rfl) hf fun _ => sameEl_refl _ _
    · exact completes_vun hp hty (show execVrsq false d a t s = _ from rfl) hf fun _ => sameEl_refl _ _
    · exact completes_vun hp hty (show execVrcp false d a t s = _ from rfl) hf fun _ => sameEl_refl _ _
    · exact completes_vun hp hty (show execVexp2 false d a t s = _ from rfl) hf fun _ => sameEl_refl _ _
    · exact completes_vun hp hty (show execVlog2 false d a t s = _ from rfl) hf fun _ => sameEl_refl _ _
  · have h := completes_splat hp hty (i := .vsplati false d t m) (ok := fun y => decide (m.toNat < 2 ^ y.width)) rfl (decide_eq_true hm) hv
    rwa [Nat.mod_eq_of_lt hm] at h

end Sys2Proof.VecArith
end

section
/-! Reductions, moves of elements, sorting, and packing by a mask. -/

namespace Sys2Proof.VecMoves
set_option Elab.async false
open Sys2Proof Sys2Proof.Machine Sys2Proof.Safety Sys2Proof.Ends Sys2Proof.Units Sys2Proof.Lanes Sys2Proof.VecArith

/-! ## Reductions -/

/-- A step of a fold over elements, with the flags so far. -/
def foldStep (f : Nat → Nat → Nat × BitVec 5) (r : Nat × BitVec 5) (q : Nat) : Nat × BitVec 5 := ((f r.1 q).1, r.2 ||| (f r.1 q).2)

theorem foldEls_map (f : Nat → Nat → Nat → Nat × BitVec 5) (d a : Nat → Nat) (l : List Nat) (r : Nat) (fl : BitVec 5) :
    foldEls f r fl (l.map d) (l.map a) = l.foldl (fun r i => foldStep (f (d i)) r (a i)) (r, fl) := by
  induction l generalizing r fl with
  | nil => rfl
  | cons i l ih => exact ih _ _

/-- Two folds that agree on the values that an invariant allows. -/
theorem foldStep_congr {I : Nat → Prop} {f g : Nat → Nat → Nat × BitVec 5} {a : Nat → Nat}
    (h : ∀ p j, I p → f p (a j) = g p (a j) ∧ I (g p (a j)).1) (l : List Nat) (r : Nat × BitVec 5) (hr : I r.1) :
    l.foldl (fun r j => foldStep f r (a j)) r = l.foldl (fun r j => foldStep g r (a j)) r := by
  induction l generalizing r with
  | nil => rfl
  | cons j l ih =>
    obtain ⟨hfg, hI⟩ := h r.1 j hr
    have hstep : foldStep f r (a j) = foldStep g r (a j) := by
      unfold foldStep
      rw [hfg]
    rw [List.foldl_cons, List.foldl_cons, hstep]
    exact ih _ hI

theorem packEls_zeros (w : Nat) (l : List Nat) (h : ∀ x ∈ l, x = 0) : packEls w l = 0 := by
  induction l with
  | nil => rfl
  | cons x l ih =>
    rw [packEls, h x List.mem_cons_self, ih fun y hy => h y (List.mem_cons_of_mem _ hy)]
    simp

theorem foldl_noFlags (m : Nat) (g : BitVec 5) : (List.replicate m ((0, 0) : Nat × BitVec 5)).foldl (fun f x => f ||| x.2) g = g := by
  induction m with
  | zero => rfl
  | succ m ih => simpa [List.replicate_succ] using ih

/-- One result alone is a result in element 0 with zeros after it. -/
theorem vecState_head (s : State) (d : Reg) (w n k : Nat) (srcs : List Nat) (x : Nat × BitVec 5) (hk : 0 < k) :
    vecState s d w n srcs [x] = vecState s d w n srcs ((List.range k).map (fun i => if i = 0 then x else (0, 0))) := by
  obtain ⟨m, rfl⟩ : ∃ m, k = m + 1 := ⟨k - 1, by omega⟩
  have hl : (List.range (m + 1)).map (fun i => if i = 0 then x else ((0, 0) : Nat × BitVec 5)) = x :: List.replicate m (0, 0) := by
    rw [List.range_succ_eq_map, List.map_cons, List.map_map, if_pos rfl]
    refine congrArg _ ?_
    rw [replicate_eq_map]
    exact List.map_congr_left fun i _ => by simp
  have hflags : flagsOf (x :: List.replicate m (0, 0)) = flagsOf [x] := by
    unfold flagsOf
    rw [List.foldl_cons, List.foldl_cons, List.foldl_nil, foldl_noFlags]
  have hvec : vecOf w ((x :: List.replicate m (0, 0)).map (·.1)) = vecOf w ([x].map (·.1)) := by
    unfold vecOf
    rw [List.map_cons, List.map_cons, packEls, packEls, packEls_zeros w _ (by simp)]
    rfl
  rw [hl]
  unfold vecState
  rw [hflags, hvec]

theorem width_pos {n : Nat} {y : ETy} (h : ETy.ofT n = some y) : 0 < 256 / y.width := by
  unfold ETy.ofT at h
  split at h <;> cases h <;> decide

/-- The fold of a reduction, by element of its result. -/
def reduction (f : Nat → Nat → Nat × BitVec 5) (n : Nat) (x : Nat → Nat) (i : Nat) : Nat × BitVec 5 :=
  if i = 0 then (List.range (n - 1)).foldl (fun r j => foldStep f r (x (j + 1))) (x 0, 0) else (0, 0)

/-- A rotated list by element. -/
theorem rotated_eq_map (x : Nat → Nat) (n k : Nat) (hk : k < n) :
    ((List.range n).map x).drop (n - k) ++ ((List.range n).map x).take (n - k) = (List.range n).map (fun i => x ((i + n - k) % n)) := by
  refine List.ext_getElem (by simp) fun i hi hi' => ?_
  have hin : i < n := by simpa using hi'
  rw [List.getElem_map, List.getElem_range, List.getElem_append]
  split
  next h =>
    have hik : i < k := by simp at h; omega
    rw [List.getElem_drop, List.getElem_map, List.getElem_range, Nat.mod_eq_of_lt (by omega)]
    congr 1
    omega
  next h =>
    have hik : k ≤ i := by simp at h; omega
    rw [List.getElem_take, List.getElem_map, List.getElem_range]
    congr 1
    rw [show i + n - k = i - k + n by omega, Nat.add_mod_right, Nat.mod_eq_of_lt (by omega), List.length_drop, List.length_map, List.length_range]
    omega

/-- The value that VEXT gives of an element. -/
theorem extended_value {n : Nat} {y : ETy} (hty : ETy.ofT n = some y) (v : Nat) : (if y.isSigned then sextN v y.width else BitVec.ofNat 64 v) =
    if y.isFloat then BitVec.ofNat 64 v else BitVec.ofInt 64 (y.toInt v) := by
  have hty' := hty
  unfold ETy.ofT at hty'
  split at hty' <;> cases hty' <;> rfl

/-- An integer element that is in its range is the low bits of its value. -/
theorem wrap_toInt_of_lt {y : ETy} {c : Nat} (h : c < 2 ^ y.width) : y.wrap (y.toInt c) = c := by rw [wrap_toInt, Nat.mod_eq_of_lt h]

theorem wrap_lt (y : ETy) (v : Int) : y.wrap v < 2 ^ y.width := by
  have hpos : (0 : Int) < 2 ^ y.width := by positivity
  have hlt := Int.emod_lt_of_pos v hpos
  have hnn := Int.emod_nonneg v hpos.ne'
  unfold ETy.wrap
  zify
  rwa [Int.toNat_of_nonneg hnn]

section
variable (y : ETy) {p q : Nat} (hp : y.isFloat = false → p < 2 ^ y.width) (hq : q < 2 ^ y.width)
include hp hq

/-- The larger of two elements, as the type's value. -/
theorem elMax_exact : elMax y Rnd.default p q =
      (if y.isFloat then fpMinMax y Rnd.default true p q else (y.wrap (max (y.toInt p) (y.toInt q)), (0 : BitVec 5))) ∧
    (y.isFloat = false → (if y.isFloat then fpMinMax y Rnd.default true p q else
      (y.wrap (max (y.toInt p) (y.toInt q)), (0 : BitVec 5))).1 < 2 ^ y.width) := by
  unfold elMax
  cases hf : y.isFloat with
  | true => simp
  | false =>
    simp only [Bool.false_eq_true, if_false, wrap_lt, implies_true, and_true]
    by_cases h : y.toInt p < y.toInt q
    · rw [if_pos h, max_eq_right h.le, wrap_toInt_of_lt hq]
    · rw [if_neg h, max_eq_left (not_lt.mp h), wrap_toInt_of_lt (hp hf)]

/-- The smaller of two elements, as the type's value. -/
theorem elMin_exact : elMin y Rnd.default p q =
      (if y.isFloat then fpMinMax y Rnd.default false p q else (y.wrap (min (y.toInt p) (y.toInt q)), (0 : BitVec 5))) ∧
    (y.isFloat = false → (if y.isFloat then fpMinMax y Rnd.default false p q else
      (y.wrap (min (y.toInt p) (y.toInt q)), (0 : BitVec 5))).1 < 2 ^ y.width) := by
  unfold elMin
  cases hf : y.isFloat with
  | true => simp
  | false =>
    simp only [Bool.false_eq_true, if_false, wrap_lt, implies_true, and_true]
    by_cases h : y.toInt q < y.toInt p
    · rw [if_pos h, min_eq_right h.le, wrap_toInt_of_lt hq]
    · rw [if_neg h, min_eq_left (not_lt.mp h), wrap_toInt_of_lt (hp hf)]

end

section
variable {s : State} (hp : s.pfx = none) {i : Instr} {d a b : Reg} {t : BitVec 3} {dr : Bool} {y : ETy} (hty : ETy.ofT t.toNat = some y)
include hp hty

theorem completes_vred {f : ETy → Rnd → Nat → Nat → Nat × BitVec 5} {I : Nat → Prop} {g : Nat → Nat → Nat × BitVec 5}
    (h : exec i s = vred i false d a t dr f s) (h0 : ∀ j, I (lane y.width j (s.c.vr a)))
    (hfg : ∀ p j, I p → f y Rnd.default p (lane y.width j (s.c.vr a)) = g p (lane y.width j (s.c.vr a)) ∧
      I (g p (lane y.width j (s.c.vr a))).1) (hv : VecReady s [d, a]) :
    Completes i s (ResultV y.width d (reduction g (256 / y.width) (fun j => lane y.width j (s.c.vr a))) s) := by
  refine completes_typed hp h hty rfl hv (n := if dr then ndraws y (256 / y.width - 1) else 0) (srcs := [a.toNat])
    (f := reduction g (256 / y.width) (fun j => lane y.width j (s.c.vr a))) ?_ (fun k _ => sameEl_refl _ _)
  obtain ⟨m, hm⟩ : ∃ m, 256 / y.width = m + 1 := ⟨256 / y.width - 1, by have := width_pos hty; omega⟩
  simp only
  rw [readV_plain (hv.1 a (by simp)), ok_bind, draws_off hp, vecEls_eq_map]
  simp only [rnd_default hp, hm, Nat.add_sub_cancel]
  rw [List.range_succ_eq_map, List.map_cons, List.map_map, List.headD_cons, List.tail_cons, foldEls_map]
  have hfold := foldStep_congr (I := I) (f := f y Rnd.default) (g := g) (a := fun j => lane y.width (j + 1) (s.c.vr a)) (fun p j => hfg p (j + 1))
    (List.range m) (lane y.width 0 (s.c.vr a), 0) (h0 0)
  refine (vecDone_plain hp (hv.1 d (by simp)) ..).trans (congrArg Except.ok ?_)
  rw [vecState_head _ _ _ _ (m + 1) _ _ (Nat.succ_pos m), ← List.range_succ_eq_map]
  refine congrArg _ (List.map_congr_left fun k _ => ?_)
  unfold reduction
  exact congrArg (fun e => if k = 0 then e else ((0, 0) : Nat × BitVec 5)) hfold

/-! ## Moves -/

/-- An instruction that moves elements. -/
theorem completes_vmove {bs : List Reg} {ms : List Nat} {ok : ETy → Bool} {f : ETy → List Nat → List (Reg × Vec) → List Nat} {g : Nat → Nat}
    {l : List Reg} (h : exec i s = vmove i false d a bs ms t ok f s) (hok : ok y = true) (hv : VecReady s l) (hl : ∀ r ∈ d :: a :: bs, r ∈ l)
    (hg : ∀ vs, (∀ r ∈ bs, gotV vs r = s.c.vr r) →
      f y ((List.range (256 / y.width)).map (fun k => lane y.width k (s.c.vr a))) vs = (List.range (256 / y.width)).map g) :
    Completes i s (ResultV y.width d (fun k => (g k, 0)) s) := by
  obtain ⟨vs, hvs, hgot⟩ := readVs_plain (s := s) (a :: bs) (fun r hr => hv.1 r (hl r (List.mem_cons_of_mem _ hr)))
  refine completes_typed hp h hty hok hv (n := 0) (srcs := a.toNat :: bs.map (·.toNat) ++ ms) (f := fun k => (g k, 0)) ?_ (fun k _ => sameEl_refl _ _)
  simp only
  rw [hvs, ok_bind]
  simp only
  rw [hgot a List.mem_cons_self, vecEls_eq_map, hg vs fun r hr => hgot r (List.mem_cons_of_mem _ hr), List.map_map]
  exact vecDone_plain hp (hv.1 d (hl d List.mem_cons_self)) ..

theorem vperm_moves (hv : VecReady s [d, a, b]) : Completes (.vperm false d a b t) s (ResultV y.width d
    (fun k => (lane y.width (lane y.width k (s.c.vr b) % (256 / y.width)) (s.c.vr a), 0)) s) := by
  refine completes_vmove hp hty (show execVperm false d a b t s = _ from rfl) rfl hv (by simp) fun vs hvs => ?_
  rw [hvs b (by simp), vecEls_eq_map, List.map_map]
  refine List.map_congr_left fun k _ => ?_
  have hlt := Nat.mod_lt (lane y.width k (s.c.vr b)) (width_pos hty)
  simp only [Function.comp, List.length_map, List.length_range]
  rw [List.getD_eq_getElem _ _ (by simpa using hlt)]
  simp

theorem vrot_moves (hv : VecReady s [d, a]) : Completes (.vrot false d a b t) s (ResultV y.width d
    (fun k => (lane y.width ((k + 256 / y.width - (s.X b).toNat % (256 / y.width)) % (256 / y.width)) (s.c.vr a), 0)) s) := by
  refine completes_vmove hp hty (show execVrot false d a b t s = _ from rfl) rfl hv (by simp) fun vs _ => ?_
  simp only [List.length_map, List.length_range]
  exact rotated_eq_map _ _ _ (Nat.mod_lt _ (width_pos hty))

theorem vins_moves (hv : VecReady s [d]) : Completes (.vins false d a b t) s (ResultV y.width d
    (fun k => (if k = (s.X b).toNat % (256 / y.width) then (s.X a).toNat else lane y.width k (s.c.vr d), 0)) s) := by
  refine completes_typed hp (show execVins false d a b t s = _ from rfl) hty rfl hv (n := 0) (srcs := [d.toNat])
    (f := fun k => (if k = (s.X b).toNat % (256 / y.width) then (s.X a).toNat % 2 ^ y.width else lane y.width k (s.c.vr d), 0)) ?_
    (fun k _ => ⟨?_, rfl⟩)
  · simp only
    rw [readV_plain (hv.1 d (by simp)), ok_bind, vecEls_eq_map]
    have hset : ((List.range (256 / y.width)).map (fun k => lane y.width k (s.c.vr d))).set ((s.X b).toNat % (256 / y.width))
        ((s.X a).toNat % 2 ^ y.width) = (List.range (256 / y.width)).map
          (fun k => if k = (s.X b).toNat % (256 / y.width) then (s.X a).toNat % 2 ^ y.width else lane y.width k (s.c.vr d)) := by
      refine List.ext_getElem (by simp) fun k _ _ => ?_
      rw [List.getElem_set, List.getElem_map, List.getElem_map, List.getElem_range]
      simp only [eq_comm]
    rw [hset, List.map_map]
    exact vecDone_plain hp (hv.1 d (by simp)) ..
  · simp only
    split
    · exact Nat.mod_mod _ _
    · rfl

theorem vext_reads (hv : VecReady s [a]) : Completes (.vext false d a b t) s (fun u =>
    XIs s u d (if y.isFloat then BitVec.ofNat 64 (lane y.width ((s.X b).toNat % (256 / y.width)) (s.c.vr a))
      else BitVec.ofInt 64 (y.toInt (lane y.width ((s.X b).toNat % (256 / y.width)) (s.c.vr a)))) ∧
    VecFrame 0 s u ∧ u.c.v = s.c.v ∧ u.c.p = s.c.p) := by
  have hlt := Nat.mod_lt (s.X b).toNat (width_pos hty)
  rw [← extended_value hty]
  generalize hw : (if y.isSigned then sextN (lane y.width ((s.X b).toNat % (256 / y.width)) (s.c.vr a)) y.width
    else BitVec.ofNat 64 (lane y.width ((s.X b).toNat % (256 / y.width)) (s.c.vr a))) = w
  have he : exec (.vext false d a b t) s = finish (.vext false d a b t) s (.ok ((s.setX d w).vqPush (64 + d.toNat) [a.toNat])) := by
    refine (show execVext false d a b t s = _ from rfl : _ = _).trans (typed_ok hp hty rfl hv ?_)
    simp only
    rw [readV_plain (hv.1 a (by simp)), ok_bind]
    simp only
    rw [vecEls_eq_map, List.getD_eq_getElem _ _ (by simpa using hlt), List.getElem_map, List.getElem_range, hw]
  refine completes_finish he ⟨fun r => ?_, (((touches_refl s).setX d w).vqPush _ _).frame _, ?_, ?_⟩
  · rw [retire_X]
    unfold State.X
    rw [vqPush_c, setX_c, xr_setX]
  · rw [retire_v, vqPush_c, setX_c]
    unfold Ctx.setX
    split <;> rfl
  · rw [retire_p, vqPush_c, setX_c]
    unfold Ctx.setX
    split <;> rfl

end

/-! ## Sorting -/

/-- Whether an element's key is not above another's. -/
abbrev NotAbove (y : ETy) (sh : Nat) (p q : Nat) : Prop := keyLe (sortKey y sh p) (sortKey y sh q) = true

theorem keyLe_refl (p : Option Int) : keyLe p p = true := by
  cases p
  · rfl
  · exact decide_eq_true (le_refl _)

theorem keyLe_total (p q : Option Int) : keyLe p q = true ∨ keyLe q p = true := by
  cases p <;> cases q <;> simp [keyLe, le_total]

theorem keyLe_trans {p q r : Option Int} (h : keyLe p q = true) (h' : keyLe q r = true) : keyLe p r = true := by
  cases p <;> cases q <;> cases r <;> simp_all [keyLe]
  omega

theorem insertKey_eq_orderedInsert (y : ETy) (sh a : Nat) (l : List Nat) : insertKey y sh a l = l.orderedInsert (NotAbove y sh) a := by
  induction l with
  | nil => rfl
  | cons b l ih =>
    rw [insertKey, List.orderedInsert_cons, ih]

theorem sortEls_eq_insertionSort (y : ETy) (sh : Nat) (l : List Nat) : sortEls y sh l = l.insertionSort (NotAbove y sh) := by
  induction l with
  | nil => rfl
  | cons a l ih =>
    change insertKey y sh a (sortEls y sh l) = _
    rw [insertKey_eq_orderedInsert, ih, List.insertionSort_cons]

theorem sortEls_sorted (y : ETy) (sh : Nat) (l : List Nat) : (sortEls y sh l).Pairwise (NotAbove y sh) := by
  have : Std.Total (NotAbove y sh) := ⟨fun _ _ => keyLe_total _ _⟩
  have : IsTrans Nat (NotAbove y sh) := ⟨fun _ _ _ => keyLe_trans⟩
  rw [sortEls_eq_insertionSort]
  exact List.pairwise_insertionSort _ l

/-- An element goes in before the others of its key. -/
theorem insertKey_filter (y : ETy) (sh a : Nat) (l : List Nat) (k : Option Int) :
    (insertKey y sh a l).filter (fun p => sortKey y sh p == k) = (a :: l).filter (fun p => sortKey y sh p == k) := by
  induction l with
  | nil => rfl
  | cons b l ih =>
    unfold insertKey
    split
    · rfl
    next hab =>
      rw [List.filter_cons, ih]
      by_cases ha : sortKey y sh a = k
      · have hb : sortKey y sh b ≠ k := fun hb => hab (by rw [ha, hb]; exact keyLe_refl k)
        simp [ha, hb]
      · simp [List.filter_cons, ha]

/-- The elements of one key keep their order. -/
theorem sortEls_stable (y : ETy) (sh : Nat) (l : List Nat) (k : Option Int) :
    (sortEls y sh l).filter (fun p => sortKey y sh p == k) = l.filter (fun p => sortKey y sh p == k) := by
  induction l with
  | nil => rfl
  | cons a l ih =>
    change (insertKey y sh a (sortEls y sh l)).filter _ = _
    rw [insertKey_filter, List.filter_cons, List.filter_cons, ih]

theorem eq_map_getD (l : List Nat) : l = (List.range l.length).map (fun k => l.getD k 0) := by
  refine List.ext_getElem (by simp) fun k hk _ => ?_
  simp [hk]

theorem noFlags (n : Nat) : (List.range n).foldl (fun (r : BitVec 5) _ => r ||| 0) 0 = 0 := by
  induction List.range n with
  | nil => rfl
  | cons _ _ ih => simp

theorem vsort_sorts {s : State} (hp : s.pfx = none) {d a b : Reg} {t : BitVec 3} {y : ETy} (hty : ETy.ofT t.toNat = some y) (hv : VecReady s [d, a])
    (hb : b.toNat < y.width) (hf : y.isFloat = true → b = 0) : Completes (.vsort false d a b t) s (fun u =>
      let o := (List.range (256 / y.width)).map (fun i => lane y.width i (s.c.vr a))
      let l := (List.range (256 / y.width)).map (fun i => lane y.width i (u.c.vr d))
      l.Pairwise (NotAbove y b.toNat) ∧
      (∀ k, l.filter (fun p => sortKey y b.toNat p == k) = o.filter (fun p => sortKey y b.toNat p == k)) ∧
      (∀ r, r ≠ d → u.c.vr r = s.c.vr r) ∧ u.c.x = s.c.x ∧ u.c.p = s.c.p ∧ VecFrame 0 s u) := by
  have hok : (fun z : ETy => decide (b.toNat < z.width) && (!z.isFloat || b == 0)) y = true := by
    cases hy : y.isFloat
    · simp [hb, hy]
    · have h0 := hf hy
      rw [h0] at hb ⊢
      simpa using hb
  let o := (List.range (256 / y.width)).map (fun i => lane y.width i (s.c.vr a))
  have hlen : (sortEls y b.toNat o).length = 256 / y.width := by
    rw [sortEls_eq_insertionSort, List.length_insertionSort]
    simp [o]
  obtain ⟨u, hu, hlane, hothers, hx, hpr, hframe⟩ := completes_vmove hp hty (i := .vsort false d a b t) (d := d) (a := a) (bs := [])
    (f := fun y l _ => sortEls y b.toNat l) (g := fun k => (sortEls y b.toNat o).getD k 0) rfl hok hv (by simp) fun vs _ =>
      (eq_map_getD (sortEls y b.toNat o)).trans (by rw [hlen])
  have hl : (List.range (256 / y.width)).map (fun i => lane y.width i (u.c.vr d)) = sortEls y b.toNat o := by
    conv_rhs => rw [eq_map_getD (sortEls y b.toNat o), hlen]
    refine List.map_congr_left fun k hk => ?_
    have hk' : k < (sortEls y b.toNat o).length := by rw [hlen]; exact List.mem_range.mp hk
    rw [hlane k (List.mem_range.mp hk)]
    refine Nat.mod_eq_of_lt ?_
    change (sortEls y b.toNat o).getD k 0 < _
    rw [List.getD_eq_getElem _ _ hk']
    have hmem := List.getElem_mem hk'
    simp only [sortEls_eq_insertionSort, List.mem_insertionSort] at hmem
    obtain ⟨i, -, hi⟩ := List.mem_map.mp hmem
    simp only [sortEls_eq_insertionSort]
    rw [← hi]
    exact lane_lt ..
  have hflags := noFlags (256 / y.width)
  refine ⟨u, hu, ?_, fun k => ?_, hothers, hx, hpr, ?_⟩
  · rw [hl]
    exact sortEls_sorted ..
  · rw [hl]
    exact sortEls_stable ..
  · rwa [hflags] at hframe

/-! ## Predicate results -/

/-- Bits put together, bit 0 lowest. -/
def bitsOf : List Bool → Nat
  | [] => 0
  | b :: l => b.toNat + 2 * bitsOf l

theorem testBit_bitsOf (l : List Bool) (i : Nat) : (bitsOf l).testBit i = l.getD i false := by
  induction l generalizing i with
  | nil => simp [bitsOf]
  | cons b l ih =>
    cases i with
    | zero => cases b <;> simp [bitsOf, Nat.testBit_zero]
    | succ i =>
      rw [Nat.testBit_succ, List.getD_cons_succ, ← ih]
      rw [bitsOf]
      congr 1
      cases b <;> simp
      omega

theorem getLsbD_bitsOf (l : List Bool) (i : Nat) (hi : i < 8) : (BitVec.ofNat 8 (bitsOf l)).getLsbD i = l.getD i false := by
  rw [BitVec.getLsbD_ofNat, testBit_bitsOf, decide_eq_true hi, Bool.true_and]

theorem pr_setP_same (c : Ctx) (r : Reg) (w : Byte) (h : r.toNat < 8) : (c.setP r w).pr r = w := by simp [Ctx.pr, Ctx.setP, h]

theorem pr_setP_other (c : Ctx) (r q : Reg) (w : Byte) (h : q ≠ r) : (c.setP r w).pr q = c.pr q := by
  have hne : r.toNat ≠ q.toNat := fun e => h (BitVec.eq_of_toNat_eq e.symm)
  unfold Ctx.setP
  split
  · simp [Ctx.pr, hne]
  · rfl

theorem setP_c (s : State) (r : Reg) (w : Byte) : (s.setP r w).c = s.c.setP r w := setC_c s _

/-- P(d) written with flags raised, the instruction in the queue. -/
theorem resultP_retire {s u : State} (i : Instr) {d : Reg} (hd : d.toNat < 8) (srcs : List Nat) (v : Byte) {fl : BitVec 5} (g : Nat → Bool × BitVec 5)
    (hu : Touches fl s u) (hx : u.c.x = s.c.x) (hv : u.c.v = s.c.v) (hp : u.c.p = s.c.p)
    (hbits : ∀ k, k < 8 → v.getLsbD k = (g k).1) (hflags : (List.range 8).foldl (fun r k => r ||| (g k).2) 0 = fl) :
    ResultP d g s (((u.setP d v).vqPush (32 + d.toNat) srcs).retire i) := by
  refine ⟨fun k hk => ?_, fun r hr => ?_, ?_, ?_, ?_⟩
  · rw [retire_pr, vqPush_c, setP_c, pr_setP_same _ _ _ hd]
    exact hbits k hk
  · rw [retire_pr, vqPush_c, setP_c, pr_setP_other _ _ _ _ hr]
    unfold Ctx.pr
    rw [hp]
  · rw [retire_x, vqPush_c, setP_c, ← hx]
    unfold Ctx.setP
    split <;> rfl
  · rw [retire_v, vqPush_c, setP_c, ← hv]
    unfold Ctx.setP
    split <;> rfl
  · rw [hflags]
    exact ((hu.setP d v).vqPush (32 + d.toNat) srcs).frame i

/-! ## Runs of equal keys -/

/-- For each element, whether it is the first of a run, the element before being `p`. -/
def runStarts (y : ETy) (sh : Nat) (p : Option Nat) : List Nat → List Bool
  | [] => []
  | a :: r => (match p with | none => true | some b => !sameKey y sh b a) :: runStarts y sh (some a) r

theorem runMarks_eq (y : ETy) (sh : Nat) (p : Option Nat) (w : Nat) (l : List Nat) : runMarks y sh p w l = w * bitsOf (runStarts y sh p l) := by
  induction l generalizing p w with
  | nil => rfl
  | cons a l ih =>
    unfold runMarks runStarts bitsOf
    rw [ih, Nat.mul_add, ← Nat.mul_assoc, Nat.mul_comm w 2]
    congr 1
    cases p with
    | none => simp
    | some b => cases h : sameKey y sh b a <;> simp [h]

theorem runStarts_getD (y : ETy) (sh : Nat) (p : Option Nat) (l : List Nat) (i : Nat) (hi : i < l.length) (h0 : 0 < i) :
    (runStarts y sh p l).getD i false = !sameKey y sh (l.getD (i - 1) 0) (l.getD i 0) := by
  induction l generalizing p i with
  | nil => exact absurd hi (Nat.not_lt_zero i)
  | cons a l ih =>
    obtain ⟨k, rfl⟩ : ∃ k, i = k + 1 := ⟨i - 1, by omega⟩
    have hk : k < l.length := by simpa using hi
    change (runStarts y sh (some a) l).getD k false = !sameKey y sh ((a :: l).getD k 0) (l.getD k 0)
    cases k with
    | zero =>
      cases l with
      | nil => exact absurd hk (Nat.not_lt_zero 0)
      | cons b l => rfl
    | succ k => exact ih (some a) (k + 1) hk (Nat.succ_pos k)

theorem runStarts_head (y : ETy) (sh : Nat) (l : List Nat) (hl : 0 < l.length) : (runStarts y sh none l).getD 0 false = true := by
  cases l with
  | nil => exact absurd hl (Nat.not_lt_zero 0)
  | cons a l => rfl

/-- Equal keys of two elements of 32 bits, in the words of R295. -/
theorem sameKey_iff (y : ETy) (hy : y.isFloat = true → y = .fp32) (sh p q : Nat) : sameKey y sh p q = true ↔
    if y.isFloat then (ETy.decode .fp32 p).isNan = false ∧ (ETy.decode .fp32 q).isNan = false ∧
      fvEq (ETy.decode .fp32 p) (ETy.decode .fp32 q) = true
    else y.toInt p / 2 ^ sh = y.toInt q / 2 ^ sh := by
  unfold sameKey sortKey
  split
  next hf => simp [hy hf, and_assoc]
  next hf => simp

theorem vdupm_marks {s : State} (hp : s.pfx = none) {d a b : Reg} {t : BitVec 3} {y : ETy} (hty : ETy.ofT t.toNat = some y) (hv : VecReady s [a])
    (hw : y.width = 32) (hd : d.toNat < 8) (hf : y.isFloat = true → b = 0) :
    Completes (.vdupm false d a b t) s (ResultP d (fun i => (decide (i = 0 ∨ ¬(if y.isFloat then
        (ETy.decode .fp32 (lane y.width (i - 1) (s.c.vr a))).isNan = false ∧ (ETy.decode .fp32 (lane y.width i (s.c.vr a))).isNan = false ∧
          fvEq (ETy.decode .fp32 (lane y.width (i - 1) (s.c.vr a))) (ETy.decode .fp32 (lane y.width i (s.c.vr a))) = true
      else y.toInt (lane y.width (i - 1) (s.c.vr a)) / 2 ^ b.toNat = y.toInt (lane y.width i (s.c.vr a)) / 2 ^ b.toNat)), 0)) s) := by
  have hy : y = .i32 ∨ y = .fp32 := by
    unfold ETy.ofT at hty
    split at hty <;> cases hty <;> simp [ETy.width] at hw ⊢
  have hok : (fun z : ETy => ty32 z && (!z.isFloat || b == 0)) y = true := by
    rcases hy with rfl | rfl
    · rfl
    · rw [hf rfl]
      rfl
  let l := vecEls (s.c.vr a) y.width
  have hlen : l.length = 8 := by simp [l, vecEls_eq_map, hw]
  have hget : ∀ k, k < 8 → l.getD k 0 = lane y.width k (s.c.vr a) := fun k hk => by
    rw [List.getD_eq_getElem _ _ (by rw [hlen]; exact hk)]
    simp [l, vecEls_eq_map]
  have he : exec (.vdupm false d a b t) s = finish (.vdupm false d a b t) s
      (.ok (((s.setP d (BitVec.ofNat 8 (runMarks y b.toNat none 1 l)))).vqPush (32 + d.toNat) [a.toNat])) := by
    refine (show execVdupm false d a b t s = _ from rfl : _ = _).trans (typed_ok hp hty hok hv ?_)
    simp only
    rw [readV_plain (hv.1 a (by simp)), ok_bind]
  have hmarks : runMarks y b.toNat none 1 l = bitsOf (runStarts y b.toNat none l) := by rw [runMarks_eq, Nat.one_mul]
  refine completes_finish he (resultP_retire _ hd _ _ _ (touches_refl s) rfl rfl rfl (fun k hk => ?_) (noFlags 8))
  rw [hmarks, getLsbD_bitsOf _ _ hk]
  by_cases h0 : k = 0
  · rw [h0, runStarts_head _ _ _ (by omega)]
    simp
  · have hfp : y.isFloat = true → y = .fp32 := by
      rcases hy with rfl | rfl
      · exact fun h => absurd h (by decide)
      · exact fun _ => rfl
    rw [runStarts_getD _ _ _ _ _ (by omega) (Nat.pos_of_ne_zero h0), hget _ (by omega), hget _ hk]
    simp only [h0, false_or, ← sameKey_iff y hfp]
    simp

/-! ## Packing and spreading -/

/-- The places below `i` with a set bit, counted within a longer range. -/
theorem filter_range_lt (q : Nat → Bool) {i n : Nat} (hi : i < n) :
    (List.range i).filter q = (List.range n).filter (fun j => decide (j < i) && q j) := by
  obtain ⟨m, rfl⟩ : ∃ m, n = i + m := ⟨n - i, by omega⟩
  rw [List.range_add, List.filter_append]
  have hin : (List.range i).filter (fun j => decide (j < i) && q j) = (List.range i).filter q :=
    List.filter_congr fun j hj => by rw [decide_eq_true (List.mem_range.mp hj), Bool.true_and]
  have hout : ((List.range m).map (i + ·)).filter (fun j => decide (j < i) && q j) = [] := by
    rw [List.filter_eq_nil_iff]
    intro j hj
    obtain ⟨k, -, rfl⟩ := List.mem_map.mp hj
    simp
  rw [hin, hout, List.append_nil]

theorem keepMasked_map (m : Byte) (x : Nat → Nat) (k n : Nat) : keepMasked m k ((List.range' k n).map x) =
    ((List.range' k n).filter (fun i => m.getLsbD i)).map x := by
  induction n generalizing k with
  | zero => rfl
  | succ n ih =>
    rw [List.range'_succ, List.map_cons, List.filter_cons]
    unfold keepMasked
    rw [ih]
    split <;> rfl

/-- The elements whose bits are set, then zeros, by element. -/
theorem packed_eq_map (on : List Nat) (x : Nat → Nat) (n : Nat) (hn : on.length ≤ n) :
    on.map x ++ List.replicate (n - on.length) 0 = (List.range n).map (fun i => if h : i < on.length then x on[i] else 0) := by
  refine List.ext_getElem (by simp; omega) fun i _ _ => ?_
  rw [List.getElem_append]
  split
  next h => simp at h; simp [h]
  next h => simp at h; simp [Nat.not_lt.mpr h]

/-- Element by element what VEXPND spreads: the count of set bits before is the source's place. -/
theorem spread_eq_map (m : Byte) (x : Nat → Nat) (k j n w : Nat) (hw : ((List.range' k n).filter (fun i => m.getLsbD i)).length ≤ w) :
    spread m k ((List.range' j w).map x) n = (List.range' k n).map (fun i =>
      if m.getLsbD i then x (j + ((List.range' k (i - k)).filter (fun i => m.getLsbD i)).length) else 0) := by
  induction n generalizing k j w with
  | zero => rfl
  | succ n ih =>
    rw [List.range'_succ, List.filter_cons] at hw
    have hcount : ∀ i, k + 1 ≤ i → ((List.range' k (i - k)).filter (fun i => m.getLsbD i)).length =
        (if m.getLsbD k then 1 else 0) + ((List.range' (k + 1) (i - (k + 1))).filter (fun i => m.getLsbD i)).length := fun i hi => by
      rw [show i - k = (i - (k + 1)) + 1 by omega, List.range'_succ, List.filter_cons]
      split <;> simp [Nat.add_comm]
    have hrest : ∀ c, c = (if m.getLsbD k then 1 else 0) → (List.range' (k + 1) n).map (fun i =>
        if m.getLsbD i then x (j + ((List.range' k (i - k)).filter (fun i => m.getLsbD i)).length) else 0) = (List.range' (k + 1) n).map (fun i =>
        if m.getLsbD i then x (j + c + ((List.range' (k + 1) (i - (k + 1))).filter (fun i => m.getLsbD i)).length) else 0) := fun c hc =>
      List.map_congr_left fun i hi => by rw [hcount i (List.mem_range'_1.mp hi).1, hc, Nat.add_assoc]
    rw [List.range'_succ, List.map_cons, Nat.sub_self]
    unfold spread
    by_cases hm : m.getLsbD k = true
    · rw [if_pos hm] at hw
      obtain ⟨v, rfl⟩ : ∃ v, w = v + 1 := ⟨w - 1, by simp at hw; omega⟩
      rw [if_pos hm, if_pos hm, hrest 1 (if_pos hm).symm, List.range'_succ, List.map_cons, List.headD_cons, List.tail_cons,
        ih (k + 1) (j + 1) v (by simpa using hw)]
      rfl
    · rw [if_neg hm] at hw
      rw [if_neg hm, if_neg hm, hrest 0 (if_neg hm).symm, ih (k + 1) j w hw]
      rfl

theorem ty32_of_width {n : Nat} {y : ETy} (hty : ETy.ofT n = some y) (hw : y.width = 32) : ty32 y = true := by
  unfold ETy.ofT at hty
  split at hty <;> cases hty <;> first | rfl | exact absurd hw (by decide)

section
variable {s : State} (hp : s.pfx = none) {d a m : Reg} {t : BitVec 3} {y : ETy} (hty : ETy.ofT t.toNat = some y) (hv : VecReady s [d, a])
  (hw : y.width = 32)
include hp hty hv hw

theorem vcompr_packs : Completes (.vcompr false d a m t) s (ResultV 32 d (fun i =>
    (if h : i < ((List.range 8).filter (fun i => (s.c.pr m).getLsbD i)).length then
      lane y.width ((List.range 8).filter (fun i => (s.c.pr m).getLsbD i))[i] (s.c.vr a) else 0, 0)) s) := by
  have h := completes_vmove hp hty (i := .vcompr false d a m t) (d := d) (a := a) (bs := []) (ms := [32 + m.toNat]) (ok := ty32)
    (f := fun _ l _ => keepMasked (s.c.pr m) 0 l ++ List.replicate (l.length - (keepMasked (s.c.pr m) 0 l).length) 0)
    (g := fun i => if h : i < ((List.range 8).filter (fun i => (s.c.pr m).getLsbD i)).length then
      lane y.width ((List.range 8).filter (fun i => (s.c.pr m).getLsbD i))[i] (s.c.vr a) else 0) rfl (ty32_of_width hty hw) hv (by simp)
    (fun vs _ => by
      rw [hw, show 256 / 32 = 8 from rfl, List.range_eq_range', keepMasked_map, List.length_map, List.length_map, List.length_range']
      exact packed_eq_map _ _ 8 ((List.length_filter_le _ _).trans (by simp)))
  rwa [hw] at h ⊢

theorem vexpnd_spreads : Completes (.vexpnd false d a m t) s (ResultV 32 d (fun i =>
    (if (s.c.pr m).getLsbD i then lane y.width (((List.range 8).filter (fun i => (s.c.pr m).getLsbD i)).filter (fun j => decide (j < i))).length (s.c.vr a)
      else 0, 0)) s) := by
  have h := completes_vmove hp hty (i := .vexpnd false d a m t) (d := d) (a := a) (bs := []) (ms := [32 + m.toNat]) (ok := ty32)
    (f := fun _ l _ => spread (s.c.pr m) 0 l l.length)
    (g := fun i => if (s.c.pr m).getLsbD i then lane y.width (((List.range 8).filter (fun i => (s.c.pr m).getLsbD i)).filter (fun j => decide (j < i))).length
      (s.c.vr a) else 0) rfl (ty32_of_width hty hw) hv (by simp)
    (fun vs _ => by
      rw [hw, show 256 / 32 = 8 from rfl, List.range_eq_range', List.length_map, List.length_range',
        spread_eq_map _ _ 0 0 8 8 ((List.length_filter_le _ _).trans (by simp))]
      refine List.map_congr_left fun i hi => ?_
      have hi8 : i < 8 := by simpa using (List.mem_range'_1.mp hi).2
      rw [Nat.zero_add, Nat.sub_zero, List.filter_filter, ← List.range_eq_range', ← List.range_eq_range', filter_range_lt _ hi8])
  rwa [hw] at h ⊢

end

/-- Settles O38, by what each instruction makes of the elements. -/
theorem vectorMovesReducesAndSorts : Obligations.VectorMovesReducesAndSorts := by
  unfold Obligations.VectorMovesReducesAndSorts
  intro s d a b t y hp hty
  refine ⟨?_, vext_reads hp hty, vsort_sorts hp hty, fun hv hw hd _ hf => vdupm_marks hp hty hv hw hd hf, fun hv hw m _ =>
    ⟨vcompr_packs hp hty hv hw, vexpnd_spreads hp hty hv hw⟩⟩
  simp only [List.forall_mem_cons, List.not_mem_nil, false_imp_iff, implies_true, and_true]
  refine ⟨?_, ?_, ?_, vperm_moves hp hty, vrot_moves hp hty, vins_moves hp hty⟩
  · exact completes_vred hp hty (i := .vredsum false d a t) (a := a) (dr := true) (f := elAdd) (I := fun _ => True) rfl (fun _ => trivial)
      fun _ _ _ => ⟨rfl, trivial⟩
  · exact completes_vred hp hty (i := .vredmax false d a t) (a := a) (dr := false) (f := elMax)
      (g := fun p q => if y.isFloat then fpMinMax y Rnd.default true p q else (y.wrap (max (y.toInt p) (y.toInt q)), 0)) (I := fun p => y.isFloat = false → p < 2 ^ y.width) rfl
      (fun _ _ => lane_lt ..) fun _ _ hI => elMax_exact y hI (lane_lt ..)
  · exact completes_vred hp hty (i := .vredmin false d a t) (a := a) (dr := false) (f := elMin)
      (g := fun p q => if y.isFloat then fpMinMax y Rnd.default false p q else (y.wrap (min (y.toInt p) (y.toInt q)), 0)) (I := fun p => y.isFloat = false → p < 2 ^ y.width) rfl
      (fun _ _ => lane_lt ..) fun _ _ hI => elMin_exact y hI (lane_lt ..)

end Sys2Proof.VecMoves
end

section
/-! Vector compares, selection, predicate operations and conversions. -/

namespace Sys2Proof.VecCompares
set_option Elab.async false
open Sys2Proof Sys2Proof.Machine Sys2Proof.Safety Sys2Proof.Ends Sys2Proof.Units Sys2Proof.Lanes Sys2Proof.VecArith Sys2Proof.VecMoves

theorem zero_flags (f : BitVec 5) : 0 ||| f = f := by simp

/-! ## Predicate operations -/

section
variable {s : State} (hv : VecReady s []) {i : Instr} {d : Reg} (hd : d.toNat < 8)
include hv hd

theorem completes_predOp {srcs : List Nat} {v : Byte} {g : Nat → Bool} (h : exec i s = predOp i false d srcs v s) (hg : ∀ k, k < 8 → v.getLsbD k = g k) :
    Completes i s (ResultP d (fun k => (g k, 0)) s) := by
  refine completes_finish (h.trans ?_) (resultP_retire i hd srcs v _ (touches_refl s) rfl rfl rfl hg (noFlags 8))
  unfold predOp
  rw [governed_plain, viaQueue_ok hv]

end

theorem pcnt_value (v : Byte) : popCount (v.zeroExtend 64) 8 = (List.range 8).countP (fun k => v.getLsbD k) := by
  rw [Scalar.popCount_eq_countP]
  refine List.countP_congr fun k hk => ?_
  have hk' : k < 8 := List.mem_range.mp hk
  rw [BitVec.zeroExtend, BitVec.getLsbD_setWidth, decide_eq_true (by omega : k < 64), Bool.true_and]

theorem pcnt_counts {s : State} (hv : VecReady s []) (d a : Reg) : Completes (.pcnt false d a) s (fun u =>
    XIs s u d (BitVec.ofNat 64 ((List.range 8).countP (fun k => (s.c.pr a).getLsbD k))) ∧ VecFrame 0 s u ∧ u.c.v = s.c.v ∧ u.c.p = s.c.p) := by
  rw [← pcnt_value]
  have he : exec (.pcnt false d a) s = finish (.pcnt false d a) s
      (.ok ((s.setX d (BitVec.ofNat 64 (popCount ((s.c.pr a).zeroExtend 64) 8))).vqPush (64 + d.toNat) [32 + a.toNat])) := by
    change execPcnt false d a s = _
    unfold execPcnt
    rw [governed_plain, viaQueue_ok hv]
  refine completes_finish he ⟨fun r => ?_, (((touches_refl s).setX d _).vqPush _ _).frame _, ?_, ?_⟩
  · rw [retire_X]
    unfold State.X
    rw [vqPush_c, setX_c, xr_setX]
  · rw [retire_v, vqPush_c, setX_c]
    unfold Ctx.setX
    split <;> rfl
  · rw [retire_p, vqPush_c, setX_c]
    unfold Ctx.setX
    split <;> rfl

/-! ## Compares -/

theorem cmpBits_map (f : Nat → Nat → Bool × BitVec 5) (x z : Nat → Nat) (w : Nat) (l : List Nat) : cmpBits f w (l.map x) (l.map z) =
    (w * bitsOf (l.map (fun k => (f (x k) (z k)).1)), l.foldr (fun k r => (f (x k) (z k)).2 ||| r) 0) := by
  induction l generalizing w with
  | nil => rfl
  | cons k l ih =>
    rw [List.map_cons, List.map_cons, cmpBits, ih]
    simp only [List.map_cons, bitsOf, List.foldr_cons]
    refine Prod.ext ?_ rfl
    simp only
    rw [Nat.mul_add, Nat.mul_comm w (Bool.toNat _), ← Nat.mul_assoc, Nat.mul_comm 2 w]

/-- Flags gathered from either end are the same. -/
theorem foldr_flags (f : Nat → BitVec 5) (l : List Nat) : l.foldr (fun k r => f k ||| r) 0 = l.foldl (fun r k => r ||| f k) 0 := by
  have h : ∀ (g : BitVec 5), l.foldl (fun r k => r ||| f k) g = g ||| l.foldr (fun k r => f k ||| r) 0 := by
    induction l with
    | nil => simp
    | cons k l ih =>
      intro g
      rw [List.foldl_cons, ih, List.foldr_cons, BitVec.or_assoc]
  rw [h]
  simp

/-- What VCMP does with two elements of type `y`. -/
def compared (y : ETy) (c p q : Nat) : Bool × BitVec 5 := if y.isFloat then cmpFp c 0 p q else (cmpInt c y p q, 0)

theorem completes_vcmp {s : State} (hp : s.pfx = none) {d a b : Reg} {c : BitVec 6} {t : BitVec 3} {y : ETy} (hty : ETy.ofT t.toNat = some y)
    (hok : cmpOk c.toNat y = true) (hv : VecReady s [a, b]) (hd : d.toNat < 8) {g : Nat → Bool × BitVec 5}
    (hg : ∀ k, compared y c.toNat (lane 32 k (s.c.vr a)) (lane 32 k (s.c.vr b)) = g k) :
    Completes (.vcmp false d a b c t) s (ResultP d g s) := by
  obtain ⟨l, hl, hgot⟩ := readVs_plain (s := s) [a, b] (fun r hr => hv.1 r hr)
  have hbits : cmpBits (compared y c.toNat) 1 (vecEls (s.c.vr a) 32) (vecEls (s.c.vr b) 32) =
      (bitsOf ((List.range 8).map (fun k => (g k).1)), (List.range 8).foldl (fun r k => r ||| (g k).2) 0) := by
    rw [vecEls_eq_map, vecEls_eq_map, cmpBits_map, Nat.one_mul, ← foldr_flags (fun k => (g k).2)]
    simp only [hg]
  have he : exec (.vcmp false d a b c t) s = finish (.vcmp false d a b c t) s
      (.ok (((s.setFlags ((List.range 8).foldl (fun r k => r ||| (g k).2) 0)).setP d
        (BitVec.ofNat 8 (bitsOf ((List.range 8).map (fun k => (g k).1))))).vqPush (32 + d.toNat) [a.toNat, b.toNat])) := by
    refine (show execVcmp false d a b c t s = _ from rfl : _ = _).trans (typed_ok hp hty hok hv ?_)
    simp only
    rw [hl, ok_bind]
    simp only
    rw [hgot a (by simp), hgot b (by simp), rnd_default hp]
    change Except.ok (((s.setFlags (cmpBits (compared y c.toNat) 1 _ _).2).setP d
      (BitVec.ofNat 8 (cmpBits (compared y c.toNat) 1 _ _).1)).vqPush (32 + d.toNat) [a.toNat, b.toNat]) = _
    rw [hbits]
  have hu : Touches ((List.range 8).foldl (fun r k => r ||| (g k).2) 0) s (s.setFlags ((List.range 8).foldl (fun r k => r ||| (g k).2) 0)) := by
    have h := (touches_refl s).setFlags ((List.range 8).foldl (fun r k => r ||| (g k).2) 0)
    rwa [zero_flags] at h
  refine completes_finish he (resultP_retire _ hd _ _ g hu ?_ ?_ ?_ (fun k hk => ?_) rfl)
  · rw [setFlags_c]
  · rw [setFlags_c]
  · rw [setFlags_c]
  · rw [getLsbD_bitsOf _ _ hk, List.getD_eq_getElem _ _ (by simpa using hk)]
    simp

theorem i32_inj {p q : Nat} (hp : p < 2 ^ 32) (hq : q < 2 ^ 32) : ETy.toInt .i32 p = ETy.toInt .i32 q ↔ p = q := by
  refine ⟨fun h => ?_, fun h => h ▸ rfl⟩
  have h' := congrArg (ETy.wrap .i32) h
  rwa [wrap_toInt_of_lt (y := .i32) hp, wrap_toInt_of_lt (y := .i32) hq] at h'

/-- A floating-point condition on two numbers. -/
def fpCondition (c : Nat) (x z : FVal) : Bool :=
  match c with
  | 0 => fvEq x z | 1 => !fvEq x z | 2 => fvLt x z | 3 => !fvLt z x | 4 => fvLt z x | 5 => !fvLt x z | _ => false

/-- A signalling NaN is a NaN. -/
theorem isNan_of_isSnan {v : FVal} (h : v.isSnan = true) : v.isNan = true := by
  cases v
  · rfl
  · exact absurd h Bool.false_ne_true
  · exact absurd h Bool.false_ne_true

theorem cmpFp_eq (c p q : Nat) : cmpFp c 0 p q =
    (if (ETy.decode .fp32 p).isNan || (ETy.decode .fp32 q).isNan then c == 1 || c == 8
      else fpCondition c (ETy.decode .fp32 p) (ETy.decode .fp32 q),
     if (ETy.decode .fp32 p).isSnan || (ETy.decode .fp32 q).isSnan ||
        (((ETy.decode .fp32 p).isNan || (ETy.decode .fp32 q).isNan) && decide (2 ≤ c ∧ c ≤ 5)) then fNV else 0) := by
  unfold cmpFp
  generalize ETy.decode .fp32 p = x
  generalize ETy.decode .fp32 q = z
  simp only [show ¬((0 : Nat) = 2 ∧ x.isNan = true) from by simp, show ¬((0 : Nat) = 2 ∧ z.isNan = true) from by simp, if_false]
  cases hn : x.isNan || z.isNan with
  | true => simp [Bool.decide_and]
  | false =>
    obtain ⟨hx, hz⟩ := Bool.or_eq_false_iff.mp hn
    have hsx : x.isSnan = false := by
      by_contra h
      exact absurd (isNan_of_isSnan (by simpa using h)) (by simp [hx])
    have hsz : z.isSnan = false := by
      by_contra h
      exact absurd (isNan_of_isSnan (by simpa using h)) (by simp [hz])
    simp only [hsx, hsz, Bool.or_self, Bool.false_and, Bool.false_eq_true, if_false]
    rfl

/-! ## Selection -/

theorem pick_map (m : Byte) (x z : Nat → Nat) (k n : Nat) : pick m k ((List.range' k n).map x) ((List.range' k n).map z) =
    (List.range' k n).map (fun i => if m.getLsbD i then x i else z i) := by
  induction n generalizing k with
  | zero => rfl
  | succ n ih => exact congrArg _ (ih (k + 1))

theorem vsel_selects {s : State} (hp : s.pfx = none) {d a m : Reg} {t : BitVec 3} {y : ETy} (hty : ETy.ofT t.toNat = some y) (hw : y.width = 32)
    (hv : VecReady s [d, a]) : Completes (.vsel false d a m t) s
      (ResultV 32 d (fun i => (if (s.c.pr m).getLsbD i then lane 32 i (s.c.vr a) else lane 32 i (s.c.vr d), 0)) s) := by
  obtain ⟨l, hl, hgot⟩ := readVs_plain (s := s) [a, d] (fun r hr => hv.1 r (by simp at hr ⊢; tauto))
  have h := completes_typed hp (i := .vsel false d a m t) (show execVsel false d a m t s = _ from rfl) hty (ty32_of_width hty hw) hv (d := d) (n := 0)
    (srcs := [a.toNat, d.toNat, 32 + m.toNat])
    (f := fun i => (if (s.c.pr m).getLsbD i then lane 32 i (s.c.vr a) else lane 32 i (s.c.vr d), 0)) (by
      simp only
      rw [hl, ok_bind]
      simp only
      rw [hgot a (by simp), hgot d (by simp), vecEls_eq_map, vecEls_eq_map, show 256 / 32 = 8 from rfl, List.range_eq_range', pick_map, List.map_map,
        vecDone_plain hp (hv.1 d (by simp)), hw]
      rfl) (fun k _ => sameEl_refl _ _)
  rwa [hw] at h

/-! ## Conversions -/

theorem flagsOf_append (l r : List (Nat × BitVec 5)) : flagsOf (l ++ r) = flagsOf l ||| flagsOf r := by
  have h : ∀ (g : BitVec 5) (l : List (Nat × BitVec 5)), l.foldl (fun f x => f ||| x.2) g = g ||| l.foldl (fun f x => f ||| x.2) 0 := by
    intro g l
    induction l generalizing g with
    | nil => simp
    | cons x l ih => rw [List.foldl_cons, List.foldl_cons, ih, ih (0 ||| x.2), zero_flags, BitVec.or_assoc]
  unfold flagsOf
  rw [List.foldl_append, h]

theorem flagsOf_plain (l : List Nat) : flagsOf (l.map (fun x => (x, 0))) = 0 := by
  unfold flagsOf
  induction l with
  | nil => rfl
  | cons x l ih => simpa using ih

/-- The types of a conversion and its part fit. -/
theorem part_lt {cd cs q p : Nat} {y w : ETy} (h : vcvtTypes cd cs q false = some (y, w, p)) : q < max y.width w.width / min y.width w.width := by
  unfold vcvtTypes at h
  obtain ⟨dt, -, h⟩ := Option.bind_eq_some_iff.mp h
  obtain ⟨st, -, h⟩ := Option.bind_eq_some_iff.mp h
  obtain ⟨k, hk, h⟩ := Option.bind_eq_some_iff.mp h
  simp only at h
  split at h
  · exact absurd h (by simp)
  next hno =>
    rw [if_neg (by simp)] at h
    obtain ⟨rfl, rfl, rfl⟩ : dt = y ∧ st = w ∧ k = p := by simpa using h
    have hq : q < k := by
      by_contra hge
      exact hno (Or.inr (Or.inr (not_lt.mp hge)))
    unfold vcvtParts at hk
    simp only at hk
    split at hk
    next he =>
      rw [he, Nat.div_self (by cases dt <;> cases st <;> decide)]
      exact (Option.some.inj hk) ▸ hq
    next =>
      split at hk
      · exact absurd hk (by simp)
      · exact (Option.some.inj hk) ▸ hq

theorem width_cases (y : ETy) : y.width = 8 ∨ y.width = 16 ∨ y.width = 32 ∨ y.width = 64 := by cases y <;> decide

/-- A part of the narrower register holds as many elements as the wider register. -/
theorem part_fits {q a b : Nat} (ha : a = 8 ∨ a = 16 ∨ a = 32 ∨ a = 64) (hb : b = 8 ∨ b = 16 ∨ b = 32 ∨ b = 64) (hq : q < max a b / min a b) :
    q * (256 / max a b) + 256 / max a b ≤ 256 / min a b := by
  rcases ha with rfl | rfl | rfl | rfl <;> rcases hb with rfl | rfl | rfl | rfl <;> norm_num at hq ⊢ <;> omega

/-- The elements of a part. -/
theorem drop_take_range (x : Nat → Nat) {k n m : Nat} (h : k + n ≤ m) : (((List.range m).map x).drop k).take n = (List.range n).map (fun i => x (i + k)) := by
  refine List.ext_getElem (by simp; omega) fun i _ _ => ?_
  simp [Nat.add_comm]

/-- What VCVT makes of an element of a source, by place. -/
theorem putAt_eq_map (x : Nat → Nat) (r : Nat → Nat × BitVec 5) {k n m : Nat} (h : k + n ≤ m) :
    (((List.range m).map x).take k).map (fun e => (e, (0 : BitVec 5))) ++ (List.range n).map r ++
      (((List.range m).map x).drop (k + n)).map (fun e => (e, 0)) =
    (List.range m).map (fun i => if k ≤ i ∧ i < k + n then r (i - k) else (x i, 0)) := by
  refine List.ext_getElem (by simp; omega) fun i hi hi' => ?_
  have him : i < m := by simpa using hi'
  rw [List.getElem_append, List.getElem_map, List.getElem_range]
  split
  next h1 =>
    rw [List.getElem_append]
    split
    next h2 =>
      have : i < k := by simp at h2; omega
      rw [if_neg (by omega)]
      simp
    next h2 =>
      have hlen : (((List.range m).map x).take k).length = k := by simp; omega
      have hk : k ≤ i := by simp at h2; omega
      have hn : i < k + n := by simp at h1; omega
      rw [if_pos ⟨hk, hn⟩]
      simp [Nat.min_eq_left (by omega : k ≤ m)]
  next h1 =>
    have hn : k + n ≤ i := by simp at h1; omega
    rw [if_neg (by omega)]
    simp [Nat.min_eq_left (by omega : k ≤ m), show k + n + (i - (k + n)) = i by omega]

section
variable {s : State} (hp : s.pfx = none) {d a q : Reg} {cd cs : BitVec 4} {y w : ETy} {p : Nat} (hv : VecReady s [d, a])
  (ht : vcvtTypes cd.toNat cs.toNat q.toNat false = some (y, w, p))
include hp hv ht

/-- VCVT without a prefix: the elements of its part, converted, with the rest of a wider-than-needed destination. -/
theorem exec_vcvt {n : Nat} (hn : n = 256 / max y.width w.width) {src : Nat → Nat}
    (hsrc : (if w.width < y.width then ((vecEls (s.c.vr a) w.width).drop (q.toNat * n)).take n else (vecEls (s.c.vr a) w.width).take n) =
      (List.range n).map src) {l : List (Nat × BitVec 5)}
    (hl : l = if y.width < w.width then ((vecEls (s.c.vr d) y.width).take (q.toNat * n)).map (fun e => (e, (0 : BitVec 5))) ++
        (List.range n).map (fun i => convertEl w y Rnd.default (src i) id) ++
        ((vecEls (s.c.vr d) y.width).drop (q.toNat * n + n)).map (fun e => (e, 0))
      else (List.range n).map (fun i => convertEl w y Rnd.default (src i) id)) :
    exec (.vcvt false d a q cd cs) s = finish (.vcvt false d a q cd cs) s (.ok (vecState s d y.width n [a.toNat] l)) := by
  have hr : map2 (fun r e _ => convertEl w y (s.rnd r) e id) (s.draws n) ((List.range n).map src) (List.replicate n 0) =
      (List.range n).map (fun i => convertEl w y Rnd.default (src i) id) := by
    rw [draws_default hp, replicate_eq_map]
    simp only [rnd_default hp]
    rw [map2_map (fun _ e _ => convertEl w y Rnd.default e id)]
  have hflags : flagsOf l = flagsOf ((List.range n).map (fun i => convertEl w y Rnd.default (src i) id)) := by
    rw [hl]
    split
    · rw [flagsOf_append, flagsOf_append, flagsOf_plain, flagsOf_plain, zero_flags]
      simp
    · rfl
  have hout : l.map (·.1) = if decide (y.width < w.width) = true then putAt (vecEls (s.c.vr d) y.width)
      (((List.range n).map (fun i => convertEl w y Rnd.default (src i) id)).map (·.1)) (q.toNat * n)
      else ((List.range n).map (fun i => convertEl w y Rnd.default (src i) id)).map (·.1) := by
    rw [hl]
    simp only [decide_eq_true_eq]
    split
    · unfold putAt
      simp [List.map_append, List.map_map, Function.comp_def]
    · rfl
  obtain ⟨vs, hvs, hgot⟩ := readVs_plain (s := s) (if decide (y.width < w.width) = true then [a, d] else [a])
    (fun r hr => hv.1 r (by split at hr <;> simp at hr ⊢ <;> tauto))
  change execVcvt false d a q cd cs s = _
  unfold execVcvt
  rw [governed_plain, pfxScale_default hp]
  simp only [Option.isSome_none, ht, Bool.false_eq_true, if_false, ← hn]
  rw [hvs, ok_bind]
  simp only
  rw [hgot a (by split <;> simp), hsrc, hr, ← hflags]
  have hkept : (if decide (y.width < w.width) = true then putAt (vecEls (gotV vs d) y.width)
      (((List.range n).map (fun i => convertEl w y Rnd.default (src i) id)).map (·.1)) (q.toNat * n)
      else ((List.range n).map (fun i => convertEl w y Rnd.default (src i) id)).map (·.1)) = l.map (·.1) := by
    rw [hout]
    split
    next hk => rw [hgot d (by simp [hk])]
    next => rfl
  rw [hkept]
  exact congrArg (finish _ s) ((congrArg (viaQueue s) (vecDone_plain hp (hv.1 d (by simp)) y.width n [a.toNat] l (decide (y.width < w.width)))).trans
    (viaQueue_ok hv _))

theorem vcvt_converts : let n := 256 / max y.width w.width
    let r := fun (i : Nat) => convertEl w y Rnd.default (lane w.width i (s.c.vr a)) id
    Completes (.vcvt false d a q cd cs) s (ResultV y.width d (fun i =>
      if y.width < w.width then (if q.toNat * n ≤ i ∧ i < q.toNat * n + n then r (i - q.toNat * n) else (lane y.width i (s.c.vr d), 0))
      else r (i + (if w.width < y.width then q.toNat * n else 0))) s) := by
  intro n r
  have hfits := part_fits (width_cases y) (width_cases w) (part_lt ht)
  have hn : n = 256 / max y.width w.width := rfl
  rcases Nat.lt_trichotomy y.width w.width with hlt | heq | hgt
  · have hmax : max y.width w.width = w.width := max_eq_right hlt.le
    have hmin : min y.width w.width = y.width := min_eq_left hlt.le
    have he := exec_vcvt hp hv ht hn (src := fun i => lane w.width i (s.c.vr a)) (by
      rw [if_neg (by omega), vecEls_eq_map, hn, hmax, List.take_of_length_le (by simp)]) rfl
    rw [if_pos hlt, vecEls_eq_map, putAt_eq_map _ _ (by rwa [hmin] at hfits)] at he
    refine completes_finish he (resultV_retire hp _ d y.width n _ _ _ fun k _ => sameEl_of_eq ?_)
    rw [if_pos hlt]
  · have hq : q.toNat = 0 := by
      have h := part_lt ht
      rw [heq, max_self, min_self, Nat.div_self (by rcases width_cases w with h | h | h | h <;> omega)] at h
      omega
    have he := exec_vcvt hp hv ht hn (src := fun i => lane w.width i (s.c.vr a)) (by
      rw [if_neg (by omega), vecEls_eq_map, hn, heq, max_self, List.take_of_length_le (by simp)]) rfl
    rw [if_neg (by omega), show n = 256 / y.width by rw [hn, heq, max_self]] at he
    refine completes_finish he (resultV_retire hp _ d y.width _ _ _ _ fun k _ => sameEl_of_eq ?_)
    rw [if_neg (by omega), if_neg (by omega), Nat.add_zero]
  · have hmax : max y.width w.width = y.width := max_eq_left hgt.le
    have hmin : min y.width w.width = w.width := min_eq_right hgt.le
    have he := exec_vcvt hp hv ht hn (src := fun i => lane w.width (i + q.toNat * n) (s.c.vr a)) (by
      rw [if_pos hgt, vecEls_eq_map, drop_take_range _ (by rwa [hmin] at hfits)]) rfl
    rw [if_neg (by omega), show n = 256 / y.width by rw [hn, hmax]] at he
    refine completes_finish he (resultV_retire hp _ d y.width _ _ _ _ fun k _ => sameEl_of_eq ?_)
    rw [if_neg (by omega), if_pos hgt, ← show n = 256 / y.width by rw [hn, hmax]]

end

/-! ## The statement -/

theorem vcmp_integers {s : State} (hp : s.pfx = none) {d a b : Reg} (hv : VecReady s [a, b]) (hd : d.toNat < 8) :
    let x := fun i => lane 32 i (s.c.vr a)
    let z := fun i => lane 32 i (s.c.vr b)
    ∀ e ∈ [((0 : BitVec 6), fun i => decide (x i = z i)), (1, fun i => decide (x i ≠ z i)),
        (2, fun i => decide (ETy.toInt .i32 (x i) < ETy.toInt .i32 (z i))), (3, fun i => decide (ETy.toInt .i32 (x i) ≤ ETy.toInt .i32 (z i))),
        (4, fun i => decide (ETy.toInt .i32 (z i) < ETy.toInt .i32 (x i))), (5, fun i => decide (ETy.toInt .i32 (z i) ≤ ETy.toInt .i32 (x i))),
        (6, fun i => decide (x i < z i)), (7, fun i => decide (z i ≤ x i))],
      Completes (.vcmp false d a b e.1 0) s (ResultP d (fun i => (e.2 i, 0)) s) := by
  intro x z
  have hcmp : ∀ (c : BitVec 6) (g : Nat → Bool), cmpOk c.toNat .i32 = true → (∀ k, cmpInt c.toNat .i32 (x k) (z k) = g k) →
      Completes (.vcmp false d a b c 0) s (ResultP d (fun i => (g i, 0)) s) := fun c g hok hg =>
    completes_vcmp hp (y := .i32) rfl hok hv hd fun k => congrArg (fun v => (v, (0 : BitVec 5))) (hg k)
  simp only [List.forall_mem_cons, List.not_mem_nil, false_imp_iff, implies_true, and_true]
  refine ⟨hcmp 0 _ rfl fun k => ?_, hcmp 1 _ rfl fun k => ?_, hcmp 2 _ rfl fun _ => rfl, hcmp 3 _ rfl fun _ => rfl, hcmp 4 _ rfl fun _ => rfl,
    hcmp 5 _ rfl fun _ => rfl, hcmp 6 _ rfl fun _ => rfl, hcmp 7 _ rfl fun _ => rfl⟩
  · change (ETy.toInt .i32 (x k) == ETy.toInt .i32 (z k)) = decide (x k = z k)
    rw [Bool.beq_eq_decide_eq]
    exact decide_eq_decide.mpr (i32_inj (lane_lt ..) (lane_lt ..))
  · change (ETy.toInt .i32 (x k) != ETy.toInt .i32 (z k)) = decide (x k ≠ z k)
    rw [bne, Bool.beq_eq_decide_eq, decide_not]
    exact congrArg Bool.not (decide_eq_decide.mpr (i32_inj (lane_lt ..) (lane_lt ..)))

theorem vcmp_numbers {s : State} (hp : s.pfx = none) {d a b : Reg} (hv : VecReady s [a, b]) (hd : d.toNat < 8) :
    let X := fun i => ETy.decode .fp32 (lane 32 i (s.c.vr a))
    let Z := fun i => ETy.decode .fp32 (lane 32 i (s.c.vr b))
    ∀ e ∈ [((0 : BitVec 6), fun i => fvEq (X i) (Z i)), (1, fun i => !fvEq (X i) (Z i)), (2, fun i => fvLt (X i) (Z i)), (3, fun i => !fvLt (Z i) (X i)),
        (4, fun i => fvLt (Z i) (X i)), (5, fun i => !fvLt (X i) (Z i)), (8, fun _ => false)],
      Completes (.vcmp false d a b e.1 1) s (ResultP d (fun i =>
        (if (X i).isNan || (Z i).isNan then decide (e.1 = 1 ∨ e.1 = 8) else e.2 i,
         if (X i).isSnan || (Z i).isSnan || (((X i).isNan || (Z i).isNan) && decide (2 ≤ e.1.toNat ∧ e.1.toNat ≤ 5)) then fNV else 0)) s) := by
  intro X Z
  have hcmp : ∀ (c : BitVec 6) (g : Nat → Bool), cmpOk c.toNat .fp32 = true → (c.toNat == 1 || c.toNat == 8) = decide (c = 1 ∨ c = 8) →
      (∀ k, fpCondition c.toNat (X k) (Z k) = g k) → Completes (.vcmp false d a b c 1) s (ResultP d (fun i =>
        (if (X i).isNan || (Z i).isNan then decide (c = 1 ∨ c = 8) else g i,
         if (X i).isSnan || (Z i).isSnan || (((X i).isNan || (Z i).isNan) && decide (2 ≤ c.toNat ∧ c.toNat ≤ 5)) then fNV else 0)) s) :=
    fun c g hok hc hg => completes_vcmp hp (y := .fp32) rfl hok hv hd fun k => by
      change cmpFp c.toNat 0 _ _ = _
      rw [cmpFp_eq, hc, ← hg k]
  simp only [List.forall_mem_cons, List.not_mem_nil, false_imp_iff, implies_true, and_true]
  exact ⟨hcmp 0 _ rfl rfl fun _ => rfl, hcmp 1 _ rfl rfl fun _ => rfl, hcmp 2 _ rfl rfl fun _ => rfl, hcmp 3 _ rfl rfl fun _ => rfl,
    hcmp 4 _ rfl rfl fun _ => rfl, hcmp 5 _ rfl rfl fun _ => rfl, hcmp 8 _ rfl rfl fun _ => rfl⟩

/-- Settles O39, by the group of the instruction. -/
theorem vectorComparesAndConversions : Obligations.VectorComparesAndConversions := by
  unfold Obligations.VectorComparesAndConversions
  intro s d a b m hp
  refine ⟨fun hv hd _ _ => ⟨?_, ?_, ?_, pcnt_counts hv m a⟩, fun hv hd => vcmp_integers hp hv hd, fun hv hd => vcmp_numbers hp hv hd,
    fun hv _ t ht => ?_, fun q cd cs y w p hv ht => vcvt_converts hp hv ht⟩
  · exact completes_predOp hv hd (show execPand false d a b s = _ from rfl) fun k _ => BitVec.getLsbD_and
  · exact completes_predOp hv hd (show execPor false d a b s = _ from rfl) fun k _ => BitVec.getLsbD_or
  · exact completes_predOp hv hd (show execPnot false d a s = _ from rfl) fun k hk => by
      rw [BitVec.getLsbD_not, decide_eq_true hk, Bool.true_and]
  · rcases ht with rfl | rfl
    · exact vsel_selects hp (y := .i32) rfl rfl hv
    · exact vsel_selects hp (y := .fp32) rfl rfl hv

end Sys2Proof.VecCompares
end

section
/-! A prefix and the word it governs. -/

namespace Sys2Proof.Pairs
set_option Elab.async false
open Sys2Proof Sys2Proof.Machine Sys2Proof.Safety Sys2Proof.Ends Sys2Proof.Units

/-! ## Fetching and decoding the governed word -/

theorem exec_pfx {p : Pfx} {s : State} (hheld : s.c.held = none) (hwf : wellFormed p.instr = true) : exec p.instr s = pairFetch p s := by
  change execPfx p.rnd p.sat p.nanp p.ovr p.scale p.sreg s = _
  unfold execPfx
  rw [show wellFormed (.pfx p.rnd p.sat p.nanp p.ovr p.scale p.sreg) = true from hwf, hheld]
  rfl

section
variable {p : Pfx} {s s1 : State} {w : Nat} (hheld : s.c.held = none) (hf : s.fetch (s.c.pc + 4) = .ok (s1, w))
include hheld hf

theorem governedWord_fetched : s.governedWord = .ok (s1, w) := by
  unfold State.governedWord
  rw [hheld]
  exact hf

/-- A word that is not marked as governed leaves the prefix an orphan. -/
theorem pairFetch_orphan (hg : selGoverned w = false) :
    pairFetch p s = .next (s1.trapNow { cause := .orphanPfx, tval := BitVec.ofNat 64 w } false false) := by
  unfold pairFetch
  rw [governedWord_fetched hheld hf]
  simp only [hg, Bool.not_false, Bool.true_or, if_true]
  rfl

theorem pairFetch_governed (hg : selGoverned w = true) (hl : selLong w = false) (hb : s1.c.branchesBack = false) :
    pairFetch p s = pairDecoded p w 0 s1 := by
  unfold pairFetch
  rw [governedWord_fetched hheld hf]
  simp only [hg, hl, hb, Bool.not_true, Bool.or_self, Bool.false_eq_true, if_false]

end

section
variable {p : Pfx} {s : State} {w : Nat} {i : Instr} {h : Honours} (hd : decodeWord w 0 = .ok i) (hwf : wellFormed i = true)
  (hh : honoursOf i (fpInForce p.ovr) = some h)
include hd hwf hh

theorem pairDecoded_refuses (hl : selLong w = false) (hp : p.honoured h = false) :
    pairDecoded p w 0 s = .next (s.trapNow { cause := .illegalInstr, tval := BitVec.ofNat 64 w } false true) := by
  unfold pairDecoded
  simp only [hd, hh, hwf, hp, hl, Bool.and_false, Bool.false_eq_true, if_false]
  rfl

theorem pairDecoded_runs (hp : p.honoured h = true) : pairDecoded p w 0 s = runPair p i s := by
  unfold pairDecoded
  simp only [hd, hh, hwf, hp, Bool.and_self, if_true]

end

/-! ## A scalar operation under its prefix -/

/-- The state in which a governed instruction is executed: the pair's words are held and its prefix is in force. -/
def paired (s : State) (p : Pfx) (i : Instr) : State := { s.setC { s.c with held := some (p.instr, i) } with pfx := some p }

theorem xHeld_setC (s : State) (c : Ctx) (i : Instr) : (s.setC c).xHeld i = s.xHeld i := rfl

theorem runPair_runs {p : Pfx} {i : Instr} {s : State} (hx : s.xHeld i = false) : runPair p i s = execGoverned i (paired s p i) := by
  unfold runPair
  rw [if_neg (by rw [xHeld_setC, hx]; exact Bool.false_ne_true)]
  rfl

section
variable (s : State) (p : Pfx) (i : Instr)

theorem paired_c : (paired s p i).c = { s.c with held := some (p.instr, i) } := setC_c s _

theorem paired_F (r : Reg) : (paired s p i).F r = s.F r := by
  unfold State.F State.X
  rw [paired_c]
  rfl

/-- The rounding mode of a pair: DYN is RMODE's (R48). -/
def pairMode : Nat := if p.rnd = 6 then s.c.rmode.toNat else p.rnd.toNat

theorem paired_mode : (paired s p i).mode = pairMode s p := by
  unfold State.mode pairMode
  rw [paired_c]
  rfl

/-- SRSEED after the pair's one draw (R249). -/
def pairSeed : BitVec 32 := if pairMode s p = 5 then lfsr s.c.srseed else s.c.srseed

/-- The rounding of a scalar operation in a pair. -/
def pairRnd : Rnd := ⟨pairMode s p, p.sat, p.nanp.toNat, if pairMode s p = 5 then (lfsr s.c.srseed).toNat else 0, true⟩

theorem paired_draws : drawsOf ((paired s p i).mode == 5) (paired s p i).c.srseed 1 =
    ([if pairMode s p = 5 then (lfsr s.c.srseed).toNat else 0], pairSeed s p) := by
  rw [paired_mode, paired_c]
  unfold pairSeed
  by_cases h : pairMode s p = 5
  · rw [h]
    rfl
  · rw [if_neg h, if_neg h, beq_eq_false_iff_ne.mpr h]
    rfl

theorem paired_rnd : { (paired s p i).rnd (((paired s p i).draws 1).getD 0 0) with canon := true } = pairRnd s p := by
  have hd : ((paired s p i).draws 1).getD 0 0 = if pairMode s p = 5 then (lfsr s.c.srseed).toNat else 0 :=
    congrArg (fun r : List Nat × BitVec 32 => r.1.getD 0 0) (paired_draws s p i)
  rw [hd]
  unfold State.rnd pairRnd
  rw [paired_mode]
  rfl

/-- What a pair of a scalar operation leaves: its result and flags, the draw made, PC past both words. -/
def PairResult (d : Reg) (y : Nat × BitVec 5) (t : State) : Prop :=
  XIs s t d (BitVec.ofNat 64 y.1) ∧ t.mem = s.mem ∧ t.c.v = s.c.v ∧
  t.c.fpstat = (if s.c.ra then s.c.fpstat else s.c.fpstat ||| y.2) ∧ t.c.srseed = pairSeed s p ∧
  t.c.instret = s.c.instret + 1 ∧ t.pfx = none ∧ t.c.held = none ∧ (s.c.loopActive = false → t.c.pc = s.c.pc + 8)

theorem drawn_paired_c : ((paired s p i).drawn 1).c = { s.c with held := some (p.instr, i), srseed := pairSeed s p } := by
  unfold State.drawn
  rw [setC_c, paired_draws, paired_c]

theorem setFlags_mem (u : State) (f : BitVec 5) : (u.setFlags f).mem = u.mem ∧ (u.setFlags f).pfx = u.pfx := by
  unfold State.setFlags
  split <;> exact ⟨rfl, rfl⟩

theorem advance_pc_of_inactive (c : Ctx) (n : Nat) (b : Bool) (h : c.loopActive = false) : (c.advance n b).pc = c.pc + BitVec.ofNat 64 n := by
  unfold Ctx.advance
  simp only [h, Bool.false_eq_true, false_and, if_false]

/-- The pair's operation retires. -/
theorem pairResult_retire (hlong : isLong i = false) (d : Reg) (y : Nat × BitVec 5) :
    PairResult s p d y (((((paired s p i).drawn 1).setX d (BitVec.ofNat 64 y.1)).setFlags y.2).retire i) := by
  have hc : ((((paired s p i).drawn 1).setX d (BitVec.ofNat 64 y.1)).setFlags y.2).c =
      { ({ s.c with held := some (p.instr, i), srseed := pairSeed s p } : Ctx).setX d (BitVec.ofNat 64 y.1) with
        fpstat := if s.c.ra then s.c.fpstat else s.c.fpstat ||| y.2 } := by
    rw [setFlags_c, setX_c, drawn_paired_c]
    unfold Ctx.setX
    split <;> rfl
  obtain ⟨hmem, hpfx⟩ := setFlags_mem (((paired s p i).drawn 1).setX d (BitVec.ofNat 64 y.1)) y.2
  refine ⟨fun r => ?_, hmem, ?_, ?_, ?_, ?_, rfl, ?_, fun hloop => ?_⟩
  · rw [retire_X]
    unfold State.X
    rw [hc]
    exact xr_setX ..
  · rw [retire_v, hc]
    unfold Ctx.setX
    split <;> rfl
  · rw [retire_fpstat, hc]
  · rw [retire_srseed, hc]
    unfold Ctx.setX
    split <;> rfl
  · rw [retire_instret, hc]
    unfold Ctx.setX
    split <;> rfl
  · exact retire_unheld ..
  · have hbytes : instrBytes ((((paired s p i).drawn 1).setX d (BitVec.ofNat 64 y.1)).setFlags y.2) i = 8 := by
      unfold instrBytes
      rw [hpfx, hlong]
      rfl
    rw [retire_c, hbytes, hc]
    simp only [Ctx.unwait]
    rw [advance_pc_of_inactive _ _ _ (by unfold Ctx.setX; split <;> exact hloop)]
    unfold Ctx.setX
    split <;> rfl

/-- A governed scalar operation runs as a pair. -/
theorem pair_completes {d : Reg} {f : Rnd → Nat × BitVec 5} {g : Instr} {r : State} (hlong : isLong i = false)
    (hrun : exec g r = execGoverned i (paired s p i)) (hi : execGoverned i (paired s p i) = fpInstr i true d f (paired s p i)) :
    Completes g r (PairResult s p d (f (pairRnd s p))) := by
  refine ⟨_, ?_, pairResult_retire s p i hlong d (f (pairRnd s p))⟩
  rw [hrun, hi, ← paired_rnd s p i]
  rfl

end

/-- Settles O40, by what the word after the prefix is. -/
theorem prefixGovernsItsPair : Obligations.PrefixGovernsItsPair := by
  unfold Obligations.PrefixGovernsItsPair
  intro s s1 w rnd sat nanp ovr sc sr hheld P i0 hwf0 hf
  have hexec : exec i0 s = pairFetch P s := exec_pfx (p := P) hheld hwf0
  refine ⟨fun hg => hexec.trans (pairFetch_orphan hheld hf hg), fun hg hl hb i h hd hwf hh => ?_⟩
  have hpair : exec i0 s = pairDecoded P w 0 s1 := hexec.trans (pairFetch_governed hheld hf hg hl hb)
  refine ⟨fun hp => hpair.trans (pairDecoded_refuses hd hwf hh hl hp), fun hp => hpair.trans (pairDecoded_runs hd hwf hh hp), ?_⟩
  intro hovr hsc hx d a b x z c hxa hzb hcd
  have hrun : P.honoured h = true → exec i0 s = execGoverned i (paired s1 P i) := fun hp =>
    hpair.trans ((pairDecoded_runs hd hwf hh hp).trans (runPair_runs hx))
  have hhon : h = ⟨true, true, true, false, false⟩ → P.honoured h = true := fun he => by
    rw [he]
    simp [Pfx.honoured, P, hovr, hsc]
  have hone : ∀ f, isLong i = false → honoursOf i (fpInForce ovr) = some ⟨true, true, true, false, false⟩ →
      execGoverned i (paired s1 P i) = fpInstr i true d f (paired s1 P i) → Completes i0 s (PairResult s1 P d (f (pairRnd s1 P))) :=
    fun f hlong hi he => pair_completes s1 P i hlong (hrun (hhon (Option.some.inj (hh.symm.trans hi)))) he
  simp only [List.forall_mem_cons, List.not_mem_nil, false_imp_iff, implies_true, and_true]
  subst hxa hzb hcd
  refine ⟨?_, ?_, ?_, ?_, ?_, ?_⟩ <;> intro hi <;> rw [hi] at hone
  · exact hone (fun r => fpAdd .fp32 r (s1.F a) (s1.F b)) rfl rfl (by rw [← paired_F s1 P, ← paired_F s1 P]; rfl)
  · exact hone (fun r => fpSub .fp32 r (s1.F a) (s1.F b)) rfl rfl (by rw [← paired_F s1 P, ← paired_F s1 P]; rfl)
  · exact hone (fun r => fpMul .fp32 r (s1.F a) (s1.F b)) rfl rfl (by rw [← paired_F s1 P, ← paired_F s1 P]; rfl)
  · exact hone (fun r => fpFma .fp32 r false (s1.F d) (s1.F a) (s1.F b)) rfl rfl (by rw [← paired_F s1 P, ← paired_F s1 P, ← paired_F s1 P]; rfl)
  · exact hone (fun r => fpDiv .fp32 r (s1.F a) (s1.F b)) rfl rfl (by rw [← paired_F s1 P, ← paired_F s1 P]; rfl)
  · exact hone (fun r => fpUnary fvSqrt .fp32 r (s1.F a)) rfl rfl (by rw [← paired_F s1 P]; rfl)

end Sys2Proof.Pairs
end

section
/-! A code's own value rounds to the code (R244, R248), and SRSEED never reaches 0 (R249). -/

namespace Sys2Proof.Rounding
set_option Elab.async false
open Sys2Proof Sys2Proof.Machine Sys2Proof.Safety

/-! ## The leading bit of n × 2^k -/

/-- A value M × 2^E on its own scale is M. -/
theorem scale2_exact (M : Nat) (E : Int) : (scale2 M E).1 * (scale2 (scale2 M E).2 E).2 = M * (scale2 (scale2 M E).2 E).1 := by
  unfold scale2
  by_cases h : 0 ≤ E
  · simp only [if_pos h]
    ring
  · simp only [if_neg h]

theorem scale2_pos (M : Nat) (E : Int) : 0 < (scale2 (scale2 M E).2 E).1 := by
  unfold scale2
  by_cases h : 0 ≤ E
  · simp only [if_pos h]
    positivity
  · simp only [if_neg h]
    positivity

theorem log2_mul_pow (M k : Nat) (h : M ≠ 0) : Nat.log2 (M * 2 ^ k) = Nat.log2 M + k := by
  rw [Nat.log2_eq_iff (Nat.mul_ne_zero h (Nat.two_pow_pos k).ne')]
  have hlo := Nat.log2_self_le h
  have hhi := Nat.lt_log2_self (n := M)
  constructor
  · rw [Nat.pow_add]
    exact Nat.mul_le_mul_right _ hlo
  · rw [show Nat.log2 M + k + 1 = (Nat.log2 M + 1) + k by omega, Nat.pow_add]
    exact Nat.mul_lt_mul_of_pos_right hhi (Nat.two_pow_pos k)

theorem floorLog2_scale2 (M : Nat) (E : Int) (h : M ≠ 0) : floorLog2 (scale2 M E).1 (scale2 M E).2 = Nat.log2 M + E := by
  have hlo := Nat.log2_self_le h
  by_cases hE : 0 ≤ E
  · obtain ⟨k, rfl⟩ := Int.eq_ofNat_of_zero_le hE
    have hs : scale2 M (k : Int) = (M * 2 ^ k, 1) := by unfold scale2; simp
    have hk : ((Nat.log2 (M * 2 ^ k) : Int) - (Nat.log2 1 : Int)) = (Nat.log2 M + k : Nat) := by
      rw [log2_mul_pow M k h]
      simp [Nat.log2]
    unfold floorLog2
    rw [hs]
    simp only [hk]
    have hs' : scale2 1 ((Nat.log2 M + k : Nat) : Int) = (1 * 2 ^ (Nat.log2 M + k), 1) := by
      unfold scale2
      rw [if_pos (Int.natCast_nonneg _), Int.toNat_natCast]
    have hle : 2 ^ (Nat.log2 M + k) ≤ M * 2 ^ k := by
      rw [Nat.pow_add]
      exact Nat.mul_le_mul_right _ hlo
    rw [hs', if_neg (by omega)]
    push_cast
    rfl
  · obtain ⟨k, hk⟩ : ∃ k : Nat, E = -(k : Int) := ⟨(-E).toNat, by omega⟩
    subst hk
    have hpos : 0 < k := by omega
    have hs : scale2 M (-(k : Int)) = (M, 2 ^ k) := by
      unfold scale2
      rw [if_neg (by omega)]
      simp
    have hlog : Nat.log2 (2 ^ k) = k := by simp
    unfold floorLog2
    rw [hs]
    simp only [hlog]
    by_cases hq : 0 ≤ (Nat.log2 M : Int) - k
    · obtain ⟨j, hj⟩ := Int.eq_ofNat_of_zero_le hq
      have hs' : scale2 (2 ^ k) ((Nat.log2 M : Int) - k) = (2 ^ k * 2 ^ j, 1) := by
        rw [hj]
        unfold scale2
        simp
      rw [hs', ← Nat.pow_add, show k + j = Nat.log2 M by omega, if_neg (by omega)]
      omega
    · obtain ⟨j, hj⟩ : ∃ j : Nat, (Nat.log2 M : Int) - k = -(j : Int) := ⟨(k - Nat.log2 M), by omega⟩
      have hs' : scale2 (2 ^ k) ((Nat.log2 M : Int) - k) = (2 ^ k, 2 ^ j) := by
        rw [hj]
        unfold scale2
        rw [if_neg (by omega)]
        simp
      have hle : 2 ^ k ≤ M * 2 ^ j := by
        rw [show k = Nat.log2 M + j by omega, Nat.pow_add]
        exact Nat.mul_le_mul_right _ hlo
      rw [hs', if_neg (Nat.not_lt.mpr hle)]
      omega

/-! ## Layouts -/

/-- The sizes of a binary layout fit its width, and its largest finite code is the one below infinity, or below the one NaN. -/
def Laid (y : ETy) : Prop := y.bin.frac + 2 ≤ y.width ∧ 0 < y.bin.frac ∧
  y.bin.maxCode = if y.bin.hasInf then 2 ^ (y.width - 1) - 2 ^ y.bin.frac - 1 else 2 ^ (y.width - 1) - 2

/-- The five binary types. -/
def Binary (y : ETy) : Prop := y ∈ [ETy.fp32, ETy.bf16, ETy.fp16, ETy.e4m3, ETy.e5m2]

theorem laid_of_binary {y : ETy} (h : Binary y) : Laid y := by
  unfold Binary at h
  simp only [List.mem_cons, List.not_mem_nil, or_false] at h
  rcases h with rfl | rfl | rfl | rfl | rfl <;> simp [Laid, ETy.bin, ETy.width]

theorem decode_of_binary {y : ETy} (h : Binary y) {c : Nat} (hc : c < 2 ^ y.width) : y.decode c = y.bin.decode y.width c := by
  unfold Binary at h
  simp only [List.mem_cons, List.not_mem_nil, or_false] at h
  have hmod : y.decode c = y.bin.decode y.width (c % 2 ^ y.width) := by
    rcases h with rfl | rfl | rfl | rfl | rfl <;> rfl
  rw [hmod, Nat.mod_eq_of_lt hc]

theorem round_of_binary {y : ETy} (h : Binary y) (r : Rnd) (sg : Bool) (n k : Nat) : y.round r (.fin sg n k false) =
    if n = 0 then (sg.toNat * 2 ^ (y.width - 1), 0) else y.roundBin r sg n k false := by
  unfold Binary at h
  simp only [List.mem_cons, List.not_mem_nil, or_false] at h
  rcases h with rfl | rfl | rfl | rfl | rfl <;> simp [ETy.round]

/-- The magnitude of a finite code: fraction bits with the hidden one, and the exponent of its last place. -/
def significand (f : BinFmt) (e m : Nat) : Nat := if e = 0 then m else 2 ^ f.frac + m
def lastPlace (f : BinFmt) (e : Nat) : Int := if e = 0 then 1 - f.bias - f.frac else (e : Int) - f.bias - f.frac

/-- A code that decodes to a finite value, by its fields. -/
theorem decode_fin {f : BinFmt} {w c : Nat} {sg : Bool} {n k : Nat} {st : Bool} (h : f.decode w c = .fin sg n k st) :
    sg = (fieldN c (w - 1) 1 == 1) ∧
    (n, k) = scale2 (significand f (fieldN c f.frac (w - 1 - f.frac)) (fieldN c 0 f.frac)) (lastPlace f (fieldN c f.frac (w - 1 - f.frac))) ∧
    ¬(f.hasInf = true ∧ fieldN c f.frac (w - 1 - f.frac) = 2 ^ (w - 1 - f.frac) - 1) ∧
    ¬(f.hasInf = false ∧ fieldN c 0 (w - 1) = 2 ^ (w - 1) - 1) := by
  unfold BinFmt.decode at h
  simp only at h
  split at h
  · split at h <;> exact absurd h (by simp)
  next h1 =>
    split at h
    · exact absurd h (by simp)
    next h2 =>
      injection h with hsg hn hk hst
      refine ⟨hsg.symm, ?_, h1, by simpa using h2⟩
      rw [← hn, ← hk]
      unfold significand lastPlace
      split <;> rfl

/-- The fields of a code make it up. -/
theorem code_fields {w frac c : Nat} (hw : frac + 2 ≤ w) (hc : c < 2 ^ w) :
    c = fieldN c (w - 1) 1 * 2 ^ (w - 1) + (fieldN c frac (w - 1 - frac) * 2 ^ frac + fieldN c 0 frac) ∧
    fieldN c 0 (w - 1) = fieldN c frac (w - 1 - frac) * 2 ^ frac + fieldN c 0 frac ∧ fieldN c (w - 1) 1 < 2 ∧
    fieldN c frac (w - 1 - frac) < 2 ^ (w - 1 - frac) ∧ fieldN c 0 frac < 2 ^ frac := by
  unfold fieldN
  have hsplit : 2 ^ (w - 1) = 2 ^ frac * 2 ^ (w - 1 - frac) := by rw [← Nat.pow_add]; congr 1; omega
  have hlow : c % 2 ^ (w - 1) = c / 2 ^ frac % 2 ^ (w - 1 - frac) * 2 ^ frac + c % 2 ^ frac := by
    rw [hsplit, Nat.mod_mul]
    ring
  have hhigh : c / 2 ^ (w - 1) < 2 := by
    have hw2 : 2 ^ w = 2 * 2 ^ (w - 1) := by rw [← Nat.pow_succ']; congr 1; omega
    rw [Nat.div_lt_iff_lt_mul (Nat.two_pow_pos _), ← hw2]
    exact hc
  have hdiv := Nat.div_add_mod c (2 ^ (w - 1))
  simp only [Nat.pow_zero, Nat.div_one, Nat.pow_one]
  refine ⟨?_, hlow, Nat.mod_lt _ (by omega), Nat.mod_lt _ (Nat.two_pow_pos _), Nat.mod_lt _ (Nat.two_pow_pos _)⟩
  rw [Nat.mod_eq_of_lt hhigh, ← hlow]
  rw [Nat.mul_comm]
  exact hdiv.symm

/-! ## Rounding a code's own value -/

/-- A significand on its own last place rounds to itself with no flag. -/
theorem roundBin_exact {y : ETy} (r : Rnd) (sg : Bool) {e m : Nat} (hm : m < 2 ^ y.bin.frac) (hpos : significand y.bin e m ≠ 0)
    (hmax : e * 2 ^ y.bin.frac + m ≤ y.bin.maxCode) :
    y.roundBin r sg (scale2 (significand y.bin e m) (lastPlace y.bin e)).1 (scale2 (significand y.bin e m) (lastPlace y.bin e)).2 false =
      (sg.toNat * 2 ^ (y.width - 1) + (e * 2 ^ y.bin.frac + m), 0) := by
  have hq : max (floorLog2 (scale2 (significand y.bin e m) (lastPlace y.bin e)).1 (scale2 (significand y.bin e m) (lastPlace y.bin e)).2 - y.bin.frac)
      (1 - (y.bin.bias : Int) - y.bin.frac) = lastPlace y.bin e := by
    rw [floorLog2_scale2 _ _ hpos]
    unfold lastPlace significand at *
    by_cases he : e = 0
    · simp only [if_pos he] at hpos ⊢
      have hlog : Nat.log2 m < y.bin.frac := (Nat.log2_lt hpos).mpr hm
      omega
    · simp only [if_neg he] at hpos ⊢
      have hlog : Nat.log2 (2 ^ y.bin.frac + m) = y.bin.frac := by
        rw [Nat.log2_eq_iff hpos, Nat.pow_succ]
        omega
      rw [hlog]
      omega
  have hexact := scale2_exact (significand y.bin e m) (lastPlace y.bin e)
  have hden := scale2_pos (significand y.bin e m) (lastPlace y.bin e)
  have hcode : (lastPlace y.bin e - (1 - (y.bin.bias : Int) - y.bin.frac)).toNat * 2 ^ y.bin.frac + significand y.bin e m =
      e * 2 ^ y.bin.frac + m := by
    unfold lastPlace significand
    by_cases he : e = 0
    · simp [he]
    · simp only [if_neg he]
      rw [show ((e : Int) - y.bin.bias - y.bin.frac - (1 - y.bin.bias - y.bin.frac)).toNat = e - 1 by omega]
      obtain ⟨j, rfl⟩ : ∃ j, e = j + 1 := ⟨e - 1, by omega⟩
      simp only [Nat.add_sub_cancel]
      ring
  unfold ETy.roundBin
  simp only [hq, hexact, Nat.mul_mod_left, Nat.mul_div_cancel _ hden, beq_self_eq_true, Bool.not_false, Bool.and_self, if_true, hcode]
  rw [if_neg (Nat.not_lt.mpr hmax)]

theorem round_decode {y : ETy} (hy : Binary y) (r : Rnd) {c : Nat} (hc : c < 2 ^ y.width) {sg : Bool} {n k : Nat}
    (h : y.decode c = .fin sg n k false) : y.round r (y.decode c) = (c, 0) := by
  obtain ⟨hfit, hfrac, hmax⟩ := laid_of_binary hy
  obtain ⟨hcode, hlow, hsign, he, hm⟩ := code_fields hfit hc
  rw [h]
  rw [decode_of_binary hy hc] at h
  obtain ⟨hsg, hnk, hinf, hnan⟩ := decode_fin h
  generalize fieldN c y.bin.frac (y.width - 1 - y.bin.frac) = e at *
  generalize fieldN c 0 y.bin.frac = m at *
  have hbit : sg.toNat = fieldN c (y.width - 1) 1 := by
    rw [hsg]
    generalize fieldN c (y.width - 1) 1 = b at *
    rcases (by omega : b = 0 ∨ b = 1) with rfl | rfl <;> rfl
  have hle : e * 2 ^ y.bin.frac + m ≤ y.bin.maxCode := by
    have hsplit : 2 ^ (y.width - 1) = 2 ^ (y.width - 1 - y.bin.frac) * 2 ^ y.bin.frac := by rw [← Nat.pow_add]; congr 1; omega
    have hlt : e * 2 ^ y.bin.frac + m < 2 ^ (y.width - 1) := hlow ▸ Nat.mod_lt _ (Nat.two_pow_pos _)
    cases hi : y.bin.hasInf with
    | true =>
      rw [hmax, hi, if_pos rfl, hsplit]
      have hne : e + 2 ≤ 2 ^ (y.width - 1 - y.bin.frac) := by
        have : e ≠ 2 ^ (y.width - 1 - y.bin.frac) - 1 := fun heq => hinf ⟨hi, heq⟩
        omega
      have := Nat.mul_le_mul_right (2 ^ y.bin.frac) hne
      rw [Nat.add_mul] at this
      omega
    | false =>
      rw [hmax, hi, if_neg Bool.false_ne_true]
      have : fieldN c 0 (y.width - 1) ≠ 2 ^ (y.width - 1) - 1 := fun heq => hnan ⟨hi, heq⟩
      omega
  have hn : n = (scale2 (significand y.bin e m) (lastPlace y.bin e)).1 := congrArg Prod.fst hnk
  have hk : k = (scale2 (significand y.bin e m) (lastPlace y.bin e)).2 := congrArg Prod.snd hnk
  rw [round_of_binary hy]
  by_cases h0 : significand y.bin e m = 0
  · have hz : n = 0 := by
      rw [hn, h0]
      unfold scale2
      split <;> simp
    have hem : e = 0 ∧ m = 0 := by
      unfold significand at h0
      have := Nat.two_pow_pos y.bin.frac
      split at h0 <;> omega
    rw [if_pos hz, hbit]
    conv_rhs => rw [hcode, hem.1, hem.2]
    simp
  · have hz : n ≠ 0 := by
      rw [hn]
      unfold scale2
      split
      · exact Nat.mul_ne_zero h0 (Nat.two_pow_pos _).ne'
      · exact h0
    rw [if_neg hz, hn, hk, roundBin_exact r sg hm h0 hle, hbit, ← hcode]

/-! ## SRSEED -/

theorem lfsr_ne_zero (x : BitVec 32) (hx : x ≠ 0) : lfsr x ≠ 0 := by
  intro h
  unfold lfsr at h
  have hshift : (x >>> 1) = if x.getLsbD 0 then 0x80200003 else 0 := by
    have := congrArg (· ^^^ (if x.getLsbD 0 then (0x80200003 : BitVec 32) else 0)) h
    simpa [BitVec.xor_assoc] using this
  have hlt : (x >>> 1).toNat < 2 ^ 31 := by
    rw [BitVec.toNat_ushiftRight, Nat.shiftRight_eq_div_pow]
    have := x.isLt
    omega
  cases hb : x.getLsbD 0 with
  | true =>
    rw [hshift, hb] at hlt
    exact absurd hlt (by decide)
  | false =>
    rw [hb] at hshift
    have h0 := congrArg BitVec.toNat hshift
    rw [BitVec.toNat_ushiftRight, Nat.shiftRight_eq_div_pow] at h0
    have hpar : x.toNat % 2 = 0 := by
      have : x.toNat.testBit 0 = false := hb
      simpa [Nat.testBit_zero] using this
    have h0' : x.toNat / 2 = 0 := by simpa using h0
    exact hx (BitVec.eq_of_toNat_eq (by simp; omega))

/-- Settles O35: a code's own value is its significand at its last place, where it rounds to itself. -/
theorem exactValuesRoundToTheirCode : Obligations.ExactValuesRoundToTheirCode := by
  unfold Obligations.ExactValuesRoundToTheirCode
  exact ⟨fun _ _ r _ _ _ hy hc h => round_decode hy r hc h, lfsr_ne_zero⟩

end Sys2Proof.Rounding
end

section
/-! The operations on copies of lines leave of every core all but its L1 and its contention table: the slot that issues stays. -/

namespace Sys2Proof.Access
set_option Elab.async false
open Sys2Proof Sys2Proof.Machine Sys2Proof.Safety

/-- Of a core, the L1, the instruction cache, the contention table and the outstanding misses alone may differ. -/
def CoreKept (q q' : CoreSt) : Prop :=
  q' = { q with l1 := q'.l1, contTab := q'.contTab, icache := q'.icache, misses := q'.misses }

theorem coreKept_lose (q : CoreSt) (clock : Nat) (taken : Bool) (l : L1Line) : CoreKept q (q.lose clock taken l) := rfl

theorem CoreKept.trans {p q r : CoreSt} (h : CoreKept p q) (k : CoreKept q r) : CoreKept p r := by
  unfold CoreKept at *
  rw [h] at k
  rw [k]

theorem coreKept_forget (q : CoreSt) (clock : Nat) (p : L1Line → Bool) : CoreKept q (q.forget clock p) := by
  unfold CoreSt.forget
  induction q.l1.filter p generalizing q with
  | nil => exact rfl
  | cons l ls ih => exact (coreKept_lose q clock false l).trans (ih _)

theorem coreKept_fill (q : CoreSt) (clock : Nat) (a : BitVec 16) (v pl : Nat) (st : LineState) (m : BitVec 64) (b c : Bool) (w : BitVec 512) :
    CoreKept q (q.fill clock a v pl st m b c w) := by
  have huse : CoreKept q (q.useContention pl) := by
    unfold CoreSt.useContention
    split <;> exact rfl
  unfold CoreSt.fill
  dsimp only
  split <;> exact huse.trans rfl

/-- Copies alone have changed, and of the cores nothing but what they keep of lines. -/
def Quiet (s t : State) : Prop := CopiesOnly s t ∧ ∀ n k, CoreKept (s.core n k) (t.core n k)

theorem Quiet.refl (s : State) : Quiet s s := ⟨CopiesOnly.refl s, fun _ _ => rfl⟩

theorem Quiet.trans {s t u : State} (h : Quiet s t) (k : Quiet t u) : Quiet s u :=
  ⟨h.1.trans k.1, fun n j => (h.2 n j).trans (k.2 n j)⟩

/-- Changes that leave the cores alone. -/
theorem quiet_of_cores {s t : State} (h : CopiesOnly s t) (hc : t.cores = s.cores) : Quiet s t :=
  ⟨h, fun n k => by simp only [State.core, hc]; exact rfl⟩

theorem quiet_foldl {α : Type} (f : State → α → State) (hf : ∀ s a, Quiet s (f s a)) (l : List α) (s : State) : Quiet s (l.foldl f s) := by
  induction l generalizing s with
  | nil => exact Quiet.refl s
  | cons a r ih => exact (hf s a).trans (ih _)

theorem quiet_setCore (s : State) (n k : Nat) {q : CoreSt} (h : CoreKept (s.core n k) q) : Quiet s (s.setCore n k q) := by
  refine ⟨copiesOnly_setCore .., fun m j => ?_⟩
  by_cases e : (m, j) = (n, k)
  · obtain ⟨rfl, rfl⟩ := Prod.mk.inj e
    rw [setCore_core_same]
    exact h
  · rw [setCore_core_other _ _ _ _ _ _ e]
    exact rfl

theorem quiet_setDir (s : State) (pl : Nat) (d : DirEnt) : Quiet s (s.setDir pl d) := quiet_of_cores (copiesOnly_setDir ..) rfl
theorem quiet_setSlice (s : State) (n d t : Nat) (x : Slice) : Quiet s (s.setSlice n d t x) := quiet_of_cores (copiesOnly_setSlice ..) rfl
theorem quiet_setDie (s : State) (n d : Nat) (x : DieSt) : Quiet s (s.setDie n d x) := quiet_of_cores (copiesOnly_setDie ..) rfl
theorem quiet_mapLine (s : State) (n d t : Nat) (a : BitVec 16) (v : Nat) (f : SliceLine → SliceLine) : Quiet s (s.mapLine n d t a v f) := by
  refine quiet_of_cores (copiesOnly_mapLine ..) ?_
  unfold State.mapLine; dsimp only; split <;> rfl
theorem quiet_pruneRemotes (s : State) (pl : Nat) : Quiet s (s.pruneRemotes pl) := by
  refine quiet_of_cores (copiesOnly_pruneRemotes ..) ?_
  unfold State.pruneRemotes; dsimp only; split <;> rfl
theorem quiet_unlistSlice (s : State) (pl n d t : Nat) : Quiet s (s.unlistSlice pl n d t) := by
  refine quiet_of_cores (copiesOnly_unlistSlice ..) ?_
  unfold State.unlistSlice; dsimp only; split <;> rfl
theorem quiet_listSlice (s : State) (pl n d t : Nat) : Quiet s (s.listSlice pl n d t) := by
  refine quiet_of_cores (copiesOnly_listSlice ..) ?_
  unfold State.listSlice; dsimp only; split <;> rfl

theorem quiet_l1drop (s : State) (n k : Nat) (a : BitVec 16) (v : Nat) (b : Bool) : Quiet s (s.l1drop n k a v b) := by
  unfold State.l1drop; dsimp only
  split
  · exact Quiet.refl s
  · have hcore := quiet_setCore s n k (coreKept_lose (s.core n k) s.clock b ‹_›)
    split
    · exact hcore.trans (quiet_mapLine ..)
    · exact hcore

theorem quiet_dropLine (s : State) (n d t : Nat) (x : SliceLine) (b : Bool) : Quiet s (s.dropLine n d t x b) := by
  have h := quiet_foldl (fun s k => State.l1drop s n k x.asid x.vline b) (fun s k => quiet_l1drop ..) (s.copyCores n d x) s
  unfold State.dropLine; dsimp only
  split
  · exact h.trans (quiet_setSlice ..)
  · exact (h.trans (quiet_setSlice ..)).trans (quiet_unlistSlice ..)

theorem quiet_recallAt (s : State) (pl : Nat) (h : Nat × Nat × Nat) (keep : Option Keep) : Quiet s (s.recallAt pl h keep) := by
  obtain ⟨n, d, t⟩ := h
  refine quiet_foldl _ (fun s x => ?_) _ s
  split
  · split
    · exact quiet_foldl _ (fun s j => quiet_l1drop ..) _ s
    · refine Quiet.trans ?_ (quiet_dropLine ..)
      split
      · exact quiet_l1drop ..
      · exact Quiet.refl s
  · exact quiet_dropLine ..

theorem quiet_recall (s : State) (pl : Nat) (keep : Option Keep) : Quiet s (s.recall pl keep) :=
  ((quiet_foldl (fun s h => State.recallAt s pl h keep) (fun _ _ => quiet_recallAt ..) (s.holders pl) s).trans
    (quiet_pruneRemotes ..)).trans (quiet_setDir ..)

theorem quiet_merge (s : State) (pl : Nat) : Quiet s (s.merge pl) := by
  have hcore : ∀ (s : State) (n k : Nat) (f : L1Line → L1Line), Quiet s (s.setCore n k { s.core n k with l1 := (s.core n k).l1.map f }) :=
    fun s n k f => quiet_setCore s n k rfl
  unfold State.merge; dsimp only
  split
  · refine Quiet.trans (quiet_foldl _ (fun s h => ?_) _ s) (quiet_setDir ..)
    exact quiet_foldl _ (fun s x => (quiet_foldl _ (fun s k => hcore ..) _ s).trans (quiet_mapLine ..)) _ s
  · refine quiet_foldl _ (fun s h => ?_) _ s
    exact quiet_foldl _ (fun s x => (quiet_foldl _ (fun s k => hcore ..) _ s).trans (quiet_mapLine ..)) _ s

theorem quiet_sliceFill (s : State) (n d : Nat) (a : BitVec 16) (v pl : Nat) (e : Word) : Quiet s (s.sliceFill n d a v pl e) := by
  unfold State.sliceFill; dsimp only
  split
  · split
    · exact quiet_setSlice ..
    · exact ((quiet_dropLine ..).trans (quiet_setSlice ..)).trans (quiet_listSlice ..)
  · refine Quiet.trans (Quiet.trans ?_ (quiet_setSlice ..)) (quiet_listSlice ..)
    split
    · exact quiet_dropLine ..
    · exact Quiet.refl s

theorem quiet_l1fill (s : State) (n k : Nat) (a : BitVec 16) (v pl : Nat) (st : LineState) (m : BitVec 64) (e : Word) (w : BitVec 512) :
    Quiet s (s.l1fill n k a v pl st m e w) := by
  have hvictim : Quiet s (match (s.core n k).victim a v with | some x => s.l1drop n k x.asid x.vline false | none => s) := by
    split
    · exact quiet_l1drop ..
    · exact Quiet.refl s
  have hdir : ∀ (u : State) (o : DirEnt), Quiet u (if st = .owned then u.setDir pl o else u) := by
    intro u o
    split
    · exact quiet_setDir ..
    · exact Quiet.refl u
  have hlisted : ∀ (u : State) (f : SliceLine → SliceLine), Quiet u (match u.objEnt n (k / 256) a v with
      | some o => (u.joinObj n k a v).setDir pl { u.dir pl with objs := addOnce (u.dir pl).objs (n, k / 256, o.1) }
      | none => u.mapLine n (k / 256) (u.lineSlice n (k / 256) a v) a v f) := by
    intro u f
    split
    · exact (quiet_setDie ..).trans (quiet_setDir ..)
    · exact quiet_mapLine ..
  have hfill : ∀ u : State, Quiet u (u.setCore n k ((u.core n k).fill u.clock a v pl st m (pteU e) (pteOwns e) w)) :=
    fun u => quiet_setCore u n k (coreKept_fill ..)
  have htail : ∀ u : State, Quiet u (let t := u.setCore n k ((u.core n k).fill u.clock a v pl st m (pteU e) (pteOwns e) w)
      if st = .untracked then t else
        let t := t.sliceFill n (k / 256) a v pl e
        let t := if st = .owned then t.setDir pl { t.dir pl with owner := some (n, k / 256, t.lineSlice n (k / 256) a v) } else t
        match t.objEnt n (k / 256) a v with
        | some o => (t.joinObj n k a v).setDir pl { t.dir pl with objs := addOnce (t.dir pl).objs (n, k / 256, o.1) }
        | none => t.mapLine n (k / 256) (t.lineSlice n (k / 256) a v) a v (fun x =>
            { x with cores := x.cores ||| BitVec.ofNat 256 (2 ^ (k % 256)), owned := x.owned || st == .owned })) := by
    intro u
    dsimp only
    split
    · exact hfill u
    · exact (hfill u).trans ((quiet_sliceFill ..).trans ((hdir _ _).trans (hlisted _ _)))
  exact hvictim.trans (htail _)

theorem quiet_dropSynonyms (s : State) (n k pl : Nat) (x : Option (BitVec 16 × Nat)) : Quiet s (s.dropSynonyms n k pl x) := by
  unfold State.dropSynonyms; dsimp only
  split
  · exact quiet_setCore _ _ _ (coreKept_forget ..)
  · exact Quiet.refl s

theorem quiet_dropWalks (s : State) (line : Nat) : Quiet s (s.dropWalks line) := by
  unfold State.dropWalks; dsimp only
  split
  · exact Quiet.refl s
  · exact ((quiet_foldl _ (fun s w => quiet_setSlice ..) _ s).trans (quiet_setDir ..)).trans (quiet_pruneRemotes ..)

theorem quiet_dropUntracked (s : State) (q : Req) (v : Nat) : Quiet s (s.dropUntracked q v) := by
  unfold State.dropUntracked
  split
  · split
    · exact quiet_l1drop ..
    · exact Quiet.refl s
  · exact Quiet.refl s

theorem quiet_fillLoad (s : State) (q : Req) (v pl typ : Nat) (e : Word) : Quiet s (s.fillLoad q v pl typ e) := by
  unfold State.fillLoad; dsimp only
  split
  · refine (quiet_dropSynonyms s q.id.node q.id.core pl none).trans ((quiet_merge _ pl).trans ?_)
    exact quiet_l1fill ..
  · refine (quiet_dropSynonyms s q.id.node q.id.core pl none).trans ((quiet_merge _ pl).trans ?_)
    exact quiet_l1fill ..

theorem quiet_storeOwn (s : State) (q : Req) (va pa n : Nat) (e : Word) : Quiet s (s.storeOwn q va pa n e) := by
  unfold State.storeOwn; dsimp only
  refine (quiet_recall s (lineOf pa) (some (q.keep (fieldN va 6 50)))).trans ?_
  exact quiet_l1fill ..

/-! ## What stays -/

theorem Quiet.fnode {s t : State} (h : Quiet s t) : t.fnode = s.fnode := by rw [h.1]
theorem Quiet.fcore {s t : State} (h : Quiet s t) : t.fcore = s.fcore := by rw [h.1]
theorem Quiet.slot {s t : State} (h : Quiet s t) (n k : Nat) : (t.core n k).slot = (s.core n k).slot := by rw [h.2 n k]
theorem Quiet.cc_slot {s t : State} (h : Quiet s t) : t.cc.slot = s.cc.slot := by
  unfold State.cc
  rw [h.fnode, h.fcore, h.slot]
theorem Quiet.cur {s t : State} (h : Quiet s t) : t.cur = s.cur := by
  unfold State.cur
  rw [h.fnode, h.fcore, h.cc_slot]
theorem Quiet.ctx {s t : State} (h : Quiet s t) (id : CtxId) : t.ctx id = s.ctx id := by
  unfold State.ctx
  rw [h.1.ctxs]
theorem Quiet.c {s t : State} (h : Quiet s t) : t.c = s.c := by
  unfold State.c
  rw [h.cur, h.ctx]

/-! ## Translating and storing -/

/-- Of a context, what it keeps between attempts and its pool stores to come may differ. -/
def CtxKept (c c' : Ctx) : Prop := c' = { c with arrived := c'.arrived, surveyed := c'.surveyed, poolStores := c'.poolStores }

theorem CtxKept.trans {c d e : Ctx} (h : CtxKept c d) (k : CtxKept d e) : CtxKept c e := by
  unfold CtxKept at *
  rw [h] at k
  rw [k]

/-- An access has changed memory with its losses, copies of lines, what slices and pool packages keep, and of the contexts what they keep between
attempts and their pool stores to come. -/
structure Kept (s t : State) : Prop where
  rest : t = { s with mem := t.mem, lost := t.lost, ctxs := t.ctxs, cores := t.cores, dies := t.dies, pkgs := t.pkgs, dirs := t.dirs,
                      proxies := t.proxies, pins := t.pins, tries := t.tries }
  cores : ∀ n k, CoreKept (s.core n k) (t.core n k)
  ctxs : ∀ id, CtxKept (s.ctx id) (t.ctx id)

theorem Kept.refl (s : State) : Kept s s := ⟨rfl, fun _ _ => rfl, fun _ => rfl⟩

theorem Kept.trans {s t u : State} (h : Kept s t) (k : Kept t u) : Kept s u where
  rest := by
    have hk := k.rest
    rw [h.rest] at hk
    rw [hk]
  cores := fun n j => (h.cores n j).trans (k.cores n j)
  ctxs := fun id => (h.ctxs id).trans (k.ctxs id)

theorem Quiet.kept {s t : State} (h : Quiet s t) : Kept s t where
  rest := by
    have hc := h.1
    unfold CopiesOnly at hc
    rw [hc]
  cores := h.2
  ctxs := fun id => by
    rw [h.ctx]
    exact rfl

/-- Changes that leave cores and contexts alone. -/
theorem kept_of_same {s t : State}
    (h : t = { s with mem := t.mem, lost := t.lost, dies := t.dies, pkgs := t.pkgs, dirs := t.dirs, pins := t.pins, proxies := t.proxies, tries := t.tries }) :
    Kept s t where
  rest := by rw [h]
  cores := fun n k => by
    rw [h]
    exact rfl
  ctxs := fun id => by
    rw [h]
    exact rfl

theorem kept_foldl {α : Type} (f : State → α → State) (hf : ∀ s a, Kept s (f s a)) (l : List α) (s : State) : Kept s (l.foldl f s) := by
  induction l generalizing s with
  | nil => exact Kept.refl s
  | cons a r ih => exact (hf s a).trans (ih _)

theorem kept_setDie (s : State) (n d : Nat) (x : DieSt) : Kept s (s.setDie n d x) := kept_of_same rfl
theorem kept_setSlice (s : State) (n d t : Nat) (x : Slice) : Kept s (s.setSlice n d t x) := kept_of_same rfl
theorem kept_setPkg (s : State) (n : Nat) (x : Pkg) : Kept s (s.setPkg n x) := kept_of_same rfl
theorem kept_setMem (s : State) (m : List Host.Cell) : Kept s { s with mem := m } := kept_of_same rfl
theorem kept_setDir (s : State) (pl : Nat) (x : DirEnt) : Kept s (s.setDir pl x) := (quiet_setDir ..).kept

theorem kept_setCtx (s : State) (id : CtxId) {c : Ctx} (h : CtxKept (s.ctx id) c) : Kept s (s.setCtx id c) where
  rest := rfl
  cores := fun _ _ => rfl
  ctxs := fun j => by
    by_cases e : j = id
    · subst e
      rw [setCtx_ctx_same]
      exact h
    · rw [setCtx_ctx_other _ _ _ _ e]
      exact rfl

theorem tfind_tmap {κ α : Type} [DecidableEq κ] (t : Tab κ α) (f : κ → α → α) (k : κ) : tfind (tmap t f) k = (tfind t k).map (f k) := by
  induction t with
  | nil => rfl
  | cons e r ih =>
    obtain ⟨k', a⟩ := e
    by_cases h : k' = k
    · subst h
      simp [tmap, tfind]
    · simp [tmap, tfind, h, ih]

/-- A table mapped by a function that leaves the default alone reads as the function of what it read. -/
theorem tget_tmap {κ α : Type} [DecidableEq κ] (d : α) (t : Tab κ α) (f : κ → α → α) (k : κ) (hd : f k d = d) :
    tget d (tmap t f) k = f k (tget d t k) := by
  unfold tget
  rw [tfind_tmap]
  cases tfind t k with
  | none => exact hd.symm
  | some a => rfl

theorem kept_poolDone (s : State) (line : Nat) : Kept s (s.poolDone line) where
  rest := rfl
  cores := fun _ _ => rfl
  ctxs := fun id => by
    unfold State.poolDone State.ctx
    rw [tget_tmap _ _ _ _ (by unfold Ctx.resetOf; split <;> rfl)]
    exact rfl

theorem kept_poolClean (s : State) (n line : Nat) : Kept s (s.poolClean n line) := by
  unfold State.poolClean
  dsimp only
  split
  · exact Kept.refl s
  · split
    · exact Kept.refl s
    · exact ((kept_setMem s _).trans (kept_setPkg ..)).trans (kept_poolDone ..)

theorem kept_poolSnoop (s : State) (n line : Nat) (w : Bool) : Kept s (s.poolSnoop n line w) := by
  refine kept_foldl _ (fun s x => ?_) _ s
  have h : Kept s ((s.merge x.2).poolClean x.1 x.2) := (quiet_merge ..).kept.trans (kept_poolClean ..)
  split
  · exact h.trans ((quiet_recall ..).kept.trans (quiet_dropWalks ..).kept)
  · exact h

theorem kept_walkerReads (s : State) (line n d t : Nat) : Kept s (s.walkerReads line n d t) := by
  unfold State.walkerReads
  dsimp only
  split
  · exact Kept.refl s
  · split
    · exact kept_setDir ..
    · exact (kept_setDir ..).trans (kept_setDir ..)

theorem kept_walkerRead (s : State) (q : Req) (t line : Nat) : Kept s (s.walkerRead q t line) := by
  unfold State.walkerRead
  dsimp only
  split
  · exact (kept_poolSnoop ..).trans ((quiet_merge ..).kept.trans (kept_walkerReads ..))
  · exact (quiet_merge ..).kept.trans (kept_walkerReads ..)

theorem kept_fillWalk (s : State) (q : Req) (va : Nat) (w : Walk) : Kept s (s.fillWalk q va w) := by
  unfold State.fillWalk
  extract_lets t s1 x s2
  have h1 : Kept s s1 := kept_foldl _ (fun s l => kept_walkerRead ..) _ s
  have h2 : Kept s1 s2 := by
    unfold s2
    split
    · exact Kept.refl s1
    · exact kept_setSlice ..
  have h12 := h1.trans h2
  split
  · split
    · exact h12
    · exact h12.trans (kept_setDie ..)
  · exact h12

theorem kept_setTry (s : State) (q : Req) (t : Try) : Kept s (s.setTry q t) := by
  unfold State.setTry
  split
  · exact kept_of_same rfl
  · split
    · exact Kept.refl s
    · exact kept_setCtx _ _ rfl

theorem kept_countLeaf (s : State) (q : Req) (va : Nat) : Kept s (s.countLeaf q va) := by
  unfold State.countLeaf
  dsimp only
  split
  · exact Kept.refl s
  · exact (kept_setSlice ..).trans (kept_setTry ..)

theorem kept_pinPage (s : State) (q : Req) (va : Nat) (l : Leaf) : Kept s (s.pinPage q va l) := by
  unfold State.pinPage
  split
  · exact Kept.refl s
  · split
    · exact Kept.refl s
    · exact kept_of_same rfl

theorem kept_setAd {s t : State} {own a : Nat} {e : Word} {d : Bool} (h : s.setAd own a e d = some t) : Kept s t := by
  unfold State.setAd at h
  dsimp only at h
  split at h
  · rw [← Option.some.inj h]
    have hbits : ∀ (dd : Tab (Nat × Nat) DieSt) (pp : List Pin), Kept s { s with dies := dd, pins := pp } := fun _ _ => kept_of_same rfl
    split
    · exact (hbits _ _).trans ((kept_poolSnoop ..).trans ((kept_setMem ..).trans (kept_setPkg ..)))
    · exact (hbits _ _).trans (kept_setMem ..)
  · exact absurd h (by simp)

theorem kept_findLeaf {s t : State} {q : Req} {va : Nat} {a : Acc} {w : Walk} (h : s.findLeaf q va a = .ok (t, w)) : Kept s t := by
  unfold State.findLeaf at h
  dsimp only at h
  split at h
  · injection h with h
    have ht : s.fillWalk q va (s.lookup q va) = t := congrArg Prod.fst h
    rw [← ht]
    exact kept_fillWalk ..
  · simp [xtrap] at h
  · simp [xtrap] at h
  · split at h <;> simp [xtrap] at h
  · simp at h
  · simp at h
  · simp [State.nodeTrap] at h

/-- A translation that succeeds. -/
theorem kept_translate {s t : State} {q : Req} {va : Nat} {a : Acc} {x : Xlated} (h : s.translate q va a = .ok (t, x)) : Kept s t := by
  unfold State.translate at h
  cases hf : s.findLeaf q va a with
  | error e =>
    rw [hf] at h
    exact absurd h (by simp [bind, Except.bind])
  | ok r =>
    obtain ⟨u, w⟩ := r
    have hu := kept_findLeaf hf
    rw [hf] at h
    simp only [bind, Except.bind] at h
    have hlast : ∀ (v : State) (l : Leaf) (y : Xlated), Kept s v → (Except.ok (((v.countLeaf q va).pinPage q va l), y) : Except Stop (State × Xlated)) = .ok (t, x) →
        Kept s t := fun v l y hv e => by
      injection e with e
      have ht : (v.countLeaf q va).pinPage q va l = t := congrArg Prod.fst e
      rw [← ht]
      exact hv.trans ((kept_countLeaf ..).trans (kept_pinPage ..))
    split at h
    · exact absurd h (by simp [permTrap])
    · split at h
      · exact absurd h (by simp [permTrap])
      · split at h
        · exact absurd h (by simp)
        · split at h
          · split at h
            · exact absurd h (by simp)
            · split at h
              next hset => exact hlast _ _ _ (hu.trans (kept_setAd hset)) h
              · exact absurd h (by simp)
          · exact hlast _ _ _ hu h

/-! ## Stores -/

theorem kept_setLost (s : State) (line : Nat) (m : BitVec 64) : Kept s (s.setLost line m) := by
  refine kept_of_same ?_
  unfold State.setLost
  split <;> rfl

theorem kept_lostWrite (s : State) (a n : Nat) : Kept s (s.lostWrite a n) := by
  unfold State.lostWrite
  split
  · exact Kept.refl s
  · exact kept_setLost ..

theorem kept_hbmWrite (s : State) (a n v : Nat) : Kept s (s.hbmWrite a n v) :=
  (quiet_dropWalks ..).kept.trans ((kept_setMem ..).trans (kept_lostWrite ..))

theorem kept_poolWrite (s : State) (node pa n v : Nat) : Kept s (s.poolWrite node pa n v) :=
  (quiet_dropWalks ..).kept.trans ((kept_lostWrite ..).trans ((kept_setMem ..).trans (kept_setPkg ..)))

theorem kept_lineWrite (s : State) (q : Req) (va pa n v : Nat) : Kept s (s.lineWrite q va pa n v) := by
  unfold State.lineWrite
  dsimp only
  split
  · split
    · exact (kept_poolSnoop ..).trans (kept_poolWrite ..)
    · exact ((kept_poolSnoop ..).trans (kept_poolWrite ..)).trans (kept_setCtx _ _ rfl)
  · exact kept_hbmWrite ..

theorem quiet_dropCore (s : State) (n k pl : Nat) (b : Bool) : Quiet s (s.dropCore n k pl b) := quiet_foldl _ (fun _ _ => quiet_l1drop ..) _ s

theorem quiet_touchHit (s : State) (q : Req) (v : Nat) : Quiet s (s.touchHit q v) := by
  unfold State.touchHit
  split
  · exact quiet_setCore _ _ _ rfl
  · exact Quiet.refl s

theorem quiet_updateUntracked (s : State) (q : Req) (va n v : Nat) : Quiet s (s.updateUntracked q va n v) := quiet_setCore _ _ _ rfl

/-- What becomes of copies before a store reaches its home. -/
def storeCopies (s : State) (q : Req) (va pa n v typ : Nat) (e : Word) : State :=
  let s := s.dropSynonyms q.id.node q.id.core (lineOf pa) (some (q.asid, fieldN va 6 50))
  if typ = reqOwn then s.storeOwn q va pa n e
  else if typ = reqUnc then (s.dropCore q.id.node q.id.core (lineOf pa) false).recall (lineOf pa) none
  else
    let s := (s.storeThrough q va pa).touchHit q (fieldN va 6 50)
    if typ = reqSi then s.updateUntracked q va n v else s

theorem storeLine_eq (s : State) (q : Req) (va pa n v typ : Nat) (e : Word) :
    s.storeLine q va pa n v typ e = (storeCopies s q va pa n v typ e).lineWrite q va pa n v := by
  unfold State.storeLine storeCopies
  dsimp only
  split
  · rfl
  · split <;> rfl

theorem quiet_storeCopies (s : State) (q : Req) (va pa n v typ : Nat) (e : Word) : Quiet s (storeCopies s q va pa n v typ e) := by
  unfold storeCopies
  dsimp only
  refine (quiet_dropSynonyms s q.id.node q.id.core (lineOf pa) (some (q.asid, fieldN va 6 50))).trans ?_
  split
  · exact quiet_storeOwn ..
  · split
    · exact (quiet_dropCore ..).trans (quiet_recall ..)
    · have h : ∀ u : State, Quiet u ((u.storeThrough q va pa).touchHit q (fieldN va 6 50)) := fun u =>
        ((quiet_merge ..).trans (quiet_recall ..)).trans (quiet_touchHit ..)
      split
      · exact (h _).trans (quiet_updateUntracked ..)
      · exact h _

theorem kept_storeLine (s : State) (q : Req) (va pa n v typ : Nat) (e : Word) : Kept s (s.storeLine q va pa n v typ e) := by
  rw [storeLine_eq]
  exact (quiet_storeCopies ..).kept.trans (kept_lineWrite ..)

theorem setLost_mem (s : State) (line : Nat) (m : BitVec 64) : (s.setLost line m).mem = s.mem := by
  unfold State.setLost
  split <;> rfl

theorem hbmWrite_mem (s : State) (a n v : Nat) : (s.hbmWrite a n v).mem = memWrite s.mem a n v := by
  unfold State.hbmWrite State.lostWrite
  dsimp only
  have h := (quiet_dropWalks s (lineOf a)).1.mem
  split
  · rw [h]
  · rw [setLost_mem]
    dsimp only
    rw [h]

/-- A store to HBM writes its bytes and no other. -/
theorem storeLine_mem_hbm (s : State) (q : Req) (va pa n v typ : Nat) (e : Word) (h : paClass pa = 0) :
    (s.storeLine q va pa n v typ e).mem = memWrite s.mem pa n v := by
  rw [storeLine_eq]
  unfold State.lineWrite
  rw [if_neg (by omega), hbmWrite_mem, (quiet_storeCopies ..).1.mem]

/-! ## What an access leaves -/

section
variable {s t : State} (h : Kept s t)
include h

theorem Kept.fnode : t.fnode = s.fnode := by rw [h.rest]
theorem Kept.fcore : t.fcore = s.fcore := by rw [h.rest]
theorem Kept.pfx : t.pfx = s.pfx := by rw [h.rest]
theorem Kept.nmOps : t.nmOps = s.nmOps := by rw [h.rest]
theorem Kept.polders : t.polders = s.polders := by rw [h.rest]
theorem Kept.slot (n k : Nat) : (t.core n k).slot = (s.core n k).slot := by rw [h.cores n k]
theorem Kept.vq (n k : Nat) : (t.core n k).vq = (s.core n k).vq := by rw [h.cores n k]

theorem Kept.cur : t.cur = s.cur := by
  unfold State.cur State.cc
  rw [h.fnode, h.fcore, h.slot]

theorem Kept.c : CtxKept s.c t.c := by
  unfold State.c
  rw [h.cur]
  exact h.ctxs s.cur

theorem Kept.c_x : t.c.x = s.c.x := by rw [h.c]
theorem Kept.c_v : t.c.v = s.c.v := by rw [h.c]
theorem Kept.c_ra : t.c.ra = s.c.ra := by rw [h.c]
theorem Kept.c_gen : t.c.gen = s.c.gen := by rw [h.c]
theorem Kept.c_fpstat : t.c.fpstat = s.c.fpstat := by rw [h.c]
theorem Kept.c_nmPending : t.c.nmPending = s.c.nmPending := by rw [h.c]
theorem Kept.X (r : Reg) : t.X r = s.X r := by
  unfold State.X Ctx.xr
  rw [h.c_x]
theorem Kept.vr (r : Reg) : t.c.vr r = s.c.vr r := by
  unfold Ctx.vr
  rw [h.c_v]
theorem Kept.portOf (r : Reg) : t.c.portOf r = s.c.portOf r := by
  unfold Ctx.portOf
  rw [h.c]

end

end Sys2Proof.Access
end

section
/-! Atomics and near-memory operations. -/

namespace Sys2Proof.MemoryOps
set_option Elab.async false
open Sys2Proof Sys2Proof.Machine Sys2Proof.Safety Sys2Proof.Ends Sys2Proof.Access Sys2Proof.Units

theorem ok_bind {ε α β : Type} (x : α) (f : α → Except ε β) : (Except.ok x >>= f) = f x := rfl

/-! ## Near-memory operations are sent -/

theorem nmPlace_kept {s t : State} {va n : Nat} {x : Xlated} (h : s.nmPlace s.req va n = .ok (t, x)) : Kept s t := by
  unfold State.nmPlace at h
  dsimp only at h
  split at h
  · simp [raiseAcc] at h
  · split at h
    · simp [raiseAcc] at h
    · split at h
      · simp [raiseAcc] at h
      · cases ht : s.translate s.req va accNear with
        | error e =>
          rw [ht] at h
          exact absurd h (by simp [bind, Except.bind])
        | ok r =>
          obtain ⟨u, y⟩ := r
          rw [ht, ok_bind] at h
          dsimp only at h
          split at h
          · simp [raiseAcc] at h
          · split at h
            · simp [raiseAcc] at h
            · have hu : u = t := congrArg Prod.fst (Except.ok.inj h)
              exact hu ▸ kept_translate ht

/-- The copies of an operation's line that are gone when it has been sent. -/
def sentCopies (s : State) (o : NmOp) : State :=
  let gone := (s.core o.id.node o.id.core).l1.filter (fun (l : L1Line) => l.pline == lineOf o.pa)
  (gone.foldl (fun s l => s.l1drop o.id.node o.id.core l.asid l.vline false) s).recallAt (lineOf o.pa)
    (o.id.node, o.id.die, (gone.foldl (fun s l => s.l1drop o.id.node o.id.core l.asid l.vline false) s).lineSlice o.id.node o.id.die o.asid
      (fieldW o.va 6 50)) none

theorem quiet_sentCopies (s : State) (o : NmOp) : Quiet s (sentCopies s o) := by
  unfold sentCopies
  dsimp only
  exact (quiet_foldl (fun (s : State) (l : L1Line) => s.l1drop o.id.node o.id.core l.asid l.vline false) (fun _ _ => quiet_l1drop ..) _ s).trans (quiet_recallAt ..)

theorem nmSend_eq (s : State) (o : NmOp) :
    s.nmSend o = ({ sentCopies s o with nmOps := (sentCopies s o).nmOps ++ [o] } : State).enq .nearMemoryForward { pa := o.pa } := rfl

section
variable (s : State) (o : NmOp)

theorem nmSend_nmOps : (s.nmSend o).nmOps = s.nmOps ++ [o] := by
  rw [nmSend_eq]
  change (sentCopies s o).nmOps ++ [o] = _
  rw [(quiet_sentCopies s o).kept.nmOps]

theorem nmSend_mem : (s.nmSend o).mem = s.mem := by
  rw [nmSend_eq]
  exact (quiet_sentCopies s o).1.mem

theorem nmSend_c : (s.nmSend o).c = s.c := by
  rw [nmSend_eq]
  exact (quiet_sentCopies s o).c

end

theorem nearMem_sends {i : Instr} {op : Nat} {s s1 : State} {a b : Reg} {vec : Bool} {x : Xlated} (hra : s.c.ra = false)
    (hport : vec = true → s.c.portOf b = none) (he : exec i s = nearMem i op a b vec s)
    (hplace : s.nmPlace s.req (s.X a).toNat (nmBytes op vec) = .ok (s1, x))
    (htests : s1.storeTests s.req (s.X a).toNat (nmBytes op vec) 2 = .ok ()) :
    Completes i s (fun t => t.mem = s1.mem ∧ t.c.x = s.c.x ∧ t.c.v = s.c.v ∧ t.c.nmPending = s.c.nmPending + 1 ∧
        t.nmOps = s1.nmOps ++ [⟨s.cur, s.c.gen, s.X a, x.pa, s.c.asid, s.c.ptroot, x.gen, op, vec,
          if vec then s.c.vr b else (s.X b).zeroExtend 256, .sent, none, none, false⟩]) := by
  have hk := nmPlace_kept hplace
  generalize hop : (⟨s.cur, s.c.gen, s.X a, x.pa, s.c.asid, s.c.ptroot, x.gen, op, vec,
    if vec then s.c.vr b else (s.X b).zeroExtend 256, .sent, none, none, false⟩ : NmOp) = o
  have hrun : exec i s = finish i s (.ok ((s1.setC { s1.c with nmPending := s1.c.nmPending + 1 }).nmSend o)) := by
    rw [he]
    unfold nearMem
    dsimp only
    rw [if_neg (by rw [hra]; exact Bool.false_ne_true), hplace, ok_bind]
    dsimp only
    rw [htests, ok_bind]
    have hX : (s1.setC { s1.c with nmPending := s1.c.nmPending + 1 }).X a = s.X a := by
      unfold State.X
      rw [setC_c]
      exact hk.X a
    cases vec with
    | true =>
      have hp : s1.c.portOf b = none := (hk.portOf b).trans (hport rfl)
      have hv : s1.readV b = .ok (s1, s.c.vr b) := by
        unfold State.readV
        rw [hp, hk.vr]
      rw [if_pos rfl, hv, ok_bind, ← hop]
      dsimp only
      rw [hX, setC_c, hk.c_gen]
      rfl
    | false =>
      rw [if_neg Bool.false_ne_true, ok_bind, ← hop]
      dsimp only
      rw [hX, setC_c, hk.c_gen, hk.X]
      rfl
  refine completes_finish hrun ⟨?_, ?_, ?_, ?_, ?_⟩
  · exact (complete_mem ..).trans (nmSend_mem ..)
  · rw [retire_x, nmSend_c, setC_c, ← hk.c_x]
  · rw [retire_v, nmSend_c, setC_c, ← hk.c_v]
  · rw [retire_nmPending, nmSend_c, setC_c, hk.c_nmPending]
  · rw [retire_nmOps, nmSend_nmOps]
    rfl

/-! ## And applied -/

theorem lineOf_lineOf (a : Nat) : lineOf (lineOf a) = lineOf a := by
  unfold lineOf
  omega

theorem hbmWrite_ctxs (s : State) (a n v : Nat) : (s.hbmWrite a n v).ctxs = s.ctxs := by
  have h := (quiet_dropWalks s (lineOf a)).1.ctxs
  unfold State.hbmWrite State.lostWrite
  dsimp only
  split
  · exact h
  · unfold State.setLost
    split <;> exact h

theorem nearMem_applies {u : State} {o : NmOp} (hfirst : u.nmFirst (lineOf u.ev.pa) .forwarded = some o) (hlost : u.isLost o.pa = false)
    (hflag : u.ev.flag = false) : Completes .nearMemoryApply u (fun t =>
      t.mem = memWrite u.mem o.pa (nmBytes o.op o.vec) (nmApplyOp o.op o.vec (memRead u.mem o.pa (nmBytes o.op o.vec)) o.data.toNat) ∧
      t.ctxs = u.ctxs) := by
  have hline : lineOf o.pa = lineOf u.ev.pa := by
    have h := List.find?_some hfirst
    unfold NmOp.isAt at h
    simp only [Bool.and_eq_true, beq_iff_eq] at h
    exact h.1
  have hl : u.isLost (lineOf u.ev.pa) = false := by
    rw [← hline]
    unfold State.isLost at hlost ⊢
    rw [lineOf_lineOf]
    exact hlost
  refine ⟨_, rfl, ?_, ?_⟩
  · unfold State.nmApply
    dsimp only
    rw [hfirst]
    dsimp only
    rw [hflag, if_neg Bool.false_ne_true, hl, if_neg Bool.false_ne_true]
    exact hbmWrite_mem ..
  · unfold State.nmApply
    dsimp only
    rw [hfirst]
    dsimp only
    rw [hflag, if_neg Bool.false_ne_true, hl, if_neg Bool.false_ne_true]
    exact hbmWrite_ctxs ..

/-- Settles O28: what sending leaves, and what applying writes. -/
theorem nearMemoryOperationsAreSentAndApplied : Obligations.NearMemoryOperationsAreSentAndApplied := by
  unfold Obligations.NearMemoryOperationsAreSentAndApplied
  intro s s1 a b vec x hra hport
  refine ⟨?_, fun u o => nearMem_applies⟩
  simp only [List.forall_mem_cons, List.not_mem_nil, false_imp_iff, implies_true, and_true]
  exact ⟨nearMem_sends hra hport rfl, nearMem_sends hra hport rfl, nearMem_sends hra hport rfl, nearMem_sends hra hport rfl,
    nearMem_sends hra hport rfl⟩

/-! ## Atomics -/

theorem atomicPlace_kept {s t : State} {q : Req} {va : Nat} {x : Xlated} (h : s.atomicPlace q va = .ok (t, x)) : Kept s t := by
  unfold State.atomicPlace at h
  cases ht : s.translate q va accAtomic with
  | error e =>
    rw [ht] at h
    exact absurd h (by simp [bind, Except.bind])
  | ok r =>
    obtain ⟨u, y⟩ := r
    rw [ht, ok_bind] at h
    dsimp only at h
    split at h
    · simp [raiseAcc] at h
    · have hu : u = t := congrArg Prod.fst (Except.ok.inj h)
      exact hu ▸ kept_translate ht

/-- In HBM an atomic's tests change nothing. -/
theorem atomicReady_hbm {s t : State} {q : Req} {va : Nat} {x : Xlated} (hx : paClass x.pa = 0) (h : s.atomicReady q va x = .ok t) : t = s := by
  unfold State.atomicReady at h
  rw [if_pos hx] at h
  cases hc : s.hbmCheck q va x.pa 2 with
  | error e =>
    rw [hc] at h
    exact absurd h (by simp [bind, Except.bind])
  | ok r =>
    rw [hc, ok_bind] at h
    split at h
    · simp [raiseAcc] at h
    · exact (Except.ok.inj h).symm

theorem kept_atomicWrite (s : State) (q : Req) (va n : Nat) (x : Xlated) (p v : Nat) : Kept s (s.atomicWrite q va n x p v) := by
  unfold State.atomicWrite
  extract_lets vline typ s1 far s2
  have h1 : Kept s s1 := (quiet_dropUntracked ..).kept
  have h2 : Kept s1 s2 := by
    unfold s2
    split
    · refine (quiet_setCore _ _ _ ?_).kept
      unfold CoreSt.useContention
      split <;> exact rfl
    · exact Kept.refl s1
  exact (h1.trans h2).trans (kept_storeLine ..)

theorem atomicWrite_mem (s : State) (q : Req) (va n : Nat) (x : Xlated) (p v : Nat) (hx : paClass x.pa = 0) :
    (s.atomicWrite q va n x p v).mem = memWrite s.mem x.pa n v := by
  unfold State.atomicWrite
  extract_lets vline typ s1 far s2
  have h1 : s1.mem = s.mem := (quiet_dropUntracked ..).1.mem
  have h2 : s2.mem = s1.mem := by
    unfold s2
    split <;> rfl
  rw [storeLine_mem_hbm _ _ _ _ _ _ _ _ hx, h2, h1]

/-- With room among its misses, a request starts a new one. -/
theorem missNew_of_room {s : State} {q : Req} {vline : Nat} (h : s.missCount q.id.node q.id.core < 64) : s.missNew q vline = .ok () := by
  have hfull : s.missFull q = false := by
    unfold State.missFull
    rw [decide_eq_false (Nat.not_le.mpr h), Bool.and_false, Bool.false_and]
  unfold State.missNew State.missSlot
  rw [hfull, if_neg Bool.false_ne_true, ite_self]

/-- What an atomic leaves in memory, registers and flags. -/
def AtomicResult (s : State) (m : List Host.Cell) (pa n : Nat) (d : Reg) (nr : Bool) (new : Nat) (old : Word) (fl : BitVec 5) (t : State) : Prop :=
  t.mem = memWrite m pa n new ∧ (nr = true → t.c.x = s.c.x ∧ t.c.fpstat = s.c.fpstat) ∧
  (nr = false → XIs s t d old ∧ t.c.fpstat = s.c.fpstat ||| fl)

section
variable {s s1 s2 : State} {a : Reg} {n : Nat} {x : Xlated} (hra : s.c.ra = false) (hap : isAperture (s.X a).toNat = false)
  (hcan : isCanonical (s.X a).toNat = true) (hal : (s.X a).toNat % n = 0) (hplace : s.atomicPlace s.req (s.X a).toNat = .ok (s1, x))
  (hx : paClass x.pa = 0) (htests : s1.storeTests s.req (s.X a).toNat n 2 = .ok ())
  (hready : s1.atomicReady s.req (s.X a).toNat x = .ok s2) (hmiss : s2.missCount s.fnode s.fcore < 64)
include hra hap hcan hal hplace hx htests hready hmiss

/-- An atomic on HBM reads, modifies and writes its location. -/
theorem atomic_completes {i : Instr} {d : Reg} {p : Nat} {nr float : Bool} {f : Nat → Nat × BitVec 5} {after : State → State}
    (he : exec i s = atomic i n d a p nr float f after s)
    (hafter : ∀ u, Kept s u → (after u).c = u.c ∧ (after u).mem = u.mem ∧ (after u).cur = u.cur) :
    Completes i s (AtomicResult s s2.mem x.pa n d nr ((f (memRead s2.mem x.pa n)).1 % 2 ^ (8 * n))
      (if float then BitVec.ofNat 64 (memRead s2.mem x.pa n) else sextN (memRead s2.mem x.pa n) (8 * n)) (f (memRead s2.mem x.pa n)).2) := by
  have h21 : s2 = s1 := atomicReady_hbm hx hready
  have hk : Kept s s2 := h21 ▸ atomicPlace_kept hplace
  generalize hold : memRead s2.mem x.pa n = old
  have hread : s2.lineRead s.req.id.node x.pa n = old := by
    unfold State.lineRead
    rw [if_neg (by omega), hold]
  let w := s2.atomicWrite s.req (s.X a).toNat n x p ((f old).1 % 2 ^ (8 * n))
  have hw : Kept s w := hk.trans (kept_atomicWrite ..)
  obtain ⟨hc, hmem, hcur⟩ := hafter w hw
  have hwmem : (after w).mem = memWrite s2.mem x.pa n ((f old).1 % 2 ^ (8 * n)) := hmem.trans (atomicWrite_mem _ _ _ _ _ _ _ hx)
  have hrun : exec i s = finish i s (.ok (if nr then after w else
      ((after w).setX d (if float then BitVec.ofNat 64 old else sextN old (8 * n))).setFlags (f old).2)) := by
    rw [he]
    unfold atomic
    dsimp only
    rw [if_neg (by rw [hra]; exact Bool.false_ne_true), if_neg (by rw [hap]; exact Bool.false_ne_true), if_neg (by simp [hcan]), if_neg (by simp [hal]),
      hplace, ok_bind]
    dsimp only
    rw [htests, ok_bind, hready, ok_bind]
    refine congrArg (finish i s) ?_
    have hnew := missNew_of_room (q := s.req) (vline := fieldN (s.X a).toNat 6 50) (s := s2) hmiss
    rw [hread, hnew]
    split <;> rfl
  refine completes_finish hrun ?_
  cases nr with
  | true =>
    refine ⟨(complete_mem ..).trans hwmem, fun _ => ⟨?_, ?_⟩, fun h => absurd h.symm Bool.false_ne_true⟩
    · rw [if_pos rfl, retire_x, hc, hw.c_x]
    · rw [if_pos rfl, retire_fpstat, hc, hw.c_fpstat]
  | false =>
    rw [if_neg Bool.false_ne_true]
    have hsc : ∀ (u : State) (fl : BitVec 5), (u.setFlags fl).mem = u.mem := fun u fl => by
      unfold State.setFlags
      split <;> rfl
    refine ⟨(complete_mem ..).trans ((hsc _ _).trans hwmem), fun h => absurd h Bool.false_ne_true, fun _ => ⟨fun r => ?_, ?_⟩⟩
    · rw [retire_X]
      unfold State.X
      rw [setFlags_c, setX_c, hc]
      change (w.c.setX d _).xr r = _
      rw [xr_setX]
      have := hw.X r
      unfold State.X at this
      rw [this]
    · rw [retire_fpstat, setFlags_c, setX_c, hc]
      have hfields : ∀ v, (w.c.setX d v).fpstat = s.c.fpstat ∧ (w.c.setX d v).ra = false := fun v => by
        unfold Ctx.setX
        split
        · exact ⟨hw.c_fpstat, hw.c_ra.trans hra⟩
        · exact ⟨hw.c_fpstat, hw.c_ra.trans hra⟩
      rw [(hfields _).1, (hfields _).2, if_neg Bool.false_ne_true]

end

/-- A member of the integer atomics, whose new value is `new`. -/
theorem amoInt_completes {i : Instr} {s s1 s2 : State} {d a b : Reg} {w nr : Bool} {p : BitVec 2} {x : Xlated} {f : Nat → Nat → Nat → Nat}
    {new : Nat} (he : exec i s = amoInt i d a b w p nr f s) (hra : s.c.ra = false) (hap : isAperture (s.X a).toNat = false)
    (hcan : isCanonical (s.X a).toNat = true) (hal : (s.X a).toNat % amoBytes w = 0) (hplace : s.atomicPlace s.req (s.X a).toNat = .ok (s1, x))
    (hx : paClass x.pa = 0) (htests : s1.storeTests s.req (s.X a).toNat (amoBytes w) 2 = .ok ())
    (hready : s1.atomicReady s.req (s.X a).toNat x = .ok s2) (hmiss : s2.missCount s.fnode s.fcore < 64)
    (hnew : ∀ old y, old < 2 ^ (8 * amoBytes w) → y < 2 ^ (8 * amoBytes w) → old = memRead s2.mem x.pa (amoBytes w) →
      y = (s.X b).toNat % 2 ^ (8 * amoBytes w) → f (8 * amoBytes w) old y % 2 ^ (8 * amoBytes w) = new) :
    Completes i s (fun t => t.mem = memWrite s2.mem x.pa (amoBytes w) new ∧ t.c.fpstat = s.c.fpstat ∧ (nr = true → t.c.x = s.c.x) ∧
      (nr = false → XIs s t d (BitVec.ofInt 64 ((memRead s2.mem x.pa (amoBytes w) : Int).bmod (2 ^ (8 * amoBytes w)))))) := by
  have hlt : memRead s2.mem x.pa (amoBytes w) < 2 ^ (8 * amoBytes w) := by
    rw [Nat.pow_mul]
    exact Barriers.memRead_lt s2.mem x.pa _
  have hatomic : exec i s = atomic i (amoBytes w) d a p.toNat nr false
      (fun old => (f (8 * amoBytes w) old ((s.X b).toNat % 2 ^ (8 * amoBytes w)), 0)) id s := he
  have h := atomic_completes hra hap hcan hal hplace hx htests hready hmiss hatomic fun _ _ => ⟨rfl, rfl, rfl⟩
  have hvalue := hnew _ _ hlt (Nat.mod_lt _ (Nat.two_pow_pos _)) rfl rfl
  dsimp only at h
  rw [hvalue] at h
  obtain ⟨t, ht, hmem, hyes, hno⟩ := h
  refine ⟨t, ht, hmem, ?_, fun h => (hyes h).1, fun h => ?_⟩
  · cases nr with
    | true => exact (hyes rfl).2
    | false => exact (hno rfl).2.trans (BitVec.or_zero)
  · have hs : sextN (memRead s2.mem x.pa (amoBytes w)) (8 * amoBytes w)
        = BitVec.ofInt 64 ((memRead s2.mem x.pa (amoBytes w) : Int).bmod (2 ^ (8 * amoBytes w))) := by
      have hpos : 8 * amoBytes w = (8 * amoBytes w - 1) + 1 := by
        cases w <;> rfl
      have := Scalar.sextN_eq_bmod (memRead s2.mem x.pa (amoBytes w)) (8 * amoBytes w - 1)
      rwa [← hpos, Nat.mod_eq_of_lt hlt] at this
    have hx := (hno h).1
    rw [if_neg Bool.false_ne_true] at hx
    rwa [hs] at hx

theorem signedN_eq_bmod {v n : Nat} (hn : 0 < n) : signedN v n = (v : Int).bmod (2 ^ n) := by
  rw [Barriers.signedN_eq_toInt v n hn]
  exact BitVec.toInt_ofNat' ..

theorem amoBytes_pos (w : Bool) : 0 < 8 * amoBytes w := by
  cases w <;> decide

/-- A floating-point atomic on a location of four bytes gives the old value zero-extended. -/
theorem amoFloat_completes {i : Instr} {s s1 s2 : State} {d a : Reg} {nr : Bool} {p : Nat} {x : Xlated} {f : Nat → Nat × BitVec 5}
    {after : State → State} (he : exec i s = atomic i 4 d a p nr true f after s) (hafter : ∀ u, Kept s u → (after u).c = u.c ∧ (after u).mem = u.mem ∧ (after u).cur = u.cur)
    (hra : s.c.ra = false) (hap : isAperture (s.X a).toNat = false)
    (hcan : isCanonical (s.X a).toNat = true) (hal : (s.X a).toNat % 4 = 0) (hplace : s.atomicPlace s.req (s.X a).toNat = .ok (s1, x))
    (hx : paClass x.pa = 0) (htests : s1.storeTests s.req (s.X a).toNat 4 2 = .ok ())
    (hready : s1.atomicReady s.req (s.X a).toNat x = .ok s2) (hmiss : s2.missCount s.fnode s.fcore < 64) :
    Completes i s (AtomicResult s s2.mem x.pa 4 d nr ((f (memRead s2.mem x.pa 4)).1 % 2 ^ 32)
      (BitVec.ofNat 64 (memRead s2.mem x.pa 4)) (f (memRead s2.mem x.pa 4)).2) :=
  atomic_completes hra hap hcan hal hplace hx htests hready hmiss he hafter

theorem exec_amofadd {s : State} (hpfx : s.pfx = none) (d a b : Reg) (p : BitVec 2) (nr : Bool) :
    exec (.amofadd false d a b p nr) s = atomic (.amofadd false d a b p nr) 4 d a p.toNat nr true
      (fun old => fpAdd .fp32 Rnd.default old (s.F b)) (fun s => s.drawn 1) s := by
  change execAmofadd false d a b p nr s = _
  unfold execAmofadd
  rw [governed_plain, rnd_default hpfx]
  rfl

theorem exec_amofmin (s : State) (d a b : Reg) (p : BitVec 2) (nr : Bool) :
    exec (.amofmin d a b p nr) s = atomic (.amofmin d a b p nr) 4 d a p.toNat nr true (fun old => amoMinMax false old (s.F b)) id s := rfl

theorem exec_amofmax (s : State) (d a b : Reg) (p : BitVec 2) (nr : Bool) :
    exec (.amofmax d a b p nr) s = atomic (.amofmax d a b p nr) 4 d a p.toNat nr true (fun old => amoMinMax true old (s.F b)) id s := rfl

/-- Settles O27: one rule for the ten integer members, and one for the three on floats. -/
theorem atomicsReadModifyWrite : Obligations.AtomicsReadModifyWrite := by
  unfold Obligations.AtomicsReadModifyWrite
  intro s s1 s2 d a b w nr p x hra
  have hn : (if w then 8 else 4) = amoBytes w := rfl
  dsimp only
  rw [hn]
  intro hap hcan hal hplace hx htests hready hmiss
  refine ⟨?_, fun hw hpfx => ?_⟩
  · intro e he
    simp only [List.mem_cons, List.not_mem_nil, or_false] at he
    have hint := fun {i nr f new} (he : exec i s = amoInt i d a b w p nr f s) => amoInt_completes (new := new) he hra hap hcan hal hplace hx htests hready hmiss
    rcases he with rfl | rfl | rfl | rfl | rfl | rfl | rfl | rfl | rfl | rfl
    · refine hint (f := fun k x y => (x + y) % 2 ^ k) rfl ?_
      rintro _ _ ho hy rfl rfl
      exact Nat.mod_mod _ _
    · refine hint (f := fun _ x y => x &&& y) rfl ?_
      rintro _ _ ho hy rfl rfl
      exact Nat.mod_eq_of_lt (Nat.and_lt_two_pow _ hy)
    · refine hint (f := fun _ x y => x ||| y) rfl ?_
      rintro _ _ ho hy rfl rfl
      exact Nat.mod_eq_of_lt (Nat.or_lt_two_pow ho hy)
    · refine hint (f := fun _ x y => x ^^^ y) rfl ?_
      rintro _ _ ho hy rfl rfl
      exact Nat.mod_eq_of_lt (Nat.xor_lt_two_pow ho hy)
    · refine hint (f := fun _ _ y => y) rfl ?_
      rintro _ _ ho hy rfl rfl
      exact Nat.mod_eq_of_lt hy
    · refine hint (f := fun _ x y => min x y) rfl ?_
      rintro _ _ ho hy rfl rfl
      exact Nat.mod_eq_of_lt (lt_of_le_of_lt (Nat.min_le_right _ _) hy)
    · refine hint (f := fun _ x y => max x y) rfl ?_
      rintro _ _ ho hy rfl rfl
      exact Nat.mod_eq_of_lt (max_lt ho hy)
    · refine hint (f := fun k x y => if signedN y k < signedN x k then y else x) rfl ?_
      rintro _ _ ho hy rfl rfl
      rw [signedN_eq_bmod (amoBytes_pos w), signedN_eq_bmod (amoBytes_pos w)]
      exact Nat.mod_eq_of_lt (by split <;> assumption)
    · refine hint (f := fun k x y => if signedN x k < signedN y k then y else x) rfl ?_
      rintro _ _ ho hy rfl rfl
      rw [signedN_eq_bmod (amoBytes_pos w), signedN_eq_bmod (amoBytes_pos w)]
      exact Nat.mod_eq_of_lt (by split <;> assumption)
    · refine hint (f := fun k x y => if x = (s.X d).toNat % 2 ^ k then y else x) rfl ?_
      rintro _ _ ho hy rfl rfl
      exact Nat.mod_eq_of_lt (by split <;> assumption)
  · subst hw
    refine ⟨?_, ?_, ?_⟩
    · obtain ⟨t, ht, hmem, hyes, hno⟩ := amoFloat_completes (exec_amofadd hpfx d a b p nr)
        (fun u hu => ⟨drawn_c (hu.pfx.trans hpfx) 1, rfl, rfl⟩) hra hap hcan hal hplace hx htests hready hmiss
      exact ⟨t, ht, hmem, hyes, hno⟩
    · obtain ⟨t, ht, hmem, hyes, hno⟩ := amoFloat_completes (exec_amofmin s d a b p nr) (fun _ _ => ⟨rfl, rfl, rfl⟩) hra hap hcan hal hplace hx htests hready hmiss
      refine ⟨t, ht, hmem, ?_, fun h => (hno h).1⟩
      cases nr with
      | true => exact (hyes rfl).2
      | false => exact (hno rfl).2.trans BitVec.or_zero
    · obtain ⟨t, ht, hmem, hyes, hno⟩ := amoFloat_completes (exec_amofmax s d a b p nr) (fun _ _ => ⟨rfl, rfl, rfl⟩) hra hap hcan hal hplace hx htests hready hmiss
      refine ⟨t, ht, hmem, ?_, fun h => (hno h).1⟩
      cases nr with
      | true => exact (hyes rfl).2
      | false => exact (hno rfl).2.trans BitVec.or_zero

end Sys2Proof.MemoryOps
end

section
/-! Stream ports: binding, unbinding and reading them, and the pops and appends of a vector instruction's operands. -/

namespace Sys2Proof.Streams
set_option Elab.async false
open Sys2Proof Sys2Proof.Machine Sys2Proof.Safety Sys2Proof.Ends Sys2Proof.Units Sys2Proof.Lanes Sys2Proof.VecArith

/-! ## The ports of a context -/

theorem portOf_setPort_same {c : Ctx} {r : Reg} {p : Port} (hr : 24 ≤ r.toNat) :
    (c.setPort r p).portOf r = if p.bound && !c.ra then some p else none := by
  unfold Ctx.setPort Ctx.portOf
  rw [dif_pos hr, dif_pos hr]
  simp only [Vector.getElem_set_self]

theorem portOf_some_iff {c : Ctx} {r : Reg} {p : Port} (h : c.portOf r = some p) : 24 ≤ r.toNat ∧ p.bound = true ∧ c.ra = false := by
  unfold Ctx.portOf at h
  split at h
  next hr =>
    dsimp only at h
    split at h
    next hb =>
      obtain rfl := Option.some.inj h
      rw [Bool.and_eq_true, Bool.not_eq_true'] at hb
      exact ⟨hr, hb⟩
    next => cases h
  next => cases h

theorem portOf_setPort_other {c : Ctx} {r a : Reg} {p : Port} (h : r ≠ a) : (c.setPort a p).portOf r = c.portOf r := by
  unfold Ctx.setPort
  split
  next ha =>
    unfold Ctx.portOf
    split
    next hr =>
      have hne : a.toNat - 24 ≠ r.toNat - 24 := fun he => h (BitVec.eq_of_toNat_eq (by omega))
      dsimp only
      rw [Vector.getElem_set_ne _ _ hne]
    next => rfl
  next => rfl

section
variable (c : Ctx) (r : Reg) (p : Port)

theorem setPort_x : (c.setPort r p).x = c.x := by unfold Ctx.setPort; split <;> rfl
theorem setPort_v : (c.setPort r p).v = c.v := by unfold Ctx.setPort; split <;> rfl
theorem setPort_fpstat : (c.setPort r p).fpstat = c.fpstat := by unfold Ctx.setPort; split <;> rfl
theorem setPort_ra : (c.setPort r p).ra = c.ra := by unfold Ctx.setPort; split <;> rfl
theorem setPort_vr (k : Reg) : (c.setPort r p).vr k = c.vr k := by unfold Ctx.vr; rw [setPort_v]

end

/-! ## SBIND, SUNBIND and SSTAT -/

theorem sbind_binds {s u : State} {a r : Reg} {base stride w2 w3 : Nat} (hra : s.c.ra = false) (hr : 24 ≤ r.toNat)
    (hread : s.readDesc (s.X a).toNat = .ok (u, [base, stride, w2, w3])) (hc : u.c = { s.c with surveyed := u.c.surveyed })
    (hfree : s.c.portOf r = none) (h2 : w2 / 2 ^ 32 = 0) (h0 : w2 ≠ 0) (h3 : w3 < 8)
    (hb : base % portAlign base = 0) (hs : stride % portAlign base = 0) :
    Completes (.sbind r a) s (fun t => t.mem = u.mem ∧ t.c.x = s.c.x ∧ t.c.v = s.c.v ∧ t.c.portOf r =
        some ⟨true, BitVec.ofNat 64 base, BitVec.ofNat 64 stride, BitVec.ofNat 2 (w3 / 2), w3 % 2 == 1, 0, w2, [], []⟩) := by
  have hlt : w2 < 2 ^ 32 := by omega
  have hfields : fieldN w2 32 32 = 0 ∧ fieldN w2 0 32 = w2 ∧ fieldN w3 3 61 = 0 ∧ fieldN w3 1 2 = w3 / 2 ∧ fieldN w3 0 1 = w3 % 2 := by
    unfold fieldN
    omega
  obtain ⟨f1, f2, f3, f4, f5⟩ := hfields
  have hfree' : (u.c.portOf r).isSome = false := by
    rw [hc]
    exact congrArg Option.isSome hfree
  let port : Port := ⟨true, BitVec.ofNat 64 base, BitVec.ofNat 64 stride, BitVec.ofNat 2 (w3 / 2), w3 % 2 == 1, 0, w2, [], []⟩
  let v := u.setC (u.c.setPort r port)
  have he : exec (.sbind r a) s = finish (.sbind r a) s (.ok (if port.write then v
      else v.enq .streamElementFetch { node := v.fnode, core := v.fcore, slot := v.cc.slot, n := r.toNat })) := by
    change execSbind r a s = _
    unfold execSbind
    rw [if_neg (by rw [hra]; exact Bool.false_ne_true), hread, ok_bind]
    dsimp only
    rw [show [base, stride, w2, w3].getD 0 0 = base from rfl, show [base, stride, w2, w3].getD 1 0 = stride from rfl,
      show [base, stride, w2, w3].getD 2 0 = w2 from rfl, show [base, stride, w2, w3].getD 3 0 = w3 from rfl]
    rw [f1, f2, f3, f4, f5, hfree', if_neg (by simp [h0, hb, hs])]
  have hwc : ∀ w : State, w = (if port.write then v else v.enq .streamElementFetch { node := v.fnode, core := v.fcore, slot := v.cc.slot, n := r.toNat }) →
      w.c = u.c.setPort r port ∧ w.mem = u.mem := by
    rintro w rfl
    split <;> exact ⟨setC_c .., rfl⟩
  refine completes_finish he ?_
  obtain ⟨hwc, hwm⟩ := hwc _ rfl
  refine ⟨(complete_mem ..).trans hwm, ?_, ?_, ?_⟩
  · rw [retire_x, hwc, setPort_x, hc]
  · rw [retire_v, hwc, setPort_v, hc]
  · rw [retire_portOf, hwc, portOf_setPort_same hr, hc]
    change (if !s.c.ra then some port else none) = some port
    rw [hra]
    rfl

theorem sunbind_bound {s : State} {r : Reg} {p : Port} (hra : s.c.ra = false) (hp : s.c.portOf r = some p) :
    exec (.sunbind r) s = finish (.sunbind r) s
      (if p.write ∧ p.buffered ≠ [] then .error (.wait .stream s) else .ok (s.setC (s.c.setPort r Port.none))) := by
  change execSunbind r s = _
  unfold execSunbind
  rw [if_neg (by rw [hra]; exact Bool.false_ne_true), hp]

theorem sunbind_unbinds {s : State} {r : Reg} {p : Port} (hra : s.c.ra = false) (hr : 24 ≤ r.toNat) (hp : s.c.portOf r = some p)
    (h : p.write = false ∨ p.buffered = []) :
    Completes (.sunbind r) s (fun t => t.c.portOf r = none ∧ t.c.x = s.c.x ∧ t.c.v = s.c.v ∧ t.mem = s.mem) := by
  have he := sunbind_bound hra hp
  rw [if_neg (by rintro ⟨hw, hb⟩; exact h.elim (fun hf => by rw [hf] at hw; cases hw) hb)] at he
  refine completes_finish he ⟨?_, ?_, ?_, complete_mem ..⟩
  · rw [retire_portOf, setC_c, portOf_setPort_same hr]
    exact if_neg (by simp [Port.none])
  · rw [retire_x, setC_c, setPort_x]
  · rw [retire_v, setC_c, setPort_v]

theorem sstat_reads {s : State} {d r : Reg} {p : Port} (hra : s.c.ra = false) (hp : s.c.portOf r = some p) :
    Completes (.sstat d r) s (ResultX d (BitVec.ofNat 64 (2 ^ 63 + p.write.toNat * 2 ^ 62 +
        (if p.write then p.buffered.length else p.fetched.length) * 2 ^ 59 + p.remain % 2 ^ 32)) s) := by
  refine completes_setX ?_
  change execSstat d r s = _
  unfold execSstat
  rw [if_neg (by rw [hra]; exact Bool.false_ne_true), hp]

theorem unbound_faults {s : State} {d r : Reg} (hra : s.c.ra = false) (hp : s.c.portOf r = none) :
    Traps (.sunbind r) s .streamFault (BitVec.ofNat 64 r.toNat) 0 ∧ Traps (.sstat d r) s .streamFault (BitVec.ofNat 64 r.toNat) 0 := by
  constructor
  · refine traps_finish ?_
    change execSunbind r s = _
    unfold execSunbind
    rw [if_neg (by rw [hra]; exact Bool.false_ne_true), hp]
    rfl
  · refine traps_finish ?_
    change execSstat d r s = _
    unfold execSstat
    rw [if_neg (by rw [hra]; exact Bool.false_ne_true), hp]
    rfl

/-! ## Pops -/

/-- The port after a pop of an element that had not been fetched ahead. -/
def popped (p : Port) : Port := { p with k := p.k + 1, remain := p.remain - 1 }

theorem readV_pops {s u : State} {a : Reg} {p : Port} {x : Vec} {f : BitVec 5} (hp : s.c.portOf a = some p) (hw : p.write = false) (hr : p.remain ≠ 0)
    (hf : p.fetched = []) (hl : s.vecLoad s.req (p.va p.k) p.typ.toNat false = .ok (u, x, f)) :
    s.readV a = .ok ((u.setC (u.c.setPort a (popped p))).setFlags f, x) := by
  have hnext : ({ p with k := p.k + 1, remain := p.remain - 1, fetched := [] } : Port) = popped p := by
    unfold popped
    rw [← hf]
  unfold State.readV
  rw [hp]
  dsimp only
  rw [if_neg (by simp [hw, hr]), hf, List.find?_nil]
  dsimp only
  rw [hl]
  dsimp only
  rw [List.filter_nil, hnext]

theorem readV_faults {s : State} {a : Reg} {p : Port} (hp : s.c.portOf a = some p) (h : p.write = true ∨ p.remain = 0) :
    s.readV a = streamFault a := by
  unfold State.readV
  rw [hp]
  exact if_pos h

/-- The state that a pop leaves: the access's, the port past its element, the flags of the element's conversion raised. -/
theorem popped_c {s u : State} {a : Reg} {p : Port} {f : BitVec 5} (hra : s.c.ra = false) (hc : u.c = { s.c with surveyed := u.c.surveyed }) :
    let c := ((u.setC (u.c.setPort a (popped p))).setFlags f).c
    c.x = s.c.x ∧ c.v = s.c.v ∧ c.fpstat = s.c.fpstat ||| f ∧ c.ra = false ∧ ∀ r, c.portOf r = (s.c.setPort a (popped p)).portOf r := by
  have hfields : (u.c.setPort a (popped p)) = { s.c.setPort a (popped p) with surveyed := u.c.surveyed } := by
    rw [hc]
    unfold Ctx.setPort
    split <;> rfl
  dsimp only
  rw [setFlags_c, setC_c, hfields]
  refine ⟨setPort_x .., setPort_v .., ?_, (setPort_ra ..).trans hra, fun r => portOf_congr rfl rfl r⟩
  change (if (s.c.setPort a (popped p)).ra then _ else (s.c.setPort a (popped p)).fpstat ||| f) = _
  rw [setPort_ra, hra, if_neg Bool.false_ne_true, setPort_fpstat]

/-! ## VMOV on words: the lanes put together again -/

theorem packEls_elems (w : Nat) : ∀ (n v : Nat), packEls w (elems v w n) = v % 2 ^ (w * n)
  | 0, v => by
    rw [Nat.mul_zero, Nat.pow_zero, Nat.mod_one]
    rfl
  | n + 1, v => by
    rw [elems, packEls, packEls_elems w n, Nat.mod_mod, Nat.mul_succ, Nat.add_comm (w * n), Nat.pow_add, Nat.mod_mul]

theorem vecOf_vecEls (v : Vec) : vecOf 32 (vecEls v 32) = v := by
  unfold vecOf vecEls
  rw [packEls_elems]
  exact BitVec.eq_of_toNat_eq (by rw [BitVec.toNat_ofNat, Nat.mod_mod]; exact Nat.mod_eq_of_lt v.isLt)

/-- What VMOV computes on words: each element, with no flag. -/
def moved (v : Vec) : List (Nat × BitVec 5) := (vecEls v 32).map (fun x => (x, 0))

theorem map2_moved : ∀ (n : Nat) (l : List Nat), l.length = n →
    map2 (fun _ x _ => (x, 0)) (List.replicate n 0) l (List.replicate n 0) = l.map (fun x => (x, 0))
  | 0, l, h => by
    rw [List.eq_nil_of_length_eq_zero h]
    rfl
  | n + 1, [], h => by cases h
  | n + 1, x :: l, h => by
    rw [List.replicate_succ, map2, List.map_cons, map2_moved n l (Nat.succ.inj h)]

theorem moved_value (v : Vec) : vecOf 32 ((moved v).map (·.1)) = v := by
  unfold moved
  rw [List.map_map]
  exact (congrArg (vecOf 32) (List.map_id _)).trans (vecOf_vecEls v)

theorem or_zero' (x : BitVec 5) : x ||| 0 = x := BitVec.or_zero

theorem moved_flags (v : Vec) : flagsOf (moved v) = 0 := by
  unfold flagsOf moved
  rw [List.foldl_map]
  induction vecEls v 32 with
  | nil => rfl
  | cons x l ih =>
    rw [List.foldl_cons, or_zero']
    exact ih

/-- VMOV with type I32: its one source is read, and its destination written. -/
theorem exec_vmov {s : State} (hp : s.pfx = none) (d a : Reg) : exec (.vmov false d a 0) s = finish (.vmov false d a 0) s
    (viaQueue s (s.readV a >>= fun r => ((r.1.drawn 0).setFlags 0).writeV d r.2 false >>= fun t => .ok (t.vqPush d.toNat [a.toNat]))) := by
  change execVmov false d a 0 s = _
  unfold execVmov vun typed
  rw [governed_plain, vty_default hp, show ETy.ofT (0 : BitVec 3).toNat = some .i32 from rfl]
  dsimp only
  rw [if_pos (show anyTy .i32 = true from rfl)]
  change finish _ s (viaQueue s (s.readV a >>= fun r => r.1.vecDone d 32 0 [a.toNat] (map2 (fun _ x _ => (x, 0)) (List.replicate 8 0) (vecEls r.2 32) (List.replicate 8 0)) false)) = _
  refine congrArg (fun k => finish _ s (viaQueue s (s.readV a >>= k))) (funext fun r => ?_)
  rw [map2_moved 8 _ (by rw [vecEls_eq_map]; simp)]
  unfold State.vecDone
  change ((r.1.drawn 0).setFlags (flagsOf (moved r.2))).writeV d (vecOf 32 ((moved r.2).map (·.1))) false >>= _ = _
  rw [moved_flags, moved_value]

/-- No draw and no flag leave the context as it is. -/
theorem idle_c (s : State) : ((s.drawn 0).setFlags 0).c = s.c := by
  rw [setFlags_c]
  unfold State.drawn
  rw [setC_c]
  change ({ s.c with fpstat := if s.c.ra then s.c.fpstat else s.c.fpstat ||| 0 } : Ctx) = s.c
  rw [or_zero', ite_self]

theorem tset_self {κ α : Type} [DecidableEq κ] {a : α} {k : κ} : ∀ {t : Tab κ α}, tfind t k = some a → tset t k a = t
  | [], h => by cases h
  | (k', a') :: r, h => by
    unfold tfind at h
    unfold tset
    split
    next hk =>
      rw [if_pos hk] at h
      rw [← hk, Option.some.inj h]
    next hk =>
      rw [if_neg hk] at h
      rw [tset_self h]

/-- At reset no port is bound. -/
theorem portOf_reset (j : Nat) (r : Reg) : (Ctx.resetOf j).portOf r = none := by
  have hports : (Ctx.resetOf j).ports = Vector.replicate 8 Port.none := by
    unfold Ctx.resetOf
    split <;> rfl
  unfold Ctx.portOf
  split
  · dsimp only
    rw [hports, Vector.getElem_replicate]
    rfl
  · rfl

/-- A slot with a bound port is listed. -/
theorem setC_self {s : State} {r : Reg} {p : Port} (hp : s.c.portOf r = some p) : s.setC s.c = s := by
  have hfound : tfind s.ctxs s.cur = some s.c := by
    unfold State.c State.ctx tget at hp ⊢
    cases h : tfind s.ctxs s.cur with
    | some c => rfl
    | none =>
      rw [h] at hp
      exact absurd hp (by rw [Option.getD_none, portOf_reset]; exact Option.some_ne_none p |>.symm)
  unfold State.setC State.setCtx
  rw [tset_self hfound]

/-- With a bound port, no draw and no flag leave the state as it is. -/
theorem idle_state {s : State} {r : Reg} {p : Port} (hp : s.c.portOf r = some p) : (s.drawn 0).setFlags 0 = s := by
  have hd : s.drawn 0 = s := setC_self hp
  rw [hd]
  unfold State.setFlags
  rw [or_zero']
  split
  · rfl
  · exact setC_self hp

theorem viaQueue_room {α : Type} {s : State} (h : (s.cc.vq.filter (fun e => !e.bound)).length < 32) (u : α) : viaQueue s (.ok u) = .ok u := by
  unfold viaQueue
  rw [if_neg (Nat.not_le.mpr h)]

theorem viaQueue_fault {s : State} (h : (s.cc.vq.filter (fun e => !e.bound)).length < 32) (r : Reg) :
    viaQueue s (streamFault r : Res) = streamFault r := by
  unfold viaQueue
  rw [if_neg (Nat.not_le.mpr h)]
  rfl

/-! ## Operands that are ports -/

section
variable {s : State} {d a : Reg} {p : Port} (hp : s.pfx = none) (hra : s.c.ra = false)
  (hroom : (s.cc.vq.filter (fun e => !e.bound)).length < 32)
include hra hroom

/-- STV of a read port stores the element that the pop delivers. -/
theorem stv_pops {u : State} {x : Vec} {f : BitVec 5} (ha : s.c.portOf a = some p) (hw : p.write = false)
    (hr : p.remain ≠ 0) (hf : p.fetched = []) (hl : s.vecLoad s.req (p.va p.k) p.typ.toNat false = .ok (u, x, f))
    (hc : u.c = { s.c with surveyed := u.c.surveyed }) {b : Reg} {o : BitVec 9} {ty : BitVec 2} {w : State} {g : BitVec 5} :
    let v := (u.setC (u.c.setPort a (popped p))).setFlags f
    v.vecStore v.req (s.X b + BitVec.ofInt 64 (o.toInt * 32)).toNat ty.toNat x = .ok (w, g) →
    w.c = { v.c with surveyed := w.c.surveyed, poolStores := w.c.poolStores, poolLost := w.c.poolLost } →
    Completes (.stv a b o ty) s (fun t => t.mem = w.mem ∧ t.c.v = s.c.v ∧ t.c.x = s.c.x ∧ t.c.fpstat = s.c.fpstat ||| f ||| g ∧
      t.c.portOf a = some (popped p)) := by
  intro v hstore hwc
  obtain ⟨ha24, hbound, -⟩ := portOf_some_iff ha
  obtain ⟨hx, hv, hfl, hvra, hport⟩ := popped_c (a := a) (p := p) (f := f) hra hc
  have hoff : off9 o 32 = BitVec.ofInt 64 (o.toInt * 32) := by
    unfold off9
    rw [BitVec.ofInt_mul]
    rfl
  have he : exec (.stv a b o ty) s = finish (.stv a b o ty) s (.ok ((w.setFlags g).vqPush 64 [a.toNat])) := by
    change execStv a b o ty s = _
    unfold execStv vecStoreInstr
    rw [if_neg (by rw [hra]; exact Bool.false_ne_true), readV_pops ha hw hr hf hl, ok_bind, hoff]
    dsimp only
    rw [hstore, ok_bind, viaQueue_room hroom]
  refine completes_finish he ⟨?_, ?_, ?_, ?_, ?_⟩
  · refine (complete_mem ..).trans ?_
    unfold State.setFlags
    split <;> rfl
  · rw [retire_v, vqPush_c, setFlags_c, hwc]
    exact hv
  · rw [retire_x, vqPush_c, setFlags_c, hwc]
    exact hx
  · rw [retire_fpstat, vqPush_c, setFlags_c, hwc]
    dsimp only
    rw [hvra, if_neg Bool.false_ne_true, hfl]
  · rw [retire_portOf, vqPush_c, setFlags_c, hwc]
    refine (portOf_congr rfl rfl a).trans ((hport a).trans ((portOf_setPort_same ha24).trans ?_))
    rw [hra]
    exact if_pos (by rw [show (popped p).bound = true from hbound]; rfl)

include hp

/-- VMOV of a read port gives its register the element. -/
theorem vmov_pops {u : State} {x : Vec} {f : BitVec 5} (ha : s.c.portOf a = some p) (hd : s.c.portOf d = none) (hw : p.write = false)
    (hr : p.remain ≠ 0) (hf : p.fetched = []) (hl : s.vecLoad s.req (p.va p.k) p.typ.toNat false = .ok (u, x, f))
    (hc : u.c = { s.c with surveyed := u.c.surveyed }) :
    Completes (.vmov false d a 0) s (fun t => t.mem = u.mem ∧ t.c.vr d = x ∧ (∀ r, r ≠ d → t.c.vr r = s.c.vr r) ∧ t.c.x = s.c.x ∧
        t.c.fpstat = s.c.fpstat ||| f ∧ t.c.portOf a = some (popped p)) := by
  obtain ⟨ha24, hbound, -⟩ := portOf_some_iff ha
  obtain ⟨hx, hv, hfl, hvra, hport⟩ := popped_c (a := a) (p := p) (f := f) hra hc
  generalize hvs : (u.setC (u.c.setPort a (popped p))).setFlags f = v at hx hv hfl hvra hport
  have hvm : v.mem = u.mem := by
    rw [← hvs]
    unfold State.setFlags
    split <;> rfl
  have hda : d ≠ a := fun h => by rw [h, ha] at hd; cases hd
  have hdn : ((v.drawn 0).setFlags 0).c.portOf d = none := by
    rw [idle_c, hport, portOf_setPort_other hda, hd]
  let z := (v.drawn 0).setFlags 0
  have he : exec (.vmov false d a 0) s = finish (.vmov false d a 0) s (.ok ((z.setC (z.c.setV d x)).vqPush d.toNat [a.toNat])) := by
    rw [exec_vmov hp, readV_pops ha hw hr hf hl, hvs, ok_bind]
    dsimp only
    unfold State.writeV
    rw [hdn]
    exact congrArg (finish _ s) (viaQueue_room hroom _)
  have hzc : ((z.setC (z.c.setV d x)).vqPush d.toNat [a.toNat]).c = v.c.setV d x := by
    rw [vqPush_c, setC_c, idle_c]
  refine completes_finish he ⟨?_, ?_, fun r hr => ?_, ?_, ?_, ?_⟩
  · refine (complete_mem ..).trans (Eq.trans ?_ hvm)
    change z.mem = _
    unfold z State.setFlags
    split <;> rfl
  · rw [retire_vr, hzc]
    simp [Ctx.vr, Ctx.setV]
  · rw [retire_vr, hzc]
    have hne : d.toNat ≠ r.toNat := fun h => hr (BitVec.eq_of_toNat_eq h.symm)
    simp [Ctx.vr, Ctx.setV, hne, hv]
  · rw [retire_x, hzc]
    exact hx
  · rw [retire_fpstat, hzc]
    exact hfl
  · rw [retire_portOf, hzc]
    refine (portOf_congr rfl rfl a).trans ((hport a).trans ((portOf_setPort_same ha24).trans ?_))
    rw [hra]
    exact if_pos (by rw [show (popped p).bound = true from hbound]; rfl)

/-- VMOV to a write port appends: the element is stored, and the register stays. -/
theorem vmov_appends {u : State} {f : BitVec 5} (ha : s.c.portOf a = none) (hd : s.c.portOf d = some p) (hw : p.write = true)
    (hr : p.remain ≠ 0) (hb : p.buffered.length < 4)
    (hst : s.vecStore { s.req with append := some (d.toNat, p.k) } (p.va p.k) p.typ.toNat (s.c.vr a) = .ok (u, f))
    (hc : u.c = { s.c with surveyed := u.c.surveyed, poolStores := u.c.poolStores, poolLost := u.c.poolLost }) :
    Completes (.vmov false d a 0) s (fun t => t.mem = u.mem ∧ t.c.v = s.c.v ∧ t.c.x = s.c.x ∧ t.c.fpstat = s.c.fpstat ||| f ∧
        ∃ q, t.c.portOf d = some q ∧ q.k = p.k + 1 ∧ q.remain = p.remain - 1) := by
  obtain ⟨hd24, hbound, -⟩ := portOf_some_iff hd
  let q : Port := { p with k := p.k + 1, remain := p.remain - 1, buffered := p.buffered ++ [(p.k, s.c.vr a)] }
  let v := u.setC (u.c.setPort d q)
  let z := (v.setFlags f).enq .streamAppendPerformed { node := v.fnode, core := v.fcore, slot := v.cc.slot, n := d.toNat }
  have he : exec (.vmov false d a 0) s = finish (.vmov false d a 0) s (.ok (z.vqPush d.toNat [a.toNat])) := by
    rw [exec_vmov hp, readV_plain ha, ok_bind]
    dsimp only
    rw [idle_state hd]
    unfold State.writeV
    rw [hd]
    dsimp only
    rw [if_neg (by simp [hw, hr]), if_neg (Nat.not_le.mpr hb), hst]
    exact congrArg (finish _ s) (viaQueue_room hroom _)
  have hura : u.c.ra = false := by
    rw [hc]
    exact hra
  have hzc : (z.vqPush d.toNat [a.toNat]).c = { u.c.setPort d q with fpstat := s.c.fpstat ||| f } := by
    rw [vqPush_c]
    change (v.setFlags f).c = _
    rw [setFlags_c, setC_c, setPort_ra, hura, if_neg Bool.false_ne_true, setPort_fpstat, hc]
  refine completes_finish he ⟨?_, ?_, ?_, ?_, q, ?_, rfl, rfl⟩
  · refine (complete_mem ..).trans ?_
    change (v.setFlags f).mem = _
    unfold State.setFlags
    split <;> rfl
  · rw [retire_v, hzc]
    exact (setPort_v ..).trans (by rw [hc])
  · rw [retire_x, hzc]
    exact (setPort_x ..).trans (by rw [hc])
  · rw [retire_fpstat, hzc]
  · rw [retire_portOf, hzc]
    refine (portOf_congr rfl rfl d).trans ((portOf_setPort_same hd24).trans ?_)
    rw [hura]
    exact if_pos (by rw [show q.bound = true from hbound]; rfl)

omit hra in
theorem vmov_source_faults (ha : s.c.portOf a = some p) (h : p.write = true ∨ p.remain = 0) :
    Traps (.vmov false d a 0) s .streamFault (BitVec.ofNat 64 a.toNat) 0 := by
  refine traps_finish ?_
  rw [exec_vmov hp, readV_faults ha h]
  exact congrArg (finish _ s) (viaQueue_fault hroom a)

omit hra in
theorem vmov_destination_faults (ha : s.c.portOf a = none) (hd : s.c.portOf d = some p) (h : p.write = false ∨ p.remain = 0) :
    Traps (.vmov false d a 0) s .streamFault (BitVec.ofNat 64 d.toNat) 0 := by
  refine traps_finish ?_
  rw [exec_vmov hp, readV_plain ha, ok_bind]
  dsimp only
  rw [idle_state hd]
  unfold State.writeV
  rw [hd]
  dsimp only
  rw [if_pos (by simpa using h)]
  exact congrArg (finish _ s) (viaQueue_fault hroom d)

omit hra hroom hp in
/-- Reading a register and then one that is a write port faults at the port. -/
theorem readVs_faults (ha : s.c.portOf a = none) (hd : s.c.portOf d = some p) (hw : p.write = true) :
    s.readVs [a, a, d] [] = streamFault d ∧ s.readVs [a, d] [] = streamFault d := by
  have hne : (a == d) = false := beq_eq_false_iff_ne.mpr fun h => by rw [h, hd] at ha; cases ha
  simp only [State.readVs, readV_plain ha, readV_faults hd (.inl hw), List.any_nil, List.any_cons, List.nil_append, ok_bind, hne, BEq.rfl,
    Bool.or_false, Bool.false_eq_true, if_false, if_true]
  exact ⟨rfl, rfl⟩

omit hra in
theorem keeping_faults (ha : s.c.portOf a = none) (hd : s.c.portOf d = some p) (hw : p.write = true) :
    Traps (.vfma false d a a 0) s .streamFault (BitVec.ofNat 64 d.toNat) 0 ∧
    (∀ i : Reg, Traps (.vins false d a i 0) s .streamFault (BitVec.ofNat 64 d.toNat) 0) ∧
    (∀ (q : Reg) (cd cs : BitVec 4) (y w : ETy) (n : Nat), vcvtTypes cd.toNat cs.toNat q.toNat false = some (y, w, n) → y.width < w.width →
      Traps (.vcvt false d a q cd cs) s .streamFault (BitVec.ofNat 64 d.toNat) 0) := by
  obtain ⟨h3, h2⟩ := readVs_faults ha hd hw
  refine ⟨?_, fun i => ?_, fun q cd cs y w n hty hlt => ?_⟩
  · refine traps_finish ?_
    change execVfma false d a a 0 s = _
    unfold execVfma vfma typed
    rw [governed_plain, vty_default hp]
    refine congrArg (finish _ s) (Eq.trans (congrArg (viaQueue s) ?_) (viaQueue_fault hroom d))
    dsimp only
    rw [h3]
    rfl
  · refine traps_finish ?_
    change execVins false d a i 0 s = _
    unfold execVins typed
    rw [governed_plain, vty_default hp]
    refine congrArg (finish _ s) (Eq.trans (congrArg (viaQueue s) ?_) (viaQueue_fault hroom d))
    dsimp only
    rw [readV_faults hd (.inl hw)]
    rfl
  · refine traps_finish ?_
    change execVcvt false d a q cd cs s = _
    unfold execVcvt
    dsimp only
    rw [governed_plain, pfxScale_default hp]
    rw [show (none : Option Nat).isSome = false from rfl, hty]
    dsimp only
    rw [if_neg Bool.false_ne_true]
    refine congrArg (finish _ s) (Eq.trans (congrArg (viaQueue s) ?_) (viaQueue_fault hroom d))
    rw [decide_eq_true hlt, if_pos rfl, h2]
    rfl

end

/-- Settles O30: the three port instructions, the pops, the append, and the operands that fault. -/
theorem streamPortsAndTheirOperands : Obligations.StreamPortsAndTheirOperands := by
  unfold Obligations.StreamPortsAndTheirOperands
  refine ⟨fun s u d a r base stride w2 w3 hra hr => ⟨fun hread hc _ hfree h2 h0 h3 _ _ hb hs => sbind_binds hra hr hread hc hfree h2 h0 h3 hb hs,
    fun p hp => ⟨sunbind_unbinds hra hr hp, fun hw hb => ?_, sstat_reads hra hp⟩, unbound_faults hra⟩,
    fun s u d a p x f hpfx hra hroom => ⟨fun ha hd hw hr hf hl hc hcur => ⟨vmov_pops hpfx hra hroom ha hd hw hr hf hl hc, ?_⟩,
      fun ha hd hw hr hb hst hc _ => vmov_appends hpfx hra hroom ha hd hw hr hb hst hc, vmov_source_faults hpfx hroom,
      vmov_destination_faults hpfx hroom, keeping_faults hpfx hroom⟩⟩
  · refine Barriers.waits_of_finish _ s s _ ?_ rfl rfl rfl
    rw [sunbind_bound hra hp, if_pos ⟨hw, hb⟩]
  · intro v b o ty w g hstore hwc _
    exact stv_pops hra hroom ha hw hr hf hl hc hstore hwc

end Sys2Proof.Streams
end

section
/-! XMIG: what each of its attempts leaves. -/

namespace Sys2Proof.Migration
set_option Elab.async false
open Sys2Proof Sys2Proof.Machine Sys2Proof.Safety Sys2Proof.Ends Sys2Proof.Access

/-! ## The leaf after the switch -/

/-- The fields of a sum of an entry's parts, each within its place. -/
theorem switched_toNat (e : Word) (k : Nat) (hk : k < 2 ^ 42) :
    (switched e (65536 * k)).toNat = (pteGen e + 1) % 64 * 2 ^ 58 + k * 65536 + fieldW e 8 8 * 256 + fieldW e 0 7 := by
  have h8 : fieldW e 8 8 < 256 := Nat.mod_lt _ (by decide)
  have h7 : fieldW e 0 7 < 128 := Nat.mod_lt _ (by decide)
  have hg : (pteGen e + 1) % 64 < 64 := Nat.mod_lt _ (by decide)
  unfold switched
  rw [BitVec.toNat_ofNat, Nat.mul_div_cancel_left k (by decide), Nat.mod_eq_of_lt hk, Nat.mod_eq_of_lt (by omega)]

theorem getLsbD_eq_decide (e : Word) (i : Nat) : e.getLsbD i = decide (e.toNat / 2 ^ i % 2 = 1) := by
  rw [BitVec.getLsbD, Nat.testBit_eq_decide_div_mod_eq]

theorem switched_fields (e : Word) (k : Nat) (hk : k < 2 ^ 42) :
    pteFrame (switched e (65536 * k)) = 65536 * k ∧ pteM (switched e (65536 * k)) = false ∧
    pteGen (switched e (65536 * k)) = (pteGen e + 1) % 64 ∧ pteV (switched e (65536 * k)) = pteV e ∧ pteD (switched e (65536 * k)) = pteD e ∧
    pteClass (switched e (65536 * k)) = pteClass e := by
  have hg : (pteGen e + 1) % 64 < 64 := Nat.mod_lt _ (by decide)
  have hn := switched_toNat e k hk
  generalize (pteGen e + 1) % 64 = g at hn hg
  unfold pteFrame pteM pteGen pteV pteD pteClass
  rw [getLsbD_eq_decide, getLsbD_eq_decide, getLsbD_eq_decide, getLsbD_eq_decide, getLsbD_eq_decide]
  unfold fieldW fieldN at hn ⊢
  rw [hn]
  generalize e.toNat = n
  refine ⟨by omega, decide_eq_false (by omega), by omega, decide_eq_decide.mpr (by omega), decide_eq_decide.mpr (by omega), by omega⟩

/-! ## Writing an entry, and copying a page -/

theorem hbmWrite_kept_mem (s : State) (own : Nat) {a : Nat} (e : Word) (ha : paClass a = 0) :
    Kept s (s.writeEntry own a e) ∧ (s.writeEntry own a e).mem = memWrite s.mem a 8 e.toNat := by
  unfold State.writeEntry
  dsimp only
  rw [if_neg (by omega)]
  have hq := quiet_recall s (lineOf a) none
  exact ⟨hq.kept.trans (kept_hbmWrite ..), by rw [hbmWrite_mem, hq.1.mem]⟩

/-- An entry written at its home: its eight bytes, and no others. -/
theorem writeEntry_bytes (s : State) (own : Nat) {a : Nat} (e : Word) (ha : paClass a = 0) (hwf : Memory.wf s.mem = true) :
    memRead (s.writeEntry own a e).mem a 8 = e.toNat ∧ ∀ i, i < a ∨ a + 8 ≤ i → memGet (s.writeEntry own a e).mem i = memGet s.mem i := by
  rw [(hbmWrite_kept_mem s own e ha).2]
  refine ⟨?_, fun i hi => memGet_memWrite_other _ _ _ _ _ hwf hi⟩
  rw [memRead_memWrite_same _ _ _ _ hwf]
  exact Nat.mod_eq_of_lt e.isLt

theorem quiet_purge (s : State) (p : Nat → Bool) : Quiet s (s.purge p) := by
  refine ⟨rfl, fun n k => ?_⟩
  have h : (s.purge p).core n k = (s.core n k).forget s.clock (fun l => p l.pline) := tget_tmap _ _ _ _ rfl
  rw [h]
  exact coreKept_forget ..

theorem copyBytes_other (m : List Host.Cell) (x y n i : Nat) (h : Memory.wf m = true) (hi : i < y ∨ y + n ≤ i) :
    memGet (copyBytes m x y n) i = memGet m i := by
  induction n generalizing m x y with
  | zero => rfl
  | succ n ih =>
    unfold copyBytes
    rw [ih _ _ _ (wf_memSet m y _ h) (by omega), memGet_memSet_other m 0 y i _ h (by omega)]

theorem copyBytes_same (m : List Host.Cell) (x y n i : Nat) (h : Memory.wf m = true) (hd : y + n ≤ x ∨ x + n ≤ y) (hi : i < n) :
    memGet (copyBytes m x y n) (y + i) = memGet m (x + i) := by
  induction n generalizing m x y i with
  | zero => omega
  | succ n ih =>
    unfold copyBytes
    have hwf := wf_memSet m y (memGet m x) h
    cases i with
    | zero => exact (copyBytes_other _ _ _ _ _ hwf (by omega)).trans (memGet_memSet_same m 0 y _ h)
    | succ j =>
      have := ih (memSet m y (memGet m x)) (x + 1) (y + 1) j hwf (by omega) (by omega)
      rw [show y + (j + 1) = y + 1 + j by omega, this, show x + 1 + j = x + (j + 1) by omega, memGet_memSet_other m 0 y _ _ h (by omega)]

theorem aliasOf_hbm (s : State) (own size line : Nat) {frame : Nat} (h : paClass frame = 0) : s.aliasOf own frame size line = false := by
  unfold State.aliasOf
  rw [h]
  rfl

theorem placeOf_hbm (s : State) (own : Nat) {frame : Nat} (h : paClass frame = 0) : s.placeOf own frame = frame := by
  unfold State.placeOf
  rw [if_neg (by omega)]

/-- Copying a page between HBM frames, with no pool line dirty. -/
theorem copyPage_hbm {s : State} {own : Nat} {m : Mig} (ho : paClass m.old = 0) (hn : paClass m.new = 0) (hd : (s.pkg own).poolDirty = [])
    (hs : (s.pkg own).poolSent = []) : Kept s (s.copyPage own m) ∧ (s.copyPage own m).mem = copyBytes s.mem m.old m.new m.size := by
  unfold State.copyPage
  extract_lets inOld inNew p dirty s1 theirs s2 gone s3 s4 lost s5
  have hdirty : s1 = s := by
    unfold s1 dirty p
    rw [hd, hs]
    rfl
  have htheirs : theirs = [] := by
    unfold theirs
    refine List.filter_eq_nil_iff.mpr fun l _ => ?_
    rw [aliasOf_hbm _ _ _ _ ho, aliasOf_hbm _ _ _ _ hn]
    decide
  have h2 : s2 = s := by
    unfold s2
    rw [htheirs, hdirty]
    rfl
  have h3 : Quiet s2 s3 := quiet_purge ..
  have h4 : Quiet s3 s4 := quiet_foldl _ (fun _ _ => quiet_dropWalks ..) _ _
  rw [h2] at h3
  have h4 := h3.trans h4
  clear_value s4
  refine ⟨h4.kept.trans (kept_of_same rfl), ?_⟩
  change copyBytes s4.mem _ _ _ = _
  rw [placeOf_hbm _ _ ho, placeOf_hbm _ _ hn, h4.1.mem]

/-! ## The attempts -/

/-- An attempt that ends in a wait stalls its slot. -/
theorem stalls {i : Instr} {s u : State} {w : Wait} (he : exec i s = finish i s (.error (.wait w u))) (hcur : u.cur = s.cur) :
    ∃ t, exec i s = .next t ∧ (t.ctx s.cur).st = .stalled ∧ t.mem = u.mem ∧ t.migs = u.migs := by
  obtain ⟨hst, -, -⟩ := Barriers.stall_ctx (u.holdWords i) w
  rw [Barriers.holdWords_cur, hcur] at hst
  refine ⟨_, he, hst, (Barriers.holdWords_mem u i), ?_⟩
  change (u.holdWords i).migs = u.migs
  unfold State.holdWords
  split <;> rfl

section
variable {s : State} {d a b : Reg} (hra : s.c.ra = false) (hsys : s.sys = true)
include hra hsys

theorem exec_xmig_first (hm : s.migs = []) : exec (.xmig d a b) s = finish (.xmig d a b) s (s.migStart d a b) := by
  change execXmig d a b s = _
  unfold execXmig xSystem
  rw [if_neg (by rw [hra]; exact Bool.false_ne_true), TrapGroup.sysOnly_of_sys _ _ _ hsys, hm]
  rfl

theorem exec_xmig_later {m : Mig} (hm : s.migs = [m]) (hid : m.id = s.cur) (has : m.asid = s.c.asid) (hva : m.va = s.X a)
    (hnew : m.new = fieldW (s.X b) 16 42 * 65536) : exec (.xmig d a b) s = finish (.xmig d a b) s (s.migNext d m) := by
  change execXmig d a b s = _
  unfold execXmig xSystem
  rw [if_neg (by rw [hra]; exact Bool.false_ne_true), TrapGroup.sysOnly_of_sys _ _ _ hsys, hm, List.find?_cons_of_pos (by simp [hid, has, hva, hnew])]

/-- The first attempt on a page that another has marked gives 4; on one that nobody has, it marks the entry and waits. -/
theorem xmig_first (hwf : Memory.wf s.mem = true) (hm : s.migs = []) (hap : isAperture (s.X a).toNat = false)
    (hcan : isCanonical (s.X a).toNat = true) (hleaf : (s.walk s.req (s.X a).toNat).why = .leaf) (hlevel : 3 ≤ (s.walk s.req (s.X a).toNat).level)
    (hgood : s.badFrame s.fnode (s.X b) (pteFrame (s.walk s.req (s.X a).toNat).entry) (pageSize (s.walk s.req (s.X a).toNat).level) = false) :
    let w := s.walk s.req (s.X a).toNat
    (pteM w.entry = true → Completes (.xmig d a b) s (ResultX d 4 s)) ∧
     (pteM w.entry = false → paClass w.eaddr = 0 → s.nmHolds w.eaddr = false → ∃ t, exec (.xmig d a b) s = .next t ∧ (t.ctx s.cur).st = .stalled ∧
       memRead t.mem w.eaddr 8 = (w.entry ||| 0x80).toNat ∧ (∀ i, i < w.eaddr ∨ w.eaddr + 8 ≤ i → memGet t.mem i = memGet s.mem i) ∧
       t.migs.length = 1) := by
  intro w
  have hstart : s.migStart d a b = if pteM w.entry then .ok (s.setX d (BitVec.ofNat 64 4))
      else if s.nmHolds w.eaddr || s.frozen w.eaddr then .error (.wait .resource s)
      else .error (.wait .resource { s.writeEntry s.fnode w.eaddr (w.entry ||| 0x80) with
        migs := ⟨s.cur, s.c.asid, s.X a, w.eaddr, w.entry ||| 0x80, pteFrame w.entry, fieldW (s.X b) 16 42 * 65536, pageSize w.level, false, false,
          fieldW (s.X b) 0 3⟩ :: (s.writeEntry s.fnode w.eaddr (w.entry ||| 0x80)).migs.filter (fun x =>
            x.id != (s.writeEntry s.fnode w.eaddr (w.entry ||| 0x80)).cur) }) := by
    unfold State.migStart
    dsimp only
    rw [if_neg (by simp [hap, hcan]), hleaf]
    dsimp only
    rw [if_neg (by omega), if_neg (by rw [hgood]; exact Bool.false_ne_true)]
  refine ⟨fun hM => ?_, fun hM hc hh => ?_⟩
  · refine completes_setX ((exec_xmig_first hra hsys hm).trans ?_)
    rw [hstart, if_pos hM]
    rfl
  · have hfrozen : s.frozen w.eaddr = false := by
      unfold State.frozen
      rw [hm]
      rfl
    obtain ⟨hk, hmem⟩ := hbmWrite_kept_mem s s.fnode (w.entry ||| 0x80) hc
    obtain ⟨hsame, hother⟩ := writeEntry_bytes s s.fnode (w.entry ||| 0x80) hc hwf
    have hmigs : (s.writeEntry s.fnode w.eaddr (w.entry ||| 0x80)).migs = [] := by
      rw [hk.rest]
      exact hm
    have he := exec_xmig_first (d := d) (a := a) (b := b) hra hsys hm
    rw [hstart, if_neg (by rw [hM]; exact Bool.false_ne_true), hh, hfrozen, Bool.or_self, if_neg Bool.false_ne_true, hmigs] at he
    obtain ⟨t, ht, hst, htm, htg⟩ := stalls he hk.cur
    exact ⟨t, ht, hst, htm ▸ hsame, fun i hi => htm ▸ hother i hi, htg ▸ rfl⟩

section
variable {m : Mig} (hwf : Memory.wf s.mem = true) (hid : m.id = s.cur) (has : m.asid = s.c.asid) (hva : m.va = s.X a)
  (hnew : m.new = fieldW (s.X b) 16 42 * 65536) (hm : s.migs = [m])
include hwf hid has hva hnew hm

/-- Once no lock is held and no near-memory operation is open in the old frame, the page is copied. -/
theorem xmig_copies (hc : m.copied = false) (hs : m.switched = false) (hlocks : s.locks = []) (hops : s.nmOps = []) (ho : paClass m.old = 0)
    (hn : paClass m.new = 0) (hd : (s.pkg s.fnode).poolDirty = []) (hsent : (s.pkg s.fnode).poolSent = [])
    (hdis : m.new + m.size ≤ m.old ∨ m.old + m.size ≤ m.new) :
    ∃ t, exec (.xmig d a b) s = .next t ∧ (t.ctx s.cur).st = .stalled ∧ t.migs = [{ m with copied := true }] ∧
      (∀ i, i < m.size → memGet t.mem (m.new + i) = memGet s.mem (m.old + i)) ∧ (∀ i, i < m.new ∨ m.new + m.size ≤ i → memGet t.mem i = memGet s.mem i) := by
  obtain ⟨hk, hmem⟩ := copyPage_hbm ho hn hd hsent
  generalize hu : s.copyPage s.fnode m = u at hk hmem
  have hmigs : u.migs = [m] := by
    rw [hk.rest]
    exact hm
  have hholds : s.nmHolds m.eaddr = false := by
    unfold State.nmHolds
    rw [hops]
    rfl
  have hfrozen : s.frozen m.eaddr = false := by
    unfold State.frozen
    rw [hm, List.any_cons, List.any_nil, hc]
    rfl
  have hlost : ∀ f, paClass f = 0 → s.frameLost s.fnode f = false := fun f hf => by
    unfold State.frameLost
    rw [hf]
    rfl
  have hnext : s.migNext d m = .error (.wait .resource { u with migs := [{ m with copied := true }] }) := by
    unfold State.migNext
    dsimp only
    rw [if_neg (by rw [hs]; decide), if_pos (by rw [hc]; decide), hlocks, hops, hholds, hfrozen, hlost _ ho, hlost _ hn, List.any_nil, List.any_nil,
      if_neg Bool.false_ne_true, if_neg (by decide), if_neg (by decide), hu, hmigs, List.map_cons, List.map_nil, if_pos rfl]
  have he := exec_xmig_later (d := d) (b := b) hra hsys hm hid has hva hnew
  rw [hnext] at he
  obtain ⟨t, ht, hst, htm, htg⟩ := stalls he hk.cur
  have htc : t.mem = copyBytes s.mem m.old m.new m.size := htm.trans hmem
  refine ⟨t, ht, hst, htg, fun i hi => ?_, fun i hi => ?_⟩
  · rw [htc, copyBytes_same _ _ _ _ _ hwf hdis hi]
  · rw [htc, copyBytes_other _ _ _ _ _ hwf hi]

omit hra hsys hwf hid has hva hnew hm in
/-- Returning the operations on the old frame, and giving back the lock requests there, leave memory, the records and the issuing slot. -/
theorem returned_migs (u : State) (m : Mig) : ((u.returnOps m).migLocks m).mem = u.mem ∧ ((u.returnOps m).migLocks m).migs = u.migs ∧
    ((u.returnOps m).migLocks m).cur = u.cur := by
  have hfold : ∀ (l : List NmOp) (v : State),
      let w := l.foldl (fun s o => s.enq .nearMemoryReturn { pa := o.pa, node := o.id.node, core := o.id.core, slot := o.id.slot }) v
      w.mem = v.mem ∧ w.migs = v.migs ∧ w.cur = v.cur := fun l => by
    induction l with
    | nil => exact fun v => ⟨rfl, rfl, rfl⟩
    | cons o l ih => exact fun v => ih _
  unfold State.returnOps
  exact hfold ..

/-- When the old frame has been copied, the entry names the new one. -/
theorem xmig_switches (hc : m.copied = true) (hs : m.switched = false) (hcl : paClass m.eaddr = 0) (hread : s.readEntry s.fnode m.eaddr = m.entry)
    (hfail : s.nodeFail s.fnode m.eaddr = none) (hholds : s.nmHolds m.eaddr = false) (hfrozen : s.frozen m.eaddr = false) :
    ∃ t, exec (.xmig d a b) s = .next t ∧ (t.ctx s.cur).st = .stalled ∧ t.migs = [{ m with switched := true }] ∧
      memRead t.mem m.eaddr 8 = (switched m.entry m.new).toNat ∧ ∀ i, i < m.eaddr ∨ m.eaddr + 8 ≤ i → memGet t.mem i = memGet s.mem i := by
  obtain ⟨hk, -⟩ := hbmWrite_kept_mem s s.fnode (switched m.entry m.new) hcl
  obtain ⟨hsame, hother⟩ := writeEntry_bytes s s.fnode (switched m.entry m.new) hcl hwf
  generalize hu : s.writeEntry s.fnode m.eaddr (switched m.entry m.new) = u at hk hsame hother
  have hmigs : u.migs = [m] := by
    rw [hk.rest]
    exact hm
  let v : State := { u with migs := [{ m with switched := true }] }
  let w := (v.returnOps m).migLocks m
  have hnext : s.migNext d m = .error (.wait .resource { w with pins := w.pins.filter (fun p =>
      !decide (m.old ≤ pteFrame p.leaf.entry ∧ pteFrame p.leaf.entry < m.old + m.size)) }) := by
    unfold State.migNext
    dsimp only
    rw [if_neg (by rw [hs]; decide), if_neg (by rw [hc]; decide), hholds, hfrozen, if_neg (by decide), hread, hfail, if_neg (by simp), hu, hmigs,
      List.map_cons, List.map_nil, if_pos rfl]
  obtain ⟨hwm, hwg, hwc⟩ := returned_migs v m
  have he := exec_xmig_later (d := d) (b := b) hra hsys hm hid has hva hnew
  rw [hnext] at he
  obtain ⟨t, ht, hst, htm, htg⟩ := stalls he (hwc.trans hk.cur)
  have htu : t.mem = u.mem := htm.trans hwm
  refine ⟨t, ht, hst, htg.trans hwg, ?_, fun i hi => ?_⟩
  · rw [htu, hsame]
  · rw [htu, hother i hi]

omit hra hsys hwf hid has hva hnew hm in
/-- Giving back lock requests leaves every X register. -/
theorem migLocks_x (u : State) (m : Mig) (id : CtxId) : ((u.migLocks m).ctx id).x = (u.ctx id).x := by
  unfold State.migLocks State.ctx tget
  dsimp only
  rw [tfind_tmap]
  cases tfind u.ctxs id with
  | none => rfl
  | some c =>
    simp only [Option.map_some, Option.getD_some]
    split
    · split <;> rfl
    · rfl

omit hra hsys hwf hid has hva hnew hm in
theorem migLocks_X (u : State) (m : Mig) (r : Reg) : (u.migLocks m).X r = u.X r := by
  unfold State.X Ctx.xr
  rw [show (u.migLocks m).c.x = u.c.x from migLocks_x u m u.cur]

omit hwf in
/-- After the switch, the invalidation of the page ends XMIG with 0. -/
theorem xmig_ends {u v : State} (hs : m.switched = true) (hf : s.fenceFull m.scope = .ok v) (hx : v.xinvPage m.scope m.va.toNat = .ok u)
    (hux : u.c.x = s.c.x) :
    Completes (.xmig d a b) s (fun t => XIs s t d 0 ∧ t.mem = u.mem ∧ ∀ x ∈ t.migs, x.id ≠ s.cur) := by
  let w := (u.migEnd m).migLocks m
  have hnext : s.migNext d m = .ok (w.setX d 0) := by
    unfold State.migNext
    dsimp only
    rw [if_pos hs, hf]
    change (v.xinvPage m.scope m.va.toNat >>= _) = _
    rw [hx]
    rfl
  have he := exec_xmig_later (d := d) (b := b) hra hsys hm hid has hva hnew
  rw [hnext] at he
  refine completes_finish he ⟨?_, complete_mem .., ?_⟩
  · intro r
    rw [xIs_retire_setX w (.xmig d a b) d 0 r, migLocks_X]
    have : (u.migEnd m).X r = s.X r := by
      change u.X r = s.X r
      unfold State.X Ctx.xr
      rw [hux]
    rw [this]
  · intro x hx'
    rw [retire_migs] at hx'
    have hmem : x ∈ u.migs.filter (fun y => y.id != m.id) := hx'
    rw [← hid]
    simpa using (List.mem_filter.mp hmem).2

end

end

/-- Settles O48: the first attempt, the copy, the switch and the end, and the fields of the switched leaf. -/
theorem migrationCopiesSwitchesAndEnds : Obligations.MigrationCopiesSwitchesAndEnds := by
  unfold Obligations.MigrationCopiesSwitchesAndEnds
  intro s u d a b m hra hsys hwf hid has hva hnew
  refine ⟨fun hm hap hcan hleaf hlevel hgood => xmig_first hra hsys hwf hm hap hcan hleaf hlevel hgood, fun hm => ⟨?_, ?_, ?_⟩,
    fun e k hk => switched_fields e k hk⟩
  · exact fun hc hs hl ho hco hcn hd hsent hdis => xmig_copies hra hsys hwf hid has hva hnew hm hc hs hl ho hco hcn hd hsent hdis
  · exact fun hc hs hcl hr hf hh hz => xmig_switches hra hsys hwf hid has hva hnew hm hc hs hcl hr hf hh hz
  · exact fun v hs hf hx _ hux => xmig_ends hra hsys hid has hva hnew hm hs hf hx hux

end Sys2Proof.Migration
end

section
/-! Scalar and vector loads and stores: what each makes of the access's result. -/

namespace Sys2Proof.LoadsStores
set_option Elab.async false
open Sys2Proof Sys2Proof.Machine Sys2Proof.Safety Sys2Proof.Ends Sys2Proof.Units Sys2Proof.Lanes Sys2Proof.VecArith Sys2Proof.Streams

/-- An offset in units of `n` bytes. -/
theorem off9_eq (o : BitVec 9) (n : Nat) : off9 o n = BitVec.ofInt 64 (o.toInt * n) := by
  unfold off9
  rw [BitVec.ofInt_mul, BitVec.ofInt_natCast]
  rfl

theorem off9_one (o : BitVec 9) : off9 o 1 = BitVec.ofInt 64 o.toInt := by
  rw [off9_eq, Int.natCast_one, Int.mul_one]

/-- A signed reading of `n` bits. -/
theorem sextN_bmod (v : Nat) {n : Nat} (hn : 0 < n) : sextN v n = BitVec.ofInt 64 (Int.bmod v (2 ^ n)) := by
  obtain ⟨k, rfl⟩ := Nat.exists_eq_add_of_lt hn
  rw [Nat.zero_add, ← Scalar.sextN_eq_bmod]
  have hbit : fieldN (v % 2 ^ (k + 1)) k 1 = fieldN v k 1 := by
    unfold fieldN
    rw [Nat.pow_succ, Nat.mod_mul_right_div_self, Nat.pow_one, Nat.mod_mod]
  unfold sextN
  rw [Nat.add_sub_cancel, hbit, Nat.mod_mod]

theorem loadWidth_pos (form : Nat) : 0 < 8 * loadWidth form := by
  unfold loadWidth
  split <;> decide

/-- The value that a load form delivers. -/
theorem loadValue_eq (form v : Nat) : loadValue form v =
    if loadSigned form then BitVec.ofInt 64 (Int.bmod v (2 ^ (8 * loadWidth form))) else BitVec.ofNat 64 v := by
  unfold loadValue
  rw [sextN_bmod v (loadWidth_pos form)]

section
variable {s : State} {i : Instr} (hra : s.c.ra = false)
include hra

/-- A load that is no run-ahead helper's writes its value, or takes its access's trap. -/
theorem load_completes {form : Nat} {d : Reg} {va : Word} {typ : Nat} (he : exec i s = loadInstr i form d va typ s) :
    (∀ u v, s.scalarLoad s.req va.toNat (loadWidth form) typ = .ok (u, v) → Completes i s (Leaves
      (u.setX d (if loadSigned form then BitVec.ofInt 64 (Int.bmod v (2 ^ (8 * loadWidth form))) else BitVec.ofNat 64 v)))) ∧
    (∀ x, s.scalarLoad s.req va.toNat (loadWidth form) typ = .error (.trap x) → exec i s = .next (s.trapNow x (isLong i) s.pfx.isSome)) := by
  unfold loadInstr at he
  dsimp only at he
  rw [if_neg (by rw [hra]; exact Bool.false_ne_true)] at he
  refine ⟨fun u v h => ?_, fun x h => ?_⟩
  · rw [h] at he
    rw [← loadValue_eq]
    exact completes_finish he (leaves_retire ..)
  · rw [h] at he
    exact he

/-- A store that is no run-ahead helper's leaves the access's effect, or takes its trap. -/
theorem store_completes {form : Nat} {v : Reg} {va : Word} {typ : Nat} (he : exec i s = storeInstr i form v va typ s) :
    (∀ u, s.scalarStore s.req va.toNat (storeWidth form) ((s.X v).toNat % 2 ^ (8 * storeWidth form)) typ = .ok u → Completes i s (Leaves u)) ∧
    (∀ x, s.scalarStore s.req va.toNat (storeWidth form) ((s.X v).toNat % 2 ^ (8 * storeWidth form)) typ = .error (.trap x) →
      exec i s = .next (s.trapNow x (isLong i) s.pfx.isSome)) := by
  unfold storeInstr at he
  rw [if_neg (by rw [hra]; exact Bool.false_ne_true)] at he
  refine ⟨fun u h => ?_, fun x h => ?_⟩
  · rw [h] at he
    exact completes_finish he (leaves_retire ..)
  · rw [h] at he
    exact he

end

theorem loadSigned_eq (f : Nat) : loadSigned f = decide (f = 0 ∨ f = 2 ∨ f = 4) := by
  unfold loadSigned
  split
  · decide
  · decide
  · decide
  next h0 h2 h4 =>
    refine (decide_eq_false ?_).symm
    rintro (h | h | h)
    · exact h0 h
    · exact h2 h
    · exact h4 h

/-- Settles O25: one rule for the loads, and one for the stores. -/
theorem scalarLoadsAndStoresComplete : Obligations.ScalarLoadsAndStoresComplete := by
  unfold Obligations.ScalarLoadsAndStoresComplete
  intro s d a o t f m hra
  have h1 := off9_one o
  have h2 : off9 o 2 = BitVec.ofInt 64 (o.toInt * 2) := off9_eq o 2
  have h4 : off9 o 4 = BitVec.ofInt 64 (o.toInt * 4) := off9_eq o 4
  have h8 : off9 o 8 = BitVec.ofInt 64 (o.toInt * 8) := off9_eq o 8
  rw [← h1, ← h2, ← h4, ← h8, ← loadSigned_eq]
  constructor <;> intro e he <;> simp only [List.mem_cons, List.not_mem_nil, or_false] at he
  · rcases he with rfl | rfl | rfl | rfl | rfl | rfl | rfl | rfl
    · exact load_completes (form := 0) hra (show _ = execLb d a o t s from rfl)
    · exact load_completes (form := 1) hra (show _ = execLbu d a o t s from rfl)
    · exact load_completes (form := 2) hra (show _ = execLh d a o t s from rfl)
    · exact load_completes (form := 3) hra (show _ = execLhu d a o t s from rfl)
    · exact load_completes (form := 4) hra (show _ = execLw d a o t s from rfl)
    · exact load_completes (form := 5) hra (show _ = execLwu d a o t s from rfl)
    · exact load_completes (form := 6) hra (show _ = execLd d a o t s from rfl)
    · exact load_completes (form := f.toNat) hra (show _ = execLdl d a f t m s from rfl)
  · rcases he with rfl | rfl | rfl | rfl | rfl
    · exact store_completes (form := 0) hra (show _ = execSb d a o t s from rfl)
    · exact store_completes (form := 1) hra (show _ = execSh d a o t s from rfl)
    · exact store_completes (form := 2) hra (show _ = execSw d a o t s from rfl)
    · exact store_completes (form := 3) hra (show _ = execSd d a o t s from rfl)
    · exact store_completes (form := f.toNat) hra (show _ = execStl d a f t m s from rfl)

/-! ## Vector loads and stores -/

section
variable {s u : State} {i : Instr} {d : Reg} {va : Word} {typ : Nat} {f : BitVec 5} (hra : s.c.ra = false) (hp : s.c.portOf d = none)
  (hroom : (s.cc.vq.filter (fun e => !e.bound)).length < 32)
include hra hp hroom

theorem vecLoad_completes {bcast : Bool} {v : Vec} (he : exec i s = vecLoadInstr i d va typ bcast s)
    (hl : s.vecLoad s.req va.toNat typ bcast = .ok (u, v, f)) (hret : u.pol.returns.length < 64) (hc : u.c = { s.c with surveyed := u.c.surveyed }) :
    Completes i s (fun t => t.mem = u.mem ∧ t.c.x = s.c.x ∧ t.c.vr d = v ∧ (∀ r, r ≠ d → t.c.vr r = s.c.vr r) ∧
        t.c.fpstat = s.c.fpstat ||| f ∧ t.c.ports = s.c.ports) := by
  have hura : u.c.ra = false := by
    rw [hc]
    exact hra
  have hport : (u.setFlags f).c.portOf d = none := by
    rw [setFlags_c, ← hp]
    refine portOf_congr ?_ ?_ d <;> rw [hc]
  let w := (u.setFlags f).setC ((u.setFlags f).c.setV d v)
  let z := (w.setPol { w.pol with returns := w.pol.returns ++ [(w.fcore, w.cc.slot)] }).enq .memoryReturnWrite { node := w.fnode, n := w.pIdx }
  have hrun : exec i s = finish i s (.ok (z.vqPush d.toNat [])) := by
    rw [he]
    unfold vecLoadInstr
    rw [if_neg (by rw [hra]; exact Bool.false_ne_true), hl, ok_bind]
    dsimp only
    rw [if_neg (Nat.not_le.mpr hret)]
    unfold State.writeV
    rw [hport]
    exact congrArg (finish i s) (viaQueue_room hroom _)
  have hzc : (z.vqPush d.toNat []).c = (u.setFlags f).c.setV d v := by
    rw [vqPush_c]
    exact setC_c ..
  refine completes_finish hrun ⟨?_, ?_, ?_, fun r hr => ?_, ?_, ?_⟩
  · refine (complete_mem ..).trans ?_
    change (u.setFlags f).mem = _
    unfold State.setFlags
    split <;> rfl
  · rw [retire_x, hzc, setFlags_c]
    change u.c.x = _
    rw [hc]
  · rw [retire_vr, hzc]
    simp [Ctx.vr, Ctx.setV]
  · rw [retire_vr, hzc, setFlags_c, hc]
    have hne : d.toNat ≠ r.toNat := fun h => hr (BitVec.eq_of_toNat_eq h.symm)
    simp [Ctx.vr, Ctx.setV, hne]
  · rw [retire_fpstat, hzc, setFlags_c]
    change (if u.c.ra then u.c.fpstat else u.c.fpstat ||| f) = _
    rw [hura, if_neg Bool.false_ne_true, hc]
  · rw [retire_ports, hzc, setFlags_c]
    change u.c.ports = _
    rw [hc]

theorem vecStore_completes (he : exec i s = vecStoreInstr i d va typ s) (hs : s.vecStore s.req va.toNat typ (s.c.vr d) = .ok (u, f))
    (hura : u.c.ra = false) :
    Completes i s (fun t => t.mem = u.mem ∧ t.c.x = u.c.x ∧ t.c.v = u.c.v ∧ t.c.fpstat = u.c.fpstat ||| f) := by
  have hrun : exec i s = finish i s (.ok ((u.setFlags f).vqPush 64 [d.toNat])) := by
    rw [he]
    unfold vecStoreInstr
    rw [if_neg (by rw [hra]; exact Bool.false_ne_true), readV_plain hp, ok_bind]
    dsimp only
    rw [hs]
    exact congrArg (finish i s) (viaQueue_room hroom _)
  refine completes_finish hrun ⟨?_, ?_, ?_, ?_⟩
  · refine (complete_mem ..).trans ?_
    change (u.setFlags f).mem = _
    unfold State.setFlags
    split <;> rfl
  · rw [retire_x, vqPush_c, setFlags_c]
  · rw [retire_v, vqPush_c, setFlags_c]
  · rw [retire_fpstat, vqPush_c, setFlags_c, hura, if_neg Bool.false_ne_true]

end

/-- Settles O29: the three loads, and the two stores. -/
theorem vectorLoadsAndStoresComplete : Obligations.VectorLoadsAndStoresComplete := by
  unfold Obligations.VectorLoadsAndStoresComplete
  intro s u d a i o t hra hp hroom
  have h32 : off9 o 32 = BitVec.ofInt 64 (o.toInt * 32) := off9_eq o 32
  have h4 : off9 o 4 = BitVec.ofInt 64 (o.toInt * 4) := off9_eq o 4
  rw [← h32, ← h4]
  constructor <;> intro e he <;> simp only [List.mem_cons, List.not_mem_nil, or_false] at he
  · intro v f hl hret hc _
    rcases he with rfl | rfl | rfl
    · exact vecLoad_completes hra hp hroom (show _ = execLdv d a o t s from rfl) hl hret hc
    · exact vecLoad_completes hra hp hroom (show _ = execLdvx d a i t s from rfl) hl hret hc
    · exact vecLoad_completes hra hp hroom (show _ = execLdvb d a o t s from rfl) hl hret hc
  · intro f hs hura _
    rcases he with rfl | rfl
    · exact vecStore_completes hra hp hroom (show _ = execStv d a o t s from rfl) hs hura
    · exact vecStore_completes hra hp hroom (show _ = execStvx d a i t s from rfl) hs hura

end Sys2Proof.LoadsStores
end

section
/-! Lives: START and STARTP begin them, QUIT ends one. -/

namespace Sys2Proof.Lives
set_option Elab.async false
open Sys2Proof Sys2Proof.Machine Sys2Proof.Safety Sys2Proof.Ends Sys2Proof.Access

/-! ## Operations that leave every slot's life -/

/-- Every slot is in the state and the generation that it was in. -/
structure SameLives (s t : State) : Prop where
  life : ∀ id, (t.ctx id).st = (s.ctx id).st ∧ (t.ctx id).gen = (s.ctx id).gen

theorem SameLives.refl (s : State) : SameLives s s := ⟨fun _ => ⟨rfl, rfl⟩⟩

theorem SameLives.trans {s t u : State} (h : SameLives s t) (k : SameLives t u) : SameLives s u :=
  ⟨fun id => ⟨(k.life id).1.trans (h.life id).1, (k.life id).2.trans (h.life id).2⟩⟩

theorem sameLives_foldl {α : Type} (f : State → α → State) (hf : ∀ s a, SameLives s (f s a)) (l : List α) (s : State) : SameLives s (l.foldl f s) := by
  induction l generalizing s with
  | nil => exact .refl s
  | cons a r ih => exact (hf s a).trans (ih _)

theorem sameLives_of_ctxs {s t : State} (h : t.ctxs = s.ctxs) : SameLives s t := by
  refine ⟨fun id => ?_⟩
  unfold State.ctx
  rw [h]
  exact ⟨rfl, rfl⟩

theorem sameLives_of_kept {s t : State} (h : Kept s t) : SameLives s t := by
  refine ⟨fun id => ?_⟩
  rw [h.ctxs id]
  exact ⟨rfl, rfl⟩

theorem sameLives_setCtx (s : State) (id : CtxId) {c : Ctx} (hs : c.st = (s.ctx id).st) (hg : c.gen = (s.ctx id).gen) : SameLives s (s.setCtx id c) := by
  refine ⟨fun i => ?_⟩
  by_cases h : i = id
  · rw [h, setCtx_ctx_same]
    exact ⟨hs, hg⟩
  · rw [setCtx_ctx_other _ _ _ _ h]
    exact ⟨rfl, rfl⟩

/-! ## The ends of leases, bindings, locks and registrations -/

theorem sameLives_barNotify (s : State) (node p la n : Nat) : SameLives s (s.barNotify node p la n) := by
  refine ⟨fun id => ?_⟩
  unfold State.barNotify
  split
  · exact ⟨rfl, rfl⟩
  · unfold State.ctx tget
    dsimp only
    rw [tfind_tmap]
    cases tfind s.ctxs id with
    | none => exact ⟨rfl, rfl⟩
    | some c =>
      simp only [Option.map_some, Option.getD_some]
      split
      · split
        · split
          · exact ⟨rfl, rfl⟩
          · split <;> exact ⟨rfl, rfl⟩
        · exact ⟨rfl, rfl⟩
      · exact ⟨rfl, rfl⟩

theorem sameLives_portSeen (s : State) (node p la n : Nat) : SameLives s (s.portSeen node p la n) := by
  refine (sameLives_barNotify s node p la n).trans (sameLives_of_ctxs ?_)
  rw [State.portSeen, Barriers.counterNotify_eq]

theorem sameLives_barFault (s : State) (node p la : Nat) : SameLives s (s.barFault node p la) := by
  unfold State.barFault
  dsimp only
  refine SameLives.trans ?_ (sameLives_portSeen ..)
  exact sameLives_of_ctxs rfl

theorem sameLives_discardCmds (s : State) (node p : Nat) (l : List Cmd) : SameLives s (s.discardCmds node p l) := by
  refine sameLives_foldl _ (fun s c => ?_) l s
  refine (sameLives_barFault s node p c.bar).trans ?_
  exact sameLives_of_ctxs rfl

theorem sameLives_leaseGone (s : State) (node p : Nat) : SameLives s (s.leaseGone node p) := by
  refine sameLives_of_ctxs ?_
  unfold State.leaseGone State.askLease
  dsimp only
  split
  · split <;> rfl
  · rfl

theorem sameLives_endLease (s : State) (id : CtxId) (unlease : Bool) : SameLives s (s.endLease id unlease) := by
  unfold State.endLease
  extract_lets node p a mine queued s1 q arr b e own s2
  have h2 : SameLives s s2 := (sameLives_discardCmds ..).trans (sameLives_setCtx _ _ rfl rfl)
  split
  · exact h2.trans (sameLives_of_ctxs rfl)
  · split
    · exact h2.trans (sameLives_of_ctxs rfl)
    · refine h2.trans (SameLives.trans ?_ (sameLives_leaseGone ..))
      exact sameLives_of_ctxs rfl

theorem sameLives_phDrop (s : State) (node p i : Nat) (m : PhMember) : SameLives s (s.phDrop node p i m) := by
  refine sameLives_of_ctxs ?_
  unfold State.phDrop
  dsimp only
  split
  · rfl
  · split
    · split <;> rfl
    · rfl

theorem sameLives_phDropAll (s : State) (id : CtxId) : SameLives s (s.phDropAll id) := by
  refine sameLives_foldl _ (fun s j => ?_) _ s
  refine sameLives_foldl _ (fun s e => ?_) _ s
  split
  · exact sameLives_phDrop ..
  · exact .refl s

theorem sameLives_unbind (s : State) (node p m : Nat) : SameLives s (s.unbind node p m) := by
  unfold State.unbind
  split
  · exact .refl s
  next b =>
    have hreqs : ∀ (l : List (Nat × Nat × Nat)) (u : State),
        SameLives u (l.foldl (fun s (r : Nat × Nat × Nat) => s.enq .creditGrant { node := r.1, core := r.2.1 }) u) := fun l u => by
      refine sameLives_foldl _ (fun s r => ?_) l u
      exact sameLives_of_ctxs rfl
    extract_lets h s1 s2
    have h1 : SameLives s s1 := sameLives_of_ctxs rfl
    have h2 : SameLives s1 s2 := hreqs ..
    exact (h1.trans h2).trans (sameLives_of_ctxs rfl)

theorem sameLives_unbindAll (s : State) (id : CtxId) : SameLives s (s.unbindAll id) := sameLives_foldl _ (fun _ _ => sameLives_unbind ..) _ s

theorem sameLives_lockReplyTo (s : State) (id : CtxId) (line status : Nat) : SameLives s (s.lockReplyTo id line status) := sameLives_setCtx _ _ rfl rfl

theorem sameLives_giveLock (s : State) (line : Nat) (id : CtxId) (scope : Nat) (l : Lock) (fresh : Bool) :
    SameLives s (s.giveLock line id scope l fresh) := by
  unfold State.giveLock
  dsimp only
  refine SameLives.trans ?_ (sameLives_setCtx _ _ rfl rfl)
  exact sameLives_of_ctxs rfl

theorem sameLives_handOff (s : State) (line : Nat) : SameLives s (s.handOff line) := by
  unfold State.handOff
  extract_lets l s1
  have h1 : SameLives s s1 := by
    unfold s1
    split
    · exact sameLives_of_kept (kept_setLost ..)
    · exact .refl s
  have hlost : ∀ (ws : List Waiter) (u : State), SameLives u (ws.foldl (fun s w => s.lockReplyTo w.id line lkLost) u) :=
    sameLives_foldl (fun (s : State) (w : Waiter) => s.lockReplyTo w.id line lkLost) (fun s w => sameLives_lockReplyTo s w.id line lkLost)
  have hretry : ∀ (ids : List CtxId) (u : State), SameLives u (ids.foldl (fun s id => s.lockReplyTo id line lkRetry) u) :=
    sameLives_foldl (fun (s : State) (id : CtxId) => s.lockReplyTo id line lkRetry) (fun s id => sameLives_lockReplyTo s id line lkRetry)
  have hdrop : SameLives s1 (match l.rel with | some (id, _) => s1.dropCore id.node id.core line true | none => s1) := by
    split
    · exact sameLives_of_kept (quiet_dropCore ..).kept
    · exact .refl s1
  split
  · refine h1.trans ((hlost l.waiters s1).trans ?_)
    exact sameLives_of_ctxs rfl
  · split
    · exact h1.trans (((hdrop.trans (hretry ..)).trans (sameLives_giveLock ..)).trans (sameLives_lockReplyTo ..))
    next rest gone _ =>
      refine h1.trans ((hretry gone s1).trans ?_)
      exact sameLives_of_ctxs rfl

theorem sameLives_releaseArrived (s : State) (line : Nat) : SameLives s (s.releaseArrived line) := by
  unfold State.releaseArrived
  split
  · exact .refl s
  · split
    · exact sameLives_of_ctxs rfl
    · exact sameLives_handOff ..

theorem sameLives_breakLock (s : State) (id : CtxId) (line : Nat) (gen : Option (BitVec 12)) : SameLives s (s.breakLock id line gen) := by
  refine SameLives.trans ?_ (sameLives_releaseArrived ..)
  exact sameLives_of_ctxs rfl

theorem sameLives_performPool (s : State) (id : CtxId) : SameLives s (s.performPool id) := by
  have hclean := sameLives_foldl (fun (s : State) (p : Word × Nat) => s.poolClean (paNode p.2) (lineOf p.2))
    (fun s p => sameLives_of_kept (kept_poolClean s (paNode p.2) (lineOf p.2))) (s.ctx id).poolStores s
  exact hclean.trans (sameLives_setCtx _ _ rfl rfl)

theorem sameLives_breakLocks (s : State) (id : CtxId) : SameLives s (s.breakLocks id) := by
  unfold State.breakLocks
  extract_lets mine s1 gen s2 s3
  have h1 : SameLives s s1 := by
    unfold s1
    split
    · exact sameLives_performPool ..
    · exact .refl s
  have h2 : SameLives s1 s2 := sameLives_foldl _ (fun _ _ => sameLives_breakLock ..) _ _
  have h3 : SameLives s2 s3 := sameLives_of_ctxs rfl
  exact ((h1.trans h2).trans h3).trans (sameLives_setCtx _ _ rfl rfl)

theorem sameLives_dropTok (s : State) (id : CtxId) : SameLives s (s.dropTok id) := by
  unfold State.dropTok
  split
  · refine SameLives.trans (sameLives_of_ctxs ?_) (sameLives_setCtx _ _ rfl rfl)
    unfold State.creditBack
    dsimp only
    split
    · split <;> rfl
    · rfl
  · exact .refl s

/-! ## The end of a life -/

/-- The slot after the end of its life: FREE, its last end noted, one generation on, no loop and no port bound. -/
theorem endLife_ctx (s : State) (id : CtxId) (how : LastEnd) :
    let c := (s.endLife id how).ctx id
    c.st = .free ∧ c.lastEnd = how ∧ c.gen = (s.ctx id).gen + 1 ∧ c.loopActive = false ∧ ∀ i : Fin 8, c.ports[i].bound = false := by
  have h : SameLives s ((((s.phDropAll id).unbindAll id).breakLocks id).dropTok id) :=
    (((sameLives_phDropAll ..).trans (sameLives_unbindAll ..)).trans (sameLives_breakLocks ..)).trans (sameLives_dropTok ..)
  unfold State.endLife
  dsimp only
  rw [setCtx_ctx_same]
  have hports : ∀ i : Fin 8, Ctx.reset.ports[i].bound = false := by decide
  have hgen := (h.life id).2
  generalize (((s.phDropAll id).unbindAll id).breakLocks id).dropTok id = u at hgen
  refine ⟨rfl, rfl, ?_, rfl, hports⟩
  change (u.ctx id).gen + 1 = _
  rw [hgen]

theorem handlerEnded_ctxs (s : State) (id : CtxId) (gen : BitVec 12) : (s.handlerEnded id gen).ctxs = s.ctxs := by
  have hfold : ∀ (l : List (Nat × Mbox)) (v : State),
      (l.foldl (fun s e => s.enq .handlerStart { node := id.node, n := id.polder, m := e.1 }) v).ctxs = v.ctxs := fun l => by
    induction l with
    | nil => exact fun v => rfl
    | cons e l ih => exact fun v => ih _
  exact hfold ..

theorem enq_if_ctx {c : Prop} [Decidable c] (u : State) (i j : Instr) (e f : Ev) :
    ((if c then u.enq i e else u).enq j f).ctxs = u.ctxs ∧ ((if c then u.enq i e else u).enq j f).cores = u.cores := by
  split <;> exact ⟨rfl, rfl⟩

/-- The end of an item leaves every context, and its core without an item. -/
theorem itemEnd_leaves (s : State) (node k : Nat) (quit killed : Bool) :
    (s.itemEnd node k quit killed).ctxs = s.ctxs ∧ ((s.itemEnd node k quit killed).core node k).item = none := by
  have hset : ((s.setCore node k { s.core node k with item := none }).core node k).item = none := by rw [setCore_core_same]
  unfold State.itemEnd
  dsimp only
  cases hit : (s.core node k).item with
  | none => exact ⟨rfl, hit⟩
  | some it =>
    dsimp only
    cases (s.setCore node k { s.core node k with item := none }).launch? node it.launch with
    | none => exact ⟨rfl, hset⟩
    | some l =>
      dsimp only
      refine ⟨(enq_if_ctx ..).1, ?_⟩
      exact (congrArg (fun t => (tget CoreSt.reset t (node, k)).item) (enq_if_ctx ..).2).trans hset

theorem liveHelpers_congr {s t : State} (h : SameLives s t) (node k : Nat) : t.liveHelpers node k = s.liveHelpers node k := by
  unfold State.liveHelpers
  refine List.filter_congr fun j _ => ?_
  rw [(h.life ⟨node, k, j⟩).1]

theorem endRunAhead_none {s : State} {node k : Nat} (h : s.liveHelpers node k = []) : s.endRunAhead node k = s := by
  unfold State.endRunAhead
  rw [h]
  rfl

/-- QUIT of a context with nothing outstanding and no live helper ends its life, and the control context's its item. -/
theorem quit_ends {s : State} (hslot : s.cc.slot ≤ 10) (hnm : s.c.nmPending = 0) (hopen : s.openCmds s.cur = false)
    (hlive : s.cc.slot = 0 → s.liveHelpers s.fnode s.fcore = []) :
    Completes .quit s (fun t => (t.ctx s.cur).st = .free ∧ (t.ctx s.cur).lastEnd = .quit ∧ (t.ctx s.cur).gen = s.c.gen + 1 ∧
        (t.ctx s.cur).loopActive = false ∧ (∀ i : Fin 8, (t.ctx s.cur).ports[i].bound = false) ∧
        (s.cc.slot = 0 → (t.core s.fnode s.fcore).item = none)) := by
  let s1 := if s.pol.array.leased s.cur then s.endLease s.cur true else s
  have h1 : SameLives s s1 := by
    unfold s1
    split
    · exact sameLives_endLease ..
    · exact .refl s
  have hend : (if s.cur.slot = 0 then s1.endRunAhead s.cur.node s.cur.core else s1) = s1 := by
    split
    next h0 => exact endRunAhead_none ((liveHelpers_congr h1 ..).trans (hlive h0))
    next => rfl
  let s3 := (s1.endLife s.cur .quit).handlerEnded s.cur s.c.gen
  let s4 := if s.cur.slot = 0 then s3.itemEnd s.cur.node s.cur.core true false else s3
  have hrun : exec .quit s = .next { s4.switchSlot s.cur.node s.cur.core with pfx := none, idle := false } := by
    change execQuit s = _
    unfold execQuit
    dsimp only
    rw [if_neg (show s.cur.slot ≠ 11 from fun h => by have : s.cc.slot = 11 := h; omega), if_neg (by simp [hnm, hopen]), hend,
      if_neg (by rintro ⟨h0, hl⟩; exact hl ((liveHelpers_congr h1 ..).trans (hlive h0)))]
  obtain ⟨hst, hlast, hgen, hloop, hports⟩ := endLife_ctx s1 s.cur .quit
  have hctx : s4.ctx s.cur = (s1.endLife s.cur .quit).ctx s.cur := by
    have h3 : s3.ctx s.cur = (s1.endLife s.cur .quit).ctx s.cur := by
      unfold State.ctx
      rw [handlerEnded_ctxs]
    rw [← h3]
    unfold s4
    split
    · unfold State.ctx
      rw [(itemEnd_leaves ..).1]
    · rfl
  refine ⟨_, hrun, ?_, ?_, ?_, ?_, ?_, fun h0 => ?_⟩
  · exact (congrArg Ctx.st hctx).trans hst
  · exact (congrArg Ctx.lastEnd hctx).trans hlast
  · exact (congrArg Ctx.gen hctx).trans (hgen.trans (congrArg (· + 1) (h1.life s.cur).2))
  · exact (congrArg Ctx.loopActive hctx).trans hloop
  · intro i
    change (s4.ctx s.cur).ports[i].bound = false
    rw [hctx]
    exact hports i
  · obtain ⟨j, hj⟩ := TrapGroup.switchSlot_core s4 s.cur.node s.cur.core
    change ((s4.switchSlot s.cur.node s.cur.core).core s.fnode s.fcore).item = none
    refine (congrArg CoreSt.item hj).trans ?_
    change (s4.core s.cur.node s.cur.core).item = none
    unfold s4
    rw [if_pos (show s.cur.slot = 0 from h0)]
    exact (itemEnd_leaves ..).2

theorem quit_waits {s : State} (hslot : s.cc.slot ≤ 10) (h : s.c.nmPending ≠ 0 ∨ s.openCmds s.cur = true) : Waits .quit s .quit := by
  refine Barriers.waits_of_finish _ s s _ ?_ rfl rfl rfl
  change execQuit s = _
  unfold execQuit
  dsimp only
  rw [if_neg (show s.cur.slot ≠ 11 from fun h => by have : s.cc.slot = 11 := h; omega), if_pos h]

theorem quit_traps {s : State} (hslot : s.cc.slot = 11) : Traps .quit s .illegalInstr 0x010000AC 0 := by
  refine traps_finish ?_
  change execQuit s = _
  unfold execQuit
  dsimp only
  rw [if_pos (show s.cur.slot = 11 from hslot)]
  rfl

/-! ## START and STARTP -/

/-- With no mailbox of the core that waits for a handler, a START has the free slots. -/
theorem handlersFirst_idle {s : State} (h : ∀ m ∈ s.pol.mboxes, m.2.owner.core = s.fcore → m.2.wants = false) : s.handlersFirst s.fnode s.fcore = s := by
  unfold State.handlersFirst
  have hmem : ∀ e ∈ (s.polder s.fnode (s.fcore / 8)).mboxes.filter (fun e => e.2.owner.core == s.fcore), e.2.wants = false := fun e he => by
    obtain ⟨he, hown⟩ := List.mem_filter.mp he
    exact h e he (by simpa using hown)
  generalize (s.polder s.fnode (s.fcore / 8)).mboxes.filter (fun e => e.2.owner.core == s.fcore) = l at hmem
  induction l with
  | nil => rfl
  | cons e l ih =>
    have hnow : s.handlerNow s.fnode (s.fcore / 8) e.1 e.2 = s := by
      unfold State.handlerNow
      rw [hmem e List.mem_cons_self, if_neg Bool.false_ne_true]
    rw [List.foldl_cons, hnow]
    exact ih fun x hx => hmem x (List.mem_cons_of_mem _ hx)

theorem freeSlot_range {s : State} {node k j : Nat} (h : s.freeSlot node k = some j) : 1 ≤ j ∧ j ≤ 10 := by
  have hm := List.mem_of_find?_eq_some h
  simp only [List.mem_map, List.mem_range] at hm
  obtain ⟨a, ha, rfl⟩ := hm
  omega

theorem born_xr (old : Ctx) (pc x1 : Word) (asid : BitVec 16) (root : Word) (rm : BitVec 3) (w6 w7 : Word) (ra : Bool) (r : Reg) :
    (old.born pc x1 0 asid root rm w6 w7 ra).xr r = if r = 1 then x1 else 0 := by
  have hx : ∀ i (hi : i < 32), ((Ctx.reset.x.set 1 x1).set 2 0)[i] = if i = 1 then x1 else 0 := fun i hi => by
    rw [Vector.getElem_set]
    split
    next h => rw [if_neg (by omega)]
    next h =>
      rw [Vector.getElem_set]
      split
      next h1 => rw [if_pos h1.symm]
      next h1 =>
        rw [if_neg (fun h => h1 h.symm)]
        exact Vector.getElem_replicate ..
  unfold Ctx.xr
  split
  next h0 => rw [h0, if_neg (by decide)]
  next =>
    refine (hx r.toNat r.isLt).trans ?_
    by_cases h : r = 1
    · rw [if_pos h, if_pos (by rw [h]; rfl)]
    · rw [if_neg h, if_neg (fun hn : r.toNat = 1 => h (BitVec.eq_of_toNat_eq hn))]

section
variable {s : State} {d a b : Reg} {i : Instr} {word : Nat} {ra : Bool} (he : exec i s = startHelper i word d a b ra s)
include he

/-- A START with a slot to give begins a life there. -/
theorem start_begins {it : Item} {j : Nat} (hboxes : ∀ m ∈ s.pol.mboxes, m.2.owner.core = s.fcore → m.2.wants = false) (h0 : s.cc.slot = 0)
    (hal : (s.X a).toNat % 4 = 0) (hit : s.cc.item = some it) (hlim : (s.liveHelpers s.fnode s.fcore).length < it.helpers)
    (hfree : s.freeSlot s.fnode s.fcore = some j) : Completes i s (fun t =>
        let n := t.ctx { s.cur with slot := j }
        n.pc = s.X a ∧ (∀ r : Reg, n.xr r = if r = 1 then s.X b else 0) ∧ n.v = Vector.replicate 32 0 ∧ n.p = Vector.replicate 8 0 ∧
        n.g = Vector.replicate 32 0 ∧ n.asid = s.c.asid ∧ n.ptroot = s.c.ptroot ∧ n.rmode = s.c.rmode ∧ n.wscale6 = s.c.wscale6 ∧
        n.wscale7 = s.c.wscale7 ∧ n.fpstat = 0 ∧ n.instret = 0 ∧ n.loopActive = false ∧ n.st = .ready ∧ n.ra = ra ∧
        n.gen = (s.ctx { s.cur with slot := j }).gen ∧ XIs s t d (BitVec.ofNat 64 (n.gen.toNat * 16 + j)) ∧ t.mem = s.mem) := by
  let id : CtxId := { s.cur with slot := j }
  let new := (s.ctx id).born (s.X a) (s.X b) 0 s.c.asid s.c.ptroot s.c.rmode s.c.wscale6 s.c.wscale7 ra
  let u := s.setCtx id new
  have hne : id ≠ s.cur := fun h => by
    have hj : j = s.cc.slot := congrArg CtxId.slot h
    have := (freeSlot_range hfree).1
    omega
  have hrun : exec i s = finish i s (.ok (u.setX d (BitVec.ofNat 64 ((s.ctx id).gen.toNat * 16 + j)))) := by
    rw [he]
    unfold startHelper
    rw [if_neg (by omega), if_neg (by omega)]
    dsimp only
    rw [handlersFirst_idle hboxes, hit]
    dsimp only
    rw [if_neg (by omega), hfree]
  have hnew : ((u.setX d (BitVec.ofNat 64 ((s.ctx id).gen.toNat * 16 + j))).retire i).ctx id = new := by
    refine (retire_ctx_other (u.setX d _) i id hne).trans ?_
    exact (setC_ctx_other u _ id hne).trans (setCtx_ctx_same ..)
  have huc : u.c = s.c := setCtx_ctx_other s id s.cur new (Ne.symm hne)
  refine completes_finish hrun ?_
  dsimp only
  rw [show ({ s.cur with slot := j } : CtxId) = id from rfl, hnew]
  refine ⟨rfl, born_xr _ _ _ _ _ _ _ _ _, rfl, rfl, rfl, rfl, rfl, rfl, rfl, rfl, rfl, rfl, rfl, rfl, rfl, rfl, ?_, complete_mem ..⟩
  exact xIs_congr (congrArg Ctx.x huc) (xIs_retire_setX u i d _)

theorem start_full {it : Item} (hboxes : ∀ m ∈ s.pol.mboxes, m.2.owner.core = s.fcore → m.2.wants = false) (h0 : s.cc.slot = 0)
    (hal : (s.X a).toNat % 4 = 0) (hit : s.cc.item = some it) (hlim : it.helpers ≤ (s.liveHelpers s.fnode s.fcore).length) :
    Completes i s (ResultX d 0x8000000000000001 s) := by
  refine completes_setX ?_
  rw [he]
  unfold startHelper
  rw [if_neg (by omega), if_neg (by omega)]
  dsimp only
  rw [handlersFirst_idle hboxes, hit]
  dsimp only
  rw [if_pos hlim]

theorem start_misaligned (h0 : s.cc.slot = 0) (hal : (s.X a).toNat % 4 ≠ 0) : Traps i s .misaligned (s.X a) 0 := by
  refine traps_finish (he.trans ?_)
  unfold startHelper
  rw [if_neg (by omega), if_pos hal]

theorem start_elsewhere (h0 : s.cc.slot ≠ 0) (hw : word = encodeFirst i) : Traps i s .illegalInstr (BitVec.ofNat 64 (encodeFirst i)) 0 := by
  refine traps_finish (he.trans ?_)
  unfold startHelper
  rw [if_pos h0, hw]
  rfl

end

/-- The fields of an R-layout word in the encoder's order. -/
theorem rWord_eq (m : Nat) (d a b : Reg) : rWord m d a b = m + d.toNat * 2 ^ 8 + a.toNat * 2 ^ 13 + b.toNat * 2 ^ 18 := by
  unfold rWord
  omega

/-- Settles O19: the two members that begin a life, and the one that ends it. -/
theorem livesBeginAndEnd : Obligations.LivesBeginAndEnd := by
  unfold Obligations.LivesBeginAndEnd
  refine ⟨fun s d a b it j e hmem => ?_, fun s => ⟨quit_ends, quit_waits, quit_traps⟩⟩
  simp only [List.mem_cons, List.not_mem_nil, or_false] at hmem
  rcases hmem with rfl | rfl
  · have he : exec (.start d a b) s = startHelper (.start d a b) (rWord 0x000000AC d a b) d a b false s := rfl
    exact ⟨start_begins he, start_full he, start_misaligned he, fun h => start_elsewhere he h (rWord_eq ..)⟩
  · have he : exec (.startp d a b) s = startHelper (.startp d a b) (rWord 0x008000AC d a b) d a b true s := rfl
    exact ⟨start_begins he, start_full he, start_misaligned he, fun h => start_elsewhere he h (rWord_eq ..)⟩

end Sys2Proof.Lives
end

section
/-! Phasers: the handle that names one, the members that sign up, signal, wait, drop out and ask. -/

namespace Sys2Proof.Phasers
set_option Elab.async false
open Sys2Proof Sys2Proof.Machine Sys2Proof.Safety Sys2Proof.Ends

/-! ## The phaser that a handle names -/

theorem phFind_of_names {s : State} {h : Word} {p k : Nat} {f : Phaser} (hn : NamesPhaser s h p k f) : s.phFind h = some (p, k, f) := by
  obtain ⟨hp, hk, hg, hh, hf, hlive, has⟩ := hn
  have hfields : fieldW h 40 8 = p ∧ fieldW h 34 6 = k ∧ fieldW h 48 16 = 0 ∧ fieldW h 0 22 = 0 ∧ fieldW h 22 12 = f.gen := by
    unfold fieldW fieldN
    omega
  obtain ⟨f1, f2, f3, f4, f5⟩ := hfields
  unfold State.phFind
  dsimp only
  rw [f1, f2, ← hf, f3, f4, f5, if_neg (by omega), if_neg (by simp [hlive, has])]

theorem names_of_phFind {s : State} {h : Word} {p k : Nat} {f : Phaser} (hf : s.phFind h = some (p, k, f)) : NamesPhaser s h p k f := by
  unfold State.phFind at hf
  dsimp only at hf
  split at hf
  · cases hf
  next h1 =>
    split at hf
    · cases hf
    next h2 =>
      obtain ⟨rfl, rfl, rfl⟩ : _ ∧ _ ∧ _ := by simpa using hf
      simp only [Bool.not_eq_true', not_or, ne_eq, Decidable.not_not, Bool.not_eq_false] at h1 h2
      obtain ⟨hup, hlow, hp⟩ := h1
      obtain ⟨hlive, hgen, has⟩ := h2
      refine ⟨by omega, Nat.mod_lt _ (by decide), ?_, ?_, rfl, hlive, has⟩
      · rw [hgen]
        exact Nat.mod_lt _ (by decide)
      · rw [hgen]
        have hlt := h.isLt
        unfold fieldW fieldN at *
        omega

theorem phFind_none {s : State} {h : Word} (hno : ∀ p k f, ¬NamesPhaser s h p k f) : s.phFind h = none := by
  cases hf : s.phFind h with
  | none => rfl
  | some r => exact absurd (names_of_phFind hf) (hno _ _ _)

/-! ## The results of phaser instructions -/

section
variable {s : State} {i : Instr} {d h : Reg} (hra : s.c.ra = false)
include hra

theorem phaser_status {r : Except Stop (State × Word)} {n : Nat} (he : exec i s = phaserInstr i d s r) (hr : r = .ok (s, phResult 0 n)) :
    Completes i s (ResultX d (BitVec.ofNat 64 n) s) := by
  refine completes_setX ?_
  rw [he]
  unfold phaserInstr
  rw [if_neg (by rw [hra]; exact Bool.false_ne_true), hr, phResult]
  simp [Except.map]

theorem phaser_leaves {r : Except Stop (State × Word)} {u : State} {w : Word} (he : exec i s = phaserInstr i d s r) (hr : r = .ok (u, w)) :
    Completes i s (Leaves (u.setX d w)) := by
  unfold phaserInstr at he
  rw [if_neg (by rw [hra]; exact Bool.false_ne_true), hr] at he
  exact completes_finish he (leaves_retire ..)

theorem phaser_waits {r : Except Stop (State × Word)} {u : State} (he : exec i s = phaserInstr i d s r) (hr : r = .error (.wait .phaser u))
    (hcur : u.cur = s.cur) (hpc : u.c.pc = s.c.pc) (hmem : u.mem = s.mem) : Waits i s .phaser := by
  unfold phaserInstr at he
  rw [if_neg (by rw [hra]; exact Bool.false_ne_true), hr] at he
  exact Barriers.waits_of_finish _ _ _ _ he hcur hpc hmem

end

theorem phaser_dropped {s : State} {i : Instr} {d : Reg} {r : Except Stop (State × Word)} (hra : s.c.ra = true) (he : exec i s = phaserInstr i d s r) :
    Completes i s (Leaves s) := by
  unfold phaserInstr at he
  rw [if_pos hra] at he
  exact completes_finish he (leaves_retire ..)

theorem phResult_zero (n : Nat) : phResult n 0 = BitVec.ofNat 64 (n % 2 ^ 32 * 2 ^ 32) := by
  unfold phResult
  rw [Nat.add_zero]

/-! ## PHNEW and PHREG -/

theorem freePhaser_lowest {q : Polder} {k : Nat} (hk : k < 64) (hfree : (q.phaser k).live = false) (hlow : ∀ j, j < k → (q.phaser j).live = true) :
    q.freePhaser = some k := by
  unfold Polder.freePhaser
  rw [List.find?_range_eq_some]
  exact ⟨by rw [hfree]; rfl, List.mem_range.mpr hk, fun j hj => by rw [hlow j hj]; rfl⟩

theorem freePhaser_none {q : Polder} (h : ∀ k, k < 64 → (q.phaser k).live = true) : q.freePhaser = none := by
  unfold Polder.freePhaser
  rw [List.find?_eq_none]
  intro k hk
  rw [h k (List.mem_range.mp hk)]
  decide

theorem phnew_full {s : State} {d m : Reg} (hra : s.c.ra = false) (hm : (s.X m).toNat ≤ 2)
    (h : s.cc.slot = 11 ∨ s.cc.item = none ∨ (∃ it, s.cc.item = some it ∧ it.phLeft = 0) ∨ 1024 ≤ s.pol.registrations ∨
      (∀ k, k < 64 → (s.pol.phaser k).live = true)) : Completes (.phnew d m) s (ResultX d 4 s) := by
  refine phaser_status (n := 4) hra (show execPhnew d m s = _ from rfl) ?_
  rw [if_neg (by omega)]
  split
  next it k hit hk =>
    refine if_pos ?_
    have h11 : s.cc.slot ≠ 11 := fun he => by
      rw [if_pos he] at hit
      cases hit
    rw [if_neg h11] at hit
    rcases h with h | h | ⟨it', h, h0⟩ | h | h
    · exact absurd h h11
    · rw [h] at hit
      cases hit
    · rw [h] at hit
      obtain rfl := Option.some.inj hit
      exact .inl h0
    · exact .inr h
    · rw [freePhaser_none h] at hk
      cases hk
  · rfl

theorem phnew_takes {s : State} {d m : Reg} {it : Item} {k : Nat} (hra : s.c.ra = false) (hm : (s.X m).toNat ≤ 2) (h11 : s.cc.slot ≠ 11)
    (hit : s.cc.item = some it) (hleft : it.phLeft ≠ 0) (hreg : s.pol.registrations < 1024) (hk : k < 64) (hfree : (s.pol.phaser k).live = false)
    (hlow : ∀ j, j < k → (s.pol.phaser j).live = true) :
    let f := s.pol.phaser k
    let g := { f with live := true, asid := s.c.asid, item := (s.fcore, it.launch, it.wid), phase := 0,
                      members := [⟨s.cur, (s.X m).toNat, 0, 0, false⟩] }
    Completes (.phnew d m) s (Leaves (((s.setPhaser s.fnode (s.fcore / 8) k g).setCC
      { s.cc with item := some { it with phLeft := it.phLeft - 1 } }).setX d
        (BitVec.ofNat 64 (s.fcore / 8 * 2 ^ 40 + k * 2 ^ 34 + f.gen % 4096 * 2 ^ 22)))) := by
  intro f g
  refine phaser_leaves hra (show execPhnew d m s = _ from rfl) ?_
  rw [if_neg (by omega), if_neg h11, hit, freePhaser_lowest hk hfree hlow]
  dsimp only
  rw [if_neg (by omega)]
  rfl

section
variable {s : State} {d h m : Reg} {p k : Nat} {f : Phaser} (hra : s.c.ra = false) (hn : NamesPhaser s (s.X h) p k f)
include hra hn

theorem phreg_fardie (hd : p / 32 ≠ s.fcore / 256) : Completes (.phreg d h m) s (ResultX d 5 s) := by
  refine phaser_status (n := 5) hra (show execPhreg d h m s = _ from rfl) ?_
  rw [phFind_of_names hn]
  exact if_pos hd

section
variable (hd : p / 32 = s.fcore / 256)
include hd

theorem phreg_wrongmode (hm : 2 < (s.X m).toNat) : Completes (.phreg d h m) s (ResultX d 3 s) := by
  refine phaser_status (n := 3) hra (show execPhreg d h m s = _ from rfl) ?_
  rw [phFind_of_names hn]
  exact (if_neg (not_not.mpr hd)).trans (if_pos hm)

theorem phreg_already (hm : (s.X m).toNat ≤ 2) (hmem : f.member s.cur ≠ none) : Completes (.phreg d h m) s (ResultX d 6 s) := by
  refine phaser_status (n := 6) hra (show execPhreg d h m s = _ from rfl) ?_
  rw [phFind_of_names hn]
  exact (if_neg (not_not.mpr hd)).trans ((if_neg (by omega)).trans (if_pos (Option.isSome_iff_ne_none.mpr hmem)))

theorem phreg_full (hm : (s.X m).toNat ≤ 2) (hmem : f.member s.cur = none) (hr : 1024 ≤ (s.polder s.fnode p).registrations) :
    Completes (.phreg d h m) s (ResultX d 4 s) := by
  refine phaser_status (n := 4) hra (show execPhreg d h m s = _ from rfl) ?_
  rw [phFind_of_names hn]
  exact (if_neg (not_not.mpr hd)).trans ((if_neg (by omega)).trans ((if_neg (by rw [hmem]; decide)).trans (if_pos hr)))

theorem phreg_joins (hm : (s.X m).toNat ≤ 2) (hmem : f.member s.cur = none) (hr : (s.polder s.fnode p).registrations < 1024) :
    Completes (.phreg d h m) s (Leaves ((s.setPhaser s.fnode p k
      { f with members := f.members ++ [⟨s.cur, (s.X m).toNat, f.phase, f.phase, false⟩] }).setX d (BitVec.ofNat 64 (f.phase % 2 ^ 32 * 2 ^ 32)))) := by
  rw [← phResult_zero]
  refine phaser_leaves hra (show execPhreg d h m s = _ from rfl) ?_
  rw [phFind_of_names hn]
  exact (if_neg (not_not.mpr hd)).trans ((if_neg (by omega)).trans ((if_neg (by rw [hmem]; decide)).trans (if_neg (by omega))))

end

end

/-- Settles O23: PHNEW by its cases, and PHREG by those of its handle. -/
theorem phnewAndPhregRegister : Obligations.PhnewAndPhregRegister := by
  unfold Obligations.PhnewAndPhregRegister
  intro s d h m
  refine ⟨fun hra => ?_, fun hra => ⟨fun hm => ?_, phnew_full hra, fun it k hm h11 hit hl hr hk hf hlow => phnew_takes hra hm h11 hit hl hr hk hf hlow,
    fun hno => ?_, fun p k f hn => ⟨phreg_fardie hra hn, phreg_wrongmode hra hn, phreg_already hra hn, phreg_full hra hn, phreg_joins hra hn⟩⟩⟩
  · simp only [List.forall_mem_cons, List.not_mem_nil, false_imp_iff, implies_true, and_true]
    exact ⟨phaser_dropped hra (show execPhnew d m s = _ from rfl), phaser_dropped hra (show execPhreg d h m s = _ from rfl)⟩
  · refine phaser_status (n := 3) hra (show execPhnew d m s = _ from rfl) ?_
    exact if_pos hm
  · refine phaser_status (n := 1) hra (show execPhreg d h m s = _ from rfl) ?_
    rw [phFind_none hno]

/-! ## Members -/

/-- A member's mode lets it signal. -/
def signalling (x : PhMember) : Bool := decide (x.mode = 0 ∨ x.mode = 2)

theorem signals_eq (x : PhMember) : x.signals = signalling x := by
  unfold PhMember.signals signalling
  rw [Bool.decide_or]
  rfl

/-- A phaser with the member of a context replaced. -/
def putMember (id : CtxId) (f : Phaser) (x : PhMember) : Phaser := { f with members := f.members.map (fun y => if y.id = id then x else y) }

/-- A phaser that stood in phase `n`, after an event: it moves on when every signalling member has signalled. -/
def settledAt (n : Nat) (g : Phaser) : Phaser :=
  if g.members.all (fun x => !signalling x || decide (n < x.s)) then { g with phase := n + 1 } else g

theorem setMember_eq {id : CtxId} (f : Phaser) {x : PhMember} (hid : x.id = id) : f.setMember x = putMember id f x := by
  unfold Phaser.setMember putMember
  rw [hid]

theorem settle_eq (g : Phaser) : g.settle = settledAt g.phase g := by
  unfold Phaser.settle settledAt
  simp only [signals_eq]

theorem signal_eq {id : CtxId} (f : Phaser) {m : PhMember} (mark : Bool) (hid : m.id = id) :
    f.signal m mark = settledAt f.phase (putMember id f { m with s := m.s + 1, mark := mark }) := by
  unfold Phaser.signal
  rw [settle_eq, setMember_eq f (x := { m with s := m.s + 1, mark := mark }) hid]
  rfl

theorem settledAt_members (n : Nat) (g : Phaser) : (settledAt n g).members = g.members := by
  unfold settledAt
  split <;> rfl

theorem member_id {f : Phaser} {id : CtxId} {m : PhMember} (h : f.member id = some m) : m.id = id := by
  simpa using List.find?_some h

/-- The member put in place is found there. -/
theorem find_putMember {id : CtxId} {x : PhMember} (hx : x.id = id) : ∀ {l : List PhMember} {m : PhMember}, l.find? (fun y => y.id == id) = some m →
    (l.map (fun y => if y.id = id then x else y)).find? (fun y => y.id == id) = some x
  | [], _, h => by cases h
  | y :: l, m, h => by
    rw [List.map_cons]
    by_cases hy : y.id = id
    · rw [if_pos hy, List.find?_cons_of_pos (by simp [hx])]
    · rw [if_neg hy, List.find?_cons_of_neg (by simp [hy])]
      rw [List.find?_cons_of_neg (by simp [hy])] at h
      exact find_putMember hx h

theorem setPhaser_setPhaser (s : State) (node p k : Nat) (f g : Phaser) : (s.setPhaser node p k f).setPhaser node p k g = s.setPhaser node p k g := by
  have hp : (s.setPhaser node p k f).polder node p = { s.polder node p with phasers := tset (s.polder node p).phasers k f } := tget_tset_same ..
  change (s.setPhaser node p k f).setPolder node p { (s.setPhaser node p k f).polder node p with
    phasers := tset ((s.setPhaser node p k f).polder node p).phasers k g } = _
  rw [hp]
  dsimp only
  rw [tset_tset]
  unfold State.setPhaser State.setPolder
  dsimp only
  rw [tset_tset]

theorem setPhaser_phaser (s : State) (node p k : Nat) (f : Phaser) : ((s.setPhaser node p k f).polder node p).phaser k = f := by
  have hp : (s.setPhaser node p k f).polder node p = { s.polder node p with phasers := tset (s.polder node p).phasers k f } := tget_tset_same ..
  rw [hp]
  exact tget_tset_same ..

/-- The member of a phaser leaves it (R379). -/
theorem drop_eq {f : Phaser} {m : PhMember} {id : CtxId} (hid : m.id = id) (hlive : f.live = true) :
    let g := f.drop m
    g.members = f.members.filter (fun x => x.id != id) ∧ g.live = !g.members.isEmpty ∧
    g.gen = (if g.members.isEmpty then (f.gen + 1) % 4096 else f.gen) ∧
    g.phase = if signalling m && decide (m.s ≤ f.phase) && (g.members.all (fun x => !signalling x || decide (f.phase < x.s))) then f.phase + 1
      else f.phase := by
  have hall : ((f.members.filter (fun x => x.id != id)).filter (fun x => x.signals)).all (fun x => decide (f.phase < x.s))
      = (f.members.filter (fun x => x.id != id)).all (fun x => !signalling x || decide (f.phase < x.s)) := by
    rw [List.all_filter]
    refine congrArg (List.all _) (funext fun x => ?_)
    rw [signals_eq]
  unfold Phaser.drop
  dsimp only
  rw [hid, hall, signals_eq]
  generalize f.members.filter (fun x => x.id != id) = l
  split <;> dsimp only
  · split
    next he => exact ⟨rfl, by rw [he]; rfl, rfl, rfl⟩
    next he => exact ⟨rfl, by rw [hlive, Bool.eq_false_iff.mpr he]; rfl, rfl, rfl⟩
  · split
    next he => exact ⟨rfl, by rw [he]; rfl, rfl, rfl⟩
    next he => exact ⟨rfl, by rw [hlive, Bool.eq_false_iff.mpr he]; rfl, rfl, rfl⟩

theorem phDrop_phaser (s : State) (node p k : Nat) (m : PhMember) :
    ((s.phDrop node p k m).polder node p).phaser k = ((s.polder node p).phaser k).drop m := by
  have hp : (s.phDrop node p k m).polders = (s.setPhaser node p k (((s.polder node p).phaser k).drop m)).polders := by
    unfold State.phDrop
    dsimp only
    split
    · rfl
    · split
      · split <;> rfl
      · rfl
  unfold State.polder
  rw [hp]
  exact setPhaser_phaser ..

section
variable {s : State} {d h : Reg} {p k : Nat} {f : Phaser} (hra : s.c.ra = false) (hn : NamesPhaser s (s.X h) p k f)
include hra hn

theorem phq_reads : Completes (.phq d h) s (ResultX d (BitVec.ofNat 64 (f.phase % 2 ^ 32 * 2 ^ 32 + (f.members.filter signalling).length * 2 ^ 20 +
    (f.members.filter (fun x => signalling x && decide (f.phase < x.s))).length * 2 ^ 8)) s) := by
  refine completes_setX ?_
  change execPhq d h s = _
  unfold execPhq phaserInstr
  rw [if_neg (by rw [hra]; exact Bool.false_ne_true), phFind_of_names hn]
  have hsig : (fun m : PhMember => m.signals) = signalling := funext signals_eq
  dsimp only
  rw [hsig, List.filter_filter, phResult_zero, ← BitVec.ofNat_add, ← Nat.add_assoc]
  simp only [Except.map, Bool.and_comm]

theorem stranger_status {i : Instr} {body : Nat → Nat → Phaser → PhMember → Except Stop (State × Word)} (he : exec i s = memberInstr i d h s body)
    (hmem : f.member s.cur = none) : Completes i s (ResultX d 2 s) := by
  refine phaser_status (n := 2) hra (show exec i s = phaserInstr i d s _ from he) ?_
  rw [phFind_of_names hn]
  dsimp only
  rw [hmem]

section
variable {m : PhMember} (hmem : f.member s.cur = some m)
include hmem

omit hra in
theorem member_answer {i : Instr} {body : Nat → Nat → Phaser → PhMember → Except Stop (State × Word)} (he : exec i s = memberInstr i d h s body) :
    exec i s = phaserInstr i d s (body p k f m) := by
  rw [he]
  unfold memberInstr
  rw [phFind_of_names hn]
  dsimp only
  rw [hmem]

theorem phsig_member :
    (m.mode = 1 → Completes (.phsig d h) s (ResultX d 3 s)) ∧
    (m.mode ≠ 1 → m.s ≤ f.phase ∧ s.portStores s.cur = false → Completes (.phsig d h) s (Leaves ((s.setPhaser s.fnode p k
      (settledAt f.phase (putMember s.cur f { m with s := m.s + 1 }))).setX d (BitVec.ofNat 64 (m.s % 2 ^ 32 * 2 ^ 32))))) ∧
    (m.mode ≠ 1 → ¬(m.s ≤ f.phase ∧ s.portStores s.cur = false) → Waits (.phsig d h) s .phaser) := by
  have he := member_answer (i := .phsig d h) hn hmem (show execPhsig d h s = _ from rfl)
  refine ⟨fun h1 => ?_, fun h1 hready => ?_, fun h1 hready => ?_⟩
  · exact phaser_status (n := 3) hra he (if_pos h1)
  · rw [← phResult_zero]
    obtain ⟨hs, hport⟩ := hready
    refine phaser_leaves hra he ?_
    rw [if_neg h1, if_neg (by rintro (h | h); exacts [by omega, by rw [hport] at h; cases h]), signal_eq f m.mark (member_id hmem)]
  · refine phaser_waits hra he ?_ rfl rfl rfl
    rw [if_neg h1, if_pos]
    by_contra hno
    rw [not_or] at hno
    exact hready ⟨Nat.not_lt.mp hno.1, Bool.not_eq_true _ ▸ hno.2⟩

theorem phwait_member :
    (m.mode = 0 → Completes (.phwait d h) s (ResultX d 3 s)) ∧
    (m.mode ≠ 0 → m.w < f.phase → Completes (.phwait d h) s (Leaves ((s.setPhaser s.fnode p k
      (putMember s.cur f { m with w := m.w + 1 })).acquire.setX d (BitVec.ofNat 64 (m.w % 2 ^ 32 * 2 ^ 32))))) ∧
    (m.mode ≠ 0 → f.phase ≤ m.w → Waits (.phwait d h) s .phaser) := by
  have he := member_answer (i := .phwait d h) hn hmem (show execPhwait d h s = _ from rfl)
  have hid := member_id hmem
  refine ⟨fun h0 => ?_, fun h0 hw => ?_, fun h0 hw => ?_⟩
  · exact phaser_status (n := 3) hra he (if_pos h0)
  · rw [← phResult_zero]
    refine phaser_leaves hra he ?_
    rw [if_neg h0, if_neg (Nat.not_le.mpr hw), setMember_eq (id := s.cur) f (x := { m with w := m.w + 1 }) hid]
  · refine phaser_waits hra he ?_ rfl rfl rfl
    rw [if_neg h0, if_pos hw]

/-- PHSW of a member whose signal has been made waits, or goes on. -/
theorem phsw_signalled (h2 : m.mode = 2) (hmark : m.mark = true) :
    (m.w < f.phase → Completes (.phsw d h) s (Leaves ((s.setPhaser s.fnode p k
      (putMember s.cur f { m with w := m.w + 1, mark := false })).acquire.setX d (BitVec.ofNat 64 (m.w % 2 ^ 32 * 2 ^ 32))))) ∧
    (f.phase ≤ m.w → Waits (.phsw d h) s .phaser) := by
  have he := member_answer (i := .phsw d h) hn hmem (show execPhsw d h s = _ from rfl)
  have hid := member_id hmem
  refine ⟨fun hw => ?_, fun hw => ?_⟩
  · rw [← phResult_zero]
    refine phaser_leaves hra he ?_
    rw [if_neg (not_not.mpr h2), if_neg (by rw [hmark]; rintro ⟨h, -⟩; cases h)]
    dsimp only
    rw [if_pos hmark, hmem, Option.getD_some, if_neg (Nat.not_le.mpr hw),
      setMember_eq (id := s.cur) f (x := { m with w := m.w + 1, mark := false }) hid]
    rw [show (s.setPhaser s.fnode p k f).fnode = s.fnode from rfl, setPhaser_setPhaser]
  · refine phaser_waits (u := s.setPhaser s.fnode p k f) hra he ?_ rfl rfl rfl
    rw [if_neg (not_not.mpr h2), if_neg (by rw [hmark]; rintro ⟨h, -⟩; cases h)]
    dsimp only
    rw [if_pos hmark, hmem, Option.getD_some, if_pos hw]

/-- PHSW signals once, and then waits for its phase. -/
theorem phsw_signals (h2 : m.mode = 2) (hmark : m.mark = false) :
    (¬(m.s ≤ f.phase ∧ s.portStores s.cur = false) → Waits (.phsw d h) s .phaser) ∧
    (m.s ≤ f.phase ∧ s.portStores s.cur = false →
      let g := settledAt f.phase (putMember s.cur f { m with s := m.s + 1, mark := true })
      (m.w < g.phase → Completes (.phsw d h) s (Leaves ((s.setPhaser s.fnode p k
        (g.setMember { m with s := m.s + 1, w := m.w + 1, mark := false })).acquire.setX d (BitVec.ofNat 64 (m.w % 2 ^ 32 * 2 ^ 32))))) ∧
      (g.phase ≤ m.w → Waits (.phsw d h) s .phaser ∧ Completes (.phsw d h) s (fun t => (t.polder s.fnode p).phaser k = g))) := by
  have he := member_answer (i := .phsw d h) hn hmem (show execPhsw d h s = _ from rfl)
  have hid := member_id hmem
  refine ⟨fun hready => ?_, fun hready => ?_⟩
  · refine phaser_waits hra he ?_ rfl rfl rfl
    rw [if_neg (not_not.mpr h2), if_pos]
    refine ⟨by rw [hmark]; rfl, ?_⟩
    by_contra hno
    rw [not_or] at hno
    exact hready ⟨Nat.not_lt.mp hno.1, Bool.not_eq_true _ ▸ hno.2⟩
  · intro g
    obtain ⟨hs, hport⟩ := hready
    have hg : f.signal m true = g := signal_eq f true hid
    have hfound : g.member s.cur = some { m with s := m.s + 1, mark := true } := by
      unfold Phaser.member
      rw [show g.members = _ from settledAt_members ..]
      exact find_putMember (x := { m with s := m.s + 1, mark := true }) hid hmem
    have hbody : exec (.phsw d h) s = phaserInstr (.phsw d h) d s (if g.phase ≤ m.w then .error (.wait .phaser (s.setPhaser s.fnode p k g))
        else .ok ((s.setPhaser s.fnode p k (g.setMember { m with s := m.s + 1, w := m.w + 1, mark := false })).acquire, phResult m.w 0)) := by
      rw [he, if_neg (not_not.mpr h2), if_neg (by rintro ⟨-, h | h⟩; exacts [by omega, by rw [hport] at h; cases h])]
      dsimp only
      rw [hmark, if_neg Bool.false_ne_true, hg, hfound, Option.getD_some]
      dsimp only
      rw [show (s.setPhaser s.fnode p k g).fnode = s.fnode from rfl, setPhaser_setPhaser]
    refine ⟨fun hw => ?_, fun hw => ⟨?_, ?_⟩⟩
    · rw [← phResult_zero]
      exact phaser_leaves hra hbody (if_neg (Nat.not_le.mpr hw))
    · exact phaser_waits (u := s.setPhaser s.fnode p k g) hra hbody (if_pos hw) rfl rfl rfl
    · rw [if_pos hw] at hbody
      unfold phaserInstr at hbody
      rw [if_neg (by rw [hra]; exact Bool.false_ne_true)] at hbody
      refine ⟨_, hbody, ?_⟩
      have hpol : ((s.setPhaser s.fnode p k g).holdWords (.phsw d h)).polders = (s.setPhaser s.fnode p k g).polders := by
        unfold State.holdWords
        split <;> rfl
      change ((tget Polder.reset ((s.setPhaser s.fnode p k g).holdWords (.phsw d h)).polders (s.fnode, p))).phaser k = g
      rw [hpol]
      exact setPhaser_phaser ..

theorem phdrop_member : Completes (.phdrop d h) s (fun t =>
    Leaves ((s.phDrop s.fnode p k m).setX d (phResult f.phase 0)) t ∧
    (let g := (t.polder s.fnode p).phaser k
     g.members = f.members.filter (fun x => x.id != s.cur) ∧ g.live = !g.members.isEmpty ∧
     g.gen = (if g.members.isEmpty then (f.gen + 1) % 4096 else f.gen) ∧
     g.phase = if signalling m && decide (m.s ≤ f.phase) && (g.members.all (fun x => !signalling x || decide (f.phase < x.s))) then f.phase + 1
       else f.phase)) := by
  have he := member_answer (i := .phdrop d h) hn hmem (show execPhdrop d h s = _ from rfl)
  generalize phResult f.phase 0 = w at he ⊢
  obtain ⟨-, -, -, -, hf, hlive, -⟩ := hn
  have hrun : exec (.phdrop d h) s = finish (.phdrop d h) s (.ok ((s.phDrop s.fnode p k m).setX d w)) := by
    rw [he]
    unfold phaserInstr
    rw [if_neg (by rw [hra]; exact Bool.false_ne_true)]
    rfl
  refine completes_finish hrun ⟨leaves_retire .., ?_⟩
  have ht : ((((s.phDrop s.fnode p k m).setX d w).retire (.phdrop d h)).polder s.fnode p).phaser k = f.drop m := by
    rw [hf, ← phDrop_phaser]
    rfl
  dsimp only
  rw [ht]
  exact drop_eq (member_id hmem) hlive

end

end

/-- Settles O24: the five members by the cases of the handle, of the membership and of the mode. -/
theorem phaserMembersSignalAndWait : Obligations.PhaserMembersSignalAndWait := by
  unfold Obligations.PhaserMembersSignalAndWait
  intro s d h
  refine ⟨fun hra => ?_, fun hra hno => ?_, fun p k f hra hn => ⟨phq_reads hra hn, fun hmem => ?_, fun m hmem => ?_⟩⟩
  · simp only [List.forall_mem_cons, List.not_mem_nil, false_imp_iff, implies_true, and_true]
    exact ⟨phaser_dropped hra (show execPhsig d h s = phaserInstr _ d s _ from rfl),
      phaser_dropped hra (show execPhwait d h s = phaserInstr _ d s _ from rfl), phaser_dropped hra (show execPhsw d h s = phaserInstr _ d s _ from rfl),
      phaser_dropped hra (show execPhdrop d h s = phaserInstr _ d s _ from rfl), phaser_dropped hra (show execPhq d h s = phaserInstr _ d s _ from rfl)⟩
  · have hnone := phFind_none hno
    simp only [List.forall_mem_cons, List.not_mem_nil, false_imp_iff, implies_true, and_true]
    exact ⟨phaser_status (n := 1) hra (show execPhsig d h s = phaserInstr _ d s _ from rfl) (by rw [hnone]),
      phaser_status (n := 1) hra (show execPhwait d h s = phaserInstr _ d s _ from rfl) (by rw [hnone]),
      phaser_status (n := 1) hra (show execPhsw d h s = phaserInstr _ d s _ from rfl) (by rw [hnone]),
      phaser_status (n := 1) hra (show execPhdrop d h s = phaserInstr _ d s _ from rfl) (by rw [hnone]),
      phaser_status (n := 1) hra (show execPhq d h s = phaserInstr _ d s _ from rfl) (by rw [hnone])⟩
  · simp only [List.forall_mem_cons, List.not_mem_nil, false_imp_iff, implies_true, and_true]
    exact ⟨stranger_status hra hn (show execPhsig d h s = _ from rfl) hmem, stranger_status hra hn (show execPhwait d h s = _ from rfl) hmem,
      stranger_status hra hn (show execPhsw d h s = _ from rfl) hmem, stranger_status hra hn (show execPhdrop d h s = _ from rfl) hmem⟩
  · have hdrop := phdrop_member (d := d) hra hn hmem
    rw [phResult_zero] at hdrop
    obtain ⟨sig1, sig2, sig3⟩ := phsig_member hra hn hmem
    obtain ⟨wait1, wait2, wait3⟩ := phwait_member hra hn hmem
    have he := member_answer (i := .phsw d h) hn hmem (show execPhsw d h s = _ from rfl)
    exact ⟨sig1, sig2, sig3, wait1, wait2, wait3, fun h2 => phaser_status (n := 3) hra he (if_pos h2),
      fun h2 hmark => (phsw_signals hra hn hmem h2 hmark).1, fun h2 hmark => (phsw_signals hra hn hmem h2 hmark).2,
      fun h2 hmark => (phsw_signalled hra hn hmem h2 hmark).1, fun h2 hmark => (phsw_signalled hra hn hmem h2 hmark).2, hdrop⟩

end Sys2Proof.Phasers
end

section
/-! FENCE: what each class waits for. -/

namespace Sys2Proof.Fences
set_option Elab.async false
open Sys2Proof Sys2Proof.Machine Sys2Proof.Safety Sys2Proof.Ends Sys2Proof.Access Sys2Proof.MemoryOps

/-! ## Sending pool lines to their device -/

theorem cleanCopies_cur (s : State) (line : Nat) : (s.cleanCopies line).cur = s.cur := by
  have h : (s.cleanCopies line).core s.fnode s.fcore = { s.core s.fnode s.fcore with
      l1 := (s.core s.fnode s.fcore).l1.map (fun l => if l.pline = line then { l with dirty := 0 } else l) } := tget_tmap _ _ _ _ rfl
  change (⟨s.fnode, s.fcore, ((s.cleanCopies line).core s.fnode s.fcore).slot⟩ : CtxId) = ⟨s.fnode, s.fcore, (s.core s.fnode s.fcore).slot⟩
  rw [h]

/-- Sending lines leaves memory, the contexts and the issuing slot. -/
theorem poolSend_keeps (s : State) (node line : Nat) :
    (s.poolSend node line).mem = s.mem ∧ (s.poolSend node line).ctxs = s.ctxs ∧ (s.poolSend node line).cur = s.cur := by
  unfold State.poolSend
  dsimp only
  split
  · exact ⟨rfl, rfl, rfl⟩
  · exact ⟨rfl, rfl, cleanCopies_cur s line⟩

theorem sendAll_keeps (l : List Nat) (s : State) :
    let t := l.foldl (fun s l => s.poolSend (paNode l) l) s
    t.mem = s.mem ∧ t.ctxs = s.ctxs ∧ t.cur = s.cur := by
  induction l generalizing s with
  | nil => exact ⟨rfl, rfl, rfl⟩
  | cons a l ih =>
    obtain ⟨hm, hx, hc⟩ := ih (s.poolSend (paNode a) a)
    obtain ⟨hm', hx', hc'⟩ := poolSend_keeps s (paNode a) a
    exact ⟨hm.trans hm', hx.trans hx', hc.trans hc'⟩

/-! ## The classes -/

theorem fenceNm_idle {s : State} (h0 : s.c.nmPending = 0) (ho : s.openEnmsc s.cur = false) (he : s.c.nmErrors = []) : s.fenceNm = .ok s := by
  unfold State.fenceNm
  rw [if_neg (by rw [h0, ho]; decide), he]

theorem fenceNm_waits {s : State} (h0 : s.c.nmPending ≠ 0) : s.fenceNm = .error (.wait .fence s) := by
  unfold State.fenceNm
  rw [if_pos (.inl h0)]

theorem fenceNm_raises {s : State} (h0 : s.c.nmPending = 0) (ho : s.openEnmsc s.cur = false) {e : NmError} {r : List NmError}
    (he : s.c.nmErrors = e :: r) :
    s.fenceNm = .error (.trapKeep { cause := e.cause, tval := e.va, acc := 2 } (s.setC { s.c with nmErrors := r })) := by
  unfold State.fenceNm
  rw [if_neg (by rw [h0, ho]; decide), he]

/-- With no store at a port or on its way to the pool, the stores of a fence are done. -/
theorem fenceStores_idle {s : State} {scope : Nat} (hp : s.portStores s.cur = false) (hpool : 5 ≤ scope → s.c.poolStores = []) :
    ∃ t, s.fenceStores scope = .ok t ∧ t.mem = s.mem ∧ t.c.x = s.c.x ∧ t.c.v = s.c.v ∧ t.c.g = s.c.g ∧ t.locks = s.locks := by
  unfold State.fenceStores
  rw [if_neg (by rw [hp]; exact Bool.false_ne_true)]
  split
  next h5 =>
    unfold State.fencePool
    dsimp only
    rw [hpool h5]
    refine ⟨_, rfl, rfl, ?_⟩
    rw [setC_c]
    exact ⟨rfl, rfl, rfl, rfl⟩
  next => exact ⟨s, rfl, rfl, rfl, rfl, rfl, rfl⟩

theorem fenceStores_ports {s : State} {scope : Nat} (hp : s.portStores s.cur = true) : s.fenceStores scope = .error (.wait .fence s) := by
  unfold State.fenceStores
  rw [if_pos hp]

/-- A store that has not reached its device makes a fence of the pool wait. -/
theorem fenceStores_pool {s : State} {scope : Nat} (hp : s.portStores s.cur = false) (h5 : 5 ≤ scope) (hlost : s.c.poolLost = [])
    (hopen : ∃ p ∈ s.c.poolStores, (s.pkg (paNode (lineOf p.2))).poolMask (lineOf p.2) ≠ 0) :
    ∃ t, s.fenceStores scope = .error (.wait .fence t) ∧ t.mem = s.mem ∧ t.ctxs = s.ctxs ∧ t.cur = s.cur := by
  unfold State.fenceStores
  rw [if_neg (by rw [hp]; exact Bool.false_ne_true), if_pos h5]
  unfold State.fencePool
  dsimp only
  have hnone : s.c.poolStores.find? (fun p => s.c.poolLost.contains p) = none := by
    rw [hlost]
    exact List.find?_eq_none.mpr fun p _ => by simp
  rw [hnone]
  dsimp only
  obtain ⟨p, hp, hmask⟩ := hopen
  rw [if_neg (fun he => ?_)]
  · exact ⟨_, rfl, sendAll_keeps _ s⟩
  · have : lineOf p.2 ∈ (s.c.poolStores.map (fun p => lineOf p.2)).filter (fun l => (s.pkg (paNode l)).poolMask l != 0) :=
      List.mem_filter.mpr ⟨List.mem_map_of_mem hp, by simpa using hmask⟩
    rw [he] at this
    cases this

/-- The stores of a fence that are done. -/
def storesDone (c : BitVec 3) (l : BitVec 5) (k : BitVec 2) (s : State) : Res := if l.getLsbD 1 && k != 1 then s.fenceStores c.toNat else .ok s

/-- The acquire half of a fence. -/
def acquired (c : BitVec 3) (k : BitVec 2) (s : State) : State := if k ≠ 2 ∧ 2 ≤ c.toNat then s.acquire else s

section
variable {s : State} {c : BitVec 3} {l : BitVec 5} {k : BitVec 2} (hra : s.c.ra = false)
include hra

theorem fence_nm {e : Stop} (h3 : l.getLsbD 3 = true) (hnm : s.fenceNm = .error e) : exec (.fence c l k) s = finish (.fence c l k) s (.error e) := by
  change execFence c l k s = _
  unfold execFence
  rw [if_neg (by rw [hra]; exact Bool.false_ne_true), if_pos h3, hnm]
  rfl

section
variable (hnm : l.getLsbD 3 = true → s.fenceNm = .ok s)
include hnm

theorem fence_commands (heng : (l.getLsbD 2 && s.openCmds s.cur) = true) :
    exec (.fence c l k) s = finish (.fence c l k) s (.error (.wait .fence s)) := by
  change execFence c l k s = _
  unfold execFence
  rw [if_neg (by rw [hra]; exact Bool.false_ne_true)]
  dsimp only
  by_cases h3 : l.getLsbD 3 = true
  · rw [if_pos h3, hnm h3, ok_bind, if_pos heng]
    rfl
  · rw [if_neg h3, ok_bind, if_pos heng]
    rfl

/-- Past the classes NM and ENG the stores decide. -/
theorem fence_stores (heng : (l.getLsbD 2 && s.openCmds s.cur) = false) :
    (∀ t, storesDone c l k s = .ok t → exec (.fence c l k) s = finish (.fence c l k) s (.ok (acquired c k t))) ∧
    (∀ w t, storesDone c l k s = .error (.wait w t) → exec (.fence c l k) s = finish (.fence c l k) s (.error (.wait w t))) := by
  have hstart : ∀ r : Res, (if (l.getLsbD 1 && k != 1) = true then
      (match s.fenceStores c.toNat with
        | .error (.trapKeep t u) => Except.error (Stop.trapKeep t (acquired c k u))
        | r => r) >>= fun s => .ok (acquired c k s)
      else .ok (acquired c k s)) = r → exec (.fence c l k) s = finish (.fence c l k) s r := by
    intro r hr
    change execFence c l k s = _
    unfold execFence
    rw [if_neg (by rw [hra]; exact Bool.false_ne_true)]
    dsimp only
    rw [← hr]
    by_cases h3 : l.getLsbD 3 = true
    · rw [if_pos h3, hnm h3, ok_bind, if_neg (by rw [heng]; exact Bool.false_ne_true), ok_bind]
      rfl
    · rw [if_neg h3, ok_bind, if_neg (by rw [heng]; exact Bool.false_ne_true), ok_bind]
      rfl
  unfold storesDone
  refine ⟨fun t ht => hstart _ ?_, fun w t ht => hstart _ ?_⟩
  · split at ht
    next h1 =>
      rw [if_pos h1, ht]
      rfl
    next h1 =>
      rw [if_neg h1, Except.ok.inj ht]
  · split at ht
    next h1 =>
      rw [if_pos h1, ht]
      rfl
    next h1 => cases ht

end

/-- A fence whose classes have nothing outstanding completes. -/
theorem fence_completes (hnm : l.getLsbD 3 = true → s.c.nmPending = 0 ∧ s.openEnmsc s.cur = false ∧ s.c.nmErrors = [])
    (heng : l.getLsbD 2 = true → s.openCmds s.cur = false)
    (hst : l.getLsbD 1 = true → k ≠ 1 → s.portStores s.cur = false ∧ (5 ≤ c.toNat → s.c.poolStores = [])) :
    Completes (.fence c l k) s (fun t => t.mem = s.mem ∧ t.c.x = s.c.x ∧ t.c.v = s.c.v ∧ t.c.g = s.c.g ∧ t.locks = s.locks) := by
  have h2 : (l.getLsbD 2 && s.openCmds s.cur) = false := by
    cases h : l.getLsbD 2 with
    | true => exact heng h
    | false => rfl
  obtain ⟨t, ht, hm, hx, hv, hg, hl⟩ : ∃ t, storesDone c l k s = .ok t ∧ t.mem = s.mem ∧ t.c.x = s.c.x ∧ t.c.v = s.c.v ∧ t.c.g = s.c.g ∧
      t.locks = s.locks := by
    unfold storesDone
    split
    next h1 =>
      rw [Bool.and_eq_true, bne_iff_ne] at h1
      exact fenceStores_idle (hst h1.1 h1.2).1 (hst h1.1 h1.2).2
    next => exact ⟨s, rfl, rfl, rfl, rfl, rfl, rfl⟩
  refine completes_finish ((fence_stores hra (fun h3 => fenceNm_idle (hnm h3).1 (hnm h3).2.1 (hnm h3).2.2) h2).1 t ht) ?_
  rw [retire_x, retire_v, retire_g, retire_locks]
  unfold acquired
  split
  · rw [Barriers.acquire_c]
    exact ⟨(complete_mem ..).trans hm, hx, hv, hg, hl⟩
  · exact ⟨(complete_mem ..).trans hm, hx, hv, hg, hl⟩

/-- Stores that stand at a port, or that have not reached their device, make a fence of class ST wait. -/
theorem fence_st_waits {t : State} (h3 : l.getLsbD 3 = false) (h2 : l.getLsbD 2 = false) (h1 : l.getLsbD 1 = true) (hk : k ≠ 1)
    (hw : s.fenceStores c.toNat = .error (.wait .fence t)) (hm : t.mem = s.mem) (hx : t.ctxs = s.ctxs) (hc : t.cur = s.cur) :
    Waits (.fence c l k) s .fence := by
  have hdone : storesDone c l k s = .error (.wait .fence t) := by
    unfold storesDone
    rw [h1, if_pos (by simpa using hk), hw]
  refine Barriers.waits_of_finish _ _ t _ ((fence_stores hra (fun h => by rw [h3] at h; cases h) (by rw [h2]; rfl)).2 _ _ hdone) hc ?_ hm
  unfold State.c State.ctx
  rw [hx, hc]

end

/-- Settles O32: the fence that completes, and one clause for each class that does not. -/
theorem fenceWaitsForItsClasses : Obligations.FenceWaitsForItsClasses := by
  unfold Obligations.FenceWaitsForItsClasses
  intro s c l k hra
  refine ⟨fence_completes hra, fun h3 h0 => ?_, fun h3 h0 ho e r he => ?_, fun h3 h2 ho => ?_, fun h3 h2 h1 hk => ⟨fun hp => ?_, fun hp h5 hl hopen => ?_⟩⟩
  · exact Barriers.waits_of_finish _ s s _ (fence_nm hra h3 (fenceNm_waits h0)) rfl rfl rfl
  · exact fence_nm hra h3 (fenceNm_raises h0 ho he)
  · exact Barriers.waits_of_finish _ s s _ (fence_commands hra (fun h => by rw [h3] at h; cases h) (by rw [h2, ho]; rfl)) rfl rfl rfl
  · exact fence_st_waits hra h3 h2 h1 hk (fenceStores_ports hp) rfl rfl rfl
  · obtain ⟨t, ht, hm, hx, hc⟩ := fenceStores_pool hp h5 hl hopen
    exact fence_st_waits hra h3 h2 h1 hk ht hm hx hc

end Sys2Proof.Fences
end

section
/-! Coherence objects: SHAPE, OBJMODE and OBJREL. -/

namespace Sys2Proof.CohObjects
set_option Elab.async false
open Sys2Proof Sys2Proof.Machine Sys2Proof.Safety Sys2Proof.Ends Sys2Proof.Access
open Sys2Proof.MemoryOps (ok_bind)

/-! ## Recalls and drops -/

theorem quiet_mapCores (s : State) (g : Nat × Nat → CoreSt → CoreSt) (hg : ∀ k q, CoreKept q (g k q)) (hd : ∀ k, g k CoreSt.reset = CoreSt.reset) :
    Quiet s { s with cores := tmap s.cores g } := by
  refine ⟨rfl, fun n k => ?_⟩
  rw [show ({ s with cores := tmap s.cores g } : State).core n k = tget CoreSt.reset (tmap s.cores g) (n, k) from rfl, tget_tmap _ _ _ _ (hd _)]
  exact hg ..

theorem quiet_recallObj (s : State) (node die : Nat) (o : CohObj) : Quiet s (s.recallObj node die o) := by
  have h1 : Quiet s ((s.linesIn (fun n d => n == node && d == die) o.covers).foldl (fun s h => s.dropLine h.1 h.2.1 h.2.2.1 h.2.2.2 true) s) :=
    quiet_foldl _ (fun _ _ => quiet_dropLine ..) _ s
  refine h1.trans (quiet_mapCores _ _ (fun k q => ?_) (fun k => ?_))
  · split
    · exact coreKept_forget ..
    · exact rfl
  · split <;> rfl

theorem quiet_dropObjLines (s : State) (node die h : Nat) : Quiet s (s.dropObjLines node die h) := quiet_of_cores rfl rfl

/-- The copies of an object's lines, and what directories say of them, have gone. -/
def copiesGone (s : State) (o : CohObj) (h : Nat) : State :=
  (s.recallObj s.fnode (s.fcore / 256) o).dropObjLines s.fnode (s.fcore / 256) h

theorem quiet_copiesGone (s : State) (o : CohObj) (h : Nat) : Quiet s (copiesGone s o h) := (quiet_recallObj ..).trans (quiet_dropObjLines ..)

/-! ## Ends -/

/-- The completion with the result `v` in X(d) after the state was made `u`. -/
theorem completes_result {i : Instr} {s u : State} {d : Reg} {v : Word} {P : State → Prop} (hex : exec i s = finish i s (.ok (u.setX d v)))
    (hx : u.c.x = s.c.x) (hP : ∀ t, t.mem = u.mem → t.dies = u.dies → XIs s t d v → P t) : Completes i s P :=
  completes_finish hex (hP _ (complete_mem ..) rfl (xIs_congr hx (xIs_retire_setX u i d v)))

theorem die_of_dies {s t : State} (h : t.dies = s.dies) (n k : Nat) : t.die n k = s.die n k := by
  unfold State.die
  rw [h]

/-- The die's table of objects was replaced after copies alone had changed. -/
theorem completes_objs {i : Instr} {s u w : State} {die : Nat} {d : Reg} {v : Word} {P : State → Prop} {t' : Tab Nat CohObj} (hq : Quiet u w)
    (hx : u.c.x = s.c.x) (hn : u.fnode = s.fnode)
    (hex : exec i s = finish i s (.ok ((w.setDie w.fnode die { w.die w.fnode die with objs := t' }).setX d v)))
    (hP : ∀ t, t.mem = u.mem → (t.die s.fnode die).objs = t' → XIs s t d v → P t) : Completes i s P := by
  have hw : Quiet w (w.setDie w.fnode die { w.die w.fnode die with objs := t' }) := quiet_setDie ..
  refine completes_result hex ?_ (fun t hm hd hx => hP t ?_ ?_ hx)
  · rw [(hq.trans hw).c, hx]
  · rw [hm, (hq.trans hw).1]
  · have : t.die s.fnode die = (w.setDie w.fnode die { w.die w.fnode die with objs := t' }).die s.fnode die := die_of_dies hd ..
    rw [this, hq.fnode, hn, setDie_die_same]

/-! ## SHAPE -/

section
variable {s u : State} {d a : Reg} {rec : Nat} (hra : s.c.ra = false) (hrec : s.readRecord (s.X a).toNat = .ok (u, rec)) (hcur : u.cur = s.cur)
  (hc : u.c = { s.c with surveyed := u.c.surveyed })

theorem meets_none {lo hi : Nat} {q : DieSt} {as : BitVec 16} (hm : ∀ e ∈ q.objs, e.2.asid = as → coversMeet e.2.lo e.2.hi lo hi = false) :
    ¬ q.objs.any (fun e => e.2.asid == as && coversMeet e.2.lo e.2.hi lo hi) = true := by
  rw [List.any_eq_true]
  rintro ⟨e, he, hec⟩
  rw [Bool.and_eq_true, beq_iff_eq] at hec
  rw [hm e he hec.1] at hec
  exact Bool.false_ne_true hec.2

include hra hrec hcur hc

theorem exec_shape : exec (.shape d a) s = finish (.shape d a) s (match shapeCover rec with
    | none => .ok (u.setX d 0x8000000000000003)
    | some (lo, hi) =>
      if (u.die s.fnode (s.fcore / 256)).objs.any (fun e => e.2.asid == s.c.asid && coversMeet e.2.lo e.2.hi lo hi) then .ok (u.setX d 0x8000000000000002)
      else match (u.die s.fnode (s.fcore / 256)).freeObj with
        | none => .ok (u.setX d 0x8000000000000001)
        | some k =>
          let o : CohObj := ⟨s.c.asid, lo, hi, fieldN rec 80 8, fieldN rec 96 16, 0⟩
          let w := u.recallObj s.fnode (s.fcore / 256) o
          .ok ((w.setDie w.fnode (s.fcore / 256) { w.die w.fnode (s.fcore / 256) with
            objs := tset (u.die s.fnode (s.fcore / 256)).objs k o }).setX d (BitVec.ofNat 64 k))) := by
  have hn : s.fnode = u.fnode := (congrArg CtxId.node hcur).symm
  have hk : s.fcore = u.fcore := (congrArg CtxId.core hcur).symm
  have ha : s.c.asid = u.c.asid := by rw [hc]
  show execShape d a s = _
  unfold execShape
  rw [if_neg (by rw [hra]; decide), hrec, ok_bind, hn, hk, ha] <;>
    (dsimp only
     cases shapeCover rec with
     | none => rfl
     | some p =>
       dsimp only
       cases (u.die u.fnode (u.fcore / 256)).freeObj <;> rfl)

theorem shape_malformed (h : shapeCover rec = none) :
    Completes (.shape d a) s (fun t => t.mem = u.mem ∧ t.dies = u.dies ∧ XIs s t d 0x8000000000000003) := by
  refine completes_result ((exec_shape hra hrec hcur hc).trans ?_) (by rw [hc]) (fun t hm hd hx => ⟨hm, hd, hx⟩)
  rw [h]

theorem shape_meets {lo hi : Nat} (h : shapeCover rec = some (lo, hi))
    (hm : ∃ e ∈ (u.die s.fnode (s.fcore / 256)).objs, e.2.asid = s.c.asid ∧ coversMeet e.2.lo e.2.hi lo hi = true) :
    Completes (.shape d a) s (fun t => t.mem = u.mem ∧ t.dies = u.dies ∧ XIs s t d 0x8000000000000002) := by
  refine completes_result ((exec_shape hra hrec hcur hc).trans ?_) (by rw [hc]) (fun t hm hd hx => ⟨hm, hd, hx⟩)
  obtain ⟨e, he, hea, hec⟩ := hm
  rw [h]
  dsimp only
  rw [if_pos]
  rw [List.any_eq_true]
  exact ⟨e, he, by rw [hea, hec, beq_self_eq_true]; rfl⟩

theorem shape_full {lo hi : Nat} (h : shapeCover rec = some (lo, hi))
    (hm : ∀ e ∈ (u.die s.fnode (s.fcore / 256)).objs, e.2.asid = s.c.asid → coversMeet e.2.lo e.2.hi lo hi = false)
    (hf : (u.die s.fnode (s.fcore / 256)).freeObj = none) :
    Completes (.shape d a) s (fun t => t.mem = u.mem ∧ t.dies = u.dies ∧ XIs s t d 0x8000000000000001) := by
  refine completes_result ((exec_shape hra hrec hcur hc).trans ?_) (by rw [hc]) (fun t hm hd hx => ⟨hm, hd, hx⟩)
  rw [h]
  dsimp only
  rw [if_neg (meets_none hm), hf]

theorem shape_makes {lo hi k : Nat} (h : shapeCover rec = some (lo, hi))
    (hm : ∀ e ∈ (u.die s.fnode (s.fcore / 256)).objs, e.2.asid = s.c.asid → coversMeet e.2.lo e.2.hi lo hi = false)
    (hf : (u.die s.fnode (s.fcore / 256)).freeObj = some k) :
    Completes (.shape d a) s (fun t => t.mem = u.mem ∧ XIs s t d (BitVec.ofNat 64 k) ∧
      tfind (t.die s.fnode (s.fcore / 256)).objs k = some ⟨s.c.asid, lo, hi, fieldN rec 80 8, fieldN rec 96 16, 0⟩) := by
  refine completes_objs (die := s.fcore / 256) (quiet_recallObj u s.fnode (s.fcore / 256) ⟨s.c.asid, lo, hi, fieldN rec 80 8, fieldN rec 96 16, 0⟩)
    (by rw [hc]) (congrArg CtxId.node hcur) ((exec_shape hra hrec hcur hc).trans ?_) (t' := tset (u.die s.fnode (s.fcore / 256)).objs k _)
    (fun t hm ho hx => ⟨hm, hx, by rw [ho, tfind_tset_same]⟩)
  rw [h]
  dsimp only
  rw [if_neg (meets_none hm), hf]

end

/-! ## OBJREL and OBJMODE -/

section
variable {s : State} {d a m : Reg} (hra : s.c.ra = false)

theorem objOf_live {h : Word} {o : CohObj} (hl : h.toNat < 4096) (hf : tfind (s.die s.fnode (s.fcore / 256)).objs h.toNat = some o)
    (ho : o.asid = s.c.asid) : s.objOf h = some o := by
  unfold State.objOf
  rw [if_neg (by omega), hf]
  dsimp only
  rw [if_pos ho]

theorem objOf_none {h : Word} (hf : ∀ o, h.toNat < 4096 → tfind (s.die s.fnode (s.fcore / 256)).objs h.toNat = some o → o.asid ≠ s.c.asid) :
    s.objOf h = none := by
  unfold State.objOf
  split
  · rfl
  next hl =>
    cases ht : tfind (s.die s.fnode (s.fcore / 256)).objs h.toNat with
    | none => rfl
    | some o => exact if_neg (hf o (by omega) ht)

theorem fieldW_mode (w : Word) : (fieldW w 2 6 ≠ 0 ∨ fieldW w 16 48 ≠ 0) ↔ (w.toNat / 2 ^ 16 ≠ 0 ∨ 4 ≤ w.toNat % 256) := by
  have := w.isLt
  unfold fieldW fieldN
  omega

include hra

theorem objrel_stale (h : s.objOf (s.X a) = none) : Completes (.objrel d a) s (ResultX d 1 s) := by
  refine completes_setX ((show _ = execObjrel d a s from rfl).trans ?_)
  unfold execObjrel
  rw [if_neg (by rw [hra]; decide), h]

theorem objmode_stale (h : s.objOf (s.X a) = none) : Completes (.objmode d a m) s (ResultX d 1 s) := by
  refine completes_setX ((show _ = execObjmode d a m s from rfl).trans ?_)
  unfold execObjmode
  rw [if_neg (by rw [hra]; decide), h]

theorem objrel_frees {o : CohObj} (h : s.objOf (s.X a) = some o) :
    Completes (.objrel d a) s (fun t => t.mem = s.mem ∧ XIs s t d 0 ∧ tfind (t.die s.fnode (s.fcore / 256)).objs (s.X a).toNat = none) := by
  refine completes_objs (die := s.fcore / 256) (quiet_copiesGone s o (s.X a).toNat) rfl rfl ((show _ = execObjrel d a s from rfl).trans ?_)
    (t' := tdel ((copiesGone s o (s.X a).toNat).die (copiesGone s o (s.X a).toNat).fnode (s.fcore / 256)).objs (s.X a).toNat) (fun t hm ho hx => ⟨hm, hx, by rw [ho, tfind_tdel_same]⟩)
  unfold execObjrel
  rw [if_neg (by rw [hra]; decide), h]
  rfl

theorem objmode_illegal {o : CohObj} (h : s.objOf (s.X a) = some o) (hw : (s.X m).toNat / 2 ^ 16 ≠ 0 ∨ 4 ≤ (s.X m).toNat % 256) :
    Completes (.objmode d a m) s (ResultX d 2 s) := by
  refine completes_setX ((show _ = execObjmode d a m s from rfl).trans ?_)
  unfold execObjmode
  rw [if_neg (by rw [hra]; decide), h]
  dsimp only
  rw [if_pos ((fieldW_mode _).mpr hw)]

theorem objmode_sets {o : CohObj} (h : s.objOf (s.X a) = some o) (h16 : (s.X m).toNat / 2 ^ 16 = 0) (h8 : (s.X m).toNat % 256 < 4) :
    Completes (.objmode d a m) s (fun t => t.mem = s.mem ∧ XIs s t d 0 ∧ tfind (t.die s.fnode (s.fcore / 256)).objs (s.X a).toNat =
      some { o with mode := (s.X m).toNat % 4, owner := (s.X m).toNat / 256, cores := 0 }) := by
  have hmode : fieldW (s.X m) 0 2 = (s.X m).toNat % 4 := by unfold fieldW fieldN; omega
  have howner : fieldW (s.X m) 8 8 = (s.X m).toNat / 256 := by unfold fieldW fieldN; omega
  refine completes_objs (die := s.fcore / 256) (quiet_copiesGone s o (s.X a).toNat) rfl rfl ((show _ = execObjmode d a m s from rfl).trans ?_)
    (t' := tset ((copiesGone s o (s.X a).toNat).die (copiesGone s o (s.X a).toNat).fnode (s.fcore / 256)).objs (s.X a).toNat { o with mode := (s.X m).toNat % 4, owner := (s.X m).toNat / 256, cores := 0 })
    (fun t hm ho hx => ⟨hm, hx, by rw [ho, tfind_tset_same]⟩)
  unfold execObjmode
  rw [if_neg (by rw [hra]; decide), h]
  dsimp only
  rw [if_neg (by rw [fieldW_mode]; omega), hmode, howner]
  rfl

end

/-- Settles O34: SHAPE by the coverage and the table, OBJREL and OBJMODE by the object that the handle names. -/
theorem coherenceObjectsAreMadeAndReleased : Obligations.CoherenceObjectsAreMadeAndReleased := by
  intro s d a m hra
  refine ⟨fun u rec hrec hcur hc => ⟨shape_malformed hra hrec hcur hc, fun lo hi h => ⟨shape_meets hra hrec hcur hc h, fun hm =>
    ⟨shape_full hra hrec hcur hc h hm, fun k => shape_makes hra hrec hcur hc h hm⟩⟩⟩, fun o hl hf ho => ?_, fun hf => ?_⟩
  · have h := objOf_live hl hf ho
    exact ⟨objrel_frees hra h, objmode_sets hra h, objmode_illegal hra h⟩
  · have h := objOf_none hf
    exact ⟨objrel_stale hra h, objmode_stale hra h⟩

end Sys2Proof.CohObjects
end

section
/-! Line locks: acquires, releases and LKSTAT. -/

namespace Sys2Proof.LineLocks
set_option Elab.async false
open Sys2Proof Sys2Proof.Machine Sys2Proof.Safety Sys2Proof.Ends Sys2Proof.Access
open Sys2Proof.MemoryOps (ok_bind)

/-! ## The lock of a line -/

theorem setLock_lock {l : Lock} (s : State) (line : Nat) (h : l.holder.isSome = true) : (s.setLock line l).lock line = l := by
  unfold State.setLock State.lock
  rw [if_neg]
  · exact tget_tset_same ..
  · rintro ⟨hn, -⟩
    rw [Option.isNone_iff_eq_none] at hn
    rw [hn] at h
    exact Bool.false_ne_true h

theorem setLock_holder (s : State) (line : Nat) (l : Lock) : ((s.setLock line l).lock line).holder = l.holder := by
  unfold State.setLock State.lock
  dsimp only
  split
  next h => rw [tget_tdel_same, Option.isNone_iff_eq_none.mp h.1]; rfl
  next => rw [tget_tset_same]

theorem setLock_locks_some {l : Lock} (s : State) (line : Nat) (h : l.holder.isSome = true) : (s.setLock line l).locks = tset s.locks line l := by
  unfold State.setLock
  refine if_neg ?_
  rintro ⟨hn, -⟩
  rw [Option.isNone_iff_eq_none] at hn
  rw [hn] at h
  exact Bool.false_ne_true h

theorem lock_of_locks {s t : State} (h : t.locks = s.locks) (line : Nat) : t.lock line = s.lock line := by
  unfold State.lock
  rw [h]

theorem held_of_locks {s t : State} (h : t.locks = s.locks) (id : CtxId) : t.held id = s.held id := by
  unfold State.held State.heldLocks
  rw [h]

theorem tset_of_none {κ α : Type} [DecidableEq κ] (t : Tab κ α) (k : κ) (a : α) (h : tfind t k = none) : tset t k a = t ++ [(k, a)] := by
  induction t with
  | nil => rfl
  | cons e r ih =>
    obtain ⟨j, b⟩ := e
    unfold tfind at h
    unfold tset
    split at h
    · cases h
    next hne =>
      rw [if_neg hne, ih h]
      rfl

theorem any_tset {κ α : Type} [DecidableEq κ] (t : Tab κ α) (k : κ) (a : α) (p : κ × α → Bool) (hp : ∀ b, p (k, b) = false) :
    (tset t k a).any p = t.any p := by
  induction t with
  | nil =>
    show (p (k, a) || false) = false
    rw [hp]
    rfl
  | cons e r ih =>
    obtain ⟨j, b⟩ := e
    unfold tset
    split
    next h => rw [List.any_cons, List.any_cons, h, hp, hp]
    next => rw [List.any_cons, List.any_cons, ih]

/-! ## The place of a lock -/

theorem lineOf_lineOf (a : Nat) : lineOf (lineOf a) = lineOf a := by
  unfold lineOf
  omega

theorem paNode_lineOf (a : Nat) : paNode (lineOf a) = paNode a := by
  unfold paNode lineOf fieldN
  omega

/-- A place that has passed its tests is in a package that is not cut off. -/
theorem lockPlace_reached {s u : State} {va : Nat} {a : Acc} {x : Xlated} (h : s.lockPlace va a = .ok (u, x)) :
    u.cutOff u.fnode (paNode (lineOf x.pa)) = false := by
  unfold State.lockPlace raiseAcc at h
  dsimp only at h
  split at h
  · cases h
  · split at h
    · cases h
    · cases ht : s.translate s.req va a with
      | error e => rw [ht] at h; cases h
      | ok p =>
        obtain ⟨t, y⟩ := p
        rw [ht, ok_bind] at h
        dsimp only at h
        split at h
        · cases h
        · split at h
          · cases h
          · split at h
            · cases h
            next hcut =>
              cases h
              rw [paNode_lineOf]
              exact Bool.eq_false_iff.mpr hcut

theorem frozen_migrating {s : State} {line : Nat} (h : s.migrating line = false) : s.frozen line = false := by
  unfold State.migrating at h
  unfold State.frozen
  rw [List.any_eq_false] at h ⊢
  intro m hm
  have := h m hm
  cases hs : m.switched <;> simp_all

/-! ## Copies of the line -/

theorem quiet_lockFill (s : State) (r : LockReq) : Quiet s (s.lockFill r) := by
  unfold State.lockFill
  dsimp only
  have own : ∀ (k : Option Keep) (d : State → BitVec 64), Quiet s ((s.recall r.line k).l1fill s.req.id.node s.req.id.core s.req.asid (fieldN r.va 6 50) r.line
      .owned (d (s.recall r.line k)) r.entry 0) := fun k d => (quiet_recall ..).trans (quiet_l1fill ..)
  split
  · exact .refl s
  · split
    · exact own _ (fun s => match (s.core _ _).l1find _ _ with | some l => l.dirty | none => 0)
    · split
      · exact quiet_fillLoad ..
      · split
        · exact own _ (fun s => match (s.core _ _).l1find _ _ with | some l => l.dirty | none => 0)
        · exact .refl s

theorem quiet_acquire (s : State) : Quiet s s.acquire := quiet_setCore _ _ _ (coreKept_forget ..)

/-! ## A request that has been sent -/

/-- The issuing context's lock request stands. -/
def sent (u : State) (r : LockReq) : State := u.setCtx u.cur { u.ctx u.cur with lockReq := some r }

theorem sent_ctx (u : State) (r : LockReq) : (sent u r).ctx u.cur = { u.ctx u.cur with lockReq := some r } := setCtx_ctx_same ..

theorem sent_behind (u : State) (r : LockReq) (line : Nat) : (sent u r).behind u.cur line = u.behind u.cur line := by
  unfold State.behind State.behindAt
  have ht : ((sent u r).tryOf (ownReq u.cur)).arrived = (u.tryOf (ownReq u.cur)).arrived := by
    show ((sent u r).ctx u.cur).arrived = (u.ctx u.cur).arrived
    rw [sent_ctx]
  rw [ht]
  refine congrArg (· || _) (any_tset _ _ _ _ fun b => ?_)
  show ((!(!false && u.cur == u.cur)) && _ && _) = false
  rw [beq_self_eq_true]
  rfl

theorem sent_lockHeld (u : State) (r : LockReq) (line : Nat) : (sent u r).lockHeld u.cur line = u.lockHeld u.cur line :=
  congrArg (u.migrating line || u.nmHolds line || (u.lock line).rel.isSome || ·) (sent_behind u r line)

/-- The request as the home sees it. -/
def asked (s : State) (a : Reg) (x : Xlated) (sc t : Nat) (wait : Bool) : LockReq :=
  ⟨lineOf x.pa, sc, if wait then t else lkTryMark, (s.X a).toNat, x.cls, x.entry⟩

section
variable {s u : State} {d a : Reg} {x : Xlated} {sc t : Nat} {wait : Bool}

/-- A context that is in no queue sends its request. -/
theorem lockAcquire_sends (hp : s.lockPlace (s.X a).toNat accAtomic = .ok (u, x)) (hreq : s.c.lockReq = none) (hcur : u.cur = s.cur)
    (hme : (u.lock (lineOf x.pa)).holder ≠ some s.cur) (hlim : u.held s.cur < 4) :
    s.lockAcquire d (s.X a).toNat sc t wait = (sent u (asked s a x sc t wait)).lockGo d (asked s a x sc t wait) wait := by
  unfold State.lockAcquire State.lockNew
  dsimp only
  rw [hreq]
  dsimp only
  rw [hp, ok_bind]
  dsimp only
  rw [if_neg hme, if_neg (by omega), ← hcur]
  rfl

theorem sent_reply {r : LockReq} (hc : u.c = { s.c with surveyed := u.c.surveyed }) (hreply : s.c.lockReply = none) :
    ((sent u r).ctx (sent u r).cur).lockReply = none := by
  rw [show (sent u r).cur = u.cur from rfl, sent_ctx]
  show u.c.lockReply = none
  rw [hc]
  exact hreply

theorem sent_queue {r : LockReq} (hcur : u.cur = s.cur) (hw : u.waitsFor s.cur = none) : (sent u r).waitsFor (sent u r).cur = none := by
  rw [show (sent u r).cur = s.cur from hcur]
  exact hw

/-- The status that the home gave at once. -/
theorem lockGo_answered {v : State} {r : LockReq} {st : Nat} (hreply : (v.ctx v.cur).lockReply = none) (hw : v.waitsFor v.cur = none)
    {line : Nat} (ha : ((v.lockAccept v.cur r wait).ctx v.cur).lockReply = some (line, st)) :
    v.lockGo d r wait = (v.lockAccept v.cur r wait).lockDone d r st := by
  unfold State.lockGo
  dsimp only
  rw [hreply]
  dsimp only
  rw [hw, if_neg (by exact Bool.false_ne_true), ha]

theorem lockGo_waits {v : State} {r : LockReq} (hreply : (v.ctx v.cur).lockReply = none) (hw : v.waitsFor v.cur = none)
    (ha : ((v.lockAccept v.cur r wait).ctx v.cur).lockReply = none) :
    v.lockGo d r wait = .error (.wait .lock (v.lockAccept v.cur r wait)) := by
  unfold State.lockGo
  dsimp only
  rw [hreply]
  dsimp only
  rw [hw, if_neg (by exact Bool.false_ne_true), ha]

end

/-! ## What the home makes of a request -/

/-- A waiter has joined the line's queue. -/
def enqueued (v : State) (id : CtxId) (line : Nat) (w : Waiter) : State :=
  let s := v.setLock line { v.lock line with waiters := (v.lock line).waiters ++ [w] }
  s.setCtx id { s.ctx id with arrived := none }

theorem enqueued_lock (v : State) (id : CtxId) {line : Nat} (w : Waiter) {h : CtxId} (hh : (v.lock line).holder = some h) :
    (enqueued v id line w).lock line = { v.lock line with waiters := (v.lock line).waiters ++ [w] } := by
  refine (lock_of_locks (s := v.setLock line { v.lock line with waiters := (v.lock line).waiters ++ [w] }) rfl _).trans (setLock_lock _ _ ?_)
  rw [hh]
  rfl

theorem enqueued_reply (v : State) (id : CtxId) (line : Nat) (w : Waiter) : ((enqueued v id line w).ctx id).lockReply = (v.ctx id).lockReply := by
  unfold enqueued
  rw [setCtx_ctx_same]
  rfl

section
variable {v : State} {id : CtxId} {r : LockReq} {wait : Bool} (hcut : v.cutOff id.node (paNode r.line) = false) (hheld : v.lockHeld id r.line = false)
include hcut hheld

theorem accept_scope {h : CtxId} (hh : (v.lock r.line).holder = some h)
    (hs : (v.lock r.line).scope ≠ r.scope ∨ inDomain (v.lock r.line).scope (v.lock r.line).owner id = false) :
    v.lockAccept id r wait = v.lockReplyTo id r.line lkScope := by
  unfold State.lockAccept
  dsimp only
  rw [hcut, if_neg Bool.false_ne_true, hheld, if_neg Bool.false_ne_true, hh, if_pos]
  refine (Bool.and_eq_true ..).mpr ⟨rfl, ?_⟩
  rw [Bool.or_eq_true, bne_iff_ne, Bool.not_eq_true']
  exact hs

/-- The scope fits a lock that has a holder. -/
theorem accept_fits {h : CtxId} (hh : (v.lock r.line).holder = some h) (hs : (v.lock r.line).scope = r.scope)
    (hd : inDomain (v.lock r.line).scope (v.lock r.line).owner id = true) :
    v.lockAccept id r wait = if !wait then v.lockReplyTo id r.line lkTimeout else if !v.waiterRoom r.line then v else
      enqueued v id r.line ⟨id, (v.ctx id).gen, false, false, v.cycle (paNode r.line), r.t⟩ := by
  have hroom : v.entryRoom r.line = true := by
    unfold State.entryRoom
    cases hf : tfind v.locks r.line with
    | none =>
      have : v.lock r.line = Lock.none := by unfold State.lock tget; rw [hf]; rfl
      rw [this] at hh
      cases hh
    | some l => rfl
  unfold State.lockAccept
  dsimp only
  rw [hcut, if_neg Bool.false_ne_true, hheld, if_neg Bool.false_ne_true,
    if_neg (by rw [hd, hs, bne_self_eq_false, Bool.not_true, Bool.or_self, Bool.and_false]; exact Bool.false_ne_true),
    if_neg (by rw [hroom]; exact Bool.false_ne_true), if_neg (by rw [hh]; exact Bool.false_ne_true)]
  rfl

theorem accept_grants (hnone : tfind v.locks r.line = none) (hroom : v.entryRoom r.line = true) (hlost : v.isLost r.line = false) :
    v.lockAccept id r wait = (v.giveLock r.line id r.scope Lock.none true).lockReplyTo id r.line lkOk := by
  have hl : v.lock r.line = Lock.none := by unfold State.lock tget; rw [hnone]; rfl
  unfold State.lockAccept
  dsimp only
  rw [hcut, if_neg Bool.false_ne_true, hheld, if_neg Bool.false_ne_true, hl, hroom, hlost]
  rfl

end

/-! ## The ends of an acquire -/

/-- A wait of the lock's queue stalls the slot. -/
theorem stalls_locks {i : Instr} {s u : State} {w : Wait} (he : exec i s = finish i s (.error (.wait w u))) (hcur : u.cur = s.cur) :
    ∃ t, exec i s = .next t ∧ (t.ctx s.cur).st = .stalled ∧ (t.ctx s.cur).wait = some w ∧ t.locks = u.locks := by
  obtain ⟨hst, hw, -⟩ := Barriers.stall_ctx (u.holdWords i) w
  rw [Barriers.holdWords_cur, hcur] at hst hw
  refine ⟨_, he, hst, hw, ?_⟩
  change (u.holdWords i).locks = u.locks
  unfold State.holdWords
  split <;> rfl


section
variable {i : Instr} {s u : State} {d a : Reg} {x : Xlated} {sc t : Nat} {wait : Bool}
  (hex : exec i s = finish i s (s.lockAcquire d (s.X a).toNat sc t wait)) (hcur : u.cur = s.cur) (hc : u.c = { s.c with surveyed := u.c.surveyed })
  (hplace : s.lockPlace (s.X a).toNat accAtomic = .ok (u, x)) (hreq : s.c.lockReq = none) (hreply : s.c.lockReply = none)
  (hwaits : u.waitsFor s.cur = none)

theorem lockResult_completes {w : State} {h st : Nat} {P : State → Prop} (hex : exec i s = finish i s (.ok (w.lockResult d st))) (hx : w.c.x = s.c.x)
    (hh : w.held w.cur = h) (hP : ∀ t, t.mem = w.mem → t.locks = w.locks → t.c.holdBreaks = w.c.holdBreaks →
      XIs s t d (BitVec.ofNat 64 (h % 16 * 16 + st)) → P t) : Completes i s P := by
  unfold State.lockResult at hex
  rw [hh] at hex
  refine completes_finish hex (hP _ ?_ rfl ?_ (xIs_congr hx (xIs_retire_setX w i d _)))
  · exact complete_mem ..
  · rw [retire_holdBreaks, setX_c]
    unfold Ctx.setX
    split <;> rfl

include hex hcur hc hplace hreq

theorem acquire_deadlock (hh : (u.lock (lineOf x.pa)).holder = some s.cur) :
    Completes i s (fun t => t.locks = u.locks ∧ t.mem = u.mem ∧ XIs s t d (BitVec.ofNat 64 (u.held s.cur % 16 * 16 + 4))) := by
  refine lockResult_completes (w := u) (d := d) (st := 4) (h := u.held s.cur) (hex.trans ?_) (by rw [hc]) (by rw [hcur])
    (fun t hm hl _ hx => ⟨hl, hm, hx⟩)
  unfold State.lockAcquire State.lockNew
  dsimp only
  rw [hreq]
  dsimp only
  rw [hplace, ok_bind]
  dsimp only
  rw [if_pos hh]

theorem acquire_limit (hh : (u.lock (lineOf x.pa)).holder ≠ some s.cur) (hlim : 4 ≤ u.held s.cur) :
    Completes i s (fun t => t.locks = u.locks ∧ t.mem = u.mem ∧ XIs s t d (BitVec.ofNat 64 (u.held s.cur % 16 * 16 + 6))) := by
  refine lockResult_completes (w := u) (d := d) (st := 6) (h := u.held s.cur) (hex.trans ?_) (by rw [hc]) (by rw [hcur])
    (fun t hm hl _ hx => ⟨hl, hm, hx⟩)
  unfold State.lockAcquire State.lockNew
  dsimp only
  rw [hreq]
  dsimp only
  rw [hplace, ok_bind]
  dsimp only
  rw [if_neg hh, if_pos hlim]

include hreply hwaits

/-- The home's answer ends the attempt. -/
theorem acquire_answered (hme : (u.lock (lineOf x.pa)).holder ≠ some s.cur) (hlim : u.held s.cur < 4) {w : State} {st : Nat}
    (ha : (sent u (asked s a x sc t wait)).lockAccept s.cur (asked s a x sc t wait) wait = w.lockReplyTo s.cur (lineOf x.pa) st) :
    exec i s = finish i s ((w.lockReplyTo s.cur (lineOf x.pa) st).lockDone d (asked s a x sc t wait) st) := by
  refine hex.trans (congrArg (finish i s) ?_)
  rw [lockAcquire_sends hplace hreq hcur hme hlim]
  have hvc : (sent u (asked s a x sc t wait)).cur = s.cur := hcur
  refine (lockGo_answered (sent_reply hc hreply) (sent_queue hcur hwaits) (line := lineOf x.pa) (st := st) ?_).trans ?_
  · rw [hvc, ha]
    unfold State.lockReplyTo
    rw [setCtx_ctx_same]
  · rw [hvc, ha]

/-- A status other than OK, BROKEN and LOST that came at once. -/
theorem acquire_refused (hme : (u.lock (lineOf x.pa)).holder ≠ some s.cur) (hlim : u.held s.cur < 4) {st : Nat} (h8 : st ≠ lkLost)
    (h0 : ¬ (st = lkOk ∨ st = lkBroken))
    (ha : (sent u (asked s a x sc t wait)).lockAccept s.cur (asked s a x sc t wait) wait =
      (sent u (asked s a x sc t wait)).lockReplyTo s.cur (lineOf x.pa) st) :
    Completes i s (fun t => t.locks = u.locks ∧ XIs s t d (BitVec.ofNat 64 (u.held s.cur % 16 * 16 + st))) := by
  have he := acquire_answered hex hcur hc hplace hreq hreply hwaits hme hlim ha
  refine lockResult_completes (w := (sent u (asked s a x sc t wait)).lockReplyTo s.cur (lineOf x.pa) st) (d := d) (st := st) (h := u.held s.cur)
    (he.trans ?_) ?_ ?_ (fun t hm hl _ hx => ⟨hl, hx⟩)
  · unfold State.lockDone
    rw [if_neg h8, if_neg h0]
  · show (((sent u (asked s a x sc t wait)).lockReplyTo s.cur (lineOf x.pa) st).ctx u.cur).x = s.c.x
    rw [← hcur]
    unfold State.lockReplyTo
    rw [setCtx_ctx_same, sent_ctx]
    show u.c.x = s.c.x
    rw [hc]
  · show u.held u.cur = u.held s.cur
    rw [hcur]

section
variable (hheld : u.lockHeld s.cur (lineOf x.pa) = false) (hlim : u.held s.cur < 4)
include hheld hlim

omit hex hc hreq hreply hwaits hlim in
theorem sent_ready : (sent u (asked s a x sc t wait)).cutOff s.cur.node (paNode (asked s a x sc t wait).line) = false ∧
    (sent u (asked s a x sc t wait)).lockHeld s.cur (asked s a x sc t wait).line = false := by
  refine ⟨?_, ?_⟩
  · rw [← hcur]
    exact (lockPlace_reached hplace : u.cutOff u.fnode (paNode (lineOf x.pa)) = false)
  · rw [← hcur, sent_lockHeld, hcur]
    exact hheld

theorem acquire_scope {h : CtxId} (hh : (u.lock (lineOf x.pa)).holder = some h) (hne : h ≠ s.cur)
    (hs : (u.lock (lineOf x.pa)).scope ≠ sc ∨ inDomain (u.lock (lineOf x.pa)).scope (u.lock (lineOf x.pa)).owner s.cur = false) :
    Completes i s (fun t => t.locks = u.locks ∧ XIs s t d (BitVec.ofNat 64 (u.held s.cur % 16 * 16 + 5))) := by
  obtain ⟨hcut, hv⟩ := sent_ready (sc := sc) (t := t) (wait := wait) hcur hplace hheld
  exact acquire_refused hex hcur hc hplace hreq hreply hwaits (by rw [hh]; exact fun e => hne (Option.some.inj e)) hlim (st := 5) (by decide) (by decide)
    (accept_scope hcut hv hh hs)

/-- The lock that a first acquire takes. -/
def taken (v : State) (id : CtxId) (sc : Nat) : Lock :=
  { Lock.none with holder := some id, broken := false, rel := none, limit := (v.core id.node id.core).hold.toNat, scope := sc, owner := id }

omit hex hcur hc hplace hreq hreply hwaits hheld hlim in
theorem giveLock_facts (v : State) (line : Nat) (id : CtxId) (sc : Nat) :
    ((v.giveLock line id sc Lock.none true).lockReplyTo id line lkOk).locks = tset v.locks line (taken v id sc) ∧
    (((v.giveLock line id sc Lock.none true).lockReplyTo id line lkOk).ctx id).x = (v.ctx id).x := by
  refine ⟨rfl, ?_⟩
  unfold State.giveLock State.lockReplyTo
  dsimp only
  rw [setCtx_ctx_same, setCtx_ctx_same]
  rfl

omit hex hcur hc hplace hreq hreply hwaits hheld hlim in
/-- A granted request brings the line. -/
theorem lockDone_ok {y : State} {r : LockReq} (hn : y.nmHolds r.line = false) (hf : y.frozen r.line = false) :
    ∃ z, Quiet y z ∧ y.lockDone d r lkOk = .ok (z.lockResult d lkOk) := by
  refine ⟨if 2 ≤ ((y.lockFill r).lock r.line).scope then (y.lockFill r).acquire else y.lockFill r, ?_, ?_⟩
  · split
    · exact (quiet_lockFill ..).trans (quiet_acquire _)
    · exact quiet_lockFill ..
  · unfold State.lockDone
    rw [if_neg (by decide), if_pos (.inl rfl), hn, hf, if_neg (by exact Bool.false_ne_true)]

theorem acquire_grants (hnone : tfind u.locks (lineOf x.pa) = none) (hroom : u.entryRoom (lineOf x.pa) = true) (hlost : u.isLost (lineOf x.pa) = false) :
    Completes i s (fun t => (t.lock (lineOf x.pa)).holder = some s.cur ∧ (t.lock (lineOf x.pa)).scope = sc ∧ t.mem = u.mem ∧
      XIs s t d (BitVec.ofNat 64 ((u.held s.cur + 1) * 16))) := by
  obtain ⟨hcut, hv⟩ := sent_ready (sc := sc) (t := t) (wait := wait) hcur hplace hheld
  have hme : (u.lock (lineOf x.pa)).holder ≠ some s.cur := by
    unfold State.lock tget
    rw [hnone]
    exact fun e => nomatch e
  have he := acquire_answered hex hcur hc hplace hreq hreply hwaits hme hlim (accept_grants (wait := wait) hcut hv hnone hroom hlost)
  obtain ⟨hlocks, hx⟩ := giveLock_facts (sent u (asked s a x sc t wait)) (lineOf x.pa) s.cur sc
  generalize hy : ((sent u (asked s a x sc t wait)).giveLock (lineOf x.pa) s.cur sc Lock.none true).lockReplyTo s.cur (lineOf x.pa) lkOk = y at hlocks hx
  rw [show (((sent u (asked s a x sc t wait)).giveLock (asked s a x sc t wait).line s.cur (asked s a x sc t wait).scope Lock.none true).lockReplyTo s.cur
    (lineOf x.pa) lkOk) = y from hy] at he
  have hym : y.mem = u.mem := by rw [← hy]; rfl
  have hyc : y.cur = s.cur := by rw [← hy]; exact hcur
  have hheld' := hheld
  unfold State.lockHeld at hheld'
  rw [Bool.or_eq_false_iff, Bool.or_eq_false_iff, Bool.or_eq_false_iff] at hheld'
  obtain ⟨⟨⟨hmig, hnm⟩, -⟩, -⟩ := hheld'
  obtain ⟨z, hq, hz⟩ := lockDone_ok (d := d) (y := y) (r := asked s a x sc t wait) (by rw [← hy]; exact hnm)
    (by rw [← hy]; exact frozen_migrating hmig)
  have hzl : z.locks = tset u.locks (lineOf x.pa) (taken (sent u (asked s a x sc t wait)) s.cur sc) := by rw [hq.1]; exact hlocks
  have hzh : z.held z.cur = u.held s.cur + 1 := by
    unfold State.held State.heldLocks
    rw [hzl, hq.cur, hyc, tset_of_none _ _ _ hnone, List.filter_append, List.map_append, List.length_append]
    have : ((List.filter (fun e : Nat × Lock => e.2.holder == some s.cur) [(lineOf x.pa, taken (sent u (asked s a x sc t wait)) s.cur sc)]).map (·.1)).length = 1 := by
      rw [List.filter_cons_of_pos (by exact beq_self_eq_true _)]
      rfl
    rw [this]
  have hzx : z.c.x = s.c.x := by
    rw [hq.c]
    show (y.ctx y.cur).x = _
    rw [hyc, hx, ← hcur, sent_ctx]
    show u.c.x = _
    rw [hc]
  have hlk : z.lock (lineOf x.pa) = taken (sent u (asked s a x sc t wait)) s.cur sc := by
    unfold State.lock
    rw [hzl, tget_tset_same]
  refine lockResult_completes (w := z) (d := d) (st := 0) (h := u.held s.cur + 1) (he.trans (by rw [hz])) hzx hzh (fun t' hm hl _ hX => ?_)
  rw [lock_of_locks hl, hlk]
  refine ⟨rfl, rfl, ?_, ?_⟩
  · rw [hm, ← hym, hq.1]
  · rw [Nat.mod_eq_of_lt (by omega : u.held s.cur + 1 < 16)] at hX
    exact hX

section
variable {h : CtxId} (hh : (u.lock (lineOf x.pa)).holder = some h) (hne : h ≠ s.cur) (hs : (u.lock (lineOf x.pa)).scope = sc)
  (hd : inDomain (u.lock (lineOf x.pa)).scope (u.lock (lineOf x.pa)).owner s.cur = true)
include hh hne hs hd

theorem acquire_timeout (hw : wait = false) :
    Completes i s (fun t => t.locks = u.locks ∧ XIs s t d (BitVec.ofNat 64 (u.held s.cur % 16 * 16 + 1))) := by
  obtain ⟨hcut, hv⟩ := sent_ready (sc := sc) (t := t) (wait := wait) hcur hplace hheld
  refine acquire_refused hex hcur hc hplace hreq hreply hwaits (by rw [hh]; exact fun e => hne (Option.some.inj e)) hlim (st := 1) (by decide) (by decide)
    ((accept_fits hcut hv hh hs hd).trans ?_)
  rw [hw, if_pos (by rfl)]
  rfl

theorem acquire_queues (hw : wait = true) (hroom : u.waiterRoom (lineOf x.pa) = true) :
    ∃ t, exec i s = .next t ∧ (t.ctx s.cur).st = .stalled ∧ (t.ctx s.cur).wait = some .lock ∧ (t.lock (lineOf x.pa)).holder = some h ∧
      (t.lock (lineOf x.pa)).waiters.length = (u.lock (lineOf x.pa)).waiters.length + 1 := by
  obtain ⟨hcut, hv⟩ := sent_ready (sc := sc) (t := t) (wait := wait) hcur hplace hheld
  have hacc := accept_fits (wait := wait) hcut hv hh hs hd
  rw [hw, if_neg (by exact Bool.false_ne_true), if_neg] at hacc
  swap
  · rw [Bool.not_eq_true', Bool.not_eq_false]
    exact hroom
  have hvc : (sent u (asked s a x sc t wait)).cur = s.cur := hcur
  have hreply' : (((sent u (asked s a x sc t wait)).lockAccept s.cur (asked s a x sc t wait) wait).ctx s.cur).lockReply = none := by
    rw [hw, hacc, enqueued_reply, ← hvc]
    exact sent_reply hc hreply
  have he : exec i s = finish i s (.error (.wait .lock ((sent u (asked s a x sc t wait)).lockAccept s.cur (asked s a x sc t wait) wait))) := by
    refine hex.trans (congrArg (finish i s) ?_)
    rw [lockAcquire_sends hplace hreq hcur (by rw [hh]; exact fun e => hne (Option.some.inj e)) hlim]
    rw [lockGo_waits (sent_reply hc hreply) (sent_queue hcur hwaits) (by rw [hvc]; exact hreply'), hvc]
  rw [hw, hacc] at he
  obtain ⟨t', ht, hst, hwait', hlocks⟩ := stalls_locks he hcur
  have hl := (lock_of_locks hlocks (lineOf x.pa)).trans (enqueued_lock (sent u (asked s a x sc t true)) s.cur _ hh)
  refine ⟨t', ht, hst, hwait', ?_, ?_⟩
  · rw [hl]
    exact hh
  · rw [hl]
    exact List.length_append

end
end

end

/-! ## Releases -/

/-- Memory, and the registers of every context, are as before, and the same context issues. -/
structure Handed (s t : State) : Prop where
  mem : t.mem = s.mem
  cur : t.cur = s.cur
  x : ∀ id, (t.ctx id).x = (s.ctx id).x

theorem Handed.refl (s : State) : Handed s s := ⟨rfl, rfl, fun _ => rfl⟩

theorem Handed.trans {s t u : State} (h : Handed s t) (k : Handed t u) : Handed s u :=
  ⟨k.mem.trans h.mem, k.cur.trans h.cur, fun id => (k.x id).trans (h.x id)⟩

theorem handed_foldl {α : Type} (f : State → α → State) (hf : ∀ s a, Handed s (f s a)) (l : List α) (s : State) : Handed s (l.foldl f s) := by
  induction l generalizing s with
  | nil => exact .refl s
  | cons a r ih => exact (hf s a).trans (ih _)

theorem handed_setCtx (s : State) (id : CtxId) {c : Ctx} (h : c.x = (s.ctx id).x) : Handed s (s.setCtx id c) := by
  refine ⟨rfl, rfl, fun j => ?_⟩
  by_cases e : j = id
  · rw [e, setCtx_ctx_same, h]
  · rw [setCtx_ctx_other _ _ _ _ e]

theorem handed_of_quiet {s t : State} (h : Quiet s t) : Handed s t := ⟨by rw [h.1], h.cur, fun id => by rw [h.ctx]⟩

theorem handed_setLock (s : State) (line : Nat) (l : Lock) : Handed s (s.setLock line l) := ⟨rfl, rfl, fun _ => rfl⟩
theorem handed_lockReplyTo (s : State) (id : CtxId) (line st : Nat) : Handed s (s.lockReplyTo id line st) := handed_setCtx _ _ rfl
theorem handed_giveLock (s : State) (line : Nat) (id : CtxId) (sc : Nat) (l : Lock) (f : Bool) : Handed s (s.giveLock line id sc l f) := by
  unfold State.giveLock
  dsimp only
  exact (handed_setLock s line _).trans (handed_setCtx _ _ rfl)

theorem giveLock_replied (s : State) (line : Nat) (id : CtxId) (sc : Nat) (l : Lock) (f : Bool) (st : Nat) :
    (((s.giveLock line id sc l f).lockReplyTo id line st).lock line).holder = some id := by
  refine (congrArg Lock.holder (lock_of_locks (s := s.setLock line { l with
    holder := some id, broken := false, rel := none, limit := (s.core id.node id.core).hold.toNat, scope := if f then sc else l.scope, owner := if f then id else l.owner }) rfl line)).trans (setLock_holder ..)

theorem locks_replies (ids : List CtxId) (line st : Nat) (s : State) :
    (ids.foldl (fun s id => s.lockReplyTo id line st) s).locks = s.locks := by
  induction ids generalizing s with
  | nil => rfl
  | cons a r ih => exact ih _

theorem offer_mem {ws tail : List Waiter} {gone : List CtxId} {w : Waiter} {rest : List Waiter} {g : List CtxId}
    (h : offer ws tail gone = (some w, rest, g)) : w ∈ ws := by
  induction ws generalizing tail gone with
  | nil => cases h
  | cons v r ih =>
    unfold offer at h
    split at h
    · cases h
      exact List.mem_cons_self
    · split at h
      · exact List.mem_cons_of_mem _ (ih h)
      · exact List.mem_cons_of_mem _ (ih h)

/-- Where a lock goes that has been given up: it is free, or one of its waiters has it. -/
theorem handOff_facts (s : State) (line : Nat) : Handed s (s.handOff line) ∧ (((s.handOff line).lock line).holder = none ∨
    ∃ w ∈ (s.lock line).waiters, ((s.handOff line).lock line).holder = some w.id) := by
  unfold State.handOff
  extract_lets l s1
  have h1 : Handed s s1 := by
    unfold s1
    split
    · exact ⟨rfl, rfl, fun _ => rfl⟩
    · exact .refl s
  have hretry : ∀ (st : Nat) (ids : List CtxId) (u : State), Handed u (ids.foldl (fun s id => s.lockReplyTo id line st) u) :=
    fun st => handed_foldl (fun (s : State) (id : CtxId) => s.lockReplyTo id line st) (fun s id => handed_lockReplyTo s id line st)
  have hlost : ∀ (ws : List Waiter) (u : State), Handed u (ws.foldl (fun s w => s.lockReplyTo w.id line lkLost) u) :=
    handed_foldl (fun (s : State) (w : Waiter) => s.lockReplyTo w.id line lkLost) (fun s w => handed_lockReplyTo s w.id line lkLost)
  have hdrop : Handed s1 (match l.rel with | some (id, _) => s1.dropCore id.node id.core line true | none => s1) := by
    split
    · exact handed_of_quiet (quiet_dropCore ..)
    · exact .refl s1
  split
  · exact ⟨h1.trans ((hlost ..).trans (handed_setLock ..)), .inl (setLock_holder ..)⟩
  · split
    next w rest gone ho =>
      refine ⟨h1.trans (((hdrop.trans (hretry ..)).trans (handed_giveLock ..)).trans (handed_lockReplyTo ..)), .inr ⟨w, offer_mem ho, ?_⟩⟩
      exact giveLock_replied ..
    next rest gone ho =>
      exact ⟨h1.trans ((hretry ..).trans (handed_setLock ..)), .inl (setLock_holder ..)⟩

/-- The first waiter of the queue, present, has the lock. -/
theorem handOff_present {s : State} {line : Nat} (hl : lineOf line = line) (hlost : s.isLost line = false) {w : Waiter} {r : List Waiter}
    (hw : (s.lock line).waiters = w :: r) (hpr : w.absent = false) : ((s.handOff line).lock line).holder = some w.id := by
  have hnone : tfind s.lost line = none := by
    unfold State.isLost at hlost
    rw [hl] at hlost
    exact Option.not_isSome_iff_eq_none.mp (Bool.eq_false_iff.mp hlost)
  have ho : offer (w :: r) [] [] = (some w, r ++ [], []) := by
    unfold offer
    rw [hpr]
    rfl
  unfold State.handOff
  dsimp only
  rw [hnone]
  dsimp only
  rw [hlost, if_neg (by exact Bool.false_ne_true), hw, ho]
  exact giveLock_replied ..

section
variable {u : State} {id : CtxId} {line : Nat}

/-- A lock given up, before the home hands it on. -/
theorem unhold_facts : Handed u (u.unhold id line false none) ∧ ((u.unhold id line false none).lock line).holder = none ∧
    ((u.unhold id line false none).lock line).waiters = (u.lock line).waiters ∧
    ((u.lock line).waiters ≠ [] → ((u.unhold id line false none).lock line).rel = some (id, none)) := by
  refine ⟨⟨rfl, rfl, fun _ => rfl⟩, setLock_holder .., ?_, fun hne => ?_⟩
  · unfold State.unhold State.setLock State.lock
    dsimp only
    split
    next h =>
      rw [tget_tdel_same]
      exact h.2.1.symm
    next => rw [tget_tset_same]
  · unfold State.unhold State.setLock
    dsimp only
    rw [if_neg (fun h => hne h.2.1)]
    exact congrArg Lock.rel (tget_tset_same ..)

/-- The lock of a holder that releases it. -/
theorem lockRelease_facts (hh : (u.lock line).holder = some id) (hother : ∀ w ∈ (u.lock line).waiters, w.id ≠ id) (hl : lineOf line = line) :
    Handed u (u.lockRelease id line) ∧ ((u.lockRelease id line).lock line).holder ≠ some id ∧
    ((u.lock line).waiters = [] → ((u.lockRelease id line).lock line).holder = none) ∧
    (u.nmHolds line = false → u.isLost line = false → ∀ w r, (u.lock line).waiters = w :: r → w.absent = false →
      ((u.lockRelease id line).lock line).holder = some w.id) := by
  obtain ⟨hu, hnone, hws, hrel⟩ := unhold_facts (u := u) (id := id) (line := line)
  unfold State.lockRelease
  rw [if_neg (fun h => h hh)]
  have hnm : (u.unhold id line false none).nmHolds line = u.nmHolds line := rfl
  have hlo : (u.unhold id line false none).isLost line = u.isLost line := rfl
  generalize u.unhold id line false none = v at hu hnone hws hrel hnm hlo
  unfold State.releaseArrived
  split
  next hr =>
    refine ⟨hu, (fun h => nomatch hnone.symm.trans h), fun _ => hnone, fun _ _ w r hw _ => ?_⟩
    rw [hrel (by rw [hw]; exact List.cons_ne_nil _ _)] at hr
    cases hr
  next p hr =>
    have hp : (u.lock line).waiters ≠ [] → p = (id, none) := fun hne => Option.some.inj (hr.symm.trans (hrel hne))
    split
    next hlater =>
      refine ⟨hu.trans ⟨rfl, rfl, fun _ => rfl⟩, ?_, fun _ => hnone, fun h0 _ w r hw _ => ?_⟩
      · show (v.lock line).holder ≠ some id
        rw [hnone]
        exact fun h => nomatch h
      · unfold State.handLater at hlater
        rw [hp (by rw [hw]; exact List.cons_ne_nil _ _), hnm, h0] at hlater
        exact absurd hlater Bool.false_ne_true
    next =>
      obtain ⟨hk, hfree⟩ := handOff_facts v line
      refine ⟨hu.trans hk, ?_, fun hnil => ?_, fun _ h1 w r hw hpr => handOff_present hl (hlo.trans h1) (hws.trans hw) hpr⟩
      · rcases hfree with h0 | ⟨w, hw, h1⟩
        · rw [h0]
          exact fun h => nomatch h
        · rw [h1]
          exact fun e => hother w (hws ▸ hw) (Option.some.inj e)
      · rcases hfree with h0 | ⟨w, hw, h1⟩
        · exact h0
        · rw [hws, hnil] at hw
          cases hw

end

section
variable {s u : State} {d a : Reg} {x : Xlated} {sc : BitVec 3} (hra : s.c.ra = false) (hcur : u.cur = s.cur)
  (hc : u.c = { s.c with surveyed := u.c.surveyed }) (hplace : s.lockPlace (s.X a).toNat accLockRead = .ok (u, x))
include hra hplace

theorem lkstat_reads (hcur : u.cur = s.cur) (hc : u.c = { s.c with surveyed := u.c.surveyed }) :
    Completes (.lkstat d a) s (fun t => XIs s t d (BitVec.ofNat 64 ((u.lock (lineOf x.pa)).stat s.cur)) ∧ t.locks = u.locks) := by
  refine completes_finish (u := u.setX d (BitVec.ofNat 64 ((u.lock (lineOf x.pa)).stat s.cur))) ((show _ = execLkstat d a s from rfl).trans ?_)
    ⟨xIs_congr (by rw [hc]) (xIs_retire_setX u _ d _), rfl⟩
  unfold execLkstat
  rw [if_neg (by rw [hra]; decide), hplace, ok_bind, ← hcur]

theorem exec_lkrel (hc : u.c = { s.c with surveyed := u.c.surveyed }) : exec (.lkrel d a sc) s = finish (.lkrel d a sc) s
    (if (u.lock (lineOf x.pa)).holder ≠ some s.cur ∧ !s.c.holdBreaks.contains (lineOf x.pa) then .ok (u.lockResult d lkNotheld)
     else if s.c.holdBreaks.contains (lineOf x.pa) then
       .ok ((u.setC { u.c with holdBreaks := s.c.holdBreaks.filter (fun l => l != lineOf x.pa) }).lockResult d lkBroken)
     else do
       let v ← u.fenceStores (u.lock (lineOf x.pa)).scope
       .ok ((v.lockRelease s.cur (lineOf x.pa)).lockResult d lkOk)) := by
  have hb : s.c.holdBreaks = u.c.holdBreaks := by rw [hc]
  show execLkrel d a sc s = _
  unfold execLkrel
  rw [if_neg (by rw [hra]; decide)]
  dsimp only
  rw [hplace, ok_bind, hb]

include hcur hc

theorem lkrel_releases (hh : (u.lock (lineOf x.pa)).holder = some s.cur) (hb : lineOf x.pa ∉ s.c.holdBreaks) (h4 : (u.lock (lineOf x.pa)).scope ≤ 4)
    (hport : u.portStores s.cur = false) (hother : ∀ w ∈ (u.lock (lineOf x.pa)).waiters, w.id ≠ s.cur) :
    Completes (.lkrel d a sc) s (fun t => (t.lock (lineOf x.pa)).holder ≠ some s.cur ∧
      ((u.lock (lineOf x.pa)).waiters = [] → (t.lock (lineOf x.pa)).holder = none) ∧
      (u.nmHolds (lineOf x.pa) = false → u.isLost (lineOf x.pa) = false → ∀ w r, (u.lock (lineOf x.pa)).waiters = w :: r → w.absent = false →
        (t.lock (lineOf x.pa)).holder = some w.id) ∧ t.mem = u.mem ∧ XIs s t d (BitVec.ofNat 64 (t.held s.cur % 16 * 16))) := by
  have hfence : u.fenceStores (u.lock (lineOf x.pa)).scope = .ok u := by
    unfold State.fenceStores
    rw [hcur, hport, if_neg (by exact Bool.false_ne_true), if_neg (by omega)]
  have hcont : s.c.holdBreaks.contains (lineOf x.pa) = false := by
    rw [Bool.eq_false_iff]
    exact fun h => hb (List.contains_iff_mem.mp h)
  have he := exec_lkrel (d := d) (sc := sc) hra hplace hc
  rw [if_neg (fun h => h.1 hh), hcont, if_neg (by exact Bool.false_ne_true), hfence, ok_bind] at he
  obtain ⟨hk, hne, hnil, hfirst⟩ := lockRelease_facts hh hother (lineOf_lineOf _)
  generalize u.lockRelease s.cur (lineOf x.pa) = v at he hk hne hnil hfirst
  have hvc : v.cur = s.cur := hk.cur.trans hcur
  refine lockResult_completes (w := v) (d := d) (st := 0) (h := v.held s.cur) he ?_ (by rw [hvc]) (fun t hm hl _ hX => ?_)
  · show (v.ctx v.cur).x = _
    rw [hk.cur, hk.x]
    show u.c.x = _
    rw [hc]
  · rw [lock_of_locks hl, held_of_locks hl]
    exact ⟨hne, hnil, hfirst, hm.trans hk.mem, hX⟩

theorem lkrel_notheld (hh : (u.lock (lineOf x.pa)).holder ≠ some s.cur) (hb : lineOf x.pa ∉ s.c.holdBreaks) :
    Completes (.lkrel d a sc) s (fun t => XIs s t d (BitVec.ofNat 64 (u.held s.cur % 16 * 16 + 7)) ∧ t.locks = u.locks) := by
  have hcont : s.c.holdBreaks.contains (lineOf x.pa) = false := by
    rw [Bool.eq_false_iff]
    exact fun h => hb (List.contains_iff_mem.mp h)
  have he := exec_lkrel (d := d) (sc := sc) hra hplace hc
  rw [if_pos ⟨hh, by rw [hcont]; rfl⟩] at he
  exact lockResult_completes (w := u) (d := d) (st := 7) (h := u.held s.cur) he (by rw [hc]) (by rw [hcur]) (fun t _ hl _ hX => ⟨hX, hl⟩)

theorem lkrel_broken (hb : lineOf x.pa ∈ s.c.holdBreaks) :
    Completes (.lkrel d a sc) s (fun t => XIs s t d (BitVec.ofNat 64 (u.held s.cur % 16 * 16 + 3)) ∧ lineOf x.pa ∉ t.c.holdBreaks ∧
      t.locks = u.locks) := by
  have hcont : s.c.holdBreaks.contains (lineOf x.pa) = true := List.contains_iff_mem.mpr hb
  have he := exec_lkrel (d := d) (sc := sc) hra hplace hc
  rw [hcont, if_neg (fun h => by have := h.2; exact Bool.false_ne_true this), if_pos rfl] at he
  refine lockResult_completes (w := u.setC { u.c with holdBreaks := s.c.holdBreaks.filter (fun l => l != lineOf x.pa) }) (d := d) (st := 3)
    (h := u.held s.cur) he ?_ ?_ (fun t _ hl hbr hX => ⟨hX, ?_, hl⟩)
  · rw [setC_c]
    show u.c.x = _
    rw [hc]
  · show u.held u.cur = _
    rw [hcur]
  · rw [hbr, setC_c]
    intro hm
    obtain ⟨-, h⟩ := List.mem_filter.mp hm
    rw [bne_self_eq_false] at h
    exact Bool.false_ne_true h

end

theorem exec_lkacq {s : State} {d a m : Reg} {sc : BitVec 3} (hra : s.c.ra = false) : exec (.lkacq d a m sc) s =
    finish (.lkacq d a m sc) s (s.lockAcquire d (s.X a).toNat sc.toNat (min (s.X m).toNat (2 ^ 40 - 1)) true) := by
  show execLkacq d a m sc s = _
  unfold execLkacq
  rw [if_neg (by rw [hra]; decide)]

theorem exec_lktry {s : State} {d a : Reg} {sc : BitVec 3} (hra : s.c.ra = false) : exec (.lktry d a sc) s =
    finish (.lktry d a sc) s (s.lockAcquire d (s.X a).toNat sc.toNat 0 false) := by
  show execLktry d a sc s = _
  unfold execLktry
  rw [if_neg (by rw [hra]; decide)]

/-- What is shown of every acquire holds of LKACQ and of LKTRY. -/
theorem both_acquires {s : State} {d a m : Reg} {sc : BitVec 3} {Q : Instr → Prop} (hra : s.c.ra = false)
    (h : ∀ (i : Instr) (t : Nat) (w : Bool), exec i s = finish i s (s.lockAcquire d (s.X a).toNat sc.toNat t w) → Q i) :
    ∀ i ∈ [Instr.lkacq d a m sc, .lktry d a sc], Q i := by
  intro i hi
  rcases List.mem_cons.mp hi with rfl | hi
  · exact h _ _ _ (exec_lkacq hra)
  · rw [List.mem_singleton.mp hi]
    exact h _ _ _ (exec_lktry hra)

/-- Settles O31: an acquire by what the home makes of it, a release by the holder and its waiters. -/
theorem lineLocksAreTakenAndReleased : Obligations.LineLocksAreTakenAndReleased := by
  intro s u d a m sc x hra hc hcur
  refine ⟨?_, ?_⟩
  · intro line hold l hplace hreq hreply hwaits
    refine ⟨fun hh => both_acquires hra fun i t w he => acquire_deadlock he hcur hc hplace hreq hh,
      fun hh hlim => both_acquires hra fun i t w he => acquire_limit he hcur hc hplace hreq hh hlim, fun hheld hlim => ⟨fun hnone hroom hlost =>
        both_acquires hra fun i t w he => acquire_grants he hcur hc hplace hreq hreply hwaits hheld hlim hnone hroom hlost, fun h hh hne =>
          ⟨fun hs hd => ⟨?_, ?_⟩, fun hs => both_acquires hra fun i t w he =>
            acquire_scope he hcur hc hplace hreq hreply hwaits hheld hlim hh hne hs⟩⟩⟩
    · rw [← hs] at hd
      exact acquire_timeout (exec_lktry hra) hcur hc hplace hreq hreply hwaits hheld hlim hh hne hs hd rfl
    · rw [← hs] at hd
      exact acquire_queues (exec_lkacq hra) hcur hc hplace hreq hreply hwaits hheld hlim hh hne hs hd rfl
  · intro line hold l hplace
    exact ⟨fun hh hb h4 hport hother => lkrel_releases hra hcur hc hplace hh hb h4 hport hother, fun hh hb => lkrel_notheld hra hcur hc hplace hh hb,
      fun hb => lkrel_broken hra hcur hc hplace hb, lkstat_reads hra hplace hcur hc⟩

end Sys2Proof.LineLocks
end

section
/-! A page table in the pool that another package has dirty lines of: a walk has them performed at the device. -/

namespace Sys2Proof.PoolTables
set_option Elab.async false
open Sys2Proof Sys2Proof.Machine Sys2Proof.Safety

/-- A region of 256 MiB at the start of the pool, attached, by port 0. -/
def region : Region := { Region.reset with en := true, st := .attached, size := 1 }

/-- Where package 1 has the line that package 0 has at 2^44. -/
def aliasLine : Nat := 2 ^ 46 + 2 ^ 44

/-- Two packages of a group with the same region of one device. The page table of package 0's system context lies in it; package 1 has stored a
byte to the table's first line, and the line is dirty there. -/
def shared : State :=
  { State.reset with
    group := [0, 1]
    pkgs := [(0, { Pkg.reset with regions := [(0, region)] }), (1, { Pkg.reset with regions := [(0, region)], poolDirty := [(aliasLine, 1)] })]
    ctxs := [(⟨0, 0, 11⟩, { Ctx.resetOf 11 with ptroot := 0x100000000000 })]
    mem := memWrite [] aliasLine 1 0x40 }

theorem shared_x : (shared.X 0).toNat = 0 := by decide +kernel

/-- The walk of address 0 ends at the first entry of the table, which is not present. -/
theorem shared_walk : (shared.lookup shared.req 0).why = .notPresent := by decide +kernel

/-- Reading the entry has the other package's byte performed at the device. -/
theorem shared_fill : (shared.fillWalk shared.req 0 (shared.lookup shared.req 0)).mem ≠ shared.mem := by decide +kernel

/-- Refutes O33, its clause on XPROBE: it changes memory when the walk reads a page-table line in the pool that another package of the group has
dirty. -/
theorem not_translationInstructions : ¬ Obligations.TranslationInstructions := by
  intro h
  obtain ⟨hprobe, -⟩ := h shared 1 0 0 (by decide +kernel)
  obtain ⟨hends, -⟩ := hprobe (by rw [shared_x]; decide) (by rw [shared_x]; decide) _ (by rw [shared_x])
  obtain ⟨t, -, ⟨⟨hleft, -⟩, -⟩, hsame, -⟩ := hends (by rw [shared_walk]; exact WalkEnd.noConfusion) (by rw [shared_walk]; exact fun c => WalkEnd.noConfusion)
  rw [shared_x, setX_mem] at hleft
  exact shared_fill (hleft.symm.trans hsame)

end Sys2Proof.PoolTables
end

section
/-! Copy-engine commands: checked, claimed and queued. -/

namespace Sys2Proof.EngineIssue
set_option Elab.async false
open Sys2Proof Sys2Proof.Machine Sys2Proof.Safety Sys2Proof.Ends
open Sys2Proof.MemoryOps (ok_bind)

/-- The engine of the polder with the command at the end of its queue. -/
def queuedIn (e : Engine) (n : Nat) (h : Bool) (c : Cmd) : Engine :=
  if n = 3 then { e with exch := e.exch ++ [c] } else if h then { e with hiQ := e.hiQ ++ [c] } else { e with loQ := e.loQ ++ [c] }

/-- The state with the command issued, its entries claimed. -/
def issued (s : State) (q : Polder) (c : Cmd) : State :=
  State.enq { s.setPol { q with engine := queuedIn q.engine c.cmd c.hi c } with nextCmd := s.nextCmd + 1 }
    (if c.cmd = 3 then .exchangeForm else .engineCommandStart) { node := s.fnode, n := s.pIdx }

section
variable {i : Instr} {s : State} {c : Cmd} {chk : Except Stop Unit} (he : exec i s = engIssue i c chk s)
include he

theorem engIssue_drops (hra : s.c.ra = true) : Completes i s (Leaves s) := by
  refine completes_finish (u := s) (he.trans ?_) (leaves_retire s i)
  unfold engIssue
  rw [if_pos hra]

theorem engIssue_checked (hra : s.c.ra = false) (hok : chk = .ok ()) : exec i s = finish i s (
    if 16 ≤ s.coreCmds s.fnode s.fcore then .error (.wait .engineQueue s)
    else match s.pol.claim c c.claims with
      | none => .error (.wait .engineQueue s)
      | some q => .ok (issued s q c)) := by
  rw [he]
  unfold engIssue
  rw [if_neg (by rw [hra]; decide), hok] <;> rfl

theorem engIssue_stops (hra : s.c.ra = false) {x : Stop} (hbad : chk = .error x) : exec i s = finish i s (.error x) := by
  rw [he]
  unfold engIssue
  rw [if_neg (by rw [hra]; decide), hbad]
  rfl

theorem engIssue_waits (hra : s.c.ra = false) (hok : chk = .ok ()) (h : 16 ≤ s.coreCmds s.fnode s.fcore ∨ s.pol.claim c c.claims = none) :
    Waits i s .engineQueue := by
  refine Barriers.waits_of_finish i s s _ ((engIssue_checked he hra hok).trans ?_) rfl rfl rfl
  split
  · rfl
  next hn => rw [h.resolve_left hn]

theorem engIssue_issues (hra : s.c.ra = false) (hok : chk = .ok ()) {q : Polder} (hroom : s.coreCmds s.fnode s.fcore < 16)
    (hq : s.pol.claim c c.claims = some q) :
    Completes i s (fun t => t.nextCmd = s.nextCmd + 1 ∧ Leaves (s.setPol { q with engine := queuedIn q.engine c.cmd c.hi c }) t) := by
  refine completes_finish (u := issued s q c) ((engIssue_checked he hra hok).trans ?_) ⟨rfl, leaves_retire (issued s q c) i⟩
  rw [if_neg (by omega), hq]

end

/-- What is stated of each command, from its meaning. -/
theorem engIssue_all {i : Instr} {s : State} {c : Cmd} {chk : Except Stop Unit} (he : exec i s = engIssue i c chk s) (hl : isLong i = false) :
    (s.c.ra = true → Completes i s (Leaves s)) ∧
    (s.c.ra = false → (∀ x, chk = .error (.trap x) → exec i s = .next (s.trapNow x false s.pfx.isSome)) ∧
      (chk = .ok () → (16 ≤ s.coreCmds s.fnode s.fcore ∨ s.pol.claim c c.claims = none → Waits i s .engineQueue) ∧
        (∀ q, s.coreCmds s.fnode s.fcore < 16 → s.pol.claim c c.claims = some q → Completes i s (fun t => t.nextCmd = s.nextCmd + 1 ∧
          Leaves (s.setPol { q with engine := queuedIn q.engine c.cmd c.hi c }) t)))) := by
  refine ⟨engIssue_drops he, fun hra => ⟨fun x hx => ?_, fun hok => ⟨engIssue_waits he hra hok, fun q hr hq => engIssue_issues he hra hok hr hq⟩⟩⟩
  rw [engIssue_stops he hra hx, ← hl]
  rfl

/-! ## Checks of g0 that come first -/

theorem engCheck_bad {b : Bool} {n : Nat} {r : Except Stop Unit} (h : b = true) :
    (do engCheck b n; r) = .error (.trap { cause := .engineFault, tval := BitVec.ofNat 64 n, acc := 0 }) := by
  rw [h]
  rfl

theorem traps_of_check {i : Instr} {s : State} {c : Cmd} {b : Bool} {r : Except Stop Unit} (he : exec i s = engIssue i c (do engCheck b 0; r) s)
    (hra : s.c.ra = false) (hb : b = true) : Traps i s .engineFault 0 0 := by
  unfold Traps
  rw [engIssue_stops he hra (engCheck_bad hb)]
  rfl

/-- Settles O41: every command is issued by the one rule, and its first check of g0 is the one that it makes of reserved bits and zero counts. -/
theorem engineCommandsAreIssued : Obligations.EngineCommandsAreIssued := by
  intro s a b h
  refine ⟨fun e he => ?_, fun hra e he hbad => ?_⟩
  · simp only [List.mem_cons, List.not_mem_nil, or_false] at he
    rcases he with rfl | rfl | rfl | rfl | rfl | rfl | rfl
    · exact engIssue_all (show exec (.ecpy a b h) s = engIssue _ _ _ s from rfl) rfl
    · exact engIssue_all (show exec (.egth a b h) s = engIssue _ _ _ s from rfl) rfl
    · exact engIssue_all (show exec (.esct a b h) s = engIssue _ _ _ s from rfl) rfl
    · exact engIssue_all (show exec (.exch a b h) s = engIssue _ _ _ s from rfl) rfl
    · exact engIssue_all (show exec (.etopk a b h) s = engIssue _ _ _ s from rfl) rfl
    · exact engIssue_all (show exec (.enmsc a b h) s = engIssue _ _ _ s from rfl) rfl
    · exact engIssue_all (show exec (.eptab a b h) s = engIssue _ _ _ s from rfl) rfl
  · simp only [List.mem_cons, List.not_mem_nil, or_false] at he
    rcases he with rfl | rfl | rfl | rfl | rfl | rfl | rfl
    · refine traps_of_check (show exec (.ecpy a b h) s = engIssue _ _ (ecpyCheck _) s from rfl) hra ?_
      rcases hbad with hb | hb <;> simp [State.mkCmd, hb]
    · refine traps_of_check (show exec (.egth a b h) s = engIssue _ _ (rowsCheck _ _ _) s from rfl) hra ?_
      rcases hbad with hb | hb <;> simp [State.mkCmd, hb]
    · refine traps_of_check (show exec (.esct a b h) s = engIssue _ _ (rowsCheck _ _ _) s from rfl) hra ?_
      rcases hbad with hb | hb <;> simp [State.mkCmd, hb]
    · refine traps_of_check (show exec (.exch a b h) s = engIssue _ _ (exchCheck _ _ _) s from rfl) hra ?_
      rcases hbad with hb | hb <;> simp [State.mkCmd, hb]
    · refine traps_of_check (show exec (.eptab a b h) s = engIssue _ _ (eptabCheck _ _ _) s from rfl) hra ?_
      simpa [State.mkCmd] using hbad
    · refine traps_of_check (show exec (.enmsc a b h) s = engIssue _ _ (enmscCheck _ _ _) s from rfl) hra ?_
      rcases hbad with hb | hb <;> simp [State.mkCmd, hb]
    · refine traps_of_check (show exec (.etopk a b h) s = engIssue _ _ (etopkCheck _ _ _) s from rfl) hra ?_
      rcases hbad with hb | hb <;> simp [State.mkCmd, hb]

end Sys2Proof.EngineIssue
end

section
/-! Leases of the array: LEASE, UNLEASE and LSTAT. -/

namespace Sys2Proof.Leases
set_option Elab.async false
open Sys2Proof Sys2Proof.Machine Sys2Proof.Safety Sys2Proof.Ends
open Sys2Proof.Access (tfind_tmap)

/-! ## What ending a lease leaves -/

/-- The same context issues, every context's X registers are as before, and the arrays of all polders are. -/
structure SameX (s t : State) : Prop where
  cur : t.cur = s.cur
  x : ∀ id, (t.ctx id).x = (s.ctx id).x

theorem SameX.refl (s : State) : SameX s s := ⟨rfl, fun _ => rfl⟩

theorem SameX.trans {s t u : State} (h : SameX s t) (k : SameX t u) : SameX s u := ⟨k.cur.trans h.cur, fun id => (k.x id).trans (h.x id)⟩

theorem sameX_of_same {s t : State} (hc : t.cur = s.cur) (h : t.ctxs = s.ctxs) : SameX s t := by
  refine ⟨hc, fun id => ?_⟩
  unfold State.ctx
  rw [h]

theorem sameX_setCtx (s : State) (id : CtxId) {c : Ctx} (h : c.x = (s.ctx id).x) : SameX s (s.setCtx id c) := by
  refine ⟨rfl, fun j => ?_⟩
  by_cases e : j = id
  · rw [e, setCtx_ctx_same, h]
  · rw [setCtx_ctx_other _ _ _ _ e]

theorem sameX_barNotify (s : State) (node p la n : Nat) : SameX s (s.barNotify node p la n) := by
  unfold State.barNotify
  split
  · exact .refl s
  · refine ⟨rfl, fun id => ?_⟩
    unfold State.ctx tget
    dsimp only
    rw [tfind_tmap]
    cases tfind s.ctxs id with
    | none => rfl
    | some c =>
      simp only [Option.map_some, Option.getD_some]
      split
      · split
        · split
          · rfl
          · split <;> rfl
        · rfl
      · rfl

theorem sameX_counterNotify (s : State) (node p la n : Nat) : SameX s (s.counterNotify node p la n) := by
  rw [Barriers.counterNotify_eq]
  exact sameX_of_same rfl rfl

theorem sameX_setMem (s : State) (m : List Host.Cell) : SameX s { s with mem := m } := sameX_of_same rfl rfl
theorem sameX_lostWordWrite (s : State) (a n : Nat) : SameX s (s.lostWordWrite a n) := sameX_of_same rfl rfl
theorem sameX_setPolder (s : State) (node p : Nat) (q : Polder) : SameX s (s.setPolder node p q) := sameX_of_same rfl rfl

theorem sameX_barFault (s : State) (node p la : Nat) : SameX s (s.barFault node p la) := by
  unfold State.barFault State.portSeen
  dsimp only
  exact (((sameX_setMem s _).trans (sameX_lostWordWrite ..)).trans (sameX_barNotify ..)).trans (sameX_counterNotify ..)

theorem sameX_freeCmd (s : State) (node p no : Nat) : SameX s (s.freeCmd node p no) := sameX_of_same rfl rfl

theorem barNotify_polders (s : State) (node p la n : Nat) : (s.barNotify node p la n).polders = s.polders := by
  unfold State.barNotify
  split <;> rfl

theorem barFault_polders (s : State) (node p la : Nat) : (s.barFault node p la).polders = s.polders := by
  unfold State.barFault State.portSeen
  dsimp only
  rw [Barriers.counterNotify_eq]
  exact barNotify_polders ..

theorem polder_of_polders {s t : State} (h : t.polders = s.polders) (n k : Nat) : t.polder n k = s.polder n k := by
  unfold State.polder
  rw [h]

theorem freeCmd_array (s : State) (node p no n k : Nat) : ((s.freeCmd node p no).polder n k).array = (s.polder n k).array := by
  unfold State.freeCmd
  dsimp only
  by_cases e : (n, k) = (node, p)
  · obtain ⟨rfl, rfl⟩ := Prod.mk.inj e
    rw [setPolder_polder_same]
    rfl
  · rw [setPolder_polder_other _ _ _ _ _ _ e]
    rfl

theorem discardCmds_facts (l : List Cmd) (s : State) (node p : Nat) :
    SameX s (s.discardCmds node p l) ∧ ∀ n k, ((s.discardCmds node p l).polder n k).array = (s.polder n k).array := by
  induction l generalizing s with
  | nil => exact ⟨.refl s, fun _ _ => rfl⟩
  | cons c r ih =>
    obtain ⟨hx, ha⟩ := ih ((s.barFault node p c.bar).freeCmd node p c.no)
    refine ⟨((sameX_barFault s node p c.bar).trans (sameX_freeCmd ..)).trans hx, fun n k => (ha n k).trans ?_⟩
    rw [freeCmd_array, polder_of_polders (barFault_polders ..)]

theorem askLease_ctxs (s : State) (node p : Nat) : SameX s (s.askLease node p) ∧ (s.askLease node p).polders = s.polders ∧ (s.askLease node p).mem = s.mem ∧
    (s.askLease node p).ctxs = s.ctxs := by
  unfold State.askLease
  split
  · exact ⟨.refl s, rfl, rfl, rfl⟩
  · exact ⟨sameX_of_same rfl rfl, rfl, rfl, rfl⟩

/-- The array that no context has. -/
def unheld (a : ArraySt) : ArraySt :=
  { a with holder := none, ending := false, hiQ := [], loQ := [], hstop := false, lstop := false, quantum := 0, next := none, bank0 := Bank.reset,
           bank1 := Bank.reset }

theorem leaseGone_facts (s : State) (node p : Nat) : SameX s (s.leaseGone node p) ∧ (s.leaseGone node p).mem = s.mem ∧
    ((s.leaseGone node p).polder node p).array = unheld (s.polder node p).array := by
  have h : s.leaseGone node p = if (unheld (s.polder node p).array).waiting ≠ [] ∨ (unheld (s.polder node p).array).susp ≠ [] then
      (s.setPolder node p { s.polder node p with array := unheld (s.polder node p).array }).askLease node p
    else s.setPolder node p { s.polder node p with array := unheld (s.polder node p).array } := rfl
  rw [h]
  split
  · obtain ⟨hx, hp, hm, -⟩ := askLease_ctxs (s.setPolder node p { s.polder node p with array := unheld (s.polder node p).array }) node p
    refine ⟨(sameX_setPolder ..).trans hx, hm, ?_⟩
    rw [polder_of_polders hp, setPolder_polder_same]
  · refine ⟨sameX_setPolder .., rfl, ?_⟩
    rw [setPolder_polder_same]

/-- The commands that end with a context's lease. -/
def endsWith (a : ArraySt) (id : CtxId) : List Cmd :=
  if a.holder == some id && !a.ending then a.hiQ ++ a.loQ else (a.susp.filter (fun x => x.id == id)).foldl (fun l x => l ++ x.hiQ ++ x.loQ) []

theorem endsWith_empty {a : ArraySt} {id : CtxId} (hh : a.hiQ = []) (hl : a.loQ = []) (hs : ∀ x ∈ a.susp, x.hiQ = [] ∧ x.loQ = []) :
    endsWith a id = [] := by
  unfold endsWith
  split
  · rw [hh, hl]
    rfl
  · have h : ∀ l : List Susp, (∀ x ∈ l, x.hiQ = [] ∧ x.loQ = []) → l.foldl (fun l x => l ++ x.hiQ ++ x.loQ) ([] : List Cmd) = [] := by
      intro l
      induction l with
      | nil => exact fun _ => rfl
      | cons x r ih =>
        intro hx
        rw [List.foldl_cons, (hx x List.mem_cons_self).1, (hx x List.mem_cons_self).2]
        exact ih fun y hy => hx y (List.mem_cons_of_mem _ hy)
    exact h _ fun x hx => hs x (List.mem_of_mem_filter hx)

theorem endLease_facts (s : State) (id : CtxId) (b : Bool) : SameX s (s.endLease id b) ∧
    ((s.endLease id b).polder id.node id.polder).array.leased id = false ∧
    (endsWith (s.polder id.node id.polder).array id = [] → (s.endLease id b).mem = s.mem) := by
  unfold State.endLease
  extract_lets node p a mine queued s1 q src arr e own s2
  obtain ⟨hx1, ha1⟩ := discardCmds_facts queued s node p
  have h2 : SameX s s2 := hx1.trans (sameX_setCtx _ _ rfl)
  have hq : queued = endsWith a id := rfl
  have hm2 : endsWith a id = [] → s2.mem = s.mem := by
    intro h
    show s1.mem = s.mem
    unfold s1
    rw [hq, h]
    rfl
  have harr : q.array = a := ha1 node p
  have hsusp : arr.susp.any (fun x => x.id == id) = false := by
    rw [List.any_eq_false]
    intro x hx
    have := List.of_mem_filter hx
    rw [bne_iff_ne] at this
    exact fun h => this (beq_iff_eq.mp h)
  have hleased : ∀ a' : ArraySt, a'.susp = arr.susp → (a'.holder == some id && !a'.ending) = false → a'.leased id = false := by
    intro a' hs' hh
    unfold ArraySt.leased
    rw [hs', hh, hsusp]
    rfl
  split
  next hmine =>
    refine ⟨h2.trans (sameX_setPolder ..), ?_, hm2⟩
    rw [setPolder_polder_same]
    refine hleased arr rfl ?_
    show (q.array.holder == some id && !q.array.ending) = false
    rw [harr]
    rw [Bool.not_eq_true'] at hmine
    exact hmine
  next =>
    split
    next =>
      refine ⟨h2.trans (sameX_setPolder ..), ?_, hm2⟩
      rw [setPolder_polder_same]
      exact hleased { arr with hiQ := [], loQ := [], ending := true } rfl (Bool.and_false _)
    next =>
      obtain ⟨hx, hm, ha⟩ := leaseGone_facts (s2.setPolder node p { q with engine := e, array := arr }) node p
      refine ⟨(h2.trans (sameX_setPolder ..)).trans hx, ?_, fun h => hm.trans (hm2 h)⟩
      rw [setPolder_polder_same] at ha
      exact (congrArg (fun a' => a'.leased id) ha).trans (hleased (unheld arr) rfl rfl)

/-! ## LEASE -/

theorem retire_setX_pol (u : State) (i : Instr) (d : Reg) (v : Word) : ((u.setX d v).retire i).pol = u.pol := rfl
theorem setC_pol (u : State) (c : Ctx) : (u.setC c).pol = u.pol := rfl
theorem retire_setX_mem (u : State) (i : Instr) (d : Reg) (v : Word) : ((u.setX d v).retire i).mem = u.mem := complete_mem ..
theorem leaseGrant_pol (s : State) (id : CtxId) (sa : Nat) :
    (s.leaseGrant s.fnode s.pIdx id sa).pol = (s.leaseGrant s.fnode s.pIdx id sa).polder s.fnode s.pIdx := rfl
theorem leaseGrant_mem (s : State) (node p : Nat) (id : CtxId) (sa : Nat) : (s.leaseGrant node p id sa).mem = s.mem := rfl

section
variable {s : State} {d a : Reg} (hra : s.c.ra = false)

/-- The save area lies in C-space, and fits it. -/
theorem legal_not {sa : Word} (h32 : fieldW sa 32 32 = 0) (h29 : fieldW sa 29 3 = 1) (h25 : fieldW sa 25 4 = 0) (h0 : fieldW sa 0 25 + 133120 ≤ 4 * 2 ^ 20) :
    ¬ (fieldW sa 32 32 ≠ 0 ∨ fieldW sa 29 3 ≠ 1 ∨ fieldW sa 25 4 ≠ 0 ∨ 4 * 2 ^ 20 < fieldW sa 0 25 + 133120) := by
  omega

include hra

theorem lease_outside (h29 : fieldW (s.X a) 29 3 ≠ 1) : Traps (.lease d a) s .illegalAddress (s.X a) 0 := by
  refine traps_finish ((show _ = execLease d a s from rfl).trans ?_)
  unfold execLease
  rw [if_neg (by rw [hra]; decide)]
  dsimp only
  rw [if_pos (.inr (.inl h29))]

section
variable (hl : ¬ (fieldW (s.X a) 32 32 ≠ 0 ∨ fieldW (s.X a) 29 3 ≠ 1 ∨ fieldW (s.X a) 25 4 ≠ 0 ∨ 4 * 2 ^ 20 < fieldW (s.X a) 0 25 + 133120))
include hl

theorem lease_misaligned (h10 : fieldW (s.X a) 0 10 ≠ 0) : Traps (.lease d a) s .misaligned (s.X a) 0 := by
  refine traps_finish ((show _ = execLease d a s from rfl).trans ?_)
  unfold execLease
  rw [if_neg (by rw [hra]; decide)]
  dsimp only
  rw [if_neg hl, if_pos h10]

variable (hal : ¬ fieldW (s.X a) 0 10 ≠ 0)
include hal

theorem lease_arrived (hg : s.c.granted = true) :
    Completes (.lease d a) s (fun t => XIs s t d 0 ∧ t.c.granted = false ∧ t.polders = s.polders ∧ t.mem = s.mem) := by
  have hask : ∀ u : State, ∃ v, u.askIdle u.fnode u.pIdx = v ∧ v.c = u.c ∧ v.polders = u.polders ∧ v.mem = u.mem := by
    intro u
    unfold State.askIdle
    split
    · obtain ⟨hx, hp, hm, hc⟩ := askLease_ctxs u u.fnode u.pIdx
      refine ⟨_, rfl, ?_, hp, hm⟩
      unfold State.c State.ctx
      rw [hx.cur, hc]
    · exact ⟨_, rfl, rfl, rfl, rfl⟩
  obtain ⟨v, hv, hc, hp, hm⟩ := hask ((s.setC { s.c with granted := false }).setX d 0)
  refine completes_finish (u := v) ((show _ = execLease d a s from rfl).trans ?_) ⟨?_, ?_, hp, (complete_mem ..).trans hm⟩
  · unfold execLease
    rw [if_neg (by rw [hra]; decide)]
    dsimp only
    rw [if_neg hl, if_neg hal, if_pos hg, ← hv]
    rfl
  · intro r
    rw [retire_X]
    unfold State.X
    rw [hc, setX_c, xr_setX, setC_c]
    rfl
  · rw [retire_granted, hc, setX_c, setC_c]
    unfold Ctx.setX
    split <;> rfl

variable (hg : s.c.granted = false)
include hg

theorem lease_again (hleased : s.pol.array.leased s.cur = true) : Completes (.lease d a) s (ResultX d 2 s) := by
  refine completes_setX ((show _ = execLease d a s from rfl).trans ?_)
  unfold execLease
  rw [if_neg (by rw [hra]; decide)]
  dsimp only
  rw [if_neg hl, if_neg hal, if_neg (by rw [hg]; decide), if_pos hleased]

/-- Another context of the core has the lease, has one suspended, or waits for one. -/
def mate (s : State) : Prop :=
  (∃ id, s.pol.array.holder = some id ∧ id.core = s.fcore ∧ id ≠ s.cur) ∨ (∃ x ∈ s.pol.array.susp, x.saved = false ∧ x.id.core = s.fcore ∧ x.id ≠ s.cur) ∨
    ∃ w ∈ s.pol.array.waiting, w.1.core = s.fcore ∧ w.1 ≠ s.cur

omit hra hl hal hg in
theorem mate_iff : ((match s.pol.array.holder with | some h => h.core == s.fcore && h != s.cur | none => false) ||
      s.pol.array.susp.any (fun x => !x.saved && (x.id.core == s.fcore && x.id != s.cur)) ||
      s.pol.array.waiting.any (fun w => w.1.core == s.fcore && w.1 != s.cur)) = true ↔ mate s := by
  unfold mate
  rw [Bool.or_eq_true, Bool.or_eq_true, or_assoc, List.any_eq_true, List.any_eq_true]
  refine or_congr ?_ (or_congr ?_ ?_)
  · cases s.pol.array.holder <;> simp
  · simp
  · simp

variable (hn : s.pol.array.leased s.cur = false) (hw : ∀ w ∈ s.pol.array.waiting, w.1 ≠ s.cur)
include hn hw

omit hra hl hal hg hn in
theorem not_waiting : ¬ s.pol.array.waiting.any (fun w => w.1 == s.cur) = true := by
  rw [List.any_eq_true]
  rintro ⟨w, hm, he⟩
  exact hw w hm (beq_iff_eq.mp he)

theorem lease_refused (hm : mate s) : Completes (.lease d a) s (ResultX d 1 s) := by
  refine completes_setX ((show _ = execLease d a s from rfl).trans ?_)
  unfold execLease
  rw [if_neg (by rw [hra]; decide)]
  dsimp only
  rw [if_neg hl, if_neg hal, if_neg (by rw [hg]; decide), if_neg (by rw [hn]; decide), if_neg (not_waiting hw)]
  exact congrArg (finish _ s) (if_pos (mate_iff.mpr hm))

/-- The array as a grant leaves it. -/
def lentTo (a : ArraySt) (id : CtxId) (sa n : Nat) : ArraySt :=
  { a with holder := some id, holderSa := sa, bank0 := Bank.reset, bank1 := Bank.reset, waiting := a.waiting.filter (fun w => w.1 != id), hstop := false,
           lstop := false, quantum := n, lastCore := id.core % 8, next := none }

omit hra hl hal hg hn hw in
theorem lentTo_nobody {a : ArraySt} {id : CtxId} {sa n : Nat} (h : a.waiting = []) : lentTo a id sa n =
    { a with holder := some id, holderSa := sa, bank0 := Bank.reset, bank1 := Bank.reset, hstop := false, lstop := false, quantum := n,
             lastCore := id.core % 8, next := none } := by
  unfold lentTo
  rw [h]
  rfl

/-- No context holds the array or waits for it, no lease on it is being saved, and no command runs. -/
def free (s : State) : Prop :=
  s.pol.array.holder = none ∧ s.pol.array.waiting = [] ∧ (∀ x ∈ s.pol.array.susp, x.saved = true) ∧ s.pol.array.run = none

omit hra hl hal hg hn hw in
theorem free_iff : (s.pol.array.holder.isNone && s.pol.array.waiting.isEmpty && s.pol.array.susp.all (fun x => x.saved) && s.pol.array.run.isNone) = true ↔
    free s := by
  unfold free
  rw [Bool.and_eq_true, Bool.and_eq_true, Bool.and_eq_true, Option.isNone_iff_eq_none, Option.isNone_iff_eq_none, List.isEmpty_iff, List.all_eq_true, and_assoc,
    and_assoc]

omit hra hl hal hg hn hw in
theorem leaseGrant_array (s : State) (node p : Nat) (id : CtxId) (sa : Nat) : ((s.leaseGrant node p id sa).polder node p).array =
    lentTo (s.polder node p).array id sa (s.core id.node id.core).quant.toNat :=
  congrArg Polder.array (setPolder_polder_same s node p
    { s.polder node p with array := lentTo (s.polder node p).array id sa (s.core id.node id.core).quant.toNat })

theorem lease_granted (hm : ¬ mate s) (hf : free s) : Completes (.lease d a) s (fun t => XIs s t d 0 ∧ t.mem = s.mem ∧ t.pol.array =
    { s.pol.array with holder := some s.cur, holderSa := (s.X a).toNat, bank0 := Bank.reset, bank1 := Bank.reset, hstop := false, lstop := false,
                       quantum := s.cc.quant.toNat, lastCore := s.fcore % 8, next := none }) := by
  have hgr : (s.leaseGrant s.fnode s.pIdx s.cur (s.X a).toNat).c = { s.c with granted := true } := by
    show (s.leaseGrant s.fnode s.pIdx s.cur (s.X a).toNat).ctx s.cur = _
    unfold State.leaseGrant
    dsimp only
    rw [setCtx_ctx_same]
    rfl
  refine completes_finish (u := ((s.leaseGrant s.fnode s.pIdx s.cur (s.X a).toNat).setC
    { (s.leaseGrant s.fnode s.pIdx s.cur (s.X a).toNat).c with granted := false }).setX d 0) ((show _ = execLease d a s from rfl).trans ?_) ⟨?_, ?_, ?_⟩
  · unfold execLease
    rw [if_neg (by rw [hra]; decide)]
    dsimp only
    rw [if_neg hl, if_neg hal, if_neg (by rw [hg]; decide), if_neg (by rw [hn]; decide), if_neg (not_waiting hw)]
    exact congrArg (finish _ s) ((if_neg (fun h => hm (mate_iff.mp h))).trans (if_pos (free_iff.mpr hf)))
  · refine xIs_congr ?_ (xIs_retire_setX _ _ d 0)
    rw [setC_c, hgr]
  · rw [retire_setX_mem, setC_mem, leaseGrant_mem]
  · rw [retire_setX_pol, setC_pol, leaseGrant_pol]
    exact (leaseGrant_array s s.fnode s.pIdx s.cur (s.X a).toNat).trans (lentTo_nobody hf.2.1)

theorem lease_waits (hm : ¬ mate s) (hf : ¬ free s) : Waits (.lease d a) s .lease ∧
    ∀ t, exec (.lease d a) s = .next t → t.pol.array.waiting = s.pol.array.waiting ++ [(s.cur, (s.X a).toNat)] := by
  have he : exec (.lease d a) s = finish (.lease d a) s (.error (.wait .lease (State.askLease (s.setPol { s.pol with array := { s.pol.array with
      waiting := s.pol.array.waiting ++ [(s.cur, (s.X a).toNat)] } }) s.fnode s.pIdx))) := by
    refine (show _ = execLease d a s from rfl).trans ?_
    unfold execLease
    rw [if_neg (by rw [hra]; decide)]
    dsimp only
    rw [if_neg hl, if_neg hal, if_neg (by rw [hg]; decide), if_neg (by rw [hn]; decide), if_neg (not_waiting hw)]
    exact congrArg (finish _ s) ((if_neg (fun h => hm (mate_iff.mp h))).trans (if_neg (fun h => hf (free_iff.mp h))))
  obtain ⟨hx, hp, hm', hc⟩ := askLease_ctxs (s.setPol { s.pol with array := { s.pol.array with waiting := s.pol.array.waiting ++ [(s.cur, (s.X a).toNat)] } })
    s.fnode s.pIdx
  generalize State.askLease (s.setPol { s.pol with array := { s.pol.array with waiting := s.pol.array.waiting ++ [(s.cur, (s.X a).toNat)] } })
    s.fnode s.pIdx = u at he hx hp hm' hc
  refine ⟨Barriers.waits_of_finish _ s u _ he hx.cur ?_ hm', fun t ht => ?_⟩
  · unfold State.c State.ctx
    rw [hx.cur, hc]
    rfl
  · rw [he] at ht
    cases ht
    have hpol : (State.stall (u.holdWords (.lease d a)) .lease).polders = u.polders := by
      unfold State.stall State.holdWords
      split <;> rfl
    have hfn : (u.holdWords (.lease d a)).cur = s.cur := (Barriers.holdWords_cur u (.lease d a)).trans hx.cur
    have hnode : (State.stall (u.holdWords (.lease d a)) .lease).fnode = s.fnode := congrArg CtxId.node hfn
    have hcore : (State.stall (u.holdWords (.lease d a)) .lease).fcore = s.fcore := congrArg CtxId.core hfn
    unfold State.pol
    rw [polder_of_polders (hpol.trans hp), hnode, hcore]
    exact congrArg (fun q : Polder => q.array.waiting) (setPolder_polder_same ..)

end
end

/-! ## UNLEASE and LSTAT -/

section
variable {s : State} {d : Reg}

theorem lstat_none (hn : s.pol.array.leased s.cur = false) : Completes (.lstat d) s (ResultX d 0 s) := by
  refine completes_setX ((show _ = execLstat d s from rfl).trans ?_)
  unfold ArraySt.leased at hn
  rw [Bool.or_eq_false_iff] at hn
  obtain ⟨hh, hsusp⟩ := hn
  unfold execLstat
  dsimp only
  rw [if_neg, List.find?_eq_none.mpr (fun x hx => by rw [List.any_eq_false] at hsusp; exact hsusp x hx)]
  · rfl
  · rintro ⟨he, hend⟩
    rw [he, beq_self_eq_true, Bool.true_and] at hh
    rw [hh] at hend
    exact Bool.false_ne_true hend

theorem lstat_holder (hh : s.pol.array.holder = some s.cur) (he : s.pol.array.ending = false) : Completes (.lstat d) s (ResultX d (BitVec.ofNat 64
    (2 ^ 63 + s.pol.array.quantum * 2 ^ 55 + s.pol.array.hiQ.length * 2 ^ 51 + s.pol.array.loQ.length * 2 ^ 47 + s.pol.array.bank1.flags.toNat * 2 ^ 42 +
      s.pol.array.bank0.flags.toNat * 2 ^ 37 + s.pol.array.bank1.rrows * 2 ^ 29 + s.pol.array.bank0.rrows * 2 ^ 21 + s.pol.array.hstop.toNat * 2 ^ 19 +
      s.pol.array.lstop.toNat * 2 ^ 18)) s) := by
  refine completes_setX ((show _ = execLstat d s from rfl).trans ?_)
  unfold execLstat
  dsimp only
  rw [if_pos ⟨hh, by rw [he]; rfl⟩]
  unfold leaseWord
  rw [Bool.toNat_true, Bool.toNat_false, Nat.one_mul, Nat.zero_mul, Nat.add_zero]
  rfl

variable (hra : s.c.ra = false)
include hra

theorem unlease_none (hn : s.pol.array.leased s.cur = false) : Completes (.unlease d) s (ResultX d 1 s) := by
  refine completes_setX ((show _ = execUnlease d s from rfl).trans ?_)
  unfold execUnlease
  rw [if_neg (by rw [hra]; decide), hn, if_pos (by rfl)]

theorem unlease_waits (hn : s.pol.array.leased s.cur = true) (hb : s.arrBusy s.cur = true) : Waits (.unlease d) s .fence := by
  refine Barriers.waits_of_finish _ s s _ ((show _ = execUnlease d s from rfl).trans ?_) rfl rfl rfl
  unfold execUnlease
  rw [if_neg (by rw [hra]; decide), hn, if_neg (by exact Bool.false_ne_true), if_pos hb]

theorem unlease_ends (hn : s.pol.array.leased s.cur = true) (hb : s.arrBusy s.cur = false) :
    Completes (.unlease d) s (fun t => XIs s t d 0 ∧ t.pol.array.leased s.cur = false ∧
      (s.pol.array.hiQ = [] → s.pol.array.loQ = [] → (∀ x ∈ s.pol.array.susp, x.hiQ = [] ∧ x.loQ = []) → t.mem = s.mem)) := by
  obtain ⟨hx, hl, hm⟩ := endLease_facts s s.cur true
  have he : exec (.unlease d) s = finish (.unlease d) s (.ok ((s.endLease s.cur true).setX d 0)) := by
    show execUnlease d s = _
    unfold execUnlease
    rw [if_neg (by rw [hra]; decide), hn, if_neg (by exact Bool.false_ne_true), if_neg (by rw [hb]; exact Bool.false_ne_true)]
  generalize s.endLease s.cur true = v at he hx hl hm
  refine completes_finish he ⟨?_, ?_, fun h1 h2 h3 => ?_⟩
  · refine xIs_congr ?_ (xIs_retire_setX _ _ d 0)
    show (v.ctx v.cur).x = _
    rw [hx.cur]
    exact hx.x _
  · have hfn : v.fnode = s.fnode := congrArg CtxId.node hx.cur
    have hfc : v.fcore = s.fcore := congrArg CtxId.core hx.cur
    rw [retire_setX_pol]
    unfold State.pol
    rw [hfn, hfc]
    exact hl
  · rw [retire_setX_mem]
    exact hm (endsWith_empty h1 h2 h3)

end

end Sys2Proof.Leases
end

section
/-! Array commands under a lease, and the statement on leases. -/

namespace Sys2Proof.Leases
set_option Elab.async false
open Sys2Proof Sys2Proof.Machine Sys2Proof.Safety Sys2Proof.Ends
open Sys2Proof.MemoryOps (ok_bind)

/-- The queue of the array that a command's suffix names. -/
def tileQueue (a : ArraySt) (h : Bool) : List Cmd := if h then a.hiQ else a.loQ

/-- The array with the command at the end of its queue. -/
def tileQueued (a : ArraySt) (h : Bool) (c : Cmd) : ArraySt := if h then { a with hiQ := a.hiQ ++ [c] } else { a with loQ := a.loQ ++ [c] }

/-- The state with the array command issued. -/
def arrIssued (u : State) (q : Polder) (h : Bool) (c : Cmd) : State :=
  State.enq { u.setPol { q with array := tileQueued q.array h c } with nextCmd := u.nextCmd + 1 } .arrayCommandStart { node := u.fnode, n := u.pIdx }

section
variable {i : Instr} {s : State} {c : Cmd} {prep : Except Stop (State × Cmd)} (he : exec i s = arrIssue i c prep s) (hra : s.c.ra = false)
include he hra

theorem arrIssue_unleased (hn : s.pol.array.leased s.cur = false) : Traps i s .leaseViolation (wordOf (encodeFirst i)) 0 := by
  refine traps_finish (he.trans ?_)
  unfold arrIssue
  rw [if_neg (by rw [hra]; decide)]
  dsimp only
  rw [hn, if_pos (by rfl)]

section
variable (hl : s.pol.array.leased s.cur = true) {u : State} {c' : Cmd} (hp : prep = .ok (u, c'))
include hl hp

theorem arrIssue_checked : exec i s = finish i s (
    if s.pol.array.holder ≠ some s.cur ∨ s.pol.array.ending then
      .error (.wait .tileQueue (if s.leaseDue s.pol.array then s.askLease s.fnode s.pIdx else s))
    else if 8 ≤ (tileQueue s.pol.array c.hi).length then .error (.wait .tileQueue s)
    else match s.pol.claim c' c'.arrClaims with
      | none => .error (.wait .tileQueue s)
      | some q => .ok (arrIssued u q c.hi c')) := by
  rw [he]
  unfold arrIssue
  rw [if_neg (by rw [hra]; decide)]
  dsimp only
  rw [hl, if_neg (by exact Bool.false_ne_true), hp, ok_bind] <;> rfl

/-- An attempt without the array, without room in the queue or without table entries waits. -/
theorem arrIssue_waits (h : s.pol.array.holder ≠ some s.cur ∨ 8 ≤ (tileQueue s.pol.array c.hi).length ∨ s.pol.claim c' c'.arrClaims = none) :
    Waits i s .tileQueue := by
  have hchk := arrIssue_checked he hra hl hp
  have hask : ∃ v, (if s.leaseDue s.pol.array then s.askLease s.fnode s.pIdx else s) = v ∧ v.cur = s.cur ∧ v.c = s.c ∧ v.mem = s.mem := by
    split
    · obtain ⟨hx, -, hm, hc⟩ := askLease_ctxs s s.fnode s.pIdx
      refine ⟨_, rfl, hx.cur, ?_, hm⟩
      unfold State.c State.ctx
      rw [hx.cur, hc]
    · exact ⟨s, rfl, rfl, rfl, rfl⟩
  obtain ⟨v, hv, hcur, hc, hm⟩ := hask
  by_cases h1 : s.pol.array.holder ≠ some s.cur ∨ s.pol.array.ending = true
  · rw [if_pos h1, hv] at hchk
    exact Barriers.waits_of_finish _ s v _ hchk hcur (by rw [hc]) hm
  · rw [if_neg h1] at hchk
    refine Barriers.waits_of_finish i s s _ (hchk.trans ?_) rfl rfl rfl
    split
    · rfl
    next h8 => rw [(h.resolve_left fun hne => h1 (.inl hne)).resolve_left h8]

theorem arrIssue_issues (hh : s.pol.array.holder = some s.cur) (hend : s.pol.array.ending = false) (hroom : (tileQueue s.pol.array c.hi).length < 8)
    {q : Polder} (hq : s.pol.claim c' c'.arrClaims = some q) :
    Completes i s (fun t => t.nextCmd = u.nextCmd + 1 ∧ Leaves (u.setPol { q with array := tileQueued q.array c.hi c' }) t) := by
  refine completes_finish (u := arrIssued u q c.hi c') ((arrIssue_checked he hra hl hp).trans ?_) ⟨rfl, leaves_retire (arrIssued u q c.hi c') i⟩
  rw [if_neg (fun h => h.elim (fun hne => hne hh) (fun he => by rw [hend] at he; exact Bool.false_ne_true he)), if_neg (by omega), hq]

end

/-- What is stated of each array command, from its meaning. -/
theorem arrIssue_all {u : State} {c' : Cmd} {h : Bool} (hhi : c.hi = h) (hnext : u.nextCmd = s.nextCmd) (hp : prep = .ok (u, c')) (hl : s.pol.array.leased s.cur = true) :
    (s.pol.array.holder ≠ some s.cur ∨ 8 ≤ (tileQueue s.pol.array h).length → Waits i s .tileQueue) ∧
    (s.pol.array.holder = some s.cur → s.pol.claim c' c'.arrClaims = none → Waits i s .tileQueue) ∧
    (∀ q, s.pol.array.holder = some s.cur → s.pol.array.ending = false → (tileQueue s.pol.array h).length < 8 →
      s.pol.claim c' c'.arrClaims = some q →
      Completes i s (fun t => t.nextCmd = s.nextCmd + 1 ∧ Leaves (u.setPol { q with array := tileQueued q.array h c' }) t)) := by
  subst hhi
  refine ⟨fun h => arrIssue_waits he hra hl hp (h.imp_right .inl), fun _ h => arrIssue_waits he hra hl hp (.inr (.inr h)), fun q hh hend hroom hq => ?_⟩
  rw [← hnext]
  exact arrIssue_issues he hra hl hp hh hend hroom hq

end

/-! ## The three commands -/

theorem governed_paired {i : Instr} {g : Bool} {s : State} {o : Out} (h : g = true → s.pfx.isSome = true) : governed i g s o = o := by
  unfold governed
  rw [if_neg]
  intro hc
  rw [Bool.and_eq_true, Option.isNone_iff_eq_none] at hc
  have := h hc.1
  rw [hc.2] at this
  exact Bool.false_ne_true this

section
variable {s : State} {a b : Reg} {h t g : Bool} (hg : g = true → s.pfx.isSome = true)
include hg

theorem exec_emma : exec (.emma g a b h t) s = arrIssue (.emma g a b h t) (s.cmdModes (s.mkCmd 4 h t (s.X a) (s.X b)))
    ((emmaCheck (s.cmdModes (s.mkCmd 4 h t (s.X a) (s.X b))) a b).map (fun _ => (s, s.cmdModes (s.mkCmd 4 h t (s.X a) (s.X b))))) s := by
  show execEmma g a b h t s = _
  unfold execEmma
  exact governed_paired hg

end

/-- The prefix's modes do not touch what a command's suffix says. -/
theorem cmdModes_hi (s : State) (c : Cmd) : (s.cmdModes c).hi = c.hi := by
  unfold State.cmdModes
  split <;> rfl

/-- What EMMD reads and draws at issue, once its checks have passed. -/
def emmdPrep (s : State) (c : Cmd) (a b : Reg) : Except Stop (State × Cmd) := do
  emmdCheck c a b
  let scl := fieldW c.g[8] 32 32
  let sc ← if scl = 0 then .ok [] else s.drainScales scl ((c.cols + 31) / 32)
  let n := c.b.toNat * c.cols * (if c.oTy = .c32 then 2 else 1)
  let d := if s.mode = 5 then (s.draws n).map (BitVec.ofNat 32) else []
  .ok (s.drawn n, { c with scales := sc, draws := d })

theorem exec_emmd {s : State} {a b : Reg} {h g : Bool} (hg : g = true → s.pfx.isSome = true) : exec (.emmd g a b h) s =
    arrIssue (.emmd g a b h) (s.cmdModes (s.mkCmd 6 h false (s.X a) (s.X b))) (emmdPrep s (s.cmdModes (s.mkCmd 6 h false (s.X a) (s.X b))) a b) s := by
  show execEmmd g a b h s = _
  unfold execEmmd
  exact governed_paired hg

theorem cmdModes_g (s : State) (c : Cmd) : (s.cmdModes c).g = c.g := by
  unfold State.cmdModes
  split <;> rfl

theorem emmdPrep_ok {s : State} {c : Cmd} {a b : Reg} {sc : List (BitVec 32)} {scl : Nat} (hchk : emmdCheck c a b = .ok ()) (hscl : fieldW c.g[8] 32 32 = scl)
    (hsc : (if scl = 0 then Except.ok [] else s.drainScales scl ((c.cols + 31) / 32)) = .ok sc) :
    emmdPrep s c a b = .ok (s.drawn (c.b.toNat * c.cols * (if c.oTy = .c32 then 2 else 1)),
      { c with scales := sc, draws := if s.mode = 5 then (s.draws (c.b.toNat * c.cols * (if c.oTy = .c32 then 2 else 1))).map (BitVec.ofNat 32) else [] }) := by
  unfold emmdPrep
  rw [hchk, ok_bind]
  dsimp only
  rw [hscl]
  by_cases h0 : scl = 0
  · rw [if_pos h0] at hsc ⊢
    cases hsc
    rfl
  · rw [if_neg h0] at hsc ⊢
    rw [hsc]
    rfl

theorem emmzPrep_ok {s : State} {c : Cmd} {a : Reg} (h32 : fieldW c.g[6] 32 32 = 0) (h63 : fieldW c.a 1 63 = 0)
    (hbar : barOk (fieldW c.g[6] 0 32) = true) : (do
      bar6Zero c
      engCheck (fieldW c.a 1 63 != 0) (0x100 + a.toNat)
      bar6Check c
      .ok (s, c) : Except Stop (State × Cmd)) = .ok (s, c) := by
  unfold bar6Zero bar6Check barCheck
  rw [h32, h63, hbar]
  rfl

/-- Settles O42: the lease by what the array's state allows, array commands by the one rule of their issue. -/
theorem leasesAndArrayCommands : Obligations.LeasesAndArrayCommands := by
  refine ⟨fun s d a hra => ?_, fun s a b h t g sc hra hg => ?_⟩
  · refine ⟨fun ⟨h32, h29, h25, h0, h10⟩ => ?_, lease_outside hra, fun h32 h29 h25 h0 h10 => lease_misaligned hra (legal_not h32 h29 h25 h0) h10,
      fun hn => ⟨unlease_none hra hn, lstat_none hn⟩, fun hl => ⟨unlease_waits hra hl, unlease_ends hra hl⟩, lstat_holder⟩
    have hl := legal_not h32 h29 h25 h0
    have hal : ¬ fieldW (s.X a) 0 10 ≠ 0 := fun h => h h10
    exact ⟨lease_arrived hra hl hal, lease_again hra hl hal, fun hg hn hw => ⟨lease_refused hra hl hal hg hn hw, lease_granted hra hl hal hg hn hw,
      lease_waits hra hl hal hg hn hw⟩⟩
  · refine ⟨fun i hi hn => ?_, fun e he => ?_⟩
    · simp only [List.mem_cons, List.not_mem_nil, or_false] at hi
      rcases hi with rfl | rfl | rfl
      · exact arrIssue_unleased (exec_emma hg) hra hn
      · exact arrIssue_unleased (show exec (.emmz a h) s = arrIssue _ _ _ s from rfl) hra hn
      · exact arrIssue_unleased (exec_emmd hg) hra hn
    · simp only [List.mem_cons, List.not_mem_nil, or_false] at he
      rcases he with rfl | rfl | rfl
      · exact fun hchk hl => arrIssue_all (exec_emma hg) hra (u := s) (c' := s.cmdModes (s.mkCmd 4 h t (s.X a) (s.X b))) (cmdModes_hi ..) rfl
          (by rw [hchk]; rfl) hl
      · exact fun ⟨h32, h63, hbar⟩ hl => arrIssue_all (show exec (.emmz a h) s = arrIssue _ _ _ s from rfl) hra (u := s)
          (c' := s.mkCmd 5 h false (s.X a) 0) rfl rfl (emmzPrep_ok h32 h63 hbar) hl
      · exact fun ⟨hchk, hsc⟩ hl => arrIssue_all (exec_emmd hg) hra (u := s.drawn _) (cmdModes_hi ..) rfl
          (emmdPrep_ok hchk (congrArg (fun v : Vector Word 32 => fieldW v[8] 32 32) (cmdModes_g ..)) hsc) hl

end Sys2Proof.Leases
end

section
/-! ECOLL and ECLONE: a collective opens, a clone plan starts. -/

namespace Sys2Proof.CollStarts
set_option Elab.async false
open Sys2Proof Sys2Proof.Machine Sys2Proof.Safety Sys2Proof.Ends
open Sys2Proof.MemoryOps (ok_bind)

theorem bind_ok {α β : Type} {x : Except Stop α} {f : α → Except Stop β} {y : β} (h : (x >>= f) = .ok y) : ∃ z, x = .ok z ∧ f z = .ok y := by
  cases x with
  | error e => cases h
  | ok z => exact ⟨z, rfl, h⟩

/-! ## ECOLL -/

theorem collCheck_cmd {s : State} {c : Cmd} {a b : Reg} {r1 r2 : Nat} {i : CollIssue} (h : s.collCheck c a b r1 r2 = .ok i) : i.mem.cmd = c := by
  unfold State.collCheck at h
  obtain ⟨-, -, h⟩ := bind_ok h
  split at h
  · cases h
  · cases h
  · split at h
    · cases h
    · obtain ⟨-, -, h⟩ := bind_ok h
      obtain ⟨-, -, h⟩ := bind_ok h
      obtain ⟨-, -, h⟩ := bind_ok h
      obtain ⟨-, -, h⟩ := bind_ok h
      obtain ⟨-, -, h⟩ := bind_ok h
      cases h
      rfl

/-- A collective that no member has opened stands at the end of the list. -/
theorem putColl_new {x : Coll} {l : List Coll} (h : l.find? (fun y => y.named x.kind x.home x.comm x.k) = none) : putColl x l = l ++ [x] := by
  induction l with
  | nil => rfl
  | cons y r ih =>
    rw [List.find?_cons] at h
    unfold putColl
    cases hy : y.named x.kind x.home x.comm x.k with
    | true =>
      rw [hy] at h
      cases h
    | false =>
      rw [hy] at h
      rw [if_neg (by exact Bool.false_ne_true), ih h]
      rfl

section
variable {s s1 s2 : State} {a b : Reg} {r1 r2 : Nat} (hra : s.c.ra = false) (h1 : s.readRecord (s.X a).toNat = .ok (s1, r1))
  (h2 : s1.readRecord (s.X b).toNat = .ok (s2, r2))
include hra h1 h2

theorem exec_ecoll : exec (.ecoll a b) s = finish (.ecoll a b) s (do
    let i ← s2.collCheck (s.mkCmd 8 false false (s.X a) (s.X b)) a b r1 r2
    s2.collIssue i) := by
  show execEcoll a b s = _
  unfold execEcoll
  rw [if_neg (by rw [hra]; decide)]
  dsimp only
  rw [show (s.mkCmd 8 false false (s.X a) (s.X b)).a = s.X a from rfl, show (s.mkCmd 8 false false (s.X a) (s.X b)).b = s.X b from rfl, h1, ok_bind, h2,
    ok_bind]

/-- The first member opens the next collective of its communicator. -/
theorem ecoll_opens {i : CollIssue} {q : Polder} {m : Comm} {n who k home : Nat} (hn : n = fieldW s.c.g[0] 0 8)
    (hm : m = s2.comm s.fnode n) (hwho : who = if m.kind = 1 then s.cur.die else 0) (hk : k = tget 0 m.issued who)
    (hhome : home = if m.kind = 1 then s.fnode else m.group)
    (hchk : s2.collCheck (s.mkCmd 8 false false (s.X a) (s.X b)) a b r1 r2 = .ok i)
    (hnew : s2.colls.find? (fun x => x.named m.kind home n k) = none)
    (hroom : ((s2.mine m.kind home n (s.mkCmd 8 false false (s.X a) (s.X b))).filter (fun e => e.2.st == 0)).length < 8)
    (hq : (s2.polder s.fnode (s.fcore / 8)).claim (s.mkCmd 8 false false (s.X a) (s.X b))
      (collClaims (s.mkCmd 8 false false (s.X a) (s.X b)) i.sb i.db) = some q) :
    Completes (.ecoll a b) s (fun t => t.nextCmd = s2.nextCmd + 1 ∧ t.mem = s2.mem ∧ t.c.x = s2.c.x ∧ t.polder s.fnode (s.fcore / 8) = q ∧
      tget 0 (t.comm s.fnode n).issued who = k + 1 ∧ t.colls = s2.colls ++ [⟨m.kind, home, n, k, i.size, [i.mem], false⟩]) := by
  have hc := collCheck_cmd hchk
  have hput : putColl ⟨m.kind, home, n, k, i.size, [i.mem], false⟩ s2.colls = s2.colls ++ [⟨m.kind, home, n, k, i.size, [i.mem], false⟩] := putColl_new hnew
  have he : exec (.ecoll a b) s = finish (.ecoll a b) s (.ok
      ((({ s2.setPolder s.fnode (s.fcore / 8) q with nextCmd := s2.nextCmd + 1 } : State).setComm s.fnode n
        { m with issued := tset m.issued who (k + 1) }).putColl ⟨m.kind, home, n, k, i.size, [i.mem], false⟩ |>.wakeEngine
          (s.mkCmd 8 false false (s.X a) (s.X b)))) := by
    rw [exec_ecoll hra h1 h2, hchk, ok_bind]
    unfold State.collIssue
    rw [hc]
    dsimp only
    rw [show (s.mkCmd 8 false false (s.X a) (s.X b)).id = s.cur from rfl, show fieldW (s.mkCmd 8 false false (s.X a) (s.X b)).g[0] 0 8 = n from hn.symm,
      show s2.comm s.cur.node n = m from hm.symm, ← hwho, ← hk, show (if m.kind = 1 then s.cur.node else m.group) = home from hhome.symm, hnew]
    rw [if_neg (by exact Bool.false_ne_true), if_neg (by omega), show s.cur.node = s.fnode from rfl, show s.cur.polder = s.fcore / 8 from rfl, hq]
    rfl
  refine completes_finish he ⟨rfl, complete_mem .., ?_, ?_, ?_, hput⟩
  · rw [retire_x]
    rfl
  · exact setPolder_polder_same ..
  · have : ∀ u : State, ∀ x : Comm, (u.setComm s.fnode n x).comm s.fnode n = x := by
      intro u x
      unfold State.setComm State.comm
      rw [setPkg_pkg_same, tget_tset_same]
    exact (congrArg (fun x : Comm => tget 0 x.issued who) (this _ _)).trans (tget_tset_same ..)

theorem ecoll_disabled (hen : (s2.comm s.fnode (fieldW s.c.g[0] 0 8)).en = false) :
    exec (.ecoll a b) s = .next (s.trapNow { cause := .engineFault, tval := 0 } false s.pfx.isSome) := by
  have hbad : s2.collCheck (s.mkCmd 8 false false (s.X a) (s.X b)) a b r1 r2 = engineFault 0 := by
    unfold State.collCheck
    refine (congrArg (· >>= _) (?_ : engCheck _ 0 = engineFault 0)).trans rfl
    unfold engCheck
    rw [if_pos]
    rw [show (s.mkCmd 8 false false (s.X a) (s.X b)).id.node = s.fnode from rfl, show (s.mkCmd 8 false false (s.X a) (s.X b)).g = s.c.g from rfl, hen,
      Bool.not_false, Bool.or_true, Bool.true_or]
  rw [exec_ecoll hra h1 h2, hbad]
  rfl

/-- The first checks pass, and the source record does not describe a layout. -/
theorem ecoll_malformed (hen : (s2.comm s.fnode (fieldW s.c.g[0] 0 8)).en = true) (hdie : (s2.comm s.fnode (fieldW s.c.g[0] 0 8)).die = s.cur.die)
    (hn : fieldW s.c.g[0] 0 8 < 64) (h16 : fieldW s.c.g[0] 16 16 = 0) (hl : layoutOf r1 (s2.comm s.fnode (fieldW s.c.g[0] 0 8)).size = none) :
    Traps (.ecoll a b) s .engineFault (BitVec.ofNat 64 (0x100 + a.toNat)) 0 := by
  have hbad : s2.collCheck (s.mkCmd 8 false false (s.X a) (s.X b)) a b r1 r2 = engineFault (0x100 + a.toNat) := by
    unfold State.collCheck
    rw [show (s.mkCmd 8 false false (s.X a) (s.X b)).id = s.cur from rfl, show (s.mkCmd 8 false false (s.X a) (s.X b)).g = s.c.g from rfl]
    dsimp only
    rw [show s.cur.node = s.fnode from rfl, h16, hen, hdie, bne_self_eq_false, bne_self_eq_false, decide_eq_false (by omega), Bool.and_false, hl]
    rfl
  rw [Traps, exec_ecoll hra h1 h2, hbad]
  rfl

end

/-! ## ECLONE -/

section
variable {s s1 s2 : State} {a : Reg} (hra : s.c.ra = false)
include hra

theorem eclone_user (hu : s.sys = false) : Traps (.eclone a) s .privilege (BitVec.ofNat 64 (0x00000A9C + a.toNat * 2 ^ 13)) 0 := by
  refine traps_finish ((show _ = execEclone a s from rfl).trans ?_)
  unfold execEclone
  rw [if_neg (by rw [hra]; decide), hu, if_pos (by rfl)]
  rfl

theorem eclone_starts (hsys : s.sys = true) {w0 w1 w2 w3 : Nat} {l : List Nat} {es : List (Nat × Nat × Nat)}
    (hw : s.readWords (s.X a).toNat 8 = .ok (s1, w0 :: w1 :: w2 :: w3 :: l)) (h0 : ∀ w ∈ l, w = 0) (h12 : fieldN w0 12 4 = 0)
    (hn1 : 1 ≤ fieldN w0 16 16) (hn2 : fieldN w0 16 16 ≤ 1024) (h32 : fieldN w0 32 32 = 0) (h3 : fieldN w3 32 32 = 0) (h58 : w1 < 2 ^ 58)
    (hpeer : w1 = 0 ∨ paNode w1 = fieldN w0 0 12) (hg : fieldW s.c.g[0] 0 32 = 0) (hbar : barOk (fieldW s.c.g[0] 32 32) = true)
    (hr : s1.readRegions a (fieldN w0 0 12) ((s.X a).toNat + 64) (fieldN w0 16 16) = .ok (s2, es)) :
    Completes (.eclone a) s (fun t => t.mem = s2.mem ∧ t.c.x = s2.c.x ∧ t.nextCmd = s2.nextCmd + 1 ∧
      t.clones = s2.clones ++ [⟨s.mkCmd 10 false false (s.X a) 0, fieldN w0 0 12, w1, 0, es, 0, 0, false⟩]) := by
  have hany : l.any (fun w => w != 0) = false := by
    rw [List.any_eq_false]
    intro w hm
    rw [h0 w hm]
    decide
  have hp : (w1 != 0 && paNode w1 != fieldN w0 0 12) = false := by
    rcases hpeer with h | h
    · rw [h]
      rfl
    · rw [h, bne_self_eq_false, Bool.and_false]
  have he : exec (.eclone a) s = finish (.eclone a) s (.ok (({ s2 with
      clones := s2.clones ++ [⟨s.mkCmd 10 false false (s.X a) 0, fieldN w0 0 12, w1, 0, es, 0, 0, false⟩], nextCmd := s2.nextCmd + 1 } : State).wakeEngine
        (s.mkCmd 10 false false (s.X a) 0))) := by
    show execEclone a s = _
    unfold execEclone
    rw [if_neg (by rw [hra]; decide), hsys, if_neg (by exact Bool.false_ne_true)]
    dsimp only
    rw [show (s.mkCmd 10 false false (s.X a) 0).a = s.X a from rfl, hw, ok_bind]
    dsimp only
    rw [show (s.mkCmd 10 false false (s.X a) 0).g = s.c.g from rfl, hg]
    show finish _ s (engCheck false 0 >>= fun _ => engCheck (fieldN w0 12 4 != 0 || fieldN w0 16 16 == 0 || decide (1024 < fieldN w0 16 16) ||
      fieldN w0 32 32 != 0 || fieldN w3 32 32 != 0 || l.any (fun w => w != 0) || decide (2 ^ 58 ≤ w1) || (w1 != 0 && paNode w1 != fieldN w0 0 12)) _ >>= _) = _
    rw [h12, h32, h3, hany, hp, decide_eq_false (by omega), decide_eq_false (by omega), beq_eq_false_iff_ne.mpr (by omega)]
    show finish _ s (s1.readRegions a (fieldN w0 0 12) ((s.X a).toNat + 64) (fieldN w0 16 16) >>= _) = _
    rw [hr, ok_bind]
    dsimp only
    unfold barCheck
    rw [hbar]
    rfl
  refine completes_finish he ⟨complete_mem .., ?_, rfl, rfl⟩
  rw [retire_x]
  rfl

end

/-- Settles O43: ECOLL by its check and its issue, ECLONE by its record and regions. -/
theorem collectivesAndClonePlansStart : Obligations.CollectivesAndClonePlansStart := by
  intro s s1 s2 a b hra
  refine ⟨fun r1 r2 h1 h2 _ _ => ⟨fun i q hchk hnew hroom hq => ?_, fun hen => ecoll_disabled hra h1 h2 hen, fun hen _ hdie hn h16 hl =>
    ecoll_malformed hra h1 h2 hen hdie hn h16 hl⟩, fun hsys w0 w1 w2 w3 l es hw _ h0 h12 hn1 hn2 h32 h3 h58 hp hg hbar hr =>
    eclone_starts hra hsys hw h0 h12 hn1 hn2 h32 h3 h58 hp hg hbar hr, eclone_user hra⟩
  exact ecoll_opens hra h1 h2 rfl rfl rfl rfl rfl hchk hnew hroom hq

end Sys2Proof.CollStarts
end

section
/-! Messages: SEND, SENDV and SENDB. -/

namespace Sys2Proof.Sends
set_option Elab.async false
open Sys2Proof Sys2Proof.Machine Sys2Proof.Safety Sys2Proof.Ends
open Sys2Proof.MemoryOps (ok_bind)

theorem handleCheck_bad {h : Word} (hb : fieldW h 0 16 ≠ 0 ∨ 5 < fieldW h 49 3 ∨ 11 < hSlot h ∨ hMbox h = 511) :
    handleCheck h = raise .mailboxFault h := if_pos hb

theorem handleCheck_ok {h : Word} (h0 : fieldW h 0 16 = 0) (h5 : fieldW h 49 3 ≤ 5) (h11 : hSlot h ≤ 11) (hm : hMbox h ≠ 511) :
    handleCheck h = .ok () := by
  refine if_neg ?_
  rintro (h | h | h | h)
  · exact h h0
  · omega
  · omega
  · exact hm h

/-- A credit taken leaves the core's slot. -/
theorem useCredit_slot {c q : CoreSt} {h : Word} {n : Nat} (hu : c.useCredit h = some (q, n)) : q.slot = c.slot := by
  unfold CoreSt.useCredit at hu
  split at hu
  · cases hu
  · cases hu
    rfl

/-- The credit is that of the first window entry of the handle that has one, and the entry goes to the end. -/
theorem useCredit_head {c q : CoreSt} {h : Word} {n b m : Nat} {l : List SendEntry} (hw : c.sendWin = ⟨h, n + 1, b⟩ :: l) (hu : c.useCredit h = some (q, m)) :
    m = b ∧ q.sendWin.getLast? = some ⟨h, n, b⟩ := by
  unfold CoreSt.useCredit at hu
  rw [hw, List.find?_cons_of_pos (by rw [beq_self_eq_true]; rfl)] at hu
  cases hu
  exact ⟨rfl, List.getLast?_concat ..⟩

/-- The instruction ends as the message's sending does; a wait may keep more of the context than the sending alone. -/
structure SendsAs (i : Instr) (s : State) (r : Res) : Prop where
  ok : ∀ u, r = .ok u → exec i s = finish i s (.ok u)
  wait : ∀ u, r = .error (.wait .send u) → ∃ v, exec i s = finish i s (.error (.wait .send v)) ∧ v.cur = u.cur ∧ v.c.pc = u.c.pc ∧ v.mem = u.mem

theorem sendsAs_of_eq {i : Instr} {s : State} {r : Res} (he : exec i s = finish i s r) : SendsAs i s r :=
  ⟨fun _ hu => hu ▸ he, fun u hu => ⟨u, hu ▸ he, rfl, rfl, rfl⟩⟩

/-- The entry is on its way to the handle's mailbox. -/
def sentEntry (s : State) (q : CoreSt) (h : Word) (n : Nat) (x : Vec) (w : Option (BitVec 32)) (credit : Nat) : State :=
  { s.setCC q with flights := s.flights ++ [Flight.entry h s.cur n x w (s.bindingOf h) credit] }

section
variable {i : Instr} {s : State} {d : Reg} {h : Word} {n : Nat} {x : Vec} {w : Option (BitVec 32)}

theorem sendMsg_dead (hd : s.deadNode (hNode h) = true) : s.sendMsg d h n x w = .ok (s.setX d 2) := if_pos hd

variable (hd : s.deadNode (hNode h) = false)
include hd

theorem sendMsg_goes {q : CoreSt} {b : Nat} (hu : s.cc.useCredit h = some (q, b)) :
    s.sendMsg d h n x w = .ok (((sentEntry s q h n x w b).enq .messageArrival { node := hNode h, n := hPolder h }).setX d 0) := by
  have hcur : (s.setCC q).cur = s.cur := by
    unfold State.cur
    rw [setCC_cc, useCredit_slot hu]
    rfl
  unfold State.sendMsg
  rw [hd, if_neg Bool.false_ne_true, hu]
  dsimp only
  rw [hcur]
  rfl

variable (hu : s.cc.useCredit h = none)
include hu

theorem sendMsg_expired (hx : s.c.expired = true) : s.sendMsg d h n x w = .ok (s.setX d 1) := by
  unfold State.sendMsg
  rw [hd, if_neg Bool.false_ne_true, hu]
  dsimp only
  rw [if_pos hx]

/-- Without a credit the slot waits, and one is asked for. -/
theorem sendMsg_waits (hx : s.c.expired = false) : ∃ u, s.sendMsg d h n x w = .error (.wait .send u) ∧ u.cur = s.cur ∧ u.c.pc = s.c.pc ∧ u.mem = s.mem := by
  unfold State.sendMsg
  rw [hd, if_neg Bool.false_ne_true, hu]
  dsimp only
  rw [if_neg (by rw [hx]; exact Bool.false_ne_true)]
  have hpc : (s.setC { s.c with sendFor := some h }).c.pc = s.c.pc := by rw [setC_c]
  have hcur : (s.setC { s.c with sendFor := some h }).cur = s.cur := rfl
  have hmem : (s.setC { s.c with sendFor := some h }).mem = s.mem := rfl
  generalize s.setC { s.c with sendFor := some h } = u at hpc hcur hmem
  refine ⟨_, rfl, ?_, ?_, ?_⟩
  · split <;> exact hcur
  · split <;> exact hpc
  · split <;> exact hmem

end

/-- What is stated of each send, from its meaning. -/
theorem send_all {i : Instr} {s : State} {d : Reg} {h : Word} {n : Nat} {x : Vec} {w : Option (BitVec 32)}
    (he : SendsAs i s (s.sendMsg d h n x w)) :
    (s.deadNode (hNode h) = true → Completes i s (ResultX d 2 s)) ∧
    (s.deadNode (hNode h) = false →
      (∀ q b, s.cc.useCredit h = some (q, b) → Completes i s (Leaves ((sentEntry s q h n x w b).setX d 0))) ∧
      (s.cc.useCredit h = none → (s.c.expired = true → Completes i s (ResultX d 1 s)) ∧ (s.c.expired = false → Waits i s .send))) := by
  refine ⟨fun hd => completes_setX (he.ok _ (sendMsg_dead hd)), fun hd => ⟨fun q b hu => ?_, fun hu => ⟨fun hx =>
    completes_setX (he.ok _ (sendMsg_expired hd hu hx)), fun hx => ?_⟩⟩⟩
  · exact completes_finish (he.ok _ (sendMsg_goes hd hu))
      (leaves_retire (((sentEntry s q h n x w b).enq .messageArrival { node := hNode h, n := hPolder h }).setX d 0) i)
  · obtain ⟨u, hm, hcur, hpc, hmem⟩ := sendMsg_waits (d := d) (n := n) (x := x) (w := w) hd hu hx
    obtain ⟨v, hv, hcur', hpc', hmem'⟩ := he.wait u hm
    exact Barriers.waits_of_finish i s v _ hv (hcur'.trans hcur) (hpc'.trans hpc) (hmem'.trans hmem)

section
variable {s : State} {d h v : Reg} {w : BitVec 32} (hra : s.c.ra = false)
include hra

theorem exec_send : exec (.send d h v) s = finish (.send d h v) s (do
    handleCheck (s.X h)
    s.sendMsg d (s.X h) 8 ((s.X v).zeroExtend 256) none) := by
  show execSend d h v s = _
  unfold execSend
  rw [if_neg (by rw [hra]; decide)]

theorem exec_sendb : exec (.sendb d h v w) s = finish (.sendb d h v w) s (do
    handleCheck (s.X h)
    if hNode (s.X h) ≠ s.fnode then raise .mailboxFault (s.X h)
    else s.sendMsg d (s.X h) 8 ((s.X v).zeroExtend 256) (some w)) := by
  show execSendb d h v w s = _
  unfold execSendb
  rw [if_neg (by rw [hra]; decide)]

/-- SENDV of a register that no port is bound to: a wait has nothing of the stream to keep. -/
theorem sendv_sends (hport : s.c.portOf v = none) (hc : handleCheck (s.X h) = .ok ()) :
    SendsAs (.sendv d h v) s (s.sendMsg d (s.X h) 32 (s.c.vr v) none) := by
  have hex : exec (.sendv d h v) s = execSendv d h v s := rfl
  unfold execSendv at hex
  rw [if_neg (by rw [hra]; decide), hc, ok_bind, Lanes.readV_plain hport, ok_bind] at hex
  dsimp only at hex
  refine ⟨fun u hu => ?_, fun u hu => ⟨u.setC (u.c.sendKept s.c v (s.c.vr v)), ?_, rfl, ?_, rfl⟩⟩
  · rw [hu] at hex
    exact hex
  · rw [hu] at hex
    exact hex
  · rw [setC_c]
    unfold Ctx.sendKept
    rw [hport]

theorem send_faults (hb : fieldW (s.X h) 0 16 ≠ 0 ∨ 5 < fieldW (s.X h) 49 3 ∨ 11 < hSlot (s.X h) ∨ hMbox (s.X h) = 511) :
    Traps (.send d h v) s .mailboxFault (s.X h) 0 ∧ Traps (.sendv d h v) s .mailboxFault (s.X h) 0 ∧ Traps (.sendb d h v w) s .mailboxFault (s.X h) 0 := by
  refine ⟨?_, ?_, ?_⟩
  · rw [Traps, exec_send hra, handleCheck_bad hb]
    rfl
  · refine traps_finish ((show _ = execSendv d h v s from rfl).trans ?_)
    unfold execSendv
    rw [if_neg (by rw [hra]; decide), handleCheck_bad hb]
    rfl
  · rw [Traps, exec_sendb hra, handleCheck_bad hb]
    rfl

end

/-- Settles O44: the check of the handle, then the credit that the core has for it. -/
theorem messagesAreSent : Obligations.MessagesAreSent := by
  intro s d h v w hra hport
  refine ⟨fun e he => ⟨fun hb => ?_, fun h0 h5 h11 hm hown => ?_⟩, fun h0 h5 h11 hm hn => ?_, fun q k n b c l hw hk hu => useCredit_head (hk ▸ hw) hu⟩
  · obtain ⟨h1, h2, h3⟩ := send_faults (d := d) (v := v) (w := w) hra hb
    simp only [List.mem_cons, List.not_mem_nil, or_false] at he
    rcases he with rfl | rfl | rfl
    · exact h1
    · exact h2
    · exact h3
  · have hc := handleCheck_ok h0 h5 h11 hm
    simp only [List.mem_cons, List.not_mem_nil, or_false] at he
    rcases he with rfl | rfl | rfl
    · exact send_all (sendsAs_of_eq ((exec_send hra).trans (by rw [hc, ok_bind])))
    · exact send_all (sendv_sends hra hport hc)
    · refine send_all (sendsAs_of_eq ((exec_sendb hra).trans ?_))
      rw [hc, ok_bind, if_neg (fun hne => hne (beq_iff_eq.mp hown))]
  · rw [Traps, exec_sendb hra, handleCheck_ok h0 h5 h11 hm, ok_bind, if_pos hn]
    rfl

end Sys2Proof.Sends
end

section
/-! Mailboxes: MPOP, MPOPV and MPEEK, MBIND and MFREE. -/

namespace Sys2Proof.Mailboxes
set_option Elab.async false
open Sys2Proof Sys2Proof.Machine Sys2Proof.Safety Sys2Proof.Ends Sys2Proof.Access
open Sys2Proof.MemoryOps (ok_bind)

/-! ## The mailbox and what a pop makes of it -/

theorem setMbox_mbox (s : State) (node p m : Nat) (b : Mbox) : (s.setMbox node p m b).mbox node p m = some b := by
  unfold State.setMbox State.mbox
  rw [setPolder_polder_same, tfind_tset_same]

theorem mbox_of_polders {s t : State} (h : t.polders = s.polders) (node p m : Nat) : t.mbox node p m = s.mbox node p m := by
  unfold State.mbox State.polder
  rw [h]

/-- The mailbox after its head entry has left. -/
def afterPop (b : Mbox) : Mbox :=
  { b with head := (b.head + 1) % b.size, held := b.held - 1, freed := b.freed + 1, half := false, srcs := b.srcs.drop 1 }

theorem popped_facts (s : State) (n : Nat) (b : Mbox) : (s.popped n b).mem = s.mem ∧ (s.popped n b).c = s.c ∧
    (s.popped n b).mbox s.fnode s.pIdx n = some (afterPop b) := by
  unfold State.popped
  dsimp only
  split
  · exact ⟨rfl, rfl, setMbox_mbox ..⟩
  · exact ⟨rfl, rfl, setMbox_mbox ..⟩

theorem quiet_popAcquire (s : State) (b : Mbox) : Quiet s (s.popAcquire b) := by
  unfold State.popAcquire
  split
  · split
    · exact .refl s
    · exact LineLocks.quiet_acquire s
  · exact LineLocks.quiet_acquire s

theorem quiet_polders {s t : State} (h : Quiet s t) : t.polders = s.polders := by rw [h.1]
theorem quiet_mem {s t : State} (h : Quiet s t) : t.mem = s.mem := by rw [h.1]

/-! ## The checks of a pop -/

section
variable {s : State} {d m : Reg} (hra : s.c.ra = false)

theorem myMbox_own {b : Mbox} (h9 : fieldW (s.X m) 9 55 = 0) (hb : s.mbox s.fnode s.pIdx (fieldW (s.X m) 0 9) = some b) (ho : b.owner.core = s.fcore) : s.myMbox (s.X m) = .ok (fieldW (s.X m) 0 9, b) := by
  unfold State.myMbox
  rw [if_neg (fun h => h h9), hb]
  exact if_pos ho

theorem popCheck_ok {b : Mbox} (hn : ¬ (s.c.wait = some .mailbox ∧ s.cur ∉ b.waits)) : s.popCheck (s.X m) b = .ok () := by
  refine if_neg fun h => hn ⟨h.1, fun hm => ?_⟩
  have := h.2
  rw [List.contains_iff_mem.mpr hm] at this
  exact Bool.false_ne_true this

theorem popCheck_gone {b : Mbox} (hg : s.c.wait = some .mailbox ∧ s.cur ∉ b.waits) : s.popCheck (s.X m) b = raise .mailboxFault (s.X m) := by
  refine if_pos ⟨hg.1, ?_⟩
  rw [Bool.not_eq_true', Bool.eq_false_iff]
  exact fun h => hg.2 (List.contains_iff_mem.mp h)

theorem pop_waits {i : Instr} {b : Mbox} {n : Nat} (he : exec i s = finish i s (s.popWait n b)) : Waits i s .mailbox :=
  Barriers.waits_of_finish i s _ _ he rfl rfl rfl

include hra

/-- A pop whose mailbox is not the core's own to pop, or no longer. -/
theorem pops_fault (h : s.myMbox (s.X m) = raise .mailboxFault (s.X m) ∨
      ∃ n b, s.myMbox (s.X m) = .ok (n, b) ∧ s.popCheck (s.X m) b = raise .mailboxFault (s.X m)) :
    ∀ i ∈ [Instr.mpop d m, .mpopv d m], Traps i s .mailboxFault (s.X m) 0 := by
  intro i hi
  simp only [List.mem_cons, List.not_mem_nil, or_false] at hi
  rcases hi with rfl | rfl
  · refine traps_finish ((show _ = execMpop d m s from rfl).trans ?_)
    unfold execMpop
    rw [if_neg (by rw [hra]; decide)]
    rcases h with h | ⟨n, b, h, hc⟩
    · rw [h]
      rfl
    · rw [h, ok_bind]
      dsimp only
      rw [hc]
      rfl
  · refine traps_finish ((show _ = execMpopv d m s from rfl).trans ?_)
    unfold execMpopv
    rw [if_neg (by rw [hra]; decide)]
    rcases h with h | ⟨n, b, h, hc⟩
    · rw [h]
      rfl
    · rw [h, ok_bind]
      dsimp only
      rw [hc]
      rfl

theorem mpeek_upper (h9 : fieldW (s.X m) 9 55 ≠ 0) : Traps (.mpeek d m) s .mailboxFault (s.X m) 0 := by
  refine traps_finish ((show _ = execMpeek d m s from rfl).trans ?_)
  unfold execMpeek
  rw [if_neg (by rw [hra]; decide)]
  dsimp only
  rw [if_pos h9]

theorem mpeek_unbound (h9 : fieldW (s.X m) 9 55 = 0) (hb : s.mbox s.fnode s.pIdx (fieldW (s.X m) 0 9) = none) :
    Completes (.mpeek d m) s (ResultX d 0 s) := by
  refine completes_setX ((show _ = execMpeek d m s from rfl).trans ?_)
  unfold execMpeek
  rw [if_neg (by rw [hra]; decide)]
  dsimp only
  rw [if_neg (fun h => h h9), hb]

section
variable {b : Mbox} (h9 : fieldW (s.X m) 9 55 = 0) (hb : s.mbox s.fnode s.pIdx (fieldW (s.X m) 0 9) = some b)
include h9 hb

theorem mpeek_other (ho : b.owner.core ≠ s.fcore) : Traps (.mpeek d m) s .mailboxFault (s.X m) 0 := by
  refine traps_finish ((show _ = execMpeek d m s from rfl).trans ?_)
  unfold execMpeek
  rw [if_neg (by rw [hra]; decide)]
  dsimp only
  rw [if_neg (fun h => h h9), hb]
  exact congrArg (finish _ s) (if_pos ho)

variable (ho : b.owner.core = s.fcore)
include ho

theorem mpeek_bound : Completes (.mpeek d m) s (ResultX d (BitVec.ofNat 64 (2 ^ 63 + b.handler.isSome.toNat * 2 ^ 13 + b.held % 2 ^ 13)) s) := by
  refine completes_setX ((show _ = execMpeek d m s from rfl).trans ?_)
  unfold execMpeek
  rw [if_neg (by rw [hra]; decide)]
  dsimp only
  rw [if_neg (fun h => h h9), hb]
  exact congrArg (finish _ s) (if_neg (fun h => h ho))

theorem mpop_size (he : b.esize ≠ 8) : Traps (.mpop d m) s .mailboxFault (s.X m) 0 := by
  by_cases hg : s.c.wait = some .mailbox ∧ s.cur ∉ b.waits
  · exact pops_fault (d := d) hra (.inr ⟨_, b, myMbox_own h9 hb ho, popCheck_gone hg⟩) _ (List.mem_cons_self ..)
  · refine traps_finish ((show _ = execMpop d m s from rfl).trans ?_)
    unfold execMpop
    rw [if_neg (by rw [hra]; decide), myMbox_own h9 hb ho, ok_bind]
    dsimp only
    rw [popCheck_ok hg, ok_bind, if_pos he]

theorem mpopv_size (he : b.esize < 32) : Traps (.mpopv d m) s .mailboxFault (s.X m) 0 := by
  by_cases hg : s.c.wait = some .mailbox ∧ s.cur ∉ b.waits
  · exact pops_fault (d := d) hra (.inr ⟨_, b, myMbox_own h9 hb ho, popCheck_gone hg⟩) _ (List.mem_cons_of_mem _ (List.mem_cons_self ..))
  · refine traps_finish ((show _ = execMpopv d m s from rfl).trans ?_)
    unfold execMpopv
    rw [if_neg (by rw [hra]; decide), myMbox_own h9 hb ho, ok_bind]
    dsimp only
    rw [popCheck_ok hg, ok_bind, if_pos he]

variable (hn : ¬ (s.c.wait = some .mailbox ∧ s.cur ∉ b.waits))
include hn

theorem exec_mpop (he : b.esize = 8) : exec (.mpop d m) s = finish (.mpop d m) s (
    if b.held = 0 then s.popWait (fieldW (s.X m) 0 9) b
    else do
      let v ← s.ringRead (b.ring + 8 * b.head) 8
      .ok (((s.popped (fieldW (s.X m) 0 9) b).popAcquire b).setX d (BitVec.ofNat 64 v))) := by
  show execMpop d m s = _
  unfold execMpop
  rw [if_neg (by rw [hra]; decide), myMbox_own h9 hb ho, ok_bind]
  dsimp only
  rw [popCheck_ok hn, ok_bind, if_neg (fun h => h he)]

theorem exec_mpopv (he : 32 ≤ b.esize) (hport : s.c.portOf d = none) : exec (.mpopv d m) s = finish (.mpopv d m) s (
    if b.held = 0 then s.popWait (fieldW (s.X m) 0 9) b
    else do
      let v ← s.ringRead (b.ring + b.esize * b.head + (if b.half then 32 else 0)) 32
      let u := s.setC (s.c.setV d (BitVec.ofNat 256 v))
      .ok ((if b.esize = 64 ∧ !b.half then u.setMbox s.fnode s.pIdx (fieldW (s.X m) 0 9) { b with half := true }
        else u.popped (fieldW (s.X m) 0 9) b).popAcquire b)) := by
  have happ : s.appendCheck d = .ok () := by
    unfold State.appendCheck State.writeV
    rw [hport]
    split <;> rfl
  have hw : ∀ v, s.writeV d v false = .ok (s.setC (s.c.setV d v)) := by
    intro v
    unfold State.writeV
    rw [hport]
  show execMpopv d m s = _
  unfold execMpopv
  rw [if_neg (by rw [hra]; decide), myMbox_own h9 hb ho, ok_bind]
  dsimp only
  rw [popCheck_ok hn, ok_bind, if_neg (by omega), happ]
  refine congrArg (finish _ s) ?_
  split
  · rfl
  · cases s.ringRead (b.ring + b.esize * b.head + (if b.half then 32 else 0)) 32 with
    | error e => rfl
    | ok v =>
      rw [ok_bind, hw]
      rfl

theorem mpop_waits (he : b.esize = 8) (h0 : b.held = 0) : Waits (.mpop d m) s .mailbox :=
  pop_waits ((exec_mpop hra h9 hb ho hn he).trans (by rw [if_pos h0]))

theorem mpopv_waits (he : 32 ≤ b.esize) (hport : s.c.portOf d = none) (h0 : b.held = 0) : Waits (.mpopv d m) s .mailbox :=
  pop_waits ((exec_mpopv hra h9 hb ho hn he hport).trans (by rw [if_pos h0]))

variable (h0 : b.held ≠ 0)
include h0

theorem mpop_lost {la : Nat} (hla : b.ring + 8 * b.head = la) (he : b.esize = 8) (hl : s.lostWordIn (spadAddr s.fnode s.pIdx la) 8 = true) :
    Traps (.mpop d m) s .dataLost (BitVec.ofNat 64 (localVa la)) 0 := by
  subst hla
  rw [Traps, exec_mpop hra h9 hb ho hn he, if_neg h0]
  unfold State.ringRead
  rw [if_pos hl]
  rfl

theorem mpop_takes {la : Nat} (hla : b.ring + 8 * b.head = la) (he : b.esize = 8) (hl : s.lostWordIn (spadAddr s.fnode s.pIdx la) 8 = false) :
    Completes (.mpop d m) s (fun t => t.mem = s.mem ∧ t.c.v = s.c.v ∧ t.mbox s.fnode s.pIdx (fieldW (s.X m) 0 9) = some (afterPop b) ∧
      XIs s t d (BitVec.ofNat 64 (memRead s.mem (spadAddr s.fnode s.pIdx la) 8))) := by
  subst hla
  have hr : s.ringRead (b.ring + 8 * b.head) 8 = .ok (memRead s.mem (spadAddr s.fnode s.pIdx (b.ring + 8 * b.head)) 8) :=
    if_neg (by rw [hl]; exact Bool.false_ne_true)
  obtain ⟨hm, hc, hbox⟩ := popped_facts s (fieldW (s.X m) 0 9) b
  have hq := quiet_popAcquire (s.popped (fieldW (s.X m) 0 9) b) b
  have hex := (exec_mpop (d := d) hra h9 hb ho hn he).trans (by rw [if_neg h0, hr, ok_bind])
  generalize (s.popped (fieldW (s.X m) 0 9) b).popAcquire b = u at hex hq
  have huc : u.c = s.c := hq.c.trans hc
  refine completes_finish hex ⟨?_, ?_, ?_, xIs_congr (by rw [huc]) (xIs_retire_setX u _ d _)⟩
  · exact (complete_mem ..).trans ((setX_mem ..).trans ((quiet_mem hq).trans hm))
  · rw [retire_v, setX_c, ctx_setX_v, huc]
  · exact (mbox_of_polders (quiet_polders hq) ..).trans hbox

theorem mpopv_lost (he : 32 ≤ b.esize) (hport : s.c.portOf d = none)
    (hl : s.lostWordIn (spadAddr s.fnode s.pIdx (b.ring + b.esize * b.head + (if b.half then 32 else 0))) 32 = true) :
    Traps (.mpopv d m) s .dataLost (BitVec.ofNat 64 (localVa (b.ring + b.esize * b.head + (if b.half then 32 else 0)))) 0 := by
  rw [Traps, exec_mpopv hra h9 hb ho hn he hport, if_neg h0]
  have hr : s.ringRead (b.ring + b.esize * b.head + (if b.half then 32 else 0)) 32 =
    raiseAcc .dataLost (BitVec.ofNat 64 (localVa (b.ring + b.esize * b.head + (if b.half then 32 else 0)))) 0 := if_pos hl
  rw [hr]
  rfl

theorem mpopv_takes (he : 32 ≤ b.esize) (hport : s.c.portOf d = none)
    (hl : s.lostWordIn (spadAddr s.fnode s.pIdx (b.ring + b.esize * b.head + (if b.half then 32 else 0))) 32 = false) :
    Completes (.mpopv d m) s (fun t => t.mem = s.mem ∧ t.c.x = s.c.x ∧ (∀ r, r ≠ d → t.c.vr r = s.c.vr r) ∧
      t.mbox s.fnode s.pIdx (fieldW (s.X m) 0 9) = some (if b.esize = 64 ∧ b.half = false then { b with half := true } else afterPop b) ∧
      t.c.vr d = BitVec.ofNat 256 (memRead s.mem (spadAddr s.fnode s.pIdx (b.ring + b.esize * b.head + (if b.half then 32 else 0))) 32)) := by
  have hr : s.ringRead (b.ring + b.esize * b.head + (if b.half then 32 else 0)) 32 =
    .ok (memRead s.mem (spadAddr s.fnode s.pIdx (b.ring + b.esize * b.head + (if b.half then 32 else 0))) 32) := if_neg (by rw [hl]; exact Bool.false_ne_true)
  have hex := (exec_mpopv (d := d) hra h9 hb ho hn he hport).trans (by rw [if_neg h0, hr, ok_bind])
  generalize memRead s.mem (spadAddr s.fnode s.pIdx (b.ring + b.esize * b.head + (if b.half then 32 else 0))) 32 = v at hex ⊢
  dsimp only at hex
  have hw : ∃ w, (if b.esize = 64 ∧ (!b.half) = true then (s.setC (s.c.setV d (BitVec.ofNat 256 v))).setMbox s.fnode s.pIdx (fieldW (s.X m) 0 9) { b with half := true }
        else (s.setC (s.c.setV d (BitVec.ofNat 256 v))).popped (fieldW (s.X m) 0 9) b) = w ∧ w.mem = s.mem ∧ w.c = s.c.setV d (BitVec.ofNat 256 v) ∧
      w.mbox s.fnode s.pIdx (fieldW (s.X m) 0 9) = some (if b.esize = 64 ∧ b.half = false then { b with half := true } else afterPop b) := by
    refine ⟨_, rfl, ?_⟩
    have hh : (!b.half) = true ↔ b.half = false := by rw [Bool.not_eq_true']
    by_cases hhalf : b.esize = 64 ∧ (!b.half) = true
    · rw [if_pos hhalf, if_pos (hhalf.imp_right hh.mp)]
      exact ⟨rfl, setC_c .., setMbox_mbox ..⟩
    · rw [if_neg hhalf, if_neg (fun h => hhalf (h.imp_right hh.mpr))]
      obtain ⟨hm, hc, hbox⟩ := popped_facts (s.setC (s.c.setV d (BitVec.ofNat 256 v))) (fieldW (s.X m) 0 9) b
      exact ⟨hm, hc.trans (setC_c ..), hbox⟩
  obtain ⟨w, hweq, hm, hc, hbox⟩ := hw
  rw [hweq] at hex
  have hq := quiet_popAcquire w b
  generalize w.popAcquire b = u at hex hq
  refine completes_finish hex ⟨?_, ?_, fun r hr => ?_, ?_, ?_⟩
  · exact (complete_mem ..).trans ((quiet_mem hq).trans hm)
  · rw [retire_x, hq.c, hc]
    rfl
  · rw [retire_vr, hq.c, hc, vr_setV_other _ _ _ _ hr]
  · exact (mbox_of_polders (quiet_polders hq) ..).trans hbox
  · rw [retire_vr, hq.c, hc, vr_setV_same]

end
end

/-! ## MBIND and MFREE -/

section
variable {s u : State} {d a : Reg} {w0 w1 w2 w3 : Nat} (hra : s.c.ra = false) (hal : recordAlign (s.X a).toNat 32 32 = .ok ())
  (hw : s.readWords (s.X a).toNat 4 = .ok (u, [w0, w1, w2, w3]))
include hra hal hw

/-- What MBIND makes of a descriptor that it has read. -/
def bindBy (u : State) (d : Reg) (w0 w1 w2 w3 : Nat) : State :=
  if descBad (!u.sys) w0 w1 w2 w3 then u.setX d 2
  else if (u.mbox u.fnode u.pIdx (fieldN w0 48 9)).isSome then u.setX d 1
  else if u.pol.ringBad (fieldN w0 0 32) (entryBytes (fieldN w0 32 2) * 2 ^ fieldN w0 40 8) then u.setX d 2
  else ((u.setPol { u.pol with binds := u.pol.binds + 1 }).setMbox u.fnode u.pIdx (fieldN w0 48 9) ⟨u.cur, u.c.gen, fieldN w0 0 32, entryBytes (fieldN w0 32 2),
    fieldN w0 40 8, BitVec.ofNat 64 w1, 0, 0, 0, 0, false, [], none, [], [], u.pol.binds + 1⟩).setX d (mkHandle u.cur u.c.gen (fieldN w0 48 9))

theorem exec_mbind : exec (.mbind d a) s = finish (.mbind d a) s (.ok (bindBy u d w0 w1 w2 w3)) := by
  show execMbind d a s = _
  unfold execMbind
  rw [if_neg (by rw [hra]; decide), hal, ok_bind, hw, ok_bind]
  refine congrArg (finish _ s) ?_
  unfold bindBy
  dsimp only
  rw [apply_ite Except.ok, apply_ite Except.ok, apply_ite Except.ok]
  rfl

variable (hc : u.c = { s.c with surveyed := u.c.surveyed })
include hc

/-- A bind that ends with a status alone. -/
theorem mbind_status {v : Word} (h : bindBy u d w0 w1 w2 w3 = u.setX d v) :
    Completes (.mbind d a) s (fun t => XIs s t d v ∧ t.polders = u.polders ∧ t.mem = u.mem) := by
  refine completes_finish ((exec_mbind hra hal hw).trans (by rw [h])) ⟨xIs_congr (by rw [hc]) (xIs_retire_setX u _ d v), rfl, ?_⟩
  exact (complete_mem ..).trans (setX_mem ..)

theorem mbind_bad (h : descBad (!u.sys) w0 w1 w2 w3 = true) :
    Completes (.mbind d a) s (fun t => XIs s t d 2 ∧ t.polders = u.polders ∧ t.mem = u.mem) := mbind_status hra hal hw hc (if_pos h)

variable (hgood : descBad (!u.sys) w0 w1 w2 w3 = false) (hcur : u.cur = s.cur)
include hgood hcur

theorem mbind_taken (h : (u.mbox s.fnode s.pIdx (fieldN w0 48 9)).isSome = true) :
    Completes (.mbind d a) s (fun t => XIs s t d 1 ∧ t.polders = u.polders ∧ t.mem = u.mem) := by
  have hn : u.fnode = s.fnode := congrArg CtxId.node hcur
  have hk : u.pIdx = s.pIdx := congrArg (fun id : CtxId => id.core / 8) hcur
  refine mbind_status hra hal hw hc ?_
  unfold bindBy
  rw [hgood, if_neg Bool.false_ne_true, hn, hk, if_pos h]

theorem mbind_ringBad (h : u.mbox s.fnode s.pIdx (fieldN w0 48 9) = none)
    (hb : u.pol.ringBad (fieldN w0 0 32) (entryBytes (fieldN w0 32 2) * 2 ^ fieldN w0 40 8) = true) :
    Completes (.mbind d a) s (fun t => XIs s t d 2 ∧ t.polders = u.polders ∧ t.mem = u.mem) := by
  have hn : u.fnode = s.fnode := congrArg CtxId.node hcur
  have hk : u.pIdx = s.pIdx := congrArg (fun id : CtxId => id.core / 8) hcur
  refine mbind_status hra hal hw hc ?_
  unfold bindBy
  rw [hgood, if_neg Bool.false_ne_true, hn, hk, h, if_neg (by exact Bool.false_ne_true), if_pos hb]

theorem mbind_binds (h : u.mbox s.fnode s.pIdx (fieldN w0 48 9) = none)
    (hb : u.pol.ringBad (fieldN w0 0 32) (entryBytes (fieldN w0 32 2) * 2 ^ fieldN w0 40 8) = false) :
    Completes (.mbind d a) s (fun t => t.mem = u.mem ∧ XIs s t d (mkHandle s.cur s.c.gen (fieldN w0 48 9)) ∧
      t.mbox s.fnode s.pIdx (fieldN w0 48 9) = some ⟨s.cur, s.c.gen, fieldN w0 0 32, entryBytes (fieldN w0 32 2), fieldN w0 40 8, BitVec.ofNat 64 w1, 0, 0, 0, 0,
        false, [], none, [], [], u.pol.binds + 1⟩) := by
  have hn : u.fnode = s.fnode := congrArg CtxId.node hcur
  have hk : u.pIdx = s.pIdx := congrArg (fun id : CtxId => id.core / 8) hcur
  have hg : u.c.gen = s.c.gen := by rw [hc]
  have heq : bindBy u d w0 w1 w2 w3 = ((u.setPol { u.pol with binds := u.pol.binds + 1 }).setMbox s.fnode s.pIdx (fieldN w0 48 9)
      ⟨s.cur, s.c.gen, fieldN w0 0 32, entryBytes (fieldN w0 32 2), fieldN w0 40 8, BitVec.ofNat 64 w1, 0, 0, 0, 0, false, [], none, [], [],
        u.pol.binds + 1⟩).setX d (mkHandle s.cur s.c.gen (fieldN w0 48 9)) := by
    unfold bindBy
    rw [hgood, if_neg Bool.false_ne_true, hn, hk, h, if_neg (by exact Bool.false_ne_true), hb, if_neg Bool.false_ne_true, hcur, hg]
  refine completes_finish ((exec_mbind hra hal hw).trans (by rw [heq])) ⟨?_, xIs_congr ?_ (xIs_retire_setX _ _ d _), ?_⟩
  · exact (complete_mem ..).trans (setX_mem ..)
  · show u.c.x = s.c.x
    rw [hc]
  · exact setMbox_mbox ..

end

/-- What a descriptor may be wrong in. -/
theorem descBad_iff {user : Bool} {w0 w1 w2 w3 : Nat} : descBad user w0 w1 w2 w3 = true ↔
    fieldN w0 32 2 = 3 ∨ fieldN w0 34 6 ≠ 0 ∨ fieldN w0 40 8 = 0 ∨ 12 < fieldN w0 40 8 ∨ 511 < fieldN w0 48 16 ∨ (user = true ∧ fieldN w0 48 16 = 511) ∨
      fieldN w1 0 2 ≠ 0 ∨ w2 ≠ 0 ∨ w3 ≠ 0 := by
  unfold descBad
  simp only [Bool.or_eq_true, Bool.and_eq_true, bne_iff_ne, beq_iff_eq, decide_eq_true_eq]
  tauto

theorem ringBad_iff {q : Polder} {la n : Nat} : q.ringBad la n = true ↔ fieldN la 29 3 ≠ 2 ∨ la % 64 ≠ 0 ∨ 4 * 2 ^ 20 < fieldN la 0 29 + n ∨
    ∃ x ∈ q.mboxes, la < x.2.ring + x.2.esize * x.2.size ∧ x.2.ring < la + n := by
  unfold Polder.ringBad
  simp only [Bool.or_eq_true, bne_iff_ne, decide_eq_true_eq, List.any_eq_true, or_assoc]

section
variable {s : State} {d a : Reg} (hra : s.c.ra = false)

theorem unbind_facts (s : State) (node p m : Nat) : (s.unbind node p m).mbox node p m = none ∧ (s.unbind node p m).c = s.c := by
  unfold State.unbind
  split
  next h => exact ⟨h, rfl⟩
  next b h =>
    have hf : ∀ (l : List (Nat × Nat × Nat)) (u : State),
        (l.foldl (fun s (r : Nat × Nat × Nat) => s.enq .creditGrant { node := r.1, core := r.2.1 }) u).c = u.c := by
      intro l
      induction l with
      | nil => exact fun _ => rfl
      | cons r l ih => exact fun u => ih _
    refine ⟨?_, ?_⟩
    · unfold State.mbox
      dsimp only
      rw [setPolder_polder_same]
      exact tfind_tdel_same ..
    · exact hf ..

variable {b : Mbox} (hb : s.mbox s.fnode s.pIdx (fieldW (s.X a) 0 9) = some b)
include hra hb

theorem mfree_frees (ho : b.owner = s.cur ∨ s.sys = true) :
    Completes (.mfree d a) s (fun t => XIs s t d 0 ∧ t.mem = s.mem ∧ t.mbox s.fnode s.pIdx (fieldW (s.X a) 0 9) = none) := by
  obtain ⟨hbox, hc⟩ := unbind_facts s s.fnode s.pIdx (fieldW (s.X a) 0 9)
  have hm := Canon.mem_unbind s s.fnode s.pIdx (fieldW (s.X a) 0 9)
  have hex : exec (.mfree d a) s = finish (.mfree d a) s (.ok ((s.unbind s.fnode s.pIdx (fieldW (s.X a) 0 9)).setX d 0)) := by
    show execMfree d a s = _
    unfold execMfree
    rw [if_neg (by rw [hra]; decide)]
    dsimp only
    rw [hb]
    exact congrArg (finish _ s) (if_pos ho)
  generalize s.unbind s.fnode s.pIdx (fieldW (s.X a) 0 9) = u at hex hbox hc hm
  exact completes_finish hex ⟨xIs_congr (by rw [hc]) (xIs_retire_setX u _ d 0), (complete_mem ..).trans ((setX_mem ..).trans hm),
    (mbox_of_polders rfl ..).trans hbox⟩

theorem mfree_refused (ho : b.owner ≠ s.cur) (hs : s.sys = false) : Completes (.mfree d a) s (ResultX d 1 s) := by
  refine completes_setX ((show _ = execMfree d a s from rfl).trans ?_)
  unfold execMfree
  rw [if_neg (by rw [hra]; decide)]
  dsimp only
  rw [hb]
  exact congrArg (finish _ s) (if_neg (fun h => h.elim ho (fun h => by rw [hs] at h; exact Bool.false_ne_true h)))

end

/-- Settles O45: a pop by the mailbox that its number names, a bind by its descriptor and its ring, a free by the owner. -/
theorem mailboxesBindAndReceive : Obligations.MailboxesBindAndReceive := by
  refine ⟨fun s d m hra hport => ⟨fun h9 => ?_, fun h9 hb => ?_, fun b h9 hb ho => ?_, fun b h9 hb ho => ?_⟩, fun s u d a w0 w1 w2 w3 hra => ⟨?_, ?_⟩⟩
  · have hmy : s.myMbox (s.X m) = raise .mailboxFault (s.X m) := if_pos h9
    rw [List.forall_mem_cons, List.forall_mem_cons, List.forall_mem_singleton]
    exact ⟨pops_fault hra (.inl hmy) _ (List.mem_cons_self ..), pops_fault hra (.inl hmy) _ (List.mem_cons_of_mem _ (List.mem_cons_self ..)), mpeek_upper hra h9⟩
  · have hmy : s.myMbox (s.X m) = raise .mailboxFault (s.X m) := by
      unfold State.myMbox
      rw [if_neg (fun h => h h9), hb]
    exact ⟨mpeek_unbound hra h9 hb, pops_fault hra (.inl hmy)⟩
  · have hmy : s.myMbox (s.X m) = raise .mailboxFault (s.X m) := by
      unfold State.myMbox
      rw [if_neg (fun h => h h9), hb]
      exact if_neg ho
    rw [List.forall_mem_cons, List.forall_mem_cons, List.forall_mem_singleton]
    exact ⟨pops_fault hra (.inl hmy) _ (List.mem_cons_self ..), pops_fault hra (.inl hmy) _ (List.mem_cons_of_mem _ (List.mem_cons_self ..)),
      mpeek_other hra h9 hb ho⟩
  · refine ⟨mpeek_bound hra h9 hb ho, mpop_size hra h9 hb ho, mpopv_size hra h9 hb ho,
      fun hg => pops_fault hra (.inr ⟨_, b, myMbox_own h9 hb ho, popCheck_gone hg⟩), fun he h0 hn => mpop_waits hra h9 hb ho hn he h0,
      fun he h0 hn => mpopv_waits hra h9 hb ho hn he hport h0, fun h0 hn => ⟨fun he hl => ?_, fun he hl => ?_, fun he hl => ?_, fun he hl => ?_⟩⟩
    · exact mpop_lost hra h9 hb ho hn h0 (by rw [he]; rfl) he hl
    · exact mpopv_lost hra h9 hb ho hn h0 he hport hl
    · exact mpop_takes hra h9 hb ho hn h0 (by rw [he]; rfl) he hl
    · exact mpopv_takes hra h9 hb ho hn h0 (by omega) hport hl
  · intro hal hw hc hcur
    have hsys : u.sys = s.sys := congrArg (fun id : CtxId => id.slot == 11) hcur
    refine ⟨fun h => mbind_bad hra hal hw hc (descBad_iff.mpr ?_), fun h34 h32 hk1 hk12 h511 h1 h2 h3 => ?_⟩
    · rw [hsys, Bool.not_eq_true']
      exact h
    · have hgood : descBad (!u.sys) w0 w1 w2 w3 = false := by
        rw [Bool.eq_false_iff, Ne, descBad_iff, hsys, Bool.not_eq_true']
        rintro (h | h | h | h | h | ⟨h, h'⟩ | h | h | h)
        · exact h32 h
        · exact h h34
        · omega
        · omega
        · omega
        · rcases h511 with h5 | h5
          · omega
          · rw [h5.1] at h
            cases h
        · exact h h1
        · exact h h2
        · exact h h3
      refine ⟨mbind_taken hra hal hw hc hgood hcur, fun hn hb => mbind_ringBad hra hal hw hc hgood hcur hn (ringBad_iff.mpr hb), fun hn h29 h64 hfit hclear => ?_⟩
      refine mbind_binds hra hal hw hc hgood hcur hn ?_
      rw [Bool.eq_false_iff, Ne, ringBad_iff]
      rintro (h | h | h | ⟨x, hx, h⟩)
      · exact h h29
      · exact h h64
      · omega
      · have := hclear x hx
        omega
  · intro n b hb
    exact ⟨mfree_frees hra hb, mfree_refused hra hb⟩

end Sys2Proof.Mailboxes
end

section
/-! Tokens: TSEND and TBWD. -/

namespace Sys2Proof.Tokens
set_option Elab.async false
open Sys2Proof Sys2Proof.Machine Sys2Proof.Safety Sys2Proof.Ends
open Sys2Proof.MemoryOps (ok_bind)

/-! ## A slot that waits for its token -/

/-- The slot stalls and keeps of its context what a token instruction speaks of; memory and the tokens under way stay too. -/
structure StallsWith (i : Instr) (s u : State) : Prop where
  goes : ∃ t, exec i s = .next t ∧ (t.ctx s.cur).st = .stalled ∧ (t.ctx s.cur).wait = some .token ∧ (t.ctx s.cur).seq = u.c.seq ∧
    (t.ctx s.cur).pending = u.c.pending ∧ (t.ctx s.cur).tok = u.c.tok ∧ t.mem = u.mem ∧ t.tokens = u.tokens

theorem holdWords_c (u : State) (i : Instr) : ∃ h, (u.holdWords i).c = { u.c with held := h } := by
  unfold State.holdWords
  split
  · exact ⟨u.c.held, rfl⟩
  · exact ⟨_, setC_c ..⟩

theorem holdWords_tokens (u : State) (i : Instr) : (u.holdWords i).tokens = u.tokens := by
  unfold State.holdWords
  split <;> rfl

theorem stallsWith_of_finish {i : Instr} {s u : State} (he : exec i s = finish i s (.error (.wait .token u))) (hcur : u.cur = s.cur) :
    StallsWith i s u := by
  obtain ⟨h, hc⟩ := holdWords_c u i
  have hst : ((u.holdWords i).stall .token).ctx s.cur =
      { (u.holdWords i).c with st := .stalled, wait := some .token, surveyed := (u.holdWords i).c.surveyed.map (fun e => (e.1, false)) } := by
    rw [← hcur, ← Barriers.holdWords_cur u i]
    exact setC_c ..
  refine ⟨_, he, ?_, ?_, ?_, ?_, ?_, Barriers.holdWords_mem u i, holdWords_tokens u i⟩ <;> rw [hst, hc]

/-! ## The branches of `tokenSend` -/

section
variable {i : Instr} {d a b : Reg} {fwd : Bool} {s : State} (hra : s.c.ra = false)
include hra

theorem tokenSend_bad (ht : fieldW (s.X a) 24 11 ≠ 0) : tokenSend i d a b fwd s = finish i s (raise .tokenFault (s.X a)) := by
  have hop : tokOperands (s.X a) (s.X b) fwd = raise .tokenFault (s.X a) := if_pos (Or.inl ht)
  unfold tokenSend
  rw [if_neg (by rw [hra]; decide)]
  dsimp only
  rw [hop]
  rfl

variable (hop : tokOperands (s.X a) (s.X b) fwd = .ok ())
include hop

theorem tokenSend_first (hn : s.c.tok = none) : tokenSend i d a b fwd s = finish i s (s.tokStart d (s.X a) (s.X b) fwd) := by
  unfold tokenSend
  rw [if_neg (by rw [hra]; decide)]
  dsimp only
  rw [hop, ok_bind, hn]

variable {w : TokWait} (hw : s.c.tok = some w)
include hw

theorem tokenSend_dead (hlt : w.stage < 3) (hd : s.deadNode w.node = true) : tokenSend i d a b fwd s = finish i s (.ok (s.tokEnd d 4)) := by
  unfold tokenSend
  rw [if_neg (by rw [hra]; decide)]
  dsimp only
  rw [hop, ok_bind, hw]
  exact congrArg (finish i s) (if_pos ⟨hd, hlt⟩)

theorem tokenSend_accepted (h3 : w.stage = 3) : tokenSend i d a b fwd s = finish i s (.ok (s.tokEnd d (tokWord w.seq.toNat w.ver w.r 0))) := by
  unfold tokenSend
  rw [if_neg (by rw [hra]; decide)]
  dsimp only
  rw [hop, ok_bind, hw]
  refine congrArg (finish i s) ((if_neg fun h => absurd h.2 (by omega)).trans ?_)
  rw [h3] <;> rfl

variable (hd : s.deadNode w.node = false)
include hd

theorem tokenSend_asked (h0 : w.stage = 0) : tokenSend i d a b fwd s = finish i s
    (if s.c.expired then .ok (s.tokEnd d (tokWord w.seq.toNat w.ver w.r 1)) else .error (.wait .token s)) := by
  unfold tokenSend
  rw [if_neg (by rw [hra]; decide)]
  dsimp only
  rw [hop, ok_bind, hw]
  refine congrArg (finish i s) ((if_neg fun h => absurd h.1 (by rw [hd]; decide)).trans ?_)
  rw [h0] <;> rfl

theorem tokenSend_granted (h1 : w.stage = 1) : tokenSend i d a b fwd s = finish i s
    (do let u ← s.tokSend (s.X a) (s.X b) fwd w; .error (.wait .token u)) := by
  unfold tokenSend
  rw [if_neg (by rw [hra]; decide)]
  dsimp only
  rw [hop, ok_bind, hw]
  refine congrArg (finish i s) ((if_neg fun h => absurd h.1 (by rw [hd]; decide)).trans ?_)
  rw [h1] <;> rfl

theorem tokenSend_sent (h2 : w.stage = 2) : tokenSend i d a b fwd s = finish i s (.error (.wait .token s)) := by
  unfold tokenSend
  rw [if_neg (by rw [hra]; decide)]
  dsimp only
  rw [hop, ok_bind, hw]
  refine congrArg (finish i s) ((if_neg fun h => absurd h.1 (by rw [hd]; decide)).trans ?_)
  rw [h2] <;> rfl

end

/-- The issuing context with the credit asked for. -/
def asking (s : State) (e name r : Nat) (t x : Word) : Ctx :=
  { s.c with seq := s.c.seq + 1, pending := some ⟨s.c.seq + 1, r, t, x⟩,
             tok := some ⟨0, name, r, s.c.seq + 1, 0, repNode e r, repPolder e r, entVer e, entEpoch e⟩ }

/-! ## The branches of `tokStart` -/

section
variable {s : State} {d : Reg} {t x : Word} {fwd : Bool}

theorem tokStart_noname (hn : s.legend s.fnode (fieldW t 0 24) = none) : s.tokStart d t x fwd = .ok (s.tokEnd d 2) := by
  unfold State.tokStart
  dsimp only
  rw [hn]
  rfl

variable {e : Nat} (he : s.legend s.fnode (fieldW t 0 24) = some e)
include he

theorem tokStart_invalid (hv : entV e = false) : s.tokStart d t x fwd = .ok (s.tokEnd d 2) := by
  unfold State.tokStart
  dsimp only
  rw [he]
  exact if_pos (by rw [hv]; rfl)

variable (hv : entV e = true)
include hv

/-- A name that the legend holds: the replica is chosen, or is the one that TBWD names. -/
theorem tokStart_held : s.tokStart d t x fwd =
    match (if fwd then s.chooseReplica s.cur e else some (fieldW t 46 4)) with
    | none => .ok (s.tokEnd d (tokWord 0 0 0 tkNoreplica))
    | some r =>
      if !fwd ∧ repState e r < 2 then .ok (s.tokEnd d (tokWord 0 0 0 tkStale))
      else if entSlotm1 e < fieldW t 35 11 then raise .tokenFault t
      else if s.deadNode (repNode e r) then .ok (s.tokEnd d (tokWord 0 0 0 tkDead))
      else if s.lostWordIn (spadAddr s.fnode s.pIdx (fieldW x 0 32)) (32 * (fieldW t 35 11 + 1)) then
        raiseAcc .dataLost (BitVec.ofNat 64 (localVa (fieldW x 0 32))) 0
      else
        let (seq, r) := s.c.tokPair t x r
        let fresh := match s.c.pending with | some p => p.seq != seq | none => true
        let c := { s.c with seq := if fresh then seq else s.c.seq, pending := some ⟨seq, r, t, x⟩,
                            tok := some ⟨0, fieldW t 0 24, r, seq, 0, repNode e r, repPolder e r, entVer e, entEpoch e⟩ }
        .error (.wait .token ((s.setC c).enq .slotCreditRequest { node := s.fnode, core := s.fcore, slot := s.cc.slot })) := by
  unfold State.tokStart
  dsimp only
  rw [he]
  refine (if_neg (by rw [hv]; decide)).trans ?_
  rfl

theorem tokStart_noreplica (hf : fwd = true) (hr : s.chooseReplica s.cur e = none) : s.tokStart d t x fwd = .ok (s.tokEnd d 3) := by
  rw [tokStart_held he hv, hf, if_pos rfl, hr]
  rfl

theorem tokStart_stale (hf : fwd = false) (hr : repState e (fieldW t 46 4) < 2) : s.tokStart d t x fwd = .ok (s.tokEnd d 5) := by
  rw [tokStart_held he hv, hf, if_neg (by decide)]
  exact if_pos ⟨rfl, hr⟩

/-- The replica that the instruction's token goes to. -/
def Goes (s : State) (t : Word) (fwd : Bool) (e r : Nat) : Prop :=
  if fwd then s.chooseReplica s.cur e = some r else r = fieldW t 46 4 ∧ 2 ≤ repState e r

variable {r : Nat} (hr : Goes s t fwd e r)
include hr

/-- With its replica known, the checks of the row and of the replica's node, and then the request. -/
theorem tokStart_to : s.tokStart d t x fwd =
      if entSlotm1 e < fieldW t 35 11 then raise .tokenFault t
      else if s.deadNode (repNode e r) then .ok (s.tokEnd d (tokWord 0 0 0 tkDead))
      else if s.lostWordIn (spadAddr s.fnode s.pIdx (fieldW x 0 32)) (32 * (fieldW t 35 11 + 1)) then
        raiseAcc .dataLost (BitVec.ofNat 64 (localVa (fieldW x 0 32))) 0
      else
        let (seq, r) := s.c.tokPair t x r
        let fresh := match s.c.pending with | some p => p.seq != seq | none => true
        let c := { s.c with seq := if fresh then seq else s.c.seq, pending := some ⟨seq, r, t, x⟩,
                            tok := some ⟨0, fieldW t 0 24, r, seq, 0, repNode e r, repPolder e r, entVer e, entEpoch e⟩ }
        .error (.wait .token ((s.setC c).enq .slotCreditRequest { node := s.fnode, core := s.fcore, slot := s.cc.slot })) := by
  rw [tokStart_held he hv]
  cases fwd with
  | true =>
    have hc : s.chooseReplica s.cur e = some r := hr
    rw [if_pos rfl, hc]
    exact if_neg (fun h => absurd h.1 (by decide))
  | false =>
    obtain ⟨h1, h2⟩ : r = fieldW t 46 4 ∧ 2 ≤ repState e r := hr
    rw [if_neg (by decide), ← h1]
    exact if_neg (fun h => absurd h.2 (by omega))

theorem tokStart_long (hl : entSlotm1 e < fieldW t 35 11) : s.tokStart d t x fwd = raise .tokenFault t := by
  rw [tokStart_to he hv hr, if_pos hl]

variable (hl : fieldW t 35 11 ≤ entSlotm1 e)
include hl

theorem tokStart_dead (hd : s.deadNode (repNode e r) = true) : s.tokStart d t x fwd = .ok (s.tokEnd d 4) := by
  rw [tokStart_to he hv hr, if_neg (by omega), if_pos hd]
  rfl

variable (hd : s.deadNode (repNode e r) = false)
include hd

theorem tokStart_lost (hlost : s.lostWordIn (spadAddr s.fnode s.pIdx (fieldW x 0 32)) (32 * (fieldW t 35 11 + 1)) = true) :
    s.tokStart d t x fwd = raiseAcc .dataLost (BitVec.ofNat 64 (localVa (fieldW x 0 32))) 0 := by
  rw [tokStart_to he hv hr, if_neg (by omega), if_neg (by rw [hd]; decide), if_pos hlost]

/-- The credit is asked for, with the context's next sequence number. -/
theorem tokStart_asks (hlost : s.lostWordIn (spadAddr s.fnode s.pIdx (fieldW x 0 32)) (32 * (fieldW t 35 11 + 1)) = false)
    (hp : s.c.pending = none) : s.tokStart d t x fwd =
      .error (.wait .token ((s.setC (asking s e (fieldW t 0 24) r t x)).enq .slotCreditRequest { node := s.fnode, core := s.fcore, slot := s.cc.slot })) := by
  have hpair : s.c.tokPair t x r = (s.c.seq + 1, r) := by
    unfold Ctx.tokPair
    rw [hp]
  rw [tokStart_to he hv hr, if_neg (by omega), if_neg (by rw [hd]; decide), if_neg (by rw [hlost]; decide), hpair]
  dsimp only
  rw [hp]
  rfl

end

/-! ## The clauses of the statement -/

/-- A token instruction that ends. -/
theorem ends_tok {i : Instr} {s : State} {d : Reg} {w : Word} (h : exec i s = finish i s (.ok (s.tokEnd d w))) :
    Completes i s (fun t => Leaves ((s.setC { s.c with pending := none, tok := none }).setX d w) t ∧ t.c.tok = none) :=
  completes_finish h ⟨leaves_retire _ i, by rw [retire_c]; rfl⟩

/-- The instruction ends with the status word `w`, its pair over. -/
def EndsWith (i : Instr) (s : State) (d : Reg) (w : Word) : Prop :=
  Completes i s (fun t => Leaves ((s.setC { s.c with pending := none, tok := none }).setX d w) t ∧ t.c.tok = none)

theorem waits_tok {i : Instr} {s : State} (h : exec i s = finish i s (.error (.wait .token s))) : Waits i s .token :=
  Barriers.waits_of_finish i s s .token h rfl rfl rfl

/-- What the statement says of a first execution. -/
def FirstClause (i : Instr) (d : Reg) (s : State) (T A : Word) (fwd : Bool) : Prop :=
  let N := fieldW T 0 24
  let lost := s.lostWordIn (spadAddr s.fnode s.pIdx (fieldW A 0 32)) (32 * (fieldW T 35 11 + 1))
  (s.legend s.fnode N = none → EndsWith i s d 2) ∧ (∀ E, s.legend s.fnode N = some E → entV E = false → EndsWith i s d 2) ∧
  (∀ E, s.legend s.fnode N = some E → entV E = true →
    (fwd = true → s.chooseReplica s.cur E = none → EndsWith i s d 3) ∧
    (fwd = false → repState E (fieldW T 46 4) < 2 → EndsWith i s d 5) ∧
    (∀ r, Goes s T fwd E r →
      (entSlotm1 E < fieldW T 35 11 → Traps i s .tokenFault T 0) ∧
      (fieldW T 35 11 ≤ entSlotm1 E →
        (s.deadNode (repNode E r) = true → EndsWith i s d 4) ∧
        (s.deadNode (repNode E r) = false → (lost = true → Traps i s .dataLost (BitVec.ofNat 64 (localVa (fieldW A 0 32))) 0) ∧
          (lost = false → s.c.pending = none → Completes i s (fun t => (t.ctx s.cur).st = .stalled ∧ (t.ctx s.cur).wait = some .token ∧
            (t.ctx s.cur).seq = s.c.seq + 1 ∧ (t.ctx s.cur).pending = some ⟨s.c.seq + 1, r, T, A⟩ ∧ t.mem = s.mem ∧ t.tokens = s.tokens ∧
            (t.ctx s.cur).tok = some ⟨0, N, r, s.c.seq + 1, 0, repNode E r, repPolder E r, entVer E, entEpoch E⟩))))))

/-- What the statement says of a wait under way. -/
def LaterClause (i : Instr) (d : Reg) (s : State) (T A : Word) (fwd : Bool) (w : TokWait) : Prop :=
  let n := 32 * (fieldW T 35 11 + 1)
  let src := fieldW A 0 32
  (s.deadNode w.node = true → EndsWith i s d 4) ∧
  (s.deadNode w.node = false →
    (w.stage = 0 → (s.c.expired = false → Waits i s .token) ∧ (s.c.expired = true → EndsWith i s d (tokWord w.seq.toNat w.ver w.r 1))) ∧
    (∀ v, w.stage = 1 → s.portRead s.fnode s.pIdx src n (localVa src) = .ok v → Completes i s (fun t =>
      (t.ctx s.cur).st = .stalled ∧ (t.ctx s.cur).wait = some .token ∧ t.mem = s.mem ∧ (t.ctx s.cur).tok = some { w with stage := 2 } ∧
      t.tokens = s.tokens ++ [⟨w.name, w.r, w.seq, w.ver, s.cur, fieldW T 50 14, src, fieldW A 32 32, !fwd, n, v, w.node, w.polder, w.part, w.epoch⟩])) ∧
    (w.stage = 2 → Waits i s .token))

/-- The context that has sent its row. -/
def sentCtx (s : State) (w : TokWait) : Ctx := { s.c with tok := some { w with stage := 2 } }

/-- The state in which the row has left. -/
def sentRow (s : State) (t x : Word) (fwd : Bool) (w : TokWait) (v : Nat) : State :=
  let u := s.setC (sentCtx s w)
  let u := u.setCC (u.cc.tokUp (tokKey w.name w.r))
  ({ u with tokens := s.tokens ++ [⟨w.name, w.r, w.seq, w.ver, s.cur, fieldW t 50 14, fieldW x 0 32, fieldW x 32 32, !fwd,
      32 * (fieldW t 35 11 + 1), v, w.node, w.polder, w.part, w.epoch⟩] } : State).enq .tokenArrival { node := w.node, n := w.polder }

theorem tokSend_ok {s : State} {t x : Word} {fwd : Bool} {w : TokWait} {v : Nat}
    (hv : s.portRead s.fnode s.pIdx (fieldW x 0 32) (32 * (fieldW t 35 11 + 1)) (localVa (fieldW x 0 32)) = .ok v) :
    s.tokSend t x fwd w = .ok (sentRow s t x fwd w v) := by
  unfold State.tokSend
  dsimp only
  rw [hv]
  rfl

theorem tokUp_slot (q : CoreSt) (k : Word) : (q.tokUp k).slot = q.slot := by
  unfold CoreSt.tokUp
  dsimp only

theorem setCC_cur {u : State} {q : CoreSt} (hq : q.slot = u.cc.slot) : (u.setCC q).cur = u.cur := by
  unfold State.cur
  rw [setCC_cc, hq]
  rfl

theorem sentRow_cur (s : State) (t x : Word) (fwd : Bool) (w : TokWait) (v : Nat) : (sentRow s t x fwd w v).cur = s.cur := by
  have h : ((s.setC (sentCtx s w)).setCC ((s.setC (sentCtx s w)).cc.tokUp (tokKey w.name w.r))).cur = (s.setC (sentCtx s w)).cur :=
    setCC_cur (tokUp_slot ..)
  exact h

theorem sentRow_c (s : State) (t x : Word) (fwd : Bool) (w : TokWait) (v : Nat) : (sentRow s t x fwd w v).c = sentCtx s w := by
  have h : ((s.setC (sentCtx s w)).setCC ((s.setC (sentCtx s w)).cc.tokUp (tokKey w.name w.r))).c = (s.setC (sentCtx s w)).c :=
    TrapTaking.setCC_c _ _ (tokUp_slot ..)
  exact h.trans (setC_c ..)

section
variable {i : Instr} {d a b : Reg} {fwd : Bool} {s : State} (he : exec i s = tokenSend i d a b fwd s) (hra : s.c.ra = false)
include he hra

/-- Operands well formed and no wait under way: the checks in their order, and then the wait. -/
theorem first_clause (hop : tokOperands (s.X a) (s.X b) fwd = .ok ()) (hn : s.c.tok = none) :
    FirstClause i d s (s.X a) (s.X b) fwd := by
  have hx := he.trans (tokenSend_first hra hop hn)
  refine ⟨fun h => ends_tok (hx.trans (congrArg _ (tokStart_noname h))), fun E hE hv => ends_tok (hx.trans (congrArg _ (tokStart_invalid hE hv))),
    fun E hE hv => ⟨fun hf hr => ends_tok (hx.trans (congrArg _ (tokStart_noreplica hE hv hf hr))),
      fun hf hr => ends_tok (hx.trans (congrArg _ (tokStart_stale hE hv hf hr))), fun r hr =>
      ⟨fun hl => traps_finish (hx.trans (congrArg _ (tokStart_long hE hv hr hl))), fun hl =>
        ⟨fun hd => ends_tok (hx.trans (congrArg _ (tokStart_dead hE hv hr hl hd))), fun hd =>
          ⟨fun h => hx.trans (congrArg _ (tokStart_lost hE hv hr hl hd h)), fun h hp => ?_⟩⟩⟩⟩⟩
  obtain ⟨t, ht, hst, hw, hseq, hpend, htok, hmem, htk⟩ := (stallsWith_of_finish (hx.trans (congrArg _ (tokStart_asks hE hv hr hl hd h hp))) rfl).goes
  have hc : ((s.setC (asking s E (fieldW (s.X a) 0 24) r (s.X a) (s.X b))).enq .slotCreditRequest { node := s.fnode, core := s.fcore, slot := s.cc.slot }).c =
      asking s E (fieldW (s.X a) 0 24) r (s.X a) (s.X b) := setC_c ..
  rw [hc] at hseq hpend htok
  exact ⟨t, ht, hst, hw, hseq, hpend, hmem, htk, htok⟩

/-- A wait under way, by its stage. -/
theorem later_clause (hop : tokOperands (s.X a) (s.X b) fwd = .ok ()) {w : TokWait} (hw : s.c.tok = some w) (hlt : w.stage < 3) :
    LaterClause i d s (s.X a) (s.X b) fwd w := by
  refine ⟨fun hd => ends_tok (he.trans (tokenSend_dead hra hop hw hlt hd)), fun hd => ⟨fun h0 => ?_, fun v h1 hv => ?_, fun h2 =>
    waits_tok (he.trans (tokenSend_sent hra hop hw hd h2))⟩⟩
  · have hx := he.trans (tokenSend_asked hra hop hw hd h0)
    exact ⟨fun h => waits_tok (hx.trans (congrArg _ (if_neg (by rw [h]; decide)))), fun h => ends_tok (hx.trans (congrArg _ (if_pos h)))⟩
  · have hx := he.trans (tokenSend_granted hra hop hw hd h1)
    rw [tokSend_ok hv, ok_bind] at hx
    obtain ⟨t, ht, hst, hwt, -, -, htok, hmem, htk⟩ := (stallsWith_of_finish hx (sentRow_cur ..)).goes
    exact ⟨t, ht, hst, hwt, hmem, htok.trans (by rw [sentRow_c]; rfl), htk⟩

end

theorem tokWord_ok (q : BitVec 32) (v r : Nat) :
    tokWord q.toNat v r 0 = BitVec.ofNat 64 (q.toNat * 2 ^ 32 + v % 4096 * 2 ^ 20 + r % 16 * 2 ^ 16) := by
  unfold tokWord
  rw [Nat.mod_eq_of_lt q.isLt, Nat.add_zero]

/-- Settles O46: each branch of TSEND and TBWD, by the stage of the wait. -/
theorem tokensAreSentAndAccepted : Obligations.TokensAreSentAndAccepted := by
  intro s d a b hra
  intro T A n src N lost ends e he
  have hex : exec e.1 s = tokenSend e.1 d a b e.2 s := by
    rcases List.mem_pair.mp he with rfl | rfl
    · exact show _ = execTsend d a b s from rfl
    · exact show _ = execTbwd d a b s from rfl
  exact ⟨fun ht => hex.trans (tokenSend_bad hra ht), fun hop =>
    ⟨fun w hw h3 => tokWord_ok w.seq w.ver w.r ▸ ends_tok (hex.trans (tokenSend_accepted hra hop hw h3)), fun hn => first_clause hex hra hop hn,
      fun w hw hlt => later_clause hex hra hop hw hlt⟩⟩

end Sys2Proof.Tokens
end

section
/-! The fields of legend entries, and what the units that act on a replica leave of entries and registers. -/

namespace Sys2Proof.Legends
set_option Elab.async false
open Sys2Proof Sys2Proof.Machine Sys2Proof.Safety Sys2Proof.Leases

/-! ## Fields of an entry -/

/-- A number as its bits above a field, the field, and the bits below. -/
theorem field_split (e k n : Nat) : e = e / 2 ^ (k + n) * 2 ^ (k + n) + fieldN e k n * 2 ^ k + e % 2 ^ k := by
  have h1 : e / 2 ^ (k + n) = e / 2 ^ k / 2 ^ n := by rw [Nat.pow_add, Nat.div_div_eq_div_mul]
  have h2 := Nat.div_add_mod (e / 2 ^ k) (2 ^ n)
  have h3 := Nat.div_add_mod e (2 ^ k)
  unfold fieldN
  rw [h1]
  calc e = 2 ^ k * (e / 2 ^ k) + e % 2 ^ k := h3.symm
    _ = 2 ^ k * (2 ^ n * (e / 2 ^ k / 2 ^ n) + e / 2 ^ k % 2 ^ n) + e % 2 ^ k := by rw [h2]
    _ = _ := by rw [Nat.pow_add]; ring

theorem entSet_split (e o lo n v : Nat) : entSet e o lo n v =
    e / 2 ^ (8 * o + lo + n) * 2 ^ (8 * o + lo + n) + v % 2 ^ n * 2 ^ (8 * o + lo) + e % 2 ^ (8 * o + lo) := by
  have h := field_split e (8 * o + lo) n
  unfold entSet entF
  omega

theorem field_lt (e k n : Nat) : fieldN e k n < 2 ^ n := Nat.mod_lt _ (Nat.two_pow_pos n)

theorem below_lt (v n k L : Nat) (hL : L < 2 ^ k) : v % 2 ^ n * 2 ^ k + L < 2 ^ (k + n) := by
  have hv := Nat.mod_lt v (Nat.two_pow_pos n)
  calc v % 2 ^ n * 2 ^ k + L < v % 2 ^ n * 2 ^ k + 2 ^ k := by omega
    _ = (v % 2 ^ n + 1) * 2 ^ k := by ring
    _ ≤ 2 ^ n * 2 ^ k := Nat.mul_le_mul_right _ hv
    _ = 2 ^ (k + n) := by rw [Nat.pow_add, Nat.mul_comm]

theorem entSet_above (e o lo n v : Nat) : entSet e o lo n v / 2 ^ (8 * o + lo + n) = e / 2 ^ (8 * o + lo + n) := by
  rw [entSet_split, Nat.add_assoc, Nat.mul_comm, Nat.mul_add_div (Nat.two_pow_pos _),
    Nat.div_eq_of_lt (below_lt v n _ _ (Nat.mod_lt _ (Nat.two_pow_pos _))), Nat.add_zero]

theorem entSet_low (e o lo n v : Nat) : entSet e o lo n v % 2 ^ (8 * o + lo) = e % 2 ^ (8 * o + lo) := by
  rw [entSet_split, Nat.pow_add, show ∀ A B C D : Nat, A * (B * D) + C * B = B * (A * D + C) from fun A B C D => by ring, Nat.mul_add_mod, Nat.mod_mod]

/-- The field that was set. -/
theorem entF_entSet_same (e o lo n v : Nat) : entF (entSet e o lo n v) o lo n = v % 2 ^ n := by
  unfold entF fieldN
  rw [entSet_split, Nat.pow_add, show ∀ A B C D : Nat, A * (B * D) + C * B = B * (A * D + C) from fun A B C D => by ring, Nat.mul_add_div (Nat.two_pow_pos _),
    Nat.div_eq_of_lt (Nat.mod_lt _ (Nat.two_pow_pos _)), Nat.add_zero, Nat.mul_comm _ (2 ^ n), Nat.mul_add_mod, Nat.mod_mod]

theorem field_of_above {e x k j n : Nat} (h : x / 2 ^ k = e / 2 ^ k) (hk : k ≤ j) : fieldN x j n = fieldN e j n := by
  obtain ⟨d, rfl⟩ := Nat.exists_eq_add_of_le hk
  unfold fieldN
  rw [Nat.pow_add, ← Nat.div_div_eq_div_mul, ← Nat.div_div_eq_div_mul, h]

theorem field_of_low {e x k j n : Nat} (h : x % 2 ^ k = e % 2 ^ k) (hk : j + n ≤ k) : fieldN x j n = fieldN e j n := by
  have hd : 2 ^ (j + n) ∣ 2 ^ k := Nat.pow_dvd_pow 2 hk
  have hm : x % 2 ^ (j + n) = e % 2 ^ (j + n) := by rw [← Nat.mod_mod_of_dvd x hd, ← Nat.mod_mod_of_dvd e hd, h]
  unfold fieldN
  rw [← Nat.mod_mul_right_div_self, ← Nat.mod_mul_right_div_self, ← Nat.pow_add, hm]

/-- A field that was not set: it lies below or above. -/
theorem entF_entSet_other (e o lo n v o' lo' n' : Nat) (h : 8 * o' + lo' + n' ≤ 8 * o + lo ∨ 8 * o + lo + n ≤ 8 * o' + lo') :
    entF (entSet e o lo n v) o' lo' n' = entF e o' lo' n' := by
  rcases h with h | h
  · exact field_of_low (entSet_low e o lo n v) h
  · exact field_of_above (entSet_above e o lo n v) h

/-- A stored entry keeps its 1,024 bits. -/
theorem entF_stored (e o lo n : Nat) (h : 8 * o + lo + n ≤ 1024) : entF (BitVec.ofNat 1024 e).toNat o lo n = entF e o lo n := by
  rw [BitVec.toNat_ofNat]
  exact field_of_low (Nat.mod_mod _ _) h

/-! ## What the writes of an entry keep of it -/

/-- A reading of an entry that no change of ARRIVE, of EPOCH or of a free replica alters. -/
structure Unmoved {α : Type} (f : Nat → α) : Prop where
  stored : ∀ e, f (BitVec.ofNat 1024 e).toNat = f e
  arrive : ∀ e v, f (entSet e 16 0 32 v) = f e
  epoch : ∀ e v, f (entSet e 4 0 32 v) = f e
  born : ∀ e r n p o, repState e r = 0 → f (repSet e r n p o 1) = f e

theorem unmoved_ver : Unmoved entVer where
  stored e := entF_stored e 8 20 12 (by decide)
  arrive e v := entF_entSet_other e 16 0 32 v 8 20 12 (by decide)
  epoch e v := entF_entSet_other e 4 0 32 v 8 20 12 (by decide)
  born e r n p o _ := entF_entSet_other e (64 + 4 * r) 0 32 _ 8 20 12 (by omega)

theorem repState_born (e r n p o : Nat) : repState (repSet e r n p o 1) r = 1 := by
  have h := entF_entSet_same e (64 + 4 * r) 0 32 (n * 2 ^ 20 + p * 2 ^ 12 + o * 4 + 1)
  have hs : repState (repSet e r n p o 1) r = entF (repSet e r n p o 1) (64 + 4 * r) 0 32 % 2 ^ 2 := by
    unfold repState entF fieldN
    rw [Nat.mod_mod_of_dvd _ (Nat.pow_dvd_pow 2 (by decide))]
  rw [hs]
  unfold repSet
  rw [h]
  omega

/-- A replica that drains goes on draining. -/
theorem unmoved_draining {r : Nat} (hr : r < 16) : Unmoved (fun e => decide (repState e r = 3)) where
  stored e := by
    have h : repState (BitVec.ofNat 1024 e).toNat r = repState e r := entF_stored e (64 + 4 * r) 0 2 (by omega)
    rw [h]
  arrive e v := by
    have h : repState (entSet e 16 0 32 v) r = repState e r := entF_entSet_other e 16 0 32 v (64 + 4 * r) 0 2 (by omega)
    rw [h]
  epoch e v := by
    have h : repState (entSet e 4 0 32 v) r = repState e r := entF_entSet_other e 4 0 32 v (64 + 4 * r) 0 2 (by omega)
    rw [h]
  born e r' n p o h0 := by
    by_cases hrr : r' = r
    · subst hrr
      rw [repState_born, h0]
      rfl
    · have h : repState (repSet e r' n p o 1) r = repState e r := entF_entSet_other e (64 + 4 * r') 0 32 _ (64 + 4 * r) 0 2 (by omega)
      rw [h]

/-! ## Entries of packages -/

theorem legend_setLegend_same (s : State) (node name e : Nat) : (s.setLegend node name e).legend node name = some (BitVec.ofNat 1024 e).toNat := by
  unfold State.legend State.setLegend State.die State.setDie
  dsimp only
  rw [tget_tset_same, tfind_tset_same]
  rfl

theorem legend_setLegend_other (s : State) (node name e n m : Nat) (h : (n, m) ≠ (node, name)) : (s.setLegend node name e).legend n m = s.legend n m := by
  unfold State.legend State.setLegend State.die State.setDie
  dsimp only
  by_cases hk : (n, homeDieOf m) = (node, homeDieOf name)
  · rw [hk, tget_tset_same, tfind_tset_other _ _ _ _ (fun hm => h (by rw [hm, (Prod.mk.inj hk).1]))]
  · rw [tget_tset_other _ _ _ _ _ hk]

theorem legend_congr {s t : State} (h : t.dies = s.dies) (n m : Nat) : t.legend n m = s.legend n m := by
  unfold State.legend State.die
  rw [h]

/-- The same context issues, no X register has changed, and every entry reads as before by `f`. -/
structure LegKeeps {α : Type} (f : Nat → α) (s t : State) : Prop where
  same : SameX s t
  leg : ∀ n m, (t.legend n m).map f = (s.legend n m).map f

section
variable {α : Type} {f : Nat → α}

theorem LegKeeps.refl (s : State) : LegKeeps f s s := ⟨.refl s, fun _ _ => rfl⟩

theorem LegKeeps.trans {s t u : State} (h : LegKeeps f s t) (k : LegKeeps f t u) : LegKeeps f s u :=
  ⟨h.same.trans k.same, fun n m => (k.leg n m).trans (h.leg n m)⟩

theorem legKeeps_of_dies {s t : State} (h : SameX s t) (hd : t.dies = s.dies) : LegKeeps f s t := ⟨h, fun n m => by rw [legend_congr hd]⟩

theorem LegKeeps.ite {s t u : State} {c : Prop} [Decidable c] (h : LegKeeps f s t) (k : LegKeeps f t u) : LegKeeps f s (if c then u else t) := by
  split
  · exact h.trans k
  · exact h

theorem legKeeps_foldl {β : Type} (g : State → β → State) (hg : ∀ s b, LegKeeps f s (g s b)) (l : List β) (s : State) : LegKeeps f s (l.foldl g s) := by
  induction l generalizing s with
  | nil => exact .refl s
  | cons b l ih => exact (hg s b).trans (ih (g s b))

theorem legKeeps_foldl_fst {β γ : Type} (g : State × β → γ → State × β) (hg : ∀ x c, LegKeeps f x.1 (g x c).1) (l : List γ) (s : State) (b : β) :
    LegKeeps f s (l.foldl g (s, b)).1 := by
  induction l generalizing s b with
  | nil => exact .refl s
  | cons c l ih => exact (hg (s, b) c).trans (ih (g (s, b) c).1 (g (s, b) c).2)

theorem legKeeps_setRepl (s : State) (node p name : Nat) (r : Repl) : LegKeeps f s (s.setRepl node p name r) := legKeeps_of_dies (sameX_setPolder ..) rfl

theorem legKeeps_enq (s : State) (i : Instr) (e : Ev) : LegKeeps f s (s.enq i e) := legKeeps_of_dies (sameX_of_same rfl rfl) rfl

theorem sameX_setLegend (s : State) (node name e : Nat) : SameX s (s.setLegend node name e) := sameX_of_same rfl rfl

theorem legKeeps_written (s : State) (m : List Host.Cell) (a n : Nat) : LegKeeps f s (({ s with mem := m } : State).lostWordWrite a n) :=
  legKeeps_of_dies ((sameX_setMem ..).trans (sameX_lostWordWrite ..)) rfl

theorem legKeeps_setLegend (hf : Unmoved f) (s : State) (node name e : Nat) (h : (s.legend node name).map f = some (f e)) :
    LegKeeps f s (s.setLegend node name e) := by
  refine ⟨sameX_setLegend .., fun n m => ?_⟩
  by_cases hk : (n, m) = (node, name)
  · obtain ⟨rfl, rfl⟩ := Prod.mk.inj hk
    rw [legend_setLegend_same, h, Option.map_some, hf.stored]
  · rw [legend_setLegend_other _ _ _ _ _ _ hk]

theorem sameX_forgetFree (s : State) (node name e : Nat) : SameX s (s.forgetFree node name e) := by
  unfold State.forgetFree
  refine sameX_of_same ?_ rfl
  unfold State.cur State.cc State.core
  dsimp only
  rw [Access.tget_tmap _ _ _ _ (by dsimp only; split <;> rfl)]
  split <;> rfl

theorem legKeeps_syncRepls (s : State) (node name e : Nat) : LegKeeps f s (s.syncRepls node name e) := by
  unfold State.syncRepls
  refine legKeeps_foldl _ (fun s r => ?_) _ s
  split
  · exact .refl s
  · split
    · exact .refl s
    · exact legKeeps_setRepl ..

theorem legKeeps_multicast (s : State) (own name e : Nat) : LegKeeps f s (s.multicast own name e) := by
  unfold State.multicast
  refine legKeeps_foldl _ (fun s n => ?_) _ s
  exact legKeeps_of_dies (sameX_of_same rfl rfl) rfl

/-- After its entry is written, the rest of a change keeps every entry. -/
theorem legChange_after (s : State) (own name e : Nat) :
    LegKeeps f (s.setLegend own name (entSet e 4 0 32 (entEpoch e + 1))) (s.legChange own name e) := by
  unfold State.legChange
  dsimp only
  exact (((legKeeps_of_dies (sameX_forgetFree ..) rfl).trans (legKeeps_syncRepls ..)).trans (legKeeps_multicast ..)).trans (legKeeps_enq ..)

theorem legKeeps_legChange (hf : Unmoved f) (s : State) (own name e : Nat) (h : (s.legend own name).map f = some (f e)) :
    LegKeeps f s (s.legChange own name e) :=
  (legKeeps_setLegend hf s own name _ (by rw [hf.epoch]; exact h)).trans (legChange_after ..)

/-- The changed entry reads as it was written. -/
theorem legend_legChange (hf : Unmoved f) (s : State) (own name e : Nat) : ((s.legChange own name e).legend own name).map f = some (f e) := by
  rw [(legChange_after s own name e).leg own name, legend_setLegend_same, Option.map_some, hf.stored, hf.epoch]

theorem sameX_legChange (s : State) (own name e : Nat) : SameX s (s.legChange own name e) :=
  (sameX_setLegend ..).trans (legChange_after (f := entVer) s own name e).same

/-! ## Scratchpad writes and barriers -/

theorem dies_barNotify (s : State) (node p la n : Nat) : (s.barNotify node p la n).dies = s.dies := by
  unfold State.barNotify
  split <;> rfl

theorem legKeeps_portSeen (s : State) (node p la n : Nat) : LegKeeps f s (s.portSeen node p la n) := by
  unfold State.portSeen
  refine (legKeeps_of_dies (sameX_barNotify ..) (dies_barNotify ..)).trans (legKeeps_of_dies (sameX_counterNotify ..) ?_)
  rw [Barriers.counterNotify_eq]

/-- A write by the polder's own engine, of any bytes. -/
theorem legKeeps_spadWrite (s : State) (node p la n v c : Nat) : LegKeeps f s (s.spadWrite node p la n v node p c) := by
  unfold State.spadWrite
  dsimp only
  rw [if_pos ⟨rfl, rfl⟩]
  exact (legKeeps_written ..).trans (legKeeps_portSeen ..)

theorem legKeeps_barAdd (s : State) (node p la : Nat) (d : Int) (o : Option Nat) : LegKeeps f s (s.barAdd node p la d o) := by
  unfold State.barAdd
  dsimp only
  split
  · unfold State.barFault
    exact (legKeeps_written ..).trans (legKeeps_portSeen ..)
  · unfold State.barSet
    exact (legKeeps_written ..).trans (legKeeps_portSeen ..)

/-! ## Slot managers -/

theorem legKeeps_needRepl (s : State) (name e r : Nat) : LegKeeps f s (s.needRepl name e r) := by
  unfold State.needRepl
  split
  · exact .refl s
  · exact legKeeps_setRepl ..

theorem legKeeps_creditBack (s : State) (node p name part : Nat) : LegKeeps f s (s.creditBack node p name part) := by
  unfold State.creditBack
  dsimp only
  split
  · exact .refl s
  · exact legKeeps_of_dies (sameX_setPolder ..) rfl

theorem legKeeps_countDup (s : State) (node p : Nat) : LegKeeps f s (s.countDup node p) := legKeeps_of_dies (sameX_setPolder ..) rfl

theorem legKeeps_accept (s : State) (t : Token) : LegKeeps f s (s.accept t) := legKeeps_of_dies (sameX_of_same rfl rfl) rfl

theorem legKeeps_setMark (s : State) (t : Token) : LegKeeps f s (s.setMark t) := by
  unfold State.setMark
  dsimp only
  split
  · exact legKeeps_of_dies (sameX_setPolder ..) rfl
  · exact .refl s

theorem legKeeps_mInc (s : State) (node p o : Nat) : LegKeeps f s (s.mInc node p o) := by
  unfold State.mInc
  dsimp only
  split
  · exact .refl s
  · exact legKeeps_spadWrite ..

theorem legKeeps_hwCopy {s t : State} {node p hw a b rows bar bn bp name : Nat} (h : s.hwCopy node p hw a b rows bar bn bp name = some t) : LegKeeps f s t := by
  unfold State.hwCopy at h
  obtain ⟨q, -, rfl⟩ := Option.map_eq_some_iff.mp h
  exact legKeeps_of_dies (sameX_of_same rfl rfl) rfl

theorem legKeeps_issueCopy (s : State) (node p name : Nat) : LegKeeps f s (s.issueCopy node p name) := by
  unfold State.issueCopy
  split
  · split
    · exact .refl s
    · split
      next u hu => exact (legKeeps_hwCopy hu).trans (legKeeps_setRepl ..)
      next => unfold State.enqOnce; split; exacts [.refl s, legKeeps_enq ..]
  · exact .refl s

theorem legKeeps_weightCopy (s : State) (name e r : Nat) : LegKeeps f s (s.weightCopy name e r) := by
  unfold State.weightCopy
  dsimp only
  refine LegKeeps.trans ?_ ((legKeeps_barAdd ..).trans (legKeeps_issueCopy ..))
  split
  · exact legKeeps_setRepl ..
  · exact .refl s

/-! ## Creations -/

/-- The donor's panels that a replica takes. -/
def donated (s : State) (own name i : Nat) (w : Word) : State :=
  s.setDie own (homeDieOf name) { s.die own (homeDieOf name) with donors := tset (s.die own (homeDieOf name)).donors i w }

theorem legKeeps_donated (s : State) (own name i : Nat) (w : Word) : LegKeeps f s (donated s own name i w) := by
  refine ⟨sameX_of_same rfl rfl, fun n m => ?_⟩
  unfold State.legend donated State.die State.setDie
  dsimp only
  by_cases hk : (n, homeDieOf m) = (own, homeDieOf name)
  · rw [hk, tget_tset_same]
  · rw [tget_tset_other _ _ _ _ _ hk]

/-- A donor's word with `len` panels fewer. -/
def donorAfter (w : Word) (len : Nat) : Word :=
  BitVec.ofNat 64 (fieldW w 43 21 * 2 ^ 43 + (fieldW w 33 10 + len) % 1024 * 2 ^ 33 + (fieldW w 22 11 - len) * 2 ^ 22)

/-- The entry with its replica `r` CREATING at the donor's polder. -/
def created (e r : Nat) (w : Word) : Nat := entSet (repSet e r (fieldW w 51 12) (fieldW w 43 8) (fieldW w 33 10) 1) 16 0 32 0

/-- A creation takes a free index and a donor's panels, changes the entry, sets up the manager, and has the weights copied. -/
theorem createReplica_rule {P : State → Prop} {s u : State} {own name e r : Nat} (h : s.createReplica own name e = some (u, r))
    (base : ∀ i w, repState e r = 0 → P ((donated s own name i (donorAfter w (entWlen e))).legChange own name (created e r w)))
    (manager : ∀ v n p m, P v → P (v.setRepl n p name m)) (copy : ∀ v e', P v → P (v.weightCopy name e' r)) : P u := by
  unfold State.createReplica at h
  dsimp only at h
  split at h
  next r' i w hr hd =>
    obtain ⟨rfl, rfl⟩ := Prod.mk.inj (Option.some.inj h)
    have hb := base i w (by simpa using List.find?_some hr)
    refine copy _ _ ?_
    split
    · exact manager _ _ _ _ hb
    · exact manager _ _ _ _ hb
  next => cases h

theorem sameX_donated (s : State) (own name i : Nat) (w : Word) : SameX s (donated s own name i w) := sameX_of_same rfl rfl

theorem sameX_createReplica {s u : State} {own name e r : Nat} (h : s.createReplica own name e = some (u, r)) : SameX s u :=
  createReplica_rule h (fun _ _ _ => (sameX_donated ..).trans (sameX_legChange ..)) (fun v n p m hv => hv.trans (legKeeps_setRepl (f := entVer) v n p name m).same)
    (fun v e' hv => hv.trans (legKeeps_weightCopy (f := entVer) v name e' r).same)

theorem legKeeps_createReplica (hf : Unmoved f) {s u : State} {own name e r : Nat} (h : s.createReplica own name e = some (u, r))
    (he : (s.legend own name).map f = some (f e)) : LegKeeps f s u := by
  refine createReplica_rule h (fun i w h0 => ?_) (fun v n p m hv => hv.trans (legKeeps_setRepl v n p name m))
    (fun v e' hv => hv.trans (legKeeps_weightCopy v name e' r))
  have hfe : f (created e r w) = f e := (hf.arrive ..).trans (hf.born _ _ _ _ _ h0)
  have hd : LegKeeps f s (donated s own name i (donorAfter w (entWlen e))) := legKeeps_donated ..
  exact hd.trans (legKeeps_legChange hf _ own name _ (by rw [hd.leg, he, hfe]))

theorem legKeeps_creationTest (hf : Unmoved f) (s : State) (own name : Nat) : LegKeeps f s (s.creationTest own name) := by
  unfold State.creationTest
  split
  · exact .refl s
  next e he =>
    split
    · exact .refl s
    · split
      next u r hu => exact legKeeps_createReplica hf hu (by rw [he]; rfl)
      next => exact .refl s

/-! ## Tokens that land -/

theorem legKeeps_pageClose (s : State) (node p name e k : Nat) : LegKeeps f s (s.pageClose node p name e k) := by
  unfold State.pageClose
  split
  · exact .refl s
  · split
    · exact .refl s
    · split
      · exact .refl s
      · exact (legKeeps_setRepl ..).trans (legKeeps_mInc ..)

theorem LegKeeps.spadWrite {s u : State} (h : LegKeeps f s u) (node p la n v c : Nat) : LegKeeps f s (u.spadWrite node p la n v node p c) :=
  h.trans (legKeeps_spadWrite ..)
theorem LegKeeps.setRepl {s u : State} (h : LegKeeps f s u) (node p name : Nat) (r : Repl) : LegKeeps f s (u.setRepl node p name r) :=
  h.trans (legKeeps_setRepl ..)
theorem LegKeeps.mInc {s u : State} (h : LegKeeps f s u) (node p o : Nat) : LegKeeps f s (u.mInc node p o) := h.trans (legKeeps_mInc ..)

theorem legKeeps_landTag {s u : State} {t : Token} {e : Nat} {m : Repl} (h : s.landTag t e m = some u) : LegKeeps f s u := by
  unfold State.landTag at h
  dsimp only at h
  split at h
  · cases h
  · cases h
    exact (((LegKeeps.refl s).spadWrite ..).spadWrite .. |>.setRepl ..).mInc ..

theorem legKeeps_landPage {s u : State} {t : Token} {e : Nat} {m : Repl} (h : s.landPage t e m = some u) : LegKeeps f s u := by
  unfold State.landPage at h
  dsimp only at h
  split at h
  · cases h
  next k hk =>
    cases h
    refine LegKeeps.ite (LegKeeps.setRepl (LegKeeps.spadWrite (LegKeeps.ite (LegKeeps.spadWrite ?_ ..) (legKeeps_spadWrite ..)) ..) ..) (legKeeps_pageClose ..)
    split
    · exact .refl s
    · split
      · exact .refl s
      · exact legKeeps_spadWrite ..

/-- The arrival that the owner's entry counts, or the backward token that the manager does. -/
def counted (s : State) (t : Token) (e : Nat) : State :=
  if t.bwd then
    match s.repl t.node t.polder t.name with
    | some m => s.setRepl t.node t.polder t.name { m with bwd := m.bwd + 1, whole := false, joined := false }
    | none => s
  else match s.legend (repNode e 0) t.name with
    | some o => (s.setLegend (repNode e 0) t.name (entSet o 16 0 32 (entArrive o + 1))).creationTest (repNode e 0) t.name
    | none => s

theorem legKeeps_counted (hf : Unmoved f) (s : State) (t : Token) (e : Nat) : LegKeeps f s (counted s t e) := by
  unfold counted
  split
  · split
    · exact legKeeps_setRepl ..
    · exact .refl s
  · split
    next o ho => exact (legKeeps_setLegend hf s _ _ _ (by rw [ho, hf.arrive]; rfl)).trans (legKeeps_creationTest hf ..)
    next => exact .refl s

theorem landToken_shape {s u : State} {t : Token} {e : Nat} {m : Repl} (h : s.landToken t e m = some u) :
    u = s.setRepl t.node t.polder t.name { m with heldToks := m.heldToks ++ [t] } ∨
    ∃ v, (if entPerm e then s.landPage t e m else s.landTag t e m) = some v ∧
      u = (if t.part = 65 then counted v t e else (counted v t e).setMark t).accept t := by
  unfold State.landToken at h
  split at h
  · cases h
    exact Or.inl rfl
  · split at h
    next => cases h
    next v hv =>
      cases h
      exact Or.inr ⟨v, hv, rfl⟩

theorem legKeeps_landToken (hf : Unmoved f) {s u : State} {t : Token} {e : Nat} {m : Repl} (h : s.landToken t e m = some u) : LegKeeps f s u := by
  obtain rfl | ⟨v, hv, rfl⟩ := landToken_shape h
  · exact legKeeps_setRepl ..
  · have hk : LegKeeps f s v := by
      split at hv
      · exact legKeeps_landPage hv
      · exact legKeeps_landTag hv
    refine LegKeeps.trans ?_ (legKeeps_accept ..)
    split
    · exact hk.trans (legKeeps_counted hf ..)
    · exact (hk.trans (legKeeps_counted hf ..)).trans (legKeeps_setMark ..)

theorem legKeeps_releaseHeld (hf : Unmoved f) (s : State) (node p name : Nat) : LegKeeps f s (s.releaseHeld node p name) := by
  unfold State.releaseHeld
  split
  next m e hm he =>
    dsimp only
    refine (legKeeps_setRepl s node p name { m with heldToks := [] }).trans ?_
    refine legKeeps_foldl_fst _ (fun y t => ?_) m.heldToks _ _
    split
    · exact ((legKeeps_creditBack ..).trans (legKeeps_countDup ..)).trans (legKeeps_accept ..)
    · cases hw : (y.1.repl node p name).bind (fun m => if newerVer t.ver m.ver = true then none else y.1.landToken t e m) with
      | some w =>
        obtain ⟨m', -, hm'⟩ := Option.bind_eq_some_iff.mp hw
        split at hm'
        · cases hm'
        · exact legKeeps_landToken hf hm'
      | none =>
        dsimp only
        split
        · exact legKeeps_setRepl ..
        · exact .refl _
  next => exact .refl s

theorem legKeeps_refreshed (hf : Unmoved f) (s : State) (node p name : Nat) : LegKeeps f s (s.refreshed node p name) := by
  unfold State.refreshed
  split
  · split
    · exact .refl s
    · split
      · exact .refl s
      · exact (legKeeps_setRepl ..).trans (legKeeps_releaseHeld hf ..)
  · exact .refl s

end
end Sys2Proof.Legends
end

section
/-! Names: XQUERY, XJOIN, XVER, XCREATE, XRETIRE and TRET. -/

namespace Sys2Proof.Names
set_option Elab.async false
open Sys2Proof Sys2Proof.Machine Sys2Proof.Safety Sys2Proof.Ends Sys2Proof.Leases Sys2Proof.Legends
open Sys2Proof.MemoryOps (ok_bind)

/-- An instruction whose result is X(d) := v on a state whose registers are those of `s`. -/
theorem completes_sameX {i : Instr} {s u : State} {d : Reg} {v : Word} {P : State → Prop} (h : exec i s = finish i s (.ok (u.setX d v)))
    (hx : SameX s u) (hP : XIs s ((u.setX d v).retire i) d v → P ((u.setX d v).retire i)) : Completes i s P :=
  completes_finish h (hP (xIs_congr (by unfold State.c; rw [hx.cur, hx.x]) (xIs_retire_setX u i d v)))

theorem legend_done (u : State) (i : Instr) (d : Reg) (v : Word) (n m : Nat) : ((u.setX d v).retire i).legend n m = u.legend n m := legend_congr rfl n m

theorem results_done (u : State) (i : Instr) (d : Reg) (v : Word) : ((u.setX d v).retire i).results = u.results := rfl

theorem mem_done (u : State) (i : Instr) (d : Reg) (v : Word) : ((u.setX d v).retire i).mem = u.mem := rfl

section
variable {s : State} {d a b : Reg}

/-! ## XQUERY -/

theorem xquery_reads (ha : fieldW (s.X a) 24 40 = 0) (hb : fieldW (s.X b) 4 60 = 0) :
    Completes (.xquery d a b) s (ResultX d (match s.legend s.fnode (fieldW (s.X a) 0 24) with
      | some e => BitVec.ofNat 64 (e / 2 ^ (64 * (s.X b).toNat) % 2 ^ 64)
      | none => 0) s) := by
  have hlt : (s.X b).toNat < 16 := by
    have hq := (s.X b).isLt
    unfold fieldW fieldN at hb
    omega
  have hk : fieldW (s.X b) 0 4 = (s.X b).toNat := by
    unfold fieldW fieldN
    omega
  have hv : ∀ e, entF e (8 * (s.X b).toNat) 0 64 = e / 2 ^ (64 * (s.X b).toNat) % 2 ^ 64 := by
    intro e
    unfold entF fieldN
    rw [show 8 * (8 * (s.X b).toNat) + 0 = 64 * (s.X b).toNat from by omega]
  apply completes_setX
  refine (show _ = execXquery d a b s from rfl).trans ?_
  unfold execXquery
  refine congrArg (finish _ s) (((if_neg (fun h => h ha)).trans (if_neg (fun h => h hb))).trans ?_)
  rw [hk]
  cases s.legend s.fnode (fieldW (s.X a) 0 24) with
  | none => rfl
  | some e => exact congrArg (fun k => Except.ok (s.setX d (BitVec.ofNat 64 k))) (hv e)

/-! ## The owner's members: XJOIN and XVER -/

theorem ownedEntry_none (h : s.legend s.fnode (fieldW (s.X a) 0 24) = none) : s.ownedEntry (fieldW (s.X a) 0 24) = .error 2 := by
  unfold State.ownedEntry
  rw [h]

variable {e : Nat}

theorem ownedEntry_other (h : s.legend s.fnode (fieldW (s.X a) 0 24) = some e) (ho : repNode e 0 ≠ s.fnode ∨ repPolder e 0 ≠ s.pIdx) :
    s.ownedEntry (fieldW (s.X a) 0 24) = .error 6 := by
  unfold State.ownedEntry
  rw [h]
  exact if_neg (fun hh => ho.elim (fun h => h hh.1) (fun h => h hh.2))

theorem ownedEntry_own (h : s.legend s.fnode (fieldW (s.X a) 0 24) = some e) (hn : repNode e 0 = s.fnode) (hp : repPolder e 0 = s.pIdx) :
    s.ownedEntry (fieldW (s.X a) 0 24) = .ok e := by
  unfold State.ownedEntry
  rw [h]
  exact if_pos ⟨hn, hp⟩

theorem joinWord_status (k : Nat) : joinWord 0 0 k = BitVec.ofNat 64 k := by
  unfold joinWord
  rw [show 0 % 65536 * 2 ^ 32 + 0 % 4096 * 2 ^ 20 + k = k from by omega]

section
variable (hra : s.c.ra = false)
include hra

/-- A member that is not valid here ends with its status alone. -/
theorem member_refused {k : Nat} (h : s.ownedEntry (fieldW (s.X a) 0 24) = .error k) :
    ∀ i ∈ [Instr.xjoin d a, .xver d a], Completes i s (ResultX d (BitVec.ofNat 64 k) s) := by
  intro i hi
  rw [← joinWord_status k]
  rcases List.mem_pair.mp hi with rfl | rfl
  · apply completes_setX
    refine (show _ = execXjoin d a s from rfl).trans ?_
    unfold execXjoin
    rw [if_neg (by rw [hra]; decide)]
    dsimp only
    rw [h]
  · apply completes_setX
    refine (show _ = execXver d a s from rfl).trans ?_
    unfold execXver
    rw [if_neg (by rw [hra]; decide)]
    dsimp only
    rw [h]

/-- A replica's manager is asked for its join. -/
def askJoin (name e : Nat) (t : State) (r : Nat) : State :=
  let t := t.needRepl name e r
  let t := match t.repl (repNode e r) (repPolder e r) name with
    | some m => t.setRepl (repNode e r) (repPolder e r) name { m with joinReq := m.joinReq + 1 }
    | none => t
  t.enq .joinCopy { node := repNode e r, n := repPolder e r, m := name }

omit hra in
theorem askJoin_keeps (name e : Nat) (t : State) (r : Nat) : LegKeeps entVer t (askJoin name e t r) ∧ (askJoin name e t r).mem = t.mem := by
  unfold askJoin
  dsimp only
  constructor
  · refine ((legKeeps_needRepl t name e r).trans ?_).trans (legKeeps_enq ..)
    split
    · exact legKeeps_setRepl ..
    · exact .refl _
  · rw [Canon.mem_enq]
    split
    · rw [Canon.mem_setRepl, Canon.mem_needRepl]
    · rw [Canon.mem_needRepl]

omit hra in
theorem askJoin_all (name e : Nat) (l : List Nat) (t : State) :
    LegKeeps entVer t (l.foldl (askJoin name e) t) ∧ (l.foldl (askJoin name e) t).mem = t.mem := by
  induction l generalizing t with
  | nil => exact ⟨.refl t, rfl⟩
  | cons r l ih =>
    obtain ⟨h1, h2⟩ := askJoin_keeps name e t r
    obtain ⟨h3, h4⟩ := ih (askJoin name e t r)
    exact ⟨h1.trans h3, h4.trans h2⟩

theorem xjoin_joins (h : s.ownedEntry (fieldW (s.X a) 0 24) = .ok e) :
    Completes (.xjoin d a) s (fun t => t.mem = (s.barAdd s.fnode s.pIdx (mLocal (entJbar e)) ((repMask e).length * entGlen e : Nat) none).mem ∧
      XIs s t d (joinWord (maskOf (repMask e)) (entVer e) 0)) := by
  have hex : exec (.xjoin d a) s = finish (.xjoin d a) s (.ok (((repMask e).foldl (askJoin (fieldW (s.X a) 0 24) e)
      (s.barAdd s.fnode s.pIdx (mLocal (entJbar e)) ((repMask e).length * entGlen e : Nat) none)).setX d (joinWord (maskOf (repMask e)) (entVer e) 0))) := by
    refine (show _ = execXjoin d a s from rfl).trans ?_
    unfold execXjoin
    rw [if_neg (by rw [hra]; decide)]
    dsimp only
    rw [h]
    rfl
  obtain ⟨hk, hm⟩ := askJoin_all (fieldW (s.X a) 0 24) e (repMask e) (s.barAdd s.fnode s.pIdx (mLocal (entJbar e)) ((repMask e).length * entGlen e : Nat) none)
  exact completes_sameX hex ((legKeeps_barAdd (f := entVer) ..).trans hk).same (fun hx => ⟨hm, hx⟩)

/-- A replica's weights are refreshed to a changed entry. -/
def askWeights (name e e' : Nat) (t : State) (r : Nat) : State :=
  ((t.needRepl name e r).refreshed (repNode e r) (repPolder e r) name).weightCopy name e' r

omit hra in
theorem askWeights_keeps (name e e' : Nat) (t : State) (r : Nat) : LegKeeps entVer t (askWeights name e e' t r) :=
  ((legKeeps_needRepl ..).trans (legKeeps_refreshed unmoved_ver ..)).trans (legKeeps_weightCopy ..)

omit hra in
theorem fenceStores_same (hp : s.portStores s.cur = false) (hpool : s.c.poolStores = []) :
    ∃ t, s.fenceStores 6 = .ok t ∧ SameX s t ∧ t.fnode = s.fnode := by
  unfold State.fenceStores
  rw [if_neg (by rw [hp]; exact Bool.false_ne_true), if_pos (by decide)]
  unfold State.fencePool
  dsimp only
  rw [hpool]
  exact ⟨_, rfl, sameX_setCtx s s.cur rfl, rfl⟩

theorem xver_raises (h : s.ownedEntry (fieldW (s.X a) 0 24) = .ok e) (hp : s.portStores s.cur = false) (hpool : s.c.poolStores = []) :
    Completes (.xver d a) s (fun t => XIs s t d (joinWord (maskOf (repMask e)) ((entVer e + 1) % 4096) 0) ∧
      (t.legend s.fnode (fieldW (s.X a) 0 24)).map entVer = some ((entVer e + 1) % 4096)) := by
  obtain ⟨t, ht, hst, -⟩ := fenceStores_same hp hpool
  have hex : exec (.xver d a) s = finish (.xver d a) s (.ok (((repMask e).foldl
      (askWeights (fieldW (s.X a) 0 24) e (entSet e 8 20 12 ((entVer e + 1) % 4096)))
      (t.legChange s.fnode (fieldW (s.X a) 0 24) (entSet e 8 20 12 ((entVer e + 1) % 4096)))).setX d
        (joinWord (maskOf (repMask e)) ((entVer e + 1) % 4096) 0))) := by
    refine (show _ = execXver d a s from rfl).trans ?_
    unfold execXver
    rw [if_neg (by rw [hra]; decide)]
    dsimp only
    rw [h]
    dsimp only
    rw [ht]
    rfl
  have hk := legKeeps_foldl _ (askWeights_keeps (fieldW (s.X a) 0 24) e (entSet e 8 20 12 ((entVer e + 1) % 4096))) (repMask e)
    (t.legChange s.fnode (fieldW (s.X a) 0 24) (entSet e 8 20 12 ((entVer e + 1) % 4096)))
  refine completes_sameX hex ((hst.trans (sameX_legChange ..)).trans hk.same) (fun hx => ⟨hx, ?_⟩)
  rw [legend_done, hk.leg, legend_legChange unmoved_ver]
  exact congrArg some ((entF_entSet_same e 8 20 12 _).trans (Nat.mod_mod _ _))

omit hra in
theorem unmoved_create : Unmoved entCreate where
  stored e := entF_stored e 20 0 16 (by decide)
  arrive e v := entF_entSet_other e 16 0 32 v 20 0 16 (by decide)
  epoch e v := entF_entSet_other e 4 0 32 v 20 0 16 (by decide)
  born e r n p o _ := entF_entSet_other e (64 + 4 * r) 0 32 _ 20 0 16 (by omega)

omit hra in
/-- Without CREATE no creation follows. -/
theorem creationTest_none {v : State} {own name c : Nat} (hl : (v.legend own name).map entCreate = some c) (hc : c = 0) : (v.creationTest own name).mem = v.mem := by
  obtain ⟨e, he, rfl⟩ := Option.map_eq_some_iff.mp hl
  unfold State.creationTest
  rw [he]
  exact congrArg State.mem (if_pos (Or.inl hc))

/-! ## The system context's: XCREATE and XRETIRE -/

theorem system_only (hsys : s.sys = false) : ∀ i ∈ [Instr.xcreate d a, .xretire d a b], Traps i s .privilege (wordOf (encodeFirst i)) 0 := by
  intro i hi
  rcases List.mem_pair.mp hi with rfl | rfl
  · apply traps_finish
    refine (show _ = execXcreate d a s from rfl).trans ?_
    unfold execXcreate
    dsimp only
    rw [if_neg (by rw [hra]; decide), if_pos (by rw [hsys]; rfl)]
  · apply traps_finish
    refine (show _ = execXretire d a b s from rfl).trans ?_
    unfold execXretire
    dsimp only
    rw [if_neg (by rw [hra]; decide), if_pos (by rw [hsys]; rfl)]

variable (hsys : s.sys = true)
include hsys

theorem system_noname (h : s.ownerEntry s.fnode (fieldW (s.X a) 0 24) = none) :
    ∀ i ∈ [Instr.xcreate d a, .xretire d a b], Completes i s (ResultX d 2 s) := by
  intro i hi
  rcases List.mem_pair.mp hi with rfl | rfl
  · apply completes_setX
    refine (show _ = execXcreate d a s from rfl).trans ?_
    unfold execXcreate
    dsimp only
    rw [if_neg (by rw [hra]; decide), if_neg (by rw [hsys]; decide), h]
    rfl
  · apply completes_setX
    refine (show _ = execXretire d a b s from rfl).trans ?_
    unfold execXretire
    dsimp only
    rw [if_neg (by rw [hra]; decide), if_neg (by rw [hsys]; decide), h]
    rfl

variable (h : s.ownerEntry s.fnode (fieldW (s.X a) 0 24) = some e)
include h

theorem xcreate_noroom (hc : s.createReplica (repNode e 0) (fieldW (s.X a) 0 24) e = none) : Completes (.xcreate d a) s (ResultX d 7 s) := by
  apply completes_setX
  refine (show _ = execXcreate d a s from rfl).trans ?_
  unfold execXcreate
  dsimp only
  rw [if_neg (by rw [hra]; decide), if_neg (by rw [hsys]; decide), h]
  dsimp only
  rw [hc]
  rfl

theorem xcreate_creates {u : State} {r : Nat} (hc : s.createReplica (repNode e 0) (fieldW (s.X a) 0 24) e = some (u, r)) :
    Completes (.xcreate d a) s (fun t => XIs s t d 0 ∧ t.dies = u.dies ∧ t.polders = u.polders ∧ t.mem = u.mem) := by
  refine completes_sameX (u := u) ?_ (sameX_createReplica hc) (fun hx => ⟨hx, rfl, rfl, rfl⟩)
  refine (show _ = execXcreate d a s from rfl).trans ?_
  unfold execXcreate
  dsimp only
  rw [if_neg (by rw [hra]; decide), if_neg (by rw [hsys]; decide), h]
  dsimp only
  rw [hc]
  rfl

theorem xretire_stale (hr : (s.X b).toNat = 0 ∨ 15 < (s.X b).toNat ∨ repState e (s.X b).toNat ≠ 2) : Completes (.xretire d a b) s (ResultX d 5 s) := by
  apply completes_setX
  refine (show _ = execXretire d a b s from rfl).trans ?_
  unfold execXretire
  dsimp only
  rw [if_neg (by rw [hra]; decide), if_neg (by rw [hsys]; decide), h]
  exact congrArg (finish _ s) (if_pos hr)

omit hra hsys h in
/-- A drain changes the entry, has the manager join no more, and may have a creation follow. -/
theorem drainReplica_shape (s : State) (own name e r : Nat) : ∃ v, (∀ {α : Type} (f : Nat → α), LegKeeps f (s.legChange own name (repSetState e r 3)) v) ∧
    v.mem = s.mem ∧ s.drainReplica own name e r = v.creationTest own name := by
  unfold State.drainReplica
  dsimp only
  refine ⟨_, ?_, ?_, rfl⟩
  · intro α f
    split
    · exact legKeeps_setRepl ..
    · exact .refl _
  · split
    · rw [Canon.mem_setRepl, Canon.mem_legChange]
    · rw [Canon.mem_legChange]

theorem xretire_drains (h1 : 1 ≤ (s.X b).toNat) (h15 : (s.X b).toNat ≤ 15) (h2 : repState e (s.X b).toNat = 2) :
    Completes (.xretire d a b) s (fun t => XIs s t d 0 ∧ (entCreate e = 0 → t.mem = s.mem) ∧
      (t.legend (repNode e 0) (fieldW (s.X a) 0 24)).map (fun x => repState x (s.X b).toNat) = some 3) := by
  obtain ⟨v, hk, hm, hv⟩ := drainReplica_shape s (repNode e 0) (fieldW (s.X a) 0 24) e (s.X b).toNat
  have hex : exec (.xretire d a b) s = finish (.xretire d a b) s (.ok ((v.creationTest (repNode e 0) (fieldW (s.X a) 0 24)).setX d 0)) := by
    rw [← hv]
    refine (show _ = execXretire d a b s from rfl).trans ?_
    unfold execXretire
    dsimp only
    rw [if_neg (by rw [hra]; decide), if_neg (by rw [hsys]; decide), h]
    exact congrArg (finish _ s) (if_neg (by omega))
  have hf := unmoved_draining (r := (s.X b).toNat) (by omega)
  refine completes_sameX hex (((sameX_legChange ..).trans (hk entVer).same).trans (legKeeps_creationTest unmoved_ver ..).same) (fun hx => ⟨hx, fun hc => ?_, ?_⟩)
  · have hset : entCreate (repSetState e (s.X b).toNat 3) = entCreate e := entF_entSet_other e (64 + 4 * (s.X b).toNat) 0 2 3 20 0 16 (by omega)
    exact (mem_done ..).trans ((creationTest_none (((hk entCreate).leg _ _).trans (legend_legChange unmoved_create ..)) (hset.trans hc)).trans hm)
  · have h3 : ((v.creationTest (repNode e 0) (fieldW (s.X a) 0 24)).legend (repNode e 0) (fieldW (s.X a) 0 24)).map
        (fun x => decide (repState x (s.X b).toNat = 3)) = some true := by
      rw [(legKeeps_creationTest hf ..).leg, (hk _).leg, legend_legChange hf]
      exact congrArg some (decide_eq_true (entF_entSet_same e (64 + 4 * (s.X b).toNat) 0 2 3))
    rw [legend_done]
    obtain ⟨x, hx, h4⟩ := Option.map_eq_some_iff.mp h3
    rw [hx, Option.map_some, of_decide_eq_true h4]

end
/-! ## TRET -/

/-- The tag's slot of the issuing polder is freed, and its credits go back. -/
def slotEnded (s : State) (tag t0 name k : Nat) : State :=
  (s.spadWrite s.fnode s.pIdx tag 8 (t0 - 2 ^ 20) s.fnode s.pIdx 0x7FF).freeSlotRow s.fnode s.pIdx name k

theorem spadWrite_facts (u : State) (node p la n v c : Nat) : SameX u (u.spadWrite node p la n v node p c) ∧
    (u.spadWrite node p la n v node p c).mem = memWrite u.mem (spadAddr node p la) n v ∧ (u.spadWrite node p la n v node p c).results = u.results := by
  refine ⟨(legKeeps_spadWrite (f := entVer) ..).same, ?_⟩
  unfold State.spadWrite State.portSeen
  dsimp only
  rw [if_pos ⟨rfl, rfl⟩, Barriers.counterNotify_eq]
  unfold State.barNotify
  split <;> exact ⟨rfl, rfl⟩

theorem freeSlotRow_facts (u : State) (node p name k : Nat) : SameX u (u.freeSlotRow node p name k) ∧ (u.freeSlotRow node p name k).results = u.results := by
  unfold State.freeSlotRow
  split
  · exact ⟨.refl u, rfl⟩
  · split
    · exact ⟨.refl u, rfl⟩
    · dsimp only
      split
      · exact ⟨sameX_of_same rfl rfl, rfl⟩
      · exact ⟨sameX_of_same rfl rfl, rfl⟩

theorem slotEnded_facts (u : State) (tag t0 name k : Nat) : SameX u (slotEnded u tag t0 name k) ∧
    (slotEnded u tag t0 name k).mem = memWrite u.mem (spadAddr u.fnode u.pIdx tag) 8 (t0 - 2 ^ 20) ∧ (slotEnded u tag t0 name k).results = u.results := by
  obtain ⟨h1, h2, h3⟩ := spadWrite_facts u u.fnode u.pIdx tag 8 (t0 - 2 ^ 20) 0x7FF
  obtain ⟨h4, h5⟩ := freeSlotRow_facts (u.spadWrite u.fnode u.pIdx tag 8 (t0 - 2 ^ 20) u.fnode u.pIdx 0x7FF) u.fnode u.pIdx name k
  exact ⟨h1.trans h4, (Canon.mem_freeSlotRow ..).trans h2, h5.trans h3⟩

theorem resultRows_one {la n v : Nat} (hv : s.portRead s.fnode s.pIdx la n (localVa la) = .ok v) (r : ResultRow) :
    s.resultRows la n [r] = .ok [{ r with data := v }] := by
  unfold State.resultRows
  rw [hv]
  rfl

/-- The row that TRET of a tagged slot sends. -/
def tagRow (s : State) (e t0 t1 name v : Nat) : ResultRow :=
  ⟨fieldN t0 52 12, fieldN t0 41 11, 32 * fieldN t1 14 18, mLocal (16 * fieldN t0 0 18), entRetBytes e, v, tokKey name (fieldN t0 33 4), s.fnode, s.fcore⟩

section
variable {w x : Word} {m : Repl}
variable (hw : fieldW w 36 28 = 0) (hx : ¬ (fieldW x 30 34 ≠ 0 ∨ fieldW x 25 4 ≠ 0 ∨ fieldW x 0 5 ≠ 0)) (hm : s.repl s.fnode s.pIdx (fieldW w 0 24) = some m)
  (he : s.legend s.fnode (fieldW w 0 24) = some e) (hg : m.gone = false)
include hw hx hm he

theorem tokenReturn_beyond (hk : entNslot e ≤ fieldW w 24 12) : s.tokenReturn d w x = .ok (s.setX d 5) := by
  unfold State.tokenReturn
  dsimp only
  rw [if_neg (fun h => h hw), if_neg hx, hm, he]
  exact if_pos (Or.inr hk)

include hg

/-- An untagged slot gives STALE, whether the manager has it or not. -/
theorem tokenReturn_untagged (hl : s.lostWordIn (spadAddr s.fnode s.pIdx (mLocal (entTgbase e + 16 * fieldW w 24 12))) 16 = false)
    (ht : fieldN (memRead s.mem (spadAddr s.fnode s.pIdx (mLocal (entTgbase e + 16 * fieldW w 24 12))) 8) 20 1 = 0) :
    s.tokenReturn d w x = .ok (s.setX d 5) := by
  by_cases hk : entNslot e ≤ fieldW w 24 12
  · exact tokenReturn_beyond hw hx hm he hk
  · unfold State.tokenReturn
    dsimp only
    rw [if_neg (fun h => h hw), if_neg hx, hm, he]
    refine (if_neg ?_).trans ((if_neg ?_).trans (if_pos ht))
    · rintro (h | h)
      · rw [hg] at h
        cases h
      · exact hk h
    · rw [hl]
      decide

variable (hk : fieldW w 24 12 < entNslot e)
include hk

theorem tokenReturn_lost (hl : s.lostWordIn (spadAddr s.fnode s.pIdx (mLocal (entTgbase e + 16 * fieldW w 24 12))) 16 = true) :
    s.tokenReturn d w x = raiseAcc .dataLost (BitVec.ofNat 64 (localVa (mLocal (entTgbase e + 16 * fieldW w 24 12)))) 0 := by
  unfold State.tokenReturn
  dsimp only
  rw [if_neg (fun h => h hw), if_neg hx, hm, he]
  refine (if_neg ?_).trans (if_pos hl)
  rintro (h | h)
  · rw [hg] at h
    cases h
  · omega

theorem tokenReturn_sends {t0 t1 v : Nat} (hl : s.lostWordIn (spadAddr s.fnode s.pIdx (mLocal (entTgbase e + 16 * fieldW w 24 12))) 16 = false)
    (h0 : memRead s.mem (spadAddr s.fnode s.pIdx (mLocal (entTgbase e + 16 * fieldW w 24 12))) 8 = t0)
    (h1 : memRead s.mem (spadAddr s.fnode s.pIdx (mLocal (entTgbase e + 16 * fieldW w 24 12) + 8)) 8 = t1)
    (ht : fieldN t0 20 1 = 1) (hd : s.deadNode (fieldN t0 52 12) = false) (hperm : entPerm e = false)
    (hsp : fieldW x 0 29 + entRetBytes e ≤ spaceSize (fieldW x 29 3)) (hv : s.portRead s.fnode s.pIdx x.toNat (entRetBytes e) (localVa x.toNat) = .ok v) :
    s.tokenReturn d w x = .ok ((slotEnded (s.sendResult (tagRow s e t0 t1 (fieldW w 0 24) v)) (mLocal (entTgbase e + 16 * fieldW w 24 12)) t0
      (fieldW w 0 24) (fieldW w 24 12)).setX d 0) := by
  unfold State.tokenReturn
  dsimp only
  rw [if_neg (fun h => h hw), if_neg hx, hm, he]
  dsimp only
  rw [h0, h1, if_neg (by rw [hg]; rintro (h | h); cases h; omega), if_neg (by rw [hl]; decide), if_neg (by rw [ht]; decide), if_neg (by rw [hd]; decide),
    hperm, if_neg Bool.false_ne_true, if_neg (by rw [List.length_singleton, Nat.mul_one]; omega), resultRows_one hv]
  rfl

end

variable (hra : s.c.ra = false)
include hra

theorem tret_as {r : Res} (h : s.tokenReturn d (s.X a) (s.X b) = r) : exec (.tret d a b) s = finish (.tret d a b) s r := by
  refine (show _ = execTret d a b s from rfl).trans ?_
  unfold execTret
  rw [if_neg (by rw [hra]; decide), h]

/-- The completed return: the row is on its way, and the tag is no longer valid. -/
theorem tret_returns {t0 k tag : Nat} {R : ResultRow} {name : Nat} (hwf : Memory.wf s.mem = true) (h0 : memRead s.mem (spadAddr s.fnode s.pIdx tag) 8 = t0)
    (h : s.tokenReturn d (s.X a) (s.X b) = .ok ((slotEnded (s.sendResult R) tag t0 name k).setX d 0)) :
    Completes (.tret d a b) s (fun t => XIs s t d 0 ∧ t.results = s.results ++ [R] ∧ memRead t.mem (spadAddr s.fnode s.pIdx tag) 8 = t0 - 2 ^ 20) := by
  obtain ⟨hs, hm, hr⟩ := slotEnded_facts (s.sendResult R) tag t0 name k
  have h1 : SameX s (s.sendResult R) := sameX_of_same rfl rfl
  refine completes_sameX (tret_as hra h) (h1.trans hs) (fun hx => ⟨hx, (results_done ..).trans hr, ?_⟩)
  refine (congrArg (fun m => memRead m _ 8) ((mem_done ..).trans hm)).trans ((memRead_memWrite_same _ _ 8 _ hwf).trans (Nat.mod_eq_of_lt ?_))
  have hlt : t0 < 256 ^ 8 := h0 ▸ Barriers.memRead_lt ..
  omega

end

/-- Settles O47: each instruction by the cases of its tests. -/
theorem nameInstructionsAndTokenReturn : Obligations.NameInstructionsAndTokenReturn := by
  intro s d a b hra N
  refine ⟨xquery_reads, fun hn => member_refused hra (ownedEntry_none hn), fun e he => ⟨fun ho => member_refused hra (ownedEntry_other he ho), fun hn hp =>
    ⟨xjoin_joins hra (ownedEntry_own he hn hp), xver_raises hra (ownedEntry_own he hn hp)⟩⟩, fun hsys => ⟨system_noname hra hsys, fun e he =>
    ⟨xcreate_noroom hra hsys he, fun u r => xcreate_creates hra hsys he, xretire_stale hra hsys he, xretire_drains hra hsys he⟩⟩, system_only hra, ?_⟩
  intro m e v hwf hw hx30 hx25 hx0 hm he htomb hperm k tag t0 t1 lost
  have hg : m.gone = false := by
    unfold Repl.gone
    rw [htomb]
    rfl
  have hx : ¬ (fieldW (s.X b) 30 34 ≠ 0 ∨ fieldW (s.X b) 25 4 ≠ 0 ∨ fieldW (s.X b) 0 5 ≠ 0) := by
    rw [hx30, hx25, hx0]
    decide
  refine ⟨fun h => completes_setX (tret_as hra ?_), fun hk hl => tret_as hra (tokenReturn_lost hw hx hm he hg hk hl), fun hk hl ht hd hsp hv =>
    tret_returns hra hwf rfl (tokenReturn_sends hw hx hm he hg hk hl rfl rfl ht hd hperm hsp hv)⟩
  rcases h with h | ⟨hl, ht⟩
  · exact tokenReturn_beyond hw hx hm he h
  · exact tokenReturn_untagged hw hx hm he hg hl ht

end Sys2Proof.Names
end

section
/-! Events of the issue of cores, of the vector unit, of stream ports and scratchpads, and the time-outs of waits. -/

namespace Sys2Proof.CoreEvents
set_option Elab.async false
open Sys2Proof Sys2Proof.Machine Sys2Proof.Safety
open Sys2Proof.Streams (portOf_setPort_same portOf_some_iff setPort_v)

theorem completes_of {i : Instr} {s u : State} {P : State → Prop} (he : exec i s = .next u) (h : P u) : Completes i s P := ⟨u, he, h⟩

/-! ## Issue -/

/-- The next slot in rotating order that can run is selected, and its count starts. -/
theorem switchSlot_selects {s : State} {n k j : Nat} (h : (rotation (s.core n k).slot).find? (fun j => s.runnable n k j) = some j) :
    ((s.switchSlot n k).core n k).slot = j ∧ ((s.switchSlot n k).core n k).run = 0 := by
  unfold State.switchSlot
  dsimp only
  rw [setCore_core_same, h]
  exact ⟨rfl, rfl⟩

theorem slotSwitch_selects {s : State} {n k j : Nat} (h : (rotation (s.core n k).slot).find? (fun j => s.runnable n k j) = some j)
    (hst : (s.ctx ⟨n, k, (s.core n k).slot⟩).st ≠ .ready) :
    ((s.slotSwitch n k).core n k).slot = j ∧ ((s.slotSwitch n k).core n k).run = 0 ∧ (s.slotSwitch n k).ctxs = s.ctxs ∧ (s.slotSwitch n k).mem = s.mem := by
  have he : s.slotSwitch n k = s.switchSlot n k := if_neg (fun h => hst h.1)
  obtain ⟨h1, h2⟩ := switchSlot_selects h
  rw [he]
  exact ⟨h1, h2, rfl, rfl⟩

theorem issueQuantum_eq (s : State) :
    exec .issueQuantum s = .next (if 256 ≤ (s.core s.ev.node s.ev.core).run then s.switchSlot s.ev.node s.ev.core else s) := rfl

theorem issueQuantum_spent {s : State} {j : Nat} (h : (rotation (s.core s.ev.node s.ev.core).slot).find? (fun j => s.runnable s.ev.node s.ev.core j) = some j)
    (hrun : 256 ≤ (s.core s.ev.node s.ev.core).run) :
    Completes .issueQuantum s (fun t => (t.core s.ev.node s.ev.core).slot = j ∧ (t.core s.ev.node s.ev.core).run = 0 ∧ t.ctxs = s.ctxs ∧ t.mem = s.mem) := by
  obtain ⟨h1, h2⟩ := switchSlot_selects h
  exact completes_of ((issueQuantum_eq s).trans (by rw [if_pos hrun])) ⟨h1, h2, rfl, rfl⟩

/-! ## Lane groups -/

/-- The queues of vector instructions, contexts and memory are as before. -/
structure SameQueues (s t : State) : Prop where
  vq : ∀ n k, (t.core n k).vq = (s.core n k).vq
  ctxs : t.ctxs = s.ctxs
  mem : t.mem = s.mem

theorem SameQueues.refl (s : State) : SameQueues s s := ⟨fun _ _ => rfl, rfl, rfl⟩

theorem SameQueues.trans {s t u : State} (h : SameQueues s t) (k : SameQueues t u) : SameQueues s u :=
  ⟨fun n j => (k.vq n j).trans (h.vq n j), k.ctxs.trans h.ctxs, k.mem.trans h.mem⟩

theorem sameQueues_setCore (s : State) (n k : Nat) {q : CoreSt} (h : q.vq = (s.core n k).vq) : SameQueues s (s.setCore n k q) := by
  refine ⟨fun m j => ?_, rfl, rfl⟩
  by_cases e : (m, j) = (n, k)
  · obtain ⟨rfl, rfl⟩ := Prod.mk.inj e
    rw [setCore_core_same, h]
  · rw [setCore_core_other _ _ _ _ _ _ e]

/-- A core whose one head is unbound is ready. -/
theorem vqReady_one {q : CoreSt} {x : VqEntry} (h : q.vq = [x]) (hb : x.bound = false) : q.vqReady = true := by
  have hh : q.vqHead = some x := by
    unfold CoreSt.vqHead
    rw [h, List.find?_cons_of_pos (by rw [hb]; rfl)]
  unfold CoreSt.vqReady
  rw [hh, h]
  simp [hb]

theorem vqReady_none {q : CoreSt} (h : ∀ x ∈ q.vq, x.bound = true) : q.vqReady = false := by
  have hh : q.vqHead = none := List.find?_eq_none.mpr (fun x hx => by rw [h x hx]; decide)
  unfold CoreSt.vqReady
  rw [hh]

/-- The ready cores of a polder. -/
def readyCores (s : State) (node p : Nat) : List Nat := (List.range 8).filter (fun k => (s.core node (8 * p + k)).vqReady)

/-- Whether every ready core has weight 0. -/
def noWeight (s : State) (node p : Nat) : Bool := (readyCores s node p).all (fun k => (s.core node (8 * p + k)).vshare.toNat == 0)

/-- The deficits after the round. -/
def roundDeficits (s : State) (node p : Nat) : Nat → Int :=
  if noWeight s node p then fun k => (s.core node (8 * p + k)).deficit
  else deficits (readyCores s node p) (fun k => (s.core node (8 * p + k)).vshare.toNat) (fun k => (s.core node (8 * p + k)).deficit) 8

/-- The deficits are kept with the cores. -/
def keepDeficits (s : State) (node p : Nat) (d : Nat → Int) : State :=
  (List.range 8).foldl (fun (s : State) k =>
    let q := s.core node (8 * p + k)
    if d k = q.deficit then s else s.setCore node (8 * p + k) { q with deficit := d k }) s

/-- The head of core `c` is bound. -/
def boundAt (s : State) (node p c : Nat) (z : Bool) : State :=
  let q := s.core node (8 * p + c)
  let s := s.setCore node (8 * p + c) { q with vq := bindFirst q.vq, deficit := if z then q.deficit else q.deficit - 8 }
  (s.setPolder node p { s.polder node p with vlast := c }).enq .vectorResultWrite { node := node, core := 8 * p + c }

theorem bindOne_eq (s : State) (node p : Nat) : s.bindOne node p =
    if readyCores s node p = [] then s else
      match (coreRotation (s.polder node p).vlast).find? (fun k => (readyCores s node p).contains k && (noWeight s node p || decide (8 ≤ roundDeficits s node p k))) with
      | none => s
      | some c => boundAt (keepDeficits s node p (roundDeficits s node p)) node p c (noWeight s node p) := by
  unfold State.bindOne
  rfl

theorem sameQueues_keepDeficits (s : State) (node p : Nat) (d : Nat → Int) : SameQueues s (keepDeficits s node p d) := by
  unfold keepDeficits
  induction List.range 8 generalizing s with
  | nil => exact .refl s
  | cons k l ih =>
    refine SameQueues.trans ?_ (ih _)
    dsimp only
    split
    · exact .refl s
    · exact sameQueues_setCore _ _ _ rfl

theorem boundAt_facts (s : State) (node p c : Nat) (z : Bool) : ((boundAt s node p c z).core node (8 * p + c)).vq = bindFirst (s.core node (8 * p + c)).vq ∧
    (∀ j, j ≠ c → ((boundAt s node p c z).core node (8 * p + j)).vq = (s.core node (8 * p + j)).vq) ∧ (boundAt s node p c z).ctxs = s.ctxs ∧
    (boundAt s node p c z).mem = s.mem := by
  refine ⟨congrArg CoreSt.vq (setCore_core_same ..), fun j hj => congrArg CoreSt.vq (setCore_core_other _ _ _ _ _ _ (fun h => hj ?_)), rfl, rfl⟩
  have h2 := (Prod.mk.inj h).2
  omega

theorem bindOne_idle {s : State} {node p : Nat} (h : readyCores s node p = []) : s.bindOne node p = s := if_pos h

theorem bindAll_idle {s : State} {node p : Nat} (h : readyCores s node p = []) (l : List Nat) : l.foldl (fun (s : State) _ => s.bindOne node p) s = s := by
  induction l with
  | nil => rfl
  | cons a l ih => rw [List.foldl_cons, bindOne_idle h, ih]

/-- Weights are added until the one ready core reaches 8. -/
theorem deficits_reach {ready : List Nat} {w : Nat → Nat} {k : Nat} (hk : ready.contains k = true) (hone : ∀ j ∈ ready, j = k) (hw : 1 ≤ w k) (n : Nat) (d : Nat → Int)
    (hd : 8 ≤ d k + n) : 8 ≤ deficits ready w d n k := by
  induction n generalizing d with
  | zero =>
    unfold deficits
    omega
  | succ n ih =>
    unfold deficits
    split
    next h =>
      obtain ⟨j, hj, h8⟩ := List.any_eq_true.mp h
      rw [hone j hj] at h8
      exact of_decide_eq_true h8
    next =>
      refine ih _ ?_
      rw [if_pos hk]
      omega

theorem mem_coreRotation {last k : Nat} (hk : k < 8) : k ∈ coreRotation last := by
  unfold coreRotation
  rw [List.mem_map]
  refine ⟨(k + 7 + (8 - last % 8)) % 8, List.mem_range.mpr (by omega), by omega⟩

section
variable {s : State} {node p k : Nat} {x : VqEntry}
variable (hk : k < 8) (hvq : (s.core node (8 * p + k)).vq = [x]) (hb : x.bound = false) (hothers : ∀ j, j < 8 → j ≠ k → (s.core node (8 * p + j)).vq = [])
include hk hvq hb hothers

theorem readyCores_one (j : Nat) : j ∈ readyCores s node p ↔ j = k := by
  unfold readyCores
  rw [List.mem_filter, List.mem_range]
  constructor
  · rintro ⟨hj, hr⟩
    by_contra hne
    rw [vqReady_none (by rw [hothers j hj hne]; intro x hx; cases hx)] at hr
    cases hr
  · rintro rfl
    exact ⟨hk, vqReady_one hvq hb⟩

variable (hd : (s.core node (8 * p + k)).deficit = 0) (hv : (s.core node (8 * p + k)).vshare ≠ 0)
include hd hv

/-- A lane group binds the one head there is. -/
theorem bindOne_one : ((s.bindOne node p).core node (8 * p + k)).vq = [{ x with bound := true }] ∧
    (∀ j, j < 8 → j ≠ k → ((s.bindOne node p).core node (8 * p + j)).vq = []) ∧ (s.bindOne node p).ctxs = s.ctxs ∧ (s.bindOne node p).mem = s.mem := by
  have hin := readyCores_one hk hvq hb hothers
  have hkin : (readyCores s node p).contains k = true := List.contains_iff_mem.mpr ((hin k).mpr rfl)
  have hw : 1 ≤ (s.core node (8 * p + k)).vshare.toNat := by
    by_contra h
    exact hv (BitVec.eq_of_toNat_eq (Nat.lt_one_iff.mp (Nat.lt_of_not_le h)))
  have hweight : noWeight s node p = false := by
    unfold noWeight
    rw [List.all_eq_false]
    exact ⟨k, (hin k).mpr rfl, by simp; omega⟩
  have hreach : 8 ≤ roundDeficits s node p k := by
    unfold roundDeficits
    rw [if_neg (by rw [hweight]; decide)]
    exact deficits_reach hkin (fun j hj => (hin j).mp hj) hw 8 _ (by rw [hd]; decide)
  obtain ⟨c, hc⟩ : ∃ c, (coreRotation (s.polder node p).vlast).find? (fun k => (readyCores s node p).contains k &&
      (noWeight s node p || decide (8 ≤ roundDeficits s node p k))) = some c := by
    rw [← Option.isSome_iff_exists, List.find?_isSome]
    exact ⟨k, mem_coreRotation hk, by rw [hkin, decide_eq_true hreach, Bool.or_true]; rfl⟩
  have hck : c = k := by
    have h := List.find?_some hc
    rw [Bool.and_eq_true] at h
    exact (hin c).mp (List.contains_iff_mem.mp h.1)
  subst hck
  have he : s.bindOne node p = boundAt (keepDeficits s node p (roundDeficits s node p)) node p c (noWeight s node p) := by
    rw [bindOne_eq, if_neg (fun h => by rw [h] at hkin; cases hkin), hc]
  obtain ⟨q1, q2, q3, q4⟩ := boundAt_facts (keepDeficits s node p (roundDeficits s node p)) node p c (noWeight s node p)
  obtain ⟨k1, k2, k3⟩ := sameQueues_keepDeficits s node p (roundDeficits s node p)
  rw [he]
  refine ⟨?_, fun j hj hne => (q2 j hne).trans ((k1 ..).trans (hothers j hj hne)), q3.trans k2, q4.trans k3⟩
  rw [q1, k1, hvq]
  unfold bindFirst
  rw [if_neg (by rw [hb]; decide)]

/-- VECTOR_BIND with one head to bind: the first lane group binds it, and the others find none. -/
theorem vectorBind_one (hs : (s.polder node p).starved = false) (hr : (s.pkg node).retired = []) :
    ((s.vectorBind node p).core node (8 * p + k)).vq = [{ x with bound := true }] ∧ (s.vectorBind node p).ctxs = s.ctxs ∧ (s.vectorBind node p).mem = s.mem := by
  obtain ⟨h1, h2, h3, h4⟩ := bindOne_one hk hvq hb hothers hd hv
  have hlanes : s.laneGroups node p = 8 := by
    unfold State.laneGroups
    rw [hr]
    rfl
  have hidle : readyCores (s.bindOne node p) node p = [] := by
    unfold readyCores
    rw [List.filter_eq_nil_iff]
    intro j hj
    rw [vqReady_none ?_]
    · decide
    by_cases hne : j = k
    · rw [hne, h1]
      intro y hy
      rw [List.mem_singleton.mp hy]
    · rw [h2 j (List.mem_range.mp hj) hne]
      intro y hy
      cases hy
  have he : s.vectorBind node p = s.bindOne node p := by
    unfold State.vectorBind
    rw [if_neg (by rw [hs]; decide), hlanes, show List.range 8 = 0 :: [1, 2, 3, 4, 5, 6, 7] from rfl, List.foldl_cons, bindAll_idle hidle]
  rw [he]
  exact ⟨h1, h3, h4⟩

end

section
variable {s : State}

theorem vectorBind_starved (h : (s.polder s.ev.node s.ev.n).starved = true) :
    Completes .vectorBind s (fun t => (t.polder s.ev.node s.ev.n).starved = false ∧ t.cores = s.cores ∧ t.ctxs = s.ctxs) := by
  have he : s.vectorBind s.ev.node s.ev.n = (s.setPolder s.ev.node s.ev.n { s.polder s.ev.node s.ev.n with starved := false }).enq .vectorBind
      { node := s.ev.node, n := s.ev.n } := if_pos h
  exact completes_of (show exec .vectorBind s = .next (s.vectorBind s.ev.node s.ev.n) from rfl)
    ⟨by rw [he]; exact congrArg Polder.starved (setPolder_polder_same ..), by rw [he]; rfl, by rw [he]; rfl⟩

theorem vectorResultWrite_writes {x : VqEntry} {l : List VqEntry} (h : (s.core s.ev.node s.ev.core).vq = x :: l) (hb : x.bound = true) :
    Completes .vectorResultWrite s (fun t => (t.core s.ev.node s.ev.core).vq = l ∧ t.ctxs = s.ctxs ∧ t.mem = s.mem) := by
  have he : exec .vectorResultWrite s = .next (if (s.core s.ev.node s.ev.core).vq.any (fun e => e.bound) then
      (s.setCore s.ev.node s.ev.core { s.core s.ev.node s.ev.core with vq := dropBound (s.core s.ev.node s.ev.core).vq }).enq .vectorBind
        { node := s.ev.node, n := s.ev.core / 8 } else s) := rfl
  have hd : dropBound (x :: l) = l := if_pos hb
  rw [if_pos (by rw [h, List.any_cons, hb]; rfl)] at he
  refine completes_of he ⟨(congrArg CoreSt.vq (setCore_core_same ..)).trans ?_, rfl, rfl⟩
  rw [h]
  exact hd

theorem returnStarvation_starves (h : (s.polder s.ev.node s.ev.n).returns ≠ []) :
    Completes .returnStarvation s (fun t => (t.polder s.ev.node s.ev.n).starved = true ∧ t.ctxs = s.ctxs ∧ t.mem = s.mem) := by
  have he : exec .returnStarvation s = .next (if (s.polder s.ev.node s.ev.n).returns = [] then s else
      s.setPolder s.ev.node s.ev.n { s.polder s.ev.node s.ev.n with starved := true }) := rfl
  rw [if_neg h] at he
  exact completes_of he ⟨congrArg Polder.starved (setPolder_polder_same ..), rfl, rfl⟩

/-! ## Stream ports -/

theorem fetched_port {c d : Ctx} {r : Reg} {p : Port} {l : List (Nat × Vec)} (hp : c.portOf r = some p) (hra : d.ra = c.ra) :
    (d.setPort r { p with fetched := l }).portOf r = some { p with fetched := l } := by
  obtain ⟨hr, hb, hc⟩ := portOf_some_iff hp
  rw [portOf_setPort_same hr, hra, hc]
  exact if_pos (by rw [Bool.and_eq_true]; exact ⟨hb, rfl⟩)

theorem streamFetch_fetches {p : Port} {u : State} {v : Vec} {r : Reg} (hr : r = BitVec.ofNat 5 s.ev.n) (hp : (s.ctx s.ev.id).portOf r = some p) (hw : p.write = false)
    (h4 : p.fetched.length < 4) (hn : p.fetched.length < p.remain)
    (hv : (s.setCtx s.ev.id { s.ctx s.ev.id with surveyed := [] }).vecLoad (s.reqOf s.ev.id) (p.va (p.k + p.fetched.length)) p.typ.toNat false = .ok (u, v, 0))
    (hu : u.ctx s.ev.id = { s.ctx s.ev.id with surveyed := (u.ctx s.ev.id).surveyed }) :
    Completes .streamElementFetch s (fun t => t.mem = u.mem ∧ (t.ctx s.ev.id).v = (s.ctx s.ev.id).v ∧
      (t.ctx s.ev.id).portOf r = some { p with fetched := p.fetched ++ [(p.k + p.fetched.length, v)] }) := by
  have he : s.streamFetch s.ev.id r = (u.setCtx s.ev.id { (u.ctx s.ev.id).setPort r { p with fetched := p.fetched ++ [(p.k + p.fetched.length, v)] } with
      surveyed := (s.ctx s.ev.id).surveyed }).enq .streamElementFetch { node := s.ev.id.node, core := s.ev.id.core, slot := s.ev.id.slot, n := r.toNat } := by
    unfold State.streamFetch
    dsimp only
    rw [hp]
    dsimp only
    rw [if_neg (by rw [hw]; rintro (h | h | h); cases h; all_goals omega), hv]
    exact if_neg (fun h => h rfl)
  have hc : ((s.streamFetch s.ev.id r).ctx s.ev.id) = { (u.ctx s.ev.id).setPort r { p with fetched := p.fetched ++ [(p.k + p.fetched.length, v)] } with
      surveyed := (s.ctx s.ev.id).surveyed } := by
    rw [he]
    exact setCtx_ctx_same ..
  refine completes_of (show exec .streamElementFetch s = .next (s.streamFetch s.ev.id (BitVec.ofNat 5 s.ev.n)) from rfl) ?_
  rw [← hr, hc]
  refine ⟨by rw [he]; rfl, ?_, ?_⟩
  · exact (setPort_v ..).trans (by rw [hu])
  · exact fetched_port hp (by rw [hu])

theorem streamAppend_eq {p : Port} {r : Reg} (hr : r = BitVec.ofNat 5 s.ev.n) (hp : (s.ctx s.ev.id).portOf r = some p) :
    exec .streamAppendPerformed s = .next (if (p.buffered.take 1).any (fun e => s.appendWaits s.ev.id (s.ctx s.ev.id).gen r.toNat e.1)
      then s.enq .streamAppendPerformed s.ev else s.setCtx s.ev.id ((s.ctx s.ev.id).setPort r { p with buffered := p.buffered.drop 1 })) := by
  refine (show _ = execStreamAppendPerformed s from rfl).trans ?_
  unfold execStreamAppendPerformed
  dsimp only
  rw [← hr, hp]

theorem streamAppend_performs {p : Port} {r : Reg} (hr : r = BitVec.ofNat 5 s.ev.n) (hp : (s.ctx s.ev.id).portOf r = some p)
    (h : (p.buffered.take 1).any (fun e => s.appendWaits s.ev.id (s.ctx s.ev.id).gen r.toNat e.1) = false) :
    Completes .streamAppendPerformed s (fun t => t.mem = s.mem ∧ (t.ctx s.ev.id).portOf r = some { p with buffered := p.buffered.drop 1 }) := by
  have he := streamAppend_eq hr hp
  rw [if_neg (by rw [h]; decide)] at he
  refine completes_of he ⟨rfl, ?_⟩
  obtain ⟨h24, hb, hra⟩ := portOf_some_iff hp
  rw [setCtx_ctx_same, portOf_setPort_same h24, hra]
  exact if_pos (by rw [Bool.and_eq_true]; exact ⟨hb, rfl⟩)

/-! ## Time-outs -/

theorem expire_waits {id : CtxId} {w : Wait} (hst : (s.ctx id).st = .stalled) (hw : (s.ctx id).wait = some w) :
    s.expire id w = s.setCtx id { s.ctx id with expired := true } := if_pos ⟨hst, hw⟩

/-- A time-out that finds its wait marks it expired, and nothing else. -/
theorem timeout_expires {i : Instr} {id : CtxId} (he : exec i s = .next (s.setCtx id { s.ctx id with expired := true })) :
    Completes i s (fun t => t.ctx id = { s.ctx id with expired := true } ∧ (∀ j, j ≠ id → t.ctx j = s.ctx j) ∧ t.cores = s.cores ∧ t.mem = s.mem) :=
  completes_of he ⟨setCtx_ctx_same .., fun j hj => setCtx_ctx_other _ _ _ _ hj, rfl, rfl⟩

theorem walkTimeout_expires (hf : s.ev.flag = false) (hst : (s.ctx s.ev.id).st = .stalled) (hw : (s.ctx s.ev.id).wait = some .migration) :
    exec .walkMigratingTimeout s = .next (s.setCtx s.ev.id { s.ctx s.ev.id with expired := true }) := by
  have he : exec .walkMigratingTimeout s = .next (if s.ev.flag then (if s.ev.n = 1 then s.nmLate s.ev.id else { s with late := addOnce s.late s.ev.m })
      else s.expire s.ev.id .migration) := rfl
  rw [he, if_neg (by rw [hf]; decide), expire_waits hst hw]

theorem wakes {i : Instr} {id : CtxId} {w : Wait} (he : exec i s = .next (s.wakeSlot id w)) (hst : (s.ctx id).st = .stalled) (hw : (s.ctx id).wait = some w) :
    Completes i s (fun t => t.ctx id = { s.ctx id with st := .ready, wait := none } ∧ t.mem = s.mem) := by
  have hu : s.wakeSlot id w = s.setCtx id { s.ctx id with st := .ready, wait := none } := if_pos ⟨hst, hw⟩
  rw [hu] at he
  exact completes_of he ⟨setCtx_ctx_same .., rfl⟩

/-! ## The scratchpad's port and its trace ring -/

theorem mem_spadWrite (node p la n v a b c : Nat) : (s.spadWrite node p la n v a b c).mem = memWrite s.mem (spadAddr node p la) n v := by
  unfold State.spadWrite
  dsimp only
  split
  · exact Barriers.portSeen_mem ..
  · exact (Canon.mem_trace ..).trans (Barriers.portSeen_mem ..)

variable {w : PortWrite} (hf : s.ev.flag = true) (hq : (s.polder s.ev.node s.ev.n).portQ = [w])
include hf hq

theorem exec_portAccess : exec .scratchpadPortAccess s = .next (s.portDrain s.ev.node s.ev.n [w]) := by
  have he : exec .scratchpadPortAccess s = .next (if s.ev.flag then s.portDrain s.ev.node s.ev.n (s.polder s.ev.node s.ev.n).portQ
      else s.wakeSlot s.ev.id .resource) := rfl
  rw [he, if_pos hf, hq]

theorem portAccess_applies (h1 : s.scoreboardHit s.ev.node s.ev.n w.la w.n = false) (h2 : s.appendBefore w = false) :
    Completes .scratchpadPortAccess s (fun t => t.mem = memWrite s.mem (spadAddr s.ev.node s.ev.n w.la) w.n w.v ∧ (t.polder s.ev.node s.ev.n).portQ = []) := by
  have hd : s.portDrain s.ev.node s.ev.n [w] = (s.spadWrite s.ev.node s.ev.n w.la w.n w.v w.id.node w.id.polder w.id.core).portDrain s.ev.node s.ev.n [] :=
    (State.portDrain.eq_2 ..).trans (if_neg (by rw [h1, h2]; decide))
  refine completes_of (exec_portAccess hf hq) ?_
  rw [hd, State.portDrain]
  exact ⟨mem_spadWrite .., congrArg Polder.portQ (setPolder_polder_same ..)⟩

theorem portAccess_waits (h : s.scoreboardHit s.ev.node s.ev.n w.la w.n = true ∨ s.appendBefore w = true) :
    Completes .scratchpadPortAccess s (fun t => t.mem = s.mem ∧ (t.polder s.ev.node s.ev.n).portQ = [w]) := by
  refine completes_of (exec_portAccess hf hq) ?_
  rw [State.portDrain, if_pos (by rcases h with h | h <;> rw [h]; exacts [rfl, Bool.or_true _])]
  exact ⟨rfl, congrArg Polder.portQ (setPolder_polder_same ..)⟩

end

theorem tmap_invalid {κ : Type} (l : Tab κ TraceEnt) : (∀ x ∈ tmap l (fun _ e => { e with v := false }), x.2.v = false) ∧
    (tmap l (fun _ e => { e with v := false })).map (fun x => (x.1, { x.2 with v := false })) = l.map (fun x => (x.1, { x.2 with v := false })) := by
  induction l with
  | nil => exact ⟨fun x hx => (by cases hx), rfl⟩
  | cons x l ih =>
    obtain ⟨k, a⟩ := x
    obtain ⟨h1, h2⟩ := ih
    unfold tmap
    refine ⟨fun y hy => ?_, ?_⟩
    · rcases List.mem_cons.mp hy with rfl | hy
      · rfl
      · exact h1 y hy
    · rw [List.map_cons, List.map_cons, h2]

theorem ringWrite_writes (s : State) : Completes .traceRingControl s (fun t =>
    let g := (t.polder s.ev.node s.ev.n).ring
    t.mem = s.mem ∧ g.en = (fieldW s.ev.w 31 1 == 1) ∧ (fieldW s.ev.w 29 1 = 1 → (∀ x ∈ g.ents, x.2.v = false) ∧ g.head = 0) ∧
      (fieldW s.ev.w 29 1 = 0 → g.ents = (s.polder s.ev.node s.ev.n).ring.ents ∧ g.head = (s.polder s.ev.node s.ev.n).ring.head)) := by
  refine completes_of (show exec .traceRingControl s = .next (s.ringWrite s.ev.node s.ev.n s.ev.w.toNat) from rfl) ?_
  unfold State.ringWrite
  dsimp only
  rw [setPolder_polder_same]
  dsimp only
  by_cases h : fieldN s.ev.w.toNat 29 1 = 1
  · rw [if_pos h]
    exact ⟨rfl, rfl, fun _ => ⟨(tmap_invalid _).1, rfl⟩, fun h0 => absurd (h.symm.trans h0) (by decide)⟩
  · rw [if_neg h]
    exact ⟨rfl, rfl, fun h1 => absurd h1 h, fun _ => ⟨rfl, rfl⟩⟩

theorem clr_clears (s : State) : Completes .clr s (fun t =>
    let g := (t.polder s.ev.node s.ev.n).ring
    (∀ x ∈ g.ents, x.2.v = false) ∧ g.ents.map (fun x => (x.1, { x.2 with v := false })) =
      (s.polder s.ev.node s.ev.n).ring.ents.map (fun x => (x.1, { x.2 with v := false })) ∧ g.head = 0 ∧ t.mem = s.mem) := by
  refine completes_of (show exec .clr s = .next (s.setPolder s.ev.node s.ev.n { s.polder s.ev.node s.ev.n with
    ring := (s.polder s.ev.node s.ev.n).ring.clear }) from rfl) ?_
  dsimp only
  rw [setPolder_polder_same]
  exact ⟨(tmap_invalid _).1, (tmap_invalid _).2, rfl, rfl⟩

theorem mem_addOnce {α : Type} [DecidableEq α] (l : List α) (a : α) : a ∈ addOnce l a := by
  unfold addOnce
  split
  next h => exact List.contains_iff_mem.mp h
  next => exact List.mem_append_right _ (List.mem_singleton.mpr rfl)

/-- The late walks and near-memory operations of a migration's time-out. -/
theorem walkTimeout_late (s : State) (hf : s.ev.flag = true) :
    (s.ev.n ≠ 1 → Completes .walkMigratingTimeout s (fun t => s.ev.m ∈ t.late ∧ t.ctxs = s.ctxs ∧ t.mem = s.mem)) ∧
    (s.ev.n = 1 → Completes .walkMigratingTimeout s (fun t => (∀ o ∈ t.nmOps, o.id = s.ev.id → o.stage = .returned → o.late = true) ∧
      t.ctxs = s.ctxs ∧ t.mem = s.mem)) := by
  have he : exec .walkMigratingTimeout s = .next (if s.ev.flag then (if s.ev.n = 1 then s.nmLate s.ev.id else { s with late := addOnce s.late s.ev.m })
      else s.expire s.ev.id .migration) := rfl
  rw [if_pos hf] at he
  refine ⟨fun hn => ?_, fun hn => ?_⟩
  · rw [if_neg hn] at he
    exact completes_of he ⟨mem_addOnce .., rfl, rfl⟩
  · rw [if_pos hn] at he
    refine completes_of he ⟨fun o ho hid hst => ?_, rfl, rfl⟩
    obtain ⟨x, -, rfl⟩ := List.mem_map.mp ho
    by_cases h : x.id = s.ev.id ∧ x.stage = .returned
    · rw [if_pos h]
    · rw [if_neg h] at hid hst
      exact absurd ⟨hid, hst⟩ h

/-- Settles O49: each step by what it makes of the unit that it names. -/
theorem eventsOfCoresVectorsAndStreams : Obligations.EventsOfCoresVectorsAndStreams := by
  intro s e q pol id r
  refine ⟨fun j h => ⟨fun hst => completes_of (show exec .slotSwitch s = .next (s.slotSwitch s.ev.node s.ev.core) from rfl) (slotSwitch_selects h hst),
      issueQuantum_spent h⟩, fun h => completes_of (issueQuantum_eq s) (if_neg (Nat.not_le.mpr h)), vectorBind_starved, ?_, fun x l => vectorResultWrite_writes,
    completes_of (show exec .memoryReturnWrite s = .next (s.setPolder s.ev.node s.ev.n { s.polder s.ev.node s.ev.n with
      returns := (s.polder s.ev.node s.ev.n).returns.drop 1 }) from rfl) ⟨congrArg Polder.returns (setPolder_polder_same ..), rfl, rfl⟩,
    returnStarvation_starves, fun p u v => streamFetch_fetches rfl, fun p hp => ⟨streamAppend_performs rfl hp, fun h => completes_of (streamAppend_eq rfl hp) (if_pos h)⟩,
    ?_, walkTimeout_late s, fun hf w hq => ⟨portAccess_applies hf hq, portAccess_waits hf hq⟩, ?_,
    completes_of (show exec .contentionDecay s = _ from rfl) ⟨congrArg CoreSt.l1 (setCore_core_same ..), rfl⟩, ringWrite_writes s, clr_clears s⟩
  · intro k x hs hr hk hb hvq hd hv hothers
    exact completes_of (show exec .vectorBind s = .next (s.vectorBind s.ev.node s.ev.n) from rfl) (vectorBind_one hk hvq hb hothers hd hv hs hr)
  · intro x hx hst hw
    rcases List.mem_append.mp hx with hx | hx
    · split at hx
      · cases hx
      next hf =>
        obtain rfl := List.mem_singleton.mp hx
        exact timeout_expires (walkTimeout_expires (Bool.eq_false_iff.mpr hf) hst hw)
    · simp only [List.mem_cons, List.not_mem_nil, or_false] at hx
      rcases hx with rfl | rfl | rfl
      · exact timeout_expires ((show exec .migrationHoldTimeout s = .next (s.expire s.ev.id .migration) from rfl).trans (by rw [expire_waits hst hw]))
      · exact timeout_expires ((show exec .sendTimeout s = .next (s.sendTimeout s.ev.id) from rfl).trans (by unfold State.sendTimeout; rw [if_pos hw]))
      · exact timeout_expires ((show exec .wfeTimeout s = .next (s.expire ⟨s.ev.node, s.ev.core, 11⟩ .wfe) from rfl).trans (by rw [expire_waits hst hw]))
  · intro i hi hst hw
    rcases List.mem_append.mp hi with hi | hi
    · split at hi
      · cases hi
      next hf =>
        obtain rfl := List.mem_singleton.mp hi
        refine wakes ((show exec .scratchpadPortAccess s = .next (if s.ev.flag then s.portDrain s.ev.node s.ev.n (s.polder s.ev.node s.ev.n).portQ
          else s.wakeSlot s.ev.id .resource) from rfl).trans ?_) hst hw
        rw [if_neg hf]
    · obtain rfl := List.mem_singleton.mp hi
      exact wakes (show exec .scoreboardRelease s = .next (s.wakeSlot s.ev.id .resource) from rfl) hst hw

end Sys2Proof.CoreEvents
end

section
/-! A store of a context to a line of the pool, of which the context has been told that it was lost, when the line's device answers. -/

namespace Sys2Proof.PoolAnswers
set_option Elab.async false
open Sys2Proof Sys2Proof.Machine Sys2Proof.Safety

/-- A region of 256 MiB at the start of the pool, attached again after its loss. -/
def region : Region := { Region.reset with en := true, st := .attached, size := 1 }

/-- A context has stored to the region's first line, and has been told that the store was lost; the device answers for the line. -/
def answered : State :=
  { State.reset with
    pkgs := [(0, { Pkg.reset with regions := [(0, region)] })]
    ctxs := [(⟨0, 0, 0⟩, { Ctx.resetOf 0 with poolStores := [(0, 0)], poolLost := [(0, 0)] })]
    ev := { flag := true } }

theorem answered_home : answered.regionHome answered.ev.node (paOff (lineOf answered.ev.pa)) = some (0, region) := by decide +kernel

/-- The answer leaves the store in the context's list, for the context's next fence to report. -/
theorem answered_keeps : ((answered.poolPerformed 0 0).ctx ⟨0, 0, 0⟩).poolStores = [(0, 0)] := by decide +kernel

theorem answered_step : exec .poolDeviceResponse answered = .next (answered.poolPerformed 0 0) := by
  refine (show _ = execPoolDeviceResponse answered from rfl).trans ?_
  unfold execPoolDeviceResponse
  dsimp only
  rw [answered_home]
  rfl

/-- Refutes O51, its clause on a device's response: a store that its context has been told is lost stays in the context's list of stores, though the line
has nothing left to perform. -/
theorem not_eventsOfThePool : ¬ Obligations.EventsOfThePool := by
  intro h
  obtain ⟨-, -, -, -, -, -, -, -, -, -, -, -, hresponse⟩ := h answered
  obtain ⟨hclean, -⟩ := hresponse 0 region rfl answered_home rfl
  obtain ⟨t, ht, -, hgone, -⟩ := hclean rfl
  rw [answered_step] at ht
  cases ht
  refine hgone ⟨0, 0, 0⟩ rfl (0, 0) ?_ rfl
  rw [answered_keeps]
  exact List.mem_singleton.mpr rfl

end Sys2Proof.PoolAnswers
end

section
/-! A self-test of a unit whose code the error log has no number for: a core's tables and queues, code 8. -/

namespace Sys2Proof.SelfTests
set_option Elab.async false
open Sys2Proof Sys2Proof.Machine Sys2Proof.Safety

/-- A unit of code 8 of package 0 has passed its self-test. -/
def passed : State := { State.reset with ev := { n := 8 } }

/-- The test has an outcome, and the error log gets no entry: its entries hold unit codes up to 7. -/
theorem passed_step : ∃ t, exec .selfTestDone passed = .next t ∧ (t.pkg 0).errNext = 0 := ⟨_, rfl, rfl⟩

/-- Refutes O59, its clause on a self-test that passes: the test of a unit of code 8 writes no log entry, so that the log's next place stays. -/
theorem not_eventsOfManagement : ¬ Obligations.EventsOfManagement := by
  intro h
  obtain ⟨-, -, -, -, -, -, -, -, -, -, hpassed, -⟩ := h passed
  obtain ⟨t, ht, -, -, hnext⟩ := hpassed rfl
  obtain ⟨u, hu, hstays⟩ := passed_step
  rw [hu] at ht
  cases ht
  exact absurd (hstays.symm.trans hnext) (by decide)

end Sys2Proof.SelfTests
end

section
/-! Steps of mailboxes: an entry's arrival, credits asked for, granted and returned, and the start of a handler (R330, R331, R337). -/

namespace Sys2Proof.MailboxSteps
set_option Elab.async false
open Sys2Proof Sys2Proof.Machine Sys2Proof.Safety Sys2Proof.CoreEvents

variable {s : State}

/-- A flight alone in the fabric leaves it, when it is of the kind that is asked for. -/
theorem takeFlight_alone {f : Flight → Bool} {x : Flight} (h : s.flights = [x]) (hf : f x = true) : s.takeFlight f = some (x, { s with flights := [] }) := by
  unfold State.takeFlight Sys2Proof.Machine.takeFlight
  rw [h]
  dsimp only
  rw [if_pos hf]
  rfl

/-! ## Arrival -/

/-- The walk of a bearing string asks the tiles and links alone. -/
theorem walkBearings_flights (s : State) (fl : List Flight) (node w d r c n : Nat) :
    ({ s with flights := fl } : State).walkBearings node w d r c n = s.walkBearings node w d r c n := by
  induction n generalizing w d r c with
  | zero => rfl
  | succ n ih =>
    unfold State.walkBearings
    simp only [ih]
    rfl

theorem misroutes_flights (s : State) (fl : List Flight) (id : CtxId) (h : Word) (w : BitVec 32) :
    ({ s with flights := fl } : State).misroutes id h w = s.misroutes id h w := by
  unfold State.misroutes
  dsimp only
  rw [walkBearings_flights]

theorem flights_spadWrite (s : State) (node p la n v a b c : Nat) : (s.spadWrite node p la n v a b c).flights = s.flights := by
  unfold State.spadWrite State.trace
  dsimp only
  rw [Barriers.portSeen_eq]
  split
  · rfl
  · split <;> rfl

theorem wantHandler_keeps (s : State) (node p m : Nat) (b : Mbox) :
    (s.wantHandler node p m b).flights = s.flights ∧ (s.wantHandler node p m b).polders = s.polders ∧ (s.wantHandler node p m b).mem = s.mem := by
  unfold State.wantHandler
  split <;> exact ⟨rfl, rfl, rfl⟩

/-- What writing an entry at a ring's tail makes of the memory, the mailbox and the fabric. -/
theorem ringPut_writes (s : State) (node p m : Nat) (b : Mbox) (src : CtxId) (v : Nat) (credit : Bool) :
    (s.ringPut node p m b src v credit).flights = s.flights ∧
      (s.ringPut node p m b src v credit).mem = memWrite s.mem (spadAddr node p (b.ring + b.esize * ((b.head + b.held) % b.size))) b.esize v ∧
      (s.ringPut node p m b src v credit).mbox node p m =
        some { b with held := b.held + 1, granted := b.granted - credit.toNat, srcs := b.srcs ++ [src] } := by
  unfold State.ringPut
  dsimp only
  refine ⟨(wantHandler_keeps ..).1.trans (flights_spadWrite ..), (wantHandler_keeps ..).2.2.trans (mem_spadWrite ..), ?_⟩
  exact (Mailboxes.mbox_of_polders (wantHandler_keeps ..).2.1 ..).trans (Mailboxes.setMbox_mbox ..)

/-- An entry that comes to a binding that it may enter is written at the tail of its ring. -/
theorem entryArrives_put {node p n : Nat} {h : Word} {src : CtxId} {d : Vec} {k c : Nat} {b : Mbox} (hb : s.mbox node p (hMbox h) = some b)
    (hnamed : b.named h = true) (hk : k = 0 ∨ k = b.bind) (hc : c = b.bind ∨ b.unreserved ≠ 0) (hn : n ≤ b.esize) :
    s.entryArrives node p h src n d false k c = s.ringPut node p (hMbox h) b src (d.toNat % 2 ^ (8 * n)) (c == b.bind) := by
  unfold State.entryArrives
  rw [if_neg Bool.false_ne_true, hb]
  refine (if_neg ?_).trans (if_neg (by omega))
  rintro (h | ⟨h0, h1⟩ | ⟨h0, h1⟩)
  · rw [hnamed] at h
    cases h
  · exact hk.elim h0 h1
  · exact hc.elim h0 (· h1)

/-- An entry that no binding takes, with no spillway bound, is counted and dropped. -/
theorem entryArrives_drop {node p n : Nat} {h : Word} {src : CtxId} {d : Vec} {k c : Nat} (hspill : s.mbox node p 511 = none)
    (hb : ∀ b, s.mbox node p (hMbox h) = some b → b.named h = false ∨ (k ≠ 0 ∧ k ≠ b.bind) ∨ (c ≠ b.bind ∧ b.unreserved = 0)) :
    s.entryArrives node p h src n d false k c =
      s.setPolder node p { s.polder node p with spillcnt := countUp (s.polder node p).spillcnt } := by
  have hdrop : ∀ r, s.spill node p h src r d =
      s.setPolder node p { s.polder node p with spillcnt := countUp (s.polder node p).spillcnt } := by
    intro r
    unfold State.spill
    dsimp only
    have : (s.setPolder node p { s.polder node p with spillcnt := countUp (s.polder node p).spillcnt }).mbox node p 511 = none := by
      unfold State.mbox
      rw [setPolder_polder_same]
      exact hspill
    rw [this]
  unfold State.entryArrives
  rw [if_neg Bool.false_ne_true]
  split
  · exact hdrop 1
  · next b hbox =>
    refine (if_pos ?_).trans (hdrop 0)
    refine (hb b hbox).imp (fun hn => ?_) id
    rw [hn]
    rfl

/-! ## Credits -/

theorem grantOf_eq (b : Mbox) (k : Nat) : b.grantOf k = min (b.size - b.held - b.granted) (min 16 k) := rfl

/-- The mailbox and generation that the handle of a binding names. -/
theorem mkHandle_names (id : CtxId) (gen : BitVec 12) (m : Nat) (hm : m < 512) : hMbox (mkHandle id gen m) = m ∧ hGen (mkHandle id gen m) = gen.toNat := by
  have hg := gen.isLt
  unfold hMbox hGen mkHandle fieldW fieldN
  rw [BitVec.toNat_ofNat]
  omega

/-- A binding that can promise entries to its one queued request does so, when a batch is free or the time has come. -/
theorem creditReturn_one {node p m : Nat} {timed : Bool} {b : Mbox} {n c k : Nat} (hb : s.mbox node p m = some b) (hreqs : b.reqs = [(n, c, k)])
    (hfreed : b.freed ≠ 0) (hbatch : timed = true ∨ b.batch ≤ b.freed) (hg : b.grantOf k ≠ 0) :
    s.creditReturn node p m timed =
      ({ s.setMbox node p m { b with reqs := [], granted := b.granted + b.grantOf k, freed := b.freed - b.grantOf k } with
        flights := s.flights ++ [Flight.grant (mkHandle { b.owner with slot := b.owner.slot % 16 } b.gen m) n c (b.grantOf k) b.bind] } : State).enq
        .creditGrant { node := n, core := c } := by
  unfold State.creditReturn
  rw [hb]
  dsimp only
  rw [hreqs]
  refine (if_neg ?_).trans (if_pos rfl)
  rintro (h | h | ⟨h0, h1⟩)
  · exact hg h
  · exact hfreed h
  · refine hbatch.elim (fun ht => ?_) (fun hle => absurd h1 (by omega))
    rw [ht] at h0
    cases h0

/-- Settles O55, a step and a state of its mailbox at a time. -/
theorem eventsOfMailboxes : Obligations.EventsOfMailboxes := by
  intro s hwf e
  refine ⟨?_, ?_, ?_, ?_, ?_⟩
  · intro h src n d w k c hfl hnode hpol hmis
    have harr : exec .messageArrival s = .next (({ s with flights := [] } : State).entryArrives e.node e.n h src n d false k c) := by
      refine congrArg Host.Outcome.next ?_
      unfold State.messageArrival
      rw [takeFlight_alone hfl (by
        show (hNode h == s.ev.node && hPolder h == s.ev.n) = true
        rw [hnode, hpol, beq_self_eq_true, beq_self_eq_true]
        rfl)]
      refine congrArg (fun m => ({ s with flights := [] } : State).entryArrives e.node e.n h src n d m k c) ?_
      cases w with
      | none => rfl
      | some w => exact (misroutes_flights ..).trans hmis
    refine ⟨fun b hb hnamed hk hc hn => completes_of harr ?_, fun hspill hb => completes_of harr ?_⟩
    · rw [entryArrives_put (s := { s with flights := [] }) hb hnamed hk hc hn]
      obtain ⟨hflights, hmem, hbox⟩ := ringPut_writes ({ s with flights := [] } : State) e.node e.n (hMbox h) b src (d.toNat % 2 ^ (8 * n)) (c == b.bind)
      refine ⟨hflights, ?_, hbox.trans ?_⟩
      · rw [hmem, memRead_memWrite_same _ _ _ _ hwf]
        refine Nat.mod_eq_of_lt ((Nat.mod_lt _ (by positivity)).trans_le ?_)
        rw [show 256 = 2 ^ 8 from rfl, ← Nat.pow_mul]
        exact Nat.pow_le_pow_right (by decide) (by omega)
      · by_cases hcb : c = b.bind
        · rw [if_pos hcb, beq_iff_eq.mpr hcb]
          rfl
        · rw [if_neg hcb, beq_eq_false_iff_ne.mpr hcb]
          rfl
    · rw [entryArrives_drop (s := { s with flights := [] }) hspill hb]
      exact ⟨rfl, rfl, congrArg Polder.spillcnt (setPolder_polder_same ..)⟩
  · intro h n c k b hfl hnode hpol hb hnamed g
    have hto : (Flight.creditReq h n c k).to e.node e.n = true := by
      show (hNode h == s.ev.node && hPolder h == s.ev.n) = true
      rw [hnode, hpol, beq_self_eq_true, beq_self_eq_true]
      rfl
    have hb' : ({ s with flights := [] } : State).mbox e.node e.n (hMbox h) = some b := hb
    have hreq : exec .creditRequest s = .next (s.creditRequest e.node e.n) := rfl
    unfold State.creditRequest at hreq
    rw [takeFlight_alone hfl hto] at hreq
    dsimp only at hreq
    rw [hb'] at hreq
    dsimp only at hreq
    rw [if_neg (by rw [hnamed]; decide)] at hreq
    refine ⟨fun hg => ?_, fun hg => ?_⟩
    · rw [if_neg (show ¬ b.grantOf k = 0 from hg)] at hreq
      exact completes_of hreq ⟨rfl, Mailboxes.setMbox_mbox .., rfl⟩
    · rw [if_pos (show b.grantOf k = 0 from hg)] at hreq
      exact completes_of hreq ⟨rfl, Mailboxes.setMbox_mbox .., rfl⟩
  · intro h n k hfl
    have hgrant : exec .creditGrant s = .next (s.creditGrant e.node e.core) := rfl
    unfold State.creditGrant at hgrant
    rw [takeFlight_alone hfl (by
      show (s.ev.node == s.ev.node && s.ev.core == s.ev.core) = true
      rw [beq_self_eq_true, beq_self_eq_true]
      rfl)] at hgrant
    dsimp only at hgrant
    refine ⟨fun hnone hroom => ?_, fun x hwin hx hk => ?_⟩
    · have hfind : (({ s with flights := [] } : State).core e.node e.core).sendWin.find? (fun x => x.handle == h) = none :=
        List.find?_eq_none.mpr (fun x hx he => hnone x hx (beq_iff_eq.mp he))
      rw [hfind] at hgrant
      dsimp only at hgrant
      rw [if_neg (by exact Nat.not_le.mpr hroom)] at hgrant
      exact completes_of hgrant ⟨rfl, congrArg CoreSt.sendWin (setCore_core_same ..), rfl⟩
    · have hwin' : (({ s with flights := [] } : State).core e.node e.core).sendWin = [x] := hwin
      have hbeq : (x.handle == h) = true := beq_iff_eq.mpr hx
      rw [hwin', (List.find?_cons_of_pos hbeq : [x].find? (fun y => y.handle == h) = some x)] at hgrant
      refine completes_of hgrant ⟨rfl, (congrArg CoreSt.sendWin (setCore_core_same ..)).trans ?_, rfl⟩
      have hfilter : [x].filter (fun y => y.handle != h) = [] := List.filter_cons_of_neg (by rw [bne, hbeq]; decide)
      show [x].filter (fun y => y.handle != h) ++ [x.join n k] = _
      rw [hfilter, SendEntry.join, if_pos hk]
      rfl
  · intro b n c k hm hb hreqs hfreed hbatch g hg
    obtain ⟨hbox, hgen⟩ := mkHandle_names { b.owner with slot := b.owner.slot % 16 } b.gen e.m hm
    refine completes_of (congrArg Host.Outcome.next (creditReturn_one hb hreqs hfreed hbatch hg)) ⟨Mailboxes.setMbox_mbox .., rfl, _, rfl, hbox, hgen⟩
  · intro b j hb hpc hheld hhandler hslot _ hfree id
    have hwants : b.wants = true := by
      unfold Mbox.wants
      rw [hhandler, bne_iff_ne.mpr hpc, bne_iff_ne.mpr hheld, decide_eq_true hslot]
      rfl
    have hstart : exec .handlerStart s = .next (s.handlerStart e.node e.n e.m) := rfl
    unfold State.handlerStart at hstart
    rw [hb] at hstart
    dsimp only at hstart
    rw [if_neg (by rw [hfree]; simp)] at hstart
    unfold State.handlerNow at hstart
    rw [if_pos hwants, hfree] at hstart
    have hnew : ∀ P : Ctx → Prop, P ((s.ctx id).born b.hpc (BitVec.ofNat 64 e.m) (mkHandle b.owner b.gen e.m) (s.ctx b.owner).asid (s.ctx b.owner).ptroot 0 0 0 false) →
        P (((s.setCtx id ((s.ctx id).born b.hpc (BitVec.ofNat 64 e.m) (mkHandle b.owner b.gen e.m) (s.ctx b.owner).asid (s.ctx b.owner).ptroot 0 0 0 false)).setMbox
          e.node e.n e.m { b with handler := some (j, (s.ctx id).gen) }).ctx id) := by
      intro P hP
      exact (congrArg P (setCtx_ctx_same s id _)).mpr hP
    refine completes_of hstart ⟨hnew (fun c => c.st = .ready) rfl, hnew (fun c => c.pc = b.hpc) rfl, hnew (fun c => c.xr 1 = BitVec.ofNat 64 e.m) rfl,
      hnew (fun c => c.xr 2 = mkHandle b.owner b.gen e.m) rfl, hnew (fun c => c.asid = _) rfl, hnew (fun c => c.ptroot = _) rfl, rfl,
      Mailboxes.setMbox_mbox ..⟩

end Sys2Proof.MailboxSteps
end

section
/-! Steps of a lock's home: requests, time-outs, hand-overs, the hold limit and the deadlock probe (R155, R161 to R165, R170 to R176). -/

namespace Sys2Proof.LockSteps
set_option Elab.async false
open Sys2Proof Sys2Proof.Machine Sys2Proof.Safety Sys2Proof.CoreEvents Sys2Proof.LineLocks

variable {s : State}

/-! ## Replies -/

theorem lockReplyTo_reply (s : State) (id : CtxId) (line st : Nat) : ((s.lockReplyTo id line st).ctx id).lockReply = some (line, st) :=
  congrArg Ctx.lockReply (setCtx_ctx_same ..)

/-- Every waiter that is told a status has it. -/
theorem replies_reach (ws : List Waiter) (line st : Nat) (s : State) (id : CtxId)
    (h : (∃ w ∈ ws, w.id = id) ∨ (s.ctx id).lockReply = some (line, st)) :
    ((ws.foldl (fun s w => s.lockReplyTo w.id line st) s).ctx id).lockReply = some (line, st) := by
  induction ws generalizing s with
  | nil => exact h.elim (fun ⟨w, hw, _⟩ => absurd hw List.not_mem_nil) (fun h => h)
  | cons a r ih =>
    refine ih _ ?_
    by_cases ha : id = a.id
    · exact .inr (ha ▸ lockReplyTo_reply ..)
    · refine h.imp (fun ⟨w, hw, he⟩ => ⟨w, ?_, he⟩) (fun h => (congrArg Ctx.lockReply (setCtx_ctx_other _ _ _ _ ha)).trans h)
      exact (List.mem_cons.mp hw).resolve_left (fun hwa => ha (he ▸ hwa ▸ rfl))

/-! ## Copies of the line at its old holder -/

/-- A core's line leaves its L1, and no other. -/
theorem l1drop_l1 (s : State) (n k : Nat) (a : BitVec 16) (v : Nat) (b : Bool) :
    ((s.l1drop n k a v b).core n k).l1 = (s.core n k).l1.filter (fun x => !x.at a v) := by
  unfold State.l1drop
  dsimp only
  split
  next hnone =>
    refine (List.filter_eq_self.mpr fun x hx => ?_).symm
    rw [Bool.eq_false_iff.mpr (List.find?_eq_none.mp hnone x hx)]
    rfl
  next l hl =>
    have hat : l.asid = a ∧ l.vline = v := by
      have := List.find?_some hl
      unfold L1Line.at at this
      rwa [Bool.and_eq_true, beq_iff_eq, beq_iff_eq] at this
    have hlose : ((s.setCore n k ((s.core n k).lose s.clock b l)).core n k).l1 = (s.core n k).l1.filter (fun x => !x.at a v) := by
      rw [setCore_core_same, ← hat.1, ← hat.2]
      rfl
    split
    · unfold State.mapLine
      dsimp only
      split <;> exact hlose
    · exact hlose

/-- What is left after several lines have left was there, and is none of them. -/
theorem l1drops_left (ls : List L1Line) (s : State) (n k : Nat) (b : Bool) :
    ∀ x ∈ ((ls.foldl (fun s l => s.l1drop n k l.asid l.vline b) s).core n k).l1, x ∈ (s.core n k).l1 ∧ ∀ l ∈ ls, x.at l.asid l.vline = false := by
  induction ls generalizing s with
  | nil => exact fun x hx => ⟨hx, fun l hl => absurd hl List.not_mem_nil⟩
  | cons a r ih =>
    intro x hx
    obtain ⟨hin, hr⟩ := ih _ x hx
    rw [l1drop_l1] at hin
    obtain ⟨hin, ha⟩ := List.mem_filter.mp hin
    refine ⟨hin, fun l hl => ?_⟩
    rcases List.mem_cons.mp hl with rfl | hl
    · rwa [Bool.not_eq_true'] at ha
    · exact hr l hl

/-- No registered copy of a line stays at a core that gives it up. -/
theorem dropCore_untracked (s : State) (n k pl : Nat) (b : Bool) : ∀ x ∈ ((s.dropCore n k pl b).core n k).l1, x.pline = pl → x.st = .untracked := by
  intro x hx hpl
  obtain ⟨hin, hout⟩ := l1drops_left _ s n k b x hx
  by_contra hst
  have htr : (x.pline == pl && x.tracked) = true := by
    rw [hpl, beq_self_eq_true]
    exact bne_iff_ne.mpr hst
  have hat := hout x (List.mem_filter.mpr ⟨hin, htr⟩)
  unfold L1Line.at at hat
  rw [beq_self_eq_true, beq_self_eq_true] at hat
  cases hat

/-! ## The hand-over -/

theorem giveLock_lock (s : State) (line : Nat) (id : CtxId) (sc : Nat) (l : Lock) (f : Bool) :
    (s.giveLock line id sc l f).lock line = { l with
      holder := some id, broken := false, rel := none, limit := (s.core id.node id.core).hold.toNat, scope := if f then sc else l.scope,
      owner := if f then id else l.owner } := by
  exact setLock_lock (l := { l with
    holder := some id, broken := false, rel := none, limit := (s.core id.node id.core).hold.toNat, scope := if f then sc else l.scope,
    owner := if f then id else l.owner }) s line rfl

theorem tfind_lost_none {line : Nat} (hl : lineOf line = line) (h : s.isLost line = false) : tfind s.lost line = none := by
  unfold State.isLost at h
  rw [hl] at h
  exact Option.not_isSome_iff_eq_none.mp (Bool.eq_false_iff.mp h)

/-- A lock that has been given up goes to the first waiter of its queue, present. -/
theorem handOff_first {line : Nat} {w : Waiter} {r : List Waiter} {f : CtxId × Option (BitVec 12)} (hl : lineOf line = line) (hlost : s.isLost line = false)
    (hw : (s.lock line).waiters = w :: r) (hpr : w.absent = false) (hrel : (s.lock line).rel = some f) :
    s.handOff line = ((s.dropCore f.1.node f.1.core line true).giveLock line w.id (s.lock line).scope { s.lock line with waiters := r } false).lockReplyTo
      w.id line (if (s.lock line).broken then lkBroken else lkOk) := by
  have ho : offer (w :: r) [] [] = (some w, r ++ [], []) := by
    unfold offer
    rw [hpr]
    rfl
  unfold State.handOff
  dsimp only
  rw [tfind_lost_none hl hlost]
  dsimp only
  rw [hlost, if_neg (by exact Bool.false_ne_true), hw, ho, hrel, List.append_nil]
  rfl

/-- The waiters of a line that is lost are told so, and the lock is free. -/
theorem handOff_lost {line : Nat} {m : BitVec 64} (hl : lineOf line = line) (hm : tfind s.lost line = some m) (hbad : m ||| s.dirtyMask line ≠ BitVec.allOnes 64) :
    s.handOff line = ((s.lock line).waiters.foldl (fun s w => s.lockReplyTo w.id line lkLost) (s.setLost line (m ||| s.dirtyMask line))).setLock line
      { s.lock line with holder := none, waiters := [], rel := none } := by
  have hlost : (s.setLost line (m ||| s.dirtyMask line)).isLost line = true := by
    unfold State.setLost State.isLost
    rw [if_neg hbad, hl, tfind_tset_same]
    rfl
  unfold State.handOff
  dsimp only
  rw [hm]
  dsimp only
  rw [hlost, if_pos (by rfl)]

/-- What the hand-over to a present waiter leaves. -/
theorem handOff_first_facts {line : Nat} {w : Waiter} {r : List Waiter} {f : CtxId × Option (BitVec 12)} (hl : lineOf line = line)
    (hlost : s.isLost line = false) (hw : (s.lock line).waiters = w :: r) (hpr : w.absent = false) (hrel : (s.lock line).rel = some f) :
    ((s.handOff line).lock line).holder = some w.id ∧ ((s.handOff line).lock line).waiters = r ∧ ((s.handOff line).lock line).rel = none ∧
      (s.handOff line).mem = s.mem ∧ ((s.handOff line).ctx w.id).lockReply = some (line, if (s.lock line).broken then 3 else 0) ∧
      ∀ x ∈ ((s.handOff line).core f.1.node f.1.core).l1, x.pline = line → x.st = .untracked := by
  rw [handOff_first hl hlost hw hpr hrel]
  have hlock := giveLock_lock (s.dropCore f.1.node f.1.core line true) line w.id (s.lock line).scope { s.lock line with waiters := r } false
  have hmem := Canon.mem_dropCore s f.1.node f.1.core line true
  have hdrop := dropCore_untracked s f.1.node f.1.core line true
  exact ⟨congrArg Lock.holder hlock, congrArg Lock.waiters hlock, congrArg Lock.rel hlock, hmem, lockReplyTo_reply .., hdrop⟩

/-- A release that does not wait for stores is handed over as it arrives. -/
theorem releaseArrived_now {line : Nat} {f : CtxId × Option (BitVec 12)} (hrel : (s.lock line).rel = some f) (hnow : s.handLater line f = false) :
    s.releaseArrived line = s.handOff line := by
  unfold State.releaseArrived
  rw [hrel]
  exact if_neg (by rw [hnow]; exact Bool.false_ne_true)

/-- A lock that nobody waits for is free. -/
theorem handOff_alone (line : Nat) (hw : (s.lock line).waiters = []) :
    ((s.handOff line).lock line).holder = none ∧ ((s.lock line).broken = true → ((s.handOff line).lock line).broken = true ∧ ((s.handOff line).lock line).rel = none) ∧
      (s.handOff line).mem = s.mem ∧ (s.handOff line).ctxs = s.ctxs := by
  have hset : ∀ v : State, v.mem = s.mem → v.ctxs = s.ctxs →
      let t := v.setLock line { s.lock line with holder := none, waiters := [], rel := none }
      (t.lock line).holder = none ∧ ((s.lock line).broken = true → (t.lock line).broken = true ∧ (t.lock line).rel = none) ∧ t.mem = s.mem ∧ t.ctxs = s.ctxs := by
    intro v hm hc
    refine ⟨setLock_holder .., fun hb => ?_, hm, hc⟩
    have : (v.setLock line { s.lock line with holder := none, waiters := [], rel := none }).lock line =
        { s.lock line with holder := none, waiters := [], rel := none } := by
      unfold State.setLock State.lock
      rw [if_neg (fun h => absurd (hb.symm.trans h.2.2) (by decide))]
      exact tget_tset_same ..
    rw [this]
    exact ⟨hb, rfl⟩
  unfold State.handOff
  extract_lets l v told given
  have hv : v.mem = s.mem ∧ v.ctxs = s.ctxs := by
    unfold v
    split <;> exact ⟨rfl, rfl⟩
  have htold : told = v := by
    unfold told
    rw [show l.waiters = [] from hw]
    rfl
  have hnobody : offer l.waiters [] [] = (none, [], []) := by
    rw [show l.waiters = [] from hw]
    rfl
  rw [hnobody, htold]
  split
  · exact hset v hv.1 hv.2
  · exact hset v hv.1 hv.2

/-- A lock that the hold limit breaks. -/
theorem unhold_broken (s : State) (id : CtxId) (line : Nat) (gen : Option (BitVec 12)) :
    (s.unhold id line true gen).lock line = { s.lock line with holder := none, broken := true, rel := some (id, gen) } := by
  unfold State.unhold State.setLock State.lock
  dsimp only
  rw [if_neg (fun h => Bool.noConfusion h.2.2)]
  exact tget_tset_same ..

/-! ## Requests -/

theorem lockArrival_sent {id : CtxId} {r : LockReq} (h : s.lockSent id = some r) : s.lockArrival id = s.lockAccept id r (decide (r.t < lkTryMark)) := by
  unfold State.lockArrival
  rw [h]

/-- A context whose request is under way has no answer yet. -/
theorem lockSent_waits {id : CtxId} (h : (s.waitsFor id).isSome = true) : s.lockSent id = none := by
  unfold State.lockSent
  exact if_pos (by rw [h, Bool.or_true])

theorem arrive_keeps (s : State) (id : CtxId) (pa : Nat) :
    (s.arrive id pa).locks = s.locks ∧ ((s.arrive id pa).ctx id).lockReply = (s.ctx id).lockReply ∧ (s.arrive id pa).mem = s.mem := by
  have hset : ∀ t : Try, (s.setTry (ownReq id) t).locks = s.locks ∧ ((s.setTry (ownReq id) t).ctx id).lockReply = (s.ctx id).lockReply ∧
      (s.setTry (ownReq id) t).mem = s.mem :=
    fun t => ⟨rfl, congrArg Ctx.lockReply (setCtx_ctx_same ..) |>.trans rfl, rfl⟩
  unfold State.arrive State.arriveAt
  dsimp only
  split
  · split
    · exact ⟨rfl, rfl, rfl⟩
    · exact hset _
  · exact hset _

section
variable {id : CtxId} {r : LockReq} {wait : Bool}

theorem accept_cut (hcut : s.cutOff id.node (paNode r.line) = true) : s.lockAccept id r wait = s.lockReplyTo id r.line lkLost := by
  unfold State.lockAccept
  exact if_pos hcut

theorem accept_held (hcut : s.cutOff id.node (paNode r.line) = false) (hheld : s.lockHeld id r.line = true) : s.lockAccept id r wait = s.arrive id r.line := by
  unfold State.lockAccept
  dsimp only
  rw [hcut, if_neg Bool.false_ne_true, if_pos hheld]

/-- A request for a line without a lock, where the table has no entry left, or the line is lost. -/
theorem accept_free (hcut : s.cutOff id.node (paNode r.line) = false) (hheld : s.lockHeld id r.line = false) (hnone : tfind s.locks r.line = none) :
    (s.entryRoom r.line = false → s.lockAccept id r wait = s) ∧
      (s.entryRoom r.line = true → s.isLost r.line = true → s.lockAccept id r wait = s.lockReplyTo id r.line lkLost) := by
  have hl : s.lock r.line = Lock.none := by
    unfold State.lock tget
    rw [hnone]
    rfl
  unfold State.lockAccept
  dsimp only
  rw [hcut, if_neg Bool.false_ne_true, hheld, if_neg Bool.false_ne_true, hl]
  refine ⟨fun hroom => ?_, fun hroom hlost => ?_⟩
  · rw [hroom]
    rfl
  · rw [hroom, hlost]
    rfl

end

/-! ## Waiting contexts -/

theorem waitsFor_first {id : CtxId} {line : Nat} {l : Lock} {w : Waiter} {r : Tab Nat Lock} (hlocks : s.locks = (line, l) :: r) (hw : l.waiters = [w])
    (hid : w.id = id) : s.waitsFor id = some (line, w) := by
  have hwaits : l.waits id = true := by
    unfold Lock.waits
    rw [hw, ← hid, List.any_cons, beq_self_eq_true]
    rfl
  unfold State.waitsFor
  rw [hlocks, List.find?_cons_of_pos (by exact hwaits)]
  dsimp only
  rw [hw, List.find?_cons_of_pos (by exact beq_iff_eq.mpr hid)]
  rfl

theorem waitsFor_second {id : CtxId} {l1 l2 : Nat} {L1 L2 : Lock} {w1 w2 : Waiter} (hlocks : s.locks = [(l1, L1), (l2, L2)]) (hw1 : L1.waiters = [w1])
    (hw2 : L2.waiters = [w2]) (hne : w1.id ≠ id) (hid : w2.id = id) : s.waitsFor id = some (l2, w2) := by
  have hnot : L1.waits id = false := by
    unfold Lock.waits
    rw [hw1, List.any_cons, beq_eq_false_iff_ne.mpr hne]
    rfl
  have hwaits : L2.waits id = true := by
    unfold Lock.waits
    rw [hw2, ← hid, List.any_cons, beq_self_eq_true]
    rfl
  unfold State.waitsFor
  rw [hlocks, List.find?_cons_of_neg (by rw [hnot]; exact Bool.false_ne_true), List.find?_cons_of_pos (by exact hwaits)]
  dsimp only
  rw [hw2, List.find?_cons_of_pos (by exact beq_iff_eq.mpr hid)]
  rfl

/-- The one waiter of a line leaves its queue, and the line's lock has none. -/
theorem setLock_emptied (s : State) (line : Nat) (l : Lock) (h : l.waiters = []) : ((s.setLock line l).lock line).waiters = [] := by
  unfold State.setLock State.lock
  dsimp only
  split
  · rw [tget_tdel_same]
    rfl
  · rw [tget_tset_same]
    exact h

theorem filter_self {w : Waiter} {id : CtxId} (h : w.id = id) : [w].filter (fun x => x.id != id) = [] :=
  List.filter_cons_of_neg (by rw [bne, beq_iff_eq.mpr h]; decide)

theorem lockTimeout_waiter {id : CtxId} {line : Nat} {l : Lock} {w : Waiter} (hlocks : s.locks = [(line, l)]) (hw : l.waiters = [w]) (hid : w.id = id)
    (ht : w.timeout ≠ 0) : s.lockTimeout id = (s.setLock line { l with waiters := [] }).lockReplyTo id line lkTimeout := by
  have hany : (l.waiters.any (fun w => w.id == id && w.timeout != 0)) = true := by
    rw [hw, List.any_cons, beq_iff_eq.mpr hid, bne_iff_ne.mpr ht]
    rfl
  unfold State.lockTimeout
  rw [lockSent_waits (by rw [waitsFor_first hlocks hw hid]; rfl), hlocks, List.find?_cons_of_pos (by exact hany)]
  dsimp only
  rw [hw, filter_self hid]

/-- Two contexts, each waiting for the lock that the other holds: the cycle that the probe of the first finds. -/
theorem probe_two {id : CtxId} {l1 l2 : Nat} {L1 L2 : Lock} {w1 w2 : Waiter} (hlocks : s.locks = [(l1, L1), (l2, L2)]) (hne : l1 ≠ l2)
    (hh1 : L1.holder = some w2.id) (hh2 : L2.holder = some w1.id) (hw1 : L1.waiters = [w1]) (hw2 : L2.waiters = [w2]) (hid : w1.id = id) (hother : w2.id ≠ id) :
    s.probe id id [] 8 = some [(l1, w1), (l2, w2)] := by
  have hlock1 : s.lock l1 = L1 := by
    unfold State.lock tget tfind
    rw [hlocks]
    dsimp only
    rw [if_pos rfl]
    rfl
  have hlock2 : s.lock l2 = L2 := by
    unfold State.lock tget
    rw [hlocks]
    unfold tfind
    rw [if_neg hne]
    unfold tfind
    rw [if_pos rfl]
    rfl
  unfold State.probe
  rw [waitsFor_first hlocks hw1 hid]
  dsimp only
  rw [hlock1, hh1]
  dsimp only
  rw [if_neg hother]
  unfold State.probe
  rw [waitsFor_second hlocks hw1 hw2 (fun h => hother (h.symm.trans hid)) rfl]
  dsimp only
  rw [hlock2, hh2]
  exact if_pos hid

theorem younger_later {a b : Nat × Waiter} (h : a.2.stamp.toNat < b.2.stamp.toNat) : younger a b = b := by
  unfold younger
  exact if_pos (List.Lex.rel h)

/-- Settles O52, a step at a time, by what the home does with the lock. -/
theorem eventsOfLockHomes : Obligations.EventsOfLockHomes := by
  intro s e id pl
  refine ⟨?_, ?_, ?_, ?_, ?_⟩
  · intro r hr line L reply
    have hacc : exec .lockRequestAccept s = .next (s.lockAccept id r (decide (r.t < lkTryMark))) := congrArg Host.Outcome.next (lockArrival_sent hr)
    refine ⟨?_, fun hcut => ?_, fun hcut hheld => ?_, fun hcut hheld => ⟨fun hnone => ⟨fun hroom hlost => ?_, fun hroom hlost => ?_, fun hroom => ?_⟩,
      fun h hh => ⟨fun hs => ?_, fun hs hd => ⟨fun ht hroom => ?_, fun ht hroom => ?_, fun ht => ?_⟩⟩⟩, fun h0 ht => ?_⟩
    · have hre : exec .lockRequestResend s = .next (s.enq .lockRequestAccept { node := e.node, core := e.core, slot := e.slot }) :=
        congrArg Host.Outcome.next (if_pos (by show (s.lockSent id).isSome = true; rw [hr]; rfl))
      exact completes_of hre ⟨rfl, rfl, rfl⟩
    · rw [accept_cut hcut] at hacc
      exact completes_of hacc ⟨rfl, lockReplyTo_reply .., rfl⟩
    · rw [accept_held hcut hheld] at hacc
      exact completes_of hacc (arrive_keeps s id r.line)
    · rw [accept_grants hcut hheld hnone hroom hlost] at hacc
      have hlock := giveLock_lock s line id r.scope Lock.none true
      exact completes_of hacc ⟨congrArg Lock.holder hlock, congrArg Lock.scope hlock, lockReplyTo_reply .., rfl⟩
    · rw [(accept_free hcut hheld hnone).2 hroom hlost] at hacc
      exact completes_of hacc ⟨rfl, lockReplyTo_reply ..⟩
    · rw [(accept_free hcut hheld hnone).1 hroom] at hacc
      exact completes_of hacc rfl
    · rw [accept_scope hcut hheld hh hs] at hacc
      exact completes_of hacc ⟨rfl, lockReplyTo_reply ..⟩
    · rw [accept_fits hcut hheld hh hs hd, decide_eq_true ht, if_neg (by decide), if_neg (by rw [hroom]; decide)] at hacc
      have hlock := enqueued_lock s id ⟨id, (s.ctx id).gen, false, false, s.cycle (paNode r.line), r.t⟩ hh
      exact completes_of hacc ⟨(congrArg Lock.holder hlock).trans hh, congrArg Ctx.arrived (setCtx_ctx_same ..), _, congrArg Lock.waiters hlock, rfl, rfl, rfl⟩
    · rw [accept_fits hcut hheld hh hs hd, decide_eq_true ht, if_neg (by decide), if_pos (by rw [hroom]; decide)] at hacc
      exact completes_of hacc rfl
    · rw [accept_fits hcut hheld hh hs hd, decide_eq_false (Nat.not_lt.mpr ht), if_pos (by decide)] at hacc
      exact completes_of hacc ⟨rfl, lockReplyTo_reply ..⟩
    · have hout : exec .lockTimeout s = .next (s.lockReplyTo id line lkTimeout) := by
        refine congrArg Host.Outcome.next ?_
        show s.lockTimeout id = _
        unfold State.lockTimeout
        rw [hr]
        exact if_neg (by rintro (h | h); exacts [h0 h, absurd ht (Nat.not_lt.mpr h)])
      exact completes_of hout ⟨lockReplyTo_reply .., rfl⟩
  · intro line l w hlocks hw hid ht
    exact completes_of (congrArg Host.Outcome.next (lockTimeout_waiter hlocks hw hid ht)) ⟨lockReplyTo_reply .., setLock_emptied _ _ _ rfl, rfl⟩
  · intro f hrel hnow
    have hrelease : exec .lockRelease s = .next (s.handOff pl) := congrArg Host.Outcome.next (releaseArrived_now hrel hnow)
    refine ⟨fun w l hw hpr hlost => completes_of hrelease (handOff_first_facts (lineOf_lineOf _) hlost hw hpr hrel), fun m hm hbad => completes_of hrelease ?_⟩
    rw [handOff_lost (lineOf_lineOf _) hm hbad]
    exact ⟨setLock_holder .., setLock_emptied _ _ _ rfl, (handed_foldl (fun (s : State) (w : Waiter) => s.lockReplyTo w.id pl lkLost)
      (fun s w => handed_lockReplyTo ..) _ (s.setLost pl (m ||| s.dirtyMask pl))).mem, fun w hw => replies_reach _ _ _ _ _ (.inl ⟨w, hw, rfl⟩)⟩
  · intro h hh hlim
    let v := (s.setCtx h { s.ctx h with holdBreaks := (s.ctx h).holdBreaks ++ [pl] }).unhold h pl true none
    have hbreak : exec .holdLimit s = .next (v.releaseArrived pl) := by
      refine congrArg Host.Outcome.next ?_
      show s.holdLimit pl = _
      unfold State.holdLimit
      dsimp only
      rw [hh]
      exact if_neg hlim
    have hv : v.lock pl = { s.lock pl with holder := none, broken := true, rel := some (h, none) } := unhold_broken ..
    have hrel : (v.lock pl).rel = some (h, none) := congrArg Lock.rel hv
    refine ⟨fun hw hnm => ?_, fun w l hw hpr hlost hnm => ?_⟩
    · have hnow : v.handLater pl (h, none) = false := by
        show (s.nmHolds pl || false) = false
        rw [hnm]
        rfl
      rw [releaseArrived_now hrel hnow] at hbreak
      obtain ⟨hfree, hbroken, hmem, hctxs⟩ := handOff_alone (s := v) pl ((congrArg Lock.waiters hv).trans hw)
      obtain ⟨hb, hr⟩ := hbroken (congrArg Lock.broken hv)
      refine completes_of hbreak ⟨hfree, hb, hr, ?_, hmem⟩
      have hctx : (v.handOff pl).ctx h = { s.ctx h with holdBreaks := (s.ctx h).holdBreaks ++ [pl] } := by
        unfold State.ctx
        rw [hctxs]
        exact setCtx_ctx_same ..
      rw [hctx]
      exact List.mem_append_right _ (List.mem_singleton.mpr rfl)
    · have hnow : v.handLater pl (h, none) = false := by
        show (s.nmHolds pl || false) = false
        rw [hnm]
        rfl
      rw [releaseArrived_now hrel hnow] at hbreak
      obtain ⟨hholder, hrest, -, hmem, hreply, -⟩ := handOff_first_facts (s := v) (lineOf_lineOf _) hlost ((congrArg Lock.waiters hv).trans hw) hpr hrel
      rw [show (v.lock pl).broken = true from congrArg Lock.broken hv] at hreply
      exact completes_of hbreak ⟨hholder, hrest, hreply, hmem⟩
  · intro l1 l2 L1 L2 w1 w2 hlocks hne hh1 hh2 hw1 hw2 hid hother hstamp
    have hlock2 : s.lock l2 = L2 := by
      unfold State.lock tget
      rw [hlocks]
      unfold tfind
      rw [if_neg hne]
      unfold tfind
      rw [if_pos rfl]
      rfl
    have hprobe : exec .deadlockProbe s = .next ((s.setLock l2 { L2 with waiters := [] }).lockReplyTo w2.id l2 lkDeadlock) := by
      refine congrArg Host.Outcome.next ?_
      show s.deadlockProbe id = _
      unfold State.deadlockProbe
      rw [probe_two hlocks hne hh1 hh2 hw1 hw2 hid hother]
      dsimp only [List.foldl]
      rw [younger_later hstamp]
      dsimp only
      rw [hlock2, hw2, filter_self rfl]
    refine completes_of hprobe ⟨lockReplyTo_reply .., setLock_emptied _ _ _ rfl, ?_, rfl⟩
    show (s.setLock l2 { L2 with waiters := [] }).lock l1 = L1
    unfold State.lock
    rw [setLock_locks_some s l2 (by rw [hh2]; rfl), tget_tset_other _ _ _ _ _ hne, hlocks]
    unfold tget tfind
    rw [if_pos rfl]
    rfl

end Sys2Proof.LockSteps
end

section
/-! Steps of a copy engine: commands start, move and stop, exchanges form and go through their rounds, records end (R206, R211, R215, R222, R224, R226, R227). -/

namespace Sys2Proof.EngineSteps
set_option Elab.async false
open Sys2Proof Sys2Proof.Machine Sys2Proof.Safety Sys2Proof.CoreEvents

variable {s : State} {node p : Nat}

/-! ## The engine of a polder -/

/-- The copy engine of a polder. -/
def engineOf (s : State) (node p : Nat) : Engine := (s.polder node p).engine

theorem engineOf_setEngine (s : State) (node p : Nat) (e : Engine) : engineOf (s.setEngine node p e) node p = e :=
  congrArg Polder.engine (setPolder_polder_same ..)

theorem engineOf_of_polders {s t : State} (h : t.polders = s.polders) (node p : Nat) : engineOf t node p = engineOf s node p := by
  unfold engineOf State.polder
  rw [h]

theorem polders_enqOnce (s : State) (i : Instr) (v : Ev) : (s.enqOnce i v).polders = s.polders ∧ (s.enqOnce i v).mem = s.mem := by
  unfold State.enqOnce
  split <;> exact ⟨rfl, rfl⟩

theorem polders_barFault (s : State) (node p la : Nat) : (s.barFault node p la).polders = s.polders := by
  unfold State.barFault
  dsimp only
  rw [Barriers.portSeen_eq]
  rfl

theorem mem_barFault (s : State) (node p la : Nat) :
    (s.barFault node p la).mem = memWrite s.mem (spadAddr node p (la + 4)) 4 (s.barWord node p la ||| 2) := by
  unfold State.barFault
  dsimp only
  rw [Barriers.portSeen_mem]
  rfl

theorem engineOf_freeCmd (s : State) (node p no : Nat) : engineOf (s.freeCmd node p no) node p = engineOf s node p := by
  refine (congrArg Polder.engine (setPolder_polder_same ..)).trans ?_
  rfl

theorem engineOf_stopCmd (s : State) (node p : Nat) (c : Cmd) (cause : Cause) (fva : Word) (respt : Nat) (array : Bool) :
    engineOf (s.stopCmd node p c cause fva respt array) node p = (engineOf s node p).fileRec ⟨cause.code, fva, respt, c, array⟩ := by
  unfold State.stopCmd
  dsimp only
  refine (congrArg Polder.engine (setPolder_polder_same ..)).trans (congrArg (fun e : Engine => e.fileRec ⟨cause.code, fva, respt, c, array⟩) ?_)
  refine (engineOf_freeCmd ..).trans ?_
  split <;> exact engineOf_of_polders (polders_barFault ..) node p

/-- What filing a record leaves as it was stays when commands stop. -/
theorem stopAll_keeps {α : Type} (f : Engine → α) (hf : ∀ e r, f (e.fileRec r) = f e) (l : List Cmd) (cause : Cause) (fva : Word) (s : State) :
    f (engineOf (s.stopAll node p l cause fva) node p) = f (engineOf s node p) := by
  unfold State.stopAll
  induction l generalizing s with
  | nil => rfl
  | cons c r ih => exact (ih _).trans ((congrArg f (engineOf_stopCmd ..)).trans (hf ..))

theorem fileRec_keeps (e : Engine) (r : FaultRec) : (e.fileRec r).exch = e.exch ∧ (e.fileRec r).exRun = e.exRun ∧ (e.fileRec r).sets = e.sets ∧
    (e.fileRec r).run = e.run := by
  unfold Engine.fileRec
  split <;> exact ⟨rfl, rfl, rfl, rfl⟩

/-! ## A command starts -/

/-- A command that has left its queue is running. -/
def started (s : State) (node p : Nat) (e : Engine) (c : Cmd) : State :=
  let t := (s.setEngine node p { e with run := e.run ++ [{ c with started := true }] }).enq .enginePiece { node := node, n := p, m := c.no }
  if e.run.length < 7 ∧ (!e.hiQ.isEmpty || !e.loQ.isEmpty) = true then t.enqOnce .engineCommandStart { node := node, n := p } else t

theorem started_engine (s : State) (node p : Nat) (e : Engine) (c : Cmd) :
    engineOf (started s node p e c) node p = { e with run := e.run ++ [{ c with started := true }] } ∧ (started s node p e c).mem = s.mem := by
  unfold started
  dsimp only
  split
  · exact ⟨(engineOf_of_polders (polders_enqOnce ..).1 ..).trans (engineOf_setEngine ..), (polders_enqOnce ..).2⟩
  · exact ⟨engineOf_setEngine .., rfl⟩

theorem engStart_stays (h : 8 ≤ (engineOf s node p).run.length ∨ (engineOf s node p).exRun.isSome = true ∨ (engineOf s node p).exchFirst = true) :
    s.engStart node p = s := by
  unfold State.engStart
  exact if_pos h

section
variable {c : Cmd} {l : List Cmd} (hrun : (engineOf s node p).run.length < 8) (hex : (engineOf s node p).exRun = none)
  (hfirst : (engineOf s node p).exchFirst = false)
include hrun hex hfirst

theorem engStart_free : ¬ (8 ≤ (engineOf s node p).run.length ∨ (engineOf s node p).exRun.isSome = true ∨ (engineOf s node p).exchFirst = true) := by
  rintro (h | h | h)
  · omega
  · rw [hex] at h
    cases h
  · rw [hfirst] at h
    cases h

theorem engStart_high (hq : (engineOf s node p).hiQ = c :: l) : s.engStart node p = started s node p { engineOf s node p with hiQ := l } c := by
  have hfree := engStart_free hrun hex hfirst
  unfold engineOf at hq hfree ⊢
  unfold State.engStart
  refine (if_neg hfree).trans ?_
  dsimp only
  rw [hq]
  rfl

theorem engStart_low (hhi : (engineOf s node p).hiQ = []) (hq : (engineOf s node p).loQ = c :: l) :
    s.engStart node p = started s node p { engineOf s node p with loQ := l } c := by
  have hfree := engStart_free hrun hex hfirst
  unfold engineOf at hhi hq hfree ⊢
  unfold State.engStart
  refine (if_neg hfree).trans ?_
  dsimp only
  rw [hhi, hq]
  rfl

end

/-! ## A command's unit -/

section
variable {c c' : Cmd} {no : Nat} {u : State}

theorem running_one (hrun : (engineOf s node p).run = [c]) (hno : c.no = no) : (s.polder node p).engine.running no = some c := by
  unfold Engine.running
  rw [show (s.polder node p).engine.run = [c] from hrun, List.find?_cons_of_pos (by exact beq_iff_eq.mpr hno)]

/-- The state of a unit that has been done, its retries forgotten. -/
def settled (u : State) (no : Nat) (c' : Cmd) : State := (u.onTime no).pinsDone no (u.touches c')

theorem engPiece_done {last : Bool} (hrun : (engineOf s node p).run = [c]) (hno : c.no = no) (h11 : c.cmd ≠ 11) (hu : s.engUnit c = .ok (u, c', last)) :
    s.engPiece node p no = if last then
        if c'.cmd = 11 then (settled u no c').engPut node p { c' with sub := 1 } else (settled u no c').engComplete node p c'
      else ((settled u no c').engPut node p c').enq .enginePiece { node := node, n := p, m := no } := by
  unfold State.engPiece
  rw [running_one hrun hno]
  dsimp only
  rw [if_neg (fun h => h11 h.1), hu]
  rfl

theorem map_one (h : c'.no = c.no) : [c].map (fun x => if x.no = c'.no then c' else x) = [c'] :=
  congrArg (fun x => [x]) (if_pos h.symm)

theorem late_settled (u : State) (no : Nat) (c' : Cmd) : no ∉ (settled u no c').late := fun h => by
  have := (List.mem_filter.mp h).2
  rw [bne_self_eq_false] at this
  cases this

theorem filter_no (h : c'.no = c.no) : [c].filter (fun x => x.no != c'.no) = [] := List.filter_cons_of_neg (by rw [h, bne_self_eq_false]; decide)

/-- A command's last unit takes it out of the run slots and frees its table entries. -/
theorem engComplete_leaves (u : State) (node p : Nat) (c' : Cmd) (hw : c'.hw = 0) :
    (engineOf (u.engComplete node p c') node p).run = (engineOf u node p).run.filter (fun x => x.no != c'.no) ∧ (u.engComplete node p c').mem = u.mem ∧
      ∀ x ∈ ((u.engComplete node p c').polder node p).sb ++ ((u.engComplete node p c').polder node p).rl, x.cmd ≠ c'.no := by
  refine ⟨?_, Canon.mem_engComplete .., ?_⟩
  · unfold State.engComplete
    dsimp only
    rw [if_neg (by rw [hw]; decide), if_neg (by rw [hw]; decide), engineOf_freeCmd]
    exact congrArg Engine.run (engineOf_setEngine ..)
  · unfold State.engComplete State.freeCmd
    dsimp only
    rw [setPolder_polder_same]
    intro x hx
    have : ∀ l : List RangeEnt, x ∈ l.filter (fun e => e.cmd != c'.no) → x.cmd ≠ c'.no := fun l h => bne_iff_ne.mp (List.mem_filter.mp h).2
    exact (List.mem_append.mp hx).elim (this _) (this _)

/-- A unit that faults: the command waits for what it has open, or stops into a record. -/
theorem engStop_faulted {x : TrapInfo} {v : State} (hrun : (engineOf s node p).run = [c]) (hno : c.no = no) (hf : unitFault s (s.engUnit c) = some (x, v)) :
    s.engStop node p no = if c.open_ ≠ 0 then s.enq .engineCommandStop { node := node, n := p, m := no }
      else ((v.noteFail x).engLeave node p no).stopCmd node p c x.cause x.place c.respt false := by
  unfold State.engStop
  rw [running_one hrun hno]
  dsimp only
  rw [hf]

theorem noteFail_none {x : TrapInfo} (v : State) (h : x.ff = none) : v.noteFail x = v := by
  unfold State.noteFail
  rw [h]

theorem fileRec_first (e : Engine) (r : FaultRec) (h : e.recs = []) : tfind (e.fileRec r).recs 0 = some r := by
  have hfind : (List.range 16).find? (fun k => (tfind e.recs k).isNone) = some 0 := by
    rw [h]
    rfl
  unfold Engine.fileRec
  rw [hfind]
  exact tfind_tset_same ..

theorem mem_stopCmd (w : State) (c : Cmd) (cause : Cause) (fva : Word) (respt : Nat) (array : Bool) (hw : c.hw = 0) :
    (w.stopCmd node p c cause fva respt array).mem = (w.barFault node p c.bar).mem := by
  unfold State.stopCmd
  dsimp only
  rw [if_neg (by rw [hw]; decide), setPolder_mem, Canon.mem_freeCmd]

theorem engUnit_ecpy (hw : c.hw = 0) (h0 : c.cmd = 0) : s.engUnit c = s.ecpyUnit c := by
  unfold State.engUnit
  rw [if_neg (fun h => h hw), h0] <;> rfl

/-- ECPY of an element inside A-space: the element's bytes go from its source to its place, and its barrier counts them. -/
theorem ecpyUnit_local {E : Nat} (hnode : c.id.node = node) (hpol : c.id.polder = p) (hs : fieldW c.g[0] 8 4 = 1) (hd : fieldW c.g[0] 12 4 = 1)
    (hE : E = 2 ^ fieldW c.g[0] 4 4) {src dst : Nat} (hsrc : src = (ecpyAt (c.dims.map (fun d => (d.1, d.2.1))) c.a c.pos).toNat)
    (hdst : dst = (ecpyAt (c.dims.map (fun d => (d.1, d.2.2))) c.b c.pos).toNat) (hlost : s.lostWordIn (spadAddr node p src) E = false)
    (hhold : s.arrayHolds c 1 (fieldN dst 0 29) E = false) :
    s.ecpyUnit c = .ok ((s.spadWrite node p dst E (memRead s.mem (spadAddr node p src) E) node p 0x7FF).barPiece node p c.bar E 2,
      { c with pos := c.pos + 1 }, decide (c.dims.foldl (fun n d => n * d.1) 1 ≤ c.pos + 1)) := by
  subst hnode hpol hE hsrc hdst
  unfold State.ecpyUnit State.engRead State.engWrite State.engPort
  dsimp only
  rw [hs, hd, if_neg (by decide), hlost, if_neg Bool.false_ne_true]
  show (State.keeping _ _ _ >>= _) = _
  rw [if_neg (by decide), hhold, if_neg Bool.false_ne_true]
  rfl

end

/-! ## Exchanges -/

theorem exchTimeout_unfilled (h : (engineOf s node p).heads.length ≠ 8) : (engineOf (s.exchTimeout node p) node p).exch = [] := by
  unfold State.exchTimeout
  dsimp only
  rw [if_neg (by exact h)]
  refine (stopAll_keeps Engine.exch (fun e r => (fileRec_keeps e r).1) ..).trans ?_
  exact congrArg Engine.exch (engineOf_setEngine ..)

section
variable {m : Engine} (hm : (engineOf s node p).match8 = m)
include hm

/-- Where no exchange can begin, those that are complete wait in their sets. -/
theorem exchForm_waits (h : m.sets = [] ∨ m.exRun.isSome = true ∨ m.exchFirst = false ∨ m.run ≠ []) :
    engineOf (s.exchForm node p) node p = m ∧ (s.exchForm node p).mem = s.mem := by
  have hset : engineOf (s.setEngine node p m) node p = m ∧ (s.setEngine node p m).mem = s.mem := ⟨engineOf_setEngine .., rfl⟩
  unfold engineOf at hm
  unfold State.exchForm
  dsimp only
  rw [hm]
  split
  · exact hset
  next l rest hsets =>
    split
    · exact hset
    next hnone =>
      rw [if_pos]
      · exact ⟨(engineOf_of_polders (polders_enqOnce ..).1 ..).trans hset.1, (polders_enqOnce ..).2⟩
      · rw [Bool.or_eq_true, Bool.not_eq_true', Bool.not_eq_true', List.isEmpty_eq_false_iff]
        refine ((h.resolve_left fun h => ?_).resolve_left hnone)
        rw [h] at hsets
        cases hsets

section
variable {l : List Cmd} {rest : List (List Cmd)} (hsets : m.sets = l :: rest) (hex : m.exRun = none) (hfirst : m.exchFirst = true) (hrun : m.run = [])
include hsets hex hfirst hrun

theorem exchForm_first : s.exchForm node p =
    if m.exchOk l then ((s.setEngine node p m).setEngine node p { m with sets := rest, exRun := some ⟨l, 0, [], []⟩ }).enq .exchangeRound { node := node, n := p }
    else ((((s.setEngine node p m).setEngine node p { m with sets := rest }).stopAll node p l .engineFault 0).enq .engineCommandStart
      { node := node, n := p }).enq .exchangeForm { node := node, n := p } := by
  unfold engineOf at hm
  unfold State.exchForm
  dsimp only
  rw [hm, hsets]
  dsimp only
  rw [if_neg (by rw [hex]; decide), if_neg (by rw [hfirst, hrun]; decide)]

theorem exchForm_refused (hok : m.exchOk l = false) :
    (engineOf (s.exchForm node p) node p).exRun = none ∧ (engineOf (s.exchForm node p) node p).sets = rest := by
  rw [exchForm_first hm hsets hex hfirst hrun, if_neg (by rw [hok]; exact Bool.false_ne_true)]
  refine ⟨(stopAll_keeps Engine.exRun (fun e r => (fileRec_keeps e r).2.1) l .engineFault 0 _).trans ?_,
    (stopAll_keeps Engine.sets (fun e r => (fileRec_keeps e r).2.2.1) l .engineFault 0 _).trans ?_⟩
  · exact (congrArg Engine.exRun (engineOf_setEngine ..)).trans hex
  · exact congrArg Engine.sets (engineOf_setEngine ..)

end
end

theorem freeCmds_keep (l : List Cmd) (s : State) : engineOf (l.foldl (fun s c => s.freeCmd node p c.no) s) node p = engineOf s node p ∧
    (l.foldl (fun s c => s.freeCmd node p c.no) s).mem = s.mem := by
  induction l generalizing s with
  | nil => exact ⟨rfl, rfl⟩
  | cons c r ih => exact ⟨(ih _).1.trans (engineOf_freeCmd ..), (ih _).2.trans (Canon.mem_freeCmd ..)⟩

/-- A round in which no entry moves anything. -/
theorem exchRound_idle {x : Exch} {c : Cmd} {l : List Cmd} (hx : (engineOf s node p).exRun = some x) (hc : x.cmds = c :: l)
    (hidle : ∀ d ∈ x.cmds, fieldN ((engineOf s node p).entry d x.round (d.id.core % 8)) 63 1 = 0) :
    s.exchRound node p = if c.rounds ≤ x.round + 1 then x.cmds.foldl (fun s c => s.freeCmd node p c.no) (s.exchOver node p)
      else (s.setEngine node p { engineOf s node p with exRun := some { x with round := x.round + 1 } }).enq .exchangeRound { node := node, n := p } := by
  have hmoves : x.cmds.filterMap (fun c => if fieldN ((s.polder node p).engine.entry c x.round (c.id.core % 8)) 63 1 = 1 then
      some (c, (s.polder node p).engine.entry c x.round (c.id.core % 8)) else none) = [] := by
    refine List.filterMap_eq_nil_iff.mpr fun d hd => if_neg ?_
    rw [show fieldN ((s.polder node p).engine.entry d x.round (d.id.core % 8)) 63 1 = 0 from hidle d hd]
    decide
  unfold engineOf at hx
  unfold State.exchRound
  dsimp only
  rw [hx]
  dsimp only
  rw [hmoves, List.foldlM_nil]
  dsimp only [pure, Except.pure]
  rw [hc]
  rfl

/-! ## Records -/

theorem freeRec_one (e : Engine) (k : Nat) (h : e.stopped = []) : e.freeRec k = { e with recs := tdel e.recs k } := by
  unfold Engine.freeRec
  dsimp only
  rw [h]

/-- A claim of table entries leaves the engine alone. -/
theorem claim_engine {q u : Polder} {c : Cmd} {l : List Claim} (h : q.claim c l = some u) : u.engine = q.engine := by
  unfold Polder.claim at h
  dsimp only at h
  split at h
  · cases h
  · cases h
    rfl

/-- A record's command is back in its queue, and the record gone. -/
def requeued (g : Engine) (no : Nat) (c : Cmd) : Engine :=
  if c.hi then { g with recs := tdel g.recs no, hiQ := insertCmd c g.hiQ } else { g with recs := tdel g.recs no, loQ := insertCmd c g.loQ }

theorem requeued_facts {g g' : Engine} {no : Nat} {c : Cmd} (h : g' = requeued g no c) : tfind g'.recs no = none ∧
    (if c.hi then g'.hiQ = insertCmd c g.hiQ ∧ g'.loQ = g.loQ else g'.loQ = insertCmd c g.loQ ∧ g'.hiQ = g.hiQ) := by
  unfold requeued at h
  subst h
  split <;> exact ⟨tfind_tdel_same .., rfl, rfl⟩

section
variable {no : Nat} {k : FaultRec} (hk : tfind (engineOf s node p).recs no = some k) (harray : k.array = false) (hstopped : (engineOf s node p).stopped = [])
include hk harray hstopped

/-- A record's command goes back to its queue. -/
theorem resumeAny_queues {u : Polder} (h3 : k.cmd.cmd ≠ 3) (h8 : k.cmd.cmd ≠ 8) (h10 : k.cmd.cmd ≠ 10)
    (hu : (s.polder node p).claim { k.cmd with started := false } ({ k.cmd with started := false } : Cmd).claims = some u) :
    s.resumeAny node p no = (s.setPolder node p { u with engine := requeued (engineOf s node p) no { k.cmd with started := false } }).enq
      .engineCommandStart { node := node, n := p } := by
  have he : u.engine.freeRec no = { engineOf s node p with recs := tdel (engineOf s node p).recs no } := by
    rw [claim_engine hu]
    exact freeRec_one _ _ hstopped
  unfold engineOf at hk
  unfold State.resumeAny State.resumeRec
  rw [hk]
  dsimp only
  rw [if_neg h8, if_neg h10, harray, if_neg Bool.false_ne_true]
  unfold State.engResume
  dsimp only
  rw [hu]
  dsimp only
  rw [he, if_neg h3, if_neg h3]
  rfl

theorem cancelCmd_drops (h8 : k.cmd.cmd ≠ 8) (h10 : k.cmd.cmd ≠ 10) (hhw : k.cmd.hw ≠ 1) :
    s.cancelCmd node p no = s.setEngine node p { engineOf s node p with recs := tdel (engineOf s node p).recs no } := by
  have he := freeRec_one (engineOf s node p) no hstopped
  unfold engineOf at hk he ⊢
  unfold State.cancelCmd State.cancelAny State.cancelRec
  rw [hk]
  dsimp only
  rw [if_neg hhw, if_pos h8, if_neg h10, harray, if_neg Bool.false_ne_true, he]

end

/-- Settles O53, a step at a time. -/
theorem eventsOfCopyEngines : Obligations.EventsOfCopyEngines := by
  intro s e q g after
  refine ⟨fun h => completes_of (congrArg Host.Outcome.next (engStart_stays h)) rfl, ?_, ?_, ?_, ?_, ?_⟩
  · intro c l hrun hex hfirst
    exact ⟨fun hq => completes_of (congrArg Host.Outcome.next (engStart_high hrun hex hfirst hq)) (started_engine ..),
      fun hhi hq => completes_of (congrArg Host.Outcome.next (engStart_low hrun hex hfirst hhi hq)) (started_engine ..)⟩
  · intro c hrun hno hhw h11
    refine ⟨?_, ?_, ?_, ?_⟩
    · intro u c' hu hsame hurun
      refine completes_of (congrArg Host.Outcome.next ((engPiece_done hrun hno h11 hu).trans (if_neg Bool.false_ne_true))) ⟨rfl, ?_, ?_⟩
      · refine (congrArg Engine.run (engineOf_setEngine ..)).trans ?_
        rw [show ((settled u e.m c').polder e.node e.n).engine.run = [c] from hurun]
        exact map_one hsame
      · rw [hno]
        exact late_settled u e.m c'
    · intro u c' hu hsame hcmd hhw' hurun
      obtain ⟨hleft, hmem, hfree⟩ := engComplete_leaves (settled u e.m c') e.node e.n c' hhw'
      refine completes_of (congrArg Host.Outcome.next ((engPiece_done hrun hno h11 hu).trans ((if_pos rfl).trans (if_neg (fun h => h11 (hcmd.symm.trans h))))))
        ⟨hmem, hleft.trans ?_, hsame ▸ hfree⟩
      rw [show (engineOf (settled u e.m c') e.node e.n).run = [c] from hurun]
      exact filter_no hsame
    · intro x v hf
      have hstop := engStop_faulted hrun hno hf
      refine ⟨fun hopen => completes_of (congrArg Host.Outcome.next (hstop.trans (if_pos hopen))) ⟨rfl, rfl⟩, fun hopen hff hrecs hv => ?_⟩
      rw [if_neg (fun h => h hopen), noteFail_none v hff] at hstop
      have hleave : engineOf (v.engLeave e.node e.n e.m) e.node e.n = { g with run := g.run.filter (fun c => c.no != e.m) } := by
        refine (engineOf_setEngine ..).trans ?_
        rw [hv]
      have heng := engineOf_stopCmd (v.engLeave e.node e.n e.m) e.node e.n c x.cause x.place c.respt false
      rw [hleave] at heng
      refine completes_of (congrArg Host.Outcome.next hstop) ⟨?_, ?_, ?_⟩
      · refine (congrArg Engine.run heng).trans (((fileRec_keeps ..).2.2.2).trans ?_)
        rw [show g.run = [c] from hrun, ← hno]
        exact filter_no rfl
      · refine (congrArg (fun e : Engine => tfind e.recs 0) heng).trans (fileRec_first _ _ hrecs)
      · rw [mem_stopCmd _ _ _ _ _ _ hhw, mem_barFault, mem_barFault]
        rfl
    · intro h0 hnode hpol hs hd E total src dst hlost hhold
      exact (engUnit_ecpy hhw h0).trans (ecpyUnit_local hnode hpol hs hd rfl rfl rfl hlost hhold)
  · intro m
    refine ⟨fun hne => ⟨if_pos hne, completes_of rfl (exchTimeout_unfilled hne)⟩, fun heq => ?_, fun h => completes_of rfl (exchForm_waits rfl h), ?_⟩
    · have hm : m = { g with exch := g.exch.filter (fun c => !g.heads.any (fun d => d.no == c.no)), sets := g.sets ++ [g.heads] } := if_neg (fun h => h heq)
      refine ⟨congrArg Engine.sets hm, fun c hc hin => ?_, completes_of (congrArg Host.Outcome.next (if_pos heq)) rfl⟩
      rw [hm] at hc
      have hout := (List.mem_filter.mp hc).2
      rw [List.any_eq_true.mpr ⟨c, hin, beq_self_eq_true c.no⟩] at hout
      cases hout
    · intro l rest hsets hex hfirst hrun
      refine ⟨fun hok => ?_, fun hok => completes_of rfl (exchForm_refused rfl hsets hex hfirst hrun hok)⟩
      refine completes_of (congrArg Host.Outcome.next ((exchForm_first rfl hsets hex hfirst hrun).trans (if_pos hok))) ⟨engineOf_setEngine .., rfl⟩
  · intro x c l hx hc hidle
    have hround := exchRound_idle hx hc hidle
    refine ⟨fun hlt => completes_of (congrArg Host.Outcome.next (hround.trans (if_neg (Nat.not_le.mpr hlt)))) ⟨congrArg Engine.exRun (engineOf_setEngine ..), rfl⟩,
      fun hle => completes_of (congrArg Host.Outcome.next (hround.trans (if_pos hle))) ?_⟩
    obtain ⟨heng, hmem⟩ := freeCmds_keep (node := e.node) (p := e.n) x.cmds (s.exchOver e.node e.n)
    exact ⟨(congrArg Engine.exRun heng).trans (congrArg Engine.exRun (engineOf_setEngine ..)), hmem.trans (Canon.mem_exchOver ..)⟩
  · intro k u hk harray h3 h8 h10 hstopped
    refine ⟨?_, fun hhw => ?_⟩
    · intro c hu
      refine completes_of (congrArg Host.Outcome.next (resumeAny_queues hk harray hstopped h3 h8 h10 hu)) ?_
      have heng : after ((s.setPolder e.node e.n { u with engine := requeued g e.m c }).enq .engineCommandStart { node := e.node, n := e.n }) =
          requeued g e.m c := congrArg Polder.engine (setPolder_polder_same ..)
      obtain ⟨hgone, hqueue⟩ := requeued_facts heng
      exact ⟨hgone, rfl, hqueue⟩
    · refine completes_of (congrArg Host.Outcome.next (cancelCmd_drops hk harray hstopped h8 h10 hhw)) ?_
      have heng := engineOf_setEngine s e.node e.n { g with recs := tdel g.recs e.m }
      exact ⟨(congrArg (fun e' : Engine => tfind e'.recs e.m) heng).trans (tfind_tdel_same ..), (congrArg Engine.hiQ heng).trans rfl, (congrArg Engine.loQ heng).trans rfl, rfl⟩

end Sys2Proof.EngineSteps
end

section
/-! Steps of collectives: communicators, channels, chunks that leave and land, and reductions (R347 to R349, R352, R353). -/

namespace Sys2Proof.CollectiveSteps
set_option Elab.async false
open Sys2Proof Sys2Proof.Machine Sys2Proof.Safety Sys2Proof.CoreEvents

variable {s : State}

/-! ## Barriers -/

theorem mem_barSet (s : State) (node p la : Nat) (c : Int) (w : Nat) : (s.barSet node p la c w).mem =
    memWrite (memWrite s.mem (spadAddr node p la) 4 (BitVec.ofInt 32 c).toNat) (spadAddr node p la + 4) 4 w := by
  unfold State.barSet
  dsimp only
  rw [Barriers.portSeen_mem]
  rfl

/-- What a barrier makes of the memory rests on the memory and its lost words alone. -/
theorem mem_barAdd_congr {s t : State} (hmem : t.mem = s.mem) (hlost : t.lostWords = s.lostWords) (node p la : Nat) (d : Int) (piece : Option Nat) :
    (t.barAdd node p la d piece).mem = (s.barAdd node p la d piece).mem := by
  have hl : t.barLost node p la = s.barLost node p la := by
    unfold State.barLost State.lostWordIn
    rw [hlost]
  have hw : t.barWord node p la = s.barWord node p la := by
    unfold State.barWord
    rw [hmem]
  have hc : t.barCount node p la = s.barCount node p la := by
    unfold State.barCount
    rw [hmem]
  unfold State.barAdd
  dsimp only
  rw [hl, hw, hc]
  split
  · rw [EngineSteps.mem_barFault, EngineSteps.mem_barFault, hmem, hw]
  · rw [mem_barSet, mem_barSet, hmem]

theorem mem_barPiece_congr {s t : State} (hmem : t.mem = s.mem) (hlost : t.lostWords = s.lostWords) (node p la n scope : Nat) :
    (t.barPiece node p la n scope).mem = (s.barPiece node p la n scope).mem := mem_barAdd_congr hmem hlost ..

theorem colls_barFault (s : State) (node p la : Nat) : (s.barFault node p la).colls = s.colls := by
  unfold State.barFault
  dsimp only
  rw [Barriers.portSeen_eq]
  rfl

theorem colls_barPiece (s : State) (node p la n scope : Nat) : (s.barPiece node p la n scope).colls = s.colls := by
  unfold State.barPiece State.barAdd
  dsimp only
  split
  · exact colls_barFault ..
  · unfold State.barSet
    dsimp only
    rw [Barriers.portSeen_eq]
    rfl

/-! ## Communicators -/

/-- A write of word 0 that its rules refuse sets CFGERR, and keeps the other fields. -/
theorem cfgerr_set (w : Word) : fieldW (BitVec.ofNat 64 (w.toNat - fieldW w 1 1 * 2 + 2)) 1 1 = 1 ∧
    fieldW (BitVec.ofNat 64 (w.toNat - fieldW w 1 1 * 2 + 2)) 2 62 = fieldW w 2 62 := by
  have h := w.isLt
  unfold fieldW fieldN
  rw [BitVec.toNat_ofNat]
  omega

theorem comm_setComm (s : State) (node c : Nat) (m : Comm) : (s.setComm node c m).comm node c = m := by
  unfold State.comm State.setComm
  rw [setPkg_pkg_same]
  exact tget_tset_same ..

/-- Word 0 of a communicator that is not enabled takes a value in which every field keeps its rule. -/
theorem commWrite_takes {node c w : Nat} (hen : (s.comm node c).en = false) (h2 : fieldN (w - fieldN w 1 1 * 2) 2 14 = 0)
    (h0 : fieldN (w - fieldN w 1 1 * 2) 0 1 = 0) (h56 : fieldN (w - fieldN w 1 1 * 2) 56 4 ≤ 10)
    (hnode : fieldN (w - fieldN w 1 1 * 2) 55 1 = 1 → fieldN (w - fieldN w 1 1 * 2) 40 12 ≤ 5)
    (hdie : fieldN (w - fieldN w 1 1 * 2) 55 1 = 0 → fieldN (w - fieldN w 1 1 * 2) 52 3 ≤ 5) :
    s.commWrite node c w = s.setComm node c { s.comm node c with w0 := BitVec.ofNat 64 (w - fieldN w 1 1 * 2) } := by
  unfold State.commWrite
  dsimp only
  rw [hen, h2, h0, decide_eq_false (Nat.not_lt.mpr h56)]
  have hk : fieldN (w - fieldN w 1 1 * 2) 55 1 < 2 := Nat.mod_lt _ (by decide)
  have hbad : ((fieldN (w - fieldN w 1 1 * 2) 55 1 == 1 && decide (5 < fieldN (w - fieldN w 1 1 * 2) 40 12)) = false) ∧
      ((fieldN (w - fieldN w 1 1 * 2) 55 1 == 0 && decide (5 < fieldN (w - fieldN w 1 1 * 2) 52 3)) = false) := by
    constructor
    · by_cases hkind : fieldN (w - fieldN w 1 1 * 2) 55 1 = 1
      · rw [decide_eq_false (Nat.not_lt.mpr (hnode hkind)), Bool.and_false]
      · rw [beq_eq_false_iff_ne.mpr hkind, Bool.false_and]
    · by_cases hkind : fieldN (w - fieldN w 1 1 * 2) 55 1 = 0
      · rw [decide_eq_false (Nat.not_lt.mpr (hdie hkind)), Bool.and_false]
      · rw [beq_eq_false_iff_ne.mpr hkind, Bool.false_and]
  rw [hbad.1, hbad.2]
  rfl

theorem commWrite_refused {node c w : Nat} (h56 : 10 < fieldN (w - fieldN w 1 1 * 2) 56 4) :
    s.commWrite node c w = s.setComm node c { s.comm node c with w0 := BitVec.ofNat 64 ((s.comm node c).w0.toNat - fieldW (s.comm node c).w0 1 1 * 2 + 2) } := by
  unfold State.commWrite
  dsimp only
  rw [if_pos (by rw [decide_eq_true h56]; simp only [Bool.or_true, Bool.true_or])]

/-! ## One collective with one member -/

theorem named_self (x : Coll) : x.named x.kind x.home x.comm x.k = true := by
  unfold Coll.named
  rw [beq_self_eq_true, beq_self_eq_true, beq_self_eq_true, beq_self_eq_true]
  rfl

/-- The only collective is replaced by what became of it. -/
theorem putColl_only {x y : Coll} {t : State} (ht : t.colls = [x]) (hy : x.named y.kind y.home y.comm y.k = true) : (t.putColl y).colls = [y] := by
  unfold State.putColl
  rw [ht]
  exact if_pos hy

theorem setMember_only {x : Coll} {c c' : CollMem} (hx : x.mems = [c]) (hr : c'.rank = c.rank) : x.setMember c' = { x with mems := [c'] } := by
  unfold Coll.setMember
  rw [hx, List.map_cons, if_pos hr.symm, List.map_nil]

/-- The only collective goes on with what became of its one member. -/
theorem putMember_only {x : Coll} {c c' : CollMem} {t : State} (ht : t.colls = [x]) (hx : x.mems = [c]) (hr : c'.rank = c.rank) :
    (t.putColl (x.setMember c')).colls = [{ x with mems := [c'] }] := by
  rw [setMember_only hx hr]
  exact putColl_only ht (named_self x)

theorem colls_stopCmd (s : State) (node p : Nat) (c : Cmd) (cause : Cause) (fva : Word) (respt : Nat) (array : Bool) :
    (s.stopCmd node p c cause fva respt array).colls = s.colls := by
  unfold State.stopCmd State.freeCmd
  dsimp only
  show (ite _ _ _ : State).colls = s.colls
  split <;> exact colls_barFault ..

theorem commDisable_stops {x : Coll} {c : CollMem} {node n : Nat} (hs : s.colls = [x]) (hcomm : x.comm = n) (hx : x.mems = [c])
    (hnode : c.cmd.id.node = node) (hst : c.st = 0) : (s.commDisable node n).colls = [{ x with mems := [{ c with st := 2 }] }] := by
  have hsel : [x].filter (fun x => x.comm == n && x.mems.any (fun m => m.cmd.id.node == node && m.st == 0)) = [x] := by
    refine List.filter_eq_self.mpr fun y hy => ?_
    rw [List.mem_singleton.mp hy, hx, hcomm, List.any_cons, hnode, hst, beq_self_eq_true, beq_self_eq_true]
    rfl
  have hfind : s.colls.find? (fun y => y.named x.kind x.home x.comm x.k) = some x := by
    rw [hs]
    exact List.find?_cons_of_pos (named_self x)
  unfold State.commDisable
  rw [hs, hsel]
  show (s.stopColl x).colls = _
  unfold State.stopColl
  rw [hx]
  show (s.stopMember x c .engineFault 0).colls = _
  unfold State.stopMember
  rw [if_neg (fun h => h hst), hfind]
  dsimp only
  rw [colls_stopCmd, show (some x).getD x = x from rfl, setMember_only hx (c' := { c with st := 2 }) rfl]
  exact putColl_only hs (named_self x)

/-! ## Channels and chunks -/

section
variable {x : Coll} {c : CollMem} {node d : Nat} (hcolls : s.colls = [x]) (hx : x.mems = [c]) (hclones : s.clones = [])
include hcolls hx hclones

omit hx in
/-- A die whose one communicator has no room on its channels has nothing to send. -/
theorem chunkDepart_full (hfull : x.comm ∈ (s.die node d).chanFull) : s.chunkDepart node d = s := by
  have hlist : s.readyList node d = [] := by
    unfold State.readyList
    rw [hcolls, hclones]
    refine List.filter_eq_nil_iff.mpr fun r hr => ?_
    simp only [List.flatMap_cons, List.flatMap_nil, List.filter_nil, List.map_nil, List.append_nil, List.mem_map] at hr
    obtain ⟨m, -, rfl⟩ := hr
    unfold State.chanOpen
    rw [List.contains_iff_mem.mpr (show (Ready.chunk x m).rank.2 ∈ (s.die node d).chanFull from hfull)]
    decide
  unfold State.chunkDepart
  rw [hlist]
  rfl

theorem readyList_one (hroom : x.comm ∉ (s.die node d).chanFull) (hnode : c.cmd.id.node = node) (hdie : c.cmd.id.die = d) (hready : c.ready x.size = true) :
    s.readyList node d = [.chunk x c] := by
  unfold State.readyList
  rw [hcolls, hclones]
  have hsel : x.mems.filter (fun m => m.cmd.id.node == node && m.cmd.id.die == d && m.ready x.size) = [c] := by
    rw [hx]
    refine List.filter_eq_self.mpr fun y hy => ?_
    rw [List.mem_singleton.mp hy, hnode, hdie, hready, beq_self_eq_true, beq_self_eq_true]
    rfl
  rw [List.flatMap_cons, hsel]
  refine List.filter_eq_self.mpr fun y hy => ?_
  rw [List.mem_singleton.mp hy]
  unfold State.chanOpen
  rw [Bool.not_eq_true', Bool.eq_false_iff]
  exact fun h => hroom (List.contains_iff_mem.mp h)

theorem chunkDepart_one (hroom : x.comm ∉ (s.die node d).chanFull) (hnode : c.cmd.id.node = node) (hdie : c.cmd.id.die = d) (hready : c.ready x.size = true)
    (hfence : s.collFenced x = false) :
    s.chunkDepart node d = (s.setDie node d { s.die node d with lastComm := x.comm }).sendChunk x c := by
  unfold State.chunkDepart
  rw [readyList_one hcolls hx hclones hroom hnode hdie hready]
  exact if_neg (by show ¬ s.collFenced x = true; rw [hfence]; exact Bool.false_ne_true)

end

/-- A chunk that has been read leaves: the member has sent one more, and its elements are in the fabric. -/
theorem sendChunk_sends {t u : State} {x : Coll} {c : CollMem} {d : Nat} (hx : x.mems = [c]) (hopen : c.landed < c.dstBytes x.size)
    (hread : t.engRead c.cmd 0 ((c.cmd.g[1] + BitVec.ofNat 64 (c.sent * c.chunk)).toNat) (min c.chunk (c.srcBytes x.size - c.sent * c.chunk)) = .ok (u, d))
    (hu : u.colls = [x]) :
    (t.sendChunk x c).mem = u.mem ∧ (t.sendChunk x c).colls = [{ x with mems := [{ c with
      sent := c.sent + 1, data := c.data ++ elems d (8 * elBytes c.ety) (min c.chunk (c.srcBytes x.size - c.sent * c.chunk) / elBytes c.ety) }] }] := by
  unfold State.sendChunk
  dsimp only
  rw [hread]
  dsimp only
  rw [if_neg]
  · refine ⟨rfl, ?_⟩
    exact putMember_only hu hx rfl
  · intro h
    have hall := of_decide_eq_true ((Bool.and_eq_true_iff.mp h).2)
    exact absurd hall (Nat.not_le.mpr hopen)

/-! ## Reduction and landing -/

theorem collOf_only {x : Coll} {e : Ev} (hcolls : s.colls = [x]) (hn : x.named e.flag.toNat e.pa e.n e.m = true) : s.collOf e = some x := by
  unfold State.collOf
  rw [hcolls]
  exact List.find?_cons_of_pos hn

theorem enqs_keep {α : Type} (l : List α) (i : Instr) (f : α → Ev) (t : State) :
    (l.foldl (fun s a => s.enq i (f a)) t).colls = t.colls ∧ (l.foldl (fun s a => s.enq i (f a)) t).mem = t.mem := by
  induction l generalizing t with
  | nil => exact ⟨rfl, rfl⟩
  | cons a r ih => exact ih _

/-- A collective whose members are all in, and issued alike, is reduced. -/
theorem collReduce_full {x : Coll} {c : CollMem} {l : List CollMem} {e : Ev} (hcolls : s.colls = [x]) (hn : x.named e.flag.toNat e.pa e.n e.m = true)
    (hx : x.mems = c :: l) (hsize : x.mems.length = x.size) (hred : x.reduced = false) (hfence : s.collFenced x = false) (hsame : ∀ d ∈ l, d.digest = c.digest) :
    (s.collReduce e).colls = [{ x with reduced := true }] ∧ (s.collReduce e).mem = s.mem := by
  have hdigest : x.mems.any (fun m => m.digest != (x.mems.headD default).digest) = false := by
    rw [hx]
    refine List.any_eq_false.mpr fun m hm => ?_
    have : m.digest = c.digest := (List.mem_cons.mp hm).elim (fun h => by rw [h]) (hsame m)
    rw [this, List.headD_cons, bne_self_eq_false]
    exact Bool.false_ne_true
  unfold State.collReduce
  rw [collOf_only hcolls hn]
  dsimp only
  rw [if_neg (by rintro (h | h); exacts [absurd h (by omega), absurd h (by rw [hred]; exact Bool.false_ne_true)]), hfence, hdigest,
    if_neg (by exact Bool.false_ne_true)]
  obtain ⟨hc, hm⟩ := enqs_keep x.mems .collectiveLanding (fun m : CollMem => { x.ev with core := m.rank }) (s.putColl { x with reduced := true })
  exact ⟨hc.trans (putColl_only hcolls (named_self x)), hm⟩

/-- No collective precedes the only one. -/
theorem earlierOpen_only {x : Coll} {m : CollMem} (hcolls : s.colls = [x]) : s.earlierOpen x m = false := by
  unfold State.earlierOpen State.mine
  rw [hcolls]
  refine List.any_eq_false.mpr fun e he => ?_
  obtain ⟨y, hy, hk⟩ := List.mem_filterMap.mp he
  rw [List.mem_singleton.mp hy] at hk
  split at hk
  · obtain ⟨m', -, rfl⟩ := Option.map_eq_some_iff.mp hk
    rw [decide_eq_false (Nat.lt_irrefl x.k)]
    exact Bool.false_ne_true
  · cases hk

/-- A chunk whose elements have all come is written to the member's shard, and its barrier counts it once. -/
theorem landChunk_lands {u : State} {x : Coll} {c : CollMem} {ls ld : Layout} {ex : Exchange} {f : Nat → Nat} {z n : Nat} (hx : x.mems = [c])
    (hz : z = elBytes c.ety) (hn : n = min c.chunk (c.dstBytes x.size - c.landed))
    (hels : ∀ j, j < n / z → x.element c ls ld ex (c.landed / z + j) = some (f j)) (hmore : c.landed + n < c.dstBytes x.size) (hu : u.colls = [x])
    (hw : s.engWrite c.cmd 0 ((c.cmd.g[2] + BitVec.ofNat 64 c.landed).toNat) n (packEls (8 * z) ((List.range (n / z)).map f)) = .ok u)
    (hcounted : c.counted ≤ c.landed) (hne : n ≠ 0) :
    (s.landChunk x c ls ld ex).colls = [{ x with mems := [{ c with landed := c.landed + n, counted := c.landed + n }] }] ∧
      (s.landChunk x c ls ld ex).mem = (u.barPiece c.cmd.id.node c.cmd.id.polder c.cmd.bar n (if x.kind = 1 then 4 else 6)).mem := by
  have hmap : (List.range (n / z)).map (fun j => x.element c ls ld ex (c.landed / z + j)) = (List.range (n / z)).map (fun j => some (f j)) :=
    List.map_congr_left fun j hj => hels j (List.mem_range.mp hj)
  have hall : ((List.range (n / z)).map (fun j => some (f j))).any (fun v => v.isNone) = false := by
    refine List.any_eq_false.mpr fun v hv => ?_
    obtain ⟨j, -, rfl⟩ := List.mem_map.mp hv
    exact Bool.false_ne_true
  have hvals : ((List.range (n / z)).map (fun j => some (f j))).map (fun v => v.getD 0) = (List.range (n / z)).map f := by
    rw [List.map_map]
    rfl
  have hfresh : c.landed + n - max c.landed (min c.counted (c.landed + n)) = n := by omega
  unfold State.landChunk
  dsimp only
  rw [← hz, ← hn, hmap, hall, if_neg Bool.false_ne_true, hvals, hw]
  dsimp only
  rw [hfresh, if_neg hne, if_pos hmore, max_eq_right (by omega : c.counted ≤ c.landed + n)]
  refine ⟨?_, ?_⟩
  · exact putMember_only ((colls_barPiece ..).trans hu) hx rfl
  · have hkeep : ∀ (w : State) (y : Coll) (v : Ev), ((w.putColl y).enq .collectiveLanding v).mem = w.mem := fun _ _ _ => rfl
    have hunit : ∀ (w : State) (no : Nat) (f : Nat → Nat → Bool), ((w.onTime no).pinsDone no f).mem = w.mem ∧
        ((w.onTime no).pinsDone no f).lostWords = w.lostWords := fun _ _ _ => ⟨rfl, rfl⟩
    exact (hkeep ..).trans (mem_barPiece_congr (hunit ..).1 (hunit ..).2 ..)

/-- Settles O56, a step at a time. -/
theorem eventsOfCollectives : Obligations.EventsOfCollectives := by
  intro s e v m
  refine ⟨?_, ?_, ?_, ?_, ?_, ?_, ?_⟩
  · intro hen
    exact ⟨fun h2 h0 h56 hnode hdie => completes_of (congrArg Host.Outcome.next (commWrite_takes hen h2 h0 h56 hnode hdie))
        ⟨congrArg Comm.w0 (comm_setComm ..), rfl⟩,
      fun h56 => completes_of (congrArg Host.Outcome.next (commWrite_refused h56)) (by
        obtain ⟨herr, hkeep⟩ := cfgerr_set m.w0
        have hw0 := congrArg Comm.w0 (comm_setComm s e.node e.n { m with w0 := BitVec.ofNat 64 (m.w0.toNat - fieldW m.w0 1 1 * 2 + 2) })
        exact ⟨(congrArg (fun w => fieldW w 1 1) hw0).trans herr, (congrArg (fun w => fieldW w 2 62) hw0).trans hkeep, rfl⟩)⟩
  · intro x c hs hcomm hx hnode hst
    exact completes_of rfl (commDisable_stops hs hcomm hx hnode hst)
  · intro hflag
    have he : exec .chunkDepart s = .next (s.chanSet e.node e.n e.m (e.w != 0)) := congrArg Host.Outcome.next (if_pos hflag)
    have hset : ((s.chanSet e.node e.n e.m (e.w != 0)).die e.node e.n).chanFull = if (e.w != 0) = true then
        e.m :: (s.die e.node e.n).chanFull.filter (fun x => x != e.m) else (s.die e.node e.n).chanFull.filter (fun x => x != e.m) :=
      congrArg DieSt.chanFull (setDie_die_same ..)
    refine completes_of he ⟨?_, fun c hc => ?_, rfl, rfl⟩
    · rw [hset]
      by_cases hw : e.w = 0
      · rw [if_neg (by rw [hw]; decide)]
        exact ⟨fun h => absurd rfl (bne_iff_ne.mp (List.mem_filter.mp h).2), fun h => absurd hw h⟩
      · rw [if_pos (bne_iff_ne.mpr hw)]
        exact ⟨fun _ => hw, fun _ => List.mem_cons_self⟩
    · rw [hset]
      have hin : c ∈ (s.die e.node e.n).chanFull.filter (fun x => x != e.m) ↔ c ∈ (s.die e.node e.n).chanFull :=
        List.mem_filter.trans (and_iff_left (bne_iff_ne.mpr hc))
      split
      · exact List.mem_cons.trans ((or_iff_right hc).trans hin)
      · exact hin
  · intro x c hflag hs hx hclones hfull
    have he : exec .chunkDepart s = .next (s.chunkDepart e.node e.n) :=
      congrArg Host.Outcome.next (if_neg (by show ¬ e.flag = true; rw [hflag]; exact Bool.false_ne_true))
    rw [chunkDepart_full hs hclones hfull] at he
    exact completes_of he rfl
  · intro x c u d hflag hroom hs hx hclones hnode hdie hready hopen hfence n hread hu
    have he : exec .chunkDepart s = .next (s.chunkDepart e.node e.n) :=
      congrArg Host.Outcome.next (if_neg (by show ¬ e.flag = true; rw [hflag]; exact Bool.false_ne_true))
    rw [chunkDepart_one hs hx hclones hroom hnode hdie hready hfence] at he
    exact completes_of he (sendChunk_sends hx hopen hread (hu.trans hs))
  · intro x c l hs hn hx hsize hred hfence hsame i hi
    have hi := List.mem_singleton.mp hi
    have he : exec i s = .next (s.collReduce e) := by
      rw [hi]
      by_cases hflag : e.flag = true
      · rw [if_pos hflag]
        exact congrArg Host.Outcome.next (if_pos hflag)
      · rw [if_neg hflag]
        exact congrArg Host.Outcome.next (if_neg hflag)
    exact completes_of he (collReduce_full hs hn hx hsize hred hfence hsame)
  · intro x c u ls ld ex f hs hn hx hrank hred hst hfence hlay z n hels hmore hu hw hcounted hne
    have he : exec .collectiveLanding s = .next (s.landChunk x c ls ld ex) := by
      refine congrArg Host.Outcome.next ?_
      show s.collLanding e = _
      unfold State.collLanding
      rw [collOf_only hs hn]
      dsimp only
      have hmember : x.member e.core = some c := by
        unfold Coll.member
        rw [hx]
        exact List.find?_cons_of_pos (beq_iff_eq.mpr hrank)
      rw [hmember]
      dsimp only
      rw [hred, hst, if_neg (by decide), hfence, if_neg (by exact Bool.false_ne_true), earlierOpen_only hs, if_neg (by exact Bool.false_ne_true), hlay]
    exact completes_of he (landChunk_lands hx rfl rfl hels hmore (hu.trans hs) hw hcounted hne)

end Sys2Proof.CollectiveSteps
end

section
/-! Steps of launch queues and of the scheduler (R362 to R365, R367 to R370, R374, R381, R382). -/

namespace Sys2Proof.QueueSteps
set_option Elab.async false
open Sys2Proof Sys2Proof.Machine Sys2Proof.Safety Sys2Proof.CoreEvents

variable {s : State} {node q : Nat}

/-! ## Queues and launches -/

theorem queue_setQueue (s : State) (node q : Nat) (x : Queue) : (s.setQueue node q x).queue node q = x := by
  unfold State.queue State.setQueue
  rw [setPkg_pkg_same]
  exact tget_tset_same ..

theorem queue_setPkg (s : State) (node q : Nat) {p : Pkg} (h : p.queues = (s.pkg node).queues) : (s.setPkg node p).queue node q = s.queue node q := by
  unfold State.queue
  rw [setPkg_pkg_same, h]

theorem queue_of_pkgs {s t : State} (h : t.pkgs = s.pkgs) : t.queue node q = s.queue node q := by
  unfold State.queue State.pkg
  rw [h]

theorem launches_setQueue (s : State) (node q : Nat) (x : Queue) : ((s.setQueue node q x).pkg node).launches = (s.pkg node).launches := by
  unfold State.setQueue
  rw [setPkg_pkg_same]

theorem launch_setLaunch (s : State) (node n : Nat) (l : Launch) : (s.setLaunch node n l).launch? node n = some l := by
  unfold State.launch? State.setLaunch
  rw [setPkg_pkg_same]
  exact tfind_tset_same ..

theorem launch_of_launches {s t : State} (h : (t.pkg node).launches = (s.pkg node).launches) (id : Nat) : t.launch? node id = s.launch? node id := by
  unfold State.launch?
  rw [h]

/-! ## Commands of a queue -/

theorem queueStart_runs (h : (s.queue node q).st = .idle ∨ (s.queue node q).st = .stopped) :
    ((s.queueStart node q).queue node q).st = .run ∧ ((s.queueStart node q).queue node q).cfgerr = false ∧ (s.queueStart node q).mem = s.mem := by
  have hset : ∀ t : State, t.pkgs = (s.setQueue node q { s.queue node q with st := .run, cfgerr := false }).pkgs → t.mem = s.mem →
      (t.queue node q).st = .run ∧ (t.queue node q).cfgerr = false ∧ t.mem = s.mem := by
    intro t hp hm
    have hq : t.queue node q = { s.queue node q with st := .run, cfgerr := false } := (queue_of_pkgs hp).trans (queue_setQueue ..)
    rw [hq]
    exact ⟨rfl, rfl, hm⟩
  unfold State.queueStart
  dsimp only
  rw [if_neg (fun hne => h.elim hne.1 hne.2)]
  split
  · exact hset _ rfl rfl
  · split
    · split <;> exact hset _ rfl rfl
    · exact hset _ rfl rfl

theorem resetQueue_clears (h : (s.queue node q).st = .idle ∨ (s.queue node q).st = .stopped) :
    let x := (s.resetQueue node q).queue node q
    x.st = .idle ∧ x.head = 0 ∧ x.tail = 0 ∧ x.nextwid = 0 ∧ x.err = 0 ∧ (s.resetQueue node q).mem = s.mem := by
  have hset : ∀ t : State, t.mem = s.mem →
      let u := t.setQueue node q { t.queue node q with st := .idle, head := 0, tail := 0, nextwid := 0, err := 0, cur := none, cfgerr := false }
      (u.queue node q).st = .idle ∧ (u.queue node q).head = 0 ∧ (u.queue node q).tail = 0 ∧ (u.queue node q).nextwid = 0 ∧ (u.queue node q).err = 0 ∧
        u.mem = s.mem := by
    intro t hm
    dsimp only
    rw [queue_setQueue]
    exact ⟨rfl, rfl, rfl, rfl, rfl, hm⟩
  unfold State.resetQueue
  dsimp only
  rw [if_neg (fun hne => h.elim hne.1 hne.2)]
  split <;> exact hset _ rfl

/-- A command that the queue's state does not allow sets CFGERR. -/
theorem queueErr_marks (s : State) (node q : Nat) : (s.queueErr node q).queue node q = { s.queue node q with cfgerr := true } ∧ (s.queueErr node q).mem = s.mem :=
  ⟨queue_setQueue .., rfl⟩

/-- A queue without launches has no items to end. -/
theorem abortItems_none (h : s.launchesOf node q = []) : s.abortItems node q = s := by
  unfold State.abortItems
  rw [h]
  rfl

theorem launchesOf_of_launches {s t : State} (h : (t.pkg node).launches = (s.pkg node).launches) : t.launchesOf node q = s.launchesOf node q := by
  unfold State.launchesOf
  rw [h]

theorem abortQueue_begins (h : (s.queue node q).st = .run ∨ (s.queue node q).st = .draining ∨ (s.queue node q).st = .stopped)
    (hnone : s.launchesOf node q = []) : ((s.abortQueue node q).queue node q).st = .aborting ∧
      ((s.abortQueue node q).queue node q).abortTail = (s.queue node q).tail ∧ (s.abortQueue node q).mem = s.mem := by
  unfold State.abortQueue
  dsimp only
  rw [if_neg (fun hne => h.elim hne.1 (Or.rec hne.2.1 hne.2.2)), abortItems_none ((launchesOf_of_launches (launches_setQueue ..)).trans hnone)]
  have hq := queue_setQueue s node q { s.queue node q with
    st := .aborting, cfgerr := false, abortTail := (s.queue node q).tail,
    abortPos := if (s.queue node q).cur.isSome then (s.queue node q).head + 1 else (s.queue node q).head }
  exact ⟨congrArg Queue.st hq, congrArg Queue.abortTail hq, rfl⟩

/-! ## Stores that have still to be performed -/

/-- The queues and launches of a package are as they were. -/
def SamePlans (node : Nat) (s t : State) : Prop := (t.pkg node).queues = (s.pkg node).queues ∧ (t.pkg node).launches = (s.pkg node).launches

theorem samePlans_poolClean (s : State) (node line : Nat) : SamePlans node s (s.poolClean node line) := by
  have hset : ∀ u : State, u.pkgs = s.pkgs → SamePlans node s ((u.setPkg node
      { u.pkg node with poolDirty := tdel (u.pkg node).poolDirty line, poolSent := tdel (u.pkg node).poolSent line }).poolDone line) := by
    intro u hu
    have hpkg : (u.setPkg node { u.pkg node with poolDirty := tdel (u.pkg node).poolDirty line, poolSent := tdel (u.pkg node).poolSent line }).pkg node =
      { u.pkg node with poolDirty := tdel (u.pkg node).poolDirty line, poolSent := tdel (u.pkg node).poolSent line } := setPkg_pkg_same ..
    have hold : u.pkg node = s.pkg node := by
      unfold State.pkg
      rw [hu]
    refine ⟨(congrArg Pkg.queues hpkg).trans ?_, (congrArg Pkg.launches hpkg).trans ?_⟩
    · rw [hold]
    · rw [hold]
  unfold State.poolClean
  dsimp only
  split
  · exact ⟨rfl, rfl⟩
  · split
    · exact ⟨rfl, rfl⟩
    · exact hset _ rfl

/-- What the performing of all stores leaves, where no port holds one of an ended context. -/
theorem performAll_done (hdead : s.deadStores node = false) : ∃ t, s.performAll node = some t ∧ SamePlans node s t ∧
    ((s.pkg node).poolDirty = [] ∧ (s.pkg node).poolSent = [] → t.mem = s.mem) := by
  have hfold : ∀ (ls : List Nat) (u : State), SamePlans node u (ls.foldl (fun s l => s.poolClean node l) u) := by
    intro ls
    induction ls with
    | nil => exact fun u => ⟨rfl, rfl⟩
    | cons a r ih =>
      intro u
      obtain ⟨hq, hl⟩ := samePlans_poolClean u node a
      obtain ⟨hq', hl'⟩ := ih (u.poolClean node a)
      exact ⟨hq'.trans hq, hl'.trans hl⟩
  refine ⟨_, ?_, hfold ((s.pkg node).poolDirty.map (·.1) ++ (s.pkg node).poolSent.map (·.1)) s, fun ⟨hdirty, hsent⟩ => ?_⟩
  · unfold State.performAll
    dsimp only
    rw [hdead]
    rfl
  · rw [hdirty, hsent]
    rfl

theorem performAll_waits (hdead : s.deadStores node = true) : s.performAll node = none := by
  unfold State.performAll
  exact if_pos hdead

section
variable (hst : (s.queue node q).st = .aborting) (hdying : (s.queue node q).dying = []) (hnone : s.launchesOf node q = [])
include hst hdying hnone

/-- An abort of a queue whose launches are gone: what is left of it hangs on the stores of ended contexts alone. -/
theorem abortStep_last : s.abortStep node q = match s.performAll node with
    | none => s.enq .abortTeardownDone { node := node, n := q }
    | some t => match t.launchesOf node q with
      | (id, l) :: _ => (match t.finishLaunch node { l with nabort := l.nabort + (l.total - l.next) } 2 with
        | .ok t => (t.dropLaunch node id).enq .abortTeardownDone { node := node, n := q }
        | .error _ => t.enq .abortTeardownDone { node := node, n := q })
      | [] => if (s.queue node q).abortPos ≠ (s.queue node q).abortTail then
          match t.readLaunch node q (s.queue node q).abortPos.toNat with
          | .error (.wait _ _) => t.enq .abortTeardownDone { node := node, n := q }
          | .error _ => (t.setQueue node q { s.queue node q with abortPos := (s.queue node q).abortPos + 1 }).enq .abortTeardownDone { node := node, n := q }
          | .ok (t, _, l) => (match t.finishLaunch node { l with nabort := l.total } 2 with
            | .ok t => (t.setQueue node q { t.queue node q with abortPos := (s.queue node q).abortPos + 1 }).enq .abortTeardownDone { node := node, n := q }
            | .error _ => t.enq .abortTeardownDone { node := node, n := q })
        else t.setQueue node q { s.queue node q with st := .stopped, head := (s.queue node q).abortTail, nextwid := 0, cur := none, dying := [] } := by
  have hdone : s.dyingDone node q = true := by
    unfold State.dyingDone
    rw [hdying]
    rfl
  unfold State.abortStep
  dsimp only
  rw [if_pos hst, abortItems_none hnone, if_neg (fun h => h hst), hdone, hnone]
  rfl

theorem abortStep_stops (hdead : s.deadStores node = false) (hpos : (s.queue node q).abortPos = (s.queue node q).abortTail) :
    ((s.abortStep node q).queue node q).st = .stopped ∧ ((s.abortStep node q).queue node q).head = (s.queue node q).abortTail ∧
      ((s.abortStep node q).queue node q).nextwid = 0 ∧
      ((s.pkg node).poolDirty = [] ∧ (s.pkg node).poolSent = [] → (s.abortStep node q).mem = s.mem) := by
  obtain ⟨t, ht, ⟨-, hl⟩, hclean⟩ := performAll_done hdead
  rw [abortStep_last hst hdying hnone, ht]
  dsimp only
  rw [(launchesOf_of_launches hl).trans hnone]
  dsimp only
  rw [if_neg (fun h => h hpos), queue_setQueue]
  exact ⟨rfl, rfl, rfl, hclean⟩

end

/-! ## Records and rounds -/

theorem recordTake_own (h : s.feNext node q = q) : s.recordTake node q = s.takeRecord node q := by
  unfold State.recordTake
  dsimp only
  rw [h]
  exact if_pos rfl

theorem takeRecord_none (h : (s.queue node q).head = (s.queue node q).tail) : s.takeRecord node q = s := by
  unfold State.takeRecord
  dsimp only
  refine if_pos ?_
  unfold Queue.waiting
  rw [h, bne_self_eq_false, Bool.and_false]
  rfl

/-- A launch without a control block has nothing to write. -/
theorem finishLaunch_bare (s : State) (node : Nat) {l : Launch} (st : Nat) (h : l.lcb = 0) : s.finishLaunch node l st = .ok s := by
  unfold State.finishLaunch
  exact if_pos h

/-- A queue in RUN with a record, and no launch of its own. -/
theorem queue_waiting (hst : (s.queue node q).st = .run) (hcur : (s.queue node q).cur = none) (hne : (s.queue node q).head ≠ (s.queue node q).tail) :
    (s.queue node q).waiting = true := by
  unfold Queue.waiting
  rw [hst, hcur, bne_iff_ne.mpr hne]
  rfl

section
variable {u : State} {r : Nat} {l : Launch} (hst : (s.queue node q).st = .run) (hcur : (s.queue node q).cur = none)
  (hne : (s.queue node q).head ≠ (s.queue node q).tail) (hread : s.readLaunch node q (s.queue node q).head.toNat = .ok (u, r, l)) (hlcb : l.lcb = 0)
include hst hcur hne hread hlcb

/-- A record that breaks no rule becomes the queue's launch. -/
theorem takeRecord_takes (hbad : recordBad l r = false) :
    ((s.takeRecord node q).queue node q).cur = some (u.pkg node).nextLaunch ∧
      tfind ((s.takeRecord node q).pkg node).launches (u.pkg node).nextLaunch = some l ∧ (s.takeRecord node q).mem = u.mem := by
  have hserved : ((u.feServed node q).pkg node).nextLaunch = (u.pkg node).nextLaunch := by
    unfold State.feServed
    rw [setPkg_pkg_same]
  unfold State.takeRecord
  dsimp only
  rw [if_neg (by rw [queue_waiting hst hcur hne]; decide), hread]
  dsimp only
  rw [hbad, if_neg Bool.false_ne_true, if_pos hlcb]
  dsimp only
  rw [hserved]
  refine ⟨congrArg Queue.cur (queue_setQueue ..), ?_, rfl⟩
  refine (congrArg (fun t => tfind t (u.pkg node).nextLaunch) ((launches_setQueue ..).trans (congrArg Pkg.launches (setPkg_pkg_same ..)))).trans ?_
  exact tfind_tset_same ..

theorem takeRecord_rejects (hbad : recordBad l r = true) (hq : l.queue = q) :
    ((s.takeRecord node q).queue node q).head = (u.queue node q).head + 1 ∧ ((s.takeRecord node q).queue node q).cur = none ∧
      (s.takeRecord node q).mem = u.mem := by
  have hserved : (u.feServed node q).queue node q = u.queue node q := queue_setPkg _ _ _ rfl
  unfold State.takeRecord
  dsimp only
  rw [if_neg (by rw [queue_waiting hst hcur hne]; decide), hread]
  dsimp only
  rw [hbad, if_pos rfl]
  have hrej : (u.feServed node q).reject node l = .ok (((u.feServed node q).setQueue node q { u.queue node q with head := (u.queue node q).head + 1, cur := none }).enq
      .recordTake { node := node, n := q }) := by
    unfold State.reject
    rw [finishLaunch_bare _ _ (l := { l with nabort := l.total }) 3 hlcb, hq, MemoryOps.ok_bind, hserved]
  rw [hrej]
  have hset := queue_setQueue (u.feServed node q) node q { u.queue node q with head := (u.queue node q).head + 1, cur := none }
  exact ⟨congrArg Queue.head hset, congrArg Queue.cur hset, rfl⟩

end

/-- A round of a launch's conditions. -/
theorem semRound_polls {id : Nat} {l : Launch} {u : State} {b : Bool} (hcur : (s.queue node q).cur = some id) (hl : s.launch? node id = some l)
    (hst : (s.queue node q).st = .run) (hstage : l.stage = .polling)
    (hread : s.semRead (s.launchReq node l) l.semlist.toNat l.nsem = .ok (u, some b)) :
    s.semRound node q = if b then (((u.setLaunch node id { l with stage := .dispatching }).setQueue node q
        { (u.setLaunch node id { l with stage := .dispatching }).queue node q with nextwid := 0 }).enq .dispatch { node := node })
      else u.enq .semaphoreRound { node := node, n := q } := by
  unfold State.semRound
  dsimp only
  rw [hcur]
  dsimp only
  rw [hl]
  dsimp only
  rw [if_neg (by rintro (h | h); exacts [h hst, h hstage]), hread]
  cases b <;> rfl

/-! ## Dispatch -/

theorem dispatch_idle {hint : Nat} (h : s.cands node = []) : s.dispatch node hint = s ∧ s.preempt node hint = s := by
  constructor
  · unfold State.dispatch State.blocked
    rw [h]
    split
    · rfl
    · rfl
  · unfold State.preempt State.blocked
    rw [h]
    rfl

theorem dispatch_reset {hint : Nat} (h : (s.pkg node).live = false) : s.dispatch node hint = s := by
  unfold State.dispatch
  exact if_pos (by rw [h]; rfl)

/-- The one candidate, which fits, is dispatched. -/
theorem dispatch_fresh {hint id : Nat} {l : Launch} {ws : List Nat} {pl : Placing} (hlive : (s.pkg node).live = true)
    (hc : s.cands node = [.fresh id l ws]) (hpl : s.placeAll node id l [] hint ws l.placing = some pl) :
    s.dispatch node hint = s.dispatchGroup node id l pl := by
  have hfits : s.candFits node hint [] (.fresh id l ws) = true := by
    show (s.placeAll node id l [] hint ws l.placing).isSome = true
    rw [hpl]
    rfl
  have hblocked : s.blocked node hint = [] := by
    unfold State.blocked
    rw [hc]
    exact List.takeWhile_cons_of_neg (by rw [hfits]; decide)
  unfold State.dispatch
  rw [if_neg (by rw [hlive]; decide), hblocked, hc]
  dsimp only [List.any_nil]
  rw [Bool.false_and, if_neg Bool.false_ne_true, List.find?_cons_of_pos hfits]
  dsimp only
  rw [hpl]

/-- The argument words of a launch stand in x1 to x8. -/
theorem argRegs_arg (args : List Word) (j : Nat) (h1 : 1 ≤ j) (h8 : j ≤ 8) (c : Ctx) (hc : c.x = argRegs args) :
    c.xr (BitVec.ofNat 5 j) = args.getD (j - 1) 0 := by
  have hj : (BitVec.ofNat 5 j).toNat = j := by
    rw [BitVec.toNat_ofNat]
    omega
  have h0 : BitVec.ofNat 5 j ≠ 0 := by
    intro h
    rw [h] at hj
    exact absurd hj (by show ¬ (0 = j); omega)
  unfold Ctx.xr
  rw [if_neg h0]
  simp only [hc, argRegs, Vector.getElem_ofFn, hj]
  exact if_pos ⟨h1, h8⟩

theorem ctx_of_ctxs {s t : State} (h : t.ctxs = s.ctxs) (id : CtxId) : t.ctx id = s.ctx id := by
  unfold State.ctx
  rw [h]

/-- Slot 0 of a core as an item of a launch starts in it. -/
def itemCtx (l : Launch) (old : Ctx) : Ctx :=
  { Ctx.reset with x := argRegs l.args, pc := l.entry, asid := l.asid, ptroot := l.ptroot, st := .ready, gen := old.gen, lastEnd := old.lastEnd,
                   seq := old.seq, pending := old.pending }

/-- What an item's start makes of its core and its slot 0. -/
theorem startItem_starts (s : State) (node id : Nat) (l : Launch) (k w : Nat) :
    let c := (s.startItem node id l k w).ctx ⟨node, k, 0⟩;
    c.x = argRegs l.args ∧ c.pc = l.entry ∧ c.st = .ready ∧ c.asid = l.asid ∧ c.ptroot = l.ptroot ∧
      ((s.startItem node id l k w).core node k).item.map (fun i => (i.launch, i.wid)) = some (id, BitVec.ofNat 64 w) ∧ (s.startItem node id l k w).mem = s.mem := by
  have hctxs : (s.startItem node id l k w).ctxs = (s.setCtx ⟨node, k, 0⟩ (itemCtx l (s.ctx ⟨node, k, 0⟩))).ctxs := rfl
  have hc : (s.startItem node id l k w).ctx ⟨node, k, 0⟩ = itemCtx l (s.ctx ⟨node, k, 0⟩) := (ctx_of_ctxs hctxs _).trans (setCtx_ctx_same ..)
  dsimp only
  rw [hc]
  refine ⟨rfl, rfl, rfl, rfl, rfl, ?_, rfl⟩
  unfold State.startItem
  dsimp only
  rw [setCore_core_same]
  rfl

/-- The rest of a dispatch changes neither contexts, nor cores, nor memory. -/
theorem dispatchGroup_keeps (s : State) (node id : Nat) (l : Launch) {pl : Placing} {k w : Nat} (h : pl.taken = [(k, w)]) :
    (s.dispatchGroup node id l pl).ctxs = (s.startItem node id l k w).ctxs ∧ (s.dispatchGroup node id l pl).cores = (s.startItem node id l k w).cores ∧
      (s.dispatchGroup node id l pl).mem = (s.startItem node id l k w).mem := by
  unfold State.dispatchGroup
  rw [h]
  dsimp only [List.foldl]
  split <;> exact ⟨rfl, rfl, rfl⟩

/-! ## Saving and restoring -/

theorem item_switchSlot (s : State) (node k : Nat) : ((s.switchSlot node k).core node k).item = (s.core node k).item := by
  obtain ⟨j, hj⟩ := TrapGroup.switchSlot_core s node k
  rw [hj]

theorem item_saved (s : State) {k : Nat} {c : CoreSt} (n : Nat) (l : Launch) (h : c.item = none) :
    (((s.setCore node k c).setLaunch node n l).core node k).item = none := (congrArg CoreSt.item (setCore_core_same s node k c)).trans h

/-- A core whose item has been saved runs none. -/
theorem saveItem_empties {k : Nat} {u : State} {it : Item} {l : Launch} (hit : (s.core node k).item = some it) (hl : s.launch? node it.launch = some l)
    (hu : s.saveItem node k = .ok u) : (u.core node k).item = none := by
  unfold State.saveItem at hu
  extract_lets q live lease parked left mask at hu
  rw [show q.item = some it from hit] at hu
  dsimp -zeta only at hu
  rw [hl] at hu
  dsimp -zeta only at hu
  split at hu
  · cases hu
  · obtain ⟨v, -, hv⟩ := CollStarts.bind_ok hu
    extract_lets t away it' q' emptied done at hv
    have hdone : (done.core node k).item = none := item_saved away _ _ rfl
    rw [← Except.ok.inj hv]
    split
    · exact (item_switchSlot ..).trans hdone
    · exact hdone

/-- Steps that leave the cores alone leave them alone together. -/
theorem cores_foldl {α : Type} (f : State → α → State) (hf : ∀ s a, (f s a).cores = s.cores) (l : List α) (s : State) : (l.foldl f s).cores = s.cores := by
  induction l generalizing s with
  | nil => rfl
  | cons a r ih => exact (ih _).trans (hf s a)

theorem cores_lockReturn (s : State) (id : CtxId) : (s.lockReturn id).cores = s.cores := by
  unfold State.lockReturn
  dsimp only
  split
  · rfl
  · split <;> rfl

theorem cores_wantHandler (s : State) (node p m : Nat) (b : Mbox) : (s.wantHandler node p m b).cores = s.cores := by
  unfold State.wantHandler
  split <;> rfl

theorem cores_askLease (s : State) (node p : Nat) : (s.askLease node p).cores = s.cores := by
  unfold State.askLease
  split <;> rfl

/-- A core whose item has been restored runs it. -/
theorem restoreItem_runs {id : Nat} {y : SavedItem} {u : State} {l : Launch} (hl : s.launch? node id = some l) (hu : s.restoreItem node id y = .ok u) :
    (u.core node y.core).item = some y.item := by
  have hcore : ∀ {a b : State}, b.cores = a.cores → (a.core node y.core).item = some y.item → (b.core node y.core).item = some y.item := by
    intro a b hab ha
    unfold State.core at ha ⊢
    rwa [hab]
  unfold State.restoreItem at hu
  split at hu
  next hnone => exact nomatch hl.symm.trans hnone
  next l' hl' =>
  extract_lets k at hu
  obtain ⟨⟨w, recs⟩, -, hv⟩ := CollStarts.bind_ok hu
  dsimp -zeta only at hv
  extract_lets moved parked mask q' running kept a array returned handlers at hv
  have hset : (running.core node y.core).item = some y.item := congrArg CoreSt.item (setCore_core_same moved node k _)
  have hrun : (array.core node y.core).item = some y.item := hcore (a := running) rfl hset
  have hret : (returned.core node y.core).item = some y.item := hcore (cores_foldl _ (fun s j => cores_lockReturn s _) _ _) hrun
  have hhand : (handlers.core node y.core).item = some y.item := hcore (cores_foldl _ (fun s e => cores_wantHandler s _ _ _ _) _ _) hret
  rw [← Except.ok.inj hv]
  split
  · exact hcore (cores_askLease ..) hhand
  · exact hhand

/-! ## Completion -/

/-- A finished launch without a control block completes once the stores of ended contexts are applied. -/
theorem launchComplete_bare {id : Nat} {l : Launch} (hl : s.launch? node id = some l) (hfin : l.finished = true)
    (hst : (s.queue node l.queue).st ≠ .aborting) (hdying : (s.queue node l.queue).dying = []) (hlcb : l.lcb = 0) :
    s.launchComplete node id = match s.performAll node with
      | none => s.enq .launchComplete { node := node, n := id }
      | some t => t.dropLaunch node id := by
  have hdone : s.dyingDone node l.queue = true := by
    unfold State.dyingDone
    rw [hdying]
    rfl
  unfold State.launchComplete
  dsimp only
  rw [hl]
  dsimp only
  rw [if_neg (by rw [hfin]; rintro (h | h); exacts [absurd h (by decide), hst h]), hdone, if_neg (by decide)]
  cases s.performAll node with
  | none => rfl
  | some t =>
    dsimp only
    rw [finishLaunch_bare _ _ _ hlcb]

theorem launch_dropLaunch (s : State) (node id : Nat) : (s.dropLaunch node id).launch? node id = none := by
  unfold State.launch? State.dropLaunch
  rw [setPkg_pkg_same]
  exact tfind_tdel_same ..

/-! ## The doorbell -/

theorem ofNat_mod (w : Word) : BitVec.ofNat 32 (w.toNat % 2 ^ 32) = BitVec.ofNat 32 w.toNat := by
  refine BitVec.eq_of_toNat_eq ?_
  rw [BitVec.toNat_ofNat, BitVec.toNat_ofNat, Nat.mod_mod]

/-- Settles O57, a step at a time. -/
theorem eventsOfQueuesAndScheduling : Obligations.EventsOfQueuesAndScheduling := by
  intro s e x after idleOrStopped clean
  refine ⟨?_, ?_, ?_, ?_, ?_, ?_, ?_, ?_, ?_, ?_, ?_, ?_, ?_, ?_, ?_, ?_, ?_, ?_⟩
  · exact fun h => ⟨completes_of rfl (queueStart_runs h), completes_of rfl (resetQueue_clears h)⟩
  · intro h i hi
    have hne : x.st ≠ .idle ∧ x.st ≠ .stopped := ⟨fun h0 => h (.inl h0), fun h0 => h (.inr h0)⟩
    rcases List.mem_cons.mp hi with rfl | hi
    · exact completes_of (congrArg Host.Outcome.next (if_pos hne)) (queueErr_marks ..)
    · rw [List.mem_singleton.mp hi]
      exact completes_of (congrArg Host.Outcome.next (if_pos hne)) (queueErr_marks ..)
  · exact fun h => completes_of (congrArg Host.Outcome.next (if_neg (fun hne => hne h))) ⟨congrArg Queue.st (queue_setQueue ..), rfl⟩
  · exact fun h => completes_of (congrArg Host.Outcome.next (if_pos h)) (queueErr_marks ..).1
  · intro h hnone
    have he : exec .drainDone s = .next (s.setQueue e.node e.n { x with st := .stopped }) := by
      refine congrArg Host.Outcome.next ?_
      show s.drainDone e.node e.n = _
      unfold State.drainDone
      dsimp only
      rw [if_neg (fun hne => hne h), hnone]
      rfl
    exact completes_of he ⟨queue_setQueue .., rfl⟩
  · exact fun h hnone => completes_of rfl (abortQueue_begins h hnone)
  · intro hst hdying hnone
    refine ⟨fun hdead => ?_, fun hdead hpos => completes_of rfl (abortStep_stops hst hdying hnone hdead hpos)⟩
    have he : exec .abortTeardownDone s = .next (s.enq .abortTeardownDone { node := e.node, n := e.n }) := by
      refine congrArg Host.Outcome.next ?_
      show s.abortStep e.node e.n = _
      rw [abortStep_last hst hdying hnone, performAll_waits hdead]
    exact completes_of he ⟨rfl, rfl⟩
  · exact fun h => completes_of (congrArg Host.Outcome.next (if_pos h)) rfl
  · intro hn hbehind v
    have he : exec .tail s = .next (s.queueTail e.node e.n (e.w.toNat % 2 ^ 32)) := by
      refine congrArg Host.Outcome.next ((if_neg (Nat.not_le.mpr hn)).trans (if_neg ?_))
      rw [show s.hostBehind s.ev false = false from hbehind]
      exact Bool.false_ne_true
    unfold State.queueTail at he
    rw [ofNat_mod] at he
    refine ⟨fun hle => ?_, fun hlt => ?_⟩
    · exact completes_of (he.trans (congrArg Host.Outcome.next (if_neg (Nat.not_lt.mpr hle)))) ⟨queue_setQueue .., rfl⟩
    · exact completes_of (he.trans (congrArg Host.Outcome.next (if_pos hlt))) (queueErr_marks ..)
  · exact fun hnext hempty => completes_of (congrArg Host.Outcome.next ((recordTake_own hnext).trans (takeRecord_none hempty))) rfl
  · intro u r l hnext hst hcur hne hread hlcb hq
    exact ⟨fun hbad => completes_of (congrArg Host.Outcome.next (recordTake_own hnext)) (takeRecord_takes hst hcur hne hread hlcb hbad),
      fun hbad => completes_of (congrArg Host.Outcome.next (recordTake_own hnext)) (takeRecord_rejects hst hcur hne hread hlcb hbad hq)⟩
  · intro id l u b hcur hl hst hstage hread
    have hround := semRound_polls hcur hl hst hstage hread
    refine ⟨fun hb => ?_, fun hb => ?_⟩
    · rw [hb, if_pos rfl] at hround
      refine completes_of (congrArg Host.Outcome.next hround) ⟨?_, congrArg Queue.nextwid (queue_setQueue ..), rfl⟩
      exact (launch_of_launches (launches_setQueue ..) id).trans (launch_setLaunch ..)
    · rw [hb, if_neg Bool.false_ne_true] at hround
      exact completes_of (congrArg Host.Outcome.next hround) ⟨rfl, rfl⟩
  · exact fun h => ⟨completes_of (congrArg Host.Outcome.next (dispatch_idle h).1) rfl, completes_of (congrArg Host.Outcome.next (dispatch_idle h).2) rfl⟩
  · exact fun h => completes_of (congrArg Host.Outcome.next (dispatch_reset h)) rfl
  · intro id l ws pl k w hlive hc hpl htaken
    obtain ⟨hx, hpc, hst, hasid, hroot, hitem, hmem⟩ := startItem_starts s e.node id l k w
    obtain ⟨hctxs, hcores, hm⟩ := dispatchGroup_keeps s e.node id l htaken
    have hc0 := ctx_of_ctxs hctxs ⟨e.node, k, 0⟩
    refine completes_of (congrArg Host.Outcome.next (dispatch_fresh hlive hc hpl)) ?_
    dsimp only
    rw [hc0]
    refine ⟨hpc, hst, hasid, hroot, fun j h1 h8 => argRegs_arg l.args j h1 h8 _ hx, hm.trans hmem, ?_⟩
    refine Eq.trans (congrArg (fun c : CoreSt => c.item.map (fun i => (i.launch, i.wid))) ?_) hitem
    unfold State.core
    rw [hcores]
  · intro l hl hfin hst hdying hlcb
    have hbare := launchComplete_bare hl hfin hst hdying hlcb
    refine ⟨fun hdead => ?_, fun hdead => ?_⟩
    · obtain ⟨t, ht, -, hclean⟩ := performAll_done hdead
      rw [ht] at hbare
      exact completes_of (congrArg Host.Outcome.next hbare) ⟨launch_dropLaunch .., hclean⟩
    · rw [performAll_waits hdead] at hbare
      exact completes_of (congrArg Host.Outcome.next hbare) ⟨hl, rfl⟩
  · intro v k u it l hv hcores hit hl hu
    have he : exec .preempt s = .next (u.enq .dispatch { node := e.node, core := v.cores.headD e.core }) := by
      refine congrArg Host.Outcome.next ?_
      show s.preempt e.node e.core = _
      unfold State.preempt
      rw [hv]
      dsimp only
      rw [hcores]
      unfold State.saveGroup
      rw [hu]
      rfl
    exact completes_of he ⟨rfl, rfl, (saveItem_empties hit hl hu :)⟩
  · intro id l y u hfind hid hw hl hu
    have he : exec .contextRestore s = .next (u.enq .dispatch { node := e.node }) := by
      refine congrArg Host.Outcome.next ?_
      show s.contextRestore e.node e.n e.w = _
      unfold State.contextRestore
      rw [hfind]
      dsimp only
      rw [if_pos ⟨hid, by rw [List.any_cons, beq_iff_eq.mpr hw]; rfl⟩, ← hid]
      unfold State.restoreGroup
      dsimp only
      rw [hu]
      rfl
    exact completes_of he ⟨rfl, rfl, (restoreItem_runs hl hu :)⟩

end Sys2Proof.QueueSteps
end

section
/-! Steps of the legend units and slot managers: legend commands, updates, windows, tokens, credits, and a replica's life (R390 to R393, R396 to R406). -/

namespace Sys2Proof.LegendSteps
set_option Elab.async false
open Sys2Proof Sys2Proof.Machine Sys2Proof.Safety Sys2Proof.CoreEvents Sys2Proof.Legends

variable {s : State} {node name : Nat}

/-! ## What a change of an entry leaves of the dies and the managers -/

theorem proj_foldl {α β : Type} (π : State → β) (f : State → α → State) (hf : ∀ s a, π (f s a) = π s) (l : List α) (s : State) : π (l.foldl f s) = π s := by
  induction l generalizing s with
  | nil => rfl
  | cons a l ih => exact (ih (f s a)).trans (hf s a)

theorem dies_dropRepls (s : State) (node name : Nat) : (s.dropRepls node name).dies = s.dies := by
  refine proj_foldl State.dies _ (fun s p => ?_) _ s
  split <;> rfl

theorem dies_syncRepls (s : State) (node name e : Nat) : (s.syncRepls node name e).dies = s.dies := by
  refine proj_foldl State.dies _ (fun s r => ?_) _ s
  split
  · rfl
  · split <;> rfl

theorem dies_multicast (s : State) (own name e : Nat) : (s.multicast own name e).dies = s.dies := by
  unfold State.multicast
  refine proj_foldl State.dies _ (fun s n => ?_) _ s
  rfl

theorem legUps_dropRepls (s : State) (node name : Nat) : (s.dropRepls node name).legUps = s.legUps := by
  refine proj_foldl State.legUps _ (fun s p => ?_) _ s
  split <;> rfl

theorem legUps_syncRepls (s : State) (node name e : Nat) : (s.syncRepls node name e).legUps = s.legUps := by
  refine proj_foldl State.legUps _ (fun s r => ?_) _ s
  split
  · rfl
  · split <;> rfl

theorem enq_dies (s : State) (i : Instr) (e : Ev) : (s.enq i e).dies = s.dies := rfl

theorem forgetFree_dies (s : State) (node name e : Nat) : (s.forgetFree node name e).dies = s.dies := rfl

theorem dies_legChange (s : State) (own name e : Nat) :
    (s.legChange own name e).dies = (s.setLegend own name (entSet e 4 0 32 (entEpoch e + 1))).dies := by
  unfold State.legChange
  dsimp only
  rw [enq_dies, dies_multicast, dies_syncRepls, forgetFree_dies]

theorem die_congr {t : State} (h : t.dies = s.dies) (n d : Nat) : t.die n d = s.die n d := by
  unfold State.die
  rw [h]

theorem die_setDie (s : State) (n d : Nat) (x : DieSt) : (s.setDie n d x).die n d = x := tget_tset_same ..

theorem repl_congr {t : State} (h : t.polders = s.polders) (n p m : Nat) : t.repl n p m = s.repl n p m := by
  unfold State.repl State.polder
  rw [h]

theorem repl_setRepl (s : State) (n p m : Nat) (r : Repl) : (s.setRepl n p m r).repl n p m = some r := by
  unfold State.repl State.setRepl
  rw [setPolder_polder_same]
  exact tfind_tset_same ..

theorem repl_setRepl_other (s : State) (n p m n' p' m' : Nat) (r : Repl) (h : (n', p', m') ≠ (n, p, m)) : (s.setRepl n p m r).repl n' p' m' = s.repl n' p' m' := by
  unfold State.repl State.setRepl State.setPolder State.polder
  dsimp only
  by_cases hk : (n', p') = (n, p)
  · obtain ⟨rfl, rfl⟩ := Prod.mk.inj hk
    rw [tget_tset_same, tfind_tset_other _ _ _ _ (fun hm => h (by rw [hm]))]
  · rw [tget_tset_other _ _ _ _ _ hk]

/-- A manager that is there stays as it is when its package follows an entry. -/
theorem repl_syncRepls {n p m : Nat} {r : Repl} (own name e : Nat) (h : s.repl n p m = some r) : (s.syncRepls own name e).repl n p m = some r := by
  unfold State.syncRepls
  induction repIdx generalizing s with
  | nil => exact h
  | cons k l ih =>
    refine ih ?_
    dsimp only
    split
    · exact h
    · split
      · exact h
      next hnone =>
        rw [repl_setRepl_other _ _ _ _ _ _ _ _ (by rintro ⟨⟩; rw [h] at hnone; cases hnone)]
        exact h

theorem polders_multicast (s : State) (own name e : Nat) : (s.multicast own name e).polders = s.polders := by
  unfold State.multicast
  refine proj_foldl State.polders _ (fun s n => ?_) _ s
  rfl

theorem enq_polders (s : State) (i : Instr) (e : Ev) : (s.enq i e).polders = s.polders := rfl

theorem forgetFree_polders (s : State) (node name e : Nat) : (s.forgetFree node name e).polders = s.polders := rfl

theorem setLegend_polders (s : State) (node name e : Nat) : (s.setLegend node name e).polders = s.polders := rfl

theorem repl_legChange {n p m : Nat} {r : Repl} (own name e : Nat) (h : s.repl n p m = some r) : (s.legChange own name e).repl n p m = some r := by
  unfold State.legChange
  dsimp only
  refine (repl_congr ((enq_polders ..).trans (polders_multicast ..)) n p m).trans (repl_syncRepls _ _ _ ?_)
  rw [repl_congr (forgetFree_polders ..), repl_congr (setLegend_polders ..), h]

/-! ## INSTALL, REMOVE and READ -/

/-- The entry that INSTALL makes of the staged one, before its EPOCH rises to 1. -/
def installed (x : Nat) : Nat := entSet (entSet (entSet (entSet x 0 31 1 1) 8 20 12 0) 16 0 32 0) 4 0 32 0

theorem installed_fields (x : Nat) : entV (entSet (installed x) 4 0 32 (entEpoch (installed x) + 1)) = true ∧
    entVer (entSet (installed x) 4 0 32 (entEpoch (installed x) + 1)) = 0 ∧ entEpoch (entSet (installed x) 4 0 32 (entEpoch (installed x) + 1)) = 1 ∧
    entArrive (entSet (installed x) 4 0 32 (entEpoch (installed x) + 1)) = 0 ∧ entName (entSet (installed x) 4 0 32 (entEpoch (installed x) + 1)) = entName x := by
  have hep : entEpoch (installed x) = 0 := by
    unfold entEpoch installed
    rw [entF_entSet_same]
    rfl
  refine ⟨?_, ?_, ?_, ?_, ?_⟩
  · unfold entV installed
    rw [entF_entSet_other _ 4 0 32 _ 0 31 1 (by decide), entF_entSet_other _ 4 0 32 _ 0 31 1 (by decide), entF_entSet_other _ 16 0 32 _ 0 31 1 (by decide),
      entF_entSet_other _ 8 20 12 _ 0 31 1 (by decide), entF_entSet_same]
    rfl
  · unfold entVer installed
    rw [entF_entSet_other _ 4 0 32 _ 8 20 12 (by decide), entF_entSet_other _ 4 0 32 _ 8 20 12 (by decide), entF_entSet_other _ 16 0 32 _ 8 20 12 (by decide), entF_entSet_same]
    rfl
  · rw [hep]
    unfold entEpoch
    rw [entF_entSet_same]
    rfl
  · unfold entArrive installed
    rw [entF_entSet_other _ 4 0 32 _ 16 0 32 (by decide), entF_entSet_other _ 4 0 32 _ 16 0 32 (by decide), entF_entSet_same]
    rfl
  · unfold entName installed
    rw [entF_entSet_other _ 4 0 32 _ 0 0 24 (by decide), entF_entSet_other _ 4 0 32 _ 0 0 24 (by decide), entF_entSet_other _ 16 0 32 _ 0 0 24 (by decide),
      entF_entSet_other _ 8 20 12 _ 0 0 24 (by decide), entF_entSet_other _ 0 31 1 _ 0 0 24 (by decide)]

theorem legInstall_installs {d : Nat} (hd : homeDieOf name = d) (hn : repNode (s.die node d).staging.toNat 0 = node)
    (hr : entRefused (s.die node d).staging.toNat = false) (hname : entName (s.die node d).staging.toNat = name) (hfree : tfind (s.die node d).legend name = none)
    (hroom : (s.die node d).legend.length < 4096) :
    ((s.legInstall node d name).die node d).legErr = false ∧ ∃ y, (s.legInstall node d name).legend node name = some y ∧ entV y = true ∧ entVer y = 0 ∧ entEpoch y = 1 ∧
      entArrive y = 0 ∧ entName y = name := by
  have hu : s.legInstall node d name = (s.legErr node d false).legChange node name (installed (s.die node d).staging.toNat) := by
    unfold State.legInstall
    dsimp only
    rw [if_neg]
    · rfl
    · rw [hr, hfree]
      rintro (h | h | h | h | h | h)
      exacts [h hd, h hn, Bool.false_ne_true h, h hname, Bool.false_ne_true h, absurd hroom (by omega)]
  obtain ⟨h1, h2, h3, h4, h5⟩ := installed_fields (s.die node d).staging.toNat
  rw [hu]
  constructor
  · refine (congrArg DieSt.legErr (die_congr (dies_legChange ..) node d)).trans ?_
    unfold State.setLegend State.legErr
    rw [hd, die_setDie, die_setDie]
  · refine ⟨_, (legend_congr (dies_legChange ..) node name).trans (legend_setLegend_same ..), ?_, ?_, ?_, ?_, ?_⟩
    · exact (congrArg (· == 1) (entF_stored _ 0 31 1 (by decide))).trans h1
    · exact (entF_stored _ 8 20 12 (by decide)).trans h2
    · exact (entF_stored _ 4 0 32 (by decide)).trans h3
    · exact (entF_stored _ 16 0 32 (by decide)).trans h4
    · exact (entF_stored _ 0 0 24 (by decide)).trans (h5.trans hname)

theorem legErr_die (s : State) (node d : Nat) (b : Bool) : (s.legErr node d b).die node d = { s.die node d with legErr := b } := die_setDie ..

theorem legInstall_refuses {d : Nat} (h : homeDieOf name ≠ d ∨ repNode (s.die node d).staging.toNat 0 ≠ node ∨ entRefused (s.die node d).staging.toNat = true ∨
    entName (s.die node d).staging.toNat ≠ name ∨ tfind (s.die node d).legend name ≠ none) : s.legInstall node d name = s.legErr node d true := by
  unfold State.legInstall
  dsimp only
  rw [if_pos]
  rcases h with h | h | h | h | h
  exacts [Or.inl h, Or.inr (Or.inl h), Or.inr (Or.inr (Or.inl h)), Or.inr (Or.inr (Or.inr (Or.inl h))),
    Or.inr (Or.inr (Or.inr (Or.inr (Or.inl (Option.isSome_iff_ne_none.mpr h)))))]

theorem legInstall_refused {d : Nat} (h : homeDieOf name ≠ d ∨ repNode (s.die node d).staging.toNat 0 ≠ node ∨ entRefused (s.die node d).staging.toNat = true ∨
    entName (s.die node d).staging.toNat ≠ name ∨ tfind (s.die node d).legend name ≠ none) :
    ((s.legInstall node d name).die node d).legErr = true ∧ ((s.legInstall node d name).die node d).legend = (s.die node d).legend := by
  rw [legInstall_refuses h, legErr_die]
  exact ⟨rfl, rfl⟩

theorem legRead_reads {d : Nat} {y : BitVec 1024} (hy : tfind (s.die node d).legend name = some y) :
    ((s.legRead node d name).die node d).staging = y ∧ ((s.legRead node d name).die node d).legErr = false ∧ (s.legRead node d name).mem = s.mem := by
  have hx : s.legRead node d name = s.setDie node d { s.die node d with staging := y, legErr := false } := by
    unfold State.legRead
    rw [hy]
  rw [hx, die_setDie]
  exact ⟨rfl, rfl, rfl⟩

theorem legRead_missing {d : Nat} (h : tfind (s.die node d).legend name = none) :
    ((s.legRead node d name).die node d).legErr = true ∧ ((s.legRead node d name).die node d).staging = (s.die node d).staging := by
  have hx : s.legRead node d name = s.legErr node d true := by
    unfold State.legRead
    rw [h]
  rw [hx, legErr_die]
  exact ⟨rfl, rfl⟩

theorem legRemove_removes {y d : Nat} (hd : homeDieOf name = d) (hy : s.legend node name = some y) (hown : repNode y 0 = node) :
    (s.legRemove node d name).legend node name = none ∧ ((s.legRemove node d name).die node d).legErr = false := by
  have hdies : (s.legRemove node d name).dies = (s.setDie node d { s.die node d with
      legErr := false, legend := tdel (s.die node d).legend name, acks := (s.die node d).acks.filter (fun a => a.1.1 != name) }).dies := by
    unfold State.legRemove
    rw [if_pos hd, hy]
    dsimp only
    rw [if_neg (fun h => h hown)]
    exact (dies_multicast ..).trans (dies_dropRepls ..)
  refine ⟨(legend_congr hdies node name).trans ?_, (congrArg DieSt.legErr (die_congr hdies node d)).trans ?_⟩
  · unfold State.legend
    rw [hd, die_setDie]
    exact congrArg (Option.map _) (tfind_tdel_same ..)
  · rw [die_setDie]

/-! ## Updates, acknowledgements and windows -/

/-- A package has taken an update: its copy is written, or ends. -/
def updated (u : State) (node name e : Nat) : State :=
  if entV e then (((u.setLegend node name e).forgetFree node name e).syncRepls node name e).enq .epochAck { node := node, n := name, m := entEpoch e }
  else (u.setDie node (homeDieOf name) { u.die node (homeDieOf name) with legend := tdel (u.die node (homeDieOf name)).legend name }).dropRepls node name

/-- The managers of a name have rebalanced. -/
def windowed (s : State) (node name : Nat) : State :=
  { s with
    polders := tmap s.polders (fun k (q : Polder) => if k.1 = node then
      match tfind q.repls name with
      | some m => { q with repls := tset q.repls name m.windowEnd }
      | none => q else q) }

section
variable {x : BitVec 1024} (hu : s.legUps = [⟨node, name, x⟩])
include hu

theorem update_alone : s.legUps.find? (fun u => u.node == node && u.name == name) = some ⟨node, name, x⟩ ∧ State.legendUpdate.take ⟨node, name, x⟩ s.legUps = [] := by
  rw [hu]
  exact ⟨List.find?_cons_of_pos (by simp), if_pos rfl⟩

theorem legendUpdate_newer (hnew : ∀ y, s.legend node name = some y → entEpoch y < entEpoch x.toNat) (hf : repNode x.toNat 0 ∉ (s.pkg node).fenced) :
    s.legendUpdate node name = updated { s with legUps := [] } node name x.toNat := by
  obtain ⟨hfind, htake⟩ := update_alone hu
  have hfen : ¬ (s.pkg node).fenced.contains (repNode x.toNat 0) = true := by simpa using hf
  unfold State.legendUpdate
  rw [hfind]
  dsimp only
  rw [htake]
  refine (if_neg hfen).trans ?_
  unfold updated
  cases hl : s.legend node name with
  | none =>
    rw [show ({ s with legUps := [] } : State).legend node name = none from hl]
    cases hv : entV x.toNat <;> simp only [Bool.not_true, Bool.false_eq_true, if_false, if_true]
  | some y =>
    rw [show ({ s with legUps := [] } : State).legend node name = some y from hl]
    cases hv : entV x.toNat <;> simp only [decide_eq_true (hnew y hl), Bool.not_true, Bool.false_eq_true, if_false, if_true]

theorem legendUpdate_applies (hnew : ∀ y, s.legend node name = some y → entEpoch y < entEpoch x.toNat) (hf : repNode x.toNat 0 ∉ (s.pkg node).fenced) :
    (s.legendUpdate node name).legUps = [] ∧ (s.legendUpdate node name).legend node name = if entV x.toNat then some x.toNat else none := by
  rw [legendUpdate_newer hu hnew hf]
  unfold updated
  split
  · refine ⟨legUps_syncRepls .., (legend_congr (dies_syncRepls ..) node name).trans ((legend_setLegend_same ..).trans ?_)⟩
    rw [BitVec.ofNat_toNat, BitVec.setWidth_eq]
  · refine ⟨legUps_dropRepls .., (legend_congr (dies_dropRepls ..) node name).trans ?_⟩
    unfold State.legend
    rw [die_setDie]
    exact congrArg (Option.map _) (tfind_tdel_same ..)

theorem legendUpdate_fenced (hf : repNode x.toNat 0 ∈ (s.pkg node).fenced) :
    (s.legendUpdate node name).legUps = [] ∧ (s.legendUpdate node name).dies = s.dies ∧ (s.legendUpdate node name).mem = s.mem := by
  obtain ⟨hfind, htake⟩ := update_alone hu
  have hfen : (s.pkg node).fenced.contains (repNode x.toNat 0) = true := by simpa using hf
  have hx : s.legendUpdate node name = { s with legUps := [] } := by
    unfold State.legendUpdate
    rw [hfind]
    dsimp only
    rw [htake]
    exact if_pos hfen
  rw [hx]
  exact ⟨rfl, rfl, rfl⟩

end

section
variable {y : Nat} (hy : s.legend node name = some y)
include hy

theorem epochAck_acks {m : Nat} (hold : s.olderTokens node name m = false) (hf : node ∉ (s.pkg (repNode y 0)).fenced) :
    m ≤ tget 0 ((s.epochAck node name m).die (repNode y 0) (homeDieOf name)).acks (name, node) := by
  unfold State.epochAck
  rw [hy]
  dsimp only
  rw [if_neg (by rw [hold]; decide), if_neg (by simpa using hf), die_setDie, tget_tset_same]
  exact Nat.le_max_left ..

theorem epochAck_fenced {m : Nat} (hold : s.olderTokens node name m = false) (hf : node ∈ (s.pkg (repNode y 0)).fenced) : s.epochAck node name m = s := by
  unfold State.epochAck
  rw [hy]
  dsimp only
  rw [if_neg (by rw [hold]; decide), if_pos (by simpa using hf)]

theorem windowEnd_clears (hown : repNode y 0 = node) (hret : entRetire y = 0) :
    ((s.windowEnd node name).legend node name).map entArrive = some 0 ∧ (s.windowEnd node name).mem = s.mem := by
  have hx : s.windowEnd node name = (windowed s node name).setLegend node name (entSet y 16 0 32 0) := by
    unfold State.windowEnd
    dsimp only
    rw [show ∀ l, ({ s with polders := l } : State).legend node name = some y from fun _ => hy]
    dsimp only
    rw [if_neg (fun h => h hown)]
    split
    next r hr =>
      refine if_neg ?_
      rintro ⟨h, -⟩
      exact h hret
    next => rfl
  rw [hx, legend_setLegend_same]
  refine ⟨congrArg some ?_, rfl⟩
  unfold entArrive
  rw [entF_stored _ 16 0 32 (by decide), entF_entSet_same]
  rfl

end

/-! ## The life of a replica -/

theorem repState_repSet (e r n p o st : Nat) : repState (repSet e r n p o st) r = st % 4 := by
  have h := entF_entSet_same e (64 + 4 * r) 0 32 (n * 2 ^ 20 + p * 2 ^ 12 + o * 4 + st)
  have hs : repState (repSet e r n p o st) r = entF (repSet e r n p o st) (64 + 4 * r) 0 32 % 2 ^ 2 := by
    unfold repState entF fieldN
    rw [Nat.mod_mod_of_dvd _ (Nat.pow_dvd_pow 2 (by decide))]
  rw [hs]
  unfold repSet
  rw [h]
  omega

/-- A replica that serves or drains goes on doing so. -/
theorem unmoved_state {r k : Nat} (hr : r < 16) (hk : 2 ≤ k) : Unmoved (fun e => decide (repState e r = k)) where
  stored e := congrArg (fun x => decide (x = k)) (entF_stored e (64 + 4 * r) 0 2 (by omega))
  arrive e v := congrArg (fun x => decide (x = k)) (entF_entSet_other e 16 0 32 v (64 + 4 * r) 0 2 (by omega))
  epoch e v := congrArg (fun x => decide (x = k)) (entF_entSet_other e 4 0 32 v (64 + 4 * r) 0 2 (by omega))
  born e r' n p o h0 := by
    by_cases hrr : r' = r
    · subst hrr
      rw [repState_born, h0, decide_eq_false (by omega), decide_eq_false (by omega)]
    · exact congrArg (fun x => decide (x = k)) (entF_entSet_other e (64 + 4 * r') 0 32 _ (64 + 4 * r) 0 2 (by omega))

/-- A manager that holds no token stays as it is when its held tokens are taken up. -/
theorem releaseHeld_idle {p : Nat} (h : ∀ m, s.repl node p name = some m → m.heldToks = []) : s.releaseHeld node p name = s := by
  unfold State.releaseHeld
  split
  next m e hm he =>
    have hheld := h m hm
    have hself : s.setRepl node p name { m with heldToks := [] } = s := by
      have hfound : tfind s.polders (node, p) = some (s.polder node p) := by
        unfold State.repl State.polder tget at *
        cases hq : tfind s.polders (node, p) with
        | some q => rfl
        | none =>
          rw [hq] at hm
          cases hm
      have hmm : ({ m with heldToks := [] } : Repl) = m := by
        rw [← hheld]
      rw [hmm]
      unfold State.setRepl State.setPolder
      unfold State.repl at hm
      dsimp only
      rw [Streams.tset_self hm, Streams.tset_self hfound]
    rw [hheld]
    exact hself
  next => rfl

/-- Without CREATE no creation follows a change. -/
theorem creationTest_idle {own : Nat} (h : (s.legend own name).map entCreate = some 0) : s.creationTest own name = s := by
  obtain ⟨e, he, hc⟩ := Option.map_eq_some_iff.mp h
  unfold State.creationTest
  rw [he]
  exact if_pos (Or.inl hc)

theorem addDonor_polders (s : State) (own name e r : Nat) : (s.addDonor own name e r).polders = s.polders := by
  unfold State.addDonor
  dsimp only
  split <;> rfl

theorem hwCopy_nextCmd {u : State} {p hw a b rows bar bn bp : Nat} (h : s.hwCopy node p hw a b rows bar bn bp name = some u) : u.nextCmd = s.nextCmd + 1 := by
  unfold State.hwCopy at h
  obtain ⟨q, -, rfl⟩ := Option.map_eq_some_iff.mp h
  rfl

theorem enqOnce_keeps (s : State) (i : Instr) (e : Ev) : (s.enqOnce i e).polders = s.polders ∧ (s.enqOnce i e).mem = s.mem := by
  unfold State.enqOnce
  split <;> exact ⟨rfl, rfl⟩

section
variable {p y : Nat} {r : Repl} (hr : s.repl node p name = some r)
include hr

section
variable (hy : s.nameEntry node name = some y)
include hy

theorem rbarFlip_serves {v ph : Nat} (hpend : r.pend = some (v, ph)) (hlost : s.barLost node p (mLocal (entRbar y)) = false)
    (hflip : fieldN (s.barWord node p (mLocal (entRbar y))) 0 1 ≠ ph) (hidx : r.idx < 16) (hst : repState y r.idx = 1) (hver : entVer y = v) :
    ((s.rbarFlip node p name).legend (repNode y 0) name).map (fun z => repState z r.idx) = some 2 := by
  have hx : s.rbarFlip node p name =
      (((s.setRepl node p name { newRepl y r.idx with ver := v, tomb := r.tomb, reborn := r.tomb.isSome }).legChange (repNode y 0) name
        (repSetState y r.idx 2)).releaseHeld node p name).creationTest (repNode y 0) name := by
    unfold State.rbarFlip
    rw [hr, hy]
    dsimp only
    rw [hpend]
    dsimp only
    rw [if_neg (by rw [hlost]; decide), if_neg hflip, if_neg (fun h => h.2 hver), if_pos hst]
  rw [hx, releaseHeld_idle (fun m hm => by rw [repl_legChange _ _ _ (repl_setRepl ..)] at hm; rw [← Option.some.inj hm]; rfl)]
  have hf := unmoved_state (k := 2) hidx (by decide)
  have h2 := ((legKeeps_creationTest hf ((s.setRepl node p name { newRepl y r.idx with ver := v, tomb := r.tomb, reborn := r.tomb.isSome }).legChange (repNode y 0) name
        (repSetState y r.idx 2)) (repNode y 0) name).leg (repNode y 0) name).trans (legend_legChange hf ..)
  obtain ⟨z, hz, hd⟩ := Option.map_eq_some_iff.mp h2
  rw [hz]
  refine congrArg some ((of_decide_eq_true (hd.trans (decide_eq_true ?_))))
  exact entF_entSet_same y (64 + 4 * r.idx) 0 2 2

theorem replicaFree_frees (hst : repState y r.idx = 3) (hidx : r.idx < 16) (hbwd : r.bwd = 0) (hj : r.joined = true) (ht : r.tomb = none) (hc : entCreate y = 0) :
    ((s.replicaFree node p name).legend (repNode y 0) name).map (fun z => repState z r.idx) = some 0 ∧
      ((s.replicaFree node p name).repl node p name).map (fun z => z.tomb) = some (some (entEpoch y + 1)) := by
  have hu : s.replicaFree node p name = (((((s.setRepl node p name { r with tomb := some (entEpoch y + 1), reborn := false }).addDonor (repNode y 0) name y r.idx).legChange
      (repNode y 0) name (repSet y r.idx 0 0 0 0)).enq .tombstoneEnd { node := node, n := p, m := name }).creationTest (repNode y 0) name) := by
    unfold State.replicaFree
    rw [hr, hy]
    dsimp only
    rw [if_neg]
    unfold Repl.gone
    rw [ht, hj]
    simp [hst, hbwd]
  have hcr : entCreate (repSet y r.idx 0 0 0 0) = 0 := (entF_entSet_other y (64 + 4 * r.idx) 0 32 _ 20 0 16 (by omega)).trans hc
  rw [hu, creationTest_idle]
  · refine ⟨?_, ?_⟩
    · rw [legend_congr (enq_dies ..), legend_congr (dies_legChange ..), legend_setLegend_same]
      refine congrArg some ?_
      dsimp only
      unfold repState
      rw [entF_stored _ (64 + 4 * r.idx) 0 2 (by omega), entF_entSet_other _ 4 0 32 _ (64 + 4 * r.idx) 0 2 (by omega)]
      exact repState_repSet y r.idx 0 0 0 0
    · rw [repl_congr (enq_polders ..), repl_legChange _ _ _ ((repl_congr (addDonor_polders ..) ..).trans (repl_setRepl ..))]
      rfl
  · rw [legend_congr (enq_dies ..), legend_legChange Names.unmoved_create, hcr]

theorem replicaFree_waits (h : r.joined = false ∨ r.bwd ≠ 0) : s.replicaFree node p name = s := by
  unfold State.replicaFree
  rw [hr, hy]
  dsimp only
  rw [if_pos]
  rcases h with h | h
  · exact Or.inr (Or.inr (Or.inl (by rw [h]; rfl)))
  · exact Or.inr (Or.inl h)

/-- The partial's copy of a join. -/
def joinedCopy (s : State) (node p name y idx : Nat) : Option State :=
  s.hwCopy node p 2 (2 ^ 29 + entGoff y) (entWpa y + 65536 * entWlen y + idx * entGlen y) (entGlen y / 64) (mLocal (entJbar y)) (repNode y 0) (repPolder y 0) name

section
variable (hreq : r.joinReq ≠ 0) (hbwd : r.bwd = 0)
include hreq hbwd

theorem joinCopy_issues {u : State} (hc : joinedCopy s node p name y r.idx = some u) :
    (s.joinCopy node p name false).nextCmd = s.nextCmd + 1 ∧ ((s.joinCopy node p name false).repl node p name).map (fun z => z.joinReq) = some (r.joinReq - 1) := by
  have hx : s.joinCopy node p name false = if r.joinReq ≤ 1 then u.setRepl node p name { r with joinReq := r.joinReq - 1, whole := true }
      else (u.setRepl node p name { r with joinReq := r.joinReq - 1, whole := true }).enq .joinCopy { node := node, n := p, m := name } := by
    unfold State.joinCopy
    rw [hr, hy]
    dsimp only
    rw [if_neg Bool.false_ne_true, if_neg (by rintro (h | h); exacts [hreq h, h hbwd])]
    unfold joinedCopy at hc
    rw [hc]
  have hn := hwCopy_nextCmd hc
  have hrepl := repl_setRepl u node p name { r with joinReq := r.joinReq - 1, whole := true }
  rw [hx]
  split
  · exact ⟨hn, congrArg (Option.map _) hrepl⟩
  · exact ⟨hn, congrArg (Option.map _) ((repl_congr (enq_polders ..) ..).trans hrepl)⟩

theorem joinCopy_waits (hc : joinedCopy s node p name y r.idx = none) :
    (s.joinCopy node p name false).polders = s.polders ∧ (s.joinCopy node p name false).mem = s.mem := by
  have hx : s.joinCopy node p name false = s.enqOnce .joinCopy { node := node, n := p, m := name } := by
    unfold State.joinCopy
    rw [hr, hy]
    dsimp only
    rw [if_neg Bool.false_ne_true, if_neg (by rintro (h | h); exacts [hreq h, h hbwd])]
    unfold joinedCopy at hc
    rw [hc]
  rw [hx]
  exact enqOnce_keeps ..

end

theorem joinCopy_done (hst : repState y r.idx = 3) :
    ((s.joinCopy node p name true).repl node p name).map (fun z => z.joined) = some r.whole ∧ (s.joinCopy node p name true).mem = s.mem := by
  have hx : s.joinCopy node p name true = (s.setRepl node p name { r with joined := r.whole }).enq .replicaFree { node := node, n := p, m := name } := by
    unfold State.joinCopy
    rw [hr, hy]
    dsimp only
    rw [if_pos rfl, if_pos hst]
  rw [hx]
  exact ⟨congrArg (Option.map _) ((repl_congr (enq_polders ..) ..).trans (repl_setRepl ..)), rfl⟩

end

variable (hy : s.legend node name = some y)
include hy

section
variable {n : Nat} (ht : r.tomb = some n) (hacks : ∀ p ∈ s.domain, n ≤ tget 0 (s.die (repNode y 0) (homeDieOf name)).acks (name, p))
include ht hacks

theorem tombstoneEnd_eq : s.tombstoneEnd node p name =
    if (r.pend.isSome || r.reborn) = true then s.setRepl node p name { r with tomb := none, reborn := false } else s.delRepl node p name := by
  unfold State.tombstoneEnd
  rw [hr, hy]
  dsimp only
  rw [ht]
  exact if_pos (List.all_eq_true.mpr fun k hk => decide_eq_true (hacks k hk))

theorem tombstoneEnd_ends (hp : r.pend = none) (hb : r.reborn = false) :
    (s.tombstoneEnd node p name).repl node p name = none ∧ (s.tombstoneEnd node p name).mem = s.mem := by
  rw [tombstoneEnd_eq hr hy ht hacks, if_neg (by rw [hp, hb]; decide)]
  refine ⟨?_, rfl⟩
  unfold State.repl State.delRepl
  rw [setPolder_polder_same]
  exact tfind_tdel_same ..

theorem tombstoneEnd_leaves (h : r.pend ≠ none ∨ r.reborn = true) :
    (s.tombstoneEnd node p name).repl node p name = some { r with tomb := none, reborn := false } ∧ (s.tombstoneEnd node p name).mem = s.mem := by
  rw [tombstoneEnd_eq hr hy ht hacks, if_pos]
  · exact ⟨repl_setRepl .., rfl⟩
  · rw [Bool.or_eq_true, Option.isSome_iff_ne_none]
    exact h

end
end

/-! ## A token arrives -/

theorem mem_of_tfind {κ α : Type} [DecidableEq κ] {k : κ} {a : α} : ∀ {l : Tab κ α}, tfind l k = some a → (k, a) ∈ l
  | [], h => by cases h
  | (k', b) :: l, h => by
    unfold tfind at h
    split at h
    next hk =>
      rw [← hk, Option.some.inj h]
      exact List.mem_cons_self ..
    next => exact List.mem_cons_of_mem _ (mem_of_tfind h)

theorem foldl_fixed {α β : Type} {f : β → α → β} {b : β} : ∀ {l : List α}, (∀ a ∈ l, f b a = b) → l.foldl f b = b
  | [], _ => rfl
  | a :: l, h => by
    rw [List.foldl_cons, h a (List.mem_cons_self ..)]
    exact foldl_fixed fun x hx => h x (List.mem_cons_of_mem _ hx)

variable {k : Token}

/-- The one token under way is taken up, where the polder's managers hold none. -/
theorem tokenArrival_alone {u : State} (hk : s.tokens = [k]) (hheld : ∀ x ∈ (s.polder k.node k.polder).repls, x.2.heldToks = [])
    (ha : ({ s with tokens := [] } : State).arriveToken k = some u) : s.tokenArrival k.node k.polder = u := by
  have hidle : (s.polder k.node k.polder).repls.foldl (fun (s : State) r => s.releaseHeld k.node k.polder r.1) s = s :=
    foldl_fixed fun x _ => releaseHeld_idle fun m hm => hheld (x.1, m) (mem_of_tfind hm)
  unfold State.tokenArrival
  rw [hidle]
  dsimp only
  rw [hk]
  have hpick : s.tokenPick k.node k.polder [k] [] [] = some u := by
    unfold State.tokenPick
    rw [if_neg (by rintro (h | h) <;> exact h rfl), if_neg (by simp)]
    rw [show ({ s with tokens := [] ++ [] } : State).arriveToken k = some u from ha]
  rw [hpick]

theorem arriveToken_unknown (h : s.repl k.node k.polder k.name = none) : s.arriveToken k = some ((s.countDup k.node k.polder).accept k) := by
  have hcb : s.creditBack k.node k.polder k.name k.part = s := by
    unfold State.creditBack
    unfold State.repl at h
    dsimp only
    rw [h]
  unfold State.repl at h
  unfold State.arriveToken
  dsimp only
  rw [hcb, h]
  exact ite_self _

/-- What a write of the polder's own slot manager leaves as it is. -/
theorem spadWrite_keeps (s : State) (node p la n v c : Nat) : (s.spadWrite node p la n v node p c).polders = s.polders ∧
    (s.spadWrite node p la n v node p c).tokens = s.tokens ∧ (s.spadWrite node p la n v node p c).accepts = s.accepts ∧
    (s.spadWrite node p la n v node p c).results = s.results := by
  unfold State.spadWrite
  dsimp only
  rw [if_pos ⟨rfl, rfl⟩, Barriers.portSeen_eq]
  exact ⟨rfl, rfl, rfl, rfl⟩

theorem mInc_keeps (s : State) (node p o : Nat) :
    (s.mInc node p o).polders = s.polders ∧ (s.mInc node p o).tokens = s.tokens ∧ (s.mInc node p o).accepts = s.accepts := by
  unfold State.mInc
  dsimp only
  split
  · exact ⟨rfl, rfl, rfl⟩
  · obtain ⟨h1, h2, h3, -⟩ := spadWrite_keeps s node p (mLocal o) 4 ((memRead s.mem (spadAddr node p (mLocal o)) 4 + 1) % 2 ^ 32) 0x7FF
    exact ⟨h1, h2, h3⟩

/-- A word of M-space that rises leaves the bytes elsewhere. -/
theorem mInc_elsewhere (hwf : Memory.wf s.mem = true) {p o a n : Nat} (h : a + n ≤ spadAddr node p (mLocal o) ∨ spadAddr node p (mLocal o) + 4 ≤ a) :
    memRead (s.mInc node p o).mem a n = memRead s.mem a n := by
  unfold State.mInc
  dsimp only
  split
  · rfl
  · rw [mem_spadWrite]
    exact memRead_memWrite_other _ _ _ _ _ _ hwf h

theorem mInc_rises (hwf : Memory.wf s.mem = true) {p o : Nat} (hl : s.lostWordIn (spadAddr node p (mLocal o)) 4 = false) :
    memRead (s.mInc node p o).mem (spadAddr node p (mLocal o)) 4 = (memRead s.mem (spadAddr node p (mLocal o)) 4 + 1) % 2 ^ 32 := by
  unfold State.mInc
  dsimp only
  rw [if_neg (by rw [hl]; decide), mem_spadWrite, memRead_memWrite_same _ _ _ _ hwf]
  exact Nat.mod_mod _ _

/-- The row and its tag are written in slot `n` of the manager, and the arrival count rises. -/
def landed (s : State) (k : Token) (y n : Nat) (r : Repl) : State :=
  let s := s.spadWrite k.node k.polder (entSabase y + entSlotBytes y * n) k.bytes k.data k.node k.polder 0x7FF
  let s := s.spadWrite k.node k.polder (mLocal (entTgbase y + 16 * n)) 16 (tagWord0 k r.idx r.ver + tagWord1 k * 2 ^ 64) k.node k.polder 0x7FF
  let s := s.setRepl k.node k.polder k.name { r with slots := tset r.slots n ⟨[k.row], k.bytes, true⟩ }
  s.mInc k.node k.polder (entAcnt y)

section
variable {y n : Nat} {r : Repl}

theorem landed_keeps (s : State) (k : Token) (y n : Nat) (r : Repl) :
    (landed s k y n r).polders = (s.setRepl k.node k.polder k.name { r with slots := tset r.slots n ⟨[k.row], k.bytes, true⟩ }).polders ∧
      (landed s k y n r).tokens = s.tokens ∧ (landed s k y n r).accepts = s.accepts := by
  obtain ⟨h1, h2, h3, -⟩ := spadWrite_keeps s k.node k.polder (entSabase y + entSlotBytes y * n) k.bytes k.data 0x7FF
  obtain ⟨h4, h5, h6, -⟩ := spadWrite_keeps (s.spadWrite k.node k.polder (entSabase y + entSlotBytes y * n) k.bytes k.data k.node k.polder 0x7FF) k.node k.polder
    (mLocal (entTgbase y + 16 * n)) 16 (tagWord0 k r.idx r.ver + tagWord1 k * 2 ^ 64) 0x7FF
  unfold landed
  obtain ⟨h7, h8, h9⟩ := mInc_keeps (((s.spadWrite k.node k.polder (entSabase y + entSlotBytes y * n) k.bytes k.data k.node k.polder 0x7FF).spadWrite k.node k.polder
    (mLocal (entTgbase y + 16 * n)) 16 (tagWord0 k r.idx r.ver + tagWord1 k * 2 ^ 64) k.node k.polder 0x7FF).setRepl k.node k.polder k.name
      { r with slots := tset r.slots n ⟨[k.row], k.bytes, true⟩ }) k.node k.polder (entAcnt y)
  refine ⟨h7.trans ?_, (h8.trans h5).trans h2, (h9.trans h6).trans h3⟩
  unfold State.setRepl State.setPolder State.polder
  dsimp only
  rw [h4, h1]

/-- The row stands in its slot: the tag and the count lie in another space. -/
theorem landed_row (hwf : Memory.wf s.mem = true) (hfit : entSabase y + entSlotBytes y * n + k.bytes ≤ spaceSize 0) :
    memRead (landed s k y n r).mem (spadAddr k.node k.polder (entSabase y + entSlotBytes y * n)) k.bytes = k.data % 256 ^ k.bytes := by
  have hbelow : ∀ o, spadAddr k.node k.polder (entSabase y + entSlotBytes y * n) + k.bytes ≤ spadAddr k.node k.polder (mLocal o) := by
    intro o
    rw [show spaceSize 0 = 8 * 2 ^ 20 from rfl] at hfit
    unfold spadAddr mLocal
    omega
  unfold landed
  dsimp only
  have hm1 : (s.spadWrite k.node k.polder (entSabase y + entSlotBytes y * n) k.bytes k.data k.node k.polder 0x7FF).mem =
      memWrite s.mem (spadAddr k.node k.polder (entSabase y + entSlotBytes y * n)) k.bytes k.data := mem_spadWrite ..
  have hw1 := wf_memWrite s.mem (spadAddr k.node k.polder (entSabase y + entSlotBytes y * n)) k.bytes k.data hwf
  rw [mInc_elsewhere (by rw [Canon.mem_setRepl, mem_spadWrite, hm1]; exact wf_memWrite _ _ _ _ hw1) (Or.inl (hbelow _)), Canon.mem_setRepl, mem_spadWrite, hm1,
    memRead_memWrite_other _ _ _ _ _ _ hw1 (Or.inl (hbelow _)), memRead_memWrite_same _ _ _ _ hwf]

theorem landToken_tag (hbwd : k.bwd = true) (hpart : k.part ≠ 65) (hperm : entPerm y = false)
    (hl : s.lostWordIn (spadAddr k.node k.polder (mLocal (entAcnt y))) 4 = false)
    (hn : r.freeFrom (memRead s.mem (spadAddr k.node k.polder (mLocal (entAcnt y))) 4 % entNslot y) (entNslot y) = some n) :
    s.landToken k y r = some ((((landed s k y n r).setRepl k.node k.polder k.name
      { r with slots := tset r.slots n ⟨[k.row], k.bytes, true⟩, bwd := r.bwd + 1, whole := false, joined := false }).setMark k).accept k) := by
  have hland : s.landTag k y r = some (landed s k y n r) := by
    unfold State.landTag
    dsimp only
    rw [if_neg (by rw [hl]; decide), hn]
    rfl
  unfold State.landToken
  rw [if_neg (by rw [hbwd]; exact fun h => Bool.false_ne_true h.1), if_neg (by rw [hperm]; decide), hland]
  dsimp only
  rw [if_pos hbwd, repl_congr (landed_keeps ..).1, repl_setRepl]
  dsimp only
  rw [if_neg hpart]

theorem setMark_keeps (s : State) (k : Token) : (s.setMark k).tokens = s.tokens ∧ (s.setMark k).accepts = s.accepts ∧ (s.setMark k).mem = s.mem ∧
    ∀ n p m, (s.setMark k).repl n p m = s.repl n p m := by
  unfold State.setMark
  dsimp only
  split
  · refine ⟨rfl, rfl, rfl, fun n p m => ?_⟩
    unfold State.repl State.setPolder State.polder
    dsimp only
    by_cases hk : (n, p) = (k.node, k.polder)
    · rw [hk, tget_tset_same]
    · rw [tget_tset_other _ _ _ _ _ hk]
  · exact ⟨rfl, rfl, rfl, fun _ _ _ => rfl⟩

theorem setMark_marks (h : newerSeq (s.polder k.node k.polder) k = true) : tfind ((s.setMark k).polder k.node k.polder).marks k.sender = some k.seq := by
  unfold State.setMark
  dsimp only
  rw [if_pos h, setPolder_polder_same]
  exact tfind_tset_same ..

theorem newerSeq_congr {q q' : Polder} (h : q'.marks = q.marks) (k : Token) : newerSeq q' k = newerSeq q k := by
  unfold newerSeq
  rw [h]

theorem marks_setRepl (s : State) (n p m : Nat) (r : Repl) : ((s.setRepl n p m r).polder n p).marks = (s.polder n p).marks := by
  unfold State.setRepl
  rw [setPolder_polder_same]

/-- A backward token of a newer SEQ, whose slot is free and in A-space, lands: row, mark, count and acceptance. -/
theorem tokenArrival_lands (hwf : Memory.wf s.mem = true) (hk : s.tokens = [k]) (hheld : ∀ x ∈ (s.polder k.node k.polder).repls, x.2.heldToks = []) (hbwd : k.bwd = true)
    (hpart : k.part ≠ 65) (hseq : newerSeq (s.polder k.node k.polder) k = true) (hr : s.repl k.node k.polder k.name = some r) (hy : s.legend k.node k.name = some y)
    (htomb : r.tomb = none) (hperm : entPerm y = false) (hl : s.lostWordIn (spadAddr k.node k.polder (mLocal (entAcnt y))) 4 = false)
    (hn : r.freeFrom (memRead s.mem (spadAddr k.node k.polder (mLocal (entAcnt y))) 4 % entNslot y) (entNslot y) = some n)
    (hfit : entSabase y + entSlotBytes y * n + k.bytes ≤ spaceSize 0) :
    (s.tokenArrival k.node k.polder).tokens = [] ∧ (s.tokenArrival k.node k.polder).accepts = s.accepts ++ [(k.sender, k.seq, k.node)] ∧
      tfind ((s.tokenArrival k.node k.polder).polder k.node k.polder).marks k.sender = some k.seq ∧
      memRead (s.tokenArrival k.node k.polder).mem (spadAddr k.node k.polder (entSabase y + entSlotBytes y * n)) k.bytes = k.data % 256 ^ k.bytes ∧
      ((s.tokenArrival k.node k.polder).repl k.node k.polder k.name).map (fun z => z.bwd) = some (r.bwd + 1) := by
  have hu := landToken_tag (s := { s with tokens := [] }) hbwd hpart hperm hl hn
  have ha : ({ s with tokens := [] } : State).arriveToken k = ({ s with tokens := [] } : State).landToken k y r := by
    have hr' : tfind (({ s with tokens := [] } : State).polder k.node k.polder).repls k.name = some r := hr
    have hy' : ({ s with tokens := [] } : State).legend k.node k.name = some y := hy
    have hseq' : newerSeq (({ s with tokens := [] } : State).polder k.node k.polder) k = true := hseq
    unfold State.arriveToken
    dsimp only
    rw [if_neg (by rw [hseq']; exact fun h => Bool.false_ne_true h.2), hr', hy']
    dsimp only
    rw [if_neg]
    rintro (h | h)
    · unfold Repl.buried at h
      rw [htomb] at h
      cases h
    · rw [hbwd] at h
      exact Bool.false_ne_true h.1
  rw [tokenArrival_alone hk hheld (ha.trans hu)]
  obtain ⟨h1, h2, h3⟩ := landed_keeps { s with tokens := [] } k y n r
  obtain ⟨h4, h5, h6, h7⟩ := setMark_keeps ((landed { s with tokens := [] } k y n r).setRepl k.node k.polder k.name
      { r with slots := tset r.slots n ⟨[k.row], k.bytes, true⟩, bwd := r.bwd + 1, whole := false, joined := false }) k
  refine ⟨h4.trans h2, ?_, ?_, ?_, ?_⟩
  · exact congrArg (· ++ [(k.sender, k.seq, k.node)]) (h5.trans h3)
  · refine setMark_marks ((newerSeq_congr ?_ k).trans hseq)
    rw [marks_setRepl]
    unfold State.polder
    rw [h1]
    exact marks_setRepl ..
  · refine Eq.trans ?_ (landed_row (s := { s with tokens := [] }) (r := r) hwf hfit)
    exact congrArg (fun m => memRead m _ _) (h6.trans (Canon.mem_setRepl ..))
  · exact congrArg (Option.map _) ((h7 k.node k.polder k.name).trans (repl_setRepl ..))

end

theorem tokenArrival_unknown (hk : s.tokens = [k]) (hheld : ∀ x ∈ (s.polder k.node k.polder).repls, x.2.heldToks = []) (hr : s.repl k.node k.polder k.name = none) :
    (s.tokenArrival k.node k.polder).tokens = [] ∧ (s.tokenArrival k.node k.polder).accepts = s.accepts ++ [(k.sender, k.seq, k.node)] ∧
      ((s.tokenArrival k.node k.polder).polder k.node k.polder).dupcnt = countUp (s.polder k.node k.polder).dupcnt ∧ (s.tokenArrival k.node k.polder).mem = s.mem := by
  rw [tokenArrival_alone hk hheld (arriveToken_unknown (s := { s with tokens := [] }) hr)]
  refine ⟨rfl, rfl, ?_, rfl⟩
  exact congrArg Polder.dupcnt (setPolder_polder_same ..)

/-! ## Acceptance, credits and time-outs -/

section
variable {id : CtxId} {w : TokWait} (hw : (s.ctx id).tok = some w)
include hw

theorem tokenAcceptance_completes {n : Nat} {l : List (CtxId × BitVec 32 × Nat)} (ha : s.accepts = (id, w.seq, n) :: l) (hst : w.stage = 2) :
    s.tokenAcceptance id = ({ s with accepts := l } : State).setCtx id { s.ctx id with tok := some { w with stage := 3 } } := by
  have hfind : s.accepts.find? (fun x => x.1 == id) = some (id, w.seq, n) := by
    rw [ha]
    exact List.find?_cons_of_pos (by simp)
  have htake : State.tokenAcceptance.take (id, w.seq, n) s.accepts = l := by
    rw [ha]
    exact if_pos rfl
  unfold State.tokenAcceptance
  rw [hfind]
  dsimp only
  rw [htake, show ({ s with accepts := l } : State).ctx id = s.ctx id from rfl, hw]
  exact if_pos ⟨hst, rfl⟩

theorem slotCredit_grants {r r' : Repl} {y k : Nat} (hst : w.stage = 0) (hexp : (s.ctx id).expired = false) (hr : s.repl w.node w.polder w.name = some r)
    (hy : s.legend w.node w.name = some y) (hg : r.grant (partOf y id.node id.core) = some (k, r')) :
    s.slotCredit id = (s.setRepl w.node w.polder w.name r').setCtx id { s.ctx id with tok := some { w with stage := 1, part := k } } := by
  unfold State.slotCredit
  dsimp only
  rw [hw]
  dsimp only
  rw [if_neg (by rw [hexp]; rintro (h | h); exacts [h hst, Bool.false_ne_true h]), hr, hy]
  dsimp only
  rw [hg]

theorem tokTimeout_expires (hst : w.stage = 0) : s.tokTimeout id = s.setCtx id { s.ctx id with expired := true } := by
  unfold State.tokTimeout
  dsimp only
  rw [hw]
  exact if_pos hst

end

theorem pageTimeout_closes (hwf : Memory.wf s.mem = true) {p j y : Nat} {r : Repl} {b : SlotSt} (hr : s.repl node p name = some r) (hy : s.legend node name = some y)
    (hb : tfind r.slots j = some b) (hopen : b.closed = false) (hl : s.lostWordIn (spadAddr node p (mLocal (entAcnt y))) 4 = false) :
    memRead (s.pageTimeout node p name j).mem (spadAddr node p (mLocal (entAcnt y))) 4 = (memRead s.mem (spadAddr node p (mLocal (entAcnt y))) 4 + 1) % 2 ^ 32 ∧
      ((s.pageTimeout node p name j).repl node p name).map (fun z => (tfind z.slots j).map (fun b => b.closed)) = some (some true) := by
  have hx : s.pageTimeout node p name j = (s.setRepl node p name { r with slots := tset r.slots j { b with closed := true } }).mInc node p (entAcnt y) := by
    unfold State.pageTimeout State.pageClose
    rw [hy]
    dsimp only
    rw [hr]
    dsimp only
    rw [hb]
    exact if_neg (by rw [hopen]; decide)
  rw [hx]
  refine ⟨mInc_rises (s := s.setRepl node p name _) hwf hl, ?_⟩
  rw [repl_congr (mInc_keeps ..).1, repl_setRepl, Option.map_some, tfind_tset_same]
  rfl

/-! ## Result rows -/

theorem lostWords_spadWrite (s : State) (node p la n v a b c : Nat) :
    (s.spadWrite node p la n v a b c).lostWords = (({ s with mem := memWrite s.mem (spadAddr node p la) n v } : State).lostWordWrite (spadAddr node p la) n).lostWords := by
  unfold State.spadWrite State.trace
  dsimp only
  rw [Barriers.portSeen_eq]
  split
  · rfl
  · split <;> rfl

theorem results_barFault (s : State) (node p la : Nat) : (s.barFault node p la).results = s.results := by
  unfold State.barFault
  dsimp only
  rw [Barriers.portSeen_eq]
  rfl

theorem results_barPiece (s : State) (node p la n scope : Nat) : (s.barPiece node p la n scope).results = s.results := by
  unfold State.barPiece State.barAdd
  dsimp only
  split
  · exact results_barFault ..
  · unfold State.barSet
    dsimp only
    rw [Barriers.portSeen_eq]
    rfl

theorem results_spadWrite (s : State) (node p la n v a b c : Nat) : (s.spadWrite node p la n v a b c).results = s.results := by
  unfold State.spadWrite State.trace
  dsimp only
  rw [Barriers.portSeen_eq]
  split
  · rfl
  · split <;> rfl

section
variable {r : ResultRow} (hr : s.results = [r])
include hr

/-- The row is off the list and counted down at its core. -/
theorem resultLanding_eq : s.resultLanding r.node (r.core / 8) =
    let u := ({ s with results := [] } : State).setCore r.node r.core ((s.core r.node r.core).tokDown r.key)
    if spaceSize 0 < r.src + r.bytes then u.barFault r.node (r.core / 8) r.bar
    else (u.spadWrite r.node (r.core / 8) r.src r.bytes r.data r.fromNode (r.fromCore / 8) r.fromCore).barPiece r.node (r.core / 8) r.bar r.bytes 6 := by
  have hfind : s.results.find? (fun x => x.node == r.node && x.core / 8 == r.core / 8) = some r := by
    rw [hr]
    exact List.find?_cons_of_pos (by simp)
  have htake : State.resultLanding.take r s.results = [] := by
    rw [hr]
    exact if_pos rfl
  unfold State.resultLanding
  rw [hfind]
  dsimp only
  rw [htake]
  rfl

theorem resultLanding_lands (hfit : r.src + r.bytes ≤ spaceSize 0) : (s.resultLanding r.node (r.core / 8)).results = [] ∧
    (s.resultLanding r.node (r.core / 8)).mem = ((s.spadWrite r.node (r.core / 8) r.src r.bytes r.data r.fromNode (r.fromCore / 8) r.fromCore).barPiece r.node (r.core / 8)
      r.bar r.bytes 6).mem := by
  rw [resultLanding_eq hr]
  dsimp only
  rw [if_neg (by omega)]
  refine ⟨(results_barPiece ..).trans (results_spadWrite ..), CollectiveSteps.mem_barPiece_congr ?_ ?_ ..⟩
  · rw [mem_spadWrite, mem_spadWrite]
    rfl
  · rw [lostWords_spadWrite, lostWords_spadWrite]
    rfl

theorem resultLanding_faults (hout : spaceSize 0 < r.src + r.bytes) : (s.resultLanding r.node (r.core / 8)).results = [] ∧
    (s.resultLanding r.node (r.core / 8)).mem = (s.barFault r.node (r.core / 8) r.bar).mem := by
  rw [resultLanding_eq hr]
  dsimp only
  rw [if_pos hout]
  refine ⟨results_barFault .., ?_⟩
  rw [EngineSteps.mem_barFault, EngineSteps.mem_barFault]
  rfl

end

/-- Settles O58. -/
theorem eventsOfLegendsAndTokens : Obligations.EventsOfLegendsAndTokens := by
  unfold Obligations.EventsOfLegendsAndTokens
  intro s hwf
  refine ⟨⟨fun hd hn hr hname hfree hroom => completes_of rfl (legInstall_installs hd hn hr hname hfree hroom), fun h => completes_of rfl (legInstall_refused h)⟩,
    fun y hd hy hown => completes_of rfl (legRemove_removes hd hy hown), fun y hy => completes_of rfl (legRead_reads hy), fun h => completes_of rfl (legRead_missing h),
    fun x hu hnew => ⟨fun hf => completes_of rfl (legendUpdate_applies hu hnew hf), fun hf => completes_of rfl (legendUpdate_fenced hu hf)⟩,
    fun y hy hold => ⟨fun hf => completes_of rfl ⟨epochAck_acks hy hold hf, Canon.mem_epochAck ..⟩, fun hf => completes_of rfl (epochAck_fenced hy hold hf)⟩,
    fun y hy hown hret => completes_of rfl (windowEnd_clears hy hown hret), fun r y hflag hr hy => ⟨?_, ?_, ?_, ?_⟩, fun r y hflag hr hy hst => ?_,
    fun r y n hr hy ht hacks => ⟨fun hp hb => completes_of rfl (tombstoneEnd_ends hr hy ht hacks hp hb), fun h => completes_of rfl (tombstoneEnd_leaves hr hy ht hacks h)⟩,
    fun k hk hnode hp hheld => ⟨?_, ?_⟩, fun w hw => ⟨?_, ?_, ?_⟩, fun r y k hr hy hb hopen => fun hl => completes_of rfl (pageTimeout_closes hwf hr hy hb hopen hl),
    fun r hr hnode hp => ⟨?_, ?_⟩, completes_of rfl ⟨?_, rfl⟩⟩
  · intro v ph hpend hlost hflip hidx hst hver
    have hx : exec .rbarFlip s = .next (s.rbarFlip s.ev.node s.ev.n s.ev.m) := congrArg Host.Outcome.next (if_neg (by rw [hflag]; decide))
    exact completes_of hx (rbarFlip_serves hr hy hpend hlost hflip hidx hst hver)
  · exact fun hst hidx hbwd hj ht hc => completes_of rfl (replicaFree_frees hr hy hst hidx hbwd hj ht hc)
  · exact fun h => completes_of rfl (replicaFree_waits hr hy h)
  · have hx : exec .joinCopy s = .next (s.joinCopy s.ev.node s.ev.n s.ev.m false) := congrArg (fun b => Host.Outcome.next (s.joinCopy s.ev.node s.ev.n s.ev.m b)) hflag
    intro hreq hbwd
    refine ⟨fun h => ?_, fun h => completes_of hx (joinCopy_waits hr hy hreq hbwd h)⟩
    obtain ⟨u, hu⟩ := Option.isSome_iff_exists.mp h
    exact completes_of hx (joinCopy_issues hr hy hreq hbwd hu)
  · have hx : exec .joinCopy s = .next (s.joinCopy s.ev.node s.ev.n s.ev.m true) := congrArg (fun b => Host.Outcome.next (s.joinCopy s.ev.node s.ev.n s.ev.m b)) hflag
    exact completes_of hx (joinCopy_done hr hy hst)
  · intro hr
    rw [← hnode, ← hp] at hheld hr ⊢
    exact completes_of (congrArg Host.Outcome.next (by rw [hnode, hp])) (tokenArrival_unknown hk hheld hr)
  · intro r y n hbwd hpart hseq hr hy htomb hperm hl hn hfit
    rw [← hnode, ← hp] at hheld hseq hr hl hn ⊢
    rw [← hnode] at hy
    exact completes_of (congrArg Host.Outcome.next (by rw [hnode, hp])) (tokenArrival_lands hwf hk hheld hbwd hpart hseq hr hy htomb hperm hl hn hfit)
  · exact fun n l ha hst => completes_of (congrArg Host.Outcome.next (tokenAcceptance_completes hw ha hst)) ⟨rfl, setCtx_ctx_same .., rfl⟩
  · exact fun r r' y k hst hexp hr hy hg => completes_of (congrArg Host.Outcome.next (slotCredit_grants hw hst hexp hr hy hg)) ⟨repl_setRepl .., setCtx_ctx_same .., rfl⟩
  · exact fun hst => completes_of (congrArg Host.Outcome.next (tokTimeout_expires hw hst)) ⟨setCtx_ctx_same .., rfl⟩
  · intro hfit
    rw [← hnode, ← hp]
    exact completes_of (congrArg Host.Outcome.next (by rw [hnode, hp])) (resultLanding_lands hr hfit)
  · intro hout
    rw [← hnode, ← hp]
    exact completes_of (congrArg Host.Outcome.next (by rw [hnode, hp])) (resultLanding_faults hr hout)
  · refine (congrArg (fun q : Polder => tfind q.marks s.ev.id) (setPolder_polder_same ..)).trans ?_
    exact tfind_tdel_same ..

end Sys2Proof.LegendSteps
end

section
/-! What a home's recall and merge leave of the copies of a line (R65, R121, R124). -/

namespace Sys2Proof.HomeCopies
set_option Elab.async false
open Sys2Proof Sys2Proof.Machine Sys2Proof.Safety

/-! ## Tables -/

theorem mem_tset_other {κ α : Type} [DecidableEq κ] {k : κ} {a : α} {e : κ × α} : ∀ {l : Tab κ α}, e ∈ l → e.1 ≠ k → e ∈ tset l k a
  | [], h, _ => by cases h
  | (k', b) :: l, h, hne => by
    unfold tset
    rcases List.mem_cons.mp h with rfl | h
    · rw [if_neg hne]
      exact List.mem_cons_self ..
    · split
      · exact List.mem_cons_of_mem _ h
      · exact List.mem_cons_of_mem _ (mem_tset_other h hne)

/-- An entry of the key that is set is the one that the table finds, or stays behind it. -/
theorem mem_tset_key {κ α : Type} [DecidableEq κ] {k : κ} {a b : α} : ∀ {l : Tab κ α}, (k, b) ∈ l → (k, b) ∈ tset l k a ∨ tfind l k = some b
  | [], h => by cases h
  | (k', c) :: l, h => by
    unfold tset tfind
    rcases List.mem_cons.mp h with h | h
    · obtain ⟨rfl, rfl⟩ := Prod.mk.inj h
      exact .inr (if_pos rfl)
    · split
      · exact .inl (List.mem_cons_of_mem _ h)
      · exact (mem_tset_key h).imp (List.mem_cons_of_mem _) id

theorem mem_tset_same {κ α : Type} [DecidableEq κ] {k : κ} {a : α} : ∀ {l : Tab κ α}, (k, a) ∈ tset l k a
  | [] => List.mem_singleton.mpr rfl
  | (k', c) :: l => by
    unfold tset
    split
    · exact List.mem_cons_self ..
    · exact List.mem_cons_of_mem _ mem_tset_same

/-! ## Copies in L1s -/

/-- A registered copy of a physical line under a virtual one. -/
def copyOf (a : BitVec 16) (v pl : Nat) (l : L1Line) : Bool := l.at a v && l.tracked && l.pline == pl

/-- Some entry of the core has a registered copy of the line. -/
def CopyAt (s : State) (n k : Nat) (a : BitVec 16) (v pl : Nat) : Prop := ∃ q, ((n, k), q) ∈ s.cores ∧ q.l1.any (copyOf a v pl) = true

/-- The core has no copy under the virtual line. -/
def Gone (s : State) (n k : Nat) (a : BitVec 16) (v : Nat) : Prop := ∀ l ∈ (s.core n k).l1, l.at a v = false

/-- The cores of a die that the vector of a slice's line, or its object's, names. -/
def lineVector (s : State) (n d : Nat) (x : SliceLine) : BitVec 256 :=
  x.cores ||| (match s.objOn n d x.asid x.vline with | some o => o.vector | none => 0)

theorem mem_copyCores {s : State} {n d k : Nat} {x : SliceLine} :
    k ∈ s.copyCores n d x ↔ k / 256 = d ∧ (lineVector s n d x).getLsbD (k % 256) = true ∧ CopyAt s n k x.asid x.vline x.pline := by
  have hunf : s.copyCores n d x = (s.cores.filter (fun e => e.1.1 == n && e.1.2 / 256 == d && (lineVector s n d x).getLsbD (e.1.2 % 256) &&
    e.2.l1.any (copyOf x.asid x.vline x.pline))).map (fun e => e.1.2) := rfl
  rw [hunf, List.mem_map]
  constructor
  · rintro ⟨⟨⟨n', k'⟩, q⟩, he, rfl⟩
    obtain ⟨hin, hp⟩ := List.mem_filter.mp he
    simp only [Bool.and_eq_true, beq_iff_eq] at hp
    obtain ⟨⟨⟨hn, hd⟩, hv⟩, hc⟩ := hp
    cases hn
    exact ⟨hd, hv, q, hin, hc⟩
  · rintro ⟨hd, hv, q, hin, hc⟩
    refine ⟨((n, k), q), List.mem_filter.mpr ⟨hin, ?_⟩, rfl⟩
    simp only [beq_self_eq_true, Bool.true_and, Bool.and_eq_true, beq_iff_eq]
    exact ⟨⟨hd, hv⟩, hc⟩

theorem core_of_tfind {s : State} {n k : Nat} {q : CoreSt} (h : tfind s.cores (n, k) = some q) : s.core n k = q := by
  unfold State.core tget
  rw [h]
  rfl

/-- A registered copy after another L1 has been written. -/
theorem copyAt_setCore {s : State} {n k n' k' : Nat} {a : BitVec 16} {v pl : Nat} {q : CoreSt} {P : Prop} (h : CopyAt s n k a v pl)
    (hq : (n, k) = (n', k') → (s.core n' k').l1.any (copyOf a v pl) = true → q.l1.any (copyOf a v pl) = true ∨ P) :
    CopyAt (s.setCore n' k' q) n k a v pl ∨ P := by
  obtain ⟨q0, hin, hc⟩ := h
  by_cases hk : (n, k) = (n', k')
  · rw [hk] at hin
    rcases mem_tset_key (a := q) hin with hin | hf
    · exact .inl ⟨q0, hk ▸ hin, hc⟩
    · refine (hq hk (by rw [core_of_tfind hf]; exact hc)).imp (fun hany => ⟨q, ?_, hany⟩) id
      rw [hk]
      exact mem_tset_same
  · exact .inl ⟨q0, mem_tset_other hin hk, hc⟩

theorem copyAt_congr {s t : State} (h : t.cores = s.cores) {n k : Nat} {a : BitVec 16} {v pl : Nat} : CopyAt t n k a v pl ↔ CopyAt s n k a v pl := by
  unfold CopyAt
  rw [h]

/-! ## Slices and cores -/

theorem core_setCore_other (s : State) (n k n' k' : Nat) (q : CoreSt) (h : (n, k) ≠ (n', k')) : (s.setCore n' k' q).core n k = s.core n k := tget_tset_other _ _ _ _ _ h

theorem core_congr {s t : State} (h : t.cores = s.cores) (n k : Nat) : t.core n k = s.core n k := by
  unfold State.core
  rw [h]

theorem slice_congr {s t : State} (h : t.dies = s.dies) (n d i : Nat) : t.slice n d i = s.slice n d i := by
  unfold State.slice State.die
  rw [h]

theorem objs_congr {s t : State} (h : t.dies = s.dies) (n d : Nat) : (t.die n d).objs = (s.die n d).objs := by
  unfold State.die
  rw [h]

theorem slice_setSlice_same (s : State) (n d i : Nat) (x : Slice) : (s.setSlice n d i x).slice n d i = x := by
  unfold State.slice State.setSlice State.die State.setDie DieSt.slice DieSt.setSlice
  rw [tget_tset_same]
  exact tget_tset_same ..

theorem slice_setSlice_other (s : State) (n d i n' d' i' : Nat) (x : Slice) (h : (n, d, i) ≠ (n', d', i')) : (s.setSlice n' d' i' x).slice n d i = s.slice n d i := by
  unfold State.slice State.setSlice State.die State.setDie DieSt.slice DieSt.setSlice
  dsimp only
  by_cases hd : (n, d) = (n', d')
  · obtain ⟨rfl, rfl⟩ := Prod.mk.inj hd
    rw [tget_tset_same]
    exact tget_tset_other _ _ _ _ _ (fun hi => h (by rw [hi]))
  · rw [tget_tset_other _ _ _ _ _ hd]

theorem objs_setSlice (s : State) (n d i n' d' : Nat) (x : Slice) : ((s.setSlice n d i x).die n' d').objs = (s.die n' d').objs := by
  unfold State.setSlice State.die State.setDie DieSt.setSlice
  dsimp only
  by_cases hd : (n', d') = (n, d)
  · rw [hd, tget_tset_same]
  · rw [tget_tset_other _ _ _ _ _ hd]

theorem objOn_congr {s t : State} {n d : Nat} (h : (t.die n d).objs = (s.die n d).objs) (a : BitVec 16) (v : Nat) : t.objOn n d a v = s.objOn n d a v := by
  unfold State.objOn State.objEnt
  rw [h]

theorem at_iff {x : SliceLine} {a : BitVec 16} {v : Nat} : x.at a v = true ↔ x.asid = a ∧ x.vline = v := by
  unfold SliceLine.at
  rw [Bool.and_eq_true, beq_iff_eq, beq_iff_eq]

theorem l1At_iff {x : L1Line} {a : BitVec 16} {v : Nat} : x.at a v = true ↔ x.asid = a ∧ x.vline = v := by
  unfold L1Line.at
  rw [Bool.and_eq_true, beq_iff_eq, beq_iff_eq]

/-- The lines of a slice after one was changed. -/
theorem lines_mapLine (s : State) (n d i : Nat) (a : BitVec 16) (v : Nat) (f : SliceLine → SliceLine) :
    ((s.mapLine n d i a v f).slice n d i).lines = (s.slice n d i).lines.map (fun l => if l.at a v then f l else l) := by
  unfold State.mapLine
  dsimp only
  split
  · rw [slice_setSlice_same]
  next h =>
    refine (List.map_id _).symm.trans (List.map_congr_left fun l hl => ?_)
    rw [if_neg (fun hat => h (List.any_eq_true.mpr ⟨l, hl, hat⟩))]
    rfl

theorem slice_mapLine_other (s : State) (n d i n' d' i' : Nat) (a : BitVec 16) (v : Nat) (f : SliceLine → SliceLine) (h : (n, d, i) ≠ (n', d', i')) :
    (s.mapLine n' d' i' a v f).slice n d i = s.slice n d i := by
  unfold State.mapLine
  dsimp only
  split
  · exact slice_setSlice_other _ _ _ _ _ _ _ _ h
  · rfl

theorem objs_mapLine (s : State) (n d i n' d' : Nat) (a : BitVec 16) (v : Nat) (f : SliceLine → SliceLine) :
    ((s.mapLine n d i a v f).die n' d').objs = (s.die n' d').objs := by
  unfold State.mapLine
  dsimp only
  split
  · exact objs_setSlice ..
  · rfl

theorem cores_mapLine (s : State) (n d i : Nat) (a : BitVec 16) (v : Nat) (f : SliceLine → SliceLine) : (s.mapLine n d i a v f).cores = s.cores := by
  unfold State.mapLine
  dsimp only
  split <;> rfl

theorem dirs_mapLine (s : State) (n d i : Nat) (a : BitVec 16) (v : Nat) (f : SliceLine → SliceLine) : (s.mapLine n d i a v f).dirs = s.dirs := by
  unfold State.mapLine
  dsimp only
  split <;> rfl

theorem foldl_keeps {α : Type} {P : State → Prop} {f : State → α → State} : ∀ {l : List α} {s : State}, P s → (∀ u, ∀ a ∈ l, P u → P (f u a)) → P (l.foldl f s)
  | [], _, h, _ => h
  | a :: l, s, h, hf => foldl_keeps (s := f s a) (l := l) (hf s a (List.mem_cons_self ..) h) (fun u b hb => hf u b (List.mem_cons_of_mem _ hb))

/-- Each element's step reaches its aim, and later steps do not undo it. -/
theorem foldl_each {α : Type} {R : State → State → Prop} (hrefl : ∀ s, R s s) (htrans : ∀ {s t u}, R s t → R t u → R s u) {P : α → State → Prop}
    (hmono : ∀ {a u v}, R u v → P a u → P a v) {f : State → α → State} {s : State} :
    ∀ {l : List α} {u : State}, R s u → (∀ v, ∀ a ∈ l, R s v → R v (f v a) ∧ P a (f v a)) → R u (l.foldl f u) ∧ ∀ a ∈ l, P a (l.foldl f u)
  | [], u, _, _ => ⟨hrefl u, fun _ h => absurd h List.not_mem_nil⟩
  | a :: l, u, hu, hstep => by
    obtain ⟨hr, hp⟩ := hstep u a (List.mem_cons_self ..) hu
    obtain ⟨hr', hp'⟩ := foldl_each hrefl htrans hmono (f := f) (P := P) (u := f u a) (htrans hu hr) (fun v b hb => hstep v b (List.mem_cons_of_mem _ hb)) (l := l)
    refine ⟨htrans hr hr', fun b hb => ?_⟩
    rcases List.mem_cons.mp hb with rfl | hb
    · exact hmono hr' hp
    · exact hp' b hb

/-! ## Recalls -/

/-- The same virtual and physical line. -/
def SameLine (x y : SliceLine) : Prop := x.asid = y.asid ∧ x.vline = y.vline ∧ x.pline = y.pline

/-- Copies go: no L1 and no slice has more than before; a registered copy stays, or its core has none of its virtual line; and no slice but those of `D`
lists less, save cores that have no copy any more. -/
structure Sheds (D : Nat × Nat × Nat → Prop) (s t : State) : Prop where
  l1 : ∀ n k, ∀ l ∈ (t.core n k).l1, l ∈ (s.core n k).l1
  copy : ∀ {n k a v pl}, CopyAt s n k a v pl → CopyAt t n k a v pl ∨ Gone t n k a v
  objs : ∀ n d, (t.die n d).objs = (s.die n d).objs
  lines : ∀ n d i, ∀ x ∈ (t.slice n d i).lines, ∃ y ∈ (s.slice n d i).lines, SameLine y x
  spares : ∀ n d i, ¬ D (n, d, i) → ∀ y ∈ (s.slice n d i).lines, ∃ x ∈ (t.slice n d i).lines, SameLine x y ∧
    ∀ k, k / 256 = d → y.cores.getLsbD (k % 256) = true → x.cores.getLsbD (k % 256) = true ∨ Gone t n k y.asid y.vline

section
variable {D : Nat × Nat × Nat → Prop}

theorem Sheds.gone {s t : State} (h : Sheds D s t) {n k : Nat} {a : BitVec 16} {v : Nat} (hg : Gone s n k a v) : Gone t n k a v := fun l hl => hg l (h.l1 n k l hl)

theorem Sheds.refl (s : State) : Sheds D s s where
  l1 _ _ _ h := h
  copy h := .inl h
  objs _ _ := rfl
  lines _ _ _ x hx := ⟨x, hx, rfl, rfl, rfl⟩
  spares _ _ _ _ y hy := ⟨y, hy, ⟨rfl, rfl, rfl⟩, fun _ _ h => .inl h⟩

theorem Sheds.trans {s t u : State} (h : Sheds D s t) (g : Sheds D t u) : Sheds D s u where
  l1 n k l hl := h.l1 n k l (g.l1 n k l hl)
  copy hc := (h.copy hc).elim g.copy (fun hg => .inr (g.gone hg))
  objs n d := (g.objs n d).trans (h.objs n d)
  lines n d i x hx := by
    obtain ⟨y, hy, h1, h2, h3⟩ := g.lines n d i x hx
    obtain ⟨z, hz, h4, h5, h6⟩ := h.lines n d i y hy
    exact ⟨z, hz, h4.trans h1, h5.trans h2, h6.trans h3⟩
  spares n d i hD y hy := by
    obtain ⟨x, hx, ⟨h1, h2, h3⟩, hv⟩ := h.spares n d i hD y hy
    obtain ⟨z, hz, ⟨h4, h5, h6⟩, hw⟩ := g.spares n d i hD x hx
    refine ⟨z, hz, ⟨h4.trans h1, h5.trans h2, h6.trans h3⟩, fun k hk hb => ?_⟩
    rcases hv k hk hb with hb | hb
    · rw [← h1, ← h2]
      exact hw k hk hb
    · exact .inr (g.gone hb)

theorem Sheds.weaken {E : Nat × Nat × Nat → Prop} {s t : State} (h : Sheds D s t) (hDE : ∀ x, D x → E x) : Sheds E s t :=
  { h with spares := fun n d i hE => h.spares n d i (fun hD => hE (hDE _ hD)) }

theorem sheds_of_same {s t : State} (hc : t.cores = s.cores) (hd : t.dies = s.dies) : Sheds D s t where
  l1 n k l hl := by rwa [core_congr hc] at hl
  copy h := .inl ((copyAt_congr hc).mpr h)
  objs := objs_congr hd
  lines n d i x hx := ⟨x, by rwa [slice_congr hd] at hx, rfl, rfl, rfl⟩
  spares n d i _ y hy := ⟨y, by rwa [slice_congr hd], ⟨rfl, rfl, rfl⟩, fun _ _ h => .inl h⟩

/-- A core that the line's vector names, and that has a copy, is still named, or has none. -/
theorem Sheds.copyCores {s t : State} (h : Sheds D s t) {n d k : Nat} {x y : SliceLine} (hxy : SameLine x y)
    (hv : y.cores.getLsbD (k % 256) = true → x.cores.getLsbD (k % 256) = true ∨ Gone t n k y.asid y.vline) (hk : k ∈ s.copyCores n d y) :
    k ∈ t.copyCores n d x ∨ Gone t n k y.asid y.vline := by
  obtain ⟨h1, h2, h3⟩ := hxy
  obtain ⟨hd, hb, hc⟩ := mem_copyCores.mp hk
  rcases h.copy hc with hc | hg
  · have ho : t.objOn n d x.asid x.vline = s.objOn n d y.asid y.vline := by
      rw [h1, h2]
      exact objOn_congr (h.objs n d) ..
    rw [← h1, ← h2, ← h3] at hc
    unfold lineVector at hb
    rw [BitVec.getLsbD_or, Bool.or_eq_true] at hb
    rcases hb with hb | hb
    · refine (hv hb).imp (fun hb => mem_copyCores.mpr ⟨hd, ?_, hc⟩) id
      unfold lineVector
      rw [BitVec.getLsbD_or, hb]
      rfl
    · refine .inl (mem_copyCores.mpr ⟨hd, ?_, hc⟩)
      unfold lineVector
      rw [ho, BitVec.getLsbD_or, hb, Bool.or_true]
  · exact .inr hg

end

/-! ### Dropping a core's copy and a slice's line -/

theorem sheds_setCore {D : Nat × Nat × Nat → Prop} (s : State) (n k : Nat) (a : BitVec 16) (v : Nat) {q : CoreSt}
    (hq : q.l1 = (s.core n k).l1.filter (fun x => !x.at a v)) : Sheds D s (s.setCore n k q) ∧ Gone (s.setCore n k q) n k a v := by
  have hgone : Gone (s.setCore n k q) n k a v := by
    intro l hl
    rw [setCore_core_same, hq] at hl
    simpa using (List.mem_filter.mp hl).2
  refine ⟨⟨?_, ?_, fun _ _ => rfl, fun _ _ _ x hx => ⟨x, hx, rfl, rfl, rfl⟩, fun _ _ _ _ y hy => ⟨y, hy, ⟨rfl, rfl, rfl⟩, fun _ _ h => .inl h⟩⟩, hgone⟩
  · intro n' k' l hl
    by_cases hk : (n', k') = (n, k)
    · obtain ⟨rfl, rfl⟩ := Prod.mk.inj hk
      rw [setCore_core_same, hq] at hl
      exact (List.mem_filter.mp hl).1
    · rwa [core_setCore_other _ _ _ _ _ _ hk] at hl
  · intro n' k' a' v' pl hc
    refine copyAt_setCore hc (fun hk hany => ?_)
    obtain ⟨rfl, rfl⟩ := Prod.mk.inj hk
    by_cases hkey : a' = a ∧ v' = v
    · obtain ⟨rfl, rfl⟩ := hkey
      exact .inr hgone
    · obtain ⟨l, hl, hcl⟩ := List.any_eq_true.mp hany
      refine .inl (List.any_eq_true.mpr ⟨l, ?_, hcl⟩)
      rw [hq]
      refine List.mem_filter.mpr ⟨hl, ?_⟩
      rw [Bool.not_eq_true', Bool.eq_false_iff]
      intro hat
      unfold copyOf at hcl
      rw [Bool.and_eq_true, Bool.and_eq_true] at hcl
      obtain ⟨h1, h2⟩ := l1At_iff.mp hcl.1.1
      obtain ⟨h3, h4⟩ := l1At_iff.mp hat
      exact hkey ⟨h1.symm.trans h3, h2.symm.trans h4⟩

/-- A change of a slice's line that keeps its addresses, and clears no bit but of cores without a copy. -/
theorem sheds_mapLine {D : Nat × Nat × Nat → Prop} (s : State) (n d i : Nat) (a : BitVec 16) (v : Nat) {f : SliceLine → SliceLine} (hf : ∀ x, SameLine (f x) x)
    (hv : ∀ x : SliceLine, x.at a v = true → ∀ k, k / 256 = d → x.cores.getLsbD (k % 256) = true → (f x).cores.getLsbD (k % 256) = true ∨ Gone s n k a v) :
    Sheds D s (s.mapLine n d i a v f) := by
  have hc := cores_mapLine s n d i a v f
  refine ⟨fun n' k l hl => by rwa [core_congr hc] at hl, fun h => .inl ((copyAt_congr hc).mpr h), fun n' d' => objs_mapLine .., ?_, ?_⟩
  · intro n' d' i' x hx
    by_cases hk : (n', d', i') = (n, d, i)
    · cases hk
      rw [lines_mapLine] at hx
      obtain ⟨y, hy, rfl⟩ := List.mem_map.mp hx
      refine ⟨y, hy, ?_⟩
      split
      · obtain ⟨h1, h2, h3⟩ := hf y
        exact ⟨h1.symm, h2.symm, h3.symm⟩
      · exact ⟨rfl, rfl, rfl⟩
    · rw [slice_mapLine_other _ _ _ _ _ _ _ _ _ _ hk] at hx
      exact ⟨x, hx, rfl, rfl, rfl⟩
  · intro n' d' i' _ y hy
    by_cases hk : (n', d', i') = (n, d, i)
    · cases hk
      refine ⟨_, by rw [lines_mapLine]; exact List.mem_map_of_mem hy, ?_⟩
      split
      next hat =>
        refine ⟨hf y, fun k hk hb => (hv y hat k hk hb).imp id (fun hg => ?_)⟩
        obtain ⟨rfl, rfl⟩ := at_iff.mp hat
        intro l hl
        rw [core_congr hc] at hl
        exact hg l hl
      · exact ⟨⟨rfl, rfl, rfl⟩, fun _ _ h => .inl h⟩
    · rw [slice_mapLine_other _ _ _ _ _ _ _ _ _ _ hk]
      exact ⟨y, hy, ⟨rfl, rfl, rfl⟩, fun _ _ h => .inl h⟩

theorem sheds_l1drop {D : Nat × Nat × Nat → Prop} (s : State) (n k : Nat) (a : BitVec 16) (v : Nat) (b : Bool) :
    Sheds D s (s.l1drop n k a v b) ∧ Gone (s.l1drop n k a v b) n k a v := by
  have hgone : Gone (s.l1drop n k a v b) n k a v := by
    intro l hl
    rw [LockSteps.l1drop_l1] at hl
    simpa using (List.mem_filter.mp hl).2
  refine ⟨?_, hgone⟩
  unfold State.l1drop
  dsimp only
  split
  · exact .refl s
  next l hl =>
    have hfound := List.find?_some hl
    have hat : l.asid = a ∧ l.vline = v := l1At_iff.mp hfound
    have hlose : ((s.core n k).lose s.clock b l).l1 = (s.core n k).l1.filter (fun x => !x.at a v) := by
      rw [← hat.1, ← hat.2]
      rfl
    obtain ⟨hs, hg⟩ := sheds_setCore (D := D) s n k a v hlose
    split
    · refine hs.trans (sheds_mapLine _ _ _ _ _ _ (fun x => ?_) (fun x _ j hj hb => ?_))
      · split <;> exact ⟨rfl, rfl, rfl⟩
      · split
        · by_cases hjk : j = k
          · subst hjk
            exact .inr hg
          · refine .inl ?_
            have hne : j % 256 ≠ k % 256 := by omega
            have hlt : j % 256 < 256 := Nat.mod_lt _ (by decide)
            rw [BitVec.getLsbD_and, hb, BitVec.getLsbD_not, BitVec.getLsbD_ofNat, Nat.testBit_two_pow, decide_eq_true hlt, decide_eq_false (Ne.symm hne)]
            rfl
        · exact .inl hb
    · exact hs

theorem sheds_unlistSlice {D : Nat × Nat × Nat → Prop} (s : State) (pl n d i : Nat) : Sheds D s (s.unlistSlice pl n d i) := by
  unfold State.unlistSlice
  dsimp only
  split <;> exact sheds_of_same rfl rfl

theorem sheds_removed (s : State) (n d i : Nat) (a : BitVec 16) (v : Nat) :
    Sheds (· = (n, d, i)) s (s.setSlice n d i { s.slice n d i with lines := (s.slice n d i).lines.filter (fun l => !l.at a v) }) where
  l1 _ _ _ h := h
  copy h := .inl h
  objs n' d' := objs_setSlice ..
  lines n' d' i' x hx := by
    by_cases hk : (n', d', i') = (n, d, i)
    · cases hk
      rw [slice_setSlice_same] at hx
      exact ⟨x, (List.mem_filter.mp hx).1, rfl, rfl, rfl⟩
    · rw [slice_setSlice_other _ _ _ _ _ _ _ _ hk] at hx
      exact ⟨x, hx, rfl, rfl, rfl⟩
  spares n' d' i' hD y hy := by
    rw [slice_setSlice_other _ _ _ _ _ _ _ _ hD]
    exact ⟨y, hy, ⟨rfl, rfl, rfl⟩, fun _ _ h => .inl h⟩

/-- The cores `l` give up their copy of a virtual line. -/
theorem sheds_l1drops {D : Nat × Nat × Nat → Prop} (s : State) (n : Nat) (a : BitVec 16) (v : Nat) (b : Bool) (l : List Nat) :
    Sheds D s (l.foldl (fun s k => s.l1drop n k a v b) s) ∧ ∀ k ∈ l, Gone (l.foldl (fun s k => s.l1drop n k a v b) s) n k a v :=
  foldl_each (R := Sheds D) (s := s) .refl .trans (P := fun k u => Gone u n k a v) (fun h hg => h.gone hg) (.refl s) (fun u k _ _ => sheds_l1drop u n k a v b)

/-- A slice's line goes, with every copy of it. -/
theorem sheds_dropLine (s : State) (n d i : Nat) (x : SliceLine) (b : Bool) : Sheds (· = (n, d, i)) s (s.dropLine n d i x b) ∧
    (∀ k ∈ s.copyCores n d x, Gone (s.dropLine n d i x b) n k x.asid x.vline) ∧ ∀ l ∈ ((s.dropLine n d i x b).slice n d i).lines, l.at x.asid x.vline = false := by
  obtain ⟨h1, h2⟩ := sheds_l1drops (D := (· = (n, d, i))) s n x.asid x.vline b (s.copyCores n d x)
  have h3 := sheds_removed ((s.copyCores n d x).foldl (fun s k => s.l1drop n k x.asid x.vline b) s) n d i x.asid x.vline
  unfold State.dropLine
  dsimp only
  split
  · refine ⟨h1.trans h3, fun k hk => h3.gone (h2 k hk), fun l hl => ?_⟩
    rw [slice_setSlice_same] at hl
    simpa using (List.mem_filter.mp hl).2
  · have h4 := sheds_unlistSlice (D := (· = (n, d, i))) (((s.copyCores n d x).foldl (fun s k => s.l1drop n k x.asid x.vline b) s).setSlice n d i
      { ((s.copyCores n d x).foldl (fun s k => s.l1drop n k x.asid x.vline b) s).slice n d i with
        lines := (((s.copyCores n d x).foldl (fun s k => s.l1drop n k x.asid x.vline b) s).slice n d i).lines.filter (fun l => !l.at x.asid x.vline) }) x.pline n d i
    refine ⟨(h1.trans h3).trans h4, fun k hk => h4.gone (h3.gone (h2 k hk)), fun l hl => ?_⟩
    obtain ⟨y, hy, h5, h6, -⟩ := h4.lines n d i l hl
    rw [slice_setSlice_same] at hy
    have hat := (List.mem_filter.mp hy).2
    unfold SliceLine.at at hat ⊢
    rw [h5, h6] at hat
    rwa [Bool.not_eq_true'] at hat

/-- What a recall of one line of slice `h` reaches, but for the copy kept: its copies are gone, and without one kept the line is too. -/
def Dropped (h : Nat × Nat × Nat) (keep : Option Keep) (cs : List Nat) (x : SliceLine) (u : State) : Prop :=
  (∀ k ∈ cs, keep.map (fun j => (j.node, j.core)) ≠ some (h.1, k) → Gone u h.1 k x.asid x.vline) ∧
    (keep = none → ∀ l ∈ (u.slice h.1 h.2.1 h.2.2).lines, l.at x.asid x.vline = false)

theorem Dropped.mono {h : Nat × Nat × Nat} {keep : Option Keep} {D : Nat × Nat × Nat → Prop} {cs : List Nat} {x : SliceLine} {u v : State} (hs : Sheds D u v)
    (hd : Dropped h keep cs x u) : Dropped h keep cs x v := by
  refine ⟨fun k hk hne => hs.gone (hd.1 k hk hne), fun hn l hl => ?_⟩
  obtain ⟨y, hy, h1, h2, -⟩ := hs.lines _ _ _ l hl
  have hat := hd.2 hn y hy
  unfold SliceLine.at at hat ⊢
  rwa [h1, h2] at hat

/-- One line's step of a recall at a slice. -/
def recallLine (n d i : Nat) (keep : Option Keep) (s : State) (x : SliceLine) : State :=
  match keep with
  | some k =>
    if k.node = n ∧ k.core / 256 = d ∧ x.at k.asid k.vline then
      ((s.copyCores n d x).filter (fun j => j != k.core)).foldl (fun s j => s.l1drop n j x.asid x.vline true) s
    else (if k.node = n ∧ k.core / 256 = d then s.l1drop n k.core x.asid x.vline false else s).dropLine n d i x true
  | none => s.dropLine n d i x true

theorem recallAt_eq (s : State) (pl : Nat) (h : Nat × Nat × Nat) (keep : Option Keep) : s.recallAt pl h keep =
    ((s.slice h.1 h.2.1 h.2.2).lines.filter (fun x => x.pline == pl)).foldl (recallLine h.1 h.2.1 h.2.2 keep) s := by
  obtain ⟨n, d, i⟩ := h
  cases keep <;> rfl

theorem recallLine_drops (s u : State) (h : Nat × Nat × Nat) (keep : Option Keep) (x : SliceLine) (hsu : Sheds (· = h) s u) :
    Sheds (· = h) u (recallLine h.1 h.2.1 h.2.2 keep u x) ∧ Dropped h keep (s.copyCores h.1 h.2.1 x) x (recallLine h.1 h.2.1 h.2.2 keep u x) := by
  obtain ⟨n, d, i⟩ := h
  have hstill : ∀ k ∈ s.copyCores n d x, k ∈ u.copyCores n d x ∨ Gone u n k x.asid x.vline := fun k hk => hsu.copyCores ⟨rfl, rfl, rfl⟩ .inl hk
  have hline : ∀ w : State, Sheds (· = (n, d, i)) u w → Sheds (· = (n, d, i)) u (w.dropLine n d i x true) ∧
      Dropped (n, d, i) keep (s.copyCores n d x) x (w.dropLine n d i x true) := by
    intro w hw
    obtain ⟨h1, h2, h3⟩ := sheds_dropLine w n d i x true
    refine ⟨hw.trans h1, fun k hk _ => ?_, fun _ => h3⟩
    rcases (hsu.trans hw).copyCores ⟨rfl, rfl, rfl⟩ .inl hk with hc | hg
    · exact h2 k hc
    · exact h1.gone hg
  unfold recallLine
  cases keep with
  | none => exact hline u (.refl u)
  | some j =>
    dsimp only
    split
    next hkept =>
      obtain ⟨h1, h2⟩ := sheds_l1drops (D := (· = (n, d, i))) u n x.asid x.vline true ((u.copyCores n d x).filter (fun k => k != j.core))
      refine ⟨h1, fun k hk hne => ?_, fun hn => nomatch hn⟩
      rcases hstill k hk with hc | hg
      · by_cases hkj : k = j.core
        · exact absurd (by rw [hkj, ← hkept.1]; rfl) hne
        · exact h2 k (List.mem_filter.mpr ⟨hc, by simpa using hkj⟩)
      · exact h1.gone hg
    · split
      · exact hline _ (sheds_l1drop ..).1
      · exact hline u (.refl u)

/-- What a recall at a slice reaches for each of its copies of the line. -/
theorem recallAt_drops (s : State) (pl : Nat) (h : Nat × Nat × Nat) (keep : Option Keep) : Sheds (· = h) s (s.recallAt pl h keep) ∧
    (keep = none → ∀ x ∈ ((s.recallAt pl h keep).slice h.1 h.2.1 h.2.2).lines, x.pline ≠ pl) ∧
    ∀ x ∈ (s.slice h.1 h.2.1 h.2.2).lines, x.pline = pl → Dropped h keep (s.copyCores h.1 h.2.1 x) x (s.recallAt pl h keep) := by
  rw [recallAt_eq]
  obtain ⟨h1, h2⟩ := foldl_each (R := Sheds (· = h)) (s := s) .refl .trans (P := fun x => Dropped h keep (s.copyCores h.1 h.2.1 x) x) (fun hs => Dropped.mono hs)
    (l := (s.slice h.1 h.2.1 h.2.2).lines.filter (fun x => x.pline == pl)) (.refl s) (fun u x _ hsu => recallLine_drops s u h keep x hsu)
  have hmem : ∀ x ∈ (s.slice h.1 h.2.1 h.2.2).lines, x.pline = pl → x ∈ (s.slice h.1 h.2.1 h.2.2).lines.filter (fun x => x.pline == pl) :=
    fun x hx hpl => List.mem_filter.mpr ⟨hx, by rw [hpl]; exact beq_self_eq_true _⟩
  refine ⟨h1, fun hn x hx hpl => ?_, fun x hx hpl => h2 x (hmem x hx hpl)⟩
  obtain ⟨y, hy, h3, h4, h5⟩ := h1.lines _ _ _ x hx
  have hat := (h2 y (hmem y hy (h5.trans hpl))).2 hn x hx
  exact Bool.false_ne_true (hat.symm.trans (at_iff.mpr ⟨h3.symm, h4.symm⟩))

/-- The recalls at all the slices of a list. -/
theorem recalls_drop (pl : Nat) (keep : Option Keep) (l : List (Nat × Nat × Nat)) (s : State) :
    Sheds (fun _ => True) s (l.foldl (fun s h => s.recallAt pl h keep) s) ∧ ∀ h ∈ l,
      (keep = none → ∀ x ∈ ((l.foldl (fun s h => s.recallAt pl h keep) s).slice h.1 h.2.1 h.2.2).lines, x.pline ≠ pl) ∧
      ∀ x ∈ (s.slice h.1 h.2.1 h.2.2).lines, x.pline = pl → ∀ k ∈ s.copyCores h.1 h.2.1 x, keep.map (fun j => (j.node, j.core)) ≠ some (h.1, k) →
        Gone (l.foldl (fun s h => s.recallAt pl h keep) s) h.1 k x.asid x.vline := by
  induction l generalizing s with
  | nil => exact ⟨.refl s, fun _ h => absurd h List.not_mem_nil⟩
  | cons g l ih =>
    obtain ⟨h1, h2, h3⟩ := recallAt_drops s pl g keep
    obtain ⟨h4, h5⟩ := ih (s.recallAt pl g keep)
    refine ⟨(h1.weaken fun _ _ => trivial).trans h4, fun h hh => ?_⟩
    rw [List.foldl_cons]
    by_cases hg : h = g
    · subst hg
      refine ⟨fun hn x hx hpl => ?_, fun x hx hpl k hk hne => h4.gone ((h3 x hx hpl).1 k hk hne)⟩
      obtain ⟨y, hy, -, -, h8⟩ := h4.lines _ _ _ x hx
      exact h2 hn y hy (h8.trans hpl)
    · obtain ⟨h6, h7⟩ := h5 h ((List.mem_cons.mp hh).resolve_left hg)
      refine ⟨h6, fun x hx hpl k hk hne => ?_⟩
      obtain ⟨y, hy, ⟨h8, h9, h10⟩, hv⟩ := h1.spares h.1 h.2.1 h.2.2 hg x hx
      have hd := (mem_copyCores.mp hk).1
      rcases h1.copyCores (x := y) (y := x) ⟨h8, h9, h10⟩ (hv k hd) hk with hc | hgone
      · have hg := h7 y hy (h10.trans hpl) k hc hne
        rwa [h8, h9] at hg
      · exact h4.gone hgone

theorem dir_setDir (s : State) (pl : Nat) (d : DirEnt) : (s.setDir pl d).dir pl = d := by
  unfold State.dir State.setDir tget
  dsimp only
  split
  next h => rw [tfind_tdel_same, h]; rfl
  next => rw [tfind_tset_same]; rfl

theorem pruneRemotes_same (s : State) (pl : Nat) : (s.pruneRemotes pl).cores = s.cores ∧ (s.pruneRemotes pl).dies = s.dies := by
  unfold State.pruneRemotes State.prunePointers
  dsimp only
  split <;> exact ⟨rfl, rfl⟩

/-- The home's recall of a line. -/
theorem recall_recalls (s : State) (pl : Nat) (keep : Option Keep) : Recalled s (s.recall pl keep) pl (keep.map (fun j => (j.node, j.core))) := by
  obtain ⟨-, h2⟩ := recalls_drop pl keep (s.holders pl) s
  obtain ⟨hc, hd⟩ := pruneRemotes_same ((s.holders pl).foldl (fun s h => s.recallAt pl h keep) s) pl
  refine ⟨?_, fun h hh => ⟨fun hn x hx => ?_, fun x hx hpl k hk hne l hl => ?_⟩⟩
  · unfold State.recall
    rw [dir_setDir]
  · refine (h2 h hh).1 (Option.map_eq_none_iff.mp hn) x ?_
    rwa [← slice_congr hd]
  · refine (h2 h hh).2 x hx hpl k hk hne l ?_
    rwa [← core_congr hc]

/-- Less than a recall left is recalled too. -/
theorem Recalled.less {s t u : State} {pl : Nat} {but : Option (Nat × Nat)} (h : Recalled s t pl but) (ho : (u.dir pl).owner = none)
    (hl1 : ∀ n k, ∀ l ∈ (u.core n k).l1, l ∈ (t.core n k).l1) (hlines : ∀ n d i, (u.slice n d i).lines = (t.slice n d i).lines) : Recalled s u pl but := by
  refine ⟨ho, fun g hg => ⟨fun hb x hx => (h.2 g hg).1 hb x (hlines .. ▸ hx), fun x hx hpl k hk hne l hl => (h.2 g hg).2 x hx hpl k hk hne l (hl1 _ _ l hl)⟩⟩

/-! ### The copy that a recall keeps -/

theorem l1_l1drop_other (s : State) {n k n' k' : Nat} (a : BitVec 16) (v : Nat) (b : Bool) (h : (n, k) ≠ (n', k')) :
    ((s.l1drop n' k' a v b).core n k).l1 = (s.core n k).l1 := by
  unfold State.l1drop
  dsimp only
  split
  · rfl
  · split
    · rw [core_congr (cores_mapLine ..), core_setCore_other _ _ _ _ _ _ h]
    · rw [core_setCore_other _ _ _ _ _ _ h]

/-- A copy stays when its core drops another virtual line, or another core drops its own. -/
theorem l1drop_spares {s : State} {n k n' k' : Nat} {a : BitVec 16} {v : Nat} {b : Bool} {l : L1Line} (hl : l ∈ (s.core n k).l1)
    (h : (n, k) = (n', k') → l.at a v = false) : l ∈ ((s.l1drop n' k' a v b).core n k).l1 := by
  by_cases hk : (n, k) = (n', k')
  · obtain ⟨rfl, rfl⟩ := Prod.mk.inj hk
    rw [LockSteps.l1drop_l1]
    exact List.mem_filter.mpr ⟨hl, by rw [h rfl]; rfl⟩
  · rwa [l1_l1drop_other _ _ _ _ hk]

theorem dropLine_spares {s : State} {n k n' d' i' : Nat} {x : SliceLine} {b : Bool} {l : L1Line} (hl : l ∈ (s.core n k).l1)
    (h : n = n' → k / 256 = d' → l.at x.asid x.vline = false) : l ∈ ((s.dropLine n' d' i' x b).core n k).l1 := by
  have hfold : l ∈ (((s.copyCores n' d' x).foldl (fun s k => s.l1drop n' k x.asid x.vline b) s).core n k).l1 := by
    refine foldl_keeps (P := fun u => l ∈ (u.core n k).l1) hl (fun u j hj hu => l1drop_spares hu (fun hk => ?_))
    obtain ⟨rfl, rfl⟩ := Prod.mk.inj hk
    exact h rfl (mem_copyCores.mp hj).1
  unfold State.dropLine
  dsimp only
  split
  · exact hfold
  · unfold State.unlistSlice
    dsimp only
    split <;> exact hfold

/-- The copy that is kept stays in its L1. -/
theorem recall_keeps (s : State) (pl : Nat) (j : Keep) {l : L1Line} (hl : l ∈ (s.core j.node j.core).l1) (hat : l.asid = j.asid ∧ l.vline = j.vline) :
    l ∈ ((s.recall pl (some j)).core j.node j.core).l1 := by
  have hfold : l ∈ (((s.holders pl).foldl (fun s h => s.recallAt pl h (some j)) s).core j.node j.core).l1 := by
    refine foldl_keeps (P := fun u => l ∈ (u.core j.node j.core).l1) hl (fun u h _ hu => ?_)
    obtain ⟨n, d, i⟩ := h
    rw [recallAt_eq]
    refine foldl_keeps (P := fun u => l ∈ (u.core j.node j.core).l1) hu (fun u x _ hu => ?_)
    unfold recallLine
    dsimp only
    split
    · refine foldl_keeps (P := fun u => l ∈ (u.core j.node j.core).l1) hu (fun u k hk hu => l1drop_spares hu (fun he => ?_))
      obtain ⟨-, rfl⟩ := Prod.mk.inj he
      simp at hk
    next hnot =>
      have hother : n = j.node → j.core / 256 = d → l.at x.asid x.vline = false := by
        intro hn hd
        rw [Bool.eq_false_iff]
        intro hx
        obtain ⟨h1, h2⟩ := l1At_iff.mp hx
        exact hnot ⟨hn.symm, hd, at_iff.mpr ⟨h1.symm.trans hat.1, h2.symm.trans hat.2⟩⟩
      split
      next hc => exact dropLine_spares (l1drop_spares hu (fun _ => hother hc.1.symm hc.2)) (fun hn hd => hother hn.symm hd)
      next => exact dropLine_spares hu (fun hn hd => hother hn.symm hd)
  have hcores : (s.recall pl (some j)).cores = ((s.holders pl).foldl (fun s h => s.recallAt pl h (some j)) s).cores := by
    unfold State.recall
    exact (pruneRemotes_same ..).1
  rwa [core_congr hcores]

/-! ## Merges -/

/-- Copies stay, none newly owned and no slice's line newly owned or dirty; no slice but those of `D` changes. -/
structure Cleans (D : Nat × Nat × Nat → Prop) (s t : State) : Prop where
  l1 : ∀ n k, ∀ l ∈ (t.core n k).l1, ∃ m ∈ (s.core n k).l1, m.asid = l.asid ∧ m.vline = l.vline ∧ (l.st = .owned → m.st = .owned)
  copy : ∀ {n k a v pl}, CopyAt s n k a v pl → CopyAt t n k a v pl
  objs : ∀ n d, (t.die n d).objs = (s.die n d).objs
  lines : ∀ n d i, ∀ x ∈ (t.slice n d i).lines, ∃ y ∈ (s.slice n d i).lines, SameLine y x ∧ (x.owned = true → y.owned = true) ∧ (y.dirty = 0 → x.dirty = 0)
  spares : ∀ n d i, ¬ D (n, d, i) → t.slice n d i = s.slice n d i
  dirs : t.dirs = s.dirs

section
variable {D : Nat × Nat × Nat → Prop}

theorem Cleans.refl (s : State) : Cleans D s s where
  l1 _ _ l h := ⟨l, h, rfl, rfl, id⟩
  copy := id
  objs _ _ := rfl
  lines _ _ _ x hx := ⟨x, hx, ⟨rfl, rfl, rfl⟩, id, id⟩
  spares _ _ _ _ := rfl
  dirs := rfl

theorem Cleans.trans {s t u : State} (h : Cleans D s t) (g : Cleans D t u) : Cleans D s u where
  l1 n k l hl := by
    obtain ⟨m, hm, h1, h2, h3⟩ := g.l1 n k l hl
    obtain ⟨p, hp, h4, h5, h6⟩ := h.l1 n k m hm
    exact ⟨p, hp, h4.trans h1, h5.trans h2, h6 ∘ h3⟩
  copy hc := g.copy (h.copy hc)
  objs n d := (g.objs n d).trans (h.objs n d)
  lines n d i x hx := by
    obtain ⟨y, hy, ⟨h1, h2, h3⟩, h4, h5⟩ := g.lines n d i x hx
    obtain ⟨z, hz, ⟨h6, h7, h8⟩, h9, h10⟩ := h.lines n d i y hy
    exact ⟨z, hz, ⟨h6.trans h1, h7.trans h2, h8.trans h3⟩, h9 ∘ h4, h5 ∘ h10⟩
  spares n d i hD := (g.spares n d i hD).trans (h.spares n d i hD)
  dirs := g.dirs.trans h.dirs

theorem Cleans.weaken {E : Nat × Nat × Nat → Prop} {s t : State} (h : Cleans D s t) (hDE : ∀ x, D x → E x) : Cleans E s t :=
  { h with spares := fun n d i hE => h.spares n d i (fun hD => hE (hDE _ hD)) }

/-- No copy of the virtual line at the core is owned. -/
def Unowned (s : State) (n k : Nat) (a : BitVec 16) (v : Nat) : Prop := ∀ l ∈ (s.core n k).l1, l.at a v = true → l.st ≠ .owned

/-- The slice's lines at a virtual address are clean and not owned. -/
def LineClean (s : State) (h : Nat × Nat × Nat) (a : BitVec 16) (v : Nat) : Prop := ∀ l ∈ (s.slice h.1 h.2.1 h.2.2).lines, l.at a v = true → l.owned = false ∧ l.dirty = 0

theorem Cleans.unowned {s t : State} (h : Cleans D s t) {n k : Nat} {a : BitVec 16} {v : Nat} (hu : Unowned s n k a v) : Unowned t n k a v := by
  intro l hl hat hst
  obtain ⟨m, hm, h1, h2, h3⟩ := h.l1 n k l hl
  obtain ⟨h4, h5⟩ := l1At_iff.mp hat
  exact hu m hm (l1At_iff.mpr ⟨h1.trans h4, h2.trans h5⟩) (h3 hst)

theorem Cleans.lineClean {s t : State} (h : Cleans D s t) {g : Nat × Nat × Nat} {a : BitVec 16} {v : Nat} (hu : LineClean s g a v) : LineClean t g a v := by
  intro l hl hat
  obtain ⟨y, hy, ⟨h1, h2, -⟩, h3, h4⟩ := h.lines _ _ _ l hl
  obtain ⟨h5, h6⟩ := at_iff.mp hat
  obtain ⟨ho, hd⟩ := hu y hy (at_iff.mpr ⟨h1.trans h5, h2.trans h6⟩)
  exact ⟨Bool.eq_false_iff.mpr (fun hl => Bool.false_ne_true (ho.symm.trans (h3 hl))), h4 hd⟩

theorem Cleans.copyCores {s t : State} (h : Cleans D s t) {n d k : Nat} {x : SliceLine} (hk : k ∈ s.copyCores n d x) : k ∈ t.copyCores n d x := by
  obtain ⟨hd, hb, hc⟩ := mem_copyCores.mp hk
  refine mem_copyCores.mpr ⟨hd, ?_, h.copy hc⟩
  unfold lineVector at hb ⊢
  rwa [objOn_congr (h.objs n d)]

/-- An owned copy under a virtual line becomes shared and clean. -/
def l1Shared (a : BitVec 16) (v : Nat) (l : L1Line) : L1Line := if l.at a v && l.st == .owned then { l with st := .shared, dirty := 0 } else l

theorem l1Shared_keeps (a : BitVec 16) (v : Nat) (l : L1Line) : (l1Shared a v l).asid = l.asid ∧ (l1Shared a v l).vline = l.vline ∧ (l1Shared a v l).pline = l.pline ∧
    ((l1Shared a v l).st = .owned → l.st = .owned ∧ l.at a v = false) ∧ (l1Shared a v l).tracked = l.tracked := by
  unfold l1Shared
  split
  next h =>
    rw [Bool.and_eq_true, beq_iff_eq] at h
    refine ⟨rfl, rfl, rfl, fun hst => (nomatch hst), ?_⟩
    unfold L1Line.tracked
    rw [h.2]
    rfl
  next h =>
    refine ⟨rfl, rfl, rfl, fun hst => ⟨hst, ?_⟩, rfl⟩
    rw [hst, beq_self_eq_true, Bool.and_true] at h
    exact Bool.eq_false_iff.mpr h

/-- One core's copies of a line become shared. -/
def mergeCore (n : Nat) (x : SliceLine) (s : State) (k : Nat) : State :=
  s.setCore n k { s.core n k with l1 := (s.core n k).l1.map (l1Shared x.asid x.vline) }

theorem cleans_mergeCore (n : Nat) (x : SliceLine) (s : State) (k : Nat) : Cleans D s (mergeCore n x s k) ∧ Unowned (mergeCore n x s k) n k x.asid x.vline := by
  refine ⟨⟨?_, ?_, fun _ _ => rfl, fun _ _ _ y hy => ⟨y, hy, ⟨rfl, rfl, rfl⟩, id, id⟩, fun _ _ _ _ => rfl, rfl⟩, ?_⟩
  · intro n' k' l hl
    unfold mergeCore at hl
    by_cases hk : (n', k') = (n, k)
    · obtain ⟨rfl, rfl⟩ := Prod.mk.inj hk
      rw [setCore_core_same] at hl
      obtain ⟨m, hm, rfl⟩ := List.mem_map.mp hl
      obtain ⟨h1, h2, -, h3, -⟩ := l1Shared_keeps x.asid x.vline m
      exact ⟨m, hm, h1.symm, h2.symm, fun hst => (h3 hst).1⟩
    · rw [core_setCore_other _ _ _ _ _ _ hk] at hl
      exact ⟨l, hl, rfl, rfl, id⟩
  · intro n' k' a v pl hc
    refine (copyAt_setCore (P := False) hc (fun hk hany => .inl ?_)).resolve_right id
    obtain ⟨l, hl, hcl⟩ := List.any_eq_true.mp hany
    refine List.any_eq_true.mpr ⟨_, List.mem_map_of_mem hl, ?_⟩
    obtain ⟨h1, h2, h3, -, h4⟩ := l1Shared_keeps x.asid x.vline l
    unfold copyOf L1Line.at at hcl ⊢
    rwa [h1, h2, h3, h4]
  · intro l hl hat hst
    unfold mergeCore at hl
    rw [setCore_core_same] at hl
    obtain ⟨m, hm, rfl⟩ := List.mem_map.mp hl
    obtain ⟨h1, h2, -, h3, -⟩ := l1Shared_keeps x.asid x.vline m
    obtain ⟨h4, h5⟩ := l1At_iff.mp hat
    exact Bool.false_ne_true ((h3 hst).2.symm.trans (l1At_iff.mpr ⟨h1.symm.trans h4, h2.symm.trans h5⟩))

/-- The slice's line is clean and not owned. -/
def lineMerged (x : SliceLine) : SliceLine := { x with owned := false, dirty := 0 }

theorem cleans_lineMerged (s : State) (n d i : Nat) (a : BitVec 16) (v : Nat) : Cleans (· = (n, d, i)) s (s.mapLine n d i a v lineMerged) ∧
    LineClean (s.mapLine n d i a v lineMerged) (n, d, i) a v := by
  have hc := cores_mapLine s n d i a v lineMerged
  refine ⟨⟨fun n' k l hl => ⟨l, by rwa [core_congr hc] at hl, rfl, rfl, id⟩, fun h => (copyAt_congr hc).mpr h, fun n' d' => objs_mapLine .., ?_, ?_, dirs_mapLine ..⟩, ?_⟩
  · intro n' d' i' x hx
    by_cases hk : (n', d', i') = (n, d, i)
    · cases hk
      rw [lines_mapLine] at hx
      obtain ⟨y, hy, rfl⟩ := List.mem_map.mp hx
      refine ⟨y, hy, ?_⟩
      split
      · exact ⟨⟨rfl, rfl, rfl⟩, fun h => (nomatch h), fun _ => rfl⟩
      · exact ⟨⟨rfl, rfl, rfl⟩, id, id⟩
    · rw [slice_mapLine_other _ _ _ _ _ _ _ _ _ _ hk] at hx
      exact ⟨x, hx, ⟨rfl, rfl, rfl⟩, id, id⟩
  · exact fun n' d' i' hD => slice_mapLine_other _ _ _ _ _ _ _ _ _ _ hD
  · intro l hl hat
    rw [lines_mapLine] at hl
    obtain ⟨y, hy, rfl⟩ := List.mem_map.mp hl
    split at hat
    next h => rw [if_pos h]; exact ⟨rfl, rfl⟩
    next h => exact absurd hat h

/-- One line's step of a merge at a slice. -/
def mergeLine (n d i : Nat) (s : State) (x : SliceLine) : State :=
  ((s.copyCores n d x).foldl (mergeCore n x) s).mapLine n d i x.asid x.vline lineMerged

/-- A slice's lines whose dirty bytes a merge takes. -/
def mergeLines (s : State) (pl n d i : Nat) : List SliceLine :=
  (s.slice n d i).lines.filter (fun x => x.pline == pl && (x.owned || x.dirty != 0 || (s.objOn n d x.asid x.vline).isSome))

/-- A merge at a slice. -/
def mergeAt (pl : Nat) (s : State) (h : Nat × Nat × Nat) : State := (mergeLines s pl h.1 h.2.1 h.2.2).foldl (mergeLine h.1 h.2.1 h.2.2) s

end

theorem merge_eq (s : State) (pl : Nat) : s.merge pl = if (s.dir pl).owner.isSome then
    ((s.holders pl).foldl (mergeAt pl) s).setDir pl { ((s.holders pl).foldl (mergeAt pl) s).dir pl with owner := none }
    else (s.holders pl).foldl (mergeAt pl) s := rfl

/-- What the merge of one line of slice `h` reaches. -/
def MergedAt (h : Nat × Nat × Nat) (cs : List Nat) (x : SliceLine) (u : State) : Prop :=
  (∀ k ∈ cs, Unowned u h.1 k x.asid x.vline) ∧ LineClean u h x.asid x.vline

theorem mergeLine_merges (s u : State) (h : Nat × Nat × Nat) (x : SliceLine) (hsu : Cleans (· = h) s u) :
    Cleans (· = h) u (mergeLine h.1 h.2.1 h.2.2 u x) ∧ MergedAt h (s.copyCores h.1 h.2.1 x) x (mergeLine h.1 h.2.1 h.2.2 u x) := by
  obtain ⟨h1, h2⟩ := foldl_each (R := Cleans (· = h)) (s := u) .refl .trans (P := fun k w => Unowned w h.1 k x.asid x.vline) (fun hs hu => hs.unowned hu)
    (l := u.copyCores h.1 h.2.1 x) (.refl u) (fun w k _ _ => cleans_mergeCore h.1 x w k)
  obtain ⟨h3, h4⟩ := cleans_lineMerged ((u.copyCores h.1 h.2.1 x).foldl (mergeCore h.1 x) u) h.1 h.2.1 h.2.2 x.asid x.vline
  exact ⟨h1.trans h3, fun k hk => h3.unowned (h2 k (hsu.copyCores hk)), h4⟩

theorem mergeAt_merges (s : State) (pl : Nat) (h : Nat × Nat × Nat) : Cleans (· = h) s (mergeAt pl s h) ∧
    (∀ x ∈ ((mergeAt pl s h).slice h.1 h.2.1 h.2.2).lines, x.pline = pl → x.owned = false ∧ x.dirty = 0) ∧
    ∀ x ∈ (s.slice h.1 h.2.1 h.2.2).lines, x.pline = pl → x.owned = true → ∀ k ∈ s.copyCores h.1 h.2.1 x, Unowned (mergeAt pl s h) h.1 k x.asid x.vline := by
  obtain ⟨h1, h2⟩ := foldl_each (R := Cleans (· = h)) (s := s) .refl .trans (P := fun x => MergedAt h (s.copyCores h.1 h.2.1 x) x)
    (fun hs hm => ⟨fun k hk => hs.unowned (hm.1 k hk), hs.lineClean hm.2⟩) (l := mergeLines s pl h.1 h.2.1 h.2.2) (.refl s)
    (fun u x _ hsu => mergeLine_merges s u h x hsu)
  have hmem : ∀ x ∈ (s.slice h.1 h.2.1 h.2.2).lines, x.pline = pl → (x.owned = true ∨ x.dirty ≠ 0) → x ∈ mergeLines s pl h.1 h.2.1 h.2.2 := by
    intro x hx hpl hod
    refine List.mem_filter.mpr ⟨hx, ?_⟩
    rw [hpl, beq_self_eq_true, Bool.true_and, Bool.or_eq_true, Bool.or_eq_true, bne_iff_ne]
    exact .inl hod
  refine ⟨h1, fun x hx hpl => ?_, fun x hx hpl ho k hk => (h2 x (hmem x hx hpl (.inl ho))).1 k hk⟩
  obtain ⟨y, hy, ⟨h3, h4, h5⟩, h6, h7⟩ := h1.lines _ _ _ x hx
  by_cases hod : y.owned = true ∨ y.dirty ≠ 0
  · exact (h2 y (hmem y hy (h5.trans hpl) hod)).2 x hx (at_iff.mpr ⟨h3.symm, h4.symm⟩)
  · rw [not_or, not_not] at hod
    exact ⟨Bool.eq_false_iff.mpr (fun h => hod.1 (h6 h)), h7 hod.2⟩

theorem merges_merge (pl : Nat) (l : List (Nat × Nat × Nat)) (s : State) : Cleans (fun _ => True) s (l.foldl (mergeAt pl) s) ∧ ∀ h ∈ l,
    (∀ x ∈ ((l.foldl (mergeAt pl) s).slice h.1 h.2.1 h.2.2).lines, x.pline = pl → x.owned = false ∧ x.dirty = 0) ∧
    ∀ x ∈ (s.slice h.1 h.2.1 h.2.2).lines, x.pline = pl → x.owned = true → ∀ k ∈ s.copyCores h.1 h.2.1 x, Unowned (l.foldl (mergeAt pl) s) h.1 k x.asid x.vline := by
  induction l generalizing s with
  | nil => exact ⟨.refl s, fun _ h => absurd h List.not_mem_nil⟩
  | cons g l ih =>
    obtain ⟨h1, h2, h3⟩ := mergeAt_merges s pl g
    obtain ⟨h4, h5⟩ := ih (mergeAt pl s g)
    refine ⟨(h1.weaken fun _ _ => trivial).trans h4, fun h hh => ?_⟩
    rw [List.foldl_cons]
    by_cases hg : h = g
    · subst hg
      refine ⟨fun x hx hpl => ?_, fun x hx hpl ho k hk => h4.unowned (h3 x hx hpl ho k hk)⟩
      obtain ⟨y, hy, ⟨-, -, h6⟩, h7, h8⟩ := h4.lines _ _ _ x hx
      obtain ⟨ho, hd⟩ := h2 y hy (h6.trans hpl)
      exact ⟨Bool.eq_false_iff.mpr (fun hx => Bool.false_ne_true (ho.symm.trans (h7 hx))), h8 hd⟩
    · obtain ⟨h6, h7⟩ := h5 h ((List.mem_cons.mp hh).resolve_left hg)
      refine ⟨h6, fun x hx hpl ho k hk => h7 x ?_ hpl ho k (h1.copyCores hk)⟩
      rwa [h1.spares h.1 h.2.1 h.2.2 hg]

/-- The home's merge of a line. -/
theorem merge_merges (s : State) (pl : Nat) : Merged s (s.merge pl) pl := by
  obtain ⟨hcl, h2⟩ := merges_merge pl (s.holders pl) s
  have hsame : (s.merge pl).cores = ((s.holders pl).foldl (mergeAt pl) s).cores ∧ (s.merge pl).dies = ((s.holders pl).foldl (mergeAt pl) s).dies := by
    rw [merge_eq]
    split <;> exact ⟨rfl, rfl⟩
  refine ⟨?_, fun h hh => ⟨fun x hx => ?_, fun x hx hpl ho k hk l hl => ?_⟩⟩
  · rw [merge_eq]
    split
    · rw [dir_setDir]
    next hno =>
      have hdir : ((s.holders pl).foldl (mergeAt pl) s).dir pl = s.dir pl := by
        unfold State.dir
        rw [hcl.dirs]
      rw [hdir]
      exact Option.not_isSome_iff_eq_none.mp hno
  · rw [slice_congr hsame.2] at hx
    exact (h2 h hh).1 x hx
  · rw [core_congr hsame.1] at hl
    exact (h2 h hh).2 x hx hpl ho k hk l hl

end Sys2Proof.HomeCopies
end

section
/-! Steps of homes and base dies: requests, write-backs, A and D, the scrub, near-memory operations, snoops and the host's window (R63 to R72, R87, R109, R121 to R124). -/

namespace Sys2Proof.HomeSteps
set_option Elab.async false
open Sys2Proof Sys2Proof.Machine Sys2Proof.Safety Sys2Proof.CoreEvents Sys2Proof.HomeCopies

variable {s : State}

/-! ## Requests and write-backs -/

theorem homeRequest_held {e : Ev} (h : s.frozen (lineOf e.pa) = true ∨ s.nmHolds (lineOf e.pa) = true) : s.homeRequest e = s.enq .coherentRequestAtHome e := by
  unfold State.homeRequest
  exact if_pos (by rwa [Bool.or_eq_true])

section
variable {e : Ev} (hf : s.frozen (lineOf e.pa) = false) (hn : s.nmHolds (lineOf e.pa) = false)
include hf hn

theorem homeRequest_prefetch (hflag : e.flag = true) :
    s.homeRequest e = s.setCore e.node e.core { s.core e.node e.core with misses := (s.core e.node e.core).misses.erase (BitVec.ofNat 16 e.w.toNat, e.m) } := by
  unfold State.homeRequest
  dsimp only
  rw [hf, hn]
  exact (if_neg (by decide)).trans (if_pos hflag)

variable (hflag : e.flag = false)
include hflag

theorem homeRequest_merge (h0 : e.n = 0) : s.homeRequest e = s.merge (lineOf e.pa) := by
  unfold State.homeRequest
  dsimp only
  rw [hf, hn, h0]
  exact (if_neg (by decide)).trans (if_neg (by rw [hflag]; decide))

theorem homeRequest_own (h1 : e.n = 1) :
    s.homeRequest e = s.recall (lineOf e.pa) (((s.core e.node e.core).tracks (lineOf e.pa)).head?.map (fun l => ⟨e.node, e.core, l.asid, l.vline⟩)) := by
  unfold State.homeRequest
  dsimp only
  rw [hf, hn, h1]
  exact (if_neg (by decide)).trans (if_neg (by rw [hflag]; decide))

theorem homeRequest_recall (h2 : 2 ≤ e.n) : s.homeRequest e = s.recall (lineOf e.pa) none := by
  obtain ⟨m, hm⟩ := Nat.exists_eq_add_of_le' h2
  unfold State.homeRequest
  dsimp only
  rw [hf, hn, hm]
  exact (if_neg (by decide)).trans (if_neg (by rw [hflag]; decide))

end

/-- A request to own the line recalls every copy but the requester's own. -/
theorem recall_own (s : State) (n k pl : Nat) (l : List L1Line) (hl : ∀ x ∈ l, x ∈ (s.core n k).l1) :
    Recalled s (s.recall pl (l.head?.map (fun x => ⟨n, k, x.asid, x.vline⟩))) pl (if l = [] then none else some (n, k)) ∧
      ∀ x, l.head? = some x → x ∈ ((s.recall pl (l.head?.map (fun x => ⟨n, k, x.asid, x.vline⟩))).core n k).l1 := by
  have h := recall_recalls s pl (l.head?.map (fun x => ⟨n, k, x.asid, x.vline⟩))
  cases l with
  | nil => exact ⟨h, fun x hx => nomatch hx⟩
  | cons y r =>
    refine ⟨h, fun x hx => ?_⟩
    cases hx
    exact recall_keeps s pl ⟨n, k, y.asid, y.vline⟩ (hl y (List.mem_cons_self ..)) ⟨rfl, rfl⟩

theorem l1_l1clean (s : State) (n k : Nat) (m : L1Line) : ((s.l1clean n k m).core n k).l1 =
    (s.core n k).l1.map (fun x => if x.at m.asid m.vline then { x with st := .shared, dirty := 0 } else x) := by
  unfold State.l1clean
  dsimp only
  rw [core_congr (cores_mapLine ..), setCore_core_same]

/-- What is still owned after several lines were written back was so before, and is none of them. -/
theorem l1cleans_owned (ls : List L1Line) (s : State) (n k : Nat) : ∀ x ∈ ((ls.foldl (fun s l => s.l1clean n k l) s).core n k).l1, x.st = .owned →
    x ∈ (s.core n k).l1 ∧ ∀ l ∈ ls, x.at l.asid l.vline = false := by
  induction ls generalizing s with
  | nil => exact fun x hx _ => ⟨hx, fun l hl => absurd hl List.not_mem_nil⟩
  | cons a r ih =>
    intro x hx hst
    obtain ⟨hin, hr⟩ := ih _ x hx hst
    rw [l1_l1clean] at hin
    obtain ⟨y, hy, rfl⟩ := List.mem_map.mp hin
    split at hst
    · cases hst
    next hat =>
      rw [if_neg hat] at hr ⊢
      refine ⟨hy, fun l hl => ?_⟩
      rcases List.mem_cons.mp hl with rfl | hl
      · exact Bool.eq_false_iff.mpr hat
      · exact hr l hl

theorem writeBack_cleans (s : State) (n k pl : Nat) : ∀ l ∈ ((s.writeBack n k pl false).core n k).l1, l.pline = pl → l.st ≠ .owned := by
  intro l hl hpl hst
  have hunf : s.writeBack n k pl false = ((s.core n k).tracks pl).foldl (fun s l => s.l1clean n k l) s := rfl
  rw [hunf] at hl
  obtain ⟨hin, hout⟩ := l1cleans_owned _ s n k l hl hst
  have htr : l ∈ (s.core n k).tracks pl := by
    refine List.mem_filter.mpr ⟨hin, ?_⟩
    unfold L1Line.tracked
    rw [hpl, hst, beq_self_eq_true]
    rfl
  exact Bool.false_ne_true ((hout l htr).symm.trans (l1At_iff.mpr ⟨rfl, rfl⟩))

theorem writeBack_drops (s : State) (n k pl : Nat) : ∀ l ∈ ((s.writeBack n k pl true).core n k).l1, l.pline = pl → l.st = .untracked :=
  LockSteps.dropCore_untracked s n k pl true

/-! ## A and D -/

theorem setAd_sets {own a : Nat} {e : Word} {d : Bool} (hc : paClass a = 0) (hfail : s.nodeFail own a = none) (hmov : s.moving a = false)
    (hv : pteV (s.readEntry own a) = true) (hl : pteL (s.readEntry own a) = true) (hg : pteGen (s.readEntry own a) = pteGen e)
    (hfr : pteFrame (s.readEntry own a) = pteFrame e) :
    ∃ t, s.setAd own a e d = some t ∧ t.mem = memWrite s.mem a 8 (s.readEntry own a ||| (if d then 0x60 else 0x20)).toNat := by
  unfold State.setAd
  dsimp only
  rw [if_pos (by rw [hfail, hv, hl, hmov, hg, hfr]; simp), if_neg (by rw [hc]; decide), if_neg (by rw [hc]; decide)]
  exact ⟨_, rfl, rfl⟩

theorem setAd_none {own a : Nat} {e : Word} {d : Bool} (h : s.nodeFail own a ≠ none ∨ s.moving a = true ∨ pteV (s.readEntry own a) = false ∨ pteL (s.readEntry own a) = false ∨
    pteGen (s.readEntry own a) ≠ pteGen e ∨ pteFrame (s.readEntry own a) ≠ pteFrame e) : s.setAd own a e d = none := by
  unfold State.setAd
  refine if_neg (fun hall => ?_)
  simp only [Bool.and_eq_true, Option.isNone_iff_eq_none, Bool.not_eq_true', beq_iff_eq] at hall
  obtain ⟨⟨⟨⟨⟨h1, h2⟩, h3⟩, h4⟩, h5⟩, h6⟩ := hall
  rcases h with h | h | h | h | h | h
  · exact h h1
  · exact Bool.false_ne_true (h4.symm.trans h)
  · exact Bool.false_ne_true (h.symm.trans h2)
  · exact Bool.false_ne_true (h.symm.trans h3)
  · exact h h5
  · exact h h6

theorem exec_setAd (hn : s.nmHolds s.ev.pa = false) (hf : s.frozen s.ev.pa = false) {r : Option State} (h : s.setAd s.ev.node s.ev.pa s.ev.w s.ev.flag = r) :
    exec .setAd s = .next (r.getD s) := by
  refine (show _ = execSetAd s from rfl).trans ?_
  unfold execSetAd
  rw [hn, hf, h]
  cases r <;> rfl

/-! ## The scrub -/

theorem startTest_pkg (s : State) (n c i : Nat) : (s.startTest n c i).pkg n = { s.pkg n with testing := addOnce (s.pkg n).testing (c, i) } := setPkg_pkg_same ..

theorem symbolError_one (s : State) (pa : Nat) (v : Vec) :
    tget 0 ((s.symbolError pa 1 v).pkg (paNode pa)).corrected (6, hbmUnit pa) = tget 0 (s.pkg (paNode pa)).corrected (6, hbmUnit pa) + 1 ∧
      (6, hbmUnit pa) ∈ ((s.symbolError pa 1 v).pkg (paNode pa)).testing ∧ (s.symbolError pa 1 v).mem = s.mem ∧ (s.symbolError pa 1 v).lost = s.lost := by
  have hu : s.symbolError pa 1 v = (s.countCorrected (paNode pa) 6 (hbmUnit pa)).startTest (paNode pa) 6 (hbmUnit pa) := rfl
  rw [hu, startTest_pkg]
  refine ⟨?_, mem_addOnce .., rfl, rfl⟩
  unfold State.countCorrected
  rw [setPkg_pkg_same, tget_tset_same]

theorem isLost_markLost (s : State) (pa : Nat) : (s.markLost (lineOf pa)).isLost pa = true ↔ s.dirtyMask (lineOf pa) ≠ BitVec.allOnes 64 := by
  unfold State.markLost State.setLost State.isLost
  dsimp only
  split
  next h => rw [tfind_tdel_same]; exact ⟨fun hc => (nomatch hc), fun hc => absurd h hc⟩
  next h => rw [tfind_tset_same]; exact ⟨fun _ => h, fun _ => rfl⟩

theorem symbolError_two (s : State) (pa : Nat) (v : Vec) : ((s.symbolError pa 2 v).isLost pa = true ↔ s.dirtyMask (lineOf pa) ≠ BitVec.allOnes 64) ∧
    (6, hbmUnit pa) ∈ ((s.symbolError pa 2 v).pkg (paNode pa)).testing ∧ (s.symbolError pa 2 v).mem = s.mem ∧
    ((s.symbolError pa 2 v).pkg (paNode pa)).errNext = ((s.pkg (paNode pa)).errNext + 1) % 4096 := by
  have hu : s.symbolError pa 2 v = ((s.markLost (lineOf pa)).logError (paNode pa) 6 3 (hbmUnit pa)).startTest (paNode pa) 6 (hbmUnit pa) := rfl
  have hlog : ((s.markLost (lineOf pa)).logError (paNode pa) 6 3 (hbmUnit pa)).lost = (s.markLost (lineOf pa)).lost ∧
      (((s.markLost (lineOf pa)).logError (paNode pa) 6 3 (hbmUnit pa)).pkg (paNode pa)).errNext = ((s.pkg (paNode pa)).errNext + 1) % 4096 := by
    unfold State.logError
    dsimp only
    rw [if_neg (by decide)]
    exact ⟨rfl, congrArg Pkg.errNext (setPkg_pkg_same ..)⟩
  rw [hu, startTest_pkg]
  refine ⟨?_, mem_addOnce .., ?_, hlog.2⟩
  · rw [← isLost_markLost s pa]
    unfold State.isLost
    rw [show (((s.markLost (lineOf pa)).logError (paNode pa) 6 3 (hbmUnit pa)).startTest (paNode pa) 6 (hbmUnit pa)).lost = (s.markLost (lineOf pa)).lost from hlog.1]
  · refine (show _ = ((s.markLost (lineOf pa)).logError (paNode pa) 6 3 (hbmUnit pa)).mem from rfl).trans ?_
    rw [Canon.mem_logError]
    rfl

theorem symbolError_more (s : State) (pa n : Nat) (v : Vec) (h : 3 ≤ n) : s.symbolError pa n v = { s with mem := memWrite s.mem (pa / 32 * 32) 32 v.toNat } := by
  obtain ⟨m, rfl⟩ := Nat.exists_eq_add_of_le' h
  rfl

/-! ## Less than a recall leaves -/

theorem forget_l1 (q : CoreSt) (clock : Nat) (p : L1Line → Bool) : ∀ l ∈ (q.forget clock p).l1, l ∈ q.l1 := by
  unfold CoreSt.forget
  suffices h : ∀ (ls : List L1Line) (q : CoreSt), ∀ l ∈ (ls.foldl (fun q l => q.lose clock false l) q).l1, l ∈ q.l1 from h _ q
  intro ls
  induction ls with
  | nil => exact fun _ _ h => h
  | cons a r ih => exact fun q l hl => (List.mem_filter.mp (ih _ l hl)).1

theorem dropSynonyms_less (s : State) (n k pl : Nat) (keep : Option (BitVec 16 × Nat)) : (∀ n' k', ∀ l ∈ ((s.dropSynonyms n k pl keep).core n' k').l1, l ∈ (s.core n' k').l1) ∧
    (s.dropSynonyms n k pl keep).dies = s.dies ∧ (s.dropSynonyms n k pl keep).dirs = s.dirs := by
  unfold State.dropSynonyms
  dsimp only
  split
  · refine ⟨fun n' k' l hl => ?_, rfl, rfl⟩
    by_cases hk : (n', k') = (n, k)
    · obtain ⟨rfl, rfl⟩ := Prod.mk.inj hk
      rw [setCore_core_same] at hl
      exact forget_l1 _ _ _ l hl
    · rwa [core_setCore_other _ _ _ _ _ _ hk] at hl
  · exact ⟨fun _ _ _ h => h, rfl, rfl⟩

theorem dir_congr {t : State} (h : t.dirs = s.dirs) (pl : Nat) : t.dir pl = s.dir pl := by
  unfold State.dir
  rw [h]

theorem owner_pruneRemotes (s : State) (pl : Nat) : ((s.pruneRemotes pl).dir pl).owner = (s.dir pl).owner := by
  have hp : ((s.prunePointers pl).dir pl).owner = (s.dir pl).owner := by
    unfold State.prunePointers
    dsimp only
    rw [dir_setDir]
  unfold State.pruneRemotes
  dsimp only
  split
  · rw [dir_setDir]
    exact hp
  · exact hp

/-- A walker's results of a line leave its slice. -/
def dropWalk (pl : Nat) (s : State) (w : Nat × Nat × Nat) : State :=
  s.setSlice w.1 w.2.1 w.2.2 { s.slice w.1 w.2.1 w.2.2 with
    leaves := (s.slice w.1 w.2.1 w.2.2).leaves.filter (fun l => lineOf l.eaddr != pl)
    ptrs := (s.slice w.1 w.2.1 w.2.2).ptrs.filter (fun e => lineOf e.eaddr != pl) }

theorem dropWalks_eq (s : State) (pl : Nat) : s.dropWalks pl = if (s.dir pl).walkers = [] then s
    else (((s.dir pl).walkers.foldl (dropWalk pl) s).setDir pl { ((s.dir pl).walkers.foldl (dropWalk pl) s).dir pl with walkers := [] }).pruneRemotes pl := rfl

theorem dropWalk_fold (pl : Nat) (ws : List (Nat × Nat × Nat)) (s : State) : (ws.foldl (dropWalk pl) s).cores = s.cores ∧
    (∀ n d i, ((ws.foldl (dropWalk pl) s).slice n d i).lines = (s.slice n d i).lines) ∧ (ws.foldl (dropWalk pl) s).dirs = s.dirs := by
  refine foldl_keeps (P := fun u => u.cores = s.cores ∧ (∀ n d i, (u.slice n d i).lines = (s.slice n d i).lines) ∧ u.dirs = s.dirs) ⟨rfl, fun _ _ _ => rfl, rfl⟩
    (fun u w _ ⟨h1, h2, h3⟩ => ⟨h1, fun n d i => ?_, h3⟩)
  unfold dropWalk
  by_cases hk : (n, d, i) = (w.1, w.2.1, w.2.2)
  · cases hk
    rw [slice_setSlice_same]
    exact h2 ..
  · rw [slice_setSlice_other _ _ _ _ _ _ _ _ hk]
    exact h2 ..

theorem dropWalks_less (s : State) (pl : Nat) : (s.dropWalks pl).cores = s.cores ∧ (∀ n d i, ((s.dropWalks pl).slice n d i).lines = (s.slice n d i).lines) ∧
    ((s.dropWalks pl).dir pl).owner = (s.dir pl).owner := by
  rw [dropWalks_eq]
  split
  · exact ⟨rfl, fun _ _ _ => rfl, rfl⟩
  · obtain ⟨h1, h2, h3⟩ := dropWalk_fold pl (s.dir pl).walkers s
    obtain ⟨hc, hd⟩ := pruneRemotes_same (((s.dir pl).walkers.foldl (dropWalk pl) s).setDir pl
      { ((s.dir pl).walkers.foldl (dropWalk pl) s).dir pl with walkers := [] }) pl
    refine ⟨hc.trans h1, fun n d i => ?_, (owner_pruneRemotes ..).trans ?_⟩
    · rw [slice_congr hd]
      exact h2 n d i
    · rw [dir_setDir]
      exact (congrArg DirEnt.owner (dir_congr h3 pl)).trans rfl

theorem recalled_dropWalks {t : State} {pl : Nat} (h : Recalled s t pl none) : Recalled s (t.dropWalks pl) pl none := by
  obtain ⟨hc, hl, ho⟩ := dropWalks_less t pl
  exact Recalled.less h (ho.trans h.1) (fun n k l hl => by rwa [core_congr hc] at hl) hl

theorem recalled_same {t u : State} {pl : Nat} (h : Recalled s t pl none) (hc : u.cores = t.cores) (hd : u.dies = t.dies) (hr : u.dirs = t.dirs) : Recalled s u pl none :=
  Recalled.less h ((congrArg DirEnt.owner (dir_congr hr pl)).trans h.1) (fun n k l hl => by rwa [core_congr hc] at hl) (fun n d i => by rw [slice_congr hd])

theorem merged_same {t u : State} {pl : Nat} (h : Merged s t pl) (hc : u.cores = t.cores) (hd : u.dies = t.dies) (hr : u.dirs = t.dirs) : Merged s u pl := by
  obtain ⟨ho, hh⟩ := h
  refine ⟨(congrArg DirEnt.owner (dir_congr hr pl)).trans ho, fun g hg => ⟨fun x hx => (hh g hg).1 x (by rwa [slice_congr hd] at hx), fun x hx hpl hox k hk l hl => ?_⟩⟩
  exact (hh g hg).2 x hx hpl hox k hk l (by rwa [core_congr hc] at hl)

/-! ## Near-memory operations -/

section
variable {o : NmOp} {pa : Nat} (ho : s.nmOps = [o])
include ho

theorem nmUpdate_alone {p : NmOp → Bool} {f : NmOp → Option NmOp} (hp : p o = true) : nmUpdate p f s.nmOps = (f o).toList := by
  rw [ho]
  refine (if_pos hp).trans ?_
  cases f o <;> rfl

theorem nmFirst_alone {st : NmStage} (hl : lineOf o.pa = lineOf pa) (hst : o.stage = st) : s.nmFirst (lineOf pa) st = some o := by
  unfold State.nmFirst NmOp.isAt
  rw [ho]
  exact List.find?_cons_of_pos (by rw [hl, hst]; simp)

theorem nmForward_forwards (hl : lineOf o.pa = lineOf pa) (hst : o.stage = .sent) (hf : s.frozen (lineOf pa) = false) :
    (s.nmForward pa).nmOps = [{ o with stage := .forwarded }] ∧ Recalled s (s.nmForward pa) (lineOf pa) none := by
  have hmay : (o.isAt (lineOf pa) .sent && !s.nmBehind o.id) = true := by
    have hb : s.nmBehind o.id = false := by
      unfold State.nmBehind
      rw [ho]
      simp [hst]
    rw [hb]
    unfold NmOp.isAt
    rw [hl, hst]
    simp
  have hfind : s.nmOps.find? (fun o => o.isAt (lineOf pa) .sent && !s.nmBehind o.id) = some o := by
    rw [ho]
    exact List.find?_cons_of_pos hmay
  have hops : ((s.recall (lineOf pa) none).dropSynonyms o.id.node o.id.core (lineOf pa) none).nmOps = s.nmOps := by
    rw [(copiesOnly_recall s (lineOf pa) none).trans (copiesOnly_dropSynonyms ..)]
  obtain ⟨h1, h2, h3⟩ := dropSynonyms_less (s.recall (lineOf pa) none) o.id.node o.id.core (lineOf pa) none
  have hrec := recall_recalls s (lineOf pa) none
  have hsyn : Recalled s ((s.recall (lineOf pa) none).dropSynonyms o.id.node o.id.core (lineOf pa) none) (lineOf pa) none :=
    Recalled.less hrec ((congrArg DirEnt.owner (dir_congr h3 _)).trans hrec.1) h1 (fun n d i => congrArg Slice.lines (slice_congr h2 n d i))
  unfold State.nmForward
  dsimp only
  rw [nmFirst_alone ho hl hst]
  dsimp only
  rw [hfind]
  dsimp only
  rw [if_neg (by rw [hf]; decide)]
  generalize (s.recall (lineOf pa) none).dropSynonyms o.id.node o.id.core (lineOf pa) none = u at hsyn hops ⊢
  refine ⟨?_, ?_⟩
  · refine (congrArg (nmUpdate _ _) hops).trans ?_
    exact nmUpdate_alone ho hmay
  · exact recalled_same hsyn rfl rfl rfl

theorem nmAck_acks (hl : lineOf o.pa = lineOf pa) (hst : o.stage = .applied) (hp : o.piece = none) (hg : (s.ctx o.id).gen = o.cgen) (hlive : (s.ctx o.id).st ≠ .free) :
    s.nmAck pa = ({ s with nmOps := [] } : State).setCtx o.id { s.ctx o.id with
      nmPending := (s.ctx o.id).nmPending - 1, nmErrors :=
        match o.err with | some c => (s.ctx o.id).nmErrors ++ [⟨c, o.va, paNode o.pa⟩] | none => (s.ctx o.id).nmErrors } := by
  have hops : nmUpdate (fun o => o.isAt (lineOf pa) .applied) (fun _ => none) s.nmOps = [] := by
    refine nmUpdate_alone ho ?_
    unfold NmOp.isAt
    rw [hl, hst]
    simp
  unfold State.nmAck
  dsimp only
  rw [nmFirst_alone ho hl hst]
  dsimp only
  rw [hops, hp]
  exact if_pos ⟨hg, hlive⟩

theorem nmReturn_returns {u : State} {x : Xlated} (hst : o.stage = .returned) (hu : u.nmOps = s.nmOps)
    (hx : s.nmPlace { id := o.id, asid := o.asid, ptroot := o.ptroot, user := o.id.slot % 16 != 11, ra := false, engine := true, cmd := o.piece.map (·.1) } o.va.toNat (nmBytes o.op o.vec) =
      .ok (u, x)) : (s.nmReturn o.pa o.id).mem = u.mem ∧ (s.nmReturn o.pa o.id).nmOps = [{ o with pa := x.pa, mapGen := x.gen, stage := .sent, late := false }] := by
  have hmine : (o.pa == o.pa && o.id == o.id && o.stage == .returned) = true := by
    rw [hst]
    simp
  have hfind : s.nmOps.find? (fun p => p.pa == o.pa && p.id == o.id && p.stage == .returned) = some o := by
    rw [ho]
    exact List.find?_cons_of_pos hmine
  unfold State.nmReturn
  dsimp only
  rw [hfind]
  dsimp only
  rw [hx]
  refine ⟨rfl, ?_⟩
  refine (congrArg (nmUpdate _ _) hu).trans ?_
  exact nmUpdate_alone ho hmine

end

/-! ## Snoops of the device -/

theorem snoopLine_same (s : State) (node pl : Nat) : (s.poolClean node pl).cores = s.cores ∧ (s.poolClean node pl).dies = s.dies ∧ (s.poolClean node pl).dirs = s.dirs := by
  unfold State.poolClean
  dsimp only
  split
  · exact ⟨rfl, rfl, rfl⟩
  · split <;> exact ⟨rfl, rfl, rfl⟩

/-- The dirty bytes of a line of the pool have gone to the device. -/
theorem poolClean_written {node pl : Nat} (h : (s.regionHome node (paOff pl)).isSome = true) : ((s.poolClean node pl).pkg node).poolMask pl = 0 := by
  obtain ⟨⟨r, hr⟩, hreg⟩ := Option.isSome_iff_exists.mp h
  unfold State.poolClean
  dsimp only
  split
  next hm => exact hm
  next =>
    rw [hreg]
    dsimp only
    unfold State.poolDone
    rw [show ∀ (u : State) c, ({ u with ctxs := c } : State).pkg node = u.pkg node from fun _ _ => rfl, setPkg_pkg_same]
    unfold Pkg.poolMask tget
    dsimp only
    rw [tfind_tdel_same, tfind_tdel_same]
    rfl

theorem regionHome_congr {t : State} (h : t.pkgs = s.pkgs) (node off : Nat) : t.regionHome node off = s.regionHome node off := by
  unfold State.regionHome State.pkg
  rw [h]

theorem biSnoop_one {e : Ev} (k : Snoop) (hn : e.n ≤ 1) : s.biSnoop e k = (s.snoopLine e.node (lineOf e.pa) k).1.setPkg e.node
    { (s.snoopLine e.node (lineOf e.pa) k).1.pkg e.node with biRsp := some (lineOf e.pa, (s.snoopLine e.node (lineOf e.pa) k).2) } := by
  unfold State.biSnoop
  rw [show max 1 (min e.n 4) = 1 from by omega]
  unfold State.snoopLines State.snoopLines
  dsimp only
  rw [Nat.max_zero]

/-- A response set beside what the snoop left. -/
theorem biSnoop_rsp (u : State) (node pl r : Nat) : ((u.setPkg node { u.pkg node with biRsp := some (pl, r) }).pkg node).biRsp = some (pl, r) ∧
    ((u.setPkg node { u.pkg node with biRsp := some (pl, r) }).pkg node).poolMask pl = (u.pkg node).poolMask pl := by
  rw [setPkg_pkg_same]
  exact ⟨rfl, rfl⟩

theorem cleanCopies_clean (s : State) (pl : Nat) : (∀ n k, ∀ l ∈ ((s.cleanCopies pl).core n k).l1, l.pline = pl → l.dirty = 0) ∧
    ∀ n d i, ∀ l ∈ ((s.cleanCopies pl).slice n d i).lines, l.pline = pl → l.dirty = 0 := by
  constructor
  · intro n k l hl hpl
    have hcore : (s.cleanCopies pl).core n k = { s.core n k with l1 := (s.core n k).l1.map (fun l => if l.pline = pl then { l with dirty := 0 } else l) } :=
      Access.tget_tmap _ _ _ _ rfl
    rw [hcore] at hl
    obtain ⟨m, -, rfl⟩ := List.mem_map.mp hl
    split at hpl
    next h => rw [if_pos h]
    next h => exact absurd hpl h
  · intro n d i l hl hpl
    have hdie : (s.cleanCopies pl).die n d = { s.die n d with
        slices := tmap (s.die n d).slices (fun _ x => { x with lines := x.lines.map (fun l => if l.pline = pl then { l with dirty := 0 } else l) }) } :=
      Access.tget_tmap _ _ _ _ rfl
    have hslice : (s.cleanCopies pl).slice n d i = { s.slice n d i with lines := (s.slice n d i).lines.map (fun l => if l.pline = pl then { l with dirty := 0 } else l) } := by
      unfold State.slice
      rw [hdie]
      exact Access.tget_tmap _ _ _ _ rfl
    rw [hslice] at hl
    obtain ⟨m, -, rfl⟩ := List.mem_map.mp hl
    split at hpl
    next h => rw [if_pos h]
    next h => exact absurd hpl h

section
variable {e : Ev} (hn : e.n ≤ 1)
include hn

theorem bisnpinv_recalls : Recalled s (s.biSnoop e .inv) (lineOf e.pa) none ∧ ((s.biSnoop e .inv).pkg e.node).biRsp = some (lineOf e.pa, 0) ∧
    ((s.regionHome e.node (paOff (lineOf e.pa))).isSome = true → ((s.biSnoop e .inv).pkg e.node).poolMask (lineOf e.pa) = 0) := by
  obtain ⟨h1, h2, h3⟩ := snoopLine_same (s.recall (lineOf e.pa) none) e.node (lineOf e.pa)
  have hrec := recalled_dropWalks (recalled_same (recall_recalls s (lineOf e.pa) none) h1 h2 h3)
  have hrsp := biSnoop_rsp (((s.recall (lineOf e.pa) none).poolClean e.node (lineOf e.pa)).dropWalks (lineOf e.pa)) e.node (lineOf e.pa) 0
  rw [biSnoop_one _ hn]
  refine ⟨recalled_same hrec rfl rfl rfl, hrsp.1, fun hreg => hrsp.2.trans ?_⟩
  have hp : (((s.recall (lineOf e.pa) none).poolClean e.node (lineOf e.pa)).dropWalks (lineOf e.pa)).pkg e.node =
      ((s.recall (lineOf e.pa) none).poolClean e.node (lineOf e.pa)).pkg e.node := by
    unfold State.pkg
    rw [(copiesOnly_dropWalks ..).pkgs]
  rw [hp]
  exact poolClean_written (by rwa [regionHome_congr (copiesOnly_recall s (lineOf e.pa) none).pkgs])

theorem bisnpdata_merges : Merged s (s.biSnoop e .data) (lineOf e.pa) ∧ ((s.biSnoop e .data).pkg e.node).biRsp = some (lineOf e.pa, min (s.heldState (lineOf e.pa)) 1) ∧
    ((s.regionHome e.node (paOff (lineOf e.pa))).isSome = true → ((s.biSnoop e .data).pkg e.node).poolMask (lineOf e.pa) = 0) := by
  obtain ⟨h1, h2, h3⟩ := snoopLine_same (s.merge (lineOf e.pa)) e.node (lineOf e.pa)
  have hrsp := biSnoop_rsp ((s.merge (lineOf e.pa)).poolClean e.node (lineOf e.pa)) e.node (lineOf e.pa) (min (s.heldState (lineOf e.pa)) 1)
  rw [biSnoop_one _ hn]
  refine ⟨merged_same (merged_same (merge_merges s (lineOf e.pa)) h1 h2 h3) rfl rfl rfl, hrsp.1, fun hreg => hrsp.2.trans ?_⟩
  exact poolClean_written (by rwa [regionHome_congr (copiesOnly_merge s (lineOf e.pa)).pkgs])

theorem bisnpcur_cleans : (∀ n k, ∀ l ∈ ((s.biSnoop e .cur).core n k).l1, l.pline = lineOf e.pa → l.dirty = 0) ∧
    (∀ n d i, ∀ l ∈ ((s.biSnoop e .cur).slice n d i).lines, l.pline = lineOf e.pa → l.dirty = 0) ∧ (s.biSnoop e .cur).dirs = s.dirs ∧
    ((s.biSnoop e .cur).pkg e.node).biRsp = some (lineOf e.pa, s.heldState (lineOf e.pa)) ∧
    ((s.regionHome e.node (paOff (lineOf e.pa))).isSome = true → ((s.biSnoop e .cur).pkg e.node).poolMask (lineOf e.pa) = 0) := by
  obtain ⟨h1, h2, h3⟩ := snoopLine_same (s.cleanCopies (lineOf e.pa)) e.node (lineOf e.pa)
  obtain ⟨h4, h5⟩ := cleanCopies_clean s (lineOf e.pa)
  have hrsp := biSnoop_rsp ((s.cleanCopies (lineOf e.pa)).poolClean e.node (lineOf e.pa)) e.node (lineOf e.pa) (s.heldState (lineOf e.pa))
  rw [biSnoop_one _ hn]
  refine ⟨fun n k l hl => h4 n k l ?_, fun n d i l hl => h5 n d i l ?_, h3, hrsp.1, fun hreg => hrsp.2.trans (poolClean_written hreg)⟩
  · rwa [← core_congr h1]
  · rwa [← slice_congr h2]

end

/-! ## The host's window -/

theorem bar2Access_open {e : Ev} {a : Nat} (ha : a = e.node * 2 ^ 46 + fieldW (s.pkg e.node).bar2 36 8 * 2 ^ 36 + e.pa % 2 ^ 36) (hlim : paOff a < hbmLimit)
    (hc : paClass a = 0) (hfit : a % 64 + e.m ≤ 64) (hb : s.hostBehind e true = false) (hf : s.frozen (lineOf a) = false) (hops : s.nmOps = []) :
    s.bar2Access e = if e.flag then (s.recall (lineOf a) none).hbmWrite a e.m (e.v.toNat % 256 ^ e.m) else s.merge (lineOf a) := by
  have hn : s.nmHolds (lineOf a) = false := by
    unfold State.nmHolds
    rw [hops]
    rfl
  unfold State.bar2Access
  dsimp only
  rw [← ha, if_neg (by omega), hb, hf, hn]
  exact if_neg (by decide)

theorem memRead_lt {m : List Host.Cell} {a n v : Nat} (hwf : Memory.wf m = true) (hv : v < 256 ^ n) : memRead (memWrite m a n v) a n = v := by
  rw [memRead_memWrite_same _ _ _ _ hwf, Nat.mod_eq_of_lt hv]

/-! ## The steps -/

theorem exec_request (s : State) : exec .coherentRequestAtHome s = .next (s.homeRequest s.ev) := rfl

theorem request_free (hf : s.frozen (lineOf s.ev.pa) = false) (hn : s.nmHolds (lineOf s.ev.pa) = false) :
    (s.ev.flag = true → Completes .coherentRequestAtHome s (fun t => (t.core s.ev.node s.ev.core).misses =
      (s.core s.ev.node s.ev.core).misses.erase (BitVec.ofNat 16 s.ev.w.toNat, s.ev.m) ∧ t.ctxs = s.ctxs ∧ t.mem = s.mem)) ∧
    (s.ev.flag = false → s.ev.n = 0 → Completes .coherentRequestAtHome s (fun t => t.mem = s.mem ∧ Merged s t (lineOf s.ev.pa))) ∧
    (s.ev.flag = false → s.ev.n = 1 → Completes .coherentRequestAtHome s (fun t => t.mem = s.mem ∧
      Recalled s t (lineOf s.ev.pa) (if (s.core s.ev.node s.ev.core).tracks (lineOf s.ev.pa) = [] then none else some (s.ev.node, s.ev.core)) ∧
        ∀ l, ((s.core s.ev.node s.ev.core).tracks (lineOf s.ev.pa)).head? = some l → l ∈ (t.core s.ev.node s.ev.core).l1)) ∧
    (s.ev.flag = false → 2 ≤ s.ev.n → Completes .coherentRequestAtHome s (fun t => t.mem = s.mem ∧ Recalled s t (lineOf s.ev.pa) none)) := by
  refine ⟨fun hflag => ?_, fun hflag h0 => ?_, fun hflag h1 => ?_, fun hflag h2 => ?_⟩
  · refine completes_of ((exec_request s).trans (congrArg Host.Outcome.next (homeRequest_prefetch hf hn hflag))) ⟨?_, rfl, rfl⟩
    rw [setCore_core_same]
  · exact completes_of ((exec_request s).trans (congrArg Host.Outcome.next (homeRequest_merge hf hn hflag h0))) ⟨Canon.mem_merge .., merge_merges ..⟩
  · exact completes_of ((exec_request s).trans (congrArg Host.Outcome.next (homeRequest_own hf hn hflag h1)))
      ⟨Canon.mem_recall .., recall_own s _ _ _ _ (fun l hl => (List.mem_filter.mp hl).1)⟩
  · exact completes_of ((exec_request s).trans (congrArg Host.Outcome.next (homeRequest_recall hf hn hflag h2))) ⟨Canon.mem_recall .., recall_recalls s _ none⟩

theorem exec_writeback {b : Bool} (h : s.ev.flag = b) : exec .dirtyWriteback s = .next (s.writeBack s.ev.node s.ev.core (lineOf s.ev.pa) b) :=
  (show exec .dirtyWriteback s = .next (s.writeBack s.ev.node s.ev.core (lineOf s.ev.pa) s.ev.flag) from rfl).trans (by rw [h])

theorem setAd_steps (hwf : Memory.wf s.mem = true) (hc : paClass s.ev.pa = 0) (hn : s.nmHolds s.ev.pa = false) (hf : s.frozen s.ev.pa = false)
    (hfail : s.nodeFail s.ev.node s.ev.pa = none) (hmov : s.moving s.ev.pa = false) (hv : pteV (s.readEntry s.ev.node s.ev.pa) = true)
    (hl : pteL (s.readEntry s.ev.node s.ev.pa) = true) (hg : pteGen (s.readEntry s.ev.node s.ev.pa) = pteGen s.ev.w)
    (hfr : pteFrame (s.readEntry s.ev.node s.ev.pa) = pteFrame s.ev.w) : Completes .setAd s (fun t =>
      memRead t.mem s.ev.pa 8 = (s.readEntry s.ev.node s.ev.pa ||| (if s.ev.flag then 0x60 else 0x20)).toNat ∧
        ∀ i, i < s.ev.pa ∨ s.ev.pa + 8 ≤ i → memGet t.mem i = memGet s.mem i) := by
  obtain ⟨t, ht, hmem⟩ := setAd_sets (d := s.ev.flag) hc hfail hmov hv hl hg hfr
  refine completes_of (exec_setAd hn hf ht) ⟨?_, fun i hi => ?_⟩
  · rw [Option.getD_some, hmem]
    exact memRead_lt hwf (BitVec.isLt _)
  · rw [Option.getD_some, hmem]
    exact memGet_memWrite_other _ _ _ _ _ hwf hi

theorem exec_patrol (hc : paClass s.ev.pa = 0) {n : Nat} (hn : (if s.ev.flag then 2 else s.ev.n) = n) : exec .patrolScrub s = .next (s.symbolError s.ev.pa n s.ev.v) := by
  rw [← hn]
  exact congrArg Host.Outcome.next (if_neg (fun h => h hc))

/-- What the code's guarantee does not cover is passed on. -/
theorem patrol_passes (hwf : Memory.wf s.mem = true) (hc : paClass s.ev.pa = 0) (h3 : 3 ≤ (if s.ev.flag then 2 else s.ev.n)) : Completes .patrolScrub s (fun t =>
    memRead t.mem (s.ev.pa / 32 * 32) 32 = s.ev.v.toNat ∧ t.lost = s.lost ∧ ∀ i, i < s.ev.pa / 32 * 32 ∨ s.ev.pa / 32 * 32 + 32 ≤ i → memGet t.mem i = memGet s.mem i) := by
  have hlt : s.ev.v.toNat < 256 ^ 32 := by
    rw [show 256 ^ 32 = 2 ^ 256 from by norm_num]
    exact s.ev.v.isLt
  have he := exec_patrol hc rfl
  rw [symbolError_more _ _ _ _ h3] at he
  refine completes_of he ⟨?_, rfl, fun i hi => ?_⟩
  · dsimp only
    rw [memRead_memWrite_same _ _ _ _ hwf, Nat.mod_eq_of_lt hlt]
  · dsimp only
    exact memGet_memWrite_other _ _ _ _ _ hwf hi

theorem patrol_elsewhere (hc : paClass s.ev.pa ≠ 0) : Completes .patrolScrub s (fun t => t = s) :=
  completes_of (u := s) (congrArg Host.Outcome.next (if_pos hc)) rfl

theorem setAd_held (h : s.nmHolds s.ev.pa = true ∨ s.frozen s.ev.pa = true) : Completes .setAd s (fun t => t = s.enq .setAd s.ev) :=
  completes_of (u := s.enq .setAd s.ev) (congrArg Host.Outcome.next (if_pos (by rwa [Bool.or_eq_true]))) rfl

theorem nmForward_steps {o : NmOp} (ho : s.nmOps = [o]) (hl : lineOf o.pa = lineOf s.ev.pa) (hst : o.stage = .sent) (hf : s.frozen (lineOf s.ev.pa) = false) :
    Completes .nearMemoryForward s (fun t => t.nmOps = [{ o with stage := .forwarded }] ∧ Recalled s t (lineOf s.ev.pa) none ∧ t.mem = s.mem) := by
  obtain ⟨h1, h2⟩ := nmForward_forwards ho hl hst hf
  exact completes_of (u := s.nmForward s.ev.pa) rfl ⟨h1, h2, Canon.mem_nmForward ..⟩

theorem nmReturn_steps {o : NmOp} (ho : s.nmOps = [o]) {u : State} {x : Xlated} (hst : o.stage = .returned) (hpa : o.pa = s.ev.pa) (hid : o.id = s.ev.id) (hu : u.nmOps = s.nmOps)
    (hx : s.nmPlace { id := o.id, asid := o.asid, ptroot := o.ptroot, user := o.id.slot % 16 != 11, ra := false, engine := true, cmd := o.piece.map (·.1) } o.va.toNat (nmBytes o.op o.vec) =
      .ok (u, x)) : Completes .nearMemoryReturn s (fun t => t.mem = u.mem ∧ t.nmOps = [{ o with pa := x.pa, mapGen := x.gen, stage := .sent, late := false }]) := by
  have he : exec .nearMemoryReturn s = .next (s.nmReturn s.ev.pa s.ev.id) := rfl
  rw [← hpa, ← hid] at he
  exact completes_of he (nmReturn_returns ho hst hu hx)

theorem exec_bar2 (s : State) : exec .bar2Access s = .next (s.bar2Access s.ev) := rfl

/-- Settles O50. -/
theorem eventsOfHomesAndBaseDies : Obligations.EventsOfHomesAndBaseDies := by
  unfold Obligations.EventsOfHomesAndBaseDies
  intro s hwf
  refine ⟨fun h => completes_of (exec_request s) (homeRequest_held h), request_free, fun hflag => completes_of (exec_writeback hflag) ⟨Canon.mem_writeBack .., writeBack_cleans s _ _ _⟩,
    fun hflag => completes_of (exec_writeback hflag) ⟨Canon.mem_writeBack .., writeBack_drops s _ _ _⟩, setAd_held,
    fun hc hn hf => ⟨setAd_steps hwf hc hn hf, fun h => completes_of (exec_setAd hn hf (setAd_none h)) rfl⟩, patrol_elsewhere,
    fun hc => ⟨fun h0 => completes_of (exec_patrol hc h0) rfl, fun h1 => completes_of (exec_patrol hc h1) (symbolError_one ..),
      fun h2 => completes_of (exec_patrol hc h2) (symbolError_two ..), patrol_passes hwf hc⟩,
    fun o ho hl => ⟨nmForward_steps ho hl, fun hst hp hg hlive => ?_, fun u x => nmReturn_steps ho⟩,
    fun hn => ⟨completes_of (u := s.biSnoop s.ev .inv) rfl (bisnpinv_recalls hn), completes_of (u := s.biSnoop s.ev .data) rfl (bisnpdata_merges hn),
      completes_of (u := s.biSnoop s.ev .cur) rfl (bisnpcur_cleans hn)⟩, fun hlim hc hfit hb hf hops => ⟨fun hflag => ?_, fun hflag => ?_⟩⟩
  · have he : exec .nearMemoryAck s = .next (s.nmAck s.ev.pa) := rfl
    exact completes_of (he.trans (congrArg Host.Outcome.next (nmAck_acks ho hl hst hp hg hlive))) ⟨rfl, rfl, setCtx_ctx_same ..⟩
  · refine completes_of ((exec_bar2 s).trans (congrArg Host.Outcome.next ((bar2Access_open rfl hlim hc hfit hb hf hops).trans (if_pos hflag)))) ⟨?_, fun i hi => ?_⟩
    · rw [Access.hbmWrite_mem, Canon.mem_recall, memRead_memWrite_same _ _ _ _ hwf, Nat.mod_mod]
    · rw [Access.hbmWrite_mem, Canon.mem_recall]
      exact memGet_memWrite_other _ _ _ _ _ hwf hi
  · exact completes_of ((exec_bar2 s).trans (congrArg Host.Outcome.next ((bar2Access_open rfl hlim hc hfit hb hf hops).trans (if_neg (by rw [hflag]; decide))))) (Canon.mem_merge ..)

end Sys2Proof.HomeSteps
end

section
/-! Steps of a matrix array: starts, units, ragged joins, completion, leases and their hand-over, and spare columns (R300 to R307, R310, R315 to R321). -/

namespace Sys2Proof.ArraySteps
set_option Elab.async false
open Sys2Proof Sys2Proof.Machine Sys2Proof.Safety Sys2Proof.CoreEvents

variable {s : State} {node p : Nat}

theorem array_setArray (s : State) (node p : Nat) (a : ArraySt) : ((s.setArray node p a).polder node p).array = a := congrArg Polder.array (setPolder_polder_same ..)

theorem array_congr {t : State} (h : t.polders = s.polders) (node p : Nat) : (t.polder node p).array = (s.polder node p).array := by
  unfold State.polder
  rw [h]

/-! ## Ragged joins -/

section
variable {c : Cmd} (hrun : (s.polder node p).array.run = some c)
include hrun

theorem raggedJoin_joins (h4 : c.cmd = 4) (hrag : c.rag = true) (hopen : ¬(0 < c.rows ∧ c.rows ≤ c.sub)) (hl : s.counterLost c = none) :
    ((s.raggedJoin node p).polder node p).array = { (s.polder node p).array with run := some { c with rows := s.joined c } } ∧ (s.raggedJoin node p).mem = s.mem := by
  unfold State.raggedJoin
  rw [hrun]
  dsimp only
  rw [if_neg (by rw [h4, hrag]; rintro (h | h | h); exacts [h rfl, Bool.false_ne_true h, hopen h]), hl]
  dsimp only
  unfold State.setRun
  rw [array_setArray, setPolder_polder_same]
  exact ⟨rfl, rfl⟩

theorem raggedJoin_closed (h : c.cmd ≠ 4 ∨ c.rag = false ∨ (0 < c.rows ∧ c.rows ≤ c.sub)) : s.raggedJoin node p = s := by
  unfold State.raggedJoin
  rw [hrun]
  refine if_pos ?_
  rw [Bool.not_eq_true']
  exact h

end

/-! ## Starts -/

/-- The queue of a head that starts. -/
def popped (a : ArraySt) (c : Cmd) : ArraySt := if c.hi then { a with hiQ := a.hiQ.drop 1 } else { a with loQ := a.loQ.drop 1 }

/-- The banks as a command starts: the copy of a ragged one, and the bank that an EMMA clears. -/
def armed (a : ArraySt) (c : Cmd) : ArraySt :=
  let b := a.bank c.bankNo
  let a := if c.rag && c.cmd == 4 then { a with backup := b } else a
  if c.cmd = 4 ∧ !c.started then
    let b := if fieldW c.g[0] 16 1 = 0 then b.clear c.terpCols else b
    a.setBank c.bankNo { b with cplx := c.cplx }
  else a

theorem setBank_queues (a : ArraySt) (n : Nat) (b : Bank) : (a.setBank n b).hiQ = a.hiQ ∧ (a.setBank n b).loQ = a.loQ ∧ (a.setBank n b).quantum = a.quantum := by
  unfold ArraySt.setBank
  split <;> exact ⟨rfl, rfl, rfl⟩

theorem armed_queues (a : ArraySt) (c : Cmd) : (armed a c).hiQ = a.hiQ ∧ (armed a c).loQ = a.loQ ∧ (armed a c).quantum = a.quantum := by
  have hcopy : ∀ b : ArraySt, b = (if c.rag && c.cmd == 4 then { a with backup := a.bank c.bankNo } else a) → b.hiQ = a.hiQ ∧ b.loQ = a.loQ ∧ b.quantum = a.quantum := by
    rintro _ rfl
    split <;> exact ⟨rfl, rfl, rfl⟩
  obtain ⟨h1, h2, h3⟩ := hcopy _ rfl
  unfold armed
  dsimp only
  split
  · obtain ⟨h4, h5, h6⟩ := setBank_queues (if c.rag && c.cmd == 4 then { a with backup := a.bank c.bankNo } else a) c.bankNo
      { (if fieldW c.g[0] 16 1 = 0 then (a.bank c.bankNo).clear c.terpCols else a.bank c.bankNo) with cplx := c.cplx }
    exact ⟨h4.trans h1, h5.trans h2, h6.trans h3⟩
  · exact ⟨h1, h2, h3⟩

/-- The heads of the queues that are not halted. -/
def queueHeads (a : ArraySt) : List Cmd := (if a.hstop then [] else a.hiQ.take 1) ++ (if a.lstop then [] else a.loQ.take 1)

/-- The command as it runs from its start on. -/
def launched (s : State) (c : Cmd) : Cmd :=
  if c.cmd = 4 ∧ c.rag = true ∧ ¬(0 < c.rows ∧ c.rows ≤ c.sub) then { c with started := true, rows := s.joined c } else { c with started := true }

theorem heads_queued (hlost : ∀ d ∈ (s.polder node p).array.hiQ ++ (s.polder node p).array.loQ, s.counterLost d = none) :
    ∀ d ∈ queueHeads (s.polder node p).array, s.counterLost d = none := by
  intro d hd
  refine hlost d ?_
  unfold queueHeads at hd
  rw [List.mem_append] at hd ⊢
  refine hd.imp (fun h => ?_) (fun h => ?_)
  · split at h
    · cases h
    · exact List.mem_of_mem_take h
  · split at h
    · cases h
    · exact List.mem_of_mem_take h

section
variable {c : Cmd} (hrun : (s.polder node p).array.run = none) (hhold : (s.polder node p).array.holder ≠ none) (hlive : (s.polder node p).array.live = true)
  (hnext : (s.polder node p).array.next = none) (hdue : s.leaseDue (s.polder node p).array = false)
  (hlost : ∀ d ∈ (s.polder node p).array.hiQ ++ (s.polder node p).array.loQ, s.counterLost d = none)
  (hfind : (queueHeads (s.polder node p).array).find? (fun c => s.mayStart c) = some c)
include hrun hhold hlive hnext hdue hlost hfind

theorem arrStart_eq : s.arrStart node p = ((s.setArray node p { armed (popped (s.polder node p).array c) c with
      run := some { c with started := true }, quantum := (armed (popped (s.polder node p).array c) c).quantum - 1 }).raggedJoin node p).enq
        (if c.cmd = 5 then .arrayCommandComplete else .arrayRowCommit) { node := node, n := p } := by
  have hnone : (queueHeads (s.polder node p).array).find? (fun c => (s.counterLost c).isSome) = none := by
    refine List.find?_eq_none.mpr fun d hd => ?_
    rw [heads_queued hlost d hd]
    decide
  unfold queueHeads at hnone hfind
  unfold State.arrStart
  dsimp only
  rw [if_neg, hdue, if_neg Bool.false_ne_true, hnone]
  · dsimp only
    rw [hfind]
    rfl
  · rw [hrun, hlive, hnext]
    rintro (h | h | h | h)
    exacts [Bool.false_ne_true h, hhold (Option.isNone_iff_eq_none.mp h), Bool.false_ne_true h, Bool.false_ne_true h]

theorem arrStart_starts : ((s.arrStart node p).polder node p).array.run = some (launched s c) ∧
    ((s.arrStart node p).polder node p).array.hiQ = (popped (s.polder node p).array c).hiQ ∧
    ((s.arrStart node p).polder node p).array.loQ = (popped (s.polder node p).array c).loQ ∧
    ((s.arrStart node p).polder node p).array.quantum = (popped (s.polder node p).array c).quantum - 1 ∧ (s.arrStart node p).mem = s.mem := by
  have hc : s.counterLost c = none := heads_queued hlost c (List.mem_of_find?_eq_some hfind)
  obtain ⟨h1, h2, h3⟩ := armed_queues (popped (s.polder node p).array c) c
  rw [arrStart_eq hrun hhold hlive hnext hdue hlost hfind]
  generalize hu : s.setArray node p { armed (popped (s.polder node p).array c) c with
      run := some { c with started := true }, quantum := (armed (popped (s.polder node p).array c) c).quantum - 1 } = u
  have harr : (u.polder node p).array = { armed (popped (s.polder node p).array c) c with
      run := some { c with started := true }, quantum := (armed (popped (s.polder node p).array c) c).quantum - 1 } := by
    rw [← hu]
    exact array_setArray ..
  have hmem : u.mem = s.mem := by
    rw [← hu]
    rfl
  have hrun' : (u.polder node p).array.run = some { c with started := true } := by rw [harr]
  have hpol : ∀ i e, ((u.raggedJoin node p).enq i e).polder node p = (u.raggedJoin node p).polder node p := fun _ _ => rfl
  rw [hpol]
  unfold launched
  split
  next hj =>
    have hlu : u.counterLost { c with started := true } = none := by
      rw [← hu]
      exact hc
    have hju : u.joined { c with started := true } = s.joined c := by
      rw [← hu]
      rfl
    obtain ⟨h4, h5⟩ := raggedJoin_joins hrun' hj.1 hj.2.1 hj.2.2 hlu
    rw [h4, harr, hju]
    exact ⟨rfl, h1, h2, congrArg (· - 1) h3, h5.trans hmem⟩
  next hj =>
    have hcl := raggedJoin_closed hrun' (by
      by_cases h4 : c.cmd = 4
      · by_cases hr : c.rag = true
        · exact .inr (.inr (not_not.mp fun h => hj ⟨h4, hr, h⟩))
        · exact .inr (.inl (Bool.eq_false_iff.mpr hr))
      · exact .inl h4)
    rw [hcl, harr]
    exact ⟨rfl, h1, h2, congrArg (· - 1) h3, hmem⟩

end

/-! ## Units and completion -/

theorem arrRow_commits {c c' : Cmd} {u : State} {last : Bool} (hrun : (s.polder node p).array.run = some c) (h5 : c.cmd ≠ 5) (hunit : s.arrUnit node p c = .ok (u, c', last)) :
    ((s.arrRow node p).polder node p).array.run = some c' ∧ (s.arrRow node p).mem = u.mem := by
  unfold State.arrRow
  rw [hrun]
  dsimp only
  rw [if_neg h5, hunit]
  refine ⟨?_, rfl⟩
  exact congrArg ArraySt.run (array_setArray ..)

theorem polders_barAdd (s : State) (node p la : Nat) (d : Int) (o : Option Nat) : (s.barAdd node p la d o).polders = s.polders := by
  unfold State.barAdd
  dsimp only
  split
  · exact EngineSteps.polders_barFault ..
  · unfold State.barSet
    dsimp only
    rw [Barriers.portSeen_eq]
    rfl

theorem polders_barPiece (s : State) (node p la n scope : Nat) : (s.barPiece node p la n scope).polders = s.polders := polders_barAdd ..

theorem askLease_polders (s : State) (node p : Nat) : (s.askLease node p).polders = s.polders ∧ (s.askLease node p).ctxs = s.ctxs := by
  unfold State.askLease
  split <;> exact ⟨rfl, rfl⟩

theorem bank_setBank (a : ArraySt) (n : Nat) (b : Bank) : (a.setBank n b).bank n = b := by
  unfold ArraySt.setBank ArraySt.bank
  split
  · rfl
  · rfl

/-- The bank of an EMMZ is zero, and counted. -/
def bankZeroed (s : State) (node p : Nat) (c : Cmd) : State :=
  (s.setArray node p ((s.polder node p).array.setBank c.bankNo { (s.polder node p).array.bank c.bankNo with words := [], flags := 0, lostAt := none })).barPiece node p c.bar 65536 2

/-- No command runs, and the finished one has no entries. -/
def cmdFreed (s : State) (node p : Nat) (c : Cmd) : State := (s.setRun node p none).freeCmd node p c.no

/-- EMMZ ends with its bank zero, and its entries free. -/
theorem arrComplete_zeroes {c : Cmd} (hrun : (s.polder node p).array.run = some c) (h5 : c.cmd = 5) (hend : (s.polder node p).array.ending = false) :
    ((s.arrComplete node p).polder node p).array.run = none ∧
      (((s.arrComplete node p).polder node p).array.bank (fieldW c.a 0 1)).lostAt = none ∧ (((s.arrComplete node p).polder node p).array.bank (fieldW c.a 0 1)).flags = 0 ∧
      (∀ i j, (((s.arrComplete node p).polder node p).array.bank (fieldW c.a 0 1)).word i j = 0) ∧
      ∀ x ∈ ((s.arrComplete node p).polder node p).sb ++ ((s.arrComplete node p).polder node p).rl, x.cmd ≠ c.no := by
  have hb : c.bankNo = fieldW c.a 0 1 := by
    unfold Cmd.bankNo
    rw [h5]
    rfl
  have hdone : c.allDone = true := by
    unfold Cmd.allDone
    rw [h5]
    rfl
  have hx : (s.arrComplete node p).polders = (cmdFreed (bankZeroed s node p c) node p c).polders := by
    unfold State.arrComplete
    dsimp only
    rw [hrun]
    dsimp only
    rw [if_neg (by rw [hdone]; decide), if_pos h5, if_neg (by rw [hend]; decide)]
    split
    · exact (askLease_polders ..).1
    · rfl
  have hv : ((bankZeroed s node p c).polder node p).array = (s.polder node p).array.setBank c.bankNo { (s.polder node p).array.bank c.bankNo with
      words := [], flags := 0, lostAt := none } := (array_congr (polders_barPiece ..) ..).trans (array_setArray ..)
  have hw : (cmdFreed (bankZeroed s node p c) node p c).polder node p = (((bankZeroed s node p c).setRun node p none).polder node p).freeRanges c.no := setPolder_polder_same ..
  have harr : ((cmdFreed (bankZeroed s node p c) node p c).polder node p).array = { ((bankZeroed s node p c).polder node p).array with run := none } := by
    rw [hw]
    exact array_setArray ..
  have hbank : ∀ a : ArraySt, ({ a with run := none } : ArraySt).bank c.bankNo = a.bank c.bankNo := fun _ => rfl
  have hpol : (s.arrComplete node p).polder node p = (cmdFreed (bankZeroed s node p c) node p c).polder node p := by
    unfold State.polder
    rw [hx]
  rw [← hb, hpol, harr, hbank, hv, bank_setBank]
  refine ⟨rfl, rfl, rfl, fun _ _ => rfl, ?_⟩
  rw [hw]
  intro x hx
  rcases List.mem_append.mp hx with hx | hx
  · exact bne_iff_ne.mp (List.mem_filter.mp hx).2
  · exact bne_iff_ne.mp (List.mem_filter.mp hx).2

/-! ## Leases -/

theorem leaseGrant_grants (s : State) (node p : Nat) (id : CtxId) (sa : Nat) : ((s.leaseGrant node p id sa).polder node p).array = { (s.polder node p).array with
      holder := some id, holderSa := sa, bank0 := Bank.reset, bank1 := Bank.reset, waiting := (s.polder node p).array.waiting.filter (fun w => w.1 != id),
      hstop := false, lstop := false, quantum := (s.core id.node id.core).quant.toNat, lastCore := id.core % 8, next := none } ∧
    ((s.leaseGrant node p id sa).ctx id).granted = true ∧ (s.leaseGrant node p id sa).mem = s.mem := by
  unfold State.leaseGrant
  refine ⟨array_setArray .., ?_, rfl⟩
  rw [setCtx_ctx_same]

theorem leaseTo_waiting {id : CtxId} {sa : Nat} (hw : (s.polder node p).array.waiting = [(id, sa)]) : s.leaseTo node p id = s.leaseGrant node p id sa := by
  unfold State.leaseTo
  dsimp only
  rw [hw, List.find?_cons_of_pos (by simp)]

theorem filter_alone (id : CtxId) (sa : Nat) : [(id, sa)].filter (fun (w : CtxId × Nat) => w.1 != id) = [] :=
  List.filter_eq_nil_iff.mpr (fun x hx => by rw [List.mem_singleton.mp hx]; simp)

theorem arbitrate_grants {id : CtxId} {sa : Nat} (hrun : (s.polder node p).array.run = none) (hhold : (s.polder node p).array.holder = none)
    (hnext : (s.polder node p).array.next = none) (hsusp : (s.polder node p).array.susp = []) (hw : (s.polder node p).array.waiting = [(id, sa)]) :
    s.arbitrate node p = s.leaseGrant node p id sa := by
  have hlive : (s.polder node p).array.live = false := by
    unfold ArraySt.live
    rw [hhold]
    rfl
  have hardue : s.arrDue (s.polder node p).array = false := by
    unfold State.arrDue
    rw [hhold]
  have hwin : s.leaseWinner (s.polder node p).array = some id := by
    unfold State.leaseWinner
    rw [hw, hsusp, hhold]
    rfl
  have hdue : s.leaseDue (s.polder node p).array = true := by
    unfold State.leaseDue
    rw [hwin, hrun, hlive, hardue, hhold]
    rfl
  unfold State.arbitrate
  dsimp only
  rw [hnext, hdue, if_neg (by decide), hwin, hhold]
  dsimp only
  rw [if_neg (fun h => nomatch h)]
  exact (if_neg (by decide)).trans (leaseTo_waiting hw)

/-! ## The hand-over -/

theorem polders_portWords (l : List Nat) (s : State) (node p la : Nat) : (s.portWords node p la l).polders = s.polders := by
  induction l generalizing s la with
  | nil => rfl
  | cons w r ih => exact (ih _ _).trans (LegendSteps.spadWrite_keeps ..).1

theorem saveBank_polders (s : State) (node p la : Nat) (b : Bank) : (s.saveBank node p la b).polders = s.polders := rfl

/-- What a lease keeps while it is suspended. -/
def suspended (a : ArraySt) (id : CtxId) (away : Bool) : Susp :=
  ⟨id, a.holderSa, a.hiQ, a.loQ, a.hstop, a.lstop, away, a.saveWords, a.bank0.lostAt, a.bank1.lostAt⟩

/-- The array after its holder's lease was suspended. -/
def vacated (a : ArraySt) (id : CtxId) (away : Bool) : ArraySt :=
  { a with
    holder := none, holderSa := 0, hiQ := [], loQ := [], hstop := false, lstop := false, susp := a.susp ++ [suspended a id away],
    bank0 := Bank.reset, bank1 := Bank.reset, lastCore := id.core % 8, next := none }

/-- The holder's banks, header and records stand in its save area. -/
def savedState (s : State) (node p : Nat) : State :=
  let a := (s.polder node p).array
  (((((s.saveBank node p a.holderSa a.bank0).saveBank node p (a.holderSa + 65536) a.bank1).portWords node p (a.holderSa + 131072) a.saveWords).portWords node p
    (a.holderSa + 132160) (List.replicate 120 0)))

theorem handOverSave_eq {id : CtxId} (away : Bool) (hrun : (s.polder node p).array.run = none) (hhold : (s.polder node p).array.holder = some id) :
    s.handOverSave node p away = match (s.polder node p).array.next with
      | some w => ((savedState s node p).setArray node p (vacated (s.polder node p).array id away)).leaseTo node p w
      | none => ((savedState s node p).setArray node p (vacated (s.polder node p).array id away)).askLease node p := by
  unfold State.handOverSave
  dsimp only
  rw [hhold]
  exact if_neg (by rw [hrun]; decide)

theorem savedState_polders (s : State) (node p : Nat) : (savedState s node p).polders = s.polders := by
  unfold savedState
  dsimp only
  rw [polders_portWords, polders_portWords, saveBank_polders, saveBank_polders]

theorem handOverSave_grants {id w : CtxId} {sa : Nat} (away : Bool) (hrun : (s.polder node p).array.run = none) (hhold : (s.polder node p).array.holder = some id)
    (hnext : (s.polder node p).array.next = some w) (hw : (s.polder node p).array.waiting = [(w, sa)]) :
    s.handOverSave node p away = ((savedState s node p).setArray node p (vacated (s.polder node p).array id away)).leaseGrant node p w sa := by
  rw [handOverSave_eq away hrun hhold, hnext]
  exact leaseTo_waiting ((congrArg ArraySt.waiting (array_setArray ..)).trans hw)

theorem handOverSave_suspends {id : CtxId} (away : Bool) (hrun : (s.polder node p).array.run = none) (hhold : (s.polder node p).array.holder = some id)
    (hnext : (s.polder node p).array.next = none) : ((s.handOverSave node p away).polder node p).array = vacated (s.polder node p).array id away := by
  rw [handOverSave_eq away hrun hhold, hnext]
  exact (array_congr (askLease_polders ..).1 ..).trans (array_setArray ..)

theorem array_setPolder {q : Polder} (h : q.array = (s.polder node p).array) (n' p' : Nat) : ((s.setPolder node p q).polder n' p').array = (s.polder n' p').array := by
  by_cases hk : (n', p') = (node, p)
  · obtain ⟨rfl, rfl⟩ := Prod.mk.inj hk
    rw [setPolder_polder_same, h]
  · exact congrArg Polder.array (tget_tset_other _ _ _ _ _ hk)

theorem array_stopCmd (s : State) (node p : Nat) (c : Cmd) (cause : Cause) (fva : Word) (respt : Nat) (b : Bool) (n' p' : Nat) :
    ((s.stopCmd node p c cause fva respt b).polder n' p').array = (s.polder n' p').array := by
  unfold State.stopCmd
  dsimp only
  rw [array_setPolder (by rfl)]
  unfold State.freeCmd
  dsimp only
  rw [array_setPolder (by rfl)]
  refine array_congr (s := s) ?_ n' p'
  split
  · exact EngineSteps.polders_barFault ..
  · exact EngineSteps.polders_barFault ..

theorem array_stopSaved (l : List (Cmd × Cause × Nat)) (s : State) (node p n' p' : Nat) :
    ((l.foldl (fun (s : State) (e : Cmd × Cause × Nat) => s.stopSaved node p e.1 e.2.1 e.2.2) s).polder n' p').array = (s.polder n' p').array := by
  induction l generalizing s with
  | nil => rfl
  | cons e l ih => exact (ih _).trans (array_stopCmd ..)

theorem askIdle_polders (s : State) (node p : Nat) : (s.askIdle node p).polders = s.polders := by
  unfold State.askIdle
  split
  · exact (askLease_polders ..).1
  · rfl

theorem polders_runAgain (s : State) (id : CtxId) :
    (if (s.ctx id).wait = some .restore then s.setCtx id { s.ctx id with st := .ready, wait := none } else s).polders = s.polders := by
  split <;> rfl

/-- A lease alone, suspended and not taken away, is restored. -/
theorem handOverRestore_restores {x : Susp} (hhold : (s.polder node p).array.holder = none) (hnext : (s.polder node p).array.next = none)
    (hsusp : (s.polder node p).array.susp = [x]) (hsaved : x.saved = false) (hw : (s.polder node p).array.waiting = [])
    (hheld : s.restoreHeld (s.polder node p).array x = false) : ((s.handOverRestore node p).polder node p).array.holder = some x.id ∧
      ((s.handOverRestore node p).polder node p).array.holderSa = x.sa ∧ ((s.handOverRestore node p).polder node p).array.susp = [] := by
  have hself : ({ (s.polder node p).array with next := none } : ArraySt) = (s.polder node p).array := by rw [← hnext]
  have hwin : s.leaseWinner (s.polder node p).array = some x.id := by
    unfold State.leaseWinner
    rw [hw, hsusp, hhold, List.filter_cons_of_pos (by rw [hsaved, hheld]; rfl)]
    rfl
  have hfind : (s.polder node p).array.susp.find? (fun (y : Susp) => y.id == x.id && !y.saved) = some x := by
    rw [hsusp]
    exact List.find?_cons_of_pos (by rw [hsaved]; simp)
  have hgone : (s.polder node p).array.susp.filter (fun (y : Susp) => y.id != x.id) = [] := by
    rw [hsusp]
    exact List.filter_eq_nil_iff.mpr (fun y hy => by rw [List.mem_singleton.mp hy]; simp)
  have hex : ∃ b, ((s.handOverRestore node p).polder node p).array = b ∧ b.holder = some x.id ∧ b.holderSa = x.sa ∧ b.susp = [] := by
    unfold State.handOverRestore
    rw [hself]
    dsimp only
    rw [hnext, Option.none_or, hwin]
    dsimp only
    rw [hfind]
    dsimp only
    rw [if_neg (by rw [hhold]; decide)]
    refine ⟨_, (array_congr ((LegendSteps.enq_polders ..).trans (askIdle_polders ..)) ..).trans ((array_congr (polders_runAgain ..) ..).trans ((array_stopSaved ..).trans (array_setArray ..))), ?_⟩
    exact ⟨rfl, rfl, hgone⟩
  obtain ⟨b, hb, h1, h2, h3⟩ := hex
  rw [hb]
  exact ⟨h1, h2, h3⟩

theorem columnRemap_moves {j c : Nat} {l r : List Nat} (hret : (s.polder node p).array.retiring = j :: l) (hrun : (s.polder node p).array.run = none)
    (hsp : s.spareCols node p = c :: r) :
    s.columnRemap node p = s.setArray node p { (s.polder node p).array with
      cols := tset (s.polder node p).array.cols j c, spares := (s.polder node p).array.spares - 1, retiring := l } := by
  unfold State.columnRemap
  dsimp only
  rw [hret]
  dsimp only
  rw [hrun, hsp]
  rfl

/-! ## One element's accumulation (R319) -/

theorem finAdd_comm (rd s1 : Bool) (n1 d1 : Nat) (s2 : Bool) (n2 d2 : Nat) : finAdd rd s1 n1 d1 s2 n2 d2 = finAdd rd s2 n2 d2 s1 n1 d1 := by
  have hz : (if n1 = 0 ∧ n2 = 0 ∧ s1 = s2 then s1 else rd) = if n2 = 0 ∧ n1 = 0 ∧ s2 = s1 then s2 else rd := by
    by_cases h : n1 = 0 ∧ n2 = 0 ∧ s1 = s2
    · obtain ⟨h1, h2, h3⟩ := h
      rw [if_pos ⟨h1, h2, h3⟩, if_pos ⟨h2, h1, h3.symm⟩, h3]
    · rw [if_neg h, if_neg (fun g => h ⟨g.2.1, g.1, g.2.2.symm⟩)]
  unfold finAdd
  dsimp only
  rw [Int.add_comm, Nat.mul_comm d1 d2, hz]

theorem fvAdd_comm {rd : Bool} {a b : FVal} (ha : a.isNan = false) (hb : b.isNan = false) : fvAdd rd a b = fvAdd rd b a := by
  cases a with
  | nan => cases ha
  | inf s =>
    cases b with
    | nan => cases hb
    | inf t =>
      change (if s = t then (FVal.inf s, 0) else (FVal.invalid, fNV)) = if t = s then (FVal.inf t, 0) else (FVal.invalid, fNV)
      by_cases h : s = t
      · rw [if_pos h, if_pos h.symm, h]
      · rw [if_neg h, if_neg (Ne.symm h)]
    | fin => rfl
  | fin s n d q =>
    cases b with
    | nan => cases hb
    | inf t => rfl
    | fin t m e q' =>
      exact congrArg (·, 0) (finAdd_comm ..)

/-- A product of two numbers is a NaN only where 0 meets ∞. -/
theorem fvMul_number {a b : FVal} (ha : a.isNan = false) (hb : b.isNan = false) :
    fvMul a b = (.invalid, fNV) ∧ zeroTimesInf a b = true ∨ (fvMul a b).1.isNan = false ∧ zeroTimesInf a b = false := by
  cases a with
  | nan => cases ha
  | inf s =>
    cases b with
    | nan => cases hb
    | inf t => exact .inr ⟨rfl, rfl⟩
    | fin t m e q =>
      by_cases h : m = 0
      · subst h
        exact .inl ⟨rfl, rfl⟩
      · refine .inr ⟨?_, ?_⟩
        · exact congrArg (fun r => r.1.isNan) (show fvMul (.inf s) (.fin t m e q) = (.inf (s != t), 0) from if_neg h)
        · simp [zeroTimesInf, FVal.isZero, FVal.isInf, h]
  | fin s n d q =>
    cases b with
    | nan => cases hb
    | inf t =>
      by_cases h : n = 0
      · subst h
        exact .inl ⟨rfl, rfl⟩
      · refine .inr ⟨?_, ?_⟩
        · exact congrArg (fun r => r.1.isNan) (show fvMul (.fin s n d q) (.inf t) = (.inf (s != t), 0) from if_neg h)
        · simp [zeroTimesInf, FVal.isZero, FVal.isInf, h]
    | fin t m e q' => exact .inr ⟨rfl, by simp [zeroTimesInf, FVal.isInf]⟩

theorem groupInvalid_one (a b : FVal) : groupInvalid [a] [b] = zeroTimesInf a b := by
  have hp : groupProducts [a] [b] = [(fvMul a b).1] := rfl
  have hinf : (([(fvMul a b).1] : List FVal).contains (.inf false) && ([(fvMul a b).1] : List FVal).contains (.inf true)) = false := by
    cases h : (fvMul a b).1 with
    | nan => rfl
    | fin => rfl
    | inf t => cases t <;> rfl
  unfold groupInvalid
  dsimp only
  rw [hp, hinf, Bool.or_false]
  exact Bool.or_false _

theorem nanResult_none {t : ETy} {r : Rnd} {vs : List FVal} {b : Bool} (h : ∀ v ∈ vs, v.isNan = false) : nanResult t r vs b = none := by
  unfold nanResult
  rw [List.find?_eq_none.mpr (fun v hv => by rw [h v hv]; decide)]

/-- A group of one product, without a NaN, is the fused multiply-add. -/
theorem emmaCell_one {r : Rnd} {c x y : Nat} (hmode : r.mode = 0) (hc : (ETy.decode .fp32 c).isNan = false) (hx : (ETy.decode .fp32 x).isNan = false)
    (hy : (ETy.decode .fp32 y).isNan = false) : emmaCell r c [ETy.decode .fp32 x] [ETy.decode .fp32 y] = fpFma .fp32 r false c x y := by
  have hm : (r.mode == 2) = false := by rw [hmode]; rfl
  have hcell : emmaCell r c [ETy.decode .fp32 x] [ETy.decode .fp32 y] = if zeroTimesInf (ETy.decode .fp32 x) (ETy.decode .fp32 y) = true
      then opResult .fp32 r (.invalid, fNV) else opResult .fp32 r (fvAdd false (ETy.decode .fp32 c) (fvMul (ETy.decode .fp32 x) (ETy.decode .fp32 y)).1) := by
    unfold emmaCell
    dsimp only
    rw [groupInvalid_one, nanResult_none]
    · rfl
    · intro v hv
      simp only [List.zip_cons_cons, List.zip_nil_right, List.flatMap_cons, List.flatMap_nil, List.append_nil, List.mem_cons, List.not_mem_nil, or_false] at hv
      rcases hv with rfl | rfl | rfl
      exacts [hc, hx, hy]
  have hfma : fpFma .fp32 r false c x y = opResult .fp32 r (fvFma false (ETy.decode .fp32 c) (ETy.decode .fp32 x) (ETy.decode .fp32 y)) := by
    unfold fpFma
    dsimp only
    rw [hm, nanResult_none]
    · rfl
    · intro v hv
      simp only [List.mem_cons, List.not_mem_nil, or_false] at hv
      rcases hv with rfl | rfl | rfl
      exacts [hx, hy, hc]
  rw [hcell, hfma]
  unfold fvFma
  dsimp only
  rcases fvMul_number hx hy with ⟨hp, hz⟩ | ⟨hp, hz⟩
  · rw [hp, if_pos hz]
    rfl
  · rw [if_neg (by rw [hz]; decide), if_neg (by rw [hp]; decide), fvAdd_comm hc hp]

theorem leased_suspended {a : ArraySt} {id : CtxId} {x : Susp} (hhold : a.holder = none) (hx : x ∈ a.susp) (hid : x.id = id) : a.leased id = true := by
  unfold ArraySt.leased
  rw [hhold, Bool.or_eq_true]
  exact .inr (List.any_eq_true.mpr ⟨x, hx, beq_iff_eq.mpr hid⟩)

/-! ## The clauses of the obligation that need more than one rule -/

section
variable {id : CtxId} {c : Cmd} {l : List Cmd} (hrun : (s.polder node p).array.run = none) (hhold : (s.polder node p).array.holder = some id)
  (hend : (s.polder node p).array.ending = false) (hnext : (s.polder node p).array.next = none) (hdue : s.leaseDue (s.polder node p).array = false)
  (hlost : ∀ d ∈ (s.polder node p).array.hiQ ++ (s.polder node p).array.loQ, s.counterLost d = none) (hmay : s.mayStart c = true)
include hrun hhold hend hnext hdue hlost hmay

/-- The head of the high queue starts before any of the low one. -/
theorem highHead_starts (hq : (s.polder node p).array.hiQ = c :: l) (hstop : (s.polder node p).array.hstop = false) (hhi : c.hi = true) :
    ((s.arrStart node p).polder node p).array.run = some (launched s c) ∧ ((s.arrStart node p).polder node p).array.hiQ = l ∧
    ((s.arrStart node p).polder node p).array.loQ = (s.polder node p).array.loQ ∧
    ((s.arrStart node p).polder node p).array.quantum = (s.polder node p).array.quantum - 1 ∧ (s.arrStart node p).mem = s.mem := by
  have hlive : (s.polder node p).array.live = true := by
    unfold ArraySt.live
    rw [hhold, hend, hq]
    rfl
  have hfind : (queueHeads (s.polder node p).array).find? (fun c => s.mayStart c) = some c := by
    unfold queueHeads
    rw [hstop, hq]
    exact List.find?_cons_of_pos hmay
  have hpop : popped (s.polder node p).array c = { (s.polder node p).array with hiQ := (s.polder node p).array.hiQ.drop 1 } := if_pos hhi
  have hstart := arrStart_starts hrun (by rw [hhold]; exact Option.some_ne_none id) hlive hnext hdue hlost hfind
  rw [hpop, hq] at hstart
  exact hstart

/-- With the high queue empty, the head of the low one starts. -/
theorem lowHead_starts (hempty : (s.polder node p).array.hiQ = []) (hq : (s.polder node p).array.loQ = c :: l) (hstop : (s.polder node p).array.lstop = false) (hlo : c.hi = false) :
    ((s.arrStart node p).polder node p).array.run = some (launched s c) ∧ ((s.arrStart node p).polder node p).array.loQ = l ∧
    ((s.arrStart node p).polder node p).array.quantum = (s.polder node p).array.quantum - 1 ∧ (s.arrStart node p).mem = s.mem := by
  have hlive : (s.polder node p).array.live = true := by
    unfold ArraySt.live
    rw [hhold, hend, hempty, hq]
    rfl
  have hfind : (queueHeads (s.polder node p).array).find? (fun c => s.mayStart c) = some c := by
    unfold queueHeads
    rw [hstop, hempty, hq, List.take_nil, ite_self]
    exact List.find?_cons_of_pos hmay
  have hpop : popped (s.polder node p).array c = { (s.polder node p).array with loQ := (s.polder node p).array.loQ.drop 1 } :=
    if_neg (by rw [hlo]; exact Bool.false_ne_true)
  obtain ⟨h1, _, h3, h4, h5⟩ := arrStart_starts hrun (by rw [hhold]; exact Option.some_ne_none id) hlive hnext hdue hlost hfind
  rw [hpop] at h3 h4
  rw [hq] at h3
  exact ⟨h1, h3, h4, h5⟩

end

theorem arbitrate_leases {id : CtxId} {sa : Nat} (hrun : (s.polder node p).array.run = none) (hhold : (s.polder node p).array.holder = none)
    (hnext : (s.polder node p).array.next = none) (hsusp : (s.polder node p).array.susp = []) (hw : (s.polder node p).array.waiting = [(id, sa)]) :
    ((s.arbitrate node p).polder node p).array.holder = some id ∧ ((s.arbitrate node p).polder node p).array.holderSa = sa ∧
    ((s.arbitrate node p).polder node p).array.waiting = [] ∧ ((s.arbitrate node p).polder node p).array.hstop = false ∧
    ((s.arbitrate node p).polder node p).array.lstop = false ∧ ((s.arbitrate node p).ctx id).granted = true ∧
    ((s.arbitrate node p).polder node p).array.bank0 = Bank.reset ∧ ((s.arbitrate node p).polder node p).array.bank1 = Bank.reset ∧
    ((s.arbitrate node p).polder node p).array.quantum = (s.core id.node id.core).quant.toNat ∧ (s.arbitrate node p).mem = s.mem := by
  rw [arbitrate_grants hrun hhold hnext hsusp hw]
  obtain ⟨harr, hgr, hmem⟩ := leaseGrant_grants s node p id sa
  rw [harr, hw]
  exact ⟨rfl, rfl, filter_alone id sa, rfl, rfl, hgr, rfl, rfl, rfl, hmem⟩

theorem handOverSave_leases {id w : CtxId} {sa : Nat} (away : Bool) (hrun : (s.polder node p).array.run = none) (hhold : (s.polder node p).array.holder = some id)
    (hnext : (s.polder node p).array.next = some w) (hw : (s.polder node p).array.waiting = [(w, sa)]) :
    ((s.handOverSave node p away).polder node p).array.holder = some w ∧ ((s.handOverSave node p away).polder node p).array.holderSa = sa ∧
    ((s.handOverSave node p away).polder node p).array.waiting = [] ∧ ((s.handOverSave node p away).polder node p).array.next = none ∧
    ((s.handOverSave node p away).ctx w).granted = true := by
  rw [handOverSave_grants away hrun hhold hnext hw]
  obtain ⟨harr, hgr, _⟩ := leaseGrant_grants ((savedState s node p).setArray node p (vacated (s.polder node p).array id away)) node p w sa
  have hwait : (vacated (s.polder node p).array id away).waiting = [(w, sa)] := hw
  rw [harr, array_setArray, hwait]
  exact ⟨rfl, rfl, filter_alone w sa, rfl, hgr⟩

theorem columnRemap_remaps {j c : Nat} {l r : List Nat} (hret : (s.polder node p).array.retiring = j :: l) (hrun : (s.polder node p).array.run = none)
    (hsp : s.spareCols node p = c :: r) : tget j ((s.columnRemap node p).polder node p).array.cols j = c ∧
      ((s.columnRemap node p).polder node p).array.spares = (s.polder node p).array.spares - 1 ∧ ((s.columnRemap node p).polder node p).array.retiring = l := by
  rw [columnRemap_moves hret hrun hsp, array_setArray]
  exact ⟨tget_tset_same .., rfl, rfl⟩

/-- Settles O54. -/
theorem eventsOfMatrixArrays : Obligations.EventsOfMatrixArrays := by
  unfold Obligations.EventsOfMatrixArrays
  intro s
  refine ⟨fun id c l hrun hhold hend hnext hdue hlost => ⟨?_, ?_⟩, fun c u c' last hrun h5 _ hunit => completes_of (u := s.arrRow s.ev.node s.ev.n) rfl (arrRow_commits hrun h5 hunit),
    fun c hrun h4 hrag hopen hl => ?_, fun c hrun h4 hrag h0 hsub => ?_, fun c hrun h5 hend => completes_of (u := s.arrComplete s.ev.node s.ev.n) rfl (arrComplete_zeroes hrun h5 hend),
    fun id sa hrun hhold hnext hsusp hw => completes_of (u := s.arbitrate s.ev.node s.ev.n) rfl (arbitrate_leases hrun hhold hnext hsusp hw),
    fun id w sa hrun hhold hnext hw => completes_of (u := s.handOverSave s.ev.node s.ev.n false) rfl (handOverSave_leases false hrun hhold hnext hw), fun id hrun hhold hnext => ?_,
    fun x hhold hnext hsusp hsaved hw hheld => completes_of (u := s.handOverRestore s.ev.node s.ev.n) rfl (handOverRestore_restores hhold hnext hsusp hsaved hw hheld),
    fun j l c r hret hrun hsp => completes_of (u := s.columnRemap s.ev.node s.ev.n) rfl (columnRemap_remaps hret hrun hsp), fun r c x y hmode _ _ _ hc hx hy => emmaCell_one hmode hc hx hy⟩
  case refine_1 =>
    intro hq hstop hmay hhi _ _
    exact completes_of (u := s.arrStart s.ev.node s.ev.n) rfl (highHead_starts hrun hhold hend hnext hdue hlost hmay hq hstop hhi)
  case refine_2 =>
    intro hempty hq hstop hmay hlo _ _
    exact completes_of (u := s.arrStart s.ev.node s.ev.n) rfl (lowHead_starts hrun hhold hend hnext hdue hlost hmay hempty hq hstop hlo)
  case refine_3 =>
    obtain ⟨harr, hmem⟩ := raggedJoin_joins hrun h4 hrag hopen hl
    exact completes_of (u := s.raggedJoin s.ev.node s.ev.n) rfl ⟨hmem, congrArg ArraySt.run harr⟩
  case refine_4 => exact completes_of (u := s.raggedJoin s.ev.node s.ev.n) rfl (raggedJoin_closed hrun (.inr (.inr ⟨h0, hsub⟩)))
  case refine_5 =>
    refine completes_of (u := s.handOverSave s.ev.node s.ev.n false) rfl ?_
    dsimp only
    rw [handOverSave_suspends false hrun hhold hnext]
    exact ⟨rfl, rfl, rfl, leased_suspended rfl (List.mem_append_right _ (List.mem_singleton_self _)) rfl, rfl, rfl, suspended _ id false, rfl, rfl, rfl, rfl, rfl, rfl, rfl, rfl, rfl⟩

end Sys2Proof.ArraySteps
end
